-- ==== Sys2Proof/Word.lean ====
section
/-! DEFINITION. The word types of the B9: a register is 32 bits wide (R4), a byte is 8. -/

namespace Sys2Proof

/-- A 32-bit register word (R4). -/
abbrev Word := BitVec 32

/-- One byte of memory or of a link. -/
abbrev Byte := BitVec 8

end Sys2Proof
end

