-- ==== Sys2Proof/Syntax.lean ====
section
/-! DEFINITION. The commands of the block: one constructor of `Instr` per row of spec/opcode_table.json,
with the operands its rule names. Indices are plain numbers; `WellFormed` bounds them. -/

namespace Sys2Proof

/-- The requesters of register accesses (R476, R477), in the priority order of R476. -/
inductive Requester
  | sage | cc0 | cc1 | cc2 | cc3 | cfg | monitor | debug
  deriving DecidableEq, Repr

/-- The frame rings of the device (R11, R171, R232, R250). -/
inductive RingId
  | tap (n t : Nat)
  | branch (n b : Nat)
  | prc (n : Nat)
  | enc (c : Nat)
  deriving DecidableEq, Repr

/-- The consumers of frame rings (R15): recording streams, encoder contexts, scan-out, network
stream contexts, and the consumers firmware runs on memory. -/
inductive ConsumerId
  | stream (k : Nat)
  | enc (c : Nat)
  | sco
  | net (s : Nat)
  | firmware (i : Nat)
  deriving DecidableEq, Repr

/-- A physical pip: pip `pip` (0 to 8) of pod `pod` (R186). -/
structure PipRef where
  pod : Nat
  pip : Nat
  deriving DecidableEq, Repr

/-- A block as a lane's receiver hands it to bonding: sync header and descrambled payload (R58, R59). -/
abbrev Block := BitVec 2 × BitVec 64

/-- A column: the blocks at one block index of lanes 0 to 11 (R65). What a lane that delivers nothing shows is not
looked at. -/
abbrev Column := List Block

/-- What one lane shows when an ALIGN column is looked for: the block, and how many blocks after the first lane's ALIGN
it stands there; `none` is a lane with no control block there (R68 to R71). -/
abbrev AlignSeen := Option (Block × Nat)

/-- A line as columns: its SOL, data and EOL columns (R62, R67). -/
structure JavelLine where
  sol  : Column
  data : List Column
  eol  : Column
  deriving DecidableEq, Repr

/-- What the CSI-2 header ECC found (R91, R94). -/
inductive CsiHeader
  | good | corrected | bad
  deriving DecidableEq, Repr

/-- A CSI-2 long packet as received (R91, R92). -/
structure CsiLong where
  header  : CsiHeader
  vc      : Nat
  dtype   : Nat
  payload : List Byte
  crc     : BitVec 16
  deriving DecidableEq, Repr

/-- What a DRAM read or a re-read finds in the burst (R284). -/
inductive EccFound
  | clean | single | multi
  deriving DecidableEq, Repr

/-- A memory access of a bus master (R23, R276). `write = none` reads `len` bytes. -/
structure MemReq where
  cls   : Nat
  addr  : Nat
  len   : Nat
  write : Option (List Byte)
  found : EccFound
  deriving DecidableEq, Repr

/-- What the attach steps of R287 found at a member; `mdts` is its power of two of 4 KiB, 0 for no limit (R289). -/
structure AttachResult where
  linkUp    : Bool
  speed     : Nat
  width     : Nat
  ready     : Bool
  nsPresent : Bool
  lbaFormat : Bool
  blocks    : Nat
  pairs     : Nat
  mdts      : Nat
  vwc       : Bool
  uid       : BitVec 64
  deriving DecidableEq, Repr

/-- What spoils a line of scan-out (R339, R341): its video or its overlay comes late, or the line buffer's parity fails. -/
inductive LineFault
  | video
  | overlay
  | parity
  deriving DecidableEq, Repr

/-- What the endpoint found wrong with a fetch (R332): a poisoned TLP, a host completion timeout, a parity error in a
command or lock-table store. -/
inductive OepError
  | poisoned
  | timeout
  | parity
  deriving DecidableEq, Repr

/-- A submission queue entry of the offload host (R313): the fields the endpoint acts on. -/
structure Sqe where
  opcode : Nat
  fused  : Nat
  psdt   : Nat
  cid    : Nat
  nsid   : Nat
  prp1   : BitVec 64
  prp2   : BitVec 64
  cdw10  : Word
  cdw11  : Word
  cdw12  : Word
  data   : List Byte
  deriving DecidableEq, Repr

/-- A prediction unit of a P picture (R244): merged or searched, its reference, and its vector in quarter pixels. -/
structure CodedPu where
  merge : Bool
  ref   : Nat
  mvx   : Int
  mvy   : Int
  deriving DecidableEq, Repr

/-- What the encoder engine coded for a CTB (R243, R248): its bytes and bits of slice data, whether it is intra or
skipped, its prediction units, and the squared differences of its reconstruction. -/
structure CodedCtb where
  data      : List Byte
  bits      : Nat
  intra     : Bool
  skipped   : Bool
  pus       : List CodedPu
  ssdLuma   : Nat
  ssdChroma : Nat
  deriving DecidableEq, Repr

/-- What the encoder engine coded for a picture: its CTBs, and the one at which an on-die parity error struck (R259). -/
structure CodedPicture where
  ctbs   : List CodedCtb
  parity : Option Nat
  deriving DecidableEq, Repr

/-- What the decoder engine decoded of a picture (R254, R256, R259): samples per component, the motion field, and the
CTBs at which it met a bitstream error or an on-die parity error. -/
structure DecodedAu where
  planes : List (List (List Nat))
  motion : List Byte
  errors : List Nat
  parity : Option Nat
  deriving DecidableEq, Repr

/-- How a bus transaction on PMBus ended (R433). -/
inductive PmbResult
  | ok (data : BitVec 16) | nack | pecError
  deriving DecidableEq, Repr

/-- What the tile watchdog, the parity checks and the signature test report of a pip (R207). -/
inductive PipFaultCause
  | signature | instrParity | dataParity | regParity | watchdog
  deriving DecidableEq, Repr

/-- The pack engine's memories that parity guards (R270): window and hash, or Huffman tables. -/
inductive PkeMemory
  | window | tables
  deriving DecidableEq, Repr

/-- The sources of a hard reset (R427); the pin's with the level of TEST_EN (R491). -/
inductive HardCause
  | pin (testEn : Bool) | watchdog | clockLoss | lockstep | sage | monitor
  deriving DecidableEq, Repr

/-- Why the host resets the offload controller (R331, R332). -/
inductive CtrlResetCause
  | ccEn | flr | shutdown | link
  deriving DecidableEq, Repr

/-- The commands of the block, in the order of spec/opcode_table.json. `at` is an instant in
picoseconds since power-on; `r` is the requester of a register access and `v` the word written; `fails` names the
DRAM channels, 8m + c, that fail training for good in a boot, and from 32 on the flash steps that fail: 32 and 34 the read of
slot A's or B's header, 33 and 35 the switch to its profile. -/
inductive Instr
  -- Register access
  | registerWrite (r : Requester) (addr : Nat) (v : Word)
  | rcRead (r : Requester) (addr : Nat)
  | loReadLatch (r : Requester) (addr : Nat)
  | accessError (r : Requester) (addr width : Nat) (write : Bool)
  -- Frame rings
  | producerFrameStart (ring : RingId)
  | frameOffer (ring : RingId)
  | tapOffer (n t : Nat)
  | consumerRelease (ring : RingId) (c : ConsumerId)
  | consumerDetach (ring : RingId) (c : ConsumerId)
  | ringGeometryWrite (r : Requester) (ring : RingId) (which : Nat) (v : Word)
  | ringBufsWrite (r : Requester) (ring : RingId) (v : Word)
  -- Clocks and events
  | pllLocked
  | referenceLost
  | eventRaised
  | evrQbaseWrite (r : Requester) (d : Nat) (v : Word)
  | evrQsizeWrite (r : Requester) (d : Nat) (v : Word)
  | evrQheadWrite (r : Requester) (d : Nat) (v : Word)
  -- Reference generator
  | refEnable (r : Requester) (v : Word)
  | refDisable (r : Requester) (v : Word)
  | refRateWrite (r : Requester) (den : Bool) (v : Word)
  | refRfnWrite (r : Requester) (v : Word)
  | refTick
  | refVEdge (at_ : Nat) (f : Bool)
  | refEdgeTimeout
  | trigPulseStart (n : Nat)
  | trigPulseEnd (n : Nat)
  -- Settings and commits
  | setPush (r : Requester) (n : Nat) (v : Word)
  | setClose (r : Requester) (n : Nat) (v : Word)
  | setWriteSend (n : Nat)
  | setLastWrite (n : Nat)
  | commit (r : Requester) (n : Nat) (v : Word)
  | commitCaptureDone (n : Nat)
  | tableLoadDone (n : Nat)
  | frameEnterUnpack (n : Nat)
  -- Javel lanes
  | laneReadapt (r : Requester) (n k : Nat)
  | blockReceived (n k : Nat) (header : BitVec 2) (payload : BitVec 64)
  | alignColumn (n : Nat) (seen : List AlignSeen)
  | deskewWindowEnd (n : Nat)
  | unknownControlBlock (n : Nat) (col : Column)
  | laneJudgeInterval (n : Nat)
  | jvChgGo (r : Requester) (n : Nat) (v : Word)
  | mapCmdSend (n : Nat)
  | mapTimeout (n : Nat)
  | laneReadmit (r : Requester) (n k : Nat)
  | jvEnable (r : Requester) (n : Nat) (v : Word)
  | jvRateWrite (r : Requester) (n : Nat) (v : Word)
  | rateSwitch (n : Nat)
  | prbsCntClr (r : Requester) (n k : Nat)
  | marginGo (r : Requester) (n k : Nat) (v : Word)
  | marginDone (n k : Nat) (disagreed : Bool)
  -- Sensor ports
  | portEnable (r : Requester) (n : Nat) (v : Word)
  | portDisable (r : Requester) (n : Nat) (v : Word)
  | portRun (r : Requester) (n : Nat) (v : Word)
  | portStop (r : Requester) (n : Nat) (v : Word)
  | frameSizeWrite (r : Requester) (n : Nat) (v : Word)
  | sofReceived (at_ n : Nat) (col : Column)
  | eofReceived (at_ n : Nat) (col : Column)
  | lineReceived (at_ n : Nat) (line : JavelLine)
  | csiFrameStart (at_ n vc : Nat) (num : BitVec 16) (h : CsiHeader)
  | csiFrameEnd (at_ n vc : Nat) (h : CsiHeader)
  | csiLongPacket (at_ n : Nat) (pkt : CsiLong)
  | csiLineStart (n vc : Nat) (num : BitVec 16) (h : CsiHeader)
  | rowTimeout (n : Nat)
  | groupVerdict (g : Nat) (rfn : Nat)
  | xclkCfgWrite (r : Requester) (n : Nat) (v : Word)
  | xclkEnable (r : Requester) (n : Nat) (v : Word)
  | syncEdge (at_ n : Nat) (rising : Bool)
  | ibi (n : Nat) (data : Byte)
  | busTransferStart (n : Nat)
  | busTransferDone (n : Nat) (nack : Bool) (rdata : Byte)
  | dirRead (r : Requester) (n : Nat) (v : Word)
  | dirWrite (r : Requester) (n : Nat) (v : Word)
  -- Image pipeline
  | rowEnterPipeline (n : Nat)
  | calClear (r : Requester) (n : Nat) (v : Word)
  | tableReload (n : Nat)
  | statsReady (n : Nat)
  | lumaReady (n : Nat)
  -- Pips: streamer and bundles (slot A operands are slot bits [25:0], slot B bits [25:0])
  | tileDispatch (j : Nat)
  | vnop (u : PipRef) (w : BitVec 26)
  | fadd (u : PipRef) (w : BitVec 26)
  | fsub (u : PipRef) (w : BitVec 26)
  | fmul (u : PipRef) (w : BitVec 26)
  | fma (u : PipRef) (w : BitVec 26)
  | fmin (u : PipRef) (w : BitVec 26)
  | fmax (u : PipRef) (w : BitVec 26)
  | fabs (u : PipRef) (w : BitVec 26)
  | fneg (u : PipRef) (w : BitVec 26)
  | frcp (u : PipRef) (w : BitVec 26)
  | flog2 (u : PipRef) (w : BitVec 26)
  | fexp2 (u : PipRef) (w : BitVec 26)
  | fcmplt (u : PipRef) (w : BitVec 26)
  | fcmple (u : PipRef) (w : BitVec 26)
  | fcmpeq (u : PipRef) (w : BitVec 26)
  | fsel (u : PipRef) (w : BitVec 26)
  | iadd (u : PipRef) (w : BitVec 26)
  | isub (u : PipRef) (w : BitVec 26)
  | imul (u : PipRef) (w : BitVec 26)
  | imin (u : PipRef) (w : BitVec 26)
  | imax (u : PipRef) (w : BitVec 26)
  | vand (u : PipRef) (w : BitVec 26)
  | vor (u : PipRef) (w : BitVec 26)
  | vxor (u : PipRef) (w : BitVec 26)
  | vshl (u : PipRef) (w : BitVec 26)
  | vshr (u : PipRef) (w : BitVec 26)
  | vsra (u : PipRef) (w : BitVec 26)
  | icmplt (u : PipRef) (w : BitVec 26)
  | icmpeq (u : PipRef) (w : BitVec 26)
  | cvtfi (u : PipRef) (w : BitVec 26)
  | cvtif (u : PipRef) (w : BitVec 26)
  | vmov (u : PipRef) (w : BitVec 26)
  | vsplat (u : PipRef) (w : BitVec 26)
  | vimm (u : PipRef) (w : BitVec 26)
  | vimmh (u : PipRef) (w : BitVec 26)
  | vswz (u : PipRef) (w : BitVec 26)
  | lut (u : PipRef) (w : BitVec 26)
  | nop (u : PipRef) (w : BitVec 26)
  | vld (u : PipRef) (w : BitVec 26)
  | vst (u : PipRef) (w : BitVec 26)
  | ldw (u : PipRef) (w : BitVec 26)
  | stw (u : PipRef) (w : BitVec 26)
  | sadd (u : PipRef) (w : BitVec 26)
  | ssub (u : PipRef) (w : BitVec 26)
  | smul (u : PipRef) (w : BitVec 26)
  | sand (u : PipRef) (w : BitVec 26)
  | sor (u : PipRef) (w : BitVec 26)
  | sxor (u : PipRef) (w : BitVec 26)
  | sshl (u : PipRef) (w : BitVec 26)
  | sshr (u : PipRef) (w : BitVec 26)
  | ssra (u : PipRef) (w : BitVec 26)
  | slt (u : PipRef) (w : BitVec 26)
  | addi (u : PipRef) (w : BitVec 26)
  | li (u : PipRef) (w : BitVec 26)
  | lui (u : PipRef) (w : BitVec 26)
  | vget (u : PipRef) (w : BitVec 26)
  | vput (u : PipRef) (w : BitVec 26)
  | br (u : PipRef) (w : BitVec 26)
  | beq (u : PipRef) (w : BitVec 26)
  | bne (u : PipRef) (w : BitVec 26)
  | blt (u : PipRef) (w : BitVec 26)
  | bany (u : PipRef) (w : BitVec 26)
  | ball (u : PipRef) (w : BitVec 26)
  | pipEnd (u : PipRef) (w : BitVec 26)
  | signatureTest (u : PipRef)
  | signatureTestDone (u : PipRef) (pass : Bool)
  | tileWatchdog (u : PipRef)
  | podMemoryReload (p : Nat)
  | packageLoad (j : Nat)
  | pipReadmit (r : Requester) (v : Word)
  | readmitTest (u : PipRef) (pass : Bool)
  -- Photre
  | prcEnable (r : Requester) (n : Nat) (v : Word)
  | prcApply (r : Requester) (n : Nat) (v : Word)
  | prcFrameStart (n : Nat)
  | slabCoded (n : Nat)
  | prcFrameDone (n : Nat)
  | prdGo (r : Requester) (v : Word)
  | prdJobDone
  -- H.265
  | encApply (r : Requester) (c : Nat) (v : Word)
  | idrRequest (r : Requester) (c : Nat) (v : Word)
  | ltMark (r : Requester) (c : Nat) (v : Word)
  | ltDrop (r : Requester) (c : Nat) (v : Word)
  | pictureStart
  | pictureDone (pic : CodedPicture)
  | decSubmit (r : Requester) (v : Word)
  | decJobStart
  | decJobDone (au : DecodedAu)
  | decCtbWatchdog (au : DecodedAu) (ctb : Nat)
  | dpbRelease (r : Requester) (d : Nat) (v : Word)
  -- Pack engine
  | pkeGo (r : Requester) (c : Nat) (v : Word)
  | pkeBlock (c : Nat) (parity : Option PkeMemory)
  | pkeResume (r : Requester) (c : Nat) (v : Word)
  | pkeAbort (r : Requester) (c : Nat) (v : Word)
  -- Memory
  | memMapApply (r : Requester) (v : Word)
  | memEnable (r : Requester) (v : Word)
  | dramRequest (reqs : List MemReq)
  | eccReread (addr : Nat) (found : EccFound)
  | refreshInterval (m ch : Nat)
  | mr4Read (m : Nat) (codes : List Nat)
  | trainGo (r : Requester) (m : Nat) (v : Word)
  | trainDone (m ch : Nat) (first retry : Bool)
  | trackingUpdate (m ch : Nat) (first retry : Bool)
  | eccRegionEnable (r : Requester) (k : Nat) (v : Word)
  | eccFillDone (k : Nat)
  -- Record media
  | memberAttach (r : Requester) (m : Nat) (v : Word)
  | attachComplete (m : Nat) (res : AttachResult)
  | memberDetach (r : Requester) (m : Nat) (v : Word)
  | memberReadmit (r : Requester) (m : Nat) (v : Word)
  | nvmeCompletion (m : Nat) (cid : BitVec 16) (success : Bool)
  | nvmeTimeout (m : Nat) (cid : BitVec 16)
  | rootPortLinkDown (m : Nat)
  | memberLinkReturn (m speed width : Nat)
  | clipOpen (r : Requester) (k : Nat) (v : Word)
  | streamFrame (k : Nat)
  | grantPush (r : Requester) (k : Nat) (v : Word)
  | frameCommit (k : Nat)
  | clipClose (r : Requester) (k : Nat) (v : Word)
  | clipClosed (k : Nat)
  | splitRewrite (k : Nat)
  | volOpen (r : Requester) (vol : Nat) (v : Word)
  | volFormat (r : Requester) (vol : Nat) (v : Word)
  | volClose (r : Requester) (vol : Nat) (v : Word)
  -- Offload endpoint
  | oepLinkUp (speed width : Nat)
  | oepLinkDown
  | ctrlEnable (asqs acqs : Nat)
  | ctrlReset (cause : CtrlResetCause)
  | ctrlResetDone
  | sqDoorbell (q tail : Nat)
  | cqDoorbell (q head : Nat)
  | commandFetch (q : Nat) (e : Sqe) (err : Option OepError)
  | identify (q cid : Nat)
  | getLogPage (q cid : Nat)
  | createIoCq (q cid : Nat)
  | deleteIoCq (q cid : Nat)
  | createIoSq (q cid : Nat)
  | deleteIoSq (q cid : Nat)
  | abort (q cid : Nat)
  | getFeatures (q cid : Nat)
  | setFeatures (q cid : Nat)
  | asynchronousEventRequest (q cid : Nat)
  | nvmRead (q cid : Nat)
  | nvmWrite (q cid : Nat)
  | flush (q cid : Nat)
  | writeZeroes (q cid : Nat)
  | datasetManagement (q cid : Nat)
  | lockGrant
  | namespaceActivate (v : Nat)
  | journalReplay (v : Nat)
  -- Scan-out
  | scoEnable (r : Requester) (v : Word)
  | scoDisable (r : Requester) (v : Word)
  | rasterFrameStart
  | rasterLine
  | lineUnderrun (sample : Nat) (fault : LineFault)
  -- Audio
  | audioRunStart (r : Requester) (n : Nat) (v : Word)
  | audioRunStop (r : Requester) (n : Nat) (v : Word)
  | audioStopped (n : Nat)
  | sampleFrame (n : Nat) (rx : List (BitVec 24)) (parity : Bool)
  | slaveSampleRx (n : Nat) (rx : List (BitVec 24)) (parity : Bool)
  | maskWrite (r : Requester) (n : Nat) (v : Word)
  | maskApply (n : Nat)
  -- Network and time
  | txFrame (m : Nat) (parity : Bool)
  | rxFrame (at_ m : Nat) (frame : List Byte) (fcsGood fecBad parity : Bool)
  | txtsPop (r : Requester) (m : Nat)
  | mdio (r : Requester) (m : Nat) (v : Word) (answer : BitVec 16)
  | netLinkChange (m : Nat) (up : Bool)
  | netStreamEnable (r : Requester) (s : Nat) (v : Word)
  | streamFrameSelect (s : Nat)
  | streamPacket (s : Nat)
  | tsuIncrCommit (r : Requester) (v : Word)
  | tsuSet (r : Requester) (v : Word)
  | tsuStep (r : Requester) (v : Word)
  | tsuSecond
  -- Position feedback and shutter
  | hallEdge (at_ c : Nat) (state : BitVec 3) (held : Nat)
  | indexEdge (at_ c : Nat) (rising : Bool) (held : Nat)
  | posWrite (r : Requester) (c : Nat) (v : Word)
  | speedWindow (c : Nat)
  | faultInput (c : Nat) (high : Bool)
  | phaseWindowClose (c : Nat)
  -- Strip-scan
  | lineTrigger (at_ n : Nat) (rising : Bool)
  | ssRowTimeout (n : Nat)
  | outputLineComplete (n : Nat) (parity : List Nat)
  -- Boot, configuration, control
  | por
  | coldBoot (fails : List Nat) (otpBad : Bool)
  | warmBoot (fails : List Nat) (otpBad : Bool)
  | xspiRead (r : Requester) (v : Word)
  | xspiDone
  | gpioSet (r : Requester) (v : Word)
  | gpioClr (r : Requester) (v : Word)
  | gpioEdge (at_ i : Nat) (level : Bool)
  | overlayRequest (r : Requester) (v : Word)
  | modeChange (pins : BitVec 4)
  | overlayCommit (n : Nat)
  | overlayApply (n : Nat)
  | bootLock (r : Requester) (v : Word)
  | warmInvalidate (r : Requester) (v : Word)
  | otpProgram (r : Requester) (v : Word)
  | otpDone
  | ctlSpiWrite (addr : BitVec 16) (data : List Byte)
  | ctlSpiRead (addr : BitVec 16) (len : Nat)
  | ctlSpiStatus
  | ctlSpiDoorbell
  | ctlSpiAck
  | ctlSpiUnknown (cmd : Byte)
  | mboxInClear (r : Requester) (v : Word)
  | mboxPost (r : Requester) (v : Word)
  -- Power, reset, thermal
  | vote (r : Requester) (c : Nat) (v : Word)
  | domainPowerDownStart (d : Nat)
  | domainOn (d : Nat) (parity : Bool)
  | quiesceTimeout (d : Nat)
  | domainOff (d : Nat)
  | offDomainAccess (r : Requester) (addr : Nat) (write : Option Word)
  | padRelease (r : Requester) (v : Word)
  | padHeld (d : Nat)
  | sleepGo (r : Requester) (v : Word)
  | sleepQuiesceDone
  | sleepDramIdle
  | wake (source : Nat)
  | clockSwitch (r : Requester) (v : Word)
  | hardReset (cause : HardCause)
  | softReset (r : Requester) (v : Word)
  | wdtKick (r : Requester) (v : Word)
  | wdtExpired
  | avsInterval (anyFail allGuard : Bool) (modes : List (Option Byte)) (sent : List Bool)
  | pmbTransaction (r : Requester) (v : Word)
  | pmbDone (res : PmbResult)
  | pmbAlert
  | thermalSlowRound (readings : List Int) (volts : List Nat) (trims : Bool)
  | thermalFastSample (s : Nat) (reading : Int)
  | sensorReadmit (r : Requester) (v : Word)
  | t3GraceExpired
  | forcedSleep
  -- Reliability
  | injArm (r : Requester) (k : Nat) (v : Word)
  | injDisarm (r : Requester) (k : Nat) (v : Word)
  | rateInterval
  | faultLogWrite
  | logClear (r : Requester) (v : Word)
  -- Monitor and JTAG
  | autobaud (bitTimePs : Nat) (char : Byte)
  | monitorSyntaxError
  | monitorRead (addr count : Nat)
  | monitorWriteWord (addr : Nat) (v : Word)
  | monitorDump (addr count : Nat)
  | monitorFill (addr count : Nat) (v : Word)
  | monitorCnt (addr : Nat)
  | monitorInj (k : Nat) (id : BitVec 16) (everyN : Option (BitVec 16)) (count : BitVec 16)
  | monitorLog (count : Nat)
  | monitorLogClear
  | monitorClk
  | monitorVote (mask : Word)
  | monitorReadmit (pod pip : Nat)
  | bootRetry (fails : List Nat) (otpBad : Bool)
  | bootRecover (count : Nat) (data : List Byte) (fails : List Nat)
  | recoverTimeout
  | monitorResetSoft
  | monitorResetHard
  | challenge (nonce : BitVec 256)
  | unlock (key : List Byte) (sig : List Byte)
  | help
  | bypass
  | idcode
  | samplePreload (pins : List Bool) (shiftIn : List Bool)
  | extest
  | jtagDebug
  -- Rows added at the end of the table
  | prbsCheck (n k : Nat) (bits : List Bool)
  | packageLoadDone (j : Nat)
  | memoryAccess (r : Requester) (addr len : Nat) (write : Option (List Byte)) (found : EccFound)
  | perBankRefresh (m ch : Nat) (waiting : Bool)
  | accessHoldEnd (d : Nat)
  | timeCounterParity
  deriving DecidableEq, Repr

end Sys2Proof
end

