-- ==== Sys2Proof/Machine/Regs.lean ====
section
/-! DEFINITION. The register map (R470) and every register's fields, access codes (R5), reset values and
classes (R6), in the tables' own layout: one address function and one field locator per named field, and one
row per register for the generic accesses. -/

namespace Sys2Proof.Machine

/-- Access codes (R5). -/
inductive Acc
  | ro | rw | rwc | rwl | w1c | w1s | wo | rc
  deriving DecidableEq, Repr

/-- Register classes (R6). -/
inductive Cls
  | p | h | s | d
  deriving DecidableEq, Repr

/-- Where a field stands: its register's address and its bits. -/
structure Fld where
  addr : Nat
  hi   : Nat
  lo   : Nat
  deriving DecidableEq, Repr

/-- A field of a register row: bits, access code and reset value. -/
structure FieldRow where
  hi    : Nat
  lo    : Nat
  acc   : Acc
  reset : Nat
  deriving DecidableEq, Repr

/-- One register of a block: its offset, the strides and counts of its repetitions, its class and fields.
Bits of no field are reserved (R4). -/
structure RegRow where
  off    : Nat
  dims   : List (Nat × Nat)
  cls    : Cls
  fields : List FieldRow
  deriving DecidableEq, Repr

/-! ### SYS -/

def SYS_ID : Nat := 0x40000000
def SYS_ID_rev : Fld := ⟨SYS_ID, 31, 28⟩
def SYS_ID_part : Fld := ⟨SYS_ID, 27, 12⟩
def SYS_ACC_ERR : Nat := 0x40000004
def SYS_ACC_ERR_LAST : Nat := 0x40000008
def SYS_ACC_ERR_LAST_cause : Fld := ⟨SYS_ACC_ERR_LAST, 1, 0⟩
def SYS_ACC_ERR_LAST_offset : Fld := ⟨SYS_ACC_ERR_LAST, 29, 2⟩
def EVR_ROUTE (b : Nat) : Nat := 0x40001000 + 0x4 * b
def EVR_ROUTE_dest (b : Nat) : Fld := ⟨EVR_ROUTE b, 4, 0⟩
def EVR_OVR (k : Nat) : Nat := 0x40001400 + 0x4 * k
def EVR_OVR_en (k : Nat) : Fld := ⟨EVR_OVR k, 31, 31⟩
def EVR_OVR_dest (k : Nat) : Fld := ⟨EVR_OVR k, 20, 16⟩
def EVR_OVR_event_id (k : Nat) : Fld := ⟨EVR_OVR k, 15, 0⟩
def EVR_QBASE (d : Nat) : Nat := 0x40001800 + 0x40 * d
def EVR_QBASE_base (d : Nat) : Fld := ⟨EVR_QBASE d, 24, 4⟩
def EVR_QSIZE (d : Nat) : Nat := 0x40001804 + 0x40 * d
def EVR_QSIZE_entries (d : Nat) : Fld := ⟨EVR_QSIZE d, 12, 0⟩
def EVR_QHEAD (d : Nat) : Nat := 0x40001808 + 0x40 * d
def EVR_QHEAD_head (d : Nat) : Fld := ⟨EVR_QHEAD d, 31, 0⟩
def EVR_QTAIL (d : Nat) : Nat := 0x4000180C + 0x40 * d
def EVR_QTAIL_tail (d : Nat) : Fld := ⟨EVR_QTAIL d, 31, 0⟩
def EVR_QDROP_LO (d : Nat) : Nat := 0x40001810 + 0x40 * d
def EVR_QDROP_LO_drop_lo (d : Nat) : Fld := ⟨EVR_QDROP_LO d, 31, 0⟩
def EVR_QDROP_HI (d : Nat) : Nat := 0x40001814 + 0x40 * d
def EVR_QDROP_HI_drop_hi (d : Nat) : Fld := ⟨EVR_QDROP_HI d, 31, 0⟩
def EVR_QSTAT (d : Nat) : Nat := 0x40001818 + 0x40 * d
def EVR_QSTAT_bad_write (d : Nat) : Fld := ⟨EVR_QSTAT d, 1, 1⟩
def EVR_QSTAT_lost (d : Nat) : Fld := ⟨EVR_QSTAT d, 0, 0⟩
def EVR_QWR_LO (d : Nat) : Nat := 0x4000181C + 0x40 * d
def EVR_QWR_LO_wr_lo (d : Nat) : Fld := ⟨EVR_QWR_LO d, 31, 0⟩
def EVR_QWR_HI (d : Nat) : Nat := 0x40001820 + 0x40 * d
def EVR_QWR_HI_wr_hi (d : Nat) : Fld := ⟨EVR_QWR_HI d, 31, 0⟩

/-- The registers of SYS (chapter 24). -/
def rowsSys : List RegRow :=
  [ ⟨0x0, [], .p, [⟨31, 28, .ro, 0x1⟩, ⟨27, 12, .ro, 0x9480⟩]⟩
  , ⟨0x4, [], .s, [⟨31, 0, .rc, 0x0⟩]⟩
  , ⟨0x8, [], .s, [⟨1, 0, .ro, 0x0⟩, ⟨29, 2, .ro, 0x0⟩]⟩
  , ⟨0x1000, [(0x4, 256)], .s, [⟨4, 0, .rw, 0x10⟩]⟩
  , ⟨0x1400, [(0x4, 64)], .s, [⟨31, 31, .rw, 0x0⟩, ⟨20, 16, .rw, 0x0⟩, ⟨15, 0, .rw, 0x0⟩]⟩
  , ⟨0x1800, [(0x40, 5)], .s, [⟨24, 4, .rw, 0x0⟩]⟩
  , ⟨0x1804, [(0x40, 5)], .s, [⟨12, 0, .rw, 0x0⟩]⟩
  , ⟨0x1808, [(0x40, 5)], .s, [⟨31, 0, .rw, 0x0⟩]⟩
  , ⟨0x180C, [(0x40, 5)], .s, [⟨31, 0, .ro, 0x0⟩]⟩
  , ⟨0x1810, [(0x40, 5)], .s, [⟨31, 0, .ro, 0x0⟩]⟩
  , ⟨0x1814, [(0x40, 5)], .s, [⟨31, 0, .ro, 0x0⟩]⟩
  , ⟨0x1818, [(0x40, 5)], .s, [⟨1, 1, .w1c, 0x0⟩, ⟨0, 0, .w1c, 0x0⟩]⟩
  , ⟨0x181C, [(0x40, 5)], .s, [⟨31, 0, .ro, 0x0⟩]⟩
  , ⟨0x1820, [(0x40, 5)], .s, [⟨31, 0, .ro, 0x0⟩]⟩]

/-! ### PWR -/

def PWR_VOTE (c : Nat) : Nat := 0x40100000 + 0x4 * c
def PWR_VOTE_vote (c : Nat) : Fld := ⟨PWR_VOTE c, 30, 0⟩
def PWR_STATUS : Nat := 0x40100020
def PWR_STATUS_on : Fld := ⟨PWR_STATUS, 30, 0⟩
def PWR_BUSY : Nat := 0x40100024
def PWR_BUSY_trans : Fld := ⟨PWR_BUSY, 30, 0⟩
def PWR_PAD_HELD : Nat := 0x40100028
def PWR_PAD_HELD_held : Fld := ⟨PWR_PAD_HELD, 30, 0⟩
def PWR_PAD_RELEASE : Nat := 0x4010002C
def PWR_PAD_RELEASE_rel : Fld := ⟨PWR_PAD_RELEASE, 30, 0⟩
def PWR_HYST : Nat := 0x40100030
def PWR_HYST_us : Fld := ⟨PWR_HYST, 15, 0⟩
def PWR_STATE : Nat := 0x40100034
def PWR_STATE_state : Fld := ⟨PWR_STATE, 2, 0⟩
def PWR_STATE_refuse : Fld := ⟨PWR_STATE, 5, 4⟩
def PWR_SLEEP : Nat := 0x40100038
def PWR_SLEEP_go : Fld := ⟨PWR_SLEEP, 0, 0⟩
def PWR_SLEEP_force : Fld := ⟨PWR_SLEEP, 1, 1⟩
def PWR_SLEEP_CFG : Nat := 0x4010003C
def PWR_SLEEP_CFG_quiesce_ms : Fld := ⟨PWR_SLEEP_CFG, 7, 0⟩
def PWR_SLEEP_CFG_wake_en : Fld := ⟨PWR_SLEEP_CFG, 20, 16⟩
def PWR_WAKE : Nat := 0x40100040
def PWR_WAKE_cause : Fld := ⟨PWR_WAKE, 2, 0⟩
def PWR_RESET : Nat := 0x40100044
def PWR_RESET_soft : Fld := ⟨PWR_RESET, 0, 0⟩
def PWR_RESET_hard : Fld := ⟨PWR_RESET, 1, 1⟩
def PWR_RST_CAUSE : Nat := 0x40100048
def PWR_RST_CAUSE_cause : Fld := ⟨PWR_RST_CAUSE, 8, 0⟩
def PWR_WDT_CFG : Nat := 0x40100050
def PWR_WDT_CFG_ms : Fld := ⟨PWR_WDT_CFG, 15, 0⟩
def PWR_WDT_CFG_en : Fld := ⟨PWR_WDT_CFG, 16, 16⟩
def PWR_WDT_KICK : Nat := 0x40100054
def PWR_WDT_KICK_key : Fld := ⟨PWR_WDT_KICK, 7, 0⟩
def PWR_CLK : Nat := 0x40100058
def PWR_CLK_fab : Fld := ⟨PWR_CLK, 0, 0⟩
def PWR_CLK_mem : Fld := ⟨PWR_CLK, 1, 1⟩
def PWR_CLK_ctrl : Fld := ⟨PWR_CLK, 2, 2⟩
def PWR_AVS_CFG : Nat := 0x40100060
def PWR_AVS_CFG_en : Fld := ⟨PWR_AVS_CFG, 0, 0⟩
def PWR_AVS_CFG_bus : Fld := ⟨PWR_AVS_CFG, 1, 1⟩
def PWR_AVS_CFG_avs_addr : Fld := ⟨PWR_AVS_CFG, 8, 2⟩
def PWR_AVS_CFG_vmin : Fld := ⟨PWR_AVS_CFG, 19, 12⟩
def PWR_AVS_CFG_vmax : Fld := ⟨PWR_AVS_CFG, 27, 20⟩
def PWR_AVS_STATUS : Nat := 0x40100064
def PWR_AVS_STATUS_vout : Fld := ⟨PWR_AVS_STATUS, 9, 0⟩
def PWR_AVS_STATUS_avs_fail : Fld := ⟨PWR_AVS_STATUS, 10, 10⟩
def SAGE_DRAM_WIN : Nat := 0x40100068
def SAGE_DRAM_WIN_base : Fld := ⟨SAGE_DRAM_WIN, 7, 0⟩
def PWR_AON_SEC_LO : Nat := 0x40100070
def PWR_AON_SEC_LO_sec : Fld := ⟨PWR_AON_SEC_LO, 31, 0⟩
def PWR_AON_SEC_HI : Nat := 0x40100074
def PWR_AON_SEC_HI_sec : Fld := ⟨PWR_AON_SEC_HI, 15, 0⟩
def PWR_AON_ALARM : Nat := 0x40100078
def PWR_AON_ALARM_sec : Fld := ⟨PWR_AON_ALARM, 31, 0⟩
def PWR_OFF_ACCESS : Nat := 0x4010007C
def PWR_CFG_STATUS : Nat := 0x40100080
def PWR_CFG_STATUS_bad_write : Fld := ⟨PWR_CFG_STATUS, 0, 0⟩
def PWR_EVT_EN : Nat := 0x40100084
def PWR_EVT_EN_en : Fld := ⟨PWR_EVT_EN, 9, 0⟩
def THM_MAX : Nat := 0x40101000
def THM_MAX_t : Fld := ⟨THM_MAX, 15, 0⟩
def THM_SENS (s : Nat) : Nat := 0x40101010 + 0x4 * s
def THM_SENS_t (s : Nat) : Fld := ⟨THM_SENS s, 15, 0⟩
def THM_BROKEN : Nat := 0x40101050
def THM_BROKEN_broken : Fld := ⟨THM_BROKEN, 15, 0⟩
def THM_READMIT : Nat := 0x40101054
def THM_READMIT_readmit : Fld := ⟨THM_READMIT, 15, 0⟩
def THM_THR : Nat := 0x40101058
def THM_THR_t1 : Fld := ⟨THM_THR, 11, 0⟩
def THM_THR_t2 : Fld := ⟨THM_THR, 23, 12⟩
def THM_THR_hyst : Fld := ⟨THM_THR, 31, 24⟩
def THM_LEVEL : Nat := 0x4010105C
def THM_LEVEL_level : Fld := ⟨THM_LEVEL, 1, 0⟩
def THM_T1 : Nat := 0x40101060
def THM_T1_pause : Fld := ⟨THM_T1, 15, 0⟩
def THM_T2 : Nat := 0x40101064
def THM_T2_div : Fld := ⟨THM_T2, 3, 0⟩
def THM_T3 : Nat := 0x40101068
def THM_T3_grace_ms : Fld := ⟨THM_T3, 15, 0⟩
def THM_T2_DROP (n : Nat) : Nat := 0x40101070 + 0x4 * n
def THM_CLK : Nat := 0x40101080
def THM_CLK_trim_pass : Fld := ⟨THM_CLK, 0, 0⟩
def THM_VMON_TRANS : Nat := 0x40101084
def THM_EVT_EN : Nat := 0x40101088
def THM_EVT_EN_en : Fld := ⟨THM_EVT_EN, 6, 0⟩
def THM_VMON (v : Nat) : Nat := 0x40101100 + 0x4 * v
def THM_VMON_lo (v : Nat) : Fld := ⟨THM_VMON v, 15, 0⟩
def THM_VMON_hi (v : Nat) : Fld := ⟨THM_VMON v, 31, 16⟩

/-- The registers of PWR (chapter 21), part 0. -/
def rowsPwrP0 : List RegRow :=
  [ ⟨0x0, [(0x4, 7)], .s, [⟨30, 0, .rw, 0x1⟩]⟩
  , ⟨0x20, [], .s, [⟨30, 0, .ro, 0x1⟩]⟩
  , ⟨0x24, [], .s, [⟨30, 0, .ro, 0x0⟩]⟩
  , ⟨0x28, [], .h, [⟨30, 0, .ro, 0x0⟩]⟩
  , ⟨0x2C, [], .h, [⟨30, 0, .w1s, 0x0⟩]⟩
  , ⟨0x30, [], .s, [⟨15, 0, .rw, 0x3E8⟩]⟩
  , ⟨0x34, [], .s, [⟨2, 0, .ro, 0x0⟩, ⟨5, 4, .ro, 0x0⟩]⟩
  , ⟨0x38, [], .s, [⟨0, 0, .w1s, 0x0⟩, ⟨1, 1, .rw, 0x0⟩]⟩
  , ⟨0x3C, [], .h, [⟨7, 0, .rw, 0x32⟩, ⟨20, 16, .rw, 0x1⟩]⟩
  , ⟨0x40, [], .h, [⟨2, 0, .ro, 0x0⟩]⟩
  , ⟨0x44, [], .s, [⟨0, 0, .w1s, 0x0⟩, ⟨1, 1, .w1s, 0x0⟩]⟩
  , ⟨0x48, [], .p, [⟨8, 0, .w1c, 0x1⟩]⟩
  , ⟨0x50, [], .h, [⟨15, 0, .rw, 0x3E8⟩, ⟨16, 16, .rw, 0x0⟩]⟩
  , ⟨0x54, [], .h, [⟨7, 0, .wo, 0x0⟩]⟩
  , ⟨0x58, [], .s, [⟨0, 0, .rw, 0x0⟩, ⟨1, 1, .rw, 0x0⟩, ⟨2, 2, .rw, 0x0⟩]⟩
  , ⟨0x60, [], .h, [⟨0, 0, .rw, 0x0⟩, ⟨1, 1, .rw, 0x0⟩, ⟨8, 2, .rw, 0x0⟩, ⟨19, 12, .rw, 0x88⟩, ⟨27, 20, .rw, 0xAA⟩]⟩
  , ⟨0x64, [], .h, [⟨9, 0, .ro, 0x352⟩, ⟨10, 10, .w1c, 0x0⟩]⟩
  , ⟨0x68, [], .s, [⟨7, 0, .rw, 0x0⟩]⟩
  , ⟨0x70, [], .p, [⟨31, 0, .ro, 0x0⟩]⟩
  , ⟨0x74, [], .p, [⟨15, 0, .ro, 0x0⟩]⟩
  , ⟨0x78, [], .h, [⟨31, 0, .rw, 0x0⟩]⟩
  , ⟨0x7C, [], .s, [⟨31, 0, .rc, 0x0⟩]⟩
  , ⟨0x80, [], .s, [⟨0, 0, .w1c, 0x0⟩]⟩
  , ⟨0x84, [], .s, [⟨9, 0, .rw, 0x0⟩]⟩]

/-- The registers of PWR (chapter 21), part 1. -/
def rowsPwrP1 : List RegRow :=
  [ ⟨0x1000, [], .s, [⟨15, 0, .ro, 0x0⟩]⟩
  , ⟨0x1010, [(0x4, 16)], .s, [⟨15, 0, .ro, 0x0⟩]⟩
  , ⟨0x1050, [], .h, [⟨15, 0, .ro, 0x0⟩]⟩
  , ⟨0x1054, [], .h, [⟨15, 0, .w1s, 0x0⟩]⟩
  , ⟨0x1058, [], .h, [⟨11, 0, .rw, 0x6E0⟩, ⟨23, 12, .rw, 0x760⟩, ⟨31, 24, .rw, 0x50⟩]⟩
  , ⟨0x105C, [], .s, [⟨1, 0, .ro, 0x0⟩]⟩
  , ⟨0x1060, [], .h, [⟨15, 0, .rw, 0x100⟩]⟩
  , ⟨0x1064, [], .h, [⟨3, 0, .rw, 0x2⟩]⟩
  , ⟨0x1068, [], .h, [⟨15, 0, .rw, 0x12C⟩]⟩
  , ⟨0x1070, [(0x4, 4)], .s, [⟨31, 0, .rc, 0x0⟩]⟩
  , ⟨0x1080, [], .s, [⟨0, 0, .ro, 0x1⟩]⟩
  , ⟨0x1084, [], .s, [⟨31, 0, .rc, 0x0⟩]⟩
  , ⟨0x1088, [], .s, [⟨6, 0, .rw, 0x0⟩]⟩
  , ⟨0x1100, [(0x4, 32)], .h, [⟨15, 0, .rw, 0x0⟩, ⟨31, 16, .rw, 0x0⟩]⟩]

/-- The registers of PWR (chapter 21). -/
def rowsPwr : List RegRow := rowsPwrP0 ++ rowsPwrP1

/-! ### ERR -/

def ERR_INJ_ID (k : Nat) : Nat := 0x40200000 + 0x10 * k
def ERR_INJ_ID_id (k : Nat) : Fld := ⟨ERR_INJ_ID k, 15, 0⟩
def ERR_INJ_CFG (k : Nat) : Nat := 0x40200004 + 0x10 * k
def ERR_INJ_CFG_mode (k : Nat) : Fld := ⟨ERR_INJ_CFG k, 1, 0⟩
def ERR_INJ_CFG_n (k : Nat) : Fld := ⟨ERR_INJ_CFG k, 31, 16⟩
def ERR_INJ_CNT (k : Nat) : Nat := 0x40200008 + 0x10 * k
def ERR_INJ_CNT_count (k : Nat) : Fld := ⟨ERR_INJ_CNT k, 15, 0⟩
def ERR_INJ_CTRL (k : Nat) : Nat := 0x4020000C + 0x10 * k
def ERR_INJ_CTRL_arm (k : Nat) : Fld := ⟨ERR_INJ_CTRL k, 0, 0⟩
def ERR_INJ_CTRL_disarm (k : Nat) : Fld := ⟨ERR_INJ_CTRL k, 1, 1⟩
def ERR_INJ_STATUS : Nat := 0x40200040
def ERR_INJ_STATUS_armed : Fld := ⟨ERR_INJ_STATUS, 3, 0⟩
def ERR_INJ_STATUS_cause_0 : Fld := ⟨ERR_INJ_STATUS, 11, 8⟩
def ERR_INJ_STATUS_cause_1 : Fld := ⟨ERR_INJ_STATUS, 15, 12⟩
def ERR_INJ_STATUS_cause_2 : Fld := ⟨ERR_INJ_STATUS, 19, 16⟩
def ERR_INJ_STATUS_cause_3 : Fld := ⟨ERR_INJ_STATUS, 23, 20⟩
def ERR_INJ_EN : Nat := 0x40200044
def ERR_INJ_EN_en : Fld := ⟨ERR_INJ_EN, 0, 0⟩
def ERR_RATE : Nat := 0x40200048
def ERR_RATE_lim : Fld := ⟨ERR_RATE, 15, 0⟩
def ERR_LOG_CFG : Nat := 0x4020004C
def ERR_LOG_CFG_transient : Fld := ⟨ERR_LOG_CFG, 0, 0⟩
def ERR_LOG_CTRL : Nat := 0x40200050
def ERR_LOG_CTRL_clear : Fld := ⟨ERR_LOG_CTRL, 0, 0⟩
def ERR_STATUS : Nat := 0x40200054
def ERR_STATUS_bad_write : Fld := ⟨ERR_STATUS, 0, 0⟩
def ERR_STATUS_log_fail : Fld := ⟨ERR_STATUS, 1, 1⟩
def ERR_LAST : Nat := 0x40200058
def ERR_LAST_id : Fld := ⟨ERR_LAST, 15, 0⟩
def ERR_LAST_kind : Fld := ⟨ERR_LAST, 19, 16⟩
def ERR_EVT_EN : Nat := 0x4020005C
def ERR_EVT_EN_en : Fld := ⟨ERR_EVT_EN, 3, 0⟩

/-- The registers of ERR (chapter 22). -/
def rowsErr : List RegRow :=
  [ ⟨0x0, [(0x10, 4)], .s, [⟨15, 0, .rw, 0x0⟩]⟩
  , ⟨0x4, [(0x10, 4)], .s, [⟨1, 0, .rw, 0x0⟩, ⟨31, 16, .rw, 0x1⟩]⟩
  , ⟨0x8, [(0x10, 4)], .s, [⟨15, 0, .rw, 0x0⟩]⟩
  , ⟨0xC, [(0x10, 4)], .s, [⟨0, 0, .w1s, 0x0⟩, ⟨1, 1, .w1s, 0x0⟩]⟩
  , ⟨0x40, [], .s, [⟨3, 0, .ro, 0x0⟩, ⟨11, 8, .ro, 0x0⟩, ⟨15, 12, .ro, 0x0⟩, ⟨19, 16, .ro, 0x0⟩, ⟨23, 20, .ro, 0x0⟩]⟩
  , ⟨0x44, [], .h, [⟨0, 0, .rwl, 0x1⟩]⟩
  , ⟨0x48, [], .s, [⟨15, 0, .rw, 0x10⟩]⟩
  , ⟨0x4C, [], .h, [⟨0, 0, .rw, 0x0⟩]⟩
  , ⟨0x50, [], .h, [⟨0, 0, .w1s, 0x0⟩]⟩
  , ⟨0x54, [], .s, [⟨0, 0, .w1c, 0x0⟩, ⟨1, 1, .w1c, 0x0⟩]⟩
  , ⟨0x58, [], .s, [⟨15, 0, .ro, 0x0⟩, ⟨19, 16, .ro, 0x0⟩]⟩
  , ⟨0x5C, [], .s, [⟨3, 0, .rw, 0x0⟩]⟩]

/-! ### REF -/

def REF_CTRL : Nat := 0x40300000
def REF_CTRL_evt_en : Fld := ⟨REF_CTRL, 8, 4⟩
def REF_CTRL_relock : Fld := ⟨REF_CTRL, 3, 3⟩
def REF_CTRL_src : Fld := ⟨REF_CTRL, 2, 1⟩
def REF_CTRL_en : Fld := ⟨REF_CTRL, 0, 0⟩
def REF_RATE_NUM : Nat := 0x40300004
def REF_RATE_NUM_num : Fld := ⟨REF_RATE_NUM, 20, 0⟩
def REF_RATE_DEN : Nat := 0x40300008
def REF_RATE_DEN_den : Fld := ⟨REF_RATE_DEN, 16, 0⟩
def REF_PHASE : Nat := 0x4030000C
def REF_PHASE_offset : Fld := ⟨REF_PHASE, 31, 0⟩
def REF_STATUS : Nat := 0x40300010
def REF_STATUS_state : Fld := ⟨REF_STATUS, 1, 0⟩
def REF_STATUS_bad_rate : Fld := ⟨REF_STATUS, 2, 2⟩
def REF_STATUS_bad_write : Fld := ⟨REF_STATUS, 3, 3⟩
def REF_RFN : Nat := 0x40300014
def REF_RFN_rfn : Fld := ⟨REF_RFN, 31, 0⟩
def REF_PERIOD : Nat := 0x40300018
def REF_PERIOD_period : Fld := ⟨REF_PERIOD, 29, 0⟩
def REF_PHERR : Nat := 0x4030001C
def REF_PHERR_err : Fld := ⟨REF_PHERR, 31, 0⟩
def REF_TRIG (n : Nat) : Nat := 0x40300100 + 0x8 * n
def REF_TRIG_phase (n : Nat) : Fld := ⟨REF_TRIG n, 29, 0⟩
def REF_TRIG_CFG (n : Nat) : Nat := 0x40300104 + 0x8 * n
def REF_TRIG_CFG_width (n : Nat) : Fld := ⟨REF_TRIG_CFG n, 7, 0⟩
def REF_TRIG_CFG_pol (n : Nat) : Fld := ⟨REF_TRIG_CFG n, 8, 8⟩
def REF_TRIG_CFG_en (n : Nat) : Fld := ⟨REF_TRIG_CFG n, 9, 9⟩

/-- The registers of REF (chapter 02). -/
def rowsRef : List RegRow :=
  [ ⟨0x0, [], .s, [⟨8, 4, .rw, 0x0⟩, ⟨3, 3, .rw, 0x0⟩, ⟨2, 1, .rw, 0x0⟩, ⟨0, 0, .rw, 0x0⟩]⟩
  , ⟨0x4, [], .s, [⟨20, 0, .rw, 0x18⟩]⟩
  , ⟨0x8, [], .s, [⟨16, 0, .rw, 0x1⟩]⟩
  , ⟨0xC, [], .s, [⟨31, 0, .rw, 0x0⟩]⟩
  , ⟨0x10, [], .s, [⟨1, 0, .ro, 0x0⟩, ⟨2, 2, .w1c, 0x0⟩, ⟨3, 3, .w1c, 0x0⟩]⟩
  , ⟨0x14, [], .s, [⟨31, 0, .rw, 0x0⟩]⟩
  , ⟨0x18, [], .s, [⟨29, 0, .ro, 0x0⟩]⟩
  , ⟨0x1C, [], .s, [⟨31, 0, .ro, 0x0⟩]⟩
  , ⟨0x100, [(0x8, 4)], .s, [⟨29, 0, .rw, 0x0⟩]⟩
  , ⟨0x104, [(0x8, 4)], .s, [⟨7, 0, .rw, 0x4⟩, ⟨8, 8, .rw, 0x0⟩, ⟨9, 9, .rw, 0x0⟩]⟩]

/-! ### CFG -/

def CFG_BOOT_STATUS : Nat := 0x40400000
def CFG_BOOT_STATUS_slot : Fld := ⟨CFG_BOOT_STATUS, 0, 0⟩
def CFG_BOOT_STATUS_warm : Fld := ⟨CFG_BOOT_STATUS, 1, 1⟩
def CFG_BOOT_STATUS_secure : Fld := ⟨CFG_BOOT_STATUS, 2, 2⟩
def CFG_BOOT_STATUS_cause_a : Fld := ⟨CFG_BOOT_STATUS, 7, 4⟩
def CFG_BOOT_STATUS_cause_b : Fld := ⟨CFG_BOOT_STATUS, 11, 8⟩
def CFG_MODE : Nat := 0x40400004
def CFG_MODE_pins : Fld := ⟨CFG_MODE, 3, 0⟩
def CFG_MODE_pin_follow : Fld := ⟨CFG_MODE, 8, 8⟩
def CFG_OVL_REQ : Nat := 0x40400008
def CFG_OVL_REQ_index : Fld := ⟨CFG_OVL_REQ, 3, 0⟩
def CFG_OVL_REQ_go : Fld := ⟨CFG_OVL_REQ, 8, 8⟩
def CFG_OVL_CTRL : Nat := 0x4040000C
def CFG_OVL_CTRL_lead : Fld := ⟨CFG_OVL_CTRL, 1, 0⟩
def CFG_OVL_STATUS : Nat := 0x40400010
def CFG_OVL_STATUS_in_force : Fld := ⟨CFG_OVL_STATUS, 3, 0⟩
def CFG_OVL_STATUS_pending : Fld := ⟨CFG_OVL_STATUS, 7, 4⟩
def CFG_OVL_STATUS_busy : Fld := ⟨CFG_OVL_STATUS, 8, 8⟩
def CFG_OVL_STATUS_held : Fld := ⟨CFG_OVL_STATUS, 9, 9⟩
def CFG_OVL_STATUS_held_index : Fld := ⟨CFG_OVL_STATUS, 15, 12⟩
def CFG_OVL_STATUS_refuse : Fld := ⟨CFG_OVL_STATUS, 18, 16⟩
def CFG_OVL_STATUS_bad_write : Fld := ⟨CFG_OVL_STATUS, 20, 20⟩
def CFG_OVL_VALID : Nat := 0x40400014
def CFG_OVL_VALID_valid : Fld := ⟨CFG_OVL_VALID, 15, 0⟩
def CFG_LOCK : Nat := 0x40400018
def CFG_LOCK_lock : Fld := ⟨CFG_LOCK, 0, 0⟩
def CFG_IMG_BASE_LO : Nat := 0x40400020
def CFG_IMG_BASE_LO_base : Fld := ⟨CFG_IMG_BASE_LO, 31, 16⟩
def CFG_IMG_BASE_HI : Nat := 0x40400024
def CFG_IMG_BASE_HI_base : Fld := ⟨CFG_IMG_BASE_HI, 7, 0⟩
def CFG_IMG_LEN : Nat := 0x40400028
def CFG_IMG_LEN_len : Fld := ⟨CFG_IMG_LEN, 31, 0⟩
def CFG_IMG_CRC : Nat := 0x4040002C
def CFG_IMG_CRC_crc : Fld := ⟨CFG_IMG_CRC, 31, 0⟩
def CFG_WARM : Nat := 0x40400030
def CFG_WARM_valid : Fld := ⟨CFG_WARM, 0, 0⟩
def CFG_WARM_inval : Fld := ⟨CFG_WARM, 1, 1⟩
def CFG_OTP_ADDR : Nat := 0x40400040
def CFG_OTP_ADDR_word : Fld := ⟨CFG_OTP_ADDR, 5, 0⟩
def CFG_OTP_DATA : Nat := 0x40400044
def CFG_OTP_DATA_data : Fld := ⟨CFG_OTP_DATA, 31, 0⟩
def CFG_OTP_PROG : Nat := 0x40400048
def CFG_OTP_PROG_prog : Fld := ⟨CFG_OTP_PROG, 31, 0⟩
def CFG_OTP_CMD : Nat := 0x4040004C
def CFG_OTP_CMD_prog : Fld := ⟨CFG_OTP_CMD, 0, 0⟩
def CFG_OTP_STATUS : Nat := 0x40400050
def CFG_OTP_STATUS_busy : Fld := ⟨CFG_OTP_STATUS, 0, 0⟩
def CFG_OTP_STATUS_done : Fld := ⟨CFG_OTP_STATUS, 1, 1⟩
def CFG_OTP_STATUS_refuse : Fld := ⟨CFG_OTP_STATUS, 3, 2⟩
def CFG_EVT_EN : Nat := 0x40400060
def CFG_EVT_EN_en : Fld := ⟨CFG_EVT_EN, 5, 0⟩

/-- The registers of CFG (chapter 20). -/
def rowsCfg : List RegRow :=
  [ ⟨0x0, [], .h, [⟨0, 0, .ro, 0x0⟩, ⟨1, 1, .ro, 0x0⟩, ⟨2, 2, .ro, 0x0⟩, ⟨7, 4, .ro, 0x0⟩, ⟨11, 8, .ro, 0x0⟩]⟩
  , ⟨0x4, [], .h, [⟨3, 0, .ro, 0x0⟩, ⟨8, 8, .rw, 0x1⟩]⟩
  , ⟨0x8, [], .h, [⟨3, 0, .wo, 0x0⟩, ⟨8, 8, .w1s, 0x0⟩]⟩
  , ⟨0xC, [], .h, [⟨1, 0, .rw, 0x2⟩]⟩
  , ⟨0x10, [], .h, [⟨3, 0, .ro, 0x0⟩, ⟨7, 4, .ro, 0x0⟩, ⟨8, 8, .ro, 0x0⟩, ⟨9, 9, .ro, 0x0⟩, ⟨15, 12, .ro, 0x0⟩, ⟨18, 16, .ro, 0x0⟩, ⟨20, 20, .w1c, 0x0⟩]⟩
  , ⟨0x14, [], .h, [⟨15, 0, .ro, 0x0⟩]⟩
  , ⟨0x18, [], .h, [⟨0, 0, .w1s, 0x0⟩]⟩
  , ⟨0x20, [], .h, [⟨31, 16, .rwl, 0x0⟩]⟩
  , ⟨0x24, [], .h, [⟨7, 0, .rwl, 0x0⟩]⟩
  , ⟨0x28, [], .h, [⟨31, 0, .rwl, 0x0⟩]⟩
  , ⟨0x2C, [], .h, [⟨31, 0, .rwl, 0x0⟩]⟩
  , ⟨0x30, [], .h, [⟨0, 0, .rwl, 0x0⟩, ⟨1, 1, .w1s, 0x0⟩]⟩
  , ⟨0x40, [], .h, [⟨5, 0, .rw, 0x0⟩]⟩
  , ⟨0x44, [], .h, [⟨31, 0, .ro, 0x0⟩]⟩
  , ⟨0x48, [], .h, [⟨31, 0, .rw, 0x0⟩]⟩
  , ⟨0x4C, [], .h, [⟨0, 0, .w1s, 0x0⟩]⟩
  , ⟨0x50, [], .h, [⟨0, 0, .ro, 0x0⟩, ⟨1, 1, .w1c, 0x0⟩, ⟨3, 2, .ro, 0x0⟩]⟩
  , ⟨0x60, [], .h, [⟨5, 0, .rw, 0x0⟩]⟩]

/-! ### SP -/

def SP_CTRL (n : Nat) : Nat := 0x41000000 + 0x100000 * n
def SP_CTRL_xclk_en (n : Nat) : Fld := ⟨SP_CTRL n, 4, 4⟩
def SP_CTRL_rst_n (n : Nat) : Fld := ⟨SP_CTRL n, 3, 3⟩
def SP_CTRL_phy (n : Nat) : Fld := ⟨SP_CTRL n, 2, 2⟩
def SP_CTRL_run (n : Nat) : Fld := ⟨SP_CTRL n, 1, 1⟩
def SP_CTRL_en (n : Nat) : Fld := ⟨SP_CTRL n, 0, 0⟩
def SP_STATUS (n : Nat) : Nat := 0x41000004 + 0x100000 * n
def SP_STATUS_idle (n : Nat) : Fld := ⟨SP_STATUS n, 0, 0⟩
def SP_STATUS_frame_open (n : Nat) : Fld := ⟨SP_STATUS n, 1, 1⟩
def SP_STATUS_discarding (n : Nat) : Fld := ⟨SP_STATUS n, 2, 2⟩
def SP_STATUS_bad_write (n : Nat) : Fld := ⟨SP_STATUS n, 3, 3⟩
def SP_FRAME_SIZE (n : Nat) : Nat := 0x41000008 + 0x100000 * n
def SP_FRAME_SIZE_width (n : Nat) : Fld := ⟨SP_FRAME_SIZE n, 15, 0⟩
def SP_FRAME_SIZE_height (n : Nat) : Fld := ⟨SP_FRAME_SIZE n, 31, 16⟩
def SP_FRAME_CFG (n : Nat) : Nat := 0x4100000C + 0x100000 * n
def SP_FRAME_CFG_readouts (n : Nat) : Fld := ⟨SP_FRAME_CFG n, 1, 0⟩
def SP_FRAME_CFG_dtype (n : Nat) : Fld := ⟨SP_FRAME_CFG n, 7, 2⟩
def SP_FRAME_CFG_row_to (n : Nat) : Fld := ⟨SP_FRAME_CFG n, 31, 16⟩
def SP_FILL_CFG (n : Nat) : Nat := 0x41000010 + 0x100000 * n
def SP_FILL_CFG_mode (n : Nat) : Fld := ⟨SP_FILL_CFG n, 0, 0⟩
def SP_FILL_CFG_value (n : Nat) : Fld := ⟨SP_FILL_CFG n, 23, 4⟩
def SP_EMB_CFG (n : Nat) : Nat := 0x41000014 + 0x100000 * n
def SP_EMB_CFG_slots (n : Nat) : Fld := ⟨SP_EMB_CFG n, 7, 0⟩
def SP_EMB_CFG_slot_kib (n : Nat) : Fld := ⟨SP_EMB_CFG n, 23, 8⟩
def SP_EMB_BASE_LO (n : Nat) : Nat := 0x41000018 + 0x100000 * n
def SP_EMB_BASE_LO_base (n : Nat) : Fld := ⟨SP_EMB_BASE_LO n, 31, 0⟩
def SP_EMB_BASE_HI (n : Nat) : Nat := 0x4100001C + 0x100000 * n
def SP_EMB_BASE_HI_base (n : Nat) : Fld := ⟨SP_EMB_BASE_HI n, 7, 0⟩
def SP_LINE_MATCH (n : Nat) : Nat := 0x41000020 + 0x100000 * n
def SP_LINE_MATCH_row (n : Nat) : Fld := ⟨SP_LINE_MATCH n, 15, 0⟩
def SP_TS_OFS (n : Nat) : Nat := 0x41000024 + 0x100000 * n
def SP_TS_OFS_ofs (n : Nat) : Fld := ⟨SP_TS_OFS n, 31, 0⟩
def SP_XCLK_CFG (n : Nat) : Nat := 0x41000028 + 0x100000 * n
def SP_XCLK_CFG_div (n : Nat) : Fld := ⟨SP_XCLK_CFG n, 15, 0⟩
def SP_XCLK_CFG_src (n : Nat) : Fld := ⟨SP_XCLK_CFG n, 16, 16⟩
def SP_SYNC_CFG (n : Nat) : Nat := 0x4100002C + 0x100000 * n
def SP_SYNC_CFG_mode (n : Nat) : Fld := ⟨SP_SYNC_CFG n, 1, 0⟩
def SP_EVT_EN (n : Nat) : Nat := 0x41000030 + 0x100000 * n
def SP_EVT_EN_en_lo (n : Nat) : Fld := ⟨SP_EVT_EN n, 11, 0⟩
def SP_EVT_EN_en_set (n : Nat) : Fld := ⟨SP_EVT_EN n, 17, 16⟩
def SP_GRP (n : Nat) : Nat := 0x41000034 + 0x100000 * n
def SP_GRP_group (n : Nat) : Fld := ⟨SP_GRP n, 1, 0⟩
def SP_GRP_member (n : Nat) : Fld := ⟨SP_GRP n, 2, 2⟩
def SP_PFN (n : Nat) : Nat := 0x41000040 + 0x100000 * n
def SP_PFN_pfn (n : Nat) : Fld := ⟨SP_PFN n, 31, 0⟩
def SP_SHORT (n : Nat) : Nat := 0x41000044 + 0x100000 * n
def SP_TRUNC (n : Nat) : Nat := 0x41000048 + 0x100000 * n
def SP_LONG_ROWS (n : Nat) : Nat := 0x4100004C + 0x100000 * n
def SP_DISCARD (n : Nat) : Nat := 0x41000050 + 0x100000 * n
def SP_SEQ_ERR (n : Nat) : Nat := 0x41000054 + 0x100000 * n
def SP_LEN_ERR (n : Nat) : Nat := 0x41000058 + 0x100000 * n
def SP_UNSUP (n : Nat) : Nat := 0x4100005C + 0x100000 * n
def SP_FIFO_OVF (n : Nat) : Nat := 0x41000060 + 0x100000 * n
def SP_EMB_OVF (n : Nat) : Nat := 0x41000064 + 0x100000 * n
def SP_JV_CTRL (n : Nat) : Nat := 0x41000100 + 0x100000 * n
def SP_JV_CTRL_err_lim (n : Nat) : Fld := ⟨SP_JV_CTRL n, 31, 16⟩
def SP_JV_CTRL_test (n : Nat) : Fld := ⟨SP_JV_CTRL n, 5, 5⟩
def SP_JV_CTRL_rate (n : Nat) : Fld := ⟨SP_JV_CTRL n, 4, 2⟩
def SP_JV_CTRL_en (n : Nat) : Fld := ⟨SP_JV_CTRL n, 0, 0⟩
def SP_JV_MAP (n : Nat) : Nat := 0x41000104 + 0x100000 * n
def SP_JV_MAP_spare_en (n : Nat) : Fld := ⟨SP_JV_MAP n, 8, 8⟩
def SP_JV_MAP_spare (n : Nat) : Fld := ⟨SP_JV_MAP n, 7, 4⟩
def SP_JV_MAP_count (n : Nat) : Fld := ⟨SP_JV_MAP n, 3, 0⟩
def SP_JV_ORDER0 (n : Nat) : Nat := 0x41000108 + 0x100000 * n
def SP_JV_ORDER0_pos0_pos7 (n : Nat) : Fld := ⟨SP_JV_ORDER0 n, 31, 0⟩
def SP_JV_ORDER1 (n : Nat) : Nat := 0x4100010C + 0x100000 * n
def SP_JV_ORDER1_pos8_pos11 (n : Nat) : Fld := ⟨SP_JV_ORDER1 n, 15, 0⟩
def SP_JV_CHG (n : Nat) : Nat := 0x41000110 + 0x100000 * n
def SP_JV_CHG_go (n : Nat) : Fld := ⟨SP_JV_CHG n, 0, 0⟩
def SP_JV_CMD_ADDR (n : Nat) : Nat := 0x41000114 + 0x100000 * n
def SP_JV_CMD_ADDR_addr (n : Nat) : Fld := ⟨SP_JV_CMD_ADDR n, 6, 0⟩
def SP_JV_CMD_ADDR_timeout (n : Nat) : Fld := ⟨SP_JV_CMD_ADDR n, 15, 8⟩
def SP_JV_CMD_REG (n : Nat) : Nat := 0x41000118 + 0x100000 * n
def SP_JV_CMD_REG_cmd_reg (n : Nat) : Fld := ⟨SP_JV_CMD_REG n, 15, 0⟩
def SP_JV_CMD_REG_apply_reg (n : Nat) : Fld := ⟨SP_JV_CMD_REG n, 31, 16⟩
def SP_JV_STATUS (n : Nat) : Nat := 0x4100011C + 0x100000 * n
def SP_JV_STATUS_locked (n : Nat) : Fld := ⟨SP_JV_STATUS n, 11, 0⟩
def SP_JV_STATUS_aligned (n : Nat) : Fld := ⟨SP_JV_STATUS n, 12, 12⟩
def SP_JV_STATUS_link_up (n : Nat) : Fld := ⟨SP_JV_STATUS n, 13, 13⟩
def SP_JV_STATUS_chg_busy (n : Nat) : Fld := ⟨SP_JV_STATUS n, 14, 14⟩
def SP_JV_STATUS_spare_avail (n : Nat) : Fld := ⟨SP_JV_STATUS n, 15, 15⟩
def SP_JV_STATUS_gen (n : Nat) : Fld := ⟨SP_JV_STATUS n, 23, 16⟩
def SP_JV_STATUS_deskew_fail (n : Nat) : Fld := ⟨SP_JV_STATUS n, 24, 24⟩
def SP_JV_STATUS_map_timeout (n : Nat) : Fld := ⟨SP_JV_STATUS n, 25, 25⟩
def SP_JV_STATUS_gen_err (n : Nat) : Fld := ⟨SP_JV_STATUS n, 26, 26⟩
def SP_JV_STATUS_bad_write (n : Nat) : Fld := ⟨SP_JV_STATUS n, 27, 27⟩
def SP_JV_EVT_EN (n : Nat) : Nat := 0x41000120 + 0x100000 * n
def SP_JV_EVT_EN_en (n : Nat) : Fld := ⟨SP_JV_EVT_EN n, 8, 0⟩
def SP_JV_UNKNOWN (n : Nat) : Nat := 0x41000124 + 0x100000 * n
def SP_JV_COLERR (n : Nat) : Nat := 0x41000128 + 0x100000 * n
def SP_JV_HDRCRC (n : Nat) : Nat := 0x4100012C + 0x100000 * n
def SP_JV_LINECRC (n : Nat) : Nat := 0x41000130 + 0x100000 * n
def SP_JV_REMAPS (n : Nat) : Nat := 0x41000134 + 0x100000 * n
def SP_SET_WIN (n : Nat) : Nat := 0x41000200 + 0x100000 * n
def SP_SET_WIN_start (n : Nat) : Fld := ⟨SP_SET_WIN n, 15, 0⟩
def SP_SET_WIN_end (n : Nat) : Fld := ⟨SP_SET_WIN n, 31, 16⟩
def SP_SET_CFG (n : Nat) : Nat := 0x41000204 + 0x100000 * n
def SP_SET_CFG_lat (n : Nat) : Fld := ⟨SP_SET_CFG n, 1, 0⟩
def SP_SET_CFG_echo_src (n : Nat) : Fld := ⟨SP_SET_CFG n, 3, 2⟩
def SP_SET_CFG_echo_off (n : Nat) : Fld := ⟨SP_SET_CFG n, 15, 4⟩
def SP_SET_CFG_sid_init (n : Nat) : Fld := ⟨SP_SET_CFG n, 31, 16⟩
def SP_SET_DATA (n : Nat) : Nat := 0x41000208 + 0x100000 * n
def SP_SET_DATA_addr (n : Nat) : Fld := ⟨SP_SET_DATA n, 30, 24⟩
def SP_SET_DATA_reg (n : Nat) : Fld := ⟨SP_SET_DATA n, 23, 8⟩
def SP_SET_DATA_data (n : Nat) : Fld := ⟨SP_SET_DATA n, 7, 0⟩
def SP_SET_TARGET (n : Nat) : Nat := 0x4100020C + 0x100000 * n
def SP_SET_TARGET_pfn (n : Nat) : Fld := ⟨SP_SET_TARGET n, 31, 0⟩
def SP_SET_CLOSE (n : Nat) : Nat := 0x41000210 + 0x100000 * n
def SP_SET_CLOSE_sid (n : Nat) : Fld := ⟨SP_SET_CLOSE n, 15, 0⟩
def SP_SET_STATUS (n : Nat) : Nat := 0x41000214 + 0x100000 * n
def SP_SET_STATUS_sets (n : Nat) : Fld := ⟨SP_SET_STATUS n, 4, 0⟩
def SP_SET_STATUS_writes (n : Nat) : Fld := ⟨SP_SET_STATUS n, 13, 5⟩
def SP_SET_STATUS_order_err (n : Nat) : Fld := ⟨SP_SET_STATUS n, 14, 14⟩
def SP_SET_STATUS_full (n : Nat) : Fld := ⟨SP_SET_STATUS n, 15, 15⟩
def SP_SET_LATE (n : Nat) : Nat := 0x41000218 + 0x100000 * n
def SP_SID_NOW (n : Nat) : Nat := 0x4100021C + 0x100000 * n
def SP_SID_NOW_sid (n : Nat) : Fld := ⟨SP_SID_NOW n, 15, 0⟩
def SP_CSI_CTRL (n : Nat) : Nat := 0x41000300 + 0x100000 * n
def SP_CSI_CTRL_lanes (n : Nat) : Fld := ⟨SP_CSI_CTRL n, 1, 0⟩
def SP_CSI_VC_MAP (n : Nat) : Nat := 0x41000304 + 0x100000 * n
def SP_CSI_VC_MAP_readout_0 (n : Nat) : Fld := ⟨SP_CSI_VC_MAP n, 1, 0⟩
def SP_CSI_VC_MAP_en_0 (n : Nat) : Fld := ⟨SP_CSI_VC_MAP n, 2, 2⟩
def SP_CSI_VC_MAP_readout_1 (n : Nat) : Fld := ⟨SP_CSI_VC_MAP n, 5, 4⟩
def SP_CSI_VC_MAP_en_1 (n : Nat) : Fld := ⟨SP_CSI_VC_MAP n, 6, 6⟩
def SP_CSI_VC_MAP_readout_2 (n : Nat) : Fld := ⟨SP_CSI_VC_MAP n, 9, 8⟩
def SP_CSI_VC_MAP_en_2 (n : Nat) : Fld := ⟨SP_CSI_VC_MAP n, 10, 10⟩
def SP_CSI_VC_MAP_readout_3 (n : Nat) : Fld := ⟨SP_CSI_VC_MAP n, 13, 12⟩
def SP_CSI_VC_MAP_en_3 (n : Nat) : Fld := ⟨SP_CSI_VC_MAP n, 14, 14⟩
def SP_CSI_ECC (n : Nat) : Nat := 0x41000308 + 0x100000 * n
def SP_CSI_HDR_ERR (n : Nat) : Nat := 0x4100030C + 0x100000 * n
def SP_CSI_CRC (n : Nat) : Nat := 0x41000310 + 0x100000 * n
def SP_BUS_CFG (n : Nat) : Nat := 0x41000400 + 0x100000 * n
def SP_BUS_CFG_mode (n : Nat) : Fld := ⟨SP_BUS_CFG n, 1, 0⟩
def SP_DIR_CMD (n : Nat) : Nat := 0x41000404 + 0x100000 * n
def SP_DIR_CMD_rd (n : Nat) : Fld := ⟨SP_DIR_CMD n, 31, 31⟩
def SP_DIR_CMD_addr (n : Nat) : Fld := ⟨SP_DIR_CMD n, 30, 24⟩
def SP_DIR_CMD_reg (n : Nat) : Fld := ⟨SP_DIR_CMD n, 23, 8⟩
def SP_DIR_CMD_wdata (n : Nat) : Fld := ⟨SP_DIR_CMD n, 7, 0⟩
def SP_DIR_STATUS (n : Nat) : Nat := 0x41000408 + 0x100000 * n
def SP_DIR_STATUS_rdata (n : Nat) : Fld := ⟨SP_DIR_STATUS n, 7, 0⟩
def SP_DIR_STATUS_busy (n : Nat) : Fld := ⟨SP_DIR_STATUS n, 8, 8⟩
def SP_DIR_STATUS_done (n : Nat) : Fld := ⟨SP_DIR_STATUS n, 9, 9⟩
def SP_DIR_STATUS_nack (n : Nat) : Fld := ⟨SP_DIR_STATUS n, 10, 10⟩
def SP_BUS_NACK (n : Nat) : Nat := 0x4100040C + 0x100000 * n
def SP_SS_CTRL (n : Nat) : Nat := 0x41000800 + 0x100000 * n
def SP_SS_CTRL_k (n : Nat) : Fld := ⟨SP_SS_CTRL n, 15, 8⟩
def SP_SS_CTRL_pfi (n : Nat) : Fld := ⟨SP_SS_CTRL n, 7, 6⟩
def SP_SS_CTRL_src (n : Nat) : Fld := ⟨SP_SS_CTRL n, 5, 4⟩
def SP_SS_CTRL_rows (n : Nat) : Fld := ⟨SP_SS_CTRL n, 3, 2⟩
def SP_SS_CTRL_layout (n : Nat) : Fld := ⟨SP_SS_CTRL n, 1, 1⟩
def SP_SS_CTRL_en (n : Nat) : Fld := ⟨SP_SS_CTRL n, 0, 0⟩
def SP_SS_DIV (n : Nat) : Nat := 0x41000804 + 0x100000 * n
def SP_SS_DIV_div (n : Nat) : Fld := ⟨SP_SS_DIV n, 15, 0⟩
def SP_SS_MINPER (n : Nat) : Nat := 0x41000808 + 0x100000 * n
def SP_SS_MINPER_ns (n : Nat) : Fld := ⟨SP_SS_MINPER n, 23, 0⟩
def SP_SS_STROBE (n : Nat) : Nat := 0x4100080C + 0x100000 * n
def SP_SS_STROBE_width (n : Nat) : Fld := ⟨SP_SS_STROBE n, 15, 0⟩
def SP_SS_STROBE_pol (n : Nat) : Fld := ⟨SP_SS_STROBE n, 16, 16⟩
def SP_SS_GEOM (n : Nat) : Nat := 0x41000810 + 0x100000 * n
def SP_SS_GEOM_w (n : Nat) : Fld := ⟨SP_SS_GEOM n, 15, 0⟩
def SP_SS_GEOM_n (n : Nat) : Fld := ⟨SP_SS_GEOM n, 31, 16⟩
def SP_SS_CELL (n : Nat) : Nat := 0x41000814 + 0x100000 * n
def SP_SS_CELL_map (n : Nat) : Fld := ⟨SP_SS_CELL n, 7, 0⟩
def SP_SS_DLY (n r : Nat) : Nat := 0x41000820 + 0x100000 * n + 0x4 * r
def SP_SS_DLY_int (n r : Nat) : Fld := ⟨SP_SS_DLY n r, 7, 0⟩
def SP_SS_DLY_frac (n r : Nat) : Fld := ⟨SP_SS_DLY n r, 11, 8⟩
def SP_SS_MAP_LO (n : Nat) : Nat := 0x41000830 + 0x100000 * n
def SP_SS_MAP_LO_addr (n : Nat) : Fld := ⟨SP_SS_MAP_LO n, 31, 6⟩
def SP_SS_MAP_HI (n : Nat) : Nat := 0x41000834 + 0x100000 * n
def SP_SS_MAP_HI_addr (n : Nat) : Fld := ⟨SP_SS_MAP_HI n, 7, 0⟩
def SP_SS_MAP_SLOTS (n : Nat) : Nat := 0x41000838 + 0x100000 * n
def SP_SS_MAP_SLOTS_slots (n : Nat) : Fld := ⟨SP_SS_MAP_SLOTS n, 7, 0⟩
def SP_SS_STATUS (n : Nat) : Nat := 0x4100083C + 0x100000 * n
def SP_SS_STATUS_cfg_err (n : Nat) : Fld := ⟨SP_SS_STATUS n, 0, 0⟩
def SP_SS_STATUS_bad_write (n : Nat) : Fld := ⟨SP_SS_STATUS n, 1, 1⟩
def SP_SS_STATUS_overspeed (n : Nat) : Fld := ⟨SP_SS_STATUS n, 2, 2⟩
def SP_SS_FIRED_LO (n : Nat) : Nat := 0x41000840 + 0x100000 * n
def SP_SS_FIRED_LO_fired (n : Nat) : Fld := ⟨SP_SS_FIRED_LO n, 31, 0⟩
def SP_SS_FIRED_HI (n : Nat) : Nat := 0x41000844 + 0x100000 * n
def SP_SS_FIRED_HI_fired (n : Nat) : Fld := ⟨SP_SS_FIRED_HI n, 31, 0⟩
def SP_SS_MISSED_LO (n : Nat) : Nat := 0x41000848 + 0x100000 * n
def SP_SS_MISSED_LO_missed (n : Nat) : Fld := ⟨SP_SS_MISSED_LO n, 31, 0⟩
def SP_SS_MISSED_HI (n : Nat) : Nat := 0x4100084C + 0x100000 * n
def SP_SS_MISSED_HI_missed (n : Nat) : Fld := ⟨SP_SS_MISSED_HI n, 31, 0⟩
def SP_SS_EVT_EN (n : Nat) : Nat := 0x41000850 + 0x100000 * n
def SP_SS_EVT_EN_en (n : Nat) : Fld := ⟨SP_SS_EVT_EN n, 2, 0⟩
def SP_LANE_CTRL (n k : Nat) : Nat := 0x41008000 + 0x100000 * n + 0x400 * k
def SP_LANE_CTRL_freeze (n k : Nat) : Fld := ⟨SP_LANE_CTRL n k, 0, 0⟩
def SP_LANE_CTRL_readapt (n k : Nat) : Fld := ⟨SP_LANE_CTRL n k, 1, 1⟩
def SP_LANE_CTRL_readmit (n k : Nat) : Fld := ⟨SP_LANE_CTRL n k, 2, 2⟩
def SP_LANE_CTRL_cnt_clr (n k : Nat) : Fld := ⟨SP_LANE_CTRL n k, 3, 3⟩
def SP_LANE_CTRL_prbs (n k : Nat) : Fld := ⟨SP_LANE_CTRL n k, 6, 4⟩
def SP_LANE_CTRL_margin (n k : Nat) : Fld := ⟨SP_LANE_CTRL n k, 8, 7⟩
def SP_LANE_CTRL_margin_go (n k : Nat) : Fld := ⟨SP_LANE_CTRL n k, 9, 9⟩
def SP_LANE_CTRL_margin_ms (n k : Nat) : Fld := ⟨SP_LANE_CTRL n k, 23, 16⟩
def SP_LANE_STATUS (n k : Nat) : Nat := 0x41008004 + 0x100000 * n + 0x400 * k
def SP_LANE_STATUS_lock (n k : Nat) : Fld := ⟨SP_LANE_STATUS n k, 1, 0⟩
def SP_LANE_STATUS_role (n k : Nat) : Fld := ⟨SP_LANE_STATUS n k, 4, 2⟩
def SP_LANE_STATUS_prbs_sync (n k : Nat) : Fld := ⟨SP_LANE_STATUS n k, 5, 5⟩
def SP_LANE_STATUS_margin_done (n k : Nat) : Fld := ⟨SP_LANE_STATUS n k, 6, 6⟩
def SP_LANE_STATUS_margin_pass (n k : Nat) : Fld := ⟨SP_LANE_STATUS n k, 7, 7⟩
def SP_LANE_PRBS_BITS_LO (n k : Nat) : Nat := 0x41008008 + 0x100000 * n + 0x400 * k
def SP_LANE_PRBS_BITS_LO_bits_lo (n k : Nat) : Fld := ⟨SP_LANE_PRBS_BITS_LO n k, 31, 0⟩
def SP_LANE_PRBS_BITS_HI (n k : Nat) : Nat := 0x4100800C + 0x100000 * n + 0x400 * k
def SP_LANE_PRBS_BITS_HI_bits_hi (n k : Nat) : Fld := ⟨SP_LANE_PRBS_BITS_HI n k, 15, 0⟩
def SP_LANE_PRBS_ERR (n k : Nat) : Nat := 0x41008010 + 0x100000 * n + 0x400 * k
def SP_LANE_PRBS_ERR_err (n k : Nat) : Fld := ⟨SP_LANE_PRBS_ERR n k, 31, 0⟩
def SP_LANE_HDR_ERR (n k : Nat) : Nat := 0x41008014 + 0x100000 * n + 0x400 * k
def SP_LANE_LOCK_LOSS (n k : Nat) : Nat := 0x41008018 + 0x100000 * n + 0x400 * k
def SP_LANE_ALIGN_ERR (n k : Nat) : Nat := 0x4100801C + 0x100000 * n + 0x400 * k
def SP_LANE_RETRY (n k : Nat) : Nat := 0x41008020 + 0x100000 * n + 0x400 * k
def SP_LANE_FENCED (n k : Nat) : Nat := 0x41008024 + 0x100000 * n + 0x400 * k

/-- The registers of SP (chapter 04), part 0. -/
def rowsSpP0 : List RegRow :=
  [ ⟨0x0, [], .d, [⟨4, 4, .rw, 0x0⟩, ⟨3, 3, .rw, 0x0⟩, ⟨2, 2, .rw, 0x0⟩, ⟨1, 1, .rw, 0x0⟩, ⟨0, 0, .rw, 0x0⟩]⟩
  , ⟨0x4, [], .d, [⟨0, 0, .ro, 0x1⟩, ⟨1, 1, .ro, 0x0⟩, ⟨2, 2, .ro, 0x0⟩, ⟨3, 3, .w1c, 0x0⟩]⟩
  , ⟨0x8, [], .d, [⟨15, 0, .rwc, 0x0⟩, ⟨31, 16, .rwc, 0x0⟩]⟩
  , ⟨0xC, [], .d, [⟨1, 0, .rwc, 0x0⟩, ⟨7, 2, .rwc, 0x2C⟩, ⟨31, 16, .rw, 0x3E8⟩]⟩
  , ⟨0x10, [], .d, [⟨0, 0, .rwc, 0x0⟩, ⟨23, 4, .rwc, 0x0⟩]⟩
  , ⟨0x14, [], .d, [⟨7, 0, .rw, 0x0⟩, ⟨23, 8, .rw, 0x0⟩]⟩
  , ⟨0x18, [], .d, [⟨31, 0, .rw, 0x0⟩]⟩
  , ⟨0x1C, [], .d, [⟨7, 0, .rw, 0x0⟩]⟩
  , ⟨0x20, [], .d, [⟨15, 0, .rw, 0x0⟩]⟩
  , ⟨0x24, [], .d, [⟨31, 0, .rw, 0x0⟩]⟩
  , ⟨0x28, [], .d, [⟨15, 0, .rw, 0x1A0B⟩, ⟨16, 16, .rw, 0x0⟩]⟩
  , ⟨0x2C, [], .d, [⟨1, 0, .rw, 0x0⟩]⟩
  , ⟨0x30, [], .d, [⟨11, 0, .rw, 0x0⟩, ⟨17, 16, .rw, 0x0⟩]⟩
  , ⟨0x34, [], .d, [⟨1, 0, .rw, 0x0⟩, ⟨2, 2, .rw, 0x0⟩]⟩
  , ⟨0x40, [], .d, [⟨31, 0, .ro, 0x0⟩]⟩
  , ⟨0x44, [], .d, [⟨31, 0, .rc, 0x0⟩]⟩
  , ⟨0x48, [], .d, [⟨31, 0, .rc, 0x0⟩]⟩
  , ⟨0x4C, [], .d, [⟨31, 0, .rc, 0x0⟩]⟩
  , ⟨0x50, [], .d, [⟨31, 0, .rc, 0x0⟩]⟩
  , ⟨0x54, [], .d, [⟨31, 0, .rc, 0x0⟩]⟩
  , ⟨0x58, [], .d, [⟨31, 0, .rc, 0x0⟩]⟩
  , ⟨0x5C, [], .d, [⟨31, 0, .rc, 0x0⟩]⟩
  , ⟨0x60, [], .d, [⟨31, 0, .rc, 0x0⟩]⟩
  , ⟨0x64, [], .d, [⟨31, 0, .rc, 0x0⟩]⟩]

/-- The registers of SP (chapter 04), part 1. -/
def rowsSpP1 : List RegRow :=
  [ ⟨0x100, [], .d, [⟨31, 16, .rw, 0x10⟩, ⟨5, 5, .rw, 0x0⟩, ⟨4, 2, .rw, 0x2⟩, ⟨0, 0, .rw, 0x0⟩]⟩
  , ⟨0x104, [], .d, [⟨8, 8, .rwc, 0x0⟩, ⟨7, 4, .rwc, 0x0⟩, ⟨3, 0, .rwc, 0x0⟩]⟩
  , ⟨0x108, [], .d, [⟨31, 0, .rwc, 0x76543210⟩]⟩
  , ⟨0x10C, [], .d, [⟨15, 0, .rwc, 0xBA98⟩]⟩
  , ⟨0x110, [], .d, [⟨0, 0, .wo, 0x0⟩]⟩
  , ⟨0x114, [], .d, [⟨6, 0, .rw, 0x0⟩, ⟨15, 8, .rw, 0x4⟩]⟩
  , ⟨0x118, [], .d, [⟨15, 0, .rw, 0x0⟩, ⟨31, 16, .rw, 0x0⟩]⟩
  , ⟨0x11C, [], .d, [⟨11, 0, .ro, 0x0⟩, ⟨12, 12, .ro, 0x0⟩, ⟨13, 13, .ro, 0x0⟩, ⟨14, 14, .ro, 0x0⟩, ⟨15, 15, .ro, 0x0⟩, ⟨23, 16, .ro, 0x0⟩, ⟨24, 24, .w1c, 0x0⟩, ⟨25, 25, .w1c, 0x0⟩, ⟨26, 26, .w1c, 0x0⟩, ⟨27, 27, .w1c, 0x0⟩]⟩
  , ⟨0x120, [], .d, [⟨8, 0, .rw, 0x0⟩]⟩
  , ⟨0x124, [], .d, [⟨31, 0, .rc, 0x0⟩]⟩
  , ⟨0x128, [], .d, [⟨31, 0, .rc, 0x0⟩]⟩
  , ⟨0x12C, [], .d, [⟨31, 0, .rc, 0x0⟩]⟩
  , ⟨0x130, [], .d, [⟨31, 0, .rc, 0x0⟩]⟩
  , ⟨0x134, [], .d, [⟨31, 0, .rc, 0x0⟩]⟩
  , ⟨0x200, [], .d, [⟨15, 0, .rw, 0x0⟩, ⟨31, 16, .rw, 0x0⟩]⟩
  , ⟨0x204, [], .d, [⟨1, 0, .rw, 0x0⟩, ⟨3, 2, .rw, 0x0⟩, ⟨15, 4, .rw, 0x0⟩, ⟨31, 16, .rw, 0x0⟩]⟩
  , ⟨0x208, [], .d, [⟨30, 24, .wo, 0x0⟩, ⟨23, 8, .wo, 0x0⟩, ⟨7, 0, .wo, 0x0⟩]⟩
  , ⟨0x20C, [], .d, [⟨31, 0, .rw, 0x0⟩]⟩
  , ⟨0x210, [], .d, [⟨15, 0, .wo, 0x0⟩]⟩
  , ⟨0x214, [], .d, [⟨4, 0, .ro, 0x0⟩, ⟨13, 5, .ro, 0x0⟩, ⟨14, 14, .w1c, 0x0⟩, ⟨15, 15, .w1c, 0x0⟩]⟩
  , ⟨0x218, [], .d, [⟨31, 0, .rc, 0x0⟩]⟩
  , ⟨0x21C, [], .d, [⟨15, 0, .ro, 0x0⟩]⟩
  , ⟨0x300, [], .d, [⟨1, 0, .rw, 0x2⟩]⟩
  , ⟨0x304, [], .d, [⟨1, 0, .rwc, 0x0⟩, ⟨2, 2, .rwc, 0x0⟩, ⟨5, 4, .rwc, 0x0⟩, ⟨6, 6, .rwc, 0x0⟩, ⟨9, 8, .rwc, 0x0⟩, ⟨10, 10, .rwc, 0x0⟩, ⟨13, 12, .rwc, 0x0⟩, ⟨14, 14, .rwc, 0x0⟩]⟩]

/-- The registers of SP (chapter 04), part 2. -/
def rowsSpP2 : List RegRow :=
  [ ⟨0x308, [], .d, [⟨31, 0, .rc, 0x0⟩]⟩
  , ⟨0x30C, [], .d, [⟨31, 0, .rc, 0x0⟩]⟩
  , ⟨0x310, [], .d, [⟨31, 0, .rc, 0x0⟩]⟩
  , ⟨0x400, [], .d, [⟨1, 0, .rw, 0x1⟩]⟩
  , ⟨0x404, [], .d, [⟨31, 31, .wo, 0x0⟩, ⟨30, 24, .wo, 0x0⟩, ⟨23, 8, .wo, 0x0⟩, ⟨7, 0, .wo, 0x0⟩]⟩
  , ⟨0x408, [], .d, [⟨7, 0, .ro, 0x0⟩, ⟨8, 8, .ro, 0x0⟩, ⟨9, 9, .ro, 0x0⟩, ⟨10, 10, .ro, 0x0⟩]⟩
  , ⟨0x40C, [], .d, [⟨31, 0, .rc, 0x0⟩]⟩
  , ⟨0x800, [], .d, [⟨15, 8, .rw, 0x8⟩, ⟨7, 6, .rw, 0x0⟩, ⟨5, 4, .rw, 0x0⟩, ⟨3, 2, .rw, 0x2⟩, ⟨1, 1, .rw, 0x0⟩, ⟨0, 0, .rw, 0x0⟩]⟩
  , ⟨0x804, [], .d, [⟨15, 0, .rw, 0x1⟩]⟩
  , ⟨0x808, [], .d, [⟨23, 0, .rw, 0xFA0⟩]⟩
  , ⟨0x80C, [], .d, [⟨15, 0, .rw, 0x40⟩, ⟨16, 16, .rw, 0x0⟩]⟩
  , ⟨0x810, [], .d, [⟨15, 0, .rw, 0x0⟩, ⟨31, 16, .rw, 0x0⟩]⟩
  , ⟨0x814, [], .d, [⟨7, 0, .rw, 0xE4⟩]⟩
  , ⟨0x820, [(0x4, 4)], .d, [⟨7, 0, .rwc, 0x0⟩, ⟨11, 8, .rwc, 0x0⟩]⟩
  , ⟨0x830, [], .d, [⟨31, 6, .rw, 0x0⟩]⟩
  , ⟨0x834, [], .d, [⟨7, 0, .rw, 0x0⟩]⟩
  , ⟨0x838, [], .d, [⟨7, 0, .rw, 0x0⟩]⟩
  , ⟨0x83C, [], .d, [⟨0, 0, .w1c, 0x0⟩, ⟨1, 1, .w1c, 0x0⟩, ⟨2, 2, .ro, 0x0⟩]⟩
  , ⟨0x840, [], .d, [⟨31, 0, .ro, 0x0⟩]⟩
  , ⟨0x844, [], .d, [⟨31, 0, .ro, 0x0⟩]⟩
  , ⟨0x848, [], .d, [⟨31, 0, .ro, 0x0⟩]⟩
  , ⟨0x84C, [], .d, [⟨31, 0, .ro, 0x0⟩]⟩
  , ⟨0x850, [], .d, [⟨2, 0, .rw, 0x0⟩]⟩
  , ⟨0x8000, [(0x400, 12)], .d, [⟨0, 0, .rw, 0x0⟩, ⟨1, 1, .w1s, 0x0⟩, ⟨2, 2, .w1s, 0x0⟩, ⟨3, 3, .w1s, 0x0⟩, ⟨6, 4, .rw, 0x0⟩, ⟨8, 7, .rw, 0x0⟩, ⟨9, 9, .w1s, 0x0⟩, ⟨23, 16, .rw, 0xA⟩]⟩]

/-- The registers of SP (chapter 04), part 3. -/
def rowsSpP3 : List RegRow :=
  [ ⟨0x8004, [(0x400, 12)], .d, [⟨1, 0, .ro, 0x0⟩, ⟨4, 2, .ro, 0x0⟩, ⟨5, 5, .ro, 0x0⟩, ⟨6, 6, .ro, 0x0⟩, ⟨7, 7, .ro, 0x0⟩]⟩
  , ⟨0x8008, [(0x400, 12)], .d, [⟨31, 0, .ro, 0x0⟩]⟩
  , ⟨0x800C, [(0x400, 12)], .d, [⟨15, 0, .ro, 0x0⟩]⟩
  , ⟨0x8010, [(0x400, 12)], .d, [⟨31, 0, .ro, 0x0⟩]⟩
  , ⟨0x8014, [(0x400, 12)], .d, [⟨31, 0, .rc, 0x0⟩]⟩
  , ⟨0x8018, [(0x400, 12)], .d, [⟨31, 0, .rc, 0x0⟩]⟩
  , ⟨0x801C, [(0x400, 12)], .d, [⟨31, 0, .rc, 0x0⟩]⟩
  , ⟨0x8020, [(0x400, 12)], .d, [⟨31, 0, .rc, 0x0⟩]⟩
  , ⟨0x8024, [(0x400, 12)], .d, [⟨31, 0, .rc, 0x0⟩]⟩]

/-- The registers of SP (chapter 04). -/
def rowsSp : List RegRow := rowsSpP0 ++ rowsSpP1 ++ rowsSpP2 ++ rowsSpP3

/-! ### SP0 -/

def SP0_GRP_CFG (g : Nat) : Nat := 0x41000600 + 0x10 * g
def SP0_GRP_CFG_win (g : Nat) : Fld := ⟨SP0_GRP_CFG g, 15, 0⟩
def SP0_GRP_MISS_RFN (g : Nat) : Nat := 0x41000604 + 0x10 * g
def SP0_GRP_MISS_RFN_rfn (g : Nat) : Fld := ⟨SP0_GRP_MISS_RFN g, 31, 0⟩
def SP0_GRP_MISS_MASK (g : Nat) : Nat := 0x41000608 + 0x10 * g
def SP0_GRP_MISS_MASK_absent (g : Nat) : Fld := ⟨SP0_GRP_MISS_MASK g, 3, 0⟩
def SP0_GRP_INCOMPLETE (g : Nat) : Nat := 0x4100060C + 0x10 * g

/-- The registers of SP0 (chapter 04). -/
def rowsSp0 : List RegRow :=
  [ ⟨0x600, [(0x10, 4)], .d, [⟨15, 0, .rw, 0x64⟩]⟩
  , ⟨0x604, [(0x10, 4)], .d, [⟨31, 0, .ro, 0x0⟩]⟩
  , ⟨0x608, [(0x10, 4)], .d, [⟨3, 0, .ro, 0x0⟩]⟩
  , ⟨0x60C, [(0x10, 4)], .d, [⟨31, 0, .rc, 0x0⟩]⟩]

/-! ### IP -/

def IP_COMMIT_TARGET (n : Nat) : Nat := 0x42000010 + 0x100000 * n
def IP_COMMIT_TARGET_pfn (n : Nat) : Fld := ⟨IP_COMMIT_TARGET n, 31, 0⟩
def IP_COMMIT (n : Nat) : Nat := 0x42000014 + 0x100000 * n
def IP_COMMIT_seq (n : Nat) : Fld := ⟨IP_COMMIT n, 15, 0⟩
def IP_COMMIT_STATUS (n : Nat) : Nat := 0x42000018 + 0x100000 * n
def IP_COMMIT_STATUS_done_seq (n : Nat) : Fld := ⟨IP_COMMIT_STATUS n, 15, 0⟩
def IP_COMMIT_STATUS_pending (n : Nat) : Fld := ⟨IP_COMMIT_STATUS n, 18, 16⟩
def IP_COMMIT_STATUS_refused (n : Nat) : Fld := ⟨IP_COMMIT_STATUS n, 19, 19⟩
def IP_COMMIT_STATUS_capturing (n : Nat) : Fld := ⟨IP_COMMIT_STATUS n, 20, 20⟩
def IP_FRONT_CFG (n : Nat) : Nat := 0x42000100 + 0x100000 * n
def IP_FRONT_CFG_cmp_bits (n : Nat) : Fld := ⟨IP_FRONT_CFG n, 20, 16⟩
def IP_FRONT_CFG_cfa (n : Nat) : Fld := ⟨IP_FRONT_CFG n, 11, 10⟩
def IP_FRONT_CFG_dms_mode (n : Nat) : Fld := ⟨IP_FRONT_CFG n, 9, 8⟩
def IP_FRONT_CFG_wb_byp (n : Nat) : Fld := ⟨IP_FRONT_CFG n, 7, 7⟩
def IP_FRONT_CFG_lsc_byp (n : Nat) : Fld := ⟨IP_FRONT_CFG n, 6, 6⟩
def IP_FRONT_CFG_dpc_dyn_en (n : Nat) : Fld := ⟨IP_FRONT_CFG n, 5, 5⟩
def IP_FRONT_CFG_dpc_st_en (n : Nat) : Fld := ⟨IP_FRONT_CFG n, 4, 4⟩
def IP_FRONT_CFG_blk_byp (n : Nat) : Fld := ⟨IP_FRONT_CFG n, 2, 2⟩
def IP_FRONT_CFG_cmp_en (n : Nat) : Fld := ⟨IP_FRONT_CFG n, 1, 1⟩
def IP_FRONT_CFG_lin_byp (n : Nat) : Fld := ⟨IP_FRONT_CFG n, 0, 0⟩
def IP_LIN_PTR_LO (n : Nat) : Nat := 0x42000104 + 0x100000 * n
def IP_LIN_PTR_LO_addr (n : Nat) : Fld := ⟨IP_LIN_PTR_LO n, 31, 6⟩
def IP_LIN_PTR_HI (n : Nat) : Nat := 0x42000108 + 0x100000 * n
def IP_LIN_PTR_HI_addr (n : Nat) : Fld := ⟨IP_LIN_PTR_HI n, 7, 0⟩
def IP_CMP_PTR_LO (n : Nat) : Nat := 0x4200010C + 0x100000 * n
def IP_CMP_PTR_LO_addr (n : Nat) : Fld := ⟨IP_CMP_PTR_LO n, 31, 6⟩
def IP_CMP_PTR_HI (n : Nat) : Nat := 0x42000110 + 0x100000 * n
def IP_CMP_PTR_HI_addr (n : Nat) : Fld := ⟨IP_CMP_PTR_HI n, 7, 0⟩
def IP_DPC_PTR_LO (n : Nat) : Nat := 0x42000114 + 0x100000 * n
def IP_DPC_PTR_LO_addr (n : Nat) : Fld := ⟨IP_DPC_PTR_LO n, 31, 6⟩
def IP_DPC_PTR_HI (n : Nat) : Nat := 0x42000118 + 0x100000 * n
def IP_DPC_PTR_HI_addr (n : Nat) : Fld := ⟨IP_DPC_PTR_HI n, 7, 0⟩
def IP_DPC_CNT (n : Nat) : Nat := 0x4200011C + 0x100000 * n
def IP_DPC_CNT_count (n : Nat) : Fld := ⟨IP_DPC_CNT n, 16, 0⟩
def IP_LSC_PTR_LO (n : Nat) : Nat := 0x42000120 + 0x100000 * n
def IP_LSC_PTR_LO_addr (n : Nat) : Fld := ⟨IP_LSC_PTR_LO n, 31, 6⟩
def IP_LSC_PTR_HI (n : Nat) : Nat := 0x42000124 + 0x100000 * n
def IP_LSC_PTR_HI_addr (n : Nat) : Fld := ⟨IP_LSC_PTR_HI n, 7, 0⟩
def IP_MSTAT_PTR_LO (n : Nat) : Nat := 0x42000128 + 0x100000 * n
def IP_MSTAT_PTR_LO_addr (n : Nat) : Fld := ⟨IP_MSTAT_PTR_LO n, 31, 6⟩
def IP_MSTAT_PTR_HI (n : Nat) : Nat := 0x4200012C + 0x100000 * n
def IP_MSTAT_PTR_HI_addr (n : Nat) : Fld := ⟨IP_MSTAT_PTR_HI n, 7, 0⟩
def IP_MSTAT_SLOTS (n : Nat) : Nat := 0x42000130 + 0x100000 * n
def IP_MSTAT_SLOTS_slots (n : Nat) : Fld := ⟨IP_MSTAT_SLOTS n, 7, 0⟩
def IP_MRG_A (n r : Nat) : Nat := 0x42000140 + 0x100000 * n + 0x10 * r
def IP_MRG_A_a (n r : Nat) : Fld := ⟨IP_MRG_A n r, 19, 0⟩
def IP_MRG_B (n r : Nat) : Nat := 0x42000144 + 0x100000 * n + 0x10 * r
def IP_MRG_B_b (n r : Nat) : Fld := ⟨IP_MRG_B n r, 19, 0⟩
def IP_MRG_SAT_LO (n r : Nat) : Nat := 0x42000148 + 0x100000 * n + 0x10 * r
def IP_MRG_SAT_LO_sat_lo (n r : Nat) : Fld := ⟨IP_MRG_SAT_LO n r, 19, 0⟩
def IP_MRG_SAT_HI (n r : Nat) : Nat := 0x4200014C + 0x100000 * n + 0x10 * r
def IP_MRG_SAT_HI_sat_hi (n r : Nat) : Fld := ⟨IP_MRG_SAT_HI n r, 19, 0⟩
def IP_BLK (n c : Nat) : Nat := 0x42000180 + 0x100000 * n + 0x4 * c
def IP_BLK_level (n c : Nat) : Fld := ⟨IP_BLK n c, 19, 0⟩
def IP_BLK_RAW (n c : Nat) : Nat := 0x42000190 + 0x100000 * n + 0x4 * c
def IP_BLK_RAW_code (n c : Nat) : Fld := ⟨IP_BLK_RAW n c, 19, 0⟩
def IP_OB_ROWS (n : Nat) : Nat := 0x420001A0 + 0x100000 * n
def IP_OB_ROWS_start (n : Nat) : Fld := ⟨IP_OB_ROWS n, 15, 0⟩
def IP_OB_ROWS_end (n : Nat) : Fld := ⟨IP_OB_ROWS n, 31, 16⟩
def IP_OB_CFG (n : Nat) : Nat := 0x420001A4 + 0x100000 * n
def IP_OB_CFG_en (n : Nat) : Fld := ⟨IP_OB_CFG n, 0, 0⟩
def IP_OB_CFG_k (n : Nat) : Fld := ⟨IP_OB_CFG n, 3, 1⟩
def IP_OB_EST (n c : Nat) : Nat := 0x420001B0 + 0x100000 * n + 0x4 * c
def IP_OB_EST_est (n c : Nat) : Fld := ⟨IP_OB_EST n c, 19, 0⟩
def IP_CAL_CTRL (n : Nat) : Nat := 0x420001C0 + 0x100000 * n
def IP_CAL_CTRL_en (n : Nat) : Fld := ⟨IP_CAL_CTRL n, 0, 0⟩
def IP_CAL_CTRL_hold (n : Nat) : Fld := ⟨IP_CAL_CTRL n, 1, 1⟩
def IP_CAL_CTRL_clear (n : Nat) : Fld := ⟨IP_CAL_CTRL n, 2, 2⟩
def IP_CAL_STATUS (n : Nat) : Nat := 0x420001C4 + 0x100000 * n
def IP_CAL_STATUS_pass (n : Nat) : Fld := ⟨IP_CAL_STATUS n, 0, 0⟩
def IP_DPC_THR (n : Nat) : Nat := 0x420001D0 + 0x100000 * n
def IP_DPC_THR_t_abs (n : Nat) : Fld := ⟨IP_DPC_THR n, 19, 0⟩
def IP_DPC_REL (n : Nat) : Nat := 0x420001D4 + 0x100000 * n
def IP_DPC_REL_t_rel (n : Nat) : Fld := ⟨IP_DPC_REL n, 15, 0⟩
def IP_WB (n c : Nat) : Nat := 0x420001E0 + 0x100000 * n + 0x4 * c
def IP_WB_gain (n c : Nat) : Fld := ⟨IP_WB n c, 19, 0⟩
def IP_DMS_CFG (n : Nat) : Nat := 0x420001F0 + 0x100000 * n
def IP_DMS_CFG_ratio (n : Nat) : Fld := ⟨IP_DMS_CFG n, 4, 0⟩
def IP_FRONT_STATUS (n : Nat) : Nat := 0x42000200 + 0x100000 * n
def IP_FRONT_STATUS_bad_write (n : Nat) : Fld := ⟨IP_FRONT_STATUS n, 0, 0⟩
def IP_DPC_DYN (n : Nat) : Nat := 0x42000204 + 0x100000 * n
def IP_DPC_DYN_count (n : Nat) : Fld := ⟨IP_DPC_DYN n, 31, 0⟩
def IP_DPC_SKIP (n : Nat) : Nat := 0x42000208 + 0x100000 * n
def IP_MRG_ROWS (n : Nat) : Nat := 0x4200020C + 0x100000 * n
def IP_SAT_PIX (n : Nat) : Nat := 0x42000210 + 0x100000 * n
def IP_FRONT_EVT_EN (n : Nat) : Nat := 0x42000214 + 0x100000 * n
def IP_FRONT_EVT_EN_en (n : Nat) : Fld := ⟨IP_FRONT_EVT_EN n, 3, 0⟩
def IP_FRONT_EVT_EN_en_commit (n : Nat) : Fld := ⟨IP_FRONT_EVT_EN n, 17, 16⟩
def IP_SCENE_CFG (n : Nat) : Nat := 0x42000300 + 0x100000 * n
def IP_SCENE_CFG_wsm_byp (n : Nat) : Fld := ⟨IP_SCENE_CFG n, 2, 2⟩
def IP_SCENE_CFG_ca_en (n : Nat) : Fld := ⟨IP_SCENE_CFG n, 1, 1⟩
def IP_SCENE_CFG_nr_en (n : Nat) : Fld := ⟨IP_SCENE_CFG n, 0, 0⟩
def IP_NR_A (n : Nat) : Nat := 0x42000304 + 0x100000 * n
def IP_NR_A_a (n : Nat) : Fld := ⟨IP_NR_A n, 19, 0⟩
def IP_NR_B (n : Nat) : Nat := 0x42000308 + 0x100000 * n
def IP_NR_B_b (n : Nat) : Fld := ⟨IP_NR_B n, 19, 0⟩
def IP_NR_SW0 (n : Nat) : Nat := 0x4200030C + 0x100000 * n
def IP_NR_SW0_sw0_sw3 (n : Nat) : Fld := ⟨IP_NR_SW0 n, 31, 0⟩
def IP_NR_SW1 (n : Nat) : Nat := 0x42000310 + 0x100000 * n
def IP_NR_SW1_sw4_sw5 (n : Nat) : Fld := ⟨IP_NR_SW1 n, 15, 0⟩
def IP_NR_RW (n q : Nat) : Nat := 0x42000314 + 0x100000 * n + 0x4 * q
def IP_NR_RW_rw (n q : Nat) : Fld := ⟨IP_NR_RW n q, 31, 0⟩
def IP_NR_STR (n : Nat) : Nat := 0x42000324 + 0x100000 * n
def IP_NR_STR_s_l (n : Nat) : Fld := ⟨IP_NR_STR n, 8, 0⟩
def IP_NR_STR_s_c (n : Nat) : Fld := ⟨IP_NR_STR n, 24, 16⟩
def IP_CA_PTR_LO (n : Nat) : Nat := 0x42000330 + 0x100000 * n
def IP_CA_PTR_LO_addr (n : Nat) : Fld := ⟨IP_CA_PTR_LO n, 31, 6⟩
def IP_CA_PTR_HI (n : Nat) : Nat := 0x42000334 + 0x100000 * n
def IP_CA_PTR_HI_addr (n : Nat) : Fld := ⟨IP_CA_PTR_HI n, 7, 0⟩
def IP_WSM (n e : Nat) : Nat := 0x42000340 + 0x100000 * n + 0x4 * e
def IP_WSM_coef (n e : Nat) : Fld := ⟨IP_WSM n e, 19, 0⟩
def IP_WSO (n i : Nat) : Nat := 0x42000364 + 0x100000 * n + 0x4 * i
def IP_WSO_ofs (n i : Nat) : Fld := ⟨IP_WSO n i, 19, 0⟩
def IP_CLR_LOAD (n : Nat) : Nat := 0x42000380 + 0x100000 * n
def IP_CLR_LOAD_pending (n : Nat) : Fld := ⟨IP_CLR_LOAD n, 5, 0⟩
def IP_CLR_STATUS (n : Nat) : Nat := 0x42000384 + 0x100000 * n
def IP_CLR_STATUS_bad_write (n : Nat) : Fld := ⟨IP_CLR_STATUS n, 0, 0⟩
def IP_CLR_STATUS_table_err (n : Nat) : Fld := ⟨IP_CLR_STATUS n, 6, 1⟩
def IP_CA_CLAMP (n : Nat) : Nat := 0x42000388 + 0x100000 * n
def IP_CLR_EVT_EN (n : Nat) : Nat := 0x4200038C + 0x100000 * n
def IP_CLR_EVT_EN_en (n : Nat) : Fld := ⟨IP_CLR_EVT_EN n, 1, 0⟩
def IP_T_CFG (n t : Nat) : Nat := 0x42000600 + 0x100000 * n + 0x40 * t
def IP_T_CFG_en (n t : Nat) : Fld := ⟨IP_T_CFG n t, 0, 0⟩
def IP_T_CFG_dest (n t : Nat) : Fld := ⟨IP_T_CFG n t, 1, 1⟩
def IP_T_CFG_readout (n t : Nat) : Fld := ⟨IP_T_CFG n t, 9, 8⟩
def IP_T_CFG_fmt (n t : Nat) : Fld := ⟨IP_T_CFG n t, 23, 16⟩
def IP_T_RING_LO (n t : Nat) : Nat := 0x42000604 + 0x100000 * n + 0x40 * t
def IP_T_RING_LO_base (n t : Nat) : Fld := ⟨IP_T_RING_LO n t, 31, 6⟩
def IP_T_RING_HI (n t : Nat) : Nat := 0x42000608 + 0x100000 * n + 0x40 * t
def IP_T_RING_HI_base (n t : Nat) : Fld := ⟨IP_T_RING_HI n t, 7, 0⟩
def IP_T_RING_CFG (n t : Nat) : Nat := 0x4200060C + 0x100000 * n + 0x40 * t
def IP_T_RING_CFG_bufs (n t : Nat) : Fld := ⟨IP_T_RING_CFG n t, 6, 0⟩
def IP_T_SLOT (n t : Nat) : Nat := 0x42000610 + 0x100000 * n + 0x40 * t
def IP_T_SLOT_bytes (n t : Nat) : Fld := ⟨IP_T_SLOT n t, 31, 6⟩
def IP_T_STRIDE (n t : Nat) : Nat := 0x42000614 + 0x100000 * n + 0x40 * t
def IP_T_STRIDE_bytes (n t : Nat) : Fld := ⟨IP_T_STRIDE n t, 23, 6⟩
def IP_T_RING_STAT (n t : Nat) : Nat := 0x42000618 + 0x100000 * n + 0x40 * t
def IP_T_RING_STAT_held (n t : Nat) : Fld := ⟨IP_T_RING_STAT n t, 6, 0⟩
def IP_T_RING_STAT_credits (n t : Nat) : Fld := ⟨IP_T_RING_STAT n t, 14, 8⟩
def IP_T_PROD_LO (n t : Nat) : Nat := 0x4200061C + 0x100000 * n + 0x40 * t
def IP_T_PROD_LO_prod (n t : Nat) : Fld := ⟨IP_T_PROD_LO n t, 31, 0⟩
def IP_T_PROD_HI (n t : Nat) : Nat := 0x42000620 + 0x100000 * n + 0x40 * t
def IP_T_PROD_HI_prod (n t : Nat) : Fld := ⟨IP_T_PROD_HI n t, 31, 0⟩
def IP_T_DROP_LO (n t : Nat) : Nat := 0x42000624 + 0x100000 * n + 0x40 * t
def IP_T_DROP_LO_drop (n t : Nat) : Fld := ⟨IP_T_DROP_LO n t, 31, 0⟩
def IP_T_DROP_HI (n t : Nat) : Nat := 0x42000628 + 0x100000 * n + 0x40 * t
def IP_T_DROP_HI_drop (n t : Nat) : Fld := ⟨IP_T_DROP_HI n t, 31, 0⟩
def IP_T_STATUS (n t : Nat) : Nat := 0x4200062C + 0x100000 * n + 0x40 * t
def IP_T_STATUS_bad_write (n t : Nat) : Fld := ⟨IP_T_STATUS n t, 0, 0⟩
def IP_ST_CFG (n : Nat) : Nat := 0x42000700 + 0x100000 * n
def IP_ST_CFG_hist_en (n : Nat) : Fld := ⟨IP_ST_CFG n, 0, 0⟩
def IP_ST_CFG_zone_en (n : Nat) : Fld := ⟨IP_ST_CFG n, 1, 1⟩
def IP_ST_CFG_zx (n : Nat) : Fld := ⟨IP_ST_CFG n, 14, 8⟩
def IP_ST_CFG_zy (n : Nat) : Fld := ⟨IP_ST_CFG n, 21, 16⟩
def IP_ST_WIN_XY (n : Nat) : Nat := 0x42000704 + 0x100000 * n
def IP_ST_WIN_XY_x0 (n : Nat) : Fld := ⟨IP_ST_WIN_XY n, 15, 0⟩
def IP_ST_WIN_XY_y0 (n : Nat) : Fld := ⟨IP_ST_WIN_XY n, 31, 16⟩
def IP_ST_WIN_WH (n : Nat) : Nat := 0x42000708 + 0x100000 * n
def IP_ST_WIN_WH_w (n : Nat) : Fld := ⟨IP_ST_WIN_WH n, 15, 0⟩
def IP_ST_WIN_WH_h (n : Nat) : Fld := ⟨IP_ST_WIN_WH n, 31, 16⟩
def IP_ST_CLIP (n : Nat) : Nat := 0x4200070C + 0x100000 * n
def IP_ST_CLIP_level (n : Nat) : Fld := ⟨IP_ST_CLIP n, 19, 0⟩
def IP_ST_PTR_LO (n : Nat) : Nat := 0x42000710 + 0x100000 * n
def IP_ST_PTR_LO_addr (n : Nat) : Fld := ⟨IP_ST_PTR_LO n, 31, 17⟩
def IP_ST_PTR_HI (n : Nat) : Nat := 0x42000714 + 0x100000 * n
def IP_ST_PTR_HI_addr (n : Nat) : Fld := ⟨IP_ST_PTR_HI n, 7, 0⟩
def IP_ST_SLOTS (n : Nat) : Nat := 0x42000718 + 0x100000 * n
def IP_ST_SLOTS_slots (n : Nat) : Fld := ⟨IP_ST_SLOTS n, 7, 0⟩
def IP_ST_LUMA (n : Nat) : Nat := 0x4200071C + 0x100000 * n
def IP_ST_LUMA_en (n : Nat) : Fld := ⟨IP_ST_LUMA n, 0, 0⟩
def IP_ST_LUMA_branch (n : Nat) : Fld := ⟨IP_ST_LUMA n, 2, 1⟩
def IP_ST_STATUS (n : Nat) : Nat := 0x42000720 + 0x100000 * n
def IP_ST_STATUS_bad_write (n : Nat) : Fld := ⟨IP_ST_STATUS n, 0, 0⟩
def IP_OUT_EVT_EN (n : Nat) : Nat := 0x42000724 + 0x100000 * n
def IP_OUT_EVT_EN_en (n : Nat) : Fld := ⟨IP_OUT_EVT_EN n, 4, 0⟩
def IP_O_XF_CFG (n b : Nat) : Nat := 0x42000800 + 0x100000 * n + 0x100 * b
def IP_O_XF_CFG_ycc (n b : Nat) : Fld := ⟨IP_O_XF_CFG n b, 9, 8⟩
def IP_O_XF_CFG_enc (n b : Nat) : Fld := ⟨IP_O_XF_CFG n b, 6, 4⟩
def IP_O_XF_CFG_olut_byp (n b : Nat) : Fld := ⟨IP_O_XF_CFG n b, 3, 3⟩
def IP_O_XF_CFG_lut3_byp (n b : Nat) : Fld := ⟨IP_O_XF_CFG n b, 2, 2⟩
def IP_O_XF_CFG_shp_byp (n b : Nat) : Fld := ⟨IP_O_XF_CFG n b, 1, 1⟩
def IP_O_XF_CFG_mtx_byp (n b : Nat) : Fld := ⟨IP_O_XF_CFG n b, 0, 0⟩
def IP_O_ENC_SCALE (n b : Nat) : Nat := 0x42000804 + 0x100000 * n + 0x100 * b
def IP_O_ENC_SCALE_scale (n b : Nat) : Fld := ⟨IP_O_ENC_SCALE n b, 19, 0⟩
def IP_O_MTX (n b e : Nat) : Nat := 0x42000808 + 0x100000 * n + 0x100 * b + 0x4 * e
def IP_O_MTX_coef (n b e : Nat) : Fld := ⟨IP_O_MTX n b e, 19, 0⟩
def IP_O_OFS (n b i : Nat) : Nat := 0x4200082C + 0x100000 * n + 0x100 * b + 0x4 * i
def IP_O_OFS_ofs (n b i : Nat) : Fld := ⟨IP_O_OFS n b i, 19, 0⟩
def IP_O_SHP_PTR_LO (n b : Nat) : Nat := 0x42000838 + 0x100000 * n + 0x100 * b
def IP_O_SHP_PTR_LO_addr (n b : Nat) : Fld := ⟨IP_O_SHP_PTR_LO n b, 31, 6⟩
def IP_O_SHP_PTR_HI (n b : Nat) : Nat := 0x4200083C + 0x100000 * n + 0x100 * b
def IP_O_SHP_PTR_HI_addr (n b : Nat) : Fld := ⟨IP_O_SHP_PTR_HI n b, 7, 0⟩
def IP_O_LUT3_PTR_LO (n b : Nat) : Nat := 0x42000840 + 0x100000 * n + 0x100 * b
def IP_O_LUT3_PTR_LO_addr (n b : Nat) : Fld := ⟨IP_O_LUT3_PTR_LO n b, 31, 6⟩
def IP_O_LUT3_PTR_HI (n b : Nat) : Nat := 0x42000844 + 0x100000 * n + 0x100 * b
def IP_O_LUT3_PTR_HI_addr (n b : Nat) : Fld := ⟨IP_O_LUT3_PTR_HI n b, 7, 0⟩
def IP_O_OLUT_PTR_LO (n b : Nat) : Nat := 0x42000848 + 0x100000 * n + 0x100 * b
def IP_O_OLUT_PTR_LO_addr (n b : Nat) : Fld := ⟨IP_O_OLUT_PTR_LO n b, 31, 6⟩
def IP_O_OLUT_PTR_HI (n b : Nat) : Nat := 0x4200084C + 0x100000 * n + 0x100 * b
def IP_O_OLUT_PTR_HI_addr (n b : Nat) : Fld := ⟨IP_O_OLUT_PTR_HI n b, 7, 0⟩
def IP_O_CSPACE (n b : Nat) : Nat := 0x42000850 + 0x100000 * n + 0x100 * b
def IP_O_CSPACE_prim (n b : Nat) : Fld := ⟨IP_O_CSPACE n b, 3, 0⟩
def IP_O_CSPACE_xfer (n b : Nat) : Fld := ⟨IP_O_CSPACE n b, 7, 4⟩
def IP_O_LUT3_CLIP (n b : Nat) : Nat := 0x42000854 + 0x100000 * n + 0x100 * b
def IP_O_ENC_CLIP (n b : Nat) : Nat := 0x42000858 + 0x100000 * n + 0x100 * b
def IP_O_CROP_XY (n b : Nat) : Nat := 0x42000880 + 0x100000 * n + 0x100 * b
def IP_O_CROP_XY_x0 (n b : Nat) : Fld := ⟨IP_O_CROP_XY n b, 15, 0⟩
def IP_O_CROP_XY_y0 (n b : Nat) : Fld := ⟨IP_O_CROP_XY n b, 31, 16⟩
def IP_O_CROP_WH (n b : Nat) : Nat := 0x42000884 + 0x100000 * n + 0x100 * b
def IP_O_CROP_WH_w (n b : Nat) : Fld := ⟨IP_O_CROP_WH n b, 15, 0⟩
def IP_O_CROP_WH_h (n b : Nat) : Fld := ⟨IP_O_CROP_WH n b, 31, 16⟩
def IP_O_OUT_WH (n b : Nat) : Nat := 0x42000888 + 0x100000 * n + 0x100 * b
def IP_O_OUT_WH_ow (n b : Nat) : Fld := ⟨IP_O_OUT_WH n b, 15, 0⟩
def IP_O_OUT_WH_oh (n b : Nat) : Fld := ⟨IP_O_OUT_WH n b, 31, 16⟩
def IP_O_SCL_CFG (n b : Nat) : Nat := 0x4200088C + 0x100000 * n + 0x100 * b
def IP_O_SCL_CFG_dx (n b : Nat) : Fld := ⟨IP_O_SCL_CFG n b, 1, 0⟩
def IP_O_SCL_CFG_dy (n b : Nat) : Fld := ⟨IP_O_SCL_CFG n b, 3, 2⟩
def IP_O_COEF_PTR_LO (n b : Nat) : Nat := 0x42000890 + 0x100000 * n + 0x100 * b
def IP_O_COEF_PTR_LO_addr (n b : Nat) : Fld := ⟨IP_O_COEF_PTR_LO n b, 31, 6⟩
def IP_O_COEF_PTR_HI (n b : Nat) : Nat := 0x42000894 + 0x100000 * n + 0x100 * b
def IP_O_COEF_PTR_HI_addr (n b : Nat) : Fld := ⟨IP_O_COEF_PTR_HI n b, 7, 0⟩
def IP_O_PACK (n b : Nat) : Nat := 0x42000898 + 0x100000 * n + 0x100 * b
def IP_O_PACK_fmt (n b : Nat) : Fld := ⟨IP_O_PACK n b, 7, 0⟩
def IP_O_PACK_range (n b : Nat) : Fld := ⟨IP_O_PACK n b, 8, 8⟩
def IP_O_STATUS (n b : Nat) : Nat := 0x4200089C + 0x100000 * n + 0x100 * b
def IP_O_STATUS_bad_write (n b : Nat) : Fld := ⟨IP_O_STATUS n b, 0, 0⟩
def IP_O_STATUS_cfg_err (n b : Nat) : Fld := ⟨IP_O_STATUS n b, 1, 1⟩
def IP_O_CROP_OUT (n b : Nat) : Nat := 0x420008A0 + 0x100000 * n + 0x100 * b
def IP_O_PACK_CLIP (n b : Nat) : Nat := 0x420008A4 + 0x100000 * n + 0x100 * b
def IP_O_OVERRUN (n b : Nat) : Nat := 0x420008A8 + 0x100000 * n + 0x100 * b
def IP_O_RING_LO (n b : Nat) : Nat := 0x420008C0 + 0x100000 * n + 0x100 * b
def IP_O_RING_LO_base (n b : Nat) : Fld := ⟨IP_O_RING_LO n b, 31, 6⟩
def IP_O_RING_HI (n b : Nat) : Nat := 0x420008C4 + 0x100000 * n + 0x100 * b
def IP_O_RING_HI_base (n b : Nat) : Fld := ⟨IP_O_RING_HI n b, 7, 0⟩
def IP_O_RING_CFG (n b : Nat) : Nat := 0x420008C8 + 0x100000 * n + 0x100 * b
def IP_O_RING_CFG_bufs (n b : Nat) : Fld := ⟨IP_O_RING_CFG n b, 6, 0⟩
def IP_O_SLOT (n b : Nat) : Nat := 0x420008CC + 0x100000 * n + 0x100 * b
def IP_O_SLOT_bytes (n b : Nat) : Fld := ⟨IP_O_SLOT n b, 31, 6⟩
def IP_O_STRIDE (n b : Nat) : Nat := 0x420008D0 + 0x100000 * n + 0x100 * b
def IP_O_STRIDE_bytes (n b : Nat) : Fld := ⟨IP_O_STRIDE n b, 23, 6⟩
def IP_O_RING_STAT (n b : Nat) : Nat := 0x420008D4 + 0x100000 * n + 0x100 * b
def IP_O_RING_STAT_held (n b : Nat) : Fld := ⟨IP_O_RING_STAT n b, 6, 0⟩
def IP_O_RING_STAT_credits (n b : Nat) : Fld := ⟨IP_O_RING_STAT n b, 14, 8⟩
def IP_O_PROD_LO (n b : Nat) : Nat := 0x420008D8 + 0x100000 * n + 0x100 * b
def IP_O_PROD_LO_prod (n b : Nat) : Fld := ⟨IP_O_PROD_LO n b, 31, 0⟩
def IP_O_PROD_HI (n b : Nat) : Nat := 0x420008DC + 0x100000 * n + 0x100 * b
def IP_O_PROD_HI_prod (n b : Nat) : Fld := ⟨IP_O_PROD_HI n b, 31, 0⟩
def IP_O_DROP_LO (n b : Nat) : Nat := 0x420008E0 + 0x100000 * n + 0x100 * b
def IP_O_DROP_LO_drop (n b : Nat) : Fld := ⟨IP_O_DROP_LO n b, 31, 0⟩
def IP_O_DROP_HI (n b : Nat) : Nat := 0x420008E4 + 0x100000 * n + 0x100 * b
def IP_O_DROP_HI_drop (n b : Nat) : Fld := ⟨IP_O_DROP_HI n b, 31, 0⟩

/-- The registers of IP (chapter 05), part 0. -/
def rowsIpP0 : List RegRow :=
  [ ⟨0x10, [], .d, [⟨31, 0, .rw, 0x0⟩]⟩
  , ⟨0x14, [], .d, [⟨15, 0, .wo, 0x0⟩]⟩
  , ⟨0x18, [], .d, [⟨15, 0, .ro, 0x0⟩, ⟨18, 16, .ro, 0x0⟩, ⟨19, 19, .w1c, 0x0⟩, ⟨20, 20, .ro, 0x0⟩]⟩
  , ⟨0x100, [], .d, [⟨20, 16, .rwc, 0x18⟩, ⟨11, 10, .rwc, 0x0⟩, ⟨9, 8, .rwc, 0x0⟩, ⟨7, 7, .rwc, 0x0⟩, ⟨6, 6, .rwc, 0x0⟩, ⟨5, 5, .rwc, 0x0⟩, ⟨4, 4, .rwc, 0x0⟩, ⟨2, 2, .rwc, 0x0⟩, ⟨1, 1, .rwc, 0x0⟩, ⟨0, 0, .rwc, 0x0⟩]⟩
  , ⟨0x104, [], .d, [⟨31, 6, .rwc, 0x0⟩]⟩
  , ⟨0x108, [], .d, [⟨7, 0, .rwc, 0x0⟩]⟩
  , ⟨0x10C, [], .d, [⟨31, 6, .rwc, 0x0⟩]⟩
  , ⟨0x110, [], .d, [⟨7, 0, .rwc, 0x0⟩]⟩
  , ⟨0x114, [], .d, [⟨31, 6, .rwc, 0x0⟩]⟩
  , ⟨0x118, [], .d, [⟨7, 0, .rwc, 0x0⟩]⟩
  , ⟨0x11C, [], .d, [⟨16, 0, .rwc, 0x0⟩]⟩
  , ⟨0x120, [], .d, [⟨31, 6, .rwc, 0x0⟩]⟩
  , ⟨0x124, [], .d, [⟨7, 0, .rwc, 0x0⟩]⟩
  , ⟨0x128, [], .d, [⟨31, 6, .rwc, 0x0⟩]⟩
  , ⟨0x12C, [], .d, [⟨7, 0, .rwc, 0x0⟩]⟩
  , ⟨0x130, [], .d, [⟨7, 0, .rwc, 0x0⟩]⟩
  , ⟨0x140, [(0x10, 4)], .d, [⟨19, 0, .rwc, 0x0⟩]⟩
  , ⟨0x144, [(0x10, 4)], .d, [⟨19, 0, .rwc, 0x0⟩]⟩
  , ⟨0x148, [(0x10, 4)], .d, [⟨19, 0, .rwc, 0x3E000⟩]⟩
  , ⟨0x14C, [(0x10, 4)], .d, [⟨19, 0, .rwc, 0x40000⟩]⟩
  , ⟨0x180, [(0x4, 4)], .d, [⟨19, 0, .rwc, 0x0⟩]⟩
  , ⟨0x190, [(0x4, 4)], .d, [⟨19, 0, .rwc, 0x0⟩]⟩
  , ⟨0x1A0, [], .d, [⟨15, 0, .rwc, 0x0⟩, ⟨31, 16, .rwc, 0x0⟩]⟩
  , ⟨0x1A4, [], .d, [⟨0, 0, .rwc, 0x0⟩, ⟨3, 1, .rwc, 0x3⟩]⟩]

/-- The registers of IP (chapter 05), part 1. -/
def rowsIpP1 : List RegRow :=
  [ ⟨0x1B0, [(0x4, 4)], .d, [⟨19, 0, .ro, 0x0⟩]⟩
  , ⟨0x1C0, [], .d, [⟨0, 0, .rw, 0x0⟩, ⟨1, 1, .rw, 0x0⟩, ⟨2, 2, .w1s, 0x0⟩]⟩
  , ⟨0x1C4, [], .d, [⟨0, 0, .ro, 0x0⟩]⟩
  , ⟨0x1D0, [], .d, [⟨19, 0, .rwc, 0x36000⟩]⟩
  , ⟨0x1D4, [], .d, [⟨15, 0, .rwc, 0x80⟩]⟩
  , ⟨0x1E0, [(0x4, 4)], .d, [⟨19, 0, .rwc, 0x3E000⟩]⟩
  , ⟨0x1F0, [], .d, [⟨4, 0, .rwc, 0xC⟩]⟩
  , ⟨0x200, [], .d, [⟨0, 0, .w1c, 0x0⟩]⟩
  , ⟨0x204, [], .d, [⟨31, 0, .ro, 0x0⟩]⟩
  , ⟨0x208, [], .d, [⟨31, 0, .rc, 0x0⟩]⟩
  , ⟨0x20C, [], .d, [⟨31, 0, .rc, 0x0⟩]⟩
  , ⟨0x210, [], .d, [⟨31, 0, .rc, 0x0⟩]⟩
  , ⟨0x214, [], .d, [⟨3, 0, .rw, 0x0⟩, ⟨17, 16, .rw, 0x0⟩]⟩
  , ⟨0x300, [], .d, [⟨2, 2, .rwc, 0x1⟩, ⟨1, 1, .rwc, 0x0⟩, ⟨0, 0, .rwc, 0x0⟩]⟩
  , ⟨0x304, [], .d, [⟨19, 0, .rwc, 0x0⟩]⟩
  , ⟨0x308, [], .d, [⟨19, 0, .rwc, 0x0⟩]⟩
  , ⟨0x30C, [], .d, [⟨31, 0, .rwc, 0x0⟩]⟩
  , ⟨0x310, [], .d, [⟨15, 0, .rwc, 0x0⟩]⟩
  , ⟨0x314, [(0x4, 4)], .d, [⟨31, 0, .rwc, 0x0⟩]⟩
  , ⟨0x324, [], .d, [⟨8, 0, .rwc, 0x0⟩, ⟨24, 16, .rwc, 0x0⟩]⟩
  , ⟨0x330, [], .d, [⟨31, 6, .rwc, 0x0⟩]⟩
  , ⟨0x334, [], .d, [⟨7, 0, .rwc, 0x0⟩]⟩
  , ⟨0x340, [(0x4, 9)], .d, [⟨19, 0, .rwc, 0x0⟩]⟩
  , ⟨0x364, [(0x4, 3)], .d, [⟨19, 0, .rwc, 0x0⟩]⟩]

/-- The registers of IP (chapter 05), part 2. -/
def rowsIpP2 : List RegRow :=
  [ ⟨0x380, [], .d, [⟨5, 0, .ro, 0x0⟩]⟩
  , ⟨0x384, [], .d, [⟨0, 0, .w1c, 0x0⟩, ⟨6, 1, .w1c, 0x0⟩]⟩
  , ⟨0x388, [], .d, [⟨31, 0, .rc, 0x0⟩]⟩
  , ⟨0x38C, [], .d, [⟨1, 0, .rw, 0x0⟩]⟩
  , ⟨0x600, [(0x40, 4)], .d, [⟨0, 0, .rwc, 0x0⟩, ⟨1, 1, .rwc, 0x0⟩, ⟨9, 8, .rwc, 0x0⟩, ⟨23, 16, .rwc, 0x1⟩]⟩
  , ⟨0x604, [(0x40, 4)], .d, [⟨31, 6, .rw, 0x0⟩]⟩
  , ⟨0x608, [(0x40, 4)], .d, [⟨7, 0, .rw, 0x0⟩]⟩
  , ⟨0x60C, [(0x40, 4)], .d, [⟨6, 0, .rw, 0x0⟩]⟩
  , ⟨0x610, [(0x40, 4)], .d, [⟨31, 6, .rw, 0x0⟩]⟩
  , ⟨0x614, [(0x40, 4)], .d, [⟨23, 6, .rw, 0x0⟩]⟩
  , ⟨0x618, [(0x40, 4)], .d, [⟨6, 0, .ro, 0x0⟩, ⟨14, 8, .ro, 0x0⟩]⟩
  , ⟨0x61C, [(0x40, 4)], .d, [⟨31, 0, .ro, 0x0⟩]⟩
  , ⟨0x620, [(0x40, 4)], .d, [⟨31, 0, .ro, 0x0⟩]⟩
  , ⟨0x624, [(0x40, 4)], .d, [⟨31, 0, .ro, 0x0⟩]⟩
  , ⟨0x628, [(0x40, 4)], .d, [⟨31, 0, .ro, 0x0⟩]⟩
  , ⟨0x62C, [(0x40, 4)], .d, [⟨0, 0, .w1c, 0x0⟩]⟩
  , ⟨0x700, [], .d, [⟨0, 0, .rwc, 0x0⟩, ⟨1, 1, .rwc, 0x0⟩, ⟨14, 8, .rwc, 0x0⟩, ⟨21, 16, .rwc, 0x0⟩]⟩
  , ⟨0x704, [], .d, [⟨15, 0, .rwc, 0x0⟩, ⟨31, 16, .rwc, 0x0⟩]⟩
  , ⟨0x708, [], .d, [⟨15, 0, .rwc, 0x0⟩, ⟨31, 16, .rwc, 0x0⟩]⟩
  , ⟨0x70C, [], .d, [⟨19, 0, .rwc, 0x3E000⟩]⟩
  , ⟨0x710, [], .d, [⟨31, 17, .rwc, 0x0⟩]⟩
  , ⟨0x714, [], .d, [⟨7, 0, .rwc, 0x0⟩]⟩
  , ⟨0x718, [], .d, [⟨7, 0, .rwc, 0x0⟩]⟩
  , ⟨0x71C, [], .d, [⟨0, 0, .rwc, 0x0⟩, ⟨2, 1, .rwc, 0x0⟩]⟩]

/-- The registers of IP (chapter 05), part 3. -/
def rowsIpP3 : List RegRow :=
  [ ⟨0x720, [], .d, [⟨0, 0, .w1c, 0x0⟩]⟩
  , ⟨0x724, [], .d, [⟨4, 0, .rw, 0x0⟩]⟩
  , ⟨0x800, [(0x100, 4)], .d, [⟨9, 8, .rwc, 0x0⟩, ⟨6, 4, .rwc, 0x0⟩, ⟨3, 3, .rwc, 0x1⟩, ⟨2, 2, .rwc, 0x1⟩, ⟨1, 1, .rwc, 0x1⟩, ⟨0, 0, .rwc, 0x1⟩]⟩
  , ⟨0x804, [(0x100, 4)], .d, [⟨19, 0, .rwc, 0x3E000⟩]⟩
  , ⟨0x808, [(0x100, 4), (0x4, 9)], .d, [⟨19, 0, .rwc, 0x0⟩]⟩
  , ⟨0x82C, [(0x100, 4), (0x4, 3)], .d, [⟨19, 0, .rwc, 0x0⟩]⟩
  , ⟨0x838, [(0x100, 4)], .d, [⟨31, 6, .rwc, 0x0⟩]⟩
  , ⟨0x83C, [(0x100, 4)], .d, [⟨7, 0, .rwc, 0x0⟩]⟩
  , ⟨0x840, [(0x100, 4)], .d, [⟨31, 6, .rwc, 0x0⟩]⟩
  , ⟨0x844, [(0x100, 4)], .d, [⟨7, 0, .rwc, 0x0⟩]⟩
  , ⟨0x848, [(0x100, 4)], .d, [⟨31, 6, .rwc, 0x0⟩]⟩
  , ⟨0x84C, [(0x100, 4)], .d, [⟨7, 0, .rwc, 0x0⟩]⟩
  , ⟨0x850, [(0x100, 4)], .d, [⟨3, 0, .rwc, 0x0⟩, ⟨7, 4, .rwc, 0x0⟩]⟩
  , ⟨0x854, [(0x100, 4)], .d, [⟨31, 0, .rc, 0x0⟩]⟩
  , ⟨0x858, [(0x100, 4)], .d, [⟨31, 0, .rc, 0x0⟩]⟩
  , ⟨0x880, [(0x100, 4)], .d, [⟨15, 0, .rwc, 0x0⟩, ⟨31, 16, .rwc, 0x0⟩]⟩
  , ⟨0x884, [(0x100, 4)], .d, [⟨15, 0, .rwc, 0x0⟩, ⟨31, 16, .rwc, 0x0⟩]⟩
  , ⟨0x888, [(0x100, 4)], .d, [⟨15, 0, .rwc, 0x0⟩, ⟨31, 16, .rwc, 0x0⟩]⟩
  , ⟨0x88C, [(0x100, 4)], .d, [⟨1, 0, .rwc, 0x0⟩, ⟨3, 2, .rwc, 0x0⟩]⟩
  , ⟨0x890, [(0x100, 4)], .d, [⟨31, 6, .rwc, 0x0⟩]⟩
  , ⟨0x894, [(0x100, 4)], .d, [⟨7, 0, .rwc, 0x0⟩]⟩
  , ⟨0x898, [(0x100, 4)], .d, [⟨7, 0, .rwc, 0x10⟩, ⟨8, 8, .rwc, 0x0⟩]⟩
  , ⟨0x89C, [(0x100, 4)], .d, [⟨0, 0, .w1c, 0x0⟩, ⟨1, 1, .w1c, 0x0⟩]⟩
  , ⟨0x8A0, [(0x100, 4)], .d, [⟨31, 0, .rc, 0x0⟩]⟩]

/-- The registers of IP (chapter 05), part 4. -/
def rowsIpP4 : List RegRow :=
  [ ⟨0x8A4, [(0x100, 4)], .d, [⟨31, 0, .rc, 0x0⟩]⟩
  , ⟨0x8A8, [(0x100, 4)], .d, [⟨31, 0, .rc, 0x0⟩]⟩
  , ⟨0x8C0, [(0x100, 4)], .d, [⟨31, 6, .rw, 0x0⟩]⟩
  , ⟨0x8C4, [(0x100, 4)], .d, [⟨7, 0, .rw, 0x0⟩]⟩
  , ⟨0x8C8, [(0x100, 4)], .d, [⟨6, 0, .rw, 0x0⟩]⟩
  , ⟨0x8CC, [(0x100, 4)], .d, [⟨31, 6, .rw, 0x0⟩]⟩
  , ⟨0x8D0, [(0x100, 4)], .d, [⟨23, 6, .rw, 0x0⟩]⟩
  , ⟨0x8D4, [(0x100, 4)], .d, [⟨6, 0, .ro, 0x0⟩, ⟨14, 8, .ro, 0x0⟩]⟩
  , ⟨0x8D8, [(0x100, 4)], .d, [⟨31, 0, .ro, 0x0⟩]⟩
  , ⟨0x8DC, [(0x100, 4)], .d, [⟨31, 0, .ro, 0x0⟩]⟩
  , ⟨0x8E0, [(0x100, 4)], .d, [⟨31, 0, .ro, 0x0⟩]⟩
  , ⟨0x8E4, [(0x100, 4)], .d, [⟨31, 0, .ro, 0x0⟩]⟩]

/-- The registers of IP (chapter 05). -/
def rowsIp : List RegRow := rowsIpP0 ++ rowsIpP1 ++ rowsIpP2 ++ rowsIpP3 ++ rowsIpP4

/-! ### POD -/

def POD_CFG (p : Nat) : Nat := 0x43000000 + 0x1000 * p
def POD_CFG_slot (p : Nat) : Fld := ⟨POD_CFG p, 1, 0⟩
def POD_MAP (p : Nat) : Nat := 0x43000004 + 0x1000 * p
def POD_MAP_pos_0_pos_7 (p : Nat) : Fld := ⟨POD_MAP p, 31, 0⟩
def POD_STATUS (p : Nat) : Nat := 0x43000008 + 0x1000 * p
def POD_STATUS_live (p : Nat) : Fld := ⟨POD_STATUS p, 3, 0⟩
def POD_STATUS_spare_avail (p : Nat) : Fld := ⟨POD_STATUS p, 4, 4⟩
def POD_STATUS_below (p : Nat) : Fld := ⟨POD_STATUS p, 5, 5⟩
def POD_FENCED (p : Nat) : Nat := 0x43000010 + 0x1000 * p
def POD_SAT (p : Nat) : Nat := 0x43000014 + 0x1000 * p
def POD_PROG_FAULT (p : Nat) : Nat := 0x43000018 + 0x1000 * p
def POD_TILE_TO (p : Nat) : Nat := 0x4300001C + 0x1000 * p
def POD_ST_SKIP (p : Nat) : Nat := 0x43000020 + 0x1000 * p
def POD_ST_FAIL (p : Nat) : Nat := 0x43000024 + 0x1000 * p
def POD_PIP_STATUS (p i : Nat) : Nat := 0x43000100 + 0x1000 * p + 0x100 * i
def POD_PIP_STATUS_state (p i : Nat) : Fld := ⟨POD_PIP_STATUS p i, 2, 0⟩
def POD_PIP_STATUS_pos (p i : Nat) : Fld := ⟨POD_PIP_STATUS p i, 7, 4⟩
def POD_PIP_STATUS_cause (p i : Nat) : Fld := ⟨POD_PIP_STATUS p i, 11, 8⟩
def POD_PIP_EPOCH (p i : Nat) : Nat := 0x43000104 + 0x1000 * p + 0x100 * i
def POD_PIP_EPOCH_epoch (p i : Nat) : Fld := ⟨POD_PIP_EPOCH p i, 15, 0⟩
def POD_PIP_TILES (p i : Nat) : Nat := 0x43000108 + 0x1000 * p + 0x100 * i
def POD_PIP_RETRY (p i : Nat) : Nat := 0x4300010C + 0x1000 * p + 0x100 * i

/-- The registers of POD (chapter 08). -/
def rowsPod : List RegRow :=
  [ ⟨0x0, [], .d, [⟨1, 0, .rwc, 0x1⟩]⟩
  , ⟨0x4, [], .h, [⟨31, 0, .ro, 0x76543210⟩]⟩
  , ⟨0x8, [], .h, [⟨3, 0, .ro, 0x8⟩, ⟨4, 4, .ro, 0x1⟩, ⟨5, 5, .ro, 0x0⟩]⟩
  , ⟨0x10, [], .d, [⟨31, 0, .rc, 0x0⟩]⟩
  , ⟨0x14, [], .d, [⟨31, 0, .rc, 0x0⟩]⟩
  , ⟨0x18, [], .d, [⟨31, 0, .rc, 0x0⟩]⟩
  , ⟨0x1C, [], .d, [⟨31, 0, .rc, 0x0⟩]⟩
  , ⟨0x20, [], .d, [⟨31, 0, .rc, 0x0⟩]⟩
  , ⟨0x24, [], .h, [⟨31, 0, .rc, 0x0⟩]⟩
  , ⟨0x100, [(0x100, 9)], .h, [⟨2, 0, .ro, 0x0⟩, ⟨7, 4, .ro, 0x0⟩, ⟨11, 8, .ro, 0x0⟩]⟩
  , ⟨0x104, [(0x100, 9)], .h, [⟨15, 0, .ro, 0x0⟩]⟩
  , ⟨0x108, [(0x100, 9)], .d, [⟨31, 0, .rc, 0x0⟩]⟩
  , ⟨0x10C, [(0x100, 9)], .h, [⟨31, 0, .rc, 0x0⟩]⟩]

/-! ### PIP -/

def PIP_STRIP_MAP : Nat := 0x43080000
def PIP_STRIP_MAP_en_0 : Fld := ⟨PIP_STRIP_MAP, 2, 2⟩
def PIP_STRIP_MAP_pipe_0 : Fld := ⟨PIP_STRIP_MAP, 1, 0⟩
def PIP_STRIP_MAP_en_1 : Fld := ⟨PIP_STRIP_MAP, 6, 6⟩
def PIP_STRIP_MAP_pipe_1 : Fld := ⟨PIP_STRIP_MAP, 5, 4⟩
def PIP_STRIP_MAP_en_2 : Fld := ⟨PIP_STRIP_MAP, 10, 10⟩
def PIP_STRIP_MAP_pipe_2 : Fld := ⟨PIP_STRIP_MAP, 9, 8⟩
def PIP_STRIP_MAP_en_3 : Fld := ⟨PIP_STRIP_MAP, 14, 14⟩
def PIP_STRIP_MAP_pipe_3 : Fld := ⟨PIP_STRIP_MAP, 13, 12⟩
def PIP_STRIP_MAP_en_4 : Fld := ⟨PIP_STRIP_MAP, 18, 18⟩
def PIP_STRIP_MAP_pipe_4 : Fld := ⟨PIP_STRIP_MAP, 17, 16⟩
def PIP_STRIP_MAP_en_5 : Fld := ⟨PIP_STRIP_MAP, 22, 22⟩
def PIP_STRIP_MAP_pipe_5 : Fld := ⟨PIP_STRIP_MAP, 21, 20⟩
def PIP_STRIP_MAP_en_6 : Fld := ⟨PIP_STRIP_MAP, 26, 26⟩
def PIP_STRIP_MAP_pipe_6 : Fld := ⟨PIP_STRIP_MAP, 25, 24⟩
def PIP_STRIP_MAP_en_7 : Fld := ⟨PIP_STRIP_MAP, 30, 30⟩
def PIP_STRIP_MAP_pipe_7 : Fld := ⟨PIP_STRIP_MAP, 29, 28⟩
def PIP_SLOT_PKG_LO (j : Nat) : Nat := 0x43080020 + 0x20 * j
def PIP_SLOT_PKG_LO_addr (j : Nat) : Fld := ⟨PIP_SLOT_PKG_LO j, 31, 6⟩
def PIP_SLOT_PKG_HI (j : Nat) : Nat := 0x43080024 + 0x20 * j
def PIP_SLOT_PKG_HI_addr (j : Nat) : Fld := ⟨PIP_SLOT_PKG_HI j, 7, 0⟩
def PIP_SLOT_STATUS (j : Nat) : Nat := 0x43080028 + 0x20 * j
def PIP_SLOT_STATUS_admitted (j : Nat) : Fld := ⟨PIP_SLOT_STATUS j, 0, 0⟩
def PIP_SLOT_STATUS_below_rate (j : Nat) : Fld := ⟨PIP_SLOT_STATUS j, 1, 1⟩
def PIP_SLOT_STATUS_loading (j : Nat) : Fld := ⟨PIP_SLOT_STATUS j, 2, 2⟩
def PIP_SLOT_STATUS_reason (j : Nat) : Fld := ⟨PIP_SLOT_STATUS j, 7, 4⟩
def PIP_SLOT_STATUS_pods (j : Nat) : Fld := ⟨PIP_SLOT_STATUS j, 15, 8⟩
def PIP_SLOT_STATUS_budget (j : Nat) : Fld := ⟨PIP_SLOT_STATUS j, 31, 16⟩
def PIP_SLOT_CYC (j : Nat) : Nat := 0x4308002C + 0x20 * j
def PIP_SLOT_CYC_c (j : Nat) : Fld := ⟨PIP_SLOT_CYC j, 15, 0⟩
def PIP_SLOT_TILES_LO (j : Nat) : Nat := 0x43080030 + 0x20 * j
def PIP_SLOT_TILES_LO_tiles (j : Nat) : Fld := ⟨PIP_SLOT_TILES_LO j, 31, 0⟩
def PIP_SLOT_TILES_HI (j : Nat) : Nat := 0x43080034 + 0x20 * j
def PIP_SLOT_TILES_HI_tiles (j : Nat) : Fld := ⟨PIP_SLOT_TILES_HI j, 31, 0⟩
def PIP_SLOT_REDISP (j : Nat) : Nat := 0x43080038 + 0x20 * j
def PIP_SLOT_PASS (j : Nat) : Nat := 0x4308003C + 0x20 * j
def PIP_READMIT : Nat := 0x43080200
def PIP_READMIT_pod : Fld := ⟨PIP_READMIT, 6, 0⟩
def PIP_READMIT_pip : Fld := ⟨PIP_READMIT, 11, 8⟩
def PIP_STATUS : Nat := 0x43080204
def PIP_STATUS_bad_write : Fld := ⟨PIP_STATUS, 0, 0⟩
def PIP_EVT_EN : Nat := 0x43080208
def PIP_EVT_EN_en : Fld := ⟨PIP_EVT_EN, 9, 0⟩

/-- The registers of PIP (chapter 08). -/
def rowsPip : List RegRow :=
  [ ⟨0x0, [], .d, [⟨2, 2, .rwc, 0x1⟩, ⟨1, 0, .rwc, 0x0⟩, ⟨6, 6, .rwc, 0x1⟩, ⟨5, 4, .rwc, 0x0⟩, ⟨10, 10, .rwc, 0x1⟩, ⟨9, 8, .rwc, 0x1⟩, ⟨14, 14, .rwc, 0x1⟩, ⟨13, 12, .rwc, 0x1⟩, ⟨18, 18, .rwc, 0x1⟩, ⟨17, 16, .rwc, 0x2⟩, ⟨22, 22, .rwc, 0x1⟩, ⟨21, 20, .rwc, 0x2⟩, ⟨26, 26, .rwc, 0x1⟩, ⟨25, 24, .rwc, 0x3⟩, ⟨30, 30, .rwc, 0x1⟩, ⟨29, 28, .rwc, 0x3⟩]⟩
  , ⟨0x20, [(0x20, 8)], .d, [⟨31, 6, .rwc, 0x0⟩]⟩
  , ⟨0x24, [(0x20, 8)], .d, [⟨7, 0, .rwc, 0x0⟩]⟩
  , ⟨0x28, [(0x20, 8)], .d, [⟨0, 0, .ro, 0x0⟩, ⟨1, 1, .ro, 0x0⟩, ⟨2, 2, .ro, 0x0⟩, ⟨7, 4, .ro, 0x0⟩, ⟨15, 8, .ro, 0x0⟩, ⟨31, 16, .ro, 0x0⟩]⟩
  , ⟨0x2C, [(0x20, 8)], .d, [⟨15, 0, .ro, 0x0⟩]⟩
  , ⟨0x30, [(0x20, 8)], .d, [⟨31, 0, .ro, 0x0⟩]⟩
  , ⟨0x34, [(0x20, 8)], .d, [⟨31, 0, .ro, 0x0⟩]⟩
  , ⟨0x38, [(0x20, 8)], .d, [⟨31, 0, .rc, 0x0⟩]⟩
  , ⟨0x3C, [(0x20, 8)], .d, [⟨31, 0, .rc, 0x0⟩]⟩
  , ⟨0x200, [], .h, [⟨6, 0, .wo, 0x0⟩, ⟨11, 8, .wo, 0x0⟩]⟩
  , ⟨0x204, [], .d, [⟨0, 0, .w1c, 0x0⟩]⟩
  , ⟨0x208, [], .d, [⟨9, 0, .rw, 0x0⟩]⟩]

/-! ### PRC -/

def PRC_CTRL (n : Nat) : Nat := 0x44000000 + 0x10000 * n
def PRC_CTRL_qmax (n : Nat) : Fld := ⟨PRC_CTRL n, 7, 3⟩
def PRC_CTRL_mono (n : Nat) : Fld := ⟨PRC_CTRL n, 2, 2⟩
def PRC_CTRL_mode (n : Nat) : Fld := ⟨PRC_CTRL n, 1, 1⟩
def PRC_CTRL_en (n : Nat) : Fld := ⟨PRC_CTRL n, 0, 0⟩
def PRC_BUDGET (n : Nat) : Nat := 0x44000004 + 0x10000 * n
def PRC_BUDGET_bytes (n : Nat) : Fld := ⟨PRC_BUDGET n, 31, 0⟩
def PRC_APPLY (n : Nat) : Nat := 0x44000008 + 0x10000 * n
def PRC_APPLY_go (n : Nat) : Fld := ⟨PRC_APPLY n, 0, 0⟩
def PRC_STATUS (n : Nat) : Nat := 0x4400000C + 0x10000 * n
def PRC_STATUS_bad_write (n : Nat) : Fld := ⟨PRC_STATUS n, 0, 0⟩
def PRC_STATUS_cfg_err (n : Nat) : Fld := ⟨PRC_STATUS n, 1, 1⟩
def PRC_STATUS_map_valid (n : Nat) : Fld := ⟨PRC_STATUS n, 2, 2⟩
def PRC_STATUS_apply_pending (n : Nat) : Fld := ⟨PRC_STATUS n, 3, 3⟩
def PRC_QGAIN0 (n : Nat) : Nat := 0x44000010 + 0x10000 * n
def PRC_QGAIN0_g1_g7 (n : Nat) : Fld := ⟨PRC_QGAIN0 n, 31, 0⟩
def PRC_QGAIN1 (n : Nat) : Nat := 0x44000014 + 0x10000 * n
def PRC_QGAIN1_g9_g15 (n : Nat) : Fld := ⟨PRC_QGAIN1 n, 31, 0⟩
def PRC_QGAIN2 (n : Nat) : Nat := 0x44000018 + 0x10000 * n
def PRC_QGAIN2_g17_g23 (n : Nat) : Fld := ⟨PRC_QGAIN2 n, 31, 0⟩
def PRC_QGAIN3 (n : Nat) : Nat := 0x4400001C + 0x10000 * n
def PRC_QGAIN3_g25_g31 (n : Nat) : Fld := ⟨PRC_QGAIN3 n, 31, 0⟩
def PRC_LAST (n : Nat) : Nat := 0x44000020 + 0x10000 * n
def PRC_LAST_first_husk (n : Nat) : Fld := ⟨PRC_LAST n, 12, 0⟩
def PRC_LAST_q_hi (n : Nat) : Fld := ⟨PRC_LAST n, 20, 16⟩
def PRC_LAST_BYTES (n : Nat) : Nat := 0x44000024 + 0x10000 * n
def PRC_LAST_BYTES_bytes (n : Nat) : Fld := ⟨PRC_LAST_BYTES n, 31, 0⟩
def PRC_HUSK_FRAMES (n : Nat) : Nat := 0x44000028 + 0x10000 * n
def PRC_HUSK_SLABS (n : Nat) : Nat := 0x4400002C + 0x10000 * n
def PRC_FALLBACK (n : Nat) : Nat := 0x44000030 + 0x10000 * n
def PRC_VERB_SLABS (n : Nat) : Nat := 0x44000034 + 0x10000 * n
def PRC_EVT_EN (n : Nat) : Nat := 0x44000038 + 0x10000 * n
def PRC_EVT_EN_en (n : Nat) : Fld := ⟨PRC_EVT_EN n, 3, 0⟩
def PRC_RING_LO (n : Nat) : Nat := 0x44000040 + 0x10000 * n
def PRC_RING_LO_base (n : Nat) : Fld := ⟨PRC_RING_LO n, 31, 6⟩
def PRC_RING_HI (n : Nat) : Nat := 0x44000044 + 0x10000 * n
def PRC_RING_HI_base (n : Nat) : Fld := ⟨PRC_RING_HI n, 7, 0⟩
def PRC_RING_CFG (n : Nat) : Nat := 0x44000048 + 0x10000 * n
def PRC_RING_CFG_bufs (n : Nat) : Fld := ⟨PRC_RING_CFG n, 6, 0⟩
def PRC_SLOT (n : Nat) : Nat := 0x4400004C + 0x10000 * n
def PRC_SLOT_bytes (n : Nat) : Fld := ⟨PRC_SLOT n, 31, 6⟩
def PRC_RING_STAT (n : Nat) : Nat := 0x44000050 + 0x10000 * n
def PRC_RING_STAT_held (n : Nat) : Fld := ⟨PRC_RING_STAT n, 6, 0⟩
def PRC_RING_STAT_credits (n : Nat) : Fld := ⟨PRC_RING_STAT n, 14, 8⟩
def PRC_PROD_LO (n : Nat) : Nat := 0x44000054 + 0x10000 * n
def PRC_PROD_LO_prod (n : Nat) : Fld := ⟨PRC_PROD_LO n, 31, 0⟩
def PRC_PROD_HI (n : Nat) : Nat := 0x44000058 + 0x10000 * n
def PRC_PROD_HI_prod (n : Nat) : Fld := ⟨PRC_PROD_HI n, 31, 0⟩
def PRC_DROP_LO (n : Nat) : Nat := 0x4400005C + 0x10000 * n
def PRC_DROP_LO_drop (n : Nat) : Fld := ⟨PRC_DROP_LO n, 31, 0⟩
def PRC_DROP_HI (n : Nat) : Nat := 0x44000060 + 0x10000 * n
def PRC_DROP_HI_drop (n : Nat) : Fld := ⟨PRC_DROP_HI n, 31, 0⟩

/-- The registers of PRC (chapter 09). -/
def rowsPrc : List RegRow :=
  [ ⟨0x0, [], .d, [⟨7, 3, .rwc, 0xF⟩, ⟨2, 2, .rwc, 0x0⟩, ⟨1, 1, .rwc, 0x0⟩, ⟨0, 0, .rw, 0x0⟩]⟩
  , ⟨0x4, [], .d, [⟨31, 0, .rwc, 0x0⟩]⟩
  , ⟨0x8, [], .d, [⟨0, 0, .wo, 0x0⟩]⟩
  , ⟨0xC, [], .d, [⟨0, 0, .w1c, 0x0⟩, ⟨1, 1, .w1c, 0x0⟩, ⟨2, 2, .ro, 0x0⟩, ⟨3, 3, .ro, 0x0⟩]⟩
  , ⟨0x10, [], .d, [⟨31, 0, .rwc, 0x2C251900⟩]⟩
  , ⟨0x14, [], .d, [⟨31, 0, .rwc, 0x3E3B3732⟩]⟩
  , ⟨0x18, [], .d, [⟨31, 0, .rwc, 0x48464341⟩]⟩
  , ⟨0x1C, [], .d, [⟨31, 0, .rwc, 0x4F4D4C4A⟩]⟩
  , ⟨0x20, [], .d, [⟨12, 0, .ro, 0x0⟩, ⟨20, 16, .ro, 0x0⟩]⟩
  , ⟨0x24, [], .d, [⟨31, 0, .ro, 0x0⟩]⟩
  , ⟨0x28, [], .d, [⟨31, 0, .rc, 0x0⟩]⟩
  , ⟨0x2C, [], .d, [⟨31, 0, .rc, 0x0⟩]⟩
  , ⟨0x30, [], .d, [⟨31, 0, .rc, 0x0⟩]⟩
  , ⟨0x34, [], .d, [⟨31, 0, .rc, 0x0⟩]⟩
  , ⟨0x38, [], .d, [⟨3, 0, .rw, 0x0⟩]⟩
  , ⟨0x40, [], .d, [⟨31, 6, .rw, 0x0⟩]⟩
  , ⟨0x44, [], .d, [⟨7, 0, .rw, 0x0⟩]⟩
  , ⟨0x48, [], .d, [⟨6, 0, .rw, 0x0⟩]⟩
  , ⟨0x4C, [], .d, [⟨31, 6, .rw, 0x0⟩]⟩
  , ⟨0x50, [], .d, [⟨6, 0, .ro, 0x0⟩, ⟨14, 8, .ro, 0x0⟩]⟩
  , ⟨0x54, [], .d, [⟨31, 0, .ro, 0x0⟩]⟩
  , ⟨0x58, [], .d, [⟨31, 0, .ro, 0x0⟩]⟩
  , ⟨0x5C, [], .d, [⟨31, 0, .ro, 0x0⟩]⟩
  , ⟨0x60, [], .d, [⟨31, 0, .ro, 0x0⟩]⟩]

/-! ### PRD -/

def PRD_SRC_LO : Nat := 0x44040000
def PRD_SRC_LO_addr : Fld := ⟨PRD_SRC_LO, 31, 3⟩
def PRD_SRC_HI : Nat := 0x44040004
def PRD_SRC_HI_addr : Fld := ⟨PRD_SRC_HI, 7, 0⟩
def PRD_SRC_LEN : Nat := 0x44040008
def PRD_SRC_LEN_bytes : Fld := ⟨PRD_SRC_LEN, 31, 0⟩
def PRD_SLABS : Nat := 0x4404000C
def PRD_SLABS_first : Fld := ⟨PRD_SLABS, 12, 0⟩
def PRD_SLABS_count : Fld := ⟨PRD_SLABS, 28, 16⟩
def PRD_DST_LO : Nat := 0x44040010
def PRD_DST_LO_addr : Fld := ⟨PRD_DST_LO, 31, 6⟩
def PRD_DST_HI : Nat := 0x44040014
def PRD_DST_HI_addr : Fld := ⟨PRD_DST_HI, 7, 0⟩
def PRD_DST_LEN : Nat := 0x44040018
def PRD_DST_LEN_bytes : Fld := ⟨PRD_DST_LEN, 31, 0⟩
def PRD_DST_STRIDE : Nat := 0x4404001C
def PRD_DST_STRIDE_bytes : Fld := ⟨PRD_DST_STRIDE, 23, 6⟩
def PRD_CFG : Nat := 0x44040020
def PRD_CFG_fmt : Fld := ⟨PRD_CFG, 7, 0⟩
def PRD_CFG_fill : Fld := ⟨PRD_CFG, 27, 8⟩
def PRD_GO : Nat := 0x44040024
def PRD_GO_go : Fld := ⟨PRD_GO, 0, 0⟩
def PRD_STATUS : Nat := 0x44040028
def PRD_STATUS_busy : Fld := ⟨PRD_STATUS, 0, 0⟩
def PRD_STATUS_done : Fld := ⟨PRD_STATUS, 1, 1⟩
def PRD_STATUS_hdr_err : Fld := ⟨PRD_STATUS, 2, 2⟩
def PRD_STATUS_fmt_err : Fld := ⟨PRD_STATUS, 3, 3⟩
def PRD_STATUS_bad_write : Fld := ⟨PRD_STATUS, 4, 4⟩
def PRD_STATUS_clipped : Fld := ⟨PRD_STATUS, 5, 5⟩
def PRD_DONE : Nat := 0x4404002C
def PRD_DONE_decoded : Fld := ⟨PRD_DONE, 12, 0⟩
def PRD_DONE_in_error : Fld := ⟨PRD_DONE, 28, 16⟩
def PRD_FIRST_ERR : Nat := 0x44040030
def PRD_FIRST_ERR_slab : Fld := ⟨PRD_FIRST_ERR, 12, 0⟩
def PRD_FIRST_ERR_cause : Fld := ⟨PRD_FIRST_ERR, 19, 16⟩
def PRD_CLIP : Nat := 0x44040034
def PRD_EVT_EN : Nat := 0x44040038
def PRD_EVT_EN_en : Fld := ⟨PRD_EVT_EN, 2, 0⟩

/-- The registers of PRD (chapter 09). -/
def rowsPrd : List RegRow :=
  [ ⟨0x0, [], .d, [⟨31, 3, .rw, 0x0⟩]⟩
  , ⟨0x4, [], .d, [⟨7, 0, .rw, 0x0⟩]⟩
  , ⟨0x8, [], .d, [⟨31, 0, .rw, 0x0⟩]⟩
  , ⟨0xC, [], .d, [⟨12, 0, .rw, 0x0⟩, ⟨28, 16, .rw, 0x0⟩]⟩
  , ⟨0x10, [], .d, [⟨31, 6, .rw, 0x0⟩]⟩
  , ⟨0x14, [], .d, [⟨7, 0, .rw, 0x0⟩]⟩
  , ⟨0x18, [], .d, [⟨31, 0, .rw, 0x0⟩]⟩
  , ⟨0x1C, [], .d, [⟨23, 6, .rw, 0x0⟩]⟩
  , ⟨0x20, [], .d, [⟨7, 0, .rw, 0x1⟩, ⟨27, 8, .rw, 0x0⟩]⟩
  , ⟨0x24, [], .d, [⟨0, 0, .wo, 0x0⟩]⟩
  , ⟨0x28, [], .d, [⟨0, 0, .ro, 0x0⟩, ⟨1, 1, .w1c, 0x0⟩, ⟨2, 2, .w1c, 0x0⟩, ⟨3, 3, .w1c, 0x0⟩, ⟨4, 4, .w1c, 0x0⟩, ⟨5, 5, .w1c, 0x0⟩]⟩
  , ⟨0x2C, [], .d, [⟨12, 0, .ro, 0x0⟩, ⟨28, 16, .ro, 0x0⟩]⟩
  , ⟨0x30, [], .d, [⟨12, 0, .ro, 0x0⟩, ⟨19, 16, .ro, 0x0⟩]⟩
  , ⟨0x34, [], .d, [⟨31, 0, .rc, 0x0⟩]⟩
  , ⟨0x38, [], .d, [⟨2, 0, .rw, 0x0⟩]⟩]

/-! ### HVC -/

def HVC_CTRL : Nat := 0x44100000
def HVC_CTRL_enc_en : Fld := ⟨HVC_CTRL, 0, 0⟩
def HVC_CTRL_dec_en : Fld := ⟨HVC_CTRL, 1, 1⟩
def HVC_STATUS : Nat := 0x44100004
def HVC_STATUS_bad_write : Fld := ⟨HVC_STATUS, 0, 0⟩
def HVC_EVT_EN : Nat := 0x44100008
def HVC_EVT_EN_en : Fld := ⟨HVC_EVT_EN, 11, 0⟩
def HVC_EC_CFG (c : Nat) : Nat := 0x44101000 + 0x100 * c
def HVC_EC_CFG_en (c : Nat) : Fld := ⟨HVC_EC_CFG c, 0, 0⟩
def HVC_EC_CFG_profile (c : Nat) : Fld := ⟨HVC_EC_CFG c, 2, 1⟩
def HVC_EC_CFG_level (c : Nat) : Fld := ⟨HVC_EC_CFG c, 11, 4⟩
def HVC_EC_CFG_st_max (c : Nat) : Fld := ⟨HVC_EC_CFG c, 14, 12⟩
def HVC_EC_CFG_lt_max (c : Nat) : Fld := ⟨HVC_EC_CFG c, 17, 16⟩
def HVC_EC_SRC (c : Nat) : Nat := 0x44101004 + 0x100 * c
def HVC_EC_SRC_pipe (c : Nat) : Fld := ⟨HVC_EC_SRC c, 1, 0⟩
def HVC_EC_SRC_branch (c : Nat) : Fld := ⟨HVC_EC_SRC c, 3, 2⟩
def HVC_EC_QP (c : Nat) : Nat := 0x44101008 + 0x100 * c
def HVC_EC_QP_base_qp (c : Nat) : Fld := ⟨HVC_EC_QP c, 5, 0⟩
def HVC_EC_QP_map_en (c : Nat) : Fld := ⟨HVC_EC_QP c, 8, 8⟩
def HVC_EC_MAP_LO (c : Nat) : Nat := 0x4410100C + 0x100 * c
def HVC_EC_MAP_LO_addr (c : Nat) : Fld := ⟨HVC_EC_MAP_LO c, 31, 6⟩
def HVC_EC_MAP_HI (c : Nat) : Nat := 0x44101010 + 0x100 * c
def HVC_EC_MAP_HI_addr (c : Nat) : Fld := ⟨HVC_EC_MAP_HI c, 7, 0⟩
def HVC_EC_IDR (c : Nat) : Nat := 0x44101014 + 0x100 * c
def HVC_EC_IDR_req (c : Nat) : Fld := ⟨HVC_EC_IDR c, 0, 0⟩
def HVC_EC_GMV (c : Nat) : Nat := 0x44101018 + 0x100 * c
def HVC_EC_GMV_x (c : Nat) : Fld := ⟨HVC_EC_GMV c, 15, 0⟩
def HVC_EC_GMV_y (c : Nat) : Fld := ⟨HVC_EC_GMV c, 31, 16⟩
def HVC_EC_SEARCH (c : Nat) : Nat := 0x4410101C + 0x100 * c
def HVC_EC_SEARCH_range (c : Nat) : Fld := ⟨HVC_EC_SEARCH c, 1, 0⟩
def HVC_EC_GOP (c : Nat) : Nat := 0x44101020 + 0x100 * c
def HVC_EC_GOP_idr_period (c : Nat) : Fld := ⟨HVC_EC_GOP c, 15, 0⟩
def HVC_EC_POOL_LO (c : Nat) : Nat := 0x44101024 + 0x100 * c
def HVC_EC_POOL_LO_base (c : Nat) : Fld := ⟨HVC_EC_POOL_LO c, 31, 6⟩
def HVC_EC_POOL_HI (c : Nat) : Nat := 0x44101028 + 0x100 * c
def HVC_EC_POOL_HI_base (c : Nat) : Fld := ⟨HVC_EC_POOL_HI c, 7, 0⟩
def HVC_EC_POOL_CFG (c : Nat) : Nat := 0x4410102C + 0x100 * c
def HVC_EC_POOL_CFG_bufs (c : Nat) : Fld := ⟨HVC_EC_POOL_CFG c, 4, 0⟩
def HVC_EC_POOL_CFG_slot (c : Nat) : Fld := ⟨HVC_EC_POOL_CFG c, 31, 6⟩
def HVC_EC_MARKS (c : Nat) : Nat := 0x44101030 + 0x100 * c
def HVC_EC_MARKS_mark (c : Nat) : Fld := ⟨HVC_EC_MARKS c, 31, 0⟩
def HVC_EC_LT (c : Nat) : Nat := 0x44101034 + 0x100 * c
def HVC_EC_LT_mark (c : Nat) : Fld := ⟨HVC_EC_LT c, 0, 0⟩
def HVC_EC_LT_drop (c : Nat) : Fld := ⟨HVC_EC_LT c, 1, 1⟩
def HVC_EC_APPLY (c : Nat) : Nat := 0x44101038 + 0x100 * c
def HVC_EC_APPLY_go (c : Nat) : Fld := ⟨HVC_EC_APPLY c, 0, 0⟩
def HVC_EC_REP_LO (c : Nat) : Nat := 0x4410103C + 0x100 * c
def HVC_EC_REP_LO_base (c : Nat) : Fld := ⟨HVC_EC_REP_LO c, 31, 6⟩
def HVC_EC_REP_HI (c : Nat) : Nat := 0x44101040 + 0x100 * c
def HVC_EC_REP_HI_base (c : Nat) : Fld := ⟨HVC_EC_REP_HI c, 7, 0⟩
def HVC_EC_REP_CFG (c : Nat) : Nat := 0x44101044 + 0x100 * c
def HVC_EC_REP_CFG_entries (c : Nat) : Fld := ⟨HVC_EC_REP_CFG c, 12, 0⟩
def HVC_EC_REP_TAIL (c : Nat) : Nat := 0x44101048 + 0x100 * c
def HVC_EC_REP_TAIL_rep_tail (c : Nat) : Fld := ⟨HVC_EC_REP_TAIL c, 31, 0⟩
def HVC_EC_REP_HEAD (c : Nat) : Nat := 0x4410104C + 0x100 * c
def HVC_EC_REP_HEAD_rep_head (c : Nat) : Fld := ⟨HVC_EC_REP_HEAD c, 31, 0⟩
def HVC_EC_RING_LO (c : Nat) : Nat := 0x44101050 + 0x100 * c
def HVC_EC_RING_LO_base (c : Nat) : Fld := ⟨HVC_EC_RING_LO c, 31, 6⟩
def HVC_EC_RING_HI (c : Nat) : Nat := 0x44101054 + 0x100 * c
def HVC_EC_RING_HI_base (c : Nat) : Fld := ⟨HVC_EC_RING_HI c, 7, 0⟩
def HVC_EC_RING_CFG (c : Nat) : Nat := 0x44101058 + 0x100 * c
def HVC_EC_RING_CFG_bufs (c : Nat) : Fld := ⟨HVC_EC_RING_CFG c, 6, 0⟩
def HVC_EC_SLOT (c : Nat) : Nat := 0x4410105C + 0x100 * c
def HVC_EC_SLOT_bytes (c : Nat) : Fld := ⟨HVC_EC_SLOT c, 31, 6⟩
def HVC_EC_RING_STAT (c : Nat) : Nat := 0x44101060 + 0x100 * c
def HVC_EC_RING_STAT_held (c : Nat) : Fld := ⟨HVC_EC_RING_STAT c, 6, 0⟩
def HVC_EC_RING_STAT_credits (c : Nat) : Fld := ⟨HVC_EC_RING_STAT c, 14, 8⟩
def HVC_EC_PROD_LO (c : Nat) : Nat := 0x44101064 + 0x100 * c
def HVC_EC_PROD_LO_prod (c : Nat) : Fld := ⟨HVC_EC_PROD_LO c, 31, 0⟩
def HVC_EC_PROD_HI (c : Nat) : Nat := 0x44101068 + 0x100 * c
def HVC_EC_PROD_HI_prod (c : Nat) : Fld := ⟨HVC_EC_PROD_HI c, 31, 0⟩
def HVC_EC_DROP_LO (c : Nat) : Nat := 0x4410106C + 0x100 * c
def HVC_EC_DROP_LO_drop (c : Nat) : Fld := ⟨HVC_EC_DROP_LO c, 31, 0⟩
def HVC_EC_DROP_HI (c : Nat) : Nat := 0x44101070 + 0x100 * c
def HVC_EC_DROP_HI_drop (c : Nat) : Fld := ⟨HVC_EC_DROP_HI c, 31, 0⟩
def HVC_EC_STATUS (c : Nat) : Nat := 0x44101078 + 0x100 * c
def HVC_EC_STATUS_bad_write (c : Nat) : Fld := ⟨HVC_EC_STATUS c, 0, 0⟩
def HVC_EC_STATUS_cfg_err (c : Nat) : Fld := ⟨HVC_EC_STATUS c, 1, 1⟩
def HVC_EC_SKIP (c : Nat) : Nat := 0x4410107C + 0x100 * c
def HVC_EC_OVF (c : Nat) : Nat := 0x44101080 + 0x100 * c
def HVC_EC_REP_DROP (c : Nat) : Nat := 0x44101084 + 0x100 * c
def HVC_DEC_CMD_LO : Nat := 0x44102000
def HVC_DEC_CMD_LO_base : Fld := ⟨HVC_DEC_CMD_LO, 31, 6⟩
def HVC_DEC_CMD_HI : Nat := 0x44102004
def HVC_DEC_CMD_HI_base : Fld := ⟨HVC_DEC_CMD_HI, 7, 0⟩
def HVC_DEC_CMD_CFG : Nat := 0x44102008
def HVC_DEC_CMD_CFG_entries : Fld := ⟨HVC_DEC_CMD_CFG, 12, 0⟩
def HVC_DEC_CMD_TAIL : Nat := 0x4410200C
def HVC_DEC_CMD_TAIL_cmd_tail : Fld := ⟨HVC_DEC_CMD_TAIL, 31, 0⟩
def HVC_DEC_CMD_HEAD : Nat := 0x44102010
def HVC_DEC_CMD_HEAD_cmd_head : Fld := ⟨HVC_DEC_CMD_HEAD, 31, 0⟩
def HVC_DEC_CPL_LO : Nat := 0x44102014
def HVC_DEC_CPL_LO_base : Fld := ⟨HVC_DEC_CPL_LO, 31, 6⟩
def HVC_DEC_CPL_HI : Nat := 0x44102018
def HVC_DEC_CPL_HI_base : Fld := ⟨HVC_DEC_CPL_HI, 7, 0⟩
def HVC_DEC_CPL_CFG : Nat := 0x4410201C
def HVC_DEC_CPL_CFG_entries : Fld := ⟨HVC_DEC_CPL_CFG, 12, 0⟩
def HVC_DEC_CPL_TAIL : Nat := 0x44102020
def HVC_DEC_CPL_TAIL_cpl_tail : Fld := ⟨HVC_DEC_CPL_TAIL, 31, 0⟩
def HVC_DEC_CPL_HEAD : Nat := 0x44102024
def HVC_DEC_CPL_HEAD_cpl_head : Fld := ⟨HVC_DEC_CPL_HEAD, 31, 0⟩
def HVC_DEC_CTB_TO : Nat := 0x44102028
def HVC_DEC_CTB_TO_cycles : Fld := ⟨HVC_DEC_CTB_TO, 19, 0⟩
def HVC_DEC_CLIP : Nat := 0x4410202C
def HVC_DC_DPB_LO (d : Nat) : Nat := 0x44102100 + 0x10 * d
def HVC_DC_DPB_LO_base (d : Nat) : Fld := ⟨HVC_DC_DPB_LO d, 31, 6⟩
def HVC_DC_DPB_HI (d : Nat) : Nat := 0x44102104 + 0x10 * d
def HVC_DC_DPB_HI_base (d : Nat) : Fld := ⟨HVC_DC_DPB_HI d, 7, 0⟩
def HVC_DC_REL (d : Nat) : Nat := 0x44102108 + 0x10 * d
def HVC_DC_REL_rel (d : Nat) : Fld := ⟨HVC_DC_REL d, 15, 0⟩

/-- The registers of HVC (chapter 10), part 0. -/
def rowsHvcP0 : List RegRow :=
  [ ⟨0x0, [], .d, [⟨0, 0, .rw, 0x0⟩, ⟨1, 1, .rw, 0x0⟩]⟩
  , ⟨0x4, [], .d, [⟨0, 0, .w1c, 0x0⟩]⟩
  , ⟨0x8, [], .d, [⟨11, 0, .rw, 0x0⟩]⟩
  , ⟨0x1000, [(0x100, 16)], .d, [⟨0, 0, .rwc, 0x0⟩, ⟨2, 1, .rwc, 0x1⟩, ⟨11, 4, .rwc, 0xB7⟩, ⟨14, 12, .rwc, 0x2⟩, ⟨17, 16, .rwc, 0x0⟩]⟩
  , ⟨0x1004, [(0x100, 16)], .d, [⟨1, 0, .rwc, 0x0⟩, ⟨3, 2, .rwc, 0x0⟩]⟩
  , ⟨0x1008, [(0x100, 16)], .d, [⟨5, 0, .rw, 0x20⟩, ⟨8, 8, .rw, 0x0⟩]⟩
  , ⟨0x100C, [(0x100, 16)], .d, [⟨31, 6, .rw, 0x0⟩]⟩
  , ⟨0x1010, [(0x100, 16)], .d, [⟨7, 0, .rw, 0x0⟩]⟩
  , ⟨0x1014, [(0x100, 16)], .d, [⟨0, 0, .w1s, 0x0⟩]⟩
  , ⟨0x1018, [(0x100, 16)], .d, [⟨15, 0, .rw, 0x0⟩, ⟨31, 16, .rw, 0x0⟩]⟩
  , ⟨0x101C, [(0x100, 16)], .d, [⟨1, 0, .rwc, 0x1⟩]⟩
  , ⟨0x1020, [(0x100, 16)], .d, [⟨15, 0, .rw, 0x0⟩]⟩
  , ⟨0x1024, [(0x100, 16)], .d, [⟨31, 6, .rwc, 0x0⟩]⟩
  , ⟨0x1028, [(0x100, 16)], .d, [⟨7, 0, .rwc, 0x0⟩]⟩
  , ⟨0x102C, [(0x100, 16)], .d, [⟨4, 0, .rwc, 0x0⟩, ⟨31, 6, .rwc, 0x0⟩]⟩
  , ⟨0x1030, [(0x100, 16)], .d, [⟨31, 0, .ro, 0x0⟩]⟩
  , ⟨0x1034, [(0x100, 16)], .d, [⟨0, 0, .w1s, 0x0⟩, ⟨1, 1, .w1s, 0x0⟩]⟩
  , ⟨0x1038, [(0x100, 16)], .d, [⟨0, 0, .wo, 0x0⟩]⟩
  , ⟨0x103C, [(0x100, 16)], .d, [⟨31, 6, .rw, 0x0⟩]⟩
  , ⟨0x1040, [(0x100, 16)], .d, [⟨7, 0, .rw, 0x0⟩]⟩
  , ⟨0x1044, [(0x100, 16)], .d, [⟨12, 0, .rw, 0x0⟩]⟩
  , ⟨0x1048, [(0x100, 16)], .d, [⟨31, 0, .ro, 0x0⟩]⟩
  , ⟨0x104C, [(0x100, 16)], .d, [⟨31, 0, .rw, 0x0⟩]⟩
  , ⟨0x1050, [(0x100, 16)], .d, [⟨31, 6, .rw, 0x0⟩]⟩]

/-- The registers of HVC (chapter 10), part 1. -/
def rowsHvcP1 : List RegRow :=
  [ ⟨0x1054, [(0x100, 16)], .d, [⟨7, 0, .rw, 0x0⟩]⟩
  , ⟨0x1058, [(0x100, 16)], .d, [⟨6, 0, .rw, 0x0⟩]⟩
  , ⟨0x105C, [(0x100, 16)], .d, [⟨31, 6, .rw, 0x0⟩]⟩
  , ⟨0x1060, [(0x100, 16)], .d, [⟨6, 0, .ro, 0x0⟩, ⟨14, 8, .ro, 0x0⟩]⟩
  , ⟨0x1064, [(0x100, 16)], .d, [⟨31, 0, .ro, 0x0⟩]⟩
  , ⟨0x1068, [(0x100, 16)], .d, [⟨31, 0, .ro, 0x0⟩]⟩
  , ⟨0x106C, [(0x100, 16)], .d, [⟨31, 0, .ro, 0x0⟩]⟩
  , ⟨0x1070, [(0x100, 16)], .d, [⟨31, 0, .ro, 0x0⟩]⟩
  , ⟨0x1078, [(0x100, 16)], .d, [⟨0, 0, .w1c, 0x0⟩, ⟨1, 1, .w1c, 0x0⟩]⟩
  , ⟨0x107C, [(0x100, 16)], .d, [⟨31, 0, .rc, 0x0⟩]⟩
  , ⟨0x1080, [(0x100, 16)], .d, [⟨31, 0, .rc, 0x0⟩]⟩
  , ⟨0x1084, [(0x100, 16)], .d, [⟨31, 0, .rc, 0x0⟩]⟩
  , ⟨0x2000, [], .d, [⟨31, 6, .rw, 0x0⟩]⟩
  , ⟨0x2004, [], .d, [⟨7, 0, .rw, 0x0⟩]⟩
  , ⟨0x2008, [], .d, [⟨12, 0, .rw, 0x0⟩]⟩
  , ⟨0x200C, [], .d, [⟨31, 0, .rw, 0x0⟩]⟩
  , ⟨0x2010, [], .d, [⟨31, 0, .ro, 0x0⟩]⟩
  , ⟨0x2014, [], .d, [⟨31, 6, .rw, 0x0⟩]⟩
  , ⟨0x2018, [], .d, [⟨7, 0, .rw, 0x0⟩]⟩
  , ⟨0x201C, [], .d, [⟨12, 0, .rw, 0x0⟩]⟩
  , ⟨0x2020, [], .d, [⟨31, 0, .ro, 0x0⟩]⟩
  , ⟨0x2024, [], .d, [⟨31, 0, .rw, 0x0⟩]⟩
  , ⟨0x2028, [], .d, [⟨19, 0, .rw, 0x10000⟩]⟩
  , ⟨0x202C, [], .d, [⟨31, 0, .rc, 0x0⟩]⟩]

/-- The registers of HVC (chapter 10), part 2. -/
def rowsHvcP2 : List RegRow :=
  [ ⟨0x2100, [(0x10, 16)], .d, [⟨31, 6, .rw, 0x0⟩]⟩
  , ⟨0x2104, [(0x10, 16)], .d, [⟨7, 0, .rw, 0x0⟩]⟩
  , ⟨0x2108, [(0x10, 16)], .d, [⟨15, 0, .w1s, 0x0⟩]⟩]

/-- The registers of HVC (chapter 10). -/
def rowsHvc : List RegRow := rowsHvcP0 ++ rowsHvcP1 ++ rowsHvcP2

/-! ### PKE -/

def PKE_CTRL (c : Nat) : Nat := 0x44200000 + 0x100 * c
def PKE_CTRL_go (c : Nat) : Fld := ⟨PKE_CTRL c, 0, 0⟩
def PKE_CTRL_resume (c : Nat) : Fld := ⟨PKE_CTRL c, 1, 1⟩
def PKE_CTRL_abort (c : Nat) : Fld := ⟨PKE_CTRL c, 2, 2⟩
def PKE_CTRL_op (c : Nat) : Fld := ⟨PKE_CTRL c, 4, 4⟩
def PKE_CTRL_method (c : Nat) : Fld := ⟨PKE_CTRL c, 5, 5⟩
def PKE_SRC_LO (c : Nat) : Nat := 0x44200004 + 0x100 * c
def PKE_SRC_LO_addr (c : Nat) : Fld := ⟨PKE_SRC_LO c, 31, 0⟩
def PKE_SRC_HI (c : Nat) : Nat := 0x44200008 + 0x100 * c
def PKE_SRC_HI_addr (c : Nat) : Fld := ⟨PKE_SRC_HI c, 7, 0⟩
def PKE_SRC_LEN (c : Nat) : Nat := 0x4420000C + 0x100 * c
def PKE_SRC_LEN_bytes (c : Nat) : Fld := ⟨PKE_SRC_LEN c, 31, 0⟩
def PKE_DST_LO (c : Nat) : Nat := 0x44200010 + 0x100 * c
def PKE_DST_LO_addr (c : Nat) : Fld := ⟨PKE_DST_LO c, 31, 0⟩
def PKE_DST_HI (c : Nat) : Nat := 0x44200014 + 0x100 * c
def PKE_DST_HI_addr (c : Nat) : Fld := ⟨PKE_DST_HI c, 7, 0⟩
def PKE_DST_LEN (c : Nat) : Nat := 0x44200018 + 0x100 * c
def PKE_DST_LEN_bytes (c : Nat) : Fld := ⟨PKE_DST_LEN c, 31, 0⟩
def PKE_IDX_LO (c : Nat) : Nat := 0x4420001C + 0x100 * c
def PKE_IDX_LO_addr (c : Nat) : Fld := ⟨PKE_IDX_LO c, 31, 2⟩
def PKE_IDX_HI (c : Nat) : Nat := 0x44200020 + 0x100 * c
def PKE_IDX_HI_addr (c : Nat) : Fld := ⟨PKE_IDX_HI c, 7, 0⟩
def PKE_IDX_LEN (c : Nat) : Nat := 0x44200024 + 0x100 * c
def PKE_IDX_LEN_bytes (c : Nat) : Fld := ⟨PKE_IDX_LEN c, 31, 0⟩
def PKE_CHUNK (c : Nat) : Nat := 0x44200028 + 0x100 * c
def PKE_CHUNK_kib (c : Nat) : Fld := ⟨PKE_CHUNK c, 15, 0⟩
def PKE_CHUNK_depth (c : Nat) : Fld := ⟨PKE_CHUNK c, 24, 16⟩
def PKE_ROW (c : Nat) : Nat := 0x4420002C + 0x100 * c
def PKE_ROW_w (c : Nat) : Fld := ⟨PKE_ROW c, 1, 0⟩
def PKE_ROW_len (c : Nat) : Fld := ⟨PKE_ROW c, 31, 16⟩
def PKE_CH_STATUS (c : Nat) : Nat := 0x44200030 + 0x100 * c
def PKE_CH_STATUS_state (c : Nat) : Fld := ⟨PKE_CH_STATUS c, 1, 0⟩
def PKE_CH_STATUS_done (c : Nat) : Fld := ⟨PKE_CH_STATUS c, 2, 2⟩
def PKE_CH_STATUS_trailing (c : Nat) : Fld := ⟨PKE_CH_STATUS c, 3, 3⟩
def PKE_CH_STATUS_cause (c : Nat) : Fld := ⟨PKE_CH_STATUS c, 7, 4⟩
def PKE_IN_DONE (c : Nat) : Nat := 0x44200034 + 0x100 * c
def PKE_IN_DONE_bytes (c : Nat) : Fld := ⟨PKE_IN_DONE c, 31, 0⟩
def PKE_OUT_DONE (c : Nat) : Nat := 0x44200038 + 0x100 * c
def PKE_OUT_DONE_bytes (c : Nat) : Fld := ⟨PKE_OUT_DONE c, 31, 0⟩
def PKE_STATUS : Nat := 0x44200200
def PKE_STATUS_bad_write : Fld := ⟨PKE_STATUS, 0, 0⟩
def PKE_EVT_EN : Nat := 0x44200204
def PKE_EVT_EN_en : Fld := ⟨PKE_EVT_EN, 2, 0⟩

/-- The registers of PKE (chapter 11). -/
def rowsPke : List RegRow :=
  [ ⟨0x0, [(0x100, 2)], .d, [⟨0, 0, .w1s, 0x0⟩, ⟨1, 1, .w1s, 0x0⟩, ⟨2, 2, .w1s, 0x0⟩, ⟨4, 4, .rw, 0x0⟩, ⟨5, 5, .rw, 0x0⟩]⟩
  , ⟨0x4, [(0x100, 2)], .d, [⟨31, 0, .rw, 0x0⟩]⟩
  , ⟨0x8, [(0x100, 2)], .d, [⟨7, 0, .rw, 0x0⟩]⟩
  , ⟨0xC, [(0x100, 2)], .d, [⟨31, 0, .rw, 0x0⟩]⟩
  , ⟨0x10, [(0x100, 2)], .d, [⟨31, 0, .rw, 0x0⟩]⟩
  , ⟨0x14, [(0x100, 2)], .d, [⟨7, 0, .rw, 0x0⟩]⟩
  , ⟨0x18, [(0x100, 2)], .d, [⟨31, 0, .rw, 0x0⟩]⟩
  , ⟨0x1C, [(0x100, 2)], .d, [⟨31, 2, .rw, 0x0⟩]⟩
  , ⟨0x20, [(0x100, 2)], .d, [⟨7, 0, .rw, 0x0⟩]⟩
  , ⟨0x24, [(0x100, 2)], .d, [⟨31, 0, .rw, 0x0⟩]⟩
  , ⟨0x28, [(0x100, 2)], .d, [⟨15, 0, .rw, 0x100⟩, ⟨24, 16, .rw, 0x20⟩]⟩
  , ⟨0x2C, [(0x100, 2)], .d, [⟨1, 0, .rw, 0x1⟩, ⟨31, 16, .rw, 0x400⟩]⟩
  , ⟨0x30, [(0x100, 2)], .d, [⟨1, 0, .ro, 0x0⟩, ⟨2, 2, .w1c, 0x0⟩, ⟨3, 3, .w1c, 0x0⟩, ⟨7, 4, .ro, 0x0⟩]⟩
  , ⟨0x34, [(0x100, 2)], .d, [⟨31, 0, .ro, 0x0⟩]⟩
  , ⟨0x38, [(0x100, 2)], .d, [⟨31, 0, .ro, 0x0⟩]⟩
  , ⟨0x200, [], .d, [⟨0, 0, .w1c, 0x0⟩]⟩
  , ⟨0x204, [], .d, [⟨2, 0, .rw, 0x0⟩]⟩]

/-! ### MC -/

def MC_TRAIN (m : Nat) : Nat := 0x45000000 + 0x40000 * m
def MC_TRAIN_pass (m : Nat) : Fld := ⟨MC_TRAIN m, 7, 0⟩
def MC_TRAIN_done (m : Nat) : Fld := ⟨MC_TRAIN m, 15, 8⟩
def MC_TRAIN_CTRL (m : Nat) : Nat := 0x45000004 + 0x40000 * m
def MC_TRAIN_CTRL_go (m : Nat) : Fld := ⟨MC_TRAIN_CTRL m, 0, 0⟩
def MC_TRAIN_CFG (m : Nat) : Nat := 0x45000008 + 0x40000 * m
def MC_TRAIN_CFG_track_ms (m : Nat) : Fld := ⟨MC_TRAIN_CFG m, 7, 0⟩
def MC_PAGE_CFG (m : Nat) : Nat := 0x4500000C + 0x40000 * m
def MC_PAGE_CFG_idle (m : Nat) : Fld := ⟨MC_PAGE_CFG m, 11, 0⟩
def MC_QOS (m : Nat) : Nat := 0x45000010 + 0x40000 * m
def MC_QOS_bulk_min (m : Nat) : Fld := ⟨MC_QOS m, 5, 0⟩
def MC_REF_CFG (m : Nat) : Nat := 0x45000014 + 0x40000 * m
def MC_REF_CFG_mr4_ms (m : Nat) : Fld := ⟨MC_REF_CFG m, 7, 0⟩
def MC_REF_CFG_pull_in (m : Nat) : Fld := ⟨MC_REF_CFG m, 8, 8⟩
def MC_MR4 (m : Nat) : Nat := 0x45000018 + 0x40000 * m
def MC_MR4_rate (m : Nat) : Fld := ⟨MC_MR4 m, 4, 0⟩
def MC_REF_FORCED (m : Nat) : Nat := 0x4500001C + 0x40000 * m
def MC_ECC_CE (m : Nat) : Nat := 0x45000020 + 0x40000 * m
def MC_ECC_CE_LAST (m : Nat) : Nat := 0x45000024 + 0x40000 * m
def MC_ECC_UE (m : Nat) : Nat := 0x45000028 + 0x40000 * m
def MC_ECC_ADDR_CE (m : Nat) : Nat := 0x4500002C + 0x40000 * m
def MC_ECC_ADDR_CE_addr (m : Nat) : Fld := ⟨MC_ECC_ADDR_CE m, 31, 0⟩
def MC_ECC_ADDR_UE (m : Nat) : Nat := 0x45000030 + 0x40000 * m
def MC_ECC_ADDR_UE_addr (m : Nat) : Fld := ⟨MC_ECC_ADDR_UE m, 31, 0⟩
def MC_STATUS (m : Nat) : Nat := 0x45000034 + 0x40000 * m
def MC_STATUS_bad_write (m : Nat) : Fld := ⟨MC_STATUS m, 0, 0⟩
def MC_EVT_EN (m : Nat) : Nat := 0x45000038 + 0x40000 * m
def MC_EVT_EN_en (m : Nat) : Fld := ⟨MC_EVT_EN m, 7, 0⟩

/-- The registers of MC (chapter 12). -/
def rowsMc : List RegRow :=
  [ ⟨0x0, [], .h, [⟨7, 0, .ro, 0x0⟩, ⟨15, 8, .ro, 0x0⟩]⟩
  , ⟨0x4, [], .h, [⟨0, 0, .w1s, 0x0⟩]⟩
  , ⟨0x8, [], .h, [⟨7, 0, .rw, 0x8⟩]⟩
  , ⟨0xC, [], .s, [⟨11, 0, .rw, 0x14⟩]⟩
  , ⟨0x10, [], .s, [⟨5, 0, .rw, 0x8⟩]⟩
  , ⟨0x14, [], .s, [⟨7, 0, .rw, 0x4⟩, ⟨8, 8, .rw, 0x1⟩]⟩
  , ⟨0x18, [], .s, [⟨4, 0, .ro, 0x0⟩]⟩
  , ⟨0x1C, [], .s, [⟨31, 0, .rc, 0x0⟩]⟩
  , ⟨0x20, [], .s, [⟨31, 0, .rc, 0x0⟩]⟩
  , ⟨0x24, [], .s, [⟨31, 0, .rc, 0x0⟩]⟩
  , ⟨0x28, [], .s, [⟨31, 0, .rc, 0x0⟩]⟩
  , ⟨0x2C, [], .s, [⟨31, 0, .ro, 0x0⟩]⟩
  , ⟨0x30, [], .s, [⟨31, 0, .ro, 0x0⟩]⟩
  , ⟨0x34, [], .h, [⟨0, 0, .w1c, 0x0⟩]⟩
  , ⟨0x38, [], .s, [⟨7, 0, .rw, 0x0⟩]⟩]

/-! ### MEM -/

def MEM_MAP_CH_LO (i : Nat) : Nat := 0x45000100 + 0x8 * i
def MEM_MAP_CH_LO_mask (i : Nat) : Fld := ⟨MEM_MAP_CH_LO i, 31, 6⟩
def MEM_MAP_CH_HI (i : Nat) : Nat := 0x45000104 + 0x8 * i
def MEM_MAP_CH_HI_mask (i : Nat) : Fld := ⟨MEM_MAP_CH_HI i, 7, 0⟩
def MEM_MAP_BK_LO (i : Nat) : Nat := 0x45000128 + 0x8 * i
def MEM_MAP_BK_LO_mask (i : Nat) : Fld := ⟨MEM_MAP_BK_LO i, 31, 6⟩
def MEM_MAP_BK_HI (i : Nat) : Nat := 0x4500012C + 0x8 * i
def MEM_MAP_BK_HI_mask (i : Nat) : Fld := ⟨MEM_MAP_BK_HI i, 7, 0⟩
def MEM_MAP_APPLY : Nat := 0x45000148
def MEM_MAP_APPLY_go : Fld := ⟨MEM_MAP_APPLY, 0, 0⟩
def MEM_MAP_STATUS : Nat := 0x4500014C
def MEM_MAP_STATUS_valid : Fld := ⟨MEM_MAP_STATUS, 0, 0⟩
def MEM_MAP_STATUS_singular : Fld := ⟨MEM_MAP_STATUS, 1, 1⟩
def MEM_MAP_STATUS_bad_write : Fld := ⟨MEM_MAP_STATUS, 2, 2⟩
def MEM_HINT_OVR : Nat := 0x45000150
def MEM_HINT_OVR_hint : Fld := ⟨MEM_HINT_OVR, 31, 0⟩
def MEM_CTRL : Nat := 0x45000180
def MEM_CTRL_en : Fld := ⟨MEM_CTRL, 0, 0⟩
def MEM_ECC_RGN_LO (k : Nat) : Nat := 0x45000200 + 0x10 * k
def MEM_ECC_RGN_LO_base (k : Nat) : Fld := ⟨MEM_ECC_RGN_LO k, 31, 24⟩
def MEM_ECC_RGN_HI (k : Nat) : Nat := 0x45000204 + 0x10 * k
def MEM_ECC_RGN_HI_base (k : Nat) : Fld := ⟨MEM_ECC_RGN_HI k, 7, 0⟩
def MEM_ECC_RGN_SIZE (k : Nat) : Nat := 0x45000208 + 0x10 * k
def MEM_ECC_RGN_SIZE_size (k : Nat) : Fld := ⟨MEM_ECC_RGN_SIZE k, 15, 0⟩
def MEM_ECC_RGN_CTRL (k : Nat) : Nat := 0x4500020C + 0x10 * k
def MEM_ECC_RGN_CTRL_en (k : Nat) : Fld := ⟨MEM_ECC_RGN_CTRL k, 0, 0⟩
def MEM_ECC_RGN_CTRL_busy (k : Nat) : Fld := ⟨MEM_ECC_RGN_CTRL k, 1, 1⟩

/-- The registers of MEM (chapter 12). -/
def rowsMem : List RegRow :=
  [ ⟨0x100, [(0x8, 5)], .h, [⟨31, 6, .rwl, 0x0⟩]⟩
  , ⟨0x104, [(0x8, 5)], .h, [⟨7, 0, .rwl, 0x0⟩]⟩
  , ⟨0x128, [(0x8, 4)], .h, [⟨31, 6, .rwl, 0x0⟩]⟩
  , ⟨0x12C, [(0x8, 4)], .h, [⟨7, 0, .rwl, 0x0⟩]⟩
  , ⟨0x148, [], .h, [⟨0, 0, .wo, 0x0⟩]⟩
  , ⟨0x14C, [], .h, [⟨0, 0, .ro, 0x0⟩, ⟨1, 1, .w1c, 0x0⟩, ⟨2, 2, .w1c, 0x0⟩]⟩
  , ⟨0x150, [], .s, [⟨31, 0, .rw, 0x0⟩]⟩
  , ⟨0x180, [], .h, [⟨0, 0, .rwl, 0x0⟩]⟩
  , ⟨0x200, [(0x10, 8)], .h, [⟨31, 24, .rwl, 0x0⟩]⟩
  , ⟨0x204, [(0x10, 8)], .h, [⟨7, 0, .rwl, 0x0⟩]⟩
  , ⟨0x208, [(0x10, 8)], .h, [⟨15, 0, .rwl, 0x0⟩]⟩
  , ⟨0x20C, [(0x10, 8)], .h, [⟨0, 0, .rwl, 0x0⟩, ⟨1, 1, .ro, 0x0⟩]⟩]

/-! ### RM -/

def RM_CTRL : Nat := 0x46000000
def RM_CTRL_en : Fld := ⟨RM_CTRL, 0, 0⟩
def RM_STATUS : Nat := 0x46000004
def RM_STATUS_bad_write : Fld := ⟨RM_STATUS, 0, 0⟩
def RM_EVT_EN : Nat := 0x46000008
def RM_EVT_EN_en : Fld := ⟨RM_EVT_EN, 12, 0⟩
def RM_MIRROR : Nat := 0x4600000C
def RM_MIRROR_base : Fld := ⟨RM_MIRROR, 22, 14⟩
def RM_QBASE_LO : Nat := 0x46000010
def RM_QBASE_LO_addr : Fld := ⟨RM_QBASE_LO, 31, 21⟩
def RM_QBASE_HI : Nat := 0x46000014
def RM_QBASE_HI_addr : Fld := ⟨RM_QBASE_HI, 7, 0⟩
def RM_MBR_CTRL (m : Nat) : Nat := 0x46000100 + 0x40 * m
def RM_MBR_CTRL_attach (m : Nat) : Fld := ⟨RM_MBR_CTRL m, 0, 0⟩
def RM_MBR_CTRL_detach (m : Nat) : Fld := ⟨RM_MBR_CTRL m, 1, 1⟩
def RM_MBR_CTRL_readmit (m : Nat) : Fld := ⟨RM_MBR_CTRL m, 2, 2⟩
def RM_MBR_CFG (m : Nat) : Nat := 0x46000104 + 0x40 * m
def RM_MBR_CFG_timeout_ms (m : Nat) : Fld := ⟨RM_MBR_CFG m, 15, 0⟩
def RM_MBR_STATUS (m : Nat) : Nat := 0x46000108 + 0x40 * m
def RM_MBR_STATUS_state (m : Nat) : Fld := ⟨RM_MBR_STATUS m, 2, 0⟩
def RM_MBR_STATUS_speed (m : Nat) : Fld := ⟨RM_MBR_STATUS m, 5, 3⟩
def RM_MBR_STATUS_width (m : Nat) : Fld := ⟨RM_MBR_STATUS m, 7, 6⟩
def RM_MBR_STATUS_vwc (m : Nat) : Fld := ⟨RM_MBR_STATUS m, 8, 8⟩
def RM_MBR_STATUS_cause (m : Nat) : Fld := ⟨RM_MBR_STATUS m, 12, 9⟩
def RM_MBR_STATUS_outstanding (m : Nat) : Fld := ⟨RM_MBR_STATUS m, 25, 13⟩
def RM_MBR_GEN (m : Nat) : Nat := 0x4600010C + 0x40 * m
def RM_MBR_GEN_gen (m : Nat) : Fld := ⟨RM_MBR_GEN m, 15, 0⟩
def RM_MBR_BLOCKS_LO (m : Nat) : Nat := 0x46000110 + 0x40 * m
def RM_MBR_BLOCKS_LO_blocks (m : Nat) : Fld := ⟨RM_MBR_BLOCKS_LO m, 31, 0⟩
def RM_MBR_BLOCKS_HI (m : Nat) : Nat := 0x46000114 + 0x40 * m
def RM_MBR_BLOCKS_HI_blocks (m : Nat) : Fld := ⟨RM_MBR_BLOCKS_HI m, 31, 0⟩
def RM_MBR_RETRY (m : Nat) : Nat := 0x46000118 + 0x40 * m
def RM_MBR_FENCED (m : Nat) : Nat := 0x4600011C + 0x40 * m
def RM_VOL_CFG (v : Nat) : Nat := 0x46000300 + 0x40 * v
def RM_VOL_CFG_layout (v : Nat) : Fld := ⟨RM_VOL_CFG v, 1, 0⟩
def RM_VOL_CFG_su (v : Nat) : Fld := ⟨RM_VOL_CFG v, 7, 4⟩
def RM_VOL_CFG_pos (v : Nat) : Fld := ⟨RM_VOL_CFG v, 15, 8⟩
def RM_VOL_CFG_count (v : Nat) : Fld := ⟨RM_VOL_CFG v, 18, 16⟩
def RM_VOL_CTRL (v : Nat) : Nat := 0x46000304 + 0x40 * v
def RM_VOL_CTRL_format (v : Nat) : Fld := ⟨RM_VOL_CTRL v, 0, 0⟩
def RM_VOL_CTRL_open (v : Nat) : Fld := ⟨RM_VOL_CTRL v, 1, 1⟩
def RM_VOL_CTRL_close (v : Nat) : Fld := ⟨RM_VOL_CTRL v, 2, 2⟩
def RM_VOL_STATUS (v : Nat) : Nat := 0x46000308 + 0x40 * v
def RM_VOL_STATUS_state (v : Nat) : Fld := ⟨RM_VOL_STATUS v, 2, 0⟩
def RM_VOL_STATUS_lost (v : Nat) : Fld := ⟨RM_VOL_STATUS v, 7, 4⟩
def RM_VOL_STATUS_spare_used (v : Nat) : Fld := ⟨RM_VOL_STATUS v, 8, 8⟩
def RM_VOL_ID_LO (v : Nat) : Nat := 0x4600030C + 0x40 * v
def RM_VOL_ID_LO_id (v : Nat) : Fld := ⟨RM_VOL_ID_LO v, 31, 0⟩
def RM_VOL_ID_HI (v : Nat) : Nat := 0x46000310 + 0x40 * v
def RM_VOL_ID_HI_id (v : Nat) : Fld := ⟨RM_VOL_ID_HI v, 31, 0⟩
def RM_STR_CFG (k : Nat) : Nat := 0x46000400 + 0x40 * k
def RM_STR_CFG_vol (k : Nat) : Fld := ⟨RM_STR_CFG k, 1, 0⟩
def RM_STR_CFG_src_blk (k : Nat) : Fld := ⟨RM_STR_CFG k, 15, 8⟩
def RM_STR_CFG_src_out (k : Nat) : Fld := ⟨RM_STR_CFG k, 23, 16⟩
def RM_STR_CTRL (k : Nat) : Nat := 0x46000404 + 0x40 * k
def RM_STR_CTRL_open (k : Nat) : Fld := ⟨RM_STR_CTRL k, 0, 0⟩
def RM_STR_CTRL_close (k : Nat) : Fld := ⟨RM_STR_CTRL k, 1, 1⟩
def RM_STR_CLIP (k : Nat) : Nat := 0x46000408 + 0x40 * k
def RM_STR_CLIP_clip_id (k : Nat) : Fld := ⟨RM_STR_CLIP k, 11, 0⟩
def RM_STR_SPLIT (k : Nat) : Nat := 0x4600040C + 0x40 * k
def RM_STR_SPLIT_split_id (k : Nat) : Fld := ⟨RM_STR_SPLIT k, 11, 0⟩
def RM_STR_SPLIT_EXT (k : Nat) : Nat := 0x46000410 + 0x40 * k
def RM_STR_SPLIT_EXT_ext (k : Nat) : Fld := ⟨RM_STR_SPLIT_EXT k, 15, 0⟩
def RM_STR_GRANT_LO (k : Nat) : Nat := 0x46000414 + 0x40 * k
def RM_STR_GRANT_LO_vbn (k : Nat) : Fld := ⟨RM_STR_GRANT_LO k, 31, 0⟩
def RM_STR_GRANT_HI (k : Nat) : Nat := 0x46000418 + 0x40 * k
def RM_STR_GRANT_HI_vbn (k : Nat) : Fld := ⟨RM_STR_GRANT_HI k, 3, 0⟩
def RM_STR_GRANT_LEN (k : Nat) : Nat := 0x4600041C + 0x40 * k
def RM_STR_GRANT_LEN_blocks (k : Nat) : Fld := ⟨RM_STR_GRANT_LEN k, 31, 0⟩
def RM_STR_GRANT_EXT (k : Nat) : Nat := 0x46000420 + 0x40 * k
def RM_STR_GRANT_EXT_ext (k : Nat) : Fld := ⟨RM_STR_GRANT_EXT k, 15, 0⟩
def RM_STR_GRANT_EXT_push (k : Nat) : Fld := ⟨RM_STR_GRANT_EXT k, 31, 31⟩
def RM_STR_STATUS (k : Nat) : Nat := 0x46000424 + 0x40 * k
def RM_STR_STATUS_state (k : Nat) : Fld := ⟨RM_STR_STATUS k, 1, 0⟩
def RM_STR_STATUS_grants (k : Nat) : Fld := ⟨RM_STR_STATUS k, 3, 2⟩
def RM_STR_COMMITTED (k : Nat) : Nat := 0x46000428 + 0x40 * k
def RM_STR_COMMITTED_frames (k : Nat) : Fld := ⟨RM_STR_COMMITTED k, 31, 0⟩
def RM_STR_NOSPACE (k : Nat) : Nat := 0x4600042C + 0x40 * k

/-- The registers of RM (chapter 13), part 0. -/
def rowsRmP0 : List RegRow :=
  [ ⟨0x0, [], .d, [⟨0, 0, .rw, 0x0⟩]⟩
  , ⟨0x4, [], .d, [⟨0, 0, .w1c, 0x0⟩]⟩
  , ⟨0x8, [], .d, [⟨12, 0, .rw, 0x0⟩]⟩
  , ⟨0xC, [], .h, [⟨22, 14, .rw, 0x0⟩]⟩
  , ⟨0x10, [], .d, [⟨31, 21, .rw, 0x0⟩]⟩
  , ⟨0x14, [], .d, [⟨7, 0, .rw, 0x0⟩]⟩
  , ⟨0x100, [(0x40, 4)], .d, [⟨0, 0, .w1s, 0x0⟩, ⟨1, 1, .w1s, 0x0⟩, ⟨2, 2, .w1s, 0x0⟩]⟩
  , ⟨0x104, [(0x40, 4)], .d, [⟨15, 0, .rw, 0x1F4⟩]⟩
  , ⟨0x108, [(0x40, 4)], .d, [⟨2, 0, .ro, 0x0⟩, ⟨5, 3, .ro, 0x0⟩, ⟨7, 6, .ro, 0x0⟩, ⟨8, 8, .ro, 0x0⟩, ⟨12, 9, .ro, 0x0⟩, ⟨25, 13, .ro, 0x0⟩]⟩
  , ⟨0x10C, [(0x40, 4)], .d, [⟨15, 0, .ro, 0x0⟩]⟩
  , ⟨0x110, [(0x40, 4)], .d, [⟨31, 0, .ro, 0x0⟩]⟩
  , ⟨0x114, [(0x40, 4)], .d, [⟨31, 0, .ro, 0x0⟩]⟩
  , ⟨0x118, [(0x40, 4)], .d, [⟨31, 0, .rc, 0x0⟩]⟩
  , ⟨0x11C, [(0x40, 4)], .d, [⟨31, 0, .rc, 0x0⟩]⟩
  , ⟨0x300, [(0x40, 4)], .d, [⟨1, 0, .rw, 0x0⟩, ⟨7, 4, .rw, 0x8⟩, ⟨15, 8, .rw, 0xE4⟩, ⟨18, 16, .rw, 0x1⟩]⟩
  , ⟨0x304, [(0x40, 4)], .d, [⟨0, 0, .w1s, 0x0⟩, ⟨1, 1, .w1s, 0x0⟩, ⟨2, 2, .w1s, 0x0⟩]⟩
  , ⟨0x308, [(0x40, 4)], .d, [⟨2, 0, .ro, 0x0⟩, ⟨7, 4, .ro, 0x0⟩, ⟨8, 8, .ro, 0x0⟩]⟩
  , ⟨0x30C, [(0x40, 4)], .d, [⟨31, 0, .rw, 0x0⟩]⟩
  , ⟨0x310, [(0x40, 4)], .d, [⟨31, 0, .rw, 0x0⟩]⟩
  , ⟨0x400, [(0x40, 8)], .d, [⟨1, 0, .rw, 0x0⟩, ⟨15, 8, .rw, 0x0⟩, ⟨23, 16, .rw, 0x0⟩]⟩
  , ⟨0x404, [(0x40, 8)], .d, [⟨0, 0, .w1s, 0x0⟩, ⟨1, 1, .w1s, 0x0⟩]⟩
  , ⟨0x408, [(0x40, 8)], .d, [⟨11, 0, .rw, 0x0⟩]⟩
  , ⟨0x40C, [(0x40, 8)], .d, [⟨11, 0, .rw, 0x0⟩]⟩
  , ⟨0x410, [(0x40, 8)], .d, [⟨15, 0, .rw, 0x0⟩]⟩]

/-- The registers of RM (chapter 13), part 1. -/
def rowsRmP1 : List RegRow :=
  [ ⟨0x414, [(0x40, 8)], .d, [⟨31, 0, .rw, 0x0⟩]⟩
  , ⟨0x418, [(0x40, 8)], .d, [⟨3, 0, .rw, 0x0⟩]⟩
  , ⟨0x41C, [(0x40, 8)], .d, [⟨31, 0, .rw, 0x0⟩]⟩
  , ⟨0x420, [(0x40, 8)], .d, [⟨15, 0, .rw, 0x0⟩, ⟨31, 31, .w1s, 0x0⟩]⟩
  , ⟨0x424, [(0x40, 8)], .d, [⟨1, 0, .ro, 0x0⟩, ⟨3, 2, .ro, 0x0⟩]⟩
  , ⟨0x428, [(0x40, 8)], .d, [⟨31, 0, .ro, 0x0⟩]⟩
  , ⟨0x42C, [(0x40, 8)], .d, [⟨31, 0, .rc, 0x0⟩]⟩]

/-- The registers of RM (chapter 13). -/
def rowsRm : List RegRow := rowsRmP0 ++ rowsRmP1

/-! ### OEP -/

def OEP_CTRL : Nat := 0x46100000
def OEP_CTRL_en : Fld := ⟨OEP_CTRL, 0, 0⟩
def OEP_STATUS : Nat := 0x46100004
def OEP_STATUS_link_up : Fld := ⟨OEP_STATUS, 0, 0⟩
def OEP_STATUS_cc_en : Fld := ⟨OEP_STATUS, 1, 1⟩
def OEP_STATUS_rdy : Fld := ⟨OEP_STATUS, 2, 2⟩
def OEP_STATUS_speed : Fld := ⟨OEP_STATUS, 5, 3⟩
def OEP_STATUS_width : Fld := ⟨OEP_STATUS, 7, 6⟩
def OEP_STATUS_bad_write : Fld := ⟨OEP_STATUS, 8, 8⟩
def OEP_EVT_EN : Nat := 0x46100008
def OEP_EVT_EN_en : Fld := ⟨OEP_EVT_EN, 5, 0⟩
def OEP_PCI_ID : Nat := 0x4610000C
def OEP_PCI_ID_vid : Fld := ⟨OEP_PCI_ID, 15, 0⟩
def OEP_PCI_ID_did : Fld := ⟨OEP_PCI_ID, 31, 16⟩
def OEP_PCI_SUB : Nat := 0x46100010
def OEP_PCI_SUB_ssvid : Fld := ⟨OEP_PCI_SUB, 15, 0⟩
def OEP_PCI_SUB_ssid : Fld := ⟨OEP_PCI_SUB, 31, 16⟩
def OEP_IDENT_LO : Nat := 0x46100014
def OEP_IDENT_LO_addr : Fld := ⟨OEP_IDENT_LO, 31, 2⟩
def OEP_IDENT_HI : Nat := 0x46100018
def OEP_IDENT_HI_addr : Fld := ⟨OEP_IDENT_HI, 7, 0⟩
def OEP_NS_CFG (v : Nat) : Nat := 0x46100100 + 0x20 * v
def OEP_NS_CFG_en (v : Nat) : Fld := ⟨OEP_NS_CFG v, 0, 0⟩
def OEP_NS_CFG_wr_en (v : Nat) : Fld := ⟨OEP_NS_CFG v, 1, 1⟩
def OEP_NS_AJ_LO (v : Nat) : Nat := 0x46100104 + 0x20 * v
def OEP_NS_AJ_LO_vbn (v : Nat) : Fld := ⟨OEP_NS_AJ_LO v, 31, 0⟩
def OEP_NS_AJ_HI (v : Nat) : Nat := 0x46100108 + 0x20 * v
def OEP_NS_AJ_HI_vbn (v : Nat) : Fld := ⟨OEP_NS_AJ_HI v, 3, 0⟩
def OEP_NS_STATUS (v : Nat) : Nat := 0x4610010C + 0x20 * v
def OEP_NS_STATUS_active (v : Nat) : Fld := ⟨OEP_NS_STATUS v, 0, 0⟩
def OEP_NS_STATUS_replaying (v : Nat) : Fld := ⟨OEP_NS_STATUS v, 1, 1⟩
def OEP_NS_STATUS_replayed (v : Nat) : Fld := ⟨OEP_NS_STATUS v, 8, 4⟩
def OEP_LOCK_STAT : Nat := 0x46100200
def OEP_LOCK_STAT_host : Fld := ⟨OEP_LOCK_STAT, 7, 0⟩
def OEP_LOCK_STAT_rec : Fld := ⟨OEP_LOCK_STAT, 14, 8⟩
def OEP_LOCK_GRANT_LO : Nat := 0x46100204
def OEP_LOCK_GRANT_LO_grant : Fld := ⟨OEP_LOCK_GRANT_LO, 31, 0⟩
def OEP_LOCK_GRANT_HI : Nat := 0x46100208
def OEP_LOCK_GRANT_HI_grant : Fld := ⟨OEP_LOCK_GRANT_HI, 31, 0⟩
def OEP_LOCK_REL_LO : Nat := 0x4610020C
def OEP_LOCK_REL_LO_rel : Fld := ⟨OEP_LOCK_REL_LO, 31, 0⟩
def OEP_LOCK_REL_HI : Nat := 0x46100210
def OEP_LOCK_REL_HI_rel : Fld := ⟨OEP_LOCK_REL_HI, 31, 0⟩
def OEP_LOCK_RT_WAIT : Nat := 0x46100214
def OEP_CAUGHT : Nat := 0x46100218
def OEP_MISSED : Nat := 0x4610021C
def OEP_ATOMIC : Nat := 0x46100220

/-- The registers of OEP (chapter 14). -/
def rowsOep : List RegRow :=
  [ ⟨0x0, [], .d, [⟨0, 0, .rw, 0x0⟩]⟩
  , ⟨0x4, [], .d, [⟨0, 0, .ro, 0x0⟩, ⟨1, 1, .ro, 0x0⟩, ⟨2, 2, .ro, 0x0⟩, ⟨5, 3, .ro, 0x0⟩, ⟨7, 6, .ro, 0x0⟩, ⟨8, 8, .w1c, 0x0⟩]⟩
  , ⟨0x8, [], .d, [⟨5, 0, .rw, 0x0⟩]⟩
  , ⟨0xC, [], .h, [⟨15, 0, .rwl, 0x0⟩, ⟨31, 16, .rwl, 0x0⟩]⟩
  , ⟨0x10, [], .h, [⟨15, 0, .rwl, 0x0⟩, ⟨31, 16, .rwl, 0x0⟩]⟩
  , ⟨0x14, [], .d, [⟨31, 2, .rw, 0x0⟩]⟩
  , ⟨0x18, [], .d, [⟨7, 0, .rw, 0x0⟩]⟩
  , ⟨0x100, [(0x20, 4)], .d, [⟨0, 0, .rw, 0x0⟩, ⟨1, 1, .rw, 0x0⟩]⟩
  , ⟨0x104, [(0x20, 4)], .d, [⟨31, 0, .rw, 0x0⟩]⟩
  , ⟨0x108, [(0x20, 4)], .d, [⟨3, 0, .rw, 0x0⟩]⟩
  , ⟨0x10C, [(0x20, 4)], .d, [⟨0, 0, .ro, 0x0⟩, ⟨1, 1, .ro, 0x0⟩, ⟨8, 4, .ro, 0x0⟩]⟩
  , ⟨0x200, [], .d, [⟨7, 0, .ro, 0x0⟩, ⟨14, 8, .ro, 0x0⟩]⟩
  , ⟨0x204, [], .d, [⟨31, 0, .ro, 0x0⟩]⟩
  , ⟨0x208, [], .d, [⟨31, 0, .ro, 0x0⟩]⟩
  , ⟨0x20C, [], .d, [⟨31, 0, .ro, 0x0⟩]⟩
  , ⟨0x210, [], .d, [⟨31, 0, .ro, 0x0⟩]⟩
  , ⟨0x214, [], .d, [⟨31, 0, .rc, 0x0⟩]⟩
  , ⟨0x218, [], .d, [⟨31, 0, .rc, 0x0⟩]⟩
  , ⟨0x21C, [], .d, [⟨31, 0, .rc, 0x0⟩]⟩
  , ⟨0x220, [], .d, [⟨31, 0, .rc, 0x0⟩]⟩]

/-! ### SCO -/

def SCO_CTRL : Nat := 0x47000000
def SCO_CTRL_branch : Fld := ⟨SCO_CTRL, 9, 8⟩
def SCO_CTRL_pipe : Fld := ⟨SCO_CTRL, 7, 6⟩
def SCO_CTRL_mirror : Fld := ⟨SCO_CTRL, 5, 5⟩
def SCO_CTRL_mode : Fld := ⟨SCO_CTRL, 4, 2⟩
def SCO_CTRL_en : Fld := ⟨SCO_CTRL, 0, 0⟩
def SCO_HTIM : Nat := 0x47000004
def SCO_HTIM_h_active : Fld := ⟨SCO_HTIM, 15, 0⟩
def SCO_HTIM_h_total : Fld := ⟨SCO_HTIM, 31, 16⟩
def SCO_VTIM : Nat := 0x47000008
def SCO_VTIM_v_active : Fld := ⟨SCO_VTIM, 15, 0⟩
def SCO_VTIM_v_total : Fld := ⟨SCO_VTIM, 31, 16⟩
def SCO_VSTART : Nat := 0x4700000C
def SCO_VSTART_line : Fld := ⟨SCO_VSTART, 15, 0⟩
def SCO_PHASE : Nat := 0x47000010
def SCO_PHASE_ns : Fld := ⟨SCO_PHASE, 31, 0⟩
def SCO_UCOL : Nat := 0x47000014
def SCO_UCOL_y : Fld := ⟨SCO_UCOL, 9, 0⟩
def SCO_UCOL_cb : Fld := ⟨SCO_UCOL, 19, 10⟩
def SCO_UCOL_cr : Fld := ⟨SCO_UCOL, 29, 20⟩
def SCO_LINE_MATCH : Nat := 0x47000018
def SCO_LINE_MATCH_line : Fld := ⟨SCO_LINE_MATCH, 15, 0⟩
def SCO_OVL_CTRL : Nat := 0x47000020
def SCO_OVL_CTRL_en : Fld := ⟨SCO_OVL_CTRL, 0, 0⟩
def SCO_OVL_PTR_LO : Nat := 0x47000024
def SCO_OVL_PTR_LO_addr : Fld := ⟨SCO_OVL_PTR_LO, 31, 6⟩
def SCO_OVL_PTR_HI : Nat := 0x47000028
def SCO_OVL_PTR_HI_addr : Fld := ⟨SCO_OVL_PTR_HI, 7, 0⟩
def SCO_OVL_STRIDE : Nat := 0x4700002C
def SCO_OVL_STRIDE_bytes : Fld := ⟨SCO_OVL_STRIDE, 17, 6⟩
def SCO_OVL_POS : Nat := 0x47000030
def SCO_OVL_POS_x : Fld := ⟨SCO_OVL_POS, 15, 0⟩
def SCO_OVL_POS_y : Fld := ⟨SCO_OVL_POS, 31, 16⟩
def SCO_OVL_SIZE : Nat := 0x47000034
def SCO_OVL_SIZE_w : Fld := ⟨SCO_OVL_SIZE, 15, 0⟩
def SCO_OVL_SIZE_h : Fld := ⟨SCO_OVL_SIZE, 31, 16⟩
def SCO_STATUS : Nat := 0x47000040
def SCO_STATUS_running : Fld := ⟨SCO_STATUS, 0, 0⟩
def SCO_STATUS_holding : Fld := ⟨SCO_STATUS, 1, 1⟩
def SCO_STATUS_cfg_err : Fld := ⟨SCO_STATUS, 2, 2⟩
def SCO_STATUS_bad_write : Fld := ⟨SCO_STATUS, 3, 3⟩
def SCO_EVT_EN : Nat := 0x47000044
def SCO_EVT_EN_en : Fld := ⟨SCO_EVT_EN, 5, 0⟩
def SCO_UNDERRUN : Nat := 0x47000048
def SCO_OVL_UNDERRUN : Nat := 0x4700004C
def SCO_REPEAT : Nat := 0x47000050
def SCO_SKIP : Nat := 0x47000054
def SCO_GEOM_ERR : Nat := 0x47000058
def SCO_REALIGN : Nat := 0x4700005C

/-- The registers of SCO (chapter 15). -/
def rowsSco : List RegRow :=
  [ ⟨0x0, [], .d, [⟨9, 8, .rw, 0x0⟩, ⟨7, 6, .rw, 0x0⟩, ⟨5, 5, .rw, 0x0⟩, ⟨4, 2, .rw, 0x3⟩, ⟨0, 0, .rw, 0x0⟩]⟩
  , ⟨0x4, [], .d, [⟨15, 0, .rw, 0x1000⟩, ⟨31, 16, .rw, 0x1130⟩]⟩
  , ⟨0x8, [], .d, [⟨15, 0, .rw, 0x870⟩, ⟨31, 16, .rw, 0x8CA⟩]⟩
  , ⟨0xC, [], .d, [⟨15, 0, .rw, 0x29⟩]⟩
  , ⟨0x10, [], .d, [⟨31, 0, .rw, 0x0⟩]⟩
  , ⟨0x14, [], .d, [⟨9, 0, .rwc, 0x40⟩, ⟨19, 10, .rwc, 0x200⟩, ⟨29, 20, .rwc, 0x200⟩]⟩
  , ⟨0x18, [], .d, [⟨15, 0, .rw, 0x0⟩]⟩
  , ⟨0x20, [], .d, [⟨0, 0, .rwc, 0x0⟩]⟩
  , ⟨0x24, [], .d, [⟨31, 6, .rwc, 0x0⟩]⟩
  , ⟨0x28, [], .d, [⟨7, 0, .rwc, 0x0⟩]⟩
  , ⟨0x2C, [], .d, [⟨17, 6, .rwc, 0x0⟩]⟩
  , ⟨0x30, [], .d, [⟨15, 0, .rwc, 0x0⟩, ⟨31, 16, .rwc, 0x0⟩]⟩
  , ⟨0x34, [], .d, [⟨15, 0, .rwc, 0x0⟩, ⟨31, 16, .rwc, 0x0⟩]⟩
  , ⟨0x40, [], .d, [⟨0, 0, .ro, 0x0⟩, ⟨1, 1, .ro, 0x0⟩, ⟨2, 2, .w1c, 0x0⟩, ⟨3, 3, .w1c, 0x0⟩]⟩
  , ⟨0x44, [], .d, [⟨5, 0, .rw, 0x0⟩]⟩
  , ⟨0x48, [], .d, [⟨31, 0, .rc, 0x0⟩]⟩
  , ⟨0x4C, [], .d, [⟨31, 0, .rc, 0x0⟩]⟩
  , ⟨0x50, [], .d, [⟨31, 0, .rc, 0x0⟩]⟩
  , ⟨0x54, [], .d, [⟨31, 0, .rc, 0x0⟩]⟩
  , ⟨0x58, [], .d, [⟨31, 0, .rc, 0x0⟩]⟩
  , ⟨0x5C, [], .d, [⟨31, 0, .rc, 0x0⟩]⟩]

/-! ### AUD -/

def AUD_CTRL (n : Nat) : Nat := 0x47100000 + 0x1000 * n
def AUD_CTRL_en (n : Nat) : Fld := ⟨AUD_CTRL n, 0, 0⟩
def AUD_CTRL_run (n : Nat) : Fld := ⟨AUD_CTRL n, 1, 1⟩
def AUD_CTRL_dir (n : Nat) : Fld := ⟨AUD_CTRL n, 2, 2⟩
def AUD_CTRL_master (n : Nat) : Fld := ⟨AUD_CTRL n, 3, 3⟩
def AUD_FMT (n : Nat) : Nat := 0x47100004 + 0x1000 * n
def AUD_FMT_fmt (n : Nat) : Fld := ⟨AUD_FMT n, 1, 0⟩
def AUD_FMT_slots (n : Nat) : Fld := ⟨AUD_FMT n, 7, 4⟩
def AUD_FMT_slot_w (n : Nat) : Fld := ⟨AUD_FMT n, 9, 8⟩
def AUD_FMT_rate (n : Nat) : Fld := ⟨AUD_FMT n, 14, 12⟩
def AUD_FMT_pack (n : Nat) : Fld := ⟨AUD_FMT n, 17, 16⟩
def AUD_FMT_fs_pulse (n : Nat) : Fld := ⟨AUD_FMT n, 18, 18⟩
def AUD_FMT_fs_delay (n : Nat) : Fld := ⟨AUD_FMT n, 19, 19⟩
def AUD_MASK (n : Nat) : Nat := 0x47100008 + 0x1000 * n
def AUD_MASK_mask (n : Nat) : Fld := ⟨AUD_MASK n, 15, 0⟩
def AUD_LEAD (n : Nat) : Nat := 0x4710000C + 0x1000 * n
def AUD_LEAD_frames (n : Nat) : Fld := ⟨AUD_LEAD n, 7, 0⟩
def AUD_RING_LO (n : Nat) : Nat := 0x47100010 + 0x1000 * n
def AUD_RING_LO_base (n : Nat) : Fld := ⟨AUD_RING_LO n, 31, 4⟩
def AUD_RING_HI (n : Nat) : Nat := 0x47100014 + 0x1000 * n
def AUD_RING_HI_base (n : Nat) : Fld := ⟨AUD_RING_HI n, 7, 0⟩
def AUD_RING_CFG (n : Nat) : Nat := 0x47100018 + 0x1000 * n
def AUD_RING_CFG_entries (n : Nat) : Fld := ⟨AUD_RING_CFG n, 12, 0⟩
def AUD_TAIL (n : Nat) : Nat := 0x4710001C + 0x1000 * n
def AUD_TAIL_tail (n : Nat) : Fld := ⟨AUD_TAIL n, 31, 0⟩
def AUD_HEAD (n : Nat) : Nat := 0x47100020 + 0x1000 * n
def AUD_HEAD_head (n : Nat) : Fld := ⟨AUD_HEAD n, 31, 0⟩
def AUD_STATUS (n : Nat) : Nat := 0x47100024 + 0x1000 * n
def AUD_STATUS_running (n : Nat) : Fld := ⟨AUD_STATUS n, 0, 0⟩
def AUD_STATUS_leading (n : Nat) : Fld := ⟨AUD_STATUS n, 1, 1⟩
def AUD_STATUS_bad_write (n : Nat) : Fld := ⟨AUD_STATUS n, 2, 2⟩
def AUD_STATUS_cfg_err (n : Nat) : Fld := ⟨AUD_STATUS n, 3, 3⟩
def AUD_IN_LO (n : Nat) : Nat := 0x47100030 + 0x1000 * n
def AUD_IN_LO_in (n : Nat) : Fld := ⟨AUD_IN_LO n, 31, 0⟩
def AUD_IN_HI (n : Nat) : Nat := 0x47100034 + 0x1000 * n
def AUD_IN_HI_in (n : Nat) : Fld := ⟨AUD_IN_HI n, 31, 0⟩
def AUD_OUT_LO (n : Nat) : Nat := 0x47100038 + 0x1000 * n
def AUD_OUT_LO_out (n : Nat) : Fld := ⟨AUD_OUT_LO n, 31, 0⟩
def AUD_OUT_HI (n : Nat) : Nat := 0x4710003C + 0x1000 * n
def AUD_OUT_HI_out (n : Nat) : Fld := ⟨AUD_OUT_HI n, 31, 0⟩
def AUD_DROP_LO (n : Nat) : Nat := 0x47100040 + 0x1000 * n
def AUD_DROP_LO_drop (n : Nat) : Fld := ⟨AUD_DROP_LO n, 31, 0⟩
def AUD_DROP_HI (n : Nat) : Nat := 0x47100044 + 0x1000 * n
def AUD_DROP_HI_drop (n : Nat) : Fld := ⟨AUD_DROP_HI n, 31, 0⟩
def AUD_REP_LO (n : Nat) : Nat := 0x47100048 + 0x1000 * n
def AUD_REP_LO_rep (n : Nat) : Fld := ⟨AUD_REP_LO n, 31, 0⟩
def AUD_REP_HI (n : Nat) : Nat := 0x4710004C + 0x1000 * n
def AUD_REP_HI_rep (n : Nat) : Fld := ⟨AUD_REP_HI n, 31, 0⟩
def AUD_STARVED (n : Nat) : Nat := 0x47100050 + 0x1000 * n
def AUD_ZERO (n : Nat) : Nat := 0x47100054 + 0x1000 * n
def AUD_EVT_EN (n : Nat) : Nat := 0x47100058 + 0x1000 * n
def AUD_EVT_EN_en (n : Nat) : Fld := ⟨AUD_EVT_EN n, 7, 0⟩

/-- The registers of AUD (chapter 16). -/
def rowsAud : List RegRow :=
  [ ⟨0x0, [], .d, [⟨0, 0, .rw, 0x0⟩, ⟨1, 1, .rw, 0x0⟩, ⟨2, 2, .rw, 0x0⟩, ⟨3, 3, .rw, 0x0⟩]⟩
  , ⟨0x4, [], .d, [⟨1, 0, .rw, 0x0⟩, ⟨7, 4, .rw, 0x1⟩, ⟨9, 8, .rw, 0x2⟩, ⟨14, 12, .rw, 0x2⟩, ⟨17, 16, .rw, 0x0⟩, ⟨18, 18, .rw, 0x0⟩, ⟨19, 19, .rw, 0x1⟩]⟩
  , ⟨0x8, [], .d, [⟨15, 0, .rw, 0x3⟩]⟩
  , ⟨0xC, [], .d, [⟨7, 0, .rw, 0x20⟩]⟩
  , ⟨0x10, [], .d, [⟨31, 4, .rw, 0x0⟩]⟩
  , ⟨0x14, [], .d, [⟨7, 0, .rw, 0x0⟩]⟩
  , ⟨0x18, [], .d, [⟨12, 0, .rw, 0x0⟩]⟩
  , ⟨0x1C, [], .d, [⟨31, 0, .rw, 0x0⟩]⟩
  , ⟨0x20, [], .d, [⟨31, 0, .ro, 0x0⟩]⟩
  , ⟨0x24, [], .d, [⟨0, 0, .ro, 0x0⟩, ⟨1, 1, .ro, 0x0⟩, ⟨2, 2, .w1c, 0x0⟩, ⟨3, 3, .w1c, 0x0⟩]⟩
  , ⟨0x30, [], .d, [⟨31, 0, .ro, 0x0⟩]⟩
  , ⟨0x34, [], .d, [⟨31, 0, .ro, 0x0⟩]⟩
  , ⟨0x38, [], .d, [⟨31, 0, .ro, 0x0⟩]⟩
  , ⟨0x3C, [], .d, [⟨31, 0, .ro, 0x0⟩]⟩
  , ⟨0x40, [], .d, [⟨31, 0, .ro, 0x0⟩]⟩
  , ⟨0x44, [], .d, [⟨31, 0, .ro, 0x0⟩]⟩
  , ⟨0x48, [], .d, [⟨31, 0, .ro, 0x0⟩]⟩
  , ⟨0x4C, [], .d, [⟨31, 0, .ro, 0x0⟩]⟩
  , ⟨0x50, [], .d, [⟨31, 0, .rc, 0x0⟩]⟩
  , ⟨0x54, [], .d, [⟨31, 0, .rc, 0x0⟩]⟩
  , ⟨0x58, [], .d, [⟨7, 0, .rw, 0x0⟩]⟩]

/-! ### AUD0 -/

def AUD_MCLK_CFG : Nat := 0x47100F00
def AUD_MCLK_CFG_family : Fld := ⟨AUD_MCLK_CFG, 0, 0⟩

/-- The registers of AUD0 (chapter 16). -/
def rowsAud0 : List RegRow :=
  [ ⟨0xF00, [], .d, [⟨0, 0, .rw, 0x0⟩]⟩]

/-! ### NET -/

def NET_CTRL (m : Nat) : Nat := 0x47200000 + 0x1000 * m
def NET_CTRL_en (m : Nat) : Fld := ⟨NET_CTRL m, 0, 0⟩
def NET_CTRL_speed (m : Nat) : Fld := ⟨NET_CTRL m, 1, 1⟩
def NET_CTRL_fec (m : Nat) : Fld := ⟨NET_CTRL m, 3, 2⟩
def NET_CTRL_promisc (m : Nat) : Fld := ⟨NET_CTRL m, 4, 4⟩
def NET_STATUS (m : Nat) : Nat := 0x47200004 + 0x1000 * m
def NET_STATUS_link_up (m : Nat) : Fld := ⟨NET_STATUS m, 0, 0⟩
def NET_STATUS_block_lock (m : Nat) : Fld := ⟨NET_STATUS m, 1, 1⟩
def NET_STATUS_bad_write (m : Nat) : Fld := ⟨NET_STATUS m, 2, 2⟩
def NET_STATUS_cfg_err (m : Nat) : Fld := ⟨NET_STATUS m, 3, 3⟩
def NET_ADDR_LO (m : Nat) : Nat := 0x47200008 + 0x1000 * m
def NET_ADDR_LO_addr (m : Nat) : Fld := ⟨NET_ADDR_LO m, 31, 0⟩
def NET_ADDR_HI (m : Nat) : Nat := 0x4720000C + 0x1000 * m
def NET_ADDR_HI_addr (m : Nat) : Fld := ⟨NET_ADDR_HI m, 15, 0⟩
def NET_MCAST_LO (m i : Nat) : Nat := 0x47200010 + 0x1000 * m + 0x8 * i
def NET_MCAST_LO_addr (m i : Nat) : Fld := ⟨NET_MCAST_LO m i, 31, 0⟩
def NET_MCAST_HI (m i : Nat) : Nat := 0x47200014 + 0x1000 * m + 0x8 * i
def NET_MCAST_HI_addr (m i : Nat) : Fld := ⟨NET_MCAST_HI m i, 15, 0⟩
def NET_MCAST_HI_en (m i : Nat) : Fld := ⟨NET_MCAST_HI m i, 31, 31⟩
def NET_TXR_LO (m : Nat) : Nat := 0x47200050 + 0x1000 * m
def NET_TXR_LO_base (m : Nat) : Fld := ⟨NET_TXR_LO m, 31, 4⟩
def NET_TXR_HI (m : Nat) : Nat := 0x47200054 + 0x1000 * m
def NET_TXR_HI_base (m : Nat) : Fld := ⟨NET_TXR_HI m, 7, 0⟩
def NET_TXR_CFG (m : Nat) : Nat := 0x47200058 + 0x1000 * m
def NET_TXR_CFG_entries (m : Nat) : Fld := ⟨NET_TXR_CFG m, 12, 0⟩
def NET_TXR_TAIL (m : Nat) : Nat := 0x4720005C + 0x1000 * m
def NET_TXR_TAIL_tail (m : Nat) : Fld := ⟨NET_TXR_TAIL m, 31, 0⟩
def NET_TXR_HEAD (m : Nat) : Nat := 0x47200060 + 0x1000 * m
def NET_TXR_HEAD_head (m : Nat) : Fld := ⟨NET_TXR_HEAD m, 31, 0⟩
def NET_RXR_LO (m : Nat) : Nat := 0x47200064 + 0x1000 * m
def NET_RXR_LO_base (m : Nat) : Fld := ⟨NET_RXR_LO m, 31, 4⟩
def NET_RXR_HI (m : Nat) : Nat := 0x47200068 + 0x1000 * m
def NET_RXR_HI_base (m : Nat) : Fld := ⟨NET_RXR_HI m, 7, 0⟩
def NET_RXR_CFG (m : Nat) : Nat := 0x4720006C + 0x1000 * m
def NET_RXR_CFG_entries (m : Nat) : Fld := ⟨NET_RXR_CFG m, 12, 0⟩
def NET_RXR_TAIL (m : Nat) : Nat := 0x47200070 + 0x1000 * m
def NET_RXR_TAIL_tail (m : Nat) : Fld := ⟨NET_RXR_TAIL m, 31, 0⟩
def NET_RXR_HEAD (m : Nat) : Nat := 0x47200074 + 0x1000 * m
def NET_RXR_HEAD_head (m : Nat) : Fld := ⟨NET_RXR_HEAD m, 31, 0⟩
def NET_TX_LAT (m : Nat) : Nat := 0x47200080 + 0x1000 * m
def NET_TX_LAT_tx_lat (m : Nat) : Fld := ⟨NET_TX_LAT m, 31, 0⟩
def NET_RX_LAT (m : Nat) : Nat := 0x47200084 + 0x1000 * m
def NET_RX_LAT_rx_lat (m : Nat) : Fld := ⟨NET_RX_LAT m, 31, 0⟩
def NET_PTP_CFG (m : Nat) : Nat := 0x47200088 + 0x1000 * m
def NET_PTP_CFG_en (m : Nat) : Fld := ⟨NET_PTP_CFG m, 0, 0⟩
def NET_PTP_STATUS (m : Nat) : Nat := 0x4720008C + 0x1000 * m
def NET_PTP_STATUS_txts_count (m : Nat) : Fld := ⟨NET_PTP_STATUS m, 4, 0⟩
def NET_PTP_STATUS_txts_lost (m : Nat) : Fld := ⟨NET_PTP_STATUS m, 8, 8⟩
def NET_TXTS (m i : Nat) : Nat := 0x47200090 + 0x1000 * m + 0x4 * i
def NET_TXTS_entry (m i : Nat) : Fld := ⟨NET_TXTS m i, 31, 0⟩
def NET_MDIO (m : Nat) : Nat := 0x472000A0 + 0x1000 * m
def NET_MDIO_cmd (m : Nat) : Fld := ⟨NET_MDIO m, 31, 0⟩
def NET_RX_FCS (m : Nat) : Nat := 0x472000B0 + 0x1000 * m
def NET_RX_NODESC (m : Nat) : Nat := 0x472000B4 + 0x1000 * m
def NET_PAUSE (m : Nat) : Nat := 0x472000B8 + 0x1000 * m
def NET_TXTS_DROP (m : Nat) : Nat := 0x472000BC + 0x1000 * m
def NET_EVT_EN (m : Nat) : Nat := 0x472000C0 + 0x1000 * m
def NET_EVT_EN_en (m : Nat) : Fld := ⟨NET_EVT_EN m, 4, 0⟩

/-- The registers of NET (chapter 17), part 0. -/
def rowsNetP0 : List RegRow :=
  [ ⟨0x0, [], .d, [⟨0, 0, .rw, 0x0⟩, ⟨1, 1, .rw, 0x1⟩, ⟨3, 2, .rw, 0x0⟩, ⟨4, 4, .rw, 0x0⟩]⟩
  , ⟨0x4, [], .d, [⟨0, 0, .ro, 0x0⟩, ⟨1, 1, .ro, 0x0⟩, ⟨2, 2, .w1c, 0x0⟩, ⟨3, 3, .w1c, 0x0⟩]⟩
  , ⟨0x8, [], .d, [⟨31, 0, .rw, 0x0⟩]⟩
  , ⟨0xC, [], .d, [⟨15, 0, .rw, 0x0⟩]⟩
  , ⟨0x10, [(0x8, 8)], .d, [⟨31, 0, .rw, 0x0⟩]⟩
  , ⟨0x14, [(0x8, 8)], .d, [⟨15, 0, .rw, 0x0⟩, ⟨31, 31, .rw, 0x0⟩]⟩
  , ⟨0x50, [], .d, [⟨31, 4, .rw, 0x0⟩]⟩
  , ⟨0x54, [], .d, [⟨7, 0, .rw, 0x0⟩]⟩
  , ⟨0x58, [], .d, [⟨12, 0, .rw, 0x0⟩]⟩
  , ⟨0x5C, [], .d, [⟨31, 0, .rw, 0x0⟩]⟩
  , ⟨0x60, [], .d, [⟨31, 0, .ro, 0x0⟩]⟩
  , ⟨0x64, [], .d, [⟨31, 4, .rw, 0x0⟩]⟩
  , ⟨0x68, [], .d, [⟨7, 0, .rw, 0x0⟩]⟩
  , ⟨0x6C, [], .d, [⟨12, 0, .rw, 0x0⟩]⟩
  , ⟨0x70, [], .d, [⟨31, 0, .rw, 0x0⟩]⟩
  , ⟨0x74, [], .d, [⟨31, 0, .ro, 0x0⟩]⟩
  , ⟨0x80, [], .d, [⟨31, 0, .rw, 0x0⟩]⟩
  , ⟨0x84, [], .d, [⟨31, 0, .rw, 0x0⟩]⟩
  , ⟨0x88, [], .d, [⟨0, 0, .rw, 0x0⟩]⟩
  , ⟨0x8C, [], .d, [⟨4, 0, .ro, 0x0⟩, ⟨8, 8, .w1c, 0x0⟩]⟩
  , ⟨0x90, [(0x4, 4)], .d, [⟨31, 0, .ro, 0x0⟩]⟩
  , ⟨0xA0, [], .d, [⟨31, 0, .rw, 0x0⟩]⟩
  , ⟨0xB0, [], .d, [⟨31, 0, .rc, 0x0⟩]⟩
  , ⟨0xB4, [], .d, [⟨31, 0, .rc, 0x0⟩]⟩]

/-- The registers of NET (chapter 17), part 1. -/
def rowsNetP1 : List RegRow :=
  [ ⟨0xB8, [], .d, [⟨31, 0, .rc, 0x0⟩]⟩
  , ⟨0xBC, [], .d, [⟨31, 0, .rc, 0x0⟩]⟩
  , ⟨0xC0, [], .d, [⟨4, 0, .rw, 0x0⟩]⟩]

/-- The registers of NET (chapter 17). -/
def rowsNet : List RegRow := rowsNetP0 ++ rowsNetP1

/-! ### NSTR -/

def NET_STR_CFG (s : Nat) : Nat := 0x47200800 + 0x40 * s
def NET_STR_CFG_en (s : Nat) : Fld := ⟨NET_STR_CFG s, 0, 0⟩
def NET_STR_CFG_type (s : Nat) : Fld := ⟨NET_STR_CFG s, 2, 1⟩
def NET_STR_CFG_mac (s : Nat) : Fld := ⟨NET_STR_CFG s, 3, 3⟩
def NET_STR_SRC (s : Nat) : Nat := 0x47200804 + 0x40 * s
def NET_STR_SRC_src_blk (s : Nat) : Fld := ⟨NET_STR_SRC s, 7, 0⟩
def NET_STR_SRC_src_out (s : Nat) : Fld := ⟨NET_STR_SRC s, 15, 8⟩
def NET_STR_TPL_LO (s : Nat) : Nat := 0x47200808 + 0x40 * s
def NET_STR_TPL_LO_addr (s : Nat) : Fld := ⟨NET_STR_TPL_LO s, 31, 6⟩
def NET_STR_TPL_HI (s : Nat) : Nat := 0x4720080C + 0x40 * s
def NET_STR_TPL_HI_addr (s : Nat) : Fld := ⟨NET_STR_TPL_HI s, 7, 0⟩
def NET_STR_TPL_LEN (s : Nat) : Nat := 0x47200810 + 0x40 * s
def NET_STR_TPL_LEN_bytes (s : Nat) : Fld := ⟨NET_STR_TPL_LEN s, 7, 0⟩
def NET_STR_TPL_LEN_ip_ofs (s : Nat) : Fld := ⟨NET_STR_TPL_LEN s, 23, 16⟩
def NET_STR_TPL_LEN_ipv6 (s : Nat) : Fld := ⟨NET_STR_TPL_LEN s, 24, 24⟩
def NET_STR_PAY (s : Nat) : Nat := 0x47200814 + 0x40 * s
def NET_STR_PAY_payload_max (s : Nat) : Fld := ⟨NET_STR_PAY s, 13, 0⟩
def NET_STR_OFS (s : Nat) : Nat := 0x47200818 + 0x40 * s
def NET_STR_OFS_ns (s : Nat) : Fld := ⟨NET_STR_OFS s, 31, 0⟩
def NET_STR_REPEAT (s : Nat) : Nat := 0x4720081C + 0x40 * s
def NET_STR_DISC (s : Nat) : Nat := 0x47200820 + 0x40 * s
def NET_STR_GEOM (s : Nat) : Nat := 0x47200824 + 0x40 * s
def NET_STR_STATUS (s : Nat) : Nat := 0x47200828 + 0x40 * s
def NET_STR_STATUS_cfg_err (s : Nat) : Fld := ⟨NET_STR_STATUS s, 0, 0⟩
def NET_STR_STATUS_bad_write (s : Nat) : Fld := ⟨NET_STR_STATUS s, 1, 1⟩

/-- The registers of NSTR (chapter 17). -/
def rowsNstr : List RegRow :=
  [ ⟨0x0, [], .d, [⟨0, 0, .rw, 0x0⟩, ⟨2, 1, .rw, 0x0⟩, ⟨3, 3, .rw, 0x0⟩]⟩
  , ⟨0x4, [], .d, [⟨7, 0, .rw, 0x0⟩, ⟨15, 8, .rw, 0x0⟩]⟩
  , ⟨0x8, [], .d, [⟨31, 6, .rw, 0x0⟩]⟩
  , ⟨0xC, [], .d, [⟨7, 0, .rw, 0x0⟩]⟩
  , ⟨0x10, [], .d, [⟨7, 0, .rw, 0x0⟩, ⟨23, 16, .rw, 0x0⟩, ⟨24, 24, .rw, 0x0⟩]⟩
  , ⟨0x14, [], .d, [⟨13, 0, .rw, 0x4B0⟩]⟩
  , ⟨0x18, [], .d, [⟨31, 0, .rw, 0x0⟩]⟩
  , ⟨0x1C, [], .d, [⟨31, 0, .rc, 0x0⟩]⟩
  , ⟨0x20, [], .d, [⟨31, 0, .rc, 0x0⟩]⟩
  , ⟨0x24, [], .d, [⟨31, 0, .rc, 0x0⟩]⟩
  , ⟨0x28, [], .d, [⟨0, 0, .w1c, 0x0⟩, ⟨1, 1, .w1c, 0x0⟩]⟩]

/-! ### TSU -/

def TSU_INCR_NS : Nat := 0x47202000
def TSU_INCR_NS_incr_ns : Fld := ⟨TSU_INCR_NS, 3, 0⟩
def TSU_INCR_FRAC : Nat := 0x47202004
def TSU_INCR_FRAC_incr_frac : Fld := ⟨TSU_INCR_FRAC, 31, 0⟩
def TSU_SET_S_LO : Nat := 0x47202008
def TSU_SET_S_LO_s_lo : Fld := ⟨TSU_SET_S_LO, 31, 0⟩
def TSU_SET_S_HI : Nat := 0x4720200C
def TSU_SET_S_HI_s_hi : Fld := ⟨TSU_SET_S_HI, 15, 0⟩
def TSU_SET_NS : Nat := 0x47202010
def TSU_SET_NS_ns : Fld := ⟨TSU_SET_NS, 29, 0⟩
def TSU_STEP_S : Nat := 0x47202014
def TSU_STEP_S_s : Fld := ⟨TSU_STEP_S, 31, 0⟩
def TSU_STEP_NS : Nat := 0x47202018
def TSU_STEP_NS_ns : Fld := ⟨TSU_STEP_NS, 31, 0⟩
def TSU_CMD : Nat := 0x4720201C
def TSU_CMD_set : Fld := ⟨TSU_CMD, 0, 0⟩
def TSU_CMD_step : Fld := ⟨TSU_CMD, 1, 1⟩
def TSU_NOW_NS : Nat := 0x47202020
def TSU_NOW_NS_ns : Fld := ⟨TSU_NOW_NS, 29, 0⟩
def TSU_NOW_S_LO : Nat := 0x47202024
def TSU_NOW_S_LO_s_lo : Fld := ⟨TSU_NOW_S_LO, 31, 0⟩
def TSU_NOW_S_HI : Nat := 0x47202028
def TSU_NOW_S_HI_s_hi : Fld := ⟨TSU_NOW_S_HI, 15, 0⟩
def TSU_NOW_FRAC : Nat := 0x4720202C
def TSU_NOW_FRAC_frac : Fld := ⟨TSU_NOW_FRAC, 31, 0⟩
def TSU_STATUS : Nat := 0x47202030
def TSU_STATUS_valid : Fld := ⟨TSU_STATUS, 0, 0⟩
def TSU_STATUS_bad_write : Fld := ⟨TSU_STATUS, 1, 1⟩
def TSU_EVT_EN : Nat := 0x47202034
def TSU_EVT_EN_en : Fld := ⟨TSU_EVT_EN, 2, 0⟩

/-- The registers of TSU (chapter 17). -/
def rowsTsu : List RegRow :=
  [ ⟨0x0, [], .h, [⟨3, 0, .rw, 0x4⟩]⟩
  , ⟨0x4, [], .h, [⟨31, 0, .rw, 0x0⟩]⟩
  , ⟨0x8, [], .h, [⟨31, 0, .rw, 0x0⟩]⟩
  , ⟨0xC, [], .h, [⟨15, 0, .rw, 0x0⟩]⟩
  , ⟨0x10, [], .h, [⟨29, 0, .rw, 0x0⟩]⟩
  , ⟨0x14, [], .h, [⟨31, 0, .rw, 0x0⟩]⟩
  , ⟨0x18, [], .h, [⟨31, 0, .rw, 0x0⟩]⟩
  , ⟨0x1C, [], .h, [⟨0, 0, .w1s, 0x0⟩, ⟨1, 1, .w1s, 0x0⟩]⟩
  , ⟨0x20, [], .h, [⟨29, 0, .ro, 0x0⟩]⟩
  , ⟨0x24, [], .h, [⟨31, 0, .ro, 0x0⟩]⟩
  , ⟨0x28, [], .h, [⟨15, 0, .ro, 0x0⟩]⟩
  , ⟨0x2C, [], .h, [⟨31, 0, .ro, 0x0⟩]⟩
  , ⟨0x30, [], .h, [⟨0, 0, .ro, 0x0⟩, ⟨1, 1, .w1c, 0x0⟩]⟩
  , ⟨0x34, [], .h, [⟨2, 0, .rw, 0x0⟩]⟩]

/-! ### PFI -/

def PFI_CTRL (c : Nat) : Nat := 0x47300000 + 0x100 * c
def PFI_CTRL_filt (c : Nat) : Fld := ⟨PFI_CTRL c, 23, 16⟩
def PFI_CTRL_hyst (c : Nat) : Fld := ⟨PFI_CTRL c, 11, 8⟩
def PFI_CTRL_drv_en (c : Nat) : Fld := ⟨PFI_CTRL c, 4, 4⟩
def PFI_CTRL_idx_zero (c : Nat) : Fld := ⟨PFI_CTRL c, 3, 3⟩
def PFI_CTRL_idx_pol (c : Nat) : Fld := ⟨PFI_CTRL c, 2, 2⟩
def PFI_CTRL_idx_en (c : Nat) : Fld := ⟨PFI_CTRL c, 1, 1⟩
def PFI_CTRL_en (c : Nat) : Fld := ⟨PFI_CTRL c, 0, 0⟩
def PFI_STATUS (c : Nat) : Nat := 0x47300004 + 0x100 * c
def PFI_STATUS_hall (c : Nat) : Fld := ⟨PFI_STATUS c, 2, 0⟩
def PFI_STATUS_dir (c : Nat) : Fld := ⟨PFI_STATUS c, 3, 3⟩
def PFI_STATUS_per_valid (c : Nat) : Fld := ⟨PFI_STATUS c, 4, 4⟩
def PFI_STATUS_fault (c : Nat) : Fld := ⟨PFI_STATUS c, 5, 5⟩
def PFI_STATUS_bad_write (c : Nat) : Fld := ⟨PFI_STATUS c, 6, 6⟩
def PFI_POS (c : Nat) : Nat := 0x47300008 + 0x100 * c
def PFI_POS_pos (c : Nat) : Fld := ⟨PFI_POS c, 31, 0⟩
def PFI_IDX_POS (c : Nat) : Nat := 0x4730000C + 0x100 * c
def PFI_IDX_POS_pos (c : Nat) : Fld := ⟨PFI_IDX_POS c, 31, 0⟩
def PFI_SPD_WIN (c : Nat) : Nat := 0x47300010 + 0x100 * c
def PFI_SPD_WIN_us (c : Nat) : Fld := ⟨PFI_SPD_WIN c, 19, 0⟩
def PFI_SPEED (c : Nat) : Nat := 0x47300014 + 0x100 * c
def PFI_SPEED_net (c : Nat) : Fld := ⟨PFI_SPEED c, 31, 0⟩
def PFI_PERIOD (c : Nat) : Nat := 0x47300018 + 0x100 * c
def PFI_PERIOD_t (c : Nat) : Fld := ⟨PFI_PERIOD c, 31, 0⟩
def PFI_INVALID (c : Nat) : Nat := 0x4730001C + 0x100 * c
def PFI_SKIP (c : Nat) : Nat := 0x47300020 + 0x100 * c
def PFI_PWM (c : Nat) : Nat := 0x47300024 + 0x100 * c
def PFI_PWM_per (c : Nat) : Fld := ⟨PFI_PWM c, 15, 0⟩
def PFI_PWM_dead (c : Nat) : Fld := ⟨PFI_PWM c, 23, 16⟩
def PFI_PWM_DUTY (c : Nat) : Nat := 0x47300028 + 0x100 * c
def PFI_PWM_DUTY_duty (c : Nat) : Fld := ⟨PFI_PWM_DUTY c, 15, 0⟩
def PFI_COMM0 (c : Nat) : Nat := 0x4730002C + 0x100 * c
def PFI_COMM0_h1 (c : Nat) : Fld := ⟨PFI_COMM0 c, 5, 0⟩
def PFI_COMM0_h2 (c : Nat) : Fld := ⟨PFI_COMM0 c, 11, 6⟩
def PFI_COMM0_h3 (c : Nat) : Fld := ⟨PFI_COMM0 c, 17, 12⟩
def PFI_COMM1 (c : Nat) : Nat := 0x47300030 + 0x100 * c
def PFI_COMM1_h4 (c : Nat) : Fld := ⟨PFI_COMM1 c, 5, 0⟩
def PFI_COMM1_h5 (c : Nat) : Fld := ⟨PFI_COMM1 c, 11, 6⟩
def PFI_COMM1_h6 (c : Nat) : Fld := ⟨PFI_COMM1 c, 17, 12⟩
def PFI_PH_CFG (c : Nat) : Nat := 0x47300040 + 0x100 * c
def PFI_PH_CFG_en (c : Nat) : Fld := ⟨PFI_PH_CFG c, 0, 0⟩
def PFI_PH_OFS (c : Nat) : Nat := 0x47300044 + 0x100 * c
def PFI_PH_OFS_ns (c : Nat) : Fld := ⟨PFI_PH_OFS c, 31, 0⟩
def PFI_PH_ERR (c : Nat) : Nat := 0x47300048 + 0x100 * c
def PFI_PH_ERR_e (c : Nat) : Fld := ⟨PFI_PH_ERR c, 31, 0⟩
def PFI_PH_INFO (c : Nat) : Nat := 0x4730004C + 0x100 * c
def PFI_PH_INFO_info (c : Nat) : Fld := ⟨PFI_PH_INFO c, 4, 0⟩
def PFI_PH_RFN (c : Nat) : Nat := 0x47300050 + 0x100 * c
def PFI_PH_RFN_rfn (c : Nat) : Fld := ⟨PFI_PH_RFN c, 31, 0⟩
def PFI_PH_MISS (c : Nat) : Nat := 0x47300054 + 0x100 * c
def PFI_PH_EXTRA (c : Nat) : Nat := 0x47300058 + 0x100 * c
def PFI_EVT_EN (c : Nat) : Nat := 0x4730005C + 0x100 * c
def PFI_EVT_EN_en (c : Nat) : Fld := ⟨PFI_EVT_EN c, 7, 0⟩

/-- The registers of PFI (chapter 18). -/
def rowsPfi : List RegRow :=
  [ ⟨0x0, [], .d, [⟨23, 16, .rw, 0x8⟩, ⟨11, 8, .rw, 0x2⟩, ⟨4, 4, .rw, 0x0⟩, ⟨3, 3, .rw, 0x0⟩, ⟨2, 2, .rw, 0x0⟩, ⟨1, 1, .rw, 0x0⟩, ⟨0, 0, .rw, 0x0⟩]⟩
  , ⟨0x4, [], .d, [⟨2, 0, .ro, 0x0⟩, ⟨3, 3, .ro, 0x0⟩, ⟨4, 4, .ro, 0x0⟩, ⟨5, 5, .w1c, 0x0⟩, ⟨6, 6, .w1c, 0x0⟩]⟩
  , ⟨0x8, [], .d, [⟨31, 0, .rw, 0x0⟩]⟩
  , ⟨0xC, [], .d, [⟨31, 0, .ro, 0x0⟩]⟩
  , ⟨0x10, [], .d, [⟨19, 0, .rw, 0x3E8⟩]⟩
  , ⟨0x14, [], .d, [⟨31, 0, .ro, 0x0⟩]⟩
  , ⟨0x18, [], .d, [⟨31, 0, .ro, 0x0⟩]⟩
  , ⟨0x1C, [], .d, [⟨31, 0, .rc, 0x0⟩]⟩
  , ⟨0x20, [], .d, [⟨31, 0, .rc, 0x0⟩]⟩
  , ⟨0x24, [], .d, [⟨15, 0, .rw, 0x186A⟩, ⟨23, 16, .rw, 0x10⟩]⟩
  , ⟨0x28, [], .d, [⟨15, 0, .rw, 0x0⟩]⟩
  , ⟨0x2C, [], .d, [⟨5, 0, .rw, 0x0⟩, ⟨11, 6, .rw, 0x0⟩, ⟨17, 12, .rw, 0x0⟩]⟩
  , ⟨0x30, [], .d, [⟨5, 0, .rw, 0x0⟩, ⟨11, 6, .rw, 0x0⟩, ⟨17, 12, .rw, 0x0⟩]⟩
  , ⟨0x40, [], .d, [⟨0, 0, .rw, 0x0⟩]⟩
  , ⟨0x44, [], .d, [⟨31, 0, .rw, 0x0⟩]⟩
  , ⟨0x48, [], .d, [⟨31, 0, .ro, 0x0⟩]⟩
  , ⟨0x4C, [], .d, [⟨4, 0, .ro, 0x0⟩]⟩
  , ⟨0x50, [], .d, [⟨31, 0, .ro, 0x0⟩]⟩
  , ⟨0x54, [], .d, [⟨31, 0, .rc, 0x0⟩]⟩
  , ⟨0x58, [], .d, [⟨31, 0, .rc, 0x0⟩]⟩
  , ⟨0x5C, [], .d, [⟨7, 0, .rw, 0x0⟩]⟩]

/-! ### MON -/

def MON_UART_CFG : Nat := 0x47400000
def MON_UART_CFG_autobaud : Fld := ⟨MON_UART_CFG, 0, 0⟩
def MON_UART_CFG_echo : Fld := ⟨MON_UART_CFG, 1, 1⟩
def MON_UART_CFG_rate : Fld := ⟨MON_UART_CFG, 25, 4⟩
def MON_DBG_STATUS : Nat := 0x47400004
def MON_DBG_STATUS_locked : Fld := ⟨MON_DBG_STATUS, 0, 0⟩
def MON_DBG_STATUS_unlocked : Fld := ⟨MON_DBG_STATUS, 1, 1⟩
def MON_DBG_STATUS_fails : Fld := ⟨MON_DBG_STATUS, 3, 2⟩
def MON_DBG_STATUS_jtag_open : Fld := ⟨MON_DBG_STATUS, 4, 4⟩
def MON_EVT_EN : Nat := 0x47400008
def MON_EVT_EN_en : Fld := ⟨MON_EVT_EN, 6, 0⟩
def MON_EVT_EN_en_mbox : Fld := ⟨MON_EVT_EN, 17, 16⟩
def XSPI_CFG : Nat := 0x47401000
def XSPI_CFG_mhz : Fld := ⟨XSPI_CFG, 7, 0⟩
def XSPI_CFG_dummy : Fld := ⟨XSPI_CFG, 11, 8⟩
def XSPI_CFG_ddr : Fld := ⟨XSPI_CFG, 12, 12⟩
def XSPI_ADDR : Nat := 0x47401004
def XSPI_ADDR_addr : Fld := ⟨XSPI_ADDR, 31, 0⟩
def XSPI_LEN : Nat := 0x47401008
def XSPI_LEN_bytes : Fld := ⟨XSPI_LEN, 23, 0⟩
def XSPI_DST_LO : Nat := 0x4740100C
def XSPI_DST_LO_addr : Fld := ⟨XSPI_DST_LO, 31, 2⟩
def XSPI_DST_HI : Nat := 0x47401010
def XSPI_DST_HI_addr : Fld := ⟨XSPI_DST_HI, 7, 0⟩
def XSPI_CMD : Nat := 0x47401014
def XSPI_CMD_go : Fld := ⟨XSPI_CMD, 0, 0⟩
def XSPI_STATUS : Nat := 0x47401018
def XSPI_STATUS_busy : Fld := ⟨XSPI_STATUS, 0, 0⟩
def XSPI_STATUS_done : Fld := ⟨XSPI_STATUS, 1, 1⟩
def XSPI_STATUS_err : Fld := ⟨XSPI_STATUS, 2, 2⟩
def XSPI_STATUS_bad_write : Fld := ⟨XSPI_STATUS, 3, 3⟩
def GPIO_OUT : Nat := 0x47402000
def GPIO_OUT_out : Fld := ⟨GPIO_OUT, 15, 0⟩
def GPIO_OE : Nat := 0x47402004
def GPIO_OE_oe : Fld := ⟨GPIO_OE, 15, 0⟩
def GPIO_IN : Nat := 0x47402008
def GPIO_IN_in : Fld := ⟨GPIO_IN, 15, 0⟩
def GPIO_SET : Nat := 0x4740200C
def GPIO_SET_set : Fld := ⟨GPIO_SET, 15, 0⟩
def GPIO_CLR : Nat := 0x47402010
def GPIO_CLR_clr : Fld := ⟨GPIO_CLR, 15, 0⟩
def GPIO_EDGE_CFG : Nat := 0x47402014
def GPIO_EDGE_CFG_edge : Fld := ⟨GPIO_EDGE_CFG, 31, 0⟩
def GPIO_EDGE_STATUS : Nat := 0x47402018
def GPIO_EDGE_STATUS_seen : Fld := ⟨GPIO_EDGE_STATUS, 15, 0⟩
def PMB_CMD : Nat := 0x47402800
def PMB_CMD_cmd : Fld := ⟨PMB_CMD, 7, 0⟩
def PMB_CMD_addr : Fld := ⟨PMB_CMD, 14, 8⟩
def PMB_CMD_op : Fld := ⟨PMB_CMD, 17, 16⟩
def PMB_CMD_pec : Fld := ⟨PMB_CMD, 18, 18⟩
def PMB_CTRL : Nat := 0x47402804
def PMB_CTRL_go : Fld := ⟨PMB_CTRL, 0, 0⟩
def PMB_DATA : Nat := 0x47402808
def PMB_DATA_data : Fld := ⟨PMB_DATA, 15, 0⟩
def PMB_STATUS : Nat := 0x4740280C
def PMB_STATUS_busy : Fld := ⟨PMB_STATUS, 0, 0⟩
def PMB_STATUS_done : Fld := ⟨PMB_STATUS, 1, 1⟩
def PMB_STATUS_nack : Fld := ⟨PMB_STATUS, 2, 2⟩
def PMB_STATUS_pec_err : Fld := ⟨PMB_STATUS, 3, 3⟩
def PMB_STATUS_bad_write : Fld := ⟨PMB_STATUS, 4, 4⟩
def CTL_MBOX_STATUS : Nat := 0x47403000
def CTL_MBOX_STATUS_in_full : Fld := ⟨CTL_MBOX_STATUS, 0, 0⟩
def CTL_MBOX_STATUS_out_ready : Fld := ⟨CTL_MBOX_STATUS, 1, 1⟩
def CTL_MBOX_STATUS_err : Fld := ⟨CTL_MBOX_STATUS, 2, 2⟩
def CTL_MBOX_STATUS_bad_write : Fld := ⟨CTL_MBOX_STATUS, 3, 3⟩
def CTL_MBOX_CTRL : Nat := 0x47403004
def CTL_MBOX_CTRL_in_clr : Fld := ⟨CTL_MBOX_CTRL, 0, 0⟩
def CTL_MBOX_CTRL_post : Fld := ⟨CTL_MBOX_CTRL, 1, 1⟩
def CTL_SPI_ERR : Nat := 0x47403008

/-- The registers of MON (chapter 23). -/
def rowsMon : List RegRow :=
  [ ⟨0x0, [], .h, [⟨0, 0, .rw, 0x1⟩, ⟨1, 1, .rw, 0x1⟩, ⟨25, 4, .ro, 0x1C200⟩]⟩
  , ⟨0x4, [], .h, [⟨0, 0, .ro, 0x0⟩, ⟨1, 1, .ro, 0x0⟩, ⟨3, 2, .ro, 0x0⟩, ⟨4, 4, .ro, 0x0⟩]⟩
  , ⟨0x8, [], .s, [⟨6, 0, .rw, 0x0⟩, ⟨17, 16, .rw, 0x0⟩]⟩
  , ⟨0x1000, [], .d, [⟨7, 0, .rw, 0xC⟩, ⟨11, 8, .rw, 0x8⟩, ⟨12, 12, .rw, 0x0⟩]⟩
  , ⟨0x1004, [], .d, [⟨31, 0, .rw, 0x0⟩]⟩
  , ⟨0x1008, [], .d, [⟨23, 0, .rw, 0x0⟩]⟩
  , ⟨0x100C, [], .d, [⟨31, 2, .rw, 0x0⟩]⟩
  , ⟨0x1010, [], .d, [⟨7, 0, .rw, 0x0⟩]⟩
  , ⟨0x1014, [], .d, [⟨0, 0, .w1s, 0x0⟩]⟩
  , ⟨0x1018, [], .d, [⟨0, 0, .ro, 0x0⟩, ⟨1, 1, .w1c, 0x0⟩, ⟨2, 2, .w1c, 0x0⟩, ⟨3, 3, .w1c, 0x0⟩]⟩
  , ⟨0x2000, [], .d, [⟨15, 0, .rw, 0x0⟩]⟩
  , ⟨0x2004, [], .d, [⟨15, 0, .rw, 0x0⟩]⟩
  , ⟨0x2008, [], .d, [⟨15, 0, .ro, 0x0⟩]⟩
  , ⟨0x200C, [], .d, [⟨15, 0, .wo, 0x0⟩]⟩
  , ⟨0x2010, [], .d, [⟨15, 0, .wo, 0x0⟩]⟩
  , ⟨0x2014, [], .d, [⟨31, 0, .rw, 0x0⟩]⟩
  , ⟨0x2018, [], .d, [⟨15, 0, .w1c, 0x0⟩]⟩
  , ⟨0x2800, [], .h, [⟨7, 0, .rw, 0x0⟩, ⟨14, 8, .rw, 0x0⟩, ⟨17, 16, .rw, 0x0⟩, ⟨18, 18, .rw, 0x0⟩]⟩
  , ⟨0x2804, [], .h, [⟨0, 0, .w1s, 0x0⟩]⟩
  , ⟨0x2808, [], .h, [⟨15, 0, .rw, 0x0⟩]⟩
  , ⟨0x280C, [], .h, [⟨0, 0, .ro, 0x0⟩, ⟨1, 1, .w1c, 0x0⟩, ⟨2, 2, .w1c, 0x0⟩, ⟨3, 3, .w1c, 0x0⟩, ⟨4, 4, .w1c, 0x0⟩]⟩
  , ⟨0x3000, [], .s, [⟨0, 0, .ro, 0x0⟩, ⟨1, 1, .ro, 0x0⟩, ⟨2, 2, .w1c, 0x0⟩, ⟨3, 3, .w1c, 0x0⟩]⟩
  , ⟨0x3004, [], .s, [⟨0, 0, .w1s, 0x0⟩, ⟨1, 1, .w1s, 0x0⟩]⟩
  , ⟨0x3008, [], .s, [⟨31, 0, .rc, 0x0⟩]⟩]

end Sys2Proof.Machine
end

