-- ==== Sys2Proof/Config.lean ====
section
/-! DEFINITION. What an implementation of the B9 fixes: the variants (R2), the clocks (R16), the address map
(R21), and the free values: opaque constants and functions of which nothing is known. -/

namespace Sys2Proof

/-- The three variants (R1, R2). -/
inductive Variant
  | umb9480 | umb9440 | umb9420
  deriving DecidableEq, Repr

namespace Config

/-- Sensor ports, image pipelines and Photre encoders of a variant (R2). -/
def ports : Variant → Nat
  | .umb9480 => 4 | .umb9440 => 2 | .umb9420 => 1

/-- Strips of a variant (R2). -/
def strips : Variant → Nat
  | .umb9480 => 8 | .umb9440 => 4 | .umb9420 => 2

/-- Pods of a variant (R2). -/
def pods (v : Variant) : Nat := 16 * strips v

/-- Populated LPDDR5X channels of each controller (R271). -/
def channels : Variant → Nat
  | .umb9480 => 8 | .umb9440 => 4 | .umb9420 => 2

/-- DRAM offset bits N (R271). -/
def dramBits : Variant → Nat
  | .umb9480 => 36 | .umb9440 => 35 | .umb9420 => 34

/-- Installed DRAM in bytes (R271). -/
def dramSize (v : Variant) : Nat := 2 ^ dramBits v

/-- The part number of SYS_ID and IDCODE. -/
def part : Variant → Nat
  | .umb9480 => 0x9480 | .umb9440 => 0x9440 | .umb9420 => 0x9420

/-! Clock periods in picoseconds (R16). -/
def pclk : Nat := 800
def fclk : Nat := 1600
def cclk : Nat := 1000
def bclk : Nat := 4000
def hclk : Nat := 10000
def us : Nat := 1000000
def ms : Nat := 1000000000

/-! The address map (R21). -/
def romBase : Nat := 0x0
def romSize : Nat := 0x40000
def sramBase : Nat := 0x20000000
def sramSize : Nat := 0x2000000
def mramBase : Nat := 0x30000000
def mramSize : Nat := 0x800000
def regBase : Nat := 0x40000000
def regEnd : Nat := 0x80000000
def dramBase : Nat := 0x1000000000
/-- The fault log area of MRAM (R454). -/
def logBase : Nat := 0x30780000

/-! ### Free values. Nothing constrains them; a statement about one holds for every value. -/

/-- The n-th free value of the machine, drawn with `State.fresh`. -/
opaque freeValue : Nat → BitVec 64

/-- The equaliser taps of lane `lane` after it has adapted over one more block: the spec gives the loop and no values
(R56, R57; log 22). -/
opaque adaptTaps : (lane taps : Nat) → Nat

/-- The sprout ROM's contents: mask-programmed, not given by the spec. -/
opaque romByte : Nat → BitVec 8

/-- ECDSA P-384 verification of a digest with a public key and a signature (R398, R467): a standard the spec
cites and does not restate. -/
opaque ecdsaP384 : (key digest sig : List (BitVec 8)) → Bool

/-- SHA-384 (R398). -/
opaque sha384 : List (BitVec 8) → List (BitVec 8)

/-- SHA-256 of a byte string, for identities the spec derives with it. -/
opaque sha256 : List (BitVec 8) → List (BitVec 8)

/-- AES-256-GCM opening of a ciphertext: the plaintext if the tag verifies. -/
opaque aesGcmOpen : (key iv aad cipher tag : List (BitVec 8)) → Option (List (BitVec 8))

/-- A byte of a former check area that nothing has written since (R283): the spec does not give the check code. -/
opaque checkByte : (drawn address : Nat) → BitVec 8

/-- A byte of a frame buffer as its consumer takes it when the read draws an error response (log 37). -/
opaque errorByte : (drawn address : Nat) → BitVec 8

/-- A byte of the SMART log page that the spec gives no value (R317). -/
opaque smartByte : (drawn offset : Nat) → BitVec 8

/-- The 15-bit hash of three bytes by which the pack engine chains positions (R262 does not give it). -/
opaque deflateHash : (a b c : BitVec 8) → Nat

/-- Which of several longest matches the pack engine takes (R262 leaves it open). -/
opaque deflateTie : (position : Nat) → Nat

/-- The header of the dynamic-Huffman form that the pack engine codes for a block after its chunk's history, from HLIT to
the last code length (R262 leaves the choice of the code sets open). Sets that lack a code the block needs give no form. -/
opaque deflateDynamic : (history block : List (BitVec 8)) → (depth : Nat) → List Bool

/-- Which of several smallest forms of a block the pack engine takes (R262 leaves it open). -/
opaque deflatePick : (history block : List (BitVec 8)) → Nat

/-- An element of the H.265 syntax that the encoder's rules leave open (R243). -/
opaque hevcOpen : (element : Nat) → Nat

/-- What the encoder codes for a CTB in skip form (R249), its bits, and the squared differences such CTBs leave in luma
and chroma. -/
opaque skipForm : (drawn ctb : Nat) → List (BitVec 8)
opaque skipBits : (drawn ctb : Nat) → Nat
opaque skipError : (drawn : Nat) → (chroma : Bool) → Nat

/-- A byte of a reference buffer, whose layout is the B9's own (R245). -/
opaque poolByte : (drawn offset : Nat) → BitVec 8

/-- A byte of an on-die table copy that no commit has loaded yet. -/
opaque blankByte : (table offset : Nat) → BitVec 8

/-- The column corrections of a column-trim set (R128): SL20 codes the B9 estimates and never reports. -/
opaque calCorr : (set column : Nat) → BitVec 20

/-- The sensor's column offsets have been stable over the frames learned from (R130; log 27). -/
opaque offsetsStable : (pipeline drawn : Nat) → Bool

/-- The error of the log2 of a table stage in units of 2^-40, limited to 2^-22 where it is used (R148). -/
opaque log2Err : Rat → Int

/-- 2 to a non-integer power in a table stage: units of the last place away from its nearest value. The spec states
the power's exactness for integers only (R148). -/
opaque exp2Err : Rat → Int

/-- The error of a transfer encoder in units of 2^-40, limited to the bound of R152 where it is used. -/
opaque encErr : (mode : Nat) → Rat → Int

/-- A word of a pip's scratch that the tile has not written (R188, R190). -/
opaque scratchWord : (seed address : Nat) → BitVec 32

/-- CVTFI under a modifier the spec does not define (R192). -/
opaque cvtFree : (fn lane : Nat) → BitVec 32

end Config
end Sys2Proof
end

