-- ==== Sys2Proof/WellFormed.lean ====
section
/-! DEFINITION. The operand ranges of the commands: the check every meaning makes before its effect. -/

namespace Sys2Proof

/-- A ring that some variant has (R171, R232, R250). -/
def RingId.wf : RingId → Bool
  | .tap n t => n < 4 && t < 4
  | .branch n b => n < 4 && b < 4
  | .prc n => n < 4
  | .enc c => c < 16

/-- A pip that some variant has (R186). -/
def PipRef.wf (u : PipRef) : Bool := u.pod < 128 && u.pip < 9

/-- A request of at most one burst (R271, R275). -/
def MemReq.wf (q : MemReq) : Bool :=
  q.cls < 16 && 0 < q.len && q.len ≤ 64 && q.addr % 64 + q.len ≤ 64 &&
    (match q.write with
      | some bs => bs.length == q.len
      | none => true)

/-- The command's operands lie in the ranges its rule gives them. -/
def Instr.wf : Instr → Bool
  | .producerFrameStart ring | .frameOffer ring | .consumerRelease ring _ | .consumerDetach ring _
  | .ringBufsWrite _ ring _ => ring.wf
  | .ringGeometryWrite _ ring which _ =>
    ring.wf && (match ring with
      | .tap _ _ | .branch _ _ => which < 4
      | .prc _ | .enc _ => which < 3)
  | .tapOffer n t => n < 4 && t < 4
  | .evrQbaseWrite _ d _ | .evrQsizeWrite _ d _ | .evrQheadWrite _ d _ => d < 5
  | .trigPulseStart n | .trigPulseEnd n | .setPush _ n _ | .setClose _ n _ | .setWriteSend n | .setLastWrite n
  | .commit _ n _ | .commitCaptureDone n | .tableLoadDone n | .frameEnterUnpack n => n < 4
  | .laneReadapt _ n k | .laneReadmit _ n k | .prbsCntClr _ n k | .marginGo _ n k _ | .marginDone n k _
  | .prbsCheck n k _ => n < 4 && k < 12
  | .blockReceived n k _ _ => n < 4 && k < 12
  | .alignColumn n seen => n < 4 && seen.length == 12
  | .unknownControlBlock n col | .sofReceived _ n col | .eofReceived _ n col => n < 4 && col.length == 12
  | .deskewWindowEnd n | .laneJudgeInterval n | .jvChgGo _ n _ | .mapCmdSend n | .mapTimeout n
  | .jvEnable _ n _ | .jvRateWrite _ n _ | .rateSwitch n => n < 4
  | .portEnable _ n _ | .portDisable _ n _ | .portRun _ n _ | .portStop _ n _ | .frameSizeWrite _ n _
  | .rowTimeout n | .xclkCfgWrite _ n _
  | .xclkEnable _ n _ | .syncEdge _ n _ | .ibi n _ | .busTransferStart n | .busTransferDone n _ _ | .dirRead _ n _
  | .dirWrite _ n _ => n < 4
  | .lineReceived _ n l => n < 4 && l.sol.length == 12 && l.eol.length == 12 && l.data.all (fun c => c.length == 12)
  | .csiFrameStart _ n vc _ _ | .csiFrameEnd _ n vc _ | .csiLineStart n vc _ _ => n < 4 && vc < 32
  | .csiLongPacket _ n pkt => n < 4 && pkt.vc < 32 && pkt.dtype < 64
  | .groupVerdict g rfn => g < 4 && rfn < 2 ^ 32
  | .rowEnterPipeline n | .calClear _ n _ | .tableReload n | .statsReady n | .lumaReady n => n < 4
  | .tileDispatch j | .packageLoad j | .packageLoadDone j => j < 8
  | .vnop u _ | .fadd u _ | .fsub u _ | .fmul u _ | .fma u _ | .fmin u _ | .fmax u _ | .fabs u _ | .fneg u _ | .frcp u _
  | .flog2 u _ | .fexp2 u _ | .fcmplt u _ | .fcmple u _ | .fcmpeq u _ | .fsel u _ | .iadd u _ | .isub u _ | .imul u _
  | .imin u _ | .imax u _ | .vand u _ | .vor u _ | .vxor u _ | .vshl u _ | .vshr u _ | .vsra u _ | .icmplt u _
  | .icmpeq u _ | .cvtfi u _ | .cvtif u _ | .vmov u _ | .vsplat u _ | .vimm u _ | .vimmh u _ | .vswz u _ | .lut u _
  | .nop u _ | .vld u _ | .vst u _ | .ldw u _ | .stw u _ | .sadd u _ | .ssub u _ | .smul u _ | .sand u _ | .sor u _
  | .sxor u _ | .sshl u _ | .sshr u _ | .ssra u _ | .slt u _ | .addi u _ | .li u _ | .lui u _ | .vget u _ | .vput u _
  | .br u _ | .beq u _ | .bne u _ | .blt u _ | .bany u _ | .ball u _ | .pipEnd u _ => u.wf
  | .signatureTest u | .signatureTestDone u _ | .tileWatchdog u | .readmitTest u _ => u.wf
  | .podMemoryReload p => p < 128
  | .prcEnable _ n _ | .prcApply _ n _ | .prcFrameStart n | .slabCoded n | .prcFrameDone n => n < 4
  | .encApply _ c _ | .idrRequest _ c _ | .ltMark _ c _ | .ltDrop _ c _ => c < 16
  | .dpbRelease _ d _ => d < 16
  | .pkeGo _ c _ | .pkeBlock c _ | .pkeResume _ c _ | .pkeAbort _ c _ => c < 2
  | .refreshInterval m ch | .trainDone m ch _ _ | .trackingUpdate m ch _ _ | .perBankRefresh m ch _ => m < 4 && ch < 8
  | .mr4Read m codes => m < 4 && codes.length ≤ 8 && codes.all (· < 32)
  | .trainGo _ m _ => m < 4
  | .eccRegionEnable _ k _ | .eccFillDone k => k < 8
  | .dramRequest reqs => reqs.all MemReq.wf
  | .memoryAccess _ _ len write _ => 0 < len && (match write with
      | some bs => bs.length == len
      | none => true)
  | .memberAttach _ m _ | .attachComplete m _ | .memberDetach _ m _ | .memberReadmit _ m _ | .nvmeCompletion m _ _
  | .nvmeTimeout m _ | .rootPortLinkDown m | .memberLinkReturn m _ _ => m < 4
  | .clipOpen _ k _ | .streamFrame k | .grantPush _ k _ | .frameCommit k | .clipClose _ k _ | .clipClosed k
  | .splitRewrite k => k < 8
  | .volOpen _ v _ | .volFormat _ v _ | .volClose _ v _ => v < 4
  | .ctrlEnable a c => 2 ≤ a && a ≤ 4096 && 2 ≤ c && c ≤ 4096
  | .namespaceActivate v | .journalReplay v => v < 4
  | .audioRunStart _ n _ | .audioRunStop _ n _ | .audioStopped n | .sampleFrame n _ _ | .slaveSampleRx n _ _
  | .maskWrite _ n _ | .maskApply n => n < 4
  | .txFrame m _ | .rxFrame _ m _ _ _ _ | .txtsPop _ m | .mdio _ m _ _ | .netLinkChange m _ => m < 2
  | .netStreamEnable _ s _ | .streamFrameSelect s | .streamPacket s => s < 8
  | .hallEdge _ c _ _ | .indexEdge _ c _ _ | .posWrite _ c _ | .speedWindow c | .faultInput c _ | .phaseWindowClose c => c < 4
  | .lineTrigger _ n _ | .ssRowTimeout n | .outputLineComplete n _ => n < 4
  | .gpioEdge _ i _ => i < 16
  | .overlayCommit n => n < 4
  | .overlayApply n => n < 4
  | .vote _ c _ => c < 7
  | .domainPowerDownStart d | .domainOn d _ | .quiesceTimeout d | .domainOff d | .padHeld d | .accessHoldEnd d => d < 31
  | .wake source => source < 5
  | .thermalFastSample s _ => s < 16
  | .thermalSlowRound rs vs _ => rs.length == 16 && vs.length == 32
  | .injArm _ k _ | .injDisarm _ k _ | .monitorInj k _ _ _ => k < 4
  | .unlock key sig => key.length == 96 && sig.length == 96
  | .registerWrite _ _ _ | .rcRead _ _ | .loReadLatch _ _ | .accessError _ _ _ _ | .pllLocked | .referenceLost
  | .eventRaised | .refEnable _ _ | .refDisable _ _ | .refRateWrite _ _ _ | .refRfnWrite _ _ | .refTick
  | .refVEdge _ _ | .refEdgeTimeout | .pipReadmit _ _ | .prdGo _ _ | .prdJobDone | .pictureStart | .pictureDone _
  | .decSubmit _ _ | .decJobStart | .decJobDone _ | .decCtbWatchdog _ _ | .memMapApply _ _ | .memEnable _ _
  | .eccReread _ _ | .oepLinkUp _ _ | .oepLinkDown | .ctrlReset _ | .ctrlResetDone | .sqDoorbell _ _
  | .cqDoorbell _ _ | .commandFetch _ _ _ | .identify _ _ | .getLogPage _ _ | .createIoCq _ _ | .deleteIoCq _ _
  | .createIoSq _ _ | .deleteIoSq _ _ | .abort _ _ | .getFeatures _ _ | .setFeatures _ _
  | .asynchronousEventRequest _ _ | .nvmRead _ _ | .nvmWrite _ _ | .flush _ _ | .writeZeroes _ _
  | .datasetManagement _ _ | .lockGrant | .scoEnable _ _ | .scoDisable _ _ | .rasterFrameStart | .rasterLine
  | .lineUnderrun _ _ | .tsuIncrCommit _ _ | .tsuSet _ _ | .tsuStep _ _ | .tsuSecond | .por | .coldBoot _ _
  | .warmBoot _ _ | .xspiRead _ _ | .xspiDone | .gpioSet _ _ | .gpioClr _ _ | .overlayRequest _ _ | .modeChange _
  | .bootLock _ _ | .warmInvalidate _ _ | .otpProgram _ _ | .otpDone | .ctlSpiWrite _ _ | .ctlSpiRead _ _
  | .ctlSpiStatus | .ctlSpiDoorbell | .ctlSpiAck | .ctlSpiUnknown _ | .mboxInClear _ _ | .mboxPost _ _
  | .offDomainAccess _ _ _ | .padRelease _ _ | .sleepGo _ _ | .sleepQuiesceDone | .sleepDramIdle | .clockSwitch _ _
  | .hardReset _ | .softReset _ _ | .wdtKick _ _ | .wdtExpired | .avsInterval _ _ _ _ | .pmbTransaction _ _
  | .pmbDone _ | .pmbAlert | .sensorReadmit _ _ | .t3GraceExpired | .forcedSleep | .rateInterval | .faultLogWrite
  | .logClear _ _ | .autobaud _ _ | .monitorSyntaxError | .monitorRead _ _ | .monitorWriteWord _ _ | .monitorDump _ _
  | .monitorFill _ _ _ | .monitorCnt _ | .monitorLog _ | .monitorLogClear | .monitorClk | .monitorVote _
  | .monitorReadmit _ _ | .bootRetry _ _ | .bootRecover _ _ _ | .recoverTimeout | .monitorResetSoft | .monitorResetHard
  | .challenge _ | .help | .bypass | .idcode | .samplePreload _ _ | .extest | .jtagDebug | .timeCounterParity => true

end Sys2Proof
end

