-- ==== Sys2Proof/Machine/Units.lean ====
section
/-! DEFINITION. The state of each unit that no register shows: what is queued, open, pending or due. Instants are
picoseconds of `State.now`. Sparse maps are lists of (index, value) pairs in rising index. -/

namespace Sys2Proof.Machine

/-- An instant in time-unit time (R359). -/
structure Stamp where
  sec : Nat := 0
  ns  : Nat := 0
  deriving DecidableEq, Repr

/-- The answer a requester's latest access drew. -/
structure Reply where
  err  : Bool := false
  data : Word := 0
  deriving DecidableEq, Repr

/-! ### Event router, injection and fault log -/

/-- An event on its way to the router: its ID, argument and time-stamp at its edge (R25). -/
structure Ev where
  id  : Nat
  arg : Nat
  t   : Stamp
  deriving DecidableEq, Repr

/-- The event router (R25 to R30): events in flight in arrival order, the next sequence number and the
destinations owed a loss flag. -/
structure EvrSt where
  flight : List Ev := []
  seq    : Nat := 0
  owed   : List Nat := []
  deriving DecidableEq, Repr

/-- An armed injection slot (R447): detector, mode, period, examinations seen, and an injection due. -/
structure InjSlot where
  det  : Nat
  mode : Nat
  n    : Nat
  seen : Nat
  due  : Bool
  deriving DecidableEq, Repr

/-- A rate-judged detector (R452): detections of this interval and of the last, and a judgement standing. -/
structure RateSt where
  cur    : Nat := 0
  prev   : Nat := 0
  judged : Bool := false
  deriving DecidableEq, Repr

/-- A fault-log record waiting to be written (R456, R457). -/
structure LogRec where
  kind : Nat
  det  : Nat
  inj  : Bool
  arg  : Nat
  addr : Nat
  t    : Stamp
  inval : Bool
  deriving DecidableEq, Repr

/-- The ERR block beside its registers. -/
structure ErrSt where
  slots     : List (Nat × InjSlot) := []
  rates     : List (Nat × RateSt) := []
  injRates  : List Nat := []
  pend      : List LogRec := []
  lastTrans : List (Nat × Nat) := []
  suppress  : Nat := 0
  lastTick  : Nat := 0
  deriving DecidableEq, Repr

/-! ### Time unit -/

/-- The TSU (R359 to R363): the running time (the increment in force is in its registers), a staged whole-ns
part, a committed increment, a captured set and a captured step that apply at the next tick. -/
structure TsuSt where
  sec     : Nat := 0
  ns      : Nat := 0
  frac    : Nat := 0
  staged  : Option Nat := none
  newIncr : Option (Nat × Nat) := none
  set     : Option (Nat × Nat) := none
  step    : Option (Int × Int) := none
  deriving DecidableEq, Repr

/-! ### Reference generator -/

/-- A trigger pulse of SPn_TRIG: start and end instants, and the RFN and instant of its tick (R38, R40). -/
structure Pulse where
  start : Nat
  stop  : Nat
  rfn   : Nat
  tick  : Nat
  deriving DecidableEq, Repr

/-- A tick that fell: its instant, RFN and time-unit time; and, at the tick, REF_PERIOD, REF's state, whether a jump or a
schedule step moved it (R379), and the rate (R335). -/
structure Tick where
  at_   : Nat
  rfn   : Nat
  t     : Stamp
  per   : Nat
  st    : Nat
  moved : Bool
  rate  : Nat × Nat := (0, 1)
  deriving DecidableEq, Repr

/-- The reference generator beside its registers. Ideal instants and periods are exact rationals of picoseconds
(R32); under PTP the next tick is the chosen `k`, or is to be chosen from a clock reading in units of 2^-32 ns. The ticks
since REF was last enabled stand apart from those before, the latest first (R40, R358). -/
structure RefSt where
  next      : Option Rat := none
  nextK     : Option Nat := none
  choose    : Option Rat := none
  moved     : Bool := false
  lastAt    : Option Nat := none
  lastIdeal : Option Rat := none
  lastK     : Option Nat := none
  setRfn    : Option Nat := none
  ticks     : List Tick := []
  old       : List Tick := []
  pulses    : List (Nat × List Pulse) := []
  active    : List (Nat × List Pulse) := []
  lastPulse : List (Nat × Nat × Nat) := []
  trigHigh  : List Nat := []
  fHist     : List Bool := []
  edge      : Option Nat := none
  ivs       : List Rat := []
  lockedPer : List Rat := []
  good      : Nat := 0
  bad       : Nat := 0
  held      : Bool := false
  jump      : Bool := false
  lastPer   : Option Rat := none
  watch     : Option Nat := none
  deriving DecidableEq, Repr

/-! ### Power, reset, thermal -/

/-- What the power controller is doing to one domain. -/
inductive PwrJob
  | up | down
  deriving DecidableEq, Repr

/-- Steps of a Sleep entry (R423) or soft reset (R428) in progress. -/
inductive SleepStep
  | none | quiesce | dram
  deriving DecidableEq, Repr

/-- The power controller beside its registers (R416 to R433). Of the AVS engine: what its latest transactions sent on PMBus
(code, address, op, PEC, data) and on AVSBus (mV), the VOUT_MODE it has read since its enable, and the outcomes of an interval
whose transactions wait for the firmware's one to end (R433). -/
structure PwrSt where
  job       : Option (Nat × PwrJob) := none
  jobDue    : Nat := 0
  unwanted  : List (Nat × Nat) := []
  holds     : List (Nat × Nat) := []
  onSince   : List (Nat × Nat) := [(0, 0)]
  padTold   : List Nat := []
  padLevel  : List (Nat × List (Nat × Word)) := []
  offTold   : Option Nat := none
  step      : SleepStep := .none
  soft      : Bool := false
  thermal   : Bool := false
  stepDue   : Nat := 0
  wakeHeld  : Option Nat := none
  t3At      : Option Nat := none
  t3Grace   : Option Nat := none
  wdtDue    : Nat := 0
  wdtHalf   : Bool := false
  wdtFired  : Option Nat := none
  avsPass   : Nat := 0
  avsDead   : Bool := false
  avsSent   : List (Nat × Nat × Nat × Bool × Nat) := []
  avsBus    : List Nat := []
  avsMode   : Option Nat := none
  avsWait   : Option (Bool × List (Option Nat) × List Bool) := none
  pmbBusy   : Option (Nat × Nat × Nat × Bool × Nat) := none
  aonBase   : Nat := 0
  aonAt     : Nat := 0
  pllLocked : Bool := false
  pllDue    : Option Nat := some 100000000
  clkLost   : Bool := false
  testHold  : Bool := false
  bootDue   : Bool := true
  bootWarm  : Bool := false
  selfRef   : List Nat := []
  deriving DecidableEq, Repr

/-- One junction sensor (R434 to R436): readings since power-on, the run of equal raw codes, the run of good
readings after a readmission. -/
structure SensSt where
  last   : Int := 0
  same   : Nat := 0
  seen   : Bool := false
  good   : Nat := 0
  readm  : Bool := false
  deriving DecidableEq, Repr

/-- The thermal block beside its registers. -/
structure ThmSt where
  sens     : List (Nat × SensSt) := []
  vmonBad  : List Nat := []
  trimBad  : Nat := 0
  lowTold  : Bool := false
  t2Told   : List Nat := []
  slowDue  : Nat := 0
  fastDue  : List (Nat × Nat) := []
  deriving DecidableEq, Repr

/-! ### Memory controllers -/

/-- The memory subsystem beside its registers: the mask set in force (R274), refresh debts (R278), a REFpb
rotation, the MR4 codes read and those that the intervals now running began with (R279), a training run, the fills and re-reads outstanding, the latest answer with the requester class, hint
and place of the latest burst, and the open rows by channel × 16 + bank: row, hint, instant of the last hit (R275). By
channel: the data cycles of its microsecond (which one, bulk, all; R276) and the instants of the latest tREFI and tracking
update (R278, R282); by controller the latest MR4 reading (R279). Then the channels that owe a tracking update after
self-refresh (R282), what the latest scheduled requests drew, in the order they were served (R276), and the former check
areas that nothing has written since (R283): from, to, and which free values they hold. -/
structure MemSt where
  chMask   : List Nat := []
  bkMask   : List Nat := []
  debt     : List (Nat × Int) := []
  rota     : List (Nat × Nat) := []
  codes    : List (Nat × Nat) := []
  rate     : List (Nat × Nat) := []
  training : List (Nat × List Nat) := []
  fills    : List Nat := []
  reread   : List (Nat × Bool) := []
  lastReply : Reply := {}
  lastData : List Byte := []
  hint     : Nat := 0
  place    : Nat × Nat × Nat × Nat := (0, 0, 0, 0)
  rows     : List (Nat × Nat × Nat × Nat) := []
  cls      : Nat := 0
  qos      : List (Nat × Nat × Nat × Nat) := []
  refAt    : List (Nat × Nat) := []
  trackAt  : List (Nat × Nat) := []
  mr4At    : List (Nat × Nat) := []
  owed     : List Nat := []
  served   : List (Nat × Reply × List Byte) := []
  former   : List (Nat × Nat × Nat) := []
  deriving DecidableEq, Repr

/-! ### Frames and frame rings -/

/-- The identity and status a frame carries and every frame derived from it copies (R43, R44), and whether its SID is an
echo (R42). -/
structure FrameInfo where
  pfn      : Nat := 0
  rfn      : Nat := 0
  sid      : Nat := 0
  seq      : Nat := 0
  fsw      : Nat := 0
  rowsRx   : Nat := 0
  rowsCfg  : Nat := 0
  width    : Nat := 0
  height   : Nat := 0
  counter  : Nat := 0
  readouts : Nat := 0
  overlay  : Nat := 0
  sof      : Stamp := {}
  eof      : Stamp := {}
  discarded : Nat := 0
  filled   : Nat := 0
  hist     : Nat := 0
  zone     : Nat := 0
  luma     : Nat := 0
  emb      : Nat := 0
  level    : Nat := 0
  gen      : Nat := 0
  echoed   : Bool := false
  deriving DecidableEq, Repr

/-- The rest of a descriptor: what the producer says of its own buffer (R44). -/
structure BufInfo where
  blk     : Nat := 0
  out     : Nat := 0
  fmt     : Nat := 0
  addr    : Nat := 0
  len     : Nat := 0
  written : Nat := 0
  stride  : Nat := 0
  deriving DecidableEq, Repr

/-- A consumer of a ring: the buffers it holds, oldest first (R13, R15). -/
structure ConsSt where
  id   : ConsumerId
  held : List Nat := []
  deriving DecidableEq, Repr

/-- A frame ring (R11 to R15, R172): the buffer being written, where the next search starts, the consumers, and
the completed frame not yet offered. -/
structure RingSt where
  writing : Option Nat := none
  next    : Nat := 0
  cons    : List ConsSt := []
  ready   : Option (FrameInfo × BufInfo) := none
  deriving DecidableEq, Repr

/-! ### Sensor ports -/

/-- The pixel codes of one line; `none` is a pixel the port fills. -/
abbrev Codes := List (Option Nat)

/-- What crosses from a port into its pipeline (R101): a frame's start, a row with what each readout delivered, the
mark after which a truncated frame's rows are filled at its close, and its end with the frame's final identity and
status. -/
inductive RowItem
  | start (i : FrameInfo) (depth fillMode fillVal readouts : Nat)
  | row (data : List (Option Codes)) (filled : Bool)
  | cut
  | stop (i : FrameInfo) (truncated : Bool)
  deriving DecidableEq, Repr

/-- What a port notes of a frame beside its rows (R42, R90, R101): the slot of its embedded bytes, those so far, how many
came, whether an echo was taken, whether its FIFO overflow was told, and whether a byte failed to be stored. -/
structure Side where
  slot   : Option Nat := none
  emb    : List (Option Byte) := []
  embLen : Nat := 0
  echoed : Bool := false
  ovf    : Bool := false
  embBad : Bool := false
  deriving DecidableEq, Repr

/-- The frame a port is receiving (R95 to R100): its size and format, what each readout has passed, the lines held
until a row is whole, and what it notes beside them. -/
structure OpenSt where
  info     : FrameInfo
  w        : Nat
  h        : Nat
  readouts : Nat
  dtype    : Nat
  withheld : Bool := false
  next     : List Nat := []
  lines    : List (Nat × List (Nat × Codes)) := []
  out      : Nat := 0
  side     : Side := {}
  begun    : List Nat := []
  ended    : List Nat := []
  vcLines  : List (Nat × Nat) := []
  seen     : Nat := 0
  deriving DecidableEq, Repr

/-- A transfer on the sensor bus (R108): kind 0 link command, 1 settings, 2 direct. `stop` marks the last write of a
set and the apply write of a link command, `rate` those of a RATE command; `from_` the PFN in whose window it started; `again` a retry. -/
structure Xfer where
  kind  : Nat
  addr  : Nat
  reg   : Nat
  bytes : List Byte
  rd    : Bool := false
  stop  : Bool := false
  rate  : Bool := false
  from_ : Nat := 0
  again : Bool := false
  deriving DecidableEq, Repr

/-- A closed settings set: its writes still to send, SID, target and place in the order of acceptance. -/
structure SetQ where
  writes : List Word
  sid    : Nat
  target : Nat
  no     : Nat
  deriving DecidableEq, Repr

/-- The settings sequencer (R46 to R51): the set being built, the closed sets, the target the next is checked against,
the sets sent with the PFN each is in force from, the sets accepted and not yet in force, the expectation, and whether the
latest frame to start took an echo instead. -/
structure SetSt where
  build : List Word := []
  sets  : List SetQ := []
  count : Nat := 0
  prev  : Option Nat := none
  effs  : List (Nat × Nat × Nat) := []
  want  : List (Nat × Nat) := []
  sid   : Nat := 0
  echo  : Bool := false
  deriving DecidableEq, Repr

/-- One PRBS checker (R79): the bits received last, newest first, the run of error-free bits, and when in sync the
sequence it runs and the places of the errors in the last 256 bits. -/
structure PrbsSt where
  hist : List Bool := []
  run  : Nat := 0
  seq  : List Bool := []
  pos  : Nat := 0
  errs : List Nat := []
  deriving DecidableEq, Repr

/-- One Javel lane receiver (R57 to R75) beside its registers: among the rest the block last handed to bonding (`none`
is an errored block), the elastic buffer of 32 blocks, the latest first (R70), whether an injected error spoilt a block that
no column has shown yet, the taps, the bit position of its block boundary, and by how many blocks its read point holds the
lane back. -/
structure LaneSt where
  valid   : Nat := 0
  blk     : Nat := 0
  bad     : List Nat := []
  hist    : BitVec 58 := 0
  out     : Option (Bool × BitVec 64) := none
  buf     : List (Option Block) := []
  spoilt  : Bool := false
  taps    : Nat := 0
  slip    : Nat := 0
  read    : Nat := 0
  lockAt  : Option Nat := none
  alignAt : Option Nat := none
  errs    : Nat := 0
  det     : Nat := 0x10
  inj     : Bool := false
  retryAt : Option Nat := none
  okAt    : Option Nat := none
  readmit : Option Nat := none
  fenced  : Bool := false
  prbs    : PrbsSt := {}
  margin  : Option Nat := none
  deriving DecidableEq, Repr

/-- A lane-map change in progress (R76): the new map and spare, its generation, whether the apply write has ended, the
frames since, and whether MAP_TIMEOUT has been raised. -/
structure MapChg where
  map    : List Nat
  spare  : Option Nat
  gen    : Nat
  sent   : Bool := false
  frames : Nat := 0
  told   : Bool := false
  deriving DecidableEq, Repr

/-- A port's Javel receiver (R61, R70 to R78): the map and spare in force, the lane rate in force, the rate switches on
their way, the column sequence, an open deskew window, failed attempts in a row, the change in progress, the lanes that died
meanwhile, the end of the last judging interval, and whether the next frame to open is the first on a new map. -/
structure JvSt where
  map    : List Nat := []
  spare  : Option Nat := none
  rate   : Nat := 2
  newRate : List (Nat × Option Nat) := []
  seq    : Nat := 0
  win    : Option (Nat × List Nat × Nat) := none
  fails  : Nat := 0
  chg    : Option MapChg := none
  dead   : List Nat := []
  tick   : Nat := 0
  owed   : Bool := false
  deriving DecidableEq, Repr

/-- A fired line of strip-scan (R383): its pulse number, instant, and per colour row what arrived; an entry of `none`
was filled. `bad` lists the colour rows whose delay buffer failed (R391). -/
structure SsLine where
  num  : Nat
  at_  : Nat
  rows : List (Nat × Option (List Nat)) := []
  crc  : Bool := false
  bad  : List Nat := []
  deriving DecidableEq, Repr

/-- A strip open (R386, R387): its identity, its delay set, the output lines done, the rows a PLANAR strip holds, its
pixel depth, and its fill mode and value. -/
structure StripSt where
  info  : FrameInfo
  dly   : List (Nat × Nat)
  side  : Side := {}
  withheld : Bool := false
  done  : Nat := 0
  rows  : List (Nat × Codes × Bool) := []
  depth : Nat := 12
  fill  : Nat × Nat := (0, 0)
  deriving DecidableEq, Repr

/-- Strip-scan of a port (R381 to R390): lines created with the pulse each takes its rows from and whether it repeats,
fired lines kept, the strips open, the pacer, and whether the configuration was in error when run last rose. -/
structure SsSt where
  bad     : Bool := false
  made    : Nat := 0
  src     : List (Nat × Option Nat × Bool) := []
  pulses  : Nat := 0
  fired   : List (Nat × SsLine) := []
  strips  : List StripSt := []
  outLine : Nat := 0
  last    : Option Nat := none
  misses  : Nat := 0
  acc     : Int := 0
  deriving DecidableEq, Repr

/-- A sensor port beside its registers. -/
structure PortSt where
  nextPfn : Nat := 0
  frame   : Option OpenSt := none
  fifo    : List RowItem := []
  sets    : SetSt := {}
  busRun  : Option Xfer := none
  busAgain : Option Xfer := none
  mapQ    : List Xfer := []
  dirQ    : Option Xfer := none
  opened  : List Nat := []
  units   : Nat := 0
  lineNo  : List (Nat × Nat) := []
  xclk    : Option (Nat × Nat) := none
  jv      : JvSt := {}
  lanes   : List (Nat × LaneSt) := []
  ss      : SsSt := {}
  deriving DecidableEq, Repr

/-! ### Image pipelines -/

/-- An on-die table copy (R155, R156): its version, the buffer it was loaded from, the non-zero bytes there, and as masks
of its parts (a readout's or a channel's table each) which are table errors (R149) and which a parity error has replaced
(R159). -/
structure Tab where
  ver   : Nat := 0
  at_   : Nat := 0
  cells : List Host.Cell := []
  bad   : Nat := 0
  dead  : Nat := 0
  deriving DecidableEq, Repr

/-- A pending commit (R53, R54, R155 to R157): target, sequence number, changed groups, captured registers, groups
still to load, the tables loaded, and whether its capture runs, its loads made it wait, and its branches' errors told. -/
structure IpCommit where
  target    : Nat
  seq       : Nat
  mask      : Nat
  regs      : List (Nat × Word)
  todo      : List Nat
  tabs      : List (Nat × Tab) := []
  capturing : Bool := true
  waited    : Bool := false
  told      : Nat := 0
  gate      : Bool := false
  deriving DecidableEq, Repr

/-- An RGB pixel of SL20 codes. -/
abbrev Px := Nat × Nat × Nat

/-- A frame in a pipeline with the parameters and tables it runs under. `stage` is 0 while rows arrive, 1 at the
scene slot, 2 at the look slot, 3 past the branches. `bufs` lists per producer the buffer taken and whether its data
is complete; producers are numbered as in `ringNo`. `prog` gives each pip slot
with a program the program's number. -/
structure IpFrame where
  info     : FrameInfo
  depth    : Nat
  fillMode : Nat
  fillVal  : Nat
  readouts : Nat
  par      : List (Nat × Word)
  tabs     : List (Nat × Tab)
  seq      : Nat
  fsw      : Nat := 0
  bcrc     : Nat := 0
  news     : Nat := 0
  prog     : List (Nat × Nat) := []
  stage    : Nat := 0
  closed   : Bool := false
  cut      : Bool := false
  y        : Nat := 0
  plane    : Array (Array Nat) := #[]
  rgb      : Array (Array Px) := #[]
  filled   : List Nat := []
  present  : Nat := 15
  degraded : Bool := false
  learn    : Bool := false
  failed   : List (Nat × Nat × Nat) := []
  obSum    : List (Nat × Rat × Nat) := []
  calOn    : Bool := false
  calSet   : Option Nat := none
  started  : List Nat := []
  bufs     : List (Nat × Nat × Bool) := []
  statsDue : Bool := false
  suspect  : Bool := false
  lumaDue  : Option (Nat × List (Nat × Nat) × Nat × Nat) := none
  deriving DecidableEq, Repr

/-- An image pipeline beside its registers (R53 to R55, R126 to R130, R155 to R159). -/
structure IpSt where
  frames   : List IpFrame := []
  commits  : List IpCommit := []
  tabs     : List (Nat × Tab) := []
  touched  : Nat := 0
  dueAt    : Nat := 0
  ver      : Nat := 0
  told     : Nat := 0
  seq      : Nat := 0
  direct   : Nat := 0
  ob       : List (Nat × Nat) := []
  last     : Option (Nat × Nat × Nat × Word × Word) := none
  calSet   : Option Nat := none
  calLearn : Nat := 0
  calSeen  : Nat := 0
  calClear : Bool := false
  calAge   : Nat := 0
  progs    : List (Nat × Nat) := []
  progNext : Option (Nat × List (Nat × Nat)) := none
  deriving DecidableEq, Repr

/-! ### Pips -/

/-- A table descriptor of a pod's LUT unit (R197). -/
structure LutDesc where
  base : Nat
  n    : Nat
  log2 : Bool
  d0   : Nat
  d1   : Nat
  deriving DecidableEq, Repr

/-- A pip program package (R202): its number, declared cycles, halo, bytes of program data and of the pod image,
bundles, and by word the data and the image. -/
structure Pkg where
  gen  : Nat := 0
  c    : Nat := 0
  halo : Nat := 0
  nd   : Nat := 0
  np   : Nat := 0
  code : List (BitVec 64) := []
  data : List (Nat × Word) := []
  pod  : List (Nat × Word) := []
  luts : List LutDesc := []
  deriving DecidableEq, Repr

/-- What slot A of the bundle in issue will write: nothing, lanes of a vector register usable `lat` bundles on, or
bits of a predicate register. -/
inductive AWrite
  | none
  | vec (vd : Nat) (lanes : List (Option Word)) (lat : Nat)
  | pred (p : Nat) (bits : List (Option Bool))
  deriving DecidableEq, Repr

/-- A tile in a pip (R199, R200): its number, input buffer, epoch and slot. -/
structure TileIn where
  tile  : Nat
  buf   : Nat
  epoch : Nat
  slot  : Nat
  deriving DecidableEq, Repr

/-- A tile running on a pip (R190, R195): the bundle address, cycles so far, registers, when pending results land
(vector register r at r, scalar register r at 32 + r), what slot A of this bundle will write, and scratch. -/
structure PipRun where
  t       : TileIn
  pc      : Nat := 0
  cycle   : Nat := 0
  v       : List (Nat × List Word) := []
  s       : List (Nat × Word) := []
  p       : List (Nat × Nat) := []
  ready   : List (Nat × Nat) := []
  a       : Option AWrite := none
  scratch : List (Nat × Word) := []
  seed    : Nat := 0
  deriving DecidableEq, Repr

/-- A pip (R186 to R212): the tiles it runs and holds, its local words, a signature test under way with the tile a
fault stopped, whether the first detection was an injection, a re-admission step, and whether a result was discarded
since its retirement. -/
structure PipSt where
  run     : Option PipRun := none
  wait    : Option TileIn := none
  mem     : List (Nat × Word) := []
  nextBuf : Nat := 0
  test    : Option (Nat × Option TileIn) := none
  inj     : Bool := false
  readmit : Nat := 0
  told    : Bool := false
  deriving DecidableEq, Repr

/-- A pod's shared memories (R188, R197, R207): the program loaded, the pod memory by word, and a parity error standing
until the reload, and the latest taking of the spare: its instant, the position and the pip. -/
structure PodSt where
  pkg  : Pkg := {}
  mem  : List (Nat × Word) := []
  bad  : Bool := false
  next : Nat := 0
  took : Option (Nat × Nat × Nat) := none
  deriving DecidableEq, Repr

/-- A pip slot (R199 to R205): its pods in force, the program loaded, programs waiting, the load that runs, the frame
being cut into tiles, the tiles dispatched, left, re-run and to be re-dispatched, the result, and the package address
and pods that were judged last. -/
structure SlotSt where
  pods    : List Nat := []
  loaded  : Nat := 0
  queue   : List Pkg := []
  loading : Option Pkg := none
  pfn     : Option Nat := none
  next    : Nat := 0
  left    : List Nat := []
  rerun   : List Nat := []
  redo    : List (Nat × Nat × Nat) := []
  out     : Array (Array Px) := #[]
  told    : Bool := false
  gens    : Nat := 0
  judged  : Option (Nat × List (Nat × Bool)) := none
  deriving DecidableEq, Repr

/-- A frame that a tap hands to its Photre encoder (R175): T3's pixels are three codes each. -/
structure PrcFeed where
  info  : FrameInfo
  tap   : Nat
  depth : Nat
  cfa   : Nat := 0
  readout : Nat := 0
  rows  : Array (Array Nat) := #[]
  final : Bool := false
  deriving DecidableEq, Repr

/-! ### Photre -/

/-- A frame being coded (R230, R233): its samples' kind and depth, the mode, the ring buffer, the slabs so far as
(type, q, forced, bytes), the bytes and costs remaining, the husk run's start and the costs measured. -/
structure PrcCur where
  coding : Bool := false
  buf    : Nat := 0
  const  : Bool := false
  mono   : Bool := false
  qmax   : Nat := 15
  budget : Nat := 0
  costs  : List Nat := []
  slabs  : List (Nat × Nat × Bool × Nat) := []
  rem    : Nat := 0
  crem   : Nat := 0
  first  : Option Nat := none
  next   : List Nat := []
  fsw    : Nat := 0
  deriving DecidableEq, Repr

/-- A Photre encoder (R229, R234, R235): its cost map with what it was made for, an apply waiting for a frame start,
and the frame at hand. -/
structure PrcSt where
  map   : Option ((Nat × Nat × Nat × Nat × Bool) × List Nat) := none
  cap   : Option (List (Nat × Word)) := none
  told  : Bool := false
  cur   : Option PrcCur := none
  deriving DecidableEq, Repr

/-! ### H.265 -/

/-- A short-term reference set: the POC distances before and after, nearest first, and whether each is used. -/
structure HevcRps where
  s0 : List (Int × Bool) := []
  s1 : List (Int × Bool) := []
  deriving DecidableEq, Repr

/-- What the decoder keeps of a sequence parameter set: profile, compatibility and constraint flags, level, chroma
format, coded size, conformance window in chroma units, depths, bits of a POC, log2 of the CTB size, buffering, and
what slice headers need. -/
structure HevcSps where
  prof    : Nat × Nat × Nat
  level   : Nat
  chroma  : Nat
  planes  : Bool
  w       : Nat
  h       : Nat
  win     : List Nat
  depthY  : Nat
  depthC  : Nat
  lsb     : Nat
  ctb     : Nat
  dpb     : Nat
  reorder : Nat
  latency : Option Nat
  sao     : Bool
  sets    : List HevcRps
  long    : Bool
  lts     : List (Nat × Bool)
  tmvp    : Bool
  deriving DecidableEq, Repr

/-- What the decoder keeps of a picture parameter set. -/
structure HevcPps where
  sps     : Nat
  dep     : Bool
  out     : Bool
  extra   : Nat
  n0      : Nat
  n1      : Nat
  mods    : Bool
  cols    : Nat
  rows    : Nat
  uniform : Bool
  colW    : List Nat
  rowH    : List Nat
  deriving DecidableEq, Repr

/-- A long-term reference of a slice header. -/
structure HevcLong where
  lsb   : Nat
  used  : Bool
  msb   : Bool
  cycle : Nat
  deriving DecidableEq, Repr

/-- A slice segment header: NAL type, first of its picture, no output of prior pictures, parameter set, dependent,
address of its first CTB, kind (0 B, 1 P, 2 I), output flag, POC bits, reference sets, active list lengths, and the
first entry of RefPicList0. -/
structure HevcSlice where
  nal   : Nat
  first : Bool
  prior : Bool
  pps   : Nat
  dep   : Bool
  addr  : Nat
  kind  : Nat := 2
  shown : Bool := true
  lsb   : Nat := 0
  rps   : HevcRps := {}
  lts   : List HevcLong := []
  n0    : Nat := 0
  n1    : Nat := 0
  entry : Nat := 0
  deriving DecidableEq, Repr

/-- A reference picture of an encoder context: its pool buffer, LONG or SHORT, and its POC (R245). -/
structure EcPic where
  buf  : Nat
  long : Bool
  poc  : Nat
  deriving DecidableEq, Repr

/-- A picture in a decoder's DPB table: its entry and POC, a reference (long-term or not), waiting for output and for
how many pictures, and what concealment it carries (R254, R258). -/
structure DecPic where
  e      : Nat
  poc    : Int
  long   : Bool := false
  ref    : Bool := true
  wait   : Bool := false
  age    : Nat := 0
  direct : Bool := false
  inher  : Bool := false
  deriving DecidableEq, Repr

/-- A picture being coded (R245 to R252): context, input ring and buffer with its identity, pool buffer and mark, IDR
causes (0 for a P picture), QPs, search inputs, POC, the pictures a P picture predicts from, profile, level and
limits, the VUI, and the samples coded. -/
structure HvcCur where
  ctx    : Nat
  ring   : RingId
  buf    : Nat
  info   : FrameInfo
  pool   : Nat
  long   : Bool
  causes : Nat
  qp     : Nat
  qps    : List Nat
  gmv    : Nat
  range  : Nat
  poc    : Nat
  refs   : List EcPic
  prof   : Nat
  level  : Nat
  st     : Nat
  lt     : Nat
  vui    : Nat × Nat × Nat × Bool
  planes : List (List (List Nat))
  deriving DecidableEq, Repr

/-- An encoder context beside its registers: an apply waiting, the ring attached, a configuration error standing, the
reference pictures oldest first, and what the next picture's type depends on (R245, R246). -/
structure EcSt where
  cap    : Option (List (Nat × Word)) := none
  ring   : Option RingId := none
  bad    : Bool := false
  pics   : List EcPic := []
  fresh  : Bool := true
  size   : Nat × Nat := (0, 0)
  since  : Nat := 0
  poc    : Nat := 0
  parity : Bool := false
  deriving DecidableEq, Repr

/-- A decode job (R253). -/
structure DecJob where
  d     : Nat
  addr  : Nat
  len   : Nat
  tag   : Nat
  sound : Bool
  deriving DecidableEq, Repr

/-- A decoder context (R253, R254, R258): the parameter sets received, the pictures that are references or wait for
output, the entries due for output and those held, the POC the next one follows, and whether a picture came since the
new stream and its leading pictures are left out. -/
structure DecSt where
  sps   : List (Nat × HevcSps) := []
  pps   : List (Nat × HevcPps) := []
  pics  : List DecPic := []
  due   : List Nat := []
  held  : List Nat := []
  prev  : Int := 0
  begun : Bool := false
  rasl  : Bool := false
  deriving DecidableEq, Repr

/-- The H.265 block: the picture being coded, the context served last, the contexts, the job that runs, and when the picture
and the job began. -/
structure HvcSt where
  cur  : Option HvcCur := none
  last : Nat := 15
  ecs  : List (Nat × EcSt) := []
  job  : Option DecJob := none
  dcs  : List (Nat × DecSt) := []
  encAt : Nat := 0
  decAt : Nat := 0
  deriving DecidableEq, Repr

/-! ### Pack engine -/

/-- What a channel still has to put out, in order: a stream byte, an index word, IN_DONE reaching a count, the end of
the job with its cause (0: complete) and whether input trails. -/
inductive PkeItem
  | byte (b : Byte)
  | index (v : Nat)
  | done (n : Nat)
  | fin (cause : Nat) (trailing : Bool)
  deriving DecidableEq, Repr

/-- A job of a channel (R260 to R268): its registers at its start; the input position (bits in an unpack job); stream
bytes made; bits not yet a byte and the count they complete; the chunk or window so far, newest first; the row before;
the group before with its count and sum; a residue header's element count; output queued; what filled up. -/
structure PkeJob where
  unpack : Bool
  resid  : Bool
  src    : Nat
  len    : Nat
  dst    : Nat
  dlen   : Nat
  idx    : Nat
  ilen   : Nat
  chunk  : Nat
  depth  : Nat
  w      : Nat
  row    : Nat
  pos    : Nat := 0
  made   : Nat := 0
  bits   : List Bool := []
  mark   : Nat := 0
  hist   : List Byte := []
  prev   : Option (List Nat) := none
  grp    : Nat × Nat := (0, 0)
  count  : Nat := 0
  begun  : Bool := false
  queue  : List PkeItem := []
  outAt  : Nat := 0
  idxAt  : Nat := 0
  outOld : Nat := 0
  full   : Nat := 0
  deriving DecidableEq, Repr

/-- The pack engine: its jobs by channel, the channel served last, and the end of the pause after its last block (R261,
R441). -/
structure PkeSt where
  jobs : List (Nat × PkeJob) := []
  last : Option Nat := none
  free : Nat := 0
  deriving DecidableEq, Repr

/-! ### Record media (chapter 13) -/

/-- What an NVMe I/O command does to a member: a write's bytes are its non-zero ones, by byte offset from its first
block. -/
inductive NvOp
  | write (block blocks : Nat) (cells : List Host.Cell)
  | read (block blocks : Nat)
  | dealloc (block blocks : Nat)
  deriving DecidableEq, Repr

/-- Who waits for a member command: a metadata task, a stream's frame or index block, a host command. -/
inductive RmOwner
  | task (id : Nat)
  | flight (k no : Nat)
  | host (id : Nat)
  deriving DecidableEq, Repr

/-- A member command not yet completed (R289, R303): its queue pair, retries made, when it times out, the detector of its
failure, whether it is of an old generation, and whether it timed out and was issued anew, though still at the device. -/
structure NvCmd where
  cid   : Nat
  op    : NvOp
  owner : RmOwner
  tries : Nat := 0
  due   : Nat
  det   : Nat := 0
  inj   : Bool := false
  old   : Bool := false
  gone  : Bool := false
  pair  : Nat := 0
  deriving DecidableEq, Repr

/-- A member beside its registers (R286 to R289, R303 to R307): its I/O commands, the next identifier, entries written to
its I/O submission queues together, to each I/O completion queue and to the admin submission queue. -/
structure MbrSt where
  cmds   : List NvCmd := []
  next   : Nat := 0
  subs   : Nat := 0
  uid    : BitVec 64 := 0
  mdts   : Nat := 0
  told   : Bool := false
  linkUp : Bool := false
  readm  : Bool := false
  cqs    : List (Nat × Nat) := []
  asq    : Nat := 0
  deriving DecidableEq, Repr

/-- One step of a metadata task: bytes of the metadata area, a superblock copy, whole blocks at a VBN, or reads of members'
blocks (member, first block, blocks). -/
inductive MetaOp
  | put (off : Nat) (bs : List Byte)
  | sb (copyB : Bool)
  | data (vbn : Nat) (bs : List Byte)
  | reads (l : List (Nat × Nat × Nat))
  deriving DecidableEq, Repr

/-- What follows the last phase of a task. -/
inductive TaskEnd
  | nothing
  | opened (k : Nat)
  | closed (k : Nat)
  | ready (v : Nat) (recovered : Bool)
  | replayed (v n : Nat)
  | split (k : Nat)
  | opening (v : Nat)
  deriving DecidableEq, Repr

/-- A metadata task of a volume (R297): its phases, each begun when the one before is complete, the writes of the
phase at hand not yet complete, and the sequence before its journal records, if it applies any in place. -/
structure RmTask where
  vol    : Nat
  phases : List (List MetaOp)
  left   : Nat := 0
  fin    : TaskEnd := .nothing
  base   : Option Nat := none
  deriving DecidableEq, Repr

/-- A volume being opened (R308): the step whose reads are under way (1 superblocks, 3 metadata, 5 index blocks), whether
they are complete, and what step 3 changed of the metadata area; step 7 stands for the reads of the atomic journal (R326). -/
structure VolOpening where
  step : Nat
  read : Bool := false
  puts : List (Nat × List Byte) := []
  deriving DecidableEq, Repr

/-- A slot of a volume's member table: role 1 holder, 2 spare, 3 lost (R292). -/
structure VolSlot where
  m    : Nat
  role : Nat
  pos  : Nat
  gen  : Nat
  uid  : BitVec 64
  deriving DecidableEq, Repr

/-- An open record volume (R290 to R292): its geometry, sequences, metadata area (non-zero bytes of blocks 0 to 1,023),
the positions that spares have taken, each with the VBN ranges written since, the latest takeover (instant, position, member),
whether it is closing, and whether its namespace has become active since it was opened. -/
structure VolSt where
  layout : Nat
  su     : Nat
  slots  : List VolSlot
  n      : Nat
  total  : Nat
  id     : Nat
  sbSeq  : Nat := 0
  jseq   : Nat := 0
  ckpt   : Nat := 0
  area   : List Host.Cell := []
  spared : List (Nat × List (Nat × Nat)) := []
  took   : Option (Nat × Nat × Nat) := none
  closing : Bool := false
  shown  : Bool := false
  deriving DecidableEq, Repr

/-- A grant of volume blocks (R298, R299). -/
structure Grant where
  no    : Nat
  first : Nat
  cur   : Nat
  stop  : Nat
  ext   : Nat
  deriving DecidableEq, Repr

/-- A frame or index block being written (R298 to R300): the grants before it took its blocks, the member writes left,
and whether its range lock is granted. -/
structure Flight where
  no     : Nat
  index  : Bool
  last   : Bool := false
  buf    : Nat := 0
  vbn    : Nat
  blocks : Nat
  bytes  : Nat
  entry  : List Byte := []
  data   : List Byte := []
  info   : FrameInfo := {}
  before : List Grant := []
  issued : Bool := false
  left   : Nat := 0
  deriving DecidableEq, Repr

/-- A clip on its way to its clip-table entry (R293): flags are entry bits [15:4]. -/
structure ClipSt where
  id      : Nat := 0
  flags   : Nat := 0
  link    : Nat := 0
  prod    : Nat := 0
  fmt     : Nat := 0
  exts    : List (Nat × Nat × Nat × Nat) := []
  frames  : Nat := 0
  first   : Option FrameInfo := none
  last    : Option (Nat × Nat) := none
  lastIdx : Option Nat := none
  nIdx    : Nat := 0
  size    : Nat := 0
  part    : List (List Byte) := []
  deriving DecidableEq, Repr

/-- A recording stream (R298 to R302, R305): the clip as committed, index entries of frames taken since the last index
block and their number, the grants, what is being written, frames a split rewrites, and the stage of a close: 1 final
index block, 2 metadata, 3 complete. -/
structure StrSt where
  vol     : Nat := 0
  ring    : Option RingId := none
  clip    : ClipSt := {}
  taken   : Nat := 0
  idxs    : Nat := 0
  prevIdx : Option Nat := none
  entries : List (List Byte) := []
  owed    : Bool := false
  grants  : List Grant := []
  grantNo : Nat := 0
  flights : List Flight := []
  no      : Nat := 0
  redo    : List Flight := []
  next    : Option ClipSt := none
  stage   : Nat := 0
  shut    : Bool := false
  mseq    : Nat := 0
  deriving DecidableEq, Repr

/-- Record media: members, open volumes, streams, metadata tasks and volumes being opened. -/
structure RmSt where
  mbrs   : List (Nat × MbrSt) := []
  vols   : List (Nat × VolSt) := []
  strs   : List (Nat × StrSt) := []
  tasks  : List (Nat × RmTask) := []
  taskNo : Nat := 0
  opens  : List (Nat × VolOpening) := []
  deriving DecidableEq, Repr

/-! ### Offload endpoint (chapter 14) -/

/-- A range-lock request (R327, R328), in order: its instant, and its place among those of one instant (0 the recorder, else
1 + submission queue); the owner is a recorder flight or a host command. -/
structure LockReq where
  owner   : RmOwner
  vol     : Nat
  first   : Nat
  blocks  : Nat
  excl    : Bool
  granted : Bool
  at_     : Nat := 0
  rank    : Nat := 0
  deriving DecidableEq, Repr

/-- A host submission queue: its size in entries, completion queue, head and tail (R313), and the command that deletes it,
while that waits for the queue's commands (R314). -/
structure SqSt where
  size : Nat
  cq   : Nat
  base : Nat
  head : Nat := 0
  tail : Nat := 0
  dying : Option Nat := none
  deriving DecidableEq, Repr

/-- A host completion queue: completions wait while it is full. -/
structure CqSt where
  size  : Nat
  vec   : Nat
  base  : Nat
  ien   : Bool := true
  head  : Nat := 0
  tail  : Nat := 0
  phase : Bool := true
  wait  : List (Nat × Nat × Nat × Nat) := []
  deriving DecidableEq, Repr

/-- How far a fetched host command is (R319 to R325). -/
inductive HostStage
  | fetched | lock | slot | journal | home | zero | run
  deriving DecidableEq, Repr

/-- A host command that the endpoint has fetched: what it covers, its lock, journal slot and sequence, member writes
left, whether it lost a position, and whether its completion is still owed to the host. -/
structure HostCmd where
  id     : Nat
  q      : Nat
  e      : Sqe
  stage  : HostStage := .fetched
  vol    : Nat := 0
  first  : Nat := 0
  blocks : Nat := 0
  slot   : Nat := 0
  left   : Nat := 0
  failed : Bool := false
  owed   : Bool := true
  data   : List Byte := []
  deriving DecidableEq, Repr

/-- The offload endpoint (R311 to R332): the addresses of BAR0 and BAR2, the MSI-X entries by vector (address, data, masked;
unlisted: 0, 0, no) and its pending bits (R311), AQA (R312), controller enable, the drain of a reset with its cause, queues,
commands, event requests held and notices owed, features set by identifier + 256 × (selector), interrupts held back by vector
(entries, since when; R316), the error log (count, queue, identifier, status, LBA, namespace), locks, atomic sequences, journal slots in use, and of
the latest step: data written to host memory by address, completions by queue and place, MSI-X vectors; the end of the
pause after the latest command (R441). -/
structure OepSt where
  bars   : Nat × Nat := (0, 0)
  msix   : List (Nat × Nat × Nat × Bool) := []
  pba    : List Nat := []
  aqa    : Nat := 0
  agg    : List (Nat × Nat × Nat) := []
  tempLo : Bool := false
  shst   : Nat := 0
  drain  : Option Nat := none
  sqs    : List (Nat × SqSt) := []
  cqs    : List (Nat × CqSt) := []
  cmds   : List HostCmd := []
  no     : Nat := 0
  turn   : Nat := 0
  aers   : List (Nat × Nat) := []
  notes  : List Nat := []
  feats  : List (Nat × Nat) := []
  errs   : List (Nat × Nat × Nat × Nat × Nat × Nat) := []
  errNo  : Nat := 0
  locks  : List LockReq := []
  seqs   : List (Nat × Nat) := []
  slots  : List (Nat × Nat) := []
  host   : List (Nat × List Byte) := []
  posted : List (Nat × Nat × List Byte) := []
  irqs   : List Nat := []
  tempHi : Bool := false
  free   : Nat := 0
  deriving DecidableEq, Repr

/-! ### Scan-out (chapter 15) -/

/-- The timing set of a raster frame (R333 to R335). -/
structure ScoTim where
  mode  : Nat := 0
  hAct  : Nat := 0
  hTot  : Nat := 0
  vAct  : Nat := 0
  vTot  : Nat := 0
  start : Nat := 0
  den   : Nat := 0
  deriving DecidableEq, Repr

/-- The frame on show: PFN, address of its pixels and row stride. -/
structure ScoShown where
  pfn    : Nat
  addr   : Nat
  stride : Nat
  deriving DecidableEq, Repr

/-- The blanking of a line, at its start (R334): EAV's and SAV's four words, the two line number words, the two check
words of luma and of chroma, and the samples of ancillary space between, which hold blanking codes. -/
structure SdiBlank where
  eav  : List Nat
  num  : List Nat
  crcY : List Nat
  crcC : List Nat
  hanc : Nat
  sav  : List Nat
  deriving DecidableEq, Repr

/-- One line as a transmitter sent it: its line number, link number, the samples of it that were sent, its blanking, the
active luma and multiplexed chroma samples, and the payload ID's primaries, transfer and range (R333, R334, R338). -/
structure SdiLine where
  number : Nat
  link   : Nat
  sent   : Nat
  blank  : SdiBlank
  luma   : List Nat
  chroma : List Nat
  prim   : Nat
  xfer   : Nat
  narrow : Bool
  deriving DecidableEq, Repr

/-- Scan-out: the ring it is attached to, the buffer it holds and shows, the raster frame in progress with its next
line, the marks of that line's underruns, and the latest line of each transmitter. -/
structure ScoSt where
  ring     : Option RingId := none
  buf      : Option Nat := none
  shown    : Option ScoShown := none
  tim      : Option ScoTim := none
  lineZero : Nat := 0
  line     : Nat := 0
  since    : Nat := 0
  stopping : Bool := false
  under    : Option Nat := none
  ovUnder  : Option Nat := none
  told     : Bool := false
  tx       : List (Nat × SdiLine) := []
  deriving DecidableEq, Repr

/-! ### Audio (chapter 16) -/

/-- A port's place between run rising and its stop: lead or trailing frames left, sample frames, or the TDM frame that
was under way, a lead frame or a sample frame, when run fell (R351). -/
inductive AudPhase
  | idle | lead (left : Nat) | run | ending (lead : Bool) | trail (left : Nat)
  deriving DecidableEq, Repr

/-- The descriptor a port works on: its buffer, its size, the bytes moved, and a mask record at its start (R347). -/
structure AudDesc where
  addr  : Nat
  bytes : Nat
  moved : Nat := 0
  recd  : Bool := false
  deriving DecidableEq, Repr

/-- An audio port: its clock (the instant from which it is counted with the sample periods before it, and the periods),
the TDM frames since run rose, the mask in force and the writes staged with their instants, its descriptor,
a held mask record (old mask, new mask, frames), the slip buffer's sample frames (with whether R350 counts them),
its last outgoing frame, the slots it sent last, and the levels per bit clock of the latest TDM frame's sync, where the
port drives it, and data line (R343). -/
structure AudSt where
  phase    : AudPhase := .idle
  mark     : Nat × Rat := (0, 0)
  periods  : Nat := 0
  frames   : Nat := 0
  started  : Bool := false
  mask     : Nat := 3
  newMask  : List (Nat × Nat) := []
  desc     : Option AudDesc := none
  held     : Option (Nat × Nat × Nat) := none
  starving : Bool := false
  slip     : List (Bool × List Nat) := []
  last     : Option (Bool × List Nat) := none
  out      : List Nat := []
  fs       : List Bool := []
  sd       : List Bool := []
  deriving DecidableEq, Repr

/-! ### Network (chapter 17) -/

/-- A transmit stamp (R366). -/
structure TxStamp where
  seq : Nat
  msg : Nat
  dom : Nat
  t   : Stamp
  deriving DecidableEq, Repr

/-- A MAC: queued stamps, a run of frames without a descriptor, the last frame it sent with its FCS, and the last
MDIO frame. -/
structure NetSt where
  stamps : List TxStamp := []
  nodesc : Bool := false
  sent   : List Byte := []
  mdio   : Option Word := none
  deriving DecidableEq, Repr

/-- An ST 2110-20 frame on its way: its pixels, its size and how much of it has been sent. -/
structure VidFrame where
  addr   : Nat
  stride : Nat
  w      : Nat
  h      : Nat
  line   : Nat := 0
  off    : Nat := 0
  no     : Nat := 0
  deriving DecidableEq, Repr

/-- A stream context: its ring, the buffer it holds, the RTP sequence number and timestamp, the packets of an access
unit that are left (payload and marker), the frame in hand, the frame being sent, and the last tick it used. -/
structure NetStr where
  ring  : Option RingId := none
  buf   : Option Nat := none
  seq   : Nat := 0
  ts    : Nat := 0
  queue : List (List Byte × Bool) := []
  held  : Option VidFrame := none
  cur   : Option VidFrame := none
  tick  : Option Nat := none
  deriving DecidableEq, Repr

/-! ### Position feedback (chapter 18) -/

/-- A window of the phase detector (R378): its tick, its target, and the index edges that fell in it, the first and how
many. -/
structure PhWin where
  tick   : Tick
  target : Int
  first  : Option Nat := none
  n      : Nat := 0
  deriving DecidableEq, Repr

/-- A channel: the accepted Hall state, valid or not, and whether one was seen, the counts since the direction
extreme, the last counted edge (instant, backward), the speed window (start, length in µs, net count), the
commutation code in force and since when each phase has its own, the PWM set in force (start, period, duty, dead) and the
one that follows at an instant, the level of the fault pin, the sample at which the last index edge was accepted, the index
edges a window may still take in, and the windows open. -/
structure PfiSt where
  hall    : Nat := 0
  seen    : Bool := false
  back    : Nat := 0
  last    : Option (Nat × Bool) := none
  winAt   : Nat := 0
  winLen  : Nat := 1000
  net     : Int := 0
  code    : Nat := 0
  codeAt  : List Nat := []
  pwm     : Nat × Nat × Nat × Nat := (0, 6250, 0, 16)
  pwmNext : Option (Nat × Nat × Nat × Nat) := none
  fltHigh : Bool := true
  idxAt   : Option Nat := none
  edges   : List Nat := []
  wins    : List PhWin := []
  deriving DecidableEq, Repr

/-! ### Configuration and boot (chapter 20) -/

/-- A section of the image that sprout loaded (R400): type, overlay index, pipeline mask, load address and length. -/
structure Sect where
  kind  : Nat
  index : Nat
  mask  : Nat
  addr  : Nat
  bytes : Nat
  deriving DecidableEq, Repr

/-- Configuration and boot: the flash device's bytes (unlisted: 0xFF, erased), OTP words (unlisted: 0), the program
in progress (word, bits, due), the image's sections, what its header gives for every boot (sage's DRAM window, security
version, image bytes, entry points of the control cluster and of sage), whether both run, what each core holds at its start in a0 and a1 and sage in a1
(R408), the reference source OTP selects (true: refclk is set), the MODE pins, and the pending overlay: pipelines still to be
committed, those whose commit waits for its frame (target), those whose frame has opened (PFN), those of them that
are finished, ports whose first frame carries the change, and a request accepted whose records are still to be
written. -/
structure CfgSt where
  flash  : List Host.Cell := []
  otp    : List (Nat × Word) := []
  otpRun : Option (Nat × Word × Nat) := none
  sects  : List Sect := []
  win    : Nat := 0
  sec    : Nat := 0
  img    : Nat := 0
  ccEntry : Nat := 0
  sageEntry : Nat := 0
  released : Bool := false
  harts  : List (Nat × Nat) := []
  sageArg : Nat := 0
  refclk : Bool := false
  pins   : Nat := 0
  todo   : List Nat := []
  hold   : List (Nat × Nat) := []
  sof    : List (Nat × Nat) := []
  fin    : List Nat := []
  mark   : List Nat := []
  start  : Option Nat := none
  deriving DecidableEq, Repr

/-! ### Monitor block (chapters 20, 21 and 23) -/

/-- One line, or run of lines, that the monitor sends (R465 to R467). -/
inductive MonLine
  | word (addr : Nat) (v : Word)
  | dump (addr : Nat) (bytes : List Byte)
  | num (n : Nat)
  | record (bytes : List Byte)
  | clk (locked : Bool) (ref state : Nat) (on max level : Nat)
  | readmit (ok : Bool)
  | ready
  | crc (v : Nat)
  | nonce (v : BitVec 256)
  | help
  | ok
  | err (cc : Nat) (cause : Nat)
  deriving DecidableEq, Repr

/-- The JTAG port: the data register last captured for shifting out, the boundary image preloaded and driven. -/
structure JtagSt where
  out     : List Bool := []
  preload : List Bool := []
  drive   : Option (List Bool) := none
  debug   : Bool := false
  deriving DecidableEq, Repr

/-- The MON block beside its registers: the mailbox window, the levels outside drives on the GPIO pins, the data the
CTL_SPI target sent last, what the monitor sent for its last command, an outstanding nonce, a readmission whose outcome
is awaited, a recovery transfer's bytes awaited, and the TAP. -/
structure MonSt where
  mbox    : List Host.Cell := []
  ext     : Nat := 0
  spiOut  : List Byte := []
  out     : List MonLine := []
  nonce   : Option (BitVec 256) := none
  readm   : Option Nat := none
  recover : Bool := false
  jtag    : JtagSt := {}
  deriving DecidableEq, Repr

end Sys2Proof.Machine
end

