-- ==== Sys2Proof/Machine/State.lean ====
section
/-! DEFINITION. The state of the block: plain data, everything the spec gives it, and the queue of commands. -/

namespace Sys2Proof.Machine

/-- What stops the machine: nothing. The spec describes no condition that halts the device; every error is a
response, a flag, a counter or an event of the next state. -/
inductive Fault
  deriving DecidableEq, Repr

/-- Why a command has no meaning here. -/
inductive Refusal
  /-- A command whose meaning is not written yet; raised by `exec`'s own arm (safe). -/
  | notModelled (mnemonic : String)
  /-- An operand outside the range its rule gives, such as port 4; raised by the meanings' operand checks
  (safe: no such command exists). -/
  | illFormed
  deriving DecidableEq, Repr

/-- The B9's state: plain data, and everything the spec gives the machine. -/
structure State where
  /-- The commands that wait, first in, first out. -/
  pending : List Instr := []
  /-- Which device of the family this is (R2). -/
  variant : Variant := .umb9480
  /-- The instant, in picoseconds since power-on. -/
  now     : Nat := 0
  /-- How many free values have been drawn (the model's own field). -/
  fresh   : Nat := 0
  /-- Every register written since reset, by address; an unlisted one holds its reset value. -/
  regs    : List (Nat × Word) := []
  /-- The values in force of shadowed registers (R5, RWC). -/
  live    : List (Nat × Word) := []
  /-- The bytes of MRAM, system SRAM and DRAM that differ from what an unlisted byte reads as. -/
  mem     : List Host.Cell := []
  /-- What each requester's last access drew (R471 to R476). -/
  bus     : List (Nat × Reply) := []
  /-- The companions that a low-half read latched, by requester and address (R477). -/
  latch   : List (Nat × Word) := []
  /-- The event router: events on their way and what each queue owes (R25 to R30). -/
  evr     : EvrSt := {}
  /-- Injection slots, judgements and the records that wait for the fault log (R445 to R458). -/
  err     : ErrSt := {}
  /-- The time unit (R359 to R363). -/
  tsu     : TsuSt := {}
  /-- The reference generator (R31 to R38). -/
  ref     : RefSt := {}
  /-- The power controller (R416 to R433). -/
  pwr     : PwrSt := {}
  /-- Thermal sensing (R434 to R443). -/
  thm     : ThmSt := {}
  /-- The memory controllers (R271 to R285). -/
  mc      : MemSt := {}
  /-- Frame rings, by number (R11 to R15, R171, R172). -/
  rings   : List (Nat × RingSt) := []
  /-- Sensor ports (chapters 3, 4 and 19). -/
  ports   : List (Nat × PortSt) := []
  /-- Open verdicts of sync groups (R101 to R103). -/
  groups  : List (Nat × Nat × Nat) := []
  /-- Image pipelines (chapters 5 to 7). -/
  ips     : List (Nat × IpSt) := []
  /-- Pods (R186 to R213). -/
  pods    : List (Nat × PodSt) := []
  /-- Pips, by pod and place. -/
  pips    : List (Nat × PipSt) := []
  /-- Package slots (R187, R188). -/
  slots   : List (Nat × SlotSt) := []
  /-- Frames that raw taps hand to the Photre encoders (R233). -/
  feeds   : List (Nat × List PrcFeed) := []
  /-- Photre encoders (R218 to R236). -/
  prcs    : List (Nat × PrcSt) := []
  /-- The Photre decoder's job, its registers as they were at go (R237). -/
  prd     : Option (List (Nat × Word)) := none
  /-- The H.265 codec (chapter 10). -/
  hvc     : HvcSt := {}
  /-- The pack engine (chapter 11). -/
  pke     : PkeSt := {}
  /-- The bytes of the record members, by member (chapter 13). -/
  media   : List (Nat × List Host.Cell) := []
  /-- Record media (chapter 13). -/
  rm      : RmSt := {}
  /-- The offload endpoint (chapter 14). -/
  oep     : OepSt := {}
  /-- Scan-out (chapter 15). -/
  sco     : ScoSt := {}
  /-- Audio ports (chapter 16). -/
  auds    : List (Nat × AudSt) := []
  /-- Network ports (chapter 17). -/
  nets    : List (Nat × NetSt) := []
  /-- Network streams (chapter 17). -/
  nstrs   : List (Nat × NetStr) := []
  /-- Position feedback channels (chapter 18). -/
  pfis    : List (Nat × PfiSt) := []
  /-- Boot and configuration: flash, OTP and overlays (chapter 20). -/
  cfg     : CfgSt := {}
  /-- The control block, its mailbox, the monitor and the TAP (chapters 20, 21 and 23). -/
  mon     : MonSt := {}
  deriving DecidableEq, Repr

/-- The B9 right after power-on reset (R427, R429): every register at its reset value, memory with nothing
listed, no command waiting. The variant is the UMB9480 (DESIGN CHOICE 1: any variant can be put in its place). -/
def State.reset : State := {}

end Sys2Proof.Machine
end

