-- ==== Sys2Proof/Machine/Ops.lean ====
section
/-! DEFINITION. The operations every unit shares: sparse maps, the register file and the register map, time, events,
error injection and judgement, and memory. Each takes the state last, so that effects read in order. -/

namespace Sys2Proof.Machine

open Sys2Proof.Config (ms us)

/-! ### Sparse maps -/

/-- The entry at `k`. -/
def look {α : Type} : List (Nat × α) → Nat → Option α
  | [], _ => none
  | (a, v) :: t, k => if a = k then some v else look t k

/-- The entry at `k`, or `d`. -/
def lookD {α : Type} (m : List (Nat × α)) (d : α) (k : Nat) : α := (look m k).getD d

/-- `m` with `v` at `k`, in rising order. -/
def put {α : Type} : List (Nat × α) → Nat → α → List (Nat × α)
  | [], k, v => [(k, v)]
  | (a, w) :: t, k, v =>
    if k < a then (k, v) :: (a, w) :: t
    else if k = a then (k, v) :: t
    else (a, w) :: put t k v

/-- `m` without the entry at `k`. -/
def del {α : Type} (m : List (Nat × α)) (k : Nat) : List (Nat × α) := m.filter (fun e => e.1 != k)

/-- `m` with every entry of `n`. -/
def putAll {α : Type} (m n : List (Nat × α)) : List (Nat × α) := n.foldl (fun m e => put m e.1 e.2) m

/-! ### Bits -/

/-- Bits [hi:lo] of a number. -/
def bitsOf (n hi lo : Nat) : Nat := n / 2 ^ lo % 2 ^ (hi - lo + 1)

/-- Bit `i` of a number. -/
def bitOf (n i : Nat) : Bool := n / 2 ^ i % 2 == 1

/-- `w` with bits [hi:lo] replaced by `v`. -/
def setBits (w : Word) (hi lo v : Nat) : Word :=
  let n := w.toNat
  BitVec.ofNat 32 (n - bitsOf n hi lo * 2 ^ lo + v % 2 ^ (hi - lo + 1) * 2 ^ lo)

/-- A 32-bit word as a signed number. -/
def s32 (w : Word) : Int := w.toInt

/-- A signed number as a 32-bit word. -/
def w32 (i : Int) : Word := BitVec.ofInt 32 i

/-- `n` if it is not 0, else 1 (R3, a floor of 1). -/
def floor1 (n : Nat) : Nat := if n = 0 then 1 else n

/-- ⌈a / b⌉. -/
def ceilDiv (a b : Nat) : Nat := (a + b - 1) / b

/-- Serial order (R28, R39): `t` is ahead of `c`. -/
def ahead (t c : Nat) : Bool :=
  let d := (t + 2 ^ 32 - c % 2 ^ 32) % 2 ^ 32
  1 ≤ d && d < 2 ^ 31

/-- A ring of free-running counts holds entries: its tail lies after its head (R28). -/
def ringHas (head tail : Nat) : Bool := tail != head && !ahead head tail

/-- `n` bytes of a number, least significant first. -/
def leBytes (n v : Nat) : List Byte := (List.range n).map (fun i => BitVec.ofNat 8 (v / 256 ^ i))

/-- The number that little-endian bytes hold. -/
def leNat : List Byte → Nat
  | [] => 0
  | b :: t => b.toNat + 256 * leNat t

/-- `n` elements of a list from position `i`, padded with `d`. -/
def slice {α : Type} (l : List α) (d : α) (i n : Nat) : List α :=
  let r := (l.drop i).take n
  r ++ List.replicate (n - r.length) d

/-- The little-endian number of `n` bytes at position `i`. -/
def leAt (l : List Byte) (i n : Nat) : Nat := leNat (slice l 0 i n)

/-! ### The register map (R470) -/

/-- Domain bits (R416). -/
def dCTRL : Nat := 0
def dFAB : Nat := 1
def dMEM (m : Nat) : Nat := 2 + m
def dSP (n : Nat) : Nat := 6 + n
def dIP (n : Nat) : Nat := 10 + n
def dSTRIP (s : Nat) : Nat := 14 + s
def dPRC : Nat := 22
def dHVC : Nat := 23
def dPKE : Nat := 24
def dRM : Nat := 25
def dOEP : Nat := 26
def dNET : Nat := 27
def dSCO : Nat := 28
def dAUD : Nat := 29
def dPFI : Nat := 30

/-- Domain `d` belongs to a unit the variant has (R2, R416). -/
def domPresent (v : Variant) (d : Nat) : Bool :=
  if d < 6 then true
  else if d < 10 then d - 6 < Config.ports v
  else if d < 14 then d - 10 < Config.ports v
  else if d < 22 then d - 14 < Config.strips v
  else d < 31

/-- The mask of the present domains. -/
def presentMask (v : Variant) : Nat :=
  ((List.range 31).filter (domPresent v)).foldl (fun m d => m + 2 ^ d) 0

/-- A window an address falls in: its unit's presence, its domain (none: AON), its registers and the offset. -/
structure Hit where
  present : Bool
  dom     : Option Nat
  rows    : List RegRow
  off     : Nat

/-- The window of R470 that holds address `a`. -/
def windowAt (v : Variant) (a : Nat) : Option Hit :=
  let one (base : Nat) (dom : Option Nat) (rows : List RegRow) : Option Hit := some ⟨true, dom, rows, a - base⟩
  let many (base stride cnt : Nat) (dom : Nat → Option Nat) (rows : Nat → List RegRow) : Option Hit :=
    let i := (a - base) / stride
    some ⟨i < cnt, dom i, rows i, (a - base) % stride⟩
  if a < 0x40000000 then none
  else if a < 0x40100000 then one 0x40000000 none rowsSys
  else if a < 0x40200000 then one 0x40100000 none rowsPwr
  else if a < 0x40300000 then one 0x40200000 none rowsErr
  else if a < 0x40400000 then one 0x40300000 (some dCTRL) rowsRef
  else if a < 0x40500000 then one 0x40400000 none rowsCfg
  else if a < 0x41000000 then none
  else if a < 0x41400000 then
    many 0x41000000 0x100000 (Config.ports v) (fun n => some (dSP n))
      (fun n => if n = 0 then rowsSp ++ rowsSp0 else rowsSp)
  else if a < 0x42000000 then none
  else if a < 0x42400000 then many 0x42000000 0x100000 (Config.ports v) (fun n => some (dIP n)) (fun _ => rowsIp)
  else if a < 0x43000000 then none
  else if a < 0x43080000 then
    many 0x43000000 0x1000 (Config.pods v) (fun p => some (dSTRIP (p / 16))) (fun _ => rowsPod)
  else if a < 0x43081000 then one 0x43080000 (some dFAB) rowsPip
  else if a < 0x44000000 then none
  else if a < 0x44040000 then many 0x44000000 0x10000 (Config.ports v) (fun _ => some dPRC) (fun _ => rowsPrc)
  else if a < 0x44050000 then one 0x44040000 (some dPRC) rowsPrd
  else if a < 0x44100000 then none
  else if a < 0x44200000 then one 0x44100000 (some dHVC) rowsHvc
  else if a < 0x44300000 then one 0x44200000 (some dPKE) rowsPke
  else if a < 0x45000000 then none
  else if a < 0x45100000 then
    many 0x45000000 0x40000 4 (fun m => some (dMEM m)) (fun m => if m = 0 then rowsMc ++ rowsMem else rowsMc)
  else if a < 0x46000000 then none
  else if a < 0x46100000 then one 0x46000000 (some dRM) rowsRm
  else if a < 0x46200000 then one 0x46100000 (some dOEP) rowsOep
  else if a < 0x47000000 then none
  else if a < 0x47100000 then one 0x47000000 (some dSCO) rowsSco
  else if a < 0x47104000 then
    many 0x47100000 0x1000 4 (fun _ => some dAUD) (fun n => if n = 0 then rowsAud ++ rowsAud0 else rowsAud)
  else if a < 0x47200000 then none
  else if a < 0x47202000 then
    many 0x47200000 0x1000 2 (fun _ => some dNET)
      (fun m => if m = 0 then rowsNet ++ rowsNstr.map (fun r => { r with off := r.off + 0x800, dims := [(0x40, 8)] })
        else rowsNet)
  else if a < 0x47203000 then one 0x47202000 (some dCTRL) rowsTsu
  else if a < 0x47300000 then none
  else if a < 0x47301000 then
    some ⟨true, some dPFI, rowsPfi.map (fun r => { r with dims := [(0x100, 4)] }), a - 0x47300000⟩
  else if a < 0x47400000 then none
  else if a < 0x47410000 then
    some ⟨true, if 0x47402800 ≤ a && a < 0x47402C00 then none else some dCTRL, rowsMon, a - 0x47400000⟩
  else none

/-- An offset from a row's own offset is one of its repetitions. -/
def inDims : List (Nat × Nat) → Nat → Bool
  | [], d => d == 0
  | (s, c) :: t, d => d / s < c && inDims t (d % s)

/-- The register at an address of a window. -/
def rowAt (h : Hit) : Option RegRow := h.rows.find? (fun r => r.off ≤ h.off && inDims r.dims (h.off - r.off))

/-- The window of the voltage monitor of one rail, low and high in mV (R498; AVS target 850 mV). -/
def railWindow : Nat → Nat × Nat
  | 0 => (830, 870) | 1 => (720, 780) | 2 => (820, 880) | 3 => (820, 880) | 4 => (820, 880)
  | 5 => (1140, 1260) | 6 => (1140, 1260) | 7 => (1710, 1890) | 8 => (1710, 1890) | 9 => (1700, 1950)
  | 10 => (1010, 1120) | 11 => (870, 970) | _ => (470, 570)

/-- Reset values that depend on the variant or the instance, over the table's value `w`. -/
def resetOver (v : Variant) (a w : Nat) : Nat :=
  if a < 0x43000000 then
    if a = SYS_ID then 0x10000000 + Config.part v * 0x1000
    else if a = PWR_VOTE 0 then presentMask v
    else if 0x40101100 ≤ a && a < 0x40101180 then
      let r := railWindow ((a - 0x40101100) / 4 % 13)
      r.1 + r.2 * 0x10000
    else if 0x42000000 ≤ a && a < 0x42400000 then
      let o := a % 0x100000
      if 0x340 ≤ o && o < 0x364 then (if (o - 0x340) / 4 % 4 = 0 then 0x3E000 else w)
      else if 0x800 ≤ o && o < 0xC00 && 0x08 ≤ o % 0x100 && o % 0x100 < 0x2C then
        (if (o % 0x100 - 0x08) / 4 % 4 = 0 then 0x3E000 else w)
      else w
    else w
  else if a < 0x43080000 then
    let o := a % 0x1000
    if o = 0 then (if (a - 0x43000000) / 0x10000 % 2 = 0 then 1 else 2)
    else if 0x100 ≤ o && o % 0x100 = 0 then (if o = 0x900 then 0xF1 else (o / 0x100 - 1) * 0x10)
    else w
  else if a = PIP_STRIP_MAP then w % 16 ^ Config.strips v
  else w

/-- The reset value of the register at `a` (R6; the tables' Reset column). -/
def resetWord (v : Variant) (a : Nat) : Word :=
  match windowAt v a with
  | none => 0
  | some h =>
    if h.present then
      match rowAt h with
      | none => 0
      | some r => BitVec.ofNat 32 (resetOver v a (r.fields.foldl (fun n f => n + f.reset * 2 ^ f.lo) 0))
    else 0

/-! ### The register file -/

/-- The value of the register at `a`. -/
def State.rd (s : State) (a : Nat) : Word :=
  match look s.regs a with
  | some w => w
  | none => resetWord s.variant a

/-- The value in force of a shadowed register (R5, RWC). -/
def State.rdLive (s : State) (a : Nat) : Word :=
  match look s.live a with
  | some w => w
  | none => resetWord s.variant a

/-- A field. -/
def State.f (s : State) (x : Fld) : Nat := bitsOf (s.rd x.addr).toNat x.hi x.lo

/-- A one-bit field. -/
def State.b (s : State) (x : Fld) : Bool := s.f x != 0

/-- A field's value in force. -/
def State.g (s : State) (x : Fld) : Nat := bitsOf (s.rdLive x.addr).toNat x.hi x.lo

/-- Sets the register at `a`. -/
def wr (a : Nat) (w : Word) (s : State) : State := { s with regs := put s.regs a w }

/-- Sets a field, whoever may write it. -/
def setF (x : Fld) (v : Nat) (s : State) : State := wr x.addr (setBits (s.rd x.addr) x.hi x.lo v) s

/-- Sets a flag. -/
def flag (x : Fld) (s : State) : State := setF x 1 s

/-- Adds to a counter register; a 32-bit count wraps (DESIGN CHOICE 5). -/
def bumpBy (a n : Nat) (s : State) : State := wr a (s.rd a + BitVec.ofNat 32 n) s

/-- Adds 1 to a counter register. -/
def bump (a : Nat) (s : State) : State := bumpBy a 1 s

/-- The address or count in a _LO and _HI pair. -/
def State.pair (s : State) (lo hi : Nat) : Nat := (s.rd lo).toNat + (s.rd hi).toNat * 2 ^ 32

/-- The value in force of a _LO and _HI pair. -/
def State.pairLive (s : State) (lo hi : Nat) : Nat := (s.rdLive lo).toNat + (s.rdLive hi).toNat * 2 ^ 32

/-- Sets a 64-bit pair. -/
def setPair (lo hi v : Nat) (s : State) : State :=
  wr hi (BitVec.ofNat 32 (v / 2 ^ 32)) (wr lo (BitVec.ofNat 32 v) s)

/-- Adds to a 64-bit counter pair (R459). -/
def addPair (lo hi n : Nat) (s : State) : State := setPair lo hi (s.pair lo hi + n) s

/-- Puts the shadowed registers that `p` picks in force as last written. -/
def takeLive (p : Nat → Bool) (s : State) : State :=
  { s with live := putAll (s.live.filter (fun e => !p e.1)) (s.regs.filter (fun e => p e.1)) }

/-- Puts a captured set of register values in force for the addresses `p` picks. -/
def forceLive (p : Nat → Bool) (set : List (Nat × Word)) (s : State) : State :=
  { s with live := putAll (s.live.filter (fun e => !p e.1)) (set.filter (fun e => p e.1)) }

/-- One field of a write by its access code (R5), on the word stored so far. `locked` is the boot lock. -/
def writeField (locked : Bool) (v : Word) (w : Word) (x : FieldRow) : Word :=
  let nv := bitsOf v.toNat x.hi x.lo
  match x.acc with
  | .rw | .rwc => setBits w x.hi x.lo nv
  | .rwl => if locked then w else setBits w x.hi x.lo nv
  | .w1c => BitVec.ofNat 32 (w.toNat - (w.toNat &&& (nv * 2 ^ x.lo)))
  | .ro | .wo | .w1s | .rc => w

/-- The plain effect of a register write: every field by its access code, reserved bits ignored (R4, R5). -/
def plainWrite (a : Nat) (v : Word) (s : State) : State :=
  match windowAt s.variant a with
  | none => s
  | some h =>
    match rowAt h with
    | none => s
    | some r => wr a (r.fields.foldl (writeField (s.b CFG_LOCK_lock) v) (s.rd a)) s

/-! ### Domains -/

/-- The domain is on and not in transition (R416, R420), and its clocks run: a lost reference stops every root-derived
clock but those of sage and AON (R18). -/
def State.domOn (s : State) (d : Nat) : Bool :=
  bitOf (s.rd PWR_STATUS).toNat d && !bitOf (s.rd PWR_BUSY).toNat d && !s.pwr.clkLost && !s.pwr.testHold

/-- The unit of a domain is present and powered. -/
def State.unitOn (s : State) (d : Nat) : Bool := domPresent s.variant d && s.domOn d

/-! ### Requesters and replies -/

/-- A requester's number, in the order of R476. -/
def reqNo : Requester → Nat
  | .sage => 0 | .cc0 => 1 | .cc1 => 2 | .cc2 => 3 | .cc3 => 4 | .cfg => 5 | .monitor => 6 | .debug => 7

/-- Records what a requester's access drew. -/
def reply (r : Requester) (x : Reply) (s : State) : State := { s with bus := put s.bus (reqNo r) x }

/-- An access completed, with its data. -/
def answer (r : Requester) (w : Word) (s : State) : State := reply r ⟨false, w⟩ s

/-- An access drew an error response. -/
def refuse (r : Requester) (s : State) : State := reply r ⟨true, 0⟩ s

/-! ### Free values -/

/-- The next free value, and the state after drawing it. -/
def draw (s : State) : BitVec 64 × State := (Config.freeValue s.fresh, { s with fresh := s.fresh + 1 })

/-! ### Events (R24, R25) -/

/-- Event `loc` of block `blk` is enabled, by the block's own enable register. SYS has none: its events are
always raised. -/
def State.evtOn (s : State) (blk loc : Nat) : Bool :=
  let on (a i : Nat) : Bool := bitOf (s.rd a).toNat i
  if blk = 0x01 then true
  else if blk = 0x02 then on PWR_EVT_EN loc
  else if blk = 0x03 then on THM_EVT_EN loc
  else if blk = 0x04 then on ERR_EVT_EN loc
  else if blk = 0x05 then on REF_CTRL (loc + 3)
  else if blk = 0x06 then on CFG_EVT_EN loc
  else if 0x10 ≤ blk && blk < 0x14 then
    let n := blk - 0x10
    if loc < 0x0C then on (SP_EVT_EN n) loc
    else if loc < 0x40 then on (SP_EVT_EN n) (loc - 0x20 + 16)
    else if loc < 0x50 then on (SP_JV_EVT_EN n) (loc - 0x40)
    else on (SP_SS_EVT_EN n) (loc - 0x50)
  else if 0x18 ≤ blk && blk < 0x1C then
    let n := blk - 0x18
    if loc < 0x20 then on (IP_FRONT_EVT_EN n) (loc - 0x10 + 16)
    else if loc < 0x30 then on (IP_FRONT_EVT_EN n) (loc - 0x20)
    else if loc < 0x40 then on (IP_CLR_EVT_EN n) (loc - 0x30)
    else on (IP_OUT_EVT_EN n) (loc - 0x40)
  else if blk = 0x20 then on PIP_EVT_EN loc
  else if 0x28 ≤ blk && blk < 0x2C then on (PRC_EVT_EN (blk - 0x28)) loc
  else if blk = 0x2C then on PRD_EVT_EN loc
  else if blk = 0x30 then on HVC_EVT_EN loc
  else if blk = 0x34 then on PKE_EVT_EN loc
  else if 0x38 ≤ blk && blk < 0x3C then on (MC_EVT_EN (blk - 0x38)) loc
  else if blk = 0x40 then on RM_EVT_EN loc
  else if blk = 0x44 then on OEP_EVT_EN loc
  else if blk = 0x48 then on SCO_EVT_EN loc
  else if 0x4C ≤ blk && blk < 0x50 then on (AUD_EVT_EN (blk - 0x4C)) loc
  else if blk = 0x50 || blk = 0x51 then on (NET_EVT_EN (blk - 0x50)) loc
  else if blk = 0x52 then on TSU_EVT_EN loc
  else if blk = 0x54 then on (PFI_EVT_EN (loc / 16)) (loc % 16)
  else if blk = 0x58 then (if loc < 0x20 then on MON_EVT_EN loc else on MON_EVT_EN (loc - 0x20 + 16))
  else false

/-- The increment in force in units of 2^-32 ns. -/
def State.incr (s : State) : Nat := s.f TSU_INCR_NS_incr_ns * 2 ^ 32 + s.f TSU_INCR_FRAC_incr_frac

/-- The part of the increment that has passed since the last BCLK tick, in 2^-32 ns units: stamps resolve 1 ns between
ticks (R25, R110; DEDUCED). -/
def State.subTick (s : State) : Nat :=
  if s.domOn dCTRL then s.now % Config.bclk * s.incr / Config.bclk else 0

/-- The time-unit time now, in whole ns (R362). -/
def State.stamp (s : State) : Stamp :=
  let ns := (s.tsu.ns * 2 ^ 32 + s.tsu.frac + s.subTick) / 2 ^ 32
  ⟨(s.tsu.sec + ns / 1000000000) % 2 ^ 48, ns % 1000000000⟩

/-- Raises an event with its edge's time-stamp: it is on its way to the router (R24, R25). -/
def raiseAt (t : Stamp) (blk loc arg : Nat) (s : State) : State :=
  if s.evtOn blk loc && !s.pwr.testHold then
    { s with evr := { s.evr with flight := s.evr.flight ++ [⟨blk * 256 + loc, arg % 65536, t⟩] } }
  else s

/-- Raises an event now. -/
def raise (blk loc arg : Nat) (s : State) : State := raiseAt s.stamp blk loc arg s

/-! ### Injection and judgement (R445 to R453) -/

/-- The detectors of R445 by their ID. -/
def isDetector (id : Nat) : Bool :=
  let b := id / 256
  let l := id % 256
  if b = 0x01 then l ≤ 1
  else if b = 0x02 then l ≤ 3
  else if b = 0x03 then l ≤ 2
  else if b = 0x04 then l ≤ 1
  else if b = 0x06 then l ≤ 4
  else if 0x10 ≤ b && b ≤ 0x13 then l ≤ 7 || (0x10 ≤ l && l ≤ 0x17) || l = 0x50 || l = 0x51
  else if 0x18 ≤ b && b ≤ 0x1B then (0x20 ≤ l && l ≤ 0x23) || (0x30 ≤ l && l ≤ 0x33) || (0x40 ≤ l && l ≤ 0x42)
  else if b = 0x20 then l ≤ 6
  else if 0x28 ≤ b && b ≤ 0x2B then l ≤ 1
  else if b = 0x2C then l ≤ 3
  else if b = 0x30 then l ≤ 5
  else if b = 0x34 then l ≤ 3
  else if 0x38 ≤ b && b ≤ 0x3B then l ≤ 3
  else if b = 0x40 then l ≤ 7
  else if b = 0x44 then l ≤ 3
  else if b = 0x48 then l ≤ 3
  else if 0x4C ≤ b && b ≤ 0x4F then l ≤ 3
  else if b = 0x50 || b = 0x51 then l ≤ 3
  else if b = 0x52 then l = 0
  else if b = 0x54 then l / 16 ≤ 3 && l % 16 ≤ 3
  else if b = 0x5C then l ≤ 3
  else false

/-- The domain of a detector's unit; none is AON. PIP detectors sit in pods of several strips: their block-wide
domain FAB is taken (DEDUCED 12). -/
def detDomain (id : Nat) : Option Nat :=
  let b := id / 256
  if b ≤ 0x06 then none
  else if b ≤ 0x13 then some (dSP (b - 0x10))
  else if b ≤ 0x1B then some (dIP (b - 0x18))
  else if b = 0x20 then some dFAB
  else if b ≤ 0x2C then some dPRC
  else if b = 0x30 then some dHVC
  else if b = 0x34 then some dPKE
  else if b ≤ 0x3B then some (dMEM (b - 0x38))
  else if b = 0x40 then some dRM
  else if b = 0x44 then some dOEP
  else if b = 0x48 then some dSCO
  else if b ≤ 0x4F then some dAUD
  else if b ≤ 0x51 then some dNET
  else if b = 0x54 then some dPFI
  else some dCTRL

/-- Disarms slot `k` and raises INJ_DONE (R447). -/
def injDone (k : Nat) (s : State) : State :=
  raise 0x04 3 k <|
    setF ERR_INJ_STATUS_armed (s.f ERR_INJ_STATUS_armed &&& (15 - 2 ^ k)) { s with err := { s.err with slots := del s.err.slots k } }

/-- Slot `sl` sees one examination: it falls due at its next one, or at every n-th (R447). -/
def slotSee (sl : InjSlot) : InjSlot :=
  let seen := sl.seen + 1
  { sl with seen := seen, due := sl.due || sl.mode == 1 || seen % sl.n == 0 }

/-- Slot `k` at one examination of `det`, `hit` if a lower slot has acted on it (R449). -/
def slotExam (det k : Nat) (x : Bool × State) : Bool × State :=
  let (hit, s) := x
  match look s.err.slots k with
  | none => x
  | some sl =>
    if sl.det = det then
      let sl := slotSee sl
      if sl.due && !hit then
        let left := s.f (ERR_INJ_CNT_count k) - 1
        let s := setF (ERR_INJ_CNT_count k) left { s with err := { s.err with slots := put s.err.slots k { sl with due := false } } }
        (true, if sl.mode == 1 || left == 0 then injDone k s else s)
      else (hit, { s with err := { s.err with slots := put s.err.slots k sl } })
    else x

/-- One examination by detector `det`: an injection hits it or not (R447, R449). -/
def inject (det : Nat) (s : State) : Bool × State :=
  if s.err.slots.isEmpty then (false, s)
  else slotExam det 3 (slotExam det 2 (slotExam det 1 (slotExam det 0 (false, s))))

/-- What one examination found: an error, and whether it is injected only (R449). -/
structure Exam where
  err : Bool
  inj : Bool

/-- One examination with what the detector really saw. -/
def examine (det : Nat) (real : Bool) (s : State) : Exam × State :=
  let (hit, s) := inject det s
  (⟨real || hit, hit && !real⟩, s)

/-- Queues a fault-log record (R457); the log's own write failures are not recorded (R458). -/
def logRec (kind det : Nat) (inj : Bool) (arg addr : Nat) (s : State) : State :=
  if det = 0x0400 then s else
  let t := s.stamp
  { s with err := { s.err with pend := s.err.pend ++ [⟨kind, det, inj, arg, addr, t, !s.b TSU_STATUS_valid⟩] } }

/-- A lasting judgement (R453). -/
def lasting (kind det : Nat) (inj : Bool) (arg addr : Nat) (s : State) : State :=
  logRec kind det inj arg addr (raise 0x04 0 det (setF ERR_LAST_kind kind (setF ERR_LAST_id det s)))

/-- A transient judgement (R453): logged at most once per detector per second while enabled. -/
def transient (det : Nat) (inj : Bool) (arg addr : Nat) (s : State) : State :=
  let s := raise 0x04 1 det s
  if s.b ERR_LOG_CFG_transient then
    let again := match look s.err.lastTrans det with
      | some t => decide (s.now < t + 1000 * ms)
      | none => false
    if again then { s with err := { s.err with suppress := s.err.suppress + 1 } }
    else logRec 2 det inj arg addr { s with err := { s.err with lastTrans := put s.err.lastTrans det s.now } }
  else s

/-- Detectors that are lasting at their first detection (R451). -/
def lastingAtOnce (det : Nat) : Bool :=
  let b := det / 256
  let l := det % 256
  (0x38 ≤ b && b ≤ 0x3B && l = 1) || det = 0x5C01 || det = 0x5C03 || det = 0x4002 ||
    det = 0x0200 || det = 0x0201 || det = 0x0203 || det = 0x0100 || det = 0x0600 || det = 0x0602 || det = 0x0603

/-- Detectors that are judged by a retry (R450). -/
def hasRetry (det : Nat) : Bool :=
  let b := det / 256
  let l := det % 256
  (0x38 ≤ b && b ≤ 0x3B && (l = 0 || l = 2 || l = 3)) || det = 0x5C00 || det = 0x5C02 || det = 0x4000 || det = 0x4001 ||
    (b = 0x20 && (l ≤ 3 || l = 5)) || (0x10 ≤ b && b ≤ 0x13 && (l = 0x10 || l = 0x11)) || det = 0x0202 ||
    det = 0x0301 || det = 0x0302

/-- `n` detections by a detector that no retry judges: lasting at once (R451) or counted in this interval (R452). -/
def detectN (n det : Nat) (inj : Bool) (arg addr : Nat) (s : State) : State :=
  if n = 0 || hasRetry det then s
  else if lastingAtOnce det then lasting 1 det inj arg addr s
  else
    let r := lookD s.err.rates {} det
    { s with err := { s.err with
        rates := put s.err.rates det { r with cur := r.cur + n }
        injRates := if inj then put1 s.err.injRates det else s.err.injRates.filter (· != det) } }
where
  put1 (l : List Nat) (d : Nat) : List Nat := if l.contains d then l else d :: l

/-- One detection. -/
def detect (det : Nat) (inj : Bool) (arg addr : Nat) (s : State) : State := detectN 1 det inj arg addr s

/-- One examination whose error, real or injected, is a detection; the answer says whether there was one. -/
def examDetect (det : Nat) (real : Bool) (arg addr : Nat) (s : State) : Bool × State :=
  let (e, s) := examine det real s
  (e.err, if e.err then detect det e.inj arg addr s else s)

/-! ### Time (R16, R359 to R363) -/

/-- 10^9 ns in units of 2^-32 ns. -/
def secUnits : Nat := 1000000000 * 2 ^ 32

/-- Sets the running time from a count of 2^-32 ns units past second `sec` (R359). -/
def tsuTime (sec units : Nat) (s : State) : State :=
  { s with tsu := { s.tsu with
      sec := (sec + units / secUnits) % 2 ^ 48
      ns := units % secUnits / 2 ^ 32
      frac := units % 2 ^ 32 } }

/-- The running time in 2^-32 ns units within its second. -/
def State.units (s : State) : Nat := s.tsu.ns * 2 ^ 32 + s.tsu.frac

/-- SECOND for each of `c` carries of a run of ticks of `inc` units from `u` units past second `sec` (R362). -/
def tsuCarries (sec u inc c : Nat) (s : State) : State :=
  if s.evtOn 0x52 2 then
    (List.range c).foldl (fun s i =>
      let j := ceilDiv ((i + 1) * secUnits - u) inc
      let n := (u + j * inc - (i + 1) * secUnits) / 2 ^ 32
      raiseAt ⟨(sec + i + 1) % 2 ^ 48, n⟩ 0x52 2 ((sec + i + 1) % 65536) s) s
  else s

/-- `k` plain BCLK ticks (R359). -/
def tsuRun (k : Nat) (s : State) : State :=
  let u := s.units + k * s.incr
  tsuTime s.tsu.sec u (tsuCarries s.tsu.sec s.units (floor1 s.incr) (u / secUnits) s)

/-- After a set or step of the clock, REF under PTP chooses its next tick from the reading it now has (R34). -/
def clockChanged (s : State) : State :=
  { s with ref := { s.ref with
      choose := some (((s.tsu.sec * 1000000000 + s.tsu.ns) * 2 ^ 32 + s.tsu.frac : Nat) : Rat), nextK := none } }

/-- The captured step is applied with this tick's increment, or refused below 0 s (R361); nanoseconds that reach 10^9 in
that sum carry into seconds (R359, R362). -/
def tsuStepTick (ds dn : Int) (s : State) : State :=
  let t : Int := s.tsu.sec * 1000000000 + s.tsu.ns + ds * 1000000000 + dn
  let whole : Int := t * 2 ^ 32 + s.tsu.frac + s.incr
  let carry := decide ((secUnits : Int) ≤ (s.tsu.ns + dn) * 2 ^ 32 + s.tsu.frac + s.incr)
  if whole < 0 then flag TSU_STATUS_bad_write (tsuRun 1 s)
  else
    let w := whole.toNat
    let s := clockChanged (raise 0x52 1 0 (flag TSU_STATUS_valid (tsuTime (w / secUnits) (w % secUnits) s)))
    if carry then raise 0x52 2 (s.tsu.sec % 65536) s else s

/-- The first tick after captures: a committed increment comes into force, a set or a step applies (R360, R361). -/
def tsuFirst (s : State) : State :=
  let s := match s.tsu.newIncr with
    | some (n, fr) =>
      setF TSU_INCR_FRAC_incr_frac fr (setF TSU_INCR_NS_incr_ns n { s with tsu := { s.tsu with newIncr := none } })
    | none => s
  let set := s.tsu.set
  let stp := s.tsu.step
  let s := { s with tsu := { s.tsu with set := none, step := none } }
  match set, stp with
  | none, none => tsuRun 1 s
  | none, some (ds, dn) => tsuStepTick ds dn s
  | some (sec, ns), stp =>
    let s := clockChanged (raise 0x52 0 0 (flag TSU_STATUS_valid (tsuTime sec (ns * 2 ^ 32) s)))
    match stp with
    | some _ => flag TSU_STATUS_bad_write s
    | none => s

/-- The examinations up to and with the next at which a slot armed for `det` acts (R447, R449). -/
def State.nextHit (s : State) (det : Nat) : Option Nat :=
  s.err.slots.foldl (fun m e =>
    if e.2.det = det then
      let d := if e.2.due || e.2.mode == 1 then 1 else e.2.n - e.2.seen % e.2.n
      some (min d (m.getD d))
    else m) none

/-- `d` examinations by `det` at which no slot acts. -/
def slotsSkip (det d : Nat) (s : State) : State :=
  let slots := s.err.slots.map (fun e => if e.2.det = det then (e.1, { e.2 with seen := e.2.seen + d }) else e)
  { s with err := { s.err with slots := slots } }

/-- The injections left in the slots armed for `det`. -/
def State.hitsLeft (s : State) (det : Nat) : Nat :=
  s.err.slots.foldl (fun m e => if e.2.det = det then m + floor1 (s.f (ERR_INJ_CNT_count e.1)) else m) 0

/-- The time counter parity detector over `k` ticks, each one examination (R368): at most `m` of them are hit. -/
def parityTicks : Nat → Nat → State → State
  | 0, k, s => slotsSkip 0x5200 k s
  | m + 1, k, s => match s.nextHit 0x5200 with
    | none => s
    | some d =>
      if k < d then slotsSkip 0x5200 k s
      else parityTicks m (k - d) (examDetect 0x5200 false 0 0 (setF TSU_STATUS_valid 0 (slotsSkip 0x5200 (d - 1) s))).2

/-- Injections of the time counter parity detector over `k` ticks (R368, R447, R449): each clears valid. -/
def tsuParity (k : Nat) (s : State) : State := parityTicks (s.hitsLeft 0x5200) k s

/-- Moves the clock to instant `t`, never back; the TSU runs over the BCLK ticks between while CTRL is on. -/
def advanceTo (t : Nat) (s : State) : State :=
  if t ≤ s.now then s
  else
    let k := t / Config.bclk - s.now / Config.bclk
    let s := { s with now := t }
    if k = 0 || !s.domOn dCTRL then s
    else
      if s.tsu.newIncr.isNone && s.tsu.set.isNone && s.tsu.step.isNone then tsuRun k (tsuParity k s)
      else tsuRun (k - 1) (tsuParity (k - 1) (tsuFirst (tsuParity 1 s)))

/-! ### Memory (R21 to R23, R272 to R284, R446, R454) -/

/-- Where a memory address lies. -/
inductive Region
  | rom | sram | mram | log | dram (off : Nat) | none
  deriving DecidableEq, Repr

/-- The region of an address on a variant (R21, R454). -/
def regionOf (v : Variant) (a : Nat) : Region :=
  if a < Config.romSize then .rom
  else if Config.sramBase ≤ a && a < Config.sramBase + Config.sramSize then .sram
  else if Config.logBase ≤ a && a < Config.mramBase + Config.mramSize then .log
  else if Config.mramBase ≤ a && a < Config.logBase then .mram
  else if Config.dramBase ≤ a && a < Config.dramBase + Config.dramSize v then .dram (a - Config.dramBase)
  else .none

/-- The former check area that holds address `a` and that nothing has written since (R283). -/
def State.formerAt (s : State) (a : Nat) : Option Nat :=
  (s.mc.former.find? (fun x => x.1 ≤ a && a < x.2.1)).map (·.2.2)

/-- An unlisted byte of memory reads 0 (DESIGN CHOICE 2), but for former check areas; the ROM's bytes are its own. -/
def State.peek (s : State) (a : Nat) : Byte :=
  if a < Config.romSize then Config.romByte a
  else match look s.mem a, s.formerAt a with
    | some b, _ => b
    | none, some k => Config.checkByte k a
    | none, none => 0

/-- `n` bytes from `a`. -/
def State.peeks (s : State) (a n : Nat) : List Byte := (List.range n).map (fun i => s.peek (a + i))

/-- The non-zero bytes of `bs` as cells from `a` on. -/
def cellsOf (a : Nat) : List Byte → List Host.Cell
  | [] => []
  | b :: t => if b = 0 then cellsOf (a + 1) t else (a, b) :: cellsOf (a + 1) t

/-- The canonical memory with `bs` from `a` on: rising addresses, no entry equal to what an unlisted one reads. -/
def memPuts (m : List Host.Cell) (a : Nat) (bs : List Byte) : List Host.Cell :=
  m.filter (fun e => decide (e.1 < a)) ++ cellsOf a bs ++ m.filter (fun e => decide (a + bs.length ≤ e.1))

/-- A range of a former check area without the bytes from `a` to `b`. -/
def cutFormer (a b : Nat) (x : Nat × Nat × Nat) : List (Nat × Nat × Nat) :=
  if b ≤ x.1 || x.2.1 ≤ a then [x]
  else (if x.1 < a then [(x.1, a, x.2.2)] else []) ++ (if b < x.2.1 then [(b, x.2.1, x.2.2)] else [])

/-- Forgets that the bytes from `a` to `b` were a check area's. -/
def dropFormer (a b : Nat) (s : State) : State :=
  if s.mc.former.isEmpty then s else { s with mc := { s.mc with former := s.mc.former.flatMap (cutFormer a b) } }

/-- Stores bytes, wherever they may lie. -/
def poke (a : Nat) (bs : List Byte) (s : State) : State :=
  let s := dropFormer a (a + bs.length) s
  { s with mem := memPuts s.mem a bs }

/-- Memory is in its canonical form: addresses strictly rising from `lo` on, no entry equal to 0. -/
def memWfFrom : Nat → List Host.Cell → Bool
  | _, [] => true
  | lo, (a, b) :: t => decide (lo ≤ a) && b != 0 && memWfFrom (a + 1) t

/-- Memory is in its canonical form. -/
def Memory.wf (m : List Host.Cell) : Bool := memWfFrom 0 m

/-- Base, data size and check-area end of protected region `k`, if enabled and not empty (R283). -/
def State.eccRegion (s : State) (k : Nat) : Option (Nat × Nat) :=
  let d := s.f (MEM_ECC_RGN_SIZE_size k) * 0x1000000
  if s.b (MEM_ECC_RGN_CTRL_en k) && d != 0 then
    some (s.pair (MEM_ECC_RGN_LO k) (MEM_ECC_RGN_HI k), d)
  else none

/-- Address `a` lies in the data area of an enabled region (R283). -/
def State.inEcc (s : State) (a : Nat) : Bool :=
  (List.range 8).any (fun k => match s.eccRegion k with
    | some (b, d) => b ≤ a && a < b + d
    | none => false)

/-- The parity of a AND mask (R272). -/
def parityOf (n : Nat) : Nat :=
  (List.range 40).foldl (fun p i => (p + n / 2 ^ i) % 2) 0

/-- The channel index of a DRAM offset under the set in force (R272). -/
def State.channelOf (s : State) (off : Nat) : Nat :=
  (List.range 5).foldl (fun c i => c + parityOf (off &&& s.mc.chMask.getD i 0) * 2 ^ i) 0

/-- Some byte of the range lies in the check area of an enabled region (R283). -/
def State.meetsCheck (s : State) (a n : Nat) : Bool :=
  (List.range 8).any (fun k => match s.eccRegion k with
    | some (b, d) => a < b + d + d / 8 && b + d < a + n
    | none => false)

/-- A memory access from `a` over `n` bytes meets memory that answers it, all of it (R23, R274, R283, R454). -/
def State.memAnswers (s : State) (a n : Nat) (write : Bool) : Bool :=
  let ok (a : Nat) : Bool := match regionOf s.variant a with
    | .rom => !write
    | .sram => true
    | .mram => true
    | .log => !write
    | .dram _ => s.b MEM_CTRL_en && !s.meetsCheck a n
    | .none => false
  n = 0 || (ok a && ok (a + n - 1) && decide (regionOf s.variant a ≠ .none) &&
    (match regionOf s.variant a, regionOf s.variant (a + n - 1) with
     | .dram _, .dram _ => true
     | .mram, .log => true
     | x, y => decide (x = y)))

/-- The single-bit and multi-bit detectors that cover an address: SRAM (R446) and protected DRAM (R284). -/
def State.eccDets (s : State) (a : Nat) : Option (Nat × Nat) :=
  match regionOf s.variant a with
  | .sram => some (0x5C02, 0x5C03)
  | .dram off =>
    if s.inEcc a then
      let b := (0x38 + s.channelOf off / 8) * 256
      some (b, b + 1)
    else none
  | _ => none

/-- The register offset [37:6] of an error address (MCn_ECC_ADDR). -/
def eccAddr (a : Nat) : Nat := (a - Config.dramBase) / 64 % 2 ^ 32

/-! ### DRAM bursts (R272, R275, R276, R282) -/

/-- The channel masks a variant does not use (R273). -/
def unusedCh : Variant → List Nat
  | .umb9480 => [] | .umb9440 => [2] | .umb9420 => [1, 2]

/-- The used masks of a set. -/
def usedMasks (v : Variant) (ch bk : List Nat) : List Nat :=
  ((List.range 5).filter (fun i => !(unusedCh v).contains i)).map (fun i => ch.getD i 0) ++ bk

/-- The bank of an offset (R272). -/
def State.bankOf (s : State) (off : Nat) : Nat :=
  (List.range 4).foldl (fun c i => c + parityOf (off &&& s.mc.bkMask.getD i 0) * 2 ^ i) 0

/-- The row and column of an offset: the bits that are no pivots, in ascending order (R272). -/
def State.rowCol (s : State) (off : Nat) : Nat × Nat :=
  let piv := (usedMasks s.variant s.mc.chMask s.mc.bkMask).map Nat.log2
  let bits := ((List.range (Config.dramBits s.variant)).drop 6).filter (fun i => !piv.contains i)
  let n := (bits.mapIdx (fun k i => if bitOf off i then 2 ^ k else 0)).sum
  (n / 32, n % 32)

/-- Channel, bank, row and column of an offset. -/
def State.place (s : State) (off : Nat) : Nat × Nat × Nat × Nat := (s.channelOf off, s.bankOf off, s.rowCol off)

/-- Requester classes 0 to 6 are real-time, the others bulk (R275). -/
def realTime (r : Nat) : Bool := r < 7

/-- The page hint of a requester class: 1 OPEN, 2 CLOSE, 3 AUTO (R275). -/
def hintOf (r : Nat) (s : State) : Nat :=
  let o := s.f MEM_HINT_OVR_hint / 4 ^ r % 4
  if o != 0 then o
  else if [0, 1, 4, 5, 9, 10].contains r then 1
  else if [3, 6, 14, 15].contains r then 2
  else 3

/-- The row a request leaves open in its bank, if any (R275). -/
def openRow (ch bank row hint : Nat) (s : State) : State :=
  let k := ch * 16 + bank
  let rows := if hint = 2 then del s.mc.rows k else put s.mc.rows k (row, hint, s.now)
  { s with mc := { s.mc with rows := rows } }

/-- Rows left open by AUTO requests that had no hit for the idle time are precharged (R275). -/
def closeIdle (s : State) : State :=
  let keep (e : Nat × Nat × Nat × Nat) : Bool :=
    e.2.2.1 != 3 || decide (s.now < e.2.2.2 + s.f (MC_PAGE_CFG_idle (e.1 / 128)) * 10000)
  { s with mc := { s.mc with rows := s.mc.rows.filter keep } }

/-- One data cycle of a channel's microsecond (R276). -/
def dataCycle (ch cls : Nat) (s : State) : State :=
  let w := s.now / Config.us
  let (v, b, n) := lookD s.mc.qos (w, 0, 0) ch
  let (b, n) := if v = w then (b, n) else (0, 0)
  { s with mc := { s.mc with qos := put s.mc.qos ch (w, (if realTime cls then b else b + 1), n + 1) } }

/-- A burst of requester class `cls` at a DRAM offset: its class and hint, its place, and the row it leaves open. -/
def burst (cls off : Nat) (s : State) : State :=
  let p := s.place off
  let hint := hintOf cls s
  let s := { s with mc := { s.mc with cls := cls, hint := hint, place := p } }
  dataCycle p.1 cls (openRow p.1 p.2.1 p.2.2.1 hint s)

/-- An attempt and one retry by a detector (R281, R282, R450): true if the second failed too. -/
def tryTwice (det : Nat) (first retry : Bool) (arg : Nat) (s : State) : Bool × State :=
  let (e, s) := examine det (!first) s
  if !e.err then (false, s)
  else
    let (f, s) := examine det (!retry) s
    if f.err then (true, lasting 1 det (e.inj && f.inj) arg 0 s) else (false, transient det e.inj arg 0 s)

/-- A tracking update of a channel that is due (R282). -/
def trackRun (ch : Nat) (first retry : Bool) (s : State) : State :=
  let s := { s with mc := { s.mc with owed := s.mc.owed.filter (· != ch), trackAt := put s.mc.trackAt ch s.now } }
  let (bad, s) := tryTwice (0x3803 + ch / 8 * 256) first retry (ch % 8) s
  if bad then raise (0x38 + ch / 8) 6 (ch % 8) s else s

/-- A channel that left self-refresh completes one tracking update before it serves (R282). One made here, on demand,
finds no real failure (DESIGN CHOICE 37). -/
def trackFirst (ch : Nat) (s : State) : State := if s.mc.owed.contains ch then trackRun ch true true s else s

/-- The bursts of an access from `a` over `n` bytes, if it lies in DRAM. -/
def bursts (cls a n : Nat) (s : State) : State :=
  match regionOf s.variant a with
  | .dram off =>
    if n = 0 then s
    else
      let s := closeIdle s
      (List.range ((off + n - 1) / 64 - off / 64 + 1)).foldl (fun s i =>
        burst cls ((off / 64 + i) * 64) (trackFirst (s.channelOf ((off / 64 + i) * 64)) s)) s
  | _ => s

/-- A read's SECDED check with what the cells hold (R284, R446): the answer is whether data is returned. -/
def eccCheck (a : Nat) (found : EccFound) (s : State) : Bool × State :=
  match s.eccDets a with
  | none => (true, s)
  | some (d1, d2) =>
    let (e1, s) := examine d1 (found == .single) s
    let (e2, s) := examine d2 (found == .multi) s
    let m := d1 / 256 - 0x38
    let dram := decide (d1 ≠ 0x5C02)
    let ch := s.channelOf (a - Config.dramBase) % 8
    if e2.err then
      let s := if dram then raise (0x38 + m) 2 ch (wr (MC_ECC_ADDR_UE m) (BitVec.ofNat 32 (eccAddr a)) (bump (MC_ECC_UE m) s)) else s
      (false, detect d2 e2.inj ch a s)
    else if e1.err then (true, { s with mc := { s.mc with reread := s.mc.reread ++ [(a / 64 * 64, e1.inj)] } })
    else (true, s)

/-- Region `k`'s zero fill completes: its data area reads 0, its check area holds check bytes alone, and busy clears (R283). -/
def fillDone (k : Nat) (s : State) : State :=
  if s.mc.fills.contains k then
    let s := { s with mc := { s.mc with fills := s.mc.fills.filter (· != k) } }
    let s := match s.eccRegion k with
      | some (b, d) =>
        let s := dropFormer b (b + d + d / 8) s
        { s with mem := s.mem.filter (fun e => decide (e.1 < b) || decide (b + d + d / 8 ≤ e.1)) }
      | none => s
    setF (MEM_ECC_RGN_CTRL_busy k) 0 s
  else s

/-- An access to a region that is being filled waits for the fill (R283). -/
def awaitFill (a n : Nat) (s : State) : State :=
  s.mc.fills.foldl (fun s k => match s.eccRegion k with
    | some (b, d) => if a < b + d && decide (b < a + n) then fillDone k s else s
    | none => s) s

/-- Word addresses of the L2's own SECDED, which lies over the cached address (R446), in the list of re-reads. -/
def l2Base : Nat := 2 ^ 40

/-- The single-bit and multi-bit detectors of a word to re-read. -/
def State.wordDets (s : State) (a : Nat) : Option (Nat × Nat) := if l2Base ≤ a then some (0x5C00, 0x5C01) else s.eccDets a

/-- A re-read's verdict (R284, R446, R450). -/
def rereadDone (a : Nat) (found : EccFound) (s : State) : State :=
  match look s.mc.reread a, s.wordDets a with
  | some inj, some (d1, d2) =>
    let s := { s with mc := { s.mc with reread := s.mc.reread.filter (fun e => e.1 != a) } }
    let (e1, s) := examine d1 (found == .single) s
    let (e2, s) := examine d2 (found == .multi) s
    let m := d1 / 256 - 0x38
    let dram := decide (d1 ≠ 0x5C02 ∧ d1 ≠ 0x5C00)
    let ch := s.channelOf (a - Config.dramBase) % 8
    if e2.err then
      let s := if dram then
          raise (0x38 + m) 2 ch (wr (MC_ECC_ADDR_UE m) (BitVec.ofNat 32 (eccAddr a)) (bump (MC_ECC_UE m) s)) else s
      detect d2 e2.inj ch a s
    else
      let s := if dram then wr (MC_ECC_ADDR_CE m) (BitVec.ofNat 32 (eccAddr a)) s else s
      if e1.err then
        let s := if dram then raise (0x38 + m) 1 ch (bump (MC_ECC_CE_LAST m) s) else s
        lasting 1 d1 (inj && e1.inj) ch a s
      else
        let s := if dram then raise (0x38 + m) 0 ch (bump (MC_ECC_CE m) s) else s
        transient d1 inj ch a s
  | _, _ => s

/-- The re-reads due in the bursts of an access come before it (R284, R446); what such a re-read finds beyond the first
error is the command ECC_REREAD's to say, and one made here finds none (DESIGN CHOICE 37). -/
def rereadFirst (a n : Nat) (s : State) : State :=
  (s.mc.reread.map (·.1)).foldl (fun s w =>
    let b := w % l2Base
    if a < b + 64 && decide (b < a + n) then rereadDone w .clean s else s) s

/-- The checks of a clean read over `n` bytes: every word or burst is an examination (R284, R446). -/
def eccRange (a n : Nat) (s : State) : Bool × State :=
  if s.err.slots.isEmpty || n = 0 then (true, s)
  else
    let w := match regionOf s.variant a with
      | .sram => 8
      | _ => 64
    (List.range ((a + n - 1) / w - a / w + 1)).foldl (fun x i =>
      let (ok, s) := eccCheck (if i = 0 then a else (a / w + i) * w) .clean x.2
      (x.1 && ok, s)) (true, s)

/-- The protected words or bursts that a write leaves part of, by an address in each: they are read first (R284, R446). -/
def State.partsOf (s : State) (a n : Nat) : List Nat :=
  let w := match regionOf s.variant a with
    | .sram => 8
    | _ => 64
  let cut := (if a % w != 0 || decide (n < w) then [a] else []) ++
    (if (a + n) % w != 0 && (a + n - 1) / w != a / w then [(a + n - 1) / w * w] else [])
  if n = 0 then [] else match regionOf s.variant a with
    | .sram => cut
    | .dram _ => cut.filter s.inEcc
    | _ => []

/-- The reads of a read-modify-write (R284, R446): `found` is what the first finds, the other finds no error of its own. -/
def rmwCheck (a n : Nat) (found : EccFound) (s : State) : Bool × State :=
  ((s.partsOf a n).foldl (fun (x : Bool × EccFound × State) p =>
    let (ok, s) := eccCheck p x.2.1 x.2.2
    (x.1 && ok, .clean, s)) (true, found, s)) |> fun x => (x.1, x.2.2)

/-- The accesses of a read of `n` bytes by a unit of requester class `cls`: whether every one is answered with data (R23,
R274, R283, R284, R446). -/
def dmaSpan (cls a n : Nat) (s : State) : Bool × State :=
  let s := rereadFirst a n (awaitFill a n s)
  if s.memAnswers a n false then eccRange a n (bursts cls a n s) else (false, s)

/-- A read of memory by a unit of requester class `cls` (R275): the bytes, or an error response. -/
def dmaRead (cls a n : Nat) (s : State) : Option (List Byte) × State :=
  let (ok, s) := dmaSpan cls a n s
  (if ok then some (s.peeks a n) else none, s)

/-- A read whose error response the spec gives no consequence: its bytes are then open (R23, R274). -/
def dmaTake (cls a n : Nat) (s : State) : List Byte × State :=
  match dmaRead cls a n s with
  | (some bs, s) => (bs, s)
  | (none, s) => ((List.range n).map (fun i => Config.errorByte s.fresh (a + i)), s)

/-- A write to memory by a unit of requester class `cls`: an error response changes nothing (R23); part of a protected
word or burst is read first (R284, R446). -/
def dmaWrite (cls a : Nat) (bs : List Byte) (s : State) : Bool × State :=
  let s := rereadFirst a bs.length (awaitFill a bs.length s)
  if s.memAnswers a bs.length true then
    let s := bursts cls a bs.length s
    let (ok, s) := rmwCheck a bs.length .clean s
    if ok then (true, poke a bs s) else (false, s)
  else (false, s)

/-- A unit's write whose error response the spec gives no consequence. -/
def dmaPut (cls a : Nat) (bs : List Byte) (s : State) : State := (dmaWrite cls a bs s).2

/-! ### Throttling -/

/-- The pause that an operation of the unit takes after it at throttle level T1 and above, in picoseconds of a clock (R441). -/
def State.t1Pause (s : State) (clk : Nat) : Nat := if 1 ≤ s.f THM_LEVEL_level then s.f THM_T1_pause * clk else 0

/-! ### Outcomes -/

/-- A machine's answer. -/
abbrev Res := Host.Outcome State Fault Refusal

/-- The command is answered if its operands are in range, and refused by name if not. -/
def guardOk (ok : Bool) (s : State) : Res := if ok then .next s else .refused .illFormed

end Sys2Proof.Machine
end

