-- ==== Sys2Proof/Machine/Hevc.lean ====
section
/-! DEFINITION. The syntax of H.265 around the coded samples (PRESUMED, log 54: ITU-T H.265, which the spec cites and
does not restate): NAL units, parameter sets and slice headers, written by the encoder (R242, R243, R252) and read by
the decoder (R253 to R258). -/

namespace Sys2Proof.Machine

/-- A big-endian number of `n` bytes at a position. -/
def beAt (l : List Byte) (i n : Nat) : Nat := leNat (slice l 0 i n).reverse

/-- `n` bytes of a number, most significant first. -/
def beBytes (n v : Nat) : List Byte := (leBytes n v).reverse

/-! ### Writing -/

/-- An unsigned field of `n` bits, most significant first. -/
def uBits (n v : Nat) : List Bool := (List.range n).map (fun i => v.testBit (n - 1 - i))

/-- An unsigned Exp-Golomb code. -/
def ueBits (v : Nat) : List Bool := let k := (v + 1).log2; List.replicate k false ++ uBits (k + 1) (v + 1)

/-- A signed Exp-Golomb code. -/
def seBits (x : Int) : List Bool := ueBits (if 0 < x then (2 * x - 1).toNat else (-2 * x).toNat)

/-- A bit. -/
def flagBit (b : Bool) : List Bool := [b]

/-- A stop bit and zeros up to a whole byte. -/
def alignBits (b : List Bool) : List Bool := b ++ [true] ++ List.replicate ((7 - b.length % 8) % 8) false

/-- Bits as bytes, the first bit the most significant. -/
def bitsBytes (b : List Bool) : List Byte :=
  (List.range (b.length / 8)).map (fun i => BitVec.ofNat 8 (((b.drop (8 * i)).take 8).foldl (fun n x => 2 * n + x.toNat) 0))

/-- Emulation prevention: a 3 goes before a byte below 4 that follows two zeros. -/
def escapeNal : (zeros : Nat) → List Byte → List Byte
  | _, [] => []
  | z, b :: t =>
    if 2 ≤ z && b.toNat ≤ 3 then 3 :: b :: escapeNal (if b = 0 then 1 else 0) t
    else b :: escapeNal (if b = 0 then z + 1 else 0) t

/-- A NAL unit of type `t` in the byte-stream format, with the zero byte where it begins an access unit or carries a
parameter set. -/
def nalUnit (zero : Bool) (t : Nat) (rbsp : List Byte) : List Byte :=
  (if zero then [0] else []) ++ [0, 0, 1, BitVec.ofNat 8 (2 * t), 1] ++ escapeNal 0 rbsp

/-- What the parameter sets and the slice header of a picture say: profile code of HVC_ECc_CFG, level, size, limits,
VUI, IDR or P, POC, the SHORT and LONG references by POC, and the base QP (R241 to R252). -/
structure HevcHead where
  profile : Nat
  level   : Nat
  w       : Nat
  h       : Nat
  st      : Nat
  lt      : Nat
  vui     : Nat × Nat × Nat × Bool
  idr     : Bool
  poc     : Nat
  short   : List Nat
  long    : List Nat
  qp      : Nat
  deriving DecidableEq, Repr

/-- An element that the encoder's rules leave open, in 0 to `n` - 1. -/
def hevcOpen (k n : Nat) : Nat := Config.hevcOpen k % n

/-- Profile, High tier and level (R241). -/
def ptlBits (x : HevcHead) : List Bool :=
  let idc := if x.profile = 2 then 4 else x.profile + 1
  uBits 2 0 ++ [true] ++ uBits 5 idc ++
    (List.range 32).map (fun j => j == idc || (x.profile == 0 && j == 2)) ++
    [true, false, false, true] ++
    (if x.profile = 2 then [true, true, false, true, false, false, false, false, true] ++ uBits 34 0 else uBits 43 0) ++
    [false] ++ uBits 8 x.level

/-- Buffering: every reference the limits allow, and no reordering (R241, R245). -/
def dpbBits (x : HevcHead) : List Bool := ueBits (x.st + x.lt) ++ ueBits 0 ++ ueBits 0

/-- The video parameter set. -/
def vpsBits (x : HevcHead) : List Bool :=
  uBits 4 0 ++ [true, true] ++ uBits 6 0 ++ uBits 3 0 ++ [true] ++ uBits 16 0xFFFF ++ ptlBits x ++ [true] ++
    dpbBits x ++ uBits 6 0 ++ ueBits 0 ++ [false, false]

/-- The conformance window that hides the padding of R242, in chroma units. -/
def confBits (x : HevcHead) : List Bool :=
  let (W, H) := (ceilDiv x.w 8 * 8, ceilDiv x.h 8 * 8)
  if W = x.w && H = x.h then [false]
  else [true] ++ ueBits 0 ++ ueBits ((W - x.w) / 2) ++ ueBits 0 ++ ueBits (if x.profile = 2 then H - x.h else (H - x.h) / 2)

/-- The VUI: colour description and range (R252). -/
def vuiBits (x : HevcHead) : List Bool :=
  let (prim, xfer, mat, full) := x.vui
  [false, false, true] ++ uBits 3 5 ++ [full, true] ++ uBits 8 prim ++ uBits 8 xfer ++ uBits 8 mat ++
    [false, false, false, false, false, false, false]

/-- The sequence parameter set: 64 × 64 CTBs, CUs from 8 × 8, TUs from 4 × 4 to 32 × 32, flat lists, no AMP, SAO on, no
PCM, no short-term sets (they go in the slice header), 16 bits of POC (R243). -/
def spsBits (x : HevcHead) : List Bool :=
  let depth := if x.profile = 0 then 0 else 2
  uBits 4 0 ++ uBits 3 0 ++ [true] ++ ptlBits x ++ ueBits 0 ++ ueBits (if x.profile = 2 then 2 else 1) ++
    ueBits (ceilDiv x.w 8 * 8) ++ ueBits (ceilDiv x.h 8 * 8) ++ confBits x ++ ueBits depth ++ ueBits depth ++ ueBits 12 ++
    [true] ++ dpbBits x ++ ueBits 0 ++ ueBits 3 ++ ueBits 0 ++ ueBits 3 ++ ueBits (hevcOpen 0 5) ++ ueBits (hevcOpen 1 5) ++
    [false, false, true, false] ++ ueBits 0 ++ (if x.lt = 0 then [false] else [true] ++ ueBits 0) ++
    [true, hevcOpen 2 2 == 1, true] ++ vuiBits x ++ [false]

/-- The picture parameter set: QP per CTB, no transform skip, no weighted prediction, no tiles, no WPP, deblocking on
(R243, R247). -/
def ppsBits : List Bool :=
  ueBits 0 ++ ueBits 0 ++ [false, false] ++ uBits 3 0 ++ [hevcOpen 3 2 == 1, false] ++ ueBits 0 ++ ueBits 0 ++ seBits 0 ++
    [false, false, true] ++ ueBits (hevcOpen 4 4) ++ seBits 0 ++ seBits 0 ++
    [false, false, false, false, false, false, false, false, false, false] ++ ueBits (hevcOpen 5 5) ++ [false, false]

/-- The distances of the SHORT references from a picture, nearest first, as their codes. -/
def stRpsBits : (last : Nat) → List Nat → List Bool
  | _, [] => []
  | l, p :: t => ueBits (l - p - 1) ++ [true] ++ stRpsBits p t

/-- The slice header (R243, R245): one slice; the reference set is in it, and a P picture predicts from every
reference. -/
def sliceBits (x : HevcHead) : List Bool :=
  let n := x.short.length + x.long.length
  let start := [true] ++ (if x.idr then [false] else []) ++ ueBits 0 ++ ueBits (if x.idr then 2 else 1)
  let near := x.short.mergeSort (fun a b => decide (b ≤ a))
  let lsb (p : Nat) := p % 65536
  let far := x.long.mergeSort (fun a b => decide (x.poc / 65536 - a / 65536 ≤ x.poc / 65536 - b / 65536))
  let cycles := far.map (fun p => x.poc / 65536 - p / 65536)
  let longBits := (List.range far.length).flatMap (fun i =>
    uBits 16 (lsb (far.getD i 0)) ++ [true, true] ++ ueBits (cycles.getD i 0 - (if i = 0 then 0 else cycles.getD (i - 1) 0)))
  let refs := if x.idr then [] else
    uBits 16 (lsb x.poc) ++ [false] ++ ueBits near.length ++ ueBits 0 ++ stRpsBits x.poc near ++
      (if x.lt = 0 then [] else ueBits far.length ++ longBits) ++ [true]
  let lists := if x.idr then [] else
    [true] ++ ueBits (n - 1) ++ (if 1 < n then ueBits (hevcOpen 6 n) else []) ++ ueBits (hevcOpen 7 5)
  alignBits (start ++ refs ++ [true, true] ++ lists ++ seBits ((x.qp : Int) - 26))

/-- The bytes of an access unit before its slice data (R243): the delimiter, an IDR's parameter sets, and the slice
header. -/
def hevcHead (x : HevcHead) : List Byte :=
  let nal (zero : Bool) (t : Nat) (b : List Bool) := nalUnit zero t (bitsBytes (alignBits b))
  nal true 35 (uBits 3 (if x.idr then 0 else 1)) ++
    (if x.idr then nal true 32 (vpsBits x) ++ nal true 33 (spsBits x) ++ nal true 34 ppsBits else []) ++
    nalUnit false (if x.idr then 19 + hevcOpen 8 2 else 1) (bitsBytes (sliceBits x))

/-! ### Reading -/

/-- A reader of bits. -/
abbrev Rd := StateT (List Bool) Option

/-- Reads an unsigned field of `n` bits. -/
def rU (n : Nat) : Rd Nat := fun b =>
  if b.length < n then none else some ((b.take n).foldl (fun v x => 2 * v + x.toNat) 0, b.drop n)

/-- Reads a bit. -/
def rFlag : Rd Bool := return (← rU 1) == 1

/-- Reads an unsigned Exp-Golomb code. -/
def rUe : Rd Nat := fun b =>
  let k := (b.takeWhile (! ·)).length
  if 32 < k then none else (rU (2 * k + 1) b).map (fun x => (x.1 - 1, x.2))

/-- Reads a signed Exp-Golomb code. -/
def rSe : Rd Int := do
  let v ← rUe
  return if v % 2 = 1 then (v / 2 + 1 : Nat) else -((v / 2 : Nat) : Int)

/-- Reads `n` things. -/
def rMany {α : Type} (n : Nat) (r : Rd α) : Rd (List α) := (List.range n).mapM (fun _ => r)

/-- Reads something if `c` holds. -/
def rIf {α : Type} (c : Bool) (d : α) (r : Rd α) : Rd α := if c then r else return d

/-- Bits of an index below `n`. -/
def idxBits (n : Nat) : Nat := if n ≤ 1 then 0 else (n - 1).log2 + 1

/-- The NAL units of an access unit, at its start codes. -/
def nalUnits (l : List Byte) : List (List Byte) :=
  let a := l.toArray
  let n := a.size
  let is (i b : Nat) : Bool := a.getD i 255 == BitVec.ofNat 8 b
  let starts := (List.range (n - 2)).filter (fun i => is i 0 && is (i + 1) 0 && is (i + 2) 1)
  let ends := starts.drop 1 ++ [n]
  let trim (u : List Byte) : List Byte := (u.reverse.dropWhile (· == 0)).reverse
  ((starts.zip ends).map (fun (b, e) => trim ((a.extract (b + 3) e).toList))).filter (fun u => 2 ≤ u.length)

/-- A NAL unit's payload without its emulation prevention bytes. -/
def unescapeNal : (zeros : Nat) → List Byte → List Byte
  | _, [] => []
  | z, b :: t =>
    if 2 ≤ z && b.toNat = 3 then unescapeNal 0 t
    else b :: unescapeNal (if b = 0 then z + 1 else 0) t

/-- The bits of a NAL unit after its header. -/
def nalBits (u : List Byte) : List Bool := (unescapeNal 0 (u.drop 2)).flatMap (fun b => uBits 8 b.toNat)

/-- Reads profile, tier and level: the profile code with its compatibility flags and first constraint flags, and the
level. -/
def rPtl (sub : Nat) : Rd ((Nat × Nat × Nat) × Nat) := do
  let _ ← rU 3
  let idc ← rU 5
  let compat ← rU 32
  let _ ← rU 4
  let cons ← rU 9
  let _ ← rU 35
  let level ← rU 8
  let present ← rMany sub (do let p ← rFlag; let l ← rFlag; return (p, l))
  let _ ← rIf (0 < sub) 0 (rU (2 * (8 - sub)))
  for (p, l) in present do
    let _ ← rIf p 0 (rU 88)
    let _ ← rIf l 0 (rU 8)
  return ((idc, compat, cons), level)

/-- Reads scaling lists, which no rule here needs. -/
def rScaling : Rd Unit := do
  for size in List.range 4 do
    for _ in List.range (if size = 3 then 2 else 6) do
      let mode ← rFlag
      if mode then
        let _ ← rIf (1 < size) 0 rSe
        let _ ← rMany (min 64 (2 ^ (4 + 2 * size))) rSe
      else
        let _ ← rUe

/-- Reads short-term set `i`, given those before it; in a slice header `i` is their number. -/
def rRps (before : List HevcRps) (i : Nat) (inSlice : Bool) : Rd HevcRps := do
  let inter ← rIf (i != 0) false rFlag
  if inter then
    let back ← rIf inSlice 0 rUe
    let sign ← rU 1
    let mag ← rUe
    let r := before.getD (i - (back + 1)) {}
    let d : Int := if sign = 1 then -((mag + 1 : Nat) : Int) else (mag + 1 : Nat)
    let all := r.s0 ++ r.s1
    let uses ← rMany (all.length + 1) (do
      let used ← rFlag
      let use ← rIf (!used) true rFlag
      return (used, use))
    let old (l : List (Int × Bool)) (off : Nat) : List (Int × Bool × Bool) :=
      (List.range l.length).map (fun j => ((l.getD j (0, false)).1 + d, uses.getD (off + j) (false, false)))
    let here := (d, uses.getD all.length (false, false))
    let lower := (old r.s1 r.s0.length).reverse ++ [here] ++ old r.s0 0
    let upper := (old r.s0 0).reverse ++ [here] ++ old r.s1 r.s0.length
    let pick (l : List (Int × Bool × Bool)) (ok : Int → Bool) :=
      (l.filter (fun e => ok e.1 && e.2.2)).map (fun e => (e.1, e.2.1))
    return { s0 := pick lower (fun x => decide (x < 0)), s1 := pick upper (fun x => decide (0 < x)) }
  else
    let neg ← rUe
    let pos ← rUe
    if 16 < neg || 16 < pos then failure
    let ds0 ← rMany neg (do let x ← rUe; let u ← rFlag; return (x + 1, u))
    let ds1 ← rMany pos (do let x ← rUe; let u ← rFlag; return (x + 1, u))
    let sums (sg : Int) (l : List (Nat × Bool)) : List (Int × Bool) :=
      (l.foldl (fun (x : Int × List (Int × Bool)) e => (x.1 + sg * (e.1 : Nat), x.2 ++ [(x.1 + sg * (e.1 : Nat), e.2)])) (0, [])).2
    return { s0 := sums (-1) ds0, s1 := sums 1 ds1 }

/-- Reads a sequence parameter set: its number and what the decoder needs of it. -/
def rSps : Rd (Nat × HevcSps) := do
  let _ ← rU 4
  let sub ← rU 3
  let _ ← rU 1
  let (prof, level) ← rPtl sub
  let id ← rUe
  let chroma ← rUe
  let planes ← rIf (chroma == 3) false rFlag
  let w ← rUe
  let h ← rUe
  let conf ← rFlag
  let win ← rIf conf [0, 0, 0, 0] (rMany 4 rUe)
  let dy ← rUe
  let dc ← rUe
  let lsb ← rUe
  let every ← rFlag
  let bufs ← rMany (if every then sub + 1 else 1) (do
    let d ← rUe; let r ← rUe; let l ← rUe
    return (d, r, l))
  let minCb ← rUe
  let diff ← rUe
  let _ ← rMany 4 rUe
  let lists ← rFlag
  if lists then
    if ← rFlag then rScaling
  let _ ← rU 1
  let sao ← rFlag
  if ← rFlag then
    let _ ← rU 8
    let _ ← rUe
    let _ ← rUe
    let _ ← rU 1
  let n ← rUe
  if 64 < n then failure
  let sets ← (List.range n).foldlM (fun l i => do return l ++ [← rRps l i false]) []
  let long ← rFlag
  let k ← rIf long 0 rUe
  if 32 < k then failure
  let lts ← rMany k (do let p ← rU (lsb + 4); let u ← rFlag; return (p, u))
  let tmvp ← rFlag
  let (d, r, l) := bufs.getLast?.getD (0, 0, 0)
  return (id, {
    prof := prof, level := level, chroma := chroma, planes := planes, w := w, h := h, win := win, depthY := dy + 8
    depthC := dc + 8, lsb := lsb + 4, ctb := minCb + 3 + diff, dpb := d + 1, reorder := r
    latency := if l = 0 then none else some (r + l - 1), sao := sao, sets := sets, long := long, lts := lts, tmvp := tmvp })

/-- Reads a picture parameter set: its number and what the decoder needs of it. -/
def rPps : Rd (Nat × HevcPps) := do
  let id ← rUe
  let sps ← rUe
  let dep ← rFlag
  let out ← rFlag
  let extra ← rU 3
  let _ ← rU 2
  let n0 ← rUe
  let n1 ← rUe
  let _ ← rSe
  let _ ← rU 2
  let qd ← rFlag
  let _ ← rIf qd 0 rUe
  let _ ← rSe
  let _ ← rSe
  let _ ← rU 4
  let tiles ← rFlag
  let _ ← rU 1
  let (cols, rows, uni, cw, rh) ← rIf tiles (1, 1, true, [], []) (do
    let c ← rUe
    let r ← rUe
    if 64 < c || 64 < r then failure
    let u ← rFlag
    let cw ← rIf (!u) [] (rMany c rUe)
    let rh ← rIf (!u) [] (rMany r rUe)
    let _ ← rU 1
    return (c + 1, r + 1, u, cw.map (· + 1), rh.map (· + 1)))
  let _ ← rU 1
  if ← rFlag then
    let _ ← rU 1
    if !(← rFlag) then
      let _ ← rSe
      let _ ← rSe
  if ← rFlag then rScaling
  let mods ← rFlag
  return (id, {
    sps := sps, dep := dep, out := out, extra := extra, n0 := n0 + 1, n1 := n1 + 1, mods := mods, cols := cols
    rows := rows, uniform := uni, colW := cw, rowH := rh })

/-- Reads a slice segment header of NAL type `t` as far as the decoder's rules need it; none where its parameter sets
are missing. -/
def rSlice (spss : List (Nat × HevcSps)) (ppss : List (Nat × HevcPps)) (t : Nat) : Rd HevcSlice := do
  let first ← rFlag
  let prior ← rIf (16 ≤ t && t ≤ 23) false rFlag
  let id ← rUe
  let some pps := look ppss id | failure
  let some sps := look spss pps.sps | failure
  let dep ← rIf (!first && pps.dep) false rFlag
  let ctb := 2 ^ sps.ctb
  let addr ← rIf (!first) 0 (rU (idxBits (ceilDiv sps.w ctb * ceilDiv sps.h ctb)))
  let x : HevcSlice := { nal := t, first := first, prior := prior, pps := id, dep := dep, addr := addr }
  if dep then return x
  let _ ← rU pps.extra
  let kind ← rUe
  let shown ← rIf pps.out true rFlag
  let _ ← rIf sps.planes 0 (rU 2)
  let idr := t == 19 || t == 20
  let (lsb, rps, lts) ← rIf (!idr) (0, {}, []) (do
    let lsb ← rU sps.lsb
    let known ← rFlag
    let rps ← if known then (do
        let i ← rU (idxBits sps.sets.length)
        return sps.sets.getD i {})
      else rRps sps.sets sps.sets.length true
    let lts ← rIf sps.long [] (do
      let a ← rIf (!sps.lts.isEmpty) 0 rUe
      let b ← rUe
      if 33 < a + b then failure
      let l ← (List.range (a + b)).foldlM (fun (l : List HevcLong) i => do
        let (p, u) ← if i < a then (do
            let k ← rU (idxBits sps.lts.length)
            return sps.lts.getD k (0, false))
          else (do let p ← rU sps.lsb; let u ← rFlag; return (p, u))
        let msb ← rFlag
        let c ← rIf msb 0 rUe
        let prev := if i = 0 || i = a then 0 else ((l.getLast?).map (·.cycle)).getD 0
        return l ++ [{ lsb := p, used := u, msb := msb, cycle := c + prev }]) []
      return l)
    let _ ← rIf sps.tmvp 0 (rU 1)
    return (lsb, rps, lts))
  let _ ← rIf sps.sao 0 (rU (if sps.chroma = 0 || sps.planes then 1 else 2))
  if kind = 2 then return { x with kind := 2, shown := shown, lsb := lsb, rps := rps, lts := lts }
  let ovr ← rFlag
  let n0 ← rIf ovr (pps.n0 - 1) rUe
  let n1 ← rIf (ovr && kind == 0) (pps.n1 - 1) rUe
  let total := ((rps.s0 ++ rps.s1).filter (·.2)).length + (lts.filter (·.used)).length
  let entry ← rIf (pps.mods && 1 < total) none (do
    let m ← rFlag
    if m then return some (← rU (idxBits total)) else return none)
  return { x with
    kind := kind, shown := shown, lsb := lsb, rps := rps, lts := lts, n0 := n0 + 1
    n1 := if kind = 0 then n1 + 1 else 0, entry := entry.getD 0 }

/-! ### Coding order of CTBs -/

/-- The sizes of `n` tile columns or rows over `len` CTBs. -/
def tileSizes (n len : Nat) (uniform : Bool) (given : List Nat) : List Nat :=
  if uniform then (List.range n).map (fun i => (i + 1) * len / n - i * len / n)
  else given ++ [len - given.sum]

/-- The CTBs of a picture by raster address, in coding order: tile by tile. -/
def codingOrder (sps : HevcSps) (pps : HevcPps) : List Nat :=
  let ctb := 2 ^ sps.ctb
  let (W, H) := (ceilDiv sps.w ctb, ceilDiv sps.h ctb)
  let spans (l : List Nat) : List (Nat × Nat) :=
    (l.foldl (fun (x : Nat × List (Nat × Nat)) k => (x.1 + k, x.2 ++ [(x.1, k)])) (0, [])).2
  let cols := spans (tileSizes pps.cols W pps.uniform pps.colW)
  let rows := spans (tileSizes pps.rows H pps.uniform pps.rowH)
  rows.flatMap (fun (y0, h) => cols.flatMap (fun (x0, w) =>
    (List.range h).flatMap (fun y => (List.range w).map (fun x => (y0 + y) * W + x0 + x))))

/-- A profile, level and size that the decoder decodes (R241): Main, Main 10 or Main 4:2:2 10, up to level 6.1. -/
def hevcSupported (x : HevcSps) : Bool :=
  let (idc, compat, cons) := x.prof
  let is (k : Nat) : Bool := idc == k || bitOf compat (31 - k)
  let main := is 1 || is 2
  let rext := is 4 && cons / 8 == 52
  ((main && x.chroma == 1) || (rext && decide (x.chroma ≤ 2))) &&
    decide (x.depthY ≤ (if is 1 then 8 else 10) ∧ x.depthC ≤ (if is 1 then 8 else 10)) && decide (x.level ≤ 183) &&
    decide (1 ≤ x.w ∧ x.w ≤ 8192 ∧ 1 ≤ x.h ∧ x.h ≤ 8192 ∧ x.w * x.h ≤ 35651584)

end Sys2Proof.Machine
end

