-- ==== Sys2Proof/Machine/Frame.lean ====
section
/-! DEFINITION. CRC-32 (IEEE 802.3), the frame descriptor (R44) and the frame status word (R45). -/

namespace Sys2Proof.Machine

/-- One byte into a reflected CRC of polynomial `poly`. -/
def crcByte (poly : Nat) (c : Nat) (b : Byte) : Nat :=
  (List.range 8).foldl (fun c _ => if c % 2 = 1 then c / 2 ^^^ poly else c / 2) (c ^^^ b.toNat)

/-- CRC-32 (IEEE 802.3) of a byte string. -/
def crc32 (bs : List Byte) : Nat := bs.foldl (crcByte 0xEDB88320) 0xFFFFFFFF ^^^ 0xFFFFFFFF

/-! FSW bits (R45). -/
def fswShort : Nat := 0
def fswLong : Nat := 1
def fswTruncated : Nat := 2
def fswSettingsLate : Nat := 3
def fswMismatch : Nat := 4
def fswNoEcho : Nat := 5
def fswMergeDegraded : Nat := 6
def fswLineCrc : Nat := 7
def fswHeaderCrc : Nat := 8
def fswLaneRemap : Nat := 9
def fswRefHoldover : Nat := 10
def fswRefUnlocked : Nat := 11
def fswCommitApplied : Nat := 12
def fswCommitLate : Nat := 13
def fswOverlay : Nat := 14
def fswBelowRate : Nat := 15
def fswPipRetired : Nat := 16
def fswStatsPartial : Nat := 17
def fswRowsFilled : Nat := 18
def fswThermal : Nat := 19
def fswLineFill : Nat := 20
def fswGroup : Nat := 21
def fswTimeInvalid : Nat := 22
def fswFifo : Nat := 23

/-- The bits whose OR is bit 31 (R45): the pixels differ from what the sensor sent. -/
def fswDiffer : Nat := 2 ^ 0 + 2 ^ 1 + 2 ^ 2 + 2 ^ 4 + 2 ^ 6 + 2 ^ 7 + 2 ^ 8 + 2 ^ 16 + 2 ^ 18 + 2 ^ 20 + 2 ^ 23

/-- An FSW with bit `i` set, and bit 31 kept as R45 states. -/
def fswSet (i w : Nat) : Nat :=
  let w := w ||| 2 ^ i
  if w &&& fswDiffer = 0 then w else w ||| 2 ^ 31

/-- An FSW with bit `i` set when `c` holds. -/
def fswIf (c : Bool) (i w : Nat) : Nat := if c then fswSet i w else w

/-- An FSW with the bits of another carried over (R43). -/
def fswOr (a b : Nat) : Nat :=
  let w := a ||| b
  if w &&& fswDiffer = 0 then w else w ||| 2 ^ 31

/-- The time-unit time of a stamp as the descriptor lays it out. -/
def stampBytes (t : Stamp) : List Byte := leBytes 4 (t.ns % 2 ^ 30) ++ leBytes 4 t.sec ++ leBytes 4 (t.sec / 2 ^ 32 % 2 ^ 16)

/-- The first 124 bytes of a frame descriptor (R44). -/
def descBody (i : FrameInfo) (x : BufInfo) : List Byte :=
  leBytes 4 (0x0001 + x.blk % 256 * 2 ^ 16 + x.out % 256 * 2 ^ 24) ++
  leBytes 4 i.pfn ++ leBytes 4 i.rfn ++
  leBytes 4 (i.sid % 65536 + i.seq % 65536 * 65536) ++
  leBytes 4 i.fsw ++
  leBytes 4 (i.rowsRx % 65536 + i.rowsCfg % 65536 * 65536) ++
  leBytes 4 (i.width % 65536 + i.height % 65536 * 65536) ++
  leBytes 4 (i.counter % 65536 + x.fmt % 256 * 2 ^ 16 + i.readouts % 16 * 2 ^ 24 + i.overlay % 16 * 2 ^ 28) ++
  stampBytes i.sof ++ stampBytes i.eof ++
  leBytes 8 x.addr ++ leBytes 4 x.len ++ leBytes 4 x.written ++ leBytes 4 x.stride ++
  leBytes 4 (i.discarded % 65536 + i.filled % 65536 * 65536) ++
  leBytes 8 i.hist ++ leBytes 8 i.zone ++ leBytes 8 i.luma ++ leBytes 8 i.emb ++
  leBytes 4 (i.level % 4 + i.gen % 256 * 256) ++ leBytes 8 0

/-- A frame descriptor with its CRC (R44). -/
def descBytes (i : FrameInfo) (x : BufInfo) : List Byte :=
  let b := descBody i x
  b ++ leBytes 4 (crc32 b)

/-- A time as the descriptor lays it out. -/
def stampAt (d : List Byte) (o : Nat) : Stamp := ⟨leAt d (o + 4) 4 + leAt d (o + 8) 2 * 2 ^ 32, leAt d o 4 % 2 ^ 30⟩

/-- What a descriptor says of its frame. -/
def descInfo (d : List Byte) : FrameInfo where
  pfn := leAt d 0x04 4
  rfn := leAt d 0x08 4
  sid := leAt d 0x0C 2
  seq := leAt d 0x0E 2
  fsw := leAt d 0x10 4
  rowsRx := leAt d 0x14 2
  rowsCfg := leAt d 0x16 2
  width := leAt d 0x18 2
  height := leAt d 0x1A 2
  counter := leAt d 0x1C 2
  readouts := leAt d 0x1F 1 % 16
  overlay := leAt d 0x1F 1 / 16
  sof := stampAt d 0x20
  eof := stampAt d 0x2C
  discarded := leAt d 0x4C 2
  filled := leAt d 0x4E 2
  hist := leAt d 0x50 8
  zone := leAt d 0x58 8
  luma := leAt d 0x60 8
  emb := leAt d 0x68 8
  level := leAt d 0x70 1 % 4
  gen := leAt d 0x71 1

/-- What a descriptor says of its buffer. -/
def descBuf (d : List Byte) : BufInfo where
  blk := leAt d 0x02 1
  out := leAt d 0x03 1
  fmt := leAt d 0x1E 1
  addr := leAt d 0x38 8
  len := leAt d 0x40 4
  written := leAt d 0x44 4
  stride := leAt d 0x48 4

end Sys2Proof.Machine
end

