-- ==== Sys2Proof/Machine/Rings.lean ====
section
/-! DEFINITION. Frame rings and credits (R11 to R15, R171 to R174, R232, R250): the family of ring commands and the
operations every producer and consumer uses. -/

namespace Sys2Proof.Machine

/-- A ring's number in `State.rings`. -/
def ringNo : RingId → Nat
  | .tap n t => n * 16 + t
  | .branch n b => n * 16 + 8 + b
  | .prc n => 256 + n
  | .enc c => 512 + c

/-- The domain of a ring's producer. -/
def ringDom : RingId → Nat
  | .tap n _ => dIP n
  | .branch n _ => dIP n
  | .prc _ => dPRC
  | .enc _ => dHVC

/-- The registers of a ring. -/
structure RingRegs where
  base   : Nat
  baseHi : Nat
  cfg    : Nat
  slot   : Nat
  stride : Option Nat
  stat   : Nat
  prodLo : Nat
  prodHi : Nat
  dropLo : Nat
  dropHi : Nat
  bad    : Fld

/-- A ring's registers (chapters 07, 09 and 10). -/
def ringRegs : RingId → RingRegs
  | .tap n t => ⟨IP_T_RING_LO n t, IP_T_RING_HI n t, IP_T_RING_CFG n t, IP_T_SLOT n t, some (IP_T_STRIDE n t),
      IP_T_RING_STAT n t, IP_T_PROD_LO n t, IP_T_PROD_HI n t, IP_T_DROP_LO n t, IP_T_DROP_HI n t,
      IP_T_STATUS_bad_write n t⟩
  | .branch n b => ⟨IP_O_RING_LO n b, IP_O_RING_HI n b, IP_O_RING_CFG n b, IP_O_SLOT n b, some (IP_O_STRIDE n b),
      IP_O_RING_STAT n b, IP_O_PROD_LO n b, IP_O_PROD_HI n b, IP_O_DROP_LO n b, IP_O_DROP_HI n b,
      IP_O_STATUS_bad_write n b⟩
  | .prc n => ⟨PRC_RING_LO n, PRC_RING_HI n, PRC_RING_CFG n, PRC_SLOT n, none, PRC_RING_STAT n, PRC_PROD_LO n,
      PRC_PROD_HI n, PRC_DROP_LO n, PRC_DROP_HI n, PRC_STATUS_bad_write n⟩
  | .enc c => ⟨HVC_EC_RING_LO c, HVC_EC_RING_HI c, HVC_EC_RING_CFG c, HVC_EC_SLOT c, none, HVC_EC_RING_STAT c,
      HVC_EC_PROD_LO c, HVC_EC_PROD_HI c, HVC_EC_DROP_LO c, HVC_EC_DROP_HI c, HVC_EC_STATUS_bad_write c⟩

/-- A ring's state. -/
def State.ring (s : State) (r : RingId) : RingSt := lookD s.rings {} (ringNo r)

/-- Buffers of a ring. -/
def State.ringBufs (s : State) (r : RingId) : Nat := bitsOf (s.rd (ringRegs r).cfg).toNat 6 0

/-- Bytes of a slot. -/
def State.ringSlot (s : State) (r : RingId) : Nat := (s.rd (ringRegs r).slot).toNat

/-- Row stride of a ring; 0 for coded streams. -/
def State.ringStride (s : State) (r : RingId) : Nat :=
  match (ringRegs r).stride with
  | some a => (s.rd a).toNat
  | none => 0

/-- Address of slot `i` (R171). -/
def State.slotAddr (s : State) (r : RingId) (i : Nat) : Nat :=
  s.pair (ringRegs r).base (ringRegs r).baseHi + i * s.ringSlot r

/-- Some consumer holds buffer `b` (R12). -/
def RingSt.holds (g : RingSt) (b : Nat) : Bool := g.cons.any (fun c => c.held.contains b)

/-- Buffers that consumers hold. -/
def RingSt.heldCount (g : RingSt) (bufs : Nat) : Nat := ((List.range bufs).filter g.holds).length

/-- Puts a ring's state and shows it in RING_STAT: held buffers, and the credits that remain (R459). -/
def putRing (r : RingId) (g : RingSt) (s : State) : State :=
  let bufs := s.ringBufs r
  let held := g.heldCount bufs
  let writing := if g.writing.isSome then 1 else 0
  let s := { s with rings := put s.rings (ringNo r) g }
  wr (ringRegs r).stat (BitVec.ofNat 32 (held + (bufs - held - writing) * 256)) s

/-- Buffer indices in the order a producer searches them: from the one after the last taken (R172). -/
def searchOrder (next bufs : Nat) : List Nat := (List.range bufs).map (fun i => (next + i) % bufs)

/-- Counts a dropped frame (R11). -/
def ringDrop (r : RingId) (s : State) : State := addPair (ringRegs r).dropLo (ringRegs r).dropHi 1 s

/-- What a producer's frame start came to (R11, R14). -/
inductive Took
  | off | dropped | buf (i : Nat)
  deriving DecidableEq, Repr

/-- A producer's frame start: it takes the first credit from the search position, or drops the frame (R11, R172);
a ring of zero buffers writes nothing and drops nothing (R14). -/
def ringTake (r : RingId) (s : State) : Took × State :=
  let bufs := s.ringBufs r
  let g := s.ring r
  if bufs = 0 then (.off, s)
  else
    match (searchOrder g.next bufs).find? (fun b => !g.holds b && g.writing != some b) with
    | some b => (.buf b, putRing r { g with writing := some b, next := (b + 1) % bufs, ready := none } s)
    | none => (.dropped, ringDrop r s)

/-- The frame being written is abandoned: its buffer returns as a credit and it counts as dropped (R166, R423). -/
def ringAbandon (r : RingId) (s : State) : State :=
  let g := s.ring r
  match g.writing with
  | none => s
  | some _ => ringDrop r (putRing r { g with writing := none, ready := none } s)

/-- The requester class of a ring's consumer (R275). -/
def consumerClass : ConsumerId → Nat
  | .stream _ => 10
  | .enc _ => 7
  | .sco => 5
  | .net _ => 12
  | .firmware _ => 13

/-- A consumer reads the descriptor beside a buffer. -/
def readDesc (c : ConsumerId) (r : RingId) (b : Nat) (s : State) : List Byte × State :=
  dmaTake (consumerClass c) (s.slotAddr r b) 128 s

/-- Rounds up to a multiple. -/
def upTo (m n : Nat) : Nat := ceilDiv n m * m

/-- The size is one the encoder codes (R241). -/
def ecSizeOk (profile w h : Nat) : Bool :=
  w % 2 == 0 && decide (64 ≤ w ∧ w ≤ 8192 ∧ 64 ≤ h ∧ h ≤ 4320) && (profile == 2 || h % 2 == 0)

/-- The input frame is one encoder context `c` codes (R242); ycc = 0b11 acts as 0b00 (R153). -/
def ecInputOk (c : Nat) (i : FrameInfo) (x : BufInfo) (s : State) : Bool :=
  let ycc := s.g (IP_O_XF_CFG_ycc (s.g (HVC_EC_SRC_pipe c)) (s.g (HVC_EC_SRC_branch c)))
  x.fmt == 0x20 && (ycc == 1 || ycc == 2) &&
    ecSizeOk (s.g (HVC_EC_CFG_profile c)) i.width i.height

/-- The buffers a consumer holds, oldest first. -/
def State.heldBy (s : State) (r : RingId) (c : ConsumerId) : List Nat :=
  match (s.ring r).cons.find? (fun x => x.id == c) with
  | some x => x.held
  | none => []

/-- A consumer releases one buffer (R12). -/
def ringRelease (r : RingId) (c : ConsumerId) (b : Nat) (s : State) : State :=
  let g := s.ring r
  if (s.heldBy r c).contains b then
    putRing r { g with cons := g.cons.map (fun x => if x.id == c then { x with held := x.held.erase b } else x) } s
  else s

/-- An encoder context that is offered a frame it does not code releases it at once (R242). -/
def encRefuse (r : RingId) (b : Nat) (s : State) : State :=
  (s.ring r).cons.foldl (fun s x => match x.id with
    | .enc c =>
      let (d, s) := readDesc (.enc c) r b s
      if ecInputOk c (descInfo d) (descBuf d) s then s
      else raise 0x30 3 c (bump (HVC_EC_SKIP c) (ringRelease r (.enc c) b s))
    | _ => s) s

/-- The written buffer is offered to every attached consumer, which holds it; with none it is a credit again
(R12, R13). -/
def ringOffer (r : RingId) (s : State) : State :=
  let g := s.ring r
  match g.writing with
  | none => s
  | some b =>
    encRefuse r b <| addPair (ringRegs r).prodLo (ringRegs r).prodHi 1 <|
      putRing r { g with writing := none, ready := none, cons := g.cons.map (fun c => { c with held := c.held ++ [b] }) } s

/-- The requester class of a ring's producer (R275). -/
def ringClass : RingId → Nat
  | .prc _ => 4
  | .enc _ => 7
  | .tap _ _ => 1
  | .branch _ _ => 1

/-- Writes the descriptor of the completed frame beside its buffer and offers it (R44, R171). -/
def ringPublish (r : RingId) (s : State) : State :=
  let g := s.ring r
  match g.writing, g.ready with
  | some b, some (i, x) => ringOffer r (dmaPut (ringClass r) (s.slotAddr r b) (descBytes i x) s)
  | _, _ => s

/-- Attaches a consumer; a ring has at most 4. -/
def ringAttach (r : RingId) (c : ConsumerId) (s : State) : State :=
  let g := s.ring r
  if g.cons.any (fun x => x.id == c) || 4 ≤ g.cons.length then s
  else putRing r { g with cons := g.cons ++ [{ id := c }] } s

/-- Detaches a consumer: every buffer it holds is released in the same step (R15). -/
def ringDetach (r : RingId) (c : ConsumerId) (s : State) : State :=
  let g := s.ring r
  if g.cons.any (fun x => x.id == c) then putRing r { g with cons := g.cons.filter (fun x => x.id != c) } s else s

/-- Every ring that can exist. -/
def allRings : List RingId :=
  (List.range 4).flatMap (fun n => (List.range 4).map (.tap n) ++ (List.range 4).map (.branch n)) ++
    (List.range 4).map .prc ++ (List.range 16).map .enc

/-- The ring a stream's source code names: a Photre encoder, or an H.265 context by the output code's low bits. -/
def sourceRing (blk out : Nat) : Option RingId :=
  if 0x28 ≤ blk && blk < 0x2C then some (.prc (blk - 0x28))
  else if blk = 0x30 then some (.enc (out % 16))
  else none

/-- Detaches a consumer from every ring it is attached to. -/
def detachAll (p : ConsumerId → Bool) (s : State) : State :=
  allRings.foldl (fun s r => (s.ring r).cons.foldl (fun s x => if p x.id then ringDetach r x.id s else s) s) s

/-- A field of the parameters a frame runs under. -/
def IpFrame.g (fr : IpFrame) (v : Variant) (x : Fld) : Nat :=
  bitsOf (match look fr.par x.addr with
    | some w => w
    | none => resetWord v x.addr).toNat x.hi x.lo

/-- A frame in a pipeline still has frames to write at a branch or a tap under its own parameters (R118, R172). -/
def State.prodBusy (s : State) (n : Nat) (p : IpFrame → Bool) : Bool :=
  match look s.ips n with
  | some q => q.frames.any p
  | none => false

/-- A branch of a frame is disabled by a zero size (R174). -/
def branchOff (v : Variant) (n b : Nat) (fr : IpFrame) : Bool :=
  fr.g v (IP_O_CROP_WH_w n b) == 0 || fr.g v (IP_O_CROP_WH_h n b) == 0 || fr.g v (IP_O_OUT_WH_ow n b) == 0 ||
    fr.g v (IP_O_OUT_WH_oh n b) == 0

/-- The producer writes no frames (R172, R232, R250): its branch has a zero size in force, its tap is disabled in
force, its encoder or context is not enabled; and no frame is being written, nor does one in the pipeline still have a
frame to write there under its own parameters. -/
def State.producerIdle (s : State) (r : RingId) : Bool :=
  (s.ring r).writing.isNone && match r with
  | .tap n t => s.g (IP_T_CFG_en n t) == 0 &&
      !s.prodBusy n (fun f => f.stage == 0 && f.g s.variant (IP_T_CFG_en n t) != 0)
  | .branch n b => (s.g (IP_O_CROP_WH_w n b) == 0 || s.g (IP_O_CROP_WH_h n b) == 0 ||
      s.g (IP_O_OUT_WH_ow n b) == 0 || s.g (IP_O_OUT_WH_oh n b) == 0) &&
      !s.prodBusy n (fun f => f.stage < 3 && !branchOff s.variant n b f)
  | .prc n => !s.b (PRC_CTRL_en n)
  | .enc c => s.g (HVC_EC_CFG_en c) == 0

/-- A ring of `bufs` slots of `slot` bytes from `base` lies in system SRAM or installed DRAM (R172). -/
def ringInside (v : Variant) (base bufs slot : Nat) : Bool :=
  bufs * slot = 0 || match regionOf v base, regionOf v (base + bufs * slot - 1) with
    | .sram, .sram => true
    | .dram _, .dram _ => true
    | _, _ => false

/-- Geometry writes are open: the producer writes no frames and consumers hold none (R172). -/
def State.geomOpen (s : State) (r : RingId) : Bool :=
  s.producerIdle r && (s.ring r).heldCount (s.ringBufs r) == 0

/-- The register a geometry write names: base LO, base HI, slot, stride. -/
def geomReg (r : RingId) : Nat → Option Nat
  | 0 => some (ringRegs r).base
  | 1 => some (ringRegs r).baseHi
  | 2 => some (ringRegs r).slot
  | 3 => (ringRegs r).stride
  | _ => none

/-- A write of a geometry register, or its refusal (R172). -/
def ringGeomWrite (r : RingId) (which : Nat) (v : Word) (s : State) : State :=
  match geomReg r which with
  | none => s
  | some a =>
    let t := plainWrite a v s
    if s.geomOpen r && ringInside s.variant (t.pair (ringRegs r).base (ringRegs r).baseHi) (t.ringBufs r) (t.ringSlot r)
    then t else flag (ringRegs r).bad s

/-- A write of bufs: it resets the ring, every buffer a credit and buffer 0 next, or is refused (R172). -/
def ringBufsWrite (r : RingId) (v : Word) (s : State) : State :=
  let n := bitsOf v.toNat 6 0
  if n ≤ 64 && s.geomOpen r &&
      ringInside s.variant (s.pair (ringRegs r).base (ringRegs r).baseHi) n (s.ringSlot r) then
    let g := s.ring r
    let s := plainWrite (ringRegs r).cfg v s
    putRing r { g with writing := none, next := 0, ready := none } s
  else flag (ringRegs r).bad s

/-- CONSUMER_RELEASE: the consumer's oldest buffer is released. -/
def execConsumerRelease (r : RingId) (c : ConsumerId) (s : State) : Res :=
  guardOk r.wf <| if s.unitOn (ringDom r) then
    match s.heldBy r c with
    | b :: _ => ringRelease r c b s
    | [] => s
  else s

/-- CONSUMER_DETACH (R15). -/
def execConsumerDetach (r : RingId) (c : ConsumerId) (s : State) : Res :=
  guardOk r.wf <| if s.unitOn (ringDom r) then ringDetach r c s else s

end Sys2Proof.Machine
end

