-- ==== Sys2Proof/Machine/PwrBase.lean ====
section
/-! DEFINITION. Power domains, votes and access to domains that are off (R416 to R421), what a power-off restores
(R429), and the checks every register access meets (R471 to R475). -/

namespace Sys2Proof.Machine

open Sys2Proof.Config (ms us)

/-- The parents of a domain (R416). -/
def parentsMask (d : Nat) : Nat :=
  if d = 0 then 0
  else if d = 1 then 1
  else if d < 6 then 3
  else if d = 30 then 3
  else 63

/-- A mask with every parent of its domains (R417). -/
def closeMask (m : Nat) : Nat :=
  (List.range 31).foldl (fun x d => if bitOf m d then x ||| parentsMask d else x) m

/-- Whether the device is in Run or Standby. -/
def State.awake (s : State) : Bool := s.f PWR_STATE_state < 2

/-- A UMB9480 that wakes runs sprout on the RC clock alone until the root PLL has locked (R426 steps 1 to 4): votes kept
through Sleep act from there on (DEDUCED 46, from the step's "Sprout votes FAB" and the example's times). -/
def State.awaitsPll (s : State) : Bool :=
  s.variant == .umb9480 && s.pwr.bootDue && s.pwr.bootWarm && !s.pwr.pllLocked

/-- The domains wanted: voted for, or under an access hold, with their parents; CTRL in Run or Standby; none in Sleep
(R417, R418, R422). The endpoint's mask acts only while its link is up. -/
def State.wanted (s : State) : Nat :=
  if s.f PWR_STATE_state = 3 || s.pwr.testHold then 0
  else if s.awaitsPll then 1 else
  let votes := [0, 1, 2, 3, 4, 6].foldl (fun m c => m ||| (s.rd (PWR_VOTE c)).toNat) 0
  let votes := if s.b OEP_STATUS_link_up then votes ||| (s.rd (PWR_VOTE 5)).toNat else votes
  let holds := s.pwr.holds.foldl (fun m h => m ||| 2 ^ h.1) 0
  (closeMask (votes ||| holds) ||| (if s.awake then 1 else 0)) &&& presentMask s.variant

/-- Run with a domain wanted outside CTRL, FAB, MEM0 to MEM3 and NET; else Standby (R422). -/
def showState (s : State) : State :=
  if s.awake then
    setF PWR_STATE_state (if s.wanted &&& (2 ^ 31 - 1 - 0x800003F) = 0 then 1 else 0) s
  else s

/-- Power-up time of a domain (R419). -/
def upTime (v : Variant) : Nat := match v with
  | .umb9480 => 150 * us
  | _ => 300 * us

/-- The pending power-up that runs next, in ascending bit order (R419). -/
def State.nextUp (s : State) : Option Nat :=
  (List.range 31).find? (fun d => bitOf s.wanted d && !bitOf (s.rd PWR_STATUS).toNat d)

/-- Marks since when each domain that is on has been unwanted (R418). -/
def markUnwanted (s : State) : State :=
  let w := s.wanted
  let on := (s.rd PWR_STATUS).toNat
  let l := (List.range 31).filter (fun d => bitOf on d && !bitOf w d)
  { s with pwr := { s.pwr with unwanted := l.map (fun d => (d, lookD s.pwr.unwanted s.now d)) } }

/-- PWR takes up its next power-up when it is free; power-ups go before power-downs (R419). -/
def pwrNext (s : State) : State :=
  let s := showState (markUnwanted s)
  match s.pwr.job with
  | some _ => s
  | none => match s.nextUp with
    | none => s
    | some d => setF PWR_BUSY_trans (s.f PWR_BUSY_trans ||| 2 ^ d)
        { s with pwr := { s.pwr with job := some (d, .up), jobDue := s.now + upTime s.variant } }

/-- The channels of a controller whose domain comes on leave self-refresh: every debt starts at 0 (R280, R282). -/
def leaveSelfRef (d : Nat) (s : State) : State :=
  if 2 ≤ d && s.pwr.selfRef.contains (d - 2) then
    { s with
      mc := { s.mc with
        debt := s.mc.debt.filter (fun e => e.1 / 8 != d - 2)
        owed := s.mc.owed.filter (fun k => k / 8 != d - 2) ++ (List.range (Config.channels s.variant)).map (fun c => (d - 2) * 8 + c) }
      pwr := { s.pwr with selfRef := s.pwr.selfRef.filter (· != d - 2) } }
  else s

/-- Registers that drive a domain's output pads: the levels R421 latches. -/
def padRegs (v : Variant) (d : Nat) : List Nat :=
  if d = dCTRL then [GPIO_OUT, GPIO_OE, XSPI_CFG]
  else if 6 ≤ d && d < 10 && d - 6 < Config.ports v then [SP_CTRL (d - 6), SP_XCLK_CFG (d - 6)]
  else if d = dPFI then (List.range 4).flatMap (fun c => [PFI_CTRL c, PFI_PWM_DUTY c])
  else if d = dSCO then [SCO_CTRL]
  else if d = dAUD then (List.range 4).map AUD_CTRL
  else if d = dNET then (List.range 2).map NET_CTRL
  else []

/-- What a register that drives pads drives at the balls: the latched level while the pads are held (R421). -/
def State.padRd (s : State) (d a : Nat) : Word :=
  if bitOf (s.f PWR_PAD_HELD_held) d then lookD (lookD s.pwr.padLevel [] d) (s.rd a) a else s.rd a

/-- The levels at the GPIO pads: driven ones, and those that outside gives (R395, R421). -/
def State.pads (s : State) : Nat :=
  let out := (s.padRd dCTRL GPIO_OUT).toNat % 65536
  let oe := (s.padRd dCTRL GPIO_OE).toNat % 65536
  (out &&& oe) ||| (s.mon.ext &&& (65535 - oe))

/-- The stamp of a level that a pad takes now: the first BCLK sample at or after it, which the synchroniser shows two samples
later, less its delay of 8 ns (R395). -/
def State.padStamp (s : State) : Stamp :=
  if s.now % Config.bclk = 0 then s.stamp
  else
    let u := ((s.tsu.sec * 1000000000 + s.tsu.ns) * 2 ^ 32 + s.tsu.frac + s.incr) / 2 ^ 32
    ⟨u / 1000000000 % 2 ^ 48, u % 1000000000⟩

/-- GPIO_IN follows the pads; each selected edge is noted and raised (R395). -/
def gpioSettle (s : State) : State :=
  let was := s.f GPIO_IN_in
  let now := s.pads
  (List.range 16).foldl (fun s i =>
    if bitOf was i == bitOf now i then s
    else
      let sel := bitsOf (s.rd GPIO_EDGE_CFG).toNat (2 * i + 1) (2 * i)
      if (bitOf now i && sel % 2 = 1) || (!bitOf now i && 2 ≤ sel) then
        raiseAt s.padStamp 0x58 3 i (setF GPIO_EDGE_STATUS_seen (s.f GPIO_EDGE_STATUS_seen ||| 2 ^ i) s)
      else s) (setF GPIO_IN_in now s)

/-- What a domain that comes on shows at once: the levels at the GPIO pads (R395), a fault pin that is low (R377), and in the
endpoint's lock table a lock for every write of the recorder under way (R327). -/
def padsUp (d : Nat) (s : State) : State :=
  if d = dCTRL then gpioSettle s
  else if d = dPFI then
    (List.range 4).foldl (fun s c => if (lookD s.pfis {} c).fltHigh then s else flag (PFI_STATUS_fault c) s) s
  else if d = dOEP then
    let l : List LockReq := s.rm.strs.flatMap (fun e => (e.2.flights.filter (fun f => f.issued && f.left != 0)).map (fun f =>
      { owner := .flight e.1 f.no, vol := e.2.vol, first := f.vbn, blocks := f.blocks, excl := true, granted := true }))
    if l.isEmpty then s
    else setF OEP_LOCK_STAT_rec l.length (addPair OEP_LOCK_GRANT_LO OEP_LOCK_GRANT_HI l.length
      { s with oep := { s.oep with locks := l } })
  else s

/-- Domain `d`'s power-up is complete (R419), and the retention cells that kept its registers are examined; a parity error
is lasting (R429, R444, R451). -/
def domainUp (d : Nat) (parity : Bool) (s : State) : State :=
  let s := (examDetect 0x0203 parity d 0 s).2
  let s := leaveSelfRef d s
  let s := { s with pwr := { s.pwr with job := none, onSince := put s.pwr.onSince d s.now, padTold := s.pwr.padTold.filter (· != d) } }
  let s := setF PWR_STATUS_on (s.f PWR_STATUS_on ||| 2 ^ d) s
  let s := setF PWR_BUSY_trans (s.f PWR_BUSY_trans &&& (2 ^ 31 - 1 - 2 ^ d)) s
  pwrNext (padsUp d (raise 0x02 0 d s))

/-- Class and domain of the register at an address. -/
def clsOf (v : Variant) (a : Nat) : Option (Cls × Option Nat) :=
  match windowAt v a with
  | none => none
  | some h => match rowAt h with
    | none => none
    | some r => some (r.cls, h.dom)

/-- Restores the registers that `p` picks by class and domain. -/
def restoreRegs (p : Cls → Option Nat → Bool) (s : State) : State :=
  let keep (e : Nat × Word) : Bool := match clsOf s.variant e.1 with
    | some (c, d) => !p c d
    | none => true
  { s with regs := s.regs.filter keep, live := s.live.filter keep }

/-- The domain of a ring consumer. -/
def consumerDom : ConsumerId → Nat
  | .stream _ => dRM
  | .enc _ => dHVC
  | .sco => dSCO
  | .net _ => dNET
  | .firmware _ => dCTRL

/-- A domain's output pads are latched at the levels they have (R421); pads still held keep theirs. -/
def latchPads (d : Nat) (s : State) : State :=
  let s := if bitOf (s.f PWR_PAD_HELD_held) d then s
    else { s with pwr := { s.pwr with padLevel := put s.pwr.padLevel d ((padRegs s.variant d).map (fun a => (a, s.rd a))) } }
  setF PWR_PAD_HELD_held (s.f PWR_PAD_HELD_held ||| 2 ^ d) s

/-- The units of a domain lose the state no register shows. -/
def dropUnit (d : Nat) (s : State) : State :=
  { s with
    rings := s.rings.filter (fun e => !allRings.any (fun r => ringNo r == e.1 && ringDom r == d))
    ports := s.ports.filter (fun e => dSP e.1 != d)
    ips := s.ips.filter (fun e => dIP e.1 != d)
    pods := s.pods.filter (fun e => dSTRIP (e.1 / 16) != d)
    pips := s.pips.filter (fun e => dSTRIP (e.1 / 256) != d)
    slots := if d = dFAB then []
      else if (List.range 8).any (fun t => dSTRIP t == d) then s.slots.map (fun e => (e.1, { e.2 with judged := none })) else s.slots
    feeds := if d = dPRC then [] else s.feeds
    prcs := if d = dPRC then [] else s.prcs
    prd := if d = dPRC then none else s.prd
    hvc := if d = dHVC then {} else s.hvc
    pke := if d = dPKE then {} else s.pke
    rm := if d = dRM then {} else s.rm
    oep := if d = dOEP then {} else s.oep
    sco := if d = dSCO then {} else s.sco
    auds := if d = dAUD then [] else s.auds
    nets := if d = dNET then [] else s.nets
    nstrs := if d = dNET then [] else s.nstrs
    pfis := if d = dPFI then s.pfis.map (fun e => (e.1, { fltHigh := e.2.fltHigh })) else s.pfis
    ref := if d = dCTRL then {} else s.ref
    mon := if d = dCTRL then { mbox := s.mon.mbox, ext := s.mon.ext } else s.mon }

/-- Injection slots whose detector's domain goes off disarm with cause 0x3 (R448). -/
def disarmDomain (d : Nat) (s : State) : State :=
  s.err.slots.foldl (fun s e =>
    if detDomain e.2.det == some d then
      setF (causeFld e.1) 3 <| setF ERR_INJ_STATUS_armed (s.f ERR_INJ_STATUS_armed &&& (15 - 2 ^ e.1))
        { s with err := { s.err with slots := del s.err.slots e.1 } }
    else s) s
where
  causeFld (k : Nat) : Fld := ⟨ERR_INJ_STATUS, 8 + 4 * k + 3, 8 + 4 * k⟩

/-- RM goes off: the recorder's locks are released with its writes (R329). -/
def rmLocksOff (s : State) : State :=
  let flight (a : LockReq) : Bool := match a.owner with
    | .flight _ _ => true
    | _ => false
  let n := (s.oep.locks.filter (fun a => flight a && a.granted)).length
  let s := { s with oep := { s.oep with locks := s.oep.locks.filter (fun a => !flight a) } }
  if n = 0 then s else setF OEP_LOCK_STAT_rec 0 (addPair OEP_LOCK_REL_LO OEP_LOCK_REL_HI n s)

/-- Domain `d` goes off: consumers detached, pads latched, class D registers restored, power removed
(R419 steps 3 and 4, R421, R429). -/
def domainDown (d : Nat) (s : State) : State :=
  let s := detachAll (fun c => consumerDom c == d) s
  let s := latchPads d (if d = dRM then rmLocksOff s else s)
  let s := disarmDomain d s
  let s := dropUnit d (restoreRegs (fun c x => c == .d && x == some d) s)
  let s := if 2 ≤ d && d < 6 then { s with pwr := { s.pwr with selfRef := (d - 2) :: s.pwr.selfRef.filter (· != d - 2) } } else s
  let s := setF PWR_STATUS_on (s.f PWR_STATUS_on &&& (2 ^ 31 - 1 - 2 ^ d)) s
  let s := setF PWR_BUSY_trans (s.f PWR_BUSY_trans &&& (2 ^ 31 - 1 - 2 ^ d)) s
  let s := { s with pwr := { s.pwr with job := none, unwanted := del s.pwr.unwanted d, onSince := del s.pwr.onSince d, holds := del s.pwr.holds d } }
  raise 0x02 1 d s

/-- Completes the transition in progress, if any, at its due instant. -/
def finishJob (s : State) : State := match s.pwr.job with
  | some (d, .up) => domainUp d false (advanceTo s.pwr.jobDue s)
  | some (d, .down) => domainDown d (advanceTo s.pwr.jobDue s)
  | none => s

/-- An access places the access hold on domain `d` and waits while PWR, one transition at a time and in R419's order, powers
up the domain and every parent that is off (R420, UMB9420 and UMB9440); the hold then counts from the access's end. -/
def wakeDomain (d : Nat) (s : State) : State :=
  let hold (s : State) : State :=
    { s with pwr := { s.pwr with holds := put s.pwr.holds d (s.now + s.f PWR_HYST_us * us) } }
  hold ((List.range 64).foldl (fun s _ => if s.domOn d then s else pwrNext (hold (finishJob s))) (pwrNext (hold s)))

/-- What an access that finds no register or is of the wrong form draws (R475). -/
def accErr (cause a : Nat) (s : State) : State :=
  setF SYS_ACC_ERR_LAST_cause cause (setF SYS_ACC_ERR_LAST_offset ((a - 0x40000000) / 4) (bump SYS_ACC_ERR s))

/-- The mailbox window, which accepts aligned 8-, 16- and 32-bit accesses (R471). -/
def inMailbox (a : Nat) : Bool := 0x47404000 ≤ a && a < 0x47405000

/-- The form of an access is one its target accepts (R471). -/
def formOk (a width : Nat) : Bool :=
  (width == 4 && a % 4 == 0) || (inMailbox a && ((width == 2 && a % 2 == 0) || width == 1))

/-- The checks of a register access: window, unit, form, then the domain (R471, R472, R420). True: it goes on. A unit whose
clock is stopped (R18) answers nothing: its access draws an error response (DESIGN CHOICE 6). -/
def gate (a width : Nat) (s : State) : Bool × State :=
  if s.pwr.testHold then (false, s) else
  match windowAt s.variant a with
  | none => (false, accErr 0 a s)
  | some h =>
    if !h.present then (false, accErr 1 a s)
    else if !formOk a width then (false, accErr 2 a s)
    else match h.dom with
      | none => (true, s)
      | some d =>
        if s.domOn d then
          (true, if (look s.pwr.holds d).isSome then
            { s with pwr := { s.pwr with holds := put s.pwr.holds d (s.now + s.f PWR_HYST_us * us) } } else s)
        else if s.pwr.clkLost then (false, s)
        else match s.variant with
          | .umb9480 =>
            let s := bump PWR_OFF_ACCESS s
            let told := match s.pwr.offTold with
              | some t => decide (s.now < t + ms)
              | none => false
            (false, if told then s else raise 0x02 2 d { s with pwr := { s.pwr with offTold := some s.now } })
          | _ =>
            let s := wakeDomain d s
            (s.domOn d, s)

/-- A monitor write to register space raises MON_WRITE once it has taken effect (R465). -/
def monWrote (r : Requester) (a : Nat) (s : State) : State := if r = .monitor then raise 0x58 2 (a % 65536) s else s

/-- A register write by `r` that goes through the checks and then does `k`; the reply says which. -/
def writeBy (r : Requester) (a : Nat) (k : State → State) (s : State) : State :=
  match gate a 4 s with
  | (true, s) => answer r 0 (monWrote r a (k s))
  | (false, s) => refuse r s

/-- The client a requester votes as (R417). -/
def clientOf : Requester → Option Nat
  | .cc0 => some 0 | .cc1 => some 1 | .cc2 => some 2 | .cc3 => some 3 | .sage => some 4 | .monitor => some 6
  | _ => none

/-- Requester `r` may write mask `c` (R417). -/
def mayVote (r : Requester) (c : Nat) : Bool :=
  clientOf r == some c || (c == 5 && (match r with
    | .sage | .cc0 | .cc1 | .cc2 | .cc3 => true
    | _ => false))

/-- A write of PWR_VOTEc (R417): bits of absent units are ignored and flagged, CTRL's reads 1. -/
def voteWrite (r : Requester) (c : Nat) (v : Word) (s : State) : State :=
  if mayVote r c then
    let m := v.toNat % 2 ^ 31
    let p := presentMask s.variant
    let s := if m &&& (2 ^ 31 - 1 - p) = 0 then s else flag PWR_CFG_STATUS_bad_write s
    pwrNext (setF (PWR_VOTE_vote c) ((m &&& p) ||| 1) s)
  else flag PWR_CFG_STATUS_bad_write s

/-- VOTE (R417). -/
def execVote (r : Requester) (c : Nat) (v : Word) (s : State) : Res :=
  guardOk (decide (c < 7)) (writeBy r (PWR_VOTE c) (voteWrite r c v) s)

/-- DOMAIN_POWER_DOWN_START: a domain unwanted for PWR_HYST starts powering down, if PWR is free and it is the
highest one due (R418, R419). -/
def execDomainPowerDownStart (d : Nat) (s : State) : Res :=
  guardOk (decide (d < 31)) <|
    match look s.pwr.unwanted d with
    | none => s
    | some t =>
      let due := t + s.f PWR_HYST_us * us
      let higher := s.pwr.unwanted.any (fun e => d < e.1 && decide (e.2 + s.f PWR_HYST_us * us ≤ max s.now due))
      if s.pwr.job.isSome || s.nextUp.isSome || higher || d == 0 then s
      else
        let s := advanceTo due s
        setF PWR_BUSY_trans (s.f PWR_BUSY_trans ||| 2 ^ d)
          { s with pwr := { s.pwr with job := some (d, .down), jobDue := s.now + ms } }

/-- DOMAIN_ON, with whether the domain's retention cells show a parity error (R419, R444). -/
def execDomainOn (d : Nat) (parity : Bool) (s : State) : Res :=
  guardOk (decide (d < 31)) <|
    if s.pwr.job = some (d, .up) then domainUp d parity s
    else match s.pwr.job, s.nextUp with
      | none, some x => if x = d then domainUp d parity s else s
      | _, _ => s

/-- QUIESCE_TIMEOUT (R419 step 2). -/
def execQuiesceTimeout (d : Nat) (s : State) : Res :=
  guardOk (decide (d < 31)) <|
    if s.pwr.job = some (d, .down) then raise 0x02 4 d (advanceTo s.pwr.jobDue s) else s

/-- DOMAIN_OFF (R419 steps 3 and 4). -/
def execDomainOff (d : Nat) (s : State) : Res :=
  guardOk (decide (d < 31)) <|
    if s.pwr.job = some (d, .down) then pwrNext (domainDown d s) else s

/-- ACCESS_HOLD_END (R420): on the smaller variants the hold ends PWR_HYST after the last access. -/
def execAccessHoldEnd (d : Nat) (s : State) : Res :=
  guardOk (decide (d < 31)) <|
    match look s.pwr.holds d with
    | none => s
    | some t =>
      let s := advanceTo t s
      pwrNext { s with pwr := { s.pwr with holds := del s.pwr.holds d } }

/-- A write of PWR_PAD_RELEASE: the pads of domains that are on are released; one bit of a domain that is off refuses the
write, the bits of absent units ignore it on their own (R421, R473, R510). -/
def padReleaseWrite (v : Word) (s : State) : State :=
  let m := v.toNat % 2 ^ 31
  let p := presentMask s.variant
  let s := if m &&& (2 ^ 31 - 1 - p) = 0 then s else flag PWR_CFG_STATUS_bad_write s
  let rel := m &&& p
  if rel &&& (2 ^ 31 - 1 - s.f PWR_STATUS_on) != 0 then flag PWR_CFG_STATUS_bad_write s
  else
    let s := setF PWR_PAD_HELD_held (s.f PWR_PAD_HELD_held &&& (2 ^ 31 - 1 - rel))
      { s with pwr := { s.pwr with padLevel := s.pwr.padLevel.filter (fun e => !bitOf rel e.1) } }
    if bitOf rel dCTRL then gpioSettle s else s

/-- PAD_RELEASE (R421). -/
def execPadRelease (r : Requester) (v : Word) (s : State) : Res :=
  .next (writeBy r PWR_PAD_RELEASE (padReleaseWrite v) s)

/-- PAD_HELD: pads still latched 10 ms after their domain came on are reported once (R421). -/
def execPadHeld (d : Nat) (s : State) : Res :=
  guardOk (decide (d < 31)) <|
    match look s.pwr.onSince d with
    | none => s
    | some t =>
      if bitOf (s.f PWR_PAD_HELD_held) d && s.domOn d && !s.pwr.padTold.contains d then
        let s := advanceTo (t + 10 * ms) s
        raise 0x02 3 d { s with pwr := { s.pwr with padTold := d :: s.pwr.padTold } }
      else s

end Sys2Proof.Machine
end

