-- ==== Sys2Proof/Machine/HvcEnc.lean ====
section
/-! DEFINITION. The H.265 encoder (R241 to R252, R259). What the engine codes for each CTB, by the tools of R243 and
R244, is an operand of PICTURE_DONE, held to the bounds those rules state; which picture it codes, from what samples, as
what, the bytes around the slice data and all it reports are the spec's. -/

namespace Sys2Proof.Machine

/-- An encoder context beside its registers. -/
def State.ec (s : State) (c : Nat) : EcSt := lookD s.hvc.ecs {} c

/-- Changes an encoder context. -/
def modEc (c : Nat) (k : EcSt → EcSt) (s : State) : State :=
  { s with hvc := { s.hvc with ecs := put s.hvc.ecs c (k (s.ec c)) } }

/-- Shows the marks of a context's pool; `cur` is the buffer of the picture being coded (R245). -/
def showMarks (c : Nat) (cur : Option Nat) (s : State) : State :=
  wr (HVC_EC_MARKS c) (BitVec.ofNat 32
    ((((s.ec c).pics.map (fun p => (if p.long then 2 else 1) * 4 ^ p.buf)).sum) + (match cur with
      | some i => 3 * 4 ^ i
      | none => 0))) s

/-- The registers of context `c` that APPLY puts in force. -/
def ecLive (c a : Nat) : Bool :=
  [HVC_EC_CFG c, HVC_EC_SRC c, HVC_EC_SEARCH c, HVC_EC_POOL_LO c, HVC_EC_POOL_HI c, HVC_EC_POOL_CFG c].contains a

/-- The RWC set of a context as last written. -/
def State.ecSet (s : State) (c : Nat) : List (Nat × Word) := s.regs.filter (fun e => ecLive c e.1)

/-- The set in force has no configuration error that shows without a picture (R245). -/
def ecSound (c : Nat) (s : State) : Bool :=
  let st := s.g (HVC_EC_CFG_st_max c)
  let lt := s.g (HVC_EC_CFG_lt_max c)
  let bufs := s.g (HVC_EC_POOL_CFG_bufs c)
  s.g (HVC_EC_CFG_profile c) != 3 && decide (1 ≤ st ∧ lt ≤ 2 ∧ st + lt ≤ 4 ∧ st + lt + 1 ≤ bufs ∧ bufs ≤ 16)

/-- A configuration error: nothing is coded until the next valid apply. -/
def ecError (c : Nat) (s : State) : State :=
  raise 0x30 4 c (flag (HVC_EC_STATUS_cfg_err c) (modEc c (fun e => { e with bad := true }) s))

/-- The ring that the source in force names (R250). -/
def State.ecSource (s : State) (c : Nat) : RingId := .branch (s.g (HVC_EC_SRC_pipe c)) (s.g (HVC_EC_SRC_branch c))

/-- Releases the input frames that context `c` does not code, wherever they stand among its input (R242). -/
def ecSkipBad (c : Nat) (s : State) : State :=
  match (s.ec c).ring with
  | none => s
  | some r =>
    (s.heldBy r (.enc c)).foldl (fun s b =>
      let (d, s) := readDesc (.enc c) r b s
      if (match s.hvc.cur with
          | some x => x.ctx == c && x.buf == b
          | none => false) || ecInputOk c (descInfo d) (descBuf d) s then s
      else raise 0x30 3 c (bump (HVC_EC_SKIP c) (ringRelease r (.enc c) b s))) s

/-- Puts an applied set in force: the context attaches or detaches, and its next picture is an IDR (R246, R250). -/
def ecTake (c : Nat) (s : State) : State :=
  match (s.ec c).cap with
  | none => s
  | some set =>
    let s := forceLive (ecLive c) set s
    let want := if s.g (HVC_EC_CFG_en c) = 1 then some (s.ecSource c) else none
    let old := (s.ec c).ring
    let s := if old = want then s else
      let s := match old with
        | some r => ringDetach r (.enc c) s
        | none => s
      match want with
        | some r => ringAttach r (.enc c) s
        | none => s
    let s := modEc c (fun e => { e with cap := none, ring := want, bad := false, fresh := true }) s
    ecSkipBad c (if ecSound c s then s else ecError c s)

/-- A write of HVC_ECc_APPLY. With no picture being coded the engine stands at a picture boundary and takes the set at
once (DEDUCED 36). -/
def ecApplyWrite (c : Nat) (v : Word) (s : State) : State :=
  if bitOf v.toNat 0 then
    let s := modEc c (fun e => { e with cap := some (s.ecSet c) }) s
    if s.hvc.cur.isNone then ecTake c s else s
  else s

/-- ENC_APPLY (R250). -/
def execEncApply (r : Requester) (c : Nat) (v : Word) (s : State) : Res :=
  guardOk (decide (c < 16)) (writeBy r (HVC_EC_APPLY c) (ecApplyWrite c (v ||| 1)) s)

/-- A write of HVC_ECc_IDR (R246). -/
def ecIdrWrite (c : Nat) (v : Word) (s : State) : State := if bitOf v.toNat 0 then flag (HVC_EC_IDR_req c) s else s

/-- IDR_REQUEST (R246). -/
def execIdrRequest (r : Requester) (c : Nat) (v : Word) (s : State) : Res :=
  guardOk (decide (c < 16)) (writeBy r (HVC_EC_IDR c) (ecIdrWrite c (v ||| 1)) s)

/-- A write of HVC_ECc_LT: refused while lt_max = 0 (R245). -/
def ecLtWrite (c : Nat) (v : Word) (s : State) : State :=
  if v.toNat % 4 = 0 then s
  else if s.g (HVC_EC_CFG_lt_max c) = 0 then flag (HVC_EC_STATUS_bad_write c) s
  else wr (HVC_EC_LT c) (BitVec.ofNat 32 ((s.rd (HVC_EC_LT c)).toNat ||| v.toNat % 4)) s

/-- LT_MARK (R245). -/
def execLtMark (r : Requester) (c : Nat) (v : Word) (s : State) : Res :=
  guardOk (decide (c < 16)) (writeBy r (HVC_EC_LT c) (ecLtWrite c (v ||| 1)) s)

/-- LT_DROP (R245). -/
def execLtDrop (r : Requester) (c : Nat) (v : Word) (s : State) : Res :=
  guardOk (decide (c < 16)) (writeBy r (HVC_EC_LT c) (ecLtWrite c (v ||| 2)) s)

/-- A write of the reference pool's registers follows R172 (R250): the context writes no frames, its ring holds none, and
the pool with the value written and the other values in force lies in memory. -/
def ecPoolWrite (c a : Nat) (v : Word) (s : State) : State :=
  let t := { (plainWrite a v s) with live := put s.live a ((plainWrite a v s).rd a) }
  let bufs := t.g (HVC_EC_POOL_CFG_bufs c)
  let busy := match s.hvc.cur with
    | some x => x.ctx == c
    | none => false
  if s.geomOpen (.enc c) && !busy && decide (bufs ≤ 16) &&
      ringInside s.variant (t.pairLive (HVC_EC_POOL_LO c) (HVC_EC_POOL_HI c)) bufs (t.g (HVC_EC_POOL_CFG_slot c) * 64)
  then plainWrite a v s else flag (HVC_EC_STATUS_bad_write c) s

/-- A write of HVC_ECc_REP_HEAD: a head after the tail is refused (R28, R248). -/
def ecRepHeadWrite (c : Nat) (v : Word) (s : State) : State :=
  if ahead v.toNat (s.f (HVC_EC_REP_TAIL_rep_tail c)) then flag (HVC_EC_STATUS_bad_write c) s
  else plainWrite (HVC_EC_REP_HEAD c) v s

/-! ### Pictures -/

/-- CTBs of a picture of `w` by `h` (R243, R247). -/
def ctbCount (w h : Nat) : Nat := ceilDiv (upTo 8 w) 64 * ceilDiv (upTo 8 h) 64

/-- A packed row of format 0x20 as its 10-bit components (R168). -/
def row422 (w : Nat) (bs : List Byte) : List Nat :=
  let n := leNat bs
  (List.range (2 * w)).map (fun k => n / 2 ^ (10 * k) % 1024)

/-- Component planes of a 4:2:2 buffer, read by the encoder row by row: Y, Cb, Cr rows (R168, R275). -/
def planes422 (a stride w h : Nat) (s : State) : List (List (List Nat)) × State :=
  let (rows, s) := (List.range h).foldl (fun (x : List (List Nat) × State) y =>
    let (bs, s) := dmaTake 7 (a + y * stride) (5 * w / 2) x.2
    (row422 w bs :: x.1, s)) ([], s)
  let rows := rows.reverse
  let pick (step off cnt : Nat) := rows.map (fun r => (List.range cnt).map (fun i => r.getD (step * i + off) 0))
  ([pick 2 1 w, pick 4 0 (w / 2), pick 4 2 (w / 2)], s)

/-- A row repeated at its last sample to length `n`. -/
def padRow (n : Nat) (r : List Nat) : List Nat := r ++ List.replicate (n - r.length) (r.getLast?.getD 0)

/-- A plane repeated at its last row and column. -/
def padPlane (w h : Nat) (p : List (List Nat)) : List (List Nat) :=
  let p := p.map (padRow w)
  p ++ List.replicate (h - p.length) (p.getLast?.getD [])

/-- Chroma row pairs averaged (R242). -/
def halveRows : List (List Nat) → List (List Nat)
  | a :: b :: t => a.zipWith (fun x y => (x + y + 1) / 2) b :: halveRows t
  | l => l

/-- The samples the encoder codes (R242). -/
def ecSamples (profile w h : Nat) (p : List (List (List Nat))) : List (List (List Nat)) :=
  let (W, H) := (upTo 8 w, upTo 8 h)
  let y := p.getD 0 []
  let ch (i : Nat) := p.getD i []
  let cut (l : List (List Nat)) := if profile = 0 then l.map (·.map (fun c => min ((c + 2) / 4) 255)) else l
  if profile = 2 then [padPlane W H y, padPlane (W / 2) H (ch 1), padPlane (W / 2) H (ch 2)]
  else [cut (padPlane W H y), cut (padPlane (W / 2) (H / 2) (halveRows (ch 1))),
    cut (padPlane (W / 2) (H / 2) (halveRows (ch 2)))]

/-- The QP of each CTB (R247): a map byte that the memory does not answer is free. -/
def ecQps (c n : Nat) (s : State) : List Nat × State :=
  let base := s.f (HVC_EC_QP_base_qp c)
  let clampQp (d : Int) : Nat := (min (max ((base : Int) + d) 0) 51).toNat
  if s.b (HVC_EC_QP_map_en c) then
    match dmaRead 7 (s.pair (HVC_EC_MAP_LO c) (HVC_EC_MAP_HI c)) n s with
    | (some bs, s) => (bs.map (fun b => clampQp b.toInt), s)
    | (none, s) => (List.range n).foldl (fun (x : List Nat × State) _ =>
        let (v, s) := draw x.2
        (x.1 ++ [clampQp (v.setWidth 8).toInt], s)) ([], s)
  else (List.replicate n (clampQp 0), s)

/-- The VUI of an IDR: primaries, transfer, matrix, full range (R252). -/
def ecVui (n b : Nat) (s : State) : Nat × Nat × Nat × Bool :=
  let prim := match s.g (IP_O_CSPACE_prim n b) with
    | 1 => 1 | 2 => 9 | 3 => 12 | _ => 2
  let xfer := match s.g (IP_O_CSPACE_xfer n b) with
    | 0 => 8 | 1 => 1 | 2 => 16 | 3 => 18 | _ => 2
  (prim, xfer, if s.g (IP_O_XF_CFG_ycc n b) = 1 then 1 else 9, s.g (IP_O_PACK_range n b) == 0)

/-- The context codes pictures: enabled, no configuration error. -/
def State.ecRuns (s : State) (c : Nat) : Bool := s.g (HVC_EC_CFG_en c) == 1 && !(s.ec c).bad

/-- The IDR causes of the next picture, one bit each (R246). -/
def ecCauses (c w h : Nat) (s : State) : Nat :=
  let e := s.ec c
  let period := s.f (HVC_EC_GOP_idr_period c)
  let bit (b : Bool) (i : Nat) := if b then 2 ^ i else 0
  bit e.fresh 0 + bit (e.size != (0, 0) && e.size != (w, h)) 1 + bit (s.b (HVC_EC_IDR_req c)) 2 +
    bit (period != 0 && e.since != 0 && decide (period ≤ e.since)) 3 + bit e.parity 4

/-- Coding of one picture starts (R245 to R247, R251, R252). -/
def ecBegin (c : Nat) (r : RingId) (b : Nat) (i : FrameInfo) (x : BufInfo) (s : State) : State :=
  let (w, h) := (i.width, i.height)
  let causes := ecCauses c w h s
  let e := s.ec c
  let lt := (s.rd (HVC_EC_LT c)).toNat
  let pics := if causes != 0 then [] else e.pics
  let pics := if bitOf lt 1 then
      match pics.find? (·.long) with
      | some p => pics.erase p
      | none => pics
    else pics
  let pool := ((List.range 16).find? (fun k => !pics.any (fun p => p.buf == k))).getD 0
  let poc := if causes != 0 then 0 else e.poc + 1
  let (qps, s) := ecQps c (ctbCount w h) s
  let prof := s.g (HVC_EC_CFG_profile c)
  let range := s.g (HVC_EC_SEARCH_range c)
  let (planes, s) := planes422 x.addr x.stride w h s
  let cur : HvcCur := {
    ctx := c, ring := r, buf := b, info := i, pool := pool, long := bitOf lt 0, causes := causes
    qp := s.f (HVC_EC_QP_base_qp c), qps := qps, gmv := (s.rd (HVC_EC_GMV c)).toNat
    range := if range = 3 then 0 else range, poc := poc
    refs := pics, prof := prof, level := s.g (HVC_EC_CFG_level c), st := s.g (HVC_EC_CFG_st_max c)
    lt := s.g (HVC_EC_CFG_lt_max c), vui := ecVui (s.g (HVC_EC_SRC_pipe c)) (s.g (HVC_EC_SRC_branch c)) s
    planes := ecSamples prof w h planes }
  let s := wr (HVC_EC_LT c) 0 (wr (HVC_EC_IDR c) 0 s)
  let s := { s with hvc := { s.hvc with cur := some cur, last := c, encAt := s.now } }
  showMarks c (some pool) (modEc c (fun e => { e with
    pics := pics, fresh := false, size := (w, h), poc := poc, parity := false
    since := if causes != 0 then 1 else e.since + 1 }) s)

/-- The encoder serves context `c`: it checks the slots against the picture, takes the credit and begins (R245, R249,
R251). -/
def ecServe (c : Nat) (s : State) : State :=
  match (s.ec c).ring with
  | none => s
  | some r => match s.heldBy r (.enc c) with
    | [] => s
    | b :: _ =>
      let (d, s) := readDesc (.enc c) r b s
      let i := descInfo d
      let n := ctbCount i.width i.height
      let need := upTo 64 (ceilDiv (65 * upTo 8 i.width * upTo 8 i.height) 16)
      let bufs := s.ringBufs (.enc c)
      if s.g (HVC_EC_POOL_CFG_slot c) * 64 < need || (bufs != 0 && decide (s.ringSlot (.enc c) < 128 + 2048 + 4 * n))
      then ecError c s
      else match ringTake (.enc c) s with
        | (.off, s) => ringRelease r (.enc c) b { s with hvc := { s.hvc with last := c } }
        | (.dropped, s) => raise 0x30 2 c (ringRelease r (.enc c) b { s with hvc := { s.hvc with last := c } })
        | (.buf _, s) => ecBegin c r b i (descBuf d) s

/-- A picture boundary (R251). -/
def ecBoundary (s : State) : State :=
  let s := (List.range 16).foldl (fun s c => ecTake c s) s
  if !s.b HVC_CTRL_enc_en then s
  else
    let s := (List.range 16).foldl (fun s c => ecSkipBad c s) s
    let ready (c : Nat) : Bool := s.ecRuns c && (match (s.ec c).ring with
      | some r => !(s.heldBy r (.enc c)).isEmpty
      | none => false)
    match ((List.range 16).map (fun i => (s.hvc.last + 1 + i) % 16)).find? ready with
    | some c => ecServe c s
    | none => s

/-- PICTURE_START (R251). -/
def execPictureStart (s : State) : Res :=
  .next (if s.domOn dHVC && s.hvc.cur.isNone then ecBoundary s else s)

/-- A completed picture joins the references, and the oldest above the limits leave (R245). -/
def ecKeep (stMax ltMax : Nat) (p : EcPic) (pics : List EcPic) : List EcPic :=
  let trim (long : Bool) (lim : Nat) (l : List EcPic) :=
    if lim < (l.filter (·.long == long)).length then
      match l.find? (·.long == long) with
      | some x => l.erase x
      | none => l
    else l
  trim true ltMax (trim false stMax (pics ++ [p]))

/-- The vectors of a searched prediction unit lie where the search can find them (R244): a candidate within ±1,024 and
±512 pixels, the integer window around it, and the half-pel and quarter-pel steps. -/
def puOk (range refs : Nat) (u : CodedPu) : Bool :=
  let win := if range = 1 then 16 else if range = 2 then 32 else 8
  decide (u.ref < refs) && (u.merge || decide (u.mvx.natAbs ≤ 4 * (1024 + win) + 3 ∧ u.mvy.natAbs ≤ 4 * (512 + win) + 3))

/-- The engine can have coded this for the picture (R243 to R245): each of its CTBs, an IDR's all intra, the others'
prediction units from references of the context. A CTB takes at most the 1,024 bytes that R249's test keeps free, so
that an access unit is within its slot's capacity and nothing of it is cut (DEDUCED, log 54). -/
def codedOk (x : HvcCur) (p : CodedPicture) : Bool :=
  p.ctbs.length == x.qps.length && p.ctbs.all (fun t => decide (t.data.length ≤ 1024) &&
    if x.causes = 0 then t.pus.all (puOk x.range x.refs.length) else t.intra && !t.skipped && t.pus.isEmpty)

/-- The headers of a picture (R241 to R245, R252). -/
def ecHead (x : HvcCur) : List Byte :=
  hevcHead {
    profile := x.prof, level := x.level, w := x.info.width, h := x.info.height, st := x.st, lt := x.lt, vui := x.vui
    idr := x.causes != 0, poc := x.poc, short := (x.refs.filter (!·.long)).map (·.poc)
    long := (x.refs.filter (·.long)).map (·.poc), qp := x.qp }

/-- A coded picture as it stands in the access unit: its CTBs before the one from which skip form is used, that CTB's
number and the picture's, and the number of the free values that skip form takes. -/
structure EcCoded where
  ctbs : List CodedCtb
  skip : Nat
  n    : Nat
  idr  : Bool
  seed : Nat

/-- CTBs in skip form. -/
def EcCoded.rest (z : EcCoded) : List Nat := (List.range z.n).drop z.skip

/-- The slice data: CTBs as coded, then skip form of under 4 bytes each (R249). -/
def EcCoded.data (z : EcCoded) : List Byte :=
  (z.ctbs.take z.skip).flatMap (·.data) ++ z.rest.flatMap (fun i => (Config.skipForm z.seed i).take 3)

/-- A sum over the CTBs as coded, and another over those in skip form. -/
def EcCoded.total (z : EcCoded) (f : CodedCtb → Nat) (g : Nat) : Nat := ((z.ctbs.take z.skip).map f).sum + g

/-- The first 60 bytes of a picture report (R248). In skip form an IDR's CTBs are intra and a P picture's skipped. -/
def ecReport (x : HvcCur) (z : EcCoded) (au : Nat) : List Byte :=
  let mean := if x.qps.isEmpty then x.qp else x.qps.sum / x.qps.length
  let k := z.n - z.skip
  let skip := decide (z.skip < z.n)
  let err (c : Bool) := if skip then Config.skipError z.seed c else 0
  leBytes 4 x.info.pfn ++ leBytes 4 x.info.rfn ++
    leBytes 4 (x.info.sid % 65536 + x.ctx * 2 ^ 16 + (if x.causes = 0 then 2 ^ 20 else 0) +
      (if skip then 2 ^ 21 else 0) + x.causes * 2 ^ 22) ++
    leBytes 4 (x.qp + mean * 2 ^ 8 + x.pool * 2 ^ 16 + (if x.long then 2 ^ 20 else 0)) ++
    leBytes 4 au ++ leBytes 4 (z.total (·.bits) ((z.rest.map (Config.skipBits z.seed)).sum)) ++
    leBytes 4 (z.total (fun t => t.intra.toNat) (if z.idr then k else 0) % 65536) ++
    leBytes 4 (z.total (fun t => t.skipped.toNat) (if z.idr then 0 else k) % 65536) ++
    leBytes 4 x.poc ++ leBytes 4 0 ++ leBytes 8 (z.total (·.ssdLuma) (err false)) ++
    leBytes 8 (z.total (·.ssdChroma) (err true)) ++ leBytes 4 0

/-- Writes a report to the context's report ring, or drops it (R248). -/
def ecWriteReport (c : Nat) (bs : List Byte) (s : State) : State :=
  let n := s.f (HVC_EC_REP_CFG_entries c)
  let tail := s.f (HVC_EC_REP_TAIL_rep_tail c)
  let used := (tail + 2 ^ 32 - s.f (HVC_EC_REP_HEAD_rep_head c)) % 2 ^ 32
  if n = 0 then s
  else if n ≤ used then bump (HVC_EC_REP_DROP c) s
  else
    let s := dmaPut 7 (s.pair (HVC_EC_REP_LO c) (HVC_EC_REP_HI c) + tail % n * 64) (bs ++ leBytes 4 (crc32 bs)) s
    setF (HVC_EC_REP_TAIL_rep_tail c) (tail + 1) s

/-- The first CTB before which the access unit nears the slot's capacity (R249). -/
def ecOverflows (head cap : Nat) (ctbs : List CodedCtb) : Option Nat :=
  let n := ctbs.length
  (List.range n).find? (fun i => decide (cap < head + ((ctbs.take i).map (·.data.length)).sum + 4 * (n - i) + 1024))

/-- The CTB at which a check struck: where it is real, else, where it was injected, a free one. -/
def strikeAt (hit : Bool) (real : Option Nat) (n : Nat) (s : State) : Nat × State :=
  if !hit then (n, s)
  else match real with
    | some i => (min i n, s)
    | none => let (v, s) := draw s; (v.toNat % floor1 n, s)

/-- The reference buffer of a picture is written: its layout is the B9's own, so its bytes are free (R245). -/
def poolPut (x : HvcCur) (s : State) : State :=
  let size := ceilDiv (65 * upTo 8 x.info.width * upTo 8 x.info.height) 16
  let a := s.pairLive (HVC_EC_POOL_LO x.ctx) (HVC_EC_POOL_HI x.ctx) + x.pool * (s.g (HVC_EC_POOL_CFG_slot x.ctx) * 64)
  let seed := s.fresh
  dmaPut 7 a ((List.range size).map (Config.poolByte seed)) (draw s).2

/-- A picture ends (R245, R248, R249, R251, R259): from a parity error or an overflow on, its CTBs are in skip form. At T1
and above a pause follows each CTB (R441). -/
def ecEnd (x : HvcCur) (p : CodedPicture) (s : State) : State :=
  let c := x.ctx
  let n := p.ctbs.length
  let s := advanceTo (s.hvc.encAt + n * s.t1Pause Config.fclk) s
  let cap := s.ringSlot (.enc c) - 128
  let head := ecHead x
  let full := ecOverflows head.length cap p.ctbs
  let (par, s) := examDetect 0x3000 p.parity.isSome c 0 s
  let (ovf, s) := examDetect 0x3001 full.isSome c 0 s
  let (i, s) := strikeAt par p.parity n s
  let (j, s) := strikeAt ovf full n s
  let z : EcCoded := ⟨p.ctbs, min i j, n, x.causes != 0, s.fresh⟩
  let s := if min i j < n then (draw s).2 else s
  let au := (head ++ z.data).take cap
  let b := (s.ring (.enc c)).writing.getD 0
  let a := s.slotAddr (.enc c) b + 128
  let s := if par || ovf then raise 0x30 1 c (bump (HVC_EC_OVF c) s) else s
  let s := poolPut x (dmaPut 7 a au s)
  let y : BufInfo := { blk := 0x30, out := 0xFF, fmt := 0x42, addr := a, len := cap, written := au.length, stride := 0 }
  let g := s.ring (.enc c)
  let i := { x.info with width := upTo 8 x.info.width, height := upTo 8 x.info.height }
  let s := ringPublish (.enc c) (putRing (.enc c) { g with ready := some (i, y) } s)
  let s := ringRelease x.ring (.enc c) x.buf s
  let s := modEc c (fun e => { e with
    pics := ecKeep (s.g (HVC_EC_CFG_st_max c)) (s.g (HVC_EC_CFG_lt_max c)) ⟨x.pool, x.long, x.poc⟩ e.pics
    parity := par }) s
  let s := showMarks c none { s with hvc := { s.hvc with cur := none } }
  raise 0x30 0 c (ecWriteReport c (ecReport x z au.length) s)

/-- PICTURE_DONE (R248, R251): what the engine cannot have coded is no such command (log 4). -/
def execPictureDone (p : CodedPicture) (s : State) : Res :=
  match s.hvc.cur with
  | some x => guardOk (codedOk x p) (if s.domOn dHVC then ecEnd x p s else s)
  | none => .next s

end Sys2Proof.Machine
end

