-- ==== Sys2Proof/Machine/HvcDec.lean ====
section
/-! DEFINITION. The H.265 decoder (R253 to R259): the parameter sets and slice headers of each access unit, the
references and the output order they give, where the picture is written, what is concealed and what the completion
says. The samples the slice data codes are an operand of DEC_JOB_DONE. -/

namespace Sys2Proof.Machine

/-- A decoder context. -/
def State.dc (s : State) (d : Nat) : DecSt := lookD s.hvc.dcs {} d

/-- Changes a decoder context. -/
def modDc (d : Nat) (k : DecSt → DecSt) (s : State) : State :=
  { s with hvc := { s.hvc with dcs := put s.hvc.dcs d (k (s.dc d)) } }

/-- A write of the command tail (R253). -/
def decTailWrite (v : Word) (s : State) : State := plainWrite HVC_DEC_CMD_TAIL v s

/-- DEC_SUBMIT (R253). -/
def execDecSubmit (r : Requester) (v : Word) (s : State) : Res := .next (writeBy r HVC_DEC_CMD_TAIL (decTailWrite v) s)

/-- A write of HVC_DEC_CPL_HEAD: a head after the tail is refused (R28, R255). -/
def decCplHeadWrite (v : Word) (s : State) : State :=
  if ahead v.toNat (s.f HVC_DEC_CPL_TAIL_cpl_tail) then flag HVC_STATUS_bad_write s else plainWrite HVC_DEC_CPL_HEAD v s

/-- A write of HVC_DEC_CTB_TO: a limit below 1,024 is refused (R256). -/
def ctbToWrite (v : Word) (s : State) : State :=
  if bitsOf v.toNat 19 0 < 1024 then flag HVC_STATUS_bad_write s else plainWrite HVC_DEC_CTB_TO v s

/-- A write of HVC_DCd_REL (R254). -/
def dpbRelWrite (d : Nat) (v : Word) (s : State) : State :=
  modDc d (fun x => { x with held := x.held.filter (fun e => !bitOf v.toNat e) }) s

/-- DPB_RELEASE (R254). -/
def execDpbRelease (r : Requester) (d : Nat) (v : Word) (s : State) : Res :=
  guardOk (decide (d < 16)) (writeBy r (HVC_DC_REL d) (dpbRelWrite d v) s)

/-- The next job starts if the ring holds one and the completion ring has room (R253, R255). A descriptor that memory
does not answer is a job that is no access unit, under a free tag. -/
def decStart (s : State) : State :=
  let head := s.f HVC_DEC_CMD_HEAD_cmd_head
  let n := s.f HVC_DEC_CMD_CFG_entries
  let used := (s.f HVC_DEC_CPL_TAIL_cpl_tail + 2 ^ 32 - s.f HVC_DEC_CPL_HEAD_cpl_head) % 2 ^ 32
  if !s.b HVC_CTRL_dec_en || s.hvc.job.isSome || n = 0 || !ringHas head (s.f HVC_DEC_CMD_TAIL_cmd_tail) ||
      decide (s.f HVC_DEC_CPL_CFG_entries ≤ used) then s
  else
    match dmaRead 8 (s.pair HVC_DEC_CMD_LO HVC_DEC_CMD_HI + head % n * 32) 32 s with
    | (none, s) =>
      let (t, s) := draw s
      { s with hvc := { s.hvc with job := some ⟨0, 0, 1, t.toNat, false⟩, decAt := s.now } }
    | (some b, s) =>
      let w := leAt b 0 4
      let d := w % 16
      let s := if bitOf w 4 then modDc d (fun _ => {}) s else s
      { s with hvc := { s.hvc with job := some ⟨d, leAt b 8 8 % 2 ^ 40, leAt b 16 4, leAt b 24 8, true⟩, decAt := s.now } }

/-- DEC_JOB_START (R253). -/
def execDecJobStart (s : State) : Res := .next (if s.domOn dHVC then decStart s else s)

/-- Writes a job's completion record (R255). -/
def decComplete (job : DecJob) (w2 : Nat) (poc outs : Nat) (win : Nat × Nat × Nat × Nat) (s : State) : State :=
  let tail := s.f HVC_DEC_CPL_TAIL_cpl_tail
  let n := s.f HVC_DEC_CPL_CFG_entries
  let bs := leBytes 8 job.tag ++ leBytes 4 w2 ++ leBytes 4 poc ++ leBytes 4 outs ++ leBytes 2 win.1 ++
    leBytes 2 win.2.1 ++ leBytes 2 win.2.2.1 ++ leBytes 2 win.2.2.2 ++ leBytes 4 0
  let s := if n = 0 then s else dmaPut 8 (s.pair HVC_DEC_CPL_LO HVC_DEC_CPL_HI + tail % n * 32) bs s
  let s := setF HVC_DEC_CPL_TAIL_cpl_tail (tail + 1) s
  let s := setF HVC_DEC_CMD_HEAD_cmd_head (s.f HVC_DEC_CMD_HEAD_cmd_head + 1) s
  raise 0x30 8 job.d { s with hvc := { s.hvc with job := none } }

/-- A DPB entry of a context: address, length, stride (R254). An entry that memory does not answer has length 0. -/
def dpbEntry (d e : Nat) (s : State) : (Nat × Nat × Nat) × State :=
  match dmaRead 8 (s.pair (HVC_DC_DPB_LO d) (HVC_DC_DPB_HI d) + 16 * e) 16 s with
  | (none, s) => ((0, 0, 0), s)
  | (some b, s) => ((leAt b 0 8 % 2 ^ 40, leAt b 8 4, leAt b 12 4 / 64 % 2 ^ 18 * 64), s)

/-- Writes bytes at an offset of an entry, inside the entry alone; the answer counts the bytes dropped (R257). -/
def dpbPut (base len off : Nat) (bs : List Byte) (x : Nat × State) : Nat × State :=
  let fit := bs.take (len - off)
  (x.1 + (bs.length - fit.length), dmaPut 8 (base + off) fit x.2)

/-! ### Pictures and references -/

/-- An access unit as the decoder takes it: the parameter sets known after it, its slice segments, and whether the stream
ends with it. -/
structure AuHead where
  sps    : List (Nat × HevcSps)
  pps    : List (Nat × HevcPps)
  slices : List HevcSlice
  eos    : Bool
  deriving DecidableEq, Repr

/-- One NAL unit of an access unit; those of other layers and those no rule needs are left out. -/
def auUnit (z : AuHead) (u : List Byte) : AuHead :=
  let h := beAt u 0 2
  let t := h / 512 % 64
  let bits := nalBits u
  if h / 8 % 64 ≠ 0 then z
  else if t = 33 then match rSps bits with
    | some ((i, x), _) => { z with sps := put z.sps i x }
    | none => z
  else if t = 34 then match rPps bits with
    | some ((i, x), _) => { z with pps := put z.pps i x }
    | none => z
  else if t = 36 || t = 37 then { z with eos := true }
  else if t < 32 then match rSlice z.sps z.pps t bits with
    | some (x, _) => { z with slices := z.slices ++ [x] }
    | none => z
  else z

/-- The access unit of a job, read for context `x`. -/
def auHead (x : DecSt) (bs : List Byte) : AuHead := (nalUnits bs).foldl auUnit ⟨x.sps, x.pps, [], false⟩

/-- The first slice of an access unit with its parameter sets, if there is a picture the decoder decodes (R241, R253). -/
def AuHead.first (z : AuHead) : Option (HevcSlice × HevcSps × HevcPps) :=
  match z.slices with
  | sl :: _ => match look z.pps sl.pps with
    | some p => match look z.sps p.sps with
      | some q => if sl.first && hevcSupported q then some (sl, q, p) else none
      | none => none
    | none => none
  | [] => none

/-- The picture starts a coded video sequence whose leading pictures have no references: an IDR, a BLA, or the first
picture of a stream. -/
def startsSeq (x : DecSt) (sl : HevcSlice) : Bool := (16 ≤ sl.nal && sl.nal ≤ 20) || (sl.nal == 21 && !x.begun)

/-- The picture order count. -/
def pocOf (x : DecSt) (q : HevcSps) (sl : HevcSlice) : Int :=
  let m : Int := (2 ^ q.lsb : Nat)
  let lsb : Int := (sl.lsb : Nat)
  if startsSeq x sl then lsb
  else
    let pl := x.prev % m
    let pm := x.prev - pl
    if lsb < pl && m / 2 ≤ pl - lsb then pm + m + lsb
    else if pl < lsb && m / 2 < lsb - pl then pm - m + lsb
    else pm + lsb

/-- The reference sets of a picture: for each reference it keeps, its entry if it was received, whether the picture may
predict from it, and whether it is long-term; those it may predict from stand in the order of the initial
RefPicList0. -/
def refSets (x : DecSt) (q : HevcSps) (sl : HevcSlice) (poc : Int) : List (Option Nat × Bool × Bool) :=
  let m : Int := (2 ^ q.lsb : Nat)
  let find (p : DecPic → Bool) : Option Nat := (x.pics.find? (fun e => e.ref && p e)).map (·.e)
  let short (l : List (Int × Bool)) : List (Option Nat × Bool × Bool) :=
    l.map (fun d => (find (fun e => !e.long && e.poc == poc + d.1), d.2, false))
  let long := sl.lts.map (fun t =>
    let full : Int := poc - (t.cycle : Nat) * m - poc % m + (t.lsb : Nat)
    (find (fun e => if t.msb then e.poc == full else e.poc % m == (t.lsb : Nat)), t.used, true))
  if sl.nal = 19 || sl.nal = 20 then [] else short sl.rps.s0 ++ short sl.rps.s1 ++ long

/-- The pictures kept by a picture's reference sets, the others no longer references; those that are no references and
wait for no output leave. -/
def keepRefs (x : DecSt) (sets : List (Option Nat × Bool × Bool)) : DecSt :=
  let kept (e : Nat) : Option Bool := (sets.find? (fun r => r.1 == some e)).map (·.2.2)
  { x with pics := (x.pics.map (fun p => match kept p.e with
      | some l => { p with long := l }
      | none => { p with ref := false })).filter (fun p => p.ref || p.wait) }

/-- One picture, the first in output order, is due for output. -/
def bumpOne (x : DecSt) : DecSt :=
  match ((x.pics.filter (·.wait)).mergeSort (fun a b => decide (a.poc ≤ b.poc))).head? with
  | none => x
  | some p => { x with
      due := x.due ++ [p.e]
      pics := (x.pics.map (fun y => if y.e == p.e then { y with wait := false } else y)).filter (fun y => y.ref || y.wait) }

/-- Pictures become due for output while the sequence's buffering says so; `room` asks for a free place too. -/
def bumpAll (q : HevcSps) (room : Bool) : Nat → DecSt → DecSt
  | 0, x => x
  | k + 1, x =>
    let w := x.pics.filter (·.wait)
    let late := match q.latency with
      | some l => w.any (fun p => decide (l ≤ p.age))
      | none => false
    if w.isEmpty || !(decide (q.reorder < w.length) || late || (room && decide (q.dpb ≤ x.pics.length))) then x
    else bumpAll q room k (bumpOne x)

/-- The context before a picture is decoded: references kept, and pictures due for output. -/
def beforePic (x : DecSt) (q : HevcSps) (sl : HevcSlice) (poc : Int) : DecSt :=
  let seq := startsSeq x sl
  let y := keepRefs x (if seq then [] else refSets x q sl poc)
  if seq && x.begun then
    let y := if sl.nal = 21 || sl.prior then { y with pics := y.pics.map (fun p => { p with wait := false }) } else y
    let y := (List.range 17).foldl (fun y _ => bumpOne y) y
    { y with pics := y.pics.filter (fun p => p.ref || p.wait) }
  else bumpAll q true 17 y

/-- The lowest entry that is no reference, waits for no output, and is not held (R254). -/
def freeEntry (x : DecSt) : Option Nat :=
  (List.range 16).find? (fun e => !x.pics.any (·.e == e) && !x.due.contains e && !x.held.contains e)

/-- The pictures a slice may predict from, in the order of its RefPicList0, and that list's first entry: outside `some`
is no picture at all, inside none is one that was never received (R256, R258). -/
def firstRef (x : DecSt) (q : HevcSps) (sl : HevcSlice) (poc : Int) : Option (Option Nat) :=
  if sl.kind = 2 then none
  else
    let l := (refSets x q sl poc).filter (·.2.1)
    (l[sl.entry % floor1 l.length]?).map (·.1)

/-! ### Writing a picture -/

/-- A decoded component sample of a plane as format 0x20 holds it (R254). -/
def decSample (q : HevcSps) (au : DecodedAu) (k x y : Nat) : Nat :=
  let y := if k != 0 && q.chroma = 1 then y / 2 else y
  let v := ((au.planes.getD k []).getD y []).getD x 0
  (v * 2 ^ (10 - (if k = 0 then q.depthY else q.depthC))) % 1024

/-- What a CTB is concealed with: nothing, or the row of an entry, or mid-grey (R256, R258). -/
abbrev Conceal := Nat → Option (Option Nat)

/-- Components of a picture row: decoded, or concealed where the CTB is (R256). -/
def decRow (q : HevcSps) (au : DecodedAu) (W y : Nat) (bad : Conceal) (old : Nat → List Nat) : List Nat :=
  let ctb := 2 ^ q.ctb
  let perRow := ceilDiv W ctb
  (List.range (2 * W)).map (fun i =>
    let x := i / 2
    match bad (y / ctb * perRow + x / ctb) with
    | some (some e) => (old e).getD i 0
    | some none => 512
    | none =>
      if i % 2 = 1 then decSample q au 0 x y
      else if i % 4 = 0 then decSample q au 1 (i / 4) y
      else decSample q au 2 (i / 4) y)

/-- Packs 10-bit components as one LSB-first bit string. -/
def pack10 (cs : List Nat) : List Byte :=
  leBytes (ceilDiv (10 * cs.length) 8) (cs.foldr (fun c n => c + 1024 * n) 0)

/-- A job's picture is written to entry `e` (R254, R256, R257); the answer counts the bytes clipped. -/
def decWrite (d e : Nat) (q : HevcSps) (au : DecodedAu) (refs : List Nat) (bad : Conceal) (s : State) : Nat × State :=
  let (W, H) := (upTo 8 q.w, upTo 8 q.h)
  let ((base, len, stride), s) := dpbEntry d e s
  let (at_, s) := refs.foldl (fun (x : List (Nat × Nat × Nat) × State) r =>
    let (z, s) := dpbEntry d r x.2
    (x.1 ++ [(r, z.1, z.2.2)], s)) ([], s)
  let rowBytes := 5 * W / 2
  let x := (List.range H).foldl (fun (x : Nat × State) y =>
    let (rows, s) := at_.foldl (fun (l : List (Nat × List Nat) × State) z =>
      let (bs, s) := dmaTake 8 (z.2.1 + y * z.2.2) rowBytes l.2
      (l.1 ++ [(z.1, row422 W bs)], s)) ([], x.2)
    dpbPut base len (y * stride) (pack10 (decRow q au W y bad (lookD rows []))) (x.1, s)) (0, s)
  dpbPut base len (stride * H) (au.motion.take (ceilDiv W 16 * ceilDiv H 16 * 16)) x

/-! ### The end of a job -/

/-- The CTBs concealed, by place in coding order: from each error to the end of its slice, and from the CTB that took
too long to the end of the picture (R256). -/
def concealed (n : Nat) (starts errors : List Nat) (dog : Option Nat) (i : Nat) : Bool :=
  (match dog with
    | some k => decide (k ≤ i)
    | none => false) ||
  errors.any (fun k => decide (k ≤ i) && decide (i < (starts.find? (fun b => decide (k < b))).getD n))

/-- The places of CTBs in coding order. -/
def placeOf (order : List Nat) (ctb : Nat) : Nat := order.findIdx (· == ctb)

/-- A job ends with a decoded picture (R254 to R259); `late` is the CTB that took too long: the errors before it are
still detected and concealed, and the status is the watchdog's (DESIGN CHOICE, log 54). At T1 and
above a pause follows each CTB (R441). -/
def decPicture (late : Option Nat) (job : DecJob) (z : AuHead) (sl : HevcSlice) (q : HevcSps) (p : HevcPps) (au : DecodedAu)
    (s : State) : State :=
  let d := job.d
  let x0 := s.dc d
  let poc := pocOf x0 q sl
  let x := beforePic x0 q sl poc
  match freeEntry x with
  | none => decComplete job 5 0 0 (0, 0, 0, 0) s
  | some e =>
    let order := codingOrder q p
    let n := order.length
    let s := advanceTo (s.hvc.decAt + n * s.t1Pause Config.fclk) s
    let place (c : Nat) : Nat := placeOf order (c % floor1 n)
    let heads := z.slices.filter (!·.dep)
    let starts := (heads.map (fun h => place h.addr)).mergeSort (· ≤ ·)
    let (par, s) := examDetect 0x3002 au.parity.isSome d 0 s
    let errors := (au.errors.map place).filter (fun i => match late with
      | some c => decide (i < place c)
      | none => true)
    let (err, s) := examDetect 0x3004 (!errors.isEmpty) d 0 s
    let (hit, s) := examDetect 0x3003 late.isSome d 0 s
    let strike (on : Bool) (real : List Nat) (s : State) : List Nat × State :=
      if !on then ([], s) else if real.isEmpty then let (v, s) := draw s; ([v.toNat % floor1 n], s) else (real, s)
    let (parAt, s) := strike par (au.parity.map place).toList s
    let (errAt, s) := strike err errors s
    let (dogAt, s) := strike hit (late.map place).toList s
    let wrong := par || err || hit
    let owner (i : Nat) : HevcSlice := ((heads.filter (fun h => decide (place h.addr ≤ i))).getLast?).getD sl
    let bad : Conceal := fun c =>
      if wrong && concealed n starts (parAt ++ errAt) dogAt.head? (place c) then
        some ((firstRef x0 q (owner (place c)) poc).getD none)
      else none
    let idr := sl.nal == 19 || sl.nal == 20
    let x := if idr then { x with pics := x.pics.map (fun y => { y with direct := false, inher := false }) } else x
    let used := if heads.all (·.kind == 2) then [] else (refSets x0 q sl poc).filter (·.2.1)
    let from_ := x.pics.filter (fun y => used.any (fun r => r.1 == some y.e))
    let direct := wrong || used.any (·.1.isNone) || from_.any (·.direct)
    let inher := !direct && !from_.isEmpty && from_.all (·.inher)
    let (clip, s) := decWrite d e q au (x.pics.map (·.e)) bad s
    let (clipped, s) := examDetect 0x3005 (clip != 0) d 0 s
    let s := bumpBy HVC_DEC_CLIP clip s
    let leading := sl.nal == 8 || sl.nal == 9
    let shown := sl.shown && !(leading && x0.rasl)
    let base := decide (sl.nal < 16 && sl.nal % 2 = 1) || decide (16 ≤ sl.nal)
    let pics := x.pics.map (fun y => if y.wait && shown then { y with age := y.age + 1 } else y)
    let x := { x with
      sps := z.sps, pps := z.pps, begun := !z.eos, rasl := if 16 ≤ sl.nal then startsSeq x0 sl else x.rasl
      prev := if base && !leading && sl.nal != 7 then poc else x.prev
      pics := pics ++ [{ e := e, poc := poc, wait := shown, direct := direct, inher := inher }] }
    let x := bumpAll q false 17 x
    let outs := x.due.take 4
    let s := modDc d (fun _ => { x with due := x.due.drop 4, held := x.held ++ outs }) s
    let status := if hit then 2 else if wrong then 4 else if direct || inher then 1 else 0
    let s := if hit then raise 0x30 9 d s else s
    let s := if par || err then raise 0x30 10 d s else s
    let s := if clipped then raise 0x30 11 d s else s
    let w2 := status + (if direct then 2 ^ 4 else 0) + (if inher then 2 ^ 5 else 0) + (if clipped then 2 ^ 6 else 0) +
      2 ^ 7 + e * 2 ^ 8 + outs.length * 2 ^ 12
    let list := outs.foldr (fun k n => k + 16 * n) 0
    let (ux, uy) := (if q.chroma = 1 || q.chroma = 2 then 2 else 1, if q.chroma = 1 then 2 else 1)
    let win (i u : Nat) : Nat := q.win.getD i 0 * u
    decComplete job w2 (poc % 4294967296).toNat list (win 0 ux, win 1 ux, win 2 uy, win 3 uy) s

/-- A job ends (R253, R255): its access unit is read, and a stream the decoder does not decode is refused. -/
def decEnd (late : Option Nat) (au : DecodedAu) (s : State) : State :=
  match s.hvc.job with
  | none => s
  | some job =>
    if job.sound && job.len = 0 then decComplete job 0 0 0 (0, 0, 0, 0) s
    else if !job.sound then decComplete job 3 0 0 (0, 0, 0, 0) s
    else
      match dmaRead 8 job.addr job.len s with
      | (none, s) => decComplete job 3 0 0 (0, 0, 0, 0) s
      | (some bs, s) =>
        let z := auHead (s.dc job.d) bs
        match z.first with
        | none => decComplete job 3 0 0 (0, 0, 0, 0) s
        | some (sl, q, p) => decPicture late job z sl q p au s

/-- The limit of a CTB has passed in the job under way (R256). -/
def decPatience (s : State) : State :=
  if s.hvc.job.isSome then advanceTo (s.hvc.decAt + (s.f HVC_DEC_CTB_TO_cycles + 1) * Config.fclk) s else s

/-- DEC_JOB_DONE (R255). -/
def execDecJobDone (au : DecodedAu) (s : State) : Res := .next (if s.domOn dHVC then decEnd none au s else s)

/-- DEC_CTB_WATCHDOG (R256): the picture ends at the CTB that took more than HVC_DEC_CTB_TO FCLK cycles, so no earlier
than that after the job's start. -/
def execDecCtbWatchdog (au : DecodedAu) (ctb : Nat) (s : State) : Res :=
  .next (if s.domOn dHVC then decEnd (some ctb) au (decPatience s) else s)

end Sys2Proof.Machine
end

