-- ==== Sys2Proof/Machine/Dram.lean ====
section
/-! DEFINITION. The memory subsystem (R271 to R285): mapping, requests, in-line ECC, refresh, training. -/

namespace Sys2Proof.Machine

open Sys2Proof.Config (ms us)

/-! ### Address mapping (R272 to R274) -/

/-- The channel masks as written. -/
def State.chWritten (s : State) : List Nat := (List.range 5).map (fun i => s.pair (MEM_MAP_CH_LO i) (MEM_MAP_CH_HI i))

/-- The bank masks as written. -/
def State.bkWritten (s : State) : List Nat := (List.range 4).map (fun i => s.pair (MEM_MAP_BK_LO i) (MEM_MAP_BK_HI i))

/-- No element stands twice. -/
def noRepeat : List Nat → Bool
  | [] => true
  | a :: t => !t.contains a && noRepeat t

/-- A mask set is singular (R273). -/
def singular (v : Variant) (ch bk : List Nat) : Bool :=
  let m := usedMasks v ch bk
  m.any (· == 0) || !noRepeat (m.map Nat.log2) ||
    m.any (fun x => x % 64 != 0 || decide (2 ^ Config.dramBits v ≤ x)) ||
    (unusedCh v).any (fun i => ch.getD i 0 != 0)

/-- A write of MEM_MAP_APPLY (R274). -/
def mapApplyWrite (v : Word) (s : State) : State :=
  if !bitOf v.toNat 0 then s
  else if s.b MEM_CTRL_en then flag MEM_MAP_STATUS_bad_write s
  else if singular s.variant s.chWritten s.bkWritten then flag MEM_MAP_STATUS_singular s
  else flag MEM_MAP_STATUS_valid { s with mc := { s.mc with chMask := s.chWritten, bkMask := s.bkWritten } }

/-- MEM_MAP_APPLY (R274). -/
def execMemMapApply (r : Requester) (v : Word) (s : State) : Res :=
  .next (writeBy r MEM_MAP_APPLY (mapApplyWrite (v ||| 1)) s)

/-- Every training that runs stops where it is: training never runs while en = 1 (R281). -/
def trainStop (s : State) : State :=
  (s.mc.training.map (·.1)).foldl (fun s m => setF (MC_TRAIN_CTRL_go m) 0 s) { s with mc := { s.mc with training := [] } }

/-- A write of MEM_CTRL (R274): en needs a set in force. -/
def memCtrlWrite (v : Word) (s : State) : State :=
  if bitOf v.toNat 0 && !s.b MEM_MAP_STATUS_valid && !s.b CFG_LOCK_lock then flag MEM_MAP_STATUS_bad_write s
  else
    let s := plainWrite MEM_CTRL v s
    if s.b MEM_CTRL_en then trainStop s else s

/-- MEM_ENABLE (R274). -/
def execMemEnable (r : Requester) (v : Word) (s : State) : Res := .next (writeBy r MEM_CTRL (memCtrlWrite (v ||| 1)) s)

/-! ### Requests (R275 to R277, R283, R284) -/

/-- A request of a bus master at a burst (R23, R275, R283, R284), with what it draws. -/
def dramServe (q : MemReq) (s : State) : State :=
  let ans (r : Reply) (d : List Byte) (s : State) : State := { s with mc := { s.mc with lastReply := r, lastData := d } }
  let bad := ans ⟨true, 0⟩ []
  let s := rereadFirst q.addr q.len (awaitFill q.addr q.len s)
  if !s.memAnswers q.addr q.len q.write.isSome then bad s
  else match regionOf s.variant q.addr with
    | .dram _ =>
      let s := bursts q.cls q.addr q.len s
      match q.write with
      | none =>
        let (ok, s) := eccCheck q.addr q.found s
        if ok then ans ⟨false, 0⟩ (s.peeks q.addr q.len) s else bad s
      | some bs =>
        let (ok, s) := rmwCheck q.addr q.len q.found s
        if ok then ans ⟨false, 0⟩ [] (poke q.addr bs s) else bad s
    | _ => bad s

/-- A request's channel and bank; requests outside DRAM wait for none. -/
def State.reqBank (s : State) (q : MemReq) : Option (Nat × Nat) := match regionOf s.variant q.addr with
  | .dram off => some (s.channelOf off, s.bankOf off)
  | _ => none

/-- An older request must be served before a younger one: accesses to one burst of which one writes, and requests of one
class to one bank (R276). -/
def State.before (s : State) (x y : MemReq) : Bool :=
  (x.addr / 64 == y.addr / 64 && (x.write.isSome || y.write.isSome)) ||
    (realTime x.cls == realTime y.cls && s.reqBank x == s.reqBank y)

/-- The requests of a waiting list, oldest first, that no older one holds back. -/
def State.free (s : State) : List (Nat × MemReq) → List (Nat × MemReq) → List (Nat × MemReq)
  | _, [] => []
  | old, x :: t => (if old.any (fun y => s.before y.2 x.2) then [] else [x]) ++ s.free (old ++ [x]) t

/-- The bulk share of a channel is due: fewer than bulk_min / 64 of its data cycles in this microsecond, the next one
counted, went to bulk requests (R276). -/
def State.bulkDue (s : State) (ch : Nat) : Bool :=
  let (v, b, n) := lookD s.mc.qos (s.now / us, 0, 0) ch
  let (b, n) := if v = s.now / us then (b, n) else (0, 0)
  b * 64 < s.f (MC_QOS_bulk_min (ch / 8)) * (n + 1)

/-- The waiting request that is served next (R276): in the channel of the oldest one, a real-time request before a bulk
one unless the bulk share is due. -/
def State.nextReq (s : State) (l : List (Nat × MemReq)) : Option (Nat × MemReq) :=
  match s.free [] l with
  | [] => none
  | x :: t =>
    let ch := (s.reqBank x.2).map (·.1)
    let own := (x :: t).filter (fun y => (s.reqBank y.2).map (·.1) == ch)
    let rt := own.find? (fun y => realTime y.2.cls)
    let bulk := own.find? (fun y => !realTime y.2.cls)
    match rt, bulk with
    | some r, some b => some (if s.bulkDue (ch.getD 0) then b else r)
    | some r, none => some r
    | none, b => b

/-- Serves the requests that wait, in the order of R276. -/
def serveAll : Nat → List (Nat × MemReq) → State → State
  | 0, _, s => s
  | k + 1, l, s => match s.nextReq l with
    | none => s
    | some x =>
      let s := dramServe x.2 s
      serveAll k (l.filter (fun y => y.1 != x.1))
        { s with mc := { s.mc with served := s.mc.served ++ [(x.1, s.mc.lastReply, s.mc.lastData)] } }

/-- DRAM_REQUEST (R276): the requests that wait at the controllers, oldest first, are scheduled and served. -/
def execDramRequest (qs : List MemReq) (s : State) : Res :=
  guardOk ((Instr.dramRequest qs).wf) <|
    if s.domOn dFAB then
      serveAll qs.length (qs.mapIdx (fun i q => (i, q))) { s with mc := { s.mc with served := [] } }
    else s

/-- ECC_REREAD (R284). -/
def execEccReread (a : Nat) (found : EccFound) (s : State) : Res :=
  .next (if s.pwr.clkLost then s else rereadDone (a / 64 * 64) found s)

/-- A region that is disabled leaves its check bytes in what becomes ordinary DRAM (R283); their values are free. -/
def leaveCheck (k : Nat) (s : State) : State := match s.eccRegion k with
  | some (b, d) =>
    let s := { s with mem := s.mem.filter (fun e => decide (e.1 < b + d) || decide (b + d + d / 8 ≤ e.1)) }
    { s with fresh := s.fresh + 1, mc := { s.mc with former := (b + d, b + d + d / 8, s.fresh) :: s.mc.former } }
  | none => s

/-- A write of MEM_ECC_RGNk_CTRL (R283): a region that overlaps an enabled one or leaves installed DRAM is refused. -/
def eccRegionWrite (k : Nat) (v : Word) (s : State) : State :=
  if s.b CFG_LOCK_lock then s
  else if bitOf v.toNat 0 && !s.b (MEM_ECC_RGN_CTRL_en k) then
    let t := plainWrite (MEM_ECC_RGN_CTRL k) v s
    let b := s.pair (MEM_ECC_RGN_LO k) (MEM_ECC_RGN_HI k)
    let d := s.f (MEM_ECC_RGN_SIZE_size k) * 0x1000000
    let e := b + d + d / 8
    let inside := decide (Config.dramBase ≤ b) && decide (e ≤ Config.dramBase + Config.dramSize s.variant)
    let clash := (List.range 8).any (fun j => j != k && (match s.eccRegion j with
      | some (c, w) => decide (b < c + w + w / 8) && decide (c < e)
      | none => false))
    if d = 0 then t
    else if !inside || clash then flag MEM_MAP_STATUS_bad_write s
    else setF (MEM_ECC_RGN_CTRL_busy k) 1 { t with mc := { t.mc with fills := t.mc.fills ++ [k] } }
  else if !bitOf v.toNat 0 then
    setF (MEM_ECC_RGN_CTRL_busy k) 0
      (plainWrite (MEM_ECC_RGN_CTRL k) v { leaveCheck k s with mc := { (leaveCheck k s).mc with fills := s.mc.fills.filter (· != k) } })
  else s

/-- ECC_REGION_ENABLE (R283). -/
def execEccRegionEnable (r : Requester) (k : Nat) (v : Word) (s : State) : Res :=
  guardOk (decide (k < 8)) (writeBy r (MEM_ECC_RGN_CTRL k) (eccRegionWrite k (v ||| 1)) s)

/-- ECC_FILL_DONE (R283). -/
def execEccFillDone (k : Nat) (s : State) : Res := guardOk (decide (k < 8)) (if s.pwr.clkLost then s else fillDone k s)

/-! ### Refresh (R278, R279) -/

/-- The channel is populated and its controller is on. -/
def State.chanOn (s : State) (m ch : Nat) : Bool :=
  s.unitOn (dMEM m) && decide (ch < Config.channels s.variant)

/-- The base refresh interval of LPDDR5X, in ps (PRESUMED 37: JESD209-5). -/
def tRefi : Nat := 3906250

/-- The multiplier, in 1/1,000, that an MR4 refresh-rate code sets on tREFI (PRESUMED 37: JESD209-5). -/
def refMult : Nat → Nat
  | 1 => 8000 | 2 => 6000 | 3 => 4000 | 4 => 3300 | 5 => 2500 | 6 => 2000 | 7 => 1700 | 8 => 1300 | 10 => 700
  | 11 => 500 | 12 => 250 | 13 => 250 | 14 => 125 | 15 => 125 | 31 => 125 | _ => 1000

/-- The instant a controller's timers start from when they have not run yet: its domain's power-up. -/
def State.mcSince (s : State) (m : Nat) : Nat := lookD s.pwr.onSince 0 (dMEM m)

/-- The next tREFI of a channel, for the derating its interval began with (R278, R279). -/
def State.refDue (s : State) (k : Nat) : Nat :=
  max (lookD s.mc.refAt 0 k) (s.mcSince (k / 8)) + tRefi * refMult (lookD s.mc.rate 9 k) / 1000

/-- Closes the rows of a channel's banks that `p` picks. -/
def closeRows (ch : Nat) (p : Nat → Bool) (s : State) : State :=
  { s with mc := { s.mc with rows := s.mc.rows.filter (fun e => !(e.1 / 16 == ch && p (e.1 % 16))) } }

/-- A tREFI of the derating in force passes (R278, R279). -/
def refreshTick (m ch : Nat) (s : State) : State :=
  let k := m * 8 + ch
  let s := advanceTo (s.refDue k) s
  let s := { s with mc := { s.mc with refAt := put s.mc.refAt k s.now, rate := put s.mc.rate k (lookD s.mc.codes 9 k) } }
  let d := lookD s.mc.debt 0 k + 1
  if d ≤ 8 then { s with mc := { s.mc with debt := put s.mc.debt k d } }
  else
    raise (0x38 + m) 3 ch (bump (MC_REF_FORCED m)
      (closeRows k (fun _ => true) { s with mc := { s.mc with debt := put s.mc.debt k (d - 8) } }))

/-- REFRESH_INTERVAL (R278). -/
def execRefreshInterval (m ch : Nat) (s : State) : Res :=
  guardOk (decide (m < 4) && decide (ch < 8)) (if s.chanOn m ch then refreshTick m ch s else s)

/-- A REFpb to the next bank in rotation, deferred while a request waits there; the debt falls at every eighth
(R278). -/
def perBank (m ch : Nat) (waiting : Bool) (s : State) : State :=
  let k := m * 8 + ch
  let d := lookD s.mc.debt 0 k
  if waiting || !(decide (0 < d) || (s.b (MC_REF_CFG_pull_in m) && decide (-8 < d))) then s
  else
    let r := lookD s.mc.rota 0 k
    let s := closeRows k (fun b => b % 8 == r) s
    { s with mc := { s.mc with
        rota := put s.mc.rota k ((r + 1) % 8), debt := if r = 7 then put s.mc.debt k (d - 1) else s.mc.debt } }

/-- PER_BANK_REFRESH (R278). -/
def execPerBankRefresh (m ch : Nat) (waiting : Bool) (s : State) : Res :=
  guardOk (decide (m < 4) && decide (ch < 8)) (if s.chanOn m ch then perBank m ch waiting s else s)

/-- The controller reads MR4 of every channel, mr4_ms after the time before, a setting of 0 taken as 1 (R279). The
hottest channel is the one of the highest code; code 31 marks the upper temperature limit (PRESUMED 37: JESD209-5). -/
def mr4 (m : Nat) (codes : List Nat) (s : State) : State :=
  let n := Config.channels s.variant
  let s := advanceTo (max (lookD s.mc.mr4At 0 m) (s.mcSince m) + floor1 (s.f (MC_REF_CFG_mr4_ms m)) * ms) s
  let cs := codes.take n
  let s := { s with mc := { s.mc with
    mr4At := put s.mc.mr4At m s.now
    codes := (cs.mapIdx (fun i c => (m * 8 + i, c))).foldl (fun l e => put l e.1 e.2) s.mc.codes } }
  let hot := cs.foldl max 0
  let s := if cs.isEmpty || hot == s.f (MC_MR4_rate m) then s
    else raise (0x38 + m) 4 (cs.findIdx (· == hot)) (setF (MC_MR4_rate m) hot s)
  (List.range n).foldl (fun s i => if cs.getD i 0 == 31 then raise (0x38 + m) 5 i s else s) s

/-- MR4_READ (R279). -/
def execMr4Read (m : Nat) (codes : List Nat) (s : State) : Res :=
  guardOk ((Instr.mr4Read m codes).wf) (if s.chanOn m 0 then mr4 m codes s else s)

/-! ### Training and tracking (R281, R282) -/

/-- A write of MCn_TRAIN_CTRL (R281). -/
def trainWrite (m : Nat) (v : Word) (s : State) : State :=
  if !bitOf v.toNat 0 then s
  else if s.b MEM_CTRL_en then flag (MC_STATUS_bad_write m) s
  else
    let s := setF (MC_TRAIN_pass m) 0 (setF (MC_TRAIN_done m) 0 (flag (MC_TRAIN_CTRL_go m) s))
    { s with mc := { s.mc with training := put s.mc.training m (List.range (Config.channels s.variant)) } }

/-- TRAIN_GO (R281). -/
def execTrainGo (r : Requester) (m : Nat) (v : Word) (s : State) : Res :=
  guardOk (decide (m < 4)) (writeBy r (MC_TRAIN_CTRL m) (trainWrite m (v ||| 1)) s)

/-- A channel's training ends (R281). -/
def trainEnd (m ch : Nat) (first retry : Bool) (s : State) : State :=
  let l := lookD s.mc.training [] m
  if !l.contains ch then s
  else
    let (bad, s) := tryTwice (0x3802 + m * 256) first retry ch s
    let s := setF (MC_TRAIN_done m) (s.f (MC_TRAIN_done m) ||| 2 ^ ch) s
    let s := if bad then raise (0x38 + m) 7 ch s else setF (MC_TRAIN_pass m) (s.f (MC_TRAIN_pass m) ||| 2 ^ ch) s
    let rest := l.filter (· != ch)
    if rest.isEmpty then setF (MC_TRAIN_CTRL_go m) 0 { s with mc := { s.mc with training := del s.mc.training m } }
    else { s with mc := { s.mc with training := put s.mc.training m rest } }

/-- TRAIN_DONE (R281). -/
def execTrainDone (m ch : Nat) (first retry : Bool) (s : State) : Res :=
  guardOk (decide (m < 4) && decide (ch < 8)) (if s.domOn (dMEM m) then trainEnd m ch first retry s else s)

/-- TRACKING_UPDATE (R282): track_ms after the one before, a setting of 0 taken as 1, or at once on exit from
self-refresh; only while DRAM serves requests. -/
def execTrackingUpdate (m ch : Nat) (first retry : Bool) (s : State) : Res :=
  guardOk (decide (m < 4) && decide (ch < 8)) <|
    if s.chanOn m ch && s.b MEM_CTRL_en then
      let k := m * 8 + ch
      let s := if s.mc.owed.contains k then s
        else advanceTo (max (lookD s.mc.trackAt 0 k) (s.mcSince m) + floor1 (s.f (MC_TRAIN_CFG_track_ms m)) * ms) s
      trackRun k first retry s
    else s

end Sys2Proof.Machine
end

