-- ==== Sys2Proof/Machine/Inflate.lean ====
section
/-! DEFINITION. Decoding of one RFC 1951 block, as the pack engine's unpack jobs do it (R264), and the forms of R262. -/

namespace Sys2Proof.Machine

/-- A bit string that is read: its bits as a number and their count. -/
structure BitSrc where
  n : Nat
  t : Nat

/-- Reads `k` bits, least significant first, from bit `pos`. -/
def BitSrc.take (z : BitSrc) (k pos : Nat) : Option (Nat × Nat) :=
  if z.t < pos + k then none else some (z.n / 2 ^ pos % 2 ^ k, pos + k)

/-- Symbols of each code length 1 to 15, in order. -/
def huffTable (lens : List Nat) : List (List Nat) :=
  (List.range 15).map (fun l => (List.range lens.length).filter (fun i => lens.getD i 0 == l + 1))

/-- Decodes one canonical Huffman symbol. -/
def huffGo (z : BitSrc) : List (List Nat) → Nat → Nat → Nat → Option (Nat × Nat)
  | [], _, _, _ => none
  | l :: t, code, first, pos =>
    if z.t ≤ pos then none
    else
      let code := 2 * code + (if bitOf z.n pos then 1 else 0)
      if code < first + l.length then (l[code - first]?).map (fun s => (s, pos + 1))
      else huffGo z t code (2 * (first + l.length)) (pos + 1)

/-- Kraft's sum of a set of code lengths in units of 2^-15. -/
def kraft (lens : List Nat) : Nat := (lens.map (fun l => if l = 0 then 0 else 2 ^ (15 - l))).sum

/-- The literal and length code set is complete and has an end-of-block code. -/
def litOk (lens : List Nat) : Bool := kraft lens == 2 ^ 15 && lens.getD 256 0 != 0

/-- The distance code set is complete, or a single code of one bit, or empty (RFC 1951). -/
def distOk (lens : List Nat) : Bool :=
  kraft lens == 2 ^ 15 || lens.all (· == 0) || (lens.filter (· != 0) == [1])

/-- Base and extra bits of a length symbol 257 to 285. -/
def lenCode (s : Nat) : Nat × Nat :=
  let i := s - 257
  if i < 8 then (3 + i, 0)
  else if i = 28 then (258, 0)
  else (3 + (4 + i % 4) * 2 ^ (i / 4 - 1), i / 4 - 1)

/-- Base and extra bits of a distance symbol 0 to 29. -/
def distCode (s : Nat) : Nat × Nat :=
  if s < 4 then (1 + s, 0) else (1 + (2 + s % 2) * 2 ^ (s / 2 - 1), s / 2 - 1)

/-- One step of output: the bit position after it and the bytes it gave. -/
abbrev Token := Nat × List Byte

/-- What a block came to: its tokens and either its end, with whether it was the final block, or an error. -/
structure Inflated where
  toks  : List Token
  hist  : List Byte
  pos   : Nat
  final : Bool := false
  ok    : Bool := true

/-- `n` bytes copied from `d` back; `hist` is newest first. -/
def copyBack (d : Nat) : Nat → List Byte → List Byte → List Byte × List Byte
  | 0, hist, out => (hist, out)
  | n + 1, hist, out =>
    let b := hist.getD (d - 1) 0
    copyBack d n (b :: hist) (out ++ [b])

/-- The tokens of a Huffman-coded block (R264). -/
def huffBlock (z : BitSrc) (lit dist : List (List Nat)) : Nat → Nat → List Byte → List Token → Inflated
  | 0, pos, hist, toks => { toks := toks, hist := hist, pos := pos, ok := false }
  | fuel + 1, pos, hist, toks =>
    let bad : Inflated := { toks := toks, hist := hist, pos := pos, ok := false }
    match huffGo z lit 0 0 pos with
    | none => bad
    | some (s, p) =>
      if s < 256 then huffBlock z lit dist fuel p (BitVec.ofNat 8 s :: hist) (toks ++ [(p, [BitVec.ofNat 8 s])])
      else if s = 256 then { toks := toks ++ [(p, [])], hist := hist, pos := p }
      else if 285 < s then bad
      else match z.take (lenCode s).2 p with
        | none => bad
        | some (x, p) => match huffGo z dist 0 0 p with
          | none => bad
          | some (ds, p) =>
            if 29 < ds then bad
            else match z.take (distCode ds).2 p with
              | none => bad
              | some (y, p) =>
                let d := (distCode ds).1 + y
                if hist.length < d || 32768 < d then bad
                else
                  let (h, out) := copyBack d ((lenCode s).1 + x) hist []
                  huffBlock z lit dist fuel p h (toks ++ [(p, out)])

/-- The code lengths of a dynamic block (RFC 1951): repeat codes 16 to 18. -/
def readLens (z : BitSrc) (cl : List (List Nat)) (total : Nat) : Nat → Nat → List Nat → Option (List Nat × Nat)
  | 0, _, _ => none
  | fuel + 1, pos, acc =>
    if total ≤ acc.length then (if acc.length = total then some (acc, pos) else none)
    else match huffGo z cl 0 0 pos with
      | none => none
      | some (s, p) =>
        if s < 16 then readLens z cl total fuel p (acc ++ [s])
        else
          let bits := if s = 16 then 2 else if s = 17 then 3 else 7
          match z.take bits p with
          | none => none
          | some (x, p) =>
            let n := x + (if s = 18 then 11 else 3)
            if s = 16 && acc.isEmpty then none
            else readLens z cl total fuel p (acc ++ List.replicate n (if s = 16 then acc.getLast?.getD 0 else 0))

/-- The order of the code-length code lengths. -/
def clOrder : List Nat := [16, 17, 18, 0, 8, 7, 9, 6, 10, 5, 11, 4, 12, 3, 13, 2, 14, 1, 15]

/-- The code sets of a dynamic block. -/
def dynSets (z : BitSrc) (pos : Nat) : Option (List Nat × List Nat × Nat) :=
  match z.take 14 pos with
  | none => none
  | some (x, p) =>
    let (hlit, hdist, hclen) := (x % 32 + 257, x / 32 % 32 + 1, x / 1024 + 4)
    if 286 < hlit then none
    else match z.take (3 * hclen) p with
      | none => none
      | some (c, p) =>
        let cl := (List.range 19).map (fun s =>
          let i := clOrder.findIdx (· == s)
          if i < hclen then c / 8 ^ i % 8 else 0)
        if kraft cl != 2 ^ 15 then none
        else match readLens z (huffTable cl) (hlit + hdist) (hlit + hdist + 1) p [] with
          | none => none
          | some (l, p) => if litOk (l.take hlit) && distOk (l.drop hlit) then some (l.take hlit, l.drop hlit, p) else none

/-- The fixed literal code lengths. -/
def fixedLit : List Nat :=
  List.replicate 144 8 ++ List.replicate 112 9 ++ List.replicate 24 7 ++ List.replicate 8 8

/-- One block from bit `pos`, with the output so far newest first (R264). -/
def inflateBlock (z : BitSrc) (pos : Nat) (hist : List Byte) : Inflated :=
  let bad : Inflated := { toks := [], hist := hist, pos := pos, ok := false }
  match z.take 3 pos with
  | none => bad
  | some (h, p) =>
    let fin (x : Inflated) : Inflated := { x with final := h % 2 == 1 }
    match h / 2 with
    | 0 =>
      match z.take 32 (ceilDiv p 8 * 8) with
      | none => bad
      | some (l, p) =>
        let n := l % 65536
        if l / 65536 != 65535 - n then bad
        else
          let have_ := min n ((z.t - p) / 8)
          let bs := (List.range have_).map (fun i => BitVec.ofNat 8 (z.n / 2 ^ (p + 8 * i)))
          let toks := (p, []) :: bs.mapIdx (fun i b => (p + 8 * i + 8, [b]))
          fin { toks := toks, hist := bs.reverse ++ hist, pos := p + 8 * have_, ok := have_ == n }
    | 1 => fin (huffBlock z (huffTable fixedLit) (huffTable (List.replicate 30 5)) (z.t - p + 1) p hist [])
    | 2 =>
      match dynSets z p with
      | none => bad
      | some (lit, dist, p) => fin (huffBlock z (huffTable lit) (huffTable dist) (z.t - p + 1) p hist [])
    | _ => bad

/-- A bit list as a source. -/
def BitSrc.ofBits (l : List Bool) : BitSrc := ⟨l.foldr (fun b n => 2 * n + (if b then 1 else 0)) 0, l.length⟩

/-- The low `n` bits of a number, least significant first. -/
def lsbBits (n v : Nat) : List Bool := (List.range n).map (bitOf v)

/-- A stored block at bit phase `ph` within its byte. -/
def storedBits (final : Bool) (ph : Nat) (block : List Byte) : List Bool :=
  let pad := (16 - (ph + 3) % 8) % 8
  final :: false :: false :: List.replicate pad false ++ lsbBits 16 block.length ++
    lsbBits 16 (65535 - block.length) ++ block.flatMap (fun b => lsbBits 8 b.toNat)

/-! ### Coding (R262) -/

/-- A step of the parse: a literal, or a match of a length and a distance. -/
abbrev Lz := Byte ⊕ (Nat × Nat)

/-- The positions before `p` on its hash chain, nearest first: those with the same hash of three bytes, as far back as
the window and the chunk reach, at most `depth` of them. -/
def chain (a : Array Byte) (depth p : Nat) : List Nat :=
  let h (i : Nat) : Nat := Config.deflateHash (a.getD i 0) (a.getD (i + 1) 0) (a.getD (i + 2) 0) % 32768
  (((List.range (min p 32768)).map (fun i => p - 1 - i)).filter (fun q => h q == h p)).take depth

/-- Bytes from `q` on that agree with those from `p` on, at most `max`. -/
def agree (a : Array Byte) (q p : Nat) (max : Nat) : Nat :=
  ((List.range max).find? (fun i => a.getD (q + i) 0 != a.getD (p + i) 0)).getD max

/-- The match at `p`: the longest on its chain, 3 to 258 bytes inside the block; where several are, one of them. -/
def matchAt (a : Array Byte) (depth p : Nat) : Option (Nat × Nat) :=
  let max := min 258 (a.size - p)
  if max < 3 then none
  else
    let found := (chain a depth p).map (fun q => (agree a q p max, p - q))
    let best := (found.map (·.1)).foldl Nat.max 0
    let all := found.filter (fun e => e.1 == best)
    if best < 3 then none else all[Config.deflateTie p % all.length]?

/-- The parse of the bytes from `p` on: a match where there is one, else a literal. -/
def lzParse (a : Array Byte) (depth : Nat) : Nat → Nat → List Lz
  | 0, _ => []
  | k + 1, p =>
    if a.size ≤ p then []
    else match matchAt a depth p with
      | some (n, d) => .inr (n, d) :: lzParse a depth k (p + n)
      | none => .inl (a.getD p 0) :: lzParse a depth k (p + 1)

/-- The canonical code of each symbol of a set of code lengths, as its bits in stream order. -/
def canonCode (lens : List Nat) (sym : Nat) : List Bool :=
  let n := lens.getD sym 0
  let count (l : Nat) : Nat := (lens.filter (· == l)).length
  let first := (List.range n).foldl (fun c l => if l = 0 then 0 else 2 * (c + count l)) 0
  let code := (if n = 0 then 0 else first) + ((lens.take sym).filter (· == n)).length
  (List.range n).map (fun i => code.testBit (n - 1 - i))

/-- The symbol of a match length, with its extra bits. -/
def lenSym (n : Nat) : Nat × List Bool :=
  let s := ((List.range 29).reverse.map (257 + ·)).find? (fun s => (lenCode s).1 ≤ n) |>.getD 257
  (s, lsbBits (lenCode s).2 (n - (lenCode s).1))

/-- The symbol of a distance, with its extra bits. -/
def distSym (d : Nat) : Nat × List Bool :=
  let s := (List.range 30).reverse.find? (fun s => (distCode s).1 ≤ d) |>.getD 0
  (s, lsbBits (distCode s).2 (d - (distCode s).1))

/-- A parse in the codes of two sets of code lengths, and the end of the block. -/
def huffForm (lit dist : List Nat) (l : List Lz) : List Bool :=
  l.flatMap (fun x => match x with
    | .inl b => canonCode lit b.toNat
    | .inr (n, d) => canonCode lit (lenSym n).1 ++ (lenSym n).2 ++ canonCode dist (distSym d).1 ++ (distSym d).2) ++
    canonCode lit 256

/-- The dynamic-Huffman form of a parse after its block type: a header and the parse in the code sets it gives. -/
def dynForm (head : List Bool) (l : List Lz) : List Bool :=
  match dynSets (BitSrc.ofBits head) 0 with
  | some (lit, dist, p) => head.take p ++ huffForm lit dist l
  | none => []

/-- The bits of a block and, per step, the bits and input bytes so far (R262): one parse in the smallest of the stored, the
fixed-Huffman and the dynamic-Huffman form; where several are smallest, one of them. -/
def packBlock (final : Bool) (ph depth : Nat) (hist block : List Byte) : List Bool × List Token :=
  let stored := storedBits final ph block
  let a := (hist.reverse ++ block).toArray
  let parse := lzParse a depth block.length hist.length
  let fixed := final :: true :: false :: huffForm fixedLit (List.replicate 30 5) parse
  let dyn := final :: false :: true :: dynForm (Config.deflateDynamic hist.reverse block depth) parse
  let ok (c : List Bool) : Bool :=
    let x := inflateBlock (BitSrc.ofBits c) 0 hist
    x.ok && x.pos == c.length && (x.toks.flatMap (·.2)) == block
  let h := stored.length - 8 * block.length
  let forms := (stored, (h, []) :: block.mapIdx (fun i b => (h + 8 * i + 8, [b]))) ::
    ([fixed, dyn].filter ok).map (fun c => (c, (inflateBlock (BitSrc.ofBits c) 0 hist).toks))
  let least := (forms.map (·.1.length)).foldl min stored.length
  let all := forms.filter (fun e => e.1.length == least)
  all.getD (Config.deflatePick hist.reverse block % floor1 all.length) (stored, [])

end Sys2Proof.Machine
end

