-- ==== Sys2Proof/Machine/Pack.lean ====
section
/-! DEFINITION. The pack engine (R260 to R270). -/

namespace Sys2Proof.Machine

/-- A channel's job. -/
def State.pkeJob (s : State) (c : Nat) : Option PkeJob := look s.pke.jobs c

/-- Puts a channel's job. -/
def putJob (c : Nat) (j : PkeJob) (s : State) : State := { s with pke := { s.pke with jobs := put s.pke.jobs c j } }

/-- A channel becomes IDLE. -/
def pkeIdle (c : Nat) (s : State) : State :=
  setF (PKE_CH_STATUS_state c) 0 { s with pke := { s.pke with jobs := del s.pke.jobs c } }

/-- The job that the registers describe (R260). -/
def pkeJobOf (c : Nat) (s : State) : PkeJob where
  unpack := s.b (PKE_CTRL_op c)
  resid := s.b (PKE_CTRL_method c)
  src := s.pair (PKE_SRC_LO c) (PKE_SRC_HI c)
  len := s.f (PKE_SRC_LEN_bytes c)
  dst := s.pair (PKE_DST_LO c) (PKE_DST_HI c)
  dlen := s.f (PKE_DST_LEN_bytes c)
  idx := s.pair (PKE_IDX_LO c) (PKE_IDX_HI c)
  ilen := s.f (PKE_IDX_LEN_bytes c)
  chunk := s.f (PKE_CHUNK_kib c) * 1024
  depth := floor1 (s.f (PKE_CHUNK_depth c))
  w := s.f (PKE_ROW_w c)
  row := s.f (PKE_ROW_len c)

/-- Resume takes the new buffer and the new index space (R268): the one that filled up, or whose registers changed.
OUT_DONE restarts from 0 in any case. -/
def pkeResume (c : Nat) (s : State) : State :=
  match s.pkeJob c with
  | none => s
  | some j =>
    let n := pkeJobOf c s
    let newDst := j.full == 1 || (n.dst, n.dlen) != (j.dst, j.dlen)
    let newIdx := j.full == 2 || (n.idx, n.ilen) != (j.idx, j.ilen)
    let j := if newDst then { j with dst := n.dst, dlen := n.dlen, outAt := 0 } else j
    let j := if newIdx then { j with idx := n.idx, ilen := n.ilen, idxAt := 0 } else j
    setF (PKE_CH_STATUS_state c) 1 (setF (PKE_OUT_DONE_bytes c) 0 (putJob c { j with full := 0, outOld := j.outAt } s))

/-- A write of PKEc_CTRL (R260, R268): the commands clear themselves. -/
def pkeCtrlWrite (c : Nat) (v : Word) (s : State) : State :=
  let n := v.toNat
  let st := s.f (PKE_CH_STATUS_state c)
  if bitOf n 0 && st != 0 then flag PKE_STATUS_bad_write s
  else
    let s := plainWrite (PKE_CTRL c) v s
    if bitOf n 2 then pkeIdle c s
    else if bitOf n 0 then
      setF (PKE_CH_STATUS_state c) 1 (setF (PKE_CH_STATUS_cause c) 0 (setF (PKE_IN_DONE_bytes c) 0
        (setF (PKE_OUT_DONE_bytes c) 0 (putJob c (pkeJobOf c s) s))))
    else if bitOf n 1 && st == 2 then pkeResume c s
    else s

/-- PKE_GO (R260). -/
def execPkeGo (r : Requester) (c : Nat) (v : Word) (s : State) : Res :=
  guardOk (decide (c < 2)) (writeBy r (PKE_CTRL c) (pkeCtrlWrite c (setBits v 2 0 1)) s)

/-- PKE_RESUME (R268). -/
def execPkeResume (r : Requester) (c : Nat) (v : Word) (s : State) : Res :=
  guardOk (decide (c < 2)) (writeBy r (PKE_CTRL c) (pkeCtrlWrite c (setBits v 1 0 2)) s)

/-- PKE_ABORT (R268): abort wins over resume. -/
def execPkeAbort (r : Requester) (c : Nat) (v : Word) (s : State) : Res :=
  guardOk (decide (c < 2)) (writeBy r (PKE_CTRL c) (pkeCtrlWrite c (setBits v 2 2 1)) s)

/-! ### Output -/

/-- A job ends: complete for cause 0, else with JOB_ERR (R264, R265, R269). -/
def pkeEnd (c cause : Nat) (trailing : Bool) (s : State) : State :=
  let s := setF (PKE_CH_STATUS_cause c) cause (pkeIdle c s)
  if cause = 0 then
    let s := if trailing then flag (PKE_CH_STATUS_trailing c) s else s
    raise 0x34 0 c (flag (PKE_CH_STATUS_done c) s)
  else raise 0x34 2 c s

/-- The channel suspends (R267). -/
def pkeSuspend (c full : Nat) (j : PkeJob) (s : State) : State :=
  raise 0x34 1 c (setF (PKE_CH_STATUS_state c) 2 (putJob c { j with full := full } s))

/-- Puts out what is queued until it is done, an end comes or an output space is full (R263, R267). -/
def pkeFlush (c : Nat) (j : PkeJob) : List PkeItem → State → State
  | [], s => putJob c { j with queue := [] } s
  | x :: t, s => match x with
    | .done n => pkeFlush c j t (setF (PKE_IN_DONE_bytes c) n s)
    | .fin cause tr => pkeEnd c cause tr (putJob c j s)
    | .byte b =>
      if j.dlen ≤ j.outAt then pkeSuspend c 1 { j with queue := x :: t } s
      else
        let (ok, s) := dmaWrite 9 (j.dst + j.outAt) [b] s
        let (bad, s) := examDetect 0x3403 (!ok) c 0 s
        if bad then pkeEnd c 4 false s
        else
          let j := { j with outAt := j.outAt + 1 }
          pkeFlush c j t (setF (PKE_OUT_DONE_bytes c) (j.outAt - j.outOld) s)
    | .index v =>
      if j.ilen < j.idxAt + 4 then pkeSuspend c 2 { j with queue := x :: t } s
      else
        let (ok, s) := dmaWrite 9 (j.idx + j.idxAt) (leBytes 4 v) s
        let (bad, s) := examDetect 0x3403 (!ok) c 0 s
        if bad then pkeEnd c 4 false s else pkeFlush c { j with idxAt := j.idxAt + 4 } t s

/-- The byte of eight bits, the first least significant. -/
def byteOf (l : List Bool) : Byte := BitVec.ofNat 8 (l.foldr (fun b n => 2 * n + (if b then 1 else 0)) 0)

/-- Whole bytes of a bit list, with what is left. -/
def wholeBytes : Nat → List Bool → List Byte × List Bool
  | 0, l => ([], l)
  | n + 1, l =>
    if l.length < 8 then ([], l)
    else
      let (bs, r) := wholeBytes n (l.drop 8)
      (byteOf (l.take 8) :: bs, r)

/-- Queues bits after which `upto` input bytes are coded: they are done when the byte that holds their last bit is
written. -/
def pkeBits (bits : List Bool) (upto : Nat) (j : PkeJob) : PkeJob :=
  let all := j.bits ++ bits
  let (bs, rest) := wholeBytes (all.length / 8) all
  let items := match bs with
    | [] => []
    | b :: t => [.byte b, .done j.mark] ++ t.map .byte
  let last := if rest.isEmpty then [.done upto] else []
  { j with bits := rest, mark := upto, made := j.made + bs.length, queue := j.queue ++ items ++ last }

/-- Pads to a byte boundary. -/
def pkePad (j : PkeJob) : PkeJob :=
  if j.bits.isEmpty then j else pkeBits (List.replicate (8 - j.bits.length) false) j.mark j

/-- Queues the end of the job. -/
def pkeFin (cause : Nat) (trailing : Bool) (j : PkeJob) : PkeJob := { j with queue := j.queue ++ [.fin cause trailing] }

/-! ### DEFLATE (R262 to R264) -/

/-- Pieces of a bit string from its tokens: each token's bits and the input bytes coded after it. -/
def pkePieces : List Bool → Nat → Nat → List Token → List (List Bool × Nat)
  | rest, _, n, [] => [(rest, n)]
  | rest, at_, n, (e, out) :: t => (rest.take (e - at_), n + out.length) :: pkePieces (rest.drop (e - at_)) e (n + out.length) t

/-- One block of a pack job, from input bytes `inp` (R262, R263). -/
def packStep (inp : List Byte) (j : PkeJob) : PkeJob :=
  if j.len = 0 then pkeFin 0 false { j with queue := [.byte 0x03, .byte 0x00], made := 2 }
  else
    let off := if j.chunk = 0 then j.pos else j.pos % j.chunk
    let stop := if j.chunk = 0 then j.len else min j.len (j.pos - off + j.chunk)
    let n := min 65535 (stop - j.pos)
    let block := (inp.drop j.pos).take n
    let hist := if off = 0 then [] else j.hist
    let last := j.pos + n == j.len
    let j := if off = 0 && j.idx != 0 then { j with queue := j.queue ++ [.index j.made] } else j
    let (bits, toks) := packBlock last j.bits.length j.depth hist block
    let j := (pkePieces bits 0 j.pos toks).foldl (fun j p => pkeBits p.1 p.2 j) j
    let j := { j with pos := j.pos + n, hist := block.reverse ++ hist }
    if last then pkeFin 0 false (pkePad j)
    else if j.pos = stop then pkeBits (storedBits false j.bits.length []) j.pos j
    else j

/-- One block of an unpack job (R264). -/
def unpackStep (inp : List Byte) (j : PkeJob) : PkeJob :=
  let z : BitSrc := ⟨leNat inp, 8 * inp.length⟩
  let x := inflateBlock z j.pos j.hist
  let items := x.toks.flatMap (fun t => t.2.map PkeItem.byte ++ [.done (t.1 / 8)])
  let j := { j with pos := x.pos, hist := x.hist.take 32768, queue := j.queue ++ items }
  if !x.ok then pkeFin 2 false j
  else if x.final then
    pkeFin 0 (decide (ceilDiv x.pos 8 < j.len)) { j with queue := j.queue ++ [.done (ceilDiv x.pos 8)] }
  else j

/-! ### Residue (R265, R266) -/

/-- Bits of an element of width code `w`. -/
def residBits (w : Nat) : Nat := 8 * 2 ^ w

/-- The prediction of an element from its left neighbour and the row before (R220 with p = 1). -/
def residPred (B x : Nat) (row : List Nat) (prev : Option (List Nat)) : Nat :=
  match prev, x with
  | none, 0 => 2 ^ (B - 1)
  | none, x + 1 => row.getD x 0
  | some p, 0 => p.getD 0 0
  | some p, x + 1 =>
    let a := row.getD x 0
    let b := p.getD (x + 1) 0
    let c := p.getD x 0
    if max a b ≤ c then min a b else if c ≤ min a b then max a b else a + b - c

/-- The symbol of an element (R221, R265). -/
def residSym (B v P : Nat) : Nat :=
  let d := (v + 2 ^ B - P) % 2 ^ B
  if d < 2 ^ (B - 1) then 2 * d else 2 * (2 ^ B - d) - 1

/-- The element of a symbol. -/
def residVal (B m P : Nat) : Nat :=
  if m % 2 = 0 then (P + m / 2) % 2 ^ B else (P + 2 ^ B - (m + 1) / 2 % 2 ^ B) % 2 ^ B

/-- The parameter of the group after one of `n` symbols with sum `sum` (R222, k from 0 to w). -/
def residK (B n sum : Nat) : Nat := ((List.range (B + 1)).find? (fun k => sum ≤ n * 2 ^ k)).getD B

/-- A symbol's bits (R223, the escape in B bits). -/
def residSymBits (B k m : Nat) : List Bool :=
  let u := m / 2 ^ k
  if u < 24 then List.replicate u false ++ true :: lsbBits k m else List.replicate 24 false ++ lsbBits B m

/-- The symbols of a row. -/
def residSyms (B : Nat) (row : List Nat) (prev : Option (List Nat)) : List Nat :=
  row.mapIdx (fun x v => residSym B v (residPred B x row prev))

/-- Groups of 32 symbols, the last one shorter. -/
def groups32 (l : List Nat) : List (List Nat) := (List.range (ceilDiv l.length 32)).map (fun i => (l.drop (32 * i)).take 32)

/-- A row coded: per symbol its bits, and the group before the next row (R222). -/
def residRow (B k0 : Nat) (g : Nat × Nat) (syms : List Nat) : List (List Bool) × (Nat × Nat) :=
  (groups32 syms).foldl (fun (x : List (List Bool) × (Nat × Nat)) l =>
    let k := if x.2.1 = 0 then k0 else residK B x.2.1 x.2.2
    (x.1 ++ l.map (residSymBits B k), (l.length, l.sum))) ([], g)

/-- Rows of elements. -/
def rowsOf (n : Nat) : Nat → List Nat → List (List Nat)
  | 0, _ => []
  | f + 1, l => if l.isEmpty then [] else l.take n :: rowsOf n f (l.drop n)

/-- The elements of little-endian bytes. -/
def elems (b : Nat) : Nat → List Byte → List Nat
  | 0, _ => []
  | f + 1, l => if l.isEmpty then [] else leNat (l.take b) :: elems b f (l.drop b)

/-- The k0 of a stream: the rule of R222 on the first group itself. -/
def residK0 (B : Nat) (first : List Nat) : Nat :=
  let g := (residSyms B first none).take 32
  if g.isEmpty then 0 else residK B g.length g.sum

/-- Payload bytes of all rows. -/
def residPayload (B k0 : Nat) (rows : List (List Nat)) : Nat :=
  let bits := (rows.foldl (fun (x : Nat × Option (List Nat) × (Nat × Nat)) r =>
    let (bs, g) := residRow B k0 x.2.2 (residSyms B r x.2.1)
    (x.1 + (bs.map List.length).sum, some r, g)) (0, none, (0, 0))).1
  ceilDiv bits 8

/-- One row of a residue pack job; the first also writes the header (R265). -/
def residPackStep (inp : List Byte) (j : PkeJob) : PkeJob :=
  if j.w = 3 || j.len % 2 ^ j.w != 0 then pkeFin 1 false j
  else if j.row = 0 && j.len != 0 then pkeFin 0 false j
  else
    let B := residBits j.w
    let b := 2 ^ j.w
    let n := j.len / b
    let es := elems b inp.length inp
    let j := if j.begun then j
      else
        let k0 := residK0 B (es.take j.row)
        let pay := residPayload B k0 (rowsOf j.row es.length es)
        let hd := leBytes 4 0x55445352 ++ leBytes 4 (j.w + k0 * 2 ^ 4 + j.row * 2 ^ 16) ++ leBytes 4 n ++ leBytes 4 pay
        { j with begun := true, count := k0, made := 16, queue := j.queue ++ hd.map .byte }
    if n = 0 then pkeFin 0 false j
    else
      let row := (es.drop (j.pos / b)).take j.row
      let (bs, g) := residRow B j.count j.grp (residSyms B row j.prev)
      let start := j.pos
      let k : PkeJob := (bs.mapIdx (fun i x => (x, start + b * (i + 1)))).foldl (fun j p => pkeBits p.1 p.2 j) j
      let j : PkeJob := { k with pos := start + b * row.length, prev := some row, grp := g }
      if j.len ≤ j.pos then pkeFin 0 false (pkePad j) else j

/-- Reads a symbol under `k` (R223, R265). -/
def residRead (z : BitSrc) (B k pos : Nat) : Option (Nat × Nat) :=
  let u := ((List.range 24).takeWhile (fun i => !bitOf z.n (pos + i))).length
  if u < 24 then (z.take k (pos + u + 1)).map (fun x => (u * 2 ^ k + x.1, x.2)) else z.take B (pos + 24)

/-- Progress through a row being decoded: position, row so far, the group before, the group at hand. -/
structure RowIn where
  pos : Nat
  row : List Nat
  g   : Nat × Nat
  cur : Nat × Nat
  ends : List Nat
  ok  : Bool := true

/-- One element of a row. -/
def residElem (z : BitSrc) (B k0 : Nat) (prev : Option (List Nat)) (x : Nat) (r : RowIn) : RowIn :=
  if !r.ok then r
  else
    let r := if x % 32 = 0 && r.cur.1 != 0 then { r with g := r.cur, cur := (0, 0) } else r
    let k := if r.g.1 = 0 then k0 else residK B r.g.1 r.g.2
    match residRead z B k r.pos with
    | none => { r with ok := false }
    | some (m, p) =>
      { r with
        pos := p, row := r.row ++ [residVal B m (residPred B x r.row prev)]
        cur := (r.cur.1 + 1, r.cur.2 + m), ends := r.ends ++ [p] }

/-- One row of a residue unpack job; the first also reads the header (R265). -/
def residUnpackStep (inp : List Byte) (j : PkeJob) : PkeJob :=
  let w1 := leAt inp 4 4
  let w := w1 % 4
  let B := residBits w
  let k0 := bitsOf w1 9 4
  let row := w1 / 2 ^ 16
  let n := leAt inp 8 4
  if inp.length < 16 || leAt inp 0 4 != 0x55445352 || w == 3 || B < k0 then pkeFin 2 false j
  else if n = 0 || row = 0 then pkeFin 0 false { j with queue := j.queue ++ [.done 16] }
  else
    let z : BitSrc := ⟨leNat inp, 8 * min inp.length (16 + leAt inp 12 4)⟩
    let j := if j.begun then j else { j with begun := true, pos := 128 }
    let todo := min row (n - j.count)
    let r := (List.range todo).foldl (fun r x => residElem z B k0 j.prev x r)
      { pos := j.pos, row := [], g := j.grp, cur := (0, 0), ends := [] }
    let items := (r.row.zip r.ends).flatMap (fun e => (leBytes (2 ^ w) e.1).map PkeItem.byte ++ [.done (e.2 / 8)])
    let j := { j with
      pos := r.pos, prev := some r.row, grp := r.cur, count := j.count + r.row.length, queue := j.queue ++ items }
    if !r.ok then pkeFin 2 false j
    else if n ≤ j.count then pkeFin 0 false { j with queue := j.queue ++ [.done (ceilDiv r.pos 8)] }
    else j

/-! ### The engine -/

/-- One block or row of a running channel (R261, R269): only on-die parity and error responses are checked, the Huffman
tables in DEFLATE jobs and the stream in unpack jobs. -/
def pkeStep (c : Nat) (parity : Option PkeMemory) (j : PkeJob) (s : State) : State :=
  let s := { s with pke := { s.pke with last := some c } }
  if !j.queue.isEmpty then pkeFlush c j j.queue s
  else
    let (p0, s) := examDetect 0x3400 (parity == some .window) c 0 s
    let (p1, s) := if j.resid then (false, s) else examDetect 0x3401 (parity == some .tables) c 0 s
    if p0 || p1 then pkeEnd c 3 false s
    else
      let (got, s) := dmaRead 9 j.src j.len s
      let (bad, s) := examDetect 0x3403 got.isNone c 0 s
      match got, bad with
      | some inp, false =>
        let n := match j.unpack, j.resid with
          | false, false => packStep inp j
          | true, false => unpackStep inp j
          | false, true => residPackStep inp j
          | true, true => residUnpackStep inp j
        let wrong := n.queue.getLast? == some (.fin 2 false)
        let (err, s) := if j.unpack then examDetect 0x3402 wrong c 0 s else (false, s)
        let n := if err && !wrong then pkeFin 2 false { n with queue := [] } else n
        pkeFlush c { n with queue := [] } n.queue s
      | _, _ => pkeEnd c 4 false s

/-- PKE_BLOCK (R261, R441): a channel that is IDLE or SUSPENDED gives up its turn, two running ones alternate, and the
engine pauses between blocks at T1. -/
def execPkeBlock (c : Nat) (parity : Option PkeMemory) (s : State) : Res :=
  guardOk (decide (c < 2)) <|
    if s.domOn dPKE && s.f (PKE_CH_STATUS_state c) == 1 &&
        !(s.pke.last == some c && s.f (PKE_CH_STATUS_state (1 - c)) == 1) then
      match s.pkeJob c with
      | some j =>
        let s := pkeStep c parity j (advanceTo s.pke.free s)
        { s with pke := { s.pke with free := s.now + s.t1Pause Config.fclk } }
      | none => s
    else s

end Sys2Proof.Machine
end

