-- ==== Sys2Proof/Machine/Evr.lean ====
section
/-! DEFINITION. The event router (R25 to R30), the clock events of R18, error injection, rate judgement and the fault
log (R445 to R458). -/

namespace Sys2Proof.Machine

open Sys2Proof.Config (ms us)

/-! ### Event router -/

/-- The destination set of an event: the first enabled override that matches, else its block's route (R29). -/
def State.destOf (s : State) (id : Nat) : Nat :=
  match (List.range 64).find? (fun k => s.b (EVR_OVR_en k) && s.f (EVR_OVR_event_id k) == id) with
  | some k => s.f (EVR_OVR_dest k)
  | none => s.f (EVR_ROUTE_dest (id / 256))

/-- The 16-byte event record (R26). -/
def evRecord (e : Ev) (loss : Bool) (seq : Nat) : List Byte :=
  leBytes 4 (e.arg % 65536 + e.id % 65536 * 65536) ++
  leBytes 4 (e.t.ns % 2 ^ 30 + (if loss then 2 ^ 31 else 0)) ++
  leBytes 4 e.t.sec ++
  leBytes 4 (e.t.sec / 2 ^ 32 % 65536 + seq % 65536 * 65536)

/-- Records waiting in queue `d` (R28). -/
def State.queued (s : State) (d : Nat) : Nat :=
  (s.f (EVR_QTAIL_tail d) + 2 ^ 32 - s.f (EVR_QHEAD_head d)) % 2 ^ 32

/-- The router writes the event to queue `d`, or drops it: a full queue, or one of no entries (R28). -/
def evrDeliver (e : Ev) (seq d : Nat) (s : State) : State :=
  let n := s.f (EVR_QSIZE_entries d)
  if n = 0 || s.queued d == n then
    let s := addPair (EVR_QDROP_LO d) (EVR_QDROP_HI d) 1 (flag (EVR_QSTAT_lost d) s)
    { s with evr := { s.evr with owed := if s.evr.owed.contains d then s.evr.owed else s.evr.owed ++ [d] } }
  else
    let tail := s.f (EVR_QTAIL_tail d)
    let at_ := Config.sramBase + s.f (EVR_QBASE_base d) * 16 + tail % n * 16
    let s := poke at_ (evRecord e (s.evr.owed.contains d) seq) s
    let s := addPair (EVR_QWR_LO d) (EVR_QWR_HI d) 1 (setF (EVR_QTAIL_tail d) (tail + 1) s)
    { s with evr := { s.evr with owed := s.evr.owed.filter (· != d) } }

/-- An event reaches the router: it takes the next sequence number and goes to each destination (R26, R29). -/
def evrRoute (e : Ev) (s : State) : State :=
  let seq := s.evr.seq
  let dest := s.destOf e.id
  let s := { s with evr := { s.evr with seq := (seq + 1) % 65536 } }
  let (_, s) := examDetect 0x0101 false 0 0 s
  (List.range 5).foldl (fun s d => if bitOf dest d then evrDeliver e seq d s else s) s

/-- EVENT_RAISED: the oldest event in flight reaches the router (R27). -/
def execEventRaised (s : State) : Res :=
  .next (match s.evr.flight with
    | [] => s
    | e :: t => evrRoute e { s with evr := { s.evr with flight := t } })

/-- Destination `d`'s interrupt is asserted while its counts differ (R28). -/
def State.evrIrq (s : State) (d : Nat) : Bool := s.f (EVR_QTAIL_tail d) != s.f (EVR_QHEAD_head d)

/-- A queue of `n` records from byte offset `b` lies inside system SRAM (R30). -/
def queueInside (b n : Nat) : Bool := b + n * 16 ≤ Config.sramSize

/-- A write of EVR_QBASEd (R30). -/
def qbaseWrite (d : Nat) (v : Word) (s : State) : State :=
  if s.queued d == 0 && queueInside (bitsOf v.toNat 24 4 * 16) (s.f (EVR_QSIZE_entries d)) then plainWrite (EVR_QBASE d) v s
  else flag (EVR_QSTAT_bad_write d) s

/-- A write of EVR_QSIZEd (R30). -/
def qsizeWrite (d : Nat) (v : Word) (s : State) : State :=
  let n := bitsOf v.toNat 12 0
  if n ≤ 4096 && s.queued d == 0 && queueInside (s.f (EVR_QBASE_base d) * 16) n then plainWrite (EVR_QSIZE d) v s
  else flag (EVR_QSTAT_bad_write d) s

/-- A write of EVR_QHEADd: a head after tail is refused (R28). -/
def qheadWrite (d : Nat) (v : Word) (s : State) : State :=
  if ahead v.toNat (s.f (EVR_QTAIL_tail d)) then flag (EVR_QSTAT_bad_write d) s else plainWrite (EVR_QHEAD d) v s

/-- EVR_QBASE_WRITE. -/
def execEvrQbaseWrite (r : Requester) (d : Nat) (v : Word) (s : State) : Res :=
  guardOk (decide (d < 5)) (writeBy r (EVR_QBASE d) (qbaseWrite d v) s)

/-- EVR_QSIZE_WRITE. -/
def execEvrQsizeWrite (r : Requester) (d : Nat) (v : Word) (s : State) : Res :=
  guardOk (decide (d < 5)) (writeBy r (EVR_QSIZE d) (qsizeWrite d v) s)

/-- EVR_QHEAD_WRITE. -/
def execEvrQheadWrite (r : Requester) (d : Nat) (v : Word) (s : State) : Res :=
  guardOk (decide (d < 5)) (writeBy r (EVR_QHEAD d) (qheadWrite d v) s)

/-! ### Clocks (R18) -/

/-- PLL_LOCKED: the root PLL locks within 100 µs of its enable (R18); a wake of the UMB9480 goes on (R426). -/
def execPllLocked (s : State) : Res :=
  .next (if s.pwr.pllDue.isSome && !s.pwr.clkLost then
    pwrNext { s with pwr := { s.pwr with pllLocked := true, pllDue := none } } else s)

/-- REFERENCE_LOST: sage and AON fall back to the RC clock, every other root-derived clock stops, and SYS raises its
event (R18); the detector is lasting at once (R451). -/
def execReferenceLost (s : State) : Res :=
  .next <|
    let s := { s with pwr := { s.pwr with pllLocked := false, pllDue := none, clkLost := true } }
    let s := raise 0x01 0 0 (setF PWR_CLK_fab 0 (setF PWR_CLK_mem 0 (setF PWR_CLK_ctrl 0 s)))
    (examDetect 0x0100 true 0 0 s).2

/-! ### Injection (R447, R448) -/

/-- Why an arm is refused (R448), 0 if it is not. -/
def armCause (r : Requester) (k : Nat) (s : State) : Nat :=
  let id := s.f (ERR_INJ_ID_id k)
  if !isDetector id then 1
  else match detDomain id with
    | some d =>
      if !domPresent s.variant d || (0x28 ≤ id / 256 && id / 256 < 0x2C && Config.ports s.variant ≤ id / 256 - 0x28) then 2
      else if !s.domOn d then 3
      else rest r k s
    | none => rest r k s
where
  rest (r : Requester) (k : Nat) (s : State) : Nat :=
    if !s.b ERR_INJ_EN_en && r != .monitor then 4
    else if bitOf (s.f ERR_INJ_STATUS_armed) k then 5
    else 0

/-- Arms slot `k` (R447): a count of 0 injects nothing and is done at once; modes 0b00 and 0b11 arm nothing. -/
def injArm (r : Requester) (k : Nat) (s : State) : State :=
  let c := armCause r k s
  if c != 0 then setF ⟨ERR_INJ_STATUS, 8 + 4 * k + 3, 8 + 4 * k⟩ c s
  else
    let m := s.f (ERR_INJ_CFG_mode k)
    if s.f (ERR_INJ_CNT_count k) = 0 || m = 0 || m = 3 then raise 0x04 3 k s
    else
      let sl : InjSlot := ⟨s.f (ERR_INJ_ID_id k), m, floor1 (s.f (ERR_INJ_CFG_n k)), 0, false⟩
      setF ERR_INJ_STATUS_armed (s.f ERR_INJ_STATUS_armed ||| 2 ^ k)
        { s with err := { s.err with slots := put s.err.slots k sl } }

/-- Disarms slot `k` if it is armed (R447). -/
def injDisarm (k : Nat) (s : State) : State := if bitOf (s.f ERR_INJ_STATUS_armed) k then injDone k s else s

/-- A write of ERR_INJk_CTRL; with both bits the disarm is taken (DESIGN CHOICE 14). -/
def injCtrlWrite (r : Requester) (k : Nat) (v : Word) (s : State) : State :=
  if bitOf v.toNat 1 then injDisarm k s
  else if bitOf v.toNat 0 then injArm r k s
  else s

/-- A write of ERR_INJk_CFG: the off modes disarm the slot (R447). -/
def injCfgWrite (k : Nat) (v : Word) (s : State) : State :=
  let s := plainWrite (ERR_INJ_CFG k) v s
  if s.f (ERR_INJ_CFG_mode k) = 0 || s.f (ERR_INJ_CFG_mode k) = 3 then injDisarm k s else s

/-- INJ_ARM: a write of ERR_INJk_CTRL with arm = 1 and disarm = 0. -/
def execInjArm (r : Requester) (k : Nat) (v : Word) (s : State) : Res :=
  guardOk (decide (k < 4)) (writeBy r (ERR_INJ_CTRL k) (injCtrlWrite r k (setBits v 1 0 1)) s)

/-- INJ_DISARM: a write of ERR_INJk_CTRL with disarm = 1. -/
def execInjDisarm (r : Requester) (k : Nat) (v : Word) (s : State) : Res :=
  guardOk (decide (k < 4)) (writeBy r (ERR_INJ_CTRL k) (injCtrlWrite r k (setBits v 1 1 1)) s)

/-! ### Rate judgement (R452) -/

/-- One detector at the end of an interval. -/
def rateJudge (lim det : Nat) (s : State) : State :=
  let r := lookD s.err.rates {} det
  let now := decide (lim ≤ r.cur) && decide (lim ≤ r.prev) && !r.judged
  let s := { s with err := { s.err with
    rates := put s.err.rates det ⟨0, r.cur, decide (lim ≤ r.cur) && (r.judged || decide (lim ≤ r.prev))⟩ } }
  if now then lasting 6 det (s.err.injRates.contains det) 0 0 (raise 0x04 2 det s) else s

/-- RATE_INTERVAL: a 1 ms interval ends. -/
def execRateInterval (s : State) : Res :=
  .next <|
    let due := s.err.lastTick + ms
    let s := advanceTo due s
    let s := { s with err := { s.err with lastTick := max due (s.now / ms * ms) } }
    (s.err.rates.map (·.1)).foldl (fun s d => rateJudge (floor1 (s.f ERR_RATE_lim)) d s) s

/-! ### Fault log (R454 to R458) -/

/-- What a log header says (R455). -/
structure LogHdr where
  seq      : Nat := 0
  newest   : Nat := 0
  lost     : Nat := 0
  boots    : Nat := 0
  suppress : Nat := 0
  deriving DecidableEq, Repr

/-- The first 60 bytes of a header. -/
def hdrBody (h : LogHdr) : List Byte :=
  leBytes 4 0x474F4C46 ++ leBytes 4 1 ++ leBytes 8 h.seq ++ leBytes 8 h.newest ++ leBytes 8 h.lost ++
    leBytes 4 h.boots ++ leBytes 4 h.suppress ++ List.replicate 20 0

/-- A header with its CRC. -/
def hdrBytes (h : LogHdr) : List Byte := hdrBody h ++ leBytes 4 (crc32 (hdrBody h))

/-- Reads one header: a header whose magic stands but whose CRC fails is a detection of ERR 0x01. -/
def readHdr (a : Nat) (s : State) : Option LogHdr × State :=
  let b := s.peeks a 64
  let magic := leAt b 0 4 == 0x474F4C46
  let good := leAt b 0x3C 4 == crc32 (b.take 60)
  let (bad, s) := examDetect 0x0401 (magic && !good) 0 a s
  if magic && good && !bad then
    (some ⟨leAt b 8 8, leAt b 0x10 8, leAt b 0x18 8, leAt b 0x20 4, leAt b 0x24 4⟩, s)
  else (none, s)

/-- The valid header of higher sequence, and whether it is header A (R457); an empty log if none is valid. -/
def logHeader (s : State) : LogHdr × Bool × State :=
  let (a, s) := readHdr Config.logBase s
  let (b, s) := readHdr (Config.logBase + 0x40) s
  match a, b with
  | some x, some y => if x.seq < y.seq then (y, false, s) else (x, true, s)
  | some x, none => (x, true, s)
  | none, some y => (y, false, s)
  | none, none => ({}, false, s)

/-- Writes the header after `h` into the place that does not hold it (R457). -/
def writeHdr (h : LogHdr) (wasA : Bool) (s : State) : State :=
  let h := { h with seq := h.seq + 1, suppress := (h.suppress + s.err.suppress) % 2 ^ 32 }
  poke (Config.logBase + if wasA then 0x40 else 0) (hdrBytes h) { s with err := { s.err with suppress := 0 } }

/-- The first 60 bytes of a record (R456). -/
def recBody (q boots : Nat) (x : LogRec) : List Byte :=
  leBytes 8 q ++
  leBytes 4 (x.t.ns % 2 ^ 30 + (if x.inval then 2 ^ 31 else 0)) ++
  leBytes 4 x.t.sec ++
  leBytes 4 (x.t.sec / 2 ^ 32 % 65536 + boots % 65536 * 65536) ++
  leBytes 4 (x.det % 65536 + x.kind % 16 * 2 ^ 16 + (if x.inj then 2 ^ 20 else 0)) ++
  leBytes 8 (x.arg % 2 ^ 32) ++ leBytes 8 (x.addr % 2 ^ 40) ++ List.replicate 20 0

/-- Writes one record, then the header (R457, R458). -/
def logWrite (x : LogRec) (s : State) : State :=
  let (h, wasA, s) := logHeader s
  let q := h.newest + 1
  let (e, s) := examine 0x0400 false s
  if e.err then detect 0x0400 e.inj 0 0 (flag ERR_STATUS_log_fail s)
  else
    let b := recBody q h.boots x
    let s := poke (Config.logBase + 0x1000 + (q - 1) % 8128 * 64) (b ++ leBytes 4 (crc32 b)) s
    writeHdr { h with newest := q, lost := if 8128 < q then h.lost + 1 else h.lost } wasA s

/-- Writes every record waiting (R457: a hard reset waits for a pending write). -/
def logFlush (s : State) : State :=
  s.err.pend.foldl (fun s x => logWrite x s) { s with err := { s.err with pend := [] } }

/-- Counts a boot in the log header (R455). -/
def logBoot (s : State) : State :=
  let (h, wasA, s) := logHeader s
  writeHdr { h with boots := (h.boots + 1) % 2 ^ 32 } wasA s

/-- FAULT_LOG_WRITE: the oldest record waiting is written. -/
def execFaultLogWrite (s : State) : Res :=
  .next (match s.err.pend with
    | [] => s
    | x :: t => logWrite x { s with err := { s.err with pend := t } })

/-- Empties the log: both headers with the boot count at 0, sequences restart at 1 (R458). -/
def logEmpty (s : State) : State :=
  let s := { s with err := { s.err with suppress := 0 } }
  poke (Config.logBase + 0x40) (hdrBytes { seq := 2 }) (poke Config.logBase (hdrBytes { seq := 1 }) s)

/-- A write of ERR_LOG_CTRL: the clear is accepted from sage and the monitor alone (R458). -/
def logCtrlWrite (r : Requester) (v : Word) (s : State) : State :=
  if !bitOf v.toNat 0 then s
  else match r with
    | .sage | .monitor => logEmpty s
    | _ => flag ERR_STATUS_bad_write s

/-- LOG_CLEAR: a write of ERR_LOG_CTRL with clear = 1. -/
def execLogClear (r : Requester) (v : Word) (s : State) : Res :=
  .next (writeBy r ERR_LOG_CTRL (logCtrlWrite r (setBits v 0 0 1)) s)

end Sys2Proof.Machine
end

