-- ==== Sys2Proof/Machine/Timebase.lean ====
section
/-! DEFINITION. The reference generator (R31 to R40, R511, R512, R514) and the time unit's commands (R359 to R363). -/

namespace Sys2Proof.Machine

open Sys2Proof.Config (ms us)

/-! ### Rates and instants -/

/-- The time-unit time of an instant that has passed, by the clock's present rate. -/
def State.stampOf (s : State) (t : Nat) : Stamp :=
  if s.now ≤ t || !s.domOn dCTRL then s.stamp
  else
    let u := ((s.tsu.sec * 1000000000 + s.tsu.ns) * 2 ^ 32 + s.tsu.frac + s.subTick - ceilDiv ((s.now - t) * s.incr) Config.bclk) / 2 ^ 32
    ⟨u / 1000000000 % 2 ^ 48, u % 1000000000⟩

/-- REF_STATUS.state values. -/
def refFree : Nat := 0
def refAcquiring : Nat := 1
def refLocked : Nat := 2
def refHoldover : Nat := 3

/-- The nominal period in picoseconds; none at a rate of zero (R31). -/
def State.nominal (s : State) : Option Rat :=
  let n := s.f REF_RATE_NUM_num
  if n = 0 then none else some ((s.f REF_RATE_DEN_den * 1000000000000 : Nat) / (n : Rat))

/-- The first PCLK edge at or after a rational instant (R32). -/
def pclkAt (t : Rat) : Nat := ceilDiv t.ceil.toNat Config.pclk * Config.pclk

/-- REF_PHASE in nanoseconds. -/
def State.phase (s : State) : Int := s32 (s.rd REF_PHASE)

/-- The clock's reading now in units of 2^-32 ns since the epoch. -/
def State.reading (s : State) : Rat :=
  (((s.tsu.sec * 1000000000 + s.tsu.ns) * 2 ^ 32 + s.tsu.frac : Nat) : Rat) +
    ((s.now % Config.bclk * s.incr : Nat) : Rat) / Config.bclk

/-- The instant at which the clock reaches a reading, at its present rate. -/
def State.instantOf (s : State) (r : Rat) : Rat :=
  (s.now : Rat) + (r - s.reading) * Config.bclk / floor1 s.incr

/-- The ideal reading of tick `k` (R32): k × den / num seconds after the epoch, plus REF_PHASE. -/
def State.idealK (s : State) (k : Nat) : Rat :=
  ((k * s.f REF_RATE_DEN_den * 1000000000 * 2 ^ 32 : Nat) : Rat) / floor1 (s.f REF_RATE_NUM_num) + s.phase * 2 ^ 32

/-- The tick R34 chooses: the smallest k at or after the reading and, after a previous tick, at least half the
nominal period after it. -/
def State.chooseK (s : State) (from_ : Rat) : Nat :=
  let k := ((from_ - s.phase * 2 ^ 32) * s.f REF_RATE_NUM_num / (floor1 (s.f REF_RATE_DEN_den) * 1000000000 * 2 ^ 32)).ceil.toNat
  match s.ref.lastAt, s.nominal with
  | some l, some p => if decide ((pclkAt (s.instantOf (s.idealK k)) : Rat) - l < p / 2) then k + 1 else k
  | _, _ => k

/-- Shows the period from the previous tick's ideal instant to the next one's, in ns rounded down. -/
def showPeriod (s : State) : State :=
  match s.ref.lastIdeal, s.ref.next with
  | some a, some b => setF REF_PERIOD_period (((b - a) / 1000).floor.toNat) s
  | _, _ => s

/-- Puts the next tick at an ideal instant. -/
def schedule (ideal : Rat) (moved : Bool) (s : State) : State :=
  showPeriod { s with ref := { s.ref with next := some ideal, moved := moved } }

/-- Under PTP: chooses the next tick from the reading at which the choice was due, and places it (R34). -/
def schedulePtp (s : State) : State :=
  match s.nominal with
  | none => { s with ref := { s.ref with next := none, nextK := none, choose := none } }
  | some _ =>
    let k := match s.ref.nextK, s.ref.choose with
      | some k, none => k
      | _, some r => s.chooseK r
      | none, none => s.chooseK s.reading
    let s := { s with ref := { s.ref with nextK := some k, choose := none } }
    schedule (s.instantOf (s.idealK k)) false s

/-- Rounds a rational to the nearest integer, halves up. -/
def nearestInt (r : Rat) : Int := (r + 1 / 2).floor

/-- The last edge's phase target: its time plus REF_PHASE. -/
def State.target (s : State) (e : Nat) : Rat := (e : Rat) + s.phase * 1000

/-- The mean of a list, or `d` if it is empty. -/
def meanOr (d : Rat) (l : List Rat) : Rat := if l.isEmpty then d else l.foldl (· + ·) 0 / l.length

/-- A rational between two bounds. -/
def clampQ (lo hi x : Rat) : Rat := if x < lo then lo else if hi < x then hi else x

/-- The next ideal instant under GENLOCK after the tick at `prev` (R35 to R37): the mean of the last locked periods in
HOLDOVER; else, towards the reference phase, a jump once on a return while relock selects it, or a slew by at most 0.1 % of the nominal period
(DEDUCED 17: against the nominal period and against the period before). While a measured period out by more than 0.1 %
holds REF in ACQUIRING, ticks keep the nominal period, with neither slew nor jump (DESIGN CHOICE 17: R35 does not say where
they fall then). -/
def State.genlockNext (s : State) (prev p : Rat) : Rat × Bool × Option Rat :=
  let st := s.f REF_STATUS_state
  if st = refHoldover then (prev + meanOr p s.ref.lockedPer, false, s.ref.lastPer)
  else match s.ref.edge with
    | none => (prev + p, false, s.ref.lastPer)
    | some e =>
      if s.ref.held then (prev + p, false, s.ref.lastPer)
      else
        let rp := meanOr p s.ref.ivs
        let tgt := s.target e
        let pred := tgt + nearestInt ((prev + p - tgt) / rp) * rp
        if s.ref.jump && s.b REF_CTRL_relock then
          let later := if pred ≤ s.now then pred + (((s.now - pred) / rp).floor + 1) * rp else pred
          (if later - prev < p / 2 then later + rp else later, true, none)
        else
          let lim := p / 1000
          let was := match s.ref.lastPer with
            | some x => clampQ (p - lim) (p + lim) x
            | none => p
          let per := clampQ (max (p - lim) (was - lim)) (min (p + lim) (was + lim)) (pred - prev)
          (prev + per, false, some per)

/-- Places the tick after the one at `prev` under INTERNAL or GENLOCK. -/
def scheduleNext (prev : Rat) (s : State) : State :=
  match s.nominal with
  | none => s
  | some p =>
    if s.f REF_CTRL_src = 1 then
      let (ideal, moved, per) := s.genlockNext prev p
      schedule ideal moved { s with ref := { s.ref with lastPer := per, jump := s.ref.jump && !moved } }
    else schedule (prev + p) false s

/-! ### Start, stop and lock state -/

/-- Forgets every lock state (R35). -/
def dropLock (s : State) : State :=
  { s with ref := { s.ref with edge := none, ivs := [], lockedPer := [], good := 0, bad := 0, held := false, jump := false, lastPer := none, watch := none } }

/-- Enters ACQUIRING: a return to the reference phase is due, by the method relock then selects (R37). -/
def acquire (s : State) : State :=
  setF REF_STATUS_state refAcquiring { s with ref := { s.ref with good := 0, bad := 0, jump := true, watch := none } }

/-- The state the source gives at a start (R35). -/
def sourceState (s : State) : State :=
  match s.f REF_CTRL_src with
  | 1 => acquire s
  | 2 => setF REF_STATUS_state refLocked s
  | _ => setF REF_STATUS_state refFree s

/-- The schedule starts afresh (R511): the first tick at the first PCLK edge at or after now; under PTP as R34 chooses
with no previous tick. -/
def startSchedule (s : State) : State :=
  let s := { s with ref := { s.ref with next := none, nextK := none, choose := none, lastAt := none, lastIdeal := none, lastK := none, moved := false } }
  match s.nominal with
  | none => s
  | some _ =>
    if s.f REF_CTRL_src = 2 then schedulePtp { s with ref := { s.ref with choose := some s.reading } }
    else schedule (s.now : Rat) false s

/-- REF_CTRL.en rises (R511): ticks, pulses and REF_F levels from before count no more (R40, R514). -/
def refStart (s : State) : State :=
  startSchedule (sourceState (dropLock { s with ref := { s.ref with
    ticks := [], old := s.ref.ticks ++ s.ref.old, lastPulse := [], fHist := [] } }))

/-- REF_CTRL.en falls: no lock state is kept, the state reads FREE. -/
def refStop (s : State) : State :=
  setF REF_STATUS_state refFree (dropLock { s with ref := { s.ref with next := none, nextK := none, choose := none } })

/-- The source changes while REF runs: the schedule goes on from the last ideal instant, under PTP by R34, and the lock
state of the old source is dropped. The spec is silent on such a change (DESIGN CHOICE 15). -/
def refSwitch (s : State) : State :=
  let s := sourceState (dropLock { s with ref := { s.ref with lastK := none, nextK := none, choose := none } })
  if s.f REF_CTRL_src = 2 then schedulePtp { s with ref := { s.ref with choose := some s.reading } }
  else match s.ref.lastIdeal with
    | some p => scheduleNext p s
    | none => startSchedule s

/-- A write of REF_CTRL; one that carries src = 0b11 is ignored as a whole (R32, R510). -/
def refCtrlWrite (v : Word) (s : State) : State :=
  if bitsOf v.toNat 2 1 = 3 then flag REF_STATUS_bad_write s
  else
    let en := s.b REF_CTRL_en
    let src := s.f REF_CTRL_src
    let s := plainWrite REF_CTRL v s
    if s.b REF_CTRL_en then
      if !en then refStart s else if s.f REF_CTRL_src != src then refSwitch s else s
    else if en then refStop s else s

/-- A rate the B9 accepts: num up to 1,048,576, den from 1 to 65,536, at most 1,000 frames/s (R31). -/
def rateOk (num den : Nat) : Bool := num ≤ 1048576 && 1 ≤ den && den ≤ 65536 && num ≤ 1000 * den

/-- Under PTP a changed rate or phase moves every ideal instant: the next tick is chosen anew, from the reading the clock
has now (R31, R32, R34). -/
def rechoose (s : State) : State :=
  if s.f REF_CTRL_src = 2 && s.b REF_CTRL_en && s.ref.next.isSome && s.nominal.isSome then
    schedulePtp { s with ref := { s.ref with choose := some s.reading } }
  else s

/-- A write of REF_PHASE. -/
def refPhaseWrite (v : Word) (s : State) : State := rechoose (plainWrite REF_PHASE v s)

/-- A write of REF_RATE_NUM or REF_RATE_DEN (R31): the new rate takes effect from the tick after the write, and a
non-zero rate restarts stopped ticks (R511). -/
def refRateWrite (den : Bool) (v : Word) (s : State) : State :=
  let n := if den then s.f REF_RATE_NUM_num else bitsOf v.toNat 20 0
  let d := if den then bitsOf v.toNat 16 0 else s.f REF_RATE_DEN_den
  if rateOk n d then
    let s := plainWrite (if den then REF_RATE_DEN else REF_RATE_NUM) v s
    if n != 0 && s.b REF_CTRL_en && s.ref.next.isNone then
      startSchedule (if s.f REF_CTRL_src = 1 then sourceState (dropLock s) else s)
    else rechoose s
  else flag REF_STATUS_bad_rate s

/-- A write of REF_RFN sets the RFN of the next tick; under PTP it is ignored (R511). -/
def refRfnWrite (v : Word) (s : State) : State :=
  if s.f REF_CTRL_src = 2 then s else { s with ref := { s.ref with setRfn := some v.toNat } }

/-- REF_ENABLE: a write of REF_CTRL with en = 1. -/
def execRefEnable (r : Requester) (v : Word) (s : State) : Res :=
  .next (writeBy r REF_CTRL (refCtrlWrite (setBits v 0 0 1)) s)

/-- REF_DISABLE: a write of REF_CTRL with en = 0. -/
def execRefDisable (r : Requester) (v : Word) (s : State) : Res :=
  .next (writeBy r REF_CTRL (refCtrlWrite (setBits v 0 0 0)) s)

/-- REF_RATE_WRITE. -/
def execRefRateWrite (r : Requester) (den : Bool) (v : Word) (s : State) : Res :=
  .next (writeBy r (if den then REF_RATE_DEN else REF_RATE_NUM) (refRateWrite den v) s)

/-- REF_RFN_WRITE. -/
def execRefRfnWrite (r : Requester) (v : Word) (s : State) : Res :=
  .next (writeBy r REF_RFN (refRfnWrite v) s)

/-! ### Ticks and triggers -/

/-- The pulse a tick at `t` gives SPn_TRIG (R38): none at a width of zero, while the trigger is off, or while
strip-scan drives the pin (R382). -/
def State.pulseOf (s : State) (n t rfn : Nat) : Option Pulse :=
  let w := s.f (REF_TRIG_CFG_width n)
  if s.b (REF_TRIG_CFG_en n) && w != 0 && !s.b (SP_SS_CTRL_en n) && n < Config.ports s.variant then
    let a := t + s.f (REF_TRIG_phase n) * 1000
    some ⟨a, a + w * 16000, rfn, t⟩
  else none

/-- A pulse among others in the order in which `key` falls. -/
def pulseAdd (key : Pulse → Nat) (p : Pulse) : List Pulse → List Pulse
  | [] => [p]
  | q :: t => if key p < key q then p :: q :: t else q :: pulseAdd key p t

/-- Queues a tick's trigger pulses, each at its own start (R38). -/
def triggers (t rfn : Nat) (s : State) : State :=
  (List.range 4).foldl (fun s n => match s.pulseOf n t rfn with
    | none => s
    | some p => { s with ref := { s.ref with pulses := put s.ref.pulses n (pulseAdd (·.start) p (lookD s.ref.pulses [] n)) } }) s

/-- Under PTP the tick is placed on the clock as it then runs (R32, R34): a set, step or increment that waits for a BCLK
edge before the tick comes first, and the tick is placed anew. -/
def ptpReady (s : State) : State :=
  let s := schedulePtp s
  let edge := (s.now / Config.bclk + 1) * Config.bclk
  match s.ref.next with
  | none => s
  | some i =>
    if (s.tsu.newIncr.isSome || s.tsu.set.isSome || s.tsu.step.isSome) && decide (edge ≤ pclkAt i) then
      schedulePtp (advanceTo edge s)
    else s

/-- An instant lies in a window of the phase detector (R378). -/
def PhWin.holds (w : PhWin) (e : Nat) : Bool :=
  decide (w.target - (w.tick.per * 500 : Nat) ≤ (e : Int)) && decide ((e : Int) < w.target + (w.tick.per * 500 : Nat))

/-- A tick opens a window on every channel whose phase detector is enabled (R378), with the index edges that already fell
in it. -/
def phaseOpen (k : Tick) (s : State) : State :=
  if s.domOn dPFI then
    (List.range 4).foldl (fun s c =>
      if s.b (PFI_CTRL_en c) && s.b (PFI_PH_CFG_en c) then
        let x := lookD s.pfis {} c
        let w : PhWin := { tick := k, target := k.at_ + s32 (s.rd (PFI_PH_OFS c)) * 1000 }
        let here := x.edges.filter w.holds
        bumpBy (PFI_PH_EXTRA c) (here.length - 1)
          { s with pfis := put s.pfis c { x with wins := x.wins ++ [{ w with first := here.head?, n := here.length }] } }
      else s) s
  else s

/-- A tick falls: its RFN (R32, R33), its events (R512), its triggers, and the next tick's place. The answer is the
RFN, if a tick was produced. -/
def refTick (s : State) : Option Nat × State :=
  if !s.b REF_CTRL_en then (none, s)
  else
    let ptp := s.f REF_CTRL_src = 2
    let s := if ptp && s.ref.next.isSome then ptpReady s else s
    match s.ref.next with
    | none => (none, s)
    | some ideal =>
      let s := advanceTo (pclkAt ideal) s
      match s.nominal with
      | none => (none, { s with ref := { s.ref with next := none, nextK := none } })
      | some _ =>
        let k := s.ref.nextK.getD 0
        let rfn := if ptp then k % 2 ^ 32 else match s.ref.setRfn with
          | some x => x
          | none => (s.f REF_RFN_rfn + 1) % 2 ^ 32
        let s := setF REF_RFN_rfn rfn s
        let step := match s.ref.lastK with
          | some l => ptp && k != l + 1
          | none => false
        let s := match s.ref.lastK with
          | some l => if step then raise 0x05 4 (((k : Int) - l - 1) % 65536).toNat s else s
          | none => s
        let moved := step || s.ref.moved
        let s := if s.ref.moved then raise 0x05 3 rfn s else s
        let s := raise 0x05 5 rfn s
        let per := match s.ref.lastIdeal with
          | some a => if s.f REF_CTRL_src = 1 && s.f REF_STATUS_state = refLocked then ((ideal - a) :: s.ref.lockedPer).take 8 else s.ref.lockedPer
          | none => s.ref.lockedPer
        let tick : Tick := ⟨s.now, rfn, if ptp then ptpStamp s k else s.stamp, s.f REF_PERIOD_period, s.f REF_STATUS_state, moved,
          (s.f REF_RATE_NUM_num, s.f REF_RATE_DEN_den)⟩
        let s := { s with ref := { s.ref with
          ticks := tick :: s.ref.ticks
          lastAt := some s.now, lastIdeal := some ideal, lastK := if ptp then some k else none
          setRfn := none, moved := false, lockedPer := per, nextK := none } }
        let s := phaseOpen tick (triggers s.now rfn s)
        let s := if ptp then schedulePtp { s with ref := { s.ref with choose := some s.reading } } else scheduleNext ideal s
        (some rfn, s)
where
  /-- The ideal instant of tick `k` in whole ns, rounded up (R32, R358). -/
  ptpStamp (s : State) (k : Nat) : Stamp :=
    let ns := (s.idealK k / 2 ^ 32).ceil.toNat
    ⟨ns / 1000000000, ns % 1000000000⟩

/-- TRIG_PULSE_START: the pulse due first on SPn_TRIG starts, if the clocks run (R18). -/
def execTrigPulseStart (n : Nat) (s : State) : Res :=
  guardOk (decide (n < 4)) <|
    if !s.unitOn dCTRL then s else
    match lookD s.ref.pulses [] n with
    | [] => s
    | p :: t =>
      let s := advanceTo p.start s
      { s with ref := { s.ref with
          pulses := put s.ref.pulses n t
          active := put s.ref.active n (pulseAdd (·.stop) p (lookD s.ref.active [] n))
          lastPulse := if s.b (SP_SS_CTRL_en n) || decide (p.tick < (lookD s.ref.lastPulse (0, 0) n).1) then s.ref.lastPulse
            else put s.ref.lastPulse n (p.tick, p.rfn)
          trigHigh := if s.ref.trigHigh.contains n then s.ref.trigHigh else n :: s.ref.trigHigh } }

/-- TRIG_PULSE_END: the pulse on SPn_TRIG that is due to end first ends, if the clocks run (R18). -/
def execTrigPulseEnd (n : Nat) (s : State) : Res :=
  guardOk (decide (n < 4)) <|
    if !s.unitOn dCTRL then s else
    match lookD s.ref.active [] n with
    | [] => s
    | p :: t =>
      let s := advanceTo p.stop s
      { s with ref := { s.ref with
          active := put s.ref.active n t
          trigHigh := if t.isEmpty then s.ref.trigHigh.filter (· != n) else s.ref.trigHigh } }

/-- The level SPn_TRIG drives for a pulse on or off, by its polarity (R38; R382 in strip-scan). -/
def State.trigPin (s : State) (n : Nat) : Bool :=
  s.ref.trigHigh.contains n != (if s.b (SP_SS_CTRL_en n) then s.b (SP_SS_STROBE_pol n) else s.b (REF_TRIG_CFG_pol n))

/-- The RFN a frame whose SOF is now takes (R40). -/
def State.rfnForSof (s : State) (n : Nat) : Nat :=
  let lastTick := match s.ref.ticks with
    | t :: _ => t.rfn
    | [] => s.f REF_RFN_rfn
  if s.b (REF_TRIG_CFG_en n) && s.f (REF_TRIG_CFG_width n) != 0 then
    match look s.ref.lastPulse n with
    | some r => r.2
    | none => lastTick
  else lastTick

/-- The time-unit time of the latest tick of an RFN (R358), if one ever fell. -/
def State.tickStamp (s : State) (rfn : Nat) : Option Stamp :=
  ((s.ref.ticks ++ s.ref.old).find? (fun t => t.rfn == rfn)).map (·.t)

/-! ### Genlock (R35, R514) -/

/-- The tick nearest to an instant, the earlier of two at the same distance, among those that fell, the next one, and
ticks one nominal period apart beyond them (R35). -/
def State.nearTick (s : State) (x p : Rat) : Option Rat :=
  let fell : List Rat := s.ref.ticks.map (fun t => (t.at_ : Rat))
  let next : List Rat := match s.ref.next with
    | some i => [(pclkAt i : Rat)]
    | none => []
  let got := fell ++ next
  let far (base : Rat) : List Rat :=
    let j := ((x - base) / p).floor
    [(pclkAt (base + j * p) : Rat), (pclkAt (base + (j + 1) * p) : Rat)]
  let got := match s.ref.next, fell.getLast? with
    | some i, some o => if (pclkAt i : Rat) < x then got ++ far i else if x < o then got ++ far o else got
    | some i, none => got ++ far i
    | none, some o => if x < o then got ++ far o else got
    | none, none => got
  got.foldl (fun best t => match best with
    | none => some t
    | some b =>
      let db := if b < x then x - b else b - x
      let dt := if t < x then x - t else t - x
      if dt < db || (dt == db && t < b) then some t else some b) none

/-- The period measurement of a reference edge (R35): one beyond 0.1 % of the rate holds REF in ACQUIRING. -/
def measure (e : Nat) (p : Rat) (s : State) : State :=
  match s.ref.edge with
  | none => s
  | some l =>
    let d : Rat := (e : Rat) - l
    if p / 2 ≤ d && d ≤ p * 3 / 2 then
      let off := if d < p then p - d else d - p
      if p / 1000 < off then
        if s.ref.held then s
        else raise 0x05 2 0 (acquire { s with ref := { s.ref with held := true, ivs := [] } })
      else { s with ref := { s.ref with held := false, ivs := (d :: s.ref.ivs).take 8 } }
    else s

/-- The lock state after an edge of phase error `err` picoseconds (R35). -/
def judgeEdge (err : Rat) (s : State) : State :=
  let a := if err < 0 then -err else err
  let s := if s.f REF_STATUS_state = refHoldover then acquire s else s
  let st := s.f REF_STATUS_state
  if st = refAcquiring && !s.ref.held then
    let g := if a ≤ 100000 then s.ref.good + 1 else 0
    let s := { s with ref := { s.ref with good := g } }
    if 8 ≤ g then raise 0x05 1 0 (setF REF_STATUS_state refLocked { s with ref := { s.ref with bad := 0, jump := false } }) else s
  else if st = refLocked then
    let b := if 1000000 < a then s.ref.bad + 1 else 0
    let s := { s with ref := { s.ref with bad := b } }
    if 4 ≤ b then raise 0x05 2 0 (setF REF_STATUS_state refHoldover { s with ref := { s.ref with watch := none } }) else s
  else s

/-- A reference edge at instant `e` (R35). REF_PHERR is the error in whole ns toward zero: the spec states no rounding
(DESIGN CHOICE 15). -/
def refEdge (e : Nat) (s : State) : State :=
  match s.nominal with
  | none => s
  | some p =>
    let s := measure e p s
    let s := { s with ref := { s.ref with edge := some e } }
    let x := s.target e
    let s := match s.nearTick x p with
      | none => s
      | some t =>
        let err := t - x
        let ns : Int := if err < 0 then -((-err / 1000).floor) else (err / 1000).floor
        judgeEdge err (wr REF_PHERR (w32 ns) s)
    let s := { s with ref := { s.ref with
      watch := if s.f REF_STATUS_state = refLocked then some (((e : Rat) + 2 * p).ceil.toNat) else none } }
    match s.ref.lastIdeal with
    | some l => if s.ref.jump && s.b REF_CTRL_relock && s.ref.next.isSome then scheduleNext l s else s
    | none => s

/-- REF_V_EDGE: under GENLOCK an edge of REF_V with the level of REF_F; a reference edge if F is high, or low now and
at the 3 edges before (R514). -/
def execRefVEdge (at_ : Nat) (f : Bool) (s : State) : Res :=
  .next <|
    let s := advanceTo at_ s
    if s.unitOn dCTRL && s.b REF_CTRL_en && s.f REF_CTRL_src = 1 then
      let isRef := f || !s.ref.fHist.any (fun x => x)
      let s := { s with ref := { s.ref with fHist := (f :: s.ref.fHist).take 3 } }
      if isRef then refEdge s.now s else s
    else s

/-- REF_EDGE_TIMEOUT: no reference edge within 2 expected periods while LOCKED (R35), by a clock that runs (R18). -/
def execRefEdgeTimeout (s : State) : Res :=
  .next (match s.unitOn dCTRL, s.ref.watch with
    | false, _ | _, none => s
    | true, some w =>
      let s := advanceTo w s
      raise 0x05 2 0 (setF REF_STATUS_state refHoldover { s with ref := { s.ref with watch := none } }))

/-! ### Time unit -/

/-- A write of TSU_INCR_NS is staged (R360). -/
def tsuIncrNsWrite (v : Word) (s : State) : State := { s with tsu := { s.tsu with staged := some (bitsOf v.toNat 3 0) } }

/-- A write of TSU_INCR_FRAC commits the staged ns and the fraction, or is refused below 3.0 or above 5.0 ns (R360). -/
def tsuIncrCommit (v : Word) (s : State) : State :=
  let n := s.tsu.staged.getD (s.f TSU_INCR_NS_incr_ns)
  if n < 3 || 5 < n || (n == 5 && v != 0) then flag TSU_STATUS_bad_write s
  else { s with tsu := { s.tsu with newIncr := some (n, v.toNat) } }

/-- TSU_SET's nanoseconds are in range (R361). -/
def State.setOk (s : State) : Bool := s.f TSU_SET_NS_ns ≤ 999999999

/-- TSU_STEP's nanoseconds are in range (R361). -/
def State.stepOk (s : State) : Bool :=
  let ns := s32 (s.rd TSU_STEP_NS)
  decide (ns ≤ 999999999) && decide (-999999999 ≤ ns)

/-- Captures a set (R361). -/
def tsuSet (s : State) : State :=
  { s with tsu := { s.tsu with set := some (s.pair TSU_SET_S_LO TSU_SET_S_HI, s.f TSU_SET_NS_ns) } }

/-- Captures a step (R361). -/
def tsuStep (s : State) : State :=
  { s with tsu := { s.tsu with step := some (s32 (s.rd TSU_STEP_S), s32 (s.rd TSU_STEP_NS)) } }

/-- A write of TSU_CMD: one refused command refuses the write (R361, R510). -/
def tsuCmdWrite (v : Word) (s : State) : State :=
  let set := bitOf v.toNat 0
  let step := bitOf v.toNat 1
  if (set && !s.setOk) || (step && !s.stepOk) then flag TSU_STATUS_bad_write s
  else
    let s := if set then tsuSet s else s
    if step then tsuStep s else s

/-- TSU_INCR_COMMIT. -/
def execTsuIncrCommit (r : Requester) (v : Word) (s : State) : Res :=
  .next (writeBy r TSU_INCR_FRAC (tsuIncrCommit v) s)

/-- TSU_SET: a write of TSU_CMD with set = 1. -/
def execTsuSet (r : Requester) (v : Word) (s : State) : Res :=
  .next (writeBy r TSU_CMD (tsuCmdWrite (setBits v 0 0 1)) s)

/-- TSU_STEP: a write of TSU_CMD with step = 1. -/
def execTsuStep (r : Requester) (v : Word) (s : State) : Res :=
  .next (writeBy r TSU_CMD (tsuCmdWrite (setBits v 1 1 1)) s)

/-- BCLK ticks until the nanoseconds carry into seconds, a pending set or step left aside. -/
def State.ticksToSecond (s : State) : Nat := floor1 (ceilDiv (secUnits - s.units) (floor1 s.incr))

/-- TSU_SECOND: the clock runs to the BCLK tick at which the nanoseconds carry (R359, R362). -/
def execTsuSecond (s : State) : Res :=
  .next <|
    let s := if s.tsu.newIncr.isSome || s.tsu.set.isSome || s.tsu.step.isSome then advanceTo ((s.now / Config.bclk + 1) * Config.bclk) s else s
    advanceTo ((s.now / Config.bclk + s.ticksToSecond) * Config.bclk) s

/-- TIME_COUNTER_PARITY: a parity error at a BCLK tick clears valid and is reported (R368); an injected one at the same tick
counts once with it (R449). -/
def execTimeCounterParity (s : State) : Res :=
  .next <| if s.unitOn dCTRL then
    let before := (lookD s.err.rates {} 0x5200).cur
    let s := setF TSU_STATUS_valid 0 (advanceTo ((s.now / Config.bclk + 1) * Config.bclk) s)
    if before < (lookD s.err.rates {} 0x5200).cur then
      { s with err := { s.err with injRates := s.err.injRates.filter (· != 0x5200) } }
    else detect 0x5200 false 0 0 s
  else s

end Sys2Proof.Machine
end

