-- ==== Sys2Proof/Machine/Aud.lean ====
section
/-! DEFINITION. The audio ports (R343 to R353). -/

namespace Sys2Proof.Machine

/-- Port `n`. -/
def State.aud (s : State) (n : Nat) : AudSt := lookD s.auds {} n

/-- Changes port `n`. -/
def modAud (n : Nat) (f : AudSt → AudSt) (s : State) : State := { s with auds := put s.auds n (f (s.aud n)) }

/-! ### Formats (R343 to R346) -/

/-- Slots of a TDM frame. -/
def State.audSlots (s : State) (n : Nat) : Nat := s.f (AUD_FMT_slots n) + 1

/-- Bits of a slot. -/
def slotBits : Nat → Nat
  | 0 => 16 | 1 => 24 | _ => 32

/-- The rate in Hz (R344). -/
def audRate : Nat → Nat
  | 0 => 32000 | 1 => 44100 | 2 => 48000 | 3 => 88200 | 4 => 96000 | 5 => 176400 | _ => 192000

/-- The configuration is in error (R345). -/
def State.audCfgErr (s : State) (n : Nat) : Bool :=
  let fmt := s.f (AUD_FMT_fmt n)
  let rate := s.f (AUD_FMT_rate n)
  fmt == 3 || (fmt != 2 && s.audSlots n != 2) ||
    decide (98304000 < audRate rate * s.audSlots n * slotBits (s.f (AUD_FMT_slot_w n))) ||
    s.f (AUD_FMT_pack n) == 3 ||
    (s.b (AUD_CTRL_master n) && decide (rate % 2 ≠ s.f AUD_MCLK_CFG_family))

/-- What a slot carries of a sample: a 16-bit slot its top 16 bits (R343). -/
def State.audCarry (s : State) (n v : Nat) : Nat := if s.f (AUD_FMT_slot_w n) = 0 then v / 256 * 256 else v

/-- The enabled slots that the format has, in ascending order. -/
def State.audOn (s : State) (n : Nat) : List Nat :=
  (List.range (s.audSlots n)).filter (fun k => bitOf (s.aud n).mask k)

/-- Bytes of a stored sample (R346). -/
def packBytes (pack : Nat) : Nat := if pack = 0 then 3 else 4

/-- Bytes of a sample frame. -/
def State.audNeed (s : State) (n : Nat) : Nat := (s.audOn n).length * packBytes (s.f (AUD_FMT_pack n))

/-- A sample as stored (R346). -/
def sampleStore (pack v : Nat) : List Byte := match pack with
  | 0 => leBytes 3 v
  | 1 => leBytes 4 (if v < 2 ^ 23 then v else v + 255 * 2 ^ 24)
  | _ => leBytes 4 (v * 256)

/-- A stored sample. -/
def sampleLoad (pack w : Nat) : Nat := match pack with
  | 2 => w / 256 % 2 ^ 24
  | _ => w % 2 ^ 24

/-- The sample frame of a TDM frame as stored. -/
def State.audStore (s : State) (n : Nat) (slots : List Nat) : List Byte :=
  (s.audOn n).flatMap (fun k => sampleStore (s.f (AUD_FMT_pack n)) (slots.getD k 0))

/-- The TDM frame of a stored sample frame: a slot that is not enabled is 0. -/
def State.audLoad (s : State) (n : Nat) (bs : List Byte) : List Nat :=
  let on := s.audOn n
  let p := s.f (AUD_FMT_pack n)
  (List.range (s.audSlots n)).map (fun k =>
    if on.contains k then sampleLoad p (leAt bs ((on.takeWhile (· != k)).length * packBytes p) (packBytes p)) else 0)

/-! ### The descriptor ring (R347 to R349, R352) -/

/-- The address of the descriptor at the head. -/
def State.audDescAt (s : State) (n : Nat) : Nat :=
  s.pair (AUD_RING_LO n) (AUD_RING_HI n) + s.f (AUD_HEAD_head n) % floor1 (s.f (AUD_RING_CFG_entries n)) * 16

/-- Writes back the descriptor at the head and goes on: bytes moved, and the flag bits from bit 24 (R347). -/
def audWriteBack (n moved flags : Nat) (s : State) : State :=
  let (ok, s) := dmaWrite 6 (s.audDescAt n + 12) (leBytes 4 (moved % 2 ^ 24 + flags * 2 ^ 24)) s
  let s := if ok then s else (examDetect (0x4C01 + 256 * n) true 0 0 s).2
  setF (AUD_HEAD_head n) (s.f (AUD_HEAD_head n) + 1) s

/-- Completes a descriptor (R347); `flags` adds mask_end (4) or error (16). -/
def audDone (n : Nat) (d : AudDesc) (flags : Nat) (s : State) : State :=
  let s := audWriteBack n d.moved (1 + flags + if d.recd then 8 else 0) (modAud n (fun x => { x with desc := none }) s)
  raise (0x4C + n) 2 (s.f (AUD_HEAD_head n)) s

/-- A descriptor or buffer access: its error response is a detection (R353). -/
def audAccess (n a : Nat) (ok : Bool) (s : State) : Bool × State := examDetect (0x4C01 + 256 * n) (!ok) 0 a s

/-- The bytes of a mask-change record (R352). -/
def maskRecord (r : Nat × Nat × Nat) : List Byte :=
  leBytes 4 0x4B53414D ++ leBytes 2 r.2.1 ++ leBytes 2 r.1 ++ leBytes 8 r.2.2

/-- A fetched descriptor is taken up: a zero count is skipped (R348), one too short for a held record is passed in
error, and a held record goes to the start of its buffer (R352). -/
def audTake (n : Nat) (d : AudDesc) (s : State) : State :=
  if d.bytes = 0 then
    let s := bump (AUD_ZERO n) (audWriteBack n 0 3 s)
    raise (0x4C + n) 5 (s.f (AUD_HEAD_head n)) s
  else
    match (s.aud n).held with
    | none => modAud n (fun x => { x with desc := some d }) s
    | some r =>
      if d.bytes < 16 then audDone n d 16 s
      else
        let (ok, s) := dmaWrite 6 d.addr (maskRecord r) s
        let (bad, s) := audAccess n d.addr ok s
        if bad then audDone n d 16 s
        else modAud n (fun x => { x with desc := some { d with moved := 16, recd := true }, held := none }) s

/-- Fetches the next descriptor; false: there is none (R349). -/
def audNext (n : Nat) (s : State) : Bool × State :=
  if s.f (AUD_RING_CFG_entries n) = 0 || !ringHas (s.f (AUD_HEAD_head n)) (s.f (AUD_TAIL_tail n)) then (false, s)
  else
    let a := s.audDescAt n
    let (got, s) := dmaRead 6 a 16 s
    let (bad, s) := audAccess n a got.isSome s
    if bad then (true, audDone n ⟨0, 0, 0, false⟩ 16 s)
    else
      let b := got.getD []
      (true, audTake n ⟨leAt b 0 8 % 2 ^ 40, leAt b 8 4 % 2 ^ 24, 0, false⟩ s)

/-- Brings up a descriptor with room for `need` bytes, completing those without (R347); false: there is none. -/
def audReady : Nat → Nat → Nat → State → Bool × State
  | 0, _, _, s => (false, s)
  | k + 1, n, need, s =>
    match (s.aud n).desc with
    | some d => if d.moved + need ≤ d.bytes then (true, s) else audReady k n need (audDone n d 0 s)
    | none => match audNext n s with
      | (false, s) => (false, s)
      | (true, s) => audReady k n need s

/-- One turn of the ring, fetch and completion of each descriptor. -/
def State.audFuel (s : State) (n : Nat) : Nat := 2 * s.f (AUD_RING_CFG_entries n) + 2

/-- After a move: the descriptor's count, and its completion once less than a sample frame remains. -/
def audMoved (n need : Nat) (d : AudDesc) (s : State) : State :=
  let d := { d with moved := d.moved + need }
  if d.moved + need ≤ d.bytes then modAud n (fun x => { x with desc := some d }) s else audDone n d 0 s

/-- One move at the descriptor in hand; none: its access failed and the descriptor is completed in error. -/
def audMove (n : Nat) (data : Option (List Byte)) (s : State) : Option (List Byte) × State :=
  let need := s.audNeed n
  match (s.aud n).desc with
  | none => (none, s)
  | some d =>
    let a := d.addr + d.moved
    let (got, s) := match data with
      | some bs => match dmaWrite 6 a bs s with
        | (true, s) => (some bs, s)
        | (false, s) => (none, s)
      | none => dmaRead 6 a need s
    let (bad, s) := audAccess n a got.isSome s
    if bad then (none, audDone n d 16 s) else (got, audMoved n need d s)

/-- Moves a sample frame, capture with its data and playback without, over as many descriptors as fail. -/
def audTransfer : Nat → Nat → Option (List Byte) → State → Option (List Byte) × State
  | 0, _, _, s => (none, s)
  | k + 1, n, data, s =>
    match audReady (s.audFuel n) n (s.audNeed n) s with
    | (false, s) => (none, s)
    | (true, s) => match audMove n data s with
      | (some bs, s) => (some bs, s)
      | (none, s) => audTransfer k n data s

/-- A sample frame's move through the ring; one that finds no descriptor is starved (R349). -/
def audStep (n : Nat) (data : Option (List Byte)) (s : State) : Option (List Byte) × State :=
  let (inj, s) := examine (0x4C02 + 256 * n) false s
  let (got, s) := if inj.err then (none, s) else audTransfer (s.audFuel n) n data s
  match got with
  | some bs => (some bs, modAud n (fun x => { x with starving := false }) s)
  | none =>
    let s := bump (AUD_STARVED n) (detect (0x4C02 + 256 * n) inj.inj 0 0 s)
    (none, if (s.aud n).starving then s else raise (0x4C + n) 4 0 (modAud n (fun x => { x with starving := true }) s))

/-! ### Counters and the slip buffer (R350) -/

/-- Counts a frame in or out of a run. -/
def audIn (n : Nat) (s : State) : State := addPair (AUD_IN_LO n) (AUD_IN_HI n) 1 s
def audOut (n : Nat) (s : State) : State := addPair (AUD_OUT_LO n) (AUD_OUT_HI n) 1 s

/-- A frame enters the slip buffer, or is dropped when the fill would exceed 14 (R350). -/
def slipIn (n : Nat) (f : Bool × List Nat) (s : State) : State :=
  let (drop, s) := examDetect (0x4C03 + 256 * n) (decide (14 ≤ (s.aud n).slip.length)) 0 0 s
  if drop then
    let s := if f.1 then addPair (AUD_DROP_LO n) (AUD_DROP_HI n) 1 (audIn n s) else s
    raise (0x4C + n) 3 0 s
  else modAud n (fun x => { x with slip := x.slip ++ [f] }) s

/-- The frame that leaves the slip buffer, and whether it is a repeat: the last one again when the fill would fall
below 2 (R350); none before the first. A parity error, real (`parity`) or
injected, makes it zeros (R353). -/
def slipOut (n : Nat) (parity : Bool) (s : State) : Option (Bool × List Nat × Bool) × State :=
  let x := s.aud n
  let low := decide (x.slip.length < 3)
  match x.last, x.slip with
  | none, f :: t => if low then (none, s) else leave f t s
  | none, [] => (none, s)
  | some l, fs =>
    let (rep, s) := examDetect (0x4C03 + 256 * n) low 1 0 s
    match rep, fs with
    | false, f :: t => leave f t s
    | _, _ => (some (l.1, l.2, true), s)
where
  /-- The oldest frame leaves. -/
  leave (f : Bool × List Nat) (t : List (Bool × List Nat)) (s : State) : Option (Bool × List Nat × Bool) × State :=
    let (bad, s) := examDetect (0x4C00 + 256 * n) parity 0 0 s
    let f := if bad then (f.1, f.2.map (fun _ => 0)) else f
    (some (f.1, f.2, false), modAud n (fun x => { x with slip := t, last := some f }) s)

/-- A repeat that went out is counted and reported (R350). -/
def slipRepeat (n : Nat) (s : State) : State :=
  raise (0x4C + n) 3 1 (addPair (AUD_REP_LO n) (AUD_REP_HI n) 1 s)

/-! ### Masks (R352) -/

/-- The mask that takes effect at a TDM frame boundary at instant `b`: the last one written before the boundary's own bit
clock cycle (R352). -/
def AudSt.maskAt (x : AudSt) (b : Nat) : Option Nat := ((x.newMask.filter (fun e => e.1 < b)).getLast?).map (·.2)

/-- A staged mask takes effect at a TDM frame boundary at instant `b`: a change during lead frames needs no step (R352). -/
def audMaskApply (n b : Nat) (s : State) : State :=
  let x := s.aud n
  match x.maskAt b with
  | none => s
  | some m =>
    let s := modAud n (fun y => { y with mask := m, newMask := y.newMask.filter (fun e => b ≤ e.1) }) s
    match x.phase with
    | .idle | .lead _ | .ending true => s
    | .run | .ending false | .trail _ =>
      let s := match x.desc with
        | some d => audDone n d 4 s
        | none => s
      let s := if s.b (AUD_CTRL_dir n) then
        let old := match x.held with
          | some h => h.1
          | none => x.mask
        (audReady (s.audFuel n) n 0 (modAud n (fun y => { y with held := some (old, m, y.frames) }) s)).2
      else s
      raise (0x4C + n) 6 m s

/-- MASK_WRITE: staged for the next TDM frame boundary. -/
def maskWrite (n : Nat) (v : Word) (s : State) : State :=
  modAud n (fun x => { x with newMask := x.newMask ++ [(s.now, bitsOf v.toNat 15 0)] }) (plainWrite (AUD_MASK n) v s)

/-- MASK_WRITE (R352). -/
def execMaskWrite (r : Requester) (n : Nat) (v : Word) (s : State) : Res :=
  guardOk (decide (n < 4)) (writeBy r (AUD_MASK n) (maskWrite n v) s)

/-- MASK_APPLY (R352): a TDM frame boundary of a running port. -/
def execMaskApply (n : Nat) (s : State) : Res :=
  guardOk (decide (n < 4)) <| if s.domOn dAUD && (s.aud n).phase != .idle then audMaskApply n s.now s else s

/-! ### Start and stop (R345, R351) -/

/-- The port is enabled and runs. -/
def State.audActive (s : State) (n : Nat) : Bool := s.b (AUD_CTRL_en n) && s.b (AUD_CTRL_run n)

/-- Shows the phase in AUDn_STATUS. -/
def audShow (n : Nat) (s : State) : State :=
  let (r, l) : Nat × Nat := match (s.aud n).phase with
    | .idle => (0, 0)
    | .lead _ | .ending true => (1, 1)
    | .run | .ending false => (1, 0)
    | .trail k => (1, if k = 0 then 0 else 1)
  setF (AUD_STATUS_leading n) l (setF (AUD_STATUS_running n) r s)

/-- The stop, once the TDM frame under way is complete: a capture port completes its descriptor (R351). -/
def audStop (n : Nat) (s : State) : State :=
  match (s.aud n).desc with
  | some d => if s.b (AUD_CTRL_dir n) then audDone n d 0 s else s
  | none => s

/-- A good configuration starts the lead frames (R351). -/
def audStart (n : Nat) (s : State) : State :=
  let k := s.f (AUD_LEAD_frames n)
  let s := match (s.aud n).phase with
    | .ending _ => audStop n s
    | _ => s
  audShow n <| modAud n (fun x => { x with
    phase := if k = 0 then .run else .lead k
    mark := (s.now, 0), periods := 0, frames := 0, started := false, mask := s.f (AUD_MASK_mask n), newMask := []
    starving := false, slip := [], last := none, out := [], fs := [], sd := [] }) s

/-- run falls: the TDM frame under way is completed first (R351). -/
def audFall (n : Nat) (s : State) : State :=
  let go (p : AudPhase) : State := audShow n (modAud n (fun x => { x with phase := p }) s)
  match (s.aud n).phase with
  | .lead _ => go (.ending true)
  | .run => go (.ending false)
  | .idle | .ending _ | .trail _ => s

/-- The TDM frame that was under way when run fell is complete: the trailing frames follow (R351). -/
def audTrail (n : Nat) (s : State) : State :=
  let s := audStop n s
  audShow n (modAud n (fun x => { x with phase := .trail (s.f (AUD_LEAD_frames n)) }) s)

/-- A write of AUDn_CTRL: the configuration is checked at the rising edge of run (R345), and a good one starts the port,
which runs while en and run are set (R351). -/
def audCtrlWrite (n : Nat) (v : Word) (s : State) : State :=
  let was := s.audActive n
  let rose := !s.b (AUD_CTRL_run n) && bitOf v.toNat 1
  let t := plainWrite (AUD_CTRL n) v s
  if rose && t.audCfgErr n then raise (0x4C + n) 7 0 (flag (AUD_STATUS_cfg_err n) t)
  else if t.audActive n then (if was || t.audCfgErr n then t else audStart n t)
  else if was then audFall n t else t

/-- AUDIO_RUN_START: a write of AUDn_CTRL with run = 1. -/
def execAudioRunStart (r : Requester) (n : Nat) (v : Word) (s : State) : Res :=
  guardOk (decide (n < 4)) (writeBy r (AUD_CTRL n) (audCtrlWrite n (setBits v 1 1 1)) s)

/-- AUDIO_RUN_STOP: a write of AUDn_CTRL with run = 0. -/
def execAudioRunStop (r : Requester) (n : Nat) (v : Word) (s : State) : Res :=
  guardOk (decide (n < 4)) (writeBy r (AUD_CTRL n) (audCtrlWrite n (setBits v 1 1 0)) s)

/-- Sample frames at a rate from instant `since` to a tick, the tick before which fell at `a`: as many as REF's rate gives a
whole period, in proportion; over a period that a jump or a step moved, as the clock's nominal rate gives (R345). -/
def refCount (rate a : Nat) (k : Tick) (since : Nat) : Rat :=
  if k.moved || k.at_ ≤ a || k.rate.1 = 0 then ((k.at_ - since) * rate : Nat) / 1000000000000
  else (rate * k.rate.2 : Nat) / (k.rate.1 : Nat) * ((k.at_ - since : Nat) / (k.at_ - a : Nat))

/-- The ticks after instant `t`, each with the instant of the tick before it, the oldest first. -/
def State.ticksSince (s : State) (t : Nat) : List (Nat × Tick) :=
  let ks := (s.ref.ticks ++ s.ref.old).reverse
  let prev := ((ks.filter (fun k => k.at_ ≤ t)).getLast?).map (·.at_)
  (ks.filter (fun k => t < k.at_)).foldl (fun (x : List (Nat × Tick) × Nat) k => (x.1 ++ [(x.2, k)], k.at_)) ([], prev.getD t) |>.1

/-- The latest tick's instant with the sample periods before it, as the video PLL has followed REF since the mark (R344,
R345); the mark where no tick has fallen since. -/
def State.audMark (s : State) (n : Nat) : Nat × Rat :=
  let rate := audRate (s.f (AUD_FMT_rate n))
  (s.ticksSince (s.aud n).mark.1).foldl (fun m e => (e.2.at_, m.2 + refCount rate e.1 e.2 m.1)) (s.aud n).mark

/-- Picoseconds of a sample period now: REF's rate gives so many to the period REF now runs, else the nominal rate. -/
def State.audPeriod (s : State) (n : Nat) : Rat :=
  let rate := audRate (s.f (AUD_FMT_rate n))
  match s.ref.next, s.ref.lastIdeal, s.nominal with
  | some b, some a, some p => if s.ref.moved || b ≤ a || p ≤ 0 then 1000000000000 / (rate : Rat) else (b - a) / p * 1000000000000 / rate
  | _, _, _ => 1000000000000 / (rate : Rat)

/-- The end of sample period `k` of a run: the audio clocks follow REF (R344, R345). -/
def State.audInstant (s : State) (n k : Nat) : Nat :=
  let m := s.audMark n
  m.1 + ((k - m.2) * s.audPeriod n).floor.toNat

/-- The clock moves on by `k` sample periods. -/
def audPeriods (n k : Nat) (s : State) : State :=
  let m := s.audMark n
  let s := modAud n (fun x => { x with mark := m, periods := x.periods + k }) s
  advanceTo (s.audInstant n (s.aud n).periods) s

/-- AUDIO_STOPPED: the trailing frames are over (R351). -/
def execAudioStopped (n : Nat) (s : State) : Res :=
  guardOk (decide (n < 4)) <|
    match (s.aud n).phase with
    | .trail k =>
      if s.domOn dAUD then
        let s := if s.b (AUD_CTRL_master n) then audPeriods n k s else s
        raise (0x4C + n) 1 0 (audShow n (modAud n (fun x => { x with phase := .idle, frames := x.frames + k, out := [], fs := [], sd := [] }) s))
      else s
    | _ => s

/-! ### Sample frames (R346, R347, R349 to R351) -/

/-- A TDM frame of zeros. -/
def State.audZeros (s : State) (n : Nat) : List Nat := (List.range (s.audSlots n)).map (fun _ => 0)

/-- The bits of a slot of width code `w` in the order of the line, the sample's most significant first: the top 16 bits,
all 24, or all with 8 zeros after them (R343). -/
def slotLine (w v : Nat) : List Bool :=
  ((List.range 24).map (fun i => bitOf v (23 - i))).take (slotBits w) ++ List.replicate (slotBits w - 24) false

/-- The frame sync over a TDM frame of `k` bit clocks (R343). -/
def fsLine (fmt : Nat) (half : Bool) (k : Nat) : List Bool := (List.range k).map (fun t => match fmt with
  | 0 => decide (k / 2 ≤ t)
  | 1 => decide (t < k / 2)
  | _ => if half then decide (t < k / 2) else t == 0)

/-- A port that drives its frame sync drives it through a TDM frame (R343, R344). -/
def audSync (n : Nat) (s : State) : State :=
  let k := s.audSlots n * slotBits (s.f (AUD_FMT_slot_w n))
  modAud n (fun x => { x with fs := fsLine (s.f (AUD_FMT_fmt n)) (s.b (AUD_FMT_fs_pulse n)) k }) s

/-- The TDM frame a port sends: its slots, and its line from the sync edge on, on which I2S and a delayed TDM frame come
one bit clock later, after the last bit of the frame before (R343). -/
def audSend (n : Nat) (f : List Nat) (s : State) : State :=
  if s.b (AUD_CTRL_dir n) then s
  else
    let w := s.f (AUD_FMT_slot_w n)
    let fmt := s.f (AUD_FMT_fmt n)
    let out := f.map (s.audCarry n)
    let bits := out.flatMap (slotLine w)
    let before := ((s.aud n).out.flatMap (slotLine w)).getLast?.getD false
    let late := fmt == 0 || (fmt == 2 && s.b (AUD_FMT_fs_delay n))
    modAud n (fun x => { x with out := out, sd := if late then before :: bits.dropLast else bits }) s

/-- A lead or trailing frame passes; a slave port's memory side runs from the end of its last lead frame (R350, R351). -/
def audQuiet (n k : Nat) (lead : Bool) (s : State) : State :=
  let next : AudPhase := if lead then (if k ≤ 1 then .run else .lead (k - 1)) else .trail (k - 1)
  let s := if lead && k ≤ 1 && !s.b (AUD_CTRL_master n) then modAud n (fun x => { x with mark := (s.now, 0), periods := 0 }) s else s
  audShow n (modAud n (fun x => { x with phase := next, frames := x.frames + 1 }) (audSend n (s.audZeros n) s))

/-- The first sample frame after the lead frames raises STARTED (R351). -/
def audFirst (n : Nat) (s : State) : State :=
  let s := modAud n (fun x => { x with frames := x.frames + 1 }) s
  if (s.aud n).started then s else raise (0x4C + n) 0 0 (modAud n (fun x => { x with started := true }) s)

/-- The slots of a received TDM frame, as captured. -/
def State.audRx (s : State) (n : Nat) (rx : List (BitVec 24)) : List Nat :=
  (List.range (s.audSlots n)).map (fun k => s.audCarry n (rx.getD k 0).toNat)

/-- One sample frame of a master port in its run. -/
def audMaster (n : Nat) (rx : List (BitVec 24)) (s : State) : State :=
  if s.audNeed n = 0 then audSend n (s.audZeros n) s
  else if s.b (AUD_CTRL_dir n) then
    match audStep n (some (s.audStore n (s.audRx n rx))) s with
    | (some _, s) => audOut n (audIn n s)
    | (none, s) => s
  else
    match audStep n none s with
    | (some bs, s) => audSend n (s.audLoad n bs) (audOut n (audIn n s))
    | (none, s) => audSend n (s.audZeros n) s

/-- The memory side of a slave port: one sample frame a period (R350). Frames of the slip buffer are counted in IN
and OUT when their fate is settled, so that R350's equation always holds (DEDUCED): a repeat that R349 discards is told
and not counted. -/
def audMemory (n : Nat) (parity : Bool) (s : State) : State :=
  if s.audNeed n = 0 then s
  else if s.b (AUD_CTRL_dir n) then
    match slipOut n parity s with
    | (none, s) => s
    | (some (_, f, rep), s) =>
      match audStep n (some (s.audStore n f)) s with
      | (some _, s) => if rep then slipRepeat n (audOut n s) else audOut n (audIn n s)
      | (none, s) => if rep then raise (0x4C + n) 3 1 s else s
  else
    match audStep n none s with
    | (some bs, s) => slipIn n (true, s.audLoad n bs) s
    | (none, s) => slipIn n (false, s.audZeros n) s

/-- SAMPLE_FRAME: one sample period (R347, R349). -/
def execSampleFrame (n : Nat) (rx : List (BitVec 24)) (parity : Bool) (s : State) : Res :=
  guardOk (decide (n < 4)) <|
    if !s.domOn dAUD then s
    else if s.b (AUD_CTRL_master n) then
      let s0 := audSync n (audMaskApply n (s.audInstant n (s.aud n).periods) s)
      match (s.aud n).phase with
      | .idle => s
      | .lead k => audQuiet n k true (audPeriods n 1 s0)
      | .run => audMaster n rx (audPeriods n 1 (audFirst n s0))
      | .ending lead =>
        audTrail n (if lead then audQuiet n 2 true (audPeriods n 1 s0) else audMaster n rx (audPeriods n 1 (audFirst n s0)))
      | .trail k => if k = 0 then s else audQuiet n k false (audPeriods n 1 s0)
    else if (s.aud n).phase = .run || (s.aud n).phase = .ending false then audMemory n parity (audPeriods n 1 s)
    else s

/-- The pin side of a slave port in its run (R350). -/
def audPins (n : Nat) (rx : List (BitVec 24)) (parity : Bool) (s : State) : State :=
  if s.audNeed n = 0 then audSend n (s.audZeros n) s
  else if s.b (AUD_CTRL_dir n) then slipIn n (true, s.audRx n rx) s
  else
    match slipOut n parity s with
    | (none, s) => audSend n (s.audZeros n) s
    | (some (cnt, f, rep), s) =>
      let s := audSend n f s
      if rep then slipRepeat n (audOut n s)
      else if cnt then audOut n (audIn n s)
      else s

/-- SLAVE_SAMPLE_RX: a TDM frame at the pins of a slave port (R350, R351). -/
def execSlaveSampleRx (n : Nat) (rx : List (BitVec 24)) (parity : Bool) (s : State) : Res :=
  guardOk (decide (n < 4)) <|
    if !s.domOn dAUD || s.b (AUD_CTRL_master n) then s
    else match (s.aud n).phase with
      | .idle => s
      | .lead k => audQuiet n k true (audMaskApply n s.now s)
      | .run => audPins n rx parity (audFirst n (audMaskApply n s.now s))
      | .ending lead =>
        let s := audMaskApply n s.now s
        audTrail n (if lead then audQuiet n 2 true s else audPins n rx parity (audFirst n s))
      | .trail k => if k = 0 then s else audQuiet n k false (audMaskApply n s.now s)

/-! ### Other registers -/

/-- A write of AUDn_FMT, only while the port has run = 0; reserved widths and rates are refused (R345). -/
def audFmtWrite (n : Nat) (v : Word) (s : State) : State :=
  if s.b (AUD_CTRL_run n) || bitsOf v.toNat 9 8 = 3 || bitsOf v.toNat 14 12 = 7 then flag (AUD_STATUS_bad_write n) s
  else plainWrite (AUD_FMT n) v s

/-- A write of AUD_MCLK_CFG, only while every port has run = 0; its refusal shows in AUD0 (R345). -/
def mclkWrite (v : Word) (s : State) : State :=
  if (List.range 4).any (fun n => s.b (AUD_CTRL_run n)) then flag (AUD_STATUS_bad_write 0) s
  else plainWrite AUD_MCLK_CFG v s

/-- A write of AUDn_RING_CFG: up to 4,096 entries. -/
def audRingWrite (n : Nat) (v : Word) (s : State) : State :=
  if 4096 < bitsOf v.toNat 12 0 then flag (AUD_STATUS_bad_write n) s else plainWrite (AUD_RING_CFG n) v s

/-- Every running port stops as if run had been written 0 (R351, T3). -/
def audAllStop (s : State) : State :=
  (List.range 4).foldl (fun s n => if s.audActive n then audFall n (setF (AUD_CTRL_run n) 0 s) else s) s

end Sys2Proof.Machine
end

