-- ==== Sys2Proof/Machine/Num.lean ====
section
/-! DEFINITION. The B9's arithmetic on exact rationals: rounding to binary32, binary64 and SL20 (R112 to R114, R138,
R194), square roots, logarithms and powers. -/

namespace Sys2Proof.Machine

/-- 2 to an integer power. -/
def pow2 (i : Int) : Rat := if 0 ≤ i then ((2 ^ i.toNat : Nat) : Rat) else 1 / ((2 ^ (-i).toNat : Nat) : Rat)

/-- ⌊log2 q⌋ of a positive rational. -/
def ilog2 (q : Rat) : Int :=
  let n := q.num.toNat
  let d := q.den
  let e : Int := (Nat.log2 n : Int) - Nat.log2 d
  let ge := if 0 ≤ e then d * 2 ^ e.toNat ≤ n else d ≤ n * 2 ^ (-e).toNat
  if ge then e else e - 1

/-- The nearest integer, ties to even. -/
def rne (q : Rat) : Int :=
  let f := q.floor
  let r := q - f
  if r < 1 / 2 then f else if 1 / 2 < r then f + 1 else if f % 2 = 0 then f else f + 1

/-- The magnitude of a rational. -/
def absQ (q : Rat) : Rat := if q < 0 then -q else q

/-- `q` rounded to `p` significant bits, ties to even, with no bit below 2^umin. -/
def roundTo (p : Nat) (umin : Int) (q : Rat) : Rat :=
  if q = 0 then 0
  else
    let u := max (ilog2 (absQ q) - (p - 1 : Nat)) umin
    rne (q / pow2 u) * pow2 u

/-- Rounded to binary32; no stage leaves its range. -/
def f32 (q : Rat) : Rat := roundTo 24 (-149) q

/-- Rounded to binary64. -/
def f64 (q : Rat) : Rat := roundTo 53 (-1074) q

/-! Binary32 operations. -/
def fadd32 (a b : Rat) : Rat := f32 (a + b)
def fsub32 (a b : Rat) : Rat := f32 (a - b)
def fmul32 (a b : Rat) : Rat := f32 (a * b)
def fdiv32 (a b : Rat) : Rat := f32 (a / b)

/-- A binary32 sum in the order given. -/
def fsum32 (l : List Rat) : Rat := match l with
  | [] => 0
  | a :: t => t.foldl fadd32 a

/-! ### SL20 (R112) -/

/-- The largest finite SL20 value. -/
def slMax : Rat := pow2 32 * (2 - pow2 (-13))

/-- The code of the largest finite SL20 value. -/
def slMaxCode : Nat := 0x7FFFF

/-- The value of an SL20 code. -/
def slVal (c : Nat) : Rat :=
  let e := bitsOf c 18 13
  let m := bitsOf c 12 0
  let v : Rat := if e = 0 then m * pow2 (-43) else (8192 + m : Nat) * pow2 ((e : Int) - 44)
  if bitOf c 19 then -v else v

/-- The SL20 code of a value that SL20 holds exactly. -/
def slCode (v : Rat) : Nat :=
  if v = 0 then 0
  else
    let a := absQ v
    let e := ilog2 a
    let k := if e < -30 then (a * pow2 43).floor.toNat
      else (e + 31).toNat * 8192 + ((a * pow2 (13 - e)).floor.toNat - 8192)
    if v < 0 then k + 0x80000 else k

/-- A value rounded to SL20 (R114): its code, and whether it saturated. −0 never comes out. -/
def toSl (q : Rat) : Nat × Bool :=
  let r := roundTo 14 (-43) q
  if slMax < absQ r then (slMaxCode + (if q < 0 then 0x80000 else 0), true) else (slCode r, false)

/-! ### Roots, logarithms and powers -/

/-- ⌊√n⌋, bit by bit from bit `k`. -/
def isqrt (n : Nat) : Nat → Nat → Nat
  | 0, r => r
  | k + 1, r => let c := r + 2 ^ k; if c * c ≤ n then isqrt n k c else isqrt n k r

/-- The correctly rounded binary32 square root. -/
def sqrt32 (q : Rat) : Rat :=
  if q ≤ 0 then 0
  else
    let k := (60 - ilog2 q / 2).toNat
    let x := q * ((4 ^ k : Nat) : Rat)
    let r := isqrt x.floor.toNat 130 0
    let exact := ((r * r : Nat) : Rat) = x
    f32 (((if exact then 2 * r else 2 * r + 1 : Nat) : Rat) / ((2 ^ (k + 1) : Nat) : Rat))

/-- Binary digits of log2 of a fixed-point number in [1, 2) with 160 fraction bits. -/
def log2Bits : Nat → Nat → Nat → Nat
  | 0, _, acc => acc
  | k + 1, m, acc =>
    let m := m * m / 2 ^ 160
    if 2 ^ 161 ≤ m then log2Bits k (m / 2) (2 * acc + 1) else log2Bits k m (2 * acc)

/-- log2 of a positive rational, within 2^-80, exact at powers of 2. -/
def log2Q (q : Rat) : Rat :=
  let e := ilog2 q
  e + ((log2Bits 90 (q * pow2 (160 - e)).floor.toNat 0 : Nat) : Rat) * pow2 (-90)

/-- ln 2 with 160 fraction bits. -/
def ln2Fix : Nat := 1013035739299659071135698605846798551586536899366

/-- 2^160 × e^y for y with 160 fraction bits, by its series. -/
def expSeries (y : Nat) : Nat → Nat → Nat → Nat → Nat
  | 0, _, _, acc => acc
  | k + 1, i, t, acc => let t := t * y / 2 ^ 160 / i; expSeries y k (i + 1) t (acc + t)

/-- 2 to a rational power, within 2^-140 relative, exact at integers. -/
def exp2Q (q : Rat) : Rat :=
  let i := q.floor
  let f := q - i
  if f = 0 then pow2 i
  else
    let y := ln2Fix * (f * pow2 160).floor.toNat / 2 ^ 160
    ((expSeries y 45 1 (2 ^ 160) (2 ^ 160) : Nat) : Rat) * pow2 (-160) * pow2 i

/-- x to the power y. -/
def powQ (x y : Rat) : Rat := if x ≤ 0 then 0 else exp2Q (y * log2Q x)

/-- Natural logarithm. -/
def lnQ (x : Rat) : Rat := log2Q x * ((ln2Fix : Nat) : Rat) * pow2 (-160)

/-- A rational limited to a range. -/
def limQ (lo hi x : Rat) : Rat := if x < lo then lo else if hi < x then hi else x

/-- Position `i` taken into 0 to n − 1 by reflection without repeating the edge, as often as needed (R117). -/
def reflect (n : Nat) (i : Int) : Nat :=
  if n ≤ 1 then 0
  else
    let m := (i % (2 * (n - 1) : Nat)).toNat
    if m < n then m else 2 * (n - 1) - m

end Sys2Proof.Machine
end

