-- ==== Sys2Proof/Machine/PortCore.lean ====
section
/-! DEFINITION. A sensor port's frames (R39 to R42, R84, R85, R95 to R103, R110, R442): opening, taking lines, closing
and crossing into the pipeline, over either link. -/

namespace Sys2Proof.Machine

open Sys2Proof.Config (ms us)

/-- Port `n`. -/
def State.port (s : State) (n : Nat) : PortSt := lookD s.ports {} n

/-- Changes port `n`. -/
def modPort (n : Nat) (f : PortSt → PortSt) (s : State) : State := { s with ports := put s.ports n (f (s.port n)) }

/-- Changes the open frame of port `n`. -/
def modFrame (n : Nat) (f : OpenSt → OpenSt) (s : State) : State :=
  modPort n (fun p => { p with frame := p.frame.map f }) s

/-- Port `n` receives frames (R83). -/
def State.running (s : State) (n : Nat) : Bool := s.b (SP_CTRL_en n) && s.b (SP_CTRL_run n)

/-- Port `n` is in strip-scan mode. -/
def State.stripMode (s : State) (n : Nat) : Bool := s.b (SP_SS_CTRL_en n)

/-- Shows idle and frame_open (R84). -/
def showPort (n : Nat) (s : State) : State :=
  let p := s.port n
  let isOpen := p.frame.isSome || !p.ss.strips.isEmpty
  setF (SP_STATUS_frame_open n) (if isOpen then 1 else 0) <|
    setF (SP_STATUS_idle n) (if !isOpen && !s.running n then 1 else 0) s

/-- The time-stamp of instant `at_`, moved by the signed offset SPn_TS_OFS (R110). -/
def State.pinStampOf (s : State) (n at_ : Nat) : Stamp :=
  let x := s.stampOf at_
  let t : Int := x.sec * 1000000000 + x.ns + s32 (s.rd (SP_TS_OFS n))
  if t < 0 then ⟨((t / 1000000000) % 2 ^ 48).toNat, (t % 1000000000).toNat⟩ else ⟨t.toNat / 1000000000, t.toNat % 1000000000⟩

/-- The time-stamp now, so moved. -/
def State.pinStamp (s : State) (n : Nat) : Stamp := s.pinStampOf n s.now

/-- The registers of a port that take effect at a frame start (R85, R97; R5 RWC). -/
def portLive (n : Nat) (a : Nat) : Bool :=
  a == SP_FRAME_SIZE n || a == SP_FRAME_CFG n || a == SP_FILL_CFG n || a == SP_CSI_VC_MAP n

/-! ### SID (R42, R45, R46, R51) -/

/-- Brings the sets in force whose frame is `pfn` or earlier. -/
def setsDue (pfn : Nat) (q : SetSt) : SetSt :=
  let due := q.effs.filter (fun e => !ahead e.1 pfn)
  match due.getLast? with
  | none => q
  | some (_, sid, no) =>
    { q with sid := sid, effs := q.effs.filter (fun e => ahead e.1 pfn), want := q.want.filter (fun e => no < e.1) }

/-- A set aimed at `pfn` or earlier is not in force yet (FSW.settings_late). -/
def setsLate (pfn : Nat) (q : SetSt) : Bool := q.want.any (fun e => !ahead e.2 pfn)

/-- The frame port `n` reads now, with its side notes: the open frame, or in strip-scan the strip opened last. -/
def State.received (s : State) (n : Nat) : Option (FrameInfo × Side) :=
  let p := s.port n
  match p.frame, p.ss.strips.getLast? with
  | some f, _ => some (f.info, f.side)
  | none, some x => some (x.info, x.side)
  | none, none => none

/-- Changes the frame port `n` reads now. -/
def modReceived (n : Nat) (f : FrameInfo → FrameInfo) (g : Side → Side) (s : State) : State :=
  modPort n (fun p => match p.frame with
    | some x => { p with frame := some { x with info := f x.info, side := g x.side } }
    | none => { p with ss := { p.ss with strips :=
        p.ss.strips.dropLast ++ (p.ss.strips.getLast?.map (fun x => { x with info := f x.info, side := g x.side })).toList } }) s

/-- Sets a bit of the status word of the frame being read. -/
def frameFsw (n bit : Nat) (s : State) : State := modReceived n (fun i => { i with fsw := fswSet bit i.fsw }) id s

/-- What stands in a FIFO item of the frames `p` picks. -/
def markItem (p : FrameInfo → Bool) (f : FrameInfo → FrameInfo) : RowItem → RowItem
  | .start i d m v k => .start (if p i then f i else i) d m v k
  | .stop i t => .stop (if p i then f i else i) t
  | .row d b => .row d b
  | .cut => .cut

/-- Changes the identity of the frames of port `n` that `p` picks, wherever they stand: open, a strip, crossing, or in
the pipeline (R43, R52). -/
def markFrame (n : Nat) (p : FrameInfo → Bool) (f : FrameInfo → FrameInfo) (s : State) : State :=
  let g (i : FrameInfo) : FrameInfo := if p i then f i else i
  let s := modPort n (fun q => { q with
    frame := q.frame.map (fun x => { x with info := g x.info })
    fifo := q.fifo.map (markItem p f)
    ss := { q.ss with strips := q.ss.strips.map (fun x => { x with info := g x.info }) } }) s
  match look s.ips n with
  | none => s
  | some q => { s with ips := put s.ips n { q with frames := q.frames.map (fun x => { x with info := g x.info }) } }

/-- Gives the frame being read an echoed SID (R42, R51). -/
def takeEcho (n sid : Nat) (s : State) : State :=
  match s.received n with
  | none => s
  | some (i, _) =>
    let bad := sid != (s.port n).sets.sid
    let s := markFrame n (fun x => x.pfn == i.pfn)
      (fun x => { x with sid := sid, echoed := true, fsw := fswIf bad fswMismatch x.fsw }) s
    let s := modPort n (fun p => { p with sets := { p.sets with echo := true } }) s
    let s := setF (SP_SID_NOW_sid n) sid (modReceived n id (fun d => { d with echoed := true }) s)
    if bad then raise (0x10 + n) 0x21 i.pfn s else s

/-- A status word with FSW.settings_late as `late` says. -/
def fswLate (late : Bool) (w : Nat) : Nat := if late then fswSet fswSettingsLate w else w &&& (2 ^ 32 - 1 - 2 ^ fswSettingsLate)

/-- A set of target `t` was accepted: the frames port `n` has open at or after it carry an older SID (R45, R48). -/
def relate (n t : Nat) (s : State) : State :=
  let f (i : FrameInfo) : FrameInfo := if ahead t i.pfn then i else { i with fsw := fswSet fswSettingsLate i.fsw }
  modPort n (fun p => { p with
    frame := p.frame.map (fun x => { x with info := f x.info })
    ss := { p.ss with strips := p.ss.strips.map (fun x => { x with info := f x.info }) } }) s

/-- Set `no` has gone out and is in force from frame `eff` on (R46). Frames that have started since, however far they have
come, take its SID unless they took an echo, and are late only for a later set. -/
def setSettle (n eff sid no : Nat) (s : State) : State :=
  let q := (s.port n).sets
  let s := markFrame n (fun i => !ahead eff i.pfn)
    (fun i => { i with sid := if i.echoed then i.sid else sid, fsw := fswLate (setsLate i.pfn { q with want := q.want.filter (fun e => no < e.1) }) i.fsw }) s
  if ahead (s.port n).nextPfn eff then
    let s := modPort n (fun p => { p with sets := setsDue ((p.nextPfn + 2 ^ 32 - 1) % 2 ^ 32) p.sets }) s
    if q.echo then s else setF (SP_SID_NOW_sid n) sid s
  else s

/-! ### Rows into the crossing FIFO (R96, R101) -/

/-- What crosses for row `y`: per readout its codes or none; filled if no readout delivered it. -/
def rowItem (f : OpenSt) (y : Nat) : RowItem :=
  let got := lookD f.lines [] y
  let data := (List.range f.readouts).map (fun r => look got r)
  .row data (data.all Option.isNone)

/-- Rows every readout has passed cross in order; the count of rows received and filled follows (R96). -/
def crossRows (n : Nat) (s : State) : State :=
  match (s.port n).frame with
  | none => s
  | some f =>
    let upto := min f.h (f.next.foldl min f.h)
    (List.range (upto - f.out)).foldl (fun s i =>
      match (s.port n).frame with
      | none => s
      | some f =>
        let it := rowItem f (f.out)
        let filled := match it with
          | .row _ b => b
          | _ => false
        let s := if f.withheld then s else modPort n (fun p => { p with fifo := p.fifo ++ [it] }) s
        let _ := i
        modFrame n (fun f => { f with
          out := f.out + 1
          lines := del f.lines f.out
          info := { f.info with
            rowsRx := f.info.rowsRx + (if filled then 0 else 1)
            filled := f.info.filled + (if filled then 1 else 0) } }) s) s

/-- Readout `r` passes rows up to `y`, LINE_MATCH with them (R95, R110). -/
def passTo (n r y : Nat) (s : State) : State :=
  match (s.port n).frame with
  | none => s
  | some f =>
    let from_ := f.next.getD r 0
    let m := s.f (SP_LINE_MATCH_row n)
    let s := modFrame n (fun f => { f with next := f.next.set r (y + 1) }) s
    if r = 0 && from_ ≤ m && m ≤ y && !f.withheld then raiseAt (s.pinStamp n) (0x10 + n) 2 f.info.pfn s else s

/-- Lines the FIFO holds, those waiting for their row among them (R101). -/
def fifoLines (p : PortSt) : Nat :=
  p.fifo.foldl (fun k it => match it with
    | .row d _ => k + (d.filter Option.isSome).length
    | _ => k) 0 +
  (match p.frame with
    | some f => if f.withheld then 0 else f.lines.foldl (fun k e => k + e.2.length) 0
    | none => 0)

/-! ### Opening and closing frames -/

/-- Bits per pixel of a data type (R86, R91). -/
def depthOf (d : Nat) : Nat := match d with
  | 0x2B => 10 | 0x2C => 12 | 0x2D => 14 | 0x2E => 16 | 0x2F => 20 | _ => 12

/-- The group of a member port, if it is one (R102). -/
def State.groupOf (s : State) (n : Nat) : Option Nat := if s.b (SP_GRP_member n) then some (s.f (SP_GRP_group n)) else none

/-- The port withholds the frame of this PFN (R442). -/
def State.withholds (s : State) (pfn : Nat) : Bool := 2 ≤ s.f THM_LEVEL_level && pfn % floor1 (s.f THM_T2_div) != 0

/-- Slot address of a frame's embedded data, if it is stored (R90). -/
def State.embAddr (s : State) (n pfn : Nat) : Option Nat :=
  let slots := s.f (SP_EMB_CFG_slots n)
  let kib := s.f (SP_EMB_CFG_slot_kib n)
  if slots = 0 || kib = 0 then none else some (s.pair (SP_EMB_BASE_LO n) (SP_EMB_BASE_HI n) + pfn % slots * kib * 1024)

/-- What a port notes of a frame at its start: a frame withheld at T2 stores no embedded data (R90, R442). -/
def sideAt (n pfn : Nat) (s : State) : Side := { slot := if s.withholds pfn then none else s.embAddr n pfn }

/-- The status bits a frame takes from the device at its SOF (R45). -/
def State.sofFsw (s : State) (n : Nat) : Nat :=
  let w := fswIf (s.f REF_STATUS_state == refHoldover) fswRefHoldover 0
  let w := fswIf (s.f REF_STATUS_state == refAcquiring && s.f REF_CTRL_src == 1) fswRefUnlocked w
  let w := fswIf (2 ≤ s.f THM_LEVEL_level) fswThermal w
  let w := fswIf (!s.b TSU_STATUS_valid) fswTimeInvalid w
  let _ := n
  w

/-- Counts a withheld frame and reports the first of this entry to the level (R442). -/
def countWithheld (n : Nat) (s : State) : State :=
  let s := bump (THM_T2_DROP n) s
  if s.thm.t2Told.contains n then s
  else raise 0x03 3 n { s with thm := { s.thm with t2Told := n :: s.thm.t2Told } }

/-! ### Overlays at a frame start (R406) -/

/-- The loads of pipeline `n`'s waiting overlay commit are complete. -/
def State.ovlLoaded (s : State) (n : Nat) : Bool :=
  match (lookD s.ips {} n).commits.find? (·.gate) with
  | some c => !c.capturing && c.todo.isEmpty
  | none => true

/-- The waiting overlay takes pipeline `n` at frame `pfn`: its port registers transfer, its commit is bound to that
frame, and the frame is marked. -/
def ovlBind (n pfn : Nat) (live : Nat → Bool) (s : State) : State :=
  let p := lookD s.ips {} n
  let cs := p.commits.map (fun c => if c.gate then { c with gate := false, target := pfn } else c)
  takeLive live { s with
    ips := put s.ips n { p with commits := cs }
    cfg := { s.cfg with hold := del s.cfg.hold n, sof := put s.cfg.sof n pfn, mark := n :: s.cfg.mark.filter (· != n) } }

/-- The registers of port `n` that `live` picks transfer at a frame start; while an overlay is pending for the pipeline
they transfer only at the first frame at or ahead of its target whose commit loads are complete, and a frame that finds
them unfinished makes the commit late (R157, R158). -/
def portTake (n : Nat) (live : Nat → Bool) (s : State) : State :=
  let pfn := (s.port n).nextPfn
  if s.cfg.todo.contains n then s
  else match look s.cfg.hold n with
    | none => takeLive live s
    | some t =>
      if ahead t pfn then s
      else if s.ovlLoaded n then ovlBind n pfn live s
      else match look s.ips n with
        | some p => { s with ips := put s.ips n { p with commits := p.commits.map (fun c => if c.gate then { c with waited := true } else c) } }
        | none => s

/-- The overlay index in force for pipeline `n`. -/
def State.ovlIndex (s : State) (n : Nat) : Nat :=
  if s.b CFG_OVL_STATUS_busy && (look s.cfg.sof n).isSome then s.f CFG_OVL_STATUS_pending else s.f CFG_OVL_STATUS_in_force

/-- A frame's identity at its start (R39 to R42, R44). -/
def startInfo (n pfn rfn counter w h : Nat) (s : State) : FrameInfo :=
  { pfn := pfn, rfn := rfn, counter := counter, width := w, height := h, rowsCfg := h, sof := s.pinStamp n,
    sid := (s.port n).sets.sid, fsw := fswIf (s.cfg.mark.contains n) fswOverlay (fswIf (setsLate pfn (s.port n).sets) fswSettingsLate (s.sofFsw n)),
    overlay := s.ovlIndex n, level := s.f THM_LEVEL_level, gen := s.f (SP_JV_STATUS_gen n),
    emb := (sideAt n pfn s).slot.getD 0 }

/-- A frame takes the next PFN and its expected SID (R39, R42). -/
def takePfn (n : Nat) (s : State) : Nat × State :=
  let pfn := (s.port n).nextPfn
  let s := modPort n (fun p => { p with nextPfn := (pfn + 1) % 2 ^ 32, sets := { setsDue pfn p.sets with echo := false } }) s
  (pfn, setF (SP_SID_NOW_sid n) (s.port n).sets.sid (setF (SP_PFN_pfn n) pfn s))

/-- Notes that port `n` has opened a frame of an RFN; a verdict already taken marks it (R102, R103). -/
def noteOpened (n rfn : Nat) (s : State) : State :=
  let s := modPort n (fun p => { p with opened := (rfn :: p.opened).take 64 }) s
  match s.groupOf n with
  | none => s
  | some g =>
    if s.groups.any (fun e => e.1 == g && e.2.1 == rfn && bitOf e.2.2 n) then
      modFrame n (fun f => { f with info := { f.info with fsw := fswSet fswGroup f.info.fsw } }) s
    else s

/-- The first frame under an overlay has opened. -/
def ovlMarked (n : Nat) (s : State) : State := { s with cfg := { s.cfg with mark := s.cfg.mark.filter (· != n) } }

/-- A frame opens (R85, R98): `echo` is the SID the SOF carries, `remap` a lane map that takes effect with it. -/
def portOpen (n counter : Nat) (echo : Option Nat) (remap : Bool) (s : State) : State :=
  let s := portTake n (portLive n) s
  let w := s.g (SP_FRAME_SIZE_width n)
  let h := s.g (SP_FRAME_SIZE_height n)
  if w = 0 || h = 0 then s
  else
    let rfn := s.rfnForSof n
    let (pfn, s) := takePfn n s
    let withheld := s.withholds pfn
    let i := startInfo n pfn rfn counter w h s
    let i := { i with fsw := fswIf remap fswLaneRemap i.fsw }
    let k := s.g (SP_FRAME_CFG_readouts n) + 1
    let f : OpenSt := {
      info := i, w := w, h := h, readouts := k, dtype := s.g (SP_FRAME_CFG_dtype n), withheld := withheld
      next := List.replicate k 0, side := sideAt n pfn s, seen := s.now }
    let s := modPort n (fun p => { p with frame := some f, lineNo := [] }) (ovlMarked n s)
    let s := raiseAt i.sof (0x10 + n) 0 pfn s
    let s := match s.f (SP_SET_CFG_echo_src n), echo with
      | 1, some e => takeEcho n e s
      | 1, none => frameFsw n fswNoEcho s
      | _, _ => s
    let i := match (s.port n).frame with
      | some x => x.info
      | none => i
    let s := if withheld then countWithheld n s
      else noteOpened n rfn <| modPort n (fun p => { p with fifo := p.fifo ++
        [.start i (depthOf f.dtype) (s.g (SP_FILL_CFG_mode n)) (s.g (SP_FILL_CFG_value n)) k] }) s
    showPort n s

/-- The port starts discarding up to the next SOF (R100). -/
def startDiscard (n : Nat) (s : State) : State :=
  if s.b (SP_STATUS_discarding n) then s else flag (SP_STATUS_discarding n) (modPort n (fun p => { p with units := 0 }) s)

/-- Leaves the discarding state, with RESYNC and the units discarded (R100). -/
def endDiscard (n : Nat) (s : State) : State :=
  if s.b (SP_STATUS_discarding n) then
    raise (0x10 + n) 6 (min (s.port n).units 0xFFFF) (setF (SP_STATUS_discarding n) 0 (modPort n (fun p => { p with units := 0 }) s))
  else s

/-- Counts discarded units, in the discarding state or outside it (R100). -/
def discardUnits (n k : Nat) (s : State) : State :=
  let s := bumpBy (SP_DISCARD n) k s
  if s.b (SP_STATUS_discarding n) then modPort n (fun p => { p with units := p.units + k }) s else s

/-- Input with no frame open: counted in the discarding state and outside it, but for the lines of a port with a zero
frame size in force (R85, R100). -/
def strayUnits (n k : Nat) (line : Bool) (s : State) : State :=
  if line && (s.g (SP_FRAME_SIZE_width n) == 0 || s.g (SP_FRAME_SIZE_height n) == 0) then s else discardUnits n k s

/-- The members of group `g`, as a mask. -/
def State.members (s : State) (g : Nat) : Nat :=
  (List.range (Config.ports s.variant)).foldl (fun m n =>
    if s.domOn (dSP n) && s.groupOf n == some g then m + 2 ^ n else m) 0

/-- The members that have opened a frame of an RFN. -/
def State.present (s : State) (g rfn : Nat) : Nat :=
  (List.range 4).foldl (fun m n =>
    if bitOf (s.members g) n && (s.port n).opened.contains rfn then m + 2 ^ n else m) 0

/-- Group `g` takes its verdict for an RFN (R102, R103): none while no member has opened a frame of it, or if one was
taken before. -/
def verdict (g rfn : Nat) (s : State) : State :=
  let here := s.present g rfn
  if here = 0 || s.groups.any (fun e => e.1 == g && e.2.1 == rfn) then s
  else
    let absent := s.members g - here
    let s := { s with groups := ((g, rfn, absent) :: s.groups).take 256 }
    if absent = 0 then s
    else
      let s := (List.range 4).foldl (fun s n =>
        if bitOf here n then markFrame n (fun i => i.rfn == rfn) (fun i => { i with fsw := fswSet fswGroup i.fsw }) s else s) s
      if s.domOn (dSP 0) then
        raise 0x10 8 (g * 256 + absent) <| bump (SP0_GRP_INCOMPLETE g) <|
          setF (SP0_GRP_MISS_MASK_absent g) absent (setF (SP0_GRP_MISS_RFN_rfn g) rfn s)
      else s

/-- The window of group `g` for an RFN has not passed: after it, an EOF brings no verdict (R102). -/
def State.verdictOpen (s : State) (g rfn : Nat) : Bool :=
  match s.ref.ticks.find? (fun t => t.rfn == rfn) with
  | some t => decide (s.now ≤ t.at_ + s.f (SP0_GRP_CFG_win g) * Config.us)
  | none => true

/-- Why a frame closes (R98). -/
inductive Close
  | eof | sof | early
  deriving DecidableEq, Repr

/-- The embedded-data address a frame's descriptor carries: 0 if none was stored (R44, R90). -/
def embOf (d : Side) : Nat := if d.embBad || d.embLen = 0 then 0 else d.slot.getD 0

/-- The events of a frame's close beyond FRAME_END (R98, R99, R111). -/
def closeEvents (n : Nat) (short trunc : Bool) (i : FrameInfo) (s : State) : State :=
  let s := if short then raise (0x10 + n) 3 i.rowsRx (bump (SP_SHORT n) s) else s
  let s := if trunc then raise (0x10 + n) 5 i.rowsRx (bump (SP_TRUNC n) s) else s
  if i.discarded != 0 then raise (0x10 + n) 4 i.discarded s else s

/-- The open frame closes (R98): rows not received are filled, the status bits follow, and its end crosses. An EOF
comes after all configured rows if some readout has passed the last one. -/
def portClose (n : Nat) (why : Close) (s : State) : State :=
  match (s.port n).frame with
  | none => s
  | some f =>
    let whole := f.next.any (fun x => f.h ≤ x)
    let s := match why, f.withheld, s.groupOf n with
      | .eof, false, some g => if s.verdictOpen g f.info.rfn then verdict g f.info.rfn s else s
      | _, _, _ => s
    let s := if why != .eof && !f.withheld then modPort n (fun p => { p with fifo := p.fifo ++ [.cut] }) s else s
    let s := (List.range f.readouts).foldl (fun s r => if (f.next.getD r 0) < f.h then passTo n r (f.h - 1) s else s) s
    let s := crossRows n s
    let short := why == .eof && !whole
    let trunc := why != .eof
    let eof := s.pinStamp n
    let s := modFrame n (fun f =>
      let w := fswIf short fswShort f.info.fsw
      let w := fswIf trunc fswTruncated w
      let w := fswIf (f.info.filled != 0) fswRowsFilled w
      let w := fswIf (f.info.filled != 0) fswStatsPartial w
      let w := fswIf (s.f (SP_SET_CFG_echo_src n) == 2 && !f.side.echoed) fswNoEcho w
      { f with info := { f.info with fsw := w, eof := eof, emb := embOf f.side } }) s
    match (s.port n).frame with
    | none => s
    | some f =>
      let i := f.info
      let s := closeEvents n short trunc i (raiseAt eof (0x10 + n) 1 i.pfn s)
      let s := if f.withheld then s else modPort n (fun p => { p with fifo := p.fifo ++ [.stop i trunc] }) s
      let s := modPort n (fun p => { p with frame := none }) s
      showPort n (if why == .early then startDiscard n s else s)

/-! ### Lines -/

/-- Bytes of a line of `w` pixels (R86, R91). -/
def lineBytes (dtype w : Nat) : Nat := ceilDiv (depthOf dtype * w) 8

/-- Pixel codes packed least significant bit first (R87). -/
def unpackLsb (d w : Nat) (bs : List Byte) : List Nat :=
  let n := leNat bs
  (List.range w).map (fun i => n / 2 ^ (d * i) % 2 ^ d)

/-- One group of the CSI-2 packing of RAW10, RAW12 and RAW14: upper bytes, then the low bits of each pixel. -/
def csiGroup (d k : Nat) (g : List Byte) : List Nat :=
  let low := leNat (g.drop k)
  (List.range k).map (fun i => (g.getD i 0).toNat * 2 ^ (d - 8) + low / 2 ^ ((d - 8) * i) % 2 ^ (d - 8))

/-- One pair of RAW20 pixels. -/
def csiPair20 (g : List Byte) : List Nat :=
  let low := (g.getD 4 0).toNat
  (List.range 2).map (fun i =>
    (g.getD (2 * i) 0).toNat * 4096 + low / 2 ^ (4 * i) % 4 * 1024 + (g.getD (2 * i + 1) 0).toNat * 4 + low / 2 ^ (4 * i + 2) % 4)

/-- Pixel codes packed as the CSI-2 specification defines for each RAW type (R91; PRESUMED 20 from that
specification). -/
def unpackCsi (dtype w : Nat) (bs : List Byte) : List Nat :=
  let groups (k bytes : Nat) (f : List Byte → List Nat) : List Nat :=
    ((List.range (ceilDiv w k)).flatMap (fun i => f (slice bs 0 (i * bytes) bytes))).take w
  match dtype with
  | 0x2B => groups 4 5 (csiGroup 10 4)
  | 0x2C => groups 2 3 (csiGroup 12 2)
  | 0x2D => groups 4 7 (csiGroup 14 4)
  | 0x2E => groups 1 2 (fun g => [(g.getD 0 0).toNat * 256 + (g.getD 1 0).toNat])
  | _ => groups 2 5 csiPair20

/-- Stores embedded bytes in the slot of the frame being read, or zeros where the line's check failed (R90, R513); takes
the echo when its two bytes are there (R42). -/
def embLine (n : Nat) (good : Bool) (bs : List Byte) (s : State) : State :=
  match s.received n with
  | none => s
  | some (_, d) =>
    let size := s.f (SP_EMB_CFG_slot_kib n) * 1024
    let bytes := if good then bs else List.replicate bs.length 0
    let s := match d.slot with
      | none => s
      | some base =>
        let fit := bytes.take (size - d.embLen)
        let (ok, s) := dmaWrite 0 (base + d.embLen) fit s
        let s := if ok then s else modReceived n id (fun d => { d with embBad := true }) s
        bumpBy (SP_EMB_OVF n) (bytes.length - fit.length) s
    let off := s.f (SP_SET_CFG_echo_off n)
    let emb := (d.emb ++ bs.map (fun b => if good then some b else none)).take (off + 2)
    let s := modReceived n id (fun d => { d with emb := emb, embLen := d.embLen + bs.length }) s
    if s.f (SP_SET_CFG_echo_src n) == 2 && !d.echoed then
      match emb[off]?, emb[off + 1]? with
      | some (some lo), some (some hi) => takeEcho n (lo.toNat + hi.toNat * 256) s
      | _, _ => s
    else s

/-- Marks the frame whose rows cross: the open frame, or in strip-scan the front strip. -/
def modCrossing (n : Nat) (f : FrameInfo → FrameInfo) (g : Side → Side) (s : State) : State :=
  modPort n (fun p => match p.frame, p.ss.strips with
    | some x, _ => { p with frame := some { x with info := f x.info, side := g x.side } }
    | none, x :: t => { p with ss := { p.ss with strips := { x with info := f x.info, side := g x.side } :: t } }
    | none, [] => p) s

/-- The frame whose rows cross, with its side notes. -/
def State.crossing (s : State) (n : Nat) : Option (FrameInfo × Side) :=
  match (s.port n).frame, (s.port n).ss.strips with
  | some f, _ => some (f.info, f.side)
  | none, x :: _ => some (x.info, x.side)
  | none, [] => none

/-- The crossing FIFO takes a line or not (R101): on overflow the line is counted, its frame marked, and the event
raised once in the frame. The answer is whether it overflowed. -/
def fifoTake (n : Nat) (full : Bool) (s : State) : Bool × State :=
  match s.crossing n with
  | none => (false, s)
  | some (i, d) =>
    let (ovf, s) := examDetect (0x1005 + n * 256) full i.pfn 0 s
    if ovf then
      let s := modCrossing n (fun i => { i with fsw := fswSet fswFifo i.fsw }) (fun d => { d with ovf := true }) (bump (SP_FIFO_OVF n) s)
      (true, if d.ovf then s else raise (0x10 + n) 7 i.pfn s)
    else (false, s)

/-- Adds a line's pixels to its row, or passes it as missing at a full FIFO (R101); the row timer is examined and starts
again (R98), with a line lost to the full FIFO as with any other (DESIGN CHOICE 24: the spec does not say whether such a
line counts as accepted). A frame withheld at T2 takes no room in the FIFO. -/
def acceptLine (n r y : Nat) (px : Codes) (s : State) : State :=
  match (s.port n).frame with
  | none => s
  | some f =>
    let (late, s) := examDetect (0x1007 + n * 256) false f.info.pfn 0 s
    if late then portClose n .early s
    else
      let s := modFrame n (fun f => { f with seen := s.now }) s
      let (ovf, s) := fifoTake n (!f.withheld && decide (8 * f.readouts ≤ fifoLines (s.port n))) s
      let s := if ovf then s else modFrame n (fun f => { f with lines := put f.lines y (lookD f.lines [] y ++ [(r, px)]) }) s
      crossRows n (passTo n r y s)

/-- A pixel line with a usable header (R86 to R99): `good` is its payload check, `unpack` its packing. -/
def pixelLine (n r y dtype : Nat) (good : Bool) (bs : List Byte) (unpack : Nat → Nat → List Byte → List Nat) (s : State) : State :=
  match (s.port n).frame with
  | none => s
  | some f =>
    if f.readouts ≤ r then bump (SP_UNSUP n) s
    else if f.h ≤ y then
      modFrame n (fun f => { f with info := { f.info with discarded := f.info.discarded + 1, fsw := fswSet fswLong f.info.fsw } })
        (bump (SP_LONG_ROWS n) s)
    else
      let (bad, s) := examDetect (0x1003 + n * 256) (dtype != f.dtype || bs.length != lineBytes dtype f.w) f.info.pfn 0 s
      if bad then bump (SP_LEN_ERR n) s
      else
        let (old, s) := examDetect (0x1004 + n * 256) (decide (y < f.next.getD r 0)) f.info.pfn 0 s
        if old then bump (SP_SEQ_ERR n) s
        else if good then acceptLine n r y ((unpack dtype f.w bs).map some) s
        else crossRows n (passTo n r y (frameFsw n fswLineCrc s))

end Sys2Proof.Machine
end

