-- ==== Sys2Proof/Machine/IpBase.lean ====
section
/-! DEFINITION. What the stages of an image pipeline share: its state, a frame's parameters and tables, the rounding
to SL20 (R114), table parity (R137, R159), and what a producer does with its ring and its descriptor (R171 to R177). -/

namespace Sys2Proof.Machine

/-- Pipeline `n`. -/
def State.ip (s : State) (n : Nat) : IpSt := lookD s.ips {} n

/-- Changes pipeline `n`. -/
def modIp (n : Nat) (f : IpSt → IpSt) (s : State) : State := { s with ips := put s.ips n (f (s.ip n)) }

/-- Changes the frame at place `k` of pipeline `n`. -/
def modFr (n k : Nat) (f : IpFrame → IpFrame) (s : State) : State :=
  modIp n (fun p => { p with frames := p.frames.modify k f }) s

/-- An SL20 field of the parameters a frame runs under. -/
def IpFrame.sl (fr : IpFrame) (v : Variant) (x : Fld) : Rat := slVal (fr.g v x)

/-- A pointer of the parameters a frame runs under. -/
def IpFrame.ptr (fr : IpFrame) (v : Variant) (lo hi : Nat) : Nat :=
  fr.g v ⟨lo, 31, 0⟩ + fr.g v ⟨hi, 7, 0⟩ * 2 ^ 32

/-- The CFA channel of a pixel (R116). -/
def cfaCh (x y : Nat) : Nat := 2 * (y % 2) + x % 2

/-- The colour of a channel: 0 R, 1 G, 2 B (R116). -/
def cfaColour (cfa c : Nat) : Nat :=
  ((match cfa with
    | 0 => [0, 1, 1, 2]
    | 1 => [1, 0, 2, 1]
    | 2 => [1, 2, 0, 1]
    | _ => [2, 1, 1, 0]) : List Nat).getD c 1

/-! ### Tables -/

/-- The tables by number: the front's, the aberration mesh, and each branch's. -/
def tLIN : Nat := 0
def tCMP : Nat := 1
def tDPC : Nat := 2
def tLSC : Nat := 3
def tCA : Nat := 4
def tSHP (b : Nat) : Nat := 8 + 4 * b
def tLUT3 (b : Nat) : Nat := 9 + 4 * b
def tOLUT (b : Nat) : Nat := 10 + 4 * b
def tCOEF (b : Nat) : Nat := 11 + 4 * b

/-- The commit group of a table (R155). -/
def tabGroup (id : Nat) : Nat := if id < 4 then 0 else if id < 8 then 1 else 2 + (id - 8) / 4

/-- The tables of a commit group, in the order they load. -/
def groupTabs (g : Nat) : List Nat :=
  if g = 0 then [tLIN, tCMP, tDPC, tLSC]
  else if g = 1 then [tCA]
  else [tSHP (g - 2), tLUT3 (g - 2), tOLUT (g - 2), tCOEF (g - 2)]

/-- Pointer registers of a table. -/
def tabPtr (n id : Nat) : Nat × Nat :=
  let b := (id - 8) / 4
  if id = tLIN then (IP_LIN_PTR_LO n, IP_LIN_PTR_HI n)
  else if id = tCMP then (IP_CMP_PTR_LO n, IP_CMP_PTR_HI n)
  else if id = tDPC then (IP_DPC_PTR_LO n, IP_DPC_PTR_HI n)
  else if id = tLSC then (IP_LSC_PTR_LO n, IP_LSC_PTR_HI n)
  else if id < 8 then (IP_CA_PTR_LO n, IP_CA_PTR_HI n)
  else match id % 4 with
    | 0 => (IP_O_SHP_PTR_LO n b, IP_O_SHP_PTR_HI n b)
    | 1 => (IP_O_LUT3_PTR_LO n b, IP_O_LUT3_PTR_HI n b)
    | 2 => (IP_O_OLUT_PTR_LO n b, IP_O_OLUT_PTR_HI n b)
    | _ => (IP_O_COEF_PTR_LO n b, IP_O_COEF_PTR_HI n b)

/-- Bytes of a table (R131, R134, R143, R147, R150, R156, R164); `cnt` is the defect map's count. -/
def tabSize (cnt id : Nat) : Nat :=
  if id = tLIN then 65792
  else if id = tCMP then 512
  else if id = tDPC then 4 * cnt
  else if id = tLSC then 17160
  else if id < 8 then 4488
  else match id % 4 with
    | 1 => 2197000
    | 3 => 2048
    | _ => 49344

/-- Byte `o` of table `id` of a frame. A copy that nothing has loaded holds open values. -/
def tabByte (t : Option Tab) (id o : Nat) : Byte :=
  match t with
  | none => Config.blankByte id o
  | some t => let a := t.at_ + o; if a < Config.romSize then Config.romByte a else lookD t.cells 0 a

/-- The little-endian number of `k` bytes at `o`. -/
def tabNum (t : Option Tab) (id o k : Nat) : Nat := leNat ((List.range k).map (fun i => tabByte t id (o + i)))

/-- The SL20 value in the container at `o` (R113). -/
def tabSl (t : Option Tab) (id o : Nat) : Rat := slVal (tabNum t id o 4 % 2 ^ 20)

/-- The signed 16-bit number at `o`. -/
def tabS16 (t : Option Tab) (id o : Nat) : Int := (BitVec.ofNat 16 (tabNum t id o 2)).toInt

/-- A frame's table. -/
def IpFrame.tab (fr : IpFrame) (id : Nat) : Option Tab := look fr.tabs id

/-- The parts a table's area holds: a table per readout or per channel, or one (R120, R121, R147). -/
def tabParts (id : Nat) : Nat :=
  if id = tLIN || id = tCMP then 4 else if 8 ≤ id && id % 2 = 0 then 3 else 1

/-- Part `c` of a frame's table is in error (R149). -/
def IpFrame.tabBad (fr : IpFrame) (id c : Nat) : Bool := match fr.tab id with
  | some t => bitOf t.bad c
  | none => false

/-! ### Rounding and table reads as examinations -/

/-- Examinations by a detector of what it really saw: the errors, each a detection. -/
def tally (det : Nat) (reals : List Bool) (s : State) : Nat × State :=
  if s.err.slots.isEmpty then
    let k := reals.count true
    (k, detectN k det false 0 0 s)
  else reals.foldl (fun x r =>
    let (e, s) := examDetect det r 0 0 x.2
    (x.1 + (if e then 1 else 0), s)) (0, s)

/-- Values of a stage rounded to SL20: saturations are counted (R114), and in the front examined (R137). -/
def settle (n : Nat) (front : Bool) (cs : List (Nat × Bool)) (s : State) : List Nat × State :=
  let sats := cs.map (·.2)
  let (k, s) := if front then tally (0x1823 + n * 256) sats s else (sats.count true, s)
  (cs.map (·.1), if k = 0 then s else bumpBy (IP_SAT_PIX n) k s)

/-- Rounds a row of values. -/
def settleRow (n : Nat) (front : Bool) (vs : List Rat) (s : State) : List Nat × State := settle n front (vs.map toSl) s

/-- The first of `k` reads that fails parity, by an injected error. -/
def failAt (det : Nat) : Nat → Nat → State → Option Nat × State
  | 0, _, s => (none, s)
  | k + 1, i, s =>
    let (e, s) := examDetect det false 0 0 s
    if e then (some i, s) else failAt det k (i + 1) s

/-- The first of `k` parity-checked reads that fails; only an armed slot can make one. -/
def firstFail (det k : Nat) (s : State) : Option Nat × State :=
  if s.err.slots.any (fun e => e.2.det == det) then failAt det k 0 s else (none, s)

/-- Part `c` of the copy of version `ver` of table `id` is replaced until it is reloaded (R159). -/
def killTabs (id ver c : Nat) (m : List (Nat × Tab)) : List (Nat × Tab) :=
  m.map (fun e => if e.1 == id && e.2.ver == ver then (e.1, { e.2 with dead := e.2.dead ||| 2 ^ c }) else e)

/-- Part `c` of the copy of table `id` that frame `k` uses failed parity: every holder of that copy sees it. -/
def killTab (n k id c : Nat) (s : State) : State :=
  match (s.ip n).frames[k]? with
  | none => s
  | some fr => match fr.tab id with
    | none => s
    | some t => modIp n (fun p => { p with
        tabs := killTabs id t.ver c p.tabs
        frames := p.frames.map (fun f => { f with tabs := killTabs id t.ver c f.tabs }) }) s

/-- Reads of the parts of a table in turn, `per` of each at a pixel: the pixel at which a part's read first fails. -/
def partFails (det per parts : Nat) : Nat → Nat → List (Nat × Nat) → State → List (Nat × Nat) × State
  | 0, _, m, s => (m, s)
  | k + 1, i, m, s =>
    let c := i / per % parts
    if (look m c).isSome then partFails det per parts k (i + 1) m s
    else
      let (e, s) := examDetect det false 0 0 s
      partFails det per parts k (i + 1) (if e then put m c (i / (per * parts)) else m) s

/-- How many of `px` pixels, each reading `per` entries of every part, use each part of table `id` of frame `k` before a
parity error replaces it for the rest of the frame (R159, R185). -/
def goodParts (n k id det px per : Nat) (s : State) : List Nat × State :=
  let parts := tabParts id
  match (s.ip n).frames[k]? with
  | none => (List.replicate parts px, s)
  | some fr =>
    let dead := match fr.tab id with
      | some t => t.dead
      | none => 0
    let m := ((List.range parts).filter (bitOf dead)).map (fun c => (c, 0))
    let (m, s) := if s.err.slots.any (fun e => e.2.det == det) then partFails det per parts (px * per * parts) 0 m s else (m, s)
    let good := (List.range parts).map (fun c => lookD m px c)
    (good, (List.range parts).foldl (fun s c => if good.getD c px < px && !bitOf dead c then killTab n k id c s else s) s)

/-! ### Producers: taps 0 to 3, branches 8 to 11 -/

/-- The ring of a producer. -/
def prodRing (n p : Nat) : RingId := if p < 8 then .tap n p else .branch n (p - 8)

/-- The producer output code of R44. -/
def outCode (p : Nat) : Nat := if p < 8 then p else 0x10 + (p - 8)

/-- Row bytes of a format for width `w` (R167). -/
def rowBytes (fmt w : Nat) : Nat := match fmt with
  | 0x01 => 2 * w
  | 0x02 => 4 * w
  | 0x03 => 4 * w
  | 0x10 => ceilDiv (30 * w) 8
  | 0x11 => ceilDiv (36 * w) 8
  | 0x12 => 6 * w
  | 0x13 => 12 * w
  | 0x20 => ceilDiv (5 * w) 2
  | 0x21 => 3 * w
  | 0x22 => 4 * w
  | _ => 0

/-- Width, height and format of a producer's frames. -/
def IpFrame.shape (fr : IpFrame) (v : Variant) (n p : Nat) : Nat × Nat × Nat :=
  if p < 8 then (fr.info.width, fr.info.height, fr.g v (IP_T_CFG_fmt n p))
  else (fr.g v (IP_O_OUT_WH_ow n (p - 8)), fr.g v (IP_O_OUT_WH_oh n (p - 8)), fr.g v (IP_O_PACK_fmt n (p - 8)))

/-- The slot of a producer holds its frames (R165, R171). -/
def IpFrame.fits (fr : IpFrame) (v : Variant) (n p : Nat) (s : State) : Bool :=
  let (w, h, fmt) := fr.shape v n p
  let r := prodRing n p
  decide (rowBytes fmt w ≤ s.ringStride r) && decide (128 + s.ringStride r * h ≤ s.ringSlot r)

/-- The buffer a frame's producer writes. -/
def IpFrame.buf (fr : IpFrame) (p : Nat) : Option Nat := match look fr.bufs p with
  | some (b, _) => some b
  | none => none

/-- What the frame at hand says of itself to the producers derived from it (R43). -/
def IpFrame.ident (fr : IpFrame) : FrameInfo :=
  { fr.info with fsw := fswOr fr.info.fsw fr.fsw, seq := fr.seq, readouts := fr.present }

/-- The descriptor of a producer's frame (R44). -/
def IpFrame.desc (fr : IpFrame) (v : Variant) (n p b : Nat) (s : State) : List Byte :=
  let (w, h, fmt) := fr.shape v n p
  let r := prodRing n p
  let i := { fr.ident with width := w, height := h }
  let i := if 8 ≤ p && bitOf fr.bcrc (p - 8) then { i with fsw := fswSet fswLineCrc i.fsw } else i
  descBytes i
    { blk := 0x18 + n, out := outCode p, fmt := fmt, addr := s.slotAddr r b + 128, len := s.ringSlot r - 128,
      written := h * rowBytes fmt w, stride := s.ringStride r }

/-- A frame's buffer at producer `p` is whole and its end is known: it is offered with its descriptor (R44, R171). -/
def offerFrame (n k p : Nat) (s : State) : State :=
  match (s.ip n).frames[k]? with
  | none => s
  | some fr => match look fr.bufs p with
    | some (b, true) =>
      if fr.closed then
        let r := prodRing n p
        let s := dmaPut 1 (s.slotAddr r b) (fr.desc s.variant n p b s) s
        modFr n k (fun f => { f with bufs := del f.bufs p }) (ringOffer r s)
      else s
    | _ => s

/-- Marks a producer's buffer whole. -/
def wholeBuf (n k p : Nat) (s : State) : State :=
  modFr n k (fun f => match look f.bufs p with
    | some (b, _) => { f with bufs := put f.bufs p (b, true) }
    | none => f) s

/-- Writes one row of a producer's frame. -/
def writeRow (n k p y : Nat) (bs : List Byte) (s : State) : State :=
  match (s.ip n).frames[k]? with
  | none => s
  | some fr => match fr.buf p with
    | none => s
    | some b => dmaPut 1 (s.slotAddr (prodRing n p) b + 128 + y * s.ringStride (prodRing n p)) bs s

/-- SL20 codes in their containers (R113). -/
def slBytes (cs : List Nat) : List Byte := cs.flatMap (leBytes 4)

end Sys2Proof.Machine
end

