-- ==== Sys2Proof/Machine/IpStat.lean ====
section
/-! DEFINITION. The statistics records of a frame (R178 to R184, R513), and the offer of a producer's buffer, which waits
for them (R177). -/

namespace Sys2Proof.Machine

/-! ### Statistics (R178 to R183) -/

/-- Writes a record, body first and header last; a write refused leaves it out (R183, R513). -/
def writeRecord (a : Nat) (head body : List Byte) (s : State) : Bool × State :=
  let head := head ++ leBytes 4 (crc32 (body ++ head))
  let (ok1, s) := dmaWrite 3 (a + 64) body s
  let (ok2, s) := dmaWrite 3 a head s
  (ok1 && ok2, s)

/-- The first 60 bytes of a record's header (R182). -/
def recHead (n kind branch : Nat) (fr : IpFrame) (rowsUsed rowsWin pixels zx zy x0 y0 w h : Nat) : List Byte :=
  let i := fr.ident
  leBytes 2 kind ++ leBytes 1 (0x18 + n) ++ leBytes 1 branch ++ leBytes 4 i.pfn ++ leBytes 4 i.rfn ++
    leBytes 2 i.sid ++ leBytes 2 i.seq ++ leBytes 4 i.fsw ++ leBytes 2 rowsUsed ++ leBytes 2 rowsWin ++
    leBytes 4 pixels ++ leBytes 1 zx ++ leBytes 1 zy ++ leBytes 2 0 ++ leBytes 2 x0 ++ leBytes 2 y0 ++ leBytes 2 w ++
    leBytes 2 h ++ leBytes 4 (if fr.suspect then 1 else 0) ++ leBytes 16 0

/-- The histogram bin of a value (R179). -/
def histBin (c : Nat) : Nat := if bitOf c 19 || c % 2 ^ 19 == 0 then 0 else 16 * bitsOf c 18 13 + bitsOf c 12 9

/-- A zone's mean of some channels, as an SL20 code (R180). -/
def zoneMean (vals : List Nat) : Nat :=
  if vals.isEmpty then 0
  else (toSl (f64 ((vals.foldl (fun a c => f64 (a + slVal c)) 0) / vals.length))).1

/-- One zone entry (R180, R181): the pixels of a zone with their colour. -/
def zoneEntry (clip : Rat) (px : List (Nat × Nat)) : List Byte :=
  let of (k : Nat) : List Nat := (px.filter (fun e => e.1 == k)).map (·.2)
  leBytes 4 (zoneMean (of 0)) ++ leBytes 4 (zoneMean (of 1)) ++ leBytes 4 (zoneMean (of 2)) ++
    leBytes 4 ((px.filter (fun e => decide (clip ≤ slVal e.2))).length) ++ leBytes 4 px.length ++ leBytes 12 0

/-- The address of a frame's statistics slot; none without slots (R181). -/
def statSlot (v : Variant) (n : Nat) (fr : IpFrame) : Option Nat :=
  let slots := fr.g v (IP_ST_SLOTS_slots n)
  if slots = 0 then none else some (fr.ptr v (IP_ST_PTR_LO n) (IP_ST_PTR_HI n) + fr.info.pfn % slots * 0x20000)

/-- Writes the T2 records of frame `k` and raises STATS_READY (R178 to R183). -/
def statsWrite (n k : Nat) (s : State) : State :=
  match (s.ip n).frames[k]? with
  | none => s
  | some fr =>
    let v := s.variant
    let s := modFr n k (fun f => { f with statsDue := false }) s
    match statSlot v n fr with
    | none => s
    | some a =>
      let (x0, y0) := (fr.g v (IP_ST_WIN_XY_x0 n), fr.g v (IP_ST_WIN_XY_y0 n))
      let (w, h) := (fr.g v (IP_ST_WIN_WH_w n), fr.g v (IP_ST_WIN_WH_h n))
      let cols := (List.range w).map (· + x0) |>.filter (· < fr.info.width)
      let rows := (List.range h).map (· + y0) |>.filter (· < fr.info.height)
      let used := rows.filter (fun y => !fr.filled.contains y)
      let code (x y : Nat) : Nat := (fr.plane.getD y #[]).getD x 0
      let pixels := used.length * cols.length
      let hist := fr.g v (IP_ST_CFG_hist_en n) != 0 && w != 0 && h != 0
      let (zx, zy) := (fr.g v (IP_ST_CFG_zx n), fr.g v (IP_ST_CFG_zy n))
      let zone := fr.g v (IP_ST_CFG_zone_en n) != 0 && w != 0 && h != 0 && zx != 0 && zy != 0 &&
        decide (2 ≤ w / zx) && decide (2 ≤ h / zy)
      let (okH, s) := if hist then
          let counts := used.foldl (fun m y => cols.foldl (fun m x =>
            let i := cfaCh x y * 1024 + histBin (code x y)
            put m i (lookD m 0 i + 1)) m) ([] : List (Nat × Nat))
          writeRecord a (recHead n 1 0xFF fr used.length rows.length pixels 0 0 x0 y0 w h)
            ((List.range 4096).flatMap (fun i => leBytes 4 (lookD counts 0 i))) s
        else (false, s)
      let (okZ, s) := if zone then
          let mono := fr.g v (IP_FRONT_CFG_dms_mode n) == 1
          let cfa := fr.g v (IP_FRONT_CFG_cfa n)
          let colour (x y : Nat) : Nat := if mono then 1 else cfaColour cfa (cfaCh x y)
          let clip := fr.sl v (IP_ST_CLIP_level n)
          let body := (List.range zy).flatMap (fun j => (List.range zx).flatMap (fun i =>
            let (xa, xb) := (x0 + i * w / zx, x0 + (i + 1) * w / zx)
            let (ya, yb) := (y0 + j * h / zy, y0 + (j + 1) * h / zy)
            zoneEntry clip ((used.filter (fun y => ya ≤ y && y < yb)).flatMap (fun y =>
              (cols.filter (fun x => xa ≤ x && x < xb)).map (fun x => (colour x y, code x y))))))
          writeRecord (a + 0x4040) (recHead n 2 0xFF fr used.length rows.length pixels zx zy x0 y0 w h) body s
        else (false, s)
      let told (i : FrameInfo) : FrameInfo := { i with hist := if okH then a else 0, zone := if okZ then a + 0x4040 else 0 }
      let s := modFr n k (fun f => { f with info := told f.info }) s
      let s := { s with feeds := match look s.feeds n with
        | some fs => Machine.put s.feeds n (fs.map (fun f => if f.info.pfn == fr.info.pfn then { f with info := told f.info } else f))
        | none => s.feeds }
      if okH || okZ then raise (0x18 + n) 0x40 (fr.info.pfn % 65536) s else s

/-- Writes the luma record of frame `k` and raises LUMA_READY (R183, R184). -/
def lumaWrite (n k : Nat) (s : State) : State :=
  match (s.ip n).frames[k]? with
  | none => s
  | some fr => match fr.lumaDue with
    | none => s
    | some (b, bins, ow, oh) =>
      let v := s.variant
      let s := modFr n k (fun f => { f with lumaDue := none }) s
      match statSlot v n fr with
      | none => s
      | some a =>
        let (ok, s) := writeRecord (a + 0x1C080) (recHead n 3 b fr oh oh (ow * oh) 0 0 0 0 ow oh)
          ((List.range 1024).flatMap (fun i => leBytes 4 (lookD bins 0 i))) s
        if ok then
          raise (0x18 + n) 0x41 (fr.info.pfn % 65536)
            (modFr n k (fun f => { f with info := { f.info with luma := a + 0x1C080 } }) s)
        else s

/-- A frame's buffer at a producer is offered; the frame's records are written first, so that every descriptor carries
their addresses (R44, R177). -/
def offerDue (n k p : Nat) (s : State) : State :=
  match (s.ip n).frames[k]? with
  | none => s
  | some fr =>
    let s := if fr.statsDue then statsWrite n k s else s
    offerFrame n k p (lumaWrite n k s)

/-- The records of the frame of a PFN are written, if they are due. -/
def statsOf (n pfn : Nat) (s : State) : State :=
  match (s.ip n).frames.findIdx? (fun f => f.info.pfn == pfn && f.statsDue) with
  | some k => statsWrite n k s
  | none => s

end Sys2Proof.Machine
end

