-- ==== Sys2Proof/Machine/IpFront.lean ====
section
/-! DEFINITION. The front of an image pipeline, row by row: unpack, companding decode, linearisation, merge, black
level, optical-black tracking and column trim (R119 to R130), and the taps T0 and T1 (R175 to R177). -/

namespace Sys2Proof.Machine

/-- A row of one readout: its codes, and which pixels are filled under fill mode 0b0 (R119, R122). -/
structure RowCodes where
  codes : List Nat
  marks : List Bool

/-- The fill code of a pixel, saturated to the depth (R119). -/
def fillCode (v : Variant) (n : Nat) (fr : IpFrame) (x y : Nat) : Nat :=
  min (if fr.fillMode = 0 then fr.g v (IP_BLK_RAW_code n (cfaCh x y)) else fr.fillVal) (2 ^ fr.depth - 1)

/-- Unpack of one readout of row `y`; `none` if the port passed it as missing (R119). -/
def unpackRow (v : Variant) (n : Nat) (fr : IpFrame) (y : Nat) (data : Option Codes) (filled : Bool) : Option RowCodes :=
  let w := fr.info.width
  let px (x : Nat) : Option Nat := match data with
    | some l => l.getD x none
    | none => none
  if data.isNone && !filled then none
  else some
    ⟨(List.range w).map (fun x => match px x with
        | some c => c
        | none => fillCode v n fr x y),
     (List.range w).map (fun x => (px x).isNone && fr.fillMode == 0)⟩

/-- The companding segment of readout `r` at index `k`: its first code, shift, expanded value and valid bit. -/
def segment (t : Option Tab) (r k : Nat) : Nat × Nat × Nat × Bool :=
  let w0 := tabNum t tCMP (r * 128 + k * 8) 4
  (bitsOf w0 19 0, bitsOf w0 23 20, tabNum t tCMP (r * 128 + k * 8 + 4) 4 % 2 ^ 24, bitOf w0 31)

/-- The segment a code selects: the valid one with the largest first code not above it, the lowest index of a tie. -/
def segmentOf (t : Option Tab) (r c : Nat) : Option (Nat × Nat × Nat × Bool) :=
  ((List.range 16).map (segment t r)).foldl (fun (best : Option (Nat × Nat × Nat × Bool)) g =>
    if g.2.2.2 && decide (g.1 ≤ c) then
      match best with
      | some b => if b.1 < g.1 then some g else best
      | none => some g
    else best) none

/-- Companding decode (R120). `first` uses the table's entry 0 after a parity error (R137). -/
def expand (bits : Nat) (t : Option Tab) (r : Nat) (first : Bool) (c : Nat) : Nat :=
  match if first then some (segment t r 0) else segmentOf t r c with
  | none => 0
  | some (i, sh, o, valid) => if valid && decide (i ≤ c) then min (o + (c - i) * 2 ^ sh) (2 ^ bits - 1) else 0

/-- Linearisation by table (R121). -/
def linear (t : Option Tab) (r u : Nat) : Rat :=
  let i := u / 4096
  let f := u / 16 % 256
  let e (i : Nat) : Rat := tabSl t tLIN (r * 0x4040 + 4 * i)
  fadd32 (e i) (fdiv32 (fmul32 (fsub32 (e (i + 1)) (e i)) f) 256)

/-- The optical-black estimate in force for a channel (R125). -/
def obOf (n : Nat) (fr : IpFrame) (c : Nat) (s : State) : Rat :=
  if fr.g s.variant (IP_OB_CFG_en n) = 0 then 0 else slVal (lookD (s.ip n).ob 0 c)

/-- The black level in force for a channel (R122, R125). -/
def blackOf (n : Nat) (fr : IpFrame) (c : Nat) (s : State) : Rat :=
  fadd32 (fr.sl s.variant (IP_BLK_level n c)) (obOf n fr c s)

/-- How many of `px` pixels of row `y` use front table `id` before a read fails in this frame (R137). `key` tells apart
the tables of the readouts that fail apart. From the pixel whose read failed the replacement stands to the frame's end. -/
def frontReads (n k id key y det px per : Nat) (s : State) : Nat × State :=
  match (s.ip n).frames[k]? with
  | none => (px, s)
  | some fr =>
    match look fr.failed (id + 8 * key) with
    | some (y0, x0) => (if y0 = y then min x0 px else 0, s)
    | none => match firstFail det (px * per) s with
      | (none, s) => (px, s)
      | (some i, s) => (i / floor1 per, modFr n k (fun f => { f with
          failed := put f.failed (id + 8 * key) (y, i / floor1 per), fsw := fswSet fswLineCrc f.fsw }) s)

/-- Companding and linearisation of one readout of row `y` (R120 to R122). -/
def linRow (n k r y : Nat) (fr : IpFrame) (row : RowCodes) (s : State) : List Nat × State :=
  let v := s.variant
  let w := row.codes.length
  let cmp := fr.g v (IP_FRONT_CFG_cmp_en n) != 0 && !fr.tabBad tCMP r
  let byp := fr.g v (IP_FRONT_CFG_lin_byp n) != 0 || fr.tabBad tLIN r
  let bits := if cmp then fr.g v (IP_FRONT_CFG_cmp_bits n) else fr.depth
  let (cGood, s) := if cmp then frontReads n k tCMP r y (0x1820 + n * 256) w 1 s else (w, s)
  let (lGood, s) := if byp then (w, s) else frontReads n k tLIN r y (0x1820 + n * 256) w 2 s
  let px (x : Nat) : Rat :=
    let c := row.codes.getD x 0
    if row.marks.getD x false then blackOf n fr (cfaCh x y) s
    else
      let e := if cmp then expand bits (fr.tab tCMP) r (decide (cGood ≤ x)) c else c
      let u := e * 2 ^ (24 - bits)
      if byp then (u : Rat) / 16777216
      else if lGood ≤ x then tabSl (fr.tab tLIN) tLIN (r * 0x4040)
      else linear (fr.tab tLIN) r u
  settleRow n true ((List.range w).map px) s

/-- Merge of the present readouts of one pixel (R123): pairs of readout index and value. -/
def mergePx (v : Variant) (n : Nat) (fr : IpFrame) (ys : List (Nat × Rat)) : Rat :=
  let wt (e : Nat × Rat) : Rat :=
    let y := e.2
    let hi := fr.sl v (IP_MRG_SAT_HI_sat_hi n e.1)
    let lo := fr.sl v (IP_MRG_SAT_LO_sat_lo n e.1)
    let vr := max (fadd32 (fr.sl v (IP_MRG_A_a n e.1)) (fmul32 (fr.sl v (IP_MRG_B_b n e.1)) (max y 0))) (pow2 (-30))
    let sr := if hi ≤ lo then (if y < hi then 1 else 0)
      else min (max (fdiv32 (fsub32 hi y) (fsub32 hi lo)) 0) 1
    fmul32 (fdiv32 1 vr) sr
  let ws := ys.map wt
  if ws.all (· == 0) then
    match ys with
    | [] => 0
    | a :: t => (t.foldl (fun q e =>
        if fr.sl v (IP_MRG_SAT_HI_sat_hi n q.1) < fr.sl v (IP_MRG_SAT_HI_sat_hi n e.1) then e else q) a).2
  else fdiv32 (fsum32 (List.zipWith (fun w e => fmul32 w e.2) ws ys)) (fsum32 ws)

/-- Merge of a row (R123): per readout its SL20 row, if present. -/
def mergeRow (n : Nat) (fr : IpFrame) (rows : List (Option (List Nat))) (s : State) : List Nat × State :=
  if fr.readouts = 1 then (((rows.getD 0 none).getD []), s)
  else
    let rats := rows.map (fun o => o.map (fun l => (l.map slVal).toArray))
    let px (x : Nat) : Rat := mergePx s.variant n fr ((List.range fr.readouts).filterMap (fun r =>
      match rats.getD r none with
      | some l => some (r, l.getD x 0)
      | none => none))
    settleRow n true ((List.range fr.info.width).map px) s

/-- The row's status byte, and what a degraded row leaves (R124). -/
def mergeNote (n k y : Nat) (present : Nat) (s : State) : State :=
  match (s.ip n).frames[k]? with
  | none => s
  | some fr =>
    let v := s.variant
    let slots := fr.g v (IP_MSTAT_SLOTS_slots n)
    let s := if slots = 0 then s
      else dmaPut 3 (fr.ptr v (IP_MSTAT_PTR_LO n) (IP_MSTAT_PTR_HI n) + fr.info.pfn % slots * fr.info.height + y)
        [BitVec.ofNat 8 present] s
    if present = 2 ^ fr.readouts - 1 then s
    else
      let s := bump (IP_MRG_ROWS n) s
      let s := if fr.degraded then s else raise (0x18 + n) 0x20 (fr.info.pfn % 65536) s
      modFr n k (fun f => { f with degraded := true, present := f.present &&& present, fsw := fswSet fswMergeDegraded f.fsw }) s

/-- Adds a qualifying optical-black row to the sums, in binary64 (R126). -/
def obAdd (n k y : Nat) (row : List Nat) (s : State) : State :=
  modFr n k (fun f =>
    let sums := (List.range row.length).foldl (fun m x =>
      let c := cfaCh x y
      let (a, i) := lookD m (0, 0) c
      put m c (f64 (a + slVal (row.getD x 0)), i + 1)) f.obSum
    { f with obSum := sums }) s

/-- The end of the last optical-black row: each channel with a mean updates its estimate (R126, R127). -/
def obUpdate (n k : Nat) (s : State) : State :=
  match (s.ip n).frames[k]? with
  | none => s
  | some fr =>
    (List.range 4).foldl (fun s c =>
      match look fr.obSum c with
      | some (sum, cnt) =>
        if cnt = 0 then s
        else
          let mu := f32 (f64 (sum / cnt))
          let ob := slVal (lookD (s.ip n).ob 0 c)
          let est := if bitOf (s.ip n).direct c then mu
            else fadd32 ob (fdiv32 (fsub32 mu ob) (2 ^ fr.g s.variant (IP_OB_CFG_k n)))
          let (codes, s) := settleRow n true [est] s
          modIp n (fun p => { p with direct := p.direct &&& (15 - 2 ^ c), ob := put p.ob c (codes.getD 0 0) }) s
      | none => s) s

/-- A frame reaches row end: the registers show the estimates in force for it (R127). -/
def obShow (n : Nat) (s : State) : State :=
  (List.range 4).foldl (fun s c => setF (IP_OB_EST_est n c) (lookD (s.ip n).ob 0 c) s) s

/-- Black level and column trim of a merged row (R122, R125, R128). -/
def trimRow (n y : Nat) (fr : IpFrame) (marks : List Bool) (row : List Nat) (s : State) : List Nat × State :=
  let v := s.variant
  let (row, s) :=
    if fr.g v (IP_FRONT_CFG_blk_byp n) != 0 then (row, s)
    else
      let lv := (List.range 4).map (fun c => blackOf n fr c s)
      let cs := (List.range row.length).map (fun x => toSl (fsub32 (slVal (row.getD x 0)) (lv.getD (cfaCh x y) 0)))
      let (done, s) := settle n true ((List.range row.length).filterMap (fun x =>
        if marks.getD x false then none else cs[x]?)) s
      let _ := done
      ((List.range row.length).map (fun x => if marks.getD x false then 0 else (cs.getD x (0, false)).1), s)
  if fr.calOn then
    let corr (x : Nat) : Rat := match fr.calSet with
      | some k => slVal (Config.calCorr k x).toNat
      | none => 0
    settleRow n true ((List.range row.length).map (fun x => fsub32 (slVal (row.getD x 0)) (corr x))) s
  else (row, s)

/-! ### Taps T0 and T1, and what every tap shares (R173, R175, R176) -/

/-- The raw taps that run under a frame's parameters: the two lowest enabled (R175). -/
def tapsOn (v : Variant) (n : Nat) (fr : IpFrame) : List Nat :=
  ((List.range 4).filter (fun t => fr.g v (IP_T_CFG_en n t) != 0)).take 2

/-- The tap that feeds the Photre encoder (R175). -/
def tapToPrc (v : Variant) (n : Nat) (fr : IpFrame) : Option Nat :=
  (tapsOn v n fr).find? (fun t => fr.g v (IP_T_CFG_dest n t) != 0)

/-- A tap's format is one its point writes (R167, R176). -/
def tapFmtOk (t fmt : Nat) : Bool :=
  match t with
  | 0 => fmt == 1 || fmt == 2
  | 3 => fmt == 0x13
  | _ => fmt == 3

/-- Producer `p` of frame `k` starts: it takes its credit or drops the frame (R11, R173). An earlier frame's buffer
is offered first. -/
def startProd (n k p : Nat) (s : State) : State :=
  match (s.ip n).frames[k]? with
  | none => s
  | some fr =>
    if fr.started.contains p then s
    else
      let s := (List.range k).foldl (fun s j => match ((s.ip n).frames[j]?).bind (fun f => look f.bufs p) with
        | some (_, true) => offerDue n j p s
        | _ => s) s
      let s := modFr n k (fun f => { f with started := p :: f.started }) s
      match ringTake (prodRing n p) s with
      | (.buf b, s) => modFr n k (fun f => { f with bufs := put f.bufs p (b, false) }) s
      | (.dropped, s) => raise (0x18 + n) 0x44 (outCode p) s
      | (.off, s) => s

/-- A tap of frame `k` starts, if it writes memory and its configuration is sound (R171, R175, R176). -/
def startTap (n k t : Nat) (s : State) : State :=
  match (s.ip n).frames[k]? with
  | none => s
  | some fr =>
    let v := s.variant
    let fmt := fr.g v (IP_T_CFG_fmt n t)
    if (tapsOn v n fr).contains t && fr.g v (IP_T_CFG_dest n t) == 0 && !fr.started.contains t then
      if tapFmtOk t fmt && fr.fits v n t s then
        let s := if t = 0 && fmt == 1 && decide (16 < fr.depth) then flag (IP_T_STATUS_bad_write n 0) s else s
        startProd n k t s
      else modFr n k (fun f => { f with started := t :: f.started }) s
    else s

/-- A row at tap `t`: to its ring, or to the Photre encoder. -/
def tapRow (n k t y : Nat) (row : List Nat) (s : State) : State :=
  match (s.ip n).frames[k]? with
  | none => s
  | some fr =>
    let v := s.variant
    let s := if t = 0 && y = 0 && (tapsOn v n fr).contains 0 && decide (fr.readouts ≤ fr.g v (IP_T_CFG_readout n 0))
      then flag (IP_T_STATUS_bad_write n 0) s else s
    if tapToPrc v n fr == some t && s.domOn dPRC then
      let fs := lookD s.feeds [] n
      let fs := if y = 0 then fs ++ [{ info := fr.ident, tap := t, depth := fr.depth, cfa := fr.g v (IP_FRONT_CFG_cfa n), readout := fr.g v (IP_T_CFG_readout n 0) }] else fs
      { s with feeds := put s.feeds n (match fs.getLast? with
        | some f => if f.info.pfn == fr.info.pfn && !f.final then fs.dropLast ++ [{ f with rows := f.rows.push row.toArray }] else fs
        | none => fs) }
    else
      let s := if y = 0 then startTap n k t s else s
      if t = 0 && fr.g v (IP_T_CFG_fmt n 0) == 1 then writeRow n k t y (row.flatMap (leBytes 2)) s
      else writeRow n k t y (slBytes row) s

/-- One row through unpack, decode, linearisation, merge, black level and trim. -/
def frontRow (n k : Nat) (data : List (Option Codes)) (filled : Bool) (s : State) : State :=
  match (s.ip n).frames[k]? with
  | none => s
  | some fr =>
    let v := s.variant
    let y := fr.y
    let rs := (List.range fr.readouts).map (fun r => unpackRow v n fr y (data.getD r none) filled)
    let t0 := fr.g v (IP_T_CFG_readout n 0)
    let s := tapRow n k 0 y (match rs.getD t0 none with
      | some r => r.codes
      | none => (List.range fr.info.width).map (fun x => fillCode v n fr x y)) s
    let (lin, s) := rs.foldl (fun (x : List (Option (List Nat)) × State) r =>
      match r with
      | none => (x.1 ++ [none], x.2)
      | some rc => let (l, s) := linRow n k x.1.length y fr rc x.2; (x.1 ++ [some l], s)) ([], s)
    let present := (List.range fr.readouts).foldl (fun m r => if (rs.getD r none).isSome then m + 2 ^ r else m) 0
    let marks := match rs.findSome? id with
      | some r => r.marks
      | none => []
    let degraded := present != 2 ^ fr.readouts - 1
    let s := mergeNote n k y present s
    let (m, s) := mergeRow n fr lin s
    let s := tapRow n k 1 y m s
    let (row, s) := trimRow n y fr marks m s
    let st := fr.g v (IP_OB_ROWS_start n)
    let en := fr.g v (IP_OB_ROWS_end n)
    let ob := fr.g v (IP_OB_CFG_en n) != 0
    let s := if ob && decide (st ≤ y) && decide (y < en) && !filled && !degraded then obAdd n k y m s else s
    let s := modFr n k (fun f => { f with
      y := y + 1, plane := f.plane.push row.toArray, filled := if filled then y :: f.filled else f.filled
      learn := f.learn || (!filled && !degraded) }) s
    let s := if ob && decide (st < en) && y + 1 == en && !fr.cut then obUpdate n k s else s
    if y + 1 == floor1 en && !fr.cut then obShow n s else s

end Sys2Proof.Machine
end

