-- ==== Sys2Proof/Machine/IpColour.lean ====
section
/-! DEFINITION. The stages of an image pipeline that need a pixel's neighbours: defect correction (R131 to R133), lens
shading and white balance (R134, R135), demosaic (R136), noise reduction (R141, R142), lateral aberration (R143, R144)
and the working-space matrix (R145), each over a whole frame. -/

namespace Sys2Proof.Machine

/-- A plane of values. -/
abbrev Plane := Array (Array Rat)

/-- The values of a plane of SL20 codes. -/
def planeVals (p : Array (Array Nat)) : Plane := p.map (·.map slVal)

/-- The value at a position, reflected into the plane (R117). -/
def Plane.at (p : Plane) (x y : Int) : Rat :=
  let row := p.getD (reflect p.size y) #[]
  row.getD (reflect row.size x) 0

/-- The offsets of the eight same-channel neighbours, row by row (R132). -/
def ring8 : List (Int × Int) := [(-2, -2), (0, -2), (2, -2), (-2, 0), (2, 0), (-2, 2), (0, 2), (2, 2)]

/-! ### Defect correction -/

/-- The entries of the static map that are accepted, as (row, column), and what the others report (R131). -/
def acceptMap (n k : Nat) (fr : IpFrame) (s : State) : List (Nat × Nat) × State :=
  let cnt := fr.g s.variant (IP_DPC_CNT_count n)
  let t := fr.tab tDPC
  let (acc, _, skips, s) := (List.range cnt).foldl (fun (x : List (Nat × Nat) × Option Nat × Nat × State) i =>
    let (acc, last, skips, s) := x
    let e := tabNum t tDPC (4 * i) 4
    let (r, c) := (e / 65536, e % 32768)
    let stale := match last with
      | some l => decide (e ≤ l)
      | none => false
    let (bad, s) := examDetect (0x1822 + n * 256) (stale || decide (fr.info.height ≤ r) || decide (fr.info.width ≤ c)) 0 0 s
    if bad then (acc, last, skips + 1, s) else ((r, c) :: acc, some e, skips, s)) ([], none, 0, s)
  let _ := k
  if skips = 0 then (acc, s)
  else (acc, raise (0x18 + n) 0x23 (fr.info.pfn % 65536) (bumpBy (IP_DPC_SKIP n) skips s))

/-- The mean of a mapped pixel's usable neighbours, or none (R132). -/
def staticMean (p : Plane) (mapped : Nat → Nat → Bool) (x y : Nat) : Option Rat :=
  let h := p.size
  let w := (p.getD 0 #[]).size
  let use := ring8.filterMap (fun (dx, dy) =>
    let (nx, ny) := (reflect w (x + dx), reflect h (y + dy))
    if mapped nx ny then none else some ((p.getD ny #[]).getD nx 0))
  if use.isEmpty then none else some (fdiv32 (fsum32 use) use.length)

/-- The column an orphan at `x` copies from: the nearest to the left, else to the right, of its channel (R132). -/
def orphanFrom (w : Nat) (orphan : Nat → Bool) (x : Nat) : Option Nat :=
  let left := ((List.range (x / 2)).map (fun i => x - 2 * (i + 1))).find? (fun c => !orphan c)
  match left with
  | some c => some c
  | none => ((List.range w).map (fun i => x + 2 * (i + 1))).find? (fun c => decide (c < w) && !orphan c)

/-- The static correction of a plane (R132): each mapped pixel's new code, by (row, column), with the saturation of
the conversion to SL20 where one is made: a code that is copied or kept is none. -/
def staticFix (p : Plane) (codes : Array (Array Nat)) (acc : List (Nat × Nat)) : List ((Nat × Nat) × Nat × Option Bool) :=
  let w := (p.getD 0 #[]).size
  let mapped (x y : Nat) : Bool := acc.contains (y, x)
  let orphan (x y : Nat) : Bool := mapped x y && (staticMean p mapped x y).isNone
  let own (x y : Nat) : Nat × Bool := match staticMean p mapped x y with
    | some m => toSl m
    | none => ((codes.getD y #[]).getD x 0, false)
  acc.reverse.map (fun (y, x) =>
    ((y, x), if orphan x y then
      match orphanFrom w (fun c => orphan c y) x with
      | some c => (if mapped c y then (own c y).1 else (codes.getD y #[]).getD c 0, none)
      | none => ((codes.getD y #[]).getD x 0, none)
    else ((own x y).1, some (own x y).2)))

/-- The fourth and fifth smallest of eight values, averaged (R133). -/
def median8 (l : List Rat) : Rat :=
  let t := l.mergeSort (· ≤ ·)
  fdiv32 (fadd32 (t.getD 3 0) (t.getD 4 0)) 2

/-- The dynamic correction of one pixel: its replacement if it is hot or cold (R133). -/
def dynFix (p : Plane) (tAbs tRel : Rat) (x y : Nat) : Option Rat :=
  let ns := ring8.map (fun (dx, dy) => p.at (x + dx) (y + dy))
  let me := (p.getD y #[]).getD x 0
  let mx := ns.foldl max (ns.getD 0 0)
  let mn := ns.foldl min (ns.getD 0 0)
  let hot := fadd32 tAbs (fmul32 tRel (absQ mx)) < fsub32 me mx
  let cold := fadd32 tAbs (fmul32 tRel (absQ mn)) < fsub32 mn me
  if hot || cold then some (median8 ns) else none

/-- Replaces the codes at listed places. -/
def patch (codes : Array (Array Nat)) (fix : List ((Nat × Nat) × Nat)) : Array (Array Nat) :=
  fix.foldl (fun c e => c.modify e.1.1 (fun r => r.modify e.1.2 (fun _ => e.2))) codes

/-- Defect correction of frame `k` (R131 to R133). -/
def dpcFrame (n k : Nat) (s : State) : State :=
  match (s.ip n).frames[k]? with
  | none => s
  | some fr =>
    let v := s.variant
    let st := fr.g v (IP_FRONT_CFG_dpc_st_en n) != 0 && !fr.tabBad tDPC 0
    let dyn := fr.g v (IP_FRONT_CFG_dpc_dyn_en n) != 0
    let (acc, s) := if st then acceptMap n k fr s else ([], s)
    let fix := staticFix (planeVals fr.plane) fr.plane acc
    let (_, s) := settle n true (fix.filterMap (fun e => e.2.2.map (fun sat => (e.2.1, sat)))) s
    let plane := patch fr.plane (fix.map (fun e => (e.1, e.2.1)))
    let p := planeVals plane
    let dynFixes : List ((Nat × Nat) × Nat × Bool) := if dyn then
        (List.range fr.info.height).flatMap (fun y =>
          if fr.filled.contains y then []
          else (List.range fr.info.width).filterMap (fun x =>
            if acc.contains (y, x) then none
            else (dynFix p (fr.sl v (IP_DPC_THR_t_abs n)) ((fr.g v (IP_DPC_REL_t_rel n) : Rat) / 256) x y).map
              (fun r => ((y, x), toSl r))))
      else []
    let (_, s) := settle n true (dynFixes.map (·.2)) s
    let s := wr (IP_DPC_DYN n) (BitVec.ofNat 32 dynFixes.length) s
    modFr n k (fun f => { f with plane := patch plane (dynFixes.map (fun e => (e.1, e.2.1))) }) s

/-! ### Lens shading, white balance, demosaic -/

/-- A mesh position: node index and fraction, for pixel `x` of `w` over `nodes` intervals (R134, R143). -/
def meshPos (nodes w x : Nat) : Nat × Rat :=
  let g : Rat := (x * nodes : Nat) / ((w - 1 : Nat) : Rat)
  let i := min g.floor.toNat (nodes - 1)
  (i, f32 (g - i))

/-- Interpolation of four node values (R134). -/
def bilinear (fx fy n00 n10 n01 n11 : Rat) : Rat :=
  let gx := fsub32 1 fx
  fadd32 (fmul32 (fsub32 1 fy) (fadd32 (fmul32 gx n00) (fmul32 fx n10)))
    (fmul32 fy (fadd32 (fmul32 gx n01) (fmul32 fx n11)))

/-- The shading gain of a pixel (R134). -/
def lscGain (t : Option Tab) (w h x y : Nat) : Rat :=
  let (ix, fx) := meshPos 64 w x
  let (iy, fy) := meshPos 32 h y
  let node (i j : Nat) : Rat := (tabNum t tLSC (((cfaCh x y * 33 + j) * 65 + i) * 2) 2 : Rat) / 4096
  bilinear fx fy (node ix iy) (node (ix + 1) iy) (node ix (iy + 1)) (node (ix + 1) (iy + 1))

/-- Applies a stage to every row of a CFA plane. -/
def cfaStage (n : Nat) (f : Nat → Nat → Rat → Rat) (p : Array (Array Nat)) (s : State) : Array (Array Nat) × State :=
  (List.range p.size).foldl (fun (x : Array (Array Nat) × State) y =>
    let row := p.getD y #[]
    let (r, s) := settleRow n true ((List.range row.size).map (fun i => f i y (slVal (row.getD i 0)))) x.2
    (x.1.push r.toArray, s)) (#[], s)

/-- Green at an R or B site (R136 step 1), as binary32. -/
def greenAt (p : Plane) (rho : Rat) (x y : Int) : Rat :=
  let c := p.at x y
  let est (a b a2 b2 : Rat) : Rat × Rat :=
    let curve := fsub32 (fsub32 (fmul32 2 c) a2) b2
    (fadd32 (fdiv32 (fadd32 a b) 2) (fdiv32 curve 4), fadd32 (absQ (fsub32 a b)) (absQ curve))
  let (hG, dH) := est (p.at (x - 1) y) (p.at (x + 1) y) (p.at (x - 2) y) (p.at (x + 2) y)
  let (vG, dV) := est (p.at x (y - 1)) (p.at x (y + 1)) (p.at x (y - 2)) (p.at x (y + 2))
  if fmul32 16 dH < fmul32 rho dV then hG
  else if fmul32 16 dV < fmul32 rho dH then vG
  else fdiv32 (fadd32 hG vG) 2

/-- Bayer demosaic of a pixel (R136): `g` is the plane of green values before rounding. -/
def bayerPx (cfa : Nat) (p g : Plane) (x y : Nat) : Rat × Rat × Rat :=
  let (xi, yi) : Int × Int := (x, y)
  let gr := g.at xi yi
  let diff (a b : Int) : Rat := fsub32 (p.at a b) (g.at a b)
  let col := cfaColour cfa (cfaCh x y)
  let me := p.at xi yi
  let mean2 (a b : Rat) : Rat := fadd32 gr (fdiv32 (fadd32 a b) 2)
  if col = 1 then
    let row := mean2 (diff (xi - 1) yi) (diff (xi + 1) yi)
    let colm := mean2 (diff xi (yi - 1)) (diff xi (yi + 1))
    if cfaColour cfa (cfaCh (x + 1) y) = 0 then (row, gr, colm) else (colm, gr, row)
  else
    let other := fadd32 gr (fdiv32 (fsum32 [diff (xi - 1) (yi - 1), diff (xi + 1) (yi - 1), diff (xi - 1) (yi + 1),
      diff (xi + 1) (yi + 1)]) 4)
    if col = 0 then (me, gr, other) else (other, gr, me)

/-- Rounds a frame of RGB values. -/
def settleRgb (n : Nat) (front : Bool) (h w : Nat) (f : Nat → Nat → Rat × Rat × Rat) (s : State) : Array (Array Px) × State :=
  (List.range h).foldl (fun (a : Array (Array Px) × State) y =>
    let (cs, s) := settleRow n front ((List.range w).flatMap (fun x => let (r, g, b) := f x y; [r, g, b])) a.2
    let cs := cs.toArray
    (a.1.push ((List.range w).map (fun x => (cs.getD (3 * x) 0, cs.getD (3 * x + 1) 0, cs.getD (3 * x + 2) 0))).toArray, s)) (#[], s)

/-- Stages 8 to 10 of frame `k`: lens shading, white balance and demosaic. -/
def toRgb (n k : Nat) (s : State) : State :=
  match (s.ip n).frames[k]? with
  | none => s
  | some fr =>
    let v := s.variant
    let (w, h) := (fr.info.width, fr.info.height)
    let (p, s) :=
      if fr.g v (IP_FRONT_CFG_lsc_byp n) != 0 || fr.tabBad tLSC 0 then (fr.plane, s)
      else
        let (good, s) := frontReads n k tLSC 0 0 (0x1821 + n * 256) (w * h) 4 s
        cfaStage n (fun x y c => fmul32 c (if y * w + x < good then lscGain (fr.tab tLSC) w h x y else 1)) fr.plane s
    let (p, s) :=
      if fr.g v (IP_FRONT_CFG_wb_byp n) != 0 then (p, s)
      else cfaStage n (fun x y c => fmul32 c (fr.sl v (IP_WB_gain n (cfaCh x y)))) p s
    let vals := planeVals p
    let (rgb, s) :=
      if fr.g v (IP_FRONT_CFG_dms_mode n) = 1 then (p.map (·.map (fun c => (c, c, c))), s)
      else
        let cfa := fr.g v (IP_FRONT_CFG_cfa n)
        let rho : Rat := fr.g v (IP_DMS_CFG_ratio n)
        let g : Plane := ((List.range h).map (fun (y : Nat) => ((List.range w).map (fun (x : Nat) =>
          if cfaColour cfa (cfaCh x y) = 1 then vals.at x y else greenAt vals rho x y)).toArray)).toArray
        settleRgb n true h w (bayerPx cfa vals g) s
    modFr n k (fun f => { f with rgb := rgb }) s

/-! ### Colour stages -/

/-- The values of a frame of RGB codes, as three planes. -/
def rgbPlanes (p : Array (Array Px)) : Plane × Plane × Plane :=
  (p.map (·.map (fun c => slVal c.1)), p.map (·.map (fun c => slVal c.2.1)), p.map (·.map (fun c => slVal c.2.2)))

/-- The guide value of an RGB triple (R141). -/
def guide (r g b : Rat) : Rat := fdiv32 (fadd32 (fadd32 r (fmul32 2 g)) b) 4

/-- The offsets of the 5 × 5 neighbourhood in row-major order (R141). -/
def grid5 : List (Int × Int) := (List.range 5).flatMap (fun (j : Nat) => (List.range 5).map (fun (i : Nat) => ((i : Int) - 2, (j : Int) - 2)))

/-- The place of a spatial weight (R141). -/
def spatialIdx (dx dy : Int) : Nat :=
  let a := max dx.natAbs dy.natAbs
  let b := min dx.natAbs dy.natAbs
  if a = 0 then 0 else if a = 1 then 1 + b else 3 + b

/-- Noise reduction of one pixel (R141, R142). -/
def nrPx (v : Variant) (n : Nat) (fr : IpFrame) (P : Plane × Plane × Plane) (x y : Nat) : Rat × Rat × Rat :=
  let px (dx dy : Int) : Rat × Rat × Rat := (P.1.at (x + dx) (y + dy), P.2.1.at (x + dx) (y + dy), P.2.2.at (x + dx) (y + dy))
  let (cr, cg, cb) := px 0 0
  let yc := guide cr cg cb
  let sigma := sqrt32 (max (fadd32 (fr.sl v (IP_NR_A_a n)) (fmul32 (fr.sl v (IP_NR_B_b n)) (max yc 0))) (pow2 (-30)))
  let sw (k : Nat) : Nat := if k < 4 then bitsOf (fr.g v (IP_NR_SW0_sw0_sw3 n)) (8 * k + 7) (8 * k)
    else bitsOf (fr.g v (IP_NR_SW1_sw4_sw5 n)) (8 * (k - 4) + 7) (8 * (k - 4))
  let rw (j : Nat) : Nat := if j < 16 then bitsOf (fr.g v (IP_NR_RW_rw n (j / 4))) (8 * (j % 4) + 7) (8 * (j % 4)) else 0
  let terms := grid5.map (fun (dx, dy) =>
    let (r, g, b) := px dx dy
    let d := fdiv32 (absQ (fsub32 (guide r g b) yc)) sigma
    let w : Rat := (sw (spatialIdx dx dy) * rw (fmul32 4 d).floor.toNat : Nat)
    (w, r, g, b))
  let den := fsum32 (terms.map (·.1))
  let filt (c : Rat) (pick : Rat × Rat × Rat × Rat → Rat) : Rat :=
    if den = 0 then c else fdiv32 (fsum32 (terms.map (fun t => fmul32 t.1 (pick t)))) den
  let fR := filt cr (fun t => t.2.1)
  let fG := filt cg (fun t => t.2.2.1)
  let fB := filt cb (fun t => t.2.2.2)
  let sl : Rat := (fr.g v (IP_NR_STR_s_l n) : Rat) / 256
  let sc : Rat := (fr.g v (IP_NR_STR_s_c n) : Rat) / 256
  let lum := fmul32 (fsub32 sl sc) (fsub32 (guide fR fG fB) yc)
  let out (p f : Rat) : Rat := fadd32 (fadd32 p (fmul32 sc (fsub32 f p))) lum
  (out cr fR, out cg fG, out cb fB)

/-- One displacement component of the aberration mesh, limited, and whether it was (R143). `o` is its byte offset. -/
def caShift (t : Option Tab) (w h x y o : Nat) : Rat × Bool :=
  let (ix, fx) := meshPos 32 w x
  let (iy, fy) := meshPos 16 h y
  let node (i j : Nat) : Rat := (tabS16 t tCA ((j * 33 + i) * 8 + o) : Rat) / 256
  let d := bilinear fx fy (node ix iy) (node (ix + 1) iy) (node ix (iy + 1)) (node (ix + 1) (iy + 1))
  let l := limQ (-8) 8 d
  (l, decide (l ≠ d))

/-- The Catmull-Rom weights (R144). -/
def catmull (u : Rat) : List Rat :=
  let u2 := fmul32 u u
  let u3 := fmul32 u2 u
  [fdiv32 (fsub32 (fadd32 (-u3) (fmul32 2 u2)) u) 2,
   fdiv32 (fadd32 (fsub32 (fmul32 3 u3) (fmul32 5 u2)) 2) 2,
   fdiv32 (fadd32 (fadd32 (fmul32 (-3) u3) (fmul32 4 u2)) u) 2,
   fdiv32 (fsub32 u3 u2) 2]

/-- A plane sampled at a displaced position (R144). -/
def catmullAt (p : Plane) (x y : Nat) (dx dy : Rat) : Rat :=
  let px := fadd32 x dx
  let py := fadd32 y dy
  let (X, Y) := (px.floor, py.floor)
  let wx := catmull (fsub32 px X)
  let wy := catmull (fsub32 py Y)
  fsum32 ((List.range 4).map (fun (j : Nat) => fmul32 (wy.getD j 0)
    (fsum32 ((List.range 4).map (fun (i : Nat) => fmul32 (wx.getD i 0) (p.at (X - 1 + i) (Y - 1 + j)))))))

/-- A colour matrix (R145): `m` its coefficients by 3i + j, `o` its offsets. -/
def matrix3 (m o : Nat → Rat) (r g b : Rat) : Rat × Rat × Rat :=
  let out (i : Nat) : Rat :=
    fadd32 (fadd32 (fadd32 (fmul32 (m (3 * i)) r) (fmul32 (m (3 * i + 1)) g)) (fmul32 (m (3 * i + 2)) b)) (o i)
  (out 0, out 1, out 2)

/-- Stages 12 to 14 of frame `k` (R139): the copies its commit brought are in use from here (R158). -/
def sceneFrame (n k : Nat) (s : State) : State :=
  match (s.ip n).frames[k]? with
  | none => s
  | some fr =>
    let v := s.variant
    let (w, h) := (fr.info.width, fr.info.height)
    let (rgb, s) := if fr.g v (IP_SCENE_CFG_nr_en n) = 0 then (fr.rgb, s)
      else settleRgb n false h w (nrPx v n fr (rgbPlanes fr.rgb)) s
    let (rgb, s) :=
      if fr.g v (IP_SCENE_CFG_ca_en n) = 0 || fr.tabBad tCA 0 then (rgb, s)
      else
        let (goods, s) := goodParts n k tCA (0x1832 + n * 256) (w * h) 4 s
        let good := goods.getD 0 0
        let s := if good < w * h then modFr n k (fun f => { f with bcrc := 15 }) s else s
        let P := rgbPlanes rgb
        let t := fr.tab tCA
        let shift (x y : Nat) : List (Rat × Bool) :=
          if y * w + x < good then (List.range 4).map (fun i => caShift t w h x y (2 * i)) else []
        let clamped := ((List.range h).flatMap (fun y => (List.range w).map (fun x => (shift x y).any (·.2)))).count true
        let s := if clamped = 0 then s else bumpBy (IP_CA_CLAMP n) clamped s
        settleRgb n false h w (fun x y =>
          let d := shift x y
          let c (i : Nat) : Rat := (d.getD i (0, false)).1
          (catmullAt P.1 x y (c 0) (c 1), P.2.1.at x y, catmullAt P.2.2 x y (c 2) (c 3))) s
    let (rgb, s) :=
      if fr.g v (IP_SCENE_CFG_wsm_byp n) != 0 then (rgb, s)
      else
        let P := rgbPlanes rgb
        settleRgb n false h w (fun x y =>
          matrix3 (fun e => fr.sl v (IP_WSM_coef n e)) (fun i => fr.sl v (IP_WSO_ofs n i)) (P.1.at x y) (P.2.1.at x y) (P.2.2.at x y)) s
    modFr n k (fun f => { f with rgb := rgb, stage := 2 }) s

end Sys2Proof.Machine
end

