-- ==== Sys2Proof/Machine/IpBranch.lean ====
section
/-! DEFINITION. The output branches of an image pipeline, stages B1 to B7 (R146 to R153, R161 to R170), with the
configuration errors of R165 and the luma histogram's counts (R184). -/

namespace Sys2Proof.Machine

/-- A pixel of three values. -/
abbrev Px3 := Rat × Rat × Rat

/-! ### Crop and scale (R161 to R164) -/

/-- Decimation factor of a code (IPn_Ob_SCL_CFG). -/
def decim (c : Nat) : Nat := 2 ^ c

/-- The polyphase step (R163). -/
def polyStep (wb ow : Nat) : Nat := (2 * wb * 65536 + ow) / (2 * ow)

/-- The axis applies its polyphase filter (R163). -/
def filtered (d wb ow : Nat) : Bool := !(d == 1 && wb == ow)

/-- Runs of `d` values replaced by their means (R163). -/
def boxRow (d : Nat) (row : Array Rat) : Array Rat :=
  if d = 1 then row
  else ((List.range (row.size / d)).map (fun j =>
    fdiv32 (fsum32 ((List.range d).map (fun i => row.getD (j * d + i) 0))) d)).toArray

/-- One axis of the polyphase filter (R163, R164), or its nearest sample after a table error. -/
def polyRow (t : Option Tab) (id set : Nat) (nearest : Bool) (d ow : Nat) (row : Array Rat) : Array Rat :=
  let wb := row.size
  if !filtered d wb ow then row
  else
    let step := polyStep wb ow
    ((List.range ow).map (fun j =>
      let p : Int := (step / 2 : Nat) - 32768 + (j * step : Nat)
      let X := p / 65536
      let phase := (p / 1024 % 64).toNat
      if nearest then row.getD (reflect wb (X + (if 32 ≤ phase then 1 else 0))) 0
      else fsum32 ((List.range 8).map (fun (k : Nat) =>
        fmul32 ((tabS16 t id (set + (phase * 8 + k) * 2) : Rat) / 16384) (row.getD (reflect wb (X - 3 + k)) 0))))).toArray

/-- Columns as rows. -/
def transpose (p : Plane) : Plane :=
  let w := (p.getD 0 #[]).size
  ((List.range w).map (fun x => p.map (fun r => r.getD x 0))).toArray

/-- One plane through crop, decimation and filters (R161 to R164). -/
def scalePlane (v : Variant) (n b : Nat) (fr : IpFrame) (nearest : Bool) (p : Plane) : Plane :=
  let (x0, y0) := (fr.g v (IP_O_CROP_XY_x0 n b), fr.g v (IP_O_CROP_XY_y0 n b))
  let (w, h) := (fr.g v (IP_O_CROP_WH_w n b), fr.g v (IP_O_CROP_WH_h n b))
  let (ow, oh) := (fr.g v (IP_O_OUT_WH_ow n b), fr.g v (IP_O_OUT_WH_oh n b))
  let (dx, dy) := (decim (fr.g v (IP_O_SCL_CFG_dx n b)), decim (fr.g v (IP_O_SCL_CFG_dy n b)))
  let t := fr.tab (tCOEF b)
  let crop : Plane := ((List.range h).map (fun (j : Nat) =>
    ((List.range w).map (fun (i : Nat) => p.at (x0 + i : Nat) (y0 + j : Nat))).toArray)).toArray
  let rows := crop.map (fun r => polyRow t (tCOEF b) 0 nearest dx ow (boxRow dx r))
  transpose ((transpose rows).map (fun c => polyRow t (tCOEF b) 1024 nearest dy oh (boxRow dy c)))

/-- The axes of a branch that filter. -/
def branchAxes (v : Variant) (n b : Nat) (fr : IpFrame) : Nat :=
  let dx := decim (fr.g v (IP_O_SCL_CFG_dx n b))
  let dy := decim (fr.g v (IP_O_SCL_CFG_dy n b))
  (if filtered dx (fr.g v (IP_O_CROP_WH_w n b) / dx) (fr.g v (IP_O_OUT_WH_ow n b)) then 1 else 0) +
    (if filtered dy (fr.g v (IP_O_CROP_WH_h n b) / dy) (fr.g v (IP_O_OUT_WH_oh n b)) then 1 else 0)

/-! ### One-dimensional tables (R147 to R149) -/

/-- 2 to the power d, exact for integers; the value for others is open within its last places (R148). -/
def pow2of (d : Rat) : Rat :=
  let d := limQ (-300) 300 d
  let e := exp2Q d
  if d.den = 1 then e else f32 e + Config.exp2Err d * pow2 (ilog2 e - 23)

/-- log2 as the table stage computes it: the true value with an error of at most 2^-22 (R148). -/
def log2of (x : Rat) : Rat := log2Q x + limQ (-pow2 (-22)) (pow2 (-22)) (Config.log2Err x * pow2 (-40))

/-- A table channel's header: mode, d0, d1 and the slopes (R147). -/
structure Lut1 where
  mode : Nat
  d0   : Rat
  d1   : Rat
  lo   : Rat
  hi   : Rat

/-- The header of channel `c`. -/
def lutHead (t : Option Tab) (id c : Nat) : Lut1 :=
  let o := c * 0x4040
  ⟨tabNum t id o 4 % 4, tabSl t id (o + 4), tabSl t id (o + 8), tabSl t id (o + 12), tabSl t id (o + 16)⟩

/-- The channel's header is a table error (R149). -/
def Lut1.bad (h : Lut1) : Bool := decide (2 ≤ h.mode) || decide (h.d1 ≤ h.d0)

/-- A table beyond one end: the end entry, the distance from that end and its slope; a slope of 0 holds the entry
(R148). Below a power beyond binary32 the distance is infinite, and any other slope saturates. -/
def lutEnd (entry x edge slope : Rat) (far : Bool) : Rat :=
  if far then (if slope = 0 then entry else if slope < 0 then pow2 200 else -pow2 200)
  else fadd32 entry (fmul32 (fsub32 x edge) slope)

/-- Evaluates a table channel (R148). -/
def lutEval (t : Option Tab) (id c : Nat) (x : Rat) : Rat :=
  let h := lutHead t id c
  if h.bad then x
  else
    let e (k : Nat) : Rat := tabSl t id (c * 0x4040 + 64 + 4 * k)
    let inter (tt : Rat) : Rat :=
      let i := min tt.floor.toNat 4094
      let f := fsub32 tt i
      fadd32 (e i) (fmul32 (fsub32 (e (i + 1)) (e i)) f)
    if h.mode = 0 then
      if x < h.d0 then lutEnd (e 0) x h.d0 h.lo false
      else if h.d1 < x then lutEnd (e 4095) x h.d1 h.hi false
      else inter (fmul32 (fdiv32 (fsub32 x h.d0) (fsub32 h.d1 h.d0)) 4095)
    else
      let (p0, p1) := (pow2of h.d0, pow2of h.d1)
      if x < p0 || decide (128 ≤ h.d0) then lutEnd (e 0) x p0 h.lo (decide (128 ≤ h.d0))
      else if p1 < x then lutEnd (e 4095) x p1 h.hi false
      else inter (fmul32 (fdiv32 (fsub32 (log2of x) h.d0) (fsub32 h.d1 h.d0)) 4095)

/-! ### 3D LUT (R150, R151) -/

/-- A node of the 3D LUT, by channel. -/
def lut3Node (t : Option Tab) (id r g b c : Nat) : Rat :=
  slVal (bitsOf (tabNum t id (((b * 65 + g) * 65 + r) * 8) 8) (20 * c + 19) (20 * c))

/-- The 3D LUT at one pixel, by tetrahedra (R151). -/
def lut3Eval (t : Option Tab) (id : Nat) (p : Px3) : Px3 :=
  let pos (v : Rat) : Nat × Rat :=
    let u := fmul32 (limQ 0 1 v) 64
    let i := min u.floor.toNat 63
    (i, fsub32 u i)
  let (ir, fr) := pos p.1
  let (ig, fg) := pos p.2.1
  let (ib, fb) := pos p.2.2
  let axes : List (Rat × Nat) := [(fr, 0), (fg, 1), (fb, 2)]
  let first (l : List (Rat × Nat)) : Rat × Nat := l.foldl (fun m e => if m.1 < e.1 then e else m) (l.getD 0 (0, 0))
  let a1 := first axes
  let rest := axes.filter (fun e => e.2 != a1.2)
  let a2 := first rest
  let a3 := (rest.filter (fun e => e.2 != a2.2)).getD 0 (0, 0)
  let corner (m : List Nat) (c : Nat) : Rat :=
    lut3Node t id (ir + (if m.contains 0 then 1 else 0)) (ig + (if m.contains 1 then 1 else 0))
      (ib + (if m.contains 2 then 1 else 0)) c
  let out (c : Nat) : Rat :=
    let c0 := corner [] c
    let p1 := corner [a1.2] c
    let p2 := corner [a1.2, a2.2] c
    fadd32 (fadd32 (fadd32 c0 (fmul32 a1.1 (fsub32 p1 c0))) (fmul32 a2.1 (fsub32 p2 p1)))
      (fmul32 a3.1 (fsub32 (corner [0, 1, 2] c) p2))
  (out 0, out 1, out 2)

/-- A component lies outside 0 to 1. -/
def outside (p : Px3) : Bool :=
  let o (v : Rat) : Bool := decide (v < 0) || decide (1 < v)
  o p.1 || o p.2.1 || o p.2.2

/-! ### Transfer encoder (R152, R153) -/

/-- The exact signal of a transfer mode at a limited input (R152). -/
def transfer (mode : Nat) (e : Rat) : Rat :=
  match mode with
  | 1 =>
    let em := powQ e (1593017578125 / 10000000000000)
    powQ ((8359375 / 10000000 + 188515625 / 10000000 * em) / (1 + 186875 / 10000 * em)) (7884375 / 100000)
  | 2 =>
    if e ≤ 1 / 12 then (if e = 0 then 0 else powQ (3 * e) (1 / 2))
    else 17883277 / 100000000 * lnQ (12 * e - 28466892 / 100000000) + 55991073 / 100000000
  | _ => if e < 18 / 1000 then 45 / 10 * e else 1099 / 1000 * powQ e (45 / 100) - 99 / 1000

/-- The encoder's output: within 2^-16 of the exact signal, as binary32 (R152). -/
def encode1 (mode : Nat) (e : Rat) : Rat :=
  let bound := pow2 (-16) - pow2 (-24)
  f32 (transfer mode e + limQ (-bound) bound (Config.encErr mode e * pow2 (-40)))

/-- The Y'CbCr matrix (R153): 1 is BT.709, 2 is BT.2020. -/
def toYcc (ycc : Nat) (p : Px3) : Px3 :=
  let (kr, kb) : Rat × Rat := if ycc = 1 then (f32 (2126 / 10000), f32 (722 / 10000)) else (f32 (2627 / 10000), f32 (593 / 10000))
  let (r, g, b) := p
  let y := fadd32 (fadd32 (fmul32 kr r) (fmul32 (fsub32 (fsub32 1 kr) kb) g)) (fmul32 kb b)
  (y, fdiv32 (fsub32 b y) (fmul32 2 (fsub32 1 kb)), fdiv32 (fsub32 r y) (fmul32 2 (fsub32 1 kr)))

/-- The encoder mode that acts: reserved codes act as NONE (R152). -/
def encMode (v : Variant) (n b : Nat) (fr : IpFrame) : Nat :=
  let m := fr.g v (IP_O_XF_CFG_enc n b)
  if m < 4 then m else 0

/-- The representation that acts: 0b11 acts as 0b00 (R153). -/
def yccMode (v : Variant) (n b : Nat) (fr : IpFrame) : Nat :=
  let m := fr.g v (IP_O_XF_CFG_ycc n b)
  if m < 3 then m else 0

/-! ### Packing (R167 to R170) -/

/-- Component bits of an integer format; 0 for SL20. -/
def fmtBits (fmt : Nat) : Nat := match fmt with
  | 0x10 => 10 | 0x20 => 10
  | 0x11 => 12 | 0x21 => 12
  | 0x12 => 16 | 0x22 => 16
  | _ => 0

/-- A format of branches (R167). -/
def fmtBranch (fmt : Nat) : Bool := [0x10, 0x11, 0x12, 0x13, 0x20, 0x21, 0x22].contains fmt

/-- A 4:2:2 format. -/
def fmt422 (fmt : Nat) : Bool := 0x20 ≤ fmt && fmt < 0x23

/-- An integer component and whether it was limited (R169). -/
def quant (n : Nat) (narrow chroma : Bool) (x : Rat) : Nat × Bool :=
  let (k, o) : Rat × Rat := match narrow, chroma with
    | false, false => ((2 ^ n - 1 : Nat), 0)
    | false, true => ((2 ^ n - 1 : Nat), (2 ^ (n - 1) : Nat))
    | true, false => ((219 * 2 ^ (n - 8) : Nat), (16 * 2 ^ (n - 8) : Nat))
    | true, true => ((224 * 2 ^ (n - 8) : Nat), (128 * 2 ^ (n - 8) : Nat))
  let c := rne (fadd32 (fmul32 x k) o)
  let lo : Int := if narrow then (2 ^ (n - 8) : Nat) else 0
  let hi : Int := if narrow then (2 ^ n - 2 ^ (n - 8) - 1 : Nat) else (2 ^ n - 1 : Nat)
  if c < lo then (lo.toNat, true) else if hi < c then (hi.toNat, true) else (c.toNat, false)

/-- Chroma at an even pixel (R170). -/
def chroma422 (row : Array Rat) (x : Nat) : Rat :=
  let a (i : Int) : Rat := row.getD (reflect row.size i) 0
  fdiv32 (fadd32 (fadd32 (a ((x : Int) - 1)) (fmul32 2 (a x))) (a ((x : Int) + 1))) 4

/-- The components of a row in order, with their pixel and whether they are chroma (R168). -/
def components (fmt : Nat) (ycc : Bool) (row : List Px3) : List (Nat × Bool × Rat) :=
  if fmt422 fmt then
    let a := row.toArray
    let cb := a.map (·.2.1)
    let cr := a.map (·.2.2)
    (List.range (row.length / 2)).flatMap (fun i =>
      [(2 * i, true, chroma422 cb (2 * i)), (2 * i, false, (a.getD (2 * i) (0, 0, 0)).1),
       (2 * i, true, chroma422 cr (2 * i)), (2 * i + 1, false, (a.getD (2 * i + 1) (0, 0, 0)).1)])
  else
    (List.range row.length).flatMap (fun i =>
      let p := row.getD i (0, 0, 0)
      [(i, false, p.1), (i, ycc, p.2.1), (i, ycc, p.2.2)])

/-- Components of `d` bits as one LSB-first bit string (R168). -/
def packBits (d : Nat) (cs : List Nat) : List Byte :=
  leBytes (ceilDiv (d * cs.length) 8) (cs.foldr (fun c a => c + a * 2 ^ d) 0)

/-- A packed row, the pixels limited, and the values that saturated as SL20. -/
def packRow (fmt : Nat) (narrow ycc : Bool) (row : List Px3) : List Byte × Nat × Nat :=
  let cs := components fmt ycc row
  let d := fmtBits fmt
  if d = 0 then
    let q := cs.map (fun c => toSl c.2.2)
    (slBytes (q.map (·.1)), 0, (q.map (·.2)).count true)
  else
    let q := cs.map (fun c => (c.1, quant d narrow c.2.1 c.2.2))
    let clipped := ((q.filter (fun e => e.2.2)).map (·.1)).eraseDups.length
    (if d = 16 then q.flatMap (fun e => leBytes 2 e.2.1) else packBits d (q.map (fun e => e.2.1)), clipped, 0)

/-! ### The branch -/

/-- The branch's configuration is in error (R165). -/
def branchErr (n b : Nat) (fr : IpFrame) (s : State) : Bool :=
  let v := s.variant
  let axis (d w ow : Nat) : Bool :=
    w % d != 0 || decide (w / d < 2) || decide (polyStep (w / d) ow < 32768) || decide (131072 < polyStep (w / d) ow) ||
      decide (ow < 2) || decide (16384 < ow)
  let fmt := fr.g v (IP_O_PACK_fmt n b)
  axis (decim (fr.g v (IP_O_SCL_CFG_dx n b))) (fr.g v (IP_O_CROP_WH_w n b)) (fr.g v (IP_O_OUT_WH_ow n b)) ||
    axis (decim (fr.g v (IP_O_SCL_CFG_dy n b))) (fr.g v (IP_O_CROP_WH_h n b)) (fr.g v (IP_O_OUT_WH_oh n b)) ||
    (fmt422 fmt && (fr.g v (IP_O_OUT_WH_ow n b) % 2 == 1 || yccMode v n b fr == 0)) ||
    !fmtBranch fmt || !fr.fits v n (8 + b) s

/-- Reports a branch's configuration error once per commit (R165). -/
def tellBranch (n b : Nat) (s : State) : State :=
  if bitOf (s.ip n).told b then s
  else
    raise (0x18 + n) 0x42 (0x10 + b) (flag (IP_O_STATUS_cfg_err n b)
      (modIp n (fun p => { p with told := p.told + 2 ^ b }) s))

/-- The branch of frame `k` starts if it is enabled and sound (R165, R173, R174). -/
def startBranch (n k b : Nat) (s : State) : State :=
  match (s.ip n).frames[k]? with
  | none => s
  | some fr =>
    if fr.started.contains (8 + b) || branchOff s.variant n b fr then s
    else if branchErr n b fr s then tellBranch n b (modFr n k (fun f => { f with started := (8 + b) :: f.started }) s)
    else startProd n k (8 + b) s

/-- Rounds the values between two stages to SL20 (R138). -/
def between (n : Nat) (rows : List (List Px3)) (s : State) : List (List Px3) × State :=
  let rs := rows.map (fun r => r.map (fun p => (toSl p.1, toSl p.2.1, toSl p.2.2)))
  let sat := (rs.flatMap (fun r => r.flatMap (fun p => [p.1.2, p.2.1.2, p.2.2.2]))).count true
  (rs.map (fun r => r.map (fun p => (slVal p.1.1, slVal p.2.1.1, slVal p.2.2.1))), if sat = 0 then s else bumpBy (IP_SAT_PIX n) sat s)

/-- One pixelwise stage on SL20 inputs; `f` takes the pixel's place in raster order. -/
def pxStage (n : Nat) (f : Nat → Px3 → Px3) (x : List (List Px3) × State) : List (List Px3) × State :=
  let (rows, s) := between n x.1 x.2
  let w := (rows.getD 0 []).length
  ((List.range rows.length).map (fun j =>
    let r := (rows.getD j []).toArray
    (List.range r.size).map (fun i => f (j * w + i) (r.getD i (0, 0, 0)))), s)

/-- Marks branch `b` of frame `k` with line_crc after a parity replacement (R159, R185). -/
def markBranch (n k b : Nat) (s : State) : State := modFr n k (fun f => { f with bcrc := f.bcrc ||| 2 ^ b }) s

/-- Uses table `id` on `px` pixels with `per` reads of each part; the branch is marked if a part is replaced. -/
def branchTab (n k b id det px per : Nat) (s : State) : List Nat × State :=
  let (good, s) := goodParts n k id (0x1800 + n * 256 + det) px per s
  (good, if good.any (· < px) then markBranch n k b s else s)

/-- Stages B2 to B6 of branch `b` on the scaled pixels. -/
def transform (n k b : Nat) (fr : IpFrame) (px : Nat) (x : List (List Px3) × State) : List (List Px3) × State :=
  let v := x.2.variant
  let on (f : Fld) : Bool := fr.g v f == 0
  let x := if on (IP_O_XF_CFG_mtx_byp n b) then
      pxStage n (fun _ p => matrix3 (fun e => fr.sl v (IP_O_MTX_coef n b e)) (fun i => fr.sl v (IP_O_OFS_ofs n b i)) p.1 p.2.1 p.2.2) x
    else x
  let oneD (id : Nat) (x : List (List Px3) × State) : List (List Px3) × State :=
    let (good, s) := branchTab n k b id 0x31 px 2 x.2
    let t := fr.tab id
    let ch (i c : Nat) (v : Rat) : Rat := if i < good.getD c 0 && !fr.tabBad id c then lutEval t id c v else v
    pxStage n (fun i p => (ch i 0 p.1, ch i 1 p.2.1, ch i 2 p.2.2)) (x.1, s)
  let x := if on (IP_O_XF_CFG_shp_byp n b) then oneD (tSHP b) x else x
  let x := if on (IP_O_XF_CFG_lut3_byp n b) then
      let (goods, s) := branchTab n k b (tLUT3 b) 0x30 px 4 x.2
      let good := goods.getD 0 0
      let t := fr.tab (tLUT3 b)
      let (rows, s) := between n x.1 s
      let act := !fr.tabBad (tLUT3 b) 0
      let clip := if act then (((rows.flatMap id).take good).filter outside).length else 0
      let s := if clip = 0 then s else bumpBy (IP_O_LUT3_CLIP n b) clip s
      pxStage n (fun i p => if i < good && act then lut3Eval t (tLUT3 b) p else p) (rows, s)
    else x
  let x := if on (IP_O_XF_CFG_olut_byp n b) then oneD (tOLUT b) x else x
  let (mode, ycc) := (encMode v n b fr, yccMode v n b fr)
  if mode = 0 && ycc = 0 then x
  else
    let scale := fr.sl v (IP_O_ENC_SCALE_scale n b)
    let (rows, s) := between n x.1 x.2
    let scaled := rows.map (fun r => r.map (fun p => (fmul32 p.1 scale, fmul32 p.2.1 scale, fmul32 p.2.2 scale)))
    let clip := if mode = 0 then 0 else ((scaled.flatMap id).filter outside).length
    let s := if clip = 0 then s else bumpBy (IP_O_ENC_CLIP n b) clip s
    let enc (c : Rat) : Rat := if mode = 0 then c else encode1 mode (limQ 0 1 c)
    (scaled.map (fun r => r.map (fun p =>
      let q := (enc p.1, enc p.2.1, enc p.2.2)
      if ycc = 0 then q else toYcc ycc q)), s)

/-- The luma histogram's counts by bin (R184). -/
def lumaBins (ycc : Bool) (rows : List (List Px3)) : List (Nat × Nat) :=
  (rows.flatMap id).foldl (fun m p =>
    let y := if ycc then p.1
      else fadd32 (fadd32 (fmul32 (f32 (2126 / 10000)) p.1) (fmul32 (f32 (7152 / 10000)) p.2.1)) (fmul32 (f32 (722 / 10000)) p.2.2)
    let bin := (min (max (fmul32 y 1024).floor 0) 1023).toNat
    put m bin (lookD m 0 bin + 1)) []

/-- Examines branch `b`'s input for an overrun at each row of frame `k` (R166, R185). Real overruns depend on cycle
timing, which the model leaves out; an injected one abandons the frame. -/
def overrun (n k b rows : Nat) (s : State) : Bool × State :=
  match firstFail (0x1842 + n * 256) rows s with
  | (none, s) => (false, s)
  | (some _, s) =>
    let s := ringAbandon (.branch n b) s
    let s := modFr n k (fun f => { f with bufs := del f.bufs (8 + b) }) s
    (true, raise (0x18 + n) 0x43 (0x10 + b) (bump (IP_O_OVERRUN n b) s))

/-- Branch `b` of frame `k`: crop and scale, transform, pack (R161 to R170, R184). -/
def branchFrame (n k b : Nat) (s : State) : State :=
  let s := startBranch n k b s
  match (s.ip n).frames[k]? with
  | none => s
  | some fr =>
    let v := s.variant
    if branchOff v n b fr || branchErr n b fr s then s
    else
      let (lost, s) := match fr.buf (8 + b) with
        | some _ => overrun n k b fr.info.height s
        | none => (false, s)
      if lost then s
      else
        let (x0, y0) := (fr.g v (IP_O_CROP_XY_x0 n b), fr.g v (IP_O_CROP_XY_y0 n b))
        let s := if fr.info.width < x0 + fr.g v (IP_O_CROP_WH_w n b) || fr.info.height < y0 + fr.g v (IP_O_CROP_WH_h n b)
          then bump (IP_O_CROP_OUT n b) s else s
        let (ow, oh) := (fr.g v (IP_O_OUT_WH_ow n b), fr.g v (IP_O_OUT_WH_oh n b))
        let axes := branchAxes v n b fr
        let bad := fr.tabBad (tCOEF b) 0
        let (goods, s) := if axes = 0 || bad then ([if bad then 0 else ow * oh], s)
          else branchTab n k b (tCOEF b) 0x40 (ow * oh) (8 * axes) s
        let good := goods.getD 0 0
        let P := rgbPlanes fr.rgb
        let make (nearest : Bool) (p : Plane) : Plane := scalePlane v n b fr nearest p
        let (r1, g1, b1) := (make false P.1, make false P.2.1, make false P.2.2)
        let pick (a : Plane) (p : Plane) (i j : Nat) : Rat :=
          if j * ow + i < good then (a.getD j #[]).getD i 0 else ((make true p).getD j #[]).getD i 0
        let rows : List (List Px3) := (List.range oh).map (fun j => (List.range ow).map (fun i =>
          (pick r1 P.1 i j, pick g1 P.2.1 i j, pick b1 P.2.2 i j)))
        let (rows, s) := transform n k b fr (ow * oh) (rows, s)
        let ycc := yccMode v n b fr != 0
        let s := if fr.g v (IP_ST_LUMA_en n) != 0 && fr.g v (IP_ST_LUMA_branch n) == b && fr.g v (IP_ST_SLOTS_slots n) != 0 then
            modFr n k (fun f => { f with lumaDue := some (b, lumaBins ycc rows, ow, oh) }) s
          else s
        let fmt := fr.g v (IP_O_PACK_fmt n b)
        let packs := rows.map (packRow fmt (fr.g v (IP_O_PACK_range n b) != 0) ycc)
        match fr.buf (8 + b) with
        | none => s
        | some _ =>
          let clip := (packs.map (·.2.1)).foldl (· + ·) 0
          let sat := (packs.map (·.2.2)).foldl (· + ·) 0
          let s := if clip = 0 then s else bumpBy (IP_O_PACK_CLIP n b) clip s
          let s := if sat = 0 then s else bumpBy (IP_SAT_PIX n) sat s
          let s := (List.range oh).foldl (fun s j => writeRow n k (8 + b) j (packs.getD j ([], 0, 0)).1 s) s
          wholeBuf n k (8 + b) s

end Sys2Proof.Machine
end

