-- ==== Sys2Proof/Machine/PipMap.lean ====
section
/-! DEFINITION. Pods and positions (R186, R187, R200): which pip stands where, which slot a pod serves, how a re-admitted
pip joins (R212), and what a slot does to frames before their tiles are cut: its input buffer and its marks (R203,
R210, R211). -/

namespace Sys2Proof.Machine

/-! ### Access -/

/-- A pip's number: its pod × 16 + its place, as events name it (R213). -/
def pipNo (u : PipRef) : Nat := u.pod * 16 + u.pip

/-- A pip. -/
def State.pip (s : State) (u : PipRef) : PipSt := lookD s.pips {} (pipNo u)

/-- Changes a pip. -/
def modPip (u : PipRef) (f : PipSt → PipSt) (s : State) : State := { s with pips := put s.pips (pipNo u) (f (s.pip u)) }

/-- Pod `p`. -/
def State.pod (s : State) (p : Nat) : PodSt := lookD s.pods {} p

/-- Changes pod `p`. -/
def modPod (p : Nat) (f : PodSt → PodSt) (s : State) : State := { s with pods := put s.pods p (f (s.pod p)) }

/-- Slot `j`. -/
def State.slot (s : State) (j : Nat) : SlotSt := lookD s.slots {} j

/-- Changes slot `j`. -/
def modSlot (j : Nat) (f : SlotSt → SlotSt) (s : State) : State := { s with slots := put s.slots j (f (s.slot j)) }

/-- The pip exists on this variant and its strip is powered. -/
def State.pipOn (s : State) (u : PipRef) : Bool := s.unitOn (dSTRIP (u.pod / 16))

/-- States of a pip (PODp_PIPi_STATUS). -/
def pipActive : Nat := 0
def pipSpare : Nat := 1
def pipTesting : Nat := 2
def pipRetired : Nat := 3

/-- A pip's state. -/
def State.pipState (s : State) (u : PipRef) : Nat := s.f (POD_PIP_STATUS_state u.pod u.pip)

/-- The pip at position `k` of pod `p`; 15 for empty. -/
def State.pipAt (s : State) (p k : Nat) : Nat := bitsOf (s.rd (POD_MAP p)).toNat (4 * k + 3) (4 * k)

/-- The live positions of pod `p`, ascending (R200). -/
def State.livePos (s : State) (p : Nat) : List Nat := (List.range 8).filter (fun k => s.pipAt p k != 15)

/-- Sets the pip at position `k` of pod `p`, both ways. -/
def setPos (p k i : Nat) (s : State) : State :=
  let s := wr (POD_MAP p) (setBits (s.rd (POD_MAP p)) (4 * k + 3) (4 * k) i) s
  if i = 15 then s else setF (POD_PIP_STATUS_pos p i) k s

/-- A pip outside its tests stands by its position: ACTIVE with one, SPARE without. -/
def restState (u : PipRef) (s : State) : State :=
  setF (POD_PIP_STATUS_state u.pod u.pip) (if s.f (POD_PIP_STATUS_pos u.pod u.pip) = 15 then pipSpare else pipActive) s

/-- The spare of pod `p`: a pip in the SPARE state. -/
def State.spareOf (s : State) (p : Nat) : Option Nat := (List.range 9).find? (fun i => s.pipState ⟨p, i⟩ == pipSpare)

/-- Shows a pod's status. -/
def showPod (p : Nat) (s : State) : State :=
  let live := (s.livePos p).length
  setF (POD_STATUS_live p) live <| setF (POD_STATUS_spare_avail p) (if (s.spareOf p).isSome then 1 else 0) <|
    setF (POD_STATUS_below p) (if live < 8 then 1 else 0) s

/-- The slot that a pod serves, by its strip's map and its configuration in force (R186, R187). -/
def State.slotOfPod (s : State) (p : Nat) : Option Nat :=
  let m := (s.rdLive PIP_STRIP_MAP).toNat
  let st := p / 16
  let c := s.g (POD_CFG_slot p)
  if bitOf m (4 * st + 2) && (c == 1 || c == 2) && s.unitOn (dSTRIP st)
  then some (2 * bitsOf m (4 * st + 1) (4 * st) + (c - 1)) else none

/-- The pods of slot `j`, ascending (R186). -/
def State.podsOf (s : State) (j : Nat) : List Nat :=
  (List.range (Config.pods s.variant)).filter (fun p => s.slotOfPod p == some j)

/-- Every pod of slot `j` has its 8 live positions. -/
def State.fullPods (s : State) (j : Nat) : Bool := (s.podsOf j).all (fun p => (s.livePos p).length == 8)

/-- A word put in a sparse memory. -/
def putWord (m : List (Nat × Word)) (a : Nat) (w : Word) : List (Nat × Word) := if w = 0 then del m a else put m a w

/-! ### Frames before a slot -/

/-- The monitor prints the outcome of the readmission it asked for (R465). -/
def monReadmitted (u : PipRef) (ok : Bool) (s : State) : State :=
  if s.mon.readm = some (pipNo u) then { s with mon := { s.mon with readm := none, out := [.readmit ok, .ok] } } else s

/-- The re-admitted pip joins the lowest empty position of its pod, or becomes the spare (R212 step 4). -/
def joinPip (u : PipRef) (s : State) : State :=
  let s := modPip u (fun z => { z with readmit := 0, told := false }) s
  let s := match (List.range 8).find? (fun k => s.pipAt u.pod k == 15) with
    | some k => setF (POD_PIP_STATUS_state u.pod u.pip) pipActive (setPos u.pod k u.pip s)
    | none => setF (POD_PIP_STATUS_state u.pod u.pip) pipSpare (setF (POD_PIP_STATUS_pos u.pod u.pip) 15 s)
  let s := showPod u.pod s
  let s := match s.slotOfPod u.pod with
    | some j => if s.fullPods j then setF (PIP_SLOT_STATUS_below_rate j) 0 s else s
    | none => s
  monReadmitted u true (raise 0x20 8 (pipNo u) s)

/-- A frame starts in slot `j`, whether or not the slot has a program: every pip of its pods that passed its
re-admission test joins (R212). A pod that serves no slot any more is looked at with every slot. -/
def joinAll (j : Nat) (s : State) : State :=
  ((List.range (Config.pods s.variant)).filter (fun p => s.slotOfPod p == some j || s.slotOfPod p == none)).foldl (fun s p =>
    (List.range 9).foldl (fun s i => if (s.pip ⟨p, i⟩).readmit = 2 then joinPip ⟨p, i⟩ s else s) s) s

/-- Frame `k` of pipeline `n` enters slot `j`: re-admitted pips join, and the frame carries the slot's below_rate
(R210, R212). The scene slot is stage 11, SCENE's first: the copy the frame brought is the copy in force (R155, R158). -/
def slotEnter (n k j : Nat) (s : State) : State :=
  let s := joinAll j s
  let s := if s.b (PIP_SLOT_STATUS_below_rate j) then modFr n k (fun f => { f with fsw := fswSet fswBelowRate f.fsw }) s else s
  if j % 2 = 0 then modFr n k (fun f => { f with news := f.news &&& 0x3C }) s else s

/-- Pixels of the first `y` rows of a frame in slot `j` beyond what the slot's current row of tiles needs (R211). -/
def State.slotBeyond (s : State) (j : Nat) (fr : IpFrame) (y : Nat) : Nat :=
  let z := s.slot j
  let tw := floor1 (ceilDiv fr.info.width 8)
  let done := if z.pfn == some fr.info.pfn then z.left else []
  let row := ((List.range (ceilDiv fr.info.height 8)).find? (fun y =>
    !(List.range tw).all (fun x => done.contains (y * tw + x)))).getD 0
  let halo := (z.pods.map (fun p => (s.pod p).pkg.halo)).foldl max 0
  (y - min y (8 * row + 8 + halo)) * fr.info.width

/-- Slot `j` takes no tile of a frame that runs program `g`: the program is not loaded, a load runs, or every pip at a
live position is at its self-test (R203, R206, R211). -/
def State.slotStuck (s : State) (j g : Nat) : Bool :=
  let z := s.slot j
  let tests (p : Nat) : Bool := (s.livePos p).all (fun k => (s.pip ⟨p, s.pipAt p k⟩).test.isSome)
  z.loading.isSome || z.loaded != g || (!z.pods.isEmpty && z.pods.all (fun p => !(s.livePos p).isEmpty && tests p))

/-- Pixels that wait before slot `c` of pipeline `n`, with the next row of the frame at place `k`, beyond what the
slot's current row of tiles needs (R211). The slot's own frame waits where it is delayed by a load or by self-tests;
with none, the slot takes the frame's tiles as they are dispatched and only the rows of later frames wait. -/
def State.slotWaits (s : State) (n k c : Nat) : Nat :=
  let frs := (s.ip n).frames
  match frs.findIdx? (fun f => f.stage == 1 + c && (look f.prog c).isSome), frs[k]? with
  | some i, some fk =>
    match frs[i]? with
    | some f0 =>
      let behind := ((frs.take k).drop (i + 1)).foldl (fun t f => t + f.y * f.info.width) 0
      if i < k then s.slotBeyond (2 * n + c) f0 f0.info.height + behind + (fk.y + 1) * fk.info.width else 0
    | none => 0
  | none, some fk =>
    match look fk.prog c with
    | some g =>
      if (frs.take k).all (fun f => decide (1 + c < f.stage)) && s.slotStuck (2 * n + c) g
      then s.slotBeyond (2 * n + c) fk (fk.y + 1) else 0
    | none => 0
  | _, none => 0

/-- The next row of the frame at place `k` waits at a slot's input: the slot's 65,536 pixels are full (R211). -/
def State.rowWaits (s : State) (n k : Nat) : Bool :=
  decide (65536 < s.slotWaits n k 0) || decide (65536 < s.slotWaits n k 1)

/-- That row is held in the crossing FIFO: before the look slot, a scene slot that has a program buffers its own 65,536
pixels first (R211). -/
def State.rowHeld (s : State) (n k : Nat) : Bool :=
  let scene := match (s.ip n).frames[k]? with
    | some f => (look f.prog 0).isSome
    | none => false
  decide (65536 < s.slotWaits n k 0) || decide ((if scene then 2 * 65536 else 65536) < s.slotWaits n k 1)

/-- PIP_SLOTj_STATUS.loading: a load runs, or tiles of the first frame on a new program wait for one (R203). -/
def showLoading (n : Nat) (s : State) : State :=
  if s.domOn dFAB then
    (List.range 2).foldl (fun s c =>
      let z := s.slot (2 * n + c)
      let waits := match (s.ip n).frames.find? (fun f => f.stage == 1 + c) with
        | some f => match look f.prog c with
          | some g => g != z.loaded
          | none => false
        | none => false
      setF (PIP_SLOT_STATUS_loading (2 * n + c)) (if z.loading.isSome || waits then 1 else 0) s) s
  else s

end Sys2Proof.Machine
end

