-- ==== Sys2Proof/Machine/Ip.lean ====
section
/-! DEFINITION. The image pipeline's commands: commits and their table loads (R53 to R55, R155 to R158), frames and
rows entering (R119, R127 to R130), the flow of frames through the slots and branches (R139, R140), statistics and
luma records (R178 to R184, R513), and offering (R177). -/

namespace Sys2Proof.Machine

open Sys2Proof.Config (us)

/-! ### Commits -/

/-- Address `a` is a shadow register of pipeline `n` (R53, R155). -/
def ipShadow (n a : Nat) : Bool :=
  let o := a - 0x42000000 - n * 0x100000
  decide (0x42000000 + n * 0x100000 ≤ a) && decide (o < 0x100000) &&
    ((0x100 ≤ o && o < 0x1B0) || (0x1D0 ≤ o && o < 0x200) || (0x300 ≤ o && o < 0x380) ||
      (0x600 ≤ o && o < 0x700 && o % 0x40 == 0) || (0x700 ≤ o && o < 0x720) ||
      (0x800 ≤ o && o < 0xC00 && (o % 0x100 < 0x54 || (0x80 ≤ o % 0x100 && o % 0x100 < 0x9C))))

/-- The commit group of a shadow register's offset, if it has one (R155). -/
def shadowGroup (o : Nat) : Option Nat :=
  if o < 0x200 then some 0
  else if 0x300 ≤ o && o < 0x380 then some 1
  else if 0x800 ≤ o && o < 0xC00 then some (2 + (o - 0x800) / 0x100)
  else none

/-- Notes that a shadow register was written since the previous capture (R155). -/
def ipTouch (n a : Nat) (s : State) : State :=
  if ipShadow n a then
    match shadowGroup (a - 0x42000000 - n * 0x100000) with
    | some g => modIp n (fun p => { p with touched := p.touched ||| 2 ^ g }) s
    | none => s
  else s

/-- The preparing copy of group `g` is not free for the commit at place `i`: an earlier pending commit wants it, or a
frame that brought it has not reached the group's first stage (R158). -/
def groupBusy (p : IpSt) (i g : Nat) : Bool :=
  (p.commits.take i).any (fun c => bitOf c.mask g) || p.frames.any (fun f => bitOf f.news g)

/-- The load that runs: the first commit whose capture is done and whose next group is free, and that group. -/
def nextLoad (p : IpSt) : Option (Nat × Nat) :=
  ((List.range p.commits.length).filterMap (fun i =>
    match p.commits[i]? with
    | some c => if c.capturing then none else match c.todo with
      | g :: _ => if groupBusy p i g then none else some (i, g)
      | [] => none
    | none => none)).head?

/-- Shows pending commits, the capture and the running load (R53, R54, R156). -/
def showCommits (n : Nat) (s : State) : State :=
  let p := s.ip n
  setF (IP_CLR_LOAD_pending n) (match nextLoad p with
    | some (_, g) => 2 ^ g
    | none => 0) <|
    setF (IP_COMMIT_STATUS_capturing n) (if p.commits.any (·.capturing) then 1 else 0) <|
      setF (IP_COMMIT_STATUS_pending n) p.commits.length s

/-- A frame that stands for parameters alone, to read captured registers. -/
def parFrame (regs : List (Nat × Word)) (info : FrameInfo) : IpFrame :=
  { info := info, depth := 12, fillMode := 0, fillVal := 0, readouts := 1, par := regs, tabs := [], seq := 0 }

/-- What a commit's values refuse or report at once (R136, R152, R153, R165, R175, R180). -/
def commitJudge (n : Nat) (regs : List (Nat × Word)) (s : State) : State :=
  let v := s.variant
  let fr := parFrame regs {}
  let s := if 2 ≤ fr.g v (IP_FRONT_CFG_dms_mode n) then flag (IP_FRONT_STATUS_bad_write n) s else s
  let s := (List.range 4).foldl (fun s b =>
    let s := if 4 ≤ fr.g v (IP_O_XF_CFG_enc n b) || fr.g v (IP_O_XF_CFG_ycc n b) == 3
      then flag (IP_CLR_STATUS_bad_write n) s else s
    if !branchOff v n b fr && branchErr n b fr s then
      raise (0x18 + n) 0x42 (0x10 + b) (flag (IP_O_STATUS_cfg_err n b) s) else s) s
  let en := (List.range 4).filter (fun t => fr.g v (IP_T_CFG_en n t) != 0)
  let run := tapsOn v n fr
  let prc := run.filter (fun t => fr.g v (IP_T_CFG_dest n t) != 0)
  let idle := en.filter (fun t => !run.contains t) ++ prc.drop 1
  let s := idle.foldl (fun s t => flag (IP_T_STATUS_bad_write n t) s) s
  let (zx, zy) := (fr.g v (IP_ST_CFG_zx n), fr.g v (IP_ST_CFG_zy n))
  if fr.g v (IP_ST_CFG_zone_en n) != 0 && zx != 0 && zy != 0 &&
      (decide (fr.g v (IP_ST_WIN_WH_w n) / zx < 2) || decide (fr.g v (IP_ST_WIN_WH_h n) / zy < 2))
  then flag (IP_ST_STATUS_bad_write n) s else s

/-- The branches whose captured configuration is in error, as a mask. -/
def errMask (n : Nat) (regs : List (Nat × Word)) (s : State) : Nat :=
  let fr := parFrame regs {}
  (List.range 4).foldl (fun m b =>
    if !branchOff s.variant n b fr && branchErr n b fr s then m + 2 ^ b else m) 0

/-- Capture into a pending commit, or its refusal (R53, R54). -/
def captureInto (n target seq : Nat) (s : State) : State :=
  let p := s.ip n
  let late := match p.commits.getLast? with
    | some c => !ahead target c.target
    | none => false
  if 4 ≤ p.commits.length || late then flag (IP_COMMIT_STATUS_refused n) s
  else
    let regs := s.regs.filter (fun e => ipShadow n e.1)
    let mask := p.touched
    let told := errMask n regs s
    let c : IpCommit := {
      target := target, seq := seq, mask := mask, regs := regs
      todo := (List.range 6).filter (bitOf mask), told := told }
    let s := modIp n (fun p => { p with
      commits := p.commits ++ [c]
      touched := 0, dueAt := s.now + 2 * us }) s
    showCommits n (commitJudge n regs s)

/-- The running capture ends: its table loads may start (R53, R156). -/
def captureEnd (n : Nat) (s : State) : State :=
  if (s.ip n).commits.any (·.capturing) then
    showCommits n (modIp n (fun p => { p with commits := p.commits.map (fun c => { c with capturing := false }) })
      (advanceTo (s.ip n).dueAt s))
  else s

/-- A register write to pipeline `n` stalls until a running capture ends (R53). -/
def ipStall (n : Nat) (s : State) : State := captureEnd n s

/-- A write of IPn_COMMIT. -/
def commitWrite (n : Nat) (v : Word) (s : State) : State :=
  let s := ipStall n s
  captureInto n (s.rd (IP_COMMIT_TARGET n)).toNat (v.toNat % 65536) s

/-- COMMIT (R53, R54). -/
def execCommit (r : Requester) (n : Nat) (v : Word) (s : State) : Res :=
  guardOk (decide (n < 4)) (writeBy r (IP_COMMIT n) (commitWrite n v) s)

/-- COMMIT_CAPTURE_DONE (R156). -/
def execCommitCaptureDone (n : Nat) (s : State) : Res :=
  guardOk (decide (n < 4)) (if s.unitOn (dIP n) then captureEnd n s else s)

/-- A part of a loaded one-dimensional table whose header is a table error (R149). -/
def headBad (id c : Nat) (t : Tab) : Bool := tabParts id == 3 && (lutHead (some t) id c).bad

/-- A branch's coefficient table is needed by the captured configuration (R164). -/
def coefNeeded (v : Variant) (n id : Nat) (fr : IpFrame) : Bool :=
  let b := (id - 8) / 4
  8 ≤ id && id % 4 == 3 && !branchOff v n b fr && branchAxes v n b fr != 0

/-- Reads a table's copy of version `ver` from its buffer at `a`, part by part at the real-time class, and says whether
a part of it is a table error: a response to any of its accesses, or a header (R149, R156, R160). `no` says that the
table must not stand there (R164). -/
def readTab (n id ver a cnt : Nat) (no : Bool) (s : State) : Tab × Bool × State :=
  let size := tabSize cnt id / tabParts id
  (List.range (tabParts id)).foldl (fun (x : Tab × Bool × State) c =>
    let (t, told, s) := x
    let at_ := a + c * size
    let (ok, s) := dmaSpan 2 at_ size s
    let ok := ok && !no
    let t := if ok then { t with cells := t.cells ++ s.mem.filter (fun e => decide (at_ ≤ e.1) && decide (e.1 < at_ + size)) } else t
    let real := !ok || headBad id c t
    let (e, s) := examDetect (0x1833 + n * 256) real (tabGroup id) a s
    (if !ok || e then { t with bad := t.bad ||| 2 ^ c } else t, told || e, s)) ({ ver := ver, at_ := a }, false, s)

/-- Loads one table that the captured configuration names (R156, R164). -/
def loadTab (n id ver : Nat) (fr : IpFrame) (s : State) : Tab × Bool × State :=
  let a := fr.ptr s.variant (tabPtr n id).1 (tabPtr n id).2
  readTab n id ver a (fr.g s.variant (IP_DPC_CNT_count n)) (a == 0 && coefNeeded s.variant n id fr) s

/-- A table error in group `g`: its bit, and the event (R149). -/
def tableErr (n g : Nat) (s : State) : State :=
  raise (0x18 + n) 0x30 g (setF (IP_CLR_STATUS_table_err n) (s.f (IP_CLR_STATUS_table_err n) ||| 2 ^ g) s)

/-- Loads every table of group `g` of the commit at place `i`; a table error is told once for it (R149, R156). -/
def loadGroup (n i g : Nat) (s : State) : State :=
  match (s.ip n).commits[i]? with
  | none => s
  | some c =>
    let fr := parFrame c.regs {}
    let ver := (s.ip n).ver + 1
    let (tabs, bad, s) := (groupTabs g).foldl (fun (x : List (Nat × Tab) × Bool × State) id =>
      let (t, e, s) := loadTab n id ver fr x.2.2
      (put x.1 id t, x.2.1 || e, s)) (c.tabs, false, s)
    let s := modIp n (fun p => { p with
      ver := ver, commits := p.commits.modify i (fun c => { c with tabs := tabs, todo := c.todo.erase g }) }) s
    if bad then tableErr n g s else s

/-- TABLE_LOAD_DONE (R156): the load that runs completes. -/
def execTableLoadDone (n : Nat) (s : State) : Res :=
  guardOk (decide (n < 4)) <|
    match s.unitOn (dIP n), nextLoad (s.ip n) with
    | true, some (i, g) => showCommits n (loadGroup n i g s)
    | _, _ => s

/-! ### Frames entering -/

/-- The commit in front applies to the frame entering with number `pfn` (R53, R54, R157). -/
def applyFirst (n pfn : Nat) (c : IpCommit) (s : State) : State × Nat :=
  let s := forceLive (ipShadow n) c.regs s
  let s := modIp n (fun p => { p with
    commits := p.commits.drop 1, tabs := putAll p.tabs c.tabs, told := c.told, seq := c.seq }) s
  let s := raise (0x18 + n) 0x10 (pfn % 65536) (setF (IP_COMMIT_STATUS_done_seq n) c.seq s)
  let late := c.target != pfn || c.waited
  let s := if late then raise (0x18 + n) 0x11 c.seq s else s
  let s := if c.waited then raise (0x18 + n) 0x31 c.seq s else s
  (s, fswIf late fswCommitLate (2 ^ fswCommitApplied))

/-- Every due commit whose loads are complete applies; those that are due and not loaded wait (R54, R157); an overlay's
commit waits for its SOF (R406). The answer
holds the frame's status bits and the groups it brings. -/
def applyDue (n pfn : Nat) : Nat → State → Nat × Nat × State
  | 0, s => (0, 0, s)
  | k + 1, s =>
    match (s.ip n).commits with
    | [] => (0, 0, s)
    | c :: t =>
      if c.gate || ahead c.target pfn then (0, 0, s)
      else if c.capturing || !c.todo.isEmpty then
        let late (c : IpCommit) : IpCommit :=
          { c with waited := c.waited || (!c.gate && !ahead c.target pfn && !c.todo.isEmpty) }
        (0, 0, modIp n (fun p => { p with commits := (c :: t).map late }) s)
      else
        let (s, w) := applyFirst n pfn c s
        let (w', m, s) := applyDue n pfn k s
        (fswOr w w', c.mask ||| m, s)

/-- Changes pass, with its event (R129). -/
def calPass (n pfn : Nat) (to_ : Bool) (s : State) : State :=
  if s.b (IP_CAL_STATUS_pass n) == to_ then s
  else raise (0x18 + n) (if to_ then 0x21 else 0x22) (pfn % 65536) (setF (IP_CAL_STATUS_pass n) (if to_ then 1 else 0) s)

/-- The frame has at least 8 OB rows of at least 256 columns (R130). -/
def State.obEnough (s : State) (n w : Nat) : Bool :=
  decide (s.g (IP_OB_ROWS_start n) + 8 ≤ s.g (IP_OB_ROWS_end n)) && decide (256 ≤ w)

/-- Column trim at a frame start (R128 to R130): clears and discards, or the outcome of learning, which the estimator
decides: after at least 8 frames a free value says whether a set passes, fails, or nothing is decided yet. By the 32nd
frame after enable or clear pass is 1 if there are OB rows enough and the sensor's offsets are stable, which is the
sensor's to say: a set is then learned from all the frames since, a failed one before it or not. -/
def calFrame (n pfn w : Nat) (discard : Bool) (s : State) : State :=
  let s := setF (IP_CAL_CTRL_clear n) 0 s
  if discard || (s.ip n).calClear then
    calPass n pfn false (modIp n (fun p => { p with calSet := none, calLearn := 0, calSeen := 0, calClear := false, calAge := 0 }) s)
  else if s.b (IP_CAL_CTRL_en n) && !s.b (IP_CAL_CTRL_hold n) then
    let s := modIp n (fun p => { p with calAge := if s.obEnough n w then p.calAge + 1 else 0 }) s
    let good (s : State) : State := calPass n pfn true (modIp n (fun p => { p with calSet := some s.fresh, calLearn := 0 }) s)
    let due := 31 ≤ (s.ip n).calAge && 8 ≤ (s.ip n).calSeen && !s.b (IP_CAL_STATUS_pass n)
    if due || 8 ≤ (s.ip n).calLearn then
      let (x, s) := draw s
      if due && Config.offsetsStable n s.fresh then good s
      else if (s.ip n).calLearn < 8 then s
      else match x.toNat % 4 with
        | 0 => good s
        | 1 => calPass n pfn false (modIp n (fun p => { p with calLearn := 0 }) s)
        | _ => s
    else s
  else s

/-- A frame enters unpack: due commits apply, the estimators that a change resets are reset (R54, R127, R129). -/
def enterFrame (n : Nat) (i : FrameInfo) (depth fm fv readouts : Nat) (s : State) : State :=
  let (w, news, s) := applyDue n i.pfn 4 s
  let par := s.live.filter (fun e => ipShadow n e.1)
  let fr : IpFrame := { (parFrame par i) with depth := depth, fillMode := fm, fillVal := fv, readouts := readouts }
  let cfa := fr.g s.variant (IP_FRONT_CFG_cfa n)
  let now := (i.width, readouts, cfa, s.rdLive (IP_OB_ROWS n), s.rdLive (IP_OB_CFG n))
  let (obNew, calNew) := match (s.ip n).last with
    | some (w0, r0, c0, o0, g0) => (decide (r0 ≠ readouts) || o0 != now.2.2.2.1 || g0 != now.2.2.2.2,
        decide (w0 ≠ i.width) || decide (c0 ≠ cfa))
    | none => (true, false)
  let s := if obNew then
      modIp n (fun p => { p with direct := 15, ob := [] }) s
    else s
  let s := calFrame n i.pfn i.width calNew s
  let s := match (s.ip n).progNext with
    | some (t, ps) => if ahead t i.pfn then s else modIp n (fun p => { p with progs := ps, progNext := none }) s
    | none => s
  let p := s.ip n
  let fr := { fr with
    tabs := p.tabs, seq := p.seq, fsw := w, news := news &&& 0x3E, prog := p.progs
    present := 2 ^ readouts - 1, calOn := s.b (IP_CAL_CTRL_en n), calSet := p.calSet }
  showCommits n (modIp n (fun p => { p with frames := p.frames ++ [fr], last := some now }) s)

/-! ### Flow -/

/-- Frames that have left every stage and every producer are done with. -/
def dropDone (n : Nat) (s : State) : State :=
  modIp n (fun p => { p with frames := p.frames.filter (fun f =>
    !(f.stage == 3 && f.closed && f.bufs.isEmpty && !f.statsDue && f.lumaDue.isNone)) }) s

/-- The branches of frame `k`; the copies its commit brought are in use from here (R158). -/
def branchesFrame (n k : Nat) (s : State) : State :=
  let s := (List.range 4).foldl (fun s b => branchFrame n k b s) s
  modFr n k (fun f => { f with stage := 3, news := 0 }) s

/-- Frame `k` goes as far as its slots and the frames before it allow (R139, R140, R201). -/
def flowOne (n k : Nat) (s : State) : State :=
  let held (s : State) (st : Nat) : Bool := ((s.ip n).frames.take k).any (fun f => f.stage ≤ st)
  let at_ (s : State) : Nat × List (Nat × Nat) := match (s.ip n).frames[k]? with
    | some f => (f.stage, f.prog)
    | none => (9, [])
  let s := if (at_ s).1 = 1 && (look (at_ s).2 0).isNone && !held s 1 then sceneFrame n k (slotEnter n k (2 * n) s) else s
  if (at_ s).1 = 2 && (look (at_ s).2 1).isNone && !held s 2 then branchesFrame n k (slotEnter n k (2 * n + 1) s) else s

/-- Every frame of the pipeline moves on, oldest first. -/
def ipFlow (n : Nat) (s : State) : State :=
  showLoading n (showCommits n ((List.range (s.ip n).frames.length).foldl (fun s k => flowOne n k s) s))

/-- The statistics accumulators' parity over a frame's pixels (R185): an error marks its records suspect. -/
def statsParity (n k : Nat) (s : State) : State :=
  match (s.ip n).frames[k]? with
  | none => s
  | some fr =>
    match firstFail (0x1841 + n * 256) (fr.info.width * fr.info.height) s with
    | (none, s) => s
    | (some _, s) => modFr n k (fun f => { f with suspect := true }) s

/-- A frame's last row has passed the front: defect correction, statistics, the colour front, and on (R115). -/
def frameRows (n k : Nat) (s : State) : State :=
  let s := statsParity n k (dpcFrame n k s)
  let s := modFr n k (fun f => { f with statsDue := true }) s
  match (s.ip n).frames[k]? with
  | none => s
  | some fr =>
    let s := (List.range fr.info.height).foldl (fun s y => tapRow n k 2 y (fr.plane.getD y #[]).toList s) s
    let s := toRgb n k s
    let rgb := match (s.ip n).frames[k]? with
      | some f => f.rgb
      | none => #[]
    let s := (List.range fr.info.height).foldl (fun s y =>
      tapRow n k 3 y ((rgb.getD y #[]).toList.flatMap (fun p => [p.1, p.2.1, p.2.2])) s) s
    let s := (List.range 4).foldl (fun s t => wholeBuf n k t s) s
    let s := if fr.learn && s.b (IP_CAL_CTRL_en n) && !s.b (IP_CAL_CTRL_hold n)
      then modIp n (fun p => { p with calLearn := p.calLearn + 1, calSeen := p.calSeen + 1 }) s else s
    ipFlow n (modFr n k (fun f => { f with stage := 1 }) s)

/-- Takes a frame's end, or the mark of a truncated one, from the crossing FIFO (R98, R101). -/
def absorb1 (n : Nat) (s : State) : State :=
  let last := (s.ip n).frames.length - 1
  match (s.port n).fifo with
  | .cut :: t => modFr n last (fun f => { f with cut := true }) (modPort n (fun p => { p with fifo := t }) s)
  | .stop i _ :: t =>
    let s := modPort n (fun p => { p with fifo := t }) s
    let s := modFr n last (fun f => if f.closed then f else { f with
      closed := true, info := { i with hist := f.info.hist, zone := f.info.zone, luma := f.info.luma } }) s
    match (s.ip n).frames[last]? with
    | none => s
    | some fr => { s with feeds := put s.feeds n ((lookD s.feeds [] n).map (fun f =>
        if f.info.pfn == i.pfn && !f.final then { f with info := fr.ident, final := true } else f)) }
  | _ => s

/-- Takes what stands at the front of the crossing FIFO and is no row and no start. -/
def absorb (n : Nat) (s : State) : State := dropDone n (absorb1 n (absorb1 n s))

/-- FRAME_ENTER_UNPACK (R54, R118, R127, R129, R157). -/
def execFrameEnterUnpack (n : Nat) (s : State) : Res :=
  guardOk (decide (n < 4)) <|
    if s.unitOn (dIP n) then
      let s := absorb n s
      match (s.port n).fifo with
      | .start i d fm fv r :: t => enterFrame n i d fm fv r (modPort n (fun p => { p with fifo := t }) s)
      | _ => s
    else s

/-- ROW_ENTER_PIPELINE (R119, R211): a row passes the front; the frame's last row carries the frame on. A row that a
slot's input buffer has no room for stays in the crossing FIFO, and its frame is marked. -/
def execRowEnterPipeline (n : Nat) (s : State) : Res :=
  guardOk (decide (n < 4)) <|
    if s.unitOn (dIP n) then
      let s := absorb n s
      let k := (s.ip n).frames.length - 1
      match (s.port n).fifo, ((s.ip n).frames[k]?).filter (fun f => decide (f.y < f.info.height) && !f.closed) with
      | .row data filled :: t, some fr =>
        let held := s.rowHeld n k
        let s := if s.rowWaits n k then modFr n k (fun f => { f with fsw := fswSet fswBelowRate f.fsw }) s else s
        if held then s
        else
        let s := frontRow n k data filled (modPort n (fun p => { p with fifo := t }) s)
        if fr.y + 1 = fr.info.height then absorb n (frameRows n k s) else absorb n s
      | .row _ _ :: t, none => modPort n (fun p => { p with fifo := t }) s
      | _, _ => s
    else s

/-- A write of IPn_CAL_CTRL (R129): clear acts at the next frame start. The frames of R130 count from an enable. -/
def calCtrlWrite (n : Nat) (v : Word) (s : State) : State :=
  let was := s.b (IP_CAL_CTRL_en n)
  let s := plainWrite (IP_CAL_CTRL n) v s
  let s := if !was && s.b (IP_CAL_CTRL_en n) then modIp n (fun p => { p with calAge := 0, calLearn := 0, calSeen := 0 }) s else s
  if bitOf v.toNat 2 then flag (IP_CAL_CTRL_clear n) (modIp n (fun p => { p with calClear := true }) s) else s

/-- CAL_CLEAR (R129): a write of IPn_CAL_CTRL with clear. -/
def execCalClear (r : Requester) (n : Nat) (v : Word) (s : State) : Res :=
  guardOk (decide (n < 4)) (writeBy r (IP_CAL_CTRL n) (fun s => calCtrlWrite n (v ||| 4) (ipStall n s)) s)

/-- Loads the replaced copy `t` of table `id` again, for every holder of that copy (R159); an error response to the load
is a table error of its group, told once (R149). -/
def reloadTab (n id : Nat) (t : Tab) (s : State) : State :=
  let known := (s.ip n).tabs.any (fun e => tabGroup e.1 == tabGroup id && e.2.bad != 0)
  let (t', bad, s) := readTab n id t.ver t.at_ (s.g (IP_DPC_CNT_count n)) false s
  let swap (m : List (Nat × Tab)) : List (Nat × Tab) := m.map (fun e => if e.1 == id && e.2.ver == t.ver then (id, t') else e)
  let s := modIp n (fun p => { p with tabs := swap p.tabs, frames := p.frames.map (fun f => { f with tabs := swap f.tabs }) }) s
  if bad && !known then tableErr n (tabGroup id) s else s

/-- TABLE_RELOAD (R159, R185): in vertical blanking every replaced copy in force is loaded again from its buffer. -/
def execTableReload (n : Nat) (s : State) : Res :=
  guardOk (decide (n < 4)) <|
    if s.unitOn (dIP n) then
      ((s.ip n).tabs.filter (fun e => e.2.dead != 0)).foldl (fun s e => reloadTab n e.1 e.2 s) s
    else s

/-- The place of the oldest frame that `p` picks. -/
def State.frameWhere (s : State) (n : Nat) (p : IpFrame → Bool) : Option Nat := (s.ip n).frames.findIdx? p

/-- STATS_READY (R183): the records of the oldest frame that has passed T2. -/
def execStatsReady (n : Nat) (s : State) : Res :=
  guardOk (decide (n < 4)) <|
    if s.unitOn (dIP n) then
      let s := absorb n s
      match s.frameWhere n (·.statsDue) with
      | some k => dropDone n (statsWrite n k s)
      | none => s
    else s

/-- LUMA_READY (R183, R184). -/
def execLumaReady (n : Nat) (s : State) : Res :=
  guardOk (decide (n < 4)) <|
    if s.unitOn (dIP n) then
      let s := absorb n s
      match s.frameWhere n (·.lumaDue.isSome) with
      | some k => dropDone n (lumaWrite n k s)
      | none => s
    else s

/-- The oldest whole buffer of producer `p` is offered; the frame's records are written first (R44, R177). -/
def offerProd (n p : Nat) (s : State) : State :=
  let s := absorb n s
  match s.frameWhere n (fun f => f.closed && (match look f.bufs p with
    | some (_, w) => w
    | none => false)) with
  | none => s
  | some k => dropDone n (offerDue n k p s)

/-- TAP_OFFER (R177): a T0 or T1 tap offers its buffer once the frame's T2 statistics are written. -/
def execTapOffer (n t : Nat) (s : State) : Res :=
  guardOk (decide (n < 4 ∧ t < 4)) (if s.unitOn (dIP n) && t < 2 then offerProd n t s else s)

/-- The frame start of producer `p` (R11, R165, R173): the frame at its point, if it has not started there. A branch's
frame follows the one before it through the look slot, so it is the oldest that has not passed the branches. -/
def startAt (n p : Nat) (s : State) : State :=
  let s := absorb n s
  match s.frameWhere n (fun f => if p < 8 then decide (f.stage = 0) else decide (f.stage < 3)) with
  | none => s
  | some k => if p < 8 then startTap n k p s else startBranch n k (p - 8) s

end Sys2Proof.Machine
end

