-- ==== Sys2Proof/Machine/SensBus.lean ====
section
/-! DEFINITION. The settings sequencer (R46 to R50) and the sensor bus (R107 to R109). -/

namespace Sys2Proof.Machine

open Sys2Proof.Config (ms us)

/-! ### Building and closing sets -/

/-- Writes waiting in port `n`'s queue, those of the set being built among them (R50). -/
def setWrites (q : SetSt) : Nat := q.build.length + q.sets.foldl (fun k x => k + x.writes.length) 0

/-- Shows the sets and writes pending. -/
def showSets (n : Nat) (s : State) : State :=
  let q := (s.port n).sets
  setF (SP_SET_STATUS_writes n) (setWrites q) (setF (SP_SET_STATUS_sets n) q.sets.length s)

/-- A write of SPn_SET_DATA (R50). -/
def setPush (n : Nat) (v : Word) (s : State) : State :=
  let q := (s.port n).sets
  if 256 ≤ setWrites q || 16 ≤ q.sets.length then flag (SP_SET_STATUS_full n) s
  else showSets n (modPort n (fun p => { p with sets := { p.sets with build := p.sets.build ++ [setBits v 31 31 0] } }) s)

/-- A write of SPn_SET_CLOSE (R49). -/
def setClose (n : Nat) (v : Word) (s : State) : State :=
  let q := (s.port n).sets
  let t := s.f (SP_SET_TARGET_pfn n)
  let ok := match q.prev <|> q.sets.getLast?.map (fun x => x.target) with
    | none => true
    | some p => t == p || ahead t p
  if q.build.isEmpty then s
  else if !ok then flag (SP_SET_STATUS_order_err n) s
  else
    let no := q.count + 1
    let x : SetQ := ⟨q.build, bitsOf v.toNat 15 0, t, no⟩
    relate n t <| showSets n <| modPort n (fun p => { p with sets := { p.sets with
      build := [], sets := p.sets.sets ++ [x], count := no, prev := some t, want := p.sets.want ++ [(no, t)] } }) s

/-- SET_PUSH. -/
def execSetPush (r : Requester) (n : Nat) (v : Word) (s : State) : Res :=
  guardOk (decide (n < 4)) (writeBy r (SP_SET_DATA n) (setPush n v) s)

/-- SET_CLOSE. -/
def execSetClose (r : Requester) (n : Nat) (v : Word) (s : State) : Res :=
  guardOk (decide (n < 4)) (writeBy r (SP_SET_CLOSE n) (setClose n v) s)

/-! ### The transfer a boundary starts (R108) -/

/-- Sensor address, register and data of a settings write. -/
def setAddr (w : Word) : Nat := bitsOf w.toNat 30 24
def setReg (w : Word) : Nat := bitsOf w.toNat 23 8

/-- The writes that merge with the one before: consecutive registers at one address. -/
def mergeRun (addr reg : Nat) : List Word → List Word
  | [] => []
  | w :: t => if setAddr w = addr && setReg w = reg then w :: mergeRun addr (reg + 1) t else []

/-- The next transfer of a set: its writes and those after it. The last write of a set goes alone, since it alone waits
for a window (R46). -/
def setGroup : List Word → List Word × List Word
  | [] => ([], [])
  | [w] => ([w], [])
  | w :: t =>
    let g := mergeRun (setAddr w) (setReg w + 1) t.dropLast
    (w :: g, t.drop g.length)

/-- The frame whose rows are being read and the row: readout 0's next row, or in strip-scan the row of the latest
trigger's line, two rows to a line in CELL (DESIGN CHOICE 21: the spec does not say which readout's row counts, nor which
row of a strip is read). -/
def State.rowRead (s : State) (n : Nat) : Option (Nat × Nat) :=
  let z := (s.port n).ss
  match (s.port n).frame, z.strips.getLast? with
  | some f, _ => some (f.info.pfn, f.next.getD 0 0)
  | none, some x =>
    some (x.info.pfn, (z.made - 1) % floor1 (s.f (SP_SS_GEOM_n n)) * (if s.b (SP_SS_CTRL_layout n) then 1 else 2))
  | none, none => none

/-- A settings window is open: its frame's PFN, if a set of target `t` may be started in it (R46, R48). -/
def State.windowFor (s : State) (n t : Nat) : Option Nat :=
  match s.rowRead n with
  | none => none
  | some (pfn, row) =>
    let aim := (t + 2 ^ 32 - s.f (SP_SET_CFG_lat n)) % 2 ^ 32
    if s.f (SP_SET_WIN_start n) ≤ row && row < s.f (SP_SET_WIN_end n) && (pfn == aim || ahead pfn aim)
    then some pfn else none

/-- The waiting settings transfer that may start now: the front set's next one, its last only in a window. -/
def State.setReady (s : State) (n : Nat) : Option Xfer :=
  match (s.port n).sets.sets with
  | [] => none
  | q :: _ =>
    let (g, rest) := setGroup q.writes
    match g with
    | [] => none
    | w :: _ =>
      let x : Xfer := { kind := 1, addr := setAddr w, reg := setReg w, bytes := g.map (fun w => BitVec.ofNat 8 w.toNat) }
      if rest.isEmpty then (s.windowFor n q.target).map (fun m => { x with stop := true, from_ := m })
      else some x

/-- The transfer of highest priority that waits: a retry, a link command, a settings write, a direct transfer
(R108, R109). -/
def State.busPick (s : State) (n : Nat) : Option Xfer :=
  let p := s.port n
  if p.busRun.isSome || !s.b (SP_CTRL_en n) then none
  else match p.busAgain, p.mapQ, s.setReady n, p.dirQ with
    | some x, _, _, _ => some x
    | _, x :: _, _, _ => some x
    | _, _, some x, _ => some x
    | _, _, _, some x => some x
    | _, _, _, _ => none

/-- Starts a transfer: a settings write leaves its set, and the last one fixes the frame it is in force from; one sent
in a later window than its target requires is counted and reported (R48). -/
def busStart (n : Nat) (x : Xfer) (s : State) : State :=
  let s := modPort n (fun p => { p with busRun := some x }) s
  if x.again then modPort n (fun p => { p with busAgain := none }) s
  else if x.kind = 0 then modPort n (fun p => { p with mapQ := p.mapQ.tail }) s
  else if x.kind = 2 then modPort n (fun p => { p with dirQ := none }) s
  else match (s.port n).sets.sets with
    | [] => s
    | q :: t =>
      let rest := (setGroup q.writes).2
      let s := modPort n (fun p => { p with sets := { p.sets with sets := { q with writes := rest } :: t } }) s
      let aim := (q.target + 2 ^ 32 - s.f (SP_SET_CFG_lat n)) % 2 ^ 32
      let s := if x.stop && x.from_ != aim then raise (0x10 + n) 0x20 q.target (bump (SP_SET_LATE n) s) else s
      showSets n s

/-- Starts the picked transfer if `p` takes it. -/
def busGo (n : Nat) (p : Xfer → Bool) (s : State) : State :=
  if s.unitOn (dSP n) then match s.busPick n with
    | some x => if p x then busStart n x s else s
    | none => s
  else s

/-- SET_WRITE_SEND: a write of a set other than its last (R46). -/
def execSetWriteSend (n : Nat) (s : State) : Res :=
  guardOk (decide (n < 4)) (busGo n (fun x => x.kind == 1 && !x.stop) s)

/-- SET_LAST_WRITE (R46, R48). -/
def execSetLastWrite (n : Nat) (s : State) : Res :=
  guardOk (decide (n < 4)) (busGo n (fun x => x.kind == 1 && x.stop) s)

/-- MAP_CMD_SEND: the port's link command goes out at a transfer boundary (R76 step 2). -/
def execMapCmdSend (n : Nat) (s : State) : Res :=
  guardOk (decide (n < 4)) (busGo n (fun x => x.kind == 0) s)

/-- BUS_TRANSFER_START (R108). -/
def execBusTransferStart (n : Nat) (s : State) : Res :=
  guardOk (decide (n < 4)) (busGo n (fun _ => true) s)

/-! ### The end of a transfer (R109) -/

/-- The wait of the oldest rate switch that has none yet ends at `due`. -/
def rateWait (due : Nat) : List (Nat × Option Nat) → List (Nat × Option Nat)
  | [] => []
  | (c, none) :: t => (c, some due) :: t
  | x :: t => x :: rateWait due t

/-- A link command's apply write has ended: after a map's the port watches the generation, after a rate's the wait runs
(R76, R78). -/
def linkSent (n : Nat) (rate : Bool) (s : State) : State :=
  modPort n (fun p => { p with jv := if rate then
      { p.jv with newRate := rateWait (s.now + s.f (SP_JV_CMD_ADDR_timeout n) * ms) p.jv.newRate }
    else { p.jv with chg := p.jv.chg.map (fun c => { c with sent := true }) } }) s

/-- The front set has gone out: it is in force from L frames after the frame in whose window its last write started
(R46), though that frame, or a later one, may have closed meanwhile. -/
def setSent (n from_ : Nat) (s : State) : State :=
  match (s.port n).sets.sets with
  | [] => s
  | q :: t =>
    let eff := (from_ + s.f (SP_SET_CFG_lat n)) % 2 ^ 32
    setSettle n eff q.sid q.no <| showSets n <|
      modPort n (fun p => { p with sets := { p.sets with sets := t, effs := p.sets.effs ++ [(eff, q.sid, q.no)] } }) s

/-- A transfer ended well. -/
def xferGood (n : Nat) (x : Xfer) (rdata : Byte) (s : State) : State :=
  match x.kind with
  | 0 => if x.stop then linkSent n x.rate s else s
  | 1 => if x.stop then setSent n x.from_ s else s
  | _ =>
    let s := if x.rd then setF (SP_DIR_STATUS_rdata n) rdata.toNat s else s
    setF (SP_DIR_STATUS_busy n) 0 (setF (SP_DIR_STATUS_done n) 1 s)

/-- A transfer ended by a second NACK (R109). A link command goes on all the same: its apply write is still sent, and
counts as done however it ends (DESIGN CHOICE 23: R109 says what becomes of settings and direct transfers, and R76 that
the port waits and does not resend). -/
def xferBad (n : Nat) (x : Xfer) (s : State) : State :=
  let s := raise (0x10 + n) 0x0A x.addr (bump (SP_BUS_NACK n) s)
  match x.kind with
  | 0 => if x.stop then linkSent n x.rate s else s
  | 1 => showSets n (modPort n (fun p => { p with sets := { p.sets with sets := p.sets.sets.tail } }) s)
  | _ => setF (SP_DIR_STATUS_busy n) 0 (setF (SP_DIR_STATUS_done n) 1 (setF (SP_DIR_STATUS_nack n) 1 s))

/-- The running transfer ends; a first NACK is retried at the next boundary (R109). -/
def busDone (n : Nat) (nack : Bool) (rdata : Byte) (s : State) : State :=
  match (s.port n).busRun with
  | none => s
  | some x =>
    let s := modPort n (fun p => { p with busRun := none }) s
    if x.again then
      let (bad, s) := examDetect (0x1006 + n * 256) nack x.addr 0 s
      if bad then xferBad n x s else xferGood n x rdata s
    else if nack then modPort n (fun p => { p with busAgain := some { x with again := true } }) s
    else xferGood n x rdata s

/-- BUS_TRANSFER_DONE. -/
def execBusTransferDone (n : Nat) (nack : Bool) (rdata : Byte) (s : State) : Res :=
  guardOk (decide (n < 4)) <| if s.unitOn (dSP n) then busDone n nack rdata s else s

/-! ### Direct transfers and in-band interrupts -/

/-- A write of SPn_DIR_CMD: one byte read or write, ignored while busy (R108) and while no controller is available
(R83). -/
def dirCmdWrite (n : Nat) (v : Word) (s : State) : State :=
  if s.b (SP_DIR_STATUS_busy n) || !s.b (SP_CTRL_en n) then s
  else
    let rd := bitOf v.toNat 31
    let x : Xfer := {
      kind := 2, addr := bitsOf v.toNat 30 24, reg := bitsOf v.toNat 23 8
      bytes := if rd then [] else [BitVec.ofNat 8 v.toNat], rd := rd, stop := true }
    setF (SP_DIR_STATUS_busy n) 1 <| setF (SP_DIR_STATUS_done n) 0 <| setF (SP_DIR_STATUS_nack n) 0 <|
      modPort n (fun p => { p with dirQ := some x }) s

/-- DIR_READ: a write of SPn_DIR_CMD with rd = 1. -/
def execDirRead (r : Requester) (n : Nat) (v : Word) (s : State) : Res :=
  guardOk (decide (n < 4)) (writeBy r (SP_DIR_CMD n) (dirCmdWrite n (setBits v 31 31 1)) s)

/-- DIR_WRITE: a write of SPn_DIR_CMD with rd = 0. -/
def execDirWrite (r : Requester) (n : Nat) (v : Word) (s : State) : Res :=
  guardOk (decide (n < 4)) (writeBy r (SP_DIR_CMD n) (dirCmdWrite n (setBits v 31 31 0)) s)

/-- IBI: an in-band interrupt is accepted in the I3C mode while the controller is available (R107). -/
def execIbi (n : Nat) (data : Byte) (s : State) : Res :=
  guardOk (decide (n < 4)) <|
    if s.unitOn (dSP n) && s.b (SP_CTRL_en n) && s.f (SP_BUS_CFG_mode n) == 0 then raise (0x10 + n) 0x0B data.toNat s else s

end Sys2Proof.Machine
end

