-- ==== Sys2Proof/Machine/Javel.lean ====
section
/-! DEFINITION. Javel lanes (R56 to R82): block lock, deskew, judgement of lanes, the hot spare, lane-map and rate
changes, PRBS and margin tests. -/

namespace Sys2Proof.Machine

open Sys2Proof.Config (ms us)

/-! ### Lanes -/

/-- Lane roles (SPn_LANEk_STATUS.role). -/
def roleUnused : Nat := 0
def roleActive : Nat := 1
def roleSpare : Nat := 2
def roleSuspect : Nat := 3
def roleDead : Nat := 4
def roleReturned : Nat := 5

/-- Lane `k` of port `n`. -/
def State.lane (s : State) (n k : Nat) : LaneSt := lookD (s.port n).lanes {} k

/-- Changes lane `k` of port `n`. -/
def modLane (n k : Nat) (f : LaneSt → LaneSt) (s : State) : State :=
  modPort n (fun p => { p with lanes := put p.lanes k (f (lookD p.lanes {} k)) }) s

/-- Changes a port's Javel receiver. -/
def modJv (n : Nat) (f : JvSt → JvSt) (s : State) : State := modPort n (fun p => { p with jv := f p.jv }) s

/-- The lane's role. -/
def State.role (s : State) (n k : Nat) : Nat := s.f (SP_LANE_STATUS_role n k)

/-- The lane holds block lock (R60). -/
def State.locked (s : State) (n k : Nat) : Bool := s.f (SP_LANE_STATUS_lock n k) == 2

/-- A lane is fenced: DEAD or RETURNED (R75). -/
def State.fenced (s : State) (n k : Nat) : Bool := s.role n k == roleDead || s.role n k == roleReturned

/-- The receiver is enabled and not in test mode. -/
def State.jvOn (s : State) (n : Nat) : Bool := s.unitOn (dSP n) && s.b (SP_JV_CTRL_en n) && !s.b (SP_JV_CTRL_test n)

/-- Javel columns reach the port: the link is up and the port selects Javel. -/
def State.jvUp (s : State) (n : Nat) : Bool := s.jvOn n && s.b (SP_JV_STATUS_link_up n) && !s.b (SP_CTRL_phy n)

/-- The active lanes that count for the link: those of the map that are not fenced (R61). -/
def State.activeLanes (s : State) (n : Nat) : List Nat := (s.port n).jv.map.filter (fun k => !s.fenced n k)

/-- The lanes that are deskewed: the active lanes and the spare (R70). -/
def State.skewLanes (s : State) (n : Nat) : List Nat :=
  s.activeLanes n ++ match (s.port n).jv.spare with
    | some k => if s.fenced n k then [] else [k]
    | none => []

/-- The taps of lane `k` adapt now: not frozen, or in a retry (R57). -/
def State.adapting (s : State) (n k : Nat) : Bool :=
  s.b (SP_JV_CTRL_en n) && (!s.b (SP_LANE_CTRL_freeze n k) || (s.lane n k).retryAt.isSome)

/-- What lane `k` delivers is used: it holds lock, is deskewed, and is neither fenced nor in a retry; the blocks of any
other lane are errored (R61, R71, R73, R75). -/
def State.usable (s : State) (n k : Nat) : Bool :=
  s.locked n k && (s.lane n k).alignAt.isSome && !s.fenced n k && s.role n k != roleSuspect

/-- Shows a lane's lock state. -/
def setLock (n k v : Nat) (s : State) : State :=
  let m := s.f (SP_JV_STATUS_locked n)
  let m := if v = 2 then m ||| 2 ^ k else m &&& (4095 - 2 ^ k)
  setF (SP_JV_STATUS_locked n) m (setF (SP_LANE_STATUS_lock n k) v s)

/-- Shows whether a spare is locked, deskewed and unused. -/
def showSpare (n : Nat) (s : State) : State :=
  let ok := match (s.port n).jv.spare with
    | some k => s.role n k == roleSpare && s.locked n k && (s.lane n k).alignAt.isSome
    | none => false
  setF (SP_JV_STATUS_spare_avail n) (if ok then 1 else 0) s

/-- The link's transitions (R61); a fall closes the open frame (R98). -/
def linkCheck (n : Nat) (s : State) : State :=
  let ks := s.activeLanes n
  let s := showSpare n s
  if s.b (SP_JV_STATUS_link_up n) then
    if ks.all (fun k => !s.locked n k) then
      let s := raise (0x10 + n) 0x47 0 <| setF (SP_JV_STATUS_link_up n) 0 <| setF (SP_JV_STATUS_aligned n) 0 <|
        modJv n (fun j => { j with win := none }) s
      if s.b (SP_CTRL_phy n) then s else portClose n .early s
    else s
  else if !ks.isEmpty && ks.all (fun k => s.locked n k && (s.lane n k).alignAt.isSome) && s.b (SP_JV_STATUS_aligned n) then
    raise (0x10 + n) 0x46 0 (flag (SP_JV_STATUS_link_up n) s)
  else s

/-- A lane returns to HUNT (R60) and hands on errored blocks (R61). Only the loss by invalid headers is counted in
SPn_LANEk_LOCK_LOSS, where it is raised (DESIGN CHOICE 22: R60 counts in that row of its table, while the register's text
says transitions from LOCKED to HUNT). -/
def laneHunt (n k : Nat) (s : State) : State :=
  setLock n k 0 <| modLane n k (fun l => { l with
    valid := 0, blk := 0, bad := [], lockAt := none, alignAt := none, out := none }) s

/-- A lane's block boundary slips one bit (R60). -/
def laneSlip (n k : Nat) (s : State) : State := modLane n k (fun l => { l with slip := (l.slip + 1) % 66 }) s

/-- A lane starts adapting from the preset of the lane rate (R57) and hunts; while freeze = 1 the taps hold that preset
(DESIGN CHOICE 22: R57 does not say whether freeze or the restart wins). -/
def lanePreset (n k : Nat) (s : State) : State :=
  laneHunt n k (modLane n k (fun l => { l with taps := (s.port n).jv.rate }) s)

/-- A lane becomes SUSPECT and its retry starts (R73 step 1). -/
def laneSuspect (n k : Nat) (s : State) : State :=
  let s := raise (0x10 + n) 0x40 k (setF (SP_LANE_STATUS_role n k) roleSuspect s)
  linkCheck n (lanePreset n k (modLane n k (fun l => { l with retryAt := some s.now, okAt := none }) s))

/-- The limit of errors in an interval. -/
def State.errLim (s : State) (n : Nat) : Nat := floor1 (s.f (SP_JV_CTRL_err_lim n))

/-- Counts `e` lane errors found by detector `det`; an active lane or spare that reaches the limit becomes SUSPECT
(R73). -/
def laneErrors (n k e det : Nat) (inj : Bool) (s : State) : State :=
  let s := modLane n k (fun l => { l with errs := l.errs + e, det := det, inj := inj }) s
  let r := s.role n k
  if (r == roleActive || r == roleSpare) && s.errLim n ≤ (s.lane n k).errs && !s.b (SP_JV_CTRL_test n) then laneSuspect n k s
  else s

/-! ### Block lock (R58 to R60) -/

/-- The payload of a block with the scrambler taken off, and the bits the descrambler keeps (R59). -/
def descramble (hist : BitVec 58) (p : BitVec 64) : BitVec 64 × BitVec 58 :=
  let all := hist.toNat + p.toNat * 2 ^ 58
  (p ^^^ BitVec.ofNat 64 (all / 2 ^ 19) ^^^ BitVec.ofNat 64 all, BitVec.ofNat 58 (all / 2 ^ 64))

/-- A sync header is valid (R58). -/
def headerOk (h : BitVec 2) : Bool := h == 1 || h == 2

/-- A block from a lane that holds lock: it goes into the elastic buffer (R70 step 1), an errored one as such (R60); an
injected error spoils the lane's block in the column or line that the port receives next (R449). -/
def lockedBlock (n k : Nat) (h : BitVec 2) (plain : BitVec 64) (s : State) : State :=
  let s := if s.fenced n k then
      let s := bump (SP_LANE_FENCED n k) s
      if (s.lane n k).fenced then s
      else raise (0x10 + n) 0x48 k (modLane n k (fun l => { l with fenced := true }) s)
    else s
  let (e, s) := examine (0x1010 + n * 256) (!headerOk h) s
  let blk := (s.lane n k).blk + 1
  let s := modLane n k (fun l => { l with buf := ((if e.err then none else some (h, plain)) :: l.buf).take 32 }) s
  if e.err then
    let bad := ((s.lane n k).bad.filter (fun b => blk < b + 1024)) ++ [blk]
    let s := bump (SP_LANE_HDR_ERR n k)
      (modLane n k (fun l => { l with blk := blk, bad := bad, out := none, spoilt := l.spoilt || e.inj }) s)
    if 32 ≤ bad.length then
      let s := linkCheck n (laneHunt n k (bump (SP_LANE_LOCK_LOSS n k) s))
      laneErrors n k (s.errLim n) 0x10 e.inj s
    else laneErrors n k 1 0x10 e.inj s
  else modLane n k (fun l => { l with blk := blk, out := if s.usable n k then some (h == 2, plain) else none }) s

/-- A block arrives on a lane (R60): its taps adapt unless they are frozen (R57). -/
def blockIn (n k : Nat) (h : BitVec 2) (p : BitVec 64) (s : State) : State :=
  let (plain, hist) := descramble (s.lane n k).hist p
  let on := s.adapting n k
  let s := modLane n k (fun l => { l with hist := hist, taps := if on then Config.adaptTaps k l.taps else l.taps }) s
  match s.f (SP_LANE_STATUS_lock n k) with
  | 0 =>
    if headerOk h then setLock n k 1 (modLane n k (fun l => { l with valid := 1 }) s) else laneSlip n k s
  | 1 =>
    if headerOk h then
      let v := (s.lane n k).valid + 1
      if v < 128 then modLane n k (fun l => { l with valid := v }) s
      else
        let s := setLock n k 2 (modLane n k (fun l => { l with valid := v, lockAt := some s.now, blk := 0, bad := [] }) s)
        linkCheck n (if s.role n k == roleDead then setF (SP_LANE_STATUS_role n k) roleReturned s else s)
    else laneSlip n k (laneHunt n k s)
  | _ => lockedBlock n k h plain s

/-- BLOCK_RECEIVED. -/
def execBlockReceived (n k : Nat) (h : BitVec 2) (p : BitVec 64) (s : State) : Res :=
  guardOk (decide (n < 4) && decide (k < 12)) <| if s.jvOn n then blockIn n k h p s else s

/-! ### Deskew (R68 to R71) -/

/-- The type of a control block: byte 0; a data block has none (R62). -/
def typeOf (b : Block) : Option Nat := if b.1 == 2 then some (b.2.toNat % 256) else none

/-- The copies of a control column disagree in type (R66). -/
def typesSplit (bs : List Block) : Bool := match bs with
  | [] => false
  | b :: t => t.any (fun x => typeOf x != typeOf b)

/-- What lane `k` shows at a column. -/
def seenAt (seen : List AlignSeen) (k : Nat) : AlignSeen := (seen[k]?).getD none

/-- A block is an ALIGN: the lane number and the sequence it carries (R62). -/
def alignOf : Block → Option (Nat × Nat)
  | (h, p) => if h == 2 && p.toNat % 256 == 0x2D then some (bitsOf p.toNat 11 8, bitsOf p.toNat 39 16) else none

/-- The right ALIGN of lane `k`: its sequence and how late it stands there. -/
def rightAlign (seen : List AlignSeen) (k : Nat) : Option (Nat × Nat) :=
  match seenAt seen k with
  | none => none
  | some (b, late) => match alignOf b with
    | some (l, q) => if l == k then some (q, late) else none
    | none => none

/-- Lane `k` shows an ALIGN of another lane's number (R69). -/
def wrongAlign (seen : List AlignSeen) (k : Nat) : Bool :=
  match seenAt seen k with
  | none => false
  | some (b, _) => match alignOf b with
    | some (l, _) => l != k
    | none => false

/-- An ALIGN error on a lane. -/
def alignError (n k : Nat) (inj : Bool) (s : State) : State :=
  laneErrors n k 1 0x11 inj (bump (SP_LANE_ALIGN_ERR n k) s)

/-- A lane is deskewed: its read point is set at its ALIGN, `late` blocks after the first lane's (R70 step 3). In a retry
the first time settles which interval judges the lane (R73 step 2), whatever comes after. -/
def laneAligned (n k late : Nat) (s : State) : State :=
  modLane n k (fun l => { l with
    alignAt := some s.now, read := 16 - late
    okAt := if l.retryAt.isSome && l.okAt.isNone then some s.now else l.okAt }) s

/-- The lane number of an ALIGN on a lane whose column is not checked (R69). -/
def alignNumber (n : Nat) (seen : List AlignSeen) (checked : List Nat) (k : Nat) (s : State) : State :=
  if s.locked n k && !checked.contains k && (seenAt seen k).isSome then
    let (e, s) := examine (0x1011 + n * 256) (wrongAlign seen k) s
    if e.err then alignError n k e.inj s else s
  else s

/-- An ALIGN column at one deskewed lane (R71): sequence `q` is due at this index. -/
def alignCheck (n q : Nat) (seen : List AlignSeen) (k : Nat) (s : State) : State :=
  if (s.lane n k).alignAt.isSome then
    let (e, s) := examine (0x1011 + n * 256) (rightAlign seen k != some (q, 0)) s
    if e.err then alignError n k e.inj (modLane n k (fun l => { l with alignAt := none }) s) else s
  else s

/-- A lane that lost its deskew is deskewed again alone at the next ALIGN, if that continues the column's sequence. -/
def alignAgain (n q : Nat) (seen : List AlignSeen) (k : Nat) (s : State) : State :=
  if (s.lane n k).alignAt.isNone && s.locked n k then
    match rightAlign seen k with
    | some (x, late) => if x == q && late ≤ 16 then laneAligned n k late s else s
    | none => s
  else s

/-- Lanes 0 to 11. -/
def allLanes : List Nat := List.range 12

/-- The length of 16 blocks at the port's lane rate (R56, R58). -/
def State.skewTime (s : State) (n : Nat) : Nat := 16 * 66 * 10000 / ([25, 50, 100, 125, 160, 200].getD (s.port n).jv.rate 200)

/-- The sequence of the first ALIGN to arrive on lanes `ks`, of the lowest position where several come together (R70
step 2). -/
def firstAlign (seen : List AlignSeen) (ks : List Nat) : Option Nat :=
  ((ks.filterMap (rightAlign seen)).foldl (fun m x => match m with
    | none => some x
    | some y => if x.2 < y.2 then some x else m) none).map Prod.fst

/-- An ALIGN column before the port is aligned: it opens a window or adds to it; a lane's ALIGN counts within 16 blocks
of the first (R70 steps 1 to 3). Aligned, the port discards up to the next SOF (step 5), but in strip-scan, where no SOF
counts (R383). -/
def alignAttempt (n : Nat) (seen : List AlignSeen) (s : State) : State :=
  let ks := s.skewLanes n
  let s := allLanes.foldl (fun s k => alignNumber n seen [] k s) s
  if (s.activeLanes n).isEmpty || ks.any (fun k => !s.locked n k) then s
  else
    let (q?, got, start) := match (s.port n).jv.win with
      | some (q, g, t) => (some q, g, t)
      | none => (firstAlign seen ks, [], s.now)
    match q? with
    | none => s
    | some q =>
      let here (k : Nat) : Bool := match rightAlign seen k with
        | some (x, late) => x == q && late ≤ 16
        | none => false
      let new := ks.filter (fun k => here k && !got.contains k)
      let s := new.foldl (fun s k => modLane n k (fun l => { l with read := 16 - ((rightAlign seen k).map Prod.snd).getD 0 }) s) s
      let got := got ++ new
      if ks.all got.contains then
        let s := ks.foldl (fun s k => laneAligned n k (16 - (s.lane n k).read) s) s
        let s := flag (SP_JV_STATUS_aligned n) (modJv n (fun j => { j with seq := q, win := none, fails := 0 }) s)
        linkCheck n (if s.b (SP_CTRL_phy n) || s.stripMode n then s else startDiscard n s)
      else modJv n (fun j => { j with win := some (q, got, start) }) s

/-- An ALIGN column of an aligned port is a control column: its copies at the index are examined for disagreement and for
an unknown type (R64, R66, R82). The answer is what the lanes show: nothing in a column that is then treated as IDLE. -/
def alignExam (n : Nat) (seen : List AlignSeen) (s : State) : List AlignSeen × State :=
  let bs := ((s.port n).jv.map.filter (s.usable n)).filterMap (fun k => match seenAt seen k with
    | some (b, 0) => if headerOk b.1 then some b else none
    | _ => none)
  let (split, s) := examDetect (0x1014 + n * 256) (typesSplit bs) 0 0 s
  let s := if split then frameFsw n fswHeaderCrc (bump (SP_JV_COLERR n) s) else s
  let (odd, s) := if split then (false, s) else examDetect (0x1015 + n * 256) false 0 0 s
  if odd then (List.replicate 12 none, bump (SP_JV_UNKNOWN n) s) else (seen, s)

/-- An ALIGN column. Every deskewed lane is checked, and then the lanes that lost their deskew are looked at. The
column's sequence is the one due while some lane still carries it, else the one the lowest active lane carries
(DESIGN CHOICE 22: the spec does not say which sequence stands after every lane has failed the check). -/
def alignColumn (n : Nat) (seen : List AlignSeen) (s : State) : State :=
  if s.b (SP_JV_STATUS_aligned n) then
    let (seen, s) := alignExam n seen s
    let q := ((s.port n).jv.seq + 1) % 2 ^ 24
    let ks := s.skewLanes n
    let lost := ks.filter (fun k => (s.lane n k).alignAt.isNone)
    let checked := ks.filter (fun k => (s.lane n k).alignAt.isSome)
    let s := allLanes.foldl (fun s k => alignNumber n seen checked k s) s
    let s := ks.foldl (fun s k => alignCheck n q seen k s) s
    let q' := if ks.any (fun k => (s.lane n k).alignAt.isSome) then q
      else match ks.findSome? (rightAlign seen) with
        | some (x, _) => x
        | none => q
    let s := lost.foldl (fun s k => alignAgain n q seen k s) s
    linkCheck n (modJv n (fun j => { j with seq := q' }) s)
  else alignAttempt n seen s

/-- ALIGN_COLUMN. -/
def execAlignColumn (n : Nat) (seen : List AlignSeen) (s : State) : Res :=
  guardOk (decide (n < 4) && seen.length == 12) <|
    if s.jvOn n then alignColumn n seen s else s

/-- DESKEW_WINDOW_END: 16 blocks after it opened, the window ends with a lane missing (R70 step 4). -/
def execDeskewWindowEnd (n : Nat) (s : State) : Res :=
  guardOk (decide (n < 4)) <|
    match (s.port n).jv.win with
    | none => s
    | some (_, _, start) =>
      if s.jvOn n then
        let s := advanceTo (start + s.skewTime n) s
        let fails := (s.port n).jv.fails + 1
        let s := modJv n (fun j => { j with win := none, fails := fails }) s
        if fails = 3 then raise (0x10 + n) 0x44 0 (flag (SP_JV_STATUS_deskew_fail n) s) else s
      else s

/-! ### Columns (R62 to R66) -/

/-- The lanes an SOF column is read from while a map change is with the sensor, in map order: those both maps have
(R76). -/
def State.bothLanes (s : State) (n : Nat) : List Nat :=
  let j := (s.port n).jv
  match j.chg with
  | some c => if c.sent then j.map.filter c.map.contains else j.map
  | none => j.map

/-- What lane `k` delivers at a column: `none` is an errored block (R60, R61). -/
def State.blockAt (s : State) (n : Nat) (col : Column) (k : Nat) : Option Block :=
  match col[k]? with
  | some b => if s.usable n k && headerOk b.1 then some b else none
  | none => none

/-- The copies of a line's SOL or EOL column with a valid header, in map order (R66). -/
def State.copies (s : State) (n : Nat) (col : Column) : List Block := (s.port n).jv.map.filterMap (s.blockAt n col)

/-- The copies of a control column with a valid header, in map order: those of the map in force, and where the lanes that
both maps have show an SOF, theirs alone (R66, R76). A lane whose block was spoilt by an injected error shows none
(R449). -/
def State.copiesAt (s : State) (n : Nat) (col : Column) : List Block :=
  let at_ (ks : List Nat) : List Block := (ks.filter (fun k => !(s.lane n k).spoilt)).filterMap (s.blockAt n col)
  let both := at_ (s.bothLanes n)
  if both.head?.bind typeOf == some 0x33 then both else at_ (s.port n).jv.map

/-- The blocks that injected errors spoilt are gone by with their column or line. -/
def spoiltDone (n : Nat) (s : State) : State :=
  if (s.port n).lanes.any (fun e => e.2.spoilt) then
    modPort n (fun p => { p with lanes := p.lanes.map (fun e => (e.1, { e.2 with spoilt := false })) }) s
  else s

/-- The type is one R62 lists and the sensor may send (R64). -/
def knownType (t : Nat) : Bool := t == 0x1E || t == 0x2D || t == 0x33 || t == 0x4B || t == 0x55 || t == 0x66

/-- What a control column says: its copies are examined for disagreement and for an unknown type (R64, R66, R82). The
answer is the block to act on, if there is one. -/
def columnIn (n : Nat) (col : Column) (s : State) : Option (Nat × Nat) × State :=
  let bs := s.copiesAt n col
  let (bad, s) := examDetect (0x1014 + n * 256) (typesSplit bs) 0 0 (spoiltDone n s)
  if bad then (none, frameFsw n fswHeaderCrc (bump (SP_JV_COLERR n) s))
  else match bs with
    | [] => (none, s)
    | b :: _ => match typeOf b with
      | none => (none, s)
      | some t =>
        let (e, s) := examDetect (0x1015 + n * 256) (!knownType t && t != 0x78) 0 0 s
        if e || t == 0x78 then
          let s := bump (SP_JV_UNKNOWN n) s
          (none, if t == 0x78 && s.b (SP_STATUS_discarding n) then discardUnits n 1 s else s)
        else (some (t, b.2.toNat), s)

/-! ### Lane maps (R72 to R77) -/

/-- Physical lane of position `i` in the staged registers. -/
def State.stagedLane (s : State) (n i : Nat) : Nat :=
  if i < 8 then bitsOf (s.rd (SP_JV_ORDER0 n)).toNat (4 * i + 3) (4 * i)
  else bitsOf (s.rd (SP_JV_ORDER1 n)).toNat (4 * (i - 8) + 3) (4 * (i - 8))

/-- The staged map. -/
def State.stagedMap (s : State) (n : Nat) : List Nat := (List.range (s.f (SP_JV_MAP_count n))).map (s.stagedLane n)

/-- The staged spare, if it can stand (R72): a fenced lane is none (R75). -/
def State.stagedSpare (s : State) (n : Nat) : Option Nat :=
  let k := s.f (SP_JV_MAP_spare n)
  if s.b (SP_JV_MAP_spare_en n) && s.f (SP_JV_MAP_count n) ≤ 11 && k < 12 && !(s.stagedMap n).contains k && !s.fenced n k then
    some k else none

/-- Gives every lane its role under the map in force; fenced lanes keep theirs, and so do suspects still in use. -/
def showRoles (n : Nat) (s : State) : State :=
  (List.range 12).foldl (fun s k =>
    let r := s.role n k
    let want := if (s.port n).jv.map.contains k then roleActive
      else if (s.port n).jv.spare == some k then roleSpare else roleUnused
    if s.fenced n k || (r == roleSuspect && want != roleUnused) then s
    else setF (SP_LANE_STATUS_role n k) want s) s

/-- The LANE_MAP command block: the physical lanes of positions 0 to 11, 0xF where unused. -/
def mapBlock (m : List Nat) : List Byte :=
  let nib (i : Nat) : Nat := m.getD i 15
  [0x78, 0x01] ++ (List.range 6).map (fun i => BitVec.ofNat 8 (nib (2 * i) + nib (2 * i + 1) * 16))

/-- The two private writes of a link command (R76). -/
def linkWrites (n : Nat) (rate : Bool) (block : List Byte) (gen : Nat) (s : State) : State :=
  let a := s.f (SP_JV_CMD_ADDR_addr n)
  let x : Xfer := { kind := 0, addr := a, reg := s.f (SP_JV_CMD_REG_cmd_reg n), bytes := block, rate := rate }
  let y : Xfer := { kind := 0, addr := a, reg := s.f (SP_JV_CMD_REG_apply_reg n), bytes := [BitVec.ofNat 8 gen], rate := rate, stop := true }
  modPort n (fun p => { p with mapQ := p.mapQ ++ [x, y] }) s

/-- A lane-map change starts (R76 step 1). -/
def startChange (n : Nat) (map : List Nat) (spare : Option Nat) (s : State) : State :=
  let g := (s.f (SP_JV_STATUS_gen n) + 1) % 256
  let c : MapChg := { map := map, spare := spare, gen := g }
  linkWrites n false (mapBlock map) g (flag (SP_JV_STATUS_chg_busy n) (modJv n (fun j => { j with chg := some c }) s))

/-- A dead lane of the map is replaced by the spare, if one is available (R74). -/
def laneReplace (n k : Nat) (s : State) : State :=
  match (s.port n).jv.spare with
  | some p =>
    if s.b (SP_JV_STATUS_spare_avail n) then
      startChange n ((s.port n).jv.map.map (fun x => if x = k then p else x)) none s
    else raise (0x10 + n) 0x42 k s
  | none => raise (0x10 + n) 0x42 k s

/-- A lane becomes DEAD (R73 step 3b, R74, R75). A spare that dies while a change is placing it waits for that change, as
any lane does. -/
def laneDead (n k : Nat) (s : State) : State :=
  let l := s.lane n k
  let s := modLane n k (fun l => { l with retryAt := none, okAt := none, readmit := none, fenced := false }) s
  let s := lasting 1 (0x1000 + n * 256 + l.det) l.inj k 0 (raise (0x10 + n) 0x41 k (setF (SP_LANE_STATUS_role n k) roleDead s))
  let j := (s.port n).jv
  let s := if j.spare = some k then
      let placed := match j.chg with
        | some c => c.map.contains k
        | none => false
      showSpare n (modJv n (fun j => { j with spare := none, dead := if placed then j.dead ++ [k] else j.dead }) s)
    else if j.map.contains k then
      if j.chg.isSome then modJv n (fun j => { j with dead := j.dead ++ [k] }) s else laneReplace n k s
    else s
  linkCheck n s

/-- The judgement of a SUSPECT lane at the end of its judgement interval (R73 step 3). -/
def laneJudge (n k : Nat) (s : State) : State :=
  let l := s.lane n k
  if l.errs < s.errLim n && s.locked n k then
    let r := if (s.port n).jv.map.contains k then roleActive else if (s.port n).jv.spare = some k then roleSpare else roleUnused
    let s := modLane n k (fun l => { l with retryAt := none, okAt := none }) s
    transient (0x1000 + n * 256 + l.det) l.inj k 0 (bump (SP_LANE_RETRY n k) (setF (SP_LANE_STATUS_role n k) r s))
  else laneDead n k s

/-- A re-admitted lane after one interval: two consecutive good ones under lock make it the spare (R75). A lane that the
map in force still lists stays fenced (DESIGN CHOICE 22: R75 does not say so; R72 refuses a spare that the map lists). It
may wait for lock without limit, and the first bad full interval ends it (DESIGN CHOICE 22: R75 gives no limit and no
end). -/
def laneReadmitJudge (n k start seen : Nat) (s : State) : State :=
  let l := s.lane n k
  let full := match l.lockAt with
    | some t => decide (t ≤ start)
    | none => false
  let set (x : Option Nat) (s : State) : State := modLane n k (fun l => { l with readmit := x }) s
  if full && s.locked n k && l.errs < s.errLim n then
    if seen = 0 then set (some 1) s
    else
      let s := set none s
      if (s.port n).jv.spare.isNone && (s.port n).jv.map.length ≤ 11 && !(s.port n).jv.map.contains k then
        setF (SP_LANE_STATUS_role n k) roleSpare (modJv n (fun j => { j with spare := some k }) (modLane n k (fun l => { l with fenced := false }) s))
      else s
  else if full || seen != 0 then set none s
  else s

/-- One lane at the end of a 1 ms interval that began at `start`. -/
def laneInterval (n start k : Nat) (s : State) : State :=
  let l := s.lane n k
  let s := if s.b (SP_JV_CTRL_test n) then s
    else match l.retryAt, l.readmit with
      | some r, _ =>
        let from_ := match l.okAt with
          | some o => min o (r + 2 * ms)
          | none => r + 2 * ms
        if from_ ≤ start then laneJudge n k s else s
      | none, some c => if s.fenced n k then laneReadmitJudge n k start c s else s
      | none, none => s
  modLane n k (fun l => { l with errs := 0 }) s

/-- LANE_JUDGE_INTERVAL (R73). -/
def execLaneJudgeInterval (n : Nat) (s : State) : Res :=
  guardOk (decide (n < 4)) <|
    if s.unitOn (dSP n) && s.b (SP_JV_CTRL_en n) then
      let s := advanceTo ((s.port n).jv.tick + ms) s
      let due := max ((s.port n).jv.tick + ms) (s.now / ms * ms)
      let s := modJv n (fun j => { j with tick := due }) s
      showSpare n ((List.range 12).foldl (fun s k => laneInterval n (due - ms) k s) s)
    else s

/-- The new map comes into force at an SOF (R76 steps 3 and 4); lanes that died meanwhile are looked at now (R74). -/
def applyMap (n : Nat) (c : MapChg) (s : State) : State :=
  let dead := (s.port n).jv.dead
  let s := modJv n (fun j => { j with
    map := c.map, spare := c.spare.filter (fun k => !s.fenced n k), chg := none, dead := [], owed := true }) s
  let s := setF (SP_JV_STATUS_gen n) c.gen (setF (SP_JV_STATUS_chg_busy n) 0 s)
  let s := raise (0x10 + n) 0x43 0 (bump (SP_JV_REMAPS n) (showRoles n s))
  let s := showSpare n s
  linkCheck n <| allLanes.foldl (fun s k =>
    if dead.contains k && s.fenced n k && (s.port n).jv.map.contains k then
      if (s.port n).jv.chg.isSome then modJv n (fun j => { j with dead := j.dead ++ [k] }) s else laneReplace n k s
    else s) s

/-- The generation an SOF carries (R76): a new map takes effect with it. -/
def checkGen (n gen : Nat) (s : State) : State :=
  let g := s.f (SP_JV_STATUS_gen n)
  match (s.port n).jv.chg with
  | some c =>
    if c.sent && gen = c.gen then applyMap n c s
    else
      let s := if c.sent then modJv n (fun j => { j with chg := j.chg.map (fun c => { c with frames := c.frames + 1 }) }) s else s
      if gen = g || gen = c.gen then s else flag (SP_JV_STATUS_gen_err n) s
  | none => if gen = g || gen = (g + 1) % 256 then s else flag (SP_JV_STATUS_gen_err n) s

/-- MAP_TIMEOUT (R76 step 5). -/
def execMapTimeout (n : Nat) (s : State) : Res :=
  guardOk (decide (n < 4)) <|
    match (s.port n).jv.chg with
    | some c =>
      if s.unitOn (dSP n) && c.sent && !c.told && s.f (SP_JV_CMD_ADDR_timeout n) ≤ c.frames then
        raise (0x10 + n) 0x45 0 (flag (SP_JV_STATUS_map_timeout n)
          (modJv n (fun j => { j with chg := some { c with told := true } }) s))
      else s
    | none => s

/-- A write of SPn_JV_MAP (R72, R77). -/
def jvMapWrite (n : Nat) (v : Word) (s : State) : State :=
  let c := bitsOf v.toNat 3 0
  let k := bitsOf v.toNat 7 4
  let badSpare := bitOf v.toNat 8 && (11 < k || ((List.range c).map (s.stagedLane n)).contains k)
  if s.b (SP_JV_STATUS_chg_busy n) || 12 < c || badSpare then flag (SP_JV_STATUS_bad_write n) s
  else plainWrite (SP_JV_MAP n) v s

/-- A write of SPn_JV_ORDER0 or _ORDER1 (R72, R77): refused if it would list the enabled spare in the map. Nibbles of 12
to 15 and a lane listed twice are accepted as staged (DESIGN CHOICE 22: the spec says nothing of such a map). -/
def jvOrderWrite (n a : Nat) (v : Word) (s : State) : State :=
  let t := plainWrite a v s
  if s.b (SP_JV_STATUS_chg_busy n) || (s.b (SP_JV_MAP_spare_en n) && (t.stagedMap n).contains (s.f (SP_JV_MAP_spare n)))
  then flag (SP_JV_STATUS_bad_write n) s else t

/-- A write of SPn_JV_CHG (R76, R77): ignored while busy and while the receiver is off; a map that places a fenced lane
is refused (R75). -/
def jvChgWrite (n : Nat) (v : Word) (s : State) : State :=
  if !bitOf v.toNat 0 || s.b (SP_JV_STATUS_chg_busy n) || !s.b (SP_JV_CTRL_en n) then s
  else if (s.stagedMap n).any (fun k => s.fenced n k) then flag (SP_JV_STATUS_bad_write n) s
  else startChange n (s.stagedMap n) (s.stagedSpare n) s

/-- JV_CHG_GO: a write of SPn_JV_CHG with go = 1. -/
def execJvChgGo (r : Requester) (n : Nat) (v : Word) (s : State) : Res :=
  guardOk (decide (n < 4)) (writeBy r (SP_JV_CHG n) (jvChgWrite n (setBits v 0 0 1)) s)

/-! ### Enable and rate (R56, R57, R77, R78) -/

/-- The receiver is switched on: the staged map comes into force and every lane adapts and hunts. A staged map that lists
a fenced lane is refused: the map in force stays, with bad_write (R75; DESIGN CHOICE 23: the spec does not say what becomes
of the enable). The fixed 1 ms intervals of R73 lie at whole milliseconds of the block's time (DESIGN CHOICE 23: the spec
does not say where they begin). -/
def jvStart (n : Nat) (s : State) : State :=
  let refused := (s.stagedMap n).any (fun k => s.fenced n k)
  let s := if refused then flag (SP_JV_STATUS_bad_write n) s else s
  let s := modJv n (fun j => { j with
    map := if refused then j.map else s.stagedMap n, spare := if refused then j.spare else s.stagedSpare n, win := none, fails := 0, tick := s.now / ms * ms }) s
  let s := setF (SP_JV_STATUS_aligned n) 0 (showRoles n s)
  showSpare n ((List.range 12).foldl (fun s k => lanePreset n k s) s)

/-- Every lane loses its lock, and the link falls. A map change in progress stays pending, with its writes, and goes on
after the next enable (DESIGN CHOICE 23: R77 does not say what becomes of it). -/
def lanesDown (n : Nat) (s : State) : State :=
  setF (SP_JV_STATUS_aligned n) 0 (linkCheck n ((List.range 12).foldl (fun s k => laneHunt n k s) s))

/-- A write of SPn_JV_CTRL: a changed rate is refused unless its code stands and reception is stopped (R78, R84). A change
of test keeps lock, alignment, the link, an open frame and the checkers as they are (DESIGN CHOICE 23: R79 stops decoding,
bonding and reception and says no more). -/
def jvCtrlWrite (n : Nat) (v : Word) (s : State) : State :=
  let rate := bitsOf v.toNat 4 2
  let changed := rate != s.f (SP_JV_CTRL_rate n)
  if 5 < rate || (changed && !s.b (SP_STATUS_idle n)) then flag (SP_JV_STATUS_bad_write n) s
  else
    let en := s.b (SP_JV_CTRL_en n)
    let s := plainWrite (SP_JV_CTRL n) v s
    let s := if changed then
        linkWrites n true [0x78, 0x02, BitVec.ofNat 8 rate, 0, 0, 0, 0, 0] (s.f (SP_JV_STATUS_gen n))
          (modJv n (fun j => { j with newRate := j.newRate ++ [(rate, none)] }) s)
      else s
    if !en && s.b (SP_JV_CTRL_en n) then jvStart n s
    else if en && !s.b (SP_JV_CTRL_en n) then lanesDown n s
    else s

/-- JV_ENABLE: a write of SPn_JV_CTRL with en = 1. -/
def execJvEnable (r : Requester) (n : Nat) (v : Word) (s : State) : Res :=
  guardOk (decide (n < 4)) (writeBy r (SP_JV_CTRL n) (jvCtrlWrite n (setBits v 0 0 1)) s)

/-- JV_RATE_WRITE: a write of SPn_JV_CTRL that changes the rate or not, as its value says. -/
def execJvRateWrite (r : Requester) (n : Nat) (v : Word) (s : State) : Res :=
  guardOk (decide (n < 4)) (writeBy r (SP_JV_CTRL n) (jvCtrlWrite n v) s)

/-- RATE_SWITCH (R78 stage 3): after the wait every lane takes the new rate and returns to HUNT; rate writes take effect
one after the other, each after its own command and wait. -/
def execRateSwitch (n : Nat) (s : State) : Res :=
  guardOk (decide (n < 4)) <|
    match s.unitOn (dSP n), (s.port n).jv.newRate with
    | true, (c, some due) :: l =>
      let s := modJv n (fun j => { j with rate := c, newRate := l }) (advanceTo due s)
      lanesDown n ((List.range 12).foldl (fun s k => lanePreset n k s) s)
    | _, _ => s

/-! ### PRBS and margin tests (R79 to R81) -/

/-- Degree and second tap of a PRBS selection. -/
def prbsPoly : Nat → Option (Nat × Nat)
  | 1 => some (7, 6)
  | 2 => some (15, 14)
  | 3 => some (23, 18)
  | 4 => some (31, 28)
  | _ => none

/-- The next bit of a sequence after its last bits, newest first. -/
def prbsNext (d t : Nat) (l : List Bool) : Bool := l.getD (d - 1) false != l.getD (t - 1) false

/-- Adds to the PRBS counters, which saturate (R80). -/
def prbsCount (n k : Nat) (err : Bool) (s : State) : State :=
  let b := min (s.pair (SP_LANE_PRBS_BITS_LO n k) (SP_LANE_PRBS_BITS_HI n k) + 1) (2 ^ 48 - 1)
  let s := setPair (SP_LANE_PRBS_BITS_LO n k) (SP_LANE_PRBS_BITS_HI n k) b s
  if err then wr (SP_LANE_PRBS_ERR n k) (BitVec.ofNat 32 (min ((s.rd (SP_LANE_PRBS_ERR n k)).toNat + 1) (2 ^ 32 - 1))) s else s

/-- One raw bit at the checker (R79). -/
def prbsBit (n k d t : Nat) (b : Bool) (s : State) : State :=
  let p := (s.lane n k).prbs
  let set (p : PrbsSt) (s : State) : State := modLane n k (fun l => { l with prbs := p }) s
  if s.b (SP_LANE_STATUS_prbs_sync n k) then
    let want := prbsNext d t p.seq
    let (err, s) := examDetect (0x1016 + n * 256) (want != b) k 0 s
    let errs := (p.errs.filter (fun e => p.pos + 1 < e + 256)) ++ (if err then [p.pos + 1] else [])
    let s := prbsCount n k err s
    if 32 ≤ errs.length then setF (SP_LANE_STATUS_prbs_sync n k) 0 (set {} s)
    else set { p with seq := (want :: p.seq).take d, pos := p.pos + 1, errs := errs } s
  else
    let hist := (b :: p.hist).take d
    if p.hist.length < d then set { p with hist := hist } s
    else if prbsNext d t p.hist == b then
      if p.run + 1 = 64 then flag (SP_LANE_STATUS_prbs_sync n k) (set { seq := hist } s)
      else set { p with hist := hist, run := p.run + 1 } s
    else set { p with hist := hist, run := 0 } s

/-- PRBS_CHECK: raw bits reach a lane's checker in test mode. -/
def execPrbsCheck (n k : Nat) (bits : List Bool) (s : State) : Res :=
  guardOk (decide (n < 4) && decide (k < 12)) <|
    if s.unitOn (dSP n) && s.b (SP_JV_CTRL_en n) && s.b (SP_JV_CTRL_test n) then
      match prbsPoly (s.f (SP_LANE_CTRL_prbs n k)) with
      | some (d, t) => bits.foldl (fun s b => prbsBit n k d t b s) s
      | none => s
    else s

/-- A write of SPn_LANEk_CTRL (R57, R75, R79 to R81). One with readmit for a lane that is not fenced is ignored as a whole
(R75, R510). A margin test starts with margin_done and margin_pass at 0 (DESIGN CHOICE 23: the spec does not say when the
bits of the test before fall), and margin_go while a test runs starts it afresh (DESIGN CHOICE 23: R81 says nothing of
that). -/
def laneCtrlWrite (n k : Nat) (v : Word) (s : State) : State :=
  if bitOf v.toNat 2 && !s.fenced n k then s else
  let old := s.f (SP_LANE_CTRL_prbs n k)
  let s := plainWrite (SP_LANE_CTRL n k) v s
  let s := if s.f (SP_LANE_CTRL_prbs n k) = old then s
    else setF (SP_LANE_STATUS_prbs_sync n k) 0 (modLane n k (fun l => { l with prbs := {} }) s)
  let s := if bitOf v.toNat 1 then linkCheck n (lanePreset n k s) else s
  let s := if bitOf v.toNat 2 then lanePreset n k (modLane n k (fun l => { l with readmit := some 0 }) s) else s
  let s := if bitOf v.toNat 3 then
      wr (SP_LANE_PRBS_ERR n k) 0 (setPair (SP_LANE_PRBS_BITS_LO n k) (SP_LANE_PRBS_BITS_HI n k) 0 s) else s
  if bitOf v.toNat 9 && s.f (SP_LANE_CTRL_margin_ms n k) != 0 then
    setF (SP_LANE_STATUS_margin_done n k) 0 (setF (SP_LANE_STATUS_margin_pass n k) 0
      (modLane n k (fun l => { l with margin := some (s.now + s.f (SP_LANE_CTRL_margin_ms n k) * ms) }) s))
  else s

/-- A write of SPn_LANEk_CTRL that leaves its stored fields and sets one command bit. -/
def laneCommand (r : Requester) (n k bit : Nat) (s : State) : Res :=
  guardOk (decide (n < 4) && decide (k < 12)) <|
    writeBy r (SP_LANE_CTRL n k) (fun s => laneCtrlWrite n k (setBits (s.rd (SP_LANE_CTRL n k) &&& 0xFFFFFDF1) bit bit 1) s) s

/-- LANE_READAPT. -/
def execLaneReadapt (r : Requester) (n k : Nat) (s : State) : Res := laneCommand r n k 1 s

/-- LANE_READMIT. -/
def execLaneReadmit (r : Requester) (n k : Nat) (s : State) : Res := laneCommand r n k 2 s

/-- PRBS_CNT_CLR. -/
def execPrbsCntClr (r : Requester) (n k : Nat) (s : State) : Res := laneCommand r n k 3 s

/-- MARGIN_GO: a write of SPn_LANEk_CTRL with margin_go = 1. -/
def execMarginGo (r : Requester) (n k : Nat) (v : Word) (s : State) : Res :=
  guardOk (decide (n < 4) && decide (k < 12)) <|
    writeBy r (SP_LANE_CTRL n k) (laneCtrlWrite n k (setBits v 9 9 1)) s

/-- MARGIN_DONE (R81). -/
def execMarginDone (n k : Nat) (disagreed : Bool) (s : State) : Res :=
  guardOk (decide (n < 4) && decide (k < 12)) <|
    match s.unitOn (dSP n), (s.lane n k).margin with
    | false, _ | _, none => s
    | true, some due =>
      let s := modLane n k (fun l => { l with margin := none }) (advanceTo due s)
      let (bad, s) := examDetect (0x1017 + n * 256) disagreed k 0 s
      setF (SP_LANE_STATUS_margin_pass n k) (if bad then 0 else 1) (flag (SP_LANE_STATUS_margin_done n k) s)

end Sys2Proof.Machine
end

