-- ==== Sys2Proof/Machine/Strip.lean ====
section
/-! DEFINITION. Strip-scan (R381 to R391): firing lines, aligning colour rows, strips and overspeed. -/

namespace Sys2Proof.Machine

open Sys2Proof.Config (ms us)

/-- Changes a port's strip-scan state. -/
def modSs (n : Nat) (f : SsSt → SsSt) (s : State) : State := modPort n (fun p => { p with ss := f p.ss }) s

/-- Colour rows R (R383). -/
def State.ssRows (s : State) (n : Nat) : Nat := s.f (SP_SS_CTRL_rows n) + 1

/-- PLANAR layout. -/
def State.ssPlanar (s : State) (n : Nat) : Bool := s.b (SP_SS_CTRL_layout n)

/-- Frame width and height of a strip (R386). -/
def State.ssSize (s : State) (n : Nat) : Nat × Nat :=
  let w := s.f (SP_SS_GEOM_w n)
  let k := s.f (SP_SS_GEOM_n n)
  if s.ssPlanar n then (w, s.ssRows n * k) else (2 * w, 2 * k)

/-- The configuration is in error at the rising edge of run (R390). -/
def State.ssCfgErr (s : State) (n : Nat) : Bool :=
  let w := s.f (SP_SS_GEOM_w n)
  let (fw, fh) := s.ssSize n
  let size := s.f (SP_FRAME_SIZE_width n) != fw || s.f (SP_FRAME_SIZE_height n) != fh
  let bad := fw < 2 || 32768 < fw || fw % 2 == 1 || fh < 2 || 65535 < fh || fh % 2 == 1
  let minper := s.f (SP_SS_MINPER_ns n)
  let px := if s.ssPlanar n then s.ssRows n * w else 4 * w
  s.f (SP_SS_CTRL_src n) == 3 || s.f (SP_FRAME_CFG_readouts n) != 0 || size || bad ||
    (!s.ssPlanar n && 16384 < w) || minper < 4000 || minper * 20 < px ||
    minper < s.f (SP_SS_STROBE_width n) * 8 || s.b (SP_GRP_member n)


/-- The strip-scan registers that take effect at a strip's first output line (R385). -/
def ssLive (n a : Nat) : Bool := (List.range 4).any (fun r => a == SP_SS_DLY n r) || portLive n a

/-- A strip opens at a trigger of instant `t` (R387). -/
def stripOpen (n t : Nat) (s : State) : State :=
  let s := portTake n (ssLive n) s
  let rfn := match s.ref.ticks with
    | t :: _ => t.rfn
    | [] => s.f REF_RFN_rfn
  let (pfn, s) := takePfn n s
  let (w, h) := s.ssSize n
  let i := { startInfo n pfn rfn 0 w h s with sof := s.pinStampOf n t }
  let withheld := s.withholds pfn
  let x : StripSt := {
    info := i, withheld := withheld, side := sideAt n pfn s
    depth := depthOf (s.g (SP_FRAME_CFG_dtype n)), fill := (s.g (SP_FILL_CFG_mode n), s.g (SP_FILL_CFG_value n))
    dly := (List.range 4).map (fun r => (s.g (SP_SS_DLY_int n r), s.g (SP_SS_DLY_frac n r))) }
  let s := modSs n (fun z => { z with strips := z.strips ++ [x] }) s
  let s := if s.f (SP_SET_CFG_echo_src n) == 1 then frameFsw n fswNoEcho s else s
  let s := raiseAt i.sof (0x10 + n) 0 pfn (ovlMarked n s)
  let s := if withheld then countWithheld n s
    else modPort n (fun p => { p with fifo := p.fifo ++
      [.start i x.depth x.fill.1 x.fill.2 1] }) s
  showPort n s

/-- A fired trigger of instant `t`: its pulse on SPn_TRIG and its line (R382, R383, R389). -/
def ssFire (n t : Nat) (s : State) : State :=
  let p := (s.port n).ss.pulses
  let f := (s.port n).ss.made
  let s := addPair (SP_SS_FIRED_LO n) (SP_SS_FIRED_HI n) 1 s
  let s := modSs n (fun z => { z with
    pulses := p + 1, made := f + 1, src := z.src ++ [(f, some p, false)]
    fired := z.fired ++ [(p, { num := p % 65536, at_ := s.now })], last := some t }) s
  let w := s.f (SP_SS_STROBE_width n)
  let s := if w = 0 then s
    else { s with ref := { s.ref with pulses := put s.ref.pulses n (lookD s.ref.pulses [] n ++ [⟨s.now, s.now + w * 8000, s.f REF_RFN_rfn, s.now⟩]) } }
  let s := if s.b (SP_SS_STATUS_overspeed n) then
      raise (0x10 + n) 0x51 (min (s.port n).ss.misses 0xFFFF) (setF (SP_SS_STATUS_overspeed n) 0 s)
    else s
  modSs n (fun z => { z with misses := 0 }) s

/-- A missed trigger: its line repeats the previous fired one (R389). -/
def ssMiss (n : Nat) (s : State) : State :=
  let z := (s.port n).ss
  let s := addPair (SP_SS_MISSED_LO n) (SP_SS_MISSED_HI n) 1 s
  let s := modSs n (fun z => { z with
    made := z.made + 1, misses := z.misses + 1
    src := z.src ++ [(z.made, if z.pulses = 0 then none else some (z.pulses - 1), true)] }) s
  let k := s.f (SP_SS_CTRL_k n)
  if k != 0 && z.misses + 1 = k then raise (0x10 + n) 0x50 (s.f (SP_PFN_pfn n)) (flag (SP_SS_STATUS_overspeed n) s) else s

/-- A trigger of instant `t`, accepted now (R381, R382, R387). -/
def ssTrigger (n t : Nat) (s : State) : State :=
  let z := (s.port n).ss
  if s.running n && s.stripMode n && !z.bad then
    let s := if z.made % floor1 (s.f (SP_SS_GEOM_n n)) = 0 then stripOpen n t s else s
    let late := match z.last with
      | some l => decide (t < l + s.f (SP_SS_MINPER_ns n) * 1000)
      | none => false
    let (miss, s) := examDetect (0x1051 + n * 256) late (s.f (SP_PFN_pfn n)) 0 s
    if miss then ssMiss n s else ssFire n t s
  else s

/-- A Hall edge of position channel `c`, stamped `t`, at a port that takes its triggers from it (R381). -/
def ssHall (c t : Nat) (fwd : Bool) (s : State) : State :=
  (List.range 4).foldl (fun s n =>
    if s.unitOn (dSP n) && s.stripMode n && s.f (SP_SS_CTRL_src n) == 2 && s.f (SP_SS_CTRL_pfi n) == c then
      let div := s.f (SP_SS_DIV_div n)
      let a := (s.port n).ss.acc + (if fwd then 1 else -1)
      if fwd && div != 0 && (div : Int) ≤ a then ssTrigger n t (modSs n (fun z => { z with acc := a - div }) s)
      else modSs n (fun z => { z with acc := a }) s
    else s) s

/-- LINE_TRIGGER: an edge on SPn_LTRIG (R381). -/
def execLineTrigger (at_ n : Nat) (rising : Bool) (s : State) : Res :=
  guardOk (decide (n < 4)) <|
    let s := advanceTo at_ s
    if s.unitOn (dSP n) && s.stripMode n && s.f (SP_SS_CTRL_src n) == (if rising then 0 else 1) then ssTrigger n s.now s else s

/-! ### Lines of the sensor -/

/-- A received line with a usable header in strip-scan (R383). -/
def ssLineIn (n r y dtype : Nat) (good : Bool) (bs : List Byte) (unpack : Nat → Nat → List Byte → List Nat) (s : State) : State :=
  let w := s.f (SP_SS_GEOM_w n)
  if s.ssRows n ≤ r then bump (SP_UNSUP n) s
  else
    let (bad, s) := examDetect (0x1003 + n * 256) (dtype != s.g (SP_FRAME_CFG_dtype n) || bs.length != lineBytes dtype w) 0 0 s
    if bad then bump (SP_LEN_ERR n) s
    else
      let hit := (s.port n).ss.fired.find? (fun e => e.2.num == y && (look e.2.rows r).isNone)
      let (none_, s) := examDetect (0x1004 + n * 256) hit.isNone 0 0 s
      match hit with
      | none => bump (SP_SEQ_ERR n) s
      | some (p, l) =>
        if none_ then bump (SP_SEQ_ERR n) s
        else if good then modSs n (fun z => { z with fired := put z.fired p { l with rows := put l.rows r (some (unpack dtype w bs)) } }) s
        else modSs n (fun z => { z with fired := put z.fired p { l with crc := true } }) s

/-- SS_ROW_TIMEOUT: the colour rows of a fired line that have not arrived in time are filled (R383). -/
def execSsRowTimeout (n : Nat) (s : State) : Res :=
  guardOk (decide (n < 4)) <|
    let k := s.ssRows n
    match s.unitOn (dSP n), (s.port n).ss.fired.find? (fun e => e.2.rows.length < k) with
    | false, _ | _, none => s
    | true, some (p, l) =>
      let s := advanceTo (l.at_ + floor1 (s.f (SP_FRAME_CFG_row_to n)) * us) s
      let rows := (List.range k).foldl (fun m r => if (look m r).isNone then put m r none else m) l.rows
      modSs n (fun z => { z with fired := put z.fired p { l with rows := rows } }) s

/-! ### Output lines (R384 to R388) -/

/-- A colour row of an output line: the codes of the lines it uses that hold any, mixed; the weight in sixteenths they have
against the fill value; and whether a repeated line took part, and a CRC failure is a cause of the fill (R384, R388). -/
structure SsRow where
  px     : Option (List Nat) := none
  weight : Nat := 16
  rep    : Bool := false
  crc    : Bool := false
  deriving DecidableEq, Repr

/-- The colour row holds fill. -/
def SsRow.filled (x : SsRow) : Bool := x.px.isNone || x.weight != 16

/-- What colour row `r` has at line `g`: not there yet, or its codes (none: filled), whether repeated, whether a CRC
failure is the cause of the fill, and whether its delay buffer failed (R391). -/
def SsSt.at_ (z : SsSt) (g r : Nat) : Option (Option (List Nat) × Bool × Bool × Bool) :=
  match look z.src g with
  | none => none
  | some (none, rep) => some (none, rep, false, false)
  | some (some p, rep) => match look z.fired p with
    | none => some (none, rep, false, false)
    | some l => match look l.rows r with
      | none => none
      | some d => some (d, rep, d.isNone && l.crc, l.bad.contains r)

/-- Colour row `r` of output line `f` under its delay, if it is complete (R384): a filled line takes the fill value in its
place, and a line whose delay buffer failed fills the whole colour row (R391). -/
def SsSt.outRow (z : SsSt) (f r : Nat) (d : Nat × Nat) : Option SsRow :=
  let g := f + d.1
  if d.2 = 0 then (z.at_ g r).map (fun x => { px := if x.2.2.2 then none else x.1, rep := x.2.1, crc := x.2.2.1 })
  else match z.at_ g r, z.at_ (g + 1) r with
    | some (a, ra, ca, ea), some (b, rb, cb, eb) =>
      let one : SsRow := { rep := ra || rb, crc := ca || cb }
      if ea || eb then some one
      else match a, b with
        | some a, some b => some { one with px := some (List.zipWith (fun a b => ((16 - d.2) * a + d.2 * b + 8) / 16) a b) }
        | some a, none => some { one with px := some a, weight := 16 - d.2 }
        | none, some b => some { one with px := some b, weight := d.2 }
        | none, none => some one
    | _, _ => none

/-- A line an output line uses will never be made, because firing has stopped (R387). -/
def SsSt.beyond (z : SsSt) (f : Nat) (dly : List (Nat × Nat)) (rows : Nat) : Bool :=
  (List.range rows).any (fun r =>
    let d := dly.getD r (0, 0)
    z.made ≤ f + d.1 + (if d.2 = 0 then 0 else 1))

/-- The output line that leaves next, if it is complete: its colour rows, and whether it is filled whole because firing has
`stopped`. -/
def State.ssNextIf (s : State) (n : Nat) (stopped : Bool) : Option (List SsRow × Bool) :=
  let z := (s.port n).ss
  let k := s.ssRows n
  match z.strips with
  | [] => none
  | x :: _ =>
    let f := z.outLine
    if z.beyond f x.dly k then
      if stopped then some (List.replicate k {}, true) else none
    else
      let rows := (List.range k).map (fun r => z.outRow f r (x.dly.getD r (0, 0)))
      if rows.all Option.isSome then some (rows.filterMap id, false) else none

/-- The output line that leaves next; firing has stopped while the port does not run. -/
def State.ssNext (s : State) (n : Nat) : Option (List SsRow × Bool) := s.ssNextIf n (!s.running n)

/-- The delay buffer of colour row `r` failed at the first line the next output line uses: every output line that uses
that line is filled there (R391). -/
def ssSpoil (n r : Nat) (s : State) : State :=
  modSs n (fun z =>
    let g := z.outLine + (match z.strips with
      | [] => 0
      | x :: _ => (x.dly.getD r (0, 0)).1)
    match look z.src g with
    | some (some p, _) => { z with fired := z.fired.map (fun e => if e.1 = p then (e.1, { e.2 with bad := r :: e.2.bad }) else e) }
    | _ => z) s

/-- The delay-buffer parity of each colour row an output line uses; an error, real at the rows `bad` or injected, fills it,
and spoils the line for the output lines to come (R391). The line that failed is the first of the two that a delayed row
uses (DESIGN CHOICE 25: the detector does not say which of them it read). -/
def ssParity (n : Nat) (bad : List Nat) (rows : List SsRow) (s : State) : List SsRow × State :=
  rows.foldl (fun a x =>
    let r := a.1.length
    let (e, s) := examDetect (0x1050 + n * 256) (bad.contains r) 0 0 a.2
    if e then (a.1 ++ [{ x with px := none }], ssSpoil n r s) else (a.1 ++ [x], s)) ([], s)

/-- The fill code of CFA channel `c` in a strip (R97, R119). -/
def State.ssFill (s : State) (n : Nat) (x : StripSt) (c : Nat) : Nat :=
  min (if x.fill.1 = 0 then s.g (IP_BLK_RAW_code n c) else x.fill.2) (2 ^ x.depth - 1)

/-- Pixel `x` of a colour row, where the fill code is `fill`; a pixel of fill alone is none (R384). -/
def SsRow.pixel (l : SsRow) (fill x : Nat) : Option Nat :=
  l.px.map (fun p => let a := p.getD x 0; if l.weight = 16 then a else (l.weight * a + (16 - l.weight) * fill + 8) / 16)

/-- A CELL frame row of an output line (R386), and whether it counts as filled (R388). -/
def cellRow (w map suby : Nat) (fill : Nat → Nat) (rows : List SsRow) : Codes × Bool :=
  let src (c : Nat) : SsRow := rows.getD (map / 4 ^ c % 4) {}
  let a := src (2 * suby)
  let b := src (2 * suby + 1)
  ((List.range w).flatMap (fun x => [a.pixel (fill (2 * suby)) x, b.pixel (fill (2 * suby + 1)) x]), a.filled || b.filled)

/-- A PLANAR frame row `y` of a colour row (R386): its pixels have the CFA channels of their places. -/
def planarRow (w y : Nat) (fill : Nat → Nat) (l : SsRow) : Codes × Bool :=
  ((List.range w).map (fun x => l.pixel (fill (x % 2 + 2 * (y % 2))) x), l.filled)

/-- Pushes a frame row of the front strip. -/
def stripPush (n : Nat) (codes : Codes) (filled : Bool) (s : State) : State :=
  match (s.port n).ss.strips with
  | [] => s
  | x :: t =>
    let i := { x.info with rowsRx := x.info.rowsRx + (if filled then 0 else 1), filled := x.info.filled + (if filled then 1 else 0) }
    let s := modSs n (fun z => { z with strips := { x with info := i } :: t }) s
    if x.withheld then s else modPort n (fun p => { p with fifo := p.fifo ++ [.row [some codes] filled] }) s

/-- A frame row of the front strip reaches the crossing FIFO (R101): a CELL row finds it full at 8 rows, and is then
passed as missing. The rows of a PLANAR strip wait at the port until there is room (DESIGN CHOICE 25: the spec does not
say where the planes of a strip wait for their turn). -/
def stripRow (n : Nat) (codes : Codes) (filled : Bool) (s : State) : State :=
  match (s.port n).ss.strips with
  | [] => s
  | x :: _ =>
    let (ovf, s) := fifoTake n (!x.withheld && !s.ssPlanar n && decide (8 ≤ fifoLines (s.port n))) s
    if ovf then stripPush n (codes.map (fun _ => none)) true s else stripPush n codes filled s

/-- Changes the front strip. -/
def modStrip (n : Nat) (f : StripSt → StripSt) (s : State) : State :=
  modSs n (fun z => { z with strips := match z.strips with
    | [] => []
    | x :: t => f x :: t }) s

/-- The front strip is whole: it closes (R387, R388, R111). -/
def stripClose (n : Nat) (trunc : Bool) (s : State) : State :=
  match (s.port n).ss.strips with
  | [] => s
  | x :: _ =>
    let k := s.ssRows n
    let s := if s.ssPlanar n then
        (List.range k).foldl (fun s r => (x.rows.filter (fun e => e.1 == r)).foldl (fun s e => stripRow n e.2.1 e.2.2 s) s) s
      else s
    match (s.port n).ss.strips with
    | [] => s
    | x :: t =>
      let eof := s.pinStamp n
      let fsw := fswIf (x.info.filled != 0) fswRowsFilled (fswIf (x.info.filled != 0) fswStatsPartial x.info.fsw)
      let fsw := fswIf trunc fswTruncated fsw
      let fsw := fswIf (s.f (SP_SET_CFG_echo_src n) == 2 && !x.side.echoed) fswNoEcho fsw
      let i := { x.info with fsw := fsw, eof := eof, emb := embOf x.side }
      let s := closeEvents n (bitOf fsw fswShort) trunc i (raiseAt eof (0x10 + n) 1 i.pfn s)
      let s := if x.withheld then s else modPort n (fun p => { p with fifo := p.fifo ++ [.stop i trunc] }) s
      showPort n (modSs n (fun z => { z with strips := t }) s)

/-- An output line leaves (R384, R386, R388); `stop` says it is filled because run fell. -/
def ssOut (n : Nat) (rows : List SsRow) (stop trunc : Bool) (s : State) : State :=
  match (s.port n).ss.strips with
  | [] => s
  | x :: _ =>
    let w := s.f (SP_SS_GEOM_w n)
    let k := s.f (SP_SS_GEOM_n n)
    let j := x.done
    let marks := (List.range rows.length).foldl (fun m r =>
      let e := rows.getD r {}
      m + (if e.rep then 2 ^ r else 0) + (if e.filled then 2 ^ (4 + r) else 0)) 0
    let slots := s.f (SP_SS_MAP_SLOTS_slots n)
    let s := if slots = 0 then s
      else dmaPut 0 (s.f (SP_SS_MAP_LO_addr n) * 64 + s.f (SP_SS_MAP_HI_addr n) * 2 ^ 32 + x.info.pfn % slots * k + j) [BitVec.ofNat 8 marks] s
    let fsw := fswIf (16 ≤ marks) fswRowsFilled (fswIf (marks % 16 != 0) fswLineFill x.info.fsw)
    let fsw := fswIf stop fswShort (fswIf (rows.any (·.crc)) fswLineCrc fsw)
    let s := modStrip n (fun x => { x with done := j + 1, info := { x.info with fsw := fsw } }) s
    let fill := s.ssFill n x
    let s := if s.ssPlanar n then
        modStrip n (fun x => { x with rows := x.rows ++ (List.range rows.length).map (fun r =>
          (r, planarRow w (r * k + j) fill (rows.getD r {}))) }) s
      else
        let m := s.f (SP_SS_CELL_map n)
        let (a, fa) := cellRow w m 0 fill rows
        let (b, fb) := cellRow w m 1 fill rows
        stripRow n b fb (stripRow n a fa s)
    let s := modSs n (fun z =>
      let src := z.src.filter (fun e => z.outLine < e.1)
      { z with outLine := z.outLine + 1, src := src, fired := z.fired.filter (fun e => e.1 + 1 == z.pulses || src.any (fun x => x.2.1 == some e.1)) }) s
    if j + 1 = k then stripClose n trunc s else s

/-- OUTPUT_LINE_COMPLETE: the next output line, if every line it uses is there; `parity` names the colour rows whose delay
buffer fails. -/
def execOutputLineComplete (n : Nat) (parity : List Nat) (s : State) : Res :=
  guardOk (decide (n < 4)) <|
    match s.unitOn (dSP n), s.ssNext n with
    | false, _ | _, none => s
    | true, some (rows, stop) =>
      let (rows, s) := if stop then (rows, s) else ssParity n parity rows s
      ssOut n rows stop false s

/-- Output lines that the open strips still lack. -/
def State.ssLeft (s : State) (n : Nat) : Nat :=
  (s.port n).ss.strips.foldl (fun c x => c + (s.f (SP_SS_GEOM_n n) - x.done)) 0

/-- Output lines leave while the next is complete; `short` marks their strips as such. -/
def ssLeave (n : Nat) (short : Bool) (s : State) : State :=
  (List.range (s.ssLeft n)).foldl (fun s _ => match s.ssNextIf n true with
    | none => s
    | some (rows, stop) => ssOut n rows (stop || short) false s) s

/-- What a run that has stopped leaves open ends when the next one begins: what is complete leaves, the lines still
outstanding, whose numbers will come again, are filled, and so is the rest of each strip (R387; DESIGN CHOICE 25: the spec
does not say what becomes of them). -/
def ssDrain (n : Nat) (s : State) : State :=
  let k := s.ssRows n
  let whole (l : SsLine) : SsLine := { l with rows := (List.range k).foldl (fun m r => if (look m r).isNone then put m r none else m) l.rows }
  ssLeave n true (modSs n (fun z => { z with fired := z.fired.map (fun e => (e.1, whole e.2)) }) (ssLeave n false s))

/-- run rises in strip-scan: the check, and a fresh count of lines (R389, R390). The previous fired trigger, a run of
misses and the accumulator stand (R381, R382, R389). -/
def ssStart (n : Nat) (s : State) : State :=
  let s := ssDrain n s
  let err := s.ssCfgErr n
  let s := setPair (SP_SS_FIRED_LO n) (SP_SS_FIRED_HI n) 0 <| setPair (SP_SS_MISSED_LO n) (SP_SS_MISSED_HI n) 0 <|
    modSs n (fun z => { bad := err, last := z.last, misses := z.misses, acc := z.acc }) s
  if err then raise (0x10 + n) 0x52 0 (flag (SP_SS_STATUS_cfg_err n) s) else s

/-- Fills what open strips still lack, when the port is disabled (R84, R98); the count of pulses stands until run rises
(R383). -/
def ssFlush (n : Nat) (s : State) : State :=
  let k := s.ssRows n
  let s := (List.range (s.ssLeft n)).foldl (fun s _ => ssOut n (List.replicate k {}) false true s) s
  modSs n (fun z => { bad := z.bad, pulses := z.pulses, last := z.last, misses := z.misses, acc := z.acc }) s

/-- Strip-scan begins: REF's pulses on SPn_TRIG end, and those still due never start (R382). -/
def ssTakePin (n : Nat) (s : State) : State :=
  { s with ref := { s.ref with
      pulses := del s.ref.pulses n, active := del s.ref.active n, trigHigh := s.ref.trigHigh.filter (· != n) } }

/-- A write of a strip-scan register that stands only while the port is idle. -/
def ssIdleWrite (n a : Nat) (v : Word) (s : State) : State :=
  if s.b (SP_STATUS_idle n) then
    let was := s.stripMode n
    let s := plainWrite a v s
    if !was && s.stripMode n then ssTakePin n s else s
  else flag (SP_SS_STATUS_bad_write n) s

end Sys2Proof.Machine
end

