-- ==== Sys2Proof/Machine/Pfi.lean ====
section
/-! DEFINITION. Position feedback and shutter drive (R369 to R380). A command carries the instant at which pins take new
levels and how many samples in a row they hold. -/

namespace Sys2Proof.Machine

open Sys2Proof.Config (us)

/-- Channel `c`. -/
def State.pfi (s : State) (c : Nat) : PfiSt := lookD s.pfis {} c

/-- Changes channel `c`. -/
def modPfi (c : Nat) (f : PfiSt → PfiSt) (s : State) : State := { s with pfis := put s.pfis c (f (s.pfi c)) }

/-- Raises local event `i` of channel `c` (R380). -/
def pfiRaise (c i arg : Nat) (s : State) : State := raise 0x54 (16 * c + i) arg s

/-- Raises local event `i` of channel `c` for an edge whose first sample was at `t` (R369). -/
def pfiEdge (c t i arg : Nat) (s : State) : State := raiseAt (s.stampOf t) 0x54 (16 * c + i) arg s

/-- Detector `i` of channel `c` (R380). -/
def pfiDet (c i : Nat) : Nat := 0x5400 + 16 * c + i

/-- The PFI domain is on and the channel enabled. -/
def State.pfiOn (s : State) (c : Nat) : Bool := s.domOn dPFI && s.b (PFI_CTRL_en c)

/-- The first HCLK sample at or after an instant (R369). -/
def sampleAt (t : Nat) : Nat := ceilDiv t 10000 * 10000

/-- Levels that hold for `held` samples pass the glitch filter (R369). -/
def State.pfiAccepts (s : State) (c held : Nat) : Bool := decide (s.f (PFI_CTRL_filt c) < held)

/-- The sample at which a level that stands from the sample at `t` on is accepted (R369). -/
def State.pfiAt (s : State) (c t : Nat) : Nat := t + s.f (PFI_CTRL_filt c) * 10000

/-! ### Position, direction, speed and period (R370 to R374) -/

/-- The place of a valid Hall state in the forward sequence (R370). -/
def hallPlace : Nat → Option Nat
  | 1 => some 0 | 3 => some 1 | 2 => some 2 | 6 => some 3 | 4 => some 4 | 5 => some 5
  | _ => none

/-- What a change of the accepted state is against the reference state (R370). -/
inductive HallStep
  | fwd | bwd | skip | same | invalid
  deriving DecidableEq, Repr

/-- Judges a new state against the reference (R370). -/
def hallStep (old new : Nat) : HallStep :=
  match hallPlace new, hallPlace old with
  | none, _ => .invalid
  | some _, none => .skip
  | some b, some a =>
    if a = b then .same
    else if b = (a + 1) % 6 then .fwd
    else if a = (b + 1) % 6 then .bwd
    else .skip

/-- Closes the speed windows whose boundary is at or before `t`; the last one's net count shows (R373). -/
def speedTo (c t : Nat) (s : State) : State :=
  let x := s.pfi c
  let len := floor1 x.winLen * us
  if t < x.winAt + len then s
  else
    let s := wr (PFI_SPEED c) (w32 x.net) (modPfi c (fun y => { y with winAt := y.winAt + len, winLen := s.f (PFI_SPD_WIN_us c), net := 0 }) s)
    let x := s.pfi c
    let len := floor1 x.winLen * us
    let more := (t - x.winAt) / len
    if more = 0 then s
    else wr (PFI_SPEED c) 0 (modPfi c (fun y => { y with winAt := y.winAt + more * len }) s)

/-- The direction flag after one count, of an edge stamped `t` (R372): it flips when the count is behind its extreme by
more than hyst. -/
def dirCount (c t : Nat) (bwd : Bool) (s : State) : State :=
  let x := s.pfi c
  let flag := s.b (PFI_STATUS_dir c)
  let back := if bwd == flag then x.back - 1 else x.back + 1
  if floor1 (s.f (PFI_CTRL_hyst c)) < back then
    let v := if flag then 0 else 1
    pfiEdge c t 2 v (setF (PFI_STATUS_dir c) v (modPfi c (fun y => { y with back := 0 }) s))
  else modPfi c (fun y => { y with back := back }) s

/-- The edge timer at an edge (R374), in units of 10 ns. -/
def edgeTimer (c t : Nat) (bwd : Bool) (s : State) : State :=
  let s := match (s.pfi c).last with
    | some (l, b) =>
      if b == bwd then
        wr (PFI_PERIOD c) (BitVec.ofNat 32 (min ((t - l) / 10000) 0xFFFFFFFF)) (flag (PFI_STATUS_per_valid c) s)
      else s
    | none => s
  modPfi c (fun x => { x with last := some (t, bwd) }) s

/-- What PFIc_PERIOD reads: the larger of the last period and the time since the last edge (R374). -/
def State.periodNow (s : State) (c : Nat) : Word :=
  match (s.pfi c).last with
  | some (l, _) => BitVec.ofNat 32 (min (max (s.rd (PFI_PERIOD c)).toNat ((s.now - l) / 10000)) 0xFFFFFFFF)
  | none => s.rd (PFI_PERIOD c)

/-- A count of `d` in the sample of an index edge comes before that edge's latch and zeroing, whichever command is first
(R371): PFIc_IDX_POS and the event take it in, and a zeroed count stays 0. -/
def indexAfter (c t : Nat) (d : Int) (s : State) : State :=
  if (s.pfi c).idxAt = some s.now then
    let pos := w32 (s32 (s.rd (PFI_IDX_POS c)) + d)
    let stamp := s.stampOf t
    let s := { s with evr := { s.evr with flight := s.evr.flight.map (fun e =>
      if e.id = 0x5401 + 16 * c && e.t == stamp then { e with arg := pos.toNat % 65536 } else e) } }
    let s := wr (PFI_IDX_POS c) pos s
    if s.b (PFI_CTRL_idx_zero c) then wr (PFI_POS c) 0 s else s
  else s

/-- One counted edge whose first sample was at `t` (R370 to R374). -/
def hallCount (c t new : Nat) (bwd : Bool) (s : State) : State :=
  let d : Int := if bwd then -1 else 1
  let s := indexAfter c t d (wr (PFI_POS c) (w32 (s32 (s.rd (PFI_POS c)) + d)) s)
  let s := modPfi c (fun x => { x with net := x.net + d }) s
  let s := pfiEdge c t 0 (new + if bwd then 8 else 0) (setF (PFI_STATUS_hall c) new s)
  edgeTimer c t bwd (dirCount c t bwd s)

/-! ### Drive (R375 to R377) -/

/-- The commutation entry of a Hall state; a reserved phase code acts as off (R376). -/
def State.commEntry (s : State) (c hall : Nat) : Nat :=
  let e := match hall with
    | 1 => s.f (PFI_COMM0_h1 c) | 2 => s.f (PFI_COMM0_h2 c) | 3 => s.f (PFI_COMM0_h3 c)
    | 4 => s.f (PFI_COMM1_h4 c) | 5 => s.f (PFI_COMM1_h5 c) | 6 => s.f (PFI_COMM1_h6 c)
    | _ => 0
  let one (i : Nat) : Nat := if e / 4 ^ i % 4 = 3 then 0 else e / 4 ^ i % 4 * 4 ^ i
  one 0 + one 1 + one 2

/-- Puts a commutation code on the outputs: each phase notes when its own code last changed. -/
def pfiCode (c code : Nat) (s : State) : State :=
  modPfi c (fun x => if x.code = code then x else { x with
    code := code
    codeAt := (List.range 3).map (fun k => if x.code / 4 ^ k % 4 = code / 4 ^ k % 4 then x.codeAt.getD k 0 else s.now) }) s

/-- The channel drives its outputs (R376, R377). -/
def State.drives (s : State) (c : Nat) : Bool :=
  s.pfiOn c && s.b (PFI_CTRL_drv_en c) && !s.b (PFI_STATUS_fault c) && (s.pfi c).fltHigh

/-- Applies the entry of the accepted state while the channel drives (R376, R377). -/
def pfiDrive (c : Nat) (s : State) : State :=
  if s.drives c then
    pfiCode c (if (s.pfi c).seen then s.commEntry c (s.pfi c).hall else 0) s
  else pfiCode c 0 s

/-- The outputs after a write that may start or stop the drive; one that does neither leaves them (R376). -/
def pfiDriveIf (c : Nat) (was : Bool) (s : State) : State := if s.drives c == was then s else pfiDrive c s

/-- The PWM set in force at the present instant (R375). -/
def State.pwmNow (s : State) (c : Nat) : Nat × Nat × Nat × Nat :=
  match (s.pfi c).pwmNext with
  | some x => if x.1 ≤ s.now then x else (s.pfi c).pwm
  | none => (s.pfi c).pwm

/-- A written period, duty or dead time takes effect at the start of the next PWM period (R375). -/
def pwmTake (c : Nat) (s : State) : State :=
  let x := s.pwmNow c
  let len := floor1 x.2.1 * Config.fclk
  let next := x.1 + ((s.now - x.1) / len + 1) * len
  modPfi c (fun y => { y with pwm := x, pwmNext := some (next, s.f (PFI_PWM_per c), s.f (PFI_PWM_DUTY_duty c), s.f (PFI_PWM_dead c)) }) s

/-- The high and low switches of phase `k` now: centre-aligned PWM of the high side alone, and after a change of the
phase's code both are off for the dead time (R375, R376). -/
def State.pfiSwitch (s : State) (c k : Nat) : Bool × Bool :=
  let x := s.pfi c
  let (start, per, duty, dead) := s.pwmNow c
  let ph := (s.now - start) / Config.fclk % floor1 per
  let on := min duty per
  let lo := (per - on) / 2
  let settled := dead * Config.fclk ≤ s.now - x.codeAt.getD k 0
  match x.code / 4 ^ k % 4 with
  | 1 => (settled && decide (lo ≤ ph) && decide (ph < lo + on), false)
  | 2 => (false, settled)
  | _ => (false, false)

/-- A write of PFIc_PWM: a period from 256 (R375). -/
def pwmWrite (c : Nat) (v : Word) (s : State) : State :=
  if bitsOf v.toNat 15 0 < 256 then flag (PFI_STATUS_bad_write c) s else pwmTake c (plainWrite (PFI_PWM c) v s)

/-- A write of PFIc_PWM_DUTY. -/
def dutyWrite (c : Nat) (v : Word) (s : State) : State := pwmTake c (plainWrite (PFI_PWM_DUTY c) v s)

/-- A write of a commutation register; a reserved phase code sets bad_write (R376). -/
def commWrite (c a : Nat) (v : Word) (s : State) : State :=
  let s := plainWrite a v s
  if (List.range 9).any (fun i => v.toNat / 4 ^ i % 4 == 3) then flag (PFI_STATUS_bad_write c) s else s

/-- A write of PFIc_STATUS: fault clears only while the pin is high, and the drive then resumes (R377). -/
def pfiStatusWrite (c : Nat) (v : Word) (s : State) : State :=
  let was := s.drives c
  let s := plainWrite (PFI_STATUS c) v s
  if (s.pfi c).fltHigh then pfiDriveIf c was s else flag (PFI_STATUS_fault c) s

/-- A write of PFIc_CTRL. -/
def pfiCtrlWrite (c : Nat) (v : Word) (s : State) : State :=
  let was := s.b (PFI_CTRL_en c)
  let drove := s.drives c
  let s := plainWrite (PFI_CTRL c) v s
  let s := if (s.pfi c).fltHigh then s else flag (PFI_STATUS_fault c) s
  let s := if !was && s.b (PFI_CTRL_en c) then
    setF (PFI_STATUS_per_valid c) 0 (modPfi c (fun x => { x with
      last := none, back := 0, winAt := s.now, winLen := s.f (PFI_SPD_WIN_us c), net := 0, edges := [], wins := [] }) s)
  else s
  pfiDriveIf c drove s

/-- A write of PFIc_SPD_WIN: 10 to 1,000,000 µs, from the next window on (R373). -/
def spdWinWrite (c : Nat) (v : Word) (s : State) : State :=
  let n := bitsOf v.toNat 19 0
  if n < 10 || 1000000 < n then flag (PFI_STATUS_bad_write c) s else plainWrite (PFI_SPD_WIN c) v s

/-- A write of PFIc_PH_CFG: enabled, the detector targets the ticks from now on (R378). -/
def phCfgWrite (c : Nat) (v : Word) (s : State) : State :=
  let was := s.b (PFI_PH_CFG_en c)
  let s := plainWrite (PFI_PH_CFG c) v s
  if !was && s.b (PFI_PH_CFG_en c) then modPfi c (fun x => { x with edges := [], wins := [] }) s else s

/-- drv_en clears on every channel (R377, T3). -/
def pfiAllOff (s : State) : State :=
  (List.range 4).foldl (fun s c => pfiDrive c (setF (PFI_CTRL_drv_en c) 0 s)) s

/-! ### Commands -/

/-- HALL_EDGE: the Hall pins take a new state; it acts at the sample at which it is accepted, stamped with its first
(R369 to R374, R376). The accepted state is judged against the last valid one. -/
def execHallEdge (at_ c : Nat) (state : BitVec 3) (held : Nat) (s : State) : Res :=
  guardOk (decide (c < 4)) <|
    let t := sampleAt at_
    let s := advanceTo t s
    let new := state.toNat
    if !s.pfiOn c || !s.pfiAccepts c held || ((s.pfi c).seen && (s.pfi c).hall = new) then s
    else
      let s := advanceTo (s.pfiAt c t) s
      let s := speedTo c s.now s
      let old := s.f (PFI_STATUS_hall c)
      let step := hallStep old new
      let (inv, s) := examDetect (pfiDet c 0) (step == .invalid) 0 0 s
      let (odd, s) := if inv then (false, s) else examDetect (pfiDet c 1) (step == .skip && old != 0) 0 0 s
      let s := modPfi c (fun x => { x with hall := if inv && step != .invalid then 0 else new, seen := true }) s
      let s :=
        if inv then pfiEdge c t 3 0 (bump (PFI_INVALID c) s)
        else if odd then pfiEdge c t 4 new (bump (PFI_SKIP c) (setF (PFI_STATUS_hall c) new s))
        else match step with
          | .fwd => ssHall c t true (hallCount c t new false s)
          | .bwd => ssHall c t false (hallCount c t new true s)
          | _ => setF (PFI_STATUS_hall c) new s
      pfiDrive c s

/-- An index edge at `t` in the windows of the phase detector that hold it (R378): every one after a window's first is
counted. Edges that no window to come can take in are forgotten. -/
def phaseEdge (c t : Nat) (s : State) : State :=
  let x := s.pfi c
  let more := (x.wins.filter (fun w => w.holds t && w.n != 0)).length
  let old := 2147483648000 + 536870912000
  bumpBy (PFI_PH_EXTRA c) more (modPfi c (fun x => { x with
    edges := x.edges.filter (fun e => decide (t ≤ e + old)) ++ [t]
    wins := x.wins.map (fun w => if w.holds t then { w with first := some (w.first.getD t), n := w.n + 1 } else w) }) s)

/-- INDEX_EDGE: an edge of the index input (R369, R371, R378). -/
def execIndexEdge (at_ c : Nat) (rising : Bool) (held : Nat) (s : State) : Res :=
  guardOk (decide (c < 4)) <|
    let t := sampleAt at_
    let s := advanceTo t s
    if !s.pfiOn c || !s.pfiAccepts c held || !s.b (PFI_CTRL_idx_en c) || rising == s.b (PFI_CTRL_idx_pol c) then s
    else
      let s := advanceTo (s.pfiAt c t) s
      let pos := s.rd (PFI_POS c)
      let s := pfiEdge c t 1 (pos.toNat % 65536) (wr (PFI_IDX_POS c) pos s)
      let s := if s.b (PFI_CTRL_idx_zero c) then wr (PFI_POS c) 0 s else s
      let s := modPfi c (fun x => { x with idxAt := some s.now }) s
      if s.b (PFI_PH_CFG_en c) then phaseEdge c t s else s

/-- A write of PFIc_POS sets the count at the next HCLK sample, before an edge of that sample (R371). -/
def posWrite (c : Nat) (v : Word) (s : State) : State := wr (PFI_POS c) v (advanceTo ((s.now / 10000 + 1) * 10000) s)

/-- POS_WRITE (R371). -/
def execPosWrite (r : Requester) (c : Nat) (v : Word) (s : State) : Res :=
  guardOk (decide (c < 4)) (writeBy r (PFI_POS c) (posWrite c v) s)

/-- SPEED_WINDOW: the window in progress ends (R373). -/
def execSpeedWindow (c : Nat) (s : State) : Res :=
  guardOk (decide (c < 4)) <|
    if s.pfiOn c then
      let t := (s.pfi c).winAt + floor1 (s.pfi c).winLen * us
      let s := advanceTo t s
      speedTo c s.now s
    else s

/-- FAULT_INPUT: the level of PFIc_FLT_N (R377), which the pin keeps while the block is off. -/
def execFaultInput (c : Nat) (high : Bool) (s : State) : Res :=
  guardOk (decide (c < 4)) <|
    let s := modPfi c (fun x => { x with fltHigh := high }) s
    if !s.domOn dPFI then s
    else
      let (bad, s) := examDetect (pfiDet c 2) (!high) 0 0 s
      if bad then pfiRaise c 7 0 (pfiDrive c (flag (PFI_STATUS_fault c) s)) else s

/-- The window that closes first (R378). -/
def PfiSt.phNext (x : PfiSt) : Option PhWin :=
  x.wins.foldl (fun m w => match m with
    | none => some w
    | some v => if w.target + (w.tick.per * 500 : Nat) < v.target + (v.tick.per * 500 : Nat) then some w else some v) none

/-- PHASE_WINDOW_CLOSE: the window due first closes and publishes its report (R378, R379). -/
def execPhaseWindowClose (c : Nat) (s : State) : Res :=
  guardOk (decide (c < 4)) <|
    match s.pfiOn c && s.b (PFI_PH_CFG_en c), (s.pfi c).phNext with
    | false, _ | _, none => s
    | true, some w =>
      let k := w.tick
      let s := advanceTo (w.target + (k.per * 500 : Nat)).toNat s
      let s := modPfi c (fun x => { x with wins := x.wins.erase w }) s
      let (miss, s) := examDetect (pfiDet c 3) w.first.isNone 0 0 s
      let err : Int := match miss, w.first with
        | false, some e => ((e : Int) - w.target).fdiv 1000
        | _, _ => 0
      let info := (if miss then 0 else 1) + (if w.n ≤ 1 then 0 else 2) + (if k.st = refHoldover then 4 else 0) +
        (if k.st = refAcquiring then 8 else 0) + (if k.moved then 16 else 0)
      let s := wr (PFI_PH_ERR c) (w32 err) (wr (PFI_PH_RFN c) (BitVec.ofNat 32 k.rfn) (setF (PFI_PH_INFO_info c) info s))
      let s := if miss then pfiRaise c 6 k.rfn (bump (PFI_PH_MISS c) s) else s
      pfiRaise c 5 k.rfn s

end Sys2Proof.Machine
end

