-- ==== Sys2Proof/Machine/Port.lean ====
section
/-! DEFINITION. The sensor port's own commands (R83 to R106, R110, R111): enable and run, what arrives over Javel and
CSI-2, timeouts, group verdicts and the pins. -/

namespace Sys2Proof.Machine

open Sys2Proof.Config (ms us)

/-! ### Control -/

/-- The port is enabled: PFN 0, and the expectations of the settings sequencer start afresh (R39, R42, R49). -/
def portStart (n : Nat) (s : State) : State :=
  let s := setF (SP_PFN_pfn n) 0 s
  modPort n (fun p => { p with
    nextPfn := 0
    sets := { p.sets with
      sid := s.f (SP_SET_CFG_sid_init n), effs := [], prev := none
      want := p.sets.want.filter (fun e => p.sets.sets.any (fun q => q.no == e.1)) } }) s

/-- A write of SPn_CTRL (R83, R84, R104, R390). -/
def spCtrlWrite (n : Nat) (v : Word) (s : State) : State :=
  if s.b (SP_CTRL_en n) && bitOf v.toNat 2 != s.b (SP_CTRL_phy n) then flag (SP_STATUS_bad_write n) s
  else
    let en := s.b (SP_CTRL_en n)
    let run := s.b (SP_CTRL_run n)
    let xclk := s.b (SP_CTRL_xclk_en n)
    let s := plainWrite (SP_CTRL n) v s
    let s := if !en && s.b (SP_CTRL_en n) then portStart n s else s
    let s := if en && !s.b (SP_CTRL_en n) then ssFlush n (portClose n .early s) else s
    let s := if !run && s.b (SP_CTRL_run n) && s.stripMode n then ssStart n s else s
    let s := if !xclk && s.b (SP_CTRL_xclk_en n) then
        modPort n (fun p => { p with xclk := some (s.f (SP_XCLK_CFG_div n), s.f (SP_XCLK_CFG_src n)) }) s
      else if xclk && !s.b (SP_CTRL_xclk_en n) then modPort n (fun p => { p with xclk := none }) s
      else s
    showPort n s

/-- SPn_XCLK is driven: its divisor and source (R83, R104). -/
def State.xclkOut (s : State) (n : Nat) : Option (Nat × Nat) := if s.b (SP_CTRL_en n) then (s.port n).xclk else none

/-- PORT_ENABLE: a write of SPn_CTRL with en = 1. -/
def execPortEnable (r : Requester) (n : Nat) (v : Word) (s : State) : Res :=
  guardOk (decide (n < 4)) (writeBy r (SP_CTRL n) (spCtrlWrite n (setBits v 0 0 1)) s)

/-- PORT_DISABLE: a write of SPn_CTRL with en = 0. -/
def execPortDisable (r : Requester) (n : Nat) (v : Word) (s : State) : Res :=
  guardOk (decide (n < 4)) (writeBy r (SP_CTRL n) (spCtrlWrite n (setBits v 0 0 0)) s)

/-- PORT_RUN: a write of SPn_CTRL with run = 1. -/
def execPortRun (r : Requester) (n : Nat) (v : Word) (s : State) : Res :=
  guardOk (decide (n < 4)) (writeBy r (SP_CTRL n) (spCtrlWrite n (setBits v 1 1 1)) s)

/-- PORT_STOP: a write of SPn_CTRL with run = 0. -/
def execPortStop (r : Requester) (n : Nat) (v : Word) (s : State) : Res :=
  guardOk (decide (n < 4)) (writeBy r (SP_CTRL n) (spCtrlWrite n (setBits v 1 1 0)) s)

/-- XCLK_ENABLE: a write of SPn_CTRL that sets xclk_en as its value says. -/
def execXclkEnable (r : Requester) (n : Nat) (v : Word) (s : State) : Res :=
  guardOk (decide (n < 4)) (writeBy r (SP_CTRL n) (spCtrlWrite n v) s)

/-- A write of SPn_FRAME_SIZE (R85). -/
def frameSizeWrite (n : Nat) (v : Word) (s : State) : State :=
  let w := bitsOf v.toNat 15 0
  let h := bitsOf v.toNat 31 16
  if w % 2 = 1 || h % 2 = 1 || 32768 < w then flag (SP_STATUS_bad_write n) s else plainWrite (SP_FRAME_SIZE n) v s

/-- FRAME_SIZE_WRITE. -/
def execFrameSizeWrite (r : Requester) (n : Nat) (v : Word) (s : State) : Res :=
  guardOk (decide (n < 4)) (writeBy r (SP_FRAME_SIZE n) (frameSizeWrite n v) s)

/-- The rate family φ is 1: REF's denominator is a multiple of 1,001 (R333). -/
def State.family1001 (s : State) : Bool := s.f REF_RATE_DEN_den % 1001 == 0

/-- f_src × 256 / div lies in 6 to 74.25 MHz (R104). -/
def State.xclkOk (s : State) (div : Nat) (src : Bool) : Bool :=
  let (num, den) := if !src then (625000000, 1) else if s.family1001 then (148500000000, 1001) else (148500000, 1)
  6000000 * div * den ≤ num * 256 && num * 256 ≤ 74250000 * div * den

/-- A write of SPn_XCLK_CFG (R104). -/
def xclkCfgWrite (n : Nat) (v : Word) (s : State) : State :=
  if s.xclkOk (bitsOf v.toNat 15 0) (bitOf v.toNat 16) then plainWrite (SP_XCLK_CFG n) v s else flag (SP_STATUS_bad_write n) s

/-- XCLK_CFG_WRITE. -/
def execXclkCfgWrite (r : Requester) (n : Nat) (v : Word) (s : State) : Res :=
  guardOk (decide (n < 4)) (writeBy r (SP_XCLK_CFG n) (xclkCfgWrite n v) s)

/-- SYNC_EDGE (R106). -/
def execSyncEdge (at_ n : Nat) (rising : Bool) (s : State) : Res :=
  guardOk (decide (n < 4)) <|
    let s := advanceTo at_ s
    if s.unitOn (dSP n) && s.f (SP_SYNC_CFG_mode n) == (if rising then 1 else 2) then raise (0x10 + n) 9 0 s else s

/-! ### Javel packets -/

/-- An SOF column (R76, R84, R98, R100): the first frame to open on a new map is marked. Without run, a port that is discarding goes on discarding and counts the SOF as
a unit, and one that is not drops it (DESIGN CHOICE 24: the spec ends the discarding at the next SOF and does not say
whether one that may open no frame ends it). -/
def sofIn (n counter : Nat) (echo : Option Nat) (gen : Nat) (s : State) : State :=
  let s := portClose n .sof (checkGen n gen s)
  if s.running n then
    let s := portOpen n counter echo (s.port n).jv.owed (endDiscard n s)
    if (s.port n).frame.isSome then modJv n (fun j => { j with owed := false }) s else s
  else if s.b (SP_STATUS_discarding n) then discardUnits n 1 s
  else s

/-- An EOF column (R98, R100). -/
def eofIn (n : Nat) (s : State) : State :=
  if s.b (SP_STATUS_discarding n) || (s.port n).frame.isNone then strayUnits n 1 false s else portClose n .eof s

/-- A control column at a port acts as its type says (R62, R64, R66): an SOF with its counter, SID echo and generation, an
EOF, or none; in strip-scan SOF and EOF are ignored (R383). -/
def controlColumn (n : Nat) (col : Column) (s : State) : State :=
  match columnIn n col s with
  | (some (0x33, b), s) => if s.stripMode n then s else sofIn n (bitsOf b 23 8) (some (bitsOf b 39 24)) (bitsOf b 47 40) s
  | (some (0x66, _), s) => if s.stripMode n then s else eofIn n s
  | (_, s) => s

/-- SOF_RECEIVED. -/
def execSofReceived (at_ n : Nat) (col : Column) (s : State) : Res :=
  guardOk (decide (n < 4) && col.length == 12) <|
    let s := advanceTo at_ s
    if s.jvUp n then controlColumn n col s else s

/-- EOF_RECEIVED. -/
def execEofReceived (at_ n : Nat) (col : Column) (s : State) : Res :=
  guardOk (decide (n < 4) && col.length == 12) <|
    let s := advanceTo at_ s
    if s.jvUp n then controlColumn n col s else s

/-- UNKNOWN_CONTROL_BLOCK. -/
def execUnknownControlBlock (n : Nat) (col : Column) (s : State) : Res :=
  guardOk (decide (n < 4) && col.length == 12) <| if s.jvUp n then controlColumn n col s else s

/-- CRC-8 of an SOL header (R63). -/
def crc8 (bs : List Byte) : Nat :=
  bs.foldl (fun c b => (List.range 8).foldl (fun c _ => if 128 ≤ c then c * 2 % 256 ^^^ 0x07 else c * 2 % 256) (c ^^^ b.toNat)) 0xFF

/-- An SOL copy that passes its CRC-8 (R63, R66). -/
def solOk (b : Block) : Bool := typeOf b == some 0x4B && crc8 (leBytes 7 b.2.toNat) == bitsOf b.2.toNat 63 56

/-- The payload bytes of a line's data columns, striped over the map positions (R67); the flag says that a block of it
was errored, on the wire or by injection. -/
def State.striped (s : State) (n : Nat) (data : List Column) : List Byte × Bool :=
  let bs := data.flatMap (fun col => (s.port n).jv.map.map (s.blockAt n col))
  let good (b : Option Block) : Bool := match b with
    | some b => b.1 == 1
    | none => false
  (bs.flatMap (fun b => match b with
    | some b => leBytes 8 b.2.toNat
    | none => List.replicate 8 0),
    bs.any (fun b => !good b) || (s.port n).jv.map.any (fun k => (s.lane n k).spoilt))

/-- The payload check of a Javel line of `len` bytes (R60, R63, R67): no errored block, an EOL (`noEol`: its column was
treated as IDLE), its fill count and its CRC-32. -/
def State.lineBad (s : State) (n len : Nat) (l : JavelLine) (noEol : Bool) : Bool :=
  let col := 8 * (s.port n).jv.map.length
  let (bytes, hurt) := s.striped n l.data
  match (if noEol then none else (s.copies n l.eol).find? (fun b => typeOf b == some 0x55)) with
  | none => true
  | some b =>
    let fill := bitsOf b.2.toNat 47 40
    hurt || col * l.data.length != len + fill || col ≤ fill || crc32 (bytes.take len) != bitsOf b.2.toNat 39 8

/-- Readouts of port `n`: those of the open frame, or in strip-scan the colour rows (R89, R383). -/
def State.readoutMax (s : State) (n : Nat) : Nat :=
  if s.stripMode n then s.ssRows n
  else match (s.port n).frame with
    | some f => f.readouts
    | none => s.g (SP_FRAME_CFG_readouts n) + 1

/-- The units a Javel line counts for: its SOL, data and EOL columns (R100). -/
def lineUnits (l : JavelLine) : Nat := l.data.length + 2

/-- A Javel line with a good header (R86 to R99, R383). -/
def javelBody (n : Nat) (h : Nat) (l : JavelLine) (noEol : Bool) (s : State) : State :=
  let dtype := bitsOf h 15 10
  let len := bitsOf h 55 32
  let (bad, s) := examDetect (0x1013 + n * 256) (s.lineBad n len l noEol) 0 0 s
  let s := if bad then bump (SP_JV_LINECRC n) s else s
  let bs := (s.striped n l.data).1
  let bs := bs.take len ++ List.replicate (len - bs.length) 0
  if dtype = 0x12 then
    if s.readoutMax n ≤ bitsOf h 9 8 then bump (SP_UNSUP n) s
    else if (s.received n).isNone then strayUnits n (lineUnits l) true s
    else embLine n (!bad) bs s
  else if dtype < 0x2B || 0x2E < dtype then bump (SP_UNSUP n) s
  else if s.stripMode n then ssLineIn n (bitsOf h 9 8) (bitsOf h 31 16) dtype (!bad) bs (fun d w bs => unpackLsb (depthOf d) w bs) s
  else pixelLine n (bitsOf h 9 8) (bitsOf h 31 16) dtype (!bad) bs (fun d w bs => unpackLsb (depthOf d) w bs) s

/-- What the examination of a line's SOL or EOL column found (R64, R66). -/
inductive LineCol
  | good | split | idle
  deriving DecidableEq, Repr

/-- A line's SOL or EOL column is examined for disagreement and for an unknown type (R64, R66, R82). -/
def lineColumn (n : Nat) (bs : List Block) (s : State) : LineCol × State :=
  let (bad, s) := examDetect (0x1014 + n * 256) (typesSplit bs) 0 0 s
  if bad then (.split, frameFsw n fswHeaderCrc (bump (SP_JV_COLERR n) s))
  else
    let (odd, s) := examDetect (0x1015 + n * 256) false 0 0 s
    if odd then (.idle, bump (SP_JV_UNKNOWN n) s) else (.good, s)

/-- Lines go by unseen at port `n`: it discards, or has nothing open that they could belong to (R100, R383). -/
def State.straying (s : State) (n : Nat) : Bool :=
  if s.stripMode n then !s.running n && (s.port n).ss.fired.isEmpty
  else s.b (SP_STATUS_discarding n) || (s.port n).frame.isNone

/-- A Javel line (R64, R66): discarded with no frame open, else its SOL and EOL columns are looked at. -/
def javelLine (n : Nat) (l : JavelLine) (s : State) : State :=
  if s.straying n then strayUnits n (lineUnits l) true s
  else
    let bs := s.copies n l.sol
    let (sol, s) := lineColumn n bs s
    let (eol, s) := lineColumn n (s.copies n l.eol) s
    if sol = .split || eol = .split || sol = .idle then s
    else
      let (lost, s) := examDetect (0x1012 + n * 256) (!bs.any solOk) 0 0 s
      match bs.find? solOk, lost with
      | some b, false => javelBody n b.2.toNat l (decide (eol = .idle)) s
      | _, _ => frameFsw n fswHeaderCrc (bump (SP_JV_HDRCRC n) s)

/-- LINE_RECEIVED. -/
def execLineReceived (at_ n : Nat) (l : JavelLine) (s : State) : Res :=
  guardOk (decide (n < 4) && l.sol.length == 12 && l.eol.length == 12 && l.data.all (fun c => c.length == 12)) <|
    let s := advanceTo at_ s
    if s.jvUp n then spoiltDone n (javelLine n l s) else s

/-! ### CSI-2 packets -/

/-- CSI-2 packets reach the port. -/
def State.csiOn (s : State) (n : Nat) : Bool := s.unitOn (dSP n) && s.b (SP_CTRL_phy n)

/-- The readout a virtual channel is mapped to (R92). -/
def State.vcReadout (s : State) (n vc : Nat) : Option Nat :=
  if vc < 4 && bitOf (s.rdLive (SP_CSI_VC_MAP n)).toNat (4 * vc + 2) then
    some (bitsOf (s.rdLive (SP_CSI_VC_MAP n)).toNat (4 * vc + 1) (4 * vc)) else none

/-- The header check of a packet (R91, R94): the answer is whether it survives. -/
def csiHeader (n : Nat) (h : CsiHeader) (s : State) : Bool × State :=
  let (bad, s) := examDetect (0x1000 + n * 256) (h == .bad) 0 0 s
  if bad then (false, bump (SP_CSI_HDR_ERR n) s)
  else
    let (fixed, s) := examDetect (0x1001 + n * 256) (h == .corrected) 0 0 s
    (true, if fixed then bump (SP_CSI_ECC n) s else s)

/-- A packet on virtual channel 4 or above: in SPn_UNSUP (R91), but in SPn_DISCARD alone in the discarding state and with
no frame open (R100; DESIGN CHOICE 26: the spec does not say which of the two counts it, or both). -/
def csiVcx (n : Nat) (s : State) : State :=
  if s.b (SP_STATUS_discarding n) || (s.received n).isNone then strayUnits n 1 false s else bump (SP_UNSUP n) s

/-- What becomes of a packet dropped for its header: a unit where packets are discarded (R94, R100). -/
def csiDropped (n : Nat) (s : State) : State :=
  if s.b (SP_STATUS_discarding n) || (s.received n).isNone then strayUnits n 1 false s else s

/-- A short packet of CSI-2 under its header check (R91, R94): `f` is what it does. -/
def csiShort (n : Nat) (h : CsiHeader) (f : State → State) (s : State) : State :=
  match csiHeader n h s with
  | (true, s) => f s
  | (false, s) => csiDropped n s

/-- A CSI-2 frame start (R92, R93): it opens a frame, joins the open one, or closes it if its channel had started. One on
an unmapped channel while a frame is open is counted in SPn_UNSUP, and one that closes the open frame without run is
itself counted in SPn_DISCARD (DESIGN CHOICE 26: the spec gives the first no effect and does not say whether the second is
a discarded packet). -/
def csiStart (n vc counter : Nat) (s : State) : State :=
  match (s.port n).frame with
  | some f =>
    if (s.vcReadout n vc).isNone then bump (SP_UNSUP n) s
    else if f.begun.contains vc then fresh (portClose n .sof s)
    else modFrame n (fun f => { f with begun := vc :: f.begun, vcLines := put f.vcLines vc 0 }) s
  | none => fresh s
where
  fresh (s : State) : State :=
    if s.running n then
      let t := portTake n (portLive n) s
      if vc < 4 && (t.vcReadout n vc).isNone then discardUnits n 1 s
      else if 4 ≤ vc then csiVcx n s
      else
        let s := portOpen n counter none false (endDiscard n s)
        match (s.port n).frame with
        | none => discardUnits n 1 s
        | some _ => modFrame n (fun f => { f with begun := [vc], vcLines := [(vc, 0)] }) s
    else discardUnits n 1 s

/-- CSI_FRAME_START; ignored in strip-scan (R383). -/
def execCsiFrameStart (at_ n vc : Nat) (num : BitVec 16) (h : CsiHeader) (s : State) : Res :=
  guardOk (decide (n < 4) && decide (vc < 32)) <|
    let s := advanceTo at_ s
    if s.csiOn n then csiShort n h (fun s => if s.stripMode n then s else csiStart n vc num.toNat s) s else s

/-- A CSI-2 frame end (R93): the frame closes once every channel that started has ended. One on a channel that sent no
frame start in the open frame is counted in SPn_UNSUP (DESIGN CHOICE 26: the spec gives it no effect). -/
def csiEnd (n vc : Nat) (s : State) : State :=
  match (s.port n).frame with
  | none => if 4 ≤ vc then csiVcx n s else strayUnits n 1 false s
  | some f =>
    if vc < 4 && f.begun.contains vc then
      let ended := if f.ended.contains vc then f.ended else vc :: f.ended
      let s := modFrame n (fun f => { f with ended := ended }) s
      if f.begun.all ended.contains then portClose n .eof s else s
    else bump (SP_UNSUP n) s

/-- CSI_FRAME_END; ignored in strip-scan (R383). -/
def execCsiFrameEnd (at_ n vc : Nat) (h : CsiHeader) (s : State) : Res :=
  guardOk (decide (n < 4) && decide (vc < 32)) <|
    let s := advanceTo at_ s
    if s.csiOn n then csiShort n h (fun s => if s.stripMode n then s else csiEnd n vc s) s else s

/-- A pixel type of CSI-2 (R91). -/
def csiPixel (d : Nat) : Bool := 0x2B ≤ d && d ≤ 0x2F

/-- CRC-16 of a CSI-2 payload. -/
def crc16 (bs : List Byte) : Nat := bs.foldl (crcByte 0x8408) 0xFFFF

/-- The line number of a pixel packet: its line start's, or the count of packets on its channel (R92). -/
def csiLineNo (n vc : Nat) (s : State) : Nat × State :=
  let cnt := match (s.port n).frame with
    | some f => lookD f.vcLines 0 vc
    | none => 0
  let no := lookD (s.port n).lineNo cnt vc
  (no, modPort n (fun p => { p with lineNo := del p.lineNo vc })
    (modFrame n (fun f => { f with vcLines := put f.vcLines vc (cnt + 1) }) s))

/-- A CSI-2 long packet (R91, R92, R94, R100): its CRC-16 is checked whatever becomes of it. On an unmapped channel with a
frame open every type counts in SPn_UNSUP, and a pixel packet dropped for its header is no packet in the count that
numbers later lines (DESIGN CHOICE 26: R92 speaks of pixel packets alone, and does not say whether a dropped one
counts). -/
def csiLong (n : Nat) (k : CsiLong) (s : State) : State :=
  let (ok, s) := csiHeader n k.header s
  let strip := s.stripMode n
  if !ok then csiDropped n (if csiPixel k.dtype then frameFsw n fswHeaderCrc s else s)
  else
    let (bad, s) := examDetect (0x1002 + n * 256) (crc16 k.payload != k.crc.toNat) 0 0 s
    let s := if bad then bump (SP_CSI_CRC n) s else s
    if 4 ≤ k.vc then csiVcx n s
    else if s.straying n then strayUnits n 1 true s
    else match s.vcReadout n k.vc with
      | none => bump (SP_UNSUP n) s
      | some r =>
        if k.dtype != 0x12 && !csiPixel k.dtype then bump (SP_UNSUP n) s
        else if k.dtype = 0x12 then
          if (s.received n).isNone then strayUnits n 1 true s else embLine n (!bad) k.payload s
        else
          let (y, s) := csiLineNo n k.vc s
          if strip then ssLineIn n r y k.dtype (!bad) k.payload unpackCsi s
          else pixelLine n r y k.dtype (!bad) k.payload unpackCsi s

/-- CSI_LONG_PACKET. -/
def execCsiLongPacket (at_ n : Nat) (k : CsiLong) (s : State) : Res :=
  guardOk (decide (n < 4) && decide (k.vc < 32) && decide (k.dtype < 64)) <|
    let s := advanceTo at_ s
    if s.csiOn n then csiLong n k s else s

/-- A line start (R92). -/
def csiLine (n vc num : Nat) (s : State) : State :=
  if 4 ≤ vc then csiVcx n s
  else if (s.b (SP_STATUS_discarding n) || (s.port n).frame.isNone) && !s.stripMode n then strayUnits n 1 false s
  else modPort n (fun p => { p with lineNo := put p.lineNo vc num }) s

/-- CSI_LINE_START (R92). -/
def execCsiLineStart (n vc : Nat) (num : BitVec 16) (h : CsiHeader) (s : State) : Res :=
  guardOk (decide (n < 4) && decide (vc < 32)) <|
    if s.csiOn n then csiShort n h (csiLine n vc num.toNat) s else s

/-! ### Timeouts and groups -/

/-- ROW_TIMEOUT: no accepted line for row_to µs (R98). -/
def execRowTimeout (n : Nat) (s : State) : Res :=
  guardOk (decide (n < 4)) <|
    match s.unitOn (dSP n), (s.port n).frame with
    | false, _ | _, none => s
    | true, some f =>
      let s := advanceTo (f.seen + floor1 (s.f (SP_FRAME_CFG_row_to n)) * us) s
      portClose n .early (examDetect (0x1007 + n * 256) true f.info.pfn 0 s).2

/-- GROUP_VERDICT: the window of a group ends for an RFN whose tick fell (R102); none is taken twice. -/
def execGroupVerdict (g rfn : Nat) (s : State) : Res :=
  guardOk (decide (g < 4) && decide (rfn < 2 ^ 32)) <|
    match s.ref.ticks.find? (fun t => t.rfn == rfn) with
    | none => s
    | some t => verdict g rfn (advanceTo (t.at_ + s.f (SP0_GRP_CFG_win g) * us) s)

end Sys2Proof.Machine
end

