-- ==== Sys2Proof/Machine/Sco.lean ====
section
/-! DEFINITION. Scan-out and SDI (R333 to R342). -/

namespace Sys2Proof.Machine

/-! ### Timing (R333 to R336) -/

/-- The sample rate in Hz at φ = 0 and the largest active size of a mode (R333). -/
def sdiMode : Nat → Option (Nat × Nat × Nat)
  | 0 => some (74250000, 2048, 1080)
  | 1 => some (148500000, 2048, 1080)
  | 2 => some (297000000, 4096, 2160)
  | 3 => some (594000000, 4096, 2160)
  | 4 => some (2376000000, 8192, 4320)
  | _ => none

/-- φ of R333. -/
def sdiPhi (den : Nat) : Nat := if den % 1001 = 0 then 1 else 0

/-- The timing set the registers hold. -/
def State.scoTim (s : State) : ScoTim where
  mode := s.f SCO_CTRL_mode
  hAct := s.f SCO_HTIM_h_active
  hTot := s.f SCO_HTIM_h_total
  vAct := s.f SCO_VTIM_v_active
  vTot := s.f SCO_VTIM_v_total
  start := s.f SCO_VSTART_line
  den := s.f REF_RATE_DEN_den

/-- The configuration is in error (R335). -/
def scoCfgErr (x : ScoTim) (num : Nat) : Bool :=
  match sdiMode x.mode with
  | none => true
  | some (fs, hMax, vMax) =>
    x.hAct % 2 == 1 || decide (hMax < x.hAct) || decide (vMax < x.vAct) || decide (x.vTot < x.start + x.vAct) ||
      decide (x.hTot < x.hAct + 280) ||
      x.hTot * x.vTot * num * (1000 + sdiPhi x.den) != fs * x.den * 1000

/-- Picoseconds from line 0's start to line `i`'s start. -/
def lineOff (x : ScoTim) (i : Nat) : Nat :=
  match sdiMode x.mode with
  | none => 0
  | some (fs, _, _) => i * x.hTot * 1000000000 * (1000 + sdiPhi x.den) / fs

/-- SCO_PHASE modulo the tick period, in picoseconds (R334). -/
def State.scoPhase (s : State) : Nat :=
  match s.nominal with
  | none => 0
  | some p =>
    let x : Rat := s32 (s.rd SCO_PHASE) * 1000
    (x - (x / p).floor * p).ceil.toNat

/-- The first sample-clock edge at or after `t` (R334). The spec ties the sample clock's edges to no instant: they are
whole sample periods from instant 0 (DESIGN CHOICE, log 38). -/
def sampleEdge (x : ScoTim) (t : Nat) : Nat :=
  match sdiMode x.mode with
  | none => t
  | some (fs, _, _) =>
    let per := 1000000000 * (1000 + sdiPhi x.den)
    ceilDiv (ceilDiv (t * fs) per * per) fs

/-- The oldest tick that no raster frame has used. -/
def State.scoTick (s : State) : Option Tick := s.ref.ticks.reverse.find? (fun t => decide (s.sco.since ≤ t.at_))

/-- The timing set at a tick: the registers under the rate of the tick (R335). -/
def State.scoTimAt (s : State) (k : Tick) : ScoTim := { s.scoTim with den := k.rate.2 }

/-- Where line 0 of the raster frame of a tick begins (R334). -/
def State.scoZero (s : State) (k : Tick) : Nat := sampleEdge (s.scoTimAt k) (k.at_ + s.scoPhase)

/-! ### Start and stop (R335, R337) -/

/-- Changes the engine's state. -/
def modSco (f : ScoSt → ScoSt) (s : State) : State := { s with sco := f s.sco }

/-- Detaches the engine from its ring (R15). -/
def scoDetach (s : State) : State :=
  let s := match s.sco.ring with
    | some r => ringDetach r .sco s
    | none => s
  setF SCO_STATUS_holding 0 (modSco (fun x => { x with ring := none, buf := none }) s)

/-- The raster stops and the transmitters are idle. -/
def scoStop (s : State) : State :=
  setF SCO_STATUS_running 0 <|
    modSco (fun x => { x with tim := none, shown := none, stopping := false, under := none, ovUnder := none, tx := [] })
      (if s.b SCO_CTRL_en then s else scoDetach s)

/-- A raster frame is in progress. -/
def ScoSt.inFrame (x : ScoSt) : Bool := match x.tim with
  | some t => decide (x.line < t.vTot)
  | none => false

/-- The engine is to stop at the end of its current frame. -/
def scoEndFrame (s : State) : State :=
  if s.sco.inFrame then modSco (fun x => { x with stopping := true }) s else scoStop s

/-- SCO_CTRL.en rises: the engine attaches to its ring, and a good configuration starts the raster (R335, R337). -/
def scoStart (s : State) : State :=
  let n := s.f SCO_CTRL_pipe
  let s := scoDetach s
  let s := if n < Config.ports s.variant then
    let r := RingId.branch n (s.f SCO_CTRL_branch)
    modSco (fun x => { x with ring := some r }) (ringAttach r .sco s)
  else s
  if scoCfgErr s.scoTim (s.f REF_RATE_NUM_num) then raise 0x48 5 0 (flag SCO_STATUS_cfg_err s)
  else if s.sco.inFrame then modSco (fun x => { x with stopping := false }) s
  else setF SCO_STATUS_running 1 (modSco (fun x => { x with tim := none, shown := none, since := s.now - s.scoPhase }) s)

/-- A write of SCO_CTRL: one that changes another field than en while en = 1 is ignored whole (R510). -/
def scoCtrlWrite (v : Word) (s : State) : State :=
  if s.b SCO_CTRL_en then
    if (s.rd SCO_CTRL).toNat &&& 0x3FC != v.toNat &&& 0x3FC then flag SCO_STATUS_bad_write s
    else if bitOf v.toNat 0 then s else scoEndFrame (setF SCO_CTRL_en 0 s)
  else
    let s := plainWrite SCO_CTRL v s
    if s.b SCO_CTRL_en then scoStart s else s

/-- A write of a timing register, only while en = 0. -/
def scoTimWrite (a : Nat) (v : Word) (s : State) : State :=
  if s.b SCO_CTRL_en then flag SCO_STATUS_bad_write s else plainWrite a v s

/-- SCO_ENABLE: a write of SCO_CTRL with en = 1. -/
def execScoEnable (r : Requester) (v : Word) (s : State) : Res :=
  .next (writeBy r SCO_CTRL (scoCtrlWrite (setBits v 0 0 1)) s)

/-- SCO_DISABLE: a write of SCO_CTRL with en = 0. -/
def execScoDisable (r : Requester) (v : Word) (s : State) : Res :=
  .next (writeBy r SCO_CTRL (scoCtrlWrite (setBits v 0 0 0)) s)

/-! ### Frame selection (R337, R338) -/

/-- The frame in buffer `b` may be shown (R338). -/
def scoCheck (r : RingId) (b : Nat) (x : ScoTim) (s : State) : Option ScoShown × State :=
  let (got, s) := dmaRead 5 (s.slotAddr r b) 128 s
  let d := got.getD []
  let crcBad := got.isNone || leAt d 0x7C 4 != crc32 (d.take 124)
  let (bad, s) := examDetect 0x4803 crcBad 0 (s.slotAddr r b) s
  let i := descInfo d
  let y := descBuf d
  if !bad && y.fmt == 0x20 && i.width == x.hAct && i.height == x.vAct then (some ⟨i.pfn, y.addr, y.stride⟩, s)
  else (none, s)

/-- Takes the newest frame if it is newer and valid, or shows the held one again (R337). -/
def scoSelect (x : ScoTim) (s : State) : State :=
  match s.sco.ring with
  | none => s
  | some r =>
    let again (s : State) : State := if s.sco.buf.isSome then bump SCO_REPEAT s else s
    match (s.heldBy r .sco).getLast? with
    | none => again s
    | some b =>
      if s.sco.buf = some b then again s
      else
        match scoCheck r b x s with
        | (none, s) => again (ringRelease r .sco b (bump SCO_GEOM_ERR s))
        | (some f, s) =>
          let old := (s.heldBy r .sco).filter (· != b)
          let s := bumpBy SCO_SKIP (old.filter (fun o => s.sco.buf != some o)).length s
          let s := old.foldl (fun s o => ringRelease r .sco o s) s
          flag SCO_STATUS_holding (modSco (fun y => { y with buf := some b, shown := some f }) s)

/-! ### Lines (R334, R339, R341, R342) -/

/-- A component within the codes SDI allows (R338). -/
def sdiLimit (c : Nat) : Nat := min (max c 4) 1019

/-- Luma and multiplexed chroma of a stored row (R168, format 0x20). -/
def sdiRow (n : Nat) (row : List Byte) : List (Nat × Nat) :=
  (List.range (n / 2)).flatMap (fun j =>
    let w := leAt row (5 * j) 5
    let c (k : Nat) : Nat := sdiLimit (bitsOf w (10 * k + 9) (10 * k))
    [(c 1, c 0), (c 3, c 2)])

/-- Sample `x` of a line of one colour. -/
def flatSample (y cb cr x : Nat) : Nat × Nat := (y, if x % 2 = 0 then cb else cr)

/-- The underrun colour at sample `x`. -/
def State.ucol (s : State) (x : Nat) : Nat × Nat :=
  flatSample (s.g SCO_UCOL_y) (s.g SCO_UCOL_cb) (s.g SCO_UCOL_cr) x

/-- An overlay pixel's alpha and its 10-bit Y', Cb and Cr (R341). -/
def ovPixel (ycc : Nat) (w : Nat) : Nat × Nat × Nat × Nat :=
  let c (h l : Nat) : Rat := fdiv32 (bitsOf w h l : Nat) 255
  let (y, cb, cr) := toYcc (if ycc = 2 then 2 else 1) (c 23 16, c 15 8, c 7 0)
  (bitsOf w 31 24, (quant 10 true false y).1, (quant 10 true true cb).1, (quant 10 true true cr).1)

/-- One blended component (R341). -/
def ovBlend (a ov vid : Nat) : Nat := sdiLimit ((a * ov + (255 - a) * vid + 127) / 255)

/-- Blends overlay pixels, given by column, over a line (R341): Y' by each pixel, Cb and Cr by the even one. -/
def ovLine (ov : Nat → Option (Nat × Nat × Nat × Nat)) (line : List (Nat × Nat)) : List (Nat × Nat) :=
  (List.range line.length).map (fun x =>
    let (y, c) := line.getD x (0, 0)
    let y := match ov x with
      | some (a, oy, _, _) => ovBlend a oy y
      | none => y
    let c := match ov (x / 2 * 2) with
      | some (a, _, cb, cr) => ovBlend a (if x % 2 = 0 then cb else cr) c
      | none => c
    (y, c))

/-- Line `i` underruns: counted, and told once per raster frame (R339). -/
def scoUnder (i : Nat) (s : State) : State :=
  let s := bump SCO_UNDERRUN s
  if s.sco.told then s else raise 0x48 3 i (modSco (fun x => { x with told := true }) s)

/-- A sample of an active line, for an injected error whose place the spec leaves open. -/
def drawSample (h : Nat) (s : State) : Nat × State :=
  let (v, s) := draw s
  (v.toNat % floor1 h, s)

/-- An examination of line `i`'s video by detector `det`: an error affects the line from an open sample on. -/
def scoExam (det i h : Nat) (s : State) : Option Nat × State :=
  match examDetect det false i 0 s with
  | (true, s) => let (p, s) := drawSample h s; (some p, s)
  | (false, s) => (none, s)

/-- The earlier of two optional places. -/
def earlier (a b : Option Nat) : Option Nat := match a, b with
  | some x, some y => some (min x y)
  | some x, none => some x
  | none, y => y

/-- The overlay over active row `r` (R341). -/
def scoOverlay (r : Nat) (x : ScoTim) (line : List (Nat × Nat)) (s : State) : List (Nat × Nat) × State :=
  let ox := s.g SCO_OVL_POS_x
  let oy := s.g SCO_OVL_POS_y
  let w := min (s.g SCO_OVL_SIZE_w) (x.hAct - ox)
  if s.g SCO_OVL_CTRL_en = 0 || w = 0 || r < oy || oy + s.g SCO_OVL_SIZE_h ≤ r then (line, s)
  else
    let (got, s) := dmaRead 5 (s.pairLive SCO_OVL_PTR_LO SCO_OVL_PTR_HI + (r - oy) * (s.rdLive SCO_OVL_STRIDE).toNat) (4 * w) s
    let marked := s.sco.ovUnder.isSome
    let (hit, s) := if marked then (none, s) else scoExam 0x4801 (x.start + r) x.hAct s
    let hit := if got.isNone then some 0 else hit
    let s := if hit.isSome && !marked then bump SCO_OVL_UNDERRUN s else s
    let stop := (earlier s.sco.ovUnder hit).getD x.hAct
    let row := got.getD []
    let ycc := match s.sco.ring with
      | some (.branch n b) => s.g (IP_O_XF_CFG_ycc n b)
      | _ => 0
    let ov (c : Nat) : Option (Nat × Nat × Nat × Nat) :=
      if ox ≤ c && c < ox + w && c < stop then some (ovPixel ycc (leAt row (4 * (c - ox)) 4)) else none
    (ovLine ov line, s)

/-- The active samples of raster line `i` (R337, R339, R341). -/
def scoActive (i : Nat) (x : ScoTim) (s : State) : List (Nat × Nat) × State :=
  match s.sco.shown with
  | none => ((List.range x.hAct).map s.ucol, s)
  | some f =>
    let (got, s) := dmaRead 5 (f.addr + (i - x.start) * f.stride) (x.hAct * 5 / 2) s
    let marked := s.sco.under.isSome
    let (a, s) := if marked then (none, s) else scoExam 0x4800 i x.hAct s
    let (p, s) := scoExam 0x4802 i x.hAct s
    let hit := earlier (if got.isNone then some 0 else a) p
    let s := if hit.isSome && !marked then scoUnder i s else s
    let stop := (earlier s.sco.under hit).getD x.hAct
    let (line, s) := scoOverlay (i - x.start) x (sdiRow x.hAct (got.getD [])) s
    (line.take stop ++ ((List.range x.hAct).drop stop).map s.ucol, s)

/-- What transmitter `k` sends of a raster line: mode 0b100 divides the image by two-sample interleave (R333;
PRESUMED from SMPTE ST 2082-10), its rows counted from the first active line; the others send TX0, and copies of it with
mirror = 1. -/
def txSamples (x : ScoTim) (mirror : Bool) (i : Nat) (line : List (Nat × Nat)) (k : Nat) : Option (List (Nat × Nat)) :=
  if x.mode = 4 then
    if (i + x.start) % 2 = k / 2 then
      some (((List.range line.length).filter (fun c => c / 2 % 2 == k % 2)).map (fun c => line.getD c (0, 0)))
    else none
  else if k = 0 || mirror then some line
  else none

/-- A timing reference word: F = 0, V, H and their protection bits (PRESUMED from SMPTE ST 292-1, log 39). -/
def trsWord (v h : Bool) : Nat :=
  512 + (if v then 128 else 0) + (if h then 64 else 0) + (if v != h then 32 else 0) + (if h then 16 else 0) +
    (if v then 8 else 0) + (if v != h then 4 else 0)

/-- A word of nine bits with the inverse of its top bit above (PRESUMED from SMPTE ST 292-1, log 39). -/
def nineBits (n : Nat) : Nat := n % 512 + (if bitOf n 8 then 0 else 512)

/-- SDI's line check, x^18 + x^5 + x^4 + 1, over 10-bit words, least significant bit first (PRESUMED from SMPTE
ST 292-1, log 39). -/
def crc18 (ws : List Nat) : Nat :=
  (ws.flatMap (fun w => (List.range 10).map (bitOf w))).foldl (fun c b =>
    if (c % 2 == 1) != b then (c / 2) ^^^ 0x23000 else c / 2) 0

/-- The blanking before the active part of line `i` on a link that is `w` active samples wide: the check runs over the
active part of the line before, as it was sent, and this line's EAV and number (R334, R339). -/
def sdiBlank (x : ScoTim) (i w : Nat) (prev : Option SdiLine) : SdiBlank :=
  let v := i < x.start || x.start + x.vAct ≤ i
  let eav := [1023, 0, 0, trsWord v true]
  let num := [nineBits ((i + 1) % 128 * 4), nineBits ((i + 1) / 128 % 16 * 4)]
  let old (blank : Nat) (f : SdiLine → List Nat) : List Nat := match prev with
    | some l => if (f l).isEmpty then List.replicate w blank else f l
    | none => List.replicate w blank
  let crc (ws : List Nat) : List Nat :=
    let c := crc18 (ws ++ eav ++ num)
    [nineBits (c % 512), nineBits (c / 512)]
  { eav := eav, num := num, crcY := crc (old 0x40 (·.luma)), crcC := crc (old 0x200 (·.chroma))
    hanc := x.hTot - x.hAct - 12, sav := [1023, 0, 0, trsWord v false] }

/-- Sends a line on the transmitters. A mirrored one is TX0's stream, with its link number. -/
def scoSend (i : Nat) (x : ScoTim) (line : List (Nat × Nat)) (s : State) : State :=
  let (prim, xfer, range) := match s.sco.ring with
    | some (.branch n b) => (s.g (IP_O_CSPACE_prim n b), s.g (IP_O_CSPACE_xfer n b), s.g (IP_O_PACK_range n b))
    | _ => (0, 0, 0)
  let tx := (List.range 4).foldl (fun tx k =>
    match txSamples x (s.b SCO_CTRL_mirror) i line k with
    | some l => put tx k {
        number := i + 1, link := if x.mode = 4 then k + 1 else 1, sent := x.hTot
        blank := sdiBlank x i (if x.mode = 4 then x.hAct / 2 else x.hAct) (look s.sco.tx k)
        luma := l.map (·.1), chroma := l.map (·.2), prim := prim, xfer := xfer, narrow := range == 1 }
    | none => tx) s.sco.tx
  modSco (fun y => { y with tx := tx }) s

/-- The PFN of the frame shown; open while none is shown. -/
def scoPfn (s : State) : Nat × State := match s.sco.shown with
  | some f => (f.pfn, s)
  | none => let (v, s) := draw s; (v.toNat, s)

/-- Raises an event whose argument is the PFN of the frame shown (R342). -/
def scoTell (loc : Nat) (s : State) : State := let (p, s) := scoPfn s; raise 0x48 loc p s

/-- The frame's last active sample has left TX0, and blanking begins (R342). -/
def scoBlank (x : ScoTim) (s : State) : State := scoTell 0 (if x.vAct = 0 then s else scoTell 2 s)

/-- Line `i` reaches its SAV, if it is not cut before: LINE_MATCH for the line SCO_LINE_MATCH names (R342). -/
def scoMatch (i : Nat) (x : ScoTim) (cut : Option Nat) (s : State) : State :=
  let sav := s.sco.lineZero + lineOff x i + lineOff x 1 * (x.hTot - x.hAct - 4) / floor1 x.hTot
  let whole := match cut with
    | some t => decide (sav < t)
    | none => true
  if whole && i == s.f SCO_LINE_MATCH_line then raise 0x48 1 i (advanceTo sav s) else s

/-- The next raster line is sent, up to where a tick cuts it (R334, R336, R339, R342). -/
def scoLine (cut : Option Nat) (s : State) : State :=
  match s.sco.tim with
  | none => s
  | some x =>
    let i := s.sco.line
    if x.vTot ≤ i then s
    else
      let s := advanceTo (s.sco.lineZero + lineOff x i) s
      let s := if i = x.start + x.vAct then scoBlank x s else s
      let s :=
        if x.start ≤ i && i < x.start + x.vAct then
          let (line, s) := scoActive i x s
          scoSend i x line s
        else scoSend i x [] s
      let s := scoMatch i x cut s
      let s := modSco (fun y => { y with line := i + 1, under := none, ovUnder := none }) s
      if i + 1 = x.vTot then
        let s := if x.start + x.vAct = x.vTot then scoBlank x (advanceTo (s.sco.lineZero + lineOff x x.vTot) s) else s
        if s.sco.stopping then scoStop s else s
      else s

/-- Sends the lines of the frame in progress that start before `t`. -/
def scoLinesTo (t : Nat) (x : ScoTim) (s : State) : State :=
  (List.range (x.vTot - s.sco.line)).foldl (fun s _ =>
    if s.sco.lineZero + lineOff x s.sco.line < t then scoLine (some t) s else s) s

/-- The line in progress is cut short at `t` (R336). -/
def scoCut (t : Nat) (x : ScoTim) (s : State) : State :=
  if s.sco.line = 0 then s
  else
    let a := s.sco.lineZero + lineOff x (s.sco.line - 1)
    let one := floor1 (lineOff x 1)
    let sent := min x.hTot ((t - a) * x.hTot / one)
    modSco (fun y => { y with tx := y.tx.map (fun e => if e.2.number = s.sco.line then (e.1, { e.2 with sent := sent }) else e) }) s

/-- Line 0 of a raster frame begins at `t` (R334, R337). -/
def scoLineZero (t : Nat) (x : ScoTim) (s : State) : State :=
  let s := advanceTo t s
  let s := takeLive (fun a => decide (SCO_UCOL ≤ a) && decide (a ≤ SCO_OVL_SIZE)) s
  let s := modSco (fun y => { y with
    tim := some x, lineZero := t, line := 0, under := none, ovUnder := none, told := false
    shown := if y.buf.isSome then y.shown else none }) s
  scoSelect x s

/-- The end of the frame in progress at a tick whose line 0 falls at `t`: absorbed within one line, else a
realignment (R336). -/
def scoTurn (t : Nat) (s : State) : State :=
  match s.sco.tim with
  | none => s
  | some x =>
    let pred := s.sco.lineZero + lineOff x x.vTot
    let one := lineOff x 1
    if t ≤ pred + one && pred ≤ t + one then scoLinesTo (pred + one) x s
    else
      let s := scoCut t x (scoLinesTo t x s)
      if s.b SCO_STATUS_running then raise 0x48 4 0 (bump SCO_REALIGN (advanceTo t s)) else s

/-- Up to a tick at `t` that begins no raster frame, since its rate breaks the timing equation or the raster is stopping,
the frame in progress goes on, and after it to its end (R335). -/
def scoLast (t : Nat) (s : State) : State := match s.sco.tim with
  | some x => scoLinesTo t x s
  | none => s

/-- RASTER_FRAME_START: the oldest tick not yet used starts a raster frame, or tells at the tick of a rate that breaks
the timing equation (R334 to R337). -/
def execRasterFrameStart (s : State) : Res :=
  .next (match s.scoTick with
    | none => s
    | some k =>
      if s.domOn dSCO && s.b SCO_STATUS_running then
        let s := modSco (fun x => { x with since := k.at_ + 1 }) s
        let t := s.scoZero k
        if s.sco.stopping then scoLast t s
        else if scoCfgErr (s.scoTimAt k) k.rate.1 then
          scoEndFrame (raise 0x48 5 0 (flag SCO_STATUS_cfg_err (advanceTo k.at_ (scoLast k.at_ s))))
        else
          let s := scoTurn t s
          if s.b SCO_STATUS_running then scoLineZero t (s.scoTimAt k) s else s
      else s)

/-- Where a tick that has fallen cuts the frame in progress: too early to be absorbed (R336). -/
def State.scoCutAt (s : State) : Option Nat :=
  match s.sco.tim, s.scoTick with
  | some x, some k => if s.scoZero k + lineOff x 1 < s.sco.lineZero + lineOff x x.vTot then some (s.scoZero k) else none
  | _, _ => none

/-- RASTER_LINE: the next line of the frame in progress is sent (R334), unless a tick that has fallen cuts it (R336). -/
def execRasterLine (s : State) : Res :=
  .next (if s.domOn dSCO && s.b SCO_STATUS_running then scoLine s.scoCutAt s else s)

/-- LINE_UNDERRUN: the video or overlay fetch of the line now being sent runs empty at `sample`, or the line buffer has a
parity error there (R339, R341). -/
def execLineUnderrun (sample : Nat) (fault : LineFault) (s : State) : Res :=
  .next (match s.sco.tim with
    | none => s
    | some x =>
      let i := s.sco.line
      if s.domOn dSCO && s.b SCO_STATUS_running && x.start ≤ i && i < x.start + x.vAct && sample < x.hAct &&
          s.sco.shown.isSome then
        match fault with
        | .overlay =>
          if s.sco.ovUnder.isSome || s.g SCO_OVL_CTRL_en = 0 then s
          else
            let (_, s) := examDetect 0x4801 true i 0 s
            bump SCO_OVL_UNDERRUN (modSco (fun y => { y with ovUnder := some sample }) s)
        | .video | .parity =>
          if s.sco.under.isSome then s
          else
            let (_, s) := examDetect (if fault = .parity then 0x4802 else 0x4800) true i 0 s
            scoUnder i (modSco (fun y => { y with under := some sample }) s)
      else s)

end Sys2Proof.Machine
end

