-- ==== Sys2Proof/Machine/Ctl.lean ====
section
/-! DEFINITION. Flash reads, general-purpose I/O, OTP, locks and the CTL_SPI mailbox (R393 to R395, R409, R411 to
R415). -/

namespace Sys2Proof.Machine

open Sys2Proof.Config (us)

/-- Changes the MON block. -/
def modMon (f : MonSt → MonSt) (s : State) : State := { s with mon := f s.mon }

/-- Changes the configuration block. -/
def modCfg (f : CfgSt → CfgSt) (s : State) : State := { s with cfg := f s.cfg }

/-! ### Flash (R393, R394) -/

/-- A byte of the flash device; one that nothing has programmed reads 0xFF. -/
def State.flashByte (s : State) (a : Nat) : Byte := lookD s.cfg.flash 0xFF a

/-- `n` bytes of the flash device. -/
def State.flashBytes (s : State) (a n : Nat) : List Byte := (List.range n).map (fun i => s.flashByte (a + i))

/-- A write of a register of the flash read, only while no read is in progress (R394). -/
def xspiRegWrite (a : Nat) (v : Word) (s : State) : State :=
  let mhz := bitsOf v.toNat 7 0
  if s.b XSPI_STATUS_busy || (a = XSPI_CFG && (mhz < 12 || 200 < mhz)) then flag XSPI_STATUS_bad_write s
  else plainWrite a v s

/-- The end of a read of `n` bytes (R394). -/
def xspiEnd (n : Nat) (err : Bool) (s : State) : State :=
  let s := flag XSPI_STATUS_done (setF XSPI_STATUS_busy 0 s)
  raise 0x58 5 n (if err then flag XSPI_STATUS_err s else s)

/-- A write of XSPI_CMD (R394). -/
def xspiCmdWrite (v : Word) (s : State) : State :=
  if !bitOf v.toNat 0 then s
  else if s.b XSPI_STATUS_busy then flag XSPI_STATUS_bad_write s
  else if s.f XSPI_LEN_bytes = 0 then xspiEnd 0 false s
  else flag XSPI_STATUS_busy s

/-- XSPI_READ: a write of XSPI_CMD with go = 1. -/
def execXspiRead (r : Requester) (v : Word) (s : State) : Res :=
  .next (writeBy r XSPI_CMD (xspiCmdWrite (setBits v 0 0 1)) s)

/-- The bytes of a flash read that memory takes: up to the first that draws an error response (R394). -/
def State.xspiRoom (s : State) (a n : Nat) : Nat :=
  let ok (i : Nat) : Bool := (match regionOf s.variant (a + i) with
    | .sram => true
    | .dram _ => true
    | _ => false) && s.memAnswers (a + i) 1 true
  if n != 0 && ok 0 && ok (n - 1) && s.memAnswers a n true then n else ((List.range n).takeWhile ok).length

/-- The flash read in progress ends (R394). -/
def xspiFinish (s : State) : State :=
  let n := s.f XSPI_LEN_bytes
  let a := s.pair XSPI_DST_LO XSPI_DST_HI
  let k := s.xspiRoom a n
  xspiEnd k (k != n) (dmaPut 14 a (s.flashBytes (s.f XSPI_ADDR_addr) k) s)

/-- XSPI_DONE: the read in progress ends (R394). -/
def execXspiDone (s : State) : Res :=
  .next (if s.domOn dCTRL && s.b XSPI_STATUS_busy then xspiFinish s else s)

/-! ### General-purpose I/O (R395) -/

/-- A write of GPIO_OUT or GPIO_OE. -/
def gpioWrite (a : Nat) (v : Word) (s : State) : State := gpioSettle (plainWrite a v s)

/-- A write of GPIO_SET. -/
def gpioSetWrite (v : Word) (s : State) : State :=
  gpioSettle (setF GPIO_OUT_out (s.f GPIO_OUT_out ||| v.toNat % 65536) s)

/-- A write of GPIO_CLR. -/
def gpioClrWrite (v : Word) (s : State) : State :=
  gpioSettle (setF GPIO_OUT_out (s.f GPIO_OUT_out &&& (65535 - v.toNat % 65536)) s)

/-- GPIO_SET. -/
def execGpioSet (r : Requester) (v : Word) (s : State) : Res := .next (writeBy r GPIO_SET (gpioSetWrite v) s)

/-- GPIO_CLR. -/
def execGpioClr (r : Requester) (v : Word) (s : State) : Res := .next (writeBy r GPIO_CLR (gpioClrWrite v) s)

/-- GPIO_EDGE: outside drives pin `i` to a level. -/
def execGpioEdge (at_ i : Nat) (level : Bool) (s : State) : Res :=
  guardOk (decide (i < 16)) <|
    let s := advanceTo at_ s
    let e := s.mon.ext
    let s := modMon (fun m => { m with ext := if bitOf e i == level then e else if level then e + 2 ^ i else e - 2 ^ i }) s
    if s.domOn dCTRL then gpioSettle s else s

/-! ### OTP (R412, R413, R437) -/

/-- A word of the OTP shadow. -/
def State.otp (s : State) (w : Nat) : Word := lookD s.cfg.otp 0 w

/-- What a read of an OTP word shows: the image key reads 0 (R412). -/
def State.otpRead (s : State) (w : Nat) : Word := if 12 ≤ w && w < 20 then 0 else s.otp w

/-- Shows the word that CFG_OTP_ADDR selects. -/
def showOtp (s : State) : State := wr CFG_OTP_DATA (s.otpRead (s.f CFG_OTP_ADDR_word)) s

/-- The debug lock applies (R467). -/
def State.dbgLocked (s : State) : Bool := bitOf (s.otp 22).toNat 1 && !s.b MON_DBG_STATUS_unlocked

/-- Shows the debug lock (R467, R468). -/
def showDbg (s : State) : State :=
  let l := s.dbgLocked
  setF MON_DBG_STATUS_jtag_open (if l then 0 else 1) (setF MON_DBG_STATUS_locked (if l then 1 else 0) s)

/-- Valid junction sensors (R436, R437). -/
def State.validSensors (s : State) : Nat := ((List.range 16).filter (fun i => !bitOf (s.f THM_BROKEN_broken) i)).length

/-- The cause that refuses a program of word `w`; 0 for none (R413, R437). -/
def State.otpCause (s : State) (w : Nat) : Nat :=
  let t := (BitVec.ofNat 16 (s.f THM_MAX_t)).toInt
  if t < 0 || 85 * 16 < t || s.validSensors < 8 then 1
  else if s.cfg.otpRun.isSome then 2
  else if (w < 20 && bitOf (s.otp 22).toNat 3) || w = 35 || w = 36 then 3
  else 0

/-- A write of CFG_OTP_CMD (R413). -/
def otpCmdWrite (v : Word) (s : State) : State :=
  if !bitOf v.toNat 0 then s
  else
    let w := s.f CFG_OTP_ADDR_word
    let c := s.otpCause w
    let s := setF CFG_OTP_STATUS_refuse c s
    if c = 0 then
      flag CFG_OTP_STATUS_busy (modCfg (fun x => { x with otpRun := some (w, s.rd CFG_OTP_PROG, s.now + 100 * us) }) s)
    else raise 0x06 5 w s

/-- OTP_PROGRAM: a write of CFG_OTP_CMD with prog = 1. -/
def execOtpProgram (r : Requester) (v : Word) (s : State) : Res :=
  .next (writeBy r CFG_OTP_CMD (otpCmdWrite (setBits v 0 0 1)) s)

/-- The OTP program in progress, if any, completes, and the shadow follows (R413). -/
def otpEnd (s : State) : State := match s.cfg.otpRun with
  | none => s
  | some (w, bits, due) =>
    let s := advanceTo due s
    let s := modCfg (fun x => { x with otpRun := none, otp := put x.otp w (s.otp w ||| bits) }) s
    raise 0x06 4 w (showDbg (showOtp (flag CFG_OTP_STATUS_done (setF CFG_OTP_STATUS_busy 0 s))))

/-- OTP_DONE: the program in progress completes (R413). -/
def execOtpDone (s : State) : Res := .next (otpEnd s)

/-! ### Locks (R409, R411) -/

/-- A write of CFG_LOCK: the lock is never cleared (R409). -/
def lockWrite (v : Word) (s : State) : State := if bitOf v.toNat 0 then flag CFG_LOCK_lock s else s

/-- BOOT_LOCK: a write of CFG_LOCK with lock = 1. -/
def execBootLock (r : Requester) (v : Word) (s : State) : Res :=
  .next (writeBy r CFG_LOCK (lockWrite (setBits v 0 0 1)) s)

/-- A write of CFG_WARM: valid by its access code, and inval clears it (R411). -/
def warmWrite (v : Word) (s : State) : State :=
  let s := plainWrite CFG_WARM v s
  if bitOf v.toNat 1 then setF CFG_WARM_valid 0 s else s

/-- WARM_INVALIDATE: a write of CFG_WARM with inval = 1. -/
def execWarmInvalidate (r : Requester) (v : Word) (s : State) : Res :=
  .next (writeBy r CFG_WARM (warmWrite (setBits v 1 1 1)) s)

/-! ### CTL_SPI mailbox (R414) -/

/-- A byte of the mailbox window. -/
def State.mboxByte (s : State) (o : Nat) : Byte := lookD s.mon.mbox 0 o

/-- Stores bytes in the mailbox window from offset `o`; the part past 0xFFF is lost. -/
def mboxPut (o : Nat) (bs : List Byte) (s : State) : State :=
  modMon (fun m => { m with mbox := memPuts m.mbox o (bs.take (0x1000 - o)) }) s

/-- CTL_SPI_WRITE: only the inbox takes bytes, and only while it belongs to the controller (R414). -/
def execCtlSpiWrite (addr : BitVec 16) (data : List Byte) (s : State) : Res :=
  .next (if !s.domOn dCTRL || addr.toNat / 4096 != 0 then s
    else if s.b CTL_MBOX_STATUS_in_full then flag CTL_MBOX_STATUS_err s
    else
      let o := addr.toNat
      mboxPut o (data.take (0x800 - o)) s)

/-- CTL_SPI_READ: past 0xFFF it returns 0xFF (R414). -/
def execCtlSpiRead (addr : BitVec 16) (len : Nat) (s : State) : Res :=
  .next (if s.domOn dCTRL then
    modMon (fun m => { m with spiOut := (List.range len).map (fun i =>
      if addr.toNat + i < 0x1000 then s.mboxByte (addr.toNat + i) else 0xFF) }) s
  else s)

/-- CTL_SPI_STATUS: the status byte (R414). -/
def execCtlSpiStatus (s : State) : Res :=
  .next (if s.domOn dCTRL then
    modMon (fun m => { m with spiOut := [BitVec.ofNat 8 ((s.rd CTL_MBOX_STATUS).toNat % 8)] }) s
  else s)

/-- CTL_SPI_DOORBELL (R414). -/
def execCtlSpiDoorbell (s : State) : Res :=
  .next (if s.domOn dCTRL then raise 0x58 0x20 0 (flag CTL_MBOX_STATUS_in_full s) else s)

/-- CTL_SPI_ACK: releases CTL_IRQ_N (R414). -/
def execCtlSpiAck (s : State) : Res :=
  .next (if s.domOn dCTRL then raise 0x58 0x21 0 (setF CTL_MBOX_STATUS_out_ready 0 s) else s)

/-- CTL_SPI_UNKNOWN: any other command byte is counted (R414). -/
def execCtlSpiUnknown (cmd : Byte) (s : State) : Res :=
  .next (if s.domOn dCTRL && !([0x02, 0x03, 0x05, 0x06, 0x07] : List Nat).contains cmd.toNat then bump CTL_SPI_ERR s else s)

/-- CTL_IRQ_N is low while the outbox holds a message (R414). -/
def State.ctlIrqN (s : State) : Bool := !s.b CTL_MBOX_STATUS_out_ready

/-- A write of CTL_MBOX_CTRL: a post refused refuses the write (R414, R510). -/
def mboxCtrlWrite (v : Word) (s : State) : State :=
  if bitOf v.toNat 1 && s.b CTL_MBOX_STATUS_out_ready then flag CTL_MBOX_STATUS_bad_write s
  else
    let s := if bitOf v.toNat 0 then setF CTL_MBOX_STATUS_in_full 0 s else s
    if bitOf v.toNat 1 then flag CTL_MBOX_STATUS_out_ready s else s

/-- MBOX_IN_CLEAR: a write of CTL_MBOX_CTRL with in_clr = 1. -/
def execMboxInClear (r : Requester) (v : Word) (s : State) : Res :=
  .next (writeBy r CTL_MBOX_CTRL (mboxCtrlWrite (setBits v 0 0 1)) s)

/-- MBOX_POST: a write of CTL_MBOX_CTRL with post = 1. -/
def execMboxPost (r : Requester) (v : Word) (s : State) : Res :=
  .next (writeBy r CTL_MBOX_CTRL (mboxCtrlWrite (setBits v 1 1 1)) s)

end Sys2Proof.Machine
end

