-- ==== Sys2Proof/Machine/Locks.lean ====
section
/-! DEFINITION. The range-lock table of the offload endpoint and the recorder (R327 to R329). -/

namespace Sys2Proof.Machine

/-- Two locks overlap on one volume and one of them is exclusive (R328). -/
def LockReq.conflicts (a b : LockReq) : Bool :=
  a.vol == b.vol && (a.excl || b.excl) && decide (a.first < b.first + b.blocks) && decide (b.first < a.first + a.blocks)

/-- The request is the host's. -/
def LockReq.byHost (a : LockReq) : Bool := match a.owner with
  | .host _ => true
  | _ => false

/-- Locks granted to the host or to the recorder. -/
def held (host : Bool) (l : List LockReq) : Nat := (l.filter (fun a => a.granted && a.byHost == host)).length

/-- Request `i` conflicts with a granted lock or with a request before it (R328). -/
def lockClash (l : List LockReq) (i : Nat) (a : LockReq) : Bool :=
  (l.mapIdx (fun j b => (j, b))).any (fun e => e.1 != i && (e.2.granted || decide (e.1 < i)) && e.2.conflicts a)

/-- Request `i` may be granted (R327, R328): nothing clashes with it, its share has room, and no earlier request of its share
waits for room alone. -/
def lockFree (l : List LockReq) (i : Nat) : Bool :=
  match l[i]? with
  | none => false
  | some a =>
    let queued := ((l.take i).mapIdx (fun j b => (j, b))).any (fun e =>
      !e.2.granted && e.2.byHost == a.byHost && !lockClash l e.1 e.2)
    !a.granted && !lockClash l i a && !queued && decide (held a.byHost l < if a.byHost then 192 else 64)

/-- Places a request: behind every earlier one, and among those of its instant that wait, by rank (R328). -/
def lockPlace (a : LockReq) (l : List LockReq) : Nat :=
  (l.reverse.takeWhile (fun b => !b.granted && b.at_ == a.at_ && decide (a.rank < b.rank))).length |> fun k => l.length - k

/-- Shows the locks held (OEP_LOCK_STAT). -/
def showLocks (s : State) : State :=
  setF OEP_LOCK_STAT_host (held true s.oep.locks) (setF OEP_LOCK_STAT_rec (held false s.oep.locks) s)

/-- Grants request `i`. -/
def lockGrant (i : Nat) (s : State) : State :=
  showLocks (addPair OEP_LOCK_GRANT_LO OEP_LOCK_GRANT_HI 1
    { s with oep := { s.oep with locks := s.oep.locks.modify i (fun a => { a with granted := true }) } })

/-- Asks for a lock, with an examination of the lock-table store (R332); the answer says whether it is granted now. Without the
endpoint there is no table and no host to lock out. A recorder request that waits behind a host lock is counted (R328). -/
def lockAsk (o : RmOwner) (vol first blocks : Nat) (excl : Bool) (s : State) : Bool × State :=
  if !s.domOn dOEP then (true, s)
  else
    let s := (examDetect 0x4402 false 0 0 s).2
    let rank := match o with
      | .host id => 1 + ((s.oep.cmds.find? (fun c => c.id == id)).map (·.q)).getD 0
      | _ => 0
    let a : LockReq := {
      owner := o, vol := vol, first := first, blocks := blocks, excl := excl, granted := false, at_ := s.now, rank := rank }
    let i := lockPlace a s.oep.locks
    let s := { s with oep := { s.oep with locks := s.oep.locks.insertIdx i a } }
    if lockFree s.oep.locks i then (true, lockGrant i s)
    else match o with
      | .flight k _ =>
        if s.oep.locks.any (fun b => b.byHost && b.conflicts a) then
          (false, raise 0x44 5 k (bump OEP_LOCK_RT_WAIT s))
        else (false, s)
      | _ => (false, s)

/-- An owner's lock is released, or its request withdrawn (R329). -/
def lockDrop (o : RmOwner) (s : State) : State :=
  let n := (s.oep.locks.filter (fun a => a.owner == o && a.granted)).length
  let s := { s with oep := { s.oep with locks := s.oep.locks.filter (fun a => a.owner != o) } }
  if n = 0 then s else showLocks (addPair OEP_LOCK_REL_LO OEP_LOCK_REL_HI n s)

/-- The request that may be granted next. -/
def State.nextLock (s : State) : Option Nat :=
  (List.range s.oep.locks.length).find? (lockFree s.oep.locks)

end Sys2Proof.Machine
end

