-- ==== Sys2Proof/Machine/RmBase.lean ====
section
/-! DEFINITION. Record media: members' commands (R287 to R289), the volume's geometry and structures (R290 to R297), the
allocation mirror (R302). -/

namespace Sys2Proof.Machine

open Sys2Proof.Config (ms)

/-- A member beside its registers. -/
def State.mbr (s : State) (m : Nat) : MbrSt := lookD s.rm.mbrs {} m

/-- Changes a member. -/
def modMbr (m : Nat) (k : MbrSt → MbrSt) (s : State) : State :=
  { s with rm := { s.rm with mbrs := put s.rm.mbrs m (k (s.mbr m)) } }

/-- Changes a volume. -/
def modVol (v : Nat) (k : VolSt → VolSt) (s : State) : State :=
  match look s.rm.vols v with
  | some x => { s with rm := { s.rm with vols := put s.rm.vols v (k x) } }
  | none => s

/-- A stream beside its registers. -/
def State.str (s : State) (k : Nat) : StrSt := lookD s.rm.strs {} k

/-- Changes a stream, and shows its queued grants. -/
def modStr (k : Nat) (f : StrSt → StrSt) (s : State) : State :=
  let x := f (s.str k)
  setF (RM_STR_STATUS_grants k) (min x.grants.length 3) { s with rm := { s.rm with strs := put s.rm.strs k x } }

/-- Blocks of a metadata area and of its parts (R290). -/
def clipOff (i : Nat) : Nat := 4096 + 256 * i
def extOff (i : Nat) : Nat := 257 * 4096 + 32 * i
def jrnOff (seq : Nat) : Nat := 769 * 4096 + 64 * (seq % 4096)
def areaBytes : Nat := 1024 * 4096

/-- Bytes with their CRC-32 behind them. -/
def withCrc (bs : List Byte) : List Byte := bs ++ leBytes 4 (crc32 bs)

/-- `n` bytes from `a` of sparse bytes. -/
def cellBytes (l : List Host.Cell) (a n : Nat) : List Byte := (List.range n).map (fun i => lookD l 0 (a + i))

/-! ### Member commands -/

/-- The member answers: it is up and not dead. -/
def State.mbrLive (s : State) (m : Nat) : Bool := let x := s.f (RM_MBR_STATUS_state m); 1 ≤ x && decide (x ≤ 3)

/-- A member's state as its register shows it. -/
def mbrState (m n : Nat) (s : State) : State := setF (RM_MBR_STATUS_state m) n s

/-- Blocks of one command at most (R289). -/
def State.cmdBlocks (s : State) (m : Nat) : Nat :=
  let d := (s.mbr m).mdts
  if d = 0 then 256 else min 256 (2 ^ d)

/-- The queues of a member in DRAM (R287). -/
def State.queueArea (s : State) (m : Nat) : Nat := s.pair RM_QBASE_LO RM_QBASE_HI + m * 0x80000

/-- Writes an admin submission entry (R287, R288; PRESUMED, log 55: NVMe 2.0); identifiers count the entries. -/
def adminPut (m opc ns prp dw10 dw11 : Nat) (s : State) : State :=
  let i := (s.mbr m).asq
  dmaPut 10 (s.queueArea m + i % 32 * 64)
    (leBytes 4 (opc + i % 4096 * 2 ^ 16) ++ leBytes 4 ns ++ leBytes 16 0 ++ leBytes 16 prp ++ leBytes 4 dw10 ++
      leBytes 4 dw11 ++ leBytes 16 0) (modMbr m (fun x => { x with asq := i + 1 }) s)

/-- An admin command that the device completes with success: the entry, and its completion in the admin completion queue. -/
def adminDone (m opc ns prp dw10 dw11 dw0 : Nat) (s : State) : State :=
  let i := (s.mbr m).asq
  dmaPut 10 (s.queueArea m + 0x800 + i % 32 * 16)
    (leBytes 8 dw0 ++ leBytes 4 ((i + 1) % 32) ++ leBytes 4 (i % 4096 + (i / 32 + 1) % 2 * 2 ^ 16))
    (adminPut m opc ns prp dw10 dw11 s)

/-- The submission entry of an I/O command (PRESUMED, log 55: NVMe 2.0): opcode, identifier, namespace 1, blocks, or for a
deallocation one range and the deallocate attribute; no data pointer (the data buffers are the B9's own). -/
def sqeBytes (cid : Nat) (vwc : Bool) (op : NvOp) : List Byte :=
  let (opc, blk, n, fua) := match op with
    | .write b n _ => (1, b, n, vwc)
    | .read b n => (2, b, n, false)
    | .dealloc b n => (9, b, n, false)
  leBytes 4 (opc + cid * 2 ^ 16) ++ leBytes 4 1 ++ leBytes 32 0 ++
    if opc = 9 then leBytes 4 0 ++ leBytes 4 4 ++ leBytes 16 0
    else leBytes 8 blk ++ leBytes 4 (n - 1 + (if fua then 2 ^ 30 else 0)) ++ leBytes 12 0

/-- Submits a command to a member: identifier bits [15:12] carry the generation (R289), I/O pairs in turn (R287). -/
def submit (m : Nat) (c : NvCmd) (s : State) : State :=
  let x := s.mbr m
  let cid := s.f (RM_MBR_GEN_gen m) % 16 * 4096 + x.next % 4096
  let q := x.subs % 4
  let c := { c with cid := cid, pair := q, due := s.now + floor1 (s.f (RM_MBR_CFG_timeout_ms m)) * ms }
  let at_ := s.queueArea m + 0x1000 + q * 0x14000 + x.subs / 4 % 1024 * 64
  dmaPut 10 at_ (sqeBytes cid (s.b (RM_MBR_STATUS_vwc m)) c.op)
    (modMbr m (fun x => { x with cmds := x.cmds ++ [c], next := (x.next + 1) % 4096, subs := x.subs + 1 }) s)

/-- A write or another command for an owner. -/
def issue (m : Nat) (op : NvOp) (o : RmOwner) (s : State) : State := submit m { cid := 0, op := op, owner := o, due := 0 } s

/-! ### Geometry (R290, R291) -/

/-- Blocks of a stripe unit. -/
def VolSt.unit (x : VolSt) : Nat := 2 ^ x.su

/-- Position and member block of a VBN (R291). -/
def VolSt.locate (x : VolSt) (vbn : Nat) : Nat × Nat :=
  let u := x.unit
  let k := vbn / u
  (k % x.n, 1024 + k / x.n * u + vbn % u)

/-- The members that hold position `p` and live. -/
def State.holders (s : State) (x : VolSt) (p : Nat) : List Nat :=
  (x.slots.filter (fun l => l.role == 1 && l.pos == p && s.mbrLive l.m)).map (·.m)

/-- The members that hold or spare a position and live (R297). -/
def State.metaMembers (s : State) (x : VolSt) : List VolSlot :=
  x.slots.filter (fun l => (l.role == 1 || l.role == 2) && s.mbrLive l.m)

/-- A VBN range cut at stripe units and the command limit: position, member block, blocks, blocks before (R289). -/
def VolSt.pieces (x : VolSt) (lim : Nat) : Nat → Nat → Nat → Nat → List (Nat × Nat × Nat × Nat)
  | 0, _, _, _ => []
  | fuel + 1, vbn, n, done =>
    if n = 0 then []
    else
      let k := floor1 (min n (min lim (x.unit - vbn % x.unit)))
      let (p, b) := x.locate vbn
      (p, b, k, done) :: x.pieces lim fuel (vbn + k) (n - k) (done + k)

/-- The command limit over a volume's members. -/
def State.volLimit (s : State) (x : VolSt) : Nat := (x.slots.map (fun l => s.cmdBlocks l.m)).foldl min 256

/-- The non-zero bytes of the `n` blocks after the first `d`, from 0. -/
def cutCells (d n : Nat) (l : List Host.Cell) : List Host.Cell :=
  (l.filter (fun e => decide (d * 4096 ≤ e.1 ∧ e.1 < (d + n) * 4096))).map (fun e => (e.1 - d * 4096, e.2))

/-- Writes `n` blocks at a VBN for an owner; the answer counts the member commands. -/
def volWrite (v vbn n : Nat) (cells : List Host.Cell) (o : RmOwner) (s : State) : Nat × State :=
  match look s.rm.vols v with
  | none => (0, s)
  | some x =>
    let s := if x.spared.isEmpty then s
      else modVol v (fun x => { x with spared := x.spared.map (fun e => (e.1, e.2 ++ [(vbn, n)])) }) s
    (x.pieces (s.volLimit x) n vbn n 0).foldl (fun (z : Nat × State) (p, b, k, d) =>
      (s.holders x p).foldl (fun (z : Nat × State) m => (z.1 + 1, issue m (.write b k (cutCells d k cells)) o z.2)) z) (0, s)

/-! ### Structures (R292 to R296) -/

/-- A superblock of slot `i` (R292). -/
def superblock (x : VolSt) (i blocks : Nat) : List Byte :=
  let u := 2 ^ x.su
  let table := (List.range 4).flatMap (fun j => match x.slots[j]? with
    | some l => leBytes 8 l.uid.toNat ++ leBytes 1 l.role ++ leBytes 1 l.pos ++ leBytes 2 l.gen ++ leBytes 20 0
    | none => leBytes 32 0)
  withCrc (leBytes 4 0x4C565242 ++ leBytes 4 (1 + x.layout * 2 ^ 16 + x.slots.length * 2 ^ 18) ++ leBytes 8 x.id ++
    leBytes 8 (i + x.su * 16) ++ leBytes 8 blocks ++ leBytes 8 ((blocks - 1025) / u * u) ++ leBytes 8 x.total ++ leBytes 8 x.sbSeq ++
    leBytes 8 x.ckpt ++ table ++ leBytes (0x1FC - 0xC0) 0)

/-- A clip-table entry (R293). -/
def clipEntry (c : ClipSt) (k state : Nat) : List Byte :=
  let f := c.first.getD {}
  withCrc (leBytes 4 (state + c.flags) ++ leBytes 4 c.link ++ leBytes 4 k ++ leBytes 4 (c.prod + c.fmt * 2 ^ 16) ++
    leBytes 4 ((c.exts.head?.map (·.1)).getD 0) ++ leBytes 4 c.exts.length ++ leBytes 4 c.frames ++ leBytes 4 f.pfn ++
    leBytes 4 ((c.last.map (·.1)).getD 0) ++ leBytes 4 f.rfn ++ stampBytes f.sof ++ leBytes 4 0 ++
    leBytes 8 (c.lastIdx.getD (2 ^ 64 - 1)) ++ leBytes 4 c.size ++ leBytes (0xFC - 0x44) 0)

/-- An extent record (R294). -/
def extRecord (clip next first blocks used : Nat) : List Byte :=
  withCrc (leBytes 4 clip ++ leBytes 4 next ++ leBytes 8 first ++ leBytes 4 blocks ++ leBytes 4 used ++ leBytes 4 0)

/-- The extent records of a clip, chained in order. -/
def extPuts (c : ClipSt) : List MetaOp :=
  c.exts.mapIdx (fun i (e, f, b, u) =>
    .put (extOff e) (extRecord c.id ((c.exts[i + 1]?.map (·.1)).getD 0xFFFFFFFF) f b u))

/-- A journal record (R296). The places of the arguments are the B9's own. -/
def jrnRecord (seq type clip : Nat) (args : List Byte) : List Byte :=
  withCrc (leBytes 8 seq ++ leBytes 4 type ++ leBytes 4 clip ++ slice args 0 0 44)

/-- An index block (R295). -/
def indexBlock (clip no prev : Nat) (entries : List (List Byte)) : List Byte :=
  withCrc (slice entries.flatten 0 0 4064 ++ leBytes 4 clip ++ leBytes 4 no ++ leBytes 8 prev ++
    leBytes 4 entries.length ++ leBytes 8 0)

/-- An index entry of a frame at `vbn` (R295). -/
def indexEntry (i : FrameInfo) (vbn : Nat) (payload : List Byte) : List Byte :=
  leBytes 8 vbn ++ leBytes 4 payload.length ++ leBytes 4 i.pfn ++ leBytes 4 i.rfn ++ leBytes 4 i.fsw ++
    leBytes 2 i.sid ++ leBytes 2 0 ++ leBytes 4 (crc32 payload)

/-! ### Metadata tasks (R297) -/

/-- Appends journal records to a volume: their places in the area; sequences go up by 1. -/
def journal (v : Nat) (recs : List (Nat × Nat × List Byte)) (s : State) : List MetaOp × State :=
  match look s.rm.vols v with
  | none => ([], s)
  | some x =>
    let ops := recs.mapIdx (fun i (ty, clip, args) =>
      MetaOp.put (jrnOff (x.jseq + 1 + i)) (jrnRecord (x.jseq + 1 + i) ty clip args))
    (ops, modVol v (fun x => { x with jseq := x.jseq + recs.length }) s)

/-- Issues one metadata step to every member that takes it; the answer counts the commands. -/
def metaIssue (v id : Nat) (op : MetaOp) (s : State) : Nat × State :=
  match op with
  | .data vbn bs => volWrite v vbn (ceilDiv bs.length 4096) (cellsOf 0 bs) (.task id) s
  | .put off bs =>
    let s := modVol v (fun x => { x with area := memPuts x.area off bs }) s
    match look s.rm.vols v with
    | none => (0, s)
    | some x =>
      let b := off / 4096
      (s.metaMembers x).foldl (fun (z : Nat × State) l =>
        (z.1 + 1, issue l.m (.write b 1 (cutCells b 1 x.area)) (.task id) z.2)) (0, s)
  | .sb copyB =>
    let s := if copyB then s else modVol v (fun x => { x with sbSeq := x.sbSeq + 1 }) s
    match look s.rm.vols v with
    | none => (0, s)
    | some x =>
      (s.metaMembers x).foldl (fun (z : Nat × State) l =>
        let blocks := s.pair (RM_MBR_BLOCKS_LO l.m) (RM_MBR_BLOCKS_HI l.m)
        let i := x.slots.findIdx (fun y => y.m == l.m)
        (z.1 + 1, issue l.m (.write (if copyB then blocks - 1 else 0) 1 (cellsOf 0 (superblock x i blocks))) (.task id) z.2))
        (0, s)
  | .reads l =>
    l.foldl (fun (z : Nat × State) (m, b, n) =>
      if z.2.mbrLive m then (z.1 + 1, issue m (.read b n) (.task id) z.2) else z) (0, s)

/-- What follows a task. A volume that failed while it was opened or formatted stays FAILED (R305). -/
def taskEnd (e : TaskEnd) (s : State) : State :=
  match e with
  | .nothing => s
  | .opened k =>
    match (s.str k).ring with
    | some r => if s.f (RM_STR_STATUS_state k) = 0 then s else ringAttach r (.stream k) s
    | none => s
  | .closed k => modStr k (fun x => { x with stage := 3 }) s
  | .ready v rec =>
    if s.f (RM_VOL_STATUS_state v) != 1 then s else
    let bad := match look s.rm.vols v with
      | some x => (List.range x.n).any (fun p => s.holders x p == []) || x.slots.any (·.role == 3)
      | none => true
    let s := setF (RM_VOL_STATUS_state v) (if bad then 3 else 2) s
    if rec then raise 0x40 10 v s else s
  | .replayed v n =>
    raise 0x44 4 (v + 1) (setF (OEP_NS_STATUS_replaying v) 0 (setF (OEP_NS_STATUS_replayed v) n s))
  | .split k => raise 0x40 5 k s
  | .opening v => match look s.rm.opens v with
    | some o => { s with rm := { s.rm with opens := put s.rm.opens v { o with read := true } } }
    | none => s

/-- A volume whose streams have all closed and whose metadata is written, if it is closing, is CLOSED and its members IDLE
(R297, R307). -/
def volShut (v : Nat) (s : State) : State :=
  match look s.rm.vols v with
  | none => s
  | some x =>
    if x.closing && s.rm.tasks.all (fun e => e.2.vol != v) &&
        (List.range 8).all (fun k => s.f (RM_STR_STATUS_state k) == 0 || (s.str k).vol != v) then
      let s := x.slots.foldl (fun s l =>
        let st := s.f (RM_MBR_STATUS_state l.m)
        if st = 2 || st = 3 then setF (RM_MBR_STATUS_state l.m) 1 s else s) s
      setF (RM_VOL_STATUS_state v) 0 { s with rm := { s.rm with vols := del s.rm.vols v } }
    else s

/-- Begins the next phases of a task until one has commands outstanding. -/
def taskRun (id : Nat) (t : RmTask) : List (List MetaOp) → State → State
  | [], s => volShut t.vol <| taskEnd t.fin { s with rm := { s.rm with tasks := del s.rm.tasks id } }
  | p :: l, s =>
    let (n, s) := p.foldl (fun (z : Nat × State) op => let (k, s) := metaIssue t.vol id op z.2; (z.1 + k, s)) (0, s)
    if n = 0 then taskRun id t l s
    else { s with rm := { s.rm with tasks := put s.rm.tasks id { t with phases := l, left := n } } }

/-- Starts a metadata task; `base` is the sequence before its journal records. -/
def taskStart (v : Nat) (base : Option Nat) (phases : List (List MetaOp)) (fin : TaskEnd) (s : State) : State :=
  let id := s.rm.taskNo
  taskRun id { vol := v, phases := [], fin := fin, base := base } phases { s with rm := { s.rm with taskNo := id + 1 } }

/-- One command of a task is complete, or needed no more. -/
def taskStep (id : Nat) (s : State) : State :=
  match look s.rm.tasks id with
  | none => s
  | some t =>
    if t.left ≤ 1 then taskRun id t t.phases s
    else { s with rm := { s.rm with tasks := put s.rm.tasks id { t with left := t.left - 1 } } }

/-- The last journal record of a volume that is applied in place: none at or after the first of a task under way. -/
def State.appliedSeq (s : State) (v jseq : Nat) : Nat :=
  (s.rm.tasks.filterMap (fun e => if e.2.vol = v then e.2.base else none)).foldl min jseq

/-- A CHECKPOINT record and the superblocks, once the journal has 2,048 records beyond the checkpoint (R297). -/
def checkpoint (v : Nat) (s : State) : State :=
  match look s.rm.vols v with
  | none => s
  | some x =>
    if x.jseq < x.ckpt + 2048 then s
    else
      let (ops, s) := journal v [(6, 0, [])] s
      let s := modVol v (fun y => { y with ckpt := s.appliedSeq v y.jseq }) s
      taskStart v none [ops, [.sb false], [.sb true]] .nothing s

/-- Journals records and then writes what they describe (R297). -/
def metaWrite (v : Nat) (recs : List (Nat × Nat × List Byte)) (then_ : List MetaOp) (fin : TaskEnd) (s : State) : State :=
  let base := (look s.rm.vols v).map (·.jseq)
  let (ops, s) := journal v recs s
  checkpoint v (taskStart v base [ops, then_] fin s)

/-! ### The allocation mirror (R302) -/

/-- The mirror of stream `k` in MRAM. -/
def State.mirrorAt (s : State) (k : Nat) : Nat := Config.mramBase + s.f RM_MIRROR_base * 0x4000 + k * 0x2000

/-- The grants of a stream as of its last commit (R302). -/
def StrSt.settled (x : StrSt) : List Grant := match x.flights with
  | f :: _ => f.before
  | [] => x.grants

/-- The mirror of a stream: the partial index block, then the header in the place that does not hold the latest
(R302). The places of the header's fields are the B9's own, and so is the volume's number among them. -/
def mirrorWrite (k : Nat) (recording : Bool) (s : State) : State :=
  let x := s.str k
  let a := s.mirrorAt k
  let id := match look s.rm.vols x.vol with
    | some v => v.id
    | none => 0
  let g (i : Nat) : Grant := x.settled.getD i ⟨0, 0, 0, 0, 0⟩
  let seq := x.mseq + 1
  let hd := leBytes 4 0x5252494D ++ leBytes 1 (if recording then 1 else 0) ++ leBytes 1 x.clip.part.length ++
    leBytes 2 x.clip.id ++ leBytes 8 id ++ leBytes 2 (s.f (RM_STR_SPLIT_split_id k)) ++ leBytes 2 (g 0).ext ++
    leBytes 2 (g 1).ext ++ leBytes 2 x.vol ++ leBytes 4 x.clip.frames ++ leBytes 5 (g 0).cur ++ leBytes 5 (g 0).stop ++
    leBytes 5 (g 1).cur ++ leBytes 5 (g 1).stop ++ leBytes 5 (x.clip.lastIdx.getD (2 ^ 40 - 1)) ++ leBytes 7 seq
  let s := match x.clip.part.getLast? with
    | some e => dmaPut 10 (a + 0x80 + 32 * (x.clip.part.length - 1)) e s
    | none => s
  dmaPut 10 (a + if seq % 2 = 0 then 0x40 else 0) (withCrc hd) (modStr k (fun x => { x with mseq := seq }) s)

/-- The valid header of a stream's mirror, as it stands (R302). -/
def State.mirrorHead (s : State) (k : Nat) : Option (List Byte) :=
  let l := ([0, 0x40].map (fun o => s.peeks (s.mirrorAt k + o) 64)).filter (fun b =>
    leAt b 0 4 == 0x5252494D && leAt b 0x3C 4 == crc32 (b.take 60))
  l.foldl (fun m b => match m with
    | none => some b
    | some a => if leAt a 53 7 < leAt b 53 7 then some b else some a) none

end Sys2Proof.Machine
end

