-- ==== Sys2Proof/Machine/RmStream.lean ====
section
/-! DEFINITION. Recording streams (R298 to R302, R305): clips, grants, frames, index blocks, commits and closes. -/

namespace Sys2Proof.Machine

/-- The volume takes recordings: it is READY or DEGRADED, and every position has a live holder (DESIGN CHOICE, log 30: R308
lets a volume with a lost position read DEGRADED; no frame on it could ever commit, R300). -/
def State.volRuns (s : State) (v : Nat) : Bool :=
  (s.f (RM_VOL_STATUS_state v) == 2 || s.f (RM_VOL_STATUS_state v) == 3) && match look s.rm.vols v with
    | some x => (List.range x.n).all (fun p => s.holders x p != [])
    | none => false

/-- The state a stream shows. -/
def strState (k n : Nat) (s : State) : State := setF (RM_STR_STATUS_state k) n s

/-! ### Grants -/

/-- A write of RM_STRk_GRANT_EXT (R299). -/
def grantWrite (k : Nat) (v : Word) (s : State) : State :=
  if !bitOf v.toNat 31 then plainWrite (RM_STR_GRANT_EXT k) v s
  else
    let first := s.pair (RM_STR_GRANT_LO k) (RM_STR_GRANT_HI k)
    let len := s.f (RM_STR_GRANT_LEN_blocks k)
    let vol := s.f (RM_STR_CFG_vol k)
    let total := match look s.rm.vols vol with
      | some x => x.total
      | none => 0
    if len = 0 then s
    else if 2 ≤ (s.str k).grants.length || decide (total < first + len) then flag RM_STATUS_bad_write s
    else
      let s := plainWrite (RM_STR_GRANT_EXT k) v s
      modStr k (fun x => { x with
        grants := x.grants ++ [⟨x.grantNo, first, first, first + len, bitsOf v.toNat 15 0⟩], grantNo := x.grantNo + 1 }) s

/-- The extent of a clip that grant `g` fills, with the blocks used so far. -/
def noteExt (g : Grant) (c : ClipSt) : ClipSt :=
  if c.exts.any (fun e => e.1 == g.ext) then
    { c with exts := c.exts.map (fun e => if e.1 == g.ext then (e.1, e.2.1, e.2.2.1, g.cur - e.2.1) else e) }
  else { c with exts := c.exts ++ [(g.ext, g.cur, g.stop - g.cur, 0)] }

/-- The clip that blocks go to: clip B of a split (`toNext`), else the open clip. -/
def StrSt.filling (x : StrSt) (toNext : Bool) : ClipSt := if toNext then x.next.getD {} else x.clip

/-- Notes grants in the extents of the clip being filled; a grant that opens an extent gets its EXTENT record (R298), unless
the record is written with SPLIT. -/
def fillExt (k : Nat) (toNext : Bool) (gs : List Grant) (s : State) : State :=
  let x := s.str k
  let c := x.filling toNext
  let d := gs.foldl (fun c g => noteExt g c) c
  let s := modStr k (fun x => if toNext then { x with next := some d } else { x with clip := d }) s
  match gs.filter (fun g => !c.exts.any (fun e => e.1 == g.ext)) with
  | [] => s
  | l => metaWrite x.vol (l.map (fun g => (2, d.id, leBytes 8 g.ext ++ leBytes 8 g.cur))) (extPuts d) .nothing s

/-- Blocks at the stream's cursor: in the head grant, else at the start of the next, whose predecessor's remainder is
recorded as unused with GRANT_LOW (R298). -/
def allocate (k n : Nat) (toNext : Bool) (s : State) : Option Nat × State :=
  match (s.str k).grants with
  | [] => (none, s)
  | g :: t =>
    if n ≤ g.stop - g.cur then
      let s := modStr k (fun x => { x with grants := { g with cur := g.cur + n } :: t }) s
      let known := ((s.str k).filling toNext).exts.any (fun e => e.1 == g.ext)
      (some g.cur, if known then s else fillExt k toNext [g] s)
    else match t with
      | [] => (none, s)
      | h :: u =>
        if n ≤ h.stop - h.cur then
          let s := modStr k (fun x => { x with grants := { h with cur := h.cur + n } :: u }) s
          (some h.cur, raise 0x40 7 k (fillExt k toNext [g, h] s))
        else (none, s)

/-! ### Frames and index blocks -/

/-- What a flight writes. -/
def flightCells (k : Nat) (r : Option RingId) (f : Flight) (s : State) : List Host.Cell × State :=
  if f.index then (cellsOf 0 f.data, s)
  else match r with
    | some r =>
      let (d, s) := readDesc (.stream k) r f.buf s
      let (bs, s) := dmaTake 10 (descBuf d).addr f.bytes s
      (cellsOf 0 bs, s)
    | none => ([], s)

/-- Issues a flight's member writes, its lock being held (R327). -/
def flightIssue (k no : Nat) (s : State) : State :=
  let x := s.str k
  match x.flights.find? (fun f => f.no == no) with
  | none => s
  | some f =>
    if f.issued then s
    else
      let (cells, s) := flightCells k x.ring f s
      let (n, s) := volWrite x.vol f.vbn f.blocks cells (.flight k no) s
      let s := modStr k (fun x => { x with
        flights := x.flights.map (fun g => if g.no == no then { g with issued := true, left := n } else g) }) s
      if n = 0 then lockDrop (.flight k no) s else s

/-- Starts a flight: its lock is asked for, and its writes go out once it is granted. -/
def flightStart (k : Nat) (f : Flight) (s : State) : State :=
  let x := s.str k
  let s := modStr k (fun x => { x with flights := x.flights ++ [{ f with no := x.no }], no := x.no + 1 }) s
  let (ok, s) := lockAsk (.flight k x.no) x.vol f.vbn f.blocks true s
  if ok then flightIssue k x.no s else s

/-- Writes an index block of `entries` for clip `id` at the cursor (R295); false if no grant has the block. -/
def indexStart (k id : Nat) (entries : List (List Byte)) (last : Bool) (s : State) : Bool × State :=
  let before := (s.str k).grants
  match allocate k 1 ((s.str k).next.isSome && !last) s with
  | (none, s) => (false, s)
  | (some vbn, s) =>
    let x := s.str k
    let bs := indexBlock id x.idxs (x.prevIdx.getD (2 ^ 64 - 1)) entries
    let s := modStr k (fun x => { x with idxs := x.idxs + 1, prevIdx := some vbn, entries := [], owed := false }) s
    (true, flightStart k { no := 0, index := true, last := last, vbn := vbn, blocks := 1, bytes := 4096, data := bs, before := before } s)

/-- The index block owed after every 127th frame (R295). -/
def payIndex (k : Nat) (s : State) : State :=
  if (s.str k).owed then (indexStart k (match (s.str k).next with
    | some c => c.id
    | none => (s.str k).clip.id) (s.str k).entries false s).2 else s

/-- Writes one frame from ring buffer `b`: false if it fits in no queued grant (R298, R299). -/
def frameWrite (k b : Nat) (s : State) : Bool × State :=
  let s := payIndex k s
  let x := s.str k
  match x.ring with
  | none => (false, s)
  | some r =>
    if x.owed then (false, s)
    else
      let (d, s) := readDesc (.stream k) r b s
      let n := (descBuf d).written
      let before := x.grants
      match allocate k (ceilDiv n 4096) x.next.isSome s with
      | (none, s) => (false, s)
      | (some vbn, s) =>
        let i := descInfo d
        let (bs, s) := dmaTake 10 (descBuf d).addr n s
        let e := indexEntry i vbn bs
        let s := modStr k (fun x => { x with
          taken := x.taken + 1, entries := x.entries ++ [e], owed := (x.entries.length + 1 == 127) }) s
        let s := flightStart k
          { no := 0, index := false, buf := b, vbn := vbn, blocks := ceilDiv n 4096, bytes := n, entry := e, info := i,
            before := before } s
        (true, payIndex k s)

/-- The next buffer a stream has not taken. -/
def State.nextFrame (s : State) (k : Nat) : Option Nat :=
  let x := s.str k
  match x.ring with
  | none => none
  | some r => (s.heldBy r (.stream k)).find? (fun b =>
      !x.flights.any (fun f => !f.index && f.buf == b) && !x.redo.any (fun f => f.buf == b))

/-- A stream takes the next frame of its ring, or releases it for want of space (R298, R299). -/
def streamFrame (k : Nat) (s : State) : State :=
  let x := s.str k
  if !s.b RM_CTRL_en || s.f (RM_STR_STATUS_state k) != 1 || !s.volRuns x.vol then s
  else match s.nextFrame k, x.ring with
    | some b, some r =>
      let (ok, s) := frameWrite k b s
      if ok then s else raise 0x40 8 k (bump (RM_STR_NOSPACE k) (ringRelease r (.stream k) b s))
    | _, _ => s

/-- STREAM_FRAME (R298). -/
def execStreamFrame (k : Nat) (s : State) : Res :=
  guardOk (decide (k < 8)) (if s.domOn dRM then streamFrame k s else s)

/-! ### Open and close -/

/-- The latest sequence in a stream's mirror headers, so that the next is higher. -/
def mirrorSeq (k : Nat) (s : State) : Nat := match s.mirrorHead k with
  | some b => leAt b 53 7
  | none => 0

/-- An open that is refused: no such source, a stream or volume in another state, clip 0 (R298). -/
def clipRefused (k : Nat) (s : State) : Bool :=
  (sourceRing (s.f (RM_STR_CFG_src_blk k)) (s.f (RM_STR_CFG_src_out k))).isNone || s.f (RM_STR_STATUS_state k) != 0 ||
    !s.volRuns (s.f (RM_STR_CFG_vol k)) || s.f (RM_STR_CLIP_clip_id k) == 0

/-- A write of RM_STRk_CTRL.open (R298). -/
def clipOpen (k : Nat) (s : State) : State :=
  let vol := s.f (RM_STR_CFG_vol k)
  let id := s.f (RM_STR_CLIP_clip_id k)
  match sourceRing (s.f (RM_STR_CFG_src_blk k)) (s.f (RM_STR_CFG_src_out k)) with
  | none => flag RM_STATUS_bad_write s
  | some r =>
    if clipRefused k s then flag RM_STATUS_bad_write s
    else
      let x := s.str k
      let c : ClipSt := { id := id, prod := (s.rd (RM_STR_CFG k)).toNat / 256 % 65536 }
      let c := match x.grants with
        | g :: _ => noteExt g c
        | [] => c
      let ext := match x.grants with
        | g :: _ => [(2, id, leBytes 8 g.ext ++ leBytes 8 g.cur)]
        | [] => []
      let s := modStr k (fun x => { vol := vol, ring := some r, clip := c, grants := x.grants, grantNo := x.grantNo, mseq := mirrorSeq k s }) s
      let s := setF (RM_STR_COMMITTED_frames k) 0 (strState k 1 s)
      let s := mirrorWrite k true s
      metaWrite vol ((1, id, leBytes 4 k ++ leBytes 4 c.prod) :: ext) (.put (clipOff id) (clipEntry c k 1) :: extPuts c)
        (.opened k) s

/-- Takes the close of a stream a stage further: its final index block once every written frame has committed (R301). -/
def tryClose (k : Nat) (s : State) : State :=
  let x := s.str k
  if s.f (RM_STR_STATUS_state k) = 2 && x.stage = 0 && x.flights.isEmpty && x.redo.isEmpty then
    let (ok, s) := indexStart k x.clip.id x.entries true s
    if ok then modStr k (fun x => { x with stage := 1 }) s else s
  else s

/-- A write of RM_STRk_CTRL.close (R301). A stream that is splitting closes after the split. -/
def clipClose (k : Nat) (s : State) : State :=
  let st := s.f (RM_STR_STATUS_state k)
  if st = 1 then tryClose k (strState k 2 s)
  else if st = 3 then modStr k (fun x => { x with shut := true }) s
  else s

/-- A write of RM_STRk_CTRL: a refused open refuses the write (R510). -/
def strCtrlWrite (k : Nat) (v : Word) (s : State) : State :=
  if bitOf v.toNat 0 && clipRefused k s then flag RM_STATUS_bad_write s else
  let s := if bitOf v.toNat 0 then clipOpen k s else s
  if bitOf v.toNat 1 then clipClose k s else s

/-- CLIP_OPEN (R298). -/
def execClipOpen (r : Requester) (k : Nat) (v : Word) (s : State) : Res :=
  guardOk (decide (k < 8)) (writeBy r (RM_STR_CTRL k) (strCtrlWrite k (v ||| 1)) s)

/-- CLIP_CLOSE (R301). -/
def execClipClose (r : Requester) (k : Nat) (v : Word) (s : State) : Res :=
  guardOk (decide (k < 8)) (writeBy r (RM_STR_CTRL k) (strCtrlWrite k (v ||| 2)) s)

/-- GRANT_PUSH (R299): a stream that waited for blocks to close in goes on. -/
def execGrantPush (r : Requester) (k : Nat) (v : Word) (s : State) : Res :=
  guardOk (decide (k < 8)) (writeBy r (RM_STR_GRANT_EXT k) (fun s => tryClose k (grantWrite k (setBits v 31 31 1) s)) s)

/-- The extents of a clip as they stand, the head grant's use included. -/
def closeExts (k : Nat) (s : State) : ClipSt :=
  let x := s.str k
  match x.grants with
  | g :: _ => if x.clip.exts.any (fun e => e.1 == g.ext) then noteExt g x.clip else x.clip
  | [] => x.clip

/-- The metadata of a closed clip: CLIP_CLOSE, then its entry and extents (R301). -/
def closeMeta (k : Nat) (s : State) : State :=
  let x := s.str k
  let c := closeExts k s
  let s := modStr k (fun x => { x with clip := c, stage := 2 }) s
  let s := mirrorWrite k false s
  metaWrite x.vol [(3, c.id, leBytes 4 c.frames ++ leBytes 8 (c.lastIdx.getD (2 ^ 64 - 1)) ++ leBytes 4 c.flags)]
    (.put (clipOff c.id) (clipEntry c k 2) :: extPuts c) (.closed k) s

/-- Clip A of a split is closed and clip B open (R305): SPLIT and both entries, then CLIP_SPLIT; recording goes on. -/
def splitMeta (k : Nat) (b : ClipSt) (s : State) : State :=
  let x := s.str k
  let a := x.clip
  let s := modStr k (fun x => { x with clip := b, next := none }) s
  let s := strState k (if x.shut then 2 else 1) (setF (RM_STR_COMMITTED_frames k) 0 s)
  let s := mirrorWrite k true s
  metaWrite x.vol
    [(3, a.id, leBytes 4 a.frames ++ leBytes 8 (a.lastIdx.getD (2 ^ 64 - 1)) ++ leBytes 4 a.flags),
     (4, a.id, leBytes 4 a.id ++ leBytes 4 b.id ++ leBytes 4 a.frames),
     (2, b.id, leBytes 8 (s.f (RM_STR_SPLIT_EXT_ext k)) ++ leBytes 8 ((b.exts.head?.map (fun e => e.2.1)).getD 0))]
    (.put (clipOff a.id) (clipEntry a k 2) :: .put (clipOff b.id) (clipEntry b k 1) :: extPuts a ++ extPuts b) (.split k) s

/-- The oldest written frame or index block commits (R300, R302). -/
def frameCommit (k : Nat) (s : State) : State :=
  let x := s.str k
  match x.flights with
  | [] => s
  | f :: t =>
    if !f.issued || f.left != 0 then s
    else
      let s := modStr k (fun x => { x with flights := t }) s
      if f.index then
        let s := modStr k (fun x => { x with clip := { x.clip with lastIdx := some f.vbn, nIdx := x.clip.nIdx + 1, part := [] } }) s
        let s := mirrorWrite k true s
        match f.last, x.next with
        | true, some b => tryClose k (splitMeta k b s)
        | true, none => closeMeta k s
        | false, _ => tryClose k s
      else
        let s := modStr k (fun x => { x with clip := { x.clip with
          frames := x.clip.frames + 1, part := x.clip.part ++ [f.entry]
          first := some (x.clip.first.getD f.info), last := some (f.info.pfn, f.info.rfn) } }) s
        let s := setF (RM_STR_COMMITTED_frames k) (x.clip.frames + 1) (mirrorWrite k true s)
        let s := match x.ring with
          | some r =>
            let (d, s) := readDesc (.stream k) r f.buf s
            let d := descBuf d
            let s := modStr k (fun x => { x with clip := { x.clip with
              fmt := d.fmt, size := if d.fmt = 0x41 then d.written else x.clip.size } }) s
            ringRelease r (.stream k) f.buf s
          | none => s
        tryClose k s

/-- FRAME_COMMIT (R300). -/
def execFrameCommit (k : Nat) (s : State) : Res :=
  guardOk (decide (k < 8)) (if s.domOn dRM then frameCommit k s else s)

/-- CLIP_CLOSED (R301): the close is complete, the stream detaches. -/
def clipClosed (k : Nat) (s : State) : State :=
  let x := s.str k
  if x.stage != 3 then s
  else
    let s := match x.ring with
      | some r => ringDetach r (.stream k) s
      | none => s
    let s := modStr k (fun x => { vol := x.vol, grants := x.grants, grantNo := x.grantNo, mseq := x.mseq, clip := x.clip }) s
    volShut x.vol (raise 0x40 9 k (strState k 0 s))

/-- CLIP_CLOSED. -/
def execClipClosed (k : Nat) (s : State) : Res :=
  guardOk (decide (k < 8)) (if s.domOn dRM then clipClosed k s else s)

/-! ### Splits (R305) -/

/-- A member command of a flight that a live member still has. -/
def State.flightBusy (s : State) (k no : Nat) : Bool :=
  s.rm.mbrs.any (fun e => e.2.cmds.any (fun c => !c.old && c.owner == .flight k no))

/-- A flight's lock goes with its last completion, and not before it was issued (R327, R329). -/
def flightFree (k no : Nat) (s : State) : State :=
  let waits := (s.str k).flights.any (fun f => f.no == no && (!f.issued || f.left != 0))
  if waits || s.flightBusy k no then s else lockDrop (.flight k no) s

/-- The stream goes back to its committed end: what was not committed is dropped or kept for a rewrite; the locks of what is
dropped go with the last completions of its writes (R327). -/
def rewind (k : Nat) (keep : Bool) (s : State) : State :=
  let x := s.str k
  let grants := match x.flights with
    | [] => x.grants
    | f :: _ => f.before ++ x.grants.filter (fun g => !f.before.any (fun h => h.no == g.no))
  let s := match x.ring, keep with
    | some r, false => x.flights.foldl (fun s f => if f.index then s else ringRelease r (.stream k) f.buf s) s
    | _, _ => s
  let s := modStr k (fun x => { x with
    flights := [], grants := grants, owed := false, idxs := x.clip.nIdx, prevIdx := x.clip.lastIdx, entries := x.clip.part
    redo := if keep then x.redo ++ x.flights.filter (fun f => !f.index) else [] }) s
  x.flights.foldl (fun s f => flightFree k f.no s) s

/-- Marks the stream's clip: degraded, and lost at positions. -/
def markClip (k flags : Nat) (s : State) : State :=
  modStr k (fun x => { x with clip := { x.clip with flags := x.clip.flags ||| flags } }) s

/-- A stream whose volume lost what it needs closes at its committed frames and detaches (R305). -/
def clipBreak (k : Nat) (s : State) : State :=
  let s := markClip k 0x40 (rewind k false s)
  let s := match (s.str k).ring with
    | some r => ringDetach r (.stream k) s
    | none => s
  tryClose k (strState k 2 (modStr k (fun x => { x with stage := 0, redo := [], next := none }) s))

/-- A stream splits its clip because position `p` was lost (R305). -/
def clipSplit (k p : Nat) (s : State) : State :=
  let b := s.f (RM_STR_SPLIT_split_id k)
  if b = 0 then clipBreak k s
  else
    let s := markClip k (0x40 ||| 0x20 ||| 2 ^ (12 + p)) (rewind k true s)
    let x := s.str k
    let next : ClipSt := { id := b, flags := 0x10, link := x.clip.id, prod := x.clip.prod }
    let s := modStr k (fun x => { x with clip := { x.clip with link := b }, next := some next }) s
    strState k 3 s

/-- Member writes of the stream that may still land. -/
def State.strBusy (s : State) (k : Nat) : Bool :=
  s.rm.mbrs.any (fun e => e.2.cmds.any (fun c => !c.old && (match c.owner with
    | .flight j _ => j == k
    | _ => false)))

/-- SPLIT_REWRITE (R305): the old writes are complete or fenced; clip A's final index block and clip B's frames are
written. -/
def splitRewrite (k : Nat) (s : State) : State :=
  let x := s.str k
  match x.next with
  | none => s
  | some b =>
    if s.f (RM_STR_STATUS_state k) != 3 || !x.flights.isEmpty || s.strBusy k || x.stage != 0 then s
    else
      let (ok, s) := indexStart k x.clip.id x.entries true s
      if !ok then s
      else
        let ext := s.f (RM_STR_SPLIT_EXT_ext k)
        let s := modStr k (fun x => { x with
          clip := (match x.grants with
            | g :: _ => noteExt g x.clip
            | [] => x.clip)
          grants := (match x.grants with
            | g :: t => { g with ext := ext } :: t
            | [] => [])
          idxs := 0, prevIdx := none, taken := 0, entries := [], redo := [] }) s
        let s := modStr k (fun y => { y with next := some (match y.grants with
          | g :: _ => noteExt g b
          | [] => b) }) s
        x.redo.foldl (fun s f =>
          let (ok, s) := frameWrite k f.buf s
          match ok, x.ring with
          | false, some r => raise 0x40 8 k (bump (RM_STR_NOSPACE k) (ringRelease r (.stream k) f.buf s))
          | _, _ => s) s

/-- SPLIT_REWRITE. -/
def execSplitRewrite (k : Nat) (s : State) : Res :=
  guardOk (decide (k < 8)) (if s.domOn dRM then splitRewrite k s else s)

end Sys2Proof.Machine
end

