-- ==== Sys2Proof/Machine/OepBase.lean ====
section
/-! DEFINITION. Host commands of the offload endpoint: completions (R313), range checks (R319), locks, atomic writes
(R323 to R325). -/

namespace Sys2Proof.Machine

/-- Status values: code and type × 256 (R313 to R322). -/
def stOk : Nat := 0
def stOpcode : Nat := 0x001
def stField : Nat := 0x002
def stAbortReq : Nat := 0x007
def stSqDel : Nat := 0x008
def stNamespace : Nat := 0x00B
def stProtected : Nat := 0x020
def stRange : Nat := 0x080
def stNotReady : Nat := 0x082
def stAbortLimit : Nat := 0x103
def stLogPage : Nat := 0x109
def stQueueDel : Nat := 0x10C
def stWriteFault : Nat := 0x280
def stReadErr : Nat := 0x281
def stDenied : Nat := 0x286

/-- Signals an MSI-X vector: a masked one leaves its pending bit (R311). -/
def oepSignal (vec : Nat) (s : State) : State :=
  match look s.oep.msix vec with
  | some (_, _, true) => { s with oep := { s.oep with pba := if s.oep.pba.contains vec then s.oep.pba else s.oep.pba ++ [vec] } }
  | _ => { s with oep := { s.oep with irqs := s.oep.irqs ++ [vec] } }

/-- The key of a feature value under a selector (R316): the vector of 0x09, the threshold's sense of 0x04. -/
def featKey (fid sel : Nat) : Nat := fid + 256 * sel

/-- Aggregation threshold, 0's based, and time in ps of Interrupt Coalescing (R316; NVMe 2.0, PRESUMED, log 55). -/
def State.coalesce (s : State) : Nat × Nat :=
  let f := lookD s.oep.feats 0 (featKey 8 0)
  (f % 256, f / 256 % 256 * (100 * Config.us))

/-- A completion asks for its queue's vector: at once for the admin queue, without a time, or where coalescing is off for the
vector; else with the entry that reaches the threshold, or when the time is over (R316). -/
def cqSignal (vec : Nat) (s : State) : State :=
  let (thr, time) := s.coalesce
  let (n, t) := lookD s.oep.agg (0, s.now) vec
  if vec = 0 || time = 0 || bitOf (lookD s.oep.feats 0 (featKey 9 vec)) 16 || thr ≤ n then
    oepSignal vec { s with oep := { s.oep with agg := del s.oep.agg vec } }
  else { s with oep := { s.oep with agg := put s.oep.agg vec (n + 1, t) } }

/-- Forgets what the step before wrote to the host, and signals the vectors whose aggregation time is over (R316). -/
def hostClear (s : State) : State :=
  let s := { s with oep := { s.oep with host := [], posted := [], irqs := [] } }
  let due := s.oep.agg.filter (fun e => decide (e.2.2 + s.coalesce.2 ≤ s.now))
  due.foldl (fun s e => oepSignal e.1 { s with oep := { s.oep with agg := del s.oep.agg e.1 } }) s

/-- Puts one completion into a completion queue with room (R313). -/
def cqPut (c : Nat) (x : CqSt) (q cid status dw0 : Nat) (s : State) : State :=
  let sqhd := match look s.oep.sqs q with
    | some y => y.head
    | none => 0
  let e := leBytes 4 dw0 ++ leBytes 4 0 ++ leBytes 2 sqhd ++ leBytes 2 q ++
    leBytes 4 (cid + (if x.phase then 2 ^ 16 else 0) + status * 2 ^ 17)
  let wrap := x.tail + 1 == x.size
  (if x.ien then cqSignal x.vec else id) { s with oep := { s.oep with
      posted := s.oep.posted ++ [(c, x.tail, e)]
      cqs := put s.oep.cqs c { x with tail := if wrap then 0 else x.tail + 1, phase := if wrap then !x.phase else x.phase } } }

/-- LBA and namespace of a command, for the error log (R317). -/
def State.errWhere (s : State) (q cid : Nat) : Nat × Nat :=
  match s.oep.cmds.find? (fun c => c.q == q && c.e.cid == cid) with
  | some c => (if q = 0 then 0 else c.e.cdw10.toNat + c.e.cdw11.toNat * 2 ^ 32, c.e.nsid)
  | none => (0, 0)

/-- Posts a completion; on a full queue it waits for the host. After a link loss nothing is posted (R331). -/
def post (q cid status dw0 : Nat) (s : State) : State :=
  let s := if status = 0 then s else
    { s with oep := { s.oep with errNo := s.oep.errNo + 1, errs := ((s.oep.errNo + 1, q, cid, status, s.errWhere q cid) :: s.oep.errs).take 16 } }
  if s.oep.drain == some 3 then s
  else match look s.oep.sqs q with
    | none => s
    | some y => match look s.oep.cqs y.cq with
      | none => s
      | some x =>
        if (x.tail + 1) % x.size = x.head || !x.wait.isEmpty then
          { s with oep := { s.oep with cqs := put s.oep.cqs y.cq { x with wait := x.wait ++ [(q, cid, status, dw0)] } } }
        else cqPut y.cq x q cid status dw0 s

/-- Drains the completions that waited for room. -/
def cqDrain (c : Nat) : Nat → State → State
  | 0, s => s
  | fuel + 1, s => match look s.oep.cqs c with
    | none => s
    | some x => match x.wait with
      | [] => s
      | (q, cid, st, dw0) :: t =>
        if (x.tail + 1) % x.size = x.head then s else cqDrain c fuel (cqPut c { x with wait := t } q cid st dw0 s)

/-- Changes a host command. -/
def modCmd (id : Nat) (f : HostCmd → HostCmd) (s : State) : State :=
  { s with oep := { s.oep with cmds := s.oep.cmds.map (fun c => if c.id == id then f c else c) } }

/-- A host command. -/
def State.hostCmd (s : State) (id : Nat) : Option HostCmd := s.oep.cmds.find? (fun c => c.id == id)

/-- Data cut at the pages that a command's PRP entries name (R313; NVMe 2.0, PRESUMED, log 55): the first to its page's end,
the second entry's page, or those of the list it points to, which the command carries as its data. -/
def prpParts (e : Sqe) (bs : List Byte) : List (Nat × List Byte) :=
  let a := e.prp1.toNat
  let n := 4096 - a % 4096
  let rest := bs.drop n
  if bs.length ≤ n then [(a, bs)]
  else if rest.length ≤ 4096 then [(a, bs.take n), (e.prp2.toNat, rest)]
  else (a, bs.take n) :: (List.range (ceilDiv rest.length 4096)).map (fun i =>
    (leAt e.data (8 * i) 8, (rest.drop (4096 * i)).take 4096))

/-- Writes data to host memory at the command's pointers. -/
def toHost (c : HostCmd) (bs : List Byte) (s : State) : State :=
  { s with oep := { s.oep with host := s.oep.host ++ prpParts c.e bs } }

/-- A host command is over: its lock is released exactly once (R329). -/
def hostDrop (id : Nat) (s : State) : State :=
  lockDrop (.host id) { s with oep := { s.oep with cmds := s.oep.cmds.filter (fun c => c.id != id) } }

/-- A queue being deleted goes, and its deletion completes, once all its commands are fetched and over (R314). -/
def sqReap (s : State) : State :=
  s.oep.sqs.foldl (fun s e => match e.2.dying with
    | some d =>
      if e.2.head == e.2.tail && !s.oep.cmds.any (fun c => c.q == e.1) then
        let s := { s with oep := { s.oep with sqs := del s.oep.sqs e.1 } }
        match s.hostCmd d with
        | some c => hostDrop d (post c.q c.e.cid stOk 0 s)
        | none => s
      else s
    | none => s) s

/-- A host command is over. -/
def hostGone (id : Nat) (s : State) : State := sqReap (hostDrop id s)

/-- A host command completes with a status and is over. -/
def hostEnd (c : HostCmd) (status dw0 : Nat) (s : State) : State :=
  hostGone c.id (if c.owed then post c.q c.e.cid status dw0 s else s)

/-! ### Range checks (R318, R319) -/

/-- First block and blocks of a Read, Write or Write Zeroes. -/
def sqeRange (e : Sqe) : Nat × Nat := (e.cdw10.toNat + e.cdw11.toNat * 2 ^ 32, e.cdw12.toNat % 65536 + 1)

/-- The extent records of a clip, in chain order: index and bytes (R294). -/
def extChain (area : List Host.Cell) (clip : Nat) : Nat → Nat → List (Nat × List Byte)
  | 0, _ => []
  | fuel + 1, i =>
    if 65536 ≤ i then []
    else
      let e := cellBytes area (extOff i) 32
      if leAt e 0 4 != clip || leAt e 28 4 != crc32 (e.take 28) then []
      else (i, e) :: extChain area clip fuel (leAt e 4 4)

/-- The blocks that clips with lost positions hold: lost positions, first VBN, blocks used (R293, R306). -/
def VolSt.lostClips (x : VolSt) : List (Nat × Nat × Nat) :=
  (x.area.filter (fun e => decide (4096 ≤ e.1 ∧ e.1 < 257 * 4096) && e.1 % 256 == 1 && decide (16 ≤ e.2.toNat))).flatMap (fun e =>
    let c := (e.1 - 4096) / 256
    (extChain x.area c 65536 (leAt (cellBytes x.area (clipOff c + 0x10) 4) 0 4)).map (fun r =>
      (e.2.toNat / 16, leAt r.2 8 8, leAt r.2 20 4)))

/-- A VBN's position has no live holder; a read also fails on what a spare has not been written since it took the position, and
on what a clip holds at a position lost to it (R305, R306). -/
def VolSt.lostAt (x : VolSt) (read : Bool) (clips : List (Nat × Nat × Nat)) (vbn : Nat) (s : State) : Bool :=
  let p := (x.locate vbn).1
  let within (f n : Nat) : Bool := decide (f ≤ vbn) && decide (vbn < f + n)
  s.holders x p == [] ||
    (read && ((match look x.spared p with
      | some l => !l.any (fun r => within r.1 r.2)
      | none => false) || clips.any (fun r => bitOf r.1 p && within r.2.1 r.2.2)))

/-- Two ranges overlap. -/
def meets (a n b m : Nat) : Bool := decide (a < b + m) && decide (b < a + n)

/-- The status of the first failing check on a range, if one fails (R319). A volume that failed while it was opened presents no
blocks. -/
def rangeCheck (v first n : Nat) (read : Bool) (s : State) : Option Nat :=
  match look s.rm.vols v with
  | none => some stRange
  | some x =>
    let aj := s.pair (OEP_NS_AJ_LO v) (OEP_NS_AJ_HI v)
    let granted := (List.range 8).any (fun k => s.f (RM_STR_STATUS_state k) != 0 && (s.str k).vol == v &&
      (s.str k).grants.any (fun g => meets first n g.first (g.stop - g.first)))
    let clips := if read then x.lostClips else []
    let lost := x.slots.any (·.role == 3) || !x.spared.isEmpty || !clips.isEmpty || (List.range x.n).any (fun p => s.holders x p == [])
    if x.total < first + n then some stRange
    else if !read && (!s.b (OEP_NS_CFG_wr_en v) || s.f (RM_VOL_STATUS_state v) == 4) then some stProtected
    else if !read && (meets first n aj 272 || granted) then some stDenied
    else if lost && (List.range n).any (fun i => x.lostAt read clips (first + i) s) then
      some (if read then stReadErr else stWriteFault)
    else if s.b (OEP_NS_STATUS_replaying v) then some stNotReady
    else none

/-! ### Progress (R320, R325, R328) -/

/-- Bytes of a VBN range as the members hold them (R320). -/
def volData (v first n : Nat) (s : State) : List Byte :=
  match look s.rm.vols v with
  | none => []
  | some x => (x.pieces 256 n first n 0).flatMap (fun (p, b, k, _) =>
      match s.holders x p with
      | m :: _ => cellBytes (lookD s.media [] m) (b * 4096) (k * 4096)
      | [] => List.replicate (k * 4096) 0)

/-- A Write that lies in one aligned unit of 16 blocks (R323). -/
def HostCmd.atomic (c : HostCmd) : Bool :=
  c.e.opcode == 1 && decide (c.blocks ≤ 16) && c.first / 16 == (c.first + c.blocks - 1) / 16

/-- Header of a journal slot (R324). -/
def slotHeader (vol seq first n crc : Nat) : List Byte :=
  withCrc (leBytes 4 0x4A4D5441 ++ leBytes 4 0 ++ leBytes 8 vol ++ leBytes 8 seq ++ leBytes 8 first ++ leBytes 4 n ++
    leBytes 4 crc ++ leBytes (0x3C - 0x28) 0)

/-- VBN of a journal slot. -/
def State.slotVbn (s : State) (v i : Nat) : Nat := s.pair (OEP_NS_AJ_LO v) (OEP_NS_AJ_HI v) + 17 * i

/-- A piece of a range has no live holder. -/
def State.rangeLost (s : State) (v first n : Nat) : Bool := match look s.rm.vols v with
  | none => true
  | some x => (x.pieces (s.volLimit x) n first n 0).any (fun e => s.holders x e.1 == [])

/-- Member commands of a non-atomic write, a read or a deallocate over one range; the answer counts them. -/
def rangeIssue (id v : Nat) (op : Nat) (first n : Nat) (data : List Byte) (s : State) : Nat × State :=
  match look s.rm.vols v with
  | none => (0, s)
  | some x =>
    if op = 2 then
      (x.pieces (s.volLimit x) n first n 0).foldl (fun (z : Nat × State) (p, b, k, _) =>
        match z.2.holders x p with
        | m :: _ => (z.1 + 1, issue m (.read b k) (.host id) z.2)
        | [] => z) (0, s)
    else if op = 9 then
      (x.pieces (s.volLimit x) n first n 0).foldl (fun (z : Nat × State) (p, b, k, _) =>
        (s.holders x p).foldl (fun (z : Nat × State) m => (z.1 + 1, issue m (.dealloc b k) (.host id) z.2)) z) (0, s)
    else volWrite v first n (cellsOf 0 data) (.host id) s

/-- The ranges a command covers (R314: Deallocate has up to 256). -/
def HostCmd.ranges (c : HostCmd) : List (Nat × Nat) :=
  if c.e.opcode = 9 then
    (List.range (c.e.cdw10.toNat % 256 + 1)).map (fun i => (leAt c.e.data (16 * i + 8) 8, leAt c.e.data (16 * i + 4) 4))
  else [(c.first, c.blocks)]

/-- The member commands of the next step of an atomic write: `n` of them left, or at once none; a position that has no holder
loses the write (R320). -/
def stageSet (id : Nat) (st : HostStage) (n : Nat) (lost : Bool) (s : State) : State :=
  modCmd id (fun c => { c with stage := st, left := n, failed := c.failed || lost }) s

/-- Step 4 of R325, or for a write that has lost a position, none. -/
def atomicHome (id : Nat) (s : State) : State :=
  match s.hostCmd id with
  | none => s
  | some c =>
    if c.failed then stageSet id .home 0 false s
    else
      let lost := s.rangeLost c.vol c.first c.blocks
      let (n, s) := volWrite c.vol c.first c.blocks (cellsOf 0 c.data) (.host id) s
      stageSet id .home n lost s

/-- Steps 5 and 6 of R325. -/
def atomicZero (id : Nat) (s : State) : State :=
  match s.hostCmd id with
  | none => s
  | some c =>
    let s := if c.owed then post c.q c.e.cid (if c.failed then stWriteFault else stOk) 0 s else s
    let s := if c.failed then s else bump OEP_ATOMIC s
    let (n, s) := volWrite c.vol (s.slotVbn c.vol c.slot) 1 [] (.host id) s
    modCmd id (fun c => { c with stage := .zero, left := n, owed := false }) s

/-- The end of step 6: the slot is free and the lock released. -/
def atomicFree (id : Nat) (s : State) : State :=
  match s.hostCmd id with
  | none => s
  | some c => { hostGone id s with oep := { (hostGone id s).oep with
      slots := (hostGone id s).oep.slots.filter (· != (c.vol, c.slot)) } }

/-- Takes an atomic write as far as it has no member command left: journal, home, zeros, end. -/
def atomicRun (id : Nat) : Nat → State → State
  | 0, s => s
  | fuel + 1, s => match s.hostCmd id with
    | none => s
    | some c =>
      if c.left != 0 then s
      else match c.stage with
        | .journal => atomicRun id fuel (atomicHome id s)
        | .home => atomicRun id fuel (atomicZero id s)
        | .zero => atomicFree id s
        | _ => s

/-- Starts a waiting atomic write in the lowest free slot (R325 steps 2 and 3). -/
def slotTake (c : HostCmd) (s : State) : State :=
  match (List.range 16).find? (fun i => !s.oep.slots.contains (c.vol, i)) with
  | none => modCmd c.id (fun c => { c with stage := .slot }) s
  | some i =>
    let seq := lookD s.oep.seqs 0 c.vol + 1
    let volId := match look s.rm.vols c.vol with
      | some x => x.id
      | none => 0
    let s := { s with oep := { s.oep with slots := s.oep.slots ++ [(c.vol, i)], seqs := put s.oep.seqs c.vol seq } }
    let hd := slotHeader volId seq c.first c.blocks (crc32 c.data)
    let lost := s.rangeLost c.vol (s.slotVbn c.vol i) (c.blocks + 1) || s.rangeLost c.vol c.first c.blocks
    let (n, s) := if lost then (0, s)
      else volWrite c.vol (s.slotVbn c.vol i) (c.blocks + 1) (cellsOf 0 (slice hd 0 0 4096 ++ c.data)) (.host c.id) s
    atomicRun c.id 4 (stageSet c.id .journal n lost (modCmd c.id (fun c => { c with slot := i }) s))

/-- The next writes that wait for a slot of a namespace take those set free. -/
def slotNext (v : Nat) (s : State) : State :=
  (List.range 16).foldl (fun s _ => match s.oep.cmds.find? (fun c => c.stage == .slot && c.vol == v) with
    | some c => if (List.range 16).all (fun i => s.oep.slots.contains (v, i)) then s else slotTake c s
    | none => s) s

/-- The end of a command that holds no slot (R320). -/
def hostFinish (c : HostCmd) (s : State) : State :=
  let s := if c.e.opcode = 2 && !c.failed then toHost c (volData c.vol c.first c.blocks s) s else s
  hostEnd c (if !c.failed then stOk else if c.e.opcode = 2 then stReadErr else stWriteFault) 0 s

/-- A command goes on once its lock is granted (R325, R328); a position lost while it waited fails it (R320). -/
def hostGo (c : HostCmd) (s : State) : State :=
  if c.atomic then slotTake c s
  else
    let lost := c.ranges.any (fun r => s.rangeLost c.vol r.1 r.2)
    let (n, s) := c.ranges.foldl (fun (z : Nat × State) r =>
      let (k, s) := rangeIssue c.id c.vol c.e.opcode r.1 r.2 c.data z.2
      (z.1 + k, s)) (0, s)
    let c := { c with stage := .run, left := n, failed := lost }
    let s := modCmd c.id (fun _ => c) s
    if n = 0 then hostFinish c s else s

/-- The last member command of a host command's step is complete (R320, R325). -/
def hostStage (c : HostCmd) (s : State) : State := match c.stage with
  | .journal | .home | .zero => slotNext c.vol (atomicRun c.id 4 s)
  | _ => hostFinish c s

/-- One member command of a host command is complete, or lost with its position. -/
def hostStep (id : Nat) (lost : Bool) (s : State) : State :=
  match s.hostCmd id with
  | none => s
  | some c =>
    let c := { c with left := c.left - 1, failed := c.failed || lost }
    let s := modCmd id (fun _ => c) s
    if c.left = 0 then hostStage c s else s

end Sys2Proof.Machine
end

