-- ==== Sys2Proof/Machine/RmOpen.lean ====
section
/-! DEFINITION. Opening a record volume with recovery after a power loss (R302, R308): superblocks, journal, mirrors, index
blocks, each step after the Reads it needs (R288). -/

namespace Sys2Proof.Machine

/-- The member of slot `i` as the register names it. -/
def State.cfgMember (s : State) (v i : Nat) : Nat := s.f (RM_VOL_CFG_pos v) / 4 ^ i % 4

/-- Data positions of a layout over `count` members, if they match (R291). -/
def layoutN (layout count : Nat) : Option Nat :=
  match layout with
  | 0 => if 1 ≤ count && decide (count ≤ 4) then some count else none
  | 1 => if 2 ≤ count && decide (count ≤ 4) then some (count - 1) else none
  | 2 => if count = 4 then some 2 else none
  | _ => none

/-- Blocks of a member. -/
def State.mbrBlocks (s : State) (m : Nat) : Nat := s.pair (RM_MBR_BLOCKS_LO m) (RM_MBR_BLOCKS_HI m)

/-- A volume takes its members: ACTIVE holders, SPARE spares (R307). -/
def takeMembers (x : VolSt) (s : State) : State :=
  x.slots.foldl (fun s l => if l.role = 1 then mbrState l.m 2 s else if l.role = 2 then mbrState l.m 3 s else s) s

/-! ### Open (R308) -/

/-- A good superblock of a member at a block, with its bytes; its CRC is examined. -/
def readSb (m block : Nat) (s : State) : Option (List Byte) × State :=
  let b := cellBytes (lookD s.media [] m) (block * 4096) 512
  let magic := leAt b 0 4 == 0x4C565242
  let (bad, s) := examDetect 0x4004 (magic && leAt b 0x1FC 4 != crc32 (b.take 0x1FC)) m 0 s
  (if magic && !bad then some b else none, s)

/-- The copy of a member with a good CRC and the higher sequence (step 1). -/
def bestSb (m : Nat) (s : State) : Option (List Byte) × State :=
  let (a, s) := readSb m 0 s
  let (b, s) := readSb m (s.mbrBlocks m - 1) s
  (match a, b with
    | some x, some y => if leAt x 0x30 8 < leAt y 0x30 8 then some y else some x
    | some x, none => some x
    | none, y => y, s)

/-- The volume that superblock bytes describe (step 2). -/
def volFromSb (v : Nat) (b : List Byte) (s : State) : VolSt :=
  let w := leAt b 4 4
  let count := bitsOf w 20 18
  let layout := bitsOf w 17 16
  let slot (i : Nat) : VolSlot :=
    let o := 0x40 + 32 * i
    ⟨s.cfgMember v i, leAt b (o + 8) 1, leAt b (o + 9) 1, leAt b (o + 10) 2, BitVec.ofNat 64 (leAt b o 8)⟩
  let total := leAt b 0x28 8
  { layout := layout, su := leAt b 0x10 1 / 16, slots := (List.range count).map slot, n := (layoutN layout count).getD 1
    total := total, id := leAt b 8 8, sbSeq := leAt b 0x30 8, ckpt := leAt b 0x38 8, jseq := leAt b 0x38 8 }

/-- One journal record applied in place: what it changes of the metadata area (step 3). -/
def jrnApply (area : List Host.Cell) (r : List Byte) : List (Nat × List Byte) :=
  let clip := leAt r 12 4 % 4096
  let entry := cellBytes area (clipOff clip) 256
  let state (e : List Byte) : Nat := leAt e 0 4 % 16
  match leAt r 8 4 with
  | 1 =>
    if state entry = 1 then []
    else [(clipOff clip, clipEntry { id := clip, prod := leAt r 20 4 } (leAt r 16 4) 1)]
  | 2 =>
    let i := leAt r 16 8 % 65536
    let e := cellBytes area (extOff i) 32
    if leAt e 0 4 = clip && leAt e 8 8 = leAt r 24 8 && leAt e 28 4 = crc32 (e.take 28) then []
    else [(extOff i, extRecord clip 0xFFFFFFFF (leAt r 24 8) 0 0)]
  | 3 =>
    let b := leBytes 4 (2 + leAt r 28 4 % 65536) ++ (entry.drop 4).take 0x14 ++ leBytes 4 (leAt r 16 4) ++
      (entry.drop 0x1C).take 0x1C ++ leBytes 8 (leAt r 20 8) ++ (entry.drop 0x40).take (0xFC - 0x40)
    [(clipOff clip, withCrc b)]
  | 4 =>
    let a := leAt r 16 4 % 4096
    let b := leAt r 20 4 % 4096
    let ea := cellBytes area (clipOff a) 256
    let eb := cellBytes area (clipOff b) 256
    let xa := leBytes 4 (leAt ea 0 4 ||| 0x20) ++ leBytes 4 b ++ (ea.drop 8).take (0xFC - 8)
    let xb := if state eb = 0 then (clipEntry { id := b, flags := 0x10, link := a } 0 1).take 0xFC
      else leBytes 4 (leAt eb 0 4 ||| 0x10) ++ leBytes 4 a ++ (eb.drop 8).take (0xFC - 8)
    [(clipOff a, withCrc xa), (clipOff b, withCrc xb)]
  | _ => []

/-- The journal from the checkpoint on (step 3): records applied until one fails. -/
def jrnReplay (v : Nat) : Nat → List Host.Cell → Nat → List (Nat × List Byte) → State →
    List Host.Cell × Nat × List (Nat × List Byte) × State
  | 0, area, seq, out, s => (area, seq, out, s)
  | fuel + 1, area, seq, out, s =>
    let r := cellBytes area (jrnOff (seq + 1)) 64
    let mine := leAt r 0 8 == seq + 1
    let (bad, s) := examDetect 0x4005 (mine && leAt r 60 4 != crc32 (r.take 60)) v 0 s
    if !mine || bad then (area, seq, out, s)
    else
      let ch := jrnApply area r
      jrnReplay v fuel (ch.foldl (fun a e => memPuts a e.1 e.2) area) (seq + 1) (out ++ ch) s

/-- The valid mirror header of stream `k`: the one of higher sequence whose CRC passes (R302, step 4). -/
def mirrorHeader (k : Nat) (s : State) : Option (List Byte) × State :=
  let one (o : Nat) (s : State) : Option (List Byte) × State :=
    let b := s.peeks (s.mirrorAt k + o) 64
    let magic := leAt b 0 4 == 0x5252494D
    let (bad, s) := examDetect 0x4006 (magic && leAt b 0x3C 4 != crc32 (b.take 60)) k 0 s
    (if magic && !bad then some b else none, s)
  let (a, s) := one 0 s
  let (b, s) := one 0x40 s
  (match a, b with
    | some x, some y => if leAt x 53 7 < leAt y 53 7 then some y else some x
    | some x, none => some x
    | none, y => y, s)

/-- A change of a member's role from the journal (R296, R305): a spare that becomes a holder takes the position last lost. -/
def setRole (x : VolSt) (i role gen : Nat) : VolSt :=
  let gap := (x.slots.find? (fun l => l.role == 3 && !x.slots.any (fun y => y.role == 1 && y.pos == l.pos))).map (·.pos)
  { x with slots := x.slots.modify i (fun l => { l with
      role := role, gen := gen, pos := if role = 1 && l.role = 2 then gap.getD l.pos else l.pos }) }

/-- The MEMBER_STATE records after the checkpoint, `n` of them and others, applied to the member table (R308 step 3). -/
def jrnMembers (area : List Host.Cell) (n : Nat) (x : VolSt) : VolSt :=
  (List.range n).foldl (fun y i =>
    let r := cellBytes area (jrnOff (x.ckpt + 1 + i)) 64
    if leAt r 8 4 = 5 then setRole y (leAt r 16 4) (leAt r 20 4) (leAt r 24 4) else y) x

/-- How many records a copy of the journal holds from the checkpoint on. -/
def jrnLen (area : List Host.Cell) : Nat → Nat → Nat
  | 0, _ => 0
  | fuel + 1, seq =>
    let r := cellBytes area (jrnOff (seq + 1)) 64
    if leAt r 0 8 == seq + 1 && leAt r 60 4 == crc32 (r.take 60) then jrnLen area fuel (seq + 1) + 1 else 0

/-- A clip-table entry closed at `frames` with its last index block, more flags, more extents, and the index entries of its first
and last frame (R293). The SOF time of the first frame stands in no index entry and stays as it was (DESIGN CHOICE 30). -/
def closeEntry (e : List Byte) (frames lastIdx flags more : Nat) (first last : List Byte) : List Byte :=
  withCrc (leBytes 4 (leAt e 0 4 / 16 * 16 + 2 ||| flags) ++ (e.drop 4).take 0x10 ++ leBytes 4 (leAt e 0x14 4 + more) ++
    leBytes 4 frames ++ leBytes 4 (leAt first 12 4) ++ leBytes 4 (leAt last 12 4) ++ leBytes 4 (leAt first 16 4) ++
    (e.drop 0x28).take 0x10 ++ leBytes 8 lastIdx ++ (e.drop 0x40).take (0xFC - 0x40))

/-- What recovery does to the volume: index blocks, clip entries and extent records, journal records, and whether any clip was
closed. -/
structure Recovery where
  area  : List Host.Cell
  datas : List MetaOp := []
  puts  : List (Nat × List Byte) := []
  recs  : List (Nat × Nat × List Byte) := []

/-- Bytes of the metadata area that recovery writes. -/
def Recovery.put (z : Recovery) (off : Nat) (bs : List Byte) : Recovery :=
  { z with area := memPuts z.area off bs, puts := z.puts ++ [(off, bs)] }

/-- A clip closed by recovery (steps 4 and 5). -/
def Recovery.close (z : Recovery) (clip frames lastIdx flags more : Nat) (first last : List Byte) : Recovery :=
  let z := z.put (clipOff clip) (closeEntry (cellBytes z.area (clipOff clip) 256) frames lastIdx flags more first last)
  { z with recs := z.recs ++ [(3, clip, leBytes 4 frames ++ leBytes 8 lastIdx ++ leBytes 4 flags)] }

/-- The extents of a clip as the area has them. -/
def Recovery.chain (z : Recovery) (clip : Nat) : List (Nat × List Byte) :=
  extChain z.area clip 65536 (leAt (cellBytes z.area (clipOff clip + 0x10) 4) 0 4)

/-- The blocks of a clip's extents, in chain order. -/
def chainBlocks (area : List Host.Cell) (clip : Nat) (fuel i : Nat) : List Nat :=
  (extChain area clip fuel i).flatMap (fun e => (List.range (leAt e.2 16 4)).map (· + leAt e.2 8 8))

/-- Walks a clip's blocks for its index blocks in order: the last one's VBN, frames so far, first and last entry (step 5). -/
def walkIndex (v clip : Nat) (blocks : List Nat) (s : State) : (Nat × Option Nat × Nat × List Byte × List Byte) × State :=
  blocks.foldl (fun (x : (Nat × Option Nat × Nat × List Byte × List Byte) × State) vbn =>
    let ((no, at_, frames, first, last), s) := x
    let b := volData v vbn 1 s
    let t := b.drop 4064
    let n := leAt t 16 4
    let mine := leAt t 0 4 == clip && leAt t 4 4 == no && leAt t 8 8 == at_.getD (2 ^ 64 - 1) && decide (n ≤ 127)
    let (bad, s) := if mine then examDetect 0x4007 (leAt b 4092 4 != crc32 (b.take 4092)) v vbn s else (true, s)
    if bad then ((no, at_, frames, first, last), s)
    else ((no + 1, some vbn, frames + n, if no = 0 then b.take 32 else first, slice b 0 (32 * (n - 1)) 32), s))
    ((0, none, 0, [], []), s)

/-- The block that the partial index block of a mirror takes (step 4): at the cursor of the head grant, else of the queued one,
with the grant's extent index and end; none when both are full: it is then not written (DESIGN CHOICE 30). -/
def mirrorPlace (h : List Byte) : Option (Nat × Nat × Nat) :=
  if leAt h 28 5 < leAt h 33 5 then some (leAt h 28 5, leAt h 18 2, leAt h 33 5)
  else if leAt h 38 5 < leAt h 43 5 then some (leAt h 38 5, leAt h 20 2, leAt h 43 5)
  else none

/-- The extent records of a clip that a mirror closes: the head grant's as used up to its cursor, linked to the queued grant's
where the index block lies there (R294, step 4). The answer counts the records added. -/
def mirrorExts (clip : Nat) (h : List Byte) (z : Recovery) : Nat × Recovery :=
  let place := mirrorPlace h
  let moved := match place with
    | some (_, e, _) => e != leAt h 18 2
    | none => false
  let z := match (z.chain clip).find? (fun e => e.1 == leAt h 18 2) with
    | some (i, r) =>
      let f := leAt r 8 8
      let used := leAt h 28 5 - f + if place.isSome && !moved then 1 else 0
      z.put (extOff i) (extRecord clip (if moved then leAt h 20 2 else leAt r 4 4) f (leAt h 33 5 - f) used)
    | none => z
  match place, moved with
  | some (at_, e, stop), true =>
    (1, z.put (extOff e) (extRecord clip 0xFFFFFFFF at_ (stop - at_) 1))
  | _, _ => (0, z)

/-- Step 4 for one stream. -/
def recoverMirror (v k : Nat) (id : Nat) (x : Recovery × State) : Recovery × State :=
  let (z, s) := x
  match mirrorHeader k s with
  | (none, s) => (z, s)
  | (some h, s) =>
    if leAt h 4 1 != 1 || leAt h 8 8 != id then (z, s)
    else
      let n := leAt h 5 1
      let clip := leAt h 6 2
      let frames := leAt h 24 4
      let prev := if leAt h 48 5 = 2 ^ 40 - 1 then 2 ^ 64 - 1 else leAt h 48 5
      let part := (List.range n).map (fun i => s.peeks (s.mirrorAt k + 0x80 + 32 * i) 32)
      let (w, s) := if frames ≤ n then ((0, none, 0, part.head?.getD [], []), s)
        else walkIndex v clip ((z.chain clip).flatMap (fun e => (List.range (leAt e.2 16 4)).map (· + leAt e.2 8 8))) s
      let last := part.getLast?.getD w.2.2.2.2
      let (more, z) := mirrorExts clip h z
      match mirrorPlace h with
      | some (at_, _, _) =>
        let z := { z with datas := z.datas ++ [MetaOp.data at_ (indexBlock clip ((frames - n) / 127) prev part)] }
        (z.close clip frames at_ 0x80 more w.2.2.2.1 last, s)
      | none => (z.close clip frames prev 0x80 more w.2.2.2.1 last, s)

/-- The extent of a clip closed at its last index block: used up to that block (step 5). -/
def partialExts (clip : Nat) (at_ : Option Nat) (z : Recovery) : Recovery := match at_ with
  | none => z
  | some vbn => match (z.chain clip).find? (fun e => decide (leAt e.2 8 8 ≤ vbn ∧ vbn < leAt e.2 8 8 + leAt e.2 16 4)) with
    | some (i, r) => z.put (extOff i) (extRecord clip (leAt r 4 4) (leAt r 8 8) (leAt r 16 4) (vbn + 1 - leAt r 8 8))
    | none => z

/-- Step 5 for one clip. -/
def recoverClip (v clip : Nat) (x : Recovery × State) : Recovery × State :=
  let (z, s) := x
  let e := cellBytes z.area (clipOff clip) 256
  if leAt e 0 4 % 16 != 1 || leAt e 0xFC 4 != crc32 (e.take 0xFC) then (z, s)
  else
    let ((_, at_, frames, first, last), s) := walkIndex v clip (chainBlocks z.area clip 65536 (leAt e 0x10 4)) s
    ((partialExts clip at_ z).close clip frames (at_.getD (2 ^ 64 - 1)) 0x180 0 first last, s)

/-- The members' superblocks (step 1): each good one with its slot, or a failure. -/
def readMembers (v : Nat) (s : State) : Option (List (Nat × List Byte)) × State :=
  (List.range (s.f (RM_VOL_CFG_count v))).foldl (fun (x : Option (List (Nat × List Byte)) × State) i =>
    let (r, s) := x
    let m := s.cfgMember v i
    if s.f (RM_MBR_STATUS_state m) != 1 then (r, s)
    else
      let (b, s) := bestSb m s
      match r, b with
      | some l, some b => (some (l ++ [(i, b)]), s)
      | _, _ => (none, s)) (some [], s)

/-- Opening stops with VOL_FAILED (R308 step 1). -/
def openFailed (v : Nat) (s : State) : State := raise 0x40 6 v (setF (RM_VOL_STATUS_state v) 4 s)

/-- Reads of blocks of a member, cut at its command limit. -/
def State.readsOf (s : State) (m b n : Nat) : List (Nat × Nat × Nat) :=
  let lim := floor1 (s.cmdBlocks m)
  (List.range (ceilDiv n lim)).map (fun i => (m, b + i * lim, min lim (n - i * lim)))

/-- Issues the reads of a step of opening (R288). -/
def openReads (v : Nat) (o : VolOpening) (l : List (Nat × Nat × Nat)) (s : State) : State :=
  taskStart v none [[.reads l]] (.opening v) { s with rm := { s.rm with opens := put s.rm.opens v o } }

/-- A write of open (R308): step 1 begins. -/
def volOpen (v : Nat) (s : State) : State :=
  if s.f (RM_VOL_STATUS_state v) != 0 || s.f (RM_VOL_CFG_layout v) == 3 then flag RM_STATUS_bad_write s
  else
    let ms := ((List.range (s.f (RM_VOL_CFG_count v))).map (s.cfgMember v)).filter (fun m => s.f (RM_MBR_STATUS_state m) == 1)
    openReads v { step := 1 } (ms.flatMap (fun m => [(m, 0, 1), (m, s.mbrBlocks m - 1, 1)])) (setF (RM_VOL_STATUS_state v) 1 s)

/-- Steps 1 and 2 with the superblocks read: the volume is taken, and its metadata read from every member. -/
def openTake (v : Nat) (s : State) : State :=
  match readMembers v s with
  | (none, s) => openFailed v s
  | (some sbs, s) =>
    let best := sbs.foldl (fun (a : List Byte) e => if leAt a 0x30 8 < leAt e.2 0x30 8 then e.2 else a) []
    let x := volFromSb v best s
    let known (i : Nat) : Bool := sbs.any (fun e => e.1 == i)
    let agree := sbs.all (fun e => leAt e.2 8 8 == x.id)
    let present := x.slots.mapIdx (fun i l => l.role == 3 || l.role == 0 || known i)
    if sbs.isEmpty || !agree || !present.all id then openFailed v s
    else
      let s := setPair (RM_VOL_ID_LO v) (RM_VOL_ID_HI v) x.id (takeMembers x s)
      let s := { s with rm := { s.rm with vols := put s.rm.vols v x } }
      openReads v { step := 3 } ((s.metaMembers x).flatMap (fun l => s.readsOf l.m 1 832)) s

/-- The metadata area as read: the copy whose journal goes on longest, of equal ones the first member's (DEDUCED 30: a member
that died has the records up to its death alone). -/
def State.openArea (s : State) (x : VolSt) : List Host.Cell :=
  let areas := (s.metaMembers x).map (fun l => (lookD s.media [] l.m).filter (fun e => decide (4096 ≤ e.1 ∧ e.1 < areaBytes)))
  (areas.foldl (fun (b : Nat × List Host.Cell) a =>
    let n := jrnLen a 4096 x.ckpt + 1
    if b.1 < n then (n, a) else b) (0, [])).2

/-- The members as the journal leaves them (R308 step 3): a lost one is not used, and a spare in service shows. -/
def openMembers (v : Nat) (x : VolSt) (s : State) : State :=
  let s := x.slots.foldl (fun s l =>
    if l.role = 3 && 2 ≤ s.f (RM_MBR_STATUS_state l.m) && s.f (RM_MBR_STATUS_state l.m) ≤ 3 then mbrState l.m 1 s else s) s
  let spare := x.layout == 1 && x.slots.any (fun l => l.role == 3 && x.slots.any (fun y => y.role == 1 && y.pos == l.pos))
  setF (RM_VOL_STATUS_spare_used v) (if spare then 1 else 0) (takeMembers x s)

/-- Clips that the journal leaves OPEN. -/
def openClips (area : List Host.Cell) : List Nat :=
  ((List.range 4096).drop 1).filter (fun c =>
    let e := cellBytes area (clipOff c) 256
    leAt e 0 4 % 16 == 1 && leAt e 0xFC 4 == crc32 (e.take 0xFC))

/-- The index blocks of a clip that recovery reads: those its walk finds. -/
def State.indexReads (s : State) (v : Nat) (x : VolSt) (clip : Nat) (blocks : List Nat) : List (Nat × Nat × Nat) :=
  (blocks.foldl (fun (z : Nat × List Nat) vbn =>
    let t := (volData v vbn 1 s).drop 4064
    if leAt t 0 4 == clip && leAt t 4 4 == z.1 then (z.1 + 1, z.2 ++ [vbn]) else z) (0, [])).2.filterMap (fun vbn =>
      let (p, b) := x.locate vbn
      (s.holders x p).head?.map (fun m => (m, b, 1)))

/-- Step 3 with the metadata read: the journal is applied; then step 5's index blocks are read (DESIGN CHOICE, log 30: the
blocks that its walk finds; the spec does not say which blocks the walk reads). -/
def openJournal (v : Nat) (x : VolSt) (s : State) : State :=
  let (area, seq, puts, s) := jrnReplay v 4096 (s.openArea x) x.ckpt [] s
  let x := jrnMembers area (seq - x.ckpt) x
  let s := openMembers v x s
  let lost := ((List.range x.n).filter (fun p => s.holders x p == [])).foldl (fun n p => n + 2 ^ p) 0
  let s := setF (RM_VOL_STATUS_lost v) lost (modVol v (fun _ => { x with area := area, jseq := seq }) s)
  let reads := (openClips area).flatMap (fun c =>
    s.indexReads v x c (chainBlocks area c 65536 (leAt (cellBytes area (clipOff c) 256) 0x10 4)))
  openReads v { step := 5, puts := puts } reads s

/-- Steps 4 to 6 with the index blocks read. -/
def openRecover (v : Nat) (o : VolOpening) (x : VolSt) (s : State) : State :=
  let (z, s) := (List.range 8).foldl (fun y k => recoverMirror v k x.id y) (({ area := x.area, puts := o.puts } : Recovery), s)
  let (z, s) := ((List.range 4096).drop 1).foldl (fun y c => recoverClip v c y) (z, s)
  let (recs, s) := journal v z.recs s
  let (ck, s) := journal v [(6, 0, [])] s
  let s := modVol v (fun y => { y with ckpt := y.jseq, area := z.area }) s
  taskStart v none [z.datas, recs, z.puts.map (fun e => MetaOp.put e.1 e.2), ck, [.sb false], [.sb true]]
    (.ready v (!z.recs.isEmpty)) s

/-- A valid journal slot: its sequence, target and data (R326). -/
def readSlot (v i id : Nat) (s : State) : Option (Nat × Nat × List Byte × Nat) × State :=
  let a := s.slotVbn v i
  let h := (volData v a 1 s).take 64
  let n := leAt h 0x20 4
  let magic := leAt h 0 4 == 0x4A4D5441
  let sound := leAt h 0x3C 4 == crc32 (h.take 60) && decide (1 ≤ n ∧ n ≤ 16)
  let data := volData v (a + 1) (if sound then n else 0) s
  let (bad, s) := if magic then examDetect 0x4403 (!(sound && leAt h 0x24 4 == crc32 data)) (v + 1) 0 s else (true, s)
  (if bad || leAt h 8 8 != id then none else some (leAt h 0x10 8, leAt h 0x18 8, data, i), s)

/-- Inserts a slot by its sequence. -/
def bySeq (x : Nat × Nat × List Byte × Nat) : List (Nat × Nat × List Byte × Nat) → List (Nat × Nat × List Byte × Nat)
  | [] => [x]
  | y :: t => if x.1 < y.1 then x :: y :: t else y :: bySeq x t

/-- The journal slots are read: home locations and then headers, in ascending sequence (R326). -/
def replayRun (v : Nat) (x : VolSt) (s : State) : State :=
  let (l, s) := (List.range 16).foldl (fun (z : List (Nat × Nat × List Byte × Nat) × State) i =>
    let (r, s) := readSlot v i x.id z.2
    (match r with
      | some e => bySeq e z.1
      | none => z.1, s)) ([], s)
  let s := { s with oep := { s.oep with seqs := put s.oep.seqs v ((l.map (·.1)).foldl max (lookD s.oep.seqs 0 v)) } }
  let phases := l.flatMap (fun e => [[MetaOp.data e.2.1 e.2.2.1], [MetaOp.data (s.slotVbn v e.2.2.2) (List.replicate 4096 0)]])
  taskStart v none phases (.replayed v l.length) s

/-- The next step of opening a volume or replaying its atomic journal, its reads being complete; an opening whose volume failed meanwhile is over (R305). -/
def openStep (v : Nat) (o : VolOpening) (s : State) : State :=
  let s := { s with rm := { s.rm with opens := del s.rm.opens v } }
  if o.step = 7 then match look s.rm.vols v with
    | some x => replayRun v x s
    | none => s
  else if s.f (RM_VOL_STATUS_state v) != 1 then s
  else match o.step, look s.rm.vols v with
    | 1, _ => openTake v s
    | 3, some x => openJournal v x s
    | _, some x => openRecover v o x s
    | _, none => s

/-- Takes every opening as far as its completed reads let it: at most three steps each. -/
def openPump (s : State) : State :=
  (List.range 12).foldl (fun s _ => match s.rm.opens.find? (fun e => e.2.read) with
    | some (v, o) => openStep v o s
    | none => s) s

end Sys2Proof.Machine
end

