-- ==== Sys2Proof/Machine/RmMember.lean ====
section
/-! DEFINITION. Members: attach, detach, completions, retries, death and return (R286 to R289, R303 to R307). -/

namespace Sys2Proof.Machine

open Sys2Proof.Config (ms)

/-! ### Attach and detach (R287, R307) -/

/-- A write of RM_MBRm_CTRL: one bit refused refuses the write (R287, R307, R510). -/
def mbrCtrlWrite (m : Nat) (v : Word) (s : State) : State :=
  let st := s.f (RM_MBR_STATUS_state m)
  let n := v.toNat
  if (bitOf n 0 && (st != 0 || s.b (RM_MBR_CTRL_attach m))) || (bitOf n 1 && !(st = 0 || st = 1 || st = 5)) ||
      (bitOf n 2 && (st != 5 || s.f (RM_MBR_STATUS_outstanding m) != 0 || bitOf n 1)) then flag RM_STATUS_bad_write s
  else
    let s := if bitOf n 0 then flag (RM_MBR_CTRL_attach m) s else s
    let s := if bitOf n 1 then
        (if st = 0 then setF (RM_MBR_CTRL_attach m) 0 (modMbr m (fun x => { x with readm := false }) s)
        else setF (RM_MBR_CTRL_attach m) 0 (mbrState m 0 (modMbr m (fun _ => {}) (setF (RM_MBR_STATUS_outstanding m) 0 s))))
      else s
    if bitOf n 2 then flag (RM_MBR_CTRL_attach m) (modMbr m (fun x => { x with readm := true }) s) else s

/-- MEMBER_ATTACH (R287). -/
def execMemberAttach (r : Requester) (m : Nat) (v : Word) (s : State) : Res :=
  guardOk (decide (m < 4)) (writeBy r (RM_MBR_CTRL m) (mbrCtrlWrite m (setBits v 0 0 1)) s)

/-- MEMBER_DETACH (R307). -/
def execMemberDetach (r : Requester) (m : Nat) (v : Word) (s : State) : Res :=
  guardOk (decide (m < 4)) (writeBy r (RM_MBR_CTRL m) (mbrCtrlWrite m (setBits v 1 1 1)) s)

/-- MEMBER_READMIT (R307). -/
def execMemberReadmit (r : Requester) (m : Nat) (v : Word) (s : State) : Res :=
  guardOk (decide (m < 4)) (writeBy r (RM_MBR_CTRL m) (mbrCtrlWrite m (setBits v 2 2 1)) s)

/-- Why an attach fails, 0 if it does not: the first step that fails, in the order of R287. -/
def attachCause (r : AttachResult) : Nat :=
  if !r.linkUp then 1
  else if !r.ready then 2
  else if r.pairs < 4 then 6
  else if !r.nsPresent then 3
  else if !r.lbaFormat then 4
  else if r.blocks < 2048 then 5
  else 0

/-- A queue pair is created: its completion queue, on MSI-X vector q + 1, then its submission queue. -/
def createPair (m q : Nat) (s : State) : State :=
  let a := s.queueArea m + 0x1000 + q * 0x14000
  let dw10 := q + 1 + 1023 * 2 ^ 16
  adminDone m 1 0 a dw10 (1 + (q + 1) * 2 ^ 16) 0 (adminDone m 5 0 (a + 0x10000) dw10 (3 + (q + 1) * 2 ^ 16) 0 s)

/-- The admin commands of an attach that fails for `c`, or does not fail (R287 steps 2 to 4, R288). -/
def attachAdmin (m : Nat) (r : AttachResult) (c : Nat) (s : State) : State :=
  if c = 1 || c = 2 then s
  else
    let s := adminDone m 9 0 0 7 (3 + 3 * 2 ^ 16) ((r.pairs - 1) * (1 + 2 ^ 16)) s
    if c = 6 then s
    else
      let s := (List.range 4).foldl (fun s q => createPair m q s) s
      let s := adminDone m 6 1 0 0 0 0 (adminDone m 6 0 0 1 0 0 s)
      if c = 0 then adminDone m 0xA 0 0 6 0 (if r.vwc then 1 else 0) s else s

/-- The volume, of layout STRIPE+SPARE and without a spare, that a re-admitted member may spare (R307). -/
def spareFor (m : Nat) (s : State) : Option (Nat × VolSt) :=
  s.rm.vols.find? (fun e => e.2.layout == 1 && !e.2.slots.any (·.role == 2) && e.2.slots.any (fun l => l.m == m && l.role == 3))

/-- Speed and width as the link trained (R286). -/
def linkTrained (m speed width : Nat) (s : State) : State :=
  setF (RM_MBR_STATUS_speed m) speed (setF (RM_MBR_STATUS_width m) (if width = 4 then 2 else if width = 2 then 1 else 0) s)

/-- The attach steps end (R287, R307). -/
def attachDone (m : Nat) (r : AttachResult) (s : State) : State :=
  if !s.b RM_CTRL_en || !s.b (RM_MBR_CTRL_attach m) then s
  else
    let readm := (s.mbr m).readm
    let s := setF (RM_MBR_CTRL_attach m) 0 s
    let c := attachCause r
    let s := modMbr m (fun x => { readm := x.readm, linkUp := r.linkUp }) s
    let s := attachAdmin m r c (if r.linkUp then linkTrained m r.speed r.width s else s)
    if c != 0 then
      raise 0x40 12 m (setF (RM_MBR_STATUS_cause m) c (mbrState m 0 (modMbr m (fun x => { x with readm := false, linkUp := false }) s)))
    else
      let s := modMbr m (fun x => { x with uid := r.uid, mdts := r.mdts, readm := false }) s
      let s := setF (RM_MBR_STATUS_vwc m) (if r.vwc then 1 else 0) (setF (RM_MBR_STATUS_cause m) 0 s)
      let s := setPair (RM_MBR_BLOCKS_LO m) (RM_MBR_BLOCKS_HI m) r.blocks s
      match if readm then spareFor m s else none with
      | some (v, _) =>
        let gen := s.f (RM_MBR_GEN_gen m)
        let s := modVol v (fun x => { x with slots := x.slots.map (fun l =>
          if l.m == m then { l with role := 2, gen := gen, uid := r.uid } else l) }) s
        raise 0x40 0 m (mbrState m 3 s)
      | none => raise 0x40 0 m (mbrState m 1 s)

/-- ATTACH_COMPLETE (R287). -/
def execAttachComplete (m : Nat) (r : AttachResult) (s : State) : Res :=
  guardOk (decide (m < 4)) (if s.domOn dRM then attachDone m r s else s)

/-! ### Completions of member commands -/

/-- An owner's command is complete. -/
def ownerStep (o : RmOwner) (lost : Bool) (s : State) : State :=
  match o with
  | .task id => taskStep id s
  | .host id => hostStep id lost s
  | .flight k no =>
    let s := modStr k (fun x => { x with
      flights := x.flights.map (fun f => if f.no == no then { f with left := f.left - 1 } else f) }) s
    flightFree k no s

/-- What a command does to a member's medium (R289). -/
def mediaStep (m : Nat) (op : NvOp) (s : State) : State :=
  match op with
  | .write b n cells =>
    let old := (lookD s.media [] m)
    let lo := b * 4096
    let hi := (b + n) * 4096
    let new := old.filter (fun e => decide (e.1 < lo)) ++ cells.map (fun e => (lo + e.1, e.2)) ++
      old.filter (fun e => decide (hi ≤ e.1))
    { s with media := put s.media m new }
  | _ => s

/-! ### Death (R304, R305) -/

/-- The volume a member belongs to. -/
def State.volOf (s : State) (m : Nat) : Option (Nat × VolSt) :=
  s.rm.vols.find? (fun e => e.2.slots.any (fun l => l.m == m && (l.role == 1 || l.role == 2)))

/-- A change of a slot's role is journalled (R304, R296). -/
def memberState (v i role gen : Nat) (s : State) : State :=
  metaWrite v [(5, 0, leBytes 4 i ++ leBytes 4 role ++ leBytes 4 gen)] [] .nothing s

/-- Streams recording into a volume. -/
def State.streamsOf (s : State) (v : Nat) : List Nat :=
  (List.range 8).filter (fun k => s.f (RM_STR_STATUS_state k) != 0 && (s.str k).vol == v)

/-- Host commands over the dead member's position go on: writes at the spare that took it; with another copy live
nothing is lost; else the position is lost to them (R320). -/
def hostMoves (cmds : List NvCmd) (new : Option Nat) (other : Bool) (s : State) : State :=
  cmds.foldl (fun s c => match c.owner with
    | .host id =>
      match new, c.op with
      | some x, .write _ _ _ => issue x c.op c.owner s
      | some x, .dealloc _ _ => issue x c.op c.owner s
      | _, _ => hostStep id (!other) s
    | _ => s) s

/-- Commands at a member for host commands are lost with the position they were for. -/
def hostLose (m : Nat) (s : State) : State :=
  (s.mbr m).cmds.foldl (fun s c => match c.owner with
    | .host id => modCmd id (fun x => { x with failed := true }) s
    | _ => s) s

/-- The spare that took a higher position in this very instant takes position `p` instead: of two members that die in one cycle,
the one at the lower position gets it (R305). The answer names the spare and the position it gives up. -/
def spareSwap (v p : Nat) (x : VolSt) (s : State) : Option (Nat × Nat × State) := match x.took with
  | some (t, q, m) =>
    if t = s.now && p < q && s.mbrLive m then
      let s := modVol v (fun x => { x with
        spared := put (del x.spared q) p [], took := some (t, p, m)
        slots := x.slots.map (fun y => if y.m == m then { y with pos := p } else y) }) s
      let i := x.slots.findIdx (fun y => y.m == m)
      let s := memberState v i 1 ((x.slots[i]?.map (·.gen)).getD 0) s
      some (m, q, raise 0x40 4 (p * 16 + m) (hostLose m s))
    else none
  | none => none

/-- Position `p` of a volume is lost for good: FAILED, and every recording stream breaks off (R305). -/
def positionLost (v p : Nat) (s : State) : State :=
  let s := setF (RM_VOL_STATUS_lost v) (s.f (RM_VOL_STATUS_lost v) ||| 2 ^ p) (setF (RM_VOL_STATUS_state v) 4 s)
  (s.streamsOf v).foldl (fun s k => clipBreak k s) s

/-- The layout reacts to the death of a position holder or spare (R305). -/
def layoutReact (v : Nat) (x : VolSt) (l : VolSlot) (cmds : List NvCmd) (s : State) : State :=
  let flightsOf (s : State) : State := cmds.foldl (fun s c => match c.owner with
    | .flight _ _ => ownerStep c.owner false s
    | _ => s) s
  if l.role = 2 then s
  else
    let others := s.holders x l.pos
    if !others.isEmpty then
      let s := flightsOf (hostMoves cmds none true s)
      let s := (s.streamsOf v).foldl (fun s k => markClip k 0x40 s) s
      if s.f (RM_VOL_STATUS_state v) = 2 then setF (RM_VOL_STATUS_state v) 3 s else s
    else
      match x.slots.find? (fun y => y.role == 2 && s.mbrLive y.m) with
      | some sp =>
        let s := modVol v (fun x => { x with
          spared := put x.spared l.pos [], took := some (s.now, l.pos, sp.m)
          slots := x.slots.map (fun y => if y.m == sp.m then { y with role := 1, pos := l.pos } else y) }) s
        let i := x.slots.findIdx (fun y => y.m == sp.m)
        let s := memberState v i 1 sp.gen s
        let s := setF (RM_VOL_STATUS_spare_used v) 1 (mbrState sp.m 2 s)
        let s := raise 0x40 4 (l.pos * 16 + sp.m) s
        let s := (s.streamsOf v).foldl (fun s k => if s.f (RM_STR_STATUS_state k) = 1 then clipSplit k l.pos s
          else clipBreak k s) s
        hostMoves cmds (some sp.m) false s
      | none =>
        match spareSwap v l.pos x s with
        | some (m, q, s) => raise 0x40 6 v (hostMoves cmds (some m) false (positionLost v q s))
        | none => raise 0x40 6 v (hostMoves cmds none false (positionLost v l.pos s))

/-- Aborts, while the link is up, every command outstanding (R304): the pair's submission queue and the identifier. -/
def abortAll (m : Nat) (cmds : List NvCmd) (s : State) : State :=
  if (s.mbr m).linkUp then cmds.foldl (fun s c => adminPut m 8 0 0 (c.pair + 1 + c.cid * 2 ^ 16) 0 s) s else s

/-- A member is DEAD (R304, R305). `lost` is a command that is complete, and failed for good; its owner waits for it as
for the others. -/
def memberDead (m : Nat) (lost : List NvCmd) (s : State) : State :=
  let gen := (s.f (RM_MBR_GEN_gen m) + 1) % 65536
  let cmds := lost ++ (s.mbr m).cmds.filter (fun c => !c.old && !c.gone)
  let all := (s.mbr m).cmds.map (fun c => { c with old := true })
  let vol := s.volOf m
  let s := abortAll m all (modMbr m (fun x => { x with cmds := all, told := false }) s)
  let s := setF (RM_MBR_STATUS_outstanding m) all.length (setF (RM_MBR_GEN_gen m) gen (mbrState m 4 s))
  let s := match vol with
    | none => s
    | some (v, x) =>
      let i := x.slots.findIdx (fun l => l.m == m)
      let s := modVol v (fun x => { x with slots := x.slots.map (fun l => if l.m == m then { l with role := 3, gen := gen } else l) }) s
      memberState v i 3 gen s
  let s := raise 0x40 2 m s
  let s := match vol with
    | none => s
    | some (v, x) =>
      match x.slots.find? (fun l => l.m == m) with
      | some l => layoutReact v x l cmds s
      | none => s
  cmds.foldl (fun s c => match c.owner with
    | .task _ => ownerStep c.owner false s
    | .flight k no => flightFree k no s
    | .host _ => s) s

/-! ### NVMe completions (R289, R303, R304) -/

/-- The completion a device writes to the completion queue of the command's pair. -/
def cqeWrite (m : Nat) (c : NvCmd) (ok : Bool) (s : State) : State :=
  let x := s.mbr m
  let n := lookD x.cqs 0 c.pair
  let head := (x.subs + 3 - c.pair) / 4 % 1024
  dmaPut 10 (s.queueArea m + 0x1000 + c.pair * 0x14000 + 0x10000 + n % 1024 * 16)
    (leBytes 8 0 ++ leBytes 4 (head + (c.pair + 1) * 2 ^ 16) ++
      leBytes 4 (c.cid + (n / 1024 + 1) % 2 * 2 ^ 16 + (if ok then 0 else 2 ^ 17)))
    (modMbr m (fun x => { x with cqs := put x.cqs c.pair (n + 1) }) s)

/-- A first failure is retried with the same data (R303). -/
def retryCmd (m : Nat) (c : NvCmd) (det : Nat) (inj : Bool) (s : State) : State :=
  raise 0x40 1 m (bump (RM_MBR_RETRY m) (submit m { c with tries := 1, det := det, inj := inj } s))

/-- A command failed by detector `det`, by its completion (`completed`) or for want of one: it is retried once, or the member is
DEAD (R303, R450). A command without a completion is still outstanding at the device, also when it is issued anew. -/
def cmdFailed (m : Nat) (c : NvCmd) (det : Nat) (inj completed : Bool) (s : State) : State :=
  let drop (s : State) : State := modMbr m (fun x => { x with cmds := x.cmds.filter (fun y => y.cid != c.cid) }) s
  let leave (s : State) : State :=
    modMbr m (fun x => { x with cmds := x.cmds.map (fun y => if y.cid == c.cid then { y with gone := true } else y) }) s
  if c.tries = 0 then retryCmd m c det inj (if completed then drop s else leave s)
  else
    let s := lasting 1 det (inj && c.inj) m 0 s
    if completed then memberDead m [c] (drop s) else memberDead m [] s

/-- A completion of another generation is discarded and counted, the detection with it (R304). -/
def fenced (m : Nat) (inj : Bool) (s : State) : State :=
  let s := bump (RM_MBR_FENCED m) s
  let s := if (s.mbr m).told then s else raise 0x40 11 m (modMbr m (fun x => { x with told := true }) s)
  detect 0x4003 inj m 0 s

/-- A completion of another generation, examined as such (R304, R310). -/
def fencedReal (m : Nat) (s : State) : State :=
  let (e, s) := examine 0x4003 true s
  fenced m e.inj s

/-- A completion arrives (R289, R303, R304). Each one is an examination by the detectors of the link, the generation, the time
limit and the status (R310): an injected error there acts as a real one. -/
def completion (m cid : Nat) (ok : Bool) (s : State) : State :=
  let x := s.mbr m
  match x.cmds.find? (fun c => c.cid == cid) with
  | none => if s.f (RM_MBR_STATUS_state m) != 0 && cid / 4096 != s.f (RM_MBR_GEN_gen m) % 16 then fencedReal m s else s
  | some c =>
    let s := cqeWrite m c ok s
    let drop (s : State) : State := modMbr m (fun x => { x with cmds := x.cmds.filter (fun y => y.cid != cid) }) s
    if cid / 4096 != s.f (RM_MBR_GEN_gen m) % 16 || c.old then
      let s := drop (if ok then mediaStep m c.op s else s)
      fencedReal m (setF (RM_MBR_STATUS_outstanding m) (s.f (RM_MBR_STATUS_outstanding m) - 1) s)
    else if c.gone then
      let s := drop (if ok then mediaStep m c.op s else s)
      match c.owner with
      | .flight k no => flightFree k no s
      | _ => s
    else
      let (l, s) := examine 0x4002 false s
      let (g, s) := examine 0x4003 false s
      let (t, s) := examine 0x4001 false s
      let (e, s) := examine 0x4000 (!ok) s
      if l.err then memberDead m [] (detect 0x4002 l.inj m 0 (modMbr m (fun x => { x with linkUp := false }) s))
      else if g.err then fenced m g.inj s
      else if t.err then cmdFailed m c 0x4001 t.inj true s
      else if e.err then cmdFailed m c 0x4000 e.inj true s
      else
        let s := if c.tries = 1 then transient c.det c.inj m 0 s else s
        ownerStep c.owner false (mediaStep m c.op (drop s))

/-- NVME_COMPLETION (R303). -/
def execNvmeCompletion (m : Nat) (cid : BitVec 16) (ok : Bool) (s : State) : Res :=
  guardOk (decide (m < 4)) (if s.domOn dRM then openPump (completion m cid.toNat ok (hostClear s)) else s)

/-- A command that is not complete in time fails (R303). -/
def cmdTimeout (m cid : Nat) (s : State) : State :=
  match (s.mbr m).cmds.find? (fun c => c.cid == cid && !c.old && !c.gone) with
  | none => s
  | some c =>
    let (e, s) := examine 0x4001 true (advanceTo c.due s)
    cmdFailed m c 0x4001 e.inj false s

/-- NVME_TIMEOUT (R303). -/
def execNvmeTimeout (m : Nat) (cid : BitVec 16) (s : State) : Res :=
  guardOk (decide (m < 4)) (if s.domOn dRM then openPump (cmdTimeout m cid.toNat (hostClear s)) else s)

/-- The link of a root port is lost (R303). A member that was attaching fails its attach. -/
def linkDown (m : Nat) (s : State) : State :=
  let st := s.f (RM_MBR_STATUS_state m)
  if st = 0 || !(s.mbr m).linkUp then s
  else
    let s := modMbr m (fun x => { x with linkUp := false }) s
    if 1 ≤ st && decide (st ≤ 3) then
      let (e, s) := examine 0x4002 true s
      memberDead m [] (detect 0x4002 e.inj m 0 s)
    else if st = 5 then mbrState m 4 s
    else s

/-- ROOT_PORT_LINK_DOWN (R303). -/
def execRootPortLinkDown (m : Nat) (s : State) : Res :=
  guardOk (decide (m < 4)) (if s.domOn dRM then openPump (linkDown m (hostClear s)) else s)

/-- A DEAD member's link and controller return (R307). Its commands of the old generation stay outstanding until their
completions arrive (DEDUCED, log 30: R307 asks outstanding = 0 of a readmit). -/
def linkReturn (m speed width : Nat) (s : State) : State :=
  if s.f (RM_MBR_STATUS_state m) = 4 then
    raise 0x40 3 m (linkTrained m speed width (mbrState m 5 (modMbr m (fun x => { x with linkUp := true }) s)))
  else s

/-- MEMBER_LINK_RETURN (R307). -/
def execMemberLinkReturn (m speed width : Nat) (s : State) : Res :=
  guardOk (decide (m < 4)) (if s.domOn dRM && s.b RM_CTRL_en then linkReturn m speed width s else s)

end Sys2Proof.Machine
end

