-- ==== Sys2Proof/Machine/RmVol.lean ====
section
/-! DEFINITION. Record volumes: format, close and their register (R290, R291, R301, R308, R309). -/

namespace Sys2Proof.Machine

/-- The volume that a format writes, or none if it is refused (R291, R309). -/
def formatOf (v : Nat) (s : State) : Option VolSt :=
  let layout := s.f (RM_VOL_CFG_layout v)
  let su := s.f (RM_VOL_CFG_su v)
  let count := s.f (RM_VOL_CFG_count v)
  let ms := (List.range count).map (fun i => s.cfgMember v i)
  match layoutN layout count with
  | none => none
  | some n =>
    let u := 2 ^ su
    let dm := (ms.map (fun m => (s.mbrBlocks m - 1025) / u * u)).foldl min (2 ^ 64)
    let slot (i m : Nat) : VolSlot := ⟨m, if layout = 1 && i = n then 2 else 1, if layout = 2 then i % 2 else if i = n then 0 else i,
      s.f (RM_MBR_GEN_gen m), (s.mbr m).uid⟩
    let ok := s.f (RM_VOL_STATUS_state v) == 0 && ms.all (fun m => s.f (RM_MBR_STATUS_state m) == 1) &&
      decide (ms.eraseDups.length = count) && decide (4 ≤ su ∧ su ≤ 12) && decide (n * dm ≤ 2 ^ 36)
    if ok then some {
      layout := layout, su := su, slots := ms.mapIdx slot, n := n, total := n * dm
      id := s.pair (RM_VOL_ID_LO v) (RM_VOL_ID_HI v) }
    else none

/-- Zero writes over the head of each member (R290, R309). -/
def zeroHead (x : VolSt) (id : Nat) (s : State) : Nat × State :=
  x.slots.foldl (fun (z : Nat × State) l =>
    let lim := s.cmdBlocks l.m
    (List.range (ceilDiv 1023 lim)).foldl (fun (z : Nat × State) i =>
      (z.1 + 1, issue l.m (.write (1 + i * lim) (min lim (1023 - i * lim)) []) (.task id) z.2)) z) (0, s)

/-- A write of format (R309): the areas are zeroed, then both superblocks written with sequence 1; the volume is then
open (R307). -/
def volFormat (v : Nat) (s : State) : State :=
  match formatOf v s with
  | none => flag RM_STATUS_bad_write s
  | some x =>
    let s := { s with rm := { s.rm with vols := put s.rm.vols v x } }
    let s := setF (RM_VOL_STATUS_spare_used v) 0 (setF (RM_VOL_STATUS_lost v) 0 (setF (RM_VOL_STATUS_state v) 1 (takeMembers x s)))
    let id := s.rm.taskNo
    let (n, s) := zeroHead x id { s with rm := { s.rm with taskNo := id + 1 } }
    { s with rm := { s.rm with tasks := put s.rm.tasks id { vol := v, phases := [[.sb false], [.sb true]], left := n, fin := .ready v false } } }

/-! ### Close and the register -/

/-- Gives up a format or an opening: its commands complete for nobody (DESIGN CHOICE, log 30: the spec does not say what
close does before a volume is open). -/
def volDrop (v : Nat) (s : State) : State :=
  if s.f (RM_VOL_STATUS_state v) = 1 then
    { s with rm := { s.rm with tasks := s.rm.tasks.filter (fun e => e.2.vol != v), opens := del s.rm.opens v } }
  else s

/-- A write of close: every stream's clip ends first (R301). -/
def volClose (v : Nat) (s : State) : State :=
  let s := volDrop v s
  match look s.rm.vols v with
  | none => if s.f (RM_VOL_STATUS_state v) = 4 || s.f (RM_VOL_STATUS_state v) = 1 then setF (RM_VOL_STATUS_state v) 0 s else s
  | some _ =>
    let s := modVol v (fun x => { x with closing := true }) s
    volShut v ((s.streamsOf v).foldl (fun s k => clipClose k s) s)

/-- A write of RM_VOLv_CTRL (R308, R309): a format or an open that is refused refuses the write; so is an open beside a format,
which the volume being open refuses (R510). -/
def volCtrlWrite (v : Nat) (w : Word) (s : State) : State :=
  let (fmt, opn) := (bitOf w.toNat 0, bitOf w.toNat 1)
  if (fmt && (opn || (formatOf v s).isNone)) ||
      (opn && (s.f (RM_VOL_STATUS_state v) != 0 || s.f (RM_VOL_CFG_layout v) == 3)) then flag RM_STATUS_bad_write s
  else
    let s := if fmt then volFormat v s else s
    let s := if opn then openPump (volOpen v s) else s
    if bitOf w.toNat 2 then volClose v s else s

/-- VOL_OPEN (R308). -/
def execVolOpen (r : Requester) (v : Nat) (w : Word) (s : State) : Res :=
  guardOk (decide (v < 4)) (writeBy r (RM_VOL_CTRL v) (volCtrlWrite v (setBits w 1 0 2)) s)

/-- VOL_FORMAT (R309). -/
def execVolFormat (r : Requester) (v : Nat) (w : Word) (s : State) : Res :=
  guardOk (decide (v < 4)) (writeBy r (RM_VOL_CTRL v) (volCtrlWrite v (setBits w 1 0 1)) s)

/-- VOL_CLOSE (R301). -/
def execVolClose (r : Requester) (v : Nat) (w : Word) (s : State) : Res :=
  guardOk (decide (v < 4)) (writeBy r (RM_VOL_CTRL v) (volCtrlWrite v (setBits w 2 0 4)) s)

end Sys2Proof.Machine
end

