-- ==== Sys2Proof/Machine/Oep.lean ====
section
/-! DEFINITION. The offload endpoint (R311 to R332). Host memory and the host's registers are outside the B9: a command
carries what the host wrote, and the state shows what the endpoint wrote to the host in its latest step. -/

namespace Sys2Proof.Machine

/-! ### Link and controller (R311, R312, R331) -/

/-- OEP_LINK_UP (R311): the vote of the endpoint counts while the link is up (R417). -/
def execOepLinkUp (speed width : Nat) (s : State) : Res :=
  .next <|
    let s := hostClear s
    if s.domOn dOEP && s.b OEP_CTRL_en && !s.b OEP_STATUS_link_up then
      let w := match width with
        | 8 => 3 | 4 => 2 | 2 => 1 | _ => 0
      let s := setF OEP_STATUS_width w (setF OEP_STATUS_speed speed (flag OEP_STATUS_link_up s))
      pwrNext (raise 0x44 0 width { s with oep := { s.oep with shst := 0 } })
    else s

/-- A doubleword of the function's configuration space (R311; places PRESUMED, log 55: PCI): identity, class code, and
the 64-bit BAR0 of 16 KiB and BAR2 of 8 KiB with their addresses. -/
def State.pciConfig (s : State) (off : Nat) : Word :=
  match off with
  | 0x00 => s.rd OEP_PCI_ID
  | 0x08 => 0x01080200
  | 0x10 => BitVec.ofNat 32 (s.oep.bars.1 / 2 ^ 14 * 2 ^ 14 + 4)
  | 0x14 => BitVec.ofNat 32 (s.oep.bars.1 / 2 ^ 32)
  | 0x18 => BitVec.ofNat 32 (s.oep.bars.2 / 2 ^ 13 * 2 ^ 13 + 4)
  | 0x1C => BitVec.ofNat 32 (s.oep.bars.2 / 2 ^ 32)
  | 0x2C => s.rd OEP_PCI_SUB
  | _ => 0

/-- An entry of the MSI-X table in BAR2, 65 of them (R311; places PRESUMED, log 55: PCI): address, data, mask. -/
def State.msixEntry (s : State) (vec : Nat) : List Byte :=
  let (a, d, m) := lookD s.oep.msix (0, 0, false) vec
  if vec < 65 then leBytes 8 a ++ leBytes 4 d ++ leBytes 4 (if m then 1 else 0) else []

/-- The pending-bit array, from 0x1000 of BAR2 (R311). -/
def State.msixPba (s : State) : List Byte := leBytes 16 (s.oep.pba.foldl (fun n v => n ||| 2 ^ v) 0)

/-- CC as the host set it (R312): but for EN and a shutdown notice, every field has the one value the controller takes. -/
def State.nvmeCc (s : State) : Nat :=
  if s.b OEP_STATUS_cc_en then 1 + 6 * 2 ^ 16 + 4 * 2 ^ 20 + (if s.oep.shst = 0 then 0 else 2 ^ 14) else 0

/-- A controller register at its offset in BAR0 (R312; places PRESUMED, log 55: NVMe 2.0): CAP, VS, CC, CSTS and AQA. -/
def State.nvmeReg (s : State) (off : Nat) : Nat :=
  match off with
  | 0x00 => 4095 + 2 ^ 16 + 4 * 2 ^ 24
  | 0x04 => 2 ^ 5
  | 0x08 => 0x00020000
  | 0x14 => s.nvmeCc
  | 0x1C => s.f OEP_STATUS_rdy + s.oep.shst * 4
  | 0x24 => s.oep.aqa
  | _ => 0

/-- CTRL_ENABLE (R312): CSTS.RDY rises and the admin queues exist, of the sizes the host wrote. -/
def execCtrlEnable (asqs acqs : Nat) (s : State) : Res :=
  guardOk (decide (2 ≤ asqs ∧ asqs ≤ 4096 ∧ 2 ≤ acqs ∧ acqs ≤ 4096)) <|
    let s := hostClear s
    if s.domOn dOEP && s.b OEP_STATUS_link_up && !s.b OEP_STATUS_cc_en && s.oep.drain.isNone then
      let s := { s with oep := { s.oep with
        sqs := [(0, { size := asqs, cq := 0, base := 0 })], cqs := [(0, { size := acqs, vec := 0, base := 0 })]
        aqa := asqs - 1 + (acqs - 1) * 2 ^ 16, aers := [], notes := [], agg := [], shst := 0, turn := 0 } }
      raise 0x44 2 0 (flag OEP_STATUS_rdy (flag OEP_STATUS_cc_en s))
    else s

/-- No command remains: CSTS.RDY clears, and with the controller's reset the features, none of them saved; or CSTS.SHST reads
complete (R316, R331). -/
def drainEnd (s : State) : State :=
  match s.oep.drain with
  | none => s
  | some c =>
    if s.oep.cmds.isEmpty then
      let s := { s with oep := { s.oep with
        drain := none, shst := if c = 2 then 2 else 0, aers := [], notes := []
        sqs := if c = 2 then s.oep.sqs else [], cqs := if c = 2 then s.oep.cqs else []
        feats := if c = 2 then s.oep.feats else [], agg := if c = 2 then s.oep.agg else [] } }
      let s := if c = 2 then s else setF OEP_STATUS_rdy 0 s
      raise 0x44 3 c s
    else s

/-- No new commands are taken; those that have issued no member command complete internally (R331). A further cause replaces a
shutdown, and the link's replaces any. -/
def drainStart (cause : Nat) (s : State) : State :=
  let take := match s.oep.drain with
    | none => true
    | some c => cause == 3 || (c == 2 && cause != 2)
  if !take then s
  else
    let s := { s with oep := { s.oep with drain := some cause, shst := if cause = 2 then 1 else s.oep.shst } }
    let s := if cause = 2 then s else setF OEP_STATUS_cc_en 0 s
    s.oep.cmds.foldl (fun s c =>
      if c.q == 0 || c.stage == .fetched || c.stage == .lock || c.stage == .slot then hostGone c.id s else s) s

/-- CTRL_RESET (R331). -/
def execCtrlReset (cause : CtrlResetCause) (s : State) : Res :=
  .next <|
    let s := hostClear s
    let n := match cause with
      | .ccEn => 0 | .flr => 1 | .shutdown => 2 | .link => 3
    if s.domOn dOEP && s.b OEP_STATUS_cc_en then drainStart n s else s

/-- CTRL_RESET_DONE (R331). -/
def execCtrlResetDone (s : State) : Res := .next (if s.domOn dOEP then drainEnd (hostClear s) else s)

/-- OEP_LINK_DOWN (R331). -/
def execOepLinkDown (s : State) : Res :=
  .next <|
    let s := hostClear s
    if s.domOn dOEP && s.b OEP_STATUS_link_up then
      let s := raise 0x44 1 0 (setF OEP_STATUS_link_up 0 s)
      let s := if s.b OEP_STATUS_cc_en then drainStart 3 s
        else if s.oep.drain.isSome then { s with oep := { s.oep with drain := some 3 } }
        else s
      pwrNext s
    else s

/-! ### Doorbells and fetching (R313) -/

/-- SQ_DOORBELL. -/
def execSqDoorbell (q tail : Nat) (s : State) : Res :=
  .next <|
    let s := hostClear s
    match look s.oep.sqs q with
    | some x => if tail < x.size && x.dying.isNone then { s with oep := { s.oep with sqs := put s.oep.sqs q { x with tail := tail } } } else s
    | none => s

/-- CQ_DOORBELL: room opens for completions that waited. -/
def execCqDoorbell (q head : Nat) (s : State) : Res :=
  .next <|
    let s := hostClear s
    match look s.oep.cqs q with
    | some x =>
      if head < x.size then
        cqDrain q x.wait.length { s with oep := { s.oep with cqs := put s.oep.cqs q { x with head := head } } }
      else s
    | none => s

/-- The opcode is one the controller supports (R314). -/
def opcodeOk (admin : Bool) (o : Nat) : Bool :=
  if admin then [0x06, 0x02, 0x05, 0x04, 0x01, 0x00, 0x08, 0x0A, 0x09, 0x0C].contains o else [0, 1, 2, 8, 9].contains o

/-- The queue whose turn it is, in round robin: it has a command waiting (R313). -/
def State.sqTurn (s : State) : Option Nat :=
  ((List.range 65).map (fun i => (s.oep.turn + i) % 65)).find? (fun q => match look s.oep.sqs q with
    | some x => x.head != x.tail
    | none => false)

/-- COMMAND_FETCH (R313, R332): one command of the queue whose turn it is. An error of the fetch is a detection and no more:
the spec names no effect of it. After a shutdown no command is taken (R331). A command of a queue that is being deleted
completes at once (R314), and so does a fifth Abort outstanding, which counts as missed (R322). -/
def execCommandFetch (q : Nat) (e : Sqe) (err : Option OepError) (s : State) : Res :=
  .next <|
    let s := hostClear s
    if !s.domOn dOEP || !s.b OEP_STATUS_rdy || s.oep.drain.isSome || s.oep.shst != 0 || s.sqTurn != some q then s
    else match look s.oep.sqs q with
      | none => s
      | some x =>
        let s := { s with oep := { s.oep with
          sqs := put s.oep.sqs q { x with head := (x.head + 1) % x.size }, turn := (q + 1) % 65 } }
        let s := (examDetect 0x4400 (err == some .poisoned) 0 0 s).2
        let s := (examDetect 0x4402 (err == some .parity) 0 0 (examDetect 0x4401 (err == some .timeout) 0 0 s).2).2
        let c : HostCmd := { id := s.oep.no, q := q, e := e }
        let aborts := s.oep.cmds.filter (fun x => x.q == 0 && x.e.opcode == 8 && x.stage == .fetched)
        let s := { s with oep := { s.oep with no := s.oep.no + 1, cmds := s.oep.cmds ++ [c] } }
        if x.dying.isSome then hostEnd c stSqDel 0 s
        else if !opcodeOk (q == 0) e.opcode then hostEnd c stOpcode 0 s
        else if e.psdt != 0 || e.fused != 0 then hostEnd c stField 0 s
        else if q = 0 && e.opcode = 8 && 4 ≤ aborts.length then hostEnd c stAbortLimit 0 (bump OEP_MISSED s)
        else s

/-- The fetched command of a queue with an identifier and opcode, not begun. -/
def State.fetched (s : State) (admin : Bool) (q cid op : Nat) : Option HostCmd :=
  if s.domOn dOEP && (q == 0) == admin then
    s.oep.cmds.find? (fun c => c.q == q && c.e.cid == cid && c.e.opcode == op && c.stage == .fetched)
  else none

/-- A command's own effect, if it stands fetched, after the pause of the one before (R441). An Abort and an event request
wait for no pause (DESIGN CHOICE, log 33: R322 gives an Abort 10 µs). -/
def onCmd (admin : Bool) (q cid op : Nat) (k : HostCmd → State → State) (s : State) : Res :=
  .next <|
    let s := hostClear s
    match s.fetched admin q cid op with
    | some c =>
      if admin && (op = 8 || op = 0xC) then k c s
      else
        let s := advanceTo s.oep.free s
        k c { s with oep := { s.oep with free := s.now + s.t1Pause Config.fclk } }
    | none => s

/-! ### Admin commands -/

/-- A namespace takes I/O (R318): it is active, and has been since its volume was last opened; one that failed there presents no
block. -/
def State.nsLive (s : State) (v : Nat) : Bool :=
  let st := s.f (RM_VOL_STATUS_state v)
  s.b (OEP_NS_STATUS_active v) && s.b (OEP_NS_CFG_en v) && decide (2 ≤ st ∧ st ≤ 4) && match look s.rm.vols v with
    | some x => x.shown
    | none => st == 4

/-- Bytes of the volume a namespace presents. -/
def nsSize (v : Nat) (s : State) : Nat := match look s.rm.vols v with
  | some x => x.total
  | none => 0

/-- Overlays a field on a data block. -/
def setAt (off : Nat) (bs : List Byte) (l : List Byte) : List Byte := l.take off ++ bs ++ l.drop (off + bs.length)

/-- Identify Controller data, with the names at OEP_IDENT (R315; places PRESUMED, log 55: NVMe 2.0). -/
def identCtrl (names : List Byte) (s : State) : List Byte :=
  List.replicate 4096 0
    |> setAt 0 (leBytes 2 (s.f OEP_PCI_ID_vid)) |> setAt 2 (leBytes 2 (s.f OEP_PCI_SUB_ssvid)) |> setAt 4 names
    |> setAt 77 (leBytes 1 8) |> setAt 258 (leBytes 1 3) |> setAt 259 (leBytes 1 3) |> setAt 512 (leBytes 1 0x66)
    |> setAt 513 (leBytes 1 0x44) |> setAt 516 (leBytes 4 4) |> setAt 520 (leBytes 2 0x000C) |> setAt 526 (leBytes 2 15)
    |> setAt 528 (leBytes 2 15)

/-- Identify Namespace data (R315). -/
def identNs (v : Nat) (s : State) : List Byte :=
  let n := leBytes 8 (nsSize v s)
  let b := List.replicate 4096 (0 : Byte)
  if s.nsLive v then
    b |> setAt 0 (n ++ n ++ n) |> setAt 24 (leBytes 1 2) |> setAt 34 (leBytes 2 15 ++ leBytes 2 15)
      |> setAt 40 (leBytes 2 15) |> setAt 44 (leBytes 2 15) |> setAt 128 (leBytes 4 (12 * 2 ^ 16))
  else b

/-- IDENTIFY (R315). -/
def execIdentify (q cid : Nat) (s : State) : Res :=
  onCmd true q cid 0x06 (fun c s =>
    match c.e.cdw10.toNat % 256 with
    | 0 =>
      if c.e.nsid = 0 || 4 < c.e.nsid then hostEnd c stNamespace 0 s
      else hostEnd c stOk 0 (toHost c (identNs (c.e.nsid - 1) s) s)
    | 1 =>
      let (names, s) := dmaTake 11 (s.pair OEP_IDENT_LO OEP_IDENT_HI) 68 s
      hostEnd c stOk 0 (toHost c (identCtrl names s) s)
    | 2 =>
      let l := (List.range 4).filter (fun v => s.nsLive v && decide (c.e.nsid < v + 1))
      hostEnd c stOk 0 (toHost c (slice (l.flatMap (fun v => leBytes 4 (v + 1))) 0 0 4096) s)
    | _ => hostEnd c stField 0 s) s

/-- An entry of a stream's partial index block in the mirror (R302). -/
def State.mirrorEntry (s : State) (k i : Nat) : List Byte := s.peeks (s.mirrorAt k + 0x80 + 32 * i) 32

/-- The recording-status record of stream `k`, from its mirror (R330). The last frame's entry lies at the end of the partial block,
or, that being empty, where the block just written had its last. A stream that closes or splits shows so. -/
def statusRecord (k : Nat) (s : State) : List Byte :=
  match s.mirrorHead k with
  | none => leBytes 16 0 ++ leBytes 8 (2 ^ 64 - 1) ++ leBytes 40 0
  | some h =>
    let n := leAt h 5 1
    let st := s.f (RM_STR_STATUS_state k)
    let last := if leAt h 24 4 = 0 then [] else s.mirrorEntry k (if n = 0 then 126 else n - 1)
    leBytes 2 (leAt h 6 2) ++ leBytes 1 (leAt h 22 1) ++ leBytes 1 (if st = 0 then leAt h 4 1 else st) ++ leBytes 4 (leAt h 24 4) ++
      leBytes 8 (leAt h 28 5) ++ leBytes 8 (if leAt h 48 5 = 2 ^ 40 - 1 then 2 ^ 64 - 1 else leAt h 48 5) ++ leBytes 4 n ++
      leBytes 4 (leAt last 12 4) ++ leBytes 4 (leAt last 16 4) ++ leBytes 28 0

/-- THM_MAX (signed 1/16 °C) in kelvins, rounded down (R317). -/
def thmKelvin (s : State) : Nat := (((BitVec.ofNat 16 (s.f THM_MAX_t)).toInt * 100 + 437040) / 1600).toNat

/-- A log page (R317), `fr` being the firmware revision at OEP_IDENT. What the spec does not say of the SMART page is open; the
places of the error entries are NVMe 2.0's (PRESUMED, log 55). -/
def logPage (lid : Nat) (fr : List Byte) (s : State) : Option (List Byte) :=
  match lid with
  | 0x01 => some (slice (s.oep.errs.flatMap (fun (n, q, cid, st, lba, ns) =>
      slice (leBytes 8 n ++ leBytes 2 q ++ leBytes 2 cid ++ leBytes 2 (st * 2) ++ leBytes 2 0 ++ leBytes 8 lba ++ leBytes 4 ns)
        0 0 64)) 0 0 1024)
  | 0x02 => some (leBytes 1 (if s.oep.tempHi || s.oep.tempLo then 2 else 0) ++ leBytes 2 (thmKelvin s) ++
      (List.range 509).map (fun i => Config.smartByte s.fresh (i + 3)))
  | 0x03 => some (slice (leBytes 8 1 ++ fr) 0 0 512)
  | 0xC0 => some ((List.range 8).flatMap (fun k => statusRecord k s))
  | n =>
    if 0xC1 ≤ n && n < 0xC9 then
      let k := n - 0xC1
      let valid := match s.mirrorHead k with
        | some h => leAt h 5 1
        | none => 0
      some (slice ((List.range valid).flatMap (s.mirrorEntry k)) 0 0 4096)
    else none

/-- GET_LOG_PAGE (R317). -/
def execGetLogPage (q cid : Nat) (s : State) : Res :=
  onCmd true q cid 0x02 (fun c s =>
    let lid := c.e.cdw10.toNat % 256
    let (fr, s) := if lid = 3 then dmaTake 11 (s.pair OEP_IDENT_LO OEP_IDENT_HI + 60) 8 s else ([], s)
    match logPage lid fr s with
    | none => hostEnd c stLogPage 0 s
    | some b =>
      let n := (c.e.cdw10.toNat / 2 ^ 16 + c.e.cdw11.toNat % 2 ^ 16 * 2 ^ 16 + 1) * 4
      hostEnd c stOk 0 (toHost c (slice b 0 c.e.cdw12.toNat n) (draw s).2)) s

/-- CREATE_IO_CQ (R313). -/
def execCreateIoCq (q cid : Nat) (s : State) : Res :=
  onCmd true q cid 0x05 (fun c s =>
    let id := c.e.cdw10.toNat % 2 ^ 16
    let n := c.e.cdw10.toNat / 2 ^ 16 + 1
    let vec := c.e.cdw11.toNat / 2 ^ 16
    if id = 0 || 64 < id || (look s.oep.cqs id).isSome then hostEnd c 0x101 0 s
    else if n < 2 || 4096 < n then hostEnd c 0x102 0 s
    else if vec = 0 || 64 < vec then hostEnd c 0x108 0 s
    else if !bitOf c.e.cdw11.toNat 0 then hostEnd c stField 0 s
    else
      let x : CqSt := {
        size := n, vec := vec, base := c.e.prp1.toNat, ien := bitOf c.e.cdw11.toNat 1
      }
      hostEnd c stOk 0 { s with oep := { s.oep with cqs := put s.oep.cqs id x } }) s

/-- DELETE_IO_CQ (R314). -/
def execDeleteIoCq (q cid : Nat) (s : State) : Res :=
  onCmd true q cid 0x04 (fun c s =>
    let id := c.e.cdw10.toNat % 2 ^ 16
    if id = 0 || (look s.oep.cqs id).isNone then hostEnd c 0x101 0 s
    else if s.oep.sqs.any (fun x => x.2.cq == id) then hostEnd c stQueueDel 0 s
    else hostEnd c stOk 0 { s with oep := { s.oep with cqs := del s.oep.cqs id } }) s

/-- CREATE_IO_SQ (R313). -/
def execCreateIoSq (q cid : Nat) (s : State) : Res :=
  onCmd true q cid 0x01 (fun c s =>
    let id := c.e.cdw10.toNat % 2 ^ 16
    let n := c.e.cdw10.toNat / 2 ^ 16 + 1
    let cq := c.e.cdw11.toNat / 2 ^ 16
    if id = 0 || 64 < id || (look s.oep.sqs id).isSome then hostEnd c 0x101 0 s
    else if n < 2 || 4096 < n then hostEnd c 0x102 0 s
    else if cq = 0 || (look s.oep.cqs cq).isNone then hostEnd c 0x100 0 s
    else if !bitOf c.e.cdw11.toNat 0 then hostEnd c stField 0 s
    else hostEnd c stOk 0 { s with oep := { s.oep with sqs := put s.oep.sqs id { size := n, cq := cq, base := c.e.prp1.toNat } } }) s

/-- DELETE_IO_SQ (R314): commands not yet started complete as aborted, those the host has submitted as they are fetched; the
started ones complete, and then the deletion. -/
def execDeleteIoSq (q cid : Nat) (s : State) : Res :=
  onCmd true q cid 0x00 (fun c s =>
    let id := c.e.cdw10.toNat % 2 ^ 16
    match look s.oep.sqs id with
    | none => hostEnd c 0x101 0 s
    | some x =>
      if id = 0 || x.dying.isSome then hostEnd c 0x101 0 s
      else
        let s := s.oep.cmds.foldl (fun s x =>
          if x.q == id && (x.stage == .fetched || x.stage == .lock || x.stage == .slot) then hostEnd x stSqDel 0 s else s) s
        let s := modCmd c.id (fun c => { c with stage := .run }) s
        sqReap { s with oep := { s.oep with sqs := put s.oep.sqs id { x with dying := some c.id } } }) s

/-- ABORT (R322). -/
def execAbort (q cid : Nat) (s : State) : Res :=
  onCmd true q cid 0x08 (fun c s =>
    let sq := c.e.cdw10.toNat % 2 ^ 16
    let id := c.e.cdw10.toNat / 2 ^ 16
    match s.oep.cmds.find? (fun x => x.q == sq && x.e.cid == id && sq != 0 &&
        (x.stage == .fetched || x.stage == .lock || x.stage == .slot)) with
    | some x => hostEnd c stOk 0 (bump OEP_CAUGHT (hostEnd x stAbortReq 0 s))
    | none => hostEnd c stOk 1 (bump OEP_MISSED s)) s

/-- The sense of a temperature threshold (R316; NVMe 2.0, PRESUMED, log 55): 0 over, 1 under, of the composite temperature alone. -/
def thresholdSense (v : Nat) : Option Nat :=
  let (sel, sense) := (v / 2 ^ 16 % 16, v / 2 ^ 20 % 4)
  if (sel = 0 || sel = 15) && sense < 2 then some sense else none

/-- The value of a feature (R316), `sel` being the command's doubleword 11. -/
def featValue (fid sel : Nat) (s : State) : Option Nat :=
  match fid with
  | 0x01 | 0x02 | 0x08 | 0x0B => some (lookD s.oep.feats 0 (featKey fid 0))
  | 0x09 => if sel % 2 ^ 16 < 65 then some (sel % 2 ^ 16 + lookD s.oep.feats 0 (featKey 9 (sel % 2 ^ 16)) / 2 ^ 16 % 2 * 2 ^ 16) else none
  | 0x04 => (thresholdSense sel).map (fun t => lookD s.oep.feats (if t = 0 then 0xFFFF else 0) (featKey 4 t))
  | 0x06 => some 0
  | 0x07 => some (63 + 63 * 2 ^ 16)
  | _ => none

/-- GET_FEATURES (R316). -/
def execGetFeatures (q cid : Nat) (s : State) : Res :=
  onCmd true q cid 0x0A (fun c s =>
    match featValue (c.e.cdw10.toNat % 256) c.e.cdw11.toNat s with
    | some v => hostEnd c stOk v s
    | none => hostEnd c stField 0 s) s

/-! Asynchronous events -/

/-- Tells the host of an event through a held request, or owes it. -/
def notify (dw0 : Nat) (s : State) : State :=
  match s.oep.aers with
  | (q, cid) :: t => post q cid stOk dw0 { s with oep := { s.oep with aers := t } }
  | [] => if s.oep.notes.contains dw0 then s else { s with oep := { s.oep with notes := s.oep.notes ++ [dw0] } }

/-- The THM maximum against the temperature thresholds (R316): the SMART temperature event, once per crossing. -/
def oepTempCheck (s : State) : State :=
  let hi := decide (lookD s.oep.feats 0xFFFF (featKey 4 0) ≤ thmKelvin s)
  let lo := decide (thmKelvin s ≤ lookD s.oep.feats 0 (featKey 4 1))
  let new := (hi && !s.oep.tempHi) || (lo && !s.oep.tempLo)
  let s := { s with oep := { s.oep with tempHi := hi, tempLo := lo } }
  if new && s.domOn dOEP && bitOf (lookD s.oep.feats 0 (featKey 0x0B 0)) 1 then notify (0x01 + 0x01 * 2 ^ 8 + 0x02 * 2 ^ 16) s else s

/-- SET_FEATURES (R316): a feature is not saveable. -/
def execSetFeatures (q cid : Nat) (s : State) : Res :=
  onCmd true q cid 0x09 (fun c s =>
    let fid := c.e.cdw10.toNat % 256
    let v := c.e.cdw11.toNat
    if bitOf c.e.cdw10.toNat 31 then hostEnd c 0x10D 0 s
    else match fid with
      | 0x06 => hostEnd c stField 0 s
      | 0x07 => hostEnd c stOk (63 + 63 * 2 ^ 16) s
      | 0x02 => if v % 32 = 0 then hostEnd c stOk 0 s else hostEnd c stField 0 s
      | 0x04 => match thresholdSense v with
        | some t => oepTempCheck (hostEnd c stOk 0 { s with oep := { s.oep with feats := put s.oep.feats (featKey 4 t) (v % 2 ^ 16) } })
        | none => hostEnd c stField 0 s
      | 0x09 =>
        if v % 2 ^ 16 < 65 then hostEnd c stOk 0 { s with oep := { s.oep with feats := put s.oep.feats (featKey 9 (v % 2 ^ 16)) v } }
        else hostEnd c stField 0 s
      | 0x01 | 0x08 | 0x0B => hostEnd c stOk 0 { s with oep := { s.oep with feats := put s.oep.feats (featKey fid 0) v } }
      | _ => hostEnd c stField 0 s) s

/-- ASYNCHRONOUS_EVENT_REQUEST (R314): held until an event; AERL 3 allows four. -/
def execAsynchronousEventRequest (q cid : Nat) (s : State) : Res :=
  onCmd true q cid 0x0C (fun c s =>
    if 4 ≤ s.oep.aers.length then hostEnd c 0x105 0 s
    else match s.oep.notes with
      | n :: t => hostEnd c stOk n { s with oep := { s.oep with notes := t } }
      | [] => hostGone c.id { s with oep := { s.oep with aers := s.oep.aers ++ [(c.q, c.e.cid)] } }) s

/-! ### I/O commands (R319 to R321, R327) -/

/-- A checked command asks for its lock over its range and goes on when it has it; a Write's data comes from the host, each
transfer an examination (R332). -/
def ioStart (c : HostCmd) (first n : Nat) (s : State) : State :=
  let v := c.e.nsid - 1
  let c := { c with vol := v, first := first, blocks := n, stage := .lock, data := slice c.e.data 0 0 (n * 4096) }
  let c := if c.e.opcode = 1 then c else { c with data := [] }
  let s := modCmd c.id (fun _ => c) s
  let s := if c.e.opcode = 1 then (examDetect 0x4401 false 0 0 (examDetect 0x4400 false 0 0 s).2).2 else s
  let (ok, s) := lockAsk (.host c.id) v first n (c.e.opcode != 2) s
  if ok then hostGo c s else s

/-- Read, Write or Write Zeroes over its range. -/
def ioCmd (c : HostCmd) (s : State) : State :=
  let v := c.e.nsid - 1
  let (first, n) := sqeRange c.e
  if c.e.nsid = 0 || 4 < c.e.nsid || !s.nsLive v then hostEnd c stNamespace 0 s
  else if c.e.opcode != 8 && decide (256 < n) then hostEnd c stField 0 s
  else match rangeCheck v first n (c.e.opcode == 2) s with
    | some st => hostEnd c st 0 s
    | none => ioStart c first n s

/-- NVM_READ (R319). -/
def execNvmRead (q cid : Nat) (s : State) : Res := onCmd false q cid 2 ioCmd s

/-- NVM_WRITE (R320). -/
def execNvmWrite (q cid : Nat) (s : State) : Res := onCmd false q cid 1 ioCmd s

/-- WRITE_ZEROES (R314). -/
def execWriteZeroes (q cid : Nat) (s : State) : Res := onCmd false q cid 8 ioCmd s

/-- FLUSH (R321). -/
def execFlush (q cid : Nat) (s : State) : Res :=
  onCmd false q cid 0 (fun c s =>
    if c.e.nsid != 0xFFFFFFFF && (c.e.nsid = 0 || 4 < c.e.nsid || !s.nsLive (c.e.nsid - 1)) then
      hostEnd c stNamespace 0 s
    else hostEnd c stOk 0 s) s

/-- Of the statuses that a command's ranges fail with, that of the first failing check of R319. -/
def firstFailing (l : List Nat) : Option Nat :=
  [stRange, stProtected, stDenied, stReadErr, stWriteFault, stNotReady].find? l.contains

/-- DATASET_MANAGEMENT (R314): Deallocate of up to 256 ranges, under one lock over all of them. -/
def execDatasetManagement (q cid : Nat) (s : State) : Res :=
  onCmd false q cid 9 (fun c s =>
    let v := c.e.nsid - 1
    if c.e.nsid = 0 || 4 < c.e.nsid || !s.nsLive v then hostEnd c stNamespace 0 s
    else if !bitOf c.e.cdw11.toNat 2 then hostEnd c stOk 0 s
    else match firstFailing (c.ranges.filterMap (fun r => rangeCheck v r.1 r.2 false s)) with
      | some st => hostEnd c st 0 s
      | none =>
        let lo := (c.ranges.map (·.1)).foldl min (2 ^ 64)
        let hi := (c.ranges.map (fun r => r.1 + r.2)).foldl max 0
        ioStart c lo (hi - lo) s) s

/-- A granted request's owner goes on. -/
def lockResume (o : RmOwner) (s : State) : State :=
  match o with
  | .flight k no => flightIssue k no s
  | .host id => match s.hostCmd id with
    | some c => hostGo c s
    | none => s
  | .task _ => s

/-- A flight that waited for a lock when the endpoint, and its table, lost power. -/
def State.stalled (s : State) : Option (Nat × Nat) :=
  ((List.range 8).filterMap (fun k => ((s.str k).flights.find? (fun f => !f.issued)).map (fun f => (k, f.no)))).head?

/-- LOCK_GRANT (R328). With no table the recorder waits for nothing. -/
def execLockGrant (s : State) : Res :=
  .next <|
    let s := hostClear s
    if s.domOn dOEP then
      match s.nextLock with
      | some i => match s.oep.locks[i]? with
        | some a => lockResume a.owner (lockGrant i s)
        | none => s
      | none => s
    else match s.stalled with
      | some (k, no) => flightIssue k no s
      | none => s

/-! ### Namespaces (R318, R326) -/

/-- A namespace follows its volume and its enable (R318): becoming active it must replay first (R326). -/
def nsActivate (v : Nat) (s : State) : State :=
  let st := s.f (RM_VOL_STATUS_state v)
  let want := s.b (OEP_NS_CFG_en v) && decide (2 ≤ st ∧ st ≤ 4)
  if want == s.b (OEP_NS_STATUS_active v) && want == s.nsLive v then s
  else
    let s := setF (OEP_NS_STATUS_active v) (if want then 1 else 0) (modVol v (fun x => { x with shown := want }) s)
    let s := setF (OEP_NS_STATUS_replaying v) (if want then 1 else 0) s
    if bitOf (lookD s.oep.feats 0 (featKey 0x0B 0)) 8 then notify (0x02 + 0x04 * 2 ^ 16) s else s

/-- NAMESPACE_ACTIVATE (R318). -/
def execNamespaceActivate (v : Nat) (s : State) : Res :=
  guardOk (decide (v < 4)) (if s.domOn dOEP then nsActivate v (hostClear s) else s)

/-- The journal of a namespace is read, to be replayed (R326); a volume that failed while it was opened has none to read. -/
def replay (v : Nat) (s : State) : State :=
  match look s.rm.vols v with
  | none => if s.b (OEP_NS_STATUS_replaying v) then taskEnd (.replayed v 0) s else s
  | some x =>
    if !s.b (OEP_NS_STATUS_replaying v) || (look s.rm.opens v).isSome || s.rm.tasks.any (fun t => match t.2.fin with
        | .replayed w _ => w == v
        | _ => false) then s
    else
      let reads := (x.pieces (s.volLimit x) 272 (s.slotVbn v 0) 272 0).filterMap (fun (p, b, k, _) =>
        (s.holders x p).head?.map (fun m => (m, b, k)))
      openPump (openReads v { step := 7 } reads s)

/-- JOURNAL_REPLAY (R326). -/
def execJournalReplay (v : Nat) (s : State) : Res :=
  guardOk (decide (v < 4)) (if s.domOn dOEP && s.domOn dRM then replay v (hostClear s) else s)

/-- A write of OEP_NSv_AJ: refused while the namespace is enabled (R324). -/
def ajWrite (v a : Nat) (w : Word) (s : State) : State :=
  if s.b (OEP_NS_CFG_en v) then flag OEP_STATUS_bad_write s else plainWrite a w s

end Sys2Proof.Machine
end

