-- ==== Sys2Proof/Machine/Thm.lean ====
section
/-! DEFINITION. Thermal sensing and throttling (R434 to R440, R443), the sage watchdog (R430), the core voltage
(R432) and the PMBus controller (R433). -/

namespace Sys2Proof.Machine

open Sys2Proof.Config (ms us)

/-- Changes the thermal block. -/
def modThm (f : ThmSt → ThmSt) (s : State) : State := { s with thm := f s.thm }

/-- Changes the power controller. -/
def modPwr (f : PwrSt → PwrSt) (s : State) : State := { s with pwr := f s.pwr }

/-! ### Sensors (R434 to R437). Readings are in 1/16 °C. -/

/-- Sensor `i`. -/
def State.sens (s : State) (i : Nat) : SensSt := lookD s.thm.sens {} i

/-- Changes sensor `i`. -/
def modSens (i : Nat) (f : SensSt → SensSt) (s : State) : State :=
  modThm (fun t => { t with sens := put t.sens i (f (s.sens i)) }) s

/-- Sensor `i` is broken (R436). -/
def State.broken (s : State) (i : Nat) : Bool := bitOf (s.f THM_BROKEN_broken) i

/-- Stores a reading of sensor `i`. -/
def sensTake (i : Nat) (r : Int) (s : State) : State :=
  let x := s.sens i
  let same := if x.seen && x.last == r then x.same + 1 else 1
  setF (THM_SENS_t i) (r % 65536).toNat (modSens i (fun x => { x with last := r, seen := true, same := same }) s)

/-- The last reading of sensor `i` meets a condition of R436. -/
def State.sensBad (s : State) (i : Nat) : Bool :=
  let x := s.sens i
  let far (j : Nat) : Bool := !s.broken j && (s.sens j).seen && decide (320 < (x.last - (s.sens j).last).natAbs)
  decide (x.last < -880) || decide (2400 < x.last) || decide (16 ≤ x.same) || (far ((i + 1) % 16) && far ((i + 15) % 16))

/-- Judges sensor `i` at a reading (R436): broken at once, valid again after 16 good readings once readmitted. -/
def sensJudge (i : Nat) (s : State) : State :=
  let (bad, s) := examDetect 0x0300 (s.sensBad i) i 0 s
  if s.broken i then
    let x := s.sens i
    let good := if bad then 0 else x.good + 1
    if x.readm && decide (16 ≤ good) then
      setF THM_BROKEN_broken (s.f THM_BROKEN_broken - 2 ^ i) (modSens i (fun x => { x with good := 0, readm := false }) s)
    else modSens i (fun x => { x with good := good }) s
  else if bad then
    raise 0x03 1 i (setF THM_BROKEN_broken (s.f THM_BROKEN_broken + 2 ^ i) (modSens i (fun x => { x with good := 0, readm := false }) s))
  else s

/-- THM_MAX, the highest reading of a valid sensor, and the report of too few (R434, R437). -/
def sensMax (s : State) : State :=
  let valid := (List.range 16).filter (fun i => !s.broken i && (s.sens i).seen)
  let s := match valid with
    | [] => s
    | i :: t =>
      let m := t.foldl (fun m j => max m (s.sens j).last) (s.sens i).last
      setF THM_MAX_t (m % 65536).toNat s
  let n := s.validSensors
  if n < 8 then
    if s.thm.lowTold then s else raise 0x03 2 n (modThm (fun t => { t with lowTold := true }) s)
  else modThm (fun t => { t with lowTold := false }) s

/-- THM_MAX as a number. -/
def State.thmMax (s : State) : Int := (BitVec.ofNat 16 (s.f THM_MAX_t)).toInt

/-- Threshold `k` (R440). -/
def State.thr (s : State) (k : Nat) : Int := match k with
  | 1 => (s.f THM_THR_t1 : Nat)
  | 2 => (s.f THM_THR_t2 : Nat)
  | _ => 2000

/-- The level that THM_MAX and the hysteresis give (R437, R440). -/
def State.levelNow (s : State) : Nat :=
  let cur := s.f THM_LEVEL_level
  let held (k : Nat) : Bool :=
    decide (s.thr k ≤ s.thmMax) || (k ≤ cur && decide (s.thr k - (s.f THM_THR_hyst : Nat) ≤ s.thmMax))
  let l := if held 3 then 3 else if held 2 then 2 else if held 1 then 1 else 0
  let n := s.validSensors
  max l (if n = 0 then 2 else if n < 8 then 1 else 0)

/-- A new level takes effect (R440, R442); T3 closes every recording stream and starts its times (R443). -/
def levelSet (s : State) : State :=
  let cur := s.f THM_LEVEL_level
  let new := s.levelNow
  if new = cur then s
  else
    let s := raise 0x03 0 new (setF THM_LEVEL_level new s)
    let s := if 2 ≤ new && cur < 2 then modThm (fun t => { t with t2Told := [] }) s else s
    if new = 3 then
      let s := if s.domOn dRM then (List.range 8).foldl (fun s k => strCtrlWrite k 2 s) s else s
      modPwr (fun p => { p with t3At := some s.now, t3Grace := some (s.now + s.f THM_T3_grace_ms * ms) }) s
    else s

/-! ### Wake (R424 to R426) -/

/-- The AON seconds counter. -/
def State.aonSec (s : State) : Nat := (s.pwr.aonBase + (s.now - s.pwr.aonAt) / (1000 * ms)) % 2 ^ 48

/-- A Sleep that level T3 entered still ignores its wake sources (R424). -/
def State.tooHot (s : State) : Bool := s.pwr.thermal && decide (s.thr 1 - (s.f THM_THR_hyst : Nat) ≤ s.thmMax)

/-- The wake begins: CTRL powers up on the RC clock with the levels at its pads (R395), the time restarts from the AON
seconds, and a warm boot is due (R363, R425, R426, R429). -/
def wakeUp (source : Nat) (s : State) : State :=
  let sec := s.aonSec
  let s := setF PWR_WAKE_cause (source + 1) s
  let s := setF PWR_RST_CAUSE_cause (s.f PWR_RST_CAUSE_cause ||| 2 ^ 8) s
  let s := { s with tsu := { sec := sec } }
  let s := setF TSU_STATUS_valid 0 s
  let s := setF PWR_CLK_fab 0 (setF PWR_CLK_mem 0 (setF PWR_CLK_ctrl 0 s))
  let s := setF MON_UART_CFG_rate 115200 s
  let s := setF PWR_STATE_state 0 (setF PWR_STATUS_on 1 s)
  let s := modPwr (fun p => { p with
    thermal := false, wakeHeld := none, bootDue := true, bootWarm := true, clkLost := false
    pllDue := some (s.now + 100 * us), wdtDue := s.now + s.f PWR_WDT_CFG_ms * ms
    onSince := [(0, s.now)], padTold := [] }) s
  let s := { s with cfg := { s.cfg with released := false } }
  let s := (examDetect 0x0203 false 0 0 s).2
  pwrNext (padsUp dCTRL (raise 0x02 6 (source + 1) s))

/-- A held source starts the wake once the state reads SLEEP and the chip is cool enough (R423, R424). -/
def heldWake (s : State) : State := match s.pwr.wakeHeld with
  | some k => if s.f PWR_STATE_state = 3 && !s.tooHot then wakeUp k s else s
  | none => s

/-- After readings: the maximum, the level, the endpoint's temperature threshold and a held wake. -/
def thmSettle (s : State) : State := heldWake (oepTempCheck (levelSet (sensMax s)))

/-- Sensor `i` is sampled fast: its last reading is within 5 °C of T1 or above (R435). -/
def fastMark (i : Nat) (s : State) : State :=
  let on := decide (s.thr 1 - 80 ≤ (s.sens i).last)
  modThm (fun t => { t with fastDue := if on then put t.fastDue i (lookD t.fastDue (s.now + 250 * us) i) else del t.fastDue i }) s

/-! ### Voltage monitors and oscillators (R438, R439) -/

/-- Voltage monitor `v` at a reading in mV. -/
def vmonJudge (v r : Nat) (s : State) : State :=
  let out := decide (r < s.f (THM_VMON_lo v)) || decide (s.f (THM_VMON_hi v) < r)
  let (e, s) := examine 0x0301 out s
  let once := s.thm.vmonBad.contains v
  let told := s.thm.vmonBad.contains (v + 32)
  if e.err then
    if once then
      lasting 1 0x0301 e.inj v 0 (raise 0x03 4 v (modThm (fun t => { t with vmonBad := (v + 32) :: t.vmonBad.filter (· != v) }) s))
    else if told then s
    else modThm (fun t => { t with vmonBad := v :: t.vmonBad }) s
  else if once then
    transient 0x0301 false v 0 (bump THM_VMON_TRANS (modThm (fun t => { t with vmonBad := t.vmonBad.filter (· != v) }) s))
  else if told then modThm (fun t => { t with vmonBad := t.vmonBad.filter (· != v + 32) }) s
  else s

/-- The oscillator trims of a round (R439). -/
def trimJudge (pass : Bool) (s : State) : State :=
  let (e, s) := examine 0x0302 (!pass) s
  let bad := s.thm.trimBad
  if e.err then
    let s := modThm (fun t => { t with trimBad := bad + 1 }) s
    if bad = 1 then lasting 1 0x0302 e.inj 0 0 (raise 0x03 5 0 (setF THM_CLK_trim_pass 0 s)) else s
  else
    let s := flag THM_CLK_trim_pass (modThm (fun t => { t with trimBad := 0 }) s)
    if bad = 1 then transient 0x0302 false 0 0 s else s

/-- THERMAL_SLOW_ROUND (R435): every sensor, the 32 voltage monitors, and the trims. -/
def execThermalSlowRound (readings : List Int) (volts : List Nat) (trims : Bool) (s : State) : Res :=
  guardOk (readings.length == 16 && volts.length == 32) <|
    if s.pwr.testHold then s else
    let due := s.thm.slowDue + 10 * ms
    let s := advanceTo due s
    let s := modThm (fun t => { t with slowDue := max due (s.now / (10 * ms) * (10 * ms)) }) s
    let s := (List.range 16).foldl (fun s i => sensTake i (readings.getD i 0) s) s
    let s := (List.range 16).foldl (fun s i => fastMark i (sensJudge i s)) s
    let s := thmSettle s
    let s := (List.range 32).foldl (fun s v => vmonJudge v (volts.getD v 0) s) s
    trimJudge trims s

/-- THERMAL_FAST_SAMPLE (R435). -/
def execThermalFastSample (i : Nat) (reading : Int) (s : State) : Res :=
  guardOk (decide (i < 16)) <|
    match (if s.pwr.testHold then none else look s.thm.fastDue i) with
    | none => s
    | some due =>
      let s := advanceTo due s
      let s := modThm (fun t => { t with fastDue := put t.fastDue i (s.now + 250 * us) }) s
      thmSettle (sensJudge i (sensTake i reading s))

/-- A write of THM_READMIT (R436). -/
def thmReadmitWrite (v : Word) (s : State) : State :=
  (List.range 16).foldl (fun s i =>
    if bitOf v.toNat i && s.broken i then modSens i (fun x => { x with readm := true, good := 0 }) s else s) s

/-- SENSOR_READMIT. -/
def execSensorReadmit (r : Requester) (v : Word) (s : State) : Res :=
  .next (writeBy r THM_READMIT (thmReadmitWrite v) s)

/-- A write of THM_THR keeps t1 < t2 < 125 °C, or is refused (R440). -/
def thrWrite (v : Word) (s : State) : State :=
  let t1 := bitsOf v.toNat 11 0
  let t2 := bitsOf v.toNat 23 12
  if t1 < t2 && t2 < 2000 then plainWrite THM_THR v s else flag PWR_CFG_STATUS_bad_write s

/-- A write of THM_T2; a divisor of 0 is refused (R442). -/
def t2Write (v : Word) (s : State) : State :=
  if bitsOf v.toNat 3 0 = 0 then flag PWR_CFG_STATUS_bad_write s else plainWrite THM_T2 v s

/-! ### Watchdog (R430) -/

/-- The watchdog expires; a hard reset follows after 10 µs. -/
def wdtExpire (s : State) : State :=
  if s.pwr.wdtFired.isSome then s
  else
    let s := (examDetect 0x0200 true 0 0 s).2
    raise 0x02 9 0 (modPwr (fun p => { p with wdtFired := some (s.now + 10 * us) }) s)

/-- The watchdog starts its count. -/
def wdtRestart (s : State) : State := modPwr (fun p => { p with wdtDue := s.now + s.f PWR_WDT_CFG_ms * ms, wdtHalf := false }) s

/-- A write of PWR_WDT_CFG: from sage alone, and never with ms = 0. -/
def wdtCfgWrite (r : Requester) (v : Word) (s : State) : State :=
  if r != .sage || bitsOf v.toNat 15 0 = 0 then flag PWR_CFG_STATUS_bad_write s
  else wdtRestart (plainWrite PWR_WDT_CFG v s)

/-- A write of PWR_WDT_KICK (R430). -/
def wdtKickWrite (r : Requester) (v : Word) (s : State) : State :=
  if r != .sage then flag PWR_CFG_STATUS_bad_write s
  else
    let k := bitsOf v.toNat 7 0
    let (e, s) := examine 0x0200 false s
    if e.err && s.b PWR_WDT_CFG_en then
      raise 0x02 9 0 (detect 0x0200 true 0 0 (modPwr (fun p => { p with wdtFired := some (s.now + 10 * us) }) s))
    else if k = 0xA5 then modPwr (fun p => { p with wdtHalf := true }) s
    else if k = 0x5A && s.pwr.wdtHalf then wdtRestart s
    else if s.b PWR_WDT_CFG_en then wdtExpire s
    else s

/-- WDT_KICK. -/
def execWdtKick (r : Requester) (v : Word) (s : State) : Res :=
  .next (writeBy r PWR_WDT_KICK (wdtKickWrite r v) s)

/-- WDT_EXPIRED: the count runs out; it stops in Sleep. -/
def execWdtExpired (s : State) : Res :=
  .next (if s.b PWR_WDT_CFG_en && s.f PWR_STATE_state != 3 && !s.pwr.testHold then wdtExpire (advanceTo s.pwr.wdtDue s) else s)

/-! ### Core voltage (R432) -/

/-- A write of PWR_AVS_CFG: limits from 680 to 850 mV in order; enabling starts afresh within them. -/
def avsCfgWrite (v : Word) (s : State) : State :=
  let lo := bitsOf v.toNat 19 12
  let hi := bitsOf v.toNat 27 20
  if lo < 136 || 170 < hi || hi < lo then flag PWR_CFG_STATUS_bad_write s
  else
    let was := s.b PWR_AVS_CFG_en
    let s := plainWrite PWR_AVS_CFG v s
    let s := setF PWR_AVS_STATUS_vout (min (max (s.f PWR_AVS_STATUS_vout) (lo * 5)) (hi * 5)) s
    if !was && s.b PWR_AVS_CFG_en then
      modPwr (fun p => { p with avsDead := false, avsPass := 0, avsMode := none, avsWait := none }) s
    else s

/-- One transaction of the AVS engine by the outcomes of its tries: retried once, and after a second failure the engine
sends nothing more (R432). The answer is the try that went through. -/
def avsTwice (ok : Nat → Bool) (s : State) : Option Nat × State :=
  let (a, s) := examine 0x0202 (!ok 0) s
  if a.err then
    let (b, s) := examine 0x0202 (!ok 1) s
    if b.err then
      let s := lasting 1 0x0202 (a.inj || b.inj) 0 0 s
      (none, raise 0x02 8 0 (flag PWR_AVS_STATUS_avs_fail (modPwr (fun p => { p with avsDead := true }) s)))
    else (some 1, transient 0x0202 a.inj 0 0 s)
  else (some 0, s)

/-- The word of VOUT_COMMAND for `mv` in the linear mode of a VOUT_MODE byte (PRESUMED 45, PMBus; floored). -/
def linearWord (mode mv : Nat) : Nat :=
  let e := mode % 32
  (if 16 ≤ e then mv * 2 ^ (32 - e) / 1000 else mv / (1000 * 2 ^ e)) % 65536

/-- Notes an AVS transaction on PMBus (R432). -/
def avsNote (code op data : Nat) (s : State) : State :=
  modPwr (fun p => { p with avsSent := p.avsSent ++ [(code, s.f PWR_AVS_CFG_avs_addr, op, true, data)] }) s

/-- The read of VOUT_MODE that follows an enable on PMBus; a mode other than the linear one is a failure (R432). -/
def avsReadMode (modes : List (Option Nat)) (s : State) : State :=
  if s.b PWR_AVS_CFG_bus || s.pwr.avsMode.isSome || s.pwr.avsDead then s
  else match avsTwice (fun i => decide ((modes.getD i (some 0x17)).getD 0xFF / 32 = 0)) (avsNote 0x20 2 0 s) with
    | (some i, s) => modPwr (fun p => { p with avsMode := modes.getD i (some 0x17) }) s
    | (none, s) => s

/-- The voltage command of the target in force, on the bus that is set (R432). -/
def avsVolt (sent : List Bool) (s : State) : State :=
  if s.pwr.avsDead then s
  else
    let mv := s.f PWR_AVS_STATUS_vout
    let s := if s.b PWR_AVS_CFG_bus then modPwr (fun p => { p with avsBus := p.avsBus ++ [mv] }) s
      else avsNote 0x21 1 (linearWord (s.pwr.avsMode.getD 0) mv) s
    (avsTwice (fun i => sent.getD i true) s).2

/-- The AVS engine's transactions of one interval; on PMBus they wait for a firmware transaction in progress (R433). -/
def avsGo (moved : Bool) (modes : List (Option Nat)) (sent : List Bool) (s : State) : State :=
  if !s.b PWR_AVS_CFG_bus && s.pwr.pmbBusy.isSome then
    let owed := moved || (match s.pwr.avsWait with
      | some w => w.1
      | none => false)
    if moved || s.pwr.avsMode.isNone then modPwr (fun p => { p with avsWait := some (owed, modes, sent) }) s else s
  else
    let s := avsReadMode modes (modPwr (fun p => { p with avsSent := [], avsBus := [] }) s)
    if moved then avsVolt sent s else s

/-- AVS_INTERVAL (R432): whether a monitor fails, whether every one passes at the guard level, and how the tries of the
transactions it leads to end: VOUT_MODE's byte or none, and whether the voltage command went through. -/
def execAvsInterval (anyFail allGuard : Bool) (modes : List (Option Byte)) (sent : List Bool) (s : State) : Res :=
  .next <|
    if !s.b PWR_AVS_CFG_en || s.pwr.avsDead then s
    else
      let s := advanceTo ((s.now / ms + 1) * ms) s
      let vout := s.f PWR_AVS_STATUS_vout
      let lo := s.f PWR_AVS_CFG_vmin * 5
      let hi := s.f PWR_AVS_CFG_vmax * 5
      let pass := if anyFail || !allGuard then 0 else s.pwr.avsPass + 1
      let fall := decide (100 ≤ pass) && s.f THM_LEVEL_level == 0
      let new := if anyFail then min (vout + 10) hi else if fall then max (vout - 5) lo else vout
      let s := modPwr (fun p => { p with avsPass := if fall then 0 else pass }) s
      avsGo (new != vout) (modes.map (fun m => m.map (·.toNat))) sent (setF PWR_AVS_STATUS_vout new s)

/-! ### PMBus controller (R433) -/

/-- A write of PMB_CMD or PMB_DATA, only while no transaction runs. -/
def pmbRegWrite (a : Nat) (v : Word) (s : State) : State :=
  if s.b PMB_STATUS_busy then flag PMB_STATUS_bad_write s else plainWrite a v s

/-- A write of PMB_CTRL. -/
def pmbCtrlWrite (v : Word) (s : State) : State :=
  if !bitOf v.toNat 0 then s
  else if s.b PMB_STATUS_busy then flag PMB_STATUS_bad_write s
  else
    flag PMB_STATUS_busy (modPwr (fun p => { p with
      pmbBusy := some (s.f PMB_CMD_cmd, s.f PMB_CMD_addr, s.f PMB_CMD_op, s.b PMB_CMD_pec, s.f PMB_DATA_data) }) s)

/-- PMB_TRANSACTION: a write of PMB_CTRL with go = 1. -/
def execPmbTransaction (r : Requester) (v : Word) (s : State) : Res :=
  .next (writeBy r PMB_CTRL (pmbCtrlWrite (setBits v 0 0 1)) s)

/-- The AVS engine's transactions that waited at the transaction boundary go first (R433). -/
def avsResume (s : State) : State := match s.pwr.avsWait with
  | some (moved, modes, sent) =>
    let s := modPwr (fun p => { p with avsWait := none }) s
    if s.b PWR_AVS_CFG_en && !s.pwr.avsDead then avsGo moved modes sent s else s
  | none => s

/-- PMB_DONE: the transaction ends; a read leaves its data, and PEC is checked only on a read with pec = 1. -/
def execPmbDone (res : PmbResult) (s : State) : Res :=
  .next (match s.pwr.pmbBusy with
    | none => s
    | some (_, addr, op, pec, _) =>
      let s := setF PMB_STATUS_busy 0 (modPwr (fun p => { p with pmbBusy := none }) s)
      let s := match res with
        | .ok d => if op = 2 then setF PMB_DATA_data (d.toNat % 256) s else if op = 3 then setF PMB_DATA_data d.toNat s else s
        | .nack => flag PMB_STATUS_nack s
        | .pecError => if pec && 2 ≤ op then flag PMB_STATUS_pec_err s else s
      avsResume (raise 0x58 6 addr (flag PMB_STATUS_done s)))

/-- PMB_ALERT: a falling edge of PMB_ALERT_N. -/
def execPmbAlert (s : State) : Res := .next (raise 0x58 4 0 s)

end Sys2Proof.Machine
end

