-- ==== Sys2Proof/Machine/Sleep.lean ====
section
/-! DEFINITION. Sleep, wake and the resets (R422 to R429, R443). -/

namespace Sys2Proof.Machine

open Sys2Proof.Config (ms us)

/-! ### AON seconds (R423, R429, R439) -/

/-! ### What a reset drops -/

/-- Every unit loses the state no register shows. -/
def dropUnits (s : State) : State := (List.range 31).foldl (fun s d => dropUnit d s) s

/-- Keeps the bytes of memory that `p` picks. -/
def keepMem (p : Nat → Bool) (s : State) : State := { s with mem := s.mem.filter (fun e => p e.1) }

/-- An address of MRAM. -/
def inMram (a : Nat) : Bool := Config.mramBase ≤ a && a < Config.mramBase + Config.mramSize

/-- An address of system SRAM. -/
def inSram (a : Nat) : Bool := Config.sramBase ≤ a && a < Config.sramBase + Config.sramSize

/-- The always-on units lose the state no register shows, but for what the fault log still has to write; a soft reset, which
keeps away from AON (R428), leaves OTP programming, rates and the log's counts to go on and disarms the injection slots with
their class S registers. The event router's class S registers are restored with a soft reset, and with them its sequence
number, the events in flight and the owed loss bits start afresh: the spec does not say so (DESIGN CHOICE 19). -/
def dropAon (soft : Bool) (s : State) : State :=
  { s with
    evr := {}, err := if soft then { s.err with slots := [] } else { lastTick := s.err.lastTick }
    bus := [], latch := []
    cfg := { s.cfg with
      otpRun := if soft then s.cfg.otpRun else none, todo := [], hold := [], sof := [], fin := [], mark := [], start := none }
    mon := { mbox := s.mon.mbox, ext := s.mon.ext } }

/-- The power controller after a reset: CTRL alone is on, the domains voted for come next, and a boot is due. The watchdog,
the voltage engine and the PMBus controller lie in AON and go on through a soft reset; so do the times of level T3. -/
def pwrFresh (warm : Bool) (s : State) : State :=
  let p := s.pwr
  let p : PwrSt := if warm then
      { p with job := none, unwanted := [], holds := [], step := .none, soft := false, offTold := none }
    else { padLevel := p.padLevel, aonBase := p.aonBase, aonAt := p.aonAt, wdtDue := s.now + s.f PWR_WDT_CFG_ms * ms }
  let p := { p with
    onSince := [(0, s.now)], padTold := [], bootDue := true, bootWarm := warm, selfRef := if warm then [0, 1, 2, 3] else []
    pllDue := if p.pllLocked then none else some (s.now + 100 * us) }
  pwrNext { s with pwr := p, cfg := { s.cfg with released := false } }

/-- A power-on reset: every class is restored; MRAM, OTP and what lies outside the device stay (R429). -/
def porReset (s : State) : State :=
  let s := dropAon false (dropUnits (restoreRegs (fun _ _ => true) (keepMem inMram s)))
  let s := { s with
    tsu := {}, thm := { slowDue := s.now }, mc := {}, pwr := { aonAt := s.now }
    err := { lastTick := s.now / ms * ms }, cfg := { s.cfg with sects := [] }, mon := { ext := s.mon.ext } }
  gpioSettle (showOtp (showDbg (pwrFresh false s)))

/-- POR (R427, R429): every pad takes its reset state. -/
def execPor (s : State) : Res := .next (porReset s)

/-- A hard reset: classes H, S and D are restored; P, system SRAM, MRAM and the AON seconds stay (R429). -/
def hardReset (bit : Nat) (s : State) : State :=
  let s := logFlush (if bit = 1 then s else logRec 3 0 false (s.f PWR_RST_CAUSE_cause ||| 2 ^ bit) 0 s)
  let s := dropAon false (dropUnits (restoreRegs (fun c _ => c != .p) (keepMem (fun a => inMram a || inSram a) s)))
  let s := { s with
    tsu := {}, thm := { slowDue := s.now }, mc := {}, cfg := { s.cfg with sects := [] }
    mon := { ext := s.mon.ext } }
  gpioSettle (showOtp (showDbg (setF PWR_RST_CAUSE_cause (s.f PWR_RST_CAUSE_cause ||| 2 ^ bit) (pwrFresh false s))))

/-- RST_N is low with TEST_EN high (R491): the device is reset, records nothing and stays in hard reset, in which no unit
runs and no access is answered, until a reset that finds TEST_EN low. -/
def testReset (s : State) : State :=
  let cause := s.f PWR_RST_CAUSE_cause
  let s := hardReset 1 s
  setF PWR_STATUS_on 0 (setF PWR_BUSY_trans 0 (setF PWR_RST_CAUSE_cause cause (modPwr (fun p => { p with
    testHold := true, bootDue := false, pllDue := none, job := none }) s)))

/-- HARD_RESET (R427, R491): the watchdog's follows its expiry by 10 µs, a clock loss must stand, and a lockstep mismatch is
itself a detection. -/
def execHardReset (cause : HardCause) (s : State) : Res :=
  .next (if s.pwr.testHold && !(cause == .pin true || cause == .pin false) then s else match cause with
    | .pin test => if test then testReset s else hardReset 1 s
    | .watchdog => match s.pwr.wdtFired with
      | some t => hardReset 2 (advanceTo t s)
      | none => s
    | .clockLoss => if s.pwr.clkLost then hardReset 3 s else s
    | .lockstep => hardReset 4 (examDetect 0x0201 true 0 0 s).2
    | .sage => hardReset 5 s
    | .monitor => hardReset 6 s)

/-- The end of a soft reset: every domain but AON is reset with its pads latched; classes P and H, DRAM, SRAM and the
time stay (R428, R429). -/
def softEnd (s : State) : State :=
  let s := (List.range 31).foldl (fun s d =>
    if bitOf (s.rd PWR_STATUS).toNat d then disarmDomain d (latchPads d s) else s) s
  let s := dropAon true (dropUnits (restoreRegs (fun c _ => c == .s || c == .d) (logFlush s)))
  gpioSettle (showOtp (setF PWR_RST_CAUSE_cause (s.f PWR_RST_CAUSE_cause ||| 2 ^ 7) (pwrFresh true s)))

/-! ### Entry (R423, R428) -/

/-- Step 2: ports, audio ports, scan-out and drives stop. -/
def stopUnits (s : State) : State :=
  let s := (List.range (Config.ports s.variant)).foldl (fun s n =>
    if s.b (SP_CTRL_run n) then spCtrlWrite n (setBits (s.rd (SP_CTRL n)) 1 1 0) s else s) s
  let s := audAllStop s
  let s := if s.b SCO_CTRL_en then scoCtrlWrite (setBits (s.rd SCO_CTRL) 0 0 0) s else s
  pfiAllOff s

/-- An entry is accepted: steps 1 and 2 of R423, or step 2 alone for a soft reset (R428). -/
def sleepEnter (soft thermal : Bool) (s : State) : State :=
  let s := if soft then s else
    raise 0x02 5 0 (setF PWR_STATE_state 2 (modPwr (fun p => { p with aonBase := s.tsu.sec, aonAt := s.now }) s))
  let s := modPwr (fun p => { p with
    step := .quiesce, soft := soft, thermal := thermal, stepDue := s.now + s.f PWR_SLEEP_CFG_quiesce_ms * ms }) s
  stopUnits s

/-- The refusal of a Sleep request (R423). -/
def sleepRefuse (cause : Nat) (s : State) : State := raise 0x02 7 cause (setF PWR_STATE_refuse cause s)

/-- A Sleep request, or its refusal (R423). -/
def sleepRequest (force thermal : Bool) (s : State) : State :=
  if s.b OEP_STATUS_link_up && !force then sleepRefuse 1 s
  else if s.pwr.step != .none then sleepRefuse 2 s
  else sleepEnter false thermal s

/-- A write of PWR_SLEEP: go from sage alone (R422). -/
def sleepWrite (r : Requester) (v : Word) (s : State) : State :=
  if bitOf v.toNat 0 && r != .sage then flag PWR_CFG_STATUS_bad_write s
  else
    let s := plainWrite PWR_SLEEP v s
    if bitOf v.toNat 0 then sleepRequest (s.b PWR_SLEEP_force) false s else s

/-- SLEEP_GO: a write of PWR_SLEEP with go = 1. -/
def execSleepGo (r : Requester) (v : Word) (s : State) : Res :=
  .next (writeBy r PWR_SLEEP (sleepWrite r (setBits v 0 0 1)) s)

/-- A write of PWR_RESET (R427, R428): hard from sage or the monitor, soft from sage, a core or the monitor. -/
def resetWrite (r : Requester) (v : Word) (s : State) : State :=
  let hard : Option Nat := match r with
    | .sage => some 5
    | .monitor => some 6
    | _ => none
  let soft := match r with
    | .cfg | .debug => false
    | _ => true
  if bitOf v.toNat 1 then
    match hard with
    | some b => hardReset b s
    | none => flag PWR_CFG_STATUS_bad_write s
  else if bitOf v.toNat 0 then
    if !soft then flag PWR_CFG_STATUS_bad_write s
    else if s.pwr.step != .none then s
    else sleepEnter true false s
  else s

/-- SOFT_RESET: a write of PWR_RESET with soft = 1 and hard = 0. -/
def execSoftReset (r : Requester) (v : Word) (s : State) : Res :=
  .next (writeBy r PWR_RESET (resetWrite r (setBits v 1 0 1)) s)

/-- Every port is idle, no producer writes, scan-out and audio have stopped (R423 step 3). -/
def State.quiet (s : State) : Bool :=
  (List.range (Config.ports s.variant)).all (fun n => !s.domOn (dSP n) || s.b (SP_STATUS_idle n)) &&
    allRings.all (fun r => (s.ring r).writing.isNone) && !s.b SCO_STATUS_running &&
    (List.range 4).all (fun n => (s.aud n).phase == .idle)

/-- SLEEP_QUIESCE_DONE: what is still open is abandoned, and DRAM goes to self-refresh (R423 steps 3 and 4). -/
def execSleepQuiesceDone (s : State) : Res :=
  .next (if s.pwr.step = .quiesce then
    let s := if s.quiet then s else advanceTo s.pwr.stepDue s
    let s := allRings.foldl (fun s r => ringAbandon r s) s
    modPwr (fun p => { p with step := .dram }) s
  else s)

/-- Every domain powers down, CTRL last; the state reads SLEEP, and system SRAM loses its contents
(R423 steps 5 and 6, R429). A source held during entry then starts the wake. -/
def fallAsleep (s : State) : State :=
  let s := (List.range 31).reverse.foldl (fun s d => if bitOf (s.rd PWR_STATUS).toNat d then domainDown d s else s) s
  let s := keepMem (fun a => !inSram a) s
  let s := modPwr (fun p => { p with
    step := .none, soft := false, job := none, holds := [], unwanted := [], pllLocked := false, pllDue := none
    t3At := none, t3Grace := none, wdtHalf := false }) s
  heldWake (setF PWR_BUSY_trans 0 (setF PWR_STATE_state 3 s))

/-- SLEEP_DRAM_IDLE: DRAM is in self-refresh; a Sleep entry powers down, a soft reset resets (R423, R428). -/
def execSleepDramIdle (s : State) : Res :=
  .next (if s.pwr.step = .dram then (if s.pwr.soft then softEnd s else fallAsleep s) else s)

/-! ### Wake (R424 to R426) -/

/-- The seconds until the AON counter reaches the alarm (R424). -/
def alarmIn (s : State) : Nat := (s.f PWR_AON_ALARM_sec + 2 ^ 32 - s.aonSec % 2 ^ 32) % 2 ^ 32

/-- WAKE: an enabled source fires; during entry, or in a Sleep too hot to leave, it is held (R423, R424). The alarm
(source 3) fires when the AON seconds reach it. -/
def execWake (source : Nat) (s : State) : Res :=
  guardOk (decide (source < 5)) <|
    if !bitOf (s.f PWR_SLEEP_CFG_wake_en) source then s
    else
      let hold (s : State) : State := modPwr (fun p => { p with wakeHeld := some (p.wakeHeld.getD source) }) s
      if s.f PWR_STATE_state = 3 then
        let s := if source = 3 && alarmIn s != 0 then
          advanceTo (s.pwr.aonAt + ((s.now - s.pwr.aonAt) / (1000 * ms) + alarmIn s) * (1000 * ms)) s else s
        heldWake (hold s)
      else if s.f PWR_STATE_state = 2 && (source != 3 || alarmIn s = 0) then hold s
      else s

/-- CLOCK_SWITCH: a write of PWR_CLK (R426). -/
def execClockSwitch (r : Requester) (v : Word) (s : State) : Res :=
  .next (writeBy r PWR_CLK (plainWrite PWR_CLK v) s)

/-! ### T3 (R443) -/

/-- T3_GRACE_EXPIRED: every stream is idle or the grace time has passed, and a forced Sleep entry starts. -/
def execT3GraceExpired (s : State) : Res :=
  .next (match s.pwr.t3Grace with
    | none => s
    | some t =>
      let idle := (List.range 8).all (fun k => s.f (RM_STR_STATUS_state k) == 0)
      let s := if idle then s else advanceTo t s
      let s := modPwr (fun p => { p with t3Grace := none }) s
      sleepRequest true true s)

/-- FORCED_SLEEP: 1,000 ms after T3 without reaching SLEEP, AON powers every domain down at once, the drives off first: no
entry leaves drv_en set (R377). -/
def execForcedSleep (s : State) : Res :=
  .next (match s.pwr.t3At with
    | none => s
    | some t =>
      if s.f PWR_STATE_state = 3 then s
      else
        let s := advanceTo (t + 1000 * ms) s
        let s := logRec 5 0 false 0 0 (raise 0x03 6 0 s)
        let s := modPwr (fun p => { p with aonBase := s.tsu.sec, aonAt := s.now, thermal := true }) s
        fallAsleep (pfiAllOff s))

end Sys2Proof.Machine
end

