-- ==== Sys2Proof/Machine/Img.lean ====
section
/-! DEFINITION. The configuration image (R398, R400 to R404): header and section checks, record streams, and overlay
requests (R405). -/

namespace Sys2Proof.Machine

open Sys2Proof.Config (us)

/-! ### Header and sections (R398, R400) -/

/-- Bytes [lo, hi) of a list are zero. -/
def zeroAt (l : List Byte) (lo hi : Nat) : Bool := ((l.drop lo).take (hi - lo)).all (· == 0)

/-- Section entry `i` of a header. -/
def hdrEntry (h : List Byte) (i : Nat) : List Byte := slice h 0 (0x100 + 128 * i) 128

/-- Reserved bytes of a section entry are 0. -/
def entryClear (e : List Byte) : Bool :=
  decide (leAt e 0 4 < 2 ^ 17) && zeroAt e 0x0C 0x10 && zeroAt e 0x15 0x18 && zeroAt e 0x34 0x40 && zeroAt e 0x70 0x80 &&
    (leAt e 0 1 == 2 || leAt e 1 1 == 0)

/-- Reserved bytes of a header are 0. -/
def hdrClear (h : List Byte) : Bool :=
  let n := leAt h 0x0C 1 % 32
  leAt h 0x0C 4 &&& (2 ^ 32 - 1 - 0x3F1F) == 0 && decide (leAt h 0x10 4 < 2 ^ 13) && zeroAt h 0x14 0x18 && zeroAt h 0x1D 0x20 &&
    zeroAt h 0x24 0x28 && zeroAt h 0x2D 0x30 && zeroAt h 0x35 0x40 &&
    (List.range 9).all (fun i => zeroAt h (0x45 + 8 * i) (0x48 + 8 * i)) && zeroAt h 0x88 0x100 &&
    (List.range n).all (fun i => entryClear (hdrEntry h i)) && zeroAt h (0x100 + 128 * n) 0xD00 && zeroAt h 0xDC0 0x1000

/-- The image area: base and bytes. -/
def hdrArea (h : List Byte) : Nat × Nat := (leAt h 0x18 5, leAt h 0x20 4)

/-- A header's checks but for the security version (R398). -/
def hdrOk (v : Variant) (h : List Byte) : Bool :=
  let (base, len) := hdrArea h
  let n := leAt h 0x0C 1 % 32
  leAt h 0 4 == 0x4D493942 && leAt h 4 2 == 1 && leAt h 6 2 == 4096 && decide (1 ≤ n ∧ n ≤ 24) &&
    decide (12 ≤ leAt h 0x10 1 ∧ leAt h 0x10 1 ≤ 200) && base % 0x10000 == 0 &&
    decide (Config.dramBase ≤ base ∧ base < Config.dramBase + Config.dramSize v ∧
      base + len ≤ Config.dramBase + Config.dramSize v) && hdrClear h

/-- The security version of an image. -/
def hdrSec (h : List Byte) : Nat := leAt h 0x0D 1 % 64

/-- The least security version that OTP allows: its count of 1 bits (R412). -/
def State.otpSec (s : State) : Nat :=
  let n := (s.otp 20).toNat + (s.otp 21).toNat * 2 ^ 32
  ((List.range 64).filter (bitOf n)).length

/-- `n` OTP words from `w`, as bytes. -/
def State.otpBytes (s : State) (w n : Nat) : List Byte := (List.range n).flatMap (fun i => leBytes 4 (s.otp (w + i)).toNat)

/-- Two ranges of bytes overlap. -/
def overlap (a n b m : Nat) : Bool := decide (a < b + m ∧ b < a + n)

/-- Section `i` of a header, at its load address. -/
def hdrSect (h : List Byte) (i : Nat) : Sect :=
  let e := hdrEntry h i
  ⟨leAt e 0 1, leAt e 1 1 % 16, leAt e 1 1 / 16, leAt e 0x10 5, leAt e 8 4⟩

/-- The sections of a header. -/
def hdrSects (h : List Byte) : List Sect := (List.range (leAt h 0x0C 1 % 32)).map (hdrSect h)

/-- No load range of a list overlaps another. -/
def apart : List Sect → Bool
  | [] => true
  | x :: t => t.all (fun y => !overlap x.addr x.bytes y.addr y.bytes) && apart t

/-- The sections are ones an image may have (R400). -/
def sectsOk (h : List Byte) : Bool :=
  let l := hdrSects h
  let (base, len) := hdrArea h
  let ovl := l.filter (·.kind == 2)
  (l.filter (·.kind == 1)).length == 1 && decide ((l.filter (·.kind == 3)).length ≤ 1) &&
    noRepeat (ovl.map (·.index)) && apart l &&
    l.all (fun x => decide (1 ≤ x.kind ∧ x.kind ≤ 3 ∧ base ≤ x.addr ∧ x.addr + x.bytes ≤ base + len) && x.addr % 64 == 0) &&
    (List.range l.length).all (fun i =>
      let e := hdrEntry h i
      leAt e 4 4 % 64 == 0 && decide (leAt e 4 4 + leAt e 8 4 ≤ leAt h 8 4))

/-! ### Record streams (R402, R403) -/

/-- A record: a register write, a modify, a table or data block, a wait, a poll, or an error in the stream's form. -/
inductive Record
  | write (a : Nat) (v : Word)
  | modify (a : Nat) (m v : Word)
  | table (dst : Nat) (stream : List Byte)
  | data (dst : Nat) (bytes : List Byte)
  | wait (n : Nat)
  | poll (n a : Nat) (m v : Word)
  | bad
  deriving DecidableEq, Repr

/-- The 32-bit word `i` of a payload. -/
def wordAt (l : List Byte) (i : Nat) : Word := BitVec.ofNat 32 (leAt l (4 * i) 4)

/-- The records of a stream; `fuel` bounds their number. -/
def recordsOf : Nat → List Byte → List Record
  | 0, _ => [.bad]
  | fuel + 1, bs =>
    if bs.length < 8 then [.bad]
    else
      let ty := leAt bs 0 1
      let n := leAt bs 1 3
      let w := leAt bs 4 4
      let p := (bs.drop 8).take n
      let more := recordsOf fuel (bs.drop (8 + ceilDiv n 8 * 8))
      if p.length < n then [.bad]
      else if ty = 0x0F then (if n = 0 then [] else [.bad])
      else if ty = 1 && n = 8 * w then
        (List.range w).map (fun i => .write (wordAt p (2 * i)).toNat (wordAt p (2 * i + 1))) ++ more
      else if ty = 2 && n = 12 * w then
        (List.range w).map (fun i => .modify (wordAt p (3 * i)).toNat (wordAt p (3 * i + 1)) (wordAt p (3 * i + 2))) ++ more
      else if ty = 3 && 8 ≤ n then .table (leAt p 0 5) (p.drop 8) :: more
      else if ty = 4 && 8 ≤ n then .data (leAt p 0 5) (p.drop 8) :: more
      else if ty = 5 && n = 0 then .wait w :: more
      else if ty = 6 && n = 12 then .poll w (wordAt p 0).toNat (wordAt p 1) (wordAt p 2) :: more
      else [.bad]

/-- A section is read (R275): 13 is sprout's class; the CFG engine, which the class table does not name, reads in the class of
sage, its neighbour in AON (DESIGN CHOICE 47). The answer is whether no read drew an error response. -/
def sectRead (cls : Nat) (x : Sect) (s : State) : Bool × State :=
  match dmaRead cls x.addr x.bytes s with
  | (some _, s) => (true, s)
  | (none, s) => (false, s)

/-- The records of a loaded section. -/
def State.records (s : State) (x : Sect) : List Record := recordsOf (x.bytes / 8 + 1) (s.peeks x.addr x.bytes)

/-- The bytes a residue stream unpacks to (R265), if it is sound. -/
def residueOpen (inp : List Byte) : Option (List Byte) :=
  let j0 : PkeJob := {
    unpack := true, resid := true, src := 0, len := inp.length, dst := 0, dlen := 0, idx := 0, ilen := 0, chunk := 0
    depth := 1, w := 0, row := 0 }
  let j := (List.range (8 * inp.length + 2)).foldl (fun (j : PkeJob) _ => match j.queue.getLast? with
    | some (.fin _ _) => j
    | _ => residUnpackStep inp j) j0
  match j.queue.getLast? with
  | some (.fin 0 _) => some (j.queue.filterMap (fun i => match i with
    | .byte b => some b
    | _ => none))
  | _ => none

/-- The image area recorded in CFG. -/
def State.imgArea (s : State) : Nat × Nat := (s.pair CFG_IMG_BASE_LO CFG_IMG_BASE_HI, (s.rd CFG_IMG_LEN).toNat)

/-- Stores a table or data block inside `area` and clear of every section (R403). -/
def landBlock (area : Nat × Nat) (dst : Nat) (bytes : List Byte) (s : State) : Bool × State :=
  if area.1 ≤ dst && dst + bytes.length ≤ area.1 + area.2 &&
      s.cfg.sects.all (fun x => !overlap dst bytes.length x.addr x.bytes) then dmaWrite 13 dst bytes s
  else (false, s)

/-- A register address of a record lies in the register range (R402). -/
def recAddr (a : Nat) : Bool := 0x40000000 ≤ a && a < 0x80000000

/-- The address is one that never answers: unaligned, in no window, or of an absent unit (R471, R472). -/
def deadAddr (v : Variant) (a : Nat) : Bool :=
  a % 4 != 0 || (match windowAt v a with
    | some h => !h.present
    | none => true)

/-- An overlay's record as it is met at boot (R392 step 7): its tables and data land, and its form is checked; true if it
is an error. -/
def ovlRecord (area : Nat × Nat) (x : Record) (s : State) : Bool × State :=
  let (err, s) := match x with
    | .write a _ => (!recAddr a || deadAddr s.variant a, s)
    | .modify a _ _ => (!recAddr a || deadAddr s.variant a, s)
    | .table dst st => match residueOpen st with
      | some bs => let (ok, s) := landBlock area dst bs s; (!ok, s)
      | none => (true, s)
    | .data dst bs => let (ok, s) := landBlock area dst bs s; (!ok, s)
    | .wait _ | .poll _ _ _ _ | .bad => (true, s)
  examDetect 0x0604 err 0 0 s

/-- An overlay section at boot: its valid bit shows the outcome (R392 step 7, R403). -/
def ovlLoad (area : Nat × Nat) (x : Sect) (s : State) : State :=
  let (ok, s) := sectRead 13 x s
  let (bad, s) := (s.records x).foldl (fun (b, s) r => if b then (b, s) else ovlRecord area r s) (!ok, s)
  let m := s.f CFG_OVL_VALID_valid
  setF CFG_OVL_VALID_valid (if bad then m &&& (2 ^ 16 - 1 - 2 ^ x.index) else m ||| 2 ^ x.index) s

/-! ### Requests (R401, R405) -/

/-- The section of overlay `i`. -/
def State.ovlSect (s : State) (i : Nat) : Option Sect := s.cfg.sects.find? (fun x => x.kind == 2 && x.index == i)

/-- Overlay `i` is loaded and valid. -/
def State.ovlValid (s : State) (i : Nat) : Bool := (s.ovlSect i).isSome && bitOf (s.f CFG_OVL_VALID_valid) i

/-- A record addresses a domain that is off (R405). -/
def State.ovlDark (s : State) (x : Sect) : Bool :=
  (s.records x).any (fun r =>
    let off (a : Nat) : Bool := match windowAt s.variant a with
      | some h => (match h.dom with
        | some d => !s.domOn d
        | none => false)
      | none => false
    match r with
    | .write a _ => off a
    | .modify a _ _ => off a
    | _ => false)

/-- Why overlay `i` is refused; 0 if it is not (R405). -/
def State.ovlCause (s : State) (i : Nat) : Nat :=
  match s.ovlSect i with
  | none => 1
  | some x => if !bitOf (s.f CFG_OVL_VALID_valid) i then 2 else if s.ovlDark x then 3 else 0

/-- A refused request (R405). -/
def ovlRefuse (i c : Nat) (s : State) : State := raise 0x06 2 (i * 16 + c) (setF CFG_OVL_STATUS_refuse c s)

/-- A request of overlay `i`: refused, held while another is pending, or accepted (R405, R406 step 1). -/
def ovlRequest (i : Nat) (s : State) : State :=
  let c := s.ovlCause i
  if c != 0 then ovlRefuse i c s
  else if s.b CFG_OVL_STATUS_busy then flag CFG_OVL_STATUS_held (setF CFG_OVL_STATUS_held_index i s)
  else flag CFG_OVL_STATUS_busy (setF CFG_OVL_STATUS_pending i (modCfg (fun x => { x with start := some i }) s))

/-- A write of CFG_OVL_REQ. -/
def ovlReqWrite (v : Word) (s : State) : State := if bitOf v.toNat 8 then ovlRequest (bitsOf v.toNat 3 0) s else s

/-- The overlay a MODE value selects, and whether the value is a valid one (R401). -/
def State.modeOverlay (s : State) (v : Nat) : Option Nat × Bool :=
  match s.cfg.sects.find? (·.kind == 3) with
  | some x =>
    let e := leNat (s.peeks (x.addr + 4 * v) 4)
    if 4 * v + 4 ≤ x.bytes && bitOf e 8 && s.ovlValid (e % 16) then (some (e % 16), true) else (none, false)
  | none => if v = 0 then (none, true) else if s.ovlValid v then (some v, true) else (none, false)

/-- The entry of a MODE value is read from the mode table (R275, R401); one that draws an error response selects no overlay
(DESIGN CHOICE 47). -/
def modeLook (cls v : Nat) (s : State) : (Option Nat × Bool) × State :=
  match s.cfg.sects.find? (·.kind == 3) with
  | some x => match dmaRead cls (x.addr + 4 * v) 4 s with
    | (some _, s) => (s.modeOverlay v, s)
    | (none, s) => ((none, false), s)
  | none => (s.modeOverlay v, s)

/-- A MODE value that has been accepted requests its overlay if it is not the one in force (R401, R405). -/
def modeRequest (s : State) : State :=
  let v := s.f CFG_MODE_pins
  let ((i, ok), s) := modeLook 14 v s
  let s := if ok then s else raise 0x06 3 v s
  match i with
  | some i => if i = s.f CFG_OVL_STATUS_in_force then s else ovlRequest i s
  | none => s

end Sys2Proof.Machine
end

