-- ==== Sys2Proof/Machine/Net.lean ====
section
/-! DEFINITION. The Ethernet MACs and the media streams (R354 to R358, R364 to R366, R368). -/

namespace Sys2Proof.Machine

/-- MAC `m`. -/
def State.net (s : State) (m : Nat) : NetSt := lookD s.nets {} m

/-- Changes MAC `m`. -/
def modNet (m : Nat) (f : NetSt → NetSt) (s : State) : State := { s with nets := put s.nets m (f (s.net m)) }

/-- Stream context `k`. -/
def State.nstr (s : State) (k : Nat) : NetStr := lookD s.nstrs {} k

/-- Changes stream context `k`. -/
def modNstr (k : Nat) (f : NetStr → NetStr) (s : State) : State := { s with nstrs := put s.nstrs k (f (s.nstr k)) }

/-- `l` with `bs` in place of its bytes from position `i`. -/
def overwrite (l : List Byte) (i : Nat) (bs : List Byte) : List Byte := l.take i ++ bs ++ l.drop (i + bs.length)

/-! ### PTP stamps (R364 to R366) -/

/-- Where a frame's PTP message starts, if it is an event message (R365): Ethertype 0x88F7, or UDP to port 319, under
at most one VLAN tag. -/
def ptpAt (f : List Byte) : Option Nat :=
  let e := if beAt f 12 2 = 0x8100 then 16 else 12
  let ip := e + 2
  let et := beAt f e 2
  let udp4 := ip + (beAt f ip 1 % 16) * 4
  let p :=
    if et = 0x88F7 then some ip
    else if et = 0x0800 && beAt f (ip + 9) 1 = 17 && beAt f (udp4 + 2) 2 = 319 then some (udp4 + 8)
    else if et = 0x86DD && beAt f (ip + 6) 1 = 17 && beAt f (ip + 42) 2 = 319 then some (ip + 48)
    else none
  match p with
  | some i => if i < f.length && beAt f i 1 % 16 < 4 then some i else none
  | none => none

/-- The time of a crossing now, `lat` units of 2^-16 ns later: within the accuracy of R364 and otherwise open. -/
def netStamp (m : Nat) (lat : Int) (s : State) : Stamp × State :=
  let bound : Nat := if s.b (NET_CTRL_speed m) then 2 else 4
  let (v, s) := draw s
  let e : Int := ((v.toNat % (2 * bound) : Nat) : Int) - (bound - 1 : Nat)
  let r : Rat := (s.reading + lat * 65536) / 4294967296
  let n := (r.floor + e).toNat
  (⟨n / 1000000000, n % 1000000000⟩, s)

/-- Shows the queue of transmit stamps in the registers (R366). -/
def showStamps (m : Nat) (s : State) : State :=
  let q := (s.net m).stamps
  let s := setF (NET_PTP_STATUS_txts_count m) q.length s
  match q with
  | [] => s
  | x :: _ =>
    wr (NET_TXTS m 3) (BitVec.ofNat 32 (x.t.sec / 2 ^ 32 % 65536)) <|
      wr (NET_TXTS m 2) (BitVec.ofNat 32 x.t.sec) <|
      wr (NET_TXTS m 1) (BitVec.ofNat 32 x.t.ns) <|
      wr (NET_TXTS m 0) (BitVec.ofNat 32 (x.seq % 65536 + x.msg % 16 * 2 ^ 16 + x.dom % 256 * 2 ^ 20)) s

/-- The next command pops the queue: no time passes between the two, so it is of the same cycle and taken first (R366;
DESIGN CHOICE, log 41). -/
def State.popNext (s : State) (m : Nat) : Bool := match s.pending with
  | .txtsPop _ k :: _ => k == m
  | _ => false

/-- A transmit stamp arrives at the queue (R366). -/
def pushStamp (m : Nat) (x : TxStamp) (s : State) : State :=
  let (full, s) := examDetect (0x5003 + 256 * m) (decide (16 ≤ (s.net m).stamps.length) && !s.popNext m) 0 0 s
  if full then raise (0x50 + m) 2 x.seq (flag (NET_PTP_STATUS_txts_lost m) (bump (NET_TXTS_DROP m) s))
  else showStamps m (modNet m (fun n => { n with stamps := n.stamps ++ [x] }) s)

/-- TXTS_POP: a read of NETm_TXTS3 answers the head entry's last word and pops it (R366). -/
def execTxtsPop (r : Requester) (m : Nat) (s : State) : Res :=
  guardOk (decide (m < 2)) (match gate (NET_TXTS m 3) 4 s with
    | (false, s) => refuse r s
    | (true, s) =>
      let w := s.rd (NET_TXTS m 3)
      answer r w (showStamps m (modNet m (fun n => { n with stamps := n.stamps.drop 1 }) s)))

/-! ### Transmit (R354 to R356) -/

/-- A frame as it leaves: padded to 60 bytes, with its FCS (R354). -/
def withFcs (f : List Byte) : List Byte :=
  let p := f ++ List.replicate (60 - f.length) 0
  p ++ leBytes 4 (crc32 p)

/-- The MAC can send and receive. -/
def State.macUp (s : State) (m : Nat) : Bool := s.b (NET_CTRL_en m) && s.b (NET_STATUS_link_up m)

/-- Sends a frame; an event message is stamped. -/
def macSend (m : Nat) (f : List Byte) (s : State) : Bool × State :=
  let s := modNet m (fun n => { n with sent := withFcs f }) s
  match ptpAt f with
  | some i =>
    if s.b (NET_PTP_CFG_en m) then
      let (t, s) := netStamp m (s.f (NET_TX_LAT_tx_lat m) : Nat) s
      (true, pushStamp m ⟨beAt f (i + 30) 2, beAt f i 1 % 16, beAt f (i + 4) 1, t⟩ s)
    else (false, s)
  | none => (false, s)

/-- Completes the transmit descriptor at `a`. -/
def txDone (m a flags : Nat) (s : State) : State :=
  setF (NET_TXR_HEAD_head m) (s.f (NET_TXR_HEAD_head m) + 1) (dmaPut 12 (a + 12) (leBytes 4 flags) s)

/-- TX_FRAME: the next transmit descriptor (R355, R356); `parity` says the packet buffer's parity fails (R368). -/
def execTxFrame (m : Nat) (parity : Bool) (s : State) : Res :=
  guardOk (decide (m < 2)) <|
    let n := s.f (NET_TXR_CFG_entries m)
    let head := s.f (NET_TXR_HEAD_head m)
    if !s.domOn dNET || !s.macUp m || n = 0 || !ringHas head (s.f (NET_TXR_TAIL_tail m)) then s
    else
      let a := s.pair (NET_TXR_LO m) (NET_TXR_HI m) + head % n * 16
      let (got, s) := dmaRead 12 a 16 s
      match got with
      | none => txDone m a 3 s
      | some d =>
        let len := leAt d 8 4 % 2 ^ 14
        if len = 0 then txDone m a 1 s
        else if 9212 < len then txDone m a 3 s
        else
          let (bytes, s) := dmaRead 12 (leAt d 0 8 % 2 ^ 40) len s
          let (bad, s) := examDetect (0x5002 + 256 * m) parity 0 0 s
          match bytes, bad with
          | some f, false =>
            let (stamped, s) := macSend m f s
            txDone m a (if stamped then 5 else 1) s
          | _, _ => txDone m a 3 s

/-! ### Receive (R354 to R357) -/

/-- The frame passes the filter (R357); the first octet is bits [7:0] of the low register (DESIGN CHOICE). -/
def State.macFilter (s : State) (m : Nat) (f : List Byte) : Bool :=
  let d := leAt f 0 6
  let own (lo hi : Nat) : Bool := d == (s.rd lo).toNat + (s.rd hi).toNat % 65536 * 2 ^ 32
  s.b (NET_CTRL_promisc m) || d == 2 ^ 48 - 1 || own (NET_ADDR_LO m) (NET_ADDR_HI m) ||
    (List.range 8).any (fun i => s.b (NET_MCAST_HI_en m i) && own (NET_MCAST_LO m i) (NET_MCAST_HI m i))

/-- A PAUSE frame (IEEE 802.3x). -/
def isPause (f : List Byte) : Bool :=
  beAt f 0 6 == 0x0180C2000001 && beAt f 12 2 == 0x8808 && beAt f 14 2 == 1

/-- Completes the receive descriptor at `a`, with its time when stamped. -/
def rxDone (m a word : Nat) (t : Option Stamp) (s : State) : State :=
  let tail := match t with
    | some t => leBytes 4 t.ns ++ leBytes 6 t.sec ++ leBytes 6 0
    | none => []
  setF (NET_RXR_HEAD_head m) (s.f (NET_RXR_HEAD_head m) + 1) (dmaPut 12 (a + 12) (leBytes 4 word ++ tail) s)

/-- Stores a frame in the next receive descriptor that takes one (R356). -/
def rxStore (parity : Bool) : Nat → Nat → List Byte → State → State
  | 0, m, _, s => noDesc m s
  | k + 1, m, f, s =>
    let n := s.f (NET_RXR_CFG_entries m)
    let head := s.f (NET_RXR_HEAD_head m)
    if n = 0 || !ringHas head (s.f (NET_RXR_TAIL_tail m)) then noDesc m s
    else
      let a := s.pair (NET_RXR_LO m) (NET_RXR_HI m) + head % n * 32
      let (got, s) := dmaRead 12 a 16 s
      match got with
      | none => rxDone m a (2 ^ 16 + 2 ^ 19) none s
      | some d =>
        let cap := leAt d 8 4 % 2 ^ 14
        if cap = 0 then rxStore parity k m f (rxDone m a (2 ^ 16) none s)
        else
          let s := modNet m (fun x => { x with nodesc := false }) s
          let bs := f.take cap
          let (par, s) := examDetect (0x5002 + 256 * m) parity 0 0 s
          let (ok, s) := if par then (false, s) else dmaWrite 12 (leAt d 0 8 % 2 ^ 40) bs s
          let (t, s) : Option Stamp × State := match s.b (NET_PTP_CFG_en m), ptpAt f with
            | true, some _ =>
              let (t, s) := netStamp m (-(s.f (NET_RX_LAT_rx_lat m) : Int)) s
              (some t, s)
            | _, _ => (none, s)
          let word := (if ok then bs.length else 0) + 2 ^ 16 + (if cap < f.length then 2 ^ 17 else 0) +
            (if t.isSome then 2 ^ 18 else 0) + (if ok then 0 else 2 ^ 19)
          rxDone m a word t s
where
  /-- A frame that finds no descriptor (R356). -/
  noDesc (m : Nat) (s : State) : State :=
    let s := bump (NET_RX_NODESC m) s
    if (s.net m).nodesc then s else raise (0x50 + m) 3 0 (modNet m (fun x => { x with nodesc := true }) s)

/-- Receive descriptors of length 0 at the head complete at once (R356), as far as `k` of them reach. -/
def rxZeros : Nat → Nat → State → State
  | 0, _, s => s
  | k + 1, m, s =>
    let n := s.f (NET_RXR_CFG_entries m)
    let head := s.f (NET_RXR_HEAD_head m)
    if !s.domOn dNET || !s.macUp m || n = 0 || !ringHas head (s.f (NET_RXR_TAIL_tail m)) then s
    else
      let a := s.pair (NET_RXR_LO m) (NET_RXR_HI m) + head % n * 32
      match dmaRead 12 a 16 s with
      | (some d, t) => if leAt d 8 4 % 2 ^ 14 = 0 then rxZeros k m (rxDone m a (2 ^ 16) none t) else s
      | (none, _) => s

/-- A write of NETm_RXR_TAIL (R355, R356). -/
def rxTailWrite (m : Nat) (v : Word) (s : State) : State :=
  let s := plainWrite (NET_RXR_TAIL m) v s
  rxZeros (s.f (NET_RXR_CFG_entries m) + 1) m s

/-- RX_FRAME: a frame arrives, given without its FCS (R354, R356, R357), with what the PCS and the packet buffer find wrong
with it (R368). A block that the FEC cannot correct spoils its frame's FCS (DEDUCED, log 55). -/
def execRxFrame (at_ m : Nat) (f : List Byte) (fcsGood fecBad parity : Bool) (s : State) : Res :=
  guardOk (decide (m < 2)) <|
    let s := advanceTo at_ s
    if !s.domOn dNET || !s.macUp m || f.length < 60 || 9212 < f.length then s
    else
      let (fec, s) := if s.f (NET_CTRL_fec m) = 0 then (false, s) else examDetect (0x5001 + 256 * m) fecBad 0 0 s
      let (bad, s) := examDetect (0x5000 + 256 * m) (!fcsGood || fec) 0 0 s
      if bad then bump (NET_RX_FCS m) s
      else if isPause f then bump (NET_PAUSE m) s
      else if s.macFilter m f then
        let k := s.f (NET_RXR_CFG_entries m) + 1
        rxZeros k m (rxStore parity k m f s)
      else s

/-! ### MDIO, links and control registers (R354) -/

/-- A write of NETm_MDIO: one Clause 45 frame; a read operation leaves its answer in [15:0], and busy is over. -/
def mdioWrite (m : Nat) (v : Word) (answer : BitVec 16) (s : State) : State :=
  let n := v.toNat
  let data := if bitOf n 31 then answer.toNat else n % 65536
  wr (NET_MDIO m) (BitVec.ofNat 32 (n % 2 ^ 31 / 65536 * 65536 + data)) (modNet m (fun x => { x with mdio := some v }) s)

/-- MDIO (R354). -/
def execMdio (r : Requester) (m : Nat) (v : Word) (answer : BitVec 16) (s : State) : Res :=
  guardOk (decide (m < 2)) (writeBy r (NET_MDIO m) (mdioWrite m v answer) s)

/-- NET_LINK_CHANGE: a MAC's link comes up or goes down (R368). -/
def execNetLinkChange (m : Nat) (up : Bool) (s : State) : Res :=
  guardOk (decide (m < 2)) <|
    if !s.domOn dNET || s.b (NET_STATUS_link_up m) == up || (up && (!s.b (NET_CTRL_en m) || s.b (NET_STATUS_cfg_err m))) then s
    else
      let v := if up then 1 else 0
      let s := setF (NET_STATUS_block_lock m) v (setF (NET_STATUS_link_up m) v s)
      rxZeros (s.f (NET_RXR_CFG_entries m) + 1) m (raise (0x50 + m) (if up then 0 else 1) 0 s)

/-- A write of NETm_CTRL: speed and fec only while en = 0, fec 0b11 never; Clause 108 needs 25G (R354). -/
def netCtrlWrite (m : Nat) (v : Word) (s : State) : State :=
  let n := v.toNat
  if bitsOf n 3 2 = 3 || (s.b (NET_CTRL_en m) && bitsOf n 3 1 != bitsOf (s.rd (NET_CTRL m)).toNat 3 1) then
    flag (NET_STATUS_bad_write m) s
  else
    let s := plainWrite (NET_CTRL m) v s
    if bitOf n 0 && bitsOf n 3 2 = 2 && !bitOf n 1 then flag (NET_STATUS_cfg_err m) s else s

/-- A write of a ring's size: up to 4,096 entries (R355). -/
def netEntriesWrite (m a : Nat) (v : Word) (s : State) : State :=
  if 4096 < bitsOf v.toNat 12 0 then flag (NET_STATUS_bad_write m) s else plainWrite a v s

/-! ### Media streams (R358) -/

/-- A stream error (R368). -/
def strErr (k : Nat) (s : State) : State := raise (0x50 + s.f (NET_STR_CFG_mac k)) 4 k s

/-- A write of NET_STRs_CFG: refused while en = 1; enabling checks the configuration and attaches the context. A second
context of type 0b01 is refused, its write whole (R358, R510). -/
def nstrCfgWrite (k : Nat) (v : Word) (s : State) : State :=
  if s.b (NET_STR_CFG_en k) then flag (NET_STR_STATUS_bad_write k) s
  else if !bitOf v.toNat 0 then plainWrite (NET_STR_CFG k) v s
  else
    let ty := bitsOf v.toNat 2 1
    let other := (List.range 8).any (fun j => j != k && s.b (NET_STR_CFG_en j) && s.f (NET_STR_CFG_type j) == 1)
    let blk := s.f (NET_STR_SRC_src_blk k)
    let out := s.f (NET_STR_SRC_src_out k)
    let src : Option RingId :=
      if ty = 0 && blk = 0x30 then some (.enc (out % 16))
      else if ty = 1 && !other && 0x18 ≤ blk && blk - 0x18 < Config.ports s.variant && 0x10 ≤ out && out < 0x14 then
        some (.branch (blk - 0x18) (out - 0x10))
      else none
    match src with
    | none =>
      if ty = 1 && other then strErr k (flag (NET_STR_STATUS_cfg_err k) s)
      else strErr k (flag (NET_STR_STATUS_cfg_err k) (plainWrite (NET_STR_CFG k) (setBits v 0 0 0) s))
    | some r =>
      if 128 < s.f (NET_STR_TPL_LEN_bytes k) then
        strErr k (flag (NET_STR_STATUS_cfg_err k) (plainWrite (NET_STR_CFG k) (setBits v 0 0 0) s))
      else
        let (x, s) := draw s
        ringAttach r (.net k) <| plainWrite (NET_STR_CFG k) v <|
          modNstr k (fun _ => { ring := some r, seq := x.toNat % 2 ^ 32 }) s

/-- NET_STREAM_ENABLE: a write of NET_STRs_CFG with en = 1. -/
def execNetStreamEnable (r : Requester) (k : Nat) (v : Word) (s : State) : Res :=
  guardOk (decide (k < 8)) (writeBy r (NET_STR_CFG k) (nstrCfgWrite k (setBits v 0 0 1)) s)

/-- A write of NET_STRs_PAY: 200 to 8,960 bytes. -/
def nstrPayWrite (k : Nat) (v : Word) (s : State) : State :=
  let n := bitsOf v.toNat 13 0
  if n < 200 || 8960 < n then flag (NET_STR_STATUS_bad_write k) s else plainWrite (NET_STR_PAY k) v s

/-- The RTP timestamp of a frame (R358): the tick of its RFN, open if that tick is no longer known. -/
def rtpTime (rfn : Nat) (s : State) : Nat × State :=
  match s.tickStamp rfn with
  | some t => ((t.sec * 1000000000 + t.ns) * 9 / 100000 % 2 ^ 32, s)
  | none => let (v, s) := draw s; (v.toNat % 2 ^ 32, s)

/-- The ones' complement sum of 16-bit big-endian words. -/
def onesSum (l : List Byte) : Nat :=
  let t := (List.range (ceilDiv l.length 2)).foldl (fun a i => a + beAt l (2 * i) 2) 0
  let f (n : Nat) : Nat := n % 65536 + n / 65536
  f (f (f t))

/-- A packet from the template: the fields R358 names filled in. -/
def buildPacket (tpl : List Byte) (ip : Nat) (v6 : Bool) (seq ts : Nat) (marker : Bool) (payload : List Byte) : List Byte :=
  let p := tpl ++ payload
  let len := p.length
  let udp := ip + if v6 then 40 else beAt tpl ip 1 % 16 * 4
  let rtp := udp + 8
  let p := overwrite p (rtp + 2) (beBytes 2 seq)
  let p := overwrite p (rtp + 4) (beBytes 4 ts)
  let p := overwrite p (rtp + 1) [BitVec.ofNat 8 (beAt p (rtp + 1) 1 % 128 + if marker then 128 else 0)]
  let p := overwrite p (udp + 4) (beBytes 2 (len - udp))
  let p := overwrite p (udp + 6) (beBytes 2 0)
  if v6 then
    let p := overwrite p (ip + 4) (beBytes 2 (len - ip - 40))
    let pseudo := slice p 0 (ip + 8) 32 ++ beBytes 4 (len - udp) ++ beBytes 4 17
    let c := 65535 - onesSum (pseudo ++ p.drop udp)
    overwrite p (udp + 6) (beBytes 2 (if c = 0 then 65535 else c))
  else
    let p := overwrite p (ip + 2) (beBytes 2 (len - ip))
    let p := overwrite p (ip + 10) (beBytes 2 0)
    overwrite p (ip + 10) (beBytes 2 (65535 - onesSum (slice p 0 ip (udp - ip))))

/-- Builds a packet and sends it, or discards it while the link is down or where the packet buffer's parity fails (R358,
R368). -/
def nstrSend (k : Nat) (marker : Bool) (payload : Option (List Byte)) (s : State) : State :=
  let m := s.f (NET_STR_CFG_mac k)
  let (tpl, s) := dmaRead 12 (s.pair (NET_STR_TPL_LO k) (NET_STR_TPL_HI k)) (s.f (NET_STR_TPL_LEN_bytes k)) s
  let x := s.nstr k
  let s := modNstr k (fun y => { y with seq := (y.seq + 1) % 2 ^ 32 }) s
  match tpl, payload with
  | some t, some bs =>
    if s.macUp m then
      let (bad, s) := examDetect (0x5002 + 256 * m) false 0 0 s
      if bad then strErr k (bump (NET_STR_DISC k) s) else
      (macSend m (buildPacket t (s.f (NET_STR_TPL_LEN_ip_ofs k)) (s.b (NET_STR_TPL_LEN_ipv6 k)) x.seq x.ts marker bs) s).2
    else bump (NET_STR_DISC k) s
  | _, _ => strErr k (bump (NET_STR_DISC k) s)

/-- A list in pieces of `n`. -/
def pieces (n : Nat) (l : List Byte) : List (List Byte) :=
  (List.range (ceilDiv l.length (floor1 n))).map (fun i => (l.drop (i * n)).take n)

/-- The RTP payloads of a NAL unit: itself, or fragmentation units (RFC 7798). -/
def nalPackets (max : Nat) (u : List Byte) : List (List Byte) :=
  if u.length ≤ max then [u]
  else
    let b0 := beAt u 0 1
    let ty := b0 / 2 % 64
    let head := [BitVec.ofNat 8 (b0 / 128 * 128 + 49 * 2 + b0 % 2), u.getD 1 0]
    let ps := pieces (max - 3) (u.drop 2)
    (List.range ps.length).map (fun i =>
      head ++ [BitVec.ofNat 8 ((if i = 0 then 128 else 0) + (if i + 1 = ps.length then 64 else 0) + ty)] ++ ps.getD i [])

/-- The descriptor of a buffer is sound and of format `fmt`. -/
def nstrDesc (r : RingId) (b fmt : Nat) (s : State) : Option (FrameInfo × BufInfo) × State :=
  let (got, s) := dmaRead 12 (s.slotAddr r b) 128 s
  match got with
  | none => (none, s)
  | some d =>
    if leAt d 0x7C 4 = crc32 (d.take 124) && (descBuf d).fmt = fmt then (some (descInfo d, descBuf d), s) else (none, s)

/-- An H.265 context takes up the oldest access unit offered. -/
def nstrTakeAu (k : Nat) (r : RingId) (s : State) : State :=
  match s.heldBy r (.net k) with
  | [] => s
  | b :: _ =>
    match nstrDesc r b 0x42 s with
    | (none, s) => ringRelease r (.net k) b (strErr k s)
    | (some (i, y), s) =>
      let (au, s) := dmaRead 12 y.addr y.written s
      let (ts, s) := rtpTime i.rfn s
      let ps := (nalUnits (au.getD [])).flatMap (nalPackets (s.f (NET_STR_PAY_payload_max k)))
      if ps.isEmpty then ringRelease r (.net k) b (strErr k s)
      else
        let q := (List.range ps.length).map (fun j => (ps.getD j [], j + 1 == ps.length))
        modNstr k (fun x => { x with buf := some b, ts := ts, queue := q }) s

/-- An H.265 context sends its next packet; the last one releases the buffer. -/
def nstrAuPacket (k : Nat) (r : RingId) (s : State) : State :=
  let s := if (s.nstr k).queue.isEmpty then nstrTakeAu k r s else s
  match (s.nstr k).queue, (s.nstr k).buf with
  | (p, last) :: t, some b =>
    let s := nstrSend k last (some p) (modNstr k (fun x => { x with queue := t }) s)
    if last then ringRelease r (.net k) b (modNstr k (fun x => { x with buf := none }) s) else s
  | _, _ => s

/-- Four 10-bit samples as an ST 2110-20 pgroup: Cb, Y0, Cr, Y1, most significant bit first (PRESUMED). -/
def pgroup (w : Nat) : List Byte :=
  beBytes 5 (bitsOf w 9 0 * 2 ^ 30 + bitsOf w 19 10 * 2 ^ 20 + bitsOf w 29 20 * 2 ^ 10 + bitsOf w 39 30)

/-- Bytes of samples in the packets of a line. -/
def vidMax (k : Nat) (s : State) : Nat := floor1 (s.f (NET_STR_PAY_payload_max k) / 5) * 5

/-- Bytes of a line's samples. -/
def VidFrame.row (f : VidFrame) : Nat := f.w / 2 * 5

/-- The packets of a frame. -/
def vidCount (k : Nat) (f : VidFrame) (s : State) : Nat := f.h * ceilDiv f.row (vidMax k s)

/-- The ST 2110-20 context sends its next packet: one row segment (R358). -/
def nstrVidPacket (k : Nat) (s : State) : State :=
  match (s.nstr k).cur, (s.nstr k).tick with
  | some f, some t =>
    let per : Nat := match s.nominal with
      | some p => p.floor.toNat
      | none => 0
    let s := advanceTo (t + s.f (NET_STR_OFS_ns k) * 1000 + f.no * per / floor1 (vidCount k f s)) s
    let n := min (vidMax k s) (f.row - f.off)
    let (got, s) := dmaRead 12 (f.addr + f.line * f.stride + f.off) n s
    let end_ := f.row ≤ f.off + n
    let last := end_ && f.h ≤ f.line + 1
    let head := beBytes 2 ((s.nstr k).seq / 65536) ++ beBytes 2 n ++ beBytes 2 f.line ++ beBytes 2 (f.off / 5 * 2)
    let payload := got.map (fun bs => head ++ (List.range (n / 5)).flatMap (fun i => pgroup (leAt bs (5 * i) 5)))
    let next : Option VidFrame :=
      if last then none
      else if end_ then some { f with line := f.line + 1, off := 0, no := f.no + 1 }
      else some { f with off := f.off + n, no := f.no + 1 }
    nstrSend k last payload (modNstr k (fun x => { x with cur := next }) s)
  | _, _ => s

/-- STREAM_PACKET: one media packet (R358). -/
def execStreamPacket (k : Nat) (s : State) : Res :=
  guardOk (decide (k < 8)) <|
    if !s.domOn dNET || !s.b (NET_STR_CFG_en k) then s
    else match (s.nstr k).ring with
      | some (.enc c) => nstrAuPacket k (.enc c) s
      | _ => nstrVidPacket k s

/-- A frame within the limits of R358. -/
def State.vidOk (s : State) (k : Nat) (w h : Nat) : Bool :=
  0 < w && 0 < h && w % 2 = 0 && w ≤ 4096 && h ≤ 2160 &&
    (s.b (NET_CTRL_speed (s.f (NET_STR_CFG_mac k))) ||
      w * h * s.f REF_RATE_NUM_num ≤ 2048 * 1080 * 30 * s.f REF_RATE_DEN_den)

/-- The newest frame offered, if it is newer and passes; else the held one again (R337, R338, R358). -/
def nstrSelect (k : Nat) (r : RingId) (s : State) : State :=
  let again (s : State) : State := if (s.nstr k).buf.isSome then bump (NET_STR_REPEAT k) s else s
  let s := match (s.heldBy r (.net k)).getLast? with
    | none => again s
    | some b =>
      if (s.nstr k).buf = some b then again s
      else
        match nstrDesc r b 0x20 s with
        | (some (i, y), s) =>
          if s.vidOk k i.width i.height then
            let (ts, s) := rtpTime i.rfn s
            let s := ((s.heldBy r (.net k)).filter (· != b)).foldl (fun s o => ringRelease r (.net k) o s) s
            modNstr k (fun x => { x with buf := some b, ts := ts, held := some { addr := y.addr, stride := y.stride, w := i.width, h := i.height } }) s
          else again (strErr k (ringRelease r (.net k) b (bump (NET_STR_GEOM k) s)))
        | (none, s) => again (strErr k (ringRelease r (.net k) b (bump (NET_STR_GEOM k) s)))
  modNstr k (fun x => { x with cur := x.held }) s

/-- STREAM_FRAME_SELECT: at a tick the ST 2110-20 context sends what is left of its frame and selects the next. -/
def execStreamFrameSelect (k : Nat) (s : State) : Res :=
  guardOk (decide (k < 8)) <|
    match (s.nstr k).ring, s.ref.ticks with
    | some (.branch n b), t :: _ =>
      if !s.domOn dNET || !s.b (NET_STR_CFG_en k) || (s.nstr k).tick = some t.at_ then s
      else
        let left := match (s.nstr k).cur with
          | some f => vidCount k f s - f.no
          | none => 0
        let s := (List.range left).foldl (fun s _ => nstrVidPacket k s) s
        nstrSelect k (.branch n b) (modNstr k (fun x => { x with tick := some t.at_ }) s)
    | _, _ => s

end Sys2Proof.Machine
end

