-- ==== Sys2Proof/Machine/Photre.lean ====
section
/-! DEFINITION. The Photre raw codec (R214 to R240): prediction, Rice, verbatim and husk slabs, rate control, the
encoders PRCn and the decoder PRD. -/

namespace Sys2Proof.Machine

/-! ### Samples (R214, R215) -/

/-- The ordered form of an SL20 code (R215). -/
def ordered (c : Nat) : Int := if bitOf c 19 then -((c % 2 ^ 19 : Nat) : Int) else ((c % 2 ^ 19 : Nat) : Int)

/-- The SL20 code of an ordered sample. -/
def unordered (i : Int) : Nat := if i < 0 then 2 ^ 19 + i.natAbs else i.natAbs

/-- What a slab's coding depends on: kind 1 is ordered SL20; `p` is the sample period (R214, R216). -/
structure Fmt where
  kind1 : Bool
  B     : Nat
  p     : Nat
  W     : Nat

/-- The least and greatest sample (R214). -/
def Fmt.range (f : Fmt) : Int × Int := if f.kind1 then (-(2 ^ 19 - 1), 2 ^ 19 - 1) else (0, 2 ^ f.B - 1)

/-- Rows of samples. -/
abbrev Slab := Array (Array Int)

/-- A sample of a slab. -/
def Slab.at (a : Slab) (x y : Nat) : Int := (a.getD y #[]).getD x 0

/-! ### Prediction and quantisation (R220, R221) -/

/-- The prediction of sample (x, y) from the reconstruction so far (R220). -/
def predict (f : Fmt) (rec : Slab) (x y : Nat) : Int :=
  let left := decide (f.p ≤ x)
  let up := decide (f.p ≤ y)
  if !left && !up then (if f.kind1 then 0 else 2 ^ (f.B - 1))
  else if !up then rec.at (x - f.p) y
  else if !left then rec.at x (y - f.p)
  else
    let a := rec.at (x - f.p) y
    let b := rec.at x (y - f.p)
    let c := rec.at (x - f.p) (y - f.p)
    if max a b ≤ c then min a b else if c ≤ min a b then max a b else a + b - c

/-- The reconstruction from a prediction and a quantised error (R221). -/
def reconOf (f : Fmt) (q : Nat) (P qe : Int) : Int :=
  let (lo, hi) := f.range
  max lo (min hi (P + qe * q))

/-- The quantised error of a sample (R221). -/
def quantErr (q : Nat) (e : Int) : Int :=
  let m : Int := ((e.natAbs + (q - 1) / 2) / q : Nat)
  if e < 0 then -m else m

/-- The symbol of a quantised error (R221). -/
def symOf (qe : Int) : Nat := if 0 ≤ qe then 2 * qe.natAbs else 2 * qe.natAbs - 1

/-- The quantised error of a symbol. -/
def errOf (m : Nat) : Int := if m % 2 = 0 then ((m / 2 : Nat) : Int) else -(((m + 1) / 2 : Nat) : Int)

/-- Appends a sample to the last row of a slab. -/
def Slab.push1 (a : Slab) (v : Int) : Slab := a.modify (a.size - 1) (·.push v)

/-- The symbols of a slab, row by row (R220, R221). -/
def slabSyms (f : Fmt) (q : Nat) (v : Slab) : List (List Nat) :=
  ((List.range v.size).foldl (fun (x : Slab × List (List Nat)) y =>
    let (rec, row) := (List.range f.W).foldl (fun (z : Slab × List Nat) i =>
      let P := predict f z.1 i y
      let qe := quantErr q (v.at i y - P)
      (z.1.push1 (reconOf f q P qe), z.2 ++ [symOf qe])) (x.1.push #[], [])
    (rec, x.2 ++ [row])) (#[], [])).2

/-! ### Rice coding (R222, R223) -/

/-- The groups of a row: 32 symbols each, the last one shorter (R222). -/
def groupsOf (row : List Nat) : List (List Nat) :=
  (List.range (ceilDiv row.length 32)).map (fun i => (row.drop (32 * i)).take 32)

/-- The smallest k from 0 to 21 with N × 2^k ≥ S, else 21 (R222). -/
def riceK (n sum : Nat) : Nat := ((List.range 22).find? (fun k => sum ≤ n * 2 ^ k)).getD 21

/-- The low `n` bits of a number, least significant first. -/
def bitsLsb (n v : Nat) : List Bool := (List.range n).map (bitOf v)

/-- One symbol's bits (R223). -/
def symBits (k m : Nat) : List Bool :=
  let u := m / 2 ^ k
  if u < 24 then List.replicate u false ++ true :: bitsLsb k m else List.replicate 24 false ++ bitsLsb 21 m

/-- A bit string as bytes, least significant bit first, padded with zeros to a multiple of 8 bytes (R219). -/
def packPayload (bits : List Bool) : List Byte :=
  let n := ceilDiv bits.length 64 * 8
  (List.range n).map (fun i => BitVec.ofNat 8 (((bits.drop (8 * i)).take 8).foldr (fun b a => 2 * a + (if b then 1 else 0)) 0))

/-- A RICE payload and its k0 (R222, R223). -/
def ricePayload (f : Fmt) (q : Nat) (v : Slab) : Nat × List Byte :=
  let gs := (slabSyms f q v).flatMap groupsOf
  let k0 := match gs with
    | g :: _ => riceK g.length g.sum
    | [] => 0
  let bits := (gs.foldl (fun (x : List (List Bool) × Nat) g =>
    (x.1 ++ [g.flatMap (symBits x.2)], riceK g.length g.sum)) ([], k0)).1
  (k0, packPayload bits.flatten)

/-- A VERBATIM payload (R224). -/
def verbPayload (f : Fmt) (v : Slab) : List Byte :=
  packPayload (v.toList.flatMap (fun r => r.toList.flatMap (fun x => bitsLsb f.B (if f.kind1 then (x % 2 ^ 20).toNat else x.toNat))))

/-! ### Husk slabs (R225, R226) -/

/-- A sample on the offset scale (R226). -/
def toZ (f : Fmt) (x : Int) : Int := if f.kind1 then x + 2 ^ 19 else x * 2 ^ (20 - f.B)

/-- A husk word: mean code and ramp of one phase (R226). -/
def huskWord (zs : List Int) : Nat :=
  let n := zs.length
  if n = 0 then 0
  else
    let m := min (zs.sum / (256 * n)).toNat 4095
    let num : Int := ((List.range n).map (fun (j : Nat) => (2 * (j : Int) - n + 1) * zs.getD j 0)).sum
    let s : Int := if n = 1 then 0 else max (-8) (min 7 (rne ((num : Rat) / (64 * ((n ^ 3 - n : Nat) : Rat) / 3))))
    m + (s % 16).toNat * 4096

/-- A HUSK payload (R225). -/
def huskPayload (f : Fmt) (v : Slab) : List Byte :=
  let words := v.toList.flatMap (fun row =>
    (List.range (ceilDiv f.W 32)).flatMap (fun g =>
      let n := min 32 (f.W - 32 * g)
      (List.range f.p).map (fun ph =>
        huskWord ((List.range (ceilDiv (n - ph) f.p)).map (fun j => toZ f (row.getD (32 * g + ph + f.p * j) 0))))))
  let bs := words.flatMap (leBytes 2)
  bs ++ List.replicate (ceilDiv bs.length 8 * 8 - bs.length) 0

/-- A slab: header and payload (R219). -/
def slabBytes (s type q k0 : Nat) (forced : Bool) (payload : List Byte) : List Byte :=
  leBytes 4 (s % 2 ^ 13 + type * 2 ^ 13 + q * 2 ^ 15 + k0 * 2 ^ 20 + (if forced then 2 ^ 25 else 0)) ++
    leBytes 4 (crc32 payload) ++ payload

/-- The husk form of a slab. -/
def huskSlab (f : Fmt) (s : Nat) (forced : Bool) (v : Slab) : List Byte := slabBytes s 2 0 0 forced (huskPayload f v)

/-- The slab at step q: RICE, or at q = 1 VERBATIM if RICE would be larger (R224). The type comes first. -/
def codedSlab (f : Fmt) (s q : Nat) (v : Slab) : Nat × List Byte :=
  let (k0, p) := ricePayload f q v
  let w := verbPayload f v
  if q = 1 && w.length < p.length then (1, slabBytes s 1 1 0 false w) else (0, slabBytes s 0 q k0 false p)

/-- The most bytes a husk slab takes (R225). -/
def hHusk (f : Fmt) : Nat := 8 + 32 * f.p * ceilDiv f.W 32

/-- A slab's VERBATIM size for `rows` rows. -/
def verbSize (f : Fmt) (rows : Nat) : Nat := 8 + ceilDiv (ceilDiv (rows * f.W * f.B) 8) 8 * 8

/-! ### The encoder -/

/-- Encoder `n`. -/
def State.prc (s : State) (n : Nat) : PrcSt := lookD s.prcs {} n

/-- Changes encoder `n`. -/
def modPrc (n : Nat) (f : PrcSt → PrcSt) (s : State) : State := { s with prcs := put s.prcs n (f (s.prc n)) }

/-- The registers an apply puts in force (R234). -/
def prcLive (n a : Nat) : Bool :=
  a == PRC_CTRL n || a == PRC_BUDGET n || a == PRC_QGAIN0 n || a == PRC_QGAIN1 n || a == PRC_QGAIN2 n || a == PRC_QGAIN3 n

/-- Shows map_valid and apply_pending. -/
def showPrc (n : Nat) (s : State) : State :=
  let p := s.prc n
  setF (PRC_STATUS_map_valid n) (if p.map.isSome then 1 else 0)
    (setF (PRC_STATUS_apply_pending n) (if p.cap.isSome then 1 else 0) s)

/-- A write of PRCn_CTRL: an even qmax is refused; the cost map is invalid when en rises (R229). -/
def prcCtrlWrite (n : Nat) (v : Word) (s : State) : State :=
  if bitsOf v.toNat 7 3 % 2 = 0 then flag (PRC_STATUS_bad_write n) s
  else
    let was := s.b (PRC_CTRL_en n)
    let s := plainWrite (PRC_CTRL n) v s
    if !was && s.b (PRC_CTRL_en n) then showPrc n (modPrc n (fun p => { p with map := none }) s) else s

/-- PRC_ENABLE: a write of PRCn_CTRL with en = 0b1. -/
def execPrcEnable (r : Requester) (n : Nat) (v : Word) (s : State) : Res :=
  guardOk (decide (n < 4)) (writeBy r (PRC_CTRL n) (prcCtrlWrite n (v ||| 1)) s)

/-- A write of PRCn_APPLY: the set written so far is captured (R234). -/
def prcApplyWrite (n : Nat) (v : Word) (s : State) : State :=
  if bitOf v.toNat 0 then
    showPrc n (modPrc n (fun p => { p with cap := some (s.regs.filter (fun e => prcLive n e.1)) }) s)
  else s

/-- PRC_APPLY (R234). -/
def execPrcApply (r : Requester) (n : Nat) (v : Word) (s : State) : Res :=
  guardOk (decide (n < 4)) (writeBy r (PRC_APPLY n) (prcApplyWrite n (v ||| 1)) s)

/-- The frame a tap is handing to encoder `n`. -/
def State.feed (s : State) (n : Nat) : Option PrcFeed := (lookD s.feeds [] n).head?

/-- Removes the frame at hand. -/
def dropFeed (n : Nat) (s : State) : State := { s with feeds := put s.feeds n ((lookD s.feeds [] n).drop 1) }

/-- The coding format of a feed (R214, R216). -/
def PrcFeed.fmt (d : PrcFeed) (mono : Bool) : Fmt :=
  ⟨d.tap != 0, if d.tap = 0 then d.depth else 20, if mono then 1 else 2, d.info.width⟩

/-- Slabs of a frame of height `h`, and the rows of slab `s`. -/
def slabCount (h : Nat) : Nat := ceilDiv h 16
def slabRows (h s : Nat) : Nat := min 16 (h - 16 * s)

/-- Header and index bytes of a frame. -/
def headBytes (ns : Nat) : Nat := 64 + 8 * ns

/-- The least budget (R228). -/
def fMin (f : Fmt) (h : Nat) : Nat := headBytes (slabCount h) + slabCount h * hHusk f

/-- The largest LOSSLESS frame (R227). -/
def lMax (f : Fmt) (h : Nat) : Nat :=
  headBytes (slabCount h) + ((List.range (slabCount h)).map (fun s => verbSize f (slabRows h s))).sum

/-- The configuration in force suits the frame (R228, R232, R235). -/
def prcSound (n : Nat) (d : PrcFeed) (s : State) : Bool :=
  let f := d.fmt (s.g (PRC_CTRL_mono n) != 0)
  let h := d.info.height
  let F := s.g (PRC_BUDGET_bytes n)
  let need := if s.g (PRC_CTRL_mode n) = 1 then F else lMax f h
  d.tap != 3 && (s.g (PRC_CTRL_mode n) == 0 || decide (fMin f h ≤ F)) && decide (128 + need ≤ s.ringSlot (.prc n))

/-- A gain of PRCn_QGAIN for odd step q (R230). -/
def prcGain (n q : Nat) (s : State) : Nat :=
  let e := (q - 1) / 2
  let w := match e / 4 with
    | 0 => s.g (PRC_QGAIN0_g1_g7 n)
    | 1 => s.g (PRC_QGAIN1_g9_g15 n)
    | 2 => s.g (PRC_QGAIN2_g17_g23 n)
    | _ => s.g (PRC_QGAIN3_g25_g31 n)
  bitsOf w (8 * (e % 4) + 7) (8 * (e % 4))

/-- A frame that will not be coded: its rows pass by. -/
def prcSkip (n : Nat) (s : State) : State := modPrc n (fun p => { p with cur := some {} }) s

/-- A frame starts at encoder `n` (R229, R233 to R235); while an overlay holds its registers, none transfers (R406 step 2): a change of its size, kind, depth or mono invalidates the cost map
whatever becomes of the frame. -/
def prcStart (n : Nat) (d : PrcFeed) (s : State) : State :=
  if !s.b (PRC_CTRL_en n) then prcSkip n s
  else
    let s := match if s.cfg.todo.contains n || (look s.cfg.hold n).isSome then none else (s.prc n).cap with
      | some c => showPrc n (modPrc n (fun p => { p with cap := none, told := false }) (forceLive (prcLive n) c s))
      | none => s
    let f := d.fmt (s.g (PRC_CTRL_mono n) != 0)
    let key := (f.W, d.info.height, (if f.kind1 then 1 else 0), f.B, s.g (PRC_CTRL_mono n) != 0)
    let s := showPrc n (modPrc n (fun p => { p with map := p.map.filter (fun m => m.1 == key) }) s)
    if !prcSound n d s then
      let s := flag (PRC_STATUS_cfg_err n) s
      prcSkip n (if (s.prc n).told then s else raise (0x28 + n) 1 0 (modPrc n (fun p => { p with told := true }) s))
    else
      match ringTake (.prc n) s with
      | (.off, s) => prcSkip n s
      | (.dropped, s) => prcSkip n (raise (0x28 + n) 2 0xFF s)
      | (.buf b, s) =>
        let mono := s.g (PRC_CTRL_mono n) != 0
        let h := d.info.height
        let ns := slabCount h
        let costs := match (s.prc n).map with
          | some m => m.2
          | none => (List.range ns).map (fun i => verbSize f (slabRows h i))
        let const := s.g (PRC_CTRL_mode n) == 1
        let F := s.g (PRC_BUDGET_bytes n)
        let c : PrcCur := {
          coding := true, buf := b, const := const, mono := mono, qmax := s.g (PRC_CTRL_qmax n), budget := F, costs := costs
          rem := F - headBytes ns, crem := (costs.map (fun c => max c (hHusk f))).sum }
        modPrc n (fun p => { p with cur := some c }) s

/-- PRC_FRAME_START (R233 to R235): the next frame handed over starts, once the one before it is done or was lost. -/
def prcFrameStart (n : Nat) (s : State) : State :=
  let fs := lookD s.feeds [] n
  let s := match (s.prc n).cur, fs with
    | some c, d :: _ :: _ =>
      if d.final && c.coding then s
      else
        let s := if c.coding then ringAbandon (.prc n) s else s
        dropFeed n (modPrc n (fun p => { p with cur := none }) s)
    | some c, d :: [] => if d.final && !c.coding then dropFeed n (modPrc n (fun p => { p with cur := none }) s) else s
    | _, _ => s
  match (s.prc n).cur, s.feed n with
  | none, some d => prcStart n d s
  | _, _ => s

/-- PRC_FRAME_START. -/
def execPrcFrameStart (n : Nat) (s : State) : Res :=
  guardOk (decide (n < 4)) (if s.unitOn (dIP n) && s.domOn dPRC then prcFrameStart n (absorb n s) else s)

/-- Rate control for slab `i` (R230): the slab's type, q, bytes, and whether qmax was the fallback. -/
def rateSlab (n : Nat) (f : Fmt) (c : PrcCur) (ns i rows : Nat) (v : Slab) (s : State) : Nat × Nat × List Byte × Bool :=
  let H := hHusk f
  let ci := c.costs.getD i 0
  let cs := max ci H
  let lim := c.rem - (ns - i - 1) * H
  let x := c.rem - (ns - i) * H
  let y := c.crem - (ns - i) * H
  let a := if 0 < y then H + x * (cs - H) / y else H + x / (ns - i)
  let steps := (List.range ((c.qmax + 1) / 2)).map (fun k => 2 * k + 1)
  let qs := (steps.find? (fun q => decide (ci ≤ a + rows * f.W * prcGain n q s / 128))).getD c.qmax
  let (t, bs) := codedSlab f i qs v
  if bs.length ≤ lim then (t, qs, bs, false)
  else
    let (t, bs) := codedSlab f i c.qmax v
    if qs < c.qmax && bs.length ≤ lim then (t, c.qmax, bs, true) else (2, 0, huskSlab f i false v, false)

/-- The bytes a slab list takes. -/
def slabsLen (l : List (Nat × Nat × Bool × Nat)) : Nat := (l.map (fun e => e.2.2.2)).sum

/-- One slab is coded, written and accounted for (R230, R236, R240). -/
def slabCode (n : Nat) (s : State) : State :=
  match (s.prc n).cur, s.feed n with
  | some c, some d =>
    let h := d.info.height
    let ns := slabCount h
    let i := c.slabs.length
    let rows := slabRows h i
    if !c.coding || ns ≤ i || d.rows.size < 16 * i + rows then s
    else
      let f := d.fmt c.mono
      let v : Slab := (d.rows.extract (16 * i) (16 * i + rows)).map (fun r => r.map (fun (x : Nat) => if f.kind1 then ordered x else (x : Int)))
      let lossless := (codedSlab f i 1 v).2.length
      let (forced, s) := examDetect (0x2800 + n * 256) false i 0 s
      let (t, q, bs, fell) :=
        if forced then (2, 0, huskSlab f i true v, false)
        else if !c.const then let (t, bs) := codedSlab f i 1 v; (t, 1, bs, false)
        else if c.first.isSome then (2, 0, huskSlab f i false v, false)
        else rateSlab n f c ns i rows v s
      let startRun := c.const && !forced && t == 2 && c.first.isNone
      let off := headBytes ns + slabsLen c.slabs
      let c' := { c with
        slabs := c.slabs ++ [(t, q, forced, bs.length)]
        rem := c.rem - bs.length, crem := c.crem - max (c.costs.getD i 0) (hHusk f)
        first := if startRun then some i else c.first
        next := c.next ++ [lossless]
        fsw := if forced then fswSet fswLineCrc c.fsw else c.fsw }
      let s := modPrc n (fun p => { p with cur := some c' }) s
      let s := dmaPut 4 (s.slotAddr (.prc n) c.buf + 128 + off) bs s
      let s := if startRun then raise (0x28 + n) 0 (d.info.pfn % 65536) s else s
      let s := if forced then raise (0x28 + n) 3 i s else s
      let s := if t = 2 then bump (PRC_HUSK_SLABS n) s else s
      let s := if t = 1 then bump (PRC_VERB_SLABS n) s else s
      if fell then bump (PRC_FALLBACK n) s else s
  | _, _ => s

/-- SLAB_CODED (R230). -/
def execSlabCoded (n : Nat) (s : State) : Res :=
  guardOk (decide (n < 4)) (if s.unitOn (dIP n) && s.domOn dPRC then slabCode n s else s)

/-- The frame header's first 60 bytes (R217). -/
def prcHeader (d : PrcFeed) (c : PrcCur) (bytes pad : Nat) : List Byte :=
  let f := d.fmt c.mono
  let ns := slabCount d.info.height
  leBytes 4 0x45524850 ++
    leBytes 4 (1 + (if c.const then 2 ^ 8 else 0) + (if f.kind1 then 2 ^ 10 else 0) + (if c.mono then 2 ^ 11 else 0) +
      f.B * 2 ^ 12 + d.tap * 2 ^ 17 + (if d.tap = 0 then d.readout else 0) * 2 ^ 19 + d.cfa * 2 ^ 21) ++
    leBytes 2 d.info.width ++ leBytes 2 d.info.height ++ leBytes 2 ns ++ leBytes 2 (c.first.getD ns) ++
    leBytes 4 bytes ++ leBytes 4 pad ++ leBytes 4 d.info.pfn ++ leBytes 4 d.info.rfn ++ leBytes 2 d.info.sid ++
    leBytes 2 c.qmax ++ leBytes 4 (if c.const then c.budget else 0) ++ leBytes 20 0

/-- The slab index (R218): offsets follow one another. -/
def prcIndex (ns : Nat) (slabs : List (Nat × Nat × Bool × Nat)) : List Byte :=
  (slabs.foldl (fun (x : List Byte × Nat) e =>
    let (t, q, forced, len) := e
    (x.1 ++ leBytes 4 x.2 ++ leBytes 4 (len % 2 ^ 24 + t * 2 ^ 24 + q * 2 ^ 26 + (if forced then 2 ^ 31 else 0)), x.2 + len))
    ([], headBytes ns)).1

/-- A coded frame is complete; the statistics of its frame are written first (R177, R233): padding, index, header, descriptor, and its offer. -/
def prcDone (n : Nat) (s : State) : State :=
  let s := match s.feed n with
    | some d => statsOf n d.info.pfn s
    | none => s
  match (s.prc n).cur, s.feed n with
  | some c, some d =>
    let h := d.info.height
    let ns := slabCount h
    if !c.coding then (if d.final then dropFeed n (modPrc n (fun p => { p with cur := none }) s) else s)
    else if c.slabs.length < ns || !d.final then s
    else
      let f := d.fmt c.mono
      let len := headBytes ns + slabsLen c.slabs
      let pad := if c.const then c.budget - len else 0
      let bytes := len + pad
      let a := s.slotAddr (.prc n) c.buf + 128
      let s := dmaPut 4 (a + len) (List.replicate pad 0) s
      let s := dmaPut 4 (a + 64) (prcIndex ns c.slabs) s
      let hd := prcHeader d c bytes pad
      let s := dmaPut 4 a (hd ++ leBytes 4 (crc32 hd)) s
      let first := c.first.getD ns
      let s := setF (PRC_LAST_first_husk n) first (setF (PRC_LAST_q_hi n) ((c.slabs.map (fun e => e.2.1)).foldl max 0) s)
      let s := wr (PRC_LAST_BYTES n) (BitVec.ofNat 32 len) s
      let s := if first < ns then bump (PRC_HUSK_FRAMES n) s else s
      let (bad, s) := examDetect (0x2801 + n * 256) false 0 0 s
      let key := (f.W, h, (if f.kind1 then 1 else 0), f.B, c.mono)
      let s := modPrc n (fun p => { p with cur := none, map := if bad then none else some (key, c.next) }) s
      let i := { d.info with fsw := fswOr d.info.fsw c.fsw }
      let x : BufInfo := {
        blk := 0x28 + n, out := 0xFF, fmt := if c.const then 0x41 else 0x40
        addr := a, len := s.ringSlot (.prc n) - 128, written := bytes, stride := 0 }
      let g := s.ring (.prc n)
      showPrc n (dropFeed n (ringPublish (.prc n) (putRing (.prc n) { g with ready := some (i, x) } s)))
  | _, _ => s

/-- PRC_FRAME_DONE (R233). -/
def execPrcFrameDone (n : Nat) (s : State) : Res :=
  guardOk (decide (n < 4)) (if s.unitOn (dIP n) && s.domOn dPRC then prcDone n (absorb n s) else s)

/-! ### The decoder (R237 to R239) -/

/-- The registers of a job as they stood at its start. -/
def prdRegs : List Nat :=
  [PRD_SRC_LO, PRD_SRC_HI, PRD_SRC_LEN, PRD_SLABS, PRD_DST_LO, PRD_DST_HI, PRD_DST_LEN, PRD_DST_STRIDE, PRD_CFG]

/-- A write of PRD_GO (R237). -/
def prdGoWrite (v : Word) (s : State) : State :=
  if !bitOf v.toNat 0 then s
  else if s.b PRD_STATUS_busy then flag PRD_STATUS_bad_write s
  else flag PRD_STATUS_busy { s with prd := some (prdRegs.map (fun a => (a, s.rd a))) }

/-- PRD_GO (R237). -/
def execPrdGo (r : Requester) (v : Word) (s : State) : Res := .next (writeBy r PRD_GO (prdGoWrite (v ||| 1)) s)

/-- A field of a job's registers. -/
def jobF (job : List (Nat × Word)) (x : Fld) : Nat := bitsOf (lookD job 0 x.addr).toNat x.hi x.lo

/-- What a frame header says (R217). -/
structure PrcHead where
  f    : Fmt
  h    : Nat
  ns   : Nat

/-- The header at `bs`, if it is sound (R217, R237 step 1). -/
def readHead (bs : List Byte) : Option PrcHead :=
  let w := leAt bs 4 4
  let H := leAt bs 10 2
  let ok := bs.length == 64 && leAt bs 0 4 == 0x45524850 && w % 256 == 1 && decide (bitsOf w 9 8 < 2) &&
    decide (10 ≤ bitsOf w 16 12 ∧ bitsOf w 16 12 ≤ 20) && decide (bitsOf w 18 17 < 3) && bitsOf w 31 23 == 0 &&
    bitsOf (leAt bs 12 4) 15 13 == 0 && bitsOf (leAt bs 12 4) 31 29 == 0 && bitsOf (leAt bs 0x20 4) 31 21 == 0 &&
    (slice bs 0 0x28 20).all (· == 0) && leAt bs 0x3C 4 == crc32 (bs.take 60)
  if ok then some ⟨⟨bitOf w 10, bitsOf w 16 12, if bitOf w 11 then 1 else 2, leAt bs 8 2⟩, H, bitsOf (leAt bs 12 4) 12 0⟩ else none

/-- Reads one symbol at bit `pos`: the symbol and the next position, or the cause of the error (R223, R238). -/
def readSym (f : Fmt) (pay : Nat) (total k pos : Nat) : Except Nat (Nat × Nat) :=
  let zeros := (List.range 24).takeWhile (fun i => !bitOf pay (pos + i))
  let u := zeros.length
  if u < 24 then
    if total < pos + u + 1 + k then .error 6 else .ok (u * 2 ^ k + pay / 2 ^ (pos + u + 1) % 2 ^ k, pos + u + 1 + k)
  else if total < pos + 45 then .error 6
  else
    let m := pay / 2 ^ (pos + 24) % 2 ^ 21
    if 2 ^ (f.B + 1) - 2 < m then .error 5 else .ok (m, pos + 45)

/-- Decoder progress through a RICE slab: position, k, the group's count and sum, the slab so far. -/
structure RiceSt where
  pos : Nat
  k   : Nat
  n   : Nat := 0
  sum : Nat := 0
  recd : Slab := #[]

/-- One sample of a RICE slab (R220 to R223). -/
def riceSample (f : Fmt) (q pay total x y : Nat) (z : RiceSt) : Except Nat RiceSt :=
  let z := if x % 32 = 0 && (x != 0 || y != 0) then { z with k := riceK z.n z.sum, n := 0, sum := 0 } else z
  match readSym f pay total z.k z.pos with
  | .error c => .error c
  | .ok (m, pos) =>
    .ok { z with
      pos := pos, n := z.n + 1, sum := z.sum + m
      recd := z.recd.push1 (reconOf f q (predict f z.recd x y) (errOf m)) }

/-- A RICE slab's samples (R220 to R223). -/
def decodeRice (f : Fmt) (q k0 rows : Nat) (p : List Byte) : Except Nat Slab :=
  let pay := leNat p
  let total := 8 * p.length
  let r := (List.range rows).foldl (fun (r : Except Nat RiceSt) y =>
    (List.range f.W).foldl (fun (r : Except Nat RiceSt) x =>
      match r with
      | .error c => .error c
      | .ok z => riceSample f q pay total x y z)
      (match r with
        | .error c => .error c
        | .ok z => .ok { z with recd := z.recd.push #[] })) (.ok { pos := 0, k := k0 })
  match r with
  | .error c => .error c
  | .ok z => .ok z.recd

/-- A VERBATIM slab's samples (R224). -/
def decodeVerb (f : Fmt) (rows : Nat) (p : List Byte) : Except Nat Slab :=
  if 8 * p.length < rows * f.W * f.B then .error 6
  else
    let pay := leNat p
    .ok ((List.range rows).map (fun y => ((List.range f.W).map (fun x =>
      let v := pay / 2 ^ ((y * f.W + x) * f.B) % 2 ^ f.B
      if f.kind1 then (BitVec.ofNat 20 v).toInt else (v : Int))).toArray)).toArray

/-- A husk sample: `n` samples in its phase, place `j` (R226). -/
def huskSample (f : Fmt) (w n j : Nat) : Int :=
  let sgn : Int := (BitVec.ofNat 4 (w / 4096)).toInt
  let z := max 0 (min (2 ^ 20 - 1) (256 * ((w % 4096 : Nat) : Int) + 128 + 64 * sgn * (2 * (j : Int) - n + 1)))
  if f.kind1 then max (-(2 ^ 19 - 1)) (min (2 ^ 19 - 1) (z - 2 ^ 19)) else z / 2 ^ (20 - f.B)

/-- A HUSK slab's samples (R225, R226). -/
def decodeHusk (f : Fmt) (rows : Nat) (p : List Byte) : Except Nat Slab :=
  let G := ceilDiv f.W 32
  if p.length < 2 * f.p * rows * G then .error 6
  else
    .ok ((List.range rows).map (fun y => ((List.range f.W).map (fun x =>
      let g := x / 32
      let n := min 32 (f.W - 32 * g)
      let ph := x % 32 % f.p
      huskSample f (leAt p (2 * ((y * G + g) * f.p + ph)) 2) (ceilDiv (n - ph) f.p) (x % 32 / f.p))).toArray)).toArray

/-- Decodes slab `i`: its rows, or the cause of its error (R238). -/
def decodeSlab (hd : PrcHead) (src len i : Nat) (s : State) : Except Nat Slab × State :=
  let rows := slabRows hd.h i
  if len < 0x40 + 8 * i + 8 then (.error 1, s)
  else match dmaRead 8 (src + 0x40 + 8 * i) 8 s with
    | (none, s) => (.error 1, s)
    | (some e, s) =>
      let off := leAt e 0 4
      let w := leAt e 4 4
      let size := w % 2 ^ 24
      if len < off + size || size < 8 then (.error 1, s)
      else match dmaRead 8 (src + off) size s with
        | (none, s) => (.error 1, s)
        | (some b, s) =>
          let h0 := leAt b 0 4
          let (t, q, k0) := (bitsOf h0 14 13, bitsOf h0 19 15, bitsOf h0 24 20)
          let pay := b.drop 8
          if bitsOf h0 12 0 ≠ i || t ≠ bitsOf w 25 24 || q ≠ bitsOf w 30 26 || bitOf h0 25 != bitOf w 31 then (.error 2, s)
          else
            let (bad, s) := examDetect 0x2C01 (leAt b 4 4 != crc32 pay) i 0 s
            if bad then (.error 3, s)
            else
              let r : Except Nat Slab := if t = 3 || 21 < k0 || (t = 0 && q % 2 = 0) then .error 4
                else match t with
                  | 0 => decodeRice hd.f q k0 rows pay
                  | 1 => decodeVerb hd.f rows pay
                  | _ => decodeHusk hd.f rows pay
              let (bad, s) := examDetect 0x2C02 (match r with
                | .error c => c == 4 || c == 5
                | .ok _ => false) i 0 s
              (match r, bad with
                | .ok _, true => .error 4
                | r, _ => r, s)

/-- A sample in an output format (R237, R238). -/
def prdSample (fmt : Nat) (v : Int) : List Byte :=
  match fmt with
  | 1 => leBytes 2 v.toNat
  | 2 => leBytes 4 v.toNat
  | _ => leBytes 4 (unordered v)

/-- One output row, clipped to the output length (R239). -/
def prdRow (job : List (Nat × Word)) (row : Nat) (bs : List Byte) (s : State) : State :=
  let dst := jobF job ⟨PRD_DST_LO, 31, 0⟩ + jobF job ⟨PRD_DST_HI, 31, 0⟩ * 2 ^ 32
  let len := jobF job PRD_DST_LEN_bytes
  let off := row * jobF job ⟨PRD_DST_STRIDE, 31, 0⟩
  let fit := bs.take (len - off)
  let s := dmaPut 8 (dst + off) fit s
  let (clip, s) := examDetect 0x2C03 (decide (fit.length < bs.length)) 0 0 s
  if clip then flag PRD_STATUS_clipped (bumpBy PRD_CLIP (bs.length - fit.length) s) else s

/-- A slab of a job: decoded rows, or fill and the record of its error. The answer counts good and bad slabs. -/
def prdSlab (hd : PrcHead) (job : List (Nat × Word)) (first i : Nat) (x : Nat × Nat × State) : Nat × Nat × State :=
  let (good, bad, s) := x
  let src := jobF job ⟨PRD_SRC_LO, 31, 0⟩ + jobF job ⟨PRD_SRC_HI, 31, 0⟩ * 2 ^ 32
  let fmt := jobF job PRD_CFG_fmt
  let fillN := jobF job PRD_CFG_fill
  let fill : Int := if hd.f.kind1 then max (-(2 ^ 19 - 1)) (BitVec.ofNat 20 fillN).toInt else fillN
  let rows := slabRows hd.h i
  let (r, s) := decodeSlab hd src (jobF job PRD_SRC_LEN_bytes) i s
  let out (v : Nat → Nat → Int) (s : State) : State :=
    (List.range rows).foldl (fun s y => prdRow job (16 * (i - first) + y)
      ((List.range hd.f.W).flatMap (fun x => prdSample fmt (v x y))) s) s
  match r with
  | .ok a => (good + 1, bad, out (fun x y => a.at x y) s)
  | .error c =>
    let s := if bad = 0 then
        raise 0x2C 2 i (setF PRD_FIRST_ERR_slab i (setF PRD_FIRST_ERR_cause c s)) else s
    (good, bad + 1, out (fun _ _ => fill) s)

/-- The job ends. -/
def prdEnd (s : State) : State := flag PRD_STATUS_done (setF PRD_STATUS_busy 0 { s with prd := none })

/-- The slabs of the latest job. -/
def prdCount (good err : Nat) (s : State) : State := setF PRD_DONE_decoded good (setF PRD_DONE_in_error err s)

/-- Runs a whole job (R237 to R239). -/
def prdJob (job : List (Nat × Word)) (s : State) : State :=
  let src := jobF job ⟨PRD_SRC_LO, 31, 0⟩ + jobF job ⟨PRD_SRC_HI, 31, 0⟩ * 2 ^ 32
  let (bs, s) := if jobF job PRD_SRC_LEN_bytes < 64 then (none, s) else dmaRead 8 src 64 s
  let hd := match bs with
    | some b => readHead b
    | none => none
  let (bad, s) := examDetect 0x2C00 hd.isNone 0 src s
  match hd, bad with
  | some hd, false =>
    let fmt := jobF job PRD_CFG_fmt
    let stride := jobF job ⟨PRD_DST_STRIDE, 31, 0⟩
    let ok := (fmt == 1 && !hd.f.kind1 && decide (hd.f.B ≤ 16) && decide (2 * hd.f.W ≤ stride)) ||
      (fmt == 2 && !hd.f.kind1 && decide (4 * hd.f.W ≤ stride)) || (fmt == 3 && hd.f.kind1 && decide (4 * hd.f.W ≤ stride))
    if !ok then raise 0x2C 1 2 (flag PRD_STATUS_fmt_err (prdEnd (prdCount 0 0 s)))
    else
      let first := jobF job PRD_SLABS_first
      let last := min (first + jobF job PRD_SLABS_count) hd.ns
      let (good, err, s) := ((List.range (last - first)).map (· + first)).foldl
        (fun x i => prdSlab hd job first i x) (0, 0, s)
      raise 0x2C 0 good (prdEnd (prdCount good err s))
  | _, _ => raise 0x2C 1 1 (flag PRD_STATUS_hdr_err (prdEnd (prdCount 0 0 s)))

/-- PRD_JOB_DONE (R237 to R239). -/
def execPrdJobDone (s : State) : Res :=
  .next (match s.prd with
    | some job => if s.domOn dPRC then prdJob job s else s
    | none => s)

end Sys2Proof.Machine
end

