-- ==== Sys2Proof/Machine/PipBase.lean ====
section
/-! DEFINITION. The tile streamer and the pips' life (R186 to R190, R199 to R212): pods and positions, tiles into and
out of pips, faults, retirement and spares. -/

namespace Sys2Proof.Machine

/-! ### Frames in a slot -/

/-- The frame at the front of slot `j` with its place, if it waits for the program that is loaded (R199, R203). -/
def State.slotFront (s : State) (j : Nat) : Option (Nat × IpFrame) :=
  let n := j / 2
  match s.frameWhere n (fun f => f.stage == 1 + j % 2) with
  | none => none
  | some k => match (s.ip n).frames[k]? with
    | some fr => match look fr.prog (j % 2) with
      | some g => if g == (s.slot j).loaded && (s.slot j).loading.isNone then some (k, fr) else none
      | none => none
    | none => none

/-- Tiles of a frame (R199). -/
def tileCount (fr : IpFrame) : Nat := ceilDiv fr.info.width 8 * ceilDiv fr.info.height 8

/-- Origin of tile `t` (R199). -/
def tileAt (fr : IpFrame) (t : Nat) : Nat × Nat :=
  let tw := floor1 (ceilDiv fr.info.width 8)
  (t % tw * 8, t / tw * 8)

/-- Input channel `ch` of a frame at a position, reflected into it (R199). -/
def framePx (fr : IpFrame) (ch : Nat) (x y : Int) : Nat :=
  let row := fr.rgb.getD (reflect fr.rgb.size y) #[]
  let p := row.getD (reflect row.size x) (0, 0, 0)
  if ch = 0 then p.1 else if ch = 1 then p.2.1 else p.2.2

/-- Writes 8 × 8 pixels of a tile into a slot's result; pixels outside the frame are discarded (R199). -/
def placeTile (j : Nat) (fr : IpFrame) (t : Nat) (px : Nat → Nat → Px) (s : State) : State :=
  let (x0, y0) := tileAt fr t
  modSlot j (fun z => { z with out := (List.range 8).foldl (fun o r =>
    o.modify (y0 + r) (fun row => (List.range 8).foldl (fun row c => row.modify (x0 + c) (fun _ => px c r)) row)) z.out }) s

/-- A frame's status bit, set while it stands at slot `j`. -/
def slotFsw (j bit : Nat) (s : State) : State := match s.slotFront j with
  | some (k, _) => modFr (j / 2) k (fun f => { f with fsw := fswSet bit f.fsw }) s
  | none => s

/-- Tile `t` has left slot `j`; the last one releases the frame (R201). -/
def leaveTile (j t : Nat) (s : State) : State :=
  match s.slotFront j with
  | none => s
  | some (k, fr) =>
    if (s.slot j).left.contains t then s
    else
      let s := addPair (PIP_SLOT_TILES_LO j) (PIP_SLOT_TILES_HI j) 1 (modSlot j (fun z => { z with left := t :: z.left }) s)
      if (s.slot j).left.length < tileCount fr then s
      else
        let out := (s.slot j).out
        let s := modFr (j / 2) k (fun f => { f with rgb := out, prog := del f.prog (j % 2) }) s
        ipFlow (j / 2) (modSlot j (fun z => { z with pfn := none, next := 0, left := [], rerun := [], redo := [], out := #[] }) s)

/-- Tile `t` leaves as its input pixels unchanged, and its frame carries line_crc (R196, R201, R207, R208). -/
def passTile (j t : Nat) (s : State) : State :=
  match s.slotFront j with
  | none => s
  | some (_, fr) =>
    let (x0, y0) := tileAt fr t
    let px (c r : Nat) : Px := (framePx fr 0 (x0 + c : Nat) (y0 + r : Nat), framePx fr 1 (x0 + c : Nat) (y0 + r : Nat),
      framePx fr 2 (x0 + c : Nat) (y0 + r : Nat))
    leaveTile j t (bump (PIP_SLOT_PASS j) (slotFsw j fswLineCrc (placeTile j fr t px s)))

/-! ### Tiles into pips (R189, R190, R200) -/

/-- The local words of a pip with an input tile in buffer `b` (R189). -/
def fillInput (fr : IpFrame) (halo t b : Nat) (m : List (Nat × Word)) : List (Nat × Word) :=
  let (x0, y0) := tileAt fr t
  let S := 8 + 2 * halo
  let P := 4 * ceilDiv S 4
  (List.range 3).foldl (fun m ch => (List.range S).foldl (fun m r => (List.range P).foldl (fun m c =>
    putWord m (b * 0xC00 + ((ch * S + r) * P + c) * 4)
      (if c < S then BitVec.ofNat 32 (framePx fr ch ((x0 + c : Nat) - (halo : Int)) ((y0 + r : Nat) - (halo : Int))) else 0)) m) m) m

/-- A tile starts running on a pip with the registers of R190. -/
def startRun (u : PipRef) (t : TileIn) (s : State) : State :=
  match s.slotFront t.slot with
  | none => s
  | some (_, fr) =>
    let (x0, y0) := tileAt fr t.tile
    let regs : List (Nat × Nat) := [(1, t.buf * 0xC00), (2, 0x1800 + t.buf * 0x300), (3, x0), (4, y0), (5, fr.info.pfn),
      (6, fr.info.sid % 65536), (7, fr.info.width % 65536 + fr.info.height % 65536 * 65536)]
    let s' := (draw s).2
    modPip u (fun z => { z with run := some { t := t, s := regs.map (fun e => (e.1, BitVec.ofNat 32 e.2)), seed := s.fresh } }) s'

/-- A pip that is free and ACTIVE takes up the tile it holds. -/
def wakePip (u : PipRef) (s : State) : State :=
  match (s.pip u).run, (s.pip u).wait with
  | none, some t => if s.pipState u = pipActive then startRun u t (modPip u (fun z => { z with wait := none }) s) else s
  | _, _ => s

/-- Sends tile `t` of slot `j` to a pip with a free input buffer; `none` if it has none (R200). -/
def sendTile (j t : Nat) (u : PipRef) (fr : IpFrame) (s : State) : Option State :=
  if (s.pip u).wait.isSome then none
  else
    let b := (s.pip u).nextBuf
    let ti : TileIn := ⟨t, b, s.f (POD_PIP_EPOCH_epoch u.pod u.pip), j⟩
    let halo := (s.pod u.pod).pkg.halo
    some (wakePip u (modPip u (fun z => { z with wait := some ti, nextBuf := 1 - b, mem := fillInput fr halo t b z.mem }) s))

/-- The live position a pod's next tile goes to: ascending from `from_`, wrapping (R200, R208). -/
def State.nextPos (s : State) (p from_ : Nat) : Option Nat :=
  let l := s.livePos p
  match l.find? (fun k => from_ ≤ k) with
  | some k => some k
  | none => l.head?

/-- Sends tile `t` of slot `j` to pod `p` from position `k` on; a pod with no live position passes it through (R208),
and so does one without power, or that lost its program with its power (DESIGN CHOICE, log 32). The answer is `none`
while the pip's buffers are full. -/
def sendToPod (j t p k : Nat) (fr : IpFrame) (s : State) : Option State :=
  if !s.unitOn (dSTRIP (p / 16)) || (s.pod p).pkg.code.isEmpty then some (passTile j t s)
  else match s.nextPos p k with
    | none => some (passTile j t s)
    | some k =>
      (sendTile j t ⟨p, s.pipAt p k⟩ fr s).map (modPod p (fun z => { z with next := (k + 1) % 8 }))

/-- Tile `t` of slot `j` is in some pip. -/
def State.tileHeld (s : State) (j t : Nat) : Bool :=
  s.pips.any (fun e =>
    let inSlot (x : TileIn) : Bool := x.slot == j && x.tile == t
    (match e.2.run with
      | some r => inSlot r.t
      | none => false) ||
    (match e.2.wait with
      | some x => inSlot x
      | none => false) ||
    (match e.2.test with
      | some (_, some x) => inSlot x
      | _ => false))

/-- The front frame of slot `j` starts in it, if it has not yet (R199, R210). -/
def slotBegin (j : Nat) (s : State) : State :=
  match s.slotFront j with
  | none => s
  | some (k, fr) =>
    if (s.slot j).pfn = some fr.info.pfn then s
    else
      let blank : Array (Array Px) := Array.replicate fr.info.height (Array.replicate fr.info.width (0, 0, 0))
      showCommits (j / 2) (slotEnter (j / 2) k j (modSlot j (fun z => { z with
        pfn := some fr.info.pfn, next := 0, left := [], rerun := [], redo := [], out := blank, told := false }) s))

/-- One dispatch of slot `j` (R200, R208): a tile to re-dispatch, else the next, else one its pip lost. -/
def dispatchOne (j : Nat) (s : State) : State :=
  match s.slotFront j with
  | none => s
  | some (_, fr) =>
    let z := s.slot j
    match z.redo with
    | (t, p, k) :: rest => (sendToPod j t p k fr (modSlot j (fun z => { z with redo := rest }) s)).getD s
    | [] =>
      let toPod (t : Nat) (s : State) : Option State :=
        if z.pods.isEmpty then some (passTile j t s)
        else
          let p := z.pods.getD (t % z.pods.length) 0
          sendToPod j t p (s.pod p).next fr s
      if z.next < tileCount fr then (toPod z.next (modSlot j (fun z => { z with next := z.next + 1 }) s)).getD s
      else match (List.range (tileCount fr)).find? (fun t => !z.left.contains t && !s.tileHeld j t) with
        | some t => (toPod t s).getD s
        | none => s

/-- TILE_DISPATCH (R200). -/
def execTileDispatch (j : Nat) (s : State) : Res :=
  guardOk (decide (j < 8)) (if s.unitOn (dIP (j / 2)) && s.domOn dFAB then dispatchOne j (slotBegin j s) else s)

/-! ### Faults and retirement (R196, R207, R208) -/

/-- A program fault: the tile ends and leaves as its input (R196). -/
def progFault (u : PipRef) (s : State) : State :=
  match (s.pip u).run with
  | none => s
  | some r =>
    let j := r.t.slot
    let s := bump (POD_PROG_FAULT u.pod) (modPip u (fun z => { z with run := none }) s)
    let s := slotFsw j fswLineCrc s
    let s := if (s.slot j).told then s else raise 0x20 6 (pipNo u) (modSlot j (fun z => { z with told := true }) s)
    let s := if s.pipState u = pipRetired || s.f (POD_PIP_EPOCH_epoch u.pod u.pip) != r.t.epoch then s else passTile j r.t.tile s
    wakePip u s

/-- The program data of a pip as its package loads it (R203): its local words. -/
def pkgData (g : Pkg) : List (Nat × Word) := g.data.map (fun e => (0x2000 + 4 * e.1, e.2))

/-- Rewrites a pip's memories from its pod's package; the words past its data keep what they hold (R203, R207, R212). -/
def reloadPip (u : PipRef) (s : State) : State :=
  let g := (s.pod u.pod).pkg
  modPip u (fun z => { z with mem := putAll (z.mem.filter (fun e => e.1 < 0x2000 || 0x2000 + g.nd ≤ e.1)) (pkgData g) }) s

/-- Rewrites a pod memory from its package; the words past its image keep what they hold (R203, R207). -/
def reloadPod (p : Nat) (s : State) : State :=
  modPod p (fun z => { z with
    bad := false, mem := putAll (z.mem.filter (fun e => z.pkg.np ≤ 4 * e.1)) z.pkg.pod }) s

/-- The detector of a fault cause (R207, R213). -/
def causeDet (c : Nat) : Nat := match c with
  | 1 => 0x2000 | 2 => 0x2001 | 3 => 0x2002 | 4 => 0x2003 | _ => 0x2005

/-- A pip fault other than a failed test (R207): the tile stops, the memories are rewritten, a test decides. A second
fault on the same tile, on this pip or on the one it was sent to again, passes it through. `inj` says whether the detection was an injection. -/
def pipFault (u : PipRef) (cause : Nat) (inj : Bool) (s : State) : State :=
  match (s.pip u).run with
  | none => s
  | some r =>
    let j := r.t.slot
    let again := (s.slot j).rerun.contains r.t.tile
    let s := modPip u (fun z => { z with run := none, inj := inj, test := some (2, if again then none else some r.t) }) s
    let s := if again then s else modSlot j (fun z => { z with rerun := r.t.tile :: z.rerun }) s
    let s := reloadPip u (bump (POD_ST_FAIL u.pod) s)
    let s := setF (POD_PIP_STATUS_cause u.pod u.pip) cause (setF (POD_PIP_STATUS_state u.pod u.pip) pipTesting s)
    let s := if cause = 5 then raise 0x20 7 (pipNo u) s else s
    let s := showPod u.pod s
    if again then passTile j r.t.tile (if cause = 5 then bump (POD_TILE_TO u.pod) s else s) else s

/-- Puts the tiles of a retired pip back to be sent again (R208). -/
def redispatch (u : PipRef) (pos : Nat) (ts : List TileIn) (s : State) : State :=
  ts.foldl (fun s t =>
    let s := modSlot t.slot (fun z => { z with redo := z.redo ++ [(t.tile, u.pod, pos)] }) s
    slotFsw t.slot fswPipRetired (bump (PIP_SLOT_REDISP t.slot) s)) s

/-- The spare went in this very cycle to a position above `pos`, which gives it up to the lower one (R208): that
position and the pip. -/
def State.spareHigher (s : State) (p pos : Nat) : Option (Nat × Nat) := match (s.pod p).took with
  | some (t, k, i) => if t = s.now && pos < k && s.pipAt p k == i then some (k, i) else none
  | none => none

/-- A pip is retired (R208): its epoch rises, it leaves its position, the spare takes it, its tiles go on. -/
def retirePip (u : PipRef) (s : State) : State :=
  let z := s.pip u
  let pos := s.f (POD_PIP_STATUS_pos u.pod u.pip)
  let ts := (match z.test with
      | some (_, some t) => [t]
      | _ => []) ++ (match z.run with
      | some r => [r.t]
      | none => []) ++ (match z.wait with
      | some t => [t]
      | none => [])
  let s := modPip u (fun z => { z with wait := none, test := none, told := false }) s
  let s := setF (POD_PIP_STATUS_pos u.pod u.pip) 15 (setF (POD_PIP_STATUS_state u.pod u.pip) pipRetired s)
  let s := setF (POD_PIP_EPOCH_epoch u.pod u.pip) ((s.f (POD_PIP_EPOCH_epoch u.pod u.pip) + 1) % 65536) s
  let s := raise 0x20 0 (pipNo u) s
  let s := if pos = 15 then s
    else match s.spareOf u.pod with
      | some i =>
        let s := modPod u.pod (fun z => { z with took := some (s.now, pos, i) }) s
        raise 0x20 1 (u.pod * 16 + i) (setF (POD_PIP_STATUS_state u.pod i) pipActive (setPos u.pod pos i s))
      | none =>
        let s := match s.spareHigher u.pod pos with
          | some (k, i) => setPos u.pod k 15 (setPos u.pod pos i s)
          | none => setPos u.pod pos 15 s
        let s := if (s.livePos u.pod).length = 7 then raise 0x20 2 u.pod s else s
        match s.slotOfPod u.pod with
        | some j => flag (PIP_SLOT_STATUS_below_rate j) s
        | none => s
  let s := redispatch u pos ts (showPod u.pod s)
  match ts with
  | t :: _ => dispatchOne t.slot s
  | [] => s

end Sys2Proof.Machine
end

