-- ==== Sys2Proof/Machine/PipVec.lean ====
section
/-! DEFINITION. Slot A of a pip's bundles (R191, R192, R194, R197, R198): the vector operations. A command issues only
if the bundle at the pip's address holds its operation and operand bits; what it writes waits for slot B. -/

namespace Sys2Proof.Machine

/-- The bundle a running tile issues next. -/
def State.bundle (s : State) (u : PipRef) (r : PipRun) : Option (BitVec 64) := (s.pod u.pod).pkg.code[r.pc]?

/-- The four lanes of a vector register. -/
def PipRun.vec (r : PipRun) (i : Nat) : List Word := lookD r.v [0, 0, 0, 0] i

/-- A lane of a vector register. -/
def PipRun.lane (r : PipRun) (i k : Nat) : Word := (r.vec i).getD k 0

/-- A scalar register; s0 reads 0 (R190). -/
def PipRun.sreg (r : PipRun) (i : Nat) : Word := if i = 0 then 0 else lookD r.s 0 i

/-- A predicate register's bit. -/
def PipRun.pbit (r : PipRun) (p k : Nat) : Bool := bitOf (lookD r.p 15 p) k

/-- Lane `k` is written under the pen and pidx bits of a slot word (R192). -/
def PipRun.pen (r : PipRun) (w : Nat) (k : Nat) : Bool := !bitOf w 25 || r.pbit (bitsOf w 24 23) k

/-- The operand fields of slot A (R192). -/
def fVd (w : Nat) : Nat := bitsOf w 22 18
def fVa (w : Nat) : Nat := bitsOf w 17 13
def fVb (w : Nat) : Nat := bitsOf w 12 8
def fVc (w : Nat) : Nat := bitsOf w 7 3
def fFn (w : Nat) : Nat := bitsOf w 2 0

/-- The parity checks of an issue, instruction memory and register file (R207); an error is a pip fault. -/
def issueParity (s : State) : Option Nat × State :=
  let (e1, s) := inject 0x2001 s
  let (e3, s) := inject 0x2003 s
  (if e1 then some 2 else if e3 then some 4 else none, s)

/-- Pod memory or the LUT unit failed parity: the tile passes through, and the memory waits for its reload (R207). -/
def podParity (u : PipRef) (s : State) : State :=
  match (s.pip u).run with
  | none => s
  | some r => wakePip u (passTile r.t.slot r.t.tile
      (modPip u (fun z => { z with run := none }) (modPod u.pod (fun p => { p with bad := true }) s)))

/-- A read of pod memory or a LUT lookup is examined (R207, R213). -/
def podExam (u : PipRef) (s : State) : Bool × State :=
  if (s.pod u.pod).bad then (true, s) else examDetect 0x2004 false 0 0 s

/-- Issues slot A: `f` gives what it writes, or `none` where pod memory failed. -/
def issueA (op : Nat) (u : PipRef) (w : BitVec 26) (f : PipRun → State → Option AWrite × State) (s : State) : Res :=
  guardOk u.wf <|
    match (s.pip u).run with
    | none => s
    | some r => match s.bundle u r with
      | none => s
      | some b =>
        if s.pipOn u && r.a.isNone && b.toNat % 2 ^ 32 == op * 2 ^ 26 + w.toNat then
          match issueParity s with
          | (some c, s) => pipFault u c true s
          | (none, s) => match f r s with
            | (some a, s) => modPip u (fun z => { z with run := some { r with a := some a } }) s
            | (none, s) => podParity u s
        else s

/-- A vector result per lane that no check looks at. -/
def rawOp (op : Nat) (u : PipRef) (w : BitVec 26) (f : PipRun → Nat → Word) (s : State) : Res :=
  issueA op u w (fun r s =>
    let n := w.toNat
    (some (.vec (fVd n) ((List.range 4).map (fun k => if r.pen n k then some (f r k) else none)) 1), s)) s

/-- SL20 results of a vector operation: the lanes saturated or limited go to PODp_SAT and to detector 0x06 (R194,
R213). -/
def laneOut (u : PipRef) (n lat : Nat) (res : List (Option (Word × Bool))) (s : State) : Option AWrite × State :=
  let sats := res.filterMap (fun o => o.map (·.2))
  let (c, s) := if sats.any id || !s.err.slots.isEmpty then tally 0x2006 sats s else (0, s)
  (some (.vec (fVd n) (res.map (fun o => o.map (·.1))) lat), if c = 0 then s else bumpBy (POD_SAT u.pod) c s)

/-- A vector operation whose lanes are SL20 results, or are limited to int32 (R194). -/
def laneOp (op : Nat) (lat : Nat) (u : PipRef) (w : BitVec 26) (f : PipRun → Nat → Word × Bool) (s : State) : Res :=
  issueA op u w (fun r s =>
    laneOut u w.toNat lat ((List.range 4).map (fun k => if r.pen w.toNat k then some (f r k) else none)) s) s

/-- An SL20 operand (R194). -/
def slw (x : Word) : Rat := slVal (x.toNat % 2 ^ 20)

/-- An SL20 result and whether it saturated (R194). -/
def slr (q : Rat) : Word × Bool := let (c, b) := toSl q; (BitVec.ofNat 32 c, b)

/-- An SL20 operation of two operands. -/
def slOp2 (op lat : Nat) (g : Rat → Rat → Rat) (u : PipRef) (w : BitVec 26) (s : State) : Res :=
  laneOp op lat u w (fun r k => slr (g (slw (r.lane (fVa w.toNat) k)) (slw (r.lane (fVb w.toNat) k)))) s

/-- An SL20 operation of one operand. -/
def slOp1 (op lat : Nat) (g : Rat → Rat) (u : PipRef) (w : BitVec 26) (s : State) : Res :=
  laneOp op lat u w (fun r k => slr (g (slw (r.lane (fVa w.toNat) k)))) s

/-- An integer operation of two operands: it wraps and sets no flags (R194). -/
def intOp2 (op : Nat) (g : Word → Word → Word) (u : PipRef) (w : BitVec 26) (s : State) : Res :=
  rawOp op u w (fun r k => g (r.lane (fVa w.toNat) k) (r.lane (fVb w.toNat) k)) s

/-- A comparison: it writes bits of p[vd[1:0]] (R192). -/
def cmpOp (op : Nat) (g : Word → Word → Bool) (u : PipRef) (w : BitVec 26) (s : State) : Res :=
  issueA op u w (fun r s =>
    let n := w.toNat
    (some (.pred (fVd n % 4) ((List.range 4).map (fun k =>
      if r.pen n k then some (g (r.lane (fVa n) k) (r.lane (fVb n) k)) else none))), s)) s

/-- The reciprocal; 1/0 saturates with the operand's sign (R194). -/
def slRecip (x : Word) : Word × Bool :=
  if slw x = 0 then slr (if bitOf x.toNat 19 then -pow2 40 else pow2 40) else slr (1 / slw x)

/-- The base-2 logarithm; −64 at or below 0 (R194). -/
def slLog (q : Rat) : Rat := if q ≤ 0 then -64 else log2Q q

/-- The base-2 exponential. -/
def slExp (q : Rat) : Rat := if 40 ≤ q then pow2 40 else if q ≤ -60 then 0 else exp2Q q

/-- SL20 to int32 by the modifier, limited, and whether it was limited (R192, R194). -/
def toInt (fn : Nat) (x : Word) : Word × Bool :=
  let q := slw x
  let i : Int := match fn with
    | 0 => rne q
    | 1 => if q < 0 then -(-q).floor else q.floor
    | 2 => q.floor
    | _ => -(-q).floor
  if 4 ≤ fn then (Config.cvtFree fn x.toNat, false)
  else if i < -2147483648 then (w32 (-2147483648), true)
  else if 2147483647 < i then (w32 2147483647, true)
  else (w32 i, false)

/-- The arithmetic right shift of a word. -/
def sraW (a b : Word) : Word := a.sshiftRight (b.toNat % 32)

/-- Signed comparison of words. -/
def sltW (a b : Word) : Bool := decide (a.toInt < b.toInt)

/-- The LUT unit (R198): table `t` at `x`. -/
def lutUnit (p : PodSt) (t : Nat) (x : Rat) : Rat :=
  match p.pkg.luts[t]? with
  | none => 0
  | some d =>
    let e (i : Nat) : Rat := slVal ((lookD p.mem 0 (d.base / 4 + i)).toNat % 2 ^ 20)
    let (d0, d1) := (slVal d.d0, slVal d.d1)
    let top : Rat := (d.n - 1 : Nat)
    let pos := if d.log2 then (if x ≤ pow2of d0 then 0 else fmul32 (fdiv32 (fsub32 (log2of x) d0) (fsub32 d1 d0)) top)
      else fmul32 (fdiv32 (fsub32 x d0) (fsub32 d1 d0)) top
    let pos := limQ 0 top pos
    let i := min pos.floor.toNat (d.n - 2)
    fadd32 (e i) (fmul32 (fsub32 (e (i + 1)) (e i)) (fsub32 pos i))

/-! ### The commands -/

/-- VNOP. -/
def execVnop (u : PipRef) (w : BitVec 26) (s : State) : Res := issueA 0x00 u w (fun _ s => (some .none, s)) s
/-- FADD. -/
def execFadd (u : PipRef) (w : BitVec 26) (s : State) : Res := slOp2 0x01 1 fadd32 u w s
/-- FSUB. -/
def execFsub (u : PipRef) (w : BitVec 26) (s : State) : Res := slOp2 0x02 1 fsub32 u w s
/-- FMUL. -/
def execFmul (u : PipRef) (w : BitVec 26) (s : State) : Res := slOp2 0x03 1 fmul32 u w s
/-- FMA: the product and the sum each in binary32. -/
def execFma (u : PipRef) (w : BitVec 26) (s : State) : Res :=
  laneOp 0x04 1 u w (fun r k =>
    slr (fadd32 (fmul32 (slw (r.lane (fVa w.toNat) k)) (slw (r.lane (fVb w.toNat) k))) (slw (r.lane (fVc w.toNat) k)))) s
/-- FMIN. -/
def execFmin (u : PipRef) (w : BitVec 26) (s : State) : Res := slOp2 0x05 1 (fun a b => if b < a then b else a) u w s
/-- FMAX. -/
def execFmax (u : PipRef) (w : BitVec 26) (s : State) : Res := slOp2 0x06 1 (fun a b => if a < b then b else a) u w s
/-- FABS. -/
def execFabs (u : PipRef) (w : BitVec 26) (s : State) : Res := slOp1 0x07 1 absQ u w s
/-- FNEG. -/
def execFneg (u : PipRef) (w : BitVec 26) (s : State) : Res := slOp1 0x08 1 (fun q => -q) u w s
/-- FRCP. -/
def execFrcp (u : PipRef) (w : BitVec 26) (s : State) : Res :=
  laneOp 0x09 4 u w (fun r k => slRecip (r.lane (fVa w.toNat) k)) s
/-- FLOG2. -/
def execFlog2 (u : PipRef) (w : BitVec 26) (s : State) : Res := slOp1 0x0A 4 slLog u w s
/-- FEXP2. -/
def execFexp2 (u : PipRef) (w : BitVec 26) (s : State) : Res := slOp1 0x0B 4 slExp u w s
/-- FCMPLT. -/
def execFcmplt (u : PipRef) (w : BitVec 26) (s : State) : Res := cmpOp 0x0C (fun a b => decide (slw a < slw b)) u w s
/-- FCMPLE. -/
def execFcmple (u : PipRef) (w : BitVec 26) (s : State) : Res := cmpOp 0x0D (fun a b => decide (slw a ≤ slw b)) u w s
/-- FCMPEQ. -/
def execFcmpeq (u : PipRef) (w : BitVec 26) (s : State) : Res := cmpOp 0x0E (fun a b => decide (slw a = slw b)) u w s
/-- FSEL: an SL20 operation (DEDUCED: its operands are read as R194 states). -/
def execFsel (u : PipRef) (w : BitVec 26) (s : State) : Res :=
  laneOp 0x0F 1 u w (fun r k =>
    slr (slw (if r.pbit (fVc w.toNat % 4) k then r.lane (fVa w.toNat) k else r.lane (fVb w.toNat) k))) s
/-- IADD. -/
def execIadd (u : PipRef) (w : BitVec 26) (s : State) : Res := intOp2 0x10 (· + ·) u w s
/-- ISUB. -/
def execIsub (u : PipRef) (w : BitVec 26) (s : State) : Res := intOp2 0x11 (· - ·) u w s
/-- IMUL: the low 32 bits. -/
def execImul (u : PipRef) (w : BitVec 26) (s : State) : Res := intOp2 0x12 (· * ·) u w s
/-- IMIN, signed. -/
def execImin (u : PipRef) (w : BitVec 26) (s : State) : Res := intOp2 0x13 (fun a b => if sltW b a then b else a) u w s
/-- IMAX, signed. -/
def execImax (u : PipRef) (w : BitVec 26) (s : State) : Res := intOp2 0x14 (fun a b => if sltW a b then b else a) u w s
/-- AND. -/
def execVand (u : PipRef) (w : BitVec 26) (s : State) : Res := intOp2 0x15 (· &&& ·) u w s
/-- OR. -/
def execVor (u : PipRef) (w : BitVec 26) (s : State) : Res := intOp2 0x16 (· ||| ·) u w s
/-- XOR. -/
def execVxor (u : PipRef) (w : BitVec 26) (s : State) : Res := intOp2 0x17 (· ^^^ ·) u w s
/-- SHL. -/
def execVshl (u : PipRef) (w : BitVec 26) (s : State) : Res := intOp2 0x18 (fun a b => a <<< (b.toNat % 32)) u w s
/-- SHR. -/
def execVshr (u : PipRef) (w : BitVec 26) (s : State) : Res := intOp2 0x19 (fun a b => a >>> (b.toNat % 32)) u w s
/-- SRA. -/
def execVsra (u : PipRef) (w : BitVec 26) (s : State) : Res := intOp2 0x1A sraW u w s
/-- ICMPLT, signed. -/
def execIcmplt (u : PipRef) (w : BitVec 26) (s : State) : Res := cmpOp 0x1B sltW u w s
/-- ICMPEQ. -/
def execIcmpeq (u : PipRef) (w : BitVec 26) (s : State) : Res := cmpOp 0x1C (fun a b => a == b) u w s
/-- CVTFI. -/
def execCvtfi (u : PipRef) (w : BitVec 26) (s : State) : Res :=
  laneOp 0x1D 1 u w (fun r k => toInt (fFn w.toNat) (r.lane (fVa w.toNat) k)) s
/-- CVTIF. -/
def execCvtif (u : PipRef) (w : BitVec 26) (s : State) : Res :=
  laneOp 0x1E 1 u w (fun r k => slr ((s32 (r.lane (fVa w.toNat) k) : Int) : Rat)) s
/-- VMOV: all 32 bits. -/
def execVmov (u : PipRef) (w : BitVec 26) (s : State) : Res := rawOp 0x1F u w (fun r k => r.lane (fVa w.toNat) k) s
/-- VSPLAT. -/
def execVsplat (u : PipRef) (w : BitVec 26) (s : State) : Res :=
  rawOp 0x20 u w (fun r _ => r.sreg (fVa w.toNat % 16)) s
/-- VIMM: bits [17:0], sign-extended. -/
def execVimm (u : PipRef) (w : BitVec 26) (s : State) : Res :=
  rawOp 0x21 u w (fun _ _ => (BitVec.ofNat 18 w.toNat).signExtend 32) s
/-- VIMMH. -/
def execVimmh (u : PipRef) (w : BitVec 26) (s : State) : Res :=
  rawOp 0x22 u w (fun r k =>
    (r.lane (fVd w.toNat) k &&& 0x3FFF) ||| (BitVec.ofNat 32 (bitsOf w.toNat 17 0 * 2 ^ 14))) s
/-- VSWZ: lane i takes the lane that bits [2i+1:2i] name. -/
def execVswz (u : PipRef) (w : BitVec 26) (s : State) : Res :=
  rawOp 0x23 u w (fun r k => r.lane (fVa w.toNat) (bitsOf w.toNat (2 * k + 1) (2 * k))) s
/-- LUT (R198). -/
def execLut (u : PipRef) (w : BitVec 26) (s : State) : Res :=
  issueA 0x24 u w (fun r s =>
    let (bad, s) := podExam u s
    if bad then (none, s)
    else
      let n := w.toNat
      laneOut u n 6 ((List.range 4).map (fun k =>
        if r.pen n k then some (slr (lutUnit (s.pod u.pod) (fVb n % 16) (slw (r.lane (fVa n) k)))) else none)) s) s

end Sys2Proof.Machine
end

