-- ==== Sys2Proof/Machine/PipScalar.lean ====
section
/-! DEFINITION. Slot B of a pip's bundles (R191, R193, R195, R196): loads, stores, scalar operations, branches and END.
Slot B completes the bundle: both slots' results are written and the pip moves on. -/

namespace Sys2Proof.Machine

/-- What slot B does: lanes of a vector register, a scalar register, stored words, a branch taken. -/
structure BOut where
  vec    : Option (Nat × List (Option Word)) := none
  sc     : Option (Nat × Word) := none
  lat    : Nat := 1
  stores : List (Nat × Word) := []
  target : Option Int := none

/-- How slot B came out: done, a program fault (R196), a pip fault (R207), or pod memory that failed parity. -/
inductive BRes
  | ok (o : BOut)
  | fault
  | pip (cause : Nat)
  | podBad

/-- The registers slot A reads or writes: v r is r, s r is 32 + r (R195). -/
def aRegs (op w : Nat) : List Nat :=
  let (d, a, b, c) := (fVd w, fVa w, fVb w, fVc w)
  if op = 0x00 then []
  else if op = 0x04 then [d, a, b, c]
  else if (0x0C ≤ op && op ≤ 0x0E) || op = 0x1B || op = 0x1C then [a, b]
  else if (0x07 ≤ op && op ≤ 0x0B) || (0x1D ≤ op && op ≤ 0x1F) || op = 0x23 || op = 0x24 then [d, a]
  else if op = 0x20 then [d, 32 + a % 16]
  else if op = 0x21 || op = 0x22 then [d]
  else [d, a, b]

/-- The registers slot B reads or writes. -/
def bRegs (op w : Nat) : List Nat :=
  if op = 0x01 || op = 0x02 then [bitsOf w 22 18, 32 + bitsOf w 17 14]
  else if op = 0x03 || op = 0x04 then [32 + bitsOf w 21 18, 32 + bitsOf w 17 14]
  else if 0x08 ≤ op && op ≤ 0x11 then [32 + bitsOf w 25 22, 32 + bitsOf w 21 18, 32 + bitsOf w 17 14]
  else if op = 0x14 then [32 + bitsOf w 25 22, 32 + bitsOf w 21 18]
  else if op = 0x15 || op = 0x16 then [32 + bitsOf w 25 22]
  else if op = 0x18 then [32 + bitsOf w 25 22, bitsOf w 21 17]
  else if op = 0x19 then [bitsOf w 25 21, 32 + bitsOf w 18 15]
  else if 0x21 ≤ op && op ≤ 0x23 then [32 + bitsOf w 25 22, 32 + bitsOf w 21 18]
  else []

/-- Writes listed lanes of a vector register. -/
def writeLanes (r : PipRun) (d : Nat) (lanes : List (Option Word)) : PipRun :=
  { r with v := put r.v d ((List.range 4).map (fun k => match lanes.getD k none with
      | some x => x
      | none => r.lane d k)) }

/-- Writes what slot A left. -/
def writeA (r : PipRun) : PipRun :=
  match r.a with
  | some (.vec d lanes _) => writeLanes r d lanes
  | some (.pred p bits) =>
    { r with p := put r.p p ((List.range 4).foldl (fun m k =>
        let b := match bits.getD k none with
          | some b => b
          | none => r.pbit p k
        if b then m + 2 ^ k else m) 0) }
  | _ => r

/-- When the bundle issues: after every pending result of a register it reads or writes (R195). -/
def issueAt (r : PipRun) (b : Nat) : Nat :=
  (aRegs (bitsOf b 31 26) (b % 2 ^ 26) ++ bRegs (bitsOf b 63 58) (bitsOf b 57 32)).foldl
    (fun t k => max t (lookD r.ready 0 k)) r.cycle

/-- The bundle is complete: both slots write, the cycle count and the address move on (R191, R195). -/
def finishBundle (r : PipRun) (b : Nat) (o : BOut) : PipRun :=
  let t := issueAt r b
  let ready := match r.a with
    | some (.vec d _ lat) => if lat = 1 then del r.ready d else put r.ready d (t + lat)
    | _ => r.ready
  let r := { writeA r with a := none }
  let r := match o.vec with
    | some (d, lanes) => writeLanes r d lanes
    | none => r
  let r := match o.sc with
    | some (d, x) => if d = 0 then r else { r with s := put r.s d x }
    | none => r
  let ready := if o.lat = 1 then ready
    else match o.vec, o.sc with
      | some (d, _), _ => put ready d (t + o.lat)
      | none, some (d, _) => if d = 0 then ready else put ready (32 + d) (t + o.lat)
      | none, none => ready
  let stores := o.stores.filter (fun e => 0x1E00 ≤ e.1 && e.1 < 0x2000)
  { r with
    ready := ready, scratch := putAll r.scratch stores, cycle := t + 1 + (if o.target.isSome then 1 else 0)
    pc := match o.target with
      | some x => x.toNat
      | none => r.pc + 1 }

/-- Issues slot B of the bundle whose slot A has issued. -/
def issueB (op : Nat) (u : PipRef) (w : BitVec 26) (f : PipRun → State → BRes × State) (s : State) : Res :=
  guardOk u.wf <|
    match (s.pip u).run with
    | none => s
    | some r => match s.bundle u r with
      | none => s
      | some b =>
        if s.pipOn u && r.a.isSome && b.toNat / 2 ^ 32 == op * 2 ^ 26 + w.toNat then
          match f r s with
          | (.ok o, s) =>
            let stores := o.stores.filter (fun e => !(0x1E00 ≤ e.1 && e.1 < 0x2000))
            modPip u (fun z => { z with
              run := some (finishBundle r b.toNat o), mem := stores.foldl (fun m e => putWord m e.1 e.2) z.mem }) s
          | (.fault, s) => progFault u s
          | (.pip c, s) => pipFault u c true s
          | (.podBad, s) => podParity u s
        else s

/-- The word at a local address, examined as it is read (R188, R207). -/
def loadWord (u : PipRef) (r : PipRun) (a : Nat) (s : State) : Except BRes Word × State :=
  if a % 4 ≠ 0 then (.error .fault, s)
  else if a < 0x4000 then
    let (e, s) := inject 0x2002 s
    if e then (.error (.pip 3), s)
    else if 0x1E00 ≤ a && a < 0x2000 then
      (.ok (match look r.scratch a with
        | some x => x
        | none => Config.scratchWord r.seed a), s)
    else (.ok (lookD (s.pip u).mem 0 a), s)
  else if 0x10000 ≤ a && a < 0x30000 then
    let (bad, s) := podExam u s
    if bad then (.error .podBad, s) else (.ok (lookD (s.pod u.pod).mem 0 ((a - 0x10000) / 4)), s)
  else (.error .fault, s)

/-- Address of format M (R193). -/
def addrM (r : PipRun) (w : Nat) : Nat := (r.sreg (bitsOf w 17 14) + BitVec.ofNat 32 (bitsOf w 13 0 * 4)).toNat

/-- A store is open at an address (R188). -/
def storeOk (a : Nat) : Bool := a % 4 == 0 && a < 0x4000

/-- A scalar operation of format R (R193). -/
def scalarR (op : Nat) (g : Word → Word → Word) (u : PipRef) (w : BitVec 26) (s : State) : Res :=
  issueB op u w (fun r s =>
    let n := w.toNat
    (.ok { sc := some (bitsOf n 25 22, g (r.sreg (bitsOf n 21 18)) (r.sreg (bitsOf n 17 14))) }, s)) s

/-- The signed immediate of formats I and J. -/
def imm18 (w : Nat) : Word := (BitVec.ofNat 18 w).signExtend 32

/-- A branch of format J: taken if `g` says so; a target outside the code is a program fault (R193, R196). -/
def branchJ (op : Nat) (g : PipRun → Nat → Bool) (u : PipRef) (w : BitVec 26) (s : State) : Res :=
  issueB op u w (fun r s =>
    if g r w.toNat then
      let t : Int := r.pc + (imm18 w.toNat).toInt
      if t < 0 || (s.pod u.pod).pkg.code.length ≤ t then (.fault, s) else (.ok { target := some t }, s)
    else (.ok {}, s)) s

/-! ### The commands -/

/-- NOP. -/
def execNop (u : PipRef) (w : BitVec 26) (s : State) : Res := issueB 0x00 u w (fun _ s => (.ok {}, s)) s

/-- VLD: lane by lane under pen. -/
def execVld (u : PipRef) (w : BitVec 26) (s : State) : Res :=
  issueB 0x01 u w (fun r s =>
    let n := w.toNat
    let a := addrM r n
    let (res, s) := (List.range 4).foldl (fun (x : Except BRes (List (Option Word)) × State) k =>
      match x with
      | (.error e, s) => (.error e, s)
      | (.ok l, s) =>
        if r.pen n k then
          match loadWord u r ((a + 4 * k) % 2 ^ 32) s with
          | (.ok v, s) => (.ok (l ++ [some v]), s)
          | (.error e, s) => (.error e, s)
        else (.ok (l ++ [none]), s)) (.ok [], s)
    match res with
    | .ok l => (.ok { vec := some (bitsOf n 22 18, l), lat := 2 }, s)
    | .error e => (e, s)) s

/-- VST: lane by lane under pen. -/
def execVst (u : PipRef) (w : BitVec 26) (s : State) : Res :=
  issueB 0x02 u w (fun r s =>
    let n := w.toNat
    let a := addrM r n
    let st := (List.range 4).filterMap (fun k =>
      if r.pen n k then some ((a + 4 * k) % 2 ^ 32, r.lane (bitsOf n 22 18) k) else none)
    if st.all (fun e => storeOk e.1) then (.ok { stores := st }, s) else (.fault, s)) s

/-- LDW. -/
def execLdw (u : PipRef) (w : BitVec 26) (s : State) : Res :=
  issueB 0x03 u w (fun r s =>
    match loadWord u r (addrM r w.toNat) s with
    | (.ok v, s) => (.ok { sc := some (bitsOf w.toNat 21 18, v), lat := 2 }, s)
    | (.error e, s) => (e, s)) s

/-- STW. -/
def execStw (u : PipRef) (w : BitVec 26) (s : State) : Res :=
  issueB 0x04 u w (fun r s =>
    let a := addrM r w.toNat
    if storeOk a then (.ok { stores := [(a, r.sreg (bitsOf w.toNat 21 18))] }, s) else (.fault, s)) s

/-- ADD. -/
def execSadd (u : PipRef) (w : BitVec 26) (s : State) : Res := scalarR 0x08 (· + ·) u w s
/-- SUB. -/
def execSsub (u : PipRef) (w : BitVec 26) (s : State) : Res := scalarR 0x09 (· - ·) u w s
/-- MUL. -/
def execSmul (u : PipRef) (w : BitVec 26) (s : State) : Res := scalarR 0x0A (· * ·) u w s
/-- Scalar AND. -/
def execSand (u : PipRef) (w : BitVec 26) (s : State) : Res := scalarR 0x0B (· &&& ·) u w s
/-- Scalar OR. -/
def execSor (u : PipRef) (w : BitVec 26) (s : State) : Res := scalarR 0x0C (· ||| ·) u w s
/-- Scalar XOR. -/
def execSxor (u : PipRef) (w : BitVec 26) (s : State) : Res := scalarR 0x0D (· ^^^ ·) u w s
/-- Scalar SHL. -/
def execSshl (u : PipRef) (w : BitVec 26) (s : State) : Res := scalarR 0x0E (fun a b => a <<< (b.toNat % 32)) u w s
/-- Scalar SHR. -/
def execSshr (u : PipRef) (w : BitVec 26) (s : State) : Res := scalarR 0x0F (fun a b => a >>> (b.toNat % 32)) u w s
/-- Scalar SRA. -/
def execSsra (u : PipRef) (w : BitVec 26) (s : State) : Res := scalarR 0x10 sraW u w s
/-- SLT: 1 or 0, signed. -/
def execSlt (u : PipRef) (w : BitVec 26) (s : State) : Res := scalarR 0x11 (fun a b => if sltW a b then 1 else 0) u w s

/-- ADDI. -/
def execAddi (u : PipRef) (w : BitVec 26) (s : State) : Res :=
  issueB 0x14 u w (fun r s => (.ok { sc := some (bitsOf w.toNat 25 22, r.sreg (bitsOf w.toNat 21 18) + imm18 w.toNat) }, s)) s

/-- LI. -/
def execLi (u : PipRef) (w : BitVec 26) (s : State) : Res :=
  issueB 0x15 u w (fun _ s => (.ok { sc := some (bitsOf w.toNat 25 22, imm18 w.toNat) }, s)) s

/-- LUI. -/
def execLui (u : PipRef) (w : BitVec 26) (s : State) : Res :=
  issueB 0x16 u w (fun r s => (.ok { sc := some (bitsOf w.toNat 25 22,
    (r.sreg (bitsOf w.toNat 25 22) &&& 0x3FFF) ||| BitVec.ofNat 32 (bitsOf w.toNat 17 0 * 2 ^ 14)) }, s)) s

/-- VGET. -/
def execVget (u : PipRef) (w : BitVec 26) (s : State) : Res :=
  issueB 0x18 u w (fun r s => (.ok { sc := some (bitsOf w.toNat 25 22, r.lane (bitsOf w.toNat 21 17) (bitsOf w.toNat 16 15)) }, s)) s

/-- VPUT. -/
def execVput (u : PipRef) (w : BitVec 26) (s : State) : Res :=
  issueB 0x19 u w (fun r s => (.ok { vec := some (bitsOf w.toNat 25 21, (List.range 4).map (fun k =>
    if k = bitsOf w.toNat 20 19 then some (r.sreg (bitsOf w.toNat 18 15)) else none)) }, s)) s

/-- BR. -/
def execBr (u : PipRef) (w : BitVec 26) (s : State) : Res := branchJ 0x20 (fun _ _ => true) u w s
/-- BEQ. -/
def execBeq (u : PipRef) (w : BitVec 26) (s : State) : Res :=
  branchJ 0x21 (fun r n => r.sreg (bitsOf n 25 22) == r.sreg (bitsOf n 21 18)) u w s
/-- BNE. -/
def execBne (u : PipRef) (w : BitVec 26) (s : State) : Res :=
  branchJ 0x22 (fun r n => r.sreg (bitsOf n 25 22) != r.sreg (bitsOf n 21 18)) u w s
/-- BLT, signed. -/
def execBlt (u : PipRef) (w : BitVec 26) (s : State) : Res :=
  branchJ 0x23 (fun r n => sltW (r.sreg (bitsOf n 25 22)) (r.sreg (bitsOf n 21 18))) u w s
/-- BANY. -/
def execBany (u : PipRef) (w : BitVec 26) (s : State) : Res :=
  branchJ 0x24 (fun r n => (List.range 4).any (r.pbit (bitsOf n 25 24))) u w s
/-- BALL. -/
def execBall (u : PipRef) (w : BitVec 26) (s : State) : Res :=
  branchJ 0x25 (fun r n => (List.range 4).all (r.pbit (bitsOf n 25 24))) u w s

/-- The result of a tile is accepted (R201, R209): its output buffer's pixels enter the frame. -/
def acceptTile (u : PipRef) (t : TileIn) (mem : List (Nat × Word)) (s : State) : State :=
  match s.slotFront t.slot with
  | none => s
  | some (_, fr) =>
    let px (c r : Nat) : Px :=
      let w (ch : Nat) : Nat := (lookD mem 0 (0x1800 + t.buf * 0x300 + ((ch * 8 + r) * 8 + c) * 4)).toNat % 2 ^ 20
      (w 0, w 1, w 2)
    leaveTile t.slot t.tile (placeTile t.slot fr t.tile px (bump (POD_PIP_TILES u.pod u.pip) s))

/-- A result that is not to be trusted is discarded (R209). -/
def fenceResult (u : PipRef) (s : State) : State :=
  let s := bump (POD_FENCED u.pod) s
  if (s.pip u).told then s else raise 0x20 5 (pipNo u) (modPip u (fun z => { z with told := true }) s)

/-- END (R193, R195, R207, R209): the tile is complete if END issues within the declared cycles, and its result counts
only under the pip's current epoch. A retired pip that speaks again is fenced. -/
def execPipEnd (u : PipRef) (w : BitVec 26) (s : State) : Res :=
  guardOk u.wf <|
    if !s.pipOn u then s
    else if s.pipState u = pipRetired then fenceResult u (modPip u (fun z => { z with run := none }) s)
    else match (s.pip u).run with
      | none => s
      | some r => match s.bundle u r with
        | none => s
        | some b =>
          if r.a.isSome && b.toNat / 2 ^ 32 == 0x26 * 2 ^ 26 + w.toNat then
            if (s.pod u.pod).pkg.c < issueAt r b.toNat then
              let (e, s) := examine 0x2005 true s
              pipFault u 5 e.inj s
            else
            let mem := (s.pip u).mem
            let s := modPip u (fun z => { z with run := none }) s
            let s := if r.t.epoch = s.f (POD_PIP_EPOCH_epoch u.pod u.pip) && s.pipState u = pipActive
              then acceptTile u r.t mem s else fenceResult u s
            wakePip u s
          else s

end Sys2Proof.Machine
end

