-- ==== Sys2Proof/Machine/Pip.lean ====
section
/-! DEFINITION. Pip packages, admission, self-tests and re-admission (R187, R202 to R207, R212). -/

namespace Sys2Proof.Machine

/-! ### Packages and admission (R202 to R205) -/

/-- Non-zero words of a byte string, by word index. -/
def wordsOf (bs : List Byte) : List (Nat × Word) :=
  (List.range (bs.length / 4)).filterMap (fun i =>
    let w := leAt bs (4 * i) 4
    if w = 0 then none else some (i, BitVec.ofNat 32 w))

/-- The size fields of a package header (R202): bundles, data bytes, pod bytes, tables. -/
def pkgSizes (h : List Byte) : Nat × Nat × Nat × Nat :=
  (leAt h 0x04 4 % 2 ^ 11, leAt h 0x08 4 % 2 ^ 14, leAt h 0x0C 4 % 2 ^ 18, leAt h 0x18 4 % 2 ^ 5)

/-- Every size field lies within R202. -/
def sizesOk (z : Nat × Nat × Nat × Nat) (c : Nat) : Bool :=
  let (nc, nd, np, nl) := z
  decide (1 ≤ nc ∧ nc ≤ 1024 ∧ nd ≤ 8192 ∧ nd % 4 = 0 ∧ np ≤ 131072 ∧ np % 4 = 0 ∧ nl ≤ 16 ∧ 1 ≤ c)

/-- A descriptor of the LUT unit (R197). -/
def lutDesc (d : List Byte) : LutDesc :=
  ⟨leAt d 0 4 % 2 ^ 17, leAt d 4 4 % 2 ^ 13, bitOf (leAt d 4 4) 16, leAt d 8 4 % 2 ^ 20, leAt d 12 4 % 2 ^ 20⟩

/-- A package from its header and body. -/
def pkgOf (gen : Nat) (h body : List Byte) : Pkg :=
  let (nc, nd, np, nl) := pkgSizes h
  { gen := gen
    c := leAt h 0x10 4 % 65536
    halo := match leAt h 0x14 4 % 4 with
      | 3 => 4
      | x => x
    nd := nd
    np := np
    code := (List.range nc).map (fun i => BitVec.ofNat 64 (leAt body (8 * i) 8))
    data := wordsOf ((body.drop (8 * nc)).take nd)
    pod := wordsOf ((body.drop (8 * nc + nd)).take np)
    luts := (List.range nl).map (fun i => lutDesc ((body.drop (8 * nc + nd + np + 16 * i)).take 16)) }

/-- Operations slot B has (R193). -/
def opBOk (op : Nat) : Bool :=
  op ≤ 0x04 || (0x08 ≤ op && op ≤ 0x11) || (0x14 ≤ op && op ≤ 0x16) || op == 0x18 || op == 0x19 || (0x20 ≤ op && op ≤ 0x26)

/-- The vector register slot A writes, if any. -/
def destA (b : Nat) : Option Nat :=
  let op := bitsOf b 31 26
  if op = 0 || (0x0C ≤ op && op ≤ 0x0E) || op = 0x1B || op = 0x1C then none else some (fVd (b % 2 ^ 26))

/-- The vector register slot B writes, if any. -/
def destB (b : Nat) : Option Nat :=
  let op := bitsOf b 63 58
  if op = 0x01 then some (bitsOf b 54 50) else if op = 0x19 then some (bitsOf b 57 53) else none

/-- A bundle holds no reserved operation and no destination twice (R191, R204 check 0x3). -/
def bundleOk (b : BitVec 64) : Bool :=
  let n := b.toNat
  decide (bitsOf n 31 26 ≤ 0x24) && opBOk (bitsOf n 63 58) &&
    (match destA n, destB n with
      | some x, some y => x != y
      | _, _ => true)

/-- The descriptors and the LUT operations that name them are sound (R204 check 0x4). -/
def lutsOk (p : Pkg) : Bool :=
  p.luts.all (fun d => decide (2 ≤ d.n ∧ d.n ≤ 4097 ∧ d.base + 4 * d.n ≤ 131072) && decide (slVal d.d0 < slVal d.d1)) &&
    p.code.all (fun b => let n := b.toNat; bitsOf n 31 26 != 0x24 || decide (bitsOf n 12 8 % 16 < p.luts.length))

/-- The pods whose configuration names slot `j`, powered or not, with their strip's enable (R204 check 0x5). -/
def State.podsNamed (s : State) (j : Nat) : List (Nat × Bool) :=
  let m := (s.rdLive PIP_STRIP_MAP).toNat
  (List.range (Config.pods s.variant)).filterMap (fun p =>
    let st := p / 16
    if bitsOf m (4 * st + 1) (4 * st) = j / 2 && s.g (POD_CFG_slot p) = 1 + j % 2
    then some (p, bitOf m (4 * st + 2) && s.unitOn (dSTRIP st)) else none)

/-- Judges the package of slot `j`: the reason it fails, or the package (R204). -/
def judgePkg (j gen : Nat) (s : State) : Except Nat Pkg × State :=
  let a := s.pairLive (PIP_SLOT_PKG_LO j) (PIP_SLOT_PKG_HI j)
  match dmaRead 2 a 64 s with
  | (none, s) => (.error 1, s)
  | (some h, s) =>
    let (nc, nd, np, nl) := pkgSizes h
    match dmaRead 2 (a + 64) (8 * nc + nd + np + 16 * nl) s with
    | (none, s) => (.error 1, s)
    | (some body, s) =>
      let p := pkgOf gen h body
      let pods := s.podsOf j
      let named := s.podsNamed j
      (if leAt h 0 2 ≠ 1 || leAt h 0x3C 4 ≠ crc32 (body ++ h.take 60) then .error 1
        else if leAt h 2 2 ≠ 64 || !sizesOk (nc, nd, np, nl) p.c then .error 2
        else if !p.code.all bundleOk then .error 3
        else if !lutsOk p then .error 4
        else if pods.isEmpty || !named.all (·.2) then .error 5
        else if !s.fullPods j then .error 6
        else if 32 * pods.length < p.c then .error 7
        else .ok p, s)

/-- What a judgement of slot `j` rests on: its package address and the pods that name it (R204). -/
def State.slotBase (s : State) (j : Nat) : Nat × List (Nat × Bool) :=
  (s.pairLive (PIP_SLOT_PKG_LO j) (PIP_SLOT_PKG_HI j), s.podsNamed j)

/-- Shows the pods of slot `j`, and whether one of them is below rate (R210; DEDUCED, log 32: a pod that has left the
slot counts no longer). -/
def showSlot (j : Nat) (s : State) : State :=
  let k := (s.podsOf j).length
  setF (PIP_SLOT_STATUS_below_rate j) (if s.fullPods j then 0 else 1)
    (setF (PIP_SLOT_STATUS_pods j) k (setF (PIP_SLOT_STATUS_budget j) (32 * k) s))

/-- The program number of slot `j` after its judgement, for the frames under the overlay (R205); none without a
program. -/
def admitSlot (j : Nat) (s : State) : Option Nat × State :=
  let gen := (s.slot j).gens + 1
  let base := s.slotBase j
  let s := modSlot j (fun z => { z with gens := gen, judged := some base }) s
  let s := setF (PIP_SLOT_STATUS_admitted j) 0 (setF (PIP_SLOT_STATUS_reason j) 0 (setF (PIP_SLOT_CYC_c j) 0 s))
  if base.1 = 0 then (none, s)
  else match judgePkg j gen s with
    | (.error r, s) => (none, raise 0x20 3 (j * 16 + r) (setF (PIP_SLOT_STATUS_reason j) r s))
    | (.ok p, s) =>
      let s := flag (PIP_SLOT_STATUS_admitted j) (setF (PIP_SLOT_CYC_c j) p.c s)
      (some gen, raise 0x20 4 j (modSlot j (fun z => { z with queue := z.queue ++ [p] }) s))

/-- The frames of pipeline `n` from number `pfn` on run program `g` in slot `c`. -/
def setProg (n pfn c : Nat) (g : Option Nat) (s : State) : State :=
  let p := s.ip n
  let now := match p.progNext with
    | some (_, l) => l
    | none => p.progs
  modIp n (fun p => { p with progNext := some (pfn, match g with
    | some g => put now c g
    | none => del now c) }) s

/-- Puts the PIP registers of pipeline `n` in force (R187): its slots' packages, and the strips that leave or join it
with their pods. -/
def pipRegsLive (n : Nat) (s : State) : State :=
  let s := takeLive (fun a => (List.range 2).any (fun k => a == PIP_SLOT_PKG_LO (2 * n + k) || a == PIP_SLOT_PKG_HI (2 * n + k))) s
  (List.range (Config.strips s.variant)).foldl (fun s st =>
    let pipe (w : Word) : Nat := bitsOf w.toNat (4 * st + 1) (4 * st)
    if pipe (s.rd PIP_STRIP_MAP) = n || pipe (s.rdLive PIP_STRIP_MAP) = n then
      let w := setBits (s.rdLive PIP_STRIP_MAP) (4 * st + 3) (4 * st) (bitsOf (s.rd PIP_STRIP_MAP).toNat (4 * st + 3) (4 * st))
      takeLive (fun a => (List.range 16).any (fun i => a == POD_CFG (16 * st + i))) { s with live := put s.live PIP_STRIP_MAP w }
    else s) s

/-- An overlay applies to pipeline `n` at the frame with number `pfn` (R187, R204, R205): in ascending order, each slot
whose package or pods it changes is judged, and each slot of the pipeline that was refused or runs below rate; the
frames from that one on run what it admits. A slot of another pipeline that loses pods here is judged too, from its
next frame on (DEDUCED, log 32). -/
def pipOverlay (n pfn : Nat) (s : State) : State :=
  if s.domOn dFAB then
    let was := (List.range 8).map s.podsNamed
    let s := pipRegsLive n s
    (List.range 8).foldl (fun s j =>
      if j / 2 = n then
        let s := showSlot j s
        let again := s.f (PIP_SLOT_STATUS_reason j) != 0 || s.b (PIP_SLOT_STATUS_below_rate j)
        let fresh := (s.slot j).judged.isNone && s.slotBase j == (0, s.podsNamed j)
        if again || (!fresh && (s.slot j).judged != some (s.slotBase j)) then
          let (g, s) := admitSlot j s
          setProg n pfn (j % 2) g s
        else s
      else if was.getD j [] != s.podsNamed j then
        let (g, s) := admitSlot j (showSlot j s)
        setProg (j / 2) (s.port (j / 2)).nextPfn (j % 2) g s
      else s) s
  else s

/-- Frames that still have to run what pod `q` holds for slot `i`: a frame of an earlier program than `g`, if any
(R203). -/
def State.podBusy (s : State) (i g : Nat) : Bool :=
  (s.ip (i / 2)).frames.any (fun f => match look f.prog (i % 2) with
    | some x => decide (x < g)
    | none => false)

/-- PACKAGE_LOAD (R203): once the frames of earlier programs have left the slot's pods, whichever slot they were in, the
next admitted package loads. -/
def execPackageLoad (j : Nat) (s : State) : Res :=
  guardOk (decide (j < 8)) <|
    match (s.slot j).loading, (s.slot j).queue with
    | none, p :: rest =>
      let busy := s.podBusy j p.gen || (List.range 8).any (fun i =>
        i != j && (s.slot i).pods.any (fun q => (s.podsOf j).contains q) && s.podBusy i ((s.slot i).loaded + 1))
      if busy || !s.domOn dFAB then s
      else showLoading (j / 2) (modSlot j (fun z => { z with loading := some p, queue := rest }) s)
    | _, _ => s

/-- PACKAGE_LOAD_DONE (R203): code, data, pod image and descriptors stand in every slot pod, the spare's pips too. -/
def execPackageLoadDone (j : Nat) (s : State) : Res :=
  guardOk (decide (j < 8)) <|
    match s.domOn dFAB, (s.slot j).loading with
    | false, _ | _, none => s
    | true, some p =>
      let pods := s.podsOf j
      let s := pods.foldl (fun s q =>
        let s := reloadPod q (modPod q (fun z => { z with pkg := p, next := 0 }) s)
        (List.range 9).foldl (fun s i => reloadPip ⟨q, i⟩ s) s) s
      showLoading (j / 2) (modSlot j (fun z => { z with loading := none, loaded := p.gen, pods := pods }) s)

/-! ### Self-test (R206, R207) -/

/-- SIGNATURE_TEST (R206): a pip with no tile starts its test, or skips it under throttling. -/
def execSignatureTest (u : PipRef) (s : State) : Res :=
  guardOk u.wf <|
    if s.pipOn u && (s.pip u).run.isNone && (s.pip u).test.isNone && s.pipState u != pipRetired then
      if 1 ≤ s.f THM_LEVEL_level then bump (POD_ST_SKIP u.pod) s
      else showPod u.pod (setF (POD_PIP_STATUS_state u.pod u.pip) pipTesting (modPip u (fun z => { z with test := some (1, none) }) s))
    else s

/-- The tile a fault stopped runs again on its pip, from the input that the streamer has kept (R201, R207). -/
def rerunTile (u : PipRef) (t : TileIn) (s : State) : State :=
  match s.slotFront t.slot with
  | none => s
  | some (_, fr) =>
    startRun u t (modPip u (fun z => { z with mem := fillInput fr (s.pod u.pod).pkg.halo t.tile t.buf z.mem }) s)

/-- SIGNATURE_TEST_DONE (R207, R208): a first failure is tested again; the retry says transient or lasting. -/
def execSignatureTestDone (u : PipRef) (pass : Bool) (s : State) : Res :=
  guardOk u.wf <|
    match (s.pip u).test with
    | none => s
    | some (k, tile) =>
      if !s.pipOn u then s
      else
        let (e, s) := examine 0x2000 (!pass) s
        if k = 1 then
          if e.err then
            setF (POD_PIP_STATUS_cause u.pod u.pip) 1 (bump (POD_ST_FAIL u.pod) (modPip u (fun z => { z with test := some (2, none), inj := e.inj }) s))
          else wakePip u (showPod u.pod (restState u (modPip u (fun z => { z with test := none }) s)))
        else
          let det := causeDet (s.f (POD_PIP_STATUS_cause u.pod u.pip))
          if e.err then retirePip u (lasting 1 det e.inj (pipNo u) 0 s)
          else
            let s := transient det (s.pip u).inj (pipNo u) 0 (bump (POD_PIP_RETRY u.pod u.pip) (modPip u (fun z => { z with test := none }) s))
            let s := showPod u.pod (restState u s)
            match tile with
            | some t => rerunTile u t s
            | none => wakePip u s

/-- TILE_WATCHDOG (R207): a tile not ended within its program's declared cycles is a pip fault. -/
def execTileWatchdog (u : PipRef) (s : State) : Res :=
  guardOk u.wf <|
    match (s.pip u).run with
    | none => s
    | some r =>
      if !s.pipOn u then s
      else
        let late := decide ((s.pod u.pod).pkg.c < r.cycle) || decide ((s.pod u.pod).pkg.code.length ≤ r.pc)
        let (e, s) := examine 0x2005 late s
        if e.err then pipFault u 5 e.inj s else s

/-- POD_MEMORY_RELOAD (R207): the loader rewrites a pod memory that failed parity. -/
def execPodMemoryReload (p : Nat) (s : State) : Res :=
  guardOk (decide (p < 128)) (if s.unitOn (dSTRIP (p / 16)) && (s.pod p).bad then reloadPod p s else s)

/-! ### Re-admission (R212) -/

/-- A write of PIP_READMIT: only the monitor's, and only for a RETIRED pip (R212). -/
def pipReadmitWrite (r : Requester) (v : Word) (s : State) : State :=
  let u : PipRef := ⟨bitsOf v.toNat 6 0, bitsOf v.toNat 11 8⟩
  if r = .monitor && u.wf && s.pipOn u && s.pipState u == pipRetired then modPip u (fun z => { z with readmit := 1 }) s
  else flag PIP_STATUS_bad_write s

/-- PIP_READMIT (R212). -/
def execPipReadmit (r : Requester) (v : Word) (s : State) : Res := .next (writeBy r PIP_READMIT (pipReadmitWrite r v) s)

/-- READMIT_TEST (R212): one test with no retry. -/
def execReadmitTest (u : PipRef) (pass : Bool) (s : State) : Res :=
  guardOk u.wf <|
    if (s.pip u).readmit = 1 && s.pipOn u then
      let (e, s) := examine 0x2000 (!pass) s
      if e.err then monReadmitted u false (raise 0x20 9 (pipNo u) (modPip u (fun z => { z with readmit := 0 }) s))
      else
        let s := setF (POD_PIP_EPOCH_epoch u.pod u.pip) ((s.f (POD_PIP_EPOCH_epoch u.pod u.pip) + 1) % 65536) s
        let s := reloadPip u (modPip u (fun z => { z with readmit := 2 }) s)
        match s.slotOfPod u.pod with
        | some _ => s
        | none => joinPip u s
    else s

end Sys2Proof.Machine
end

