-- ==== Sys2Proof/Machine/Bus.lean ====
section
/-! DEFINITION. Register accesses: what a write of each register does (R5, R510, and each register's own chapter), and
what a read returns and does (R5, R472, R477). -/

namespace Sys2Proof.Machine

/-! ### Writes, block by block: a register not named takes its fields' access codes alone -/

/-- Writes of SYS registers (R29, R30). -/
def sysEffect (a : Nat) (v : Word) (s : State) : State :=
  let d := (a - 0x40001800) / 0x40
  if a < EVR_QBASE 0 || EVR_QBASE 5 ≤ a then plainWrite a v s
  else if a = EVR_QBASE d then qbaseWrite d v s
  else if a = EVR_QSIZE d then qsizeWrite d v s
  else if a = EVR_QHEAD d then qheadWrite d v s
  else plainWrite a v s

/-- Writes of PWR and THM registers (chapter 21). -/
def pwrEffect (r : Requester) (a : Nat) (v : Word) (s : State) : State :=
  if a < PWR_VOTE 7 then voteWrite r ((a - PWR_VOTE 0) / 4) v s
  else if a = PWR_PAD_RELEASE then padReleaseWrite v s
  else if a = PWR_SLEEP then sleepWrite r v s
  else if a = PWR_RESET then resetWrite r v s
  else if a = PWR_WDT_CFG then wdtCfgWrite r v s
  else if a = PWR_WDT_KICK then wdtKickWrite r v s
  else if a = PWR_AVS_CFG then avsCfgWrite v s
  else if a = THM_READMIT then thmReadmitWrite v s
  else if a = THM_THR then thrWrite v s
  else if a = THM_T2 then t2Write v s
  else plainWrite a v s

/-- A write of ERR_INJk_CNT: an armed slot whose count is 0 disarms (R447). -/
def injCntWrite (k : Nat) (v : Word) (s : State) : State :=
  let s := plainWrite (ERR_INJ_CNT k) v s
  if s.f (ERR_INJ_CNT_count k) = 0 then injDisarm k s else s

/-- Writes of ERR registers (R447, R448, R458). -/
def errEffect (r : Requester) (a : Nat) (v : Word) (s : State) : State :=
  let k := (a - 0x40200000) / 0x10
  if k < 4 && a == ERR_INJ_CFG k then injCfgWrite k v s
  else if k < 4 && a == ERR_INJ_CNT k then injCntWrite k v s
  else if k < 4 && a == ERR_INJ_CTRL k then injCtrlWrite r k v s
  else if a = ERR_LOG_CTRL then logCtrlWrite r v s
  else plainWrite a v s

/-- Writes of REF registers (R31, R32, R511). -/
def refEffect (a : Nat) (v : Word) (s : State) : State :=
  if a = REF_CTRL then refCtrlWrite v s
  else if a = REF_RATE_NUM then refRateWrite false v s
  else if a = REF_RATE_DEN then refRateWrite true v s
  else if a = REF_RFN then refRfnWrite v s
  else if a = REF_PHASE then refPhaseWrite v s
  else plainWrite a v s

/-- Writes of CFG registers (R405, R409, R411, R413). -/
def cfgEffect (a : Nat) (v : Word) (s : State) : State :=
  if a = CFG_OVL_REQ then ovlReqWrite v s
  else if a = CFG_LOCK then lockWrite v s
  else if a = CFG_WARM then warmWrite v s
  else if a = CFG_OTP_ADDR then showOtp (plainWrite a v s)
  else if a = CFG_OTP_CMD then otpCmdWrite v s
  else plainWrite a v s

/-- Writes of a port's strip-scan registers that stand only while it is idle (chapter 19). -/
def ssIdleOnly (n a : Nat) : Bool :=
  [SP_SS_CTRL n, SP_SS_MINPER n, SP_SS_GEOM n, SP_SS_CELL n, SP_SS_MAP_LO n, SP_SS_MAP_HI n, SP_SS_MAP_SLOTS n].contains a

/-- Writes of port registers (chapters 2, 3, 4 and 19). -/
def spEffect (n a : Nat) (v : Word) (s : State) : State :=
  let k := (a - SP_LANE_CTRL n 0) / 0x400
  if SP_LANE_CTRL n 0 ≤ a then (if a = SP_LANE_CTRL n k then laneCtrlWrite n k v s else plainWrite a v s)
  else if a = SP_CTRL n then spCtrlWrite n v s
  else if a = SP_FRAME_SIZE n then frameSizeWrite n v s
  else if a = SP_XCLK_CFG n then xclkCfgWrite n v s
  else if a = SP_JV_CTRL n then jvCtrlWrite n v s
  else if a = SP_JV_MAP n then jvMapWrite n v s
  else if a = SP_JV_ORDER0 n || a = SP_JV_ORDER1 n then jvOrderWrite n a v s
  else if a = SP_JV_CHG n then jvChgWrite n v s
  else if a = SP_SET_CFG n then (if bitsOf v.toNat 3 2 = 3 then flag (SP_STATUS_bad_write n) s else plainWrite a v s)
  else if a = SP_SET_DATA n then setPush n v s
  else if a = SP_SET_CLOSE n then setClose n v s
  else if a = SP_CSI_CTRL n then (if bitsOf v.toNat 1 0 = 3 then flag (SP_STATUS_bad_write n) s else plainWrite a v s)
  else if a = SP_DIR_CMD n then dirCmdWrite n v s
  else if ssIdleOnly n a then ssIdleWrite n a v s
  else plainWrite a v s

/-- A write of an IPn register whose value is out of range: the flag it sets instead (chapters 5 to 7). -/
def ipRefusal (n a : Nat) (v : Word) : Option Fld :=
  let w := v.toNat
  if a = IP_FRONT_CFG n then (if bitsOf w 20 16 < 12 || 24 < bitsOf w 20 16 then some (IP_FRONT_STATUS_bad_write n) else none)
  else if a = IP_DPC_CNT n then (if 65536 < bitsOf w 16 0 then some (IP_FRONT_STATUS_bad_write n) else none)
  else if a = IP_DMS_CFG n then (if 16 < bitsOf w 4 0 then some (IP_FRONT_STATUS_bad_write n) else none)
  else if a = IP_NR_STR n then
    (if 256 < bitsOf w 8 0 || 256 < bitsOf w 24 16 then some (IP_CLR_STATUS_bad_write n) else none)
  else if a = IP_ST_CFG n then
    (if 64 < bitsOf w 14 8 || 48 < bitsOf w 21 16 then some (IP_ST_STATUS_bad_write n) else none)
  else none

/-- The ring whose geometry register (0 base low, 1 base high, 2 slot, 3 stride) or bufs (4) an address is. -/
def ringRegAt (v : Variant) (a : Nat) : Option (RingId × Nat) :=
  let rings : List RingId :=
    if 0x42000000 ≤ a && a < 0x42400000 then
      let n := (a - 0x42000000) / 0x100000
      let o := a % 0x100000
      if 0x600 ≤ o && o < 0x700 then [.tap n ((o - 0x600) / 0x40)]
      else if 0x800 ≤ o && o < 0xC00 then [.branch n ((o - 0x800) / 0x100)]
      else []
    else if 0x44000000 ≤ a && a < 0x44040000 then [.prc ((a - 0x44000000) / 0x10000)]
    else if 0x44101000 ≤ a && a < 0x44102000 then [.enc ((a - 0x44101000) / 0x100)]
    else []
  let _ := v
  rings.findSome? (fun r =>
    let g := ringRegs r
    if a = g.base then some (r, 0)
    else if a = g.baseHi then some (r, 1)
    else if a = g.slot then some (r, 2)
    else if some a = g.stride then some (r, 3)
    else if a = g.cfg then some (r, 4)
    else none)

/-- A write of a ring's geometry or bufs register (R172). -/
def ringEffect (r : RingId) (which : Nat) (v : Word) (s : State) : State :=
  if which = 4 then ringBufsWrite r v s else ringGeomWrite r which v s

/-- Writes of IPn registers: they stall while a capture runs (R53), and a shadow register marks its group (R155). -/
def ipEffect (n a : Nat) (v : Word) (s : State) : State :=
  let s := ipStall n s
  if a = IP_COMMIT n then commitWrite n v s
  else if a = IP_CAL_CTRL n then calCtrlWrite n v s
  else match ringRegAt s.variant a, ipRefusal n a v with
    | some (r, k), _ => ringEffect r k v s
    | none, some x => flag x s
    | none, none => ipTouch n a (plainWrite a v s)

/-- Writes of PIP block registers: the entries of absent strips and the slots of absent pipelines read 0 and ignore
writes (R473). -/
def pipEffect (r : Requester) (a : Nat) (v : Word) (s : State) : State :=
  if a = PIP_STRIP_MAP then
    plainWrite a (BitVec.ofNat 32 (v.toNat % 16 ^ Config.strips s.variant)) s
  else if PIP_SLOT_PKG_LO (2 * Config.ports s.variant) ≤ a && a < PIP_SLOT_PKG_LO 8 then s
  else if a = PIP_READMIT then pipReadmitWrite r v s
  else plainWrite a v s

/-- Writes of PRCn registers (R228, R234). -/
def prcEffect (n a : Nat) (v : Word) (s : State) : State :=
  if a = PRC_CTRL n then prcCtrlWrite n v s
  else if a = PRC_BUDGET n then (if v.toNat % 8 = 0 then plainWrite a v s else flag (PRC_STATUS_bad_write n) s)
  else if a = PRC_APPLY n then prcApplyWrite n v s
  else match ringRegAt s.variant a with
    | some (q, k) => ringEffect q k v s
    | none => plainWrite a v s

/-- A write of a ring's entries, up to 4,096. -/
def entriesWrite (bad : Fld) (a : Nat) (v : Word) (s : State) : State :=
  if 4096 < bitsOf v.toNat 12 0 then flag bad s else plainWrite a v s

/-- Writes of HVC registers (chapter 10). -/
def hvcEffect (a : Nat) (v : Word) (s : State) : State :=
  let c := (a - 0x44101000) / 0x100
  let d := (a - 0x44102100) / 0x10
  if a < 0x44101000 then plainWrite a v s
  else if a < 0x44102000 then
    if a = HVC_EC_APPLY c then ecApplyWrite c v s
    else if a = HVC_EC_IDR c then ecIdrWrite c v s
    else if a = HVC_EC_LT c then ecLtWrite c v s
    else if a = HVC_EC_POOL_LO c || a = HVC_EC_POOL_HI c || a = HVC_EC_POOL_CFG c then ecPoolWrite c a v s
    else if a = HVC_EC_REP_CFG c then entriesWrite (HVC_EC_STATUS_bad_write c) a v s
    else if a = HVC_EC_REP_HEAD c then ecRepHeadWrite c v s
    else match ringRegAt s.variant a with
      | some (q, k) => ringEffect q k v s
      | none => plainWrite a v s
  else if a = HVC_DEC_CMD_TAIL then decTailWrite v s
  else if a = HVC_DEC_CMD_CFG || a = HVC_DEC_CPL_CFG then entriesWrite HVC_STATUS_bad_write a v s
  else if a = HVC_DEC_CPL_HEAD then decCplHeadWrite v s
  else if a = HVC_DEC_CTB_TO then ctbToWrite v s
  else if HVC_DC_DPB_LO 0 ≤ a && a == HVC_DC_REL d then dpbRelWrite d v s
  else plainWrite a v s

/-- Writes of PKE registers (R260, R268). -/
def pkeEffect (a : Nat) (v : Word) (s : State) : State :=
  let c := (a - 0x44200000) / 0x100
  if c < 2 && a == PKE_CTRL c then pkeCtrlWrite c v s else plainWrite a v s

/-- Writes of memory controller registers (R274, R281, R283); the channel masks a variant does not use read 0 and ignore
writes (R473). -/
def mcEffect (m a : Nat) (v : Word) (s : State) : State :=
  let k := (a - MEM_ECC_RGN_LO 0) / 0x10
  if a = MC_TRAIN_CTRL m then trainWrite m v s
  else if m != 0 then plainWrite a v s
  else if (unusedCh s.variant).any (fun i => a == MEM_MAP_CH_LO i || a == MEM_MAP_CH_HI i) then s
  else if a = MEM_MAP_APPLY then mapApplyWrite v s
  else if a = MEM_CTRL then memCtrlWrite v s
  else if MEM_ECC_RGN_LO 0 ≤ a && a == MEM_ECC_RGN_CTRL k then eccRegionWrite k v s
  else plainWrite a v s

/-- Writes of RM registers (R287, R298 to R301, R307 to R309). -/
def rmEffect (a : Nat) (v : Word) (s : State) : State :=
  let m := (a - 0x46000100) / 0x40
  let w := (a - 0x46000300) / 0x40
  let k := (a - 0x46000400) / 0x40
  if a < 0x46000100 then plainWrite a v s
  else if a < 0x46000300 then (if a = RM_MBR_CTRL m then mbrCtrlWrite m v s else plainWrite a v s)
  else if a < 0x46000400 then (if a = RM_VOL_CTRL w then volCtrlWrite w v s else plainWrite a v s)
  else if a = RM_STR_CTRL k then strCtrlWrite k v s
  else if a = RM_STR_GRANT_EXT k then tryClose k (grantWrite k v s)
  else plainWrite a v s

/-- Writes of OEP registers (R318, R324). -/
def oepEffect (a : Nat) (v : Word) (s : State) : State :=
  let k := (a - 0x46100100) / 0x20
  if OEP_NS_CFG 0 ≤ a && k < 4 && a == OEP_NS_CFG k then nsActivate k (hostClear (plainWrite a v s))
  else if OEP_NS_CFG 0 ≤ a && k < 4 && (a == OEP_NS_AJ_LO k || a == OEP_NS_AJ_HI k) then ajWrite k a v s else plainWrite a v s

/-- Writes of SCO registers (chapter 15). -/
def scoEffect (a : Nat) (v : Word) (s : State) : State :=
  if a = SCO_CTRL then scoCtrlWrite v s
  else if a = SCO_HTIM || a = SCO_VTIM || a = SCO_VSTART || a = SCO_PHASE then scoTimWrite a v s
  else plainWrite a v s

/-- Writes of AUDn registers (chapter 16). -/
def audEffect (n a : Nat) (v : Word) (s : State) : State :=
  if a = AUD_CTRL n then audCtrlWrite n v s
  else if a = AUD_FMT n then audFmtWrite n v s
  else if a = AUD_MASK n then maskWrite n v s
  else if a = AUD_RING_CFG n then audRingWrite n v s
  else if a = AUD_MCLK_CFG then mclkWrite v s
  else plainWrite a v s

/-- Writes of NETm and stream registers (chapter 17). An MDIO operation's answer is what the PHY gives: an open value. -/
def netEffect (m a : Nat) (v : Word) (s : State) : State :=
  let k := (a - NET_STR_CFG 0) / 0x40
  if a = NET_CTRL m then netCtrlWrite m v s
  else if a = NET_TXR_CFG m || a = NET_RXR_CFG m then netEntriesWrite m a v s
  else if a = NET_RXR_TAIL m then rxTailWrite m v s
  else if a = NET_MDIO m then (let (x, s) := draw s; mdioWrite m v (x.setWidth 16) s)
  else if m = 0 && NET_STR_CFG 0 ≤ a && a == NET_STR_CFG k then nstrCfgWrite k v s
  else if m = 0 && NET_STR_CFG 0 ≤ a && a == NET_STR_PAY k then nstrPayWrite k v s
  else plainWrite a v s

/-- Writes of TSU registers (R360, R361). -/
def tsuEffect (a : Nat) (v : Word) (s : State) : State :=
  if a = TSU_INCR_NS then tsuIncrNsWrite v s
  else if a = TSU_INCR_FRAC then tsuIncrCommit v s
  else if a = TSU_CMD then tsuCmdWrite v s
  else plainWrite a v s

/-- Writes of PFIc registers (chapter 18). -/
def pfiEffect (c a : Nat) (v : Word) (s : State) : State :=
  if a = PFI_CTRL c then pfiCtrlWrite c v s
  else if a = PFI_STATUS c then pfiStatusWrite c v s
  else if a = PFI_SPD_WIN c then spdWinWrite c v s
  else if a = PFI_PWM c then pwmWrite c v s
  else if a = PFI_PWM_DUTY c then dutyWrite c v s
  else if a = PFI_COMM0 c || a = PFI_COMM1 c then commWrite c a v s
  else if a = PFI_PH_CFG c then phCfgWrite c v s
  else if a = PFI_POS c then posWrite c v s
  else plainWrite a v s

/-- Writes of MON block registers (R394, R395, R414, R433). -/
def monEffect (a : Nat) (v : Word) (s : State) : State :=
  if a = XSPI_CFG || a = XSPI_ADDR || a = XSPI_LEN || a = XSPI_DST_LO || a = XSPI_DST_HI then xspiRegWrite a v s
  else if a = XSPI_CMD then xspiCmdWrite v s
  else if a = GPIO_OUT || a = GPIO_OE then gpioWrite a v s
  else if a = GPIO_SET then gpioSetWrite v s
  else if a = GPIO_CLR then gpioClrWrite v s
  else if a = PMB_CTRL then pmbCtrlWrite v s
  else if a = PMB_CMD || a = PMB_DATA then pmbRegWrite a v s
  else if a = CTL_MBOX_CTRL then mboxCtrlWrite v s
  else plainWrite a v s

/-- A write of register `a`, by the block whose window holds it (R470). -/
def regWrite (r : Requester) (a : Nat) (v : Word) (s : State) : State :=
  if a < 0x40100000 then sysEffect a v s
  else if a < 0x40200000 then pwrEffect r a v s
  else if a < 0x40300000 then errEffect r a v s
  else if a < 0x40400000 then refEffect a v s
  else if a < 0x41000000 then cfgEffect a v s
  else if a < 0x42000000 then spEffect ((a - 0x41000000) / 0x100000) a v s
  else if a < 0x43000000 then ipEffect ((a - 0x42000000) / 0x100000) a v s
  else if a < 0x43080000 then plainWrite a v s
  else if a < 0x44000000 then pipEffect r a v s
  else if a < 0x44040000 then prcEffect ((a - 0x44000000) / 0x10000) a v s
  else if a < 0x44100000 then (if a = PRD_GO then prdGoWrite v s else plainWrite a v s)
  else if a < 0x44200000 then hvcEffect a v s
  else if a < 0x45000000 then pkeEffect a v s
  else if a < 0x46000000 then mcEffect ((a - 0x45000000) / 0x40000) a v s
  else if a < 0x46100000 then rmEffect a v s
  else if a < 0x47000000 then oepEffect a v s
  else if a < 0x47100000 then scoEffect a v s
  else if a < 0x47200000 then audEffect ((a - 0x47100000) / 0x1000) a v s
  else if a < 0x47202000 then netEffect ((a - 0x47200000) / 0x1000) a v s
  else if a < 0x47300000 then tsuEffect a v s
  else if a < 0x47400000 then pfiEffect ((a - 0x47300000) / 0x100) a v s
  else monEffect a v s

/-- A register holds address `a` (R472: elsewhere a write is ignored). -/
def holdsReg (v : Variant) (a : Nat) : Bool := match windowAt v a with
  | some h => (rowAt h).isSome
  | none => false

/-- A 32-bit write that has passed its checks (R414, R472). -/
def storeReg (r : Requester) (a : Nat) (v : Word) (s : State) : State :=
  monWrote r a <|
    if inMailbox a then mboxPut (a - 0x47404000) (leBytes 4 v.toNat) s
    else if holdsReg s.variant a then regWrite r a v s
    else s

/-- A register write: true if it draws no error response (R471, R472, R420). -/
def busWrite (r : Requester) (a : Nat) (v : Word) (s : State) : Bool × State :=
  match gate a 4 s with
  | (true, s) => (true, storeReg r a v s)
  | (false, s) => (false, s)

/-! ### Reads -/

/-- A _LO register whose read latches the register after it (R459, R477). -/
def isLatchLo (a : Nat) : Bool :=
  let o := a % 0x100000
  let at_ (l : List Nat) (x : Nat) : Bool := l.contains x
  if a < 0x40100000 then EVR_QBASE 0 ≤ a && a < EVR_QBASE 5 && at_ [0x10, 0x1C] ((a - EVR_QBASE 0) % 0x40)
  else if 0x41000000 ≤ a && a < 0x41400000 then
    at_ [0x840, 0x848] o || (0x8000 ≤ o && o < 0xB000 && o % 0x400 == 8)
  else if 0x42000000 ≤ a && a < 0x42400000 then
    (0x600 ≤ o && o < 0x700 && at_ [0x1C, 0x24] (o % 0x40)) || (0x800 ≤ o && o < 0xC00 && at_ [0xD8, 0xE0] (o % 0x100))
  else if 0x43080020 ≤ a && a < 0x43080120 then (a - 0x43080020) % 0x20 == 0x10
  else if 0x44000000 ≤ a && a < 0x44040000 then at_ [0x54, 0x5C] (a % 0x10000)
  else if 0x44101000 ≤ a && a < 0x44102000 then at_ [0x64, 0x6C] (a % 0x100)
  else if 0x46100000 ≤ a && a < 0x46200000 then at_ [0x204, 0x20C] o
  else if 0x47100000 ≤ a && a < 0x47104000 then at_ [0x30, 0x38, 0x40, 0x48] (a % 0x1000)
  else false

/-- The companions that a read of `a` latches. -/
def latchedBy (a : Nat) : List Nat :=
  if a = TSU_NOW_NS then [TSU_NOW_S_LO, TSU_NOW_S_HI, TSU_NOW_FRAC] else if isLatchLo a then [a + 4] else []

/-- The register is read through a latch. -/
def isLatched (a : Nat) : Bool := a == TSU_NOW_S_LO || a == TSU_NOW_S_HI || a == TSU_NOW_FRAC || (4 ≤ a && isLatchLo (a - 4))

/-- A requester that has a latch (R477). -/
def hasLatch (r : Requester) : Bool := r != .cfg

/-- The key of a requester's latch of register `a`. -/
def latchKey (r : Requester) (a : Nat) : Nat := reqNo r * 2 ^ 32 + a

/-- What a register shows now: stored, or following a running count. -/
def State.shown (s : State) (a : Nat) : Word :=
  if a = TSU_NOW_NS then BitVec.ofNat 32 s.tsu.ns
  else if a = TSU_NOW_S_LO then BitVec.ofNat 32 s.tsu.sec
  else if a = TSU_NOW_S_HI then BitVec.ofNat 32 (s.tsu.sec / 2 ^ 32)
  else if a = TSU_NOW_FRAC then BitVec.ofNat 32 s.tsu.frac
  else if a = PWR_AON_SEC_LO then BitVec.ofNat 32 s.aonSec
  else if a = PWR_AON_SEC_HI then BitVec.ofNat 32 (s.aonSec / 2 ^ 32)
  else if 0x47300000 ≤ a && a == PFI_PERIOD ((a - 0x47300000) / 0x100) then s.periodNow ((a - 0x47300000) / 0x100)
  else s.rd a

/-- The bits that a read clears. -/
def rcMask (x : RegRow) : Nat := x.fields.foldl (fun m f => if f.acc = .rc then m + (2 ^ (f.hi + 1) - 2 ^ f.lo) else m) 0

/-- What a read of a register returns: a latched one by the requester's own latch (R477). -/
def State.readValue (s : State) (r : Requester) (a : Nat) : Word :=
  if inMailbox a then BitVec.ofNat 32 (leNat ((List.range 4).map (fun i => s.mboxByte (a - 0x47404000 + i))))
  else if !holdsReg s.variant a then 0
  else if isLatched a then lookD s.latch 0 (latchKey r a)
  else s.shown a

/-- What a read of a register does: RC bits clear, companions are latched, a stamp is popped (R5, R366, R477). -/
def readEffect (r : Requester) (a : Nat) (s : State) : State :=
  match windowAt s.variant a with
  | none => s
  | some h => match rowAt h with
    | none => s
    | some x =>
      let s := if rcMask x = 0 then s else wr a (BitVec.ofNat 32 ((s.rd a).toNat &&& (2 ^ 32 - 1 - rcMask x))) s
      let s := if hasLatch r then
        (latchedBy a).foldl (fun s c => { s with latch := put s.latch (latchKey r c) (s.shown c) }) s else s
      let m := (a - 0x47200000) / 0x1000
      if 0x47200000 ≤ a && m < 2 && a == NET_TXTS m 3 then
        showStamps m (modNet m (fun n => { n with stamps := n.stamps.drop 1 }) s)
      else s

/-- A 32-bit register read: its data, or an error response. -/
def busRead (r : Requester) (a : Nat) (s : State) : Option Word × State :=
  match gate a 4 s with
  | (true, s) => (some (s.readValue r a), readEffect r a s)
  | (false, s) => (none, s)

/-! ### Commands -/

/-- RC_READ: a read, which clears what its register clears (R5). -/
def execRcRead (r : Requester) (a : Nat) (s : State) : Res :=
  .next (match busRead r a s with
    | (some w, s) => answer r w s
    | (none, s) => refuse r s)

/-- LO_READ_LATCH: a read, which latches what its register latches (R477). -/
def execLoReadLatch (r : Requester) (a : Nat) (s : State) : Res :=
  .next (match busRead r a s with
    | (some w, s) => answer r w s
    | (none, s) => refuse r s)

/-- ACCESS_ERROR: an access outside every window, to an absent unit or of a wrong form (R471, R472, R475). One that would
be served is not this command. -/
def execAccessError (r : Requester) (a width : Nat) (_write : Bool) (s : State) : Res :=
  .next (
    if a < Config.regBase || Config.regEnd ≤ a then s
    else match windowAt s.variant a with
      | some h => if h.present && formOk a width then s else refuse r (gate a width s).2
      | none => refuse r (gate a width s).2)

end Sys2Proof.Machine
end

