-- ==== Sys2Proof/Machine/Boot.lean ====
section
/-! DEFINITION. Overlays at run time and boots (R392, R396, R397, R399 to R401, R405, R406, R408, R410). -/

namespace Sys2Proof.Machine

open Sys2Proof.Config (us)

/-! ### The overlay engine (R406) -/

/-- The pipeline whose blocks a record addresses: SPn, IPn, PRCn, its slots, and the pods of the strips mapped to it
(R406 steps 1 and 2). -/
def recOwner (strips : Word) (a : Nat) : Option Nat :=
  if 0x41000000 ≤ a && a < 0x41400000 then some ((a - 0x41000000) / 0x100000)
  else if 0x42000000 ≤ a && a < 0x42400000 then some ((a - 0x42000000) / 0x100000)
  else if 0x43000000 ≤ a && a < 0x43080000 then
    let st := (a - 0x43000000) / 0x10000
    some (bitsOf strips.toNat (4 * st + 1) (4 * st))
  else if 0x43080020 ≤ a && a < 0x43080120 then some ((a - 0x43080020) / 0x40)
  else if 0x44000000 ≤ a && a < 0x44040000 then some ((a - 0x44000000) / 0x10000)
  else none

/-- The address a register record writes. -/
def Record.addr : Record → Option Nat
  | .write a _ => some a
  | .modify a _ _ => some a
  | _ => none

/-- Runs a register record as requester `r`; true if it draws an error response. -/
def runRecord (r : Requester) (x : Record) (s : State) : Bool × State :=
  match x with
  | .write a v => let (ok, s) := busWrite r a v s; (!ok, s)
  | .modify a m v => match busRead r a s with
    | (some w, s) => let (ok, s) := busWrite r a ((w &&& ~~~m) ||| (v &&& m)) s; (!ok, s)
    | (none, s) => (true, s)
  | _ => (false, s)

/-- A record error marks overlay `i` invalid (R403). -/
def ovlSpoil (i : Nat) (s : State) : State :=
  setF CFG_OVL_VALID_valid (s.f CFG_OVL_VALID_valid &&& (2 ^ 16 - 1 - 2 ^ i)) s

/-- Writes the register records of overlay `i` whose owner `p` picks; one that draws an error response marks the overlay
invalid (R403). -/
def ovlPut (i : Nat) (recs : List Record) (p : Option Nat → Bool) (s : State) : State :=
  recs.foldl (fun s x => match Record.addr x with
    | none => if x == .bad && p none then ovlSpoil i (examDetect 0x0604 true 0 0 s).2 else s
    | some a =>
      if p (recOwner (s.rd PIP_STRIP_MAP) a) then
        let (err, s) := runRecord .cfg x s
        let (bad, s) := examDetect 0x0604 err 0 0 s
        if bad then ovlSpoil i s else s
      else s) s

/-- Once every pipeline has taken the pending overlay it is in force, and a held request starts (R405, R406 step 5). -/
def ovlDone (s : State) : State :=
  if s.b CFG_OVL_STATUS_busy && s.cfg.start.isNone && s.cfg.todo.isEmpty && s.cfg.hold.isEmpty &&
      s.cfg.sof.all (fun e => s.cfg.fin.contains e.1) then
    let s := setF CFG_OVL_STATUS_busy 0 (setF CFG_OVL_STATUS_in_force (s.f CFG_OVL_STATUS_pending) s)
    let s := modCfg (fun x => { x with sof := [], fin := [] }) s
    if s.b CFG_OVL_STATUS_held then ovlRequest (s.f CFG_OVL_STATUS_held_index) (setF CFG_OVL_STATUS_held 0 s) else s
  else s

/-- The accepted overlay's records are written (R406 steps 1 and 2). -/
def ovlRun (s : State) : State :=
  match s.cfg.start with
  | none => s
  | some i =>
    match s.ovlSect i with
    | none => modCfg (fun x => { x with start := none }) (setF CFG_OVL_STATUS_busy 0 s)
    | some x =>
      let s := modCfg (fun x => { x with start := none }) s
      let (ok, s) := sectRead 14 x s
      let recs := if ok then s.records x else [.bad]
      let ns := (List.range (Config.ports s.variant)).filter (bitOf x.mask)
      let s := raise 0x06 1 (i * 16 + 15) (ovlPut i recs (· == none) s)
      let s := ns.foldl (fun s n => ovlPut i recs (· == some n) s) s
      ovlDone (modCfg (fun x => { x with todo := ns, hold := [], sof := [], fin := [] }) s)

/-- The engine takes up what has been accepted; the end of one overlay may start the one held. -/
def ovlPump (s : State) : State := ovlRun (ovlRun s)

/-- The target of the overlay's commit for pipeline `n` (R406 step 3). -/
def State.ovlTarget (s : State) (n : Nat) : Nat :=
  let t := (s.f (SP_PFN_pfn n) + floor1 (s.f CFG_OVL_CTRL_lead)) % 2 ^ 32
  match (s.ip n).commits.getLast? with
  | some c => if ahead (c.target + 1) t then (c.target + 1) % 2 ^ 32 else t
  | none => t

/-- The sequence number of the overlay's commit: the one after the latest. -/
def State.ovlSeq (s : State) (n : Nat) : Nat :=
  ((match (s.ip n).commits.getLast? with
    | some c => c.seq
    | none => s.f (IP_COMMIT_STATUS_done_seq n)) + 1) % 65536

/-- The engine writes pipeline `n`'s commit, unless four are pending (R406 step 3). -/
def ovlCommit (n : Nat) (s : State) : State :=
  if !s.cfg.todo.contains n then s
  else
    let s := ipStall n s
    if 4 ≤ (s.ip n).commits.length then s
    else
      let t := s.ovlTarget n
      let s := if s.unitOn (dIP n) then
          modIp n (fun p => { p with commits := p.commits.mapIdx (fun i c =>
            if i + 1 = p.commits.length then { c with gate := true } else c) })
            (captureInto n t (s.ovlSeq n) (wr (IP_COMMIT_TARGET n) (BitVec.ofNat 32 t) s))
        else s
      modCfg (fun x => { x with todo := x.todo.filter (· != n), hold := put x.hold n t }) s

/-- OVERLAY_COMMIT (R406 step 3). -/
def execOverlayCommit (n : Nat) (s : State) : Res := guardOk (decide (n < 4)) (ovlCommit n s)

/-- The overlay takes pipeline `n` at frame `pfn`: PRCn's set, the PIP registers with their admission, and the event
(R406 step 4, R187, R205). -/
def ovlFinish (n pfn : Nat) (s : State) : State :=
  let s := if s.domOn dPRC then prcApplyWrite n 1 s else s
  let s := raise 0x06 1 (s.f CFG_OVL_STATUS_pending * 16 + n) (pipOverlay n pfn s)
  ovlDone (modCfg (fun x => { x with fin := n :: x.fin }) s)

/-- Step 4 for pipeline `n`: after the frame that took it has opened, or at once while its port is idle. -/
def ovlApply (n : Nat) (s : State) : State :=
  match look s.cfg.sof n with
  | some pfn => if s.cfg.fin.contains n then s else ovlFinish n pfn s
  | none =>
    if (look s.cfg.hold n).isSome && s.b (SP_STATUS_idle n) then
      let pfn := (s.port n).nextPfn
      ovlFinish n pfn (ovlBind n pfn (ssLive n) s)
    else s

/-- OVERLAY_APPLY (R406 step 4). -/
def execOverlayApply (n : Nat) (s : State) : Res := guardOk (decide (n < 4)) (ovlPump (ovlApply n s))

/-- OVERLAY_REQUEST: a write of CFG_OVL_REQ with go = 1 (R405). -/
def execOverlayRequest (r : Requester) (v : Word) (s : State) : Res :=
  .next (ovlPump (writeBy r CFG_OVL_REQ (ovlReqWrite (setBits v 8 8 1)) s))

/-- A change of the MODE pins is accepted (R405). -/
def modeAccept (v : Nat) (s : State) : State :=
  let s := raise 0x06 0 v (setF CFG_MODE_pins v s)
  if s.b CFG_MODE_pin_follow then modeRequest s else s

/-- MODE_CHANGE: the pins have held a new value for 10 ms (R405); before a boot is over they are only sampled. -/
def execModeChange (pins : BitVec 4) (s : State) : Res :=
  .next (
    let v := pins.toNat
    let s := modCfg (fun x => { x with pins := v }) s
    if s.awake && !s.pwr.bootDue && !s.pwr.testHold && s.f CFG_MODE_pins != v then ovlPump (modeAccept v s) else s)

/-- Applies overlay `i` during a boot, while every port is idle (R392 step 8, R410). -/
def ovlNow (i : Nat) (s : State) : State :=
  let s := ovlPump (ovlRequest i s)
  (List.range (Config.ports s.variant)).foldl (fun s n => ovlPump (ovlApply n (ovlCommit n s))) s

/-! ### Power for sprout (R392, R425, R426) -/

/-- Every transition that is pending runs to its end. -/
def bootPower (s : State) : State :=
  (List.range 40).foldl (fun s _ => match s.pwr.job with
    | some (d, .up) => domainUp d false (advanceTo s.pwr.jobDue s)
    | some (d, .down) => pwrNext (domainDown d s)
    | none => pwrNext s) s

/-- The root PLL locks, if it has been enabled (R18). -/
def bootPll (s : State) : State := match s.pwr.pllDue with
  | some t => modPwr (fun p => { p with pllLocked := true, pllDue := none }) (advanceTo t s)
  | none => s

/-- A wake's power-ups and clock switches (R425, R426). -/
def wakePower (s : State) : State :=
  let woke := s.pwr.pllDue.isSome
  let s := bootPll s
  match s.variant with
  | .umb9480 =>
    let s := if woke then setF (PWR_VOTE_vote 0) (s.f (PWR_VOTE_vote 0) ||| 0x3F) s else s
    let s := bootPower (pwrNext s)
    if woke then [PWR_CLK_fab, PWR_CLK_mem, PWR_CLK_ctrl].foldl (fun s f => flag f (advanceTo (s.now + 10 * us) s)) s else s
  | _ => (List.range 4).foldl (fun s m => if s.domOn (dMEM m) then s else wakeDomain (dMEM m) s) (bootPower s)

/-! ### The base stream (R402, R403) -/

/-- The hardware's next completion while sprout polls, up to instant `t` (R402): an OTP program, a power transition, then what
the spec gives no time, a flash read or a zero fill in progress; the latter are taken to end within any wait (DESIGN CHOICE
48). None: nothing is under way. -/
def pollNext (t : Nat) (s : State) : Option State :=
  match s.cfg.otpRun with
  | some (_, _, due) => if due ≤ t then some (otpEnd s) else rest s
  | none => rest s
where
  rest (s : State) : Option State :=
    if s.pwr.job.isSome && decide (s.pwr.jobDue ≤ t) then some (pwrNext (finishJob s))
    else if s.b XSPI_STATUS_busy then some (xspiFinish s)
    else match s.mc.fills with
      | k :: _ => some (fillDone k s)
      | [] => none

/-- POLL (R402): sprout reads the register until it matches; what the hardware completes meanwhile shows, and at instant `t` the
time is over. The answer is whether the record is an error. -/
def pollFor : Nat → Nat → Nat → Word → Word → State → Bool × State
  | 0, _, _, _, _, s => (true, s)
  | fuel + 1, t, a, m, v, s =>
    match busRead .cc0 a s with
    | (none, s) => (true, s)
    | (some w, s) =>
      if w &&& m = v then (false, s)
      else match pollNext t s with
        | some s => pollFor fuel t a m v s
        | none => match busRead .cc0 a (advanceTo t s) with
          | (some w, s) => (w &&& m != v, s)
          | (none, s) => (true, s)

/-- A record of the base stream, run by sprout on CC0; true if it is an error. A warm boot passes tables and data over. -/
def baseRecord (warm : Bool) (area : Nat × Nat) (x : Record) (s : State) : Bool × State :=
  let (err, s) := match x with
    | .write a _ => if recAddr a then runRecord .cc0 x s else (true, s)
    | .modify a _ _ => if recAddr a then runRecord .cc0 x s else (true, s)
    | .table dst st =>
      if warm then (false, s)
      else (match residueOpen st with
        | some bs => let (ok, s) := landBlock area dst bs s; (!ok, s)
        | none => (true, s))
    | .data dst bs => if warm then (false, s) else (let (ok, s) := landBlock area dst bs s; (!ok, s))
    | .wait n => (false, advanceTo (s.now + n * us) s)
    | .poll n a m v =>
      if !recAddr a then (true, s)
      else pollFor 64 (s.now + n * us) a m v s
    | .bad => (true, s)
  examDetect 0x0604 err 0 0 s

/-- Runs the base stream; true if a record is an error. -/
def baseStream (warm : Bool) (area : Nat × Nat) (s : State) : Bool × State :=
  match s.cfg.sects.find? (·.kind == 1) with
  | none => (true, s)
  | some x =>
    let (ok, s) := sectRead 13 x s
    (s.records x).foldl (fun (b, s) q => if b then (b, s) else baseRecord warm area q s) (!ok, s)

/-! ### One image slot (R392 steps 2 to 7) -/

/-- Steps 2 and 3: why the header is refused; 0 if it is not (R398, R399). -/
def slotCheck (h : List Byte) (s : State) : Nat × State :=
  if !hdrOk s.variant h then (2, s)
  else if hdrSec h < s.otpSec then (3, s)
  else if !bitOf (s.otp 22).toNat 0 then (0, s)
  else
    let key := slice h 0 0xD00 96
    let known := Config.sha384 key == s.otpBytes 0 12
    let (bad, s) := examDetect 0x0602 (!known || !Config.ecdsaP384 key (Config.sha384 (h.take 0xD60)) (slice h 0 0xD60 96)) 0 0 s
    (if !bad then 0 else if known then 5 else 4, s)

/-- Steps 4 and 5: the flash profile, the mask set, training, unless the slot before has trained DRAM, and DRAM; true if
they succeed (R274, R281, R396). -/
def slotMemory (h : List Byte) (trained : Bool) (fails : List Nat) (s : State) : Bool × State :=
  let p := leAt h 0x10 4
  let s := setF XSPI_CFG_ddr (bitsOf p 12 12) (setF XSPI_CFG_dummy (bitsOf p 11 8) (setF XSPI_CFG_mhz (bitsOf p 7 0) s))
  let s := memCtrlWrite 0 s
  let word (i k : Nat) : Word := BitVec.ofNat 32 (leAt h (0x40 + 8 * i + k) 4)
  let s := (List.range 5).foldl (fun s i => plainWrite (MEM_MAP_CH_HI i) (word i 4) (plainWrite (MEM_MAP_CH_LO i) (word i 0) s)) s
  let s := (List.range 4).foldl (fun s i => plainWrite (MEM_MAP_BK_HI i) (word (5 + i) 4) (plainWrite (MEM_MAP_BK_LO i) (word (5 + i) 0) s)) s
  let s := mapApplyWrite 1 s
  if singular s.variant s.chWritten s.bkWritten then (false, s)
  else
    let full := 2 ^ Config.channels s.variant - 1
    let s := (List.range 4).foldl (fun s m =>
      if trained then s
      else (List.range (Config.channels s.variant)).foldl (fun s c =>
        let ok := !fails.contains (8 * m + c)
        trainEnd m c ok ok s) (trainWrite m 1 s)) s
    ((List.range 4).all (fun m => s.f (MC_TRAIN_pass m) == full), memCtrlWrite 1 s)

/-- Step 6 for section `i`: read, digest, decryption; true if it fails (R400). -/
def slotSection (rd : Nat → Nat → List Byte) (base : Nat) (h : List Byte) (i : Nat) (s : State) : Bool × State :=
  let e := hdrEntry h i
  let x := hdrSect h i
  let stored := rd (base + leAt e 4 4) x.bytes
  let (ok, s) := dmaWrite 13 x.addr stored s
  let (bad, s) := examDetect 0x0601 (Config.sha384 stored != slice e 0 0x40 48) i 0 s
  if !ok || bad then (true, s)
  else if leAt e 2 1 % 2 = 0 then (false, s)
  else
    let plain := Config.aesGcmOpen (s.otpBytes 12 8) (slice e 0 0x18 12) (e.take 0x18) stored (slice e 0 0x24 16)
    let (bad, s) := examDetect 0x0601 plain.isNone i 0 s
    match plain, bad with
    | some p, false => let (ok, s) := dmaWrite 13 x.addr (slice p 0 0 x.bytes) s; (!ok, s)
    | _, _ => (true, s)

/-- Steps 6 and 7: why loading fails; 0 if it does not. -/
def slotLoad (rd : Nat → Nat → List Byte) (base : Nat) (h : List Byte) (s : State) : Nat × State :=
  if !sectsOk h then (2, s)
  else
    let l := hdrSects h
    let (bad, s) := (List.range l.length).foldl (fun (b, s) i => if b then (b, s) else slotSection rd base h i s) (false, s)
    if bad then (7, s)
    else
      let s := modCfg (fun x => { x with sects := l }) (setF CFG_OVL_VALID_valid 0 s)
      let s := (l.filter (·.kind == 2)).foldl (fun s x => ovlLoad (hdrArea h) x s) s
      let (bad, s) := baseStream false (hdrArea h) s
      (if bad then 8 else 0, s)

/-! ### Steps 8 and 9 -/

/-- The boot information block (R408). -/
def bootInfo (s : State) : List Byte :=
  let (base, len) := s.imgArea
  let pass := (List.range 4).foldl (fun m i => m + s.f (MC_TRAIN_pass i) * 2 ^ (8 * i)) 0
  let b := leBytes 4 (s.rd CFG_BOOT_STATUS).toNat ++
    leBytes 4 (s.f CFG_MODE_pins + s.f CFG_OVL_STATUS_in_force * 16 + s.cfg.sec * 256) ++
    leBytes 4 pass ++ leBytes 4 s.cfg.img ++ leBytes 8 base ++ leBytes 4 len ++ List.replicate 32 0
  b ++ leBytes 4 (crc32 b)

/-- Step 9: the information block, and the release of sage and the cores at their entry points, each core with its hart number
and the block's address, sage with that address (R408). -/
def bootRelease (s : State) : State :=
  let s := setF SAGE_DRAM_WIN_base s.cfg.win s
  modCfg (fun x => { x with
    released := true, harts := (List.range 4).map (fun k => (k, Config.sramBase)), sageArg := Config.sramBase }) (modPwr (fun p => { p with bootDue := false }) (poke Config.sramBase (bootInfo s) s))

/-- Step 8: the overlay of the sampled pins, and the warm-boot record (R401, R406, R410). -/
def bootMode (h : List Byte) (s : State) : State :=
  let (base, len) := hdrArea h
  let s := setF CFG_OVL_STATUS_in_force 0 s
  let ((i, ok), s) := modeLook 13 (s.f CFG_MODE_pins) s
  let s := if ok then s else raise 0x06 3 (s.f CFG_MODE_pins) s
  let s := match i with
    | some i => ovlNow i s
    | none => s
  let s := setPair CFG_IMG_BASE_LO CFG_IMG_BASE_HI base (wr CFG_IMG_LEN (BitVec.ofNat 32 len) s)
  let (bs, s) := dmaTake 13 base len s
  flag CFG_WARM_valid (wr CFG_IMG_CRC (BitVec.ofNat 32 (crc32 bs)) s)

/-- A slot is tried: why it fails, or 0 when the boot has succeeded, and whether DRAM has been trained (R392, R396). `fails`
also names the flash steps that fail (DESIGN CHOICE 48): 32 + 2 × slot the header's read, one more the profile's switch; a
boot from system SRAM, `flash` false, has neither. -/
def bootSlot (rd : Nat → Nat → List Byte) (base slot : Nat) (flash trained : Bool) (fails : List Nat) (s : State) :
    Nat × Bool × State :=
  if flash && fails.contains (32 + 2 * slot) then (1, trained, s)
  else
    let h := rd base 4096
    let (c, s) := slotCheck h s
    if c != 0 then (c, trained, s)
    else if flash && fails.contains (33 + 2 * slot) then (1, trained, s)
    else
      let (ok, s) := slotMemory h trained fails s
      let trains := !singular s.variant s.chWritten s.bkWritten
      if !ok then (if trains then 6 else 2, trained || trains, s)
      else
        let (c, s) := slotLoad rd base h s
        if c != 0 then (c, true, s)
        else
          let s := modCfg (fun x => { x with
            win := leAt h 0x34 1, sec := hdrSec h, img := leAt h 8 4, ccEntry := leAt h 0x28 5, sageEntry := leAt h 0x30 4 }) s
          let s := setF CFG_BOOT_STATUS_slot slot (setF CFG_BOOT_STATUS_warm 0
            (setF CFG_BOOT_STATUS_secure (bitsOf (s.otp 22).toNat 0 0) s))
          (0, true, bootRelease (bootMode h s))

/-- No slot has succeeded: the fault log is written and the monitor starts (R397). -/
def bootFail (s : State) : State :=
  modPwr (fun p => { p with bootDue := false }) (logFlush (logRec 4 0 false 0 0 s))

/-- A boot begins: the cores are held, and a pending overlay does not outlive it. -/
def ovlDrop (s : State) : State :=
  modCfg (fun x => { x with released := false, todo := [], hold := [], sof := [], fin := [], mark := [], start := none })
    (setF CFG_OVL_STATUS_busy 0 (setF CFG_OVL_STATUS_held 0 s))

/-- Step 1: OTP, whose shadow's parity may fail, the reference source it selects (R412), the PLL and the pins; true if the boot stops there. -/
def bootStart (otpBad : Bool) (s : State) : Bool × State :=
  let s := ovlDrop (logBoot s)
  let (bad, s) := examDetect 0x0600 otpBad 0 0 s
  if bad then (true, modPwr (fun p => { p with bootDue := false }) s)
  else
    let s := modCfg (fun x => { x with refclk := bitOf (s.otp 22).toNat 2 }) s
    (false, setF CFG_MODE_pins s.cfg.pins (bootPower (bootPll s)))

/-- A cold boot from flash: slot A, then slot B; true if one succeeds (R392, R396). -/
def bootCold (otpBad : Bool) (fails : List Nat) (s : State) : Bool × State :=
  let (stop, s) := bootStart otpBad s
  if stop then (false, s)
  else
    match bootSlot s.flashBytes 0 0 true false fails s with
    | (0, _, s) => (true, s)
    | (a, trained, s) =>
      let s := setF CFG_BOOT_STATUS_cause_a a s
      let alt := bitsOf (s.otp 22).toNat 31 16 * 65536
      if alt = 0 then (false, bootFail s)
      else match bootSlot s.flashBytes alt 1 true trained fails s with
        | (0, _, s) => (true, s)
        | (b, _, s) => (false, bootFail (setF CFG_BOOT_STATUS_cause_b b s))

/-- COLD_BOOT (R392), when one is due. -/
def execColdBoot (fails : List Nat) (otpBad : Bool) (s : State) : Res :=
  .next (if s.pwr.bootDue && !s.pwr.bootWarm then (bootCold otpBad fails s).2 else s)

/-- A boot from the copy in system SRAM (R466): R392 from step 2. -/
def bootSram (fails : List Nat) (s : State) : Bool × State :=
  let t := s
  match bootSlot (fun o n => t.peeks (Config.sramBase + o) n) 0 0 false false fails (ovlDrop (logBoot s)) with
  | (0, _, s) => (true, s)
  | (a, _, s) => (false, setF CFG_BOOT_STATUS_cause_a a (modPwr (fun p => { p with bootDue := false }) s))

/-- After a warm boot, pins that select another overlay than the one in force count as a change (R410). -/
def warmMode (s : State) : State :=
  let v := s.cfg.pins
  let (sel, s) := modeLook 13 v s
  if sel.1.getD 0 != s.f CFG_OVL_STATUS_in_force then ovlPump (modeAccept v s) else s

/-- A warm boot, or the cold boot it falls back to (R410). -/
def bootWarm (otpBad : Bool) (fails : List Nat) (s : State) : State :=
  let s := wakePower s
  let (base, len) := s.imgArea
  if !s.b CFG_WARM_valid then (bootCold otpBad fails s).2
  else
    let (got, s) := match dmaRead 13 base len s with
      | (some bs, s) => (crc32 bs, s)
      | (none, s) => (s.f CFG_IMG_CRC_crc + 1, s)
    let (bad, s) := examDetect 0x0603 (got != s.f CFG_IMG_CRC_crc) 0 0 s
    if bad then (bootCold otpBad fails (setF CFG_BOOT_STATUS_cause_a 9 s)).2
    else
      let (err, s) := baseStream true (base, len) (ovlDrop s)
      if err then (bootCold otpBad fails (setF CFG_BOOT_STATUS_cause_a 8 s)).2
      else
        let i := s.f CFG_OVL_STATUS_in_force
        let s := if i = 0 then s else ovlNow i s
        warmMode (bootRelease (flag CFG_BOOT_STATUS_warm (logBoot s)))

/-- WARM_BOOT (R410), when one is due. -/
def execWarmBoot (fails : List Nat) (otpBad : Bool) (s : State) : Res :=
  .next (if s.pwr.bootDue && s.pwr.bootWarm then bootWarm otpBad fails s else s)

end Sys2Proof.Machine
end

