-- ==== Sys2Proof/Machine/Access.lean ====
section
/-! DEFINITION. Accesses by address: registers, domains that are off, memory and the sage window (R5, R21 to R23, R420,
R446, R471 to R475, R510), and the ring commands that need the producers (R11, R44, R172). -/

namespace Sys2Proof.Machine

/-- REGISTER_WRITE (R5, R510). -/
def execRegisterWrite (r : Requester) (a : Nat) (v : Word) (s : State) : Res :=
  .next (match busWrite r a v s with
    | (true, s) => ovlPump (answer r 0 s)
    | (false, s) => refuse r s)

/-- The domain of the window that holds `a`, of a unit the variant has. -/
def windowDom (v : Variant) (a : Nat) : Option Nat := match windowAt v a with
  | some h => if h.present then h.dom else none
  | none => none

/-- OFF_DOMAIN_ACCESS (R420): a 32-bit access to a domain that is off or in transition is refused and counted, or wakes
the domain and completes there, by variant. -/
def execOffDomainAccess (r : Requester) (a : Nat) (write : Option Word) (s : State) : Res :=
  match windowDom s.variant a, write with
  | some d, some v => if s.domOn d || !formOk a 4 then .next s else execRegisterWrite r a v s
  | some d, none => if s.domOn d || !formOk a 4 then .next s else execRcRead r a s
  | none, _ => .next s

/-! ### Memory (R21 to R23, R446) -/

/-- The address that an access of `n` bytes reaches: sage sees DRAM through its window alone (R21, R22). -/
def State.busAddr (s : State) (r : Requester) (a n : Nat) : Option Nat :=
  if r != .sage || a < Config.regEnd then some a
  else if a + n ≤ 0x90000000 then some (Config.dramBase + s.f SAGE_DRAM_WIN_base * 0x10000000 + (a - 0x80000000))
  else none

/-- A control-cluster core reads through the L2, whose words carry SECDED (R446): the answer is whether data is
returned. `found` speaks of the L2's word where the cells behind it carry none. -/
def l2Check (r : Requester) (a : Nat) (found : EccFound) (s : State) : Bool × State :=
  if r = .cc0 || r = .cc1 || r = .cc2 || r = .cc3 then
    let own := (s.eccDets a).isNone
    let (e1, s) := examine 0x5C00 (own && found == .single) s
    let (e2, s) := examine 0x5C01 (own && found == .multi) s
    if e2.err then (false, detect 0x5C01 e2.inj 0 a s)
    else if e1.err then (true, { s with mc := { s.mc with reread := s.mc.reread ++ [(l2Base + a / 64 * 64, e1.inj)] } })
    else (true, s)
  else (true, s)

/-- The SECDED checks of a read. -/
def readCheck (r : Requester) (a : Nat) (found : EccFound) (s : State) : Bool × State :=
  let (ok, s) := l2Check r a found s
  let (ok2, s) := eccCheck a found s
  (ok && ok2, s)

/-- The class of a requester's DRAM accesses (R275). -/
def reqClass : Requester → Nat
  | .sage => 14 | .cc0 => 13 | .cc1 => 13 | .cc2 => 13 | .cc3 => 13 | .cfg => 14 | .monitor => 15 | .debug => 15

/-- A requester is given data, or an error response. -/
def memAnswer (r : Requester) (d : Option (List Byte)) (s : State) : State := match d with
  | some bs => answer r (BitVec.ofNat 32 (leNat (bs.take 4))) { s with mc := { s.mc with lastData := bs } }
  | none => refuse r { s with mc := { s.mc with lastData := [] } }

/-- A memory access at a device address (R23, R275, R446, R454). -/
def memServe (r : Requester) (a n : Nat) (write : Option (List Byte)) (found : EccFound) (s : State) : State :=
  let s := rereadFirst a n (awaitFill a n s)
  if !s.memAnswers a n write.isSome then memAnswer r none s
  else
    let s := bursts (reqClass r) a n s
    match write with
    | none =>
      let (ok, s) := readCheck r a found s
      memAnswer r (if ok then some (s.peeks a n) else none) s
    | some bs =>
      let (ok, s) := rmwCheck a n found s
      if ok then memAnswer r (some []) (poke a bs s) else memAnswer r none s

/-- An access of any width in register space (R471, R472). -/
def regServe (r : Requester) (a n : Nat) (write : Option (List Byte)) (s : State) : State :=
  match gate a n s with
  | (false, s) => refuse r s
  | (true, s) => match write with
    | some bs =>
      answer r 0 (if inMailbox a then monWrote r a (mboxPut (a - 0x47404000) bs s)
        else ovlPump (storeReg r a (BitVec.ofNat 32 (leNat bs)) s))
    | none =>
      if inMailbox a then
        answer r (BitVec.ofNat 32 (leNat ((List.range n).map (fun i => s.mboxByte (a - 0x47404000 + i))))) s
      else answer r (s.readValue r a) (readEffect r a s)

/-- MEMORY_ACCESS (R21 to R23, R446, R471). -/
def execMemoryAccess (r : Requester) (a n : Nat) (write : Option (List Byte)) (found : EccFound) (s : State) : Res :=
  guardOk (decide (0 < n) && (match write with
    | some bs => bs.length == n
    | none => true)) <|
    match s.busAddr r a n with
    | none => memAnswer r none s
    | some b => if Config.regBase ≤ b && b < Config.regEnd then regServe r b n write s else memServe r b n write found s

/-! ### Ring commands -/

/-- The pipeline of a ring in IPn, whose register writes stall while a capture runs (R53). -/
def ringStall (g : RingId) (s : State) : State := match g with
  | .tap n _ => ipStall n s
  | .branch n _ => ipStall n s
  | .prc _ => s
  | .enc _ => s

/-- The frame start of a context's ring is its next picture start (R251). -/
def encStart (c : Nat) (s : State) : State :=
  if s.hvc.cur.isSome then s
  else
    let t := ecBoundary s
    if t.hvc.last = c then t else s

/-- A producer's frame start (R11, R173, R251). -/
def producerStart (g : RingId) (s : State) : State :=
  if !s.unitOn (ringDom g) then s
  else match g with
    | .tap n t => startAt n t s
    | .branch n b => startAt n (8 + b) s
    | .prc n => if s.unitOn (dIP n) then prcFrameStart n (absorb n s) else s
    | .enc c => encStart c s

/-- PRODUCER_FRAME_START (R11). -/
def execProducerFrameStart (g : RingId) (s : State) : Res := guardOk g.wf (producerStart g s)

/-- A producer's completed frame is offered (R44). An H.265 picture's offer is part of its end. -/
def producerOffer (g : RingId) (s : State) : State :=
  if !s.unitOn (ringDom g) then s
  else match g with
    | .tap n t => offerProd n t s
    | .branch n b => offerProd n (8 + b) s
    | .prc n => if s.unitOn (dIP n) then prcDone n (absorb n s) else s
    | .enc _ => ringPublish g s

/-- FRAME_OFFER (R44). -/
def execFrameOffer (g : RingId) (s : State) : Res := guardOk g.wf (producerOffer g s)

/-- RING_GEOMETRY_WRITE (R172): register 0 to 3 of the ring's base low, base high, slot and stride. -/
def execRingGeometryWrite (r : Requester) (g : RingId) (which : Nat) (v : Word) (s : State) : Res :=
  guardOk (g.wf && (geomReg g which).isSome) <|
    match geomReg g which with
    | some a => writeBy r a (fun s => ringGeomWrite g which v (ringStall g s)) s
    | none => s

/-- RING_BUFS_WRITE (R172). -/
def execRingBufsWrite (r : Requester) (g : RingId) (v : Word) (s : State) : Res :=
  guardOk g.wf (writeBy r (ringRegs g).cfg (fun s => ringBufsWrite g v (ringStall g s)) s)

/-- REF_TICK (R32 to R34, R511, R512). -/
def execRefTick (s : State) : Res := .next (if s.domOn dCTRL then (refTick s).2 else s)

end Sys2Proof.Machine
end

