-- ==== Sys2Proof/Machine/Mon.lean ====
section
/-! DEFINITION. The Omesh monitor, the debug lock and the TAP (R462 to R468). -/

namespace Sys2Proof.Machine

open Sys2Proof.Config (ms)

/-! ### The line -/

/-- The readmission whose outcome the monitor awaits can still come: its pip has not lost power. -/
def State.readmitPending (s : State) : Bool := match s.mon.readm with
  | some u => (s.pip ⟨u / 16, u % 16⟩).readmit != 0
  | none => false

/-- The monitor has sent its prompt and takes a command (R463, R464). -/
def State.monReady (s : State) : Bool := s.domOn dCTRL && !s.mon.recover && !s.readmitPending

/-- The monitor sends lines. -/
def monSend (l : List MonLine) (s : State) : State := modMon (fun m => { m with out := l }) s

/-- A command that ends with OK. -/
def monOk (s : State) : State := monSend [.ok] s

/-- A command that ends with an error line. -/
def monErr (cc cause : Nat) (s : State) : State := monSend [.err cc cause] s

/-- A command the monitor takes; before the prompt its characters are discarded. -/
def monTake (k : State → State) (s : State) : State :=
  if s.monReady then k (modMon (fun m => { m with readm := none }) s) else s

/-- A command the debug lock covers (R467). -/
def monCmd (k : State → State) (s : State) : State := monTake (fun s => if s.dbgLocked then monErr 2 0 s else k s) s

/-- AUTOBAUD (R462): the first character after a start or a break, if it is 0x55, gives the rate. -/
def execAutobaud (bitTimePs : Nat) (char : Byte) (s : State) : Res :=
  .next (
    let rate := 1000000000000 / floor1 bitTimePs
    if s.domOn dCTRL && s.b MON_UART_CFG_autobaud && char == 0x55 && decide (9600 ≤ rate ∧ rate ≤ 3000000) then
      setF MON_UART_CFG_rate rate s
    else s)

/-- MONITOR_SYNTAX_ERROR (R464). -/
def execMonitorSyntaxError (s : State) : Res := .next (monTake (monErr 1 0) s)

/-- HELP (R465). -/
def execHelp (s : State) : Res := .next (monTake (monSend [.help, .ok]) s)

/-! ### Reads and writes of words -/

/-- An address of register space (R21). -/
def inRegs (a : Nat) : Bool := Config.regBase ≤ a && a < Config.regEnd

/-- The monitor reads a word: none at an error response. -/
def monWord (a : Nat) (s : State) : Option Word × State :=
  if inRegs a then busRead .monitor a s
  else match dmaRead 15 a 4 s with
    | (some bs, s) => (some (BitVec.ofNat 32 (leNat bs)), s)
    | (none, s) => (none, s)

/-- The monitor reads `n` words from `a`, up to the first error response; true if there was none. -/
def monWords : (n a : Nat) → State → Bool × List Word × State
  | 0, _, s => (true, [], s)
  | n + 1, a, s => match monWord a s with
    | (none, s) => (false, [], s)
    | (some w, s) => match monWords n (a + 4) s with
      | (ok, l, s) => (ok, w :: l, s)

/-- The final line of a run of accesses. -/
def monLast (ok : Bool) : List MonLine := if ok then [.ok] else [.err 3 0]

/-- MONITOR_READ: `r addr n` (R465). -/
def execMonitorRead (a n : Nat) (s : State) : Res :=
  .next (monCmd (fun s =>
    if 4096 < n || a % 4 != 0 then monErr 4 0 s
    else
      let (ok, l, s) := monWords n a s
      monSend (l.mapIdx (fun i w => .word (a + 4 * i) w) ++ monLast ok) s) s)

/-- Bytes in lines of 16, by fuel. -/
def dumpLines : (fuel a : Nat) → List Byte → List MonLine
  | 0, _, _ => []
  | _ + 1, _, [] => []
  | f + 1, a, bs => .dump a (bs.take 16) :: dumpLines f (a + 16) (bs.drop 16)

/-- MONITOR_DUMP: `d addr bytes` (R465), read as words. -/
def execMonitorDump (a n : Nat) (s : State) : Res :=
  .next (monCmd (fun s =>
    if 65536 < n || a % 4 != 0 then monErr 4 0 s
    else
      let (ok, l, s) := monWords (ceilDiv n 4) a s
      monSend (dumpLines (ceilDiv n 16) a ((l.flatMap (fun w => leBytes 4 w.toNat)).take n) ++ monLast ok) s) s)

/-- The monitor writes a word: false at an error response. -/
def monPut (a : Nat) (v : Word) (s : State) : Bool × State :=
  if inRegs a then
    match busWrite .monitor a v s with
    | (ok, s) => (ok, ovlPump s)
  else dmaWrite 15 a (leBytes 4 v.toNat) s

/-- MONITOR_WRITE_WORD: `w addr value` (R465). -/
def execMonitorWriteWord (a : Nat) (v : Word) (s : State) : Res :=
  .next (monCmd (fun s =>
    if a % 4 != 0 then monErr 4 0 s
    else
      let (ok, s) := monPut a v s
      monSend (monLast ok) s) s)

/-- The monitor writes `n` words, up to the first error response. -/
def monFill : (n a : Nat) → Word → State → Bool × State
  | 0, _, _, s => (true, s)
  | n + 1, a, v, s => match monPut a v s with
    | (true, s) => monFill n (a + 4) v s
    | (false, s) => (false, s)

/-- MONITOR_FILL: `f addr bytes value` (R465). -/
def execMonitorFill (a n : Nat) (v : Word) (s : State) : Res :=
  .next (monCmd (fun s =>
    if n % 4 != 0 || 16777216 < n || a % 4 != 0 then monErr 4 0 s
    else
      let (ok, s) := monFill (n / 4) a v s
      monSend (monLast ok) s) s)

/-- MONITOR_CNT: `cnt addr`, _LO then _HI (R465). -/
def execMonitorCnt (a : Nat) (s : State) : Res :=
  .next (monCmd (fun s =>
    if a % 4 != 0 then monErr 4 0 s
    else match monWords 2 a s with
      | (true, [lo, hi], s) => monSend [.num (lo.toNat + hi.toNat * 2 ^ 32), .ok] s
      | (_, _, s) => monErr 3 0 s) s)

/-! ### Injection, the log, clocks, votes -/

/-- A run of the monitor's register writes. -/
def monWrites (l : List (Nat × Word)) (s : State) : State := l.foldl (fun s e => (monPut e.1 e.2 s).2) s

/-- MONITOR_INJ: `inj k id once count` or `inj k id every n count` (R465): no `everyN` is once. -/
def execMonitorInj (k : Nat) (id : BitVec 16) (everyN : Option (BitVec 16)) (count : BitVec 16) (s : State) : Res :=
  guardOk (decide (k < 4)) (monCmd (fun s =>
    let cfg := match everyN with
      | some n => BitVec.ofNat 32 (2 + n.toNat * 2 ^ 16)
      | none => 1
    let s := monWrites [(ERR_INJ_ID k, id.setWidth 32), (ERR_INJ_CFG k, cfg), (ERR_INJ_CNT k, count.setWidth 32)] s
    let c := armCause .monitor k s
    let s := monWrites [(ERR_INJ_CTRL k, 1)] s
    if c = 0 then monOk s else monErr 5 c s) s)

/-- Up to `n` valid records of the log, newest first, from sequence `q` down, by fuel (R456, R457). -/
def logNewest (s : State) : (fuel n q : Nat) → List (List Byte)
  | 0, _, _ => []
  | f + 1, n, q =>
    let b := s.peeks (Config.logBase + 0x1000 + (q - 1) % 8128 * 64) 64
    if n = 0 || q = 0 then []
    else if leAt b 0 8 == q && leAt b 0x3C 4 == crc32 (b.take 60) then b :: logNewest s f (n - 1) (q - 1)
    else logNewest s f n (q - 1)

/-- MONITOR_LOG: `log n` (R465). -/
def execMonitorLog (n : Nat) (s : State) : Res :=
  .next (monCmd (fun s =>
    let (h, _, s) := logHeader s
    monSend ((logNewest s 8128 n h.newest).map .record ++ [.ok]) s) s)

/-- MONITOR_LOG_CLEAR: `log clear` (R458, R465). -/
def execMonitorLogClear (s : State) : Res := .next (monCmd (fun s => monOk (monWrites [(ERR_LOG_CTRL, 1)] s)) s)

/-- MONITOR_CLK: `clk` (R465). -/
def execMonitorClk (s : State) : Res :=
  .next (monCmd (fun s => monSend [.clk s.pwr.pllLocked (s.f REF_STATUS_state) (s.f PWR_STATE_state) (s.f PWR_STATUS_on)
    (s.f THM_MAX_t) (s.f THM_LEVEL_level), .ok] s) s)

/-- MONITOR_VOTE: `vote mask`, a write of PWR_VOTE6 (R465). -/
def execMonitorVote (mask : Word) (s : State) : Res :=
  .next (monCmd (fun s => monOk (monWrites [(PWR_VOTE 6, mask)] s)) s)

/-- MONITOR_READMIT: `readmit pod pip`, a write of PIP_READMIT whose outcome is printed once it is known (R212, R465). -/
def execMonitorReadmit (pod pip : Nat) (s : State) : Res :=
  .next (monCmd (fun s =>
    let u : PipRef := ⟨pod, pip⟩
    if 128 ≤ pod || 16 ≤ pip then monErr 5 0 s
    else match monPut PIP_READMIT (BitVec.ofNat 32 (pod + pip * 256)) s with
      | (false, s) => monErr 3 0 s
      | (true, s) =>
        if (s.pip u).readmit != 0 then monSend [] (modMon (fun m => { m with readm := some (pod * 16 + pip) }) s)
        else monErr 5 0 s) s)

/-! ### Boots and resets -/

/-- The final line of a boot the monitor asked for: a failure returns to it with the cause. -/
def monBoot (x : Bool × State) : State :=
  if x.1 then monOk x.2 else monErr 5 (x.2.f CFG_BOOT_STATUS_cause_a) x.2

/-- BOOT_RETRY: `boot retry`, a cold boot from flash, with what its checks find (R397, R465). -/
def execBootRetry (fails : List Nat) (otpBad : Bool) (s : State) : Res :=
  .next (monCmd (fun s => monBoot (bootCold otpBad fails s)) s)

/-- BOOT_RECOVER: `boot recover bytes` with the bytes received; fewer than announced leave the transfer open (R466). -/
def execBootRecover (count : Nat) (data : List Byte) (fails : List Nat) (s : State) : Res :=
  .next (monCmd (fun s =>
    if count < 4096 || 33554432 < count then monErr 4 0 s
    else
      let bs := data.take count
      let s := dmaPut 15 Config.sramBase bs s
      if bs.length < count then monSend [.ready] (modMon (fun m => { m with recover := true }) s)
      else
        let s := monBoot (bootSram fails s)
        monSend (.ready :: .crc (crc32 bs) :: s.mon.out) s) s)

/-- RECOVER_TIMEOUT: more than 1 s has passed since the last byte (R466). -/
def execRecoverTimeout (s : State) : Res :=
  .next (if s.domOn dCTRL && s.mon.recover then
    monErr 6 0 (modMon (fun m => { m with recover := false }) (advanceTo (s.now + 1000 * ms) s))
  else s)

/-- MONITOR_RESET_SOFT: `reset soft`; the monitor sends no final line (R464, R427). -/
def execMonitorResetSoft (s : State) : Res := .next (monCmd (fun s => monSend [] (monWrites [(PWR_RESET, 1)] s)) s)

/-- MONITOR_RESET_HARD: `reset hard` (R464, R427). -/
def execMonitorResetHard (s : State) : Res := .next (monCmd (fun s => monSend [] (monWrites [(PWR_RESET, 2)] s)) s)

/-! ### The debug lock (R467) -/

/-- CHALLENGE: a fresh nonce, which the on-die source gives, replaces any earlier one. -/
def execChallenge (nonce : BitVec 256) (s : State) : Res :=
  .next (monTake (fun s => monSend [.nonce nonce, .ok] (modMon (fun m => { m with nonce := some nonce }) s)) s)

/-- The bytes of a nonce as printed, first byte first. -/
def nonceBytes (n : BitVec 256) : List Byte := (leBytes 32 n.toNat).reverse

/-- An unlock's key and signature satisfy R467. -/
def State.unlockOk (s : State) (key sig : List Byte) : Bool := match s.mon.nonce with
  | none => false
  | some n =>
    let h := s.otpBytes 23 12
    h.any (· != 0) && Config.sha384 key == h && Config.ecdsaP384 key (Config.sha384 (nonceBytes n ++ s.otpBytes 35 2)) sig

/-- One attempt to unlock. -/
def unlockTry (key sig : List Byte) (s : State) : State :=
  let ok := s.unlockOk key sig
  let s := modMon (fun m => { m with nonce := none }) s
  if ok then monOk (raise 0x58 0 0 (showDbg (flag MON_DBG_STATUS_unlocked s)))
  else
    let n := s.f MON_DBG_STATUS_fails + 1
    monErr 5 0 (raise 0x58 1 n (setF MON_DBG_STATUS_fails n s))

/-- UNLOCK: `unlock qx qy r s`; after 3 failures every attempt is locked (R467). -/
def execUnlock (key sig : List Byte) (s : State) : Res :=
  guardOk (key.length == 96 && sig.length == 96)
    (monTake (fun s => if 3 ≤ s.f MON_DBG_STATUS_fails then monErr 2 0 s else unlockTry key sig s) s)

/-! ### The TAP (R468, R496) -/

/-- Changes the TAP. -/
def modJtag (f : JtagSt → JtagSt) (s : State) : State := modMon (fun m => { m with jtag := f m.jtag }) s

/-- The identification code: revision A1, the part number, the manufacturer code and a 1 (R468, R496). -/
def idcodeOf (v : Variant) : Nat := 0x10000000 + Config.part v * 0x1000 + 0x3AE * 2 + 1

/-- BYPASS: a register of one bit, which captures 0. -/
def execBypass (s : State) : Res := .next (modJtag (fun j => { j with out := [false], drive := none, debug := false }) s)

/-- IDCODE: 32 bits, the least significant shifted out first. -/
def execIdcode (s : State) : Res :=
  .next (modJtag (fun j => { j with
    out := (List.range 32).map (bitOf (idcodeOf s.variant)), drive := none, debug := false }) s)

/-- An instruction the debug lock blocks: the TAP does not execute it. -/
def tapOpen (f : JtagSt → JtagSt) (s : State) : State := if s.dbgLocked then s else modJtag f s

/-- SAMPLE_PRELOAD: the pins are captured for shifting out, and what is shifted in is preloaded. -/
def execSamplePreload (pins shiftIn : List Bool) (s : State) : Res :=
  .next (tapOpen (fun j => { j with out := pins, preload := shiftIn, drive := none, debug := false }) s)

/-- EXTEST: the preloaded image drives the pins. -/
def execExtest (s : State) : Res := .next (tapOpen (fun j => { j with drive := some j.preload, debug := false }) s)

/-- DEBUG: the control cluster's debug module is reached. -/
def execJtagDebug (s : State) : Res := .next (tapOpen (fun j => { j with drive := none, debug := true }) s)

end Sys2Proof.Machine
end

