-- ==== Sys2Proof/Machine/Dispatch.lean ====
section
/-! DEFINITION. Every command to its meaning, one arm each. -/

namespace Sys2Proof.Machine

def exec (i : Instr) (s : State) : Host.Outcome State Fault Refusal :=
  match i with
  | .registerWrite r addr v => Sys2Proof.Machine.execRegisterWrite r addr v s
  | .rcRead r addr => Sys2Proof.Machine.execRcRead r addr s
  | .loReadLatch r addr => Sys2Proof.Machine.execLoReadLatch r addr s
  | .accessError r addr width write => Sys2Proof.Machine.execAccessError r addr width write s
  | .producerFrameStart ring => Sys2Proof.Machine.execProducerFrameStart ring s
  | .frameOffer ring => Sys2Proof.Machine.execFrameOffer ring s
  | .tapOffer n t => Sys2Proof.Machine.execTapOffer n t s
  | .consumerRelease ring c => Sys2Proof.Machine.execConsumerRelease ring c s
  | .consumerDetach ring c => Sys2Proof.Machine.execConsumerDetach ring c s
  | .ringGeometryWrite r ring which v => Sys2Proof.Machine.execRingGeometryWrite r ring which v s
  | .ringBufsWrite r ring v => Sys2Proof.Machine.execRingBufsWrite r ring v s
  | .pllLocked => Sys2Proof.Machine.execPllLocked s
  | .referenceLost => Sys2Proof.Machine.execReferenceLost s
  | .eventRaised => Sys2Proof.Machine.execEventRaised s
  | .evrQbaseWrite r d v => Sys2Proof.Machine.execEvrQbaseWrite r d v s
  | .evrQsizeWrite r d v => Sys2Proof.Machine.execEvrQsizeWrite r d v s
  | .evrQheadWrite r d v => Sys2Proof.Machine.execEvrQheadWrite r d v s
  | .refEnable r v => Sys2Proof.Machine.execRefEnable r v s
  | .refDisable r v => Sys2Proof.Machine.execRefDisable r v s
  | .refRateWrite r den v => Sys2Proof.Machine.execRefRateWrite r den v s
  | .refRfnWrite r v => Sys2Proof.Machine.execRefRfnWrite r v s
  | .refTick => Sys2Proof.Machine.execRefTick s
  | .refVEdge at_ f => Sys2Proof.Machine.execRefVEdge at_ f s
  | .refEdgeTimeout => Sys2Proof.Machine.execRefEdgeTimeout s
  | .trigPulseStart n => Sys2Proof.Machine.execTrigPulseStart n s
  | .trigPulseEnd n => Sys2Proof.Machine.execTrigPulseEnd n s
  | .setPush r n v => Sys2Proof.Machine.execSetPush r n v s
  | .setClose r n v => Sys2Proof.Machine.execSetClose r n v s
  | .setWriteSend n => Sys2Proof.Machine.execSetWriteSend n s
  | .setLastWrite n => Sys2Proof.Machine.execSetLastWrite n s
  | .commit r n v => Sys2Proof.Machine.execCommit r n v s
  | .commitCaptureDone n => Sys2Proof.Machine.execCommitCaptureDone n s
  | .tableLoadDone n => Sys2Proof.Machine.execTableLoadDone n s
  | .frameEnterUnpack n => Sys2Proof.Machine.execFrameEnterUnpack n s
  | .laneReadapt r n k => Sys2Proof.Machine.execLaneReadapt r n k s
  | .blockReceived n k header payload => Sys2Proof.Machine.execBlockReceived n k header payload s
  | .alignColumn n seen => Sys2Proof.Machine.execAlignColumn n seen s
  | .deskewWindowEnd n => Sys2Proof.Machine.execDeskewWindowEnd n s
  | .unknownControlBlock n col => Sys2Proof.Machine.execUnknownControlBlock n col s
  | .laneJudgeInterval n => Sys2Proof.Machine.execLaneJudgeInterval n s
  | .jvChgGo r n v => Sys2Proof.Machine.execJvChgGo r n v s
  | .mapCmdSend n => Sys2Proof.Machine.execMapCmdSend n s
  | .mapTimeout n => Sys2Proof.Machine.execMapTimeout n s
  | .laneReadmit r n k => Sys2Proof.Machine.execLaneReadmit r n k s
  | .jvEnable r n v => Sys2Proof.Machine.execJvEnable r n v s
  | .jvRateWrite r n v => Sys2Proof.Machine.execJvRateWrite r n v s
  | .rateSwitch n => Sys2Proof.Machine.execRateSwitch n s
  | .prbsCntClr r n k => Sys2Proof.Machine.execPrbsCntClr r n k s
  | .marginGo r n k v => Sys2Proof.Machine.execMarginGo r n k v s
  | .marginDone n k disagreed => Sys2Proof.Machine.execMarginDone n k disagreed s
  | .portEnable r n v => Sys2Proof.Machine.execPortEnable r n v s
  | .portDisable r n v => Sys2Proof.Machine.execPortDisable r n v s
  | .portRun r n v => Sys2Proof.Machine.execPortRun r n v s
  | .portStop r n v => Sys2Proof.Machine.execPortStop r n v s
  | .frameSizeWrite r n v => Sys2Proof.Machine.execFrameSizeWrite r n v s
  | .sofReceived at_ n col => Sys2Proof.Machine.execSofReceived at_ n col s
  | .eofReceived at_ n col => Sys2Proof.Machine.execEofReceived at_ n col s
  | .lineReceived at_ n line => Sys2Proof.Machine.execLineReceived at_ n line s
  | .csiFrameStart at_ n vc num h => Sys2Proof.Machine.execCsiFrameStart at_ n vc num h s
  | .csiFrameEnd at_ n vc h => Sys2Proof.Machine.execCsiFrameEnd at_ n vc h s
  | .csiLongPacket at_ n pkt => Sys2Proof.Machine.execCsiLongPacket at_ n pkt s
  | .csiLineStart n vc num h => Sys2Proof.Machine.execCsiLineStart n vc num h s
  | .rowTimeout n => Sys2Proof.Machine.execRowTimeout n s
  | .groupVerdict g rfn => Sys2Proof.Machine.execGroupVerdict g rfn s
  | .xclkCfgWrite r n v => Sys2Proof.Machine.execXclkCfgWrite r n v s
  | .xclkEnable r n v => Sys2Proof.Machine.execXclkEnable r n v s
  | .syncEdge at_ n rising => Sys2Proof.Machine.execSyncEdge at_ n rising s
  | .ibi n data => Sys2Proof.Machine.execIbi n data s
  | .busTransferStart n => Sys2Proof.Machine.execBusTransferStart n s
  | .busTransferDone n nack rdata => Sys2Proof.Machine.execBusTransferDone n nack rdata s
  | .dirRead r n v => Sys2Proof.Machine.execDirRead r n v s
  | .dirWrite r n v => Sys2Proof.Machine.execDirWrite r n v s
  | .rowEnterPipeline n => Sys2Proof.Machine.execRowEnterPipeline n s
  | .calClear r n v => Sys2Proof.Machine.execCalClear r n v s
  | .tableReload n => Sys2Proof.Machine.execTableReload n s
  | .statsReady n => Sys2Proof.Machine.execStatsReady n s
  | .lumaReady n => Sys2Proof.Machine.execLumaReady n s
  | .tileDispatch j => Sys2Proof.Machine.execTileDispatch j s
  | .vnop u w => Sys2Proof.Machine.execVnop u w s
  | .fadd u w => Sys2Proof.Machine.execFadd u w s
  | .fsub u w => Sys2Proof.Machine.execFsub u w s
  | .fmul u w => Sys2Proof.Machine.execFmul u w s
  | .fma u w => Sys2Proof.Machine.execFma u w s
  | .fmin u w => Sys2Proof.Machine.execFmin u w s
  | .fmax u w => Sys2Proof.Machine.execFmax u w s
  | .fabs u w => Sys2Proof.Machine.execFabs u w s
  | .fneg u w => Sys2Proof.Machine.execFneg u w s
  | .frcp u w => Sys2Proof.Machine.execFrcp u w s
  | .flog2 u w => Sys2Proof.Machine.execFlog2 u w s
  | .fexp2 u w => Sys2Proof.Machine.execFexp2 u w s
  | .fcmplt u w => Sys2Proof.Machine.execFcmplt u w s
  | .fcmple u w => Sys2Proof.Machine.execFcmple u w s
  | .fcmpeq u w => Sys2Proof.Machine.execFcmpeq u w s
  | .fsel u w => Sys2Proof.Machine.execFsel u w s
  | .iadd u w => Sys2Proof.Machine.execIadd u w s
  | .isub u w => Sys2Proof.Machine.execIsub u w s
  | .imul u w => Sys2Proof.Machine.execImul u w s
  | .imin u w => Sys2Proof.Machine.execImin u w s
  | .imax u w => Sys2Proof.Machine.execImax u w s
  | .vand u w => Sys2Proof.Machine.execVand u w s
  | .vor u w => Sys2Proof.Machine.execVor u w s
  | .vxor u w => Sys2Proof.Machine.execVxor u w s
  | .vshl u w => Sys2Proof.Machine.execVshl u w s
  | .vshr u w => Sys2Proof.Machine.execVshr u w s
  | .vsra u w => Sys2Proof.Machine.execVsra u w s
  | .icmplt u w => Sys2Proof.Machine.execIcmplt u w s
  | .icmpeq u w => Sys2Proof.Machine.execIcmpeq u w s
  | .cvtfi u w => Sys2Proof.Machine.execCvtfi u w s
  | .cvtif u w => Sys2Proof.Machine.execCvtif u w s
  | .vmov u w => Sys2Proof.Machine.execVmov u w s
  | .vsplat u w => Sys2Proof.Machine.execVsplat u w s
  | .vimm u w => Sys2Proof.Machine.execVimm u w s
  | .vimmh u w => Sys2Proof.Machine.execVimmh u w s
  | .vswz u w => Sys2Proof.Machine.execVswz u w s
  | .lut u w => Sys2Proof.Machine.execLut u w s
  | .nop u w => Sys2Proof.Machine.execNop u w s
  | .vld u w => Sys2Proof.Machine.execVld u w s
  | .vst u w => Sys2Proof.Machine.execVst u w s
  | .ldw u w => Sys2Proof.Machine.execLdw u w s
  | .stw u w => Sys2Proof.Machine.execStw u w s
  | .sadd u w => Sys2Proof.Machine.execSadd u w s
  | .ssub u w => Sys2Proof.Machine.execSsub u w s
  | .smul u w => Sys2Proof.Machine.execSmul u w s
  | .sand u w => Sys2Proof.Machine.execSand u w s
  | .sor u w => Sys2Proof.Machine.execSor u w s
  | .sxor u w => Sys2Proof.Machine.execSxor u w s
  | .sshl u w => Sys2Proof.Machine.execSshl u w s
  | .sshr u w => Sys2Proof.Machine.execSshr u w s
  | .ssra u w => Sys2Proof.Machine.execSsra u w s
  | .slt u w => Sys2Proof.Machine.execSlt u w s
  | .addi u w => Sys2Proof.Machine.execAddi u w s
  | .li u w => Sys2Proof.Machine.execLi u w s
  | .lui u w => Sys2Proof.Machine.execLui u w s
  | .vget u w => Sys2Proof.Machine.execVget u w s
  | .vput u w => Sys2Proof.Machine.execVput u w s
  | .br u w => Sys2Proof.Machine.execBr u w s
  | .beq u w => Sys2Proof.Machine.execBeq u w s
  | .bne u w => Sys2Proof.Machine.execBne u w s
  | .blt u w => Sys2Proof.Machine.execBlt u w s
  | .bany u w => Sys2Proof.Machine.execBany u w s
  | .ball u w => Sys2Proof.Machine.execBall u w s
  | .pipEnd u w => Sys2Proof.Machine.execPipEnd u w s
  | .signatureTest u => Sys2Proof.Machine.execSignatureTest u s
  | .signatureTestDone u pass => Sys2Proof.Machine.execSignatureTestDone u pass s
  | .tileWatchdog u => Sys2Proof.Machine.execTileWatchdog u s
  | .podMemoryReload p => Sys2Proof.Machine.execPodMemoryReload p s
  | .packageLoad j => Sys2Proof.Machine.execPackageLoad j s
  | .pipReadmit r v => Sys2Proof.Machine.execPipReadmit r v s
  | .readmitTest u pass => Sys2Proof.Machine.execReadmitTest u pass s
  | .prcEnable r n v => Sys2Proof.Machine.execPrcEnable r n v s
  | .prcApply r n v => Sys2Proof.Machine.execPrcApply r n v s
  | .prcFrameStart n => Sys2Proof.Machine.execPrcFrameStart n s
  | .slabCoded n => Sys2Proof.Machine.execSlabCoded n s
  | .prcFrameDone n => Sys2Proof.Machine.execPrcFrameDone n s
  | .prdGo r v => Sys2Proof.Machine.execPrdGo r v s
  | .prdJobDone => Sys2Proof.Machine.execPrdJobDone s
  | .encApply r c v => Sys2Proof.Machine.execEncApply r c v s
  | .idrRequest r c v => Sys2Proof.Machine.execIdrRequest r c v s
  | .ltMark r c v => Sys2Proof.Machine.execLtMark r c v s
  | .ltDrop r c v => Sys2Proof.Machine.execLtDrop r c v s
  | .pictureStart => Sys2Proof.Machine.execPictureStart s
  | .pictureDone pic => Sys2Proof.Machine.execPictureDone pic s
  | .decSubmit r v => Sys2Proof.Machine.execDecSubmit r v s
  | .decJobStart => Sys2Proof.Machine.execDecJobStart s
  | .decJobDone au => Sys2Proof.Machine.execDecJobDone au s
  | .decCtbWatchdog au ctb => Sys2Proof.Machine.execDecCtbWatchdog au ctb s
  | .dpbRelease r d v => Sys2Proof.Machine.execDpbRelease r d v s
  | .pkeGo r c v => Sys2Proof.Machine.execPkeGo r c v s
  | .pkeBlock c parity => Sys2Proof.Machine.execPkeBlock c parity s
  | .pkeResume r c v => Sys2Proof.Machine.execPkeResume r c v s
  | .pkeAbort r c v => Sys2Proof.Machine.execPkeAbort r c v s
  | .memMapApply r v => Sys2Proof.Machine.execMemMapApply r v s
  | .memEnable r v => Sys2Proof.Machine.execMemEnable r v s
  | .dramRequest reqs => Sys2Proof.Machine.execDramRequest reqs s
  | .eccReread addr found => Sys2Proof.Machine.execEccReread addr found s
  | .refreshInterval m ch => Sys2Proof.Machine.execRefreshInterval m ch s
  | .mr4Read m codes => Sys2Proof.Machine.execMr4Read m codes s
  | .trainGo r m v => Sys2Proof.Machine.execTrainGo r m v s
  | .trainDone m ch first retry => Sys2Proof.Machine.execTrainDone m ch first retry s
  | .trackingUpdate m ch first retry => Sys2Proof.Machine.execTrackingUpdate m ch first retry s
  | .eccRegionEnable r k v => Sys2Proof.Machine.execEccRegionEnable r k v s
  | .eccFillDone k => Sys2Proof.Machine.execEccFillDone k s
  | .memberAttach r m v => Sys2Proof.Machine.execMemberAttach r m v s
  | .attachComplete m res => Sys2Proof.Machine.execAttachComplete m res s
  | .memberDetach r m v => Sys2Proof.Machine.execMemberDetach r m v s
  | .memberReadmit r m v => Sys2Proof.Machine.execMemberReadmit r m v s
  | .nvmeCompletion m cid success => Sys2Proof.Machine.execNvmeCompletion m cid success s
  | .nvmeTimeout m cid => Sys2Proof.Machine.execNvmeTimeout m cid s
  | .rootPortLinkDown m => Sys2Proof.Machine.execRootPortLinkDown m s
  | .memberLinkReturn m speed width => Sys2Proof.Machine.execMemberLinkReturn m speed width s
  | .clipOpen r k v => Sys2Proof.Machine.execClipOpen r k v s
  | .streamFrame k => Sys2Proof.Machine.execStreamFrame k s
  | .grantPush r k v => Sys2Proof.Machine.execGrantPush r k v s
  | .frameCommit k => Sys2Proof.Machine.execFrameCommit k s
  | .clipClose r k v => Sys2Proof.Machine.execClipClose r k v s
  | .clipClosed k => Sys2Proof.Machine.execClipClosed k s
  | .splitRewrite k => Sys2Proof.Machine.execSplitRewrite k s
  | .volOpen r vol v => Sys2Proof.Machine.execVolOpen r vol v s
  | .volFormat r vol v => Sys2Proof.Machine.execVolFormat r vol v s
  | .volClose r vol v => Sys2Proof.Machine.execVolClose r vol v s
  | .oepLinkUp speed width => Sys2Proof.Machine.execOepLinkUp speed width s
  | .oepLinkDown => Sys2Proof.Machine.execOepLinkDown s
  | .ctrlEnable asqs acqs => Sys2Proof.Machine.execCtrlEnable asqs acqs s
  | .ctrlReset cause => Sys2Proof.Machine.execCtrlReset cause s
  | .ctrlResetDone => Sys2Proof.Machine.execCtrlResetDone s
  | .sqDoorbell q tail => Sys2Proof.Machine.execSqDoorbell q tail s
  | .cqDoorbell q head => Sys2Proof.Machine.execCqDoorbell q head s
  | .commandFetch q e err => Sys2Proof.Machine.execCommandFetch q e err s
  | .identify q cid => Sys2Proof.Machine.execIdentify q cid s
  | .getLogPage q cid => Sys2Proof.Machine.execGetLogPage q cid s
  | .createIoCq q cid => Sys2Proof.Machine.execCreateIoCq q cid s
  | .deleteIoCq q cid => Sys2Proof.Machine.execDeleteIoCq q cid s
  | .createIoSq q cid => Sys2Proof.Machine.execCreateIoSq q cid s
  | .deleteIoSq q cid => Sys2Proof.Machine.execDeleteIoSq q cid s
  | .abort q cid => Sys2Proof.Machine.execAbort q cid s
  | .getFeatures q cid => Sys2Proof.Machine.execGetFeatures q cid s
  | .setFeatures q cid => Sys2Proof.Machine.execSetFeatures q cid s
  | .asynchronousEventRequest q cid => Sys2Proof.Machine.execAsynchronousEventRequest q cid s
  | .nvmRead q cid => Sys2Proof.Machine.execNvmRead q cid s
  | .nvmWrite q cid => Sys2Proof.Machine.execNvmWrite q cid s
  | .flush q cid => Sys2Proof.Machine.execFlush q cid s
  | .writeZeroes q cid => Sys2Proof.Machine.execWriteZeroes q cid s
  | .datasetManagement q cid => Sys2Proof.Machine.execDatasetManagement q cid s
  | .lockGrant => Sys2Proof.Machine.execLockGrant s
  | .namespaceActivate v => Sys2Proof.Machine.execNamespaceActivate v s
  | .journalReplay v => Sys2Proof.Machine.execJournalReplay v s
  | .scoEnable r v => Sys2Proof.Machine.execScoEnable r v s
  | .scoDisable r v => Sys2Proof.Machine.execScoDisable r v s
  | .rasterFrameStart => Sys2Proof.Machine.execRasterFrameStart s
  | .rasterLine => Sys2Proof.Machine.execRasterLine s
  | .lineUnderrun sample fault => Sys2Proof.Machine.execLineUnderrun sample fault s
  | .audioRunStart r n v => Sys2Proof.Machine.execAudioRunStart r n v s
  | .audioRunStop r n v => Sys2Proof.Machine.execAudioRunStop r n v s
  | .audioStopped n => Sys2Proof.Machine.execAudioStopped n s
  | .sampleFrame n rx parity => Sys2Proof.Machine.execSampleFrame n rx parity s
  | .slaveSampleRx n rx parity => Sys2Proof.Machine.execSlaveSampleRx n rx parity s
  | .maskWrite r n v => Sys2Proof.Machine.execMaskWrite r n v s
  | .maskApply n => Sys2Proof.Machine.execMaskApply n s
  | .txFrame m parity => Sys2Proof.Machine.execTxFrame m parity s
  | .rxFrame at_ m frame fcsGood fecBad parity => Sys2Proof.Machine.execRxFrame at_ m frame fcsGood fecBad parity s
  | .txtsPop r m => Sys2Proof.Machine.execTxtsPop r m s
  | .mdio r m v answer => Sys2Proof.Machine.execMdio r m v answer s
  | .netLinkChange m up => Sys2Proof.Machine.execNetLinkChange m up s
  | .netStreamEnable r k v => Sys2Proof.Machine.execNetStreamEnable r k v s
  | .streamFrameSelect k => Sys2Proof.Machine.execStreamFrameSelect k s
  | .streamPacket k => Sys2Proof.Machine.execStreamPacket k s
  | .tsuIncrCommit r v => Sys2Proof.Machine.execTsuIncrCommit r v s
  | .tsuSet r v => Sys2Proof.Machine.execTsuSet r v s
  | .tsuStep r v => Sys2Proof.Machine.execTsuStep r v s
  | .tsuSecond => Sys2Proof.Machine.execTsuSecond s
  | .hallEdge at_ c state held => Sys2Proof.Machine.execHallEdge at_ c state held s
  | .indexEdge at_ c rising held => Sys2Proof.Machine.execIndexEdge at_ c rising held s
  | .posWrite r c v => Sys2Proof.Machine.execPosWrite r c v s
  | .speedWindow c => Sys2Proof.Machine.execSpeedWindow c s
  | .faultInput c high => Sys2Proof.Machine.execFaultInput c high s
  | .phaseWindowClose c => Sys2Proof.Machine.execPhaseWindowClose c s
  | .lineTrigger at_ n rising => Sys2Proof.Machine.execLineTrigger at_ n rising s
  | .ssRowTimeout n => Sys2Proof.Machine.execSsRowTimeout n s
  | .outputLineComplete n parity => Sys2Proof.Machine.execOutputLineComplete n parity s
  | .por => Sys2Proof.Machine.execPor s
  | .coldBoot fails otpBad => Sys2Proof.Machine.execColdBoot fails otpBad s
  | .warmBoot fails otpBad => Sys2Proof.Machine.execWarmBoot fails otpBad s
  | .xspiRead r v => Sys2Proof.Machine.execXspiRead r v s
  | .xspiDone => Sys2Proof.Machine.execXspiDone s
  | .gpioSet r v => Sys2Proof.Machine.execGpioSet r v s
  | .gpioClr r v => Sys2Proof.Machine.execGpioClr r v s
  | .gpioEdge at_ j level => Sys2Proof.Machine.execGpioEdge at_ j level s
  | .overlayRequest r v => Sys2Proof.Machine.execOverlayRequest r v s
  | .modeChange pins => Sys2Proof.Machine.execModeChange pins s
  | .overlayCommit n => Sys2Proof.Machine.execOverlayCommit n s
  | .overlayApply n => Sys2Proof.Machine.execOverlayApply n s
  | .bootLock r v => Sys2Proof.Machine.execBootLock r v s
  | .warmInvalidate r v => Sys2Proof.Machine.execWarmInvalidate r v s
  | .otpProgram r v => Sys2Proof.Machine.execOtpProgram r v s
  | .otpDone => Sys2Proof.Machine.execOtpDone s
  | .ctlSpiWrite addr data => Sys2Proof.Machine.execCtlSpiWrite addr data s
  | .ctlSpiRead addr len => Sys2Proof.Machine.execCtlSpiRead addr len s
  | .ctlSpiStatus => Sys2Proof.Machine.execCtlSpiStatus s
  | .ctlSpiDoorbell => Sys2Proof.Machine.execCtlSpiDoorbell s
  | .ctlSpiAck => Sys2Proof.Machine.execCtlSpiAck s
  | .ctlSpiUnknown cmd => Sys2Proof.Machine.execCtlSpiUnknown cmd s
  | .mboxInClear r v => Sys2Proof.Machine.execMboxInClear r v s
  | .mboxPost r v => Sys2Proof.Machine.execMboxPost r v s
  | .vote r c v => Sys2Proof.Machine.execVote r c v s
  | .domainPowerDownStart d => Sys2Proof.Machine.execDomainPowerDownStart d s
  | .domainOn d parity => Sys2Proof.Machine.execDomainOn d parity s
  | .quiesceTimeout d => Sys2Proof.Machine.execQuiesceTimeout d s
  | .domainOff d => Sys2Proof.Machine.execDomainOff d s
  | .offDomainAccess r addr write => Sys2Proof.Machine.execOffDomainAccess r addr write s
  | .padRelease r v => Sys2Proof.Machine.execPadRelease r v s
  | .padHeld d => Sys2Proof.Machine.execPadHeld d s
  | .sleepGo r v => Sys2Proof.Machine.execSleepGo r v s
  | .sleepQuiesceDone => Sys2Proof.Machine.execSleepQuiesceDone s
  | .sleepDramIdle => Sys2Proof.Machine.execSleepDramIdle s
  | .wake source => Sys2Proof.Machine.execWake source s
  | .clockSwitch r v => Sys2Proof.Machine.execClockSwitch r v s
  | .hardReset cause => Sys2Proof.Machine.execHardReset cause s
  | .softReset r v => Sys2Proof.Machine.execSoftReset r v s
  | .wdtKick r v => Sys2Proof.Machine.execWdtKick r v s
  | .wdtExpired => Sys2Proof.Machine.execWdtExpired s
  | .avsInterval anyFail allGuard modes sent => Sys2Proof.Machine.execAvsInterval anyFail allGuard modes sent s
  | .pmbTransaction r v => Sys2Proof.Machine.execPmbTransaction r v s
  | .pmbDone res => Sys2Proof.Machine.execPmbDone res s
  | .pmbAlert => Sys2Proof.Machine.execPmbAlert s
  | .thermalSlowRound readings volts trims => Sys2Proof.Machine.execThermalSlowRound readings volts trims s
  | .thermalFastSample k reading => Sys2Proof.Machine.execThermalFastSample k reading s
  | .sensorReadmit r v => Sys2Proof.Machine.execSensorReadmit r v s
  | .t3GraceExpired => Sys2Proof.Machine.execT3GraceExpired s
  | .forcedSleep => Sys2Proof.Machine.execForcedSleep s
  | .injArm r k v => Sys2Proof.Machine.execInjArm r k v s
  | .injDisarm r k v => Sys2Proof.Machine.execInjDisarm r k v s
  | .rateInterval => Sys2Proof.Machine.execRateInterval s
  | .faultLogWrite => Sys2Proof.Machine.execFaultLogWrite s
  | .logClear r v => Sys2Proof.Machine.execLogClear r v s
  | .autobaud bitTimePs char => Sys2Proof.Machine.execAutobaud bitTimePs char s
  | .monitorSyntaxError => Sys2Proof.Machine.execMonitorSyntaxError s
  | .monitorRead addr count => Sys2Proof.Machine.execMonitorRead addr count s
  | .monitorWriteWord addr v => Sys2Proof.Machine.execMonitorWriteWord addr v s
  | .monitorDump addr count => Sys2Proof.Machine.execMonitorDump addr count s
  | .monitorFill addr count v => Sys2Proof.Machine.execMonitorFill addr count v s
  | .monitorCnt addr => Sys2Proof.Machine.execMonitorCnt addr s
  | .monitorInj k id everyN count => Sys2Proof.Machine.execMonitorInj k id everyN count s
  | .monitorLog count => Sys2Proof.Machine.execMonitorLog count s
  | .monitorLogClear => Sys2Proof.Machine.execMonitorLogClear s
  | .monitorClk => Sys2Proof.Machine.execMonitorClk s
  | .monitorVote mask => Sys2Proof.Machine.execMonitorVote mask s
  | .monitorReadmit pod pip => Sys2Proof.Machine.execMonitorReadmit pod pip s
  | .bootRetry fails otpBad => Sys2Proof.Machine.execBootRetry fails otpBad s
  | .bootRecover count data fails => Sys2Proof.Machine.execBootRecover count data fails s
  | .recoverTimeout => Sys2Proof.Machine.execRecoverTimeout s
  | .monitorResetSoft => Sys2Proof.Machine.execMonitorResetSoft s
  | .monitorResetHard => Sys2Proof.Machine.execMonitorResetHard s
  | .challenge nonce => Sys2Proof.Machine.execChallenge nonce s
  | .unlock key sig => Sys2Proof.Machine.execUnlock key sig s
  | .help => Sys2Proof.Machine.execHelp s
  | .bypass => Sys2Proof.Machine.execBypass s
  | .idcode => Sys2Proof.Machine.execIdcode s
  | .samplePreload pins shiftIn => Sys2Proof.Machine.execSamplePreload pins shiftIn s
  | .extest => Sys2Proof.Machine.execExtest s
  | .jtagDebug => Sys2Proof.Machine.execJtagDebug s
  | .prbsCheck n k bits => Sys2Proof.Machine.execPrbsCheck n k bits s
  | .packageLoadDone j => Sys2Proof.Machine.execPackageLoadDone j s
  | .memoryAccess r addr len write found => Sys2Proof.Machine.execMemoryAccess r addr len write found s
  | .perBankRefresh m ch waiting => Sys2Proof.Machine.execPerBankRefresh m ch waiting s
  | .accessHoldEnd d => Sys2Proof.Machine.execAccessHoldEnd d s
  | .timeCounterParity => Sys2Proof.Machine.execTimeCounterParity s

end Sys2Proof.Machine
end

