-- ==== Sys2Proof/Safety.lean ====
section
/-! DEFINITION. What a safe state and a safe step of the block are, in the terms the claims use. -/

namespace Sys2Proof.Machine

/-- A state every run keeps: memory is in its canonical form. -/
def State.Safe (s : State) : Prop := Memory.wf s.mem = true

/-- A step is safe if it goes on, to a safe state, or refuses a command whose operands no rule allows. -/
def SafeStep (s : State) : Prop := match step s with
  | .next t => t.Safe
  | .fault _ => False
  | .refused r => r = .illFormed

end Sys2Proof.Machine
end

