-- ==== Sys2Proof/Certificates/Slice0/Obligations.lean ====
section
/-! DEFINITION. The statements about the model: what each command does where the spec says it runs, its frame, and the
invariants of every step. The claims of a family stand under `Sys2Proof.Claims`, each with the rule it says; an
obligation joins those of a family. -/

namespace Sys2Proof.Claims

open Sys2Proof.Machine

/-- The command answers a next state, of which `P` holds. -/
def Runs (i : Instr) (s : State) (P : State → Prop) : Prop := ∃ t, exec i s = .next t ∧ P t

/-- The requester's access drew no error response, and this data. -/
def Answered (r : Requester) (w : Word) (t : State) : Prop := lookD t.bus {} (reqNo r) = ⟨false, w⟩

/-- The requester's access drew an error response. -/
def Refused (r : Requester) (t : State) : Prop := (lookD t.bus {} (reqNo r)).err = true

/-- Every register but those of `p` reads as before. -/
def RegsBut (p : Nat → Prop) (s t : State) : Prop := ∀ a, ¬ p a → t.rd a = s.rd a

/-- Every byte of memory but those of `p` reads as before. -/
def MemBut (p : Nat → Prop) (s t : State) : Prop := ∀ a, ¬ p a → t.peek a = s.peek a

/-- Every register but those of `p`, and every byte of memory, reads as before. -/
def Keeps (p : Nat → Prop) (s t : State) : Prop := RegsBut p s t ∧ MemBut (fun _ => False) s t

/-- Every register of `p` holds its reset value. -/
def Restored (p : Nat → Prop) (t : State) : Prop := ∀ a, p a → t.rd a = resetWord t.variant a

/-- The command runs as a write of the register at `a` that changes no register but those of `p`, and no byte of memory;
its effect is `P`. -/
def Writes (i : Instr) (r : Requester) (p : Nat → Prop) (s : State) (P : State → Prop) : Prop :=
  Runs i s (fun t => Answered r 0 t ∧ P t ∧ Keeps p s t)


/-- The event of this block and number, with this argument, is on its way to the router, if it is enabled and the device
is not held in reset (R24, R25, R491). -/
def Told (blk loc arg : Nat) (s t : State) : Prop :=
  s.evtOn blk loc = true → s.pwr.testHold = false → t.evr.flight.any (fun e => e.id == blk * 256 + loc && e.arg == arg % 65536) = true

/-- No error injection is armed and no change of the time unit waits for its tick. -/
abbrev Calm (s : State) : Prop := s.err.slots = [] ∧ s.tsu.newIncr = none ∧ s.tsu.set = none ∧ s.tsu.step = none

/-- The queue of events in flight is as before. -/
abbrev Quiet (s t : State) : Prop := t.evr.flight = s.evr.flight

/-- There is a value, and `P` holds of it. -/
def Now {α : Type} (o : Option α) (P : α → Prop) : Prop := ∃ x, o = some x ∧ P x

/-! ### Register accesses and memory (chapters 0, 1, 24) -/

/-- A write of REF_PHASE, a 32-bit RW register of the CTRL domain: it then reads as written, and no other register
changes (R5). -/
def writeRW (s : State) (r : Requester) (v : Word) : Prop :=
  s.unitOn dCTRL = true → s.cfg.start = none →
  Runs (.registerWrite r REF_PHASE v) s (fun t =>
    Answered r 0 t ∧ t.rd REF_PHASE = v ∧ Keeps (fun a => a = REF_PHASE) s t)

/-- A write of SYS_ID, all of whose fields are RO: nothing changes (R5). -/
def writeRO (s : State) (r : Requester) (v : Word) : Prop :=
  s.pwr.testHold = false → s.cfg.start = none →
  Runs (.registerWrite r SYS_ID v) s (fun t => Answered r 0 t ∧ Keeps (fun _ => False) s t)

/-- A write of REF_STATUS: a 1 clears the W1C bit it meets, a 0 leaves it, and the RO state stays (R5). -/
def writeW1C (s : State) (r : Requester) (v : Word) : Prop :=
  s.unitOn dCTRL = true → s.cfg.start = none →
  Runs (.registerWrite r REF_STATUS v) s (fun t =>
    Answered r 0 t ∧
    t.f REF_STATUS_bad_write = (if bitOf v.toNat REF_STATUS_bad_write.lo then 0 else s.f REF_STATUS_bad_write) ∧
    t.f REF_STATUS_state = s.f REF_STATUS_state ∧ Keeps (fun a => a = REF_STATUS) s t)

/-- A read of SPn_DISCARD answers the count and clears it (R5: RC). -/
def readRC (s : State) (r : Requester) (n : Nat) : Prop :=
  n < 4 → s.unitOn (dSP n) = true →
  Runs (.rcRead r (SP_DISCARD n)) s (fun t =>
    Answered r (s.rd (SP_DISCARD n)) t ∧ t.rd (SP_DISCARD n) = 0 ∧ Keeps (fun a => a = SP_DISCARD n) s t)

/-- A read of TSU_NOW_NS by a requester with a latch: the seconds and the fraction are latched for it, and no register
changes (R477). -/
def readLatch (s : State) (r : Requester) : Prop :=
  s.unitOn dCTRL = true → r ≠ .cfg →
  Runs (.loReadLatch r TSU_NOW_NS) s (fun t =>
    Answered r (BitVec.ofNat 32 s.tsu.ns) t ∧
    t.readValue r TSU_NOW_S_LO = BitVec.ofNat 32 s.tsu.sec ∧
    t.readValue r TSU_NOW_S_HI = BitVec.ofNat 32 (s.tsu.sec / 2 ^ 32) ∧
    t.readValue r TSU_NOW_FRAC = BitVec.ofNat 32 s.tsu.frac ∧ Keeps (fun _ => False) s t)

/-- An access of register space that no window takes draws an error response; SYS_ACC_ERR counts it and
SYS_ACC_ERR_LAST holds its word offset with cause 0 (R475). -/
def accessError (s : State) (r : Requester) (a width : Nat) (write : Bool) : Prop :=
  s.pwr.testHold = false → Config.regBase ≤ a → a < Config.regEnd → (windowAt s.variant a).isNone = true →
  Runs (.accessError r a width write) s (fun t =>
    Refused r t ∧ t.rd SYS_ACC_ERR = s.rd SYS_ACC_ERR + 1 ∧
    t.f SYS_ACC_ERR_LAST_offset = (a - Config.regBase) / 4 % 2 ^ 28 ∧ t.f SYS_ACC_ERR_LAST_cause = 0 ∧
    Keeps (fun x => x = SYS_ACC_ERR ∨ x = SYS_ACC_ERR_LAST) s t)

/-- On the UMB9480 an aligned 32-bit access to a domain that is off draws an error response, counted in
PWR_OFF_ACCESS (R420). -/
def offDomainRefused (s : State) (r : Requester) (a : Nat) (d : Nat) : Prop :=
  s.pwr.testHold = false → s.pwr.clkLost = false → s.variant = .umb9480 → windowDom s.variant a = some d → s.domOn d = false → a % 4 = 0 →
  Runs (.offDomainAccess r a none) s (fun t =>
    Refused r t ∧ t.rd PWR_OFF_ACCESS = s.rd PWR_OFF_ACCESS + 1 ∧ Keeps (fun x => x = PWR_OFF_ACCESS) s t)

/-- On the smaller variants such an access waits for the domain, which is on when it completes (R420). No register changes
but those of the power-up, those that show a pin of the domain, the accessed one's domain, and no byte of memory. -/
def offDomainWakes (s : State) (r : Requester) (a : Nat) (d : Nat) : Prop :=
  s.pwr.testHold = false → s.pwr.clkLost = false → s.variant ≠ .umb9480 → windowDom s.variant a = some d → s.domOn d = false → a % 4 = 0 →
  Calm s → s.mc.fills = [] → s.mc.reread = [] → s.f PWR_STATE_state ≠ 3 → s.pwr.job = none →
  Runs (.offDomainAccess r a none) s (fun t => t.domOn d = true ∧ (lookD t.bus {} (reqNo r)).err = false ∧
    Keeps (fun x => x = PWR_STATUS ∨ x = PWR_BUSY ∨ x = PWR_STATE ∨ x = GPIO_IN ∨ x = GPIO_EDGE_STATUS ∨ x = OEP_LOCK_STAT ∨
      x = OEP_LOCK_GRANT_LO ∨ x = OEP_LOCK_GRANT_HI ∨ x = PFI_STATUS 0 ∨ x = PFI_STATUS 1 ∨ x = PFI_STATUS 2 ∨ x = PFI_STATUS 3 ∨
      windowDom s.variant x = some d) s t)

/-- A write of MRAM below the fault log, by a core: the bytes written read back, every other byte of memory and every
register stays (R21, R23). -/
def memWrite (s : State) (a : Nat) (bs : List Byte) : Prop :=
  bs ≠ [] → Config.mramBase ≤ a → a + bs.length ≤ Config.logBase →
  s.mc.fills = [] → s.mc.reread = [] →
  Runs (.memoryAccess .cc0 a bs.length (some bs) .clean) s (fun t =>
    Answered .cc0 0 t ∧ t.peeks a bs.length = bs ∧
    MemBut (fun b => a ≤ b ∧ b < a + bs.length) s t ∧ RegsBut (fun _ => False) s t)

/-- A read of MRAM by sage returns the bytes and changes neither memory nor any register (R21, R23). -/
def memRead (s : State) (a n : Nat) : Prop :=
  0 < n → Config.mramBase ≤ a → a + n ≤ Config.mramBase + Config.mramSize → a + n ≤ Config.logBase →
  s.mc.fills = [] → s.mc.reread = [] →
  Runs (.memoryAccess .sage a n none .clean) s (fun t =>
    t.mc.lastData = s.peeks a n ∧ (lookD t.bus {} (reqNo .sage)).err = false ∧ Keeps (fun _ => False) s t)

/-! ### Frame rings (R11 to R15, R172) -/

/-- A register that shows a ring's state. -/
abbrev aRingStat (a : Nat) : Prop := allRings.any (fun g => (ringRegs g).stat == a) = true

/-- The registers that show ring `g` and count its frames. -/
abbrev ringShown (g : RingId) (a : Nat) : Prop :=
  a = (ringRegs g).stat ∨ a = (ringRegs g).prodLo ∨ a = (ringRegs g).prodHi ∨ a = (ringRegs g).dropLo ∨ a = (ringRegs g).dropHi

/-- The ring of an H.265 context at the start of DRAM, which answers, with a completed picture in the buffer being written
and no encoder attached: the offer writes its descriptor at the slot's address, every attached consumer then holds the
buffer, and the frame counts as produced (R12, R44). -/
def offer (s : State) (c : Nat) (i : FrameInfo) (x : BufInfo) (b : Nat) : Prop :=
  c < 16 → s.unitOn dHVC = true → (s.ring (.enc c)).writing = some b → (s.ring (.enc c)).ready = some (i, x) →
  b < 64 → s.slotAddr (.enc c) b = Config.dramBase → s.memAnswers Config.dramBase (descBytes i x).length true = true →
  s.mc.fills = [] → s.mc.reread = [] → s.err.slots = [] →
  (s.ring (.enc c)).cons.all (fun k => match k.id with | .enc _ => false | _ => true) = true →
  Runs (.frameOffer (.enc c)) s (fun t =>
    (t.ring (.enc c)).writing = none ∧ (t.ring (.enc c)).cons = (s.ring (.enc c)).cons.map (fun k => { k with held := k.held ++ [b] }) ∧
    t.peeks Config.dramBase (descBytes i x).length = descBytes i x ∧
    t.pair (ringRegs (.enc c)).prodLo (ringRegs (.enc c)).prodHi =
      (s.pair (ringRegs (.enc c)).prodLo (ringRegs (.enc c)).prodHi + 1) % 2 ^ 64 ∧
    RegsBut (ringShown (.enc c)) s t ∧
    MemBut (fun a => Config.dramBase ≤ a ∧ a < Config.dramBase + (descBytes i x).length) s t)

/-- A consumer that holds buffers releases its oldest one, and holds the others still (R12). -/
def release (s : State) (g : RingId) (k : ConsumerId) (b : Nat) : Prop :=
  g.wf = true → s.unitOn (ringDom g) = true → (s.heldBy g k).head? = some b →
  Runs (.consumerRelease g k) s (fun t =>
    t.heldBy g k = (s.heldBy g k).tail ∧ Keeps (fun a => a = (ringRegs g).stat) s t)

/-- A detach releases every buffer the consumer held: it is attached no more, the others hold what they held (R15). -/
def detach (s : State) (g : RingId) (k : ConsumerId) : Prop :=
  g.wf = true → s.unitOn (ringDom g) = true → (s.ring g).cons.any (fun x => x.id == k) = true →
  Runs (.consumerDetach g k) s (fun t =>
    (t.ring g).cons = (s.ring g).cons.filter (fun x => x.id != k) ∧ Keeps (fun a => a = (ringRegs g).stat) s t)

/-- While the producer writes frames or a consumer holds a buffer, a geometry write changes only bad_write; else a slot
that keeps the ring inside memory is taken (R172). -/
def geometry (s : State) (r : Requester) (c : Nat) (v : Word) : Prop :=
  c < 16 → s.unitOn dHVC = true →
  Writes (.ringGeometryWrite r (.enc c) 2 v) r (fun a => a = HVC_EC_SLOT c ∨ a = HVC_EC_STATUS c) s (fun t =>
    if s.geomOpen (.enc c) = true ∧ ringInside s.variant (s.pair (HVC_EC_RING_LO c) (HVC_EC_RING_HI c))
        (s.ringBufs (.enc c)) ((plainWrite (HVC_EC_SLOT c) v s).ringSlot (.enc c)) = true
    then t.rd (HVC_EC_SLOT c) = (plainWrite (HVC_EC_SLOT c) v s).rd (HVC_EC_SLOT c) ∧ t.rd (HVC_EC_STATUS c) = s.rd (HVC_EC_STATUS c)
    else t.rd (HVC_EC_SLOT c) = s.rd (HVC_EC_SLOT c) ∧ t.f (HVC_EC_STATUS_bad_write c) = 1)

/-- An accepted write of bufs resets the ring: every buffer is a credit, none is being written (R172). -/
def bufs (s : State) (r : Requester) (c : Nat) (v : Word) : Prop :=
  c < 16 → s.unitOn dHVC = true → s.geomOpen (.enc c) = true → bitsOf v.toNat 6 0 ≤ 64 →
  ringInside s.variant (s.pair (HVC_EC_RING_LO c) (HVC_EC_RING_HI c)) (bitsOf v.toNat 6 0) (s.ringSlot (.enc c)) = true →
  Writes (.ringBufsWrite r (.enc c) v) r (fun a => a = HVC_EC_RING_CFG c ∨ a = HVC_EC_RING_STAT c) s (fun t =>
    t.ringBufs (.enc c) = bitsOf v.toNat 6 0 ∧ (t.ring (.enc c)).writing = none ∧ (t.ring (.enc c)).next = 0 ∧
    t.rd (HVC_EC_RING_STAT c) = BitVec.ofNat 32 (bitsOf v.toNat 6 0 * 256))

/-- While the encoder codes a picture no context's frame starts (R251). -/
def encBusy (s : State) (c : Nat) : Prop :=
  c < 16 → s.hvc.cur.isSome = true → s.unitOn dHVC = true →
  Runs (.producerFrameStart (.enc c)) s (fun t => t.hvc.cur = s.hvc.cur ∧ Keeps (fun _ => False) s t)

/-! ### Clocks and events (R18, R25 to R30) -/

/-- The root PLL locks; nothing that software sees changes (R18). -/
def pllLocks (s : State) : Prop :=
  s.pwr.pllDue.isSome = true → s.pwr.clkLost = false →
  Runs .pllLocked s (fun t => t.pwr.pllLocked = true ∧ t.pwr.pllDue = none ∧ Keeps (fun a => a = PWR_BUSY ∨ a = PWR_STATE) s t)

/-- The reference is lost: no root-derived clock is selected, and the detector SYS 0x00 judges it lasting (R18, R451). -/
def referenceLost (s : State) : Prop :=
  s.err.slots = [] →
  Runs .referenceLost s (fun t =>
    t.pwr.clkLost = true ∧ t.pwr.pllLocked = false ∧ t.f PWR_CLK_fab = 0 ∧ t.f PWR_CLK_mem = 0 ∧ t.f PWR_CLK_ctrl = 0 ∧
    t.f ERR_LAST_id = 0x0100 ∧ t.f ERR_LAST_kind = 1 ∧ t.err.pend.length = s.err.pend.length + 1 ∧
    Keeps (fun a => a = PWR_CLK ∨ a = ERR_LAST) s t)

/-- The oldest event in flight reaches the router. Where its destination set is one queue with room, its record of 16
bytes stands at the queue's tail, the tail and the count of records move by one, and the sequence number by one
(R26 to R29). -/
def eventRouted (s : State) (e : Ev) (rest : List Ev) (d : Nat) : Prop :=
  s.pwr.testHold = false → s.evr.flight = e :: rest → d < 5 → s.destOf e.id = 2 ^ d → s.err.slots = [] →
  s.f (EVR_QSIZE_entries d) ≠ 0 → s.queued d ≠ s.f (EVR_QSIZE_entries d) →
  Runs .eventRaised s (fun t =>
    t.evr.flight = rest ∧ t.evr.seq = (s.evr.seq + 1) % 65536 ∧
    t.peeks (Config.sramBase + s.f (EVR_QBASE_base d) * 16 + s.f (EVR_QTAIL_tail d) % s.f (EVR_QSIZE_entries d) * 16) 16 =
      evRecord e (s.evr.owed.contains d) s.evr.seq ∧
    t.f (EVR_QTAIL_tail d) = (s.f (EVR_QTAIL_tail d) + 1) % 2 ^ 32 ∧
    RegsBut (fun a => a = EVR_QTAIL d ∨ a = EVR_QWR_LO d ∨ a = EVR_QWR_HI d) s t ∧
    MemBut (fun a => Config.sramBase + s.f (EVR_QBASE_base d) * 16 + s.f (EVR_QTAIL_tail d) % s.f (EVR_QSIZE_entries d) * 16 ≤ a ∧
      a < Config.sramBase + s.f (EVR_QBASE_base d) * 16 + s.f (EVR_QTAIL_tail d) % s.f (EVR_QSIZE_entries d) * 16 + 16) s t)

/-- Where its one queue is full or has no entries, the record is dropped: QDROP counts it and lost is set, the queue
stays (R28). -/
def eventDropped (s : State) (e : Ev) (rest : List Ev) (d : Nat) : Prop :=
  s.pwr.testHold = false → s.evr.flight = e :: rest → d < 5 → s.destOf e.id = 2 ^ d → s.err.slots = [] →
  s.f (EVR_QSIZE_entries d) = 0 ∨ s.queued d = s.f (EVR_QSIZE_entries d) →
  Runs .eventRaised s (fun t =>
    t.evr.flight = rest ∧ t.evr.seq = (s.evr.seq + 1) % 65536 ∧ t.f (EVR_QSTAT_lost d) = 1 ∧
    t.pair (EVR_QDROP_LO d) (EVR_QDROP_HI d) = (s.pair (EVR_QDROP_LO d) (EVR_QDROP_HI d) + 1) % 2 ^ 64 ∧
    Keeps (fun a => a = EVR_QSTAT d ∨ a = EVR_QDROP_LO d ∨ a = EVR_QDROP_HI d) s t)

/-- A queue's base is taken while the queue is empty and lies in SRAM; else bad_write is set and it stays (R30). -/
def qbase (s : State) (r : Requester) (d : Nat) (v : Word) : Prop :=
  d < 5 → s.pwr.testHold = false →
  Writes (.evrQbaseWrite r d v) r (fun a => a = EVR_QBASE d ∨ a = EVR_QSTAT d) s (fun t =>
    if s.queued d = 0 ∧ queueInside (bitsOf v.toNat 24 4 * 16) (s.f (EVR_QSIZE_entries d)) = true
    then t.f (EVR_QBASE_base d) = bitsOf v.toNat 24 4 ∧ t.rd (EVR_QSTAT d) = s.rd (EVR_QSTAT d)
    else t.rd (EVR_QBASE d) = s.rd (EVR_QBASE d) ∧ t.f (EVR_QSTAT_bad_write d) = 1)

/-- A queue's size of at most 4,096 is taken while the queue is empty and lies in SRAM (R30). -/
def qsize (s : State) (r : Requester) (d : Nat) (v : Word) : Prop :=
  d < 5 → s.pwr.testHold = false →
  Writes (.evrQsizeWrite r d v) r (fun a => a = EVR_QSIZE d ∨ a = EVR_QSTAT d) s (fun t =>
    if bitsOf v.toNat 12 0 ≤ 4096 ∧ s.queued d = 0 ∧ queueInside (s.f (EVR_QBASE_base d) * 16) (bitsOf v.toNat 12 0) = true
    then t.f (EVR_QSIZE_entries d) = bitsOf v.toNat 12 0 ∧ t.rd (EVR_QSTAT d) = s.rd (EVR_QSTAT d)
    else t.rd (EVR_QSIZE d) = s.rd (EVR_QSIZE d) ∧ t.f (EVR_QSTAT_bad_write d) = 1)

/-- A queue's head is taken unless it lies after tail in serial order (R28, R30). -/
def qhead (s : State) (r : Requester) (d : Nat) (v : Word) : Prop :=
  d < 5 → s.pwr.testHold = false →
  Writes (.evrQheadWrite r d v) r (fun a => a = EVR_QHEAD d ∨ a = EVR_QSTAT d) s (fun t =>
    if ahead v.toNat (s.f (EVR_QTAIL_tail d)) = true
    then t.rd (EVR_QHEAD d) = s.rd (EVR_QHEAD d) ∧ t.f (EVR_QSTAT_bad_write d) = 1
    else t.rd (EVR_QHEAD d) = v ∧ t.rd (EVR_QSTAT d) = s.rd (EVR_QSTAT d))

/-! ### Reference generator and time unit (R31 to R40, R359 to R363, R511, R512, R514) -/

/-- The registers that show REF. -/
abbrev refShown (a : Nat) : Prop := a = REF_CTRL ∨ a = REF_STATUS ∨ a = REF_PERIOD

/-- REF_CTRL.en rises with a source that is not reserved: the source's state is shown, and the schedule starts afresh.
Under INTERNAL and GENLOCK the first tick is due now; under PTP it is the smallest tick whose ideal instant lies at or
after the clock's reading. At a rate of zero no tick is due (R31, R34, R35, R511). -/
def refEnable (s : State) (r : Requester) (v : Word) : Prop :=
  s.unitOn dCTRL = true → s.b REF_CTRL_en = false → bitsOf v.toNat 2 1 ≠ 3 → 1 ≤ s.f REF_RATE_DEN_den →
  Writes (.refEnable r v) r refShown s (fun t =>
    let src := bitsOf v.toNat 2 1
    t.b REF_CTRL_en = true ∧ t.f REF_CTRL_src = src ∧ t.ref.ticks = [] ∧ t.ref.setRfn = s.ref.setRfn ∧
    t.f REF_STATUS_state = (if src = 1 then refAcquiring else if src = 2 then refLocked else refFree) ∧
    (s.f REF_RATE_NUM_num = 0 → t.ref.next = none) ∧
    (s.f REF_RATE_NUM_num ≠ 0 → src ≠ 2 → t.ref.next = some (s.now : Rat)) ∧
    (s.f REF_RATE_NUM_num ≠ 0 → src = 2 → Now t.ref.nextK (fun k =>
      t.ref.next = some (s.instantOf (s.idealK k)) ∧ s.reading ≤ s.idealK k ∧ (k = 0 ∨ s.idealK (k - 1) < s.reading))))

/-- A write of REF_CTRL with src = 0b11 is ignored as a whole and sets bad_write (R32, R510). -/
def refReserved (s : State) (r : Requester) (v : Word) : Prop :=
  s.unitOn dCTRL = true → bitsOf v.toNat 2 1 = 3 →
  Writes (.refEnable r v) r (fun a => a = REF_STATUS) s (fun t =>
    t.f REF_STATUS_bad_write = 1 ∧ t.f REF_STATUS_state = s.f REF_STATUS_state ∧ t.ref = s.ref)

/-- A write of REF_CTRL with en = 0 and a source that is not reserved: en is 0. If it falls, no tick is due, no lock state is
kept, and the state reads FREE (R35, R511). -/
def refDisable (s : State) (r : Requester) (v : Word) : Prop :=
  s.unitOn dCTRL = true → bitsOf v.toNat 2 1 ≠ 3 →
  Writes (.refDisable r v) r refShown s (fun t =>
    t.b REF_CTRL_en = false ∧ t.f REF_CTRL_src = bitsOf v.toNat 2 1 ∧ t.rd REF_PERIOD = s.rd REF_PERIOD ∧
    (if s.b REF_CTRL_en = true
    then t.f REF_STATUS_state = refFree ∧ t.ref.next = none ∧ t.ref.edge = none ∧ t.ref.ivs = [] ∧ t.ref.lockedPer = []
    else t.rd REF_STATUS = s.rd REF_STATUS ∧ t.ref = s.ref))

/-- A rate of at most 1,000 frames/s with num up to 1,048,576 and den from 1 to 65,536 is taken; any other sets bad_rate
and the rate stays (R31). A tick that is due stays where it is, and while REF is off none is; a rate that is not zero, taken
while ticks stand still for a rate of zero, makes the next tick due now under INTERNAL and GENLOCK (R511). -/
def refRate (s : State) (r : Requester) (den : Bool) (v : Word) : Prop :=
  s.unitOn dCTRL = true →
  Writes (.refRateWrite r den v) r (fun a => a = REF_RATE_NUM ∨ a = REF_RATE_DEN ∨ a = REF_STATUS ∨ a = REF_PERIOD) s (fun t =>
    let n := if den then s.f REF_RATE_NUM_num else bitsOf v.toNat 20 0
    let d := if den then bitsOf v.toNat 16 0 else s.f REF_RATE_DEN_den
    (s.ref.next.isSome = true ∨ s.b REF_CTRL_en = false → t.ref = s.ref) ∧
    if n ≤ 1048576 ∧ 1 ≤ d ∧ d ≤ 65536 ∧ n ≤ 1000 * d
    then t.f REF_RATE_NUM_num = n ∧ t.f REF_RATE_DEN_den = d ∧ t.f REF_STATUS_bad_rate = s.f REF_STATUS_bad_rate ∧
      (n ≠ 0 → s.b REF_CTRL_en = true → s.ref.next = none → s.f REF_CTRL_src ≠ 2 → t.ref.next = some (s.now : Rat))
    else t.rd REF_RATE_NUM = s.rd REF_RATE_NUM ∧ t.rd REF_RATE_DEN = s.rd REF_RATE_DEN ∧ t.f REF_STATUS_bad_rate = 1 ∧
      t.ref = s.ref)

/-- A write of REF_RFN gives the next tick its RFN; under PTP it is ignored (R511). -/
def refRfn (s : State) (r : Requester) (v : Word) : Prop :=
  s.unitOn dCTRL = true →
  Writes (.refRfnWrite r v) r (fun _ => False) s (fun t =>
    t.ref.setRfn = if s.f REF_CTRL_src = 2 then s.ref.setRfn else some v.toNat)

/-- Under INTERNAL a tick falls at the first PCLK edge at or after its ideal instant, and is told with its RFN: the one a
write of REF_RFN set, else one more than the last. The next is one nominal period later (R32, R33, R512). -/
def refTick (s : State) (ideal : Rat) (p : Rat) : Prop :=
  s.domOn dCTRL = true → s.b REF_CTRL_en = true → s.f REF_CTRL_src = 0 → s.ref.next = some ideal → s.nominal = some p →
  s.now ≤ pclkAt ideal → Calm s →
  Runs .refTick s (fun t =>
    let rfn := match s.ref.setRfn with | some x => x | none => s.f REF_RFN_rfn + 1
    t.now = pclkAt ideal ∧ t.f REF_RFN_rfn = rfn % 2 ^ 32 ∧ Told 5 5 rfn s t ∧
    t.ref.next = some (ideal + p) ∧ t.ref.setRfn = none ∧ (t.ref.ticks.head?.map (·.at_)) = some (pclkAt ideal) ∧
    Keeps (fun a => a = REF_RFN ∨ a = REF_PERIOD ∨ (List.range 4).any (fun c => a == PFI_PH_EXTRA c) = true) s t)

/-- Under GENLOCK an edge of REF_V is a reference edge if REF_F is high, or was low at the 3 edges before too: it is the
phase reference from then on, and REF_PHERR shows how far the tick nearest to its target lies from it, in ns toward zero (the
rounding is the model's choice, log 15). Another edge shows nothing (R35, R514). -/
def refEdge (s : State) (a : Nat) (p : Rat) (f : Bool) : Prop :=
  s.unitOn dCTRL = true → s.b REF_CTRL_en = true → s.f REF_CTRL_src = 1 → s.nominal = some p → s.now ≤ a → Calm s →
  Runs (.refVEdge a f) s (fun t =>
    t.now = a ∧ t.ref.fHist = (f :: s.ref.fHist).take 3 ∧
    (if f = true ∨ (s.ref.fHist.any (fun x => x)) = false
    then t.ref.edge = some a ∧ ((s.nearTick (s.target a) p).all (fun k =>
        let e := k - s.target a
        t.rd REF_PHERR == w32 (if e < 0 then -((-e / 1000).floor) else (e / 1000).floor))) = true ∧
      Keeps (fun x => x = REF_STATUS ∨ x = REF_PHERR ∨ x = REF_PERIOD) s t
    else t.ref.edge = s.ref.edge ∧ Keeps (fun _ => False) s t))

/-- No reference edge within two expected periods while LOCKED: HOLDOVER, and the loss of lock is told (R35, R512). -/
def refEdgeTimeout (s : State) (w : Nat) : Prop :=
  s.domOn dCTRL = true → s.ref.watch = some w → Calm s →
  Runs .refEdgeTimeout s (fun t =>
    t.f REF_STATUS_state = refHoldover ∧ t.ref.watch = none ∧ t.now = max s.now w ∧ Told 5 2 0 s t ∧
    Keeps (fun a => a = REF_STATUS) s t)

/-- The oldest pulse waiting on SPn_TRIG starts at its instant: the pin is active (R38). -/
def trigStart (s : State) (n : Nat) (p : Pulse) (rest : List Pulse) : Prop :=
  n < 4 → s.unitOn dCTRL = true → Calm s → lookD s.ref.pulses [] n = p :: rest →
  Runs (.trigPulseStart n) s (fun t =>
    t.ref.trigHigh.contains n = true ∧ lookD t.ref.pulses [] n = rest ∧ t.now = max s.now p.start ∧ Keeps (fun _ => False) s t)

/-- The oldest pulse on SPn_TRIG ends: with no other on it the pin is inactive (R38). -/
def trigEnd (s : State) (n : Nat) (p : Pulse) : Prop :=
  n < 4 → s.unitOn dCTRL = true → Calm s → lookD s.ref.active [] n = [p] →
  Runs (.trigPulseEnd n) s (fun t =>
    t.ref.trigHigh.contains n = false ∧ lookD t.ref.active [] n = [] ∧ t.now = max s.now p.stop ∧ Keeps (fun _ => False) s t)

/-- A commit of the increment is captured if it lies from 3.0 to 5.0 ns, and refused with bad_write if not (R360). -/
def tsuIncr (s : State) (r : Requester) (v : Word) : Prop :=
  s.unitOn dCTRL = true →
  Writes (.tsuIncrCommit r v) r (fun a => a = TSU_STATUS) s (fun t =>
    let n := s.tsu.staged.getD (s.f TSU_INCR_NS_incr_ns)
    if 3 * 2 ^ 32 ≤ n * 2 ^ 32 + v.toNat ∧ n * 2 ^ 32 + v.toNat ≤ 5 * 2 ^ 32
    then t.tsu.newIncr = some (n, v.toNat) ∧ t.rd TSU_STATUS = s.rd TSU_STATUS
    else t.tsu.newIncr = s.tsu.newIncr ∧ t.f TSU_STATUS_bad_write = 1)

/-- A set with whole nanoseconds below 10^9 is captured for the next BCLK tick; else bad_write (R361). -/
def tsuSet (s : State) (r : Requester) (v : Word) : Prop :=
  s.unitOn dCTRL = true → bitOf v.toNat 1 = false →
  Writes (.tsuSet r v) r (fun a => a = TSU_STATUS) s (fun t =>
    if s.f TSU_SET_NS_ns ≤ 999999999
    then t.tsu.set = some (s.pair TSU_SET_S_LO TSU_SET_S_HI, s.f TSU_SET_NS_ns)
    else t.tsu.set = s.tsu.set ∧ t.f TSU_STATUS_bad_write = 1)

/-- A step within ±999,999,999 ns is captured for the next BCLK tick; else bad_write (R361). -/
def tsuStep (s : State) (r : Requester) (v : Word) : Prop :=
  s.unitOn dCTRL = true → bitOf v.toNat 0 = false →
  Writes (.tsuStep r v) r (fun a => a = TSU_STATUS) s (fun t =>
    if (s.rd TSU_STEP_NS).toInt ≤ 999999999 ∧ -999999999 ≤ (s.rd TSU_STEP_NS).toInt
    then t.tsu.step = some ((s.rd TSU_STEP_S).toInt, (s.rd TSU_STEP_NS).toInt)
    else t.tsu.step = s.tsu.step ∧ t.f TSU_STATUS_bad_write = 1)

/-- With nothing captured, the clock runs to the tick at which its nanoseconds carry: the seconds are one more (R359). -/
def tsuSecond (s : State) : Prop :=
  s.domOn dCTRL = true → s.pwr.clkLost = false → s.err.slots = [] → s.tsu.newIncr = none → s.tsu.set = none →
  s.tsu.step = none → 3 * 2 ^ 32 ≤ s.incr → s.incr ≤ 5 * 2 ^ 32 → s.tsu.ns < 1000000000 → s.tsu.frac < 2 ^ 32 → s.tsu.sec < 2 ^ 48 →
  Runs .tsuSecond s (fun t =>
    t.tsu.sec = (s.tsu.sec + 1) % 2 ^ 48 ∧ t.tsu.ns < 5 ∧ s.now < t.now ∧ Keeps (fun _ => False) s t)

/-- A parity error of the time counters clears TSU_STATUS.valid and counts as a detection (R368). -/
def tsuParityError (s : State) : Prop :=
  s.unitOn dCTRL = true → s.err.slots = [] → s.tsu.newIncr = none → s.tsu.set = none → s.tsu.step = none →
  Runs .timeCounterParity s (fun t =>
    t.f TSU_STATUS_valid = 0 ∧ (lookD t.err.rates {} 0x5200).cur = (lookD s.err.rates {} 0x5200).cur + 1 ∧
    Keeps (fun a => a = TSU_STATUS) s t)

/-! ### Settings, the sensor bus and commits (R46 to R55, R107 to R109, R156) -/

/-- A push adds its write to the set being built, unless 256 writes or 16 sets wait, which sets full (R50). -/
def setPush (s : State) (r : Requester) (n : Nat) (v : Word) : Prop :=
  n < 4 → s.unitOn (dSP n) = true →
  Writes (.setPush r n v) r (fun a => a = SP_SET_STATUS n) s (fun t =>
    let q := (s.port n).sets
    if 256 ≤ setWrites q ∨ 16 ≤ q.sets.length
    then t.f (SP_SET_STATUS_full n) = 1 ∧ (t.port n).sets = q
    else (t.port n).sets = { q with build := q.build ++ [setBits v 31 31 0] } ∧
      t.f (SP_SET_STATUS_writes n) = setWrites q + 1)

/-- A close queues the set built under its SID and target; a target behind the previous set's sets order_err, and with
nothing built nothing happens (R49). -/
def setClose (s : State) (r : Requester) (n : Nat) (v : Word) : Prop :=
  n < 4 → s.unitOn (dSP n) = true → (s.port n).frame = none → (s.port n).ss.strips = [] →
  Writes (.setClose r n v) r (fun a => a = SP_SET_STATUS n) s (fun t =>
    let q := (s.port n).sets
    let g := s.f (SP_SET_TARGET_pfn n)
    if q.build = [] then (t.port n).sets = q
    else if (q.prev <|> q.sets.getLast?.map (fun x => x.target)).all (fun p => g == p || ahead g p) = true
    then (t.port n).sets.build = [] ∧ (t.port n).sets.prev = some g ∧
      (t.port n).sets.sets = q.sets ++ [⟨q.build, bitsOf v.toNat 15 0, g, q.count + 1⟩]
    else t.f (SP_SET_STATUS_order_err n) = 1 ∧ (t.port n).sets = q)

/-- The settings write that may start next, if it is not its set's last, is the bus transfer that runs (R46). -/
def setWriteSend (s : State) (n : Nat) (x : Xfer) : Prop :=
  n < 4 → s.unitOn (dSP n) = true → s.busPick n = some x → x.kind = 1 → x.stop = false →
  Runs (.setWriteSend n) s (fun t => (t.port n).busRun = some x ∧ Keeps (fun a => a = SP_SET_STATUS n) s t)

/-- A set's last write starts in a settings window; one sent in a later window than its target requires is counted and
reported (R46, R48). -/
def setLastWrite (s : State) (n : Nat) (x : Xfer) (q : SetQ) : Prop :=
  n < 4 → s.unitOn (dSP n) = true → s.busPick n = some x → x.kind = 1 → x.stop = true → x.again = false →
  (s.port n).sets.sets.head? = some q →
  Runs (.setLastWrite n) s (fun t =>
    (t.port n).busRun = some x ∧ Keeps (fun a => a = SP_SET_STATUS n ∨ a = SP_SET_LATE n) s t ∧
    (if x.from_ = (q.target + 2 ^ 32 - s.f (SP_SET_CFG_lat n)) % 2 ^ 32 then t.rd (SP_SET_LATE n) = s.rd (SP_SET_LATE n)
     else t.rd (SP_SET_LATE n) = s.rd (SP_SET_LATE n) + 1 ∧ Told (0x10 + n) 0x20 q.target s t))

/-- A waiting link command starts at a transfer boundary (R76, R108). -/
def mapCmdSend (s : State) (n : Nat) (x : Xfer) : Prop :=
  n < 4 → s.unitOn (dSP n) = true → s.busPick n = some x → x.kind = 0 →
  Runs (.mapCmdSend n) s (fun t => (t.port n).busRun = some x ∧ Keeps (fun _ => False) s t)

/-- At a boundary the transfer of highest priority starts (R108). -/
def busTransferStart (s : State) (n : Nat) (x : Xfer) : Prop :=
  n < 4 → s.unitOn (dSP n) = true → s.busPick n = some x →
  Runs (.busTransferStart n) s (fun t =>
    (t.port n).busRun = some x ∧ Keeps (fun a => a = SP_SET_STATUS n ∨ a = SP_SET_LATE n) s t)

/-- A first NACK is retried at the next boundary (R109). -/
def busNack (s : State) (n : Nat) (x : Xfer) (b : Byte) : Prop :=
  n < 4 → s.unitOn (dSP n) = true → (s.port n).busRun = some x → x.again = false →
  Runs (.busTransferDone n true b) s (fun t =>
    (t.port n).busRun = none ∧ (t.port n).busAgain = some { x with again := true } ∧ Keeps (fun _ => False) s t)

/-- A direct transfer that ends shows its byte, done, and nack if its retry failed too (R108, R109). -/
def busDirect (s : State) (n : Nat) (x : Xfer) (nack : Bool) (b : Byte) : Prop :=
  n < 4 → s.unitOn (dSP n) = true → s.err.slots = [] → (s.port n).busRun = some x → x.kind = 2 →
  x.again = true ∨ nack = false →
  Runs (.busTransferDone n nack b) s (fun t =>
    (t.port n).busRun = none ∧ t.f (SP_DIR_STATUS_busy n) = 0 ∧ t.f (SP_DIR_STATUS_done n) = 1 ∧
    (if nack then t.f (SP_DIR_STATUS_nack n) = 1 ∧ t.rd (SP_BUS_NACK n) = s.rd (SP_BUS_NACK n) + 1 ∧ Told (0x10 + n) 0x0A x.addr s t
     else t.rd (SP_BUS_NACK n) = s.rd (SP_BUS_NACK n) ∧ (x.rd = true → t.f (SP_DIR_STATUS_rdata n) = b.toNat)) ∧
    Keeps (fun a => a = SP_DIR_STATUS n ∨ a = SP_BUS_NACK n) s t)

/-- A direct read waits for the bus, unless one is busy or the port is off (R83, R108). -/
def dirRead (s : State) (r : Requester) (n : Nat) (v : Word) : Prop :=
  n < 4 → s.unitOn (dSP n) = true →
  Writes (.dirRead r n v) r (fun a => a = SP_DIR_STATUS n) s (fun t =>
    if s.b (SP_DIR_STATUS_busy n) = true ∨ s.b (SP_CTRL_en n) = false
    then t.port n = s.port n ∧ t.rd (SP_DIR_STATUS n) = s.rd (SP_DIR_STATUS n)
    else (t.port n).dirQ = some { kind := 2, addr := bitsOf v.toNat 30 24, reg := bitsOf v.toNat 23 8, bytes := [], rd := true, stop := true } ∧
      t.f (SP_DIR_STATUS_busy n) = 1 ∧ t.f (SP_DIR_STATUS_done n) = 0 ∧ t.f (SP_DIR_STATUS_nack n) = 0)

/-- A direct write waits for the bus likewise, with its byte (R83, R108). -/
def dirWrite (s : State) (r : Requester) (n : Nat) (v : Word) : Prop :=
  n < 4 → s.unitOn (dSP n) = true →
  Writes (.dirWrite r n v) r (fun a => a = SP_DIR_STATUS n) s (fun t =>
    if s.b (SP_DIR_STATUS_busy n) = true ∨ s.b (SP_CTRL_en n) = false
    then t.port n = s.port n ∧ t.rd (SP_DIR_STATUS n) = s.rd (SP_DIR_STATUS n)
    else (t.port n).dirQ = some { kind := 2, addr := bitsOf v.toNat 30 24, reg := bitsOf v.toNat 23 8, bytes := [BitVec.ofNat 8 v.toNat], rd := false, stop := true } ∧
      t.f (SP_DIR_STATUS_busy n) = 1 ∧ t.f (SP_DIR_STATUS_done n) = 0 ∧ t.f (SP_DIR_STATUS_nack n) = 0)

/-- An in-band interrupt is accepted in the I3C mode of an enabled port (R107). -/
def ibi (s : State) (n : Nat) (b : Byte) : Prop :=
  n < 4 → s.unitOn (dSP n) = true → s.b (SP_CTRL_en n) = true → s.f (SP_BUS_CFG_mode n) = 0 →
  Runs (.ibi n b) s (fun t => Told (0x10 + n) 0x0B b.toNat s t ∧ Keeps (fun _ => False) s t)

/-- The registers in which a capture shows what it refuses or finds in error (R136, R152, R153, R165, R175, R180). -/
abbrev judgeShown (n a : Nat) : Prop :=
  a = IP_FRONT_STATUS n ∨ a = IP_CLR_STATUS n ∨ a = IP_ST_STATUS n ∨
    (List.range 4).any (fun b => a == IP_O_STATUS n b || a == IP_T_STATUS n b) = true

/-- With no capture running, COMMIT captures the shadow registers into a new pending commit; it is refused with four
pending, or with a target not ahead of the last one's (R53, R54). -/
def commit (s : State) (r : Requester) (n : Nat) (v : Word) : Prop :=
  n < 4 → s.unitOn (dIP n) = true → (s.ip n).commits.any (·.capturing) = false →
  Runs (.commit r n v) s (fun t =>
    let p := s.ip n
    let g := (s.rd (IP_COMMIT_TARGET n)).toNat
    Answered r 0 t ∧ MemBut (fun _ => False) s t ∧
    if 4 ≤ p.commits.length ∨ p.commits.getLast?.any (fun c => !ahead g c.target) = true
    then t.f (IP_COMMIT_STATUS_refused n) = 1 ∧ t.ip n = p ∧ RegsBut (fun a => a = IP_COMMIT_STATUS n) s t
    else (t.ip n).commits.length = p.commits.length + 1 ∧
      (t.ip n).commits.getLast?.map (fun c => (c.target, c.seq, c.mask, c.capturing)) = some (g, v.toNat % 65536, p.touched, true) ∧
      (t.ip n).touched = 0 ∧ t.f (IP_COMMIT_STATUS_pending n) = p.commits.length + 1 ∧
      t.f (IP_COMMIT_STATUS_capturing n) = 1 ∧ RegsBut (fun a => a = IP_COMMIT_STATUS n ∨ a = IP_CLR_LOAD n ∨ judgeShown n a) s t)

/-- The capture that runs ends, 2 µs after its commit; the loads may start (R53, R156). -/
def commitCaptureDone (s : State) (n : Nat) : Prop :=
  n < 4 → s.unitOn (dIP n) = true → Calm s → (s.ip n).commits.any (·.capturing) = true →
  Runs (.commitCaptureDone n) s (fun t =>
    (t.ip n).commits = (s.ip n).commits.map (fun c => { c with capturing := false }) ∧ (s.ip n).dueAt ≤ t.now ∧
    t.f (IP_COMMIT_STATUS_capturing n) = 0 ∧
    Keeps (fun a => a = IP_COMMIT_STATUS n ∨ a = IP_CLR_LOAD n) s t)

/-- The load that runs completes: its group is loaded (R156). -/
def tableLoadDone (s : State) (n : Nat) (i g : Nat) : Prop :=
  n < 4 → s.unitOn (dIP n) = true → s.err.slots = [] → nextLoad (s.ip n) = some (i, g) →
  Runs (.tableLoadDone n) s (fun t =>
    (t.ip n).commits[i]?.map (·.todo) = (s.ip n).commits[i]?.map (fun c => c.todo.erase g) ∧
    Keeps (fun a => a = IP_COMMIT_STATUS n ∨ a = IP_CLR_LOAD n ∨ a = IP_CLR_STATUS n) s t)

/-- A frame waiting at the crossing enters unpack with its identity (R54, R119). -/
def frameEnterUnpack (s : State) (n : Nat) (i : FrameInfo) (d fm fv k : Nat) (rest : List RowItem) : Prop :=
  n < 4 → s.unitOn (dIP n) = true → (s.port n).fifo = .start i d fm fv k :: rest →
  Runs (.frameEnterUnpack n) s (fun t =>
    (t.port n).fifo = rest ∧ (t.ip n).frames.getLast?.map (fun f => (f.info, f.depth, f.readouts)) = some (i, d, k) ∧
    Keeps (fun a => a = IP_COMMIT_STATUS n ∨ a = IP_CLR_LOAD n ∨ a = IP_CAL_CTRL n ∨ a = IP_CAL_STATUS n ∨
      a = IP_OB_EST n 0 ∨ a = IP_OB_EST n 1 ∨ a = IP_OB_EST n 2 ∨ a = IP_OB_EST n 3) s t)

/-! ### Javel lanes (R57 to R81) -/

/-- A register of port `n`. -/
abbrev ofPort (n a : Nat) : Prop := SP_CTRL n ≤ a ∧ a < SP_CTRL n + 0x100000

/-- The registers that show the lanes and the link. -/
abbrev linkShown (n a : Nat) : Prop := a = SP_JV_STATUS n ∨ (List.range 12).any (fun k => a == SP_LANE_STATUS n k) = true

/-- The registers that a frame's close shows or counts in (R98, R99). -/
abbrev closeShown (n a : Nat) : Prop := a = SP_STATUS n ∨ a = SP_SHORT n ∨ a = SP_TRUNC n

/-- The registers of a group's verdict (R102). -/
abbrev groupShown (a : Nat) : Prop :=
  (List.range 4).any (fun g => a == SP0_GRP_INCOMPLETE g || a == SP0_GRP_MISS_MASK g || a == SP0_GRP_MISS_RFN g) = true

/-- A lane's block with a valid sync header and no injection armed: in HUNT it starts verifying, in VERIFY the 128th in a
row brings LOCKED, and under lock a lane in use hands on the descrambled block (R58 to R60). -/
def blockReceived (s : State) (n k : Nat) (h : BitVec 2) (p : BitVec 64) : Prop :=
  n < 4 → k < 12 → s.jvOn n = true → h = 1 ∨ h = 2 → s.fenced n k = false → s.err.slots = [] →
  Runs (.blockReceived n k h p) s (fun t =>
    (t.lane n k).hist = (descramble (s.lane n k).hist p).2 ∧
    (if s.f (SP_LANE_STATUS_lock n k) = 0 then t.f (SP_LANE_STATUS_lock n k) = 1 ∧ (t.lane n k).valid = 1
     else if s.f (SP_LANE_STATUS_lock n k) = 1 then
       (if (s.lane n k).valid + 1 < 128 then t.f (SP_LANE_STATUS_lock n k) = 1 ∧ (t.lane n k).valid = (s.lane n k).valid + 1
        else t.f (SP_LANE_STATUS_lock n k) = 2)
     else (s.usable n k = true → (t.lane n k).out = some (h == 2, (descramble (s.lane n k).hist p).1)) ∧
       RegsBut (fun _ => False) s t) ∧
    RegsBut (fun a => a = SP_JV_STATUS n ∨ a = SP_LANE_STATUS n k ∨ closeShown n a) s t ∧ MemBut (fun _ => False) s t)

/-- An invalid sync header in HUNT or VERIFY slips the block boundary by one bit, and the lane hunts (R60). -/
def blockSlips (s : State) (n k : Nat) (p : BitVec 64) : Prop :=
  n < 4 → k < 12 → s.jvOn n = true → s.f (SP_LANE_STATUS_lock n k) < 2 →
  Runs (.blockReceived n k 0 p) s (fun t =>
    (t.lane n k).slip = ((s.lane n k).slip + 1) % 66 ∧ t.f (SP_LANE_STATUS_lock n k) = 0 ∧
    RegsBut (fun a => a = SP_JV_STATUS n ∨ a = SP_LANE_STATUS n k) s t ∧ MemBut (fun _ => False) s t)

/-- An ALIGN column that shows every locked active lane and the spare in its place under one sequence number, within 16
blocks of one another, aligns the port at once (R70). -/
def alignFirst (s : State) (n : Nat) (seen : List AlignSeen) (q : Nat) : Prop :=
  n < 4 → seen.length = 12 → s.err.slots = [] →
  s.jvOn n = true → s.b (SP_JV_STATUS_aligned n) = false → (s.port n).jv.win = none → s.activeLanes n ≠ [] →
  s.b (SP_JV_STATUS_link_up n) = false → (List.range 12).all (fun k => !wrongAlign seen k) = true →
  (s.skewLanes n).all (fun k => s.locked n k && (rightAlign seen k).any (fun a => a.1 == q && decide (a.2 ≤ 16))) = true →
  Runs (.alignColumn n seen) s (fun t =>
    t.b (SP_JV_STATUS_aligned n) = true ∧ (t.port n).jv.seq = q ∧ (t.port n).jv.fails = 0 ∧
    (s.skewLanes n).all (fun k => (t.lane n k).alignAt.isSome) = true ∧
    RegsBut (fun a => a = SP_JV_STATUS n ∨ a = SP_STATUS n) s t ∧ MemBut (fun _ => False) s t)

/-- The block that every usable lane of a column delivers, by the lanes a column is read from (R65, R66). -/
abbrev Shows (s : State) (n : Nat) (col : Column) (b : Block) : Prop :=
  col.length = 12 ∧ s.copies n col ≠ [] ∧ (s.copies n col).all (fun x => x == b) = true

/-- A deskew window that ends, 16 blocks after it opened, with a lane missing is a failed attempt; the third in a row is
reported (R70). -/
def deskewWindowEnd (s : State) (n : Nat) (q : Nat) (g : List Nat) (w : Nat) : Prop :=
  n < 4 → s.jvOn n = true → (s.port n).jv.win = some (q, g, w) → Calm s →
  Runs (.deskewWindowEnd n) s (fun t =>
    (t.port n).jv.win = none ∧ (t.port n).jv.fails = (s.port n).jv.fails + 1 ∧ w + s.skewTime n ≤ t.now ∧
    (if (s.port n).jv.fails = 2 then t.f (SP_JV_STATUS_deskew_fail n) = 1 ∧ Told (0x10 + n) 0x44 0 s t
     else t.rd (SP_JV_STATUS n) = s.rd (SP_JV_STATUS n)) ∧
    Keeps (fun a => a = SP_JV_STATUS n) s t)

/-- A control column of a type that R62 does not list, or of CMD, is counted (R64). -/
def unknownControlBlock (s : State) (n : Nat) (col : Column) (b : Block) : Prop :=
  n < 4 → s.jvUp n = true → s.err.slots = [] → Shows s n col b → b.1 = 2 →
  b.2.toNat % 256 ∉ [0x1E, 0x2D, 0x33, 0x4B, 0x55, 0x66] → s.b (SP_STATUS_discarding n) = false →
  Runs (.unknownControlBlock n col) s (fun t =>
    t.rd (SP_JV_UNKNOWN n) = s.rd (SP_JV_UNKNOWN n) + 1 ∧ Keeps (fun a => a = SP_JV_UNKNOWN n) s t)

/-- A judging interval of 1 ms ends: every lane's error count starts again at 0 (R73). -/
def laneJudgeInterval (s : State) (n k : Nat) : Prop :=
  n < 4 → k < 12 → s.unitOn (dSP n) = true → s.b (SP_JV_CTRL_en n) = true → Calm s →
  Runs (.laneJudgeInterval n) s (fun t =>
    (t.lane n k).errs = 0 ∧ (s.port n).jv.tick < (t.port n).jv.tick ∧ (s.port n).jv.tick + Config.ms ≤ t.now ∧
    RegsBut (fun a => linkShown n a ∨ closeShown n a ∨ (List.range 12).any (fun i => a == SP_LANE_RETRY n i) = true ∨ a = ERR_LAST) s t ∧ MemBut (fun _ => False) s t)

/-- JV_CHG starts a lane-map change: ignored while one runs or the receiver is off, refused if the staged map places a
fenced lane; else the staged map waits for its generation, and the link command for the sensor bus (R75 to R77). -/
def jvChgGo (s : State) (r : Requester) (n : Nat) (v : Word) : Prop :=
  n < 4 → s.unitOn (dSP n) = true →
  Writes (.jvChgGo r n v) r (fun a => a = SP_JV_STATUS n) s (fun t =>
    if s.b (SP_JV_STATUS_chg_busy n) = true ∨ s.b (SP_JV_CTRL_en n) = false
    then t.port n = s.port n ∧ t.rd (SP_JV_STATUS n) = s.rd (SP_JV_STATUS n)
    else if (s.stagedMap n).any (fun k => s.fenced n k) = true then t.f (SP_JV_STATUS_bad_write n) = 1 ∧ t.port n = s.port n
    else t.f (SP_JV_STATUS_chg_busy n) = 1 ∧ (t.port n).mapQ.length = (s.port n).mapQ.length + 2 ∧
      (t.port n).jv.chg = some { map := s.stagedMap n, spare := s.stagedSpare n, gen := (s.f (SP_JV_STATUS_gen n) + 1) % 256 })

/-- A change whose generation no SOF has shown for the frames of its time-out is reported, once (R76). -/
def mapTimeout (s : State) (n : Nat) (c : MapChg) : Prop :=
  n < 4 → s.unitOn (dSP n) = true → (s.port n).jv.chg = some c → c.sent = true → c.told = false → s.f (SP_JV_CMD_ADDR_timeout n) ≤ c.frames →
  Runs (.mapTimeout n) s (fun t =>
    t.f (SP_JV_STATUS_map_timeout n) = 1 ∧ (t.port n).jv.chg = some { c with told := true } ∧ Told (0x10 + n) 0x45 0 s t ∧
    Keeps (fun a => a = SP_JV_STATUS n) s t)

/-- readapt: the lane's taps start again from the preset of the lane rate, and it hunts (R57). -/
def laneReadapt (s : State) (r : Requester) (n k : Nat) : Prop :=
  n < 4 → k < 12 → s.unitOn (dSP n) = true → (s.port n).frame = none →
  Writes (.laneReadapt r n k) r (linkShown n) s (fun t =>
    t.f (SP_LANE_STATUS_lock n k) = 0 ∧ (t.lane n k).taps = (s.port n).jv.rate ∧ (t.lane n k).valid = 0)

/-- readmit: a fenced lane hunts from its preset and is judged for re-admission; for another lane the write is ignored
(R75). -/
def laneReadmit (s : State) (r : Requester) (n k : Nat) : Prop :=
  n < 4 → k < 12 → s.unitOn (dSP n) = true →
  Writes (.laneReadmit r n k) r (fun a => a = SP_LANE_CTRL n k ∨ a = SP_LANE_STATUS n k ∨ a = SP_JV_STATUS n) s (fun t =>
    if s.fenced n k = true then (t.lane n k).readmit = some 0 ∧ t.f (SP_LANE_STATUS_lock n k) = 0
    else t.lane n k = s.lane n k ∧ RegsBut (fun _ => False) s t)

/-- cnt_clr: both PRBS counters of the lane read 0 (R80). -/
def prbsCntClr (s : State) (r : Requester) (n k : Nat) : Prop :=
  n < 4 → k < 12 → s.unitOn (dSP n) = true →
  Writes (.prbsCntClr r n k) r (fun a => a = SP_LANE_CTRL n k ∨ a = SP_LANE_PRBS_ERR n k ∨ a = SP_LANE_PRBS_BITS_LO n k ∨
      a = SP_LANE_PRBS_BITS_HI n k) s (fun t =>
    t.rd (SP_LANE_PRBS_ERR n k) = 0 ∧ t.pair (SP_LANE_PRBS_BITS_LO n k) (SP_LANE_PRBS_BITS_HI n k) = 0)

/-- margin_go with a time: the margin test runs for margin_ms, its result cleared, which is the model's choice (log 23; R81). -/
def marginGo (s : State) (r : Requester) (n k : Nat) (v : Word) : Prop :=
  n < 4 → k < 12 → s.unitOn (dSP n) = true → bitsOf v.toNat 3 1 = 0 → bitsOf v.toNat 23 16 ≠ 0 →
  Writes (.marginGo r n k v) r (fun a => a = SP_LANE_CTRL n k ∨ a = SP_LANE_STATUS n k) s (fun t =>
    (t.lane n k).margin = some (t.now + bitsOf v.toNat 23 16 * Config.ms) ∧ t.f (SP_LANE_STATUS_margin_done n k) = 0)

/-- The margin test ends: it passed if no block disagreed (R81). -/
def marginDone (s : State) (n k : Nat) (d : Nat) (bad : Bool) : Prop :=
  n < 4 → s.unitOn (dSP n) = true → k < 12 → Calm s → (s.lane n k).margin = some d →
  Runs (.marginDone n k bad) s (fun t =>
    (t.lane n k).margin = none ∧ d ≤ t.now ∧ t.f (SP_LANE_STATUS_margin_done n k) = 1 ∧
    t.f (SP_LANE_STATUS_margin_pass n k) = (if bad then 0 else 1) ∧ Keeps (fun a => a = SP_LANE_STATUS n k) s t)

/-- A raw bit at a checker in sync counts, and counts as an error if it is not the sequence's; both counters stop at
their largest value (R79, R80). -/
def prbsCheck (s : State) (n k d q : Nat) (b : Bool) : Prop :=
  n < 4 → k < 12 → s.unitOn (dSP n) = true → s.b (SP_JV_CTRL_en n) = true → s.b (SP_JV_CTRL_test n) = true →
  prbsPoly (s.f (SP_LANE_CTRL_prbs n k)) = some (d, q) → s.b (SP_LANE_STATUS_prbs_sync n k) = true → s.err.slots = [] →
  Runs (.prbsCheck n k [b]) s (fun t =>
    t.pair (SP_LANE_PRBS_BITS_LO n k) (SP_LANE_PRBS_BITS_HI n k) =
      min (s.pair (SP_LANE_PRBS_BITS_LO n k) (SP_LANE_PRBS_BITS_HI n k) + 1) (2 ^ 48 - 1) ∧
    (t.rd (SP_LANE_PRBS_ERR n k)).toNat =
      (if prbsNext d q (s.lane n k).prbs.seq = b then (s.rd (SP_LANE_PRBS_ERR n k)).toNat
       else min ((s.rd (SP_LANE_PRBS_ERR n k)).toNat + 1) (2 ^ 32 - 1)) ∧
    Keeps (fun a => a = SP_LANE_PRBS_ERR n k ∨ a = SP_LANE_PRBS_BITS_LO n k ∨ a = SP_LANE_PRBS_BITS_HI n k ∨
      a = SP_LANE_STATUS n k) s t)

/-- The rate wait ends: the receivers take the new rate, and every lane hunts from its preset (R78). -/
def rateSwitch (s : State) (n k c d : Nat) : Prop :=
  n < 4 → s.unitOn (dSP n) = true → k < 12 → Calm s → (s.port n).jv.newRate.head? = some (c, some d) →
  Runs (.rateSwitch n) s (fun t =>
    (t.port n).jv.rate = c ∧ (t.port n).jv.newRate = (s.port n).jv.newRate.drop 1 ∧ d ≤ t.now ∧ t.f (SP_LANE_STATUS_lock n k) = 0 ∧
    (t.lane n k).taps = c ∧ RegsBut (fun a => linkShown n a ∨ closeShown n a) s t ∧ MemBut (fun _ => False) s t)

/-- The receiver is enabled at the rate it has: the staged map comes into force, unless it lists a fenced lane, and no lane
holds lock (R56, R57, R77). -/
def jvEnable (s : State) (r : Requester) (n : Nat) (v : Word) (k : Nat) : Prop :=
  n < 4 → k < 12 → s.unitOn (dSP n) = true → s.b (SP_JV_CTRL_en n) = false → bitsOf v.toNat 4 2 ≤ 5 →
  bitsOf v.toNat 4 2 = s.f (SP_JV_CTRL_rate n) → (s.stagedMap n).all (fun k => !s.fenced n k) = true →
  Writes (.jvEnable r n v) r (fun a => a = SP_JV_CTRL n ∨ a = SP_JV_STATUS n ∨
      (List.range 12).any (fun i => a == SP_LANE_STATUS n i) = true) s (fun t =>
    t.b (SP_JV_CTRL_en n) = true ∧ (t.port n).jv.map = s.stagedMap n ∧ (t.port n).jv.spare = s.stagedSpare n ∧
    t.b (SP_JV_STATUS_aligned n) = false ∧ t.f (SP_LANE_STATUS_lock n k) = 0)

/-- A changed lane rate is taken while the port is idle and its code stands: the sensor's link command waits for the bus;
else bad_write is set and nothing changes (R78). -/
def jvRateWrite (s : State) (r : Requester) (n : Nat) (v : Word) : Prop :=
  n < 4 → s.unitOn (dSP n) = true → bitOf v.toNat 0 = s.b (SP_JV_CTRL_en n) → bitsOf v.toNat 4 2 ≠ s.f (SP_JV_CTRL_rate n) →
  Writes (.jvRateWrite r n v) r (fun a => a = SP_JV_CTRL n ∨ a = SP_JV_STATUS n) s (fun t =>
    if 5 < bitsOf v.toNat 4 2 ∨ s.b (SP_STATUS_idle n) = false
    then t.f (SP_JV_STATUS_bad_write n) = 1 ∧ t.rd (SP_JV_CTRL n) = s.rd (SP_JV_CTRL n) ∧ t.port n = s.port n
    else t.f (SP_JV_CTRL_rate n) = bitsOf v.toNat 4 2 ∧ (t.port n).jv.newRate = (s.port n).jv.newRate ++ [(bitsOf v.toNat 4 2, none)] ∧
      (t.port n).mapQ.length = (s.port n).mapQ.length + 2)

/-! ### Sensor ports (R39, R83 to R106) -/

/-- The port is enabled: PFNs start at 0 (R39, R83). -/
def portEnable (s : State) (r : Requester) (n : Nat) (v : Word) : Prop :=
  n < 4 → s.unitOn (dSP n) = true → s.b (SP_CTRL_en n) = false → s.stripMode n = false →
  Writes (.portEnable r n v) r (fun a => a = SP_CTRL n ∨ a = SP_PFN n ∨ a = SP_STATUS n) s (fun t =>
    t.b (SP_CTRL_en n) = true ∧ t.f (SP_PFN_pfn n) = 0 ∧ (t.port n).nextPfn = 0)

/-- An enabled port without strips is disabled: its open frame closes at once, and it discards up to the next SOF (R84,
R98). -/
def portDisable (s : State) (r : Requester) (n : Nat) (v : Word) : Prop :=
  n < 4 → s.unitOn (dSP n) = true → s.b (SP_CTRL_en n) = true → bitOf v.toNat 2 = s.b (SP_CTRL_phy n) →
  s.stripMode n = false → (s.port n).ss.strips = [] →
  Writes (.portDisable r n v) r (fun a => a = SP_CTRL n ∨ a = SP_STATUS n ∨ a = SP_TRUNC n) s (fun t =>
    t.b (SP_CTRL_en n) = false ∧ (t.port n).frame = none ∧ t.b (SP_STATUS_frame_open n) = false ∧
    ((s.port n).frame.isSome = true → t.b (SP_STATUS_discarding n) = true))

/-- The port receives from the next SOF on (R84). -/
def portRun (s : State) (r : Requester) (n : Nat) (v : Word) : Prop :=
  n < 4 → s.unitOn (dSP n) = true → s.b (SP_CTRL_en n) = true → bitsOf v.toNat 2 0 = 1 + 4 * s.f (SP_CTRL_phy n) →
  s.stripMode n = false →
  Writes (.portRun r n v) r (fun a => a = SP_CTRL n ∨ a = SP_STATUS n) s (fun t =>
    t.running n = true ∧ (t.port n).frame = (s.port n).frame ∧ t.b (SP_STATUS_idle n) = false)

/-- Reception stops: an open frame is still completed, and idle is set once none is open (R84). -/
def portStop (s : State) (r : Requester) (n : Nat) (v : Word) : Prop :=
  n < 4 → s.unitOn (dSP n) = true → s.b (SP_CTRL_en n) = true → bitOf v.toNat 0 = true →
  bitOf v.toNat 2 = s.b (SP_CTRL_phy n) → (s.port n).ss.strips = [] →
  Writes (.portStop r n v) r (fun a => a = SP_CTRL n ∨ a = SP_STATUS n) s (fun t =>
    t.running n = false ∧ (t.port n).frame = (s.port n).frame ∧ t.b (SP_STATUS_idle n) = (s.port n).frame.isNone)

/-- xclk_en rises: SPn_XCLK runs from the divisor and source now configured (R104). -/
def xclkEnable (s : State) (r : Requester) (n : Nat) (v : Word) : Prop :=
  n < 4 → s.unitOn (dSP n) = true → bitsOf v.toNat 2 0 = bitsOf (s.rd (SP_CTRL n)).toNat 2 0 → s.b (SP_CTRL_xclk_en n) = false →
  bitOf v.toNat 4 = true →
  Writes (.xclkEnable r n v) r (fun a => a = SP_CTRL n ∨ a = SP_STATUS n) s (fun t =>
    t.b (SP_CTRL_xclk_en n) = true ∧ (t.port n).xclk = some (s.f (SP_XCLK_CFG_div n), s.f (SP_XCLK_CFG_src n)))

/-- A frame size of even width and height with a width up to 32,768 is taken; another sets bad_write (R85). -/
def frameSizeWrite (s : State) (r : Requester) (n : Nat) (v : Word) : Prop :=
  n < 4 → s.unitOn (dSP n) = true →
  Writes (.frameSizeWrite r n v) r (fun a => a = SP_FRAME_SIZE n ∨ a = SP_STATUS n) s (fun t =>
    if bitsOf v.toNat 15 0 % 2 = 0 ∧ bitsOf v.toNat 31 16 % 2 = 0 ∧ bitsOf v.toNat 15 0 ≤ 32768
    then t.rd (SP_FRAME_SIZE n) = v ∧ t.rd (SP_STATUS n) = s.rd (SP_STATUS n)
    else t.rd (SP_FRAME_SIZE n) = s.rd (SP_FRAME_SIZE n) ∧ t.f (SP_STATUS_bad_write n) = 1)

/-- A divisor that keeps SPn_XCLK from 6 to 74.25 MHz is taken; another sets bad_write (R104). -/
def xclkCfgWrite (s : State) (r : Requester) (n : Nat) (v : Word) : Prop :=
  n < 4 → s.unitOn (dSP n) = true → bitOf v.toNat 16 = false →
  Writes (.xclkCfgWrite r n v) r (fun a => a = SP_XCLK_CFG n ∨ a = SP_STATUS n) s (fun t =>
    if 6000000 * bitsOf v.toNat 15 0 ≤ 625000000 * 256 ∧ 625000000 * 256 ≤ 74250000 * bitsOf v.toNat 15 0
    then t.f (SP_XCLK_CFG_div n) = bitsOf v.toNat 15 0 ∧ t.f (SP_XCLK_CFG_src n) = 0 ∧ t.rd (SP_STATUS n) = s.rd (SP_STATUS n)
    else t.rd (SP_XCLK_CFG n) = s.rd (SP_XCLK_CFG n) ∧ t.f (SP_STATUS_bad_write n) = 1)

/-- The edge of SPn_SYNC that the mode picks is reported (R106). -/
def syncEdge (s : State) (n a : Nat) (up : Bool) : Prop :=
  n < 4 → Calm s → s.unitOn (dSP n) = true → s.f (SP_SYNC_CFG_mode n) = (if up then 1 else 2) →
  Runs (.syncEdge a n up) s (fun t => Told (0x10 + n) 9 0 s t ∧ t.now = max s.now a ∧ Keeps (fun _ => False) s t)

/-- The registers a frame's start shows or counts in. -/
abbrev sofShown (n a : Nat) : Prop :=
  a = SP_PFN n ∨ a = SP_STATUS n ∨ a = SP_SID_NOW n ∨ a = SP_JV_STATUS n ∨ a = THM_T2_DROP n

/-- A port that receives opens a frame at an SOF: it has the next PFN, the size written and the sensor's counter (R39, R41,
R62, R85). -/
def sofReceived (s : State) (n a : Nat) (col : Column) (b : Block) : Prop :=
  n < 4 → Calm s → s.jvUp n = true → s.stripMode n = false → s.running n = true → (s.port n).frame = none →
  Shows s n col b → b.1 = 2 → b.2.toNat % 256 = 0x33 →
  (s.port n).jv.chg = none → look s.cfg.hold n = none → s.cfg.todo = [] →
  s.f (SP_FRAME_SIZE_width n) ≠ 0 → s.f (SP_FRAME_SIZE_height n) ≠ 0 →
  Runs (.sofReceived a n col) s (fun t =>
    (t.port n).frame.map (fun f => (f.info.pfn, f.w, f.h, f.info.counter)) =
      some ((s.port n).nextPfn, s.f (SP_FRAME_SIZE_width n), s.f (SP_FRAME_SIZE_height n), bitsOf b.2.toNat 23 8) ∧
    (t.port n).nextPfn = ((s.port n).nextPfn + 1) % 2 ^ 32 ∧ t.b (SP_STATUS_frame_open n) = true ∧
    t.b (SP_STATUS_discarding n) = false ∧ Told (0x10 + n) 0 (s.port n).nextPfn s t ∧
    RegsBut (sofShown n) s t ∧ MemBut (fun _ => False) s t)

/-- An EOF closes the open frame, with FRAME_END (R62, R98). -/
def eofReceived (s : State) (n a : Nat) (col : Column) (b : Block) (f : OpenSt) : Prop :=
  n < 4 → Calm s → s.jvUp n = true → s.stripMode n = false → s.b (SP_STATUS_discarding n) = false →
  Shows s n col b → b.1 = 2 → b.2.toNat % 256 = 0x66 → (s.port n).frame = some f →
  Runs (.eofReceived a n col) s (fun t =>
    (t.port n).frame = none ∧ Told (0x10 + n) 1 f.info.pfn s t ∧
    RegsBut (fun x => closeShown n x ∨ groupShown x) s t ∧ MemBut (fun _ => False) s t)

/-- A line of the open frame whose header and payload pass every check, with room in the crossing FIFO, crosses as its row
with its pixels; rows before it that no line brought cross as filled (R63, R66, R67, R86, R95, R96). -/
def lineReceived (s : State) (n a : Nat) (l : JavelLine) (b : Block) (f : OpenSt) (y dtype len : Nat) : Prop :=
  n < 4 → Calm s → s.jvUp n = true → s.stripMode n = false → s.b (SP_STATUS_discarding n) = false →
  (s.port n).frame = some f → f.withheld = false → f.readouts = 1 → f.next = [f.out] → f.lines = [] →
  Shows s n l.sol b → solOk b = true → l.eol.length = 12 → l.data.all (fun c => c.length == 12) = true →
  bitsOf b.2.toNat 9 8 = 0 → y = bitsOf b.2.toNat 31 16 →
  dtype = bitsOf b.2.toNat 15 10 → 0x2B ≤ dtype → dtype ≤ 0x2E → dtype = f.dtype → len = bitsOf b.2.toNat 55 32 →
  typesSplit (s.copies n l.eol) = false → s.lineBad n len l false = false → len = lineBytes dtype f.w → f.out ≤ y → y < f.h →
  fifoLines (s.port n) < 8 →
  Runs (.lineReceived a n l) s (fun t =>
    (t.port n).fifo.length = (s.port n).fifo.length + (y + 1 - f.out) ∧
    (t.port n).fifo.getLast? = some (.row [some ((unpackLsb (depthOf dtype) f.w ((s.striped n l.data).1.take len)).map some)] false) ∧
    (t.port n).frame.map (·.out) = some (y + 1) ∧ Keeps (fun _ => False) s t)

/-- A line with no frame open and a frame size in force is stray input: its columns count in SPn_DISCARD (R100). -/
def lineStray (s : State) (n a : Nat) (l : JavelLine) : Prop :=
  n < 4 → Calm s → s.jvUp n = true → s.stripMode n = false → (s.port n).frame = none →
  l.sol.length = 12 → l.eol.length = 12 → l.data.all (fun c => c.length == 12) = true →
  s.g (SP_FRAME_SIZE_width n) ≠ 0 → s.g (SP_FRAME_SIZE_height n) ≠ 0 →
  Runs (.lineReceived a n l) s (fun t =>
    t.rd (SP_DISCARD n) = s.rd (SP_DISCARD n) + BitVec.ofNat 32 (l.data.length + 2) ∧ Keeps (fun x => x = SP_DISCARD n) s t)

/-- A CSI-2 frame start on a mapped channel of a receiving port opens a frame with the next PFN (R39, R92, R93). -/
def csiFrameStart (s : State) (n a vc : Nat) (c : BitVec 16) : Prop :=
  n < 4 → vc < 4 → Calm s → s.csiOn n = true → s.stripMode n = false → s.running n = true → (s.port n).frame = none →
  look s.cfg.hold n = none → s.cfg.todo = [] → bitOf (s.rd (SP_CSI_VC_MAP n)).toNat (4 * vc + 2) = true →
  s.f (SP_FRAME_SIZE_width n) ≠ 0 → s.f (SP_FRAME_SIZE_height n) ≠ 0 →
  Runs (.csiFrameStart a n vc c .good) s (fun t =>
    (t.port n).frame.map (fun f => (f.info.pfn, f.w, f.h, f.info.counter, f.begun)) =
      some ((s.port n).nextPfn, s.f (SP_FRAME_SIZE_width n), s.f (SP_FRAME_SIZE_height n), c.toNat, [vc]) ∧
    Told (0x10 + n) 0 (s.port n).nextPfn s t ∧ RegsBut (sofShown n) s t ∧ MemBut (fun _ => False) s t)

/-- The frame end of the last channel that started closes the frame (R93). -/
def csiFrameEnd (s : State) (n a vc : Nat) (f : OpenSt) : Prop :=
  n < 4 → vc < 4 → Calm s → s.csiOn n = true → s.stripMode n = false → (s.port n).frame = some f → f.begun = [vc] →
  Runs (.csiFrameEnd a n vc .good) s (fun t =>
    (t.port n).frame = none ∧ Told (0x10 + n) 1 f.info.pfn s t ∧
    RegsBut (fun x => closeShown n x ∨ groupShown x) s t ∧ MemBut (fun _ => False) s t)

/-- A CSI-2 long packet whose header ECC cannot correct is dropped and counted, and nothing crosses; where packets are
discarded it counts there too (R94, R100). -/
def csiBadHeader (s : State) (n a : Nat) (k : CsiLong) : Prop :=
  n < 4 → k.vc < 32 → k.dtype < 64 → Calm s → s.csiOn n = true → k.header = .bad →
  Runs (.csiLongPacket a n k) s (fun t =>
    t.rd (SP_CSI_HDR_ERR n) = s.rd (SP_CSI_HDR_ERR n) + 1 ∧ (t.port n).fifo = (s.port n).fifo ∧
    (s.b (SP_STATUS_discarding n) = true → t.rd (SP_DISCARD n) = s.rd (SP_DISCARD n) + 1) ∧
    Keeps (fun x => x = SP_CSI_HDR_ERR n ∨ x = SP_DISCARD n) s t)

/-- A good pixel packet of the frame's type and length crosses as its row, with room in the FIFO (R91, R92, R95, R96). -/
def csiLongPacket (s : State) (n a : Nat) (k : CsiLong) (f : OpenSt) : Prop :=
  n < 4 → k.vc < 4 → Calm s → s.csiOn n = true → s.stripMode n = false → s.b (SP_STATUS_discarding n) = false →
  k.header = .good → s.vcReadout n k.vc = some 0 → (s.port n).frame = some f → f.withheld = false → f.readouts = 1 →
  f.next = [f.out] → f.lines = [] → 0x2B ≤ k.dtype → k.dtype ≤ 0x2F → k.dtype = f.dtype → (s.port n).lineNo = [] →
  lookD f.vcLines 0 k.vc = f.out → f.out < f.h → k.payload.length = lineBytes k.dtype f.w → crc16 k.payload = k.crc.toNat →
  fifoLines (s.port n) < 8 →
  Runs (.csiLongPacket a n k) s (fun t =>
    (t.port n).fifo = (s.port n).fifo ++ [.row [some ((unpackCsi k.dtype f.w k.payload).map some)] false] ∧
    (t.port n).frame.map (·.out) = some (f.out + 1) ∧ Keeps (fun _ => False) s t)

/-- A line start gives the next packet of its channel its line number (R92). -/
def csiLineStart (s : State) (n vc : Nat) (c : BitVec 16) : Prop :=
  n < 4 → vc < 4 → s.csiOn n = true → (s.port n).frame.isSome = true → s.b (SP_STATUS_discarding n) = false →
  s.err.slots = [] →
  Runs (.csiLineStart n vc c .good) s (fun t =>
    lookD (t.port n).lineNo 0 vc = c.toNat ∧ (t.port n).frame = (s.port n).frame ∧ Keeps (fun _ => False) s t)

/-- No line for row_to µs: the frame closes early and the port discards up to the next SOF (R98). -/
def rowTimeout (s : State) (n : Nat) (f : OpenSt) : Prop :=
  n < 4 → s.unitOn (dSP n) = true → Calm s → (s.port n).frame = some f →
  Runs (.rowTimeout n) s (fun t =>
    (t.port n).frame = none ∧ t.b (SP_STATUS_discarding n) = true ∧ f.seen + max 1 (s.f (SP_FRAME_CFG_row_to n)) * Config.us ≤ t.now ∧
    Told (0x10 + n) 1 f.info.pfn s t ∧ Keeps (fun a => a = SP_STATUS n ∨ a = SP_TRUNC n) s t)

/-- A group's verdict for an RFN of which a member opened a frame: the absent members are noted and reported (R102,
R103). -/
def groupVerdict (s : State) (g rfn : Nat) (k : Tick) : Prop :=
  g < 4 → rfn < 2 ^ 32 → Calm s → s.ref.ticks.find? (fun x => x.rfn == rfn) = some k → s.present g rfn ≠ 0 →
  s.groups.any (fun e => e.1 == g && e.2.1 == rfn) = false → s.domOn (dSP 0) = true →
  Runs (.groupVerdict g rfn) s (fun t =>
    t.groups.head? = some (g, rfn, s.members g - s.present g rfn) ∧
    (if s.members g - s.present g rfn = 0 then RegsBut (fun _ => False) s t
     else t.rd (SP0_GRP_INCOMPLETE g) = s.rd (SP0_GRP_INCOMPLETE g) + 1 ∧ t.f (SP0_GRP_MISS_RFN_rfn g) = rfn ∧
       Told 0x10 8 (g * 256 + (s.members g - s.present g rfn)) s t ∧
       RegsBut (fun a => a = SP0_GRP_INCOMPLETE g ∨ a = SP0_GRP_MISS_RFN g ∨ a = SP0_GRP_MISS_MASK g) s t) ∧
    MemBut (fun _ => False) s t)

/-! ### Strip-scan (R381 to R391) -/

/-- A trigger edge of the chosen direction, not too early and not a strip's first, fires a line (R381, R382, R389). -/
def lineTrigger (s : State) (n a : Nat) (up : Bool) : Prop :=
  n < 4 → Calm s → s.unitOn (dSP n) = true → s.running n = true → s.stripMode n = true →
  s.f (SP_SS_CTRL_src n) = (if up then 0 else 1) → (s.port n).ss.bad = false → s.f (SP_SS_GEOM_n n) ≠ 0 →
  (s.port n).ss.made % s.f (SP_SS_GEOM_n n) ≠ 0 → s.now ≤ a →
  (s.port n).ss.last.all (fun l => decide (l + s.f (SP_SS_MINPER_ns n) * 1000 ≤ a)) = true →
  Runs (.lineTrigger a n up) s (fun t =>
    (t.port n).ss.made = (s.port n).ss.made + 1 ∧ (t.port n).ss.pulses = (s.port n).ss.pulses + 1 ∧ (t.port n).ss.last = some a ∧
    t.pair (SP_SS_FIRED_LO n) (SP_SS_FIRED_HI n) = (s.pair (SP_SS_FIRED_LO n) (SP_SS_FIRED_HI n) + 1) % 2 ^ 64 ∧
    t.pair (SP_SS_MISSED_LO n) (SP_SS_MISSED_HI n) = s.pair (SP_SS_MISSED_LO n) (SP_SS_MISSED_HI n) ∧
    RegsBut (fun x => x = SP_SS_FIRED_LO n ∨ x = SP_SS_FIRED_HI n ∨ x = SP_SS_STATUS n) s t ∧ MemBut (fun _ => False) s t)

/-- The colour rows of the oldest fired line that is not whole are filled when its time has passed (R383). -/
def ssRowTimeout (s : State) (n p : Nat) (l : SsLine) : Prop :=
  n < 4 → s.unitOn (dSP n) = true → Calm s → (s.port n).ss.fired.find? (fun e => decide (e.2.rows.length < s.ssRows n)) = some (p, l) →
  Runs (.ssRowTimeout n) s (fun t =>
    (look (t.port n).ss.fired p).all (fun x => (List.range (s.ssRows n)).all (fun r => (look x.rows r).isSome)) = true ∧
    l.at_ + max 1 (s.f (SP_FRAME_CFG_row_to n)) * Config.us ≤ t.now ∧ Keeps (fun _ => False) s t)

/-- An output line whose every source line is there is put out: the strip at hand has one line more (R385 to R387). -/
def outputLineComplete (s : State) (n : Nat) (x : StripSt) (rest : List StripSt) : Prop :=
  n < 4 → s.unitOn (dSP n) = true → s.err.slots = [] → (s.ssNext n).map (·.2) = some false → (s.port n).ss.strips = x :: rest →
  x.done + 1 < s.f (SP_SS_GEOM_n n) → s.f (SP_SS_MAP_SLOTS_slots n) = 0 →
  Runs (.outputLineComplete n []) s (fun t =>
    (t.port n).ss.outLine = (s.port n).ss.outLine + 1 ∧ (t.port n).ss.strips.head?.map (·.done) = some (x.done + 1) ∧
    RegsBut (fun a => a = SP_FIFO_OVF n) s t ∧ MemBut (fun _ => False) s t)

/-! ### Image pipelines (R119, R129, R159, R171 to R183) -/

/-- A register of pipeline `n`. -/
abbrev ofPipe (n a : Nat) : Prop := 0x42000000 + n * 0x100000 ≤ a ∧ a < 0x42000000 + (n + 1) * 0x100000

/-- A row at the front of the crossing FIFO passes the pipeline's front: the frame at hand is one row further. Without a
tap's buffer, no memory changes (R119). -/
def rowEnterPipeline (s : State) (n : Nat) (data : List (Option Codes)) (filled : Bool) (fr : IpFrame) : Prop :=
  n < 4 → s.err.slots = [] → s.unitOn (dIP n) = true → (s.port n).fifo = [.row data filled] →
  (s.ip n).frames = [fr] → fr.closed = false → fr.y + 1 < fr.info.height → tapsOn s.variant n fr = [] →
  Runs (.rowEnterPipeline n) s (fun t =>
    (t.port n).fifo = [] ∧ (t.ip n).frames.map (fun f => (f.y, f.plane.size)) = [(fr.y + 1, fr.plane.size + 1)] ∧
    RegsBut (fun a => a = IP_MRG_ROWS n ∨ a = IP_SAT_PIX n ∨ (List.range 4).any (fun c => a == IP_OB_EST n c) = true) s t ∧ MemBut (fun _ => False) s t)

/-- CAL clear waits for the next frame start (R129). -/
def calClear (s : State) (r : Requester) (n : Nat) (v : Word) : Prop :=
  n < 4 → s.unitOn (dIP n) = true → (s.ip n).commits.any (·.capturing) = false →
  Writes (.calClear r n v) r (fun a => a = IP_CAL_CTRL n) s (fun t =>
    (t.ip n).calClear = true ∧ t.f (IP_CAL_CTRL_clear n) = 1 ∧ t.f (IP_CAL_CTRL_en n) = bitsOf v.toNat 0 0 ∧
    t.f (IP_CAL_CTRL_hold n) = bitsOf v.toNat 1 1)

/-- Copies that a parity error replaced are loaded again: none stays replaced (R159). -/
def tableReload (s : State) (n : Nat) : Prop :=
  n < 4 → s.unitOn (dIP n) = true → s.mc.fills = [] → s.mc.reread = [] → s.err.slots = [] →
  ((s.ip n).frames.all (fun f => f.tabs.all (fun e => e.2.dead == 0 ||
    (s.ip n).tabs.any (fun x => x.1 == e.1 && x.2.ver == e.2.ver && x.2.dead != 0)))) = true →
  Runs (.tableReload n) s (fun t =>
    (t.ip n).tabs.any (fun e => e.2.dead != 0) = false ∧ (t.ip n).frames.any (fun f => f.tabs.any (fun e => e.2.dead != 0)) = false ∧
    Keeps (fun a => a = IP_CLR_STATUS n) s t)

/-- Bytes of statistics slot `a`, if there is one. -/
abbrev inSlot (x : Option Nat) (b : Nat) : Prop := (x.any (fun a => decide (a ≤ b ∧ b < a + 0x20000))) = true

/-- The statistics of the oldest frame past T2 are written, to its slot and nowhere else; a histogram record in MRAM carries
its kind, block, PFN and CRC, and STATS_READY is told (R178 to R183). -/
def statsReady (s : State) (n k a : Nat) (fr : IpFrame) : Prop :=
  n < 4 → s.unitOn (dIP n) = true → s.mc.fills = [] → s.mc.reread = [] → s.err.slots = [] → (s.port n).fifo = [] → s.frameWhere n (·.statsDue) = some k →
  (s.ip n).frames[k]? = some fr →
  Runs (.statsReady n) s (fun t =>
    (t.ip n).frames.countP (·.statsDue) + 1 = (s.ip n).frames.countP (·.statsDue) ∧
    (statSlot s.variant n fr = some a → Config.mramBase ≤ a → a + 0x20000 ≤ Config.logBase →
      fr.g s.variant (IP_ST_CFG_hist_en n) ≠ 0 → fr.g s.variant (IP_ST_WIN_WH_w n) ≠ 0 → fr.g s.variant (IP_ST_WIN_WH_h n) ≠ 0 →
      t.peeks a 8 = leBytes 2 1 ++ leBytes 1 (0x18 + n) ++ leBytes 1 0xFF ++ leBytes 4 fr.info.pfn ∧
      t.peeks (a + 60) 4 = leBytes 4 (crc32 (t.peeks (a + 64) 16384 ++ t.peeks a 60)) ∧
      Told (0x18 + n) 0x40 fr.info.pfn s t) ∧
    RegsBut (fun _ => False) s t ∧ MemBut (inSlot (statSlot s.variant n fr)) s t)

/-- The luma record of the oldest frame that owes one is written, to its slot and nowhere else; in MRAM it carries its kind,
block, branch, PFN and CRC, and LUMA_READY is told (R183, R184). -/
def lumaReady (s : State) (n k a b : Nat) (fr : IpFrame) : Prop :=
  n < 4 → s.unitOn (dIP n) = true → s.mc.fills = [] → s.mc.reread = [] → s.err.slots = [] → (s.port n).fifo = [] → s.frameWhere n (·.lumaDue.isSome) = some k →
  (s.ip n).frames[k]? = some fr →
  Runs (.lumaReady n) s (fun t =>
    (t.ip n).frames.countP (·.lumaDue.isSome) + 1 = (s.ip n).frames.countP (·.lumaDue.isSome) ∧
    (statSlot s.variant n fr = some a → Config.mramBase ≤ a → a + 0x20000 ≤ Config.logBase → fr.lumaDue.map (·.1) = some b →
      t.peeks (a + 0x1C080) 8 = leBytes 2 3 ++ leBytes 1 (0x18 + n) ++ leBytes 1 b ++ leBytes 4 fr.info.pfn ∧
      t.peeks (a + 0x1C0BC) 4 = leBytes 4 (crc32 (t.peeks (a + 0x1C0C0) 4096 ++ t.peeks (a + 0x1C080) 60)) ∧
      Told (0x18 + n) 0x41 fr.info.pfn s t) ∧
    RegsBut (fun _ => False) s t ∧ MemBut (inSlot (statSlot s.variant n fr)) s t)

/-- The frame start of a tap that writes memory takes the first credit of its ring: that buffer is being written (R11,
R171, R172). -/
def tapStart (s : State) (n p b : Nat) (fr : IpFrame) : Prop :=
  n < 4 → p < 4 → s.unitOn (dIP n) = true → (s.port n).fifo = [] → (s.ip n).frames = [fr] → fr.stage = 0 → fr.closed = false →
  fr.started.contains p = false → (tapsOn s.variant n fr).contains p = true → fr.g s.variant (IP_T_CFG_dest n p) = 0 →
  tapFmtOk p (fr.g s.variant (IP_T_CFG_fmt n p)) = true → fr.fits s.variant n p s = true → s.ringBufs (.tap n p) ≠ 0 →
  (searchOrder (s.ring (.tap n p)).next (s.ringBufs (.tap n p))).find?
    (fun x => !(s.ring (.tap n p)).holds x && (s.ring (.tap n p)).writing != some x) = some b →
  Runs (.producerFrameStart (.tap n p)) s (fun t =>
    (t.ring (.tap n p)).writing = some b ∧ (t.ip n).frames.map (fun f => look f.bufs p) = [some (b, false)] ∧
    Keeps (fun a => a = (ringRegs (.tap n p)).stat ∨ a = IP_T_STATUS n p) s t)

/-- A branch's frame start takes the first credit of its ring likewise (R11, R173, R174). -/
def branchStart (s : State) (n p b : Nat) (fr : IpFrame) : Prop :=
  n < 4 → p < 4 → s.unitOn (dIP n) = true → (s.port n).fifo = [] → (s.ip n).frames = [fr] → fr.stage < 3 → fr.closed = false →
  fr.started.contains (8 + p) = false → branchOff s.variant n p fr = false → branchErr n p fr s = false → s.ringBufs (.branch n p) ≠ 0 →
  (searchOrder (s.ring (.branch n p)).next (s.ringBufs (.branch n p))).find?
    (fun x => !(s.ring (.branch n p)).holds x && (s.ring (.branch n p)).writing != some x) = some b →
  Runs (.producerFrameStart (.branch n p)) s (fun t =>
    (t.ring (.branch n p)).writing = some b ∧ (t.ip n).frames.map (fun f => look f.bufs (8 + p)) = [some (b, false)] ∧
    Keeps (fun a => a = (ringRegs (.branch n p)).stat ∨ a = IP_O_STATUS n p) s t)

/-- A T2 or T3 tap writes no memory and offers nothing: the command changes nothing (R171). -/
def tapOfferOther (s : State) (n p : Nat) : Prop :=
  n < 4 → 2 ≤ p → p < 4 → Runs (.tapOffer n p) s (fun t => t = s)

/-- With no encoder attached (R250 attaches them to branches), a T0 or T1 tap offers its whole buffer: every consumer holds it and it counts as produced; of memory, the descriptor's
128 bytes alone change (R12, R44, R171, R177). -/
def tapOffer (s : State) (n p b : Nat) (fr : IpFrame) : Prop :=
  n < 4 → p < 2 → s.unitOn (dIP n) = true → s.mc.fills = [] → s.mc.reread = [] → s.err.slots = [] → (s.port n).fifo = [] → (s.ip n).frames = [fr] →
  fr.closed = true → fr.statsDue = false → fr.lumaDue = none → look fr.bufs p = some (b, true) →
  (s.ring (.tap n p)).writing = some b → (s.ring (.tap n p)).cons.all (fun k => match k.id with | .enc _ => false | _ => true) = true →
  Runs (.tapOffer n p) s (fun t =>
    (t.ring (.tap n p)).writing = none ∧
    (t.ring (.tap n p)).cons = (s.ring (.tap n p)).cons.map (fun c => { c with held := c.held ++ [b] }) ∧
    t.pair (ringRegs (.tap n p)).prodLo (ringRegs (.tap n p)).prodHi =
      (s.pair (ringRegs (.tap n p)).prodLo (ringRegs (.tap n p)).prodHi + 1) % 2 ^ 64 ∧
    RegsBut (fun a => a = (ringRegs (.tap n p)).stat ∨ a = (ringRegs (.tap n p)).prodLo ∨ a = (ringRegs (.tap n p)).prodHi) s t ∧
    MemBut (fun a => s.slotAddr (.tap n p) b ≤ a ∧ a < s.slotAddr (.tap n p) b + 128) s t)

/-! ### Pips (R186 to R213) -/

/-- A tile runs on a powered pip with `b` as its next bundle, and no injection is armed. -/
abbrev Running (s : State) (u : PipRef) (r : PipRun) (b : BitVec 64) : Prop :=
  u.wf = true ∧ s.pipOn u = true ∧ (s.pip u).run = some r ∧ s.bundle u r = some b ∧ s.err.slots = []

/-- The slot A operations that write lanes, each with its operation code, its latency and its lane result with whether it
is counted as saturated (R192, R194). -/
abbrev vecOps : List ((PipRef → BitVec 26 → Instr) × Nat × Nat × (PipRun → Nat → Nat → Word × Bool)) := [
  (Instr.fadd, 0x01, 1, fun r w k => slr (fadd32 (slw (r.lane (fVa w) k)) (slw (r.lane (fVb w) k)))),
  (Instr.fsub, 0x02, 1, fun r w k => slr (fsub32 (slw (r.lane (fVa w) k)) (slw (r.lane (fVb w) k)))),
  (Instr.fmul, 0x03, 1, fun r w k => slr (fmul32 (slw (r.lane (fVa w) k)) (slw (r.lane (fVb w) k)))),
  (Instr.fma, 0x04, 1, fun r w k =>
    slr (fadd32 (fmul32 (slw (r.lane (fVa w) k)) (slw (r.lane (fVb w) k))) (slw (r.lane (fVc w) k)))),
  (Instr.fmin, 0x05, 1, fun r w k => slr (min (slw (r.lane (fVa w) k)) (slw (r.lane (fVb w) k)))),
  (Instr.fmax, 0x06, 1, fun r w k => slr (max (slw (r.lane (fVa w) k)) (slw (r.lane (fVb w) k)))),
  (Instr.fabs, 0x07, 1, fun r w k => slr (max (slw (r.lane (fVa w) k)) (-slw (r.lane (fVa w) k)))),
  (Instr.fneg, 0x08, 1, fun r w k => slr (-slw (r.lane (fVa w) k))),
  (Instr.frcp, 0x09, 4, fun r w k => slRecip (r.lane (fVa w) k)),
  (Instr.flog2, 0x0A, 4, fun r w k => slr (slLog (slw (r.lane (fVa w) k)))),
  (Instr.fexp2, 0x0B, 4, fun r w k => slr (slExp (slw (r.lane (fVa w) k)))),
  (Instr.fsel, 0x0F, 1, fun r w k => slr (slw (if r.pbit (fVc w % 4) k = true then r.lane (fVa w) k else r.lane (fVb w) k))),
  (Instr.iadd, 0x10, 1, fun r w k => (r.lane (fVa w) k + r.lane (fVb w) k, false)),
  (Instr.isub, 0x11, 1, fun r w k => (r.lane (fVa w) k - r.lane (fVb w) k, false)),
  (Instr.imul, 0x12, 1, fun r w k => (r.lane (fVa w) k * r.lane (fVb w) k, false)),
  (Instr.imin, 0x13, 1, fun r w k => (w32 (min (s32 (r.lane (fVa w) k)) (s32 (r.lane (fVb w) k))), false)),
  (Instr.imax, 0x14, 1, fun r w k => (w32 (max (s32 (r.lane (fVa w) k)) (s32 (r.lane (fVb w) k))), false)),
  (Instr.vand, 0x15, 1, fun r w k => (r.lane (fVa w) k &&& r.lane (fVb w) k, false)),
  (Instr.vor, 0x16, 1, fun r w k => (r.lane (fVa w) k ||| r.lane (fVb w) k, false)),
  (Instr.vxor, 0x17, 1, fun r w k => (r.lane (fVa w) k ^^^ r.lane (fVb w) k, false)),
  (Instr.vshl, 0x18, 1, fun r w k => (r.lane (fVa w) k <<< (bitsOf (r.lane (fVb w) k).toNat 4 0), false)),
  (Instr.vshr, 0x19, 1, fun r w k => (r.lane (fVa w) k >>> (bitsOf (r.lane (fVb w) k).toNat 4 0), false)),
  (Instr.vsra, 0x1A, 1, fun r w k => ((r.lane (fVa w) k).sshiftRight (bitsOf (r.lane (fVb w) k).toNat 4 0), false)),
  (Instr.cvtfi, 0x1D, 1, fun r w k => toInt (fFn w) (r.lane (fVa w) k)),
  (Instr.cvtif, 0x1E, 1, fun r w k => slr (s32 (r.lane (fVa w) k))),
  (Instr.vmov, 0x1F, 1, fun r w k => (r.lane (fVa w) k, false)),
  (Instr.vsplat, 0x20, 1, fun r w _ => (r.sreg (bitsOf w 16 13), false)),
  (Instr.vimm, 0x21, 1, fun _ w _ => ((BitVec.ofNat 18 w).signExtend 32, false)),
  (Instr.vimmh, 0x22, 1, fun r w k => (setBits (r.lane (fVd w) k) 31 14 (bitsOf w 17 0), false)),
  (Instr.vswz, 0x23, 1, fun r w k => (r.lane (fVa w) (bitsOf w (2 * k + 1) (2 * k)), false))]

/-- A vector operation that the bundle holds issues: its lanes under the predicate wait for the bundle's end, and
saturated lanes are counted. Nothing else changes (R191, R192, R194). -/
def vecIssue (s : State) (u : PipRef) (r : PipRun) (b : BitVec 64) (w : BitVec 26) : Prop :=
  Running s u r b → r.a = none → ∀ e ∈ vecOps, b.toNat % 2 ^ 32 = e.2.1 * 2 ^ 26 + w.toNat →
  Runs (e.1 u w) s (fun t =>
    let on := (List.range 4).map (fun k => if r.pen w.toNat k = true then some (e.2.2.2 r w.toNat k) else none)
    (t.pip u).run = some { r with a := some (.vec (fVd w.toNat) (on.map (fun o => o.map (·.1))) e.2.2.1) } ∧
    t.rd (POD_SAT u.pod) = s.rd (POD_SAT u.pod) + BitVec.ofNat 32 ((on.filterMap id).countP (·.2)) ∧
    Keeps (fun a => a = POD_SAT u.pod) s t)

/-- The comparisons of slot A (R192, R194). -/
abbrev cmpOps : List ((PipRef → BitVec 26 → Instr) × Nat × (Word → Word → Bool)) := [
  (Instr.fcmplt, 0x0C, fun a b => decide (slw a < slw b)),
  (Instr.fcmple, 0x0D, fun a b => decide (slw a ≤ slw b)),
  (Instr.fcmpeq, 0x0E, fun a b => decide (slw a = slw b)),
  (Instr.icmplt, 0x1B, fun a b => decide (s32 a < s32 b)),
  (Instr.icmpeq, 0x1C, fun a b => a == b)]

/-- A comparison issues: bits of p[vd[1:0]] under the predicate wait for the bundle's end (R192). -/
def cmpIssue (s : State) (u : PipRef) (r : PipRun) (b : BitVec 64) (w : BitVec 26) : Prop :=
  Running s u r b → r.a = none → ∀ e ∈ cmpOps, b.toNat % 2 ^ 32 = e.2.1 * 2 ^ 26 + w.toNat →
  Runs (e.1 u w) s (fun t =>
    (t.pip u).run = some { r with a := some (.pred (fVd w.toNat % 4) ((List.range 4).map (fun k =>
      if r.pen w.toNat k = true then some (e.2.2 (r.lane (fVa w.toNat) k) (r.lane (fVb w.toNat) k)) else none))) } ∧
    Keeps (fun _ => False) s t)

/-- VNOP issues and will write nothing (R192). -/
def vnopIssue (s : State) (u : PipRef) (r : PipRun) (b : BitVec 64) (w : BitVec 26) : Prop :=
  Running s u r b → r.a = none → b.toNat % 2 ^ 32 = w.toNat →
  Runs (.vnop u w) s (fun t => (t.pip u).run = some { r with a := some .none } ∧ Keeps (fun _ => False) s t)

/-- LUT issues with the table its field names, latency 6, where the pod's memories are sound (R195, R197, R198). -/
def lutIssue (s : State) (u : PipRef) (r : PipRun) (b : BitVec 64) (w : BitVec 26) : Prop :=
  Running s u r b → r.a = none → b.toNat % 2 ^ 32 = 0x24 * 2 ^ 26 + w.toNat → (s.pod u.pod).bad = false →
  Runs (.lut u w) s (fun t =>
    let on := (List.range 4).map (fun k => if r.pen w.toNat k = true
      then some (slr (lutUnit (s.pod u.pod) (fVb w.toNat % 16) (slw (r.lane (fVa w.toNat) k)))) else none)
    (t.pip u).run = some { r with a := some (.vec (fVd w.toNat) (on.map (fun o => o.map (·.1))) 6) } ∧
    t.rd (POD_SAT u.pod) = s.rd (POD_SAT u.pod) + BitVec.ofNat 32 ((on.filterMap id).countP (·.2)) ∧
    Keeps (fun a => a = POD_SAT u.pod) s t)

/-- What slot A left to write stands in the registers after, which are otherwise as before. -/
abbrev slotAStands (r r' : PipRun) : Bool := match r.a with
  | some (.vec d l _) => (List.range 32).all (fun i => (List.range 4).all (fun k =>
      r'.lane i k == if i = d then (l.getD k none).getD (r.lane i k) else r.lane i k)) && r'.p == r.p
  | some (.pred p l) => (List.range 4).all (fun i => (List.range 4).all (fun k =>
      r'.pbit i k == if i = p then (l.getD k none).getD (r.pbit i k) else r.pbit i k)) && r'.v == r.v
  | _ => r'.v == r.v && r'.p == r.p

/-- Slot B ends the bundle: the pip stands at `pc`, later than before, and slot A's lanes and predicate bits stand. -/
abbrev BundleDone (r r' : PipRun) (pc : Nat) : Prop :=
  r'.pc = pc ∧ r'.a = none ∧ r.cycle < r'.cycle ∧ r'.t = r.t ∧ slotAStands r r' = true

/-- The scalar operations of slot B: operation code, destination and value (R193). -/
abbrev scalarOps : List ((PipRef → BitVec 26 → Instr) × Nat × (PipRun → Nat → Word)) := [
  (Instr.sadd, 0x08, fun r w => r.sreg (bitsOf w 21 18) + r.sreg (bitsOf w 17 14)),
  (Instr.ssub, 0x09, fun r w => r.sreg (bitsOf w 21 18) - r.sreg (bitsOf w 17 14)),
  (Instr.smul, 0x0A, fun r w => r.sreg (bitsOf w 21 18) * r.sreg (bitsOf w 17 14)),
  (Instr.sand, 0x0B, fun r w => r.sreg (bitsOf w 21 18) &&& r.sreg (bitsOf w 17 14)),
  (Instr.sor, 0x0C, fun r w => r.sreg (bitsOf w 21 18) ||| r.sreg (bitsOf w 17 14)),
  (Instr.sxor, 0x0D, fun r w => r.sreg (bitsOf w 21 18) ^^^ r.sreg (bitsOf w 17 14)),
  (Instr.sshl, 0x0E, fun r w => r.sreg (bitsOf w 21 18) <<< (bitsOf (r.sreg (bitsOf w 17 14)).toNat 4 0)),
  (Instr.sshr, 0x0F, fun r w => r.sreg (bitsOf w 21 18) >>> (bitsOf (r.sreg (bitsOf w 17 14)).toNat 4 0)),
  (Instr.ssra, 0x10, fun r w => (r.sreg (bitsOf w 21 18)).sshiftRight (bitsOf (r.sreg (bitsOf w 17 14)).toNat 4 0)),
  (Instr.slt, 0x11, fun r w => if s32 (r.sreg (bitsOf w 21 18)) < s32 (r.sreg (bitsOf w 17 14)) then 1 else 0),
  (Instr.addi, 0x14, fun r w => r.sreg (bitsOf w 21 18) + (BitVec.ofNat 18 w).signExtend 32),
  (Instr.li, 0x15, fun _ w => (BitVec.ofNat 18 w).signExtend 32),
  (Instr.lui, 0x16, fun r w => setBits (r.sreg (bitsOf w 25 22)) 31 14 (bitsOf w 17 0)),
  (Instr.vget, 0x18, fun r w => r.lane (bitsOf w 21 17) (bitsOf w 16 15))]

/-- A scalar operation writes its destination, but s0 reads 0; every other scalar register stays, and the bundle is done
(R190, R191, R193). -/
def scalarIssue (s : State) (u : PipRef) (r : PipRun) (b : BitVec 64) (w : BitVec 26) : Prop :=
  Running s u r b → r.a.isSome = true → ∀ e ∈ scalarOps, b.toNat / 2 ^ 32 = e.2.1 * 2 ^ 26 + w.toNat →
  Runs (e.1 u w) s (fun t => Now (t.pip u).run (fun r' => BundleDone r r' (r.pc + 1) ∧
      (List.range 16).all (fun i => r'.sreg i ==
        (if i = 0 then 0 else if i = bitsOf w.toNat 25 22 then e.2.2 r w.toNat else r.sreg i)) = true ∧
      (t.pip u).mem = (s.pip u).mem ∧ Keeps (fun _ => False) s t))

/-- VPUT writes one lane of a vector register from a scalar one (R193). -/
def vputIssue (s : State) (u : PipRef) (r : PipRun) (b : BitVec 64) (w : BitVec 26) : Prop :=
  Running s u r b → r.a = some .none → b.toNat / 2 ^ 32 = 0x19 * 2 ^ 26 + w.toNat →
  Runs (.vput u w) s (fun t => Now (t.pip u).run (fun r' => r'.pc = r.pc + 1 ∧ r'.a = none ∧ r'.s = r.s ∧ r'.p = r.p ∧
      (List.range 32).all (fun i => (List.range 4).all (fun k => r'.lane i k ==
        (if i = bitsOf w.toNat 25 21 ∧ k = bitsOf w.toNat 20 19 then r.sreg (bitsOf w.toNat 18 15) else r.lane i k))) = true ∧
      (t.pip u).mem = (s.pip u).mem ∧ Keeps (fun _ => False) s t))

/-- NOP ends the bundle with no effect of its own (R193). -/
def nopIssue (s : State) (u : PipRef) (r : PipRun) (b : BitVec 64) (w : BitVec 26) : Prop :=
  Running s u r b → r.a.isSome = true → b.toNat / 2 ^ 32 = w.toNat →
  Runs (.nop u w) s (fun t => Now (t.pip u).run (fun r' => BundleDone r r' (r.pc + 1) ∧ r'.s = r.s ∧ (t.pip u).mem = (s.pip u).mem ∧ Keeps (fun _ => False) s t))

/-- The branches, each with the condition it is taken on (R193). -/
abbrev branchOps : List ((PipRef → BitVec 26 → Instr) × Nat × (PipRun → Nat → Bool)) := [
  (Instr.br, 0x20, fun _ _ => true),
  (Instr.beq, 0x21, fun r w => r.sreg (bitsOf w 25 22) == r.sreg (bitsOf w 21 18)),
  (Instr.bne, 0x22, fun r w => r.sreg (bitsOf w 25 22) != r.sreg (bitsOf w 21 18)),
  (Instr.blt, 0x23, fun r w => decide (s32 (r.sreg (bitsOf w 25 22)) < s32 (r.sreg (bitsOf w 21 18)))),
  (Instr.bany, 0x24, fun r w => (List.range 4).any (fun k => r.pbit (bitsOf w 25 24) k)),
  (Instr.ball, 0x25, fun r w => (List.range 4).all (fun k => r.pbit (bitsOf w 25 24) k))]

/-- A branch inside the code goes to its target if taken, else on to the next bundle (R193). -/
def branchIssue (s : State) (u : PipRef) (r : PipRun) (b : BitVec 64) (w : BitVec 26) : Prop :=
  Running s u r b → r.a.isSome = true → 0 ≤ (r.pc : Int) + (BitVec.ofNat 18 w.toNat).toInt →
  (r.pc : Int) + (BitVec.ofNat 18 w.toNat).toInt < (s.pod u.pod).pkg.code.length →
  ∀ e ∈ branchOps, b.toNat / 2 ^ 32 = e.2.1 * 2 ^ 26 + w.toNat →
  Runs (e.1 u w) s (fun t => Now (t.pip u).run (fun r' =>       BundleDone r r' (if e.2.2 r w.toNat = true then ((r.pc : Int) + (BitVec.ofNat 18 w.toNat).toInt).toNat else r.pc + 1) ∧
      r'.s = r.s ∧ (t.pip u).mem = (s.pip u).mem ∧ Keeps (fun _ => False) s t))

/-- A local address inside input, output or data words, where a load and a store meet plain memory (R188). -/
abbrev localWord (a : Nat) : Prop := a % 4 = 0 ∧ (a < 0x1E00 ∨ 0x2000 ≤ a ∧ a < 0x4000)

/-- LDW loads the word at its address; STW stores one there, and no other local word changes (R188, R193). -/
def ldwStw (s : State) (u : PipRef) (r : PipRun) (b : BitVec 64) (w : BitVec 26) (a : Nat) : Prop :=
  Running s u r b → r.a.isSome = true → a = (r.sreg (bitsOf w.toNat 17 14) + BitVec.ofNat 32 (4 * bitsOf w.toNat 13 0)).toNat →
  localWord a →
  (b.toNat / 2 ^ 32 = 0x03 * 2 ^ 26 + w.toNat → bitsOf w.toNat 21 18 ≠ 0 →
    Runs (.ldw u w) s (fun t => Now (t.pip u).run (fun r' => BundleDone r r' (r.pc + 1) ∧ (List.range 16).all (fun i => r'.sreg i ==
          (if i = bitsOf w.toNat 21 18 then lookD (s.pip u).mem 0 a else r.sreg i)) = true ∧
        (t.pip u).mem = (s.pip u).mem ∧ Keeps (fun _ => False) s t))) ∧
  (b.toNat / 2 ^ 32 = 0x04 * 2 ^ 26 + w.toNat →
    Runs (.stw u w) s (fun t => Now (t.pip u).run (fun r' => BundleDone r r' (r.pc + 1) ∧ r'.s = r.s ∧
        (t.pip u).mem = putWord (s.pip u).mem a (r.sreg (bitsOf w.toNat 21 18)) ∧ Keeps (fun _ => False) s t)))

/-- VLD loads the lanes under the predicate, VST stores them, word by word from the address (R188, R193). -/
def vldVst (s : State) (u : PipRef) (r : PipRun) (b : BitVec 64) (w : BitVec 26) (a : Nat) : Prop :=
  Running s u r b → r.a = some .none → a = (r.sreg (bitsOf w.toNat 17 14) + BitVec.ofNat 32 (4 * bitsOf w.toNat 13 0)).toNat →
  a % 4 = 0 → a + 16 ≤ 0x1E00 →
  (b.toNat / 2 ^ 32 = 0x01 * 2 ^ 26 + w.toNat →
    Runs (.vld u w) s (fun t => Now (t.pip u).run (fun r' => r'.pc = r.pc + 1 ∧ r'.s = r.s ∧ r'.p = r.p ∧ (t.pip u).mem = (s.pip u).mem ∧
        (List.range 32).all (fun i => (List.range 4).all (fun k => r'.lane i k ==
          (if i = bitsOf w.toNat 22 18 ∧ r.pen w.toNat k = true then lookD (s.pip u).mem 0 (a + 4 * k) else r.lane i k))) = true ∧
        Keeps (fun _ => False) s t))) ∧
  (b.toNat / 2 ^ 32 = 0x02 * 2 ^ 26 + w.toNat →
    Runs (.vst u w) s (fun t => Now (t.pip u).run (fun r' => BundleDone r r' (r.pc + 1) ∧ r'.s = r.s ∧
        (t.pip u).mem = (List.range 4).foldl (fun m k =>
          if r.pen w.toNat k = true then putWord m (a + 4 * k) (r.lane (bitsOf w.toNat 22 18) k) else m) (s.pip u).mem ∧
        Keeps (fun _ => False) s t)))

/-- END of a tile that is not its frame's last, under the pip's epoch: the tile has left the slot, and counts (R193, R201,
R209). -/
def pipEnd (s : State) (u : PipRef) (r : PipRun) (b : BitVec 64) (w : BitVec 26) (k : Nat) (fr : IpFrame) : Prop :=
  Running s u r b → r.a.isSome = true → b.toNat / 2 ^ 32 = 0x26 * 2 ^ 26 + w.toNat → s.pipState u = pipActive →
  issueAt r b.toNat ≤ (s.pod u.pod).pkg.c →
  r.t.epoch = s.f (POD_PIP_EPOCH_epoch u.pod u.pip) → (s.pip u).wait = none → s.slotFront r.t.slot = some (k, fr) →
  (s.slot r.t.slot).left.contains r.t.tile = false → (s.slot r.t.slot).left.length + 1 < tileCount fr →
  Runs (.pipEnd u w) s (fun t =>
    (t.pip u).run = none ∧ (t.slot r.t.slot).left = r.t.tile :: (s.slot r.t.slot).left ∧
    t.rd (POD_PIP_TILES u.pod u.pip) = s.rd (POD_PIP_TILES u.pod u.pip) + 1 ∧
    Keeps (fun a => a = POD_PIP_TILES u.pod u.pip ∨ a = PIP_SLOT_TILES_LO r.t.slot ∨ a = PIP_SLOT_TILES_HI r.t.slot) s t)

/-- END under an old epoch is fenced: the result is discarded and counted (R209). -/
def pipFenced (s : State) (u : PipRef) (r : PipRun) (b : BitVec 64) (w : BitVec 26) : Prop :=
  Running s u r b → r.a.isSome = true → b.toNat / 2 ^ 32 = 0x26 * 2 ^ 26 + w.toNat → s.pipState u ≠ pipRetired →
  issueAt r b.toNat ≤ (s.pod u.pod).pkg.c → r.t.epoch ≠ s.f (POD_PIP_EPOCH_epoch u.pod u.pip) → (s.pip u).wait = none →
  Runs (.pipEnd u w) s (fun t =>
    (t.pip u).run = none ∧ t.slots = s.slots ∧ t.rd (POD_FENCED u.pod) = s.rd (POD_FENCED u.pod) + 1 ∧
    Keeps (fun a => a = POD_FENCED u.pod) s t)

/-- The next tile of the frame in a slot of one pod goes to the pod's next live position, where a free ACTIVE pip starts
it (R199, R200). -/
def tileDispatch (s : State) (j p q k : Nat) (fr : IpFrame) (u : PipRef) : Prop :=
  j < 8 → s.unitOn (dIP (j / 2)) = true → s.domOn dFAB = true → s.slotFront j = some (k, fr) →
  (s.slot j).pfn = some fr.info.pfn → (s.slot j).redo = [] → (s.slot j).next < tileCount fr → (s.slot j).pods = [p] → (s.pod p).pkg.code ≠ [] →
  s.unitOn (dSTRIP (p / 16)) = true → s.nextPos p (s.pod p).next = some q → u = ⟨p, s.pipAt p q⟩ →
  (s.pip u).wait = none → (s.pip u).run = none → s.pipState u = pipActive →
  Runs (.tileDispatch j) s (fun t =>
    (t.slot j).next = (s.slot j).next + 1 ∧ (t.pod p).next = (q + 1) % 8 ∧
    (t.pip u).run.map (fun r => (r.t.tile, r.t.slot, r.pc)) = some ((s.slot j).next, j, 0) ∧ Keeps (fun _ => False) s t)

/-- The next admitted package loads once no frame in the pipeline runs an earlier program and no other slot still holds a
pod of this one (R203). -/
def packageLoad (s : State) (j : Nat) (p : Pkg) (rest : List Pkg) : Prop :=
  j < 8 → s.domOn dFAB = true → (s.slot j).loading = none → (s.slot j).queue = p :: rest →
  (s.ip (j / 2)).frames.all (fun f => (look f.prog (j % 2)).all (fun g => decide (p.gen ≤ g))) = true →
  (∀ i < 8, i ≠ j → ∀ q ∈ (s.slot i).pods, q ∉ s.podsOf j) →
  Runs (.packageLoad j) s (fun t =>
    (t.slot j).loading = some p ∧ (t.slot j).queue = rest ∧ t.f (PIP_SLOT_STATUS_loading j) = 1 ∧
    Keeps (fun a => ∃ c < 2, a = PIP_SLOT_STATUS (2 * (j / 2) + c)) s t)

/-- The load completes: every pod of the slot holds the package, and frames under it may run (R203). -/
def packageLoadDone (s : State) (j : Nat) (p : Pkg) : Prop :=
  j < 8 → s.domOn dFAB = true → (s.slot j).loading = some p →
  Runs (.packageLoadDone j) s (fun t =>
    (t.slot j).loading = none ∧ (t.slot j).loaded = p.gen ∧ (t.slot j).pods = s.podsOf j ∧
    (s.podsOf j).all (fun q => (t.pod q).pkg == p) = true ∧
    ((s.ip (j / 2)).frames.all (fun f => f.stage != 1 + j % 2 || (look f.prog (j % 2)).getD p.gen == p.gen) = true →
      t.f (PIP_SLOT_STATUS_loading j) = 0) ∧
    Keeps (fun a => ∃ c < 2, a = PIP_SLOT_STATUS (2 * (j / 2) + c)) s t)

/-- A pip without a tile starts its self-test; from level T1 on the test is skipped and counted (R206). -/
def signatureTest (s : State) (u : PipRef) : Prop :=
  u.wf = true → s.pipOn u = true → (s.pip u).run = none → (s.pip u).test = none → s.pipState u ≠ pipRetired →
  Runs (.signatureTest u) s (fun t =>
    (if s.f THM_LEVEL_level = 0 then t.pipState u = pipTesting ∧ (t.pip u).test = some (1, none) ∧
        t.rd (POD_ST_SKIP u.pod) = s.rd (POD_ST_SKIP u.pod)
     else t.pip u = s.pip u ∧ t.rd (POD_ST_SKIP u.pod) = s.rd (POD_ST_SKIP u.pod) + 1) ∧
    Keeps (fun a => a = POD_ST_SKIP u.pod ∨ a = POD_PIP_STATUS u.pod u.pip ∨ a = POD_STATUS u.pod) s t)

/-- The registers that a pip's retirement changes: its own epoch and status, the counts, the map and the states of its pod,
the state and position of the pip of the pod that takes its place, its slot's sign of a pod below its rate, and the last
error (R207 to R209). -/
abbrev retireShown (u : PipRef) (a : Nat) : Prop :=
  a = POD_ST_FAIL u.pod ∨ a = POD_PIP_EPOCH u.pod u.pip ∨ a = POD_STATUS u.pod ∨ a = POD_MAP u.pod ∨ a = ERR_LAST ∨
    (List.range 8).any (fun j => a == PIP_SLOT_STATUS j) = true ∨
    (List.range 9).any (fun i => a == POD_PIP_STATUS u.pod i) = true

/-- A failed first test is counted and the pip is tested again; a second failure retires it: its epoch rises (R207, R208). -/
def signatureTestDone (s : State) (u : PipRef) (k : Nat) : Prop :=
  u.wf = true → s.pipOn u = true → s.err.slots = [] → (s.pip u).test = some (k, none) → (s.pip u).run = none → (s.pip u).wait = none →
  Runs (.signatureTestDone u false) s (fun t =>
    (if k = 1 then (t.pip u).test = some (2, none) ∧ t.rd (POD_ST_FAIL u.pod) = s.rd (POD_ST_FAIL u.pod) + 1 ∧
        RegsBut (fun a => a = POD_ST_FAIL u.pod ∨ a = POD_PIP_STATUS u.pod u.pip) s t
     else (t.pip u).test = none ∧ t.pipState u = pipRetired ∧ Told 0x20 0 (u.pod * 16 + u.pip) s t ∧
        t.f (POD_PIP_EPOCH_epoch u.pod u.pip) = (s.f (POD_PIP_EPOCH_epoch u.pod u.pip) + 1) % 65536 ∧
        RegsBut (retireShown u) s t) ∧
    MemBut (fun _ => False) s t)

/-- A passed first test leaves the pip ready (R207). -/
def signatureTestPass (s : State) (u : PipRef) : Prop :=
  u.wf = true → s.pipOn u = true → s.err.slots = [] → (s.pip u).test = some (1, none) → (s.pip u).wait = none →
  Runs (.signatureTestDone u true) s (fun t =>
    (t.pip u).test = none ∧ t.pipState u = (if s.f (POD_PIP_STATUS_pos u.pod u.pip) = 15 then pipSpare else pipActive) ∧
    Keeps (fun a => a = POD_PIP_STATUS u.pod u.pip ∨ a = POD_STATUS u.pod) s t)

/-- A tile past its program's declared cycles stops: its pip is tested with cause 5 (R207). -/
def tileWatchdog (s : State) (u : PipRef) (r : PipRun) : Prop :=
  u.wf = true → s.pipOn u = true → s.err.slots = [] → (s.pip u).run = some r → (s.pod u.pod).pkg.c < r.cycle →
  (s.slot r.t.slot).rerun.contains r.t.tile = false →
  Runs (.tileWatchdog u) s (fun t =>
    (t.pip u).run = none ∧ (t.pip u).test = some (2, some r.t) ∧ t.pipState u = pipTesting ∧
    t.f (POD_PIP_STATUS_cause u.pod u.pip) = 5 ∧ t.rd (POD_ST_FAIL u.pod) = s.rd (POD_ST_FAIL u.pod) + 1 ∧
    Told 0x20 7 (u.pod * 16 + u.pip) s t ∧
    Keeps (fun a => a = POD_ST_FAIL u.pod ∨ a = POD_PIP_STATUS u.pod u.pip ∨ a = POD_STATUS u.pod) s t)

/-- A pod memory that failed parity is rewritten and serves again (R207). -/
def podMemoryReload (s : State) (p : Nat) : Prop :=
  p < 128 → s.unitOn (dSTRIP (p / 16)) = true → (s.pod p).bad = true →
  Runs (.podMemoryReload p) s (fun t => (t.pod p).bad = false ∧ (t.pod p).pkg = (s.pod p).pkg ∧ Keeps (fun _ => False) s t)

/-- Only the monitor may re-admit, and only a retired pip; else bad_write is set (R212). -/
def pipReadmit (s : State) (r : Requester) (v : Word) (u : PipRef) : Prop :=
  s.unitOn dFAB = true → u = ⟨bitsOf v.toNat 6 0, bitsOf v.toNat 11 8⟩ →
  Writes (.pipReadmit r v) r (fun a => a = PIP_STATUS) s (fun t =>
    if r = .monitor ∧ u.wf = true ∧ s.pipOn u = true ∧ s.pipState u = pipRetired
    then (t.pip u).readmit = 1 ∧ t.rd PIP_STATUS = s.rd PIP_STATUS
    else t.pips = s.pips ∧ t.f PIP_STATUS_bad_write = 1)

/-- The one test of a re-admission: failed, the pip stays retired; passed, its epoch rises and it joins at the slot's next
frame start (R212). -/
def readmitTest (s : State) (u : PipRef) (pass : Bool) : Prop :=
  u.wf = true → s.pipOn u = true → s.err.slots = [] → (s.pip u).readmit = 1 → (s.slotOfPod u.pod).isSome = true →
  Runs (.readmitTest u pass) s (fun t =>
    (if pass then (t.pip u).readmit = 2 ∧ t.f (POD_PIP_EPOCH_epoch u.pod u.pip) = (s.f (POD_PIP_EPOCH_epoch u.pod u.pip) + 1) % 65536
     else (t.pip u).readmit = 0 ∧ Told 0x20 9 (u.pod * 16 + u.pip) s t ∧
       t.rd (POD_PIP_EPOCH u.pod u.pip) = s.rd (POD_PIP_EPOCH u.pod u.pip)) ∧
    Keeps (fun a => a = POD_PIP_EPOCH u.pod u.pip) s t)

/-! ### Photre (R229 to R239) -/

/-- An odd qmax is taken and en is set; an even one sets bad_write. The cost map is invalid when en rises (R229, R232). -/
def prcEnable (s : State) (r : Requester) (n : Nat) (v : Word) : Prop :=
  n < 4 → s.unitOn dPRC = true → (n < Config.ports s.variant) →
  Writes (.prcEnable r n v) r (fun a => a = PRC_CTRL n ∨ a = PRC_STATUS n) s (fun t =>
    if bitsOf v.toNat 7 3 % 2 = 0 then t.f (PRC_STATUS_bad_write n) = 1 ∧ t.rd (PRC_CTRL n) = s.rd (PRC_CTRL n)
    else t.b (PRC_CTRL_en n) = true ∧ t.f (PRC_CTRL_qmax n) = bitsOf v.toNat 7 3 ∧
      (s.b (PRC_CTRL_en n) = false → (t.prc n).map = none ∧ t.f (PRC_STATUS_map_valid n) = 0))

/-- An apply captures the set written so far and waits for a frame start (R234). -/
def prcApply (s : State) (r : Requester) (n : Nat) (v : Word) (a : Nat) : Prop :=
  n < 4 → s.unitOn dPRC = true → n < Config.ports s.variant → a = PRC_CTRL n ∨ a = PRC_BUDGET n →
  Writes (.prcApply r n v) r (fun x => x = PRC_STATUS n) s (fun t =>
    t.f (PRC_STATUS_apply_pending n) = 1 ∧ (t.prc n).cap.map (fun l => look l a) = some (look s.regs a))

/-- A frame `d` waits for an idle Photre encoder, its configuration suits it, and `b` is the first credit of the ring. -/
abbrev PrcWaits (s : State) (n b : Nat) (d : PrcFeed) : Prop :=
  s.unitOn (dIP n) = true ∧ s.unitOn dPRC = true ∧ (s.port n).fifo = [] ∧ (s.prc n).cur = none ∧ (s.prc n).cap = none ∧
  lookD s.feeds [] n = [d] ∧ s.b (PRC_CTRL_en n) = true ∧ prcSound n d s = true ∧ s.ringBufs (.prc n) ≠ 0 ∧
  (searchOrder (s.ring (.prc n)).next (s.ringBufs (.prc n))).find?
    (fun x => !(s.ring (.prc n)).holds x && (s.ring (.prc n)).writing != some x) = some b

/-- The encoder codes into buffer `b`, and no slab is coded yet. -/
abbrev PrcCodes (n b : Nat) (s t : State) : Prop :=
  (t.ring (.prc n)).writing = some b ∧ (t.prc n).cur.map (fun c => (c.coding, c.buf, c.slabs)) = some (true, b, []) ∧
  Keeps (fun a => a = (ringRegs (.prc n)).stat ∨ a = PRC_STATUS n) s t

/-- A frame that the tap hands over starts coding in the first credit of the encoder's ring, if the configuration in force
suits it (R11, R233, R235). -/
def prcFrameStart (s : State) (n b : Nat) (d : PrcFeed) : Prop :=
  n < 4 → PrcWaits s n b d → Runs (.prcFrameStart n) s (fun t => PrcCodes n b s t)

/-- So it does at the frame start of the encoder's ring (R11, R233, R235). -/
def prcRingStart (s : State) (n b : Nat) (d : PrcFeed) : Prop :=
  n < 4 → PrcWaits s n b d → Runs (.producerFrameStart (.prc n)) s (fun t => PrcCodes n b s t)

/-- The next slab of the frame is coded behind the ones before it; no other byte of memory changes (R218, R230). -/
def slabCoded (s : State) (n : Nat) (c : PrcCur) (d : PrcFeed) : Prop :=
  n < 4 → s.unitOn (dIP n) = true → s.domOn dPRC = true → s.err.slots = [] → s.mc.fills = [] → s.mc.reread = [] → (s.prc n).cur = some c →
  s.feed n = some d → c.coding = true → c.slabs.length < slabCount d.info.height →
  16 * c.slabs.length + slabRows d.info.height c.slabs.length ≤ d.rows.size →
  Runs (.slabCoded n) s (fun t => Now ((t.prc n).cur.bind (fun x => x.slabs.getLast?)) (fun e =>
    (t.prc n).cur.map (fun x => x.slabs) = some (c.slabs ++ [e]) ∧
    t.rd (PRC_HUSK_SLABS n) = s.rd (PRC_HUSK_SLABS n) + (if e.1 = 2 then 1 else 0) ∧
    t.rd (PRC_VERB_SLABS n) = s.rd (PRC_VERB_SLABS n) + (if e.1 = 1 then 1 else 0) ∧
    RegsBut (fun a => a = PRC_HUSK_SLABS n ∨ a = PRC_VERB_SLABS n ∨ a = PRC_FALLBACK n) s t ∧
    MemBut (fun a =>
      s.slotAddr (.prc n) c.buf + 128 + headBytes (slabCount d.info.height) + slabsLen c.slabs ≤ a ∧
      a < s.slotAddr (.prc n) c.buf + 128 + headBytes (slabCount d.info.height) + slabsLen c.slabs + e.2.2.2) s t))

/-- With no encoder attached, a frame whose slabs are all coded is done: its buffer is offered and counts as produced (R12, R233). -/
def prcFrameDone (s : State) (n : Nat) (c : PrcCur) (d : PrcFeed) : Prop :=
  n < 4 → s.unitOn (dIP n) = true → s.domOn dPRC = true → s.err.slots = [] → s.mc.fills = [] → s.mc.reread = [] → (s.port n).fifo = [] →
  (s.prc n).cur = some c → s.feed n = some d → c.coding = true → c.slabs.length = slabCount d.info.height → d.final = true →
  (s.ring (.prc n)).writing = some c.buf →
  (s.ring (.prc n)).cons.all (fun k => match k.id with | .enc _ => false | _ => true) = true →
  Runs (.prcFrameDone n) s (fun t =>
    (t.prc n).cur = none ∧ (t.ring (.prc n)).writing = none ∧ lookD t.feeds [] n = (lookD s.feeds [] n).drop 1 ∧
    t.pair (ringRegs (.prc n)).prodLo (ringRegs (.prc n)).prodHi =
      (s.pair (ringRegs (.prc n)).prodLo (ringRegs (.prc n)).prodHi + 1) % 2 ^ 64 ∧
    t.rd (PRC_LAST_BYTES n) = BitVec.ofNat 32 (headBytes (slabCount d.info.height) + slabsLen c.slabs) ∧
    RegsBut (fun a => a = PRC_LAST n ∨ a = PRC_LAST_BYTES n ∨ a = PRC_HUSK_FRAMES n ∨ a = PRC_STATUS n ∨
      a = (ringRegs (.prc n)).stat ∨ a = (ringRegs (.prc n)).prodLo ∨ a = (ringRegs (.prc n)).prodHi) s t ∧
    MemBut (fun a => s.slotAddr (.prc n) c.buf ≤ a ∧ a < s.slotAddr (.prc n) c.buf + 128 +
      max c.budget (headBytes (slabCount d.info.height) + slabsLen c.slabs)) s t)

/-- The decoder takes the job its registers describe and is busy; while busy a go sets bad_write (R237). -/
def prdGo (s : State) (r : Requester) (v : Word) : Prop :=
  s.unitOn dPRC = true →
  Writes (.prdGo r v) r (fun a => a = PRD_STATUS) s (fun t =>
    if s.b PRD_STATUS_busy = true then t.f PRD_STATUS_bad_write = 1 ∧ t.prd = s.prd
    else t.b PRD_STATUS_busy = true ∧ t.prd.map (fun l => look l PRD_SRC_LEN) = some (some (s.rd PRD_SRC_LEN)))

/-- Where a job's destination starts. -/
abbrev jobDst (job : List (Nat × Word)) : Nat := jobF job ⟨PRD_DST_LO, 31, 0⟩ + jobF job ⟨PRD_DST_HI, 31, 0⟩ * 2 ^ 32

/-- A decoder job ends: busy clears, and of memory it writes its destination alone; one whose source is shorter than a header
is a header error that stores nothing (R237, R239). -/
def prdJobDone (s : State) (job : List (Nat × Word)) : Prop :=
  s.domOn dPRC = true → s.err.slots = [] → s.mc.fills = [] → s.mc.reread = [] → s.prd = some job →
  Runs .prdJobDone s (fun t =>
    t.prd = none ∧ t.b PRD_STATUS_busy = false ∧
    RegsBut (fun a => a = PRD_STATUS ∨ a = PRD_DONE ∨ a = PRD_FIRST_ERR ∨ a = PRD_CLIP) s t ∧
    MemBut (fun a => jobDst job ≤ a ∧ a < jobDst job + jobF job PRD_DST_LEN_bytes) s t ∧
    (jobF job PRD_SRC_LEN_bytes < 64 →
      t.f PRD_STATUS_hdr_err = 1 ∧ t.f PRD_DONE_decoded = 0 ∧ t.f PRD_DONE_in_error = 0 ∧ Told 0x2C 1 1 s t ∧
      Keeps (fun a => a = PRD_STATUS ∨ a = PRD_DONE) s t))

/-! ### H.265 encoder (R244 to R252) -/

/-- A register of the H.265 block. -/
abbrev inHvc (a : Nat) : Prop := 0x44100000 ≤ a ∧ a < 0x44200000

/-- An apply captures the context's set: while a picture is coded it waits for the boundary (R250). -/
def encApply (s : State) (r : Requester) (c : Nat) (v : Word) (a : Nat) : Prop :=
  c < 16 → s.unitOn dHVC = true → s.hvc.cur.isSome = true → a = HVC_EC_CFG c ∨ a = HVC_EC_SRC c →
  Writes (.encApply r c v) r (fun _ => False) s (fun t => (t.ec c).cap.map (fun l => look l a) = some (look s.regs a))

/-- At a picture boundary an apply comes into force at once: the next picture is an IDR (R246, R250; DEDUCED 36 for the
idle encoder). -/
def encApplyNow (s : State) (r : Requester) (c : Nat) (v : Word) : Prop :=
  c < 16 → s.unitOn dHVC = true → s.hvc.cur = none → s.mc.fills = [] → s.mc.reread = [] → s.err.slots = [] →
  Runs (.encApply r c v) s (fun t =>
    Answered r 0 t ∧ (t.ec c).cap = none ∧ (t.ec c).fresh = true ∧ t.rdLive (HVC_EC_CFG c) = s.rd (HVC_EC_CFG c) ∧
    Keeps (fun a => a = HVC_EC_STATUS c ∨ a = HVC_EC_SKIP c ∨ aRingStat a) s t)

/-- An IDR request waits for the next picture (R246). -/
def idrRequest (s : State) (r : Requester) (c : Nat) (v : Word) : Prop :=
  c < 16 → s.unitOn dHVC = true →
  Writes (.idrRequest r c v) r (fun a => a = HVC_EC_IDR c) s (fun t => t.f (HVC_EC_IDR_req c) = 1)

/-- A mark and a drop wait for the next picture; with lt_max = 0 in force they set bad_write (R245). -/
def ltMark (s : State) (r : Requester) (c : Nat) (v : Word) : Prop :=
  c < 16 → s.unitOn dHVC = true →
  Writes (.ltMark r c v) r (fun a => a = HVC_EC_LT c ∨ a = HVC_EC_STATUS c) s (fun t =>
    if s.g (HVC_EC_CFG_lt_max c) = 0 then t.f (HVC_EC_STATUS_bad_write c) = 1 ∧ t.rd (HVC_EC_LT c) = s.rd (HVC_EC_LT c)
    else bitOf (t.rd (HVC_EC_LT c)).toNat 0 = true ∧ t.rd (HVC_EC_STATUS c) = s.rd (HVC_EC_STATUS c))

/-- See `ltMark`. -/
def ltDrop (s : State) (r : Requester) (c : Nat) (v : Word) : Prop :=
  c < 16 → s.unitOn dHVC = true →
  Writes (.ltDrop r c v) r (fun a => a = HVC_EC_LT c ∨ a = HVC_EC_STATUS c) s (fun t =>
    if s.g (HVC_EC_CFG_lt_max c) = 0 then t.f (HVC_EC_STATUS_bad_write c) = 1 ∧ t.rd (HVC_EC_LT c) = s.rd (HVC_EC_LT c)
    else bitOf (t.rd (HVC_EC_LT c)).toNat 1 = true ∧ t.rd (HVC_EC_STATUS c) = s.rd (HVC_EC_STATUS c))

/-- With no apply waiting, context `c` is the one attached to a ring, and the ring holds an input frame in `b`, of descriptor
`d`, that the context can code; `w` is the first credit of its own ring. -/
abbrev EncWaits (s : State) (c b w : Nat) (g : RingId) (d : List Byte) : Prop :=
  s.unitOn dHVC = true ∧ s.hvc.cur = none ∧ s.b HVC_CTRL_enc_en = true ∧ s.mc.fills = [] ∧ s.mc.reread = [] ∧ s.err.slots = [] ∧
  (List.range 16).all (fun k => (s.ec k).cap.isNone && (k == c || (s.ec k).ring.isNone)) = true ∧ s.ecRuns c = true ∧
  (s.ec c).ring = some g ∧ s.heldBy g (.enc c) = [b] ∧
  s.memAnswers (s.slotAddr g b) 128 false = true ∧ d = s.peeks (s.slotAddr g b) 128 ∧ ecInputOk c (descInfo d) (descBuf d) s = true ∧
  upTo 64 (ceilDiv (65 * upTo 8 (descInfo d).width * upTo 8 (descInfo d).height) 16) ≤ s.g (HVC_EC_POOL_CFG_slot c) * 64 ∧
  128 + 2048 + 4 * ctbCount (descInfo d).width (descInfo d).height ≤ s.ringSlot (.enc c) ∧
  s.ringBufs (.enc c) ≠ 0 ∧
  (searchOrder (s.ring (.enc c)).next (s.ringBufs (.enc c))).find?
    (fun x => !(s.ring (.enc c)).holds x && (s.ring (.enc c)).writing != some x) = some w

/-- Context `c` codes the frame of `b` into buffer `w`. -/
abbrev EncCodes (c b w : Nat) (s t : State) : Prop :=
  t.hvc.cur.map (fun x => (x.ctx, x.buf)) = some (c, b) ∧ t.hvc.last = c ∧ (t.ring (.enc c)).writing = some w ∧
  t.f (HVC_EC_IDR_req c) = 0 ∧ t.rd (HVC_EC_LT c) = 0 ∧ Keeps (fun a => a = HVC_EC_STATUS c ∨ a = HVC_EC_IDR c ∨ a = HVC_EC_LT c ∨ a = HVC_EC_MARKS c ∨ aRingStat a) s t

/-- The context is served: the frame is coded into the first credit of the context's ring (R242, R245, R251). -/
def pictureStart (s : State) (c b w : Nat) (g : RingId) (d : List Byte) : Prop :=
  c < 16 → EncWaits s c b w g d → Runs .pictureStart s (fun t => EncCodes c b w s t)

/-- So it is at the frame start of its ring (R242, R245, R251). -/
def encRingStart (s : State) (c b w : Nat) (g : RingId) (d : List Byte) : Prop :=
  c < 16 → EncWaits s c b w g d → Runs (.producerFrameStart (.enc c)) s (fun t => EncCodes c b w s t)

/-- A picture ends: its access unit is offered in the context's ring, the input buffer goes back, and PICTURE_DONE is
raised. Outside the ring slot and the picture's reference buffer no memory changes, without a report ring (R44, R245,
R248, R251). -/
def pictureDone (s : State) (x : HvcCur) (p : CodedPicture) (b : Nat) : Prop :=
  let q := s.pairLive (HVC_EC_POOL_LO x.ctx) (HVC_EC_POOL_HI x.ctx) + x.pool * (s.g (HVC_EC_POOL_CFG_slot x.ctx) * 64)
  s.domOn dHVC = true → codedOk x p = true → Calm s → s.mc.fills = [] → s.mc.reread = [] → s.hvc.cur = some x → (s.ring (.enc x.ctx)).writing = some b →
  s.f (HVC_EC_REP_CFG_entries x.ctx) = 0 → 128 ≤ s.ringSlot (.enc x.ctx) →
  (s.ring (.enc x.ctx)).cons.all (fun k => match k.id with | .enc _ => false | _ => true) = true →
  x.ring ≠ .enc x.ctx →
  Runs (.pictureDone p) s (fun t =>
    t.hvc.cur = none ∧ (t.ring (.enc x.ctx)).writing = none ∧ Told 0x30 0 x.ctx s t ∧
    t.heldBy x.ring (.enc x.ctx) = (s.heldBy x.ring (.enc x.ctx)).erase x.buf ∧
    t.pair (ringRegs (.enc x.ctx)).prodLo (ringRegs (.enc x.ctx)).prodHi =
      (s.pair (ringRegs (.enc x.ctx)).prodLo (ringRegs (.enc x.ctx)).prodHi + 1) % 2 ^ 64 ∧
    RegsBut (fun a => a = HVC_EC_OVF x.ctx ∨ a = HVC_EC_MARKS x.ctx ∨ ringShown (.enc x.ctx) a ∨ a = (ringRegs x.ring).stat) s t ∧
    MemBut (fun a => s.slotAddr (.enc x.ctx) b ≤ a ∧ a < s.slotAddr (.enc x.ctx) b + s.ringSlot (.enc x.ctx) ∨
      q ≤ a ∧ a < q + ceilDiv (65 * upTo 8 x.info.width * upTo 8 x.info.height) 16) s t)

/-! ### H.265 decoder (R253 to R258) -/

/-- A write of the command tail submits the jobs before it (R253). -/
def decSubmit (s : State) (r : Requester) (v : Word) : Prop :=
  s.unitOn dHVC = true →
  Writes (.decSubmit r v) r (fun a => a = HVC_DEC_CMD_TAIL) s (fun t => t.rd HVC_DEC_CMD_TAIL = v)

/-- The oldest job starts when the decoder is enabled and idle, and the completion ring has room (R253, R255). -/
def decJobStart (s : State) : Prop :=
  s.domOn dHVC = true → s.err.slots = [] → s.mc.fills = [] → s.mc.reread = [] → s.b HVC_CTRL_dec_en = true → s.hvc.job = none →
  s.f HVC_DEC_CMD_CFG_entries ≠ 0 → ringHas (s.f HVC_DEC_CMD_HEAD_cmd_head) (s.f HVC_DEC_CMD_TAIL_cmd_tail) = true →
  (s.f HVC_DEC_CPL_TAIL_cpl_tail + 2 ^ 32 - s.f HVC_DEC_CPL_HEAD_cpl_head) % 2 ^ 32 < s.f HVC_DEC_CPL_CFG_entries →
  Runs .decJobStart s (fun t =>
    let a := s.pair HVC_DEC_CMD_LO HVC_DEC_CMD_HI + s.f HVC_DEC_CMD_HEAD_cmd_head % s.f HVC_DEC_CMD_CFG_entries * 32
    t.hvc.job.isSome = true ∧
    (s.memAnswers a 32 false = true → t.hvc.job.map (fun j => (j.d, j.len, j.tag)) =
      some (leNat (s.peeks a 1) % 16, leNat (s.peeks (a + 16) 4), leNat (s.peeks (a + 24) 8))) ∧
    Keeps (fun _ => False) s t)

/-- A job ends with a completion record, and its command slot is free; an access unit of no bytes is complete with status
0, and one that memory does not answer, or whose descriptor it did not, has status 3 (R253, R255). -/
def decJobDone (s : State) (j : DecJob) (u : DecodedAu) : Prop :=
  s.domOn dHVC = true → s.err.slots = [] → s.mc.fills = [] → s.mc.reread = [] → Calm s → s.hvc.job = some j →
  s.f HVC_DEC_CPL_CFG_entries ≠ 0 →
  Runs (.decJobDone u) s (fun t =>
    let a := s.pair HVC_DEC_CPL_LO HVC_DEC_CPL_HI + s.f HVC_DEC_CPL_TAIL_cpl_tail % s.f HVC_DEC_CPL_CFG_entries * 32
    t.hvc.job = none ∧ t.f HVC_DEC_CPL_TAIL_cpl_tail = (s.f HVC_DEC_CPL_TAIL_cpl_tail + 1) % 2 ^ 32 ∧
    t.f HVC_DEC_CMD_HEAD_cmd_head = (s.f HVC_DEC_CMD_HEAD_cmd_head + 1) % 2 ^ 32 ∧ Told 0x30 8 j.d s t ∧
    RegsBut (fun x => x = HVC_DEC_CPL_TAIL ∨ x = HVC_DEC_CMD_HEAD ∨ x = HVC_DEC_CLIP) s t ∧
    MemBut (fun x => (List.range 16).any (fun e =>
      let p := s.pair (HVC_DC_DPB_LO j.d) (HVC_DC_DPB_HI j.d) + 16 * e
      let b := leAt (s.peeks p 8) 0 8 % 2 ^ 40
      decide (b ≤ x ∧ x < b + leAt (s.peeks (p + 8) 4) 0 4)) = true ∨ a ≤ x ∧ x < a + 32) s t ∧
    (j.sound = false ∨ j.len = 0 ∨ s.memAnswers j.addr j.len false = false →
      MemBut (fun x => a ≤ x ∧ x < a + 32) s t ∧
      (s.memAnswers a 32 true = true → t.peeks a 8 = leBytes 8 j.tag ∧
        t.peeks (a + 8) 4 = leBytes 4 (if j.sound && j.len == 0 then 0 else 3))))

/-- The CTB watchdog ends a job likewise; one whose access unit has a picture and finds a free entry raises its event
(R255, R256). -/
def decCtbWatchdog (s : State) (j : DecJob) (u : DecodedAu) (ctb e : Nat) : Prop :=
  s.domOn dHVC = true → s.err.slots = [] → s.mc.fills = [] → s.mc.reread = [] → Calm s → s.hvc.job = some j →
  j.sound = true → j.len ≠ 0 → s.memAnswers j.addr j.len false = true →
  ((auHead (s.dc j.d) (s.peeks j.addr j.len)).first.bind (fun h =>
    freeEntry (beforePic (s.dc j.d) h.2.1 h.1 (pocOf (s.dc j.d) h.2.1 h.1)))) = some e →
  Runs (.decCtbWatchdog u ctb) s (fun t =>
    t.hvc.job = none ∧ t.f HVC_DEC_CMD_HEAD_cmd_head = (s.f HVC_DEC_CMD_HEAD_cmd_head + 1) % 2 ^ 32 ∧
    s.hvc.decAt + (s.f HVC_DEC_CTB_TO_cycles + 1) * Config.fclk ≤ t.now ∧ Told 0x30 8 j.d s t ∧ Told 0x30 9 j.d s t ∧
    RegsBut (fun x => x = HVC_DEC_CPL_TAIL ∨ x = HVC_DEC_CMD_HEAD ∨ x = HVC_DEC_CLIP) s t ∧
    let p := s.pair (HVC_DC_DPB_LO j.d) (HVC_DC_DPB_HI j.d) + 16 * e
    let c := s.pair HVC_DEC_CPL_LO HVC_DEC_CPL_HI + s.f HVC_DEC_CPL_TAIL_cpl_tail % s.f HVC_DEC_CPL_CFG_entries * 32
    MemBut (fun b => leAt (s.peeks p 8) 0 8 % 2 ^ 40 ≤ b ∧ b < leAt (s.peeks p 8) 0 8 % 2 ^ 40 + leAt (s.peeks p 16) 8 4 ∨
      c ≤ b ∧ b < c + 32) s t)

/-- A release frees the entries its bits name (R254). -/
def dpbRelease (s : State) (r : Requester) (d : Nat) (v : Word) : Prop :=
  d < 16 → s.unitOn dHVC = true →
  Writes (.dpbRelease r d v) r (fun _ => False) s (fun t =>
    (t.dc d).held = (s.dc d).held.filter (fun e => !bitOf v.toNat e) ∧ (t.dc d).due = (s.dc d).due ∧ (t.dc d).pics = (s.dc d).pics)

/-! ### Pack engine (R260 to R269) -/

/-- A register of channel `c`. -/
abbrev ofChannel (c a : Nat) : Prop := PKE_CTRL c ≤ a ∧ a < PKE_CTRL c + 0x100

/-- go starts the job that an IDLE channel's registers describe; on another channel it sets bad_write (R260). -/
def pkeGo (s : State) (r : Requester) (c : Nat) (v : Word) : Prop :=
  c < 2 → s.unitOn dPKE = true →
  Writes (.pkeGo r c v) r (fun a => a = PKE_CTRL c ∨ a = PKE_CH_STATUS c ∨ a = PKE_IN_DONE c ∨ a = PKE_OUT_DONE c ∨ a = PKE_STATUS) s
    (fun t =>
      if s.f (PKE_CH_STATUS_state c) = 0
      then t.f (PKE_CH_STATUS_state c) = 1 ∧ t.f (PKE_IN_DONE_bytes c) = 0 ∧ t.f (PKE_OUT_DONE_bytes c) = 0 ∧
        (t.pkeJob c).map (fun j => (j.unpack, j.src, j.len, j.dst)) = some (bitOf v.toNat 4,
          s.pair (PKE_SRC_LO c) (PKE_SRC_HI c), s.f (PKE_SRC_LEN_bytes c), s.pair (PKE_DST_LO c) (PKE_DST_HI c)) ∧
        t.rd PKE_STATUS = s.rd PKE_STATUS
      else t.f PKE_STATUS_bad_write = 1 ∧ t.pke = s.pke ∧ t.rd (PKE_CTRL c) = s.rd (PKE_CTRL c))

/-- A running channel takes its turn; it writes its own output and index spaces alone, and ends with cause 4 where its
source does not answer (R261, R263, R269). -/
def pkeBlock (s : State) (c : Nat) (j : PkeJob) (p : Option PkeMemory) : Prop :=
  c < 2 → s.domOn dPKE = true → s.err.slots = [] → s.mc.fills = [] → s.mc.reread = [] → s.f (PKE_CH_STATUS_state c) = 1 → s.pkeJob c = some j → Calm s →
  s.pke.last ≠ some c ∨ s.f (PKE_CH_STATUS_state (1 - c)) ≠ 1 →
  Runs (.pkeBlock c p) s (fun t =>
    t.pke.last = some c ∧
    (j.queue = [] → s.memAnswers j.src j.len false = false →
      t.f (PKE_CH_STATUS_state c) = 0 ∧ t.f (PKE_CH_STATUS_cause c) = 4 ∧ Told 0x34 2 c s t) ∧
    RegsBut (fun a => a = PKE_CH_STATUS c ∨ a = PKE_IN_DONE c ∨ a = PKE_OUT_DONE c) s t ∧
    MemBut (fun a => j.dst ≤ a ∧ a < j.dst + j.dlen ∨ j.idx ≤ a ∧ a < j.idx + j.ilen) s t)

/-- A SUSPENDED channel resumes with the space its registers now give (R267, R268). -/
def pkeResume (s : State) (r : Requester) (c : Nat) (v : Word) (j : PkeJob) : Prop :=
  c < 2 → s.unitOn dPKE = true → s.f (PKE_CH_STATUS_state c) = 2 → s.pkeJob c = some j → bitOf v.toNat 2 = false →
  Writes (.pkeResume r c v) r (fun a => a = PKE_CTRL c ∨ a = PKE_CH_STATUS c ∨ a = PKE_OUT_DONE c) s (fun t =>
    t.f (PKE_CH_STATUS_state c) = 1 ∧ (t.pkeJob c).map (·.full) = some 0 ∧
    (j.full = 1 → t.f (PKE_OUT_DONE_bytes c) = 0 ∧ (t.pkeJob c).map (fun x => (x.dst, x.dlen, x.outAt)) =
      some (s.pair (PKE_DST_LO c) (PKE_DST_HI c), s.f (PKE_DST_LEN_bytes c), 0)))

/-- abort makes a channel IDLE, whatever it did (R268). -/
def pkeAbort (s : State) (r : Requester) (c : Nat) (v : Word) : Prop :=
  c < 2 → s.unitOn dPKE = true → bitOf v.toNat 0 = false →
  Writes (.pkeAbort r c v) r (fun a => a = PKE_CTRL c ∨ a = PKE_CH_STATUS c) s (fun t =>
    t.f (PKE_CH_STATUS_state c) = 0 ∧ t.pkeJob c = none)

/-! ### Memory (R271 to R285) -/

/-- An apply takes the masks written, if no sampled fault of them is singular and the memory is off; else the set in
force stays (R273, R274). -/
def memMapApply (s : State) (r : Requester) (v : Word) : Prop :=
  s.unitOn (dMEM 0) = true →
  Writes (.memMapApply r v) r (fun a => a = MEM_MAP_STATUS) s (fun t =>
    if s.b MEM_CTRL_en = true then t.f MEM_MAP_STATUS_bad_write = 1 ∧ t.mc = s.mc
    else if singular s.variant s.chWritten s.bkWritten = true then t.f MEM_MAP_STATUS_singular = 1 ∧ t.mc = s.mc
    else t.f MEM_MAP_STATUS_valid = 1 ∧ t.mc.chMask = s.chWritten ∧ t.mc.bkMask = s.bkWritten)

/-- A mask set is singular when a used mask is 0 or two used masks have the same highest bit (R273). -/
def singularSet (s : State) (ch bk : List Nat) : Prop :=
  (0 ∈ usedMasks s.variant ch bk ∨ ¬ ((usedMasks s.variant ch bk).map Nat.log2).Nodup) →
  singular s.variant ch bk = true

/-- The memory is enabled if a set is in force and the block is not locked (R274, R404). -/
def memEnable (s : State) (r : Requester) (v : Word) : Prop :=
  s.unitOn (dMEM 0) = true → s.b CFG_LOCK_lock = false →
  Writes (.memEnable r v) r (fun a => a = MEM_CTRL ∨ a = MEM_MAP_STATUS ∨ ∃ m < 4, a = MC_TRAIN_CTRL m) s (fun t =>
    if s.b MEM_MAP_STATUS_valid = true then t.b MEM_CTRL_en = true ∧ t.rd MEM_MAP_STATUS = s.rd MEM_MAP_STATUS
    else t.f MEM_MAP_STATUS_bad_write = 1 ∧ t.rd MEM_CTRL = s.rd MEM_CTRL)

/-- A request to unprotected DRAM is served: it reads the bytes, or writes those bytes alone, and its page hint and place
are those of the mapping in force (R23, R272, R275). -/
def dramRequest (s : State) (q : MemReq) (off : Nat) : Prop :=
  (Instr.dramRequest [q]).wf = true → s.domOn dFAB = true → s.mc.fills = [] → s.mc.reread = [] → s.err.slots = [] →
  s.memAnswers q.addr q.len q.write.isSome = true → regionOf s.variant q.addr = .dram off → s.inEcc q.addr = false →
  Runs (.dramRequest [q]) s (fun t =>
    t.mc.lastReply = ⟨false, 0⟩ ∧ t.mc.place = s.place off ∧ t.mc.hint = hintOf q.cls s ∧
    (q.write = none → t.mc.lastData = s.peeks q.addr q.len) ∧
    (q.write.isSome = true → t.peeks q.addr q.len = q.write.getD []) ∧
    MemBut (fun a => q.write.isSome = true ∧ q.addr ≤ a ∧ a < q.addr + q.len) s t ∧ RegsBut (fun _ => False) s t)

/-- A request that no memory answers draws an error response and changes nothing (R23). -/
def dramRefused (s : State) (q : MemReq) : Prop :=
  (Instr.dramRequest [q]).wf = true → s.domOn dFAB = true → s.mc.fills = [] → s.mc.reread = [] →
  s.memAnswers q.addr q.len q.write.isSome = false →
  Runs (.dramRequest [q]) s (fun t => t.mc.lastReply = ⟨true, 0⟩ ∧ Keeps (fun _ => False) s t)

/-- A read of a protected word with a single-bit error returns its data, and the word waits for a re-read (R284). -/
def dramSingle (s : State) (q : MemReq) (off : Nat) : Prop :=
  (Instr.dramRequest [q]).wf = true → s.domOn dFAB = true → s.mc.fills = [] → s.mc.reread = [] → s.err.slots = [] →
  s.memAnswers q.addr q.len false = true → q.write = none →
  regionOf s.variant q.addr = .dram off → s.inEcc q.addr = true → q.found = .single →
  Runs (.dramRequest [q]) s (fun t =>
    t.mc.lastReply = ⟨false, 0⟩ ∧ t.mc.lastData = s.peeks q.addr q.len ∧
    (look t.mc.reread (q.addr / 64 * 64)).isSome = true ∧ Keeps (fun _ => False) s t)

/-- A read of a protected word with a multi-bit error draws an error response, counts in MCn_ECC_UE and leaves its address
there (R284). -/
def dramMulti (s : State) (q : MemReq) (off m : Nat) : Prop :=
  (Instr.dramRequest [q]).wf = true → s.domOn dFAB = true → s.mc.fills = [] → s.mc.reread = [] → s.err.slots = [] →
  s.memAnswers q.addr q.len false = true → q.write = none →
  regionOf s.variant q.addr = .dram off → s.inEcc q.addr = true → q.found = .multi → m = s.channelOf off / 8 →
  Runs (.dramRequest [q]) s (fun t =>
    t.mc.lastReply = ⟨true, 0⟩ ∧ t.rd (MC_ECC_UE m) = s.rd (MC_ECC_UE m) + 1 ∧
    t.rd (MC_ECC_ADDR_UE m) = BitVec.ofNat 32 (off / 64) ∧ Told (0x38 + m) 2 (s.channelOf off % 8) s t ∧
    Keeps (fun a => a = MC_ECC_UE m ∨ a = MC_ECC_ADDR_UE m ∨ a = ERR_LAST) s t)

/-- The re-read of a DRAM word whose error is gone counts a corrected error, and the word waits no longer; one that still
reads a single-bit error is a last correction (R284, R450). -/
def eccReread (s : State) (a off m : Nat) (b : Bool) (inj : Bool) : Prop :=
  a % 64 = 0 → s.pwr.clkLost = false → a < l2Base → look s.mc.reread a = some inj → s.err.slots = [] → regionOf s.variant a = .dram off →
  s.inEcc a = true → m = s.channelOf off / 8 →
  Runs (.eccReread a (if b then .single else .clean)) s (fun t =>
    look t.mc.reread a = none ∧ t.rd (MC_ECC_ADDR_CE m) = BitVec.ofNat 32 (off / 64) ∧
    t.rd (MC_ECC_CE m) = s.rd (MC_ECC_CE m) + (if b then 0 else 1) ∧
    t.rd (MC_ECC_CE_LAST m) = s.rd (MC_ECC_CE_LAST m) + (if b then 1 else 0) ∧
    Told (0x38 + m) (if b then 1 else 0) (s.channelOf off % 8) s t ∧
    Keeps (fun x => x = MC_ECC_ADDR_CE m ∨ x = MC_ECC_CE m ∨ x = MC_ECC_CE_LAST m ∨ x = ERR_LAST) s t)

/-- A region with room and no overlap is enabled and its fill begins; one of size 0 is enabled and protects nothing
(R283). -/
def eccRegionEnable (s : State) (r : Requester) (k : Nat) (v : Word) : Prop :=
  k < 8 → s.unitOn (dMEM 0) = true → s.b CFG_LOCK_lock = false → s.b (MEM_ECC_RGN_CTRL_en k) = false →
  (∀ j < 8, s.b (MEM_ECC_RGN_CTRL_en j) = false) →
  let b := s.pair (MEM_ECC_RGN_LO k) (MEM_ECC_RGN_HI k)
  let d := s.f (MEM_ECC_RGN_SIZE_size k) * 0x1000000
  Config.dramBase ≤ b → b + d + d / 8 ≤ Config.dramBase + Config.dramSize s.variant →
  Writes (.eccRegionEnable r k v) r (fun a => a = MEM_ECC_RGN_CTRL k) s (fun t =>
    t.b (MEM_ECC_RGN_CTRL_en k) = true ∧ (d ≠ 0 → t.b (MEM_ECC_RGN_CTRL_busy k) = true ∧ t.mc.fills = s.mc.fills ++ [k]))

/-- A fill's end clears busy; the region's data area then reads 0, and no memory outside the region and its check bytes changed (R283). -/
def eccFillDone (s : State) (k : Nat) (b d : Nat) : Prop :=
  k < 8 → s.pwr.clkLost = false → s.mc.fills.contains k = true → s.eccRegion k = some (b, d) → Config.romSize ≤ b →
  Runs (.eccFillDone k) s (fun t =>
    t.b (MEM_ECC_RGN_CTRL_busy k) = false ∧ t.mc.fills.contains k = false ∧ t.peek b = 0 ∧ t.peek (b + d - 1) = 0 ∧
    MemBut (fun a => b ≤ a ∧ a < b + d + d / 8) s t ∧ RegsBut (fun a => a = MEM_ECC_RGN_CTRL k) s t)

/-- An interval adds a refresh debt; a ninth closes every row of the channel and refreshes it whole (R278). -/
def refreshInterval (s : State) (m ch : Nat) : Prop :=
  Calm s → m < 4 → ch < 8 → s.chanOn m ch = true →
  Runs (.refreshInterval m ch) s (fun t =>
    let d := lookD s.mc.debt 0 (m * 8 + ch) + 1
    (if d ≤ 8 then lookD t.mc.debt 0 (m * 8 + ch) = d ∧ Quiet s t ∧ Keeps (fun _ => False) s t
    else lookD t.mc.debt 0 (m * 8 + ch) = d - 8 ∧ t.rd (MC_REF_FORCED m) = s.rd (MC_REF_FORCED m) + 1 ∧
      Told (0x38 + m) 3 ch s t ∧ (t.mc.rows.all (fun e => e.1 / 16 != m * 8 + ch)) = true ∧
      Keeps (fun a => a = MC_REF_FORCED m) s t))

/-- A bank refresh takes the banks in turn while refresh is owed and no request waits; the eighth pays one interval
(R278). -/
def perBankRefresh (s : State) (m ch : Nat) : Prop :=
  Calm s → m < 4 → ch < 8 → s.chanOn m ch = true → 0 < lookD s.mc.debt 0 (m * 8 + ch) →
  Runs (.perBankRefresh m ch false) s (fun t =>
    let r := lookD s.mc.rota 0 (m * 8 + ch)
    lookD t.mc.rota 0 (m * 8 + ch) = (r + 1) % 8 ∧
    lookD t.mc.debt 0 (m * 8 + ch) = lookD s.mc.debt 0 (m * 8 + ch) - (if r = 7 then 1 else 0) ∧
    Keeps (fun _ => False) s t)

/-- The reading of MR4 falls mr4_ms after the one before and holds the hottest channel's code; a change raises its event,
and each channel whose code says it is beyond its limit raises DRAM_TEMP_LIMIT (R279; the code is log 37). -/
def mr4Read (s : State) (m : Nat) (codes : List Nat) : Prop :=
  (Instr.mr4Read m codes).wf = true → s.chanOn m 0 = true → codes.length = Config.channels s.variant → Calm s →
  Runs (.mr4Read m codes) s (fun t =>
    t.f (MC_MR4_rate m) = codes.foldl max 0 ∧
    t.now = max s.now (max (lookD s.mc.mr4At 0 m) (s.mcSince m) + (max 1 (s.f (MC_REF_CFG_mr4_ms m))) * 1000000000) ∧
    (codes.foldl max 0 ≠ s.f (MC_MR4_rate m) → Told (0x38 + m) 4 (codes.findIdx (· == codes.foldl max 0)) s t) ∧
    (∀ i < codes.length, codes[i]? = some 31 → Told (0x38 + m) 5 i s t) ∧ Keeps (fun a => a = MC_MR4 m) s t)

/-- Training starts on every channel with the memory off; with it on, bad_write is set (R281). -/
def trainGo (s : State) (r : Requester) (m : Nat) (v : Word) : Prop :=
  m < 4 → s.unitOn (dMEM m) = true →
  Writes (.trainGo r m v) r (fun a => a = MC_STATUS m ∨ a = MC_TRAIN m ∨ a = MC_TRAIN_CTRL m) s (fun t =>
    if s.b MEM_CTRL_en = true then t.f (MC_STATUS_bad_write m) = 1 ∧ t.mc = s.mc
    else t.f (MC_TRAIN_done m) = 0 ∧ t.f (MC_TRAIN_pass m) = 0 ∧
      lookD t.mc.training [] m = List.range (Config.channels s.variant))

/-- A channel's training ends: it passes when the first try or the retry passed, else TRAIN_FAIL is raised (R281). -/
def trainDone (s : State) (m ch : Nat) (first retry : Bool) : Prop :=
  m < 4 → ch < 8 → s.domOn (dMEM m) = true → s.err.slots = [] → (lookD s.mc.training [] m).contains ch = true →
  Runs (.trainDone m ch first retry) s (fun t =>
    bitOf (t.f (MC_TRAIN_done m)) ch = true ∧
    (if first || retry then bitOf (t.f (MC_TRAIN_pass m)) ch = true else Told (0x38 + m) 7 ch s t) ∧
    Keeps (fun a => a = MC_TRAIN m ∨ a = MC_TRAIN_CTRL m ∨ a = ERR_LAST) s t)

/-- An update that failed twice raises its event; one that passed changes no register (R282). -/
def trackingUpdate (s : State) (m ch : Nat) (first retry : Bool) : Prop :=
  Calm s → m < 4 → ch < 8 → s.chanOn m ch = true → s.b MEM_CTRL_en = true →
  Runs (.trackingUpdate m ch first retry) s (fun t =>
    (first = false → retry = false → Told (0x38 + m) 6 ch s t) ∧ (first = true →
      t.evr.flight.filter (fun e => e.id == (0x38 + m) * 256 + 6) = s.evr.flight.filter (fun e => e.id == (0x38 + m) * 256 + 6)) ∧
    Keeps (fun a => a = ERR_LAST ∧ first = false ∧ retry = false) s t)

/-! ### Record media (R286 to R309) -/

/-- A register of the record-media block. -/
abbrev inRm (a : Nat) : Prop := 0x46000000 ≤ a ∧ a < 0x46100000

/-- A register of the offload endpoint. -/
abbrev inOep (a : Nat) : Prop := 0x46100000 ≤ a ∧ a < 0x46200000

/-- The registers that show a lock released (R329). -/
abbrev lockRel (a : Nat) : Prop := a = OEP_LOCK_REL_LO ∨ a = OEP_LOCK_REL_HI ∨ a = OEP_LOCK_STAT

/-- The registers that show the lock table (R328, R329). -/
abbrev lockShown (a : Nat) : Prop := lockRel a ∨ a = OEP_LOCK_GRANT_LO ∨ a = OEP_LOCK_GRANT_HI ∨ a = OEP_LOCK_RT_WAIT

/-- The registers that show the volumes, their members and the streams. -/
abbrev volShown (a : Nat) : Prop :=
  (List.range 4).any (fun v => a == RM_VOL_STATUS v || a == RM_VOL_ID_LO v || a == RM_VOL_ID_HI v || a == RM_MBR_STATUS v) = true

/-- A byte of the members' queues or of the allocation mirror. -/
abbrev rmMem (s : State) (a : Nat) : Prop :=
  (s.pair RM_QBASE_LO RM_QBASE_HI ≤ a ∧ a < s.pair RM_QBASE_LO RM_QBASE_HI + 0x200000) ∨
  (s.mirrorAt 0 ≤ a ∧ a < s.mirrorAt 0 + 0x10000)

/-- The command is a metadata task's. -/
def forTask (c : NvCmd) : Bool := match c.owner with
  | .task _ => true
  | _ => false

/-- attach takes an ABSENT member that is not attaching; on another it sets bad_write (R287). -/
def memberAttach (s : State) (r : Requester) (m : Nat) (v : Word) : Prop :=
  m < 4 → s.unitOn dRM = true → bitOf v.toNat 1 = false → bitOf v.toNat 2 = false →
  Writes (.memberAttach r m v) r (fun a => a = RM_MBR_CTRL m ∨ a = RM_STATUS) s (fun t =>
    if s.f (RM_MBR_STATUS_state m) = 0 ∧ s.b (RM_MBR_CTRL_attach m) = false
    then t.b (RM_MBR_CTRL_attach m) = true ∧ t.rd RM_STATUS = s.rd RM_STATUS
    else t.f RM_STATUS_bad_write = 1 ∧ t.rd (RM_MBR_CTRL m) = s.rd (RM_MBR_CTRL m))

/-- detach makes an IDLE or returned member ABSENT and cancels an attach; on another it sets bad_write (R307). -/
def memberDetach (s : State) (r : Requester) (m : Nat) (v : Word) : Prop :=
  m < 4 → s.unitOn dRM = true → bitOf v.toNat 0 = false → bitOf v.toNat 2 = false →
  Writes (.memberDetach r m v) r (fun a => a = RM_MBR_CTRL m ∨ a = RM_MBR_STATUS m ∨ a = RM_STATUS) s (fun t =>
    if s.f (RM_MBR_STATUS_state m) = 1 ∨ s.f (RM_MBR_STATUS_state m) = 5
    then t.f (RM_MBR_STATUS_state m) = 0 ∧ t.f (RM_MBR_STATUS_outstanding m) = 0 ∧ (t.mbr m).cmds = [] ∧ t.rd RM_STATUS = s.rd RM_STATUS
    else if s.f (RM_MBR_STATUS_state m) = 0
    then t.b (RM_MBR_CTRL_attach m) = false ∧ t.rd RM_STATUS = s.rd RM_STATUS
    else t.f RM_STATUS_bad_write = 1 ∧ t.rd (RM_MBR_STATUS m) = s.rd (RM_MBR_STATUS m))

/-- readmit attaches a returned member with no command outstanding; on another it sets bad_write (R307). -/
def memberReadmit (s : State) (r : Requester) (m : Nat) (v : Word) : Prop :=
  m < 4 → s.unitOn dRM = true → bitOf v.toNat 0 = false → bitOf v.toNat 1 = false →
  Writes (.memberReadmit r m v) r (fun a => a = RM_MBR_CTRL m ∨ a = RM_STATUS) s (fun t =>
    if s.f (RM_MBR_STATUS_state m) = 5 ∧ s.f (RM_MBR_STATUS_outstanding m) = 0
    then t.b (RM_MBR_CTRL_attach m) = true ∧ (t.mbr m).readm = true ∧ t.rd RM_STATUS = s.rd RM_STATUS
    else t.f RM_STATUS_bad_write = 1 ∧ t.rd (RM_MBR_CTRL m) = s.rd (RM_MBR_CTRL m))

/-- An attach whose steps all passed leaves the member IDLE with its size known; one that failed leaves it ABSENT with the
step's cause (R287). -/
def attachComplete (s : State) (m : Nat) (x : AttachResult) : Prop :=
  m < 4 → s.domOn dRM = true → s.b RM_CTRL_en = true → s.b (RM_MBR_CTRL_attach m) = true → (s.mbr m).readm = false →
  x.blocks < 2 ^ 64 →
  Runs (.attachComplete m x) s (fun t =>
    t.b (RM_MBR_CTRL_attach m) = false ∧
    (if x.linkUp = true ∧ x.ready = true ∧ x.nsPresent = true ∧ x.lbaFormat = true ∧ 2048 ≤ x.blocks ∧ 4 ≤ x.pairs
    then t.f (RM_MBR_STATUS_state m) = 1 ∧ t.f (RM_MBR_STATUS_cause m) = 0 ∧
      t.pair (RM_MBR_BLOCKS_LO m) (RM_MBR_BLOCKS_HI m) = x.blocks ∧ (t.mbr m).uid = x.uid ∧ Told 0x40 0 m s t
    else t.f (RM_MBR_STATUS_state m) = 0 ∧ t.f (RM_MBR_STATUS_cause m) = attachCause x ∧ Told 0x40 12 m s t) ∧
    RegsBut (fun a => a = RM_MBR_CTRL m ∨ a = RM_MBR_STATUS m ∨ a = RM_MBR_BLOCKS_LO m ∨ a = RM_MBR_BLOCKS_HI m) s t ∧
    MemBut (rmMem s) s t)

/-- A write of the current generation that succeeds is on the member's medium, and on no other member's; the command is
complete (R288, R289). -/
def nvmeCompletion (s : State) (m : Nat) (cid : BitVec 16) (c : NvCmd) (k no b n : Nat) (cells : List Host.Cell) : Prop :=
  m < 4 → s.domOn dRM = true → s.rm.opens = [] → s.mc.fills = [] → s.mc.reread = [] → s.err.slots = [] →
  (s.mbr m).cmds.find? (fun c => c.cid == cid.toNat) = some c → cid.toNat / 4096 = s.f (RM_MBR_GEN_gen m) % 16 →
  c.old = false → c.tries = 0 → c.owner = .flight k no → c.op = .write b n cells → (cells.all (fun e => e.1 < n * 4096)) = true →
  Runs (.nvmeCompletion m cid true) s (fun t =>
    (t.mbr m).cmds = (s.mbr m).cmds.filter (fun y => y.cid != cid.toNat) ∧
    (lookD t.media [] m).filter (fun e => b * 4096 ≤ e.1 && e.1 < (b + n) * 4096) = cells.map (fun e => (b * 4096 + e.1, e.2)) ∧
    (lookD t.media [] m).filter (fun e => e.1 < b * 4096) = (lookD s.media [] m).filter (fun e => e.1 < b * 4096) ∧
    (lookD t.media [] m).filter (fun e => (b + n) * 4096 ≤ e.1) = (lookD s.media [] m).filter (fun e => (b + n) * 4096 ≤ e.1) ∧
    (∀ j < 4, j ≠ m → look t.media j = look s.media j) ∧
    RegsBut (fun a => (List.range 8).any (fun j => a == RM_STR_STATUS j) = true ∨ lockShown a) s t ∧ MemBut (rmMem s) s t)

/-- A completion whose identifier carries an old generation is fenced: it is counted and its command is gone (R304). -/
def nvmeFenced (s : State) (m : Nat) (cid : BitVec 16) (ok : Bool) (c : NvCmd) : Prop :=
  m < 4 → s.domOn dRM = true → s.rm.opens = [] → s.mc.fills = [] → s.mc.reread = [] → s.err.slots = [] →
  (s.mbr m).cmds.find? (fun c => c.cid == cid.toNat) = some c → cid.toNat / 4096 ≠ s.f (RM_MBR_GEN_gen m) % 16 →
  Runs (.nvmeCompletion m cid ok) s (fun t =>
    t.rd (RM_MBR_FENCED m) = s.rd (RM_MBR_FENCED m) + 1 ∧ (t.mbr m).cmds = (s.mbr m).cmds.filter (fun y => y.cid != cid.toNat) ∧
    ((s.mbr m).told = false → Told 0x40 11 m s t) ∧
    RegsBut (fun a => a = RM_MBR_FENCED m ∨ a = RM_MBR_STATUS m ∨ a = ERR_LAST) s t ∧ MemBut (rmMem s) s t)

/-- A first failure is retried with the same operation (R303). -/
def nvmeRetried (s : State) (m : Nat) (cid : BitVec 16) (c : NvCmd) : Prop :=
  m < 4 → s.domOn dRM = true → s.rm.opens = [] → s.mc.fills = [] → s.mc.reread = [] → s.err.slots = [] →
  (s.mbr m).cmds.find? (fun c => c.cid == cid.toNat) = some c → cid.toNat / 4096 = s.f (RM_MBR_GEN_gen m) % 16 →
  c.old = false → c.tries = 0 →
  Runs (.nvmeCompletion m cid false) s (fun t =>
    t.rd (RM_MBR_RETRY m) = s.rd (RM_MBR_RETRY m) + 1 ∧ Told 0x40 1 m s t ∧
    (t.mbr m).cmds.getLast?.map (fun x => (x.op, x.owner, x.tries)) = some (c.op, c.owner, 1) ∧
    t.f (RM_MBR_STATUS_state m) = s.f (RM_MBR_STATUS_state m) ∧ t.media = s.media ∧
    RegsBut (fun a => a = RM_MBR_RETRY m) s t ∧ MemBut (rmMem s) s t)

/-- A command that does not complete in time fails likewise (R303). -/
def nvmeTimeout (s : State) (m : Nat) (cid : BitVec 16) (c : NvCmd) : Prop :=
  m < 4 → s.domOn dRM = true → s.rm.opens = [] → s.mc.fills = [] → s.mc.reread = [] → Calm s →
  (s.mbr m).cmds.find? (fun c => c.cid == cid.toNat && !c.old && !c.gone) = some c → c.tries = 0 →
  Runs (.nvmeTimeout m cid) s (fun t =>
    t.now = max s.now c.due ∧ t.rd (RM_MBR_RETRY m) = s.rd (RM_MBR_RETRY m) + 1 ∧ Told 0x40 1 m s t ∧
    (t.mbr m).cmds.getLast?.map (fun x => (x.op, x.owner, x.tries)) = some (c.op, c.owner, 1) ∧
    RegsBut (fun a => a = RM_MBR_RETRY m ∨ a = RM_MBR_STATUS m ∨ a = ERR_LAST) s t ∧ MemBut (rmMem s) s t)

/-- The second failure of a command is the member's death: its state and generation change; a member of no volume with no
other command changes nothing else (R303, R304). -/
def memberDies (s : State) (m : Nat) (cid : BitVec 16) (c : NvCmd) : Prop :=
  m < 4 → s.domOn dRM = true → s.rm.opens = [] → s.mc.fills = [] → s.mc.reread = [] → s.err.slots = [] → (s.mbr m).cmds = [c] → c.cid = cid.toNat →
  cid.toNat / 4096 = s.f (RM_MBR_GEN_gen m) % 16 → c.old = false → c.tries = 1 → s.volOf m = none →
  forTask c = false →
  Runs (.nvmeCompletion m cid false) s (fun t =>
    t.f (RM_MBR_STATUS_state m) = 4 ∧ t.f (RM_MBR_GEN_gen m) = (s.f (RM_MBR_GEN_gen m) + 1) % 65536 ∧ Told 0x40 2 m s t ∧
    RegsBut (fun a => a = RM_MBR_STATUS m ∨ a = RM_MBR_GEN m ∨ a = ERR_LAST) s t ∧ MemBut (rmMem s) s t)

/-- The loss of a root port's link is the death of the member behind it (R303). -/
def rootPortLinkDown (s : State) (m : Nat) : Prop :=
  m < 4 → s.domOn dRM = true → s.rm.opens = [] → s.err.slots = [] → (s.mbr m).cmds = [] → s.volOf m = none → (s.mbr m).linkUp = true →
  1 ≤ s.f (RM_MBR_STATUS_state m) → s.f (RM_MBR_STATUS_state m) ≤ 3 →
  Runs (.rootPortLinkDown m) s (fun t =>
    t.f (RM_MBR_STATUS_state m) = 4 ∧ t.f (RM_MBR_GEN_gen m) = (s.f (RM_MBR_GEN_gen m) + 1) % 65536 ∧ (t.mbr m).linkUp = false ∧
    Told 0x40 2 m s t ∧ Keeps (fun a => a = RM_MBR_STATUS m ∨ a = RM_MBR_GEN m ∨ a = ERR_LAST) s t)

/-- When a position holder dies that has no other copy, a live spare takes the position (R305). -/
def spareTakesOver (s : State) (m v : Nat) (x : VolSt) (l sp : VolSlot) : Prop :=
  m < 4 → s.domOn dRM = true → s.rm.opens = [] → s.mc.fills = [] → s.mc.reread = [] → s.err.slots = [] → (s.mbr m).cmds = [] → (s.mbr m).linkUp = true →
  1 ≤ s.f (RM_MBR_STATUS_state m) → s.f (RM_MBR_STATUS_state m) ≤ 3 →
  s.volOf m = some (v, x) → v < 4 → x.slots.find? (fun y => y.m == m) = some l → l.role = 1 → l.pos < 4 →
  (s.holders x l.pos).filter (· != m) = [] → x.slots.find? (fun y => y.role == 2 && y.m != m && s.mbrLive y.m) = some sp →
  sp.m < 4 → (x.slots.map (·.m)).Nodup → s.streamsOf v = [] →
  Runs (.rootPortLinkDown m) s (fun t =>
    t.f (RM_MBR_STATUS_state m) = 4 ∧ t.f (RM_MBR_STATUS_state sp.m) = 2 ∧ t.f (RM_VOL_STATUS_spare_used v) = 1 ∧
    (look t.rm.vols v).map (fun y => (look y.spared l.pos, y.took)) = some (some [], some (s.now, l.pos, sp.m)) ∧ Told 0x40 4 (l.pos * 16 + sp.m) s t ∧
    RegsBut (fun a => volShown a ∨ a = RM_MBR_GEN m ∨ a = ERR_LAST) s t ∧ MemBut (rmMem s) s t)

/-- A dead member whose link and controller return waits for firmware, and shows the link as it trained (R286, R307). -/
def memberLinkReturn (s : State) (m sp w : Nat) : Prop :=
  m < 4 → s.domOn dRM = true → s.b RM_CTRL_en = true → s.f (RM_MBR_STATUS_state m) = 4 → sp < 8 → w = 1 ∨ w = 2 ∨ w = 4 →
  Runs (.memberLinkReturn m sp w) s (fun t =>
    t.f (RM_MBR_STATUS_state m) = 5 ∧ t.f (RM_MBR_STATUS_outstanding m) = s.f (RM_MBR_STATUS_outstanding m) ∧
    t.f (RM_MBR_STATUS_speed m) = sp ∧ 2 ^ t.f (RM_MBR_STATUS_width m) = w ∧ (t.mbr m).linkUp = true ∧ Told 0x40 3 m s t ∧
    Keeps (fun a => a = RM_MBR_STATUS m) s t)

/-- A format of IDLE members that suit the layout makes the volume OPENING and takes the members; a format refused sets
bad_write (R291, R307, R309). -/
def volFormat (s : State) (r : Requester) (v : Nat) (w : Word) (x : VolSt) : Prop :=
  v < 4 → s.unitOn dRM = true → s.mc.fills = [] → s.mc.reread = [] → s.err.slots = [] → bitOf w.toNat 2 = false → formatOf v s = some x →
  Runs (.volFormat r v w) s (fun t =>
    Answered r 0 t ∧ t.f (RM_VOL_STATUS_state v) = 1 ∧ (look t.rm.vols v).map (·.id) = some x.id ∧
    (x.slots.all (fun l => t.f (RM_MBR_STATUS_state l.m) == (if l.role = 2 then 3 else 2))) = true ∧
    RegsBut (fun a => volShown a ∨ a = RM_STATUS) s t ∧ MemBut (rmMem s) s t)

/-- See `volFormat`. -/
def volFormatRefused (s : State) (r : Requester) (v : Nat) (w : Word) : Prop :=
  v < 4 → s.unitOn dRM = true → bitOf w.toNat 2 = false → formatOf v s = none →
  Writes (.volFormat r v w) r (fun a => a = RM_STATUS) s (fun t => t.f RM_STATUS_bad_write = 1 ∧ t.rm = s.rm)

/-- An opening that finds no member of the volume IDLE ends in VOL_FAILED; of a volume that is not CLOSED, or of a reserved
layout, it is refused (R308). -/
def volOpenFails (s : State) (r : Requester) (v : Nat) (w : Word) : Prop :=
  v < 4 → s.unitOn dRM = true → s.rm.opens = [] → bitOf w.toNat 2 = false →
  (∀ i < 4, s.f (RM_MBR_STATUS_state (s.cfgMember v i)) ≠ 1) → s.f (RM_VOL_CFG_count v) ≤ 4 →
  Writes (.volOpen r v w) r (fun a => a = RM_STATUS ∨ a = RM_VOL_STATUS v) s (fun t =>
    if s.f (RM_VOL_STATUS_state v) ≠ 0 ∨ s.f (RM_VOL_CFG_layout v) = 3
    then t.f RM_STATUS_bad_write = 1 ∧ t.rd (RM_VOL_STATUS v) = s.rd (RM_VOL_STATUS v)
    else t.f (RM_VOL_STATUS_state v) = 4 ∧ Told 0x40 6 v s t)

/-- Opening a CLOSED volume of one member, which is IDLE, makes it OPENING and issues the Reads of both its superblocks
(R288, R308). -/
def volOpens (s : State) (r : Requester) (v : Nat) (w : Word) : Prop :=
  v < 4 → s.unitOn dRM = true → s.rm.opens = [] → s.mc.fills = [] → s.err.slots = [] → s.mc.reread = [] → bitOf w.toNat 2 = false →
  s.f (RM_VOL_STATUS_state v) = 0 → s.f (RM_VOL_CFG_layout v) = 0 → s.f (RM_VOL_CFG_count v) = 1 →
  s.f (RM_MBR_STATUS_state (s.cfgMember v 0)) = 1 →
  Runs (.volOpen r v w) s (fun t =>
    let m := s.cfgMember v 0
    Answered r 0 t ∧ t.f (RM_VOL_STATUS_state v) = 1 ∧
    (t.mbr m).cmds.map (·.op) = (s.mbr m).cmds.map (·.op) ++ [.read 0 1, .read (s.mbrBlocks m - 1) 1] ∧
    t.media = s.media ∧ RegsBut (fun a => a = RM_VOL_STATUS v) s t ∧ MemBut (rmMem s) s t)

/-- With the last of those Reads complete, the volume is what its superblock says: its identity is known, its member ACTIVE,
and the metadata area is read next (R292, R308). -/
def volTaken (s : State) (v m id : Nat) (cid : BitVec 16) (c : NvCmd) (k : RmTask) (b : List Byte) : Prop :=
  v < 4 → s.domOn dRM = true → s.err.slots = [] → s.mc.fills = [] → s.mc.reread = [] →
  s.rm.opens = [(v, { step := 1 })] → s.f (RM_VOL_STATUS_state v) = 1 → s.f (RM_VOL_CFG_count v) = 1 → m = s.cfgMember v 0 →
  s.f (RM_MBR_STATUS_state m) = 1 → (s.mbr m).cmds = [c] → c.cid = cid.toNat → cid.toNat / 4096 = s.f (RM_MBR_GEN_gen m) % 16 →
  c.old = false → c.tries = 0 → c.owner = .task id → c.op = .read (s.mbrBlocks m - 1) 1 → look s.rm.tasks id = some k → k.left = 1 →
  k.phases = [] → k.fin = .opening v → (bestSb m s).1 = some b → (volFromSb v b s).layout = 0 →
  (volFromSb v b s).slots.map (fun l => (l.role, l.pos)) = [(1, 0)] →
  Runs (.nvmeCompletion m cid true) s (fun t =>
    t.pair (RM_VOL_ID_LO v) (RM_VOL_ID_HI v) = leAt b 8 8 ∧ t.f (RM_VOL_STATUS_state v) = 1 ∧
    (look t.rm.vols v).map (·.total) = some (leAt b 0x28 8) ∧ t.f (RM_MBR_STATUS_state m) = 2 ∧
    (t.mbr m).cmds.head?.map (fun x => match x.op with | .read a _ => a | _ => 0) = some 1 ∧
    t.media = s.media ∧ RegsBut volShown s t ∧ MemBut (rmMem s) s t)

/-- A volume with no recording closes at once: it is CLOSED and its members IDLE (R301, R307). -/
def volClose (s : State) (r : Requester) (v : Nat) (w : Word) (x : VolSt) : Prop :=
  v < 4 → s.unitOn dRM = true → bitOf w.toNat 0 = false → bitOf w.toNat 1 = false → look s.rm.vols v = some x →
  (∀ k < 8, s.f (RM_STR_STATUS_state k) = 0) → (x.slots.all (fun l => l.m < 4)) = true →
  (s.rm.tasks.all (fun e => e.2.vol != v)) = true →
  Runs (.volClose r v w) s (fun t =>
    Answered r 0 t ∧ t.f (RM_VOL_STATUS_state v) = 0 ∧ look t.rm.vols v = none ∧
    (x.slots.all (fun l => t.f (RM_MBR_STATUS_state l.m) ≠ 2)) = true ∧ Keeps volShown s t)

/-- A stream opens a clip on a running volume: it records and has committed no frame; a command it cannot obey sets
bad_write (R298). -/
def clipOpen (s : State) (r : Requester) (k : Nat) (v : Word) (g : RingId) : Prop :=
  k < 8 → s.unitOn dRM = true → s.mc.fills = [] → s.mc.reread = [] → s.err.slots = [] → bitOf v.toNat 1 = false →
  sourceRing (s.f (RM_STR_CFG_src_blk k)) (s.f (RM_STR_CFG_src_out k)) = some g →
  Runs (.clipOpen r k v) s (fun t =>
    Answered r 0 t ∧
    (if s.f (RM_STR_STATUS_state k) = 0 ∧ s.volRuns (s.f (RM_STR_CFG_vol k)) = true ∧ s.f (RM_STR_CLIP_clip_id k) ≠ 0
    then t.f (RM_STR_STATUS_state k) = 1 ∧ t.f (RM_STR_COMMITTED_frames k) = 0 ∧ (t.str k).clip.id = s.f (RM_STR_CLIP_clip_id k) ∧
      (t.str k).ring = some g
    else t.f RM_STATUS_bad_write = 1 ∧ t.rm = s.rm) ∧
    RegsBut (fun a => a = RM_STATUS ∨ a = RM_STR_STATUS k ∨ a = RM_STR_COMMITTED k ∨ a = (ringRegs g).stat) s t ∧ MemBut (rmMem s) s t)

/-- A grant joins the stream's queue of two; one too many, or past the volume's end, sets bad_write (R299). -/
def grantPush (s : State) (r : Requester) (k : Nat) (v : Word) (x : VolSt) : Prop :=
  k < 8 → s.unitOn dRM = true → look s.rm.vols (s.f (RM_STR_CFG_vol k)) = some x → s.f (RM_STR_STATUS_state k) ≠ 2 →
  s.f (RM_STR_GRANT_LEN_blocks k) ≠ 0 →
  let first := s.pair (RM_STR_GRANT_LO k) (RM_STR_GRANT_HI k)
  let n := s.f (RM_STR_GRANT_LEN_blocks k)
  Writes (.grantPush r k v) r (fun a => a = RM_STATUS ∨ a = RM_STR_STATUS k ∨ a = RM_STR_GRANT_EXT k) s (fun t =>
    if 2 ≤ (s.str k).grants.length ∨ x.total < first + n then t.f RM_STATUS_bad_write = 1 ∧ t.rm = s.rm
    else (t.str k).grants = (s.str k).grants ++ [⟨(s.str k).grantNo, first, first, first + n, bitsOf v.toNat 15 0⟩] ∧
      t.f (RM_STR_STATUS_grants k) = (s.str k).grants.length + 1)

/-- The next frame of the stream's ring is taken at the cursor of its grant: that many whole blocks of 4 KiB (R298). -/
def streamFrame (s : State) (k b : Nat) (g : RingId) (h : Grant) (u : List Grant) : Prop :=
  k < 8 → s.domOn dRM = true → s.mc.fills = [] → s.mc.reread = [] → s.err.slots = [] → s.b RM_CTRL_en = true →
  s.f (RM_STR_STATUS_state k) = 1 →
  s.volRuns (s.str k).vol = true → s.nextFrame k = some b → (s.str k).ring = some g → (s.str k).owed = false →
  s.memAnswers (s.slotAddr g b) 128 false = true → (s.str k).entries.length < 126 → (s.str k).grants = h :: u → (s.str k).flights = [] → s.oep.locks = [] →
  let n := ceilDiv (descBuf (s.peeks (s.slotAddr g b) 128)).written 4096
  n ≤ h.stop - h.cur →
  Runs (.streamFrame k) s (fun t =>
    (t.str k).grants = { h with cur := h.cur + n } :: u ∧
    (t.str k).flights.map (fun f => (f.index, f.buf, f.vbn, f.blocks)) = [(false, b, h.cur, n)] ∧
    t.rd (RM_STR_NOSPACE k) = s.rd (RM_STR_NOSPACE k) ∧
    RegsBut (fun a => a = RM_STR_STATUS k ∨ lockShown a) s t ∧ MemBut (rmMem s) s t)

/-- A frame that fits in no queued grant is released, counted and told (R299). -/
def streamNoSpace (s : State) (k b : Nat) (g : RingId) : Prop :=
  k < 8 → s.domOn dRM = true → s.b RM_CTRL_en = true → s.f (RM_STR_STATUS_state k) = 1 →
  s.volRuns (s.str k).vol = true → s.nextFrame k = some b → (s.str k).ring = some g → (s.str k).owed = false →
  (s.str k).grants = [] →
  Runs (.streamFrame k) s (fun t =>
    t.rd (RM_STR_NOSPACE k) = s.rd (RM_STR_NOSPACE k) + 1 ∧ Told 0x40 8 k s t ∧
    t.heldBy g (.stream k) = (s.heldBy g (.stream k)).erase b ∧
    Keeps (fun a => a = RM_STR_NOSPACE k ∨ a = (ringRegs g).stat) s t)

/-- The oldest frame commits when its writes are complete: it counts, and its buffer goes back to the ring (R300). -/
def frameCommit (s : State) (k : Nat) (g : RingId) (f : Flight) (l : List Flight) : Prop :=
  k < 8 → s.domOn dRM = true → s.mc.fills = [] → s.mc.reread = [] → s.err.slots = [] → s.f (RM_STR_STATUS_state k) = 1 → (s.str k).flights = f :: l →
  f.issued = true → f.left = 0 → f.index = false → (s.str k).ring = some g →
  (∀ j < 64, ¬ rmMem s (s.slotAddr g f.buf + j) ∧ ¬ rmMem s (s.slotAddr g f.buf + 64 + j)) →
  Runs (.frameCommit k) s (fun t =>
    (t.str k).flights = l ∧ (t.str k).clip.frames = (s.str k).clip.frames + 1 ∧
    t.f (RM_STR_COMMITTED_frames k) = ((s.str k).clip.frames + 1) % 2 ^ 32 ∧
    t.heldBy g (.stream k) = (s.heldBy g (.stream k)).erase f.buf ∧
    RegsBut (fun a => a = RM_STR_COMMITTED k ∨ a = RM_STR_STATUS k ∨ a = (ringRegs g).stat) s t ∧ MemBut (rmMem s) s t)

/-- A close waits for the frames in flight (R301). -/
def clipClose (s : State) (r : Requester) (k : Nat) (v : Word) : Prop :=
  k < 8 → s.unitOn dRM = true → bitOf v.toNat 0 = false → s.f (RM_STR_STATUS_state k) = 1 → (s.str k).flights ≠ [] →
  Writes (.clipClose r k v) r (fun a => a = RM_STR_STATUS k) s (fun t =>
    t.f (RM_STR_STATUS_state k) = 2 ∧ (t.str k).flights = (s.str k).flights)

/-- With none in flight the close writes the final index block (R295, R301). -/
def clipCloseIdle (s : State) (r : Requester) (k : Nat) (v : Word) (h : Grant) (u : List Grant) : Prop :=
  k < 8 → s.unitOn dRM = true → s.mc.fills = [] → s.mc.reread = [] → s.err.slots = [] → s.oep.locks = [] → bitOf v.toNat 0 = false →
  s.f (RM_STR_STATUS_state k) = 1 → (s.str k).flights = [] → (s.str k).redo = [] → (s.str k).stage = 0 →
  (s.str k).grants = h :: u → h.cur < h.stop →
  Runs (.clipClose r k v) s (fun t =>
    Answered r 0 t ∧ t.f (RM_STR_STATUS_state k) = 2 ∧ (t.str k).stage = 1 ∧
    (t.str k).flights.map (fun f => (f.index, f.last, f.vbn, f.blocks)) = [(true, true, h.cur, 1)] ∧
    RegsBut (fun a => a = RM_STR_STATUS k ∨ lockShown a) s t ∧ MemBut (rmMem s) s t)

/-- A clip whose close is written is closed: the stream is idle and no consumer of its ring (R301). -/
def clipClosed (s : State) (k : Nat) (g : RingId) : Prop :=
  k < 8 → s.domOn dRM = true → (s.str k).stage = 3 → (s.str k).ring = some g →
  Runs (.clipClosed k) s (fun t =>
    t.f (RM_STR_STATUS_state k) = 0 ∧ (t.str k).ring = none ∧ t.heldBy g (.stream k) = [] ∧ Told 0x40 9 k s t ∧
    Keeps (fun a => a = RM_STR_STATUS k ∨ volShown a ∨ a = (ringRegs g).stat) s t)

/-- A split writes clip A's final index block and goes on in clip B, whose extent begins there (R305). -/
def splitRewrite (s : State) (k : Nat) (b : ClipSt) (h : Grant) (u : List Grant) : Prop :=
  k < 8 → s.domOn dRM = true → s.mc.fills = [] → s.mc.reread = [] → s.err.slots = [] → s.oep.locks = [] → (s.str k).next = some b →
  s.f (RM_STR_STATUS_state k) = 3 → (s.str k).flights = [] → s.strBusy k = false → (s.str k).stage = 0 →
  (s.str k).redo = [] → (s.str k).grants = h :: u → h.cur < h.stop →
  Runs (.splitRewrite k) s (fun t =>
    (t.str k).flights.map (fun f => (f.index, f.last, f.vbn)) = [(true, true, h.cur)] ∧
    (t.str k).grants = { h with cur := h.cur + 1, ext := s.f (RM_STR_SPLIT_EXT_ext k) } :: u ∧
    (t.str k).idxs = 0 ∧ (t.str k).entries = [] ∧
    RegsBut (fun a => a = RM_STR_STATUS k ∨ lockShown a) s t ∧ MemBut (rmMem s) s t)

/-! ### Offload endpoint (R311 to R331) -/

/-- A register that says what power the units want and have. -/
abbrev inPwr (a : Nat) : Prop := a = PWR_BUSY ∨ a = PWR_STATE

/-- The completion queue of submission queue `q` has room now. -/
def hasRoom (s : State) (q : Nat) : Bool :=
  s.oep.drain != some 3 && ((look s.oep.sqs q).bind (fun y => look s.oep.cqs y.cq)).any
    (fun x => (x.tail + 1) % x.size != x.head && x.wait.isEmpty)

/-- No submission queue waits for its commands to be deleted (R314). -/
def noneDying (s : State) : Bool := s.oep.sqs.all (fun x => x.2.dying.isNone)

/-- The host's command `c` is over, and its one completion (R313) carries this status and this double word 0. -/
abbrev Replied (c : HostCmd) (status dw0 : Nat) (t : State) : Prop :=
  t.hostCmd c.id = none ∧
  t.oep.posted.map (fun e => (leAt e.2.2 0 4, leAt e.2.2 10 2, leAt e.2.2 12 4 % 65536, leAt e.2.2 12 4 / 2 ^ 17)) =
    [(dw0, c.q, c.e.cid, status)]

/-- A fetched command of a queue with room; its fields are in the range of theirs. -/
abbrev Fetched (admin : Bool) (q cid op : Nat) (c : HostCmd) (s : State) : Prop :=
  s.fetched admin q cid op = some c ∧ c.owed = true ∧ hasRoom s q = true ∧ Calm s ∧ q < 65536 ∧ cid < 65536 ∧
  noneDying s = true

/-- The link comes up: its speed and width are shown (R311). -/
def oepLinkUp (s : State) (sp w : Nat) : Prop :=
  s.domOn dOEP = true → s.b OEP_CTRL_en = true → s.b OEP_STATUS_link_up = false → w = 1 ∨ w = 2 ∨ w = 4 ∨ w = 8 → sp < 8 →
  Runs (.oepLinkUp sp w) s (fun t =>
    t.b OEP_STATUS_link_up = true ∧ t.f OEP_STATUS_speed = sp ∧ 2 ^ t.f OEP_STATUS_width = w ∧ Told 0x44 0 w s t ∧
    Keeps (fun a => a = OEP_STATUS ∨ inPwr a) s t)

/-- The link goes down: a controller that was enabled begins to reset (R311, R331). -/
def oepLinkDown (s : State) : Prop :=
  s.domOn dOEP = true → s.b OEP_STATUS_link_up = true → s.oep.drain = none →
  Runs .oepLinkDown s (fun t =>
    t.b OEP_STATUS_link_up = false ∧ Told 0x44 1 0 s t ∧
    t.oep.drain = (if s.b OEP_STATUS_cc_en then some 3 else none) ∧ Keeps (fun a => a = OEP_STATUS ∨ lockRel a ∨ inPwr a) s t)

/-- The host enables the controller: it is ready, with the admin queues alone, of the sizes it gave (R312, R313). -/
def ctrlEnable (s : State) (a b : Nat) : Prop :=
  2 ≤ a → a ≤ 4096 → 2 ≤ b → b ≤ 4096 →
  s.domOn dOEP = true → s.b OEP_STATUS_link_up = true → s.b OEP_STATUS_cc_en = false → s.oep.drain = none →
  Runs (.ctrlEnable a b) s (fun t =>
    t.b OEP_STATUS_cc_en = true ∧ t.b OEP_STATUS_rdy = true ∧
    t.oep.sqs.map (fun q => (q.1, q.2.size, q.2.head, q.2.tail)) = [(0, a, 0, 0)] ∧
    t.oep.cqs.map (fun q => (q.1, q.2.size, q.2.head, q.2.tail)) = [(0, b, 0, 0)] ∧
    Told 0x44 2 0 s t ∧ Keeps (fun a => a = OEP_STATUS) s t)

/-- A reset takes no new command, and those with no member command issued are gone (R331). -/
def ctrlReset (s : State) (c : CtrlResetCause) : Prop :=
  s.domOn dOEP = true → s.b OEP_STATUS_cc_en = true → s.oep.drain = none → (s.oep.cmds.map (·.id)).Nodup →
  Runs (.ctrlReset c) s (fun t =>
    t.oep.drain.isSome = true ∧ t.b OEP_STATUS_cc_en = decide (c = .shutdown) ∧
    t.oep.cmds = s.oep.cmds.filter (fun x => !(x.stage == .fetched || x.stage == .lock || x.stage == .slot)) ∧
    Keeps (fun a => a = OEP_STATUS ∨ lockRel a) s t)

/-- The reset is complete with no command left: the controller is not ready, or its shutdown is complete (R331). -/
def ctrlResetDone (s : State) (c : Nat) : Prop :=
  s.domOn dOEP = true → s.oep.drain = some c → s.oep.cmds = [] →
  Runs .ctrlResetDone s (fun t =>
    t.oep.drain = none ∧ Told 0x44 3 c s t ∧ t.b OEP_STATUS_rdy = (decide (c = 2) && s.b OEP_STATUS_rdy) ∧
    (c = 2 → t.oep.shst = 2) ∧ (c ≠ 2 → t.oep.sqs = [] ∧ t.oep.cqs = []) ∧ Keeps (fun a => a = OEP_STATUS) s t)

/-- A submission doorbell moves the queue's tail (R313). -/
def sqDoorbell (s : State) (q n : Nat) (x : SqSt) : Prop :=
  look s.oep.sqs q = some x → n < x.size → x.dying = none →
  Runs (.sqDoorbell q n) s (fun t =>
    look t.oep.sqs q = some { x with tail := n } ∧ (∀ j < 65, j ≠ q → look t.oep.sqs j = look s.oep.sqs j) ∧
    Keeps (fun _ => False) s t)

/-- A completion doorbell moves the queue's head; a completion that waited for room is then posted (R313). -/
def cqDoorbell (s : State) (q n : Nat) (x : CqSt) : Prop :=
  look s.oep.cqs q = some x → n < x.size →
  Runs (.cqDoorbell q n) s (fun t =>
    (look t.oep.cqs q).map (·.head) = some n ∧
    (x.wait = [] → look t.oep.cqs q = some { x with head := n } ∧ t.oep.posted = []) ∧
    (x.wait ≠ [] → (x.tail + 1) % x.size ≠ n → t.oep.posted ≠ []) ∧ Keeps (fun _ => False) s t)

/-- The command at the head of the queue whose turn it is, is fetched; one whose opcode is not supported, or that is fused
or uses SGLs, completes at once with its status (R313, R314), and so does an Abort beyond four outstanding (R322). -/
def commandFetch (s : State) (q : Nat) (e : Sqe) (x : SqSt) (z : Option OepError) : Prop :=
  s.domOn dOEP = true → s.b OEP_STATUS_rdy = true → s.oep.drain = none → s.oep.shst = 0 → s.err.slots = [] → s.sqTurn = some q →
  look s.oep.sqs q = some x → hasRoom s q = true → e.cid < 65536 → noneDying s = true →
  (s.oep.cmds.all (fun y => y.id != s.oep.no) && s.oep.locks.all (fun a => a.owner != .host s.oep.no)) = true →
  let full := q = 0 ∧ e.opcode = 8 ∧ 4 ≤ (s.oep.cmds.filter (fun x => x.q == 0 && x.e.opcode == 8 && x.stage == .fetched)).length
  Runs (.commandFetch q e z) s (fun t =>
    (look t.oep.sqs q).map (·.head) = some ((x.head + 1) % x.size) ∧
    (if opcodeOk (q == 0) e.opcode = false then
      t.oep.cmds = s.oep.cmds ∧ t.oep.posted.map (fun p => leAt p.2.2 12 4 / 2 ^ 17) = [stOpcode]
    else if e.psdt ≠ 0 ∨ e.fused ≠ 0 then
      t.oep.cmds = s.oep.cmds ∧ t.oep.posted.map (fun p => leAt p.2.2 12 4 / 2 ^ 17) = [stField]
    else if full then
      t.oep.cmds = s.oep.cmds ∧ t.oep.posted.map (fun p => leAt p.2.2 12 4 / 2 ^ 17) = [stAbortLimit] ∧ t.rd OEP_MISSED = s.rd OEP_MISSED + 1
    else t.oep.cmds.map (·.e) = s.oep.cmds.map (·.e) ++ [e] ∧ t.oep.posted = []) ∧
    Keeps (fun a => full ∧ a = OEP_MISSED) s t)

/-- Identify answers the controller's, a namespace's or the namespace list's data; an unknown namespace or structure fails
(R315). -/
def identify (s : State) (q cid : Nat) (c : HostCmd) : Prop :=
  Fetched true q cid 0x06 c s → s.mc.fills = [] → s.mc.reread = [] →
  let n := c.e.cdw10.toNat % 256
  let names := s.pair OEP_IDENT_LO OEP_IDENT_HI
  (n = 1 → s.memAnswers names 68 false = true) →
  Runs (.identify q cid) s (fun t =>
    (if n = 1 then Replied c stOk 0 t ∧ t.oep.host = prpParts c.e (identCtrl (s.peeks names 68) s)
    else if n = 0 ∧ 1 ≤ c.e.nsid ∧ c.e.nsid ≤ 4 then Replied c stOk 0 t ∧ t.oep.host = prpParts c.e (identNs (c.e.nsid - 1) s)
    else if n = 0 then Replied c stNamespace 0 t ∧ t.oep.host = []
    else if n = 2 then Replied c stOk 0 t ∧ t.oep.host = prpParts c.e (slice
      (((List.range 4).filter (fun v => s.nsLive v && decide (c.e.nsid < v + 1))).flatMap (fun v => leBytes 4 (v + 1))) 0 0 4096)
    else Replied c stField 0 t ∧ t.oep.host = []) ∧ Keeps lockRel s t)

/-- Get Log Page answers the part of a page it asks for; an unknown page fails (R317, R330). -/
def getLogPage (s : State) (q cid : Nat) (c : HostCmd) : Prop :=
  Fetched true q cid 0x02 c s → s.mc.fills = [] → s.mc.reread = [] →
  let lid := c.e.cdw10.toNat % 256
  let n := (c.e.cdw10.toNat / 65536 + c.e.cdw11.toNat % 65536 * 65536 + 1) * 4
  Runs (.getLogPage q cid) s (fun t =>
    (if (logPage lid [] s).isSome = true then Replied c stOk 0 t ∧
      (lid ≠ 3 → t.oep.host = prpParts c.e (slice ((logPage lid [] s).getD []) 0 c.e.cdw12.toNat n))
    else Replied c stLogPage 0 t ∧ t.oep.host = []) ∧ Keeps lockRel s t)

/-- A completion queue of a free number, 2 to 4,096 contiguous entries and a vector 1 to 64 is created (R313). -/
def createIoCq (s : State) (q cid : Nat) (c : HostCmd) : Prop :=
  Fetched true q cid 0x05 c s →
  let id := c.e.cdw10.toNat % 65536
  let n := c.e.cdw10.toNat / 65536 + 1
  Runs (.createIoCq q cid) s (fun t =>
    (if 1 ≤ id ∧ id ≤ 64 ∧ look s.oep.cqs id = none ∧ 2 ≤ n ∧ n ≤ 4096 ∧ 1 ≤ c.e.cdw11.toNat / 65536 ∧ c.e.cdw11.toNat / 65536 ≤ 64 ∧
        bitOf c.e.cdw11.toNat 0 = true
    then Replied c stOk 0 t ∧ (look t.oep.cqs id).map (fun x => (x.size, x.head, x.tail)) = some (n, 0, 0)
    else t.hostCmd c.id = none ∧ t.oep.cqs.map (·.1) = s.oep.cqs.map (·.1)) ∧ Keeps lockRel s t)

/-- A completion queue that no submission queue uses is deleted; one in use is not (R314). -/
def deleteIoCq (s : State) (q cid : Nat) (c : HostCmd) : Prop :=
  Fetched true q cid 0x04 c s →
  let id := c.e.cdw10.toNat % 65536
  1 ≤ id → (look s.oep.cqs id).isSome = true →
  Runs (.deleteIoCq q cid) s (fun t =>
    (if s.oep.sqs.any (fun x => x.2.cq == id) = true then Replied c stQueueDel 0 t ∧ (look t.oep.cqs id).isSome = true
    else Replied c stOk 0 t ∧ look t.oep.cqs id = none) ∧ Keeps lockRel s t)

/-- A submission queue of a free number over an existing completion queue is created (R313). -/
def createIoSq (s : State) (q cid : Nat) (c : HostCmd) : Prop :=
  Fetched true q cid 0x01 c s →
  let id := c.e.cdw10.toNat % 65536
  let n := c.e.cdw10.toNat / 65536 + 1
  let cq := c.e.cdw11.toNat / 65536
  Runs (.createIoSq q cid) s (fun t =>
    (if 1 ≤ id ∧ id ≤ 64 ∧ look s.oep.sqs id = none ∧ 2 ≤ n ∧ n ≤ 4096 ∧ cq ≠ 0 ∧ (look s.oep.cqs cq).isSome = true ∧
        bitOf c.e.cdw11.toNat 0 = true
    then Replied c stOk 0 t ∧ (look t.oep.sqs id).map (fun x => (x.size, x.cq, x.head, x.tail)) = some (n, cq, 0, 0)
    else t.hostCmd c.id = none ∧ t.oep.sqs.map (·.1) = s.oep.sqs.map (·.1)) ∧ Keeps lockRel s t)

/-- The deletion of a submission queue ends its commands that have not started; the queue goes, and the deletion completes,
at once if no other is left, submitted or started (R314). -/
def deleteIoSq (s : State) (q cid : Nat) (c : HostCmd) (x : SqSt) : Prop :=
  Fetched true q cid 0x00 c s → (s.oep.cmds.map (·.id)).Nodup →
  let id := c.e.cdw10.toNat % 65536
  let idle (y : HostCmd) : Bool := y.stage == .fetched || y.stage == .lock || y.stage == .slot
  1 ≤ id → look s.oep.sqs id = some x →
  Runs (.deleteIoSq q cid) s (fun t =>
    (if x.head = x.tail ∧ s.oep.cmds.all (fun y => y.q != id || idle y) = true
    then look t.oep.sqs id = none ∧ t.hostCmd c.id = none
    else (look t.oep.sqs id).bind (·.dying) = some c.id ∧ (t.hostCmd c.id).isSome = true) ∧
    (t.oep.cmds.all (fun y => y.q != id || !idle y)) = true ∧ Keeps lockRel s t)

/-- Abort catches a command that has issued no member command, which completes as aborted, or misses (R322). -/
def abort (s : State) (q cid : Nat) (c : HostCmd) : Prop :=
  Fetched true q cid 0x08 c s →
  let hit := s.oep.cmds.find? (fun x => x.q == c.e.cdw10.toNat % 65536 && x.e.cid == c.e.cdw10.toNat / 65536 &&
    c.e.cdw10.toNat % 65536 != 0 && (x.stage == .fetched || x.stage == .lock || x.stage == .slot))
  Runs (.abort q cid) s (fun t =>
    t.hostCmd c.id = none ∧
    (if hit = none then Replied c stOk 1 t ∧ t.rd OEP_MISSED = s.rd OEP_MISSED + 1 ∧ t.rd OEP_CAUGHT = s.rd OEP_CAUGHT
    else t.rd OEP_CAUGHT = s.rd OEP_CAUGHT + 1 ∧ t.rd OEP_MISSED = s.rd OEP_MISSED ∧
      hit.bind (fun x => t.hostCmd x.id) = none) ∧ Keeps (fun a => lockRel a ∨ a = OEP_CAUGHT ∨ a = OEP_MISSED) s t)

/-- Get Features answers the value of a feature that R316 names; another fails. -/
def getFeatures (s : State) (q cid : Nat) (c : HostCmd) : Prop :=
  Fetched true q cid 0x0A c s → (s.oep.feats.all (fun e => e.2 < 2 ^ 32)) = true →
  Runs (.getFeatures q cid) s (fun t =>
    let x := featValue (c.e.cdw10.toNat % 256) c.e.cdw11.toNat s
    (if x.isSome = true then Replied c stOk (x.getD 0) t else Replied c stField 0 t) ∧ Keeps lockRel s t)

/-- Set Features holds the value of a feature it may set; Save fails (R316). -/
def setFeatures (s : State) (q cid : Nat) (c : HostCmd) : Prop :=
  Fetched true q cid 0x09 c s → s.oep.aers = [] →
  let f := c.e.cdw10.toNat % 256
  let v := c.e.cdw11.toNat
  Runs (.setFeatures q cid) s (fun t =>
    (if bitOf c.e.cdw10.toNat 31 = true then t.hostCmd c.id = none ∧ t.oep.feats = s.oep.feats
    else if f ∈ [0x01, 0x08, 0x0B] then Replied c stOk 0 t ∧ look t.oep.feats (featKey f 0) = some v
    else if f = 0x09 ∧ v % 65536 < 65 then Replied c stOk 0 t ∧ look t.oep.feats (featKey 9 (v % 65536)) = some v
    else if f = 0x04 ∧ (thresholdSense v).isSome = true
    then Replied c stOk 0 t ∧ look t.oep.feats (featKey 4 ((thresholdSense v).getD 0)) = some (v % 65536)
    else if f = 0x07 then Replied c stOk (63 + 63 * 65536) t ∧ t.oep.feats = s.oep.feats
    else if f = 0x02 ∧ v % 32 = 0 then Replied c stOk 0 t ∧ t.oep.feats = s.oep.feats
    else Replied c stField 0 t ∧ t.oep.feats = s.oep.feats) ∧ Keeps lockRel s t)

/-- An event request is held until an event; a notice owed answers it at once, and a fifth one fails (R314, R316). -/
def asynchronousEventRequest (s : State) (q cid : Nat) (c : HostCmd) : Prop :=
  Fetched true q cid 0x0C c s → (s.oep.notes.all (· < 2 ^ 32)) = true →
  Runs (.asynchronousEventRequest q cid) s (fun t =>
    t.hostCmd c.id = none ∧
    (if 4 ≤ s.oep.aers.length then t.oep.aers = s.oep.aers ∧ t.oep.posted.length = 1
    else if s.oep.notes = [] then t.oep.aers = s.oep.aers ++ [(q, cid)] ∧ t.oep.posted = []
    else Replied c stOk (s.oep.notes.headD 0) t ∧ t.oep.notes = s.oep.notes.drop 1) ∧ Keeps lockRel s t)

/-- The commands over one range, with their opcodes. -/
abbrev ioOps : List ((Nat → Nat → Instr) × Nat) := [(Instr.nvmRead, 2), (Instr.nvmWrite, 1), (Instr.writeZeroes, 8)]

/-- The first failing check on a Read, Write or Write Zeroes is its status, and nothing changes; one that passes them asks
for its range's lock, exclusive unless it reads (R319, R327). -/
def ioChecked (s : State) (q cid : Nat) (c : HostCmd) : Prop :=
  ∀ e ∈ ioOps, Fetched false q cid e.2 c s →
  let v := c.e.nsid - 1
  let first := (sqeRange c.e).1
  let n := (sqeRange c.e).2
  1 ≤ c.e.nsid → c.e.nsid ≤ 4 → s.nsLive v = true → n ≤ 256 → s.oep.locks = [] → s.mc.fills = [] → s.mc.reread = [] →
  Runs (e.1 q cid) s (fun t =>
    (if (rangeCheck v first n (e.2 == 2) s).isSome = true
    then Replied c ((rangeCheck v first n (e.2 == 2) s).getD 0) 0 t ∧ Keeps lockRel s t
    else t.hostCmd c.id = none ∨ t.oep.locks.map (fun a => (a.owner, a.vol, a.first, a.blocks, a.excl, a.granted)) =
      [(.host c.id, v, first, n, e.2 != 2, true)]) ∧
    RegsBut lockShown s t ∧ MemBut (rmMem s) s t)

/-- A namespace that is not active fails its commands (R318, R319). -/
def ioInactive (s : State) (q cid : Nat) (c : HostCmd) : Prop :=
  ∀ e ∈ ioOps, Fetched false q cid e.2 c s →
  c.e.nsid = 0 ∨ 4 < c.e.nsid ∨ s.nsLive (c.e.nsid - 1) = false →
  Runs (e.1 q cid) s (fun t => Replied c stNamespace 0 t ∧ Keeps lockRel s t)

/-- A read whose range passes the checks asks its members for every block (R320). -/
def nvmRead (s : State) (q cid : Nat) (c : HostCmd) (x : VolSt) : Prop :=
  Fetched false q cid 2 c s →
  let v := c.e.nsid - 1
  let first := (sqeRange c.e).1
  let n := (sqeRange c.e).2
  1 ≤ c.e.nsid → c.e.nsid ≤ 4 → s.nsLive v = true → n ≤ 256 → s.oep.locks = [] → s.mc.fills = [] → s.mc.reread = [] →
  rangeCheck v first n true s = none → look s.rm.vols v = some x →
  Runs (.nvmRead q cid) s (fun t =>
    (t.hostCmd c.id).map (fun y => (y.stage, y.first, y.blocks, y.left)) =
      some (.run, first, n, (x.pieces (s.volLimit x) n first n 0).length) ∧
    t.media = s.media ∧ t.oep.posted = [] ∧ RegsBut lockShown s t ∧ MemBut (rmMem s) s t)

/-- A write of up to 16 blocks in one aligned unit is journalled first, in the lowest free slot (R323 to R325). -/
def nvmWrite (s : State) (q cid : Nat) (c : HostCmd) (x : VolSt) : Prop :=
  Fetched false q cid 1 c s →
  let v := c.e.nsid - 1
  let first := (sqeRange c.e).1
  let n := (sqeRange c.e).2
  1 ≤ c.e.nsid → c.e.nsid ≤ 4 → s.nsLive v = true → n ≤ 16 → first / 16 = (first + n - 1) / 16 →
  s.oep.locks = [] → s.oep.slots = [] → s.mc.fills = [] → s.mc.reread = [] → rangeCheck v first n false s = none → look s.rm.vols v = some x →
  Runs (.nvmWrite q cid) s (fun t =>
    (t.hostCmd c.id).map (fun y => (y.stage, y.slot, y.first, y.blocks)) = some (.journal, 0, first, n) ∧
    t.oep.slots = [(v, 0)] ∧ look t.oep.seqs v = some (lookD s.oep.seqs 0 v + 1) ∧
    t.oep.posted = [] ∧ RegsBut lockShown s t ∧ MemBut (rmMem s) s t)

/-- Flush completes at once (R321). -/
def flush (s : State) (q cid : Nat) (c : HostCmd) : Prop :=
  Fetched false q cid 0 c s →
  Runs (.flush q cid) s (fun t =>
    (if c.e.nsid = 0xFFFFFFFF ∨ 1 ≤ c.e.nsid ∧ c.e.nsid ≤ 4 ∧ s.nsLive (c.e.nsid - 1) = true
    then Replied c stOk 0 t else Replied c stNamespace 0 t) ∧ Keeps lockRel s t)

/-- Dataset Management without Deallocate does nothing; with it the first check of R319 that a range fails is its status. -/
def datasetManagement (s : State) (q cid : Nat) (c : HostCmd) : Prop :=
  Fetched false q cid 9 c s → 1 ≤ c.e.nsid → c.e.nsid ≤ 4 → s.nsLive (c.e.nsid - 1) = true →
  s.oep.locks = [] → s.mc.fills = [] → s.mc.reread = [] →
  let bad := firstFailing (c.ranges.filterMap (fun r => rangeCheck (c.e.nsid - 1) r.1 r.2 false s))
  Runs (.datasetManagement q cid) s (fun t =>
    (if bitOf c.e.cdw11.toNat 2 = false then Replied c stOk 0 t ∧ Keeps lockRel s t
    else if bad.isSome = true then Replied c (bad.getD 0) 0 t ∧ Keeps lockRel s t
    else t.hostCmd c.id = none ∨ t.oep.locks.map (fun a => (a.owner, a.excl, a.granted)) = [(.host c.id, true, true)]) ∧
    RegsBut lockShown s t ∧ MemBut (rmMem s) s t)

/-- The oldest request that conflicts with nothing is granted, and counted (R327, R328). -/
def lockGrant (s : State) (i k no : Nat) (a : LockReq) : Prop :=
  s.domOn dOEP = true → s.nextLock = some i → s.oep.locks[i]? = some a → a.owner = .flight k no →
  (s.str k).flights.find? (fun f => f.no == no) = none →
  Runs .lockGrant s (fun t =>
    t.oep.locks = s.oep.locks.set i { a with granted := true } ∧
    t.pair OEP_LOCK_GRANT_LO OEP_LOCK_GRANT_HI = (s.pair OEP_LOCK_GRANT_LO OEP_LOCK_GRANT_HI + 1) % 2 ^ 64 ∧ Keeps (fun a => a = OEP_LOCK_GRANT_LO ∨ a = OEP_LOCK_GRANT_HI ∨ a = OEP_LOCK_STAT) s t)

/-- Two locks that overlap on a volume, one of them exclusive, are never both granted by a grant (R328). -/
def lockExclusive (s : State) (i j : Nat) (a b : LockReq) : Prop :=
  i ≠ j → s.oep.locks[i]? = some a → s.oep.locks[j]? = some b → a.granted = true → a.conflicts b = true →
  lockFree s.oep.locks j = false

/-- A namespace is active while it is enabled and its volume open; one that becomes active has its journal to replay (R318,
R326). -/
def namespaceActivate (s : State) (v : Nat) : Prop :=
  v < 4 → s.domOn dOEP = true →
  let st := s.f (RM_VOL_STATUS_state v)
  Runs (.namespaceActivate v) s (fun t =>
    (t.b (OEP_NS_STATUS_active v) = true ↔ s.b (OEP_NS_CFG_en v) = true ∧ 2 ≤ st ∧ st ≤ 4) ∧
    (s.b (OEP_NS_STATUS_active v) = false → t.b (OEP_NS_STATUS_active v) = true → t.b (OEP_NS_STATUS_replaying v) = true) ∧
    Keeps (fun a => a = OEP_NS_STATUS v) s t)

/-- A journal of which no member can be read replays nothing: the namespace is ready, and told so (R326). -/
def journalReplay (s : State) (v : Nat) (x : VolSt) : Prop :=
  v < 4 → s.domOn dOEP = true → s.domOn dRM = true → s.err.slots = [] → look s.rm.vols v = some x →
  s.b (OEP_NS_STATUS_replaying v) = true → s.rm.tasks = [] → s.rm.opens = [] → (∀ p < 4, s.holders x p = []) → 1 ≤ x.n → x.n ≤ 4 →
  Runs (.journalReplay v) s (fun t =>
    t.b (OEP_NS_STATUS_replaying v) = false ∧ t.f (OEP_NS_STATUS_replayed v) = 0 ∧ Told 0x44 4 (v + 1) s t ∧
    Keeps (fun a => a = OEP_NS_STATUS v) s t)

/-- The journal of a namespace whose volume has a live member at position 0 is read from there first (R288, R326). -/
def journalReads (s : State) (v m : Nat) (x : VolSt) : Prop :=
  v < 4 → s.domOn dOEP = true → s.domOn dRM = true → s.mc.fills = [] → s.err.slots = [] → s.mc.reread = [] → look s.rm.vols v = some x →
  s.b (OEP_NS_STATUS_replaying v) = true → s.rm.tasks = [] → s.rm.opens = [] → x.n = 1 → s.holders x 0 = [m] → m < 4 →
  x.slots.map (·.m) = [m] → (s.mbr m).mdts = 0 → x.su = 12 → s.slotVbn v 0 % 4096 = 0 →
  Runs (.journalReplay v) s (fun t =>
    (t.mbr m).cmds.map (·.op) = (s.mbr m).cmds.map (·.op) ++
      [.read (1024 + s.slotVbn v 0) 256, .read (1024 + s.slotVbn v 0 + 256) 16] ∧
    t.b (OEP_NS_STATUS_replaying v) = true ∧ RegsBut (fun _ => False) s t ∧ MemBut (rmMem s) s t)

/-! ### Scan-out (R333 to R342) -/

/-- en rises: the engine attaches to its ring, and runs, or shows cfg_err where the timing breaks a rule (R335, R337). -/
def scoEnable (s : State) (r : Requester) (v : Word) : Prop :=
  s.unitOn dSCO = true → s.b SCO_CTRL_en = false → bitsOf v.toNat 7 6 < Config.ports s.variant → s.sco.tim = none →
  Runs (.scoEnable r v) s (fun t =>
    Answered r 0 t ∧ t.b SCO_CTRL_en = true ∧ (t.sco.ring).isSome = true ∧
    (if scoCfgErr t.scoTim (t.f REF_RATE_NUM_num) = true
    then t.f SCO_STATUS_cfg_err = 1 ∧ t.b SCO_STATUS_running = s.b SCO_STATUS_running ∧ Told 0x48 5 0 s t
    else t.b SCO_STATUS_running = true) ∧
    Keeps (fun a => a = SCO_CTRL ∨ a = SCO_STATUS ∨ (t.sco.ring).any (fun g => a == (ringRegs g).stat) = true) s t)

/-- While enabled a write that would change another field sets bad_write and changes none, en included (R335, R510). -/
def scoBusy (s : State) (r : Requester) (v : Word) : Prop :=
  s.unitOn dSCO = true → s.b SCO_CTRL_en = true →
  Writes (.scoEnable r v) r (fun a => a = SCO_STATUS) s (fun t =>
    t.rd SCO_CTRL = s.rd SCO_CTRL ∧ t.sco = s.sco ∧
    ((s.rd SCO_CTRL).toNat &&& 0x3FC ≠ v.toNat &&& 0x3FC → t.f SCO_STATUS_bad_write = 1))

/-- See `scoBusy`. -/
def scoDisableBusy (s : State) (r : Requester) (v : Word) : Prop :=
  s.unitOn dSCO = true → s.b SCO_CTRL_en = true → (s.rd SCO_CTRL).toNat &&& 0x3FC ≠ v.toNat &&& 0x3FC →
  Writes (.scoDisable r v) r (fun a => a = SCO_STATUS) s (fun t =>
    t.rd SCO_CTRL = s.rd SCO_CTRL ∧ t.sco = s.sco ∧ t.f SCO_STATUS_bad_write = 1)

/-- en = 0 outside a raster frame stops at once and lets the held buffer go; within one it stops at the frame's end (R15,
R335). -/
def scoDisable (s : State) (r : Requester) (v : Word) : Prop :=
  s.unitOn dSCO = true → s.b SCO_CTRL_en = true → (s.rd SCO_CTRL).toNat &&& 0x3FC = v.toNat &&& 0x3FC →
  Runs (.scoDisable r v) s (fun t =>
    Answered r 0 t ∧ t.b SCO_CTRL_en = false ∧
    (if s.sco.inFrame = true then t.sco.stopping = true ∧ t.b SCO_STATUS_running = s.b SCO_STATUS_running
    else t.b SCO_STATUS_running = false ∧ t.sco.ring = none ∧ t.b SCO_STATUS_holding = false) ∧
    Keeps (fun a => a = SCO_CTRL ∨ a = SCO_STATUS ∨ (s.sco.ring).any (fun g => a == (ringRegs g).stat) = true) s t)

/-- The first tick after the start begins a raster frame under the tick's rate, at the first edge of the sample clock at or
after the tick and the phase (R334, R335); where those edges lie is the model's choice (log 38). -/
def rasterFrameStart (s : State) (k : Tick) : Prop :=
  s.domOn dSCO = true → s.b SCO_STATUS_running = true → s.sco.tim = none → s.sco.stopping = false → s.scoTick = some k → Calm s →
  scoCfgErr (s.scoTimAt k) k.rate.1 = false → s.sco.ring = none →
  Runs .rasterFrameStart s (fun t =>
    t.sco.tim = some (s.scoTimAt k) ∧ t.sco.line = 0 ∧ t.sco.lineZero = s.scoZero k ∧ t.now = max s.now (s.scoZero k) ∧
    k.at_ + s.scoPhase ≤ t.sco.lineZero ∧ Keeps (fun _ => False) s t)

/-- At a tick whose rate breaks the timing equation the engine shows cfg_err, tells it, and stops (R335). -/
def rasterRateError (s : State) (k : Tick) : Prop :=
  s.domOn dSCO = true → s.b SCO_STATUS_running = true → s.sco.tim = none → s.sco.stopping = false → s.scoTick = some k → Calm s →
  scoCfgErr (s.scoTimAt k) k.rate.1 = true →
  Runs .rasterFrameStart s (fun t =>
    t.f SCO_STATUS_cfg_err = 1 ∧ t.b SCO_STATUS_running = false ∧ t.now = max s.now k.at_ ∧ Told 0x48 5 0 s t ∧
    Keeps (fun a => a = SCO_STATUS ∨ (s.sco.ring).any (fun g => a == (ringRegs g).stat) = true) s t)

/-- The held frame is shown again, and counted, when no newer one is offered (R337). -/
def rasterRepeat (s : State) (k : Tick) (g : RingId) (b : Nat) : Prop :=
  s.domOn dSCO = true → s.b SCO_STATUS_running = true → s.sco.tim = none → s.sco.stopping = false → s.scoTick = some k → Calm s →
  scoCfgErr (s.scoTimAt k) k.rate.1 = false → s.sco.ring = some g → s.sco.buf = some b → s.heldBy g .sco = [b] →
  Runs .rasterFrameStart s (fun t =>
    t.sco.buf = some b ∧ t.sco.shown = s.sco.shown ∧ t.rd SCO_REPEAT = s.rd SCO_REPEAT + 1 ∧
    Keeps (fun a => a = SCO_REPEAT) s t)

/-- The next line is sent at its place in the frame; a line outside the image carries no sample, and the engine's counts
stay. LINE_MATCH tells of a line no tick cuts, FRAME_DONE of the image's end (R334, R336, R342). -/
def rasterLine (s : State) (x : ScoTim) (p : Nat × Nat × Nat) : Prop :=
  s.domOn dSCO = true → s.b SCO_STATUS_running = true → s.sco.tim = some x → s.sco.line < x.vTot → Calm s → sdiMode x.mode = some p →
  s.sco.line < x.start ∨ x.start + x.vAct ≤ s.sco.line → s.sco.line + 1 < x.vTot → x.mode < 4 →
  Runs .rasterLine s (fun t =>
    t.sco.line = s.sco.line + 1 ∧
    (s.sco.line ≠ s.f SCO_LINE_MATCH_line →
      t.now = max s.now (s.sco.lineZero + s.sco.line * x.hTot * 1000000000 * (1000 + sdiPhi x.den) / p.1)) ∧
    (look t.sco.tx 0).map (fun l => (l.number, l.luma, l.sent)) = some (s.sco.line + 1, [], x.hTot) ∧
    (s.sco.line = s.f SCO_LINE_MATCH_line → s.scoCutAt = none → Told 0x48 1 s.sco.line s t) ∧
    (s.sco.line = x.start + x.vAct → x.vAct ≠ 0 → s.sco.shown.isSome = true →
      Told 0x48 2 ((s.sco.shown.map (·.pfn)).getD 0) s t) ∧
    Keeps (fun _ => False) s t)

/-- An active line with no frame to show carries the underrun colour (R337). -/
def rasterLineEmpty (s : State) (x : ScoTim) : Prop :=
  s.domOn dSCO = true → s.b SCO_STATUS_running = true → s.sco.tim = some x → s.sco.shown = none → Calm s →
  x.start ≤ s.sco.line → s.sco.line + 1 < x.start + x.vAct → x.start + x.vAct ≤ x.vTot → x.mode < 4 →
  Runs .rasterLine s (fun t =>
    (look t.sco.tx 0).map (·.luma) = some (List.replicate x.hAct (s.g SCO_UCOL_y)) ∧ t.sco.line = s.sco.line + 1 ∧
    Keeps (fun _ => False) s t)

/-- An underrun of the line being sent counts once, whether its fetch runs empty or the line buffer's parity fails, and is
told once per raster frame; of the overlay it counts apart (R339, R341). -/
def lineUnderrun (s : State) (x : ScoTim) (n : Nat) (f : LineFault) : Prop :=
  s.domOn dSCO = true → s.b SCO_STATUS_running = true → s.sco.tim = some x → s.sco.shown.isSome = true → s.err.slots = [] →
  x.start ≤ s.sco.line → s.sco.line < x.start + x.vAct → n < x.hAct → s.sco.under = none → s.sco.ovUnder = none →
  s.g SCO_OVL_CTRL_en = 1 →
  Runs (.lineUnderrun n f) s (fun t =>
    (if f = .overlay
    then t.sco.ovUnder = some n ∧ t.sco.under = none ∧ t.rd SCO_OVL_UNDERRUN = s.rd SCO_OVL_UNDERRUN + 1
    else t.sco.under = some n ∧ t.rd SCO_UNDERRUN = s.rd SCO_UNDERRUN + 1 ∧ (s.sco.told = false → Told 0x48 3 s.sco.line s t)) ∧
    Keeps (fun a => a = SCO_UNDERRUN ∧ f ≠ .overlay ∨ a = SCO_OVL_UNDERRUN ∧ f = .overlay) s t)

/-! ### Audio (R343 to R353) -/

/-- run rises on an enabled port: it runs, its lead frames first, or shows cfg_err (R345, R351). -/
def audioRunStart (s : State) (r : Requester) (n : Nat) (v : Word) : Prop :=
  n < 4 → s.unitOn dAUD = true → s.audActive n = false → bitOf v.toNat 0 = true → (s.aud n).desc = none →
  Writes (.audioRunStart r n v) r (fun a => a = AUD_CTRL n ∨ a = AUD_STATUS n) s (fun t =>
    t.audActive n = true ∧
    (if t.audCfgErr n = true
    then (s.b (AUD_CTRL_run n) = false → t.f (AUD_STATUS_cfg_err n) = 1 ∧ Told (0x4C + n) 7 0 s t) ∧ t.aud n = s.aud n
    else t.f (AUD_STATUS_running n) = 1 ∧ t.f (AUD_STATUS_leading n) = (if s.f (AUD_LEAD_frames n) = 0 then 0 else 1) ∧
      (t.aud n).frames = 0 ∧ (t.aud n).mask = s.f (AUD_MASK_mask n)))

/-- run falls: the TDM frame under way, a lead frame or a sample frame, is completed first (R351). -/
def audioRunStop (s : State) (r : Requester) (n : Nat) (v : Word) : Prop :=
  n < 4 → s.unitOn dAUD = true → s.audActive n = true →
  Writes (.audioRunStop r n v) r (fun a => a = AUD_CTRL n ∨ a = AUD_STATUS n) s (fun t =>
    t.b (AUD_CTRL_run n) = false ∧
    (t.aud n).phase = match (s.aud n).phase with
      | .lead _ => .ending true
      | .run => .ending false
      | p => p)

/-- With that TDM frame over the trailing frames follow, as many as AUDn_LEAD says; they show leading (R351). -/
def audioEnding (s : State) (n : Nat) (rx : List (BitVec 24)) (e : Bool) : Prop :=
  n < 4 → s.domOn dAUD = true → Calm s → s.b (AUD_CTRL_master n) = true → (s.aud n).phase = .ending true → (s.aud n).newMask = [] →
  (s.aud n).desc = none →
  Runs (.sampleFrame n rx e) s (fun t =>
    (t.aud n).phase = .trail (s.f (AUD_LEAD_frames n)) ∧ (t.aud n).frames = (s.aud n).frames + 1 ∧
    t.f (AUD_STATUS_leading n) = (if s.f (AUD_LEAD_frames n) = 0 then 0 else 1) ∧ Keeps (fun a => a = AUD_STATUS n) s t)

/-- The trailing frames are over: the port is idle, and told so (R351). -/
def audioStopped (s : State) (n k : Nat) : Prop :=
  n < 4 → s.domOn dAUD = true → Calm s → (s.aud n).phase = .trail k →
  Runs (.audioStopped n) s (fun t =>
    (t.aud n).phase = .idle ∧ t.f (AUD_STATUS_running n) = 0 ∧ Told (0x4C + n) 1 0 s t ∧ Keeps (fun a => a = AUD_STATUS n) s t)

/-- A lead frame passes in one sample period (R351). -/
def leadFrame (s : State) (n k : Nat) (rx : List (BitVec 24)) (e : Bool) : Prop :=
  n < 4 → s.domOn dAUD = true → Calm s → s.b (AUD_CTRL_master n) = true → (s.aud n).phase = .lead k → (s.aud n).newMask = [] →
  Runs (.sampleFrame n rx e) s (fun t =>
    (t.aud n).phase = (if k ≤ 1 then .run else .lead (k - 1)) ∧ (t.aud n).frames = (s.aud n).frames + 1 ∧
    t.now = max s.now (s.audInstant n ((s.aud n).periods + 1)) ∧ Keeps (fun a => a = AUD_STATUS n) s t)

/-- The registers a sample frame counts and shows itself in (R350, R351). -/
abbrev audShown (n a : Nat) : Prop := a = AUD_STATUS n ∨ a = AUD_IN_LO n ∨ a = AUD_IN_HI n ∨ a = AUD_OUT_LO n ∨ a = AUD_OUT_HI n

/-- A capture frame goes to the descriptor in hand, in its slots' order, and counts in and out (R346, R347, R350). -/
def captureFrame (s : State) (n : Nat) (rx : List (BitVec 24)) (e : Bool) (d : AudDesc) : Prop :=
  n < 4 → s.domOn dAUD = true → Calm s → s.mc.fills = [] → s.mc.reread = [] → s.b (AUD_CTRL_master n) = true → s.b (AUD_CTRL_dir n) = true →
  (s.aud n).phase = .run → (s.aud n).newMask = [] → (s.aud n).desc = some d → 0 < s.audNeed n →
  d.moved + 2 * s.audNeed n ≤ d.bytes → s.memAnswers (d.addr + d.moved) (s.audNeed n) true = true →
  0 < s.f (AUD_RING_CFG_entries n) →
  Runs (.sampleFrame n rx e) s (fun t =>
    t.peeks (d.addr + d.moved) (s.audNeed n) = s.audStore n (s.audRx n rx) ∧
    (t.aud n).desc = some { d with moved := d.moved + s.audNeed n } ∧
    t.pair (AUD_IN_LO n) (AUD_IN_HI n) = (s.pair (AUD_IN_LO n) (AUD_IN_HI n) + 1) % 2 ^ 64 ∧
    t.pair (AUD_OUT_LO n) (AUD_OUT_HI n) = (s.pair (AUD_OUT_LO n) (AUD_OUT_HI n) + 1) % 2 ^ 64 ∧
    RegsBut (audShown n) s t ∧ MemBut (fun a => d.addr + d.moved ≤ a ∧ a < d.addr + d.moved + s.audNeed n) s t)

/-- A playback frame comes from the descriptor in hand and goes out; no memory changes (R346, R347). -/
def playbackFrame (s : State) (n : Nat) (rx : List (BitVec 24)) (e : Bool) (d : AudDesc) : Prop :=
  n < 4 → s.domOn dAUD = true → Calm s → s.mc.fills = [] → s.mc.reread = [] → s.b (AUD_CTRL_master n) = true → s.b (AUD_CTRL_dir n) = false →
  (s.aud n).phase = .run → (s.aud n).newMask = [] → (s.aud n).desc = some d → 0 < s.audNeed n →
  d.moved + 2 * s.audNeed n ≤ d.bytes → s.memAnswers (d.addr + d.moved) (s.audNeed n) false = true →
  s.eccDets (d.addr + d.moved) = none → 0 < s.f (AUD_RING_CFG_entries n) →
  Runs (.sampleFrame n rx e) s (fun t =>
    (t.aud n).out = (s.audLoad n (s.peeks (d.addr + d.moved) (s.audNeed n))).map (s.audCarry n) ∧
    (t.aud n).desc = some { d with moved := d.moved + s.audNeed n } ∧ Keeps (audShown n) s t)

/-- A frame that finds no descriptor is starved: it counts, and a playback port sends zeros (R349). -/
def starvedFrame (s : State) (n : Nat) (rx : List (BitVec 24)) (e : Bool) : Prop :=
  n < 4 → s.domOn dAUD = true → Calm s → s.b (AUD_CTRL_master n) = true →
  (s.aud n).phase = .run → (s.aud n).newMask = [] → (s.aud n).desc = none → 0 < s.audNeed n →
  s.f (AUD_HEAD_head n) = s.f (AUD_TAIL_tail n) →
  Runs (.sampleFrame n rx e) s (fun t =>
    t.rd (AUD_STARVED n) = s.rd (AUD_STARVED n) + 1 ∧ ((s.aud n).starving = false → Told (0x4C + n) 4 0 s t) ∧
    (s.b (AUD_CTRL_dir n) = false → (t.aud n).out = List.replicate (s.audSlots n) 0) ∧
    RegsBut (fun a => a = AUD_STARVED n ∨ a = ERR_LAST) s t ∧ MemBut (fun _ => False) s t)

/-- A frame at the pins of a capturing slave enters the slip buffer, or is dropped when it is full (R350). -/
def slaveSampleRx (s : State) (n : Nat) (rx : List (BitVec 24)) (e : Bool) : Prop :=
  n < 4 → s.domOn dAUD = true → s.err.slots = [] → s.b (AUD_CTRL_master n) = false → s.b (AUD_CTRL_dir n) = true →
  (s.aud n).phase = .run → (s.aud n).newMask = [] → 0 < s.audNeed n →
  Runs (.slaveSampleRx n rx e) s (fun t =>
    (if (s.aud n).slip.length < 14 then (t.aud n).slip = (s.aud n).slip ++ [(true, s.audRx n rx)]
    else (t.aud n).slip = (s.aud n).slip ∧ Told (0x4C + n) 3 0 s t ∧
      t.pair (AUD_DROP_LO n) (AUD_DROP_HI n) = (s.pair (AUD_DROP_LO n) (AUD_DROP_HI n) + 1) % 2 ^ 64 ∧
      t.pair (AUD_IN_LO n) (AUD_IN_HI n) = (s.pair (AUD_IN_LO n) (AUD_IN_HI n) + 1) % 2 ^ 64) ∧
    ((s.aud n).started = false → Told (0x4C + n) 0 0 s t) ∧
    RegsBut (fun a => audShown n a ∨ a = AUD_DROP_LO n ∨ a = AUD_DROP_HI n) s t ∧ MemBut (fun _ => False) s t)

/-- A mask written waits for a TDM frame boundary (R352). -/
def maskWrite (s : State) (r : Requester) (n : Nat) (v : Word) : Prop :=
  n < 4 → s.unitOn dAUD = true →
  Writes (.maskWrite r n v) r (fun a => a = AUD_MASK n) s (fun t =>
    t.f (AUD_MASK_mask n) = bitsOf v.toNat 15 0 ∧ (t.aud n).newMask = (s.aud n).newMask ++ [(s.now, bitsOf v.toNat 15 0)] ∧ (t.aud n).mask = (s.aud n).mask)

/-- At a boundary of a running port a mask written before it comes into force, one written in the boundary's own bit clock
cycle does not; a port in its run is told (R352). -/
def maskApply (s : State) (n m i : Nat) : Prop :=
  n < 4 → s.domOn dAUD = true → s.err.slots = [] → s.mc.fills = [] → s.mc.reread = [] → (s.aud n).phase ≠ .idle → (s.aud n).newMask = [(i, m)] → i ≤ s.now →
  (s.aud n).desc = none → s.f (AUD_HEAD_head n) = s.f (AUD_TAIL_tail n) →
  Runs (.maskApply n) s (fun t =>
    (i = s.now → t.aud n = s.aud n ∧ Quiet s t) ∧
    (i < s.now → (t.aud n).mask = m ∧ (t.aud n).newMask = [] ∧ ((s.aud n).phase = .run → Told (0x4C + n) 6 m s t) ∧
      ((s.aud n).phase = .run → s.b (AUD_CTRL_dir n) = true → (s.aud n).held = none →
        (t.aud n).held = some ((s.aud n).mask, m, (s.aud n).frames))) ∧
    Keeps (fun _ => False) s t)

/-! ### Network (R354 to R368) -/

/-- A register of MAC `m`. -/
abbrev ofMac (m a : Nat) : Prop := NET_CTRL m ≤ a ∧ a < NET_CTRL m + 0x100

/-- The next transmit descriptor's frame is sent, padded and with its FCS, and the descriptor completed (R354 to R356). -/
def txFrame (s : State) (m : Nat) : Prop :=
  m < 2 → s.domOn dNET = true → s.err.slots = [] → s.mc.fills = [] → s.mc.reread = [] → s.macUp m = true → s.f (NET_TXR_CFG_entries m) ≠ 0 →
  ringHas (s.f (NET_TXR_HEAD_head m)) (s.f (NET_TXR_TAIL_tail m)) = true → s.b (NET_PTP_CFG_en m) = false →
  let a := s.pair (NET_TXR_LO m) (NET_TXR_HI m) + s.f (NET_TXR_HEAD_head m) % s.f (NET_TXR_CFG_entries m) * 16
  let d := s.peeks a 16
  let len := leAt d 8 4 % 2 ^ 14
  s.memAnswers a 16 true = true → s.eccDets a = none → 0 < len → len ≤ 9212 →
  s.memAnswers (leAt d 0 8 % 2 ^ 40) len false = true → s.eccDets (leAt d 0 8 % 2 ^ 40) = none →
  Runs (.txFrame m false) s (fun t =>
    (t.net m).sent = withFcs (s.peeks (leAt d 0 8 % 2 ^ 40) len) ∧
    t.f (NET_TXR_HEAD_head m) = (s.f (NET_TXR_HEAD_head m) + 1) % 2 ^ 32 ∧ t.peeks (a + 12) 4 = [1, 0, 0, 0] ∧
    RegsBut (fun x => x = NET_TXR_HEAD m) s t ∧ MemBut (fun x => a + 12 ≤ x ∧ x < a + 16) s t)

/-- A frame with a bad FCS, or spoilt by a block its FEC cannot correct, is counted and dropped; a PAUSE frame is counted; one the filter turns away changes nothing
(R354, R357). -/
def rxRejected (s : State) (m u : Nat) (f : List Byte) (good fec : Bool) : Prop :=
  m < 2 → s.domOn dNET = true → Calm s → s.macUp m = true → 60 ≤ f.length → f.length ≤ 9212 →
  (good = false ∨ fec = true ∧ s.f (NET_CTRL_fec m) ≠ 0) ∨ isPause f = true ∨ s.macFilter m f = false →
  Runs (.rxFrame u m f good fec false) s (fun t =>
    (if good = false ∨ fec = true ∧ s.f (NET_CTRL_fec m) ≠ 0 then t.rd (NET_RX_FCS m) = s.rd (NET_RX_FCS m) + 1 ∧ t.rd (NET_PAUSE m) = s.rd (NET_PAUSE m)
    else if isPause f = true then t.rd (NET_PAUSE m) = s.rd (NET_PAUSE m) + 1 ∧ t.rd (NET_RX_FCS m) = s.rd (NET_RX_FCS m)
    else t.rd (NET_PAUSE m) = s.rd (NET_PAUSE m) ∧ t.rd (NET_RX_FCS m) = s.rd (NET_RX_FCS m)) ∧
    Keeps (fun a => a = NET_RX_FCS m ∨ a = NET_PAUSE m) s t)

/-- A frame that passes the filter is stored in the next receive descriptor's buffer, cut at its size, and the descriptor
completed; its head moves on, the next descriptor having a length (R356, R357). -/
def rxFrame (s : State) (m u : Nat) (f : List Byte) : Prop :=
  m < 2 → s.domOn dNET = true → Calm s → s.mc.fills = [] → s.mc.reread = [] → s.macUp m = true → 60 ≤ f.length → f.length ≤ 9212 →
  isPause f = false → s.macFilter m f = true → s.b (NET_PTP_CFG_en m) = false → s.f (NET_RXR_CFG_entries m) ≠ 0 →
  ringHas (s.f (NET_RXR_HEAD_head m)) (s.f (NET_RXR_TAIL_tail m)) = true →
  let a := s.pair (NET_RXR_LO m) (NET_RXR_HI m) + s.f (NET_RXR_HEAD_head m) % s.f (NET_RXR_CFG_entries m) * 32
  let cap := leAt (s.peeks a 16) 8 4 % 2 ^ 14
  let b := leAt (s.peeks a 16) 0 8 % 2 ^ 40
  s.memAnswers a 16 true = true → s.eccDets a = none → 0 < cap → s.memAnswers b (min cap f.length) true = true →
  b + f.length ≤ a ∨ a + 32 ≤ b →
  let e := s.pair (NET_RXR_LO m) (NET_RXR_HI m) + (s.f (NET_RXR_HEAD_head m) + 1) % 2 ^ 32 % s.f (NET_RXR_CFG_entries m) * 32
  ringHas ((s.f (NET_RXR_HEAD_head m) + 1) % 2 ^ 32) (s.f (NET_RXR_TAIL_tail m)) = false ∨
    0 < leAt (s.peeks e 16) 8 4 % 2 ^ 14 ∧ (b + f.length ≤ e ∨ e + 16 ≤ b) →
  Runs (.rxFrame u m f true false false) s (fun t =>
    t.peeks b (min cap f.length) = f.take cap ∧
    t.peeks (a + 12) 4 = leBytes 4 (min cap f.length + 2 ^ 16 + (if cap < f.length then 2 ^ 17 else 0)) ∧
    t.f (NET_RXR_HEAD_head m) = (s.f (NET_RXR_HEAD_head m) + 1) % 2 ^ 32 ∧ RegsBut (fun x => x = NET_RXR_HEAD m) s t ∧
    MemBut (fun x => b ≤ x ∧ x < b + min cap f.length ∨ a + 12 ≤ x ∧ x < a + 16) s t)

/-- A frame that finds no descriptor is counted (R356). -/
def rxNoDescriptor (s : State) (m u : Nat) (f : List Byte) : Prop :=
  m < 2 → s.domOn dNET = true → Calm s → s.macUp m = true → 60 ≤ f.length → f.length ≤ 9212 →
  isPause f = false → s.macFilter m f = true → s.f (NET_RXR_HEAD_head m) = s.f (NET_RXR_TAIL_tail m) →
  Runs (.rxFrame u m f true false false) s (fun t =>
    t.rd (NET_RX_NODESC m) = s.rd (NET_RX_NODESC m) + 1 ∧ ((s.net m).nodesc = false → Told (0x50 + m) 3 0 s t) ∧
    Keeps (fun a => a = NET_RX_NODESC m) s t)

/-- A read of the last stamp word answers it and takes the entry off the queue (R366). -/
def txtsPop (s : State) (r : Requester) (m : Nat) : Prop :=
  m < 2 → s.unitOn dNET = true → (s.net m).stamps.length ≤ 16 →
  Runs (.txtsPop r m) s (fun t =>
    Answered r (s.rd (NET_TXTS m 3)) t ∧ (t.net m).stamps = (s.net m).stamps.drop 1 ∧
    t.f (NET_PTP_STATUS_txts_count m) = (s.net m).stamps.length - 1 ∧
    Keeps (fun a => a = NET_PTP_STATUS m ∨ a = NET_TXTS m 0 ∨ a = NET_TXTS m 1 ∨ a = NET_TXTS m 2 ∨ a = NET_TXTS m 3) s t)

/-- A write of MDIO runs one frame: a read leaves its answer (R354). -/
def mdio (s : State) (r : Requester) (m : Nat) (v : Word) (x : BitVec 16) : Prop :=
  m < 2 → s.unitOn dNET = true →
  Writes (.mdio r m v x) r (fun a => a = NET_MDIO m) s (fun t =>
    (t.net m).mdio = some v ∧ bitOf (t.rd (NET_MDIO m)).toNat 31 = false ∧
    bitsOf (t.rd (NET_MDIO m)).toNat 15 0 = (if bitOf v.toNat 31 then x.toNat else bitsOf v.toNat 15 0))

/-- The link of an enabled MAC comes up or goes down, and is told, no receive descriptor waiting at it (R356, R368). -/
def netLinkChange (s : State) (m : Nat) (up : Bool) : Prop :=
  m < 2 → s.domOn dNET = true → s.b (NET_STATUS_link_up m) ≠ up →
  up = false ∨ s.b (NET_CTRL_en m) = true ∧ s.b (NET_STATUS_cfg_err m) = false →
  up = false ∨ ringHas (s.f (NET_RXR_HEAD_head m)) (s.f (NET_RXR_TAIL_tail m)) = false →
  Runs (.netLinkChange m up) s (fun t =>
    t.b (NET_STATUS_link_up m) = up ∧ Told (0x50 + m) (if up then 0 else 1) 0 s t ∧ Keeps (fun a => a = NET_STATUS m) s t)

/-- A context with a sound configuration is enabled and attaches to its source; another shows cfg_err and stays off (R358). -/
def netStreamEnable (s : State) (r : Requester) (k : Nat) (v : Word) : Prop :=
  k < 8 → s.unitOn dNET = true → s.b (NET_STR_CFG_en k) = false → bitsOf v.toNat 2 1 = 0 →
  Runs (.netStreamEnable r k v) s (fun t =>
    Answered r 0 t ∧
    (if s.f (NET_STR_SRC_src_blk k) = 0x30 ∧ s.f (NET_STR_TPL_LEN_bytes k) ≤ 128
    then t.b (NET_STR_CFG_en k) = true ∧ (t.nstr k).ring = some (.enc (s.f (NET_STR_SRC_src_out k) % 16))
    else t.b (NET_STR_CFG_en k) = false ∧ t.f (NET_STR_STATUS_cfg_err k) = 1 ∧ Told (0x50 + bitsOf v.toNat 3 3) 4 k s t) ∧
    Keeps (fun a => a = NET_STR_CFG k ∨ a = NET_STR_STATUS k ∨ ((t.nstr k).ring.any (fun g => a == (ringRegs g).stat)) = true) s t)

/-- At a new tick an ST 2110-20 context with nothing newer to send sends the frame it holds again, and counts it (R358). -/
def streamFrameSelect (s : State) (k n b y : Nat) (x : Tick) (l : List Tick) : Prop :=
  k < 8 → s.domOn dNET = true → s.b (NET_STR_CFG_en k) = true → (s.nstr k).ring = some (.branch n b) → s.ref.ticks = x :: l →
  (s.nstr k).tick ≠ some x.at_ → (s.nstr k).cur = none → (s.nstr k).buf = some y → s.heldBy (.branch n b) (.net k) = [y] →
  Runs (.streamFrameSelect k) s (fun t =>
    (t.nstr k).tick = some x.at_ ∧ (t.nstr k).cur = (s.nstr k).held ∧ t.rd (NET_STR_REPEAT k) = s.rd (NET_STR_REPEAT k) + 1 ∧
    Keeps (fun a => a = NET_STR_REPEAT k) s t)

/-- An H.265 context sends its next packet with the next sequence number; the last of an access unit lets its buffer go; one
sent with the link down is discarded and counted (R358). -/
def streamPacket (s : State) (k c b : Nat) (p : List Byte) (last : Bool) (q : List (List Byte × Bool)) : Prop :=
  k < 8 → s.domOn dNET = true → s.b (NET_STR_CFG_en k) = true → (s.nstr k).ring = some (.enc c) → (s.nstr k).queue = (p, last) :: q →
  (s.nstr k).buf = some b → s.mc.fills = [] → s.mc.reread = [] → s.err.slots = [] → s.b (NET_PTP_CFG_en (s.f (NET_STR_CFG_mac k))) = false →
  s.memAnswers (s.pair (NET_STR_TPL_LO k) (NET_STR_TPL_HI k)) (s.f (NET_STR_TPL_LEN_bytes k)) false = true →
  s.eccDets (s.pair (NET_STR_TPL_LO k) (NET_STR_TPL_HI k)) = none →
  Runs (.streamPacket k) s (fun t =>
    (t.nstr k).queue = q ∧ (t.nstr k).seq = ((s.nstr k).seq + 1) % 2 ^ 32 ∧
    (t.nstr k).buf = (if last then none else some b) ∧
    t.rd (NET_STR_DISC k) = s.rd (NET_STR_DISC k) + (if s.macUp (s.f (NET_STR_CFG_mac k)) then 0 else 1) ∧
    Keeps (fun a => a = NET_STR_DISC k ∨ a = (ringRegs (.enc c)).stat) s t)

/-! ### Position feedback (R369 to R380) -/

/-- A register of channel `c`. -/
abbrev ofPfi (c a : Nat) : Prop := PFI_CTRL c ≤ a ∧ a < PFI_CTRL c + 0x100

/-- At a channel from which no strip-scan port takes its triggers, a change to the neighbouring state counts one edge forward or backward; a change to none is invalid, or skips (R370 to
R372). -/
def hallEdge (s : State) (u c : Nat) (x : BitVec 3) (k : Nat) : Prop :=
  c < 4 → Calm s → s.pfiOn c = true → s.f (PFI_CTRL_filt c) < k → (s.pfi c).seen = true → (s.pfi c).hall ≠ x.toNat → s.f (PFI_STATUS_hall c) ≠ 0 →
  (s.pfi c).idxAt.all (fun i => decide (i < sampleAt u)) = true →
  (List.range 4).all (fun n => !(s.stripMode n && s.f (SP_SS_CTRL_src n) == 2 && s.f (SP_SS_CTRL_pfi n) == c)) = true →
  let h := hallStep (s.f (PFI_STATUS_hall c)) x.toNat
  Runs (.hallEdge u c x k) s (fun t =>
    sampleAt u ≤ t.now ∧
    t.rd (PFI_POS c) = s.rd (PFI_POS c) + (if h = .fwd then 1 else if h = .bwd then 0xFFFFFFFF else 0) ∧
    t.rd (PFI_INVALID c) = s.rd (PFI_INVALID c) + (if h = .invalid then 1 else 0) ∧
    t.rd (PFI_SKIP c) = s.rd (PFI_SKIP c) + (if h = .skip then 1 else 0) ∧
    (h = .fwd → t.f (PFI_STATUS_hall c) = x.toNat ∧ Told 0x54 (16 * c) x.toNat s t) ∧
    (h = .bwd → t.f (PFI_STATUS_hall c) = x.toNat ∧ Told 0x54 (16 * c) (x.toNat + 8) s t) ∧
    (h = .invalid → t.f (PFI_STATUS_hall c) = s.f (PFI_STATUS_hall c) ∧ Told 0x54 (16 * c + 3) 0 s t) ∧
    RegsBut (fun a => a = PFI_POS c ∨ a = PFI_STATUS c ∨ a = PFI_INVALID c ∨ a = PFI_SKIP c ∨ a = PFI_SPEED c ∨ a = PFI_PERIOD c) s t ∧ MemBut (fun _ => False) s t)

/-- The sequence of states forward is 1, 3, 2, 6, 4, 5 (R370). -/
def hallOrder : Prop :=
  [(1, 3), (3, 2), (2, 6), (6, 4), (4, 5), (5, 1)].all (fun e => hallStep e.1 e.2 == .fwd && hallStep e.2 e.1 == .bwd) = true

/-- An accepted index edge of the polarity chosen holds the position, and zeroes it with idx_zero (R371). -/
def indexEdge (s : State) (u c : Nat) (up : Bool) (k : Nat) : Prop :=
  c < 4 → Calm s → s.pfiOn c = true → s.f (PFI_CTRL_filt c) < k →
  Runs (.indexEdge u c up k) s (fun t =>
    (if s.b (PFI_CTRL_idx_en c) = true ∧ up ≠ s.b (PFI_CTRL_idx_pol c)
    then t.rd (PFI_IDX_POS c) = s.rd (PFI_POS c) ∧ t.rd (PFI_POS c) = (if s.b (PFI_CTRL_idx_zero c) then 0 else s.rd (PFI_POS c)) ∧
      Told 0x54 (16 * c + 1) ((s.rd (PFI_POS c)).toNat % 65536) s t
    else Quiet s t ∧ t.rd (PFI_IDX_POS c) = s.rd (PFI_IDX_POS c) ∧ t.rd (PFI_POS c) = s.rd (PFI_POS c)) ∧
    Keeps (fun a => a = PFI_IDX_POS c ∨ a = PFI_POS c ∨ a = PFI_PH_EXTRA c) s t)

/-- A write sets the position at the next HCLK sample (R371). -/
def posWrite (s : State) (r : Requester) (c : Nat) (v : Word) : Prop :=
  c < 4 → s.unitOn dPFI = true → Calm s →
  Writes (.posWrite r c v) r (fun a => a = PFI_POS c) s (fun t => t.rd (PFI_POS c) = v ∧ t.now = (s.now / 10000 + 1) * 10000)

/-- The end of a window shows its net count and begins the next (R373). -/
def speedWindow (s : State) (c : Nat) : Prop :=
  c < 4 → Calm s → s.pfiOn c = true → 0 < (s.pfi c).winLen → 0 < s.f (PFI_SPD_WIN_us c) →
  s.now < (s.pfi c).winAt + (s.pfi c).winLen * Config.us →
  Runs (.speedWindow c) s (fun t =>
    t.now = (s.pfi c).winAt + (s.pfi c).winLen * Config.us ∧ t.rd (PFI_SPEED c) = w32 (s.pfi c).net ∧ (t.pfi c).net = 0 ∧
    (t.pfi c).winAt = t.now ∧ (t.pfi c).winLen = s.f (PFI_SPD_WIN_us c) ∧ Keeps (fun a => a = PFI_SPEED c) s t)

/-- A low fault input turns every output off and holds them so until fault is cleared; a high one changes nothing shown
(R377). -/
def faultInput (s : State) (c : Nat) (up : Bool) : Prop :=
  c < 4 → s.domOn dPFI = true → s.err.slots = [] →
  Runs (.faultInput c up) s (fun t =>
    (t.pfi c).fltHigh = up ∧
    (if up = true then Keeps (fun _ => False) s t ∧ Quiet s t
    else t.b (PFI_STATUS_fault c) = true ∧ (t.pfi c).code = 0 ∧ Told 0x54 (16 * c + 7) 0 s t ∧
      (List.range 3).all (fun k => t.pfiSwitch c k == (false, false)) = true ∧
      Keeps (fun a => a = PFI_STATUS c ∨ a = ERR_LAST) s t))

/-- A window with an index edge reports how far the first is from the target, and the tick's number; one with none counts a miss
(R378, R379). -/
def phaseWindowClose (s : State) (c : Nat) (w : PhWin) : Prop :=
  c < 4 → Calm s → s.pfiOn c = true → s.b (PFI_PH_CFG_en c) = true → (s.pfi c).phNext = some w →
  let e : Int := ((w.first.getD 0 : Nat) : Int)
  Runs (.phaseWindowClose c) s (fun t =>
    t.rd (PFI_PH_RFN c) = BitVec.ofNat 32 w.tick.rfn ∧ Told 0x54 (16 * c + 5) w.tick.rfn s t ∧
    (t.pfi c).wins = (s.pfi c).wins.erase w ∧ w.target + (w.tick.per * 500 : Nat) ≤ t.now ∧
    (w.first = none → t.rd (PFI_PH_MISS c) = s.rd (PFI_PH_MISS c) + 1 ∧ t.rd (PFI_PH_ERR c) = 0 ∧
      Told 0x54 (16 * c + 6) w.tick.rfn s t) ∧
    (w.first.isSome = true → t.rd (PFI_PH_ERR c) = w32 ((e - w.target).fdiv 1000) ∧ t.rd (PFI_PH_MISS c) = s.rd (PFI_PH_MISS c)) ∧
    Keeps (fun a => a = PFI_PH_ERR c ∨ a = PFI_PH_INFO c ∨ a = PFI_PH_MISS c ∨ a = PFI_PH_RFN c) s t)

/-! ### Boot and configuration (chapter 20) -/

/-- A power-on reset restores every register; MRAM, OTP and the flash device keep their contents, and a cold boot is due
(R392, R427, R429). PWR starts its first power-up, and the debug lock is shown from OTP. -/
def por (s : State) : Prop :=
  Runs .por s (fun t =>
    t.variant = s.variant ∧ t.cfg.otp = s.cfg.otp ∧ t.cfg.flash = s.cfg.flash ∧ t.pwr.bootDue = true ∧ t.pwr.bootWarm = false ∧
    t.err.slots = [] ∧ t.evr.flight = [] ∧ Restored (fun a => a ≠ PWR_BUSY ∧ a ≠ MON_DBG_STATUS ∧ a ≠ GPIO_IN ∧ a ≠ CFG_OTP_DATA) t ∧
    t.f GPIO_IN_in = t.pads ∧ t.rd CFG_OTP_DATA = t.otpRead 0 ∧ MemBut (fun a => inMram a = false) s t)

/-- A cold boot that is due takes place; when it succeeds, the block of R408 stands at the start of system SRAM, the
warm-boot record is valid, and sage's DRAM window is the header's (R392, R408). -/
def coldBoot (s : State) (fails : List Nat) (z : Bool) : Prop :=
  s.pwr.bootDue = true → s.pwr.bootWarm = false →
  Runs (.coldBoot fails z) s (fun t =>
    t = (bootCold z fails s).2 ∧ t.pwr.bootDue = false ∧
    ((bootCold z fails s).1 = true →
      t.peeks Config.sramBase 64 = bootInfo t ∧ t.b CFG_WARM_valid = true ∧ t.f SAGE_DRAM_WIN_base = t.cfg.win % 256))

/-- With no image at either place the boot fails with cause 2 for slot A; bad OTP contents end it before a slot is tried.
Of memory it changes the fault log alone (R392, R397, R398, R455). -/
def coldBootFails (s : State) (fails : List Nat) (z : Bool) : Prop :=
  s.pwr.bootDue = true → s.pwr.bootWarm = false → s.cfg.flash = [] → s.cfg.otp = [] → s.err.slots = [] →
  Runs (.coldBoot fails z) s (fun t => t.pwr.bootDue = false ∧ MemBut (fun a => Config.logBase ≤ a) s t ∧
    (z = false → t.f CFG_BOOT_STATUS_cause_a = 2 ∧
      (s.pwr.job = none → pwrNext s = s →
        RegsBut (fun a => a = CFG_BOOT_STATUS ∨ a = CFG_OVL_STATUS ∨ a = CFG_MODE ∨ a = MON_DBG_STATUS) s t)) ∧
    (z = true → RegsBut (fun a => a = CFG_OVL_STATUS ∨ a = ERR_LAST) s t))

/-- A warm boot whose record is not valid is a cold boot (R410). -/
def warmBootCold (s : State) (fails : List Nat) (z : Bool) : Prop :=
  s.pwr.bootDue = true → s.pwr.bootWarm = true → (wakePower s).b CFG_WARM_valid = false →
  Runs (.warmBoot fails z) s (fun t => t = (bootCold z fails (wakePower s)).2 ∧ t.pwr.bootDue = false)

/-- A warm boot whose recorded image stands in memory runs the base stream from it; with no overlay in force and none
selected it ends there (R410). -/
def warmBoot (s : State) (fails : List Nat) (z : Bool) : Prop :=
  s.pwr.bootDue = true → s.pwr.bootWarm = true → (wakePower s).b CFG_WARM_valid = true → (wakePower s).err.slots = [] →
  (wakePower s).memAnswers (wakePower s).imgArea.1 (wakePower s).imgArea.2 false = true →
  crc32 ((wakePower s).peeks (wakePower s).imgArea.1 (wakePower s).imgArea.2) = (wakePower s).f CFG_IMG_CRC_crc →
  (baseStream true (wakePower s).imgArea (ovlDrop (wakePower s))).1 = false →
  (baseStream true (wakePower s).imgArea (ovlDrop (wakePower s))).2.f CFG_OVL_STATUS_in_force = 0 →
  ((bootRelease (flag CFG_BOOT_STATUS_warm (logBoot (baseStream true (wakePower s).imgArea (ovlDrop (wakePower s))).2))).modeOverlay
    s.cfg.pins).1 = none →
  Runs (.warmBoot fails z) s (fun t =>
    t = bootRelease (flag CFG_BOOT_STATUS_warm (logBoot (baseStream true (wakePower s).imgArea (ovlDrop (wakePower s))).2)) ∧
    t.pwr.bootDue = false ∧ t.b CFG_BOOT_STATUS_warm = true ∧ t.peeks Config.sramBase 64 = bootInfo t)

/-- go starts a flash read; one of no bytes is done at once, and one while a read is in progress is a bad write (R394). -/
def xspiRead (s : State) (r : Requester) (v : Word) : Prop :=
  s.unitOn dCTRL = true →
  Writes (.xspiRead r v) r (fun a => a = XSPI_STATUS) s (fun t =>
    if s.b XSPI_STATUS_busy = true then t.f XSPI_STATUS_bad_write = 1 ∧ t.f XSPI_STATUS_done = s.f XSPI_STATUS_done
    else if s.f XSPI_LEN_bytes = 0 then t.f XSPI_STATUS_done = 1 ∧ t.f XSPI_STATUS_busy = 0 ∧ Told 0x58 5 0 s t
    else t.f XSPI_STATUS_busy = 1 ∧ t.f XSPI_STATUS_done = s.f XSPI_STATUS_done)

/-- A read whose destination all answers stores the flash bytes there, and is done (R394). -/
def xspiDone (s : State) : Prop :=
  s.unitOn dCTRL = true → s.b XSPI_STATUS_busy = true → s.err.slots = [] → s.mc.fills = [] → s.mc.reread = [] →
  s.xspiRoom (s.pair XSPI_DST_LO XSPI_DST_HI) (s.f XSPI_LEN_bytes) = s.f XSPI_LEN_bytes →
  Runs .xspiDone s (fun t =>
    t.peeks (s.pair XSPI_DST_LO XSPI_DST_HI) (s.f XSPI_LEN_bytes) = s.flashBytes (s.f XSPI_ADDR_addr) (s.f XSPI_LEN_bytes) ∧
    t.f XSPI_STATUS_busy = 0 ∧ t.f XSPI_STATUS_done = 1 ∧ t.f XSPI_STATUS_err = s.f XSPI_STATUS_err ∧
    Told 0x58 5 (s.f XSPI_LEN_bytes) s t ∧ RegsBut (fun a => a = XSPI_STATUS) s t ∧
    MemBut (fun a => s.pair XSPI_DST_LO XSPI_DST_HI ≤ a ∧ a < s.pair XSPI_DST_LO XSPI_DST_HI + s.f XSPI_LEN_bytes) s t)

/-- A write of GPIO_SET sets the outputs named, and GPIO_IN follows the pads (R395). -/
def gpioSet (s : State) (r : Requester) (v : Word) : Prop :=
  s.unitOn dCTRL = true →
  Writes (.gpioSet r v) r (fun a => a = GPIO_OUT ∨ a = GPIO_IN ∨ a = GPIO_EDGE_STATUS) s (fun t =>
    t.f GPIO_OUT_out = s.f GPIO_OUT_out ||| v.toNat % 65536 ∧ t.f GPIO_IN_in = t.pads)

/-- A write of GPIO_CLR clears them (R395). -/
def gpioClr (s : State) (r : Requester) (v : Word) : Prop :=
  s.unitOn dCTRL = true →
  Writes (.gpioClr r v) r (fun a => a = GPIO_OUT ∨ a = GPIO_IN ∨ a = GPIO_EDGE_STATUS) s (fun t =>
    t.f GPIO_OUT_out = s.f GPIO_OUT_out &&& (65535 - v.toNat % 65536) ∧ t.f GPIO_IN_in = t.pads)

/-- The level on an input pin shows in GPIO_IN; a change that its edge selection takes is noted and raised (R395). -/
def gpioEdge (s : State) (u i : Nat) (level : Bool) : Prop :=
  i < 16 → s.unitOn dCTRL = true → Calm s → bitOf (s.padRd dCTRL GPIO_OE).toNat i = false → s.f GPIO_IN_in = s.pads →
  Runs (.gpioEdge u i level) s (fun t =>
    bitOf (t.f GPIO_IN_in) i = level ∧
    (bitOf (s.f GPIO_IN_in) i ≠ level →
      bitsOf (s.rd GPIO_EDGE_CFG).toNat (2 * i + 1) (2 * i) = 3 →
      bitOf (t.f GPIO_EDGE_STATUS_seen) i = true ∧ Told 0x58 3 i s t) ∧
    Keeps (fun a => a = GPIO_IN ∨ a = GPIO_EDGE_STATUS) s t)

/-- A request of an overlay that is not loaded, not valid, or meets a domain that is off is refused with its cause; one
while another is pending is held (R405). -/
def overlayRequestWaits (s : State) (r : Requester) (v : Word) : Prop :=
  s.pwr.testHold = false → s.cfg.start = none → (s.ovlCause (bitsOf v.toNat 3 0) ≠ 0 ∨ s.b CFG_OVL_STATUS_busy = true) →
  Writes (.overlayRequest r v) r (fun a => a = CFG_OVL_STATUS) s (fun t =>
    if s.ovlCause (bitsOf v.toNat 3 0) ≠ 0 then
      t.f CFG_OVL_STATUS_refuse = s.ovlCause (bitsOf v.toNat 3 0) ∧
      Told 0x06 2 (bitsOf v.toNat 3 0 * 16 + s.ovlCause (bitsOf v.toNat 3 0)) s t
    else t.f CFG_OVL_STATUS_held = 1 ∧ t.f CFG_OVL_STATUS_held_index = bitsOf v.toNat 3 0)

/-- A request of a valid overlay whose one record writes a register outside every pipeline: the record is written, and the
pipelines of its mask wait for their commits (R405, R406). -/
def overlayRequest (s : State) (r : Requester) (v : Word) (x : Sect) (w : Word) : Prop :=
  s.cfg.start = none → s.ovlCause (bitsOf v.toNat 3 0) = 0 → s.b CFG_OVL_STATUS_busy = false → s.unitOn dCTRL = true →
  s.err.slots = [] → s.mc.fills = [] → s.mc.reread = [] → s.memAnswers x.addr x.bytes false = true →
  s.ovlSect (bitsOf v.toNat 3 0) = some x → s.records x = [.write REF_PHASE w] → bitOf x.mask 0 = true →
  Writes (.overlayRequest r v) r (fun a => a = CFG_OVL_STATUS ∨ a = REF_PHASE) s (fun t =>
    t.rd REF_PHASE = w ∧ t.f CFG_OVL_STATUS_busy = 1 ∧ t.f CFG_OVL_STATUS_pending = bitsOf v.toNat 3 0 ∧
    t.cfg.todo = (List.range (Config.ports s.variant)).filter (bitOf x.mask) ∧ Told 0x06 1 (bitsOf v.toNat 3 0 * 16 + 15) s t)

/-- A change of the MODE pins is shown and raised; while the pins are not followed it requests nothing (R405). -/
def modeChange (s : State) (p : BitVec 4) : Prop :=
  s.pwr.testHold = false → s.awake = true → s.pwr.bootDue = false → s.f CFG_MODE_pins ≠ p.toNat → s.b CFG_MODE_pin_follow = false → s.cfg.start = none →
  Runs (.modeChange p) s (fun t =>
    t.f CFG_MODE_pins = p.toNat ∧ Told 0x06 0 p.toNat s t ∧ Keeps (fun a => a = CFG_MODE) s t)

/-- The engine writes a pipeline's commit at the target of R406; with four pending it waits. -/
def overlayCommit (s : State) (n : Nat) : Prop :=
  n < 4 → s.cfg.todo.contains n = true → s.unitOn (dIP n) = true → (s.ip n).commits.any (·.capturing) = false →
  Runs (.overlayCommit n) s (fun t => if 4 ≤ (s.ip n).commits.length then t = s else
    t.cfg.todo = s.cfg.todo.filter (· != n) ∧ look t.cfg.hold n = some (s.ovlTarget n) ∧
    (t.ip n).commits.length = (s.ip n).commits.length + 1 ∧
    (t.ip n).commits.getLast?.map (·.target) = some (s.ovlTarget n) ∧
    Keeps (fun a => a = IP_COMMIT_STATUS n ∨ a = IP_COMMIT_TARGET n ∨ a = IP_CLR_LOAD n ∨ judgeShown n a) s t)

/-- Once the frame that took the overlay has opened, the overlay takes the pipeline; the last one puts it in force (R406). -/
def overlayApply (s : State) (n k : Nat) : Prop :=
  n < 4 → s.cfg.start = none → look s.cfg.sof n = some k → s.cfg.fin.contains n = false → s.b CFG_OVL_STATUS_busy = true →
  s.b CFG_OVL_STATUS_held = false → s.domOn dPRC = false → s.domOn dFAB = false →
  Runs (.overlayApply n) s (fun t =>
    Told 0x06 1 (s.f CFG_OVL_STATUS_pending * 16 + n) s t ∧
    (if s.cfg.todo = [] ∧ s.cfg.hold = [] ∧ s.cfg.sof.all (fun e => e.1 == n || s.cfg.fin.contains e.1) = true
    then t.f CFG_OVL_STATUS_in_force = s.f CFG_OVL_STATUS_pending ∧ t.f CFG_OVL_STATUS_busy = 0
    else t.cfg.fin = n :: s.cfg.fin ∧ t.f CFG_OVL_STATUS_busy = 1) ∧
    Keeps (fun a => a = CFG_OVL_STATUS) s t)

/-- lock sets the lock (R409). -/
def bootLock (s : State) (r : Requester) (v : Word) : Prop :=
  s.pwr.testHold = false → Writes (.bootLock r v) r (fun a => a = CFG_LOCK) s (fun t => t.f CFG_LOCK_lock = 1)

/-- inval clears the warm-boot record's validity (R411). -/
def warmInvalidate (s : State) (r : Requester) (v : Word) : Prop :=
  s.pwr.testHold = false → Writes (.warmInvalidate r v) r (fun a => a = CFG_WARM) s (fun t => t.f CFG_WARM_valid = 0)

/-- A program of an OTP word is refused with its cause, or runs for 100 µs (R413). -/
def otpProgram (s : State) (r : Requester) (v : Word) : Prop :=
  s.pwr.testHold = false → Writes (.otpProgram r v) r (fun a => a = CFG_OTP_STATUS) s (fun t =>
    t.f CFG_OTP_STATUS_refuse = s.otpCause (s.f CFG_OTP_ADDR_word) ∧ t.cfg.otp = s.cfg.otp ∧
    if s.otpCause (s.f CFG_OTP_ADDR_word) = 0
    then t.f CFG_OTP_STATUS_busy = 1 ∧ t.cfg.otpRun = some (s.f CFG_OTP_ADDR_word, s.rd CFG_OTP_PROG, s.now + 100 * Config.us)
    else t.cfg.otpRun = s.cfg.otpRun ∧ Told 0x06 5 (s.f CFG_OTP_ADDR_word) s t)

/-- The program ends: its 1 bits are set in the word and no other word changes (R412, R413). -/
def otpDone (s : State) (w due : Nat) (bits : Word) : Prop :=
  s.cfg.otpRun = some (w, bits, due) → Calm s →
  Runs .otpDone s (fun t =>
    t.otp w = s.otp w ||| bits ∧ (∀ i ∈ List.range 64, i ≠ w → t.otp i = s.otp i) ∧ t.cfg.otpRun = none ∧
    t.f CFG_OTP_STATUS_busy = 0 ∧ t.f CFG_OTP_STATUS_done = 1 ∧ Told 0x06 4 w s t ∧
    Keeps (fun a => a = CFG_OTP_STATUS ∨ a = CFG_OTP_DATA ∨ a = MON_DBG_STATUS) s t)

/-! ### The CTL_SPI target and its mailbox (R414) -/

/-- A write to the inbox while it belongs to the controller is taken; else err is set and nothing is written. -/
def ctlSpiWrite (s : State) (a : BitVec 16) (bs : List Byte) : Prop :=
  s.domOn dCTRL = true → a.toNat + bs.length ≤ 0x800 →
  Runs (.ctlSpiWrite a bs) s (fun t =>
    if s.b CTL_MBOX_STATUS_in_full = true
    then t.f CTL_MBOX_STATUS_err = 1 ∧ t.mon.mbox = s.mon.mbox ∧ Keeps (fun x => x = CTL_MBOX_STATUS) s t
    else (List.range bs.length).map (fun i => t.mboxByte (a.toNat + i)) = bs ∧ Keeps (fun _ => False) s t)

/-- A read returns the mailbox's bytes, and 0xFF past them. -/
def ctlSpiRead (s : State) (a : BitVec 16) (n : Nat) : Prop :=
  s.domOn dCTRL = true →
  Runs (.ctlSpiRead a n) s (fun t =>
    t.mon.spiOut = (List.range n).map (fun i => if a.toNat + i < 0x1000 then s.mboxByte (a.toNat + i) else 0xFF) ∧
    Keeps (fun _ => False) s t)

/-- The status byte is the low byte of CTL_MBOX_STATUS, its reserved bits 0. -/
def ctlSpiStatus (s : State) : Prop :=
  s.domOn dCTRL = true →
  Runs .ctlSpiStatus s (fun t =>
    t.mon.spiOut = [BitVec.ofNat 8 ((s.rd CTL_MBOX_STATUS).toNat % 8)] ∧ Keeps (fun _ => False) s t)

/-- A doorbell fills the inbox and tells the firmware. -/
def ctlSpiDoorbell (s : State) : Prop :=
  s.domOn dCTRL = true →
  Runs .ctlSpiDoorbell s (fun t =>
    t.f CTL_MBOX_STATUS_in_full = 1 ∧ Told 0x58 0x20 0 s t ∧ Keeps (fun a => a = CTL_MBOX_STATUS) s t)

/-- An acknowledge frees the outbox, and releases CTL_IRQ_N. -/
def ctlSpiAck (s : State) : Prop :=
  s.domOn dCTRL = true →
  Runs .ctlSpiAck s (fun t =>
    t.f CTL_MBOX_STATUS_out_ready = 0 ∧ t.ctlIrqN = true ∧ Told 0x58 0x21 0 s t ∧ Keeps (fun a => a = CTL_MBOX_STATUS) s t)

/-- A byte that is no command is counted. -/
def ctlSpiUnknown (s : State) (b : Byte) : Prop :=
  s.domOn dCTRL = true → ([0x02, 0x03, 0x05, 0x06, 0x07] : List Nat).contains b.toNat = false →
  Runs (.ctlSpiUnknown b) s (fun t => t.rd CTL_SPI_ERR = s.rd CTL_SPI_ERR + 1 ∧ Keeps (fun a => a = CTL_SPI_ERR) s t)

/-- in_clr gives the inbox back to the controller, unless the write posts too and the outbox is still full (R414, R510). -/
def mboxInClear (s : State) (r : Requester) (v : Word) : Prop :=
  s.pwr.testHold = false → s.unitOn dCTRL = true →
  Writes (.mboxInClear r v) r (fun a => a = CTL_MBOX_STATUS) s (fun t =>
    if bitOf v.toNat 1 = true ∧ s.b CTL_MBOX_STATUS_out_ready = true
    then t.f CTL_MBOX_STATUS_bad_write = 1 ∧ t.f CTL_MBOX_STATUS_in_full = s.f CTL_MBOX_STATUS_in_full
    else t.f CTL_MBOX_STATUS_in_full = 0)

/-- post hands the outbox over, unless it is still full. -/
def mboxPost (s : State) (r : Requester) (v : Word) : Prop :=
  s.unitOn dCTRL = true →
  Writes (.mboxPost r v) r (fun a => a = CTL_MBOX_STATUS) s (fun t =>
    t.f CTL_MBOX_STATUS_out_ready = 1 ∧ t.ctlIrqN = false ∧
    t.f CTL_MBOX_STATUS_bad_write = (if s.b CTL_MBOX_STATUS_out_ready then 1 else s.f CTL_MBOX_STATUS_bad_write))

/-! ### Power domains (R416 to R421) -/

/-- A client's vote is taken for the present domains, CTRL always in it; another's is a bad write (R417). -/
def vote (s : State) (r : Requester) (c : Nat) (v : Word) : Prop :=
  s.pwr.testHold = false → c < 7 →
  Writes (.vote r c v) r (fun a => a = PWR_VOTE c ∨ a = PWR_CFG_STATUS ∨ a = PWR_BUSY ∨ a = PWR_STATE) s (fun t =>
    if mayVote r c = true
    then t.f (PWR_VOTE_vote c) = (v.toNat % 2 ^ 31 &&& presentMask s.variant) ||| 1
    else t.f PWR_CFG_STATUS_bad_write = 1 ∧ t.rd (PWR_VOTE c) = s.rd (PWR_VOTE c) ∧ t.rd PWR_BUSY = s.rd PWR_BUSY)

/-- A domain unwanted for PWR_HYST, the highest such, starts to power down while PWR has nothing else to do (R418, R419). -/
def domainPowerDownStart (s : State) (d u : Nat) : Prop :=
  0 < d → d < 31 → Calm s → s.pwr.job = none → s.nextUp = none → s.pwr.unwanted = [(d, u)] →
  Runs (.domainPowerDownStart d) s (fun t =>
    u + s.f PWR_HYST_us * Config.us ≤ t.now ∧ t.pwr.job = some (d, .down) ∧ t.pwr.jobDue = t.now + Config.ms ∧
    bitOf (t.f PWR_BUSY_trans) d = true ∧ Keeps (fun a => a = PWR_BUSY) s t)

/-- The registers that show pads, or locks of the recorder, of a domain that has come on (R327, R377, R395). -/
abbrev upShown (d a : Nat) : Prop :=
  d = dCTRL ∧ (a = GPIO_IN ∨ a = GPIO_EDGE_STATUS) ∨ d = dPFI ∧ (List.range 4).any (fun c => a == PFI_STATUS c) = true ∨
    d = dOEP ∧ (a = OEP_LOCK_STAT ∨ a = OEP_LOCK_GRANT_LO ∨ a = OEP_LOCK_GRANT_HI)

/-- A power-up completes: the domain is on, and a parity error of its retention cells is noted (R419, R444). -/
def domainOn (s : State) (d : Nat) (z : Bool) : Prop :=
  d < 31 → s.err.slots = [] → s.pwr.job = some (d, .up) →
  Runs (.domainOn d z) s (fun t =>
    bitOf (t.f PWR_STATUS_on) d = true ∧ Told 0x02 0 d s t ∧ (z = true → t.f ERR_LAST_id = 0x0203) ∧ look t.pwr.onSince d = some s.now ∧
    Keeps (fun a => a = PWR_STATUS ∨ a = PWR_BUSY ∨ a = ERR_LAST ∧ z = true ∨ a = PWR_STATE ∨ upShown d a) s t)

/-- A domain not quiet within 1 ms is reported (R419). -/
def quiesceTimeout (s : State) (d : Nat) : Prop :=
  d < 31 → Calm s → s.pwr.job = some (d, .down) →
  Runs (.quiesceTimeout d) s (fun t =>
    t.now = max s.now s.pwr.jobDue ∧ Told 0x02 4 d s t ∧ t.pwr = s.pwr ∧ Keeps (fun _ => False) s t)

/-- A power-down completes: the domain is off, its pads latched, its class D registers restored (R419, R421, R429). -/
def domainOff (s : State) (d : Nat) : Prop :=
  0 < d → d < 31 → s.err.slots = [] → s.pwr.job = some (d, .down) →
  Runs (.domainOff d) s (fun t =>
    bitOf (t.f PWR_STATUS_on) d = false ∧ bitOf (t.f PWR_PAD_HELD_held) d = true ∧ Told 0x02 1 d s t ∧
    Restored (fun a => clsOf s.variant a = some (.d, some d)) t ∧ MemBut (fun _ => False) s t ∧
    RegsBut (fun a => clsOf s.variant a = some (.d, some d) ∨ a = PWR_STATUS ∨ a = PWR_BUSY ∨ a = PWR_STATE ∨ a = PWR_PAD_HELD ∨
      aRingStat a) s t)

/-- The pads of domains that are on are released; a bit of a domain that is off refuses the whole write, and each bit of an
absent or off domain sets bad_write (R421, R473, R510). -/
def padRelease (s : State) (r : Requester) (v : Word) : Prop :=
  let rel := v.toNat % 2 ^ 31 &&& presentMask s.variant
  s.pwr.testHold = false → Writes (.padRelease r v) r (fun a => a = PWR_PAD_HELD ∨ a = PWR_CFG_STATUS ∨ a = GPIO_IN ∨ a = GPIO_EDGE_STATUS) s (fun t =>
    (∀ d ∈ List.range 31, bitOf (t.f PWR_PAD_HELD_held) d = (bitOf (s.f PWR_PAD_HELD_held) d &&
      !(bitOf rel d && (rel &&& s.f PWR_STATUS_on) == rel))) ∧
    (v.toNat % 2 ^ 31 &&& (2 ^ 31 - 1 - (s.f PWR_STATUS_on &&& presentMask s.variant)) ≠ 0 → t.f PWR_CFG_STATUS_bad_write = 1))

/-- Pads still held 10 ms after the domain came on are reported (R421). -/
def padHeld (s : State) (d u : Nat) : Prop :=
  d < 31 → Calm s → look s.pwr.onSince d = some u → bitOf (s.f PWR_PAD_HELD_held) d = true → s.domOn d = true →
  s.pwr.padTold.contains d = false →
  Runs (.padHeld d) s (fun t =>
    t.now = max s.now (u + 10 * Config.ms) ∧ Told 0x02 3 d s t ∧ t.pwr.padTold = d :: s.pwr.padTold ∧ Keeps (fun _ => False) s t)

/-- An access hold ends (R420). -/
def accessHoldEnd (s : State) (d u : Nat) : Prop :=
  d < 31 → Calm s → look s.pwr.holds d = some u →
  Runs (.accessHoldEnd d) s (fun t =>
    t.now = max s.now u ∧ t.pwr.holds = del s.pwr.holds d ∧ Keeps (fun a => a = PWR_BUSY ∨ a = PWR_STATE) s t)

/-! ### Sleep, wake and resets (R422 to R429, R443) -/

/-- A Sleep request from sage alone: refused with the endpoint's link up and no force, or with an entry in progress, or
accepted (R422, R423). -/
def sleepGo (s : State) (r : Requester) (v : Word) : Prop :=
  s.pwr.testHold = false → Runs (.sleepGo r v) s (fun t =>
    Answered r 0 t ∧
    if r ≠ .sage then t.f PWR_CFG_STATUS_bad_write = 1 ∧ Keeps (fun a => a = PWR_CFG_STATUS) s t
    else if s.b OEP_STATUS_link_up = true ∧ bitOf v.toNat 1 = false
    then t.f PWR_STATE_refuse = 1 ∧ Told 0x02 7 1 s t ∧ Keeps (fun a => a = PWR_SLEEP ∨ a = PWR_STATE) s t
    else if s.pwr.step ≠ .none then t.f PWR_STATE_refuse = 2 ∧ Told 0x02 7 2 s t ∧ Keeps (fun a => a = PWR_SLEEP ∨ a = PWR_STATE) s t
    else t.f PWR_STATE_state = 2 ∧ t.pwr.step = .quiesce ∧ t.pwr.stepDue = s.now + s.f PWR_SLEEP_CFG_quiesce_ms * Config.ms ∧
      Told 0x02 5 0 s t ∧ (List.range (Config.ports s.variant)).all (fun n => !t.b (SP_CTRL_run n)) = true ∧
      t.b SCO_CTRL_en = false ∧
      RegsBut (fun a => (clsOf s.variant a).any (fun c => c.1 == .d) = true ∨ a = PWR_STATE ∨ a = PWR_SLEEP ∨ aRingStat a) s t ∧
      ((List.range 4).all (fun n => !s.audActive n) = true → MemBut (fun _ => False) s t))

/-- The entry goes on to DRAM's self-refresh once every unit is quiet, or at the end of the quiesce time (R423). -/
def sleepQuiesceDone (s : State) : Prop :=
  s.pwr.step = .quiesce → Calm s →
  Runs .sleepQuiesceDone s (fun t =>
    t.pwr.step = .dram ∧ (s.quiet = false → s.pwr.stepDue ≤ t.now) ∧
    allRings.all (fun g => (t.ring g).writing.isNone) = true ∧ RegsBut aRingStat s t ∧ MemBut (fun _ => False) s t)

/-- With DRAM in self-refresh every domain powers down: SLEEP is reached, and what is outside system SRAM keeps its
contents (R423, R429). -/
def fallAsleep (s : State) : Prop :=
  s.pwr.step = .dram → s.pwr.soft = false → s.pwr.wakeHeld = none → s.err.slots = [] →
  Runs .sleepDramIdle s (fun t =>
    t.f PWR_STATE_state = 3 ∧ t.f PWR_STATUS_on = 0 ∧ t.pwr.step = .none ∧
    MemBut (fun a => inSram a = true) s t ∧ RegsBut (fun a => (clsOf s.variant a).any (fun c => c.1 == .d) = true ∨
      a = PWR_STATUS ∨ a = PWR_BUSY ∨ a = PWR_STATE ∨ a = PWR_PAD_HELD ∨ aRingStat a) s t)

/-- A soft reset then restores classes S and D; classes P and H, MRAM, DRAM and SRAM stay, and a warm boot is due (R428,
R429). -/
def softReset (s : State) : Prop :=
  s.pwr.step = .dram → s.pwr.soft = true → s.err.slots = [] → s.err.pend = [] →
  Runs .sleepDramIdle s (fun t =>
    bitOf (t.f PWR_RST_CAUSE_cause) 7 = true ∧ t.pwr.bootDue = true ∧ t.pwr.bootWarm = true ∧ t.pwr.step = .none ∧
    Restored (fun a => (clsOf s.variant a).any (fun c => c.1 == .s || c.1 == .d) = true ∧ a ≠ PWR_BUSY ∧ a ≠ PWR_STATE ∧
      a ≠ GPIO_IN ∧ a ≠ CFG_OTP_DATA) t ∧ t.f GPIO_IN_in = t.pads ∧
    RegsBut (fun a => (clsOf s.variant a).any (fun c => c.1 == .s || c.1 == .d) = true ∨ a = PWR_RST_CAUSE ∨ a = PWR_PAD_HELD ∨ a = CFG_OTP_DATA) s t ∧
    MemBut (fun _ => False) s t)

/-- An enabled source wakes a chip in Sleep: CTRL is on, its cause is shown, and a warm boot is due (R424 to R426). -/
def wake (s : State) (k : Nat) : Prop :=
  k < 5 → bitOf (s.f PWR_SLEEP_CFG_wake_en) k = true → s.f PWR_STATE_state = 3 → s.tooHot = false → s.pwr.wakeHeld = none →
  s.err.slots = [] → (k = 3 → alarmIn s = 0) →
  Runs (.wake k) s (fun t =>
    t.f PWR_WAKE_cause = k + 1 ∧ bitOf (t.f PWR_RST_CAUSE_cause) 8 = true ∧ t.f PWR_STATE_state < 2 ∧ t.f PWR_STATUS_on = 1 ∧
    t.f PWR_CLK_fab = 0 ∧ t.f PWR_CLK_mem = 0 ∧ t.f PWR_CLK_ctrl = 0 ∧ t.tsu.sec = s.aonSec ∧ t.f TSU_STATUS_valid = 0 ∧
    t.pwr.bootDue = true ∧ t.f GPIO_IN_in = t.pads ∧ t.pwr.bootWarm = true ∧ Told 0x02 6 (k + 1) s t ∧
    Keeps (fun a => a = PWR_WAKE ∨ a = PWR_RST_CAUSE ∨ a = PWR_STATE ∨ a = PWR_STATUS ∨ a = PWR_BUSY ∨ a = PWR_CLK ∨
      a = TSU_STATUS ∨ a = MON_UART_CFG ∨ upShown dCTRL a) s t)

/-- During an entry, or in a Sleep too hot to leave, the source is held (R423, R424). -/
def wakeHeld (s : State) (k : Nat) : Prop :=
  k < 5 → k ≠ 3 → bitOf (s.f PWR_SLEEP_CFG_wake_en) k = true → s.pwr.wakeHeld = none →
  (s.f PWR_STATE_state = 2 ∨ s.f PWR_STATE_state = 3 ∧ s.tooHot = true) →
  Runs (.wake k) s (fun t => t.pwr.wakeHeld = some k ∧ Keeps (fun _ => False) s t)

/-- PWR_CLK takes what is written (R426). -/
def clockSwitch (s : State) (r : Requester) (v : Word) : Prop :=
  s.pwr.testHold = false → Writes (.clockSwitch r v) r (fun a => a = PWR_CLK) s (fun t =>
    t.f PWR_CLK_fab = v.toNat % 2 ∧ t.f PWR_CLK_mem = v.toNat / 2 % 2 ∧ t.f PWR_CLK_ctrl = v.toNat / 4 % 2)

/-- The bit of a hard reset's cause. -/
def causeBit : HardCause → Nat
  | .pin _ => 1 | .watchdog => 2 | .clockLoss => 3 | .lockstep => 4 | .sage => 5 | .monitor => 6

/-- A hard reset notes its cause and restores classes H, S and D; class P, system SRAM and MRAM below the fault log stay,
and a cold boot is due (R427, R429). -/
def hardReset (s : State) (c : HardCause) : Prop :=
  s.err.slots = [] → s.pwr.testHold = false → c ≠ .pin true → (c = .watchdog → s.pwr.wdtFired.isSome = true) → (c = .clockLoss → s.pwr.clkLost = true) →
  Runs (.hardReset c) s (fun t =>
    t.f PWR_RST_CAUSE_cause = s.f PWR_RST_CAUSE_cause ||| 2 ^ causeBit c ∧ t.pwr.bootDue = true ∧ t.pwr.bootWarm = false ∧
    Restored (fun a => (clsOf s.variant a).any (fun c => c.1 == .p) = false ∧ a ≠ PWR_BUSY ∧ a ≠ MON_DBG_STATUS ∧ a ≠ GPIO_IN ∧
      a ≠ CFG_OTP_DATA) t ∧ t.f GPIO_IN_in = t.pads ∧ t.rd CFG_OTP_DATA = t.otpRead 0 ∧
    RegsBut (fun a => (clsOf s.variant a).any (fun c => c.1 == .p) = false ∨ a = PWR_RST_CAUSE) s t ∧
    MemBut (fun a => (inMram a || inSram a) = false ∨ Config.logBase ≤ a) s t)

/-- RST_N low with TEST_EN high keeps the device in reset and records nothing: no boot is due, no domain is on, no access is
answered; the next reset with TEST_EN low ends it (R491). -/
def testReset (s : State) : Prop :=
  Runs (.hardReset (.pin true)) s (fun t =>
    t.pwr.testHold = true ∧ t.pwr.bootDue = false ∧ t.f PWR_STATUS_on = 0 ∧ t.f PWR_RST_CAUSE_cause = s.f PWR_RST_CAUSE_cause ∧
    RegsBut (fun a => (clsOf s.variant a).any (fun c => c.1 == .p) = false) s t ∧
    MemBut (fun a => (inMram a || inSram a) = false ∨ Config.logBase ≤ a) s t)

/-- A soft reset starts like a Sleep entry, for sage, a core or the monitor; another's request is a bad write (R428). -/
def softResetWrite (s : State) (r : Requester) (v : Word) : Prop :=
  s.pwr.testHold = false → s.pwr.step = .none →
  Runs (.softReset r v) s (fun t =>
    if r = .cfg ∨ r = .debug then t.f PWR_CFG_STATUS_bad_write = 1 ∧ Keeps (fun a => a = PWR_CFG_STATUS) s t
    else t.pwr.step = .quiesce ∧ t.pwr.soft = true ∧ t.pwr.stepDue = s.now + s.f PWR_SLEEP_CFG_quiesce_ms * Config.ms ∧
      (List.range (Config.ports s.variant)).all (fun n => !t.b (SP_CTRL_run n)) = true ∧
      RegsBut (fun a => (clsOf s.variant a).any (fun c => c.1 == .d) = true ∨ aRingStat a) s t ∧
      ((List.range 4).all (fun n => !s.audActive n) = true → MemBut (fun _ => False) s t))

/-- sage's keys in order restart the watchdog; a wrong key while it counts is its expiry (R430). -/
def wdtKick (s : State) (r : Requester) (v : Word) : Prop :=
  s.pwr.testHold = false → s.err.slots = [] →
  Writes (.wdtKick r v) r (fun a => a = ERR_LAST ∨ a = PWR_CFG_STATUS) s (fun t =>
    if r ≠ .sage then t.f PWR_CFG_STATUS_bad_write = 1 ∧ t.pwr = s.pwr
    else if bitsOf v.toNat 7 0 = 0xA5 then t.pwr.wdtHalf = true ∧ t.pwr.wdtDue = s.pwr.wdtDue ∧ t.pwr.wdtFired = s.pwr.wdtFired
    else if bitsOf v.toNat 7 0 = 0x5A ∧ s.pwr.wdtHalf = true
    then t.pwr.wdtHalf = false ∧ t.pwr.wdtDue = s.now + s.f PWR_WDT_CFG_ms * Config.ms ∧ t.pwr.wdtFired = s.pwr.wdtFired
    else if s.b PWR_WDT_CFG_en = true ∧ s.pwr.wdtFired = none
    then t.pwr.wdtFired = some (s.now + 10 * Config.us) ∧ Told 0x02 9 0 s t
    else t.pwr = s.pwr)

/-- The watchdog's count runs out (R430). -/
def wdtExpired (s : State) : Prop :=
  s.pwr.testHold = false → s.b PWR_WDT_CFG_en = true → s.awake = true → s.pwr.wdtFired = none → Calm s →
  Runs .wdtExpired s (fun t =>
    t.now = max s.now s.pwr.wdtDue ∧ t.pwr.wdtFired = some (t.now + 10 * Config.us) ∧ Told 0x02 9 0 s t ∧
    t.f ERR_LAST_id = 0x0200 ∧ t.f ERR_LAST_kind = 1 ∧ Keeps (fun a => a = ERR_LAST) s t)

/-- The T3 grace time ends with a forced entry, refused while one is in progress (R443). -/
def t3GraceExpired (s : State) (u : Nat) : Prop :=
  s.pwr.t3Grace = some u → Calm s → s.mc.fills = [] → s.mc.reread = [] →
  Runs .t3GraceExpired s (fun t =>
    t.pwr.t3Grace = none ∧
    RegsBut (fun a => (clsOf s.variant a).any (fun c => c.1 == .d) = true ∨ a = PWR_STATE ∨ aRingStat a) s t ∧
    ((List.range 4).all (fun n => !s.audActive n) = true → MemBut (fun _ => False) s t) ∧
    if s.pwr.step = .none then t.f PWR_STATE_state = 2 ∧ t.pwr.step = .quiesce ∧ t.pwr.thermal = true ∧ Told 0x02 5 0 s t
    else t.f PWR_STATE_refuse = 2 ∧ t.pwr.step = s.pwr.step ∧ Told 0x02 7 2 s t)

/-- 1,000 ms after T3 every domain powers down at once (R443). -/
def forcedSleep (s : State) (u : Nat) : Prop :=
  s.pwr.t3At = some u → s.f PWR_STATE_state ≠ 3 → Calm s → s.pwr.wakeHeld = none →
  Runs .forcedSleep s (fun t =>
    u + 1000 * Config.ms ≤ t.now ∧ t.f PWR_STATE_state = 3 ∧ t.f PWR_STATUS_on = 0 ∧ t.pwr.thermal = true ∧ Told 0x03 6 0 s t ∧
    t.err.pend.getLast?.map (·.kind) = some 5 ∧ MemBut (fun a => inSram a = true) s t ∧
    RegsBut (fun a => (clsOf s.variant a).any (fun c => c.1 == .d) = true ∨
      a = PWR_STATUS ∨ a = PWR_BUSY ∨ a = PWR_STATE ∨ a = PWR_PAD_HELD ∨ aRingStat a) s t)

/-! ### Core voltage, PMBus and thermal (R432 to R437) -/

/-- A failing monitor raises the core voltage 10 mV at once; after 100 passes at the guard level it falls 5 mV; both within
the limits (R432). -/
def avsInterval (s : State) (f g : Bool) : Prop :=
  s.b PWR_AVS_CFG_en = true → s.pwr.avsDead = false → Calm s →
  s.f PWR_AVS_CFG_vmin * 5 ≤ s.f PWR_AVS_STATUS_vout → s.f PWR_AVS_STATUS_vout ≤ s.f PWR_AVS_CFG_vmax * 5 →
  s.f PWR_AVS_CFG_vmax ≤ 170 →
  Runs (.avsInterval f g [] []) s (fun t =>
    t.f PWR_AVS_STATUS_vout = (if f then min (s.f PWR_AVS_STATUS_vout + 10) (s.f PWR_AVS_CFG_vmax * 5)
      else if g = true ∧ 99 ≤ s.pwr.avsPass ∧ s.f THM_LEVEL_level = 0
      then max (s.f PWR_AVS_STATUS_vout - 5) (s.f PWR_AVS_CFG_vmin * 5) else s.f PWR_AVS_STATUS_vout) ∧
    t.now = (s.now / Config.ms + 1) * Config.ms ∧ Keeps (fun a => a = PWR_AVS_STATUS) s t)

/-- A command to the regulator that fails twice stops the control (R432). -/
def avsFails (s : State) : Prop :=
  s.b PWR_AVS_CFG_en = true → s.pwr.avsDead = false → s.b PWR_AVS_CFG_bus = true ∨ s.pwr.pmbBusy = none → Calm s → s.f PWR_AVS_STATUS_vout + 10 ≤ s.f PWR_AVS_CFG_vmax * 5 →
  s.f PWR_AVS_CFG_vmax ≤ 170 →
  Runs (.avsInterval true false [] [false, false]) s (fun t =>
    t.pwr.avsDead = true ∧ t.f PWR_AVS_STATUS_avs_fail = 1 ∧ Told 0x02 8 0 s t ∧ t.f ERR_LAST_id = 0x0202 ∧
    Keeps (fun a => a = PWR_AVS_STATUS ∨ a = ERR_LAST) s t)

/-- go starts the transaction that PMB_CMD and PMB_DATA describe, unless one runs (R433). -/
def pmbTransaction (s : State) (r : Requester) (v : Word) : Prop :=
  s.pwr.testHold = false → Writes (.pmbTransaction r v) r (fun a => a = PMB_STATUS) s (fun t =>
    if s.b PMB_STATUS_busy = true then t.f PMB_STATUS_bad_write = 1 ∧ t.pwr = s.pwr
    else t.f PMB_STATUS_busy = 1 ∧ t.pwr.pmbBusy = some (s.f PMB_CMD_cmd, s.f PMB_CMD_addr, s.f PMB_CMD_op, s.b PMB_CMD_pec, s.f PMB_DATA_data))

/-- The transaction ends: a NACK is flagged, and a PEC error on a read that checks it (R433). -/
def pmbDone (s : State) (x : PmbResult) (c a op : Nat) (pec : Bool) (w : Nat) : Prop :=
  s.pwr.pmbBusy = some (c, a, op, pec, w) → s.pwr.avsWait = none →
  Runs (.pmbDone x) s (fun t =>
    t.f PMB_STATUS_busy = 0 ∧ t.f PMB_STATUS_done = 1 ∧ t.pwr.pmbBusy = none ∧ Told 0x58 6 a s t ∧
    t.f PMB_STATUS_nack = (if x = .nack then 1 else s.f PMB_STATUS_nack) ∧
    t.f PMB_STATUS_pec_err = (if x = .pecError ∧ pec = true ∧ 2 ≤ op then 1 else s.f PMB_STATUS_pec_err) ∧
    Keeps (fun b => b = PMB_STATUS ∨ b = PMB_DATA) s t)

/-- A read leaves its byte or word in PMB_DATA; another transaction leaves it as it was (R433). -/
def pmbRead (s : State) (d : BitVec 16) (c a op : Nat) (pec : Bool) (w : Nat) : Prop :=
  s.pwr.pmbBusy = some (c, a, op, pec, w) → s.pwr.avsWait = none →
  Runs (.pmbDone (.ok d)) s (fun t =>
    t.f PMB_DATA_data = (if op = 2 then d.toNat % 256 else if op = 3 then d.toNat else s.f PMB_DATA_data) ∧
    Keeps (fun b => b = PMB_STATUS ∨ b = PMB_DATA) s t)

/-- A falling edge of PMB_ALERT_N is raised (R433). -/
def pmbAlert (s : State) : Prop :=
  Runs .pmbAlert s (fun t => Told 0x58 4 0 s t ∧ Keeps (fun _ => False) s t)

/-- The registers a reading may change: the thermal block's, the detection's, and the recorder's and the endpoint's of R442 and
R443. -/
abbrev thmShown (a : Nat) : Prop :=
  0x40101000 ≤ a ∧ a < 0x40101200 ∨ a = ERR_LAST ∨ a = RM_STATUS ∨ lockRel a

/-- With no clip recording, a slow round shows every sensor's reading, and with no sensor broken the highest as THM_MAX (R434, R435). -/
def thermalSlowRound (s : State) (l : List Int) (volts : List Nat) (ok : Bool) : Prop :=
  s.pwr.testHold = false → Calm s → s.awake = true → l.length = 16 → volts.length = 32 →
  (s.domOn dRM = true → ∀ k < 8, s.f (RM_STR_STATUS_state k) = 0) →
  Runs (.thermalSlowRound l volts ok) s (fun t =>
    s.thm.slowDue + 10 * Config.ms ≤ t.now ∧
    (∀ i ∈ List.range 16, t.f (THM_SENS_t i) = (l.getD i 0 % 65536).toNat) ∧
    (t.f THM_BROKEN_broken = 0 →
      t.f THM_MAX_t = ((List.range 16).foldl (fun m i => max m (l.getD i 0)) (l.getD 0 0) % 65536).toNat) ∧
    RegsBut thmShown s t ∧ MemBut (fun _ => False) s t)

/-- With no clip recording, a sensor near T1 is read every 250 µs (R435). -/
def thermalFastSample (s : State) (i u : Nat) (x : Int) : Prop :=
  s.pwr.testHold = false → i < 16 → Calm s → s.awake = true → look s.thm.fastDue i = some u →
  (s.domOn dRM = true → ∀ k < 8, s.f (RM_STR_STATUS_state k) = 0) →
  Runs (.thermalFastSample i x) s (fun t =>
    t.now = max s.now u ∧ t.f (THM_SENS_t i) = (x % 65536).toNat ∧ look t.thm.fastDue i = some (t.now + 250 * Config.us) ∧
    RegsBut thmShown s t ∧ MemBut (fun _ => False) s t)

/-- A broken sensor named is on trial again (R436). -/
def sensorReadmit (s : State) (r : Requester) (v : Word) : Prop :=
  s.pwr.testHold = false → Writes (.sensorReadmit r v) r (fun _ => False) s (fun t =>
    ∀ i ∈ List.range 16, t.sens i = if bitOf v.toNat i = true ∧ s.broken i = true
      then { s.sens i with readm := true, good := 0 } else s.sens i)

/-! ### Injection, rates and the fault log (R447 to R458) -/

/-- An arm is refused with its cause; one of a count and a mode arms the slot; a count of 0 is done at once (R447, R448). -/
def injArm (s : State) (r : Requester) (k : Nat) (v : Word) : Prop :=
  s.pwr.testHold = false → k < 4 →
  Writes (.injArm r k v) r (fun a => a = ERR_INJ_STATUS) s (fun t =>
    if armCause r k s ≠ 0
    then bitsOf (t.rd ERR_INJ_STATUS).toNat (8 + 4 * k + 3) (8 + 4 * k) = armCause r k s ∧ t.err = s.err
    else if s.f (ERR_INJ_CNT_count k) = 0 then t.err = s.err ∧ Told 0x04 3 k s t
    else s.f (ERR_INJ_CFG_mode k) = 1 ∨ s.f (ERR_INJ_CFG_mode k) = 2 →
      bitOf (t.f ERR_INJ_STATUS_armed) k = true ∧
      look t.err.slots k = some ⟨s.f (ERR_INJ_ID_id k), s.f (ERR_INJ_CFG_mode k), floor1 (s.f (ERR_INJ_CFG_n k)), 0, false⟩)

/-- A disarm of an armed slot is done (R447). -/
def injDisarm (s : State) (r : Requester) (k : Nat) (v : Word) : Prop :=
  s.pwr.testHold = false → k < 4 → bitOf (s.f ERR_INJ_STATUS_armed) k = true →
  Writes (.injDisarm r k v) r (fun a => a = ERR_INJ_STATUS) s (fun t =>
    bitOf (t.f ERR_INJ_STATUS_armed) k = false ∧ look t.err.slots k = none ∧ Told 0x04 3 k s t)

/-- An interval ends: each detector's count becomes the last interval's (R452). -/
def rateInterval (s : State) : Prop :=
  Calm s → (s.err.rates.map (·.1)).Nodup →
  Runs .rateInterval s (fun t =>
    s.err.lastTick + Config.ms ≤ t.now ∧
    (∀ e ∈ s.err.rates, (look t.err.rates e.1).map (fun x => (x.cur, x.prev)) = some (0, e.2.cur)) ∧
    Keeps (fun a => a = ERR_LAST) s t)

/-- A detector at its limit in two consecutive intervals, not yet judged, is judged lasting (R452). -/
def rateLasting (s : State) (d : Nat) (x : RateSt) : Prop :=
  Calm s → s.err.rates = [(d, x)] → d < 65536 → floor1 (s.f ERR_RATE_lim) ≤ x.cur → floor1 (s.f ERR_RATE_lim) ≤ x.prev → x.judged = false →
  Runs .rateInterval s (fun t =>
    t.f ERR_LAST_id = d ∧ t.f ERR_LAST_kind = 6 ∧ Told 0x04 2 d s t ∧ Told 0x04 0 d s t ∧
    t.err.pend.length = s.err.pend.length + 1 ∧ Keeps (fun a => a = ERR_LAST) s t)

/-- The oldest record waiting is written in the next place of the log, and nothing outside the log changes (R456, R457). -/
def faultLogWrite (s : State) (x : LogRec) (rest : List LogRec) : Prop :=
  s.err.pend = x :: rest → s.err.slots = [] →
  let h := (logHeader s).1
  let b := recBody (h.newest + 1) h.boots x
  Runs .faultLogWrite s (fun t =>
    t.err.pend.take rest.length = rest ∧
    t.peeks (Config.logBase + 0x1000 + h.newest % 8128 * 64) 64 = b ++ leBytes 4 (crc32 b) ∧
    RegsBut (fun a => a = ERR_LAST) s t ∧
    MemBut (fun a => Config.logBase ≤ a ∧ a < Config.logBase + 0x80 ∨
      Config.logBase + 0x1000 + h.newest % 8128 * 64 ≤ a ∧ a < Config.logBase + 0x1000 + h.newest % 8128 * 64 + 64) s t)

/-- sage and the monitor empty the log; another's clear is a bad write (R458). -/
def logClear (s : State) (r : Requester) (v : Word) : Prop :=
  s.pwr.testHold = false → Runs (.logClear r v) s (fun t =>
    Answered r 0 t ∧
    if r = .sage ∨ r = .monitor
    then t.peeks Config.logBase 64 = hdrBytes { seq := 1 } ∧ t.peeks (Config.logBase + 0x40) 64 = hdrBytes { seq := 2 } ∧
      RegsBut (fun _ => False) s t ∧ MemBut (fun a => Config.logBase ≤ a ∧ a < Config.logBase + 0x80) s t
    else t.f ERR_STATUS_bad_write = 1 ∧ Keeps (fun a => a = ERR_STATUS) s t)

/-! ### The Omesh monitor and the TAP (R462 to R468) -/

/-- The monitor takes a command, and the debug lock does not apply. -/
abbrev Open (s : State) : Prop := s.monReady = true ∧ s.dbgLocked = false

/-- The bytes from `a` are MRAM below the fault log, with no corrected read or fill outstanding. -/
abbrev inStore (a n : Nat) (s : State) : Prop :=
  Config.mramBase ≤ a ∧ a + n ≤ Config.logBase ∧ s.mc.fills = [] ∧ s.mc.reread = [] ∧ s.err.slots = []

/-- 0x55 at a rate in range sets the monitor's rate (R462). -/
def autobaud (s : State) (p : Nat) : Prop :=
  s.domOn dCTRL = true → s.b MON_UART_CFG_autobaud = true → 333334 ≤ p → p ≤ 104166666 →
  Runs (.autobaud p 0x55) s (fun t => t.f MON_UART_CFG_rate = 1000000000000 / p ∧ Keeps (fun a => a = MON_UART_CFG) s t)

/-- A line that is no command draws error 01 (R464). -/
def monitorSyntaxError (s : State) : Prop :=
  s.monReady = true →
  Runs .monitorSyntaxError s (fun t => t.mon.out = [.err 1 0] ∧ Keeps (fun _ => False) s t)

/-- While the debug lock applies, the commands it covers draw error 02 and nothing else (R467). -/
def monitorLocked (s : State) : Prop :=
  s.monReady = true → s.dbgLocked = true →
  ∀ i ∈ [Instr.monitorRead 0 1, Instr.monitorWriteWord 0 0, Instr.monitorDump 0 1, Instr.monitorFill 0 4 0, Instr.monitorCnt 0,
    Instr.monitorInj 0 0 none 1, Instr.monitorLog 1, Instr.monitorLogClear, Instr.monitorClk, Instr.monitorVote 0,
    Instr.monitorReadmit 0 0, Instr.bootRetry [] false, Instr.bootRecover 4096 [] [], Instr.monitorResetSoft, Instr.monitorResetHard],
  Runs (i) s (fun t => t.mon.out = [.err 2 0] ∧ Keeps (fun _ => False) s t)

/-- `r` of MRAM prints one line a word, and OK (R465). -/
def monitorRead (s : State) (a n : Nat) : Prop :=
  Open s → a % 4 = 0 → n ≤ 4096 → inStore a (4 * n) s →
  Runs (.monitorRead a n) s (fun t =>
    t.mon.out = (List.range n).map (fun i => .word (a + 4 * i) (BitVec.ofNat 32 (leNat (s.peeks (a + 4 * i) 4)))) ++ [.ok] ∧
    Keeps (fun _ => False) s t)

/-- An address that is no word's, or too many words, draw error 04 (R465). -/
def monitorReadForm (s : State) (a n : Nat) : Prop :=
  Open s → (a % 4 ≠ 0 ∨ 4096 < n) →
  Runs (.monitorRead a n) s (fun t => t.mon.out = [.err 4 0] ∧ Keeps (fun _ => False) s t)

/-- `w` of MRAM writes the word (R465). -/
def monitorWriteWord (s : State) (a : Nat) (v : Word) : Prop :=
  Open s → a % 4 = 0 → inStore a 4 s →
  Runs (.monitorWriteWord a v) s (fun t =>
    t.mon.out = [.ok] ∧ t.peeks a 4 = leBytes 4 v.toNat ∧ RegsBut (fun _ => False) s t ∧
    MemBut (fun b => a ≤ b ∧ b < a + 4) s t)

/-- `w` of a register is the monitor's register write, and raises MON_WRITE (R465). -/
def monitorWriteReg (s : State) (v : Word) : Prop :=
  Open s → s.unitOn dCTRL = true → s.cfg.start = none →
  Runs (.monitorWriteWord REF_PHASE v) s (fun t =>
    t.mon.out = [.ok] ∧ t.rd REF_PHASE = v ∧ Told 0x58 2 (REF_PHASE % 65536) s t ∧ Keeps (fun a => a = REF_PHASE) s t)

/-- `d` of MRAM prints its bytes in lines of 16, and OK (R465). -/
def monitorDump (s : State) (a n : Nat) : Prop :=
  Open s → a % 4 = 0 → n ≤ 65536 → inStore a (n + 3) s →
  Runs (.monitorDump a n) s (fun t =>
    t.mon.out = (List.range (ceilDiv n 16)).map (fun i => .dump (a + 16 * i) (s.peeks (a + 16 * i) (min 16 (n - 16 * i)))) ++ [.ok] ∧
    Keeps (fun _ => False) s t)

/-- `f` of MRAM writes every word (R465). -/
def monitorFill (s : State) (a n : Nat) (v : Word) : Prop :=
  Open s → a % 4 = 0 → n % 4 = 0 → n ≤ 16777216 → inStore a n s →
  Runs (.monitorFill a n v) s (fun t =>
    t.mon.out = [.ok] ∧ (∀ i ∈ List.range (n / 4), t.peeks (a + 4 * i) 4 = leBytes 4 v.toNat) ∧
    RegsBut (fun _ => False) s t ∧ MemBut (fun b => a ≤ b ∧ b < a + n) s t)

/-- `cnt` of MRAM prints the number in two words, and OK (R465). -/
def monitorCnt (s : State) (a : Nat) : Prop :=
  Open s → a % 4 = 0 → inStore a 8 s →
  Runs (.monitorCnt a) s (fun t => t.mon.out = [.num (leNat (s.peeks a 8)), .ok] ∧ Keeps (fun _ => False) s t)

/-- `inj` writes a slot's registers and arms it, whatever ERR_INJ_EN says (R448, R465). -/
def monitorInj (s : State) (k : Nat) (id : BitVec 16) (n : Option (BitVec 16)) (c : BitVec 16) : Prop :=
  k < 4 → Open s → s.cfg.start = none → isDetector id.toNat = true → detDomain id.toNat = none → bitOf (s.f ERR_INJ_STATUS_armed) k = false →
  look s.err.slots k = none → 0 < c.toNat →
  Runs (.monitorInj k id n c) s (fun t =>
    t.mon.out = [.ok] ∧ bitOf (t.f ERR_INJ_STATUS_armed) k = true ∧
    look t.err.slots k = some ⟨id.toNat, if n.isSome then 2 else 1, floor1 (n.getD 0).toNat, 0, false⟩ ∧
    t.f (ERR_INJ_CNT_count k) = c.toNat ∧
    Keeps (fun a => a = ERR_INJ_ID k ∨ a = ERR_INJ_CFG k ∨ a = ERR_INJ_CNT k ∨ a = ERR_INJ_STATUS) s t)

/-- `log` prints the newest valid records, newest first, and OK (R456, R465). -/
def monitorLog (s : State) (n : Nat) : Prop :=
  Open s → s.err.slots = [] →
  Runs (.monitorLog n) s (fun t =>
    t.mon.out = (logNewest s 8128 n (logHeader s).1.newest).map .record ++ [.ok] ∧ Keeps (fun a => a = ERR_LAST) s t)

/-- `log clear` empties the log (R458, R465). -/
def monitorLogClear (s : State) : Prop :=
  Open s → s.cfg.start = none →
  Runs .monitorLogClear s (fun t =>
    t.mon.out = [.ok] ∧ t.peeks Config.logBase 64 = hdrBytes { seq := 1 } ∧ RegsBut (fun _ => False) s t ∧
    MemBut (fun a => Config.logBase ≤ a ∧ a < Config.logBase + 0x80) s t)

/-- `clk` prints the clocks, the power state and the temperature (R465). -/
def monitorClk (s : State) : Prop :=
  Open s →
  Runs .monitorClk s (fun t =>
    t.mon.out = [.clk s.pwr.pllLocked (s.f REF_STATUS_state) (s.f PWR_STATE_state) (s.f PWR_STATUS_on) (s.f THM_MAX_t) (s.f THM_LEVEL_level), .ok] ∧
    Keeps (fun _ => False) s t)

/-- `vote` is the monitor's vote (R417, R465). -/
def monitorVote (s : State) (v : Word) : Prop :=
  Open s → s.cfg.start = none →
  Runs (.monitorVote v) s (fun t =>
    t.mon.out = [.ok] ∧ t.f (PWR_VOTE_vote 6) = (v.toNat % 2 ^ 31 &&& presentMask s.variant) ||| 1 ∧
    Keeps (fun a => a = PWR_VOTE 6 ∨ a = PWR_CFG_STATUS ∨ a = PWR_BUSY ∨ a = PWR_STATE) s t)

/-- `readmit` of a pip that can be readmitted starts its tests, and prints nothing until they end; of one out of range it
draws error 05 (R212, R465). -/
def monitorReadmit (s : State) (pod pip : Nat) : Prop :=
  Open s → s.cfg.start = none → s.domOn dFAB = true →
  Runs (.monitorReadmit pod pip) s (fun t =>
    if 128 ≤ pod ∨ 16 ≤ pip then t.mon.out = [.err 5 0] ∧ Keeps (fun _ => False) s t
    else if (t.pip ⟨pod, pip⟩).readmit ≠ 0 then t.mon.out = [] ∧ t.mon.readm = some (pod * 16 + pip)
    else t.mon.out = [.err 5 0])

/-- `boot retry` is a cold boot; a failure is printed with slot A's cause (R397, R465). -/
def bootRetry (s : State) (fails : List Nat) (z : Bool) : Prop :=
  Open s → s.mon.readm = none →
  Runs (.bootRetry fails z) s (fun t =>
    t = { (bootCold z fails s).2 with mon := t.mon } ∧
    if (bootCold z fails s).1 = true then t.mon.out = [.ok] else t.mon.out = [.err 5 (t.f CFG_BOOT_STATUS_cause_a)])

/-- `boot recover` takes its count in range, and stays ready for the bytes announced (R466). -/
def bootRecover (s : State) (n : Nat) (bs : List Byte) (fails : List Nat) : Prop :=
  Open s → bs.length < n →
  Runs (.bootRecover n bs fails) s (fun t =>
    if n < 4096 ∨ 33554432 < n then t.mon.out = [.err 4 0] ∧ Keeps (fun _ => False) s t
    else t.mon.out = [.ready] ∧ t.mon.recover = true)

/-- With every byte received it prints their CRC, and boots from them (R466). -/
def bootRecovered (s : State) (n : Nat) (bs : List Byte) (fails : List Nat) : Prop :=
  Open s → n = bs.length → 4096 ≤ n → n ≤ 33554432 →
  Runs (.bootRecover n bs fails) s (fun t =>
    t = { (bootSram fails (dmaPut 15 Config.sramBase bs { s with mon := { s.mon with readm := none } })).2 with mon := t.mon } ∧
    t.mon.out.take 2 = [.ready, .crc (crc32 bs)] ∧ t.pwr.bootDue = false ∧
    (t.mon.out.drop 2 = [.ok] ∨ t.mon.out.drop 2 = [.err 5 (t.f CFG_BOOT_STATUS_cause_a)]))

/-- More than 1 s without a byte ends the transfer with error 06 (R466). -/
def recoverTimeout (s : State) : Prop :=
  s.domOn dCTRL = true → s.mon.recover = true → Calm s →
  Runs .recoverTimeout s (fun t =>
    t.mon.out = [.err 6 0] ∧ t.mon.recover = false ∧ t.now = s.now + 1000 * Config.ms ∧ Keeps (fun _ => False) s t)

/-- `reset soft` starts a soft reset, and prints no final line (R428, R464). -/
def monitorResetSoft (s : State) : Prop :=
  Open s → s.cfg.start = none → s.pwr.step = .none →
  Runs .monitorResetSoft s (fun t =>
    t.mon.out = [] ∧ t.pwr.step = .quiesce ∧ t.pwr.soft = true ∧
    RegsBut (fun a => (clsOf s.variant a).any (fun c => c.1 == .d) = true ∨ aRingStat a) s t ∧
    ((List.range 4).all (fun n => !s.audActive n) = true → MemBut (fun _ => False) s t))

/-- `reset hard` is a hard reset with cause bit 6 (R427, R464). -/
def monitorResetHard (s : State) : Prop :=
  Open s → s.cfg.start = none → s.err.slots = [] →
  Runs .monitorResetHard s (fun t =>
    t.mon.out = [] ∧ bitOf (t.f PWR_RST_CAUSE_cause) 6 = true ∧ t.pwr.bootDue = true ∧ t.pwr.bootWarm = false ∧
    RegsBut (fun a => (clsOf s.variant a).any (fun c => c.1 == .p) = false ∨ a = PWR_RST_CAUSE) s t ∧
    MemBut (fun a => (inMram a || inSram a) = false ∨ Config.logBase ≤ a) s t)

/-- `challenge` prints a fresh nonce (R467). -/
def challenge (s : State) (n : BitVec 256) : Prop :=
  s.monReady = true →
  Runs (.challenge n) s (fun t => t.mon.out = [.nonce n, .ok] ∧ t.mon.nonce = some n ∧ Keeps (fun _ => False) s t)

/-- `unlock` with a signature of the nonce under the key of OTP opens the lock; else the failure counts; after three the
monitor refuses (R467). -/
def unlock (s : State) (key sig : List Byte) : Prop :=
  key.length = 96 → sig.length = 96 → s.monReady = true →
  Runs (.unlock key sig) s (fun t =>
    Keeps (fun a => a = MON_DBG_STATUS) s t ∧
    if 3 ≤ s.f MON_DBG_STATUS_fails then t.mon.out = [.err 2 0] ∧ t.rd MON_DBG_STATUS = s.rd MON_DBG_STATUS
    else t.mon.nonce = none ∧
      (s.unlockOk key sig = true → t.mon.out = [.ok] ∧ t.b MON_DBG_STATUS_unlocked = true ∧ t.dbgLocked = false ∧ Told 0x58 0 0 s t) ∧
      (s.unlockOk key sig = false → t.mon.out = [.err 5 0] ∧ t.f MON_DBG_STATUS_fails = s.f MON_DBG_STATUS_fails + 1 ∧
        Told 0x58 1 (s.f MON_DBG_STATUS_fails + 1) s t))

/-- `help` prints the commands (R465). -/
def help (s : State) : Prop :=
  s.monReady = true → Runs .help s (fun t => t.mon.out = [.help, .ok] ∧ Keeps (fun _ => False) s t)

/-- BYPASS captures one 0 bit (R468). -/
def bypass (s : State) : Prop :=
  Runs .bypass s (fun t => t.mon.jtag.out = [false] ∧ Keeps (fun _ => False) s t)

/-- IDCODE is 32 bits, and starts with a 1 (R468, R496). -/
def idcode (s : State) : Prop :=
  Runs .idcode s (fun t =>
    t.mon.jtag.out = (List.range 32).map (bitOf (0x10000000 + Config.part s.variant * 0x1000 + 0x3AE * 2 + 1)) ∧
    t.mon.jtag.out.head? = some true ∧ Keeps (fun _ => False) s t)

/-- SAMPLE_PRELOAD captures the pins and preloads an image; EXTEST drives it; DEBUG reaches the debug module; the debug
lock blocks the three (R468). -/
def samplePreload (s : State) (p i : List Bool) : Prop :=
  Runs (.samplePreload p i) s (fun t =>
    t.mon.jtag = (if s.dbgLocked then s.mon.jtag else { out := p, preload := i, drive := none, debug := false }) ∧ Keeps (fun _ => False) s t)

/-- EXTEST drives the image (R468). -/
def extest (s : State) : Prop :=
  Runs .extest s (fun t =>
    t.mon.jtag.drive = (if s.dbgLocked then s.mon.jtag.drive else some s.mon.jtag.preload) ∧ Keeps (fun _ => False) s t)

/-- DEBUG reaches the debug module (R468). -/
def jtagDebug (s : State) : Prop :=
  Runs .jtagDebug s (fun t =>
    t.mon.jtag.debug = (if s.dbgLocked then s.mon.jtag.debug else true) ∧ Keeps (fun _ => False) s t)

/-! ### Rules of one sentence or two -/

/-- The destination set is the first enabled override's that matches, in ascending order; with none, the block's route. -/
def routes (s : State) (id k : Nat) : Prop :=
  (k < 64 → s.b (EVR_OVR_en k) = true → s.f (EVR_OVR_event_id k) = id →
    (∀ j ∈ List.range k, ¬ (s.b (EVR_OVR_en j) = true ∧ s.f (EVR_OVR_event_id j) = id)) → s.destOf id = s.f (EVR_OVR_dest k)) ∧
  ((∀ j ∈ List.range 64, ¬ (s.b (EVR_OVR_en j) = true ∧ s.f (EVR_OVR_event_id j) = id)) →
    s.destOf id = s.f (EVR_ROUTE_dest (id / 256)))

/-- The register is of the unit that writes ring `g`, or, of the video encoder, shows the state of a ring. -/
abbrev ofRingUnit (g : RingId) (a : Nat) : Bool := match g with
  | .tap n _ | .branch n _ => decide (ofPipe n a)
  | .prc n => decide (PRC_CTRL n ≤ a ∧ a < PRC_CTRL n + 0x1000)
  | .enc _ => decide (inHvc a ∨ aRingStat a)

/-- A frame start on a ring of zero buffers takes no buffer and counts no frame. -/
def zeroRing (s : State) (g : RingId) : Prop :=
  g.wf = true → s.ringBufs g = 0 → s.mc.fills = [] → s.mc.reread = [] → s.err.slots = [] →
  Runs (.producerFrameStart g) s (fun t =>
    (t.ring g).writing = (s.ring g).writing ∧ t.rd (ringRegs g).prodLo = s.rd (ringRegs g).prodLo ∧
    t.rd (ringRegs g).prodHi = s.rd (ringRegs g).prodHi ∧ t.rd (ringRegs g).dropLo = s.rd (ringRegs g).dropLo ∧
    t.rd (ringRegs g).dropHi = s.rd (ringRegs g).dropHi ∧
    Keeps (fun a => ofRingUnit g a = true) s t)

/-- A detach releases all the consumer held at once: a buffer is held afterwards exactly if another consumer held it, and
the one being written, the producer's place and every counter stay. -/
def detachKeeps (s : State) (g : RingId) (k : ConsumerId) : Prop :=
  g.wf = true → s.unitOn (ringDom g) = true → (s.ring g).cons.any (fun x => x.id == k) = true →
  Runs (.consumerDetach g k) s (fun t =>
    t.heldBy g k = [] ∧
    (∀ b ∈ List.range (s.ringBufs g), (t.ring g).holds b = (s.ring g).cons.any (fun x => x.id != k && x.held.contains b)) ∧
    (t.ring g).writing = (s.ring g).writing ∧ (t.ring g).next = (s.ring g).next ∧ t.ringBufs g = s.ringBufs g ∧
    Keeps (fun a => a = (ringRegs g).stat) s t)

/-- Under INTERNAL and GENLOCK a tick adds exactly 1 to the RFN, if firmware has not set another. -/
def rfnByOne (s : State) (ideal : Rat) : Prop :=
  s.domOn dCTRL = true → s.b REF_CTRL_en = true → s.f REF_CTRL_src < 2 → s.ref.next = some ideal → s.ref.setRfn = none →
  s.nominal.isSome = true → Calm s →
  Runs .refTick s (fun t => t.f REF_RFN_rfn = (s.f REF_RFN_rfn + 1) % 2 ^ 32 ∧
    Keeps (fun a => a = REF_RFN ∨ a = REF_PERIOD ∨ a = REF_STATUS ∨ (List.range 4).any (fun c => a == PFI_PH_EXTRA c) = true) s t)

/-- With fewer than 8 valid sensors the level is T1 at least, with none T2 at least, and no OTP word is programmed; the
lack is raised once. -/
def fewSensors (s : State) (w : Nat) : Prop :=
  s.validSensors < 8 →
  1 ≤ s.levelNow ∧ (s.validSensors = 0 → 2 ≤ s.levelNow) ∧ s.otpCause w = 1 ∧
  (s.thm.lowTold = false → (sensMax s).thm.lowTold = true ∧ Told 0x03 2 s.validSensors s (sensMax s))

/-- The identification code's bits 11 to 1, and its bit 0. -/
def maker (s : State) : Prop :=
  Runs .idcode s (fun t => t.mon.jtag.out.length = 32 ∧
    t.mon.jtag.out.take 12 = true :: (List.range 11).map (bitOf 0x3AE) ∧ Keeps (fun _ => False) s t)

/-- An access outside every window, of an absent unit, or of a form its target does not accept draws an error response,
counted and recorded with its cause, and changes nothing else. -/
def accessCounted (s : State) (r : Requester) (a width : Nat) (write : Bool) : Prop :=
  s.pwr.testHold = false → Config.regBase ≤ a → a < Config.regEnd →
  ((windowAt s.variant a).any (fun h => h.present) = false ∨ formOk a width = false) →
  Runs (.accessError r a width write) s (fun t =>
    Refused r t ∧ t.rd SYS_ACC_ERR = s.rd SYS_ACC_ERR + 1 ∧
    t.f SYS_ACC_ERR_LAST_offset = (a - Config.regBase) / 4 % 2 ^ 28 ∧
    t.f SYS_ACC_ERR_LAST_cause = (if (windowAt s.variant a).isNone then 0
      else if (windowAt s.variant a).any (fun h => h.present) = false then 1 else 2) ∧
    Keeps (fun x => x = SYS_ACC_ERR ∨ x = SYS_ACC_ERR_LAST) s t)

/-- An access outside register space that no memory answers draws an error response and is not counted. -/
def memoryUncounted (s : State) (r : Requester) (a n : Nat) (w : Option (List Byte)) : Prop :=
  0 < n → w.all (fun bs => bs.length == n) = true → s.mc.fills = [] → s.mc.reread = [] →
  (s.busAddr r a n).all (fun b => !(Config.regBase ≤ b && b < Config.regEnd) && !s.memAnswers b n w.isSome) = true →
  Runs (.memoryAccess r a n w .clean) s (fun t => Refused r t ∧ Keeps (fun _ => False) s t)

/-- In a window of an always-on block, or of a domain that is on, an access of 32 bits aligned to 4 bytes is answered, and
so is an aligned one of 8, 16 or 32 bits in the mailbox; any other draws an error response. -/
def accessForm (s : State) (r : Requester) (a n : Nat) : Prop :=
  s.pwr.testHold = false → Config.regBase ≤ a → a < Config.regEnd → 0 < n → (windowAt s.variant a).any (fun h => h.present && h.dom.all s.domOn) = true →
  Runs (.memoryAccess r a n none .clean) s (fun t =>
    ((lookD t.bus {} (reqNo r)).err = false ↔
      (n = 4 ∧ a % 4 = 0 ∨ (0x47404000 ≤ a ∧ a < 0x47405000 ∧ (n = 1 ∨ n = 2 ∧ a % 2 = 0)))) ∧
    Keeps (fun x => x = SYS_ACC_ERR ∨ x = SYS_ACC_ERR_LAST ∨ x / 256 = a / 256) s t)

/-- A write of any other width or alignment changes nothing but the record of the error. -/
def writeForm (s : State) (r : Requester) (a n : Nat) (bs : List Byte) : Prop :=
  Config.regBase ≤ a → a < Config.regEnd → 0 < n → bs.length = n → formOk a n = false →
  Runs (.memoryAccess r a n (some bs) .clean) s (fun t =>
    Refused r t ∧ Keeps (fun x => x = SYS_ACC_ERR ∨ x = SYS_ACC_ERR_LAST) s t)

/-- An aligned write of 8, 16 or 32 bits in the mailbox stores its bytes there. -/
def mailboxWrite (s : State) (r : Requester) (a n : Nat) (bs : List Byte) : Prop :=
  inMailbox a = true → formOk a n = true → bs.length = n → s.domOn dCTRL = true →
  Runs (.memoryAccess r a n (some bs) .clean) s (fun t =>
    Answered r 0 t ∧ (List.range n).map (fun i => t.mboxByte (a - 0x47404000 + i)) = bs ∧ Keeps (fun _ => False) s t)

/-- A read at an offset of a window that holds no register reads 0, and a write there is ignored; neither draws an error
response. -/
def noRegister (s : State) (r : Requester) (a : Nat) (v : Word) : Prop :=
  s.pwr.testHold = false → a % 4 = 0 → inMailbox a = false → (windowAt s.variant a).any (fun h => h.present && h.dom.all s.domOn && (rowAt h).isNone) = true →
  s.cfg.start = none →
  Runs (.rcRead r a) s (fun t => Answered r 0 t ∧ Keeps (fun _ => False) s t) ∧
  Runs (.registerWrite r a v) s (fun t => Answered r 0 t ∧ Keeps (fun _ => False) s t)

end Sys2Proof.Claims

open Sys2Proof Sys2Proof.Machine

/-- With a command at the front of the queue, the step is that command's exec on the state with the queue's rest. With none waiting, time goes on to the next BCLK edge, which is the model's choice (log 3). -/
def Obligations.StepRunsFrontCommand : Prop :=
  (∀ (s : State) (c : Instr) (rest : List Instr), step { s with pending := c :: rest } = exec c { s with pending := rest }) ∧
  (∀ s : State, s.pending = [] → step s = .next (advanceTo ((s.now / Config.bclk + 1) * Config.bclk) s))

/-- Every command whose operands lie in the ranges its rule gives them answers a next state, in every state. One whose operands lie outside is refused as ill-formed, which is the model's form of a command that cannot exist (log 4); so is a PICTURE_DONE that says the encoder coded what it cannot have coded for the picture in progress. -/
def Obligations.WellFormedCommandsComplete : Prop :=
  ∀ (i : Instr) (s : State),
    (i.wf = true → (∀ p x, i = .pictureDone p → s.hvc.cur = some x → codedOk x p = true) → ∃ t, exec i s = .next t) ∧
    (i.wf = false → exec i s = .refused .illFormed) ∧
    (∀ p x, i = .pictureDone p → s.hvc.cur = some x → codedOk x p = false → exec i s = .refused .illFormed)

/-- After power-on CTRL alone is on and every present domain is voted for by core 0, the device reads Run, the reset cause is power-on, the watchdog is off, the thresholds are 110 and 118 degrees with a hysteresis of 5, no event is enabled, no injection armed, the monitor's rate is 115,200 baud with autobaud on, the identity register names the variant (the UMB9480 is the model's choice, log 1), every register reads its table's reset value, no command waits, and a cold boot is due. -/
def Obligations.ResetHoldsTheSpecsValues : Prop :=
  State.reset.f PWR_STATUS_on = 1 ∧ State.reset.f (PWR_VOTE_vote 0) = 0x7FFFFFFF ∧ State.reset.f PWR_STATE_state = 0 ∧
  State.reset.f PWR_RST_CAUSE_cause = 1 ∧ State.reset.b PWR_WDT_CFG_en = false ∧ State.reset.f THM_THR_t1 = 110 * 16 ∧
  State.reset.f THM_THR_t2 = 118 * 16 ∧ State.reset.f THM_THR_hyst = 5 * 16 ∧ State.reset.rd PWR_EVT_EN = 0 ∧
  State.reset.rd ERR_EVT_EN = 0 ∧ State.reset.rd MON_EVT_EN = 0 ∧ State.reset.rd CFG_EVT_EN = 0 ∧ State.reset.f ERR_INJ_STATUS_armed = 0 ∧
  State.reset.f MON_UART_CFG_rate = 115200 ∧ State.reset.b MON_UART_CFG_autobaud = true ∧ State.reset.rd SYS_ID = 0x19480000 ∧
  (∀ a, State.reset.rd a = resetWord .umb9480 a) ∧ State.reset.pending = [] ∧ State.reset.pwr.bootDue = true ∧
  State.reset.pwr.bootWarm = false

/-- At reset memory is in its canonical form: addresses strictly rise and no listed byte equals what an unlisted one reads as (log 2). -/
def Obligations.ResetIsSafe : Prop := State.reset.Safe

/-- From every state whose memory is in its canonical form, a step that goes on leaves memory in its canonical form, whatever the command, so that equal memories are equal data. -/
def Obligations.MemoryStaysCanonical : Prop := ∀ s t : State, s.Safe → step s = .next t → t.Safe

/-- A step that goes on leaves the queue without its front command and otherwise as it was, keeps the variant, and leaves the instant no earlier and the count of free values no smaller. -/
def Obligations.StepsKeepQueueAndTime : Prop :=
  ∀ s t : State, step s = .next t →
    t.pending = s.pending.tail ∧ t.variant = s.variant ∧ s.now ≤ t.now ∧ s.fresh ≤ t.fresh

/-- No command, reset and power-off among them, clears a bit of an OTP word: a step that goes on leaves every 1 of every word at 1. -/
def Obligations.OtpOnlyGainsBits : Prop :=
  ∀ (s t : State) (w : Nat), step s = .next t → s.otp w &&& t.otp w = s.otp w

/-- A register access by each access code: RW, RO, W1C, RC, and the latch of a low half. -/
def Obligations.RegisterAccessCodes : Prop :=
  (∀ s r v, Claims.writeRW s r v) ∧
  (∀ s r v, Claims.writeRO s r v) ∧
  (∀ s r v, Claims.writeW1C s r v) ∧
  (∀ s r n, Claims.readRC s r n) ∧
  (∀ s r, Claims.readLatch s r)

/-- Accesses that draw error responses are counted and recorded, by their cause; memory ones are not. -/
def Obligations.RefusedAccessesCounted : Prop :=
  (∀ s r a width write, Claims.accessError s r a width write) ∧
  (∀ s r a width write, Claims.accessCounted s r a width write) ∧
  (∀ s r a n w, Claims.memoryUncounted s r a n w) ∧
  (∀ s r a d, Claims.offDomainRefused s r a d)

/-- Reads and writes of MRAM, and the access that powers a domain up. -/
def Obligations.MemoryAndWakingAccesses : Prop :=
  (∀ s a bs, Claims.memWrite s a bs) ∧
  (∀ s a n, Claims.memRead s a n) ∧
  (∀ s r a d, Claims.offDomainWakes s r a d)

/-- Offers, releases and detaches of ring buffers, geometry writes, and the encoder at work. -/
def Obligations.RingsAndBuffers : Prop :=
  (∀ s c i x b, Claims.offer s c i x b) ∧
  (∀ s g k b, Claims.release s g k b) ∧
  (∀ s g k, Claims.detach s g k) ∧
  (∀ s r c v, Claims.geometry s r c v) ∧
  (∀ s r c v, Claims.bufs s r c v) ∧
  (∀ s c, Claims.encBusy s c)

/-- The root PLL locks or fails; the oldest event is written to its queue or dropped; the queue registers keep their rules. -/
def Obligations.ClocksAndEvents : Prop :=
  (∀ s, Claims.pllLocks s) ∧
  (∀ s, Claims.referenceLost s) ∧
  (∀ s e rest d, Claims.eventRouted s e rest d) ∧
  (∀ s e rest d, Claims.eventDropped s e rest d) ∧
  (∀ s r d v, Claims.qbase s r d v) ∧
  (∀ s r d v, Claims.qsize s r d v) ∧
  (∀ s r d v, Claims.qhead s r d v)

/-- The destination set of an event. -/
def Obligations.EventDestinationChoice : Prop :=
  (∀ s id k, Claims.routes s id k)

/-- Enabling, rates, RFN, ticks and reference edges of REF. -/
def Obligations.ReferenceGenerator : Prop :=
  (∀ s r v, Claims.refEnable s r v) ∧
  (∀ s r v, Claims.refReserved s r v) ∧
  (∀ s r v, Claims.refDisable s r v) ∧
  (∀ s r den v, Claims.refRate s r den v) ∧
  (∀ s r v, Claims.refRfn s r v) ∧
  (∀ s ideal p, Claims.refTick s ideal p) ∧
  (∀ s a p f, Claims.refEdge s a p f) ∧
  (∀ s w, Claims.refEdgeTimeout s w)

/-- Under INTERNAL and GENLOCK, RFN increases by exactly 1 at each tick. -/
def Obligations.RfnRisesByOne : Prop :=
  (∀ s ideal, Claims.rfnByOne s ideal)

/-- Trigger pulses, and the time unit's increment, set, step and seconds. -/
def Obligations.TriggersAndTimeUnit : Prop :=
  (∀ s n p rest, Claims.trigStart s n p rest) ∧
  (∀ s n p, Claims.trigEnd s n p) ∧
  (∀ s r v, Claims.tsuIncr s r v) ∧
  (∀ s r v, Claims.tsuSet s r v) ∧
  (∀ s r v, Claims.tsuStep s r v) ∧
  (∀ s, Claims.tsuSecond s) ∧
  (∀ s, Claims.tsuParityError s)

/-- Sets of sensor writes are queued, closed and sent, and a map command is sent. -/
def Obligations.SettingsSequencer : Prop :=
  (∀ s r n v, Claims.setPush s r n v) ∧
  (∀ s r n v, Claims.setClose s r n v) ∧
  (∀ s n x, Claims.setWriteSend s n x) ∧
  (∀ s n x q, Claims.setLastWrite s n x q) ∧
  (∀ s n x, Claims.mapCmdSend s n x)

/-- Transfers of the sensor bus, direct commands and in-band interrupts. -/
def Obligations.SensorBus : Prop :=
  (∀ s n x, Claims.busTransferStart s n x) ∧
  (∀ s n x b, Claims.busNack s n x b) ∧
  (∀ s n x nack b, Claims.busDirect s n x nack b) ∧
  (∀ s r n v, Claims.dirRead s r n v) ∧
  (∀ s r n v, Claims.dirWrite s r n v) ∧
  (∀ s n b, Claims.ibi s n b)

/-- A commit captures a set, its capture and its loads end, and a frame enters the pipeline. -/
def Obligations.CommitsAndTableLoads : Prop :=
  (∀ s r n v, Claims.commit s r n v) ∧
  (∀ s n, Claims.commitCaptureDone s n) ∧
  (∀ s n i g, Claims.tableLoadDone s n i g) ∧
  (∀ s n i d fm fv k rest, Claims.frameEnterUnpack s n i d fm fv k rest)

/-- Blocks, alignment columns, deskew and lane judgement. -/
def Obligations.JavelBlocksAndAlignment : Prop :=
  (∀ s n k h p, Claims.blockReceived s n k h p) ∧
  (∀ s n k p, Claims.blockSlips s n k p) ∧
  (∀ s n seen q, Claims.alignFirst s n seen q) ∧
  (∀ s n q g w, Claims.deskewWindowEnd s n q g w) ∧
  (∀ s n col b, Claims.unknownControlBlock s n col b) ∧
  (∀ s n k, Claims.laneJudgeInterval s n k)

/-- The receiver's enable and rate, lane-map changes, re-adaptation, re-admission and the lane tests. -/
def Obligations.JavelMapsRatesAndLanes : Prop :=
  (∀ s r n v k, Claims.jvEnable s r n v k) ∧
  (∀ s r n v, Claims.jvRateWrite s r n v) ∧
  (∀ s n k c d, Claims.rateSwitch s n k c d) ∧
  (∀ s r n v, Claims.jvChgGo s r n v) ∧
  (∀ s n c, Claims.mapTimeout s n c) ∧
  (∀ s r n k, Claims.laneReadapt s r n k) ∧
  (∀ s r n k, Claims.laneReadmit s r n k) ∧
  (∀ s r n k, Claims.prbsCntClr s r n k) ∧
  (∀ s r n k v, Claims.marginGo s r n k v) ∧
  (∀ s n k d bad, Claims.marginDone s n k d bad) ∧
  (∀ s n k d q b, Claims.prbsCheck s n k d q b)

/-- Enable, run and stop of a port, its frame size, sensor clock and sync input. -/
def Obligations.PortControl : Prop :=
  (∀ s r n v, Claims.portEnable s r n v) ∧
  (∀ s r n v, Claims.portDisable s r n v) ∧
  (∀ s r n v, Claims.portRun s r n v) ∧
  (∀ s r n v, Claims.portStop s r n v) ∧
  (∀ s r n v, Claims.xclkEnable s r n v) ∧
  (∀ s r n v, Claims.frameSizeWrite s r n v) ∧
  (∀ s r n v, Claims.xclkCfgWrite s r n v) ∧
  (∀ s n a up, Claims.syncEdge s n a up)

/-- Frames and lines received over Javel. -/
def Obligations.JavelFrames : Prop :=
  (∀ s n a col b, Claims.sofReceived s n a col b) ∧
  (∀ s n a col b f, Claims.eofReceived s n a col b f) ∧
  (∀ s n a l b f y dtype len, Claims.lineReceived s n a l b f y dtype len) ∧
  (∀ s n a l, Claims.lineStray s n a l)

/-- Frames and packets received over CSI-2, row timeout, and the verdict of a sync group. -/
def Obligations.CsiFramesAndGroups : Prop :=
  (∀ s n f, Claims.rowTimeout s n f) ∧
  (∀ s g rfn k, Claims.groupVerdict s g rfn k) ∧
  (∀ s n a vc c, Claims.csiFrameStart s n a vc c) ∧
  (∀ s n a vc f, Claims.csiFrameEnd s n a vc f) ∧
  (∀ s n a k, Claims.csiBadHeader s n a k) ∧
  (∀ s n a k f, Claims.csiLongPacket s n a k f) ∧
  (∀ s n vc c, Claims.csiLineStart s n vc c)

/-- Line triggers, their row timeout and the strips of strip-scan. -/
def Obligations.StripScan : Prop :=
  (∀ s n a up, Claims.lineTrigger s n a up) ∧
  (∀ s n p l, Claims.ssRowTimeout s n p l) ∧
  (∀ s n x rest, Claims.outputLineComplete s n x rest)

/-- Rows through a pipeline, its tables, statistics and taps. -/
def Obligations.PipelineRowsAndOutputs : Prop :=
  (∀ s n data filled fr, Claims.rowEnterPipeline s n data filled fr) ∧
  (∀ s r n v, Claims.calClear s r n v) ∧
  (∀ s n, Claims.tableReload s n) ∧
  (∀ s n k a fr, Claims.statsReady s n k a fr) ∧
  (∀ s n k a b fr, Claims.lumaReady s n k a b fr) ∧
  (∀ s n p b fr, Claims.tapStart s n p b fr) ∧
  (∀ s n p b fr, Claims.branchStart s n p b fr) ∧
  (∀ s n p b fr, Claims.tapOffer s n p b fr) ∧
  (∀ s n p, Claims.tapOfferOther s n p)

/-- The instructions of a pip: vector, compare, table, scalar, branch and memory operations, and its end. -/
def Obligations.PipInstructions : Prop :=
  (∀ s u r b w, Claims.vecIssue s u r b w) ∧
  (∀ s u r b w, Claims.cmpIssue s u r b w) ∧
  (∀ s u r b w, Claims.vnopIssue s u r b w) ∧
  (∀ s u r b w, Claims.lutIssue s u r b w) ∧
  (∀ s u r b w, Claims.scalarIssue s u r b w) ∧
  (∀ s u r b w, Claims.vputIssue s u r b w) ∧
  (∀ s u r b w, Claims.nopIssue s u r b w) ∧
  (∀ s u r b w, Claims.branchIssue s u r b w) ∧
  (∀ s u r b w a, Claims.ldwStw s u r b w a) ∧
  (∀ s u r b w a, Claims.vldVst s u r b w a) ∧
  (∀ s u r b w k fr, Claims.pipEnd s u r b w k fr) ∧
  (∀ s u r b w, Claims.pipFenced s u r b w)

/-- Tiles, packages, tests and retirement of pips. -/
def Obligations.PipTilesAndTests : Prop :=
  (∀ s j p q k fr u, Claims.tileDispatch s j p q k fr u) ∧
  (∀ s j p rest, Claims.packageLoad s j p rest) ∧
  (∀ s j p, Claims.packageLoadDone s j p) ∧
  (∀ s u, Claims.signatureTest s u) ∧
  (∀ s u k, Claims.signatureTestDone s u k) ∧
  (∀ s u, Claims.signatureTestPass s u) ∧
  (∀ s u r, Claims.tileWatchdog s u r) ∧
  (∀ s p, Claims.podMemoryReload s p) ∧
  (∀ s r v u, Claims.pipReadmit s r v u) ∧
  (∀ s u pass, Claims.readmitTest s u pass)

/-- The Photre encoder's enable, apply, frames and slabs, and the decoder's jobs. -/
def Obligations.PhotreCodec : Prop :=
  (∀ s r n v, Claims.prcEnable s r n v) ∧
  (∀ s r n v a, Claims.prcApply s r n v a) ∧
  (∀ s n b d, Claims.prcFrameStart s n b d) ∧
  (∀ s n b d, Claims.prcRingStart s n b d) ∧
  (∀ s n c d, Claims.slabCoded s n c d) ∧
  (∀ s n c d, Claims.prcFrameDone s n c d) ∧
  (∀ s r v, Claims.prdGo s r v) ∧
  (∀ s job, Claims.prdJobDone s job)

/-- The H.265 encoder's settings, references and pictures. -/
def Obligations.VideoEncoder : Prop :=
  (∀ s r c v a, Claims.encApply s r c v a) ∧
  (∀ s r c v, Claims.encApplyNow s r c v) ∧
  (∀ s r c v, Claims.idrRequest s r c v) ∧
  (∀ s r c v, Claims.ltMark s r c v) ∧
  (∀ s r c v, Claims.ltDrop s r c v) ∧
  (∀ s c b w g d, Claims.pictureStart s c b w g d) ∧
  (∀ s c b w g d, Claims.encRingStart s c b w g d) ∧
  (∀ s x p b, Claims.pictureDone s x p b)

/-- The H.265 decoder's queue, jobs, watchdog and picture buffers. -/
def Obligations.VideoDecoder : Prop :=
  (∀ s r v, Claims.decSubmit s r v) ∧
  (∀ s, Claims.decJobStart s) ∧
  (∀ s j u, Claims.decJobDone s j u) ∧
  (∀ s j u ctb e, Claims.decCtbWatchdog s j u ctb e) ∧
  (∀ s r d v, Claims.dpbRelease s r d v)

/-- Jobs of the pack engine. -/
def Obligations.PackEngine : Prop :=
  (∀ s r c v, Claims.pkeGo s r c v) ∧
  (∀ s c j p, Claims.pkeBlock s c j p) ∧
  (∀ s r c v j, Claims.pkeResume s r c v j) ∧
  (∀ s r c v, Claims.pkeAbort s r c v)

/-- The memory map, its singular sets, requests and their errors. -/
def Obligations.MemoryMapAndRequests : Prop :=
  (∀ s r v, Claims.memMapApply s r v) ∧
  (∀ s ch bk, Claims.singularSet s ch bk) ∧
  (∀ s r v, Claims.memEnable s r v) ∧
  (∀ s q off, Claims.dramRequest s q off) ∧
  (∀ s q, Claims.dramRefused s q) ∧
  (∀ s q off, Claims.dramSingle s q off) ∧
  (∀ s q off m, Claims.dramMulti s q off m) ∧
  (∀ s a off m b inj, Claims.eccReread s a off m b inj)

/-- ECC regions, refresh, readings, training and tracking of DRAM. -/
def Obligations.MemoryUpkeep : Prop :=
  (∀ s r k v, Claims.eccRegionEnable s r k v) ∧
  (∀ s k b d, Claims.eccFillDone s k b d) ∧
  (∀ s m ch, Claims.refreshInterval s m ch) ∧
  (∀ s m ch, Claims.perBankRefresh s m ch) ∧
  (∀ s m codes, Claims.mr4Read s m codes) ∧
  (∀ s r m v, Claims.trainGo s r m v) ∧
  (∀ s m ch first retry, Claims.trainDone s m ch first retry) ∧
  (∀ s m ch first retry, Claims.trackingUpdate s m ch first retry)

/-- Members of the record medium: attach, detach, commands, loss and return. The places of fields in the allocation mirror are the model's (log 30). -/
def Obligations.RecordMembers : Prop :=
  (∀ s r m v, Claims.memberAttach s r m v) ∧
  (∀ s r m v, Claims.memberDetach s r m v) ∧
  (∀ s r m v, Claims.memberReadmit s r m v) ∧
  (∀ s m x, Claims.attachComplete s m x) ∧
  (∀ s m cid c k no b n cells, Claims.nvmeCompletion s m cid c k no b n cells) ∧
  (∀ s m cid ok c, Claims.nvmeFenced s m cid ok c) ∧
  (∀ s m cid c, Claims.nvmeRetried s m cid c) ∧
  (∀ s m cid c, Claims.nvmeTimeout s m cid c) ∧
  (∀ s m cid c, Claims.memberDies s m cid c) ∧
  (∀ s m, Claims.rootPortLinkDown s m) ∧
  (∀ s m v x l sp, Claims.spareTakesOver s m v x l sp) ∧
  (∀ s m sp w, Claims.memberLinkReturn s m sp w)

/-- Volumes are formatted, opened and closed. The places of fields in the superblock beyond the spec's table are the model's (log 30). -/
def Obligations.RecordVolumes : Prop :=
  (∀ s r v w x, Claims.volFormat s r v w x) ∧
  (∀ s r v w, Claims.volFormatRefused s r v w) ∧
  (∀ s r v w, Claims.volOpenFails s r v w) ∧
  (∀ s r v w, Claims.volOpens s r v w) ∧
  (∀ s v m id cid c k b, Claims.volTaken s v m id cid c k b) ∧
  (∀ s r v w x, Claims.volClose s r v w x)

/-- Clips are opened, written, committed, split and closed. The places of fields in the allocation mirror are the model's (log 30). -/
def Obligations.RecordClips : Prop :=
  (∀ s r k v g, Claims.clipOpen s r k v g) ∧
  (∀ s r k v x, Claims.grantPush s r k v x) ∧
  (∀ s k b g h u, Claims.streamFrame s k b g h u) ∧
  (∀ s k b g, Claims.streamNoSpace s k b g) ∧
  (∀ s k g f l, Claims.frameCommit s k g f l) ∧
  (∀ s r k v, Claims.clipClose s r k v) ∧
  (∀ s r k v h u, Claims.clipCloseIdle s r k v h u) ∧
  (∀ s k g, Claims.clipClosed s k g) ∧
  (∀ s k b h u, Claims.splitRewrite s k b h u)

/-- The offload endpoint's link, enable, resets, doorbells and fetches. NVMe layouts and status codes are those of NVMe 2.0, taken from outside the spec (log 31). -/
def Obligations.EndpointLinkAndQueues : Prop :=
  (∀ s sp w, Claims.oepLinkUp s sp w) ∧
  (∀ s, Claims.oepLinkDown s) ∧
  (∀ s a b, Claims.ctrlEnable s a b) ∧
  (∀ s c, Claims.ctrlReset s c) ∧
  (∀ s c, Claims.ctrlResetDone s c) ∧
  (∀ s q n x, Claims.sqDoorbell s q n x) ∧
  (∀ s q n x, Claims.cqDoorbell s q n x) ∧
  (∀ s q e x z, Claims.commandFetch s q e x z)

/-- The endpoint's admin commands. NVMe layouts and status codes are those of NVMe 2.0, taken from outside the spec (log 31). -/
def Obligations.EndpointAdminCommands : Prop :=
  (∀ s q cid c, Claims.identify s q cid c) ∧
  (∀ s q cid c, Claims.getLogPage s q cid c) ∧
  (∀ s q cid c, Claims.createIoCq s q cid c) ∧
  (∀ s q cid c, Claims.deleteIoCq s q cid c) ∧
  (∀ s q cid c, Claims.createIoSq s q cid c) ∧
  (∀ s q cid c x, Claims.deleteIoSq s q cid c x) ∧
  (∀ s q cid c, Claims.abort s q cid c) ∧
  (∀ s q cid c, Claims.getFeatures s q cid c) ∧
  (∀ s q cid c, Claims.setFeatures s q cid c) ∧
  (∀ s q cid c, Claims.asynchronousEventRequest s q cid c)

/-- The endpoint's I/O commands, their checks, locks and namespaces. NVMe layouts and status codes are those of NVMe 2.0, taken from outside the spec (log 31). -/
def Obligations.EndpointIoCommands : Prop :=
  (∀ s q cid c, Claims.ioChecked s q cid c) ∧
  (∀ s q cid c, Claims.ioInactive s q cid c) ∧
  (∀ s q cid c x, Claims.nvmRead s q cid c x) ∧
  (∀ s q cid c x, Claims.nvmWrite s q cid c x) ∧
  (∀ s q cid c, Claims.flush s q cid c) ∧
  (∀ s q cid c, Claims.datasetManagement s q cid c) ∧
  (∀ s i k no a, Claims.lockGrant s i k no a) ∧
  (∀ s i j a b, Claims.lockExclusive s i j a b) ∧
  (∀ s v, Claims.namespaceActivate s v) ∧
  (∀ s v x, Claims.journalReplay s v x) ∧
  (∀ s v m x, Claims.journalReads s v m x)

/-- Scan-out's enable, frames, lines and underruns. -/
def Obligations.ScanOut : Prop :=
  (∀ s r v, Claims.scoEnable s r v) ∧
  (∀ s r v, Claims.scoBusy s r v) ∧
  (∀ s r v, Claims.scoDisableBusy s r v) ∧
  (∀ s r v, Claims.scoDisable s r v) ∧
  (∀ s k, Claims.rasterFrameStart s k) ∧
  (∀ s k, Claims.rasterRateError s k) ∧
  (∀ s k g b, Claims.rasterRepeat s k g b) ∧
  (∀ s x p, Claims.rasterLine s x p) ∧
  (∀ s x, Claims.rasterLineEmpty s x) ∧
  (∀ s x n f, Claims.lineUnderrun s x n f)

/-- Audio ports: run, lead and trail, capture, playback, slave frames and masks. -/
def Obligations.Audio : Prop :=
  (∀ s r n v, Claims.audioRunStart s r n v) ∧
  (∀ s r n v, Claims.audioRunStop s r n v) ∧
  (∀ s n rx e, Claims.audioEnding s n rx e) ∧
  (∀ s n k, Claims.audioStopped s n k) ∧
  (∀ s n k rx e, Claims.leadFrame s n k rx e) ∧
  (∀ s n rx e d, Claims.captureFrame s n rx e d) ∧
  (∀ s n rx e d, Claims.playbackFrame s n rx e d) ∧
  (∀ s n rx e, Claims.starvedFrame s n rx e) ∧
  (∀ s n rx e, Claims.slaveSampleRx s n rx e) ∧
  (∀ s r n v, Claims.maskWrite s r n v) ∧
  (∀ s n m i, Claims.maskApply s n m i)

/-- Ethernet frames, time-stamps, MDIO, links and streams. -/
def Obligations.NetworkFramesAndStreams : Prop :=
  (∀ s m, Claims.txFrame s m) ∧
  (∀ s m u f good fec, Claims.rxRejected s m u f good fec) ∧
  (∀ s m u f, Claims.rxFrame s m u f) ∧
  (∀ s m u f, Claims.rxNoDescriptor s m u f) ∧
  (∀ s r m, Claims.txtsPop s r m) ∧
  (∀ s r m v x, Claims.mdio s r m v x) ∧
  (∀ s m up, Claims.netLinkChange s m up) ∧
  (∀ s r k v, Claims.netStreamEnable s r k v) ∧
  (∀ s k n b y x l, Claims.streamFrameSelect s k n b y x l) ∧
  (∀ s k c b p last q, Claims.streamPacket s k c b p last q)

/-- Hall and index edges, positions, windows, faults and phase. -/
def Obligations.PositionFeedback : Prop :=
  (∀ s u c x k, Claims.hallEdge s u c x k) ∧
  Claims.hallOrder ∧
  (∀ s u c up k, Claims.indexEdge s u c up k) ∧
  (∀ s r c v, Claims.posWrite s r c v) ∧
  (∀ s c, Claims.speedWindow s c) ∧
  (∀ s c up, Claims.faultInput s c up) ∧
  (∀ s c w, Claims.phaseWindowClose s c w)

/-- Power-on reset, cold and warm boots. -/
def Obligations.Boots : Prop :=
  (∀ s, Claims.por s) ∧
  (∀ s fails z, Claims.coldBoot s fails z) ∧
  (∀ s fails z, Claims.coldBootFails s fails z) ∧
  (∀ s fails z, Claims.warmBootCold s fails z) ∧
  (∀ s fails z, Claims.warmBoot s fails z)

/-- Flash reads and the general-purpose pins. -/
def Obligations.FlashAndPins : Prop :=
  (∀ s r v, Claims.xspiRead s r v) ∧
  (∀ s, Claims.xspiDone s) ∧
  (∀ s r v, Claims.gpioSet s r v) ∧
  (∀ s r v, Claims.gpioClr s r v) ∧
  (∀ s u i level, Claims.gpioEdge s u i level)

/-- Overlay requests, mode changes, commits and their application. -/
def Obligations.Overlays : Prop :=
  (∀ s r v, Claims.overlayRequestWaits s r v) ∧
  (∀ s r v x w, Claims.overlayRequest s r v x w) ∧
  (∀ s p, Claims.modeChange s p) ∧
  (∀ s n, Claims.overlayCommit s n) ∧
  (∀ s n k, Claims.overlayApply s n k)

/-- The boot lock, the warm-boot record, OTP and the mailbox. -/
def Obligations.LocksOtpAndMailbox : Prop :=
  (∀ s r v, Claims.bootLock s r v) ∧
  (∀ s r v, Claims.warmInvalidate s r v) ∧
  (∀ s r v, Claims.otpProgram s r v) ∧
  (∀ s w due bits, Claims.otpDone s w due bits) ∧
  (∀ s a bs, Claims.ctlSpiWrite s a bs) ∧
  (∀ s a n, Claims.ctlSpiRead s a n) ∧
  (∀ s, Claims.ctlSpiStatus s) ∧
  (∀ s, Claims.ctlSpiDoorbell s) ∧
  (∀ s, Claims.ctlSpiAck s) ∧
  (∀ s b, Claims.ctlSpiUnknown s b) ∧
  (∀ s r v, Claims.mboxInClear s r v) ∧
  (∀ s r v, Claims.mboxPost s r v)

/-- Votes and power transitions of domains, their pads and access holds. -/
def Obligations.PowerDomains : Prop :=
  (∀ s r c v, Claims.vote s r c v) ∧
  (∀ s d u, Claims.domainPowerDownStart s d u) ∧
  (∀ s d z, Claims.domainOn s d z) ∧
  (∀ s d, Claims.quiesceTimeout s d) ∧
  (∀ s d, Claims.domainOff s d) ∧
  (∀ s r v, Claims.padRelease s r v) ∧
  (∀ s d u, Claims.padHeld s d u) ∧
  (∀ s d u, Claims.accessHoldEnd s d u)

/-- Sleep entry, wake, the T3 entries and clock switches. -/
def Obligations.SleepAndWake : Prop :=
  (∀ s r v, Claims.sleepGo s r v) ∧
  (∀ s, Claims.sleepQuiesceDone s) ∧
  (∀ s, Claims.fallAsleep s) ∧
  (∀ s k, Claims.wake s k) ∧
  (∀ s k, Claims.wakeHeld s k) ∧
  (∀ s r v, Claims.clockSwitch s r v) ∧
  (∀ s u, Claims.t3GraceExpired s u) ∧
  (∀ s u, Claims.forcedSleep s u)

/-- Soft and hard resets, and the watchdog. -/
def Obligations.ResetsAndWatchdog : Prop :=
  (∀ s, Claims.softReset s) ∧
  (∀ s r v, Claims.softResetWrite s r v) ∧
  (∀ s c, Claims.hardReset s c) ∧
  (∀ s, Claims.testReset s) ∧
  (∀ s r v, Claims.wdtKick s r v) ∧
  (∀ s, Claims.wdtExpired s)

/-- The core voltage, PMBus, sensors and their rounds. -/
def Obligations.VoltageAndThermal : Prop :=
  (∀ s f g, Claims.avsInterval s f g) ∧
  (∀ s, Claims.avsFails s) ∧
  (∀ s r v, Claims.pmbTransaction s r v) ∧
  (∀ s x c a op pec w, Claims.pmbDone s x c a op pec w) ∧
  (∀ s d c a op pec w, Claims.pmbRead s d c a op pec w) ∧
  (∀ s, Claims.pmbAlert s) ∧
  (∀ s l volts ok, Claims.thermalSlowRound s l volts ok) ∧
  (∀ s i u x, Claims.thermalFastSample s i u x) ∧
  (∀ s r v, Claims.sensorReadmit s r v)

/-- With fewer than 8 valid sensors the level is held, OTP programming refused, and the lack raised. -/
def Obligations.FewSensorsHoldTheLevel : Prop :=
  (∀ s w, Claims.fewSensors s w)

/-- Injection slots, rate judgement and the fault log. -/
def Obligations.InjectionAndFaultLog : Prop :=
  (∀ s r k v, Claims.injArm s r k v) ∧
  (∀ s r k v, Claims.injDisarm s r k v) ∧
  (∀ s, Claims.rateInterval s) ∧
  (∀ s d x, Claims.rateLasting s d x) ∧
  (∀ s x rest, Claims.faultLogWrite s x rest) ∧
  (∀ s r v, Claims.logClear s r v)

/-- The monitor's rate, errors, reads, writes and dumps. -/
def Obligations.MonitorReadsAndWrites : Prop :=
  (∀ s p, Claims.autobaud s p) ∧
  (∀ s, Claims.monitorSyntaxError s) ∧
  (∀ s, Claims.monitorLocked s) ∧
  (∀ s a n, Claims.monitorRead s a n) ∧
  (∀ s a n, Claims.monitorReadForm s a n) ∧
  (∀ s a v, Claims.monitorWriteWord s a v) ∧
  (∀ s v, Claims.monitorWriteReg s v) ∧
  (∀ s a n, Claims.monitorDump s a n) ∧
  (∀ s a n v, Claims.monitorFill s a n v) ∧
  (∀ s a, Claims.monitorCnt s a)

/-- The monitor's injection, log, clock, vote, readmission, boot and reset commands. -/
def Obligations.MonitorCommands : Prop :=
  (∀ s k id n c, Claims.monitorInj s k id n c) ∧
  (∀ s n, Claims.monitorLog s n) ∧
  (∀ s, Claims.monitorLogClear s) ∧
  (∀ s, Claims.monitorClk s) ∧
  (∀ s v, Claims.monitorVote s v) ∧
  (∀ s pod pip, Claims.monitorReadmit s pod pip) ∧
  (∀ s fails z, Claims.bootRetry s fails z) ∧
  (∀ s n bs fails, Claims.bootRecover s n bs fails) ∧
  (∀ s n bs fails, Claims.bootRecovered s n bs fails) ∧
  (∀ s, Claims.recoverTimeout s) ∧
  (∀ s, Claims.monitorResetSoft s) ∧
  (∀ s, Claims.monitorResetHard s)

/-- Challenge, unlock and help, and the instructions of the TAP. -/
def Obligations.DebugLockAndTap : Prop :=
  (∀ s n, Claims.challenge s n) ∧
  (∀ s key sig, Claims.unlock s key sig) ∧
  (∀ s, Claims.help s) ∧
  (∀ s, Claims.bypass s) ∧
  (∀ s, Claims.idcode s) ∧
  (∀ s, Claims.maker s) ∧
  (∀ s p i, Claims.samplePreload s p i) ∧
  (∀ s, Claims.extest s) ∧
  (∀ s, Claims.jtagDebug s)

/-- A ring of zero buffers is off; a detach releases all its consumer holds at once, and no credit is created or lost. -/
def Obligations.CreditsAtDetachAndOff : Prop :=
  (∀ s g, Claims.zeroRing s g) ∧
  (∀ s g k, Claims.detachKeeps s g k)

/-- The widths and alignments that register space answers, the mailbox's, and accesses where no register stands. -/
def Obligations.AccessForm : Prop :=
  (∀ s r a n, Claims.accessForm s r a n) ∧
  (∀ s r a n bs, Claims.writeForm s r a n bs) ∧
  (∀ s r a n bs, Claims.mailboxWrite s r a n bs) ∧
  (∀ s r a v, Claims.noRegister s r a v)
end

