-- ==== Sys2Proof/Laws/Exec.lean ====
section
/-! SUPPORT. What exec answers for each command, and when a meaning answers a next state. -/

namespace Sys2Proof.Machine

/-- A meaning guarded by its operand check answers a next state exactly where the check holds. -/
theorem guardOk_eq_next (ok : Bool) (s t : State) : guardOk ok s = .next t ↔ ok = true ∧ s = t := by
  cases ok <;> simp [guardOk]

@[simp] theorem guardOk_true (s : State) : guardOk true s = .next s := rfl
@[simp] theorem guardOk_false (s : State) : guardOk false s = .refused .illFormed := rfl

@[simp] theorem exec_registerWrite r addr v (s : State) : exec (.registerWrite r addr v) s = execRegisterWrite r addr v s := rfl
@[simp] theorem exec_rcRead r addr (s : State) : exec (.rcRead r addr) s = execRcRead r addr s := rfl
@[simp] theorem exec_loReadLatch r addr (s : State) : exec (.loReadLatch r addr) s = execLoReadLatch r addr s := rfl
@[simp] theorem exec_accessError r addr width write (s : State) : exec (.accessError r addr width write) s = execAccessError r addr width write s := rfl
@[simp] theorem exec_producerFrameStart ring (s : State) : exec (.producerFrameStart ring) s = execProducerFrameStart ring s := rfl
@[simp] theorem exec_frameOffer ring (s : State) : exec (.frameOffer ring) s = execFrameOffer ring s := rfl
@[simp] theorem exec_tapOffer n t (s : State) : exec (.tapOffer n t) s = execTapOffer n t s := rfl
@[simp] theorem exec_consumerRelease ring c (s : State) : exec (.consumerRelease ring c) s = execConsumerRelease ring c s := rfl
@[simp] theorem exec_consumerDetach ring c (s : State) : exec (.consumerDetach ring c) s = execConsumerDetach ring c s := rfl
@[simp] theorem exec_ringGeometryWrite r ring which v (s : State) : exec (.ringGeometryWrite r ring which v) s = execRingGeometryWrite r ring which v s := rfl
@[simp] theorem exec_ringBufsWrite r ring v (s : State) : exec (.ringBufsWrite r ring v) s = execRingBufsWrite r ring v s := rfl
@[simp] theorem exec_pllLocked (s : State) : exec (.pllLocked) s = execPllLocked s := rfl
@[simp] theorem exec_referenceLost (s : State) : exec (.referenceLost) s = execReferenceLost s := rfl
@[simp] theorem exec_eventRaised (s : State) : exec (.eventRaised) s = execEventRaised s := rfl
@[simp] theorem exec_evrQbaseWrite r d v (s : State) : exec (.evrQbaseWrite r d v) s = execEvrQbaseWrite r d v s := rfl
@[simp] theorem exec_evrQsizeWrite r d v (s : State) : exec (.evrQsizeWrite r d v) s = execEvrQsizeWrite r d v s := rfl
@[simp] theorem exec_evrQheadWrite r d v (s : State) : exec (.evrQheadWrite r d v) s = execEvrQheadWrite r d v s := rfl
@[simp] theorem exec_refEnable r v (s : State) : exec (.refEnable r v) s = execRefEnable r v s := rfl
@[simp] theorem exec_refDisable r v (s : State) : exec (.refDisable r v) s = execRefDisable r v s := rfl
@[simp] theorem exec_refRateWrite r den v (s : State) : exec (.refRateWrite r den v) s = execRefRateWrite r den v s := rfl
@[simp] theorem exec_refRfnWrite r v (s : State) : exec (.refRfnWrite r v) s = execRefRfnWrite r v s := rfl
@[simp] theorem exec_refTick (s : State) : exec (.refTick) s = execRefTick s := rfl
@[simp] theorem exec_refVEdge at_ f (s : State) : exec (.refVEdge at_ f) s = execRefVEdge at_ f s := rfl
@[simp] theorem exec_refEdgeTimeout (s : State) : exec (.refEdgeTimeout) s = execRefEdgeTimeout s := rfl
@[simp] theorem exec_trigPulseStart n (s : State) : exec (.trigPulseStart n) s = execTrigPulseStart n s := rfl
@[simp] theorem exec_trigPulseEnd n (s : State) : exec (.trigPulseEnd n) s = execTrigPulseEnd n s := rfl
@[simp] theorem exec_setPush r n v (s : State) : exec (.setPush r n v) s = execSetPush r n v s := rfl
@[simp] theorem exec_setClose r n v (s : State) : exec (.setClose r n v) s = execSetClose r n v s := rfl
@[simp] theorem exec_setWriteSend n (s : State) : exec (.setWriteSend n) s = execSetWriteSend n s := rfl
@[simp] theorem exec_setLastWrite n (s : State) : exec (.setLastWrite n) s = execSetLastWrite n s := rfl
@[simp] theorem exec_commit r n v (s : State) : exec (.commit r n v) s = execCommit r n v s := rfl
@[simp] theorem exec_commitCaptureDone n (s : State) : exec (.commitCaptureDone n) s = execCommitCaptureDone n s := rfl
@[simp] theorem exec_tableLoadDone n (s : State) : exec (.tableLoadDone n) s = execTableLoadDone n s := rfl
@[simp] theorem exec_frameEnterUnpack n (s : State) : exec (.frameEnterUnpack n) s = execFrameEnterUnpack n s := rfl
@[simp] theorem exec_laneReadapt r n k (s : State) : exec (.laneReadapt r n k) s = execLaneReadapt r n k s := rfl
@[simp] theorem exec_blockReceived n k header payload (s : State) : exec (.blockReceived n k header payload) s = execBlockReceived n k header payload s := rfl
@[simp] theorem exec_alignColumn n seen (s : State) : exec (.alignColumn n seen) s = execAlignColumn n seen s := rfl
@[simp] theorem exec_deskewWindowEnd n (s : State) : exec (.deskewWindowEnd n) s = execDeskewWindowEnd n s := rfl
@[simp] theorem exec_unknownControlBlock n col (s : State) : exec (.unknownControlBlock n col) s = execUnknownControlBlock n col s := rfl
@[simp] theorem exec_laneJudgeInterval n (s : State) : exec (.laneJudgeInterval n) s = execLaneJudgeInterval n s := rfl
@[simp] theorem exec_jvChgGo r n v (s : State) : exec (.jvChgGo r n v) s = execJvChgGo r n v s := rfl
@[simp] theorem exec_mapCmdSend n (s : State) : exec (.mapCmdSend n) s = execMapCmdSend n s := rfl
@[simp] theorem exec_mapTimeout n (s : State) : exec (.mapTimeout n) s = execMapTimeout n s := rfl
@[simp] theorem exec_laneReadmit r n k (s : State) : exec (.laneReadmit r n k) s = execLaneReadmit r n k s := rfl
@[simp] theorem exec_jvEnable r n v (s : State) : exec (.jvEnable r n v) s = execJvEnable r n v s := rfl
@[simp] theorem exec_jvRateWrite r n v (s : State) : exec (.jvRateWrite r n v) s = execJvRateWrite r n v s := rfl
@[simp] theorem exec_rateSwitch n (s : State) : exec (.rateSwitch n) s = execRateSwitch n s := rfl
@[simp] theorem exec_prbsCntClr r n k (s : State) : exec (.prbsCntClr r n k) s = execPrbsCntClr r n k s := rfl
@[simp] theorem exec_marginGo r n k v (s : State) : exec (.marginGo r n k v) s = execMarginGo r n k v s := rfl
@[simp] theorem exec_marginDone n k disagreed (s : State) : exec (.marginDone n k disagreed) s = execMarginDone n k disagreed s := rfl
@[simp] theorem exec_portEnable r n v (s : State) : exec (.portEnable r n v) s = execPortEnable r n v s := rfl
@[simp] theorem exec_portDisable r n v (s : State) : exec (.portDisable r n v) s = execPortDisable r n v s := rfl
@[simp] theorem exec_portRun r n v (s : State) : exec (.portRun r n v) s = execPortRun r n v s := rfl
@[simp] theorem exec_portStop r n v (s : State) : exec (.portStop r n v) s = execPortStop r n v s := rfl
@[simp] theorem exec_frameSizeWrite r n v (s : State) : exec (.frameSizeWrite r n v) s = execFrameSizeWrite r n v s := rfl
@[simp] theorem exec_sofReceived at_ n col (s : State) : exec (.sofReceived at_ n col) s = execSofReceived at_ n col s := rfl
@[simp] theorem exec_eofReceived at_ n col (s : State) : exec (.eofReceived at_ n col) s = execEofReceived at_ n col s := rfl
@[simp] theorem exec_lineReceived at_ n line (s : State) : exec (.lineReceived at_ n line) s = execLineReceived at_ n line s := rfl
@[simp] theorem exec_csiFrameStart at_ n vc num h (s : State) : exec (.csiFrameStart at_ n vc num h) s = execCsiFrameStart at_ n vc num h s := rfl
@[simp] theorem exec_csiFrameEnd at_ n vc h (s : State) : exec (.csiFrameEnd at_ n vc h) s = execCsiFrameEnd at_ n vc h s := rfl
@[simp] theorem exec_csiLongPacket at_ n pkt (s : State) : exec (.csiLongPacket at_ n pkt) s = execCsiLongPacket at_ n pkt s := rfl
@[simp] theorem exec_csiLineStart n vc num h (s : State) : exec (.csiLineStart n vc num h) s = execCsiLineStart n vc num h s := rfl
@[simp] theorem exec_rowTimeout n (s : State) : exec (.rowTimeout n) s = execRowTimeout n s := rfl
@[simp] theorem exec_groupVerdict g rfn (s : State) : exec (.groupVerdict g rfn) s = execGroupVerdict g rfn s := rfl
@[simp] theorem exec_xclkCfgWrite r n v (s : State) : exec (.xclkCfgWrite r n v) s = execXclkCfgWrite r n v s := rfl
@[simp] theorem exec_xclkEnable r n v (s : State) : exec (.xclkEnable r n v) s = execXclkEnable r n v s := rfl
@[simp] theorem exec_syncEdge at_ n rising (s : State) : exec (.syncEdge at_ n rising) s = execSyncEdge at_ n rising s := rfl
@[simp] theorem exec_ibi n data (s : State) : exec (.ibi n data) s = execIbi n data s := rfl
@[simp] theorem exec_busTransferStart n (s : State) : exec (.busTransferStart n) s = execBusTransferStart n s := rfl
@[simp] theorem exec_busTransferDone n nack rdata (s : State) : exec (.busTransferDone n nack rdata) s = execBusTransferDone n nack rdata s := rfl
@[simp] theorem exec_dirRead r n v (s : State) : exec (.dirRead r n v) s = execDirRead r n v s := rfl
@[simp] theorem exec_dirWrite r n v (s : State) : exec (.dirWrite r n v) s = execDirWrite r n v s := rfl
@[simp] theorem exec_rowEnterPipeline n (s : State) : exec (.rowEnterPipeline n) s = execRowEnterPipeline n s := rfl
@[simp] theorem exec_calClear r n v (s : State) : exec (.calClear r n v) s = execCalClear r n v s := rfl
@[simp] theorem exec_tableReload n (s : State) : exec (.tableReload n) s = execTableReload n s := rfl
@[simp] theorem exec_statsReady n (s : State) : exec (.statsReady n) s = execStatsReady n s := rfl
@[simp] theorem exec_lumaReady n (s : State) : exec (.lumaReady n) s = execLumaReady n s := rfl
@[simp] theorem exec_tileDispatch j (s : State) : exec (.tileDispatch j) s = execTileDispatch j s := rfl
@[simp] theorem exec_vnop u w (s : State) : exec (.vnop u w) s = execVnop u w s := rfl
@[simp] theorem exec_fadd u w (s : State) : exec (.fadd u w) s = execFadd u w s := rfl
@[simp] theorem exec_fsub u w (s : State) : exec (.fsub u w) s = execFsub u w s := rfl
@[simp] theorem exec_fmul u w (s : State) : exec (.fmul u w) s = execFmul u w s := rfl
@[simp] theorem exec_fma u w (s : State) : exec (.fma u w) s = execFma u w s := rfl
@[simp] theorem exec_fmin u w (s : State) : exec (.fmin u w) s = execFmin u w s := rfl
@[simp] theorem exec_fmax u w (s : State) : exec (.fmax u w) s = execFmax u w s := rfl
@[simp] theorem exec_fabs u w (s : State) : exec (.fabs u w) s = execFabs u w s := rfl
@[simp] theorem exec_fneg u w (s : State) : exec (.fneg u w) s = execFneg u w s := rfl
@[simp] theorem exec_frcp u w (s : State) : exec (.frcp u w) s = execFrcp u w s := rfl
@[simp] theorem exec_flog2 u w (s : State) : exec (.flog2 u w) s = execFlog2 u w s := rfl
@[simp] theorem exec_fexp2 u w (s : State) : exec (.fexp2 u w) s = execFexp2 u w s := rfl
@[simp] theorem exec_fcmplt u w (s : State) : exec (.fcmplt u w) s = execFcmplt u w s := rfl
@[simp] theorem exec_fcmple u w (s : State) : exec (.fcmple u w) s = execFcmple u w s := rfl
@[simp] theorem exec_fcmpeq u w (s : State) : exec (.fcmpeq u w) s = execFcmpeq u w s := rfl
@[simp] theorem exec_fsel u w (s : State) : exec (.fsel u w) s = execFsel u w s := rfl
@[simp] theorem exec_iadd u w (s : State) : exec (.iadd u w) s = execIadd u w s := rfl
@[simp] theorem exec_isub u w (s : State) : exec (.isub u w) s = execIsub u w s := rfl
@[simp] theorem exec_imul u w (s : State) : exec (.imul u w) s = execImul u w s := rfl
@[simp] theorem exec_imin u w (s : State) : exec (.imin u w) s = execImin u w s := rfl
@[simp] theorem exec_imax u w (s : State) : exec (.imax u w) s = execImax u w s := rfl
@[simp] theorem exec_vand u w (s : State) : exec (.vand u w) s = execVand u w s := rfl
@[simp] theorem exec_vor u w (s : State) : exec (.vor u w) s = execVor u w s := rfl
@[simp] theorem exec_vxor u w (s : State) : exec (.vxor u w) s = execVxor u w s := rfl
@[simp] theorem exec_vshl u w (s : State) : exec (.vshl u w) s = execVshl u w s := rfl
@[simp] theorem exec_vshr u w (s : State) : exec (.vshr u w) s = execVshr u w s := rfl
@[simp] theorem exec_vsra u w (s : State) : exec (.vsra u w) s = execVsra u w s := rfl
@[simp] theorem exec_icmplt u w (s : State) : exec (.icmplt u w) s = execIcmplt u w s := rfl
@[simp] theorem exec_icmpeq u w (s : State) : exec (.icmpeq u w) s = execIcmpeq u w s := rfl
@[simp] theorem exec_cvtfi u w (s : State) : exec (.cvtfi u w) s = execCvtfi u w s := rfl
@[simp] theorem exec_cvtif u w (s : State) : exec (.cvtif u w) s = execCvtif u w s := rfl
@[simp] theorem exec_vmov u w (s : State) : exec (.vmov u w) s = execVmov u w s := rfl
@[simp] theorem exec_vsplat u w (s : State) : exec (.vsplat u w) s = execVsplat u w s := rfl
@[simp] theorem exec_vimm u w (s : State) : exec (.vimm u w) s = execVimm u w s := rfl
@[simp] theorem exec_vimmh u w (s : State) : exec (.vimmh u w) s = execVimmh u w s := rfl
@[simp] theorem exec_vswz u w (s : State) : exec (.vswz u w) s = execVswz u w s := rfl
@[simp] theorem exec_lut u w (s : State) : exec (.lut u w) s = execLut u w s := rfl
@[simp] theorem exec_nop u w (s : State) : exec (.nop u w) s = execNop u w s := rfl
@[simp] theorem exec_vld u w (s : State) : exec (.vld u w) s = execVld u w s := rfl
@[simp] theorem exec_vst u w (s : State) : exec (.vst u w) s = execVst u w s := rfl
@[simp] theorem exec_ldw u w (s : State) : exec (.ldw u w) s = execLdw u w s := rfl
@[simp] theorem exec_stw u w (s : State) : exec (.stw u w) s = execStw u w s := rfl
@[simp] theorem exec_sadd u w (s : State) : exec (.sadd u w) s = execSadd u w s := rfl
@[simp] theorem exec_ssub u w (s : State) : exec (.ssub u w) s = execSsub u w s := rfl
@[simp] theorem exec_smul u w (s : State) : exec (.smul u w) s = execSmul u w s := rfl
@[simp] theorem exec_sand u w (s : State) : exec (.sand u w) s = execSand u w s := rfl
@[simp] theorem exec_sor u w (s : State) : exec (.sor u w) s = execSor u w s := rfl
@[simp] theorem exec_sxor u w (s : State) : exec (.sxor u w) s = execSxor u w s := rfl
@[simp] theorem exec_sshl u w (s : State) : exec (.sshl u w) s = execSshl u w s := rfl
@[simp] theorem exec_sshr u w (s : State) : exec (.sshr u w) s = execSshr u w s := rfl
@[simp] theorem exec_ssra u w (s : State) : exec (.ssra u w) s = execSsra u w s := rfl
@[simp] theorem exec_slt u w (s : State) : exec (.slt u w) s = execSlt u w s := rfl
@[simp] theorem exec_addi u w (s : State) : exec (.addi u w) s = execAddi u w s := rfl
@[simp] theorem exec_li u w (s : State) : exec (.li u w) s = execLi u w s := rfl
@[simp] theorem exec_lui u w (s : State) : exec (.lui u w) s = execLui u w s := rfl
@[simp] theorem exec_vget u w (s : State) : exec (.vget u w) s = execVget u w s := rfl
@[simp] theorem exec_vput u w (s : State) : exec (.vput u w) s = execVput u w s := rfl
@[simp] theorem exec_br u w (s : State) : exec (.br u w) s = execBr u w s := rfl
@[simp] theorem exec_beq u w (s : State) : exec (.beq u w) s = execBeq u w s := rfl
@[simp] theorem exec_bne u w (s : State) : exec (.bne u w) s = execBne u w s := rfl
@[simp] theorem exec_blt u w (s : State) : exec (.blt u w) s = execBlt u w s := rfl
@[simp] theorem exec_bany u w (s : State) : exec (.bany u w) s = execBany u w s := rfl
@[simp] theorem exec_ball u w (s : State) : exec (.ball u w) s = execBall u w s := rfl
@[simp] theorem exec_pipEnd u w (s : State) : exec (.pipEnd u w) s = execPipEnd u w s := rfl
@[simp] theorem exec_signatureTest u (s : State) : exec (.signatureTest u) s = execSignatureTest u s := rfl
@[simp] theorem exec_signatureTestDone u pass (s : State) : exec (.signatureTestDone u pass) s = execSignatureTestDone u pass s := rfl
@[simp] theorem exec_tileWatchdog u (s : State) : exec (.tileWatchdog u) s = execTileWatchdog u s := rfl
@[simp] theorem exec_podMemoryReload p (s : State) : exec (.podMemoryReload p) s = execPodMemoryReload p s := rfl
@[simp] theorem exec_packageLoad j (s : State) : exec (.packageLoad j) s = execPackageLoad j s := rfl
@[simp] theorem exec_pipReadmit r v (s : State) : exec (.pipReadmit r v) s = execPipReadmit r v s := rfl
@[simp] theorem exec_readmitTest u pass (s : State) : exec (.readmitTest u pass) s = execReadmitTest u pass s := rfl
@[simp] theorem exec_prcEnable r n v (s : State) : exec (.prcEnable r n v) s = execPrcEnable r n v s := rfl
@[simp] theorem exec_prcApply r n v (s : State) : exec (.prcApply r n v) s = execPrcApply r n v s := rfl
@[simp] theorem exec_prcFrameStart n (s : State) : exec (.prcFrameStart n) s = execPrcFrameStart n s := rfl
@[simp] theorem exec_slabCoded n (s : State) : exec (.slabCoded n) s = execSlabCoded n s := rfl
@[simp] theorem exec_prcFrameDone n (s : State) : exec (.prcFrameDone n) s = execPrcFrameDone n s := rfl
@[simp] theorem exec_prdGo r v (s : State) : exec (.prdGo r v) s = execPrdGo r v s := rfl
@[simp] theorem exec_prdJobDone (s : State) : exec (.prdJobDone) s = execPrdJobDone s := rfl
@[simp] theorem exec_encApply r c v (s : State) : exec (.encApply r c v) s = execEncApply r c v s := rfl
@[simp] theorem exec_idrRequest r c v (s : State) : exec (.idrRequest r c v) s = execIdrRequest r c v s := rfl
@[simp] theorem exec_ltMark r c v (s : State) : exec (.ltMark r c v) s = execLtMark r c v s := rfl
@[simp] theorem exec_ltDrop r c v (s : State) : exec (.ltDrop r c v) s = execLtDrop r c v s := rfl
@[simp] theorem exec_pictureStart (s : State) : exec (.pictureStart) s = execPictureStart s := rfl
@[simp] theorem exec_pictureDone pic (s : State) : exec (.pictureDone pic) s = execPictureDone pic s := rfl
@[simp] theorem exec_decSubmit r v (s : State) : exec (.decSubmit r v) s = execDecSubmit r v s := rfl
@[simp] theorem exec_decJobStart (s : State) : exec (.decJobStart) s = execDecJobStart s := rfl
@[simp] theorem exec_decJobDone au (s : State) : exec (.decJobDone au) s = execDecJobDone au s := rfl
@[simp] theorem exec_decCtbWatchdog au ctb (s : State) : exec (.decCtbWatchdog au ctb) s = execDecCtbWatchdog au ctb s := rfl
@[simp] theorem exec_dpbRelease r d v (s : State) : exec (.dpbRelease r d v) s = execDpbRelease r d v s := rfl
@[simp] theorem exec_pkeGo r c v (s : State) : exec (.pkeGo r c v) s = execPkeGo r c v s := rfl
@[simp] theorem exec_pkeBlock c parity (s : State) : exec (.pkeBlock c parity) s = execPkeBlock c parity s := rfl
@[simp] theorem exec_pkeResume r c v (s : State) : exec (.pkeResume r c v) s = execPkeResume r c v s := rfl
@[simp] theorem exec_pkeAbort r c v (s : State) : exec (.pkeAbort r c v) s = execPkeAbort r c v s := rfl
@[simp] theorem exec_memMapApply r v (s : State) : exec (.memMapApply r v) s = execMemMapApply r v s := rfl
@[simp] theorem exec_memEnable r v (s : State) : exec (.memEnable r v) s = execMemEnable r v s := rfl
@[simp] theorem exec_dramRequest reqs (s : State) : exec (.dramRequest reqs) s = execDramRequest reqs s := rfl
@[simp] theorem exec_eccReread addr found (s : State) : exec (.eccReread addr found) s = execEccReread addr found s := rfl
@[simp] theorem exec_refreshInterval m ch (s : State) : exec (.refreshInterval m ch) s = execRefreshInterval m ch s := rfl
@[simp] theorem exec_mr4Read m codes (s : State) : exec (.mr4Read m codes) s = execMr4Read m codes s := rfl
@[simp] theorem exec_trainGo r m v (s : State) : exec (.trainGo r m v) s = execTrainGo r m v s := rfl
@[simp] theorem exec_trainDone m ch first retry (s : State) : exec (.trainDone m ch first retry) s = execTrainDone m ch first retry s := rfl
@[simp] theorem exec_trackingUpdate m ch first retry (s : State) : exec (.trackingUpdate m ch first retry) s = execTrackingUpdate m ch first retry s := rfl
@[simp] theorem exec_eccRegionEnable r k v (s : State) : exec (.eccRegionEnable r k v) s = execEccRegionEnable r k v s := rfl
@[simp] theorem exec_eccFillDone k (s : State) : exec (.eccFillDone k) s = execEccFillDone k s := rfl
@[simp] theorem exec_memberAttach r m v (s : State) : exec (.memberAttach r m v) s = execMemberAttach r m v s := rfl
@[simp] theorem exec_attachComplete m res (s : State) : exec (.attachComplete m res) s = execAttachComplete m res s := rfl
@[simp] theorem exec_memberDetach r m v (s : State) : exec (.memberDetach r m v) s = execMemberDetach r m v s := rfl
@[simp] theorem exec_memberReadmit r m v (s : State) : exec (.memberReadmit r m v) s = execMemberReadmit r m v s := rfl
@[simp] theorem exec_nvmeCompletion m cid success (s : State) : exec (.nvmeCompletion m cid success) s = execNvmeCompletion m cid success s := rfl
@[simp] theorem exec_nvmeTimeout m cid (s : State) : exec (.nvmeTimeout m cid) s = execNvmeTimeout m cid s := rfl
@[simp] theorem exec_rootPortLinkDown m (s : State) : exec (.rootPortLinkDown m) s = execRootPortLinkDown m s := rfl
@[simp] theorem exec_memberLinkReturn m speed width (s : State) : exec (.memberLinkReturn m speed width) s = execMemberLinkReturn m speed width s := rfl
@[simp] theorem exec_clipOpen r k v (s : State) : exec (.clipOpen r k v) s = execClipOpen r k v s := rfl
@[simp] theorem exec_streamFrame k (s : State) : exec (.streamFrame k) s = execStreamFrame k s := rfl
@[simp] theorem exec_grantPush r k v (s : State) : exec (.grantPush r k v) s = execGrantPush r k v s := rfl
@[simp] theorem exec_frameCommit k (s : State) : exec (.frameCommit k) s = execFrameCommit k s := rfl
@[simp] theorem exec_clipClose r k v (s : State) : exec (.clipClose r k v) s = execClipClose r k v s := rfl
@[simp] theorem exec_clipClosed k (s : State) : exec (.clipClosed k) s = execClipClosed k s := rfl
@[simp] theorem exec_splitRewrite k (s : State) : exec (.splitRewrite k) s = execSplitRewrite k s := rfl
@[simp] theorem exec_volOpen r vol v (s : State) : exec (.volOpen r vol v) s = execVolOpen r vol v s := rfl
@[simp] theorem exec_volFormat r vol v (s : State) : exec (.volFormat r vol v) s = execVolFormat r vol v s := rfl
@[simp] theorem exec_volClose r vol v (s : State) : exec (.volClose r vol v) s = execVolClose r vol v s := rfl
@[simp] theorem exec_oepLinkUp speed width (s : State) : exec (.oepLinkUp speed width) s = execOepLinkUp speed width s := rfl
@[simp] theorem exec_oepLinkDown (s : State) : exec (.oepLinkDown) s = execOepLinkDown s := rfl
@[simp] theorem exec_ctrlEnable asqs acqs (s : State) : exec (.ctrlEnable asqs acqs) s = execCtrlEnable asqs acqs s := rfl
@[simp] theorem exec_ctrlReset cause (s : State) : exec (.ctrlReset cause) s = execCtrlReset cause s := rfl
@[simp] theorem exec_ctrlResetDone (s : State) : exec (.ctrlResetDone) s = execCtrlResetDone s := rfl
@[simp] theorem exec_sqDoorbell q tail (s : State) : exec (.sqDoorbell q tail) s = execSqDoorbell q tail s := rfl
@[simp] theorem exec_cqDoorbell q head (s : State) : exec (.cqDoorbell q head) s = execCqDoorbell q head s := rfl
@[simp] theorem exec_commandFetch q e err (s : State) : exec (.commandFetch q e err) s = execCommandFetch q e err s := rfl
@[simp] theorem exec_identify q cid (s : State) : exec (.identify q cid) s = execIdentify q cid s := rfl
@[simp] theorem exec_getLogPage q cid (s : State) : exec (.getLogPage q cid) s = execGetLogPage q cid s := rfl
@[simp] theorem exec_createIoCq q cid (s : State) : exec (.createIoCq q cid) s = execCreateIoCq q cid s := rfl
@[simp] theorem exec_deleteIoCq q cid (s : State) : exec (.deleteIoCq q cid) s = execDeleteIoCq q cid s := rfl
@[simp] theorem exec_createIoSq q cid (s : State) : exec (.createIoSq q cid) s = execCreateIoSq q cid s := rfl
@[simp] theorem exec_deleteIoSq q cid (s : State) : exec (.deleteIoSq q cid) s = execDeleteIoSq q cid s := rfl
@[simp] theorem exec_abort q cid (s : State) : exec (.abort q cid) s = execAbort q cid s := rfl
@[simp] theorem exec_getFeatures q cid (s : State) : exec (.getFeatures q cid) s = execGetFeatures q cid s := rfl
@[simp] theorem exec_setFeatures q cid (s : State) : exec (.setFeatures q cid) s = execSetFeatures q cid s := rfl
@[simp] theorem exec_asynchronousEventRequest q cid (s : State) : exec (.asynchronousEventRequest q cid) s = execAsynchronousEventRequest q cid s := rfl
@[simp] theorem exec_nvmRead q cid (s : State) : exec (.nvmRead q cid) s = execNvmRead q cid s := rfl
@[simp] theorem exec_nvmWrite q cid (s : State) : exec (.nvmWrite q cid) s = execNvmWrite q cid s := rfl
@[simp] theorem exec_flush q cid (s : State) : exec (.flush q cid) s = execFlush q cid s := rfl
@[simp] theorem exec_writeZeroes q cid (s : State) : exec (.writeZeroes q cid) s = execWriteZeroes q cid s := rfl
@[simp] theorem exec_datasetManagement q cid (s : State) : exec (.datasetManagement q cid) s = execDatasetManagement q cid s := rfl
@[simp] theorem exec_lockGrant (s : State) : exec (.lockGrant) s = execLockGrant s := rfl
@[simp] theorem exec_namespaceActivate v (s : State) : exec (.namespaceActivate v) s = execNamespaceActivate v s := rfl
@[simp] theorem exec_journalReplay v (s : State) : exec (.journalReplay v) s = execJournalReplay v s := rfl
@[simp] theorem exec_scoEnable r v (s : State) : exec (.scoEnable r v) s = execScoEnable r v s := rfl
@[simp] theorem exec_scoDisable r v (s : State) : exec (.scoDisable r v) s = execScoDisable r v s := rfl
@[simp] theorem exec_rasterFrameStart (s : State) : exec (.rasterFrameStart) s = execRasterFrameStart s := rfl
@[simp] theorem exec_rasterLine (s : State) : exec (.rasterLine) s = execRasterLine s := rfl
@[simp] theorem exec_lineUnderrun sample fault (s : State) : exec (.lineUnderrun sample fault) s = execLineUnderrun sample fault s := rfl
@[simp] theorem exec_audioRunStart r n v (s : State) : exec (.audioRunStart r n v) s = execAudioRunStart r n v s := rfl
@[simp] theorem exec_audioRunStop r n v (s : State) : exec (.audioRunStop r n v) s = execAudioRunStop r n v s := rfl
@[simp] theorem exec_audioStopped n (s : State) : exec (.audioStopped n) s = execAudioStopped n s := rfl
@[simp] theorem exec_sampleFrame n rx parity (s : State) : exec (.sampleFrame n rx parity) s = execSampleFrame n rx parity s := rfl
@[simp] theorem exec_slaveSampleRx n rx parity (s : State) : exec (.slaveSampleRx n rx parity) s = execSlaveSampleRx n rx parity s := rfl
@[simp] theorem exec_maskWrite r n v (s : State) : exec (.maskWrite r n v) s = execMaskWrite r n v s := rfl
@[simp] theorem exec_maskApply n (s : State) : exec (.maskApply n) s = execMaskApply n s := rfl
@[simp] theorem exec_txFrame m parity (s : State) : exec (.txFrame m parity) s = execTxFrame m parity s := rfl
@[simp] theorem exec_rxFrame at_ m frame fcsGood fecBad parity (s : State) : exec (.rxFrame at_ m frame fcsGood fecBad parity) s = execRxFrame at_ m frame fcsGood fecBad parity s := rfl
@[simp] theorem exec_txtsPop r m (s : State) : exec (.txtsPop r m) s = execTxtsPop r m s := rfl
@[simp] theorem exec_mdio r m v answer (s : State) : exec (.mdio r m v answer) s = execMdio r m v answer s := rfl
@[simp] theorem exec_netLinkChange m up (s : State) : exec (.netLinkChange m up) s = execNetLinkChange m up s := rfl
@[simp] theorem exec_netStreamEnable r k v (s : State) : exec (.netStreamEnable r k v) s = execNetStreamEnable r k v s := rfl
@[simp] theorem exec_streamFrameSelect k (s : State) : exec (.streamFrameSelect k) s = execStreamFrameSelect k s := rfl
@[simp] theorem exec_streamPacket k (s : State) : exec (.streamPacket k) s = execStreamPacket k s := rfl
@[simp] theorem exec_tsuIncrCommit r v (s : State) : exec (.tsuIncrCommit r v) s = execTsuIncrCommit r v s := rfl
@[simp] theorem exec_tsuSet r v (s : State) : exec (.tsuSet r v) s = execTsuSet r v s := rfl
@[simp] theorem exec_tsuStep r v (s : State) : exec (.tsuStep r v) s = execTsuStep r v s := rfl
@[simp] theorem exec_tsuSecond (s : State) : exec (.tsuSecond) s = execTsuSecond s := rfl
@[simp] theorem exec_hallEdge at_ c state held (s : State) : exec (.hallEdge at_ c state held) s = execHallEdge at_ c state held s := rfl
@[simp] theorem exec_indexEdge at_ c rising held (s : State) : exec (.indexEdge at_ c rising held) s = execIndexEdge at_ c rising held s := rfl
@[simp] theorem exec_posWrite r c v (s : State) : exec (.posWrite r c v) s = execPosWrite r c v s := rfl
@[simp] theorem exec_speedWindow c (s : State) : exec (.speedWindow c) s = execSpeedWindow c s := rfl
@[simp] theorem exec_faultInput c high (s : State) : exec (.faultInput c high) s = execFaultInput c high s := rfl
@[simp] theorem exec_phaseWindowClose c (s : State) : exec (.phaseWindowClose c) s = execPhaseWindowClose c s := rfl
@[simp] theorem exec_lineTrigger at_ n rising (s : State) : exec (.lineTrigger at_ n rising) s = execLineTrigger at_ n rising s := rfl
@[simp] theorem exec_ssRowTimeout n (s : State) : exec (.ssRowTimeout n) s = execSsRowTimeout n s := rfl
@[simp] theorem exec_outputLineComplete n parity (s : State) : exec (.outputLineComplete n parity) s = execOutputLineComplete n parity s := rfl
@[simp] theorem exec_por (s : State) : exec (.por) s = execPor s := rfl
@[simp] theorem exec_coldBoot fails otpBad (s : State) : exec (.coldBoot fails otpBad) s = execColdBoot fails otpBad s := rfl
@[simp] theorem exec_warmBoot fails otpBad (s : State) : exec (.warmBoot fails otpBad) s = execWarmBoot fails otpBad s := rfl
@[simp] theorem exec_xspiRead r v (s : State) : exec (.xspiRead r v) s = execXspiRead r v s := rfl
@[simp] theorem exec_xspiDone (s : State) : exec (.xspiDone) s = execXspiDone s := rfl
@[simp] theorem exec_gpioSet r v (s : State) : exec (.gpioSet r v) s = execGpioSet r v s := rfl
@[simp] theorem exec_gpioClr r v (s : State) : exec (.gpioClr r v) s = execGpioClr r v s := rfl
@[simp] theorem exec_gpioEdge at_ j level (s : State) : exec (.gpioEdge at_ j level) s = execGpioEdge at_ j level s := rfl
@[simp] theorem exec_overlayRequest r v (s : State) : exec (.overlayRequest r v) s = execOverlayRequest r v s := rfl
@[simp] theorem exec_modeChange pins (s : State) : exec (.modeChange pins) s = execModeChange pins s := rfl
@[simp] theorem exec_overlayCommit n (s : State) : exec (.overlayCommit n) s = execOverlayCommit n s := rfl
@[simp] theorem exec_overlayApply n (s : State) : exec (.overlayApply n) s = execOverlayApply n s := rfl
@[simp] theorem exec_bootLock r v (s : State) : exec (.bootLock r v) s = execBootLock r v s := rfl
@[simp] theorem exec_warmInvalidate r v (s : State) : exec (.warmInvalidate r v) s = execWarmInvalidate r v s := rfl
@[simp] theorem exec_otpProgram r v (s : State) : exec (.otpProgram r v) s = execOtpProgram r v s := rfl
@[simp] theorem exec_otpDone (s : State) : exec (.otpDone) s = execOtpDone s := rfl
@[simp] theorem exec_ctlSpiWrite addr data (s : State) : exec (.ctlSpiWrite addr data) s = execCtlSpiWrite addr data s := rfl
@[simp] theorem exec_ctlSpiRead addr len (s : State) : exec (.ctlSpiRead addr len) s = execCtlSpiRead addr len s := rfl
@[simp] theorem exec_ctlSpiStatus (s : State) : exec (.ctlSpiStatus) s = execCtlSpiStatus s := rfl
@[simp] theorem exec_ctlSpiDoorbell (s : State) : exec (.ctlSpiDoorbell) s = execCtlSpiDoorbell s := rfl
@[simp] theorem exec_ctlSpiAck (s : State) : exec (.ctlSpiAck) s = execCtlSpiAck s := rfl
@[simp] theorem exec_ctlSpiUnknown cmd (s : State) : exec (.ctlSpiUnknown cmd) s = execCtlSpiUnknown cmd s := rfl
@[simp] theorem exec_mboxInClear r v (s : State) : exec (.mboxInClear r v) s = execMboxInClear r v s := rfl
@[simp] theorem exec_mboxPost r v (s : State) : exec (.mboxPost r v) s = execMboxPost r v s := rfl
@[simp] theorem exec_vote r c v (s : State) : exec (.vote r c v) s = execVote r c v s := rfl
@[simp] theorem exec_domainPowerDownStart d (s : State) : exec (.domainPowerDownStart d) s = execDomainPowerDownStart d s := rfl
@[simp] theorem exec_domainOn d parity (s : State) : exec (.domainOn d parity) s = execDomainOn d parity s := rfl
@[simp] theorem exec_quiesceTimeout d (s : State) : exec (.quiesceTimeout d) s = execQuiesceTimeout d s := rfl
@[simp] theorem exec_domainOff d (s : State) : exec (.domainOff d) s = execDomainOff d s := rfl
@[simp] theorem exec_offDomainAccess r addr write (s : State) : exec (.offDomainAccess r addr write) s = execOffDomainAccess r addr write s := rfl
@[simp] theorem exec_padRelease r v (s : State) : exec (.padRelease r v) s = execPadRelease r v s := rfl
@[simp] theorem exec_padHeld d (s : State) : exec (.padHeld d) s = execPadHeld d s := rfl
@[simp] theorem exec_sleepGo r v (s : State) : exec (.sleepGo r v) s = execSleepGo r v s := rfl
@[simp] theorem exec_sleepQuiesceDone (s : State) : exec (.sleepQuiesceDone) s = execSleepQuiesceDone s := rfl
@[simp] theorem exec_sleepDramIdle (s : State) : exec (.sleepDramIdle) s = execSleepDramIdle s := rfl
@[simp] theorem exec_wake source (s : State) : exec (.wake source) s = execWake source s := rfl
@[simp] theorem exec_clockSwitch r v (s : State) : exec (.clockSwitch r v) s = execClockSwitch r v s := rfl
@[simp] theorem exec_hardReset cause (s : State) : exec (.hardReset cause) s = execHardReset cause s := rfl
@[simp] theorem exec_softReset r v (s : State) : exec (.softReset r v) s = execSoftReset r v s := rfl
@[simp] theorem exec_wdtKick r v (s : State) : exec (.wdtKick r v) s = execWdtKick r v s := rfl
@[simp] theorem exec_wdtExpired (s : State) : exec (.wdtExpired) s = execWdtExpired s := rfl
@[simp] theorem exec_avsInterval anyFail allGuard modes sent (s : State) : exec (.avsInterval anyFail allGuard modes sent) s = execAvsInterval anyFail allGuard modes sent s := rfl
@[simp] theorem exec_pmbTransaction r v (s : State) : exec (.pmbTransaction r v) s = execPmbTransaction r v s := rfl
@[simp] theorem exec_pmbDone res (s : State) : exec (.pmbDone res) s = execPmbDone res s := rfl
@[simp] theorem exec_pmbAlert (s : State) : exec (.pmbAlert) s = execPmbAlert s := rfl
@[simp] theorem exec_thermalSlowRound readings volts trims (s : State) : exec (.thermalSlowRound readings volts trims) s = execThermalSlowRound readings volts trims s := rfl
@[simp] theorem exec_thermalFastSample k reading (s : State) : exec (.thermalFastSample k reading) s = execThermalFastSample k reading s := rfl
@[simp] theorem exec_sensorReadmit r v (s : State) : exec (.sensorReadmit r v) s = execSensorReadmit r v s := rfl
@[simp] theorem exec_t3GraceExpired (s : State) : exec (.t3GraceExpired) s = execT3GraceExpired s := rfl
@[simp] theorem exec_forcedSleep (s : State) : exec (.forcedSleep) s = execForcedSleep s := rfl
@[simp] theorem exec_injArm r k v (s : State) : exec (.injArm r k v) s = execInjArm r k v s := rfl
@[simp] theorem exec_injDisarm r k v (s : State) : exec (.injDisarm r k v) s = execInjDisarm r k v s := rfl
@[simp] theorem exec_rateInterval (s : State) : exec (.rateInterval) s = execRateInterval s := rfl
@[simp] theorem exec_faultLogWrite (s : State) : exec (.faultLogWrite) s = execFaultLogWrite s := rfl
@[simp] theorem exec_logClear r v (s : State) : exec (.logClear r v) s = execLogClear r v s := rfl
@[simp] theorem exec_autobaud bitTimePs char (s : State) : exec (.autobaud bitTimePs char) s = execAutobaud bitTimePs char s := rfl
@[simp] theorem exec_monitorSyntaxError (s : State) : exec (.monitorSyntaxError) s = execMonitorSyntaxError s := rfl
@[simp] theorem exec_monitorRead addr count (s : State) : exec (.monitorRead addr count) s = execMonitorRead addr count s := rfl
@[simp] theorem exec_monitorWriteWord addr v (s : State) : exec (.monitorWriteWord addr v) s = execMonitorWriteWord addr v s := rfl
@[simp] theorem exec_monitorDump addr count (s : State) : exec (.monitorDump addr count) s = execMonitorDump addr count s := rfl
@[simp] theorem exec_monitorFill addr count v (s : State) : exec (.monitorFill addr count v) s = execMonitorFill addr count v s := rfl
@[simp] theorem exec_monitorCnt addr (s : State) : exec (.monitorCnt addr) s = execMonitorCnt addr s := rfl
@[simp] theorem exec_monitorInj k id everyN count (s : State) : exec (.monitorInj k id everyN count) s = execMonitorInj k id everyN count s := rfl
@[simp] theorem exec_monitorLog count (s : State) : exec (.monitorLog count) s = execMonitorLog count s := rfl
@[simp] theorem exec_monitorLogClear (s : State) : exec (.monitorLogClear) s = execMonitorLogClear s := rfl
@[simp] theorem exec_monitorClk (s : State) : exec (.monitorClk) s = execMonitorClk s := rfl
@[simp] theorem exec_monitorVote mask (s : State) : exec (.monitorVote mask) s = execMonitorVote mask s := rfl
@[simp] theorem exec_monitorReadmit pod pip (s : State) : exec (.monitorReadmit pod pip) s = execMonitorReadmit pod pip s := rfl
@[simp] theorem exec_bootRetry fails otpBad (s : State) : exec (.bootRetry fails otpBad) s = execBootRetry fails otpBad s := rfl
@[simp] theorem exec_bootRecover count data fails (s : State) : exec (.bootRecover count data fails) s = execBootRecover count data fails s := rfl
@[simp] theorem exec_recoverTimeout (s : State) : exec (.recoverTimeout) s = execRecoverTimeout s := rfl
@[simp] theorem exec_monitorResetSoft (s : State) : exec (.monitorResetSoft) s = execMonitorResetSoft s := rfl
@[simp] theorem exec_monitorResetHard (s : State) : exec (.monitorResetHard) s = execMonitorResetHard s := rfl
@[simp] theorem exec_challenge nonce (s : State) : exec (.challenge nonce) s = execChallenge nonce s := rfl
@[simp] theorem exec_unlock key sig (s : State) : exec (.unlock key sig) s = execUnlock key sig s := rfl
@[simp] theorem exec_help (s : State) : exec (.help) s = execHelp s := rfl
@[simp] theorem exec_bypass (s : State) : exec (.bypass) s = execBypass s := rfl
@[simp] theorem exec_idcode (s : State) : exec (.idcode) s = execIdcode s := rfl
@[simp] theorem exec_samplePreload pins shiftIn (s : State) : exec (.samplePreload pins shiftIn) s = execSamplePreload pins shiftIn s := rfl
@[simp] theorem exec_extest (s : State) : exec (.extest) s = execExtest s := rfl
@[simp] theorem exec_jtagDebug (s : State) : exec (.jtagDebug) s = execJtagDebug s := rfl
@[simp] theorem exec_prbsCheck n k bits (s : State) : exec (.prbsCheck n k bits) s = execPrbsCheck n k bits s := rfl
@[simp] theorem exec_packageLoadDone j (s : State) : exec (.packageLoadDone j) s = execPackageLoadDone j s := rfl
@[simp] theorem exec_memoryAccess r addr len write found (s : State) : exec (.memoryAccess r addr len write found) s = execMemoryAccess r addr len write found s := rfl
@[simp] theorem exec_perBankRefresh m ch waiting (s : State) : exec (.perBankRefresh m ch waiting) s = execPerBankRefresh m ch waiting s := rfl
@[simp] theorem exec_accessHoldEnd d (s : State) : exec (.accessHoldEnd d) s = execAccessHoldEnd d s := rfl
@[simp] theorem exec_timeCounterParity (s : State) : exec (.timeCounterParity) s = execTimeCounterParity s := rfl

end Sys2Proof.Machine
end

