-- ==== Sys2Proof/Laws/Memory.lean ====
section
/-! SUPPORT. Laws of sparse maps and of memory: read after write, and that every memory operation keeps the canonical
form. -/

namespace Sys2Proof.Machine

/-! ### Sparse maps -/

variable {α : Type}

@[simp] theorem look_nil (k : Nat) : look ([] : List (Nat × α)) k = none := rfl

@[simp] theorem look_put_self (m : List (Nat × α)) (k : Nat) (v : α) : look (put m k v) k = some v := by
  induction m with
  | nil => simp [put, look]
  | cons e t ih =>
    obtain ⟨a, w⟩ := e
    unfold put
    split
    · simp [look]
    · split
      · simp [look]
      · rename_i h
        simp [look, Ne.symm h, ih]

theorem look_put_of_ne (m : List (Nat × α)) (k : Nat) (v : α) (j : Nat) (h : j ≠ k) : look (put m k v) j = look m j := by
  induction m with
  | nil => simp [put, look, Ne.symm h]
  | cons e t ih =>
    obtain ⟨a, w⟩ := e
    unfold put
    split
    · simp [look, Ne.symm h]
    · split
      · rename_i h1
        subst h1
        simp [look, Ne.symm h]
      · simp [look, ih]

@[simp] theorem lookD_put_self (m : List (Nat × α)) (d : α) (k : Nat) (v : α) : lookD (put m k v) d k = v := by
  simp [lookD]

theorem lookD_put_of_ne (m : List (Nat × α)) (d : α) (k : Nat) (v : α) (j : Nat) (h : j ≠ k) :
    lookD (put m k v) d j = lookD m d j := by simp [lookD, look_put_of_ne m k v j h]

theorem look_filter (m : List (Nat × α)) (p : Nat → Bool) (k : Nat) :
    look (m.filter (fun e => p e.1)) k = if p k then look m k else none := by
  induction m with
  | nil => simp
  | cons e t ih =>
    obtain ⟨a, w⟩ := e
    by_cases ha : a = k
    · subst ha
      by_cases hp : p a <;> simp [List.filter, hp, look, ih]
    · by_cases hp : p a <;> simp [List.filter, hp, look, ih, ha]

theorem look_append (m n : List (Nat × α)) (k : Nat) : look (m ++ n) k = (look m k).orElse (fun _ => look n k) := by
  induction m with
  | nil => rfl
  | cons e t ih =>
    obtain ⟨a, w⟩ := e
    by_cases h : a = k <;> simp [look, h, ih]

@[simp] theorem look_del_self (m : List (Nat × α)) (k : Nat) : look (del m k) k = none := by
  have h := look_filter m (fun a => a != k) k
  simpa [del] using h

theorem look_del_of_ne (m : List (Nat × α)) (k j : Nat) (h : j ≠ k) : look (del m k) j = look m j := by
  have e := look_filter m (fun a => a != k) j
  simpa [del, h] using e

/-! ### The canonical form -/

theorem memWfFrom_mono {lo hi : Nat} {m : List Host.Cell} (h : memWfFrom hi m = true) (hl : lo ≤ hi) :
    memWfFrom lo m = true := by
  cases m with
  | nil => rfl
  | cons e t =>
    obtain ⟨a, b⟩ := e
    simp only [memWfFrom, Bool.and_eq_true, decide_eq_true_eq] at h ⊢
    exact ⟨⟨by omega, h.1.2⟩, h.2⟩

/-- Taking cells out keeps the canonical form. -/
theorem memWfFrom_filter (p : Host.Cell → Bool) {lo : Nat} {m : List Host.Cell} (h : memWfFrom lo m = true) :
    memWfFrom lo (m.filter p) = true := by
  induction m generalizing lo with
  | nil => rfl
  | cons e t ih =>
    obtain ⟨a, b⟩ := e
    simp only [memWfFrom, Bool.and_eq_true, decide_eq_true_eq] at h
    by_cases hp : p (a, b)
    · simp [List.filter, hp, memWfFrom, h.1.1, ih h.2]
      simpa using h.1.2
    · simp only [List.filter, hp]
      exact memWfFrom_mono (ih h.2) (by omega)

theorem Memory.wf_filter (p : Host.Cell → Bool) {m : List Host.Cell} (h : Memory.wf m = true) :
    Memory.wf (m.filter p) = true := memWfFrom_filter p h

/-- Canonical lists one after the other are canonical if the first lies below where the second starts. -/
theorem memWfFrom_append {lo mid : Nat} {m n : List Host.Cell} (hm : memWfFrom lo m = true) (hl : lo ≤ mid)
    (hb : ∀ e ∈ m, e.1 < mid) (hn : memWfFrom mid n = true) : memWfFrom lo (m ++ n) = true := by
  induction m generalizing lo with
  | nil => exact memWfFrom_mono hn hl
  | cons e t ih =>
    obtain ⟨a, b⟩ := e
    simp only [memWfFrom, Bool.and_eq_true, decide_eq_true_eq] at hm
    have ha : a < mid := hb (a, b) (by simp)
    simp only [List.cons_append, memWfFrom, Bool.and_eq_true, decide_eq_true_eq]
    exact ⟨⟨hm.1.1, hm.1.2⟩, ih hm.2 (by omega) (fun e he => hb e (by simp [he]))⟩

theorem memWfFrom_raise {lo hi : Nat} {m : List Host.Cell} (h : memWfFrom lo m = true) (hb : ∀ e ∈ m, hi ≤ e.1) :
    memWfFrom hi m = true := by
  cases m with
  | nil => rfl
  | cons e t =>
    obtain ⟨a, b⟩ := e
    simp only [memWfFrom, Bool.and_eq_true, decide_eq_true_eq] at h ⊢
    exact ⟨⟨hb (a, b) (by simp), h.1.2⟩, h.2⟩

theorem cellsOf_wf (a : Nat) (bs : List Byte) : memWfFrom a (cellsOf a bs) = true := by
  induction bs generalizing a with
  | nil => rfl
  | cons b t ih =>
    unfold cellsOf
    split
    · exact memWfFrom_mono (ih (a + 1)) (by omega)
    · rename_i h
      simp only [memWfFrom, Bool.and_eq_true, decide_eq_true_eq, bne_iff_ne, ne_eq]
      exact ⟨⟨Nat.le_refl a, h⟩, ih (a + 1)⟩

theorem cellsOf_bound (a : Nat) (bs : List Byte) : ∀ e ∈ cellsOf a bs, a ≤ e.1 ∧ e.1 < a + bs.length := by
  induction bs generalizing a with
  | nil => simp [cellsOf]
  | cons b t ih =>
    intro e he
    have key : e ∈ cellsOf (a + 1) t → a ≤ e.1 ∧ e.1 < a + (b :: t).length := fun h => by
      have := ih (a + 1) e h
      simp only [List.length_cons]
      omega
    unfold cellsOf at he
    split at he
    · exact key he
    · rcases List.mem_cons.mp he with h | h
      · subst h
        simp
      · exact key h

/-- A store keeps the canonical form. -/
theorem memPuts_wf (a : Nat) (bs : List Byte) {m : List Host.Cell} (h : Memory.wf m = true) :
    Memory.wf (memPuts m a bs) = true := by
  have h1 : memWfFrom 0 (m.filter (fun e => decide (e.1 < a)) ++ cellsOf a bs) = true :=
    memWfFrom_append (mid := a) (memWfFrom_filter _ h) (by omega)
      (fun e he => by simpa using (List.mem_filter.mp he).2) (cellsOf_wf a bs)
  refine memWfFrom_append (mid := a + bs.length) h1 (by omega) ?_ (memWfFrom_raise (memWfFrom_filter _ h) ?_)
  · intro e he
    rcases List.mem_append.mp he with h2 | h2
    · have : e.1 < a := by simpa using (List.mem_filter.mp h2).2
      omega
    · exact (cellsOf_bound a bs e h2).2
  · intro e he
    simpa using (List.mem_filter.mp he).2

/-! ### Read after write -/

theorem look_cellsOf (bs : List Byte) : ∀ a x, look (cellsOf a bs) x =
    if a ≤ x then (bs[x - a]?).bind (fun b => if b = 0 then none else some b) else none := by
  induction bs with
  | nil => intro a x; simp [cellsOf]
  | cons b t ih =>
    intro a x
    rw [cellsOf]
    by_cases hx : a = x
    · subst hx
      have hn : look (cellsOf (a + 1) t) a = none := by
        rw [ih, if_neg (by omega)]
      split
      · rename_i hb
        rw [hn, if_pos (Nat.le_refl a)]
        simp [hb]
      · rename_i hb
        rw [look, if_pos rfl, if_pos (Nat.le_refl a), Nat.sub_self]
        exact (if_neg hb).symm
    · have hi : look (cellsOf (a + 1) t) x =
          if a ≤ x then ((b :: t)[x - a]?).bind (fun b => if b = 0 then none else some b) else none := by
        rw [ih]
        by_cases h : a + 1 ≤ x
        · have e : x - a = (x - (a + 1)) + 1 := by omega
          rw [if_pos h, if_pos (by omega), e, List.getElem?_cons_succ]
        · rw [if_neg h, if_neg (by omega)]
      split
      · exact hi
      · rw [look, if_neg hx]
        exact hi

/-- What memory lists after a store. -/
theorem look_memPuts (m : List Host.Cell) (a : Nat) (bs : List Byte) (x : Nat) :
    look (memPuts m a bs) x =
      if a ≤ x ∧ x < a + bs.length then (bs[x - a]?).bind (fun b => if b = 0 then none else some b) else look m x := by
  unfold memPuts
  have f1 := look_filter m (fun e => decide (e < a)) x
  have f2 := look_filter m (fun e => decide (a + bs.length ≤ e)) x
  rw [look_append, look_append, f1, f2, look_cellsOf]
  by_cases h1 : x < a
  · have e1 : ¬ a ≤ x := by omega
    have e2 : ¬ a + bs.length ≤ x := by omega
    simp [h1, e1, e2]
  · by_cases h2 : x < a + bs.length
    · have e1 : a ≤ x := by omega
      have e2 : ¬ a + bs.length ≤ x := by omega
      simp [h1, h2, e1, e2]
    · have e1 : a ≤ x := by omega
      have e2 : a + bs.length ≤ x := by omega
      have e3 : bs[x - a]? = none := by
        rw [List.getElem?_eq_none_iff]
        omega
      simp [h1, h2, e2, e3]

@[simp] theorem poke_mem (a : Nat) (bs : List Byte) (s : State) : (poke a bs s).mem = memPuts s.mem a bs := by
  unfold poke dropFormer
  split <;> rfl

/-- A store keeps the canonical form of the state's memory. -/
theorem poke_wf (a : Nat) (bs : List Byte) {s : State} (h : Memory.wf s.mem = true) :
    Memory.wf (poke a bs s).mem = true := by
  rw [poke_mem]
  exact memPuts_wf a bs h

/-- A stored byte is outside every former check area; the others are where they were. -/
theorem find_cutFormer (a b x : Nat) (l : List (Nat × Nat × Nat)) :
    ((l.flatMap (cutFormer a b)).find? (fun e => e.1 ≤ x && x < e.2.1)).map (·.2.2) =
      if a ≤ x ∧ x < b then none else (l.find? (fun e => e.1 ≤ x && x < e.2.1)).map (·.2.2) := by
  induction l with
  | nil => simp
  | cons e t ih =>
    obtain ⟨lo, hi, k⟩ := e
    rw [List.flatMap_cons, List.find?_append]
    generalize List.flatMap (cutFormer a b) t = rest at ih ⊢
    unfold cutFormer
    by_cases h1 : b ≤ lo || hi ≤ a
    · rw [if_pos h1]
      simp only [Bool.or_eq_true, decide_eq_true_eq] at h1
      by_cases hx : lo ≤ x ∧ x < hi
      · have hn : ¬ (a ≤ x ∧ x < b) := by omega
        simp [List.find?, hx.1, hx.2, hn]
      · have hf : (decide (lo ≤ x) && decide (x < hi)) = false := by
          by_cases h : lo ≤ x <;> simp [h] <;> omega
        simp [List.find?, hf, ih]
    · rw [if_neg h1]
      simp only [Bool.or_eq_true, decide_eq_true_eq, not_or] at h1
      by_cases hx : lo ≤ x ∧ x < hi
      · by_cases hr : a ≤ x ∧ x < b
        · have e1 : ¬ x < a := by omega
          have e2 : ¬ b ≤ x := by omega
          rw [if_pos hr] at ih ⊢
          rw [← ih]
          by_cases c1 : lo < a <;> by_cases c2 : b < hi <;> simp [List.find?, c1, c2, e1, e2]
        · rw [if_neg hr]
          by_cases c1 : x < a
          · have c2 : lo < a := by omega
            simp [List.find?, c1, c2, hx.1, hx.2]
          · have c2 : b ≤ x := by omega
            have c3 : b < hi := by omega
            by_cases c4 : lo < a <;> simp [List.find?, c1, c2, c3, c4, hx.1, hx.2]
      · have hf : (decide (lo ≤ x) && decide (x < hi)) = false := by
          by_cases h : lo ≤ x <;> simp [h] <;> omega
        have g1 : lo < a → (decide (lo ≤ x) && decide (x < a)) = false := by
          intro _
          by_cases h : lo ≤ x <;> simp [h] <;> omega
        have g2 : b < hi → (decide (b ≤ x) && decide (x < hi)) = false := by
          intro _
          by_cases h : b ≤ x <;> simp [h] <;> omega
        rw [List.find?_cons_of_neg (by simpa using hf), ← ih]
        by_cases c1 : lo < a <;> by_cases c2 : b < hi <;> simp [List.find?, c1, c2, g1, g2]

theorem poke_formerAt (a : Nat) (bs : List Byte) (s : State) (x : Nat) :
    (poke a bs s).formerAt x = if a ≤ x ∧ x < a + bs.length then none else s.formerAt x := by
  unfold poke dropFormer
  split
  · rename_i h
    have h : s.mc.former = [] := by simpa using h
    simp [State.formerAt, h]
  · exact find_cutFormer a (a + bs.length) x s.mc.former

theorem peek_eq (s : State) (x : Nat) (hx : Config.romSize ≤ x) :
    s.peek x = match look s.mem x, s.formerAt x with
      | some b, _ => b
      | none, some k => Config.checkByte k x
      | none, none => 0 := if_neg (Nat.not_lt.mpr hx)

/-- What every byte reads after a store: a stored byte as stored, the others as before (R22; the ROM is never stored to). -/
theorem poke_peek (a : Nat) (bs : List Byte) (s : State) (x : Nat) (hx : Config.romSize ≤ x) :
    (poke a bs s).peek x = if a ≤ x ∧ x < a + bs.length then bs.getD (x - a) 0 else s.peek x := by
  rw [peek_eq _ x hx, peek_eq _ x hx, poke_mem, look_memPuts, poke_formerAt]
  by_cases h : a ≤ x ∧ x < a + bs.length
  · rw [if_pos h, if_pos h, if_pos h]
    have hl : x - a < bs.length := by omega
    rw [List.getElem?_eq_getElem hl, List.getD_eq_getElem?_getD, List.getElem?_eq_getElem hl]
    by_cases hb : bs[x - a] = 0
    · simp only [Option.bind_some, hb, if_true, Option.getD_some]
    · simp only [Option.bind_some, if_neg hb, Option.getD_some]
  · rw [if_neg h, if_neg h, if_neg h]

/-- A store leaves every byte outside it as it was. -/
theorem poke_peek_outside (a : Nat) (bs : List Byte) (s : State) (x : Nat) (h : x < a ∨ a + bs.length ≤ x) :
    (poke a bs s).peek x = s.peek x := by
  by_cases hx : Config.romSize ≤ x
  · rw [poke_peek a bs s x hx, if_neg (by omega)]
  · have : x < Config.romSize := by omega
    simp [State.peek, this]

end Sys2Proof.Machine
end

