-- ==== Sys2Proof/Laws/State.lean ====
section
/-! SUPPORT. The small laws of State: what each named update leaves as it was, field by field, and what the register file
reads after a write. -/

namespace Sys2Proof.Machine

/-! ### Updates -/

@[simp] theorem wr_pending (a : Nat) (w : Word) (s : State) : (wr a w s).pending = s.pending := rfl
@[simp] theorem wr_variant (a : Nat) (w : Word) (s : State) : (wr a w s).variant = s.variant := rfl
@[simp] theorem wr_now (a : Nat) (w : Word) (s : State) : (wr a w s).now = s.now := rfl
@[simp] theorem wr_fresh (a : Nat) (w : Word) (s : State) : (wr a w s).fresh = s.fresh := rfl
@[simp] theorem wr_live (a : Nat) (w : Word) (s : State) : (wr a w s).live = s.live := rfl
@[simp] theorem wr_mem (a : Nat) (w : Word) (s : State) : (wr a w s).mem = s.mem := rfl
@[simp] theorem wr_bus (a : Nat) (w : Word) (s : State) : (wr a w s).bus = s.bus := rfl
@[simp] theorem wr_latch (a : Nat) (w : Word) (s : State) : (wr a w s).latch = s.latch := rfl
@[simp] theorem wr_evr (a : Nat) (w : Word) (s : State) : (wr a w s).evr = s.evr := rfl
@[simp] theorem wr_err (a : Nat) (w : Word) (s : State) : (wr a w s).err = s.err := rfl
@[simp] theorem wr_tsu (a : Nat) (w : Word) (s : State) : (wr a w s).tsu = s.tsu := rfl
@[simp] theorem wr_ref (a : Nat) (w : Word) (s : State) : (wr a w s).ref = s.ref := rfl
@[simp] theorem wr_pwr (a : Nat) (w : Word) (s : State) : (wr a w s).pwr = s.pwr := rfl
@[simp] theorem wr_thm (a : Nat) (w : Word) (s : State) : (wr a w s).thm = s.thm := rfl
@[simp] theorem wr_mc (a : Nat) (w : Word) (s : State) : (wr a w s).mc = s.mc := rfl
@[simp] theorem wr_rings (a : Nat) (w : Word) (s : State) : (wr a w s).rings = s.rings := rfl
@[simp] theorem wr_ports (a : Nat) (w : Word) (s : State) : (wr a w s).ports = s.ports := rfl
@[simp] theorem wr_groups (a : Nat) (w : Word) (s : State) : (wr a w s).groups = s.groups := rfl
@[simp] theorem wr_ips (a : Nat) (w : Word) (s : State) : (wr a w s).ips = s.ips := rfl
@[simp] theorem wr_pods (a : Nat) (w : Word) (s : State) : (wr a w s).pods = s.pods := rfl
@[simp] theorem wr_pips (a : Nat) (w : Word) (s : State) : (wr a w s).pips = s.pips := rfl
@[simp] theorem wr_slots (a : Nat) (w : Word) (s : State) : (wr a w s).slots = s.slots := rfl
@[simp] theorem wr_feeds (a : Nat) (w : Word) (s : State) : (wr a w s).feeds = s.feeds := rfl
@[simp] theorem wr_prcs (a : Nat) (w : Word) (s : State) : (wr a w s).prcs = s.prcs := rfl
@[simp] theorem wr_prd (a : Nat) (w : Word) (s : State) : (wr a w s).prd = s.prd := rfl
@[simp] theorem wr_hvc (a : Nat) (w : Word) (s : State) : (wr a w s).hvc = s.hvc := rfl
@[simp] theorem wr_pke (a : Nat) (w : Word) (s : State) : (wr a w s).pke = s.pke := rfl
@[simp] theorem wr_media (a : Nat) (w : Word) (s : State) : (wr a w s).media = s.media := rfl
@[simp] theorem wr_rm (a : Nat) (w : Word) (s : State) : (wr a w s).rm = s.rm := rfl
@[simp] theorem wr_oep (a : Nat) (w : Word) (s : State) : (wr a w s).oep = s.oep := rfl
@[simp] theorem wr_sco (a : Nat) (w : Word) (s : State) : (wr a w s).sco = s.sco := rfl
@[simp] theorem wr_auds (a : Nat) (w : Word) (s : State) : (wr a w s).auds = s.auds := rfl
@[simp] theorem wr_nets (a : Nat) (w : Word) (s : State) : (wr a w s).nets = s.nets := rfl
@[simp] theorem wr_nstrs (a : Nat) (w : Word) (s : State) : (wr a w s).nstrs = s.nstrs := rfl
@[simp] theorem wr_pfis (a : Nat) (w : Word) (s : State) : (wr a w s).pfis = s.pfis := rfl
@[simp] theorem wr_cfg (a : Nat) (w : Word) (s : State) : (wr a w s).cfg = s.cfg := rfl
@[simp] theorem wr_mon (a : Nat) (w : Word) (s : State) : (wr a w s).mon = s.mon := rfl

@[simp] theorem setF_pending (x : Fld) (v : Nat) (s : State) : (setF x v s).pending = s.pending := rfl
@[simp] theorem setF_variant (x : Fld) (v : Nat) (s : State) : (setF x v s).variant = s.variant := rfl
@[simp] theorem setF_now (x : Fld) (v : Nat) (s : State) : (setF x v s).now = s.now := rfl
@[simp] theorem setF_fresh (x : Fld) (v : Nat) (s : State) : (setF x v s).fresh = s.fresh := rfl
@[simp] theorem setF_live (x : Fld) (v : Nat) (s : State) : (setF x v s).live = s.live := rfl
@[simp] theorem setF_mem (x : Fld) (v : Nat) (s : State) : (setF x v s).mem = s.mem := rfl
@[simp] theorem setF_bus (x : Fld) (v : Nat) (s : State) : (setF x v s).bus = s.bus := rfl
@[simp] theorem setF_latch (x : Fld) (v : Nat) (s : State) : (setF x v s).latch = s.latch := rfl
@[simp] theorem setF_evr (x : Fld) (v : Nat) (s : State) : (setF x v s).evr = s.evr := rfl
@[simp] theorem setF_err (x : Fld) (v : Nat) (s : State) : (setF x v s).err = s.err := rfl
@[simp] theorem setF_tsu (x : Fld) (v : Nat) (s : State) : (setF x v s).tsu = s.tsu := rfl
@[simp] theorem setF_ref (x : Fld) (v : Nat) (s : State) : (setF x v s).ref = s.ref := rfl
@[simp] theorem setF_pwr (x : Fld) (v : Nat) (s : State) : (setF x v s).pwr = s.pwr := rfl
@[simp] theorem setF_thm (x : Fld) (v : Nat) (s : State) : (setF x v s).thm = s.thm := rfl
@[simp] theorem setF_mc (x : Fld) (v : Nat) (s : State) : (setF x v s).mc = s.mc := rfl
@[simp] theorem setF_rings (x : Fld) (v : Nat) (s : State) : (setF x v s).rings = s.rings := rfl
@[simp] theorem setF_ports (x : Fld) (v : Nat) (s : State) : (setF x v s).ports = s.ports := rfl
@[simp] theorem setF_groups (x : Fld) (v : Nat) (s : State) : (setF x v s).groups = s.groups := rfl
@[simp] theorem setF_ips (x : Fld) (v : Nat) (s : State) : (setF x v s).ips = s.ips := rfl
@[simp] theorem setF_pods (x : Fld) (v : Nat) (s : State) : (setF x v s).pods = s.pods := rfl
@[simp] theorem setF_pips (x : Fld) (v : Nat) (s : State) : (setF x v s).pips = s.pips := rfl
@[simp] theorem setF_slots (x : Fld) (v : Nat) (s : State) : (setF x v s).slots = s.slots := rfl
@[simp] theorem setF_feeds (x : Fld) (v : Nat) (s : State) : (setF x v s).feeds = s.feeds := rfl
@[simp] theorem setF_prcs (x : Fld) (v : Nat) (s : State) : (setF x v s).prcs = s.prcs := rfl
@[simp] theorem setF_prd (x : Fld) (v : Nat) (s : State) : (setF x v s).prd = s.prd := rfl
@[simp] theorem setF_hvc (x : Fld) (v : Nat) (s : State) : (setF x v s).hvc = s.hvc := rfl
@[simp] theorem setF_pke (x : Fld) (v : Nat) (s : State) : (setF x v s).pke = s.pke := rfl
@[simp] theorem setF_media (x : Fld) (v : Nat) (s : State) : (setF x v s).media = s.media := rfl
@[simp] theorem setF_rm (x : Fld) (v : Nat) (s : State) : (setF x v s).rm = s.rm := rfl
@[simp] theorem setF_oep (x : Fld) (v : Nat) (s : State) : (setF x v s).oep = s.oep := rfl
@[simp] theorem setF_sco (x : Fld) (v : Nat) (s : State) : (setF x v s).sco = s.sco := rfl
@[simp] theorem setF_auds (x : Fld) (v : Nat) (s : State) : (setF x v s).auds = s.auds := rfl
@[simp] theorem setF_nets (x : Fld) (v : Nat) (s : State) : (setF x v s).nets = s.nets := rfl
@[simp] theorem setF_nstrs (x : Fld) (v : Nat) (s : State) : (setF x v s).nstrs = s.nstrs := rfl
@[simp] theorem setF_pfis (x : Fld) (v : Nat) (s : State) : (setF x v s).pfis = s.pfis := rfl
@[simp] theorem setF_cfg (x : Fld) (v : Nat) (s : State) : (setF x v s).cfg = s.cfg := rfl
@[simp] theorem setF_mon (x : Fld) (v : Nat) (s : State) : (setF x v s).mon = s.mon := rfl

@[simp] theorem flag_pending (x : Fld) (s : State) : (flag x s).pending = s.pending := rfl
@[simp] theorem flag_variant (x : Fld) (s : State) : (flag x s).variant = s.variant := rfl
@[simp] theorem flag_now (x : Fld) (s : State) : (flag x s).now = s.now := rfl
@[simp] theorem flag_fresh (x : Fld) (s : State) : (flag x s).fresh = s.fresh := rfl
@[simp] theorem flag_live (x : Fld) (s : State) : (flag x s).live = s.live := rfl
@[simp] theorem flag_mem (x : Fld) (s : State) : (flag x s).mem = s.mem := rfl
@[simp] theorem flag_bus (x : Fld) (s : State) : (flag x s).bus = s.bus := rfl
@[simp] theorem flag_latch (x : Fld) (s : State) : (flag x s).latch = s.latch := rfl
@[simp] theorem flag_evr (x : Fld) (s : State) : (flag x s).evr = s.evr := rfl
@[simp] theorem flag_err (x : Fld) (s : State) : (flag x s).err = s.err := rfl
@[simp] theorem flag_tsu (x : Fld) (s : State) : (flag x s).tsu = s.tsu := rfl
@[simp] theorem flag_ref (x : Fld) (s : State) : (flag x s).ref = s.ref := rfl
@[simp] theorem flag_pwr (x : Fld) (s : State) : (flag x s).pwr = s.pwr := rfl
@[simp] theorem flag_thm (x : Fld) (s : State) : (flag x s).thm = s.thm := rfl
@[simp] theorem flag_mc (x : Fld) (s : State) : (flag x s).mc = s.mc := rfl
@[simp] theorem flag_rings (x : Fld) (s : State) : (flag x s).rings = s.rings := rfl
@[simp] theorem flag_ports (x : Fld) (s : State) : (flag x s).ports = s.ports := rfl
@[simp] theorem flag_groups (x : Fld) (s : State) : (flag x s).groups = s.groups := rfl
@[simp] theorem flag_ips (x : Fld) (s : State) : (flag x s).ips = s.ips := rfl
@[simp] theorem flag_pods (x : Fld) (s : State) : (flag x s).pods = s.pods := rfl
@[simp] theorem flag_pips (x : Fld) (s : State) : (flag x s).pips = s.pips := rfl
@[simp] theorem flag_slots (x : Fld) (s : State) : (flag x s).slots = s.slots := rfl
@[simp] theorem flag_feeds (x : Fld) (s : State) : (flag x s).feeds = s.feeds := rfl
@[simp] theorem flag_prcs (x : Fld) (s : State) : (flag x s).prcs = s.prcs := rfl
@[simp] theorem flag_prd (x : Fld) (s : State) : (flag x s).prd = s.prd := rfl
@[simp] theorem flag_hvc (x : Fld) (s : State) : (flag x s).hvc = s.hvc := rfl
@[simp] theorem flag_pke (x : Fld) (s : State) : (flag x s).pke = s.pke := rfl
@[simp] theorem flag_media (x : Fld) (s : State) : (flag x s).media = s.media := rfl
@[simp] theorem flag_rm (x : Fld) (s : State) : (flag x s).rm = s.rm := rfl
@[simp] theorem flag_oep (x : Fld) (s : State) : (flag x s).oep = s.oep := rfl
@[simp] theorem flag_sco (x : Fld) (s : State) : (flag x s).sco = s.sco := rfl
@[simp] theorem flag_auds (x : Fld) (s : State) : (flag x s).auds = s.auds := rfl
@[simp] theorem flag_nets (x : Fld) (s : State) : (flag x s).nets = s.nets := rfl
@[simp] theorem flag_nstrs (x : Fld) (s : State) : (flag x s).nstrs = s.nstrs := rfl
@[simp] theorem flag_pfis (x : Fld) (s : State) : (flag x s).pfis = s.pfis := rfl
@[simp] theorem flag_cfg (x : Fld) (s : State) : (flag x s).cfg = s.cfg := rfl
@[simp] theorem flag_mon (x : Fld) (s : State) : (flag x s).mon = s.mon := rfl

@[simp] theorem bumpBy_pending (a n : Nat) (s : State) : (bumpBy a n s).pending = s.pending := rfl
@[simp] theorem bumpBy_variant (a n : Nat) (s : State) : (bumpBy a n s).variant = s.variant := rfl
@[simp] theorem bumpBy_now (a n : Nat) (s : State) : (bumpBy a n s).now = s.now := rfl
@[simp] theorem bumpBy_fresh (a n : Nat) (s : State) : (bumpBy a n s).fresh = s.fresh := rfl
@[simp] theorem bumpBy_live (a n : Nat) (s : State) : (bumpBy a n s).live = s.live := rfl
@[simp] theorem bumpBy_mem (a n : Nat) (s : State) : (bumpBy a n s).mem = s.mem := rfl
@[simp] theorem bumpBy_bus (a n : Nat) (s : State) : (bumpBy a n s).bus = s.bus := rfl
@[simp] theorem bumpBy_latch (a n : Nat) (s : State) : (bumpBy a n s).latch = s.latch := rfl
@[simp] theorem bumpBy_evr (a n : Nat) (s : State) : (bumpBy a n s).evr = s.evr := rfl
@[simp] theorem bumpBy_err (a n : Nat) (s : State) : (bumpBy a n s).err = s.err := rfl
@[simp] theorem bumpBy_tsu (a n : Nat) (s : State) : (bumpBy a n s).tsu = s.tsu := rfl
@[simp] theorem bumpBy_ref (a n : Nat) (s : State) : (bumpBy a n s).ref = s.ref := rfl
@[simp] theorem bumpBy_pwr (a n : Nat) (s : State) : (bumpBy a n s).pwr = s.pwr := rfl
@[simp] theorem bumpBy_thm (a n : Nat) (s : State) : (bumpBy a n s).thm = s.thm := rfl
@[simp] theorem bumpBy_mc (a n : Nat) (s : State) : (bumpBy a n s).mc = s.mc := rfl
@[simp] theorem bumpBy_rings (a n : Nat) (s : State) : (bumpBy a n s).rings = s.rings := rfl
@[simp] theorem bumpBy_ports (a n : Nat) (s : State) : (bumpBy a n s).ports = s.ports := rfl
@[simp] theorem bumpBy_groups (a n : Nat) (s : State) : (bumpBy a n s).groups = s.groups := rfl
@[simp] theorem bumpBy_ips (a n : Nat) (s : State) : (bumpBy a n s).ips = s.ips := rfl
@[simp] theorem bumpBy_pods (a n : Nat) (s : State) : (bumpBy a n s).pods = s.pods := rfl
@[simp] theorem bumpBy_pips (a n : Nat) (s : State) : (bumpBy a n s).pips = s.pips := rfl
@[simp] theorem bumpBy_slots (a n : Nat) (s : State) : (bumpBy a n s).slots = s.slots := rfl
@[simp] theorem bumpBy_feeds (a n : Nat) (s : State) : (bumpBy a n s).feeds = s.feeds := rfl
@[simp] theorem bumpBy_prcs (a n : Nat) (s : State) : (bumpBy a n s).prcs = s.prcs := rfl
@[simp] theorem bumpBy_prd (a n : Nat) (s : State) : (bumpBy a n s).prd = s.prd := rfl
@[simp] theorem bumpBy_hvc (a n : Nat) (s : State) : (bumpBy a n s).hvc = s.hvc := rfl
@[simp] theorem bumpBy_pke (a n : Nat) (s : State) : (bumpBy a n s).pke = s.pke := rfl
@[simp] theorem bumpBy_media (a n : Nat) (s : State) : (bumpBy a n s).media = s.media := rfl
@[simp] theorem bumpBy_rm (a n : Nat) (s : State) : (bumpBy a n s).rm = s.rm := rfl
@[simp] theorem bumpBy_oep (a n : Nat) (s : State) : (bumpBy a n s).oep = s.oep := rfl
@[simp] theorem bumpBy_sco (a n : Nat) (s : State) : (bumpBy a n s).sco = s.sco := rfl
@[simp] theorem bumpBy_auds (a n : Nat) (s : State) : (bumpBy a n s).auds = s.auds := rfl
@[simp] theorem bumpBy_nets (a n : Nat) (s : State) : (bumpBy a n s).nets = s.nets := rfl
@[simp] theorem bumpBy_nstrs (a n : Nat) (s : State) : (bumpBy a n s).nstrs = s.nstrs := rfl
@[simp] theorem bumpBy_pfis (a n : Nat) (s : State) : (bumpBy a n s).pfis = s.pfis := rfl
@[simp] theorem bumpBy_cfg (a n : Nat) (s : State) : (bumpBy a n s).cfg = s.cfg := rfl
@[simp] theorem bumpBy_mon (a n : Nat) (s : State) : (bumpBy a n s).mon = s.mon := rfl

@[simp] theorem bump_pending (a : Nat) (s : State) : (bump a s).pending = s.pending := rfl
@[simp] theorem bump_variant (a : Nat) (s : State) : (bump a s).variant = s.variant := rfl
@[simp] theorem bump_now (a : Nat) (s : State) : (bump a s).now = s.now := rfl
@[simp] theorem bump_fresh (a : Nat) (s : State) : (bump a s).fresh = s.fresh := rfl
@[simp] theorem bump_live (a : Nat) (s : State) : (bump a s).live = s.live := rfl
@[simp] theorem bump_mem (a : Nat) (s : State) : (bump a s).mem = s.mem := rfl
@[simp] theorem bump_bus (a : Nat) (s : State) : (bump a s).bus = s.bus := rfl
@[simp] theorem bump_latch (a : Nat) (s : State) : (bump a s).latch = s.latch := rfl
@[simp] theorem bump_evr (a : Nat) (s : State) : (bump a s).evr = s.evr := rfl
@[simp] theorem bump_err (a : Nat) (s : State) : (bump a s).err = s.err := rfl
@[simp] theorem bump_tsu (a : Nat) (s : State) : (bump a s).tsu = s.tsu := rfl
@[simp] theorem bump_ref (a : Nat) (s : State) : (bump a s).ref = s.ref := rfl
@[simp] theorem bump_pwr (a : Nat) (s : State) : (bump a s).pwr = s.pwr := rfl
@[simp] theorem bump_thm (a : Nat) (s : State) : (bump a s).thm = s.thm := rfl
@[simp] theorem bump_mc (a : Nat) (s : State) : (bump a s).mc = s.mc := rfl
@[simp] theorem bump_rings (a : Nat) (s : State) : (bump a s).rings = s.rings := rfl
@[simp] theorem bump_ports (a : Nat) (s : State) : (bump a s).ports = s.ports := rfl
@[simp] theorem bump_groups (a : Nat) (s : State) : (bump a s).groups = s.groups := rfl
@[simp] theorem bump_ips (a : Nat) (s : State) : (bump a s).ips = s.ips := rfl
@[simp] theorem bump_pods (a : Nat) (s : State) : (bump a s).pods = s.pods := rfl
@[simp] theorem bump_pips (a : Nat) (s : State) : (bump a s).pips = s.pips := rfl
@[simp] theorem bump_slots (a : Nat) (s : State) : (bump a s).slots = s.slots := rfl
@[simp] theorem bump_feeds (a : Nat) (s : State) : (bump a s).feeds = s.feeds := rfl
@[simp] theorem bump_prcs (a : Nat) (s : State) : (bump a s).prcs = s.prcs := rfl
@[simp] theorem bump_prd (a : Nat) (s : State) : (bump a s).prd = s.prd := rfl
@[simp] theorem bump_hvc (a : Nat) (s : State) : (bump a s).hvc = s.hvc := rfl
@[simp] theorem bump_pke (a : Nat) (s : State) : (bump a s).pke = s.pke := rfl
@[simp] theorem bump_media (a : Nat) (s : State) : (bump a s).media = s.media := rfl
@[simp] theorem bump_rm (a : Nat) (s : State) : (bump a s).rm = s.rm := rfl
@[simp] theorem bump_oep (a : Nat) (s : State) : (bump a s).oep = s.oep := rfl
@[simp] theorem bump_sco (a : Nat) (s : State) : (bump a s).sco = s.sco := rfl
@[simp] theorem bump_auds (a : Nat) (s : State) : (bump a s).auds = s.auds := rfl
@[simp] theorem bump_nets (a : Nat) (s : State) : (bump a s).nets = s.nets := rfl
@[simp] theorem bump_nstrs (a : Nat) (s : State) : (bump a s).nstrs = s.nstrs := rfl
@[simp] theorem bump_pfis (a : Nat) (s : State) : (bump a s).pfis = s.pfis := rfl
@[simp] theorem bump_cfg (a : Nat) (s : State) : (bump a s).cfg = s.cfg := rfl
@[simp] theorem bump_mon (a : Nat) (s : State) : (bump a s).mon = s.mon := rfl

@[simp] theorem setPair_pending (lo hi v : Nat) (s : State) : (setPair lo hi v s).pending = s.pending := rfl
@[simp] theorem setPair_variant (lo hi v : Nat) (s : State) : (setPair lo hi v s).variant = s.variant := rfl
@[simp] theorem setPair_now (lo hi v : Nat) (s : State) : (setPair lo hi v s).now = s.now := rfl
@[simp] theorem setPair_fresh (lo hi v : Nat) (s : State) : (setPair lo hi v s).fresh = s.fresh := rfl
@[simp] theorem setPair_live (lo hi v : Nat) (s : State) : (setPair lo hi v s).live = s.live := rfl
@[simp] theorem setPair_mem (lo hi v : Nat) (s : State) : (setPair lo hi v s).mem = s.mem := rfl
@[simp] theorem setPair_bus (lo hi v : Nat) (s : State) : (setPair lo hi v s).bus = s.bus := rfl
@[simp] theorem setPair_latch (lo hi v : Nat) (s : State) : (setPair lo hi v s).latch = s.latch := rfl
@[simp] theorem setPair_evr (lo hi v : Nat) (s : State) : (setPair lo hi v s).evr = s.evr := rfl
@[simp] theorem setPair_err (lo hi v : Nat) (s : State) : (setPair lo hi v s).err = s.err := rfl
@[simp] theorem setPair_tsu (lo hi v : Nat) (s : State) : (setPair lo hi v s).tsu = s.tsu := rfl
@[simp] theorem setPair_ref (lo hi v : Nat) (s : State) : (setPair lo hi v s).ref = s.ref := rfl
@[simp] theorem setPair_pwr (lo hi v : Nat) (s : State) : (setPair lo hi v s).pwr = s.pwr := rfl
@[simp] theorem setPair_thm (lo hi v : Nat) (s : State) : (setPair lo hi v s).thm = s.thm := rfl
@[simp] theorem setPair_mc (lo hi v : Nat) (s : State) : (setPair lo hi v s).mc = s.mc := rfl
@[simp] theorem setPair_rings (lo hi v : Nat) (s : State) : (setPair lo hi v s).rings = s.rings := rfl
@[simp] theorem setPair_ports (lo hi v : Nat) (s : State) : (setPair lo hi v s).ports = s.ports := rfl
@[simp] theorem setPair_groups (lo hi v : Nat) (s : State) : (setPair lo hi v s).groups = s.groups := rfl
@[simp] theorem setPair_ips (lo hi v : Nat) (s : State) : (setPair lo hi v s).ips = s.ips := rfl
@[simp] theorem setPair_pods (lo hi v : Nat) (s : State) : (setPair lo hi v s).pods = s.pods := rfl
@[simp] theorem setPair_pips (lo hi v : Nat) (s : State) : (setPair lo hi v s).pips = s.pips := rfl
@[simp] theorem setPair_slots (lo hi v : Nat) (s : State) : (setPair lo hi v s).slots = s.slots := rfl
@[simp] theorem setPair_feeds (lo hi v : Nat) (s : State) : (setPair lo hi v s).feeds = s.feeds := rfl
@[simp] theorem setPair_prcs (lo hi v : Nat) (s : State) : (setPair lo hi v s).prcs = s.prcs := rfl
@[simp] theorem setPair_prd (lo hi v : Nat) (s : State) : (setPair lo hi v s).prd = s.prd := rfl
@[simp] theorem setPair_hvc (lo hi v : Nat) (s : State) : (setPair lo hi v s).hvc = s.hvc := rfl
@[simp] theorem setPair_pke (lo hi v : Nat) (s : State) : (setPair lo hi v s).pke = s.pke := rfl
@[simp] theorem setPair_media (lo hi v : Nat) (s : State) : (setPair lo hi v s).media = s.media := rfl
@[simp] theorem setPair_rm (lo hi v : Nat) (s : State) : (setPair lo hi v s).rm = s.rm := rfl
@[simp] theorem setPair_oep (lo hi v : Nat) (s : State) : (setPair lo hi v s).oep = s.oep := rfl
@[simp] theorem setPair_sco (lo hi v : Nat) (s : State) : (setPair lo hi v s).sco = s.sco := rfl
@[simp] theorem setPair_auds (lo hi v : Nat) (s : State) : (setPair lo hi v s).auds = s.auds := rfl
@[simp] theorem setPair_nets (lo hi v : Nat) (s : State) : (setPair lo hi v s).nets = s.nets := rfl
@[simp] theorem setPair_nstrs (lo hi v : Nat) (s : State) : (setPair lo hi v s).nstrs = s.nstrs := rfl
@[simp] theorem setPair_pfis (lo hi v : Nat) (s : State) : (setPair lo hi v s).pfis = s.pfis := rfl
@[simp] theorem setPair_cfg (lo hi v : Nat) (s : State) : (setPair lo hi v s).cfg = s.cfg := rfl
@[simp] theorem setPair_mon (lo hi v : Nat) (s : State) : (setPair lo hi v s).mon = s.mon := rfl

@[simp] theorem modPort_pending (n : Nat) (f : PortSt → PortSt) (s : State) : (modPort n f s).pending = s.pending := rfl
@[simp] theorem modPort_variant (n : Nat) (f : PortSt → PortSt) (s : State) : (modPort n f s).variant = s.variant := rfl
@[simp] theorem modPort_now (n : Nat) (f : PortSt → PortSt) (s : State) : (modPort n f s).now = s.now := rfl
@[simp] theorem modPort_fresh (n : Nat) (f : PortSt → PortSt) (s : State) : (modPort n f s).fresh = s.fresh := rfl
@[simp] theorem modPort_regs (n : Nat) (f : PortSt → PortSt) (s : State) : (modPort n f s).regs = s.regs := rfl
@[simp] theorem modPort_live (n : Nat) (f : PortSt → PortSt) (s : State) : (modPort n f s).live = s.live := rfl
@[simp] theorem modPort_mem (n : Nat) (f : PortSt → PortSt) (s : State) : (modPort n f s).mem = s.mem := rfl
@[simp] theorem modPort_bus (n : Nat) (f : PortSt → PortSt) (s : State) : (modPort n f s).bus = s.bus := rfl
@[simp] theorem modPort_latch (n : Nat) (f : PortSt → PortSt) (s : State) : (modPort n f s).latch = s.latch := rfl
@[simp] theorem modPort_evr (n : Nat) (f : PortSt → PortSt) (s : State) : (modPort n f s).evr = s.evr := rfl
@[simp] theorem modPort_err (n : Nat) (f : PortSt → PortSt) (s : State) : (modPort n f s).err = s.err := rfl
@[simp] theorem modPort_tsu (n : Nat) (f : PortSt → PortSt) (s : State) : (modPort n f s).tsu = s.tsu := rfl
@[simp] theorem modPort_ref (n : Nat) (f : PortSt → PortSt) (s : State) : (modPort n f s).ref = s.ref := rfl
@[simp] theorem modPort_pwr (n : Nat) (f : PortSt → PortSt) (s : State) : (modPort n f s).pwr = s.pwr := rfl
@[simp] theorem modPort_thm (n : Nat) (f : PortSt → PortSt) (s : State) : (modPort n f s).thm = s.thm := rfl
@[simp] theorem modPort_mc (n : Nat) (f : PortSt → PortSt) (s : State) : (modPort n f s).mc = s.mc := rfl
@[simp] theorem modPort_rings (n : Nat) (f : PortSt → PortSt) (s : State) : (modPort n f s).rings = s.rings := rfl
@[simp] theorem modPort_groups (n : Nat) (f : PortSt → PortSt) (s : State) : (modPort n f s).groups = s.groups := rfl
@[simp] theorem modPort_ips (n : Nat) (f : PortSt → PortSt) (s : State) : (modPort n f s).ips = s.ips := rfl
@[simp] theorem modPort_pods (n : Nat) (f : PortSt → PortSt) (s : State) : (modPort n f s).pods = s.pods := rfl
@[simp] theorem modPort_pips (n : Nat) (f : PortSt → PortSt) (s : State) : (modPort n f s).pips = s.pips := rfl
@[simp] theorem modPort_slots (n : Nat) (f : PortSt → PortSt) (s : State) : (modPort n f s).slots = s.slots := rfl
@[simp] theorem modPort_feeds (n : Nat) (f : PortSt → PortSt) (s : State) : (modPort n f s).feeds = s.feeds := rfl
@[simp] theorem modPort_prcs (n : Nat) (f : PortSt → PortSt) (s : State) : (modPort n f s).prcs = s.prcs := rfl
@[simp] theorem modPort_prd (n : Nat) (f : PortSt → PortSt) (s : State) : (modPort n f s).prd = s.prd := rfl
@[simp] theorem modPort_hvc (n : Nat) (f : PortSt → PortSt) (s : State) : (modPort n f s).hvc = s.hvc := rfl
@[simp] theorem modPort_pke (n : Nat) (f : PortSt → PortSt) (s : State) : (modPort n f s).pke = s.pke := rfl
@[simp] theorem modPort_media (n : Nat) (f : PortSt → PortSt) (s : State) : (modPort n f s).media = s.media := rfl
@[simp] theorem modPort_rm (n : Nat) (f : PortSt → PortSt) (s : State) : (modPort n f s).rm = s.rm := rfl
@[simp] theorem modPort_oep (n : Nat) (f : PortSt → PortSt) (s : State) : (modPort n f s).oep = s.oep := rfl
@[simp] theorem modPort_sco (n : Nat) (f : PortSt → PortSt) (s : State) : (modPort n f s).sco = s.sco := rfl
@[simp] theorem modPort_auds (n : Nat) (f : PortSt → PortSt) (s : State) : (modPort n f s).auds = s.auds := rfl
@[simp] theorem modPort_nets (n : Nat) (f : PortSt → PortSt) (s : State) : (modPort n f s).nets = s.nets := rfl
@[simp] theorem modPort_nstrs (n : Nat) (f : PortSt → PortSt) (s : State) : (modPort n f s).nstrs = s.nstrs := rfl
@[simp] theorem modPort_pfis (n : Nat) (f : PortSt → PortSt) (s : State) : (modPort n f s).pfis = s.pfis := rfl
@[simp] theorem modPort_cfg (n : Nat) (f : PortSt → PortSt) (s : State) : (modPort n f s).cfg = s.cfg := rfl
@[simp] theorem modPort_mon (n : Nat) (f : PortSt → PortSt) (s : State) : (modPort n f s).mon = s.mon := rfl

@[simp] theorem modJv_pending (n : Nat) (f : JvSt → JvSt) (s : State) : (modJv n f s).pending = s.pending := rfl
@[simp] theorem modJv_variant (n : Nat) (f : JvSt → JvSt) (s : State) : (modJv n f s).variant = s.variant := rfl
@[simp] theorem modJv_now (n : Nat) (f : JvSt → JvSt) (s : State) : (modJv n f s).now = s.now := rfl
@[simp] theorem modJv_fresh (n : Nat) (f : JvSt → JvSt) (s : State) : (modJv n f s).fresh = s.fresh := rfl
@[simp] theorem modJv_regs (n : Nat) (f : JvSt → JvSt) (s : State) : (modJv n f s).regs = s.regs := rfl
@[simp] theorem modJv_live (n : Nat) (f : JvSt → JvSt) (s : State) : (modJv n f s).live = s.live := rfl
@[simp] theorem modJv_mem (n : Nat) (f : JvSt → JvSt) (s : State) : (modJv n f s).mem = s.mem := rfl
@[simp] theorem modJv_bus (n : Nat) (f : JvSt → JvSt) (s : State) : (modJv n f s).bus = s.bus := rfl
@[simp] theorem modJv_latch (n : Nat) (f : JvSt → JvSt) (s : State) : (modJv n f s).latch = s.latch := rfl
@[simp] theorem modJv_evr (n : Nat) (f : JvSt → JvSt) (s : State) : (modJv n f s).evr = s.evr := rfl
@[simp] theorem modJv_err (n : Nat) (f : JvSt → JvSt) (s : State) : (modJv n f s).err = s.err := rfl
@[simp] theorem modJv_tsu (n : Nat) (f : JvSt → JvSt) (s : State) : (modJv n f s).tsu = s.tsu := rfl
@[simp] theorem modJv_ref (n : Nat) (f : JvSt → JvSt) (s : State) : (modJv n f s).ref = s.ref := rfl
@[simp] theorem modJv_pwr (n : Nat) (f : JvSt → JvSt) (s : State) : (modJv n f s).pwr = s.pwr := rfl
@[simp] theorem modJv_thm (n : Nat) (f : JvSt → JvSt) (s : State) : (modJv n f s).thm = s.thm := rfl
@[simp] theorem modJv_mc (n : Nat) (f : JvSt → JvSt) (s : State) : (modJv n f s).mc = s.mc := rfl
@[simp] theorem modJv_rings (n : Nat) (f : JvSt → JvSt) (s : State) : (modJv n f s).rings = s.rings := rfl
@[simp] theorem modJv_groups (n : Nat) (f : JvSt → JvSt) (s : State) : (modJv n f s).groups = s.groups := rfl
@[simp] theorem modJv_ips (n : Nat) (f : JvSt → JvSt) (s : State) : (modJv n f s).ips = s.ips := rfl
@[simp] theorem modJv_pods (n : Nat) (f : JvSt → JvSt) (s : State) : (modJv n f s).pods = s.pods := rfl
@[simp] theorem modJv_pips (n : Nat) (f : JvSt → JvSt) (s : State) : (modJv n f s).pips = s.pips := rfl
@[simp] theorem modJv_slots (n : Nat) (f : JvSt → JvSt) (s : State) : (modJv n f s).slots = s.slots := rfl
@[simp] theorem modJv_feeds (n : Nat) (f : JvSt → JvSt) (s : State) : (modJv n f s).feeds = s.feeds := rfl
@[simp] theorem modJv_prcs (n : Nat) (f : JvSt → JvSt) (s : State) : (modJv n f s).prcs = s.prcs := rfl
@[simp] theorem modJv_prd (n : Nat) (f : JvSt → JvSt) (s : State) : (modJv n f s).prd = s.prd := rfl
@[simp] theorem modJv_hvc (n : Nat) (f : JvSt → JvSt) (s : State) : (modJv n f s).hvc = s.hvc := rfl
@[simp] theorem modJv_pke (n : Nat) (f : JvSt → JvSt) (s : State) : (modJv n f s).pke = s.pke := rfl
@[simp] theorem modJv_media (n : Nat) (f : JvSt → JvSt) (s : State) : (modJv n f s).media = s.media := rfl
@[simp] theorem modJv_rm (n : Nat) (f : JvSt → JvSt) (s : State) : (modJv n f s).rm = s.rm := rfl
@[simp] theorem modJv_oep (n : Nat) (f : JvSt → JvSt) (s : State) : (modJv n f s).oep = s.oep := rfl
@[simp] theorem modJv_sco (n : Nat) (f : JvSt → JvSt) (s : State) : (modJv n f s).sco = s.sco := rfl
@[simp] theorem modJv_auds (n : Nat) (f : JvSt → JvSt) (s : State) : (modJv n f s).auds = s.auds := rfl
@[simp] theorem modJv_nets (n : Nat) (f : JvSt → JvSt) (s : State) : (modJv n f s).nets = s.nets := rfl
@[simp] theorem modJv_nstrs (n : Nat) (f : JvSt → JvSt) (s : State) : (modJv n f s).nstrs = s.nstrs := rfl
@[simp] theorem modJv_pfis (n : Nat) (f : JvSt → JvSt) (s : State) : (modJv n f s).pfis = s.pfis := rfl
@[simp] theorem modJv_cfg (n : Nat) (f : JvSt → JvSt) (s : State) : (modJv n f s).cfg = s.cfg := rfl
@[simp] theorem modJv_mon (n : Nat) (f : JvSt → JvSt) (s : State) : (modJv n f s).mon = s.mon := rfl

@[simp] theorem modSs_pending (n : Nat) (f : SsSt → SsSt) (s : State) : (modSs n f s).pending = s.pending := rfl
@[simp] theorem modSs_variant (n : Nat) (f : SsSt → SsSt) (s : State) : (modSs n f s).variant = s.variant := rfl
@[simp] theorem modSs_now (n : Nat) (f : SsSt → SsSt) (s : State) : (modSs n f s).now = s.now := rfl
@[simp] theorem modSs_fresh (n : Nat) (f : SsSt → SsSt) (s : State) : (modSs n f s).fresh = s.fresh := rfl
@[simp] theorem modSs_regs (n : Nat) (f : SsSt → SsSt) (s : State) : (modSs n f s).regs = s.regs := rfl
@[simp] theorem modSs_live (n : Nat) (f : SsSt → SsSt) (s : State) : (modSs n f s).live = s.live := rfl
@[simp] theorem modSs_mem (n : Nat) (f : SsSt → SsSt) (s : State) : (modSs n f s).mem = s.mem := rfl
@[simp] theorem modSs_bus (n : Nat) (f : SsSt → SsSt) (s : State) : (modSs n f s).bus = s.bus := rfl
@[simp] theorem modSs_latch (n : Nat) (f : SsSt → SsSt) (s : State) : (modSs n f s).latch = s.latch := rfl
@[simp] theorem modSs_evr (n : Nat) (f : SsSt → SsSt) (s : State) : (modSs n f s).evr = s.evr := rfl
@[simp] theorem modSs_err (n : Nat) (f : SsSt → SsSt) (s : State) : (modSs n f s).err = s.err := rfl
@[simp] theorem modSs_tsu (n : Nat) (f : SsSt → SsSt) (s : State) : (modSs n f s).tsu = s.tsu := rfl
@[simp] theorem modSs_ref (n : Nat) (f : SsSt → SsSt) (s : State) : (modSs n f s).ref = s.ref := rfl
@[simp] theorem modSs_pwr (n : Nat) (f : SsSt → SsSt) (s : State) : (modSs n f s).pwr = s.pwr := rfl
@[simp] theorem modSs_thm (n : Nat) (f : SsSt → SsSt) (s : State) : (modSs n f s).thm = s.thm := rfl
@[simp] theorem modSs_mc (n : Nat) (f : SsSt → SsSt) (s : State) : (modSs n f s).mc = s.mc := rfl
@[simp] theorem modSs_rings (n : Nat) (f : SsSt → SsSt) (s : State) : (modSs n f s).rings = s.rings := rfl
@[simp] theorem modSs_groups (n : Nat) (f : SsSt → SsSt) (s : State) : (modSs n f s).groups = s.groups := rfl
@[simp] theorem modSs_ips (n : Nat) (f : SsSt → SsSt) (s : State) : (modSs n f s).ips = s.ips := rfl
@[simp] theorem modSs_pods (n : Nat) (f : SsSt → SsSt) (s : State) : (modSs n f s).pods = s.pods := rfl
@[simp] theorem modSs_pips (n : Nat) (f : SsSt → SsSt) (s : State) : (modSs n f s).pips = s.pips := rfl
@[simp] theorem modSs_slots (n : Nat) (f : SsSt → SsSt) (s : State) : (modSs n f s).slots = s.slots := rfl
@[simp] theorem modSs_feeds (n : Nat) (f : SsSt → SsSt) (s : State) : (modSs n f s).feeds = s.feeds := rfl
@[simp] theorem modSs_prcs (n : Nat) (f : SsSt → SsSt) (s : State) : (modSs n f s).prcs = s.prcs := rfl
@[simp] theorem modSs_prd (n : Nat) (f : SsSt → SsSt) (s : State) : (modSs n f s).prd = s.prd := rfl
@[simp] theorem modSs_hvc (n : Nat) (f : SsSt → SsSt) (s : State) : (modSs n f s).hvc = s.hvc := rfl
@[simp] theorem modSs_pke (n : Nat) (f : SsSt → SsSt) (s : State) : (modSs n f s).pke = s.pke := rfl
@[simp] theorem modSs_media (n : Nat) (f : SsSt → SsSt) (s : State) : (modSs n f s).media = s.media := rfl
@[simp] theorem modSs_rm (n : Nat) (f : SsSt → SsSt) (s : State) : (modSs n f s).rm = s.rm := rfl
@[simp] theorem modSs_oep (n : Nat) (f : SsSt → SsSt) (s : State) : (modSs n f s).oep = s.oep := rfl
@[simp] theorem modSs_sco (n : Nat) (f : SsSt → SsSt) (s : State) : (modSs n f s).sco = s.sco := rfl
@[simp] theorem modSs_auds (n : Nat) (f : SsSt → SsSt) (s : State) : (modSs n f s).auds = s.auds := rfl
@[simp] theorem modSs_nets (n : Nat) (f : SsSt → SsSt) (s : State) : (modSs n f s).nets = s.nets := rfl
@[simp] theorem modSs_nstrs (n : Nat) (f : SsSt → SsSt) (s : State) : (modSs n f s).nstrs = s.nstrs := rfl
@[simp] theorem modSs_pfis (n : Nat) (f : SsSt → SsSt) (s : State) : (modSs n f s).pfis = s.pfis := rfl
@[simp] theorem modSs_cfg (n : Nat) (f : SsSt → SsSt) (s : State) : (modSs n f s).cfg = s.cfg := rfl
@[simp] theorem modSs_mon (n : Nat) (f : SsSt → SsSt) (s : State) : (modSs n f s).mon = s.mon := rfl

@[simp] theorem modIp_pending (n : Nat) (f : IpSt → IpSt) (s : State) : (modIp n f s).pending = s.pending := rfl
@[simp] theorem modIp_variant (n : Nat) (f : IpSt → IpSt) (s : State) : (modIp n f s).variant = s.variant := rfl
@[simp] theorem modIp_now (n : Nat) (f : IpSt → IpSt) (s : State) : (modIp n f s).now = s.now := rfl
@[simp] theorem modIp_fresh (n : Nat) (f : IpSt → IpSt) (s : State) : (modIp n f s).fresh = s.fresh := rfl
@[simp] theorem modIp_regs (n : Nat) (f : IpSt → IpSt) (s : State) : (modIp n f s).regs = s.regs := rfl
@[simp] theorem modIp_live (n : Nat) (f : IpSt → IpSt) (s : State) : (modIp n f s).live = s.live := rfl
@[simp] theorem modIp_mem (n : Nat) (f : IpSt → IpSt) (s : State) : (modIp n f s).mem = s.mem := rfl
@[simp] theorem modIp_bus (n : Nat) (f : IpSt → IpSt) (s : State) : (modIp n f s).bus = s.bus := rfl
@[simp] theorem modIp_latch (n : Nat) (f : IpSt → IpSt) (s : State) : (modIp n f s).latch = s.latch := rfl
@[simp] theorem modIp_evr (n : Nat) (f : IpSt → IpSt) (s : State) : (modIp n f s).evr = s.evr := rfl
@[simp] theorem modIp_err (n : Nat) (f : IpSt → IpSt) (s : State) : (modIp n f s).err = s.err := rfl
@[simp] theorem modIp_tsu (n : Nat) (f : IpSt → IpSt) (s : State) : (modIp n f s).tsu = s.tsu := rfl
@[simp] theorem modIp_ref (n : Nat) (f : IpSt → IpSt) (s : State) : (modIp n f s).ref = s.ref := rfl
@[simp] theorem modIp_pwr (n : Nat) (f : IpSt → IpSt) (s : State) : (modIp n f s).pwr = s.pwr := rfl
@[simp] theorem modIp_thm (n : Nat) (f : IpSt → IpSt) (s : State) : (modIp n f s).thm = s.thm := rfl
@[simp] theorem modIp_mc (n : Nat) (f : IpSt → IpSt) (s : State) : (modIp n f s).mc = s.mc := rfl
@[simp] theorem modIp_rings (n : Nat) (f : IpSt → IpSt) (s : State) : (modIp n f s).rings = s.rings := rfl
@[simp] theorem modIp_ports (n : Nat) (f : IpSt → IpSt) (s : State) : (modIp n f s).ports = s.ports := rfl
@[simp] theorem modIp_groups (n : Nat) (f : IpSt → IpSt) (s : State) : (modIp n f s).groups = s.groups := rfl
@[simp] theorem modIp_pods (n : Nat) (f : IpSt → IpSt) (s : State) : (modIp n f s).pods = s.pods := rfl
@[simp] theorem modIp_pips (n : Nat) (f : IpSt → IpSt) (s : State) : (modIp n f s).pips = s.pips := rfl
@[simp] theorem modIp_slots (n : Nat) (f : IpSt → IpSt) (s : State) : (modIp n f s).slots = s.slots := rfl
@[simp] theorem modIp_feeds (n : Nat) (f : IpSt → IpSt) (s : State) : (modIp n f s).feeds = s.feeds := rfl
@[simp] theorem modIp_prcs (n : Nat) (f : IpSt → IpSt) (s : State) : (modIp n f s).prcs = s.prcs := rfl
@[simp] theorem modIp_prd (n : Nat) (f : IpSt → IpSt) (s : State) : (modIp n f s).prd = s.prd := rfl
@[simp] theorem modIp_hvc (n : Nat) (f : IpSt → IpSt) (s : State) : (modIp n f s).hvc = s.hvc := rfl
@[simp] theorem modIp_pke (n : Nat) (f : IpSt → IpSt) (s : State) : (modIp n f s).pke = s.pke := rfl
@[simp] theorem modIp_media (n : Nat) (f : IpSt → IpSt) (s : State) : (modIp n f s).media = s.media := rfl
@[simp] theorem modIp_rm (n : Nat) (f : IpSt → IpSt) (s : State) : (modIp n f s).rm = s.rm := rfl
@[simp] theorem modIp_oep (n : Nat) (f : IpSt → IpSt) (s : State) : (modIp n f s).oep = s.oep := rfl
@[simp] theorem modIp_sco (n : Nat) (f : IpSt → IpSt) (s : State) : (modIp n f s).sco = s.sco := rfl
@[simp] theorem modIp_auds (n : Nat) (f : IpSt → IpSt) (s : State) : (modIp n f s).auds = s.auds := rfl
@[simp] theorem modIp_nets (n : Nat) (f : IpSt → IpSt) (s : State) : (modIp n f s).nets = s.nets := rfl
@[simp] theorem modIp_nstrs (n : Nat) (f : IpSt → IpSt) (s : State) : (modIp n f s).nstrs = s.nstrs := rfl
@[simp] theorem modIp_pfis (n : Nat) (f : IpSt → IpSt) (s : State) : (modIp n f s).pfis = s.pfis := rfl
@[simp] theorem modIp_cfg (n : Nat) (f : IpSt → IpSt) (s : State) : (modIp n f s).cfg = s.cfg := rfl
@[simp] theorem modIp_mon (n : Nat) (f : IpSt → IpSt) (s : State) : (modIp n f s).mon = s.mon := rfl

@[simp] theorem modPip_pending (u : PipRef) (f : PipSt → PipSt) (s : State) : (modPip u f s).pending = s.pending := rfl
@[simp] theorem modPip_variant (u : PipRef) (f : PipSt → PipSt) (s : State) : (modPip u f s).variant = s.variant := rfl
@[simp] theorem modPip_now (u : PipRef) (f : PipSt → PipSt) (s : State) : (modPip u f s).now = s.now := rfl
@[simp] theorem modPip_fresh (u : PipRef) (f : PipSt → PipSt) (s : State) : (modPip u f s).fresh = s.fresh := rfl
@[simp] theorem modPip_regs (u : PipRef) (f : PipSt → PipSt) (s : State) : (modPip u f s).regs = s.regs := rfl
@[simp] theorem modPip_live (u : PipRef) (f : PipSt → PipSt) (s : State) : (modPip u f s).live = s.live := rfl
@[simp] theorem modPip_mem (u : PipRef) (f : PipSt → PipSt) (s : State) : (modPip u f s).mem = s.mem := rfl
@[simp] theorem modPip_bus (u : PipRef) (f : PipSt → PipSt) (s : State) : (modPip u f s).bus = s.bus := rfl
@[simp] theorem modPip_latch (u : PipRef) (f : PipSt → PipSt) (s : State) : (modPip u f s).latch = s.latch := rfl
@[simp] theorem modPip_evr (u : PipRef) (f : PipSt → PipSt) (s : State) : (modPip u f s).evr = s.evr := rfl
@[simp] theorem modPip_err (u : PipRef) (f : PipSt → PipSt) (s : State) : (modPip u f s).err = s.err := rfl
@[simp] theorem modPip_tsu (u : PipRef) (f : PipSt → PipSt) (s : State) : (modPip u f s).tsu = s.tsu := rfl
@[simp] theorem modPip_ref (u : PipRef) (f : PipSt → PipSt) (s : State) : (modPip u f s).ref = s.ref := rfl
@[simp] theorem modPip_pwr (u : PipRef) (f : PipSt → PipSt) (s : State) : (modPip u f s).pwr = s.pwr := rfl
@[simp] theorem modPip_thm (u : PipRef) (f : PipSt → PipSt) (s : State) : (modPip u f s).thm = s.thm := rfl
@[simp] theorem modPip_mc (u : PipRef) (f : PipSt → PipSt) (s : State) : (modPip u f s).mc = s.mc := rfl
@[simp] theorem modPip_rings (u : PipRef) (f : PipSt → PipSt) (s : State) : (modPip u f s).rings = s.rings := rfl
@[simp] theorem modPip_ports (u : PipRef) (f : PipSt → PipSt) (s : State) : (modPip u f s).ports = s.ports := rfl
@[simp] theorem modPip_groups (u : PipRef) (f : PipSt → PipSt) (s : State) : (modPip u f s).groups = s.groups := rfl
@[simp] theorem modPip_ips (u : PipRef) (f : PipSt → PipSt) (s : State) : (modPip u f s).ips = s.ips := rfl
@[simp] theorem modPip_pods (u : PipRef) (f : PipSt → PipSt) (s : State) : (modPip u f s).pods = s.pods := rfl
@[simp] theorem modPip_slots (u : PipRef) (f : PipSt → PipSt) (s : State) : (modPip u f s).slots = s.slots := rfl
@[simp] theorem modPip_feeds (u : PipRef) (f : PipSt → PipSt) (s : State) : (modPip u f s).feeds = s.feeds := rfl
@[simp] theorem modPip_prcs (u : PipRef) (f : PipSt → PipSt) (s : State) : (modPip u f s).prcs = s.prcs := rfl
@[simp] theorem modPip_prd (u : PipRef) (f : PipSt → PipSt) (s : State) : (modPip u f s).prd = s.prd := rfl
@[simp] theorem modPip_hvc (u : PipRef) (f : PipSt → PipSt) (s : State) : (modPip u f s).hvc = s.hvc := rfl
@[simp] theorem modPip_pke (u : PipRef) (f : PipSt → PipSt) (s : State) : (modPip u f s).pke = s.pke := rfl
@[simp] theorem modPip_media (u : PipRef) (f : PipSt → PipSt) (s : State) : (modPip u f s).media = s.media := rfl
@[simp] theorem modPip_rm (u : PipRef) (f : PipSt → PipSt) (s : State) : (modPip u f s).rm = s.rm := rfl
@[simp] theorem modPip_oep (u : PipRef) (f : PipSt → PipSt) (s : State) : (modPip u f s).oep = s.oep := rfl
@[simp] theorem modPip_sco (u : PipRef) (f : PipSt → PipSt) (s : State) : (modPip u f s).sco = s.sco := rfl
@[simp] theorem modPip_auds (u : PipRef) (f : PipSt → PipSt) (s : State) : (modPip u f s).auds = s.auds := rfl
@[simp] theorem modPip_nets (u : PipRef) (f : PipSt → PipSt) (s : State) : (modPip u f s).nets = s.nets := rfl
@[simp] theorem modPip_nstrs (u : PipRef) (f : PipSt → PipSt) (s : State) : (modPip u f s).nstrs = s.nstrs := rfl
@[simp] theorem modPip_pfis (u : PipRef) (f : PipSt → PipSt) (s : State) : (modPip u f s).pfis = s.pfis := rfl
@[simp] theorem modPip_cfg (u : PipRef) (f : PipSt → PipSt) (s : State) : (modPip u f s).cfg = s.cfg := rfl
@[simp] theorem modPip_mon (u : PipRef) (f : PipSt → PipSt) (s : State) : (modPip u f s).mon = s.mon := rfl

@[simp] theorem modPod_pending (p : Nat) (f : PodSt → PodSt) (s : State) : (modPod p f s).pending = s.pending := rfl
@[simp] theorem modPod_variant (p : Nat) (f : PodSt → PodSt) (s : State) : (modPod p f s).variant = s.variant := rfl
@[simp] theorem modPod_now (p : Nat) (f : PodSt → PodSt) (s : State) : (modPod p f s).now = s.now := rfl
@[simp] theorem modPod_fresh (p : Nat) (f : PodSt → PodSt) (s : State) : (modPod p f s).fresh = s.fresh := rfl
@[simp] theorem modPod_regs (p : Nat) (f : PodSt → PodSt) (s : State) : (modPod p f s).regs = s.regs := rfl
@[simp] theorem modPod_live (p : Nat) (f : PodSt → PodSt) (s : State) : (modPod p f s).live = s.live := rfl
@[simp] theorem modPod_mem (p : Nat) (f : PodSt → PodSt) (s : State) : (modPod p f s).mem = s.mem := rfl
@[simp] theorem modPod_bus (p : Nat) (f : PodSt → PodSt) (s : State) : (modPod p f s).bus = s.bus := rfl
@[simp] theorem modPod_latch (p : Nat) (f : PodSt → PodSt) (s : State) : (modPod p f s).latch = s.latch := rfl
@[simp] theorem modPod_evr (p : Nat) (f : PodSt → PodSt) (s : State) : (modPod p f s).evr = s.evr := rfl
@[simp] theorem modPod_err (p : Nat) (f : PodSt → PodSt) (s : State) : (modPod p f s).err = s.err := rfl
@[simp] theorem modPod_tsu (p : Nat) (f : PodSt → PodSt) (s : State) : (modPod p f s).tsu = s.tsu := rfl
@[simp] theorem modPod_ref (p : Nat) (f : PodSt → PodSt) (s : State) : (modPod p f s).ref = s.ref := rfl
@[simp] theorem modPod_pwr (p : Nat) (f : PodSt → PodSt) (s : State) : (modPod p f s).pwr = s.pwr := rfl
@[simp] theorem modPod_thm (p : Nat) (f : PodSt → PodSt) (s : State) : (modPod p f s).thm = s.thm := rfl
@[simp] theorem modPod_mc (p : Nat) (f : PodSt → PodSt) (s : State) : (modPod p f s).mc = s.mc := rfl
@[simp] theorem modPod_rings (p : Nat) (f : PodSt → PodSt) (s : State) : (modPod p f s).rings = s.rings := rfl
@[simp] theorem modPod_ports (p : Nat) (f : PodSt → PodSt) (s : State) : (modPod p f s).ports = s.ports := rfl
@[simp] theorem modPod_groups (p : Nat) (f : PodSt → PodSt) (s : State) : (modPod p f s).groups = s.groups := rfl
@[simp] theorem modPod_ips (p : Nat) (f : PodSt → PodSt) (s : State) : (modPod p f s).ips = s.ips := rfl
@[simp] theorem modPod_pips (p : Nat) (f : PodSt → PodSt) (s : State) : (modPod p f s).pips = s.pips := rfl
@[simp] theorem modPod_slots (p : Nat) (f : PodSt → PodSt) (s : State) : (modPod p f s).slots = s.slots := rfl
@[simp] theorem modPod_feeds (p : Nat) (f : PodSt → PodSt) (s : State) : (modPod p f s).feeds = s.feeds := rfl
@[simp] theorem modPod_prcs (p : Nat) (f : PodSt → PodSt) (s : State) : (modPod p f s).prcs = s.prcs := rfl
@[simp] theorem modPod_prd (p : Nat) (f : PodSt → PodSt) (s : State) : (modPod p f s).prd = s.prd := rfl
@[simp] theorem modPod_hvc (p : Nat) (f : PodSt → PodSt) (s : State) : (modPod p f s).hvc = s.hvc := rfl
@[simp] theorem modPod_pke (p : Nat) (f : PodSt → PodSt) (s : State) : (modPod p f s).pke = s.pke := rfl
@[simp] theorem modPod_media (p : Nat) (f : PodSt → PodSt) (s : State) : (modPod p f s).media = s.media := rfl
@[simp] theorem modPod_rm (p : Nat) (f : PodSt → PodSt) (s : State) : (modPod p f s).rm = s.rm := rfl
@[simp] theorem modPod_oep (p : Nat) (f : PodSt → PodSt) (s : State) : (modPod p f s).oep = s.oep := rfl
@[simp] theorem modPod_sco (p : Nat) (f : PodSt → PodSt) (s : State) : (modPod p f s).sco = s.sco := rfl
@[simp] theorem modPod_auds (p : Nat) (f : PodSt → PodSt) (s : State) : (modPod p f s).auds = s.auds := rfl
@[simp] theorem modPod_nets (p : Nat) (f : PodSt → PodSt) (s : State) : (modPod p f s).nets = s.nets := rfl
@[simp] theorem modPod_nstrs (p : Nat) (f : PodSt → PodSt) (s : State) : (modPod p f s).nstrs = s.nstrs := rfl
@[simp] theorem modPod_pfis (p : Nat) (f : PodSt → PodSt) (s : State) : (modPod p f s).pfis = s.pfis := rfl
@[simp] theorem modPod_cfg (p : Nat) (f : PodSt → PodSt) (s : State) : (modPod p f s).cfg = s.cfg := rfl
@[simp] theorem modPod_mon (p : Nat) (f : PodSt → PodSt) (s : State) : (modPod p f s).mon = s.mon := rfl

@[simp] theorem modSlot_pending (j : Nat) (f : SlotSt → SlotSt) (s : State) : (modSlot j f s).pending = s.pending := rfl
@[simp] theorem modSlot_variant (j : Nat) (f : SlotSt → SlotSt) (s : State) : (modSlot j f s).variant = s.variant := rfl
@[simp] theorem modSlot_now (j : Nat) (f : SlotSt → SlotSt) (s : State) : (modSlot j f s).now = s.now := rfl
@[simp] theorem modSlot_fresh (j : Nat) (f : SlotSt → SlotSt) (s : State) : (modSlot j f s).fresh = s.fresh := rfl
@[simp] theorem modSlot_regs (j : Nat) (f : SlotSt → SlotSt) (s : State) : (modSlot j f s).regs = s.regs := rfl
@[simp] theorem modSlot_live (j : Nat) (f : SlotSt → SlotSt) (s : State) : (modSlot j f s).live = s.live := rfl
@[simp] theorem modSlot_mem (j : Nat) (f : SlotSt → SlotSt) (s : State) : (modSlot j f s).mem = s.mem := rfl
@[simp] theorem modSlot_bus (j : Nat) (f : SlotSt → SlotSt) (s : State) : (modSlot j f s).bus = s.bus := rfl
@[simp] theorem modSlot_latch (j : Nat) (f : SlotSt → SlotSt) (s : State) : (modSlot j f s).latch = s.latch := rfl
@[simp] theorem modSlot_evr (j : Nat) (f : SlotSt → SlotSt) (s : State) : (modSlot j f s).evr = s.evr := rfl
@[simp] theorem modSlot_err (j : Nat) (f : SlotSt → SlotSt) (s : State) : (modSlot j f s).err = s.err := rfl
@[simp] theorem modSlot_tsu (j : Nat) (f : SlotSt → SlotSt) (s : State) : (modSlot j f s).tsu = s.tsu := rfl
@[simp] theorem modSlot_ref (j : Nat) (f : SlotSt → SlotSt) (s : State) : (modSlot j f s).ref = s.ref := rfl
@[simp] theorem modSlot_pwr (j : Nat) (f : SlotSt → SlotSt) (s : State) : (modSlot j f s).pwr = s.pwr := rfl
@[simp] theorem modSlot_thm (j : Nat) (f : SlotSt → SlotSt) (s : State) : (modSlot j f s).thm = s.thm := rfl
@[simp] theorem modSlot_mc (j : Nat) (f : SlotSt → SlotSt) (s : State) : (modSlot j f s).mc = s.mc := rfl
@[simp] theorem modSlot_rings (j : Nat) (f : SlotSt → SlotSt) (s : State) : (modSlot j f s).rings = s.rings := rfl
@[simp] theorem modSlot_ports (j : Nat) (f : SlotSt → SlotSt) (s : State) : (modSlot j f s).ports = s.ports := rfl
@[simp] theorem modSlot_groups (j : Nat) (f : SlotSt → SlotSt) (s : State) : (modSlot j f s).groups = s.groups := rfl
@[simp] theorem modSlot_ips (j : Nat) (f : SlotSt → SlotSt) (s : State) : (modSlot j f s).ips = s.ips := rfl
@[simp] theorem modSlot_pods (j : Nat) (f : SlotSt → SlotSt) (s : State) : (modSlot j f s).pods = s.pods := rfl
@[simp] theorem modSlot_pips (j : Nat) (f : SlotSt → SlotSt) (s : State) : (modSlot j f s).pips = s.pips := rfl
@[simp] theorem modSlot_feeds (j : Nat) (f : SlotSt → SlotSt) (s : State) : (modSlot j f s).feeds = s.feeds := rfl
@[simp] theorem modSlot_prcs (j : Nat) (f : SlotSt → SlotSt) (s : State) : (modSlot j f s).prcs = s.prcs := rfl
@[simp] theorem modSlot_prd (j : Nat) (f : SlotSt → SlotSt) (s : State) : (modSlot j f s).prd = s.prd := rfl
@[simp] theorem modSlot_hvc (j : Nat) (f : SlotSt → SlotSt) (s : State) : (modSlot j f s).hvc = s.hvc := rfl
@[simp] theorem modSlot_pke (j : Nat) (f : SlotSt → SlotSt) (s : State) : (modSlot j f s).pke = s.pke := rfl
@[simp] theorem modSlot_media (j : Nat) (f : SlotSt → SlotSt) (s : State) : (modSlot j f s).media = s.media := rfl
@[simp] theorem modSlot_rm (j : Nat) (f : SlotSt → SlotSt) (s : State) : (modSlot j f s).rm = s.rm := rfl
@[simp] theorem modSlot_oep (j : Nat) (f : SlotSt → SlotSt) (s : State) : (modSlot j f s).oep = s.oep := rfl
@[simp] theorem modSlot_sco (j : Nat) (f : SlotSt → SlotSt) (s : State) : (modSlot j f s).sco = s.sco := rfl
@[simp] theorem modSlot_auds (j : Nat) (f : SlotSt → SlotSt) (s : State) : (modSlot j f s).auds = s.auds := rfl
@[simp] theorem modSlot_nets (j : Nat) (f : SlotSt → SlotSt) (s : State) : (modSlot j f s).nets = s.nets := rfl
@[simp] theorem modSlot_nstrs (j : Nat) (f : SlotSt → SlotSt) (s : State) : (modSlot j f s).nstrs = s.nstrs := rfl
@[simp] theorem modSlot_pfis (j : Nat) (f : SlotSt → SlotSt) (s : State) : (modSlot j f s).pfis = s.pfis := rfl
@[simp] theorem modSlot_cfg (j : Nat) (f : SlotSt → SlotSt) (s : State) : (modSlot j f s).cfg = s.cfg := rfl
@[simp] theorem modSlot_mon (j : Nat) (f : SlotSt → SlotSt) (s : State) : (modSlot j f s).mon = s.mon := rfl

@[simp] theorem modPrc_pending (n : Nat) (f : PrcSt → PrcSt) (s : State) : (modPrc n f s).pending = s.pending := rfl
@[simp] theorem modPrc_variant (n : Nat) (f : PrcSt → PrcSt) (s : State) : (modPrc n f s).variant = s.variant := rfl
@[simp] theorem modPrc_now (n : Nat) (f : PrcSt → PrcSt) (s : State) : (modPrc n f s).now = s.now := rfl
@[simp] theorem modPrc_fresh (n : Nat) (f : PrcSt → PrcSt) (s : State) : (modPrc n f s).fresh = s.fresh := rfl
@[simp] theorem modPrc_regs (n : Nat) (f : PrcSt → PrcSt) (s : State) : (modPrc n f s).regs = s.regs := rfl
@[simp] theorem modPrc_live (n : Nat) (f : PrcSt → PrcSt) (s : State) : (modPrc n f s).live = s.live := rfl
@[simp] theorem modPrc_mem (n : Nat) (f : PrcSt → PrcSt) (s : State) : (modPrc n f s).mem = s.mem := rfl
@[simp] theorem modPrc_bus (n : Nat) (f : PrcSt → PrcSt) (s : State) : (modPrc n f s).bus = s.bus := rfl
@[simp] theorem modPrc_latch (n : Nat) (f : PrcSt → PrcSt) (s : State) : (modPrc n f s).latch = s.latch := rfl
@[simp] theorem modPrc_evr (n : Nat) (f : PrcSt → PrcSt) (s : State) : (modPrc n f s).evr = s.evr := rfl
@[simp] theorem modPrc_err (n : Nat) (f : PrcSt → PrcSt) (s : State) : (modPrc n f s).err = s.err := rfl
@[simp] theorem modPrc_tsu (n : Nat) (f : PrcSt → PrcSt) (s : State) : (modPrc n f s).tsu = s.tsu := rfl
@[simp] theorem modPrc_ref (n : Nat) (f : PrcSt → PrcSt) (s : State) : (modPrc n f s).ref = s.ref := rfl
@[simp] theorem modPrc_pwr (n : Nat) (f : PrcSt → PrcSt) (s : State) : (modPrc n f s).pwr = s.pwr := rfl
@[simp] theorem modPrc_thm (n : Nat) (f : PrcSt → PrcSt) (s : State) : (modPrc n f s).thm = s.thm := rfl
@[simp] theorem modPrc_mc (n : Nat) (f : PrcSt → PrcSt) (s : State) : (modPrc n f s).mc = s.mc := rfl
@[simp] theorem modPrc_rings (n : Nat) (f : PrcSt → PrcSt) (s : State) : (modPrc n f s).rings = s.rings := rfl
@[simp] theorem modPrc_ports (n : Nat) (f : PrcSt → PrcSt) (s : State) : (modPrc n f s).ports = s.ports := rfl
@[simp] theorem modPrc_groups (n : Nat) (f : PrcSt → PrcSt) (s : State) : (modPrc n f s).groups = s.groups := rfl
@[simp] theorem modPrc_ips (n : Nat) (f : PrcSt → PrcSt) (s : State) : (modPrc n f s).ips = s.ips := rfl
@[simp] theorem modPrc_pods (n : Nat) (f : PrcSt → PrcSt) (s : State) : (modPrc n f s).pods = s.pods := rfl
@[simp] theorem modPrc_pips (n : Nat) (f : PrcSt → PrcSt) (s : State) : (modPrc n f s).pips = s.pips := rfl
@[simp] theorem modPrc_slots (n : Nat) (f : PrcSt → PrcSt) (s : State) : (modPrc n f s).slots = s.slots := rfl
@[simp] theorem modPrc_feeds (n : Nat) (f : PrcSt → PrcSt) (s : State) : (modPrc n f s).feeds = s.feeds := rfl
@[simp] theorem modPrc_prd (n : Nat) (f : PrcSt → PrcSt) (s : State) : (modPrc n f s).prd = s.prd := rfl
@[simp] theorem modPrc_hvc (n : Nat) (f : PrcSt → PrcSt) (s : State) : (modPrc n f s).hvc = s.hvc := rfl
@[simp] theorem modPrc_pke (n : Nat) (f : PrcSt → PrcSt) (s : State) : (modPrc n f s).pke = s.pke := rfl
@[simp] theorem modPrc_media (n : Nat) (f : PrcSt → PrcSt) (s : State) : (modPrc n f s).media = s.media := rfl
@[simp] theorem modPrc_rm (n : Nat) (f : PrcSt → PrcSt) (s : State) : (modPrc n f s).rm = s.rm := rfl
@[simp] theorem modPrc_oep (n : Nat) (f : PrcSt → PrcSt) (s : State) : (modPrc n f s).oep = s.oep := rfl
@[simp] theorem modPrc_sco (n : Nat) (f : PrcSt → PrcSt) (s : State) : (modPrc n f s).sco = s.sco := rfl
@[simp] theorem modPrc_auds (n : Nat) (f : PrcSt → PrcSt) (s : State) : (modPrc n f s).auds = s.auds := rfl
@[simp] theorem modPrc_nets (n : Nat) (f : PrcSt → PrcSt) (s : State) : (modPrc n f s).nets = s.nets := rfl
@[simp] theorem modPrc_nstrs (n : Nat) (f : PrcSt → PrcSt) (s : State) : (modPrc n f s).nstrs = s.nstrs := rfl
@[simp] theorem modPrc_pfis (n : Nat) (f : PrcSt → PrcSt) (s : State) : (modPrc n f s).pfis = s.pfis := rfl
@[simp] theorem modPrc_cfg (n : Nat) (f : PrcSt → PrcSt) (s : State) : (modPrc n f s).cfg = s.cfg := rfl
@[simp] theorem modPrc_mon (n : Nat) (f : PrcSt → PrcSt) (s : State) : (modPrc n f s).mon = s.mon := rfl

@[simp] theorem modEc_pending (c : Nat) (f : EcSt → EcSt) (s : State) : (modEc c f s).pending = s.pending := rfl
@[simp] theorem modEc_variant (c : Nat) (f : EcSt → EcSt) (s : State) : (modEc c f s).variant = s.variant := rfl
@[simp] theorem modEc_now (c : Nat) (f : EcSt → EcSt) (s : State) : (modEc c f s).now = s.now := rfl
@[simp] theorem modEc_fresh (c : Nat) (f : EcSt → EcSt) (s : State) : (modEc c f s).fresh = s.fresh := rfl
@[simp] theorem modEc_regs (c : Nat) (f : EcSt → EcSt) (s : State) : (modEc c f s).regs = s.regs := rfl
@[simp] theorem modEc_live (c : Nat) (f : EcSt → EcSt) (s : State) : (modEc c f s).live = s.live := rfl
@[simp] theorem modEc_mem (c : Nat) (f : EcSt → EcSt) (s : State) : (modEc c f s).mem = s.mem := rfl
@[simp] theorem modEc_bus (c : Nat) (f : EcSt → EcSt) (s : State) : (modEc c f s).bus = s.bus := rfl
@[simp] theorem modEc_latch (c : Nat) (f : EcSt → EcSt) (s : State) : (modEc c f s).latch = s.latch := rfl
@[simp] theorem modEc_evr (c : Nat) (f : EcSt → EcSt) (s : State) : (modEc c f s).evr = s.evr := rfl
@[simp] theorem modEc_err (c : Nat) (f : EcSt → EcSt) (s : State) : (modEc c f s).err = s.err := rfl
@[simp] theorem modEc_tsu (c : Nat) (f : EcSt → EcSt) (s : State) : (modEc c f s).tsu = s.tsu := rfl
@[simp] theorem modEc_ref (c : Nat) (f : EcSt → EcSt) (s : State) : (modEc c f s).ref = s.ref := rfl
@[simp] theorem modEc_pwr (c : Nat) (f : EcSt → EcSt) (s : State) : (modEc c f s).pwr = s.pwr := rfl
@[simp] theorem modEc_thm (c : Nat) (f : EcSt → EcSt) (s : State) : (modEc c f s).thm = s.thm := rfl
@[simp] theorem modEc_mc (c : Nat) (f : EcSt → EcSt) (s : State) : (modEc c f s).mc = s.mc := rfl
@[simp] theorem modEc_rings (c : Nat) (f : EcSt → EcSt) (s : State) : (modEc c f s).rings = s.rings := rfl
@[simp] theorem modEc_ports (c : Nat) (f : EcSt → EcSt) (s : State) : (modEc c f s).ports = s.ports := rfl
@[simp] theorem modEc_groups (c : Nat) (f : EcSt → EcSt) (s : State) : (modEc c f s).groups = s.groups := rfl
@[simp] theorem modEc_ips (c : Nat) (f : EcSt → EcSt) (s : State) : (modEc c f s).ips = s.ips := rfl
@[simp] theorem modEc_pods (c : Nat) (f : EcSt → EcSt) (s : State) : (modEc c f s).pods = s.pods := rfl
@[simp] theorem modEc_pips (c : Nat) (f : EcSt → EcSt) (s : State) : (modEc c f s).pips = s.pips := rfl
@[simp] theorem modEc_slots (c : Nat) (f : EcSt → EcSt) (s : State) : (modEc c f s).slots = s.slots := rfl
@[simp] theorem modEc_feeds (c : Nat) (f : EcSt → EcSt) (s : State) : (modEc c f s).feeds = s.feeds := rfl
@[simp] theorem modEc_prcs (c : Nat) (f : EcSt → EcSt) (s : State) : (modEc c f s).prcs = s.prcs := rfl
@[simp] theorem modEc_prd (c : Nat) (f : EcSt → EcSt) (s : State) : (modEc c f s).prd = s.prd := rfl
@[simp] theorem modEc_pke (c : Nat) (f : EcSt → EcSt) (s : State) : (modEc c f s).pke = s.pke := rfl
@[simp] theorem modEc_media (c : Nat) (f : EcSt → EcSt) (s : State) : (modEc c f s).media = s.media := rfl
@[simp] theorem modEc_rm (c : Nat) (f : EcSt → EcSt) (s : State) : (modEc c f s).rm = s.rm := rfl
@[simp] theorem modEc_oep (c : Nat) (f : EcSt → EcSt) (s : State) : (modEc c f s).oep = s.oep := rfl
@[simp] theorem modEc_sco (c : Nat) (f : EcSt → EcSt) (s : State) : (modEc c f s).sco = s.sco := rfl
@[simp] theorem modEc_auds (c : Nat) (f : EcSt → EcSt) (s : State) : (modEc c f s).auds = s.auds := rfl
@[simp] theorem modEc_nets (c : Nat) (f : EcSt → EcSt) (s : State) : (modEc c f s).nets = s.nets := rfl
@[simp] theorem modEc_nstrs (c : Nat) (f : EcSt → EcSt) (s : State) : (modEc c f s).nstrs = s.nstrs := rfl
@[simp] theorem modEc_pfis (c : Nat) (f : EcSt → EcSt) (s : State) : (modEc c f s).pfis = s.pfis := rfl
@[simp] theorem modEc_cfg (c : Nat) (f : EcSt → EcSt) (s : State) : (modEc c f s).cfg = s.cfg := rfl
@[simp] theorem modEc_mon (c : Nat) (f : EcSt → EcSt) (s : State) : (modEc c f s).mon = s.mon := rfl

@[simp] theorem modDc_pending (d : Nat) (f : DecSt → DecSt) (s : State) : (modDc d f s).pending = s.pending := rfl
@[simp] theorem modDc_variant (d : Nat) (f : DecSt → DecSt) (s : State) : (modDc d f s).variant = s.variant := rfl
@[simp] theorem modDc_now (d : Nat) (f : DecSt → DecSt) (s : State) : (modDc d f s).now = s.now := rfl
@[simp] theorem modDc_fresh (d : Nat) (f : DecSt → DecSt) (s : State) : (modDc d f s).fresh = s.fresh := rfl
@[simp] theorem modDc_regs (d : Nat) (f : DecSt → DecSt) (s : State) : (modDc d f s).regs = s.regs := rfl
@[simp] theorem modDc_live (d : Nat) (f : DecSt → DecSt) (s : State) : (modDc d f s).live = s.live := rfl
@[simp] theorem modDc_mem (d : Nat) (f : DecSt → DecSt) (s : State) : (modDc d f s).mem = s.mem := rfl
@[simp] theorem modDc_bus (d : Nat) (f : DecSt → DecSt) (s : State) : (modDc d f s).bus = s.bus := rfl
@[simp] theorem modDc_latch (d : Nat) (f : DecSt → DecSt) (s : State) : (modDc d f s).latch = s.latch := rfl
@[simp] theorem modDc_evr (d : Nat) (f : DecSt → DecSt) (s : State) : (modDc d f s).evr = s.evr := rfl
@[simp] theorem modDc_err (d : Nat) (f : DecSt → DecSt) (s : State) : (modDc d f s).err = s.err := rfl
@[simp] theorem modDc_tsu (d : Nat) (f : DecSt → DecSt) (s : State) : (modDc d f s).tsu = s.tsu := rfl
@[simp] theorem modDc_ref (d : Nat) (f : DecSt → DecSt) (s : State) : (modDc d f s).ref = s.ref := rfl
@[simp] theorem modDc_pwr (d : Nat) (f : DecSt → DecSt) (s : State) : (modDc d f s).pwr = s.pwr := rfl
@[simp] theorem modDc_thm (d : Nat) (f : DecSt → DecSt) (s : State) : (modDc d f s).thm = s.thm := rfl
@[simp] theorem modDc_mc (d : Nat) (f : DecSt → DecSt) (s : State) : (modDc d f s).mc = s.mc := rfl
@[simp] theorem modDc_rings (d : Nat) (f : DecSt → DecSt) (s : State) : (modDc d f s).rings = s.rings := rfl
@[simp] theorem modDc_ports (d : Nat) (f : DecSt → DecSt) (s : State) : (modDc d f s).ports = s.ports := rfl
@[simp] theorem modDc_groups (d : Nat) (f : DecSt → DecSt) (s : State) : (modDc d f s).groups = s.groups := rfl
@[simp] theorem modDc_ips (d : Nat) (f : DecSt → DecSt) (s : State) : (modDc d f s).ips = s.ips := rfl
@[simp] theorem modDc_pods (d : Nat) (f : DecSt → DecSt) (s : State) : (modDc d f s).pods = s.pods := rfl
@[simp] theorem modDc_pips (d : Nat) (f : DecSt → DecSt) (s : State) : (modDc d f s).pips = s.pips := rfl
@[simp] theorem modDc_slots (d : Nat) (f : DecSt → DecSt) (s : State) : (modDc d f s).slots = s.slots := rfl
@[simp] theorem modDc_feeds (d : Nat) (f : DecSt → DecSt) (s : State) : (modDc d f s).feeds = s.feeds := rfl
@[simp] theorem modDc_prcs (d : Nat) (f : DecSt → DecSt) (s : State) : (modDc d f s).prcs = s.prcs := rfl
@[simp] theorem modDc_prd (d : Nat) (f : DecSt → DecSt) (s : State) : (modDc d f s).prd = s.prd := rfl
@[simp] theorem modDc_pke (d : Nat) (f : DecSt → DecSt) (s : State) : (modDc d f s).pke = s.pke := rfl
@[simp] theorem modDc_media (d : Nat) (f : DecSt → DecSt) (s : State) : (modDc d f s).media = s.media := rfl
@[simp] theorem modDc_rm (d : Nat) (f : DecSt → DecSt) (s : State) : (modDc d f s).rm = s.rm := rfl
@[simp] theorem modDc_oep (d : Nat) (f : DecSt → DecSt) (s : State) : (modDc d f s).oep = s.oep := rfl
@[simp] theorem modDc_sco (d : Nat) (f : DecSt → DecSt) (s : State) : (modDc d f s).sco = s.sco := rfl
@[simp] theorem modDc_auds (d : Nat) (f : DecSt → DecSt) (s : State) : (modDc d f s).auds = s.auds := rfl
@[simp] theorem modDc_nets (d : Nat) (f : DecSt → DecSt) (s : State) : (modDc d f s).nets = s.nets := rfl
@[simp] theorem modDc_nstrs (d : Nat) (f : DecSt → DecSt) (s : State) : (modDc d f s).nstrs = s.nstrs := rfl
@[simp] theorem modDc_pfis (d : Nat) (f : DecSt → DecSt) (s : State) : (modDc d f s).pfis = s.pfis := rfl
@[simp] theorem modDc_cfg (d : Nat) (f : DecSt → DecSt) (s : State) : (modDc d f s).cfg = s.cfg := rfl
@[simp] theorem modDc_mon (d : Nat) (f : DecSt → DecSt) (s : State) : (modDc d f s).mon = s.mon := rfl

@[simp] theorem putJob_pending (c : Nat) (j : PkeJob) (s : State) : (putJob c j s).pending = s.pending := rfl
@[simp] theorem putJob_variant (c : Nat) (j : PkeJob) (s : State) : (putJob c j s).variant = s.variant := rfl
@[simp] theorem putJob_now (c : Nat) (j : PkeJob) (s : State) : (putJob c j s).now = s.now := rfl
@[simp] theorem putJob_fresh (c : Nat) (j : PkeJob) (s : State) : (putJob c j s).fresh = s.fresh := rfl
@[simp] theorem putJob_regs (c : Nat) (j : PkeJob) (s : State) : (putJob c j s).regs = s.regs := rfl
@[simp] theorem putJob_live (c : Nat) (j : PkeJob) (s : State) : (putJob c j s).live = s.live := rfl
@[simp] theorem putJob_mem (c : Nat) (j : PkeJob) (s : State) : (putJob c j s).mem = s.mem := rfl
@[simp] theorem putJob_bus (c : Nat) (j : PkeJob) (s : State) : (putJob c j s).bus = s.bus := rfl
@[simp] theorem putJob_latch (c : Nat) (j : PkeJob) (s : State) : (putJob c j s).latch = s.latch := rfl
@[simp] theorem putJob_evr (c : Nat) (j : PkeJob) (s : State) : (putJob c j s).evr = s.evr := rfl
@[simp] theorem putJob_err (c : Nat) (j : PkeJob) (s : State) : (putJob c j s).err = s.err := rfl
@[simp] theorem putJob_tsu (c : Nat) (j : PkeJob) (s : State) : (putJob c j s).tsu = s.tsu := rfl
@[simp] theorem putJob_ref (c : Nat) (j : PkeJob) (s : State) : (putJob c j s).ref = s.ref := rfl
@[simp] theorem putJob_pwr (c : Nat) (j : PkeJob) (s : State) : (putJob c j s).pwr = s.pwr := rfl
@[simp] theorem putJob_thm (c : Nat) (j : PkeJob) (s : State) : (putJob c j s).thm = s.thm := rfl
@[simp] theorem putJob_mc (c : Nat) (j : PkeJob) (s : State) : (putJob c j s).mc = s.mc := rfl
@[simp] theorem putJob_rings (c : Nat) (j : PkeJob) (s : State) : (putJob c j s).rings = s.rings := rfl
@[simp] theorem putJob_ports (c : Nat) (j : PkeJob) (s : State) : (putJob c j s).ports = s.ports := rfl
@[simp] theorem putJob_groups (c : Nat) (j : PkeJob) (s : State) : (putJob c j s).groups = s.groups := rfl
@[simp] theorem putJob_ips (c : Nat) (j : PkeJob) (s : State) : (putJob c j s).ips = s.ips := rfl
@[simp] theorem putJob_pods (c : Nat) (j : PkeJob) (s : State) : (putJob c j s).pods = s.pods := rfl
@[simp] theorem putJob_pips (c : Nat) (j : PkeJob) (s : State) : (putJob c j s).pips = s.pips := rfl
@[simp] theorem putJob_slots (c : Nat) (j : PkeJob) (s : State) : (putJob c j s).slots = s.slots := rfl
@[simp] theorem putJob_feeds (c : Nat) (j : PkeJob) (s : State) : (putJob c j s).feeds = s.feeds := rfl
@[simp] theorem putJob_prcs (c : Nat) (j : PkeJob) (s : State) : (putJob c j s).prcs = s.prcs := rfl
@[simp] theorem putJob_prd (c : Nat) (j : PkeJob) (s : State) : (putJob c j s).prd = s.prd := rfl
@[simp] theorem putJob_hvc (c : Nat) (j : PkeJob) (s : State) : (putJob c j s).hvc = s.hvc := rfl
@[simp] theorem putJob_media (c : Nat) (j : PkeJob) (s : State) : (putJob c j s).media = s.media := rfl
@[simp] theorem putJob_rm (c : Nat) (j : PkeJob) (s : State) : (putJob c j s).rm = s.rm := rfl
@[simp] theorem putJob_oep (c : Nat) (j : PkeJob) (s : State) : (putJob c j s).oep = s.oep := rfl
@[simp] theorem putJob_sco (c : Nat) (j : PkeJob) (s : State) : (putJob c j s).sco = s.sco := rfl
@[simp] theorem putJob_auds (c : Nat) (j : PkeJob) (s : State) : (putJob c j s).auds = s.auds := rfl
@[simp] theorem putJob_nets (c : Nat) (j : PkeJob) (s : State) : (putJob c j s).nets = s.nets := rfl
@[simp] theorem putJob_nstrs (c : Nat) (j : PkeJob) (s : State) : (putJob c j s).nstrs = s.nstrs := rfl
@[simp] theorem putJob_pfis (c : Nat) (j : PkeJob) (s : State) : (putJob c j s).pfis = s.pfis := rfl
@[simp] theorem putJob_cfg (c : Nat) (j : PkeJob) (s : State) : (putJob c j s).cfg = s.cfg := rfl
@[simp] theorem putJob_mon (c : Nat) (j : PkeJob) (s : State) : (putJob c j s).mon = s.mon := rfl

@[simp] theorem modMbr_pending (m : Nat) (f : MbrSt → MbrSt) (s : State) : (modMbr m f s).pending = s.pending := rfl
@[simp] theorem modMbr_variant (m : Nat) (f : MbrSt → MbrSt) (s : State) : (modMbr m f s).variant = s.variant := rfl
@[simp] theorem modMbr_now (m : Nat) (f : MbrSt → MbrSt) (s : State) : (modMbr m f s).now = s.now := rfl
@[simp] theorem modMbr_fresh (m : Nat) (f : MbrSt → MbrSt) (s : State) : (modMbr m f s).fresh = s.fresh := rfl
@[simp] theorem modMbr_regs (m : Nat) (f : MbrSt → MbrSt) (s : State) : (modMbr m f s).regs = s.regs := rfl
@[simp] theorem modMbr_live (m : Nat) (f : MbrSt → MbrSt) (s : State) : (modMbr m f s).live = s.live := rfl
@[simp] theorem modMbr_mem (m : Nat) (f : MbrSt → MbrSt) (s : State) : (modMbr m f s).mem = s.mem := rfl
@[simp] theorem modMbr_bus (m : Nat) (f : MbrSt → MbrSt) (s : State) : (modMbr m f s).bus = s.bus := rfl
@[simp] theorem modMbr_latch (m : Nat) (f : MbrSt → MbrSt) (s : State) : (modMbr m f s).latch = s.latch := rfl
@[simp] theorem modMbr_evr (m : Nat) (f : MbrSt → MbrSt) (s : State) : (modMbr m f s).evr = s.evr := rfl
@[simp] theorem modMbr_err (m : Nat) (f : MbrSt → MbrSt) (s : State) : (modMbr m f s).err = s.err := rfl
@[simp] theorem modMbr_tsu (m : Nat) (f : MbrSt → MbrSt) (s : State) : (modMbr m f s).tsu = s.tsu := rfl
@[simp] theorem modMbr_ref (m : Nat) (f : MbrSt → MbrSt) (s : State) : (modMbr m f s).ref = s.ref := rfl
@[simp] theorem modMbr_pwr (m : Nat) (f : MbrSt → MbrSt) (s : State) : (modMbr m f s).pwr = s.pwr := rfl
@[simp] theorem modMbr_thm (m : Nat) (f : MbrSt → MbrSt) (s : State) : (modMbr m f s).thm = s.thm := rfl
@[simp] theorem modMbr_mc (m : Nat) (f : MbrSt → MbrSt) (s : State) : (modMbr m f s).mc = s.mc := rfl
@[simp] theorem modMbr_rings (m : Nat) (f : MbrSt → MbrSt) (s : State) : (modMbr m f s).rings = s.rings := rfl
@[simp] theorem modMbr_ports (m : Nat) (f : MbrSt → MbrSt) (s : State) : (modMbr m f s).ports = s.ports := rfl
@[simp] theorem modMbr_groups (m : Nat) (f : MbrSt → MbrSt) (s : State) : (modMbr m f s).groups = s.groups := rfl
@[simp] theorem modMbr_ips (m : Nat) (f : MbrSt → MbrSt) (s : State) : (modMbr m f s).ips = s.ips := rfl
@[simp] theorem modMbr_pods (m : Nat) (f : MbrSt → MbrSt) (s : State) : (modMbr m f s).pods = s.pods := rfl
@[simp] theorem modMbr_pips (m : Nat) (f : MbrSt → MbrSt) (s : State) : (modMbr m f s).pips = s.pips := rfl
@[simp] theorem modMbr_slots (m : Nat) (f : MbrSt → MbrSt) (s : State) : (modMbr m f s).slots = s.slots := rfl
@[simp] theorem modMbr_feeds (m : Nat) (f : MbrSt → MbrSt) (s : State) : (modMbr m f s).feeds = s.feeds := rfl
@[simp] theorem modMbr_prcs (m : Nat) (f : MbrSt → MbrSt) (s : State) : (modMbr m f s).prcs = s.prcs := rfl
@[simp] theorem modMbr_prd (m : Nat) (f : MbrSt → MbrSt) (s : State) : (modMbr m f s).prd = s.prd := rfl
@[simp] theorem modMbr_hvc (m : Nat) (f : MbrSt → MbrSt) (s : State) : (modMbr m f s).hvc = s.hvc := rfl
@[simp] theorem modMbr_pke (m : Nat) (f : MbrSt → MbrSt) (s : State) : (modMbr m f s).pke = s.pke := rfl
@[simp] theorem modMbr_media (m : Nat) (f : MbrSt → MbrSt) (s : State) : (modMbr m f s).media = s.media := rfl
@[simp] theorem modMbr_oep (m : Nat) (f : MbrSt → MbrSt) (s : State) : (modMbr m f s).oep = s.oep := rfl
@[simp] theorem modMbr_sco (m : Nat) (f : MbrSt → MbrSt) (s : State) : (modMbr m f s).sco = s.sco := rfl
@[simp] theorem modMbr_auds (m : Nat) (f : MbrSt → MbrSt) (s : State) : (modMbr m f s).auds = s.auds := rfl
@[simp] theorem modMbr_nets (m : Nat) (f : MbrSt → MbrSt) (s : State) : (modMbr m f s).nets = s.nets := rfl
@[simp] theorem modMbr_nstrs (m : Nat) (f : MbrSt → MbrSt) (s : State) : (modMbr m f s).nstrs = s.nstrs := rfl
@[simp] theorem modMbr_pfis (m : Nat) (f : MbrSt → MbrSt) (s : State) : (modMbr m f s).pfis = s.pfis := rfl
@[simp] theorem modMbr_cfg (m : Nat) (f : MbrSt → MbrSt) (s : State) : (modMbr m f s).cfg = s.cfg := rfl
@[simp] theorem modMbr_mon (m : Nat) (f : MbrSt → MbrSt) (s : State) : (modMbr m f s).mon = s.mon := rfl

@[simp] theorem modVol_pending (v : Nat) (f : VolSt → VolSt) (s : State) : (modVol v f s).pending = s.pending := by unfold modVol; split <;> rfl
@[simp] theorem modVol_variant (v : Nat) (f : VolSt → VolSt) (s : State) : (modVol v f s).variant = s.variant := by unfold modVol; split <;> rfl
@[simp] theorem modVol_now (v : Nat) (f : VolSt → VolSt) (s : State) : (modVol v f s).now = s.now := by unfold modVol; split <;> rfl
@[simp] theorem modVol_fresh (v : Nat) (f : VolSt → VolSt) (s : State) : (modVol v f s).fresh = s.fresh := by unfold modVol; split <;> rfl
@[simp] theorem modVol_regs (v : Nat) (f : VolSt → VolSt) (s : State) : (modVol v f s).regs = s.regs := by unfold modVol; split <;> rfl
@[simp] theorem modVol_live (v : Nat) (f : VolSt → VolSt) (s : State) : (modVol v f s).live = s.live := by unfold modVol; split <;> rfl
@[simp] theorem modVol_mem (v : Nat) (f : VolSt → VolSt) (s : State) : (modVol v f s).mem = s.mem := by unfold modVol; split <;> rfl
@[simp] theorem modVol_bus (v : Nat) (f : VolSt → VolSt) (s : State) : (modVol v f s).bus = s.bus := by unfold modVol; split <;> rfl
@[simp] theorem modVol_latch (v : Nat) (f : VolSt → VolSt) (s : State) : (modVol v f s).latch = s.latch := by unfold modVol; split <;> rfl
@[simp] theorem modVol_evr (v : Nat) (f : VolSt → VolSt) (s : State) : (modVol v f s).evr = s.evr := by unfold modVol; split <;> rfl
@[simp] theorem modVol_err (v : Nat) (f : VolSt → VolSt) (s : State) : (modVol v f s).err = s.err := by unfold modVol; split <;> rfl
@[simp] theorem modVol_tsu (v : Nat) (f : VolSt → VolSt) (s : State) : (modVol v f s).tsu = s.tsu := by unfold modVol; split <;> rfl
@[simp] theorem modVol_ref (v : Nat) (f : VolSt → VolSt) (s : State) : (modVol v f s).ref = s.ref := by unfold modVol; split <;> rfl
@[simp] theorem modVol_pwr (v : Nat) (f : VolSt → VolSt) (s : State) : (modVol v f s).pwr = s.pwr := by unfold modVol; split <;> rfl
@[simp] theorem modVol_thm (v : Nat) (f : VolSt → VolSt) (s : State) : (modVol v f s).thm = s.thm := by unfold modVol; split <;> rfl
@[simp] theorem modVol_mc (v : Nat) (f : VolSt → VolSt) (s : State) : (modVol v f s).mc = s.mc := by unfold modVol; split <;> rfl
@[simp] theorem modVol_rings (v : Nat) (f : VolSt → VolSt) (s : State) : (modVol v f s).rings = s.rings := by unfold modVol; split <;> rfl
@[simp] theorem modVol_ports (v : Nat) (f : VolSt → VolSt) (s : State) : (modVol v f s).ports = s.ports := by unfold modVol; split <;> rfl
@[simp] theorem modVol_groups (v : Nat) (f : VolSt → VolSt) (s : State) : (modVol v f s).groups = s.groups := by unfold modVol; split <;> rfl
@[simp] theorem modVol_ips (v : Nat) (f : VolSt → VolSt) (s : State) : (modVol v f s).ips = s.ips := by unfold modVol; split <;> rfl
@[simp] theorem modVol_pods (v : Nat) (f : VolSt → VolSt) (s : State) : (modVol v f s).pods = s.pods := by unfold modVol; split <;> rfl
@[simp] theorem modVol_pips (v : Nat) (f : VolSt → VolSt) (s : State) : (modVol v f s).pips = s.pips := by unfold modVol; split <;> rfl
@[simp] theorem modVol_slots (v : Nat) (f : VolSt → VolSt) (s : State) : (modVol v f s).slots = s.slots := by unfold modVol; split <;> rfl
@[simp] theorem modVol_feeds (v : Nat) (f : VolSt → VolSt) (s : State) : (modVol v f s).feeds = s.feeds := by unfold modVol; split <;> rfl
@[simp] theorem modVol_prcs (v : Nat) (f : VolSt → VolSt) (s : State) : (modVol v f s).prcs = s.prcs := by unfold modVol; split <;> rfl
@[simp] theorem modVol_prd (v : Nat) (f : VolSt → VolSt) (s : State) : (modVol v f s).prd = s.prd := by unfold modVol; split <;> rfl
@[simp] theorem modVol_hvc (v : Nat) (f : VolSt → VolSt) (s : State) : (modVol v f s).hvc = s.hvc := by unfold modVol; split <;> rfl
@[simp] theorem modVol_pke (v : Nat) (f : VolSt → VolSt) (s : State) : (modVol v f s).pke = s.pke := by unfold modVol; split <;> rfl
@[simp] theorem modVol_media (v : Nat) (f : VolSt → VolSt) (s : State) : (modVol v f s).media = s.media := by unfold modVol; split <;> rfl
@[simp] theorem modVol_oep (v : Nat) (f : VolSt → VolSt) (s : State) : (modVol v f s).oep = s.oep := by unfold modVol; split <;> rfl
@[simp] theorem modVol_sco (v : Nat) (f : VolSt → VolSt) (s : State) : (modVol v f s).sco = s.sco := by unfold modVol; split <;> rfl
@[simp] theorem modVol_auds (v : Nat) (f : VolSt → VolSt) (s : State) : (modVol v f s).auds = s.auds := by unfold modVol; split <;> rfl
@[simp] theorem modVol_nets (v : Nat) (f : VolSt → VolSt) (s : State) : (modVol v f s).nets = s.nets := by unfold modVol; split <;> rfl
@[simp] theorem modVol_nstrs (v : Nat) (f : VolSt → VolSt) (s : State) : (modVol v f s).nstrs = s.nstrs := by unfold modVol; split <;> rfl
@[simp] theorem modVol_pfis (v : Nat) (f : VolSt → VolSt) (s : State) : (modVol v f s).pfis = s.pfis := by unfold modVol; split <;> rfl
@[simp] theorem modVol_cfg (v : Nat) (f : VolSt → VolSt) (s : State) : (modVol v f s).cfg = s.cfg := by unfold modVol; split <;> rfl
@[simp] theorem modVol_mon (v : Nat) (f : VolSt → VolSt) (s : State) : (modVol v f s).mon = s.mon := by unfold modVol; split <;> rfl

@[simp] theorem modStr_pending (k : Nat) (f : StrSt → StrSt) (s : State) : (modStr k f s).pending = s.pending := rfl
@[simp] theorem modStr_variant (k : Nat) (f : StrSt → StrSt) (s : State) : (modStr k f s).variant = s.variant := rfl
@[simp] theorem modStr_now (k : Nat) (f : StrSt → StrSt) (s : State) : (modStr k f s).now = s.now := rfl
@[simp] theorem modStr_fresh (k : Nat) (f : StrSt → StrSt) (s : State) : (modStr k f s).fresh = s.fresh := rfl
@[simp] theorem modStr_live (k : Nat) (f : StrSt → StrSt) (s : State) : (modStr k f s).live = s.live := rfl
@[simp] theorem modStr_mem (k : Nat) (f : StrSt → StrSt) (s : State) : (modStr k f s).mem = s.mem := rfl
@[simp] theorem modStr_bus (k : Nat) (f : StrSt → StrSt) (s : State) : (modStr k f s).bus = s.bus := rfl
@[simp] theorem modStr_latch (k : Nat) (f : StrSt → StrSt) (s : State) : (modStr k f s).latch = s.latch := rfl
@[simp] theorem modStr_evr (k : Nat) (f : StrSt → StrSt) (s : State) : (modStr k f s).evr = s.evr := rfl
@[simp] theorem modStr_err (k : Nat) (f : StrSt → StrSt) (s : State) : (modStr k f s).err = s.err := rfl
@[simp] theorem modStr_tsu (k : Nat) (f : StrSt → StrSt) (s : State) : (modStr k f s).tsu = s.tsu := rfl
@[simp] theorem modStr_ref (k : Nat) (f : StrSt → StrSt) (s : State) : (modStr k f s).ref = s.ref := rfl
@[simp] theorem modStr_pwr (k : Nat) (f : StrSt → StrSt) (s : State) : (modStr k f s).pwr = s.pwr := rfl
@[simp] theorem modStr_thm (k : Nat) (f : StrSt → StrSt) (s : State) : (modStr k f s).thm = s.thm := rfl
@[simp] theorem modStr_mc (k : Nat) (f : StrSt → StrSt) (s : State) : (modStr k f s).mc = s.mc := rfl
@[simp] theorem modStr_rings (k : Nat) (f : StrSt → StrSt) (s : State) : (modStr k f s).rings = s.rings := rfl
@[simp] theorem modStr_ports (k : Nat) (f : StrSt → StrSt) (s : State) : (modStr k f s).ports = s.ports := rfl
@[simp] theorem modStr_groups (k : Nat) (f : StrSt → StrSt) (s : State) : (modStr k f s).groups = s.groups := rfl
@[simp] theorem modStr_ips (k : Nat) (f : StrSt → StrSt) (s : State) : (modStr k f s).ips = s.ips := rfl
@[simp] theorem modStr_pods (k : Nat) (f : StrSt → StrSt) (s : State) : (modStr k f s).pods = s.pods := rfl
@[simp] theorem modStr_pips (k : Nat) (f : StrSt → StrSt) (s : State) : (modStr k f s).pips = s.pips := rfl
@[simp] theorem modStr_slots (k : Nat) (f : StrSt → StrSt) (s : State) : (modStr k f s).slots = s.slots := rfl
@[simp] theorem modStr_feeds (k : Nat) (f : StrSt → StrSt) (s : State) : (modStr k f s).feeds = s.feeds := rfl
@[simp] theorem modStr_prcs (k : Nat) (f : StrSt → StrSt) (s : State) : (modStr k f s).prcs = s.prcs := rfl
@[simp] theorem modStr_prd (k : Nat) (f : StrSt → StrSt) (s : State) : (modStr k f s).prd = s.prd := rfl
@[simp] theorem modStr_hvc (k : Nat) (f : StrSt → StrSt) (s : State) : (modStr k f s).hvc = s.hvc := rfl
@[simp] theorem modStr_pke (k : Nat) (f : StrSt → StrSt) (s : State) : (modStr k f s).pke = s.pke := rfl
@[simp] theorem modStr_media (k : Nat) (f : StrSt → StrSt) (s : State) : (modStr k f s).media = s.media := rfl
@[simp] theorem modStr_oep (k : Nat) (f : StrSt → StrSt) (s : State) : (modStr k f s).oep = s.oep := rfl
@[simp] theorem modStr_sco (k : Nat) (f : StrSt → StrSt) (s : State) : (modStr k f s).sco = s.sco := rfl
@[simp] theorem modStr_auds (k : Nat) (f : StrSt → StrSt) (s : State) : (modStr k f s).auds = s.auds := rfl
@[simp] theorem modStr_nets (k : Nat) (f : StrSt → StrSt) (s : State) : (modStr k f s).nets = s.nets := rfl
@[simp] theorem modStr_nstrs (k : Nat) (f : StrSt → StrSt) (s : State) : (modStr k f s).nstrs = s.nstrs := rfl
@[simp] theorem modStr_pfis (k : Nat) (f : StrSt → StrSt) (s : State) : (modStr k f s).pfis = s.pfis := rfl
@[simp] theorem modStr_cfg (k : Nat) (f : StrSt → StrSt) (s : State) : (modStr k f s).cfg = s.cfg := rfl
@[simp] theorem modStr_mon (k : Nat) (f : StrSt → StrSt) (s : State) : (modStr k f s).mon = s.mon := rfl

@[simp] theorem modCmd_pending (i : Nat) (f : HostCmd → HostCmd) (s : State) : (modCmd i f s).pending = s.pending := rfl
@[simp] theorem modCmd_variant (i : Nat) (f : HostCmd → HostCmd) (s : State) : (modCmd i f s).variant = s.variant := rfl
@[simp] theorem modCmd_now (i : Nat) (f : HostCmd → HostCmd) (s : State) : (modCmd i f s).now = s.now := rfl
@[simp] theorem modCmd_fresh (i : Nat) (f : HostCmd → HostCmd) (s : State) : (modCmd i f s).fresh = s.fresh := rfl
@[simp] theorem modCmd_regs (i : Nat) (f : HostCmd → HostCmd) (s : State) : (modCmd i f s).regs = s.regs := rfl
@[simp] theorem modCmd_live (i : Nat) (f : HostCmd → HostCmd) (s : State) : (modCmd i f s).live = s.live := rfl
@[simp] theorem modCmd_mem (i : Nat) (f : HostCmd → HostCmd) (s : State) : (modCmd i f s).mem = s.mem := rfl
@[simp] theorem modCmd_bus (i : Nat) (f : HostCmd → HostCmd) (s : State) : (modCmd i f s).bus = s.bus := rfl
@[simp] theorem modCmd_latch (i : Nat) (f : HostCmd → HostCmd) (s : State) : (modCmd i f s).latch = s.latch := rfl
@[simp] theorem modCmd_evr (i : Nat) (f : HostCmd → HostCmd) (s : State) : (modCmd i f s).evr = s.evr := rfl
@[simp] theorem modCmd_err (i : Nat) (f : HostCmd → HostCmd) (s : State) : (modCmd i f s).err = s.err := rfl
@[simp] theorem modCmd_tsu (i : Nat) (f : HostCmd → HostCmd) (s : State) : (modCmd i f s).tsu = s.tsu := rfl
@[simp] theorem modCmd_ref (i : Nat) (f : HostCmd → HostCmd) (s : State) : (modCmd i f s).ref = s.ref := rfl
@[simp] theorem modCmd_pwr (i : Nat) (f : HostCmd → HostCmd) (s : State) : (modCmd i f s).pwr = s.pwr := rfl
@[simp] theorem modCmd_thm (i : Nat) (f : HostCmd → HostCmd) (s : State) : (modCmd i f s).thm = s.thm := rfl
@[simp] theorem modCmd_mc (i : Nat) (f : HostCmd → HostCmd) (s : State) : (modCmd i f s).mc = s.mc := rfl
@[simp] theorem modCmd_rings (i : Nat) (f : HostCmd → HostCmd) (s : State) : (modCmd i f s).rings = s.rings := rfl
@[simp] theorem modCmd_ports (i : Nat) (f : HostCmd → HostCmd) (s : State) : (modCmd i f s).ports = s.ports := rfl
@[simp] theorem modCmd_groups (i : Nat) (f : HostCmd → HostCmd) (s : State) : (modCmd i f s).groups = s.groups := rfl
@[simp] theorem modCmd_ips (i : Nat) (f : HostCmd → HostCmd) (s : State) : (modCmd i f s).ips = s.ips := rfl
@[simp] theorem modCmd_pods (i : Nat) (f : HostCmd → HostCmd) (s : State) : (modCmd i f s).pods = s.pods := rfl
@[simp] theorem modCmd_pips (i : Nat) (f : HostCmd → HostCmd) (s : State) : (modCmd i f s).pips = s.pips := rfl
@[simp] theorem modCmd_slots (i : Nat) (f : HostCmd → HostCmd) (s : State) : (modCmd i f s).slots = s.slots := rfl
@[simp] theorem modCmd_feeds (i : Nat) (f : HostCmd → HostCmd) (s : State) : (modCmd i f s).feeds = s.feeds := rfl
@[simp] theorem modCmd_prcs (i : Nat) (f : HostCmd → HostCmd) (s : State) : (modCmd i f s).prcs = s.prcs := rfl
@[simp] theorem modCmd_prd (i : Nat) (f : HostCmd → HostCmd) (s : State) : (modCmd i f s).prd = s.prd := rfl
@[simp] theorem modCmd_hvc (i : Nat) (f : HostCmd → HostCmd) (s : State) : (modCmd i f s).hvc = s.hvc := rfl
@[simp] theorem modCmd_pke (i : Nat) (f : HostCmd → HostCmd) (s : State) : (modCmd i f s).pke = s.pke := rfl
@[simp] theorem modCmd_media (i : Nat) (f : HostCmd → HostCmd) (s : State) : (modCmd i f s).media = s.media := rfl
@[simp] theorem modCmd_rm (i : Nat) (f : HostCmd → HostCmd) (s : State) : (modCmd i f s).rm = s.rm := rfl
@[simp] theorem modCmd_sco (i : Nat) (f : HostCmd → HostCmd) (s : State) : (modCmd i f s).sco = s.sco := rfl
@[simp] theorem modCmd_auds (i : Nat) (f : HostCmd → HostCmd) (s : State) : (modCmd i f s).auds = s.auds := rfl
@[simp] theorem modCmd_nets (i : Nat) (f : HostCmd → HostCmd) (s : State) : (modCmd i f s).nets = s.nets := rfl
@[simp] theorem modCmd_nstrs (i : Nat) (f : HostCmd → HostCmd) (s : State) : (modCmd i f s).nstrs = s.nstrs := rfl
@[simp] theorem modCmd_pfis (i : Nat) (f : HostCmd → HostCmd) (s : State) : (modCmd i f s).pfis = s.pfis := rfl
@[simp] theorem modCmd_cfg (i : Nat) (f : HostCmd → HostCmd) (s : State) : (modCmd i f s).cfg = s.cfg := rfl
@[simp] theorem modCmd_mon (i : Nat) (f : HostCmd → HostCmd) (s : State) : (modCmd i f s).mon = s.mon := rfl

@[simp] theorem modSco_pending (f : ScoSt → ScoSt) (s : State) : (modSco f s).pending = s.pending := rfl
@[simp] theorem modSco_variant (f : ScoSt → ScoSt) (s : State) : (modSco f s).variant = s.variant := rfl
@[simp] theorem modSco_now (f : ScoSt → ScoSt) (s : State) : (modSco f s).now = s.now := rfl
@[simp] theorem modSco_fresh (f : ScoSt → ScoSt) (s : State) : (modSco f s).fresh = s.fresh := rfl
@[simp] theorem modSco_regs (f : ScoSt → ScoSt) (s : State) : (modSco f s).regs = s.regs := rfl
@[simp] theorem modSco_live (f : ScoSt → ScoSt) (s : State) : (modSco f s).live = s.live := rfl
@[simp] theorem modSco_mem (f : ScoSt → ScoSt) (s : State) : (modSco f s).mem = s.mem := rfl
@[simp] theorem modSco_bus (f : ScoSt → ScoSt) (s : State) : (modSco f s).bus = s.bus := rfl
@[simp] theorem modSco_latch (f : ScoSt → ScoSt) (s : State) : (modSco f s).latch = s.latch := rfl
@[simp] theorem modSco_evr (f : ScoSt → ScoSt) (s : State) : (modSco f s).evr = s.evr := rfl
@[simp] theorem modSco_err (f : ScoSt → ScoSt) (s : State) : (modSco f s).err = s.err := rfl
@[simp] theorem modSco_tsu (f : ScoSt → ScoSt) (s : State) : (modSco f s).tsu = s.tsu := rfl
@[simp] theorem modSco_ref (f : ScoSt → ScoSt) (s : State) : (modSco f s).ref = s.ref := rfl
@[simp] theorem modSco_pwr (f : ScoSt → ScoSt) (s : State) : (modSco f s).pwr = s.pwr := rfl
@[simp] theorem modSco_thm (f : ScoSt → ScoSt) (s : State) : (modSco f s).thm = s.thm := rfl
@[simp] theorem modSco_mc (f : ScoSt → ScoSt) (s : State) : (modSco f s).mc = s.mc := rfl
@[simp] theorem modSco_rings (f : ScoSt → ScoSt) (s : State) : (modSco f s).rings = s.rings := rfl
@[simp] theorem modSco_ports (f : ScoSt → ScoSt) (s : State) : (modSco f s).ports = s.ports := rfl
@[simp] theorem modSco_groups (f : ScoSt → ScoSt) (s : State) : (modSco f s).groups = s.groups := rfl
@[simp] theorem modSco_ips (f : ScoSt → ScoSt) (s : State) : (modSco f s).ips = s.ips := rfl
@[simp] theorem modSco_pods (f : ScoSt → ScoSt) (s : State) : (modSco f s).pods = s.pods := rfl
@[simp] theorem modSco_pips (f : ScoSt → ScoSt) (s : State) : (modSco f s).pips = s.pips := rfl
@[simp] theorem modSco_slots (f : ScoSt → ScoSt) (s : State) : (modSco f s).slots = s.slots := rfl
@[simp] theorem modSco_feeds (f : ScoSt → ScoSt) (s : State) : (modSco f s).feeds = s.feeds := rfl
@[simp] theorem modSco_prcs (f : ScoSt → ScoSt) (s : State) : (modSco f s).prcs = s.prcs := rfl
@[simp] theorem modSco_prd (f : ScoSt → ScoSt) (s : State) : (modSco f s).prd = s.prd := rfl
@[simp] theorem modSco_hvc (f : ScoSt → ScoSt) (s : State) : (modSco f s).hvc = s.hvc := rfl
@[simp] theorem modSco_pke (f : ScoSt → ScoSt) (s : State) : (modSco f s).pke = s.pke := rfl
@[simp] theorem modSco_media (f : ScoSt → ScoSt) (s : State) : (modSco f s).media = s.media := rfl
@[simp] theorem modSco_rm (f : ScoSt → ScoSt) (s : State) : (modSco f s).rm = s.rm := rfl
@[simp] theorem modSco_oep (f : ScoSt → ScoSt) (s : State) : (modSco f s).oep = s.oep := rfl
@[simp] theorem modSco_auds (f : ScoSt → ScoSt) (s : State) : (modSco f s).auds = s.auds := rfl
@[simp] theorem modSco_nets (f : ScoSt → ScoSt) (s : State) : (modSco f s).nets = s.nets := rfl
@[simp] theorem modSco_nstrs (f : ScoSt → ScoSt) (s : State) : (modSco f s).nstrs = s.nstrs := rfl
@[simp] theorem modSco_pfis (f : ScoSt → ScoSt) (s : State) : (modSco f s).pfis = s.pfis := rfl
@[simp] theorem modSco_cfg (f : ScoSt → ScoSt) (s : State) : (modSco f s).cfg = s.cfg := rfl
@[simp] theorem modSco_mon (f : ScoSt → ScoSt) (s : State) : (modSco f s).mon = s.mon := rfl

@[simp] theorem modAud_pending (n : Nat) (f : AudSt → AudSt) (s : State) : (modAud n f s).pending = s.pending := rfl
@[simp] theorem modAud_variant (n : Nat) (f : AudSt → AudSt) (s : State) : (modAud n f s).variant = s.variant := rfl
@[simp] theorem modAud_now (n : Nat) (f : AudSt → AudSt) (s : State) : (modAud n f s).now = s.now := rfl
@[simp] theorem modAud_fresh (n : Nat) (f : AudSt → AudSt) (s : State) : (modAud n f s).fresh = s.fresh := rfl
@[simp] theorem modAud_regs (n : Nat) (f : AudSt → AudSt) (s : State) : (modAud n f s).regs = s.regs := rfl
@[simp] theorem modAud_live (n : Nat) (f : AudSt → AudSt) (s : State) : (modAud n f s).live = s.live := rfl
@[simp] theorem modAud_mem (n : Nat) (f : AudSt → AudSt) (s : State) : (modAud n f s).mem = s.mem := rfl
@[simp] theorem modAud_bus (n : Nat) (f : AudSt → AudSt) (s : State) : (modAud n f s).bus = s.bus := rfl
@[simp] theorem modAud_latch (n : Nat) (f : AudSt → AudSt) (s : State) : (modAud n f s).latch = s.latch := rfl
@[simp] theorem modAud_evr (n : Nat) (f : AudSt → AudSt) (s : State) : (modAud n f s).evr = s.evr := rfl
@[simp] theorem modAud_err (n : Nat) (f : AudSt → AudSt) (s : State) : (modAud n f s).err = s.err := rfl
@[simp] theorem modAud_tsu (n : Nat) (f : AudSt → AudSt) (s : State) : (modAud n f s).tsu = s.tsu := rfl
@[simp] theorem modAud_ref (n : Nat) (f : AudSt → AudSt) (s : State) : (modAud n f s).ref = s.ref := rfl
@[simp] theorem modAud_pwr (n : Nat) (f : AudSt → AudSt) (s : State) : (modAud n f s).pwr = s.pwr := rfl
@[simp] theorem modAud_thm (n : Nat) (f : AudSt → AudSt) (s : State) : (modAud n f s).thm = s.thm := rfl
@[simp] theorem modAud_mc (n : Nat) (f : AudSt → AudSt) (s : State) : (modAud n f s).mc = s.mc := rfl
@[simp] theorem modAud_rings (n : Nat) (f : AudSt → AudSt) (s : State) : (modAud n f s).rings = s.rings := rfl
@[simp] theorem modAud_ports (n : Nat) (f : AudSt → AudSt) (s : State) : (modAud n f s).ports = s.ports := rfl
@[simp] theorem modAud_groups (n : Nat) (f : AudSt → AudSt) (s : State) : (modAud n f s).groups = s.groups := rfl
@[simp] theorem modAud_ips (n : Nat) (f : AudSt → AudSt) (s : State) : (modAud n f s).ips = s.ips := rfl
@[simp] theorem modAud_pods (n : Nat) (f : AudSt → AudSt) (s : State) : (modAud n f s).pods = s.pods := rfl
@[simp] theorem modAud_pips (n : Nat) (f : AudSt → AudSt) (s : State) : (modAud n f s).pips = s.pips := rfl
@[simp] theorem modAud_slots (n : Nat) (f : AudSt → AudSt) (s : State) : (modAud n f s).slots = s.slots := rfl
@[simp] theorem modAud_feeds (n : Nat) (f : AudSt → AudSt) (s : State) : (modAud n f s).feeds = s.feeds := rfl
@[simp] theorem modAud_prcs (n : Nat) (f : AudSt → AudSt) (s : State) : (modAud n f s).prcs = s.prcs := rfl
@[simp] theorem modAud_prd (n : Nat) (f : AudSt → AudSt) (s : State) : (modAud n f s).prd = s.prd := rfl
@[simp] theorem modAud_hvc (n : Nat) (f : AudSt → AudSt) (s : State) : (modAud n f s).hvc = s.hvc := rfl
@[simp] theorem modAud_pke (n : Nat) (f : AudSt → AudSt) (s : State) : (modAud n f s).pke = s.pke := rfl
@[simp] theorem modAud_media (n : Nat) (f : AudSt → AudSt) (s : State) : (modAud n f s).media = s.media := rfl
@[simp] theorem modAud_rm (n : Nat) (f : AudSt → AudSt) (s : State) : (modAud n f s).rm = s.rm := rfl
@[simp] theorem modAud_oep (n : Nat) (f : AudSt → AudSt) (s : State) : (modAud n f s).oep = s.oep := rfl
@[simp] theorem modAud_sco (n : Nat) (f : AudSt → AudSt) (s : State) : (modAud n f s).sco = s.sco := rfl
@[simp] theorem modAud_nets (n : Nat) (f : AudSt → AudSt) (s : State) : (modAud n f s).nets = s.nets := rfl
@[simp] theorem modAud_nstrs (n : Nat) (f : AudSt → AudSt) (s : State) : (modAud n f s).nstrs = s.nstrs := rfl
@[simp] theorem modAud_pfis (n : Nat) (f : AudSt → AudSt) (s : State) : (modAud n f s).pfis = s.pfis := rfl
@[simp] theorem modAud_cfg (n : Nat) (f : AudSt → AudSt) (s : State) : (modAud n f s).cfg = s.cfg := rfl
@[simp] theorem modAud_mon (n : Nat) (f : AudSt → AudSt) (s : State) : (modAud n f s).mon = s.mon := rfl

@[simp] theorem modNet_pending (m : Nat) (f : NetSt → NetSt) (s : State) : (modNet m f s).pending = s.pending := rfl
@[simp] theorem modNet_variant (m : Nat) (f : NetSt → NetSt) (s : State) : (modNet m f s).variant = s.variant := rfl
@[simp] theorem modNet_now (m : Nat) (f : NetSt → NetSt) (s : State) : (modNet m f s).now = s.now := rfl
@[simp] theorem modNet_fresh (m : Nat) (f : NetSt → NetSt) (s : State) : (modNet m f s).fresh = s.fresh := rfl
@[simp] theorem modNet_regs (m : Nat) (f : NetSt → NetSt) (s : State) : (modNet m f s).regs = s.regs := rfl
@[simp] theorem modNet_live (m : Nat) (f : NetSt → NetSt) (s : State) : (modNet m f s).live = s.live := rfl
@[simp] theorem modNet_mem (m : Nat) (f : NetSt → NetSt) (s : State) : (modNet m f s).mem = s.mem := rfl
@[simp] theorem modNet_bus (m : Nat) (f : NetSt → NetSt) (s : State) : (modNet m f s).bus = s.bus := rfl
@[simp] theorem modNet_latch (m : Nat) (f : NetSt → NetSt) (s : State) : (modNet m f s).latch = s.latch := rfl
@[simp] theorem modNet_evr (m : Nat) (f : NetSt → NetSt) (s : State) : (modNet m f s).evr = s.evr := rfl
@[simp] theorem modNet_err (m : Nat) (f : NetSt → NetSt) (s : State) : (modNet m f s).err = s.err := rfl
@[simp] theorem modNet_tsu (m : Nat) (f : NetSt → NetSt) (s : State) : (modNet m f s).tsu = s.tsu := rfl
@[simp] theorem modNet_ref (m : Nat) (f : NetSt → NetSt) (s : State) : (modNet m f s).ref = s.ref := rfl
@[simp] theorem modNet_pwr (m : Nat) (f : NetSt → NetSt) (s : State) : (modNet m f s).pwr = s.pwr := rfl
@[simp] theorem modNet_thm (m : Nat) (f : NetSt → NetSt) (s : State) : (modNet m f s).thm = s.thm := rfl
@[simp] theorem modNet_mc (m : Nat) (f : NetSt → NetSt) (s : State) : (modNet m f s).mc = s.mc := rfl
@[simp] theorem modNet_rings (m : Nat) (f : NetSt → NetSt) (s : State) : (modNet m f s).rings = s.rings := rfl
@[simp] theorem modNet_ports (m : Nat) (f : NetSt → NetSt) (s : State) : (modNet m f s).ports = s.ports := rfl
@[simp] theorem modNet_groups (m : Nat) (f : NetSt → NetSt) (s : State) : (modNet m f s).groups = s.groups := rfl
@[simp] theorem modNet_ips (m : Nat) (f : NetSt → NetSt) (s : State) : (modNet m f s).ips = s.ips := rfl
@[simp] theorem modNet_pods (m : Nat) (f : NetSt → NetSt) (s : State) : (modNet m f s).pods = s.pods := rfl
@[simp] theorem modNet_pips (m : Nat) (f : NetSt → NetSt) (s : State) : (modNet m f s).pips = s.pips := rfl
@[simp] theorem modNet_slots (m : Nat) (f : NetSt → NetSt) (s : State) : (modNet m f s).slots = s.slots := rfl
@[simp] theorem modNet_feeds (m : Nat) (f : NetSt → NetSt) (s : State) : (modNet m f s).feeds = s.feeds := rfl
@[simp] theorem modNet_prcs (m : Nat) (f : NetSt → NetSt) (s : State) : (modNet m f s).prcs = s.prcs := rfl
@[simp] theorem modNet_prd (m : Nat) (f : NetSt → NetSt) (s : State) : (modNet m f s).prd = s.prd := rfl
@[simp] theorem modNet_hvc (m : Nat) (f : NetSt → NetSt) (s : State) : (modNet m f s).hvc = s.hvc := rfl
@[simp] theorem modNet_pke (m : Nat) (f : NetSt → NetSt) (s : State) : (modNet m f s).pke = s.pke := rfl
@[simp] theorem modNet_media (m : Nat) (f : NetSt → NetSt) (s : State) : (modNet m f s).media = s.media := rfl
@[simp] theorem modNet_rm (m : Nat) (f : NetSt → NetSt) (s : State) : (modNet m f s).rm = s.rm := rfl
@[simp] theorem modNet_oep (m : Nat) (f : NetSt → NetSt) (s : State) : (modNet m f s).oep = s.oep := rfl
@[simp] theorem modNet_sco (m : Nat) (f : NetSt → NetSt) (s : State) : (modNet m f s).sco = s.sco := rfl
@[simp] theorem modNet_auds (m : Nat) (f : NetSt → NetSt) (s : State) : (modNet m f s).auds = s.auds := rfl
@[simp] theorem modNet_nstrs (m : Nat) (f : NetSt → NetSt) (s : State) : (modNet m f s).nstrs = s.nstrs := rfl
@[simp] theorem modNet_pfis (m : Nat) (f : NetSt → NetSt) (s : State) : (modNet m f s).pfis = s.pfis := rfl
@[simp] theorem modNet_cfg (m : Nat) (f : NetSt → NetSt) (s : State) : (modNet m f s).cfg = s.cfg := rfl
@[simp] theorem modNet_mon (m : Nat) (f : NetSt → NetSt) (s : State) : (modNet m f s).mon = s.mon := rfl

@[simp] theorem modNstr_pending (k : Nat) (f : NetStr → NetStr) (s : State) : (modNstr k f s).pending = s.pending := rfl
@[simp] theorem modNstr_variant (k : Nat) (f : NetStr → NetStr) (s : State) : (modNstr k f s).variant = s.variant := rfl
@[simp] theorem modNstr_now (k : Nat) (f : NetStr → NetStr) (s : State) : (modNstr k f s).now = s.now := rfl
@[simp] theorem modNstr_fresh (k : Nat) (f : NetStr → NetStr) (s : State) : (modNstr k f s).fresh = s.fresh := rfl
@[simp] theorem modNstr_regs (k : Nat) (f : NetStr → NetStr) (s : State) : (modNstr k f s).regs = s.regs := rfl
@[simp] theorem modNstr_live (k : Nat) (f : NetStr → NetStr) (s : State) : (modNstr k f s).live = s.live := rfl
@[simp] theorem modNstr_mem (k : Nat) (f : NetStr → NetStr) (s : State) : (modNstr k f s).mem = s.mem := rfl
@[simp] theorem modNstr_bus (k : Nat) (f : NetStr → NetStr) (s : State) : (modNstr k f s).bus = s.bus := rfl
@[simp] theorem modNstr_latch (k : Nat) (f : NetStr → NetStr) (s : State) : (modNstr k f s).latch = s.latch := rfl
@[simp] theorem modNstr_evr (k : Nat) (f : NetStr → NetStr) (s : State) : (modNstr k f s).evr = s.evr := rfl
@[simp] theorem modNstr_err (k : Nat) (f : NetStr → NetStr) (s : State) : (modNstr k f s).err = s.err := rfl
@[simp] theorem modNstr_tsu (k : Nat) (f : NetStr → NetStr) (s : State) : (modNstr k f s).tsu = s.tsu := rfl
@[simp] theorem modNstr_ref (k : Nat) (f : NetStr → NetStr) (s : State) : (modNstr k f s).ref = s.ref := rfl
@[simp] theorem modNstr_pwr (k : Nat) (f : NetStr → NetStr) (s : State) : (modNstr k f s).pwr = s.pwr := rfl
@[simp] theorem modNstr_thm (k : Nat) (f : NetStr → NetStr) (s : State) : (modNstr k f s).thm = s.thm := rfl
@[simp] theorem modNstr_mc (k : Nat) (f : NetStr → NetStr) (s : State) : (modNstr k f s).mc = s.mc := rfl
@[simp] theorem modNstr_rings (k : Nat) (f : NetStr → NetStr) (s : State) : (modNstr k f s).rings = s.rings := rfl
@[simp] theorem modNstr_ports (k : Nat) (f : NetStr → NetStr) (s : State) : (modNstr k f s).ports = s.ports := rfl
@[simp] theorem modNstr_groups (k : Nat) (f : NetStr → NetStr) (s : State) : (modNstr k f s).groups = s.groups := rfl
@[simp] theorem modNstr_ips (k : Nat) (f : NetStr → NetStr) (s : State) : (modNstr k f s).ips = s.ips := rfl
@[simp] theorem modNstr_pods (k : Nat) (f : NetStr → NetStr) (s : State) : (modNstr k f s).pods = s.pods := rfl
@[simp] theorem modNstr_pips (k : Nat) (f : NetStr → NetStr) (s : State) : (modNstr k f s).pips = s.pips := rfl
@[simp] theorem modNstr_slots (k : Nat) (f : NetStr → NetStr) (s : State) : (modNstr k f s).slots = s.slots := rfl
@[simp] theorem modNstr_feeds (k : Nat) (f : NetStr → NetStr) (s : State) : (modNstr k f s).feeds = s.feeds := rfl
@[simp] theorem modNstr_prcs (k : Nat) (f : NetStr → NetStr) (s : State) : (modNstr k f s).prcs = s.prcs := rfl
@[simp] theorem modNstr_prd (k : Nat) (f : NetStr → NetStr) (s : State) : (modNstr k f s).prd = s.prd := rfl
@[simp] theorem modNstr_hvc (k : Nat) (f : NetStr → NetStr) (s : State) : (modNstr k f s).hvc = s.hvc := rfl
@[simp] theorem modNstr_pke (k : Nat) (f : NetStr → NetStr) (s : State) : (modNstr k f s).pke = s.pke := rfl
@[simp] theorem modNstr_media (k : Nat) (f : NetStr → NetStr) (s : State) : (modNstr k f s).media = s.media := rfl
@[simp] theorem modNstr_rm (k : Nat) (f : NetStr → NetStr) (s : State) : (modNstr k f s).rm = s.rm := rfl
@[simp] theorem modNstr_oep (k : Nat) (f : NetStr → NetStr) (s : State) : (modNstr k f s).oep = s.oep := rfl
@[simp] theorem modNstr_sco (k : Nat) (f : NetStr → NetStr) (s : State) : (modNstr k f s).sco = s.sco := rfl
@[simp] theorem modNstr_auds (k : Nat) (f : NetStr → NetStr) (s : State) : (modNstr k f s).auds = s.auds := rfl
@[simp] theorem modNstr_nets (k : Nat) (f : NetStr → NetStr) (s : State) : (modNstr k f s).nets = s.nets := rfl
@[simp] theorem modNstr_pfis (k : Nat) (f : NetStr → NetStr) (s : State) : (modNstr k f s).pfis = s.pfis := rfl
@[simp] theorem modNstr_cfg (k : Nat) (f : NetStr → NetStr) (s : State) : (modNstr k f s).cfg = s.cfg := rfl
@[simp] theorem modNstr_mon (k : Nat) (f : NetStr → NetStr) (s : State) : (modNstr k f s).mon = s.mon := rfl

@[simp] theorem modPfi_pending (c : Nat) (f : PfiSt → PfiSt) (s : State) : (modPfi c f s).pending = s.pending := rfl
@[simp] theorem modPfi_variant (c : Nat) (f : PfiSt → PfiSt) (s : State) : (modPfi c f s).variant = s.variant := rfl
@[simp] theorem modPfi_now (c : Nat) (f : PfiSt → PfiSt) (s : State) : (modPfi c f s).now = s.now := rfl
@[simp] theorem modPfi_fresh (c : Nat) (f : PfiSt → PfiSt) (s : State) : (modPfi c f s).fresh = s.fresh := rfl
@[simp] theorem modPfi_regs (c : Nat) (f : PfiSt → PfiSt) (s : State) : (modPfi c f s).regs = s.regs := rfl
@[simp] theorem modPfi_live (c : Nat) (f : PfiSt → PfiSt) (s : State) : (modPfi c f s).live = s.live := rfl
@[simp] theorem modPfi_mem (c : Nat) (f : PfiSt → PfiSt) (s : State) : (modPfi c f s).mem = s.mem := rfl
@[simp] theorem modPfi_bus (c : Nat) (f : PfiSt → PfiSt) (s : State) : (modPfi c f s).bus = s.bus := rfl
@[simp] theorem modPfi_latch (c : Nat) (f : PfiSt → PfiSt) (s : State) : (modPfi c f s).latch = s.latch := rfl
@[simp] theorem modPfi_evr (c : Nat) (f : PfiSt → PfiSt) (s : State) : (modPfi c f s).evr = s.evr := rfl
@[simp] theorem modPfi_err (c : Nat) (f : PfiSt → PfiSt) (s : State) : (modPfi c f s).err = s.err := rfl
@[simp] theorem modPfi_tsu (c : Nat) (f : PfiSt → PfiSt) (s : State) : (modPfi c f s).tsu = s.tsu := rfl
@[simp] theorem modPfi_ref (c : Nat) (f : PfiSt → PfiSt) (s : State) : (modPfi c f s).ref = s.ref := rfl
@[simp] theorem modPfi_pwr (c : Nat) (f : PfiSt → PfiSt) (s : State) : (modPfi c f s).pwr = s.pwr := rfl
@[simp] theorem modPfi_thm (c : Nat) (f : PfiSt → PfiSt) (s : State) : (modPfi c f s).thm = s.thm := rfl
@[simp] theorem modPfi_mc (c : Nat) (f : PfiSt → PfiSt) (s : State) : (modPfi c f s).mc = s.mc := rfl
@[simp] theorem modPfi_rings (c : Nat) (f : PfiSt → PfiSt) (s : State) : (modPfi c f s).rings = s.rings := rfl
@[simp] theorem modPfi_ports (c : Nat) (f : PfiSt → PfiSt) (s : State) : (modPfi c f s).ports = s.ports := rfl
@[simp] theorem modPfi_groups (c : Nat) (f : PfiSt → PfiSt) (s : State) : (modPfi c f s).groups = s.groups := rfl
@[simp] theorem modPfi_ips (c : Nat) (f : PfiSt → PfiSt) (s : State) : (modPfi c f s).ips = s.ips := rfl
@[simp] theorem modPfi_pods (c : Nat) (f : PfiSt → PfiSt) (s : State) : (modPfi c f s).pods = s.pods := rfl
@[simp] theorem modPfi_pips (c : Nat) (f : PfiSt → PfiSt) (s : State) : (modPfi c f s).pips = s.pips := rfl
@[simp] theorem modPfi_slots (c : Nat) (f : PfiSt → PfiSt) (s : State) : (modPfi c f s).slots = s.slots := rfl
@[simp] theorem modPfi_feeds (c : Nat) (f : PfiSt → PfiSt) (s : State) : (modPfi c f s).feeds = s.feeds := rfl
@[simp] theorem modPfi_prcs (c : Nat) (f : PfiSt → PfiSt) (s : State) : (modPfi c f s).prcs = s.prcs := rfl
@[simp] theorem modPfi_prd (c : Nat) (f : PfiSt → PfiSt) (s : State) : (modPfi c f s).prd = s.prd := rfl
@[simp] theorem modPfi_hvc (c : Nat) (f : PfiSt → PfiSt) (s : State) : (modPfi c f s).hvc = s.hvc := rfl
@[simp] theorem modPfi_pke (c : Nat) (f : PfiSt → PfiSt) (s : State) : (modPfi c f s).pke = s.pke := rfl
@[simp] theorem modPfi_media (c : Nat) (f : PfiSt → PfiSt) (s : State) : (modPfi c f s).media = s.media := rfl
@[simp] theorem modPfi_rm (c : Nat) (f : PfiSt → PfiSt) (s : State) : (modPfi c f s).rm = s.rm := rfl
@[simp] theorem modPfi_oep (c : Nat) (f : PfiSt → PfiSt) (s : State) : (modPfi c f s).oep = s.oep := rfl
@[simp] theorem modPfi_sco (c : Nat) (f : PfiSt → PfiSt) (s : State) : (modPfi c f s).sco = s.sco := rfl
@[simp] theorem modPfi_auds (c : Nat) (f : PfiSt → PfiSt) (s : State) : (modPfi c f s).auds = s.auds := rfl
@[simp] theorem modPfi_nets (c : Nat) (f : PfiSt → PfiSt) (s : State) : (modPfi c f s).nets = s.nets := rfl
@[simp] theorem modPfi_nstrs (c : Nat) (f : PfiSt → PfiSt) (s : State) : (modPfi c f s).nstrs = s.nstrs := rfl
@[simp] theorem modPfi_cfg (c : Nat) (f : PfiSt → PfiSt) (s : State) : (modPfi c f s).cfg = s.cfg := rfl
@[simp] theorem modPfi_mon (c : Nat) (f : PfiSt → PfiSt) (s : State) : (modPfi c f s).mon = s.mon := rfl

@[simp] theorem modMon_pending (f : MonSt → MonSt) (s : State) : (modMon f s).pending = s.pending := rfl
@[simp] theorem modMon_variant (f : MonSt → MonSt) (s : State) : (modMon f s).variant = s.variant := rfl
@[simp] theorem modMon_now (f : MonSt → MonSt) (s : State) : (modMon f s).now = s.now := rfl
@[simp] theorem modMon_fresh (f : MonSt → MonSt) (s : State) : (modMon f s).fresh = s.fresh := rfl
@[simp] theorem modMon_regs (f : MonSt → MonSt) (s : State) : (modMon f s).regs = s.regs := rfl
@[simp] theorem modMon_live (f : MonSt → MonSt) (s : State) : (modMon f s).live = s.live := rfl
@[simp] theorem modMon_mem (f : MonSt → MonSt) (s : State) : (modMon f s).mem = s.mem := rfl
@[simp] theorem modMon_bus (f : MonSt → MonSt) (s : State) : (modMon f s).bus = s.bus := rfl
@[simp] theorem modMon_latch (f : MonSt → MonSt) (s : State) : (modMon f s).latch = s.latch := rfl
@[simp] theorem modMon_evr (f : MonSt → MonSt) (s : State) : (modMon f s).evr = s.evr := rfl
@[simp] theorem modMon_err (f : MonSt → MonSt) (s : State) : (modMon f s).err = s.err := rfl
@[simp] theorem modMon_tsu (f : MonSt → MonSt) (s : State) : (modMon f s).tsu = s.tsu := rfl
@[simp] theorem modMon_ref (f : MonSt → MonSt) (s : State) : (modMon f s).ref = s.ref := rfl
@[simp] theorem modMon_pwr (f : MonSt → MonSt) (s : State) : (modMon f s).pwr = s.pwr := rfl
@[simp] theorem modMon_thm (f : MonSt → MonSt) (s : State) : (modMon f s).thm = s.thm := rfl
@[simp] theorem modMon_mc (f : MonSt → MonSt) (s : State) : (modMon f s).mc = s.mc := rfl
@[simp] theorem modMon_rings (f : MonSt → MonSt) (s : State) : (modMon f s).rings = s.rings := rfl
@[simp] theorem modMon_ports (f : MonSt → MonSt) (s : State) : (modMon f s).ports = s.ports := rfl
@[simp] theorem modMon_groups (f : MonSt → MonSt) (s : State) : (modMon f s).groups = s.groups := rfl
@[simp] theorem modMon_ips (f : MonSt → MonSt) (s : State) : (modMon f s).ips = s.ips := rfl
@[simp] theorem modMon_pods (f : MonSt → MonSt) (s : State) : (modMon f s).pods = s.pods := rfl
@[simp] theorem modMon_pips (f : MonSt → MonSt) (s : State) : (modMon f s).pips = s.pips := rfl
@[simp] theorem modMon_slots (f : MonSt → MonSt) (s : State) : (modMon f s).slots = s.slots := rfl
@[simp] theorem modMon_feeds (f : MonSt → MonSt) (s : State) : (modMon f s).feeds = s.feeds := rfl
@[simp] theorem modMon_prcs (f : MonSt → MonSt) (s : State) : (modMon f s).prcs = s.prcs := rfl
@[simp] theorem modMon_prd (f : MonSt → MonSt) (s : State) : (modMon f s).prd = s.prd := rfl
@[simp] theorem modMon_hvc (f : MonSt → MonSt) (s : State) : (modMon f s).hvc = s.hvc := rfl
@[simp] theorem modMon_pke (f : MonSt → MonSt) (s : State) : (modMon f s).pke = s.pke := rfl
@[simp] theorem modMon_media (f : MonSt → MonSt) (s : State) : (modMon f s).media = s.media := rfl
@[simp] theorem modMon_rm (f : MonSt → MonSt) (s : State) : (modMon f s).rm = s.rm := rfl
@[simp] theorem modMon_oep (f : MonSt → MonSt) (s : State) : (modMon f s).oep = s.oep := rfl
@[simp] theorem modMon_sco (f : MonSt → MonSt) (s : State) : (modMon f s).sco = s.sco := rfl
@[simp] theorem modMon_auds (f : MonSt → MonSt) (s : State) : (modMon f s).auds = s.auds := rfl
@[simp] theorem modMon_nets (f : MonSt → MonSt) (s : State) : (modMon f s).nets = s.nets := rfl
@[simp] theorem modMon_nstrs (f : MonSt → MonSt) (s : State) : (modMon f s).nstrs = s.nstrs := rfl
@[simp] theorem modMon_pfis (f : MonSt → MonSt) (s : State) : (modMon f s).pfis = s.pfis := rfl
@[simp] theorem modMon_cfg (f : MonSt → MonSt) (s : State) : (modMon f s).cfg = s.cfg := rfl

@[simp] theorem modCfg_pending (f : CfgSt → CfgSt) (s : State) : (modCfg f s).pending = s.pending := rfl
@[simp] theorem modCfg_variant (f : CfgSt → CfgSt) (s : State) : (modCfg f s).variant = s.variant := rfl
@[simp] theorem modCfg_now (f : CfgSt → CfgSt) (s : State) : (modCfg f s).now = s.now := rfl
@[simp] theorem modCfg_fresh (f : CfgSt → CfgSt) (s : State) : (modCfg f s).fresh = s.fresh := rfl
@[simp] theorem modCfg_regs (f : CfgSt → CfgSt) (s : State) : (modCfg f s).regs = s.regs := rfl
@[simp] theorem modCfg_live (f : CfgSt → CfgSt) (s : State) : (modCfg f s).live = s.live := rfl
@[simp] theorem modCfg_mem (f : CfgSt → CfgSt) (s : State) : (modCfg f s).mem = s.mem := rfl
@[simp] theorem modCfg_bus (f : CfgSt → CfgSt) (s : State) : (modCfg f s).bus = s.bus := rfl
@[simp] theorem modCfg_latch (f : CfgSt → CfgSt) (s : State) : (modCfg f s).latch = s.latch := rfl
@[simp] theorem modCfg_evr (f : CfgSt → CfgSt) (s : State) : (modCfg f s).evr = s.evr := rfl
@[simp] theorem modCfg_err (f : CfgSt → CfgSt) (s : State) : (modCfg f s).err = s.err := rfl
@[simp] theorem modCfg_tsu (f : CfgSt → CfgSt) (s : State) : (modCfg f s).tsu = s.tsu := rfl
@[simp] theorem modCfg_ref (f : CfgSt → CfgSt) (s : State) : (modCfg f s).ref = s.ref := rfl
@[simp] theorem modCfg_pwr (f : CfgSt → CfgSt) (s : State) : (modCfg f s).pwr = s.pwr := rfl
@[simp] theorem modCfg_thm (f : CfgSt → CfgSt) (s : State) : (modCfg f s).thm = s.thm := rfl
@[simp] theorem modCfg_mc (f : CfgSt → CfgSt) (s : State) : (modCfg f s).mc = s.mc := rfl
@[simp] theorem modCfg_rings (f : CfgSt → CfgSt) (s : State) : (modCfg f s).rings = s.rings := rfl
@[simp] theorem modCfg_ports (f : CfgSt → CfgSt) (s : State) : (modCfg f s).ports = s.ports := rfl
@[simp] theorem modCfg_groups (f : CfgSt → CfgSt) (s : State) : (modCfg f s).groups = s.groups := rfl
@[simp] theorem modCfg_ips (f : CfgSt → CfgSt) (s : State) : (modCfg f s).ips = s.ips := rfl
@[simp] theorem modCfg_pods (f : CfgSt → CfgSt) (s : State) : (modCfg f s).pods = s.pods := rfl
@[simp] theorem modCfg_pips (f : CfgSt → CfgSt) (s : State) : (modCfg f s).pips = s.pips := rfl
@[simp] theorem modCfg_slots (f : CfgSt → CfgSt) (s : State) : (modCfg f s).slots = s.slots := rfl
@[simp] theorem modCfg_feeds (f : CfgSt → CfgSt) (s : State) : (modCfg f s).feeds = s.feeds := rfl
@[simp] theorem modCfg_prcs (f : CfgSt → CfgSt) (s : State) : (modCfg f s).prcs = s.prcs := rfl
@[simp] theorem modCfg_prd (f : CfgSt → CfgSt) (s : State) : (modCfg f s).prd = s.prd := rfl
@[simp] theorem modCfg_hvc (f : CfgSt → CfgSt) (s : State) : (modCfg f s).hvc = s.hvc := rfl
@[simp] theorem modCfg_pke (f : CfgSt → CfgSt) (s : State) : (modCfg f s).pke = s.pke := rfl
@[simp] theorem modCfg_media (f : CfgSt → CfgSt) (s : State) : (modCfg f s).media = s.media := rfl
@[simp] theorem modCfg_rm (f : CfgSt → CfgSt) (s : State) : (modCfg f s).rm = s.rm := rfl
@[simp] theorem modCfg_oep (f : CfgSt → CfgSt) (s : State) : (modCfg f s).oep = s.oep := rfl
@[simp] theorem modCfg_sco (f : CfgSt → CfgSt) (s : State) : (modCfg f s).sco = s.sco := rfl
@[simp] theorem modCfg_auds (f : CfgSt → CfgSt) (s : State) : (modCfg f s).auds = s.auds := rfl
@[simp] theorem modCfg_nets (f : CfgSt → CfgSt) (s : State) : (modCfg f s).nets = s.nets := rfl
@[simp] theorem modCfg_nstrs (f : CfgSt → CfgSt) (s : State) : (modCfg f s).nstrs = s.nstrs := rfl
@[simp] theorem modCfg_pfis (f : CfgSt → CfgSt) (s : State) : (modCfg f s).pfis = s.pfis := rfl
@[simp] theorem modCfg_mon (f : CfgSt → CfgSt) (s : State) : (modCfg f s).mon = s.mon := rfl

@[simp] theorem modThm_pending (f : ThmSt → ThmSt) (s : State) : (modThm f s).pending = s.pending := rfl
@[simp] theorem modThm_variant (f : ThmSt → ThmSt) (s : State) : (modThm f s).variant = s.variant := rfl
@[simp] theorem modThm_now (f : ThmSt → ThmSt) (s : State) : (modThm f s).now = s.now := rfl
@[simp] theorem modThm_fresh (f : ThmSt → ThmSt) (s : State) : (modThm f s).fresh = s.fresh := rfl
@[simp] theorem modThm_regs (f : ThmSt → ThmSt) (s : State) : (modThm f s).regs = s.regs := rfl
@[simp] theorem modThm_live (f : ThmSt → ThmSt) (s : State) : (modThm f s).live = s.live := rfl
@[simp] theorem modThm_mem (f : ThmSt → ThmSt) (s : State) : (modThm f s).mem = s.mem := rfl
@[simp] theorem modThm_bus (f : ThmSt → ThmSt) (s : State) : (modThm f s).bus = s.bus := rfl
@[simp] theorem modThm_latch (f : ThmSt → ThmSt) (s : State) : (modThm f s).latch = s.latch := rfl
@[simp] theorem modThm_evr (f : ThmSt → ThmSt) (s : State) : (modThm f s).evr = s.evr := rfl
@[simp] theorem modThm_err (f : ThmSt → ThmSt) (s : State) : (modThm f s).err = s.err := rfl
@[simp] theorem modThm_tsu (f : ThmSt → ThmSt) (s : State) : (modThm f s).tsu = s.tsu := rfl
@[simp] theorem modThm_ref (f : ThmSt → ThmSt) (s : State) : (modThm f s).ref = s.ref := rfl
@[simp] theorem modThm_pwr (f : ThmSt → ThmSt) (s : State) : (modThm f s).pwr = s.pwr := rfl
@[simp] theorem modThm_mc (f : ThmSt → ThmSt) (s : State) : (modThm f s).mc = s.mc := rfl
@[simp] theorem modThm_rings (f : ThmSt → ThmSt) (s : State) : (modThm f s).rings = s.rings := rfl
@[simp] theorem modThm_ports (f : ThmSt → ThmSt) (s : State) : (modThm f s).ports = s.ports := rfl
@[simp] theorem modThm_groups (f : ThmSt → ThmSt) (s : State) : (modThm f s).groups = s.groups := rfl
@[simp] theorem modThm_ips (f : ThmSt → ThmSt) (s : State) : (modThm f s).ips = s.ips := rfl
@[simp] theorem modThm_pods (f : ThmSt → ThmSt) (s : State) : (modThm f s).pods = s.pods := rfl
@[simp] theorem modThm_pips (f : ThmSt → ThmSt) (s : State) : (modThm f s).pips = s.pips := rfl
@[simp] theorem modThm_slots (f : ThmSt → ThmSt) (s : State) : (modThm f s).slots = s.slots := rfl
@[simp] theorem modThm_feeds (f : ThmSt → ThmSt) (s : State) : (modThm f s).feeds = s.feeds := rfl
@[simp] theorem modThm_prcs (f : ThmSt → ThmSt) (s : State) : (modThm f s).prcs = s.prcs := rfl
@[simp] theorem modThm_prd (f : ThmSt → ThmSt) (s : State) : (modThm f s).prd = s.prd := rfl
@[simp] theorem modThm_hvc (f : ThmSt → ThmSt) (s : State) : (modThm f s).hvc = s.hvc := rfl
@[simp] theorem modThm_pke (f : ThmSt → ThmSt) (s : State) : (modThm f s).pke = s.pke := rfl
@[simp] theorem modThm_media (f : ThmSt → ThmSt) (s : State) : (modThm f s).media = s.media := rfl
@[simp] theorem modThm_rm (f : ThmSt → ThmSt) (s : State) : (modThm f s).rm = s.rm := rfl
@[simp] theorem modThm_oep (f : ThmSt → ThmSt) (s : State) : (modThm f s).oep = s.oep := rfl
@[simp] theorem modThm_sco (f : ThmSt → ThmSt) (s : State) : (modThm f s).sco = s.sco := rfl
@[simp] theorem modThm_auds (f : ThmSt → ThmSt) (s : State) : (modThm f s).auds = s.auds := rfl
@[simp] theorem modThm_nets (f : ThmSt → ThmSt) (s : State) : (modThm f s).nets = s.nets := rfl
@[simp] theorem modThm_nstrs (f : ThmSt → ThmSt) (s : State) : (modThm f s).nstrs = s.nstrs := rfl
@[simp] theorem modThm_pfis (f : ThmSt → ThmSt) (s : State) : (modThm f s).pfis = s.pfis := rfl
@[simp] theorem modThm_cfg (f : ThmSt → ThmSt) (s : State) : (modThm f s).cfg = s.cfg := rfl
@[simp] theorem modThm_mon (f : ThmSt → ThmSt) (s : State) : (modThm f s).mon = s.mon := rfl

@[simp] theorem modPwr_pending (f : PwrSt → PwrSt) (s : State) : (modPwr f s).pending = s.pending := rfl
@[simp] theorem modPwr_variant (f : PwrSt → PwrSt) (s : State) : (modPwr f s).variant = s.variant := rfl
@[simp] theorem modPwr_now (f : PwrSt → PwrSt) (s : State) : (modPwr f s).now = s.now := rfl
@[simp] theorem modPwr_fresh (f : PwrSt → PwrSt) (s : State) : (modPwr f s).fresh = s.fresh := rfl
@[simp] theorem modPwr_regs (f : PwrSt → PwrSt) (s : State) : (modPwr f s).regs = s.regs := rfl
@[simp] theorem modPwr_live (f : PwrSt → PwrSt) (s : State) : (modPwr f s).live = s.live := rfl
@[simp] theorem modPwr_mem (f : PwrSt → PwrSt) (s : State) : (modPwr f s).mem = s.mem := rfl
@[simp] theorem modPwr_bus (f : PwrSt → PwrSt) (s : State) : (modPwr f s).bus = s.bus := rfl
@[simp] theorem modPwr_latch (f : PwrSt → PwrSt) (s : State) : (modPwr f s).latch = s.latch := rfl
@[simp] theorem modPwr_evr (f : PwrSt → PwrSt) (s : State) : (modPwr f s).evr = s.evr := rfl
@[simp] theorem modPwr_err (f : PwrSt → PwrSt) (s : State) : (modPwr f s).err = s.err := rfl
@[simp] theorem modPwr_tsu (f : PwrSt → PwrSt) (s : State) : (modPwr f s).tsu = s.tsu := rfl
@[simp] theorem modPwr_ref (f : PwrSt → PwrSt) (s : State) : (modPwr f s).ref = s.ref := rfl
@[simp] theorem modPwr_thm (f : PwrSt → PwrSt) (s : State) : (modPwr f s).thm = s.thm := rfl
@[simp] theorem modPwr_mc (f : PwrSt → PwrSt) (s : State) : (modPwr f s).mc = s.mc := rfl
@[simp] theorem modPwr_rings (f : PwrSt → PwrSt) (s : State) : (modPwr f s).rings = s.rings := rfl
@[simp] theorem modPwr_ports (f : PwrSt → PwrSt) (s : State) : (modPwr f s).ports = s.ports := rfl
@[simp] theorem modPwr_groups (f : PwrSt → PwrSt) (s : State) : (modPwr f s).groups = s.groups := rfl
@[simp] theorem modPwr_ips (f : PwrSt → PwrSt) (s : State) : (modPwr f s).ips = s.ips := rfl
@[simp] theorem modPwr_pods (f : PwrSt → PwrSt) (s : State) : (modPwr f s).pods = s.pods := rfl
@[simp] theorem modPwr_pips (f : PwrSt → PwrSt) (s : State) : (modPwr f s).pips = s.pips := rfl
@[simp] theorem modPwr_slots (f : PwrSt → PwrSt) (s : State) : (modPwr f s).slots = s.slots := rfl
@[simp] theorem modPwr_feeds (f : PwrSt → PwrSt) (s : State) : (modPwr f s).feeds = s.feeds := rfl
@[simp] theorem modPwr_prcs (f : PwrSt → PwrSt) (s : State) : (modPwr f s).prcs = s.prcs := rfl
@[simp] theorem modPwr_prd (f : PwrSt → PwrSt) (s : State) : (modPwr f s).prd = s.prd := rfl
@[simp] theorem modPwr_hvc (f : PwrSt → PwrSt) (s : State) : (modPwr f s).hvc = s.hvc := rfl
@[simp] theorem modPwr_pke (f : PwrSt → PwrSt) (s : State) : (modPwr f s).pke = s.pke := rfl
@[simp] theorem modPwr_media (f : PwrSt → PwrSt) (s : State) : (modPwr f s).media = s.media := rfl
@[simp] theorem modPwr_rm (f : PwrSt → PwrSt) (s : State) : (modPwr f s).rm = s.rm := rfl
@[simp] theorem modPwr_oep (f : PwrSt → PwrSt) (s : State) : (modPwr f s).oep = s.oep := rfl
@[simp] theorem modPwr_sco (f : PwrSt → PwrSt) (s : State) : (modPwr f s).sco = s.sco := rfl
@[simp] theorem modPwr_auds (f : PwrSt → PwrSt) (s : State) : (modPwr f s).auds = s.auds := rfl
@[simp] theorem modPwr_nets (f : PwrSt → PwrSt) (s : State) : (modPwr f s).nets = s.nets := rfl
@[simp] theorem modPwr_nstrs (f : PwrSt → PwrSt) (s : State) : (modPwr f s).nstrs = s.nstrs := rfl
@[simp] theorem modPwr_pfis (f : PwrSt → PwrSt) (s : State) : (modPwr f s).pfis = s.pfis := rfl
@[simp] theorem modPwr_cfg (f : PwrSt → PwrSt) (s : State) : (modPwr f s).cfg = s.cfg := rfl
@[simp] theorem modPwr_mon (f : PwrSt → PwrSt) (s : State) : (modPwr f s).mon = s.mon := rfl

@[simp] theorem putRing_pending (r : RingId) (g : RingSt) (s : State) : (putRing r g s).pending = s.pending := rfl
@[simp] theorem putRing_variant (r : RingId) (g : RingSt) (s : State) : (putRing r g s).variant = s.variant := rfl
@[simp] theorem putRing_now (r : RingId) (g : RingSt) (s : State) : (putRing r g s).now = s.now := rfl
@[simp] theorem putRing_fresh (r : RingId) (g : RingSt) (s : State) : (putRing r g s).fresh = s.fresh := rfl
@[simp] theorem putRing_live (r : RingId) (g : RingSt) (s : State) : (putRing r g s).live = s.live := rfl
@[simp] theorem putRing_mem (r : RingId) (g : RingSt) (s : State) : (putRing r g s).mem = s.mem := rfl
@[simp] theorem putRing_bus (r : RingId) (g : RingSt) (s : State) : (putRing r g s).bus = s.bus := rfl
@[simp] theorem putRing_latch (r : RingId) (g : RingSt) (s : State) : (putRing r g s).latch = s.latch := rfl
@[simp] theorem putRing_evr (r : RingId) (g : RingSt) (s : State) : (putRing r g s).evr = s.evr := rfl
@[simp] theorem putRing_err (r : RingId) (g : RingSt) (s : State) : (putRing r g s).err = s.err := rfl
@[simp] theorem putRing_tsu (r : RingId) (g : RingSt) (s : State) : (putRing r g s).tsu = s.tsu := rfl
@[simp] theorem putRing_ref (r : RingId) (g : RingSt) (s : State) : (putRing r g s).ref = s.ref := rfl
@[simp] theorem putRing_pwr (r : RingId) (g : RingSt) (s : State) : (putRing r g s).pwr = s.pwr := rfl
@[simp] theorem putRing_thm (r : RingId) (g : RingSt) (s : State) : (putRing r g s).thm = s.thm := rfl
@[simp] theorem putRing_mc (r : RingId) (g : RingSt) (s : State) : (putRing r g s).mc = s.mc := rfl
@[simp] theorem putRing_ports (r : RingId) (g : RingSt) (s : State) : (putRing r g s).ports = s.ports := rfl
@[simp] theorem putRing_groups (r : RingId) (g : RingSt) (s : State) : (putRing r g s).groups = s.groups := rfl
@[simp] theorem putRing_ips (r : RingId) (g : RingSt) (s : State) : (putRing r g s).ips = s.ips := rfl
@[simp] theorem putRing_pods (r : RingId) (g : RingSt) (s : State) : (putRing r g s).pods = s.pods := rfl
@[simp] theorem putRing_pips (r : RingId) (g : RingSt) (s : State) : (putRing r g s).pips = s.pips := rfl
@[simp] theorem putRing_slots (r : RingId) (g : RingSt) (s : State) : (putRing r g s).slots = s.slots := rfl
@[simp] theorem putRing_feeds (r : RingId) (g : RingSt) (s : State) : (putRing r g s).feeds = s.feeds := rfl
@[simp] theorem putRing_prcs (r : RingId) (g : RingSt) (s : State) : (putRing r g s).prcs = s.prcs := rfl
@[simp] theorem putRing_prd (r : RingId) (g : RingSt) (s : State) : (putRing r g s).prd = s.prd := rfl
@[simp] theorem putRing_hvc (r : RingId) (g : RingSt) (s : State) : (putRing r g s).hvc = s.hvc := rfl
@[simp] theorem putRing_pke (r : RingId) (g : RingSt) (s : State) : (putRing r g s).pke = s.pke := rfl
@[simp] theorem putRing_media (r : RingId) (g : RingSt) (s : State) : (putRing r g s).media = s.media := rfl
@[simp] theorem putRing_rm (r : RingId) (g : RingSt) (s : State) : (putRing r g s).rm = s.rm := rfl
@[simp] theorem putRing_oep (r : RingId) (g : RingSt) (s : State) : (putRing r g s).oep = s.oep := rfl
@[simp] theorem putRing_sco (r : RingId) (g : RingSt) (s : State) : (putRing r g s).sco = s.sco := rfl
@[simp] theorem putRing_auds (r : RingId) (g : RingSt) (s : State) : (putRing r g s).auds = s.auds := rfl
@[simp] theorem putRing_nets (r : RingId) (g : RingSt) (s : State) : (putRing r g s).nets = s.nets := rfl
@[simp] theorem putRing_nstrs (r : RingId) (g : RingSt) (s : State) : (putRing r g s).nstrs = s.nstrs := rfl
@[simp] theorem putRing_pfis (r : RingId) (g : RingSt) (s : State) : (putRing r g s).pfis = s.pfis := rfl
@[simp] theorem putRing_cfg (r : RingId) (g : RingSt) (s : State) : (putRing r g s).cfg = s.cfg := rfl
@[simp] theorem putRing_mon (r : RingId) (g : RingSt) (s : State) : (putRing r g s).mon = s.mon := rfl

@[simp] theorem draw_pending (s : State) : (draw s).2.pending = s.pending := rfl
@[simp] theorem draw_variant (s : State) : (draw s).2.variant = s.variant := rfl
@[simp] theorem draw_now (s : State) : (draw s).2.now = s.now := rfl
@[simp] theorem draw_regs (s : State) : (draw s).2.regs = s.regs := rfl
@[simp] theorem draw_live (s : State) : (draw s).2.live = s.live := rfl
@[simp] theorem draw_mem (s : State) : (draw s).2.mem = s.mem := rfl
@[simp] theorem draw_bus (s : State) : (draw s).2.bus = s.bus := rfl
@[simp] theorem draw_latch (s : State) : (draw s).2.latch = s.latch := rfl
@[simp] theorem draw_evr (s : State) : (draw s).2.evr = s.evr := rfl
@[simp] theorem draw_err (s : State) : (draw s).2.err = s.err := rfl
@[simp] theorem draw_tsu (s : State) : (draw s).2.tsu = s.tsu := rfl
@[simp] theorem draw_ref (s : State) : (draw s).2.ref = s.ref := rfl
@[simp] theorem draw_pwr (s : State) : (draw s).2.pwr = s.pwr := rfl
@[simp] theorem draw_thm (s : State) : (draw s).2.thm = s.thm := rfl
@[simp] theorem draw_mc (s : State) : (draw s).2.mc = s.mc := rfl
@[simp] theorem draw_rings (s : State) : (draw s).2.rings = s.rings := rfl
@[simp] theorem draw_ports (s : State) : (draw s).2.ports = s.ports := rfl
@[simp] theorem draw_groups (s : State) : (draw s).2.groups = s.groups := rfl
@[simp] theorem draw_ips (s : State) : (draw s).2.ips = s.ips := rfl
@[simp] theorem draw_pods (s : State) : (draw s).2.pods = s.pods := rfl
@[simp] theorem draw_pips (s : State) : (draw s).2.pips = s.pips := rfl
@[simp] theorem draw_slots (s : State) : (draw s).2.slots = s.slots := rfl
@[simp] theorem draw_feeds (s : State) : (draw s).2.feeds = s.feeds := rfl
@[simp] theorem draw_prcs (s : State) : (draw s).2.prcs = s.prcs := rfl
@[simp] theorem draw_prd (s : State) : (draw s).2.prd = s.prd := rfl
@[simp] theorem draw_hvc (s : State) : (draw s).2.hvc = s.hvc := rfl
@[simp] theorem draw_pke (s : State) : (draw s).2.pke = s.pke := rfl
@[simp] theorem draw_media (s : State) : (draw s).2.media = s.media := rfl
@[simp] theorem draw_rm (s : State) : (draw s).2.rm = s.rm := rfl
@[simp] theorem draw_oep (s : State) : (draw s).2.oep = s.oep := rfl
@[simp] theorem draw_sco (s : State) : (draw s).2.sco = s.sco := rfl
@[simp] theorem draw_auds (s : State) : (draw s).2.auds = s.auds := rfl
@[simp] theorem draw_nets (s : State) : (draw s).2.nets = s.nets := rfl
@[simp] theorem draw_nstrs (s : State) : (draw s).2.nstrs = s.nstrs := rfl
@[simp] theorem draw_pfis (s : State) : (draw s).2.pfis = s.pfis := rfl
@[simp] theorem draw_cfg (s : State) : (draw s).2.cfg = s.cfg := rfl
@[simp] theorem draw_mon (s : State) : (draw s).2.mon = s.mon := rfl

end Sys2Proof.Machine
end

