-- ==== Sys2Proof/Laws/Ops.lean ====
section
/-! SUPPORT. What the shared operations can do, once for each: register fields, events, examinations and time. -/

namespace Sys2Proof.Machine

/-! ### Register fields -/

@[simp] theorem rd_wr_self (a : Nat) (w : Word) (s : State) : (wr a w s).rd a = w := by
  simp [wr, State.rd]

theorem rd_wr_of_ne (a b : Nat) (w : Word) (s : State) (h : b ≠ a) : (wr a w s).rd b = s.rd b := by
  simp [wr, State.rd, look_put_of_ne s.regs a w b h]

/-- What a word's field reads after it is set. -/
theorem bitsOf_setBits_self (w : Word) (hi lo v : Nat) (h : lo ≤ hi) (h31 : hi ≤ 31) :
    bitsOf (setBits w hi lo v).toNat hi lo = v % 2 ^ (hi - lo + 1) := by
  have hw := w.isLt
  unfold setBits bitsOf
  simp only
  generalize w.toNat = n at hw ⊢
  have hk : 0 < 2 ^ (hi - lo + 1) := by positivity
  have hl : 0 < 2 ^ lo := by positivity
  have hp : 2 ^ lo * 2 ^ (hi - lo + 1) ∣ 2 ^ 32 := by
    rw [← pow_add]
    exact pow_dvd_pow 2 (by omega)
  generalize 2 ^ (hi - lo + 1) = k at hk hp ⊢
  generalize 2 ^ lo = l at hl hp ⊢
  rw [BitVec.toNat_ofNat]
  have e1 : n / l % k * l ≤ n := le_trans (Nat.mul_le_mul_right l (Nat.mod_le _ _)) (Nat.div_mul_le_self n l)
  have e2 : n = (n / l / k * k + n / l % k) * l + n % l := by
    rw [Nat.div_add_mod', Nat.div_add_mod']
  have e3 : n - n / l % k * l + v % k * l = (n / l / k * k + v % k) * l + n % l := by
    have : n - n / l % k * l = n / l / k * k * l + n % l := by
      conv_lhs => rw [e2]
      have e4 : ((n / l / k * k + n / l % k) * l + n % l) / l % k = n / l % k := by rw [← e2]
      rw [e4, Nat.add_mul]
      omega
    rw [this, Nat.add_mul]
    omega
  rw [e3]
  obtain ⟨c, hc⟩ := hp
  rw [hc, Nat.mul_assoc, Nat.mod_mul_right_div_self, Nat.mod_mul_right_mod]
  rw [Nat.add_comm, Nat.add_mul_div_right _ _ hl, Nat.div_eq_of_lt (Nat.mod_lt _ hl), Nat.zero_add, Nat.add_comm,
    Nat.add_mul_mod_self_right, Nat.mod_mod]

/-- A field reads what was set, in its width. -/
theorem f_setF_self (x : Fld) (v : Nat) (s : State) (h : x.lo ≤ x.hi) (h31 : x.hi ≤ 31) :
    (setF x v s).f x = v % 2 ^ (x.hi - x.lo + 1) := by
  unfold State.f setF
  rw [rd_wr_self]
  exact bitsOf_setBits_self _ _ _ _ h h31

/-- A field of another register reads as before. -/
theorem f_setF_of_ne (x y : Fld) (v : Nat) (s : State) (h : y.addr ≠ x.addr) : (setF x v s).f y = s.f y := by
  unfold State.f setF
  rw [rd_wr_of_ne _ _ _ _ h]

theorem f_wr_of_ne (a : Nat) (w : Word) (y : Fld) (s : State) (h : y.addr ≠ a) : (wr a w s).f y = s.f y := by
  unfold State.f
  rw [rd_wr_of_ne _ _ _ _ h]

/-! ### Events (R24, R25) -/

/-- An event raised is behind those already in flight, or nothing changes. -/
theorem raiseAt_cases (t : Stamp) (blk loc arg : Nat) (s : State) :
    ((s.evtOn blk loc = true ∧ s.pwr.testHold = false) ∧
      raiseAt t blk loc arg s =
        { s with evr := { s.evr with flight := s.evr.flight ++ [⟨blk * 256 + loc, arg % 65536, t⟩] } }) ∨
    ((s.evtOn blk loc = false ∨ s.pwr.testHold = true) ∧ raiseAt t blk loc arg s = s) := by
  unfold raiseAt
  cases h1 : s.evtOn blk loc <;> cases h2 : s.pwr.testHold <;> simp

@[simp] theorem raiseAt_pending (t : Stamp) (blk loc arg : Nat) (s : State) : (raiseAt t blk loc arg s).pending = s.pending := by
  unfold raiseAt; split <;> rfl
@[simp] theorem raiseAt_variant (t : Stamp) (blk loc arg : Nat) (s : State) : (raiseAt t blk loc arg s).variant = s.variant := by
  unfold raiseAt; split <;> rfl
@[simp] theorem raiseAt_now (t : Stamp) (blk loc arg : Nat) (s : State) : (raiseAt t blk loc arg s).now = s.now := by
  unfold raiseAt; split <;> rfl
@[simp] theorem raiseAt_fresh (t : Stamp) (blk loc arg : Nat) (s : State) : (raiseAt t blk loc arg s).fresh = s.fresh := by
  unfold raiseAt; split <;> rfl
@[simp] theorem raiseAt_regs (t : Stamp) (blk loc arg : Nat) (s : State) : (raiseAt t blk loc arg s).regs = s.regs := by
  unfold raiseAt; split <;> rfl
@[simp] theorem raiseAt_live (t : Stamp) (blk loc arg : Nat) (s : State) : (raiseAt t blk loc arg s).live = s.live := by
  unfold raiseAt; split <;> rfl
@[simp] theorem raiseAt_mem (t : Stamp) (blk loc arg : Nat) (s : State) : (raiseAt t blk loc arg s).mem = s.mem := by
  unfold raiseAt; split <;> rfl
@[simp] theorem raiseAt_bus (t : Stamp) (blk loc arg : Nat) (s : State) : (raiseAt t blk loc arg s).bus = s.bus := by
  unfold raiseAt; split <;> rfl
@[simp] theorem raiseAt_latch (t : Stamp) (blk loc arg : Nat) (s : State) : (raiseAt t blk loc arg s).latch = s.latch := by
  unfold raiseAt; split <;> rfl
@[simp] theorem raiseAt_err (t : Stamp) (blk loc arg : Nat) (s : State) : (raiseAt t blk loc arg s).err = s.err := by
  unfold raiseAt; split <;> rfl
@[simp] theorem raiseAt_tsu (t : Stamp) (blk loc arg : Nat) (s : State) : (raiseAt t blk loc arg s).tsu = s.tsu := by
  unfold raiseAt; split <;> rfl
@[simp] theorem raiseAt_ref (t : Stamp) (blk loc arg : Nat) (s : State) : (raiseAt t blk loc arg s).ref = s.ref := by
  unfold raiseAt; split <;> rfl
@[simp] theorem raiseAt_pwr (t : Stamp) (blk loc arg : Nat) (s : State) : (raiseAt t blk loc arg s).pwr = s.pwr := by
  unfold raiseAt; split <;> rfl
@[simp] theorem raiseAt_thm (t : Stamp) (blk loc arg : Nat) (s : State) : (raiseAt t blk loc arg s).thm = s.thm := by
  unfold raiseAt; split <;> rfl
@[simp] theorem raiseAt_mc (t : Stamp) (blk loc arg : Nat) (s : State) : (raiseAt t blk loc arg s).mc = s.mc := by
  unfold raiseAt; split <;> rfl
@[simp] theorem raiseAt_rings (t : Stamp) (blk loc arg : Nat) (s : State) : (raiseAt t blk loc arg s).rings = s.rings := by
  unfold raiseAt; split <;> rfl
@[simp] theorem raiseAt_ports (t : Stamp) (blk loc arg : Nat) (s : State) : (raiseAt t blk loc arg s).ports = s.ports := by
  unfold raiseAt; split <;> rfl
@[simp] theorem raiseAt_groups (t : Stamp) (blk loc arg : Nat) (s : State) : (raiseAt t blk loc arg s).groups = s.groups := by
  unfold raiseAt; split <;> rfl
@[simp] theorem raiseAt_ips (t : Stamp) (blk loc arg : Nat) (s : State) : (raiseAt t blk loc arg s).ips = s.ips := by
  unfold raiseAt; split <;> rfl
@[simp] theorem raiseAt_pods (t : Stamp) (blk loc arg : Nat) (s : State) : (raiseAt t blk loc arg s).pods = s.pods := by
  unfold raiseAt; split <;> rfl
@[simp] theorem raiseAt_pips (t : Stamp) (blk loc arg : Nat) (s : State) : (raiseAt t blk loc arg s).pips = s.pips := by
  unfold raiseAt; split <;> rfl
@[simp] theorem raiseAt_slots (t : Stamp) (blk loc arg : Nat) (s : State) : (raiseAt t blk loc arg s).slots = s.slots := by
  unfold raiseAt; split <;> rfl
@[simp] theorem raiseAt_feeds (t : Stamp) (blk loc arg : Nat) (s : State) : (raiseAt t blk loc arg s).feeds = s.feeds := by
  unfold raiseAt; split <;> rfl
@[simp] theorem raiseAt_prcs (t : Stamp) (blk loc arg : Nat) (s : State) : (raiseAt t blk loc arg s).prcs = s.prcs := by
  unfold raiseAt; split <;> rfl
@[simp] theorem raiseAt_prd (t : Stamp) (blk loc arg : Nat) (s : State) : (raiseAt t blk loc arg s).prd = s.prd := by
  unfold raiseAt; split <;> rfl
@[simp] theorem raiseAt_hvc (t : Stamp) (blk loc arg : Nat) (s : State) : (raiseAt t blk loc arg s).hvc = s.hvc := by
  unfold raiseAt; split <;> rfl
@[simp] theorem raiseAt_pke (t : Stamp) (blk loc arg : Nat) (s : State) : (raiseAt t blk loc arg s).pke = s.pke := by
  unfold raiseAt; split <;> rfl
@[simp] theorem raiseAt_media (t : Stamp) (blk loc arg : Nat) (s : State) : (raiseAt t blk loc arg s).media = s.media := by
  unfold raiseAt; split <;> rfl
@[simp] theorem raiseAt_rm (t : Stamp) (blk loc arg : Nat) (s : State) : (raiseAt t blk loc arg s).rm = s.rm := by
  unfold raiseAt; split <;> rfl
@[simp] theorem raiseAt_oep (t : Stamp) (blk loc arg : Nat) (s : State) : (raiseAt t blk loc arg s).oep = s.oep := by
  unfold raiseAt; split <;> rfl
@[simp] theorem raiseAt_sco (t : Stamp) (blk loc arg : Nat) (s : State) : (raiseAt t blk loc arg s).sco = s.sco := by
  unfold raiseAt; split <;> rfl
@[simp] theorem raiseAt_auds (t : Stamp) (blk loc arg : Nat) (s : State) : (raiseAt t blk loc arg s).auds = s.auds := by
  unfold raiseAt; split <;> rfl
@[simp] theorem raiseAt_nets (t : Stamp) (blk loc arg : Nat) (s : State) : (raiseAt t blk loc arg s).nets = s.nets := by
  unfold raiseAt; split <;> rfl
@[simp] theorem raiseAt_nstrs (t : Stamp) (blk loc arg : Nat) (s : State) : (raiseAt t blk loc arg s).nstrs = s.nstrs := by
  unfold raiseAt; split <;> rfl
@[simp] theorem raiseAt_pfis (t : Stamp) (blk loc arg : Nat) (s : State) : (raiseAt t blk loc arg s).pfis = s.pfis := by
  unfold raiseAt; split <;> rfl
@[simp] theorem raiseAt_cfg (t : Stamp) (blk loc arg : Nat) (s : State) : (raiseAt t blk loc arg s).cfg = s.cfg := by
  unfold raiseAt; split <;> rfl
@[simp] theorem raiseAt_mon (t : Stamp) (blk loc arg : Nat) (s : State) : (raiseAt t blk loc arg s).mon = s.mon := by
  unfold raiseAt; split <;> rfl
@[simp] theorem raise_pending (blk loc arg : Nat) (s : State) : (raise blk loc arg s).pending = s.pending :=
  raiseAt_pending _ _ _ _ s
@[simp] theorem raise_variant (blk loc arg : Nat) (s : State) : (raise blk loc arg s).variant = s.variant :=
  raiseAt_variant _ _ _ _ s
@[simp] theorem raise_now (blk loc arg : Nat) (s : State) : (raise blk loc arg s).now = s.now :=
  raiseAt_now _ _ _ _ s
@[simp] theorem raise_fresh (blk loc arg : Nat) (s : State) : (raise blk loc arg s).fresh = s.fresh :=
  raiseAt_fresh _ _ _ _ s
@[simp] theorem raise_regs (blk loc arg : Nat) (s : State) : (raise blk loc arg s).regs = s.regs :=
  raiseAt_regs _ _ _ _ s
@[simp] theorem raise_live (blk loc arg : Nat) (s : State) : (raise blk loc arg s).live = s.live :=
  raiseAt_live _ _ _ _ s
@[simp] theorem raise_mem (blk loc arg : Nat) (s : State) : (raise blk loc arg s).mem = s.mem :=
  raiseAt_mem _ _ _ _ s
@[simp] theorem raise_bus (blk loc arg : Nat) (s : State) : (raise blk loc arg s).bus = s.bus :=
  raiseAt_bus _ _ _ _ s
@[simp] theorem raise_latch (blk loc arg : Nat) (s : State) : (raise blk loc arg s).latch = s.latch :=
  raiseAt_latch _ _ _ _ s
@[simp] theorem raise_err (blk loc arg : Nat) (s : State) : (raise blk loc arg s).err = s.err :=
  raiseAt_err _ _ _ _ s
@[simp] theorem raise_tsu (blk loc arg : Nat) (s : State) : (raise blk loc arg s).tsu = s.tsu :=
  raiseAt_tsu _ _ _ _ s
@[simp] theorem raise_ref (blk loc arg : Nat) (s : State) : (raise blk loc arg s).ref = s.ref :=
  raiseAt_ref _ _ _ _ s
@[simp] theorem raise_pwr (blk loc arg : Nat) (s : State) : (raise blk loc arg s).pwr = s.pwr :=
  raiseAt_pwr _ _ _ _ s
@[simp] theorem raise_thm (blk loc arg : Nat) (s : State) : (raise blk loc arg s).thm = s.thm :=
  raiseAt_thm _ _ _ _ s
@[simp] theorem raise_mc (blk loc arg : Nat) (s : State) : (raise blk loc arg s).mc = s.mc :=
  raiseAt_mc _ _ _ _ s
@[simp] theorem raise_rings (blk loc arg : Nat) (s : State) : (raise blk loc arg s).rings = s.rings :=
  raiseAt_rings _ _ _ _ s
@[simp] theorem raise_ports (blk loc arg : Nat) (s : State) : (raise blk loc arg s).ports = s.ports :=
  raiseAt_ports _ _ _ _ s
@[simp] theorem raise_groups (blk loc arg : Nat) (s : State) : (raise blk loc arg s).groups = s.groups :=
  raiseAt_groups _ _ _ _ s
@[simp] theorem raise_ips (blk loc arg : Nat) (s : State) : (raise blk loc arg s).ips = s.ips :=
  raiseAt_ips _ _ _ _ s
@[simp] theorem raise_pods (blk loc arg : Nat) (s : State) : (raise blk loc arg s).pods = s.pods :=
  raiseAt_pods _ _ _ _ s
@[simp] theorem raise_pips (blk loc arg : Nat) (s : State) : (raise blk loc arg s).pips = s.pips :=
  raiseAt_pips _ _ _ _ s
@[simp] theorem raise_slots (blk loc arg : Nat) (s : State) : (raise blk loc arg s).slots = s.slots :=
  raiseAt_slots _ _ _ _ s
@[simp] theorem raise_feeds (blk loc arg : Nat) (s : State) : (raise blk loc arg s).feeds = s.feeds :=
  raiseAt_feeds _ _ _ _ s
@[simp] theorem raise_prcs (blk loc arg : Nat) (s : State) : (raise blk loc arg s).prcs = s.prcs :=
  raiseAt_prcs _ _ _ _ s
@[simp] theorem raise_prd (blk loc arg : Nat) (s : State) : (raise blk loc arg s).prd = s.prd :=
  raiseAt_prd _ _ _ _ s
@[simp] theorem raise_hvc (blk loc arg : Nat) (s : State) : (raise blk loc arg s).hvc = s.hvc :=
  raiseAt_hvc _ _ _ _ s
@[simp] theorem raise_pke (blk loc arg : Nat) (s : State) : (raise blk loc arg s).pke = s.pke :=
  raiseAt_pke _ _ _ _ s
@[simp] theorem raise_media (blk loc arg : Nat) (s : State) : (raise blk loc arg s).media = s.media :=
  raiseAt_media _ _ _ _ s
@[simp] theorem raise_rm (blk loc arg : Nat) (s : State) : (raise blk loc arg s).rm = s.rm :=
  raiseAt_rm _ _ _ _ s
@[simp] theorem raise_oep (blk loc arg : Nat) (s : State) : (raise blk loc arg s).oep = s.oep :=
  raiseAt_oep _ _ _ _ s
@[simp] theorem raise_sco (blk loc arg : Nat) (s : State) : (raise blk loc arg s).sco = s.sco :=
  raiseAt_sco _ _ _ _ s
@[simp] theorem raise_auds (blk loc arg : Nat) (s : State) : (raise blk loc arg s).auds = s.auds :=
  raiseAt_auds _ _ _ _ s
@[simp] theorem raise_nets (blk loc arg : Nat) (s : State) : (raise blk loc arg s).nets = s.nets :=
  raiseAt_nets _ _ _ _ s
@[simp] theorem raise_nstrs (blk loc arg : Nat) (s : State) : (raise blk loc arg s).nstrs = s.nstrs :=
  raiseAt_nstrs _ _ _ _ s
@[simp] theorem raise_pfis (blk loc arg : Nat) (s : State) : (raise blk loc arg s).pfis = s.pfis :=
  raiseAt_pfis _ _ _ _ s
@[simp] theorem raise_cfg (blk loc arg : Nat) (s : State) : (raise blk loc arg s).cfg = s.cfg :=
  raiseAt_cfg _ _ _ _ s
@[simp] theorem raise_mon (blk loc arg : Nat) (s : State) : (raise blk loc arg s).mon = s.mon :=
  raiseAt_mon _ _ _ _ s

@[simp] theorem raise_rd (blk loc arg : Nat) (s : State) (a : Nat) : (raise blk loc arg s).rd a = s.rd a := by
  simp [State.rd]

/-! ### Examinations with no injection armed (R445 to R449) -/

theorem inject_nil (det : Nat) (s : State) (h : s.err.slots = []) : inject det s = (false, s) := by
  simp [inject, h]

theorem examine_nil (det : Nat) (real : Bool) (s : State) (h : s.err.slots = []) :
    examine det real s = (⟨real, false⟩, s) := by
  simp [examine, inject_nil det s h]

/-- With no injection armed, an examination that sees nothing changes nothing. -/
theorem examDetect_calm (det arg addr : Nat) (s : State) (h : s.err.slots = []) :
    examDetect det false arg addr s = (false, s) := by
  simp [examDetect, examine_nil det false s h]

/-- With no injection armed, an examination that sees an error is a detection. -/
theorem examDetect_real (det arg addr : Nat) (s : State) (h : s.err.slots = []) :
    examDetect det true arg addr s = (true, detect det false arg addr s) := by
  simp [examDetect, examine_nil det true s h]

/-! ### Time (R16, R359) -/

theorem advanceTo_of_le (t : Nat) (s : State) (h : t ≤ s.now) : advanceTo t s = s := if_pos h

theorem foldl_keeps {β : Type} (l : List Nat) (g : State → Nat → State) (p : State → β) (h : ∀ s i, p (g s i) = p s)
    (s : State) : p (l.foldl g s) = p s := by
  induction l generalizing s with
  | nil => rfl
  | cons i t ih => rw [List.foldl_cons, ih, h]

/-- Raising events in a row changes nothing but the events in flight. -/
theorem foldl_raiseAt (l : List Nat) (t : Nat → Stamp) (b e : Nat) (arg : Nat → Nat) (s : State) :
    ∃ v, l.foldl (fun s i => raiseAt (t i) b e (arg i) s) s = { s with evr := v } := by
  induction l generalizing s with
  | nil => exact ⟨s.evr, rfl⟩
  | cons i r ih =>
    rw [List.foldl_cons]
    rcases raiseAt_cases (t i) b e (arg i) s with ⟨_, h⟩ | ⟨_, h⟩
    · rw [h]
      obtain ⟨v, hv⟩ := ih { s with evr := { s.evr with flight := s.evr.flight ++ [⟨b * 256 + e, arg i % 65536, t i⟩] } }
      exact ⟨v, hv⟩
    · rw [h]
      exact ih s

/-- Plain ticks of BCLK change the running time and the events in flight alone. -/
theorem tsuRun_only (k : Nat) (s : State) : ∃ x v, tsuRun k s = { s with tsu := x, evr := v } := by
  unfold tsuRun tsuCarries tsuTime
  simp only
  split
  · obtain ⟨v, hv⟩ := foldl_raiseAt (List.range ((s.units + k * s.incr) / secUnits))
      (fun i => ⟨(s.tsu.sec + i + 1) % 2 ^ 48,
        (s.units + ceilDiv ((i + 1) * secUnits - s.units) (floor1 s.incr) * floor1 s.incr - (i + 1) * secUnits) / 2 ^ 32⟩)
      0x52 2 (fun i => (s.tsu.sec + i + 1) % 65536) s
    exact ⟨_, v, by rw [hv]⟩
  · exact ⟨_, s.evr, rfl⟩

/-- Examinations that no slot acts at change nothing where no slot is armed. -/
theorem slotsSkip_nil (det d : Nat) (s : State) (h : s.err.slots = []) : slotsSkip det d s = s := by
  unfold slotsSkip
  rw [h, List.map_nil, ← h]

theorem tsuParity_nil (k : Nat) (s : State) (h : s.err.slots = []) : tsuParity k s = s := by
  have h0 : s.hitsLeft 0x5200 = 0 := by simp [State.hitsLeft, h]
  rw [tsuParity, h0]
  exact slotsSkip_nil 0x5200 k s h

/-- The clock goes on to an instant, never back; with no injection armed and no change of the time unit waiting, nothing
changes but the time, the running time and the events of whole seconds. -/
theorem advanceTo_calm (t : Nat) (s : State) (h1 : s.err.slots = []) (h2 : s.tsu.newIncr = none) (h3 : s.tsu.set = none)
    (h4 : s.tsu.step = none) : ∃ x v, advanceTo t s = { s with now := max s.now t, tsu := x, evr := v } := by
  unfold advanceTo
  split
  · rename_i h
    exact ⟨s.tsu, s.evr, by rw [Nat.max_eq_left h]⟩
  · rename_i h
    have hm : max s.now t = t := Nat.max_eq_right (by omega)
    simp only
    split
    · exact ⟨s.tsu, s.evr, by rw [hm]⟩
    · rw [tsuParity_nil _ _ (by exact h1)]
      simp only [h2, h3, h4, Option.isNone_none, Bool.and_self, if_true]
      obtain ⟨x, v, hx⟩ := tsuRun_only (t / Config.bclk - s.now / Config.bclk) { s with now := t }
      exact ⟨x, v, by rw [hx, hm]⟩

end Sys2Proof.Machine
end

