-- ==== Sys2Proof/Tests/Slice0.lean ====
section
/-! SUPPORT. Tests of the model on fixed values, and for every claim with hypotheses a state and operands that meet them. -/

namespace Sys2Proof.Tests

open Sys2Proof.Machine Sys2Proof.Claims

set_option Elab.async false

/-! ### Ill-formed operands: one term for each check of `Instr.wf`, which refuses it -/

/-- A column of data blocks. -/
def okCol : Column := List.replicate 12 (1, 0)

/-- An attach that finds a member in order. -/
def okAttach : AttachResult := ⟨true, 4, 2, true, true, true, 1000, 4, 5, true, 1⟩

theorem test_ill_formed_registers : ([.producerFrameStart (.prc 4),
  .frameOffer (.prc 4),
  .consumerRelease (.prc 4) .sco,
  .consumerDetach (.prc 4) .sco,
  .ringBufsWrite .cc0 (.prc 4) 0,
  .ringGeometryWrite .cc0 (.tap 4 0) 0 0,
  .ringGeometryWrite .cc0 (.tap 0 0) 4 0,
  .ringGeometryWrite .cc0 (.prc 0) 3 0,
  .ringGeometryWrite .cc0 (.enc 16) 0 0,
  .tapOffer 4 0,
  .tapOffer 0 4,
  .evrQbaseWrite .cc0 5 0,
  .evrQsizeWrite .cc0 5 0,
  .evrQheadWrite .cc0 5 0,
  .trigPulseStart 4,
  .trigPulseEnd 4,
  .setPush .cc0 4 0,
  .setClose .cc0 4 0,
  .setWriteSend 4,
  .setLastWrite 4,
  .commit .cc0 4 0,
  .commitCaptureDone 4,
  .tableLoadDone 4,
  .frameEnterUnpack 4,
  .laneReadapt .cc0 4 0,
  .laneReadapt .cc0 0 12,
  .laneReadmit .cc0 4 0] : List Instr).all (fun i => !i.wf) = true := by decide

theorem test_ill_formed_lanes : ([.laneReadmit .cc0 0 12,
  .prbsCntClr .cc0 4 0,
  .prbsCntClr .cc0 0 12,
  .marginGo .cc0 4 0 0,
  .marginGo .cc0 0 12 0,
  .marginDone 4 0 false,
  .marginDone 0 12 false,
  .prbsCheck 4 0 [],
  .prbsCheck 0 12 [],
  .blockReceived 4 0 1 0,
  .blockReceived 0 12 1 0,
  .alignColumn 4 (List.replicate 12 none),
  .alignColumn 0 [],
  .unknownControlBlock 4 (List.replicate 12 (1, 0)),
  .unknownControlBlock 0 [],
  .sofReceived 0 4 (List.replicate 12 (1, 0)),
  .sofReceived 0 0 [],
  .eofReceived 0 4 (List.replicate 12 (1, 0)),
  .eofReceived 0 0 [],
  .deskewWindowEnd 4,
  .laneJudgeInterval 4,
  .jvChgGo .cc0 4 0,
  .mapCmdSend 4,
  .mapTimeout 4,
  .jvEnable .cc0 4 0,
  .jvRateWrite .cc0 4 0,
  .rateSwitch 4] : List Instr).all (fun i => !i.wf) = true := by decide

theorem test_ill_formed_ports : ([.portEnable .cc0 4 0,
  .portDisable .cc0 4 0,
  .portRun .cc0 4 0,
  .portStop .cc0 4 0,
  .frameSizeWrite .cc0 4 0,
  .rowTimeout 4,
  .xclkCfgWrite .cc0 4 0,
  .xclkEnable .cc0 4 0,
  .syncEdge 0 4 false,
  .ibi 4 0,
  .busTransferStart 4,
  .busTransferDone 4 false 0,
  .dirRead .cc0 4 0,
  .dirWrite .cc0 4 0,
  .lineReceived 0 4 ⟨okCol, [okCol], okCol⟩,
  .lineReceived 0 0 ⟨[], [okCol], okCol⟩,
  .lineReceived 0 0 ⟨okCol, [okCol], []⟩,
  .lineReceived 0 0 ⟨okCol, [okCol, []], okCol⟩,
  .csiFrameStart 0 4 0 0 .good,
  .csiFrameStart 0 0 32 0 .good,
  .csiFrameEnd 0 4 0 .good,
  .csiFrameEnd 0 0 32 .good,
  .csiLineStart 4 0 0 .good,
  .csiLineStart 0 32 0 .good,
  .csiLongPacket 0 4 ⟨.good, 0, 0, [], 0⟩,
  .csiLongPacket 0 0 ⟨.good, 32, 0, [], 0⟩,
  .csiLongPacket 0 0 ⟨.good, 0, 64, [], 0⟩] : List Instr).all (fun i => !i.wf) = true := by decide

theorem test_ill_formed_pipelines : ([.groupVerdict 4 0,
  .groupVerdict 0 4294967296,
  .rowEnterPipeline 4,
  .calClear .cc0 4 0,
  .tableReload 4,
  .statsReady 4,
  .lumaReady 4,
  .tileDispatch 8,
  .packageLoad 8,
  .packageLoadDone 8,
  .vnop ⟨128, 0⟩ 0,
  .fadd ⟨128, 0⟩ 0,
  .fsub ⟨128, 0⟩ 0,
  .fmul ⟨128, 0⟩ 0,
  .fma ⟨128, 0⟩ 0,
  .fmin ⟨128, 0⟩ 0,
  .fmax ⟨128, 0⟩ 0,
  .fabs ⟨128, 0⟩ 0,
  .fneg ⟨128, 0⟩ 0,
  .frcp ⟨128, 0⟩ 0,
  .flog2 ⟨128, 0⟩ 0,
  .fexp2 ⟨128, 0⟩ 0,
  .fcmplt ⟨128, 0⟩ 0,
  .fcmple ⟨128, 0⟩ 0,
  .fcmpeq ⟨128, 0⟩ 0,
  .fsel ⟨128, 0⟩ 0,
  .iadd ⟨128, 0⟩ 0] : List Instr).all (fun i => !i.wf) = true := by decide

theorem test_ill_formed_vector_ops : ([.isub ⟨128, 0⟩ 0,
  .imul ⟨128, 0⟩ 0,
  .imin ⟨128, 0⟩ 0,
  .imax ⟨128, 0⟩ 0,
  .vand ⟨128, 0⟩ 0,
  .vor ⟨128, 0⟩ 0,
  .vxor ⟨128, 0⟩ 0,
  .vshl ⟨128, 0⟩ 0,
  .vshr ⟨128, 0⟩ 0,
  .vsra ⟨128, 0⟩ 0,
  .icmplt ⟨128, 0⟩ 0,
  .icmpeq ⟨128, 0⟩ 0,
  .cvtfi ⟨128, 0⟩ 0,
  .cvtif ⟨128, 0⟩ 0,
  .vmov ⟨128, 0⟩ 0,
  .vsplat ⟨128, 0⟩ 0,
  .vimm ⟨128, 0⟩ 0,
  .vimmh ⟨128, 0⟩ 0,
  .vswz ⟨128, 0⟩ 0,
  .lut ⟨128, 0⟩ 0,
  .nop ⟨128, 0⟩ 0,
  .vld ⟨128, 0⟩ 0,
  .vst ⟨128, 0⟩ 0,
  .ldw ⟨128, 0⟩ 0,
  .stw ⟨128, 0⟩ 0,
  .sadd ⟨128, 0⟩ 0,
  .ssub ⟨128, 0⟩ 0] : List Instr).all (fun i => !i.wf) = true := by decide

theorem test_ill_formed_scalar_ops : ([.smul ⟨128, 0⟩ 0,
  .sand ⟨128, 0⟩ 0,
  .sor ⟨128, 0⟩ 0,
  .sxor ⟨128, 0⟩ 0,
  .sshl ⟨128, 0⟩ 0,
  .sshr ⟨128, 0⟩ 0,
  .ssra ⟨128, 0⟩ 0,
  .slt ⟨128, 0⟩ 0,
  .addi ⟨128, 0⟩ 0,
  .li ⟨128, 0⟩ 0,
  .lui ⟨128, 0⟩ 0,
  .vget ⟨128, 0⟩ 0,
  .vput ⟨128, 0⟩ 0,
  .br ⟨128, 0⟩ 0,
  .beq ⟨128, 0⟩ 0,
  .bne ⟨128, 0⟩ 0,
  .blt ⟨128, 0⟩ 0,
  .bany ⟨128, 0⟩ 0,
  .ball ⟨128, 0⟩ 0,
  .pipEnd ⟨128, 0⟩ 0,
  .signatureTest ⟨128, 0⟩,
  .signatureTestDone ⟨128, 0⟩ false,
  .tileWatchdog ⟨128, 0⟩,
  .readmitTest ⟨128, 0⟩ false,
  .podMemoryReload 128,
  .prcEnable .cc0 4 0,
  .prcApply .cc0 4 0] : List Instr).all (fun i => !i.wf) = true := by decide

theorem test_ill_formed_pips_and_codecs : ([.prcFrameStart 4,
  .slabCoded 4,
  .prcFrameDone 4,
  .encApply .cc0 16 0,
  .idrRequest .cc0 16 0,
  .ltMark .cc0 16 0,
  .ltDrop .cc0 16 0,
  .dpbRelease .cc0 16 0,
  .pkeGo .cc0 2 0,
  .pkeBlock 2 none,
  .pkeResume .cc0 2 0,
  .pkeAbort .cc0 2 0,
  .refreshInterval 4 0,
  .refreshInterval 0 8,
  .trainDone 4 0 false false,
  .trainDone 0 8 false false,
  .trackingUpdate 4 0 false false,
  .trackingUpdate 0 8 false false,
  .perBankRefresh 4 0 false,
  .perBankRefresh 0 8 false,
  .mr4Read 4 [],
  .mr4Read 0 (List.replicate 9 0),
  .mr4Read 0 [32],
  .trainGo .cc0 4 0,
  .eccRegionEnable .cc0 8 0,
  .eccFillDone 8,
  .dramRequest [⟨16, 0x80000000, 1, none, .clean⟩]] : List Instr).all (fun i => !i.wf) = true := by decide

theorem test_ill_formed_memory : ([.dramRequest [⟨0, 0x80000000, 0, none, .clean⟩],
  .dramRequest [⟨0, 0x80000000, 65, none, .clean⟩],
  .dramRequest [⟨0, 0x80000001, 64, none, .clean⟩],
  .dramRequest [⟨0, 0x80000000, 2, some [0], .clean⟩],
  .memoryAccess .cc0 0x80000000 0 none .clean,
  .memoryAccess .cc0 0x80000000 2 (some [0]) .clean,
  .memberAttach .cc0 4 0,
  .attachComplete 4 okAttach,
  .memberDetach .cc0 4 0,
  .memberReadmit .cc0 4 0,
  .nvmeCompletion 4 0 false,
  .nvmeTimeout 4 0,
  .rootPortLinkDown 4,
  .memberLinkReturn 4 0 0,
  .clipOpen .cc0 8 0,
  .streamFrame 8,
  .grantPush .cc0 8 0,
  .frameCommit 8,
  .clipClose .cc0 8 0,
  .clipClosed 8,
  .splitRewrite 8,
  .volOpen .cc0 4 0,
  .volFormat .cc0 4 0,
  .volClose .cc0 4 0,
  .ctrlEnable 1 2,
  .ctrlEnable 4097 2,
  .ctrlEnable 2 1] : List Instr).all (fun i => !i.wf) = true := by decide

theorem test_ill_formed_media_and_audio : ([.ctrlEnable 2 4097,
  .namespaceActivate 4,
  .journalReplay 4,
  .audioRunStart .cc0 4 0,
  .audioRunStop .cc0 4 0,
  .audioStopped 4,
  .sampleFrame 4 [] false,
  .slaveSampleRx 4 [] false,
  .maskWrite .cc0 4 0,
  .maskApply 4,
  .txFrame 2 false,
  .rxFrame 0 2 [] false false false,
  .txtsPop .cc0 2,
  .mdio .cc0 2 0 0,
  .netLinkChange 2 false,
  .netStreamEnable .cc0 8 0,
  .streamFrameSelect 8,
  .streamPacket 8,
  .hallEdge 0 4 0 0,
  .indexEdge 0 4 false 0,
  .posWrite .cc0 4 0,
  .speedWindow 4,
  .faultInput 4 false,
  .phaseWindowClose 4,
  .lineTrigger 0 4 false,
  .ssRowTimeout 4,
  .outputLineComplete 4 []] : List Instr).all (fun i => !i.wf) = true := by decide

theorem test_ill_formed_power : ([.gpioEdge 0 16 false,
  .overlayCommit 4,
  .overlayApply 4,
  .vote .cc0 7 0,
  .domainPowerDownStart 31,
  .domainOn 31 false,
  .quiesceTimeout 31,
  .domainOff 31,
  .padHeld 31,
  .accessHoldEnd 31,
  .wake 5,
  .thermalFastSample 16 0,
  .thermalSlowRound [] [] false,
  .thermalSlowRound [] [] false,
  .injArm .cc0 4 0,
  .injDisarm .cc0 4 0,
  .monitorInj 4 0 none 0,
  .unlock [] [],
  .unlock [] []] : List Instr).all (fun i => !i.wf) = true := by decide

theorem test_ill_formed_rings :
    ([.tap 0 4, .tap 4 0, .branch 0 4, .branch 4 0, .prc 4, .enc 16] : List RingId).all (fun r => !r.wf) = true := by decide

theorem test_ill_formed_pip : PipRef.wf ⟨0, 9⟩ = false ∧ PipRef.wf ⟨128, 0⟩ = false := by decide

/-- A command with an ill-formed operand is refused by name. -/
theorem test_refused : exec (.setPush .cc0 4 0) State.reset = .refused .illFormed := rfl

/-! ### Worked examples of the spec, and single steps -/

/-- The register block of pip 5 of pod 37, and lane 7 of SP2 (01_architecture.md, the example before R25). -/
theorem test_register_blocks : POD_PIP_STATUS 37 5 = 0x43025600 ∧ SP_LANE_CTRL 2 7 = 0x41209C00 := by decide

/-- 0.5028037 rounds to the code 0x3C02E, which reads back as 0.5028076 (05_pipeline_front.md, the example after R114). -/
theorem test_sl20 : toSl (5028037 / 10000000) = (0x3C02E, false) ∧ slVal 0x3C02E = 8238 / 16384 := by decide +kernel

/-- VBN 1,000,000 of a striped volume over 3 positions in units of 256 (13_record_media.md, the example after R291). -/
theorem test_stripe :
    ({ layout := 2, su := 8, slots := [], n := 3, total := 0, id := 0, sbSeq := 0 } : VolSt).locate 1000000 = (0, 334400) := by decide

/-- The symbol 45 under k = 3, and 900 under k = 0 (09_photre.md, the example after R223). -/
theorem test_symbols :
    symBits 3 45 = [false, false, false, false, false, true, true, false, true] ∧
      (symBits 0 900).take 24 = List.replicate 24 false ∧ (symBits 0 900).length = 45 := by decide +kernel

/-- The check value of CRC-32 of the nine digits. -/
theorem test_crc32 : crc32 [0x31, 0x32, 0x33, 0x34, 0x35, 0x36, 0x37, 0x38, 0x39] = 0xCBF43926 := by decide +kernel

/-- No word of the table's bits spells a command. -/
theorem test_no_word : decodeTableWord 32 0 = none := rfl

/-- A step takes the command in front and leaves the rest waiting. -/
theorem test_step_front : ∃ t, step { pending := [.eventRaised, .help] } = .next t ∧ t.pending = [.help] := ⟨_, rfl, by decide +kernel⟩

/-- With nothing waiting, time goes on. -/
theorem test_step_idle : ∃ t, step State.reset = .next t ∧ t.now = Config.bclk := ⟨_, rfl, by decide +kernel⟩

/-- Memory is in its canonical form at reset, and a byte of SRAM written reads back while its neighbour stays. -/
theorem test_memory :
    Memory.wf State.reset.mem = true ∧ (poke 0x20000010 [7] State.reset).peek 0x20000010 = 7 ∧
      (poke 0x20000010 [7] State.reset).peek 0x20000011 = State.reset.peek 0x20000011 := by decide +kernel


/-! ### States and operands that meet the hypotheses of the claims -/

/-- A tile run at its second bundle, with what slot A has issued. -/
def runWith (a : Option AWrite) : PipRun := { t := { tile := 0, buf := 0, epoch := 0, slot := 0 }, pc := 1, cycle := 9, a := a }

/-- A device with its domains on and this bundle next in pip 3 of pod 5. -/
def pipWith (b : BitVec 64) (a : Option AWrite) : State :=
  { regs := [(0x40100020, 0x7FFFFFFF)], pods := [(5, { pkg := { c := 1000, code := [0, b, 0] } })], pips := [(83, { run := some (runWith a) })] }

/-- A Read, Write or Write Zeroes of 8 blocks of namespace 1, from queue 1. -/
def ioCmdAt (op : Nat) : HostCmd :=
  { id := 3, q := 1, e := ⟨op, 0, 0, 2, 1, 0x5000, 0, 320, 0, 7, [1, 2, 3]⟩ }

/-- An endpoint that has fetched the command, with namespace 1 live or not. -/
def ioAt (op : Nat) (live : Bool) : State :=
  { regs := [(0x40100020, 0x4000000), (0x46000108, 410), (0x46000308, 2), (0x46100100, 3), (0x4610010C, 1)],
    rm := { mbrs := [(0, { uid := 7, linkUp := true })],
            vols := [(0, { layout := 0, su := 4, slots := [⟨0, 1, 0, 0, 7⟩], n := 1, total := 3968, id := 77, sbSeq := 1, shown := live })] },
    oep := { sqs := [(1, { size := 64, cq := 1, base := 0x5000, head := 2, tail := 2 })],
             cqs := [(1, { size := 64, vec := 1, base := 0x5000, tail := 1 })], cmds := [ioCmdAt op], no := 4 } }
/-- The start of a superblock of a volume over one member. -/
def sbHead : List Byte :=
  [66, 82, 86, 76, 1, 0, 4, 0, 77, 0, 0, 0, 0, 0, 0, 0, 64, 0, 0, 0, 0, 0, 0, 0, 136, 19, 0, 0, 0, 0, 0, 0, 128, 15, 0, 0, 0, 0, 0, 0,
   128, 15, 0, 0, 0, 0, 0, 0, 1, 0, 0, 0, 0, 0, 0, 0, 0, 0, 0, 0, 0, 0, 0, 0, 7, 0, 0, 0, 0, 0, 0, 0, 1, 0, 0, 0, 0, 0, 0, 0]

/-- The superblock. -/
def sbBytes : List Byte := sbHead ++ List.replicate 428 0 ++ [202, 141, 187, 64]

/-- A volume that is being opened; its one member has been asked for its superblocks, and one copy is good. -/
def volAt : State :=
  { regs := [(0x40100020, 0x2000000), (0x46000108, 409), (0x46000110, 0x1388), (0x46000308, 1)],
    media := [(0, [(0, 66), (1, 82), (2, 86), (3, 76), (4, 1), (6, 4), (8, 77), (16, 64), (24, 136), (25, 19), (32, 128),
      (33, 15), (40, 128), (41, 15), (48, 1), (64, 7), (72, 1), (508, 202), (509, 141), (510, 187), (511, 64)])],
    rm := { mbrs := [(0, { cmds := [{ cid := 7, op := .read 0x1387 1, owner := .task 1, due := 0x746A528800, pair := 3 }],
                           next := 8, subs := 8, uid := 7, linkUp := true, cqs := [(0, 2), (1, 2), (2, 2), (3, 1)], asq := 12 })],
            tasks := [(1, { vol := 0, phases := [], left := 1, fin := .opening 0 })], taskNo := 2, opens := [(0, { step := 1 })] } }

/-- 61 zero bytes into a CRC. -/
def zeros : List Byte := List.replicate 61 0

theorem sb_parts : sbBytes.take 0x1FC =
    sbHead ++ (zeros ++ (zeros ++ (zeros ++ (zeros ++ (zeros ++ (zeros ++ (zeros ++ [0]))))))) := by decide +kernel

theorem sb_crc : crc32 (sbBytes.take 0x1FC) = 1086033354 := by
  have h0 : sbHead.foldl (crcByte 0xEDB88320) 0xFFFFFFFF = 2893831860 := by decide +kernel
  have h1 : zeros.foldl (crcByte 0xEDB88320) 2893831860 = 2896032928 := by decide +kernel
  have h2 : zeros.foldl (crcByte 0xEDB88320) 2896032928 = 482860483 := by decide +kernel
  have h3 : zeros.foldl (crcByte 0xEDB88320) 482860483 = 2260322557 := by decide +kernel
  have h4 : zeros.foldl (crcByte 0xEDB88320) 2260322557 = 667164716 := by decide +kernel
  have h5 : zeros.foldl (crcByte 0xEDB88320) 667164716 = 85819892 := by decide +kernel
  have h6 : zeros.foldl (crcByte 0xEDB88320) 85819892 = 1704477046 := by decide +kernel
  have h7 : zeros.foldl (crcByte 0xEDB88320) 1704477046 = 2484282163 := by decide +kernel
  rw [sb_parts, crc32, List.foldl_append, h0, List.foldl_append, h1, List.foldl_append, h2, List.foldl_append, h3,
    List.foldl_append, h4, List.foldl_append, h5, List.foldl_append, h6, List.foldl_append, h7]
  decide +kernel

/-- A superblock with its magic number and a right CRC is found. -/
theorem readSb_good {m k : Nat} {s : State} {b : List Byte} (h : cellBytes (lookD s.media [] m) (k * 4096) 512 = b)
    (hm : (leAt b 0 4 == 0x4C565242) = true) (hc : crc32 (b.take 0x1FC) = leAt b 0x1FC 4) (he : s.err.slots = []) :
    readSb m k s = (some b, s) := by
  simp [readSb, h, hc, beq_iff_eq.mp hm, examDetect_calm _ _ _ _ he]

/-- Bytes without the magic number are no superblock. -/
theorem readSb_none {m k : Nat} {s : State} (h : (leAt (cellBytes (lookD s.media [] m) (k * 4096) 512) 0 4 == 0x4C565242) = false)
    (he : s.err.slots = []) : readSb m k s = (none, s) := by
  simp only [readSb, h, Bool.false_and, examDetect_calm _ _ _ _ he]
  rfl

theorem sb_first : readSb 0 0 volAt = (some sbBytes, volAt) :=
  readSb_good (by decide +kernel) (by decide +kernel) (sb_crc.trans (by decide +kernel)) rfl

theorem sb_second : readSb 0 (volAt.mbrBlocks 0 - 1) volAt = (none, volAt) := readSb_none (by decide +kernel) rfl

theorem sb_found : (bestSb 0 volAt).1 = some sbBytes := by
  rw [bestSb, sb_first]
  dsimp only
  rw [sb_second]

theorem met_RegisterAccessCodes :
  (∃ (s : State) (r : Requester) (v : Word),
    s.unitOn dCTRL = true ∧
    s.cfg.start = none) ∧
  (∃ (s : State) (r : Requester) (v : Word),
    s.pwr.testHold = false ∧
    s.cfg.start = none) ∧
  (∃ (s : State) (r : Requester) (v : Word),
    s.unitOn dCTRL = true ∧
    s.cfg.start = none) ∧
  (∃ (s : State) (r : Requester) (n : Nat),
    n < 4 ∧
    s.unitOn (dSP n) = true) ∧
  (∃ (s : State) (r : Requester),
    s.unitOn dCTRL = true ∧
    r ≠ .cfg) :=
  ⟨⟨({  } : State), (.cc0 : Requester), (0 : Word), by decide +kernel⟩,
  ⟨({  } : State), (.cc0 : Requester), (0 : Word), by decide +kernel⟩,
  ⟨({  } : State), (.cc0 : Requester), (0 : Word), by decide +kernel⟩,
  ⟨({ regs := [(0x40100020, 0x7FFFFFFF)] } : State), (.cc0 : Requester), (0 : Nat), by decide +kernel⟩,
  ⟨({  } : State), (.cc0 : Requester), by decide +kernel⟩⟩

theorem met_RefusedAccessesCounted :
  (∃ (s : State) (r : Requester) (a width : Nat) (write : Bool),
    s.pwr.testHold = false ∧
    Config.regBase ≤ a ∧
    a < Config.regEnd ∧
    (windowAt s.variant a).isNone = true) ∧
  (∃ (s : State) (r : Requester) (a width : Nat) (write : Bool),
    s.pwr.testHold = false ∧
    Config.regBase ≤ a ∧
    a < Config.regEnd ∧
    (((windowAt s.variant a).any (fun h => h.present) = false ∨ formOk a width = false))) ∧
  (∃ (s : State) (r : Requester) (a n : Nat) (w : Option (List Byte)),
    0 < n ∧
    w.all (fun bs => bs.length == n) = true ∧
    s.mc.fills = [] ∧
    s.mc.reread = [] ∧
    (s.busAddr r a n).all (fun b => !(Config.regBase ≤ b && b < Config.regEnd) && !s.memAnswers b n w.isSome) = true) ∧
  (∃ (s : State) (r : Requester) (a : Nat) (d : Nat),
    s.pwr.testHold = false ∧
    s.pwr.clkLost = false ∧
    s.variant = .umb9480 ∧
    windowDom s.variant a = some d ∧
    s.domOn d = false ∧
    a % 4 = 0) :=
  ⟨⟨({  } : State), (.cc0 : Requester), (0x40500000 : Nat), (1 : Nat), (true : Bool), by decide +kernel⟩,
  ⟨({  } : State), (.cc0 : Requester), (0x40000000 : Nat), (1 : Nat), (true : Bool), by decide +kernel⟩,
  ⟨({  } : State), (.cc0 : Requester), (0 : Nat), (1 : Nat), ((some [7]) : Option (List Byte)), by decide +kernel⟩,
  ⟨({  } : State), (.cc0 : Requester), (0x47000000 : Nat), (28 : Nat), by decide +kernel⟩⟩

theorem met_MemoryAndWakingAccesses :
  (∃ (s : State) (a : Nat) (bs : List Byte),
    bs ≠ [] ∧
    Config.mramBase ≤ a ∧
    a + bs.length ≤ Config.logBase ∧
    s.mc.fills = [] ∧
    s.mc.reread = []) ∧
  (∃ (s : State) (a n : Nat),
    0 < n ∧
    Config.mramBase ≤ a ∧
    a + n ≤ Config.mramBase + Config.mramSize ∧
    a + n ≤ Config.logBase ∧
    s.mc.fills = [] ∧
    s.mc.reread = []) ∧
  (∃ (s : State) (r : Requester) (a : Nat) (d : Nat),
    s.pwr.testHold = false ∧
    s.pwr.clkLost = false ∧
    s.variant ≠ .umb9480 ∧
    windowDom s.variant a = some d ∧
    s.domOn d = false ∧
    a % 4 = 0 ∧
    Calm s ∧
    s.mc.fills = [] ∧
    s.mc.reread = [] ∧
    s.f PWR_STATE_state ≠ 3 ∧
    s.pwr.job = none) :=
  ⟨⟨({  } : State), (0x30000000 : Nat), ([1, 2, 3] : List Byte), by decide +kernel⟩,
  ⟨({  } : State), (0x30000000 : Nat), (1 : Nat), by decide +kernel⟩,
  ⟨({ variant := .umb9420, pwr := { onSince := [] } } : State), (.cc0 : Requester), (0x47000000 : Nat), (28 : Nat), by decide +kernel⟩⟩

theorem met_RingsAndBuffers :
  (∃ (s : State) (c : Nat) (i : FrameInfo) (x : BufInfo) (b : Nat),
    c < 16 ∧
    s.unitOn dHVC = true ∧
    (s.ring (.enc c)).writing = some b ∧
    (s.ring (.enc c)).ready = some (i, x) ∧
    b < 64 ∧
    s.slotAddr (.enc c) b = Config.dramBase ∧
    s.memAnswers Config.dramBase (descBytes i x).length true = true ∧
    s.mc.fills = [] ∧
    s.mc.reread = [] ∧
    s.err.slots = [] ∧
    (s.ring (.enc c)).cons.all (fun k => match k.id with | .enc _ => false | _ => true) = true) ∧
  (∃ (s : State) (g : RingId) (k : ConsumerId) (b : Nat),
    g.wf = true ∧
    s.unitOn (ringDom g) = true ∧
    (s.heldBy g k).head? = some b) ∧
  (∃ (s : State) (g : RingId) (k : ConsumerId),
    g.wf = true ∧
    s.unitOn (ringDom g) = true ∧
    (s.ring g).cons.any (fun x => x.id == k) = true) ∧
  (∃ (s : State) (r : Requester) (c : Nat) (v : Word),
    c < 16 ∧
    s.unitOn dHVC = true) ∧
  (∃ (s : State) (r : Requester) (c : Nat) (v : Word),
    c < 16 ∧
    s.unitOn dHVC = true ∧
    s.geomOpen (.enc c) = true ∧
    bitsOf v.toNat 6 0 ≤ 64 ∧
    ringInside s.variant (s.pair (HVC_EC_RING_LO c) (HVC_EC_RING_HI c)) (bitsOf v.toNat 6 0) (s.ringSlot (.enc c)) = true) ∧
  (∃ (s : State) (c : Nat),
    c < 16 ∧
    s.hvc.cur.isSome = true ∧
    s.unitOn dHVC = true) :=
  ⟨⟨({ regs := [(0x40100020, 0x800000), (0x44101354, 16), (0x45000180, 1)], rings := [(515, { writing := (some 0), cons := [{ id := (.firmware 0), held := [2] }], ready := (some ({  }, {  })) })] } : State), (3 : Nat), ({  } : FrameInfo), ({  } : BufInfo), (0 : Nat), by decide +kernel⟩,
  ⟨({ regs := [(0x40100020, 0x7FFFFFFF)], rings := [(515, { writing := (some 0), cons := [{ id := (.firmware 0), held := [2] }], ready := (some ({  }, {  })) })] } : State), ((.enc 3) : RingId), ((.firmware 0) : ConsumerId), (2 : Nat), by decide +kernel⟩,
  ⟨({ regs := [(0x40100020, 0x7FFFFFFF)], rings := [(515, { writing := (some 0), cons := [{ id := (.firmware 0), held := [2] }], ready := (some ({  }, {  })) })] } : State), ((.enc 3) : RingId), ((.firmware 0) : ConsumerId), by decide +kernel⟩,
  ⟨({ regs := [(0x40100020, 0x7FFFFFFF)] } : State), (.cc0 : Requester), (0 : Nat), (0 : Word), by decide +kernel⟩,
  ⟨({ regs := [(0x40100020, 0x7FFFFFFF)] } : State), (.cc0 : Requester), (0 : Nat), (0 : Word), by decide +kernel⟩,
  ⟨({ regs := [(0x40100020, 0x7FFFFFFF)], hvc := { cur := (some { ctx := 3, ring := (.enc 3), buf := 0, info := {  }, pool := 0, long := false, causes := 1, qp := 30, qps := [], gmv := 0, range := 0, poc := 0, refs := [], prof := 1, level := 120, st := 1, lt := 0, vui := (1, (1, (1, false))), planes := [] }) } } : State), (0 : Nat), by decide +kernel⟩⟩

theorem met_ClocksAndEvents :
  (∃ (s : State),
    s.pwr.pllDue.isSome = true ∧
    s.pwr.clkLost = false) ∧
  (∃ (s : State),
    s.err.slots = []) ∧
  (∃ (s : State) (e : Ev) (rest : List Ev) (d : Nat),
    s.pwr.testHold = false ∧
    s.evr.flight = e :: rest ∧
    d < 5 ∧
    s.destOf e.id = 2 ^ d ∧
    s.err.slots = [] ∧
    s.f (EVR_QSIZE_entries d) ≠ 0 ∧
    s.queued d ≠ s.f (EVR_QSIZE_entries d)) ∧
  (∃ (s : State) (e : Ev) (rest : List Ev) (d : Nat),
    s.pwr.testHold = false ∧
    s.evr.flight = e :: rest ∧
    d < 5 ∧
    s.destOf e.id = 2 ^ d ∧
    s.err.slots = [] ∧
    (s.f (EVR_QSIZE_entries d) = 0 ∨ s.queued d = s.f (EVR_QSIZE_entries d))) ∧
  (∃ (s : State) (r : Requester) (d : Nat) (v : Word),
    d < 5 ∧
    s.pwr.testHold = false) ∧
  (∃ (s : State) (r : Requester) (d : Nat) (v : Word),
    d < 5 ∧
    s.pwr.testHold = false) ∧
  (∃ (s : State) (r : Requester) (d : Nat) (v : Word),
    d < 5 ∧
    s.pwr.testHold = false) :=
  ⟨⟨({  } : State), by decide +kernel⟩,
  ⟨({  } : State), by decide +kernel⟩,
  ⟨({ regs := [(0x40001004, 1), (0x40001804, 1)], evr := { flight := [{ id := 256, arg := 5, t := {  } }] } } : State), ({ id := 256, arg := 5, t := {  } } : Ev), ([] : List Ev), (0 : Nat), by decide +kernel⟩,
  ⟨({ evr := { flight := [{ id := 256, arg := 5, t := {  } }] } } : State), ({ id := 256, arg := 5, t := {  } } : Ev), ([] : List Ev), (4 : Nat), by decide +kernel⟩,
  ⟨({  } : State), (.cc0 : Requester), (0 : Nat), (0 : Word), by decide +kernel⟩,
  ⟨({  } : State), (.cc0 : Requester), (0 : Nat), (0 : Word), by decide +kernel⟩,
  ⟨({  } : State), (.cc0 : Requester), (0 : Nat), (0 : Word), by decide +kernel⟩⟩

theorem met_ReferenceGenerator :
  (∃ (s : State) (r : Requester) (v : Word),
    s.unitOn dCTRL = true ∧
    s.b REF_CTRL_en = false ∧
    bitsOf v.toNat 2 1 ≠ 3 ∧
    1 ≤ s.f REF_RATE_DEN_den) ∧
  (∃ (s : State) (r : Requester) (v : Word),
    s.unitOn dCTRL = true ∧
    bitsOf v.toNat 2 1 = 3) ∧
  (∃ (s : State) (r : Requester) (v : Word),
    s.unitOn dCTRL = true ∧
    bitsOf v.toNat 2 1 ≠ 3) ∧
  (∃ (s : State) (r : Requester) (den : Bool) (v : Word),
    s.unitOn dCTRL = true) ∧
  (∃ (s : State) (r : Requester) (v : Word),
    s.unitOn dCTRL = true) ∧
  (∃ (s : State) (ideal : Rat) (p : Rat),
    s.domOn dCTRL = true ∧
    s.b REF_CTRL_en = true ∧
    s.f REF_CTRL_src = 0 ∧
    s.ref.next = some ideal ∧
    s.nominal = some p ∧
    s.now ≤ pclkAt ideal ∧
    Calm s) ∧
  (∃ (s : State) (a : Nat) (p : Rat) (f : Bool),
    s.unitOn dCTRL = true ∧
    s.b REF_CTRL_en = true ∧
    s.f REF_CTRL_src = 1 ∧
    s.nominal = some p ∧
    s.now ≤ a ∧
    Calm s) ∧
  (∃ (s : State) (w : Nat),
    s.domOn dCTRL = true ∧
    s.ref.watch = some w ∧
    Calm s) :=
  ⟨⟨({  } : State), (.cc0 : Requester), (0 : Word), by decide +kernel⟩,
  ⟨({  } : State), (.cc0 : Requester), (7 : Word), by decide +kernel⟩,
  ⟨({  } : State), (.cc0 : Requester), (0 : Word), by decide +kernel⟩,
  ⟨({  } : State), (.cc0 : Requester), (true : Bool), (0 : Word), by decide +kernel⟩,
  ⟨({  } : State), (.cc0 : Requester), (0 : Word), by decide +kernel⟩,
  ⟨({ regs := [(0x40100020, 0x7FFFFFFF), (0x40300000, 1), (0x40300004, 60), (0x40300008, 1)], ref := { next := (some 0) } } : State), (0 : Rat), ((1000000000000 / 60) : Rat), by decide +kernel⟩,
  ⟨({ regs := [(0x40300000, 3)] } : State), (0 : Nat), ((125000000000 / 3) : Rat), (true : Bool), by decide +kernel⟩,
  ⟨({ ref := { watch := (some 0) } } : State), (0 : Nat), by decide +kernel⟩⟩

theorem met_RfnRisesByOne : ∃ (s : State) (ideal : Rat),
    s.domOn dCTRL = true ∧
    s.b REF_CTRL_en = true ∧
    s.f REF_CTRL_src < 2 ∧
    s.ref.next = some ideal ∧
    s.ref.setRfn = none ∧
    s.nominal.isSome = true ∧
    Calm s :=
  ⟨({ regs := [(0x40300000, 3)], ref := { next := (some (0)), jump := true } } : State), ((0) : Rat), by decide +kernel⟩

theorem met_TriggersAndTimeUnit :
  (∃ (s : State) (n : Nat) (p : Pulse) (rest : List Pulse),
    n < 4 ∧
    s.unitOn dCTRL = true ∧
    Calm s ∧
    lookD s.ref.pulses [] n = p :: rest) ∧
  (∃ (s : State) (n : Nat) (p : Pulse),
    n < 4 ∧
    s.unitOn dCTRL = true ∧
    Calm s ∧
    lookD s.ref.active [] n = [p]) ∧
  (∃ (s : State) (r : Requester) (v : Word),
    s.unitOn dCTRL = true) ∧
  (∃ (s : State) (r : Requester) (v : Word),
    s.unitOn dCTRL = true ∧
    bitOf v.toNat 1 = false) ∧
  (∃ (s : State) (r : Requester) (v : Word),
    s.unitOn dCTRL = true ∧
    bitOf v.toNat 0 = false) ∧
  (∃ (s : State),
    s.domOn dCTRL = true ∧
    s.pwr.clkLost = false ∧
    s.err.slots = [] ∧
    s.tsu.newIncr = none ∧
    s.tsu.set = none ∧
    s.tsu.step = none ∧
    3 * 2 ^ 32 ≤ s.incr ∧
    s.incr ≤ 5 * 2 ^ 32 ∧
    s.tsu.ns < 1000000000 ∧
    s.tsu.frac < 2 ^ 32 ∧
    s.tsu.sec < 2 ^ 48) ∧
  (∃ (s : State),
    s.unitOn dCTRL = true ∧
    s.err.slots = [] ∧
    s.tsu.newIncr = none ∧
    s.tsu.set = none ∧
    s.tsu.step = none) :=
  ⟨⟨({ ref := { pulses := [(0, [{ start := 0xF4240, stop := 0x171240, rfn := 0, tick := 0xF4240 }])] } } : State), (0 : Nat), ({ start := 0xF4240, stop := 0x171240, rfn := 0, tick := 0xF4240 } : Pulse), ([] : List Pulse), by decide +kernel⟩,
  ⟨({ ref := { active := [(0, [{ start := 1000, stop := 0x1388, rfn := 3, tick := 900 }])], lastPulse := [(0, (900, 3))], trigHigh := [0], watch := (some 0x12FD1) } } : State), (0 : Nat), ({ start := 1000, stop := 0x1388, rfn := 3, tick := 900 } : Pulse), by decide +kernel⟩,
  ⟨({  } : State), (.cc0 : Requester), (0 : Word), by decide +kernel⟩,
  ⟨({  } : State), (.cc0 : Requester), (0 : Word), by decide +kernel⟩,
  ⟨({  } : State), (.cc0 : Requester), (0 : Word), by decide +kernel⟩,
  ⟨({  } : State), by decide +kernel⟩,
  ⟨({  } : State), by decide +kernel⟩⟩

theorem met_SettingsSequencer :
  (∃ (s : State) (r : Requester) (n : Nat) (v : Word),
    n < 4 ∧
    s.unitOn (dSP n) = true) ∧
  (∃ (s : State) (r : Requester) (n : Nat) (v : Word),
    n < 4 ∧
    s.unitOn (dSP n) = true ∧
    (s.port n).frame = none ∧
    (s.port n).ss.strips = []) ∧
  (∃ (s : State) (n : Nat) (x : Xfer),
    n < 4 ∧
    s.unitOn (dSP n) = true ∧
    s.busPick n = some x ∧
    x.kind = 1 ∧
    x.stop = false) ∧
  (∃ (s : State) (n : Nat) (x : Xfer) (q : SetQ),
    n < 4 ∧
    s.unitOn (dSP n) = true ∧
    s.busPick n = some x ∧
    x.kind = 1 ∧
    x.stop = true ∧
    x.again = false ∧
    (s.port n).sets.sets.head? = some q) ∧
  (∃ (s : State) (n : Nat) (x : Xfer),
    n < 4 ∧
    s.unitOn (dSP n) = true ∧
    s.busPick n = some x ∧
    x.kind = 0) :=
  ⟨⟨({ regs := [(0x40100020, 0x7FFFFFFF)] } : State), (.cc0 : Requester), (0 : Nat), (0 : Word), by decide +kernel⟩,
  ⟨({ regs := [(0x40100020, 0x7FFFFFFF)] } : State), (.cc0 : Requester), (0 : Nat), (0 : Word), by decide +kernel⟩,
  ⟨({ regs := [(0x40100020, 0x7FFFFFFF), (0x41000000, 1)], ports := [(0, { busAgain := (some { kind := 1, addr := 16, reg := 514, bytes := [66] }) })] } : State), (0 : Nat), ({ kind := 1, addr := 16, reg := 514, bytes := [66] } : Xfer), by decide +kernel⟩,
  ⟨({ regs := [(0x40100020, 64), (0x41000000, 1), (0x41000200, 0x30000), (0x41000204, 0x100001)], pwr := { onSince := [] }, ports := [(0, { nextPfn := 3, frame := (some { info := { pfn := 2, sid := 16, fsw := 0x400000, rowsRx := 2, rowsCfg := 16, width := 4, height := 16, counter := 2, sof := { ns := 0xC8320 } }, w := 4, h := 16, readouts := 1, dtype := 44, next := [2], out := 2, seen := 0x33428F00 }), fifo := [(.row [(some [(some 0), (some 0), (some 0), (some 0)])] false)], sets := { sets := [{ writes := [0x10020242], sid := 66, target := 3, no := 1 }], count := 1, prev := (some 3), want := [(1, 3)], sid := 16 }, opened := [0, 0, 0], jv := { map := [0, 1, 2, 3] }, lanes := [(0, { taps := 2, alignAt := (some 0) }), (1, { taps := 2, alignAt := (some 0) }), (2, { taps := 2, alignAt := (some 0) }), (3, { taps := 2, alignAt := (some 0) }), (4, { taps := 2 }), (5, { taps := 2 }), (6, { taps := 2 }), (7, { taps := 2 }), (8, { taps := 2 }), (9, { taps := 2 }), (10, { taps := 2 }), (11, { taps := 2 })] })] } : State), (0 : Nat), ({ kind := 1, addr := 16, reg := 514, bytes := [66], stop := true, from_ := 2 } : Xfer), ({ writes := [0x10020242], sid := 66, target := 3, no := 1 } : SetQ), by decide +kernel⟩,
  ⟨({ regs := [(0x40100020, 64), (0x41000000, 1)], pwr := { onSince := [] }, ports := [(0, { mapQ := [{ kind := 0, addr := 0, reg := 0, bytes := [120, 1, 16, 50, 255, 255, 255, 255] }, { kind := 0, addr := 0, reg := 0, bytes := [1], stop := true }], jv := { map := [0, 1, 2, 3], spare := (some 4), seq := 77, chg := (some { map := [0, 1, 2, 3], spare := (some 4), gen := 1 }) }, lanes := [(0, { taps := 2, read := 16, lockAt := (some 0), alignAt := (some 0) }), (1, { taps := 2, read := 16, lockAt := (some 0), alignAt := (some 0) }), (2, { taps := 2, read := 16, lockAt := (some 0), alignAt := (some 0) }), (3, { taps := 2, read := 16, lockAt := (some 0), alignAt := (some 0) }), (4, { taps := 2, read := 16, lockAt := (some 0), alignAt := (some 0) }), (5, { taps := 2 }), (6, { taps := 2 }), (7, { taps := 2 }), (8, { taps := 2 }), (9, { taps := 2 }), (10, { taps := 2 }), (11, { taps := 2 })] })] } : State), (0 : Nat), ({ kind := 0, addr := 0, reg := 0, bytes := [120, 1, 16, 50, 255, 255, 255, 255] } : Xfer), by decide +kernel⟩⟩

theorem met_SensorBus :
  (∃ (s : State) (n : Nat) (x : Xfer),
    n < 4 ∧
    s.unitOn (dSP n) = true ∧
    s.busPick n = some x) ∧
  (∃ (s : State) (n : Nat) (x : Xfer) (b : Byte),
    n < 4 ∧
    s.unitOn (dSP n) = true ∧
    (s.port n).busRun = some x ∧
    x.again = false) ∧
  (∃ (s : State) (n : Nat) (x : Xfer) (nack : Bool) (b : Byte),
    n < 4 ∧
    s.unitOn (dSP n) = true ∧
    s.err.slots = [] ∧
    (s.port n).busRun = some x ∧
    x.kind = 2 ∧
    (x.again = true ∨ nack = false)) ∧
  (∃ (s : State) (r : Requester) (n : Nat) (v : Word),
    n < 4 ∧
    s.unitOn (dSP n) = true) ∧
  (∃ (s : State) (r : Requester) (n : Nat) (v : Word),
    n < 4 ∧
    s.unitOn (dSP n) = true) ∧
  (∃ (s : State) (n : Nat) (b : Byte),
    n < 4 ∧
    s.unitOn (dSP n) = true ∧
    s.b (SP_CTRL_en n) = true ∧
    s.f (SP_BUS_CFG_mode n) = 0) :=
  ⟨⟨({ regs := [(0x40100020, 64), (0x41000000, 1)], pwr := { onSince := [] }, ports := [(0, { mapQ := [{ kind := 0, addr := 0, reg := 0, bytes := [120, 1, 16, 50, 255, 255, 255, 255] }, { kind := 0, addr := 0, reg := 0, bytes := [1], stop := true }], jv := { map := [0, 1, 2, 3], spare := (some 4), seq := 77, chg := (some { map := [0, 1, 2, 3], spare := (some 4), gen := 1 }) }, lanes := [(0, { taps := 2, read := 16, lockAt := (some 0), alignAt := (some 0) }), (1, { taps := 2, read := 16, lockAt := (some 0), alignAt := (some 0) }), (2, { taps := 2, read := 16, lockAt := (some 0), alignAt := (some 0) }), (3, { taps := 2, read := 16, lockAt := (some 0), alignAt := (some 0) }), (4, { taps := 2, read := 16, lockAt := (some 0), alignAt := (some 0) }), (5, { taps := 2 }), (6, { taps := 2 }), (7, { taps := 2 }), (8, { taps := 2 }), (9, { taps := 2 }), (10, { taps := 2 }), (11, { taps := 2 })] })] } : State), (0 : Nat), ({ kind := 0, addr := 0, reg := 0, bytes := [120, 1, 16, 50, 255, 255, 255, 255] } : Xfer), by decide +kernel⟩,
  ⟨({ regs := [(0x40100020, 0x7FFFFFFF)], ports := [(0, { busRun := (some { kind := 0, addr := 0, reg := 0, bytes := [120, 1, 16, 50, 255, 255, 255, 255] }), mapQ := [{ kind := 0, addr := 0, reg := 0, bytes := [1], stop := true }], jv := { map := [0, 1, 2, 3], spare := (some 4), seq := 77, chg := (some { map := [0, 1, 2, 3], spare := (some 4), gen := 1 }) }, lanes := [(0, { taps := 2, read := 16, lockAt := (some 0), alignAt := (some 0) }), (1, { taps := 2, read := 16, lockAt := (some 0), alignAt := (some 0) }), (2, { taps := 2, read := 16, lockAt := (some 0), alignAt := (some 0) }), (3, { taps := 2, read := 16, lockAt := (some 0), alignAt := (some 0) }), (4, { taps := 2, read := 16, lockAt := (some 0), alignAt := (some 0) }), (5, { taps := 2 }), (6, { taps := 2 }), (7, { taps := 2 }), (8, { taps := 2 }), (9, { taps := 2 }), (10, { taps := 2 }), (11, { taps := 2 })] })] } : State), (0 : Nat), ({ kind := 0, addr := 0, reg := 0, bytes := [120, 1, 16, 50, 255, 255, 255, 255] } : Xfer), (0 : Byte), by decide +kernel⟩,
  ⟨({ regs := [(0x40100020, 0x7FFFFFFF)], ports := [(0, { busRun := (some { kind := 2, addr := 16, reg := 514, bytes := [66] }) })] } : State), (0 : Nat), ({ kind := 2, addr := 16, reg := 514, bytes := [66] } : Xfer), (false : Bool), (0 : Byte), by decide +kernel⟩,
  ⟨({ regs := [(0x40100020, 0x7FFFFFFF)] } : State), (.cc0 : Requester), (0 : Nat), (0 : Word), by decide +kernel⟩,
  ⟨({ regs := [(0x40100020, 0x7FFFFFFF)] } : State), (.cc0 : Requester), (0 : Nat), (0 : Word), by decide +kernel⟩,
  ⟨({ regs := [(0x40100020, 0x7FFFFFFF), (0x41000000, 1), (0x41000400, 0)] } : State), (0 : Nat), (0x5A : Byte), by decide +kernel⟩⟩

theorem met_CommitsAndTableLoads :
  (∃ (s : State) (r : Requester) (n : Nat) (v : Word),
    n < 4 ∧
    s.unitOn (dIP n) = true ∧
    (s.ip n).commits.any (·.capturing) = false) ∧
  (∃ (s : State) (n : Nat),
    n < 4 ∧
    s.unitOn (dIP n) = true ∧
    Calm s ∧
    (s.ip n).commits.any (·.capturing) = true) ∧
  (∃ (s : State) (n : Nat) (i g : Nat),
    n < 4 ∧
    s.unitOn (dIP n) = true ∧
    s.err.slots = [] ∧
    nextLoad (s.ip n) = some (i, g)) ∧
  (∃ (s : State) (n : Nat) (i : FrameInfo) (d fm fv k : Nat) (rest : List RowItem),
    n < 4 ∧
    s.unitOn (dIP n) = true ∧
    (s.port n).fifo = .start i d fm fv k :: rest) :=
  ⟨⟨({ regs := [(0x40100020, 0x7FFFFFFF)] } : State), (.cc0 : Requester), (0 : Nat), (0 : Word), by decide +kernel⟩,
  ⟨({ regs := [(0x40100020, 0x7FFFFFFF)], pwr := { onSince := [] }, ips := [(0, { commits := [{ target := 2, seq := 1, mask := 0, regs := [], todo := [], gate := true }], dueAt := 0x1E8480 })] } : State), (0 : Nat), by decide +kernel⟩,
  ⟨({ regs := [(0x40100020, 0x7FFFFFFF)], ips := [(0, { commits := [{ target := 0, seq := 1, mask := 1, regs := [(0x42000100, 0x180001), (0x42000600, 0x10003), (0x42000640, 0x30001), (0x42000700, 0x20203), (0x42000708, 0x100020), (0x42000710, 0x800000), (0x42000714, 16), (0x42000718, 4)], todo := [0], capturing := false }], dueAt := 0x1E8480 })] } : State), (0 : Nat), (0 : Nat), (0 : Nat), by decide +kernel⟩,
  ⟨({ regs := [(0x40100020, 0x7FFFFFFF)], ports := [(1, { nextPfn := 1, frame := (some { info := { fsw := 0x400000, rowsCfg := 4, width := 8, height := 4, counter := 7 }, w := 8, h := 4, readouts := 1, dtype := 44, next := [0], begun := [0], vcLines := [(0, 0)] }), fifo := [(.start { fsw := 0x400000, rowsCfg := 4, width := 8, height := 4, counter := 7 } 12 0 0 1)], opened := [0] })] } : State), (1 : Nat), ({ fsw := 0x400000, rowsCfg := 4, width := 8, height := 4, counter := 7 } : FrameInfo), (12 : Nat), (0 : Nat), (0 : Nat), (1 : Nat), ([] : List RowItem), by decide +kernel⟩⟩

theorem met_JavelBlocksAndAlignment :
  (∃ (s : State) (n k : Nat) (h : BitVec 2) (p : BitVec 64),
    n < 4 ∧
    k < 12 ∧
    s.jvOn n = true ∧
    (h = 1 ∨ h = 2) ∧
    s.fenced n k = false ∧
    s.err.slots = []) ∧
  (∃ (s : State) (n k : Nat) (p : BitVec 64),
    n < 4 ∧
    k < 12 ∧
    s.jvOn n = true ∧
    s.f (SP_LANE_STATUS_lock n k) < 2) ∧
  (∃ (s : State) (n : Nat) (seen : List AlignSeen) (q : Nat),
    n < 4 ∧
    seen.length = 12 ∧
    s.err.slots = [] ∧
    s.jvOn n = true ∧
    s.b (SP_JV_STATUS_aligned n) = false ∧
    (s.port n).jv.win = none ∧
    s.activeLanes n ≠ [] ∧
    s.b (SP_JV_STATUS_link_up n) = false ∧
    (List.range 12).all (fun k => !wrongAlign seen k) = true ∧
    (s.skewLanes n).all (fun k => s.locked n k && (rightAlign seen k).any (fun a => a.1 == q && decide (a.2 ≤ 16))) = true) ∧
  (∃ (s : State) (n : Nat) (q : Nat) (g : List Nat) (w : Nat),
    n < 4 ∧
    s.jvOn n = true ∧
    (s.port n).jv.win = some (q, g, w) ∧
    Calm s) ∧
  (∃ (s : State) (n : Nat) (col : Column) (b : Block),
    n < 4 ∧
    s.jvUp n = true ∧
    s.err.slots = [] ∧
    Shows s n col b ∧
    b.1 = 2 ∧
    b.2.toNat % 256 ∉ [0x1E, 0x2D, 0x33, 0x4B, 0x55, 0x66] ∧
    s.b (SP_STATUS_discarding n) = false) ∧
  (∃ (s : State) (n k : Nat),
    n < 4 ∧
    k < 12 ∧
    s.unitOn (dSP n) = true ∧
    s.b (SP_JV_CTRL_en n) = true ∧
    Calm s) :=
  ⟨⟨({ regs := [(0x40100020, 64), (0x41000100, 0x80009)] } : State), (0 : Nat), (0 : Nat), (1 : BitVec 2), (0x123456789ABCDEF0 : BitVec 64), by decide +kernel⟩,
  ⟨({ regs := [(0x40100020, 64), (0x41000100, 0x80009)] } : State), (0 : Nat), (0 : Nat), (0x123456789ABCDEF0 : BitVec 64), by decide +kernel⟩,
  ⟨({ regs := [(0x40100020, 64), (0x41000100, 0x80009), (0x41008004, 6), (0x41008404, 6), (0x41008804, 6), (0x41008C04, 6), (0x41009004, 10)], pwr := { onSince := [] }, ports := [(0, { jv := { map := [0, 1, 2, 3], spare := (some 4) }, lanes := [(0, { taps := 2, lockAt := (some 0) }), (1, { taps := 2, lockAt := (some 0) }), (2, { taps := 2, lockAt := (some 0) }), (3, { taps := 2, lockAt := (some 0) }), (4, { taps := 2, lockAt := (some 0) }), (5, { taps := 2 }), (6, { taps := 2 }), (7, { taps := 2 }), (8, { taps := 2 }), (9, { taps := 2 }), (10, { taps := 2 }), (11, { taps := 2 })] })] } : State), (0 : Nat), ([(some ((2, 0x4D002D), 0)), (some ((2, 0x4D012D), 0)), (some ((2, 0x4D022D), 0)), (some ((2, 0x4D032D), 0)), (some ((2, 0x4D042D), 0)), (some ((2, 0x4D052D), 0)), (some ((2, 0x4D062D), 0)), (some ((2, 0x4D072D), 0)), (some ((2, 0x4D082D), 0)), (some ((2, 0x4D092D), 0)), (some ((2, 0x4D0A2D), 0)), (some ((2, 0x4D0B2D), 0))] : List AlignSeen), (77 : Nat), by decide +kernel⟩,
  ⟨({ regs := [(0x40100020, 128), (0x41100100, 0x80009)], pwr := { onSince := [] }, ports := [(1, { jv := { map := [0, 1, 2, 3], spare := (some 4), win := (some (5, ([0], 0))), fails := 2 }, lanes := [(0, { taps := 2, lockAt := (some 0) }), (1, { taps := 2, lockAt := (some 0) }), (2, { taps := 2, lockAt := (some 0) }), (3, { taps := 2, lockAt := (some 0) }), (4, { taps := 2, lockAt := (some 0) }), (5, { taps := 2 }), (6, { taps := 2 }), (7, { taps := 2 }), (8, { taps := 2 }), (9, { taps := 2 }), (10, { taps := 2 }), (11, { taps := 2 })] })] } : State), (1 : Nat), (5 : Nat), ([0] : List Nat), (0 : Nat), by decide +kernel⟩,
  ⟨({ regs := [(0x40100020, 64), (0x41000100, 9), (0x4100011C, 0x2000), (0x41008004, 6)], ports := [(0, { nextPfn := 1, frame := (some { info := { rowsCfg := 16, width := 32, height := 16, sof := { sec := 50, ns := 0x78D94 } }, w := 32, h := 16, readouts := 1, dtype := 44, next := [0], seen := 0x1DCD6500 }), opened := [0], jv := { map := [0, 1, 2, 3] }, lanes := [(0, { taps := 2, alignAt := (some 0) }), (1, { taps := 2, alignAt := (some 0) }), (2, { taps := 2, alignAt := (some 0) }), (3, { taps := 2, alignAt := (some 0) }), (4, { taps := 2 }), (5, { taps := 2 }), (6, { taps := 2 }), (7, { taps := 2 }), (8, { taps := 2 }), (9, { taps := 2 }), (10, { taps := 2 }), (11, { taps := 2 })] })] } : State), (0 : Nat), ([(2, 409), (2, 409), (2, 409), (2, 409), (2, 409), (2, 409), (2, 409), (2, 409), (2, 409), (2, 409), (2, 409), (2, 409)] : Column), ((2, 409) : Block), by decide +kernel⟩,
  ⟨({ regs := [(0x40100020, 64), (0x41000100, 0x80009)] } : State), (0 : Nat), (0 : Nat), by decide +kernel⟩⟩

theorem met_JavelMapsRatesAndLanes :
  (∃ (s : State) (r : Requester) (n : Nat) (v : Word) (k : Nat),
    n < 4 ∧
    k < 12 ∧
    s.unitOn (dSP n) = true ∧
    s.b (SP_JV_CTRL_en n) = false ∧
    bitsOf v.toNat 4 2 ≤ 5 ∧
    bitsOf v.toNat 4 2 = s.f (SP_JV_CTRL_rate n) ∧
    (s.stagedMap n).all (fun k => !s.fenced n k) = true) ∧
  (∃ (s : State) (r : Requester) (n : Nat) (v : Word),
    n < 4 ∧
    s.unitOn (dSP n) = true ∧
    bitOf v.toNat 0 = s.b (SP_JV_CTRL_en n) ∧
    bitsOf v.toNat 4 2 ≠ s.f (SP_JV_CTRL_rate n)) ∧
  (∃ (s : State) (n k c d : Nat),
    n < 4 ∧
    s.unitOn (dSP n) = true ∧
    k < 12 ∧
    Calm s ∧
    (s.port n).jv.newRate.head? = some (c, some d)) ∧
  (∃ (s : State) (r : Requester) (n : Nat) (v : Word),
    n < 4 ∧
    s.unitOn (dSP n) = true) ∧
  (∃ (s : State) (n : Nat) (c : MapChg),
    n < 4 ∧
    s.unitOn (dSP n) = true ∧
    (s.port n).jv.chg = some c ∧
    c.sent = true ∧
    c.told = false ∧
    s.f (SP_JV_CMD_ADDR_timeout n) ≤ c.frames) ∧
  (∃ (s : State) (r : Requester) (n k : Nat),
    n < 4 ∧
    k < 12 ∧
    s.unitOn (dSP n) = true ∧
    (s.port n).frame = none) ∧
  (∃ (s : State) (r : Requester) (n k : Nat),
    n < 4 ∧
    k < 12 ∧
    s.unitOn (dSP n) = true) ∧
  (∃ (s : State) (r : Requester) (n k : Nat),
    n < 4 ∧
    k < 12 ∧
    s.unitOn (dSP n) = true) ∧
  (∃ (s : State) (r : Requester) (n k : Nat) (v : Word),
    n < 4 ∧
    k < 12 ∧
    s.unitOn (dSP n) = true ∧
    bitsOf v.toNat 3 1 = 0 ∧
    bitsOf v.toNat 23 16 ≠ 0) ∧
  (∃ (s : State) (n k : Nat) (d : Nat) (bad : Bool),
    n < 4 ∧
    s.unitOn (dSP n) = true ∧
    k < 12 ∧
    Calm s ∧
    (s.lane n k).margin = some d) ∧
  (∃ (s : State) (n k d q : Nat) (b : Bool),
    n < 4 ∧
    k < 12 ∧
    s.unitOn (dSP n) = true ∧
    s.b (SP_JV_CTRL_en n) = true ∧
    s.b (SP_JV_CTRL_test n) = true ∧
    prbsPoly (s.f (SP_LANE_CTRL_prbs n k)) = some (d, q) ∧
    s.b (SP_LANE_STATUS_prbs_sync n k) = true ∧
    s.err.slots = []) :=
  ⟨⟨({ regs := [(0x40100020, 0x7FFFFFFF)] } : State), (.cc0 : Requester), (0 : Nat), (8 : Word), (0 : Nat), by decide +kernel⟩,
  ⟨({ regs := [(0x40100020, 0x7FFFFFFF)] } : State), (.cc0 : Requester), (0 : Nat), (0 : Word), by decide +kernel⟩,
  ⟨({ regs := [(0x40100020, 0x7FFFFFFF)], ports := [(0, { jv := { map := [0, 1, 2, 3], newRate := [(4, (some 0xEE6B2800))] }, lanes := [(0, { taps := 2 }), (1, { taps := 2 }), (2, { taps := 2 }), (3, { taps := 2 }), (4, { taps := 2 }), (5, { taps := 2 }), (6, { taps := 2 }), (7, { taps := 2 }), (8, { taps := 2 }), (9, { taps := 2 }), (10, { taps := 2 }), (11, { taps := 2 })] })] } : State), (0 : Nat), (0 : Nat), (4 : Nat), (0xEE6B2800 : Nat), by decide +kernel⟩,
  ⟨({ regs := [(0x40100020, 0x7FFFFFFF)] } : State), (.cc0 : Requester), (0 : Nat), (0 : Word), by decide +kernel⟩,
  ⟨({ regs := [(0x40100020, 0x7FFFFFFF)], pwr := { onSince := [] }, ports := [(0, { jv := { map := [0, 1, 2, 3], spare := (some 4), seq := 77, chg := (some { map := [0, 1, 2, 3], spare := (some 4), gen := 1, sent := true, frames := 100 }) }, lanes := [(0, { taps := 2, read := 16, lockAt := (some 0), alignAt := (some 0) }), (1, { taps := 2, read := 16, lockAt := (some 0), alignAt := (some 0) }), (2, { taps := 2, read := 16, lockAt := (some 0), alignAt := (some 0) }), (3, { taps := 2, read := 16, lockAt := (some 0), alignAt := (some 0) }), (4, { taps := 2, read := 16, lockAt := (some 0), alignAt := (some 0) }), (5, { taps := 2 }), (6, { taps := 2 }), (7, { taps := 2 }), (8, { taps := 2 }), (9, { taps := 2 }), (10, { taps := 2 }), (11, { taps := 2 })] })] } : State), (0 : Nat), ({ map := [0, 1, 2, 3], spare := (some 4), gen := 1, sent := true, frames := 100 } : MapChg), by decide +kernel⟩,
  ⟨({ regs := [(0x40100020, 0x7FFFFFFF)] } : State), (.cc0 : Requester), (0 : Nat), (0 : Nat), by decide +kernel⟩,
  ⟨({ regs := [(0x40100020, 0x7FFFFFFF)] } : State), (.cc0 : Requester), (0 : Nat), (0 : Nat), by decide +kernel⟩,
  ⟨({ regs := [(0x40100020, 0x7FFFFFFF)] } : State), (.cc0 : Requester), (0 : Nat), (0 : Nat), by decide +kernel⟩,
  ⟨({ regs := [(0x40100020, 0x7FFFFFFF)] } : State), (.cc0 : Requester), (0 : Nat), (0 : Nat), (0x10010 : Word), by decide +kernel⟩,
  ⟨({ regs := [(0x40100020, 0x7FFFFFFF)], pwr := { onSince := [] }, ports := [(0, { jv := { map := [0, 1, 2, 3] }, lanes := [(0, { taps := 2 }), (1, { taps := 2, margin := (some 0x12A05F200) }), (2, { taps := 2 }), (3, { taps := 2 }), (4, { taps := 2 }), (5, { taps := 2 }), (6, { taps := 2 }), (7, { taps := 2 }), (8, { taps := 2 }), (9, { taps := 2 }), (10, { taps := 2 }), (11, { taps := 2 })] })] } : State), (0 : Nat), (1 : Nat), (0x12A05F200 : Nat), (true : Bool), by decide +kernel⟩,
  ⟨({ regs := [(0x40100020, 64), (0x41000100, 0x80029), (0x41008400, 16), (0x41008404, 32)] } : State), (0 : Nat), (1 : Nat), (7 : Nat), (6 : Nat), (true : Bool), by decide +kernel⟩⟩

theorem met_PortControl :
  (∃ (s : State) (r : Requester) (n : Nat) (v : Word),
    n < 4 ∧
    s.unitOn (dSP n) = true ∧
    s.b (SP_CTRL_en n) = false ∧
    s.stripMode n = false) ∧
  (∃ (s : State) (r : Requester) (n : Nat) (v : Word),
    n < 4 ∧
    s.unitOn (dSP n) = true ∧
    s.b (SP_CTRL_en n) = true ∧
    bitOf v.toNat 2 = s.b (SP_CTRL_phy n) ∧
    s.stripMode n = false ∧
    (s.port n).ss.strips = []) ∧
  (∃ (s : State) (r : Requester) (n : Nat) (v : Word),
    n < 4 ∧
    s.unitOn (dSP n) = true ∧
    s.b (SP_CTRL_en n) = true ∧
    bitsOf v.toNat 2 0 = 1 + 4 * s.f (SP_CTRL_phy n) ∧
    s.stripMode n = false) ∧
  (∃ (s : State) (r : Requester) (n : Nat) (v : Word),
    n < 4 ∧
    s.unitOn (dSP n) = true ∧
    s.b (SP_CTRL_en n) = true ∧
    bitOf v.toNat 0 = true ∧
    bitOf v.toNat 2 = s.b (SP_CTRL_phy n) ∧
    (s.port n).ss.strips = []) ∧
  (∃ (s : State) (r : Requester) (n : Nat) (v : Word),
    n < 4 ∧
    s.unitOn (dSP n) = true ∧
    bitsOf v.toNat 2 0 = bitsOf (s.rd (SP_CTRL n)).toNat 2 0 ∧
    s.b (SP_CTRL_xclk_en n) = false ∧
    bitOf v.toNat 4 = true) ∧
  (∃ (s : State) (r : Requester) (n : Nat) (v : Word),
    n < 4 ∧
    s.unitOn (dSP n) = true) ∧
  (∃ (s : State) (r : Requester) (n : Nat) (v : Word),
    n < 4 ∧
    s.unitOn (dSP n) = true ∧
    bitOf v.toNat 16 = false) ∧
  (∃ (s : State) (n a : Nat) (up : Bool),
    n < 4 ∧
    Calm s ∧
    s.unitOn (dSP n) = true ∧
    s.f (SP_SYNC_CFG_mode n) = (if up then 1 else 2)) :=
  ⟨⟨({ regs := [(0x40100020, 0x7FFFFFFF)] } : State), (.cc0 : Requester), (0 : Nat), (0 : Word), by decide +kernel⟩,
  ⟨({ regs := [(0x40100020, 64), (0x41000000, 1)] } : State), (.cc0 : Requester), (0 : Nat), (0 : Word), by decide +kernel⟩,
  ⟨({ regs := [(0x40100020, 64), (0x41000000, 1)] } : State), (.cc0 : Requester), (0 : Nat), (1 : Word), by decide +kernel⟩,
  ⟨({ regs := [(0x40100020, 64), (0x41000000, 1)] } : State), (.cc0 : Requester), (0 : Nat), (1 : Word), by decide +kernel⟩,
  ⟨({ regs := [(0x40100020, 0x7FFFFFFF)] } : State), (.cc0 : Requester), (0 : Nat), (0x12345678 : Word), by decide +kernel⟩,
  ⟨({ regs := [(0x40100020, 0x7FFFFFFF)] } : State), (.cc0 : Requester), (0 : Nat), (0 : Word), by decide +kernel⟩,
  ⟨({ regs := [(0x40100020, 0x7FFFFFFF)] } : State), (.cc0 : Requester), (0 : Nat), (0 : Word), by decide +kernel⟩,
  ⟨({ regs := [(0x40100020, 0x7FFFFFFF), (0x4100002C, 1)] } : State), (0 : Nat), (0 : Nat), (true : Bool), by decide +kernel⟩⟩

theorem met_JavelFrames :
  (∃ (s : State) (n a : Nat) (col : Column) (b : Block),
    n < 4 ∧
    Calm s ∧
    s.jvUp n = true ∧
    s.stripMode n = false ∧
    s.running n = true ∧
    (s.port n).frame = none ∧
    Shows s n col b ∧
    b.1 = 2 ∧
    b.2.toNat % 256 = 0x33 ∧
    (s.port n).jv.chg = none ∧
    look s.cfg.hold n = none ∧
    s.cfg.todo = [] ∧
    s.f (SP_FRAME_SIZE_width n) ≠ 0 ∧
    s.f (SP_FRAME_SIZE_height n) ≠ 0) ∧
  (∃ (s : State) (n a : Nat) (col : Column) (b : Block) (f : OpenSt),
    n < 4 ∧
    Calm s ∧
    s.jvUp n = true ∧
    s.stripMode n = false ∧
    s.b (SP_STATUS_discarding n) = false ∧
    Shows s n col b ∧
    b.1 = 2 ∧
    b.2.toNat % 256 = 0x66 ∧
    (s.port n).frame = some f) ∧
  (∃ (s : State) (n a : Nat) (l : JavelLine) (b : Block) (f : OpenSt) (y dtype len : Nat),
    n < 4 ∧
    Calm s ∧
    s.jvUp n = true ∧
    s.stripMode n = false ∧
    s.b (SP_STATUS_discarding n) = false ∧
    (s.port n).frame = some f ∧
    f.withheld = false ∧
    f.readouts = 1 ∧
    f.next = [f.out] ∧
    f.lines = [] ∧
    Shows s n l.sol b ∧
    solOk b = true ∧
    l.eol.length = 12 ∧
    l.data.all (fun c => c.length == 12) = true ∧
    bitsOf b.2.toNat 9 8 = 0 ∧
    y = bitsOf b.2.toNat 31 16 ∧
    dtype = bitsOf b.2.toNat 15 10 ∧
    0x2B ≤ dtype ∧
    dtype ≤ 0x2E ∧
    dtype = f.dtype ∧
    len = bitsOf b.2.toNat 55 32 ∧
    typesSplit (s.copies n l.eol) = false ∧
    s.lineBad n len l false = false ∧
    len = lineBytes dtype f.w ∧
    f.out ≤ y ∧
    y < f.h ∧
    fifoLines (s.port n) < 8) ∧
  (∃ (s : State) (n a : Nat) (l : JavelLine),
    n < 4 ∧
    Calm s ∧
    s.jvUp n = true ∧
    s.stripMode n = false ∧
    (s.port n).frame = none ∧
    l.sol.length = 12 ∧
    l.eol.length = 12 ∧
    l.data.all (fun c => c.length == 12) = true ∧
    s.g (SP_FRAME_SIZE_width n) ≠ 0 ∧
    s.g (SP_FRAME_SIZE_height n) ≠ 0) :=
  ⟨⟨({ regs := [(0x40100020, 64), (0x41000000, 3), (0x41000008, 0x10004), (0x41000100, 9), (0x4100011C, 0x2000), (0x41008C04, 6)], ports := [(0, { jv := { map := [0, 1, 2, 3] }, lanes := [(0, { taps := 2, alignAt := (some 0) }), (1, { taps := 2, alignAt := (some 0) }), (2, { taps := 2, alignAt := (some 0) }), (3, { taps := 2, alignAt := (some 0) }), (4, { taps := 2 }), (5, { taps := 2 }), (6, { taps := 2 }), (7, { taps := 2 }), (8, { taps := 2 }), (9, { taps := 2 }), (10, { taps := 2 }), (11, { taps := 2 })] })] } : State), (0 : Nat), (0 : Nat), ([(2, 0x7000533), (2, 0x7000533), (2, 0x7000533), (2, 0x7000533), (2, 0x7000533), (2, 0x7000533), (2, 0x7000533), (2, 0x7000533), (2, 0x7000533), (2, 0x7000533), (2, 0x7000533), (2, 0x7000533)] : Column), ((2, 0x7000533) : Block), by decide +kernel⟩,
  ⟨({ regs := [(0x40100020, 64), (0x41000100, 9), (0x4100011C, 0x2000), (0x41008004, 6)], ports := [(0, { nextPfn := 1, frame := (some { info := { rowsCfg := 16, width := 32, height := 16, sof := { sec := 50, ns := 0x78D94 } }, w := 32, h := 16, readouts := 1, dtype := 44, next := [0], seen := 0x1DCD6500 }), opened := [0], jv := { map := [0, 1, 2, 3] }, lanes := [(0, { taps := 2, alignAt := (some 0) }), (1, { taps := 2, alignAt := (some 0) }), (2, { taps := 2, alignAt := (some 0) }), (3, { taps := 2, alignAt := (some 0) }), (4, { taps := 2 }), (5, { taps := 2 }), (6, { taps := 2 }), (7, { taps := 2 }), (8, { taps := 2 }), (9, { taps := 2 }), (10, { taps := 2 }), (11, { taps := 2 })] })] } : State), (0 : Nat), (0 : Nat), ([(2, 102), (2, 102), (2, 102), (2, 102), (2, 102), (2, 102), (2, 102), (2, 102), (2, 102), (2, 102), (2, 102), (2, 102)] : Column), ((2, 102) : Block), ({ info := { rowsCfg := 16, width := 32, height := 16, sof := { sec := 50, ns := 0x78D94 } }, w := 32, h := 16, readouts := 1, dtype := 44, next := [0], seen := 0x1DCD6500 } : OpenSt), by decide +kernel⟩,
  ⟨({ regs := [(0x40100020, 64), (0x41000100, 9), (0x4100011C, 0x2000), (0x41008004, 6), (0x41008404, 6), (0x41008804, 6), (0x41008C04, 6)], ports := [(0, { nextPfn := 1, frame := (some { info := { rowsCfg := 16, width := 32, height := 16, sof := { sec := 50, ns := 0x78D94 } }, w := 32, h := 16, readouts := 1, dtype := 44, next := [0], seen := 0x1DCD6500 }), opened := [0], jv := { map := [0, 1, 2, 3] }, lanes := [(0, { taps := 2, alignAt := (some 0) }), (1, { taps := 2, alignAt := (some 0) }), (2, { taps := 2, alignAt := (some 0) }), (3, { taps := 2, alignAt := (some 0) }), (4, { taps := 2 }), (5, { taps := 2 }), (6, { taps := 2 }), (7, { taps := 2 }), (8, { taps := 2 }), (9, { taps := 2 }), (10, { taps := 2 }), (11, { taps := 2 })] })] } : State), (0 : Nat), (0 : Nat), ({ sol := [(2, 0x250000300000B04B), (2, 0x250000300000B04B), (2, 0x250000300000B04B), (2, 0x250000300000B04B), (2, 0x250000300000B04B), (2, 0x250000300000B04B), (2, 0x250000300000B04B), (2, 0x250000300000B04B), (2, 0x250000300000B04B), (2, 0x250000300000B04B), (2, 0x250000300000B04B), (2, 0x250000300000B04B)], data := [[(1, 0x8E3BE99744F2A05), (1, 0x300BE6C19C77522D), (1, 0x58330EE9C49F7A55), (1, 0x805B3611ECC7A27D), (0, 0), (0, 0), (0, 0), (0, 0), (0, 0), (0, 0), (0, 0), (0, 0)], [(1, 0xA8835E3914EFCAA5), (1, 0xD0AB86613C17F2CD), (1, 0), (1, 0), (0, 0), (0, 0), (0, 0), (0, 0), (0, 0), (0, 0), (0, 0), (0, 0)]], eol := [(2, 0x107A10D78955), (2, 0x107A10D78955), (2, 0x107A10D78955), (2, 0x107A10D78955), (2, 0x107A10D78955), (2, 0x107A10D78955), (2, 0x107A10D78955), (2, 0x107A10D78955), (2, 0x107A10D78955), (2, 0x107A10D78955), (2, 0x107A10D78955), (2, 0x107A10D78955)] } : JavelLine), ((2, 0x250000300000B04B) : Block), ({ info := { rowsCfg := 16, width := 32, height := 16, sof := { sec := 50, ns := 0x78D94 } }, w := 32, h := 16, readouts := 1, dtype := 44, next := [0], seen := 0x1DCD6500 } : OpenSt), (0 : Nat), (44 : Nat), (48 : Nat), by decide +kernel⟩,
  ⟨({ regs := [(0x40100020, 64), (0x41000100, 9), (0x4100011C, 0x2000)], live := [(0x41000008, 0x80020)] } : State), (0 : Nat), (0 : Nat), ({ sol := [(2, 0), (2, 0), (2, 0), (2, 0), (2, 0), (2, 0), (2, 0), (2, 0), (2, 0), (2, 0), (2, 0), (2, 0)], data := [[(1, 0x101010101010101), (1, 0x101010101010101), (1, 0x101010101010101), (1, 0x101010101010101), (0, 0), (0, 0), (0, 0), (0, 0), (0, 0), (0, 0), (0, 0), (0, 0)], [(1, 0x101010101010101), (1, 0x101010101010101), (1, 257), (1, 0), (0, 0), (0, 0), (0, 0), (0, 0), (0, 0), (0, 0), (0, 0), (0, 0)]], eol := [(2, 0x30000000055), (2, 0x30000000055), (2, 0x30000000055), (2, 0x30000000055), (2, 0x30000000055), (2, 0x30000000055), (2, 0x30000000055), (2, 0x30000000055), (2, 0x30000000055), (2, 0x30000000055), (2, 0x30000000055), (2, 0x30000000055)] } : JavelLine), by decide +kernel⟩⟩

theorem met_CsiFramesAndGroups :
  (∃ (s : State) (n : Nat) (f : OpenSt),
    n < 4 ∧
    s.unitOn (dSP n) = true ∧
    Calm s ∧
    (s.port n).frame = some f) ∧
  (∃ (s : State) (g rfn : Nat) (k : Tick),
    g < 4 ∧
    rfn < 2 ^ 32 ∧
    Calm s ∧
    s.ref.ticks.find? (fun x => x.rfn == rfn) = some k ∧
    s.present g rfn ≠ 0 ∧
    s.groups.any (fun e => e.1 == g && e.2.1 == rfn) = false ∧
    s.domOn (dSP 0) = true) ∧
  (∃ (s : State) (n a vc : Nat) (c : BitVec 16),
    n < 4 ∧
    vc < 4 ∧
    Calm s ∧
    s.csiOn n = true ∧
    s.stripMode n = false ∧
    s.running n = true ∧
    (s.port n).frame = none ∧
    look s.cfg.hold n = none ∧
    s.cfg.todo = [] ∧
    bitOf (s.rd (SP_CSI_VC_MAP n)).toNat (4 * vc + 2) = true ∧
    s.f (SP_FRAME_SIZE_width n) ≠ 0 ∧
    s.f (SP_FRAME_SIZE_height n) ≠ 0) ∧
  (∃ (s : State) (n a vc : Nat) (f : OpenSt),
    n < 4 ∧
    vc < 4 ∧
    Calm s ∧
    s.csiOn n = true ∧
    s.stripMode n = false ∧
    (s.port n).frame = some f ∧
    f.begun = [vc]) ∧
  (∃ (s : State) (n a : Nat) (k : CsiLong),
    n < 4 ∧
    k.vc < 32 ∧
    k.dtype < 64 ∧
    Calm s ∧
    s.csiOn n = true ∧
    k.header = .bad) ∧
  (∃ (s : State) (n a : Nat) (k : CsiLong) (f : OpenSt),
    n < 4 ∧
    k.vc < 4 ∧
    Calm s ∧
    s.csiOn n = true ∧
    s.stripMode n = false ∧
    s.b (SP_STATUS_discarding n) = false ∧
    k.header = .good ∧
    s.vcReadout n k.vc = some 0 ∧
    (s.port n).frame = some f ∧
    f.withheld = false ∧
    f.readouts = 1 ∧
    f.next = [f.out] ∧
    f.lines = [] ∧
    0x2B ≤ k.dtype ∧
    k.dtype ≤ 0x2F ∧
    k.dtype = f.dtype ∧
    (s.port n).lineNo = [] ∧
    lookD f.vcLines 0 k.vc = f.out ∧
    f.out < f.h ∧
    k.payload.length = lineBytes k.dtype f.w ∧
    crc16 k.payload = k.crc.toNat ∧
    fifoLines (s.port n) < 8) ∧
  (∃ (s : State) (n vc : Nat) (c : BitVec 16),
    n < 4 ∧
    vc < 4 ∧
    s.csiOn n = true ∧
    (s.port n).frame.isSome = true ∧
    s.b (SP_STATUS_discarding n) = false ∧
    s.err.slots = []) :=
  ⟨⟨({ regs := [(0x40100020, 0x7FFFFFFF)], ports := [(1, { nextPfn := 1, frame := (some { info := { fsw := 0x400000, rowsCfg := 4, width := 8, height := 4, counter := 7 }, w := 8, h := 4, readouts := 1, dtype := 44, next := [0], begun := [0], vcLines := [(0, 0)] }), fifo := [(.start { fsw := 0x400000, rowsCfg := 4, width := 8, height := 4, counter := 7 } 12 0 0 1)], opened := [0] })] } : State), (1 : Nat), ({ info := { fsw := 0x400000, rowsCfg := 4, width := 8, height := 4, counter := 7 }, w := 8, h := 4, readouts := 1, dtype := 44, next := [0], begun := [0], vcLines := [(0, 0)] } : OpenSt), by decide +kernel⟩,
  ⟨({ regs := [(0x40100020, 0x7FFFFFFF), (0x41000034, 4)], ref := { ticks := [{ at_ := 0, rfn := 5, t := {}, per := 0, st := 0, moved := false }] }, ports := [(0, { opened := [5] })] } : State), (0 : Nat), (5 : Nat), ({ at_ := 0, rfn := 5, t := {}, per := 0, st := 0, moved := false } : Tick), by decide +kernel⟩,
  ⟨({ regs := [(0x40100020, 128), (0x41100000, 7), (0x41100008, 0x10002), (0x41100304, 64)] } : State), (1 : Nat), (0 : Nat), (1 : Nat), (5 : BitVec 16), by decide +kernel⟩,
  ⟨({ regs := [(0x40100020, 128), (0x41100000, 4)], pwr := { onSince := [] }, ports := [(1, { nextPfn := 1, frame := (some { info := { fsw := 0x400000, rowsCfg := 4, width := 8, height := 4, counter := 7 }, w := 8, h := 4, readouts := 1, dtype := 44, next := [0], begun := [0], vcLines := [(0, 0)] }), fifo := [(.start { fsw := 0x400000, rowsCfg := 4, width := 8, height := 4, counter := 7 } 12 0 0 1)], opened := [0] })] } : State), (1 : Nat), (0 : Nat), (0 : Nat), ({ info := { fsw := 0x400000, rowsCfg := 4, width := 8, height := 4, counter := 7 }, w := 8, h := 4, readouts := 1, dtype := 44, next := [0], begun := [0], vcLines := [(0, 0)] } : OpenSt), by decide +kernel⟩,
  ⟨({ regs := [(0x40100020, 128), (0x41100000, 4)] } : State), (1 : Nat), (0 : Nat), ({ header := .bad, vc := 0, dtype := 44, payload := [1, 2, 3], crc := 0 } : CsiLong), by decide +kernel⟩,
  ⟨({ regs := [(0x40100020, 128), (0x41100000, 4)], live := [(0x41100304, 84)], ports := [(1, { nextPfn := 1, frame := (some { info := { fsw := 0x400000, rowsCfg := 4, width := 8, height := 4, counter := 7 }, w := 8, h := 4, readouts := 1, dtype := 44, next := [0], begun := [0], vcLines := [(0, 0)] }), fifo := [(.start { fsw := 0x400000, rowsCfg := 4, width := 8, height := 4, counter := 7 } 12 0 0 1)], opened := [0] })] } : State), (1 : Nat), (0 : Nat), ({ header := .good, vc := 0, dtype := 44, payload := [5, 42, 79, 116, 153, 190, 227, 8, 45, 82, 119, 156], crc := 0x2883 } : CsiLong), ({ info := { fsw := 0x400000, rowsCfg := 4, width := 8, height := 4, counter := 7 }, w := 8, h := 4, readouts := 1, dtype := 44, next := [0], begun := [0], vcLines := [(0, 0)] } : OpenSt), by decide +kernel⟩,
  ⟨({ regs := [(0x40100020, 128), (0x41100000, 4)], pwr := { onSince := [] }, ports := [(1, { nextPfn := 1, frame := (some { info := { fsw := 0x400000, rowsCfg := 4, width := 8, height := 4, counter := 7 }, w := 8, h := 4, readouts := 1, dtype := 44, next := [0], begun := [0], vcLines := [(0, 0)] }), fifo := [(.start { fsw := 0x400000, rowsCfg := 4, width := 8, height := 4, counter := 7 } 12 0 0 1)], opened := [0] })] } : State), (1 : Nat), (0 : Nat), (5 : BitVec 16), by decide +kernel⟩⟩

theorem met_StripScan :
  (∃ (s : State) (n a : Nat) (up : Bool),
    n < 4 ∧
    Calm s ∧
    s.unitOn (dSP n) = true ∧
    s.running n = true ∧
    s.stripMode n = true ∧
    s.f (SP_SS_CTRL_src n) = (if up then 0 else 1) ∧
    (s.port n).ss.bad = false ∧
    s.f (SP_SS_GEOM_n n) ≠ 0 ∧
    (s.port n).ss.made % s.f (SP_SS_GEOM_n n) ≠ 0 ∧
    s.now ≤ a ∧
    (s.port n).ss.last.all (fun l => decide (l + s.f (SP_SS_MINPER_ns n) * 1000 ≤ a)) = true) ∧
  (∃ (s : State) (n p : Nat) (l : SsLine),
    n < 4 ∧
    s.unitOn (dSP n) = true ∧
    Calm s ∧
    (s.port n).ss.fired.find? (fun e => decide (e.2.rows.length < s.ssRows n)) = some (p, l)) ∧
  (∃ (s : State) (n : Nat) (x : StripSt) (rest : List StripSt),
    n < 4 ∧
    s.unitOn (dSP n) = true ∧
    s.err.slots = [] ∧
    (s.ssNext n).map (·.2) = some false ∧
    (s.port n).ss.strips = x :: rest ∧
    x.done + 1 < s.f (SP_SS_GEOM_n n) ∧
    s.f (SP_SS_MAP_SLOTS_slots n) = 0) :=
  ⟨⟨({ regs := [(0x40100020, 64), (0x41000000, 3), (0x41000800, 1), (0x41000810, 0x20000)], ports := [(0, { nextPfn := 1, fifo := [(.start { fsw := 0x400000, rowsCfg := 6, width := 8, height := 6, sof := { ns := 1000 } } 12 0 0 1)], ss := { made := 1, src := [(0, ((some 0), false))], pulses := 1, fired := [(0, { num := 0, at_ := 0xF4240 })], strips := [{ info := { fsw := 0x400000, rowsCfg := 6, width := 8, height := 6, sof := { ns := 1000 } }, dly := [(0, 0), (0, 0), (0, 0), (0, 0)] }], last := (some 0xF4240) } })] } : State), (0 : Nat), (0x2FAF080 : Nat), (true : Bool), by decide +kernel⟩,
  ⟨({ regs := [(0x40100020, 0x7FFFFFFF)], pwr := { onSince := [] }, ports := [(0, { nextPfn := 1, fifo := [(.start { fsw := 0x400000, rowsCfg := 6, width := 8, height := 6, sof := { ns := 1000 } } 12 0 0 1)], ss := { made := 1, src := [(0, ((some 0), false))], pulses := 1, fired := [(0, { num := 0, at_ := 0xF4240 })], strips := [{ info := { fsw := 0x400000, rowsCfg := 6, width := 8, height := 6, sof := { ns := 1000 } }, dly := [(0, 0), (0, 0), (0, 0), (0, 0)] }], last := (some 0xF4240) } })] } : State), (0 : Nat), (0 : Nat), ({ num := 0, at_ := 0xF4240 } : SsLine), by decide +kernel⟩,
  ⟨({ regs := [(0x40100020, 0x7FFFFFFF), (0x41000800, 0), (0x41000810, 0x20000)], ports := [(0, { nextPfn := 1, fifo := [(.start { fsw := 0x400000, rowsCfg := 6, width := 8, height := 6, sof := { ns := 1000 } } 12 0 0 1)], ss := { made := 3, src := [(0, ((some 0), false)), (1, ((some 1), false)), (2, ((some 2), false))], pulses := 3, fired := [(0, { num := 0, at_ := 0xF4240, rows := [(0, none)] }), (1, { num := 1, at_ := 0x895440 }), (2, { num := 2, at_ := 0x1312D00 })], strips := [{ info := { fsw := 0x400000, rowsCfg := 6, width := 8, height := 6, sof := { ns := 1000 } }, dly := [(0, 0), (0, 0), (0, 0), (0, 0)] }], last := (some 0x1312D00) } })] } : State), (0 : Nat), ({ info := { fsw := 0x400000, rowsCfg := 6, width := 8, height := 6, sof := { ns := 1000 } }, dly := [(0, 0), (0, 0), (0, 0), (0, 0)] } : StripSt), ([] : List StripSt), by decide +kernel⟩⟩

theorem met_PipelineRowsAndOutputs :
  (∃ (s : State) (n : Nat) (data : List (Option Codes)) (filled : Bool) (fr : IpFrame),
    n < 4 ∧
    s.err.slots = [] ∧
    s.unitOn (dIP n) = true ∧
    (s.port n).fifo = [.row data filled] ∧
    (s.ip n).frames = [fr] ∧
    fr.closed = false ∧
    fr.y + 1 < fr.info.height ∧
    tapsOn s.variant n fr = []) ∧
  (∃ (s : State) (r : Requester) (n : Nat) (v : Word),
    n < 4 ∧
    s.unitOn (dIP n) = true ∧
    (s.ip n).commits.any (·.capturing) = false) ∧
  (∃ (s : State) (n : Nat),
    n < 4 ∧
    s.unitOn (dIP n) = true ∧
    s.mc.fills = [] ∧
    s.mc.reread = [] ∧
    s.err.slots = [] ∧
    ((s.ip n).frames.all (fun f => f.tabs.all (fun e => e.2.dead == 0 ||
    (s.ip n).tabs.any (fun x => x.1 == e.1 && x.2.ver == e.2.ver && x.2.dead != 0)))) = true) ∧
  (∃ (s : State) (n k a : Nat) (fr : IpFrame),
    n < 4 ∧
    s.unitOn (dIP n) = true ∧
    s.mc.fills = [] ∧
    s.mc.reread = [] ∧
    s.err.slots = [] ∧
    (s.port n).fifo = [] ∧
    s.frameWhere n (·.statsDue) = some k ∧
    (s.ip n).frames[k]? = some fr) ∧
  (∃ (s : State) (n k a b : Nat) (fr : IpFrame),
    n < 4 ∧
    s.unitOn (dIP n) = true ∧
    s.mc.fills = [] ∧
    s.mc.reread = [] ∧
    s.err.slots = [] ∧
    (s.port n).fifo = [] ∧
    s.frameWhere n (·.lumaDue.isSome) = some k ∧
    (s.ip n).frames[k]? = some fr) ∧
  (∃ (s : State) (n p b : Nat) (fr : IpFrame),
    n < 4 ∧
    p < 4 ∧
    s.unitOn (dIP n) = true ∧
    (s.port n).fifo = [] ∧
    (s.ip n).frames = [fr] ∧
    fr.stage = 0 ∧
    fr.closed = false ∧
    fr.started.contains p = false ∧
    (tapsOn s.variant n fr).contains p = true ∧
    fr.g s.variant (IP_T_CFG_dest n p) = 0 ∧
    tapFmtOk p (fr.g s.variant (IP_T_CFG_fmt n p)) = true ∧
    fr.fits s.variant n p s = true ∧
    s.ringBufs (.tap n p) ≠ 0 ∧
    (searchOrder (s.ring (.tap n p)).next (s.ringBufs (.tap n p))).find?
    (fun x => !(s.ring (.tap n p)).holds x && (s.ring (.tap n p)).writing != some x) = some b) ∧
  (∃ (s : State) (n p b : Nat) (fr : IpFrame),
    n < 4 ∧
    p < 4 ∧
    s.unitOn (dIP n) = true ∧
    (s.port n).fifo = [] ∧
    (s.ip n).frames = [fr] ∧
    fr.stage < 3 ∧
    fr.closed = false ∧
    fr.started.contains (8 + p) = false ∧
    branchOff s.variant n p fr = false ∧
    branchErr n p fr s = false ∧
    s.ringBufs (.branch n p) ≠ 0 ∧
    (searchOrder (s.ring (.branch n p)).next (s.ringBufs (.branch n p))).find?
    (fun x => !(s.ring (.branch n p)).holds x && (s.ring (.branch n p)).writing != some x) = some b) ∧
  (∃ (s : State) (n p b : Nat) (fr : IpFrame),
    n < 4 ∧
    p < 2 ∧
    s.unitOn (dIP n) = true ∧
    s.mc.fills = [] ∧
    s.mc.reread = [] ∧
    s.err.slots = [] ∧
    (s.port n).fifo = [] ∧
    (s.ip n).frames = [fr] ∧
    fr.closed = true ∧
    fr.statsDue = false ∧
    fr.lumaDue = none ∧
    look fr.bufs p = some (b, true) ∧
    (s.ring (.tap n p)).writing = some b ∧
    (s.ring (.tap n p)).cons.all (fun k => match k.id with | .enc _ => false | _ => true) = true) ∧
  (∃ (s : State) (n p : Nat),
    n < 4 ∧
    2 ≤ p ∧
    p < 4) :=
  ⟨⟨({ regs := [(0x40100020, 0x7FFFFFFF)], ports := [(0, { nextPfn := 1, frame := (some { info := { fsw := 0x400000, rowsRx := 3, rowsCfg := 16, width := 32, height := 16, sof := { ns := 0x30D40 } }, w := 32, h := 16, readouts := 1, dtype := 44, next := [3], out := 3, seen := 0xC474F80 }), fifo := [(.row [(some (List.replicate 32 (some 0)))] false)], opened := [0], jv := { map := [0, 1, 2, 3] }, lanes := [(0, { taps := 2, alignAt := (some 0) }), (1, { taps := 2, alignAt := (some 0) }), (2, { taps := 2, alignAt := (some 0) }), (3, { taps := 2, alignAt := (some 0) }), (4, { taps := 2 }), (5, { taps := 2 }), (6, { taps := 2 }), (7, { taps := 2 }), (8, { taps := 2 }), (9, { taps := 2 }), (10, { taps := 2 }), (11, { taps := 2 })] }), (1, { jv := { map := [0, 1, 2, 3, 4] }, lanes := [(0, { taps := 2 }), (1, { taps := 2 }), (2, { taps := 2 }), (3, { taps := 2 }), (4, { taps := 2 }), (5, { taps := 2 }), (6, { taps := 2 }), (7, { taps := 2 }), (8, { taps := 2 }), (9, { taps := 2 }), (10, { taps := 2 }), (11, { taps := 2 })] })], ips := [(0, { frames := [{ info := { fsw := 0x400000, rowsCfg := 16, width := 32, height := 16, sof := { ns := 0x30D40 } }, depth := 12, fillMode := 0, fillVal := 0, readouts := 1, par := [(0x42000100, 0x180201), (0x4200011C, 0), (0x420001F0, 16), (0x42000324, 0x30100), (0x42000700, 0), (0x42000800, 768)], tabs := [(0, { ver := 1 }), (1, { ver := 1 }), (2, { ver := 1 }), (3, { ver := 1 }), (4, { ver := 2 }), (8, { ver := 3, bad := 7 }), (9, { ver := 3, bad := 1 }), (10, { ver := 3, bad := 7 }), (11, { ver := 3 })], seq := 1, fsw := 0x1000, news := 6, y := 2, plane := #[#[0, 0, 0, 0, 0, 0, 0, 0, 0, 0, 0, 0, 0, 0, 0, 0, 0, 0, 0, 0, 0, 0, 0, 0, 0, 0, 0, 0, 0, 0, 0, 0], #[0, 0, 0, 0, 0, 0, 0, 0, 0, 0, 0, 0, 0, 0, 0, 0, 0, 0, 0, 0, 0, 0, 0, 0, 0, 0, 0, 0, 0, 0, 0, 0]], present := 1, learn := true }], tabs := [(0, { ver := 1 }), (1, { ver := 1 }), (2, { ver := 1 }), (3, { ver := 1 }), (4, { ver := 2 }), (8, { ver := 3, bad := 7 }), (9, { ver := 3, bad := 1 }), (10, { ver := 3, bad := 7 }), (11, { ver := 3 })], dueAt := 0x623A7C0, ver := 3, seq := 1, direct := 15, last := (some (32, (1, (0, (0, 6))))) })] } : State), (0 : Nat), ([(some (List.replicate 32 (some 0)))] : List (Option Codes)), (false : Bool), ({ info := { fsw := 0x400000, rowsCfg := 16, width := 32, height := 16, sof := { ns := 0x30D40 } }, depth := 12, fillMode := 0, fillVal := 0, readouts := 1, par := [(0x42000100, 0x180201), (0x4200011C, 0), (0x420001F0, 16), (0x42000324, 0x30100), (0x42000700, 0), (0x42000800, 768)], tabs := [(0, { ver := 1 }), (1, { ver := 1 }), (2, { ver := 1 }), (3, { ver := 1 }), (4, { ver := 2 }), (8, { ver := 3, bad := 7 }), (9, { ver := 3, bad := 1 }), (10, { ver := 3, bad := 7 }), (11, { ver := 3 })], seq := 1, fsw := 0x1000, news := 6, y := 2, plane := #[#[0, 0, 0, 0, 0, 0, 0, 0, 0, 0, 0, 0, 0, 0, 0, 0, 0, 0, 0, 0, 0, 0, 0, 0, 0, 0, 0, 0, 0, 0, 0, 0], #[0, 0, 0, 0, 0, 0, 0, 0, 0, 0, 0, 0, 0, 0, 0, 0, 0, 0, 0, 0, 0, 0, 0, 0, 0, 0, 0, 0, 0, 0, 0, 0]], present := 1, learn := true } : IpFrame), by decide +kernel⟩,
  ⟨({ regs := [(0x40100020, 0x7FFFFFFF)] } : State), (.cc0 : Requester), (0 : Nat), (0 : Word), by decide +kernel⟩,
  ⟨({ regs := [(0x40100020, 0x7FFFFFFF)] } : State), (0 : Nat), by decide +kernel⟩,
  ⟨({ regs := [(0x40100020, 0x7FFFFFFF)], ips := [(0, { frames := [{ info := { pfn := 9, width := 16, height := 16 }, depth := 12, fillMode := 0, fillVal := 0, readouts := 1, par := [(0x42000700, 1), (0x42000708, 0x100010), (0x42000710, 0x30000000), (0x42000718, 1), (0x4200071C, 1)], tabs := [], seq := 0, statsDue := true }] })] } : State), (0 : Nat), (0 : Nat), (0x30000000 : Nat), ({ info := { pfn := 9, width := 16, height := 16 }, depth := 12, fillMode := 0, fillVal := 0, readouts := 1, par := [(0x42000700, 1), (0x42000708, 0x100010), (0x42000710, 0x30000000), (0x42000718, 1), (0x4200071C, 1)], tabs := [], seq := 0, statsDue := true } : IpFrame), by decide +kernel⟩,
  ⟨({ regs := [(0x40100020, 0x7FFFFFFF)], ips := [(0, { frames := [{ info := { pfn := 9, width := 16, height := 16 }, depth := 12, fillMode := 0, fillVal := 0, readouts := 1, par := [(0x42000700, 1), (0x42000708, 0x100010), (0x42000710, 0x30000000), (0x42000718, 1), (0x4200071C, 1)], tabs := [], seq := 0, lumaDue := (some (0, [], 0, 0)) }] })] } : State), (0 : Nat), (0 : Nat), (0x30000000 : Nat), (0 : Nat), ({ info := { pfn := 9, width := 16, height := 16 }, depth := 12, fillMode := 0, fillVal := 0, readouts := 1, par := [(0x42000700, 1), (0x42000708, 0x100010), (0x42000710, 0x30000000), (0x42000718, 1), (0x4200071C, 1)], tabs := [], seq := 0, lumaDue := (some (0, [], 0, 0)) } : IpFrame), by decide +kernel⟩,
  ⟨({ regs := [(0x40100020, 1024), (0x4200068C, 1), (0x42000690, 2048), (0x42000694, 128)], ips := [(0, { frames := [{ info := { fsw := 0x480000, rowsCfg := 8, width := 32, height := 8, sof := { ns := 0xE4E1C0 }, level := 2 }, depth := 12, fillMode := 0, fillVal := 0, readouts := 1, par := [(0x42000680, 0x30001)], tabs := [], seq := 1, fsw := 0x1000, present := 1 }], dueAt := 0x4C4B40, seq := 1, direct := 15, last := (some (32, (1, (0, (0, 6))))) })] } : State), (0 : Nat), (2 : Nat), (0 : Nat), ({ info := { fsw := 0x480000, rowsCfg := 8, width := 32, height := 8, sof := { ns := 0xE4E1C0 }, level := 2 }, depth := 12, fillMode := 0, fillVal := 0, readouts := 1, par := [(0x42000680, 0x30001)], tabs := [], seq := 1, fsw := 0x1000, present := 1 } : IpFrame), by decide +kernel⟩,
  ⟨({ regs := [(0x40100020, 0x7FFFFFFF), (0x420008C4, 16), (0x420008C8, 2), (0x420008CC, 0x2000), (0x420008D0, 0x100)], ips := [(0, { frames := [{ info := { pfn := 9, width := 16, height := 16 }, depth := 12, fillMode := 0, fillVal := 0, readouts := 1, par := [(0x42000884, 0x100010), (0x42000888, 0x100010), (0x42000898, 0x10)], tabs := [], seq := 0 }] })] } : State), (0 : Nat), (0 : Nat), (0 : Nat), ({ info := { pfn := 9, width := 16, height := 16 }, depth := 12, fillMode := 0, fillVal := 0, readouts := 1, par := [(0x42000884, 0x100010), (0x42000888, 0x100010), (0x42000898, 0x10)], tabs := [], seq := 0 } : IpFrame), by decide +kernel⟩,
  ⟨({ regs := [(0x40100020, 0x7FFFFFFF)], rings := [(1, { writing := (some 0), next := 1 })], ips := [(0, { frames := [{ info := { fsw := 0x400000, rowsRx := 4, rowsCfg := 4, width := 8, height := 4, sof := { ns := 0x4E20 }, eof := { ns := 0x7D00 } }, depth := 12, fillMode := 0, fillVal := 0, readouts := 2, par := [(0x42000100, 0x180001), (0x42000128, 0x200000), (0x4200012C, 16), (0x42000130, 1), (0x42000140, 0x3A000), (0x42000150, 0x3A000), (0x42000640, 0x30001)], tabs := [(0, { ver := 1 }), (1, { ver := 1 }), (2, { ver := 1 }), (3, { ver := 1 })], seq := 1, fsw := 0x80001040, stage := 3, closed := true, y := 4, plane := #[#[0x3BE80, 0x3BE80, 0x3BE80, 0x3BE80, 0x3BE80, 0x3BE80, 0x3BE80, 0x3BE80], #[0x3CEE0, 0x3CEE0, 0x3CEE0, 0x3CEE0, 0x3CEE0, 0x3CEE0, 0x3CEE0, 0x3CEE0], #[0x39E80, 0x39E80, 0x39E80, 0x39E80, 0x39E80, 0x39E80, 0x39E80, 0x39E80], #[0x3BE80, 0x3BE80, 0x3BE80, 0x3BE80, 0x3BE80, 0x3BE80, 0x3BE80, 0x3BE80]], rgb := #[(Array.replicate 8 (0, (0, 0))), (Array.replicate 8 (0, (0, 0))), (Array.replicate 8 (0, (0, 0))), (Array.replicate 8 (0, (0, 0)))], present := 0, degraded := true, learn := true, started := [1], bufs := [(1, (0, true))] }], tabs := [(0, { ver := 1 }), (1, { ver := 1 }), (2, { ver := 1 }), (3, { ver := 1 })], dueAt := 0x1E8480, ver := 1, seq := 1, direct := 15, last := (some (8, (2, (0, (0, 6))))) })] } : State), (0 : Nat), (1 : Nat), (0 : Nat), ({ info := { fsw := 0x400000, rowsRx := 4, rowsCfg := 4, width := 8, height := 4, sof := { ns := 0x4E20 }, eof := { ns := 0x7D00 } }, depth := 12, fillMode := 0, fillVal := 0, readouts := 2, par := [(0x42000100, 0x180001), (0x42000128, 0x200000), (0x4200012C, 16), (0x42000130, 1), (0x42000140, 0x3A000), (0x42000150, 0x3A000), (0x42000640, 0x30001)], tabs := [(0, { ver := 1 }), (1, { ver := 1 }), (2, { ver := 1 }), (3, { ver := 1 })], seq := 1, fsw := 0x80001040, stage := 3, closed := true, y := 4, plane := #[#[0x3BE80, 0x3BE80, 0x3BE80, 0x3BE80, 0x3BE80, 0x3BE80, 0x3BE80, 0x3BE80], #[0x3CEE0, 0x3CEE0, 0x3CEE0, 0x3CEE0, 0x3CEE0, 0x3CEE0, 0x3CEE0, 0x3CEE0], #[0x39E80, 0x39E80, 0x39E80, 0x39E80, 0x39E80, 0x39E80, 0x39E80, 0x39E80], #[0x3BE80, 0x3BE80, 0x3BE80, 0x3BE80, 0x3BE80, 0x3BE80, 0x3BE80, 0x3BE80]], rgb := #[(Array.replicate 8 (0, (0, 0))), (Array.replicate 8 (0, (0, 0))), (Array.replicate 8 (0, (0, 0))), (Array.replicate 8 (0, (0, 0)))], present := 0, degraded := true, learn := true, started := [1], bufs := [(1, (0, true))] } : IpFrame), by decide +kernel⟩,
  ⟨({  } : State), (0 : Nat), (2 : Nat), by decide +kernel⟩⟩

theorem met_PipInstructions :
  (∀ e ∈ vecOps, let b := BitVec.ofNat 64 (e.2.1 * 2 ^ 26)
    Running (pipWith b none) ⟨5, 3⟩ (runWith none) b ∧ b.toNat % 2 ^ 32 = e.2.1 * 2 ^ 26 + (0 : BitVec 26).toNat) ∧
  (∀ e ∈ cmpOps, let b := BitVec.ofNat 64 (e.2.1 * 2 ^ 26)
    Running (pipWith b none) ⟨5, 3⟩ (runWith none) b ∧ b.toNat % 2 ^ 32 = e.2.1 * 2 ^ 26 + (0 : BitVec 26).toNat) ∧
  (∃ (s : State) (u : PipRef) (r : PipRun) (b : BitVec 64) (w : BitVec 26),
    Running s u r b ∧
    r.a = none ∧
    b.toNat % 2 ^ 32 = w.toNat) ∧
  (∃ (s : State) (u : PipRef) (r : PipRun) (b : BitVec 64) (w : BitVec 26),
    Running s u r b ∧
    r.a = none ∧
    b.toNat % 2 ^ 32 = 0x24 * 2 ^ 26 + w.toNat ∧
    (s.pod u.pod).bad = false) ∧
  (∀ e ∈ scalarOps, let b := BitVec.ofNat 64 (e.2.1 * 2 ^ 58)
    Running (pipWith b (some .none)) ⟨5, 3⟩ (runWith (some .none)) b ∧ b.toNat / 2 ^ 32 = e.2.1 * 2 ^ 26 + (0 : BitVec 26).toNat) ∧
  (∃ (s : State) (u : PipRef) (r : PipRun) (b : BitVec 64) (w : BitVec 26),
    Running s u r b ∧
    r.a = some .none ∧
    b.toNat / 2 ^ 32 = 0x19 * 2 ^ 26 + w.toNat) ∧
  (Running (pipWith 0 (some .none)) ⟨5, 3⟩ (runWith (some .none)) 0 ∧ (0 : BitVec 64).toNat / 2 ^ 32 = (0 : BitVec 26).toNat) ∧
  (∀ e ∈ branchOps, let b := BitVec.ofNat 64 (e.2.1 * 2 ^ 58)
    Running (pipWith b (some .none)) ⟨5, 3⟩ (runWith (some .none)) b ∧ b.toNat / 2 ^ 32 = e.2.1 * 2 ^ 26 + (0 : BitVec 26).toNat ∧
    0 ≤ ((runWith none).pc : Int) + (BitVec.ofNat 18 0).toInt ∧
    ((runWith none).pc : Int) + (BitVec.ofNat 18 0).toInt < ((pipWith b none).pod 5).pkg.code.length) ∧
  (∀ op ∈ [3, 4], let b := BitVec.ofNat 64 (op * 2 ^ 58 + 2 ^ 50)
    Running (pipWith b (some .none)) ⟨5, 3⟩ (runWith (some .none)) b ∧ localWord 0 ∧
    b.toNat / 2 ^ 32 = op * 2 ^ 26 + (0x40000 : BitVec 26).toNat ∧ bitsOf (0x40000 : BitVec 26).toNat 21 18 ≠ 0 ∧
    0 = ((runWith none).sreg 0 + BitVec.ofNat 32 0).toNat) ∧
  (∀ op ∈ [1, 2], let b := BitVec.ofNat 64 (op * 2 ^ 58)
    Running (pipWith b (some .none)) ⟨5, 3⟩ (runWith (some .none)) b ∧ b.toNat / 2 ^ 32 = op * 2 ^ 26 + (0 : BitVec 26).toNat ∧
    0 = ((runWith none).sreg 0 + BitVec.ofNat 32 0).toNat ∧ 0 % 4 = 0 ∧ 0 + 16 ≤ 0x1E00) ∧
  (∃ (s : State) (u : PipRef) (r : PipRun) (b : BitVec 64) (w : BitVec 26) (k : Nat) (fr : IpFrame),
    Running s u r b ∧
    r.a.isSome = true ∧
    b.toNat / 2 ^ 32 = 0x26 * 2 ^ 26 + w.toNat ∧
    s.pipState u = pipActive ∧
    issueAt r b.toNat ≤ (s.pod u.pod).pkg.c ∧
    r.t.epoch = s.f (POD_PIP_EPOCH_epoch u.pod u.pip) ∧
    (s.pip u).wait = none ∧
    s.slotFront r.t.slot = some (k, fr) ∧
    (s.slot r.t.slot).left.contains r.t.tile = false ∧
    (s.slot r.t.slot).left.length + 1 < tileCount fr) ∧
  (∃ (s : State) (u : PipRef) (r : PipRun) (b : BitVec 64) (w : BitVec 26),
    Running s u r b ∧
    r.a.isSome = true ∧
    b.toNat / 2 ^ 32 = 0x26 * 2 ^ 26 + w.toNat ∧
    s.pipState u ≠ pipRetired ∧
    issueAt r b.toNat ≤ (s.pod u.pod).pkg.c ∧
    r.t.epoch ≠ s.f (POD_PIP_EPOCH_epoch u.pod u.pip) ∧
    (s.pip u).wait = none) :=
  ⟨by decide +kernel,
  by decide +kernel,
  ⟨({ regs := [(0x40100020, 0x7FFFFFFF)], pods := [(5, { pkg := { c := 1000, code := [0, 0, 0], pod := [(0, 5)], luts := [{ base := 0, n := 2, log2 := false, d0 := 0, d1 := 0x3E000 }] } })], pips := [(83, { run := (some { t := { tile := 0, buf := 0, epoch := 0, slot := 0 }, pc := 1, cycle := 9, v := [(0, [0x3E000, 0x40000, 0xBE000, 0x12345]), (1, [3, 0xFFFFFFFF, 0x7FFFF, 0xFFFFF]), (2, [0, 0, 5, 9])], s := [(1, 64), (2, 0xFFFFFFF0), (3, 7), (9, 1)], p := [(0, 5), (1, 0)], ready := [(1, 30)] }), mem := [(64, 77), (68, 0x3E000), (0x2000, 5)], readmit := 2 })] } : State), ({ pod := 5, pip := 3 } : PipRef), ({ t := { tile := 0, buf := 0, epoch := 0, slot := 0 }, pc := 1, cycle := 9, v := [(0, [0x3E000, 0x40000, 0xBE000, 0x12345]), (1, [3, 0xFFFFFFFF, 0x7FFFF, 0xFFFFF]), (2, [0, 0, 5, 9])], s := [(1, 64), (2, 0xFFFFFFF0), (3, 7), (9, 1)], p := [(0, 5), (1, 0)], ready := [(1, 30)] } : PipRun), (0 : BitVec 64), (0 : BitVec 26), by decide +kernel⟩,
  ⟨({ regs := [(0x40100020, 0x7FFFFFFF)], pods := [(5, { pkg := { c := 1000, code := [0, 0x900042A1, 0, 0], pod := [(0, 5)], luts := [{ base := 0, n := 2, log2 := false, d0 := 0, d1 := 0x3E000 }] } })], pips := [(83, { run := (some { t := { tile := 0, buf := 0, epoch := 0, slot := 0 }, pc := 1, cycle := 9, v := [(0, [0x3E000, 0x40000, 0xBE000, 0x12345]), (1, [3, 0xFFFFFFFF, 0x7FFFF, 0xFFFFF]), (2, [0, 0, 5, 9])], s := [(1, 64), (2, 0xFFFFFFF0), (3, 7), (9, 1)], p := [(0, 5), (1, 0)], ready := [(1, 30)] }), mem := [(64, 77), (68, 0x3E000), (0x2000, 5)] })] } : State), ({ pod := 5, pip := 3 } : PipRef), ({ t := { tile := 0, buf := 0, epoch := 0, slot := 0 }, pc := 1, cycle := 9, v := [(0, [0x3E000, 0x40000, 0xBE000, 0x12345]), (1, [3, 0xFFFFFFFF, 0x7FFFF, 0xFFFFF]), (2, [0, 0, 5, 9])], s := [(1, 64), (2, 0xFFFFFFF0), (3, 7), (9, 1)], p := [(0, 5), (1, 0)], ready := [(1, 30)] } : PipRun), (0x900042A1 : BitVec 64), (0x42A1 : BitVec 26), by decide +kernel⟩,
  by decide +kernel,
  ⟨({ regs := [(0x40100020, 0x7FFFFFFF)], pods := [(5, { pkg := { c := 1000, code := [0, 0x640042A100000000, 0, 0], pod := [(0, 5)], luts := [{ base := 0, n := 2, log2 := false, d0 := 0, d1 := 0x3E000 }] } })], pips := [(83, { run := (some { t := { tile := 0, buf := 0, epoch := 1, slot := 0 }, pc := 1, cycle := 9, v := [(0, [0x3E000, 0x40000, 0xBE000, 0x12345]), (1, [3, 0xFFFFFFFF, 0x7FFFF, 0xFFFFF]), (2, [0, 0, 5, 9])], s := [(1, 64), (2, 0xFFFFFFF0), (3, 7), (9, 1)], p := [(0, 5), (1, 0)], ready := [(1, 30)], a := (some .none) }), mem := [(64, 77), (68, 0x3E000), (0x2000, 5)] })] } : State), ({ pod := 5, pip := 3 } : PipRef), ({ t := { tile := 0, buf := 0, epoch := 1, slot := 0 }, pc := 1, cycle := 9, v := [(0, [0x3E000, 0x40000, 0xBE000, 0x12345]), (1, [3, 0xFFFFFFFF, 0x7FFFF, 0xFFFFF]), (2, [0, 0, 5, 9])], s := [(1, 64), (2, 0xFFFFFFF0), (3, 7), (9, 1)], p := [(0, 5), (1, 0)], ready := [(1, 30)], a := (some .none) } : PipRun), (0x640042A100000000 : BitVec 64), (0x42A1 : BitVec 26), by decide +kernel⟩,
  by decide +kernel,
  by decide +kernel,
  by decide +kernel,
  by decide +kernel,
  ⟨({ regs := [(0x40100020, 0x7FFFFFFF)], ips := [(0, { frames := [{ info := { pfn := 9, width := 16, height := 16 }, depth := 12, fillMode := 0, fillVal := 0, readouts := 1, par := [], tabs := [], seq := 0, prog := [(0, 1)], stage := 1, rgb := (Array.replicate 16 (Array.replicate 16 (1, (2, 3)))) }] })], pods := [(0, { pkg := { gen := 1, c := 100, code := [0, 0x9800000000000000] } }), (1, { pkg := { gen := 1, c := 100, code := [0, 0x9800000000000000] } }), (2, { pkg := { gen := 1, c := 100, code := [0, 0x9800000000000000] } }), (3, { pkg := { gen := 1, c := 100, code := [0, 0x9800000000000000] } }), (4, { pkg := { gen := 1, c := 100, code := [0, 0x9800000000000000] } }), (5, { pkg := { gen := 1, c := 100, code := [0, 0x9800000000000000] }, next := 1 }), (6, { pkg := { gen := 1, c := 100, code := [0, 0x9800000000000000] } }), (7, { pkg := { gen := 1, c := 100, code := [0, 0x9800000000000000] } }), (8, { pkg := { gen := 1, c := 100, code := [0, 0x9800000000000000] } }), (9, { pkg := { gen := 1, c := 100, code := [0, 0x9800000000000000] } }), (10, { pkg := { gen := 1, c := 100, code := [0, 0x9800000000000000] } }), (11, { pkg := { gen := 1, c := 100, code := [0, 0x9800000000000000] } }), (12, { pkg := { gen := 1, c := 100, code := [0, 0x9800000000000000] } }), (13, { pkg := { gen := 1, c := 100, code := [0, 0x9800000000000000] } }), (14, { pkg := { gen := 1, c := 100, code := [0, 0x9800000000000000] } }), (15, { pkg := { gen := 1, c := 100, code := [0, 0x9800000000000000] } })], pips := [(0, {  }), (1, {  }), (2, {  }), (3, {  }), (4, {  }), (5, {  }), (6, {  }), (7, {  }), (8, {  }), (16, {  }), (17, {  }), (18, {  }), (19, {  }), (20, {  }), (21, {  }), (22, {  }), (23, {  }), (24, {  }), (32, {  }), (33, {  }), (34, {  }), (35, {  }), (36, {  }), (37, {  }), (38, {  }), (39, {  }), (40, {  }), (48, {  }), (49, {  }), (50, {  }), (51, {  }), (52, {  }), (53, {  }), (54, {  }), (55, {  }), (56, {  }), (64, {  }), (65, {  }), (66, {  }), (67, {  }), (68, {  }), (69, {  }), (70, {  }), (71, {  }), (72, {  }), (80, { run := (some { t := { tile := 0, buf := 0, epoch := 0, slot := 0 }, pc := 1, cycle := 1, s := [(1, 0), (2, 0x1800), (3, 0), (4, 0), (5, 9), (6, 0), (7, 0x100010)], a := (some .none) }), mem := [(0, 1), (4, 1), (8, 1), (12, 1), (16, 1), (20, 1), (24, 1), (28, 1), (32, 1), (36, 1), (40, 1), (44, 1), (48, 1), (52, 1), (56, 1), (60, 1), (64, 1), (68, 1), (72, 1), (76, 1), (80, 1), (84, 1), (88, 1), (92, 1), (96, 1), (100, 1), (104, 1), (108, 1), (112, 1), (116, 1), (120, 1), (124, 1), (128, 1), (132, 1), (136, 1), (140, 1), (144, 1), (148, 1), (152, 1), (156, 1), (160, 1), (164, 1), (168, 1), (172, 1), (176, 1), (180, 1), (184, 1), (188, 1), (192, 1), (196, 1), (200, 1), (204, 1), (208, 1), (212, 1), (216, 1), (220, 1), (224, 1), (228, 1), (232, 1), (236, 1), (240, 1), (244, 1), (248, 1), (252, 1), (256, 2), (260, 2), (264, 2), (268, 2), (272, 2), (276, 2), (280, 2), (284, 2), (288, 2), (292, 2), (296, 2), (300, 2), (304, 2), (308, 2), (312, 2), (316, 2), (320, 2), (324, 2), (328, 2), (332, 2), (336, 2), (340, 2), (344, 2), (348, 2), (352, 2), (356, 2), (360, 2), (364, 2), (368, 2), (372, 2), (376, 2), (380, 2), (384, 2), (388, 2), (392, 2), (396, 2), (400, 2), (404, 2), (408, 2), (412, 2), (416, 2), (420, 2), (424, 2), (428, 2), (432, 2), (436, 2), (440, 2), (444, 2), (448, 2), (452, 2), (456, 2), (460, 2), (464, 2), (468, 2), (472, 2), (476, 2), (480, 2), (484, 2), (488, 2), (492, 2), (496, 2), (500, 2), (504, 2), (508, 2), (512, 3), (516, 3), (520, 3), (524, 3), (528, 3), (532, 3), (536, 3), (540, 3), (544, 3), (548, 3), (552, 3), (556, 3), (560, 3), (564, 3), (568, 3), (572, 3), (576, 3), (580, 3), (584, 3), (588, 3), (592, 3), (596, 3), (600, 3), (604, 3), (608, 3), (612, 3), (616, 3), (620, 3), (624, 3), (628, 3), (632, 3), (636, 3), (640, 3), (644, 3), (648, 3), (652, 3), (656, 3), (660, 3), (664, 3), (668, 3), (672, 3), (676, 3), (680, 3), (684, 3), (688, 3), (692, 3), (696, 3), (700, 3), (704, 3), (708, 3), (712, 3), (716, 3), (720, 3), (724, 3), (728, 3), (732, 3), (736, 3), (740, 3), (744, 3), (748, 3), (752, 3), (756, 3), (760, 3), (764, 3)], nextBuf := 1 }), (81, {  }), (82, {  }), (83, {  }), (84, {  }), (85, {  }), (86, {  }), (87, {  }), (88, {  }), (96, {  }), (97, {  }), (98, {  }), (99, {  }), (100, {  }), (101, {  }), (102, {  }), (103, {  }), (104, {  }), (112, {  }), (113, {  }), (114, {  }), (115, {  }), (116, {  }), (117, {  }), (118, {  }), (119, {  }), (120, {  }), (128, {  }), (129, {  }), (130, {  }), (131, {  }), (132, {  }), (133, {  }), (134, {  }), (135, {  }), (136, {  }), (144, {  }), (145, {  }), (146, {  }), (147, {  }), (148, {  }), (149, {  }), (150, {  }), (151, {  }), (152, {  }), (160, {  }), (161, {  }), (162, {  }), (163, {  }), (164, {  }), (165, {  }), (166, {  }), (167, {  }), (168, {  }), (176, {  }), (177, {  }), (178, {  }), (179, {  }), (180, {  }), (181, {  }), (182, {  }), (183, {  }), (184, {  }), (192, {  }), (193, {  }), (194, {  }), (195, {  }), (196, {  }), (197, {  }), (198, {  }), (199, {  }), (200, {  }), (208, {  }), (209, {  }), (210, {  }), (211, {  }), (212, {  }), (213, {  }), (214, {  }), (215, {  }), (216, {  }), (224, {  }), (225, {  }), (226, {  }), (227, {  }), (228, {  }), (229, {  }), (230, {  }), (231, {  }), (232, {  }), (240, {  }), (241, {  }), (242, {  }), (243, {  }), (244, {  }), (245, {  }), (246, {  }), (247, {  }), (248, {  })], slots := [(0, { pods := [5], loaded := 1, pfn := (some 9), next := 1, out := (Array.replicate 16 (Array.replicate 16 (0, (0, 0)))) })] } : State), ({ pod := 5, pip := 0 } : PipRef), ({ t := { tile := 0, buf := 0, epoch := 0, slot := 0 }, pc := 1, cycle := 1, s := [(1, 0), (2, 0x1800), (3, 0), (4, 0), (5, 9), (6, 0), (7, 0x100010)], a := (some .none) } : PipRun), (0x9800000000000000 : BitVec 64), (0 : BitVec 26), (0 : Nat), ({ info := { pfn := 9, width := 16, height := 16 }, depth := 12, fillMode := 0, fillVal := 0, readouts := 1, par := [], tabs := [], seq := 0, prog := [(0, 1)], stage := 1, rgb := (Array.replicate 16 (Array.replicate 16 (1, (2, 3)))) } : IpFrame), by decide +kernel⟩,
  ⟨({ regs := [(0x40100020, 0x7FFFFFFF)], pods := [(5, { pkg := { c := 1000, code := [0, 0x980042A100000000, 0, 0], pod := [(0, 5)], luts := [{ base := 0, n := 2, log2 := false, d0 := 0, d1 := 0x3E000 }] } })], pips := [(83, { run := (some { t := { tile := 0, buf := 0, epoch := 1, slot := 0 }, pc := 1, cycle := 9, v := [(0, [0x3E000, 0x40000, 0xBE000, 0x12345]), (1, [3, 0xFFFFFFFF, 0x7FFFF, 0xFFFFF]), (2, [0, 0, 5, 9])], s := [(1, 64), (2, 0xFFFFFFF0), (3, 7), (9, 1)], p := [(0, 5), (1, 0)], ready := [(1, 30)], a := (some .none) }), mem := [(64, 77), (68, 0x3E000), (0x2000, 5)] })] } : State), ({ pod := 5, pip := 3 } : PipRef), ({ t := { tile := 0, buf := 0, epoch := 1, slot := 0 }, pc := 1, cycle := 9, v := [(0, [0x3E000, 0x40000, 0xBE000, 0x12345]), (1, [3, 0xFFFFFFFF, 0x7FFFF, 0xFFFFF]), (2, [0, 0, 5, 9])], s := [(1, 64), (2, 0xFFFFFFF0), (3, 7), (9, 1)], p := [(0, 5), (1, 0)], ready := [(1, 30)], a := (some .none) } : PipRun), (0x980042A100000000 : BitVec 64), (0x42A1 : BitVec 26), by decide +kernel⟩⟩

theorem met_PipTilesAndTests :
  (∃ (s : State) (j p q k : Nat) (fr : IpFrame) (u : PipRef),
    j < 8 ∧
    s.unitOn (dIP (j / 2)) = true ∧
    s.domOn dFAB = true ∧
    s.slotFront j = some (k, fr) ∧
    (s.slot j).pfn = some fr.info.pfn ∧
    (s.slot j).redo = [] ∧
    (s.slot j).next < tileCount fr ∧
    (s.slot j).pods = [p] ∧
    (s.pod p).pkg.code ≠ [] ∧
    s.unitOn (dSTRIP (p / 16)) = true ∧
    s.nextPos p (s.pod p).next = some q ∧
    u = ⟨p, s.pipAt p q⟩ ∧
    (s.pip u).wait = none ∧
    (s.pip u).run = none ∧
    s.pipState u = pipActive) ∧
  (∃ (s : State) (j : Nat) (p : Pkg) (rest : List Pkg),
    j < 8 ∧
    s.domOn dFAB = true ∧
    (s.slot j).loading = none ∧
    (s.slot j).queue = p :: rest ∧
    (s.ip (j / 2)).frames.all (fun f => (look f.prog (j % 2)).all (fun g => decide (p.gen ≤ g))) = true ∧
    ((∀ i < 8, i ≠ j → ∀ q ∈ (s.slot i).pods, q ∉ s.podsOf j))) ∧
  (∃ (s : State) (j : Nat) (p : Pkg),
    j < 8 ∧
    s.domOn dFAB = true ∧
    (s.slot j).loading = some p) ∧
  (∃ (s : State) (u : PipRef),
    u.wf = true ∧
    s.pipOn u = true ∧
    (s.pip u).run = none ∧
    (s.pip u).test = none ∧
    s.pipState u ≠ pipRetired) ∧
  (∃ (s : State) (u : PipRef) (k : Nat),
    u.wf = true ∧
    s.pipOn u = true ∧
    s.err.slots = [] ∧
    (s.pip u).test = some (k, none) ∧
    (s.pip u).run = none ∧
    (s.pip u).wait = none) ∧
  (∃ (s : State) (u : PipRef),
    u.wf = true ∧
    s.pipOn u = true ∧
    s.err.slots = [] ∧
    (s.pip u).test = some (1, none) ∧
    (s.pip u).wait = none) ∧
  (∃ (s : State) (u : PipRef) (r : PipRun),
    u.wf = true ∧
    s.pipOn u = true ∧
    s.err.slots = [] ∧
    (s.pip u).run = some r ∧
    (s.pod u.pod).pkg.c < r.cycle ∧
    (s.slot r.t.slot).rerun.contains r.t.tile = false) ∧
  (∃ (s : State) (p : Nat),
    p < 128 ∧
    s.unitOn (dSTRIP (p / 16)) = true ∧
    (s.pod p).bad = true) ∧
  (∃ (s : State) (r : Requester) (v : Word) (u : PipRef),
    s.unitOn dFAB = true ∧
    u = ⟨bitsOf v.toNat 6 0, bitsOf v.toNat 11 8⟩) ∧
  (∃ (s : State) (u : PipRef) (pass : Bool),
    u.wf = true ∧
    s.pipOn u = true ∧
    s.err.slots = [] ∧
    (s.pip u).readmit = 1 ∧
    (s.slotOfPod u.pod).isSome = true) :=
  ⟨⟨({ regs := [(0x40100020, 0x7FFFFFFF)], ips := [(0, { frames := [{ info := { pfn := 9, width := 16, height := 16 }, depth := 12, fillMode := 0, fillVal := 0, readouts := 1, par := [], tabs := [], seq := 0, prog := [(0, 1)], stage := 1, rgb := (Array.replicate 16 (Array.replicate 16 (1, (2, 3)))) }] })], pods := [(0, { pkg := { gen := 1, c := 100, code := [0, 0x9800000000000000] } }), (1, { pkg := { gen := 1, c := 100, code := [0, 0x9800000000000000] } }), (2, { pkg := { gen := 1, c := 100, code := [0, 0x9800000000000000] } }), (3, { pkg := { gen := 1, c := 100, code := [0, 0x9800000000000000] } }), (4, { pkg := { gen := 1, c := 100, code := [0, 0x9800000000000000] } }), (5, { pkg := { gen := 1, c := 100, code := [0, 0x9800000000000000] } }), (6, { pkg := { gen := 1, c := 100, code := [0, 0x9800000000000000] } }), (7, { pkg := { gen := 1, c := 100, code := [0, 0x9800000000000000] } }), (8, { pkg := { gen := 1, c := 100, code := [0, 0x9800000000000000] } }), (9, { pkg := { gen := 1, c := 100, code := [0, 0x9800000000000000] } }), (10, { pkg := { gen := 1, c := 100, code := [0, 0x9800000000000000] } }), (11, { pkg := { gen := 1, c := 100, code := [0, 0x9800000000000000] } }), (12, { pkg := { gen := 1, c := 100, code := [0, 0x9800000000000000] } }), (13, { pkg := { gen := 1, c := 100, code := [0, 0x9800000000000000] } }), (14, { pkg := { gen := 1, c := 100, code := [0, 0x9800000000000000] } }), (15, { pkg := { gen := 1, c := 100, code := [0, 0x9800000000000000] } })], slots := [(0, { pods := [5], loaded := 1, pfn := (some 9), out := (Array.replicate 16 (Array.replicate 16 (0, (0, 0)))) })] } : State), (0 : Nat), (5 : Nat), (0 : Nat), (0 : Nat), ({ info := { pfn := 9, width := 16, height := 16 }, depth := 12, fillMode := 0, fillVal := 0, readouts := 1, par := [], tabs := [], seq := 0, prog := [(0, 1)], stage := 1, rgb := (Array.replicate 16 (Array.replicate 16 (1, (2, 3)))) } : IpFrame), ({ pod := 5, pip := 0 } : PipRef), by decide +kernel⟩,
  ⟨({ regs := [(0x40100020, 0x7FFFFFFF)], slots := [(0, { queue := [{ gen := 1, c := 100, code := [0, 0x9800000000000000] }] })] } : State), (0 : Nat), ({ gen := 1, c := 100, code := [0, 0x9800000000000000] } : Pkg), ([] : List Pkg), by decide +kernel⟩,
  ⟨({ regs := [(0x40100020, 0x7FFFFFFF)], pwr := { onSince := [] }, slots := [(0, { loading := (some { gen := 1, c := 100, code := [0, 0x9800000000000000] }) })] } : State), (0 : Nat), ({ gen := 1, c := 100, code := [0, 0x9800000000000000] } : Pkg), by decide +kernel⟩,
  ⟨({ regs := [(0x40100020, 0x7FFFFFFF)] } : State), ({ pod := 0, pip := 0 } : PipRef), by decide +kernel⟩,
  ⟨({ regs := [(0x40100020, 0x7FFFFFFF)], pips := [(83, { test := (some (1, none)) })] } : State), ({ pod := 5, pip := 3 } : PipRef), (1 : Nat), by decide +kernel⟩,
  ⟨({ regs := [(0x40100020, 0x7FFFFFFF)], pips := [(83, { test := (some (1, none)) })] } : State), ({ pod := 5, pip := 3 } : PipRef), by decide +kernel⟩,
  ⟨({ regs := [(0x40100020, 0x7FFFFFFF)], pips := [(83, { run := (some { t := { tile := 0, buf := 0, epoch := 0, slot := 0 }, pc := 1, cycle := 0x1388, v := [(0, [0x3E000, 0x40000, 0xBE000, 0x12345]), (1, [3, 0xFFFFFFFF, 0x7FFFF, 0xFFFFF]), (2, [0, 0, 5, 9])], s := [(1, 64), (2, 0xFFFFFFF0), (3, 7), (9, 1)], p := [(0, 5), (1, 0)], ready := [(1, 30)] }), mem := [(64, 77), (68, 0x3E000), (0x2000, 5)] })] } : State), ({ pod := 5, pip := 3 } : PipRef), ({ t := { tile := 0, buf := 0, epoch := 0, slot := 0 }, pc := 1, cycle := 0x1388, v := [(0, [0x3E000, 0x40000, 0xBE000, 0x12345]), (1, [3, 0xFFFFFFFF, 0x7FFFF, 0xFFFFF]), (2, [0, 0, 5, 9])], s := [(1, 64), (2, 0xFFFFFFF0), (3, 7), (9, 1)], p := [(0, 5), (1, 0)], ready := [(1, 30)] } : PipRun), by decide +kernel⟩,
  ⟨({ regs := [(0x40100020, 0x7FFFFFFF)], pods := [(5, { pkg := { c := 1000, code := [0, 0, 0], pod := [(0, 5)], luts := [{ base := 0, n := 2, log2 := false, d0 := 0, d1 := 0x3E000 }] }, bad := true })] } : State), (5 : Nat), by decide +kernel⟩,
  ⟨({ regs := [(0x40100020, 3)] } : State), (.cc0 : Requester), (0 : Word), ({ pod := 0, pip := 0 } : PipRef), by decide +kernel⟩,
  ⟨({ regs := [(0x40100020, 0x7FFFFFFF)], pips := [(83, { readmit := 1 })] } : State), ({ pod := 5, pip := 3 } : PipRef), (true : Bool), by decide +kernel⟩⟩

theorem met_PhotreCodec :
  (∃ (s : State) (r : Requester) (n : Nat) (v : Word),
    n < 4 ∧
    s.unitOn dPRC = true ∧
    (n < Config.ports s.variant)) ∧
  (∃ (s : State) (r : Requester) (n : Nat) (v : Word) (a : Nat),
    n < 4 ∧
    s.unitOn dPRC = true ∧
    n < Config.ports s.variant ∧
    (a = PRC_CTRL n ∨ a = PRC_BUDGET n)) ∧
  (∃ (s : State) (n b : Nat) (d : PrcFeed),
    n < 4 ∧
    PrcWaits s n b d) ∧
  (∃ (s : State) (n b : Nat) (d : PrcFeed),
    n < 4 ∧
    PrcWaits s n b d) ∧
  (∃ (s : State) (n : Nat) (c : PrcCur) (d : PrcFeed),
    n < 4 ∧
    s.unitOn (dIP n) = true ∧
    s.domOn dPRC = true ∧
    s.err.slots = [] ∧
    s.mc.fills = [] ∧
    s.mc.reread = [] ∧
    (s.prc n).cur = some c ∧
    s.feed n = some d ∧
    c.coding = true ∧
    c.slabs.length < slabCount d.info.height ∧
    16 * c.slabs.length + slabRows d.info.height c.slabs.length ≤ d.rows.size) ∧
  (∃ (s : State) (n : Nat) (c : PrcCur) (d : PrcFeed),
    n < 4 ∧
    s.unitOn (dIP n) = true ∧
    s.domOn dPRC = true ∧
    s.err.slots = [] ∧
    s.mc.fills = [] ∧
    s.mc.reread = [] ∧
    (s.port n).fifo = [] ∧
    (s.prc n).cur = some c ∧
    s.feed n = some d ∧
    c.coding = true ∧
    c.slabs.length = slabCount d.info.height ∧
    d.final = true ∧
    (s.ring (.prc n)).writing = some c.buf ∧
    (s.ring (.prc n)).cons.all (fun k => match k.id with | .enc _ => false | _ => true) = true) ∧
  (∃ (s : State) (r : Requester) (v : Word),
    s.unitOn dPRC = true) ∧
  (∃ (s : State) (job : List (Nat × Word)),
    s.domOn dPRC = true ∧
    s.err.slots = [] ∧
    s.mc.fills = [] ∧
    s.mc.reread = [] ∧
    s.prd = some job) :=
  ⟨⟨({ regs := [(0x40100020, 0x7FFFFFFF)] } : State), (.cc0 : Requester), (0 : Nat), (0 : Word), by decide +kernel⟩,
  ⟨({ regs := [(0x40100020, 0x7FFFFFFF)] } : State), (.cc0 : Requester), (0 : Nat), (0 : Word), (0x44000000 : Nat), by decide +kernel⟩,
  ⟨({ regs := [(0x40100020, 0x7FFC00), (0x44000000, 57), (0x44000048, 1), (0x4400004C, 1024)], feeds := [(0, [{ info := { pfn := 4, width := 16, height := 20 }, tap := 0, depth := 12, rows := #[#[77, 77, 77, 77, 77, 77, 77, 77, 77, 77, 77, 77, 77, 77, 77, 77], #[77, 77, 77, 77, 77, 77, 77, 77, 77, 77, 77, 77, 77, 77, 77, 77], #[77, 77, 77, 77, 77, 77, 77, 77, 77, 77, 77, 77, 77, 77, 77, 77], #[77, 77, 77, 77, 77, 77, 77, 77, 77, 77, 77, 77, 77, 77, 77, 77], #[77, 77, 77, 77, 77, 77, 77, 77, 77, 77, 77, 77, 77, 77, 77, 77], #[77, 77, 77, 77, 77, 77, 77, 77, 77, 77, 77, 77, 77, 77, 77, 77], #[77, 77, 77, 77, 77, 77, 77, 77, 77, 77, 77, 77, 77, 77, 77, 77], #[77, 77, 77, 77, 77, 77, 77, 77, 77, 77, 77, 77, 77, 77, 77, 77], #[77, 77, 77, 77, 77, 77, 77, 77, 77, 77, 77, 77, 77, 77, 77, 77], #[77, 77, 77, 77, 77, 77, 77, 77, 77, 77, 77, 77, 77, 77, 77, 77], #[77, 77, 77, 77, 77, 77, 77, 77, 77, 77, 77, 77, 77, 77, 77, 77], #[77, 77, 77, 77, 77, 77, 77, 77, 77, 77, 77, 77, 77, 77, 77, 77], #[77, 77, 77, 77, 77, 77, 77, 77, 77, 77, 77, 77, 77, 77, 77, 77], #[77, 77, 77, 77, 77, 77, 77, 77, 77, 77, 77, 77, 77, 77, 77, 77], #[77, 77, 77, 77, 77, 77, 77, 77, 77, 77, 77, 77, 77, 77, 77, 77], #[77, 77, 77, 77, 77, 77, 77, 77, 77, 77, 77, 77, 77, 77, 77, 77], #[77, 77, 77, 77, 77, 77, 77, 77, 77, 77, 77, 77, 77, 77, 77, 77], #[77, 77, 77, 77, 77, 77, 77, 77, 77, 77, 77, 77, 77, 77, 77, 77], #[77, 77, 77, 77, 77, 77, 77, 77, 77, 77, 77, 77, 77, 77, 77, 77], #[77, 77, 77, 77, 77, 77, 77, 77, 77, 77, 77, 77, 77, 77, 77, 77]], final := true }])] } : State), (0 : Nat), (0 : Nat), ({ info := { pfn := 4, width := 16, height := 20 }, tap := 0, depth := 12, rows := #[#[77, 77, 77, 77, 77, 77, 77, 77, 77, 77, 77, 77, 77, 77, 77, 77], #[77, 77, 77, 77, 77, 77, 77, 77, 77, 77, 77, 77, 77, 77, 77, 77], #[77, 77, 77, 77, 77, 77, 77, 77, 77, 77, 77, 77, 77, 77, 77, 77], #[77, 77, 77, 77, 77, 77, 77, 77, 77, 77, 77, 77, 77, 77, 77, 77], #[77, 77, 77, 77, 77, 77, 77, 77, 77, 77, 77, 77, 77, 77, 77, 77], #[77, 77, 77, 77, 77, 77, 77, 77, 77, 77, 77, 77, 77, 77, 77, 77], #[77, 77, 77, 77, 77, 77, 77, 77, 77, 77, 77, 77, 77, 77, 77, 77], #[77, 77, 77, 77, 77, 77, 77, 77, 77, 77, 77, 77, 77, 77, 77, 77], #[77, 77, 77, 77, 77, 77, 77, 77, 77, 77, 77, 77, 77, 77, 77, 77], #[77, 77, 77, 77, 77, 77, 77, 77, 77, 77, 77, 77, 77, 77, 77, 77], #[77, 77, 77, 77, 77, 77, 77, 77, 77, 77, 77, 77, 77, 77, 77, 77], #[77, 77, 77, 77, 77, 77, 77, 77, 77, 77, 77, 77, 77, 77, 77, 77], #[77, 77, 77, 77, 77, 77, 77, 77, 77, 77, 77, 77, 77, 77, 77, 77], #[77, 77, 77, 77, 77, 77, 77, 77, 77, 77, 77, 77, 77, 77, 77, 77], #[77, 77, 77, 77, 77, 77, 77, 77, 77, 77, 77, 77, 77, 77, 77, 77], #[77, 77, 77, 77, 77, 77, 77, 77, 77, 77, 77, 77, 77, 77, 77, 77], #[77, 77, 77, 77, 77, 77, 77, 77, 77, 77, 77, 77, 77, 77, 77, 77], #[77, 77, 77, 77, 77, 77, 77, 77, 77, 77, 77, 77, 77, 77, 77, 77], #[77, 77, 77, 77, 77, 77, 77, 77, 77, 77, 77, 77, 77, 77, 77, 77], #[77, 77, 77, 77, 77, 77, 77, 77, 77, 77, 77, 77, 77, 77, 77, 77]], final := true } : PrcFeed), by decide +kernel⟩,
  ⟨({ regs := [(0x40100020, 0x7FFC00), (0x44000000, 57), (0x44000048, 1), (0x4400004C, 704)], feeds := [(0, [{ info := { pfn := 4, width := 16, height := 20 }, tap := 0, depth := 12, rows := #[#[77, 77, 77, 77, 77, 77, 77, 77, 77, 77, 77, 77, 77, 77, 77, 77], #[77, 77, 77, 77, 77, 77, 77, 77, 77, 77, 77, 77, 77, 77, 77, 77], #[77, 77, 77, 77, 77, 77, 77, 77, 77, 77, 77, 77, 77, 77, 77, 77], #[77, 77, 77, 77, 77, 77, 77, 77, 77, 77, 77, 77, 77, 77, 77, 77], #[77, 77, 77, 77, 77, 77, 77, 77, 77, 77, 77, 77, 77, 77, 77, 77], #[77, 77, 77, 77, 77, 77, 77, 77, 77, 77, 77, 77, 77, 77, 77, 77], #[77, 77, 77, 77, 77, 77, 77, 77, 77, 77, 77, 77, 77, 77, 77, 77], #[77, 77, 77, 77, 77, 77, 77, 77, 77, 77, 77, 77, 77, 77, 77, 77], #[77, 77, 77, 77, 77, 77, 77, 77, 77, 77, 77, 77, 77, 77, 77, 77], #[77, 77, 77, 77, 77, 77, 77, 77, 77, 77, 77, 77, 77, 77, 77, 77], #[77, 77, 77, 77, 77, 77, 77, 77, 77, 77, 77, 77, 77, 77, 77, 77], #[77, 77, 77, 77, 77, 77, 77, 77, 77, 77, 77, 77, 77, 77, 77, 77], #[77, 77, 77, 77, 77, 77, 77, 77, 77, 77, 77, 77, 77, 77, 77, 77], #[77, 77, 77, 77, 77, 77, 77, 77, 77, 77, 77, 77, 77, 77, 77, 77], #[77, 77, 77, 77, 77, 77, 77, 77, 77, 77, 77, 77, 77, 77, 77, 77], #[77, 77, 77, 77, 77, 77, 77, 77, 77, 77, 77, 77, 77, 77, 77, 77], #[77, 77, 77, 77, 77, 77, 77, 77, 77, 77, 77, 77, 77, 77, 77, 77], #[77, 77, 77, 77, 77, 77, 77, 77, 77, 77, 77, 77, 77, 77, 77, 77], #[77, 77, 77, 77, 77, 77, 77, 77, 77, 77, 77, 77, 77, 77, 77, 77], #[77, 77, 77, 77, 77, 77, 77, 77, 77, 77, 77, 77, 77, 77, 77, 77]], final := true }])] } : State), (0 : Nat), (0 : Nat), ({ info := { pfn := 4, width := 16, height := 20 }, tap := 0, depth := 12, rows := #[#[77, 77, 77, 77, 77, 77, 77, 77, 77, 77, 77, 77, 77, 77, 77, 77], #[77, 77, 77, 77, 77, 77, 77, 77, 77, 77, 77, 77, 77, 77, 77, 77], #[77, 77, 77, 77, 77, 77, 77, 77, 77, 77, 77, 77, 77, 77, 77, 77], #[77, 77, 77, 77, 77, 77, 77, 77, 77, 77, 77, 77, 77, 77, 77, 77], #[77, 77, 77, 77, 77, 77, 77, 77, 77, 77, 77, 77, 77, 77, 77, 77], #[77, 77, 77, 77, 77, 77, 77, 77, 77, 77, 77, 77, 77, 77, 77, 77], #[77, 77, 77, 77, 77, 77, 77, 77, 77, 77, 77, 77, 77, 77, 77, 77], #[77, 77, 77, 77, 77, 77, 77, 77, 77, 77, 77, 77, 77, 77, 77, 77], #[77, 77, 77, 77, 77, 77, 77, 77, 77, 77, 77, 77, 77, 77, 77, 77], #[77, 77, 77, 77, 77, 77, 77, 77, 77, 77, 77, 77, 77, 77, 77, 77], #[77, 77, 77, 77, 77, 77, 77, 77, 77, 77, 77, 77, 77, 77, 77, 77], #[77, 77, 77, 77, 77, 77, 77, 77, 77, 77, 77, 77, 77, 77, 77, 77], #[77, 77, 77, 77, 77, 77, 77, 77, 77, 77, 77, 77, 77, 77, 77, 77], #[77, 77, 77, 77, 77, 77, 77, 77, 77, 77, 77, 77, 77, 77, 77, 77], #[77, 77, 77, 77, 77, 77, 77, 77, 77, 77, 77, 77, 77, 77, 77, 77], #[77, 77, 77, 77, 77, 77, 77, 77, 77, 77, 77, 77, 77, 77, 77, 77], #[77, 77, 77, 77, 77, 77, 77, 77, 77, 77, 77, 77, 77, 77, 77, 77], #[77, 77, 77, 77, 77, 77, 77, 77, 77, 77, 77, 77, 77, 77, 77, 77], #[77, 77, 77, 77, 77, 77, 77, 77, 77, 77, 77, 77, 77, 77, 77, 77], #[77, 77, 77, 77, 77, 77, 77, 77, 77, 77, 77, 77, 77, 77, 77, 77]], final := true } : PrcFeed), by decide +kernel⟩,
  ⟨({ regs := [(0x40100020, 0x7FFFFFFF)], feeds := [(0, [{ info := { pfn := 4, width := 16, height := 20 }, tap := 0, depth := 12, rows := #[#[77, 77, 77, 77, 77, 77, 77, 77, 77, 77, 77, 77, 77, 77, 77, 77], #[77, 77, 77, 77, 77, 77, 77, 77, 77, 77, 77, 77, 77, 77, 77, 77], #[77, 77, 77, 77, 77, 77, 77, 77, 77, 77, 77, 77, 77, 77, 77, 77], #[77, 77, 77, 77, 77, 77, 77, 77, 77, 77, 77, 77, 77, 77, 77, 77], #[77, 77, 77, 77, 77, 77, 77, 77, 77, 77, 77, 77, 77, 77, 77, 77], #[77, 77, 77, 77, 77, 77, 77, 77, 77, 77, 77, 77, 77, 77, 77, 77], #[77, 77, 77, 77, 77, 77, 77, 77, 77, 77, 77, 77, 77, 77, 77, 77], #[77, 77, 77, 77, 77, 77, 77, 77, 77, 77, 77, 77, 77, 77, 77, 77], #[77, 77, 77, 77, 77, 77, 77, 77, 77, 77, 77, 77, 77, 77, 77, 77], #[77, 77, 77, 77, 77, 77, 77, 77, 77, 77, 77, 77, 77, 77, 77, 77], #[77, 77, 77, 77, 77, 77, 77, 77, 77, 77, 77, 77, 77, 77, 77, 77], #[77, 77, 77, 77, 77, 77, 77, 77, 77, 77, 77, 77, 77, 77, 77, 77], #[77, 77, 77, 77, 77, 77, 77, 77, 77, 77, 77, 77, 77, 77, 77, 77], #[77, 77, 77, 77, 77, 77, 77, 77, 77, 77, 77, 77, 77, 77, 77, 77], #[77, 77, 77, 77, 77, 77, 77, 77, 77, 77, 77, 77, 77, 77, 77, 77], #[77, 77, 77, 77, 77, 77, 77, 77, 77, 77, 77, 77, 77, 77, 77, 77], #[77, 77, 77, 77, 77, 77, 77, 77, 77, 77, 77, 77, 77, 77, 77, 77], #[77, 77, 77, 77, 77, 77, 77, 77, 77, 77, 77, 77, 77, 77, 77, 77], #[77, 77, 77, 77, 77, 77, 77, 77, 77, 77, 77, 77, 77, 77, 77, 77], #[77, 77, 77, 77, 77, 77, 77, 77, 77, 77, 77, 77, 77, 77, 77, 77]], final := true }])], prcs := [(0, { cur := (some { coding := true, qmax := 7, costs := [392, 104], crem := 496 }) })] } : State), (0 : Nat), ({ coding := true, qmax := 7, costs := [392, 104], crem := 496 } : PrcCur), ({ info := { pfn := 4, width := 16, height := 20 }, tap := 0, depth := 12, rows := #[#[77, 77, 77, 77, 77, 77, 77, 77, 77, 77, 77, 77, 77, 77, 77, 77], #[77, 77, 77, 77, 77, 77, 77, 77, 77, 77, 77, 77, 77, 77, 77, 77], #[77, 77, 77, 77, 77, 77, 77, 77, 77, 77, 77, 77, 77, 77, 77, 77], #[77, 77, 77, 77, 77, 77, 77, 77, 77, 77, 77, 77, 77, 77, 77, 77], #[77, 77, 77, 77, 77, 77, 77, 77, 77, 77, 77, 77, 77, 77, 77, 77], #[77, 77, 77, 77, 77, 77, 77, 77, 77, 77, 77, 77, 77, 77, 77, 77], #[77, 77, 77, 77, 77, 77, 77, 77, 77, 77, 77, 77, 77, 77, 77, 77], #[77, 77, 77, 77, 77, 77, 77, 77, 77, 77, 77, 77, 77, 77, 77, 77], #[77, 77, 77, 77, 77, 77, 77, 77, 77, 77, 77, 77, 77, 77, 77, 77], #[77, 77, 77, 77, 77, 77, 77, 77, 77, 77, 77, 77, 77, 77, 77, 77], #[77, 77, 77, 77, 77, 77, 77, 77, 77, 77, 77, 77, 77, 77, 77, 77], #[77, 77, 77, 77, 77, 77, 77, 77, 77, 77, 77, 77, 77, 77, 77, 77], #[77, 77, 77, 77, 77, 77, 77, 77, 77, 77, 77, 77, 77, 77, 77, 77], #[77, 77, 77, 77, 77, 77, 77, 77, 77, 77, 77, 77, 77, 77, 77, 77], #[77, 77, 77, 77, 77, 77, 77, 77, 77, 77, 77, 77, 77, 77, 77, 77], #[77, 77, 77, 77, 77, 77, 77, 77, 77, 77, 77, 77, 77, 77, 77, 77], #[77, 77, 77, 77, 77, 77, 77, 77, 77, 77, 77, 77, 77, 77, 77, 77], #[77, 77, 77, 77, 77, 77, 77, 77, 77, 77, 77, 77, 77, 77, 77, 77], #[77, 77, 77, 77, 77, 77, 77, 77, 77, 77, 77, 77, 77, 77, 77, 77], #[77, 77, 77, 77, 77, 77, 77, 77, 77, 77, 77, 77, 77, 77, 77, 77]], final := true } : PrcFeed), by decide +kernel⟩,
  ⟨({ regs := [(0x40100020, 0x7FFFFFFF)], rings := [(256, { writing := (some 0), next := 1 })], feeds := [(0, [{ info := { pfn := 4, width := 16, height := 20 }, tap := 0, depth := 12, rows := #[#[77, 77, 77, 77, 77, 77, 77, 77, 77, 77, 77, 77, 77, 77, 77, 77], #[77, 77, 77, 77, 77, 77, 77, 77, 77, 77, 77, 77, 77, 77, 77, 77], #[77, 77, 77, 77, 77, 77, 77, 77, 77, 77, 77, 77, 77, 77, 77, 77], #[77, 77, 77, 77, 77, 77, 77, 77, 77, 77, 77, 77, 77, 77, 77, 77], #[77, 77, 77, 77, 77, 77, 77, 77, 77, 77, 77, 77, 77, 77, 77, 77], #[77, 77, 77, 77, 77, 77, 77, 77, 77, 77, 77, 77, 77, 77, 77, 77], #[77, 77, 77, 77, 77, 77, 77, 77, 77, 77, 77, 77, 77, 77, 77, 77], #[77, 77, 77, 77, 77, 77, 77, 77, 77, 77, 77, 77, 77, 77, 77, 77], #[77, 77, 77, 77, 77, 77, 77, 77, 77, 77, 77, 77, 77, 77, 77, 77], #[77, 77, 77, 77, 77, 77, 77, 77, 77, 77, 77, 77, 77, 77, 77, 77], #[77, 77, 77, 77, 77, 77, 77, 77, 77, 77, 77, 77, 77, 77, 77, 77], #[77, 77, 77, 77, 77, 77, 77, 77, 77, 77, 77, 77, 77, 77, 77, 77], #[77, 77, 77, 77, 77, 77, 77, 77, 77, 77, 77, 77, 77, 77, 77, 77], #[77, 77, 77, 77, 77, 77, 77, 77, 77, 77, 77, 77, 77, 77, 77, 77], #[77, 77, 77, 77, 77, 77, 77, 77, 77, 77, 77, 77, 77, 77, 77, 77], #[77, 77, 77, 77, 77, 77, 77, 77, 77, 77, 77, 77, 77, 77, 77, 77], #[77, 77, 77, 77, 77, 77, 77, 77, 77, 77, 77, 77, 77, 77, 77, 77], #[77, 77, 77, 77, 77, 77, 77, 77, 77, 77, 77, 77, 77, 77, 77, 77], #[77, 77, 77, 77, 77, 77, 77, 77, 77, 77, 77, 77, 77, 77, 77, 77], #[77, 77, 77, 77, 77, 77, 77, 77, 77, 77, 77, 77, 77, 77, 77, 77]], final := true }])], prcs := [(0, { cur := (some { coding := true, qmax := 7, costs := [392, 104], slabs := [(0, (1, (false, 104))), (0, (1, (false, 80)))], next := [104, 80] }) })] } : State), (0 : Nat), ({ coding := true, qmax := 7, costs := [392, 104], slabs := [(0, (1, (false, 104))), (0, (1, (false, 80)))], next := [104, 80] } : PrcCur), ({ info := { pfn := 4, width := 16, height := 20 }, tap := 0, depth := 12, rows := #[#[77, 77, 77, 77, 77, 77, 77, 77, 77, 77, 77, 77, 77, 77, 77, 77], #[77, 77, 77, 77, 77, 77, 77, 77, 77, 77, 77, 77, 77, 77, 77, 77], #[77, 77, 77, 77, 77, 77, 77, 77, 77, 77, 77, 77, 77, 77, 77, 77], #[77, 77, 77, 77, 77, 77, 77, 77, 77, 77, 77, 77, 77, 77, 77, 77], #[77, 77, 77, 77, 77, 77, 77, 77, 77, 77, 77, 77, 77, 77, 77, 77], #[77, 77, 77, 77, 77, 77, 77, 77, 77, 77, 77, 77, 77, 77, 77, 77], #[77, 77, 77, 77, 77, 77, 77, 77, 77, 77, 77, 77, 77, 77, 77, 77], #[77, 77, 77, 77, 77, 77, 77, 77, 77, 77, 77, 77, 77, 77, 77, 77], #[77, 77, 77, 77, 77, 77, 77, 77, 77, 77, 77, 77, 77, 77, 77, 77], #[77, 77, 77, 77, 77, 77, 77, 77, 77, 77, 77, 77, 77, 77, 77, 77], #[77, 77, 77, 77, 77, 77, 77, 77, 77, 77, 77, 77, 77, 77, 77, 77], #[77, 77, 77, 77, 77, 77, 77, 77, 77, 77, 77, 77, 77, 77, 77, 77], #[77, 77, 77, 77, 77, 77, 77, 77, 77, 77, 77, 77, 77, 77, 77, 77], #[77, 77, 77, 77, 77, 77, 77, 77, 77, 77, 77, 77, 77, 77, 77, 77], #[77, 77, 77, 77, 77, 77, 77, 77, 77, 77, 77, 77, 77, 77, 77, 77], #[77, 77, 77, 77, 77, 77, 77, 77, 77, 77, 77, 77, 77, 77, 77, 77], #[77, 77, 77, 77, 77, 77, 77, 77, 77, 77, 77, 77, 77, 77, 77, 77], #[77, 77, 77, 77, 77, 77, 77, 77, 77, 77, 77, 77, 77, 77, 77, 77], #[77, 77, 77, 77, 77, 77, 77, 77, 77, 77, 77, 77, 77, 77, 77, 77], #[77, 77, 77, 77, 77, 77, 77, 77, 77, 77, 77, 77, 77, 77, 77, 77]], final := true } : PrcFeed), by decide +kernel⟩,
  ⟨({ regs := [(0x40100020, 0x7FFFFFFF)] } : State), (.cc0 : Requester), (0 : Word), by decide +kernel⟩,
  ⟨({ regs := [(0x40100020, 0x7FFFFFFF)], prd := (some [(0x44040000, 0), (0x44040004, 16), (0x44040008, 40), (0x4404000C, 0), (0x44040010, 0), (0x44040014, 0), (0x44040018, 0), (0x4404001C, 0), (0x44040020, 1)]) } : State), ([(0x44040000, 0), (0x44040004, 16), (0x44040008, 40), (0x4404000C, 0), (0x44040010, 0), (0x44040014, 0), (0x44040018, 0), (0x4404001C, 0), (0x44040020, 1)] : List (Nat × Word)), by decide +kernel⟩⟩

theorem met_VideoEncoder :
  (∃ (s : State) (r : Requester) (c : Nat) (v : Word) (a : Nat),
    c < 16 ∧
    s.unitOn dHVC = true ∧
    s.hvc.cur.isSome = true ∧
    (a = HVC_EC_CFG c ∨ a = HVC_EC_SRC c)) ∧
  (∃ (s : State) (r : Requester) (c : Nat) (v : Word),
    c < 16 ∧
    s.unitOn dHVC = true ∧
    s.hvc.cur = none ∧
    s.mc.fills = [] ∧
    s.mc.reread = [] ∧
    s.err.slots = []) ∧
  (∃ (s : State) (r : Requester) (c : Nat) (v : Word),
    c < 16 ∧
    s.unitOn dHVC = true) ∧
  (∃ (s : State) (r : Requester) (c : Nat) (v : Word),
    c < 16 ∧
    s.unitOn dHVC = true) ∧
  (∃ (s : State) (r : Requester) (c : Nat) (v : Word),
    c < 16 ∧
    s.unitOn dHVC = true) ∧
  (∃ (s : State) (c b w : Nat) (g : RingId) (d : List Byte),
    c < 16 ∧
    EncWaits s c b w g d) ∧
  (∃ (s : State) (c b w : Nat) (g : RingId) (d : List Byte),
    c < 16 ∧
    EncWaits s c b w g d) ∧
  (∃ (s : State) (x : HvcCur) (p : CodedPicture) (b : Nat),
    let q := s.pairLive (HVC_EC_POOL_LO x.ctx) (HVC_EC_POOL_HI x.ctx) + x.pool * (s.g (HVC_EC_POOL_CFG_slot x.ctx) * 64)
  s.domOn dHVC = true ∧
    codedOk x p = true ∧
    Calm s ∧
    s.mc.fills = [] ∧
    s.mc.reread = [] ∧
    s.hvc.cur = some x ∧
    (s.ring (.enc x.ctx)).writing = some b ∧
    s.f (HVC_EC_REP_CFG_entries x.ctx) = 0 ∧
    128 ≤ s.ringSlot (.enc x.ctx) ∧
    (s.ring (.enc x.ctx)).cons.all (fun k => match k.id with | .enc _ => false | _ => true) = true ∧
    x.ring ≠ .enc x.ctx) :=
  ⟨⟨({ regs := [(0x40100020, 0x7FFFFFFF)], hvc := { cur := (some { ctx := 3, ring := (.enc 3), buf := 0, info := {  }, pool := 0, long := false, causes := 1, qp := 30, qps := [], gmv := 0, range := 0, poc := 0, refs := [], prof := 1, level := 120, st := 1, lt := 0, vui := (1, (1, (1, false))), planes := [] }) } } : State), (.cc0 : Requester), (0 : Nat), (0 : Word), (0x44101000 : Nat), by decide +kernel⟩,
  ⟨({ regs := [(0x40100020, 0x7FFFFFFF)] } : State), (.cc0 : Requester), (0 : Nat), (0 : Word), by decide +kernel⟩,
  ⟨({ regs := [(0x40100020, 0x7FFFFFFF)] } : State), (.cc0 : Requester), (0 : Nat), (0 : Word), by decide +kernel⟩,
  ⟨({ regs := [(0x40100020, 0x7FFFFFFF)] } : State), (.cc0 : Requester), (0 : Nat), (0 : Word), by decide +kernel⟩,
  ⟨({ regs := [(0x40100020, 0x7FFFFFFF)] } : State), (.cc0 : Requester), (0 : Nat), (0 : Word), by decide +kernel⟩,
  ⟨({ regs := [(0x40100020, 0x800000), (0x420008C4, 16), (0x44100000, 1), (0x44101158, 1), (0x4410115C, 0x1000), (0x45000180, 1)], live := [(0x42000800, 0x7FFFFE00), (0x44101100, 3009), (0x4410112C, 0x4100)], mem := [(0x1000000018, 64), (0x100000001A, 64), (0x100000001E, 32)], rings := [(8, { cons := [{ id := (.enc 1), held := [0] }] }), (513, {  })], hvc := { ecs := [(1, { ring := (some (.branch 0 0)) })] } } : State), (1 : Nat), (0 : Nat), (0 : Nat), ((.branch 0 0) : RingId), ([0, 0, 0, 0, 0, 0, 0, 0, 0, 0, 0, 0, 0, 0, 0, 0, 0, 0, 0, 0, 0, 0, 0, 0, 64, 0, 64, 0, 0, 0, 32, 0, 0, 0, 0, 0, 0, 0, 0, 0, 0, 0, 0, 0, 0, 0, 0, 0, 0, 0, 0, 0, 0, 0, 0, 0, 0, 0, 0, 0, 0, 0, 0, 0, 0, 0, 0, 0, 0, 0, 0, 0, 0, 0, 0, 0, 0, 0, 0, 0, 0, 0, 0, 0, 0, 0, 0, 0, 0, 0, 0, 0, 0, 0, 0, 0, 0, 0, 0, 0, 0, 0, 0, 0, 0, 0, 0, 0, 0, 0, 0, 0, 0, 0, 0, 0, 0, 0, 0, 0, 0, 0, 0, 0, 0, 0, 0, 0] : List Byte), by decide +kernel⟩,
  ⟨({ regs := [(0x40100020, 0x800000), (0x420008C4, 16), (0x44100000, 1), (0x44101158, 1), (0x4410115C, 0x1000), (0x45000180, 1)], live := [(0x42000800, 0x7FFFFE00), (0x44101100, 3009), (0x4410112C, 0x4100)], mem := [(0x1000000018, 64), (0x100000001A, 64), (0x100000001E, 32)], rings := [(8, { cons := [{ id := (.enc 1), held := [0] }] }), (513, {  })], hvc := { ecs := [(1, { ring := (some (.branch 0 0)) })] } } : State), (1 : Nat), (0 : Nat), (0 : Nat), ((.branch 0 0) : RingId), ([0, 0, 0, 0, 0, 0, 0, 0, 0, 0, 0, 0, 0, 0, 0, 0, 0, 0, 0, 0, 0, 0, 0, 0, 64, 0, 64, 0, 0, 0, 32, 0, 0, 0, 0, 0, 0, 0, 0, 0, 0, 0, 0, 0, 0, 0, 0, 0, 0, 0, 0, 0, 0, 0, 0, 0, 0, 0, 0, 0, 0, 0, 0, 0, 0, 0, 0, 0, 0, 0, 0, 0, 0, 0, 0, 0, 0, 0, 0, 0, 0, 0, 0, 0, 0, 0, 0, 0, 0, 0, 0, 0, 0, 0, 0, 0, 0, 0, 0, 0, 0, 0, 0, 0, 0, 0, 0, 0, 0, 0, 0, 0, 0, 0, 0, 0, 0, 0, 0, 0, 0, 0, 0, 0, 0, 0, 0, 0] : List Byte), by decide +kernel⟩,
  ⟨({ regs := [(0x40100020, 0x800000), (0x4410115C, 128)], rings := [(8, { cons := [{ id := (.enc 1), held := [0] }] }), (513, { writing := (some 0), next := 1 })], hvc := { cur := (some { ctx := 1, ring := (.branch 0 0), buf := 0, info := { pfn := 3, width := 64, height := 64 }, pool := 0, long := false, causes := 1, qp := 32, qps := [32], gmv := 0, range := 1, poc := 0, refs := [], prof := 1, level := 120, st := 1, lt := 0, vui := (2, (8, (1, true))), planes := [(List.replicate 64 (List.replicate 64 0)), (List.replicate 32 (List.replicate 32 0)), (List.replicate 32 (List.replicate 32 0))] }), last := 1, ecs := [(1, { ring := (some (.branch 0 0)), fresh := false, size := (64, 64), since := 1 })] } } : State), ({ ctx := 1, ring := (.branch 0 0), buf := 0, info := { pfn := 3, width := 64, height := 64 }, pool := 0, long := false, causes := 1, qp := 32, qps := [32], gmv := 0, range := 1, poc := 0, refs := [], prof := 1, level := 120, st := 1, lt := 0, vui := (2, (8, (1, true))), planes := [(List.replicate 64 (List.replicate 64 0)), (List.replicate 32 (List.replicate 32 0)), (List.replicate 32 (List.replicate 32 0))] } : HvcCur), ({ ctbs := [{ data := [1, 2, 3], bits := 24, intra := true, skipped := false, pus := [], ssdLuma := 9, ssdChroma := 4 }], parity := none } : CodedPicture), (0 : Nat), by decide +kernel⟩⟩

theorem met_VideoDecoder :
  (∃ (s : State) (r : Requester) (v : Word),
    s.unitOn dHVC = true) ∧
  (∃ (s : State),
    s.domOn dHVC = true ∧
    s.err.slots = [] ∧
    s.mc.fills = [] ∧
    s.mc.reread = [] ∧
    s.b HVC_CTRL_dec_en = true ∧
    s.hvc.job = none ∧
    s.f HVC_DEC_CMD_CFG_entries ≠ 0 ∧
    ringHas (s.f HVC_DEC_CMD_HEAD_cmd_head) (s.f HVC_DEC_CMD_TAIL_cmd_tail) = true ∧
    (s.f HVC_DEC_CPL_TAIL_cpl_tail + 2 ^ 32 - s.f HVC_DEC_CPL_HEAD_cpl_head) % 2 ^ 32 < s.f HVC_DEC_CPL_CFG_entries) ∧
  (∃ (s : State) (j : DecJob) (u : DecodedAu),
    s.domOn dHVC = true ∧
    s.err.slots = [] ∧
    s.mc.fills = [] ∧
    s.mc.reread = [] ∧
    Calm s ∧
    s.hvc.job = some j ∧
    s.f HVC_DEC_CPL_CFG_entries ≠ 0) ∧
  (∃ (s : State) (j : DecJob) (u : DecodedAu) (ctb e : Nat),
    s.domOn dHVC = true ∧
    s.err.slots = [] ∧
    s.mc.fills = [] ∧
    s.mc.reread = [] ∧
    Calm s ∧
    s.hvc.job = some j ∧
    j.sound = true ∧
    j.len ≠ 0 ∧
    s.memAnswers j.addr j.len false = true ∧
    ((auHead (s.dc j.d) (s.peeks j.addr j.len)).first.bind (fun h =>
    freeEntry (beforePic (s.dc j.d) h.2.1 h.1 (pocOf (s.dc j.d) h.2.1 h.1)))) = some e) ∧
  (∃ (s : State) (r : Requester) (d : Nat) (v : Word),
    d < 16 ∧
    s.unitOn dHVC = true) :=
  ⟨⟨({ regs := [(0x40100020, 0x7FFFFFFF)] } : State), (.cc0 : Requester), (0 : Word), by decide +kernel⟩,
  ⟨({ regs := [(0x40100020, 0x800000), (0x44100000, 2), (0x44102008, 1), (0x4410200C, 1), (0x4410201C, 1)] } : State), by decide +kernel⟩,
  ⟨({ regs := [(0x40100020, 0x800000), (0x4410201C, 1)], hvc := { job := (some { d := 0, addr := 0, len := 0, tag := 0, sound := true }) } } : State), ({ d := 0, addr := 0, len := 0, tag := 0, sound := true } : DecJob), ({ planes := [(List.replicate 16 (List.replicate 16 5)), [[5, 5, 5, 5, 5, 5, 5, 5], [5, 5, 5, 5, 5, 5, 5, 5], [5, 5, 5, 5, 5, 5, 5, 5], [5, 5, 5, 5, 5, 5, 5, 5], [5, 5, 5, 5, 5, 5, 5, 5], [5, 5, 5, 5, 5, 5, 5, 5], [5, 5, 5, 5, 5, 5, 5, 5], [5, 5, 5, 5, 5, 5, 5, 5]], [[5, 5, 5, 5, 5, 5, 5, 5], [5, 5, 5, 5, 5, 5, 5, 5], [5, 5, 5, 5, 5, 5, 5, 5], [5, 5, 5, 5, 5, 5, 5, 5], [5, 5, 5, 5, 5, 5, 5, 5], [5, 5, 5, 5, 5, 5, 5, 5], [5, 5, 5, 5, 5, 5, 5, 5], [5, 5, 5, 5, 5, 5, 5, 5]]], motion := [], errors := [], parity := none } : DecodedAu), by decide +kernel⟩,
  ⟨({ regs := [(0x40100020, 0x800000), (0x45000180, 1)], mem := [(0x1000001025, 1), (0x1000001026, 66), (0x100000102A, 32), (0x100000102D, 3), (0x1000001032, 3), (0x1000001035, 3), (0x1000001038, 160), (0x1000001039, 32), (0x100000103A, 129), (0x100000103C, 216), (0x100000103D, 218), (0x100000103E, 228), (0x1000001040, 42), (0x1000001042, 128), (0x1000001043, 128), (0x1000001044, 128), (0x1000001045, 128), (0x100000104A, 1), (0x100000104B, 68), (0x100000104D, 192), (0x100000104E, 115), (0x100000104F, 192), (0x1000001050, 9), (0x1000001053, 1), (0x1000001054, 38), (0x1000001056, 175)], hvc := { job := (some { d := 1, addr := 0x1000001000, len := 91, tag := 99, sound := true }), dcs := [(1, {  })] } } : State), ({ d := 1, addr := 0x1000001000, len := 91, tag := 99, sound := true } : DecJob), ({ planes := [(List.replicate 16 (List.replicate 16 5)), [[5, 5, 5, 5, 5, 5, 5, 5], [5, 5, 5, 5, 5, 5, 5, 5], [5, 5, 5, 5, 5, 5, 5, 5], [5, 5, 5, 5, 5, 5, 5, 5], [5, 5, 5, 5, 5, 5, 5, 5], [5, 5, 5, 5, 5, 5, 5, 5], [5, 5, 5, 5, 5, 5, 5, 5], [5, 5, 5, 5, 5, 5, 5, 5]], [[5, 5, 5, 5, 5, 5, 5, 5], [5, 5, 5, 5, 5, 5, 5, 5], [5, 5, 5, 5, 5, 5, 5, 5], [5, 5, 5, 5, 5, 5, 5, 5], [5, 5, 5, 5, 5, 5, 5, 5], [5, 5, 5, 5, 5, 5, 5, 5], [5, 5, 5, 5, 5, 5, 5, 5], [5, 5, 5, 5, 5, 5, 5, 5]]], motion := [], errors := [], parity := none } : DecodedAu), (0 : Nat), (0 : Nat), by decide +kernel⟩,
  ⟨({ regs := [(0x40100020, 0x7FFFFFFF)] } : State), (.cc0 : Requester), (0 : Nat), (0 : Word), by decide +kernel⟩⟩

theorem met_PackEngine :
  (∃ (s : State) (r : Requester) (c : Nat) (v : Word),
    c < 2 ∧
    s.unitOn dPKE = true) ∧
  (∃ (s : State) (c : Nat) (j : PkeJob) (p : Option PkeMemory),
    c < 2 ∧
    s.domOn dPKE = true ∧
    s.err.slots = [] ∧
    s.mc.fills = [] ∧
    s.mc.reread = [] ∧
    s.f (PKE_CH_STATUS_state c) = 1 ∧
    s.pkeJob c = some j ∧
    Calm s ∧
    (s.pke.last ≠ some c ∨ s.f (PKE_CH_STATUS_state (1 - c)) ≠ 1)) ∧
  (∃ (s : State) (r : Requester) (c : Nat) (v : Word) (j : PkeJob),
    c < 2 ∧
    s.unitOn dPKE = true ∧
    s.f (PKE_CH_STATUS_state c) = 2 ∧
    s.pkeJob c = some j ∧
    bitOf v.toNat 2 = false) ∧
  (∃ (s : State) (r : Requester) (c : Nat) (v : Word),
    c < 2 ∧
    s.unitOn dPKE = true ∧
    bitOf v.toNat 0 = false) :=
  ⟨⟨({ regs := [(0x40100020, 0x7FFFFFFF)] } : State), (.cc0 : Requester), (0 : Nat), (0 : Word), by decide +kernel⟩,
  ⟨({ regs := [(0x40100020, 0x1000000), (0x44200030, 1)], pwr := { onSince := [] }, pke := { jobs := [(0, { unpack := false, resid := true, src := 0x1000000000, len := 10, dst := 0x1100000000, dlen := 8, idx := 0x1200000000, ilen := 4, chunk := 0x8000, depth := 1, w := 1, row := 1024 })] } } : State), (0 : Nat), ({ unpack := false, resid := true, src := 0x1000000000, len := 10, dst := 0x1100000000, dlen := 8, idx := 0x1200000000, ilen := 4, chunk := 0x8000, depth := 1, w := 1, row := 1024 } : PkeJob), (none : Option PkeMemory), by decide +kernel⟩,
  ⟨({ regs := [(0x40100020, 0x1000000), (0x44200030, 2)], pwr := { onSince := [] }, pke := { jobs := [(0, { unpack := false, resid := true, src := 0x1000000000, len := 10, dst := 0x1100000000, dlen := 8, idx := 0x1200000000, ilen := 4, chunk := 0x8000, depth := 1, w := 1, row := 1024, pos := 10, made := 26, mark := 10, prev := (some [0, 0, 0, 0, 0]), grp := (5, 0xFFFF), count := 14, begun := true, queue := [(.byte 5), (.byte 0), (.byte 0), (.byte 0), (.byte 10), (.byte 0), (.byte 0), (.byte 0), (.byte 248), (.done 0), (.byte 255), (.byte 7), (.done 2), (.byte 0), (.byte 2), (.done 4), (.byte 0), (.done 6), (.byte 1), (.done 6), (.byte 128), (.done 8), (.byte 0), (.byte 0), (.done 10), (.done 10), (.fin 0 false)], outAt := 8, full := 1 })], last := (some 0) } } : State), (.cc0 : Requester), (0 : Nat), (0 : Word), ({ unpack := false, resid := true, src := 0x1000000000, len := 10, dst := 0x1100000000, dlen := 8, idx := 0x1200000000, ilen := 4, chunk := 0x8000, depth := 1, w := 1, row := 1024, pos := 10, made := 26, mark := 10, prev := (some [0, 0, 0, 0, 0]), grp := (5, 0xFFFF), count := 14, begun := true, queue := [(.byte 5), (.byte 0), (.byte 0), (.byte 0), (.byte 10), (.byte 0), (.byte 0), (.byte 0), (.byte 248), (.done 0), (.byte 255), (.byte 7), (.done 2), (.byte 0), (.byte 2), (.done 4), (.byte 0), (.done 6), (.byte 1), (.done 6), (.byte 128), (.done 8), (.byte 0), (.byte 0), (.done 10), (.done 10), (.fin 0 false)], outAt := 8, full := 1 } : PkeJob), by decide +kernel⟩,
  ⟨({ regs := [(0x40100020, 0x7FFFFFFF)] } : State), (.cc0 : Requester), (0 : Nat), (0 : Word), by decide +kernel⟩⟩

theorem met_MemoryMapAndRequests :
  (∃ (s : State) (r : Requester) (v : Word),
    s.unitOn (dMEM 0) = true) ∧
  (∃ (s : State) (ch bk : List Nat),
    ((0 ∈ usedMasks s.variant ch bk ∨ ¬ ((usedMasks s.variant ch bk).map Nat.log2).Nodup))) ∧
  (∃ (s : State) (r : Requester) (v : Word),
    s.unitOn (dMEM 0) = true ∧
    s.b CFG_LOCK_lock = false) ∧
  (∃ (s : State) (q : MemReq) (off : Nat),
    (Instr.dramRequest [q]).wf = true ∧
    s.domOn dFAB = true ∧
    s.mc.fills = [] ∧
    s.mc.reread = [] ∧
    s.err.slots = [] ∧
    s.memAnswers q.addr q.len q.write.isSome = true ∧
    regionOf s.variant q.addr = .dram off ∧
    s.inEcc q.addr = false) ∧
  (∃ (s : State) (q : MemReq),
    (Instr.dramRequest [q]).wf = true ∧
    s.domOn dFAB = true ∧
    s.mc.fills = [] ∧
    s.mc.reread = [] ∧
    s.memAnswers q.addr q.len q.write.isSome = false) ∧
  (∃ (s : State) (q : MemReq) (off : Nat),
    (Instr.dramRequest [q]).wf = true ∧
    s.domOn dFAB = true ∧
    s.mc.fills = [] ∧
    s.mc.reread = [] ∧
    s.err.slots = [] ∧
    s.memAnswers q.addr q.len false = true ∧
    q.write = none ∧
    regionOf s.variant q.addr = .dram off ∧
    s.inEcc q.addr = true ∧
    q.found = .single) ∧
  (∃ (s : State) (q : MemReq) (off m : Nat),
    (Instr.dramRequest [q]).wf = true ∧
    s.domOn dFAB = true ∧
    s.mc.fills = [] ∧
    s.mc.reread = [] ∧
    s.err.slots = [] ∧
    s.memAnswers q.addr q.len false = true ∧
    q.write = none ∧
    regionOf s.variant q.addr = .dram off ∧
    s.inEcc q.addr = true ∧
    q.found = .multi ∧
    m = s.channelOf off / 8) ∧
  (∃ (s : State) (a off m : Nat) (b : Bool) (inj : Bool),
    a % 64 = 0 ∧
    s.pwr.clkLost = false ∧
    a < l2Base ∧
    look s.mc.reread a = some inj ∧
    s.err.slots = [] ∧
    regionOf s.variant a = .dram off ∧
    s.inEcc a = true ∧
    m = s.channelOf off / 8) :=
  ⟨⟨({ regs := [(0x40100020, 0x7FFFFFFF)] } : State), (.cc0 : Requester), (0 : Word), by decide +kernel⟩,
  ⟨({  } : State), ([0, 0, 0, 0, 0] : List Nat), ([0, 0, 0, 0] : List Nat), by decide +kernel⟩,
  ⟨({ regs := [(0x40100020, 0x7FFFFFFF)] } : State), (.cc0 : Requester), (0 : Word), by decide +kernel⟩,
  ⟨({ regs := [(0x40100020, 2), (0x45000180, 1)], pwr := { onSince := [] } } : State), ({ cls := 0, addr := 0x1000000040, len := 1, write := none, found := .clean } : MemReq), (64 : Nat), by decide +kernel⟩,
  ⟨({ regs := [(0x40100020, 3)] } : State), ({ cls := 0, addr := 0x1000000040, len := 1, write := none, found := .clean } : MemReq), by decide +kernel⟩,
  ⟨({ regs := [(0x40100020, 2), (0x45000180, 1), (0x45000204, 16), (0x45000208, 1), (0x4500020C, 1)] } : State), ({ cls := 0, addr := 0x1000000040, len := 1, write := none, found := .single } : MemReq), (64 : Nat), by decide +kernel⟩,
  ⟨({ regs := [(0x40100020, 2), (0x45000180, 1), (0x45000204, 16), (0x45000208, 1), (0x4500020C, 1)] } : State), ({ cls := 0, addr := 0x1000000040, len := 1, write := none, found := .multi } : MemReq), (64 : Nat), (0 : Nat), by decide +kernel⟩,
  ⟨({ regs := [(0x45000204, 16), (0x45000208, 1), (0x4500020C, 1)], pwr := { onSince := [] }, mc := { chMask := [64, 128, 256, 512, 1024], bkMask := [0x1000, 0x2000, 0x4000, 0x8000], reread := [(0x1000000040, false)], lastData := [5, 6, 7, 0, 0, 0, 0, 0], hint := 1, place := (1, (0, (0, 0))), rows := [(16, (0, (1, 0)))], qos := [(1, (0, (0, 1)))], served := [(0, ({  }, [5, 6, 7, 0, 0, 0, 0, 0]))] } } : State), (0x1000000040 : Nat), (64 : Nat), (0 : Nat), (false : Bool), (false : Bool), by decide +kernel⟩⟩

theorem met_MemoryUpkeep :
  (∃ (s : State) (r : Requester) (k : Nat) (v : Word),
    k < 8 ∧
    s.unitOn (dMEM 0) = true ∧
    s.b CFG_LOCK_lock = false ∧
    s.b (MEM_ECC_RGN_CTRL_en k) = false ∧
    ((∀ j < 8, s.b (MEM_ECC_RGN_CTRL_en j) = false)) ∧
    let b := s.pair (MEM_ECC_RGN_LO k) (MEM_ECC_RGN_HI k)
  let d := s.f (MEM_ECC_RGN_SIZE_size k) * 0x1000000
  Config.dramBase ≤ b ∧
    b + d + d / 8 ≤ Config.dramBase + Config.dramSize s.variant) ∧
  (∃ (s : State) (k : Nat) (b d : Nat),
    k < 8 ∧
    s.pwr.clkLost = false ∧
    s.mc.fills.contains k = true ∧
    s.eccRegion k = some (b, d) ∧
    Config.romSize ≤ b) ∧
  (∃ (s : State) (m ch : Nat),
    Calm s ∧
    m < 4 ∧
    ch < 8 ∧
    s.chanOn m ch = true) ∧
  (∃ (s : State) (m ch : Nat),
    Calm s ∧
    m < 4 ∧
    ch < 8 ∧
    s.chanOn m ch = true ∧
    0 < lookD s.mc.debt 0 (m * 8 + ch)) ∧
  (∃ (s : State) (m : Nat) (codes : List Nat),
    (Instr.mr4Read m codes).wf = true ∧
    s.chanOn m 0 = true ∧
    codes.length = Config.channels s.variant ∧
    Calm s) ∧
  (∃ (s : State) (r : Requester) (m : Nat) (v : Word),
    m < 4 ∧
    s.unitOn (dMEM m) = true) ∧
  (∃ (s : State) (m ch : Nat) (first retry : Bool),
    m < 4 ∧
    ch < 8 ∧
    s.domOn (dMEM m) = true ∧
    s.err.slots = [] ∧
    (lookD s.mc.training [] m).contains ch = true) ∧
  (∃ (s : State) (m ch : Nat) (first retry : Bool),
    Calm s ∧
    m < 4 ∧
    ch < 8 ∧
    s.chanOn m ch = true ∧
    s.b MEM_CTRL_en = true) :=
  ⟨⟨({ regs := [(0x40100020, 4), (0x45000204, 16)] } : State), (.cc0 : Requester), (0 : Nat), (0 : Word), by decide +kernel⟩,
  ⟨({ regs := [(0x45000204, 1), (0x45000208, 1), (0x4500020C, 1)], pwr := { onSince := [] }, mc := { chMask := [64, 128, 256, 512, 1024], bkMask := [0x1000, 0x2000, 0x4000, 0x8000], fills := [0] } } : State), (0 : Nat), (0x100000000 : Nat), (0x1000000 : Nat), by decide +kernel⟩,
  ⟨({ regs := [(0x40100020, 0x7FFFFFFF)] } : State), (0 : Nat), (0 : Nat), by decide +kernel⟩,
  ⟨({ regs := [(0x40100020, 0x7FFFFFFF)], mc := { chMask := [64, 128, 256, 512, 1024], bkMask := [0x1000, 0x2000, 0x4000, 0x8000], debt := [(0, 1)], lastData := [5, 6, 7, 0, 0, 0, 0, 0], hint := 1, place := (1, (0, (0, 0))), rows := [(16, (0, (1, 0)))], qos := [(1, (0, (0, 2)))], refAt := [(0, 0x3B9ACA)], served := [(0, ({  }, [5, 6, 7, 0, 0, 0, 0, 0]))] } } : State), (0 : Nat), (0 : Nat), by decide +kernel⟩,
  ⟨({ regs := [(0x40100020, 0x7FFFFFFF)] } : State), (0 : Nat), ([3, 3, 3, 3, 3, 3, 3, 3] : List Nat), by decide +kernel⟩,
  ⟨({ regs := [(0x40100020, 0x7FFFFFFF)] } : State), (.cc0 : Requester), (0 : Nat), (0 : Word), by decide +kernel⟩,
  ⟨({ regs := [(0x40100020, 0x7FFFFFFF)], mc := { chMask := [64, 128, 256, 512, 1024], bkMask := [0x1000, 0x2000, 0x4000, 0x8000], training := [(0, [0, 1, 2, 3, 4, 5, 6, 7])] } } : State), (0 : Nat), (0 : Nat), (true : Bool), (true : Bool), by decide +kernel⟩,
  ⟨({ regs := [(0x40100020, 0x7FFFFFFF), (0x45000180, 1)] } : State), (0 : Nat), (0 : Nat), (true : Bool), (true : Bool), by decide +kernel⟩⟩

theorem met_RecordMembers :
  (∃ (s : State) (r : Requester) (m : Nat) (v : Word),
    m < 4 ∧
    s.unitOn dRM = true ∧
    bitOf v.toNat 1 = false ∧
    bitOf v.toNat 2 = false) ∧
  (∃ (s : State) (r : Requester) (m : Nat) (v : Word),
    m < 4 ∧
    s.unitOn dRM = true ∧
    bitOf v.toNat 0 = false ∧
    bitOf v.toNat 2 = false) ∧
  (∃ (s : State) (r : Requester) (m : Nat) (v : Word),
    m < 4 ∧
    s.unitOn dRM = true ∧
    bitOf v.toNat 0 = false ∧
    bitOf v.toNat 1 = false) ∧
  (∃ (s : State) (m : Nat) (x : AttachResult),
    m < 4 ∧
    s.domOn dRM = true ∧
    s.b RM_CTRL_en = true ∧
    s.b (RM_MBR_CTRL_attach m) = true ∧
    (s.mbr m).readm = false ∧
    x.blocks < 2 ^ 64) ∧
  (∃ (s : State) (m : Nat) (cid : BitVec 16) (c : NvCmd) (k no b n : Nat) (cells : List Host.Cell),
    m < 4 ∧
    s.domOn dRM = true ∧
    s.rm.opens = [] ∧
    s.mc.fills = [] ∧
    s.mc.reread = [] ∧
    s.err.slots = [] ∧
    (s.mbr m).cmds.find? (fun c => c.cid == cid.toNat) = some c ∧
    cid.toNat / 4096 = s.f (RM_MBR_GEN_gen m) % 16 ∧
    c.old = false ∧
    c.tries = 0 ∧
    c.owner = .flight k no ∧
    c.op = .write b n cells ∧
    (cells.all (fun e => e.1 < n * 4096)) = true) ∧
  (∃ (s : State) (m : Nat) (cid : BitVec 16) (ok : Bool) (c : NvCmd),
    m < 4 ∧
    s.domOn dRM = true ∧
    s.rm.opens = [] ∧
    s.mc.fills = [] ∧
    s.mc.reread = [] ∧
    s.err.slots = [] ∧
    (s.mbr m).cmds.find? (fun c => c.cid == cid.toNat) = some c ∧
    cid.toNat / 4096 ≠ s.f (RM_MBR_GEN_gen m) % 16) ∧
  (∃ (s : State) (m : Nat) (cid : BitVec 16) (c : NvCmd),
    m < 4 ∧
    s.domOn dRM = true ∧
    s.rm.opens = [] ∧
    s.mc.fills = [] ∧
    s.mc.reread = [] ∧
    s.err.slots = [] ∧
    (s.mbr m).cmds.find? (fun c => c.cid == cid.toNat) = some c ∧
    cid.toNat / 4096 = s.f (RM_MBR_GEN_gen m) % 16 ∧
    c.old = false ∧
    c.tries = 0) ∧
  (∃ (s : State) (m : Nat) (cid : BitVec 16) (c : NvCmd),
    m < 4 ∧
    s.domOn dRM = true ∧
    s.rm.opens = [] ∧
    s.mc.fills = [] ∧
    s.mc.reread = [] ∧
    Calm s ∧
    (s.mbr m).cmds.find? (fun c => c.cid == cid.toNat && !c.old && !c.gone) = some c ∧
    c.tries = 0) ∧
  (∃ (s : State) (m : Nat) (cid : BitVec 16) (c : NvCmd),
    m < 4 ∧
    s.domOn dRM = true ∧
    s.rm.opens = [] ∧
    s.mc.fills = [] ∧
    s.mc.reread = [] ∧
    s.err.slots = [] ∧
    (s.mbr m).cmds = [c] ∧
    c.cid = cid.toNat ∧
    cid.toNat / 4096 = s.f (RM_MBR_GEN_gen m) % 16 ∧
    c.old = false ∧
    c.tries = 1 ∧
    s.volOf m = none ∧
    forTask c = false) ∧
  (∃ (s : State) (m : Nat),
    m < 4 ∧
    s.domOn dRM = true ∧
    s.rm.opens = [] ∧
    s.err.slots = [] ∧
    (s.mbr m).cmds = [] ∧
    s.volOf m = none ∧
    (s.mbr m).linkUp = true ∧
    1 ≤ s.f (RM_MBR_STATUS_state m) ∧
    s.f (RM_MBR_STATUS_state m) ≤ 3) ∧
  (∃ (s : State) (m v : Nat) (x : VolSt) (l sp : VolSlot),
    m < 4 ∧
    s.domOn dRM = true ∧
    s.rm.opens = [] ∧
    s.mc.fills = [] ∧
    s.mc.reread = [] ∧
    s.err.slots = [] ∧
    (s.mbr m).cmds = [] ∧
    (s.mbr m).linkUp = true ∧
    1 ≤ s.f (RM_MBR_STATUS_state m) ∧
    s.f (RM_MBR_STATUS_state m) ≤ 3 ∧
    s.volOf m = some (v, x) ∧
    v < 4 ∧
    x.slots.find? (fun y => y.m == m) = some l ∧
    l.role = 1 ∧
    l.pos < 4 ∧
    (s.holders x l.pos).filter (· != m) = [] ∧
    x.slots.find? (fun y => y.role == 2 && y.m != m && s.mbrLive y.m) = some sp ∧
    sp.m < 4 ∧
    (x.slots.map (·.m)).Nodup ∧
    s.streamsOf v = []) ∧
  (∃ (s : State) (m sp w : Nat),
    m < 4 ∧
    s.domOn dRM = true ∧
    s.b RM_CTRL_en = true ∧
    s.f (RM_MBR_STATUS_state m) = 4 ∧
    sp < 8 ∧
    (w = 1 ∨ w = 2 ∨ w = 4)) :=
  ⟨⟨({ regs := [(0x40100020, 0x7FFFFFFF)] } : State), (.cc0 : Requester), (0 : Nat), (0 : Word), by decide +kernel⟩,
  ⟨({ regs := [(0x40100020, 0x7FFFFFFF)] } : State), (.cc0 : Requester), (0 : Nat), (0 : Word), by decide +kernel⟩,
  ⟨({ regs := [(0x40100020, 0x7FFFFFFF)] } : State), (.cc0 : Requester), (0 : Nat), (0 : Word), by decide +kernel⟩,
  ⟨({ regs := [(0x40100020, 0x2000000), (0x46000000, 1), (0x46000100, 1)] } : State), (0 : Nat), ({ linkUp := true, speed := 3, width := 4, ready := true, nsPresent := true, lbaFormat := true, blocks := 0x1388, pairs := 4, mdts := 0, vwc := true, uid := 7 } : AttachResult), by decide +kernel⟩,
  ⟨({ regs := [(0x40100020, 0x7FFFFFFF)], rm := { mbrs := [(0, { cmds := [{ cid := 10, op := (.write 1024 3 []), owner := (.flight 0 0), due := 0x746A528800, pair := 2 }], next := 11, subs := 11, uid := 7, linkUp := true, cqs := [(0, 3), (1, 3), (2, 2), (3, 2)], asq := 12 }), (1, { uid := 8, linkUp := true, asq := 12 })], vols := [(0, { layout := 0, su := 4, slots := [{ m := 0, role := 1, pos := 0, gen := 0, uid := 7 }], n := 1, total := 3968, id := 77, sbSeq := 1, jseq := 2, area := [(0x1500, 1), (0x150C, 40), (0x1510, 1), (0x1514, 1), (0x1538, 255), (0x1539, 255), (0x153A, 255), (0x153B, 255), (0x153C, 255), (0x153D, 255), (0x153E, 255), (0x153F, 255), (0x15FC, 30), (0x15FD, 111), (0x15FE, 138), (0x15FF, 18), (0x101020, 5), (0x101024, 255), (0x101025, 255), (0x101026, 255), (0x101027, 255), (0x101030, 100), (0x10103C, 40), (0x10103D, 28), (0x10103E, 120), (0x10103F, 240), (0x301040, 1), (0x301048, 1), (0x30104C, 5), (0x301054, 40), (0x30107C, 100), (0x30107D, 36), (0x30107E, 183), (0x30107F, 36), (0x301080, 2), (0x301088, 2), (0x30108C, 5), (0x301090, 1), (0x3010BC, 131), (0x3010BD, 13), (0x3010BE, 3), (0x3010BF, 120)] })], strs := [(0, { ring := (some (.prc 0)), clip := { id := 5, prod := 40, exts := [(1, (0, (100, 0)))] }, taken := 1, entries := [[0, 0, 0, 0, 0, 0, 0, 0, 16, 39, 0, 0, 3, 0, 0, 0, 0, 0, 0, 0, 0, 0, 0, 0, 0, 0, 0, 0, 46, 202, 59, 77]], grants := [{ no := 0, first := 0, cur := 3, stop := 100, ext := 1 }], grantNo := 1, flights := [{ no := 0, index := false, vbn := 0, blocks := 3, bytes := 0x2710, entry := [0, 0, 0, 0, 0, 0, 0, 0, 16, 39, 0, 0, 3, 0, 0, 0, 0, 0, 0, 0, 0, 0, 0, 0, 0, 0, 0, 0, 46, 202, 59, 77], info := { pfn := 3, width := 64, height := 64 }, before := [{ no := 0, first := 0, cur := 0, stop := 100, ext := 1 }], issued := true, left := 1 }], no := 1, mseq := 1 })], taskNo := 2 } } : State), (0 : Nat), (10 : BitVec 16), ({ cid := 10, op := (.write 1024 3 []), owner := (.flight 0 0), due := 0x746A528800, pair := 2 } : NvCmd), (0 : Nat), (0 : Nat), (1024 : Nat), (3 : Nat), ([] : List Host.Cell), by decide +kernel⟩,
  ⟨({ regs := [(0x40100020, 0x2000000), (0x4600010C, 1)], rm := { mbrs := [(0, { cmds := [{ cid := 5, op := (.write 5 1 []), owner := (.flight 0 9), due := 0, old := true }], next := 2, subs := 2, uid := 7, linkUp := true, cqs := [(0, 1), (1, 1)], asq := 12 }), (1, { uid := 8, linkUp := true, asq := 12 })] } } : State), (0 : Nat), (5 : BitVec 16), (true : Bool), ({ cid := 5, op := (.write 5 1 []), owner := (.flight 0 9), due := 0, old := true } : NvCmd), by decide +kernel⟩,
  ⟨({ regs := [(0x40100020, 0x7FFFFFFF)], rm := { mbrs := [(0, { cmds := [{ cid := 0, op := (.write 1 256 []), owner := (.task 0), due := 0x746A528800 }, { cid := 1, op := (.write 257 256 []), owner := (.task 0), due := 0x746A528800, pair := 1 }, { cid := 2, op := (.write 513 256 []), owner := (.task 0), due := 0x746A528800, pair := 2 }, { cid := 3, op := (.write 769 255 []), owner := (.task 0), due := 0x746A528800, pair := 3 }], next := 4, subs := 4, uid := 7, linkUp := true, asq := 12 }), (1, { uid := 8, linkUp := true, asq := 12 })], vols := [(0, { layout := 0, su := 4, slots := [{ m := 0, role := 1, pos := 0, gen := 0, uid := 7 }], n := 1, total := 3968, id := 77 })], tasks := [(0, { vol := 0, phases := [[(.sb false)], [(.sb true)]], left := 4, fin := (.ready 0 false) })], taskNo := 1 } } : State), (0 : Nat), (0 : BitVec 16), ({ cid := 0, op := (.write 1 256 []), owner := (.task 0), due := 0x746A528800 } : NvCmd), by decide +kernel⟩,
  ⟨({ regs := [(0x40100020, 0x7FFFFFFF)], rm := { mbrs := [(0, { cmds := [{ cid := 0, op := (.write 1 256 []), owner := (.task 0), due := 0x746A528800 }, { cid := 1, op := (.write 257 256 []), owner := (.task 0), due := 0x746A528800, pair := 1 }, { cid := 2, op := (.write 513 256 []), owner := (.task 0), due := 0x746A528800, pair := 2 }, { cid := 3, op := (.write 769 255 []), owner := (.task 0), due := 0x746A528800, pair := 3 }], next := 4, subs := 4, uid := 7, linkUp := true, asq := 12 }), (1, { uid := 8, linkUp := true, asq := 12 })], vols := [(0, { layout := 0, su := 4, slots := [{ m := 0, role := 1, pos := 0, gen := 0, uid := 7 }], n := 1, total := 3968, id := 77 })], tasks := [(0, { vol := 0, phases := [[(.sb false)], [(.sb true)]], left := 4, fin := (.ready 0 false) })], taskNo := 1 } } : State), (0 : Nat), (0 : BitVec 16), ({ cid := 0, op := (.write 1 256 []), owner := (.task 0), due := 0x746A528800 } : NvCmd), by decide +kernel⟩,
  ⟨({ regs := [(0x40100020, 0x7FFFFFFF)], rm := { mbrs := [(0, { cmds := [{ cid := 1, op := (.write 5 1 [(1, 7)]), owner := (.flight 0 9), tries := 1, due := 0x746A528800, det := 0x4000, pair := 1 }], next := 2, subs := 2, uid := 7, linkUp := true, cqs := [(0, 1)], asq := 12 }), (1, { uid := 8, linkUp := true, asq := 12 })] } } : State), (0 : Nat), (1 : BitVec 16), ({ cid := 1, op := (.write 5 1 [(1, 7)]), owner := (.flight 0 9), tries := 1, due := 0x746A528800, det := 0x4000, pair := 1 } : NvCmd), by decide +kernel⟩,
  ⟨({ regs := [(0x40100020, 0x2000000), (0x46000108, 409)], pwr := { onSince := [] }, rm := { mbrs := [(0, { uid := 7, linkUp := true, asq := 12 })] } } : State), (0 : Nat), by decide +kernel⟩,
  ⟨({ regs := [(0x40100020, 0x2000000), (0x46000108, 410), (0x46000148, 410)], rm := { mbrs := [(0, { next := 4, subs := 4, uid := 7, linkUp := true, cqs := [(0, 1), (1, 1), (2, 1), (3, 1)], asq := 12 }), (1, { cmds := [{ cid := 0, op := (.write 1 256 []), owner := (.task 0), due := 0x746A528800 }, { cid := 1, op := (.write 257 256 []), owner := (.task 0), due := 0x746A528800, pair := 1 }, { cid := 2, op := (.write 513 256 []), owner := (.task 0), due := 0x746A528800, pair := 2 }, { cid := 3, op := (.write 769 255 []), owner := (.task 0), due := 0x746A528800, pair := 3 }], next := 4, subs := 4, uid := 8, linkUp := true, asq := 12 })], vols := [(0, { layout := 1, su := 4, slots := [{ m := 0, role := 1, pos := 0, gen := 0, uid := 7 }, { m := 1, role := 2, pos := 0, gen := 0, uid := 8 }], n := 1, total := 3968, id := 77 })], tasks := [(0, { vol := 0, phases := [[(.sb false)], [(.sb true)]], left := 4, fin := (.ready 0 false) })], taskNo := 1 } } : State), (0 : Nat), (0 : Nat), ({ layout := 1, su := 4, slots := [{ m := 0, role := 1, pos := 0, gen := 0, uid := 7 }, { m := 1, role := 2, pos := 0, gen := 0, uid := 8 }], n := 1, total := 3968, id := 77 } : VolSt), ({ m := 0, role := 1, pos := 0, gen := 0, uid := 7 } : VolSlot), ({ m := 1, role := 2, pos := 0, gen := 0, uid := 8 } : VolSlot), by decide +kernel⟩,
  ⟨({ regs := [(0x40100020, 0x2000000), (0x46000000, 1), (0x46000108, 412)] } : State), (0 : Nat), (1 : Nat), (1 : Nat), by decide +kernel⟩⟩

theorem met_RecordVolumes :
  (∃ (s : State) (r : Requester) (v : Nat) (w : Word) (x : VolSt),
    v < 4 ∧
    s.unitOn dRM = true ∧
    s.mc.fills = [] ∧
    s.mc.reread = [] ∧
    s.err.slots = [] ∧
    bitOf w.toNat 2 = false ∧
    formatOf v s = some x) ∧
  (∃ (s : State) (r : Requester) (v : Nat) (w : Word),
    v < 4 ∧
    s.unitOn dRM = true ∧
    bitOf w.toNat 2 = false ∧
    formatOf v s = none) ∧
  (∃ (s : State) (r : Requester) (v : Nat) (w : Word),
    v < 4 ∧
    s.unitOn dRM = true ∧
    s.rm.opens = [] ∧
    bitOf w.toNat 2 = false ∧
    ((∀ i < 4, s.f (RM_MBR_STATUS_state (s.cfgMember v i)) ≠ 1)) ∧
    s.f (RM_VOL_CFG_count v) ≤ 4) ∧
  (∃ (s : State) (r : Requester) (v : Nat) (w : Word),
    v < 4 ∧
    s.unitOn dRM = true ∧
    s.rm.opens = [] ∧
    s.mc.fills = [] ∧
    s.err.slots = [] ∧
    s.mc.reread = [] ∧
    bitOf w.toNat 2 = false ∧
    s.f (RM_VOL_STATUS_state v) = 0 ∧
    s.f (RM_VOL_CFG_layout v) = 0 ∧
    s.f (RM_VOL_CFG_count v) = 1 ∧
    s.f (RM_MBR_STATUS_state (s.cfgMember v 0)) = 1) ∧
  (∃ (s : State) (v m id : Nat) (cid : BitVec 16) (c : NvCmd) (k : RmTask) (b : List Byte),
    v < 4 ∧
    s.domOn dRM = true ∧
    s.err.slots = [] ∧
    s.mc.fills = [] ∧
    s.mc.reread = [] ∧
    s.rm.opens = [(v, { step := 1 })] ∧
    s.f (RM_VOL_STATUS_state v) = 1 ∧
    s.f (RM_VOL_CFG_count v) = 1 ∧
    m = s.cfgMember v 0 ∧
    s.f (RM_MBR_STATUS_state m) = 1 ∧
    (s.mbr m).cmds = [c] ∧
    c.cid = cid.toNat ∧
    cid.toNat / 4096 = s.f (RM_MBR_GEN_gen m) % 16 ∧
    c.old = false ∧
    c.tries = 0 ∧
    c.owner = .task id ∧
    c.op = .read (s.mbrBlocks m - 1) 1 ∧
    look s.rm.tasks id = some k ∧
    k.left = 1 ∧
    k.phases = [] ∧
    k.fin = .opening v ∧
    (bestSb m s).1 = some b ∧
    (volFromSb v b s).layout = 0 ∧
    (volFromSb v b s).slots.map (fun l => (l.role, l.pos)) = [(1, 0)]) ∧
  (∃ (s : State) (r : Requester) (v : Nat) (w : Word) (x : VolSt),
    v < 4 ∧
    s.unitOn dRM = true ∧
    bitOf w.toNat 0 = false ∧
    bitOf w.toNat 1 = false ∧
    look s.rm.vols v = some x ∧
    ((∀ k < 8, s.f (RM_STR_STATUS_state k) = 0)) ∧
    (x.slots.all (fun l => l.m < 4)) = true ∧
    (s.rm.tasks.all (fun e => e.2.vol != v)) = true) :=
  ⟨⟨({ regs := [(0x40100020, 0x2000000), (0x46000108, 409)] } : State), (.cc0 : Requester), (0 : Nat), (0 : Word), ({ layout := 0, su := 8, slots := [{ m := 0, role := 1, pos := 0, gen := 0, uid := 0 }], n := 1, total := 0, id := 0 } : VolSt), by decide +kernel⟩,
  ⟨({ regs := [(0x40100020, 0x7FFFFFFF)] } : State), (.cc0 : Requester), (0 : Nat), (0 : Word), by decide +kernel⟩,
  ⟨({ regs := [(0x40100020, 0x7FFFFFFF)] } : State), (.cc0 : Requester), (0 : Nat), (0 : Word), by decide +kernel⟩,
  ⟨({ regs := [(0x40100020, 0x2000000), (0x46000108, 409)] } : State), (.cc0 : Requester), (0 : Nat), (0 : Word), by decide +kernel⟩,
  ⟨(volAt : State), (0 : Nat), (0 : Nat), (1 : Nat), (7 : BitVec 16), ({ cid := 7, op := (.read 0x1387 1), owner := (.task 1), due := 0x746A528800, pair := 3 } : NvCmd), ({ vol := 0, phases := [], left := 1, fin := (.opening 0) } : RmTask), (sbBytes : List Byte), by rw [sb_found]; decide +kernel⟩,
  ⟨({ regs := [(0x40100020, 0x7FFFFFFF)], rm := { mbrs := [(0, { next := 6, subs := 6, uid := 7, linkUp := true, cqs := [(0, 2), (1, 2), (2, 1), (3, 1)], asq := 12 }), (1, { uid := 8, linkUp := true, asq := 12 })], vols := [(0, { layout := 0, su := 4, slots := [{ m := 0, role := 1, pos := 0, gen := 0, uid := 7 }], n := 1, total := 3968, id := 77, sbSeq := 1 })], taskNo := 1 } } : State), (.cc0 : Requester), (0 : Nat), (0 : Word), ({ layout := 0, su := 4, slots := [{ m := 0, role := 1, pos := 0, gen := 0, uid := 7 }], n := 1, total := 3968, id := 77, sbSeq := 1 } : VolSt), by decide +kernel⟩⟩

theorem met_RecordClips :
  (∃ (s : State) (r : Requester) (k : Nat) (v : Word) (g : RingId),
    k < 8 ∧
    s.unitOn dRM = true ∧
    s.mc.fills = [] ∧
    s.mc.reread = [] ∧
    s.err.slots = [] ∧
    bitOf v.toNat 1 = false ∧
    sourceRing (s.f (RM_STR_CFG_src_blk k)) (s.f (RM_STR_CFG_src_out k)) = some g) ∧
  (∃ (s : State) (r : Requester) (k : Nat) (v : Word) (x : VolSt),
    k < 8 ∧
    s.unitOn dRM = true ∧
    look s.rm.vols (s.f (RM_STR_CFG_vol k)) = some x ∧
    s.f (RM_STR_STATUS_state k) ≠ 2 ∧
    s.f (RM_STR_GRANT_LEN_blocks k) ≠ 0) ∧
  (∃ (s : State) (k b : Nat) (g : RingId) (h : Grant) (u : List Grant),
    k < 8 ∧
    s.domOn dRM = true ∧
    s.mc.fills = [] ∧
    s.mc.reread = [] ∧
    s.err.slots = [] ∧
    s.b RM_CTRL_en = true ∧
    s.f (RM_STR_STATUS_state k) = 1 ∧
    s.volRuns (s.str k).vol = true ∧
    s.nextFrame k = some b ∧
    (s.str k).ring = some g ∧
    (s.str k).owed = false ∧
    s.memAnswers (s.slotAddr g b) 128 false = true ∧
    (s.str k).entries.length < 126 ∧
    (s.str k).grants = h :: u ∧
    (s.str k).flights = [] ∧
    s.oep.locks = [] ∧
    let n := ceilDiv (descBuf (s.peeks (s.slotAddr g b) 128)).written 4096
  n ≤ h.stop - h.cur) ∧
  (∃ (s : State) (k b : Nat) (g : RingId),
    k < 8 ∧
    s.domOn dRM = true ∧
    s.b RM_CTRL_en = true ∧
    s.f (RM_STR_STATUS_state k) = 1 ∧
    s.volRuns (s.str k).vol = true ∧
    s.nextFrame k = some b ∧
    (s.str k).ring = some g ∧
    (s.str k).owed = false ∧
    (s.str k).grants = []) ∧
  (∃ (s : State) (k : Nat) (g : RingId) (f : Flight) (l : List Flight),
    k < 8 ∧
    s.domOn dRM = true ∧
    s.mc.fills = [] ∧
    s.mc.reread = [] ∧
    s.err.slots = [] ∧
    s.f (RM_STR_STATUS_state k) = 1 ∧
    (s.str k).flights = f :: l ∧
    f.issued = true ∧
    f.left = 0 ∧
    f.index = false ∧
    (s.str k).ring = some g ∧
    ((∀ j < 64, ¬ rmMem s (s.slotAddr g f.buf + j) ∧ ¬ rmMem s (s.slotAddr g f.buf + 64 + j)))) ∧
  (∃ (s : State) (r : Requester) (k : Nat) (v : Word),
    k < 8 ∧
    s.unitOn dRM = true ∧
    bitOf v.toNat 0 = false ∧
    s.f (RM_STR_STATUS_state k) = 1 ∧
    (s.str k).flights ≠ []) ∧
  (∃ (s : State) (r : Requester) (k : Nat) (v : Word) (h : Grant) (u : List Grant),
    k < 8 ∧
    s.unitOn dRM = true ∧
    s.mc.fills = [] ∧
    s.mc.reread = [] ∧
    s.err.slots = [] ∧
    s.oep.locks = [] ∧
    bitOf v.toNat 0 = false ∧
    s.f (RM_STR_STATUS_state k) = 1 ∧
    (s.str k).flights = [] ∧
    (s.str k).redo = [] ∧
    (s.str k).stage = 0 ∧
    (s.str k).grants = h :: u ∧
    h.cur < h.stop) ∧
  (∃ (s : State) (k : Nat) (g : RingId),
    k < 8 ∧
    s.domOn dRM = true ∧
    (s.str k).stage = 3 ∧
    (s.str k).ring = some g) ∧
  (∃ (s : State) (k : Nat) (b : ClipSt) (h : Grant) (u : List Grant),
    k < 8 ∧
    s.domOn dRM = true ∧
    s.mc.fills = [] ∧
    s.mc.reread = [] ∧
    s.err.slots = [] ∧
    s.oep.locks = [] ∧
    (s.str k).next = some b ∧
    s.f (RM_STR_STATUS_state k) = 3 ∧
    (s.str k).flights = [] ∧
    s.strBusy k = false ∧
    (s.str k).stage = 0 ∧
    (s.str k).redo = [] ∧
    (s.str k).grants = h :: u ∧
    h.cur < h.stop) :=
  ⟨⟨({ regs := [(0x40100020, 0x2000000), (0x46000400, 0x2800)] } : State), (.cc0 : Requester), (0 : Nat), (0 : Word), ((.prc 0) : RingId), by decide +kernel⟩,
  ⟨({ regs := [(0x40100020, 0x2000000), (0x4600041C, 1)], pwr := { onSince := [] }, rm := { mbrs := [(0, { next := 6, subs := 6, uid := 7, linkUp := true, cqs := [(0, 2), (1, 2), (2, 1), (3, 1)], asq := 12 }), (1, { uid := 8, linkUp := true, asq := 12 })], vols := [(0, { layout := 0, su := 4, slots := [{ m := 0, role := 1, pos := 0, gen := 0, uid := 7 }], n := 1, total := 3968, id := 77, sbSeq := 1 })], taskNo := 1 } } : State), (.cc0 : Requester), (0 : Nat), (0 : Word), ({ layout := 0, su := 4, slots := [{ m := 0, role := 1, pos := 0, gen := 0, uid := 7 }], n := 1, total := 3968, id := 77, sbSeq := 1 } : VolSt), by decide +kernel⟩,
  ⟨({ regs := [(0x40100020, 0x2000000), (0x44000044, 16), (0x45000180, 1), (0x46000000, 1), (0x46000108, 410), (0x46000308, 2), (0x46000424, 5)], rings := [(256, { cons := [{ id := (.stream 0), held := [0] }] })], rm := { mbrs := [(0, { next := 10, subs := 10, uid := 7, linkUp := true, cqs := [(0, 3), (1, 3), (2, 2), (3, 2)], asq := 12 }), (1, { uid := 8, linkUp := true, asq := 12 })], vols := [(0, { layout := 0, su := 4, slots := [{ m := 0, role := 1, pos := 0, gen := 0, uid := 7 }], n := 1, total := 3968, id := 77, sbSeq := 1, jseq := 2, area := [(0x1500, 1), (0x150C, 40), (0x1510, 1), (0x1514, 1), (0x1538, 255), (0x1539, 255), (0x153A, 255), (0x153B, 255), (0x153C, 255), (0x153D, 255), (0x153E, 255), (0x153F, 255), (0x15FC, 30), (0x15FD, 111), (0x15FE, 138), (0x15FF, 18), (0x101020, 5), (0x101024, 255), (0x101025, 255), (0x101026, 255), (0x101027, 255), (0x101030, 100), (0x10103C, 40), (0x10103D, 28), (0x10103E, 120), (0x10103F, 240), (0x301040, 1), (0x301048, 1), (0x30104C, 5), (0x301054, 40), (0x30107C, 100), (0x30107D, 36), (0x30107E, 183), (0x30107F, 36), (0x301080, 2), (0x301088, 2), (0x30108C, 5), (0x301090, 1), (0x3010BC, 131), (0x3010BD, 13), (0x3010BE, 3), (0x3010BF, 120)] })], strs := [(0, { ring := (some (.prc 0)), clip := { id := 5, prod := 40, exts := [(1, (0, (100, 0)))] }, grants := [{ no := 0, first := 0, cur := 0, stop := 100, ext := 1 }], grantNo := 1, mseq := 1 })], taskNo := 2 } } : State), (0 : Nat), (0 : Nat), ((.prc 0) : RingId), ({ no := 0, first := 0, cur := 0, stop := 100, ext := 1 } : Grant), ([] : List Grant), by decide +kernel⟩,
  ⟨({ regs := [(0x40100020, 0x2000000), (0x46000000, 1), (0x46000108, 410), (0x46000308, 2), (0x46000424, 1)], pwr := { onSince := [] }, rings := [(256, { cons := [{ id := (.stream 0), held := [0] }] })], rm := { mbrs := [(0, { next := 31, subs := 31, uid := 7, linkUp := true, cqs := [(0, 8), (1, 8), (2, 8), (3, 7)], asq := 12 }), (1, { uid := 8, linkUp := true, asq := 12 })], vols := [(0, { layout := 0, su := 4, slots := [{ m := 0, role := 1, pos := 0, gen := 0, uid := 7 }], n := 1, total := 3968, id := 77, sbSeq := 2, jseq := 6, ckpt := 4, area := [(0x1500, 1), (0x150C, 40), (0x1510, 1), (0x1514, 1), (0x1538, 255), (0x1539, 255), (0x153A, 255), (0x153B, 255), (0x153C, 255), (0x153D, 255), (0x153E, 255), (0x153F, 255), (0x15FC, 30), (0x15FD, 111), (0x15FE, 138), (0x15FF, 18), (0x101020, 5), (0x101024, 255), (0x101025, 255), (0x101026, 255), (0x101027, 255), (0x101028, 7), (0x101030, 93), (0x10103C, 46), (0x10103D, 182), (0x10103E, 188), (0x10103F, 152), (0x301040, 1), (0x301048, 1), (0x30104C, 5), (0x301054, 40), (0x30107C, 100), (0x30107D, 36), (0x30107E, 183), (0x30107F, 36), (0x301080, 2), (0x301088, 2), (0x30108C, 5), (0x301090, 1), (0x3010BC, 131), (0x3010BD, 13), (0x3010BE, 3), (0x3010BF, 120), (0x3010C0, 3), (0x3010C8, 3), (0x3010CC, 5), (0x3010D0, 2), (0x3010D4, 6), (0x3010FC, 183), (0x3010FD, 86), (0x3010FE, 29), (0x3010FF, 240), (0x301100, 4), (0x301108, 6), (0x30113C, 217), (0x30113D, 177), (0x30113E, 101), (0x30113F, 54), (0x301140, 5), (0x301148, 1), (0x30114C, 5), (0x301154, 40), (0x30117C, 218), (0x30117D, 18), (0x30117E, 27), (0x30117F, 185), (0x301180, 6), (0x301188, 2), (0x30118C, 5), (0x301190, 1), (0x301198, 7), (0x3011BC, 84), (0x3011BD, 24), (0x3011BE, 31), (0x3011BF, 185)] })], strs := [(0, { ring := (some (.prc 0)), clip := { id := 5, prod := 40, exts := [(1, (7, (93, 0)))] }, grantNo := 2, mseq := 6 })], taskNo := 8 } } : State), (0 : Nat), (0 : Nat), ((.prc 0) : RingId), by decide +kernel⟩,
  ⟨({ regs := [(0x40100020, 0x2000000), (0x46000014, 1), (0x46000424, 5)], pwr := { onSince := [] }, rm := { mbrs := [(0, { next := 11, subs := 11, uid := 7, linkUp := true, cqs := [(0, 3), (1, 3), (2, 3), (3, 2)], asq := 12 }), (1, { uid := 8, linkUp := true, asq := 12 })], vols := [(0, { layout := 0, su := 4, slots := [{ m := 0, role := 1, pos := 0, gen := 0, uid := 7 }], n := 1, total := 3968, id := 77, sbSeq := 1, jseq := 2, area := [(0x1500, 1), (0x150C, 40), (0x1510, 1), (0x1514, 1), (0x1538, 255), (0x1539, 255), (0x153A, 255), (0x153B, 255), (0x153C, 255), (0x153D, 255), (0x153E, 255), (0x153F, 255), (0x15FC, 30), (0x15FD, 111), (0x15FE, 138), (0x15FF, 18), (0x101020, 5), (0x101024, 255), (0x101025, 255), (0x101026, 255), (0x101027, 255), (0x101030, 100), (0x10103C, 40), (0x10103D, 28), (0x10103E, 120), (0x10103F, 240), (0x301040, 1), (0x301048, 1), (0x30104C, 5), (0x301054, 40), (0x30107C, 100), (0x30107D, 36), (0x30107E, 183), (0x30107F, 36), (0x301080, 2), (0x301088, 2), (0x30108C, 5), (0x301090, 1), (0x3010BC, 131), (0x3010BD, 13), (0x3010BE, 3), (0x3010BF, 120)] })], strs := [(0, { ring := (some (.prc 0)), clip := { id := 5, prod := 40, exts := [(1, (0, (100, 0)))] }, taken := 1, entries := [[0, 0, 0, 0, 0, 0, 0, 0, 16, 39, 0, 0, 3, 0, 0, 0, 0, 0, 0, 0, 0, 0, 0, 0, 0, 0, 0, 0, 46, 202, 59, 77]], grants := [{ no := 0, first := 0, cur := 3, stop := 100, ext := 1 }], grantNo := 1, flights := [{ no := 0, index := false, vbn := 0, blocks := 3, bytes := 0x2710, entry := [0, 0, 0, 0, 0, 0, 0, 0, 16, 39, 0, 0, 3, 0, 0, 0, 0, 0, 0, 0, 0, 0, 0, 0, 0, 0, 0, 0, 46, 202, 59, 77], info := { pfn := 3, width := 64, height := 64 }, before := [{ no := 0, first := 0, cur := 0, stop := 100, ext := 1 }], issued := true }], no := 1, mseq := 1 })], taskNo := 2 } } : State), (0 : Nat), ((.prc 0) : RingId), ({ no := 0, index := false, vbn := 0, blocks := 3, bytes := 0x2710, entry := [0, 0, 0, 0, 0, 0, 0, 0, 16, 39, 0, 0, 3, 0, 0, 0, 0, 0, 0, 0, 0, 0, 0, 0, 0, 0, 0, 0, 46, 202, 59, 77], info := { pfn := 3, width := 64, height := 64 }, before := [{ no := 0, first := 0, cur := 0, stop := 100, ext := 1 }], issued := true } : Flight), ([] : List Flight), by decide +kernel⟩,
  ⟨({ regs := [(0x40100020, 0x2000000), (0x46000424, 5)], pwr := { onSince := [] }, rm := { mbrs := [(0, { cmds := [{ cid := 10, op := (.write 1024 3 []), owner := (.flight 0 0), due := 0x746A528800, pair := 2 }], next := 11, subs := 11, uid := 7, linkUp := true, cqs := [(0, 3), (1, 3), (2, 2), (3, 2)], asq := 12 }), (1, { uid := 8, linkUp := true, asq := 12 })], vols := [(0, { layout := 0, su := 4, slots := [{ m := 0, role := 1, pos := 0, gen := 0, uid := 7 }], n := 1, total := 3968, id := 77, sbSeq := 1, jseq := 2, area := [(0x1500, 1), (0x150C, 40), (0x1510, 1), (0x1514, 1), (0x1538, 255), (0x1539, 255), (0x153A, 255), (0x153B, 255), (0x153C, 255), (0x153D, 255), (0x153E, 255), (0x153F, 255), (0x15FC, 30), (0x15FD, 111), (0x15FE, 138), (0x15FF, 18), (0x101020, 5), (0x101024, 255), (0x101025, 255), (0x101026, 255), (0x101027, 255), (0x101030, 100), (0x10103C, 40), (0x10103D, 28), (0x10103E, 120), (0x10103F, 240), (0x301040, 1), (0x301048, 1), (0x30104C, 5), (0x301054, 40), (0x30107C, 100), (0x30107D, 36), (0x30107E, 183), (0x30107F, 36), (0x301080, 2), (0x301088, 2), (0x30108C, 5), (0x301090, 1), (0x3010BC, 131), (0x3010BD, 13), (0x3010BE, 3), (0x3010BF, 120)] })], strs := [(0, { ring := (some (.prc 0)), clip := { id := 5, prod := 40, exts := [(1, (0, (100, 0)))] }, taken := 1, entries := [[0, 0, 0, 0, 0, 0, 0, 0, 16, 39, 0, 0, 3, 0, 0, 0, 0, 0, 0, 0, 0, 0, 0, 0, 0, 0, 0, 0, 46, 202, 59, 77]], grants := [{ no := 0, first := 0, cur := 3, stop := 100, ext := 1 }], grantNo := 1, flights := [{ no := 0, index := false, vbn := 0, blocks := 3, bytes := 0x2710, entry := [0, 0, 0, 0, 0, 0, 0, 0, 16, 39, 0, 0, 3, 0, 0, 0, 0, 0, 0, 0, 0, 0, 0, 0, 0, 0, 0, 0, 46, 202, 59, 77], info := { pfn := 3, width := 64, height := 64 }, before := [{ no := 0, first := 0, cur := 0, stop := 100, ext := 1 }], issued := true, left := 1 }], no := 1, mseq := 1 })], taskNo := 2 } } : State), (.cc0 : Requester), (0 : Nat), (0 : Word), by decide +kernel⟩,
  ⟨({ regs := [(0x40100020, 0x2000000), (0x46000424, 5)], rm := { mbrs := [(0, { cmds := [{ cid := 6, op := (.write 769 1 [(64, 1), (72, 1), (76, 5), (84, 40), (124, 100), (125, 36), (126, 183), (127, 36)]), owner := (.task 1), due := 0x746A528800, pair := 2 }, { cid := 7, op := (.write 769 1 [(64, 1), (72, 1), (76, 5), (84, 40), (124, 100), (125, 36), (126, 183), (127, 36), (128, 2), (136, 2), (140, 5), (144, 1), (188, 131), (189, 13), (190, 3), (191, 120)]), owner := (.task 1), due := 0x746A528800, pair := 3 }], next := 8, subs := 8, uid := 7, linkUp := true, cqs := [(0, 2), (1, 2), (2, 1), (3, 1)], asq := 12 }), (1, { uid := 8, linkUp := true, asq := 12 })], vols := [(0, { layout := 0, su := 4, slots := [{ m := 0, role := 1, pos := 0, gen := 0, uid := 7 }], n := 1, total := 3968, id := 77, sbSeq := 1, jseq := 2, area := [(0x301040, 1), (0x301048, 1), (0x30104C, 5), (0x301054, 40), (0x30107C, 100), (0x30107D, 36), (0x30107E, 183), (0x30107F, 36), (0x301080, 2), (0x301088, 2), (0x30108C, 5), (0x301090, 1), (0x3010BC, 131), (0x3010BD, 13), (0x3010BE, 3), (0x3010BF, 120)] })], strs := [(0, { ring := (some (.prc 0)), clip := { id := 5, prod := 40, exts := [(1, (0, (100, 0)))] }, grants := [{ no := 0, first := 0, cur := 0, stop := 100, ext := 1 }], grantNo := 1, mseq := 1 })], tasks := [(1, { vol := 0, phases := [[(.put 0x1500 [1, 0, 0, 0, 0, 0, 0, 0, 0, 0, 0, 0, 40, 0, 0, 0, 1, 0, 0, 0, 1, 0, 0, 0, 0, 0, 0, 0, 0, 0, 0, 0, 0, 0, 0, 0, 0, 0, 0, 0, 0, 0, 0, 0, 0, 0, 0, 0, 0, 0, 0, 0, 0, 0, 0, 0, 255, 255, 255, 255, 255, 255, 255, 255, 0, 0, 0, 0, 0, 0, 0, 0, 0, 0, 0, 0, 0, 0, 0, 0, 0, 0, 0, 0, 0, 0, 0, 0, 0, 0, 0, 0, 0, 0, 0, 0, 0, 0, 0, 0, 0, 0, 0, 0, 0, 0, 0, 0, 0, 0, 0, 0, 0, 0, 0, 0, 0, 0, 0, 0, 0, 0, 0, 0, 0, 0, 0, 0, 0, 0, 0, 0, 0, 0, 0, 0, 0, 0, 0, 0, 0, 0, 0, 0, 0, 0, 0, 0, 0, 0, 0, 0, 0, 0, 0, 0, 0, 0, 0, 0, 0, 0, 0, 0, 0, 0, 0, 0, 0, 0, 0, 0, 0, 0, 0, 0, 0, 0, 0, 0, 0, 0, 0, 0, 0, 0, 0, 0, 0, 0, 0, 0, 0, 0, 0, 0, 0, 0, 0, 0, 0, 0, 0, 0, 0, 0, 0, 0, 0, 0, 0, 0, 0, 0, 0, 0, 0, 0, 0, 0, 0, 0, 0, 0, 0, 0, 0, 0, 0, 0, 0, 0, 0, 0, 0, 0, 0, 0, 0, 0, 0, 0, 0, 0, 0, 0, 0, 0, 0, 0, 0, 0, 30, 111, 138, 18]), (.put 0x101020 [5, 0, 0, 0, 255, 255, 255, 255, 0, 0, 0, 0, 0, 0, 0, 0, 100, 0, 0, 0, 0, 0, 0, 0, 0, 0, 0, 0, 40, 28, 120, 240])]], left := 2, fin := (.opened 0), base := (some 0) })], taskNo := 2 } } : State), (.cc0 : Requester), (0 : Nat), (0 : Word), ({ no := 0, first := 0, cur := 0, stop := 100, ext := 1 } : Grant), ([] : List Grant), by decide +kernel⟩,
  ⟨({ regs := [(0x40100020, 0x7FFFFFFF)], rm := { mbrs := [(0, { next := 16, subs := 16, uid := 7, linkUp := true, cqs := [(0, 4), (1, 4), (2, 4), (3, 4)], asq := 12 }), (1, { uid := 8, linkUp := true, asq := 12 })], vols := [(0, { layout := 0, su := 4, slots := [{ m := 0, role := 1, pos := 0, gen := 0, uid := 7 }], n := 1, total := 3968, id := 77, sbSeq := 1, jseq := 3, area := [(0x1500, 2), (0x150C, 40), (0x150E, 64), (0x1510, 1), (0x1514, 1), (0x1518, 2), (0x151C, 3), (0x1520, 3), (0x1538, 6), (0x15FC, 12), (0x15FD, 181), (0x15FE, 105), (0x15FF, 81), (0x101020, 5), (0x101024, 255), (0x101025, 255), (0x101026, 255), (0x101027, 255), (0x101030, 100), (0x101034, 7), (0x10103C, 49), (0x10103D, 21), (0x10103E, 189), (0x10103F, 250), (0x301040, 1), (0x301048, 1), (0x30104C, 5), (0x301054, 40), (0x30107C, 100), (0x30107D, 36), (0x30107E, 183), (0x30107F, 36), (0x301080, 2), (0x301088, 2), (0x30108C, 5), (0x301090, 1), (0x3010BC, 131), (0x3010BD, 13), (0x3010BE, 3), (0x3010BF, 120), (0x3010C0, 3), (0x3010C8, 3), (0x3010CC, 5), (0x3010D0, 2), (0x3010D4, 6), (0x3010FC, 183), (0x3010FD, 86), (0x3010FE, 29), (0x3010FF, 240)] })], strs := [(0, { ring := (some (.prc 0)), clip := { id := 5, prod := 40, fmt := 64, exts := [(1, (0, (100, 7)))], frames := 2, first := (some { pfn := 3, width := 64, height := 64 }), last := (some (3, 0)), lastIdx := (some 6), nIdx := 1 }, taken := 2, idxs := 1, prevIdx := (some 6), grants := [{ no := 0, first := 0, cur := 7, stop := 100, ext := 1 }], grantNo := 1, no := 3, stage := 3, mseq := 5 })], taskNo := 3 } } : State), (0 : Nat), ((.prc 0) : RingId), by decide +kernel⟩,
  ⟨({ regs := [(0x40100020, 0x2000000), (0x46000424, 3)], rm := { mbrs := [(0, { next := 10, subs := 10, uid := 7, linkUp := true, cqs := [(0, 3), (1, 3), (2, 2), (3, 2)], asq := 12 }), (1, { uid := 8, linkUp := true, asq := 12 })], vols := [(0, { layout := 0, su := 4, slots := [{ m := 0, role := 1, pos := 0, gen := 0, uid := 7 }], n := 1, total := 3968, id := 77, sbSeq := 1, jseq := 2, area := [(0x1500, 1), (0x150C, 40), (0x1510, 1), (0x1514, 1), (0x1538, 255), (0x1539, 255), (0x153A, 255), (0x153B, 255), (0x153C, 255), (0x153D, 255), (0x153E, 255), (0x153F, 255), (0x15FC, 30), (0x15FD, 111), (0x15FE, 138), (0x15FF, 18), (0x101020, 5), (0x101024, 255), (0x101025, 255), (0x101026, 255), (0x101027, 255), (0x101030, 100), (0x10103C, 40), (0x10103D, 28), (0x10103E, 120), (0x10103F, 240), (0x301040, 1), (0x301048, 1), (0x30104C, 5), (0x301054, 40), (0x30107C, 100), (0x30107D, 36), (0x30107E, 183), (0x30107F, 36), (0x301080, 2), (0x301088, 2), (0x30108C, 5), (0x301090, 1), (0x3010BC, 131), (0x3010BD, 13), (0x3010BE, 3), (0x3010BF, 120)] })], strs := [(0, { ring := (some (.prc 0)), clip := { id := 5, flags := 0x1060, link := 9, prod := 40, exts := [(1, (0, (100, 0)))] }, grants := [{ no := 0, first := 0, cur := 0, stop := 100, ext := 1 }], grantNo := 1, next := (some { id := 9, flags := 16, link := 5, prod := 40 }), mseq := 1 })], taskNo := 2 } } : State), (0 : Nat), ({ id := 9, flags := 16, link := 5, prod := 40 } : ClipSt), ({ no := 0, first := 0, cur := 0, stop := 100, ext := 1 } : Grant), ([] : List Grant), by decide +kernel⟩⟩

theorem met_EndpointLinkAndQueues :
  (∃ (s : State) (sp w : Nat),
    s.domOn dOEP = true ∧
    s.b OEP_CTRL_en = true ∧
    s.b OEP_STATUS_link_up = false ∧
    (w = 1 ∨ w = 2 ∨ w = 4 ∨ w = 8) ∧
    sp < 8) ∧
  (∃ (s : State),
    s.domOn dOEP = true ∧
    s.b OEP_STATUS_link_up = true ∧
    s.oep.drain = none) ∧
  (∃ (s : State) (a b : Nat),
    2 ≤ a ∧
    a ≤ 4096 ∧
    2 ≤ b ∧
    b ≤ 4096 ∧
    s.domOn dOEP = true ∧
    s.b OEP_STATUS_link_up = true ∧
    s.b OEP_STATUS_cc_en = false ∧
    s.oep.drain = none) ∧
  (∃ (s : State) (c : CtrlResetCause),
    s.domOn dOEP = true ∧
    s.b OEP_STATUS_cc_en = true ∧
    s.oep.drain = none ∧
    (s.oep.cmds.map (·.id)).Nodup) ∧
  (∃ (s : State) (c : Nat),
    s.domOn dOEP = true ∧
    s.oep.drain = some c ∧
    s.oep.cmds = []) ∧
  (∃ (s : State) (q n : Nat) (x : SqSt),
    look s.oep.sqs q = some x ∧
    n < x.size ∧
    x.dying = none) ∧
  (∃ (s : State) (q n : Nat) (x : CqSt),
    look s.oep.cqs q = some x ∧
    n < x.size) ∧
  (∃ (s : State) (q : Nat) (e : Sqe) (x : SqSt) (z : Option OepError),
    s.domOn dOEP = true ∧
    s.b OEP_STATUS_rdy = true ∧
    s.oep.drain = none ∧
    s.oep.shst = 0 ∧
    s.err.slots = [] ∧
    s.sqTurn = some q ∧
    look s.oep.sqs q = some x ∧
    hasRoom s q = true ∧
    e.cid < 65536 ∧
    noneDying s = true ∧
    (s.oep.cmds.all (fun y => y.id != s.oep.no) && s.oep.locks.all (fun a => a.owner != .host s.oep.no)) = true) :=
  ⟨⟨({ regs := [(0x40100020, 0x4000000), (0x46100000, 1)], pwr := { onSince := [] } } : State), (1 : Nat), (1 : Nat), by decide +kernel⟩,
  ⟨({ regs := [(0x40100020, 0x4000000), (0x46100004, 225)] } : State), by decide +kernel⟩,
  ⟨({ regs := [(0x40100020, 0x4000000), (0x46100004, 225)] } : State), (32 : Nat), (32 : Nat), by decide +kernel⟩,
  ⟨({ regs := [(0x40100020, 0x4000000), (0x46100004, 114)], pwr := { onSince := [] } } : State), (.ccEn : CtrlResetCause), by decide +kernel⟩,
  ⟨({ regs := [(0x40100020, 0x7FFFFFFF)], oep := { shst := 1, drain := (some 2), sqs := [(0, { size := 32, cq := 0, base := 0, head := 30, tail := 30 })], cqs := [(0, { size := 32, vec := 0, base := 0, head := 3, tail := 26 })], no := 35, turn := 1, aers := [(0, 1), (0, 2), (0, 3), (0, 4)], notes := [6], feats := [(11, 258)], errNo := 15 } } : State), (2 : Nat), by decide +kernel⟩,
  ⟨({ pwr := { onSince := [] }, oep := { sqs := [(0, { size := 32, cq := 0, base := 0 })], cqs := [(0, { size := 32, vec := 0, base := 0 })] } } : State), (0 : Nat), (0 : Nat), ({ size := 32, cq := 0, base := 0 } : SqSt), by decide +kernel⟩,
  ⟨({ pwr := { onSince := [] }, oep := { sqs := [(0, { size := 32, cq := 0, base := 0 })], cqs := [(0, { size := 32, vec := 0, base := 0 })] } } : State), (0 : Nat), (0 : Nat), ({ size := 32, vec := 0, base := 0 } : CqSt), by decide +kernel⟩,
  ⟨({ regs := [(0x40100020, 0x4000000), (0x46100004, 228)], oep := { sqs := [(0, { size := 32, cq := 0, base := 0, tail := 5 })], cqs := [(0, { size := 32, vec := 0, base := 0 })] } } : State), (0 : Nat), ({ opcode := 6, fused := 0, psdt := 0, cid := 3, nsid := 1, prp1 := 0x5000, prp2 := 0, cdw10 := 1, cdw11 := 0, cdw12 := 0, data := [] } : Sqe), ({ size := 32, cq := 0, base := 0, tail := 5 } : SqSt), (none : Option OepError), by decide +kernel⟩⟩

theorem met_EndpointAdminCommands :
  (∃ (s : State) (q cid : Nat) (c : HostCmd),
    Fetched true q cid 0x06 c s ∧
    s.mc.fills = [] ∧
    s.mc.reread = [] ∧
    let n := c.e.cdw10.toNat % 256
  let names := s.pair OEP_IDENT_LO OEP_IDENT_HI
  (n = 1 → s.memAnswers names 68 false = true)) ∧
  (∃ (s : State) (q cid : Nat) (c : HostCmd),
    Fetched true q cid 0x02 c s ∧
    s.mc.fills = [] ∧
    s.mc.reread = []) ∧
  (∃ (s : State) (q cid : Nat) (c : HostCmd),
    Fetched true q cid 0x05 c s) ∧
  (∃ (s : State) (q cid : Nat) (c : HostCmd),
    Fetched true q cid 0x04 c s ∧
    let id := c.e.cdw10.toNat % 65536
  1 ≤ id ∧
    (look s.oep.cqs id).isSome = true) ∧
  (∃ (s : State) (q cid : Nat) (c : HostCmd),
    Fetched true q cid 0x01 c s) ∧
  (∃ (s : State) (q cid : Nat) (c : HostCmd) (x : SqSt),
    Fetched true q cid 0x00 c s ∧
    (s.oep.cmds.map (·.id)).Nodup ∧
    let id := c.e.cdw10.toNat % 65536
  let idle (y : HostCmd) : Bool := y.stage == .fetched || y.stage == .lock || y.stage == .slot
  1 ≤ id ∧
    look s.oep.sqs id = some x) ∧
  (∃ (s : State) (q cid : Nat) (c : HostCmd),
    Fetched true q cid 0x08 c s) ∧
  (∃ (s : State) (q cid : Nat) (c : HostCmd),
    Fetched true q cid 0x0A c s ∧
    (s.oep.feats.all (fun e => e.2 < 2 ^ 32)) = true) ∧
  (∃ (s : State) (q cid : Nat) (c : HostCmd),
    Fetched true q cid 0x09 c s ∧
    s.oep.aers = []) ∧
  (∃ (s : State) (q cid : Nat) (c : HostCmd),
    Fetched true q cid 0x0C c s ∧
    (s.oep.notes.all (· < 2 ^ 32)) = true) :=
  ⟨⟨({ regs := [(0x40100020, 0x7FFFFFFF)], oep := { sqs := [(0, { size := 32, cq := 0, base := 0, head := 1, tail := 1 })], cqs := [(0, { size := 32, vec := 0, base := 0 })], cmds := [{ id := 0, q := 0, e := { opcode := 6, fused := 0, psdt := 0, cid := 1, nsid := 1, prp1 := 0x5000, prp2 := 0, cdw10 := 1, cdw11 := 0, cdw12 := 0, data := [] } }], no := 1, turn := 1 } } : State), (0 : Nat), (1 : Nat), ({ id := 0, q := 0, e := { opcode := 6, fused := 0, psdt := 0, cid := 1, nsid := 1, prp1 := 0x5000, prp2 := 0, cdw10 := 1, cdw11 := 0, cdw12 := 0, data := [] } } : HostCmd), by decide +kernel⟩,
  ⟨({ regs := [(0x40100020, 0x7FFFFFFF)], oep := { sqs := [(0, { size := 32, cq := 0, base := 0, head := 6, tail := 6 })], cqs := [(0, { size := 32, vec := 0, base := 0, tail := 5 })], cmds := [{ id := 5, q := 0, e := { opcode := 2, fused := 0, psdt := 0, cid := 6, nsid := 0, prp1 := 0x5000, prp2 := 0, cdw10 := 0x1000C0, cdw11 := 0, cdw12 := 0, data := [] } }], no := 6, turn := 1, errNo := 2 } } : State), (0 : Nat), (6 : Nat), ({ id := 5, q := 0, e := { opcode := 2, fused := 0, psdt := 0, cid := 6, nsid := 0, prp1 := 0x5000, prp2 := 0, cdw10 := 0x1000C0, cdw11 := 0, cdw12 := 0, data := [] } } : HostCmd), by decide +kernel⟩,
  ⟨({ regs := [(0x40100020, 0x7FFFFFFF)], oep := { sqs := [(0, { size := 32, cq := 0, base := 0, head := 8, tail := 8 })], cqs := [(0, { size := 32, vec := 0, base := 0, tail := 7 })], cmds := [{ id := 7, q := 0, e := { opcode := 5, fused := 0, psdt := 0, cid := 8, nsid := 0, prp1 := 0x5000, prp2 := 0, cdw10 := 0x3F0001, cdw11 := 0x10003, cdw12 := 0, data := [] } }], no := 8, turn := 1, errNo := 3 } } : State), (0 : Nat), (8 : Nat), ({ id := 7, q := 0, e := { opcode := 5, fused := 0, psdt := 0, cid := 8, nsid := 0, prp1 := 0x5000, prp2 := 0, cdw10 := 0x3F0001, cdw11 := 0x10003, cdw12 := 0, data := [] } } : HostCmd), by decide +kernel⟩,
  ⟨({ regs := [(0x40100020, 0x7FFFFFFF)], oep := { sqs := [(0, { size := 32, cq := 0, base := 0, head := 12, tail := 12 }), (1, { size := 64, cq := 1, base := 0x5000 })], cqs := [(0, { size := 32, vec := 0, base := 0, tail := 11 }), (1, { size := 64, vec := 1, base := 0x5000 })], cmds := [{ id := 11, q := 0, e := { opcode := 4, fused := 0, psdt := 0, cid := 12, nsid := 0, prp1 := 0x5000, prp2 := 0, cdw10 := 1, cdw11 := 0, cdw12 := 0, data := [] } }], no := 12, turn := 1, errNo := 5 } } : State), (0 : Nat), (12 : Nat), ({ id := 11, q := 0, e := { opcode := 4, fused := 0, psdt := 0, cid := 12, nsid := 0, prp1 := 0x5000, prp2 := 0, cdw10 := 1, cdw11 := 0, cdw12 := 0, data := [] } } : HostCmd), by decide +kernel⟩,
  ⟨({ regs := [(0x40100020, 0x7FFFFFFF)], oep := { sqs := [(0, { size := 32, cq := 0, base := 0, head := 10, tail := 10 })], cqs := [(0, { size := 32, vec := 0, base := 0, tail := 9 }), (1, { size := 64, vec := 1, base := 0x5000 })], cmds := [{ id := 9, q := 0, e := { opcode := 1, fused := 0, psdt := 0, cid := 10, nsid := 0, prp1 := 0x5000, prp2 := 0, cdw10 := 0x3F0001, cdw11 := 0x10001, cdw12 := 0, data := [] } }], no := 10, turn := 1, errNo := 4 } } : State), (0 : Nat), (10 : Nat), ({ id := 9, q := 0, e := { opcode := 1, fused := 0, psdt := 0, cid := 10, nsid := 0, prp1 := 0x5000, prp2 := 0, cdw10 := 0x3F0001, cdw11 := 0x10001, cdw12 := 0, data := [] } } : HostCmd), by decide +kernel⟩,
  ⟨({ regs := [(0x40100020, 0x7FFFFFFF)], oep := { aqa := 0x1F001F, sqs := [(0, { size := 32, cq := 0, base := 0, head := 24, tail := 24 }), (1, { size := 64, cq := 1, base := 0x5000, head := 5, tail := 5 })], cqs := [(0, { size := 32, vec := 0, base := 0, tail := 22 }), (1, { size := 64, vec := 1, base := 0x5000, tail := 4 })], cmds := [{ id := 27, q := 1, e := { opcode := 2, fused := 0, psdt := 0, cid := 25, nsid := 1, prp1 := 0x5000, prp2 := 0, cdw10 := 0, cdw11 := 0, cdw12 := 0, data := [] } }, { id := 28, q := 0, e := { opcode := 0, fused := 0, psdt := 0, cid := 26, nsid := 0, prp1 := 0x5000, prp2 := 0, cdw10 := 1, cdw11 := 0, cdw12 := 0, data := [] } }], no := 29, turn := 1, aers := [(0, 1), (0, 2), (0, 3), (0, 4)], notes := [6], feats := [(11, 258)], errs := [(13, (1, (24, (11, (0, 1))))), (12, (1, (23, (11, (0, 1))))), (11, (0, (21, (261, (0, 0))))), (10, (0, (18, (2, (0, 0))))), (9, (0, (18, (269, (0, 0))))), (8, (0, (17, (2, (0, 0))))), (7, (1, (13, (7, (5, 1))))), (6, (0, (12, (268, (0, 0))))), (5, (0, (11, (256, (0, 0))))), (4, (0, (9, (257, (0, 0))))), (3, (0, (7, (265, (0, 0))))), (2, (0, (5, (2, (0, 9))))), (1, (0, (4, (11, (0, 9)))))], errNo := 13 } } : State), (0 : Nat), (26 : Nat), ({ id := 28, q := 0, e := { opcode := 0, fused := 0, psdt := 0, cid := 26, nsid := 0, prp1 := 0x5000, prp2 := 0, cdw10 := 1, cdw11 := 0, cdw12 := 0, data := [] } } : HostCmd), ({ size := 64, cq := 1, base := 0x5000, head := 5, tail := 5 } : SqSt), by decide +kernel⟩,
  ⟨({ regs := [(0x40100020, 0x7FFFFFFF)], oep := { sqs := [(0, { size := 32, cq := 0, base := 0, head := 13, tail := 13 }), (1, { size := 64, cq := 1, base := 0x5000, head := 1, tail := 1 })], cqs := [(0, { size := 32, vec := 0, base := 0, tail := 12 }), (1, { size := 64, vec := 1, base := 0x5000 })], cmds := [{ id := 12, q := 1, e := { opcode := 2, fused := 0, psdt := 0, cid := 13, nsid := 1, prp1 := 0x5000, prp2 := 0, cdw10 := 5, cdw11 := 0, cdw12 := 3, data := [] } }, { id := 13, q := 0, e := { opcode := 8, fused := 0, psdt := 0, cid := 14, nsid := 0, prp1 := 0x5000, prp2 := 0, cdw10 := 0xD0001, cdw11 := 0, cdw12 := 0, data := [] } }], no := 14, turn := 1, errNo := 6 } } : State), (0 : Nat), (14 : Nat), ({ id := 13, q := 0, e := { opcode := 8, fused := 0, psdt := 0, cid := 14, nsid := 0, prp1 := 0x5000, prp2 := 0, cdw10 := 0xD0001, cdw11 := 0, cdw12 := 0, data := [] } } : HostCmd), by decide +kernel⟩,
  ⟨({ regs := [(0x40100020, 0x7FFFFFFF)], oep := { sqs := [(0, { size := 32, cq := 0, base := 0, head := 15, tail := 15 }), (1, { size := 64, cq := 1, base := 0x5000, head := 1, tail := 1 })], cqs := [(0, { size := 32, vec := 0, base := 0, tail := 14 }), (1, { size := 64, vec := 1, base := 0x5000, tail := 1 })], cmds := [{ id := 15, q := 0, e := { opcode := 10, fused := 0, psdt := 0, cid := 16, nsid := 0, prp1 := 0x5000, prp2 := 0, cdw10 := 4, cdw11 := 0, cdw12 := 0, data := [] } }], no := 16, turn := 1, errNo := 7 } } : State), (0 : Nat), (16 : Nat), ({ id := 15, q := 0, e := { opcode := 10, fused := 0, psdt := 0, cid := 16, nsid := 0, prp1 := 0x5000, prp2 := 0, cdw10 := 4, cdw11 := 0, cdw12 := 0, data := [] } } : HostCmd), by decide +kernel⟩,
  ⟨({ regs := [(0x40100020, 0x7FFFFFFF)], oep := { sqs := [(0, { size := 32, cq := 0, base := 0, head := 17, tail := 17 }), (1, { size := 64, cq := 1, base := 0x5000, head := 1, tail := 1 })], cqs := [(0, { size := 32, vec := 0, base := 0, tail := 16 }), (1, { size := 64, vec := 1, base := 0x5000, tail := 1 })], cmds := [{ id := 17, q := 0, e := { opcode := 9, fused := 0, psdt := 0, cid := 18, nsid := 0, prp1 := 0x5000, prp2 := 0, cdw10 := 11, cdw11 := 258, cdw12 := 0, data := [] } }], no := 18, turn := 1, errNo := 8 } } : State), (0 : Nat), (18 : Nat), ({ id := 17, q := 0, e := { opcode := 9, fused := 0, psdt := 0, cid := 18, nsid := 0, prp1 := 0x5000, prp2 := 0, cdw10 := 11, cdw11 := 258, cdw12 := 0, data := [] } } : HostCmd), by decide +kernel⟩,
  ⟨({ regs := [(0x40100020, 0x7FFFFFFF)], oep := { sqs := [(0, { size := 32, cq := 0, base := 0, head := 21, tail := 21 }), (1, { size := 64, cq := 1, base := 0x5000, head := 1, tail := 1 })], cqs := [(0, { size := 32, vec := 0, base := 0, tail := 20 }), (1, { size := 64, vec := 1, base := 0x5000, tail := 1 })], cmds := [{ id := 21, q := 0, e := { opcode := 12, fused := 0, psdt := 0, cid := 19, nsid := 0, prp1 := 0x5000, prp2 := 0, cdw10 := 0, cdw11 := 0, cdw12 := 0, data := [] } }], no := 22, turn := 1, feats := [(11, 258)], errNo := 10 } } : State), (0 : Nat), (19 : Nat), ({ id := 21, q := 0, e := { opcode := 12, fused := 0, psdt := 0, cid := 19, nsid := 0, prp1 := 0x5000, prp2 := 0, cdw10 := 0, cdw11 := 0, cdw12 := 0, data := [] } } : HostCmd), by decide +kernel⟩⟩

theorem met_EndpointIoCommands :
  (∀ e ∈ ioOps, Fetched false 1 2 e.2 (ioCmdAt e.2) (ioAt e.2 true) ∧ (ioAt e.2 true).nsLive 0 = true ∧
    (sqeRange (ioCmdAt e.2).e).2 ≤ 256 ∧ (ioAt e.2 true).oep.locks = [] ∧ (ioAt e.2 true).mc.fills = []) ∧
  (∀ e ∈ ioOps, Fetched false 1 2 e.2 (ioCmdAt e.2) (ioAt e.2 false) ∧ (ioAt e.2 false).nsLive 0 = false) ∧
  (∃ (s : State) (q cid : Nat) (c : HostCmd) (x : VolSt),
    Fetched false q cid 2 c s ∧
    let v := c.e.nsid - 1
  let first := (sqeRange c.e).1
  let n := (sqeRange c.e).2
  1 ≤ c.e.nsid ∧
    c.e.nsid ≤ 4 ∧
    s.nsLive v = true ∧
    n ≤ 256 ∧
    s.oep.locks = [] ∧
    s.mc.fills = [] ∧
    s.mc.reread = [] ∧
    rangeCheck v first n true s = none ∧
    look s.rm.vols v = some x) ∧
  (∃ (s : State) (q cid : Nat) (c : HostCmd) (x : VolSt),
    Fetched false q cid 1 c s ∧
    let v := c.e.nsid - 1
  let first := (sqeRange c.e).1
  let n := (sqeRange c.e).2
  1 ≤ c.e.nsid ∧
    c.e.nsid ≤ 4 ∧
    s.nsLive v = true ∧
    n ≤ 16 ∧
    first / 16 = (first + n - 1) / 16 ∧
    s.oep.locks = [] ∧
    s.oep.slots = [] ∧
    s.mc.fills = [] ∧
    s.mc.reread = [] ∧
    rangeCheck v first n false s = none ∧
    look s.rm.vols v = some x) ∧
  (∃ (s : State) (q cid : Nat) (c : HostCmd),
    Fetched false q cid 0 c s) ∧
  (∃ (s : State) (q cid : Nat) (c : HostCmd),
    Fetched false q cid 9 c s ∧
    1 ≤ c.e.nsid ∧
    c.e.nsid ≤ 4 ∧
    s.nsLive (c.e.nsid - 1) = true ∧
    s.oep.locks = [] ∧
    s.mc.fills = [] ∧
    s.mc.reread = []) ∧
  (∃ (s : State) (i k no : Nat) (a : LockReq),
    s.domOn dOEP = true ∧
    s.nextLock = some i ∧
    s.oep.locks[i]? = some a ∧
    a.owner = .flight k no ∧
    (s.str k).flights.find? (fun f => f.no == no) = none) ∧
  (∃ (s : State) (i j : Nat) (a b : LockReq),
    i ≠ j ∧
    s.oep.locks[i]? = some a ∧
    s.oep.locks[j]? = some b ∧
    a.granted = true ∧
    a.conflicts b = true) ∧
  (∃ (s : State) (v : Nat),
    v < 4 ∧
    s.domOn dOEP = true) ∧
  (∃ (s : State) (v : Nat) (x : VolSt),
    v < 4 ∧
    s.domOn dOEP = true ∧
    s.domOn dRM = true ∧
    s.err.slots = [] ∧
    look s.rm.vols v = some x ∧
    s.b (OEP_NS_STATUS_replaying v) = true ∧
    s.rm.tasks = [] ∧
    s.rm.opens = [] ∧
    (∀ p < 4, s.holders x p = []) ∧
    1 ≤ x.n ∧
    x.n ≤ 4) ∧
  (∃ (s : State) (v m : Nat) (x : VolSt),
    v < 4 ∧
    s.domOn dOEP = true ∧
    s.domOn dRM = true ∧
    s.mc.fills = [] ∧
    s.err.slots = [] ∧
    s.mc.reread = [] ∧
    look s.rm.vols v = some x ∧
    s.b (OEP_NS_STATUS_replaying v) = true ∧
    s.rm.tasks = [] ∧
    s.rm.opens = [] ∧
    x.n = 1 ∧
    s.holders x 0 = [m] ∧
    m < 4 ∧
    x.slots.map (·.m) = [m] ∧
    (s.mbr m).mdts = 0 ∧
    x.su = 12 ∧
    s.slotVbn v 0 % 4096 = 0) :=
  ⟨by decide +kernel,
  by decide +kernel,
  ⟨({ regs := [(0x40100020, 0x4000000), (0x46000108, 410), (0x46000308, 2), (0x46100100, 1), (0x4610010C, 1)], rm := { mbrs := [(0, { next := 23, subs := 23, uid := 7, linkUp := true, cqs := [(0, 6), (1, 6), (2, 6), (3, 5)], asq := 12 }), (1, { uid := 8, linkUp := true, asq := 12 })], vols := [(0, { layout := 0, su := 4, slots := [{ m := 0, role := 1, pos := 0, gen := 0, uid := 7 }], n := 1, total := 3968, id := 77, sbSeq := 1, shown := true })], taskNo := 3 }, oep := { sqs := [(0, { size := 32, cq := 0, base := 0, head := 2, tail := 2 }), (1, { size := 64, cq := 1, base := 0x5000, head := 1, tail := 1 })], cqs := [(0, { size := 32, vec := 0, base := 0, tail := 2 }), (1, { size := 64, vec := 1, base := 0x5000 })], cmds := [{ id := 2, q := 1, e := { opcode := 2, fused := 0, psdt := 0, cid := 1, nsid := 1, prp1 := 0x5000, prp2 := 0, cdw10 := 320, cdw11 := 0, cdw12 := 7, data := [] } }], no := 3, turn := 2, seqs := [(0, 0)] } } : State), (1 : Nat), (1 : Nat), ({ id := 2, q := 1, e := { opcode := 2, fused := 0, psdt := 0, cid := 1, nsid := 1, prp1 := 0x5000, prp2 := 0, cdw10 := 320, cdw11 := 0, cdw12 := 7, data := [] } } : HostCmd), ({ layout := 0, su := 4, slots := [{ m := 0, role := 1, pos := 0, gen := 0, uid := 7 }], n := 1, total := 3968, id := 77, sbSeq := 1, shown := true } : VolSt), by decide +kernel⟩,
  ⟨({ regs := [(0x40100020, 0x4000000), (0x46000108, 410), (0x46000308, 2), (0x46100100, 3), (0x4610010C, 1)], rm := { mbrs := [(0, { next := 24, subs := 24, uid := 7, linkUp := true, cqs := [(0, 6), (1, 6), (2, 6), (3, 6)], asq := 12 }), (1, { uid := 8, linkUp := true, asq := 12 })], vols := [(0, { layout := 0, su := 4, slots := [{ m := 0, role := 1, pos := 0, gen := 0, uid := 7 }], n := 1, total := 3968, id := 77, sbSeq := 1, shown := true })], taskNo := 3 }, oep := { sqs := [(0, { size := 32, cq := 0, base := 0, head := 2, tail := 2 }), (1, { size := 64, cq := 1, base := 0x5000, head := 2, tail := 2 })], cqs := [(0, { size := 32, vec := 0, base := 0, tail := 2 }), (1, { size := 64, vec := 1, base := 0x5000, tail := 1 })], cmds := [{ id := 3, q := 1, e := { opcode := 1, fused := 0, psdt := 0, cid := 2, nsid := 1, prp1 := 0x5000, prp2 := 0, cdw10 := 320, cdw11 := 0, cdw12 := 7, data := [1, 2, 3] } }], no := 4, turn := 2, seqs := [(0, 0)] } } : State), (1 : Nat), (2 : Nat), ({ id := 3, q := 1, e := { opcode := 1, fused := 0, psdt := 0, cid := 2, nsid := 1, prp1 := 0x5000, prp2 := 0, cdw10 := 320, cdw11 := 0, cdw12 := 7, data := [1, 2, 3] } } : HostCmd), ({ layout := 0, su := 4, slots := [{ m := 0, role := 1, pos := 0, gen := 0, uid := 7 }], n := 1, total := 3968, id := 77, sbSeq := 1, shown := true } : VolSt), by decide +kernel⟩,
  ⟨({ regs := [(0x40100020, 0x7FFFFFFF)], oep := { sqs := [(0, { size := 32, cq := 0, base := 0, head := 23, tail := 23 }), (1, { size := 64, cq := 1, base := 0x5000, head := 2, tail := 2 })], cqs := [(0, { size := 32, vec := 0, base := 0, tail := 22 }), (1, { size := 64, vec := 1, base := 0x5000, tail := 1 })], cmds := [{ id := 24, q := 1, e := { opcode := 0, fused := 0, psdt := 0, cid := 22, nsid := 0xFFFFFFFF, prp1 := 0x5000, prp2 := 0, cdw10 := 0, cdw11 := 0, cdw12 := 0, data := [] } }], no := 25, turn := 2, aers := [(0, 1), (0, 2), (0, 3), (0, 4)], notes := [6], feats := [(11, 258)], errNo := 11 } } : State), (1 : Nat), (22 : Nat), ({ id := 24, q := 1, e := { opcode := 0, fused := 0, psdt := 0, cid := 22, nsid := 0xFFFFFFFF, prp1 := 0x5000, prp2 := 0, cdw10 := 0, cdw11 := 0, cdw12 := 0, data := [] } } : HostCmd), by decide +kernel⟩,
  ⟨({ regs := [(0x40100020, 0x4000000), (0x46000308, 2), (0x46100100, 1), (0x4610010C, 1)], pwr := { onSince := [] }, rm := { mbrs := [(0, { next := 33, subs := 33, uid := 7, linkUp := true, cqs := [(0, 9), (1, 8), (2, 8), (3, 8)], asq := 12 }), (1, { uid := 8, linkUp := true, asq := 12 })], vols := [(0, { layout := 0, su := 4, slots := [{ m := 0, role := 1, pos := 0, gen := 0, uid := 7 }], n := 1, total := 3968, id := 77, sbSeq := 1, shown := true })], taskNo := 3 }, oep := { sqs := [(0, { size := 32, cq := 0, base := 0, head := 2, tail := 2 }), (1, { size := 64, cq := 1, base := 0x5000, head := 7, tail := 7 })], cqs := [(0, { size := 32, vec := 0, base := 0, tail := 2 }), (1, { size := 64, vec := 1, base := 0x5000, tail := 6 })], cmds := [{ id := 8, q := 1, e := { opcode := 9, fused := 0, psdt := 0, cid := 7, nsid := 1, prp1 := 0x5000, prp2 := 0, cdw10 := 0, cdw11 := 4, cdw12 := 0, data := [0, 0, 0, 0, 5, 0, 0, 0, 144, 1, 0, 0, 0, 0, 0, 0] } }], no := 9, turn := 2, errNo := 2, seqs := [(0, 1)] } } : State), (1 : Nat), (7 : Nat), ({ id := 8, q := 1, e := { opcode := 9, fused := 0, psdt := 0, cid := 7, nsid := 1, prp1 := 0x5000, prp2 := 0, cdw10 := 0, cdw11 := 4, cdw12 := 0, data := [0, 0, 0, 0, 5, 0, 0, 0, 144, 1, 0, 0, 0, 0, 0, 0] } } : HostCmd), by decide +kernel⟩,
  ⟨({ regs := [(0x40100020, 0x7FFFFFFF)], oep := { sqs := [(0, { size := 32, cq := 0, base := 0, head := 2, tail := 2 }), (1, { size := 64, cq := 1, base := 0x5000, head := 10, tail := 10 })], cqs := [(0, { size := 32, vec := 0, base := 0, tail := 2 }), (1, { size := 64, vec := 1, base := 0x5000, tail := 10 })], no := 12, turn := 2, errNo := 3, locks := [{ owner := (.flight 0 8), vol := 0, first := 0, blocks := 10, excl := true, granted := true }, { owner := (.flight 0 7), vol := 0, first := 0, blocks := 10, excl := true, granted := false }, { owner := (.flight 0 9), vol := 0, first := 50, blocks := 10, excl := true, granted := false }], seqs := [(0, 1)], posted := [(1, (9, [0, 0, 0, 0, 0, 0, 0, 0, 10, 0, 1, 0, 9, 0, 1, 0]))], irqs := [1] } } : State), (2 : Nat), (0 : Nat), (9 : Nat), ({ owner := (.flight 0 9), vol := 0, first := 50, blocks := 10, excl := true, granted := false } : LockReq), by decide +kernel⟩,
  ⟨({ oep := { sqs := [(0, { size := 32, cq := 0, base := 0, head := 2, tail := 2 }), (1, { size := 64, cq := 1, base := 0x5000, head := 10, tail := 10 })], cqs := [(0, { size := 32, vec := 0, base := 0, tail := 2 }), (1, { size := 64, vec := 1, base := 0x5000, tail := 10 })], no := 12, turn := 2, errNo := 3, locks := [{ owner := (.flight 0 8), vol := 0, first := 0, blocks := 10, excl := true, granted := true }, { owner := (.flight 0 7), vol := 0, first := 0, blocks := 10, excl := true, granted := false }, { owner := (.flight 0 9), vol := 0, first := 50, blocks := 10, excl := true, granted := false }], seqs := [(0, 1)], posted := [(1, (9, [0, 0, 0, 0, 0, 0, 0, 0, 10, 0, 1, 0, 9, 0, 1, 0]))], irqs := [1] } } : State), (0 : Nat), (1 : Nat), ({ owner := (.flight 0 8), vol := 0, first := 0, blocks := 10, excl := true, granted := true } : LockReq), ({ owner := (.flight 0 7), vol := 0, first := 0, blocks := 10, excl := true, granted := false } : LockReq), by decide +kernel⟩,
  ⟨({ regs := [(0x40100020, 0x7FFFFFFF)] } : State), (0 : Nat), by decide +kernel⟩,
  ⟨({ regs := [(0x40100020, 0x6000000), (0x4610010C, 2)], pwr := { onSince := [] }, rm := { mbrs := [(0, { next := 8, subs := 8, uid := 7, linkUp := true, cqs := [(0, 2), (1, 2), (2, 2), (3, 2)], asq := 12 })], vols := [(0, { layout := 0, su := 12, slots := [{ m := 0, role := 3, pos := 0, gen := 0, uid := 7 }], n := 1, total := 0xB000, id := 77, sbSeq := 1, shown := true })], taskNo := 3 } } : State), (0 : Nat), ({ layout := 0, su := 12, slots := [{ m := 0, role := 3, pos := 0, gen := 0, uid := 7 }], n := 1, total := 0xB000, id := 77, sbSeq := 1, shown := true } : VolSt), by decide +kernel⟩,
  ⟨({ regs := [(0x40100020, 0x6000000), (0x46000108, 410), (0x4610010C, 2)], rm := { mbrs := [(0, { next := 6, subs := 6, uid := 7, linkUp := true, cqs := [(0, 2), (1, 2), (2, 1), (3, 1)], asq := 12 })], vols := [(0, { layout := 0, su := 12, slots := [{ m := 0, role := 1, pos := 0, gen := 0, uid := 7 }], n := 1, total := 0xB000, id := 77, sbSeq := 1, shown := true })], taskNo := 1 } } : State), (0 : Nat), (0 : Nat), ({ layout := 0, su := 12, slots := [{ m := 0, role := 1, pos := 0, gen := 0, uid := 7 }], n := 1, total := 0xB000, id := 77, sbSeq := 1, shown := true } : VolSt), by decide +kernel⟩⟩

theorem met_ScanOut :
  (∃ (s : State) (r : Requester) (v : Word),
    s.unitOn dSCO = true ∧
    s.b SCO_CTRL_en = false ∧
    bitsOf v.toNat 7 6 < Config.ports s.variant ∧
    s.sco.tim = none) ∧
  (∃ (s : State) (r : Requester) (v : Word),
    s.unitOn dSCO = true ∧
    s.b SCO_CTRL_en = true) ∧
  (∃ (s : State) (r : Requester) (v : Word),
    s.unitOn dSCO = true ∧
    s.b SCO_CTRL_en = true ∧
    (s.rd SCO_CTRL).toNat &&& 0x3FC ≠ v.toNat &&& 0x3FC) ∧
  (∃ (s : State) (r : Requester) (v : Word),
    s.unitOn dSCO = true ∧
    s.b SCO_CTRL_en = true ∧
    (s.rd SCO_CTRL).toNat &&& 0x3FC = v.toNat &&& 0x3FC) ∧
  (∃ (s : State) (k : Tick),
    s.domOn dSCO = true ∧
    s.b SCO_STATUS_running = true ∧
    s.sco.tim = none ∧
    s.sco.stopping = false ∧
    s.scoTick = some k ∧
    Calm s ∧
    scoCfgErr (s.scoTimAt k) k.rate.1 = false ∧
    s.sco.ring = none) ∧
  (∃ (s : State) (k : Tick),
    s.domOn dSCO = true ∧
    s.b SCO_STATUS_running = true ∧
    s.sco.tim = none ∧
    s.sco.stopping = false ∧
    s.scoTick = some k ∧
    Calm s ∧
    scoCfgErr (s.scoTimAt k) k.rate.1 = true) ∧
  (∃ (s : State) (k : Tick) (g : RingId) (b : Nat),
    s.domOn dSCO = true ∧
    s.b SCO_STATUS_running = true ∧
    s.sco.tim = none ∧
    s.sco.stopping = false ∧
    s.scoTick = some k ∧
    Calm s ∧
    scoCfgErr (s.scoTimAt k) k.rate.1 = false ∧
    s.sco.ring = some g ∧
    s.sco.buf = some b ∧
    s.heldBy g .sco = [b]) ∧
  (∃ (s : State) (x : ScoTim) (p : Nat × Nat × Nat),
    s.domOn dSCO = true ∧
    s.b SCO_STATUS_running = true ∧
    s.sco.tim = some x ∧
    s.sco.line < x.vTot ∧
    Calm s ∧
    sdiMode x.mode = some p ∧
    (s.sco.line < x.start ∨ x.start + x.vAct ≤ s.sco.line) ∧
    s.sco.line + 1 < x.vTot ∧
    x.mode < 4) ∧
  (∃ (s : State) (x : ScoTim),
    s.domOn dSCO = true ∧
    s.b SCO_STATUS_running = true ∧
    s.sco.tim = some x ∧
    s.sco.shown = none ∧
    Calm s ∧
    x.start ≤ s.sco.line ∧
    s.sco.line + 1 < x.start + x.vAct ∧
    x.start + x.vAct ≤ x.vTot ∧
    x.mode < 4) ∧
  (∃ (s : State) (x : ScoTim) (n : Nat) (f : LineFault),
    s.domOn dSCO = true ∧
    s.b SCO_STATUS_running = true ∧
    s.sco.tim = some x ∧
    s.sco.shown.isSome = true ∧
    s.err.slots = [] ∧
    x.start ≤ s.sco.line ∧
    s.sco.line < x.start + x.vAct ∧
    n < x.hAct ∧
    s.sco.under = none ∧
    s.sco.ovUnder = none ∧
    s.g SCO_OVL_CTRL_en = 1) :=
  ⟨⟨({ regs := [(0x40100020, 0x7FFFFFFF)] } : State), (.cc0 : Requester), (13 : Word), by decide +kernel⟩,
  ⟨({ regs := [(0x40100020, 0x10000000), (0x47000000, 9)] } : State), (.cc0 : Requester), (9 : Word), by decide +kernel⟩,
  ⟨({ regs := [(0x40100020, 0x10000000), (0x47000000, 9)] } : State), (.cc0 : Requester), (0 : Word), by decide +kernel⟩,
  ⟨({ regs := [(0x40100020, 0x10000000), (0x47000000, 9)] } : State), (.cc0 : Requester), (9 : Word), by decide +kernel⟩,
  ⟨({ regs := [(0x40100020, 0x10000000), (0x47000000, 8), (0x47000040, 1)], ref := { ticks := [{ at_ := 0x5ABB51B6, rfn := 4, t := {  }, per := 0x1FCA055, st := 0, moved := false, rate := (30, 1) }] } } : State), ({ at_ := 0x5ABB51B6, rfn := 4, t := {  }, per := 0x1FCA055, st := 0, moved := false, rate := (30, 1) } : Tick), by decide +kernel⟩,
  ⟨({ regs := [(0x40100020, 0x10000000), (0x47000040, 1)], ref := { ticks := [{ at_ := 0x3B9ACDE8, rfn := 4, t := {  }, per := 0x1FCA055, st := 0, moved := false, rate := (30, 1) }] } } : State), ({ at_ := 0x3B9ACDE8, rfn := 4, t := {  }, per := 0x1FCA055, st := 0, moved := false, rate := (30, 1) } : Tick), by decide +kernel⟩,
  ⟨({ regs := [(0x40100020, 0x10000000), (0x47000000, 8), (0x47000040, 1)], ref := { ticks := [{ at_ := 0x5ABB51B6, rfn := 4, t := {  }, per := 0x1FCA055, st := 0, moved := false, rate := (30, 1) }] }, rings := [(8, { cons := [{ id := .sco, held := [1] }] })], sco := { ring := (some (.branch 0 0)), buf := (some 1), shown := (some { pfn := 4, addr := 0x1000000000, stride := 0x2580 }), lineZero := 0x5ABB5EDD, tx := [(0, { number := 43, link := 1, sent := 0x1130, blank := { eav := [1023, 0, 0, 628], num := [684, 512], crcY := [548, 742], crcC := [325, 686], hanc := 548, sav := [1023, 0, 0, 512] }, luma := (List.replicate 3840 64), chroma := (List.replicate 3840 512), prim := 0, xfer := 0, narrow := false })] } } : State), ({ at_ := 0x5ABB51B6, rfn := 4, t := {  }, per := 0x1FCA055, st := 0, moved := false, rate := (30, 1) } : Tick), ((.branch 0 0) : RingId), (1 : Nat), by decide +kernel⟩,
  ⟨({ regs := [(0x40100020, 0x10000000), (0x47000040, 1)], sco := { ring := (some (.branch 0 0)), tim := (some { mode := 2, hAct := 3840, hTot := 0x1130, vAct := 2160, vTot := 2250, start := 42, den := 1 }), lineZero := 1000, since := 1001 } } : State), ({ mode := 2, hAct := 3840, hTot := 0x1130, vAct := 2160, vTot := 2250, start := 42, den := 1 } : ScoTim), ((0x11B3DC40, (0x1000, 2160)) : Nat × Nat × Nat), by decide +kernel⟩,
  ⟨({ regs := [(0x40100020, 0x10000000), (0x47000040, 1)], sco := { ring := (some (.branch 0 0)), tim := (some { mode := 2, hAct := 3840, hTot := 0x1130, vAct := 2160, vTot := 2250, start := 42, den := 1 }), lineZero := 3368, line := 42, since := 1001, tx := [(0, { number := 2, link := 1, sent := 0x1130, blank := { eav := [1023, 0, 0, 728], num := [520, 512], crcY := [559, 705], crcC := [334, 649], hanc := 548, sav := [1023, 0, 0, 684] }, luma := [], chroma := [], prim := 0, xfer := 0, narrow := false })] } } : State), ({ mode := 2, hAct := 3840, hTot := 0x1130, vAct := 2160, vTot := 2250, start := 42, den := 1 } : ScoTim), by decide +kernel⟩,
  ⟨({ regs := [(0x40100020, 0x10000000), (0x47000040, 1)], live := [(0x47000020, 1)], sco := { ring := (some (.branch 0 0)), shown := (some { pfn := 4, addr := 0x1000000000, stride := 0x2580 }), tim := (some { mode := 2, hAct := 3840, hTot := 0x1130, vAct := 2160, vTot := 2250, start := 42, den := 1 }), lineZero := 3368, line := 43, since := 1001, tx := [(0, { number := 43, link := 1, sent := 0x1130, blank := { eav := [1023, 0, 0, 628], num := [684, 512], crcY := [548, 742], crcC := [325, 686], hanc := 548, sav := [1023, 0, 0, 512] }, luma := (List.replicate 3840 64), chroma := (List.replicate 3840 512), prim := 0, xfer := 0, narrow := false })] } } : State), ({ mode := 2, hAct := 3840, hTot := 0x1130, vAct := 2160, vTot := 2250, start := 42, den := 1 } : ScoTim), (0 : Nat), (.video : LineFault), by decide +kernel⟩⟩

theorem met_Audio :
  (∃ (s : State) (r : Requester) (n : Nat) (v : Word),
    n < 4 ∧
    s.unitOn dAUD = true ∧
    s.audActive n = false ∧
    bitOf v.toNat 0 = true ∧
    (s.aud n).desc = none) ∧
  (∃ (s : State) (r : Requester) (n : Nat) (v : Word),
    n < 4 ∧
    s.unitOn dAUD = true ∧
    s.audActive n = true) ∧
  (∃ (s : State) (n : Nat) (rx : List (BitVec 24)) (e : Bool),
    n < 4 ∧
    s.domOn dAUD = true ∧
    Calm s ∧
    s.b (AUD_CTRL_master n) = true ∧
    (s.aud n).phase = .ending true ∧
    (s.aud n).newMask = [] ∧
    (s.aud n).desc = none) ∧
  (∃ (s : State) (n k : Nat),
    n < 4 ∧
    s.domOn dAUD = true ∧
    Calm s ∧
    (s.aud n).phase = .trail k) ∧
  (∃ (s : State) (n k : Nat) (rx : List (BitVec 24)) (e : Bool),
    n < 4 ∧
    s.domOn dAUD = true ∧
    Calm s ∧
    s.b (AUD_CTRL_master n) = true ∧
    (s.aud n).phase = .lead k ∧
    (s.aud n).newMask = []) ∧
  (∃ (s : State) (n : Nat) (rx : List (BitVec 24)) (e : Bool) (d : AudDesc),
    n < 4 ∧
    s.domOn dAUD = true ∧
    Calm s ∧
    s.mc.fills = [] ∧
    s.mc.reread = [] ∧
    s.b (AUD_CTRL_master n) = true ∧
    s.b (AUD_CTRL_dir n) = true ∧
    (s.aud n).phase = .run ∧
    (s.aud n).newMask = [] ∧
    (s.aud n).desc = some d ∧
    0 < s.audNeed n ∧
    d.moved + 2 * s.audNeed n ≤ d.bytes ∧
    s.memAnswers (d.addr + d.moved) (s.audNeed n) true = true ∧
    0 < s.f (AUD_RING_CFG_entries n)) ∧
  (∃ (s : State) (n : Nat) (rx : List (BitVec 24)) (e : Bool) (d : AudDesc),
    n < 4 ∧
    s.domOn dAUD = true ∧
    Calm s ∧
    s.mc.fills = [] ∧
    s.mc.reread = [] ∧
    s.b (AUD_CTRL_master n) = true ∧
    s.b (AUD_CTRL_dir n) = false ∧
    (s.aud n).phase = .run ∧
    (s.aud n).newMask = [] ∧
    (s.aud n).desc = some d ∧
    0 < s.audNeed n ∧
    d.moved + 2 * s.audNeed n ≤ d.bytes ∧
    s.memAnswers (d.addr + d.moved) (s.audNeed n) false = true ∧
    s.eccDets (d.addr + d.moved) = none ∧
    0 < s.f (AUD_RING_CFG_entries n)) ∧
  (∃ (s : State) (n : Nat) (rx : List (BitVec 24)) (e : Bool),
    n < 4 ∧
    s.domOn dAUD = true ∧
    Calm s ∧
    s.b (AUD_CTRL_master n) = true ∧
    (s.aud n).phase = .run ∧
    (s.aud n).newMask = [] ∧
    (s.aud n).desc = none ∧
    0 < s.audNeed n ∧
    s.f (AUD_HEAD_head n) = s.f (AUD_TAIL_tail n)) ∧
  (∃ (s : State) (n : Nat) (rx : List (BitVec 24)) (e : Bool),
    n < 4 ∧
    s.domOn dAUD = true ∧
    s.err.slots = [] ∧
    s.b (AUD_CTRL_master n) = false ∧
    s.b (AUD_CTRL_dir n) = true ∧
    (s.aud n).phase = .run ∧
    (s.aud n).newMask = [] ∧
    0 < s.audNeed n) ∧
  (∃ (s : State) (r : Requester) (n : Nat) (v : Word),
    n < 4 ∧
    s.unitOn dAUD = true) ∧
  (∃ (s : State) (n m i : Nat),
    n < 4 ∧
    s.domOn dAUD = true ∧
    s.err.slots = [] ∧
    s.mc.fills = [] ∧
    s.mc.reread = [] ∧
    (s.aud n).phase ≠ .idle ∧
    (s.aud n).newMask = [(i, m)] ∧
    i ≤ s.now ∧
    (s.aud n).desc = none ∧
    s.f (AUD_HEAD_head n) = s.f (AUD_TAIL_tail n)) :=
  ⟨⟨({ regs := [(0x40100020, 0x7FFFFFFF)] } : State), (.cc0 : Requester), (0 : Nat), (1 : Word), by decide +kernel⟩,
  ⟨({ regs := [(0x40100020, 0x20000000), (0x47100000, 11)], auds := [(0, { phase := (.lead 2) })] } : State), (.cc0 : Requester), (0 : Nat), (0 : Word), by decide +kernel⟩,
  ⟨({ regs := [(0x40100020, 0x7FFFFFFF), (0x47100000, 9), (0x4710000C, 3)], auds := [(0, { phase := .ending true })] } : State), (0 : Nat), ([] : List (BitVec 24)), (false : Bool), by decide +kernel⟩,
  ⟨({ regs := [(0x40100020, 0x7FFFFFFF)], auds := [(0, { phase := (.trail 2), periods := 23, frames := 23, started := true, starving := true, out := [0, 0] })] } : State), (0 : Nat), (2 : Nat), by decide +kernel⟩,
  ⟨({ regs := [(0x40100020, 0x20000000), (0x47100000, 8)], auds := [(0, { phase := (.lead 2) })] } : State), (0 : Nat), (2 : Nat), ([0x123456, 0xFEDCBA] : List (BitVec 24)), (false : Bool), by decide +kernel⟩,
  ⟨({ regs := [(0x40100020, 0x20000000), (0x45000180, 1), (0x47100000, 12), (0x47100018, 1)], pwr := { onSince := [] }, auds := [(0, { phase := .run, periods := 3, frames := 3, started := true, desc := (some { addr := 0x1000001000, bytes := 100, moved := 6 }) })] } : State), (0 : Nat), ([0x123456, 0xFEDCBA] : List (BitVec 24)), (false : Bool), ({ addr := 0x1000001000, bytes := 100, moved := 6 } : AudDesc), by decide +kernel⟩,
  ⟨({ regs := [(0x40100020, 0x20000000), (0x45000180, 1), (0x47100000, 8), (0x47100018, 1)], pwr := { onSince := [] }, auds := [(0, { phase := .run, periods := 3, frames := 3, started := true, desc := (some { addr := 0x1000001000, bytes := 100, moved := 6 }), out := [0, 0] })] } : State), (0 : Nat), ([0x123456, 0xFEDCBA] : List (BitVec 24)), (false : Bool), ({ addr := 0x1000001000, bytes := 100, moved := 6 } : AudDesc), by decide +kernel⟩,
  ⟨({ regs := [(0x40100020, 0x20000000), (0x47100000, 8)], pwr := { onSince := [] }, auds := [(0, { phase := .run, periods := 20, frames := 20, started := true, out := [0, 0] })] } : State), (0 : Nat), ([0x123456, 0xFEDCBA] : List (BitVec 24)), (false : Bool), by decide +kernel⟩,
  ⟨({ regs := [(0x40100020, 0x20000000), (0x47100000, 4)], auds := [(0, { phase := .run, frames := 2 })] } : State), (0 : Nat), ([0x123456, 0xFEDCBA] : List (BitVec 24)), (false : Bool), by decide +kernel⟩,
  ⟨({ regs := [(0x40100020, 0x7FFFFFFF)] } : State), (.cc0 : Requester), (0 : Nat), (0 : Word), by decide +kernel⟩,
  ⟨({ now := 0x18D5D42A, regs := [(0x40100020, 0x7FFFFFFF)], auds := [(0, { phase := .run, periods := 20, frames := 20, started := true, newMask := [(0x18D5D42A, 1)], out := [0, 0], fs := (List.replicate 32 false ++ List.replicate 32 true), sd := (List.replicate 64 false) })] } : State), (0 : Nat), (1 : Nat), (0x18D5D42A : Nat), by decide +kernel⟩⟩

theorem met_NetworkFramesAndStreams :
  (∃ (s : State) (m : Nat),
    m < 2 ∧
    s.domOn dNET = true ∧
    s.err.slots = [] ∧
    s.mc.fills = [] ∧
    s.mc.reread = [] ∧
    s.macUp m = true ∧
    s.f (NET_TXR_CFG_entries m) ≠ 0 ∧
    ringHas (s.f (NET_TXR_HEAD_head m)) (s.f (NET_TXR_TAIL_tail m)) = true ∧
    s.b (NET_PTP_CFG_en m) = false ∧
    let a := s.pair (NET_TXR_LO m) (NET_TXR_HI m) + s.f (NET_TXR_HEAD_head m) % s.f (NET_TXR_CFG_entries m) * 16
  let d := s.peeks a 16
  let len := leAt d 8 4 % 2 ^ 14
  s.memAnswers a 16 true = true ∧
    s.eccDets a = none ∧
    0 < len ∧
    len ≤ 9212 ∧
    s.memAnswers (leAt d 0 8 % 2 ^ 40) len false = true ∧
    s.eccDets (leAt d 0 8 % 2 ^ 40) = none) ∧
  (∃ (s : State) (m u : Nat) (f : List Byte) (good fec : Bool),
    m < 2 ∧
    s.domOn dNET = true ∧
    Calm s ∧
    s.macUp m = true ∧
    60 ≤ f.length ∧
    f.length ≤ 9212 ∧
    ((good = false ∨ fec = true ∧ s.f (NET_CTRL_fec m) ≠ 0) ∨ isPause f = true ∨ s.macFilter m f = false)) ∧
  (∃ (s : State) (m u : Nat) (f : List Byte),
    m < 2 ∧
    s.domOn dNET = true ∧
    Calm s ∧
    s.mc.fills = [] ∧
    s.mc.reread = [] ∧
    s.macUp m = true ∧
    60 ≤ f.length ∧
    f.length ≤ 9212 ∧
    isPause f = false ∧
    s.macFilter m f = true ∧
    s.b (NET_PTP_CFG_en m) = false ∧
    s.f (NET_RXR_CFG_entries m) ≠ 0 ∧
    ringHas (s.f (NET_RXR_HEAD_head m)) (s.f (NET_RXR_TAIL_tail m)) = true ∧
    let a := s.pair (NET_RXR_LO m) (NET_RXR_HI m) + s.f (NET_RXR_HEAD_head m) % s.f (NET_RXR_CFG_entries m) * 32
  let cap := leAt (s.peeks a 16) 8 4 % 2 ^ 14
  let b := leAt (s.peeks a 16) 0 8 % 2 ^ 40
  s.memAnswers a 16 true = true ∧
    s.eccDets a = none ∧
    0 < cap ∧
    s.memAnswers b (min cap f.length) true = true ∧
    (b + f.length ≤ a ∨ a + 32 ≤ b) ∧
    let e := s.pair (NET_RXR_LO m) (NET_RXR_HI m) + (s.f (NET_RXR_HEAD_head m) + 1) % 2 ^ 32 % s.f (NET_RXR_CFG_entries m) * 32
  (ringHas ((s.f (NET_RXR_HEAD_head m) + 1) % 2 ^ 32) (s.f (NET_RXR_TAIL_tail m)) = false ∨
    0 < leAt (s.peeks e 16) 8 4 % 2 ^ 14 ∧ (b + f.length ≤ e ∨ e + 16 ≤ b))) ∧
  (∃ (s : State) (m u : Nat) (f : List Byte),
    m < 2 ∧
    s.domOn dNET = true ∧
    Calm s ∧
    s.macUp m = true ∧
    60 ≤ f.length ∧
    f.length ≤ 9212 ∧
    isPause f = false ∧
    s.macFilter m f = true ∧
    s.f (NET_RXR_HEAD_head m) = s.f (NET_RXR_TAIL_tail m)) ∧
  (∃ (s : State) (r : Requester) (m : Nat),
    m < 2 ∧
    s.unitOn dNET = true ∧
    (s.net m).stamps.length ≤ 16) ∧
  (∃ (s : State) (r : Requester) (m : Nat) (v : Word) (x : BitVec 16),
    m < 2 ∧
    s.unitOn dNET = true) ∧
  (∃ (s : State) (m : Nat) (up : Bool),
    m < 2 ∧
    s.domOn dNET = true ∧
    s.b (NET_STATUS_link_up m) ≠ up ∧
    (up = false ∨ s.b (NET_CTRL_en m) = true ∧ s.b (NET_STATUS_cfg_err m) = false) ∧
    (up = false ∨ ringHas (s.f (NET_RXR_HEAD_head m)) (s.f (NET_RXR_TAIL_tail m)) = false)) ∧
  (∃ (s : State) (r : Requester) (k : Nat) (v : Word),
    k < 8 ∧
    s.unitOn dNET = true ∧
    s.b (NET_STR_CFG_en k) = false ∧
    bitsOf v.toNat 2 1 = 0) ∧
  (∃ (s : State) (k n b y : Nat) (x : Tick) (l : List Tick),
    k < 8 ∧
    s.domOn dNET = true ∧
    s.b (NET_STR_CFG_en k) = true ∧
    (s.nstr k).ring = some (.branch n b) ∧
    s.ref.ticks = x :: l ∧
    (s.nstr k).tick ≠ some x.at_ ∧
    (s.nstr k).cur = none ∧
    (s.nstr k).buf = some y ∧
    s.heldBy (.branch n b) (.net k) = [y]) ∧
  (∃ (s : State) (k c b : Nat) (p : List Byte) (last : Bool) (q : List (List Byte × Bool)),
    k < 8 ∧
    s.domOn dNET = true ∧
    s.b (NET_STR_CFG_en k) = true ∧
    (s.nstr k).ring = some (.enc c) ∧
    (s.nstr k).queue = (p, last) :: q ∧
    (s.nstr k).buf = some b ∧
    s.mc.fills = [] ∧
    s.mc.reread = [] ∧
    s.err.slots = [] ∧
    s.b (NET_PTP_CFG_en (s.f (NET_STR_CFG_mac k))) = false ∧
    s.memAnswers (s.pair (NET_STR_TPL_LO k) (NET_STR_TPL_HI k)) (s.f (NET_STR_TPL_LEN_bytes k)) false = true ∧
    s.eccDets (s.pair (NET_STR_TPL_LO k) (NET_STR_TPL_HI k)) = none) :=
  ⟨⟨({ regs := [(0x40100020, 0x8000000), (0x45000180, 1), (0x47200000, 1), (0x47200004, 1), (0x47200054, 16), (0x47200058, 1), (0x4720005C, 1)], mem := [(0x1000000008, 70)] } : State), (0 : Nat), by decide +kernel⟩,
  ⟨({ regs := [(0x40100020, 0x8000000), (0x47200000, 1), (0x47200004, 1)] } : State), (0 : Nat), (0 : Nat), ([255, 255, 255, 255, 255, 255, 7, 7, 7, 7, 7, 7, 7, 7, 7, 7, 7, 7, 7, 7, 7, 7, 7, 7, 7, 7, 7, 7, 7, 7, 7, 7, 7, 7, 7, 7, 7, 7, 7, 7, 7, 7, 7, 7, 7, 7, 7, 7, 7, 7, 7, 7, 7, 7, 7, 7, 7, 7, 7, 7, 7, 7, 7, 7, 7, 7] : List Byte), (false : Bool), (true : Bool), by decide +kernel⟩,
  ⟨({ regs := [(0x40100020, 0x8000000), (0x45000180, 1), (0x47200000, 1), (0x47200004, 1), (0x47200068, 16), (0x4720006C, 1), (0x47200070, 1)], mem := [(0x1000000001, 1), (0x1000000004, 16), (0x1000000008, 1)] } : State), (0 : Nat), (0 : Nat), ([255, 255, 255, 255, 255, 255, 7, 7, 7, 7, 7, 7, 7, 7, 7, 7, 7, 7, 7, 7, 7, 7, 7, 7, 7, 7, 7, 7, 7, 7, 7, 7, 7, 7, 7, 7, 7, 7, 7, 7, 7, 7, 7, 7, 7, 7, 7, 7, 7, 7, 7, 7, 7, 7, 7, 7, 7, 7, 7, 7, 7, 7, 7, 7, 7, 7] : List Byte), by decide +kernel⟩,
  ⟨({ regs := [(0x40100020, 0x8000000), (0x47200000, 1), (0x47200004, 1)] } : State), (0 : Nat), (0 : Nat), ([255, 255, 255, 255, 255, 255, 7, 7, 7, 7, 7, 7, 7, 7, 7, 7, 7, 7, 7, 7, 7, 7, 7, 7, 7, 7, 7, 7, 7, 7, 7, 7, 7, 7, 7, 7, 7, 7, 7, 7, 7, 7, 7, 7, 7, 7, 7, 7, 7, 7, 7, 7, 7, 7, 7, 7, 7, 7, 7, 7, 7, 7, 7, 7, 7, 7] : List Byte), by decide +kernel⟩,
  ⟨({ regs := [(0x40100020, 0x7FFFFFFF)] } : State), (.cc0 : Requester), (0 : Nat), by decide +kernel⟩,
  ⟨({ regs := [(0x40100020, 0x7FFFFFFF)] } : State), (.cc0 : Requester), (0 : Nat), (0 : Word), (0xBEEF : BitVec 16), by decide +kernel⟩,
  ⟨({ regs := [(0x40100020, 0x8000000), (0x47200000, 1)], pwr := { onSince := [] } } : State), (0 : Nat), (true : Bool), by decide +kernel⟩,
  ⟨({ regs := [(0x40100020, 0x7FFFFFFF)] } : State), (.cc0 : Requester), (0 : Nat), (0 : Word), by decide +kernel⟩,
  ⟨({ regs := [(0x40100020, 0x8000000), (0x47200840, 1)], ref := { ticks := [{ at_ := 1000, rfn := 4, t := {  }, per := 0x1FCA055, st := 0, moved := false }] }, rings := [(8, { cons := [{ id := (.net 1), held := [1] }] }), (512, { cons := [{ id := (.net 0) }] })], nstrs := [(0, { ring := (some (.enc 0)), seq := 2 }), (1, { ring := (some (.branch 0 0)), buf := (some 1) })] } : State), (1 : Nat), (0 : Nat), (0 : Nat), (1 : Nat), ({ at_ := 1000, rfn := 4, t := {  }, per := 0x1FCA055, st := 0, moved := false } : Tick), ([] : List Tick), by decide +kernel⟩,
  ⟨({ regs := [(0x40100020, 0x8000000), (0x47200800, 1)], pwr := { onSince := [] }, nstrs := [(0, { ring := (some (.enc 0)), buf := (some 1), queue := [([1, 2, 3], false), ([4, 5], true)] })] } : State), (0 : Nat), (0 : Nat), (1 : Nat), ([1, 2, 3] : List Byte), (false : Bool), ([([4, 5], true)] : List (List Byte × Bool)), by decide +kernel⟩⟩

theorem met_PositionFeedback :
  (∃ (s : State) (u c : Nat) (x : BitVec 3) (k : Nat),
    c < 4 ∧
    Calm s ∧
    s.pfiOn c = true ∧
    s.f (PFI_CTRL_filt c) < k ∧
    (s.pfi c).seen = true ∧
    (s.pfi c).hall ≠ x.toNat ∧
    s.f (PFI_STATUS_hall c) ≠ 0 ∧
    (s.pfi c).idxAt.all (fun i => decide (i < sampleAt u)) = true ∧
    (List.range 4).all (fun n => !(s.stripMode n && s.f (SP_SS_CTRL_src n) == 2 && s.f (SP_SS_CTRL_pfi n) == c)) = true) ∧
  (∃ (s : State) (u c : Nat) (up : Bool) (k : Nat),
    c < 4 ∧
    Calm s ∧
    s.pfiOn c = true ∧
    s.f (PFI_CTRL_filt c) < k) ∧
  (∃ (s : State) (r : Requester) (c : Nat) (v : Word),
    c < 4 ∧
    s.unitOn dPFI = true ∧
    Calm s) ∧
  (∃ (s : State) (c : Nat),
    c < 4 ∧
    Calm s ∧
    s.pfiOn c = true ∧
    0 < (s.pfi c).winLen ∧
    0 < s.f (PFI_SPD_WIN_us c) ∧
    s.now < (s.pfi c).winAt + (s.pfi c).winLen * Config.us) ∧
  (∃ (s : State) (c : Nat) (up : Bool),
    c < 4 ∧
    s.domOn dPFI = true ∧
    s.err.slots = []) ∧
  (∃ (s : State) (c : Nat) (w : PhWin),
    c < 4 ∧
    Calm s ∧
    s.pfiOn c = true ∧
    s.b (PFI_PH_CFG_en c) = true ∧
    (s.pfi c).phNext = some w) :=
  ⟨⟨({ regs := [(0x40100020, 0x40000000), (0x47300000, 141), (0x47300004, 1)], pwr := { onSince := [] }, pfis := [(0, { hall := 1, seen := true, code := 37 })] } : State), (0 : Nat), (0 : Nat), (0 : BitVec 3), (1 : Nat), by decide +kernel⟩,
  ⟨({ regs := [(0x40100020, 0x40000000), (0x47300000, 141)] } : State), (0 : Nat), (0 : Nat), (true : Bool), (1 : Nat), by decide +kernel⟩,
  ⟨({ regs := [(0x40100020, 0x7FFFFFFF)] } : State), (.cc0 : Requester), (0 : Nat), (0 : Word), by decide +kernel⟩,
  ⟨({ regs := [(0x40100020, 0x40000000), (0x47300000, 141)] } : State), (0 : Nat), by decide +kernel⟩,
  ⟨({ regs := [(0x40100020, 0x7FFFFFFF)] } : State), (0 : Nat), (true : Bool), by decide +kernel⟩,
  ⟨({ regs := [(0x40100020, 0x40000000), (0x47300000, 141), (0x47300040, 1)], pfis := [(0, { hall := 1, seen := true, back := 1, last := (some (0x895440, true)), winAt := 0x3B9ACA00, code := 37, codeAt := [0, 0x895440, 0x895440], idxAt := (some 0x77359400), edges := [0x77359400], wins := [{ tick := { at_ := 0x773597E8, rfn := 4, t := {  }, per := 0x1FCA055, st := 0, moved := false, rate := (30, 1) }, target := 2000005000, first := (some 0x7736C0C8), n := 1 }, { tick := { at_ := 0x773597E8, rfn := 5, t := {  }, per := 0x1FCA055, st := 0, moved := false, rate := (30, 1) }, target := 2000500000 }] })] } : State), (0 : Nat), ({ tick := { at_ := 0x773597E8, rfn := 4, t := {  }, per := 0x1FCA055, st := 0, moved := false, rate := (30, 1) }, target := 2000005000, first := (some 0x7736C0C8), n := 1 } : PhWin), by decide +kernel⟩⟩

theorem met_Boots :
  (∃ (s : State) (fails : List Nat) (z : Bool),
    s.pwr.bootDue = true ∧
    s.pwr.bootWarm = false) ∧
  (∃ (s : State) (fails : List Nat) (z : Bool),
    s.pwr.bootDue = true ∧
    s.pwr.bootWarm = false ∧
    s.cfg.flash = [] ∧
    s.cfg.otp = [] ∧
    s.err.slots = []) ∧
  (∃ (s : State) (fails : List Nat) (z : Bool),
    s.pwr.bootDue = true ∧
    s.pwr.bootWarm = true ∧
    (wakePower s).b CFG_WARM_valid = false) ∧
  (∃ (s : State) (fails : List Nat) (z : Bool),
    s.pwr.bootDue = true ∧
    s.pwr.bootWarm = true ∧
    (wakePower s).b CFG_WARM_valid = true ∧
    (wakePower s).err.slots = [] ∧
    (wakePower s).memAnswers (wakePower s).imgArea.1 (wakePower s).imgArea.2 false = true ∧
    crc32 ((wakePower s).peeks (wakePower s).imgArea.1 (wakePower s).imgArea.2) = (wakePower s).f CFG_IMG_CRC_crc ∧
    (baseStream true (wakePower s).imgArea (ovlDrop (wakePower s))).1 = false ∧
    (baseStream true (wakePower s).imgArea (ovlDrop (wakePower s))).2.f CFG_OVL_STATUS_in_force = 0 ∧
    ((bootRelease (flag CFG_BOOT_STATUS_warm (logBoot (baseStream true (wakePower s).imgArea (ovlDrop (wakePower s))).2))).modeOverlay
    s.cfg.pins).1 = none) :=
  ⟨⟨({  } : State), ([] : List Nat), (true : Bool), by decide +kernel⟩,
  ⟨({  } : State), ([] : List Nat), (true : Bool), by decide +kernel⟩,
  ⟨({ pwr := { onSince := [], pllLocked := true, pllDue := none, bootWarm := true } } : State), ([] : List Nat), (true : Bool), by decide +kernel⟩,
  ⟨({ regs := [(0x40400030, 1)], mem := [(0x20000000, 15)], pwr := { bootWarm := true }, cfg := { sects := [⟨1, 0, 0, 0x20000000, 8⟩] } } : State), ([] : List Nat), (true : Bool), by decide +kernel⟩⟩

theorem met_FlashAndPins :
  (∃ (s : State) (r : Requester) (v : Word),
    s.unitOn dCTRL = true) ∧
  (∃ (s : State),
    s.unitOn dCTRL = true ∧
    s.b XSPI_STATUS_busy = true ∧
    s.err.slots = [] ∧
    s.mc.fills = [] ∧
    s.mc.reread = [] ∧
    s.xspiRoom (s.pair XSPI_DST_LO XSPI_DST_HI) (s.f XSPI_LEN_bytes) = s.f XSPI_LEN_bytes) ∧
  (∃ (s : State) (r : Requester) (v : Word),
    s.unitOn dCTRL = true) ∧
  (∃ (s : State) (r : Requester) (v : Word),
    s.unitOn dCTRL = true) ∧
  (∃ (s : State) (u i : Nat) (level : Bool),
    i < 16 ∧
    s.unitOn dCTRL = true ∧
    Calm s ∧
    bitOf (s.padRd dCTRL GPIO_OE).toNat i = false ∧
    s.f GPIO_IN_in = s.pads) :=
  ⟨⟨({  } : State), (.cc0 : Requester), (0 : Word), by decide +kernel⟩,
  ⟨({ regs := [(0x47401018, 7)] } : State), by decide +kernel⟩,
  ⟨({  } : State), (.cc0 : Requester), (0 : Word), by decide +kernel⟩,
  ⟨({  } : State), (.cc0 : Requester), (0 : Word), by decide +kernel⟩,
  ⟨({  } : State), (0 : Nat), (0 : Nat), (true : Bool), by decide +kernel⟩⟩

theorem met_Overlays :
  (∃ (s : State) (r : Requester) (v : Word),
    s.pwr.testHold = false ∧
    s.cfg.start = none ∧
    ((s.ovlCause (bitsOf v.toNat 3 0) ≠ 0 ∨ s.b CFG_OVL_STATUS_busy = true))) ∧
  (∃ (s : State) (r : Requester) (v : Word) (x : Sect) (w : Word),
    s.cfg.start = none ∧
    s.ovlCause (bitsOf v.toNat 3 0) = 0 ∧
    s.b CFG_OVL_STATUS_busy = false ∧
    s.unitOn dCTRL = true ∧
    s.err.slots = [] ∧
    s.mc.fills = [] ∧
    s.mc.reread = [] ∧
    s.memAnswers x.addr x.bytes false = true ∧
    s.ovlSect (bitsOf v.toNat 3 0) = some x ∧
    s.records x = [.write REF_PHASE w] ∧
    bitOf x.mask 0 = true) ∧
  (∃ (s : State) (p : BitVec 4),
    s.pwr.testHold = false ∧
    s.awake = true ∧
    s.pwr.bootDue = false ∧
    s.f CFG_MODE_pins ≠ p.toNat ∧
    s.b CFG_MODE_pin_follow = false ∧
    s.cfg.start = none) ∧
  (∃ (s : State) (n : Nat),
    n < 4 ∧
    s.cfg.todo.contains n = true ∧
    s.unitOn (dIP n) = true ∧
    (s.ip n).commits.any (·.capturing) = false) ∧
  (∃ (s : State) (n k : Nat),
    n < 4 ∧
    s.cfg.start = none ∧
    look s.cfg.sof n = some k ∧
    s.cfg.fin.contains n = false ∧
    s.b CFG_OVL_STATUS_busy = true ∧
    s.b CFG_OVL_STATUS_held = false ∧
    s.domOn dPRC = false ∧
    s.domOn dFAB = false) :=
  ⟨⟨({  } : State), (.cc0 : Requester), (0 : Word), by decide +kernel⟩,
  ⟨({ regs := [(0x40400014, 7), (0x45000180, 1)], mem := [(0x1000000000, 1), (0x1000000001, 8), (0x1000000004, 1), (0x1000000008, 12), (0x100000000A, 48), (0x100000000B, 64), (0x100000000C, 77), (0x1000000010, 15)], cfg := { sects := [{ kind := 2, index := 1, mask := 3, addr := 0x1000000000, bytes := 24 }, { kind := 2, index := 2, mask := 0, addr := 0x1000000100, bytes := 8 }] } } : State), (.cc0 : Requester), (1 : Word), ({ kind := 2, index := 1, mask := 3, addr := 0x1000000000, bytes := 24 } : Sect), (77 : Word), by decide +kernel⟩,
  ⟨({ regs := [(0x40400004, 0)], pwr := { onSince := [(0, 0), (1, 0), (2, 0), (3, 0), (4, 0), (5, 0), (6, 0), (7, 0), (8, 0), (9, 0), (10, 0), (11, 0), (12, 0), (13, 0), (14, 0), (15, 0), (16, 0), (17, 0), (18, 0), (19, 0), (20, 0), (21, 0), (22, 0), (23, 0), (24, 0), (25, 0), (26, 0), (27, 0), (28, 0), (29, 0), (30, 0)], pllLocked := true, pllDue := none, bootDue := false } } : State), (1 : BitVec 4), by decide +kernel⟩,
  ⟨({ regs := [(0x40100020, 0x7FFFFFFF)], cfg := { sects := [{ kind := 2, index := 1, mask := 3, addr := 0x1000000000, bytes := 24 }, { kind := 2, index := 2, mask := 0, addr := 0x1000000100, bytes := 8 }], todo := [0, 1] } } : State), (0 : Nat), by decide +kernel⟩,
  ⟨({ regs := [(0x40400010, 272)], cfg := { sects := [{ kind := 2, index := 1, mask := 3, addr := 0x1000000000, bytes := 24 }, { kind := 2, index := 2, mask := 0, addr := 0x1000000100, bytes := 8 }], sof := [(0, 5), (1, 6)] } } : State), (0 : Nat), (5 : Nat), by decide +kernel⟩⟩

theorem met_LocksOtpAndMailbox :
  (∃ (s : State) (r : Requester) (v : Word),
    s.pwr.testHold = false) ∧
  (∃ (s : State) (r : Requester) (v : Word),
    s.pwr.testHold = false) ∧
  (∃ (s : State) (r : Requester) (v : Word),
    s.pwr.testHold = false) ∧
  (∃ (s : State) (w due : Nat) (bits : Word),
    s.cfg.otpRun = some (w, bits, due) ∧
    Calm s) ∧
  (∃ (s : State) (a : BitVec 16) (bs : List Byte),
    s.domOn dCTRL = true ∧
    a.toNat + bs.length ≤ 0x800) ∧
  (∃ (s : State) (a : BitVec 16) (n : Nat),
    s.domOn dCTRL = true) ∧
  (∃ (s : State),
    s.domOn dCTRL = true) ∧
  (∃ (s : State),
    s.domOn dCTRL = true) ∧
  (∃ (s : State),
    s.domOn dCTRL = true) ∧
  (∃ (s : State) (b : Byte),
    s.domOn dCTRL = true ∧
    ([0x02, 0x03, 0x05, 0x06, 0x07] : List Nat).contains b.toNat = false) ∧
  (∃ (s : State) (r : Requester) (v : Word),
    s.pwr.testHold = false ∧
    s.unitOn dCTRL = true) ∧
  (∃ (s : State) (r : Requester) (v : Word),
    s.unitOn dCTRL = true) :=
  ⟨⟨({  } : State), (.cc0 : Requester), (0 : Word), by decide +kernel⟩,
  ⟨({  } : State), (.cc0 : Requester), (0 : Word), by decide +kernel⟩,
  ⟨({  } : State), (.cc0 : Requester), (0 : Word), by decide +kernel⟩,
  ⟨({ cfg := { flash := [(3, 9)], otpRun := (some (40, (9, 0x5F5E100))) } } : State), (40 : Nat), (0x5F5E100 : Nat), (9 : Word), by decide +kernel⟩,
  ⟨({  } : State), (0 : BitVec 16), ([1, 2, 3] : List Byte), by decide +kernel⟩,
  ⟨({  } : State), (0 : BitVec 16), (0 : Nat), by decide +kernel⟩,
  ⟨({  } : State), by decide +kernel⟩,
  ⟨({  } : State), by decide +kernel⟩,
  ⟨({  } : State), by decide +kernel⟩,
  ⟨({  } : State), (0 : Byte), by decide +kernel⟩,
  ⟨({  } : State), (.cc0 : Requester), (0 : Word), by decide +kernel⟩,
  ⟨({  } : State), (.cc0 : Requester), (0 : Word), by decide +kernel⟩⟩

theorem met_PowerDomains :
  (∃ (s : State) (r : Requester) (c : Nat) (v : Word),
    s.pwr.testHold = false ∧
    c < 7) ∧
  (∃ (s : State) (d u : Nat),
    0 < d ∧
    d < 31 ∧
    Calm s ∧
    s.pwr.job = none ∧
    s.nextUp = none ∧
    s.pwr.unwanted = [(d, u)]) ∧
  (∃ (s : State) (d : Nat) (z : Bool),
    d < 31 ∧
    s.err.slots = [] ∧
    s.pwr.job = some (d, .up)) ∧
  (∃ (s : State) (d : Nat),
    d < 31 ∧
    Calm s ∧
    s.pwr.job = some (d, .down)) ∧
  (∃ (s : State) (d : Nat),
    0 < d ∧
    d < 31 ∧
    s.err.slots = [] ∧
    s.pwr.job = some (d, .down)) ∧
  (∃ (s : State) (r : Requester) (v : Word),
    let rel := v.toNat % 2 ^ 31 &&& presentMask s.variant
  s.pwr.testHold = false) ∧
  (∃ (s : State) (d u : Nat),
    d < 31 ∧
    Calm s ∧
    look s.pwr.onSince d = some u ∧
    bitOf (s.f PWR_PAD_HELD_held) d = true ∧
    s.domOn d = true ∧
    s.pwr.padTold.contains d = false) ∧
  (∃ (s : State) (d u : Nat),
    d < 31 ∧
    Calm s ∧
    look s.pwr.holds d = some u) :=
  ⟨⟨({  } : State), (.cc0 : Requester), (0 : Nat), (0 : Word), by decide +kernel⟩,
  ⟨({ regs := [(0x40100020, 0x7FFFFFFF)], pwr := { unwanted := [(30, 0)], onSince := [(0, 0), (1, 0), (2, 0), (3, 0), (4, 0), (5, 0), (6, 0), (7, 0), (8, 0), (9, 0), (10, 0), (11, 0), (12, 0), (13, 0), (14, 0), (15, 0), (16, 0), (17, 0), (18, 0), (19, 0), (20, 0), (21, 0), (22, 0), (23, 0), (24, 0), (25, 0), (26, 0), (27, 0), (28, 0), (29, 0), (30, 0)], pllLocked := true, pllDue := none, bootDue := false } } : State), (30 : Nat), (0 : Nat), by decide +kernel⟩,
  ⟨({ pwr := { job := (some (0, .up)), onSince := [], padLevel := [(30, [(0x47300000, 0x80200), (0x47300028, 0), (0x47300100, 0x80200), (0x47300128, 0), (0x47300200, 0x80200), (0x47300228, 0), (0x47300300, 0x80200), (0x47300328, 0)])], pllLocked := true, pllDue := none, bootDue := false } } : State), (0 : Nat), (true : Bool), by decide +kernel⟩,
  ⟨({ pwr := { job := (some (0, .down)), pllLocked := true, pllDue := none, bootDue := false } } : State), (0 : Nat), by decide +kernel⟩,
  ⟨({ pwr := { job := (some (1, .down)), onSince := [], pllLocked := true, pllDue := none, bootDue := false } } : State), (1 : Nat), by decide +kernel⟩,
  ⟨({  } : State), (.cc0 : Requester), (0 : Word), by decide +kernel⟩,
  ⟨({ regs := [(0x40100020, 0x8000000), (0x40100028, 0x8000000)], pwr := { onSince := [(27, 0x7735A788)], padLevel := [(27, [(0x47200000, 2), (0x47201000, 2)])], pllLocked := true, pllDue := none, bootDue := false } } : State), (27 : Nat), (0x7735A788 : Nat), by decide +kernel⟩,
  ⟨({ pwr := { holds := [(27, 0x7735A788)], onSince := [(0, 0), (1, 0), (2, 0), (3, 0), (4, 0), (5, 0), (6, 0), (7, 0), (8, 0), (9, 0), (10, 0), (11, 0), (12, 0), (13, 0), (14, 0), (15, 0), (16, 0), (17, 0), (18, 0), (19, 0), (20, 0), (21, 0), (22, 0), (23, 0), (24, 0), (25, 0), (26, 0), (27, 0), (28, 0), (29, 0), (30, 0x77359400)], padLevel := [(30, [(0x47300000, 0x80200), (0x47300028, 0), (0x47300100, 0x80200), (0x47300128, 0), (0x47300200, 0x80200), (0x47300228, 0), (0x47300300, 0x80200), (0x47300328, 0)])], pllLocked := true, pllDue := none, bootDue := false } } : State), (27 : Nat), (0x7735A788 : Nat), by decide +kernel⟩⟩

theorem met_SleepAndWake :
  (∃ (s : State) (r : Requester) (v : Word),
    s.pwr.testHold = false) ∧
  (∃ (s : State),
    s.pwr.step = .quiesce ∧
    Calm s) ∧
  (∃ (s : State),
    s.pwr.step = .dram ∧
    s.pwr.soft = false ∧
    s.pwr.wakeHeld = none ∧
    s.err.slots = []) ∧
  (∃ (s : State) (k : Nat),
    k < 5 ∧
    bitOf (s.f PWR_SLEEP_CFG_wake_en) k = true ∧
    s.f PWR_STATE_state = 3 ∧
    s.tooHot = false ∧
    s.pwr.wakeHeld = none ∧
    s.err.slots = [] ∧
    (k = 3 → alarmIn s = 0)) ∧
  (∃ (s : State) (k : Nat),
    k < 5 ∧
    k ≠ 3 ∧
    bitOf (s.f PWR_SLEEP_CFG_wake_en) k = true ∧
    s.pwr.wakeHeld = none ∧
    (s.f PWR_STATE_state = 2 ∨ s.f PWR_STATE_state = 3 ∧ s.tooHot = true)) ∧
  (∃ (s : State) (r : Requester) (v : Word),
    s.pwr.testHold = false) ∧
  (∃ (s : State) (u : Nat),
    s.pwr.t3Grace = some u ∧
    Calm s ∧
    s.mc.fills = [] ∧
    s.mc.reread = []) ∧
  (∃ (s : State) (u : Nat),
    s.pwr.t3At = some u ∧
    s.f PWR_STATE_state ≠ 3 ∧
    Calm s ∧
    s.pwr.wakeHeld = none) :=
  ⟨⟨({  } : State), (.cc0 : Requester), (0 : Word), by decide +kernel⟩,
  ⟨({ pwr := { step := .quiesce, stepDue := 0xBA43B7400, pllLocked := true, pllDue := none, bootDue := false } } : State), by decide +kernel⟩,
  ⟨({ pwr := { step := .dram, stepDue := 0xBA43B7400, pllLocked := true, pllDue := none, bootDue := false } } : State), by decide +kernel⟩,
  ⟨({ regs := [(0x40100034, 3)] } : State), (0 : Nat), by decide +kernel⟩,
  ⟨({ regs := [(0x40100034, 2)] } : State), (0 : Nat), by decide +kernel⟩,
  ⟨({  } : State), (.cc0 : Requester), (0 : Word), by decide +kernel⟩,
  ⟨({ pwr := { t3At := (some 0xE8D4A51000), t3Grace := (some 0xE8D4A51064), wdtDue := 0xE8D4A51000, wdtHalf := true, wdtFired := (some 0xE8D53DA680), pllLocked := true, pllDue := none, bootDue := false } } : State), (0xE8D4A51064 : Nat), by decide +kernel⟩,
  ⟨({ pwr := { t3At := (some 0xE8D4A51000), t3Grace := (some 0xE8D4A51064), wdtDue := 0xE8D4A51000, wdtHalf := true, wdtFired := (some 0xE8D53DA680), pllLocked := true, pllDue := none, bootDue := false } } : State), (0xE8D4A51000 : Nat), by decide +kernel⟩⟩

theorem met_ResetsAndWatchdog :
  (∃ (s : State),
    s.pwr.step = .dram ∧
    s.pwr.soft = true ∧
    s.err.slots = [] ∧
    s.err.pend = []) ∧
  (∃ (s : State) (r : Requester) (v : Word),
    s.pwr.testHold = false ∧
    s.pwr.step = .none) ∧
  (∃ (s : State) (c : HardCause),
    s.err.slots = [] ∧
    s.pwr.testHold = false ∧
    c ≠ .pin true ∧
    (c = .watchdog → s.pwr.wdtFired.isSome = true) ∧
    (c = .clockLoss → s.pwr.clkLost = true)) ∧
  (∃ (s : State) (r : Requester) (v : Word),
    s.pwr.testHold = false ∧
    s.err.slots = []) ∧
  (∃ (s : State),
    s.pwr.testHold = false ∧
    s.b PWR_WDT_CFG_en = true ∧
    s.awake = true ∧
    s.pwr.wdtFired = none ∧
    Calm s) :=
  ⟨⟨({ pwr := { onSince := [], padLevel := [(0, [(0x47402000, 0), (0x47402004, 0), (0x47401000, 2060)]), (1, []), (2, []), (3, []), (4, []), (5, []), (6, [(0x41000000, 0), (0x41000028, 0x1A0B)]), (7, [(0x41100000, 0), (0x41100028, 0x1A0B)]), (8, [(0x41200000, 0), (0x41200028, 0x1A0B)]), (9, [(0x41300000, 0), (0x41300028, 0x1A0B)]), (10, []), (11, []), (12, []), (13, []), (14, []), (15, []), (16, []), (17, []), (18, []), (19, []), (20, []), (21, []), (22, []), (23, []), (24, []), (25, []), (26, []), (27, [(0x47200000, 2), (0x47201000, 2)]), (28, [(0x47000000, 12)]), (29, [(0x47100000, 0), (0x47101000, 0), (0x47102000, 0), (0x47103000, 0)]), (30, [(0x47300000, 0x80200), (0x47300028, 0), (0x47300100, 0x80200), (0x47300128, 0), (0x47300200, 0x80200), (0x47300228, 0), (0x47300300, 0x80200), (0x47300328, 0)])], step := .dram, soft := true, stepDue := 0xBA43B7400, wdtDue := 0xE8D4A51000, bootWarm := true, selfRef := [0, 1, 2, 3] } } : State), by decide +kernel⟩,
  ⟨({  } : State), (.cc0 : Requester), (0 : Word), by decide +kernel⟩,
  ⟨({  } : State), ((.pin false) : HardCause), by decide +kernel⟩,
  ⟨({  } : State), (.cc0 : Requester), (165 : Word), by decide +kernel⟩,
  ⟨({ regs := [(0x40100050, 0x103E8)] } : State), by decide +kernel⟩⟩

theorem met_VoltageAndThermal :
  (∃ (s : State) (f g : Bool),
    s.b PWR_AVS_CFG_en = true ∧
    s.pwr.avsDead = false ∧
    Calm s ∧
    s.f PWR_AVS_CFG_vmin * 5 ≤ s.f PWR_AVS_STATUS_vout ∧
    s.f PWR_AVS_STATUS_vout ≤ s.f PWR_AVS_CFG_vmax * 5 ∧
    s.f PWR_AVS_CFG_vmax ≤ 170) ∧
  (∃ (s : State),
    s.b PWR_AVS_CFG_en = true ∧
    s.pwr.avsDead = false ∧
    (s.b PWR_AVS_CFG_bus = true ∨ s.pwr.pmbBusy = none) ∧
    Calm s ∧
    s.f PWR_AVS_STATUS_vout + 10 ≤ s.f PWR_AVS_CFG_vmax * 5 ∧
    s.f PWR_AVS_CFG_vmax ≤ 170) ∧
  (∃ (s : State) (r : Requester) (v : Word),
    s.pwr.testHold = false) ∧
  (∃ (s : State) (x : PmbResult) (c a op : Nat) (pec : Bool) (w : Nat),
    s.pwr.pmbBusy = some (c, a, op, pec, w) ∧
    s.pwr.avsWait = none) ∧
  (∃ (s : State) (d : BitVec 16) (c a op : Nat) (pec : Bool) (w : Nat),
    s.pwr.pmbBusy = some (c, a, op, pec, w) ∧
    s.pwr.avsWait = none) ∧
  (∃ (s : State) (l : List Int) (volts : List Nat) (ok : Bool),
    s.pwr.testHold = false ∧
    Calm s ∧
    s.awake = true ∧
    l.length = 16 ∧
    volts.length = 32 ∧
    ((s.domOn dRM = true → ∀ k < 8, s.f (RM_STR_STATUS_state k) = 0))) ∧
  (∃ (s : State) (i u : Nat) (x : Int),
    s.pwr.testHold = false ∧
    i < 16 ∧
    Calm s ∧
    s.awake = true ∧
    look s.thm.fastDue i = some u ∧
    ((s.domOn dRM = true → ∀ k < 8, s.f (RM_STR_STATUS_state k) = 0))) ∧
  (∃ (s : State) (r : Requester) (v : Word),
    s.pwr.testHold = false) :=
  ⟨⟨({ regs := [(0x40100060, 0xA088001), (0x40100064, 768)], pwr := { onSince := [] } } : State), (true : Bool), (true : Bool), by decide +kernel⟩,
  ⟨({ regs := [(0x40100060, 0xA088001), (0x40100064, 0)], pwr := { onSince := [] } } : State), by decide +kernel⟩,
  ⟨({  } : State), (.cc0 : Requester), (0 : Word), by decide +kernel⟩,
  ⟨({ pwr := { onSince := [], pmbBusy := (some (52, (18, (3, (false, 99))))), pllLocked := true, pllDue := none, bootDue := false } } : State), ((.ok 0xBEEF) : PmbResult), (52 : Nat), (18 : Nat), (3 : Nat), (false : Bool), (99 : Nat), by decide +kernel⟩,
  ⟨({ pwr := { onSince := [], pmbBusy := (some (52, (18, (3, (false, 99))))), pllLocked := true, pllDue := none, bootDue := false } } : State), (0xBEEF : BitVec 16), (52 : Nat), (18 : Nat), (3 : Nat), (false : Bool), (99 : Nat), by decide +kernel⟩,
  ⟨({  } : State), ((List.replicate 16 480) : List Int), ((List.replicate 32 850) : List Nat), (true : Bool), by decide +kernel⟩,
  ⟨({ thm := { sens := [(0, { last := 1700, same := 1, seen := true }), (1, { last := 1700, same := 1, seen := true }), (2, { last := 1700, same := 1, seen := true }), (3, { last := 1700, same := 1, seen := true }), (4, { last := 1700, same := 1, seen := true }), (5, { last := 1700, same := 1, seen := true }), (6, { last := 1700, same := 1, seen := true }), (7, { last := 1700, same := 1, seen := true }), (8, { last := 1700, same := 1, seen := true }), (9, { last := 1700, same := 1, seen := true }), (10, { last := 1700, same := 1, seen := true }), (11, { last := 1700, same := 1, seen := true }), (12, { last := 1700, same := 1, seen := true }), (13, { last := 1700, same := 1, seen := true }), (14, { last := 1700, same := 1, seen := true }), (15, { last := 1700, same := 1, seen := true })], vmonBad := [31, 27, 25, 24, 23, 22, 21, 20, 19, 18, 14, 12, 11, 10, 9, 8, 7, 6, 5, 1], slowDue := 0xE8D4A51000, fastDue := [(0, 0xE8E38BC280), (1, 0xE8E38BC280), (2, 0xE8E38BC280), (3, 0xE8E38BC280), (4, 0xE8E38BC280), (5, 0xE8E38BC280), (6, 0xE8E38BC280), (7, 0xE8E38BC280), (8, 0xE8E38BC280), (9, 0xE8E38BC280), (10, 0xE8E38BC280), (11, 0xE8E38BC280), (12, 0xE8E38BC280), (13, 0xE8E38BC280), (14, 0xE8E38BC280), (15, 0xE8E38BC280)] } } : State), (0 : Nat), (0xE8E38BC280 : Nat), (480 : Int), by decide +kernel⟩,
  ⟨({  } : State), (.cc0 : Requester), (0 : Word), by decide +kernel⟩⟩

theorem met_FewSensorsHoldTheLevel : ∃ (s : State) (w : Nat),
    s.validSensors < 8 :=
  ⟨({ regs := [(THM_BROKEN, 0xFFFF)] } : State), (0 : Nat), by decide +kernel⟩

theorem met_InjectionAndFaultLog :
  (∃ (s : State) (r : Requester) (k : Nat) (v : Word),
    s.pwr.testHold = false ∧
    k < 4) ∧
  (∃ (s : State) (r : Requester) (k : Nat) (v : Word),
    s.pwr.testHold = false ∧
    k < 4 ∧
    bitOf (s.f ERR_INJ_STATUS_armed) k = true) ∧
  (∃ (s : State),
    Calm s ∧
    (s.err.rates.map (·.1)).Nodup) ∧
  (∃ (s : State) (d : Nat) (x : RateSt),
    Calm s ∧
    s.err.rates = [(d, x)] ∧
    d < 65536 ∧
    floor1 (s.f ERR_RATE_lim) ≤ x.cur ∧
    floor1 (s.f ERR_RATE_lim) ≤ x.prev ∧
    x.judged = false) ∧
  (∃ (s : State) (x : LogRec) (rest : List LogRec),
    s.err.pend = x :: rest ∧
    s.err.slots = []) ∧
  (∃ (s : State) (r : Requester) (v : Word),
    s.pwr.testHold = false) :=
  ⟨⟨({  } : State), (.cc0 : Requester), (0 : Nat), (0 : Word), by decide +kernel⟩,
  ⟨({ regs := [(0x40200040, 1)] } : State), (.cc0 : Requester), (0 : Nat), (0 : Word), by decide +kernel⟩,
  ⟨({  } : State), by decide +kernel⟩,
  ⟨({ regs := [(0x40200048, 5)], err := { rates := [(0x1002, { cur := 5, prev := 6 })] } } : State), (0x1002 : Nat), ({ cur := 5, prev := 6 } : RateSt), by decide +kernel⟩,
  ⟨({ err := { pend := [{ kind := 1, det := 0x2000, inj := false, arg := 83, addr := 0, t := {  }, inval := true }] } } : State), ({ kind := 1, det := 0x2000, inj := false, arg := 83, addr := 0, t := {  }, inval := true } : LogRec), ([] : List LogRec), by decide +kernel⟩,
  ⟨({  } : State), (.cc0 : Requester), (0 : Word), by decide +kernel⟩⟩

theorem met_MonitorReadsAndWrites :
  (∃ (s : State) (p : Nat),
    s.domOn dCTRL = true ∧
    s.b MON_UART_CFG_autobaud = true ∧
    333334 ≤ p ∧
    p ≤ 104166666) ∧
  (∃ (s : State),
    s.monReady = true) ∧
  (∃ (s : State),
    s.monReady = true ∧
    s.dbgLocked = true) ∧
  (∃ (s : State) (a n : Nat),
    Open s ∧
    a % 4 = 0 ∧
    n ≤ 4096 ∧
    inStore a (4 * n) s) ∧
  (∃ (s : State) (a n : Nat),
    Open s ∧
    (a % 4 ≠ 0 ∨ 4096 < n)) ∧
  (∃ (s : State) (a : Nat) (v : Word),
    Open s ∧
    a % 4 = 0 ∧
    inStore a 4 s) ∧
  (∃ (s : State) (v : Word),
    Open s ∧
    s.unitOn dCTRL = true ∧
    s.cfg.start = none) ∧
  (∃ (s : State) (a n : Nat),
    Open s ∧
    a % 4 = 0 ∧
    n ≤ 65536 ∧
    inStore a (n + 3) s) ∧
  (∃ (s : State) (a n : Nat) (v : Word),
    Open s ∧
    a % 4 = 0 ∧
    n % 4 = 0 ∧
    n ≤ 16777216 ∧
    inStore a n s) ∧
  (∃ (s : State) (a : Nat),
    Open s ∧
    a % 4 = 0 ∧
    inStore a 8 s) :=
  ⟨⟨({  } : State), (0x51616 : Nat), by decide +kernel⟩,
  ⟨({  } : State), by decide +kernel⟩,
  ⟨({ cfg := { flash := [(3, 9)], otp := [(22, 2)] } } : State), by decide +kernel⟩,
  ⟨({  } : State), (0x30000000 : Nat), (0 : Nat), by decide +kernel⟩,
  ⟨({  } : State), (0x30000000 : Nat), (0x1001 : Nat), by decide +kernel⟩,
  ⟨({  } : State), (0x30000000 : Nat), (0 : Word), by decide +kernel⟩,
  ⟨({  } : State), (0 : Word), by decide +kernel⟩,
  ⟨({  } : State), (0x30000000 : Nat), (0 : Nat), by decide +kernel⟩,
  ⟨({  } : State), (0x30000000 : Nat), (0 : Nat), (0 : Word), by decide +kernel⟩,
  ⟨({  } : State), (0x30000000 : Nat), by decide +kernel⟩⟩

theorem met_MonitorCommands :
  (∃ (s : State) (k : Nat) (id : BitVec 16) (n : Option (BitVec 16)) (c : BitVec 16),
    k < 4 ∧
    Open s ∧
    s.cfg.start = none ∧
    isDetector id.toNat = true ∧
    detDomain id.toNat = none ∧
    bitOf (s.f ERR_INJ_STATUS_armed) k = false ∧
    look s.err.slots k = none ∧
    0 < c.toNat) ∧
  (∃ (s : State) (n : Nat),
    Open s ∧
    s.err.slots = []) ∧
  (∃ (s : State),
    Open s ∧
    s.cfg.start = none) ∧
  (∃ (s : State),
    Open s) ∧
  (∃ (s : State) (v : Word),
    Open s ∧
    s.cfg.start = none) ∧
  (∃ (s : State) (pod pip : Nat),
    Open s ∧
    s.cfg.start = none ∧
    s.domOn dFAB = true) ∧
  (∃ (s : State) (fails : List Nat) (z : Bool),
    Open s ∧
    s.mon.readm = none) ∧
  (∃ (s : State) (n : Nat) (bs : List Byte) (fails : List Nat),
    Open s ∧
    bs.length < n) ∧
  (∃ (s : State) (n : Nat) (bs : List Byte) (fails : List Nat),
    Open s ∧
    n = bs.length ∧
    4096 ≤ n ∧
    n ≤ 33554432) ∧
  (∃ (s : State),
    s.domOn dCTRL = true ∧
    s.mon.recover = true ∧
    Calm s) ∧
  (∃ (s : State),
    Open s ∧
    s.cfg.start = none ∧
    s.pwr.step = .none) ∧
  (∃ (s : State),
    Open s ∧
    s.cfg.start = none ∧
    s.err.slots = []) :=
  ⟨⟨({  } : State), (0 : Nat), (1025 : BitVec 16), (none : Option (BitVec 16)), (1 : BitVec 16), by decide +kernel⟩,
  ⟨({  } : State), (0 : Nat), by decide +kernel⟩,
  ⟨({  } : State), by decide +kernel⟩,
  ⟨({  } : State), by decide +kernel⟩,
  ⟨({  } : State), (0 : Word), by decide +kernel⟩,
  ⟨({ regs := [(0x40100020, 3)] } : State), (0 : Nat), (3 : Nat), by decide +kernel⟩,
  ⟨({  } : State), ([] : List Nat), (true : Bool), by decide +kernel⟩,
  ⟨({  } : State), (100 : Nat), ([1, 2] : List Byte), ([] : List Nat), by decide +kernel⟩,
  ⟨({  } : State), (0x1000 : Nat), ((List.replicate 4096 7) : List Byte), ([] : List Nat), by decide +kernel⟩,
  ⟨({ mon := { mbox := [(0, 5), (2304, 7)], ext := 128, nonce := (some 7), recover := true, jtag := { preload := [true] } } } : State), by decide +kernel⟩,
  ⟨({  } : State), by decide +kernel⟩,
  ⟨({  } : State), by decide +kernel⟩⟩

theorem met_DebugLockAndTap :
  (∃ (s : State) (n : BitVec 256),
    s.monReady = true) ∧
  (∃ (s : State) (key sig : List Byte),
    key.length = 96 ∧
    sig.length = 96 ∧
    s.monReady = true) ∧
  (∃ (s : State),
    s.monReady = true) :=
  ⟨⟨({  } : State), (0x3039 : BitVec 256), by decide +kernel⟩,
  ⟨({  } : State), ((List.replicate 96 1) : List Byte), ((List.replicate 96 1) : List Byte), by decide +kernel⟩,
  ⟨({  } : State), by decide +kernel⟩⟩

theorem met_CreditsAtDetachAndOff :
  (∃ (s : State) (g : RingId),
    g.wf = true ∧
    s.ringBufs g = 0 ∧
    s.mc.fills = [] ∧
    s.mc.reread = [] ∧
    s.err.slots = []) ∧
  (∃ (s : State) (g : RingId) (k : ConsumerId),
    g.wf = true ∧
    s.unitOn (ringDom g) = true ∧
    (s.ring g).cons.any (fun x => x.id == k) = true) :=
  ⟨⟨({  } : State), ((.tap 0 0) : RingId), by decide +kernel⟩,
  ⟨({ regs := [(0x40100020, 0x7FFFFFFF)], rings := [(515, { writing := (some 0), cons := [{ id := (.firmware 0), held := [2] }], ready := (some ({  }, {  })) })] } : State), ((.enc 3) : RingId), ((.firmware 0) : ConsumerId), by decide +kernel⟩⟩

theorem met_AccessForm :
  (∃ (s : State) (r : Requester) (a n : Nat),
    s.pwr.testHold = false ∧
    Config.regBase ≤ a ∧
    a < Config.regEnd ∧
    0 < n ∧
    (windowAt s.variant a).any (fun h => h.present && h.dom.all s.domOn) = true) ∧
  (∃ (s : State) (r : Requester) (a n : Nat) (bs : List Byte),
    Config.regBase ≤ a ∧
    a < Config.regEnd ∧
    0 < n ∧
    bs.length = n ∧
    formOk a n = false) ∧
  (∃ (s : State) (r : Requester) (a n : Nat) (bs : List Byte),
    inMailbox a = true ∧
    formOk a n = true ∧
    bs.length = n ∧
    s.domOn dCTRL = true) ∧
  (∃ (s : State) (r : Requester) (a : Nat) (v : Word),
    s.pwr.testHold = false ∧
    a % 4 = 0 ∧
    inMailbox a = false ∧
    (windowAt s.variant a).any (fun h => h.present && h.dom.all s.domOn && (rowAt h).isNone) = true ∧
    s.cfg.start = none) :=
  ⟨⟨({  } : State), (.cc0 : Requester), (0x40000000 : Nat), (1 : Nat), by decide +kernel⟩,
  ⟨({  } : State), (.cc0 : Requester), (0x40000000 : Nat), (1 : Nat), ([165] : List Byte), by decide +kernel⟩,
  ⟨({  } : State), (.cc0 : Requester), (0x47404000 : Nat), (1 : Nat), ([165] : List Byte), by decide +kernel⟩,
  ⟨({  } : State), (.cc0 : Requester), (0x4010001C : Nat), (0 : Word), by decide +kernel⟩⟩


end Sys2Proof.Tests
end

/-! The architecture of chapter 01: which destinations an event goes to (R29), and what a frame start does on a ring of
zero buffers (R14). -/

namespace Sys2Proof.Proofs.Architecture

open Sys2Proof.Machine

/-! ### The destination set of an event (R29) -/

/-- Override `k` is enabled and names event `id`. -/
abbrev OverrideMatches (s : State) (id k : Nat) : Prop := s.b (EVR_OVR_en k) = true ∧ s.f (EVR_OVR_event_id k) = id

/-- The test that `State.destOf` searches by. -/
theorem search_eq_true_iff (s : State) (id k : Nat) :
    (s.b (EVR_OVR_en k) && s.f (EVR_OVR_event_id k) == id) = true ↔ OverrideMatches s id k := by
  rw [Bool.and_eq_true, beq_iff_eq]

theorem destOf_of_first_match (s : State) (id k : Nat) (hk : k < 64) (hmatch : OverrideMatches s id k)
    (hbefore : ∀ j < k, ¬ OverrideMatches s id j) : s.destOf id = s.f (EVR_OVR_dest k) := by
  have hfind : (List.range 64).find? (fun k => s.b (EVR_OVR_en k) && s.f (EVR_OVR_event_id k) == id) = some k := by
    rw [List.find?_range_eq_some]
    exact ⟨(search_eq_true_iff s id k).mpr hmatch, List.mem_range.mpr hk,
      fun j hj => by simpa only [Bool.not_eq_true', ← Bool.not_eq_true, search_eq_true_iff] using hbefore j hj⟩
  rw [State.destOf, hfind]

theorem destOf_of_no_match (s : State) (id : Nat) (hnone : ∀ j < 64, ¬ OverrideMatches s id j) :
    s.destOf id = s.f (EVR_ROUTE_dest (id / 256)) := by
  have hfind : (List.range 64).find? (fun k => s.b (EVR_OVR_en k) && s.f (EVR_OVR_event_id k) == id) = none := by
    rw [List.find?_range_eq_none]
    intro j hj
    simpa only [Bool.not_eq_true', ← Bool.not_eq_true, search_eq_true_iff] using hnone j hj
  rw [State.destOf, hfind]

/-- Settles O13: the search of `State.destOf` stops at the first match, and at none where there is none. -/
theorem eventDestinationChoice : Obligations.EventDestinationChoice := by
  intro s id k
  constructor
  · intro hk hen hid hbefore
    exact destOf_of_first_match s id k hk ⟨hen, hid⟩ (fun j hj => hbefore j (List.mem_range.mpr hj))
  · intro hnone
    exact destOf_of_no_match s id (fun j hj => hnone j (List.mem_range.mpr hj))

/-! ### A detach (R15) -/

@[simp] theorem putRing_ring_self (r : RingId) (g : RingSt) (s : State) : (putRing r g s).ring r = g :=
  lookD_put_self s.rings {} (ringNo r) g

theorem putRing_rd_of_ne (r : RingId) (g : RingSt) (s : State) (a : Nat) (h : a ≠ (ringRegs r).stat) :
    (putRing r g s).rd a = s.rd a :=
  rd_wr_of_ne _ _ _ _ h

@[simp] theorem putRing_peek (r : RingId) (g : RingSt) (s : State) (a : Nat) : (putRing r g s).peek a = s.peek a := rfl

theorem ringRegs_cfg_ne_stat (r : RingId) : (ringRegs r).cfg ≠ (ringRegs r).stat := by
  cases r with
  | tap n t => simp only [ringRegs, IP_T_RING_CFG, IP_T_RING_STAT]; omega
  | branch n b => simp only [ringRegs, IP_O_RING_CFG, IP_O_RING_STAT]; omega
  | prc n => simp only [ringRegs, PRC_RING_CFG, PRC_RING_STAT]; omega
  | enc c => simp only [ringRegs, HVC_EC_RING_CFG, HVC_EC_RING_STAT]; omega

@[simp] theorem putRing_ringBufs (r : RingId) (g : RingSt) (s : State) : (putRing r g s).ringBufs r = s.ringBufs r := by
  rw [State.ringBufs, putRing_rd_of_ne _ _ _ _ (ringRegs_cfg_ne_stat r), State.ringBufs]

theorem exec_consumerDetach_attached (g : RingId) (k : ConsumerId) (s : State) (hwf : g.wf = true)
    (hon : s.unitOn (ringDom g) = true) (hatt : (s.ring g).cons.any (fun x => x.id == k) = true) :
    exec (.consumerDetach g k) s =
      .next (putRing g { s.ring g with cons := (s.ring g).cons.filter (fun x => x.id != k) } s) := by
  rw [exec_consumerDetach, execConsumerDetach, hwf, guardOk_true, if_pos hon, ringDetach, if_pos hatt]

/-- A consumer that is not attached holds nothing. -/
theorem heldBy_of_filtered (s : State) (r : RingId) (k : ConsumerId) (l : List ConsSt)
    (h : (s.ring r).cons = l.filter (fun x => x.id != k)) : s.heldBy r k = [] := by
  have hfind : (s.ring r).cons.find? (fun x => x.id == k) = none := by
    rw [h, List.find?_eq_none]
    intro x hx
    simpa using (List.mem_filter.mp hx).2
  rw [State.heldBy, hfind]

/-- The second half of O58, which holds: the ring changes in its list of consumers alone, which loses this one. -/
theorem detachKeeps (s : State) (g : RingId) (k : ConsumerId) : Claims.detachKeeps s g k := by
  intro hwf hon hatt
  refine ⟨_, exec_consumerDetach_attached g k s hwf hon hatt, ?_, ?_, ?_, ?_, ?_, ?_, ?_⟩
  · exact heldBy_of_filtered _ g k (s.ring g).cons (by rw [putRing_ring_self])
  · intro b _
    rw [putRing_ring_self, RingSt.holds, List.any_filter]
  · rw [putRing_ring_self]
  · rw [putRing_ring_self]
  · exact putRing_ringBufs g _ s
  · exact fun a ha => putRing_rd_of_ne g _ s a ha
  · exact fun a _ => putRing_peek g _ s a

/-! ### A frame start on a ring of zero buffers (R14)

A tap's frame start first offers the whole buffer that an earlier frame of the pipeline still has there
(`startProd`, `offerDue`), and asks the ring for its number of buffers only afterwards (`ringTake`). An earlier frame keeps
that mark when the ring abandons its buffer (SLEEP_QUIESCE_DONE), and a write of 0 to bufs is then taken. -/

theorem exec_producerFrameStart_next (g : RingId) (s : State) (h : g.wf = true) :
    exec (.producerFrameStart g) s = .next (producerStart g s) := by
  rw [exec_producerFrameStart, execProducerFrameStart, h, guardOk_true]

/-- A frame of one row of 64 pixels under parameters that enable tap 2 into memory, as SL20. -/
def tapFrame : IpFrame := parFrame [(IP_T_CFG 0 2, 0x30001)] { width := 64, height := 1 }

/-- Pipeline 0 with two frames: one that is past every stage and still has buffer 0 of tap 2 to offer, and one at tap 2.
The tap's ring lies at the start of SRAM, its slots hold a frame, and it has zero buffers, none of which is being written. -/
def offerLeftState : State where
  regs := [(PWR_STATUS, 0x7FFFFFFF), (IP_T_RING_LO 0 2, 0x20000000), (IP_T_SLOT 0 2, 384), (IP_T_STRIDE 0 2, 256)]
  ips := [(0, { frames := [{ tapFrame with stage := 3, closed := true, bufs := [(2, 0, true)] }, tapFrame] })]

theorem offerLeftState_ringBufs : offerLeftState.ringBufs (.tap 0 2) = 0 := by decide +kernel

theorem offerLeftState_peek : offerLeftState.peek 0x20000000 = 0 := by decide +kernel

/-- The first byte of the earlier frame's descriptor (R44) stands at the start of the ring after the frame start. -/
theorem producerStart_offerLeftState_peek : (producerStart (.tap 0 2) offerLeftState).peek 0x20000000 = 1 := by
  decide +kernel

theorem not_zeroRing_offerLeftState : ¬ Claims.zeroRing offerLeftState (.tap 0 2) := by
  intro h
  obtain ⟨t, hstep, -, -, -, -, -, -, hmem⟩ := h rfl offerLeftState_ringBufs rfl rfl rfl
  rw [exec_producerFrameStart_next _ _ rfl, Host.Outcome.next.injEq] at hstep
  subst hstep
  have hkept := hmem 0x20000000 not_false
  rw [producerStart_offerLeftState_peek, offerLeftState_peek] at hkept
  exact absurd hkept (by decide)

/-- Refutes O58, by its first half: the frame start at tap 2 of `offerLeftState`, whose ring has zero buffers, writes the
descriptor of an earlier frame at 0x20000000, where the statement has every byte of memory stay. -/
theorem not_creditsAtDetachAndOff : ¬ Obligations.CreditsAtDetachAndOff := by
  intro ⟨hzero, _⟩
  exact not_zeroRing_offerLeftState (hzero offerLeftState (.tap 0 2))

end Sys2Proof.Proofs.Architecture

/-! Frame timing of chapter 02: the RFN a tick gives under INTERNAL and GENLOCK (R33). -/

namespace Sys2Proof.Proofs.FrameTiming

open Sys2Proof.Machine
open Sys2Proof.Claims (Keeps Calm)

/-! ### What a state shows -/

theorem keeps_refl (p : Nat → Prop) (s : State) : Keeps p s s := ⟨fun _ _ => rfl, fun _ _ => rfl⟩

theorem keeps_trans {p : Nat → Prop} {s t u : State} (hst : Keeps p s t) (htu : Keeps p t u) : Keeps p s u :=
  ⟨fun a ha => (htu.1 a ha).trans (hst.1 a ha), fun a ha => (htu.2 a ha).trans (hst.2 a ha)⟩

theorem keeps_mono {p q : Nat → Prop} {s t : State} (hpq : ∀ a, p a → q a) (h : Keeps p s t) : Keeps q s t :=
  ⟨fun a ha => h.1 a (fun hp => ha (hpq a hp)), h.2⟩

theorem keeps_foldl {p : Nat → Prop} (l : List Nat) (g : State → Nat → State)
    (h : ∀ s, ∀ i ∈ l, Keeps p s (g s i)) (s : State) : Keeps p s (l.foldl g s) := by
  induction l generalizing s with
  | nil => exact keeps_refl p s
  | cons i l ih =>
    exact keeps_trans (h s i List.mem_cons_self) (ih (fun s j hj => h s j (List.mem_cons_of_mem i hj)) (g s i))

theorem wr_keeps (a : Nat) (w : Word) (s : State) : Keeps (· = a) s (wr a w s) :=
  ⟨fun _ hb => rd_wr_of_ne a _ w s hb, fun _ _ => rfl⟩

theorem raise_keeps (p : Nat → Prop) (blk loc arg : Nat) (s : State) : Keeps p s (raise blk loc arg s) :=
  ⟨fun a _ => raise_rd blk loc arg s a, fun a _ => by simp [State.peek, State.formerAt]⟩

/-- In a calm state the clock goes on with no register and no byte of memory changed, and REF stays as it is. -/
theorem advanceTo_keeps_of_calm (t : Nat) (s : State) (h : Calm s) (p : Nat → Prop) :
    Keeps p s (advanceTo t s) ∧ (advanceTo t s).ref = s.ref := by
  obtain ⟨hslots, hincr, hset, hstep⟩ := h
  obtain ⟨x, v, hadv⟩ := advanceTo_calm t s hslots hincr hset hstep
  rw [hadv]
  exact ⟨⟨fun _ _ => rfl, fun _ _ => rfl⟩, rfl⟩

theorem f_eq_of_keeps {p : Nat → Prop} {s t : State} (h : Keeps p s t) (x : Fld) (hx : ¬ p x.addr) : t.f x = s.f x := by
  rw [State.f, State.f, h.1 x.addr hx]

theorem nominal_eq_of_keeps {s t : State} (h : Keeps (fun _ => False) s t) : t.nominal = s.nominal := by
  rw [State.nominal, State.nominal, f_eq_of_keeps h _ id, f_eq_of_keeps h _ id]

/-! ### The parts of a tick -/

/-- The register counts the further index edges of a position channel's phase window. -/
abbrev CountsPhaseExtra (a : Nat) : Prop := (List.range 4).any (fun c => a == PFI_PH_EXTRA c) = true

theorem countsPhaseExtra_of_mem {c : Nat} (hc : c ∈ List.range 4) : CountsPhaseExtra (PFI_PH_EXTRA c) :=
  List.any_eq_true.mpr ⟨c, hc, beq_self_eq_true _⟩

theorem triggers_keeps (p : Nat → Prop) (t rfn : Nat) (s : State) : Keeps p s (triggers t rfn s) := by
  refine keeps_foldl _ _ (fun s n _ => ?_) s
  split
  · exact keeps_refl p s
  · exact ⟨fun _ _ => rfl, fun _ _ => rfl⟩

theorem phaseOpen_keeps (k : Tick) (s : State) : Keeps CountsPhaseExtra s (phaseOpen k s) := by
  unfold phaseOpen
  split
  · refine keeps_foldl _ _ (fun s c hc => ?_) s
    split
    · exact keeps_mono (fun a (ha : a = _) => ha ▸ countsPhaseExtra_of_mem hc) (wr_keeps (PFI_PH_EXTRA c) _ _)
    · exact keeps_refl _ s
  · exact keeps_refl _ s

theorem schedule_keeps (ideal : Rat) (moved : Bool) (s : State) : Keeps (· = REF_PERIOD) s (schedule ideal moved s) := by
  unfold schedule showPeriod
  split
  · exact wr_keeps REF_PERIOD _ _
  · exact ⟨fun _ _ => rfl, fun _ _ => rfl⟩

theorem scheduleNext_keeps (prev : Rat) (s : State) : Keeps (· = REF_PERIOD) s (scheduleNext prev s) := by
  unfold scheduleNext
  split
  · exact keeps_refl _ s
  · split
    · exact schedule_keeps _ _ _
    · exact schedule_keeps _ _ s

/-! ### A tick under INTERNAL and GENLOCK -/

/-- The registers a tick changes after it shows its RFN. -/
abbrev ChangesAfterRfn (a : Nat) : Prop := a = REF_PERIOD ∨ CountsPhaseExtra a

/-- Where firmware has set no RFN, a tick that is not PTP's shows the RFN plus 1 at its instant, and after that it changes
no register but REF_PERIOD and the counts of the phase windows. -/
theorem refTick_keeps_from_rfn (s : State) (ideal p : Rat) (hen : s.b REF_CTRL_en = true)
    (hsrc : s.f REF_CTRL_src ≠ 2) (hnext : s.ref.next = some ideal)
    (hnom : (advanceTo (pclkAt ideal) s).nominal = some p) (hset : (advanceTo (pclkAt ideal) s).ref.setRfn = none) :
    Keeps ChangesAfterRfn
      (setF REF_RFN_rfn (((advanceTo (pclkAt ideal) s).f REF_RFN_rfn + 1) % 2 ^ 32) (advanceTo (pclkAt ideal) s))
      (refTick s).2 := by
  unfold refTick
  simp -zeta only [hen, Bool.not_true, Bool.false_eq_true, if_false]
  extract_lets ptp ready
  have hptp : ptp = False := eq_false hsrc
  have hready : ready = s := by simp [ready, hptp]
  rw [hready, hnext]
  dsimp -zeta only
  extract_lets atTick _ k rfn shown skipped told4 moved told3 told5 per tick _ recorded opened _ placed
  have hnominal : atTick.nominal = some p := hnom
  rw [hnominal]
  dsimp -zeta only
  have hrfn : rfn = (atTick.f REF_RFN_rfn + 1) % 2 ^ 32 := by
    have hunset : atTick.ref.setRfn = none := hset
    simp [rfn, hptp, hunset]
  rw [← hrfn]
  have htold4 : Keeps ChangesAfterRfn shown told4 := by
    unfold told4
    split
    · split
      · exact raise_keeps _ 5 4 _ shown
      · exact keeps_refl _ shown
    · exact keeps_refl _ shown
  have htold3 : Keeps ChangesAfterRfn told4 told3 := by
    unfold told3
    split
    · exact raise_keeps _ 5 3 rfn told4
    · exact keeps_refl _ told4
  have htold5 : Keeps ChangesAfterRfn told3 told5 := raise_keeps _ 5 5 rfn told3
  have hrecorded : Keeps ChangesAfterRfn told5 recorded := ⟨fun _ _ => rfl, fun _ _ => rfl⟩
  have hopened : Keeps ChangesAfterRfn recorded opened :=
    keeps_trans (triggers_keeps _ recorded.now rfn recorded) (keeps_mono (fun _ => Or.inr) (phaseOpen_keeps tick _))
  have hplaced : Keeps ChangesAfterRfn opened placed := by
    unfold placed
    rw [if_neg hsrc]
    exact keeps_mono (fun _ => Or.inl) (scheduleNext_keeps ideal opened)
  exact keeps_trans htold4 (keeps_trans htold3 (keeps_trans htold5 (keeps_trans hrecorded (keeps_trans hopened hplaced))))

theorem rfnByOne (s : State) (ideal : Rat) : Claims.rfnByOne s ideal := by
  intro hon hen hsrc hnext hset hnom hcalm
  obtain ⟨p, hp⟩ := Option.isSome_iff_exists.mp hnom
  obtain ⟨hadv, href⟩ := advanceTo_keeps_of_calm (pclkAt ideal) s hcalm (fun _ => False)
  have htick := refTick_keeps_from_rfn s ideal p hen (by omega) hnext
    (by rw [nominal_eq_of_keeps hadv, hp]) (by rw [href, hset])
  refine ⟨(refTick s).2, by rw [exec_refTick, execRefTick, if_pos hon], ?_, ?_⟩
  · rw [f_eq_of_keeps htick REF_RFN_rfn (by decide), f_setF_self _ _ _ (by decide) (by decide),
      f_eq_of_keeps hadv REF_RFN_rfn id]
    exact Nat.mod_mod _ _
  · refine keeps_trans (keeps_mono (fun _ => False.elim) hadv)
      (keeps_trans (keeps_mono (fun _ => Or.inl) (wr_keeps REF_RFN _ _)) (keeps_mono ?_ htick))
    rintro a (hperiod | hextra)
    · exact .inr (.inl hperiod)
    · exact .inr (.inr (.inr hextra))

/-- Settles O15: of the parts of a tick, only the one that shows the RFN writes REF_RFN. -/
theorem rfnRisesByOne : Obligations.RfnRisesByOne := rfnByOne

end Sys2Proof.Proofs.FrameTiming

/-! The register map of chapter 24: which accesses of register space are served and which draw an error response, and what
each leaves unchanged (R420, R471, R472, R475). -/

namespace Sys2Proof.Proofs.RegisterMap

open Sys2Proof.Machine
open Sys2Proof.Claims (Answered Refused Keeps)
open Sys2Proof.Proofs.FrameTiming (keeps_refl keeps_trans keeps_mono keeps_foldl wr_keeps raise_keeps)

/-! ### A field above the one that is set -/

/-- Replacing the digit of weight `l` in base `k` leaves the digits above it. -/
theorem replace_digit_div (n l k v : Nat) (hl : 0 < l) (hk : 0 < k) :
    (n - n / l % k * l + v % k * l) / (l * k) = n / (l * k) := by
  have hdigits : l * (k * (n / l / k)) + l * (n / l % k) + n % l = n := by
    rw [← Nat.mul_add, Nat.div_add_mod, Nat.div_add_mod]
  have hreplaced : n - n / l % k * l + v % k * l = n % l + l * (v % k + k * (n / l / k)) := by
    rw [Nat.mul_add, Nat.mul_comm (n / l % k), Nat.mul_comm (v % k)]
    omega
  rw [hreplaced, ← Nat.div_div_eq_div_mul, ← Nat.div_div_eq_div_mul, Nat.add_mul_div_left _ _ hl,
    Nat.div_eq_of_lt (Nat.mod_lt n hl), Nat.zero_add, Nat.add_mul_div_left _ _ hk, Nat.div_eq_of_lt (Nat.mod_lt v hk),
    Nat.zero_add]

theorem setBits_div (w : Word) (hi lo v : Nat) (hle : lo ≤ hi) (h31 : hi ≤ 31) :
    (setBits w hi lo v).toNat / 2 ^ (hi + 1) = w.toNat / 2 ^ (hi + 1) := by
  have hword : 2 ^ 32 = 2 ^ (hi + 1) * 2 ^ (31 - hi) := by rw [← pow_add]; congr 1; omega
  have hfield : 2 ^ (hi + 1) = 2 ^ lo * 2 ^ (hi - lo + 1) := by rw [← pow_add]; congr 1; omega
  have hdigit := replace_digit_div w.toNat (2 ^ lo) (2 ^ (hi - lo + 1)) v (by positivity) (by positivity)
  rw [← hfield] at hdigit
  rw [setBits, bitsOf, BitVec.toNat_ofNat, hword, Nat.mod_mul_right_div_self, hdigit, ← Nat.mod_mul_right_div_self,
    ← hword, Nat.mod_eq_of_lt w.isLt]

theorem bitsOf_setBits_of_below (w : Word) (hi lo v hi' lo' : Nat) (hle : lo ≤ hi) (h31 : hi ≤ 31) (hbelow : hi < lo') :
    bitsOf (setBits w hi lo v).toNat hi' lo' = bitsOf w.toNat hi' lo' := by
  have hsplit : 2 ^ lo' = 2 ^ (hi + 1) * 2 ^ (lo' - (hi + 1)) := by rw [← pow_add]; congr 1; omega
  rw [bitsOf, bitsOf, hsplit, ← Nat.div_div_eq_div_mul, ← Nat.div_div_eq_div_mul, setBits_div w hi lo v hle h31]

theorem f_setF_of_below (x y : Fld) (v : Nat) (s : State) (haddr : y.addr = x.addr) (hle : x.lo ≤ x.hi) (h31 : x.hi ≤ 31)
    (hbelow : x.hi < y.lo) : (setF x v s).f y = s.f y := by
  rw [State.f, haddr, setF, rd_wr_self, bitsOf_setBits_of_below _ _ _ _ _ _ hle h31 hbelow, ← haddr, State.f]

/-! ### Replies -/

theorem reply_keeps (p : Nat → Prop) (r : Requester) (x : Reply) (s : State) : Keeps p s (reply r x s) :=
  ⟨fun _ _ => rfl, fun _ _ => rfl⟩

theorem answered_answer (r : Requester) (w : Word) (s : State) : Answered r w (answer r w s) :=
  lookD_put_self s.bus {} (reqNo r) ⟨false, w⟩

theorem err_answer (r : Requester) (w : Word) (s : State) : (lookD (answer r w s).bus {} (reqNo r)).err = false :=
  congrArg Reply.err (answered_answer r w s)

theorem refused_refuse (r : Requester) (s : State) : Refused r (refuse r s) :=
  congrArg Reply.err (lookD_put_self s.bus {} (reqNo r) ⟨true, 0⟩)

@[simp] theorem refuse_rd (r : Requester) (s : State) (a : Nat) : (refuse r s).rd a = s.rd a := rfl

@[simp] theorem refuse_f (r : Requester) (s : State) (x : Fld) : (refuse r s).f x = s.f x := rfl

/-! ### The record of an error (R475) -/

/-- The registers that count and record an error response. -/
abbrev RecordsError (x : Nat) : Prop := x = SYS_ACC_ERR ∨ x = SYS_ACC_ERR_LAST

theorem accErr_keeps (cause a : Nat) (s : State) : Keeps RecordsError s (accErr cause a s) :=
  keeps_trans (keeps_mono (fun _ => Or.inl) (wr_keeps SYS_ACC_ERR _ s))
    (keeps_mono (fun _ => Or.inr) (keeps_trans (wr_keeps SYS_ACC_ERR_LAST _ _) (wr_keeps SYS_ACC_ERR_LAST _ _)))

theorem accErr_count (cause a : Nat) (s : State) : (accErr cause a s).rd SYS_ACC_ERR = s.rd SYS_ACC_ERR + 1 := by
  have hlast (x : Fld) (v : Nat) (t : State) (hx : x.addr = SYS_ACC_ERR_LAST) :
      (setF x v t).rd SYS_ACC_ERR = t.rd SYS_ACC_ERR :=
    rd_wr_of_ne _ _ _ _ (by rw [hx]; decide)
  rw [accErr, hlast _ _ _ rfl, hlast _ _ _ rfl, bump, bumpBy, rd_wr_self]
  rfl

theorem accErr_offset (cause a : Nat) (s : State) :
    (accErr cause a s).f SYS_ACC_ERR_LAST_offset = (a - Config.regBase) / 4 % 2 ^ 28 := by
  rw [accErr, f_setF_of_below SYS_ACC_ERR_LAST_cause SYS_ACC_ERR_LAST_offset _ _ rfl (by decide) (by decide) (by decide),
    f_setF_self _ _ _ (by decide) (by decide)]
  rfl

theorem accErr_cause (cause a : Nat) (s : State) (hcause : cause < 4) :
    (accErr cause a s).f SYS_ACC_ERR_LAST_cause = cause := by
  rw [accErr, f_setF_self _ _ _ (by decide) (by decide)]
  exact Nat.mod_eq_of_lt hcause

/-! ### The checks of an access, by their outcome -/

/-- The cause recorded for an access that meets no window, an absent unit, or a wrong form (R475). -/
def causeOf (v : Variant) (a : Nat) : Nat :=
  if (windowAt v a).isNone then 0 else if (windowAt v a).any (fun h => h.present) = false then 1 else 2

theorem causeOf_lt (v : Variant) (a : Nat) : causeOf v a < 4 := by
  unfold causeOf
  split_ifs <;> omega

theorem gate_of_testHold (a n : Nat) (s : State) (hhold : s.pwr.testHold = true) : gate a n s = (false, s) := by
  rw [gate, if_pos hhold]

theorem gate_of_wrong_access (a n : Nat) (s : State) (hhold : s.pwr.testHold = false)
    (hwrong : (windowAt s.variant a).any (fun h => h.present) = false ∨ formOk a n = false) :
    gate a n s = (false, accErr (causeOf s.variant a) a s) := by
  unfold gate causeOf
  rw [if_neg (ne_true_of_eq_false hhold)]
  cases hwin : windowAt s.variant a with
  | none => rfl
  | some h =>
    rw [hwin] at hwrong
    cases hpres : h.present with
    | false => simp [hpres]
    | true =>
      have hform : formOk a n = false := by simpa [hpres] using hwrong
      simp [hpres, hform]

/-- An access that passes every check changes at most the time for which its domain is held on (R420). -/
theorem gate_of_served (a n : Nat) (s : State) (h : Hit) (hhold : s.pwr.testHold = false)
    (hwin : windowAt s.variant a = some h) (hpres : h.present = true) (hdom : h.dom.all s.domOn = true)
    (hform : formOk a n = true) :
    ∃ t, gate a n s = (true, t) ∧ t.variant = s.variant ∧ t.cfg = s.cfg ∧ Keeps (fun _ => False) s t := by
  unfold gate
  rw [if_neg (ne_true_of_eq_false hhold), hwin]
  cases hd : h.dom with
  | none => exact ⟨s, by simp [hpres, hform, hd], rfl, rfl, keeps_refl _ s⟩
  | some d =>
    have hon : s.domOn d = true := by simpa [hd] using hdom
    simp only [hpres, hform, hd, hon]
    refine ⟨_, rfl, ?_⟩
    split
    · exact ⟨rfl, rfl, fun _ _ => rfl, fun _ _ => rfl⟩
    · exact ⟨rfl, rfl, keeps_refl _ s⟩

theorem windowDom_eq_some (v : Variant) (a d : Nat) (hdom : windowDom v a = some d) :
    ∃ h, windowAt v a = some h ∧ h.present = true ∧ h.dom = some d := by
  unfold windowDom at hdom
  cases hwin : windowAt v a with
  | none => simp [hwin] at hdom
  | some h => exact ⟨h, rfl, by simpa [hwin] using hdom⟩

/-- On the UMB9480 an access to a domain that is off is counted; the event, raised or not, is in no register (R420). -/
theorem gate_of_off_domain (a d n : Nat) (s : State) (hhold : s.pwr.testHold = false) (hclk : s.pwr.clkLost = false)
    (hvar : s.variant = .umb9480) (hdom : windowDom s.variant a = some d) (hoff : s.domOn d = false)
    (hform : formOk a n = true) :
    ∃ t, gate a n s = (false, t) ∧ t.rd PWR_OFF_ACCESS = s.rd PWR_OFF_ACCESS + 1 ∧ Keeps (· = PWR_OFF_ACCESS) s t := by
  obtain ⟨h, hwin, hpres, hd⟩ := windowDom_eq_some _ _ _ hdom
  have hcount : (bump PWR_OFF_ACCESS s).rd PWR_OFF_ACCESS = s.rd PWR_OFF_ACCESS + 1 := rd_wr_self _ _ s
  have hkeep : Keeps (· = PWR_OFF_ACCESS) s (bump PWR_OFF_ACCESS s) := wr_keeps PWR_OFF_ACCESS _ s
  unfold gate
  rw [if_neg (ne_true_of_eq_false hhold), hwin]
  simp only [hpres, hform, hd, hoff, hclk, hvar, Bool.not_true, Bool.false_eq_true, if_false]
  refine ⟨_, rfl, ?_⟩
  split_ifs
  · exact ⟨hcount, hkeep⟩
  · exact ⟨by rw [raise_rd]; exact hcount,
      keeps_trans hkeep (keeps_trans ⟨fun _ _ => rfl, fun _ _ => rfl⟩ (raise_keeps _ 2 2 d _))⟩

/-! ### Accesses that draw an error response -/

theorem exec_accessError_of_wrong_access (r : Requester) (a n : Nat) (write : Bool) (s : State)
    (hlo : Config.regBase ≤ a) (hhi : a < Config.regEnd)
    (hwrong : (windowAt s.variant a).any (fun h => h.present) = false ∨ formOk a n = false) :
    exec (.accessError r a n write) s = .next (refuse r (gate a n s).2) := by
  rw [exec_accessError, execAccessError, if_neg (by simp [hlo, hhi])]
  cases hwin : windowAt s.variant a with
  | none => rfl
  | some h =>
    have hnot : (h.present && formOk a n) = false := by
      rw [hwin] at hwrong
      simpa only [Option.any_some, Bool.and_eq_false_iff] using hwrong
    simp [hnot]

theorem accessCounted (s : State) (r : Requester) (a n : Nat) (write : Bool) : Claims.accessCounted s r a n write := by
  intro hhold hlo hhi hwrong
  refine ⟨refuse r (accErr (causeOf s.variant a) a s), ?_, refused_refuse r _, ?_, ?_, ?_,
    keeps_trans (accErr_keeps _ a s) (reply_keeps _ r _ _)⟩
  · rw [exec_accessError_of_wrong_access r a n write s hlo hhi hwrong, gate_of_wrong_access a n s hhold hwrong]
  · rw [refuse_rd, accErr_count]
  · rw [refuse_f, accErr_offset]
  · rw [refuse_f, accErr_cause _ _ _ (causeOf_lt _ _), causeOf]

/-- The first case of `accessCounted`: no window. -/
theorem accessError (s : State) (r : Requester) (a n : Nat) (write : Bool) : Claims.accessError s r a n write := by
  intro hhold hlo hhi hnone
  have hany : (windowAt s.variant a).any (fun h => h.present) = false := by rw [Option.isNone_iff_eq_none.mp hnone]; rfl
  obtain ⟨t, hstep, href, hcount, hoff, hcause, hkeep⟩ := accessCounted s r a n write hhold hlo hhi (.inl hany)
  exact ⟨t, hstep, href, hcount, hoff, by rw [hcause, if_pos hnone], hkeep⟩

theorem offDomainRefused (s : State) (r : Requester) (a d : Nat) : Claims.offDomainRefused s r a d := by
  intro hhold hclk hvar hdom hoff halign
  have hform : formOk a 4 = true := by simp [formOk, halign]
  obtain ⟨t, hgate, hcount, hkeep⟩ := gate_of_off_domain a d 4 s hhold hclk hvar hdom hoff hform
  refine ⟨refuse r t, ?_, refused_refuse r t, hcount, keeps_trans hkeep (reply_keeps _ r _ t)⟩
  simp [execOffDomainAccess, hdom, hoff, hform, execRcRead, busRead, hgate]

theorem memAnswer_none_keeps (p : Nat → Prop) (r : Requester) (s : State) : Keeps p s (memAnswer r none s) :=
  ⟨fun _ _ => rfl, fun _ _ => rfl⟩

/-- An access that no memory answers, with no zero fill and no re-read under way. -/
theorem memServe_of_unanswered (r : Requester) (a n : Nat) (w : Option (List Byte)) (found : EccFound) (s : State)
    (hfills : s.mc.fills = []) (hreread : s.mc.reread = []) (hans : s.memAnswers a n w.isSome = false) :
    memServe r a n w found s = memAnswer r none s := by
  have hready : rereadFirst a n (awaitFill a n s) = s := by rw [awaitFill, hfills, List.foldl_nil, rereadFirst, hreread]; rfl
  rw [memServe, hready, hans]
  rfl

/-- Where an access goes whose data, if it writes, is as long as it says. -/
theorem exec_memoryAccess_eq (r : Requester) (a n : Nat) (w : Option (List Byte)) (found : EccFound) (s : State)
    (hn : 0 < n) (hw : w.all (fun bs => bs.length == n) = true) :
    exec (.memoryAccess r a n w found) s = .next ((s.busAddr r a n).elim (memAnswer r none s)
      (fun b => if Config.regBase ≤ b && b < Config.regEnd then regServe r b n w s else memServe r b n w found s)) := by
  rw [exec_memoryAccess]
  cases w with
  | none =>
    simp only [execMemoryAccess, hn, decide_true, Bool.and_self, guardOk_true]
    cases s.busAddr r a n <;> rfl
  | some bs =>
    have hlen : (bs.length == n) = true := hw
    simp only [execMemoryAccess, hn, hlen, decide_true, Bool.and_self, guardOk_true]
    cases s.busAddr r a n <;> rfl

theorem exec_memoryAccess_of_unanswered (r : Requester) (a n : Nat) (w : Option (List Byte)) (found : EccFound) (s : State)
    (hn : 0 < n) (hw : w.all (fun bs => bs.length == n) = true) (hfills : s.mc.fills = []) (hreread : s.mc.reread = [])
    (hans : (s.busAddr r a n).all
      (fun b => !(Config.regBase ≤ b && b < Config.regEnd) && !s.memAnswers b n w.isSome) = true) :
    exec (.memoryAccess r a n w found) s = .next (memAnswer r none s) := by
  rw [exec_memoryAccess_eq r a n w found s hn hw]
  cases haddr : s.busAddr r a n with
  | none => rfl
  | some b =>
    rw [haddr, Option.all_some, Bool.and_eq_true, Bool.not_eq_true', Bool.not_eq_true'] at hans
    obtain ⟨hreg, hmem⟩ := hans
    rw [Option.elim_some, hreg, memServe_of_unanswered r b n w found s hfills hreread hmem]
    rfl

theorem memoryUncounted (s : State) (r : Requester) (a n : Nat) (w : Option (List Byte)) :
    Claims.memoryUncounted s r a n w := by
  intro hn hw hfills hreread hans
  exact ⟨_, exec_memoryAccess_of_unanswered r a n w .clean s hn hw hfills hreread hans, refused_refuse r _,
    memAnswer_none_keeps _ r s⟩

/-- Settles O9: an access is refused by the first check of `gate` that it fails, and each check leaves its own record. -/
theorem refusedAccessesCounted : Obligations.RefusedAccessesCounted :=
  ⟨accessError, accessCounted, memoryUncounted, offDomainRefused⟩

/-! ### Accesses that are served (R471, R472) -/

/-- The 256 bytes around a register's address. -/
abbrev InBlockOf (a x : Nat) : Prop := x / 256 = a / 256

theorem showStamps_keeps (m : Nat) (s : State) : Keeps (InBlockOf (NET_TXTS m 3)) s (showStamps m s) := by
  have hstatus : InBlockOf (NET_TXTS m 3) (NET_PTP_STATUS m) := by unfold InBlockOf NET_TXTS NET_PTP_STATUS; omega
  have hstamp {i : Nat} (hi : i < 4) : InBlockOf (NET_TXTS m 3) (NET_TXTS m i) := by unfold InBlockOf NET_TXTS; omega
  have hwr {a : Nat} (ha : InBlockOf (NET_TXTS m 3) a) (w : Word) (t : State) :
      Keeps (InBlockOf (NET_TXTS m 3)) t (wr a w t) :=
    keeps_mono (fun b (hb : b = a) => hb ▸ ha) (wr_keeps a w t)
  have hcount := hwr hstatus
  unfold showStamps setF
  cases (s.net m).stamps with
  | nil => exact hcount _ s
  | cons x q =>
    exact keeps_trans (hcount _ s) (keeps_trans (hwr (hstamp (i := 0) (by omega)) _ _)
      (keeps_trans (hwr (hstamp (i := 1) (by omega)) _ _) (keeps_trans (hwr (hstamp (i := 2) (by omega)) _ _)
        (hwr (hstamp (i := 3) (by omega)) _ _))))

/-- A read clears bits of its own register and pops a stamp of its own port; what it latches is in no register. -/
theorem readEffect_keeps (r : Requester) (a : Nat) (s : State) : Keeps (InBlockOf a) s (readEffect r a s) := by
  unfold readEffect
  cases windowAt s.variant a with
  | none => exact keeps_refl _ s
  | some h =>
    dsimp -zeta only
    cases rowAt h with
    | none => exact keeps_refl _ s
    | some x =>
      dsimp -zeta only
      extract_lets cleared latched m
      have hcleared : Keeps (InBlockOf a) s cleared := by
        unfold cleared
        split
        · exact keeps_refl _ s
        · exact keeps_mono (fun _ hx => congrArg (· / 256) hx) (wr_keeps a _ s)
      have hlatched : Keeps (InBlockOf a) cleared latched := by
        unfold latched
        split
        · refine keeps_foldl _ _ (fun t c _ => ?_) cleared
          exact ⟨fun _ _ => rfl, fun _ _ => rfl⟩
        · exact keeps_refl _ cleared
      refine keeps_trans hcleared (keeps_trans hlatched ?_)
      split
      case isTrue hpop =>
        have ha : a = NET_TXTS m 3 := by simp only [Bool.and_eq_true, beq_iff_eq] at hpop; exact hpop.2
        rw [ha]
        exact keeps_trans ⟨fun _ _ => rfl, fun _ _ => rfl⟩ (showStamps_keeps m _)
      case isFalse => exact keeps_refl _ latched

theorem regServe_of_wrong_form (r : Requester) (a n : Nat) (w : Option (List Byte)) (s : State)
    (hform : formOk a n = false) : ∃ t, regServe r a n w s = refuse r t ∧ Keeps RecordsError s t := by
  cases hhold : s.pwr.testHold with
  | true => exact ⟨s, by rw [regServe, gate_of_testHold a n s hhold], keeps_refl _ s⟩
  | false =>
    exact ⟨_, by rw [regServe, gate_of_wrong_access a n s hhold (.inr hform)], accErr_keeps _ a s⟩

theorem regServe_read_of_served (r : Requester) (a n : Nat) (s t : State) (hgate : gate a n s = (true, t)) :
    ∃ v u, regServe r a n none s = answer r v u ∧ Keeps (InBlockOf a) t u := by
  rw [regServe, hgate]
  dsimp only
  split
  · exact ⟨_, t, rfl, keeps_refl _ t⟩
  · exact ⟨_, _, rfl, readEffect_keeps r a t⟩

/-- Register space answers at its own addresses, for sage too (R21). -/
theorem busAddr_of_register (r : Requester) (a n : Nat) (s : State) (hhi : a < Config.regEnd) : s.busAddr r a n = some a := by
  rw [State.busAddr, if_pos (by simp [hhi])]

theorem exec_memoryAccess_of_register (r : Requester) (a n : Nat) (w : Option (List Byte)) (found : EccFound) (s : State)
    (hlo : Config.regBase ≤ a) (hhi : a < Config.regEnd) (hn : 0 < n) (hw : w.all (fun bs => bs.length == n) = true) :
    exec (.memoryAccess r a n w found) s = .next (regServe r a n w s) := by
  rw [exec_memoryAccess_eq r a n w found s hn hw, busAddr_of_register r a n s hhi, Option.elim_some,
    if_pos (by simp [hlo, hhi])]

theorem formOk_iff (a n : Nat) : formOk a n = true ↔
    n = 4 ∧ a % 4 = 0 ∨ (0x47404000 ≤ a ∧ a < 0x47405000 ∧ (n = 1 ∨ n = 2 ∧ a % 2 = 0)) := by
  simp only [formOk, inMailbox, Bool.or_eq_true, Bool.and_eq_true, beq_iff_eq, decide_eq_true_eq]
  omega

theorem readForm (s : State) (r : Requester) (a n : Nat) : Claims.accessForm s r a n := by
  intro hhold hlo hhi hn hserved
  obtain ⟨h, hwin, hopen⟩ := (Option.any_eq_true _ _).mp hserved
  obtain ⟨hpres, hdom⟩ := Bool.and_eq_true_iff.mp hopen
  rw [Claims.Runs, exec_memoryAccess_of_register r a n none .clean s hlo hhi hn rfl]
  cases hform : formOk a n with
  | false =>
    obtain ⟨t, hserve, hkeep⟩ := regServe_of_wrong_form r a n none s hform
    refine ⟨_, rfl, ?_, ?_⟩
    · rw [hserve, ← formOk_iff, hform, refused_refuse r t]
      simp
    · rw [hserve]
      exact keeps_mono (fun _ hx => hx.imp id .inl) (keeps_trans hkeep (reply_keeps _ r _ t))
  | true =>
    obtain ⟨t, hgate, -, -, hpass⟩ := gate_of_served a n s h hhold hwin hpres hdom hform
    obtain ⟨v, u, hserve, hkeep⟩ := regServe_read_of_served r a n s t hgate
    refine ⟨_, rfl, ?_, ?_⟩
    · rw [hserve, ← formOk_iff, hform, err_answer r v u]
      simp
    · rw [hserve]
      exact keeps_mono (fun _ hx => .inr (.inr hx))
        (keeps_trans (keeps_mono (fun _ => False.elim) hpass) (keeps_trans hkeep (reply_keeps _ r _ u)))

theorem writeForm (s : State) (r : Requester) (a n : Nat) (bs : List Byte) : Claims.writeForm s r a n bs := by
  intro hlo hhi hn hlen hform
  obtain ⟨t, hserve, hkeep⟩ := regServe_of_wrong_form r a n (some bs) s hform
  refine ⟨refuse r t, ?_, refused_refuse r t, keeps_trans hkeep (reply_keeps _ r _ t)⟩
  rw [exec_memoryAccess_of_register r a n (some bs) .clean s hlo hhi hn (by simp [hlen]), hserve]

/-! ### Writes of the mailbox (R471) -/

theorem windowAt_of_inMailbox (v : Variant) (a : Nat) (hbox : inMailbox a = true) :
    windowAt v a = some ⟨true, some dCTRL, rowsMon, a - 0x47400000⟩ := by
  obtain ⟨hlo, hhi⟩ : 0x47404000 ≤ a ∧ a < 0x47405000 := by simpa [inMailbox] using hbox
  simp (disch := omega) [windowAt, if_neg, if_pos]

theorem testHold_of_domOn (s : State) (d : Nat) (hon : s.domOn d = true) : s.pwr.testHold = false := by
  simp only [State.domOn, Bool.and_eq_true, Bool.not_eq_true'] at hon
  exact hon.2

/-- Bytes stored within the mailbox read back. -/
theorem mboxPut_mboxByte (o i : Nat) (bs : List Byte) (s : State) (hfit : o + bs.length ≤ 0x1000) (hi : i < bs.length) :
    (mboxPut o bs s).mboxByte (o + i) = bs[i] := by
  have htake : bs.take (0x1000 - o) = bs := List.take_of_length_le (by omega)
  rw [State.mboxByte, mboxPut, modMon, lookD, htake, look_memPuts, if_pos (by omega), Nat.add_sub_cancel_left,
    List.getElem?_eq_getElem hi, Option.bind_some]
  split
  next hzero => rw [hzero]; rfl
  · rfl

theorem monWrote_keeps (p : Nat → Prop) (r : Requester) (a : Nat) (s : State) : Keeps p s (monWrote r a s) := by
  unfold monWrote
  split
  · exact raise_keeps p 0x58 2 _ s
  · exact keeps_refl p s

@[simp] theorem monWrote_mon (r : Requester) (a : Nat) (s : State) : (monWrote r a s).mon = s.mon := by
  unfold monWrote
  split
  · exact raise_mon _ _ _ s
  · rfl

@[simp] theorem monWrote_cfg (r : Requester) (a : Nat) (s : State) : (monWrote r a s).cfg = s.cfg := by
  unfold monWrote
  split
  · exact raise_cfg _ _ _ s
  · rfl

theorem regServe_mailbox_write (r : Requester) (a n : Nat) (bs : List Byte) (s t : State) (hbox : inMailbox a = true)
    (hgate : gate a n s = (true, t)) :
    regServe r a n (some bs) s = answer r 0 (monWrote r a (mboxPut (a - 0x47404000) bs t)) := by
  rw [regServe, hgate]
  simp only [hbox, if_true]

theorem mailboxWrite (s : State) (r : Requester) (a n : Nat) (bs : List Byte) : Claims.mailboxWrite s r a n bs := by
  intro hbox hform hlen hon
  have hwin := windowAt_of_inMailbox s.variant a hbox
  obtain ⟨t, hgate, -, -, hpass⟩ := gate_of_served a n s _ (testHold_of_domOn s dCTRL hon) hwin rfl hon hform
  obtain ⟨hn, hlo, hfit⟩ : 0 < n ∧ 0x47404000 ≤ a ∧ a + n ≤ 0x47405000 := by
    rw [formOk_iff] at hform
    simp only [inMailbox, Bool.and_eq_true, decide_eq_true_eq] at hbox
    omega
  refine ⟨_, ?_, answered_answer r 0 (monWrote r a (mboxPut (a - 0x47404000) bs t)), ?_, ?_⟩
  · have hbase : Config.regBase ≤ a := le_trans (by decide) hlo
    have hend : a < Config.regEnd := lt_of_lt_of_le (by omega : a < 0x47405000) (by decide)
    rw [exec_memoryAccess_of_register r a n (some bs) .clean s hbase hend hn (by simp [hlen]),
      regServe_mailbox_write r a n bs s t hbox hgate]
  · refine List.ext_getElem (by simp [hlen]) (fun i hi hi' => ?_)
    rw [List.getElem_map, List.getElem_range]
    have hread := mboxPut_mboxByte (a - 0x47404000) i bs t (by omega) hi'
    rw [State.mboxByte] at hread ⊢
    rw [← hread, answer, reply, monWrote_mon]
  · have hput : Keeps (fun _ => False) t (mboxPut (a - 0x47404000) bs t) := ⟨fun _ _ => rfl, fun _ _ => rfl⟩
    exact keeps_trans hpass (keeps_trans hput <| keeps_trans (monWrote_keeps _ r a _) (reply_keeps _ r _ _))

/-! ### Offsets that hold no register (R472) -/

theorem holdsReg_of_no_row (v : Variant) (a : Nat) (h : Hit) (hwin : windowAt v a = some h) (hrow : rowAt h = none) :
    holdsReg v a = false := by
  rw [holdsReg, hwin]
  exact congrArg Option.isSome hrow

theorem readValue_of_no_register (s : State) (r : Requester) (a : Nat) (hbox : inMailbox a = false)
    (hnone : holdsReg s.variant a = false) : s.readValue r a = 0 := by
  simp [State.readValue, hbox, hnone]

theorem readEffect_of_no_row (r : Requester) (a : Nat) (s : State) (h : Hit) (hwin : windowAt s.variant a = some h)
    (hrow : rowAt h = none) : readEffect r a s = s := by
  simp [readEffect, hwin, hrow]

theorem storeReg_of_no_register (r : Requester) (a : Nat) (v : Word) (s : State) (hbox : inMailbox a = false)
    (hnone : holdsReg s.variant a = false) : storeReg r a v s = monWrote r a s := by
  simp [storeReg, hbox, hnone]

theorem ovlPump_of_no_request (s : State) (hstart : s.cfg.start = none) : ovlPump s = s := by
  have hrun : ovlRun s = s := by rw [ovlRun, hstart]
  rw [ovlPump, hrun, hrun]

theorem noRegister (s : State) (r : Requester) (a : Nat) (v : Word) : Claims.noRegister s r a v := by
  intro hhold halign hbox hwindow hstart
  obtain ⟨h, hwin, hopen⟩ := (Option.any_eq_true _ _).mp hwindow
  obtain ⟨⟨hpres, hdom⟩, hrow⟩ : (h.present = true ∧ h.dom.all s.domOn = true) ∧ rowAt h = none := by
    simpa only [Bool.and_eq_true, Option.isNone_iff_eq_none] using hopen
  obtain ⟨t, hgate, hvar, hcfg, hpass⟩ :=
    gate_of_served a 4 s h hhold hwin hpres hdom ((formOk_iff a 4).mpr (.inl ⟨rfl, halign⟩))
  rw [← hvar] at hwin
  have hnone := holdsReg_of_no_row t.variant a h hwin hrow
  constructor
  · refine ⟨_, ?_, answered_answer r 0 t, keeps_trans hpass (reply_keeps _ r _ t)⟩
    rw [exec_rcRead, execRcRead, busRead, hgate]
    dsimp only
    rw [readValue_of_no_register t r a hbox hnone, readEffect_of_no_row r a t h hwin hrow]
  · refine ⟨_, ?_, answered_answer r 0 (monWrote r a t),
      keeps_trans hpass (keeps_trans (monWrote_keeps _ r a t) (reply_keeps _ r _ _))⟩
    have hidle : (answer r 0 (monWrote r a t)).cfg.start = none := by
      rw [answer, reply, monWrote_cfg, hcfg, hstart]
    rw [exec_registerWrite, execRegisterWrite, busWrite, hgate]
    dsimp only
    rw [storeReg_of_no_register r a v t hbox hnone, ovlPump_of_no_request _ hidle]

/-- Settles O59: the form check of `gate` decides, and an access that passes it reaches the mailbox, a register, or nothing. -/
theorem accessForm : Obligations.AccessForm := ⟨readForm, writeForm, mailboxWrite, noRegister⟩

end Sys2Proof.Proofs.RegisterMap

/-! What every command keeps: the queue behind its front command, the variant, the order of time and of free values, the
canonical form of memory, and the 1 bits of OTP. -/

namespace Sys2Proof.Proofs.Growth

open Sys2Proof.Machine

/-! ### The relation between a state and a later one -/

/-- From `s` to `t` the queue and the variant stay, time and the count of free values do not fall, memory keeps its
canonical form, and no bit of OTP is cleared. -/
structure Grows (s t : State) : Prop where
  pending : t.pending = s.pending
  variant : t.variant = s.variant
  now : s.now ≤ t.now
  fresh : s.fresh ≤ t.fresh
  mem : Memory.wf s.mem = true → Memory.wf t.mem = true
  otp : ∀ w, s.otp w &&& t.otp w = s.otp w

/-- What a command answers, where it answers a next state, is a later one. -/
abbrev GrowsNext (s : State) (r : Res) : Prop := ∀ t, r = .next t → Grows s t

/-- What an operation answers, where it answers a state, is a later one. -/
abbrev GrowsSome (s : State) (o : Option State) : Prop := ∀ t, o = some t → Grows s t

section
variable {α β : Type} {s₀ s t : State}

theorem Grows.refl (s : State) : Grows s s :=
  ⟨rfl, rfl, le_rfl, le_rfl, id, fun _ => BitVec.and_self⟩

/-- A state that shows the same queue, variant, time, free values, memory and OTP. -/
theorem Grows.congr (h : Grows s₀ s) (hpending : t.pending = s.pending) (hvariant : t.variant = s.variant)
    (hnow : s.now ≤ t.now) (hfresh : s.fresh ≤ t.fresh) (hmem : Memory.wf s.mem = true → Memory.wf t.mem = true)
    (hotp : t.cfg.otp = s.cfg.otp) : Grows s₀ t where
  pending := hpending.trans h.pending
  variant := hvariant.trans h.variant
  now := h.now.trans hnow
  fresh := h.fresh.trans hfresh
  mem := fun hwf => hmem (h.mem hwf)
  otp := fun w => by
    have hword : t.otp w = s.otp w := by rw [State.otp, State.otp, hotp]
    rw [hword]
    exact h.otp w

/-- An update of registers and units that leaves the boot state alone. -/
theorem Grows.update (h : Grows s₀ s) {regs live bus latch evr err tsu ref pwr thm mc rings ports groups ips pods pips
    slots feeds prcs prd hvc pke media rm oep sco auds nets nstrs pfis mon} :
    Grows s₀ { s with
      regs := regs, live := live, bus := bus, latch := latch, evr := evr, err := err, tsu := tsu, ref := ref
      pwr := pwr, thm := thm, mc := mc, rings := rings, ports := ports, groups := groups, ips := ips
      pods := pods, pips := pips, slots := slots, feeds := feeds, prcs := prcs, prd := prd, hvc := hvc
      pke := pke, media := media, rm := rm, oep := oep, sco := sco, auds := auds, nets := nets, nstrs := nstrs
      pfis := pfis, mon := mon } :=
  h.congr rfl rfl le_rfl le_rfl id rfl

/-- An update of registers, units and boot state that leaves OTP alone. -/
theorem Grows.updateCfg {regs live bus latch evr err tsu ref pwr thm mc rings ports groups ips pods pips
    slots feeds prcs prd hvc pke media rm oep sco auds nets nstrs pfis mon} {cfg : CfgSt}
    (hotp : cfg.otp = s.cfg.otp) (h : Grows s₀ s) :
    Grows s₀ { s with
      regs := regs, live := live, bus := bus, latch := latch, evr := evr, err := err, tsu := tsu, ref := ref
      pwr := pwr, thm := thm, mc := mc, rings := rings, ports := ports, groups := groups, ips := ips
      pods := pods, pips := pips, slots := slots, feeds := feeds, prcs := prcs, prd := prd, hvc := hvc
      pke := pke, media := media, rm := rm, oep := oep, sco := sco, auds := auds, nets := nets, nstrs := nstrs
      pfis := pfis, cfg := cfg, mon := mon } :=
  h.congr rfl rfl le_rfl le_rfl id hotp

theorem ite_grows {c : Prop} [Decidable c] (hs : Grows s₀ s) (ht : Grows s₀ t) : Grows s₀ (if c then s else t) := by
  split
  · exact hs
  · exact ht

theorem ite_grows_snd {c : Prop} [Decidable c] {p q : α × State} (hp : Grows s₀ p.2) (hq : Grows s₀ q.2) :
    Grows s₀ (if c then p else q).2 := by
  split
  · exact hp
  · exact hq

theorem foldl_grows {l : List α} {f : State → α → State} (hf : ∀ s x, Grows s₀ s → Grows s₀ (f s x))
    (h : Grows s₀ s) : Grows s₀ (l.foldl f s) := by
  induction l generalizing s with
  | nil => exact h
  | cons x l ih => exact ih (hf s x h)

theorem foldl_grows_snd {l : List α} {f : β × State → α → β × State} {p : β × State}
    (hf : ∀ p x, Grows s₀ p.2 → Grows s₀ (f p x).2) (h : Grows s₀ p.2) : Grows s₀ (l.foldl f p).2 := by
  induction l generalizing p with
  | nil => exact h
  | cons x l ih => exact ih (hf p x h)

theorem foldl_grows_snd_snd {γ : Type} {l : List α} {f : β × γ × State → α → β × γ × State} {p : β × γ × State}
    (hf : ∀ p x, Grows s₀ p.2.2 → Grows s₀ (f p x).2.2) (h : Grows s₀ p.2.2) : Grows s₀ (l.foldl f p).2.2 := by
  induction l generalizing p with
  | nil => exact h
  | cons x l ih => exact ih (hf p x h)

theorem foldl_grows_third {γ δ : Type} {l : List α} {f : β × γ × δ × State → α → β × γ × δ × State}
    {p : β × γ × δ × State} (hf : ∀ p x, Grows s₀ p.2.2.2 → Grows s₀ (f p x).2.2.2) (h : Grows s₀ p.2.2.2) :
    Grows s₀ (l.foldl f p).2.2.2 := by
  induction l generalizing p with
  | nil => exact h
  | cons x l ih => exact ih (hf p x h)

theorem Grows.of_third {γ : Type} {p q : α × β × γ × State} (e : p = q) (h :
    Grows s₀ p.2.2.2) : Grows s₀ q.2.2.2 := e ▸ h

theorem getD_grows {o : Option State} (ho : GrowsSome s₀ o) (h : Grows s₀ s) : Grows s₀ (o.getD s) := by
  cases o with
  | none => exact h
  | some t => exact ho t rfl

theorem map_grows {o : Option State} {f : State → State} (ho : GrowsSome s₀ o)
    (hf : ∀ s, Grows s₀ s → Grows s₀ (f s)) : GrowsSome s₀ (o.map f) := fun t e => by
  obtain ⟨s, hs, rfl⟩ := Option.map_eq_some_iff.mp e
  exact hf s (ho s hs)

theorem Grows.of_snd {p q : α × State} (e : p = q) (h : Grows s₀ p.2) : Grows s₀ q.2 := e ▸ h

theorem Grows.of_snd_snd {p q : α × β × State} (e : p = q) (h : Grows s₀ p.2.2) : Grows s₀ q.2.2 := e ▸ h

theorem Grows.of_fst {p q : State × α} (e : p = q) (h : Grows s₀ p.1) : Grows s₀ q.1 := e ▸ h

theorem next_grows (h : Grows s₀ s) : GrowsNext s₀ (.next s) := fun _ e => Host.Outcome.next.inj e ▸ h

theorem refused_grows {x : Refusal} : GrowsNext s₀ (.refused x) := fun _ e => by cases e

theorem guardOk_grows {ok : Bool} (h : Grows s₀ s) : GrowsNext s₀ (guardOk ok s) := fun t e => by
  obtain ⟨-, rfl⟩ := (guardOk_eq_next ok s t).mp e
  exact h

theorem ite_growsNext {c : Prop} [Decidable c] {x y : Res} (hx : GrowsNext s₀ x) (hy : GrowsNext s₀ y) :
    GrowsNext s₀ (if c then x else y) := by
  split
  · exact hx
  · exact hy

/-- Induction along a structural recursion on a number, for a body too large for the kernel to compare with its
  equation. -/
theorem brecOn_induction {T : Type} {P : T → Prop} (F : (n : ℕ) → Nat.below (motive := fun _ => T) n → T)
    (zero : ∀ below, P (F 0 below))
    (succ : ∀ k (below : Nat.below (motive := fun _ => T) (k + 1)), P below.1 → P (F (k + 1) below)) (k : ℕ) :
    P (Nat.brecOn k F) := by
  induction k with
  | zero => exact zero _
  | succ k ih => exact succ k _ ih

/-! ### Free values and memory -/

theorem draw_grows (h : Grows s₀ s) : Grows s₀ (draw s).2 :=
  h.congr rfl rfl le_rfl (Nat.le_succ _) id rfl

theorem dropFormer_grows {a b : Nat} (h : Grows s₀ s) : Grows s₀ (dropFormer a b s) :=
  ite_grows h h.update

theorem poke_grows {a : Nat} {bs : List Byte} (h : Grows s₀ s) : Grows s₀ (poke a bs s) :=
  (dropFormer_grows h).congr rfl rfl le_rfl le_rfl (memPuts_wf a bs) rfl

/-- Dropping bytes of memory, whatever else of the memory controllers and of the rest of the state changes. -/
theorem Grows.dropMem (h : Grows s₀ s) {regs live bus latch evr err tsu ref pwr thm mc rings ports groups ips pods pips
    slots feeds prcs prd hvc pke media rm oep sco auds nets nstrs pfis mon} {p : Host.Cell → Bool} :
    Grows s₀ { s with
      mem := s.mem.filter p, regs := regs, live := live, bus := bus, latch := latch, evr := evr, err := err
      tsu := tsu, ref := ref, pwr := pwr, thm := thm, mc := mc, rings := rings, ports := ports, groups := groups
      ips := ips, pods := pods, pips := pips, slots := slots, feeds := feeds, prcs := prcs, prd := prd
      hvc := hvc, pke := pke, media := media, rm := rm, oep := oep, sco := sco, auds := auds, nets := nets
      nstrs := nstrs, pfis := pfis, mon := mon } :=
  h.congr rfl rfl le_rfl le_rfl (Memory.wf_filter p) rfl

theorem keepMem_grows {p : Nat → Bool} (h : Grows s₀ s) : Grows s₀ (keepMem p s) :=
  h.dropMem

theorem some_grows (h : Grows s₀ s) : GrowsSome s₀ (some s) := fun _ e => Option.some.inj e ▸ h

theorem none_grows : GrowsSome s₀ none := fun _ e => by cases e

end

/-! ### What each function of the model keeps -/

section
variable {s₀ s : State}

theorem wr_grows {a : ℕ} {w : Word} (h : Grows s₀ s) : Grows s₀ (wr a w s) := by
  unfold wr
  exact Grows.update h

theorem setF_grows {x : Fld} {v : ℕ} (h : Grows s₀ s) : Grows s₀ (setF x v s) := by
  unfold setF
  exact wr_grows h

theorem flag_grows {x : Fld} (h : Grows s₀ s) : Grows s₀ (flag x s) := by
  unfold flag
  exact setF_grows h

theorem bumpBy_grows {a n : ℕ} (h : Grows s₀ s) : Grows s₀ (bumpBy a n s) := by
  unfold bumpBy
  exact wr_grows h

theorem bump_grows {a : ℕ} (h : Grows s₀ s) : Grows s₀ (bump a s) := by
  unfold bump
  exact bumpBy_grows h

theorem setPair_grows {lo hi v : ℕ} (h : Grows s₀ s) : Grows s₀ (setPair lo hi v s) := by
  unfold setPair
  exact wr_grows (wr_grows h)

theorem addPair_grows {lo hi n : ℕ} (h : Grows s₀ s) : Grows s₀ (addPair lo hi n s) := by
  unfold addPair
  exact setPair_grows h

theorem takeLive_grows {p : ℕ → Bool} (h : Grows s₀ s) : Grows s₀ (takeLive p s) := by
  unfold takeLive
  exact Grows.update h

theorem forceLive_grows {p : ℕ → Bool} {set : List (ℕ × Word)} (h : Grows s₀ s) : Grows s₀ (forceLive p set s) := by
  unfold forceLive
  exact Grows.update h

theorem plainWrite_grows {a : ℕ} {v : Word} (h : Grows s₀ s) : Grows s₀ (plainWrite a v s) := by
  unfold plainWrite
  split
  · exact h
  · split
    · exact h
    · exact wr_grows h

theorem reply_grows {r : Requester} {x : Reply} (h : Grows s₀ s) : Grows s₀ (reply r x s) := by
  unfold reply
  exact Grows.update h

theorem answer_grows {r : Requester} {w : Word} (h : Grows s₀ s) : Grows s₀ (answer r w s) := by
  unfold answer
  exact reply_grows h

theorem refuse_grows {r : Requester} (h : Grows s₀ s) : Grows s₀ (refuse r s) := by
  unfold refuse
  exact reply_grows h

theorem raiseAt_grows {t : Stamp} {blk loc arg : ℕ} (h : Grows s₀ s) : Grows s₀ (raiseAt t blk loc arg s) := by
  unfold raiseAt
  exact ite_grows (Grows.update h) h

theorem raise_grows {blk loc arg : ℕ} (h : Grows s₀ s) : Grows s₀ (raise blk loc arg s) := by
  unfold raise
  exact raiseAt_grows h

theorem injDone_grows {k : ℕ} (h : Grows s₀ s) : Grows s₀ (injDone k s) := by
  unfold injDone
  exact raise_grows (setF_grows (Grows.update h))

theorem slotExam_grows {det k : ℕ} {x : Bool × State} (h : Grows s₀ x.2) : Grows s₀ (slotExam det k x).2 := by
  unfold slotExam
  split
  rename_i s1 _ s2
  split
  · exact h
  · exact ite_grows_snd (ite_grows_snd (ite_grows (injDone_grows (setF_grows (Grows.update h))) (setF_grows
      (Grows.update h))) (Grows.update h)) h

theorem inject_grows {det : ℕ} (h : Grows s₀ s) : Grows s₀ (inject det s).2 := by
  unfold inject
  exact ite_grows_snd h (slotExam_grows (slotExam_grows (slotExam_grows (slotExam_grows h))))

theorem examine_grows {det : ℕ} {real : Bool} (h : Grows s₀ s) : Grows s₀ (examine det real s).2 := by
  unfold examine
  split
  rename_i s1 _ s2 e
  have h2 : Grows s₀ s2 := Grows.of_snd e (inject_grows h)
  exact h2

theorem logRec_grows {kind det : ℕ} {inj : Bool} {arg addr : ℕ} (h :
    Grows s₀ s) : Grows s₀ (logRec kind det inj arg addr s) := by
  unfold logRec
  exact ite_grows h (Grows.update h)

theorem lasting_grows {kind det : ℕ} {inj : Bool} {arg addr : ℕ} (h :
    Grows s₀ s) : Grows s₀ (lasting kind det inj arg addr s) := by
  unfold lasting
  exact logRec_grows (raise_grows (setF_grows (setF_grows h)))

theorem transient_grows {det : ℕ} {inj : Bool} {arg addr : ℕ} (h :
    Grows s₀ s) : Grows s₀ (transient det inj arg addr s) := by
  unfold transient
  exact ite_grows (ite_grows (Grows.update (raise_grows h)) (logRec_grows (Grows.update (raise_grows h))))
      (raise_grows h)

theorem detectN_grows {n det : ℕ} {inj : Bool} {arg addr : ℕ} (h :
    Grows s₀ s) : Grows s₀ (detectN n det inj arg addr s) := by
  unfold detectN
  exact ite_grows h (ite_grows (lasting_grows h) (Grows.update h))

theorem detect_grows {det : ℕ} {inj : Bool} {arg addr : ℕ} (h : Grows s₀ s) : Grows s₀ (detect det inj arg addr s) := by
  unfold detect
  exact detectN_grows h

theorem examDetect_grows {det : ℕ} {real : Bool} {arg addr : ℕ} (h :
    Grows s₀ s) : Grows s₀ (examDetect det real arg addr s).2 := by
  unfold examDetect
  split
  rename_i s1 _ s2 e
  have h2 : Grows s₀ s2 := Grows.of_snd e (examine_grows h)
  exact ite_grows (detect_grows h2) h2

theorem tsuTime_grows {sec units : ℕ} (h : Grows s₀ s) : Grows s₀ (tsuTime sec units s) := by
  unfold tsuTime
  exact Grows.update h

theorem tsuCarries_grows {sec u inc c : ℕ} (h : Grows s₀ s) : Grows s₀ (tsuCarries sec u inc c s) := by
  unfold tsuCarries
  exact ite_grows (foldl_grows (fun _ _ h2 => raiseAt_grows h2) h) h

theorem tsuRun_grows {k : ℕ} (h : Grows s₀ s) : Grows s₀ (tsuRun k s) := by
  unfold tsuRun
  exact tsuTime_grows (tsuCarries_grows h)

theorem clockChanged_grows (h : Grows s₀ s) : Grows s₀ (clockChanged s) := by
  unfold clockChanged
  exact Grows.update h

theorem tsuStepTick_grows {ds dn : ℤ} (h : Grows s₀ s) : Grows s₀ (tsuStepTick ds dn s) := by
  unfold tsuStepTick
  exact ite_grows (flag_grows (tsuRun_grows h)) (ite_grows (raise_grows (clockChanged_grows (raise_grows (flag_grows
      (tsuTime_grows h))))) (clockChanged_grows (raise_grows (flag_grows (tsuTime_grows h)))))

theorem tsuFirst_grows (h : Grows s₀ s) : Grows s₀ (tsuFirst s) := by
  unfold tsuFirst
  extract_lets +onlyGivenNames _ s1 set stp _ s2
  have h1 : Grows s₀ s1 := by
    unfold s1
    split
    · exact setF_grows (setF_grows (Grows.update h))
    · exact h
  have h2 : Grows s₀ s2 := Grows.update h1
  clear_value set stp
  split
  · exact tsuRun_grows h2
  · exact tsuStepTick_grows h2
  · extract_lets +onlyGivenNames s3
    have h3 : Grows s₀ s3 := clockChanged_grows (raise_grows (flag_grows (tsuTime_grows h2)))
    split
    · exact flag_grows h3
    · exact h3

theorem slotsSkip_grows {det d : ℕ} (h : Grows s₀ s) : Grows s₀ (slotsSkip det d s) := by
  unfold slotsSkip
  exact Grows.update h

theorem parityTicks_grows {m k : ℕ} (h : Grows s₀ s) : Grows s₀ (parityTicks m k s) := by
  induction m generalizing k s with
  | zero =>
    rw [parityTicks]
    exact slotsSkip_grows h
  | succ m ih =>
    rw [parityTicks]
    split
    · exact h
    · exact ite_grows (slotsSkip_grows h) (ih (examDetect_grows (setF_grows (slotsSkip_grows h))))

theorem tsuParity_grows {k : ℕ} (h : Grows s₀ s) : Grows s₀ (tsuParity k s) := by
  unfold tsuParity
  exact parityTicks_grows h

theorem advanceTo_grows {t : Nat} (h : Grows s₀ s) : Grows s₀ (advanceTo t s) := by
  unfold advanceTo
  split
  · exact h
  next hlater =>
    have h1 : Grows s₀ { s with now := t } := h.congr rfl rfl (by dsimp only; omega) le_rfl id rfl
    exact ite_grows h1 (ite_grows (tsuRun_grows (tsuParity_grows h1))
      (tsuRun_grows (tsuParity_grows (tsuFirst_grows (tsuParity_grows h1)))))

theorem openRow_grows {ch bank row hint : ℕ} (h : Grows s₀ s) : Grows s₀ (openRow ch bank row hint s) := by
  unfold openRow
  exact Grows.update h

theorem closeIdle_grows (h : Grows s₀ s) : Grows s₀ (closeIdle s) := by
  unfold closeIdle
  exact Grows.update h

theorem dataCycle_grows {ch cls : ℕ} (h : Grows s₀ s) : Grows s₀ (dataCycle ch cls s) := by
  unfold dataCycle
  extract_lets +onlyGivenNames w
  split
  split
  exact Grows.update h

theorem burst_grows {cls off : ℕ} (h : Grows s₀ s) : Grows s₀ (burst cls off s) := by
  unfold burst
  exact dataCycle_grows (openRow_grows (Grows.update h))

theorem tryTwice_grows {det : ℕ} {first retry : Bool} {arg : ℕ} (h :
    Grows s₀ s) : Grows s₀ (tryTwice det first retry arg s).2 := by
  unfold tryTwice
  split
  rename_i s1 _ s2 e
  have h2 : Grows s₀ s2 := Grows.of_snd e (examine_grows h)
  split
  · exact h2
  · split
    rename_i s3 _ s4 e2
    have h3 : Grows s₀ s4 := Grows.of_snd e2 (examine_grows h2)
    exact ite_grows_snd (lasting_grows h3) (transient_grows h3)

theorem trackRun_grows {ch : ℕ} {first retry : Bool} (h : Grows s₀ s) : Grows s₀ (trackRun ch first retry s) := by
  unfold trackRun
  extract_lets +onlyGivenNames _ s1
  have h1 : Grows s₀ s1 := Grows.update h
  split
  rename_i s2 _ s3 e
  have h2 : Grows s₀ s3 := Grows.of_snd e (tryTwice_grows h1)
  exact ite_grows (raise_grows h2) h2

theorem trackFirst_grows {ch : ℕ} (h : Grows s₀ s) : Grows s₀ (trackFirst ch s) := by
  unfold trackFirst
  exact ite_grows (trackRun_grows h) h

theorem bursts_grows {cls a n : ℕ} (h : Grows s₀ s) : Grows s₀ (bursts cls a n s) := by
  unfold bursts
  split
  · exact ite_grows h (foldl_grows (fun _ _ h2 => burst_grows (trackFirst_grows h2)) (closeIdle_grows h))
  · exact h

theorem eccCheck_grows {a : ℕ} {found : EccFound} (h : Grows s₀ s) : Grows s₀ (eccCheck a found s).2 := by
  unfold eccCheck
  split
  · exact h
  · split
    rename_i s1 _ s2 e
    have h2 : Grows s₀ s2 := Grows.of_snd e (examine_grows h)
    split
    rename_i s3 _ s4 e2
    have h3 : Grows s₀ s4 := Grows.of_snd e2 (examine_grows h2)
    exact ite_grows_snd (detect_grows (ite_grows (raise_grows (wr_grows (bump_grows h3))) h3)) (ite_grows_snd
        (Grows.update h3) h3)

theorem fillDone_grows {k : ℕ} (h : Grows s₀ s) : Grows s₀ (fillDone k s) := by
  unfold fillDone
  refine ite_grows (setF_grows ?_) h
  split
  · exact (dropFormer_grows (Grows.update h)).dropMem
  · exact Grows.update h

theorem awaitFill_grows {a n : ℕ} (h : Grows s₀ s) : Grows s₀ (awaitFill a n s) := by
  unfold awaitFill
  refine foldl_grows (fun s1 x h2 => ?_) h
  split
  · exact ite_grows (fillDone_grows h2) h2
  · exact h2

theorem rereadDone_grows {a : ℕ} {found : EccFound} (h : Grows s₀ s) : Grows s₀ (rereadDone a found s) := by
  unfold rereadDone
  split
  · extract_lets +onlyGivenNames _ s1 m dram
    have h1 : Grows s₀ s1 := Grows.update h
    split
    rename_i s2 _ s3 e
    have h2 : Grows s₀ s3 := Grows.of_snd e (examine_grows h1)
    split
    rename_i s4 _ s5 e2
    have h3 : Grows s₀ s5 := Grows.of_snd e2 (examine_grows h2)
    extract_lets +onlyGivenNames ch s6 s7 s8 s9
    have h6 : Grows s₀ s6 := ite_grows (raise_grows (wr_grows (bump_grows h3))) h3
    have h7 : Grows s₀ s7 := ite_grows (wr_grows h3) h3
    have h8 : Grows s₀ s8 := ite_grows (raise_grows (bump_grows h7)) h7
    have h9 : Grows s₀ s9 := ite_grows (raise_grows (bump_grows h7)) h7
    exact ite_grows (detect_grows h6) (ite_grows (lasting_grows h8) (transient_grows h9))
  · exact h

theorem rereadFirst_grows {a n : ℕ} (h : Grows s₀ s) : Grows s₀ (rereadFirst a n s) := by
  unfold rereadFirst
  exact foldl_grows (fun _ _ h2 => ite_grows (rereadDone_grows h2) h2) h

theorem eccRange_grows {a n : ℕ} (h : Grows s₀ s) : Grows s₀ (eccRange a n s).2 := by
  unfold eccRange
  split
  · exact h
  · extract_lets +onlyGivenNames w
    refine foldl_grows_snd (fun s1 x h2 => ?_) h
    split
    rename_i s2 _ s3 e
    have h3 : Grows s₀ s3 := Grows.of_snd e (eccCheck_grows h2)
    exact h3

theorem rmwCheck_grows {a n : ℕ} {found : EccFound} (h : Grows s₀ s) : Grows s₀ (rmwCheck a n found s).2 := by
  unfold rmwCheck
  exact foldl_grows_snd_snd (fun _ _ h2 => eccCheck_grows h2) h

theorem dmaSpan_grows {cls a n : ℕ} (h : Grows s₀ s) : Grows s₀ (dmaSpan cls a n s).2 := by
  unfold dmaSpan
  exact ite_grows_snd (eccRange_grows (bursts_grows (rereadFirst_grows (awaitFill_grows h)))) (rereadFirst_grows
      (awaitFill_grows h))

theorem dmaRead_grows {cls a n : ℕ} (h : Grows s₀ s) : Grows s₀ (dmaRead cls a n s).2 := by
  unfold dmaRead
  split
  rename_i s1 _ s2 e
  have h2 : Grows s₀ s2 := Grows.of_snd e (dmaSpan_grows h)
  exact h2

theorem dmaTake_grows {cls a n : ℕ} (h : Grows s₀ s) : Grows s₀ (dmaTake cls a n s).2 := by
  unfold dmaTake
  split
  · rename_i s1 _ s2 e
    have h2 : Grows s₀ s2 := Grows.of_snd e (dmaRead_grows h)
    exact h2
  · rename_i s1 s2 e
    have h2 : Grows s₀ s2 := Grows.of_snd e (dmaRead_grows h)
    exact h2

theorem dmaWrite_grows {cls a : ℕ} {bs : List Byte} (h : Grows s₀ s) : Grows s₀ (dmaWrite cls a bs s).2 := by
  unfold dmaWrite
  extract_lets +onlyGivenNames s1 s2
  have h1 : Grows s₀ s1 := rereadFirst_grows (awaitFill_grows h)
  have h2 : Grows s₀ s2 := bursts_grows h1
  split
  · split
    rename_i s3 _ s4 e
    have h3 : Grows s₀ s4 := Grows.of_snd e (rmwCheck_grows h2)
    exact ite_grows_snd (poke_grows h3) h3
  · exact h1

theorem dmaPut_grows {cls a : ℕ} {bs : List Byte} (h : Grows s₀ s) : Grows s₀ (dmaPut cls a bs s) := by
  unfold dmaPut
  exact dmaWrite_grows h

/-! ### The model's file `Rings` -/

theorem putRing_grows {r : RingId} {g : RingSt} (h : Grows s₀ s) : Grows s₀ (putRing r g s) := by
  unfold putRing
  exact wr_grows (Grows.update h)

theorem ringDrop_grows {r : RingId} (h : Grows s₀ s) : Grows s₀ (ringDrop r s) := by
  unfold ringDrop
  exact addPair_grows h

theorem ringTake_grows {r : RingId} (h : Grows s₀ s) : Grows s₀ (ringTake r s).2 := by
  unfold ringTake
  extract_lets +onlyGivenNames bufs g
  split
  · exact h
  · split
    · exact putRing_grows h
    · exact ringDrop_grows h

theorem ringAbandon_grows {r : RingId} (h : Grows s₀ s) : Grows s₀ (ringAbandon r s) := by
  unfold ringAbandon
  extract_lets +onlyGivenNames g
  split
  · exact h
  · exact ringDrop_grows (putRing_grows h)

theorem readDesc_grows {c : ConsumerId} {r : RingId} {b : ℕ} (h : Grows s₀ s) : Grows s₀ (readDesc c r b s).2 := by
  unfold readDesc
  exact dmaTake_grows h

theorem ringRelease_grows {r : RingId} {c : ConsumerId} {b : ℕ} (h : Grows s₀ s) : Grows s₀ (ringRelease r c b s) := by
  unfold ringRelease
  exact ite_grows (putRing_grows h) h

theorem encRefuse_grows {r : RingId} {b : ℕ} (h : Grows s₀ s) : Grows s₀ (encRefuse r b s) := by
  unfold encRefuse
  obtain ⟨readDesc', hreadDesc'⟩ : ∃ f, f = readDesc := ⟨_, rfl⟩
  have hreadDesc := @readDesc_grows s₀
  rw [← hreadDesc'] at hreadDesc ⊢
  refine foldl_grows (fun s1 x h2 => ?_) h
  split
  · split
    rename_i s2 _ s3 e
    have h3 : Grows s₀ s3 := Grows.of_snd e (hreadDesc h2)
    exact ite_grows h3 (raise_grows (bump_grows (ringRelease_grows h3)))
  · exact h2

theorem ringOffer_grows {r : RingId} (h : Grows s₀ s) : Grows s₀ (ringOffer r s) := by
  unfold ringOffer
  extract_lets +onlyGivenNames g
  split
  · exact h
  · exact encRefuse_grows (addPair_grows (putRing_grows h))

theorem ringPublish_grows {r : RingId} (h : Grows s₀ s) : Grows s₀ (ringPublish r s) := by
  unfold ringPublish
  extract_lets +onlyGivenNames g
  split
  · exact ringOffer_grows (dmaPut_grows h)
  · exact h

theorem ringAttach_grows {r : RingId} {c : ConsumerId} (h : Grows s₀ s) : Grows s₀ (ringAttach r c s) := by
  unfold ringAttach
  exact ite_grows h (putRing_grows h)

theorem ringDetach_grows {r : RingId} {c : ConsumerId} (h : Grows s₀ s) : Grows s₀ (ringDetach r c s) := by
  unfold ringDetach
  exact ite_grows (putRing_grows h) h

theorem detachAll_grows {p : ConsumerId → Bool} (h : Grows s₀ s) : Grows s₀ (detachAll p s) := by
  unfold detachAll
  exact foldl_grows (fun _ _ h2 => foldl_grows (fun _ _ h3 => ite_grows (ringDetach_grows h3) h3) h2) h

theorem ringGeomWrite_grows {r : RingId} {which : ℕ} {v : Word} (h :
    Grows s₀ s) : Grows s₀ (ringGeomWrite r which v s) := by
  unfold ringGeomWrite
  split
  · exact h
  · exact ite_grows (plainWrite_grows h) (flag_grows h)

theorem ringBufsWrite_grows {r : RingId} {v : Word} (h : Grows s₀ s) : Grows s₀ (ringBufsWrite r v s) := by
  unfold ringBufsWrite
  exact ite_grows (putRing_grows (plainWrite_grows h)) (flag_grows h)

theorem execConsumerRelease_grows {r : RingId} {c : ConsumerId} (h :
    Grows s₀ s) : GrowsNext s₀ (execConsumerRelease r c s) := by
  unfold execConsumerRelease
  refine guardOk_grows ?_
  split
  · split
    · exact ringRelease_grows h
    · exact h
  · exact h

theorem execConsumerDetach_grows {r : RingId} {c : ConsumerId} (h :
    Grows s₀ s) : GrowsNext s₀ (execConsumerDetach r c s) := by
  unfold execConsumerDetach
  exact guardOk_grows (ite_grows (ringDetach_grows h) h)

/-! ### The model's file `PwrBase` -/

theorem showState_grows (h : Grows s₀ s) : Grows s₀ (showState s) := by
  unfold showState
  exact ite_grows (setF_grows h) h

theorem markUnwanted_grows (h : Grows s₀ s) : Grows s₀ (markUnwanted s) := by
  unfold markUnwanted
  exact Grows.update h

theorem pwrNext_grows (h : Grows s₀ s) : Grows s₀ (pwrNext s) := by
  unfold pwrNext
  extract_lets +onlyGivenNames s1
  have h1 : Grows s₀ s1 := showState_grows (markUnwanted_grows h)
  split
  · exact h1
  · split
    · exact h1
    · exact setF_grows (Grows.update h1)

theorem leaveSelfRef_grows {d : ℕ} (h : Grows s₀ s) : Grows s₀ (leaveSelfRef d s) := by
  unfold leaveSelfRef
  exact ite_grows (Grows.update h) h

theorem gpioSettle_grows (h : Grows s₀ s) : Grows s₀ (gpioSettle s) := by
  unfold gpioSettle
  exact foldl_grows (fun _ _ h2 => ite_grows h2 (ite_grows (raiseAt_grows (setF_grows h2)) h2)) (setF_grows h)

theorem padsUp_grows {d : ℕ} (h : Grows s₀ s) : Grows s₀ (padsUp d s) := by
  unfold padsUp
  exact ite_grows (gpioSettle_grows h) (ite_grows (foldl_grows (fun _ _ h2 => ite_grows h2 (flag_grows h2)) h)
      (ite_grows (ite_grows h (setF_grows (addPair_grows (Grows.update h)))) h))

theorem domainUp_grows {d : ℕ} {parity : Bool} (h : Grows s₀ s) : Grows s₀ (domainUp d parity s) := by
  unfold domainUp
  exact pwrNext_grows (padsUp_grows (raise_grows (setF_grows (setF_grows (Grows.update (leaveSelfRef_grows
      (examDetect_grows h)))))))

theorem restoreRegs_grows {p : Cls → Option ℕ → Bool} (h : Grows s₀ s) : Grows s₀ (restoreRegs p s) := by
  unfold restoreRegs
  exact Grows.update h

theorem latchPads_grows {d : ℕ} (h : Grows s₀ s) : Grows s₀ (latchPads d s) := by
  unfold latchPads
  exact setF_grows (ite_grows h (Grows.update h))

theorem dropUnit_grows {d : ℕ} (h : Grows s₀ s) : Grows s₀ (dropUnit d s) := by
  unfold dropUnit
  exact Grows.update h

theorem disarmDomain_grows {d : ℕ} (h : Grows s₀ s) : Grows s₀ (disarmDomain d s) := by
  unfold disarmDomain
  exact foldl_grows (fun _ _ h2 => ite_grows (setF_grows (setF_grows (Grows.update h2))) h2) h

theorem rmLocksOff_grows (h : Grows s₀ s) : Grows s₀ (rmLocksOff s) := by
  unfold rmLocksOff
  exact ite_grows (Grows.update h) (setF_grows (addPair_grows (Grows.update h)))

theorem domainDown_grows {d : ℕ} (h : Grows s₀ s) : Grows s₀ (domainDown d s) := by
  unfold domainDown
  extract_lets +onlyGivenNames s1 s2 s3 s4 _ s5 s6 s7 _ s8
  have h1 : Grows s₀ s1 := detachAll_grows h
  have h2 : Grows s₀ s2 := latchPads_grows (ite_grows (rmLocksOff_grows h1) h1)
  have h3 : Grows s₀ s3 := disarmDomain_grows h2
  have h4 : Grows s₀ s4 := dropUnit_grows (restoreRegs_grows h3)
  have h5 : Grows s₀ s5 := ite_grows (Grows.update h4) h4
  have h6 : Grows s₀ s6 := setF_grows h5
  have h7 : Grows s₀ s7 := setF_grows h6
  have h8 : Grows s₀ s8 := Grows.update h7
  exact raise_grows h8

theorem finishJob_grows (h : Grows s₀ s) : Grows s₀ (finishJob s) := by
  unfold finishJob
  split
  · exact domainUp_grows (advanceTo_grows h)
  · exact domainDown_grows (advanceTo_grows h)
  · exact h

theorem wakeDomain_grows {d : ℕ} (h : Grows s₀ s) : Grows s₀ (wakeDomain d s) := by
  unfold wakeDomain
  exact Grows.update (foldl_grows (fun _ _ h2 => ite_grows h2 (pwrNext_grows (Grows.update (finishJob_grows h2))))
      (pwrNext_grows (Grows.update h)))

theorem accErr_grows {cause a : ℕ} (h : Grows s₀ s) : Grows s₀ (accErr cause a s) := by
  unfold accErr
  exact setF_grows (setF_grows (bump_grows h))

theorem gate_grows {a width : ℕ} (h : Grows s₀ s) : Grows s₀ (gate a width s).2 := by
  unfold gate
  split
  · exact h
  · split
    · exact accErr_grows h
    · split
      · exact accErr_grows h
      · split
        · exact accErr_grows h
        · split
          · exact h
          · split
            · exact ite_grows (Grows.update h) h
            · split
              · exact h
              · split
                · exact ite_grows (bump_grows h) (raise_grows (Grows.update (bump_grows h)))
                · exact wakeDomain_grows h

theorem monWrote_grows {r : Requester} {a : ℕ} (h : Grows s₀ s) : Grows s₀ (monWrote r a s) := by
  unfold monWrote
  exact ite_grows (raise_grows h) h

theorem writeBy_grows {r : Requester} {a : ℕ} {k : State → State} (h1 : ∀ y1, Grows s₀ y1 → Grows s₀ (k y1)) (h2 :
    Grows s₀ s) : Grows s₀ (writeBy r a k s) := by
  unfold writeBy
  split
  · rename_i s1 s2 e
    have h : Grows s₀ s2 := Grows.of_snd e (gate_grows h2)
    exact answer_grows (monWrote_grows (h1 _ h))
  · rename_i s1 s2 e
    have h : Grows s₀ s2 := Grows.of_snd e (gate_grows h2)
    exact refuse_grows h

theorem voteWrite_grows {r : Requester} {c : ℕ} {v : Word} (h : Grows s₀ s) : Grows s₀ (voteWrite r c v s) := by
  unfold voteWrite
  exact ite_grows (pwrNext_grows (setF_grows (ite_grows h (flag_grows h)))) (flag_grows h)

theorem execVote_grows {r : Requester} {c : ℕ} {v : Word} (h : Grows s₀ s) : GrowsNext s₀ (execVote r c v s) := by
  unfold execVote
  exact guardOk_grows (writeBy_grows (fun _ h2 => voteWrite_grows h2) h)

theorem execDomainPowerDownStart_grows {d : ℕ} (h : Grows s₀ s) : GrowsNext s₀ (execDomainPowerDownStart d s) := by
  unfold execDomainPowerDownStart
  refine guardOk_grows ?_
  split
  · exact h
  · exact ite_grows h (setF_grows (Grows.update (advanceTo_grows h)))

theorem execDomainOn_grows {d : ℕ} {parity : Bool} (h : Grows s₀ s) : GrowsNext s₀ (execDomainOn d parity s) := by
  unfold execDomainOn
  refine guardOk_grows ?_
  split
  · exact domainUp_grows h
  · split
    · exact ite_grows (domainUp_grows h) h
    · exact h

theorem execQuiesceTimeout_grows {d : ℕ} (h : Grows s₀ s) : GrowsNext s₀ (execQuiesceTimeout d s) := by
  unfold execQuiesceTimeout
  exact guardOk_grows (ite_grows (raise_grows (advanceTo_grows h)) h)

theorem execDomainOff_grows {d : ℕ} (h : Grows s₀ s) : GrowsNext s₀ (execDomainOff d s) := by
  unfold execDomainOff
  exact guardOk_grows (ite_grows (pwrNext_grows (domainDown_grows h)) h)

theorem execAccessHoldEnd_grows {d : ℕ} (h : Grows s₀ s) : GrowsNext s₀ (execAccessHoldEnd d s) := by
  unfold execAccessHoldEnd
  refine guardOk_grows ?_
  split
  · exact h
  · exact pwrNext_grows (Grows.update (advanceTo_grows h))

theorem padReleaseWrite_grows {v : Word} (h : Grows s₀ s) : Grows s₀ (padReleaseWrite v s) := by
  unfold padReleaseWrite
  exact ite_grows (flag_grows (ite_grows h (flag_grows h))) (ite_grows (gpioSettle_grows (setF_grows (Grows.update
      (ite_grows h (flag_grows h))))) (setF_grows (Grows.update (ite_grows h (flag_grows h)))))

theorem execPadRelease_grows {r : Requester} {v : Word} (h : Grows s₀ s) : GrowsNext s₀ (execPadRelease r v s) := by
  unfold execPadRelease
  exact next_grows (writeBy_grows (fun _ h2 => padReleaseWrite_grows h2) h)

theorem execPadHeld_grows {d : ℕ} (h : Grows s₀ s) : GrowsNext s₀ (execPadHeld d s) := by
  unfold execPadHeld
  refine guardOk_grows ?_
  split
  · exact h
  · exact ite_grows (raise_grows (Grows.update (advanceTo_grows h))) h

/-! ### The model's file `HvcEnc` -/

theorem modEc_grows {c : ℕ} {k : EcSt → EcSt} (h : Grows s₀ s) : Grows s₀ (modEc c k s) := by
  unfold modEc
  exact Grows.update h

theorem showMarks_grows {c : ℕ} {cur : Option ℕ} (h : Grows s₀ s) : Grows s₀ (showMarks c cur s) := by
  unfold showMarks
  exact wr_grows h

theorem ecError_grows {c : ℕ} (h : Grows s₀ s) : Grows s₀ (ecError c s) := by
  unfold ecError
  exact raise_grows (flag_grows (modEc_grows h))

theorem ecSkipBad_grows {c : ℕ} (h : Grows s₀ s) : Grows s₀ (ecSkipBad c s) := by
  unfold ecSkipBad
  split
  · exact h
  · refine foldl_grows (fun s1 x h2 => ?_) h
    split
    rename_i s2 _ s3 e
    have h3 : Grows s₀ s3 := Grows.of_snd e (readDesc_grows h2)
    exact ite_grows h3 (raise_grows (bump_grows (ringRelease_grows h3)))

theorem ecTake_grows {c : ℕ} (h : Grows s₀ s) : Grows s₀ (ecTake c s) := by
  unfold ecTake
  split
  · exact h
  · extract_lets +onlyGivenNames s1 want old s2 s3 s4
    have h1 : Grows s₀ s1 := forceLive_grows h
    have h2 : Grows s₀ s2 := by
      unfold s2
      clear_value old
      split
      · exact ringDetach_grows h1
      · exact h1
    have h3 : Grows s₀ s3 := by
      unfold s3
      split
      · exact h1
      · clear_value want
        split
        · exact ringAttach_grows h2
        · exact h2
    have h4 : Grows s₀ s4 := modEc_grows h3
    exact ecSkipBad_grows (ite_grows h4 (ecError_grows h4))

theorem ecApplyWrite_grows {c : ℕ} {v : Word} (h : Grows s₀ s) : Grows s₀ (ecApplyWrite c v s) := by
  unfold ecApplyWrite
  exact ite_grows (ite_grows (ecTake_grows (modEc_grows h)) (modEc_grows h)) h

theorem execEncApply_grows {r : Requester} {c : ℕ} {v : Word} (h :
    Grows s₀ s) : GrowsNext s₀ (execEncApply r c v s) := by
  unfold execEncApply
  exact guardOk_grows (writeBy_grows (fun _ h2 => ecApplyWrite_grows h2) h)

theorem ecIdrWrite_grows {c : ℕ} {v : Word} (h : Grows s₀ s) : Grows s₀ (ecIdrWrite c v s) := by
  unfold ecIdrWrite
  exact ite_grows (flag_grows h) h

theorem execIdrRequest_grows {r : Requester} {c : ℕ} {v : Word} (h :
    Grows s₀ s) : GrowsNext s₀ (execIdrRequest r c v s) := by
  unfold execIdrRequest
  exact guardOk_grows (writeBy_grows (fun _ h2 => ecIdrWrite_grows h2) h)

theorem ecLtWrite_grows {c : ℕ} {v : Word} (h : Grows s₀ s) : Grows s₀ (ecLtWrite c v s) := by
  unfold ecLtWrite
  exact ite_grows h (ite_grows (flag_grows h) (wr_grows h))

theorem execLtMark_grows {r : Requester} {c : ℕ} {v : Word} (h : Grows s₀ s) : GrowsNext s₀ (execLtMark r c v s) := by
  unfold execLtMark
  exact guardOk_grows (writeBy_grows (fun _ h2 => ecLtWrite_grows h2) h)

theorem execLtDrop_grows {r : Requester} {c : ℕ} {v : Word} (h : Grows s₀ s) : GrowsNext s₀ (execLtDrop r c v s) := by
  unfold execLtDrop
  exact guardOk_grows (writeBy_grows (fun _ h2 => ecLtWrite_grows h2) h)

theorem ecPoolWrite_grows {c a : ℕ} {v : Word} (h : Grows s₀ s) : Grows s₀ (ecPoolWrite c a v s) := by
  unfold ecPoolWrite
  exact ite_grows (plainWrite_grows h) (flag_grows h)

theorem ecRepHeadWrite_grows {c : ℕ} {v : Word} (h : Grows s₀ s) : Grows s₀ (ecRepHeadWrite c v s) := by
  unfold ecRepHeadWrite
  exact ite_grows (flag_grows h) (plainWrite_grows h)

theorem planes422_grows {a stride w h : ℕ} (hs : Grows s₀ s) : Grows s₀ (planes422 a stride w h s).2 := by
  unfold planes422
  exact foldl_grows_snd (fun _ _ h2 => dmaTake_grows h2) hs

theorem ecQps_grows {c n : ℕ} (h : Grows s₀ s) : Grows s₀ (ecQps c n s).2 := by
  unfold ecQps
  extract_lets +onlyGivenNames base clampQp
  split
  · split
    · rename_i s1 _ s2 e
      have h2 : Grows s₀ s2 := Grows.of_snd e (dmaRead_grows h)
      exact h2
    · rename_i s1 s2 e
      have h2 : Grows s₀ s2 := Grows.of_snd e (dmaRead_grows h)
      refine foldl_grows_snd (fun s3 x h3 => ?_) h2
      split
      rename_i s4 _ s5 e2
      have h4 : Grows s₀ s5 := Grows.of_snd e2 (draw_grows h3)
      exact h4
  · exact h

theorem ecBegin_grows {c : ℕ} {r : RingId} {b : ℕ} {i : FrameInfo} {x : BufInfo} (h :
    Grows s₀ s) : Grows s₀ (ecBegin c r b i x s) := by
  unfold ecBegin
  split
  extract_lets +onlyGivenNames causes e lt pics pics1 pool poc
  split
  rename_i s1 _ s2 e2
  have h2 : Grows s₀ s2 := Grows.of_snd e2 (ecQps_grows h)
  extract_lets +onlyGivenNames prof range
  split
  rename_i s3 _ s4 e3
  have h3 : Grows s₀ s4 := Grows.of_snd e3 (planes422_grows h2)
  exact showMarks_grows (modEc_grows (Grows.update (wr_grows (wr_grows h3))))

theorem ecServe_grows {c : ℕ} (h : Grows s₀ s) : Grows s₀ (ecServe c s) := by
  unfold ecServe
  obtain ⟨readDesc', hreadDesc'⟩ : ∃ f, f = readDesc := ⟨_, rfl⟩
  have hreadDesc := @readDesc_grows s₀
  rw [← hreadDesc'] at hreadDesc ⊢
  split
  · exact h
  · split
    · exact h
    · split
      rename_i s1 _ s2 e
      have h2 : Grows s₀ s2 := Grows.of_snd e (hreadDesc h)
      extract_lets +onlyGivenNames i n need bufs
      split
      · exact ecError_grows h2
      · split
        · rename_i s3 s4 e2
          have h3 : Grows s₀ s4 := Grows.of_snd e2 (ringTake_grows h2)
          exact ringRelease_grows (Grows.update h3)
        · rename_i s3 s4 e2
          have h3 : Grows s₀ s4 := Grows.of_snd e2 (ringTake_grows h2)
          exact raise_grows (ringRelease_grows (Grows.update h3))
        · rename_i s3 _ s4 e2
          have h3 : Grows s₀ s4 := Grows.of_snd e2 (ringTake_grows h2)
          exact ecBegin_grows h3

theorem ecBoundary_grows (h : Grows s₀ s) : Grows s₀ (ecBoundary s) := by
  unfold ecBoundary
  extract_lets +onlyGivenNames s1 s2 ready
  have h1 : Grows s₀ s1 := foldl_grows (fun _ _ h2 => ecTake_grows h2) h
  have h2 : Grows s₀ s2 := foldl_grows (fun _ _ h2 => ecSkipBad_grows h2) h1
  split
  · exact h1
  · split
    · exact ecServe_grows h2
    · exact h2

theorem execPictureStart_grows (h : Grows s₀ s) : GrowsNext s₀ (execPictureStart s) := by
  unfold execPictureStart
  exact next_grows (ite_grows (ecBoundary_grows h) h)

theorem ecWriteReport_grows {c : ℕ} {bs : List Byte} (h : Grows s₀ s) : Grows s₀ (ecWriteReport c bs s) := by
  unfold ecWriteReport
  exact ite_grows h (ite_grows (bump_grows h) (setF_grows (dmaPut_grows h)))

theorem strikeAt_grows {hit : Bool} {real : Option ℕ} {n : ℕ} (h :
    Grows s₀ s) : Grows s₀ (strikeAt hit real n s).2 := by
  unfold strikeAt
  split
  · exact h
  · split
    · exact h
    · split
      rename_i s1 _ s2 e
      have h2 : Grows s₀ s2 := Grows.of_snd e (draw_grows h)
      exact h2

theorem poolPut_grows {x : HvcCur} (h : Grows s₀ s) : Grows s₀ (poolPut x s) := by
  unfold poolPut
  exact dmaPut_grows (draw_grows h)

theorem ecEnd_grows {x : HvcCur} {p : CodedPicture} (h : Grows s₀ s) : Grows s₀ (ecEnd x p s) := by
  unfold ecEnd
  extract_lets +onlyGivenNames c n s1 cap head full _ i
  have h1 : Grows s₀ s1 := advanceTo_grows h
  split
  rename_i s2 _ s3 e
  have h2 : Grows s₀ s3 := Grows.of_snd e (examDetect_grows h1)
  split
  rename_i s4 _ s5 e2
  have h3 : Grows s₀ s5 := Grows.of_snd e2 (examDetect_grows h2)
  split
  rename_i s6 _ s7 e3
  have h4 : Grows s₀ s7 := Grows.of_snd e3 (strikeAt_grows h3)
  split
  rename_i s8 _ s9 e4
  have h5 : Grows s₀ s9 := Grows.of_snd e4 (strikeAt_grows h4)
  extract_lets +onlyGivenNames z s10 au b a s11 s12 y g s13 s14 s15 _ s16
  have h10 : Grows s₀ s10 := ite_grows (draw_grows h5) h5
  have h11 : Grows s₀ s11 := ite_grows (raise_grows (bump_grows h10)) h10
  have h12 : Grows s₀ s12 := poolPut_grows (dmaPut_grows h11)
  have h13 : Grows s₀ s13 := ringPublish_grows (putRing_grows h12)
  have h14 : Grows s₀ s14 := ringRelease_grows h13
  have h15 : Grows s₀ s15 := modEc_grows h14
  have h16 : Grows s₀ s16 := showMarks_grows (Grows.update h15)
  exact raise_grows (ecWriteReport_grows h16)

theorem execPictureDone_grows {p : CodedPicture} (h : Grows s₀ s) : GrowsNext s₀ (execPictureDone p s) := by
  unfold execPictureDone
  split
  · exact guardOk_grows (ite_grows (ecEnd_grows h) h)
  · exact next_grows h

/-! ### The model's file `HvcDec` -/

theorem modDc_grows {d : ℕ} {k : DecSt → DecSt} (h : Grows s₀ s) : Grows s₀ (modDc d k s) := by
  unfold modDc
  exact Grows.update h

theorem decTailWrite_grows {v : Word} (h : Grows s₀ s) : Grows s₀ (decTailWrite v s) := by
  unfold decTailWrite
  exact plainWrite_grows h

theorem execDecSubmit_grows {r : Requester} {v : Word} (h : Grows s₀ s) : GrowsNext s₀ (execDecSubmit r v s) := by
  unfold execDecSubmit
  exact next_grows (writeBy_grows (fun _ h2 => decTailWrite_grows h2) h)

theorem decCplHeadWrite_grows {v : Word} (h : Grows s₀ s) : Grows s₀ (decCplHeadWrite v s) := by
  unfold decCplHeadWrite
  exact ite_grows (flag_grows h) (plainWrite_grows h)

theorem ctbToWrite_grows {v : Word} (h : Grows s₀ s) : Grows s₀ (ctbToWrite v s) := by
  unfold ctbToWrite
  exact ite_grows (flag_grows h) (plainWrite_grows h)

theorem dpbRelWrite_grows {d : ℕ} {v : Word} (h : Grows s₀ s) : Grows s₀ (dpbRelWrite d v s) := by
  unfold dpbRelWrite
  exact modDc_grows h

theorem execDpbRelease_grows {r : Requester} {d : ℕ} {v : Word} (h :
    Grows s₀ s) : GrowsNext s₀ (execDpbRelease r d v s) := by
  unfold execDpbRelease
  exact guardOk_grows (writeBy_grows (fun _ h2 => dpbRelWrite_grows h2) h)

theorem decStart_grows (h : Grows s₀ s) : Grows s₀ (decStart s) := by
  unfold decStart
  extract_lets +onlyGivenNames head n used
  split
  · exact h
  · split
    · rename_i s1 s2 e
      have h2 : Grows s₀ s2 := Grows.of_snd e (dmaRead_grows h)
      split
      rename_i s3 _ s4 e2
      have h3 : Grows s₀ s4 := Grows.of_snd e2 (draw_grows h2)
      exact Grows.update h3
    · rename_i s1 _ s2 e
      have h2 : Grows s₀ s2 := Grows.of_snd e (dmaRead_grows h)
      exact Grows.update (ite_grows (modDc_grows h2) h2)

theorem execDecJobStart_grows (h : Grows s₀ s) : GrowsNext s₀ (execDecJobStart s) := by
  unfold execDecJobStart
  exact next_grows (ite_grows (decStart_grows h) h)

theorem decComplete_grows {job : DecJob} {w2 poc outs : ℕ} {win : ℕ × ℕ × ℕ × ℕ} (h :
    Grows s₀ s) : Grows s₀ (decComplete job w2 poc outs win s) := by
  unfold decComplete
  exact raise_grows (Grows.update (setF_grows (setF_grows (ite_grows h (dmaPut_grows h)))))

theorem dpbEntry_grows {d e : ℕ} (h : Grows s₀ s) : Grows s₀ (dpbEntry d e s).2 := by
  obtain ⟨body, hbody⟩ : ∃ f, f = dpbEntry := ⟨_, rfl⟩
  obtain ⟨dmaRead', hdmaRead'⟩ : ∃ f, f = dmaRead := ⟨_, rfl⟩
  have hdmaRead := @dmaRead_grows s₀
  rw [← hbody]
  delta dpbEntry at hbody
  rw [← hdmaRead'] at hdmaRead hbody
  subst hbody
  beta_reduce
  split
  · rename_i s1 s2 e2
    have h2 : Grows s₀ s2 := Grows.of_snd e2 (hdmaRead h)
    exact h2
  · rename_i s1 _ s2 e2
    have h2 : Grows s₀ s2 := Grows.of_snd e2 (hdmaRead h)
    exact h2

theorem dpbPut_grows {base len off : ℕ} {bs : List Byte} {x : ℕ × State} (h :
    Grows s₀ x.2) : Grows s₀ (dpbPut base len off bs x).2 := by
  unfold dpbPut
  exact dmaPut_grows h

theorem decWrite_grows {d e : ℕ} {q : HevcSps} {au : DecodedAu} {refs : List ℕ} {bad : Conceal} (h :
    Grows s₀ s) : Grows s₀ (decWrite d e q au refs bad s).2 := by
  obtain ⟨body, hbody⟩ : ∃ f, f = decWrite := ⟨_, rfl⟩
  obtain ⟨dpbEntry', hdpbEntry'⟩ : ∃ f, f = dpbEntry := ⟨_, rfl⟩
  have hdpbEntry := @dpbEntry_grows s₀
  obtain ⟨dmaTake', hdmaTake'⟩ : ∃ f, f = dmaTake := ⟨_, rfl⟩
  have hdmaTake := @dmaTake_grows s₀
  rw [← hbody]
  delta decWrite at hbody
  rw [← hdpbEntry'] at hdpbEntry hbody
  rw [← hdmaTake'] at hdmaTake hbody
  subst hbody
  beta_reduce
  exact dpbPut_grows (foldl_grows_snd (fun _ _ h2 => dpbPut_grows (foldl_grows_snd (fun _ _ h3 => hdmaTake h3)
      h2)) (foldl_grows_snd (fun _ _ h2 => hdpbEntry h2) (hdpbEntry h)))

theorem decPicture_grows {late : Option ℕ} {job : DecJob} {z : AuHead} {sl : HevcSlice} {q : HevcSps} {p : HevcPps}
    {au : DecodedAu} (h : Grows s₀ s) : Grows s₀ (decPicture late job z sl q p au s) := by
  unfold decPicture
  obtain ⟨decWrite', hdecWrite'⟩ : ∃ f, f = decWrite := ⟨_, rfl⟩
  have hdecWrite := @decWrite_grows s₀
  rw [← hdecWrite'] at hdecWrite ⊢
  extract_lets +onlyGivenNames d x0 poc x order n s1 place heads starts errors strike owner idr x1 used from_
      leading shown base pics win
  have h1 : Grows s₀ s1 := advanceTo_grows h
  split
  · exact decComplete_grows h
  · split
    rename_i s2 _ s3 e
    have h2 : Grows s₀ s3 := Grows.of_snd e (examDetect_grows h1)
    split
    rename_i s4 _ s5 e2
    have h3 : Grows s₀ s5 := Grows.of_snd e2 (examDetect_grows h2)
    split
    rename_i s6 _ s7 e3
    have h4 : Grows s₀ s7 := Grows.of_snd e3 (examDetect_grows h3)
    split
    rename_i s8 _ s9 e4
    have h5 : Grows s₀ s9 := Grows.of_snd e4 (ite_grows_snd h4 (ite_grows_snd (draw_grows h4) h4))
    split
    rename_i s10 _ s11 e5
    have h6 : Grows s₀ s11 := Grows.of_snd e5 (ite_grows_snd h5 (ite_grows_snd (draw_grows h5) h5))
    split
    rename_i s12 _ s13 e6
    have h7 : Grows s₀ s13 := Grows.of_snd e6 (ite_grows_snd h6 (ite_grows_snd (draw_grows h6) h6))
    extract_lets +onlyGivenNames wrong bad direct inher x2 x3 outs status list
    split
    rename_i s14 _ s15 e7
    have h8 : Grows s₀ s15 := Grows.of_snd e7 (hdecWrite h7)
    split
    rename_i s16 _ s17 e8
    have h9 : Grows s₀ s17 := Grows.of_snd e8 (examDetect_grows h8)
    extract_lets +onlyGivenNames s18 s19 s20 s21 s22 w2
    have h18 : Grows s₀ s18 := bumpBy_grows h9
    have h19 : Grows s₀ s19 := modDc_grows h18
    have h20 : Grows s₀ s20 := ite_grows (raise_grows h19) h19
    have h21 : Grows s₀ s21 := ite_grows (raise_grows h20) h20
    have h22 : Grows s₀ s22 := ite_grows (raise_grows h21) h21
    exact decComplete_grows h22

theorem decEnd_grows {late : Option ℕ} {au : DecodedAu} (h : Grows s₀ s) : Grows s₀ (decEnd late au s) := by
  unfold decEnd
  split
  · exact h
  · split
    · exact decComplete_grows h
    · split
      · exact decComplete_grows h
      · split
        · rename_i s1 s2 e
          have h2 : Grows s₀ s2 := Grows.of_snd e (dmaRead_grows h)
          exact decComplete_grows h2
        · rename_i s1 _ s2 e
          have h2 : Grows s₀ s2 := Grows.of_snd e (dmaRead_grows h)
          extract_lets +onlyGivenNames z
          split
          · exact decComplete_grows h2
          · exact decPicture_grows h2

theorem decPatience_grows (h : Grows s₀ s) : Grows s₀ (decPatience s) := by
  unfold decPatience
  exact ite_grows (advanceTo_grows h) h

theorem execDecJobDone_grows {au : DecodedAu} (h : Grows s₀ s) : GrowsNext s₀ (execDecJobDone au s) := by
  unfold execDecJobDone
  exact next_grows (ite_grows (decEnd_grows h) h)

theorem execDecCtbWatchdog_grows {au : DecodedAu} {ctb : ℕ} (h :
    Grows s₀ s) : GrowsNext s₀ (execDecCtbWatchdog au ctb s) := by
  unfold execDecCtbWatchdog
  exact next_grows (ite_grows (decEnd_grows (decPatience_grows h)) h)

/-! ### The model's file `Dram` -/

theorem mapApplyWrite_grows {v : Word} (h : Grows s₀ s) : Grows s₀ (mapApplyWrite v s) := by
  unfold mapApplyWrite
  exact ite_grows h (ite_grows (flag_grows h) (ite_grows (flag_grows h) (flag_grows (Grows.update h))))

theorem execMemMapApply_grows {r : Requester} {v : Word} (h : Grows s₀ s) : GrowsNext s₀ (execMemMapApply r v s) := by
  unfold execMemMapApply
  exact next_grows (writeBy_grows (fun _ h2 => mapApplyWrite_grows h2) h)

theorem trainStop_grows (h : Grows s₀ s) : Grows s₀ (trainStop s) := by
  unfold trainStop
  exact foldl_grows (fun _ _ h2 => setF_grows h2) (Grows.update h)

theorem memCtrlWrite_grows {v : Word} (h : Grows s₀ s) : Grows s₀ (memCtrlWrite v s) := by
  unfold memCtrlWrite
  exact ite_grows (flag_grows h) (ite_grows (trainStop_grows (plainWrite_grows h)) (plainWrite_grows h))

theorem execMemEnable_grows {r : Requester} {v : Word} (h : Grows s₀ s) : GrowsNext s₀ (execMemEnable r v s) := by
  unfold execMemEnable
  exact next_grows (writeBy_grows (fun _ h2 => memCtrlWrite_grows h2) h)

theorem dramServe_grows {q : MemReq} (h : Grows s₀ s) : Grows s₀ (dramServe q s) := by
  unfold dramServe
  extract_lets +onlyGivenNames ans bad s1 s2
  have h1 : Grows s₀ s1 := rereadFirst_grows (awaitFill_grows h)
  have h2 : Grows s₀ s2 := bursts_grows h1
  split
  · exact Grows.update h1
  · split
    · split
      · split
        rename_i s3 _ s4 e
        have h3 : Grows s₀ s4 := Grows.of_snd e (eccCheck_grows h2)
        exact ite_grows (Grows.update h3) (Grows.update h3)
      · split
        rename_i s3 _ s4 e
        have h3 : Grows s₀ s4 := Grows.of_snd e (rmwCheck_grows h2)
        exact ite_grows (Grows.update (poke_grows h3)) (Grows.update h3)
    · exact Grows.update h1

theorem serveAll_grows {k : ℕ} {l : List (ℕ × MemReq)} (h : Grows s₀ s) : Grows s₀ (serveAll k l s) := by
  induction k generalizing l s with
  | zero =>
    rw [serveAll]
    exact h
  | succ k ih =>
    rw [serveAll]
    split
    · exact h
    · exact ih (Grows.update (dramServe_grows h))

theorem execDramRequest_grows {qs : List MemReq} (h : Grows s₀ s) : GrowsNext s₀ (execDramRequest qs s) := by
  unfold execDramRequest
  exact guardOk_grows (ite_grows (serveAll_grows (Grows.update h)) h)

theorem execEccReread_grows {a : ℕ} {found : EccFound} (h : Grows s₀ s) : GrowsNext s₀ (execEccReread a found s) := by
  unfold execEccReread
  exact next_grows (ite_grows h (rereadDone_grows h))

theorem leaveCheck_grows {k : ℕ} (h : Grows s₀ s) : Grows s₀ (leaveCheck k s) := by
  unfold leaveCheck
  split
  · exact h.congr rfl rfl le_rfl (Nat.le_succ _) (Memory.wf_filter _) rfl
  · exact h

theorem eccRegionWrite_grows {k : ℕ} {v : Word} (h : Grows s₀ s) : Grows s₀ (eccRegionWrite k v s) := by
  unfold eccRegionWrite
  exact ite_grows h (ite_grows (ite_grows (plainWrite_grows h) (ite_grows (flag_grows h) (setF_grows (Grows.update
      (plainWrite_grows h))))) (ite_grows (setF_grows (plainWrite_grows (Grows.update (leaveCheck_grows h)))) h))

theorem execEccRegionEnable_grows {r : Requester} {k : ℕ} {v : Word} (h :
    Grows s₀ s) : GrowsNext s₀ (execEccRegionEnable r k v s) := by
  unfold execEccRegionEnable
  exact guardOk_grows (writeBy_grows (fun _ h2 => eccRegionWrite_grows h2) h)

theorem execEccFillDone_grows {k : ℕ} (h : Grows s₀ s) : GrowsNext s₀ (execEccFillDone k s) := by
  unfold execEccFillDone
  exact guardOk_grows (ite_grows h (fillDone_grows h))

theorem closeRows_grows {ch : ℕ} {p : ℕ → Bool} (h : Grows s₀ s) : Grows s₀ (closeRows ch p s) := by
  unfold closeRows
  exact Grows.update h

theorem refreshTick_grows {m ch : ℕ} (h : Grows s₀ s) : Grows s₀ (refreshTick m ch s) := by
  unfold refreshTick
  exact ite_grows (Grows.update (Grows.update (advanceTo_grows h))) (raise_grows (bump_grows (closeRows_grows
      (Grows.update (Grows.update (advanceTo_grows h))))))

theorem execRefreshInterval_grows {m ch : ℕ} (h : Grows s₀ s) : GrowsNext s₀ (execRefreshInterval m ch s) := by
  unfold execRefreshInterval
  exact guardOk_grows (ite_grows (refreshTick_grows h) h)

theorem perBank_grows {m ch : ℕ} {waiting : Bool} (h : Grows s₀ s) : Grows s₀ (perBank m ch waiting s) := by
  unfold perBank
  exact ite_grows h (Grows.update (closeRows_grows h))

theorem execPerBankRefresh_grows {m ch : ℕ} {waiting : Bool} (h :
    Grows s₀ s) : GrowsNext s₀ (execPerBankRefresh m ch waiting s) := by
  unfold execPerBankRefresh
  exact guardOk_grows (ite_grows (perBank_grows h) h)

theorem mr4_grows {m : ℕ} {codes : List ℕ} (h : Grows s₀ s) : Grows s₀ (mr4 m codes s) := by
  unfold mr4
  exact foldl_grows (fun _ _ h2 => ite_grows (raise_grows h2) h2) (ite_grows (Grows.update (advanceTo_grows h))
      (raise_grows (setF_grows (Grows.update (advanceTo_grows h)))))

theorem execMr4Read_grows {m : ℕ} {codes : List ℕ} (h : Grows s₀ s) : GrowsNext s₀ (execMr4Read m codes s) := by
  unfold execMr4Read
  exact guardOk_grows (ite_grows (mr4_grows h) h)

theorem trainWrite_grows {m : ℕ} {v : Word} (h : Grows s₀ s) : Grows s₀ (trainWrite m v s) := by
  unfold trainWrite
  exact ite_grows h (ite_grows (flag_grows h) (Grows.update (setF_grows (setF_grows (flag_grows h)))))

theorem execTrainGo_grows {r : Requester} {m : ℕ} {v : Word} (h : Grows s₀ s) : GrowsNext s₀ (execTrainGo r m v s) := by
  unfold execTrainGo
  exact guardOk_grows (writeBy_grows (fun _ h2 => trainWrite_grows h2) h)

theorem trainEnd_grows {m ch : ℕ} {first retry : Bool} (h : Grows s₀ s) : Grows s₀ (trainEnd m ch first retry s) := by
  unfold trainEnd
  extract_lets +onlyGivenNames l rest
  split
  · exact h
  · split
    rename_i s1 _ s2 e
    have h2 : Grows s₀ s2 := Grows.of_snd e (tryTwice_grows h)
    exact ite_grows (setF_grows (Grows.update (ite_grows (raise_grows (setF_grows h2)) (setF_grows (setF_grows
        h2))))) (Grows.update (ite_grows (raise_grows (setF_grows h2)) (setF_grows (setF_grows h2))))

theorem execTrainDone_grows {m ch : ℕ} {first retry : Bool} (h :
    Grows s₀ s) : GrowsNext s₀ (execTrainDone m ch first retry s) := by
  unfold execTrainDone
  exact guardOk_grows (ite_grows (trainEnd_grows h) h)

theorem execTrackingUpdate_grows {m ch : ℕ} {first retry : Bool} (h :
    Grows s₀ s) : GrowsNext s₀ (execTrackingUpdate m ch first retry s) := by
  unfold execTrackingUpdate
  exact guardOk_grows (ite_grows (trackRun_grows (ite_grows h (advanceTo_grows h))) h)

/-! ### The model's file `Pack` -/

theorem putJob_grows {c : ℕ} {j : PkeJob} (h : Grows s₀ s) : Grows s₀ (putJob c j s) := by
  unfold putJob
  exact Grows.update h

theorem pkeIdle_grows {c : ℕ} (h : Grows s₀ s) : Grows s₀ (pkeIdle c s) := by
  unfold pkeIdle
  exact setF_grows (Grows.update h)

theorem pkeResume_grows {c : ℕ} (h : Grows s₀ s) : Grows s₀ (pkeResume c s) := by
  unfold pkeResume
  split
  · exact h
  · exact setF_grows (setF_grows (putJob_grows h))

theorem pkeCtrlWrite_grows {c : ℕ} {v : Word} (h : Grows s₀ s) : Grows s₀ (pkeCtrlWrite c v s) := by
  unfold pkeCtrlWrite
  extract_lets +onlyGivenNames n st s1
  have h1 : Grows s₀ s1 := plainWrite_grows h
  exact ite_grows (flag_grows h) (ite_grows (pkeIdle_grows h1) (ite_grows (setF_grows (setF_grows (setF_grows
      (setF_grows (putJob_grows h1))))) (ite_grows (pkeResume_grows h1) h1)))

theorem execPkeGo_grows {r : Requester} {c : ℕ} {v : Word} (h : Grows s₀ s) : GrowsNext s₀ (execPkeGo r c v s) := by
  unfold execPkeGo
  exact guardOk_grows (writeBy_grows (fun _ h2 => pkeCtrlWrite_grows h2) h)

theorem execPkeResume_grows {r : Requester} {c : ℕ} {v : Word} (h :
    Grows s₀ s) : GrowsNext s₀ (execPkeResume r c v s) := by
  unfold execPkeResume
  exact guardOk_grows (writeBy_grows (fun _ h2 => pkeCtrlWrite_grows h2) h)

theorem execPkeAbort_grows {r : Requester} {c : ℕ} {v : Word} (h :
    Grows s₀ s) : GrowsNext s₀ (execPkeAbort r c v s) := by
  unfold execPkeAbort
  exact guardOk_grows (writeBy_grows (fun _ h2 => pkeCtrlWrite_grows h2) h)

theorem pkeEnd_grows {c cause : ℕ} {trailing : Bool} (h : Grows s₀ s) : Grows s₀ (pkeEnd c cause trailing s) := by
  unfold pkeEnd
  exact ite_grows (raise_grows (flag_grows (ite_grows (flag_grows (setF_grows (pkeIdle_grows h))) (setF_grows
      (pkeIdle_grows h))))) (raise_grows (setF_grows (pkeIdle_grows h)))

theorem pkeSuspend_grows {c full : ℕ} {j : PkeJob} (h : Grows s₀ s) : Grows s₀ (pkeSuspend c full j s) := by
  unfold pkeSuspend
  exact raise_grows (setF_grows (putJob_grows h))

theorem pkeFlush_grows {c : ℕ} {j : PkeJob} {l : List PkeItem} (h : Grows s₀ s) : Grows s₀ (pkeFlush c j l s) := by
  induction l generalizing j s with
  | nil => exact putJob_grows h
  | cons x l ih =>
    cases x with
    | done n => exact ih (setF_grows h)
    | fin cause tr => exact pkeEnd_grows (putJob_grows h)
    | byte b =>
      rw [pkeFlush.eq_def]
      exact ite_grows (pkeSuspend_grows h) (ite_grows (pkeEnd_grows (examDetect_grows (dmaWrite_grows h)))
        (ih (setF_grows (examDetect_grows (dmaWrite_grows h)))))
    | index v =>
      rw [pkeFlush.eq_def]
      exact ite_grows (pkeSuspend_grows h) (ite_grows (pkeEnd_grows (examDetect_grows (dmaWrite_grows h)))
        (ih (examDetect_grows (dmaWrite_grows h))))

theorem pkeStep_grows {c : ℕ} {parity : Option PkeMemory} {j : PkeJob} (h :
    Grows s₀ s) : Grows s₀ (pkeStep c parity j s) := by
  unfold pkeStep
  extract_lets +onlyGivenNames _ s1
  have h1 : Grows s₀ s1 := Grows.update h
  split
  · exact pkeFlush_grows h1
  · split
    rename_i s2 _ s3 e
    have h2 : Grows s₀ s3 := Grows.of_snd e (examDetect_grows h1)
    split
    rename_i s4 _ s5 e2
    have h3 : Grows s₀ s5 := Grows.of_snd e2 (ite_grows_snd h2 (examDetect_grows h2))
    split
    · exact pkeEnd_grows h3
    · split
      rename_i s6 _ s7 e3
      have h4 : Grows s₀ s7 := Grows.of_snd e3 (dmaRead_grows h3)
      split
      rename_i s8 _ s9 e4
      have h5 : Grows s₀ s9 := Grows.of_snd e4 (examDetect_grows h4)
      split
      · extract_lets +onlyGivenNames n wrong
        split
        rename_i s10 _ s11 e5
        have h6 : Grows s₀ s11 := Grows.of_snd e5 (ite_grows_snd (examDetect_grows h5) h5)
        exact pkeFlush_grows h6
      · exact pkeEnd_grows h5

theorem execPkeBlock_grows {c : ℕ} {parity : Option PkeMemory} (h :
    Grows s₀ s) : GrowsNext s₀ (execPkeBlock c parity s) := by
  unfold execPkeBlock
  refine guardOk_grows ?_
  split
  · split
    · exact Grows.update (pkeStep_grows (advanceTo_grows h))
    · exact h
  · exact h

/-! ### The model's file `Evr` -/

theorem evrDeliver_grows {e : Ev} {seq d : ℕ} (h : Grows s₀ s) : Grows s₀ (evrDeliver e seq d s) := by
  unfold evrDeliver
  exact ite_grows (Grows.update (addPair_grows (flag_grows h))) (Grows.update (addPair_grows (setF_grows (poke_grows
      h))))

theorem evrRoute_grows {e : Ev} (h : Grows s₀ s) : Grows s₀ (evrRoute e s) := by
  unfold evrRoute
  extract_lets +onlyGivenNames seq dest _ s1
  have h1 : Grows s₀ s1 := Grows.update h
  split
  rename_i s2 _ s3 e2
  have h2 : Grows s₀ s3 := Grows.of_snd e2 (examDetect_grows h1)
  exact foldl_grows (fun _ _ h3 => ite_grows (evrDeliver_grows h3) h3) h2

theorem execEventRaised_grows (h : Grows s₀ s) : GrowsNext s₀ (execEventRaised s) := by
  unfold execEventRaised
  refine next_grows ?_
  split
  · exact h
  · exact evrRoute_grows (Grows.update h)

theorem qbaseWrite_grows {d : ℕ} {v : Word} (h : Grows s₀ s) : Grows s₀ (qbaseWrite d v s) := by
  unfold qbaseWrite
  exact ite_grows (plainWrite_grows h) (flag_grows h)

theorem qsizeWrite_grows {d : ℕ} {v : Word} (h : Grows s₀ s) : Grows s₀ (qsizeWrite d v s) := by
  unfold qsizeWrite
  exact ite_grows (plainWrite_grows h) (flag_grows h)

theorem qheadWrite_grows {d : ℕ} {v : Word} (h : Grows s₀ s) : Grows s₀ (qheadWrite d v s) := by
  unfold qheadWrite
  exact ite_grows (flag_grows h) (plainWrite_grows h)

theorem execEvrQbaseWrite_grows {r : Requester} {d : ℕ} {v : Word} (h :
    Grows s₀ s) : GrowsNext s₀ (execEvrQbaseWrite r d v s) := by
  unfold execEvrQbaseWrite
  exact guardOk_grows (writeBy_grows (fun _ h2 => qbaseWrite_grows h2) h)

theorem execEvrQsizeWrite_grows {r : Requester} {d : ℕ} {v : Word} (h :
    Grows s₀ s) : GrowsNext s₀ (execEvrQsizeWrite r d v s) := by
  unfold execEvrQsizeWrite
  exact guardOk_grows (writeBy_grows (fun _ h2 => qsizeWrite_grows h2) h)

theorem execEvrQheadWrite_grows {r : Requester} {d : ℕ} {v : Word} (h :
    Grows s₀ s) : GrowsNext s₀ (execEvrQheadWrite r d v s) := by
  unfold execEvrQheadWrite
  exact guardOk_grows (writeBy_grows (fun _ h2 => qheadWrite_grows h2) h)

theorem execPllLocked_grows (h : Grows s₀ s) : GrowsNext s₀ (execPllLocked s) := by
  unfold execPllLocked
  exact next_grows (ite_grows (pwrNext_grows (Grows.update h)) h)

theorem execReferenceLost_grows (h : Grows s₀ s) : GrowsNext s₀ (execReferenceLost s) := by
  unfold execReferenceLost
  exact next_grows (examDetect_grows (raise_grows (setF_grows (setF_grows (setF_grows (Grows.update h))))))

theorem injArm_grows {r : Requester} {k : ℕ} (h : Grows s₀ s) : Grows s₀ (injArm r k s) := by
  unfold injArm
  exact ite_grows (setF_grows h) (ite_grows (raise_grows h) (setF_grows (Grows.update h)))

theorem injDisarm_grows {k : ℕ} (h : Grows s₀ s) : Grows s₀ (injDisarm k s) := by
  unfold injDisarm
  exact ite_grows (injDone_grows h) h

theorem injCtrlWrite_grows {r : Requester} {k : ℕ} {v : Word} (h : Grows s₀ s) : Grows s₀ (injCtrlWrite r k v s) := by
  unfold injCtrlWrite
  exact ite_grows (injDisarm_grows h) (ite_grows (injArm_grows h) h)

theorem injCfgWrite_grows {k : ℕ} {v : Word} (h : Grows s₀ s) : Grows s₀ (injCfgWrite k v s) := by
  unfold injCfgWrite
  exact ite_grows (injDisarm_grows (plainWrite_grows h)) (plainWrite_grows h)

theorem execInjArm_grows {r : Requester} {k : ℕ} {v : Word} (h : Grows s₀ s) : GrowsNext s₀ (execInjArm r k v s) := by
  unfold execInjArm
  exact guardOk_grows (writeBy_grows (fun _ h2 => injCtrlWrite_grows h2) h)

theorem execInjDisarm_grows {r : Requester} {k : ℕ} {v : Word} (h :
    Grows s₀ s) : GrowsNext s₀ (execInjDisarm r k v s) := by
  unfold execInjDisarm
  exact guardOk_grows (writeBy_grows (fun _ h2 => injCtrlWrite_grows h2) h)

theorem rateJudge_grows {lim det : ℕ} (h : Grows s₀ s) : Grows s₀ (rateJudge lim det s) := by
  unfold rateJudge
  exact ite_grows (lasting_grows (raise_grows (Grows.update h))) (Grows.update h)

theorem execRateInterval_grows (h : Grows s₀ s) : GrowsNext s₀ (execRateInterval s) := by
  unfold execRateInterval
  exact next_grows (foldl_grows (fun _ _ h2 => rateJudge_grows h2) (Grows.update (advanceTo_grows h)))

theorem readHdr_grows {a : ℕ} (h : Grows s₀ s) : Grows s₀ (readHdr a s).2 := by
  unfold readHdr
  extract_lets +onlyGivenNames b magic good
  split
  rename_i s1 _ s2 e
  have h2 : Grows s₀ s2 := Grows.of_snd e (examDetect_grows h)
  exact ite_grows_snd h2 h2

theorem logHeader_grows (h : Grows s₀ s) : Grows s₀ (logHeader s).2.2 := by
  unfold logHeader
  split
  rename_i s1 _ s2 e
  have h2 : Grows s₀ s2 := Grows.of_snd e (readHdr_grows h)
  split
  rename_i s3 _ s4 e2
  have h3 : Grows s₀ s4 := Grows.of_snd e2 (readHdr_grows h2)
  split
  · split
    · exact h3
    · exact h3
  · exact h3
  · exact h3
  · exact h3

theorem writeHdr_grows {h : LogHdr} {wasA : Bool} (hs : Grows s₀ s) : Grows s₀ (writeHdr h wasA s) := by
  unfold writeHdr
  exact poke_grows (Grows.update hs)

theorem logWrite_grows {x : LogRec} (h : Grows s₀ s) : Grows s₀ (logWrite x s) := by
  unfold logWrite
  split
  rename_i s1 _ _ s2 e
  have h2 : Grows s₀ s2 := Grows.of_snd_snd e (logHeader_grows h)
  extract_lets +onlyGivenNames q b
  split
  rename_i s3 _ s4 e2
  have h3 : Grows s₀ s4 := Grows.of_snd e2 (examine_grows h2)
  exact ite_grows (detect_grows (flag_grows h3)) (writeHdr_grows (poke_grows h3))

theorem logFlush_grows (h : Grows s₀ s) : Grows s₀ (logFlush s) := by
  unfold logFlush
  exact foldl_grows (fun _ _ h2 => logWrite_grows h2) (Grows.update h)

theorem logBoot_grows (h : Grows s₀ s) : Grows s₀ (logBoot s) := by
  unfold logBoot
  split
  rename_i s1 _ _ s2 e
  have h2 : Grows s₀ s2 := Grows.of_snd_snd e (logHeader_grows h)
  exact writeHdr_grows h2

theorem execFaultLogWrite_grows (h : Grows s₀ s) : GrowsNext s₀ (execFaultLogWrite s) := by
  unfold execFaultLogWrite
  refine next_grows ?_
  split
  · exact h
  · exact logWrite_grows (Grows.update h)

theorem logEmpty_grows (h : Grows s₀ s) : Grows s₀ (logEmpty s) := by
  unfold logEmpty
  exact poke_grows (poke_grows (Grows.update h))

theorem logCtrlWrite_grows {r : Requester} {v : Word} (h : Grows s₀ s) : Grows s₀ (logCtrlWrite r v s) := by
  unfold logCtrlWrite
  split
  · exact h
  · split
    · exact logEmpty_grows h
    · exact logEmpty_grows h
    · exact flag_grows h

theorem execLogClear_grows {r : Requester} {v : Word} (h : Grows s₀ s) : GrowsNext s₀ (execLogClear r v s) := by
  unfold execLogClear
  exact next_grows (writeBy_grows (fun _ h2 => logCtrlWrite_grows h2) h)

/-! ### The model's file `Timebase` -/

theorem showPeriod_grows (h : Grows s₀ s) : Grows s₀ (showPeriod s) := by
  unfold showPeriod
  split
  · exact setF_grows h
  · exact h

theorem schedule_grows {ideal : ℚ} {moved : Bool} (h : Grows s₀ s) : Grows s₀ (schedule ideal moved s) := by
  unfold schedule
  exact showPeriod_grows (Grows.update h)

theorem schedulePtp_grows (h : Grows s₀ s) : Grows s₀ (schedulePtp s) := by
  unfold schedulePtp
  split
  · exact Grows.update h
  · exact schedule_grows (Grows.update h)

theorem scheduleNext_grows {prev : ℚ} (h : Grows s₀ s) : Grows s₀ (scheduleNext prev s) := by
  unfold scheduleNext
  split
  · exact h
  · split
    · split
      exact schedule_grows (Grows.update h)
    · exact schedule_grows h

theorem dropLock_grows (h : Grows s₀ s) : Grows s₀ (dropLock s) := by
  unfold dropLock
  exact Grows.update h

theorem acquire_grows (h : Grows s₀ s) : Grows s₀ (acquire s) := by
  unfold acquire
  exact setF_grows (Grows.update h)

theorem sourceState_grows (h : Grows s₀ s) : Grows s₀ (sourceState s) := by
  unfold sourceState
  split
  · exact acquire_grows h
  · exact setF_grows h
  · exact setF_grows h

theorem startSchedule_grows (h : Grows s₀ s) : Grows s₀ (startSchedule s) := by
  unfold startSchedule
  extract_lets +onlyGivenNames _ s1
  have h1 : Grows s₀ s1 := Grows.update h
  split
  · exact h1
  · exact ite_grows (schedulePtp_grows (Grows.update h1)) (schedule_grows h1)

theorem refStart_grows (h : Grows s₀ s) : Grows s₀ (refStart s) := by
  unfold refStart
  exact startSchedule_grows (sourceState_grows (dropLock_grows (Grows.update h)))

theorem refStop_grows (h : Grows s₀ s) : Grows s₀ (refStop s) := by
  unfold refStop
  exact setF_grows (dropLock_grows (Grows.update h))

theorem refSwitch_grows (h : Grows s₀ s) : Grows s₀ (refSwitch s) := by
  unfold refSwitch
  extract_lets +onlyGivenNames _ s1
  have h1 : Grows s₀ s1 := sourceState_grows (dropLock_grows (Grows.update h))
  split
  · exact schedulePtp_grows (Grows.update h1)
  · split
    · exact scheduleNext_grows h1
    · exact startSchedule_grows h1

theorem refCtrlWrite_grows {v : Word} (h : Grows s₀ s) : Grows s₀ (refCtrlWrite v s) := by
  unfold refCtrlWrite
  exact ite_grows (flag_grows h) (ite_grows (ite_grows (refStart_grows (plainWrite_grows h)) (ite_grows
      (refSwitch_grows (plainWrite_grows h)) (plainWrite_grows h))) (ite_grows (refStop_grows (plainWrite_grows h))
      (plainWrite_grows h)))

theorem rechoose_grows (h : Grows s₀ s) : Grows s₀ (rechoose s) := by
  unfold rechoose
  exact ite_grows (schedulePtp_grows (Grows.update h)) h

theorem refPhaseWrite_grows {v : Word} (h : Grows s₀ s) : Grows s₀ (refPhaseWrite v s) := by
  unfold refPhaseWrite
  exact rechoose_grows (plainWrite_grows h)

theorem refRateWrite_grows {den : Bool} {v : Word} (h : Grows s₀ s) : Grows s₀ (refRateWrite den v s) := by
  unfold refRateWrite
  exact ite_grows (ite_grows (startSchedule_grows (ite_grows (sourceState_grows (dropLock_grows (plainWrite_grows
      h))) (plainWrite_grows h))) (rechoose_grows (plainWrite_grows h))) (flag_grows h)

theorem refRfnWrite_grows {v : Word} (h : Grows s₀ s) : Grows s₀ (refRfnWrite v s) := by
  unfold refRfnWrite
  exact ite_grows h (Grows.update h)

theorem execRefEnable_grows {r : Requester} {v : Word} (h : Grows s₀ s) : GrowsNext s₀ (execRefEnable r v s) := by
  unfold execRefEnable
  exact next_grows (writeBy_grows (fun _ h2 => refCtrlWrite_grows h2) h)

theorem execRefDisable_grows {r : Requester} {v : Word} (h : Grows s₀ s) : GrowsNext s₀ (execRefDisable r v s) := by
  unfold execRefDisable
  exact next_grows (writeBy_grows (fun _ h2 => refCtrlWrite_grows h2) h)

theorem execRefRateWrite_grows {r : Requester} {den : Bool} {v : Word} (h :
    Grows s₀ s) : GrowsNext s₀ (execRefRateWrite r den v s) := by
  unfold execRefRateWrite
  exact next_grows (writeBy_grows (fun _ h2 => refRateWrite_grows h2) h)

theorem execRefRfnWrite_grows {r : Requester} {v : Word} (h : Grows s₀ s) : GrowsNext s₀ (execRefRfnWrite r v s) := by
  unfold execRefRfnWrite
  exact next_grows (writeBy_grows (fun _ h2 => refRfnWrite_grows h2) h)

theorem triggers_grows {t rfn : ℕ} (h : Grows s₀ s) : Grows s₀ (triggers t rfn s) := by
  unfold triggers
  refine foldl_grows (fun s1 x h2 => ?_) h
  split
  · exact h2
  · exact Grows.update h2

theorem ptpReady_grows (h : Grows s₀ s) : Grows s₀ (ptpReady s) := by
  unfold ptpReady
  extract_lets +onlyGivenNames s1 edge
  have h1 : Grows s₀ s1 := schedulePtp_grows h
  split
  · exact h1
  · exact ite_grows (schedulePtp_grows (advanceTo_grows h1)) h1

theorem phaseOpen_grows {k : Tick} (h : Grows s₀ s) : Grows s₀ (phaseOpen k s) := by
  unfold phaseOpen
  exact ite_grows (foldl_grows (fun _ _ h2 => ite_grows (bumpBy_grows (Grows.update h2)) h2) h) h

theorem refTick_grows (h : Grows s₀ s) : Grows s₀ (refTick s).2 := by
  unfold refTick
  split
  · exact h
  · extract_lets +onlyGivenNames ptp s1
    have h1 : Grows s₀ s1 := ite_grows (ptpReady_grows h) h
    split
    · exact h1
    · extract_lets +onlyGivenNames s2 _ k rfn s3 step s4 moved s5 s6 per tick _ s7 s8 _ s9
      have h2 : Grows s₀ s2 := advanceTo_grows h1
      have h3 : Grows s₀ s3 := setF_grows h2
      have h4 : Grows s₀ s4 := by
        unfold s4
        split
        · exact ite_grows (raise_grows h3) h3
        · exact h3
      have h5 : Grows s₀ s5 := ite_grows (raise_grows h4) h4
      have h6 : Grows s₀ s6 := raise_grows h5
      have h7 : Grows s₀ s7 := Grows.update h6
      have h8 : Grows s₀ s8 := phaseOpen_grows (triggers_grows h7)
      have h9 : Grows s₀ s9 := ite_grows (schedulePtp_grows (Grows.update h8)) (scheduleNext_grows h8)
      split
      · exact Grows.update h2
      · exact h9

theorem execTrigPulseStart_grows {n : ℕ} (h : Grows s₀ s) : GrowsNext s₀ (execTrigPulseStart n s) := by
  unfold execTrigPulseStart
  refine guardOk_grows ?_
  split
  · exact h
  · split
    · exact h
    · exact Grows.update (advanceTo_grows h)

theorem execTrigPulseEnd_grows {n : ℕ} (h : Grows s₀ s) : GrowsNext s₀ (execTrigPulseEnd n s) := by
  unfold execTrigPulseEnd
  refine guardOk_grows ?_
  split
  · exact h
  · split
    · exact h
    · exact Grows.update (advanceTo_grows h)

theorem measure_grows {e : ℕ} {p : ℚ} (h : Grows s₀ s) : Grows s₀ (Machine.measure e p s) := by
  unfold Sys2Proof.Machine.measure
  split
  · exact h
  · exact ite_grows (ite_grows (ite_grows h (raise_grows (acquire_grows (Grows.update h)))) (Grows.update h)) h

theorem judgeEdge_grows {err : ℚ} (h : Grows s₀ s) : Grows s₀ (judgeEdge err s) := by
  unfold judgeEdge
  extract_lets +onlyGivenNames a s1 st g _ s2 _ b s3
  have h1 : Grows s₀ s1 := ite_grows (acquire_grows h) h
  have h2 : Grows s₀ s2 := Grows.update h1
  have h3 : Grows s₀ s3 := Grows.update h1
  exact ite_grows (ite_grows (raise_grows (setF_grows (Grows.update h2))) h2) (ite_grows (ite_grows (raise_grows
      (setF_grows (Grows.update h3))) h3) h1)

theorem refEdge_grows {e : ℕ} (h : Grows s₀ s) : Grows s₀ (refEdge e s) := by
  unfold refEdge
  split
  · exact h
  · extract_lets +onlyGivenNames s1 _ s2 x s3 _ s4
    have h1 : Grows s₀ s1 := measure_grows h
    have h2 : Grows s₀ s2 := Grows.update h1
    have h3 : Grows s₀ s3 := by
      unfold s3
      split
      · exact h2
      · exact judgeEdge_grows (wr_grows h2)
    have h4 : Grows s₀ s4 := Grows.update h3
    split
    · exact ite_grows (scheduleNext_grows h4) h4
    · exact h4

theorem execRefVEdge_grows {at_ : ℕ} {f : Bool} (h : Grows s₀ s) : GrowsNext s₀ (execRefVEdge at_ f s) := by
  unfold execRefVEdge
  exact next_grows (ite_grows (ite_grows (refEdge_grows (Grows.update (advanceTo_grows h))) (Grows.update
      (advanceTo_grows h))) (advanceTo_grows h))

theorem execRefEdgeTimeout_grows (h : Grows s₀ s) : GrowsNext s₀ (execRefEdgeTimeout s) := by
  unfold execRefEdgeTimeout
  refine next_grows ?_
  split
  · exact h
  · exact h
  · exact raise_grows (setF_grows (Grows.update (advanceTo_grows h)))

theorem tsuIncrNsWrite_grows {v : Word} (h : Grows s₀ s) : Grows s₀ (tsuIncrNsWrite v s) := by
  unfold tsuIncrNsWrite
  exact Grows.update h

theorem tsuIncrCommit_grows {v : Word} (h : Grows s₀ s) : Grows s₀ (tsuIncrCommit v s) := by
  unfold tsuIncrCommit
  exact ite_grows (flag_grows h) (Grows.update h)

theorem tsuSet_grows (h : Grows s₀ s) : Grows s₀ (tsuSet s) := by
  unfold tsuSet
  exact Grows.update h

theorem tsuStep_grows (h : Grows s₀ s) : Grows s₀ (tsuStep s) := by
  unfold tsuStep
  exact Grows.update h

theorem tsuCmdWrite_grows {v : Word} (h : Grows s₀ s) : Grows s₀ (tsuCmdWrite v s) := by
  unfold tsuCmdWrite
  exact ite_grows (flag_grows h) (ite_grows (tsuStep_grows (ite_grows (tsuSet_grows h) h)) (ite_grows (tsuSet_grows
      h) h))

theorem execTsuIncrCommit_grows {r : Requester} {v : Word} (h :
    Grows s₀ s) : GrowsNext s₀ (execTsuIncrCommit r v s) := by
  unfold execTsuIncrCommit
  exact next_grows (writeBy_grows (fun _ h2 => tsuIncrCommit_grows h2) h)

theorem execTsuSet_grows {r : Requester} {v : Word} (h : Grows s₀ s) : GrowsNext s₀ (execTsuSet r v s) := by
  unfold execTsuSet
  exact next_grows (writeBy_grows (fun _ h2 => tsuCmdWrite_grows h2) h)

theorem execTsuStep_grows {r : Requester} {v : Word} (h : Grows s₀ s) : GrowsNext s₀ (execTsuStep r v s) := by
  unfold execTsuStep
  exact next_grows (writeBy_grows (fun _ h2 => tsuCmdWrite_grows h2) h)

theorem execTsuSecond_grows (h : Grows s₀ s) : GrowsNext s₀ (execTsuSecond s) := by
  unfold execTsuSecond
  exact next_grows (advanceTo_grows (ite_grows (advanceTo_grows h) h))

theorem execTimeCounterParity_grows (h : Grows s₀ s) : GrowsNext s₀ (execTimeCounterParity s) := by
  unfold execTimeCounterParity
  exact next_grows (ite_grows (ite_grows (Grows.update (setF_grows (advanceTo_grows h))) (detect_grows (setF_grows
      (advanceTo_grows h)))) h)

/-! ### The model's file `Aud` -/

theorem modAud_grows {n : ℕ} {f : AudSt → AudSt} (h : Grows s₀ s) : Grows s₀ (modAud n f s) := by
  unfold modAud
  exact Grows.update h

theorem audWriteBack_grows {n moved flags : ℕ} (h : Grows s₀ s) : Grows s₀ (audWriteBack n moved flags s) := by
  obtain ⟨body, hbody⟩ : ∃ f, f = audWriteBack := ⟨_, rfl⟩
  obtain ⟨dmaWrite', hdmaWrite'⟩ : ∃ f, f = dmaWrite := ⟨_, rfl⟩
  have hdmaWrite := @dmaWrite_grows s₀
  rw [← hbody]
  delta audWriteBack at hbody
  rw [← hdmaWrite'] at hdmaWrite hbody
  subst hbody
  beta_reduce
  split
  rename_i s1 _ s2 e
  have h2 : Grows s₀ s2 := Grows.of_snd e (hdmaWrite h)
  exact setF_grows (ite_grows h2 (examDetect_grows h2))

theorem audDone_grows {n : ℕ} {d : AudDesc} {flags : ℕ} (h : Grows s₀ s) : Grows s₀ (audDone n d flags s) := by
  unfold audDone
  exact raise_grows (audWriteBack_grows (modAud_grows h))

theorem audAccess_grows {n a : ℕ} {ok : Bool} (h : Grows s₀ s) : Grows s₀ (audAccess n a ok s).2 := by
  unfold audAccess
  exact examDetect_grows h

theorem audTake_grows {n : ℕ} {d : AudDesc} (h : Grows s₀ s) : Grows s₀ (audTake n d s) := by
  unfold audTake
  split
  · exact raise_grows (bump_grows (audWriteBack_grows h))
  · split
    · exact modAud_grows h
    · split
      · exact audDone_grows h
      · split
        rename_i s1 _ s2 e
        have h2 : Grows s₀ s2 := Grows.of_snd e (dmaWrite_grows h)
        split
        rename_i s3 _ s4 e2
        have h3 : Grows s₀ s4 := Grows.of_snd e2 (audAccess_grows h2)
        exact ite_grows (audDone_grows h3) (modAud_grows h3)

theorem audNext_grows {n : ℕ} (h : Grows s₀ s) : Grows s₀ (audNext n s).2 := by
  unfold audNext
  obtain ⟨dmaRead', hdmaRead'⟩ : ∃ f, f = dmaRead := ⟨_, rfl⟩
  have hdmaRead := @dmaRead_grows s₀
  rw [← hdmaRead'] at hdmaRead ⊢
  split
  · exact h
  · extract_lets +onlyGivenNames a
    split
    rename_i s1 _ s2 e
    have h2 : Grows s₀ s2 := Grows.of_snd e (hdmaRead h)
    split
    rename_i s3 _ s4 e2
    have h3 : Grows s₀ s4 := Grows.of_snd e2 (audAccess_grows h2)
    exact ite_grows_snd (audDone_grows h3) (audTake_grows h3)

theorem audReady_grows {k n need : ℕ} (h : Grows s₀ s) : Grows s₀ (audReady k n need s).2 := by
  induction k generalizing s with
  | zero =>
    rw [audReady]
    exact h
  | succ k ih =>
    rw [audReady]
    split
    · exact ite_grows_snd h (ih (audDone_grows h))
    · split
      · rename_i s1 s2 e
        have h2 : Grows s₀ s2 := Grows.of_snd e (audNext_grows h)
        exact h2
      · rename_i s1 s2 e
        have h2 : Grows s₀ s2 := Grows.of_snd e (audNext_grows h)
        exact ih h2

theorem audMoved_grows {n need : ℕ} {d : AudDesc} (h : Grows s₀ s) : Grows s₀ (audMoved n need d s) := by
  unfold audMoved
  exact ite_grows (modAud_grows h) (audDone_grows h)

theorem audMove_grows {n : ℕ} {data : Option (List Byte)} (h : Grows s₀ s) : Grows s₀ (audMove n data s).2 := by
  unfold audMove
  extract_lets +onlyGivenNames need
  dsimp only
  split
  · exact h
  · split
    · split
      · rename_i s1 s2 e
        have h2 : Grows s₀ s2 := Grows.of_snd e (dmaWrite_grows h)
        exact ite_grows_snd (audDone_grows (audAccess_grows h2)) (audMoved_grows (audAccess_grows h2))
      · rename_i s1 s2 e
        have h2 : Grows s₀ s2 := Grows.of_snd e (dmaWrite_grows h)
        exact ite_grows_snd (audDone_grows (audAccess_grows h2)) (audMoved_grows (audAccess_grows h2))
    · exact ite_grows_snd (audDone_grows (audAccess_grows (dmaRead_grows h))) (audMoved_grows (audAccess_grows
        (dmaRead_grows h)))

theorem audTransfer_grows {k n : ℕ} {data : Option (List Byte)} (h :
    Grows s₀ s) : Grows s₀ (audTransfer k n data s).2 := by
  induction k generalizing s with
  | zero =>
    rw [audTransfer]
    exact h
  | succ k ih =>
    rw [audTransfer]
    split
    · rename_i s1 s2 e
      have h2 : Grows s₀ s2 := Grows.of_snd e (audReady_grows h)
      exact h2
    · rename_i s1 s2 e
      have h2 : Grows s₀ s2 := Grows.of_snd e (audReady_grows h)
      split
      · rename_i s3 _ s4 e2
        have h3 : Grows s₀ s4 := Grows.of_snd e2 (audMove_grows h2)
        exact h3
      · rename_i s3 s4 e2
        have h3 : Grows s₀ s4 := Grows.of_snd e2 (audMove_grows h2)
        exact ih h3

theorem audStep_grows {n : ℕ} {data : Option (List Byte)} (h : Grows s₀ s) : Grows s₀ (audStep n data s).2 := by
  unfold audStep
  split
  rename_i s1 e
  have h1 : Grows s₀ s1 := Grows.of_snd e (examine_grows h)
  split
  rename_i s2 e2
  have h2 : Grows s₀ s2 := Grows.of_snd e2 (ite_grows_snd h1 (audTransfer_grows h1))
  split
  · dsimp only
    exact modAud_grows h2
  · exact ite_grows (bump_grows (detect_grows h2)) (raise_grows (modAud_grows (bump_grows (detect_grows h2))))

theorem audIn_grows {n : ℕ} (h : Grows s₀ s) : Grows s₀ (audIn n s) := by
  unfold audIn
  exact addPair_grows h

theorem audOut_grows {n : ℕ} (h : Grows s₀ s) : Grows s₀ (audOut n s) := by
  unfold audOut
  exact addPair_grows h

theorem slipIn_grows {n : ℕ} {f : Bool × List ℕ} (h : Grows s₀ s) : Grows s₀ (slipIn n f s) := by
  unfold slipIn
  split
  rename_i s1 _ s2 e
  have h2 : Grows s₀ s2 := Grows.of_snd e (examDetect_grows h)
  exact ite_grows (raise_grows (ite_grows (addPair_grows (audIn_grows h2)) h2)) (modAud_grows h2)

theorem slipOut_leave_grows {n : ℕ} {parity : Bool} {f : Bool × List ℕ} {t : List (Bool × List ℕ)} (h :
    Grows s₀ s) : Grows s₀ (slipOut.leave n parity f t s).2 := by
  unfold slipOut.leave
  dsimp only
  exact modAud_grows (examDetect_grows h)

theorem slipOut_grows {n : ℕ} {parity : Bool} (h : Grows s₀ s) : Grows s₀ (slipOut n parity s).2 := by
  unfold slipOut
  extract_lets +onlyGivenNames x low
  split
  · exact ite_grows_snd h (slipOut_leave_grows h)
  · exact h
  · split
    rename_i s1 _ s2 e
    have h2 : Grows s₀ s2 := Grows.of_snd e (examDetect_grows h)
    split
    · exact slipOut_leave_grows h2
    · exact h2

theorem slipRepeat_grows {n : ℕ} (h : Grows s₀ s) : Grows s₀ (slipRepeat n s) := by
  unfold slipRepeat
  exact raise_grows (addPair_grows h)

theorem audMaskApply_grows {n b : ℕ} (h : Grows s₀ s) : Grows s₀ (audMaskApply n b s) := by
  unfold audMaskApply
  extract_lets +onlyGivenNames x old old1 old2
  split
  · exact h
  · extract_lets +onlyGivenNames s1 s2 s3 s4 s5 s6 s7
    have h1 : Grows s₀ s1 := modAud_grows h
    have h2 : Grows s₀ s2 := by
      unfold s2
      split
      · exact audDone_grows h1
      · exact h1
    have h3 : Grows s₀ s3 := ite_grows (audReady_grows (modAud_grows h2)) h2
    have h4 : Grows s₀ s4 := by
      unfold s4
      split
      · exact audDone_grows h1
      · exact h1
    have h5 : Grows s₀ s5 := ite_grows (audReady_grows (modAud_grows h4)) h4
    have h6 : Grows s₀ s6 := by
      unfold s6
      split
      · exact audDone_grows h1
      · exact h1
    have h7 : Grows s₀ s7 := ite_grows (audReady_grows (modAud_grows h6)) h6
    split
    · exact h1
    · exact h1
    · exact h1
    · exact raise_grows h3
    · exact raise_grows h5
    · exact raise_grows h7

theorem maskWrite_grows {n : ℕ} {v : Word} (h : Grows s₀ s) : Grows s₀ (maskWrite n v s) := by
  unfold maskWrite
  exact modAud_grows (plainWrite_grows h)

theorem execMaskWrite_grows {r : Requester} {n : ℕ} {v : Word} (h :
    Grows s₀ s) : GrowsNext s₀ (execMaskWrite r n v s) := by
  unfold execMaskWrite
  exact guardOk_grows (writeBy_grows (fun _ h2 => maskWrite_grows h2) h)

theorem execMaskApply_grows {n : ℕ} (h : Grows s₀ s) : GrowsNext s₀ (execMaskApply n s) := by
  unfold execMaskApply
  exact guardOk_grows (ite_grows (audMaskApply_grows h) h)

theorem audShow_grows {n : ℕ} (h : Grows s₀ s) : Grows s₀ (audShow n s) := by
  unfold audShow
  split
  exact setF_grows (setF_grows h)

theorem audStop_grows {n : ℕ} (h : Grows s₀ s) : Grows s₀ (audStop n s) := by
  unfold audStop
  split
  · exact ite_grows (audDone_grows h) h
  · exact h

theorem audStart_grows {n : ℕ} (h : Grows s₀ s) : Grows s₀ (audStart n s) := by
  unfold audStart
  extract_lets +onlyGivenNames k s1
  have h1 : Grows s₀ s1 := by
    unfold s1
    split
    · exact audStop_grows h
    · exact h
  exact audShow_grows (modAud_grows h1)

theorem audFall_grows {n : ℕ} (h : Grows s₀ s) : Grows s₀ (audFall n s) := by
  unfold audFall
  extract_lets +onlyGivenNames go
  split
  · exact audShow_grows (modAud_grows h)
  · exact audShow_grows (modAud_grows h)
  · exact h
  · exact h
  · exact h

theorem audTrail_grows {n : ℕ} (h : Grows s₀ s) : Grows s₀ (audTrail n s) := by
  unfold audTrail
  exact audShow_grows (modAud_grows (audStop_grows h))

theorem audCtrlWrite_grows {n : ℕ} {v : Word} (h : Grows s₀ s) : Grows s₀ (audCtrlWrite n v s) := by
  unfold audCtrlWrite
  exact ite_grows (raise_grows (flag_grows (plainWrite_grows h))) (ite_grows (ite_grows (plainWrite_grows h)
      (audStart_grows (plainWrite_grows h))) (ite_grows (audFall_grows (plainWrite_grows h)) (plainWrite_grows h)))

theorem execAudioRunStart_grows {r : Requester} {n : ℕ} {v : Word} (h :
    Grows s₀ s) : GrowsNext s₀ (execAudioRunStart r n v s) := by
  unfold execAudioRunStart
  exact guardOk_grows (writeBy_grows (fun _ h2 => audCtrlWrite_grows h2) h)

theorem execAudioRunStop_grows {r : Requester} {n : ℕ} {v : Word} (h :
    Grows s₀ s) : GrowsNext s₀ (execAudioRunStop r n v s) := by
  unfold execAudioRunStop
  exact guardOk_grows (writeBy_grows (fun _ h2 => audCtrlWrite_grows h2) h)

theorem audPeriods_grows {n k : ℕ} (h : Grows s₀ s) : Grows s₀ (audPeriods n k s) := by
  unfold audPeriods
  exact advanceTo_grows (modAud_grows h)

theorem execAudioStopped_grows {n : ℕ} (h : Grows s₀ s) : GrowsNext s₀ (execAudioStopped n s) := by
  unfold execAudioStopped
  refine guardOk_grows ?_
  split
  · exact ite_grows (raise_grows (audShow_grows (modAud_grows (ite_grows (audPeriods_grows h) h)))) h
  · exact h

theorem audSync_grows {n : ℕ} (h : Grows s₀ s) : Grows s₀ (audSync n s) := by
  unfold audSync
  exact modAud_grows h

theorem audSend_grows {n : ℕ} {f : List ℕ} (h : Grows s₀ s) : Grows s₀ (audSend n f s) := by
  unfold audSend
  exact ite_grows h (modAud_grows h)

theorem audQuiet_grows {n k : ℕ} {lead : Bool} (h : Grows s₀ s) : Grows s₀ (audQuiet n k lead s) := by
  unfold audQuiet
  exact audShow_grows (modAud_grows (audSend_grows (ite_grows (modAud_grows h) h)))

theorem audFirst_grows {n : ℕ} (h : Grows s₀ s) : Grows s₀ (audFirst n s) := by
  unfold audFirst
  exact ite_grows (modAud_grows h) (raise_grows (modAud_grows (modAud_grows h)))

theorem audMaster_grows {n : ℕ} {rx : List (BitVec 24)} (h : Grows s₀ s) : Grows s₀ (audMaster n rx s) := by
  unfold audMaster
  split
  · exact audSend_grows h
  · split
    · split
      · rename_i s1 _ s2 e
        have h2 : Grows s₀ s2 := Grows.of_snd e (audStep_grows h)
        exact audOut_grows (audIn_grows h2)
      · rename_i s1 s2 e
        have h2 : Grows s₀ s2 := Grows.of_snd e (audStep_grows h)
        exact h2
    · split
      · rename_i s1 _ s2 e
        have h2 : Grows s₀ s2 := Grows.of_snd e (audStep_grows h)
        exact audSend_grows (audOut_grows (audIn_grows h2))
      · rename_i s1 s2 e
        have h2 : Grows s₀ s2 := Grows.of_snd e (audStep_grows h)
        exact audSend_grows h2

theorem audMemory_grows {n : ℕ} {parity : Bool} (h : Grows s₀ s) : Grows s₀ (audMemory n parity s) := by
  unfold audMemory
  split
  · exact h
  · split
    · split
      · rename_i s1 s2 e
        have h2 : Grows s₀ s2 := Grows.of_snd e (slipOut_grows h)
        exact h2
      · rename_i s1 _ _ _ s2 e
        have h2 : Grows s₀ s2 := Grows.of_snd e (slipOut_grows h)
        split
        · rename_i s3 _ s4 e2
          have h3 : Grows s₀ s4 := Grows.of_snd e2 (audStep_grows h2)
          exact ite_grows (slipRepeat_grows (audOut_grows h3)) (audOut_grows (audIn_grows h3))
        · rename_i s3 s4 e2
          have h3 : Grows s₀ s4 := Grows.of_snd e2 (audStep_grows h2)
          exact ite_grows (raise_grows h3) h3
    · split
      · rename_i s1 _ s2 e
        have h2 : Grows s₀ s2 := Grows.of_snd e (audStep_grows h)
        exact slipIn_grows h2
      · rename_i s1 s2 e
        have h2 : Grows s₀ s2 := Grows.of_snd e (audStep_grows h)
        exact slipIn_grows h2

theorem execSampleFrame_grows {n : ℕ} {rx : List (BitVec 24)} {parity : Bool} (h :
    Grows s₀ s) : GrowsNext s₀ (execSampleFrame n rx parity s) := by
  unfold execSampleFrame
  refine guardOk_grows ?_
  split
  · exact h
  · split
    · extract_lets +onlyGivenNames s0
      have h0 : Grows s₀ s0 := audSync_grows (audMaskApply_grows h)
      split
      · exact h
      · exact audQuiet_grows (audPeriods_grows h0)
      · exact audMaster_grows (audPeriods_grows (audFirst_grows h0))
      · exact audTrail_grows (ite_grows (audQuiet_grows (audPeriods_grows h0)) (audMaster_grows (audPeriods_grows
          (audFirst_grows h0))))
      · exact ite_grows h (audQuiet_grows (audPeriods_grows h0))
    · exact ite_grows (audMemory_grows (audPeriods_grows h)) h

theorem audPins_grows {n : ℕ} {rx : List (BitVec 24)} {parity : Bool} (h :
    Grows s₀ s) : Grows s₀ (audPins n rx parity s) := by
  unfold audPins
  split
  · exact audSend_grows h
  · split
    · exact slipIn_grows h
    · split
      · rename_i s1 s2 e
        have h2 : Grows s₀ s2 := Grows.of_snd e (slipOut_grows h)
        exact audSend_grows h2
      · rename_i s1 _ _ _ s2 e
        have h2 : Grows s₀ s2 := Grows.of_snd e (slipOut_grows h)
        exact ite_grows (slipRepeat_grows (audOut_grows (audSend_grows h2))) (ite_grows (audOut_grows (audIn_grows
            (audSend_grows h2))) (audSend_grows h2))

theorem execSlaveSampleRx_grows {n : ℕ} {rx : List (BitVec 24)} {parity : Bool} (h :
    Grows s₀ s) : GrowsNext s₀ (execSlaveSampleRx n rx parity s) := by
  unfold execSlaveSampleRx
  refine guardOk_grows ?_
  split
  · exact h
  · split
    · exact h
    · exact audQuiet_grows (audMaskApply_grows h)
    · exact audPins_grows (audFirst_grows (audMaskApply_grows h))
    · exact audTrail_grows (ite_grows (audQuiet_grows (audMaskApply_grows h)) (audPins_grows (audFirst_grows
        (audMaskApply_grows h))))
    · exact ite_grows h (audQuiet_grows (audMaskApply_grows h))

theorem audFmtWrite_grows {n : ℕ} {v : Word} (h : Grows s₀ s) : Grows s₀ (audFmtWrite n v s) := by
  unfold audFmtWrite
  exact ite_grows (flag_grows h) (plainWrite_grows h)

theorem mclkWrite_grows {v : Word} (h : Grows s₀ s) : Grows s₀ (mclkWrite v s) := by
  unfold mclkWrite
  exact ite_grows (flag_grows h) (plainWrite_grows h)

theorem audRingWrite_grows {n : ℕ} {v : Word} (h : Grows s₀ s) : Grows s₀ (audRingWrite n v s) := by
  unfold audRingWrite
  exact ite_grows (flag_grows h) (plainWrite_grows h)

theorem audAllStop_grows (h : Grows s₀ s) : Grows s₀ (audAllStop s) := by
  unfold audAllStop
  exact foldl_grows (fun _ _ h2 => ite_grows (audFall_grows (setF_grows h2)) h2) h

/-! ### The model's file `PortCore` -/

theorem modPort_grows {n : ℕ} {f : PortSt → PortSt} (h : Grows s₀ s) : Grows s₀ (modPort n f s) := by
  unfold modPort
  exact Grows.update h

theorem modFrame_grows {n : ℕ} {f : OpenSt → OpenSt} (h : Grows s₀ s) : Grows s₀ (modFrame n f s) := by
  unfold modFrame
  exact modPort_grows h

theorem showPort_grows {n : ℕ} (h : Grows s₀ s) : Grows s₀ (showPort n s) := by
  unfold showPort
  exact setF_grows (setF_grows h)

theorem modReceived_grows {n : ℕ} {f : FrameInfo → FrameInfo} {g : Side → Side} (h :
    Grows s₀ s) : Grows s₀ (modReceived n f g s) := by
  unfold modReceived
  exact modPort_grows h

theorem frameFsw_grows {n bit : ℕ} (h : Grows s₀ s) : Grows s₀ (frameFsw n bit s) := by
  unfold frameFsw
  exact modReceived_grows h

theorem markFrame_grows {n : ℕ} {p : FrameInfo → Bool} {f : FrameInfo → FrameInfo} (h :
    Grows s₀ s) : Grows s₀ (markFrame n p f s) := by
  unfold markFrame
  extract_lets +onlyGivenNames g s1
  have h1 : Grows s₀ s1 := modPort_grows h
  split
  · exact h1
  · exact Grows.update h1

theorem takeEcho_grows {n sid : ℕ} (h : Grows s₀ s) : Grows s₀ (takeEcho n sid s) := by
  unfold takeEcho
  split
  · exact h
  · exact ite_grows (raise_grows (setF_grows (modReceived_grows (modPort_grows (markFrame_grows h))))) (setF_grows
      (modReceived_grows (modPort_grows (markFrame_grows h))))

theorem relate_grows {n t : ℕ} (h : Grows s₀ s) : Grows s₀ (relate n t s) := by
  unfold relate
  exact modPort_grows h

theorem setSettle_grows {n eff sid no : ℕ} (h : Grows s₀ s) : Grows s₀ (setSettle n eff sid no s) := by
  unfold setSettle
  exact ite_grows (ite_grows (modPort_grows (markFrame_grows h)) (setF_grows (modPort_grows (markFrame_grows h))))
      (markFrame_grows h)

theorem crossRows_grows {n : ℕ} (h : Grows s₀ s) : Grows s₀ (crossRows n s) := by
  unfold crossRows
  split
  · exact h
  · extract_lets +onlyGivenNames upto
    refine foldl_grows (fun s1 x h2 => ?_) h
    split
    · exact h2
    · exact modFrame_grows (ite_grows h2 (modPort_grows h2))

theorem passTo_grows {n r y : ℕ} (h : Grows s₀ s) : Grows s₀ (passTo n r y s) := by
  unfold passTo
  split
  · exact h
  · exact ite_grows (raiseAt_grows (modFrame_grows h)) (modFrame_grows h)

theorem countWithheld_grows {n : ℕ} (h : Grows s₀ s) : Grows s₀ (countWithheld n s) := by
  unfold countWithheld
  exact ite_grows (bump_grows h) (raise_grows (Grows.update (bump_grows h)))

theorem ovlBind_grows {n pfn : ℕ} {live : ℕ → Bool} (h : Grows s₀ s) : Grows s₀ (ovlBind n pfn live s) := by
  unfold ovlBind
  exact takeLive_grows (Grows.updateCfg rfl h)

theorem portTake_grows {n : ℕ} {live : ℕ → Bool} (h : Grows s₀ s) : Grows s₀ (portTake n live s) := by
  unfold portTake
  extract_lets +onlyGivenNames pfn
  split
  · exact h
  · split
    · exact takeLive_grows h
    · split
      · exact h
      · split
        · exact ovlBind_grows h
        · split
          · exact Grows.update h
          · exact h

theorem takePfn_grows {n : ℕ} (h : Grows s₀ s) : Grows s₀ (takePfn n s).2 := by
  unfold takePfn
  exact setF_grows (setF_grows (modPort_grows h))

theorem noteOpened_grows {n rfn : ℕ} (h : Grows s₀ s) : Grows s₀ (noteOpened n rfn s) := by
  unfold noteOpened
  extract_lets +onlyGivenNames s1
  have h1 : Grows s₀ s1 := modPort_grows h
  split
  · exact h1
  · exact ite_grows (modFrame_grows h1) h1

theorem ovlMarked_grows {n : ℕ} (h : Grows s₀ s) : Grows s₀ (ovlMarked n s) := by
  unfold ovlMarked
  exact Grows.updateCfg rfl h

theorem portOpen_grows {n counter : ℕ} {echo : Option ℕ} {remap : Bool} (h :
    Grows s₀ s) : Grows s₀ (portOpen n counter echo remap s) := by
  unfold portOpen
  extract_lets +onlyGivenNames s1 w h1 rfn
  have h1 : Grows s₀ s1 := portTake_grows h
  split
  · exact h1
  · split
    rename_i s2 _ s3 e
    have h2 : Grows s₀ s3 := Grows.of_snd e (takePfn_grows h1)
    extract_lets +onlyGivenNames withheld i i1 k f s4 s5 s6 i2 s7
    have h4 : Grows s₀ s4 := modPort_grows (ovlMarked_grows h2)
    have h5 : Grows s₀ s5 := raiseAt_grows h4
    have h6 : Grows s₀ s6 := by
      unfold s6
      split
      · exact takeEcho_grows h5
      · exact frameFsw_grows h5
      · exact h5
    have h7 : Grows s₀ s7 := ite_grows (countWithheld_grows h6) (noteOpened_grows (modPort_grows h6))
    exact showPort_grows h7

theorem startDiscard_grows {n : ℕ} (h : Grows s₀ s) : Grows s₀ (startDiscard n s) := by
  unfold startDiscard
  exact ite_grows h (flag_grows (modPort_grows h))

theorem endDiscard_grows {n : ℕ} (h : Grows s₀ s) : Grows s₀ (endDiscard n s) := by
  unfold endDiscard
  exact ite_grows (raise_grows (setF_grows (modPort_grows h))) h

theorem discardUnits_grows {n k : ℕ} (h : Grows s₀ s) : Grows s₀ (discardUnits n k s) := by
  unfold discardUnits
  exact ite_grows (modPort_grows (bumpBy_grows h)) (bumpBy_grows h)

theorem strayUnits_grows {n k : ℕ} {line : Bool} (h : Grows s₀ s) : Grows s₀ (strayUnits n k line s) := by
  unfold strayUnits
  exact ite_grows h (discardUnits_grows h)

theorem verdict_grows {g rfn : ℕ} (h : Grows s₀ s) : Grows s₀ (verdict g rfn s) := by
  unfold verdict
  extract_lets +onlyGivenNames here absent s1 s2
  have h1 : Grows s₀ s1 := Grows.update h
  have h2 : Grows s₀ s2 := foldl_grows (fun _ _ h2 => ite_grows (markFrame_grows h2) h2) h1
  exact ite_grows h (ite_grows h1 (ite_grows (raise_grows (bump_grows (setF_grows (setF_grows h2)))) h2))

theorem closeEvents_grows {n : ℕ} {short trunc : Bool} {i : FrameInfo} (h :
    Grows s₀ s) : Grows s₀ (closeEvents n short trunc i s) := by
  unfold closeEvents
  extract_lets +onlyGivenNames s1 s2
  have h1 : Grows s₀ s1 := ite_grows (raise_grows (bump_grows h)) h
  have h2 : Grows s₀ s2 := ite_grows (raise_grows (bump_grows h1)) h1
  exact ite_grows (raise_grows h2) h2

theorem portClose_grows {n : ℕ} {why : Close} (h : Grows s₀ s) : Grows s₀ (portClose n why s) := by
  unfold portClose
  split
  · exact h
  · extract_lets +onlyGivenNames whole s1 s2 s3 s4 short trunc eof s5
    have h1 : Grows s₀ s1 := by
      unfold s1
      split
      · exact ite_grows (verdict_grows h) h
      · exact h
    have h2 : Grows s₀ s2 := ite_grows (modPort_grows h1) h1
    have h3 : Grows s₀ s3 := foldl_grows (fun _ _ h3 => ite_grows (passTo_grows h3) h3) h2
    have h4 : Grows s₀ s4 := crossRows_grows h3
    have h5 : Grows s₀ s5 := modFrame_grows h4
    split
    · exact h5
    · extract_lets +onlyGivenNames i s6 s7 s8
      have h6 : Grows s₀ s6 := closeEvents_grows (raiseAt_grows h5)
      have h7 : Grows s₀ s7 := ite_grows h6 (modPort_grows h6)
      have h8 : Grows s₀ s8 := modPort_grows h7
      exact showPort_grows (ite_grows (startDiscard_grows h8) h8)

theorem embLine_grows {n : ℕ} {good : Bool} {bs : List Byte} (h : Grows s₀ s) : Grows s₀ (embLine n good bs s) := by
  unfold embLine
  split
  · exact h
  · extract_lets +onlyGivenNames size bytes fit s1 off emb s2
    have h1 : Grows s₀ s1 := by
      unfold s1
      split
      · exact h
      · split
        rename_i s3 _ s4 e
        have h2 : Grows s₀ s4 := Grows.of_snd e (dmaWrite_grows h)
        exact bumpBy_grows (ite_grows h2 (modReceived_grows h2))
    have h2 : Grows s₀ s2 := modReceived_grows h1
    split
    · split
      · exact takeEcho_grows h2
      · exact h2
    · exact h2

theorem modCrossing_grows {n : ℕ} {f : FrameInfo → FrameInfo} {g : Side → Side} (h :
    Grows s₀ s) : Grows s₀ (modCrossing n f g s) := by
  unfold modCrossing
  exact modPort_grows h

theorem fifoTake_grows {n : ℕ} {full : Bool} (h : Grows s₀ s) : Grows s₀ (fifoTake n full s).2 := by
  unfold fifoTake
  split
  · exact h
  · split
    rename_i s1 _ s2 e
    have h2 : Grows s₀ s2 := Grows.of_snd e (examDetect_grows h)
    exact ite_grows_snd (ite_grows (modCrossing_grows (bump_grows h2)) (raise_grows (modCrossing_grows (bump_grows
        h2)))) h2

theorem acceptLine_grows {n r y : ℕ} {px : Codes} (h : Grows s₀ s) : Grows s₀ (acceptLine n r y px s) := by
  unfold acceptLine
  split
  · exact h
  · split
    rename_i s1 _ s2 e
    have h2 : Grows s₀ s2 := Grows.of_snd e (examDetect_grows h)
    split
    · exact portClose_grows h2
    · extract_lets +onlyGivenNames s3
      have h3 : Grows s₀ s3 := modFrame_grows h2
      split
      rename_i s4 _ s5 e2
      have h4 : Grows s₀ s5 := Grows.of_snd e2 (fifoTake_grows h3)
      exact crossRows_grows (passTo_grows (ite_grows h4 (modFrame_grows h4)))

theorem pixelLine_grows {n r y dtype : ℕ} {good : Bool} {bs : List Byte} {unpack : ℕ → ℕ → List Byte → List ℕ} (h :
    Grows s₀ s) : Grows s₀ (pixelLine n r y dtype good bs unpack s) := by
  unfold pixelLine
  split
  · exact h
  · split
    · exact bump_grows h
    · split
      · exact modFrame_grows (bump_grows h)
      · split
        rename_i s1 _ s2 e
        have h2 : Grows s₀ s2 := Grows.of_snd e (examDetect_grows h)
        split
        · exact bump_grows h2
        · split
          rename_i s3 _ s4 e2
          have h3 : Grows s₀ s4 := Grows.of_snd e2 (examDetect_grows h2)
          exact ite_grows (bump_grows h3) (ite_grows (acceptLine_grows h3) (crossRows_grows (passTo_grows
              (frameFsw_grows h3))))

/-! ### The model's file `IpBase` -/

theorem modIp_grows {n : ℕ} {f : IpSt → IpSt} (h : Grows s₀ s) : Grows s₀ (modIp n f s) := by
  unfold modIp
  exact Grows.update h

theorem modFr_grows {n k : ℕ} {f : IpFrame → IpFrame} (h : Grows s₀ s) : Grows s₀ (modFr n k f s) := by
  unfold modFr
  exact modIp_grows h

theorem tally_grows {det : ℕ} {reals : List Bool} (h : Grows s₀ s) : Grows s₀ (tally det reals s).2 := by
  unfold tally
  split
  · exact detectN_grows h
  · refine foldl_grows_snd (fun s1 x h2 => ?_) h
    split
    rename_i s2 _ s3 e
    have h3 : Grows s₀ s3 := Grows.of_snd e (examDetect_grows h2)
    exact h3

theorem settle_grows {n : ℕ} {front : Bool} {cs : List (ℕ × Bool)} (h :
    Grows s₀ s) : Grows s₀ (settle n front cs s).2 := by
  unfold settle
  extract_lets +onlyGivenNames sats
  split
  rename_i s1 _ s2 e
  have h2 : Grows s₀ s2 := Grows.of_snd e (ite_grows_snd (tally_grows h) h)
  exact ite_grows h2 (bumpBy_grows h2)

theorem settleRow_grows {n : ℕ} {front : Bool} {vs : List ℚ} (h :
    Grows s₀ s) : Grows s₀ (settleRow n front vs s).2 := by
  unfold settleRow
  exact settle_grows h

theorem failAt_grows {det k i : ℕ} (h : Grows s₀ s) : Grows s₀ (failAt det k i s).2 := by
  induction k generalizing i s with
  | zero =>
    rw [failAt]
    exact h
  | succ k ih =>
    rw [failAt]
    split
    rename_i s1 _ s2 e
    have h2 : Grows s₀ s2 := Grows.of_snd e (examDetect_grows h)
    exact ite_grows_snd h2 (ih h2)

theorem firstFail_grows {det k : ℕ} (h : Grows s₀ s) : Grows s₀ (firstFail det k s).2 := by
  unfold firstFail
  exact ite_grows_snd (failAt_grows h) h

theorem killTab_grows {n k id c : ℕ} (h : Grows s₀ s) : Grows s₀ (killTab n k id c s) := by
  unfold killTab
  split
  · exact h
  · split
    · exact h
    · exact modIp_grows h

theorem partFails_grows {det per parts k i : ℕ} {m : List (ℕ × ℕ)} (h :
    Grows s₀ s) : Grows s₀ (partFails det per parts k i m s).2 := by
  induction k generalizing i m s with
  | zero =>
    rw [partFails]
    exact h
  | succ k ih =>
    rw [partFails]
    split
    · exact ih h
    · split
      rename_i s1 _ s2 e
      have h2 : Grows s₀ s2 := Grows.of_snd e (examDetect_grows h)
      exact ih h2

theorem goodParts_grows {n k id det px per : ℕ} (h : Grows s₀ s) : Grows s₀ (goodParts n k id det px per s).2 := by
  unfold goodParts
  extract_lets +onlyGivenNames parts
  split
  · exact h
  · extract_lets +onlyGivenNames dead m
    split
    rename_i s1 _ s2 e
    have h2 : Grows s₀ s2 := Grows.of_snd e (ite_grows_snd (partFails_grows h) h)
    exact foldl_grows (fun _ _ h3 => ite_grows (killTab_grows h3) h3) h2

theorem offerFrame_grows {n k p : ℕ} (h : Grows s₀ s) : Grows s₀ (offerFrame n k p s) := by
  unfold offerFrame
  split
  · exact h
  · split
    · exact ite_grows (modFr_grows (ringOffer_grows (dmaPut_grows h))) h
    · exact h

theorem wholeBuf_grows {n k p : ℕ} (h : Grows s₀ s) : Grows s₀ (wholeBuf n k p s) := by
  unfold wholeBuf
  exact modFr_grows h

theorem writeRow_grows {n k p y : ℕ} {bs : List Byte} (h : Grows s₀ s) : Grows s₀ (writeRow n k p y bs s) := by
  unfold writeRow
  split
  · exact h
  · split
    · exact h
    · exact dmaPut_grows h

/-! ### The model's file `IpStat` -/

theorem writeRecord_grows {a : ℕ} {head body : List Byte} (h :
    Grows s₀ s) : Grows s₀ (writeRecord a head body s).2 := by
  unfold writeRecord
  extract_lets +onlyGivenNames head1
  split
  rename_i s1 _ s2 e
  have h2 : Grows s₀ s2 := Grows.of_snd e (dmaWrite_grows h)
  split
  rename_i s3 _ s4 e2
  have h3 : Grows s₀ s4 := Grows.of_snd e2 (dmaWrite_grows h2)
  exact h3

theorem statsWrite_grows {n k : ℕ} (h : Grows s₀ s) : Grows s₀ (statsWrite n k s) := by
  unfold statsWrite
  split
  · exact h
  · extract_lets +onlyGivenNames v s1 code mono cfa colour clip
    have h1 : Grows s₀ s1 := modFr_grows h
    split
    · exact h1
    · split
      split
      extract_lets +onlyGivenNames cols rows used pixels hist counts
      split
      extract_lets +onlyGivenNames zone body
      split
      rename_i s2 _ s3 e
      have h2 : Grows s₀ s3 := Grows.of_snd e (ite_grows_snd (writeRecord_grows h1) h1)
      split
      rename_i s4 _ s5 e2
      have h3 : Grows s₀ s5 := Grows.of_snd e2 (ite_grows_snd (writeRecord_grows h2) h2)
      exact ite_grows (raise_grows (Grows.update (modFr_grows h3))) (Grows.update (modFr_grows h3))

theorem lumaWrite_grows {n k : ℕ} (h : Grows s₀ s) : Grows s₀ (lumaWrite n k s) := by
  unfold lumaWrite
  obtain ⟨writeRecord', hwriteRecord'⟩ : ∃ f, f = writeRecord := ⟨_, rfl⟩
  have hwriteRecord := @writeRecord_grows s₀
  rw [← hwriteRecord'] at hwriteRecord ⊢
  split
  · exact h
  · split
    · exact h
    · extract_lets +onlyGivenNames v s1
      have h1 : Grows s₀ s1 := modFr_grows h
      split
      · exact h1
      · split
        rename_i s2 _ s3 e
        have h2 : Grows s₀ s3 := Grows.of_snd e (hwriteRecord h1)
        exact ite_grows (raise_grows (modFr_grows h2)) h2

theorem offerDue_grows {n k p : ℕ} (h : Grows s₀ s) : Grows s₀ (offerDue n k p s) := by
  unfold offerDue
  split
  · exact h
  · exact offerFrame_grows (lumaWrite_grows (ite_grows (statsWrite_grows h) h))

theorem statsOf_grows {n pfn : ℕ} (h : Grows s₀ s) : Grows s₀ (statsOf n pfn s) := by
  unfold statsOf
  split
  · exact statsWrite_grows h
  · exact h

/-! ### The model's file `IpFront` -/

theorem frontReads_grows {n k id key y det px per : ℕ} (h :
    Grows s₀ s) : Grows s₀ (frontReads n k id key y det px per s).2 := by
  unfold frontReads
  split
  · exact h
  · split
    · exact h
    · split
      · rename_i s1 s2 e
        have h2 : Grows s₀ s2 := Grows.of_snd e (firstFail_grows h)
        exact h2
      · rename_i s1 _ s2 e
        have h2 : Grows s₀ s2 := Grows.of_snd e (firstFail_grows h)
        exact modFr_grows h2

theorem linRow_grows {n k r y : ℕ} {fr : IpFrame} {row : RowCodes} (h :
    Grows s₀ s) : Grows s₀ (linRow n k r y fr row s).2 := by
  unfold linRow
  extract_lets +onlyGivenNames v w cmp byp bits
  split
  rename_i s1 _ s2 e
  have h2 : Grows s₀ s2 := Grows.of_snd e (ite_grows_snd (frontReads_grows h) h)
  split
  rename_i s3 _ s4 e2
  have h3 : Grows s₀ s4 := Grows.of_snd e2 (ite_grows_snd h2 (frontReads_grows h2))
  exact settleRow_grows h3

theorem mergeRow_grows {n : ℕ} {fr : IpFrame} {rows : List (Option (List ℕ))} (h :
    Grows s₀ s) : Grows s₀ (mergeRow n fr rows s).2 := by
  unfold mergeRow
  exact ite_grows_snd h (settleRow_grows h)

theorem mergeNote_grows {n k y present : ℕ} (h : Grows s₀ s) : Grows s₀ (mergeNote n k y present s) := by
  unfold mergeNote
  split
  · exact h
  · exact ite_grows (ite_grows h (dmaPut_grows h)) (modFr_grows (ite_grows (bump_grows (ite_grows h (dmaPut_grows
      h))) (raise_grows (bump_grows (ite_grows h (dmaPut_grows h))))))

theorem obAdd_grows {n k y : ℕ} {row : List ℕ} (h : Grows s₀ s) : Grows s₀ (obAdd n k y row s) := by
  unfold obAdd
  exact modFr_grows h

theorem obUpdate_grows {n k : ℕ} (h : Grows s₀ s) : Grows s₀ (obUpdate n k s) := by
  unfold obUpdate
  split
  · exact h
  · refine foldl_grows (fun s1 x h2 => ?_) h
    split
    · split
      · exact h2
      · extract_lets +onlyGivenNames mu ob est
        split
        rename_i s2 _ s3 e
        have h3 : Grows s₀ s3 := Grows.of_snd e (settleRow_grows h2)
        exact modIp_grows h3
    · exact h2

theorem obShow_grows {n : ℕ} (h : Grows s₀ s) : Grows s₀ (obShow n s) := by
  unfold obShow
  exact foldl_grows (fun _ _ h2 => setF_grows h2) h

theorem trimRow_grows {n y : ℕ} {fr : IpFrame} {marks : List Bool} {row : List ℕ} (h : Grows s₀ s) :
    Grows s₀ (trimRow n y fr marks row s).2 := by
  unfold trimRow
  extract_lets +onlyGivenNames v
  split
  rename_i s1 e
  have h1 : Grows s₀ s1 := by
    refine Grows.of_snd e ?_
    split
    · exact h
    · dsimp only
      exact settle_grows h
  exact ite_grows_snd (settleRow_grows h1) h1

theorem startProd_grows {n k p : ℕ} (h : Grows s₀ s) : Grows s₀ (startProd n k p s) := by
  unfold startProd
  split
  · exact h
  · split
    · exact h
    · extract_lets +onlyGivenNames s1 s2
      have h1 : Grows s₀ s1 := by
        unfold s1
        refine foldl_grows (fun s3 x h2 => ?_) h
        split
        · exact offerDue_grows h2
        · exact h2
      have h2 : Grows s₀ s2 := modFr_grows h1
      split
      · rename_i s3 _ s4 e
        have h3 : Grows s₀ s4 := Grows.of_snd e (ringTake_grows h2)
        exact modFr_grows h3
      · rename_i s3 s4 e
        have h3 : Grows s₀ s4 := Grows.of_snd e (ringTake_grows h2)
        exact raise_grows h3
      · rename_i s3 s4 e
        have h3 : Grows s₀ s4 := Grows.of_snd e (ringTake_grows h2)
        exact h3

theorem startTap_grows {n k t : ℕ} (h : Grows s₀ s) : Grows s₀ (startTap n k t s) := by
  unfold startTap
  split
  · exact h
  · exact ite_grows (ite_grows (startProd_grows (ite_grows (flag_grows h) h)) (modFr_grows h)) h

theorem tapRow_grows {n k t y : ℕ} {row : List ℕ} (h : Grows s₀ s) : Grows s₀ (tapRow n k t y row s) := by
  unfold tapRow
  split
  · exact h
  · extract_lets +onlyGivenNames v s1 fs fs1 s2
    have h1 : Grows s₀ s1 := ite_grows (flag_grows h) h
    have h2 : Grows s₀ s2 := ite_grows (startTap_grows h1) h1
    exact ite_grows (Grows.update h1) (ite_grows (writeRow_grows h2) (writeRow_grows h2))

theorem frontRow_grows {n k : ℕ} {data : List (Option Codes)} {filled : Bool} (h : Grows s₀ s) :
    Grows s₀ (frontRow n k data filled s) := by
  unfold frontRow
  split
  · exact h
  · rename_i fr _
    extract_lets +onlyGivenNames v y rs t0 s1
    have h1 : Grows s₀ s1 := tapRow_grows h
    clear_value s1
    split
    rename_i lin s2 e2
    have h2 : Grows s₀ s2 := by
      refine Grows.of_snd e2 (foldl_grows_snd (fun x r hx => ?_) h1)
      split
      · exact hx
      · dsimp only
        exact linRow_grows hx
    extract_lets +onlyGivenNames present marks degraded s3
    have h3 : Grows s₀ s3 := mergeNote_grows h2
    clear_value s3
    split
    rename_i m s4 e4
    have h4 : Grows s₀ s4 := Grows.of_snd e4 (mergeRow_grows h3)
    extract_lets +onlyGivenNames s5
    have h5 : Grows s₀ s5 := tapRow_grows h4
    clear_value s5
    split
    rename_i row s6 e6
    have h6 : Grows s₀ s6 := Grows.of_snd e6 (trimRow_grows h5)
    extract_lets +onlyGivenNames st en ob s7 s8 s9
    have h7 : Grows s₀ s7 := ite_grows (obAdd_grows h6) h6
    have h8 : Grows s₀ s8 := modFr_grows h7
    have h9 : Grows s₀ s9 := ite_grows (obUpdate_grows h8) h8
    exact ite_grows (obShow_grows h9) h9

/-! ### The model's file `IpColour` -/

theorem acceptMap_grows {n k : ℕ} {fr : IpFrame} (h : Grows s₀ s) : Grows s₀ (acceptMap n k fr s).2 := by
  unfold acceptMap
  extract_lets +onlyGivenNames cnt t x
  dsimp only
  split
  · dsimp only
    refine foldl_grows_third (fun s1 x2 h2 => ?_) h
    split
    · split
      · exact examDetect_grows h2
      · exact examDetect_grows h2
    · split
      · exact examDetect_grows h2
      · exact examDetect_grows h2
  · dsimp only
    refine raise_grows ?_
    refine bumpBy_grows ?_
    refine foldl_grows_third (fun s1 x2 h2 => ?_) h
    split
    · split
      · exact examDetect_grows h2
      · exact examDetect_grows h2
    · split
      · exact examDetect_grows h2
      · exact examDetect_grows h2

theorem dpcFrame_grows {n k : ℕ} (h : Grows s₀ s) : Grows s₀ (dpcFrame n k s) := by
  unfold dpcFrame
  split
  · exact h
  · extract_lets +onlyGivenNames v st dyn
    split
    rename_i s1 _ s2 e
    have h2 : Grows s₀ s2 := Grows.of_snd e (ite_grows_snd (acceptMap_grows h) h)
    extract_lets +onlyGivenNames fix plane p dynFixes
    split
    rename_i s3 _ s4 e2
    have h3 : Grows s₀ s4 := Grows.of_snd e2 (settle_grows h2)
    split
    rename_i s5 _ s6 e3
    have h4 : Grows s₀ s6 := Grows.of_snd e3 (settle_grows h3)
    exact modFr_grows (wr_grows h4)

theorem cfaStage_grows {n : ℕ} {f : ℕ → ℕ → ℚ → ℚ} {p : Array (Array ℕ)} (h :
    Grows s₀ s) : Grows s₀ (cfaStage n f p s).2 := by
  unfold cfaStage
  refine foldl_grows_snd (fun s1 x h2 => ?_) h
  extract_lets +onlyGivenNames row
  split
  rename_i s2 _ s3 e
  have h3 : Grows s₀ s3 := Grows.of_snd e (settleRow_grows h2)
  exact h3

theorem settleRgb_grows {n : ℕ} {front : Bool} {h w : ℕ} {f : ℕ → ℕ → ℚ × ℚ × ℚ} (hs :
    Grows s₀ s) : Grows s₀ (settleRgb n front h w f s).2 := by
  unfold settleRgb
  refine foldl_grows_snd (fun s1 x h2 => ?_) hs
  split
  rename_i s2 _ s3 e
  have h3 : Grows s₀ s3 := Grows.of_snd e (settleRow_grows h2)
  exact h3

theorem toRgb_grows {n k : ℕ} (h : Grows s₀ s) : Grows s₀ (toRgb n k s) := by
  unfold toRgb
  split
  · exact h
  · extract_lets +onlyGivenNames v cfa rho
    split
    split
    rename_i s1 _ s2 e
    have h2 : Grows s₀ s2 := Grows.of_snd e (ite_grows_snd h (cfaStage_grows (frontReads_grows h)))
    exact modFr_grows (ite_grows_snd (ite_grows_snd h2 (cfaStage_grows h2)) (settleRgb_grows (ite_grows_snd h2
        (cfaStage_grows h2))))

theorem sceneFrame_grows {n k : ℕ} (h : Grows s₀ s) : Grows s₀ (sceneFrame n k s) := by
  unfold sceneFrame
  split
  · exact h
  · extract_lets +onlyGivenNames v t
    split
    split
    rename_i s1 _ s2 e
    have h2 : Grows s₀ s2 := Grows.of_snd e (ite_grows_snd h (settleRgb_grows h))
    split
    rename_i s3 _ s4 e2
    have h3 : Grows s₀ s4 := Grows.of_snd e2 (ite_grows_snd h2 (settleRgb_grows (ite_grows (ite_grows (modFr_grows
        (goodParts_grows h2)) (goodParts_grows h2)) (bumpBy_grows (ite_grows (modFr_grows (goodParts_grows h2))
        (goodParts_grows h2))))))
    exact modFr_grows (ite_grows_snd h3 (settleRgb_grows h3))

/-! ### The model's file `IpBranch` -/

theorem tellBranch_grows {n b : ℕ} (h : Grows s₀ s) : Grows s₀ (tellBranch n b s) := by
  unfold tellBranch
  exact ite_grows h (raise_grows (flag_grows (modIp_grows h)))

theorem startBranch_grows {n k b : ℕ} (h : Grows s₀ s) : Grows s₀ (startBranch n k b s) := by
  unfold startBranch
  split
  · exact h
  · exact ite_grows h (ite_grows (tellBranch_grows (modFr_grows h)) (startProd_grows h))

theorem between_grows {n : ℕ} {rows : List (List Px3)} (h : Grows s₀ s) : Grows s₀ (between n rows s).2 := by
  unfold between
  exact ite_grows h (bumpBy_grows h)

theorem pxStage_grows {n : ℕ} {f : ℕ → Px3 → Px3} {x : List (List Px3) × State} (h :
    Grows s₀ x.2) : Grows s₀ (pxStage n f x).2 := by
  unfold pxStage
  split
  rename_i s1 _ s2 e
  have h2 : Grows s₀ s2 := Grows.of_snd e (between_grows h)
  exact h2

theorem markBranch_grows {n k b : ℕ} (h : Grows s₀ s) : Grows s₀ (markBranch n k b s) := by
  unfold markBranch
  exact modFr_grows h

theorem branchTab_grows {n k b id det px per : ℕ} (h : Grows s₀ s) : Grows s₀ (branchTab n k b id det px per s).2 := by
  unfold branchTab
  split
  rename_i s1 _ s2 e
  have h2 : Grows s₀ s2 := Grows.of_snd e (goodParts_grows h)
  exact ite_grows (markBranch_grows h2) h2

theorem transform_grows {n k b : ℕ} {fr : IpFrame} {px : ℕ} {x : List (List Px3) × State} (h :
    Grows s₀ x.2) : Grows s₀ (transform n k b fr px x).2 := by
  unfold transform
  extract_lets +onlyGivenNames v on x1 oneD x2 t act x3 x4 scale
  have h_x1 : Grows s₀ x1.2 := ite_grows_snd (pxStage_grows h) h
  have h_x2 : Grows s₀ x2.2 := ite_grows_snd (pxStage_grows (branchTab_grows h_x1)) h_x1
  have h_x3 : Grows s₀ x3.2 := ite_grows_snd (pxStage_grows (ite_grows (between_grows (branchTab_grows h_x2))
      (bumpBy_grows (between_grows (branchTab_grows h_x2))))) h_x2
  have h_x4 : Grows s₀ x4.2 := ite_grows_snd (pxStage_grows (branchTab_grows h_x3)) h_x3
  exact ite_grows_snd h_x4 (ite_grows (between_grows h_x4) (bumpBy_grows (between_grows h_x4)))

theorem overrun_grows {n k b rows : ℕ} (h : Grows s₀ s) : Grows s₀ (overrun n k b rows s).2 := by
  unfold overrun
  split
  · rename_i s1 s2 e
    have h2 : Grows s₀ s2 := Grows.of_snd e (firstFail_grows h)
    exact h2
  · rename_i s1 _ s2 e
    have h2 : Grows s₀ s2 := Grows.of_snd e (firstFail_grows h)
    exact raise_grows (bump_grows (modFr_grows (ringAbandon_grows h2)))

theorem branchFrame_grows {n k b : ℕ} (h : Grows s₀ s) : Grows s₀ (branchFrame n k b s) := by
  unfold branchFrame
  extract_lets z
  have hz : Grows s₀ z := startBranch_grows h
  clear_value z
  split
  · exact hz
  · rename_i fr _
    extract_lets v
    refine ite_grows hz ?_
    split
    rename_i lost s1 e
    have h1 : Grows s₀ s1 := by
      refine Grows.of_snd e ?_
      split
      · exact overrun_grows hz
      · exact hz
    refine ite_grows h1 ?_
    split
    extract_lets +onlyGivenNames s2
    have h2 : Grows s₀ s2 := ite_grows (bump_grows h1) h1
    clear_value s2
    split
    split
    rename_i s3 e3
    have h3 : Grows s₀ s3 := Grows.of_snd e3 (ite_grows_snd h2 (branchTab_grows h2))
    extract_lets
    split
    extract_lets
    split
    rename_i s4 e4
    have h4 : Grows s₀ s4 := Grows.of_snd e4 (transform_grows h3)
    extract_lets +onlyGivenNames s5
    have h5 : Grows s₀ s5 := ite_grows (modFr_grows h4) h4
    clear_value s5
    split
    · exact h5
    · extract_lets +onlyGivenNames packs clip sat s6 s7 s8
      have h6 : Grows s₀ s6 := ite_grows h5 (bumpBy_grows h5)
      have h7 : Grows s₀ s7 := ite_grows h6 (bumpBy_grows h6)
      have h8 : Grows s₀ s8 := foldl_grows (fun _ _ h => writeRow_grows h) h7
      exact wholeBuf_grows h8

/-! ### The model's file `PipMap` -/

theorem modPip_grows {u : PipRef} {f : PipSt → PipSt} (h : Grows s₀ s) : Grows s₀ (modPip u f s) := by
  unfold modPip
  exact Grows.update h

theorem modPod_grows {p : ℕ} {f : PodSt → PodSt} (h : Grows s₀ s) : Grows s₀ (modPod p f s) := by
  unfold modPod
  exact Grows.update h

theorem modSlot_grows {j : ℕ} {f : SlotSt → SlotSt} (h : Grows s₀ s) : Grows s₀ (modSlot j f s) := by
  unfold modSlot
  exact Grows.update h

theorem setPos_grows {p k i : ℕ} (h : Grows s₀ s) : Grows s₀ (setPos p k i s) := by
  unfold setPos
  exact ite_grows (wr_grows h) (setF_grows (wr_grows h))

theorem restState_grows {u : PipRef} (h : Grows s₀ s) : Grows s₀ (restState u s) := by
  unfold restState
  exact setF_grows h

theorem showPod_grows {p : ℕ} (h : Grows s₀ s) : Grows s₀ (showPod p s) := by
  unfold showPod
  exact setF_grows (setF_grows (setF_grows h))

theorem monReadmitted_grows {u : PipRef} {ok : Bool} (h : Grows s₀ s) : Grows s₀ (monReadmitted u ok s) := by
  unfold monReadmitted
  exact ite_grows (Grows.update h) h

theorem joinPip_grows {u : PipRef} (h : Grows s₀ s) : Grows s₀ (joinPip u s) := by
  unfold joinPip
  extract_lets +onlyGivenNames s1 s2 s3 s4
  have h1 : Grows s₀ s1 := modPip_grows h
  have h2 : Grows s₀ s2 := by
    unfold s2
    split
    · exact setF_grows (setPos_grows h1)
    · exact setF_grows (setF_grows h1)
  have h3 : Grows s₀ s3 := showPod_grows h2
  have h4 : Grows s₀ s4 := by
    unfold s4
    split
    · exact ite_grows (setF_grows h3) h3
    · exact h3
  exact monReadmitted_grows (raise_grows h4)

theorem joinAll_grows {j : ℕ} (h : Grows s₀ s) : Grows s₀ (joinAll j s) := by
  unfold joinAll
  exact foldl_grows (fun _ _ h2 => foldl_grows (fun _ _ h3 => ite_grows (joinPip_grows h3) h3) h2) h

theorem slotEnter_grows {n k j : ℕ} (h : Grows s₀ s) : Grows s₀ (slotEnter n k j s) := by
  unfold slotEnter
  exact ite_grows (modFr_grows (ite_grows (modFr_grows (joinAll_grows h)) (joinAll_grows h))) (ite_grows
      (modFr_grows (joinAll_grows h)) (joinAll_grows h))

theorem showLoading_grows {n : ℕ} (h : Grows s₀ s) : Grows s₀ (showLoading n s) := by
  unfold showLoading
  exact ite_grows (foldl_grows (fun _ _ h2 => setF_grows h2) h) h

/-! ### The model's file `Ip` -/

theorem ipTouch_grows {n a : ℕ} (h : Grows s₀ s) : Grows s₀ (ipTouch n a s) := by
  unfold ipTouch
  split
  · split
    · exact modIp_grows h
    · exact h
  · exact h

theorem showCommits_grows {n : ℕ} (h : Grows s₀ s) : Grows s₀ (showCommits n s) := by
  unfold showCommits
  exact setF_grows (setF_grows (setF_grows h))

theorem commitJudge_grows {n : ℕ} {regs : List (ℕ × Word)} (h : Grows s₀ s) : Grows s₀ (commitJudge n regs s) := by
  unfold commitJudge
  extract_lets +onlyGivenNames v fr s1 s2 en run prc idle s3
  have h1 : Grows s₀ s1 := ite_grows (flag_grows h) h
  have h2 : Grows s₀ s2 := foldl_grows (fun _ _ h2 => ite_grows (raise_grows (flag_grows (ite_grows (flag_grows h2)
      h2))) (ite_grows (flag_grows h2) h2)) h1
  have h3 : Grows s₀ s3 := foldl_grows (fun _ _ h3 => flag_grows h3) h2
  split
  exact ite_grows (flag_grows h3) h3

theorem captureInto_grows {n target seq : ℕ} (h : Grows s₀ s) : Grows s₀ (captureInto n target seq s) := by
  unfold captureInto
  exact ite_grows (flag_grows h) (showCommits_grows (commitJudge_grows (modIp_grows h)))

theorem captureEnd_grows {n : ℕ} (h : Grows s₀ s) : Grows s₀ (captureEnd n s) := by
  unfold captureEnd
  exact ite_grows (showCommits_grows (modIp_grows (advanceTo_grows h))) h

theorem ipStall_grows {n : ℕ} (h : Grows s₀ s) : Grows s₀ (ipStall n s) := by
  unfold ipStall
  exact captureEnd_grows h

theorem commitWrite_grows {n : ℕ} {v : Word} (h : Grows s₀ s) : Grows s₀ (commitWrite n v s) := by
  unfold commitWrite
  exact captureInto_grows (ipStall_grows h)

theorem execCommit_grows {r : Requester} {n : ℕ} {v : Word} (h : Grows s₀ s) : GrowsNext s₀ (execCommit r n v s) := by
  unfold execCommit
  exact guardOk_grows (writeBy_grows (fun _ h2 => commitWrite_grows h2) h)

theorem execCommitCaptureDone_grows {n : ℕ} (h : Grows s₀ s) : GrowsNext s₀ (execCommitCaptureDone n s) := by
  unfold execCommitCaptureDone
  exact guardOk_grows (ite_grows (captureEnd_grows h) h)

theorem readTab_grows {n id ver a cnt : ℕ} {no : Bool} (h :
    Grows s₀ s) : Grows s₀ (readTab n id ver a cnt no s).2.2 := by
  unfold readTab
  exact foldl_grows_snd_snd (fun _ _ h2 => examDetect_grows (dmaSpan_grows h2)) h

theorem loadTab_grows {n id ver : ℕ} {fr : IpFrame} (h : Grows s₀ s) : Grows s₀ (loadTab n id ver fr s).2.2 := by
  unfold loadTab
  exact readTab_grows h

theorem tableErr_grows {n g : ℕ} (h : Grows s₀ s) : Grows s₀ (tableErr n g s) := by
  unfold tableErr
  exact raise_grows (setF_grows h)

theorem loadGroup_grows {n i g : ℕ} (h : Grows s₀ s) : Grows s₀ (loadGroup n i g s) := by
  unfold loadGroup
  split
  · exact h
  · exact ite_grows (tableErr_grows (modIp_grows (foldl_grows_snd_snd (fun _ _ h2 => loadTab_grows h2) h)))
      (modIp_grows (foldl_grows_snd_snd (fun _ _ h2 => loadTab_grows h2) h))

theorem execTableLoadDone_grows {n : ℕ} (h : Grows s₀ s) : GrowsNext s₀ (execTableLoadDone n s) := by
  unfold execTableLoadDone
  refine guardOk_grows ?_
  split
  · exact showCommits_grows (loadGroup_grows h)
  · exact h

theorem applyFirst_grows {n pfn : ℕ} {c : IpCommit} (h : Grows s₀ s) : Grows s₀ (applyFirst n pfn c s).1 := by
  unfold applyFirst
  extract_lets +onlyGivenNames s1 s2 s3 late s4 s5
  have h1 : Grows s₀ s1 := forceLive_grows h
  have h2 : Grows s₀ s2 := modIp_grows h1
  have h3 : Grows s₀ s3 := raise_grows (setF_grows h2)
  have h4 : Grows s₀ s4 := ite_grows (raise_grows h3) h3
  have h5 : Grows s₀ s5 := ite_grows (raise_grows h4) h4
  exact h5

theorem applyDue_grows {n pfn k : ℕ} (h : Grows s₀ s) : Grows s₀ (applyDue n pfn k s).2.2 := by
  induction k generalizing s with
  | zero =>
    rw [applyDue]
    exact h
  | succ k ih =>
    rw [applyDue]
    dsimp only
    split
    · exact h
    · split
      · exact h
      · split
        · dsimp only
          exact modIp_grows h
        · exact ih (applyFirst_grows h)

theorem calPass_grows {n pfn : ℕ} {to_ : Bool} (h : Grows s₀ s) : Grows s₀ (calPass n pfn to_ s) := by
  unfold calPass
  exact ite_grows h (raise_grows (setF_grows h))

theorem calFrame_grows {n pfn w : ℕ} {discard : Bool} (h : Grows s₀ s) : Grows s₀ (calFrame n pfn w discard s) := by
  unfold calFrame
  extract_lets +onlyGivenNames s1 s2 good due
  have h1 : Grows s₀ s1 := setF_grows h
  have h2 : Grows s₀ s2 := modIp_grows h1
  split
  · exact calPass_grows (modIp_grows h1)
  · split
    · split
      · split
        rename_i s3 _ s4 e
        have h3 : Grows s₀ s4 := Grows.of_snd e (draw_grows h2)
        split
        · exact calPass_grows (modIp_grows h3)
        · split
          · exact h3
          · split
            · exact calPass_grows (modIp_grows h3)
            · exact calPass_grows (modIp_grows h3)
            · exact h3
      · exact h2
    · exact h1

theorem enterFrame_grows {n : ℕ} {i : FrameInfo} {depth fm fv readouts : ℕ} (h :
    Grows s₀ s) : Grows s₀ (enterFrame n i depth fm fv readouts s) := by
  unfold enterFrame
  split
  rename_i s1 _ _ s2 e
  have h2 : Grows s₀ s2 := Grows.of_snd_snd e (applyDue_grows h)
  extract_lets +onlyGivenNames par _ fr cfa now
  split
  extract_lets +onlyGivenNames s3 s4 s5 p fr1
  have h3 : Grows s₀ s3 := ite_grows (modIp_grows h2) h2
  have h4 : Grows s₀ s4 := calFrame_grows h3
  have h5 : Grows s₀ s5 := by
    unfold s5
    split
    · exact ite_grows h4 (modIp_grows h4)
    · exact h4
  exact showCommits_grows (modIp_grows h5)

theorem dropDone_grows {n : ℕ} (h : Grows s₀ s) : Grows s₀ (dropDone n s) := by
  unfold dropDone
  exact modIp_grows h

theorem branchesFrame_grows {n k : ℕ} (h : Grows s₀ s) : Grows s₀ (branchesFrame n k s) := by
  unfold branchesFrame
  exact modFr_grows (foldl_grows (fun _ _ h2 => branchFrame_grows h2) h)

theorem flowOne_grows {n k : ℕ} (h : Grows s₀ s) : Grows s₀ (flowOne n k s) := by
  unfold flowOne
  exact ite_grows (branchesFrame_grows (slotEnter_grows (ite_grows (sceneFrame_grows (slotEnter_grows h)) h)))
      (ite_grows (sceneFrame_grows (slotEnter_grows h)) h)

theorem ipFlow_grows {n : ℕ} (h : Grows s₀ s) : Grows s₀ (ipFlow n s) := by
  unfold ipFlow
  exact showLoading_grows (showCommits_grows (foldl_grows (fun _ _ h2 => flowOne_grows h2) h))

theorem statsParity_grows {n k : ℕ} (h : Grows s₀ s) : Grows s₀ (statsParity n k s) := by
  unfold statsParity
  split
  · exact h
  · split
    · rename_i s1 s2 e
      have h2 : Grows s₀ s2 := Grows.of_snd e (firstFail_grows h)
      exact h2
    · rename_i s1 _ s2 e
      have h2 : Grows s₀ s2 := Grows.of_snd e (firstFail_grows h)
      exact modFr_grows h2

theorem frameRows_grows {n k : ℕ} (h : Grows s₀ s) : Grows s₀ (frameRows n k s) := by
  unfold frameRows
  extract_lets +onlyGivenNames s1 s2
  have h1 : Grows s₀ s1 := statsParity_grows (dpcFrame_grows h)
  have h2 : Grows s₀ s2 := modFr_grows h1
  split
  · exact h2
  · extract_lets +onlyGivenNames s3 s4 rgb s5 s6 s7
    have h3 : Grows s₀ s3 := foldl_grows (fun _ _ h3 => tapRow_grows h3) h2
    have h4 : Grows s₀ s4 := toRgb_grows h3
    have h5 : Grows s₀ s5 := foldl_grows (fun _ _ h5 => tapRow_grows h5) h4
    have h6 : Grows s₀ s6 := foldl_grows (fun _ _ h6 => wholeBuf_grows h6) h5
    have h7 : Grows s₀ s7 := ite_grows (modIp_grows h6) h6
    exact ipFlow_grows (modFr_grows h7)

theorem absorb1_grows {n : ℕ} (h : Grows s₀ s) : Grows s₀ (absorb1 n s) := by
  unfold absorb1
  extract_lets +onlyGivenNames last
  split
  · exact modFr_grows (modPort_grows h)
  · extract_lets +onlyGivenNames s1 s2
    have h1 : Grows s₀ s1 := modPort_grows h
    have h2 : Grows s₀ s2 := modFr_grows h1
    split
    · exact h2
    · exact Grows.update h2
  · exact h

theorem absorb_grows {n : ℕ} (h : Grows s₀ s) : Grows s₀ (absorb n s) := by
  unfold absorb
  exact dropDone_grows (absorb1_grows (absorb1_grows h))

theorem execFrameEnterUnpack_grows {n : ℕ} (h : Grows s₀ s) : GrowsNext s₀ (execFrameEnterUnpack n s) := by
  unfold execFrameEnterUnpack
  refine guardOk_grows ?_
  split
  · extract_lets +onlyGivenNames s1
    have h1 : Grows s₀ s1 := absorb_grows h
    split
    · exact enterFrame_grows (modPort_grows h1)
    · exact h1
  · exact h

theorem execRowEnterPipeline_grows {n : ℕ} (h : Grows s₀ s) : GrowsNext s₀ (execRowEnterPipeline n s) := by
  unfold execRowEnterPipeline
  refine guardOk_grows ?_
  split
  · extract_lets +onlyGivenNames s1 k held s2
    have h1 : Grows s₀ s1 := absorb_grows h
    have h2 : Grows s₀ s2 := ite_grows (modFr_grows h1) h1
    split
    · exact ite_grows h2 (ite_grows (absorb_grows (frameRows_grows (frontRow_grows (modPort_grows h2))))
        (absorb_grows (frontRow_grows (modPort_grows h2))))
    · exact modPort_grows h1
    · exact h1
  · exact h

theorem calCtrlWrite_grows {n : ℕ} {v : Word} (h : Grows s₀ s) : Grows s₀ (calCtrlWrite n v s) := by
  unfold calCtrlWrite
  exact ite_grows (flag_grows (modIp_grows (ite_grows (modIp_grows (plainWrite_grows h)) (plainWrite_grows h))))
      (ite_grows (modIp_grows (plainWrite_grows h)) (plainWrite_grows h))

theorem execCalClear_grows {r : Requester} {n : ℕ} {v : Word} (h :
    Grows s₀ s) : GrowsNext s₀ (execCalClear r n v s) := by
  unfold execCalClear
  exact guardOk_grows (writeBy_grows (fun _ h2 => calCtrlWrite_grows (ipStall_grows h2)) h)

theorem reloadTab_grows {n id : ℕ} {t : Tab} (h : Grows s₀ s) : Grows s₀ (reloadTab n id t s) := by
  unfold reloadTab
  extract_lets +onlyGivenNames known
  split
  rename_i s1 _ _ s2 e
  have h2 : Grows s₀ s2 := Grows.of_snd_snd e (readTab_grows h)
  exact ite_grows (tableErr_grows (modIp_grows h2)) (modIp_grows h2)

theorem execTableReload_grows {n : ℕ} (h : Grows s₀ s) : GrowsNext s₀ (execTableReload n s) := by
  unfold execTableReload
  exact guardOk_grows (ite_grows (foldl_grows (fun _ _ h2 => reloadTab_grows h2) h) h)

theorem execStatsReady_grows {n : ℕ} (h : Grows s₀ s) : GrowsNext s₀ (execStatsReady n s) := by
  unfold execStatsReady
  refine guardOk_grows ?_
  split
  · extract_lets +onlyGivenNames s1
    have h1 : Grows s₀ s1 := absorb_grows h
    split
    · exact dropDone_grows (statsWrite_grows h1)
    · exact h1
  · exact h

theorem execLumaReady_grows {n : ℕ} (h : Grows s₀ s) : GrowsNext s₀ (execLumaReady n s) := by
  unfold execLumaReady
  refine guardOk_grows ?_
  split
  · extract_lets +onlyGivenNames s1
    have h1 : Grows s₀ s1 := absorb_grows h
    split
    · exact dropDone_grows (lumaWrite_grows h1)
    · exact h1
  · exact h

theorem offerProd_grows {n p : ℕ} (h : Grows s₀ s) : Grows s₀ (offerProd n p s) := by
  unfold offerProd
  extract_lets +onlyGivenNames s1
  have h1 : Grows s₀ s1 := absorb_grows h
  split
  · exact h1
  · exact dropDone_grows (offerDue_grows h1)

theorem execTapOffer_grows {n t : ℕ} (h : Grows s₀ s) : GrowsNext s₀ (execTapOffer n t s) := by
  unfold execTapOffer
  exact guardOk_grows (ite_grows (offerProd_grows h) h)

theorem startAt_grows {n p : ℕ} (h : Grows s₀ s) : Grows s₀ (startAt n p s) := by
  unfold startAt
  extract_lets +onlyGivenNames s1
  have h1 : Grows s₀ s1 := absorb_grows h
  split
  · exact h1
  · exact ite_grows (startTap_grows h1) (startBranch_grows h1)

/-! ### The model's file `SensBus` -/

theorem showSets_grows {n : ℕ} (h : Grows s₀ s) : Grows s₀ (showSets n s) := by
  unfold showSets
  exact setF_grows (setF_grows h)

theorem setPush_grows {n : ℕ} {v : Word} (h : Grows s₀ s) : Grows s₀ (setPush n v s) := by
  unfold setPush
  exact ite_grows (flag_grows h) (showSets_grows (modPort_grows h))

theorem setClose_grows {n : ℕ} {v : Word} (h : Grows s₀ s) : Grows s₀ (setClose n v s) := by
  unfold setClose
  exact ite_grows h (ite_grows (flag_grows h) (relate_grows (showSets_grows (modPort_grows h))))

theorem execSetPush_grows {r : Requester} {n : ℕ} {v : Word} (h : Grows s₀ s) : GrowsNext s₀ (execSetPush r n v s) := by
  unfold execSetPush
  exact guardOk_grows (writeBy_grows (fun _ h2 => setPush_grows h2) h)

theorem execSetClose_grows {r : Requester} {n : ℕ} {v : Word} (h :
    Grows s₀ s) : GrowsNext s₀ (execSetClose r n v s) := by
  unfold execSetClose
  exact guardOk_grows (writeBy_grows (fun _ h2 => setClose_grows h2) h)

theorem busStart_grows {n : ℕ} {x : Xfer} (h : Grows s₀ s) : Grows s₀ (busStart n x s) := by
  unfold busStart
  extract_lets +onlyGivenNames s1
  have h1 : Grows s₀ s1 := modPort_grows h
  split
  · exact modPort_grows h1
  · split
    · exact modPort_grows h1
    · split
      · exact modPort_grows h1
      · split
        · exact h1
        · exact showSets_grows (ite_grows (raise_grows (bump_grows (modPort_grows h1))) (modPort_grows h1))

theorem busGo_grows {n : ℕ} {p : Xfer → Bool} (h : Grows s₀ s) : Grows s₀ (busGo n p s) := by
  unfold busGo
  split
  · split
    · exact ite_grows (busStart_grows h) h
    · exact h
  · exact h

theorem execSetWriteSend_grows {n : ℕ} (h : Grows s₀ s) : GrowsNext s₀ (execSetWriteSend n s) := by
  unfold execSetWriteSend
  exact guardOk_grows (busGo_grows h)

theorem execSetLastWrite_grows {n : ℕ} (h : Grows s₀ s) : GrowsNext s₀ (execSetLastWrite n s) := by
  unfold execSetLastWrite
  exact guardOk_grows (busGo_grows h)

theorem execMapCmdSend_grows {n : ℕ} (h : Grows s₀ s) : GrowsNext s₀ (execMapCmdSend n s) := by
  unfold execMapCmdSend
  exact guardOk_grows (busGo_grows h)

theorem execBusTransferStart_grows {n : ℕ} (h : Grows s₀ s) : GrowsNext s₀ (execBusTransferStart n s) := by
  unfold execBusTransferStart
  exact guardOk_grows (busGo_grows h)

theorem linkSent_grows {n : ℕ} {rate : Bool} (h : Grows s₀ s) : Grows s₀ (linkSent n rate s) := by
  unfold linkSent
  exact modPort_grows h

theorem setSent_grows {n from_ : ℕ} (h : Grows s₀ s) : Grows s₀ (setSent n from_ s) := by
  unfold setSent
  split
  · exact h
  · exact setSettle_grows (showSets_grows (modPort_grows h))

theorem xferGood_grows {n : ℕ} {x : Xfer} {rdata : Byte} (h : Grows s₀ s) : Grows s₀ (xferGood n x rdata s) := by
  unfold xferGood
  split
  · exact ite_grows (linkSent_grows h) h
  · exact ite_grows (setSent_grows h) h
  · exact setF_grows (setF_grows (ite_grows (setF_grows h) h))

theorem xferBad_grows {n : ℕ} {x : Xfer} (h : Grows s₀ s) : Grows s₀ (xferBad n x s) := by
  unfold xferBad
  extract_lets +onlyGivenNames s1
  have h1 : Grows s₀ s1 := raise_grows (bump_grows h)
  split
  · exact ite_grows (linkSent_grows h1) h1
  · exact showSets_grows (modPort_grows h1)
  · exact setF_grows (setF_grows (setF_grows h1))

theorem busDone_grows {n : ℕ} {nack : Bool} {rdata : Byte} (h : Grows s₀ s) : Grows s₀ (busDone n nack rdata s) := by
  unfold busDone
  split
  · exact h
  · extract_lets +onlyGivenNames s1
    have h1 : Grows s₀ s1 := modPort_grows h
    split
    · split
      rename_i s2 _ s3 e
      have h2 : Grows s₀ s3 := Grows.of_snd e (examDetect_grows h1)
      exact ite_grows (xferBad_grows h2) (xferGood_grows h2)
    · exact ite_grows (modPort_grows h1) (xferGood_grows h1)

theorem execBusTransferDone_grows {n : ℕ} {nack : Bool} {rdata : Byte} (h :
    Grows s₀ s) : GrowsNext s₀ (execBusTransferDone n nack rdata s) := by
  unfold execBusTransferDone
  exact guardOk_grows (ite_grows (busDone_grows h) h)

theorem dirCmdWrite_grows {n : ℕ} {v : Word} (h : Grows s₀ s) : Grows s₀ (dirCmdWrite n v s) := by
  unfold dirCmdWrite
  exact ite_grows h (setF_grows (setF_grows (setF_grows (modPort_grows h))))

theorem execDirRead_grows {r : Requester} {n : ℕ} {v : Word} (h : Grows s₀ s) : GrowsNext s₀ (execDirRead r n v s) := by
  unfold execDirRead
  exact guardOk_grows (writeBy_grows (fun _ h2 => dirCmdWrite_grows h2) h)

theorem execDirWrite_grows {r : Requester} {n : ℕ} {v : Word} (h :
    Grows s₀ s) : GrowsNext s₀ (execDirWrite r n v s) := by
  unfold execDirWrite
  exact guardOk_grows (writeBy_grows (fun _ h2 => dirCmdWrite_grows h2) h)

theorem execIbi_grows {n : ℕ} {data : Byte} (h : Grows s₀ s) : GrowsNext s₀ (execIbi n data s) := by
  unfold execIbi
  exact guardOk_grows (ite_grows (raise_grows h) h)

/-! ### The model's file `Javel` -/

theorem modLane_grows {n k : ℕ} {f : LaneSt → LaneSt} (h : Grows s₀ s) : Grows s₀ (modLane n k f s) := by
  unfold modLane
  exact modPort_grows h

theorem modJv_grows {n : ℕ} {f : JvSt → JvSt} (h : Grows s₀ s) : Grows s₀ (modJv n f s) := by
  unfold modJv
  exact modPort_grows h

theorem setLock_grows {n k v : ℕ} (h : Grows s₀ s) : Grows s₀ (setLock n k v s) := by
  unfold setLock
  exact setF_grows (setF_grows h)

theorem showSpare_grows {n : ℕ} (h : Grows s₀ s) : Grows s₀ (showSpare n s) := by
  unfold showSpare
  exact setF_grows h

theorem linkCheck_grows {n : ℕ} (h : Grows s₀ s) : Grows s₀ (linkCheck n s) := by
  unfold linkCheck
  extract_lets +onlyGivenNames ks s1 s2
  have h1 : Grows s₀ s1 := showSpare_grows h
  have h2 : Grows s₀ s2 := raise_grows (setF_grows (setF_grows (modJv_grows h1)))
  exact ite_grows (ite_grows (ite_grows h2 (portClose_grows h2)) h1) (ite_grows (raise_grows (flag_grows h1)) h1)

theorem laneHunt_grows {n k : ℕ} (h : Grows s₀ s) : Grows s₀ (laneHunt n k s) := by
  unfold laneHunt
  exact setLock_grows (modLane_grows h)

theorem laneSlip_grows {n k : ℕ} (h : Grows s₀ s) : Grows s₀ (laneSlip n k s) := by
  unfold laneSlip
  exact modLane_grows h

theorem lanePreset_grows {n k : ℕ} (h : Grows s₀ s) : Grows s₀ (lanePreset n k s) := by
  unfold lanePreset
  exact laneHunt_grows (modLane_grows h)

theorem laneSuspect_grows {n k : ℕ} (h : Grows s₀ s) : Grows s₀ (laneSuspect n k s) := by
  unfold laneSuspect
  exact linkCheck_grows (lanePreset_grows (modLane_grows (raise_grows (setF_grows h))))

theorem laneErrors_grows {n k e det : ℕ} {inj : Bool} (h : Grows s₀ s) : Grows s₀ (laneErrors n k e det inj s) := by
  unfold laneErrors
  exact ite_grows (laneSuspect_grows (modLane_grows h)) (modLane_grows h)

theorem lockedBlock_grows {n k : ℕ} {h : BitVec 2} {plain : BitVec 64} (hs :
    Grows s₀ s) : Grows s₀ (lockedBlock n k h plain s) := by
  unfold lockedBlock
  extract_lets +onlyGivenNames s1 s2
  have h1 : Grows s₀ s1 := bump_grows hs
  have h2 : Grows s₀ s2 := ite_grows (ite_grows h1 (raise_grows (modLane_grows h1))) hs
  split
  rename_i s3 _ s4 e
  have h3 : Grows s₀ s4 := Grows.of_snd e (examine_grows h2)
  exact ite_grows (ite_grows (laneErrors_grows (linkCheck_grows (laneHunt_grows (bump_grows (bump_grows
      (modLane_grows (modLane_grows h3))))))) (laneErrors_grows (bump_grows (modLane_grows (modLane_grows h3)))))
      (modLane_grows (modLane_grows h3))

theorem blockIn_grows {n k : ℕ} {h : BitVec 2} {p : BitVec 64} (hs : Grows s₀ s) : Grows s₀ (blockIn n k h p s) := by
  unfold blockIn
  split
  extract_lets +onlyGivenNames on s1 v s2
  have h1 : Grows s₀ s1 := modLane_grows hs
  have h2 : Grows s₀ s2 := setLock_grows (modLane_grows h1)
  split
  · exact ite_grows (setLock_grows (modLane_grows h1)) (laneSlip_grows h1)
  · exact ite_grows (ite_grows (modLane_grows h1) (linkCheck_grows (ite_grows (setF_grows h2) h2))) (laneSlip_grows
      (laneHunt_grows h1))
  · exact lockedBlock_grows h1

theorem execBlockReceived_grows {n k : ℕ} {h : BitVec 2} {p : BitVec 64} (hs :
    Grows s₀ s) : GrowsNext s₀ (execBlockReceived n k h p s) := by
  unfold execBlockReceived
  exact guardOk_grows (ite_grows (blockIn_grows hs) hs)

theorem alignError_grows {n k : ℕ} {inj : Bool} (h : Grows s₀ s) : Grows s₀ (alignError n k inj s) := by
  unfold alignError
  exact laneErrors_grows (bump_grows h)

theorem laneAligned_grows {n k late : ℕ} (h : Grows s₀ s) : Grows s₀ (laneAligned n k late s) := by
  unfold laneAligned
  exact modLane_grows h

theorem alignNumber_grows {n : ℕ} {seen : List AlignSeen} {checked : List ℕ} {k : ℕ} (h :
    Grows s₀ s) : Grows s₀ (alignNumber n seen checked k s) := by
  unfold alignNumber
  split
  · split
    rename_i s1 _ s2 e
    have h2 : Grows s₀ s2 := Grows.of_snd e (examine_grows h)
    exact ite_grows (alignError_grows h2) h2
  · exact h

theorem alignCheck_grows {n q : ℕ} {seen : List AlignSeen} {k : ℕ} (h :
    Grows s₀ s) : Grows s₀ (alignCheck n q seen k s) := by
  unfold alignCheck
  split
  · split
    rename_i s1 _ s2 e
    have h2 : Grows s₀ s2 := Grows.of_snd e (examine_grows h)
    exact ite_grows (alignError_grows (modLane_grows h2)) h2
  · exact h

theorem alignAgain_grows {n q : ℕ} {seen : List AlignSeen} {k : ℕ} (h :
    Grows s₀ s) : Grows s₀ (alignAgain n q seen k s) := by
  unfold alignAgain
  split
  · split
    · exact ite_grows (laneAligned_grows h) h
    · exact h
  · exact h

theorem alignAttempt_grows {n : ℕ} {seen : List AlignSeen} (h : Grows s₀ s) : Grows s₀ (alignAttempt n seen s) := by
  unfold alignAttempt
  extract_lets +onlyGivenNames ks s1
  have h1 : Grows s₀ s1 := foldl_grows (fun _ _ h2 => alignNumber_grows h2) h
  split
  · exact h1
  · split
    split
    · exact h1
    · extract_lets +onlyGivenNames here new s2 got s3 s4
      have h2 : Grows s₀ s2 := foldl_grows (fun _ _ h2 => modLane_grows h2) h1
      have h3 : Grows s₀ s3 := foldl_grows (fun _ _ h3 => laneAligned_grows h3) h2
      have h4 : Grows s₀ s4 := flag_grows (modJv_grows h3)
      exact ite_grows (linkCheck_grows (ite_grows h4 (startDiscard_grows h4))) (modJv_grows h2)

theorem alignExam_grows {n : ℕ} {seen : List AlignSeen} (h : Grows s₀ s) : Grows s₀ (alignExam n seen s).2 := by
  unfold alignExam
  extract_lets +onlyGivenNames bs
  split
  rename_i s1 _ s2 e
  have h2 : Grows s₀ s2 := Grows.of_snd e (examDetect_grows h)
  extract_lets +onlyGivenNames s3
  have h3 : Grows s₀ s3 := ite_grows (frameFsw_grows (bump_grows h2)) h2
  split
  rename_i s4 _ s5 e2
  have h4 : Grows s₀ s5 := Grows.of_snd e2 (ite_grows_snd h3 (examDetect_grows h3))
  exact ite_grows_snd (bump_grows h4) h4

theorem alignColumn_grows {n : ℕ} {seen : List AlignSeen} (h : Grows s₀ s) : Grows s₀ (alignColumn n seen s) := by
  unfold alignColumn
  split
  · split
    rename_i s1 _ s2 e
    have h2 : Grows s₀ s2 := Grows.of_snd e (alignExam_grows h)
    exact linkCheck_grows (modJv_grows (foldl_grows (fun _ _ h3 => alignAgain_grows h3) (foldl_grows (fun _ _ h3 =>
        alignCheck_grows h3) (foldl_grows (fun _ _ h3 => alignNumber_grows h3) h2))))
  · exact alignAttempt_grows h

theorem execAlignColumn_grows {n : ℕ} {seen : List AlignSeen} (h :
    Grows s₀ s) : GrowsNext s₀ (execAlignColumn n seen s) := by
  unfold execAlignColumn
  exact guardOk_grows (ite_grows (alignColumn_grows h) h)

theorem execDeskewWindowEnd_grows {n : ℕ} (h : Grows s₀ s) : GrowsNext s₀ (execDeskewWindowEnd n s) := by
  unfold execDeskewWindowEnd
  refine guardOk_grows ?_
  split
  · exact h
  · exact ite_grows (ite_grows (raise_grows (flag_grows (modJv_grows (advanceTo_grows h)))) (modJv_grows
      (advanceTo_grows h))) h

theorem spoiltDone_grows {n : ℕ} (h : Grows s₀ s) : Grows s₀ (spoiltDone n s) := by
  unfold spoiltDone
  exact ite_grows (modPort_grows h) h

theorem columnIn_grows {n : ℕ} {col : Column} (h : Grows s₀ s) : Grows s₀ (columnIn n col s).2 := by
  unfold columnIn
  extract_lets +onlyGivenNames bs
  split
  rename_i s1 _ s2 e
  have h2 : Grows s₀ s2 := Grows.of_snd e (examDetect_grows (spoiltDone_grows h))
  split
  · exact frameFsw_grows (bump_grows h2)
  · clear_value bs
    split
    · exact h2
    · split
      · exact h2
      · split
        rename_i s3 _ s4 e2
        have h3 : Grows s₀ s4 := Grows.of_snd e2 (examDetect_grows h2)
        exact ite_grows_snd (ite_grows (discardUnits_grows (bump_grows h3)) (bump_grows h3)) h3

theorem showRoles_grows {n : ℕ} (h : Grows s₀ s) : Grows s₀ (showRoles n s) := by
  unfold showRoles
  exact foldl_grows (fun _ _ h2 => ite_grows h2 (setF_grows h2)) h

theorem linkWrites_grows {n : ℕ} {rate : Bool} {block : List Byte} {gen : ℕ} (h :
    Grows s₀ s) : Grows s₀ (linkWrites n rate block gen s) := by
  unfold linkWrites
  exact modPort_grows h

theorem startChange_grows {n : ℕ} {map : List ℕ} {spare : Option ℕ} (h :
    Grows s₀ s) : Grows s₀ (startChange n map spare s) := by
  unfold startChange
  exact linkWrites_grows (flag_grows (modJv_grows h))

theorem laneReplace_grows {n k : ℕ} (h : Grows s₀ s) : Grows s₀ (laneReplace n k s) := by
  unfold laneReplace
  split
  · exact ite_grows (startChange_grows h) (raise_grows h)
  · exact raise_grows h

theorem laneDead_grows {n k : ℕ} (h : Grows s₀ s) : Grows s₀ (laneDead n k s) := by
  unfold laneDead
  extract_lets +onlyGivenNames l s1 s2 j placed s3
  have h1 : Grows s₀ s1 := modLane_grows h
  have h2 : Grows s₀ s2 := lasting_grows (raise_grows (setF_grows h1))
  have h3 : Grows s₀ s3 := ite_grows (showSpare_grows (modJv_grows h2)) (ite_grows (ite_grows (modJv_grows h2)
      (laneReplace_grows h2)) h2)
  exact linkCheck_grows h3

theorem laneJudge_grows {n k : ℕ} (h : Grows s₀ s) : Grows s₀ (laneJudge n k s) := by
  unfold laneJudge
  exact ite_grows (transient_grows (bump_grows (setF_grows (modLane_grows h)))) (laneDead_grows h)

theorem laneReadmitJudge_grows {n k start seen : ℕ} (h :
    Grows s₀ s) : Grows s₀ (laneReadmitJudge n k start seen s) := by
  unfold laneReadmitJudge
  exact ite_grows (ite_grows (modLane_grows h) (ite_grows (setF_grows (modJv_grows (modLane_grows (modLane_grows
      h)))) (modLane_grows h))) (ite_grows (modLane_grows h) h)

theorem laneInterval_grows {n start k : ℕ} (h : Grows s₀ s) : Grows s₀ (laneInterval n start k s) := by
  unfold laneInterval
  extract_lets +onlyGivenNames l s1
  have h1 : Grows s₀ s1 := by
    unfold s1
    split
    · exact h
    · split
      · exact ite_grows (laneJudge_grows h) h
      · exact ite_grows (laneReadmitJudge_grows h) h
      · exact h
  exact modLane_grows h1

theorem execLaneJudgeInterval_grows {n : ℕ} (h : Grows s₀ s) : GrowsNext s₀ (execLaneJudgeInterval n s) := by
  unfold execLaneJudgeInterval
  exact guardOk_grows (ite_grows (showSpare_grows (foldl_grows (fun _ _ h2 => laneInterval_grows h2) (modJv_grows
      (advanceTo_grows h)))) h)

theorem applyMap_grows {n : ℕ} {c : MapChg} (h : Grows s₀ s) : Grows s₀ (applyMap n c s) := by
  unfold applyMap
  exact linkCheck_grows (foldl_grows (fun _ _ h2 => ite_grows (ite_grows (modJv_grows h2) (laneReplace_grows h2))
      h2) (showSpare_grows (raise_grows (bump_grows (showRoles_grows (setF_grows (setF_grows (modJv_grows h))))))))

theorem checkGen_grows {n gen : ℕ} (h : Grows s₀ s) : Grows s₀ (checkGen n gen s) := by
  unfold checkGen
  extract_lets +onlyGivenNames g
  split
  · exact ite_grows (applyMap_grows h) (ite_grows (ite_grows (modJv_grows h) h) (flag_grows (ite_grows (modJv_grows
      h) h)))
  · exact ite_grows h (flag_grows h)

theorem execMapTimeout_grows {n : ℕ} (h : Grows s₀ s) : GrowsNext s₀ (execMapTimeout n s) := by
  unfold execMapTimeout
  refine guardOk_grows ?_
  split
  · exact ite_grows (raise_grows (flag_grows (modJv_grows h))) h
  · exact h

theorem jvMapWrite_grows {n : ℕ} {v : Word} (h : Grows s₀ s) : Grows s₀ (jvMapWrite n v s) := by
  unfold jvMapWrite
  exact ite_grows (flag_grows h) (plainWrite_grows h)

theorem jvOrderWrite_grows {n a : ℕ} {v : Word} (h : Grows s₀ s) : Grows s₀ (jvOrderWrite n a v s) := by
  unfold jvOrderWrite
  exact ite_grows (flag_grows h) (plainWrite_grows h)

theorem jvChgWrite_grows {n : ℕ} {v : Word} (h : Grows s₀ s) : Grows s₀ (jvChgWrite n v s) := by
  unfold jvChgWrite
  exact ite_grows h (ite_grows (flag_grows h) (startChange_grows h))

theorem execJvChgGo_grows {r : Requester} {n : ℕ} {v : Word} (h : Grows s₀ s) : GrowsNext s₀ (execJvChgGo r n v s) := by
  unfold execJvChgGo
  exact guardOk_grows (writeBy_grows (fun _ h2 => jvChgWrite_grows h2) h)

theorem jvStart_grows {n : ℕ} (h : Grows s₀ s) : Grows s₀ (jvStart n s) := by
  unfold jvStart
  exact showSpare_grows (foldl_grows (fun _ _ h2 => lanePreset_grows h2) (setF_grows (showRoles_grows (modJv_grows
      (ite_grows (flag_grows h) h)))))

theorem lanesDown_grows {n : ℕ} (h : Grows s₀ s) : Grows s₀ (lanesDown n s) := by
  unfold lanesDown
  exact setF_grows (linkCheck_grows (foldl_grows (fun _ _ h2 => laneHunt_grows h2) h))

theorem jvCtrlWrite_grows {n : ℕ} {v : Word} (h : Grows s₀ s) : Grows s₀ (jvCtrlWrite n v s) := by
  unfold jvCtrlWrite
  extract_lets +onlyGivenNames rate changed en s1 s2
  have h1 : Grows s₀ s1 := plainWrite_grows h
  have h2 : Grows s₀ s2 := ite_grows (linkWrites_grows (modJv_grows h1)) h1
  exact ite_grows (flag_grows h) (ite_grows (jvStart_grows h2) (ite_grows (lanesDown_grows h2) h2))

theorem execJvEnable_grows {r : Requester} {n : ℕ} {v : Word} (h :
    Grows s₀ s) : GrowsNext s₀ (execJvEnable r n v s) := by
  unfold execJvEnable
  exact guardOk_grows (writeBy_grows (fun _ h2 => jvCtrlWrite_grows h2) h)

theorem execJvRateWrite_grows {r : Requester} {n : ℕ} {v : Word} (h :
    Grows s₀ s) : GrowsNext s₀ (execJvRateWrite r n v s) := by
  unfold execJvRateWrite
  exact guardOk_grows (writeBy_grows (fun _ h2 => jvCtrlWrite_grows h2) h)

theorem execRateSwitch_grows {n : ℕ} (h : Grows s₀ s) : GrowsNext s₀ (execRateSwitch n s) := by
  unfold execRateSwitch
  refine guardOk_grows ?_
  split
  · exact lanesDown_grows (foldl_grows (fun _ _ h2 => lanePreset_grows h2) (modJv_grows (advanceTo_grows h)))
  · exact h

theorem prbsCount_grows {n k : ℕ} {err : Bool} (h : Grows s₀ s) : Grows s₀ (prbsCount n k err s) := by
  unfold prbsCount
  exact ite_grows (wr_grows (setPair_grows h)) (setPair_grows h)

theorem prbsBit_grows {n k d t : ℕ} {b : Bool} (h : Grows s₀ s) : Grows s₀ (prbsBit n k d t b s) := by
  unfold prbsBit
  extract_lets +onlyGivenNames p set want hist
  split
  · split
    rename_i s1 _ s2 e
    have h2 : Grows s₀ s2 := Grows.of_snd e (examDetect_grows h)
    exact ite_grows (setF_grows (modLane_grows (prbsCount_grows h2))) (modLane_grows (prbsCount_grows h2))
  · exact ite_grows (modLane_grows h) (ite_grows (ite_grows (flag_grows (modLane_grows h)) (modLane_grows h))
      (modLane_grows h))

theorem execPrbsCheck_grows {n k : ℕ} {bits : List Bool} (h :
    Grows s₀ s) : GrowsNext s₀ (execPrbsCheck n k bits s) := by
  unfold execPrbsCheck
  refine guardOk_grows ?_
  split
  · split
    · exact foldl_grows (fun _ _ h2 => prbsBit_grows h2) h
    · exact h
  · exact h

theorem laneCtrlWrite_grows {n k : ℕ} {v : Word} (h : Grows s₀ s) : Grows s₀ (laneCtrlWrite n k v s) := by
  unfold laneCtrlWrite
  split
  · exact h
  · extract_lets +onlyGivenNames old s1 s2 s3 s4 s5
    have h1 : Grows s₀ s1 := plainWrite_grows h
    have h2 : Grows s₀ s2 := ite_grows h1 (setF_grows (modLane_grows h1))
    have h3 : Grows s₀ s3 := ite_grows (linkCheck_grows (lanePreset_grows h2)) h2
    have h4 : Grows s₀ s4 := ite_grows (lanePreset_grows (modLane_grows h3)) h3
    have h5 : Grows s₀ s5 := ite_grows (wr_grows (setPair_grows h4)) h4
    exact ite_grows (setF_grows (setF_grows (modLane_grows h5))) h5

theorem laneCommand_grows {r : Requester} {n k bit : ℕ} (h : Grows s₀ s) : GrowsNext s₀ (laneCommand r n k bit s) := by
  unfold laneCommand
  exact guardOk_grows (writeBy_grows (fun _ h2 => laneCtrlWrite_grows h2) h)

theorem execLaneReadapt_grows {r : Requester} {n k : ℕ} (h : Grows s₀ s) : GrowsNext s₀ (execLaneReadapt r n k s) := by
  unfold execLaneReadapt
  exact laneCommand_grows h

theorem execLaneReadmit_grows {r : Requester} {n k : ℕ} (h : Grows s₀ s) : GrowsNext s₀ (execLaneReadmit r n k s) := by
  unfold execLaneReadmit
  exact laneCommand_grows h

theorem execPrbsCntClr_grows {r : Requester} {n k : ℕ} (h : Grows s₀ s) : GrowsNext s₀ (execPrbsCntClr r n k s) := by
  unfold execPrbsCntClr
  exact laneCommand_grows h

theorem execMarginGo_grows {r : Requester} {n k : ℕ} {v : Word} (h :
    Grows s₀ s) : GrowsNext s₀ (execMarginGo r n k v s) := by
  unfold execMarginGo
  exact guardOk_grows (writeBy_grows (fun _ h2 => laneCtrlWrite_grows h2) h)

theorem execMarginDone_grows {n k : ℕ} {disagreed : Bool} (h :
    Grows s₀ s) : GrowsNext s₀ (execMarginDone n k disagreed s) := by
  unfold execMarginDone
  refine guardOk_grows ?_
  split
  · exact h
  · exact h
  · extract_lets +onlyGivenNames s1
    have h1 : Grows s₀ s1 := modLane_grows (advanceTo_grows h)
    split
    rename_i s2 _ s3 e
    have h2 : Grows s₀ s3 := Grows.of_snd e (examDetect_grows h1)
    exact setF_grows (flag_grows h2)

/-! ### The model's file `Strip` -/

theorem modSs_grows {n : ℕ} {f : SsSt → SsSt} (h : Grows s₀ s) : Grows s₀ (modSs n f s) := by
  unfold modSs
  exact modPort_grows h

theorem stripOpen_grows {n t : ℕ} (h : Grows s₀ s) : Grows s₀ (stripOpen n t s) := by
  unfold stripOpen
  extract_lets +onlyGivenNames s1 rfn
  have h1 : Grows s₀ s1 := portTake_grows h
  split
  rename_i s2 _ s3 e
  have h2 : Grows s₀ s3 := Grows.of_snd e (takePfn_grows h1)
  split
  extract_lets +onlyGivenNames _ i withheld x s4 s5 s6 s7
  have h4 : Grows s₀ s4 := modSs_grows h2
  have h5 : Grows s₀ s5 := ite_grows (frameFsw_grows h4) h4
  have h6 : Grows s₀ s6 := raiseAt_grows (ovlMarked_grows h5)
  have h7 : Grows s₀ s7 := ite_grows (countWithheld_grows h6) (modPort_grows h6)
  exact showPort_grows h7

theorem ssFire_grows {n t : ℕ} (h : Grows s₀ s) : Grows s₀ (ssFire n t s) := by
  unfold ssFire
  exact modSs_grows (ite_grows (raise_grows (setF_grows (ite_grows (modSs_grows (addPair_grows h)) (Grows.update
      (modSs_grows (addPair_grows h)))))) (ite_grows (modSs_grows (addPair_grows h)) (Grows.update (modSs_grows
      (addPair_grows h)))))

theorem ssMiss_grows {n : ℕ} (h : Grows s₀ s) : Grows s₀ (ssMiss n s) := by
  unfold ssMiss
  exact ite_grows (raise_grows (flag_grows (modSs_grows (addPair_grows h)))) (modSs_grows (addPair_grows h))

theorem ssTrigger_grows {n t : ℕ} (h : Grows s₀ s) : Grows s₀ (ssTrigger n t s) := by
  unfold ssTrigger
  extract_lets +onlyGivenNames z s1 late
  have h1 : Grows s₀ s1 := ite_grows (stripOpen_grows h) h
  split
  · split
    rename_i s2 _ s3 e
    have h2 : Grows s₀ s3 := Grows.of_snd e (examDetect_grows h1)
    exact ite_grows (ssMiss_grows h2) (ssFire_grows h2)
  · exact h

theorem ssHall_grows {c t : ℕ} {fwd : Bool} (h : Grows s₀ s) : Grows s₀ (ssHall c t fwd s) := by
  unfold ssHall
  exact foldl_grows (fun _ _ h2 => ite_grows (ite_grows (ssTrigger_grows (modSs_grows h2)) (modSs_grows h2)) h2) h

theorem execLineTrigger_grows {at_ n : ℕ} {rising : Bool} (h :
    Grows s₀ s) : GrowsNext s₀ (execLineTrigger at_ n rising s) := by
  unfold execLineTrigger
  exact guardOk_grows (ite_grows (ssTrigger_grows (advanceTo_grows h)) (advanceTo_grows h))

theorem ssLineIn_grows {n r y dtype : ℕ} {good : Bool} {bs : List Byte} {unpack : ℕ → ℕ → List Byte → List ℕ} (h :
    Grows s₀ s) : Grows s₀ (ssLineIn n r y dtype good bs unpack s) := by
  unfold ssLineIn
  extract_lets +onlyGivenNames w
  split
  · exact bump_grows h
  · split
    rename_i s1 _ s2 e
    have h2 : Grows s₀ s2 := Grows.of_snd e (examDetect_grows h)
    split
    · exact bump_grows h2
    · extract_lets +onlyGivenNames hit
      split
      rename_i s3 _ s4 e2
      have h3 : Grows s₀ s4 := Grows.of_snd e2 (examDetect_grows h2)
      clear_value w hit
      split
      · exact bump_grows h3
      · exact ite_grows (bump_grows h3) (ite_grows (modSs_grows h3) (modSs_grows h3))

theorem execSsRowTimeout_grows {n : ℕ} (h : Grows s₀ s) : GrowsNext s₀ (execSsRowTimeout n s) := by
  unfold execSsRowTimeout
  refine guardOk_grows ?_
  extract_lets +onlyGivenNames k
  split
  · exact h
  · exact h
  · exact modSs_grows (advanceTo_grows h)

theorem ssSpoil_grows {n r : ℕ} (h : Grows s₀ s) : Grows s₀ (ssSpoil n r s) := by
  unfold ssSpoil
  exact modSs_grows h

theorem ssParity_grows {n : ℕ} {bad : List ℕ} {rows : List SsRow} (h :
    Grows s₀ s) : Grows s₀ (ssParity n bad rows s).2 := by
  unfold ssParity
  refine foldl_grows_snd (fun s1 x h2 => ?_) h
  extract_lets +onlyGivenNames r
  split
  rename_i s2 _ s3 e
  have h3 : Grows s₀ s3 := Grows.of_snd e (examDetect_grows h2)
  exact ite_grows_snd (ssSpoil_grows h3) h3

theorem stripPush_grows {n : ℕ} {codes : Codes} {filled : Bool} (h :
    Grows s₀ s) : Grows s₀ (stripPush n codes filled s) := by
  unfold stripPush
  split
  · exact h
  · exact ite_grows (modSs_grows h) (modPort_grows (modSs_grows h))

theorem stripRow_grows {n : ℕ} {codes : Codes} {filled : Bool} (h :
    Grows s₀ s) : Grows s₀ (stripRow n codes filled s) := by
  unfold stripRow
  split
  · exact h
  · split
    rename_i s1 _ s2 e
    have h2 : Grows s₀ s2 := Grows.of_snd e (fifoTake_grows h)
    exact ite_grows (stripPush_grows h2) (stripPush_grows h2)

theorem modStrip_grows {n : ℕ} {f : StripSt → StripSt} (h : Grows s₀ s) : Grows s₀ (modStrip n f s) := by
  unfold modStrip
  exact modSs_grows h

theorem stripClose_grows {n : ℕ} {trunc : Bool} (h : Grows s₀ s) : Grows s₀ (stripClose n trunc s) := by
  unfold stripClose
  split
  · exact h
  · extract_lets +onlyGivenNames k s1 eof
    have h1 : Grows s₀ s1 := ite_grows (foldl_grows (fun _ _ h2 => foldl_grows (fun _ _ h3 => stripRow_grows h3) h2)
        h) h
    split
    · exact h1
    · exact showPort_grows (modSs_grows (ite_grows (closeEvents_grows (raiseAt_grows h1)) (modPort_grows
        (closeEvents_grows (raiseAt_grows h1)))))

theorem ssOut_grows {n : ℕ} {rows : List SsRow} {stop trunc : Bool} (h :
    Grows s₀ s) : Grows s₀ (ssOut n rows stop trunc s) := by
  unfold ssOut
  split
  · exact h
  · extract_lets +onlyGivenNames w k j marks slots s1 fsw fsw1 s2 fill m s3 s4
    have h1 : Grows s₀ s1 := ite_grows h (dmaPut_grows h)
    have h2 : Grows s₀ s2 := modStrip_grows h1
    have h3 : Grows s₀ s3 := by
      unfold s3
      split
      · exact modStrip_grows h2
      · split
        split
        exact stripRow_grows (stripRow_grows h2)
    have h4 : Grows s₀ s4 := modSs_grows h3
    exact ite_grows (stripClose_grows h4) h4

theorem execOutputLineComplete_grows {n : ℕ} {parity : List ℕ} (h :
    Grows s₀ s) : GrowsNext s₀ (execOutputLineComplete n parity s) := by
  unfold execOutputLineComplete
  refine guardOk_grows ?_
  split
  · exact h
  · exact h
  · split
    rename_i s1 _ s2 e
    have h2 : Grows s₀ s2 := Grows.of_snd e (ite_grows_snd h (ssParity_grows h))
    exact ssOut_grows h2

theorem ssLeave_grows {n : ℕ} {short : Bool} (h : Grows s₀ s) : Grows s₀ (ssLeave n short s) := by
  unfold ssLeave
  refine foldl_grows (fun s1 x h2 => ?_) h
  split
  · exact h2
  · exact ssOut_grows h2

theorem ssDrain_grows {n : ℕ} (h : Grows s₀ s) : Grows s₀ (ssDrain n s) := by
  unfold ssDrain
  exact ssLeave_grows (modSs_grows (ssLeave_grows h))

theorem ssStart_grows {n : ℕ} (h : Grows s₀ s) : Grows s₀ (ssStart n s) := by
  unfold ssStart
  exact ite_grows (raise_grows (flag_grows (setPair_grows (setPair_grows (modSs_grows (ssDrain_grows h))))))
      (setPair_grows (setPair_grows (modSs_grows (ssDrain_grows h))))

theorem ssFlush_grows {n : ℕ} (h : Grows s₀ s) : Grows s₀ (ssFlush n s) := by
  unfold ssFlush
  exact modSs_grows (foldl_grows (fun _ _ h2 => ssOut_grows h2) h)

theorem ssTakePin_grows {n : ℕ} (h : Grows s₀ s) : Grows s₀ (ssTakePin n s) := by
  unfold ssTakePin
  exact Grows.update h

theorem ssIdleWrite_grows {n a : ℕ} {v : Word} (h : Grows s₀ s) : Grows s₀ (ssIdleWrite n a v s) := by
  unfold ssIdleWrite
  exact ite_grows (ite_grows (ssTakePin_grows (plainWrite_grows h)) (plainWrite_grows h)) (flag_grows h)

/-! ### The model's file `Pfi` -/

theorem modPfi_grows {c : ℕ} {f : PfiSt → PfiSt} (h : Grows s₀ s) : Grows s₀ (modPfi c f s) := by
  unfold modPfi
  exact Grows.update h

theorem pfiRaise_grows {c i arg : ℕ} (h : Grows s₀ s) : Grows s₀ (pfiRaise c i arg s) := by
  unfold pfiRaise
  exact raise_grows h

theorem pfiEdge_grows {c t i arg : ℕ} (h : Grows s₀ s) : Grows s₀ (pfiEdge c t i arg s) := by
  unfold pfiEdge
  exact raiseAt_grows h

theorem speedTo_grows {c t : ℕ} (h : Grows s₀ s) : Grows s₀ (speedTo c t s) := by
  unfold speedTo
  exact ite_grows h (ite_grows (wr_grows (modPfi_grows h)) (wr_grows (modPfi_grows (wr_grows (modPfi_grows h)))))

theorem dirCount_grows {c t : ℕ} {bwd : Bool} (h : Grows s₀ s) : Grows s₀ (dirCount c t bwd s) := by
  unfold dirCount
  exact ite_grows (pfiEdge_grows (setF_grows (modPfi_grows h))) (modPfi_grows h)

theorem edgeTimer_grows {c t : ℕ} {bwd : Bool} (h : Grows s₀ s) : Grows s₀ (edgeTimer c t bwd s) := by
  unfold edgeTimer
  extract_lets +onlyGivenNames s1
  have h1 : Grows s₀ s1 := by
    unfold s1
    split
    · exact ite_grows (wr_grows (flag_grows h)) h
    · exact h
  exact modPfi_grows h1

theorem indexAfter_grows {c t : ℕ} {d : ℤ} (h : Grows s₀ s) : Grows s₀ (indexAfter c t d s) := by
  unfold indexAfter
  exact ite_grows (ite_grows (wr_grows (wr_grows (Grows.update h))) (wr_grows (Grows.update h))) h

theorem hallCount_grows {c t new : ℕ} {bwd : Bool} (h : Grows s₀ s) : Grows s₀ (hallCount c t new bwd s) := by
  unfold hallCount
  exact edgeTimer_grows (dirCount_grows (pfiEdge_grows (setF_grows (modPfi_grows (indexAfter_grows (wr_grows h))))))

theorem pfiCode_grows {c code : ℕ} (h : Grows s₀ s) : Grows s₀ (pfiCode c code s) := by
  unfold pfiCode
  exact modPfi_grows h

theorem pfiDrive_grows {c : ℕ} (h : Grows s₀ s) : Grows s₀ (pfiDrive c s) := by
  unfold pfiDrive
  exact ite_grows (pfiCode_grows h) (pfiCode_grows h)

theorem pfiDriveIf_grows {c : ℕ} {was : Bool} (h : Grows s₀ s) : Grows s₀ (pfiDriveIf c was s) := by
  unfold pfiDriveIf
  exact ite_grows h (pfiDrive_grows h)

theorem pwmTake_grows {c : ℕ} (h : Grows s₀ s) : Grows s₀ (pwmTake c s) := by
  unfold pwmTake
  exact modPfi_grows h

theorem pwmWrite_grows {c : ℕ} {v : Word} (h : Grows s₀ s) : Grows s₀ (pwmWrite c v s) := by
  unfold pwmWrite
  exact ite_grows (flag_grows h) (pwmTake_grows (plainWrite_grows h))

theorem dutyWrite_grows {c : ℕ} {v : Word} (h : Grows s₀ s) : Grows s₀ (dutyWrite c v s) := by
  unfold dutyWrite
  exact pwmTake_grows (plainWrite_grows h)

theorem commWrite_grows {c a : ℕ} {v : Word} (h : Grows s₀ s) : Grows s₀ (commWrite c a v s) := by
  unfold commWrite
  exact ite_grows (flag_grows (plainWrite_grows h)) (plainWrite_grows h)

theorem pfiStatusWrite_grows {c : ℕ} {v : Word} (h : Grows s₀ s) : Grows s₀ (pfiStatusWrite c v s) := by
  unfold pfiStatusWrite
  exact ite_grows (pfiDriveIf_grows (plainWrite_grows h)) (flag_grows (plainWrite_grows h))

theorem pfiCtrlWrite_grows {c : ℕ} {v : Word} (h : Grows s₀ s) : Grows s₀ (pfiCtrlWrite c v s) := by
  unfold pfiCtrlWrite
  exact pfiDriveIf_grows (ite_grows (setF_grows (modPfi_grows (ite_grows (plainWrite_grows h) (flag_grows
      (plainWrite_grows h))))) (ite_grows (plainWrite_grows h) (flag_grows (plainWrite_grows h))))

theorem spdWinWrite_grows {c : ℕ} {v : Word} (h : Grows s₀ s) : Grows s₀ (spdWinWrite c v s) := by
  unfold spdWinWrite
  exact ite_grows (flag_grows h) (plainWrite_grows h)

theorem phCfgWrite_grows {c : ℕ} {v : Word} (h : Grows s₀ s) : Grows s₀ (phCfgWrite c v s) := by
  unfold phCfgWrite
  exact ite_grows (modPfi_grows (plainWrite_grows h)) (plainWrite_grows h)

theorem pfiAllOff_grows (h : Grows s₀ s) : Grows s₀ (pfiAllOff s) := by
  unfold pfiAllOff
  exact foldl_grows (fun _ _ h2 => pfiDrive_grows (setF_grows h2)) h

theorem execHallEdge_grows {at_ c : ℕ} {state : BitVec 3} {held : ℕ} (h :
    Grows s₀ s) : GrowsNext s₀ (execHallEdge at_ c state held s) := by
  unfold execHallEdge
  refine guardOk_grows ?_
  extract_lets +onlyGivenNames t s1 new s2 s3 old step
  have h1 : Grows s₀ s1 := advanceTo_grows h
  have h2 : Grows s₀ s2 := advanceTo_grows h1
  have h3 : Grows s₀ s3 := speedTo_grows h2
  split
  · exact h1
  · split
    rename_i s4 _ s5 e
    have h4 : Grows s₀ s5 := Grows.of_snd e (examDetect_grows h3)
    split
    rename_i s6 _ s7 e2
    have h5 : Grows s₀ s7 := Grows.of_snd e2 (ite_grows_snd h4 (examDetect_grows h4))
    extract_lets +onlyGivenNames s8 s9
    have h8 : Grows s₀ s8 := modPfi_grows h5
    have h9 : Grows s₀ s9 := by
      unfold s9
      split
      · exact pfiEdge_grows (bump_grows h8)
      · split
        · exact pfiEdge_grows (bump_grows (setF_grows h8))
        · clear_value t new step
          split
          · exact ssHall_grows (hallCount_grows h8)
          · exact ssHall_grows (hallCount_grows h8)
          · exact setF_grows h8
    exact pfiDrive_grows h9

theorem phaseEdge_grows {c t : ℕ} (h : Grows s₀ s) : Grows s₀ (phaseEdge c t s) := by
  unfold phaseEdge
  exact bumpBy_grows (modPfi_grows h)

theorem execIndexEdge_grows {at_ c : ℕ} {rising : Bool} {held : ℕ} (h :
    Grows s₀ s) : GrowsNext s₀ (execIndexEdge at_ c rising held s) := by
  unfold execIndexEdge
  refine guardOk_grows ?_
  extract_lets +onlyGivenNames t s1 s2 pos s3 s4 s5
  have h1 : Grows s₀ s1 := advanceTo_grows h
  have h2 : Grows s₀ s2 := advanceTo_grows h1
  have h3 : Grows s₀ s3 := pfiEdge_grows (wr_grows h2)
  have h4 : Grows s₀ s4 := ite_grows (wr_grows h3) h3
  have h5 : Grows s₀ s5 := modPfi_grows h4
  exact ite_grows h1 (ite_grows (phaseEdge_grows h5) h5)

theorem posWrite_grows {c : ℕ} {v : Word} (h : Grows s₀ s) : Grows s₀ (posWrite c v s) := by
  unfold posWrite
  exact wr_grows (advanceTo_grows h)

theorem execPosWrite_grows {r : Requester} {c : ℕ} {v : Word} (h :
    Grows s₀ s) : GrowsNext s₀ (execPosWrite r c v s) := by
  unfold execPosWrite
  exact guardOk_grows (writeBy_grows (fun _ h2 => posWrite_grows h2) h)

theorem execSpeedWindow_grows {c : ℕ} (h : Grows s₀ s) : GrowsNext s₀ (execSpeedWindow c s) := by
  unfold execSpeedWindow
  exact guardOk_grows (ite_grows (speedTo_grows (advanceTo_grows h)) h)

theorem execFaultInput_grows {c : ℕ} {high : Bool} (h : Grows s₀ s) : GrowsNext s₀ (execFaultInput c high s) := by
  unfold execFaultInput
  refine guardOk_grows ?_
  extract_lets +onlyGivenNames s1
  have h1 : Grows s₀ s1 := modPfi_grows h
  split
  · exact h1
  · split
    rename_i s2 _ s3 e
    have h2 : Grows s₀ s3 := Grows.of_snd e (examDetect_grows h1)
    exact ite_grows (pfiRaise_grows (pfiDrive_grows (flag_grows h2))) h2

theorem execPhaseWindowClose_grows {c : ℕ} (h : Grows s₀ s) : GrowsNext s₀ (execPhaseWindowClose c s) := by
  unfold execPhaseWindowClose
  refine guardOk_grows ?_
  split
  · exact h
  · exact h
  · extract_lets +onlyGivenNames k s1 s2
    have h1 : Grows s₀ s1 := advanceTo_grows h
    have h2 : Grows s₀ s2 := modPfi_grows h1
    split
    rename_i s3 _ s4 e
    have h3 : Grows s₀ s4 := Grows.of_snd e (examDetect_grows h2)
    exact pfiRaise_grows (ite_grows (pfiRaise_grows (bump_grows (wr_grows (wr_grows (setF_grows h3))))) (wr_grows
        (wr_grows (setF_grows h3))))

/-! ### The model's file `Port` -/

theorem portStart_grows {n : ℕ} (h : Grows s₀ s) : Grows s₀ (portStart n s) := by
  unfold portStart
  exact modPort_grows (setF_grows h)

theorem spCtrlWrite_grows {n : ℕ} {v : Word} (h : Grows s₀ s) : Grows s₀ (spCtrlWrite n v s) := by
  unfold spCtrlWrite
  split
  · exact flag_grows h
  · extract_lets +onlyGivenNames en run xclk s1 s2 s3 s4 s5
    have h1 : Grows s₀ s1 := plainWrite_grows h
    have h2 : Grows s₀ s2 := ite_grows (portStart_grows h1) h1
    have h3 : Grows s₀ s3 := ite_grows (ssFlush_grows (portClose_grows h2)) h2
    have h4 : Grows s₀ s4 := ite_grows (ssStart_grows h3) h3
    have h5 : Grows s₀ s5 := ite_grows (modPort_grows h4) (ite_grows (modPort_grows h4) h4)
    exact showPort_grows h5

theorem execPortEnable_grows {r : Requester} {n : ℕ} {v : Word} (h :
    Grows s₀ s) : GrowsNext s₀ (execPortEnable r n v s) := by
  unfold execPortEnable
  exact guardOk_grows (writeBy_grows (fun _ h2 => spCtrlWrite_grows h2) h)

theorem execPortDisable_grows {r : Requester} {n : ℕ} {v : Word} (h :
    Grows s₀ s) : GrowsNext s₀ (execPortDisable r n v s) := by
  unfold execPortDisable
  exact guardOk_grows (writeBy_grows (fun _ h2 => spCtrlWrite_grows h2) h)

theorem execPortRun_grows {r : Requester} {n : ℕ} {v : Word} (h : Grows s₀ s) : GrowsNext s₀ (execPortRun r n v s) := by
  unfold execPortRun
  exact guardOk_grows (writeBy_grows (fun _ h2 => spCtrlWrite_grows h2) h)

theorem execPortStop_grows {r : Requester} {n : ℕ} {v : Word} (h :
    Grows s₀ s) : GrowsNext s₀ (execPortStop r n v s) := by
  unfold execPortStop
  exact guardOk_grows (writeBy_grows (fun _ h2 => spCtrlWrite_grows h2) h)

theorem execXclkEnable_grows {r : Requester} {n : ℕ} {v : Word} (h :
    Grows s₀ s) : GrowsNext s₀ (execXclkEnable r n v s) := by
  unfold execXclkEnable
  exact guardOk_grows (writeBy_grows (fun _ h2 => spCtrlWrite_grows h2) h)

theorem frameSizeWrite_grows {n : ℕ} {v : Word} (h : Grows s₀ s) : Grows s₀ (frameSizeWrite n v s) := by
  unfold frameSizeWrite
  exact ite_grows (flag_grows h) (plainWrite_grows h)

theorem execFrameSizeWrite_grows {r : Requester} {n : ℕ} {v : Word} (h :
    Grows s₀ s) : GrowsNext s₀ (execFrameSizeWrite r n v s) := by
  unfold execFrameSizeWrite
  exact guardOk_grows (writeBy_grows (fun _ h2 => frameSizeWrite_grows h2) h)

theorem xclkCfgWrite_grows {n : ℕ} {v : Word} (h : Grows s₀ s) : Grows s₀ (xclkCfgWrite n v s) := by
  unfold xclkCfgWrite
  exact ite_grows (plainWrite_grows h) (flag_grows h)

theorem execXclkCfgWrite_grows {r : Requester} {n : ℕ} {v : Word} (h :
    Grows s₀ s) : GrowsNext s₀ (execXclkCfgWrite r n v s) := by
  unfold execXclkCfgWrite
  exact guardOk_grows (writeBy_grows (fun _ h2 => xclkCfgWrite_grows h2) h)

theorem execSyncEdge_grows {at_ n : ℕ} {rising : Bool} (h :
    Grows s₀ s) : GrowsNext s₀ (execSyncEdge at_ n rising s) := by
  unfold execSyncEdge
  exact guardOk_grows (ite_grows (raise_grows (advanceTo_grows h)) (advanceTo_grows h))

theorem sofIn_grows {n counter : ℕ} {echo : Option ℕ} {gen : ℕ} (h :
    Grows s₀ s) : Grows s₀ (sofIn n counter echo gen s) := by
  unfold sofIn
  extract_lets +onlyGivenNames s1 s2
  have h1 : Grows s₀ s1 := portClose_grows (checkGen_grows h)
  have h2 : Grows s₀ s2 := portOpen_grows (endDiscard_grows h1)
  exact ite_grows (ite_grows (modJv_grows h2) h2) (ite_grows (discardUnits_grows h1) h1)

theorem eofIn_grows {n : ℕ} (h : Grows s₀ s) : Grows s₀ (eofIn n s) := by
  unfold eofIn
  exact ite_grows (strayUnits_grows h) (portClose_grows h)

theorem controlColumn_grows {n : ℕ} {col : Column} (h : Grows s₀ s) : Grows s₀ (controlColumn n col s) := by
  unfold controlColumn
  split
  · rename_i s1 _ s2 e
    have h2 : Grows s₀ s2 := Grows.of_snd e (columnIn_grows h)
    exact ite_grows h2 (sofIn_grows h2)
  · rename_i s1 _ s2 e
    have h2 : Grows s₀ s2 := Grows.of_snd e (columnIn_grows h)
    exact ite_grows h2 (eofIn_grows h2)
  · rename_i s1 _ s2 _ _ e
    have h2 : Grows s₀ s2 := Grows.of_snd e (columnIn_grows h)
    exact h2

theorem execSofReceived_grows {at_ n : ℕ} {col : Column} (h :
    Grows s₀ s) : GrowsNext s₀ (execSofReceived at_ n col s) := by
  unfold execSofReceived
  exact guardOk_grows (ite_grows (controlColumn_grows (advanceTo_grows h)) (advanceTo_grows h))

theorem execEofReceived_grows {at_ n : ℕ} {col : Column} (h :
    Grows s₀ s) : GrowsNext s₀ (execEofReceived at_ n col s) := by
  unfold execEofReceived
  exact guardOk_grows (ite_grows (controlColumn_grows (advanceTo_grows h)) (advanceTo_grows h))

theorem execUnknownControlBlock_grows {n : ℕ} {col : Column} (h :
    Grows s₀ s) : GrowsNext s₀ (execUnknownControlBlock n col s) := by
  unfold execUnknownControlBlock
  exact guardOk_grows (ite_grows (controlColumn_grows h) h)

theorem javelBody_grows {n h : ℕ} {l : JavelLine} {noEol : Bool} (hs :
    Grows s₀ s) : Grows s₀ (javelBody n h l noEol s) := by
  unfold javelBody
  extract_lets +onlyGivenNames dtype len
  split
  rename_i s1 _ s2 e
  have h2 : Grows s₀ s2 := Grows.of_snd e (examDetect_grows hs)
  extract_lets +onlyGivenNames s3 bs bs1
  have h3 : Grows s₀ s3 := ite_grows (bump_grows h2) h2
  exact ite_grows (ite_grows (bump_grows h3) (ite_grows (strayUnits_grows h3) (embLine_grows h3))) (ite_grows
      (bump_grows h3) (ite_grows (ssLineIn_grows h3) (pixelLine_grows h3)))

theorem lineColumn_grows {n : ℕ} {bs : List Block} (h : Grows s₀ s) : Grows s₀ (lineColumn n bs s).2 := by
  unfold lineColumn
  split
  rename_i s1 _ s2 e
  have h2 : Grows s₀ s2 := Grows.of_snd e (examDetect_grows h)
  split
  · exact frameFsw_grows (bump_grows h2)
  · split
    rename_i s3 _ s4 e2
    have h3 : Grows s₀ s4 := Grows.of_snd e2 (examDetect_grows h2)
    exact ite_grows_snd (bump_grows h3) h3

theorem javelLine_grows {n : ℕ} {l : JavelLine} (h : Grows s₀ s) : Grows s₀ (javelLine n l s) := by
  unfold javelLine
  split
  · exact strayUnits_grows h
  · extract_lets +onlyGivenNames bs
    split
    rename_i s1 _ s2 e
    have h2 : Grows s₀ s2 := Grows.of_snd e (lineColumn_grows h)
    split
    rename_i s3 _ s4 e2
    have h3 : Grows s₀ s4 := Grows.of_snd e2 (lineColumn_grows h2)
    split
    · exact h3
    · split
      rename_i s5 _ s6 e3
      have h4 : Grows s₀ s6 := Grows.of_snd e3 (examDetect_grows h3)
      split
      · exact javelBody_grows h4
      · exact frameFsw_grows (bump_grows h4)

theorem execLineReceived_grows {at_ n : ℕ} {l : JavelLine} (h :
    Grows s₀ s) : GrowsNext s₀ (execLineReceived at_ n l s) := by
  unfold execLineReceived
  exact guardOk_grows (ite_grows (spoiltDone_grows (javelLine_grows (advanceTo_grows h))) (advanceTo_grows h))

theorem csiHeader_grows {n : ℕ} {h : CsiHeader} (hs : Grows s₀ s) : Grows s₀ (csiHeader n h s).2 := by
  unfold csiHeader
  split
  rename_i s1 _ s2 e
  have h2 : Grows s₀ s2 := Grows.of_snd e (examDetect_grows hs)
  split
  · exact bump_grows h2
  · split
    rename_i s3 _ s4 e2
    have h3 : Grows s₀ s4 := Grows.of_snd e2 (examDetect_grows h2)
    exact ite_grows (bump_grows h3) h3

theorem csiVcx_grows {n : ℕ} (h : Grows s₀ s) : Grows s₀ (csiVcx n s) := by
  unfold csiVcx
  exact ite_grows (strayUnits_grows h) (bump_grows h)

theorem csiDropped_grows {n : ℕ} (h : Grows s₀ s) : Grows s₀ (csiDropped n s) := by
  unfold csiDropped
  exact ite_grows (strayUnits_grows h) h

theorem csiShort_grows {n : ℕ} {h : CsiHeader} {f : State → State} (h1 : ∀ y1, Grows s₀ y1 → Grows s₀ (f y1)) (h2 :
    Grows s₀ s) : Grows s₀ (csiShort n h f s) := by
  unfold csiShort
  split
  · rename_i s1 s2 e
    have h3 : Grows s₀ s2 := Grows.of_snd e (csiHeader_grows h2)
    exact h1 _ h3
  · rename_i s1 s2 e
    have h3 : Grows s₀ s2 := Grows.of_snd e (csiHeader_grows h2)
    exact csiDropped_grows h3

theorem csiStart_fresh_grows {n vc counter : ℕ} (h : Grows s₀ s) : Grows s₀ (csiStart.fresh n vc counter s) := by
  unfold csiStart.fresh
  split
  · extract_lets +onlyGivenNames t s1
    have h_t : Grows s₀ t := portTake_grows h
    have h1 : Grows s₀ s1 := portOpen_grows (endDiscard_grows h)
    split
    · exact discardUnits_grows h
    · split
      · exact csiVcx_grows h
      · split
        · exact discardUnits_grows h1
        · exact modFrame_grows h1
  · exact discardUnits_grows h

theorem csiStart_grows {n vc counter : ℕ} (h : Grows s₀ s) : Grows s₀ (csiStart n vc counter s) := by
  unfold csiStart
  split
  · exact ite_grows (bump_grows h) (ite_grows (csiStart_fresh_grows (portClose_grows h)) (modFrame_grows h))
  · exact csiStart_fresh_grows h

theorem execCsiFrameStart_grows {at_ n vc : ℕ} {num : BitVec 16} {h : CsiHeader} (hs :
    Grows s₀ s) : GrowsNext s₀ (execCsiFrameStart at_ n vc num h s) := by
  unfold execCsiFrameStart
  exact guardOk_grows (ite_grows (csiShort_grows (fun _ h2 => ite_grows h2 (csiStart_grows h2)) (advanceTo_grows
      hs)) (advanceTo_grows hs))

theorem csiEnd_grows {n vc : ℕ} (h : Grows s₀ s) : Grows s₀ (csiEnd n vc s) := by
  unfold csiEnd
  split
  · exact ite_grows (csiVcx_grows h) (strayUnits_grows h)
  · exact ite_grows (ite_grows (portClose_grows (modFrame_grows h)) (modFrame_grows h)) (bump_grows h)

theorem execCsiFrameEnd_grows {at_ n vc : ℕ} {h : CsiHeader} (hs :
    Grows s₀ s) : GrowsNext s₀ (execCsiFrameEnd at_ n vc h s) := by
  unfold execCsiFrameEnd
  exact guardOk_grows (ite_grows (csiShort_grows (fun _ h2 => ite_grows h2 (csiEnd_grows h2)) (advanceTo_grows hs))
      (advanceTo_grows hs))

theorem csiLineNo_grows {n vc : ℕ} (h : Grows s₀ s) : Grows s₀ (csiLineNo n vc s).2 := by
  unfold csiLineNo
  extract_lets +onlyGivenNames cnt no
  dsimp only
  exact modPort_grows (modFrame_grows h)

theorem csiLong_grows {n : ℕ} {k : CsiLong} (h : Grows s₀ s) : Grows s₀ (csiLong n k s) := by
  unfold csiLong
  split
  rename_i s1 _ s2 e
  have h2 : Grows s₀ s2 := Grows.of_snd e (csiHeader_grows h)
  extract_lets +onlyGivenNames strip
  split
  · exact csiDropped_grows (ite_grows (frameFsw_grows h2) h2)
  · split
    rename_i s3 _ s4 e2
    have h3 : Grows s₀ s4 := Grows.of_snd e2 (examDetect_grows h2)
    extract_lets +onlyGivenNames s5
    have h5 : Grows s₀ s5 := ite_grows (bump_grows h3) h3
    split
    · exact csiVcx_grows h5
    · split
      · exact strayUnits_grows h5
      · split
        · exact bump_grows h5
        · split
          · exact bump_grows h5
          · split
            · exact ite_grows (strayUnits_grows h5) (embLine_grows h5)
            · split
              rename_i s6 _ s7 e3
              have h4 : Grows s₀ s7 := Grows.of_snd e3 (csiLineNo_grows h5)
              exact ite_grows (ssLineIn_grows h4) (pixelLine_grows h4)

theorem execCsiLongPacket_grows {at_ n : ℕ} {k : CsiLong} (h :
    Grows s₀ s) : GrowsNext s₀ (execCsiLongPacket at_ n k s) := by
  unfold execCsiLongPacket
  exact guardOk_grows (ite_grows (csiLong_grows (advanceTo_grows h)) (advanceTo_grows h))

theorem csiLine_grows {n vc num : ℕ} (h : Grows s₀ s) : Grows s₀ (csiLine n vc num s) := by
  unfold csiLine
  exact ite_grows (csiVcx_grows h) (ite_grows (strayUnits_grows h) (modPort_grows h))

theorem execCsiLineStart_grows {n vc : ℕ} {num : BitVec 16} {h : CsiHeader} (hs :
    Grows s₀ s) : GrowsNext s₀ (execCsiLineStart n vc num h s) := by
  unfold execCsiLineStart
  exact guardOk_grows (ite_grows (csiShort_grows (fun _ h2 => csiLine_grows h2) hs) hs)

theorem execRowTimeout_grows {n : ℕ} (h : Grows s₀ s) : GrowsNext s₀ (execRowTimeout n s) := by
  unfold execRowTimeout
  refine guardOk_grows ?_
  split
  · exact h
  · exact h
  · exact portClose_grows (examDetect_grows (advanceTo_grows h))

theorem execGroupVerdict_grows {g rfn : ℕ} (h : Grows s₀ s) : GrowsNext s₀ (execGroupVerdict g rfn s) := by
  unfold execGroupVerdict
  refine guardOk_grows ?_
  split
  · exact h
  · exact verdict_grows (advanceTo_grows h)

/-! ### The model's file `Sco` -/

theorem modSco_grows {f : ScoSt → ScoSt} (h : Grows s₀ s) : Grows s₀ (modSco f s) := by
  unfold modSco
  exact Grows.update h

theorem scoDetach_grows (h : Grows s₀ s) : Grows s₀ (scoDetach s) := by
  unfold scoDetach
  extract_lets +onlyGivenNames s1
  have h1 : Grows s₀ s1 := by
    unfold s1
    split
    · exact ringDetach_grows h
    · exact h
  exact setF_grows (modSco_grows h1)

theorem scoStop_grows (h : Grows s₀ s) : Grows s₀ (scoStop s) := by
  unfold scoStop
  exact setF_grows (modSco_grows (ite_grows h (scoDetach_grows h)))

theorem scoEndFrame_grows (h : Grows s₀ s) : Grows s₀ (scoEndFrame s) := by
  unfold scoEndFrame
  exact ite_grows (modSco_grows h) (scoStop_grows h)

theorem scoStart_grows (h : Grows s₀ s) : Grows s₀ (scoStart s) := by
  unfold scoStart
  extract_lets +onlyGivenNames n s1 r s2
  have h1 : Grows s₀ s1 := scoDetach_grows h
  have h2 : Grows s₀ s2 := ite_grows (modSco_grows (ringAttach_grows h1)) h1
  exact ite_grows (raise_grows (flag_grows h2)) (ite_grows (modSco_grows h2) (setF_grows (modSco_grows h2)))

theorem scoCtrlWrite_grows {v : Word} (h : Grows s₀ s) : Grows s₀ (scoCtrlWrite v s) := by
  unfold scoCtrlWrite
  exact ite_grows (ite_grows (flag_grows h) (ite_grows h (scoEndFrame_grows (setF_grows h)))) (ite_grows
      (scoStart_grows (plainWrite_grows h)) (plainWrite_grows h))

theorem scoTimWrite_grows {a : ℕ} {v : Word} (h : Grows s₀ s) : Grows s₀ (scoTimWrite a v s) := by
  unfold scoTimWrite
  exact ite_grows (flag_grows h) (plainWrite_grows h)

theorem execScoEnable_grows {r : Requester} {v : Word} (h : Grows s₀ s) : GrowsNext s₀ (execScoEnable r v s) := by
  unfold execScoEnable
  exact next_grows (writeBy_grows (fun _ h2 => scoCtrlWrite_grows h2) h)

theorem execScoDisable_grows {r : Requester} {v : Word} (h : Grows s₀ s) : GrowsNext s₀ (execScoDisable r v s) := by
  unfold execScoDisable
  exact next_grows (writeBy_grows (fun _ h2 => scoCtrlWrite_grows h2) h)

theorem scoCheck_grows {r : RingId} {b : ℕ} {x : ScoTim} (h : Grows s₀ s) : Grows s₀ (scoCheck r b x s).2 := by
  obtain ⟨body, hbody⟩ : ∃ f, f = scoCheck := ⟨_, rfl⟩
  obtain ⟨dmaRead', hdmaRead'⟩ : ∃ f, f = dmaRead := ⟨_, rfl⟩
  have hdmaRead := @dmaRead_grows s₀
  rw [← hbody]
  delta scoCheck at hbody
  rw [← hdmaRead'] at hdmaRead hbody
  subst hbody
  beta_reduce
  split
  rename_i s1 _ s2 e
  have h2 : Grows s₀ s2 := Grows.of_snd e (hdmaRead h)
  extract_lets +onlyGivenNames d crcBad i y
  split
  rename_i s3 _ s4 e2
  have h3 : Grows s₀ s4 := Grows.of_snd e2 (examDetect_grows h2)
  exact ite_grows_snd h3 h3

theorem scoSelect_grows {x : ScoTim} (h : Grows s₀ s) : Grows s₀ (scoSelect x s) := by
  unfold scoSelect
  split
  · exact h
  · extract_lets +onlyGivenNames again
    split
    · exact ite_grows (bump_grows h) h
    · split
      · exact ite_grows (bump_grows h) h
      · split
        · rename_i s1 s2 e
          have h2 : Grows s₀ s2 := Grows.of_snd e (scoCheck_grows h)
          exact ite_grows (bump_grows (ringRelease_grows (bump_grows h2))) (ringRelease_grows (bump_grows h2))
        · rename_i s1 _ s2 e
          have h2 : Grows s₀ s2 := Grows.of_snd e (scoCheck_grows h)
          exact flag_grows (modSco_grows (foldl_grows (fun _ _ h3 => ringRelease_grows h3) (bumpBy_grows h2)))

theorem scoUnder_grows {i : ℕ} (h : Grows s₀ s) : Grows s₀ (scoUnder i s) := by
  unfold scoUnder
  exact ite_grows (bump_grows h) (raise_grows (modSco_grows (bump_grows h)))

theorem drawSample_grows {h : ℕ} (hs : Grows s₀ s) : Grows s₀ (drawSample h s).2 := by
  unfold drawSample
  split
  rename_i s1 _ s2 e
  have h2 : Grows s₀ s2 := Grows.of_snd e (draw_grows hs)
  exact h2

theorem scoExam_grows {det i h : ℕ} (hs : Grows s₀ s) : Grows s₀ (scoExam det i h s).2 := by
  unfold scoExam
  split
  · rename_i s1 s2 e
    have h2 : Grows s₀ s2 := Grows.of_snd e (examDetect_grows hs)
    split
    rename_i s3 _ s4 e2
    have h3 : Grows s₀ s4 := Grows.of_snd e2 (drawSample_grows h2)
    exact h3
  · rename_i s1 s2 e
    have h2 : Grows s₀ s2 := Grows.of_snd e (examDetect_grows hs)
    exact h2

theorem scoOverlay_grows {r : ℕ} {x : ScoTim} {line : List (ℕ × ℕ)} (h :
    Grows s₀ s) : Grows s₀ (scoOverlay r x line s).2 := by
  unfold scoOverlay
  extract_lets +onlyGivenNames ox oy w
  split
  · exact h
  · split
    rename_i s1 _ s2 e
    have h2 : Grows s₀ s2 := Grows.of_snd e (dmaRead_grows h)
    extract_lets +onlyGivenNames marked row
    split
    rename_i s3 _ s4 e2
    have h3 : Grows s₀ s4 := Grows.of_snd e2 (ite_grows_snd h2 (scoExam_grows h2))
    exact ite_grows (bump_grows h3) h3

theorem scoActive_grows {i : ℕ} {x : ScoTim} (h : Grows s₀ s) : Grows s₀ (scoActive i x s).2 := by
  unfold scoActive
  split
  · exact h
  · split
    rename_i s1 _ s2 e
    have h2 : Grows s₀ s2 := Grows.of_snd e (dmaRead_grows h)
    extract_lets +onlyGivenNames marked
    split
    rename_i s3 _ s4 e2
    have h3 : Grows s₀ s4 := Grows.of_snd e2 (ite_grows_snd h2 (scoExam_grows h2))
    split
    rename_i s5 _ s6 e3
    have h4 : Grows s₀ s6 := Grows.of_snd e3 (scoExam_grows h3)
    extract_lets +onlyGivenNames hit s7 stop
    have h7 : Grows s₀ s7 := ite_grows (scoUnder_grows h4) h4
    split
    rename_i s8 _ s9 e4
    have h5 : Grows s₀ s9 := Grows.of_snd e4 (scoOverlay_grows h7)
    exact h5

theorem scoSend_grows {i : ℕ} {x : ScoTim} {line : List (ℕ × ℕ)} (h : Grows s₀ s) : Grows s₀ (scoSend i x line s) := by
  unfold scoSend
  split
  exact modSco_grows h

theorem scoPfn_grows (h : Grows s₀ s) : Grows s₀ (scoPfn s).2 := by
  unfold scoPfn
  split
  · exact h
  · split
    rename_i s1 _ s2 e
    have h2 : Grows s₀ s2 := Grows.of_snd e (draw_grows h)
    exact h2

theorem scoTell_grows {loc : ℕ} (h : Grows s₀ s) : Grows s₀ (scoTell loc s) := by
  unfold scoTell
  split
  rename_i s1 _ s2 e
  have h2 : Grows s₀ s2 := Grows.of_snd e (scoPfn_grows h)
  exact raise_grows h2

theorem scoBlank_grows {x : ScoTim} (h : Grows s₀ s) : Grows s₀ (scoBlank x s) := by
  unfold scoBlank
  exact scoTell_grows (ite_grows h (scoTell_grows h))

theorem scoMatch_grows {i : ℕ} {x : ScoTim} {cut : Option ℕ} (h : Grows s₀ s) : Grows s₀ (scoMatch i x cut s) := by
  unfold scoMatch
  exact ite_grows (raise_grows (advanceTo_grows h)) h

theorem scoLine_grows {cut : Option ℕ} (h : Grows s₀ s) : Grows s₀ (scoLine cut s) := by
  unfold scoLine
  split
  · exact h
  · extract_lets +onlyGivenNames i s1 s2 s3 s4 s5 s6
    have h1 : Grows s₀ s1 := advanceTo_grows h
    have h2 : Grows s₀ s2 := ite_grows (scoBlank_grows h1) h1
    have h3 : Grows s₀ s3 := by
      unfold s3
      split
      · split
        rename_i s7 _ s8 e
        have h3 : Grows s₀ s8 := Grows.of_snd e (scoActive_grows h2)
        exact scoSend_grows h3
      · exact scoSend_grows h2
    have h4 : Grows s₀ s4 := scoMatch_grows h3
    have h5 : Grows s₀ s5 := modSco_grows h4
    have h6 : Grows s₀ s6 := ite_grows (scoBlank_grows (advanceTo_grows h5)) h5
    exact ite_grows h (ite_grows (ite_grows (scoStop_grows h6) h6) h5)

theorem scoLinesTo_grows {t : ℕ} {x : ScoTim} (h : Grows s₀ s) : Grows s₀ (scoLinesTo t x s) := by
  unfold scoLinesTo
  exact foldl_grows (fun _ _ h2 => ite_grows (scoLine_grows h2) h2) h

theorem scoCut_grows {t : ℕ} {x : ScoTim} (h : Grows s₀ s) : Grows s₀ (scoCut t x s) := by
  unfold scoCut
  exact ite_grows h (modSco_grows h)

theorem scoLineZero_grows {t : ℕ} {x : ScoTim} (h : Grows s₀ s) : Grows s₀ (scoLineZero t x s) := by
  unfold scoLineZero
  exact scoSelect_grows (modSco_grows (takeLive_grows (advanceTo_grows h)))

theorem scoTurn_grows {t : ℕ} (h : Grows s₀ s) : Grows s₀ (scoTurn t s) := by
  unfold scoTurn
  split
  · exact h
  · exact ite_grows (scoLinesTo_grows h) (ite_grows (raise_grows (bump_grows (advanceTo_grows (scoCut_grows
      (scoLinesTo_grows h))))) (scoCut_grows (scoLinesTo_grows h)))

theorem scoLast_grows {t : ℕ} (h : Grows s₀ s) : Grows s₀ (scoLast t s) := by
  unfold scoLast
  split
  · exact scoLinesTo_grows h
  · exact h

theorem execRasterFrameStart_grows (h : Grows s₀ s) : GrowsNext s₀ (execRasterFrameStart s) := by
  unfold execRasterFrameStart
  refine next_grows ?_
  split
  · exact h
  · split
    · extract_lets +onlyGivenNames s1 t s2
      have h1 : Grows s₀ s1 := modSco_grows h
      have h2 : Grows s₀ s2 := scoTurn_grows h1
      exact ite_grows (scoLast_grows h1) (ite_grows (scoEndFrame_grows (raise_grows (flag_grows (advanceTo_grows
          (scoLast_grows h1))))) (ite_grows (scoLineZero_grows h2) h2))
    · exact h

theorem execRasterLine_grows (h : Grows s₀ s) : GrowsNext s₀ (execRasterLine s) := by
  unfold execRasterLine
  exact next_grows (ite_grows (scoLine_grows h) h)

theorem execLineUnderrun_grows {sample : ℕ} {fault : LineFault} (h :
    Grows s₀ s) : GrowsNext s₀ (execLineUnderrun sample fault s) := by
  unfold execLineUnderrun
  refine next_grows ?_
  split
  · exact h
  · extract_lets +onlyGivenNames i
    split
    · split
      · split
        · exact h
        · split
          rename_i s1 _ s2 e
          have h2 : Grows s₀ s2 := Grows.of_snd e (examDetect_grows h)
          exact bump_grows (modSco_grows h2)
      · split
        · exact h
        · split
          rename_i s1 _ s2 e
          have h2 : Grows s₀ s2 := Grows.of_snd e (examDetect_grows h)
          exact scoUnder_grows (modSco_grows h2)
      · split
        · exact h
        · split
          rename_i s1 _ s2 e
          have h2 : Grows s₀ s2 := Grows.of_snd e (examDetect_grows h)
          exact scoUnder_grows (modSco_grows h2)
    · exact h

/-! ### The model's file `Ctl` -/

theorem modMon_grows {f : MonSt → MonSt} (h : Grows s₀ s) : Grows s₀ (modMon f s) := by
  unfold modMon
  exact Grows.update h

theorem modCfg_grows {f : CfgSt → CfgSt} (hotp : (f s.cfg).otp = s.cfg.otp) (h : Grows s₀ s) :
    Grows s₀ (modCfg f s) :=
  Grows.updateCfg hotp h

theorem xspiRegWrite_grows {a : ℕ} {v : Word} (h : Grows s₀ s) : Grows s₀ (xspiRegWrite a v s) := by
  unfold xspiRegWrite
  exact ite_grows (flag_grows h) (plainWrite_grows h)

theorem xspiEnd_grows {n : ℕ} {err : Bool} (h : Grows s₀ s) : Grows s₀ (xspiEnd n err s) := by
  unfold xspiEnd
  exact raise_grows (ite_grows (flag_grows (flag_grows (setF_grows h))) (flag_grows (setF_grows h)))

theorem xspiCmdWrite_grows {v : Word} (h : Grows s₀ s) : Grows s₀ (xspiCmdWrite v s) := by
  unfold xspiCmdWrite
  exact ite_grows h (ite_grows (flag_grows h) (ite_grows (xspiEnd_grows h) (flag_grows h)))

theorem execXspiRead_grows {r : Requester} {v : Word} (h : Grows s₀ s) : GrowsNext s₀ (execXspiRead r v s) := by
  unfold execXspiRead
  exact next_grows (writeBy_grows (fun _ h2 => xspiCmdWrite_grows h2) h)

theorem xspiFinish_grows (h : Grows s₀ s) : Grows s₀ (xspiFinish s) := by
  unfold xspiFinish
  exact xspiEnd_grows (dmaPut_grows h)

theorem execXspiDone_grows (h : Grows s₀ s) : GrowsNext s₀ (execXspiDone s) := by
  unfold execXspiDone
  exact next_grows (ite_grows (xspiFinish_grows h) h)

theorem gpioWrite_grows {a : ℕ} {v : Word} (h : Grows s₀ s) : Grows s₀ (gpioWrite a v s) := by
  unfold gpioWrite
  exact gpioSettle_grows (plainWrite_grows h)

theorem gpioSetWrite_grows {v : Word} (h : Grows s₀ s) : Grows s₀ (gpioSetWrite v s) := by
  unfold gpioSetWrite
  exact gpioSettle_grows (setF_grows h)

theorem gpioClrWrite_grows {v : Word} (h : Grows s₀ s) : Grows s₀ (gpioClrWrite v s) := by
  unfold gpioClrWrite
  exact gpioSettle_grows (setF_grows h)

theorem execGpioSet_grows {r : Requester} {v : Word} (h : Grows s₀ s) : GrowsNext s₀ (execGpioSet r v s) := by
  unfold execGpioSet
  exact next_grows (writeBy_grows (fun _ h2 => gpioSetWrite_grows h2) h)

theorem execGpioClr_grows {r : Requester} {v : Word} (h : Grows s₀ s) : GrowsNext s₀ (execGpioClr r v s) := by
  unfold execGpioClr
  exact next_grows (writeBy_grows (fun _ h2 => gpioClrWrite_grows h2) h)

theorem execGpioEdge_grows {at_ i : ℕ} {level : Bool} (h : Grows s₀ s) : GrowsNext s₀ (execGpioEdge at_ i level s) := by
  unfold execGpioEdge
  exact guardOk_grows (ite_grows (gpioSettle_grows (modMon_grows (advanceTo_grows h))) (modMon_grows
      (advanceTo_grows h)))

theorem showOtp_grows (h : Grows s₀ s) : Grows s₀ (showOtp s) := by
  unfold showOtp
  exact wr_grows h

theorem showDbg_grows (h : Grows s₀ s) : Grows s₀ (showDbg s) := by
  unfold showDbg
  exact setF_grows (setF_grows h)

theorem otpCmdWrite_grows {v : Word} (h : Grows s₀ s) : Grows s₀ (otpCmdWrite v s) := by
  unfold otpCmdWrite
  exact ite_grows h (ite_grows (flag_grows (modCfg_grows rfl (setF_grows h))) (raise_grows (setF_grows h)))

theorem execOtpProgram_grows {r : Requester} {v : Word} (h : Grows s₀ s) : GrowsNext s₀ (execOtpProgram r v s) := by
  unfold execOtpProgram
  exact next_grows (writeBy_grows (fun _ h2 => otpCmdWrite_grows h2) h)

/-- Programming an OTP word adds bits to it (R412). -/
theorem otpProgram_grows {w : ℕ} {bits : Word} (h : Grows s₀ s) :
    Grows s₀ (modCfg (fun x => { x with otpRun := none, otp := put x.otp w (s.otp w ||| bits) }) s) where
  pending := h.pending
  variant := h.variant
  now := h.now
  fresh := h.fresh
  mem := h.mem
  otp := fun v => by
    rcases eq_or_ne v w with rfl | hne
    · calc s₀.otp v &&& lookD (put s.cfg.otp v (s.otp v ||| bits)) 0 v
          = s₀.otp v &&& s.otp v ||| s₀.otp v &&& bits := by
            rw [lookD_put_self, BitVec.and_or_distrib_left]
        _ = s₀.otp v ||| s₀.otp v &&& bits := by rw [h.otp]
        _ = s₀.otp v := by ext i; simp; tauto
    · exact (congrArg (s₀.otp v &&& ·) (lookD_put_of_ne s.cfg.otp 0 w _ v hne)).trans (h.otp v)

theorem otpEnd_grows (h : Grows s₀ s) : Grows s₀ (otpEnd s) := by
  unfold otpEnd
  split
  · exact h
  · exact raise_grows (showDbg_grows (showOtp_grows (flag_grows (setF_grows (otpProgram_grows (advanceTo_grows h))))))

theorem execOtpDone_grows (h : Grows s₀ s) : GrowsNext s₀ (execOtpDone s) := by
  unfold execOtpDone
  exact next_grows (otpEnd_grows h)

theorem lockWrite_grows {v : Word} (h : Grows s₀ s) : Grows s₀ (lockWrite v s) := by
  unfold lockWrite
  exact ite_grows (flag_grows h) h

theorem execBootLock_grows {r : Requester} {v : Word} (h : Grows s₀ s) : GrowsNext s₀ (execBootLock r v s) := by
  unfold execBootLock
  exact next_grows (writeBy_grows (fun _ h2 => lockWrite_grows h2) h)

theorem warmWrite_grows {v : Word} (h : Grows s₀ s) : Grows s₀ (warmWrite v s) := by
  unfold warmWrite
  exact ite_grows (setF_grows (plainWrite_grows h)) (plainWrite_grows h)

theorem execWarmInvalidate_grows {r : Requester} {v : Word} (h :
    Grows s₀ s) : GrowsNext s₀ (execWarmInvalidate r v s) := by
  unfold execWarmInvalidate
  exact next_grows (writeBy_grows (fun _ h2 => warmWrite_grows h2) h)

theorem mboxPut_grows {o : ℕ} {bs : List Byte} (h : Grows s₀ s) : Grows s₀ (mboxPut o bs s) := by
  unfold mboxPut
  exact modMon_grows h

theorem execCtlSpiWrite_grows {addr : BitVec 16} {data : List Byte} (h :
    Grows s₀ s) : GrowsNext s₀ (execCtlSpiWrite addr data s) := by
  unfold execCtlSpiWrite
  exact next_grows (ite_grows h (ite_grows (flag_grows h) (mboxPut_grows h)))

theorem execCtlSpiRead_grows {addr : BitVec 16} {len : ℕ} (h :
    Grows s₀ s) : GrowsNext s₀ (execCtlSpiRead addr len s) := by
  unfold execCtlSpiRead
  exact next_grows (ite_grows (modMon_grows h) h)

theorem execCtlSpiStatus_grows (h : Grows s₀ s) : GrowsNext s₀ (execCtlSpiStatus s) := by
  unfold execCtlSpiStatus
  exact next_grows (ite_grows (modMon_grows h) h)

theorem execCtlSpiDoorbell_grows (h : Grows s₀ s) : GrowsNext s₀ (execCtlSpiDoorbell s) := by
  unfold execCtlSpiDoorbell
  exact next_grows (ite_grows (raise_grows (flag_grows h)) h)

theorem execCtlSpiAck_grows (h : Grows s₀ s) : GrowsNext s₀ (execCtlSpiAck s) := by
  unfold execCtlSpiAck
  exact next_grows (ite_grows (raise_grows (setF_grows h)) h)

theorem execCtlSpiUnknown_grows {cmd : Byte} (h : Grows s₀ s) : GrowsNext s₀ (execCtlSpiUnknown cmd s) := by
  unfold execCtlSpiUnknown
  exact next_grows (ite_grows (bump_grows h) h)

theorem mboxCtrlWrite_grows {v : Word} (h : Grows s₀ s) : Grows s₀ (mboxCtrlWrite v s) := by
  unfold mboxCtrlWrite
  exact ite_grows (flag_grows h) (ite_grows (flag_grows (ite_grows (setF_grows h) h)) (ite_grows (setF_grows h) h))

theorem execMboxInClear_grows {r : Requester} {v : Word} (h : Grows s₀ s) : GrowsNext s₀ (execMboxInClear r v s) := by
  unfold execMboxInClear
  exact next_grows (writeBy_grows (fun _ h2 => mboxCtrlWrite_grows h2) h)

theorem execMboxPost_grows {r : Requester} {v : Word} (h : Grows s₀ s) : GrowsNext s₀ (execMboxPost r v s) := by
  unfold execMboxPost
  exact next_grows (writeBy_grows (fun _ h2 => mboxCtrlWrite_grows h2) h)

/-! ### The model's file `Locks` -/

theorem showLocks_grows (h : Grows s₀ s) : Grows s₀ (showLocks s) := by
  unfold showLocks
  exact setF_grows (setF_grows h)

theorem lockGrant_grows {i : ℕ} (h : Grows s₀ s) : Grows s₀ (lockGrant i s) := by
  unfold lockGrant
  exact showLocks_grows (addPair_grows (Grows.update h))

theorem lockAsk_grows {o : RmOwner} {vol first blocks : ℕ} {excl : Bool} (h :
    Grows s₀ s) : Grows s₀ (lockAsk o vol first blocks excl s).2 := by
  unfold lockAsk
  split
  · exact h
  · extract_lets +onlyGivenNames s1 rank a i _ s2
    have h1 : Grows s₀ s1 := examDetect_grows h
    have h2 : Grows s₀ s2 := Grows.update h1
    split
    · exact lockGrant_grows h2
    · split
      · exact ite_grows_snd (raise_grows (bump_grows h2)) h2
      · exact h2

theorem lockDrop_grows {o : RmOwner} (h : Grows s₀ s) : Grows s₀ (lockDrop o s) := by
  unfold lockDrop
  exact ite_grows (Grows.update h) (showLocks_grows (addPair_grows (Grows.update h)))

/-! ### The model's file `RmBase` -/

theorem modMbr_grows {m : ℕ} {k : MbrSt → MbrSt} (h : Grows s₀ s) : Grows s₀ (modMbr m k s) := by
  unfold modMbr
  exact Grows.update h

theorem modVol_grows {v : ℕ} {k : VolSt → VolSt} (h : Grows s₀ s) : Grows s₀ (modVol v k s) := by
  unfold modVol
  split
  · exact Grows.update h
  · exact h

theorem modStr_grows {k : ℕ} {f : StrSt → StrSt} (h : Grows s₀ s) : Grows s₀ (modStr k f s) := by
  unfold modStr
  exact setF_grows (Grows.update h)

theorem mbrState_grows {m n : ℕ} (h : Grows s₀ s) : Grows s₀ (mbrState m n s) := by
  unfold mbrState
  exact setF_grows h

theorem adminPut_grows {m opc ns prp dw10 dw11 : ℕ} (h :
    Grows s₀ s) : Grows s₀ (adminPut m opc ns prp dw10 dw11 s) := by
  unfold adminPut
  exact dmaPut_grows (modMbr_grows h)

theorem adminDone_grows {m opc ns prp dw10 dw11 dw0 : ℕ} (h :
    Grows s₀ s) : Grows s₀ (adminDone m opc ns prp dw10 dw11 dw0 s) := by
  unfold adminDone
  exact dmaPut_grows (adminPut_grows h)

theorem submit_grows {m : ℕ} {c : NvCmd} (h : Grows s₀ s) : Grows s₀ (submit m c s) := by
  unfold submit
  exact dmaPut_grows (modMbr_grows h)

theorem issue_grows {m : ℕ} {op : NvOp} {o : RmOwner} (h : Grows s₀ s) : Grows s₀ (issue m op o s) := by
  unfold issue
  exact submit_grows h

theorem volWrite_grows {v vbn n : ℕ} {cells : List Host.Cell} {o : RmOwner} (h :
    Grows s₀ s) : Grows s₀ (volWrite v vbn n cells o s).2 := by
  unfold volWrite
  split
  · exact h
  · extract_lets +onlyGivenNames s1
    have h1 : Grows s₀ s1 := ite_grows h (modVol_grows h)
    refine foldl_grows_snd (fun s2 x h2 => ?_) h1
    split
    exact foldl_grows_snd (fun _ _ h3 => issue_grows h3) h2

theorem journal_grows {v : ℕ} {recs : List (ℕ × ℕ × List Byte)} (h : Grows s₀ s) : Grows s₀ (journal v recs s).2 := by
  unfold journal
  split
  · exact h
  · exact modVol_grows h

theorem metaIssue_grows {v id : ℕ} {op : MetaOp} (h : Grows s₀ s) : Grows s₀ (metaIssue v id op s).2 := by
  unfold metaIssue
  split
  · exact volWrite_grows h
  · extract_lets +onlyGivenNames s1 b
    have h1 : Grows s₀ s1 := modVol_grows h
    split
    · exact h1
    · exact foldl_grows_snd (fun _ _ h2 => issue_grows h2) h1
  · extract_lets +onlyGivenNames s1
    have h1 : Grows s₀ s1 := ite_grows h (modVol_grows h)
    split
    · exact h1
    · exact foldl_grows_snd (fun _ _ h2 => issue_grows h2) h1
  · refine foldl_grows_snd (fun s1 x h2 => ?_) h
    split
    exact ite_grows_snd (issue_grows h2) h2

theorem taskEnd_grows {e : TaskEnd} (h : Grows s₀ s) : Grows s₀ (taskEnd e s) := by
  unfold taskEnd
  split
  · exact h
  · split
    · exact ite_grows h (ringAttach_grows h)
    · exact h
  · exact modStr_grows h
  · exact ite_grows h (ite_grows (raise_grows (setF_grows h)) (setF_grows h))
  · exact raise_grows (setF_grows (setF_grows h))
  · exact raise_grows h
  · split
    · exact Grows.update h
    · exact h

theorem volShut_grows {v : ℕ} (h : Grows s₀ s) : Grows s₀ (volShut v s) := by
  unfold volShut
  split
  · exact h
  · exact ite_grows (setF_grows (Grows.update (foldl_grows (fun _ _ h2 => ite_grows (setF_grows h2) h2) h))) h

theorem taskRun_grows {id : ℕ} {t : RmTask} {l : List (List MetaOp)} (h :
    Grows s₀ s) : Grows s₀ (taskRun id t l s) := by
  induction l generalizing s with
  | nil =>
    rw [taskRun]
    exact volShut_grows (taskEnd_grows (Grows.update h))
  | cons x l ih =>
    rw [taskRun]
    split
    rename_i s1 _ s2 e
    have h2 : Grows s₀ s2 := Grows.of_snd e (foldl_grows_snd (fun _ _ h2 => metaIssue_grows h2) h)
    exact ite_grows (ih h2) (Grows.update h2)

theorem taskStart_grows {v : ℕ} {base : Option ℕ} {phases : List (List MetaOp)} {fin : TaskEnd} (h :
    Grows s₀ s) : Grows s₀ (taskStart v base phases fin s) := by
  unfold taskStart
  exact taskRun_grows (Grows.update h)

theorem taskStep_grows {id : ℕ} (h : Grows s₀ s) : Grows s₀ (taskStep id s) := by
  unfold taskStep
  split
  · exact h
  · exact ite_grows (taskRun_grows h) (Grows.update h)

theorem checkpoint_grows {v : ℕ} (h : Grows s₀ s) : Grows s₀ (checkpoint v s) := by
  unfold checkpoint
  split
  · exact h
  · split
    · exact h
    · split
      rename_i s1 _ s2 e
      have h2 : Grows s₀ s2 := Grows.of_snd e (journal_grows h)
      exact taskStart_grows (modVol_grows h2)

theorem metaWrite_grows {v : ℕ} {recs : List (ℕ × ℕ × List Byte)} {then_ : List MetaOp} {fin : TaskEnd} (h :
    Grows s₀ s) : Grows s₀ (metaWrite v recs then_ fin s) := by
  unfold metaWrite
  extract_lets +onlyGivenNames base
  split
  rename_i s1 _ s2 e
  have h2 : Grows s₀ s2 := Grows.of_snd e (journal_grows h)
  exact checkpoint_grows (taskStart_grows h2)

theorem mirrorWrite_grows {k : ℕ} {recording : Bool} (h : Grows s₀ s) : Grows s₀ (mirrorWrite k recording s) := by
  unfold mirrorWrite
  extract_lets +onlyGivenNames x a id g seq hd s1
  have h1 : Grows s₀ s1 := by
    unfold s1
    split
    · exact dmaPut_grows h
    · exact h
  exact dmaPut_grows (modStr_grows h1)

/-! ### The model's file `RmStream` -/

theorem strState_grows {k n : ℕ} (h : Grows s₀ s) : Grows s₀ (strState k n s) := by
  unfold strState
  exact setF_grows h

theorem grantWrite_grows {k : ℕ} {v : Word} (h : Grows s₀ s) : Grows s₀ (grantWrite k v s) := by
  unfold grantWrite
  exact ite_grows (plainWrite_grows h) (ite_grows h (ite_grows (flag_grows h) (modStr_grows (plainWrite_grows h))))

theorem fillExt_grows {k : ℕ} {toNext : Bool} {gs : List Grant} (h :
    Grows s₀ s) : Grows s₀ (fillExt k toNext gs s) := by
  unfold fillExt
  extract_lets +onlyGivenNames x c d s1
  have h1 : Grows s₀ s1 := modStr_grows h
  split
  · exact h1
  · exact metaWrite_grows h1

theorem allocate_grows {k n : ℕ} {toNext : Bool} (h : Grows s₀ s) : Grows s₀ (allocate k n toNext s).2 := by
  unfold allocate
  split
  · exact h
  · split
    · exact ite_grows (modStr_grows h) (fillExt_grows (modStr_grows h))
    · split
      · exact h
      · exact ite_grows_snd (raise_grows (fillExt_grows (modStr_grows h))) h

theorem flightCells_grows {k : ℕ} {r : Option RingId} {f : Flight} (h :
    Grows s₀ s) : Grows s₀ (flightCells k r f s).2 := by
  unfold flightCells
  obtain ⟨readDesc', hreadDesc'⟩ : ∃ f, f = readDesc := ⟨_, rfl⟩
  have hreadDesc := @readDesc_grows s₀
  rw [← hreadDesc'] at hreadDesc ⊢
  obtain ⟨dmaTake', hdmaTake'⟩ : ∃ f, f = dmaTake := ⟨_, rfl⟩
  have hdmaTake := @dmaTake_grows s₀
  rw [← hdmaTake'] at hdmaTake ⊢
  split
  · exact h
  · split
    · split
      rename_i s1 _ s2 e
      have h2 : Grows s₀ s2 := Grows.of_snd e (hreadDesc h)
      split
      rename_i s3 _ s4 e2
      have h3 : Grows s₀ s4 := Grows.of_snd e2 (hdmaTake h2)
      exact h3
    · exact h

theorem flightIssue_grows {k no : ℕ} (h : Grows s₀ s) : Grows s₀ (flightIssue k no s) := by
  unfold flightIssue
  extract_lets +onlyGivenNames x
  split
  · exact h
  · split
    · exact h
    · split
      rename_i s1 _ s2 e
      have h2 : Grows s₀ s2 := Grows.of_snd e (flightCells_grows h)
      split
      rename_i s3 _ s4 e2
      have h3 : Grows s₀ s4 := Grows.of_snd e2 (volWrite_grows h2)
      exact ite_grows (lockDrop_grows (modStr_grows h3)) (modStr_grows h3)

theorem flightStart_grows {k : ℕ} {f : Flight} (h : Grows s₀ s) : Grows s₀ (flightStart k f s) := by
  unfold flightStart
  extract_lets +onlyGivenNames x s1
  have h1 : Grows s₀ s1 := modStr_grows h
  split
  rename_i s2 _ s3 e
  have h2 : Grows s₀ s3 := Grows.of_snd e (lockAsk_grows h1)
  exact ite_grows (flightIssue_grows h2) h2

theorem indexStart_grows {k id : ℕ} {entries : List (List Byte)} {last : Bool} (h :
    Grows s₀ s) : Grows s₀ (indexStart k id entries last s).2 := by
  unfold indexStart
  extract_lets +onlyGivenNames before
  split
  · rename_i s1 s2 e
    have h2 : Grows s₀ s2 := Grows.of_snd e (allocate_grows h)
    exact h2
  · rename_i s1 _ s2 e
    have h2 : Grows s₀ s2 := Grows.of_snd e (allocate_grows h)
    exact flightStart_grows (modStr_grows h2)

theorem payIndex_grows {k : ℕ} (h : Grows s₀ s) : Grows s₀ (payIndex k s) := by
  unfold payIndex
  exact ite_grows (indexStart_grows h) h

theorem frameWrite_grows {k b : ℕ} (h : Grows s₀ s) : Grows s₀ (frameWrite k b s).2 := by
  unfold frameWrite
  obtain ⟨readDesc', hreadDesc'⟩ : ∃ f, f = readDesc := ⟨_, rfl⟩
  have hreadDesc := @readDesc_grows s₀
  rw [← hreadDesc'] at hreadDesc ⊢
  obtain ⟨dmaTake', hdmaTake'⟩ : ∃ f, f = dmaTake := ⟨_, rfl⟩
  have hdmaTake := @dmaTake_grows s₀
  rw [← hdmaTake'] at hdmaTake ⊢
  extract_lets +onlyGivenNames s1 x before
  have h1 : Grows s₀ s1 := payIndex_grows h
  split
  · exact h1
  · split
    · exact h1
    · split
      rename_i s2 _ s3 e
      have h2 : Grows s₀ s3 := Grows.of_snd e (hreadDesc h1)
      extract_lets +onlyGivenNames n i
      split
      · rename_i s4 s5 e2
        have h3 : Grows s₀ s5 := Grows.of_snd e2 (allocate_grows h2)
        exact h3
      · rename_i s4 _ s5 e2
        have h3 : Grows s₀ s5 := Grows.of_snd e2 (allocate_grows h2)
        split
        rename_i s6 _ s7 e3
        have h4 : Grows s₀ s7 := Grows.of_snd e3 (hdmaTake h3)
        exact payIndex_grows (flightStart_grows (modStr_grows h4))

theorem streamFrame_grows {k : ℕ} (h : Grows s₀ s) : Grows s₀ (streamFrame k s) := by
  unfold streamFrame
  extract_lets +onlyGivenNames x
  split
  · exact h
  · split
    · split
      rename_i s1 _ s2 e
      have h2 : Grows s₀ s2 := Grows.of_snd e (frameWrite_grows h)
      exact ite_grows h2 (raise_grows (bump_grows (ringRelease_grows h2)))
    · exact h

theorem execStreamFrame_grows {k : ℕ} (h : Grows s₀ s) : GrowsNext s₀ (execStreamFrame k s) := by
  unfold execStreamFrame
  exact guardOk_grows (ite_grows (streamFrame_grows h) h)

theorem clipOpen_grows {k : ℕ} (h : Grows s₀ s) : Grows s₀ (clipOpen k s) := by
  unfold clipOpen
  extract_lets +onlyGivenNames vol id x c c1 ext
  split
  · exact flag_grows h
  · exact ite_grows (flag_grows h) (metaWrite_grows (mirrorWrite_grows (setF_grows (strState_grows (modStr_grows
      h)))))

theorem tryClose_grows {k : ℕ} (h : Grows s₀ s) : Grows s₀ (tryClose k s) := by
  unfold tryClose
  extract_lets +onlyGivenNames x
  split
  · split
    rename_i s1 _ s2 e
    have h2 : Grows s₀ s2 := Grows.of_snd e (indexStart_grows h)
    exact ite_grows (modStr_grows h2) h2
  · exact h

theorem clipClose_grows {k : ℕ} (h : Grows s₀ s) : Grows s₀ (clipClose k s) := by
  unfold clipClose
  exact ite_grows (tryClose_grows (strState_grows h)) (ite_grows (modStr_grows h) h)

theorem strCtrlWrite_grows {k : ℕ} {v : Word} (h : Grows s₀ s) : Grows s₀ (strCtrlWrite k v s) := by
  unfold strCtrlWrite
  exact ite_grows (flag_grows h) (ite_grows (clipClose_grows (ite_grows (clipOpen_grows h) h)) (ite_grows
      (clipOpen_grows h) h))

theorem execClipOpen_grows {r : Requester} {k : ℕ} {v : Word} (h :
    Grows s₀ s) : GrowsNext s₀ (execClipOpen r k v s) := by
  unfold execClipOpen
  exact guardOk_grows (writeBy_grows (fun _ h2 => strCtrlWrite_grows h2) h)

theorem execClipClose_grows {r : Requester} {k : ℕ} {v : Word} (h :
    Grows s₀ s) : GrowsNext s₀ (execClipClose r k v s) := by
  unfold execClipClose
  exact guardOk_grows (writeBy_grows (fun _ h2 => strCtrlWrite_grows h2) h)

theorem execGrantPush_grows {r : Requester} {k : ℕ} {v : Word} (h :
    Grows s₀ s) : GrowsNext s₀ (execGrantPush r k v s) := by
  unfold execGrantPush
  exact guardOk_grows (writeBy_grows (fun _ h2 => tryClose_grows (grantWrite_grows h2)) h)

theorem closeMeta_grows {k : ℕ} (h : Grows s₀ s) : Grows s₀ (closeMeta k s) := by
  unfold closeMeta
  exact metaWrite_grows (mirrorWrite_grows (modStr_grows h))

theorem splitMeta_grows {k : ℕ} {b : ClipSt} (h : Grows s₀ s) : Grows s₀ (splitMeta k b s) := by
  unfold splitMeta
  exact metaWrite_grows (mirrorWrite_grows (strState_grows (setF_grows (modStr_grows h))))

theorem frameCommit_grows {k : ℕ} (h : Grows s₀ s) : Grows s₀ (frameCommit k s) := by
  unfold frameCommit
  obtain ⟨readDesc', hreadDesc'⟩ : ∃ f, f = readDesc := ⟨_, rfl⟩
  have hreadDesc := @readDesc_grows s₀
  rw [← hreadDesc'] at hreadDesc ⊢
  extract_lets +onlyGivenNames x
  split
  · exact h
  · split
    · exact h
    · extract_lets +onlyGivenNames s1 s2 s3 s4 s5 s6
      have h1 : Grows s₀ s1 := modStr_grows h
      have h2 : Grows s₀ s2 := modStr_grows h1
      have h3 : Grows s₀ s3 := mirrorWrite_grows h2
      have h4 : Grows s₀ s4 := modStr_grows h1
      have h5 : Grows s₀ s5 := setF_grows (mirrorWrite_grows h4)
      have h6 : Grows s₀ s6 := by
        unfold s6
        split
        · split
          rename_i s7 _ s8 e
          have h6 : Grows s₀ s8 := Grows.of_snd e (hreadDesc h5)
          exact ringRelease_grows (modStr_grows h6)
        · exact h5
      split
      · split
        · exact tryClose_grows (splitMeta_grows h3)
        · exact closeMeta_grows h3
        · exact tryClose_grows h3
      · exact tryClose_grows h6

theorem execFrameCommit_grows {k : ℕ} (h : Grows s₀ s) : GrowsNext s₀ (execFrameCommit k s) := by
  unfold execFrameCommit
  exact guardOk_grows (ite_grows (frameCommit_grows h) h)

theorem clipClosed_grows {k : ℕ} (h : Grows s₀ s) : Grows s₀ (clipClosed k s) := by
  unfold clipClosed
  extract_lets +onlyGivenNames x s1 s2
  have h1 : Grows s₀ s1 := by
    unfold s1
    split
    · exact ringDetach_grows h
    · exact h
  have h2 : Grows s₀ s2 := modStr_grows h1
  exact ite_grows h (volShut_grows (raise_grows (strState_grows h2)))

theorem execClipClosed_grows {k : ℕ} (h : Grows s₀ s) : GrowsNext s₀ (execClipClosed k s) := by
  unfold execClipClosed
  exact guardOk_grows (ite_grows (clipClosed_grows h) h)

theorem flightFree_grows {k no : ℕ} (h : Grows s₀ s) : Grows s₀ (flightFree k no s) := by
  unfold flightFree
  exact ite_grows h (lockDrop_grows h)

theorem rewind_grows {k : ℕ} {keep : Bool} (h : Grows s₀ s) : Grows s₀ (rewind k keep s) := by
  unfold rewind
  extract_lets +onlyGivenNames x grants s1 s2
  have h1 : Grows s₀ s1 := by
    unfold s1
    split
    · exact foldl_grows (fun _ _ h2 => ite_grows h2 (ringRelease_grows h2)) h
    · exact h
  have h2 : Grows s₀ s2 := modStr_grows h1
  exact foldl_grows (fun _ _ h3 => flightFree_grows h3) h2

theorem markClip_grows {k flags : ℕ} (h : Grows s₀ s) : Grows s₀ (markClip k flags s) := by
  unfold markClip
  exact modStr_grows h

theorem clipBreak_grows {k : ℕ} (h : Grows s₀ s) : Grows s₀ (clipBreak k s) := by
  unfold clipBreak
  extract_lets +onlyGivenNames s1 s2
  have h1 : Grows s₀ s1 := markClip_grows (rewind_grows h)
  have h2 : Grows s₀ s2 := by
    unfold s2
    split
    · exact ringDetach_grows h1
    · exact h1
  exact tryClose_grows (strState_grows (modStr_grows h2))

theorem clipSplit_grows {k p : ℕ} (h : Grows s₀ s) : Grows s₀ (clipSplit k p s) := by
  unfold clipSplit
  exact ite_grows (clipBreak_grows h) (strState_grows (modStr_grows (markClip_grows (rewind_grows h))))

theorem splitRewrite_grows {k : ℕ} (h : Grows s₀ s) : Grows s₀ (splitRewrite k s) := by
  unfold splitRewrite
  extract_lets +onlyGivenNames x
  split
  · exact h
  · split
    · exact h
    · split
      rename_i s1 _ s2 e
      have h2 : Grows s₀ s2 := Grows.of_snd e (indexStart_grows h)
      split
      · exact h2
      · extract_lets +onlyGivenNames ext s3 s4
        have h3 : Grows s₀ s3 := modStr_grows h2
        have h4 : Grows s₀ s4 := modStr_grows h3
        refine foldl_grows (fun s5 x2 h5 => ?_) h4
        split
        rename_i s6 _ s7 e2
        have h6 : Grows s₀ s7 := Grows.of_snd e2 (frameWrite_grows h5)
        split
        · exact raise_grows (bump_grows (ringRelease_grows h6))
        · exact h6

theorem execSplitRewrite_grows {k : ℕ} (h : Grows s₀ s) : GrowsNext s₀ (execSplitRewrite k s) := by
  unfold execSplitRewrite
  exact guardOk_grows (ite_grows (splitRewrite_grows h) h)

/-! ### The model's file `OepBase` -/

theorem oepSignal_grows {vec : ℕ} (h : Grows s₀ s) : Grows s₀ (oepSignal vec s) := by
  unfold oepSignal
  split
  · exact Grows.update h
  · exact Grows.update h

theorem cqSignal_grows {vec : ℕ} (h : Grows s₀ s) : Grows s₀ (cqSignal vec s) := by
  unfold cqSignal
  split
  split
  exact ite_grows (oepSignal_grows (Grows.update h)) (Grows.update h)

theorem hostClear_grows (h : Grows s₀ s) : Grows s₀ (hostClear s) := by
  unfold hostClear
  exact foldl_grows (fun _ _ h2 => oepSignal_grows (Grows.update h2)) (Grows.update h)

theorem cqPut_grows {c : ℕ} {x : CqSt} {q cid status dw0 : ℕ} (h :
    Grows s₀ s) : Grows s₀ (cqPut c x q cid status dw0 s) := by
  unfold cqPut
  extract_lets +onlyGivenNames sqhd e wrap
  split
  · exact cqSignal_grows (Grows.update h)
  · exact Grows.update h

theorem post_grows {q cid status dw0 : ℕ} (h : Grows s₀ s) : Grows s₀ (Machine.post q cid status dw0 s) := by
  unfold Sys2Proof.Machine.post
  extract_lets +onlyGivenNames _ s1
  have h1 : Grows s₀ s1 := ite_grows h (Grows.update h)
  split
  · exact h1
  · split
    · exact h1
    · split
      · exact h1
      · exact ite_grows (Grows.update h1) (cqPut_grows h1)

theorem cqDrain_grows {c fuel : ℕ} (h : Grows s₀ s) : Grows s₀ (cqDrain c fuel s) := by
  induction fuel generalizing s with
  | zero =>
    rw [cqDrain]
    exact h
  | succ fuel ih =>
    rw [cqDrain]
    split
    · exact h
    · split
      · exact h
      · exact ite_grows h (ih (cqPut_grows h))

theorem modCmd_grows {id : ℕ} {f : HostCmd → HostCmd} (h : Grows s₀ s) : Grows s₀ (modCmd id f s) := by
  unfold modCmd
  exact Grows.update h

theorem toHost_grows {c : HostCmd} {bs : List Byte} (h : Grows s₀ s) : Grows s₀ (toHost c bs s) := by
  unfold toHost
  exact Grows.update h

theorem hostDrop_grows {id : ℕ} (h : Grows s₀ s) : Grows s₀ (hostDrop id s) := by
  unfold hostDrop
  exact lockDrop_grows (Grows.update h)

theorem sqReap_grows (h : Grows s₀ s) : Grows s₀ (sqReap s) := by
  unfold sqReap
  refine foldl_grows (fun s1 x h2 => ?_) h
  split
  · split
    · extract_lets +onlyGivenNames _ s2
      have h2 : Grows s₀ s2 := Grows.update h2
      split
      · exact hostDrop_grows (post_grows h2)
      · exact h2
    · exact h2
  · exact h2

theorem hostGone_grows {id : ℕ} (h : Grows s₀ s) : Grows s₀ (hostGone id s) := by
  unfold hostGone
  exact sqReap_grows (hostDrop_grows h)

theorem hostEnd_grows {c : HostCmd} {status dw0 : ℕ} (h : Grows s₀ s) : Grows s₀ (hostEnd c status dw0 s) := by
  unfold hostEnd
  exact hostGone_grows (ite_grows (post_grows h) h)

theorem rangeIssue_grows {id v op first n : ℕ} {data : List Byte} (h :
    Grows s₀ s) : Grows s₀ (rangeIssue id v op first n data s).2 := by
  unfold rangeIssue
  split
  · exact h
  · split
    · refine foldl_grows_snd (fun s1 x h2 => ?_) h
      split
      split
      · exact issue_grows h2
      · exact h2
    · split
      · refine foldl_grows_snd (fun s1 x h2 => ?_) h
        split
        exact foldl_grows_snd (fun _ _ h3 => issue_grows h3) h2
      · exact volWrite_grows h

theorem stageSet_grows {id : ℕ} {st : HostStage} {n : ℕ} {lost : Bool} (h :
    Grows s₀ s) : Grows s₀ (stageSet id st n lost s) := by
  unfold stageSet
  exact modCmd_grows h

theorem atomicHome_grows {id : ℕ} (h : Grows s₀ s) : Grows s₀ (atomicHome id s) := by
  unfold atomicHome
  split
  · exact h
  · split
    · exact stageSet_grows h
    · extract_lets +onlyGivenNames lost
      split
      rename_i s1 _ s2 e
      have h2 : Grows s₀ s2 := Grows.of_snd e (volWrite_grows h)
      exact stageSet_grows h2

theorem atomicZero_grows {id : ℕ} (h : Grows s₀ s) : Grows s₀ (atomicZero id s) := by
  unfold atomicZero
  split
  · exact h
  · extract_lets +onlyGivenNames s1 s2
    have h1 : Grows s₀ s1 := ite_grows (post_grows h) h
    have h2 : Grows s₀ s2 := ite_grows h1 (bump_grows h1)
    split
    rename_i s3 _ s4 e
    have h3 : Grows s₀ s4 := Grows.of_snd e (volWrite_grows h2)
    exact modCmd_grows h3

theorem atomicFree_grows {id : ℕ} (h : Grows s₀ s) : Grows s₀ (atomicFree id s) := by
  unfold atomicFree
  split
  · exact h
  · exact Grows.update (hostGone_grows h)

theorem atomicRun_grows {id fuel : ℕ} (h : Grows s₀ s) : Grows s₀ (atomicRun id fuel s) := by
  induction fuel generalizing s with
  | zero =>
    rw [atomicRun]
    exact h
  | succ fuel ih =>
    rw [atomicRun]
    split
    · exact h
    · split
      · exact h
      · split
        · exact ih (atomicHome_grows h)
        · exact ih (atomicZero_grows h)
        · exact atomicFree_grows h
        · exact h

theorem slotTake_grows {c : HostCmd} (h : Grows s₀ s) : Grows s₀ (slotTake c s) := by
  unfold slotTake
  split
  · exact modCmd_grows h
  · extract_lets +onlyGivenNames seq volId _ s1 hd lost
    have h1 : Grows s₀ s1 := Grows.update h
    split
    rename_i s2 _ s3 e
    have h2 : Grows s₀ s3 := Grows.of_snd e (ite_grows_snd h1 (volWrite_grows h1))
    exact atomicRun_grows (stageSet_grows (modCmd_grows h2))

theorem slotNext_grows {v : ℕ} (h : Grows s₀ s) : Grows s₀ (slotNext v s) := by
  unfold slotNext
  refine foldl_grows (fun s1 x h2 => ?_) h
  split
  · exact ite_grows h2 (slotTake_grows h2)
  · exact h2

theorem hostFinish_grows {c : HostCmd} (h : Grows s₀ s) : Grows s₀ (hostFinish c s) := by
  unfold hostFinish
  exact hostEnd_grows (ite_grows (toHost_grows h) h)

theorem hostGo_grows {c : HostCmd} (h : Grows s₀ s) : Grows s₀ (hostGo c s) := by
  unfold hostGo
  exact ite_grows (slotTake_grows h) (ite_grows (hostFinish_grows (modCmd_grows (foldl_grows_snd (fun _ _ h2 =>
      rangeIssue_grows h2) h))) (modCmd_grows (foldl_grows_snd (fun _ _ h2 => rangeIssue_grows h2) h)))

theorem hostStage_grows {c : HostCmd} (h : Grows s₀ s) : Grows s₀ (hostStage c s) := by
  unfold hostStage
  split
  · exact slotNext_grows (atomicRun_grows h)
  · exact slotNext_grows (atomicRun_grows h)
  · exact slotNext_grows (atomicRun_grows h)
  · exact hostFinish_grows h

theorem hostStep_grows {id : ℕ} {lost : Bool} (h : Grows s₀ s) : Grows s₀ (hostStep id lost s) := by
  unfold hostStep
  split
  · exact h
  · exact ite_grows (hostStage_grows (modCmd_grows h)) (modCmd_grows h)

/-! ### The model's file `RmOpen` -/

theorem takeMembers_grows {x : VolSt} (h : Grows s₀ s) : Grows s₀ (takeMembers x s) := by
  unfold takeMembers
  exact foldl_grows (fun _ _ h2 => ite_grows (mbrState_grows h2) (ite_grows (mbrState_grows h2) h2)) h

theorem readSb_grows {m block : ℕ} (h : Grows s₀ s) : Grows s₀ (readSb m block s).2 := by
  unfold readSb
  extract_lets +onlyGivenNames b magic
  split
  rename_i s1 _ s2 e
  have h2 : Grows s₀ s2 := Grows.of_snd e (examDetect_grows h)
  exact h2

theorem bestSb_grows {m : ℕ} (h : Grows s₀ s) : Grows s₀ (bestSb m s).2 := by
  unfold bestSb
  split
  rename_i s1 _ s2 e
  have h2 : Grows s₀ s2 := Grows.of_snd e (readSb_grows h)
  split
  rename_i s3 _ s4 e2
  have h3 : Grows s₀ s4 := Grows.of_snd e2 (readSb_grows h2)
  exact h3

theorem jrnReplay_grows {v fuel : ℕ} {area : List Host.Cell} {seq : ℕ} {out : List (ℕ × List Byte)} (h :
    Grows s₀ s) : Grows s₀ (jrnReplay v fuel area seq out s).2.2.2 := by
  induction fuel generalizing area seq out s with
  | zero =>
    rw [jrnReplay]
    exact h
  | succ fuel ih =>
    rw [jrnReplay]
    split
    rename_i s1 _ s2 e
    have h2 : Grows s₀ s2 := Grows.of_snd e (examDetect_grows h)
    split
    · exact h2
    · exact ih h2

theorem mirrorHeader_grows {k : ℕ} (h : Grows s₀ s) : Grows s₀ (mirrorHeader k s).2 := by
  unfold mirrorHeader
  extract_lets one
  have hone : ∀ o s, Grows s₀ s → Grows s₀ (one o s).2 := by
    intro o s hs
    unfold one
    extract_lets
    split
    rename_i s1 e1
    have h1 : Grows s₀ s1 := Grows.of_snd e1 (examDetect_grows hs)
    exact h1
  clear_value one
  split
  rename_i s1 e1
  split
  rename_i s2 e2
  have h1 : Grows s₀ s1 := Grows.of_snd e1 (hone 0 s h)
  have h2 : Grows s₀ s2 := Grows.of_snd e2 (hone 0x40 s1 h1)
  exact h2

theorem walkIndex_grows {v clip : ℕ} {blocks : List ℕ} (h : Grows s₀ s) : Grows s₀ (walkIndex v clip blocks s).2 := by
  unfold walkIndex
  refine foldl_grows_snd (fun s1 x h2 => ?_) h
  split
  rename_i s1 _ _ _ _ _ s2
  extract_lets +onlyGivenNames b t n mine
  split
  rename_i s3 _ s4 e
  have h3 : Grows s₀ s4 := Grows.of_snd e (ite_grows_snd (examDetect_grows h2) h2)
  exact ite_grows_snd h3 h3

theorem recoverMirror_grows {v k id : ℕ} {x : Recovery × State} (h :
    Grows s₀ x.2) : Grows s₀ (recoverMirror v k id x).2 := by
  unfold recoverMirror
  split
  rename_i s1 _ s2
  split
  · rename_i s3 s4 e
    have h2 : Grows s₀ s4 := Grows.of_snd e (mirrorHeader_grows h)
    exact h2
  · rename_i s3 _ s4 e
    have h2 : Grows s₀ s4 := Grows.of_snd e (mirrorHeader_grows h)
    split
    · exact h2
    · extract_lets +onlyGivenNames n clip frames prev part
      split
      rename_i s5 _ s6 e2
      have h3 : Grows s₀ s6 := Grows.of_snd e2 (ite_grows_snd h2 (walkIndex_grows h2))
      extract_lets +onlyGivenNames last
      split
      split
      · exact h3
      · exact h3

theorem recoverClip_grows {v clip : ℕ} {x : Recovery × State} (h :
    Grows s₀ x.2) : Grows s₀ (recoverClip v clip x).2 := by
  unfold recoverClip
  split
  rename_i s1 _ s2
  extract_lets +onlyGivenNames e
  split
  · exact h
  · split
    rename_i s3 _ _ _ _ _ s4 e2
    have h2 : Grows s₀ s4 := Grows.of_snd e2 (walkIndex_grows h)
    exact h2

theorem readMembers_grows {v : ℕ} (h : Grows s₀ s) : Grows s₀ (readMembers v s).2 := by
  unfold readMembers
  refine foldl_grows_snd (fun s1 x h2 => ?_) h
  split
  rename_i s1 _ s2
  extract_lets +onlyGivenNames m
  split
  · exact h2
  · split
    rename_i s3 _ s4 e
    have h3 : Grows s₀ s4 := Grows.of_snd e (bestSb_grows h2)
    split
    · exact h3
    · exact h3

theorem openFailed_grows {v : ℕ} (h : Grows s₀ s) : Grows s₀ (openFailed v s) := by
  unfold openFailed
  exact raise_grows (setF_grows h)

theorem openReads_grows {v : ℕ} {o : VolOpening} {l : List (ℕ × ℕ × ℕ)} (h :
    Grows s₀ s) : Grows s₀ (openReads v o l s) := by
  unfold openReads
  exact taskStart_grows (Grows.update h)

theorem volOpen_grows {v : ℕ} (h : Grows s₀ s) : Grows s₀ (volOpen v s) := by
  unfold volOpen
  exact ite_grows (flag_grows h) (openReads_grows (setF_grows h))

theorem openTake_grows {v : ℕ} (h : Grows s₀ s) : Grows s₀ (openTake v s) := by
  unfold openTake
  split
  · rename_i s1 s2 e
    have h2 : Grows s₀ s2 := Grows.of_snd e (readMembers_grows h)
    exact openFailed_grows h2
  · rename_i s1 _ s2 e
    have h2 : Grows s₀ s2 := Grows.of_snd e (readMembers_grows h)
    exact ite_grows (openFailed_grows h2) (openReads_grows (Grows.update (setPair_grows (takeMembers_grows h2))))

theorem openMembers_grows {v : ℕ} {x : VolSt} (h : Grows s₀ s) : Grows s₀ (openMembers v x s) := by
  unfold openMembers
  exact setF_grows (takeMembers_grows (foldl_grows (fun _ _ h2 => ite_grows (mbrState_grows h2) h2) h))

theorem openJournal_grows {v : ℕ} {x : VolSt} (h : Grows s₀ s) : Grows s₀ (openJournal v x s) := by
  unfold openJournal
  split
  rename_i s1 e
  have h1 : Grows s₀ s1 := Grows.of_third e (jrnReplay_grows h)
  exact openReads_grows (setF_grows (modVol_grows (openMembers_grows h1)))

theorem openRecover_grows {v : ℕ} {o : VolOpening} {x : VolSt} (h : Grows s₀ s) : Grows s₀ (openRecover v o x s) := by
  obtain ⟨body, hbody⟩ : ∃ f, f = openRecover := ⟨_, rfl⟩
  obtain ⟨recoverMirror', hrecoverMirror'⟩ : ∃ f, f = recoverMirror := ⟨_, rfl⟩
  have hrecoverMirror := @recoverMirror_grows s₀
  obtain ⟨recoverClip', hrecoverClip'⟩ : ∃ f, f = recoverClip := ⟨_, rfl⟩
  have hrecoverClip := @recoverClip_grows s₀
  rw [← hbody]
  delta openRecover at hbody
  rw [← hrecoverMirror'] at hrecoverMirror hbody
  rw [← hrecoverClip'] at hrecoverClip hbody
  subst hbody
  beta_reduce
  split
  rename_i s1 _ s2 e
  have h2 : Grows s₀ s2 := Grows.of_snd e (foldl_grows_snd (fun _ _ h2 => hrecoverMirror h2) h)
  split
  rename_i s3 _ s4 e2
  have h3 : Grows s₀ s4 := Grows.of_snd e2 (foldl_grows_snd (fun _ _ h3 => hrecoverClip h3) h2)
  split
  rename_i s5 _ s6 e3
  have h4 : Grows s₀ s6 := Grows.of_snd e3 (journal_grows h3)
  split
  rename_i s7 _ s8 e4
  have h5 : Grows s₀ s8 := Grows.of_snd e4 (journal_grows h4)
  exact taskStart_grows (modVol_grows h5)

theorem readSlot_grows {v i id : ℕ} (h : Grows s₀ s) : Grows s₀ (readSlot v i id s).2 := by
  unfold readSlot
  extract_lets +onlyGivenNames a h1 n magic sound data
  split
  rename_i s1 _ s2 e
  have h2 : Grows s₀ s2 := Grows.of_snd e (ite_grows_snd (examDetect_grows h) h)
  exact h2

theorem replayRun_grows {v : ℕ} {x : VolSt} (h : Grows s₀ s) : Grows s₀ (replayRun v x s) := by
  unfold replayRun
  split
  rename_i s1 e
  have h1 : Grows s₀ s1 := Grows.of_snd e (foldl_grows_snd (fun _ i hz => readSlot_grows (i := i) (id := x.id) hz) h)
  exact taskStart_grows (Grows.update h1)

theorem openStep_grows {v : ℕ} {o : VolOpening} (h : Grows s₀ s) : Grows s₀ (openStep v o s) := by
  unfold openStep
  extract_lets +onlyGivenNames _ s1
  have h1 : Grows s₀ s1 := Grows.update h
  split
  · split
    · exact replayRun_grows h1
    · exact h1
  · split
    · exact h1
    · split
      · exact openTake_grows h1
      · exact openJournal_grows h1
      · exact openRecover_grows h1
      · exact h1

theorem openPump_grows (h : Grows s₀ s) : Grows s₀ (openPump s) := by
  unfold openPump
  refine foldl_grows (fun s1 x h2 => ?_) h
  split
  · exact openStep_grows h2
  · exact h2

/-! ### The model's file `RmMember` -/

theorem mbrCtrlWrite_grows {m : ℕ} {v : Word} (h : Grows s₀ s) : Grows s₀ (mbrCtrlWrite m v s) := by
  unfold mbrCtrlWrite
  extract_lets +onlyGivenNames st n s1 s2
  have h1 : Grows s₀ s1 := ite_grows (flag_grows h) h
  have h2 : Grows s₀ s2 := ite_grows (ite_grows (setF_grows (modMbr_grows h1)) (setF_grows (mbrState_grows
      (modMbr_grows (setF_grows h1))))) h1
  exact ite_grows (flag_grows h) (ite_grows (flag_grows (modMbr_grows h2)) h2)

theorem execMemberAttach_grows {r : Requester} {m : ℕ} {v : Word} (h :
    Grows s₀ s) : GrowsNext s₀ (execMemberAttach r m v s) := by
  unfold execMemberAttach
  exact guardOk_grows (writeBy_grows (fun _ h2 => mbrCtrlWrite_grows h2) h)

theorem execMemberDetach_grows {r : Requester} {m : ℕ} {v : Word} (h :
    Grows s₀ s) : GrowsNext s₀ (execMemberDetach r m v s) := by
  unfold execMemberDetach
  exact guardOk_grows (writeBy_grows (fun _ h2 => mbrCtrlWrite_grows h2) h)

theorem execMemberReadmit_grows {r : Requester} {m : ℕ} {v : Word} (h :
    Grows s₀ s) : GrowsNext s₀ (execMemberReadmit r m v s) := by
  unfold execMemberReadmit
  exact guardOk_grows (writeBy_grows (fun _ h2 => mbrCtrlWrite_grows h2) h)

theorem createPair_grows {m q : ℕ} (h : Grows s₀ s) : Grows s₀ (createPair m q s) := by
  unfold createPair
  exact adminDone_grows (adminDone_grows h)

theorem attachAdmin_grows {m : ℕ} {r : AttachResult} {c : ℕ} (h : Grows s₀ s) : Grows s₀ (attachAdmin m r c s) := by
  unfold attachAdmin
  split
  · exact h
  · extract_lets +onlyGivenNames s1 s2 s3
    have h1 : Grows s₀ s1 := adminDone_grows h
    have h2 : Grows s₀ s2 := foldl_grows (fun _ _ h2 => createPair_grows h2) h1
    have h3 : Grows s₀ s3 := adminDone_grows (adminDone_grows h2)
    exact ite_grows h1 (ite_grows (adminDone_grows h3) h3)

theorem linkTrained_grows {m speed width : ℕ} (h : Grows s₀ s) : Grows s₀ (linkTrained m speed width s) := by
  unfold linkTrained
  exact setF_grows (setF_grows h)

theorem attachDone_grows {m : ℕ} {r : AttachResult} (h : Grows s₀ s) : Grows s₀ (attachDone m r s) := by
  unfold attachDone
  split
  · exact h
  · extract_lets +onlyGivenNames readm s1 c s2 s3 s4 s5 s6 gen
    have h1 : Grows s₀ s1 := setF_grows h
    have h2 : Grows s₀ s2 := modMbr_grows h1
    have h3 : Grows s₀ s3 := attachAdmin_grows (ite_grows (linkTrained_grows h2) h2)
    have h4 : Grows s₀ s4 := modMbr_grows h3
    have h5 : Grows s₀ s5 := setF_grows (setF_grows h4)
    have h6 : Grows s₀ s6 := setPair_grows h5
    split
    · exact raise_grows (setF_grows (mbrState_grows (modMbr_grows h3)))
    · split
      · exact raise_grows (mbrState_grows (modVol_grows h6))
      · exact raise_grows (mbrState_grows h6)

theorem execAttachComplete_grows {m : ℕ} {r : AttachResult} (h :
    Grows s₀ s) : GrowsNext s₀ (execAttachComplete m r s) := by
  unfold execAttachComplete
  exact guardOk_grows (ite_grows (attachDone_grows h) h)

theorem ownerStep_grows {o : RmOwner} {lost : Bool} (h : Grows s₀ s) : Grows s₀ (ownerStep o lost s) := by
  unfold ownerStep
  split
  · exact taskStep_grows h
  · exact hostStep_grows h
  · exact flightFree_grows (modStr_grows h)

theorem mediaStep_grows {m : ℕ} {op : NvOp} (h : Grows s₀ s) : Grows s₀ (mediaStep m op s) := by
  unfold mediaStep
  split
  · exact Grows.update h
  · exact h

theorem memberState_grows {v i role gen : ℕ} (h : Grows s₀ s) : Grows s₀ (memberState v i role gen s) := by
  unfold memberState
  exact metaWrite_grows h

theorem hostMoves_grows {cmds : List NvCmd} {new : Option ℕ} {other : Bool} (h :
    Grows s₀ s) : Grows s₀ (hostMoves cmds new other s) := by
  unfold hostMoves
  refine foldl_grows (fun s1 x h2 => ?_) h
  split
  · split
    · exact issue_grows h2
    · exact issue_grows h2
    · exact hostStep_grows h2
  · exact h2

theorem hostLose_grows {m : ℕ} (h : Grows s₀ s) : Grows s₀ (hostLose m s) := by
  unfold hostLose
  refine foldl_grows (fun s1 x h2 => ?_) h
  split
  · exact modCmd_grows h2
  · exact h2

theorem positionLost_grows {v p : ℕ} (h : Grows s₀ s) : Grows s₀ (positionLost v p s) := by
  unfold positionLost
  exact foldl_grows (fun _ _ h2 => clipBreak_grows h2) (setF_grows (setF_grows h))

theorem spareSwap_grows {v p m q : ℕ} {x : VolSt} {t : State} (h : Grows s₀ s)
    (e : spareSwap v p x s = some (m, q, t)) : Grows s₀ t := by
  unfold spareSwap at e
  split at e
  · split at e
    · obtain ⟨-, rfl⟩ := Prod.mk.inj (Prod.mk.inj (Option.some.inj e)).2
      exact raise_grows (hostLose_grows (memberState_grows (modVol_grows h)))
    · cases e
  · cases e

theorem layoutReact_grows {v : ℕ} {x : VolSt} {l : VolSlot} {cmds : List NvCmd} (h : Grows s₀ s) :
    Grows s₀ (layoutReact v x l cmds s) := by
  unfold layoutReact
  extract_lets +onlyGivenNames flightsOf others
  have hflights : ∀ s, Grows s₀ s → Grows s₀ (flightsOf s) := by
    intro s h
    refine foldl_grows (fun s c h => ?_) h
    split
    · exact ownerStep_grows h
    · exact h
  refine ite_grows h (ite_grows ?_ ?_)
  · have h1 := hflights _ (hostMoves_grows (cmds := cmds) (new := none) (other := true) h)
    have h2 : Grows s₀ (((flightsOf (hostMoves cmds none true s)).streamsOf v).foldl
        (fun s k => markClip k 0x40 s) (flightsOf (hostMoves cmds none true s))) :=
      foldl_grows (fun _ _ h => markClip_grows h) h1
    exact ite_grows (setF_grows h2) h2
  · split
    · exact hostMoves_grows (foldl_grows (fun _ _ h => ite_grows (clipSplit_grows h) (clipBreak_grows h))
        (raise_grows (setF_grows (mbrState_grows (memberState_grows (modVol_grows h))))))
    · split
      · rename_i e
        exact raise_grows (hostMoves_grows (positionLost_grows (spareSwap_grows h e)))
      · exact raise_grows (hostMoves_grows (positionLost_grows h))

theorem abortAll_grows {m : ℕ} {cmds : List NvCmd} (h : Grows s₀ s) : Grows s₀ (abortAll m cmds s) := by
  unfold abortAll
  exact ite_grows (foldl_grows (fun _ _ h2 => adminPut_grows h2) h) h

theorem memberDead_grows {m : ℕ} {lost : List NvCmd} (h : Grows s₀ s) : Grows s₀ (memberDead m lost s) := by
  unfold memberDead
  extract_lets +onlyGivenNames gen cmds all vol s1 s2 s3 s4 s5
  have h1 : Grows s₀ s1 := abortAll_grows (modMbr_grows h)
  have h2 : Grows s₀ s2 := setF_grows (setF_grows (mbrState_grows h1))
  have h3 : Grows s₀ s3 := by
    unfold s3
    clear_value gen vol
    split
    · exact h2
    · exact memberState_grows (modVol_grows h2)
  have h4 : Grows s₀ s4 := raise_grows h3
  have h5 : Grows s₀ s5 := by
    unfold s5
    clear_value cmds vol
    split
    · exact h4
    · split
      · exact layoutReact_grows h4
      · exact h4
  refine foldl_grows (fun s6 x h6 => ?_) h5
  split
  · exact ownerStep_grows h6
  · exact flightFree_grows h6
  · exact h6

theorem cqeWrite_grows {m : ℕ} {c : NvCmd} {ok : Bool} (h : Grows s₀ s) : Grows s₀ (cqeWrite m c ok s) := by
  unfold cqeWrite
  exact dmaPut_grows (modMbr_grows h)

theorem retryCmd_grows {m : ℕ} {c : NvCmd} {det : ℕ} {inj : Bool} (h :
    Grows s₀ s) : Grows s₀ (retryCmd m c det inj s) := by
  unfold retryCmd
  exact raise_grows (bump_grows (submit_grows h))

theorem cmdFailed_grows {m : ℕ} {c : NvCmd} {det : ℕ} {inj completed : Bool} (h :
    Grows s₀ s) : Grows s₀ (cmdFailed m c det inj completed s) := by
  unfold cmdFailed
  exact ite_grows (retryCmd_grows (ite_grows (modMbr_grows h) (modMbr_grows h))) (ite_grows (memberDead_grows
      (modMbr_grows (lasting_grows h))) (memberDead_grows (lasting_grows h)))

theorem fenced_grows {m : ℕ} {inj : Bool} (h : Grows s₀ s) : Grows s₀ (fenced m inj s) := by
  unfold fenced
  exact detect_grows (ite_grows (bump_grows h) (raise_grows (modMbr_grows (bump_grows h))))

theorem fencedReal_grows {m : ℕ} (h : Grows s₀ s) : Grows s₀ (fencedReal m s) := by
  unfold fencedReal
  split
  rename_i s1 _ s2 e
  have h2 : Grows s₀ s2 := Grows.of_snd e (examine_grows h)
  exact fenced_grows h2

theorem completion_grows {m cid : ℕ} {ok : Bool} (h : Grows s₀ s) : Grows s₀ (completion m cid ok s) := by
  unfold completion
  extract_lets +onlyGivenNames x drop
  split
  · exact ite_grows (fencedReal_grows h) h
  · extract_lets +onlyGivenNames s1 s2
    have h1 : Grows s₀ s1 := cqeWrite_grows h
    have h2 : Grows s₀ s2 := modMbr_grows (ite_grows (mediaStep_grows h1) h1)
    split
    · exact fencedReal_grows (setF_grows h2)
    · split
      · split
        · exact flightFree_grows h2
        · exact h2
      · split
        rename_i s3 _ s4 e
        have h3 : Grows s₀ s4 := Grows.of_snd e (examine_grows h1)
        split
        rename_i s5 _ s6 e2
        have h4 : Grows s₀ s6 := Grows.of_snd e2 (examine_grows h3)
        split
        rename_i s7 _ s8 e3
        have h5 : Grows s₀ s8 := Grows.of_snd e3 (examine_grows h4)
        split
        rename_i s9 _ s10 e4
        have h6 : Grows s₀ s10 := Grows.of_snd e4 (examine_grows h5)
        split
        · exact memberDead_grows (detect_grows (modMbr_grows h6))
        · exact ite_grows (fenced_grows h6) (ite_grows (cmdFailed_grows h6) (ite_grows (cmdFailed_grows h6)
            (ownerStep_grows (mediaStep_grows (modMbr_grows (ite_grows (transient_grows h6) h6))))))

theorem execNvmeCompletion_grows {m : ℕ} {cid : BitVec 16} {ok : Bool} (h :
    Grows s₀ s) : GrowsNext s₀ (execNvmeCompletion m cid ok s) := by
  unfold execNvmeCompletion
  exact guardOk_grows (ite_grows (openPump_grows (completion_grows (hostClear_grows h))) h)

theorem cmdTimeout_grows {m cid : ℕ} (h : Grows s₀ s) : Grows s₀ (cmdTimeout m cid s) := by
  unfold cmdTimeout
  split
  · exact h
  · split
    rename_i s1 _ s2 e
    have h2 : Grows s₀ s2 := Grows.of_snd e (examine_grows (advanceTo_grows h))
    exact cmdFailed_grows h2

theorem execNvmeTimeout_grows {m : ℕ} {cid : BitVec 16} (h : Grows s₀ s) : GrowsNext s₀ (execNvmeTimeout m cid s) := by
  unfold execNvmeTimeout
  exact guardOk_grows (ite_grows (openPump_grows (cmdTimeout_grows (hostClear_grows h))) h)

theorem linkDown_grows {m : ℕ} (h : Grows s₀ s) : Grows s₀ (linkDown m s) := by
  unfold linkDown
  extract_lets +onlyGivenNames st s1
  have h1 : Grows s₀ s1 := modMbr_grows h
  split
  · exact h
  · split
    · split
      rename_i s2 _ s3 e
      have h2 : Grows s₀ s3 := Grows.of_snd e (examine_grows h1)
      exact memberDead_grows (detect_grows h2)
    · exact ite_grows (mbrState_grows h1) h1

theorem execRootPortLinkDown_grows {m : ℕ} (h : Grows s₀ s) : GrowsNext s₀ (execRootPortLinkDown m s) := by
  unfold execRootPortLinkDown
  exact guardOk_grows (ite_grows (openPump_grows (linkDown_grows (hostClear_grows h))) h)

theorem linkReturn_grows {m speed width : ℕ} (h : Grows s₀ s) : Grows s₀ (linkReturn m speed width s) := by
  unfold linkReturn
  exact ite_grows (raise_grows (linkTrained_grows (mbrState_grows (modMbr_grows h)))) h

theorem execMemberLinkReturn_grows {m speed width : ℕ} (h :
    Grows s₀ s) : GrowsNext s₀ (execMemberLinkReturn m speed width s) := by
  unfold execMemberLinkReturn
  exact guardOk_grows (ite_grows (linkReturn_grows h) h)

/-! ### The model's file `RmVol` -/

theorem zeroHead_grows {x : VolSt} {id : ℕ} (h : Grows s₀ s) : Grows s₀ (zeroHead x id s).2 := by
  unfold zeroHead
  exact foldl_grows_snd (fun _ _ h2 => foldl_grows_snd (fun _ _ h3 => issue_grows h3) h2) h

theorem volFormat_grows {v : ℕ} (h : Grows s₀ s) : Grows s₀ (volFormat v s) := by
  unfold volFormat
  split
  · exact flag_grows h
  · extract_lets +onlyGivenNames _ s1 s2 id
    have h1 : Grows s₀ s1 := Grows.update h
    have h2 : Grows s₀ s2 := setF_grows (setF_grows (setF_grows (takeMembers_grows h1)))
    split
    rename_i s3 _ s4 e
    have h3 : Grows s₀ s4 := Grows.of_snd e (zeroHead_grows (Grows.update h2))
    exact Grows.update h3

theorem volDrop_grows {v : ℕ} (h : Grows s₀ s) : Grows s₀ (volDrop v s) := by
  unfold volDrop
  exact ite_grows (Grows.update h) h

theorem volClose_grows {v : ℕ} (h : Grows s₀ s) : Grows s₀ (volClose v s) := by
  unfold volClose
  extract_lets +onlyGivenNames s1 s2
  have h1 : Grows s₀ s1 := volDrop_grows h
  have h2 : Grows s₀ s2 := modVol_grows h1
  split
  · exact ite_grows (setF_grows h1) h1
  · exact volShut_grows (foldl_grows (fun _ _ h3 => clipClose_grows h3) h2)

theorem volCtrlWrite_grows {v : ℕ} {w : Word} (h : Grows s₀ s) : Grows s₀ (volCtrlWrite v w s) := by
  unfold volCtrlWrite
  split
  split
  · exact flag_grows h
  · extract_lets +onlyGivenNames s1 s2
    have h1 : Grows s₀ s1 := ite_grows (volFormat_grows h) h
    have h2 : Grows s₀ s2 := ite_grows (openPump_grows (volOpen_grows h1)) h1
    exact ite_grows (volClose_grows h2) h2

theorem execVolOpen_grows {r : Requester} {v : ℕ} {w : Word} (h : Grows s₀ s) : GrowsNext s₀ (execVolOpen r v w s) := by
  unfold execVolOpen
  exact guardOk_grows (writeBy_grows (fun _ h2 => volCtrlWrite_grows h2) h)

theorem execVolFormat_grows {r : Requester} {v : ℕ} {w : Word} (h :
    Grows s₀ s) : GrowsNext s₀ (execVolFormat r v w s) := by
  unfold execVolFormat
  exact guardOk_grows (writeBy_grows (fun _ h2 => volCtrlWrite_grows h2) h)

theorem execVolClose_grows {r : Requester} {v : ℕ} {w : Word} (h :
    Grows s₀ s) : GrowsNext s₀ (execVolClose r v w s) := by
  unfold execVolClose
  exact guardOk_grows (writeBy_grows (fun _ h2 => volCtrlWrite_grows h2) h)

/-! ### The model's file `Oep` -/

theorem execOepLinkUp_grows {speed width : ℕ} (h : Grows s₀ s) : GrowsNext s₀ (execOepLinkUp speed width s) := by
  unfold execOepLinkUp
  exact next_grows (ite_grows (pwrNext_grows (raise_grows (Grows.update (setF_grows (setF_grows (flag_grows
      (hostClear_grows h))))))) (hostClear_grows h))

theorem execCtrlEnable_grows {asqs acqs : ℕ} (h : Grows s₀ s) : GrowsNext s₀ (execCtrlEnable asqs acqs s) := by
  unfold execCtrlEnable
  exact guardOk_grows (ite_grows (raise_grows (flag_grows (flag_grows (Grows.update (hostClear_grows h)))))
      (hostClear_grows h))

theorem drainEnd_grows (h : Grows s₀ s) : Grows s₀ (drainEnd s) := by
  unfold drainEnd
  split
  · exact h
  · exact ite_grows (raise_grows (ite_grows (Grows.update h) (setF_grows (Grows.update h)))) h

theorem drainStart_grows {cause : ℕ} (h : Grows s₀ s) : Grows s₀ (drainStart cause s) := by
  unfold drainStart
  exact ite_grows h (foldl_grows (fun _ _ h2 => ite_grows (hostGone_grows h2) h2) (ite_grows (Grows.update h)
      (setF_grows (Grows.update h))))

theorem execCtrlReset_grows {cause : CtrlResetCause} (h : Grows s₀ s) : GrowsNext s₀ (execCtrlReset cause s) := by
  unfold execCtrlReset
  exact next_grows (ite_grows (drainStart_grows (hostClear_grows h)) (hostClear_grows h))

theorem execCtrlResetDone_grows (h : Grows s₀ s) : GrowsNext s₀ (execCtrlResetDone s) := by
  unfold execCtrlResetDone
  exact next_grows (ite_grows (drainEnd_grows (hostClear_grows h)) h)

theorem execOepLinkDown_grows (h : Grows s₀ s) : GrowsNext s₀ (execOepLinkDown s) := by
  unfold execOepLinkDown
  refine next_grows ?_
  extract_lets +onlyGivenNames s1 s2 _ s3
  have h1 : Grows s₀ s1 := hostClear_grows h
  have h2 : Grows s₀ s2 := raise_grows (setF_grows h1)
  have h3 : Grows s₀ s3 := ite_grows (drainStart_grows h2) (ite_grows (Grows.update h2) h2)
  exact ite_grows (pwrNext_grows h3) h1

theorem execSqDoorbell_grows {q tail : ℕ} (h : Grows s₀ s) : GrowsNext s₀ (execSqDoorbell q tail s) := by
  unfold execSqDoorbell
  refine next_grows ?_
  extract_lets +onlyGivenNames s1
  have h1 : Grows s₀ s1 := hostClear_grows h
  split
  · exact ite_grows (Grows.update h1) h1
  · exact h1

theorem execCqDoorbell_grows {q head : ℕ} (h : Grows s₀ s) : GrowsNext s₀ (execCqDoorbell q head s) := by
  unfold execCqDoorbell
  refine next_grows ?_
  extract_lets +onlyGivenNames s1
  have h1 : Grows s₀ s1 := hostClear_grows h
  split
  · exact ite_grows (cqDrain_grows (Grows.update h1)) h1
  · exact h1

theorem execCommandFetch_grows {q : ℕ} {e : Sqe} {err : Option OepError} (h :
    Grows s₀ s) : GrowsNext s₀ (execCommandFetch q e err s) := by
  unfold execCommandFetch
  refine next_grows ?_
  extract_lets +onlyGivenNames s1
  have h1 : Grows s₀ s1 := hostClear_grows h
  split
  · exact h1
  · split
    · exact h1
    · extract_lets +onlyGivenNames _ s2 s3 s4 c aborts _ s5
      have h2 : Grows s₀ s2 := Grows.update h1
      have h3 : Grows s₀ s3 := examDetect_grows h2
      have h4 : Grows s₀ s4 := examDetect_grows (examDetect_grows h3)
      have h5 : Grows s₀ s5 := Grows.update h4
      exact ite_grows (hostEnd_grows h5) (ite_grows (hostEnd_grows h5) (ite_grows (hostEnd_grows h5) (ite_grows
          (hostEnd_grows (bump_grows h5)) h5)))

theorem onCmd_grows {admin : Bool} {q cid op : ℕ} {k : HostCmd → State → State}
    (h1 : ∀ y1 y2, Grows s₀ y2 → Grows s₀ (k y1 y2)) (h2 : Grows s₀ s) : GrowsNext s₀ (onCmd admin q cid op k s) := by
  unfold onCmd
  refine next_grows ?_
  extract_lets +onlyGivenNames s1 s2
  have hs1 : Grows s₀ s1 := hostClear_grows h2
  have hs2 : Grows s₀ s2 := advanceTo_grows hs1
  split
  · exact ite_grows (h1 _ _ hs1) (h1 _ _ (Grows.update hs2))
  · exact hs1

theorem execIdentify_grows {q cid : ℕ} (h : Grows s₀ s) : GrowsNext s₀ (execIdentify q cid s) := by
  unfold execIdentify
  obtain ⟨dmaTake', hdmaTake'⟩ : ∃ f, f = dmaTake := ⟨_, rfl⟩
  have hdmaTake := @dmaTake_grows s₀
  rw [← hdmaTake'] at hdmaTake ⊢
  refine onCmd_grows (fun _ s hs => ?_) h
  split
  · exact ite_grows (hostEnd_grows hs) (hostEnd_grows (toHost_grows hs))
  · exact hostEnd_grows (toHost_grows (hdmaTake hs))
  · exact hostEnd_grows (toHost_grows hs)
  · exact hostEnd_grows hs

theorem execGetLogPage_grows {q cid : ℕ} (h : Grows s₀ s) : GrowsNext s₀ (execGetLogPage q cid s) := by
  unfold execGetLogPage
  refine onCmd_grows (fun _ s hs => ?_) h
  extract_lets +onlyGivenNames lid n
  split
  rename_i s1 _ s2 e
  have h2 : Grows s₀ s2 := Grows.of_snd e (ite_grows_snd (dmaTake_grows hs) hs)
  split
  · exact hostEnd_grows h2
  · exact hostEnd_grows (toHost_grows (draw_grows h2))

theorem execCreateIoCq_grows {q cid : ℕ} (h : Grows s₀ s) : GrowsNext s₀ (execCreateIoCq q cid s) := by
  unfold execCreateIoCq
  exact onCmd_grows (fun _ _ h2 => ite_grows (hostEnd_grows h2) (ite_grows (hostEnd_grows h2) (ite_grows
      (hostEnd_grows h2) (ite_grows (hostEnd_grows h2) (hostEnd_grows (Grows.update h2)))))) h

theorem execDeleteIoCq_grows {q cid : ℕ} (h : Grows s₀ s) : GrowsNext s₀ (execDeleteIoCq q cid s) := by
  unfold execDeleteIoCq
  exact onCmd_grows (fun _ _ h2 => ite_grows (hostEnd_grows h2) (ite_grows (hostEnd_grows h2) (hostEnd_grows
      (Grows.update h2)))) h

theorem execCreateIoSq_grows {q cid : ℕ} (h : Grows s₀ s) : GrowsNext s₀ (execCreateIoSq q cid s) := by
  unfold execCreateIoSq
  exact onCmd_grows (fun _ _ h2 => ite_grows (hostEnd_grows h2) (ite_grows (hostEnd_grows h2) (ite_grows
      (hostEnd_grows h2) (ite_grows (hostEnd_grows h2) (hostEnd_grows (Grows.update h2)))))) h

theorem execDeleteIoSq_grows {q cid : ℕ} (h : Grows s₀ s) : GrowsNext s₀ (execDeleteIoSq q cid s) := by
  unfold execDeleteIoSq
  refine onCmd_grows (fun _ s hs => ?_) h
  extract_lets +onlyGivenNames id s1 s2
  have h1 : Grows s₀ s1 := foldl_grows (fun _ _ h2 => ite_grows (hostEnd_grows h2) h2) hs
  have h2 : Grows s₀ s2 := modCmd_grows h1
  split
  · exact hostEnd_grows hs
  · exact ite_grows (hostEnd_grows hs) (sqReap_grows (Grows.update h2))

theorem execAbort_grows {q cid : ℕ} (h : Grows s₀ s) : GrowsNext s₀ (execAbort q cid s) := by
  unfold execAbort
  refine onCmd_grows (fun _ s hs => ?_) h
  extract_lets +onlyGivenNames sq id
  split
  · exact hostEnd_grows (bump_grows (hostEnd_grows hs))
  · exact hostEnd_grows (bump_grows hs)

theorem execGetFeatures_grows {q cid : ℕ} (h : Grows s₀ s) : GrowsNext s₀ (execGetFeatures q cid s) := by
  unfold execGetFeatures
  refine onCmd_grows (fun _ s hs => ?_) h
  split
  · exact hostEnd_grows hs
  · exact hostEnd_grows hs

theorem notify_grows {dw0 : ℕ} (h : Grows s₀ s) : Grows s₀ (notify dw0 s) := by
  unfold notify
  split
  · exact post_grows (Grows.update h)
  · exact ite_grows h (Grows.update h)

theorem oepTempCheck_grows (h : Grows s₀ s) : Grows s₀ (oepTempCheck s) := by
  unfold oepTempCheck
  exact ite_grows (notify_grows (Grows.update h)) (Grows.update h)

theorem execSetFeatures_grows {q cid : ℕ} (h : Grows s₀ s) : GrowsNext s₀ (execSetFeatures q cid s) := by
  unfold execSetFeatures
  refine onCmd_grows (fun _ s hs => ?_) h
  extract_lets +onlyGivenNames fid v
  split
  · exact hostEnd_grows hs
  · clear_value fid v
    split
    · exact hostEnd_grows hs
    · exact hostEnd_grows hs
    · exact ite_grows (hostEnd_grows hs) (hostEnd_grows hs)
    · split
      · exact oepTempCheck_grows (hostEnd_grows (Grows.update hs))
      · exact hostEnd_grows hs
    · exact ite_grows (hostEnd_grows (Grows.update hs)) (hostEnd_grows hs)
    · exact hostEnd_grows (Grows.update hs)
    · exact hostEnd_grows (Grows.update hs)
    · exact hostEnd_grows (Grows.update hs)
    · exact hostEnd_grows hs

theorem execAsynchronousEventRequest_grows {q cid : ℕ} (h :
    Grows s₀ s) : GrowsNext s₀ (execAsynchronousEventRequest q cid s) := by
  unfold execAsynchronousEventRequest
  refine onCmd_grows (fun _ s hs => ?_) h
  split
  · exact hostEnd_grows hs
  · split
    · exact hostEnd_grows (Grows.update hs)
    · exact hostGone_grows (Grows.update hs)

theorem ioStart_grows {c : HostCmd} {first n : ℕ} (h : Grows s₀ s) : Grows s₀ (ioStart c first n s) := by
  unfold ioStart
  extract_lets +onlyGivenNames v c1 c2 s1 s2
  have h1 : Grows s₀ s1 := modCmd_grows h
  have h2 : Grows s₀ s2 := ite_grows (examDetect_grows (examDetect_grows h1)) h1
  split
  rename_i s3 _ s4 e
  have h3 : Grows s₀ s4 := Grows.of_snd e (lockAsk_grows h2)
  exact ite_grows (hostGo_grows h3) h3

theorem ioCmd_grows {c : HostCmd} (h : Grows s₀ s) : Grows s₀ (ioCmd c s) := by
  unfold ioCmd
  extract_lets +onlyGivenNames v
  split
  split
  · exact hostEnd_grows h
  · split
    · exact hostEnd_grows h
    · split
      · exact hostEnd_grows h
      · exact ioStart_grows h

theorem execNvmRead_grows {q cid : ℕ} (h : Grows s₀ s) : GrowsNext s₀ (execNvmRead q cid s) := by
  unfold execNvmRead
  exact onCmd_grows (fun _ _ h2 => ioCmd_grows h2) h

theorem execNvmWrite_grows {q cid : ℕ} (h : Grows s₀ s) : GrowsNext s₀ (execNvmWrite q cid s) := by
  unfold execNvmWrite
  exact onCmd_grows (fun _ _ h2 => ioCmd_grows h2) h

theorem execWriteZeroes_grows {q cid : ℕ} (h : Grows s₀ s) : GrowsNext s₀ (execWriteZeroes q cid s) := by
  unfold execWriteZeroes
  exact onCmd_grows (fun _ _ h2 => ioCmd_grows h2) h

theorem execFlush_grows {q cid : ℕ} (h : Grows s₀ s) : GrowsNext s₀ (execFlush q cid s) := by
  unfold execFlush
  exact onCmd_grows (fun _ _ h2 => ite_grows (hostEnd_grows h2) (hostEnd_grows h2)) h

theorem execDatasetManagement_grows {q cid : ℕ} (h : Grows s₀ s) : GrowsNext s₀ (execDatasetManagement q cid s) := by
  unfold execDatasetManagement
  refine onCmd_grows (fun _ s hs => ?_) h
  extract_lets +onlyGivenNames v lo hi
  split
  · exact hostEnd_grows hs
  · split
    · exact hostEnd_grows hs
    · split
      · exact hostEnd_grows hs
      · exact ioStart_grows hs

theorem lockResume_grows {o : RmOwner} (h : Grows s₀ s) : Grows s₀ (lockResume o s) := by
  unfold lockResume
  split
  · exact flightIssue_grows h
  · split
    · exact hostGo_grows h
    · exact h
  · exact h

theorem execLockGrant_grows (h : Grows s₀ s) : GrowsNext s₀ (execLockGrant s) := by
  unfold execLockGrant
  refine next_grows ?_
  extract_lets +onlyGivenNames s1
  have h1 : Grows s₀ s1 := hostClear_grows h
  split
  · split
    · split
      · exact lockResume_grows (lockGrant_grows h1)
      · exact h1
    · exact h1
  · split
    · exact flightIssue_grows h1
    · exact h1

theorem nsActivate_grows {v : ℕ} (h : Grows s₀ s) : Grows s₀ (nsActivate v s) := by
  unfold nsActivate
  exact ite_grows h (ite_grows (notify_grows (setF_grows (setF_grows (modVol_grows h)))) (setF_grows (setF_grows
      (modVol_grows h))))

theorem execNamespaceActivate_grows {v : ℕ} (h : Grows s₀ s) : GrowsNext s₀ (execNamespaceActivate v s) := by
  unfold execNamespaceActivate
  exact guardOk_grows (ite_grows (nsActivate_grows (hostClear_grows h)) h)

theorem replay_grows {v : ℕ} (h : Grows s₀ s) : Grows s₀ (replay v s) := by
  unfold replay
  split
  · exact ite_grows (taskEnd_grows h) h
  · exact ite_grows h (openPump_grows (openReads_grows h))

theorem execJournalReplay_grows {v : ℕ} (h : Grows s₀ s) : GrowsNext s₀ (execJournalReplay v s) := by
  unfold execJournalReplay
  exact guardOk_grows (ite_grows (replay_grows (hostClear_grows h)) h)

theorem ajWrite_grows {v a : ℕ} {w : Word} (h : Grows s₀ s) : Grows s₀ (ajWrite v a w s) := by
  unfold ajWrite
  exact ite_grows (flag_grows h) (plainWrite_grows h)

/-! ### The model's file `Thm` -/

theorem modThm_grows {f : ThmSt → ThmSt} (h : Grows s₀ s) : Grows s₀ (modThm f s) := by
  unfold modThm
  exact Grows.update h

theorem modPwr_grows {f : PwrSt → PwrSt} (h : Grows s₀ s) : Grows s₀ (modPwr f s) := by
  unfold modPwr
  exact Grows.update h

theorem modSens_grows {i : ℕ} {f : SensSt → SensSt} (h : Grows s₀ s) : Grows s₀ (modSens i f s) := by
  unfold modSens
  exact modThm_grows h

theorem sensTake_grows {i : ℕ} {r : ℤ} (h : Grows s₀ s) : Grows s₀ (sensTake i r s) := by
  unfold sensTake
  exact setF_grows (modSens_grows h)

theorem sensJudge_grows {i : ℕ} (h : Grows s₀ s) : Grows s₀ (sensJudge i s) := by
  unfold sensJudge
  split
  rename_i s1 _ s2 e
  have h2 : Grows s₀ s2 := Grows.of_snd e (examDetect_grows h)
  exact ite_grows (ite_grows (setF_grows (modSens_grows h2)) (modSens_grows h2)) (ite_grows (raise_grows (setF_grows
      (modSens_grows h2))) h2)

theorem sensMax_grows (h : Grows s₀ s) : Grows s₀ (sensMax s) := by
  unfold sensMax
  extract_lets +onlyGivenNames valid s1 n
  have h1 : Grows s₀ s1 := by
    unfold s1
    clear_value valid
    split
    · exact h
    · exact setF_grows h
  exact ite_grows (ite_grows h1 (raise_grows (modThm_grows h1))) (modThm_grows h1)

theorem levelSet_grows (h : Grows s₀ s) : Grows s₀ (levelSet s) := by
  unfold levelSet
  extract_lets +onlyGivenNames cur new s1 s2 s3
  have h1 : Grows s₀ s1 := raise_grows (setF_grows h)
  have h2 : Grows s₀ s2 := ite_grows (modThm_grows h1) h1
  have h3 : Grows s₀ s3 := ite_grows (foldl_grows (fun _ _ h3 => strCtrlWrite_grows h3) h2) h2
  exact ite_grows h (ite_grows (modPwr_grows h3) h2)

theorem wakeUp_grows {source : ℕ} (h : Grows s₀ s) : Grows s₀ (wakeUp source s) := by
  unfold wakeUp
  exact pwrNext_grows (padsUp_grows (raise_grows (examDetect_grows (Grows.updateCfg rfl (modPwr_grows (setF_grows
      (setF_grows (setF_grows
        (setF_grows (setF_grows (setF_grows (setF_grows (Grows.updateCfg rfl (setF_grows (setF_grows
      h)))))))))))))))

theorem heldWake_grows (h : Grows s₀ s) : Grows s₀ (heldWake s) := by
  unfold heldWake
  split
  · exact ite_grows (wakeUp_grows h) h
  · exact h

theorem thmSettle_grows (h : Grows s₀ s) : Grows s₀ (thmSettle s) := by
  unfold thmSettle
  exact heldWake_grows (oepTempCheck_grows (levelSet_grows (sensMax_grows h)))

theorem fastMark_grows {i : ℕ} (h : Grows s₀ s) : Grows s₀ (fastMark i s) := by
  unfold fastMark
  exact modThm_grows h

theorem vmonJudge_grows {v r : ℕ} (h : Grows s₀ s) : Grows s₀ (vmonJudge v r s) := by
  unfold vmonJudge
  extract_lets +onlyGivenNames out
  split
  rename_i s1 _ s2 e
  have h2 : Grows s₀ s2 := Grows.of_snd e (examine_grows h)
  exact ite_grows (ite_grows (lasting_grows (raise_grows (modThm_grows h2))) (ite_grows h2 (modThm_grows h2)))
      (ite_grows (transient_grows (bump_grows (modThm_grows h2))) (ite_grows (modThm_grows h2) h2))

theorem trimJudge_grows {pass : Bool} (h : Grows s₀ s) : Grows s₀ (trimJudge pass s) := by
  unfold trimJudge
  split
  rename_i s1 _ s2 e
  have h2 : Grows s₀ s2 := Grows.of_snd e (examine_grows h)
  exact ite_grows (ite_grows (lasting_grows (raise_grows (setF_grows (modThm_grows h2)))) (modThm_grows h2))
      (ite_grows (transient_grows (flag_grows (modThm_grows h2))) (flag_grows (modThm_grows h2)))

theorem execThermalSlowRound_grows {readings : List ℤ} {volts : List ℕ} {trims : Bool} (h :
    Grows s₀ s) : GrowsNext s₀ (execThermalSlowRound readings volts trims s) := by
  unfold execThermalSlowRound
  refine guardOk_grows ?_
  split
  · exact h
  · exact trimJudge_grows (foldl_grows (fun _ _ h2 => vmonJudge_grows h2) (thmSettle_grows (foldl_grows (fun _ _ h2
      => fastMark_grows (sensJudge_grows h2)) (foldl_grows (fun _ _ h2 => sensTake_grows h2) (modThm_grows
      (advanceTo_grows h))))))

theorem execThermalFastSample_grows {i : ℕ} {reading : ℤ} (h :
    Grows s₀ s) : GrowsNext s₀ (execThermalFastSample i reading s) := by
  unfold execThermalFastSample
  refine guardOk_grows ?_
  split
  · exact h
  · exact thmSettle_grows (sensJudge_grows (sensTake_grows (modThm_grows (advanceTo_grows h))))

theorem thmReadmitWrite_grows {v : Word} (h : Grows s₀ s) : Grows s₀ (thmReadmitWrite v s) := by
  unfold thmReadmitWrite
  exact foldl_grows (fun _ _ h2 => ite_grows (modSens_grows h2) h2) h

theorem execSensorReadmit_grows {r : Requester} {v : Word} (h :
    Grows s₀ s) : GrowsNext s₀ (execSensorReadmit r v s) := by
  unfold execSensorReadmit
  exact next_grows (writeBy_grows (fun _ h2 => thmReadmitWrite_grows h2) h)

theorem thrWrite_grows {v : Word} (h : Grows s₀ s) : Grows s₀ (thrWrite v s) := by
  unfold thrWrite
  exact ite_grows (plainWrite_grows h) (flag_grows h)

theorem t2Write_grows {v : Word} (h : Grows s₀ s) : Grows s₀ (t2Write v s) := by
  unfold t2Write
  exact ite_grows (flag_grows h) (plainWrite_grows h)

theorem wdtExpire_grows (h : Grows s₀ s) : Grows s₀ (wdtExpire s) := by
  unfold wdtExpire
  exact ite_grows h (raise_grows (modPwr_grows (examDetect_grows h)))

theorem wdtRestart_grows (h : Grows s₀ s) : Grows s₀ (wdtRestart s) := by
  unfold wdtRestart
  exact modPwr_grows h

theorem wdtCfgWrite_grows {r : Requester} {v : Word} (h : Grows s₀ s) : Grows s₀ (wdtCfgWrite r v s) := by
  unfold wdtCfgWrite
  exact ite_grows (flag_grows h) (wdtRestart_grows (plainWrite_grows h))

theorem wdtKickWrite_grows {r : Requester} {v : Word} (h : Grows s₀ s) : Grows s₀ (wdtKickWrite r v s) := by
  unfold wdtKickWrite
  split
  · exact flag_grows h
  · extract_lets +onlyGivenNames k
    split
    rename_i s1 _ s2 e
    have h2 : Grows s₀ s2 := Grows.of_snd e (examine_grows h)
    exact ite_grows (raise_grows (detect_grows (modPwr_grows h2))) (ite_grows (modPwr_grows h2) (ite_grows
        (wdtRestart_grows h2) (ite_grows (wdtExpire_grows h2) h2)))

theorem execWdtKick_grows {r : Requester} {v : Word} (h : Grows s₀ s) : GrowsNext s₀ (execWdtKick r v s) := by
  unfold execWdtKick
  exact next_grows (writeBy_grows (fun _ h2 => wdtKickWrite_grows h2) h)

theorem execWdtExpired_grows (h : Grows s₀ s) : GrowsNext s₀ (execWdtExpired s) := by
  unfold execWdtExpired
  exact next_grows (ite_grows (wdtExpire_grows (advanceTo_grows h)) h)

theorem avsCfgWrite_grows {v : Word} (h : Grows s₀ s) : Grows s₀ (avsCfgWrite v s) := by
  unfold avsCfgWrite
  exact ite_grows (flag_grows h) (ite_grows (modPwr_grows (setF_grows (plainWrite_grows h))) (setF_grows
      (plainWrite_grows h)))

theorem avsTwice_grows {ok : ℕ → Bool} (h : Grows s₀ s) : Grows s₀ (avsTwice ok s).2 := by
  unfold avsTwice
  split
  rename_i s1 _ s2 e
  have h2 : Grows s₀ s2 := Grows.of_snd e (examine_grows h)
  split
  · split
    rename_i s3 _ s4 e2
    have h3 : Grows s₀ s4 := Grows.of_snd e2 (examine_grows h2)
    exact ite_grows_snd (raise_grows (flag_grows (modPwr_grows (lasting_grows h3)))) (transient_grows h3)
  · exact h2

theorem avsNote_grows {code op data : ℕ} (h : Grows s₀ s) : Grows s₀ (avsNote code op data s) := by
  unfold avsNote
  exact modPwr_grows h

theorem avsReadMode_grows {modes : List (Option ℕ)} (h : Grows s₀ s) : Grows s₀ (avsReadMode modes s) := by
  unfold avsReadMode
  split
  · exact h
  · split
    · rename_i s1 _ s2 e
      have h2 : Grows s₀ s2 := Grows.of_snd e (avsTwice_grows (avsNote_grows h))
      exact modPwr_grows h2
    · rename_i s1 s2 e
      have h2 : Grows s₀ s2 := Grows.of_snd e (avsTwice_grows (avsNote_grows h))
      exact h2

theorem avsVolt_grows {sent : List Bool} (h : Grows s₀ s) : Grows s₀ (avsVolt sent s) := by
  unfold avsVolt
  exact ite_grows h (avsTwice_grows (ite_grows (modPwr_grows h) (avsNote_grows h)))

theorem avsGo_grows {moved : Bool} {modes : List (Option ℕ)} {sent : List Bool} (h :
    Grows s₀ s) : Grows s₀ (avsGo moved modes sent s) := by
  unfold avsGo
  exact ite_grows (ite_grows (modPwr_grows h) h) (ite_grows (avsVolt_grows (avsReadMode_grows (modPwr_grows h)))
      (avsReadMode_grows (modPwr_grows h)))

theorem execAvsInterval_grows {anyFail allGuard : Bool} {modes : List (Option Byte)} {sent : List Bool} (h :
    Grows s₀ s) : GrowsNext s₀ (execAvsInterval anyFail allGuard modes sent s) := by
  unfold execAvsInterval
  exact next_grows (ite_grows h (avsGo_grows (setF_grows (modPwr_grows (advanceTo_grows h)))))

theorem pmbRegWrite_grows {a : ℕ} {v : Word} (h : Grows s₀ s) : Grows s₀ (pmbRegWrite a v s) := by
  unfold pmbRegWrite
  exact ite_grows (flag_grows h) (plainWrite_grows h)

theorem pmbCtrlWrite_grows {v : Word} (h : Grows s₀ s) : Grows s₀ (pmbCtrlWrite v s) := by
  unfold pmbCtrlWrite
  exact ite_grows h (ite_grows (flag_grows h) (flag_grows (modPwr_grows h)))

theorem execPmbTransaction_grows {r : Requester} {v : Word} (h :
    Grows s₀ s) : GrowsNext s₀ (execPmbTransaction r v s) := by
  unfold execPmbTransaction
  exact next_grows (writeBy_grows (fun _ h2 => pmbCtrlWrite_grows h2) h)

theorem avsResume_grows (h : Grows s₀ s) : Grows s₀ (avsResume s) := by
  unfold avsResume
  split
  · exact ite_grows (avsGo_grows (modPwr_grows h)) (modPwr_grows h)
  · exact h

theorem execPmbDone_grows {res : PmbResult} (h : Grows s₀ s) : GrowsNext s₀ (execPmbDone res s) := by
  unfold execPmbDone
  refine next_grows ?_
  split
  · exact h
  · extract_lets +onlyGivenNames s1 s2
    have h1 : Grows s₀ s1 := setF_grows (modPwr_grows h)
    have h2 : Grows s₀ s2 := by
      unfold s2
      split
      · exact ite_grows (setF_grows h1) (ite_grows (setF_grows h1) h1)
      · exact flag_grows h1
      · exact ite_grows (flag_grows h1) h1
    exact avsResume_grows (raise_grows (flag_grows h2))

theorem execPmbAlert_grows (h : Grows s₀ s) : GrowsNext s₀ (execPmbAlert s) := by
  unfold execPmbAlert
  exact next_grows (raise_grows h)

/-! ### The model's file `Sleep` -/

theorem dropUnits_grows (h : Grows s₀ s) : Grows s₀ (dropUnits s) := by
  unfold dropUnits
  exact foldl_grows (fun _ _ h2 => dropUnit_grows h2) h

theorem dropAon_grows {soft : Bool} (h : Grows s₀ s) : Grows s₀ (dropAon soft s) := by
  unfold dropAon
  exact Grows.updateCfg rfl h

theorem pwrFresh_grows {warm : Bool} (h : Grows s₀ s) : Grows s₀ (pwrFresh warm s) := by
  unfold pwrFresh
  exact pwrNext_grows (Grows.updateCfg rfl h)

theorem porReset_grows (h : Grows s₀ s) : Grows s₀ (porReset s) := by
  unfold porReset
  exact gpioSettle_grows
    (showOtp_grows (showDbg_grows (pwrFresh_grows (Grows.updateCfg rfl (dropAon_grows (dropUnits_grows
      (restoreRegs_grows (keepMem_grows h))))))))

theorem execPor_grows (h : Grows s₀ s) : GrowsNext s₀ (execPor s) := by
  unfold execPor
  exact next_grows (porReset_grows h)

theorem hardReset_grows {bit : ℕ} (h : Grows s₀ s) : Grows s₀ (hardReset bit s) := by
  unfold hardReset
  exact gpioSettle_grows (showOtp_grows (showDbg_grows (setF_grows (pwrFresh_grows (Grows.updateCfg rfl (dropAon_grows
      (dropUnits_grows (restoreRegs_grows (keepMem_grows (logFlush_grows (ite_grows h (logRec_grows h))))))))))))

theorem testReset_grows (h : Grows s₀ s) : Grows s₀ (testReset s) := by
  unfold testReset
  exact setF_grows (setF_grows (setF_grows (modPwr_grows (hardReset_grows h))))

theorem execHardReset_grows {cause : HardCause} (h : Grows s₀ s) : GrowsNext s₀ (execHardReset cause s) := by
  unfold execHardReset
  refine next_grows ?_
  split
  · exact h
  · split
    · exact ite_grows (testReset_grows h) (hardReset_grows h)
    · split
      · exact hardReset_grows (advanceTo_grows h)
      · exact h
    · exact ite_grows (hardReset_grows h) h
    · exact hardReset_grows (examDetect_grows h)
    · exact hardReset_grows h
    · exact hardReset_grows h

theorem softEnd_grows (h : Grows s₀ s) : Grows s₀ (softEnd s) := by
  unfold softEnd
  exact gpioSettle_grows (showOtp_grows (setF_grows (pwrFresh_grows (dropAon_grows (dropUnits_grows
      (restoreRegs_grows (logFlush_grows (foldl_grows (fun _ _ h2 => ite_grows (disarmDomain_grows (latchPads_grows
      h2)) h2) h))))))))

theorem stopUnits_grows (h : Grows s₀ s) : Grows s₀ (stopUnits s) := by
  unfold stopUnits
  exact pfiAllOff_grows (ite_grows (scoCtrlWrite_grows (audAllStop_grows (foldl_grows (fun _ _ h2 => ite_grows
      (spCtrlWrite_grows h2) h2) h))) (audAllStop_grows (foldl_grows (fun _ _ h2 => ite_grows (spCtrlWrite_grows h2)
      h2) h)))

theorem sleepEnter_grows {soft thermal : Bool} (h : Grows s₀ s) : Grows s₀ (sleepEnter soft thermal s) := by
  unfold sleepEnter
  exact stopUnits_grows (modPwr_grows (ite_grows h (raise_grows (setF_grows (modPwr_grows h)))))

theorem sleepRefuse_grows {cause : ℕ} (h : Grows s₀ s) : Grows s₀ (sleepRefuse cause s) := by
  unfold sleepRefuse
  exact raise_grows (setF_grows h)

theorem sleepRequest_grows {force thermal : Bool} (h : Grows s₀ s) : Grows s₀ (sleepRequest force thermal s) := by
  unfold sleepRequest
  exact ite_grows (sleepRefuse_grows h) (ite_grows (sleepRefuse_grows h) (sleepEnter_grows h))

theorem sleepWrite_grows {r : Requester} {v : Word} (h : Grows s₀ s) : Grows s₀ (sleepWrite r v s) := by
  unfold sleepWrite
  exact ite_grows (flag_grows h) (ite_grows (sleepRequest_grows (plainWrite_grows h)) (plainWrite_grows h))

theorem execSleepGo_grows {r : Requester} {v : Word} (h : Grows s₀ s) : GrowsNext s₀ (execSleepGo r v s) := by
  unfold execSleepGo
  exact next_grows (writeBy_grows (fun _ h2 => sleepWrite_grows h2) h)

theorem resetWrite_grows {r : Requester} {v : Word} (h : Grows s₀ s) : Grows s₀ (resetWrite r v s) := by
  unfold resetWrite
  extract_lets +onlyGivenNames hard soft
  split
  · clear_value hard
    split
    · exact hardReset_grows h
    · exact flag_grows h
  · exact ite_grows (ite_grows (flag_grows h) (ite_grows h (sleepEnter_grows h))) h

theorem execSoftReset_grows {r : Requester} {v : Word} (h : Grows s₀ s) : GrowsNext s₀ (execSoftReset r v s) := by
  unfold execSoftReset
  exact next_grows (writeBy_grows (fun _ h2 => resetWrite_grows h2) h)

theorem execSleepQuiesceDone_grows (h : Grows s₀ s) : GrowsNext s₀ (execSleepQuiesceDone s) := by
  unfold execSleepQuiesceDone
  exact next_grows (ite_grows (modPwr_grows (foldl_grows (fun _ _ h2 => ringAbandon_grows h2) (ite_grows h
      (advanceTo_grows h)))) h)

theorem fallAsleep_grows (h : Grows s₀ s) : Grows s₀ (fallAsleep s) := by
  unfold fallAsleep
  exact heldWake_grows (setF_grows (setF_grows (modPwr_grows (keepMem_grows (foldl_grows (fun _ _ h2 => ite_grows
      (domainDown_grows h2) h2) h)))))

theorem execSleepDramIdle_grows (h : Grows s₀ s) : GrowsNext s₀ (execSleepDramIdle s) := by
  unfold execSleepDramIdle
  exact next_grows (ite_grows (ite_grows (softEnd_grows h) (fallAsleep_grows h)) h)

theorem execWake_grows {source : ℕ} (h : Grows s₀ s) : GrowsNext s₀ (execWake source s) := by
  unfold execWake
  exact guardOk_grows (ite_grows h (ite_grows (heldWake_grows (modPwr_grows (ite_grows (advanceTo_grows h) h)))
      (ite_grows (modPwr_grows h) h)))

theorem execClockSwitch_grows {r : Requester} {v : Word} (h : Grows s₀ s) : GrowsNext s₀ (execClockSwitch r v s) := by
  unfold execClockSwitch
  exact next_grows (writeBy_grows (fun _ h2 => plainWrite_grows h2) h)

theorem execT3GraceExpired_grows (h : Grows s₀ s) : GrowsNext s₀ (execT3GraceExpired s) := by
  unfold execT3GraceExpired
  refine next_grows ?_
  split
  · exact h
  · exact sleepRequest_grows (modPwr_grows (ite_grows h (advanceTo_grows h)))

theorem execForcedSleep_grows (h : Grows s₀ s) : GrowsNext s₀ (execForcedSleep s) := by
  unfold execForcedSleep
  refine next_grows ?_
  split
  · exact h
  · exact ite_grows h (fallAsleep_grows (pfiAllOff_grows (modPwr_grows (logRec_grows (raise_grows (advanceTo_grows
      h))))))

/-! ### The model's file `Img` -/

theorem sectRead_grows {cls : ℕ} {x : Sect} (h : Grows s₀ s) : Grows s₀ (sectRead cls x s).2 := by
  unfold sectRead
  split
  · rename_i s1 _ s2 e
    have h2 : Grows s₀ s2 := Grows.of_snd e (dmaRead_grows h)
    exact h2
  · rename_i s1 s2 e
    have h2 : Grows s₀ s2 := Grows.of_snd e (dmaRead_grows h)
    exact h2

theorem landBlock_grows {area : ℕ × ℕ} {dst : ℕ} {bytes : List Byte} (h :
    Grows s₀ s) : Grows s₀ (landBlock area dst bytes s).2 := by
  unfold landBlock
  exact ite_grows_snd (dmaWrite_grows h) h

theorem ovlRecord_grows {area : ℕ × ℕ} {x : Record} (h : Grows s₀ s) : Grows s₀ (ovlRecord area x s).2 := by
  unfold ovlRecord
  dsimp only
  refine examDetect_grows ?_
  split
  · exact h
  · exact h
  · split
    · exact landBlock_grows h
    · exact h
  · exact landBlock_grows h
  · exact h
  · exact h
  · exact h

theorem ovlLoad_grows {area : ℕ × ℕ} {x : Sect} (h : Grows s₀ s) : Grows s₀ (ovlLoad area x s) := by
  unfold ovlLoad
  exact setF_grows (foldl_grows_snd (fun _ _ h2 => ite_grows_snd h2 (ovlRecord_grows h2)) (sectRead_grows h))

theorem ovlRefuse_grows {i c : ℕ} (h : Grows s₀ s) : Grows s₀ (ovlRefuse i c s) := by
  unfold ovlRefuse
  exact raise_grows (setF_grows h)

theorem ovlRequest_grows {i : ℕ} (h : Grows s₀ s) : Grows s₀ (ovlRequest i s) := by
  unfold ovlRequest
  exact ite_grows (ovlRefuse_grows h) (ite_grows (flag_grows (setF_grows h)) (flag_grows (setF_grows (modCfg_grows rfl
      h))))

theorem ovlReqWrite_grows {v : Word} (h : Grows s₀ s) : Grows s₀ (ovlReqWrite v s) := by
  unfold ovlReqWrite
  exact ite_grows (ovlRequest_grows h) h

theorem modeLook_grows {cls v : ℕ} (h : Grows s₀ s) : Grows s₀ (modeLook cls v s).2 := by
  unfold modeLook
  split
  · split
    · rename_i s1 _ s2 e
      have h2 : Grows s₀ s2 := Grows.of_snd e (dmaRead_grows h)
      exact h2
    · rename_i s1 s2 e
      have h2 : Grows s₀ s2 := Grows.of_snd e (dmaRead_grows h)
      exact h2
  · exact h

theorem modeRequest_grows (h : Grows s₀ s) : Grows s₀ (modeRequest s) := by
  unfold modeRequest
  extract_lets +onlyGivenNames v
  split
  rename_i s1 _ _ s2 e
  have h2 : Grows s₀ s2 := Grows.of_snd e (modeLook_grows h)
  extract_lets +onlyGivenNames s3
  have h3 : Grows s₀ s3 := ite_grows h2 (raise_grows h2)
  split
  · exact ite_grows h3 (ovlRequest_grows h3)
  · exact h3

/-! ### The model's file `Net` -/

theorem modNet_grows {m : ℕ} {f : NetSt → NetSt} (h : Grows s₀ s) : Grows s₀ (modNet m f s) := by
  unfold modNet
  exact Grows.update h

theorem modNstr_grows {k : ℕ} {f : NetStr → NetStr} (h : Grows s₀ s) : Grows s₀ (modNstr k f s) := by
  unfold modNstr
  exact Grows.update h

theorem netStamp_grows {m : ℕ} {lat : ℤ} (h : Grows s₀ s) : Grows s₀ (netStamp m lat s).2 := by
  unfold netStamp
  extract_lets +onlyGivenNames bound
  split
  rename_i s1 _ s2 e
  have h2 : Grows s₀ s2 := Grows.of_snd e (draw_grows h)
  exact h2

theorem showStamps_grows {m : ℕ} (h : Grows s₀ s) : Grows s₀ (showStamps m s) := by
  unfold showStamps
  extract_lets +onlyGivenNames q s1
  have h1 : Grows s₀ s1 := setF_grows h
  clear_value q
  split
  · exact h1
  · exact wr_grows (wr_grows (wr_grows (wr_grows h1)))

theorem pushStamp_grows {m : ℕ} {x : TxStamp} (h : Grows s₀ s) : Grows s₀ (pushStamp m x s) := by
  unfold pushStamp
  split
  rename_i s1 _ s2 e
  have h2 : Grows s₀ s2 := Grows.of_snd e (examDetect_grows h)
  exact ite_grows (raise_grows (flag_grows (bump_grows h2))) (showStamps_grows (modNet_grows h2))

theorem execTxtsPop_grows {r : Requester} {m : ℕ} (h : Grows s₀ s) : GrowsNext s₀ (execTxtsPop r m s) := by
  unfold execTxtsPop
  refine guardOk_grows ?_
  split
  · rename_i s1 s2 e
    have h2 : Grows s₀ s2 := Grows.of_snd e (gate_grows h)
    exact refuse_grows h2
  · rename_i s1 s2 e
    have h2 : Grows s₀ s2 := Grows.of_snd e (gate_grows h)
    exact answer_grows (showStamps_grows (modNet_grows h2))

theorem macSend_grows {m : ℕ} {f : List Byte} (h : Grows s₀ s) : Grows s₀ (macSend m f s).2 := by
  unfold macSend
  extract_lets +onlyGivenNames s1
  have h1 : Grows s₀ s1 := modNet_grows h
  split
  · split
    · split
      rename_i s2 _ s3 e
      have h2 : Grows s₀ s3 := Grows.of_snd e (netStamp_grows h1)
      exact pushStamp_grows h2
    · exact h1
  · exact h1

theorem txDone_grows {m a flags : ℕ} (h : Grows s₀ s) : Grows s₀ (txDone m a flags s) := by
  unfold txDone
  exact setF_grows (dmaPut_grows h)

theorem execTxFrame_grows {m : ℕ} {parity : Bool} (h : Grows s₀ s) : GrowsNext s₀ (execTxFrame m parity s) := by
  unfold execTxFrame
  refine guardOk_grows ?_
  extract_lets +onlyGivenNames n head a
  split
  · exact h
  · split
    rename_i s1 _ s2 e
    have h2 : Grows s₀ s2 := Grows.of_snd e (dmaRead_grows h)
    split
    · exact txDone_grows h2
    · extract_lets +onlyGivenNames len
      split
      · exact txDone_grows h2
      · split
        · exact txDone_grows h2
        · split
          rename_i s3 _ s4 e2
          have h3 : Grows s₀ s4 := Grows.of_snd e2 (dmaRead_grows h2)
          split
          rename_i s5 _ s6 e3
          have h4 : Grows s₀ s6 := Grows.of_snd e3 (examDetect_grows h3)
          split
          · split
            rename_i s7 _ s8 e4
            have h5 : Grows s₀ s8 := Grows.of_snd e4 (macSend_grows h4)
            exact txDone_grows h5
          · exact txDone_grows h4

theorem rxDone_grows {m a word : ℕ} {t : Option Stamp} (h : Grows s₀ s) : Grows s₀ (rxDone m a word t s) := by
  unfold rxDone
  exact setF_grows (dmaPut_grows h)

theorem rxStore_noDesc_grows {m : ℕ} (h : Grows s₀ s) : Grows s₀ (rxStore.noDesc m s) := by
  unfold rxStore.noDesc
  exact ite_grows (bump_grows h) (raise_grows (modNet_grows (bump_grows h)))

theorem rxStore_grows {parity : Bool} {k m : ℕ} {f : List Byte} (h : Grows s₀ s) :
    Grows s₀ (rxStore parity k m f s) := by
  delta rxStore
  refine brecOn_induction (P := fun g => ∀ m f s, Grows s₀ s → Grows s₀ (g m f s)) (rxStore._f parity)
    (fun below m f s h => ?_) (fun k below ih m f s h => ?_) k m f s h
  · exact rxStore_noDesc_grows h
  · unfold rxStore._f
    refine ite_grows (rxStore_noDesc_grows h) ?_
    extract_lets +onlyGivenNames a
    split
    rename_i s1 e
    have h1 : Grows s₀ s1 := Grows.of_snd e (dmaRead_grows h)
    split
    · exact rxDone_grows h1
    · refine ite_grows (ih _ _ _ (rxDone_grows h1)) ?_
      extract_lets +onlyGivenNames st bs
      split
      rename_i s2 e2
      have h2 : Grows s₀ s2 := Grows.of_snd e2 (examDetect_grows (modNet_grows h1))
      split
      rename_i s3 e3
      have h3 : Grows s₀ s3 := Grows.of_snd e3 (ite_grows_snd h2 (dmaWrite_grows h2))
      split
      rename_i s4 e4
      refine rxDone_grows (Grows.of_snd e4 ?_)
      split
      · exact netStamp_grows (lat := -(s3.f (NET_RX_LAT_rx_lat m) : Int)) (m := m) h3
      · exact h3

theorem rxZeros_grows {k m : ℕ} (h : Grows s₀ s) : Grows s₀ (rxZeros k m s) := by
  delta rxZeros
  refine brecOn_induction (P := fun g => ∀ m s, Grows s₀ s → Grows s₀ (g m s)) rxZeros._f
    (fun below m s h => ?_) (fun k below ih m s h => ?_) k m s h
  · exact h
  · unfold rxZeros._f
    refine ite_grows h ?_
    obtain ⟨dmaRead', hdmaRead'⟩ : ∃ f, f = dmaRead := ⟨_, rfl⟩
    have hdmaRead := @dmaRead_grows s₀
    rw [← hdmaRead'] at hdmaRead ⊢
    extract_lets +onlyGivenNames a
    split
    · rename_i e
      exact ite_grows (ih _ _ (rxDone_grows (Grows.of_snd e (hdmaRead h)))) h
    · exact h

theorem rxTailWrite_grows {m : ℕ} {v : Word} (h : Grows s₀ s) : Grows s₀ (rxTailWrite m v s) := by
  unfold rxTailWrite
  exact rxZeros_grows (plainWrite_grows h)

theorem execRxFrame_grows {at_ m : ℕ} {f : List Byte} {fcsGood fecBad parity : Bool} (h :
    Grows s₀ s) : GrowsNext s₀ (execRxFrame at_ m f fcsGood fecBad parity s) := by
  unfold execRxFrame
  refine guardOk_grows ?_
  extract_lets +onlyGivenNames s1
  have h1 : Grows s₀ s1 := advanceTo_grows h
  split
  · exact h1
  · split
    rename_i s2 _ s3 e
    have h2 : Grows s₀ s3 := Grows.of_snd e (ite_grows_snd h1 (examDetect_grows h1))
    split
    rename_i s4 _ s5 e2
    have h3 : Grows s₀ s5 := Grows.of_snd e2 (examDetect_grows h2)
    exact ite_grows (bump_grows h3) (ite_grows (bump_grows h3) (ite_grows (rxZeros_grows (rxStore_grows h3)) h3))

theorem mdioWrite_grows {m : ℕ} {v : Word} {answer : BitVec 16} (h :
    Grows s₀ s) : Grows s₀ (mdioWrite m v answer s) := by
  unfold mdioWrite
  exact wr_grows (modNet_grows h)

theorem execMdio_grows {r : Requester} {m : ℕ} {v : Word} {answer : BitVec 16} (h :
    Grows s₀ s) : GrowsNext s₀ (execMdio r m v answer s) := by
  unfold execMdio
  exact guardOk_grows (writeBy_grows (fun _ h2 => mdioWrite_grows h2) h)

theorem execNetLinkChange_grows {m : ℕ} {up : Bool} (h : Grows s₀ s) : GrowsNext s₀ (execNetLinkChange m up s) := by
  unfold execNetLinkChange
  exact guardOk_grows (ite_grows h (rxZeros_grows (raise_grows (setF_grows (setF_grows h)))))

theorem netCtrlWrite_grows {m : ℕ} {v : Word} (h : Grows s₀ s) : Grows s₀ (netCtrlWrite m v s) := by
  unfold netCtrlWrite
  exact ite_grows (flag_grows h) (ite_grows (flag_grows (plainWrite_grows h)) (plainWrite_grows h))

theorem netEntriesWrite_grows {m a : ℕ} {v : Word} (h : Grows s₀ s) : Grows s₀ (netEntriesWrite m a v s) := by
  unfold netEntriesWrite
  exact ite_grows (flag_grows h) (plainWrite_grows h)

theorem strErr_grows {k : ℕ} (h : Grows s₀ s) : Grows s₀ (strErr k s) := by
  unfold strErr
  exact raise_grows h

theorem nstrCfgWrite_grows {k : ℕ} {v : Word} (h : Grows s₀ s) : Grows s₀ (nstrCfgWrite k v s) := by
  unfold nstrCfgWrite
  split
  · exact flag_grows h
  · split
    · exact plainWrite_grows h
    · extract_lets +onlyGivenNames ty other blk out src
      clear_value ty other src
      split
      · exact ite_grows (strErr_grows (flag_grows h)) (strErr_grows (flag_grows (plainWrite_grows h)))
      · split
        · exact strErr_grows (flag_grows (plainWrite_grows h))
        · split
          rename_i s1 _ s2 e
          have h2 : Grows s₀ s2 := Grows.of_snd e (draw_grows h)
          exact ringAttach_grows (plainWrite_grows (modNstr_grows h2))

theorem execNetStreamEnable_grows {r : Requester} {k : ℕ} {v : Word} (h :
    Grows s₀ s) : GrowsNext s₀ (execNetStreamEnable r k v s) := by
  unfold execNetStreamEnable
  exact guardOk_grows (writeBy_grows (fun _ h2 => nstrCfgWrite_grows h2) h)

theorem nstrPayWrite_grows {k : ℕ} {v : Word} (h : Grows s₀ s) : Grows s₀ (nstrPayWrite k v s) := by
  unfold nstrPayWrite
  exact ite_grows (flag_grows h) (plainWrite_grows h)

theorem rtpTime_grows {rfn : ℕ} (h : Grows s₀ s) : Grows s₀ (rtpTime rfn s).2 := by
  unfold rtpTime
  split
  · exact h
  · split
    rename_i s1 _ s2 e
    have h2 : Grows s₀ s2 := Grows.of_snd e (draw_grows h)
    exact h2

theorem nstrSend_grows {k : ℕ} {marker : Bool} {payload : Option (List Byte)} (h :
    Grows s₀ s) : Grows s₀ (nstrSend k marker payload s) := by
  unfold nstrSend
  extract_lets +onlyGivenNames m
  split
  rename_i s1 _ s2 e
  have h2 : Grows s₀ s2 := Grows.of_snd e (dmaRead_grows h)
  extract_lets +onlyGivenNames x s3
  have h3 : Grows s₀ s3 := modNstr_grows h2
  split
  · split
    · split
      rename_i s4 _ s5 e2
      have h4 : Grows s₀ s5 := Grows.of_snd e2 (examDetect_grows h3)
      exact ite_grows (strErr_grows (bump_grows h4)) (macSend_grows h4)
    · exact bump_grows h3
  · exact strErr_grows (bump_grows h3)

theorem nstrDesc_grows {r : RingId} {b fmt : ℕ} (h : Grows s₀ s) : Grows s₀ (nstrDesc r b fmt s).2 := by
  obtain ⟨body, hbody⟩ : ∃ f, f = nstrDesc := ⟨_, rfl⟩
  obtain ⟨dmaRead', hdmaRead'⟩ : ∃ f, f = dmaRead := ⟨_, rfl⟩
  have hdmaRead := @dmaRead_grows s₀
  rw [← hbody]
  delta nstrDesc at hbody
  rw [← hdmaRead'] at hdmaRead hbody
  subst hbody
  beta_reduce
  split
  rename_i s1 _ s2 e
  have h2 : Grows s₀ s2 := Grows.of_snd e (hdmaRead h)
  split
  · exact h2
  · exact ite_grows_snd h2 h2

theorem nstrTakeAu_grows {k : ℕ} {r : RingId} (h : Grows s₀ s) : Grows s₀ (nstrTakeAu k r s) := by
  unfold nstrTakeAu
  obtain ⟨nstrDesc', hnstrDesc'⟩ : ∃ f, f = nstrDesc := ⟨_, rfl⟩
  have hnstrDesc := @nstrDesc_grows s₀
  rw [← hnstrDesc'] at hnstrDesc ⊢
  obtain ⟨dmaRead', hdmaRead'⟩ : ∃ f, f = dmaRead := ⟨_, rfl⟩
  have hdmaRead := @dmaRead_grows s₀
  rw [← hdmaRead'] at hdmaRead ⊢
  split
  · exact h
  · split
    · rename_i s1 s2 e
      have h2 : Grows s₀ s2 := Grows.of_snd e (hnstrDesc h)
      exact ringRelease_grows (strErr_grows h2)
    · rename_i s1 _ _ s2 e
      have h2 : Grows s₀ s2 := Grows.of_snd e (hnstrDesc h)
      split
      rename_i s3 _ s4 e2
      have h3 : Grows s₀ s4 := Grows.of_snd e2 (hdmaRead h2)
      split
      rename_i s5 _ s6 e3
      have h4 : Grows s₀ s6 := Grows.of_snd e3 (rtpTime_grows h3)
      exact ite_grows (ringRelease_grows (strErr_grows h4)) (modNstr_grows h4)

theorem nstrAuPacket_grows {k : ℕ} {r : RingId} (h : Grows s₀ s) : Grows s₀ (nstrAuPacket k r s) := by
  unfold nstrAuPacket
  extract_lets +onlyGivenNames s1
  have h1 : Grows s₀ s1 := ite_grows (nstrTakeAu_grows h) h
  split
  · exact ite_grows (ringRelease_grows (modNstr_grows (nstrSend_grows (modNstr_grows h1)))) (nstrSend_grows
      (modNstr_grows h1))
  · exact h1

theorem nstrVidPacket_grows {k : ℕ} (h : Grows s₀ s) : Grows s₀ (nstrVidPacket k s) := by
  unfold nstrVidPacket
  split
  · extract_lets +onlyGivenNames per s1 n end_ last next
    have h1 : Grows s₀ s1 := advanceTo_grows h
    split
    rename_i s2 _ s3 e
    have h2 : Grows s₀ s3 := Grows.of_snd e (dmaRead_grows h1)
    exact nstrSend_grows (modNstr_grows h2)
  · exact h

theorem execStreamPacket_grows {k : ℕ} (h : Grows s₀ s) : GrowsNext s₀ (execStreamPacket k s) := by
  unfold execStreamPacket
  refine guardOk_grows ?_
  split
  · exact h
  · split
    · exact nstrAuPacket_grows h
    · exact nstrVidPacket_grows h

theorem nstrSelect_grows {k : ℕ} {r : RingId} (h : Grows s₀ s) : Grows s₀ (nstrSelect k r s) := by
  unfold nstrSelect
  extract_lets +onlyGivenNames again s1
  have h1 : Grows s₀ s1 := by
    unfold s1
    split
    · exact ite_grows (bump_grows h) h
    · split
      · exact ite_grows (bump_grows h) h
      · split
        · rename_i s2 _ _ s3 e
          have h2 : Grows s₀ s3 := Grows.of_snd e (nstrDesc_grows h)
          split
          · split
            rename_i s4 _ s5 e2
            have h3 : Grows s₀ s5 := Grows.of_snd e2 (rtpTime_grows h2)
            exact modNstr_grows (foldl_grows (fun _ _ h4 => ringRelease_grows h4) h3)
          · exact ite_grows (bump_grows (strErr_grows (ringRelease_grows (bump_grows h2)))) (strErr_grows
              (ringRelease_grows (bump_grows h2)))
        · rename_i s2 s3 e
          have h2 : Grows s₀ s3 := Grows.of_snd e (nstrDesc_grows h)
          exact ite_grows (bump_grows (strErr_grows (ringRelease_grows (bump_grows h2)))) (strErr_grows
              (ringRelease_grows (bump_grows h2)))
  exact modNstr_grows h1

theorem execStreamFrameSelect_grows {k : ℕ} (h : Grows s₀ s) : GrowsNext s₀ (execStreamFrameSelect k s) := by
  unfold execStreamFrameSelect
  refine guardOk_grows ?_
  split
  · exact ite_grows h (nstrSelect_grows (modNstr_grows (foldl_grows (fun _ _ h2 => nstrVidPacket_grows h2) h)))
  · exact h

/-! ### The model's file `Photre` -/

theorem modPrc_grows {n : ℕ} {f : PrcSt → PrcSt} (h : Grows s₀ s) : Grows s₀ (modPrc n f s) := by
  unfold modPrc
  exact Grows.update h

theorem showPrc_grows {n : ℕ} (h : Grows s₀ s) : Grows s₀ (showPrc n s) := by
  unfold showPrc
  exact setF_grows (setF_grows h)

theorem prcCtrlWrite_grows {n : ℕ} {v : Word} (h : Grows s₀ s) : Grows s₀ (prcCtrlWrite n v s) := by
  unfold prcCtrlWrite
  exact ite_grows (flag_grows h) (ite_grows (showPrc_grows (modPrc_grows (plainWrite_grows h))) (plainWrite_grows h))

theorem execPrcEnable_grows {r : Requester} {n : ℕ} {v : Word} (h :
    Grows s₀ s) : GrowsNext s₀ (execPrcEnable r n v s) := by
  unfold execPrcEnable
  exact guardOk_grows (writeBy_grows (fun _ h2 => prcCtrlWrite_grows h2) h)

theorem prcApplyWrite_grows {n : ℕ} {v : Word} (h : Grows s₀ s) : Grows s₀ (prcApplyWrite n v s) := by
  unfold prcApplyWrite
  exact ite_grows (showPrc_grows (modPrc_grows h)) h

theorem execPrcApply_grows {r : Requester} {n : ℕ} {v : Word} (h :
    Grows s₀ s) : GrowsNext s₀ (execPrcApply r n v s) := by
  unfold execPrcApply
  exact guardOk_grows (writeBy_grows (fun _ h2 => prcApplyWrite_grows h2) h)

theorem dropFeed_grows {n : ℕ} (h : Grows s₀ s) : Grows s₀ (dropFeed n s) := by
  unfold dropFeed
  exact Grows.update h

theorem prcSkip_grows {n : ℕ} (h : Grows s₀ s) : Grows s₀ (prcSkip n s) := by
  unfold prcSkip
  exact modPrc_grows h

theorem prcStart_grows {n : ℕ} {d : PrcFeed} (h : Grows s₀ s) : Grows s₀ (prcStart n d s) := by
  unfold prcStart
  split
  · exact prcSkip_grows h
  · extract_lets +onlyGivenNames s1 f key s2 s3 h1 ns
    have h1 : Grows s₀ s1 := by
      unfold s1
      split
      · exact showPrc_grows (modPrc_grows (forceLive_grows h))
      · exact h
    have h2 : Grows s₀ s2 := showPrc_grows (modPrc_grows h1)
    have h3 : Grows s₀ s3 := flag_grows h2
    split
    · exact prcSkip_grows (ite_grows h3 (raise_grows (modPrc_grows h3)))
    · split
      · rename_i s4 s5 e
        have h4 : Grows s₀ s5 := Grows.of_snd e (ringTake_grows h2)
        exact prcSkip_grows h4
      · rename_i s4 s5 e
        have h4 : Grows s₀ s5 := Grows.of_snd e (ringTake_grows h2)
        exact prcSkip_grows (raise_grows h4)
      · rename_i s4 _ s5 e
        have h4 : Grows s₀ s5 := Grows.of_snd e (ringTake_grows h2)
        exact modPrc_grows h4

theorem prcFrameStart_grows {n : ℕ} (h : Grows s₀ s) : Grows s₀ (prcFrameStart n s) := by
  unfold prcFrameStart
  extract_lets +onlyGivenNames fs s1
  have h1 : Grows s₀ s1 := by
    unfold s1
    split
    · exact ite_grows h (dropFeed_grows (modPrc_grows (ite_grows (ringAbandon_grows h) h)))
    · exact ite_grows (dropFeed_grows (modPrc_grows h)) h
    · exact h
  split
  · exact prcStart_grows h1
  · exact h1

theorem execPrcFrameStart_grows {n : ℕ} (h : Grows s₀ s) : GrowsNext s₀ (execPrcFrameStart n s) := by
  unfold execPrcFrameStart
  exact guardOk_grows (ite_grows (prcFrameStart_grows (absorb_grows h)) h)

theorem slabCode_grows {n : ℕ} (h : Grows s₀ s) : Grows s₀ (slabCode n s) := by
  unfold slabCode
  split
  · extract_lets +onlyGivenNames h1 ns i rows f v lossless off
    split
    · exact h
    · split
      rename_i s1 _ s2 e
      have h2 : Grows s₀ s2 := Grows.of_snd e (examDetect_grows h)
      split
      extract_lets +onlyGivenNames startRun c' s3 s4 s5 s6 s7 s8
      have h3 : Grows s₀ s3 := modPrc_grows h2
      have h4 : Grows s₀ s4 := dmaPut_grows h3
      have h5 : Grows s₀ s5 := ite_grows (raise_grows h4) h4
      have h6 : Grows s₀ s6 := ite_grows (raise_grows h5) h5
      have h7 : Grows s₀ s7 := ite_grows (bump_grows h6) h6
      have h8 : Grows s₀ s8 := ite_grows (bump_grows h7) h7
      exact ite_grows (bump_grows h8) h8
  · exact h

theorem execSlabCoded_grows {n : ℕ} (h : Grows s₀ s) : GrowsNext s₀ (execSlabCoded n s) := by
  unfold execSlabCoded
  exact guardOk_grows (ite_grows (slabCode_grows h) h)

theorem prcDone_grows {n : ℕ} (h : Grows s₀ s) : Grows s₀ (prcDone n s) := by
  unfold prcDone
  extract_lets +onlyGivenNames s1
  have h1 : Grows s₀ s1 := by
    unfold s1
    split
    · exact statsOf_grows h
    · exact h
  split
  · extract_lets +onlyGivenNames h2 ns f len pad bytes a s2 s3 hd s4 first s5 s6 s7 key _ i
    have h2 : Grows s₀ s2 := dmaPut_grows h1
    have h3 : Grows s₀ s3 := dmaPut_grows h2
    have h4 : Grows s₀ s4 := dmaPut_grows h3
    have h5 : Grows s₀ s5 := setF_grows (setF_grows h4)
    have h6 : Grows s₀ s6 := wr_grows h5
    have h7 : Grows s₀ s7 := ite_grows (bump_grows h6) h6
    split
    · exact ite_grows (dropFeed_grows (modPrc_grows h1)) h1
    · split
      · exact h1
      · split
        rename_i s8 _ s9 e
        have h8 : Grows s₀ s9 := Grows.of_snd e (examDetect_grows h7)
        exact showPrc_grows (dropFeed_grows (ringPublish_grows (putRing_grows (modPrc_grows h8))))
  · exact h1

theorem execPrcFrameDone_grows {n : ℕ} (h : Grows s₀ s) : GrowsNext s₀ (execPrcFrameDone n s) := by
  unfold execPrcFrameDone
  exact guardOk_grows (ite_grows (prcDone_grows (absorb_grows h)) h)

theorem prdGoWrite_grows {v : Word} (h : Grows s₀ s) : Grows s₀ (prdGoWrite v s) := by
  unfold prdGoWrite
  exact ite_grows h (ite_grows (flag_grows h) (flag_grows (Grows.update h)))

theorem execPrdGo_grows {r : Requester} {v : Word} (h : Grows s₀ s) : GrowsNext s₀ (execPrdGo r v s) := by
  unfold execPrdGo
  exact next_grows (writeBy_grows (fun _ h2 => prdGoWrite_grows h2) h)

theorem decodeSlab_grows {hd : PrcHead} {src len i : ℕ} (h : Grows s₀ s) : Grows s₀ (decodeSlab hd src len i s).2 := by
  unfold decodeSlab
  extract_lets +onlyGivenNames rows
  split
  · exact h
  · split
    · rename_i s1 s2 e
      have h2 : Grows s₀ s2 := Grows.of_snd e (dmaRead_grows h)
      exact h2
    · rename_i s1 _ s2 e
      have h2 : Grows s₀ s2 := Grows.of_snd e (dmaRead_grows h)
      extract_lets +onlyGivenNames off w size
      split
      · exact h2
      · split
        · rename_i s3 s4 e2
          have h3 : Grows s₀ s4 := Grows.of_snd e2 (dmaRead_grows h2)
          exact h3
        · rename_i s3 _ s4 e2
          have h3 : Grows s₀ s4 := Grows.of_snd e2 (dmaRead_grows h2)
          extract_lets +onlyGivenNames h0 pay
          split
          split
          · exact h3
          · split
            rename_i s5 _ s6 e3
            have h4 : Grows s₀ s6 := Grows.of_snd e3 (examDetect_grows h3)
            split
            · exact h4
            · extract_lets +onlyGivenNames r
              split
              rename_i s7 _ s8 e4
              have h5 : Grows s₀ s8 := Grows.of_snd e4 (examDetect_grows h4)
              exact h5

theorem prdRow_grows {job : List (ℕ × Word)} {row : ℕ} {bs : List Byte} (h :
    Grows s₀ s) : Grows s₀ (prdRow job row bs s) := by
  unfold prdRow
  extract_lets +onlyGivenNames dst len off fit s1
  have h1 : Grows s₀ s1 := dmaPut_grows h
  split
  rename_i s2 _ s3 e
  have h2 : Grows s₀ s3 := Grows.of_snd e (examDetect_grows h1)
  exact ite_grows (flag_grows (bumpBy_grows h2)) h2

theorem prdSlab_grows {hd : PrcHead} {job : List (ℕ × Word)} {first i : ℕ} {x : ℕ × ℕ × State} (h :
    Grows s₀ x.2.2) : Grows s₀ (prdSlab hd job first i x).2.2 := by
  unfold prdSlab
  split
  rename_i s1 _ _ s2
  extract_lets +onlyGivenNames src fmt fillN fill rows out
  split
  rename_i s3 _ s4 e
  have h2 : Grows s₀ s4 := Grows.of_snd e (decodeSlab_grows h)
  split
  · exact foldl_grows (fun _ _ h3 => prdRow_grows h3) h2
  · exact foldl_grows (fun _ _ h3 => prdRow_grows h3) (ite_grows (raise_grows (setF_grows (setF_grows h2))) h2)

theorem prdEnd_grows (h : Grows s₀ s) : Grows s₀ (prdEnd s) := by
  unfold prdEnd
  exact flag_grows (setF_grows (Grows.update h))

theorem prdCount_grows {good err : ℕ} (h : Grows s₀ s) : Grows s₀ (prdCount good err s) := by
  unfold prdCount
  exact setF_grows (setF_grows h)

theorem prdJob_grows {job : List (ℕ × Word)} (h : Grows s₀ s) : Grows s₀ (prdJob job s) := by
  unfold prdJob
  extract_lets +onlyGivenNames src fmt stride first
  split
  rename_i s1 _ s2 e
  have h2 : Grows s₀ s2 := Grows.of_snd e (ite_grows_snd h (dmaRead_grows h))
  extract_lets +onlyGivenNames hd
  split
  rename_i s3 _ s4 e2
  have h3 : Grows s₀ s4 := Grows.of_snd e2 (examDetect_grows h2)
  clear_value fmt stride first hd
  split
  · exact ite_grows (raise_grows (flag_grows (prdEnd_grows (prdCount_grows h3)))) (raise_grows (prdEnd_grows
      (prdCount_grows (foldl_grows_snd_snd (fun _ _ h4 => prdSlab_grows h4) h3))))
  · exact raise_grows (flag_grows (prdEnd_grows (prdCount_grows h3)))

theorem execPrdJobDone_grows (h : Grows s₀ s) : GrowsNext s₀ (execPrdJobDone s) := by
  unfold execPrdJobDone
  refine next_grows ?_
  split
  · exact ite_grows (prdJob_grows h) h
  · exact h

/-! ### The model's file `PipBase` -/

theorem placeTile_grows {j : ℕ} {fr : IpFrame} {t : ℕ} {px : ℕ → ℕ → Px} (h :
    Grows s₀ s) : Grows s₀ (placeTile j fr t px s) := by
  unfold placeTile
  split
  exact modSlot_grows h

theorem slotFsw_grows {j bit : ℕ} (h : Grows s₀ s) : Grows s₀ (slotFsw j bit s) := by
  unfold slotFsw
  split
  · exact modFr_grows h
  · exact h

theorem leaveTile_grows {j t : ℕ} (h : Grows s₀ s) : Grows s₀ (leaveTile j t s) := by
  unfold leaveTile
  split
  · exact h
  · exact ite_grows h (ite_grows (addPair_grows (modSlot_grows h)) (ipFlow_grows (modSlot_grows (modFr_grows
      (addPair_grows (modSlot_grows h))))))

theorem passTile_grows {j t : ℕ} (h : Grows s₀ s) : Grows s₀ (passTile j t s) := by
  unfold passTile
  split
  · exact h
  · split
    exact leaveTile_grows (bump_grows (slotFsw_grows (placeTile_grows h)))

theorem startRun_grows {u : PipRef} {t : TileIn} (h : Grows s₀ s) : Grows s₀ (startRun u t s) := by
  unfold startRun
  split
  · exact h
  · split
    exact modPip_grows (draw_grows h)

theorem wakePip_grows {u : PipRef} (h : Grows s₀ s) : Grows s₀ (wakePip u s) := by
  unfold wakePip
  split
  · exact ite_grows (startRun_grows (modPip_grows h)) h
  · exact h

theorem sendTile_grows {j t : ℕ} {u : PipRef} {fr : IpFrame} (h : Grows s₀ s) : GrowsSome s₀ (sendTile j t u fr s) := by
  unfold sendTile
  split
  · exact none_grows
  · extract_lets +onlyGivenNames b ti halo
    exact some_grows (wakePip_grows (modPip_grows h))

theorem sendToPod_grows {j t p k : ℕ} {fr : IpFrame} (h : Grows s₀ s) : GrowsSome s₀ (sendToPod j t p k fr s) := by
  unfold sendToPod
  split
  · exact some_grows (passTile_grows h)
  · split
    · exact some_grows (passTile_grows h)
    · exact map_grows (sendTile_grows h) (fun _ h1 => modPod_grows h1)

theorem slotBegin_grows {j : ℕ} (h : Grows s₀ s) : Grows s₀ (slotBegin j s) := by
  unfold slotBegin
  split
  · exact h
  · exact ite_grows h (showCommits_grows (slotEnter_grows (modSlot_grows h)))

theorem dispatchOne_grows {j : ℕ} (h : Grows s₀ s) : Grows s₀ (dispatchOne j s) := by
  unfold dispatchOne
  split
  · exact h
  · extract_lets z toPod
    have htoPod : ∀ t s, Grows s₀ s → GrowsSome s₀ (toPod t s) := by
      intro t s h
      unfold toPod
      split
      · exact some_grows (passTile_grows h)
      · exact sendToPod_grows h
    split
    · exact getD_grows (sendToPod_grows (modSlot_grows h)) h
    · split
      · exact getD_grows (htoPod _ _ (modSlot_grows h)) h
      · split
        · exact getD_grows (htoPod _ _ h) h
        · exact h

theorem execTileDispatch_grows {j : ℕ} (h : Grows s₀ s) : GrowsNext s₀ (execTileDispatch j s) := by
  unfold execTileDispatch
  exact guardOk_grows (ite_grows (dispatchOne_grows (slotBegin_grows h)) h)

theorem progFault_grows {u : PipRef} (h : Grows s₀ s) : Grows s₀ (progFault u s) := by
  unfold progFault
  split
  · exact h
  · extract_lets +onlyGivenNames j s1 s2 s3 s4
    have h1 : Grows s₀ s1 := bump_grows (modPip_grows h)
    have h2 : Grows s₀ s2 := slotFsw_grows h1
    have h3 : Grows s₀ s3 := ite_grows h2 (raise_grows (modSlot_grows h2))
    have h4 : Grows s₀ s4 := ite_grows h3 (passTile_grows h3)
    exact wakePip_grows h4

theorem reloadPip_grows {u : PipRef} (h : Grows s₀ s) : Grows s₀ (reloadPip u s) := by
  unfold reloadPip
  exact modPip_grows h

theorem reloadPod_grows {p : ℕ} (h : Grows s₀ s) : Grows s₀ (reloadPod p s) := by
  unfold reloadPod
  exact modPod_grows h

theorem pipFault_grows {u : PipRef} {cause : ℕ} {inj : Bool} (h : Grows s₀ s) : Grows s₀ (pipFault u cause inj s) := by
  unfold pipFault
  split
  · exact h
  · extract_lets +onlyGivenNames j again s1 s2 s3 s4 s5 s6
    have h1 : Grows s₀ s1 := modPip_grows h
    have h2 : Grows s₀ s2 := ite_grows h1 (modSlot_grows h1)
    have h3 : Grows s₀ s3 := reloadPip_grows (bump_grows h2)
    have h4 : Grows s₀ s4 := setF_grows (setF_grows h3)
    have h5 : Grows s₀ s5 := ite_grows (raise_grows h4) h4
    have h6 : Grows s₀ s6 := showPod_grows h5
    exact ite_grows (passTile_grows (ite_grows (bump_grows h6) h6)) h6

theorem redispatch_grows {u : PipRef} {pos : ℕ} {ts : List TileIn} (h :
    Grows s₀ s) : Grows s₀ (redispatch u pos ts s) := by
  unfold redispatch
  exact foldl_grows (fun _ _ h2 => slotFsw_grows (bump_grows (modSlot_grows h2))) h

theorem retirePip_grows {u : PipRef} (h : Grows s₀ s) : Grows s₀ (retirePip u s) := by
  unfold retirePip
  extract_lets +onlyGivenNames z pos ts s1 s2 s3 s4 s5 s6 s7 s8
  have h1 : Grows s₀ s1 := modPip_grows h
  have h2 : Grows s₀ s2 := setF_grows (setF_grows h1)
  have h3 : Grows s₀ s3 := setF_grows h2
  have h4 : Grows s₀ s4 := raise_grows h3
  have h5 : Grows s₀ s5 := by
    unfold s5
    split
    · exact setPos_grows (setPos_grows h4)
    · exact setPos_grows h4
  have h6 : Grows s₀ s6 := ite_grows (raise_grows h5) h5
  have h7 : Grows s₀ s7 := by
    unfold s7
    split
    · exact h4
    · split
      · exact raise_grows (setF_grows (setPos_grows (modPod_grows h4)))
      · split
        · exact flag_grows h6
        · exact h6
  have h8 : Grows s₀ s8 := redispatch_grows (showPod_grows h7)
  clear_value ts
  split
  · exact dispatchOne_grows h8
  · exact h8

/-! ### The model's file `PipVec` -/

theorem issueParity_grows (h : Grows s₀ s) : Grows s₀ (issueParity s).2 := by
  unfold issueParity
  split
  rename_i s1 _ s2 e
  have h2 : Grows s₀ s2 := Grows.of_snd e (inject_grows h)
  split
  rename_i s3 _ s4 e2
  have h3 : Grows s₀ s4 := Grows.of_snd e2 (inject_grows h2)
  exact h3

theorem podParity_grows {u : PipRef} (h : Grows s₀ s) : Grows s₀ (podParity u s) := by
  unfold podParity
  split
  · exact h
  · exact wakePip_grows (passTile_grows (modPip_grows (modPod_grows h)))

theorem podExam_grows {u : PipRef} (h : Grows s₀ s) : Grows s₀ (podExam u s).2 := by
  unfold podExam
  exact ite_grows_snd h (examDetect_grows h)

theorem issueA_grows {op : ℕ} {u : PipRef} {w : BitVec 26} {f : PipRun → State → Option AWrite × State}
    (h1 : ∀ y1 y2, Grows s₀ y2 → Grows s₀ (f y1 y2).2) (h2 : Grows s₀ s) : GrowsNext s₀ (issueA op u w f s) := by
  unfold issueA
  refine guardOk_grows ?_
  split
  · exact h2
  · split
    · exact h2
    · split
      · split
        · rename_i s1 _ s2 e
          have h : Grows s₀ s2 := Grows.of_snd e (issueParity_grows h2)
          exact pipFault_grows h
        · rename_i s1 s2 e
          have h : Grows s₀ s2 := Grows.of_snd e (issueParity_grows h2)
          split
          · rename_i s3 _ s4 e2
            have h3 : Grows s₀ s4 := Grows.of_snd e2 (h1 _ _ h)
            exact modPip_grows h3
          · rename_i s3 s4 e2
            have h3 : Grows s₀ s4 := Grows.of_snd e2 (h1 _ _ h)
            exact podParity_grows h3
      · exact h2

theorem rawOp_grows {op : ℕ} {u : PipRef} {w : BitVec 26} {f : PipRun → ℕ → Word} (h :
    Grows s₀ s) : GrowsNext s₀ (rawOp op u w f s) := by
  unfold rawOp
  exact issueA_grows (fun _ _ h2 => h2) h

theorem laneOut_grows {u : PipRef} {n lat : ℕ} {res : List (Option (Word × Bool))} (h :
    Grows s₀ s) : Grows s₀ (laneOut u n lat res s).2 := by
  unfold laneOut
  extract_lets +onlyGivenNames sats
  split
  rename_i s1 _ s2 e
  have h2 : Grows s₀ s2 := Grows.of_snd e (ite_grows_snd (tally_grows h) h)
  exact ite_grows h2 (bumpBy_grows h2)

theorem laneOp_grows {op lat : ℕ} {u : PipRef} {w : BitVec 26} {f : PipRun → ℕ → Word × Bool} (h :
    Grows s₀ s) : GrowsNext s₀ (laneOp op lat u w f s) := by
  unfold laneOp
  exact issueA_grows (fun _ _ h2 => laneOut_grows h2) h

theorem slOp2_grows {op lat : ℕ} {g : ℚ → ℚ → ℚ} {u : PipRef} {w : BitVec 26} (h :
    Grows s₀ s) : GrowsNext s₀ (slOp2 op lat g u w s) := by
  unfold slOp2
  exact laneOp_grows h

theorem slOp1_grows {op lat : ℕ} {g : ℚ → ℚ} {u : PipRef} {w : BitVec 26} (h :
    Grows s₀ s) : GrowsNext s₀ (slOp1 op lat g u w s) := by
  unfold slOp1
  exact laneOp_grows h

theorem intOp2_grows {op : ℕ} {g : Word → Word → Word} {u : PipRef} {w : BitVec 26} (h :
    Grows s₀ s) : GrowsNext s₀ (intOp2 op g u w s) := by
  unfold intOp2
  exact rawOp_grows h

theorem cmpOp_grows {op : ℕ} {g : Word → Word → Bool} {u : PipRef} {w : BitVec 26} (h :
    Grows s₀ s) : GrowsNext s₀ (cmpOp op g u w s) := by
  unfold cmpOp
  exact issueA_grows (fun _ _ h2 => h2) h

theorem execVnop_grows {u : PipRef} {w : BitVec 26} (h : Grows s₀ s) : GrowsNext s₀ (execVnop u w s) := by
  unfold execVnop
  exact issueA_grows (fun _ _ h2 => h2) h

theorem execFadd_grows {u : PipRef} {w : BitVec 26} (h : Grows s₀ s) : GrowsNext s₀ (execFadd u w s) := by
  unfold execFadd
  exact slOp2_grows h

theorem execFsub_grows {u : PipRef} {w : BitVec 26} (h : Grows s₀ s) : GrowsNext s₀ (execFsub u w s) := by
  unfold execFsub
  exact slOp2_grows h

theorem execFmul_grows {u : PipRef} {w : BitVec 26} (h : Grows s₀ s) : GrowsNext s₀ (execFmul u w s) := by
  unfold execFmul
  exact slOp2_grows h

theorem execFma_grows {u : PipRef} {w : BitVec 26} (h : Grows s₀ s) : GrowsNext s₀ (execFma u w s) := by
  unfold execFma
  exact laneOp_grows h

theorem execFmin_grows {u : PipRef} {w : BitVec 26} (h : Grows s₀ s) : GrowsNext s₀ (execFmin u w s) := by
  unfold execFmin
  exact slOp2_grows h

theorem execFmax_grows {u : PipRef} {w : BitVec 26} (h : Grows s₀ s) : GrowsNext s₀ (execFmax u w s) := by
  unfold execFmax
  exact slOp2_grows h

theorem execFabs_grows {u : PipRef} {w : BitVec 26} (h : Grows s₀ s) : GrowsNext s₀ (execFabs u w s) := by
  unfold execFabs
  exact slOp1_grows h

theorem execFneg_grows {u : PipRef} {w : BitVec 26} (h : Grows s₀ s) : GrowsNext s₀ (execFneg u w s) := by
  unfold execFneg
  exact slOp1_grows h

theorem execFrcp_grows {u : PipRef} {w : BitVec 26} (h : Grows s₀ s) : GrowsNext s₀ (execFrcp u w s) := by
  unfold execFrcp
  exact laneOp_grows h

theorem execFlog2_grows {u : PipRef} {w : BitVec 26} (h : Grows s₀ s) : GrowsNext s₀ (execFlog2 u w s) := by
  unfold execFlog2
  exact slOp1_grows h

theorem execFexp2_grows {u : PipRef} {w : BitVec 26} (h : Grows s₀ s) : GrowsNext s₀ (execFexp2 u w s) := by
  unfold execFexp2
  exact slOp1_grows h

theorem execFcmplt_grows {u : PipRef} {w : BitVec 26} (h : Grows s₀ s) : GrowsNext s₀ (execFcmplt u w s) := by
  unfold execFcmplt
  exact cmpOp_grows h

theorem execFcmple_grows {u : PipRef} {w : BitVec 26} (h : Grows s₀ s) : GrowsNext s₀ (execFcmple u w s) := by
  unfold execFcmple
  exact cmpOp_grows h

theorem execFcmpeq_grows {u : PipRef} {w : BitVec 26} (h : Grows s₀ s) : GrowsNext s₀ (execFcmpeq u w s) := by
  unfold execFcmpeq
  exact cmpOp_grows h

theorem execFsel_grows {u : PipRef} {w : BitVec 26} (h : Grows s₀ s) : GrowsNext s₀ (execFsel u w s) := by
  unfold execFsel
  exact laneOp_grows h

theorem execIadd_grows {u : PipRef} {w : BitVec 26} (h : Grows s₀ s) : GrowsNext s₀ (execIadd u w s) := by
  unfold execIadd
  exact intOp2_grows h

theorem execIsub_grows {u : PipRef} {w : BitVec 26} (h : Grows s₀ s) : GrowsNext s₀ (execIsub u w s) := by
  unfold execIsub
  exact intOp2_grows h

theorem execImul_grows {u : PipRef} {w : BitVec 26} (h : Grows s₀ s) : GrowsNext s₀ (execImul u w s) := by
  unfold execImul
  exact intOp2_grows h

theorem execImin_grows {u : PipRef} {w : BitVec 26} (h : Grows s₀ s) : GrowsNext s₀ (execImin u w s) := by
  unfold execImin
  exact intOp2_grows h

theorem execImax_grows {u : PipRef} {w : BitVec 26} (h : Grows s₀ s) : GrowsNext s₀ (execImax u w s) := by
  unfold execImax
  exact intOp2_grows h

theorem execVand_grows {u : PipRef} {w : BitVec 26} (h : Grows s₀ s) : GrowsNext s₀ (execVand u w s) := by
  unfold execVand
  exact intOp2_grows h

theorem execVor_grows {u : PipRef} {w : BitVec 26} (h : Grows s₀ s) : GrowsNext s₀ (execVor u w s) := by
  unfold execVor
  exact intOp2_grows h

theorem execVxor_grows {u : PipRef} {w : BitVec 26} (h : Grows s₀ s) : GrowsNext s₀ (execVxor u w s) := by
  unfold execVxor
  exact intOp2_grows h

theorem execVshl_grows {u : PipRef} {w : BitVec 26} (h : Grows s₀ s) : GrowsNext s₀ (execVshl u w s) := by
  unfold execVshl
  exact intOp2_grows h

theorem execVshr_grows {u : PipRef} {w : BitVec 26} (h : Grows s₀ s) : GrowsNext s₀ (execVshr u w s) := by
  unfold execVshr
  exact intOp2_grows h

theorem execVsra_grows {u : PipRef} {w : BitVec 26} (h : Grows s₀ s) : GrowsNext s₀ (execVsra u w s) := by
  unfold execVsra
  exact intOp2_grows h

theorem execIcmplt_grows {u : PipRef} {w : BitVec 26} (h : Grows s₀ s) : GrowsNext s₀ (execIcmplt u w s) := by
  unfold execIcmplt
  exact cmpOp_grows h

theorem execIcmpeq_grows {u : PipRef} {w : BitVec 26} (h : Grows s₀ s) : GrowsNext s₀ (execIcmpeq u w s) := by
  unfold execIcmpeq
  exact cmpOp_grows h

theorem execCvtfi_grows {u : PipRef} {w : BitVec 26} (h : Grows s₀ s) : GrowsNext s₀ (execCvtfi u w s) := by
  unfold execCvtfi
  exact laneOp_grows h

theorem execCvtif_grows {u : PipRef} {w : BitVec 26} (h : Grows s₀ s) : GrowsNext s₀ (execCvtif u w s) := by
  unfold execCvtif
  exact laneOp_grows h

theorem execVmov_grows {u : PipRef} {w : BitVec 26} (h : Grows s₀ s) : GrowsNext s₀ (execVmov u w s) := by
  unfold execVmov
  exact rawOp_grows h

theorem execVsplat_grows {u : PipRef} {w : BitVec 26} (h : Grows s₀ s) : GrowsNext s₀ (execVsplat u w s) := by
  unfold execVsplat
  exact rawOp_grows h

theorem execVimm_grows {u : PipRef} {w : BitVec 26} (h : Grows s₀ s) : GrowsNext s₀ (execVimm u w s) := by
  unfold execVimm
  exact rawOp_grows h

theorem execVimmh_grows {u : PipRef} {w : BitVec 26} (h : Grows s₀ s) : GrowsNext s₀ (execVimmh u w s) := by
  unfold execVimmh
  exact rawOp_grows h

theorem execVswz_grows {u : PipRef} {w : BitVec 26} (h : Grows s₀ s) : GrowsNext s₀ (execVswz u w s) := by
  unfold execVswz
  exact rawOp_grows h

theorem execLut_grows {u : PipRef} {w : BitVec 26} (h : Grows s₀ s) : GrowsNext s₀ (execLut u w s) := by
  unfold execLut
  exact issueA_grows (fun _ _ h2 => ite_grows_snd (podExam_grows h2) (laneOut_grows (podExam_grows h2))) h

/-! ### The model's file `PipScalar` -/

theorem issueB_grows {op : ℕ} {u : PipRef} {w : BitVec 26} {f : PipRun → State → BRes × State}
    (h1 : ∀ y1 y2, Grows s₀ y2 → Grows s₀ (f y1 y2).2) (h2 : Grows s₀ s) : GrowsNext s₀ (issueB op u w f s) := by
  unfold issueB
  refine guardOk_grows ?_
  split
  · exact h2
  · split
    · exact h2
    · split
      · split
        · rename_i s1 _ s2 e
          have h : Grows s₀ s2 := Grows.of_snd e (h1 _ _ h2)
          exact modPip_grows h
        · rename_i s1 s2 e
          have h : Grows s₀ s2 := Grows.of_snd e (h1 _ _ h2)
          exact progFault_grows h
        · rename_i s1 _ s2 e
          have h : Grows s₀ s2 := Grows.of_snd e (h1 _ _ h2)
          exact pipFault_grows h
        · rename_i s1 s2 e
          have h : Grows s₀ s2 := Grows.of_snd e (h1 _ _ h2)
          exact podParity_grows h
      · exact h2

theorem loadWord_grows {u : PipRef} {r : PipRun} {a : ℕ} (h : Grows s₀ s) : Grows s₀ (loadWord u r a s).2 := by
  unfold loadWord
  split
  · exact h
  · split
    · split
      rename_i s1 _ s2 e
      have h2 : Grows s₀ s2 := Grows.of_snd e (inject_grows h)
      exact ite_grows_snd h2 (ite_grows_snd h2 h2)
    · split
      · split
        rename_i s1 _ s2 e
        have h2 : Grows s₀ s2 := Grows.of_snd e (podExam_grows h)
        exact ite_grows_snd h2 h2
      · exact h

theorem scalarR_grows {op : ℕ} {g : Word → Word → Word} {u : PipRef} {w : BitVec 26} (h :
    Grows s₀ s) : GrowsNext s₀ (scalarR op g u w s) := by
  unfold scalarR
  exact issueB_grows (fun _ _ h2 => h2) h

theorem branchJ_grows {op : ℕ} {g : PipRun → ℕ → Bool} {u : PipRef} {w : BitVec 26} (h :
    Grows s₀ s) : GrowsNext s₀ (branchJ op g u w s) := by
  unfold branchJ
  exact issueB_grows (fun _ _ h2 => ite_grows_snd (ite_grows_snd h2 h2) h2) h

theorem execNop_grows {u : PipRef} {w : BitVec 26} (h : Grows s₀ s) : GrowsNext s₀ (execNop u w s) := by
  unfold execNop
  exact issueB_grows (fun _ _ h2 => h2) h

theorem execVld_grows {u : PipRef} {w : BitVec 26} (h : Grows s₀ s) : GrowsNext s₀ (execVld u w s) := by
  unfold execVld
  refine issueB_grows (fun _ s hs => ?_) h
  extract_lets +onlyGivenNames n a
  dsimp only
  split
  · dsimp only
    refine foldl_grows_snd (fun s1 x h2 => ?_) hs
    split
    · rename_i s1 _ s2
      exact h2
    · rename_i s1 _ s2
      split
      · split
        · rename_i s3 _ s4 e
          have h3 : Grows s₀ s4 := Grows.of_snd e (loadWord_grows h2)
          exact h3
        · rename_i s3 _ s4 e
          have h3 : Grows s₀ s4 := Grows.of_snd e (loadWord_grows h2)
          exact h3
      · exact h2
  · dsimp only
    refine foldl_grows_snd (fun s1 x h2 => ?_) hs
    split
    · rename_i s1 _ s2
      exact h2
    · rename_i s1 _ s2
      split
      · split
        · rename_i s3 _ s4 e
          have h3 : Grows s₀ s4 := Grows.of_snd e (loadWord_grows h2)
          exact h3
        · rename_i s3 _ s4 e
          have h3 : Grows s₀ s4 := Grows.of_snd e (loadWord_grows h2)
          exact h3
      · exact h2

theorem execVst_grows {u : PipRef} {w : BitVec 26} (h : Grows s₀ s) : GrowsNext s₀ (execVst u w s) := by
  unfold execVst
  exact issueB_grows (fun _ _ h2 => ite_grows_snd h2 h2) h

theorem execLdw_grows {u : PipRef} {w : BitVec 26} (h : Grows s₀ s) : GrowsNext s₀ (execLdw u w s) := by
  unfold execLdw
  refine issueB_grows (fun _ s hs => ?_) h
  split
  · rename_i s1 _ s2 e
    have h2 : Grows s₀ s2 := Grows.of_snd e (loadWord_grows hs)
    exact h2
  · rename_i s1 _ s2 e
    have h2 : Grows s₀ s2 := Grows.of_snd e (loadWord_grows hs)
    exact h2

theorem execStw_grows {u : PipRef} {w : BitVec 26} (h : Grows s₀ s) : GrowsNext s₀ (execStw u w s) := by
  unfold execStw
  exact issueB_grows (fun _ _ h2 => ite_grows_snd h2 h2) h

theorem execSadd_grows {u : PipRef} {w : BitVec 26} (h : Grows s₀ s) : GrowsNext s₀ (execSadd u w s) := by
  unfold execSadd
  exact scalarR_grows h

theorem execSsub_grows {u : PipRef} {w : BitVec 26} (h : Grows s₀ s) : GrowsNext s₀ (execSsub u w s) := by
  unfold execSsub
  exact scalarR_grows h

theorem execSmul_grows {u : PipRef} {w : BitVec 26} (h : Grows s₀ s) : GrowsNext s₀ (execSmul u w s) := by
  unfold execSmul
  exact scalarR_grows h

theorem execSand_grows {u : PipRef} {w : BitVec 26} (h : Grows s₀ s) : GrowsNext s₀ (execSand u w s) := by
  unfold execSand
  exact scalarR_grows h

theorem execSor_grows {u : PipRef} {w : BitVec 26} (h : Grows s₀ s) : GrowsNext s₀ (execSor u w s) := by
  unfold execSor
  exact scalarR_grows h

theorem execSxor_grows {u : PipRef} {w : BitVec 26} (h : Grows s₀ s) : GrowsNext s₀ (execSxor u w s) := by
  unfold execSxor
  exact scalarR_grows h

theorem execSshl_grows {u : PipRef} {w : BitVec 26} (h : Grows s₀ s) : GrowsNext s₀ (execSshl u w s) := by
  unfold execSshl
  exact scalarR_grows h

theorem execSshr_grows {u : PipRef} {w : BitVec 26} (h : Grows s₀ s) : GrowsNext s₀ (execSshr u w s) := by
  unfold execSshr
  exact scalarR_grows h

theorem execSsra_grows {u : PipRef} {w : BitVec 26} (h : Grows s₀ s) : GrowsNext s₀ (execSsra u w s) := by
  unfold execSsra
  exact scalarR_grows h

theorem execSlt_grows {u : PipRef} {w : BitVec 26} (h : Grows s₀ s) : GrowsNext s₀ (execSlt u w s) := by
  unfold execSlt
  exact scalarR_grows h

theorem execAddi_grows {u : PipRef} {w : BitVec 26} (h : Grows s₀ s) : GrowsNext s₀ (execAddi u w s) := by
  unfold execAddi
  exact issueB_grows (fun _ _ h2 => h2) h

theorem execLi_grows {u : PipRef} {w : BitVec 26} (h : Grows s₀ s) : GrowsNext s₀ (execLi u w s) := by
  unfold execLi
  exact issueB_grows (fun _ _ h2 => h2) h

theorem execLui_grows {u : PipRef} {w : BitVec 26} (h : Grows s₀ s) : GrowsNext s₀ (execLui u w s) := by
  unfold execLui
  exact issueB_grows (fun _ _ h2 => h2) h

theorem execVget_grows {u : PipRef} {w : BitVec 26} (h : Grows s₀ s) : GrowsNext s₀ (execVget u w s) := by
  unfold execVget
  exact issueB_grows (fun _ _ h2 => h2) h

theorem execVput_grows {u : PipRef} {w : BitVec 26} (h : Grows s₀ s) : GrowsNext s₀ (execVput u w s) := by
  unfold execVput
  exact issueB_grows (fun _ _ h2 => h2) h

theorem execBr_grows {u : PipRef} {w : BitVec 26} (h : Grows s₀ s) : GrowsNext s₀ (execBr u w s) := by
  unfold execBr
  exact branchJ_grows h

theorem execBeq_grows {u : PipRef} {w : BitVec 26} (h : Grows s₀ s) : GrowsNext s₀ (execBeq u w s) := by
  unfold execBeq
  exact branchJ_grows h

theorem execBne_grows {u : PipRef} {w : BitVec 26} (h : Grows s₀ s) : GrowsNext s₀ (execBne u w s) := by
  unfold execBne
  exact branchJ_grows h

theorem execBlt_grows {u : PipRef} {w : BitVec 26} (h : Grows s₀ s) : GrowsNext s₀ (execBlt u w s) := by
  unfold execBlt
  exact branchJ_grows h

theorem execBany_grows {u : PipRef} {w : BitVec 26} (h : Grows s₀ s) : GrowsNext s₀ (execBany u w s) := by
  unfold execBany
  exact branchJ_grows h

theorem execBall_grows {u : PipRef} {w : BitVec 26} (h : Grows s₀ s) : GrowsNext s₀ (execBall u w s) := by
  unfold execBall
  exact branchJ_grows h

theorem acceptTile_grows {u : PipRef} {t : TileIn} {mem : List (ℕ × Word)} (h :
    Grows s₀ s) : Grows s₀ (acceptTile u t mem s) := by
  unfold acceptTile
  split
  · exact h
  · exact leaveTile_grows (placeTile_grows (bump_grows h))

theorem fenceResult_grows {u : PipRef} (h : Grows s₀ s) : Grows s₀ (fenceResult u s) := by
  unfold fenceResult
  exact ite_grows (bump_grows h) (raise_grows (modPip_grows (bump_grows h)))

theorem execPipEnd_grows {u : PipRef} {w : BitVec 26} (h : Grows s₀ s) : GrowsNext s₀ (execPipEnd u w s) := by
  unfold execPipEnd
  refine guardOk_grows ?_
  split
  · exact h
  · split
    · exact fenceResult_grows (modPip_grows h)
    · split
      · exact h
      · split
        · exact h
        · split
          · split
            · split
              rename_i s1 _ s2 e
              have h2 : Grows s₀ s2 := Grows.of_snd e (examine_grows h)
              exact pipFault_grows h2
            · exact wakePip_grows (ite_grows (acceptTile_grows (modPip_grows h)) (fenceResult_grows (modPip_grows h)))
          · exact h

/-! ### The model's file `Pip` -/

theorem judgePkg_grows {j gen : ℕ} (h : Grows s₀ s) : Grows s₀ (judgePkg j gen s).2 := by
  obtain ⟨body, hbody⟩ : ∃ f, f = judgePkg := ⟨_, rfl⟩
  obtain ⟨dmaRead', hdmaRead'⟩ : ∃ f, f = dmaRead := ⟨_, rfl⟩
  have hdmaRead := @dmaRead_grows s₀
  rw [← hbody]
  delta judgePkg at hbody
  rw [← hdmaRead'] at hdmaRead hbody
  subst hbody
  beta_reduce
  extract_lets +onlyGivenNames a
  split
  · rename_i s1 s2 e
    have h2 : Grows s₀ s2 := Grows.of_snd e (hdmaRead h)
    exact h2
  · rename_i s1 _ s2 e
    have h2 : Grows s₀ s2 := Grows.of_snd e (hdmaRead h)
    split
    split
    · rename_i s3 s4 e2
      have h3 : Grows s₀ s4 := Grows.of_snd e2 (hdmaRead h2)
      exact h3
    · rename_i s3 _ s4 e2
      have h3 : Grows s₀ s4 := Grows.of_snd e2 (hdmaRead h2)
      exact h3

theorem showSlot_grows {j : ℕ} (h : Grows s₀ s) : Grows s₀ (showSlot j s) := by
  unfold showSlot
  exact setF_grows (setF_grows (setF_grows h))

theorem admitSlot_grows {j : ℕ} (h : Grows s₀ s) : Grows s₀ (admitSlot j s).2 := by
  unfold admitSlot
  extract_lets +onlyGivenNames gen base s1 s2
  have h1 : Grows s₀ s1 := modSlot_grows h
  have h2 : Grows s₀ s2 := setF_grows (setF_grows (setF_grows h1))
  split
  · exact h2
  · split
    · rename_i s3 _ s4 e
      have h3 : Grows s₀ s4 := Grows.of_snd e (judgePkg_grows h2)
      exact raise_grows (setF_grows h3)
    · rename_i s3 _ s4 e
      have h3 : Grows s₀ s4 := Grows.of_snd e (judgePkg_grows h2)
      exact raise_grows (modSlot_grows (flag_grows (setF_grows h3)))

theorem setProg_grows {n pfn c : ℕ} {g : Option ℕ} (h : Grows s₀ s) : Grows s₀ (setProg n pfn c g s) := by
  unfold setProg
  exact modIp_grows h

theorem pipRegsLive_grows {n : ℕ} (h : Grows s₀ s) : Grows s₀ (pipRegsLive n s) := by
  unfold pipRegsLive
  exact foldl_grows (fun _ _ h2 => ite_grows (takeLive_grows (Grows.update h2)) h2) (takeLive_grows h)

theorem pipOverlay_grows {n pfn : ℕ} (h : Grows s₀ s) : Grows s₀ (pipOverlay n pfn s) := by
  unfold pipOverlay
  split
  · extract_lets +onlyGivenNames was s1
    have h1 : Grows s₀ s1 := pipRegsLive_grows h
    refine foldl_grows (fun s2 x h2 => ?_) h1
    split
    · extract_lets +onlyGivenNames s3 again fresh
      have h3 : Grows s₀ s3 := showSlot_grows h2
      split
      · split
        rename_i s4 _ s5 e
        have h4 : Grows s₀ s5 := Grows.of_snd e (admitSlot_grows h3)
        exact setProg_grows h4
      · exact h3
    · split
      · split
        rename_i s3 _ s4 e
        have h3 : Grows s₀ s4 := Grows.of_snd e (admitSlot_grows (showSlot_grows h2))
        exact setProg_grows h3
      · exact h2
  · exact h

theorem execPackageLoad_grows {j : ℕ} (h : Grows s₀ s) : GrowsNext s₀ (execPackageLoad j s) := by
  unfold execPackageLoad
  refine guardOk_grows ?_
  split
  · exact ite_grows h (showLoading_grows (modSlot_grows h))
  · exact h

theorem execPackageLoadDone_grows {j : ℕ} (h : Grows s₀ s) : GrowsNext s₀ (execPackageLoadDone j s) := by
  unfold execPackageLoadDone
  refine guardOk_grows ?_
  split
  · exact h
  · exact h
  · exact showLoading_grows (modSlot_grows (foldl_grows (fun _ _ h2 => foldl_grows (fun _ _ h3 => reloadPip_grows
      h3) (reloadPod_grows (modPod_grows h2))) h))

theorem execSignatureTest_grows {u : PipRef} (h : Grows s₀ s) : GrowsNext s₀ (execSignatureTest u s) := by
  unfold execSignatureTest
  exact guardOk_grows (ite_grows (ite_grows (bump_grows h) (showPod_grows (setF_grows (modPip_grows h)))) h)

theorem rerunTile_grows {u : PipRef} {t : TileIn} (h : Grows s₀ s) : Grows s₀ (rerunTile u t s) := by
  unfold rerunTile
  split
  · exact h
  · exact startRun_grows (modPip_grows h)

theorem execSignatureTestDone_grows {u : PipRef} {pass : Bool} (h :
    Grows s₀ s) : GrowsNext s₀ (execSignatureTestDone u pass s) := by
  unfold execSignatureTestDone
  refine guardOk_grows ?_
  split
  · exact h
  · split
    · exact h
    · split
      rename_i s1 _ s2 e
      have h2 : Grows s₀ s2 := Grows.of_snd e (examine_grows h)
      split
      · exact ite_grows (setF_grows (bump_grows (modPip_grows h2))) (wakePip_grows (showPod_grows (restState_grows
          (modPip_grows h2))))
      · extract_lets +onlyGivenNames det s3 s4
        have h3 : Grows s₀ s3 := transient_grows (bump_grows (modPip_grows h2))
        have h4 : Grows s₀ s4 := showPod_grows (restState_grows h3)
        split
        · exact retirePip_grows (lasting_grows h2)
        · split
          · exact rerunTile_grows h4
          · exact wakePip_grows h4

theorem execTileWatchdog_grows {u : PipRef} (h : Grows s₀ s) : GrowsNext s₀ (execTileWatchdog u s) := by
  unfold execTileWatchdog
  refine guardOk_grows ?_
  split
  · exact h
  · split
    · exact h
    · extract_lets +onlyGivenNames late
      split
      rename_i s1 _ s2 e
      have h2 : Grows s₀ s2 := Grows.of_snd e (examine_grows h)
      exact ite_grows (pipFault_grows h2) h2

theorem execPodMemoryReload_grows {p : ℕ} (h : Grows s₀ s) : GrowsNext s₀ (execPodMemoryReload p s) := by
  unfold execPodMemoryReload
  exact guardOk_grows (ite_grows (reloadPod_grows h) h)

theorem pipReadmitWrite_grows {r : Requester} {v : Word} (h : Grows s₀ s) : Grows s₀ (pipReadmitWrite r v s) := by
  unfold pipReadmitWrite
  exact ite_grows (modPip_grows h) (flag_grows h)

theorem execPipReadmit_grows {r : Requester} {v : Word} (h : Grows s₀ s) : GrowsNext s₀ (execPipReadmit r v s) := by
  unfold execPipReadmit
  exact next_grows (writeBy_grows (fun _ h2 => pipReadmitWrite_grows h2) h)

theorem execReadmitTest_grows {u : PipRef} {pass : Bool} (h :
    Grows s₀ s) : GrowsNext s₀ (execReadmitTest u pass s) := by
  unfold execReadmitTest
  refine guardOk_grows ?_
  split
  · split
    rename_i s1 _ s2 e
    have h2 : Grows s₀ s2 := Grows.of_snd e (examine_grows h)
    split
    · exact monReadmitted_grows (raise_grows (modPip_grows h2))
    · extract_lets +onlyGivenNames s3 s4
      have h3 : Grows s₀ s3 := setF_grows h2
      have h4 : Grows s₀ s4 := reloadPip_grows (modPip_grows h3)
      split
      · exact h4
      · exact joinPip_grows h4
  · exact h

/-! ### The model's file `Bus` -/

theorem sysEffect_grows {a : ℕ} {v : Word} (h : Grows s₀ s) : Grows s₀ (sysEffect a v s) := by
  unfold sysEffect
  exact ite_grows (plainWrite_grows h) (ite_grows (qbaseWrite_grows h) (ite_grows (qsizeWrite_grows h) (ite_grows
      (qheadWrite_grows h) (plainWrite_grows h))))

theorem pwrEffect_grows {r : Requester} {a : ℕ} {v : Word} (h : Grows s₀ s) : Grows s₀ (pwrEffect r a v s) := by
  unfold pwrEffect
  split
  · exact voteWrite_grows h
  · split
    · exact padReleaseWrite_grows h
    · split
      · exact sleepWrite_grows h
      · split
        · exact resetWrite_grows h
        · exact ite_grows (wdtCfgWrite_grows h) (ite_grows (wdtKickWrite_grows h) (ite_grows (avsCfgWrite_grows h)
            (ite_grows (thmReadmitWrite_grows h) (ite_grows (thrWrite_grows h) (ite_grows (t2Write_grows h)
            (plainWrite_grows h))))))

theorem injCntWrite_grows {k : ℕ} {v : Word} (h : Grows s₀ s) : Grows s₀ (injCntWrite k v s) := by
  unfold injCntWrite
  exact ite_grows (injDisarm_grows (plainWrite_grows h)) (plainWrite_grows h)

theorem errEffect_grows {r : Requester} {a : ℕ} {v : Word} (h : Grows s₀ s) : Grows s₀ (errEffect r a v s) := by
  unfold errEffect
  exact ite_grows (injCfgWrite_grows h) (ite_grows (injCntWrite_grows h) (ite_grows (injCtrlWrite_grows h)
      (ite_grows (logCtrlWrite_grows h) (plainWrite_grows h))))

theorem refEffect_grows {a : ℕ} {v : Word} (h : Grows s₀ s) : Grows s₀ (refEffect a v s) := by
  unfold refEffect
  exact ite_grows (refCtrlWrite_grows h) (ite_grows (refRateWrite_grows h) (ite_grows (refRateWrite_grows h)
      (ite_grows (refRfnWrite_grows h) (ite_grows (refPhaseWrite_grows h) (plainWrite_grows h)))))

theorem cfgEffect_grows {a : ℕ} {v : Word} (h : Grows s₀ s) : Grows s₀ (cfgEffect a v s) := by
  unfold cfgEffect
  exact ite_grows (ovlReqWrite_grows h) (ite_grows (lockWrite_grows h) (ite_grows (warmWrite_grows h) (ite_grows
      (showOtp_grows (plainWrite_grows h)) (ite_grows (otpCmdWrite_grows h) (plainWrite_grows h)))))

theorem spEffect_grows {n a : ℕ} {v : Word} (h : Grows s₀ s) : Grows s₀ (spEffect n a v s) := by
  unfold spEffect
  extract_lets +onlyGivenNames k
  exact ite_grows (ite_grows (laneCtrlWrite_grows h) (plainWrite_grows h)) (ite_grows (spCtrlWrite_grows h)
      (ite_grows (frameSizeWrite_grows h) (ite_grows (xclkCfgWrite_grows h) (ite_grows (jvCtrlWrite_grows h)
      (ite_grows (jvMapWrite_grows h) (ite_grows (jvOrderWrite_grows h) (ite_grows (jvChgWrite_grows h) (ite_grows
      (ite_grows (flag_grows h) (plainWrite_grows h)) (ite_grows (setPush_grows h) (ite_grows (setClose_grows h)
      (ite_grows (ite_grows (flag_grows h) (plainWrite_grows h)) (ite_grows (dirCmdWrite_grows h) (ite_grows
      (ssIdleWrite_grows h) (plainWrite_grows h))))))))))))))

theorem ringEffect_grows {r : RingId} {which : ℕ} {v : Word} (h : Grows s₀ s) : Grows s₀ (ringEffect r which v s) := by
  unfold ringEffect
  exact ite_grows (ringBufsWrite_grows h) (ringGeomWrite_grows h)

theorem ipEffect_grows {n a : ℕ} {v : Word} (h : Grows s₀ s) : Grows s₀ (ipEffect n a v s) := by
  unfold ipEffect
  extract_lets +onlyGivenNames s1
  have h1 : Grows s₀ s1 := ipStall_grows h
  split
  · exact commitWrite_grows h1
  · split
    · exact calCtrlWrite_grows h1
    · split
      · exact ringEffect_grows h1
      · exact flag_grows h1
      · exact ipTouch_grows (plainWrite_grows h1)

theorem pipEffect_grows {r : Requester} {a : ℕ} {v : Word} (h : Grows s₀ s) : Grows s₀ (pipEffect r a v s) := by
  unfold pipEffect
  exact ite_grows (plainWrite_grows h) (ite_grows h (ite_grows (pipReadmitWrite_grows h) (plainWrite_grows h)))

theorem prcEffect_grows {n a : ℕ} {v : Word} (h : Grows s₀ s) : Grows s₀ (prcEffect n a v s) := by
  unfold prcEffect
  split
  · exact prcCtrlWrite_grows h
  · split
    · exact ite_grows (plainWrite_grows h) (flag_grows h)
    · split
      · exact prcApplyWrite_grows h
      · split
        · exact ringEffect_grows h
        · exact plainWrite_grows h

theorem entriesWrite_grows {bad : Fld} {a : ℕ} {v : Word} (h : Grows s₀ s) : Grows s₀ (entriesWrite bad a v s) := by
  unfold entriesWrite
  exact ite_grows (flag_grows h) (plainWrite_grows h)

theorem hvcEffect_grows {a : ℕ} {v : Word} (h : Grows s₀ s) : Grows s₀ (hvcEffect a v s) := by
  unfold hvcEffect
  extract_lets +onlyGivenNames c d
  split
  · exact plainWrite_grows h
  · split
    · split
      · exact ecApplyWrite_grows h
      · split
        · exact ecIdrWrite_grows h
        · split
          · exact ecLtWrite_grows h
          · split
            · exact ecPoolWrite_grows h
            · split
              · exact entriesWrite_grows h
              · split
                · exact ecRepHeadWrite_grows h
                · split
                  · exact ringEffect_grows h
                  · exact plainWrite_grows h
    · exact ite_grows (decTailWrite_grows h) (ite_grows (entriesWrite_grows h) (ite_grows (decCplHeadWrite_grows h)
        (ite_grows (ctbToWrite_grows h) (ite_grows (dpbRelWrite_grows h) (plainWrite_grows h)))))

theorem pkeEffect_grows {a : ℕ} {v : Word} (h : Grows s₀ s) : Grows s₀ (pkeEffect a v s) := by
  unfold pkeEffect
  exact ite_grows (pkeCtrlWrite_grows h) (plainWrite_grows h)

theorem mcEffect_grows {m a : ℕ} {v : Word} (h : Grows s₀ s) : Grows s₀ (mcEffect m a v s) := by
  unfold mcEffect
  exact ite_grows (trainWrite_grows h) (ite_grows (plainWrite_grows h) (ite_grows h (ite_grows (mapApplyWrite_grows
      h) (ite_grows (memCtrlWrite_grows h) (ite_grows (eccRegionWrite_grows h) (plainWrite_grows h))))))

theorem rmEffect_grows {a : ℕ} {v : Word} (h : Grows s₀ s) : Grows s₀ (rmEffect a v s) := by
  unfold rmEffect
  extract_lets +onlyGivenNames m w k
  split
  · exact plainWrite_grows h
  · exact ite_grows (ite_grows (mbrCtrlWrite_grows h) (plainWrite_grows h)) (ite_grows (ite_grows
      (volCtrlWrite_grows h) (plainWrite_grows h)) (ite_grows (strCtrlWrite_grows h) (ite_grows (tryClose_grows
      (grantWrite_grows h)) (plainWrite_grows h))))

theorem oepEffect_grows {a : ℕ} {v : Word} (h : Grows s₀ s) : Grows s₀ (oepEffect a v s) := by
  unfold oepEffect
  exact ite_grows (nsActivate_grows (hostClear_grows (plainWrite_grows h))) (ite_grows (ajWrite_grows h)
      (plainWrite_grows h))

theorem scoEffect_grows {a : ℕ} {v : Word} (h : Grows s₀ s) : Grows s₀ (scoEffect a v s) := by
  unfold scoEffect
  exact ite_grows (scoCtrlWrite_grows h) (ite_grows (scoTimWrite_grows h) (plainWrite_grows h))

theorem audEffect_grows {n a : ℕ} {v : Word} (h : Grows s₀ s) : Grows s₀ (audEffect n a v s) := by
  unfold audEffect
  exact ite_grows (audCtrlWrite_grows h) (ite_grows (audFmtWrite_grows h) (ite_grows (maskWrite_grows h) (ite_grows
      (audRingWrite_grows h) (ite_grows (mclkWrite_grows h) (plainWrite_grows h)))))

theorem netEffect_grows {m a : ℕ} {v : Word} (h : Grows s₀ s) : Grows s₀ (netEffect m a v s) := by
  unfold netEffect
  extract_lets +onlyGivenNames k
  split
  · exact netCtrlWrite_grows h
  · split
    · exact netEntriesWrite_grows h
    · split
      · exact rxTailWrite_grows h
      · split
        · split
          rename_i s1 _ s2 e
          have h2 : Grows s₀ s2 := Grows.of_snd e (draw_grows h)
          exact mdioWrite_grows h2
        · exact ite_grows (nstrCfgWrite_grows h) (ite_grows (nstrPayWrite_grows h) (plainWrite_grows h))

theorem tsuEffect_grows {a : ℕ} {v : Word} (h : Grows s₀ s) : Grows s₀ (tsuEffect a v s) := by
  unfold tsuEffect
  exact ite_grows (tsuIncrNsWrite_grows h) (ite_grows (tsuIncrCommit_grows h) (ite_grows (tsuCmdWrite_grows h)
      (plainWrite_grows h)))

theorem pfiEffect_grows {c a : ℕ} {v : Word} (h : Grows s₀ s) : Grows s₀ (pfiEffect c a v s) := by
  unfold pfiEffect
  split
  · exact pfiCtrlWrite_grows h
  · split
    · exact pfiStatusWrite_grows h
    · exact ite_grows (spdWinWrite_grows h) (ite_grows (pwmWrite_grows h) (ite_grows (dutyWrite_grows h) (ite_grows
        (commWrite_grows h) (ite_grows (phCfgWrite_grows h) (ite_grows (posWrite_grows h) (plainWrite_grows h))))))

theorem monEffect_grows {a : ℕ} {v : Word} (h : Grows s₀ s) : Grows s₀ (monEffect a v s) := by
  unfold monEffect
  split
  · exact xspiRegWrite_grows h
  · split
    · exact xspiCmdWrite_grows h
    · exact ite_grows (gpioWrite_grows h) (ite_grows (gpioSetWrite_grows h) (ite_grows (gpioClrWrite_grows h)
        (ite_grows (pmbCtrlWrite_grows h) (ite_grows (pmbRegWrite_grows h) (ite_grows (mboxCtrlWrite_grows h)
        (plainWrite_grows h))))))

theorem regWrite_grows {r : Requester} {a : ℕ} {v : Word} (h : Grows s₀ s) : Grows s₀ (regWrite r a v s) := by
  unfold regWrite
  exact ite_grows (sysEffect_grows h) (ite_grows (pwrEffect_grows h) (ite_grows (errEffect_grows h) (ite_grows
      (refEffect_grows h) (ite_grows (cfgEffect_grows h) (ite_grows (spEffect_grows h) (ite_grows (ipEffect_grows h)
      (ite_grows (plainWrite_grows h) (ite_grows (pipEffect_grows h) (ite_grows (prcEffect_grows h) (ite_grows
      (ite_grows (prdGoWrite_grows h) (plainWrite_grows h)) (ite_grows (hvcEffect_grows h) (ite_grows
      (pkeEffect_grows h) (ite_grows (mcEffect_grows h) (ite_grows (rmEffect_grows h) (ite_grows (oepEffect_grows h)
      (ite_grows (scoEffect_grows h) (ite_grows (audEffect_grows h) (ite_grows (netEffect_grows h) (ite_grows
      (tsuEffect_grows h) (ite_grows (pfiEffect_grows h) (monEffect_grows h)))))))))))))))))))))

theorem storeReg_grows {r : Requester} {a : ℕ} {v : Word} (h : Grows s₀ s) : Grows s₀ (storeReg r a v s) := by
  unfold storeReg
  exact monWrote_grows (ite_grows (mboxPut_grows h) (ite_grows (regWrite_grows h) h))

theorem busWrite_grows {r : Requester} {a : ℕ} {v : Word} (h : Grows s₀ s) : Grows s₀ (busWrite r a v s).2 := by
  unfold busWrite
  split
  · rename_i s1 s2 e
    have h2 : Grows s₀ s2 := Grows.of_snd e (gate_grows h)
    exact storeReg_grows h2
  · rename_i s1 s2 e
    have h2 : Grows s₀ s2 := Grows.of_snd e (gate_grows h)
    exact h2

theorem readEffect_grows {r : Requester} {a : ℕ} (h : Grows s₀ s) : Grows s₀ (readEffect r a s) := by
  unfold readEffect
  split
  · exact h
  · split
    · exact h
    · extract_lets +onlyGivenNames s1 s2 m
      have h1 : Grows s₀ s1 := ite_grows h (wr_grows h)
      have h2 : Grows s₀ s2 := ite_grows (foldl_grows (fun _ _ h2 => Grows.update h2) h1) h1
      exact ite_grows (showStamps_grows (modNet_grows h2)) h2

theorem busRead_grows {r : Requester} {a : ℕ} (h : Grows s₀ s) : Grows s₀ (busRead r a s).2 := by
  unfold busRead
  split
  · rename_i s1 s2 e
    have h2 : Grows s₀ s2 := Grows.of_snd e (gate_grows h)
    exact readEffect_grows h2
  · rename_i s1 s2 e
    have h2 : Grows s₀ s2 := Grows.of_snd e (gate_grows h)
    exact h2

theorem execRcRead_grows {r : Requester} {a : ℕ} (h : Grows s₀ s) : GrowsNext s₀ (execRcRead r a s) := by
  unfold execRcRead
  refine next_grows ?_
  split
  · rename_i s1 _ s2 e
    have h2 : Grows s₀ s2 := Grows.of_snd e (busRead_grows h)
    exact answer_grows h2
  · rename_i s1 s2 e
    have h2 : Grows s₀ s2 := Grows.of_snd e (busRead_grows h)
    exact refuse_grows h2

theorem execLoReadLatch_grows {r : Requester} {a : ℕ} (h : Grows s₀ s) : GrowsNext s₀ (execLoReadLatch r a s) := by
  unfold execLoReadLatch
  refine next_grows ?_
  split
  · rename_i s1 _ s2 e
    have h2 : Grows s₀ s2 := Grows.of_snd e (busRead_grows h)
    exact answer_grows h2
  · rename_i s1 s2 e
    have h2 : Grows s₀ s2 := Grows.of_snd e (busRead_grows h)
    exact refuse_grows h2

theorem execAccessError_grows {r : Requester} {a width : ℕ} {_write : Bool} (h :
    Grows s₀ s) : GrowsNext s₀ (execAccessError r a width _write s) := by
  unfold execAccessError
  refine next_grows ?_
  split
  · exact h
  · split
    · exact ite_grows h (refuse_grows (gate_grows h))
    · exact refuse_grows (gate_grows h)

/-! ### The model's file `Boot` -/

theorem runRecord_grows {r : Requester} {x : Record} (h : Grows s₀ s) : Grows s₀ (runRecord r x s).2 := by
  unfold runRecord
  split
  · split
    rename_i s1 _ s2 e
    have h2 : Grows s₀ s2 := Grows.of_snd e (busWrite_grows h)
    exact h2
  · split
    · rename_i s1 _ s2 e
      have h2 : Grows s₀ s2 := Grows.of_snd e (busRead_grows h)
      split
      rename_i s3 _ s4 e2
      have h3 : Grows s₀ s4 := Grows.of_snd e2 (busWrite_grows h2)
      exact h3
    · rename_i s1 s2 e
      have h2 : Grows s₀ s2 := Grows.of_snd e (busRead_grows h)
      exact h2
  · exact h

theorem ovlSpoil_grows {i : ℕ} (h : Grows s₀ s) : Grows s₀ (ovlSpoil i s) := by
  unfold ovlSpoil
  exact setF_grows h

theorem ovlPut_grows {i : ℕ} {recs : List Record} {p : Option ℕ → Bool} (h :
    Grows s₀ s) : Grows s₀ (ovlPut i recs p s) := by
  unfold ovlPut
  refine foldl_grows (fun s1 x h2 => ?_) h
  split
  · exact ite_grows (ovlSpoil_grows (examDetect_grows h2)) h2
  · split
    · split
      rename_i s2 _ s3 e
      have h3 : Grows s₀ s3 := Grows.of_snd e (runRecord_grows h2)
      split
      rename_i s4 _ s5 e2
      have h4 : Grows s₀ s5 := Grows.of_snd e2 (examDetect_grows h3)
      exact ite_grows (ovlSpoil_grows h4) h4
    · exact h2

theorem ovlDone_grows (h : Grows s₀ s) : Grows s₀ (ovlDone s) := by
  unfold ovlDone
  exact ite_grows (ite_grows (ovlRequest_grows (setF_grows (modCfg_grows rfl (setF_grows (setF_grows h)))))
      (modCfg_grows rfl (setF_grows (setF_grows h)))) h

theorem ovlRun_grows (h : Grows s₀ s) : Grows s₀ (ovlRun s) := by
  unfold ovlRun
  split
  · exact h
  · split
    · exact modCfg_grows rfl (setF_grows h)
    · extract_lets +onlyGivenNames s1
      have h1 : Grows s₀ s1 := modCfg_grows rfl h
      split
      rename_i s2 _ s3 e
      have h2 : Grows s₀ s3 := Grows.of_snd e (sectRead_grows h1)
      exact ovlDone_grows (modCfg_grows rfl
        (foldl_grows (fun _ _ h3 => ovlPut_grows h3) (raise_grows (ovlPut_grows h2))))

theorem ovlPump_grows (h : Grows s₀ s) : Grows s₀ (ovlPump s) := by
  unfold ovlPump
  exact ovlRun_grows (ovlRun_grows h)

theorem ovlCommit_grows {n : ℕ} (h : Grows s₀ s) : Grows s₀ (ovlCommit n s) := by
  unfold ovlCommit
  exact ite_grows h (ite_grows (ipStall_grows h) (modCfg_grows rfl (ite_grows (modIp_grows (captureInto_grows (wr_grows
      (ipStall_grows h)))) (ipStall_grows h))))

theorem execOverlayCommit_grows {n : ℕ} (h : Grows s₀ s) : GrowsNext s₀ (execOverlayCommit n s) := by
  unfold execOverlayCommit
  exact guardOk_grows (ovlCommit_grows h)

theorem ovlFinish_grows {n pfn : ℕ} (h : Grows s₀ s) : Grows s₀ (ovlFinish n pfn s) := by
  unfold ovlFinish
  exact ovlDone_grows (modCfg_grows rfl (raise_grows (pipOverlay_grows (ite_grows (prcApplyWrite_grows h) h))))

theorem ovlApply_grows {n : ℕ} (h : Grows s₀ s) : Grows s₀ (ovlApply n s) := by
  unfold ovlApply
  split
  · exact ite_grows h (ovlFinish_grows h)
  · exact ite_grows (ovlFinish_grows (ovlBind_grows h)) h

theorem execOverlayApply_grows {n : ℕ} (h : Grows s₀ s) : GrowsNext s₀ (execOverlayApply n s) := by
  unfold execOverlayApply
  exact guardOk_grows (ovlPump_grows (ovlApply_grows h))

theorem execOverlayRequest_grows {r : Requester} {v : Word} (h :
    Grows s₀ s) : GrowsNext s₀ (execOverlayRequest r v s) := by
  unfold execOverlayRequest
  exact next_grows (ovlPump_grows (writeBy_grows (fun _ h2 => ovlReqWrite_grows h2) h))

theorem modeAccept_grows {v : ℕ} (h : Grows s₀ s) : Grows s₀ (modeAccept v s) := by
  unfold modeAccept
  exact ite_grows (modeRequest_grows (raise_grows (setF_grows h))) (raise_grows (setF_grows h))

theorem execModeChange_grows {pins : BitVec 4} (h : Grows s₀ s) : GrowsNext s₀ (execModeChange pins s) := by
  unfold execModeChange
  exact next_grows (ite_grows (ovlPump_grows (modeAccept_grows (modCfg_grows rfl h))) (modCfg_grows rfl h))

theorem ovlNow_grows {i : ℕ} (h : Grows s₀ s) : Grows s₀ (ovlNow i s) := by
  unfold ovlNow
  exact foldl_grows (fun _ _ h2 => ovlPump_grows (ovlApply_grows (ovlCommit_grows h2))) (ovlPump_grows
      (ovlRequest_grows h))

theorem bootPower_grows (h : Grows s₀ s) : Grows s₀ (bootPower s) := by
  unfold bootPower
  refine foldl_grows (fun s1 x h2 => ?_) h
  split
  · exact domainUp_grows (advanceTo_grows h2)
  · exact pwrNext_grows (domainDown_grows h2)
  · exact pwrNext_grows h2

theorem bootPll_grows (h : Grows s₀ s) : Grows s₀ (bootPll s) := by
  unfold bootPll
  split
  · exact modPwr_grows (advanceTo_grows h)
  · exact h

theorem wakePower_grows (h : Grows s₀ s) : Grows s₀ (wakePower s) := by
  unfold wakePower
  extract_lets +onlyGivenNames woke s1 s2 s3
  have h1 : Grows s₀ s1 := bootPll_grows h
  have h2 : Grows s₀ s2 := ite_grows (setF_grows h1) h1
  have h3 : Grows s₀ s3 := bootPower_grows (pwrNext_grows h2)
  split
  · exact ite_grows (foldl_grows (fun _ _ h4 => flag_grows (advanceTo_grows h4)) h3) h3
  · exact foldl_grows (fun _ _ h4 => ite_grows h4 (wakeDomain_grows h4)) (bootPower_grows h1)

theorem pollNext_rest_grows {t : ℕ} (h : Grows s₀ s) : GrowsSome s₀ (pollNext.rest t s) := by
  unfold pollNext.rest
  split
  · exact some_grows (pwrNext_grows (finishJob_grows h))
  · split
    · exact some_grows (xspiFinish_grows h)
    · split
      · exact some_grows (fillDone_grows h)
      · exact none_grows

theorem pollNext_grows {t : ℕ} (h : Grows s₀ s) : GrowsSome s₀ (pollNext t s) := by
  unfold pollNext
  split
  · split
    · exact some_grows (otpEnd_grows h)
    · exact pollNext_rest_grows h
  · exact pollNext_rest_grows h

theorem pollFor_grows {fuel t a : ℕ} {m v : Word} (h : Grows s₀ s) : Grows s₀ (pollFor fuel t a m v s).2 := by
  induction fuel generalizing s with
  | zero =>
    rw [pollFor]
    exact h
  | succ fuel ih =>
    rw [pollFor]
    split
    · rename_i s1 s2 e
      have h2 : Grows s₀ s2 := Grows.of_snd e (busRead_grows h)
      exact h2
    · rename_i s1 _ s2 e
      have h2 : Grows s₀ s2 := Grows.of_snd e (busRead_grows h)
      split
      · exact h2
      · split
        · rename_i s3 e2
          have h3 := pollNext_grows h2 _ e2
          exact ih h3
        · split
          · rename_i s3 _ s4 e2
            have h3 : Grows s₀ s4 := Grows.of_snd e2 (busRead_grows (advanceTo_grows h2))
            exact h3
          · rename_i s3 s4 e2
            have h3 : Grows s₀ s4 := Grows.of_snd e2 (busRead_grows (advanceTo_grows h2))
            exact h3

theorem baseRecord_grows {warm : Bool} {area : ℕ × ℕ} {x : Record} (h :
    Grows s₀ s) : Grows s₀ (baseRecord warm area x s).2 := by
  unfold baseRecord
  dsimp only
  refine examDetect_grows ?_
  split
  · exact ite_grows_snd (runRecord_grows h) h
  · exact ite_grows_snd (runRecord_grows h) h
  · split
    · exact h
    · split
      · exact landBlock_grows h
      · exact h
  · exact ite_grows_snd h (landBlock_grows h)
  · exact advanceTo_grows h
  · exact ite_grows_snd h (pollFor_grows h)
  · exact h

theorem baseStream_grows {warm : Bool} {area : ℕ × ℕ} (h : Grows s₀ s) : Grows s₀ (baseStream warm area s).2 := by
  unfold baseStream
  split
  · exact h
  · split
    rename_i s1 _ s2 e
    have h2 : Grows s₀ s2 := Grows.of_snd e (sectRead_grows h)
    refine foldl_grows_snd (fun s3 x h3 => ?_) h2
    split
    rename_i s3 _ s4
    exact ite_grows_snd h3 (baseRecord_grows h3)

theorem slotCheck_grows {h : List Byte} (hs : Grows s₀ s) : Grows s₀ (slotCheck h s).2 := by
  unfold slotCheck
  split
  · exact hs
  · split
    · exact hs
    · split
      · exact hs
      · extract_lets +onlyGivenNames key known
        split
        rename_i s1 _ s2 e
        have h2 : Grows s₀ s2 := Grows.of_snd e (examDetect_grows hs)
        exact h2

theorem slotMemory_grows {h : List Byte} {trained : Bool} {fails : List ℕ} (hs :
    Grows s₀ s) : Grows s₀ (slotMemory h trained fails s).2 := by
  unfold slotMemory
  extract_lets +onlyGivenNames p s1 s2 word s3 s4 s5 full s6
  have h1 : Grows s₀ s1 := setF_grows (setF_grows (setF_grows hs))
  have h2 : Grows s₀ s2 := memCtrlWrite_grows h1
  have h3 : Grows s₀ s3 := foldl_grows (fun _ _ h3 => plainWrite_grows (plainWrite_grows h3)) h2
  have h4 : Grows s₀ s4 := foldl_grows (fun _ _ h4 => plainWrite_grows (plainWrite_grows h4)) h3
  have h5 : Grows s₀ s5 := mapApplyWrite_grows h4
  have h6 : Grows s₀ s6 := foldl_grows (fun _ _ h6 => ite_grows h6 (foldl_grows (fun _ _ h7 => trainEnd_grows h7)
      (trainWrite_grows h6))) h5
  exact ite_grows_snd h5 (memCtrlWrite_grows h6)

theorem slotSection_grows {rd : ℕ → ℕ → List Byte} {base : ℕ} {h : List Byte} {i : ℕ} (hs :
    Grows s₀ s) : Grows s₀ (slotSection rd base h i s).2 := by
  unfold slotSection
  extract_lets +onlyGivenNames e x stored
  split
  rename_i s1 _ s2 e2
  have h2 : Grows s₀ s2 := Grows.of_snd e2 (dmaWrite_grows hs)
  split
  rename_i s3 _ s4 e3
  have h3 : Grows s₀ s4 := Grows.of_snd e3 (examDetect_grows h2)
  split
  · exact h3
  · split
    · exact h3
    · extract_lets +onlyGivenNames plain
      split
      rename_i s5 _ s6 e4
      have h4 : Grows s₀ s6 := Grows.of_snd e4 (examDetect_grows h3)
      clear_value x plain
      split
      · split
        rename_i s7 _ s8 e5
        have h5 : Grows s₀ s8 := Grows.of_snd e5 (dmaWrite_grows h4)
        exact h5
      · exact h4

theorem slotLoad_grows {rd : ℕ → ℕ → List Byte} {base : ℕ} {h : List Byte} (hs :
    Grows s₀ s) : Grows s₀ (slotLoad rd base h s).2 := by
  unfold slotLoad
  dsimp only
  split
  · exact hs
  · split
    · exact foldl_grows_snd (fun _ _ h2 => ite_grows_snd h2 (slotSection_grows h2)) hs
    · exact baseStream_grows (foldl_grows (fun _ _ h2 => ovlLoad_grows h2) (modCfg_grows rfl (setF_grows
        (foldl_grows_snd (fun _ _ h2 => ite_grows_snd h2 (slotSection_grows h2)) hs))))

theorem bootRelease_grows (h : Grows s₀ s) : Grows s₀ (bootRelease s) := by
  unfold bootRelease
  exact modCfg_grows rfl (modPwr_grows (poke_grows (setF_grows h)))

theorem bootMode_grows {h : List Byte} (hs : Grows s₀ s) : Grows s₀ (bootMode h s) := by
  unfold bootMode
  split
  extract_lets +onlyGivenNames s1
  have h1 : Grows s₀ s1 := setF_grows hs
  split
  rename_i s2 _ _ s3 e
  have h2 : Grows s₀ s3 := Grows.of_snd e (modeLook_grows h1)
  extract_lets +onlyGivenNames s4 s5 s6
  have h4 : Grows s₀ s4 := ite_grows h2 (raise_grows h2)
  have h5 : Grows s₀ s5 := by
    unfold s5
    split
    · exact ovlNow_grows h4
    · exact h4
  have h6 : Grows s₀ s6 := setPair_grows (wr_grows h5)
  split
  rename_i s7 _ s8 e2
  have h3 : Grows s₀ s8 := Grows.of_snd e2 (dmaTake_grows h6)
  exact flag_grows (wr_grows h3)

theorem bootSlot_grows {rd : ℕ → ℕ → List Byte} {base slot : ℕ} {flash trained : Bool} {fails : List ℕ} (h :
    Grows s₀ s) : Grows s₀ (bootSlot rd base slot flash trained fails s).2.2 := by
  unfold bootSlot
  split
  · exact h
  · extract_lets +onlyGivenNames h1
    split
    rename_i s1 _ s2 e
    have h2 : Grows s₀ s2 := Grows.of_snd e (slotCheck_grows h)
    split
    · exact h2
    · split
      · exact h2
      · split
        rename_i s3 _ s4 e2
        have h3 : Grows s₀ s4 := Grows.of_snd e2 (slotMemory_grows h2)
        extract_lets +onlyGivenNames trains
        split
        · exact h3
        · split
          rename_i s5 _ s6 e3
          have h4 : Grows s₀ s6 := Grows.of_snd e3 (slotLoad_grows h3)
          split
          · exact h4
          · exact bootRelease_grows (bootMode_grows (setF_grows (setF_grows (setF_grows (modCfg_grows rfl h4)))))

theorem bootFail_grows (h : Grows s₀ s) : Grows s₀ (bootFail s) := by
  unfold bootFail
  exact modPwr_grows (logFlush_grows (logRec_grows h))

theorem ovlDrop_grows (h : Grows s₀ s) : Grows s₀ (ovlDrop s) := by
  unfold ovlDrop
  exact modCfg_grows rfl (setF_grows (setF_grows h))

theorem bootStart_grows {otpBad : Bool} (h : Grows s₀ s) : Grows s₀ (bootStart otpBad s).2 := by
  unfold bootStart
  extract_lets z
  split
  rename_i s1 e
  have h1 : Grows s₀ s1 := Grows.of_snd e (examDetect_grows (ovlDrop_grows (logBoot_grows h)))
  refine ite_grows_snd ?_ (setF_grows (bootPower_grows (bootPll_grows (modCfg_grows rfl h1))))
  dsimp only
  exact modPwr_grows h1

theorem bootCold_grows {otpBad : Bool} {fails : List ℕ} (h : Grows s₀ s) : Grows s₀ (bootCold otpBad fails s).2 := by
  unfold bootCold
  split
  rename_i s1 _ s2 e
  have h2 : Grows s₀ s2 := Grows.of_snd e (bootStart_grows h)
  split
  · exact h2
  · split
    · rename_i s3 _ s4 e2
      have h3 : Grows s₀ s4 := Grows.of_snd_snd e2 (bootSlot_grows h2)
      exact h3
    · rename_i s3 _ _ s4 _ e2
      have h3 : Grows s₀ s4 := Grows.of_snd_snd e2 (bootSlot_grows h2)
      extract_lets +onlyGivenNames s5 alt
      have h5 : Grows s₀ s5 := setF_grows h3
      split
      · exact bootFail_grows h5
      · split
        · rename_i s6 _ s7 e3
          have h4 : Grows s₀ s7 := Grows.of_snd_snd e3 (bootSlot_grows h5)
          exact h4
        · rename_i s6 _ _ s7 _ e3
          have h4 : Grows s₀ s7 := Grows.of_snd_snd e3 (bootSlot_grows h5)
          exact bootFail_grows (setF_grows h4)

theorem execColdBoot_grows {fails : List ℕ} {otpBad : Bool} (h :
    Grows s₀ s) : GrowsNext s₀ (execColdBoot fails otpBad s) := by
  unfold execColdBoot
  exact next_grows (ite_grows (bootCold_grows h) h)

theorem bootSram_grows {fails : List ℕ} (h : Grows s₀ s) : Grows s₀ (bootSram fails s).2 := by
  unfold bootSram
  extract_lets +onlyGivenNames t
  have h_t : Grows s₀ t := h
  split
  · rename_i s1 _ s2 e
    have h2 : Grows s₀ s2 := Grows.of_snd_snd e (bootSlot_grows (ovlDrop_grows (logBoot_grows h)))
    exact h2
  · rename_i s1 _ _ s2 _ e
    have h2 : Grows s₀ s2 := Grows.of_snd_snd e (bootSlot_grows (ovlDrop_grows (logBoot_grows h)))
    exact setF_grows (modPwr_grows h2)

theorem warmMode_grows (h : Grows s₀ s) : Grows s₀ (warmMode s) := by
  unfold warmMode
  extract_lets +onlyGivenNames v
  split
  rename_i s1 _ s2 e
  have h2 : Grows s₀ s2 := Grows.of_snd e (modeLook_grows h)
  exact ite_grows (ovlPump_grows (modeAccept_grows h2)) h2

theorem bootWarm_grows {otpBad : Bool} {fails : List ℕ} (h : Grows s₀ s) : Grows s₀ (bootWarm otpBad fails s) := by
  unfold bootWarm
  extract_lets z
  have hz : Grows s₀ z := wakePower_grows h
  clear_value z
  split
  refine ite_grows (bootCold_grows hz) ?_
  split
  rename_i s1 e
  have h1 : Grows s₀ s1 := by
    refine Grows.of_snd e ?_
    split
    · rename_i s3 e3
      have h3 : Grows s₀ s3 := Grows.of_snd e3 (dmaRead_grows hz)
      exact h3
    · rename_i s3 e3
      have h3 : Grows s₀ s3 := Grows.of_snd e3 (dmaRead_grows hz)
      exact h3
  split
  rename_i s2 e2
  have h2 : Grows s₀ s2 := Grows.of_snd e2 (examDetect_grows h1)
  refine ite_grows (bootCold_grows (setF_grows h2)) ?_
  split
  rename_i s3 e3
  have h3 : Grows s₀ s3 := Grows.of_snd e3 (baseStream_grows (ovlDrop_grows h2))
  exact ite_grows (bootCold_grows (setF_grows h3))
    (warmMode_grows (bootRelease_grows (flag_grows (logBoot_grows (ite_grows h3 (ovlNow_grows h3))))))

theorem execWarmBoot_grows {fails : List ℕ} {otpBad : Bool} (h :
    Grows s₀ s) : GrowsNext s₀ (execWarmBoot fails otpBad s) := by
  unfold execWarmBoot
  exact next_grows (ite_grows (bootWarm_grows h) h)

/-! ### The model's file `Access` -/

theorem execRegisterWrite_grows {r : Requester} {a : ℕ} {v : Word} (h :
    Grows s₀ s) : GrowsNext s₀ (execRegisterWrite r a v s) := by
  unfold execRegisterWrite
  refine next_grows ?_
  split
  · rename_i s1 s2 e
    have h2 : Grows s₀ s2 := Grows.of_snd e (busWrite_grows h)
    exact ovlPump_grows (answer_grows h2)
  · rename_i s1 s2 e
    have h2 : Grows s₀ s2 := Grows.of_snd e (busWrite_grows h)
    exact refuse_grows h2

theorem execOffDomainAccess_grows {r : Requester} {a : ℕ} {write : Option Word} (h :
    Grows s₀ s) : GrowsNext s₀ (execOffDomainAccess r a write s) := by
  unfold execOffDomainAccess
  split
  · split
    · exact next_grows h
    · exact execRegisterWrite_grows h
  · split
    · exact next_grows h
    · exact execRcRead_grows h
  · exact next_grows h

theorem l2Check_grows {r : Requester} {a : ℕ} {found : EccFound} (h :
    Grows s₀ s) : Grows s₀ (l2Check r a found s).2 := by
  unfold l2Check
  dsimp only
  split
  · split
    · dsimp only
      exact detect_grows (examine_grows (examine_grows h))
    · split
      · exact Grows.update (examine_grows (examine_grows h))
      · dsimp only
        exact examine_grows (examine_grows h)
  · exact h

theorem readCheck_grows {r : Requester} {a : ℕ} {found : EccFound} (h :
    Grows s₀ s) : Grows s₀ (readCheck r a found s).2 := by
  unfold readCheck
  split
  rename_i s1 _ s2 e
  have h2 : Grows s₀ s2 := Grows.of_snd e (l2Check_grows h)
  split
  rename_i s3 _ s4 e2
  have h3 : Grows s₀ s4 := Grows.of_snd e2 (eccCheck_grows h2)
  exact h3

theorem memAnswer_grows {r : Requester} {d : Option (List Byte)} (h : Grows s₀ s) : Grows s₀ (memAnswer r d s) := by
  unfold memAnswer
  split
  · exact answer_grows (Grows.update h)
  · exact refuse_grows (Grows.update h)

theorem memServe_grows {r : Requester} {a n : ℕ} {write : Option (List Byte)} {found : EccFound} (h :
    Grows s₀ s) : Grows s₀ (memServe r a n write found s) := by
  unfold memServe
  extract_lets +onlyGivenNames s1 s2
  have h1 : Grows s₀ s1 := rereadFirst_grows (awaitFill_grows h)
  have h2 : Grows s₀ s2 := bursts_grows h1
  split
  · exact memAnswer_grows h1
  · split
    · split
      rename_i s3 _ s4 e
      have h3 : Grows s₀ s4 := Grows.of_snd e (readCheck_grows h2)
      exact memAnswer_grows h3
    · split
      rename_i s3 _ s4 e
      have h3 : Grows s₀ s4 := Grows.of_snd e (rmwCheck_grows h2)
      exact ite_grows (memAnswer_grows (poke_grows h3)) (memAnswer_grows h3)

theorem regServe_grows {r : Requester} {a n : ℕ} {write : Option (List Byte)} (h :
    Grows s₀ s) : Grows s₀ (regServe r a n write s) := by
  unfold regServe
  split
  · rename_i s1 s2 e
    have h2 : Grows s₀ s2 := Grows.of_snd e (gate_grows h)
    exact refuse_grows h2
  · rename_i s1 s2 e
    have h2 : Grows s₀ s2 := Grows.of_snd e (gate_grows h)
    split
    · exact answer_grows (ite_grows (monWrote_grows (mboxPut_grows h2)) (ovlPump_grows (storeReg_grows h2)))
    · exact ite_grows (answer_grows h2) (answer_grows (readEffect_grows h2))

theorem execMemoryAccess_grows {r : Requester} {a n : ℕ} {write : Option (List Byte)} {found : EccFound} (h :
    Grows s₀ s) : GrowsNext s₀ (execMemoryAccess r a n write found s) := by
  unfold execMemoryAccess
  refine guardOk_grows ?_
  split
  · exact memAnswer_grows h
  · exact ite_grows (regServe_grows h) (memServe_grows h)

theorem ringStall_grows {g : RingId} (h : Grows s₀ s) : Grows s₀ (ringStall g s) := by
  unfold ringStall
  split
  · exact ipStall_grows h
  · exact ipStall_grows h
  · exact h
  · exact h

theorem encStart_grows {c : ℕ} (h : Grows s₀ s) : Grows s₀ (encStart c s) := by
  unfold encStart
  exact ite_grows h (ite_grows (ecBoundary_grows h) h)

theorem producerStart_grows {g : RingId} (h : Grows s₀ s) : Grows s₀ (producerStart g s) := by
  unfold producerStart
  split
  · exact h
  · split
    · exact startAt_grows h
    · exact startAt_grows h
    · exact ite_grows (prcFrameStart_grows (absorb_grows h)) h
    · exact encStart_grows h

theorem execProducerFrameStart_grows {g : RingId} (h : Grows s₀ s) : GrowsNext s₀ (execProducerFrameStart g s) := by
  unfold execProducerFrameStart
  exact guardOk_grows (producerStart_grows h)

theorem producerOffer_grows {g : RingId} (h : Grows s₀ s) : Grows s₀ (producerOffer g s) := by
  unfold producerOffer
  split
  · exact h
  · split
    · exact offerProd_grows h
    · exact offerProd_grows h
    · exact ite_grows (prcDone_grows (absorb_grows h)) h
    · exact ringPublish_grows h

theorem execFrameOffer_grows {g : RingId} (h : Grows s₀ s) : GrowsNext s₀ (execFrameOffer g s) := by
  unfold execFrameOffer
  exact guardOk_grows (producerOffer_grows h)

theorem execRingGeometryWrite_grows {r : Requester} {g : RingId} {which : ℕ} {v : Word} (h :
    Grows s₀ s) : GrowsNext s₀ (execRingGeometryWrite r g which v s) := by
  unfold execRingGeometryWrite
  refine guardOk_grows ?_
  split
  · exact writeBy_grows (fun _ h2 => ringGeomWrite_grows (ringStall_grows h2)) h
  · exact h

theorem execRingBufsWrite_grows {r : Requester} {g : RingId} {v : Word} (h :
    Grows s₀ s) : GrowsNext s₀ (execRingBufsWrite r g v s) := by
  unfold execRingBufsWrite
  exact guardOk_grows (writeBy_grows (fun _ h2 => ringBufsWrite_grows (ringStall_grows h2)) h)

theorem execRefTick_grows (h : Grows s₀ s) : GrowsNext s₀ (execRefTick s) := by
  unfold execRefTick
  exact next_grows (ite_grows (refTick_grows h) h)

/-! ### The model's file `Mon` -/

theorem monSend_grows {l : List MonLine} (h : Grows s₀ s) : Grows s₀ (monSend l s) := by
  unfold monSend
  exact modMon_grows h

theorem monOk_grows (h : Grows s₀ s) : Grows s₀ (monOk s) := by
  unfold monOk
  exact monSend_grows h

theorem monErr_grows {cc cause : ℕ} (h : Grows s₀ s) : Grows s₀ (monErr cc cause s) := by
  unfold monErr
  exact monSend_grows h

theorem monTake_grows {k : State → State} (h1 : ∀ y1, Grows s₀ y1 → Grows s₀ (k y1)) (h2 :
    Grows s₀ s) : Grows s₀ (monTake k s) := by
  unfold monTake
  exact ite_grows (h1 _ (modMon_grows h2)) h2

theorem monCmd_grows {k : State → State} (h1 : ∀ y1, Grows s₀ y1 → Grows s₀ (k y1)) (h2 :
    Grows s₀ s) : Grows s₀ (monCmd k s) := by
  unfold monCmd
  exact monTake_grows (fun _ h => ite_grows (monErr_grows h) (h1 _ h)) h2

theorem execAutobaud_grows {bitTimePs : ℕ} {char : Byte} (h :
    Grows s₀ s) : GrowsNext s₀ (execAutobaud bitTimePs char s) := by
  unfold execAutobaud
  exact next_grows (ite_grows (setF_grows h) h)

theorem execMonitorSyntaxError_grows (h : Grows s₀ s) : GrowsNext s₀ (execMonitorSyntaxError s) := by
  unfold execMonitorSyntaxError
  exact next_grows (monTake_grows (fun _ h2 => monErr_grows h2) h)

theorem execHelp_grows (h : Grows s₀ s) : GrowsNext s₀ (execHelp s) := by
  unfold execHelp
  exact next_grows (monTake_grows (fun _ h2 => monSend_grows h2) h)

theorem monWord_grows {a : ℕ} (h : Grows s₀ s) : Grows s₀ (monWord a s).2 := by
  unfold monWord
  split
  · exact busRead_grows h
  · split
    · rename_i s1 _ s2 e
      have h2 : Grows s₀ s2 := Grows.of_snd e (dmaRead_grows h)
      exact h2
    · rename_i s1 s2 e
      have h2 : Grows s₀ s2 := Grows.of_snd e (dmaRead_grows h)
      exact h2

theorem monWords_grows {n a : ℕ} (h : Grows s₀ s) : Grows s₀ (monWords n a s).2.2 := by
  induction n generalizing a s with
  | zero =>
    rw [monWords]
    exact h
  | succ n ih =>
    rw [monWords]
    split
    · rename_i s1 s2 e
      have h2 : Grows s₀ s2 := Grows.of_snd e (monWord_grows h)
      exact h2
    · rename_i s1 _ s2 e
      have h2 : Grows s₀ s2 := Grows.of_snd e (monWord_grows h)
      split
      rename_i s3 _ _ s4 e2
      have h3 : Grows s₀ s4 := Grows.of_snd_snd e2 (ih h2)
      exact h3

theorem execMonitorRead_grows {a n : ℕ} (h : Grows s₀ s) : GrowsNext s₀ (execMonitorRead a n s) := by
  unfold execMonitorRead
  refine next_grows ?_
  refine monCmd_grows (fun s hs => ?_) h
  split
  · exact monErr_grows hs
  · split
    rename_i s1 _ _ s2 e
    have h2 : Grows s₀ s2 := Grows.of_snd_snd e (monWords_grows hs)
    exact monSend_grows h2

theorem execMonitorDump_grows {a n : ℕ} (h : Grows s₀ s) : GrowsNext s₀ (execMonitorDump a n s) := by
  unfold execMonitorDump
  refine next_grows ?_
  refine monCmd_grows (fun s hs => ?_) h
  split
  · exact monErr_grows hs
  · split
    rename_i s1 _ _ s2 e
    have h2 : Grows s₀ s2 := Grows.of_snd_snd e (monWords_grows hs)
    exact monSend_grows h2

theorem monPut_grows {a : ℕ} {v : Word} (h : Grows s₀ s) : Grows s₀ (monPut a v s).2 := by
  unfold monPut
  split
  · split
    rename_i s1 _ s2 e
    have h2 : Grows s₀ s2 := Grows.of_snd e (busWrite_grows h)
    exact ovlPump_grows h2
  · exact dmaWrite_grows h

theorem execMonitorWriteWord_grows {a : ℕ} {v : Word} (h : Grows s₀ s) : GrowsNext s₀ (execMonitorWriteWord a v s) := by
  unfold execMonitorWriteWord
  refine next_grows ?_
  refine monCmd_grows (fun s hs => ?_) h
  split
  · exact monErr_grows hs
  · split
    rename_i s1 _ s2 e
    have h2 : Grows s₀ s2 := Grows.of_snd e (monPut_grows hs)
    exact monSend_grows h2

theorem monFill_grows {n a : ℕ} {v : Word} (h : Grows s₀ s) : Grows s₀ (monFill n a v s).2 := by
  induction n generalizing a s with
  | zero =>
    rw [monFill]
    exact h
  | succ n ih =>
    rw [monFill]
    split
    · rename_i s1 s2 e
      have h2 : Grows s₀ s2 := Grows.of_snd e (monPut_grows h)
      exact ih h2
    · rename_i s1 s2 e
      have h2 : Grows s₀ s2 := Grows.of_snd e (monPut_grows h)
      exact h2

theorem execMonitorFill_grows {a n : ℕ} {v : Word} (h : Grows s₀ s) : GrowsNext s₀ (execMonitorFill a n v s) := by
  unfold execMonitorFill
  refine next_grows ?_
  refine monCmd_grows (fun s hs => ?_) h
  split
  · exact monErr_grows hs
  · split
    rename_i s1 _ s2 e
    have h2 : Grows s₀ s2 := Grows.of_snd e (monFill_grows hs)
    exact monSend_grows h2

theorem execMonitorCnt_grows {a : ℕ} (h : Grows s₀ s) : GrowsNext s₀ (execMonitorCnt a s) := by
  unfold execMonitorCnt
  refine next_grows ?_
  refine monCmd_grows (fun s hs => ?_) h
  split
  · exact monErr_grows hs
  · split
    · rename_i s1 _ _ s2 e
      have h2 : Grows s₀ s2 := Grows.of_snd_snd e (monWords_grows hs)
      exact monSend_grows h2
    · rename_i s1 _ _ s2 _ e
      have h2 : Grows s₀ s2 := Grows.of_snd_snd e (monWords_grows hs)
      exact monErr_grows h2

theorem monWrites_grows {l : List (ℕ × Word)} (h : Grows s₀ s) : Grows s₀ (monWrites l s) := by
  unfold monWrites
  exact foldl_grows (fun _ _ h2 => monPut_grows h2) h

theorem execMonitorInj_grows {k : ℕ} {id : BitVec 16} {everyN : Option (BitVec 16)} {count : BitVec 16} (h :
    Grows s₀ s) : GrowsNext s₀ (execMonitorInj k id everyN count s) := by
  unfold execMonitorInj
  exact guardOk_grows (monCmd_grows (fun _ h2 => ite_grows (monOk_grows (monWrites_grows (monWrites_grows h2)))
      (monErr_grows (monWrites_grows (monWrites_grows h2)))) h)

theorem execMonitorLog_grows {n : ℕ} (h : Grows s₀ s) : GrowsNext s₀ (execMonitorLog n s) := by
  unfold execMonitorLog
  refine next_grows ?_
  refine monCmd_grows (fun s hs => ?_) h
  split
  rename_i s1 _ _ s2 e
  have h2 : Grows s₀ s2 := Grows.of_snd_snd e (logHeader_grows hs)
  exact monSend_grows h2

theorem execMonitorLogClear_grows (h : Grows s₀ s) : GrowsNext s₀ (execMonitorLogClear s) := by
  unfold execMonitorLogClear
  exact next_grows (monCmd_grows (fun _ h2 => monOk_grows (monWrites_grows h2)) h)

theorem execMonitorClk_grows (h : Grows s₀ s) : GrowsNext s₀ (execMonitorClk s) := by
  unfold execMonitorClk
  exact next_grows (monCmd_grows (fun _ h2 => monSend_grows h2) h)

theorem execMonitorVote_grows {mask : Word} (h : Grows s₀ s) : GrowsNext s₀ (execMonitorVote mask s) := by
  unfold execMonitorVote
  exact next_grows (monCmd_grows (fun _ h2 => monOk_grows (monWrites_grows h2)) h)

theorem execMonitorReadmit_grows {pod pip : ℕ} (h : Grows s₀ s) : GrowsNext s₀ (execMonitorReadmit pod pip s) := by
  unfold execMonitorReadmit
  refine next_grows ?_
  refine monCmd_grows (fun s hs => ?_) h
  extract_lets +onlyGivenNames u
  split
  · exact monErr_grows hs
  · split
    · rename_i s1 s2 e
      have h2 : Grows s₀ s2 := Grows.of_snd e (monPut_grows hs)
      exact monErr_grows h2
    · rename_i s1 s2 e
      have h2 : Grows s₀ s2 := Grows.of_snd e (monPut_grows hs)
      exact ite_grows (monSend_grows (modMon_grows h2)) (monErr_grows h2)

theorem monBoot_grows {x : Bool × State} (h : Grows s₀ x.2) : Grows s₀ (monBoot x) := by
  unfold monBoot
  exact ite_grows (monOk_grows h) (monErr_grows h)

theorem execBootRetry_grows {fails : List ℕ} {otpBad : Bool} (h :
    Grows s₀ s) : GrowsNext s₀ (execBootRetry fails otpBad s) := by
  unfold execBootRetry
  exact next_grows (monCmd_grows (fun _ h2 => monBoot_grows (bootCold_grows h2)) h)

theorem execBootRecover_grows {count : ℕ} {data : List Byte} {fails : List ℕ} (h :
    Grows s₀ s) : GrowsNext s₀ (execBootRecover count data fails s) := by
  unfold execBootRecover
  exact next_grows (monCmd_grows (fun _ h2 => ite_grows (monErr_grows h2) (ite_grows (monSend_grows (modMon_grows
      (dmaPut_grows h2))) (monSend_grows (monBoot_grows (bootSram_grows (dmaPut_grows h2)))))) h)

theorem execRecoverTimeout_grows (h : Grows s₀ s) : GrowsNext s₀ (execRecoverTimeout s) := by
  unfold execRecoverTimeout
  exact next_grows (ite_grows (monErr_grows (modMon_grows (advanceTo_grows h))) h)

theorem execMonitorResetSoft_grows (h : Grows s₀ s) : GrowsNext s₀ (execMonitorResetSoft s) := by
  unfold execMonitorResetSoft
  exact next_grows (monCmd_grows (fun _ h2 => monSend_grows (monWrites_grows h2)) h)

theorem execMonitorResetHard_grows (h : Grows s₀ s) : GrowsNext s₀ (execMonitorResetHard s) := by
  unfold execMonitorResetHard
  exact next_grows (monCmd_grows (fun _ h2 => monSend_grows (monWrites_grows h2)) h)

theorem execChallenge_grows {nonce : BitVec 256} (h : Grows s₀ s) : GrowsNext s₀ (execChallenge nonce s) := by
  unfold execChallenge
  exact next_grows (monTake_grows (fun _ h2 => monSend_grows (modMon_grows h2)) h)

theorem unlockTry_grows {key sig : List Byte} (h : Grows s₀ s) : Grows s₀ (unlockTry key sig s) := by
  unfold unlockTry
  exact ite_grows (monOk_grows (raise_grows (showDbg_grows (flag_grows (modMon_grows h))))) (monErr_grows
      (raise_grows (setF_grows (modMon_grows h))))

theorem execUnlock_grows {key sig : List Byte} (h : Grows s₀ s) : GrowsNext s₀ (execUnlock key sig s) := by
  unfold execUnlock
  exact guardOk_grows (monTake_grows (fun _ h2 => ite_grows (monErr_grows h2) (unlockTry_grows h2)) h)

theorem modJtag_grows {f : JtagSt → JtagSt} (h : Grows s₀ s) : Grows s₀ (modJtag f s) := by
  unfold modJtag
  exact modMon_grows h

theorem execBypass_grows (h : Grows s₀ s) : GrowsNext s₀ (execBypass s) := by
  unfold execBypass
  exact next_grows (modJtag_grows h)

theorem execIdcode_grows (h : Grows s₀ s) : GrowsNext s₀ (execIdcode s) := by
  unfold execIdcode
  exact next_grows (modJtag_grows h)

theorem tapOpen_grows {f : JtagSt → JtagSt} (h : Grows s₀ s) : Grows s₀ (tapOpen f s) := by
  unfold tapOpen
  exact ite_grows h (modJtag_grows h)

theorem execSamplePreload_grows {pins shiftIn : List Bool} (h :
    Grows s₀ s) : GrowsNext s₀ (execSamplePreload pins shiftIn s) := by
  unfold execSamplePreload
  exact next_grows (tapOpen_grows h)

theorem execExtest_grows (h : Grows s₀ s) : GrowsNext s₀ (execExtest s) := by
  unfold execExtest
  exact next_grows (tapOpen_grows h)

theorem execJtagDebug_grows (h : Grows s₀ s) : GrowsNext s₀ (execJtagDebug s) := by
  unfold execJtagDebug
  exact next_grows (tapOpen_grows h)

/-! ### The model's file `Dispatch` -/

theorem exec_grows {i : Instr} (h : Grows s₀ s) : GrowsNext s₀ (exec i s) := by
  unfold exec
  split
  · exact execRegisterWrite_grows h
  · exact execRcRead_grows h
  · exact execLoReadLatch_grows h
  · exact execAccessError_grows h
  · exact execProducerFrameStart_grows h
  · exact execFrameOffer_grows h
  · exact execTapOffer_grows h
  · exact execConsumerRelease_grows h
  · exact execConsumerDetach_grows h
  · exact execRingGeometryWrite_grows h
  · exact execRingBufsWrite_grows h
  · exact execPllLocked_grows h
  · exact execReferenceLost_grows h
  · exact execEventRaised_grows h
  · exact execEvrQbaseWrite_grows h
  · exact execEvrQsizeWrite_grows h
  · exact execEvrQheadWrite_grows h
  · exact execRefEnable_grows h
  · exact execRefDisable_grows h
  · exact execRefRateWrite_grows h
  · exact execRefRfnWrite_grows h
  · exact execRefTick_grows h
  · exact execRefVEdge_grows h
  · exact execRefEdgeTimeout_grows h
  · exact execTrigPulseStart_grows h
  · exact execTrigPulseEnd_grows h
  · exact execSetPush_grows h
  · exact execSetClose_grows h
  · exact execSetWriteSend_grows h
  · exact execSetLastWrite_grows h
  · exact execCommit_grows h
  · exact execCommitCaptureDone_grows h
  · exact execTableLoadDone_grows h
  · exact execFrameEnterUnpack_grows h
  · exact execLaneReadapt_grows h
  · exact execBlockReceived_grows h
  · exact execAlignColumn_grows h
  · exact execDeskewWindowEnd_grows h
  · exact execUnknownControlBlock_grows h
  · exact execLaneJudgeInterval_grows h
  · exact execJvChgGo_grows h
  · exact execMapCmdSend_grows h
  · exact execMapTimeout_grows h
  · exact execLaneReadmit_grows h
  · exact execJvEnable_grows h
  · exact execJvRateWrite_grows h
  · exact execRateSwitch_grows h
  · exact execPrbsCntClr_grows h
  · exact execMarginGo_grows h
  · exact execMarginDone_grows h
  · exact execPortEnable_grows h
  · exact execPortDisable_grows h
  · exact execPortRun_grows h
  · exact execPortStop_grows h
  · exact execFrameSizeWrite_grows h
  · exact execSofReceived_grows h
  · exact execEofReceived_grows h
  · exact execLineReceived_grows h
  · exact execCsiFrameStart_grows h
  · exact execCsiFrameEnd_grows h
  · exact execCsiLongPacket_grows h
  · exact execCsiLineStart_grows h
  · exact execRowTimeout_grows h
  · exact execGroupVerdict_grows h
  · exact execXclkCfgWrite_grows h
  · exact execXclkEnable_grows h
  · exact execSyncEdge_grows h
  · exact execIbi_grows h
  · exact execBusTransferStart_grows h
  · exact execBusTransferDone_grows h
  · exact execDirRead_grows h
  · exact execDirWrite_grows h
  · exact execRowEnterPipeline_grows h
  · exact execCalClear_grows h
  · exact execTableReload_grows h
  · exact execStatsReady_grows h
  · exact execLumaReady_grows h
  · exact execTileDispatch_grows h
  · exact execVnop_grows h
  · exact execFadd_grows h
  · exact execFsub_grows h
  · exact execFmul_grows h
  · exact execFma_grows h
  · exact execFmin_grows h
  · exact execFmax_grows h
  · exact execFabs_grows h
  · exact execFneg_grows h
  · exact execFrcp_grows h
  · exact execFlog2_grows h
  · exact execFexp2_grows h
  · exact execFcmplt_grows h
  · exact execFcmple_grows h
  · exact execFcmpeq_grows h
  · exact execFsel_grows h
  · exact execIadd_grows h
  · exact execIsub_grows h
  · exact execImul_grows h
  · exact execImin_grows h
  · exact execImax_grows h
  · exact execVand_grows h
  · exact execVor_grows h
  · exact execVxor_grows h
  · exact execVshl_grows h
  · exact execVshr_grows h
  · exact execVsra_grows h
  · exact execIcmplt_grows h
  · exact execIcmpeq_grows h
  · exact execCvtfi_grows h
  · exact execCvtif_grows h
  · exact execVmov_grows h
  · exact execVsplat_grows h
  · exact execVimm_grows h
  · exact execVimmh_grows h
  · exact execVswz_grows h
  · exact execLut_grows h
  · exact execNop_grows h
  · exact execVld_grows h
  · exact execVst_grows h
  · exact execLdw_grows h
  · exact execStw_grows h
  · exact execSadd_grows h
  · exact execSsub_grows h
  · exact execSmul_grows h
  · exact execSand_grows h
  · exact execSor_grows h
  · exact execSxor_grows h
  · exact execSshl_grows h
  · exact execSshr_grows h
  · exact execSsra_grows h
  · exact execSlt_grows h
  · exact execAddi_grows h
  · exact execLi_grows h
  · exact execLui_grows h
  · exact execVget_grows h
  · exact execVput_grows h
  · exact execBr_grows h
  · exact execBeq_grows h
  · exact execBne_grows h
  · exact execBlt_grows h
  · exact execBany_grows h
  · exact execBall_grows h
  · exact execPipEnd_grows h
  · exact execSignatureTest_grows h
  · exact execSignatureTestDone_grows h
  · exact execTileWatchdog_grows h
  · exact execPodMemoryReload_grows h
  · exact execPackageLoad_grows h
  · exact execPipReadmit_grows h
  · exact execReadmitTest_grows h
  · exact execPrcEnable_grows h
  · exact execPrcApply_grows h
  · exact execPrcFrameStart_grows h
  · exact execSlabCoded_grows h
  · exact execPrcFrameDone_grows h
  · exact execPrdGo_grows h
  · exact execPrdJobDone_grows h
  · exact execEncApply_grows h
  · exact execIdrRequest_grows h
  · exact execLtMark_grows h
  · exact execLtDrop_grows h
  · exact execPictureStart_grows h
  · exact execPictureDone_grows h
  · exact execDecSubmit_grows h
  · exact execDecJobStart_grows h
  · exact execDecJobDone_grows h
  · exact execDecCtbWatchdog_grows h
  · exact execDpbRelease_grows h
  · exact execPkeGo_grows h
  · exact execPkeBlock_grows h
  · exact execPkeResume_grows h
  · exact execPkeAbort_grows h
  · exact execMemMapApply_grows h
  · exact execMemEnable_grows h
  · exact execDramRequest_grows h
  · exact execEccReread_grows h
  · exact execRefreshInterval_grows h
  · exact execMr4Read_grows h
  · exact execTrainGo_grows h
  · exact execTrainDone_grows h
  · exact execTrackingUpdate_grows h
  · exact execEccRegionEnable_grows h
  · exact execEccFillDone_grows h
  · exact execMemberAttach_grows h
  · exact execAttachComplete_grows h
  · exact execMemberDetach_grows h
  · exact execMemberReadmit_grows h
  · exact execNvmeCompletion_grows h
  · exact execNvmeTimeout_grows h
  · exact execRootPortLinkDown_grows h
  · exact execMemberLinkReturn_grows h
  · exact execClipOpen_grows h
  · exact execStreamFrame_grows h
  · exact execGrantPush_grows h
  · exact execFrameCommit_grows h
  · exact execClipClose_grows h
  · exact execClipClosed_grows h
  · exact execSplitRewrite_grows h
  · exact execVolOpen_grows h
  · exact execVolFormat_grows h
  · exact execVolClose_grows h
  · exact execOepLinkUp_grows h
  · exact execOepLinkDown_grows h
  · exact execCtrlEnable_grows h
  · exact execCtrlReset_grows h
  · exact execCtrlResetDone_grows h
  · exact execSqDoorbell_grows h
  · exact execCqDoorbell_grows h
  · exact execCommandFetch_grows h
  · exact execIdentify_grows h
  · exact execGetLogPage_grows h
  · exact execCreateIoCq_grows h
  · exact execDeleteIoCq_grows h
  · exact execCreateIoSq_grows h
  · exact execDeleteIoSq_grows h
  · exact execAbort_grows h
  · exact execGetFeatures_grows h
  · exact execSetFeatures_grows h
  · exact execAsynchronousEventRequest_grows h
  · exact execNvmRead_grows h
  · exact execNvmWrite_grows h
  · exact execFlush_grows h
  · exact execWriteZeroes_grows h
  · exact execDatasetManagement_grows h
  · exact execLockGrant_grows h
  · exact execNamespaceActivate_grows h
  · exact execJournalReplay_grows h
  · exact execScoEnable_grows h
  · exact execScoDisable_grows h
  · exact execRasterFrameStart_grows h
  · exact execRasterLine_grows h
  · exact execLineUnderrun_grows h
  · exact execAudioRunStart_grows h
  · exact execAudioRunStop_grows h
  · exact execAudioStopped_grows h
  · exact execSampleFrame_grows h
  · exact execSlaveSampleRx_grows h
  · exact execMaskWrite_grows h
  · exact execMaskApply_grows h
  · exact execTxFrame_grows h
  · exact execRxFrame_grows h
  · exact execTxtsPop_grows h
  · exact execMdio_grows h
  · exact execNetLinkChange_grows h
  · exact execNetStreamEnable_grows h
  · exact execStreamFrameSelect_grows h
  · exact execStreamPacket_grows h
  · exact execTsuIncrCommit_grows h
  · exact execTsuSet_grows h
  · exact execTsuStep_grows h
  · exact execTsuSecond_grows h
  · exact execHallEdge_grows h
  · exact execIndexEdge_grows h
  · exact execPosWrite_grows h
  · exact execSpeedWindow_grows h
  · exact execFaultInput_grows h
  · exact execPhaseWindowClose_grows h
  · exact execLineTrigger_grows h
  · exact execSsRowTimeout_grows h
  · exact execOutputLineComplete_grows h
  · exact execPor_grows h
  · exact execColdBoot_grows h
  · exact execWarmBoot_grows h
  · exact execXspiRead_grows h
  · exact execXspiDone_grows h
  · exact execGpioSet_grows h
  · exact execGpioClr_grows h
  · exact execGpioEdge_grows h
  · exact execOverlayRequest_grows h
  · exact execModeChange_grows h
  · exact execOverlayCommit_grows h
  · exact execOverlayApply_grows h
  · exact execBootLock_grows h
  · exact execWarmInvalidate_grows h
  · exact execOtpProgram_grows h
  · exact execOtpDone_grows h
  · exact execCtlSpiWrite_grows h
  · exact execCtlSpiRead_grows h
  · exact execCtlSpiStatus_grows h
  · exact execCtlSpiDoorbell_grows h
  · exact execCtlSpiAck_grows h
  · exact execCtlSpiUnknown_grows h
  · exact execMboxInClear_grows h
  · exact execMboxPost_grows h
  · exact execVote_grows h
  · exact execDomainPowerDownStart_grows h
  · exact execDomainOn_grows h
  · exact execQuiesceTimeout_grows h
  · exact execDomainOff_grows h
  · exact execOffDomainAccess_grows h
  · exact execPadRelease_grows h
  · exact execPadHeld_grows h
  · exact execSleepGo_grows h
  · exact execSleepQuiesceDone_grows h
  · exact execSleepDramIdle_grows h
  · exact execWake_grows h
  · exact execClockSwitch_grows h
  · exact execHardReset_grows h
  · exact execSoftReset_grows h
  · exact execWdtKick_grows h
  · exact execWdtExpired_grows h
  · exact execAvsInterval_grows h
  · exact execPmbTransaction_grows h
  · exact execPmbDone_grows h
  · exact execPmbAlert_grows h
  · exact execThermalSlowRound_grows h
  · exact execThermalFastSample_grows h
  · exact execSensorReadmit_grows h
  · exact execT3GraceExpired_grows h
  · exact execForcedSleep_grows h
  · exact execInjArm_grows h
  · exact execInjDisarm_grows h
  · exact execRateInterval_grows h
  · exact execFaultLogWrite_grows h
  · exact execLogClear_grows h
  · exact execAutobaud_grows h
  · exact execMonitorSyntaxError_grows h
  · exact execMonitorRead_grows h
  · exact execMonitorWriteWord_grows h
  · exact execMonitorDump_grows h
  · exact execMonitorFill_grows h
  · exact execMonitorCnt_grows h
  · exact execMonitorInj_grows h
  · exact execMonitorLog_grows h
  · exact execMonitorLogClear_grows h
  · exact execMonitorClk_grows h
  · exact execMonitorVote_grows h
  · exact execMonitorReadmit_grows h
  · exact execBootRetry_grows h
  · exact execBootRecover_grows h
  · exact execRecoverTimeout_grows h
  · exact execMonitorResetSoft_grows h
  · exact execMonitorResetHard_grows h
  · exact execChallenge_grows h
  · exact execUnlock_grows h
  · exact execHelp_grows h
  · exact execBypass_grows h
  · exact execIdcode_grows h
  · exact execSamplePreload_grows h
  · exact execExtest_grows h
  · exact execJtagDebug_grows h
  · exact execPrbsCheck_grows h
  · exact execPackageLoadDone_grows h
  · exact execMemoryAccess_grows h
  · exact execPerBankRefresh_grows h
  · exact execAccessHoldEnd_grows h
  · exact execTimeCounterParity_grows h

/-! ### The model's file `Step` -/

theorem idle_grows (h : Grows s₀ s) : Grows s₀ (idle s) := by
  unfold idle
  exact advanceTo_grows h

end

/-! ### A step -/

/-- A step takes the queue's front command, and keeps of the rest what every command keeps. -/
theorem step_grows {s t : State} (h : step s = .next t) : Grows { s with pending := s.pending.tail } t := by
  unfold step at h
  split at h
  next hnone =>
    have hrest : { s with pending := s.pending.tail } = s := by rw [hnone, List.tail_nil, ← hnone]
    rw [hrest]
    exact Host.Outcome.next.inj h ▸ idle_grows (Grows.refl s)
  next i rest hpending =>
    rw [hpending]
    exact exec_grows (Grows.refl _) t h

/-- Settles O5: every command writes memory by insertions of bytes and removals of them, which keep it canonical. -/
theorem memoryStaysCanonical : Obligations.MemoryStaysCanonical := by
  unfold Obligations.MemoryStaysCanonical
  intro s t hsafe hstep
  exact (step_grows hstep).mem hsafe

/-- Settles O7: the end of an OTP program adds bits, and no other command writes OTP. -/
theorem otpOnlyGainsBits : Obligations.OtpOnlyGainsBits := by
  unfold Obligations.OtpOnlyGainsBits
  intro s t w hstep
  exact (step_grows hstep).otp w

/-- Settles O6: time only advances to later instants, and free values are only drawn. -/
theorem stepsKeepQueueAndTime : Obligations.StepsKeepQueueAndTime := by
  unfold Obligations.StepsKeepQueueAndTime
  intro s t hstep
  obtain ⟨hpending, hvariant, hnow, hfresh, -, -⟩ := step_grows hstep
  exact ⟨hpending, hvariant, hnow, hfresh⟩


end Sys2Proof.Proofs.Growth

/-! The commands' form and the state after reset (chapters 0, 1). -/

namespace Sys2Proof.Proofs.Reset

open Sys2Proof.Machine

-- The kernel's evaluation below waits for the declarations before it: it is elaborated in their order.
set_option Elab.async false

/-- Settles O1: `step` splits on the queue. -/
theorem stepRunsFrontCommand : Obligations.StepRunsFrontCommand := by
  unfold Obligations.StepRunsFrontCommand
  constructor
  · intro s c rest
    rfl
  · intro s hnone
    rw [step, hnone]
    rfl

theorem reset_rd (a : ℕ) : State.reset.rd a = resetWord .umb9480 a := rfl

/-- Settles O3: after reset no register has been written, so each field is its table's reset value. -/
theorem resetHoldsTheSpecsValues : Obligations.ResetHoldsTheSpecsValues := by
  unfold Obligations.ResetHoldsTheSpecsValues
  refine ⟨by decide +kernel, by decide +kernel, by decide +kernel, by decide +kernel, by decide +kernel,
    by decide +kernel, by decide +kernel, by decide +kernel, by decide +kernel, by decide +kernel, by decide +kernel,
    by decide +kernel, by decide +kernel, by decide +kernel, by decide +kernel, by decide +kernel, reset_rd, rfl, rfl, rfl⟩

/-- Settles O4: memory is empty at reset. -/
theorem resetIsSafe : Obligations.ResetIsSafe := by
  unfold Obligations.ResetIsSafe
  rfl

end Sys2Proof.Proofs.Reset

/-! What a command's operands decide (log 4). -/

namespace Sys2Proof.Proofs.Form

open Sys2Proof.Machine

/-- The command goes on where `ok`, and is refused as ill-formed where not. -/
abbrev Guarded (ok : Bool) (r : Res) : Prop := ∃ t, r = guardOk ok t

theorem guarded_of_eq {ok ok' : Bool} {s : State} (h : ok = ok') : Guarded ok' (guardOk ok s) := ⟨s, by rw [h]⟩

theorem geomReg_isSome (g : RingId) (which : ℕ) :
    (geomReg g which).isSome = (match g with
      | .tap _ _ | .branch _ _ => decide (which < 4)
      | .prc _ | .enc _ => decide (which < 3)) := by
  rcases g with ⟨n, t⟩ | ⟨n, b⟩ | n | c <;> rcases which with _ | _ | _ | _ | k <;> simp [geomReg, ringRegs]

theorem offDomainAccess_guarded (r : Requester) (a : ℕ) (w : Option Word) (s : State) :
    Guarded true (execOffDomainAccess r a w s) := by
  unfold execOffDomainAccess
  split
  · split
    · exact ⟨_, rfl⟩
    · exact ⟨_, rfl⟩
  · split
    · exact ⟨_, rfl⟩
    · exact ⟨_, rfl⟩
  · exact ⟨_, rfl⟩

/-- Every command but the one whose operands must suit the picture in progress is guarded by its operands' ranges. -/
theorem exec_guarded (i : Instr) (s : State) (hi : ∀ p, i ≠ .pictureDone p) : Guarded i.wf (exec i s) := by
  cases i with
  | pictureDone p => exact absurd rfl (hi p)
  | offDomainAccess r a w => exact offDomainAccess_guarded r a w s
  | ctrlEnable a c => exact guarded_of_eq (by simp [Instr.wf, Bool.and_assoc])
  | tapOffer n t => exact guarded_of_eq (by simp [Instr.wf])
  | ringGeometryWrite r g which v => exact guarded_of_eq (congrArg (g.wf && ·) (geomReg_isSome g which))
  | _ => exact ⟨_, rfl⟩

/-- Settles O2: a command goes on or not by its operands alone, but for a PICTURE_DONE of a picture in progress. -/
theorem wellFormedCommandsComplete : Obligations.WellFormedCommandsComplete := by
  unfold Obligations.WellFormedCommandsComplete
  intro i s
  by_cases hi : ∃ p, i = .pictureDone p
  · obtain ⟨p, rfl⟩ := hi
    rw [exec_pictureDone, execPictureDone]
    refine ⟨fun _ hok => ?_, fun hwf => absurd hwf Bool.false_ne_true.symm, fun p' x hp hx hbad => ?_⟩
    · cases hcur : s.hvc.cur with
      | none => exact ⟨_, rfl⟩
      | some x => exact ⟨_, by simp only [guardOk, hok p x rfl hcur, if_true]; rfl⟩
    · obtain rfl : p = p' := by injection hp
      simp only [hx, guardOk, hbad, Bool.false_eq_true, if_false]
  · have hne : ∀ p, i ≠ .pictureDone p := fun p hp => hi ⟨p, hp⟩
    obtain ⟨t, ht⟩ := exec_guarded i s hne
    rw [ht]
    refine ⟨fun hwf _ => ⟨t, by rw [hwf, guardOk, if_pos rfl]⟩, fun hwf => by rw [hwf, guardOk, if_neg Bool.false_ne_true],
      fun p _ hp => absurd hp (hne p)⟩

end Sys2Proof.Proofs.Form

/-! What an operation leaves of the registers and of memory, one rule for each operation of the state. -/

namespace Sys2Proof.Proofs.Keeping

open Sys2Proof.Machine
open Sys2Proof.Claims (RegsBut MemBut Keeps Told)

/-- Every register but those of `p`, and every byte of memory but those of `q`, reads as before. -/
def Kept (p q : ℕ → Prop) (s t : State) : Prop := RegsBut p s t ∧ MemBut q s t

theorem keeps_iff_kept (p : ℕ → Prop) (s t : State) : Keeps p s t ↔ Kept p (fun _ => False) s t := Iff.rfl

section
variable {p q : ℕ → Prop} {s₀ s t : State}

theorem Kept.refl (p q : ℕ → Prop) (s : State) : Kept p q s s := ⟨fun _ _ => rfl, fun _ _ => rfl⟩

theorem Kept.trans (h : Kept p q s₀ s) (h' : Kept p q s t) : Kept p q s₀ t :=
  ⟨fun a ha => (h'.1 a ha).trans (h.1 a ha), fun a ha => (h'.2 a ha).trans (h.2 a ha)⟩

theorem Kept.mono {p' q' : ℕ → Prop} (hp : ∀ a, p a → p' a) (hq : ∀ a, q a → q' a) (h : Kept p q s t) : Kept p' q' s t :=
  ⟨fun a ha => h.1 a fun hpa => ha (hp a hpa), fun a ha => h.2 a fun hqa => ha (hq a hqa)⟩

/-- A state with the same registers, memory and former check areas. -/
theorem Kept.congr (h : Kept p q s₀ s) (hregs : t.regs = s.regs) (hvariant : t.variant = s.variant)
    (hmem : t.mem = s.mem) (hformer : t.mc.former = s.mc.former) : Kept p q s₀ t where
  left := fun a ha => by rw [← h.1 a ha, State.rd, State.rd, hregs, hvariant]
  right := fun a ha => by rw [← h.2 a ha, State.peek, State.peek, State.formerAt, State.formerAt, hmem, hformer]

theorem Kept.f_eq (h : Kept p q s t) (x : Fld) (hx : ¬ p x.addr) : t.f x = s.f x := by
  rw [State.f, State.f, h.1 x.addr hx]

theorem wr_kept {a : ℕ} {w : Word} (ha : p a) (h : Kept p q s₀ s) : Kept p q s₀ (wr a w s) :=
  h.trans ⟨fun b hb => rd_wr_of_ne a b w s fun hba => hb (hba ▸ ha), fun _ _ => rfl⟩

theorem setF_kept {x : Fld} {v : ℕ} (hx : p x.addr) (h : Kept p q s₀ s) : Kept p q s₀ (setF x v s) := wr_kept hx h

theorem flag_kept {x : Fld} (hx : p x.addr) (h : Kept p q s₀ s) : Kept p q s₀ (flag x s) := wr_kept hx h

theorem bumpBy_kept {a n : ℕ} (ha : p a) (h : Kept p q s₀ s) : Kept p q s₀ (bumpBy a n s) := wr_kept ha h

theorem bump_kept {a : ℕ} (ha : p a) (h : Kept p q s₀ s) : Kept p q s₀ (bump a s) := wr_kept ha h

theorem setPair_kept {lo hi v : ℕ} (hlo : p lo) (hhi : p hi) (h : Kept p q s₀ s) : Kept p q s₀ (setPair lo hi v s) :=
  wr_kept hhi (wr_kept hlo h)

theorem addPair_kept {lo hi n : ℕ} (hlo : p lo) (hhi : p hi) (h : Kept p q s₀ s) : Kept p q s₀ (addPair lo hi n s) :=
  setPair_kept hlo hhi h

theorem raiseAt_kept {τ : Stamp} {blk loc arg : ℕ} (h : Kept p q s₀ s) : Kept p q s₀ (raiseAt τ blk loc arg s) :=
  h.congr (by simp) (by simp) (by simp) (by simp)

theorem raise_kept {blk loc arg : ℕ} (h : Kept p q s₀ s) : Kept p q s₀ (raise blk loc arg s) := raiseAt_kept h

theorem ite_kept {c : Prop} [Decidable c] (hs : Kept p q s₀ s) (ht : Kept p q s₀ t) :
    Kept p q s₀ (if c then s else t) := by
  split
  · exact hs
  · exact ht

theorem foldl_kept {α : Type} {l : List α} {f : State → α → State} (hf : ∀ s, ∀ x ∈ l, Kept p q s₀ s → Kept p q s₀ (f s x))
    (h : Kept p q s₀ s) : Kept p q s₀ (l.foldl f s) := by
  induction l generalizing s with
  | nil => exact h
  | cons x l ih => exact ih (fun s y hy => hf s y (List.mem_cons_of_mem _ hy)) (hf s x List.mem_cons_self h)

theorem modMon_kept {f : MonSt → MonSt} (h : Kept p q s₀ s) : Kept p q s₀ (modMon f s) := h.congr rfl rfl rfl rfl

/-! ### Fields of one register -/

theorem setBits_mod (w : Word) (hi lo v : ℕ) (hle : lo ≤ hi) (h31 : hi ≤ 31) :
    (setBits w hi lo v).toNat % 2 ^ lo = w.toNat % 2 ^ lo := by
  have hword : 2 ^ lo ∣ 2 ^ 32 := pow_dvd_pow 2 (by omega)
  have hfield : bitsOf w.toNat hi lo * 2 ^ lo ≤ w.toNat :=
    le_trans (Nat.mul_le_mul_right _ (Nat.mod_le _ _)) (Nat.div_mul_le_self _ _)
  rw [setBits, BitVec.toNat_ofNat, Nat.mod_mod_of_dvd _ hword, Nat.add_mul_mod_self_right, Nat.mul_comm,
    Nat.sub_mul_mod (by rw [Nat.mul_comm]; exact hfield)]

/-- A field that lies below is read from the low bits. -/
theorem bitsOf_eq_mod_div (n hi lo : ℕ) (h : lo ≤ hi) : bitsOf n hi lo = n % 2 ^ (hi + 1) / 2 ^ lo := by
  have hsplit : 2 ^ (hi + 1) = 2 ^ lo * 2 ^ (hi - lo + 1) := by rw [← pow_add]; congr 1; omega
  rw [bitsOf, hsplit, Nat.mod_mul_right_div_self]

theorem bitsOf_setBits_of_above (w : Word) (hi lo v hi' lo' : ℕ) (hle : lo ≤ hi) (h31 : hi ≤ 31) (hle' : lo' ≤ hi')
    (habove : hi' < lo) : bitsOf (setBits w hi lo v).toNat hi' lo' = bitsOf w.toNat hi' lo' := by
  have hdvd : 2 ^ (hi' + 1) ∣ 2 ^ lo := pow_dvd_pow 2 (by omega)
  rw [bitsOf_eq_mod_div _ _ _ hle', bitsOf_eq_mod_div _ _ _ hle', ← Nat.mod_mod_of_dvd _ hdvd, setBits_mod w hi lo v hle h31,
    Nat.mod_mod_of_dvd _ hdvd]

/-- A field of the same register that shares no bit with the one set. -/
theorem f_setF_of_apart (x y : Fld) (v : ℕ) (s : State) (haddr : y.addr = x.addr) (hle : x.lo ≤ x.hi) (h31 : x.hi ≤ 31)
    (hle' : y.lo ≤ y.hi) (h : x.hi < y.lo ∨ y.hi < x.lo) : (setF x v s).f y = s.f y := by
  rcases h with hbelow | habove
  · exact RegisterMap.f_setF_of_below x y v s haddr hle h31 hbelow
  · rw [State.f, haddr, setF, rd_wr_self, bitsOf_setBits_of_above _ _ _ _ _ _ hle h31 hle' habove, ← haddr, State.f]

theorem f_lt (s : State) (x : Fld) : s.f x < 2 ^ (x.hi - x.lo + 1) := Nat.mod_lt _ (by positivity)

theorem f_congr {s t : State} (x : Fld) (hregs : t.regs = s.regs) (hvariant : t.variant = s.variant) : t.f x = s.f x := by
  rw [State.f, State.f, State.rd, State.rd, hregs, hvariant]

theorem raise_f (blk loc arg : ℕ) (s : State) (x : Fld) : (raise blk loc arg s).f x = s.f x := by rw [State.f, raise_rd, State.f]

theorem raise_b (blk loc arg : ℕ) (s : State) (x : Fld) : (raise blk loc arg s).b x = s.b x := by rw [State.b, raise_f, State.b]

/-! ### Events -/

/-- An event that is raised while its enable reads as it did is told. -/
theorem told_raise {blk loc arg : ℕ} (hon : t.evtOn blk loc = s.evtOn blk loc) (hpwr : t.pwr.testHold = s.pwr.testHold) :
    Told blk loc arg s (raise blk loc arg t) := by
  intro hen hhold
  rw [raise, raiseAt, if_pos (by rw [hon, hen, hpwr, hhold]; rfl)]
  simp

theorem told_of_flight {blk loc arg : ℕ} {u : State} (h : Told blk loc arg s t) (l : List Ev)
    (hu : u.evr.flight = t.evr.flight ++ l) : Told blk loc arg s u := by
  intro hen hhold
  rw [hu, List.any_append, h hen hhold, Bool.true_or]

theorem told_congr {blk loc arg : ℕ} {u : State} (h : Told blk loc arg s t) (hu : u.evr.flight = t.evr.flight) :
    Told blk loc arg s u := told_of_flight h [] (by rw [hu, List.append_nil])

end

end Sys2Proof.Proofs.Keeping

/-! The debug lock and the TAP (chapter 23). -/

namespace Sys2Proof.Proofs.Debug

open Sys2Proof.Machine
open Sys2Proof.Proofs.Keeping
open Sys2Proof.Claims (Runs Told)

/-- A command that the monitor takes. -/
theorem monTake_of_ready (k : State → State) (s : State) (h : s.monReady = true) :
    monTake k s = k (modMon (fun m => { m with readm := none }) s) := if_pos h

theorem challenge (s : State) (n : BitVec 256) : Claims.challenge s n := by
  intro hready
  refine ⟨_, by rw [exec_challenge, execChallenge, monTake_of_ready _ _ hready], rfl, rfl, ?_⟩
  exact modMon_kept (modMon_kept (modMon_kept (Kept.refl _ _ s)))

theorem help (s : State) : Claims.help s := by
  intro hready
  refine ⟨_, by rw [exec_help, execHelp, monTake_of_ready _ _ hready], rfl, ?_⟩
  exact modMon_kept (modMon_kept (Kept.refl _ _ s))

theorem bypass (s : State) : Claims.bypass s :=
  ⟨_, rfl, rfl, modMon_kept (Kept.refl _ _ s)⟩

theorem idcode (s : State) : Claims.idcode s := by
  refine ⟨_, rfl, rfl, ?_, modMon_kept (Kept.refl _ _ s)⟩
  cases hv : s.variant <;> simp [modJtag, modMon, hv, idcodeOf] <;> decide

theorem maker (s : State) : Claims.maker s := by
  refine ⟨_, rfl, ?_, ?_, modMon_kept (Kept.refl _ _ s)⟩
  · simp [modJtag, modMon]
  · cases hv : s.variant <;> simp [modJtag, modMon, hv, idcodeOf] <;> decide

theorem tapOpen_kept (p : ℕ → Prop) (f : JtagSt → JtagSt) (s : State) : Kept p (fun _ => False) s (tapOpen f s) :=
  ite_kept (Kept.refl _ _ s) (modMon_kept (Kept.refl _ _ s))

theorem tapOpen_jtag (f : JtagSt → JtagSt) (s : State) :
    (tapOpen f s).mon.jtag = if s.dbgLocked then s.mon.jtag else f s.mon.jtag := by
  unfold tapOpen
  split
  · rfl
  · rfl

theorem samplePreload (s : State) (p i : List Bool) : Claims.samplePreload s p i :=
  ⟨_, rfl, tapOpen_jtag _ s, tapOpen_kept _ _ s⟩

theorem extest (s : State) : Claims.extest s := by
  refine ⟨_, rfl, ?_, tapOpen_kept _ _ s⟩
  rw [tapOpen_jtag]
  split
  · rfl
  · rfl

theorem jtagDebug (s : State) : Claims.jtagDebug s := by
  refine ⟨_, rfl, ?_, tapOpen_kept _ _ s⟩
  rw [tapOpen_jtag]
  split
  · rfl
  · rfl


/-- The monitor's events have one enable register, and nothing else decides whether they are told. -/
theorem evtOn_monitor {s t : State} (loc : ℕ) (h : t.rd MON_EVT_EN = s.rd MON_EVT_EN) : t.evtOn 0x58 loc = s.evtOn 0x58 loc := by
  simp [State.evtOn, h]

theorem showDbg_kept {s₀ s : State} (h : Kept (· = MON_DBG_STATUS) (fun _ => False) s₀ s) :
    Kept (· = MON_DBG_STATUS) (fun _ => False) s₀ (showDbg s) := setF_kept rfl (setF_kept rfl h)

theorem showDbg_unlocked (s : State) : (showDbg s).f MON_DBG_STATUS_unlocked = s.f MON_DBG_STATUS_unlocked := by
  rw [showDbg, f_setF_of_apart MON_DBG_STATUS_jtag_open MON_DBG_STATUS_unlocked _ _ rfl (by decide) (by decide) (by decide) (by decide),
    f_setF_of_apart MON_DBG_STATUS_locked MON_DBG_STATUS_unlocked _ _ rfl (by decide) (by decide) (by decide) (by decide)]

theorem flag_unlocked (s : State) : (flag MON_DBG_STATUS_unlocked s).f MON_DBG_STATUS_unlocked = 1 :=
  f_setF_self _ _ s (by decide) (by decide)

/-! ### The attempt to unlock (R467) -/

section
variable (s : State) (key sig : List Byte)

/-- The lock opened by the right signature. -/
def opened (s : State) : State :=
  showDbg (flag MON_DBG_STATUS_unlocked (modMon (fun m => { m with nonce := none }) s))

/-- The failure counted. -/
def failed (s : State) : State :=
  setF MON_DBG_STATUS_fails (s.f MON_DBG_STATUS_fails + 1) (modMon (fun m => { m with nonce := none }) s)

theorem unlockTry_of_ok (h : s.unlockOk key sig = true) : unlockTry key sig s = monOk (raise 0x58 0 0 (opened s)) := if_pos h

theorem unlockTry_of_bad (h : s.unlockOk key sig = false) :
    unlockTry key sig s = monErr 5 0 (raise 0x58 1 (s.f MON_DBG_STATUS_fails + 1) (failed s)) :=
  if_neg (by rw [h]; exact Bool.false_ne_true)

theorem opened_kept : Kept (· = MON_DBG_STATUS) (fun _ => False) s (opened s) :=
  showDbg_kept (setF_kept rfl (modMon_kept (Kept.refl _ _ s)))

theorem failed_kept : Kept (· = MON_DBG_STATUS) (fun _ => False) s (failed s) :=
  setF_kept rfl (modMon_kept (Kept.refl _ _ s))

theorem opened_unlocked : (opened s).b MON_DBG_STATUS_unlocked = true := by
  rw [State.b, opened, showDbg_unlocked, flag_unlocked]
  rfl

theorem opened_nonce : (opened s).mon.nonce = none := rfl

theorem failed_nonce : (failed s).mon.nonce = none := rfl

theorem opened_dbgLocked : (opened s).dbgLocked = false := by rw [State.dbgLocked, opened_unlocked, Bool.not_true, Bool.and_false]

theorem monOk_nonce : (monOk s).mon.nonce = s.mon.nonce := rfl

theorem monErr_nonce (cc cause : ℕ) : (monErr cc cause s).mon.nonce = s.mon.nonce := rfl

theorem monErr_f (cc cause : ℕ) (x : Fld) : (monErr cc cause s).f x = s.f x := rfl

theorem monOk_b (x : Fld) : (monOk s).b x = s.b x := rfl

theorem monOk_dbgLocked : (monOk s).dbgLocked = s.dbgLocked := rfl

theorem raise_dbgLocked (blk loc arg : ℕ) : (raise blk loc arg s).dbgLocked = s.dbgLocked := by
  rw [State.dbgLocked, State.dbgLocked, raise_b, State.otp, State.otp, raise_cfg]

theorem failed_fails (h : s.f MON_DBG_STATUS_fails < 3) : (failed s).f MON_DBG_STATUS_fails = s.f MON_DBG_STATUS_fails + 1 := by
  rw [failed, f_setF_self _ _ _ (by decide) (by decide)]
  exact Nat.mod_eq_of_lt (by show _ < 4; omega)

theorem unlock : Claims.unlock s key sig := by
  intro hkey hsig hready
  refine ⟨_, by rw [exec_unlock, execUnlock, hkey, hsig, monTake_of_ready _ _ hready]; rfl, ?_⟩
  have hfails : (modMon (fun m => { m with readm := none }) s).f MON_DBG_STATUS_fails = s.f MON_DBG_STATUS_fails := rfl
  rw [hfails]
  split
  case isTrue h => exact ⟨modMon_kept (modMon_kept (Kept.refl _ _ s)), rfl, rfl⟩
  case isFalse h =>
    generalize hs' : modMon (fun m => { m with readm := none }) s = s'
    have hkept : Kept (· = MON_DBG_STATUS) (fun _ => False) s s' := hs' ▸ modMon_kept (Kept.refl _ _ s)
    have hok : s'.unlockOk key sig = s.unlockOk key sig := by rw [← hs']; rfl
    have hhold : s'.pwr = s.pwr := by rw [← hs']; rfl
    have hcount : s'.f MON_DBG_STATUS_fails = s.f MON_DBG_STATUS_fails := by rw [← hs']; rfl
    cases h' : s.unlockOk key sig with
    | true =>
      have ht := hkept.trans (opened_kept s')
      rw [unlockTry_of_ok s' key sig (hok.trans h')]
      refine ⟨modMon_kept (raise_kept ht), ?_, fun _ => ⟨rfl, ?_, ?_, ?_⟩, fun hbad => nomatch hbad⟩
      · rw [monOk_nonce, raise_mon, opened_nonce]
      · rw [monOk_b, raise_b, opened_unlocked]
      · rw [monOk_dbgLocked, raise_dbgLocked, opened_dbgLocked]
      · exact told_congr (told_raise (evtOn_monitor _ (ht.1 _ (by decide))) (congrArg PwrSt.testHold hhold)) rfl
    | false =>
      have ht := hkept.trans (failed_kept s')
      rw [unlockTry_of_bad s' key sig (hok.trans h'), hcount]
      refine ⟨modMon_kept (raise_kept ht), ?_, fun hgood => absurd hgood Bool.false_ne_true, fun _ => ⟨rfl, ?_, ?_⟩⟩
      · rw [monErr_nonce, raise_mon, failed_nonce]
      · rw [monErr_f, raise_f, failed_fails s' (by omega), hcount]
      · exact told_congr (told_raise (evtOn_monitor _ (ht.1 _ (by decide))) (congrArg PwrSt.testHold hhold)) rfl

end

/-- Settles O57, a command of the debug lock and an instruction of the TAP at a time. -/
theorem debugLockAndTap : Obligations.DebugLockAndTap := by
  unfold Obligations.DebugLockAndTap
  exact ⟨challenge, unlock, help, bypass, idcode, maker, samplePreload, extest, jtagDebug⟩

end Sys2Proof.Proofs.Debug

/-! A domain that shows on and in transition with no transition in progress: the access to it never wakes it (R420). -/

namespace Sys2Proof.Proofs.Waking

open Sys2Proof.Machine

/-- Every domain shows on, `d` also shows in transition, and no transition is in progress. -/
structure Stuck (d : ℕ) (s : State) : Prop where
  noJob : s.pwr.job = none
  status : s.rd PWR_STATUS = 0x7FFFFFFF
  busy : bitOf (s.rd PWR_BUSY).toNat d = true

theorem Stuck.domOn {d : ℕ} {s : State} (h : Stuck d s) : s.domOn d = false := by
  rw [State.domOn, h.busy, Bool.not_true, Bool.and_false, Bool.false_and, Bool.false_and]

/-- What a step of the power controller may change. -/
theorem Stuck.congr {d : ℕ} {s t : State} (h : Stuck d s) (hjob : t.pwr.job = s.pwr.job)
    (hstatus : t.rd PWR_STATUS = s.rd PWR_STATUS) (hbusy : t.rd PWR_BUSY = s.rd PWR_BUSY) : Stuck d t :=
  ⟨hjob.trans h.noJob, hstatus.trans h.status, by rw [hbusy, h.busy]⟩

theorem Stuck.finishJob {d : ℕ} {s : State} (h : Stuck d s) : finishJob s = s := by rw [Machine.finishJob, h.noJob]

theorem Stuck.showState {d : ℕ} {s : State} (h : Stuck d s) : Stuck d (showState s) := by
  unfold Machine.showState
  split
  · exact h.congr rfl (rd_wr_of_ne _ _ _ _ (by decide)) (rd_wr_of_ne _ _ _ _ (by decide))
  · exact h

theorem Stuck.nextUp {d : ℕ} {s : State} (h : Stuck d s) : s.nextUp = none := by
  rw [State.nextUp, List.find?_eq_none]
  intro e he
  rw [h.status]
  have hon : ∀ e ∈ List.range 31, bitOf (0x7FFFFFFF : Word).toNat e = true := by decide
  rw [hon e he, Bool.not_true, Bool.and_false]
  exact Bool.false_ne_true

theorem Stuck.pwrNext {d : ℕ} {s : State} (h : Stuck d s) : Stuck d (pwrNext s) := by
  have h' : Stuck d (Machine.showState (markUnwanted s)) := Stuck.showState (h.congr rfl rfl rfl)
  rw [Machine.pwrNext, h'.noJob]
  simp only
  rw [h'.nextUp]
  exact h'

/-- The domain held for the hysteresis from now on. -/
def heldOn (d : ℕ) (s : State) : State :=
  { s with pwr := { s.pwr with holds := put s.pwr.holds d (s.now + s.f PWR_HYST_us * Config.us) } }

theorem wakeDomain_eq (d : ℕ) (s : State) : wakeDomain d s =
    heldOn d ((List.range 64).foldl (fun s _ => if s.domOn d then s else pwrNext (heldOn d (finishJob s)))
      (pwrNext (heldOn d s))) := rfl

theorem Stuck.heldOn {d : ℕ} {s : State} (h : Stuck d s) : Stuck d (heldOn d s) := h.congr rfl rfl rfl

/-- Sixty-four attempts leave the domain as it was. -/
theorem Stuck.wakeDomain {d : ℕ} {s : State} (h : Stuck d s) : Stuck d (wakeDomain d s) := by
  rw [wakeDomain_eq]
  refine Stuck.heldOn (List.foldlRecOn (motive := Stuck d) _ _ h.heldOn.pwrNext fun t ht _ _ => ?_)
  split
  · exact ht
  · rw [ht.finishJob]
    exact ht.heldOn.pwrNext

/-- Every domain on, SCO in transition. -/
def stuck : State :=
  { State.reset with variant := .umb9420, regs := [(PWR_BUSY, BitVec.ofNat 32 (2 ^ dSCO)), (PWR_STATUS, 0x7FFFFFFF)] }

theorem stuck_stuck : Stuck dSCO stuck := ⟨rfl, by decide, by decide⟩

/-- An access that waits for a domain, and does not get it (R420). -/
theorem gate_of_unwoken (a d n : ℕ) (s : State) (hhold : s.pwr.testHold = false) (hclk : s.pwr.clkLost = false)
    (hvar : s.variant = .umb9420) (hdom : windowDom s.variant a = some d) (hoff : s.domOn d = false)
    (hform : formOk a n = true) (hstill : (wakeDomain d s).domOn d = false) : gate a n s = (false, wakeDomain d s) := by
  obtain ⟨h, hwin, hpres, hd⟩ := RegisterMap.windowDom_eq_some _ _ _ hdom
  unfold gate
  rw [if_neg (ne_true_of_eq_false hhold), hwin]
  simp only [hpres, hform, hd, hoff, hclk, hvar, hstill, Bool.not_true, Bool.false_eq_true, if_false]

theorem exec_offDomainAccess_of_unwoken (r : Requester) (a d : ℕ) (s : State) (hdom : windowDom s.variant a = some d)
    (hoff : s.domOn d = false) (hform : formOk a 4 = true) (hgate : gate a 4 s = (false, wakeDomain d s)) :
    exec (.offDomainAccess r a none) s = .next (refuse r (wakeDomain d s)) := by
  rw [exec_offDomainAccess]
  unfold execOffDomainAccess
  simp only [hdom, hoff, hform, Bool.not_true, Bool.or_false, Bool.false_eq_true, if_false, execRcRead, busRead, hgate]

theorem refuse_domOn (r : Requester) (s : State) (d : ℕ) : (refuse r s).domOn d = s.domOn d := rfl

/-- Refutes O10: the access to a domain shown in transition with no transition in progress is refused, and the domain stays off. -/
theorem not_memoryAndWakingAccesses : ¬ Obligations.MemoryAndWakingAccesses := by
  unfold Obligations.MemoryAndWakingAccesses
  intro ⟨_, _, h⟩
  obtain ⟨t, hrun, hon, _⟩ := h stuck .cc0 0x47000000 dSCO rfl rfl (by decide) rfl stuck_stuck.domOn (by decide)
    ⟨rfl, rfl, rfl, rfl⟩ rfl rfl (by decide) rfl
  have hstill : (wakeDomain dSCO stuck).domOn dSCO = false := stuck_stuck.wakeDomain.domOn
  have hgate := gate_of_unwoken 0x47000000 dSCO 4 stuck rfl rfl rfl rfl stuck_stuck.domOn (by decide) hstill
  rw [exec_offDomainAccess_of_unwoken .cc0 _ dSCO _ rfl stuck_stuck.domOn (by decide) hgate, Host.Outcome.next.injEq] at hrun
  rw [← hrun, refuse_domOn, hstill] at hon
  exact Bool.false_ne_true hon

end Sys2Proof.Proofs.Waking

/-! Accesses that are served, each one equation: what the gate, the monitor's event and a register's write leave. -/

namespace Sys2Proof.Proofs.Access

open Sys2Proof.Machine
open Sys2Proof.Proofs.Keeping
open Sys2Proof.Claims (Answered Keeps)

/-- The state with these holds of domains (R420). -/
def held (h : List (ℕ × ℕ)) (s : State) : State := { s with pwr := { s.pwr with holds := h } }

/-- The state with these events behind those in flight. -/
def telling (l : List Ev) (s : State) : State := { s with evr := { s.evr with flight := s.evr.flight ++ l } }

theorem telling_nil (s : State) : telling [] s = s := by simp [telling]

theorem raiseAt_eq_telling (τ : Stamp) (blk loc arg : ℕ) (s : State) : ∃ l, raiseAt τ blk loc arg s = telling l s := by
  unfold raiseAt
  split
  · exact ⟨_, rfl⟩
  · exact ⟨[], (telling_nil s).symm⟩

theorem raise_eq_telling (blk loc arg : ℕ) (s : State) : ∃ l, raise blk loc arg s = telling l s := raiseAt_eq_telling _ blk loc arg s

theorem monWrote_eq_telling (r : Requester) (a : ℕ) (s : State) : ∃ l, monWrote r a s = telling l s := by
  unfold monWrote
  split
  · exact raise_eq_telling _ _ _ s
  · exact ⟨[], (telling_nil s).symm⟩

theorem gate_eq_held (a n : ℕ) (s : State) (h : Hit) (hhold : s.pwr.testHold = false) (hwin : windowAt s.variant a = some h)
    (hpres : h.present = true) (hdom : h.dom.all s.domOn = true) (hform : formOk a n = true) :
    ∃ l, gate a n s = (true, held l s) := by
  unfold gate
  rw [if_neg (ne_true_of_eq_false hhold), hwin]
  cases hd : h.dom with
  | none => exact ⟨s.pwr.holds, by simp [hpres, hform, hd, held]⟩
  | some d =>
    have hon : s.domOn d = true := by simpa [hd] using hdom
    simp only [hpres, hform, hd, hon, Bool.not_true, Bool.false_eq_true, if_false, if_true]
    split
    · exact ⟨_, rfl⟩
    · exact ⟨s.pwr.holds, rfl⟩

/-- The register at this address stands in a block that is present, in domain `d`. -/
structure InBlock (v : Variant) (a d : ℕ) (rows : List RegRow) (off : ℕ) : Prop where
  window : windowAt v a = some ⟨true, some d, rows, off⟩
  aligned : a % 4 = 0

theorem domOn_of_unitOn {s : State} {d : ℕ} (h : s.unitOn d = true) : s.domOn d = true := (Bool.and_eq_true_iff.mp h).2

theorem present_of_unitOn {s : State} {d : ℕ} (h : s.unitOn d = true) : domPresent s.variant d = true :=
  (Bool.and_eq_true_iff.mp h).1

theorem testHold_of_unitOn {s : State} {d : ℕ} (h : s.unitOn d = true) : s.pwr.testHold = false :=
  RegisterMap.testHold_of_domOn s d (domOn_of_unitOn h)

theorem formOk_word {a : ℕ} (h : a % 4 = 0) : formOk a 4 = true := by simp [formOk, h]

theorem gate_of_unitOn {s : State} {a d off : ℕ} {rows : List RegRow} (hin : InBlock s.variant a d rows off)
    (hon : s.unitOn d = true) : ∃ l, gate a 4 s = (true, held l s) :=
  gate_eq_held a 4 s _ (testHold_of_unitOn hon) hin.window rfl (domOn_of_unitOn hon) (formOk_word hin.aligned)

/-- A write that a unit serves itself: its meaning runs, the monitor's write is told, and the requester is answered. -/
theorem writeBy_of_unitOn {s : State} {a d off : ℕ} {rows : List RegRow} (r : Requester) (k : State → State)
    (hin : InBlock s.variant a d rows off) (hon : s.unitOn d = true) :
    ∃ l e, writeBy r a k s = answer r 0 (telling e (k (held l s))) := by
  obtain ⟨l, hgate⟩ := gate_of_unitOn hin hon
  obtain ⟨e, htold⟩ := monWrote_eq_telling r a (k (held l s))
  refine ⟨l, e, ?_⟩
  rw [writeBy, hgate]
  simp only [htold]

section
variable {p q : ℕ → Prop} {s₀ s t : State}

theorem held_kept {l : List (ℕ × ℕ)} (h : Kept p q s₀ s) : Kept p q s₀ (held l s) := h.congr rfl rfl rfl rfl

theorem telling_kept {l : List Ev} (h : Kept p q s₀ s) : Kept p q s₀ (telling l s) := h.congr rfl rfl rfl rfl

theorem answer_kept {r : Requester} {w : Word} (h : Kept p q s₀ s) : Kept p q s₀ (answer r w s) := h.congr rfl rfl rfl rfl

theorem plainWrite_kept {a : ℕ} {v : Word} (ha : p a) (h : Kept p q s₀ s) : Kept p q s₀ (plainWrite a v s) := by
  unfold plainWrite
  split
  · exact h
  · split
    · exact h
    · exact wr_kept ha h

end

theorem plainWrite_of_row {a : ℕ} {v : Word} {s : State} {h : Hit} {x : RegRow} (hwin : windowAt s.variant a = some h)
    (hrow : rowAt h = some x) : plainWrite a v s = wr a (x.fields.foldl (writeField (s.b CFG_LOCK_lock) v) (s.rd a)) s := by
  unfold plainWrite
  rw [hwin]
  simp only [hrow]

theorem holdsReg_of_row {v : Variant} {a : ℕ} {h : Hit} {x : RegRow} (hwin : windowAt v a = some h)
    (hrow : rowAt h = some x) : holdsReg v a = true := by
  rw [holdsReg, hwin]
  exact congrArg Option.isSome hrow

/-- A write that the register block at large serves (R5). -/
theorem exec_registerWrite_of_unitOn {s : State} {a d off : ℕ} {rows : List RegRow} {x : RegRow} (r : Requester) (v : Word)
    (hin : InBlock s.variant a d rows off) (hon : s.unitOn d = true) (hrow : rowAt ⟨true, some d, rows, off⟩ = some x)
    (hbox : inMailbox a = false) :
    ∃ l e, exec (.registerWrite r a v) s = .next (ovlPump (answer r 0 (telling e (regWrite r a v (held l s))))) := by
  obtain ⟨l, hgate⟩ := gate_of_unitOn hin hon
  obtain ⟨e, htold⟩ := monWrote_eq_telling r a (regWrite r a v (held l s))
  refine ⟨l, e, ?_⟩
  have hreg : holdsReg (held l s).variant a = true := holdsReg_of_row hin.window hrow
  rw [exec_registerWrite, execRegisterWrite, busWrite, hgate]
  simp only [storeReg, hbox, hreg, htold, Bool.false_eq_true, if_false, if_true]

end Sys2Proof.Proofs.Access

/-! A write of REF_PHASE under a schedule that follows the clock: the next tick is chosen anew, and REF_PERIOD shows it
(R32, R511). -/

namespace Sys2Proof.Proofs.AccessCodes

open Sys2Proof.Machine

-- The kernel's evaluation below waits for the declarations before it: it is elaborated in their order.
set_option Elab.async false

/-- A write of zero to REF_PHASE, run. -/
def phaseWritten (s : State) : State :=
  match busWrite .cc0 REF_PHASE 0 s with
  | (true, t) => ovlPump (answer .cc0 0 t)
  | (false, t) => refuse .cc0 t

theorem exec_phaseWrite (s : State) : exec (.registerWrite .cc0 REF_PHASE 0) s = .next (phaseWritten s) := rfl

/-- The generator on under PTP, a tick due at 0 whose predecessor's ideal instant was 1 ns before. -/
def ptpState : State :=
  { State.reset with
    regs := [(REF_CTRL, 5), (PWR_STATUS, 1)]
    ref := { State.reset.ref with next := some 0, lastIdeal := some (-1000) } }

theorem ptpState_period : ptpState.rd REF_PERIOD = 0 := by decide

theorem phaseWritten_period : (phaseWritten ptpState).rd REF_PERIOD = 1 := by decide +kernel

/-- Refutes O8: a write of REF_PHASE with a tick due under PTP changes REF_PERIOD too. -/
theorem not_registerAccessCodes : ¬ Obligations.RegisterAccessCodes := by
  unfold Obligations.RegisterAccessCodes
  intro ⟨h, _⟩
  obtain ⟨t, hrun, _, _, hregs, _⟩ := h ptpState .cc0 0 (by decide) rfl
  rw [exec_phaseWrite, Host.Outcome.next.injEq] at hrun
  have hkept : t.rd REF_PERIOD = ptpState.rd REF_PERIOD := hregs REF_PERIOD (by decide)
  rw [← hrun, phaseWritten_period, ptpState_period] at hkept
  exact absurd hkept (by decide)

end Sys2Proof.Proofs.AccessCodes

/-! A ring whose size grows past a number that a consumer still holds (R172). -/

namespace Sys2Proof.Proofs.Rings

open Sys2Proof.Machine

-- The kernel's evaluation below waits for the declarations before it: it is elaborated in their order.
set_option Elab.async false

/-- Every domain on; the ring of context 0 has no buffers, and its consumer holds number 0. -/
def heldPastEnd : State :=
  { State.reset with
    regs := [(PWR_STATUS, 0x7FFFFFFF)]
    rings := [(ringNo (.enc 0), { cons := [{ id := .sco, held := [0] }] })] }

/-- A write of one buffer to the ring's size, run. -/
def bufsWritten (s : State) : State :=
  writeBy .cc0 (ringRegs (.enc 0)).cfg (fun s => ringBufsWrite (.enc 0) 1 (ringStall (.enc 0) s)) s

theorem exec_bufsWrite (s : State) : exec (.ringBufsWrite .cc0 (.enc 0) 1) s = .next (bufsWritten s) := rfl

/-- The buffer held counts as held, not as a credit. -/
theorem bufsWritten_stat : (bufsWritten heldPastEnd).rd (HVC_EC_RING_STAT 0) = 1 := by decide +kernel

/-- Refutes O11: a buffer that a consumer held past the ring's end is no credit after bufs is written. -/
theorem not_ringsAndBuffers : ¬ Obligations.RingsAndBuffers := by
  unfold Obligations.RingsAndBuffers
  intro ⟨_, _, _, _, h, _⟩
  obtain ⟨t, hrun, _, ⟨_, _, _, hstat⟩, _⟩ :=
    h heldPastEnd .cc0 0 1 (by decide) (by decide) (by decide) (by decide) (by decide +kernel)
  rw [exec_bufsWrite, Host.Outcome.next.injEq] at hrun
  rw [← hrun, bufsWritten_stat] at hstat
  exact absurd hstat (by decide)

end Sys2Proof.Proofs.Rings

/-! A write of the rate under a schedule that follows the clock: the tick that is due is chosen anew (R511). -/

namespace Sys2Proof.Proofs.Reference

open Sys2Proof.Machine
open Sys2Proof.Proofs.AccessCodes (ptpState)

-- The kernel's evaluation below waits for the declarations before it: it is elaborated in their order.
set_option Elab.async false

/-- A write of 24 to the rate's numerator, run. -/
def rateWritten (s : State) : State := writeBy .cc0 REF_RATE_NUM (refRateWrite false 24) s

theorem exec_rateWrite (s : State) : exec (.refRateWrite .cc0 false 24) s = .next (rateWritten s) := rfl

theorem rateWritten_nextK : (rateWritten ptpState).ref.nextK.isSome = true := by decide +kernel

/-- Refutes O14: under PTP a write of the rate chooses the tick that is due anew. -/
theorem not_referenceGenerator : ¬ Obligations.ReferenceGenerator := by
  unfold Obligations.ReferenceGenerator
  intro ⟨_, _, _, h, _⟩
  obtain ⟨t, hrun, _, ⟨href, _⟩, _⟩ := h ptpState .cc0 false 24 (by decide)
  rw [exec_rateWrite, Host.Outcome.next.injEq] at hrun
  have hstay : t.ref = ptpState.ref := href (.inl rfl)
  have hnext := rateWritten_nextK
  rw [hrun, hstay] at hnext
  exact absurd hnext (by decide)

end Sys2Proof.Proofs.Reference

/-! A table is read from a protected region that is being filled: the read waits for the fill's end (R283). -/

namespace Sys2Proof.Proofs.TableLoads

open Sys2Proof.Machine

-- The kernel's evaluation below waits for the declarations before it: it is elaborated in their order.
set_option Elab.async false

/-- Every domain on; region 0, at address 0, is being filled, and a commit waits for its tables of group 0. -/
def filling : State :=
  { State.reset with
    regs := [(PWR_STATUS, 0x7FFFFFFF), (MEM_ECC_RGN_SIZE 0, 1), (MEM_ECC_RGN_CTRL 0, 0xFFFFFFFF)]
    mc := { State.reset.mc with fills := [0] }
    ips := [(0, { commits := [{ target := 0, seq := 0, mask := 0, regs := [], capturing := false, todo := [0] }] })] }

theorem exec_loadDone (s t : State) (hload : nextLoad (s.ip 0) = some (0, 0)) (hon : s.unitOn (dIP 0) = true)
    (hrun : exec (.tableLoadDone 0) s = .next t) : t = showCommits 0 (loadGroup 0 0 0 s) := by
  rw [exec_tableLoadDone, execTableLoadDone, hon, hload] at hrun
  exact (guardOk_eq_next _ _ _ |>.mp hrun).2.symm

theorem loaded_busy : (showCommits 0 (loadGroup 0 0 0 filling)).f (MEM_ECC_RGN_CTRL_busy 0) = 0 := by decide +kernel

/-- Refutes O19: the load's read of a region being filled ends the fill, and MEM_ECC_RGN_CTRL.busy falls. -/
theorem not_commitsAndTableLoads : ¬ Obligations.CommitsAndTableLoads := by
  unfold Obligations.CommitsAndTableLoads
  intro ⟨_, _, h, _⟩
  obtain ⟨t, hrun, _, hregs, _⟩ := h filling 0 0 0 (by decide) (by decide) rfl (by decide)
  have hkept : t.rd (MEM_ECC_RGN_CTRL 0) = filling.rd (MEM_ECC_RGN_CTRL 0) := hregs _ (by decide)
  have hbusy : t.f (MEM_ECC_RGN_CTRL_busy 0) = filling.f (MEM_ECC_RGN_CTRL_busy 0) :=
    congrArg (fun w : Word => bitsOf w.toNat (MEM_ECC_RGN_CTRL_busy 0).hi (MEM_ECC_RGN_CTRL_busy 0).lo) hkept
  rw [exec_loadDone filling t (by decide) (by decide) hrun, loaded_busy] at hbusy
  exact absurd hbusy (by decide)

end Sys2Proof.Proofs.TableLoads

/-! A pod's map may name a pip that the pod does not have, and its note of the spare's place too (R208). -/

namespace Sys2Proof.Proofs.PipRetirement

open Sys2Proof.Machine

-- The kernel's evaluation below waits for the declarations before it: it is elaborated in their order.
set_option Elab.async false

/-- The pip whose test fails a second time: pip 1 of pod 0, at position 1. -/
def failing : PipRef := ⟨0, 1⟩

/-- Every domain on; the spare of pod 0 retired; the map has a pip 12 at position 3, noted as the spare that went there in
this very cycle. -/
def misnamed : State :=
  { State.reset with
    regs := [(PWR_STATUS, 0x7FFFFFFF), (POD_MAP 0, 0x7654C210), (POD_PIP_STATUS 0 1, 0x10), (POD_PIP_STATUS 0 8, 0xF3)]
    pods := [(0, { took := some (State.reset.now, 3, 12) })]
    pips := [(pipNo failing, { test := some (2, none) })] }

/-- The state after the second failure. -/
def afterFailure : State := retirePip failing (lasting 1 0x2005 false (pipNo failing) 0 misnamed)

theorem exec_failure : exec (.signatureTestDone failing false) misnamed = .next afterFailure := by rfl

theorem absent_pip_placed : afterFailure.rd (POD_PIP_STATUS 0 12) ≠ misnamed.rd (POD_PIP_STATUS 0 12) := by decide +kernel

/-- Refutes O28: the retired pip's position goes to the pip that the map names, whose status lies outside the pod's nine. -/
theorem not_pipTilesAndTests : ¬ Obligations.PipTilesAndTests := by
  unfold Obligations.PipTilesAndTests
  intro ⟨_, _, _, _, h, _⟩
  obtain ⟨t, hrun, ⟨_, _, _, _, hregs⟩, _⟩ := h misnamed failing 2 (by decide) (by decide) rfl (by decide) (by decide) (by decide)
  have hkept : t.rd (POD_PIP_STATUS 0 12) = misnamed.rd (POD_PIP_STATUS 0 12) := hregs _ (by decide)
  rw [exec_failure, Host.Outcome.next.injEq] at hrun
  exact absent_pip_placed (hrun ▸ hkept)

end Sys2Proof.Proofs.PipRetirement

/-! The statistics of a frame are told to every frame handed over with its number, one that waits behind it too (R177). -/

namespace Sys2Proof.Proofs.PhotreFrames

open Sys2Proof.Machine

-- The kernel's evaluation below waits for the declarations before it: it is elaborated in their order.
set_option Elab.async false

/-- A frame of no rows that the tap has handed over whole. -/
def handed : PrcFeed := { info := {}, tap := 0, depth := 10, final := true }

/-- A frame of the same number behind it, with the place of a histogram. -/
def behind : PrcFeed := { handed with info := { hist := 5 } }

/-- The frame being coded: no slabs, buffer 0. -/
def coded : PrcCur := { coding := true }

/-- The pipeline's own frame of that number, whose statistics are due. -/
def due : IpFrame :=
  { info := {}, depth := 10, fillMode := 0, fillVal := 0, readouts := 0, par := [(IP_ST_SLOTS 0, 1)], tabs := [], seq := 0,
    statsDue := true }

/-- Every domain on; encoder 0 has coded the frame at hand, and another waits. -/
def coding : State :=
  { State.reset with
    regs := [(PWR_STATUS, 0x7FFFFFFF)]
    ips := [(0, { frames := [due] })]
    prcs := [(0, { cur := some coded })]
    feeds := [(0, [handed, behind])]
    rings := [(256, { writing := some 0 })] }

/-- The state after the frame is done. -/
def done : State := prcDone 0 (absorb 0 coding)

theorem exec_done : exec (.prcFrameDone 0) coding = .next done := by rfl

theorem done_feeds : lookD done.feeds [] 0 = [handed] := by decide +kernel

/-- Refutes O29: the frame that waits behind loses the place of its own histogram. -/
theorem not_photreCodec : ¬ Obligations.PhotreCodec := by
  unfold Obligations.PhotreCodec
  intro ⟨_, _, _, _, _, h, _⟩
  obtain ⟨t, hrun, _, _, hfeeds, _⟩ := h coding 0 coded handed (by decide) (by decide) (by decide) rfl (by decide) (by decide)
    rfl (by decide) rfl rfl rfl rfl rfl (by decide)
  rw [exec_done, Host.Outcome.next.injEq] at hrun
  rw [← hrun, done_feeds] at hfeeds
  exact absurd hfeeds (by decide)

end Sys2Proof.Proofs.PhotreFrames

/-! A context may stand attached to a ring that no pipeline has: its RING_STAT is none of the rings' (R15, R250). -/

namespace Sys2Proof.Proofs.EncoderApply

open Sys2Proof.Machine

-- The kernel's evaluation below waits for the declarations before it: it is elaborated in their order.
set_option Elab.async false

/-- A ring of a pipeline that the block does not have. -/
def absentRing : RingId := .tap 100 0

/-- Every domain on; context 0, disabled by its registers, is attached to the absent ring, which has a buffer. -/
def attached : State :=
  { State.reset with
    regs := [(PWR_STATUS, 0x7FFFFFFF), ((ringRegs absentRing).cfg, 1)]
    rings := [(ringNo absentRing, { cons := [{ id := .enc 0 }] })]
    hvc := { State.reset.hvc with ecs := [(0, { ring := some absentRing })] } }

/-- The state after the apply. -/
def applied : State := writeBy .cc0 (HVC_EC_APPLY 0) (ecApplyWrite 0 1) attached

theorem exec_apply : exec (.encApply .cc0 0 0) attached = .next applied := by rfl

theorem applied_stat : applied.rd (ringRegs absentRing).stat = 256 := by decide +kernel

/-- Refutes O30: the apply detaches the context, and shows the absent ring's credits. -/
theorem not_videoEncoder : ¬ Obligations.VideoEncoder := by
  unfold Obligations.VideoEncoder
  intro ⟨_, h, _⟩
  obtain ⟨t, hrun, _, _, _, _, hregs, _⟩ := h attached .cc0 0 0 (by decide) (by decide) rfl rfl rfl rfl
  have hkept : t.rd (ringRegs absentRing).stat = attached.rd (ringRegs absentRing).stat := hregs _ (by decide)
  rw [exec_apply, Host.Outcome.next.injEq] at hrun
  rw [← hrun, applied_stat] at hkept
  exact absurd hkept (by decide)

end Sys2Proof.Proofs.EncoderApply

/-! A block whose window memory fails parity ends its job before the source is read (R261, R269). -/

namespace Sys2Proof.Proofs.PackBlocks

open Sys2Proof.Machine

-- The kernel's evaluation below waits for the declarations before it: it is elaborated in their order.
set_option Elab.async false

/-- A pack job whose source no memory answers. -/
def unanswered : PkeJob :=
  { unpack := false, resid := false, src := 0x18000000, len := 1, dst := 0, dlen := 0, idx := 0, ilen := 0, chunk := 0,
    depth := 1, w := 0, row := 0 }

/-- Every domain on; channel 0 runs the job. -/
def packing : State :=
  { State.reset with
    regs := [(PWR_STATUS, 0x7FFFFFFF), (PKE_CH_STATUS 0, 1)]
    pke := { jobs := [(0, unanswered)] } }

/-- The state after a block in which the window memory failed parity. -/
def struck : State :=
  let s := pkeStep 0 (some .window) unanswered (advanceTo 0 packing)
  { s with pke := { s.pke with free := s.now + s.t1Pause Config.fclk } }

theorem exec_struck : exec (.pkeBlock 0 (some .window)) packing = .next struck := by rfl

theorem struck_cause : struck.f (PKE_CH_STATUS_cause 0) = 3 := by decide +kernel

/-- Refutes O32: the parity error's cause is 3, though the source does not answer. -/
theorem not_packEngine : ¬ Obligations.PackEngine := by
  unfold Obligations.PackEngine
  intro ⟨_, h, _⟩
  obtain ⟨t, hrun, _, hsource, _⟩ := h packing 0 unanswered (some .window) (by decide) (by decide) rfl rfl rfl (by decide) rfl
    ⟨rfl, rfl, rfl, rfl⟩ (by decide)
  obtain ⟨_, hcause, _⟩ := hsource rfl (by decide)
  rw [exec_struck, Host.Outcome.next.injEq] at hrun
  rw [← hrun, struck_cause] at hcause
  exact absurd hcause (by decide)

end Sys2Proof.Proofs.PackBlocks

/-! Enabling the memory stops every training that runs, one of a controller that the block does not have too (R281). -/

namespace Sys2Proof.Proofs.MemoryEnable

open Sys2Proof.Machine

-- The kernel's evaluation below waits for the declarations before it: it is elaborated in their order.
set_option Elab.async false

/-- Every domain on; a mask set in force; a controller 100 trains. -/
def training : State :=
  { State.reset with
    regs := [(PWR_STATUS, 0x7FFFFFFF), (MEM_MAP_STATUS, 0xFFFFFFFF), (MC_TRAIN_CTRL 100, 1)]
    mc := { State.reset.mc with training := [(100, [])] } }

/-- The state after the memory is enabled. -/
def enabled : State := writeBy .cc0 MEM_CTRL (memCtrlWrite 1) training

theorem exec_enable : exec (.memEnable .cc0 0) training = .next enabled := by rfl

theorem enabled_training : enabled.rd (MC_TRAIN_CTRL 100) = 0 := by decide +kernel

/-- Refutes O33: the go of the absent controller's MC_TRAIN_CTRL falls. -/
theorem not_memoryMapAndRequests : ¬ Obligations.MemoryMapAndRequests := by
  unfold Obligations.MemoryMapAndRequests
  intro ⟨_, _, h, _⟩
  obtain ⟨t, hrun, _, _, ⟨hregs, _⟩⟩ := h training .cc0 0 (by decide) (by decide)
  have hkept : t.rd (MC_TRAIN_CTRL 100) = training.rd (MC_TRAIN_CTRL 100) := hregs _ (by decide)
  rw [exec_enable, Host.Outcome.next.injEq] at hrun
  rw [← hrun, enabled_training] at hkept
  exact absurd hkept (by decide)

end Sys2Proof.Proofs.MemoryEnable

/-! A refresh interval may span the carry of the clock into the next second, which is told (R278, R362). -/

namespace Sys2Proof.Proofs.RefreshSecond

open Sys2Proof.Machine

-- The kernel's evaluation below waits for the declarations before it: it is elaborated in their order.
set_option Elab.async false

/-- Every domain on; the event of a new second enabled; the clock stands 1 ns before one. -/
def secondNear : State :=
  { State.reset with
    regs := [(PWR_STATUS, 0x7FFFFFFF), (TSU_EVT_EN, 4)]
    tsu := { State.reset.tsu with ns := 999999999 } }

theorem exec_interval : exec (.refreshInterval 0 0) secondNear = .next (refreshTick 0 0 secondNear) := by rfl

theorem second_told : (refreshTick 0 0 secondNear).evr.flight ≠ [] := by decide +kernel

/-- Refutes O34: the interval's end raises the event of the second that began within it. -/
theorem not_memoryUpkeep : ¬ Obligations.MemoryUpkeep := by
  unfold Obligations.MemoryUpkeep
  intro ⟨_, _, h, _⟩
  obtain ⟨t, hrun, h⟩ := h secondNear 0 0 ⟨rfl, rfl, rfl, rfl⟩ (by decide) (by decide) (by decide)
  dsimp only at h
  have hfew : lookD secondNear.mc.debt 0 (0 * 8 + 0) + 1 ≤ 8 := by decide
  rw [if_pos hfew] at h
  obtain ⟨_, hquiet, _⟩ := h
  rw [exec_interval, Host.Outcome.next.injEq] at hrun
  exact second_told (hrun ▸ hquiet)

end Sys2Proof.Proofs.RefreshSecond

/-! The admin commands of an attach go through memory: into a region being filled, they wait for the fill's end (R283, R287). -/

namespace Sys2Proof.Proofs.MemberAttach

open Sys2Proof.Machine

-- The kernel's evaluation below waits for the declarations before it: it is elaborated in their order.
set_option Elab.async false

/-- The member offers no queue pair: the attach ends with its second step. -/
def noPairs : AttachResult :=
  { linkUp := true, speed := 0, width := 1, ready := true, nsPresent := true, lbaFormat := true, blocks := 2048, pairs := 0,
    mdts := 0, vwc := false, uid := 0 }

/-- Every domain on; member 0 attaches; region 0, at address 0 as the members' queues are, is being filled. -/
def attaching : State :=
  { State.reset with
    regs := [(PWR_STATUS, 0x7FFFFFFF), (MEM_ECC_RGN_SIZE 0, 1), (MEM_ECC_RGN_CTRL 0, 0xFFFFFFFF), (RM_CTRL, 1), (RM_MBR_CTRL 0, 1)]
    mc := { State.reset.mc with fills := [0] } }

theorem exec_attach : exec (.attachComplete 0 noPairs) attaching = .next (attachDone 0 noPairs attaching) := by rfl

theorem attached_busy : (attachDone 0 noPairs attaching).f (MEM_ECC_RGN_CTRL_busy 0) = 0 := by decide +kernel

/-- Refutes O35: the attach's first admin command ends the fill, and MEM_ECC_RGN_CTRL.busy falls. -/
theorem not_recordMembers : ¬ Obligations.RecordMembers := by
  unfold Obligations.RecordMembers
  intro ⟨_, _, _, h, _⟩
  obtain ⟨t, hrun, _, _, hregs, _⟩ := h attaching 0 noPairs (by decide) (by decide) (by decide) (by decide) rfl (by decide)
  have hkept : t.rd (MEM_ECC_RGN_CTRL 0) = attaching.rd (MEM_ECC_RGN_CTRL 0) := hregs _ (by decide)
  have hbusy : t.f (MEM_ECC_RGN_CTRL_busy 0) = attaching.f (MEM_ECC_RGN_CTRL_busy 0) :=
    congrArg (fun w : Word => bitsOf w.toNat (MEM_ECC_RGN_CTRL_busy 0).hi (MEM_ECC_RGN_CTRL_busy 0).lo) hkept
  rw [exec_attach, Host.Outcome.next.injEq] at hrun
  rw [← hrun, attached_busy] at hbusy
  exact absurd hbusy (by decide)

end Sys2Proof.Proofs.MemberAttach

/-! A volume may stand closed by its register while its close still waits: the next task's end closes it (R301, R308). -/

namespace Sys2Proof.Proofs.VolumeOpening

open Sys2Proof.Machine

-- The kernel's evaluation below waits for the declarations before it: it is elaborated in their order.
set_option Elab.async false

/-- Volume 0, without members, whose close has been asked for. -/
def closingVolume : VolSt := { layout := 0, su := 4, slots := [], n := 0, total := 0, id := 0, closing := true }

/-- Every domain on; volume 0 waits for its close. -/
def closing : State :=
  { State.reset with
    regs := [(PWR_STATUS, 0x7FFFFFFF)]
    rm := { State.reset.rm with vols := [(0, closingVolume)] } }

/-- The state after the opening. -/
def opened : State := writeBy .cc0 (RM_VOL_CTRL 0) (volCtrlWrite 0 2) closing

theorem exec_open : exec (.volOpen .cc0 0 0) closing = .next opened := by rfl

theorem opened_state : opened.f (RM_VOL_STATUS_state 0) = 0 := by decide +kernel

/-- Refutes O36: the opening that finds no member ends in CLOSED, not in VOL_FAILED. -/
theorem not_recordVolumes : ¬ Obligations.RecordVolumes := by
  unfold Obligations.RecordVolumes
  intro ⟨_, _, h, _⟩
  obtain ⟨t, hrun, _, h, _⟩ := h closing .cc0 0 0 (by decide) (by decide) rfl (by decide) (by decide) (by decide)
  have hclosed : ¬ (closing.f (RM_VOL_STATUS_state 0) ≠ 0 ∨ closing.f (RM_VOL_CFG_layout 0) = 3) := by decide
  rw [if_neg hclosed] at h
  obtain ⟨hstate, _⟩ := h
  rw [exec_open, Host.Outcome.next.injEq] at hrun
  rw [← hrun, opened_state] at hstate
  exact absurd hstate (by decide)

end Sys2Proof.Proofs.VolumeOpening

/-! A stream may name a volume that the block does not have: its end closes that volume too (R301, R307). -/

namespace Sys2Proof.Proofs.ClipEnd

open Sys2Proof.Machine

-- The kernel's evaluation below waits for the declarations before it: it is elaborated in their order.
set_option Elab.async false

/-- Volume 100, without members, whose close has been asked for. -/
def absentVolume : VolSt := { layout := 0, su := 4, slots := [], n := 0, total := 0, id := 0, closing := true }

/-- Every domain on; stream 0 of volume 100 has written its close; the volume is shown READY. -/
def written : State :=
  { State.reset with
    regs := [(PWR_STATUS, 0x7FFFFFFF), (RM_VOL_STATUS 100, 2)]
    rm := { State.reset.rm with vols := [(100, absentVolume)], strs := [(0, { vol := 100, ring := some (.prc 0), stage := 3 })] } }

theorem exec_closed : exec (.clipClosed 0) written = .next (clipClosed 0 written) := by rfl

theorem closed_status : (clipClosed 0 written).rd (RM_VOL_STATUS 100) = 0 := by decide +kernel

/-- Refutes O37: the register of the absent volume falls to CLOSED. -/
theorem not_recordClips : ¬ Obligations.RecordClips := by
  unfold Obligations.RecordClips
  intro ⟨_, _, _, _, _, _, _, h, _⟩
  obtain ⟨t, hrun, _, _, _, _, hregs, _⟩ := h written 0 (.prc 0) (by decide) (by decide) rfl rfl
  have hkept : t.rd (RM_VOL_STATUS 100) = written.rd (RM_VOL_STATUS 100) := hregs _ (by decide)
  rw [exec_closed, Host.Outcome.next.injEq] at hrun
  rw [← hrun, closed_status] at hkept
  exact absurd hkept (by decide)

end Sys2Proof.Proofs.ClipEnd

/-! A reset of the controller ends every admin command, one that has started too (R331). -/

namespace Sys2Proof.Proofs.ControllerReset

open Sys2Proof.Machine

-- The kernel's evaluation below waits for the declarations before it: it is elaborated in their order.
set_option Elab.async false

/-- An admin command that has started: the deletion of a submission queue. -/
def started : HostCmd :=
  { id := 0, q := 0, stage := .run
    e := { opcode := 0, fused := 0, psdt := 0, cid := 0, nsid := 0, prp1 := 0, prp2 := 0, cdw10 := 1, cdw11 := 0, cdw12 := 0, data := [] } }

/-- Every domain on; the controller is enabled, and the admin command under way. -/
def running : State :=
  { State.reset with
    regs := [(PWR_STATUS, 0x7FFFFFFF), (OEP_STATUS, 0xFFFFFFFF)]
    oep := { State.reset.oep with cmds := [started] } }

theorem exec_reset : exec (.ctrlReset .ccEn) running = .next (drainStart 0 (hostClear running)) := by rfl

theorem reset_commands : (drainStart 0 (hostClear running)).oep.cmds = [] := by decide +kernel

/-- Refutes O38: the admin command that had started is gone. -/
theorem not_endpointLinkAndQueues : ¬ Obligations.EndpointLinkAndQueues := by
  unfold Obligations.EndpointLinkAndQueues
  intro ⟨_, _, _, h, _⟩
  obtain ⟨t, hrun, _, _, hcmds, _⟩ := h running .ccEn (by decide) (by decide) rfl (by decide)
  rw [exec_reset, Host.Outcome.next.injEq] at hrun
  rw [← hrun, reset_commands] at hcmds
  exact absurd hcmds (by decide)

end Sys2Proof.Proofs.ControllerReset

/-! The completion queues may stand out of order: the completion then lists the admin queue a second time (R313). -/

namespace Sys2Proof.Proofs.QueueCreation

open Sys2Proof.Machine

-- The kernel's evaluation below waits for the declarations before it: it is elaborated in their order.
set_option Elab.async false

/-- Create I/O Completion Queue of number 0, which is none. -/
def create : HostCmd :=
  { id := 0, q := 0
    e := { opcode := 5, fused := 0, psdt := 0, cid := 0, nsid := 0, prp1 := 0, prp2 := 0, cdw10 := 0, cdw11 := 0, cdw12 := 0, data := [] } }

/-- Every domain on; the command fetched; completion queue 5 stands before the admin queue. -/
def unordered : State :=
  { State.reset with
    regs := [(PWR_STATUS, 0x7FFFFFFF)]
    oep := { State.reset.oep with
      cmds := [create], sqs := [(0, { size := 2, cq := 0, base := 0 })]
      cqs := [(5, { size := 2, vec := 5, base := 0 }), (0, { size := 2, vec := 0, base := 0 })] } }

/-- The state after the command. -/
def created : State :=
  let s := advanceTo 0 (hostClear unordered)
  hostEnd create 0x101 0 { s with oep := { s.oep with free := s.now + s.t1Pause Config.fclk } }

theorem exec_create : exec (.createIoCq 0 0) unordered = .next created := by rfl

theorem created_queues : created.oep.cqs.map (·.1) = [0, 5, 0] := by decide +kernel

/-- Refutes O39: the refused creation changes the list of the completion queues' numbers. -/
theorem not_endpointAdminCommands : ¬ Obligations.EndpointAdminCommands := by
  unfold Obligations.EndpointAdminCommands
  intro ⟨_, _, h, _⟩
  obtain ⟨t, hrun, h, _⟩ := h unordered 0 0 create ⟨by decide, rfl, by decide, ⟨rfl, rfl, rfl, rfl⟩, by decide, by decide, by decide⟩
  rw [if_neg (by decide)] at h
  obtain ⟨_, hkeys⟩ := h
  rw [exec_create, Host.Outcome.next.injEq] at hrun
  rw [← hrun, created_queues] at hkeys
  exact absurd hkeys (by decide)

end Sys2Proof.Proofs.QueueCreation

/-! The engine may still stand attached to a ring when it is enabled for another: it detaches from that one first (R15, R335). -/

namespace Sys2Proof.Proofs.ScanOutStart

open Sys2Proof.Machine

-- The kernel's evaluation below waits for the declarations before it: it is elaborated in their order.
set_option Elab.async false

/-- The ring the engine stands attached to. -/
def formerRing : RingId := .branch 1 0

/-- Every domain on; the engine, disabled, attached to a ring of one buffer. -/
def disabled : State :=
  { State.reset with
    regs := [(PWR_STATUS, 0x7FFFFFFF), ((ringRegs formerRing).cfg, 1)]
    rings := [(ringNo formerRing, { cons := [{ id := .sco }] })]
    sco := { State.reset.sco with ring := some formerRing } }

/-- The state after the engine is enabled for branch 0 of pipeline 0. -/
def enabled : State := writeBy .cc0 SCO_CTRL (scoCtrlWrite 1) disabled

theorem exec_enable : exec (.scoEnable .cc0 0) disabled = .next enabled := by rfl

theorem enabled_stat : enabled.rd (ringRegs formerRing).stat = 256 := by decide +kernel

theorem enabled_ring : enabled.sco.ring = some (.branch 0 0) := by decide +kernel

/-- Refutes O41: the former ring shows its credit, and is not the ring the engine has. -/
theorem not_scanOut : ¬ Obligations.ScanOut := by
  unfold Obligations.ScanOut
  intro ⟨h, _⟩
  obtain ⟨t, hrun, _, _, _, _, hregs, _⟩ := h disabled .cc0 0 (by decide) (by decide) (by decide) rfl
  rw [exec_enable, Host.Outcome.next.injEq] at hrun
  subst hrun
  have hkept : enabled.rd (ringRegs formerRing).stat = disabled.rd (ringRegs formerRing).stat := hregs _ (by
    rw [enabled_ring]
    decide)
  rw [enabled_stat] at hkept
  exact absurd hkept (by decide)

end Sys2Proof.Proofs.ScanOutStart

/-! The ticks that the audio clock has followed may stand out of order: its mark then lies at the one that stands last, and the
next look takes up the later one (R344, R345). -/

namespace Sys2Proof.Proofs.LeadFrames

open Sys2Proof.Machine

-- The kernel's evaluation below waits for the declarations before it: it is elaborated in their order.
set_option Elab.async false

/-- A tick that a jump moved, at second `n`. -/
def tickAt (n : Nat) : Tick := { at_ := n * 1000000000000, rfn := 0, t := {}, per := 0, st := 0, moved := true }

/-- Every domain on; port 0, a master of 32 kHz, in its lead frame; the tick of second 2 stands before that of second 1. -/
def leading : State :=
  { State.reset with
    regs := [(PWR_STATUS, 0x7FFFFFFF), (AUD_CTRL 0, 8), (AUD_FMT 0, 0)]
    ref := { State.reset.ref with ticks := [tickAt 1, tickAt 2] }
    auds := [(0, { phase := .lead 1 })] }

/-- The state after the lead frame. -/
def led : State := audQuiet 0 1 true (audPeriods 0 1 (audSync 0 leading))

theorem exec_lead : exec (.sampleFrame 0 [] false) leading = .next led := by rfl

theorem led_now : led.now = 2 * 1000000000000 := by decide +kernel

theorem leading_instant : leading.audInstant 0 1 = 1000000000000 := by decide +kernel

/-- Refutes O42: the lead frame ends at second 2, not at the end of the port's first period as it stood. -/
theorem not_audio : ¬ Obligations.Audio := by
  unfold Obligations.Audio
  intro ⟨_, _, _, _, h, _⟩
  obtain ⟨t, hrun, _, _, hnow, _⟩ := h leading 0 1 [] false (by decide) (by decide) ⟨rfl, rfl, rfl, rfl⟩ (by decide) rfl rfl
  have hperiod : (leading.aud 0).periods + 1 = 1 := rfl
  rw [exec_lead, Host.Outcome.next.injEq] at hrun
  rw [← hrun, led_now, hperiod, leading_instant] at hnow
  exact absurd hnow (by decide)

end Sys2Proof.Proofs.LeadFrames

/-! A stream's ring may carry a number so high that its RING_STAT would lie where a stream register lies: letting a buffer go
then overwrites that register (R12, R358). -/

namespace Sys2Proof.Proofs.StreamRingNumber

open Sys2Proof.Machine

-- The kernel's evaluation below waits for the declarations before it: it is elaborated in their order.
set_option Elab.async false

/-- The number of a coded ring whose RING_STAT would lie at NET_STR_DISC of stream 1. -/
def highRing : Nat := 0x30FF8

/-- Every domain on; stream 1, enabled on a MAC without a link, has one packet left of the buffer it holds in that ring. -/
def lastPacket : State :=
  { State.reset with
    regs := [(PWR_STATUS, 0x7FFFFFFF), (NET_STR_CFG 1, 1)]
    nstrs := [(1, { ring := some (.enc highRing), queue := [([], true)], buf := some 0 })]
    rings := [(ringNo (.enc highRing), { cons := [{ id := .net 1, held := [0] }] })] }

/-- What a step's end shows in NET_STR_DISC of stream 1. -/
def discarded : Res → Word
  | .next t => t.rd (NET_STR_DISC 1)
  | _ => 1

theorem not_counted : discarded (exec (.streamPacket 1) lastPacket) ≠ 1 := by decide +kernel

/-- Refutes O43: the count of the discarded packet does not stand. -/
theorem not_networkFramesAndStreams : ¬ Obligations.NetworkFramesAndStreams := by
  unfold Obligations.NetworkFramesAndStreams
  intro h
  obtain ⟨_, _, _, _, _, _, _, _, _, h⟩ := h
  obtain ⟨t, hrun, _, _, _, hcount, _⟩ := h lastPacket 1 highRing 0 [] true [] (by decide) (by decide) (by decide) rfl rfl rfl rfl rfl rfl
    (by decide) (by decide) (by decide)
  have hnot := not_counted
  have hdown : lastPacket.macUp (lastPacket.f (NET_STR_CFG_mac 1)) = false := by decide
  have hstart : lastPacket.rd (NET_STR_DISC 1) = 0 := by decide
  rw [hdown, hstart] at hcount
  rw [hrun] at hnot
  exact hnot hcount

end Sys2Proof.Proofs.StreamRingNumber

/-! The samples of an edge may span the carry of the clock into the next second, which is told (R362, R369). -/

namespace Sys2Proof.Proofs.IndexEdgeSecond

open Sys2Proof.Machine

-- The kernel's evaluation below waits for the declarations before it: it is elaborated in their order.
set_option Elab.async false

/-- Every domain on; channel 0 enabled, its index input not; the event of a new second enabled, 1 ns before one. -/
def indexOff : State :=
  { State.reset with
    regs := [(PWR_STATUS, 0x7FFFFFFF), (TSU_EVT_EN, 4), (PFI_CTRL 0, 1)]
    tsu := { State.reset.tsu with ns := 999999999 } }

theorem exec_index : exec (.indexEdge 1000000 0 true 1) indexOff = .next (advanceTo (sampleAt 1000000) indexOff) := by rfl

theorem second_told : (advanceTo (sampleAt 1000000) indexOff).evr.flight ≠ [] := by decide +kernel

/-- Refutes O44: an index edge that the channel does not take raises the event of the second that began before its sample. -/
theorem not_positionFeedback : ¬ Obligations.PositionFeedback := by
  unfold Obligations.PositionFeedback
  intro ⟨_, _, h, _⟩
  obtain ⟨t, hrun, h, _⟩ := h indexOff 1000000 0 true 1 (by decide) ⟨rfl, rfl, rfl, rfl⟩ (by decide) (by decide)
  have hoff : ¬ (indexOff.b (PFI_CTRL_idx_en 0) = true ∧ true ≠ indexOff.b (PFI_CTRL_idx_pol 0)) := by decide
  rw [if_neg hoff] at h
  obtain ⟨hquiet, _⟩ := h
  rw [exec_index, Host.Outcome.next.injEq] at hrun
  exact second_told (hrun ▸ hquiet)

end Sys2Proof.Proofs.IndexEdgeSecond

/-! A step of the flash may fail before the image is looked at (R396): the boot's cause is then that one. -/

namespace Sys2Proof.Proofs.FlashStepFails

open Sys2Proof.Machine

-- The kernel's evaluation below waits for the declarations before it: it is elaborated in their order.
set_option Elab.async false

/-- The state after a cold boot out of power-on in which the read of slot A's header fails. -/
def unread : State := (bootCold false [32] State.reset).2

theorem exec_boot : exec (.coldBoot [32] false) State.reset = .next unread := by rfl

theorem unread_cause : unread.f CFG_BOOT_STATUS_cause_a = 1 := by decide +kernel

/-- Refutes O45: the cause for slot A is 1, the flash's failure, and not 2. -/
theorem not_boots : ¬ Obligations.Boots := by
  unfold Obligations.Boots
  intro ⟨_, _, h, _⟩
  obtain ⟨t, hrun, _, _, h, _⟩ := h State.reset [32] false rfl rfl rfl rfl rfl
  obtain ⟨hcause, _⟩ := h rfl
  rw [exec_boot, Host.Outcome.next.injEq] at hrun
  rw [← hrun, unread_cause] at hcause
  exact absurd hcause (by decide)

end Sys2Proof.Proofs.FlashStepFails

/-! In serial order a frame number half the circle away is neither ahead nor behind (R39, R53): a commit for it, behind one
that waits, is refused. -/

namespace Sys2Proof.Proofs.OverlayCommitRefused

open Sys2Proof.Machine

-- The kernel's evaluation below waits for the declarations before it: it is elaborated in their order.
set_option Elab.async false

/-- A commit for frame 0 that waits, its capture over. -/
def waiting : IpCommit := { target := 0, seq := 0, mask := 0, regs := [], todo := [], capturing := false }

/-- Every domain on; an overlay owes pipeline 0 its commit; the port's frame number lies 1 short of 2^31. -/
def owing : State :=
  { State.reset with
    regs := [(PWR_STATUS, 0x7FFFFFFF), (SP_PFN 0, 0x7FFFFFFF)]
    cfg := { State.reset.cfg with todo := [0] }
    ips := [(0, { commits := [waiting] })] }

/-- The state after the engine's turn. -/
def turned : State := ovlCommit 0 owing

theorem exec_commit : exec (.overlayCommit 0) owing = .next turned := by rfl

theorem turned_commits : (turned.ip 0).commits.length = 1 := by decide +kernel

/-- Refutes O47: the pipeline holds no commit more. -/
theorem not_overlays : ¬ Obligations.Overlays := by
  unfold Obligations.Overlays
  intro ⟨_, _, _, h, _⟩
  obtain ⟨t, hrun, h⟩ := h owing 0 (by decide) (by decide) (by decide) (by decide)
  have hroom : ¬ 4 ≤ (owing.ip 0).commits.length := by decide
  rw [if_neg hroom] at h
  obtain ⟨_, _, hmore, _⟩ := h
  rw [exec_commit, Host.Outcome.next.injEq] at hrun
  rw [← hrun, turned_commits] at hmore
  exact absurd hmore (by decide)

end Sys2Proof.Proofs.OverlayCommitRefused

/-! The recorder's power-down ends the locks that its writes hold in the endpoint's table, and the endpoint counts them
(R329). -/

namespace Sys2Proof.Proofs.RecorderOff

open Sys2Proof.Machine

-- The kernel's evaluation below waits for the declarations before it: it is elaborated in their order.
set_option Elab.async false

/-- A lock granted to a frame of stream 0. -/
def flightLock : LockReq :=
  { owner := .flight 0 0, vol := 0, first := 0, blocks := 1, excl := true, granted := true }

/-- Every domain on; the recorder's powers down while the endpoint's table holds its lock. -/
def goingOff : State :=
  { State.reset with
    regs := [(PWR_STATUS, 0x7FFFFFFF)]
    pwr := { State.reset.pwr with job := some (dRM, .down) }
    oep := { State.reset.oep with locks := [flightLock] } }

/-- What a step's end shows in OEP_LOCK_REL_LO. -/
def released : Res → Word
  | .next t => t.rd OEP_LOCK_REL_LO
  | _ => 0

theorem released_counted : released (exec (.domainOff dRM) goingOff) = 1 := by decide +kernel

/-- Refutes O49: a register of the endpoint's domain changes with the recorder's. -/
theorem not_powerDomains : ¬ Obligations.PowerDomains := by
  unfold Obligations.PowerDomains
  intro ⟨_, _, _, _, h, _⟩
  obtain ⟨t, hrun, _, _, _, _, _, hregs⟩ := h goingOff dRM (by decide) (by decide) rfl rfl
  have hkept : t.rd OEP_LOCK_REL_LO = goingOff.rd OEP_LOCK_REL_LO := hregs _ (by decide)
  have hcounted : t.rd OEP_LOCK_REL_LO = 1 := by simpa only [hrun, released] using released_counted
  exact absurd (hkept.symm.trans hcounted) (by decide)

end Sys2Proof.Proofs.RecorderOff

/-! A frame still being written when the quiesce time is over is abandoned, and counts as dropped (R166, R423). -/

namespace Sys2Proof.Proofs.QuiesceAbandons

open Sys2Proof.Machine

-- The kernel's evaluation below waits for the declarations before it: it is elaborated in their order.
set_option Elab.async false

/-- A Sleep entry that waits for the ring of Photre encoder 0, which writes buffer 0. -/
def writing : State :=
  { State.reset with
    pwr := { State.reset.pwr with step := .quiesce }
    rings := [(ringNo (.prc 0), { writing := some 0 })] }

/-- The state once the entry has gone on. -/
def abandoned : State :=
  modPwr (fun p => { p with step := .dram }) (allRings.foldl (fun s r => ringAbandon r s) (advanceTo writing.pwr.stepDue writing))

theorem exec_quiesce : exec .sleepQuiesceDone writing = .next abandoned := by rfl

theorem drop_counted : abandoned.rd (PRC_DROP_LO 0) = 1 := by decide +kernel

/-- Refutes O50: the ring's count of dropped frames changes, not its RING_STAT alone. -/
theorem not_sleepAndWake : ¬ Obligations.SleepAndWake := by
  unfold Obligations.SleepAndWake
  intro ⟨_, h, _⟩
  obtain ⟨t, hrun, _, _, _, hregs, _⟩ := h writing rfl ⟨rfl, rfl, rfl, rfl⟩
  have hkept : t.rd (PRC_DROP_LO 0) = writing.rd (PRC_DROP_LO 0) := hregs _ (by decide)
  rw [exec_quiesce, Host.Outcome.next.injEq] at hrun
  rw [← hrun, drop_counted] at hkept
  exact absurd hkept (by decide)

end Sys2Proof.Proofs.QuiesceAbandons

/-! Scan-out may stand attached to a ring that no pipeline has; its stop lets that ring go (R15, R428). -/

namespace Sys2Proof.Proofs.SoftResetStops

open Sys2Proof.Machine

-- The kernel's evaluation below waits for the declarations before it: it is elaborated in their order.
set_option Elab.async false

/-- The ring scan-out stands attached to: a tap of pipeline 100. -/
def absentRing : RingId := .tap 100 0

/-- Every domain on; scan-out enabled, attached to the absent ring of one buffer. -/
def attached : State :=
  { State.reset with
    regs := [(PWR_STATUS, 0x7FFFFFFF), (SCO_CTRL, 1), ((ringRegs absentRing).cfg, 1)]
    rings := [(ringNo absentRing, { cons := [{ id := .sco }] })]
    sco := { State.reset.sco with ring := some absentRing } }

/-- The state after sage's write of a soft reset. -/
def stopped : State := writeBy .sage PWR_RESET (resetWrite .sage 1) attached

theorem exec_soft : exec (.softReset .sage 0) attached = .next stopped := by rfl

theorem stopped_stat : stopped.rd (ringRegs absentRing).stat = 256 := by decide +kernel

/-- Refutes O51: what changes lies at an address that is no ring's register, and in no class D window. -/
theorem not_resetsAndWatchdog : ¬ Obligations.ResetsAndWatchdog := by
  unfold Obligations.ResetsAndWatchdog
  intro ⟨_, h, _⟩
  obtain ⟨t, hrun, h⟩ := h attached .sage 0 rfl rfl
  have hentitled : ¬ (Requester.sage = .cfg ∨ Requester.sage = .debug) := by decide
  rw [if_neg hentitled] at h
  obtain ⟨_, _, _, _, hregs, _⟩ := h
  have hkept : t.rd (ringRegs absentRing).stat = attached.rd (ringRegs absentRing).stat := hregs _ (by decide)
  rw [exec_soft, Host.Outcome.next.injEq] at hrun
  rw [← hrun, stopped_stat] at hkept
  exact absurd hkept (by decide)

end Sys2Proof.Proofs.SoftResetStops

/-! What the fault log's own detector finds is not written to the log (R454). -/

namespace Sys2Proof.Proofs.LogDetector

open Sys2Proof.Machine

-- The kernel's evaluation below waits for the declarations before it: it is elaborated in their order.
set_option Elab.async false

/-- The log's detector, at its limit in this interval and in the one before. -/
def atLimit : State :=
  { State.reset with
    regs := [(ERR_RATE, 1)]
    err := { State.reset.err with rates := [(0x0400, { cur := 1, prev := 1 })] } }

/-- The records that wait for the log when a step ends. -/
def pending : Res → List LogRec
  | .next t => t.err.pend
  | _ => []

theorem none_pending : pending (exec .rateInterval atLimit) = [] := by decide +kernel

/-- Refutes O54: the detector is judged lasting, and no record waits for the log. -/
theorem not_injectionAndFaultLog : ¬ Obligations.InjectionAndFaultLog := by
  unfold Obligations.InjectionAndFaultLog
  intro ⟨_, _, _, h, _⟩
  obtain ⟨t, hrun, _, _, _, _, hpend, _⟩ := h atLimit 0x0400 { cur := 1, prev := 1 } ⟨rfl, rfl, rfl, rfl⟩ rfl (by decide) (by decide)
    (by decide) rfl
  have hnone : t.err.pend = [] := by simpa only [hrun, pending] using none_pending
  rw [hnone] at hpend
  exact absurd hpend (by decide)

end Sys2Proof.Proofs.LogDetector

/-! A lane whose block an injected error spoilt gives no copy of the next column, though no injection is armed by then
(R449). -/

namespace Sys2Proof.Proofs.SpoiltColumn

open Sys2Proof.Machine

-- The kernel's evaluation below waits for the declarations before it: it is elaborated in their order.
set_option Elab.async false

/-- A control block of a type that R62 does not list. -/
def strange : Block := (2, 0x99)

/-- Every domain on; port 0 with its link up on lane 0 alone, whose block was spoilt. -/
def spoilt : State :=
  { State.reset with
    regs := [(PWR_STATUS, 0x7FFFFFFF), (SP_JV_CTRL 0, 1), (SP_JV_STATUS 0, 0xFFFFFFFF), (SP_LANE_STATUS 0 0, 6)]
    ports := [(0, { jv := { map := [0] }, lanes := [(0, { alignAt := some 0, spoilt := true })] })] }

/-- The state after the column. -/
def passed : State := controlColumn 0 (List.replicate 12 strange) spoilt

theorem exec_column : exec (.unknownControlBlock 0 (List.replicate 12 strange)) spoilt = .next passed := by rfl

theorem passed_count : passed.rd (SP_JV_UNKNOWN 0) = 0 := by decide +kernel

/-- Refutes O20: the column is not counted. -/
theorem not_javelBlocksAndAlignment : ¬ Obligations.JavelBlocksAndAlignment := by
  unfold Obligations.JavelBlocksAndAlignment
  intro ⟨_, _, _, _, h, _⟩
  have hshows : Claims.Shows spoilt 0 (List.replicate 12 strange) strange := by decide
  obtain ⟨t, hrun, hcount, _⟩ := h spoilt 0 (List.replicate 12 strange) strange (by decide) (by decide) rfl hshows rfl (by decide)
    (by decide)
  rw [exec_column, Host.Outcome.next.injEq] at hrun
  rw [← hrun, passed_count] at hcount
  exact absurd hcount (by decide)

end Sys2Proof.Proofs.SpoiltColumn

/-! An SOF that only a spoilt lane carries opens no frame, though no injection is armed by then (R449). -/

namespace Sys2Proof.Proofs.SpoiltSof

open Sys2Proof.Machine

-- The kernel's evaluation below waits for the declarations before it: it is elaborated in their order.
set_option Elab.async false

/-- A start-of-frame block. -/
def sof : Block := (2, 0x33)

/-- Every domain on; port 0 receives frames of 2 by 2 with its link up on lane 0 alone, whose block was spoilt. -/
def receiving : State :=
  { State.reset with
    regs := [(PWR_STATUS, 0x7FFFFFFF), (SP_CTRL 0, 3), (SP_FRAME_SIZE 0, 0x20002), (SP_JV_CTRL 0, 1), (SP_JV_STATUS 0, 0xFFFFFFFF),
      (SP_LANE_STATUS 0 0, 6)]
    ports := [(0, { jv := { map := [0] }, lanes := [(0, { alignAt := some 0, spoilt := true })] })] }

/-- The state after the column. -/
def passed : State := controlColumn 0 (List.replicate 12 sof) receiving

theorem exec_sof : exec (.sofReceived 0 0 (List.replicate 12 sof)) receiving = .next passed := by rfl

theorem no_frame : (passed.port 0).frame.isNone = true := by decide +kernel

/-- Refutes O23: no frame is open. -/
theorem not_javelFrames : ¬ Obligations.JavelFrames := by
  unfold Obligations.JavelFrames
  intro ⟨h, _⟩
  have hshows : Claims.Shows receiving 0 (List.replicate 12 sof) sof := by decide
  obtain ⟨t, hrun, hframe, _⟩ := h receiving 0 0 (List.replicate 12 sof) sof (by decide) ⟨rfl, rfl, rfl, rfl⟩ (by decide) (by decide)
    (by decide) rfl hshows rfl (by decide) rfl rfl rfl (by decide) (by decide)
  rw [exec_sof, Host.Outcome.next.injEq] at hrun
  rw [← hrun, Option.isNone_iff_eq_none.mp no_frame] at hframe
  exact absurd hframe nofun

end Sys2Proof.Proofs.SpoiltSof

/-! Register writes that a unit serves: the answer, the effect and what they leave, from what the write's meaning does. -/

namespace Sys2Proof.Proofs.Access

open Sys2Proof.Machine
open Sys2Proof.Proofs.Keeping
open Sys2Proof.Claims (Answered Keeps Writes Runs Told)

/-- A field lies in its word. -/
def bitsFit (x : Fld) : Bool := x.lo ≤ x.hi && x.hi ≤ 31

/-- Two fields of a word share no bit. -/
def bitsApart (x y : Fld) : Bool := bitsFit x && bitsFit y && (x.hi < y.lo || y.hi < x.lo)

theorem f_setF_fit (x : Fld) (v : ℕ) (s : State) (h : bitsFit x = true) : (setF x v s).f x = v % 2 ^ (x.hi - x.lo + 1) := by
  simp only [bitsFit, Bool.and_eq_true, decide_eq_true_eq] at h
  exact f_setF_self x v s h.1 h.2

theorem f_setF_eq (x : Fld) (v : ℕ) (s : State) (h : bitsFit x = true) (hv : v < 2 ^ (x.hi - x.lo + 1)) : (setF x v s).f x = v :=
  (f_setF_fit x v s h).trans (Nat.mod_eq_of_lt hv)

theorem f_flag (x : Fld) (s : State) (h : bitsFit x = true) : (flag x s).f x = 1 :=
  f_setF_eq x 1 s h (Nat.one_lt_two_pow (Nat.succ_ne_zero _))

theorem f_clear (x : Fld) (s : State) (h : bitsFit x = true) : (setF x 0 s).f x = 0 := f_setF_eq x 0 s h (Nat.two_pow_pos _)

theorem f_setF_apart (x y : Fld) (v : ℕ) (s : State) (haddr : y.addr = x.addr) (h : bitsApart x y = true) :
    (setF x v s).f y = s.f y := by
  simp only [bitsApart, bitsFit, Bool.and_eq_true, Bool.or_eq_true, decide_eq_true_eq] at h
  obtain ⟨⟨⟨hx, hx31⟩, hy, _⟩, hap⟩ := h
  exact f_setF_of_apart x y v s haddr hx hx31 hy hap

theorem f_flag_apart (x y : Fld) (s : State) (haddr : y.addr = x.addr) (h : bitsApart x y = true) : (flag x s).f y = s.f y :=
  f_setF_apart x y 1 s haddr h

/-- An access of a word that passes every check: its domain's hold at most is renewed (R420). -/
def Served (a : ℕ) (s : State) : Prop := ∃ l, gate a 4 s = (true, held l s)

theorem served_of_unitOn {s : State} {a d off : ℕ} {rows : List RegRow} (hin : InBlock s.variant a d rows off)
    (hon : s.unitOn d = true) : Served a s := gate_of_unitOn hin hon

/-- The blocks of no domain answer unless the device is held in reset. -/
theorem served_of_no_domain {s : State} {a off : ℕ} {rows : List RegRow} (hhold : s.pwr.testHold = false)
    (hwin : windowAt s.variant a = some ⟨true, none, rows, off⟩) (ha : a % 4 = 0) : Served a s :=
  gate_eq_held a 4 s _ hhold hwin rfl rfl (formOk_word ha)

/-- A served write's meaning runs, the monitor's write is told, and the requester is answered. -/
theorem writeBy_of_served {s : State} {a : ℕ} (r : Requester) (k : State → State) (hserved : Served a s) :
    ∃ l e, writeBy r a k s = answer r 0 (telling e (k (held l s))) := by
  obtain ⟨l, hgate⟩ := hserved
  obtain ⟨e, htold⟩ := monWrote_eq_telling r a (k (held l s))
  refine ⟨l, e, ?_⟩
  rw [writeBy, hgate]
  simp only [htold]

/-- A served write answers; it does and leaves what its meaning does and leaves. -/
theorem writes_of_served {i : Instr} {r : Requester} {a : ℕ} {k : State → State} {p : ℕ → Prop} {s : State} {P : State → Prop}
    (hexec : exec i s = .next (writeBy r a k s)) (hserved : Served a s)
    (hdone : ∀ l e, P (answer r 0 (telling e (k (held l s)))))
    (hkept : ∀ l, Kept p (fun _ => False) s (k (held l s))) : Writes i r p s P := by
  obtain ⟨l, e, hrun⟩ := writeBy_of_served r k hserved
  exact ⟨_, by rw [hexec, hrun], RegisterMap.answered_answer r 0 _, hdone l e,
    answer_kept (telling_kept (hkept l))⟩

theorem kept_held (p q : ℕ → Prop) (l : List (ℕ × ℕ)) (s : State) : Kept p q s (held l s) := held_kept (Kept.refl p q s)

@[simp] theorem answered_f (r : Requester) (w : Word) (e : List Ev) (t : State) (x : Fld) :
    (answer r w (telling e t)).f x = t.f x := rfl

@[simp] theorem answered_rd (r : Requester) (w : Word) (e : List Ev) (t : State) (a : ℕ) :
    (answer r w (telling e t)).rd a = t.rd a := rfl

@[simp] theorem answered_port (r : Requester) (w : Word) (e : List Ev) (t : State) (n : ℕ) :
    (answer r w (telling e t)).port n = t.port n := rfl

@[simp] theorem held_f (l : List (ℕ × ℕ)) (s : State) (x : Fld) : (held l s).f x = s.f x := rfl

@[simp] theorem held_b (l : List (ℕ × ℕ)) (s : State) (x : Fld) : (held l s).b x = s.b x := rfl

@[simp] theorem held_rd (l : List (ℕ × ℕ)) (s : State) (a : ℕ) : (held l s).rd a = s.rd a := rfl

@[simp] theorem held_port (l : List (ℕ × ℕ)) (s : State) (n : ℕ) : (held l s).port n = s.port n := rfl

/-- What was told stays told when more is told. -/
theorem told_answer_telling {blk loc arg : ℕ} {s t : State} (r : Requester) (e : List Ev) (h : Told blk loc arg s t) :
    Told blk loc arg s (answer r 0 (telling e t)) := told_of_flight h e rfl

/-- A write of a register of one RW field sets that field (R5). -/
theorem plainWrite_of_rw {a off hi lo reset : ℕ} {dims : List (ℕ × ℕ)} {c : Cls} {v : Word} {s : State} {h : Hit}
    (hwin : windowAt s.variant a = some h) (hrow : rowAt h = some ⟨off, dims, c, [⟨hi, lo, .rw, reset⟩]⟩) :
    plainWrite a v s = setF ⟨a, hi, lo⟩ (bitsOf v.toNat hi lo) s := by
  rw [plainWrite_of_row hwin hrow]
  rfl

theorem bitsOf_mod_self (n hi lo : ℕ) : bitsOf n hi lo % 2 ^ (hi - lo + 1) = bitsOf n hi lo := Nat.mod_mod _ _

/-- Setting all of a word gives the value. -/
theorem setBits_word (w v : Word) : setBits w 31 0 (bitsOf v.toNat 31 0) = v := by
  have hw := w.isLt
  have hv := v.isLt
  apply BitVec.eq_of_toNat_eq
  rw [setBits, BitVec.toNat_ofNat]
  simp only [bitsOf]
  omega

theorem pair_setPair (lo hi n : ℕ) (s : State) (h : lo ≠ hi) : (setPair lo hi n s).pair lo hi = n % 2 ^ 64 := by
  rw [State.pair, setPair, rd_wr_self, rd_wr_of_ne _ _ _ _ h, rd_wr_self, BitVec.toNat_ofNat, BitVec.toNat_ofNat]
  omega

theorem pair_addPair (lo hi n : ℕ) (s : State) (h : lo ≠ hi) : (addPair lo hi n s).pair lo hi = (s.pair lo hi + n) % 2 ^ 64 :=
  pair_setPair lo hi _ s h

theorem addPair_rd_of_ne (lo hi n a : ℕ) (s : State) (hlo : a ≠ lo) (hhi : a ≠ hi) : (addPair lo hi n s).rd a = s.rd a := by
  rw [addPair, setPair, rd_wr_of_ne _ _ _ _ hhi, rd_wr_of_ne _ _ _ _ hlo]

theorem bitOf_eq_testBit (n i : ℕ) : bitOf n i = n.testBit i := by
  rw [bitOf, Nat.testBit_eq_decide_div_mod_eq]
  rfl

/-- A bit forced to 1 reads 1. -/
theorem bitOf_setBits_one (v : Word) (i : ℕ) (hi : i ≤ 31) : bitOf (setBits v i i 1).toNat i = true := by
  have h := bitsOf_setBits_self v i i 1 (le_refl i) hi
  rw [Nat.sub_self] at h
  simpa [bitOf, bitsOf] using h

end Sys2Proof.Proofs.Access

/-! The boot lock, the warm-boot record, OTP programs and the CTL_SPI mailbox (chapter 20). -/

namespace Sys2Proof.Proofs.ControlPort

open Sys2Proof.Machine
open Sys2Proof.Proofs.Keeping
open Sys2Proof.Proofs.Access
open Sys2Proof.Claims (Keeps Told)

/-! ### Locks (R409, R411) -/

theorem bootLock (s : State) (r : Requester) (v : Word) : Claims.bootLock s r v := fun hhold => by
  have hmeaning : ∀ t, lockWrite (setBits v 0 0 1) t = flag CFG_LOCK_lock t := fun t =>
    if_pos (bitOf_setBits_one v 0 (by decide))
  refine writes_of_served rfl (served_of_no_domain hhold rfl rfl) (fun l e => ?_) (fun l => ?_)
  · rw [hmeaning]
    exact f_setF_self CFG_LOCK_lock 1 _ (by decide) (by decide)
  · rw [hmeaning]
    exact flag_kept rfl (kept_held _ _ l s)

theorem warmInvalidate (s : State) (r : Requester) (v : Word) : Claims.warmInvalidate s r v := fun hhold => by
  have hmeaning : ∀ t, warmWrite (setBits v 1 1 1) t = setF CFG_WARM_valid 0 (plainWrite CFG_WARM (setBits v 1 1 1) t) :=
    fun t => if_pos (bitOf_setBits_one v 1 (by decide))
  refine writes_of_served rfl (served_of_no_domain hhold rfl rfl) (fun l e => ?_) (fun l => ?_)
  · rw [hmeaning]
    exact f_setF_self CFG_WARM_valid 0 _ (by decide) (by decide)
  · rw [hmeaning]
    exact setF_kept rfl (plainWrite_kept rfl (kept_held _ _ l s))

/-! ### OTP (R412, R413) -/

/-- The blocks' enables of CFG's events stand in one register. -/
theorem evtOn_cfg {s t : State} (loc : ℕ) (h : t.rd CFG_EVT_EN = s.rd CFG_EVT_EN) : t.evtOn 0x06 loc = s.evtOn 0x06 loc := by
  simp [State.evtOn, h]

/-- A program accepted (R413). -/
def otpStarted (s : State) : State :=
  flag CFG_OTP_STATUS_busy (modCfg (fun x => { x with
    otpRun := some (s.f CFG_OTP_ADDR_word, s.rd CFG_OTP_PROG, s.now + 100 * Config.us) }) (setF CFG_OTP_STATUS_refuse 0 s))

/-- A program refused with this cause (R413). -/
def otpRefused (c : ℕ) (s : State) : State := raise 0x06 5 (s.f CFG_OTP_ADDR_word) (setF CFG_OTP_STATUS_refuse c s)

theorem otpCmdWrite_go (v : Word) (s : State) : otpCmdWrite (setBits v 0 0 1) s =
    if s.otpCause (s.f CFG_OTP_ADDR_word) = 0 then otpStarted s else otpRefused (s.otpCause (s.f CFG_OTP_ADDR_word)) s := by
  rw [otpCmdWrite, if_neg (by rw [bitOf_setBits_one v 0 (by decide)]; exact Bool.false_ne_true)]
  dsimp only
  split
  · next h => rw [otpStarted, h, setF, rd_wr_of_ne _ _ _ _ (by decide)]; rfl
  · rfl

theorem otpCause_lt (s : State) (w : ℕ) : s.otpCause w < 4 := by
  unfold State.otpCause
  dsimp only
  split_ifs <;> omega

theorem otpStarted_kept (s : State) : Kept (· = CFG_OTP_STATUS) (fun _ => False) s (otpStarted s) :=
  have hset : Kept (· = CFG_OTP_STATUS) (fun _ => False) s (setF CFG_OTP_STATUS_refuse 0 s) := setF_kept rfl (Kept.refl _ _ s)
  flag_kept rfl (hset.congr rfl rfl rfl rfl)

theorem otpRefused_kept (c : ℕ) (s : State) : Kept (· = CFG_OTP_STATUS) (fun _ => False) s (otpRefused c s) :=
  raise_kept (setF_kept rfl (Kept.refl _ _ s))

theorem otpStarted_refuse (s : State) : (otpStarted s).f CFG_OTP_STATUS_refuse = 0 := by
  rw [otpStarted, flag, f_setF_of_apart CFG_OTP_STATUS_busy CFG_OTP_STATUS_refuse _ _ rfl (by decide) (by decide) (by decide)
    (by decide)]
  exact f_setF_self CFG_OTP_STATUS_refuse 0 s (by decide) (by decide)

theorem otpRefused_refuse (c : ℕ) (s : State) (hc : c < 4) : (otpRefused c s).f CFG_OTP_STATUS_refuse = c := by
  rw [otpRefused, raise_f, f_setF_self _ _ _ (by decide) (by decide)]
  exact Nat.mod_eq_of_lt hc

theorem otpProgram (s : State) (r : Requester) (v : Word) : Claims.otpProgram s r v := fun hhold => by
  refine writes_of_served rfl (served_of_no_domain hhold rfl rfl) (fun l e => ?_) (fun l => ?_)
  · have hcause : (held l s).otpCause ((held l s).f CFG_OTP_ADDR_word) = s.otpCause (s.f CFG_OTP_ADDR_word) := rfl
    rw [otpCmdWrite_go, hcause]
    split
    · next h =>
      exact ⟨(otpStarted_refuse _).trans h.symm, rfl, f_setF_self CFG_OTP_STATUS_busy 1 _ (by decide) (by decide), rfl⟩
    · next h =>
      refine ⟨otpRefused_refuse _ (held l s) (otpCause_lt s _), ?_, ?_, told_answer_telling r e ?_⟩
      · exact congrArg CfgSt.otp (raise_cfg 0x06 5 _ _)
      · exact congrArg CfgSt.otpRun (raise_cfg 0x06 5 _ _)
      · exact told_raise (evtOn_cfg 5 (rd_wr_of_ne _ _ _ _ (by decide))) rfl
  · rw [otpCmdWrite_go]
    split
    · exact (kept_held _ _ l s).trans (otpStarted_kept _)
    · exact (kept_held _ _ l s).trans (otpRefused_kept _ _)

/-- The registers that show an OTP word, its program's state and the debug lock. -/
def ShowsOtp (a : ℕ) : Prop := a = CFG_OTP_STATUS ∨ a = CFG_OTP_DATA ∨ a = MON_DBG_STATUS

/-- The program's bits set, and shown. -/
def otpSet (w : ℕ) (bits : Word) (s : State) : State :=
  showDbg (showOtp (flag CFG_OTP_STATUS_done (setF CFG_OTP_STATUS_busy 0
    (modCfg (fun x => { x with otpRun := none, otp := put x.otp w (s.otp w ||| bits) }) s))))

theorem otpSet_otp_self (w : ℕ) (bits : Word) (s : State) : (otpSet w bits s).otp w = s.otp w ||| bits := by
  simp [otpSet, showDbg, showOtp, State.otp, modCfg, lookD]

theorem otpSet_otp_of_ne (w i : ℕ) (bits : Word) (s : State) (h : i ≠ w) : (otpSet w bits s).otp i = s.otp i := by
  simp [otpSet, showDbg, showOtp, State.otp, modCfg, lookD, look_put_of_ne _ _ _ _ h]

theorem otpSet_kept (w : ℕ) (bits : Word) (s : State) : Kept ShowsOtp (fun _ => False) s (otpSet w bits s) := by
  have hmod : Kept ShowsOtp (fun _ => False) s
      (modCfg (fun x => { x with otpRun := none, otp := put x.otp w (s.otp w ||| bits) }) s) :=
    (Kept.refl _ _ s).congr rfl rfl rfl rfl
  exact setF_kept (.inr (.inr rfl)) (setF_kept (.inr (.inr rfl)) (wr_kept (.inr (.inl rfl))
    (flag_kept (.inl rfl) (setF_kept (.inl rfl) hmod))))

theorem otpSet_f (w : ℕ) (bits : Word) (s : State) (x : Fld) (hx : x.addr = CFG_OTP_STATUS) :
    (otpSet w bits s).f x = (flag CFG_OTP_STATUS_done (setF CFG_OTP_STATUS_busy 0 s)).f x := by
  have hne : ∀ a, a ≠ CFG_OTP_STATUS → x.addr ≠ a := fun a ha h => ha (h.symm.trans hx)
  rw [otpSet, showDbg, showOtp, f_setF_of_ne _ _ _ _ (hne _ (by decide)), f_setF_of_ne _ _ _ _ (hne _ (by decide)),
    f_wr_of_ne _ _ _ _ (hne _ (by decide))]
  rfl

theorem otpDone (s : State) (w due : ℕ) (bits : Word) : Claims.otpDone s w due bits := by
  intro hrun hcalm
  obtain ⟨hslots, hincr, hset, hstep⟩ := hcalm
  obtain ⟨tsu, evr, hlater⟩ := advanceTo_calm due s hslots hincr hset hstep
  refine ⟨raise 0x06 4 w (otpSet w bits (advanceTo due s)), by rw [exec_otpDone, execOtpDone, otpEnd, hrun]; rfl, ?_⟩
  have hlate : Kept ShowsOtp (fun _ => False) s (advanceTo due s) := by
    rw [hlater]
    exact (Kept.refl _ _ s).congr rfl rfl rfl rfl
  have hkept := hlate.trans (otpSet_kept w bits (advanceTo due s))
  have hotp : ∀ i, (advanceTo due s).otp i = s.otp i := fun i => by rw [hlater]; rfl
  have hraised : ∀ i, (raise 0x06 4 w (otpSet w bits (advanceTo due s))).otp i = (otpSet w bits (advanceTo due s)).otp i :=
    fun i => by rw [State.otp, raise_cfg, State.otp]
  refine ⟨?_, fun i _ hi => ?_, ?_, ?_, ?_, ?_, raise_kept hkept⟩
  · rw [hraised, otpSet_otp_self, hotp]
  · rw [hraised, otpSet_otp_of_ne _ _ _ _ hi, hotp]
  · exact congrArg CfgSt.otpRun (raise_cfg 0x06 4 w _)
  · rw [raise_f, otpSet_f _ _ _ _ rfl, flag,
      f_setF_of_apart CFG_OTP_STATUS_done CFG_OTP_STATUS_busy _ _ rfl (by decide) (by decide) (by decide) (by decide),
      f_setF_self _ _ _ (by decide) (by decide)]
    rfl
  · rw [raise_f, otpSet_f _ _ _ _ rfl, flag, f_setF_self _ _ _ (by decide) (by decide)]
    rfl
  · exact told_raise (evtOn_cfg 4 (hkept.1 _ (by unfold ShowsOtp; decide))) (by rw [hlater]; rfl)

/-! ### The CTL_SPI target and its mailbox (R414) -/

theorem ctlSpiWrite (s : State) (a : BitVec 16) (bs : List Byte) : Claims.ctlSpiWrite s a bs := by
  intro hon hfit
  have hlow : a.toNat / 4096 = 0 := Nat.div_eq_of_lt (by omega)
  have hrun : exec (.ctlSpiWrite a bs) s = .next (if s.b CTL_MBOX_STATUS_in_full then flag CTL_MBOX_STATUS_err s
      else mboxPut a.toNat bs s) := by
    rw [exec_ctlSpiWrite, execCtlSpiWrite, hon, hlow, if_neg (by decide)]
    dsimp only
    rw [List.take_of_length_le (by omega)]
  refine ⟨_, hrun, ?_⟩
  split
  · exact ⟨f_setF_self CTL_MBOX_STATUS_err 1 s (by decide) (by decide), rfl, flag_kept rfl (Kept.refl _ _ s)⟩
  · refine ⟨List.ext_getElem (by simp) fun i _ hi => ?_, modMon_kept (Kept.refl _ _ s)⟩
    rw [List.getElem_map, List.getElem_range, RegisterMap.mboxPut_mboxByte a.toNat i bs s (by omega) hi]

theorem ctlSpiRead (s : State) (a : BitVec 16) (n : ℕ) : Claims.ctlSpiRead s a n := fun hon =>
  ⟨_, by rw [exec_ctlSpiRead, execCtlSpiRead, if_pos hon], rfl, modMon_kept (Kept.refl _ _ s)⟩

theorem ctlSpiStatus (s : State) : Claims.ctlSpiStatus s := fun hon =>
  ⟨_, by rw [exec_ctlSpiStatus, execCtlSpiStatus, if_pos hon], rfl, modMon_kept (Kept.refl _ _ s)⟩

theorem ctlSpiDoorbell (s : State) : Claims.ctlSpiDoorbell s := fun hon => by
  refine ⟨_, by rw [exec_ctlSpiDoorbell, execCtlSpiDoorbell, if_pos hon], ?_, ?_, raise_kept (flag_kept rfl (Kept.refl _ _ s))⟩
  · rw [raise_f]
    exact f_setF_self CTL_MBOX_STATUS_in_full 1 s (by decide) (by decide)
  · exact told_raise (Debug.evtOn_monitor _ (rd_wr_of_ne _ _ _ _ (by decide))) rfl

theorem ctlSpiAck (s : State) : Claims.ctlSpiAck s := fun hon => by
  have hfree : (setF CTL_MBOX_STATUS_out_ready 0 s).f CTL_MBOX_STATUS_out_ready = 0 := f_setF_self _ _ s (by decide) (by decide)
  refine ⟨_, by rw [exec_ctlSpiAck, execCtlSpiAck, if_pos hon], ?_, ?_, ?_, raise_kept (setF_kept rfl (Kept.refl _ _ s))⟩
  · rw [raise_f, hfree]
  · rw [State.ctlIrqN, raise_b, State.b, hfree]
    rfl
  · exact told_raise (Debug.evtOn_monitor _ (rd_wr_of_ne _ _ _ _ (by decide))) rfl

theorem ctlSpiUnknown (s : State) (b : Byte) : Claims.ctlSpiUnknown s b := fun hon hnone =>
  ⟨_, by rw [exec_ctlSpiUnknown, execCtlSpiUnknown, hon, hnone, if_pos (by decide)]; rfl, rd_wr_self _ _ s,
    bump_kept rfl (Kept.refl _ _ s)⟩

/-! ### The firmware's side of the mailbox (R414, R510) -/

theorem mboxCtrl_window (v : Variant) : InBlock v CTL_MBOX_CTRL dCTRL rowsMon (CTL_MBOX_CTRL - 0x47400000) := ⟨rfl, rfl⟩

theorem mboxCtrlWrite_kept (v : Word) (s : State) :
    Kept (· = CTL_MBOX_STATUS) (fun _ => False) s (mboxCtrlWrite v s) := by
  have hrefl := Kept.refl (· = CTL_MBOX_STATUS) (fun _ => False) s
  unfold mboxCtrlWrite
  refine ite_kept (flag_kept rfl hrefl) (ite_kept (flag_kept rfl ?_) ?_)
  · exact ite_kept (setF_kept rfl hrefl) hrefl
  · exact ite_kept (setF_kept rfl hrefl) hrefl

/-- Setting bit 0 of a word leaves its bit 1. -/
theorem bitOf_one_setBits_zero (v : Word) : bitOf (setBits v 0 0 1).toNat 1 = bitOf v.toNat 1 := by
  have h := RegisterMap.bitsOf_setBits_of_below v 0 0 1 1 1 (by decide) (by decide) (by decide)
  simpa [bitOf, bitsOf] using congrArg (· == 1) h

theorem mboxInClear (s : State) (r : Requester) (v : Word) : Claims.mboxInClear s r v := by
  intro _ hon
  refine writes_of_served rfl (served_of_unitOn (mboxCtrl_window _) hon) (fun l e => ?_)
    (fun l => (kept_held _ _ l s).trans (mboxCtrlWrite_kept _ _))
  have hclear : ∀ t, (setF CTL_MBOX_STATUS_in_full 0 t).f CTL_MBOX_STATUS_in_full = 0 := fun t =>
    f_setF_self _ _ t (by decide) (by decide)
  rw [mboxCtrlWrite, bitOf_one_setBits_zero, if_pos (bitOf_setBits_one v 0 (by decide))]
  by_cases hfull : bitOf v.toNat 1 = true ∧ s.b CTL_MBOX_STATUS_out_ready = true
  · have hfull' : (bitOf v.toNat 1 && (held l s).b CTL_MBOX_STATUS_out_ready) = true := Bool.and_eq_true_iff.mpr hfull
    rw [if_pos hfull, if_pos hfull']
    exact ⟨f_setF_self CTL_MBOX_STATUS_bad_write 1 (held l s) (by decide) (by decide),
      f_setF_of_apart CTL_MBOX_STATUS_bad_write CTL_MBOX_STATUS_in_full 1 (held l s) rfl (by decide) (by decide) (by decide)
        (by decide)⟩
  · have hfull' : ¬ (bitOf v.toNat 1 && (held l s).b CTL_MBOX_STATUS_out_ready) = true := fun h =>
      hfull (Bool.and_eq_true_iff.mp h)
    rw [if_neg hfull, if_neg hfull']
    split
    · exact (f_setF_of_apart CTL_MBOX_STATUS_out_ready CTL_MBOX_STATUS_in_full 1 _ rfl (by decide) (by decide) (by decide)
        (by decide)).trans (hclear _)
    · exact hclear (held l s)

theorem ctlIrqN_of_ready {s : State} (h : s.f CTL_MBOX_STATUS_out_ready = 1) : s.ctlIrqN = false := by
  rw [State.ctlIrqN, State.b, h]
  rfl

theorem out_ready_of_set {s : State} (h : s.b CTL_MBOX_STATUS_out_ready = true) : s.f CTL_MBOX_STATUS_out_ready = 1 := by
  have hlt : s.f CTL_MBOX_STATUS_out_ready < 2 := f_lt s CTL_MBOX_STATUS_out_ready
  have hne : s.f CTL_MBOX_STATUS_out_ready ≠ 0 := by simpa [State.b] using h
  omega

theorem flag_bad_write_out_ready (s : State) :
    (flag CTL_MBOX_STATUS_bad_write s).f CTL_MBOX_STATUS_out_ready = s.f CTL_MBOX_STATUS_out_ready :=
  f_setF_of_apart CTL_MBOX_STATUS_bad_write CTL_MBOX_STATUS_out_ready 1 s rfl (by decide) (by decide) (by decide) (by decide)

theorem mboxPost (s : State) (r : Requester) (v : Word) : Claims.mboxPost s r v := by
  intro hon
  refine writes_of_served rfl (served_of_unitOn (mboxCtrl_window _) hon) (fun l e => ?_)
    (fun l => (kept_held _ _ l s).trans (mboxCtrlWrite_kept _ _))
  rw [mboxCtrlWrite, bitOf_setBits_one v 1 (by decide), Bool.true_and]
  have hout : (held l s).b CTL_MBOX_STATUS_out_ready = s.b CTL_MBOX_STATUS_out_ready := rfl
  rw [hout]
  have hbad : ∀ (x : Fld) (n : ℕ) t, x.addr = CTL_MBOX_STATUS → x.lo ≤ x.hi → x.hi < 3 →
      (setF x n t).f CTL_MBOX_STATUS_bad_write = t.f CTL_MBOX_STATUS_bad_write := fun x n t ha hle hhi =>
    f_setF_of_apart x CTL_MBOX_STATUS_bad_write n t ha.symm hle (by omega) (by decide) (.inl hhi)
  cases hfull : s.b CTL_MBOX_STATUS_out_ready with
  | true =>
    have hready := (flag_bad_write_out_ready (held l s)).trans (out_ready_of_set (s := held l s) (hout.trans hfull))
    exact ⟨hready, ctlIrqN_of_ready hready, f_setF_self CTL_MBOX_STATUS_bad_write 1 (held l s) (by decide) (by decide)⟩
  | false =>
    simp only [Bool.false_eq_true, if_false, if_true]
    have hready : ∀ t, (flag CTL_MBOX_STATUS_out_ready t).f CTL_MBOX_STATUS_out_ready = 1 := fun t =>
      f_setF_self _ _ t (by decide) (by decide)
    refine ⟨hready _, ctlIrqN_of_ready (hready _), (hbad CTL_MBOX_STATUS_out_ready 1 _ rfl (by decide) (by decide)).trans ?_⟩
    split
    · exact hbad CTL_MBOX_STATUS_in_full 0 (held l s) rfl (by decide) (by decide)
    · rfl

/-- Settles O48, a command at a time. -/
theorem locksOtpAndMailbox : Obligations.LocksOtpAndMailbox := by
  unfold Obligations.LocksOtpAndMailbox
  exact ⟨bootLock, warmInvalidate, otpProgram, otpDone, ctlSpiWrite, ctlSpiRead, ctlSpiStatus, ctlSpiDoorbell, ctlSpiAck,
    ctlSpiUnknown, mboxInClear, mboxPost⟩

end Sys2Proof.Proofs.ControlPort

/-! A flash read whose destination ends where a protected region's check area begins: every byte of it answers, and the
store of them all does not (R283, R394). -/

namespace Sys2Proof.Proofs.FlashBeforeCheckArea

open Sys2Proof.Machine

-- The kernel's evaluation below waits for the declarations before it: it is elaborated in their order.
set_option Elab.async false

/-- Every domain on and the memory enabled; region 0 protects the first 16 MiB of DRAM; a flash read of four bytes is in
progress, whose destination ends with that data area. -/
def reading : State :=
  { State.reset with
    regs := [(PWR_STATUS, 0x7FFFFFFF), (MEM_CTRL, 1), (MEM_ECC_RGN_HI 0, 0x10), (MEM_ECC_RGN_SIZE 0, 1),
      (MEM_ECC_RGN_CTRL 0, 1), (XSPI_DST_LO, 0x00FFFFFC), (XSPI_DST_HI, 0x10), (XSPI_LEN, 4), (XSPI_STATUS, 1)] }

/-- What a step's end shows at the destination. -/
def stored : Res → List Byte
  | .next t => t.peeks 0x1000FFFFFC 4
  | _ => []

/-- The read as it stands fits the statement. -/
theorem reading_fits : reading.unitOn dCTRL = true ∧ reading.b XSPI_STATUS_busy = true ∧
    reading.pair XSPI_DST_LO XSPI_DST_HI = 0x1000FFFFFC ∧ reading.f XSPI_LEN_bytes = 4 ∧
    reading.xspiRoom 0x1000FFFFFC 4 = 4 ∧ reading.flashBytes (reading.f XSPI_ADDR_addr) 4 = [0xFF, 0xFF, 0xFF, 0xFF] ∧
    stored (exec .xspiDone reading) = [0, 0, 0, 0] := by decide +kernel

/-- Refutes O46: the destination keeps what it held. -/
theorem not_flashAndPins : ¬ Obligations.FlashAndPins := by
  unfold Obligations.FlashAndPins
  intro ⟨_, h, _⟩
  obtain ⟨hon, hbusy, hdst, hlen, hroom, hflash, hstored⟩ := reading_fits
  obtain ⟨t, hrun, hpeeks, _⟩ := h reading hon hbusy rfl rfl rfl (by rw [hdst, hlen, hroom])
  rw [hdst, hlen, hflash] at hpeeks
  have hzero : t.peeks 0x1000FFFFFC 4 = [0, 0, 0, 0] := by simpa only [hrun, stored] using hstored
  exact absurd (hpeeks.symm.trans hzero) (by decide)

end Sys2Proof.Proofs.FlashBeforeCheckArea

/-! Accesses of memory by the units, where no error is injected and no fill or re-read waits. -/

namespace Sys2Proof.Proofs.UnitAccess

open Sys2Proof.Machine
open Sys2Proof.Proofs.Keeping

/-- The state with these controllers of memory. -/
def withMc (mc : MemSt) (s : State) : State := { s with mc := mc }

/-- The controllers know the same former areas, fills and words that wait for a re-read. -/
def SameAreas (x y : MemSt) : Prop := y.former = x.former ∧ y.fills = x.fills ∧ y.reread = x.reread

theorem SameAreas.trans {x y z : MemSt} (h : SameAreas x y) (h' : SameAreas y z) : SameAreas x z :=
  ⟨h'.1.trans h.1, h'.2.1.trans h.2.1, h'.2.2.trans h.2.2⟩

/-- Only what the controllers remember of bursts differs. -/
def Scheduled (s t : State) : Prop := ∃ mc, SameAreas s.mc mc ∧ t = withMc mc s

theorem Scheduled.refl (s : State) : Scheduled s s := ⟨s.mc, ⟨rfl, rfl, rfl⟩, rfl⟩

theorem Scheduled.trans {s t u : State} (h : Scheduled s t) (h' : Scheduled t u) : Scheduled s u := by
  obtain ⟨mc, hmc, rfl⟩ := h
  obtain ⟨mc', hmc', rfl⟩ := h'
  exact ⟨mc', hmc.trans hmc', rfl⟩

theorem Scheduled.slots {s t : State} (h : Scheduled s t) : t.err.slots = s.err.slots := by
  obtain ⟨mc, _, rfl⟩ := h
  rfl

theorem tryTwice_passed (det arg : ℕ) (s : State) (h : s.err.slots = []) : tryTwice det true true arg s = (false, s) := by
  simp [tryTwice, examine_nil det false s h]

theorem trackRun_scheduled (ch : ℕ) (s : State) (h : s.err.slots = []) : Scheduled s (trackRun ch true true s) := by
  unfold trackRun
  dsimp only
  rw [tryTwice_passed _ _ _ (by exact h)]
  exact ⟨{ s.mc with owed := s.mc.owed.filter (· != ch), trackAt := put s.mc.trackAt ch s.now }, ⟨rfl, rfl, rfl⟩, rfl⟩

theorem trackFirst_scheduled (ch : ℕ) (s : State) (h : s.err.slots = []) : Scheduled s (trackFirst ch s) := by
  unfold trackFirst
  split
  · exact trackRun_scheduled ch s h
  · exact Scheduled.refl s

theorem burst_scheduled (cls off : ℕ) (s : State) : Scheduled s (burst cls off s) := ⟨(burst cls off s).mc, ⟨rfl, rfl, rfl⟩, rfl⟩

theorem bursts_scheduled (cls a n : ℕ) (s : State) (h : s.err.slots = []) : Scheduled s (bursts cls a n s) := by
  unfold bursts
  split
  · split
    · exact Scheduled.refl s
    · refine List.foldlRecOn (motive := Scheduled s) _ _ ⟨(closeIdle s).mc, ⟨rfl, rfl, rfl⟩, rfl⟩ fun t ht i _ => ?_
      have hslots : t.err.slots = [] := ht.slots.trans h
      exact (ht.trans (trackFirst_scheduled _ t hslots)).trans (burst_scheduled _ _ _)
  · exact Scheduled.refl s

theorem eccCheck_clean (a : ℕ) (s : State) (h : s.err.slots = []) : eccCheck a .clean s = (true, s) := by
  unfold eccCheck
  split
  · rfl
  · simp [examine_nil _ _ s h]

theorem rmwCheck_clean (a n : ℕ) (s : State) (h : s.err.slots = []) : rmwCheck a n .clean s = (true, s) := by
  have hfold : ∀ l : List ℕ, l.foldl (fun (x : Bool × EccFound × State) p =>
      ((x.1 && (eccCheck p x.2.1 x.2.2).1), EccFound.clean, (eccCheck p x.2.1 x.2.2).2)) (true, .clean, s) =
      (true, .clean, s) := fun l => by
    induction l with
    | nil => rfl
    | cons p l ih => rw [List.foldl_cons, eccCheck_clean p s h]; exact ih
  unfold rmwCheck
  rw [hfold]

/-- A store that memory answers is made, and the controllers' bursts are all else it leaves. -/
theorem dmaWrite_answered (cls a : ℕ) (bs : List Byte) (s : State) (hslots : s.err.slots = []) (hfills : s.mc.fills = [])
    (hreread : s.mc.reread = []) (h : s.memAnswers a bs.length true = true) :
    ∃ t, Scheduled s t ∧ dmaWrite cls a bs s = (true, poke a bs t) := by
  refine ⟨bursts cls a bs.length s, bursts_scheduled cls a _ s hslots, ?_⟩
  have hslots' := (bursts_scheduled cls a bs.length s hslots).slots.trans hslots
  rw [dmaWrite, awaitFill, hfills, List.foldl_nil, rereadFirst, hreread]
  simp only [List.map_nil, List.foldl_nil, h, if_true, rmwCheck_clean _ _ _ hslots']

theorem Scheduled.fills {s t : State} (h : Scheduled s t) : t.mc.fills = s.mc.fills := by
  obtain ⟨mc, hmc, rfl⟩ := h
  exact hmc.2.1

theorem Scheduled.reread {s t : State} (h : Scheduled s t) : t.mc.reread = s.mc.reread := by
  obtain ⟨mc, hmc, rfl⟩ := h
  exact hmc.2.2

/-- A store that memory does not answer is not made. -/
theorem dmaWrite_refused (cls a : ℕ) (bs : List Byte) (s : State) (hfills : s.mc.fills = []) (hreread : s.mc.reread = [])
    (h : ¬ s.memAnswers a bs.length true = true) : dmaWrite cls a bs s = (false, s) := by
  rw [dmaWrite, awaitFill, hfills, List.foldl_nil, rereadFirst, hreread]
  exact if_neg h

/-- A read that memory answers returns its bytes, and the controllers' bursts are all it leaves. -/
theorem dmaRead_answered (cls a n : ℕ) (s : State) (hslots : s.err.slots = []) (hfills : s.mc.fills = [])
    (hreread : s.mc.reread = []) (h : s.memAnswers a n false = true) :
    ∃ t, Scheduled s t ∧ dmaRead cls a n s = (some (t.peeks a n), t) := by
  have hburst := bursts_scheduled cls a n s hslots
  have hrange : eccRange a n (bursts cls a n s) = (true, bursts cls a n s) := by
    rw [eccRange, hburst.slots, hslots]
    rfl
  refine ⟨bursts cls a n s, hburst, ?_⟩
  rw [dmaRead, dmaSpan, awaitFill, hfills, List.foldl_nil, rereadFirst, hreread]
  simp only [List.map_nil, List.foldl_nil, h, if_true, hrange]

theorem dmaRead_refused (cls a n : ℕ) (s : State) (hfills : s.mc.fills = []) (hreread : s.mc.reread = [])
    (h : ¬ s.memAnswers a n false = true) : dmaRead cls a n s = (none, s) := by
  rw [dmaRead, dmaSpan, awaitFill, hfills, List.foldl_nil, rereadFirst, hreread]
  simp only [List.map_nil, List.foldl_nil, h, if_false, Bool.false_eq_true]

theorem Scheduled.peek {s t : State} (h : Scheduled s t) (a : ℕ) : t.peek a = s.peek a := by
  obtain ⟨mc, hmc, rfl⟩ := h
  rw [State.peek, State.peek, State.formerAt, withMc, hmc.1, State.formerAt]

theorem Scheduled.kept {p q : ℕ → Prop} {s t : State} (h : Scheduled s t) : Kept p q s t := by
  have hpeek := h.peek
  obtain ⟨mc, hmc, rfl⟩ := h
  exact ⟨fun _ _ => rfl, fun a _ => hpeek a⟩

theorem poke_regs (a : ℕ) (bs : List Byte) (s : State) : (poke a bs s).regs = s.regs := by
  unfold poke dropFormer
  split
  · rfl
  · rfl

theorem poke_variant (a : ℕ) (bs : List Byte) (s : State) : (poke a bs s).variant = s.variant := by
  unfold poke dropFormer
  split
  · rfl
  · rfl

theorem poke_rd (a : ℕ) (bs : List Byte) (s : State) (x : ℕ) : (poke a bs s).rd x = s.rd x := by
  rw [State.rd, State.rd, poke_regs, poke_variant]

theorem poke_kept {p q : ℕ → Prop} {s₀ s : State} (a : ℕ) (bs : List Byte) (hq : ∀ x, a ≤ x → x < a + bs.length → q x)
    (h : Kept p q s₀ s) : Kept p q s₀ (poke a bs s) := by
  refine h.trans ⟨fun x _ => poke_rd a bs s x, fun x hx => poke_peek_outside a bs s x ?_⟩
  by_contra hin
  exact hx (hq x (by omega) (by omega))

/-- Stored bytes read back. -/
theorem poke_peeks (a : ℕ) (bs : List Byte) (s : State) (ha : Config.romSize ≤ a) : (poke a bs s).peeks a bs.length = bs := by
  refine List.ext_getElem (by simp [State.peeks]) fun i hi hi' => ?_
  have hi'' : i < bs.length := hi'
  simp only [State.peeks, List.getElem_map, List.getElem_range]
  rw [ poke_peek a bs s (a + i) (by omega), if_pos (by omega),
    Nat.add_sub_cancel_left, List.getD_eq_getElem _ _ hi'']

end Sys2Proof.Proofs.UnitAccess

/-! The root clock, the event router and the registers of its queues (R18, R26 to R30). -/

namespace Sys2Proof.Proofs.ClockRouter

open Sys2Proof.Machine
open Sys2Proof.Proofs.Keeping
open Sys2Proof.Proofs.Access
open Sys2Proof.Proofs.UnitAccess
open Sys2Proof.Claims (Keeps RegsBut MemBut)

/-! ### The root clock (R18) -/

/-- The registers that show what PWR does. -/
def ShowsPwr (a : ℕ) : Prop := a = PWR_BUSY ∨ a = PWR_STATE

theorem markUnwanted_kept {p q : ℕ → Prop} (s : State) : Kept p q s (markUnwanted s) := (Kept.refl p q s).congr rfl rfl rfl rfl

theorem showState_kept {q : ℕ → Prop} {s₀ s : State} (h : Kept ShowsPwr q s₀ s) : Kept ShowsPwr q s₀ (showState s) :=
  ite_kept (setF_kept (.inr rfl) h) h

theorem pwrNext_kept {q : ℕ → Prop} (s : State) : Kept ShowsPwr q s (pwrNext s) := by
  have hshown := showState_kept (markUnwanted_kept (p := ShowsPwr) (q := q) s)
  unfold pwrNext
  dsimp only
  split
  · exact hshown
  · split
    · exact hshown
    · exact setF_kept (.inl rfl) (hshown.congr rfl rfl rfl rfl)

theorem pwrNext_pll (s : State) : (pwrNext s).pwr.pllLocked = s.pwr.pllLocked ∧ (pwrNext s).pwr.pllDue = s.pwr.pllDue := by
  have hshown : (showState (markUnwanted s)).pwr = (markUnwanted s).pwr := by
    unfold showState
    split
    · rfl
    · rfl
  unfold pwrNext
  dsimp only
  split
  · rw [hshown]; exact ⟨rfl, rfl⟩
  · split
    · rw [hshown]; exact ⟨rfl, rfl⟩
    · simp only [setF, wr_pwr, hshown]; exact ⟨rfl, rfl⟩

theorem pllLocks (s : State) : Claims.pllLocks s := by
  intro hdue hclk
  refine ⟨_, by rw [exec_pllLocked, execPllLocked, hdue, hclk, if_pos (by decide)], (pwrNext_pll _).1, (pwrNext_pll _).2, ?_⟩
  have hlocked : Kept ShowsPwr (fun _ => False) s { s with pwr := { s.pwr with pllLocked := true, pllDue := none } } :=
    (Kept.refl _ _ s).congr rfl rfl rfl rfl
  exact hlocked.trans (pwrNext_kept _)

/-- The clock lost, and no root-derived one selected. -/
def unclocked (s : State) : State :=
  raise 0x01 0 0 (setF PWR_CLK_fab 0 (setF PWR_CLK_mem 0 (setF PWR_CLK_ctrl 0
    { s with pwr := { s.pwr with pllLocked := false, pllDue := none, clkLost := true } })))

theorem lasting_kept {p q : ℕ → Prop} {s₀ s : State} (kind det : ℕ) (inj : Bool) (arg addr : ℕ) (hp : p ERR_LAST)
    (h : Kept p q s₀ s) : Kept p q s₀ (lasting kind det inj arg addr s) := by
  have hlast : Kept p q s₀ (raise 0x04 0 det (setF ERR_LAST_kind kind (setF ERR_LAST_id det s))) :=
    raise_kept (setF_kept hp (setF_kept hp h))
  unfold lasting logRec
  split
  · exact hlast
  · exact hlast.congr rfl rfl rfl rfl

theorem lasting_f (kind det : ℕ) (inj : Bool) (arg addr : ℕ) (s : State) (x : Fld) :
    (lasting kind det inj arg addr s).f x = (setF ERR_LAST_kind kind (setF ERR_LAST_id det s)).f x := by
  unfold lasting logRec
  split
  · exact raise_f _ _ _ _ x
  · exact raise_f _ _ _ _ x

theorem lasting_pend (kind det : ℕ) (inj : Bool) (arg addr : ℕ) (s : State) (hdet : det ≠ 0x0400) :
    (lasting kind det inj arg addr s).err.pend.length = s.err.pend.length + 1 := by
  rw [lasting, logRec, if_neg hdet]
  simp

theorem lasting_pwr (kind det : ℕ) (inj : Bool) (arg addr : ℕ) (s : State) : (lasting kind det inj arg addr s).pwr = s.pwr := by
  unfold lasting logRec
  split
  · rw [raise_pwr]; rfl
  · exact (raise_pwr _ _ _ _).trans rfl

theorem unclocked_clk (s : State) (x : Fld) (hx : x.addr = PWR_CLK) :
    (lasting 1 0x0100 false 0 0 (unclocked s)).f x = (unclocked s).f x := by
  rw [lasting_f, f_setF_of_ne _ _ _ _ (by rw [hx]; decide), f_setF_of_ne _ _ _ _ (by rw [hx]; decide)]

theorem referenceLost (s : State) : Claims.referenceLost s := by
  intro hslots
  have hslots' : (unclocked s).err.slots = [] := by rw [unclocked, raise_err]; exact hslots
  have hrun : exec .referenceLost s = .next (lasting 1 0x0100 false 0 0 (unclocked s)) := by
    rw [exec_referenceLost, execReferenceLost]
    show Host.Outcome.next (examDetect 0x0100 true 0 0 (unclocked s)).2 = _
    rw [examDetect_real _ _ _ _ hslots']
    rfl
  have hkept : Kept (fun a => a = PWR_CLK ∨ a = ERR_LAST) (fun _ => False) s (unclocked s) :=
    raise_kept (setF_kept (.inl rfl) (setF_kept (.inl rfl) (setF_kept (.inl rfl) ((Kept.refl _ _ s).congr rfl rfl rfl rfl))))
  refine ⟨_, hrun, ?_, ?_, ?_, ?_, ?_, ?_, ?_, ?_, lasting_kept _ _ _ _ _ (.inr rfl) hkept⟩
  · rw [lasting_pwr, unclocked, raise_pwr]; rfl
  · rw [lasting_pwr, unclocked, raise_pwr]; rfl
  · rw [unclocked_clk s _ rfl, unclocked, raise_f, f_setF_self _ _ _ (by decide) (by decide)]; rfl
  · rw [unclocked_clk s _ rfl, unclocked, raise_f,
      f_setF_of_apart PWR_CLK_fab PWR_CLK_mem _ _ rfl (by decide) (by decide) (by decide) (by decide),
      f_setF_self _ _ _ (by decide) (by decide)]
    rfl
  · rw [unclocked_clk s _ rfl, unclocked, raise_f,
      f_setF_of_apart PWR_CLK_fab PWR_CLK_ctrl _ _ rfl (by decide) (by decide) (by decide) (by decide),
      f_setF_of_apart PWR_CLK_mem PWR_CLK_ctrl _ _ rfl (by decide) (by decide) (by decide) (by decide),
      f_setF_self _ _ _ (by decide) (by decide)]
    rfl
  · rw [lasting_f, f_setF_of_apart ERR_LAST_kind ERR_LAST_id _ _ rfl (by decide) (by decide) (by decide) (by decide),
      f_setF_self _ _ _ (by decide) (by decide)]
    rfl
  · rw [lasting_f, f_setF_self _ _ _ (by decide) (by decide)]; rfl
  · rw [lasting_pend _ _ _ _ _ _ (by decide), unclocked, raise_err]; rfl

/-! ### The registers of a queue (R28, R30) -/

theorem sys_window (v : Variant) (a : ℕ) (hlo : 0x40000000 ≤ a) (hhi : a < 0x40100000) :
    windowAt v a = some ⟨true, none, rowsSys, a - 0x40000000⟩ := by
  unfold windowAt
  rw [if_neg (by omega), if_pos hhi]

/-- A queue's base, size and head are served, and each is a register of one field. -/
structure QueueReg (a hi lo : ℕ) : Prop where
  above : 0x40000000 ≤ a
  below : a < 0x40100000
  aligned : a % 4 = 0
  row : ∃ off dims c, rowAt ⟨true, none, rowsSys, a - 0x40000000⟩ = some ⟨off, dims, c, [⟨hi, lo, .rw, 0⟩]⟩

theorem qbase_reg {d : ℕ} (hd : d < 5) : QueueReg (EVR_QBASE d) 24 4 := by
  interval_cases d
  all_goals exact ⟨by decide, by decide, by decide, _, _, _, rfl⟩

theorem qsize_reg {d : ℕ} (hd : d < 5) : QueueReg (EVR_QSIZE d) 12 0 := by
  interval_cases d
  all_goals exact ⟨by decide, by decide, by decide, _, _, _, rfl⟩

theorem qhead_reg {d : ℕ} (hd : d < 5) : QueueReg (EVR_QHEAD d) 31 0 := by
  interval_cases d
  all_goals exact ⟨by decide, by decide, by decide, _, _, _, rfl⟩

theorem QueueReg.served {a hi lo : ℕ} (h : QueueReg a hi lo) {s : State} (hhold : s.pwr.testHold = false) : Served a s :=
  served_of_no_domain hhold (sys_window _ a h.above h.below) h.aligned

theorem QueueReg.plainWrite {a hi lo : ℕ} (h : QueueReg a hi lo) (v : Word) (s : State) :
    plainWrite a v s = setF ⟨a, hi, lo⟩ (bitsOf v.toNat hi lo) s := by
  obtain ⟨off, dims, c, hrow⟩ := h.row
  exact plainWrite_of_rw (sys_window _ a h.above h.below) hrow

theorem qreg_ne_qstat (d : ℕ) : EVR_QBASE d ≠ EVR_QSTAT d ∧ EVR_QSIZE d ≠ EVR_QSTAT d ∧ EVR_QHEAD d ≠ EVR_QSTAT d := by
  simp only [EVR_QBASE, EVR_QSIZE, EVR_QHEAD, EVR_QSTAT]
  omega

theorem bad_write_set (d : ℕ) (s : State) : (flag (EVR_QSTAT_bad_write d) s).f (EVR_QSTAT_bad_write d) = 1 :=
  f_setF_self _ 1 s (by simp [EVR_QSTAT_bad_write]) (by simp [EVR_QSTAT_bad_write])

theorem qbase (s : State) (r : Requester) (d : ℕ) (v : Word) : Claims.qbase s r d v := by
  intro hd hhold
  have hreg := qbase_reg hd
  have hne := (qreg_ne_qstat d).1
  refine writes_of_served (k := qbaseWrite d v) (by rw [exec_evrQbaseWrite, execEvrQbaseWrite, decide_eq_true hd]; rfl)
    (hreg.served hhold) (fun l e => ?_) (fun l => ?_)
  · by_cases hok : s.queued d = 0 ∧ queueInside (bitsOf v.toNat 24 4 * 16) (s.f (EVR_QSIZE_entries d)) = true
    · have htaken : qbaseWrite d v (held l s) = setF (EVR_QBASE_base d) (bitsOf v.toNat 24 4) (held l s) :=
        (if_pos (by rw [Bool.and_eq_true, beq_iff_eq]; exact hok)).trans (hreg.plainWrite v _)
      rw [if_pos hok, htaken]
      exact ⟨(f_setF_self (EVR_QBASE_base d) _ (held l s) (by simp [EVR_QBASE_base]) (by simp [EVR_QBASE_base])).trans
        (bitsOf_mod_self _ _ _), rd_wr_of_ne _ _ _ _ hne.symm⟩
    · have hrefused : qbaseWrite d v (held l s) = flag (EVR_QSTAT_bad_write d) (held l s) :=
        if_neg (by rw [Bool.and_eq_true, beq_iff_eq]; exact hok)
      rw [if_neg hok, hrefused]
      exact ⟨rd_wr_of_ne _ _ _ _ hne, bad_write_set d (held l s)⟩
  · exact ite_kept (plainWrite_kept (.inl rfl) (kept_held _ _ l s)) (flag_kept (.inr rfl) (kept_held _ _ l s))

theorem qsize (s : State) (r : Requester) (d : ℕ) (v : Word) : Claims.qsize s r d v := by
  intro hd hhold
  have hreg := qsize_reg hd
  have hne := (qreg_ne_qstat d).2.1
  refine writes_of_served (k := qsizeWrite d v) (by rw [exec_evrQsizeWrite, execEvrQsizeWrite, decide_eq_true hd]; rfl)
    (hreg.served hhold) (fun l e => ?_) (fun l => ?_)
  · by_cases hok : bitsOf v.toNat 12 0 ≤ 4096 ∧ s.queued d = 0 ∧
      queueInside (s.f (EVR_QBASE_base d) * 16) (bitsOf v.toNat 12 0) = true
    · have htaken : qsizeWrite d v (held l s) = setF (EVR_QSIZE_entries d) (bitsOf v.toNat 12 0) (held l s) :=
        (if_pos (by rw [Bool.and_eq_true, Bool.and_eq_true, beq_iff_eq, decide_eq_true_eq, and_assoc]; exact hok)).trans
          (hreg.plainWrite v _)
      rw [if_pos hok, htaken]
      exact ⟨(f_setF_self (EVR_QSIZE_entries d) _ (held l s) (by simp [EVR_QSIZE_entries]) (by simp [EVR_QSIZE_entries])).trans
        (bitsOf_mod_self _ _ _), rd_wr_of_ne _ _ _ _ hne.symm⟩
    · have hrefused : qsizeWrite d v (held l s) = flag (EVR_QSTAT_bad_write d) (held l s) :=
        if_neg (by rw [Bool.and_eq_true, Bool.and_eq_true, beq_iff_eq, decide_eq_true_eq, and_assoc]; exact hok)
      rw [if_neg hok, hrefused]
      exact ⟨rd_wr_of_ne _ _ _ _ hne, bad_write_set d (held l s)⟩
  · exact ite_kept (plainWrite_kept (.inl rfl) (kept_held _ _ l s)) (flag_kept (.inr rfl) (kept_held _ _ l s))

theorem qhead (s : State) (r : Requester) (d : ℕ) (v : Word) : Claims.qhead s r d v := by
  intro hd hhold
  have hreg := qhead_reg hd
  have hne := (qreg_ne_qstat d).2.2
  refine writes_of_served (k := qheadWrite d v) (by rw [exec_evrQheadWrite, execEvrQheadWrite, decide_eq_true hd]; rfl)
    (hreg.served hhold) (fun l e => ?_) (fun l => ?_)
  · by_cases hbad : ahead v.toNat (s.f (EVR_QTAIL_tail d)) = true
    · have hrefused : qheadWrite d v (held l s) = flag (EVR_QSTAT_bad_write d) (held l s) := if_pos hbad
      rw [if_pos hbad, hrefused]
      exact ⟨rd_wr_of_ne _ _ _ _ hne, bad_write_set d (held l s)⟩
    · have htaken : qheadWrite d v (held l s) = setF (EVR_QHEAD_head d) (bitsOf v.toNat 31 0) (held l s) :=
        (if_neg hbad).trans (hreg.plainWrite v _)
      rw [if_neg hbad, htaken]
      exact ⟨(rd_wr_self _ _ (held l s)).trans (setBits_word _ v), rd_wr_of_ne _ _ _ _ hne.symm⟩
  · exact ite_kept (flag_kept (.inr rfl) (kept_held _ _ l s)) (plainWrite_kept (.inl rfl) (kept_held _ _ l s))

/-! ### An event at the router (R26 to R29) -/

/-- The event taken off the flight, its sequence number drawn. -/
def taken (rest : List Ev) (s : State) : State :=
  { s with evr := { s.evr with flight := rest, seq := (s.evr.seq + 1) % 65536 } }

theorem bitOf_two_pow (d i : ℕ) : bitOf (2 ^ d) i = decide (i = d) := by
  rw [bitOf_eq_testBit, Nat.testBit_two_pow]
  exact decide_eq_decide.mpr eq_comm

/-- An event of one destination goes to that queue alone. -/
theorem exec_eventRaised_of_one {s : State} {e : Ev} {rest : List Ev} {d : ℕ} (hflight : s.evr.flight = e :: rest) (hd : d < 5)
    (hdest : s.destOf e.id = 2 ^ d) (hslots : s.err.slots = []) :
    exec .eventRaised s = .next (evrDeliver e s.evr.seq d (taken rest s)) := by
  have hroute : evrRoute e { s with evr := { s.evr with flight := rest } } =
      (List.range 5).foldl (fun t i => if bitOf (2 ^ d) i then evrDeliver e s.evr.seq i t else t) (taken rest s) := by
    rw [evrRoute]
    dsimp only
    rw [examDetect_calm _ _ _ _ (by exact hslots), ← hdest]
    rfl
  rw [exec_eventRaised, execEventRaised, hflight]
  simp only [hroute, bitOf_two_pow]
  interval_cases d
  all_goals rfl

/-- A record that finds no room (R28). -/
def dropped (d : ℕ) (s : State) : State := addPair (EVR_QDROP_LO d) (EVR_QDROP_HI d) 1 (flag (EVR_QSTAT_lost d) s)

/-- The instant and order of what is owed and in flight aside, the state. -/
def owing (l : List ℕ) (s : State) : State := { s with evr := { s.evr with owed := l } }

theorem owing_pair (l : List ℕ) (s : State) (lo hi : ℕ) : (owing l s).pair lo hi = s.pair lo hi := rfl

theorem owing_f (l : List ℕ) (s : State) (x : Fld) : (owing l s).f x = s.f x := rfl

theorem owing_peeks (l : List ℕ) (s : State) (a n : ℕ) : (owing l s).peeks a n = s.peeks a n := rfl

theorem owing_kept {p q : ℕ → Prop} {s₀ s : State} (l : List ℕ) (h : Kept p q s₀ s) : Kept p q s₀ (owing l s) :=
  h.congr rfl rfl rfl rfl

theorem taken_kept {p q : ℕ → Prop} (rest : List Ev) (s : State) : Kept p q s (taken rest s) :=
  (Kept.refl p q s).congr rfl rfl rfl rfl

theorem taken_pair (rest : List Ev) (s : State) (lo hi : ℕ) : (taken rest s).pair lo hi = s.pair lo hi := rfl

theorem pair_setF_of_ne (x : Fld) (v lo hi : ℕ) (s : State) (hlo : lo ≠ x.addr) (hhi : hi ≠ x.addr) :
    (setF x v s).pair lo hi = s.pair lo hi := by
  rw [State.pair, setF, rd_wr_of_ne _ _ _ _ hlo, rd_wr_of_ne _ _ _ _ hhi, State.pair]

theorem evrDeliver_full {e : Ev} {seq d : ℕ} {s : State}
    (h : s.f (EVR_QSIZE_entries d) = 0 ∨ s.queued d = s.f (EVR_QSIZE_entries d)) :
    ∃ l, evrDeliver e seq d s = owing l (dropped d s) :=
  ⟨_, if_pos (by rw [Bool.or_eq_true, decide_eq_true_eq, beq_iff_eq]; exact h)⟩

theorem eventDropped (s : State) (e : Ev) (rest : List Ev) (d : ℕ) : Claims.eventDropped s e rest d := by
  intro _ hflight hd hdest hslots hfull
  obtain ⟨l, hdrop⟩ := evrDeliver_full (e := e) (seq := s.evr.seq) (s := taken rest s) hfull
  have hpair : EVR_QDROP_LO d ≠ EVR_QDROP_HI d := by simp only [EVR_QDROP_LO, EVR_QDROP_HI]; omega
  have hstat : EVR_QSTAT d ≠ EVR_QDROP_LO d ∧ EVR_QSTAT d ≠ EVR_QDROP_HI d := by
    simp only [EVR_QSTAT, EVR_QDROP_LO, EVR_QDROP_HI]
    omega
  refine ⟨_, exec_eventRaised_of_one hflight hd hdest hslots, ?_⟩
  rw [hdrop]
  refine ⟨rfl, rfl, ?_, ?_, ?_⟩
  · rw [owing_f, State.f, dropped, show (EVR_QSTAT_lost d).addr = EVR_QSTAT d from rfl,
      addPair_rd_of_ne _ _ _ _ _ hstat.1 hstat.2]
    exact f_setF_self (EVR_QSTAT_lost d) 1 _ (by simp [EVR_QSTAT_lost]) (by simp [EVR_QSTAT_lost])
  · rw [owing_pair, dropped, pair_addPair _ _ _ _ hpair, flag,
      pair_setF_of_ne (EVR_QSTAT_lost d) 1 _ _ _ hstat.1.symm hstat.2.symm, taken_pair]
  · have hlost : Kept (fun a => a = EVR_QSTAT d ∨ a = EVR_QDROP_LO d ∨ a = EVR_QDROP_HI d) (fun _ => False) s
        (flag (EVR_QSTAT_lost d) (taken rest s)) := flag_kept (.inl rfl) (taken_kept rest s)
    exact owing_kept l (addPair_kept (.inr (.inl rfl)) (.inr (.inr rfl)) hlost)

/-- Where the next record of queue `d` stands (R28). -/
def recordAt (s : State) (d : ℕ) : ℕ :=
  Config.sramBase + s.f (EVR_QBASE_base d) * 16 + s.f (EVR_QTAIL_tail d) % s.f (EVR_QSIZE_entries d) * 16

/-- A record stored at the tail of queue `d`, which moves on. -/
def queuedUp (d : ℕ) (bs : List Byte) (s : State) : State :=
  addPair (EVR_QWR_LO d) (EVR_QWR_HI d) 1 (setF (EVR_QTAIL_tail d) (s.f (EVR_QTAIL_tail d) + 1) (poke (recordAt s d) bs s))

theorem evrDeliver_room {e : Ev} {seq d : ℕ} {s : State} (hsize : s.f (EVR_QSIZE_entries d) ≠ 0)
    (hroom : s.queued d ≠ s.f (EVR_QSIZE_entries d)) :
    ∃ l, evrDeliver e seq d s = owing l (queuedUp d (evRecord e (s.evr.owed.contains d) seq) s) :=
  ⟨_, if_neg (by rw [Bool.or_eq_true, decide_eq_true_eq, beq_iff_eq]; exact fun h => h.elim hsize hroom)⟩

theorem evRecord_length (e : Ev) (loss : Bool) (seq : ℕ) : (evRecord e loss seq).length = 16 := by
  simp [evRecord, leBytes]

theorem poke_evr (a : ℕ) (bs : List Byte) (s : State) : (poke a bs s).evr = s.evr := by
  unfold poke dropFormer
  split
  · rfl
  · rfl

theorem queuedUp_evr (d : ℕ) (bs : List Byte) (s : State) : (queuedUp d bs s).evr = s.evr := by
  rw [queuedUp, addPair, setPair, wr_evr, wr_evr, setF, wr_evr, poke_evr]

theorem queuedUp_flight {l : List ℕ} {d : ℕ} {bs : List Byte} (rest : List Ev) (s : State) :
    (owing l (queuedUp d bs (taken rest s))).evr.flight = rest := by
  rw [owing, queuedUp_evr, taken]

theorem queuedUp_seq {l : List ℕ} {d : ℕ} {bs : List Byte} (rest : List Ev) (s : State) :
    (owing l (queuedUp d bs (taken rest s))).evr.seq = (s.evr.seq + 1) % 65536 := by
  rw [owing, queuedUp_evr, taken]

theorem queuedUp_peeks (d : ℕ) (bs : List Byte) (s : State) (a n : ℕ) :
    (queuedUp d bs s).peeks a n = (poke (recordAt s d) bs s).peeks a n := rfl

theorem eventRouted (s : State) (e : Ev) (rest : List Ev) (d : ℕ) : Claims.eventRouted s e rest d := by
  intro _ hflight hd hdest hslots hsize hroom
  obtain ⟨l, hstored⟩ := evrDeliver_room (e := e) (seq := s.evr.seq) (s := taken rest s) hsize hroom
  have htail : EVR_QTAIL d ≠ EVR_QWR_LO d ∧ EVR_QTAIL d ≠ EVR_QWR_HI d := by
    simp only [EVR_QTAIL, EVR_QWR_LO, EVR_QWR_HI]
    omega
  have hat : recordAt (taken rest s) d = recordAt s d := rfl
  have hlen := evRecord_length e (s.evr.owed.contains d) s.evr.seq
  have hrom : Config.romSize ≤ recordAt s d :=
    le_trans (by decide : Config.romSize ≤ Config.sramBase) (by rw [recordAt]; omega)
  refine ⟨_, exec_eventRaised_of_one hflight hd hdest hslots, ?_⟩
  rw [hstored]
  refine ⟨queuedUp_flight _ _, queuedUp_seq _ _, ?_, ?_, ?_⟩
  · rw [owing_peeks, queuedUp_peeks]
    have h := poke_peeks (recordAt s d) (evRecord e (s.evr.owed.contains d) s.evr.seq) (taken rest s) hrom
    rw [hlen] at h
    exact h
  · rw [owing_f, State.f, queuedUp, show (EVR_QTAIL_tail d).addr = EVR_QTAIL d from rfl,
      addPair_rd_of_ne _ _ _ _ _ htail.1 htail.2]
    exact f_setF_self (EVR_QTAIL_tail d) _ _ (by simp [EVR_QTAIL_tail]) (by simp [EVR_QTAIL_tail])
  · have hpoked : Kept (fun a => a = EVR_QTAIL d ∨ a = EVR_QWR_LO d ∨ a = EVR_QWR_HI d)
        (fun a => recordAt s d ≤ a ∧ a < recordAt s d + 16) s
        (poke (recordAt s d) (evRecord e (s.evr.owed.contains d) s.evr.seq) (taken rest s)) :=
      poke_kept _ _ (fun x hlo hhi => ⟨hlo, hlen ▸ hhi⟩) (taken_kept rest s)
    exact owing_kept l (addPair_kept (.inr (.inl rfl)) (.inr (.inr rfl)) (setF_kept (.inl rfl) hpoked))

/-- Settles O12, a command at a time. -/
theorem clocksAndEvents : Obligations.ClocksAndEvents := by
  unfold Obligations.ClocksAndEvents
  exact ⟨pllLocks, referenceLost, eventRouted, eventDropped, qbase, qsize, qhead⟩

end Sys2Proof.Proofs.ClockRouter

/-! The sensor ports: their register windows, their events' enables, and what a port's own state leaves. -/

namespace Sys2Proof.Proofs.Ports

open Sys2Proof.Machine
open Sys2Proof.Proofs.Keeping
open Sys2Proof.Proofs.Access

/-- The rows of a port's window. -/
def spRows (n : ℕ) : List RegRow := if n = 0 then rowsSp ++ rowsSp0 else rowsSp

theorem present_of_port {s : State} {n : ℕ} (hn : n < 4) (hon : s.unitOn (dSP n) = true) : n < Config.ports s.variant := by
  have h := present_of_unitOn hon
  rw [domPresent, dSP, if_neg (by omega), if_pos (by omega)] at h
  simpa using h

/-- A register of a port that is on stands in its window. -/
theorem inBlock_port {s : State} {n a off : ℕ} (hn : n < 4) (hon : s.unitOn (dSP n) = true)
    (ha : a = 0x41000000 + off + 0x100000 * n) (hoff : off < 0x100000) (hword : off % 4 = 0) :
    InBlock s.variant a (dSP n) (spRows n) off where
  window := by
    have hdiv : (a - 0x41000000) / 0x100000 = n := by omega
    have hmod : (a - 0x41000000) % 0x100000 = off := by omega
    have hpresent : decide (n < Config.ports s.variant) = true := decide_eq_true (present_of_port hn hon)
    unfold windowAt
    rw [if_neg (by omega), if_neg (by omega), if_neg (by omega), if_neg (by omega), if_neg (by omega), if_neg (by omega),
      if_neg (by omega), if_pos (by omega)]
    simp only [hdiv, hmod, hpresent, spRows]
  aligned := by omega

theorem served_port {s : State} {n a : ℕ} (off : ℕ) (hn : n < 4) (hon : s.unitOn (dSP n) = true)
    (ha : a = 0x41000000 + off + 0x100000 * n) (hoff : off < 0x100000) (hword : off % 4 = 0) : Served a s :=
  served_of_unitOn (inBlock_port hn hon ha hoff hword) hon

/-- A port's events are enabled by three registers. -/
theorem evtOn_port {s t : State} {n : ℕ} (loc : ℕ) (hn : n < 4) (hevt : t.rd (SP_EVT_EN n) = s.rd (SP_EVT_EN n))
    (hjv : t.rd (SP_JV_EVT_EN n) = s.rd (SP_JV_EVT_EN n)) (hss : t.rd (SP_SS_EVT_EN n) = s.rd (SP_SS_EVT_EN n)) :
    t.evtOn (0x10 + n) loc = s.evtOn (0x10 + n) loc := by
  have hblk : 0x10 + n - 0x10 = n := by omega
  simp only [State.evtOn, hblk, hevt, hjv, hss]
  interval_cases n
  all_goals rfl

/-- A register that enables events of port `n`. -/
def EnablesEvents (n a : ℕ) : Prop := a = SP_EVT_EN n ∨ a = SP_JV_EVT_EN n ∨ a = SP_SS_EVT_EN n

theorem evtOn_port_of_kept {p q : ℕ → Prop} {s t : State} {n : ℕ} (loc : ℕ) (hn : n < 4) (hp : ∀ a, EnablesEvents n a → ¬ p a)
    (h : Kept p q s t) : t.evtOn (0x10 + n) loc = s.evtOn (0x10 + n) loc :=
  evtOn_port loc hn (h.1 _ (hp _ (.inl rfl))) (h.1 _ (hp _ (.inr (.inl rfl)))) (h.1 _ (hp _ (.inr (.inr rfl))))

@[simp] theorem modPort_port_self (n : ℕ) (f : PortSt → PortSt) (s : State) : (modPort n f s).port n = f (s.port n) := by
  simp [modPort, State.port, lookD]

theorem modPort_kept {p q : ℕ → Prop} {s₀ s : State} (n : ℕ) (f : PortSt → PortSt) (h : Kept p q s₀ s) :
    Kept p q s₀ (modPort n f s) := h.congr rfl rfl rfl rfl

@[simp] theorem wr_port (a : ℕ) (w : Word) (n : ℕ) (s : State) : (wr a w s).port n = s.port n := rfl

@[simp] theorem setF_port (x : Fld) (v n : ℕ) (s : State) : (setF x v s).port n = s.port n := rfl

@[simp] theorem raise_port (blk loc arg n : ℕ) (s : State) : (raise blk loc arg s).port n = s.port n := by
  rw [State.port, raise_ports, State.port]

theorem showSets_kept {p q : ℕ → Prop} {s₀ s : State} (n : ℕ) (hp : p (SP_SET_STATUS n)) (h : Kept p q s₀ s) :
    Kept p q s₀ (showSets n s) := setF_kept hp (setF_kept hp h)

@[simp] theorem showSets_port (n k : ℕ) (s : State) : (showSets n s).port k = s.port k := rfl

end Sys2Proof.Proofs.Ports

/-! The sensor bus: transfers, direct commands and in-band interrupts (R83, R107 to R109). -/

namespace Sys2Proof.Proofs.Bus

open Sys2Proof.Machine
open Sys2Proof.Proofs.Keeping
open Sys2Proof.Proofs.Access
open Sys2Proof.Proofs.Ports
open Sys2Proof.Claims (Keeps Told)

theorem guardOk_lt {n m : ℕ} (h : n < m) (s : State) : guardOk (decide (n < m)) s = .next s := by
  rw [decide_eq_true h, guardOk_true]

/-! ### The transfer a boundary starts (R108) -/

theorem busGo_of_pick {n : ℕ} {x : Xfer} {s : State} {p : Xfer → Bool} (hon : s.unitOn (dSP n) = true)
    (hpick : s.busPick n = some x) (hp : p x = true) : busGo n p s = busStart n x s := by
  rw [busGo, if_pos hon, hpick]
  exact if_pos hp

/-- What a set's progress shows. -/
def ShowsSets (n a : ℕ) : Prop := a = SP_SET_STATUS n ∨ a = SP_SET_LATE n

theorem busStart_kept (n : ℕ) (x : Xfer) (s : State) : Kept (ShowsSets n) (fun _ => False) s (busStart n x s) := by
  have hrun : Kept (ShowsSets n) (fun _ => False) s (modPort n (fun p => { p with busRun := some x }) s) :=
    modPort_kept n _ (Kept.refl _ _ s)
  unfold busStart
  dsimp only
  split_ifs
  · exact modPort_kept n _ hrun
  · exact modPort_kept n _ hrun
  · exact modPort_kept n _ hrun
  · split
    · exact hrun
    · next q t _ =>
      have hsets : Kept (ShowsSets n) (fun _ => False) s (modPort n (fun p => { p with sets := { p.sets with
          sets := { q with writes := (setGroup q.writes).2 } :: t } }) (modPort n (fun p => { p with busRun := some x }) s)) :=
        modPort_kept n _ hrun
      exact showSets_kept n (.inl rfl) (ite_kept (raise_kept (bump_kept (.inr rfl) hsets)) hsets)

theorem busStart_busRun (n : ℕ) (x : Xfer) (s : State) : ((busStart n x s).port n).busRun = some x := by
  unfold busStart
  dsimp only
  split_ifs
  · simp
  · simp
  · simp
  · split
    · simp
    · simp only [showSets_port]
      split_ifs
      · simp [bump, bumpBy]
      · simp

theorem busTransferStart (s : State) (n : ℕ) (x : Xfer) : Claims.busTransferStart s n x := by
  intro hn hon hpick
  refine ⟨busStart n x s, ?_, busStart_busRun n x s, busStart_kept n x s⟩
  rw [exec_busTransferStart, execBusTransferStart, guardOk_lt hn, busGo_of_pick hon hpick rfl]

/-! ### The end of a transfer (R109) -/

/-- Nothing runs on port `n`'s bus. -/
def ended (n : ℕ) (s : State) : State := modPort n (fun p => { p with busRun := none }) s

theorem exec_busTransferDone_running {s : State} {n : ℕ} {x : Xfer} {nack : Bool} {b : Byte} (hn : n < 4)
    (hon : s.unitOn (dSP n) = true) (hrun : (s.port n).busRun = some x) :
    exec (.busTransferDone n nack b) s = .next (if x.again then
        (if (examDetect (0x1006 + n * 256) nack x.addr 0 (ended n s)).1
          then xferBad n x (examDetect (0x1006 + n * 256) nack x.addr 0 (ended n s)).2
          else xferGood n x b (examDetect (0x1006 + n * 256) nack x.addr 0 (ended n s)).2)
      else if nack then modPort n (fun p => { p with busAgain := some { x with again := true } }) (ended n s)
      else xferGood n x b (ended n s)) := by
  rw [exec_busTransferDone, execBusTransferDone, guardOk_lt hn, if_pos hon, busDone, hrun]
  rfl

theorem busNack (s : State) (n : ℕ) (x : Xfer) (b : Byte) : Claims.busNack s n x b := by
  intro hn hon hrun hagain
  refine ⟨_, exec_busTransferDone_running hn hon hrun, ?_⟩
  rw [hagain, if_neg Bool.false_ne_true, if_pos rfl]
  refine ⟨?_, ?_, modPort_kept n _ (modPort_kept n _ (Kept.refl _ _ s))⟩
  · rw [modPort_port_self, ended, modPort_port_self]
  · rw [modPort_port_self]

/-- The state with these counts of the detectors. -/
def counting (r : List (ℕ × RateSt)) (i : List ℕ) (s : State) : State :=
  { s with err := { s.err with rates := r, injRates := i } }

/-- A second NACK is a detection that its rate judges. -/
theorem detect_nack {n : ℕ} (hn : n < 4) (addr : ℕ) (s : State) :
    ∃ r i, detect (0x1006 + n * 256) false addr 0 s = counting r i s := by
  have hjudged : hasRetry (0x1006 + n * 256) = false ∧ lastingAtOnce (0x1006 + n * 256) = false := by
    interval_cases n
    all_goals decide
  rw [detect, detectN, hjudged.1, hjudged.2, if_neg (by decide), if_neg (by decide)]
  exact ⟨_, _, rfl⟩

/-- What a direct transfer shows. -/
def ShowsDirect (n a : ℕ) : Prop := a = SP_DIR_STATUS n ∨ a = SP_BUS_NACK n

/-- A direct transfer done well, with the byte it read. -/
def directGood (n : ℕ) (x : Xfer) (b : Byte) (s : State) : State :=
  setF (SP_DIR_STATUS_busy n) 0 (setF (SP_DIR_STATUS_done n) 1 (if x.rd then setF (SP_DIR_STATUS_rdata n) b.toNat s else s))

/-- A direct transfer whose retry failed too. -/
def directBad (n : ℕ) (x : Xfer) (s : State) : State :=
  setF (SP_DIR_STATUS_busy n) 0 (setF (SP_DIR_STATUS_done n) 1 (setF (SP_DIR_STATUS_nack n) 1
    (raise (0x10 + n) 0x0A x.addr (bump (SP_BUS_NACK n) s))))

theorem xferGood_direct {n : ℕ} {x : Xfer} {b : Byte} {s : State} (hkind : x.kind = 2) :
    xferGood n x b s = directGood n x b s := by
  rw [xferGood, hkind]
  rfl

theorem xferBad_direct {n : ℕ} {x : Xfer} {s : State} (hkind : x.kind = 2) : xferBad n x s = directBad n x s := by
  rw [xferBad, hkind]
  rfl

theorem exec_busDirect_good {s : State} {n : ℕ} {x : Xfer} {b : Byte} (hn : n < 4) (hon : s.unitOn (dSP n) = true)
    (hslots : s.err.slots = []) (hrun : (s.port n).busRun = some x) (hkind : x.kind = 2) :
    exec (.busTransferDone n false b) s = .next (directGood n x b (ended n s)) := by
  rw [exec_busTransferDone_running hn hon hrun, examDetect_calm _ _ _ _ (show (ended n s).err.slots = [] from hslots),
    if_neg Bool.false_ne_true, if_neg Bool.false_ne_true, xferGood_direct hkind, ite_self]

theorem exec_busDirect_bad {s : State} {n : ℕ} {x : Xfer} {b : Byte} (hn : n < 4) (hon : s.unitOn (dSP n) = true)
    (hslots : s.err.slots = []) (hrun : (s.port n).busRun = some x) (hkind : x.kind = 2) (hagain : x.again = true) :
    ∃ r i, exec (.busTransferDone n true b) s = .next (directBad n x (counting r i (ended n s))) := by
  obtain ⟨r, i, hcount⟩ := detect_nack hn x.addr (ended n s)
  refine ⟨r, i, ?_⟩
  rw [exec_busTransferDone_running hn hon hrun, examDetect_real _ _ _ _ (show (ended n s).err.slots = [] from hslots),
    if_pos hagain, if_pos rfl, hcount, xferBad_direct hkind]

theorem directGood_busy (n : ℕ) (x : Xfer) (b : Byte) (s : State) : (directGood n x b s).f (SP_DIR_STATUS_busy n) = 0 :=
  f_clear (SP_DIR_STATUS_busy n) _ rfl

theorem directGood_done (n : ℕ) (x : Xfer) (b : Byte) (s : State) : (directGood n x b s).f (SP_DIR_STATUS_done n) = 1 :=
  (f_setF_apart (SP_DIR_STATUS_busy n) (SP_DIR_STATUS_done n) 0 _ rfl rfl).trans (f_flag (SP_DIR_STATUS_done n) _ rfl)

theorem directGood_rdata {n : ℕ} {x : Xfer} (b : Byte) (s : State) (hrd : x.rd = true) :
    (directGood n x b s).f (SP_DIR_STATUS_rdata n) = b.toNat := by
  rw [directGood, if_pos hrd, f_setF_apart (SP_DIR_STATUS_busy n) (SP_DIR_STATUS_rdata n) 0 _ rfl rfl,
    f_setF_apart (SP_DIR_STATUS_done n) (SP_DIR_STATUS_rdata n) 1 _ rfl rfl]
  exact f_setF_eq (SP_DIR_STATUS_rdata n) _ s rfl b.isLt

theorem directBad_busy (n : ℕ) (x : Xfer) (s : State) : (directBad n x s).f (SP_DIR_STATUS_busy n) = 0 :=
  f_clear (SP_DIR_STATUS_busy n) _ rfl

theorem directBad_done (n : ℕ) (x : Xfer) (s : State) : (directBad n x s).f (SP_DIR_STATUS_done n) = 1 :=
  (f_setF_apart (SP_DIR_STATUS_busy n) (SP_DIR_STATUS_done n) 0 _ rfl rfl).trans (f_flag (SP_DIR_STATUS_done n) _ rfl)

theorem directBad_nack (n : ℕ) (x : Xfer) (s : State) : (directBad n x s).f (SP_DIR_STATUS_nack n) = 1 :=
  ((f_setF_apart (SP_DIR_STATUS_busy n) (SP_DIR_STATUS_nack n) 0 _ rfl rfl).trans
    (f_setF_apart (SP_DIR_STATUS_done n) (SP_DIR_STATUS_nack n) 1 _ rfl rfl)).trans (f_flag (SP_DIR_STATUS_nack n) _ rfl)

theorem status_ne_count (n : ℕ) : SP_BUS_NACK n ≠ SP_DIR_STATUS n := by
  simp only [SP_BUS_NACK, SP_DIR_STATUS]
  omega

theorem setF_rd_of_ne (x : Fld) (v a : ℕ) (s : State) (h : a ≠ x.addr) : (setF x v s).rd a = s.rd a := rd_wr_of_ne _ _ _ _ h

theorem directBad_count (n : ℕ) (x : Xfer) (s : State) : (directBad n x s).rd (SP_BUS_NACK n) = s.rd (SP_BUS_NACK n) + 1 := by
  rw [directBad, setF_rd_of_ne _ _ _ _ (status_ne_count n), setF_rd_of_ne _ _ _ _ (status_ne_count n),
    setF_rd_of_ne _ _ _ _ (status_ne_count n), raise_rd, bump, bumpBy, rd_wr_self]
  rfl

/-- The register that shows direct transfers, alone. -/
theorem directGood_kept (n : ℕ) (x : Xfer) (b : Byte) (s : State) :
    Kept (· = SP_DIR_STATUS n) (fun _ => False) s (directGood n x b s) := by
  have hrefl := Kept.refl (· = SP_DIR_STATUS n) (fun _ => False) s
  exact setF_kept rfl (setF_kept rfl (ite_kept (setF_kept rfl hrefl) hrefl))

theorem directBad_kept (n : ℕ) (x : Xfer) (s : State) : Kept (ShowsDirect n) (fun _ => False) s (directBad n x s) :=
  setF_kept (.inl rfl) (setF_kept (.inl rfl) (setF_kept (.inl rfl) (raise_kept (bump_kept (.inr rfl) (Kept.refl _ _ s)))))

theorem ended_kept (p q : ℕ → Prop) (n : ℕ) (s : State) : Kept p q s (ended n s) := modPort_kept n _ (Kept.refl _ _ s)

theorem enables_not_direct {n a : ℕ} (h : EnablesEvents n a) : ¬ ShowsDirect n a := by
  simp only [EnablesEvents, SP_EVT_EN, SP_JV_EVT_EN, SP_SS_EVT_EN] at h
  simp only [ShowsDirect, SP_DIR_STATUS, SP_BUS_NACK]
  omega

theorem setF_flight (x : Fld) (v : ℕ) (s : State) : (setF x v s).evr = s.evr := rfl

theorem directBad_told (n : ℕ) (hn : n < 4) (x : Xfer) (s : State) : Told (0x10 + n) 0x0A x.addr s (directBad n x s) := by
  have hkept : Kept (ShowsDirect n) (fun _ => False) s (bump (SP_BUS_NACK n) s) := bump_kept (.inr rfl) (Kept.refl _ _ s)
  exact told_congr (told_raise (evtOn_port_of_kept 0x0A hn (fun _ h => enables_not_direct h) hkept) rfl) rfl

theorem busDirect (s : State) (n : ℕ) (x : Xfer) (nack : Bool) (b : Byte) : Claims.busDirect s n x nack b := by
  intro hn hon hslots hrun hkind hretry
  have hended : ((ended n s).port n).busRun = none := by rw [ended, modPort_port_self]
  have hnack : (ended n s).rd (SP_BUS_NACK n) = s.rd (SP_BUS_NACK n) := rfl
  cases nack with
  | false =>
    refine ⟨_, exec_busDirect_good hn hon hslots hrun hkind, ?_, directGood_busy n x b _, directGood_done n x b _, ?_, ?_⟩
    · rw [directGood, setF_port, setF_port]
      split_ifs
      · rw [setF_port, hended]
      · exact hended
    · exact ⟨((directGood_kept n x b _).1 _ (status_ne_count n)).trans hnack, fun hrd => directGood_rdata b _ hrd⟩
    · exact ((ended_kept _ _ n s).trans (directGood_kept n x b _)).mono (fun _ h => .inl h) (fun _ h => h)
  | true =>
    have hagain : x.again = true := hretry.resolve_right Bool.noConfusion
    obtain ⟨r, i, hexec⟩ := exec_busDirect_bad (b := b) hn hon hslots hrun hkind hagain
    have hcounted : Kept (ShowsDirect n) (fun _ => False) s (counting r i (ended n s)) :=
      (ended_kept _ _ n s).congr rfl rfl rfl rfl
    refine ⟨_, hexec, ?_, directBad_busy n x _, directBad_done n x _, ⟨directBad_nack n x _, ?_, ?_⟩, ?_⟩
    · rw [directBad, setF_port, setF_port, setF_port, raise_port]
      exact hended
    · rw [directBad_count]
      rfl
    · exact directBad_told n hn x (counting r i (ended n s))
    · exact hcounted.trans (directBad_kept n x _)

/-! ### Direct commands (R83, R108) -/

/-- The transfer that a direct command asks for. -/
def directXfer (rd : Bool) (v : Word) : Xfer :=
  { kind := 2, addr := bitsOf v.toNat 30 24, reg := bitsOf v.toNat 23 8,
    bytes := if rd then [] else [BitVec.ofNat 8 v.toNat], rd := rd, stop := true }

/-- The direction bit set apart, the command's fields are the word's. -/
theorem directXfer_setBits (v : Word) (rd : Bool) :
    directXfer rd (setBits v 31 31 (if rd then 1 else 0)) = directXfer rd v := by
  have hbyte : ∀ k, BitVec.ofNat 8 (setBits v 31 31 k).toNat = BitVec.ofNat 8 v.toNat := fun k => by
    have h := setBits_mod v 31 31 k (le_refl _) (le_refl _)
    apply BitVec.eq_of_toNat_eq
    rw [BitVec.toNat_ofNat, BitVec.toNat_ofNat]
    omega
  rw [directXfer, directXfer, hbyte, bitsOf_setBits_of_above _ _ _ _ _ _ (le_refl _) (le_refl _) (by decide) (by decide),
    bitsOf_setBits_of_above _ _ _ _ _ _ (le_refl _) (le_refl _) (by decide) (by decide)]

/-- A direct transfer waits. -/
def directAsked (n : ℕ) (x : Xfer) (s : State) : State :=
  setF (SP_DIR_STATUS_busy n) 1 (setF (SP_DIR_STATUS_done n) 0 (setF (SP_DIR_STATUS_nack n) 0
    (modPort n (fun p => { p with dirQ := some x }) s)))

theorem directAsked_dirQ (n : ℕ) (x : Xfer) (s : State) : ((directAsked n x s).port n).dirQ = some x := by
  rw [directAsked, setF_port, setF_port, setF_port, modPort_port_self]

theorem directAsked_busy (n : ℕ) (x : Xfer) (s : State) : (directAsked n x s).f (SP_DIR_STATUS_busy n) = 1 :=
  f_flag (SP_DIR_STATUS_busy n) _ rfl

theorem directAsked_done (n : ℕ) (x : Xfer) (s : State) : (directAsked n x s).f (SP_DIR_STATUS_done n) = 0 :=
  (f_setF_apart (SP_DIR_STATUS_busy n) (SP_DIR_STATUS_done n) 1 _ rfl rfl).trans (f_clear (SP_DIR_STATUS_done n) _ rfl)

theorem directAsked_nack (n : ℕ) (x : Xfer) (s : State) : (directAsked n x s).f (SP_DIR_STATUS_nack n) = 0 :=
  ((f_setF_apart (SP_DIR_STATUS_busy n) (SP_DIR_STATUS_nack n) 1 _ rfl rfl).trans
    (f_setF_apart (SP_DIR_STATUS_done n) (SP_DIR_STATUS_nack n) 0 _ rfl rfl)).trans (f_clear (SP_DIR_STATUS_nack n) _ rfl)

theorem bitOf_setBits_bool (v : Word) (rd : Bool) : bitOf (setBits v 31 31 (if rd then 1 else 0)).toNat 31 = rd := by
  have h := bitsOf_setBits_self v 31 31 (if rd then 1 else 0) (le_refl _) (le_refl _)
  cases rd
  all_goals simpa [bitOf, bitsOf] using h

theorem dirCmdWrite_eq (n : ℕ) (v : Word) (rd : Bool) (s : State) : dirCmdWrite n (setBits v 31 31 (if rd then 1 else 0)) s =
    if s.b (SP_DIR_STATUS_busy n) = true ∨ s.b (SP_CTRL_en n) = false then s else directAsked n (directXfer rd v) s := by
  have hcond : (s.b (SP_DIR_STATUS_busy n) || !s.b (SP_CTRL_en n)) = true ↔
      s.b (SP_DIR_STATUS_busy n) = true ∨ s.b (SP_CTRL_en n) = false := by rw [Bool.or_eq_true, Bool.not_eq_true']
  rw [dirCmdWrite]
  dsimp only
  rw [bitOf_setBits_bool, ← directXfer_setBits v rd]
  simp only [hcond]
  rfl

/-- A direct command is answered, and ignored or taken. -/
theorem directCommand {i : Instr} (s : State) (r : Requester) (n : ℕ) (v : Word) (rd : Bool) (hn : n < 4)
    (hon : s.unitOn (dSP n) = true)
    (hexec : exec i s = .next (writeBy r (SP_DIR_CMD n) (dirCmdWrite n (setBits v 31 31 (if rd then 1 else 0))) s)) :
    Claims.Writes i r (fun a => a = SP_DIR_STATUS n) s (fun t =>
      if s.b (SP_DIR_STATUS_busy n) = true ∨ s.b (SP_CTRL_en n) = false
      then t.port n = s.port n ∧ t.rd (SP_DIR_STATUS n) = s.rd (SP_DIR_STATUS n)
      else (t.port n).dirQ = some (directXfer rd v) ∧
        t.f (SP_DIR_STATUS_busy n) = 1 ∧ t.f (SP_DIR_STATUS_done n) = 0 ∧ t.f (SP_DIR_STATUS_nack n) = 0) := by
  refine writes_of_served hexec (served_port 0x404 hn hon rfl (by decide) rfl) (fun l e => ?_) (fun l => ?_)
  · rw [dirCmdWrite_eq, held_b, held_b]
    simp only [answered_f, answered_rd, answered_port]
    split_ifs
    · exact ⟨rfl, rfl⟩
    · exact ⟨directAsked_dirQ n _ _, directAsked_busy n _ _, directAsked_done n _ _, directAsked_nack n _ _⟩
  · rw [dirCmdWrite_eq]
    exact ite_kept (kept_held _ _ l s) (setF_kept rfl (setF_kept rfl (setF_kept rfl (modPort_kept n _ (kept_held _ _ l s)))))

theorem dirRead (s : State) (r : Requester) (n : ℕ) (v : Word) : Claims.dirRead s r n v := fun hn hon =>
  directCommand s r n v true hn hon (by rw [exec_dirRead, execDirRead, guardOk_lt hn]; rfl)

theorem dirWrite (s : State) (r : Requester) (n : ℕ) (v : Word) : Claims.dirWrite s r n v := fun hn hon =>
  directCommand s r n v false hn hon (by rw [exec_dirWrite, execDirWrite, guardOk_lt hn]; rfl)

/-! ### In-band interrupts (R107) -/

theorem ibi (s : State) (n : ℕ) (b : Byte) : Claims.ibi s n b := by
  intro hn hon hen hmode
  refine ⟨_, ?_, told_raise rfl rfl, raise_kept (Kept.refl _ _ s)⟩
  rw [exec_ibi, execIbi, guardOk_lt hn, hon, hen, hmode]
  rfl

/-- Settles O18, a command at a time. -/
theorem sensorBus : Obligations.SensorBus := by
  unfold Obligations.SensorBus
  exact ⟨busTransferStart, busNack, busDirect, dirRead, dirWrite, ibi⟩

end Sys2Proof.Proofs.Bus

/-! The settings sequencer (R46 to R50). -/

namespace Sys2Proof.Proofs.Settings

open Sys2Proof.Machine
open Sys2Proof.Proofs.Keeping
open Sys2Proof.Proofs.Access
open Sys2Proof.Proofs.Ports
open Sys2Proof.Proofs.Bus
open Sys2Proof.Claims (Keeps Told)

/-! ### Building and closing sets (R49, R50) -/

/-- A write joined to the set being built. -/
def pushed (n : ℕ) (v : Word) (s : State) : State :=
  showSets n (modPort n (fun p => { p with sets := { p.sets with build := p.sets.build ++ [setBits v 31 31 0] } }) s)

theorem setPush_eq (n : ℕ) (v : Word) (s : State) : Machine.setPush n v s =
    if 256 ≤ setWrites (s.port n).sets ∨ 16 ≤ (s.port n).sets.sets.length then flag (SP_SET_STATUS_full n) s
    else pushed n v s := by
  simp only [Machine.setPush, pushed, Bool.or_eq_true, decide_eq_true_eq]

theorem pushed_sets (n : ℕ) (v : Word) (s : State) : ((pushed n v s).port n).sets =
    { (s.port n).sets with build := (s.port n).sets.build ++ [setBits v 31 31 0] } := by
  rw [pushed, showSets_port, modPort_port_self]

theorem pushed_writes {n : ℕ} (v : Word) {s : State} (h : setWrites (s.port n).sets < 256) :
    (pushed n v s).f (SP_SET_STATUS_writes n) = setWrites (s.port n).sets + 1 := by
  have hcount : setWrites { (s.port n).sets with build := (s.port n).sets.build ++ [setBits v 31 31 0] } =
      setWrites (s.port n).sets + 1 := by
    simp only [setWrites, List.length_append, List.length_singleton]
    omega
  rw [pushed, showSets, modPort_port_self, hcount]
  refine f_setF_eq (SP_SET_STATUS_writes n) _ _ rfl ?_
  show _ < 512
  omega

theorem setPush (s : State) (r : Requester) (n : ℕ) (v : Word) : Claims.setPush s r n v := by
  intro hn hon
  refine writes_of_served (a := SP_SET_DATA n) (k := Machine.setPush n v) (by rw [exec_setPush, execSetPush, guardOk_lt hn])
    (served_port 0x208 hn hon rfl (by decide) rfl) (fun l e => ?_) (fun l => ?_)
  · rw [setPush_eq, held_port]
    simp only [answered_f, answered_port]
    split_ifs with h
    · exact ⟨f_flag (SP_SET_STATUS_full n) (held l s) rfl, rfl⟩
    · exact ⟨pushed_sets n v (held l s), pushed_writes v (show setWrites ((held l s).port n).sets < 256 by rw [held_port]; omega)⟩
  · rw [setPush_eq]
    exact ite_kept (flag_kept rfl (kept_held _ _ l s)) (showSets_kept n rfl (modPort_kept n _ (kept_held _ _ l s)))

/-- The set built so far, closed. -/
def closed (n : ℕ) (v : Word) (s : State) : SetQ :=
  ⟨(s.port n).sets.build, bitsOf v.toNat 15 0, s.f (SP_SET_TARGET_pfn n), (s.port n).sets.count + 1⟩

/-- The set built so far joins the queue. -/
def queuedSet (n : ℕ) (v : Word) (s : State) : State :=
  relate n (s.f (SP_SET_TARGET_pfn n)) <| showSets n <| modPort n (fun p => { p with sets := { p.sets with
    build := [], sets := p.sets.sets ++ [closed n v s], count := (s.port n).sets.count + 1,
    prev := some (s.f (SP_SET_TARGET_pfn n)),
    want := p.sets.want ++ [((s.port n).sets.count + 1, s.f (SP_SET_TARGET_pfn n))] } }) s

/-- A target `g` does not lie behind the set before. -/
def inOrder (q : SetSt) (g : ℕ) : Bool :=
  (q.prev <|> q.sets.getLast?.map (fun x => x.target)).all (fun p => g == p || ahead g p)

theorem ite_not_bool (b : Bool) (u t : State) : (if (!b) = true then u else t) = if b = true then t else u := by
  cases b
  · rfl
  · rfl

theorem setClose_eq (n : ℕ) (v : Word) (s : State) : Machine.setClose n v s =
    if (s.port n).sets.build = [] then s
    else if inOrder (s.port n).sets (s.f (SP_SET_TARGET_pfn n)) = true then queuedSet n v s
    else flag (SP_SET_STATUS_order_err n) s := by
  unfold Machine.setClose inOrder
  dsimp only
  simp only [List.isEmpty_iff]
  refine if_congr Iff.rfl rfl ?_
  cases ((s.port n).sets.prev <|> (s.port n).sets.sets.getLast?.map (fun x => x.target)) with
  | none => rfl
  | some p =>
    rw [Option.all_some]
    exact ite_not_bool _ _ _

theorem relate_kept {p q : ℕ → Prop} {s₀ s : State} (n t : ℕ) (h : Kept p q s₀ s) : Kept p q s₀ (relate n t s) :=
  modPort_kept n _ h

theorem relate_sets (n t : ℕ) (s : State) : ((relate n t s).port n).sets = (s.port n).sets := by
  rw [relate, modPort_port_self]

theorem queuedSet_sets (n : ℕ) (v : Word) (s : State) : ((queuedSet n v s).port n).sets.build = [] ∧
    ((queuedSet n v s).port n).sets.prev = some (s.f (SP_SET_TARGET_pfn n)) ∧
    ((queuedSet n v s).port n).sets.sets = (s.port n).sets.sets ++ [closed n v s] := by
  rw [queuedSet, relate_sets, showSets_port, modPort_port_self]
  exact ⟨rfl, rfl, rfl⟩

theorem setClose (s : State) (r : Requester) (n : ℕ) (v : Word) : Claims.setClose s r n v := by
  intro hn hon _ _
  refine writes_of_served (a := SP_SET_CLOSE n) (k := Machine.setClose n v) (by rw [exec_setClose, execSetClose, guardOk_lt hn])
    (served_port 0x210 hn hon rfl (by decide) rfl) (fun l e => ?_) (fun l => ?_)
  · rw [setClose_eq, held_port, held_f, inOrder]
    simp only [answered_f, answered_port]
    split_ifs with hempty hord
    · rfl
    · exact queuedSet_sets n v (held l s)
    · exact ⟨f_flag (SP_SET_STATUS_order_err n) (held l s) rfl, rfl⟩
  · rw [setClose_eq]
    exact ite_kept (kept_held _ _ l s) (ite_kept
      (relate_kept n _ (showSets_kept n rfl (modPort_kept n _ (kept_held _ _ l s)))) (flag_kept rfl (kept_held _ _ l s)))

/-! ### Transfers of settings and link commands (R46, R48, R76, R108) -/

theorem busStart_link_kept {n : ℕ} {x : Xfer} (s : State) (hkind : x.kind = 0) (p q : ℕ → Prop) :
    Kept p q s (busStart n x s) := by
  have hrun : Kept p q s (modPort n (fun p => { p with busRun := some x }) s) := modPort_kept n _ (Kept.refl _ _ s)
  rw [busStart]
  dsimp only
  split_ifs
  · exact modPort_kept n _ hrun
  · exact modPort_kept n _ hrun

theorem busStart_set_kept {n : ℕ} {x : Xfer} (s : State) (hkind : x.kind = 1) (hstop : x.stop = false) (q : ℕ → Prop) :
    Kept (· = SP_SET_STATUS n) q s (busStart n x s) := by
  have hrun : Kept (· = SP_SET_STATUS n) q s (modPort n (fun p => { p with busRun := some x }) s) :=
    modPort_kept n _ (Kept.refl _ _ s)
  unfold busStart
  dsimp only
  rw [hkind, hstop, if_neg (by decide : ¬ (1 : ℕ) = 0), if_neg (by decide : ¬ (1 : ℕ) = 2)]
  split
  · exact modPort_kept n _ hrun
  · split
    · exact hrun
    · refine showSets_kept n rfl ?_
      rw [Bool.false_and, if_neg Bool.false_ne_true]
      exact modPort_kept n _ hrun

theorem setWriteSend (s : State) (n : ℕ) (x : Xfer) : Claims.setWriteSend s n x := by
  intro hn hon hpick hkind hstop
  refine ⟨busStart n x s, ?_, busStart_busRun n x s, busStart_set_kept s hkind hstop _⟩
  rw [exec_setWriteSend, execSetWriteSend, guardOk_lt hn, busGo_of_pick hon hpick (by rw [hkind, hstop]; rfl)]

theorem mapCmdSend (s : State) (n : ℕ) (x : Xfer) : Claims.mapCmdSend s n x := by
  intro hn hon hpick hkind
  refine ⟨busStart n x s, ?_, busStart_busRun n x s, busStart_link_kept s hkind _ _⟩
  rw [exec_mapCmdSend, execMapCmdSend, guardOk_lt hn, busGo_of_pick hon hpick (by rw [hkind]; rfl)]

/-- The frame that a set of target `t` is written in the window of (R46). -/
def aimOf (s : State) (n t : ℕ) : ℕ := (t + 2 ^ 32 - s.f (SP_SET_CFG_lat n)) % 2 ^ 32

/-- The set's writes sent, and its last one on the bus. -/
def lastSent (n : ℕ) (x : Xfer) (q : SetQ) (t : List SetQ) (s : State) : State :=
  modPort n (fun p => { p with sets := { p.sets with sets := { q with writes := (setGroup q.writes).2 } :: t } })
    (modPort n (fun p => { p with busRun := some x }) s)

theorem busStart_last {n : ℕ} {x : Xfer} {q : SetQ} {t : List SetQ} {s : State} (hkind : x.kind = 1) (hstop : x.stop = true)
    (hagain : x.again = false) (hsets : (s.port n).sets.sets = q :: t) : busStart n x s = showSets n
      (if x.from_ = aimOf s n q.target then lastSent n x q t s
      else raise (0x10 + n) 0x20 q.target (bump (SP_SET_LATE n) (lastSent n x q t s))) := by
  have haim : (lastSent n x q t s).f (SP_SET_CFG_lat n) = s.f (SP_SET_CFG_lat n) := rfl
  unfold busStart
  dsimp only
  rw [hkind, hagain, modPort_port_self, hsets, hstop]
  simp only [Bool.false_eq_true, if_false, one_ne_zero, OfNat.one_ne_ofNat, Bool.true_and, bne_iff_ne]
  exact congrArg (showSets n) (ite_not (x.from_ = aimOf s n q.target) _ _)

theorem late_ne_status (n : ℕ) : SP_SET_LATE n ≠ SP_SET_STATUS n := by
  simp only [SP_SET_LATE, SP_SET_STATUS]
  omega

theorem showSets_rd_late (n : ℕ) (s : State) : (showSets n s).rd (SP_SET_LATE n) = s.rd (SP_SET_LATE n) := by
  rw [showSets, setF_rd_of_ne _ _ _ _ (late_ne_status n), setF_rd_of_ne _ _ _ _ (late_ne_status n)]

theorem enables_not_late {n a : ℕ} (h : EnablesEvents n a) : a ≠ SP_SET_LATE n := by
  simp only [EnablesEvents, SP_EVT_EN, SP_JV_EVT_EN, SP_SS_EVT_EN] at h
  simp only [SP_SET_LATE]
  omega

theorem setLastWrite (s : State) (n : ℕ) (x : Xfer) (q : SetQ) : Claims.setLastWrite s n x q := by
  intro hn hon hpick hkind hstop hagain hhead
  obtain ⟨t, hsets⟩ : ∃ t, (s.port n).sets.sets = q :: t := List.head?_eq_some_iff.mp hhead
  refine ⟨busStart n x s, ?_, busStart_busRun n x s, busStart_kept n x s, ?_⟩
  · rw [exec_setLastWrite, execSetLastWrite, guardOk_lt hn, busGo_of_pick hon hpick (by rw [hkind, hstop]; rfl)]
  · rw [busStart_last hkind hstop hagain hsets, ← aimOf]
    split_ifs
    · exact (showSets_rd_late n _).trans rfl
    · refine ⟨?_, ?_⟩
      · rw [showSets_rd_late, raise_rd, bump, bumpBy, rd_wr_self]
        rfl
      · have hbump : Kept (· = SP_SET_LATE n) (fun _ => False) s (bump (SP_SET_LATE n) (lastSent n x q t s)) :=
          bump_kept rfl (modPort_kept n _ (modPort_kept n _ (Kept.refl _ _ s)))
        exact told_congr (told_raise (evtOn_port_of_kept 0x20 hn (fun _ h => enables_not_late h) hbump) rfl) rfl

/-- Settles O17, a command at a time. -/
theorem settingsSequencer : Obligations.SettingsSequencer := by
  unfold Obligations.SettingsSequencer
  exact ⟨setPush, setClose, setWriteSend, setLastWrite, mapCmdSend⟩

end Sys2Proof.Proofs.Settings

/-! Trigger pulses, and the time unit's increment, set, step and seconds (R38, R359 to R361, R368). -/

namespace Sys2Proof.Proofs.TimeUnit

open Sys2Proof.Machine
open Sys2Proof.Proofs.Keeping
open Sys2Proof.Proofs.Access
open Sys2Proof.Proofs.Bus
open Sys2Proof.Claims (Keeps Calm)

/-! ### Trigger pulses (R38) -/

/-- The state at a later instant, with this running time and these events in flight. -/
def laterAt (now : ℕ) (x : TsuSt) (v : EvrSt) (s : State) : State := { s with now := now, tsu := x, evr := v }

theorem advanceTo_laterAt {s : State} (t : ℕ) (h : Calm s) : ∃ x v, advanceTo t s = laterAt (max s.now t) x v s := by
  obtain ⟨hslots, hincr, hset, hstep⟩ := h
  exact advanceTo_calm t s hslots hincr hset hstep

/-- The state with these trigger outputs. -/
def withRef (x : RefSt) (s : State) : State := { s with ref := x }

theorem withRef_laterAt_kept {p q : ℕ → Prop} (x : RefSt) (now : ℕ) (y : TsuSt) (v : EvrSt) (s : State) :
    Kept p q s (withRef x (laterAt now y v s)) := (Kept.refl p q s).congr rfl rfl rfl rfl

theorem trigStart (s : State) (n : ℕ) (p : Pulse) (rest : List Pulse) : Claims.trigStart s n p rest := by
  intro hn hon hcalm hpulses
  obtain ⟨y, v, hlater⟩ := advanceTo_laterAt p.start hcalm
  refine ⟨_, by rw [exec_trigPulseStart, execTrigPulseStart, guardOk_lt hn, hon, hpulses], ?_⟩
  dsimp only [Bool.not_true, Bool.false_eq_true, if_false]
  rw [hlater]
  refine ⟨?_, ?_, rfl, withRef_laterAt_kept _ _ y v s⟩
  · show (if s.ref.trigHigh.contains n = true then s.ref.trigHigh else n :: s.ref.trigHigh).contains n = true
    split_ifs with h
    · exact h
    · simp
  · simp [lookD]

theorem trigEnd (s : State) (n : ℕ) (p : Pulse) : Claims.trigEnd s n p := by
  intro hn hon hcalm hactive
  obtain ⟨y, v, hlater⟩ := advanceTo_laterAt p.stop hcalm
  refine ⟨_, by rw [exec_trigPulseEnd, execTrigPulseEnd, guardOk_lt hn, hon, hactive], ?_⟩
  dsimp only [Bool.not_true, Bool.false_eq_true, if_false]
  rw [hlater]
  refine ⟨?_, ?_, rfl, withRef_laterAt_kept _ _ y v s⟩
  · show (s.ref.trigHigh.filter (· != n)).contains n = false
    simp
  · simp [lookD]

/-! ### The time unit's commands (R360, R361) -/

theorem tsuCmd_window (v : Variant) : InBlock v TSU_CMD dCTRL rowsTsu (TSU_CMD - 0x47202000) := ⟨rfl, rfl⟩

theorem tsuIncrFrac_window (v : Variant) : InBlock v TSU_INCR_FRAC dCTRL rowsTsu (TSU_INCR_FRAC - 0x47202000) := ⟨rfl, rfl⟩

/-- The state with this time unit. -/
def withTsu (x : TsuSt) (s : State) : State := { s with tsu := x }

theorem withTsu_kept {p q : ℕ → Prop} {s₀ s : State} (x : TsuSt) (h : Kept p q s₀ s) : Kept p q s₀ (withTsu x s) :=
  h.congr rfl rfl rfl rfl

@[simp] theorem answered_tsu (r : Requester) (w : Word) (e : List Ev) (t : State) : (answer r w (telling e t)).tsu = t.tsu := rfl

@[simp] theorem held_tsu (l : List (ℕ × ℕ)) (s : State) : (held l s).tsu = s.tsu := rfl

theorem tsuIncrCommit_eq (v : Word) (s : State) : tsuIncrCommit v s =
    if 3 * 2 ^ 32 ≤ s.tsu.staged.getD (s.f TSU_INCR_NS_incr_ns) * 2 ^ 32 + v.toNat ∧
        s.tsu.staged.getD (s.f TSU_INCR_NS_incr_ns) * 2 ^ 32 + v.toNat ≤ 5 * 2 ^ 32
    then withTsu { s.tsu with newIncr := some (s.tsu.staged.getD (s.f TSU_INCR_NS_incr_ns), v.toNat) } s
    else flag TSU_STATUS_bad_write s := by
  have hv := v.isLt
  have hzero : v ≠ 0 ↔ v.toNat ≠ 0 := not_congr ⟨fun h => by rw [h]; rfl, fun h => BitVec.eq_of_toNat_eq h⟩
  rw [← ite_not, tsuIncrCommit]
  refine if_congr ?_ rfl rfl
  generalize s.tsu.staged.getD (s.f TSU_INCR_NS_incr_ns) = n
  simp only [Bool.or_eq_true, Bool.and_eq_true, decide_eq_true_eq, beq_iff_eq, bne_iff_ne, hzero]
  omega

/-- The increment that a commit captures from this state lies from 3.0 to 5.0 ns (R360). -/
def IncrInRange (v : Word) (s : State) : Prop :=
  3 * 2 ^ 32 ≤ s.tsu.staged.getD (s.f TSU_INCR_NS_incr_ns) * 2 ^ 32 + v.toNat ∧
    s.tsu.staged.getD (s.f TSU_INCR_NS_incr_ns) * 2 ^ 32 + v.toNat ≤ 5 * 2 ^ 32

theorem tsuIncrCommit_of_range {v : Word} {l : List (ℕ × ℕ)} {s : State} (h : IncrInRange v s) : tsuIncrCommit v (held l s) =
    withTsu { s.tsu with newIncr := some (s.tsu.staged.getD (s.f TSU_INCR_NS_incr_ns), v.toNat) } (held l s) :=
  (tsuIncrCommit_eq v (held l s)).trans (if_pos h)

theorem tsuIncrCommit_of_not_range {v : Word} {l : List (ℕ × ℕ)} {s : State} (h : ¬ IncrInRange v s) :
    tsuIncrCommit v (held l s) = flag TSU_STATUS_bad_write (held l s) :=
  (tsuIncrCommit_eq v (held l s)).trans (if_neg h)

theorem tsuIncr (s : State) (r : Requester) (v : Word) : Claims.tsuIncr s r v := by
  intro hon
  refine writes_of_served (k := tsuIncrCommit v) rfl (served_of_unitOn (tsuIncrFrac_window _) hon) (fun l e => ?_) (fun l => ?_)
  · dsimp only
    rw [answered_tsu, answered_rd, answered_f]
    by_cases hok : 3 * 2 ^ 32 ≤ s.tsu.staged.getD (s.f TSU_INCR_NS_incr_ns) * 2 ^ 32 + v.toNat ∧
      s.tsu.staged.getD (s.f TSU_INCR_NS_incr_ns) * 2 ^ 32 + v.toNat ≤ 5 * 2 ^ 32
    · rw [if_pos hok, tsuIncrCommit_of_range hok]
      exact ⟨rfl, rfl⟩
    · rw [if_neg hok, tsuIncrCommit_of_not_range hok]
      exact ⟨rfl, f_flag TSU_STATUS_bad_write (held l s) rfl⟩
  · rw [tsuIncrCommit_eq]
    exact ite_kept (withTsu_kept _ (kept_held _ _ l s)) (flag_kept rfl (kept_held _ _ l s))

theorem tsuCmdWrite_kept {s₀ s : State} (v : Word) (h : Kept (· = TSU_STATUS) (fun _ => False) s₀ s) :
    Kept (· = TSU_STATUS) (fun _ => False) s₀ (tsuCmdWrite v s) := by
  have hset : Kept (· = TSU_STATUS) (fun _ => False) s₀ (if bitOf v.toNat 0 then Machine.tsuSet s else s) :=
    ite_kept (h.congr rfl rfl rfl rfl) h
  exact ite_kept (flag_kept rfl h) (ite_kept (hset.congr rfl rfl rfl rfl) hset)

theorem tsuCmdWrite_set {v : Word} {s : State} (hset : bitOf v.toNat 0 = true) (hstep : bitOf v.toNat 1 = false) :
    tsuCmdWrite v s = if s.f TSU_SET_NS_ns ≤ 999999999 then Machine.tsuSet s else flag TSU_STATUS_bad_write s := by
  rw [← ite_not, tsuCmdWrite, hset, hstep]
  refine if_congr ?_ rfl rfl
  simp [State.setOk]

theorem tsuCmdWrite_step {v : Word} {s : State} (hset : bitOf v.toNat 0 = false) (hstep : bitOf v.toNat 1 = true) :
    tsuCmdWrite v s = if (s.rd TSU_STEP_NS).toInt ≤ 999999999 ∧ -999999999 ≤ (s.rd TSU_STEP_NS).toInt
      then Machine.tsuStep s else flag TSU_STATUS_bad_write s := by
  rw [← ite_not, tsuCmdWrite, hset, hstep]
  refine if_congr ?_ rfl rfl
  rw [Bool.false_and, Bool.false_or, Bool.true_and, Bool.not_eq_true', ← Bool.not_eq_true, State.stepOk, Bool.and_eq_true,
    decide_eq_true_eq, decide_eq_true_eq]
  rfl

/-- Another bit of a word is as it was. -/
theorem bitOf_setBits_of_ne (v : Word) (i j k : ℕ) (hi : i ≤ 31) (h : i ≠ j) :
    bitOf (setBits v i i k).toNat j = bitOf v.toNat j := by
  have hfield : bitsOf (setBits v i i k).toNat j j = bitsOf v.toNat j j := by
    rcases Nat.lt_or_gt_of_ne h with hlt | hgt
    · exact RegisterMap.bitsOf_setBits_of_below v i i k j j (le_refl i) hi hlt
    · exact bitsOf_setBits_of_above v i i k j j (le_refl i) hi (le_refl j) hgt
  simpa [bitOf, bitsOf] using congrArg (· == 1) hfield

theorem tsuSet (s : State) (r : Requester) (v : Word) : Claims.tsuSet s r v := by
  intro hon hstep
  refine writes_of_served (k := tsuCmdWrite (setBits v 0 0 1)) rfl (served_of_unitOn (tsuCmd_window _) hon) (fun l e => ?_)
    (fun l => tsuCmdWrite_kept _ (kept_held _ _ l s))
  rw [tsuCmdWrite_set (bitOf_setBits_one v 0 (by decide)) ((bitOf_setBits_of_ne v 0 1 1 (by decide) (by decide)).trans hstep),
    held_f]
  simp only [answered_f, answered_tsu]
  split_ifs
  · rfl
  · exact ⟨rfl, f_flag TSU_STATUS_bad_write (held l s) rfl⟩

theorem tsuStep (s : State) (r : Requester) (v : Word) : Claims.tsuStep s r v := by
  intro hon hset
  refine writes_of_served (k := tsuCmdWrite (setBits v 1 1 1)) rfl (served_of_unitOn (tsuCmd_window _) hon) (fun l e => ?_)
    (fun l => tsuCmdWrite_kept _ (kept_held _ _ l s))
  rw [tsuCmdWrite_step ((bitOf_setBits_of_ne v 1 0 1 (by decide) (by decide)).trans hset) (bitOf_setBits_one v 1 (by decide)),
    held_rd]
  simp only [answered_f, answered_tsu]
  split_ifs
  · rfl
  · exact ⟨rfl, f_flag TSU_STATUS_bad_write (held l s) rfl⟩

/-! ### Seconds and the parity of the time counters (R359, R368) -/

/-- The ticks to the carry bring it, and no more than one increment past it. -/
theorem carry_bounds {u c : ℕ} (hc : 0 < c) (hu : u < secUnits) :
    1 ≤ ceilDiv (secUnits - u) c ∧ secUnits ≤ u + ceilDiv (secUnits - u) c * c ∧
      u + ceilDiv (secUnits - u) c * c < secUnits + c := by
  have hpos : 0 < secUnits - u := Nat.sub_pos_of_lt hu
  have hdiv := Nat.div_add_mod (secUnits - u + c - 1) c
  have hmod := Nat.mod_lt (secUnits - u + c - 1) hc
  have hcomm := Nat.mul_comm c ((secUnits - u + c - 1) / c)
  have hone : 1 ≤ (secUnits - u + c - 1) / c := (Nat.one_le_div_iff hc).mpr (by omega)
  rw [ceilDiv]
  omega

/-- The instant of the tick at which the nanoseconds carry. -/
def carryAt (s : State) : ℕ := (s.now / Config.bclk + s.ticksToSecond) * Config.bclk

theorem ticksToSecond_eq {s : State} (hincr : 0 < s.incr) (hu : s.units < secUnits) :
    s.ticksToSecond = ceilDiv (secUnits - s.units) s.incr := by
  have hone := (carry_bounds hincr hu).1
  rw [State.ticksToSecond, floor1, floor1, if_neg (show ¬ s.incr = 0 by omega),
    if_neg (show ¬ ceilDiv (secUnits - s.units) s.incr = 0 by omega)]

/-- The state at another instant. -/
def atInstant (t : ℕ) (s : State) : State := { s with now := t }

theorem atInstant_units (t : ℕ) (s : State) : (atInstant t s).units = s.units := rfl

theorem atInstant_incr (t : ℕ) (s : State) : (atInstant t s).incr = s.incr := rfl

theorem atInstant_sec (t : ℕ) (s : State) : (atInstant t s).tsu.sec = s.tsu.sec := rfl

/-- Running to an instant of the clock that lies `k` ticks on, with nothing captured. -/
theorem advanceTo_ticks {s : State} {k : ℕ} (hk : 1 ≤ k) (hon : s.domOn dCTRL = true) (hcalm : Calm s) :
    advanceTo ((s.now / Config.bclk + k) * Config.bclk) s =
      tsuRun k (atInstant ((s.now / Config.bclk + k) * Config.bclk) s) ∧
    s.now < (s.now / Config.bclk + k) * Config.bclk := by
  obtain ⟨hslots, hincr, hset, hstep⟩ := hcalm
  have hclk : 0 < Config.bclk := by decide
  have hbefore : s.now < (s.now / Config.bclk + k) * Config.bclk := by
    have hdiv := Nat.div_add_mod s.now Config.bclk
    have hmod := Nat.mod_lt s.now hclk
    have hmul : (s.now / Config.bclk + 1) * Config.bclk ≤ (s.now / Config.bclk + k) * Config.bclk :=
      Nat.mul_le_mul_right _ (by omega)
    rw [Nat.add_mul, Nat.mul_comm (s.now / Config.bclk), Nat.one_mul] at hmul
    omega
  refine ⟨?_, hbefore⟩
  have hticks : (s.now / Config.bclk + k) * Config.bclk / Config.bclk - s.now / Config.bclk = k := by
    rw [Nat.mul_div_cancel _ hclk]
    omega
  unfold advanceTo
  rw [if_neg (by omega)]
  simp only [hticks]
  have hruns : ∀ t : State, t.domOn dCTRL = true → ¬ (decide (k = 0) || !t.domOn dCTRL) = true := fun t ht => by
    rw [ht, decide_eq_false (show ¬ k = 0 by omega)]
    exact Bool.false_ne_true
  refine (if_neg (hruns _ (by exact hon))).trans ?_
  rw [tsuParity_nil _ _ (by exact hslots), hincr, hset, hstep]
  rfl

theorem tsuRun_tsu (k : ℕ) (s : State) : (tsuRun k s).tsu.sec = (s.tsu.sec + (s.units + k * s.incr) / secUnits) % 2 ^ 48 ∧
    (tsuRun k s).tsu.ns = (s.units + k * s.incr) % secUnits / 2 ^ 32 := ⟨rfl, rfl⟩

theorem tsuRun_now (k : ℕ) (s : State) : (tsuRun k s).now = s.now := by
  obtain ⟨x, v, h⟩ := tsuRun_only k s
  rw [h]

theorem tsuSecond (s : State) : Claims.tsuSecond s := by
  intro hon _ hslots hincr hset hstep hlo hhi hns hfrac _
  have hcalm : Calm s := ⟨hslots, hincr, hset, hstep⟩
  have hpos : 0 < s.incr := by omega
  have hu : s.units < secUnits := by rw [State.units, secUnits]; omega
  have hsize : 5 * 2 ^ 32 < secUnits := by decide
  obtain ⟨hone, hreach, hbelow⟩ := carry_bounds hpos hu
  have hk := ticksToSecond_eq hpos hu
  obtain ⟨hrun, hbefore⟩ := advanceTo_ticks (k := s.ticksToSecond) (hk ▸ hone) hon hcalm
  refine ⟨advanceTo (carryAt s) s, by rw [exec_tsuSecond, execTsuSecond, hincr, hset, hstep]; rfl, ?_, ?_, ?_,
    (FrameTiming.advanceTo_keeps_of_calm _ s hcalm _).1⟩
  · have hsec : (s.units + s.ticksToSecond * s.incr) / secUnits = 1 := by
      rw [hk]
      exact Nat.div_eq_of_lt_le (by omega) (by omega)
    rw [carryAt, hrun, (tsuRun_tsu _ _).1, atInstant_units, atInstant_incr, atInstant_sec, hsec]
  · have hover : (s.units + s.ticksToSecond * s.incr) % secUnits < 2 ^ 32 * 5 := by
      rw [hk, Nat.mod_eq_sub_mod hreach, Nat.mod_eq_of_lt (by omega)]
      omega
    rw [carryAt, hrun, (tsuRun_tsu _ _).2, atInstant_units, atInstant_incr]
    exact Nat.div_lt_of_lt_mul hover
  · rw [carryAt, hrun, tsuRun_now]
    exact hbefore

/-- The detections of this interval by the time counters' parity. -/
def parityCount (s : State) : ℕ := (lookD s.err.rates {} 0x5200).cur

/-- A detection of the time counters' parity is one that its rate judges. -/
theorem detect_parity (s : State) : ∃ r i, detect 0x5200 false 0 0 s = counting r i s ∧
    parityCount (counting r i s) = parityCount s + 1 := by
  refine ⟨put s.err.rates 0x5200 { lookD s.err.rates {} 0x5200 with cur := (lookD s.err.rates {} 0x5200).cur + 1 }, _, rfl, ?_⟩
  rw [parityCount, counting, lookD_put_self, parityCount]

/-- The time lost its validity at an instant. -/
def unsure (t : ℕ) (y : TsuSt) (v : EvrSt) (s : State) : State := setF TSU_STATUS_valid 0 (laterAt t y v s)

theorem unsure_count (t : ℕ) (y : TsuSt) (v : EvrSt) (s : State) : parityCount (unsure t y v s) = parityCount s := rfl

theorem exec_timeCounterParity_of_calm {s : State} (hon : s.unitOn dCTRL = true) (hcalm : Calm s) :
    ∃ t y v, exec .timeCounterParity s = .next (detect 0x5200 false 0 0 (unsure t y v s)) := by
  obtain ⟨y, v, hlater⟩ := advanceTo_laterAt ((s.now / Config.bclk + 1) * Config.bclk) hcalm
  refine ⟨max s.now ((s.now / Config.bclk + 1) * Config.bclk), y, v, ?_⟩
  rw [exec_timeCounterParity, execTimeCounterParity, if_pos hon, hlater]
  dsimp only
  exact congrArg Host.Outcome.next (if_neg (lt_irrefl (parityCount s)))

theorem tsuParityError (s : State) : Claims.tsuParityError s := by
  intro hon hslots hincr hset hstep
  obtain ⟨t, y, v, hrun⟩ := exec_timeCounterParity_of_calm hon ⟨hslots, hincr, hset, hstep⟩
  obtain ⟨r, i, hdetect, hcount⟩ := detect_parity (unsure t y v s)
  refine ⟨_, hrun, ?_⟩
  rw [hdetect]
  have hlater : Kept (· = TSU_STATUS) (fun _ => False) s (laterAt t y v s) := (Kept.refl _ _ s).congr rfl rfl rfl rfl
  have hkept : Kept (· = TSU_STATUS) (fun _ => False) s (unsure t y v s) := setF_kept rfl hlater
  exact ⟨f_clear TSU_STATUS_valid (laterAt t y v s) rfl, hcount.trans (congrArg (· + 1) (unsure_count t y v s)),
    hkept.congr rfl rfl rfl rfl⟩

/-- Settles O16, a command at a time. -/
theorem triggersAndTimeUnit : Obligations.TriggersAndTimeUnit := by
  unfold Obligations.TriggersAndTimeUnit
  exact ⟨trigStart, trigEnd, tsuIncr, tsuSet, tsuStep, tsuSecond, tsuParityError⟩

end Sys2Proof.Proofs.TimeUnit

/-! The monitor's write of REF_PHASE, under a schedule that follows the clock: the next tick is chosen anew, and REF_PERIOD
shows it (R32, R465, R511). -/

namespace Sys2Proof.Proofs.MonitorPhase

open Sys2Proof.Machine
open Sys2Proof.Proofs.AccessCodes

-- The kernel's evaluation below waits for the declarations before it: it is elaborated in their order.
set_option Elab.async false

/-- What a step's end shows in REF_PERIOD. -/
def period : Res → Word
  | .next t => t.rd REF_PERIOD
  | _ => 0

theorem ptpState_open : ptpState.monReady = true ∧ ptpState.dbgLocked = false ∧ ptpState.unitOn dCTRL = true ∧
    period (exec (.monitorWriteWord REF_PHASE 0) ptpState) = 1 := by decide +kernel

/-- Refutes O55: a write of REF_PHASE with a tick due under PTP changes REF_PERIOD too. -/
theorem not_monitorReadsAndWrites : ¬ Obligations.MonitorReadsAndWrites := by
  unfold Obligations.MonitorReadsAndWrites
  intro ⟨_, _, _, _, _, _, h, _⟩
  obtain ⟨hready, hopen, hon, hshown⟩ := ptpState_open
  obtain ⟨t, hrun, _, _, _, hregs, _⟩ := h ptpState 0 ⟨hready, hopen⟩ hon rfl
  have hkept : t.rd REF_PERIOD = ptpState.rd REF_PERIOD := hregs REF_PERIOD (by decide)
  have hmoved : t.rd REF_PERIOD = 1 := by simpa only [hrun, period] using hshown
  rw [ptpState_period, hmoved] at hkept
  exact absurd hkept (by decide)

end Sys2Proof.Proofs.MonitorPhase

/-! The core voltage, the PMBus controller, and thermal sensing (R432 to R443). -/

namespace Sys2Proof.Proofs.Thermal

open Sys2Proof.Machine
open Sys2Proof.Proofs.Keeping
open Sys2Proof.Proofs.Access
open Sys2Proof.Proofs.ClockRouter
open Sys2Proof.Proofs.TimeUnit
open Sys2Proof.Claims (Calm Keeps RegsBut MemBut Told thmShown)

/-! ### The core voltage (R432) -/

/-- The state with these notes of the engine's transactions. -/
def noted (mode : Option ℕ) (sent : List (ℕ × ℕ × ℕ × Bool × ℕ)) (bus : List ℕ) (wait : Option (Bool × List (Option ℕ) × List Bool))
    (s : State) : State :=
  { s with pwr := { s.pwr with avsMode := mode, avsSent := sent, avsBus := bus, avsWait := wait } }

theorem noted_kept {p q : ℕ → Prop} {s₀ s : State} {mode : Option ℕ} {sent : List (ℕ × ℕ × ℕ × Bool × ℕ)} {bus : List ℕ}
    {wait : Option (Bool × List (Option ℕ) × List Bool)} (h : Kept p q s₀ s) : Kept p q s₀ (noted mode sent bus wait s) :=
  h.congr rfl rfl rfl rfl

theorem avsTwice_of_first {ok : ℕ → Bool} {s : State} (hslots : s.err.slots = []) (h : ok 0 = true) :
    avsTwice ok s = (some 0, s) := by
  unfold avsTwice
  rw [examine_nil _ _ _ hslots, h]
  rfl

/-- What the regulator's second failure leaves. -/
def avsFailed (s : State) : State :=
  raise 0x02 8 0 (flag PWR_AVS_STATUS_avs_fail (modPwr (fun p => { p with avsDead := true }) (lasting 1 0x0202 false 0 0 s)))

theorem avsTwice_of_neither {ok : ℕ → Bool} {s : State} (hslots : s.err.slots = []) (h0 : ok 0 = false) (h1 : ok 1 = false) :
    avsTwice ok s = (none, avsFailed s) := by
  unfold avsTwice
  rw [examine_nil _ _ _ hslots, h0]
  dsimp only
  rw [examine_nil _ _ _ hslots, h1]
  rfl

/-- With every try through, the mode's read notes its transactions alone. -/
theorem avsReadMode_eq {s : State} (hslots : s.err.slots = []) : ∃ m l b w, avsReadMode [] s = noted m l b w s := by
  unfold avsReadMode
  split_ifs
  · exact ⟨_, _, _, _, rfl⟩
  · rw [avsTwice_of_first (by exact hslots) (by decide)]
    exact ⟨_, _, _, _, rfl⟩

/-- The voltage's command, with the outcome of its tries. -/
theorem avsVolt_eq (sent : List Bool) {s : State} (h : s.pwr.avsDead = false) :
    ∃ m l b w, avsVolt sent s = (avsTwice (fun i => sent.getD i true) (noted m l b w s)).2 := by
  unfold avsVolt
  rw [h, if_neg Bool.false_ne_true]
  dsimp only
  split_ifs
  · exact ⟨_, _, _, _, rfl⟩
  · exact ⟨_, _, _, _, rfl⟩

/-- The engine's transactions of an interval that moves the target, on a bus that is free. -/
theorem avsGo_of_free (sent : List Bool) {s : State} (hslots : s.err.slots = []) (hdead : s.pwr.avsDead = false)
    (hfree : ¬ (!s.b PWR_AVS_CFG_bus && s.pwr.pmbBusy.isSome) = true) :
    ∃ m l b w, avsGo true [] sent s = (avsTwice (fun i => sent.getD i true) (noted m l b w s)).2 := by
  unfold avsGo
  rw [if_neg hfree, if_pos rfl]
  obtain ⟨m, l, b, w, hmode⟩ := avsReadMode_eq (s := modPwr (fun p => { p with avsSent := [], avsBus := [] }) s) hslots
  rw [hmode]
  obtain ⟨m', l', b', w', hvolt⟩ := avsVolt_eq sent (s := noted m l b w s) hdead
  exact ⟨m', l', b', w', hvolt⟩

theorem avsGo_eq (moved : Bool) {s : State} (hslots : s.err.slots = []) (hdead : s.pwr.avsDead = false) :
    ∃ m l b w, avsGo moved [] [] s = noted m l b w s := by
  by_cases hfree : (!s.b PWR_AVS_CFG_bus && s.pwr.pmbBusy.isSome) = true
  · unfold avsGo
    rw [if_pos hfree]
    dsimp only
    split_ifs
    · exact ⟨_, _, _, _, rfl⟩
    · exact ⟨_, _, _, _, rfl⟩
  · cases moved with
    | true =>
      obtain ⟨m, l, b, w, hgo⟩ := avsGo_of_free [] hslots hdead hfree
      rw [hgo, avsTwice_of_first (by exact hslots) rfl]
      exact ⟨m, l, b, w, rfl⟩
    | false =>
      unfold avsGo
      rw [if_neg hfree, if_neg Bool.false_ne_true]
      obtain ⟨m, l, b, w, hmode⟩ := avsReadMode_eq (s := modPwr (fun p => { p with avsSent := [], avsBus := [] }) s) hslots
      exact ⟨m, l, b, w, hmode⟩

/-- The voltage that an interval asks for (R432). -/
def avsTarget (s : State) (f g : Bool) : ℕ :=
  if f then min (s.f PWR_AVS_STATUS_vout + 10) (s.f PWR_AVS_CFG_vmax * 5)
  else if g = true ∧ 99 ≤ s.pwr.avsPass ∧ s.f THM_LEVEL_level = 0
    then max (s.f PWR_AVS_STATUS_vout - 5) (s.f PWR_AVS_CFG_vmin * 5) else s.f PWR_AVS_STATUS_vout

/-- The instant at which an interval ends. -/
def avsEnd (s : State) : ℕ := (s.now / Config.ms + 1) * Config.ms

/-- A target set at the interval's end, with this many passes. -/
def atTarget (vout pass : ℕ) (y : TsuSt) (v : EvrSt) (s : State) : State :=
  setF PWR_AVS_STATUS_vout vout (modPwr (fun p => { p with avsPass := pass }) (laterAt (max s.now (avsEnd s)) y v s))

theorem exec_avsInterval_eq (f g : Bool) (sent : List Bool) {s : State} (hen : s.b PWR_AVS_CFG_en = true)
    (hdead : s.pwr.avsDead = false) (hcalm : Calm s) : ∃ pass y v, exec (.avsInterval f g [] sent) s =
      .next (avsGo (avsTarget s f g != s.f PWR_AVS_STATUS_vout) [] sent (atTarget (avsTarget s f g) pass y v s)) := by
  obtain ⟨y, v, hlater⟩ := advanceTo_laterAt (avsEnd s) hcalm
  have htarget : avsTarget s f g = if f then min (s.f PWR_AVS_STATUS_vout + 10) (s.f PWR_AVS_CFG_vmax * 5)
      else if (decide (100 ≤ if (f || !g) = true then 0 else s.pwr.avsPass + 1) && s.f THM_LEVEL_level == 0) = true
        then max (s.f PWR_AVS_STATUS_vout - 5) (s.f PWR_AVS_CFG_vmin * 5) else s.f PWR_AVS_STATUS_vout := by
    rw [avsTarget]
    cases f with
    | true => rfl
    | false =>
      refine if_congr Iff.rfl rfl (if_congr ?_ rfl rfl)
      cases g with
      | true => simp
      | false => simp
  rw [exec_avsInterval, execAvsInterval, hen, hdead, if_neg (by decide),
    show (s.now / Config.ms + 1) * Config.ms = avsEnd s from rfl, hlater, htarget]
  exact ⟨_, y, v, rfl⟩

theorem avsTarget_lt {s : State} (f g : Bool) (hhi : s.f PWR_AVS_STATUS_vout ≤ s.f PWR_AVS_CFG_vmax * 5)
    (hlo : s.f PWR_AVS_CFG_vmin * 5 ≤ s.f PWR_AVS_STATUS_vout) (hmax : s.f PWR_AVS_CFG_vmax ≤ 170) : avsTarget s f g < 2 ^ 10 := by
  unfold avsTarget
  split_ifs
  all_goals omega

theorem atTarget_kept {p q : ℕ → Prop} (vout pass : ℕ) (y : TsuSt) (v : EvrSt) (s : State) (hp : p PWR_AVS_STATUS) :
    Kept p q s (atTarget vout pass y v s) := setF_kept hp ((Kept.refl p q s).congr rfl rfl rfl rfl)

theorem le_avsEnd (s : State) : s.now ≤ avsEnd s :=
  le_of_lt (by rw [avsEnd, Nat.mul_comm]; exact Nat.lt_mul_div_succ s.now (by decide))

theorem avsInterval (s : State) (f g : Bool) : Claims.avsInterval s f g := by
  intro hen hdead hcalm hlo hhi hmax
  obtain ⟨pass, y, v, hrun⟩ := exec_avsInterval_eq f g [] hen hdead hcalm
  obtain ⟨m, l, b, w, hgo⟩ := avsGo_eq (avsTarget s f g != s.f PWR_AVS_STATUS_vout)
    (s := atTarget (avsTarget s f g) pass y v s) hcalm.1 hdead
  refine ⟨_, hrun, ?_⟩
  rw [hgo]
  refine ⟨?_, ?_, noted_kept (atTarget_kept _ pass y v s rfl)⟩
  · exact f_setF_eq PWR_AVS_STATUS_vout _ _ rfl (avsTarget_lt f g hhi hlo hmax)
  · show max s.now (avsEnd s) = avsEnd s
    exact max_eq_right (le_avsEnd s)

theorem evtOn_pwr {s t : State} (loc : ℕ) (h : t.rd PWR_EVT_EN = s.rd PWR_EVT_EN) : t.evtOn 0x02 loc = s.evtOn 0x02 loc := by
  simp only [State.evtOn, h]
  rfl

/-- The registers that a failure of the regulator shows in. -/
def ShowsAvs (a : ℕ) : Prop := a = PWR_AVS_STATUS ∨ a = ERR_LAST

theorem flagged_kept {s₀ s : State} (h : Kept ShowsAvs (fun _ => False) s₀ s) : Kept ShowsAvs (fun _ => False) s₀
    (flag PWR_AVS_STATUS_avs_fail (modPwr (fun p => { p with avsDead := true }) (lasting 1 0x0202 false 0 0 s))) :=
  flag_kept (.inl rfl) ((lasting_kept 1 0x0202 false 0 0 (.inr rfl) h).congr rfl rfl rfl rfl)

theorem told_avsFailed {s₀ s : State} (h : Kept ShowsAvs (fun _ => False) s₀ s) (hhold : s.pwr.testHold = s₀.pwr.testHold) :
    Told 0x02 8 0 s₀ (avsFailed s) := by
  refine told_raise (evtOn_pwr 8 ((flagged_kept h).1 _ (by unfold ShowsAvs; decide))) ?_
  show (lasting 1 0x0202 false 0 0 s).pwr.testHold = s₀.pwr.testHold
  rw [lasting_pwr, hhold]

theorem avsFailed_last (s : State) : (avsFailed s).f ERR_LAST_id = 0x0202 := by
  rw [avsFailed, raise_f, flag, f_setF_of_ne _ _ _ _ (by decide)]
  show (lasting 1 0x0202 false 0 0 s).f ERR_LAST_id = 0x0202
  rw [lasting_f, f_setF_apart ERR_LAST_kind ERR_LAST_id _ _ rfl rfl]
  exact f_setF_eq ERR_LAST_id _ _ rfl (by decide)

theorem avsFails (s : State) : Claims.avsFails s := by
  intro hen hdead hbus hcalm hroom hmax
  obtain ⟨pass, y, v, hrun⟩ := exec_avsInterval_eq true false [false, false] hen hdead hcalm
  have hmoved : (avsTarget s true false != s.f PWR_AVS_STATUS_vout) = true := by
    rw [bne_iff_ne, avsTarget, if_pos rfl]
    omega
  have hat := atTarget_kept (p := ShowsAvs) (q := fun _ => False) (avsTarget s true false) pass y v s (.inl rfl)
  have hfree : ¬ (!s.b PWR_AVS_CFG_bus && s.pwr.pmbBusy.isSome) = true := by
    rcases hbus with h | h
    · simp [h]
    · simp [h]
  have hbusAt : (atTarget (avsTarget s true false) pass y v s).b PWR_AVS_CFG_bus = s.b PWR_AVS_CFG_bus := by
    rw [State.b, State.b, hat.f_eq _ (by unfold ShowsAvs; decide)]
  obtain ⟨m, l, b, w, hgo⟩ := avsGo_of_free [false, false] (s := atTarget (avsTarget s true false) pass y v s) hcalm.1 hdead
    (by rw [hbusAt]; exact hfree)
  rw [avsTwice_of_neither (by exact hcalm.1) rfl rfl] at hgo
  rw [hmoved, hgo] at hrun
  have hkept : Kept ShowsAvs (fun _ => False) s (noted m l b w (atTarget (avsTarget s true false) pass y v s)) := noted_kept hat
  refine ⟨_, hrun, ?_, ?_, told_avsFailed hkept rfl, avsFailed_last _, raise_kept (flagged_kept hkept)⟩
  · rw [avsFailed, raise_pwr]
    rfl
  · rw [avsFailed, raise_f]
    exact f_flag PWR_AVS_STATUS_avs_fail _ rfl

/-! ### The PMBus controller (R433) -/

theorem gate_of_no_domain {s : State} {a off : ℕ} {rows : List RegRow} (hhold : s.pwr.testHold = false)
    (hwin : windowAt s.variant a = some ⟨true, none, rows, off⟩) (ha : a % 4 = 0) : gate a 4 s = (true, s) := by
  unfold gate
  rw [if_neg (ne_true_of_eq_false hhold), hwin]
  simp [formOk_word ha]

/-- The outcome of a write of PMB_CTRL with go = 1. -/
theorem pmbCtrlWrite_go {v : Word} (hgo : bitOf v.toNat 0 = true) (s : State) : pmbCtrlWrite v s =
    if s.b PMB_STATUS_busy = true then flag PMB_STATUS_bad_write s
    else flag PMB_STATUS_busy (modPwr (fun p => { p with
      pmbBusy := some (s.f PMB_CMD_cmd, s.f PMB_CMD_addr, s.f PMB_CMD_op, s.b PMB_CMD_pec, s.f PMB_DATA_data) }) s) := by
  unfold pmbCtrlWrite
  rw [hgo]
  rfl

theorem pmbTransaction (s : State) (r : Requester) (v : Word) : Claims.pmbTransaction s r v := by
  intro hhold
  obtain ⟨e, htold⟩ := monWrote_eq_telling r PMB_CTRL (pmbCtrlWrite (setBits v 0 0 1) s)
  have hrun : exec (.pmbTransaction r v) s = .next (answer r 0 (telling e (pmbCtrlWrite (setBits v 0 0 1) s))) := by
    rw [exec_pmbTransaction, execPmbTransaction, writeBy, gate_of_no_domain hhold rfl rfl]
    simp only [htold]
  refine ⟨_, hrun, RegisterMap.answered_answer r 0 _, ?_, answer_kept (telling_kept ?_)⟩
  · rw [pmbCtrlWrite_go (bitOf_setBits_one v 0 (by decide))]
    split_ifs
    · exact ⟨f_flag PMB_STATUS_bad_write s rfl, rfl⟩
    · exact ⟨f_flag PMB_STATUS_busy _ rfl, rfl⟩
  · rw [pmbCtrlWrite_go (bitOf_setBits_one v 0 (by decide))]
    exact ite_kept (flag_kept rfl (Kept.refl _ _ s)) (flag_kept rfl ((Kept.refl _ _ s).congr rfl rfl rfl rfl))

/-- What the end of a transaction stores (R433). -/
def pmbTaken (res : PmbResult) (op : ℕ) (pec : Bool) (s : State) : State := match res with
  | .ok d => if op = 2 then setF PMB_DATA_data (d.toNat % 256) s else if op = 3 then setF PMB_DATA_data d.toNat s else s
  | .nack => flag PMB_STATUS_nack s
  | .pecError => if pec && 2 ≤ op then flag PMB_STATUS_pec_err s else s

/-- No transaction runs. -/
def pmbIdle (s : State) : State := setF PMB_STATUS_busy 0 (modPwr (fun p => { p with pmbBusy := none }) s)

theorem pmbTaken_pwr (res : PmbResult) (op : ℕ) (pec : Bool) (s : State) : (pmbTaken res op pec s).pwr = s.pwr := by
  unfold pmbTaken
  split
  · split_ifs
    all_goals rfl
  · rfl
  · split_ifs
    all_goals rfl

/-- The registers of a transaction. -/
def ShowsPmb (a : ℕ) : Prop := a = PMB_STATUS ∨ a = PMB_DATA

theorem pmbIdle_kept (s : State) : Kept ShowsPmb (fun _ => False) s (pmbIdle s) :=
  setF_kept (.inl rfl) ((Kept.refl _ _ s).congr rfl rfl rfl rfl)

theorem pmbTaken_kept (res : PmbResult) (op : ℕ) (pec : Bool) {s₀ s : State} (h : Kept ShowsPmb (fun _ => False) s₀ s) :
    Kept ShowsPmb (fun _ => False) s₀ (pmbTaken res op pec s) := by
  unfold pmbTaken
  split
  · exact ite_kept (setF_kept (.inr rfl) h) (ite_kept (setF_kept (.inr rfl) h) h)
  · exact flag_kept (.inl rfl) h
  · exact ite_kept (flag_kept (.inl rfl) h) h

/-- The end of a transaction with nothing of the AVS engine waiting. -/
def pmbEnded (res : PmbResult) (addr op : ℕ) (pec : Bool) (s : State) : State :=
  raise 0x58 6 addr (flag PMB_STATUS_done (pmbTaken res op pec (pmbIdle s)))

theorem exec_pmbDone_eq {s : State} {c addr op w : ℕ} {pec : Bool} (res : PmbResult)
    (hbusy : s.pwr.pmbBusy = some (c, addr, op, pec, w)) (hwait : s.pwr.avsWait = none) :
    exec (.pmbDone res) s = .next (pmbEnded res addr op pec s) := by
  have hwait' : (pmbEnded res addr op pec s).pwr.avsWait = none := by
    rw [pmbEnded, raise_pwr, flag, setF, wr_pwr, pmbTaken_pwr]
    exact hwait
  have hresume : avsResume (pmbEnded res addr op pec s) = pmbEnded res addr op pec s := by
    unfold avsResume
    rw [hwait']
  rw [exec_pmbDone, execPmbDone, hbusy]
  exact congrArg Host.Outcome.next hresume

theorem pmbEnded_kept (res : PmbResult) (addr op : ℕ) (pec : Bool) (s : State) :
    Kept ShowsPmb (fun _ => False) s (pmbEnded res addr op pec s) :=
  raise_kept (flag_kept (.inl rfl) (pmbTaken_kept res op pec (pmbIdle_kept s)))

theorem pmbTaken_busy (res : PmbResult) (op : ℕ) (pec : Bool) (s : State) :
    (pmbTaken res op pec s).f PMB_STATUS_busy = s.f PMB_STATUS_busy := by
  have hdata (n : ℕ) : (setF PMB_DATA_data n s).f PMB_STATUS_busy = s.f PMB_STATUS_busy := f_setF_of_ne _ _ _ _ (by decide)
  unfold pmbTaken
  split
  · split_ifs
    · exact hdata _
    · exact hdata _
    · rfl
  · exact f_flag_apart _ _ _ rfl rfl
  · split_ifs
    · exact f_flag_apart _ _ _ rfl rfl
    · rfl

theorem pmbTaken_nack (res : PmbResult) (op : ℕ) (pec : Bool) (s : State) :
    (pmbTaken res op pec s).f PMB_STATUS_nack = if res = .nack then 1 else s.f PMB_STATUS_nack := by
  have hdata (n : ℕ) : (setF PMB_DATA_data n s).f PMB_STATUS_nack = s.f PMB_STATUS_nack := f_setF_of_ne _ _ _ _ (by decide)
  cases res with
  | ok d =>
    rw [if_neg (by simp), pmbTaken]
    split_ifs
    · exact hdata _
    · exact hdata _
    · rfl
  | nack => exact f_flag PMB_STATUS_nack s rfl
  | pecError =>
    rw [if_neg (by simp), pmbTaken]
    split_ifs
    · exact f_flag_apart _ _ _ rfl rfl
    · rfl

theorem pmbTaken_pec (res : PmbResult) (op : ℕ) (pec : Bool) (s : State) :
    (pmbTaken res op pec s).f PMB_STATUS_pec_err =
      if res = .pecError ∧ pec = true ∧ 2 ≤ op then 1 else s.f PMB_STATUS_pec_err := by
  have hdata (n : ℕ) : (setF PMB_DATA_data n s).f PMB_STATUS_pec_err = s.f PMB_STATUS_pec_err :=
    f_setF_of_ne _ _ _ _ (by decide)
  cases res with
  | ok d =>
    rw [if_neg (by simp), pmbTaken]
    split_ifs
    · exact hdata _
    · exact hdata _
    · rfl
  | nack =>
    rw [if_neg (by simp)]
    exact f_flag_apart _ _ _ rfl rfl
  | pecError =>
    rw [pmbTaken]
    by_cases h : pec = true ∧ 2 ≤ op
    · rw [if_pos (by simpa using h), if_pos ⟨rfl, h⟩]
      exact f_flag PMB_STATUS_pec_err s rfl
    · rw [if_neg (by simpa using h), if_neg (fun h' => h h'.2)]

theorem pmbEnded_status (res : PmbResult) (addr op : ℕ) (pec : Bool) (s : State) (x : Fld) (haddr : x.addr = PMB_STATUS)
    (hdone : bitsApart PMB_STATUS_done x = true) :
    (pmbEnded res addr op pec s).f x = (pmbTaken res op pec (pmbIdle s)).f x := by
  rw [pmbEnded, raise_f, f_flag_apart _ _ _ haddr hdone]

theorem pmbDone (s : State) (x : PmbResult) (c a op : ℕ) (pec : Bool) (w : ℕ) : Claims.pmbDone s x c a op pec w := by
  intro hbusy hwait
  have hkept := pmbTaken_kept x op pec (pmbIdle_kept s)
  refine ⟨_, exec_pmbDone_eq x hbusy hwait, ?_, ?_, ?_, ?_, ?_, ?_, pmbEnded_kept x a op pec s⟩
  · rw [pmbEnded_status _ _ _ _ _ _ rfl rfl, pmbTaken_busy]
    exact f_clear PMB_STATUS_busy _ rfl
  · rw [pmbEnded, raise_f]
    exact f_flag PMB_STATUS_done _ rfl
  · rw [pmbEnded, raise_pwr, flag, setF, wr_pwr, pmbTaken_pwr]
    rfl
  · refine told_raise (Debug.evtOn_monitor 6 ((flag_kept (.inl rfl) hkept).1 _ (by unfold ShowsPmb; decide))) ?_
    rw [flag, setF, wr_pwr, pmbTaken_pwr]
    rfl
  · rw [pmbEnded_status _ _ _ _ _ _ rfl rfl, pmbTaken_nack]
    exact if_congr Iff.rfl rfl (f_setF_apart _ _ _ _ rfl rfl)
  · rw [pmbEnded_status _ _ _ _ _ _ rfl rfl, pmbTaken_pec]
    exact if_congr Iff.rfl rfl (f_setF_apart _ _ _ _ rfl rfl)

theorem pmbTaken_data (d : BitVec 16) (op : ℕ) (pec : Bool) (s : State) : (pmbTaken (.ok d) op pec s).f PMB_DATA_data =
    if op = 2 then d.toNat % 256 else if op = 3 then d.toNat else s.f PMB_DATA_data := by
  have hd := d.isLt
  rw [pmbTaken]
  split_ifs
  · exact f_setF_eq PMB_DATA_data _ _ rfl (lt_of_lt_of_le (Nat.mod_lt _ (by decide)) (by decide))
  · exact f_setF_eq PMB_DATA_data _ _ rfl hd
  · rfl

theorem pmbRead (s : State) (d : BitVec 16) (c a op : ℕ) (pec : Bool) (w : ℕ) : Claims.pmbRead s d c a op pec w := by
  intro hbusy hwait
  refine ⟨_, exec_pmbDone_eq (.ok d) hbusy hwait, ?_, pmbEnded_kept (.ok d) a op pec s⟩
  rw [pmbEnded, raise_f, flag, f_setF_of_ne _ _ _ _ (by decide), pmbTaken_data, pmbIdle, f_setF_of_ne _ _ _ _ (by decide)]
  rfl

theorem pmbAlert (s : State) : Claims.pmbAlert s :=
  ⟨_, by rw [exec_pmbAlert, execPmbAlert], told_raise rfl rfl, raise_kept (Kept.refl _ _ s)⟩

/-! ### What an operation of the sensors leaves (R434 to R443) -/

/-- No injection is armed, no time has passed, and every register but those of `p` is as it was. -/
structure Sensed (p : ℕ → Prop) (s₀ s : State) : Prop where
  kept : Kept p (fun _ => False) s₀ s
  slots : s.err.slots = []
  now : s.now = s₀.now
  clk : s.pwr.clkLost = s₀.pwr.clkLost
  hold : s.pwr.testHold = s₀.pwr.testHold

section
variable {p : ℕ → Prop} {s₀ s t : State}

theorem Sensed.refl (p : ℕ → Prop) {s : State} (h : s.err.slots = []) : Sensed p s s := ⟨Kept.refl _ _ s, h, rfl, rfl, rfl⟩

theorem Sensed.trans (h : Sensed p s₀ s) (h' : Sensed p s t) : Sensed p s₀ t :=
  ⟨h.kept.trans h'.kept, h'.slots, h'.now.trans h.now, h'.clk.trans h.clk, h'.hold.trans h.hold⟩

theorem Sensed.mono {p' : ℕ → Prop} (hp : ∀ a, p a → p' a) (h : Sensed p s₀ s) : Sensed p' s₀ s :=
  ⟨h.kept.mono hp fun _ hq => hq, h.slots, h.now, h.clk, h.hold⟩

/-- An update of what the sensors leave out of account. -/
theorem Sensed.congr (h : Sensed p s₀ s) (hkept : Kept p (fun _ => False) s₀ t) (herr : t.err.slots = s.err.slots) (hnow : t.now = s.now)
    (hpwr : t.pwr = s.pwr) : Sensed p s₀ t :=
  ⟨hkept, herr.trans h.slots, hnow.trans h.now, (congrArg _ hpwr).trans h.clk, (congrArg _ hpwr).trans h.hold⟩

theorem setF_sensed {x : Fld} {v : ℕ} (hx : p x.addr) (h : Sensed p s₀ s) : Sensed p s₀ (setF x v s) :=
  h.congr (setF_kept hx h.kept) rfl rfl rfl

theorem bump_sensed {a : ℕ} (ha : p a) (h : Sensed p s₀ s) : Sensed p s₀ (bump a s) :=
  h.congr (bump_kept ha h.kept) rfl rfl rfl

theorem modThm_sensed {f : ThmSt → ThmSt} (h : Sensed p s₀ s) : Sensed p s₀ (modThm f s) :=
  h.congr (h.kept.congr rfl rfl rfl rfl) rfl rfl rfl

theorem raise_sensed {blk loc arg : ℕ} (h : Sensed p s₀ s) : Sensed p s₀ (raise blk loc arg s) :=
  h.congr (raise_kept h.kept) (by rw [raise_err]) (raise_now _ _ _ s) (raise_pwr _ _ _ s)

theorem ite_sensed {c : Prop} [Decidable c] (hs : Sensed p s₀ s) (ht : Sensed p s₀ t) : Sensed p s₀ (if c then s else t) := by
  split
  · exact hs
  · exact ht

theorem foldl_sensed {α : Type} {l : List α} {f : State → α → State}
    (hf : ∀ s, ∀ x ∈ l, Sensed p s₀ s → Sensed p s₀ (f s x)) (h : Sensed p s₀ s) : Sensed p s₀ (l.foldl f s) := by
  induction l generalizing s with
  | nil => exact h
  | cons x l ih => exact ih (fun s y hy => hf s y (List.mem_cons_of_mem _ hy)) (hf s x List.mem_cons_self h)

theorem logRec_sensed {kind det arg addr : ℕ} {inj : Bool} (h : Sensed p s₀ s) : Sensed p s₀ (logRec kind det inj arg addr s) :=
  ite_sensed h (h.congr (h.kept.congr rfl rfl rfl rfl) rfl rfl rfl)

theorem lasting_sensed {kind det arg addr : ℕ} {inj : Bool} (hp : p ERR_LAST) (h : Sensed p s₀ s) :
    Sensed p s₀ (lasting kind det inj arg addr s) := logRec_sensed (raise_sensed (setF_sensed hp (setF_sensed hp h)))

theorem transient_sensed {det arg addr : ℕ} {inj : Bool} (h : Sensed p s₀ s) : Sensed p s₀ (transient det inj arg addr s) := by
  have htold := raise_sensed (blk := 0x04) (loc := 1) (arg := det) h
  exact ite_sensed (ite_sensed (htold.congr (htold.kept.congr rfl rfl rfl rfl) rfl rfl rfl)
    (logRec_sensed (htold.congr (htold.kept.congr rfl rfl rfl rfl) rfl rfl rfl))) htold

theorem detect_sensed {det arg addr : ℕ} {inj : Bool} (hp : p ERR_LAST) (h : Sensed p s₀ s) :
    Sensed p s₀ (detect det inj arg addr s) :=
  ite_sensed h (ite_sensed (lasting_sensed hp h) (h.congr (h.kept.congr rfl rfl rfl rfl) rfl rfl rfl))

theorem examDetect_sensed {det arg addr : ℕ} (real : Bool) (hp : p ERR_LAST) (h : Sensed p s₀ s) :
    Sensed p s₀ (examDetect det real arg addr s).2 := by
  rw [examDetect, examine_nil _ _ _ h.slots]
  exact ite_sensed (detect_sensed hp h) h

theorem sensTake_sensed (i : ℕ) (r : Int) (hp : p (THM_SENS i)) (h : Sensed p s₀ s) : Sensed p s₀ (sensTake i r s) :=
  setF_sensed hp (modThm_sensed h)

theorem modSens_sensed {i : ℕ} {f : SensSt → SensSt} (h : Sensed p s₀ s) : Sensed p s₀ (modSens i f s) := modThm_sensed h

theorem fastMark_sensed (i : ℕ) (h : Sensed p s₀ s) : Sensed p s₀ (fastMark i s) := by
  unfold fastMark
  exact modThm_sensed h

theorem sensJudge_sensed (i : ℕ) (hbroken : p THM_BROKEN) (hlast : p ERR_LAST) (h : Sensed p s₀ s) :
    Sensed p s₀ (sensJudge i s) := by
  have hseen := examDetect_sensed (det := 0x0300) (arg := i) (addr := 0) (s.sensBad i) hlast h
  unfold sensJudge
  dsimp only
  exact ite_sensed (ite_sensed (setF_sensed (x := THM_BROKEN_broken) hbroken (modSens_sensed hseen)) (modSens_sensed hseen))
    (ite_sensed (raise_sensed (setF_sensed (x := THM_BROKEN_broken) hbroken (modSens_sensed hseen))) hseen)

theorem sensMax_sensed (hmax : p THM_MAX) (h : Sensed p s₀ s) : Sensed p s₀ (sensMax s) := by
  unfold sensMax
  dsimp only
  split
  · exact ite_sensed (ite_sensed h (raise_sensed (modThm_sensed h))) (modThm_sensed h)
  · have hset (v : ℕ) := setF_sensed (x := THM_MAX_t) (v := v) hmax h
    exact ite_sensed (ite_sensed (hset _) (raise_sensed (modThm_sensed (hset _)))) (modThm_sensed (hset _))

/-- Closing an idle stream changes nothing (R301). -/
theorem strCtrlWrite_close_idle {k : ℕ} {s : State} (h : s.f (RM_STR_STATUS_state k) = 0) : strCtrlWrite k 2 s = s := by
  have hclose : clipClose k s = s := by
    unfold clipClose
    rw [h]
    rfl
  exact hclose

/-- No stream of a record unit that is on records. -/
def NoClip (s : State) : Prop := s.domOn dRM = true → ∀ k < 8, s.f (RM_STR_STATUS_state k) = 0

theorem foldl_close_idle {s : State} (h : ∀ k < 8, s.f (RM_STR_STATUS_state k) = 0) :
    (List.range 8).foldl (fun s k => strCtrlWrite k 2 s) s = s := by
  have hfold : ∀ l : List ℕ, (∀ k ∈ l, k < 8) → l.foldl (fun s k => strCtrlWrite k 2 s) s = s := by
    intro l
    induction l with
    | nil => exact fun _ => rfl
    | cons k l ih =>
      intro hl
      rw [List.foldl_cons, strCtrlWrite_close_idle (h k (hl k List.mem_cons_self))]
      exact ih fun j hj => hl j (List.mem_cons_of_mem _ hj)
  exact hfold _ fun k hk => List.mem_range.mp hk

/-- The registers that say whether a domain is on, and what the streams do. -/
structure LeavesStreams (p : ℕ → Prop) : Prop where
  status : ¬ p PWR_STATUS
  busy : ¬ p PWR_BUSY
  stream : ∀ k < 8, ¬ p (RM_STR_STATUS k)

theorem Sensed.domOn (hp : LeavesStreams p) (h : Sensed p s₀ s) (d : ℕ) : s.domOn d = s₀.domOn d := by
  rw [State.domOn, State.domOn, h.kept.1 _ hp.status, h.kept.1 _ hp.busy, h.clk, h.hold]

theorem Sensed.noClip (hp : LeavesStreams p) (h : Sensed p s₀ s) (hclip : NoClip s₀) : NoClip s := by
  intro hon k hk
  rw [h.kept.f_eq _ (hp.stream k hk)]
  exact hclip ((h.domOn hp dRM).symm.trans hon) k hk

/-- A new level, shown and told. -/
def levelTold (s : State) : State :=
  if 2 ≤ s.levelNow && s.f THM_LEVEL_level < 2
    then modThm (fun t => { t with t2Told := [] }) (raise 0x03 0 s.levelNow (setF THM_LEVEL_level s.levelNow s))
    else raise 0x03 0 s.levelNow (setF THM_LEVEL_level s.levelNow s)

/-- Every stream of a record unit that is on is told to close. -/
def closing (s : State) : State :=
  if s.domOn dRM then (List.range 8).foldl (fun s k => strCtrlWrite k 2 s) s else s

/-- The times that T3 starts. -/
def dated (s : State) : State :=
  modPwr (fun p => { p with t3At := some s.now, t3Grace := some (s.now + s.f THM_T3_grace_ms * Config.ms) }) s

theorem levelSet_eq (s : State) : levelSet s = if s.levelNow = s.f THM_LEVEL_level then s
    else if s.levelNow = 3 then dated (closing (levelTold s)) else levelTold s := rfl

theorem closing_of_noClip {s : State} (h : NoClip s) : closing s = s := by
  unfold closing
  split
  · next hon => exact foldl_close_idle (h hon)
  · rfl

theorem levelTold_sensed (hlevel : p THM_LEVEL) (h : Sensed p s₀ s) : Sensed p s₀ (levelTold s) := by
  have hraised := raise_sensed (blk := 0x03) (loc := 0) (arg := s.levelNow)
    (setF_sensed (x := THM_LEVEL_level) (v := s.levelNow) hlevel h)
  exact ite_sensed (modThm_sensed hraised) hraised

theorem levelSet_sensed (hp : LeavesStreams p) (hlevel : p THM_LEVEL) (hclip : NoClip s₀) (h : Sensed p s₀ s) :
    Sensed p s₀ (levelSet s) := by
  have htold := levelTold_sensed hlevel h
  rw [levelSet_eq, closing_of_noClip (htold.noClip hp hclip)]
  exact ite_sensed h (ite_sensed ⟨htold.kept.congr rfl rfl rfl rfl, htold.slots, htold.now, htold.clk, htold.hold⟩ htold)

/-- The state with this endpoint. -/
def withOep (x : OepSt) (s : State) : State := { s with oep := x }

theorem oepSignal_eq (vec : ℕ) (s : State) : ∃ x, oepSignal vec s = withOep x s := by
  unfold oepSignal
  split
  · exact ⟨_, rfl⟩
  · exact ⟨_, rfl⟩

theorem cqSignal_eq (vec : ℕ) (s : State) : ∃ x, cqSignal vec s = withOep x s := by
  unfold cqSignal
  dsimp only
  split
  · obtain ⟨x, hx⟩ := oepSignal_eq vec (withOep { s.oep with agg := del s.oep.agg vec } s)
    exact ⟨x, hx⟩
  · exact ⟨_, rfl⟩

/-- A completion put in its queue signals its vector if the queue asks for it. -/
theorem signalled_eq (c : Bool) (vec : ℕ) (y : OepSt) (s : State) :
    ∃ x, (if c then cqSignal vec else id) (withOep y s) = withOep x s := by
  cases c with
  | true =>
    obtain ⟨x, hx⟩ := cqSignal_eq vec (withOep y s)
    exact ⟨x, hx⟩
  | false => exact ⟨y, rfl⟩

theorem cqPut_eq (c : ℕ) (x : CqSt) (q cid status dw0 : ℕ) (s : State) : ∃ y, cqPut c x q cid status dw0 s = withOep y s :=
  signalled_eq x.ien x.vec _ s

theorem post_eq (q cid dw0 : ℕ) (s : State) : ∃ x, post q cid stOk dw0 s = withOep x s := by
  unfold post
  simp only [if_pos (show stOk = 0 from rfl)]
  split_ifs
  · exact ⟨s.oep, rfl⟩
  · split
    · exact ⟨s.oep, rfl⟩
    · split
      · exact ⟨s.oep, rfl⟩
      · split_ifs
        · exact ⟨_, rfl⟩
        · exact cqPut_eq _ _ _ _ _ _ s

theorem notify_eq (dw0 : ℕ) (s : State) : ∃ x, notify dw0 s = withOep x s := by
  unfold notify
  split
  · next q cid t _ =>
    obtain ⟨x, hx⟩ := post_eq q cid dw0 (withOep { s.oep with aers := t } s)
    exact ⟨x, hx⟩
  · split_ifs
    · exact ⟨s.oep, rfl⟩
    · exact ⟨_, rfl⟩

/-- The endpoint's threshold looks at the reading, and changes nothing outside it (R330). -/
theorem oepTempCheck_eq (s : State) : ∃ x, oepTempCheck s = withOep x s := by
  unfold oepTempCheck
  dsimp only
  split_ifs
  · obtain ⟨x, hx⟩ := notify_eq (0x01 + 0x01 * 2 ^ 8 + 0x02 * 2 ^ 16) (withOep _ s)
    exact ⟨x, hx⟩
  · exact ⟨_, rfl⟩

theorem withOep_sensed (x : OepSt) (h : Sensed p s₀ s) : Sensed p s₀ (withOep x s) :=
  h.congr (h.kept.congr rfl rfl rfl rfl) rfl rfl rfl

theorem heldWake_of_awake {s : State} (h : s.awake = true) : heldWake s = s := by
  have hstate : s.f PWR_STATE_state ≠ 3 := by
    have := of_decide_eq_true h
    omega
  unfold heldWake
  split
  · rw [if_neg (by simp [hstate])]
  · rfl

theorem thmSettle_eq {s : State} (hp : LeavesStreams p) (hstate : ¬ p PWR_STATE) (hlevel : p THM_LEVEL) (hmax : p THM_MAX)
    (hclip : NoClip s₀) (hawake : s₀.awake = true) (h : Sensed p s₀ s) :
    ∃ x, thmSettle s = withOep x (levelSet (sensMax s)) := by
  obtain ⟨x, hoep⟩ := oepTempCheck_eq (levelSet (sensMax s))
  refine ⟨x, ?_⟩
  have hset := withOep_sensed x (levelSet_sensed hp hlevel hclip (sensMax_sensed hmax h))
  rw [thmSettle, hoep]
  apply heldWake_of_awake
  rw [State.awake, hset.kept.f_eq PWR_STATE_state hstate]
  exact hawake

theorem vmonJudge_sensed (v r : ℕ) (htrans : p THM_VMON_TRANS) (hlast : p ERR_LAST) (h : Sensed p s₀ s) :
    Sensed p s₀ (vmonJudge v r s) := by
  unfold vmonJudge
  dsimp only
  rw [examine_nil _ _ _ h.slots]
  exact ite_sensed (ite_sensed (lasting_sensed hlast (raise_sensed (modThm_sensed h))) (ite_sensed h (modThm_sensed h)))
    (ite_sensed (transient_sensed (bump_sensed htrans (modThm_sensed h))) (ite_sensed (modThm_sensed h) h))

theorem trimJudge_sensed (pass : Bool) (hclk : p THM_CLK) (hlast : p ERR_LAST) (h : Sensed p s₀ s) :
    Sensed p s₀ (trimJudge pass s) := by
  have hpass := setF_sensed (x := THM_CLK_trim_pass) (v := 1) hclk (modThm_sensed (f := fun t => { t with trimBad := 0 }) h)
  have hfail := modThm_sensed (f := fun t => { t with trimBad := s.thm.trimBad + 1 }) h
  unfold trimJudge
  rw [examine_nil _ _ _ h.slots]
  exact ite_sensed (ite_sensed (lasting_sensed hlast (raise_sensed (setF_sensed (x := THM_CLK_trim_pass) hclk hfail))) hfail)
    (ite_sensed (transient_sensed hpass) hpass)

end

/-! ### What a reading shows (R434 to R436) -/

/-- What a sensor last read, and whether it was read. -/
def lastRead (s : State) (i : ℕ) : Int × Bool := ((s.sens i).last, (s.sens i).seen)

theorem modSens_sens (i j : ℕ) (f : SensSt → SensSt) (s : State) :
    (modSens i f s).sens j = if j = i then f (s.sens j) else s.sens j := by
  show lookD (put s.thm.sens i (f (s.sens i))) {} j = _
  by_cases h : j = i
  · rw [if_pos h, h, lookD_put_self]
  · rw [if_neg h, lookD_put_of_ne _ _ _ _ _ h]
    rfl

/-- Judging a sensor keeps what it last read. -/
theorem modSens_lastRead (i j : ℕ) (f : SensSt → SensSt) (s : State) (hf : ∀ x, (f x).last = x.last ∧ (f x).seen = x.seen) :
    lastRead (modSens i f s) j = lastRead s j := by
  rw [lastRead, modSens_sens, lastRead]
  split
  · rw [(hf _).1, (hf _).2]
  · rfl

theorem lastRead_congr {s t : State} (h : t.thm.sens = s.thm.sens) (i : ℕ) : lastRead t i = lastRead s i := by
  rw [lastRead, lastRead, State.sens, State.sens, h]

theorem sensTake_eq (i : ℕ) (r : Int) (s : State) : ∃ n, sensTake i r s = setF (THM_SENS_t i) (r % 65536).toNat
    (modSens i (fun x => { x with last := r, seen := true, same := n }) s) := ⟨_, rfl⟩

theorem setF_lastRead (x : Fld) (v : ℕ) (s : State) (i : ℕ) : lastRead (setF x v s) i = lastRead s i := rfl

theorem sensTake_lastRead (i j : ℕ) (r : Int) (s : State) :
    lastRead (sensTake i r s) j = if j = i then (r, true) else lastRead s j := by
  obtain ⟨n, htake⟩ := sensTake_eq i r s
  rw [htake, setF_lastRead, lastRead, modSens_sens]
  split_ifs
  · rfl
  · rfl

theorem reading_lt (r : Int) : (r % 65536).toNat < 2 ^ 16 := by omega

theorem sensTake_f_self (i : ℕ) (r : Int) (s : State) : (sensTake i r s).f (THM_SENS_t i) = (r % 65536).toNat :=
  f_setF_eq (THM_SENS_t i) _ _ rfl (reading_lt r)

theorem sensTake_f_of_ne (i j : ℕ) (r : Int) (s : State) (h : j ≠ i) :
    (sensTake i r s).f (THM_SENS_t j) = s.f (THM_SENS_t j) := by
  obtain ⟨n, htake⟩ := sensTake_eq i r s
  rw [htake, f_setF_of_ne _ _ _ _ (by simp only [THM_SENS_t, THM_SENS]; omega)]
  rfl

/-- What the sensors last read, and when they are next sampled fast, is as it was. -/
structure KeepsReadings (s₀ s : State) : Prop where
  read : ∀ j, lastRead s j = lastRead s₀ j
  due : s.thm.fastDue = s₀.thm.fastDue

section
variable {p : ℕ → Prop} {s₀ s t : State}

theorem KeepsReadings.refl (s : State) : KeepsReadings s s := ⟨fun _ => rfl, rfl⟩

theorem KeepsReadings.congr (h : KeepsReadings s₀ s) (hsens : t.thm.sens = s.thm.sens) (hdue : t.thm.fastDue = s.thm.fastDue) :
    KeepsReadings s₀ t := ⟨fun j => (lastRead_congr hsens j).trans (h.read j), hdue.trans h.due⟩

theorem modSens_readings {i : ℕ} {f : SensSt → SensSt} (hf : ∀ x, (f x).last = x.last ∧ (f x).seen = x.seen)
    (h : KeepsReadings s₀ s) : KeepsReadings s₀ (modSens i f s) :=
  ⟨fun j => (modSens_lastRead i j f s hf).trans (h.read j), h.due⟩

theorem raise_readings {blk loc arg : ℕ} (h : KeepsReadings s₀ s) : KeepsReadings s₀ (raise blk loc arg s) :=
  h.congr (by rw [raise_thm]) (by rw [raise_thm])

theorem setF_readings {x : Fld} {v : ℕ} (h : KeepsReadings s₀ s) : KeepsReadings s₀ (setF x v s) := h.congr rfl rfl

theorem ite_readings {c : Prop} [Decidable c] (hs : KeepsReadings s₀ s) (ht : KeepsReadings s₀ t) :
    KeepsReadings s₀ (if c then s else t) := by
  split
  · exact hs
  · exact ht

theorem lasting_readings {kind det arg addr : ℕ} {inj : Bool} (h : KeepsReadings s₀ s) :
    KeepsReadings s₀ (lasting kind det inj arg addr s) := by
  have htold := raise_readings (blk := 0x04) (loc := 0) (arg := det) (setF_readings (x := ERR_LAST_kind) (v := kind)
    (setF_readings (x := ERR_LAST_id) (v := det) h))
  exact ite_readings htold (htold.congr rfl rfl)

theorem examDetect_readings {det arg addr : ℕ} (real : Bool) (hslots : s.err.slots = []) (h : KeepsReadings s₀ s) :
    KeepsReadings s₀ (examDetect det real arg addr s).2 := by
  rw [examDetect, examine_nil _ _ _ hslots]
  exact ite_readings (ite_readings h (ite_readings (lasting_readings h) (h.congr rfl rfl))) h

theorem sensJudge_readings (i : ℕ) (hslots : s.err.slots = []) (h : KeepsReadings s₀ s) : KeepsReadings s₀ (sensJudge i s) := by
  have hseen := examDetect_readings (det := 0x0300) (arg := i) (addr := 0) (s.sensBad i) hslots h
  unfold sensJudge
  dsimp only
  exact ite_readings (ite_readings (setF_readings (modSens_readings (fun x => ⟨rfl, rfl⟩) hseen))
      (modSens_readings (fun x => ⟨rfl, rfl⟩) hseen))
    (ite_readings (raise_readings (setF_readings (modSens_readings (fun x => ⟨rfl, rfl⟩) hseen))) hseen)

theorem sensMax_readings (h : KeepsReadings s₀ s) : KeepsReadings s₀ (sensMax s) := by
  unfold sensMax
  dsimp only
  split
  · exact ite_readings (ite_readings h (raise_readings (h.congr rfl rfl))) (h.congr rfl rfl)
  · exact ite_readings (ite_readings (h.congr rfl rfl) (raise_readings (h.congr rfl rfl))) (h.congr rfl rfl)

theorem levelSet_readings (hclip : NoClip (levelTold s)) (h : KeepsReadings s₀ s) : KeepsReadings s₀ (levelSet s) := by
  have hraised := raise_readings (blk := 0x03) (loc := 0) (arg := s.levelNow)
    (setF_readings (x := THM_LEVEL_level) (v := s.levelNow) h)
  have htold : KeepsReadings s₀ (levelTold s) := ite_readings (hraised.congr rfl rfl) hraised
  rw [levelSet_eq, closing_of_noClip hclip]
  exact ite_readings h (ite_readings (htold.congr rfl rfl) htold)

end

/-! ### The readings of a round (R434, R435) -/

/-- The sensors up to `n` read. -/
def taking (l : List Int) (n : ℕ) (s : State) : State := (List.range n).foldl (fun s i => sensTake i (l.getD i 0) s) s

theorem taking_succ (l : List Int) (n : ℕ) (s : State) : taking l (n + 1) s = sensTake n (l.getD n 0) (taking l n s) := by
  rw [taking, List.range_succ, List.foldl_append]
  rfl

theorem taking_reads (l : List Int) (n : ℕ) (s : State) {i : ℕ} (hi : i < n) :
    lastRead (taking l n s) i = (l.getD i 0, true) ∧ (taking l n s).f (THM_SENS_t i) = (l.getD i 0 % 65536).toNat := by
  induction n with
  | zero => exact absurd hi (Nat.not_lt_zero i)
  | succ n ih =>
    rw [taking_succ]
    by_cases h : i = n
    · rw [h, sensTake_lastRead, if_pos rfl]
      exact ⟨rfl, sensTake_f_self n _ _⟩
    · rw [sensTake_lastRead, if_neg h, sensTake_f_of_ne _ _ _ _ h]
      exact ih (by omega)

/-- The sensors judged, and sampled fast from now on or not. -/
def judging (s : State) : State := (List.range 16).foldl (fun s i => fastMark i (sensJudge i s)) s

theorem fastMark_lastRead (i j : ℕ) (s : State) : lastRead (fastMark i s) j = lastRead s j := lastRead_congr rfl j

theorem judging_reads {p : ℕ → Prop} (hbroken : p THM_BROKEN) (hlast : p ERR_LAST) {s : State} (hslots : s.err.slots = []) :
    Sensed p s (judging s) ∧ ∀ j, lastRead (judging s) j = lastRead s j := by
  have hfold : ∀ (l : List ℕ) (t : State), Sensed p s t → (∀ j, lastRead t j = lastRead s j) →
      Sensed p s (l.foldl (fun s i => fastMark i (sensJudge i s)) t) ∧
        ∀ j, lastRead (l.foldl (fun s i => fastMark i (sensJudge i s)) t) j = lastRead s j := by
    intro l
    induction l with
    | nil => exact fun t ht hread => ⟨ht, hread⟩
    | cons i l ih =>
      exact fun t ht hread => ih _ (fastMark_sensed i (sensJudge_sensed i hbroken hlast ht)) fun j =>
        (fastMark_lastRead i j _).trans (((sensJudge_readings i ht.slots (KeepsReadings.refl t)).read j).trans (hread j))
  exact hfold _ s (Sensed.refl p hslots) fun _ => rfl

/-- With no sensor broken and all read, THM_MAX is the highest reading (R434). -/
theorem sensMax_shows {s : State} {l : List Int} (hbroken : s.f THM_BROKEN_broken = 0)
    (hread : ∀ i < 16, lastRead s i = (l.getD i 0, true)) : (sensMax s).f THM_MAX_t =
      ((List.range 16).foldl (fun m i => max m (l.getD i 0)) (l.getD 0 0) % 65536).toNat := by
  have hlast : ∀ i < 16, (s.sens i).last = l.getD i 0 := fun i hi => congrArg Prod.fst (hread i hi)
  have hvalid : (List.range 16).filter (fun i => !s.broken i && (s.sens i).seen) = List.range 16 := by
    rw [List.filter_eq_self]
    intro i hi
    have hseen : (s.sens i).seen = true := congrArg Prod.snd (hread i (List.mem_range.mp hi))
    rw [hseen, State.broken, hbroken]
    simp [bitOf]
  have hfold : ∀ (k : List ℕ) (m : Int), (∀ i ∈ k, i < 16) →
      k.foldl (fun m j => max m (s.sens j).last) m = k.foldl (fun m j => max m (l.getD j 0)) m := by
    intro k
    induction k with
    | nil => exact fun m _ => rfl
    | cons j k ih =>
      intro m hk
      rw [List.foldl_cons, List.foldl_cons, hlast j (hk j List.mem_cons_self)]
      exact ih _ fun i hi => hk i (List.mem_cons_of_mem _ hi)
  have hcons : List.range 16 = 0 :: List.range' 1 15 := rfl
  rw [hcons, List.foldl_cons, max_self, ← hfold (List.range' 1 15) _ (by decide), ← hlast 0 (by decide)]
  unfold sensMax
  dsimp only
  rw [hvalid, hcons]
  dsimp only
  split_ifs
  · exact f_setF_eq THM_MAX_t _ _ rfl (reading_lt _)
  · exact (raise_f _ _ _ _ _).trans (f_setF_eq THM_MAX_t _ _ rfl (reading_lt _))
  · exact f_setF_eq THM_MAX_t _ _ rfl (reading_lt _)

/-- The registers that a judgement, a level and a round's monitors show in. -/
def ShowsLevel (a : ℕ) : Prop := a = THM_LEVEL ∨ a = THM_CLK ∨ a = THM_VMON_TRANS ∨ a = ERR_LAST

/-- The registers that judged readings show in. -/
def ShowsJudged (a : ℕ) : Prop := a = THM_BROKEN ∨ a = THM_MAX ∨ ShowsLevel a

theorem showsJudged_thmShown (a : ℕ) (h : ShowsJudged a) : thmShown a := by
  rcases h with rfl | rfl | rfl | rfl | rfl | rfl
  · exact .inl (by decide)
  · exact .inl (by decide)
  · exact .inl (by decide)
  · exact .inl (by decide)
  · exact .inl (by decide)
  · exact .inr (.inl rfl)

theorem sens_thmShown {i : ℕ} (hi : i < 16) : thmShown (THM_SENS i) := .inl (by simp only [THM_SENS]; omega)

theorem leavesStreams_of_thmShown {p : ℕ → Prop} (h : ∀ a, p a → thmShown a) : LeavesStreams p where
  status := fun ha => absurd (h _ ha) (by decide)
  busy := fun ha => absurd (h _ ha) (by decide)
  stream := fun k hk ha => by
    have := h _ ha
    interval_cases k
    all_goals revert this; decide

theorem sens_not_judged {i : ℕ} (hi : i < 16) : ¬ ShowsJudged (THM_SENS i) := by
  simp only [ShowsJudged, ShowsLevel, THM_SENS, THM_BROKEN, THM_MAX, THM_LEVEL, THM_CLK, THM_VMON_TRANS, ERR_LAST]
  omega

/-- The voltage monitors and the oscillators of a round. -/
def monitoring (volts : List ℕ) (ok : Bool) (s : State) : State :=
  trimJudge ok ((List.range 32).foldl (fun s v => vmonJudge v (volts.getD v 0) s) s)

theorem monitoring_sensed {s₀ s : State} (volts : List ℕ) (ok : Bool) (h : Sensed ShowsLevel s₀ s) :
    Sensed ShowsLevel s₀ (monitoring volts ok s) :=
  trimJudge_sensed ok (.inr (.inl rfl)) (.inr (.inr (.inr rfl)))
    (foldl_sensed (fun _ v _ ht => vmonJudge_sensed v _ (.inr (.inr (.inl rfl))) (.inr (.inr (.inr rfl))) ht) h)

/-- The instant at which the next slow round is due. -/
def slowAt (s : State) : ℕ := s.thm.slowDue + 10 * Config.ms

/-- A slow round begins. -/
def rounding (y : TsuSt) (v : EvrSt) (s : State) : State :=
  modThm (fun t => { t with slowDue := max (slowAt s) (max s.now (slowAt s) / (10 * Config.ms) * (10 * Config.ms)) })
    (laterAt (max s.now (slowAt s)) y v s)

theorem exec_thermalSlowRound_eq {s : State} {l : List Int} {volts : List ℕ} (ok : Bool) (hhold : s.pwr.testHold = false)
    (hcalm : Calm s) (hl : l.length = 16) (hv : volts.length = 32) : ∃ y v, exec (.thermalSlowRound l volts ok) s =
      .next (monitoring volts ok (thmSettle (judging (taking l 16 (rounding y v s))))) := by
  obtain ⟨y, v, hlater⟩ := advanceTo_laterAt (slowAt s) hcalm
  refine ⟨y, v, ?_⟩
  rw [exec_thermalSlowRound, execThermalSlowRound, hl, hv, hhold, if_neg Bool.false_ne_true]
  dsimp only
  rw [show s.thm.slowDue + 10 * Config.ms = slowAt s from rfl, hlater]
  rfl

/-- What a level leaves of the readings' registers. -/
theorem levelShown {s : State} {x : OepSt} (hslots : s.err.slots = []) (hclip : NoClip s) (volts : List ℕ) (ok : Bool) :
    Sensed ShowsLevel s (monitoring volts ok (withOep x (levelSet s))) :=
  monitoring_sensed volts ok (withOep_sensed x (levelSet_sensed
    (leavesStreams_of_thmShown fun a ha => showsJudged_thmShown a (.inr (.inr ha))) (.inl rfl) hclip (Sensed.refl _ hslots)))

/-- What a round stores of its readings, whatever comes of them. -/
theorem roundShown {s : State} (l : List Int) (hslots : s.err.slots = []) (hclip : NoClip s) (hawake : s.awake = true)
    (volts : List ℕ) (ok : Bool) : ∃ m, Sensed thmShown s m ∧ Sensed ShowsLevel m (monitoring volts ok (thmSettle (judging (taking l 16 s)))) ∧
      (∀ i < 16, m.f (THM_SENS_t i) = (l.getD i 0 % 65536).toNat) ∧
      (m.f THM_BROKEN_broken = 0 →
        m.f THM_MAX_t = ((List.range 16).foldl (fun m i => max m (l.getD i 0)) (l.getD 0 0) % 65536).toNat) := by
  have hshown := leavesStreams_of_thmShown (p := thmShown) fun _ h => h
  have htaken : Sensed thmShown s (taking l 16 s) :=
    foldl_sensed (fun _ i hi ht => sensTake_sensed i _ (sens_thmShown (List.mem_range.mp hi)) ht) (Sensed.refl _ hslots)
  obtain ⟨hjudged, hread⟩ := judging_reads (p := ShowsJudged) (.inl rfl) (.inr (.inr (.inr (.inr (.inr rfl))))) htaken.slots
  have hj := htaken.trans (hjudged.mono showsJudged_thmShown)
  have hmaxed : Sensed (· = THM_MAX) (judging (taking l 16 s)) (sensMax (judging (taking l 16 s))) :=
    sensMax_sensed rfl (Sensed.refl _ hj.slots)
  have hm := hj.trans (hmaxed.mono fun a ha => showsJudged_thmShown a (.inr (.inl ha)))
  have hbut := hjudged.trans (hmaxed.mono fun a ha => .inr (.inl ha))
  obtain ⟨x, hsettle⟩ := thmSettle_eq hshown (by decide) (.inl (by decide)) (.inl (by decide)) hclip hawake hj
  refine ⟨sensMax (judging (taking l 16 s)), hm, ?_, fun i hi => ?_, fun hbroken => ?_⟩
  · rw [hsettle]
    exact levelShown hm.slots (hm.noClip hshown hclip) volts ok
  · rw [hbut.kept.f_eq _ (sens_not_judged hi)]
    exact (taking_reads l 16 s hi).2
  · rw [hmaxed.kept.f_eq THM_BROKEN_broken (by decide)] at hbroken
    exact sensMax_shows hbroken fun i hi => (hread i).trans (taking_reads l 16 s hi).1

theorem thermalSlowRound (s : State) (l : List Int) (volts : List ℕ) (ok : Bool) : Claims.thermalSlowRound s l volts ok := by
  intro hhold hcalm hawake hl hv hclip
  obtain ⟨y, v, hrun⟩ := exec_thermalSlowRound_eq ok hhold hcalm hl hv
  obtain ⟨m, hm, hdone, hsens, hmax⟩ := roundShown (s := rounding y v s) l hcalm.1 hclip hawake volts ok
  have hlevel : ∀ a, ShowsLevel a → thmShown a := fun a ha => showsJudged_thmShown a (.inr (.inr ha))
  have hall := hm.trans (hdone.mono hlevel)
  have hstart : Kept thmShown (fun _ => False) s (rounding y v s) := (Kept.refl _ _ s).congr rfl rfl rfl rfl
  refine ⟨_, hrun, ?_, fun i hi => ?_, fun hbroken => ?_, hstart.trans hall.kept⟩
  · rw [hall.now]
    exact le_max_right _ _
  · rw [hdone.kept.f_eq _ fun h => sens_not_judged (List.mem_range.mp hi) (.inr (.inr h))]
    exact hsens i (List.mem_range.mp hi)
  · rw [hdone.kept.f_eq THM_BROKEN_broken (by unfold ShowsLevel; decide)] at hbroken
    rw [hdone.kept.f_eq THM_MAX_t (by unfold ShowsLevel; decide)]
    exact hmax hbroken

/-- A sensor sampled fast at its instant. -/
def sampling (i u : ℕ) (y : TsuSt) (v : EvrSt) (s : State) : State :=
  modThm (fun t => { t with fastDue := put t.fastDue i (max s.now u + 250 * Config.us) }) (laterAt (max s.now u) y v s)

theorem exec_thermalFastSample_eq {s : State} {i u : ℕ} (x : Int) (hhold : s.pwr.testHold = false) (hi : i < 16)
    (hcalm : Calm s) (hdue : look s.thm.fastDue i = some u) : ∃ y v, exec (.thermalFastSample i x) s =
      .next (thmSettle (sensJudge i (sensTake i x (sampling i u y v s)))) := by
  obtain ⟨y, v, hlater⟩ := advanceTo_laterAt u hcalm
  refine ⟨y, v, ?_⟩
  rw [exec_thermalFastSample, execThermalFastSample, decide_eq_true hi, hhold, if_neg Bool.false_ne_true, hdue]
  dsimp only
  rw [hlater]
  rfl

theorem look_of_due {s t : State} {i u : ℕ} (h : KeepsReadings s t) (hdue : look s.thm.fastDue i = some u) :
    look t.thm.fastDue i = some u := by rw [h.due, hdue]

theorem withOep_readings {s₀ s : State} (x : OepSt) (h : KeepsReadings s₀ s) : KeepsReadings s₀ (withOep x s) := h.congr rfl rfl

theorem thermalFastSample (s : State) (i u : ℕ) (x : Int) : Claims.thermalFastSample s i u x := by
  intro hhold hi hcalm hawake hdue hclip
  obtain ⟨y, v, hrun⟩ := exec_thermalFastSample_eq x hhold hi hcalm hdue
  have hshown := leavesStreams_of_thmShown (p := thmShown) fun _ h => h
  have hclip' : NoClip (sampling i u y v s) := hclip
  have htaken : Sensed thmShown (sampling i u y v s) (sensTake i x (sampling i u y v s)) :=
    sensTake_sensed i x (sens_thmShown hi) (Sensed.refl _ hcalm.1)
  have hjudged : Sensed ShowsJudged (sensTake i x (sampling i u y v s)) (sensJudge i (sensTake i x (sampling i u y v s))) :=
    sensJudge_sensed i (.inl rfl) (.inr (.inr (.inr (.inr (.inr rfl))))) (Sensed.refl _ htaken.slots)
  have hj := htaken.trans (hjudged.mono showsJudged_thmShown)
  obtain ⟨z, hsettle⟩ := thmSettle_eq hshown (by decide) (.inl (by decide)) (.inl (by decide)) hclip' hawake hj
  have hmaxed := sensMax_sensed (.inr (.inl rfl)) hjudged
  have hj' := htaken.trans (hmaxed.mono showsJudged_thmShown)
  have hstreams := leavesStreams_of_thmShown showsJudged_thmShown
  have hset := withOep_sensed z (levelSet_sensed hstreams (.inr (.inr (.inl rfl))) (htaken.noClip hshown hclip') hmaxed)
  have hall := htaken.trans (hset.mono showsJudged_thmShown)
  have htold := hj'.noClip hshown hclip'
  have hreads : KeepsReadings (sensTake i x (sampling i u y v s))
      (withOep z (levelSet (sensMax (sensJudge i (sensTake i x (sampling i u y v s)))))) :=
    withOep_readings z (levelSet_readings
      ((levelTold_sensed (p := ShowsJudged) (.inr (.inr (.inl rfl))) (Sensed.refl _ hmaxed.slots)).noClip hstreams htold)
      (sensMax_readings (sensJudge_readings i htaken.slots (KeepsReadings.refl _))))
  have hstart : Kept thmShown (fun _ => False) s (sampling i u y v s) := (Kept.refl _ _ s).congr rfl rfl rfl rfl
  refine ⟨_, hrun, ?_⟩
  rw [hsettle]
  refine ⟨hall.now, ?_, ?_, hstart.trans hall.kept⟩
  · rw [hset.kept.f_eq _ (sens_not_judged hi)]
    exact sensTake_f_self i x _
  · rw [hall.now]
    exact look_of_due hreads (look_put_self _ _ _)

/-! ### Sensors on trial again (R436) -/

/-- The sensors up to `n` that a write names. -/
def readmitting (v : Word) (n : ℕ) (s : State) : State := (List.range n).foldl (fun s i =>
  if bitOf v.toNat i && s.broken i then modSens i (fun x => { x with readm := true, good := 0 }) s else s) s

theorem readmitting_succ (v : Word) (n : ℕ) (s : State) : readmitting v (n + 1) s =
    if bitOf v.toNat n && (readmitting v n s).broken n
      then modSens n (fun x => { x with readm := true, good := 0 }) (readmitting v n s) else readmitting v n s := by
  rw [readmitting, List.range_succ, List.foldl_append]
  rfl

/-- A write of THM_READMIT changes no register. -/
theorem readmitting_eq (v : Word) (n : ℕ) (s : State) : ∃ x, readmitting v n s = { s with thm := x } := by
  induction n with
  | zero => exact ⟨s.thm, rfl⟩
  | succ n ih =>
    obtain ⟨x, hx⟩ := ih
    rw [readmitting_succ, hx]
    split
    · exact ⟨_, rfl⟩
    · exact ⟨x, rfl⟩

theorem readmitting_broken (v : Word) (n i : ℕ) (s : State) : (readmitting v n s).broken i = s.broken i := by
  obtain ⟨x, hx⟩ := readmitting_eq v n s
  rw [hx]
  rfl

theorem readmitting_sens (v : Word) (n i : ℕ) (s : State) : (readmitting v n s).sens i =
    if i < n ∧ bitOf v.toNat i = true ∧ s.broken i = true then { s.sens i with readm := true, good := 0 } else s.sens i := by
  induction n with
  | zero => rw [if_neg (by omega)]; rfl
  | succ n ih =>
    rw [readmitting_succ, readmitting_broken]
    by_cases h : i = n
    · subst h
      rw [if_neg (by omega)] at ih
      split_ifs with hnamed hthen hthen
      · rw [modSens_sens, if_pos rfl, ih]
      · exact absurd ⟨by omega, Bool.and_eq_true_iff.mp hnamed⟩ hthen
      · exact absurd (Bool.and_eq_true_iff.mpr hthen.2) hnamed
      · exact ih
    · have hsame : (if (bitOf v.toNat n && s.broken n) = true
          then modSens n (fun x => { x with readm := true, good := 0 }) (readmitting v n s) else readmitting v n s).sens i =
          (readmitting v n s).sens i := by
        split_ifs
        · rw [modSens_sens, if_neg h]
        · rfl
      rw [hsame, ih]
      exact if_congr (and_congr_left fun _ => by omega) rfl rfl

theorem sensorReadmit (s : State) (r : Requester) (v : Word) : Claims.sensorReadmit s r v := by
  intro hhold
  refine writes_of_served (a := THM_READMIT) (k := thmReadmitWrite v) (by rw [exec_sensorReadmit, execSensorReadmit])
    (served_of_no_domain hhold rfl rfl) (fun l e i hi => ?_) (fun l => ?_)
  · refine (readmitting_sens v 16 i (held l s)).trans (if_congr ?_ rfl rfl)
    exact and_iff_right (List.mem_range.mp hi)
  · obtain ⟨x, hx⟩ := readmitting_eq v 16 (held l s)
    rw [show thmReadmitWrite v (held l s) = readmitting v 16 (held l s) from rfl, hx]
    exact (kept_held _ _ l s).congr rfl rfl rfl rfl

/-- Settles O52, a command at a time. -/
theorem voltageAndThermal : Obligations.VoltageAndThermal := by
  unfold Obligations.VoltageAndThermal
  exact ⟨avsInterval, avsFails, pmbTransaction, pmbDone, pmbRead, pmbAlert, thermalSlowRound, thermalFastSample, sensorReadmit⟩

end Sys2Proof.Proofs.Thermal

/-! The H.265 decoder's queue, jobs, watchdog and picture buffers (R253 to R257). -/

namespace Sys2Proof.Proofs.Decoder

open Sys2Proof.Machine
open Sys2Proof.Proofs.Keeping
open Sys2Proof.Proofs.Access
open Sys2Proof.Proofs.UnitAccess
open Sys2Proof.Proofs.TimeUnit
open Sys2Proof.Proofs.Bus
open Sys2Proof.Proofs.ClockRouter (poke_evr)
open Sys2Proof.Claims (Keeps Told Calm RegsBut MemBut)

/-! ### The queue and the picture buffers (R253, R254) -/

theorem cmdTail_window (v : Variant) : InBlock v HVC_DEC_CMD_TAIL dHVC rowsHvc (HVC_DEC_CMD_TAIL - 0x44100000) := ⟨rfl, rfl⟩

theorem cmdTail_row : rowAt ⟨true, some dHVC, rowsHvc, HVC_DEC_CMD_TAIL - 0x44100000⟩ =
    some ⟨0x200C, [], .d, [⟨31, 0, .rw, 0⟩]⟩ := rfl

theorem decSubmit (s : State) (r : Requester) (v : Word) : Claims.decSubmit s r v := by
  intro hon
  refine writes_of_served (k := decTailWrite v) rfl (served_of_unitOn (cmdTail_window _) hon) (fun l e => ?_)
    (fun l => plainWrite_kept rfl (kept_held _ _ l s))
  rw [answered_rd, decTailWrite, plainWrite_of_rw (cmdTail_window _).window cmdTail_row]
  exact (rd_wr_self _ _ (held l s)).trans (setBits_word _ v)

theorem dcRel_window {d : ℕ} (v : Variant) (hd : d < 16) :
    InBlock v (HVC_DC_REL d) dHVC rowsHvc (HVC_DC_REL d - 0x44100000) := by
  interval_cases d
  all_goals exact ⟨rfl, rfl⟩

@[simp] theorem modDc_dc (d : ℕ) (k : DecSt → DecSt) (s : State) : (modDc d k s).dc d = k (s.dc d) := by
  simp [modDc, State.dc]

theorem dpbRelease (s : State) (r : Requester) (d : ℕ) (v : Word) : Claims.dpbRelease s r d v := by
  intro hd hon
  refine writes_of_served (k := dpbRelWrite d v) (by rw [exec_dpbRelease, execDpbRelease, decide_eq_true hd]; rfl)
    (served_of_unitOn (dcRel_window _ hd) hon) (fun l e => ?_) (fun l => (kept_held _ _ l s).congr rfl rfl rfl rfl)
  show ((dpbRelWrite d v (held l s)).dc d).held = _ ∧ ((dpbRelWrite d v (held l s)).dc d).due = _ ∧
    ((dpbRelWrite d v (held l s)).dc d).pics = _
  rw [dpbRelWrite, modDc_dc]
  exact ⟨rfl, rfl, rfl⟩

/-! ### A job starts (R253) -/

/-- The job whose descriptor reads `b`. -/
def jobOf (b : List Byte) : DecJob := ⟨leAt b 0 4 % 16, leAt b 8 8 % 2 ^ 40, leAt b 16 4, leAt b 24 8, true⟩

/-- Where the next descriptor stands. -/
def cmdAt (s : State) : ℕ :=
  s.pair HVC_DEC_CMD_LO HVC_DEC_CMD_HI + s.f HVC_DEC_CMD_HEAD_cmd_head % s.f HVC_DEC_CMD_CFG_entries * 32

/-- The job taken, with this much of the decoder's contexts. -/
def taking (x : HvcSt) (n : ℕ) (s : State) : State := { s with hvc := x, fresh := n }

theorem taking_kept {p q : ℕ → Prop} {s₀ s : State} (x : HvcSt) (n : ℕ) (h : Kept p q s₀ s) : Kept p q s₀ (taking x n s) :=
  h.congr rfl rfl rfl rfl

theorem slice_peeks (s : State) (a n i k : ℕ) (h : i + k ≤ n) : slice (s.peeks a n) 0 i k = s.peeks (a + i) k := by
  have hpart : ((s.peeks a n).drop i).take k = s.peeks (a + i) k := by
    refine List.ext_getElem (by simp [State.peeks]; omega) fun j _ _ => ?_
    simp [State.peeks, Nat.add_assoc]
  rw [slice, hpart]
  simp [State.peeks]

theorem leAt_peeks (s : State) (a n i k : ℕ) (h : i + k ≤ n) : leAt (s.peeks a n) i k = leNat (s.peeks (a + i) k) := by
  rw [leAt, slice_peeks s a n i k h]

theorem peeks_congr {s t : State} (h : ∀ x, t.peek x = s.peek x) (a n : ℕ) : t.peeks a n = s.peeks a n := by
  simp only [State.peeks, h]

/-- A word's low 4 bits are its first byte's. -/
theorem word_mod (s : State) (a : ℕ) : leNat (s.peeks a 4) % 16 = leNat (s.peeks a 1) % 16 := by
  simp only [State.peeks, List.range_succ, List.range_zero, List.nil_append, List.cons_append, List.map_cons, List.map_nil, leNat]
  omega

/-- A job starts where the decoder may take one. -/
structure Ready (s : State) : Prop where
  enabled : s.b HVC_CTRL_dec_en = true
  idle : s.hvc.job = none
  ring : s.f HVC_DEC_CMD_CFG_entries ≠ 0
  waits : ringHas (s.f HVC_DEC_CMD_HEAD_cmd_head) (s.f HVC_DEC_CMD_TAIL_cmd_tail) = true
  room : (s.f HVC_DEC_CPL_TAIL_cpl_tail + 2 ^ 32 - s.f HVC_DEC_CPL_HEAD_cpl_head) % 2 ^ 32 < s.f HVC_DEC_CPL_CFG_entries

theorem decStart_of_ready {s : State} (h : Ready s) : decStart s = match dmaRead 8 (cmdAt s) 32 s with
    | (none, s) => taking { s.hvc with job := some ⟨0, 0, 1, (draw s).1.toNat, false⟩, decAt := s.now } (s.fresh + 1) s
    | (some b, s) => taking { (if bitOf (leAt b 0 4) 4 then modDc (leAt b 0 4 % 16) (fun _ => {}) s else s).hvc with
        job := some (jobOf b), decAt := s.now } s.fresh s := by
  obtain ⟨henabled, hidle, hring, hwaits, hroom⟩ := h
  have hgo : ¬ (!s.b HVC_CTRL_dec_en || s.hvc.job.isSome || decide (s.f HVC_DEC_CMD_CFG_entries = 0) ||
      !ringHas (s.f HVC_DEC_CMD_HEAD_cmd_head) (s.f HVC_DEC_CMD_TAIL_cmd_tail) ||
      decide (s.f HVC_DEC_CPL_CFG_entries ≤
        (s.f HVC_DEC_CPL_TAIL_cpl_tail + 2 ^ 32 - s.f HVC_DEC_CPL_HEAD_cpl_head) % 2 ^ 32)) = true := by
    rw [henabled, hidle, hwaits, decide_eq_false hring, decide_eq_false (Nat.not_le.mpr hroom)]
    decide
  unfold decStart
  extract_lets head n used
  rw [if_neg hgo, show s.pair HVC_DEC_CMD_LO HVC_DEC_CMD_HI + head % n * 32 = cmdAt s from rfl]
  rcases dmaRead 8 (cmdAt s) 32 s with ⟨_ | b, t⟩
  · rfl
  · dsimp only
    split
    · rfl
    · rfl

/-- What the job's descriptor says of it. -/
def jobSays (j : DecJob) : ℕ × ℕ × ℕ := (j.d, j.len, j.tag)

theorem jobSays_of (s : State) (a : ℕ) : jobSays (jobOf (s.peeks a 32)) =
    (leNat (s.peeks a 1) % 16, leNat (s.peeks (a + 16) 4), leNat (s.peeks (a + 24) 8)) := by
  rw [jobSays, jobOf, leAt_peeks _ _ _ _ _ (by decide), leAt_peeks _ _ _ _ _ (by decide),
    leAt_peeks _ _ _ _ _ (by decide), leAt_peeks _ _ _ _ _ (by decide), Nat.add_zero, word_mod]

/-- The decoder with this job. -/
def withJob (x : HvcSt) (j : DecJob) : HvcSt := { x with job := some j }

theorem decStart_answered {s : State} (hready : Ready s) (hslots : s.err.slots = []) (hfills : s.mc.fills = [])
    (hreread : s.mc.reread = []) (hans : s.memAnswers (cmdAt s) 32 false = true) : ∃ t x, Scheduled s t ∧
      decStart s = taking (withJob x (jobOf (s.peeks (cmdAt s) 32))) t.fresh t := by
  obtain ⟨t, hsched, hread⟩ := dmaRead_answered 8 (cmdAt s) 32 s hslots hfills hreread hans
  rw [decStart_of_ready hready, hread, ← peeks_congr hsched.peek]
  exact ⟨t, ⟨_, _, _, none, _, _, _⟩, hsched, rfl⟩

theorem decStart_refused {s : State} (hready : Ready s) (hfills : s.mc.fills = [])
    (hreread : s.mc.reread = []) (hans : ¬ s.memAnswers (cmdAt s) 32 false = true) : ∃ x j,
      decStart s = taking (withJob x j) (s.fresh + 1) s := by
  rw [decStart_of_ready hready, dmaRead_refused 8 (cmdAt s) 32 s hfills hreread hans]
  exact ⟨{ s.hvc with decAt := s.now }, _, rfl⟩

theorem taking_job (x : HvcSt) (j : DecJob) (n : ℕ) (s : State) :
    (taking (withJob x j) n s).hvc.job = some j := rfl

theorem decJobStart (s : State) : Claims.decJobStart s := by
  intro hon hslots hfills hreread henabled hidle hring hwaits hroom
  have hready : Ready s := ⟨henabled, hidle, hring, hwaits, hroom⟩
  refine ⟨decStart s, by rw [exec_decJobStart, execDecJobStart, if_pos hon], ?_⟩
  by_cases hans : s.memAnswers (cmdAt s) 32 false = true
  · obtain ⟨t, x, hsched, hstart⟩ := decStart_answered hready hslots hfills hreread hans
    rw [hstart, taking_job]
    exact ⟨rfl, fun _ => congrArg some (jobSays_of s (cmdAt s)), taking_kept _ _ hsched.kept⟩
  · obtain ⟨x, j, hstart⟩ := decStart_refused hready hfills hreread hans
    rw [hstart, taking_job]
    exact ⟨rfl, fun h => absurd h hans, taking_kept _ _ (Kept.refl _ _ s)⟩

/-! ### What the coding of a picture leaves (R254 to R257) -/

/-- No error is injected, no fill or re-read waits, and every register but those of `p` and every byte but those of `q` is as
it was. -/
structure Coding (p q : ℕ → Prop) (s₀ s : State) : Prop where
  kept : Kept p q s₀ s
  calm : Calm s
  fills : s.mc.fills = []
  reread : s.mc.reread = []
  hold : s.pwr.testHold = s₀.pwr.testHold
  later : s₀.now ≤ s.now

section
variable {p q : ℕ → Prop} {s₀ s t : State}

theorem Coding.refl (p q : ℕ → Prop) (hcalm : Calm s) (hfills : s.mc.fills = []) (hreread : s.mc.reread = []) : Coding p q s s :=
  ⟨Kept.refl p q s, hcalm, hfills, hreread, rfl, le_refl _⟩

theorem Coding.mono {p' q' : ℕ → Prop} (hp : ∀ a, p a → p' a) (hq : ∀ a, q a → q' a) (h : Coding p q s₀ s) :
    Coding p' q' s₀ s := ⟨h.kept.mono hp hq, h.calm, h.fills, h.reread, h.hold, h.later⟩

theorem Coding.congr (h : Coding p q s₀ s) (hkept : Kept p q s₀ t) (herr : t.err.slots = s.err.slots) (htsu : t.tsu = s.tsu)
    (hmc : t.mc.fills = s.mc.fills ∧ t.mc.reread = s.mc.reread) (hpwr : t.pwr = s.pwr) (hnow : t.now = s.now) :
    Coding p q s₀ t where
  kept := hkept
  calm := by
    obtain ⟨hslots, hincr, hset, hstep⟩ := h.calm
    exact ⟨herr.trans hslots, htsu ▸ hincr, htsu ▸ hset, htsu ▸ hstep⟩
  fills := hmc.1.trans h.fills
  reread := hmc.2.trans h.reread
  hold := hpwr ▸ h.hold
  later := hnow ▸ h.later

theorem Scheduled.coding (h : Coding p q s₀ s) (hsched : Scheduled s t) : Coding p q s₀ t := by
  have hfills := hsched.fills
  have hreread := hsched.reread
  have hkept : Kept p q s₀ t := h.kept.trans hsched.kept
  obtain ⟨mc, _, rfl⟩ := hsched
  exact h.congr hkept rfl rfl ⟨hfills, hreread⟩ rfl rfl

theorem setF_coding {x : Fld} {v : ℕ} (hx : p x.addr) (h : Coding p q s₀ s) : Coding p q s₀ (setF x v s) :=
  h.congr (setF_kept hx h.kept) rfl rfl ⟨rfl, rfl⟩ rfl rfl

theorem bumpBy_coding {a n : ℕ} (ha : p a) (h : Coding p q s₀ s) : Coding p q s₀ (bumpBy a n s) :=
  h.congr (bumpBy_kept ha h.kept) rfl rfl ⟨rfl, rfl⟩ rfl rfl

theorem raise_coding {blk loc arg : ℕ} (h : Coding p q s₀ s) : Coding p q s₀ (raise blk loc arg s) :=
  h.congr (raise_kept h.kept) (by rw [raise_err]) (raise_tsu _ _ _ s) (by rw [raise_mc]; exact ⟨rfl, rfl⟩) (raise_pwr _ _ _ s)
    (raise_now _ _ _ s)

theorem modDc_coding {d : ℕ} {k : DecSt → DecSt} (h : Coding p q s₀ s) : Coding p q s₀ (modDc d k s) :=
  h.congr (h.kept.congr rfl rfl rfl rfl) rfl rfl ⟨rfl, rfl⟩ rfl rfl

theorem draw_coding (h : Coding p q s₀ s) : Coding p q s₀ (draw s).2 :=
  h.congr (h.kept.congr rfl rfl rfl rfl) rfl rfl ⟨rfl, rfl⟩ rfl rfl

theorem ite_coding {c : Prop} [Decidable c] (hs : Coding p q s₀ s) (ht : Coding p q s₀ t) :
    Coding p q s₀ (if c then s else t) := by
  split
  · exact hs
  · exact ht

theorem ite_coding_snd {α : Type} {c : Prop} [Decidable c] {x y : α × State} (hx : Coding p q s₀ x.2) (hy : Coding p q s₀ y.2) :
    Coding p q s₀ (if c then x else y).2 := by
  split
  · exact hx
  · exact hy

theorem foldl_coding_snd {α β : Type} {l : List α} {f : β × State → α → β × State} {x : β × State}
    (hf : ∀ (x : β × State) (i : α), Coding p q s₀ x.2 → Coding p q s₀ (f x i).2) (h : Coding p q s₀ x.2) :
    Coding p q s₀ (l.foldl f x).2 := by
  induction l generalizing x with
  | nil => exact h
  | cons i l ih => exact ih (hf x i h)

theorem tsuTime_calm (sec units : ℕ) (h : Calm s) : Calm (tsuTime sec units s) := h

theorem tsuCarries_calm (sec u inc c : ℕ) (h : Calm s) : Calm (tsuCarries sec u inc c s) := by
  unfold tsuCarries
  split
  · refine List.foldlRecOn (motive := Calm) _ _ h fun t ht i _ => ?_
    obtain ⟨l, htold⟩ := raiseAt_eq_telling
      ⟨(sec + i + 1) % 2 ^ 48, (u + ceilDiv ((i + 1) * secUnits - u) inc * inc - (i + 1) * secUnits) / 2 ^ 32⟩ 0x52 2
      ((sec + i + 1) % 65536) t
    dsimp only [-Nat.reducePow]
    rw [htold]
    exact ht
  · exact h

/-- The clock's run captures nothing. -/
theorem tsuRun_calm (k : ℕ) (h : Calm s) : Calm (tsuRun k s) := tsuTime_calm _ _ (tsuCarries_calm _ _ _ _ h)

theorem advanceTo_stays_calm (t : ℕ) (h : Calm s) : Calm (advanceTo t s) := by
  unfold advanceTo
  split
  · exact h
  · dsimp only
    split
    · exact h
    · obtain ⟨hslots, hincr, hset, hstep⟩ := h
      simp only [hincr, hset, hstep, Option.isNone_none, Bool.and_self, if_true]
      rw [tsuParity_nil _ _ (by exact hslots)]
      exact tsuRun_calm _ ⟨hslots, hincr, hset, hstep⟩

theorem advanceTo_coding (t : ℕ) (h : Coding p q s₀ s) : Coding p q s₀ (advanceTo t s) := by
  have hcalm := advanceTo_stays_calm t h.calm
  obtain ⟨x, v, hlater⟩ := advanceTo_laterAt t h.calm
  rw [hlater] at hcalm ⊢
  exact ⟨h.kept.congr rfl rfl rfl rfl, hcalm, h.fills, h.reread, h.hold, le_trans h.later (le_max_left _ _)⟩

/-- A detection that its rate judges shows in no register. -/
theorem detect_counted {det : ℕ} (hdet : hasRetry det = false ∧ lastingAtOnce det = false) (inj : Bool) (arg addr : ℕ) (s : State) :
    ∃ r i, detect det inj arg addr s = counting r i s := by
  rw [detect, detectN, hdet.1, hdet.2, if_neg (by decide), if_neg (by decide)]
  exact ⟨_, _, rfl⟩

theorem examDetect_coding {det arg addr : ℕ} (real : Bool) (hdet : hasRetry det = false ∧ lastingAtOnce det = false)
    (h : Coding p q s₀ s) : Coding p q s₀ (examDetect det real arg addr s).2 := by
  rw [examDetect, examine_nil _ _ _ h.calm.1]
  refine ite_coding ?_ h
  dsimp only
  obtain ⟨r, i, hcount⟩ := detect_counted hdet false arg addr s
  rw [hcount]
  exact h.congr (h.kept.congr rfl rfl rfl rfl) rfl rfl ⟨rfl, rfl⟩ rfl rfl

theorem dmaRead_coding (cls a n : ℕ) (h : Coding p q s₀ s) : Coding p q s₀ (dmaRead cls a n s).2 := by
  by_cases hans : s.memAnswers a n false = true
  · obtain ⟨t, hsched, hread⟩ := dmaRead_answered cls a n s h.calm.1 h.fills h.reread hans
    rw [hread]
    exact Scheduled.coding h hsched
  · rw [dmaRead_refused cls a n s h.fills h.reread hans]
    exact h

theorem dmaTake_coding (cls a n : ℕ) (h : Coding p q s₀ s) : Coding p q s₀ (dmaTake cls a n s).2 := by
  have hread := dmaRead_coding cls a n h
  unfold dmaTake
  split
  · next bs t hx => rw [hx] at hread; exact hread
  · next t hx => rw [hx] at hread; exact hread

theorem poke_coding (a : ℕ) (bs : List Byte) (hq : ∀ x, a ≤ x → x < a + bs.length → q x) (h : Coding p q s₀ s) :
    Coding p q s₀ (poke a bs s) := by
  have hkept := poke_kept a bs hq h.kept
  unfold poke dropFormer at hkept ⊢
  split
  · next hc => rw [if_pos hc] at hkept; exact h.congr hkept rfl rfl ⟨rfl, rfl⟩ rfl rfl
  · next hc => rw [if_neg hc] at hkept; exact h.congr hkept rfl rfl ⟨rfl, rfl⟩ rfl rfl

theorem dmaPut_coding (cls a : ℕ) (bs : List Byte) (hq : ∀ x, a ≤ x → x < a + bs.length → q x) (h : Coding p q s₀ s) :
    Coding p q s₀ (dmaPut cls a bs s) := by
  by_cases hans : s.memAnswers a bs.length true = true
  · obtain ⟨t, hsched, hwrite⟩ := dmaWrite_answered cls a bs s h.calm.1 h.fills h.reread hans
    rw [dmaPut, hwrite]
    exact poke_coding a bs hq (Scheduled.coding h hsched)
  · rw [dmaPut, dmaWrite_refused cls a bs s h.fills h.reread hans]
    exact h

/-- Where a DPB entry stands (R254). -/
def entryAt (s : State) (d e : ℕ) : ℕ := s.pair (HVC_DC_DPB_LO d) (HVC_DC_DPB_HI d) + 16 * e

/-- What the bytes of a DPB entry say. -/
def entrySays : Option (List Byte) → ℕ × ℕ × ℕ
  | none => (0, 0, 0)
  | some b => (leAt b 0 8 % 2 ^ 40, leAt b 8 4, leAt b 12 4 / 64 % 2 ^ 18 * 64)

theorem dpbEntry_of_read {d e : ℕ} {r : Option (List Byte)} (h : dmaRead 8 (entryAt s d e) 16 s = (r, t)) :
    dpbEntry d e s = (entrySays r, t) := by
  obtain ⟨body, hbody⟩ : ∃ f, f = dpbEntry := ⟨_, rfl⟩
  obtain ⟨read, hread⟩ : ∃ f, f = dmaRead := ⟨_, rfl⟩
  rw [entryAt, ← hread] at h
  rw [← hbody]
  delta dpbEntry at hbody
  rw [← hread] at hbody
  subst hbody
  beta_reduce
  rw [h]
  cases r with
  | none => rfl
  | some b => rfl

/-- An entry says what memory holds there, or nothing. -/
theorem dpbEntry_reads (d e : ℕ) (hcalm : Calm s) (hfills : s.mc.fills = []) (hreread : s.mc.reread = []) :
    (dpbEntry d e s).1 = entrySays none ∨ (dpbEntry d e s).1 = entrySays (some (s.peeks (entryAt s d e) 16)) := by
  by_cases hans : s.memAnswers (entryAt s d e) 16 false = true
  · obtain ⟨t, hsched, hread⟩ := dmaRead_answered 8 _ 16 s hcalm.1 hfills hreread hans
    rw [dpbEntry_of_read hread, peeks_congr hsched.peek]
    exact .inr rfl
  · rw [dpbEntry_of_read (dmaRead_refused 8 _ 16 s hfills hreread hans)]
    exact .inl rfl

theorem dpbEntry_coding (d e : ℕ) (h : Coding p q s₀ s) : Coding p q s₀ (dpbEntry d e s).2 := by
  have hcoding := dmaRead_coding 8 (entryAt s d e) 16 h
  rcases hread : dmaRead 8 (entryAt s d e) 16 s with ⟨r, t⟩
  rw [hread] at hcoding
  rw [dpbEntry_of_read hread]
  exact hcoding

theorem dpbPut_coding {base len : ℕ} (off : ℕ) (bs : List Byte) {x : ℕ × State} (hq : ∀ a, base ≤ a → a < base + len → q a)
    (h : Coding p q s₀ x.2) : Coding p q s₀ (dpbPut base len off bs x).2 := by
  refine dmaPut_coding 8 (base + off) _ (fun a hlo hhi => hq a (by omega) ?_) h
  rw [List.length_take] at hhi
  omega

/-- A picture is written inside its entry alone (R254, R257). -/
theorem decWrite_coding {d e : ℕ} {sps : HevcSps} {au : DecodedAu} {refs : List ℕ} {bad : Conceal}
    (hq : ∀ a, (dpbEntry d e s).1.1 ≤ a → a < (dpbEntry d e s).1.1 + (dpbEntry d e s).1.2.1 → q a) (h : Coding p q s₀ s) :
    Coding p q s₀ (decWrite d e sps au refs bad s).2 := by
  obtain ⟨body, hbody⟩ : ∃ f, f = decWrite := ⟨_, rfl⟩
  obtain ⟨entry, hentry⟩ : ∃ f, f = dpbEntry := ⟨_, rfl⟩
  obtain ⟨take, htake⟩ : ∃ f, f = dmaTake := ⟨_, rfl⟩
  have hentries : ∀ {t : State} (r : ℕ), Coding p q s₀ t → Coding p q s₀ (entry d r t).2 := fun r ht => by
    rw [hentry]
    exact dpbEntry_coding d r ht
  have htaken : ∀ {t : State} (a n : ℕ), Coding p q s₀ t → Coding p q s₀ (take 8 a n t).2 := fun a n ht => by
    rw [htake]
    exact dmaTake_coding 8 a n ht
  rw [← hbody]
  rw [← hentry] at hq
  delta decWrite at hbody
  rw [← hentry, ← htake] at hbody
  subst hbody
  beta_reduce
  exact dpbPut_coding _ _ hq (foldl_coding_snd (fun _ _ h2 => dpbPut_coding _ _ hq (foldl_coding_snd
    (fun _ _ h3 => htaken _ _ h3) h2)) (foldl_coding_snd (fun _ _ h2 => hentries _ h2) (hentries e h)))

/-! ### A job's completion (R255) -/

/-- The bytes of a completion record. -/
def record (job : DecJob) (w2 poc outs : ℕ) (win : ℕ × ℕ × ℕ × ℕ) : List Byte :=
  leBytes 8 job.tag ++ leBytes 4 w2 ++ leBytes 4 poc ++ leBytes 4 outs ++ leBytes 2 win.1 ++
    leBytes 2 win.2.1 ++ leBytes 2 win.2.2.1 ++ leBytes 2 win.2.2.2 ++ leBytes 4 0

theorem record_length (job : DecJob) (w2 poc outs : ℕ) (win : ℕ × ℕ × ℕ × ℕ) : (record job w2 poc outs win).length = 32 := by
  simp [record, leBytes]

/-- Where the next completion record stands. -/
def recordAt (s : State) : ℕ :=
  s.pair HVC_DEC_CPL_LO HVC_DEC_CPL_HI + s.f HVC_DEC_CPL_TAIL_cpl_tail % s.f HVC_DEC_CPL_CFG_entries * 32

/-- A completion record stored, if there is a ring for it. -/
def recorded (bs : List Byte) (s : State) : State :=
  if s.f HVC_DEC_CPL_CFG_entries = 0 then s else dmaPut 8 (recordAt s) bs s

/-- The job gone, the tail of completions at `tail + 1` and the head of commands moved. -/
def jobGone (tail d : ℕ) (s : State) : State :=
  let t := setF HVC_DEC_CPL_TAIL_cpl_tail (tail + 1) s
  let u := setF HVC_DEC_CMD_HEAD_cmd_head (t.f HVC_DEC_CMD_HEAD_cmd_head + 1) t
  raise 0x30 8 d { u with hvc := { u.hvc with job := none } }

theorem decComplete_eq (job : DecJob) (w2 poc outs : ℕ) (win : ℕ × ℕ × ℕ × ℕ) (s : State) :
    decComplete job w2 poc outs win s =
      jobGone (s.f HVC_DEC_CPL_TAIL_cpl_tail) job.d (recorded (record job w2 poc outs win) s) := by
  obtain ⟨write, hwrite⟩ : ∃ f, f = dmaPut := ⟨_, rfl⟩
  unfold decComplete recorded
  rw [← hwrite]
  rfl

/-- The registers that a completion moves. -/
def ShowsDone (a : ℕ) : Prop := a = HVC_DEC_CPL_TAIL ∨ a = HVC_DEC_CMD_HEAD ∨ a = HVC_DEC_CLIP

theorem recorded_coding {job : DecJob} {w2 poc outs : ℕ} {win : ℕ × ℕ × ℕ × ℕ}
    (hq : ∀ x, recordAt s ≤ x → x < recordAt s + 32 → q x) (h : Coding p q s₀ s) :
    Coding p q s₀ (recorded (record job w2 poc outs win) s) :=
  ite_coding h (dmaPut_coding 8 _ _ (by rw [record_length]; exact hq) h)

theorem jobGone_coding (tail d : ℕ) (h : Coding ShowsDone q s₀ s) : Coding ShowsDone q s₀ (jobGone tail d s) := by
  have hset := setF_coding (x := HVC_DEC_CPL_TAIL_cpl_tail) (v := tail + 1) (.inl rfl) h
  have hmoved := setF_coding (x := HVC_DEC_CMD_HEAD_cmd_head)
    (v := (setF HVC_DEC_CPL_TAIL_cpl_tail (tail + 1) s).f HVC_DEC_CMD_HEAD_cmd_head + 1) (.inr (.inl rfl)) hset
  exact raise_coding (hmoved.congr (hmoved.kept.congr rfl rfl rfl rfl) rfl rfl ⟨rfl, rfl⟩ rfl rfl)

theorem evtOn_hvc {s t : State} (loc : ℕ) (h : t.rd HVC_EVT_EN = s.rd HVC_EVT_EN) : t.evtOn 0x30 loc = s.evtOn 0x30 loc := by
  simp only [State.evtOn, h]
  rfl

theorem told_decoder {loc arg : ℕ} (h : Coding ShowsDone q s₀ s) : Told 0x30 loc arg s₀ (raise 0x30 loc arg s) :=
  told_raise (evtOn_hvc loc (h.kept.1 _ (by unfold ShowsDone; decide))) h.hold

theorem jobGone_shows (tail d : ℕ) (h : Coding ShowsDone q s₀ s) : (jobGone tail d s).hvc.job = none ∧
    (jobGone tail d s).f HVC_DEC_CPL_TAIL_cpl_tail = (tail + 1) % 2 ^ 32 ∧
    (jobGone tail d s).f HVC_DEC_CMD_HEAD_cmd_head = (s.f HVC_DEC_CMD_HEAD_cmd_head + 1) % 2 ^ 32 ∧
    Told 0x30 8 d s₀ (jobGone tail d s) := by
  have hset := setF_coding (x := HVC_DEC_CPL_TAIL_cpl_tail) (v := tail + 1) (.inl rfl) h
  have hmoved := setF_coding (x := HVC_DEC_CMD_HEAD_cmd_head)
    (v := (setF HVC_DEC_CPL_TAIL_cpl_tail (tail + 1) s).f HVC_DEC_CMD_HEAD_cmd_head + 1) (.inr (.inl rfl)) hset
  refine ⟨?_, ?_, ?_, told_decoder (hmoved.congr (hmoved.kept.congr rfl rfl rfl rfl) rfl rfl ⟨rfl, rfl⟩ rfl rfl)⟩
  · rw [jobGone, raise_hvc]
  · rw [jobGone, raise_f]
    show (setF HVC_DEC_CMD_HEAD_cmd_head _ (setF HVC_DEC_CPL_TAIL_cpl_tail (tail + 1) s)).f HVC_DEC_CPL_TAIL_cpl_tail = _
    rw [f_setF_of_ne _ _ _ _ (by decide)]
    exact f_setF_fit HVC_DEC_CPL_TAIL_cpl_tail _ s rfl
  · rw [jobGone, raise_f]
    show (setF HVC_DEC_CMD_HEAD_cmd_head _ (setF HVC_DEC_CPL_TAIL_cpl_tail (tail + 1) s)).f HVC_DEC_CMD_HEAD_cmd_head = _
    refine (f_setF_fit HVC_DEC_CMD_HEAD_cmd_head _ _ rfl).trans ?_
    rw [f_setF_of_ne HVC_DEC_CPL_TAIL_cpl_tail HVC_DEC_CMD_HEAD_cmd_head _ _ (by decide)]
    rfl

/-! ### The end of a picture (R254 to R259) -/

theorem of_snd_eq {α : Type} {x : α × State} {a : α} (hx : x = (a, t)) (h : Coding p q s₀ x.2) : Coding p q s₀ t := by
  rw [hx] at h
  exact h

theorem told_raise_of_told {blk loc arg b l a : ℕ} (h : Told blk loc arg s₀ s) : Told blk loc arg s₀ (raise b l a s) := by
  obtain ⟨e, htold⟩ := raise_eq_telling b l a s
  exact told_of_flight h e (by rw [htold]; rfl)

theorem told_ite_raise {c : Prop} [Decidable c] {blk loc arg b l a : ℕ} (h : Told blk loc arg s₀ s) :
    Told blk loc arg s₀ (if c then raise b l a s else s) := by
  split
  · exact told_raise_of_told h
  · exact h

theorem examDetect_fst (det : ℕ) (real : Bool) (arg addr : ℕ) (hslots : s.err.slots = []) :
    (examDetect det real arg addr s).1 = real := by
  rw [examDetect, examine_nil _ _ _ hslots]

/-- A byte of entry `e`, as memory holds the entry (R254). -/
def InEntry (s : State) (d e x : ℕ) : Prop :=
  leAt (s.peeks (entryAt s d e) 16) 0 8 % 2 ^ 40 ≤ x ∧
    x < leAt (s.peeks (entryAt s d e) 16) 0 8 % 2 ^ 40 + leAt (s.peeks (entryAt s d e) 16) 8 4

/-- No byte and no register but the count of bytes clipped. -/
abbrev CodingClip (s₀ s : State) : Prop := Coding (· = HVC_DEC_CLIP) (fun _ => False) s₀ s

theorem CodingClip.entry (h : CodingClip s₀ s) (d e x : ℕ)
    (hx : (dpbEntry d e s).1.1 ≤ x ∧ x < (dpbEntry d e s).1.1 + (dpbEntry d e s).1.2.1) : InEntry s₀ d e x := by
  have hat : entryAt s d e = entryAt s₀ d e := by
    rw [entryAt, entryAt, State.pair, State.pair, h.kept.1 _ (by simp only [HVC_DC_DPB_LO, HVC_DEC_CLIP]; omega),
      h.kept.1 _ (by simp only [HVC_DC_DPB_HI, HVC_DEC_CLIP]; omega)]
  rcases dpbEntry_reads d e h.calm h.fills h.reread with hnone | hsome
  · rw [hnone] at hx
    exact absurd hx (by simp [entrySays])
  · rw [hsome, hat, peeks_congr fun y => h.kept.2 y not_false] at hx
    exact hx

/-- The entry that a picture is written to. -/
def entryOf (s : State) (d : ℕ) (sl : HevcSlice) (sps : HevcSps) : Option ℕ :=
  freeEntry (beforePic (s.dc d) sps sl (pocOf (s.dc d) sps sl))

/-- A job ends: its completion follows what the picture's coding left. -/
def Ends (q : ℕ → Prop) (s₀ : State) (job : DecJob) (dog : Prop) (t : State) : Prop :=
  ∃ u w2 poc outs win, Coding (· = HVC_DEC_CLIP) q s₀ u ∧ t = decComplete job w2 poc outs win u ∧
    (dog → Told 0x30 9 job.d s₀ u)

theorem decPicture_ends {late : Option ℕ} {job : DecJob} {z : AuHead} {sl : HevcSlice} {sps : HevcSps} {pps : HevcPps}
    {au : DecodedAu} (h : CodingClip s₀ s)
    (hq : ∀ e, entryOf s job.d sl sps = some e → ∀ x, InEntry s₀ job.d e x → q x) :
    Ends q s₀ job (late.isSome = true ∧ (entryOf s job.d sl sps).isSome = true)
      (decPicture late job z sl sps pps au s) := by
  unfold decPicture
  obtain ⟨write, hwrite⟩ : ∃ f, f = decWrite := ⟨_, rfl⟩
  rw [← hwrite]
  extract_lets +onlyGivenNames d x0 poc x order n s1 place heads starts errors strike owner idr x1 used from_
      leading shown base pics win
  have h1 : CodingClip s₀ s1 := advanceTo_coding _ h
  split
  · next hfree =>
    have hnone : (entryOf s job.d sl sps).isSome = false := by
      rw [show entryOf s job.d sl sps = none from hfree]
      rfl
    exact ⟨s, _, _, _, _, h.mono (fun _ ha => ha) (fun _ ha => ha.elim), rfl, fun hdog => absurd hdog.2 (by simp [hnone])⟩
  · next e hfree =>
    split
    next par s2 hpar =>
    have h2 : CodingClip s₀ s2 := of_snd_eq hpar (examDetect_coding _ (by decide) h1)
    split
    next err s3 herr =>
    have h3 : CodingClip s₀ s3 := of_snd_eq herr (examDetect_coding _ (by decide) h2)
    split
    next hit s4 hhit =>
    have h4 : CodingClip s₀ s4 := of_snd_eq hhit (examDetect_coding _ (by decide) h3)
    have hdog : hit = late.isSome := by
      have hfst := examDetect_fst 0x3003 late.isSome d 0 h3.calm.1
      rw [hhit] at hfst
      exact hfst
    split
    next parAt s5 hstrike =>
    have h5 : CodingClip s₀ s5 := of_snd_eq hstrike (ite_coding_snd h4 (ite_coding_snd (draw_coding h4) h4))
    split
    next errAt s6 hstrike =>
    have h6 : CodingClip s₀ s6 := of_snd_eq hstrike (ite_coding_snd h5 (ite_coding_snd (draw_coding h5) h5))
    split
    next dogAt s7 hstrike =>
    have h7 : CodingClip s₀ s7 := of_snd_eq hstrike (ite_coding_snd h6 (ite_coding_snd (draw_coding h6) h6))
    extract_lets +onlyGivenNames wrong bad direct inher x2 x3 outs status list
    split
    next clip s8 hwritten =>
    have h8 : Coding (· = HVC_DEC_CLIP) q s₀ s8 := by
      rw [hwrite] at hwritten
      exact of_snd_eq hwritten (decWrite_coding (fun a hlo hhi => hq e hfree a (h7.entry d e a ⟨hlo, hhi⟩))
        (h7.mono (fun _ ha => ha) fun _ ha => ha.elim))
    split
    next clipped s9 hclip =>
    have h9 : Coding (· = HVC_DEC_CLIP) q s₀ s9 := of_snd_eq hclip (examDetect_coding _ (by decide) h8)
    extract_lets +onlyGivenNames s10 s11 s12 s13 s14 w2
    have h11 : Coding (· = HVC_DEC_CLIP) q s₀ s11 := modDc_coding (bumpBy_coding rfl h9)
    have h12 : Coding (· = HVC_DEC_CLIP) q s₀ s12 := ite_coding (raise_coding h11) h11
    have h13 : Coding (· = HVC_DEC_CLIP) q s₀ s13 := ite_coding (raise_coding h12) h12
    have h14 : Coding (· = HVC_DEC_CLIP) q s₀ s14 := ite_coding (raise_coding h13) h13
    refine ⟨s14, _, _, _, _, h14, rfl, fun hlate => told_ite_raise (told_ite_raise ?_)⟩
    rw [show s12 = raise 0x30 9 d s11 from if_pos (hdog.trans hlate.1)]
    exact told_decoder (h11.mono (fun _ ha => .inr (.inr ha)) fun _ ha => ha)

/-- The head of completions and the ring stand as they did before the coding. -/
theorem recordAt_coding (h : Coding (· = HVC_DEC_CLIP) q s₀ s) : recordAt s = recordAt s₀ := by
  rw [recordAt, recordAt, State.pair, State.pair, h.kept.1 HVC_DEC_CPL_LO (by decide), h.kept.1 HVC_DEC_CPL_HI (by decide),
    h.kept.f_eq HVC_DEC_CPL_TAIL_cpl_tail (by decide), h.kept.f_eq HVC_DEC_CPL_CFG_entries (by decide)]

theorem dmaPut_evr (cls a : ℕ) (bs : List Byte) (h : Coding p q s₀ s) : (dmaPut cls a bs s).evr = s.evr := by
  by_cases hans : s.memAnswers a bs.length true = true
  · obtain ⟨t, ⟨mc, _, rfl⟩, hwrite⟩ := dmaWrite_answered cls a bs s h.calm.1 h.fills h.reread hans
    rw [dmaPut, hwrite]
    exact poke_evr a bs _
  · rw [dmaPut, dmaWrite_refused cls a bs s h.fills h.reread hans]

theorem recorded_evr (bs : List Byte) (h : Coding p q s₀ s) : (recorded bs s).evr = s.evr := by
  unfold recorded
  split
  · rfl
  · exact dmaPut_evr 8 _ bs h

theorem jobGone_told {blk loc arg : ℕ} (tail d : ℕ) (h : Told blk loc arg s₀ s) : Told blk loc arg s₀ (jobGone tail d s) :=
  told_raise_of_told (told_congr h rfl)

/-- What the end of a job shows (R253, R255). -/
theorem Ends.shows {job : DecJob} {dog : Prop} (hq : ∀ x, recordAt s₀ ≤ x → x < recordAt s₀ + 32 → q x)
    (h : Ends q s₀ job dog t) : Kept ShowsDone q s₀ t ∧ t.hvc.job = none ∧
      t.f HVC_DEC_CPL_TAIL_cpl_tail = (s₀.f HVC_DEC_CPL_TAIL_cpl_tail + 1) % 2 ^ 32 ∧
      t.f HVC_DEC_CMD_HEAD_cmd_head = (s₀.f HVC_DEC_CMD_HEAD_cmd_head + 1) % 2 ^ 32 ∧ Told 0x30 8 job.d s₀ t ∧
      (dog → Told 0x30 9 job.d s₀ t) ∧ s₀.now ≤ t.now := by
  obtain ⟨u, w2, poc, outs, win, hcoding, rfl, hdog⟩ := h
  have hrecorded : Coding (· = HVC_DEC_CLIP) q s₀ (recorded (record job w2 poc outs win) u) :=
    recorded_coding (by rw [recordAt_coding hcoding]; exact hq) hcoding
  have hdone := hrecorded.mono (p' := ShowsDone) (fun _ ha => .inr (.inr ha)) fun _ ha => ha
  obtain ⟨hjob, htail, hhead, htold⟩ := jobGone_shows (u.f HVC_DEC_CPL_TAIL_cpl_tail) job.d hdone
  rw [hcoding.kept.f_eq HVC_DEC_CPL_TAIL_cpl_tail (by decide)] at htail
  rw [hrecorded.kept.f_eq HVC_DEC_CMD_HEAD_cmd_head (by decide)] at hhead
  rw [decComplete_eq]
  rw [hcoding.kept.f_eq HVC_DEC_CPL_TAIL_cpl_tail (by decide)] at hjob hhead htold ⊢
  exact ⟨(jobGone_coding _ job.d hdone).kept, hjob, htail, hhead, htold,
    fun hlate => jobGone_told _ job.d (told_congr (hdog hlate) (by rw [recorded_evr _ hcoding])), (jobGone_coding _ job.d hdone).later⟩

end

/-! ### The end of a job (R253, R255) -/

/-- The status of a job that codes no picture. -/
def earlyStatus (j : DecJob) : ℕ := if j.sound && j.len == 0 then 0 else 3

theorem decEnd_early {late : Option ℕ} {au : DecodedAu} {s : State} {j : DecJob} (hjob : s.hvc.job = some j)
    (hfills : s.mc.fills = []) (hreread : s.mc.reread = [])
    (h : j.sound = false ∨ j.len = 0 ∨ s.memAnswers j.addr j.len false = false) :
    decEnd late au s = decComplete j (earlyStatus j) 0 0 (0, 0, 0, 0) s := by
  obtain ⟨picture, hpicture⟩ : ∃ f, f = decPicture := ⟨_, rfl⟩
  unfold decEnd
  rw [← hpicture, hjob]
  dsimp only
  by_cases hempty : (j.sound && decide (j.len = 0)) = true
  · have hstatus : earlyStatus j = 0 := if_pos (by simpa using hempty)
    rw [if_pos hempty, hstatus]
  · have hstatus : earlyStatus j = 3 := if_neg (by simpa using hempty)
    rw [if_neg hempty, hstatus]
    cases hsound : j.sound with
    | false => rfl
    | true =>
      have hans : ¬ s.memAnswers j.addr j.len false = true := by
        rcases h with h | h | h
        · exact absurd (hsound.symm.trans h) (by decide)
        · exact absurd (by simp [hsound, h]) hempty
        · simp [h]
      rw [dmaRead_refused 8 _ _ s hfills hreread hans]
      rfl

/-- The end of a job whose access unit was read. -/
def unitEnd (late : Option ℕ) (j : DecJob) (au : DecodedAu) (z : AuHead) (s : State) : Option (HevcSlice × HevcSps × HevcPps) → State
  | none => decComplete j 3 0 0 (0, 0, 0, 0) s
  | some (sl, q, p) => decPicture late j z sl q p au s

theorem decEnd_of_unit {late : Option ℕ} {au : DecodedAu} {s : State} {j : DecJob} (hjob : s.hvc.job = some j)
    (hslots : s.err.slots = []) (hfills : s.mc.fills = []) (hreread : s.mc.reread = []) (hsound : j.sound = true)
    (hlen : j.len ≠ 0) (hans : s.memAnswers j.addr j.len false = true) : ∃ t, Scheduled s t ∧ decEnd late au s =
      unitEnd late j au (auHead (t.dc j.d) (s.peeks j.addr j.len)) t (auHead (t.dc j.d) (s.peeks j.addr j.len)).first := by
  obtain ⟨t, hsched, hread⟩ := dmaRead_answered 8 j.addr j.len s hslots hfills hreread hans
  obtain ⟨picture, hpicture⟩ : ∃ f, f = decPicture := ⟨_, rfl⟩
  refine ⟨t, hsched, ?_⟩
  have hempty : ¬ (j.sound && decide (j.len = 0)) = true := by simp [hlen]
  rw [← peeks_congr hsched.peek]
  cases hfirst : (auHead (t.dc j.d) (t.peeks j.addr j.len)).first with
  | none =>
    unfold decEnd
    rw [← hpicture, hjob]
    dsimp only
    rw [if_neg hempty, if_neg (by simp [hsound]), hread]
    simp only [hfirst]
    rfl
  | some x =>
    unfold decEnd
    rw [← hpicture, hjob]
    dsimp only
    rw [if_neg hempty, if_neg (by simp [hsound]), hread]
    simp only [hfirst]
    rw [hpicture]
    rfl

theorem freeEntry_lt {x : DecSt} {e : ℕ} (h : freeEntry x = some e) : e < 16 :=
  List.mem_range.mp (List.mem_of_find?_eq_some h)

/-- The entry that a job's access unit is coded into, if it is one that the decoder decodes. -/
def jobEntry (s : State) (j : DecJob) : Option ℕ :=
  (auHead (s.dc j.d) (s.peeks j.addr j.len)).first.bind fun x => entryOf s j.d x.1 x.2.1

theorem Scheduled.dc {s t : State} (h : Scheduled s t) (d : ℕ) : t.dc d = s.dc d := by
  obtain ⟨mc, _, rfl⟩ := h
  rfl

/-- A job ends with its completion, and what it codes lies in the entry that it is coded into (R253 to R257). -/
theorem decEnd_ends {late : Option ℕ} {au : DecodedAu} {s₀ s : State} {j : DecJob} {q : ℕ → Prop} (h : CodingClip s₀ s)
    (hjob : s.hvc.job = some j) (hq : ∀ e, jobEntry s j = some e → ∀ x, InEntry s₀ j.d e x → q x) :
    Ends q s₀ j (late.isSome = true ∧ (jobEntry s j).isSome = true ∧ j.sound = true ∧ j.len ≠ 0 ∧
      s.memAnswers j.addr j.len false = true) (decEnd late au s) := by
  have hwide : ∀ t, CodingClip s₀ t → Coding (· = HVC_DEC_CLIP) q s₀ t :=
    fun t ht => ht.mono (fun _ ha => ha) fun _ ha => ha.elim
  by_cases hearly : j.sound = false ∨ j.len = 0 ∨ s.memAnswers j.addr j.len false = false
  · refine ⟨s, _, _, _, _, hwide s h, decEnd_early hjob h.fills h.reread hearly, fun hdog => ?_⟩
    obtain ⟨_, _, hsound, hlen, hans⟩ := hdog
    simp [hsound, hlen, hans] at hearly
  · have hparts : j.sound = true ∧ j.len ≠ 0 ∧ s.memAnswers j.addr j.len false = true := by simpa [not_or] using hearly
    obtain ⟨hsound, hlen, hans⟩ := hparts
    obtain ⟨t, hsched, hend⟩ := decEnd_of_unit (late := late) (au := au) hjob h.calm.1 h.fills h.reread hsound hlen hans
    have ht : CodingClip s₀ t := Scheduled.coding h hsched
    rw [hend]
    cases hfirst : (auHead (t.dc j.d) (s.peeks j.addr j.len)).first with
    | none =>
      refine ⟨t, _, _, _, _, hwide t ht, rfl, fun hdog => ?_⟩
      have hentry := hdog.2.1
      rw [jobEntry, ← Scheduled.dc hsched, hfirst] at hentry
      exact absurd hentry (by simp)
    | some x =>
      have hsame : jobEntry s j = entryOf t j.d x.1 x.2.1 := by
        rw [jobEntry, ← Scheduled.dc hsched, hfirst, Option.bind_some, entryOf, entryOf, Scheduled.dc hsched]
      obtain ⟨u, w2, poc, outs, win, hcoding, hcompletes, htold⟩ := decPicture_ends (late := late) (job := j)
        (z := auHead (t.dc j.d) (s.peeks j.addr j.len)) (sl := x.1) (sps := x.2.1) (pps := x.2.2) (au := au) ht
        (fun e he => hq e (hsame.trans he))
      exact ⟨u, w2, poc, outs, win, hcoding, hcompletes, fun hdog => htold ⟨hdog.1, hsame ▸ hdog.2.1⟩⟩

theorem romSize_le {s : State} {a n : ℕ} (hn : n ≠ 0) (h : s.memAnswers a n true = true) : Config.romSize ≤ a := by
  by_contra hlt
  have hrom : regionOf s.variant a = .rom := if_pos (by omega)
  simp [State.memAnswers, hn, hrom] at h

/-- A record that memory answers reads back (R255). -/
theorem record_reads {s : State} {j : DecJob} {w2 poc outs : ℕ} {win : ℕ × ℕ × ℕ × ℕ} (hslots : s.err.slots = [])
    (hfills : s.mc.fills = []) (hreread : s.mc.reread = []) (hring : s.f HVC_DEC_CPL_CFG_entries ≠ 0)
    (hans : s.memAnswers (recordAt s) 32 true = true) :
    (decComplete j w2 poc outs win s).peeks (recordAt s) 32 = record j w2 poc outs win := by
  have hlen := record_length j w2 poc outs win
  have hstored : recorded (record j w2 poc outs win) s = dmaPut 8 (recordAt s) (record j w2 poc outs win) s := if_neg hring
  obtain ⟨t, _, hwrite⟩ := dmaWrite_answered 8 (recordAt s) (record j w2 poc outs win) s hslots hfills hreread
    (by rw [hlen]; exact hans)
  have hpeek : ∀ tail d (u : State) x, (jobGone tail d u).peek x = u.peek x := fun tail d u x => by
    exact ((raise_kept (p := fun _ => True) (Kept.refl _ (fun _ => False) _)).2 x not_false).trans rfl
  rw [decComplete_eq, peeks_congr (hpeek _ _ _), hstored, dmaPut, hwrite]
  have hback := poke_peeks (recordAt s) (record j w2 poc outs win) t (romSize_le (by decide) hans)
  rw [hlen] at hback
  exact hback

/-- What the claims name as the bytes of an entry are its bytes. -/
theorem inEntry_bytes {s : State} {d e x : ℕ} (h : InEntry s d e x) :
    leAt (s.peeks (entryAt s d e) 8) 0 8 % 2 ^ 40 ≤ x ∧
      x < leAt (s.peeks (entryAt s d e) 8) 0 8 % 2 ^ 40 + leAt (s.peeks (entryAt s d e + 8) 4) 0 4 := by
  rw [InEntry, leAt_peeks _ _ _ _ _ (by decide), leAt_peeks _ _ _ _ _ (by decide)] at h
  rw [leAt_peeks _ _ _ _ _ (by decide), leAt_peeks _ _ _ _ _ (by decide), Nat.add_zero, Nat.add_zero]
  exact h

/-- A byte of an entry of the job's buffer, or of its completion record. -/
def JobMem (s : State) (j : DecJob) (x : ℕ) : Prop :=
  (List.range 16).any (fun e =>
    let p := s.pair (HVC_DC_DPB_LO j.d) (HVC_DC_DPB_HI j.d) + 16 * e
    let b := leAt (s.peeks p 8) 0 8 % 2 ^ 40
    decide (b ≤ x ∧ x < b + leAt (s.peeks (p + 8) 4) 0 4)) = true ∨ recordAt s ≤ x ∧ x < recordAt s + 32

theorem decJobDone (s : State) (j : DecJob) (u : DecodedAu) : Claims.decJobDone s j u := by
  intro hon hslots hfills hreread hcalm hjob hring
  have hstart : CodingClip s s := Coding.refl _ _ hcalm hfills hreread
  have hends : Ends (JobMem s j) s j _ (decEnd none u s) := decEnd_ends hstart hjob fun e he x hx => by
    obtain ⟨y, _, hy⟩ := Option.bind_eq_some_iff.mp he
    exact .inl (List.any_eq_true.mpr ⟨e, List.mem_range.mpr (freeEntry_lt hy), decide_eq_true (inEntry_bytes hx)⟩)
  obtain ⟨hkept, hidle, htail, hhead, htold, _, _⟩ := hends.shows fun x hlo hhi => .inr ⟨hlo, hhi⟩
  refine ⟨decEnd none u s, by rw [exec_decJobDone, execDecJobDone, if_pos hon], hidle, htail, hhead, htold, hkept.1, hkept.2,
    fun hearly => ?_⟩
  have hcomplete := decEnd_early (late := none) (au := u) hjob hfills hreread hearly
  have hown : Ends (fun x => recordAt s ≤ x ∧ x < recordAt s + 32) s j False (decEnd none u s) :=
    ⟨s, _, _, _, _, hstart.mono (fun _ ha => ha) fun _ ha => ha.elim, hcomplete, False.elim⟩
  refine ⟨(hown.shows fun x hlo hhi => ⟨hlo, hhi⟩).1.2, fun hans => ?_⟩
  have hback := record_reads (j := j) (w2 := earlyStatus j) (poc := 0) (outs := 0) (win := (0, 0, 0, 0)) hslots hfills hreread
    hring hans
  rw [← hcomplete] at hback
  have htag := slice_peeks (decEnd none u s) (recordAt s) 32 0 8 (by decide)
  have hstatus := slice_peeks (decEnd none u s) (recordAt s) 32 8 4 (by decide)
  rw [hback] at htag hstatus
  exact ⟨htag.symm, hstatus.symm⟩

/-- The instant at which the CTB's limit has passed. -/
def limitAt (s : State) : ℕ := s.hvc.decAt + (s.f HVC_DEC_CTB_TO_cycles + 1) * Config.fclk

theorem decPatience_of_job {s : State} {j : DecJob} (hjob : s.hvc.job = some j) : decPatience s = advanceTo (limitAt s) s := by
  rw [decPatience, hjob]
  rfl

theorem memAnswers_laterAt (n : ℕ) (x : TsuSt) (v : EvrSt) (s : State) (a k : ℕ) (w : Bool) :
    (laterAt n x v s).memAnswers a k w = s.memAnswers a k w := rfl

theorem jobEntry_laterAt (n : ℕ) (x : TsuSt) (v : EvrSt) (s : State) (j : DecJob) :
    jobEntry (laterAt n x v s) j = jobEntry s j := rfl

/-- A byte of an entry, or of the completion record. -/
def EntryMem (s : State) (j : DecJob) (e b : ℕ) : Prop := InEntry s j.d e b ∨ recordAt s ≤ b ∧ b < recordAt s + 32

theorem decCtbWatchdog (s : State) (j : DecJob) (u : DecodedAu) (ctb e : ℕ) : Claims.decCtbWatchdog s j u ctb e := by
  intro hon hslots hfills hreread hcalm hjob hsound hlen hans hentry
  obtain ⟨x, v, hlater⟩ := advanceTo_laterAt (limitAt s) hcalm
  have hstays := advanceTo_stays_calm (limitAt s) hcalm
  rw [hlater] at hstays
  have hfree : jobEntry (laterAt (max s.now (limitAt s)) x v s) j = some e := (jobEntry_laterAt _ x v s j).trans hentry
  have hends : Ends (EntryMem s j e) (laterAt (max s.now (limitAt s)) x v s) j _
      (decEnd (some ctb) u (laterAt (max s.now (limitAt s)) x v s)) :=
    decEnd_ends (Coding.refl _ _ hstays hfills hreread) hjob fun i hi y hy => by
      rw [hfree, Option.some.injEq] at hi
      exact .inl (hi ▸ hy)
  obtain ⟨hkept, hidle, _, hhead, htold, hdog, htime⟩ := hends.shows fun y hlo hhi => .inr ⟨hlo, hhi⟩
  have hrun : exec (.decCtbWatchdog u ctb) s = .next (decEnd (some ctb) u (laterAt (max s.now (limitAt s)) x v s)) := by
    rw [exec_decCtbWatchdog, execDecCtbWatchdog, if_pos hon, decPatience_of_job hjob, hlater]
  have hdogs := hdog ⟨rfl, by rw [hfree]; rfl, hsound, hlen, (memAnswers_laterAt _ x v s _ _ _).trans hans⟩
  exact ⟨_, hrun, hidle, hhead, le_trans (le_max_right _ _) htime, htold, hdogs, hkept.1, hkept.2⟩

/-- Settles O31, a command at a time. -/
theorem videoDecoder : Obligations.VideoDecoder := by
  unfold Obligations.VideoDecoder
  exact ⟨decSubmit, decJobStart, decJobDone, decCtbWatchdog, dpbRelease⟩

end Sys2Proof.Proofs.Decoder

/-! Frames of a sensor port: what their rows and their close leave, and what they show (R84, R95 to R102). -/

namespace Sys2Proof.Proofs.Frames

open Sys2Proof.Machine
open Sys2Proof.Proofs.Keeping
open Sys2Proof.Proofs.Access
open Sys2Proof.Proofs.Ports
open Sys2Proof.Claims (Told)

/-- The number of a port's open frame. -/
def openPfn (n : ℕ) (s : State) : Option ℕ := (s.port n).frame.map (·.info.pfn)

/-- A port's Javel link and its lanes. -/
def linkOf (n : ℕ) (s : State) : JvSt × List (ℕ × LaneSt) := ((s.port n).jv, (s.port n).lanes)

/-- Every register but those of `p` is as it was, and port `n` has the same frame open, no strip it did not have, and the same
link. -/
structure Closing (p : ℕ → Prop) (n : ℕ) (s₀ s : State) : Prop where
  kept : Kept p (fun _ => False) s₀ s
  pfn : openPfn n s = openPfn n s₀
  strips : (s₀.port n).ss.strips = [] → (s.port n).ss.strips = []
  hold : s.pwr.testHold = s₀.pwr.testHold
  link : linkOf n s = linkOf n s₀

section
variable {p : ℕ → Prop} {n : ℕ} {s₀ s t : State}

theorem Closing.refl (p : ℕ → Prop) (n : ℕ) (s : State) : Closing p n s s := ⟨Kept.refl _ _ s, rfl, id, rfl, rfl⟩

theorem Closing.trans (h : Closing p n s₀ s) (h' : Closing p n s t) : Closing p n s₀ t :=
  ⟨h.kept.trans h'.kept, h'.pfn.trans h.pfn, fun hs => h'.strips (h.strips hs), h'.hold.trans h.hold,
    h'.link.trans h.link⟩

theorem Closing.mono {p' : ℕ → Prop} (hp : ∀ a, p a → p' a) (h : Closing p n s₀ s) : Closing p' n s₀ s :=
  ⟨h.kept.mono hp fun _ hq => hq, h.pfn, h.strips, h.hold, h.link⟩

theorem Closing.congr (h : Closing p n s₀ s) (hkept : Kept p (fun _ => False) s₀ t) (hport : t.port n = s.port n)
    (hpwr : t.pwr = s.pwr) : Closing p n s₀ t :=
  ⟨hkept, by rw [openPfn, hport]; exact h.pfn, by rw [hport]; exact h.strips, hpwr ▸ h.hold,
    by rw [linkOf, hport]; exact h.link⟩

theorem setF_closing {x : Fld} {v : ℕ} (hx : p x.addr) (h : Closing p n s₀ s) : Closing p n s₀ (setF x v s) :=
  h.congr (setF_kept hx h.kept) rfl rfl

theorem bump_closing {a : ℕ} (ha : p a) (h : Closing p n s₀ s) : Closing p n s₀ (bump a s) := h.congr (bump_kept ha h.kept) rfl rfl

theorem raiseAt_closing {τ : Stamp} {blk loc arg : ℕ} (h : Closing p n s₀ s) : Closing p n s₀ (raiseAt τ blk loc arg s) := by
  obtain ⟨e, htold⟩ := raiseAt_eq_telling τ blk loc arg s
  rw [htold]
  exact h.congr (h.kept.congr rfl rfl rfl rfl) rfl rfl

theorem raise_closing {blk loc arg : ℕ} (h : Closing p n s₀ s) : Closing p n s₀ (raise blk loc arg s) := raiseAt_closing h

theorem ite_closing {c : Prop} [Decidable c] (hs : Closing p n s₀ s) (ht : Closing p n s₀ t) :
    Closing p n s₀ (if c then s else t) := by
  split
  · exact hs
  · exact ht

theorem foldl_closing {α : Type} {l : List α} {f : State → α → State} (hf : ∀ s x, Closing p n s₀ s → Closing p n s₀ (f s x))
    (h : Closing p n s₀ s) : Closing p n s₀ (l.foldl f s) := by
  induction l generalizing s with
  | nil => exact h
  | cons x l ih => exact ih (hf s x h)

theorem modPort_port_of_ne {k m : ℕ} (f : PortSt → PortSt) (s : State) (h : m ≠ k) : (modPort k f s).port m = s.port m :=
  lookD_put_of_ne _ _ _ _ _ h

/-- A change of a port's state that keeps the number of its frame and its link, and opens no strip. -/
structure KeepsFrame (f : PortSt → PortSt) : Prop where
  pfn : ∀ x, (f x).frame.map (·.info.pfn) = x.frame.map (·.info.pfn)
  strips : ∀ x, x.ss.strips = [] → (f x).ss.strips = []
  link : ∀ x, ((f x).jv, (f x).lanes) = (x.jv, x.lanes)

theorem modPort_closing {k : ℕ} {f : PortSt → PortSt} (hf : KeepsFrame f) (h : Closing p n s₀ s) :
    Closing p n s₀ (modPort k f s) := by
  have hkept := modPort_kept k f h.kept
  by_cases hk : n = k
  · subst hk
    refine ⟨hkept, ?_, fun hs => ?_, h.hold, ?_⟩
    · rw [openPfn, modPort_port_self, hf.pfn]
      exact h.pfn
    · rw [modPort_port_self]
      exact hf.strips _ (h.strips hs)
    · rw [linkOf, modPort_port_self, hf.link]
      exact h.link
  · exact h.congr hkept (modPort_port_of_ne f s hk) rfl

theorem fifo_keepsFrame (l : List RowItem) : KeepsFrame (fun q => { q with fifo := q.fifo ++ l }) := ⟨fun _ => rfl, fun _ h => h, fun _ => rfl⟩

theorem modFrame_closing {k : ℕ} {f : OpenSt → OpenSt} (hf : ∀ x, (f x).info.pfn = x.info.pfn) (h : Closing p n s₀ s) :
    Closing p n s₀ (modFrame k f s) :=
  modPort_closing ⟨fun x => by simp only [Option.map_map]; exact congrArg (x.frame.map ·) (funext hf), fun _ h => h,
    fun _ => rfl⟩ h

theorem passTo_closing (k r y : ℕ) (h : Closing p n s₀ s) : Closing p n s₀ (passTo k r y s) := by
  unfold passTo
  split
  · exact h
  · have hpassed := modFrame_closing (k := k) (f := fun f => { f with next := f.next.set r (y + 1) }) (fun _ => rfl) h
    exact ite_closing (raiseAt_closing hpassed) hpassed

theorem crossRows_closing (k : ℕ) (h : Closing p n s₀ s) : Closing p n s₀ (crossRows k s) := by
  unfold crossRows
  split
  · exact h
  · refine foldl_closing (fun u i hu => ?_) h
    split
    · exact hu
    · exact modFrame_closing (fun _ => rfl) (ite_closing hu (modPort_closing (fifo_keepsFrame _) hu))

theorem closeEvents_closing (k : ℕ) (short trunc : Bool) (i : FrameInfo) (hshort : short = true → p (SP_SHORT k))
    (htrunc : trunc = true → p (SP_TRUNC k)) (h : Closing p n s₀ s) : Closing p n s₀ (closeEvents k short trunc i s) := by
  have hs : Closing p n s₀ (if short = true then raise (0x10 + k) 3 i.rowsRx (bump (SP_SHORT k) s) else s) := by
    split
    · next hc => exact raise_closing (bump_closing (hshort hc) h)
    · exact h
  have ht : ∀ u, Closing p n s₀ u →
      Closing p n s₀ (if trunc = true then raise (0x10 + k) 5 i.rowsRx (bump (SP_TRUNC k) u) else u) := fun u hu => by
    split
    · next hc => exact raise_closing (bump_closing (htrunc hc) hu)
    · exact hu
  exact ite_closing (raise_closing (ht _ hs)) (ht _ hs)

theorem markFrame_closing (k : ℕ) (c : FrameInfo → Bool) (f : FrameInfo → FrameInfo) (hf : ∀ i, (f i).pfn = i.pfn)
    (h : Closing p n s₀ s) : Closing p n s₀ (markFrame k c f s) := by
  have hmark : ∀ i : FrameInfo, (if c i = true then f i else i).pfn = i.pfn := fun i => by
    split
    · exact hf i
    · rfl
  have hkeeps : KeepsFrame (fun q => { q with
      frame := q.frame.map (fun x => { x with info := if c x.info = true then f x.info else x.info })
      fifo := q.fifo.map (markItem c f)
      ss := { q.ss with strips := q.ss.strips.map (fun x =>
        { x with info := if c x.info = true then f x.info else x.info }) } }) :=
    ⟨fun x => by simp only [Option.map_map]; exact congrArg (x.frame.map ·) (funext fun y => hmark y.info),
      fun x hx => by simp only [hx, List.map_nil], fun _ => rfl⟩
  have hport := modPort_closing (k := k) hkeeps h
  unfold markFrame
  dsimp only
  split
  · exact hport
  · exact hport.congr (hport.kept.congr rfl rfl rfl rfl) rfl rfl

/-- The registers that a group's verdict shows in. -/
def ShowsGroup (g a : ℕ) : Prop := a = SP0_GRP_INCOMPLETE g ∨ a = SP0_GRP_MISS_RFN g ∨ a = SP0_GRP_MISS_MASK g

theorem verdict_closing (g rfn : ℕ) (hg : ∀ a, ShowsGroup g a → p a) (h : Closing p n s₀ s) :
    Closing p n s₀ (verdict g rfn s) := by
  have htaken (l : List (ℕ × ℕ × ℕ)) : Closing p n s₀ { s with groups := l } := h.congr (h.kept.congr rfl rfl rfl rfl) rfl rfl
  have hmarked (l : List (ℕ × ℕ × ℕ)) (here : ℕ) : Closing p n s₀ ((List.range 4).foldl (fun s n =>
      if bitOf here n then markFrame n (fun i => i.rfn == rfn) (fun i => { i with fsw := fswSet fswGroup i.fsw }) s else s)
      { s with groups := l }) :=
    foldl_closing (fun _ _ hu => ite_closing (markFrame_closing _ _ _ (fun _ => rfl) hu) hu) (htaken l)
  unfold verdict
  dsimp only
  refine ite_closing h (ite_closing (htaken _) (ite_closing (raise_closing ?_) (hmarked _ _)))
  exact bump_closing (hg _ (.inl rfl)) (setF_closing (x := SP0_GRP_MISS_MASK_absent g) (hg _ (.inr (.inr rfl)))
    (setF_closing (x := SP0_GRP_MISS_RFN_rfn g) (hg _ (.inr (.inl rfl))) (hmarked _ _)))

/-! ### A frame closes (R98) -/

/-- The rows of a frame that closes have crossed, and its end has not. -/
def ended (n : ℕ) (short trunc withheld : Bool) (eof : Stamp) (i : FrameInfo) (s : State) : State :=
  let u := closeEvents n short trunc i (raiseAt eof (0x10 + n) 1 i.pfn s)
  modPort n (fun p => { p with frame := none })
    (if withheld then u else modPort n (fun p => { p with fifo := p.fifo ++ [.stop i trunc] }) u)

/-- How the rows of a frame cross when it closes leaves its number, and shows in a group's verdict alone. -/
theorem portClose_eq {why : Close} {f : OpenSt} (hframe : (s.port n).frame = some f)
    (hp : why = .eof → ∀ g < 4, ∀ a, ShowsGroup g a → p a) : ∃ u short withheld eof i,
      Closing p n s u ∧ i.pfn = f.info.pfn ∧ (short = true → why = .eof) ∧ portClose n why s = showPort n
        (if why == .early then startDiscard n (ended n short (why != .eof) withheld eof i u)
          else ended n short (why != .eof) withheld eof i u) := by
  unfold portClose
  split
  next hnone => exact absurd (hnone.symm.trans hframe) (by simp)
  next f' hsome =>
  obtain rfl : f = f' := Option.some.inj (hframe.symm.trans hsome)
  extract_lets +onlyGivenNames whole s1 s2 s3 s4 short trunc eof s5
  have h1 : Closing p n s s1 := by
    unfold s1
    split
    · next g _ hgroup =>
      have hg : g < 4 := by
        simp only [State.groupOf, Option.ite_none_right_eq_some, Option.some.injEq] at hgroup
        exact hgroup.2 ▸ f_lt s (SP_GRP_group n)
      exact ite_closing (verdict_closing g _ (hp rfl g hg) (Closing.refl p n s)) (Closing.refl p n s)
    · exact Closing.refl p n s
  have h2 : Closing p n s s2 := ite_closing (modPort_closing (fifo_keepsFrame _) h1) h1
  have h3 : Closing p n s s3 := foldl_closing (fun _ _ h3 => ite_closing (passTo_closing _ _ _ h3) h3) h2
  have h4 : Closing p n s s4 := crossRows_closing n h3
  have h5 : Closing p n s s5 := modFrame_closing (fun _ => rfl) h4
  have hpfn : openPfn n s5 = some f.info.pfn := h5.pfn.trans (by rw [openPfn, hframe]; rfl)
  split
  · next hnone =>
    rw [openPfn, hnone] at hpfn
    exact absurd hpfn (by simp)
  · next x hsome =>
    rw [openPfn, hsome] at hpfn
    exact ⟨s5, short, x.withheld, eof, x.info, h5, Option.some.inj hpfn,
      fun hshort => eq_of_beq (Bool.and_eq_true_iff.mp hshort).1, rfl⟩

theorem told_raiseAt {τ : Stamp} {blk loc arg : ℕ} (hon : s.evtOn blk loc = s₀.evtOn blk loc)
    (hhold : s.pwr.testHold = s₀.pwr.testHold) : Told blk loc arg s₀ (raiseAt τ blk loc arg s) := by
  intro hen hfree
  rw [raiseAt, if_pos (by rw [hon, hen, hhold, hfree]; rfl)]
  simp

theorem told_raise_of_told {blk loc arg b l a : ℕ} (h : Told blk loc arg s₀ s) : Told blk loc arg s₀ (raise b l a s) := by
  obtain ⟨e, htold⟩ := raise_eq_telling b l a s
  exact told_of_flight h e (by rw [htold]; rfl)

theorem told_ite {c : Prop} [Decidable c] {blk loc arg : ℕ} (hs : Told blk loc arg s₀ s) (ht : Told blk loc arg s₀ t) :
    Told blk loc arg s₀ (if c then s else t) := by
  split
  · exact hs
  · exact ht

theorem told_closeEvents {blk loc arg k : ℕ} (short trunc : Bool) (i : FrameInfo) (h : Told blk loc arg s₀ s) :
    Told blk loc arg s₀ (closeEvents k short trunc i s) := by
  have hs : Told blk loc arg s₀ (if short = true then raise (0x10 + k) 3 i.rowsRx (bump (SP_SHORT k) s) else s) :=
    told_ite (told_raise_of_told (told_congr h rfl)) h
  have ht : ∀ u, Told blk loc arg s₀ u →
      Told blk loc arg s₀ (if trunc = true then raise (0x10 + k) 5 i.rowsRx (bump (SP_TRUNC k) u) else u) :=
    fun u hu => told_ite (told_raise_of_told (told_congr hu rfl)) hu
  exact told_ite (told_raise_of_told (ht _ hs)) (ht _ hs)

theorem told_ended {blk loc arg : ℕ} {short trunc withheld : Bool} {eof : Stamp} {i : FrameInfo}
    (h : Told blk loc arg s₀ (raiseAt eof (0x10 + n) 1 i.pfn s)) :
    Told blk loc arg s₀ (ended n short trunc withheld eof i s) := by
  have hclosed := told_closeEvents (k := n) short trunc i h
  have hstop : Told blk loc arg s₀ (if withheld = true then closeEvents n short trunc i (raiseAt eof (0x10 + n) 1 i.pfn s)
      else modPort n (fun p => { p with fifo := p.fifo ++ [.stop i trunc] })
        (closeEvents n short trunc i (raiseAt eof (0x10 + n) 1 i.pfn s))) := told_ite hclosed (told_congr hclosed rfl)
  exact told_congr hstop rfl

theorem ended_frame (short trunc withheld : Bool) (eof : Stamp) (i : FrameInfo) (s : State) :
    ((ended n short trunc withheld eof i s).port n).frame = none := by
  rw [ended, modPort_port_self]

theorem ended_kept {short trunc withheld : Bool} {eof : Stamp} {i : FrameInfo} (hshort : short = true → p (SP_SHORT n))
    (htrunc : trunc = true → p (SP_TRUNC n)) (h : Closing p n s₀ s) :
    Kept p (fun _ => False) s₀ (ended n short trunc withheld eof i s) := by
  have hclosed := closeEvents_closing n short trunc i hshort htrunc (raiseAt_closing (τ := eof) (blk := 0x10 + n) (loc := 1)
    (arg := i.pfn) h)
  exact modPort_kept n _ (ite_kept hclosed.kept (modPort_kept n _ hclosed.kept))

theorem ended_strips {short trunc withheld : Bool} {eof : Stamp} {i : FrameInfo} (h : Closing (fun _ => True) n s₀ s)
    (hs : (s₀.port n).ss.strips = []) : ((ended n short trunc withheld eof i s).port n).ss.strips = [] := by
  have hclosed := closeEvents_closing n short trunc i (fun _ => trivial) (fun _ => trivial) (raiseAt_closing (τ := eof)
    (blk := 0x10 + n) (loc := 1) (arg := i.pfn) h)
  rw [ended, modPort_port_self]
  split
  · exact hclosed.strips hs
  · rw [modPort_port_self]
    exact hclosed.strips hs

theorem ended_link (short trunc withheld : Bool) (eof : Stamp) (i : FrameInfo) (s : State) :
    linkOf n (ended n short trunc withheld eof i s) = linkOf n s := by
  have hclosed := closeEvents_closing n short trunc i (fun _ => trivial) (fun _ => trivial) (raiseAt_closing (τ := eof)
    (blk := 0x10 + n) (loc := 1) (arg := i.pfn) (Closing.refl (fun _ => True) n s))
  rw [ended, linkOf, modPort_port_self]
  split
  · exact hclosed.link
  · rw [modPort_port_self]
    exact hclosed.link

theorem startDiscard_kept (k : ℕ) (hp : p (SP_STATUS k)) (h : Kept p (fun _ => False) s₀ s) :
    Kept p (fun _ => False) s₀ (startDiscard k s) :=
  ite_kept h (flag_kept (x := SP_STATUS_discarding k) hp (modPort_kept k _ h))

theorem startDiscard_discarding (n : ℕ) (s : State) : (startDiscard n s).f (SP_STATUS_discarding n) = 1 := by
  unfold startDiscard
  split
  · next h =>
    have hlt := f_lt s (SP_STATUS_discarding n)
    have hpos : s.f (SP_STATUS_discarding n) ≠ 0 := by simpa [State.b] using h
    have hone : s.f (SP_STATUS_discarding n) < 2 := hlt
    omega
  · exact f_flag (SP_STATUS_discarding n) _ rfl

theorem startDiscard_frame (n : ℕ) (s : State) : ((startDiscard n s).port n).frame = (s.port n).frame := by
  unfold startDiscard
  split
  · rfl
  · rw [flag, setF_port, modPort_port_self]

theorem startDiscard_ss (n : ℕ) (s : State) : ((startDiscard n s).port n).ss = (s.port n).ss := by
  unfold startDiscard
  split
  · rfl
  · rw [flag, setF_port, modPort_port_self]

theorem startDiscard_link (n : ℕ) (s : State) : linkOf n (startDiscard n s) = linkOf n s := by
  unfold startDiscard
  split
  · rfl
  · rw [flag, linkOf, setF_port, modPort_port_self]
    rfl

theorem told_startDiscard {blk loc arg : ℕ} (h : Told blk loc arg s₀ s) : Told blk loc arg s₀ (startDiscard n s) :=
  told_ite h (told_congr h rfl)

theorem showPort_kept (n : ℕ) (hp : p (SP_STATUS n)) (h : Kept p (fun _ => False) s₀ s) :
    Kept p (fun _ => False) s₀ (showPort n s) :=
  setF_kept (x := SP_STATUS_frame_open n) hp (setF_kept (x := SP_STATUS_idle n) hp h)

@[simp] theorem showPort_port (n k : ℕ) (s : State) : (showPort n s).port k = s.port k := rfl

/-- A frame, or a strip, is open at the port. -/
def isOpen (s : State) (n : ℕ) : Bool := (s.port n).frame.isSome || !(s.port n).ss.strips.isEmpty

theorem showPort_frame_open (n : ℕ) (s : State) : (showPort n s).b (SP_STATUS_frame_open n) = isOpen s n := by
  have h : (showPort n s).f (SP_STATUS_frame_open n) = if isOpen s n then 1 else 0 :=
    f_setF_eq (SP_STATUS_frame_open n) _ _ rfl (by
      show (if _ then 1 else 0) < 2
      split
      all_goals decide)
  rw [State.b, h]
  cases isOpen s n
  all_goals rfl

theorem showPort_idle (n : ℕ) (s : State) : (showPort n s).b (SP_STATUS_idle n) = (!isOpen s n && !s.running n) := by
  have h : (showPort n s).f (SP_STATUS_idle n) = if !isOpen s n && !s.running n then 1 else 0 :=
    (f_setF_apart (SP_STATUS_frame_open n) (SP_STATUS_idle n) _ _ rfl rfl).trans (f_setF_eq (SP_STATUS_idle n) _ _ rfl (by
      show (if _ then 1 else 0) < 2
      split
      all_goals decide))
  rw [State.b, h]
  cases !isOpen s n && !s.running n
  all_goals rfl

theorem showPort_discarding (n : ℕ) (s : State) :
    (showPort n s).f (SP_STATUS_discarding n) = s.f (SP_STATUS_discarding n) :=
  (f_setF_apart (SP_STATUS_frame_open n) (SP_STATUS_discarding n) _ _ rfl rfl).trans
    (f_setF_apart (SP_STATUS_idle n) (SP_STATUS_discarding n) _ _ rfl rfl)

/-- What closing a frame shows, and in which registers (R98). -/
structure Closed (p : ℕ → Prop) (n pfn : ℕ) (s t : State) : Prop where
  kept : Kept p (fun _ => False) s t
  frame : (t.port n).frame = none
  strips : (s.port n).ss.strips = [] → (t.port n).ss.strips = []
  link : linkOf n t = linkOf n s
  told : (∀ a, EnablesEvents n a → ¬ p a) → ∀ s₀, s.evtOn (0x10 + n) 1 = s₀.evtOn (0x10 + n) 1 →
    s.pwr.testHold = s₀.pwr.testHold → Told (0x10 + n) 1 pfn s₀ t

theorem portClose_closed {why : Close} {f : OpenSt} (hn : n < 4) (hframe : (s.port n).frame = some f) (hstatus : p (SP_STATUS n))
    (heof : why = .eof → p (SP_SHORT n) ∧ ∀ g < 4, ∀ a, ShowsGroup g a → p a) (hcut : why ≠ .eof → p (SP_TRUNC n)) :
    Closed p n f.info.pfn s (portClose n why s) := by
  obtain ⟨u, short, withheld, eof, i, hu, hpfn, hshort, hclose⟩ := portClose_eq (why := why) hframe fun hw => (heof hw).2
  have htrunc : (why != .eof) = true → p (SP_TRUNC n) := fun h => hcut (bne_iff_ne.mp h)
  have hended := ended_kept (withheld := withheld) (eof := eof) (i := i) (fun h => (heof (hshort h)).1) htrunc hu
  rw [hclose]
  refine ⟨showPort_kept n hstatus (ite_kept (startDiscard_kept n hstatus hended) hended), ?_, fun hs => ?_, ?_, fun hap s₀ hon hhold => ?_⟩
  · rw [showPort_port]
    split
    · rw [startDiscard_frame, ended_frame]
    · exact ended_frame _ _ _ _ _ _
  · have hstrips := ended_strips (short := short) (trunc := why != .eof) (withheld := withheld) (eof := eof) (i := i)
      (hu.mono fun _ _ => trivial) hs
    rw [showPort_port]
    split
    · rw [startDiscard_ss, hstrips]
    · exact hstrips
  · rw [linkOf, showPort_port]
    split
    · exact (startDiscard_link n _).trans ((ended_link _ _ _ _ _ _).trans hu.link)
    · exact (ended_link _ _ _ _ _ _).trans hu.link
  · have htold : Told (0x10 + n) 1 i.pfn s₀ (raiseAt eof (0x10 + n) 1 i.pfn u) :=
      told_raiseAt ((evtOn_port_of_kept 1 hn hap hu.kept).trans hon) (hu.hold.trans hhold)
    have hend := told_ended (short := short) (trunc := why != .eof) (withheld := withheld) htold
    rw [← hpfn]
    exact told_congr (told_ite (told_startDiscard hend) hend) rfl

/-- An early close leaves the port discarding (R98, R100). -/
theorem portClose_early_discarding {f : OpenSt} (hframe : (s.port n).frame = some f) :
    (portClose n .early s).f (SP_STATUS_discarding n) = 1 := by
  obtain ⟨u, short, withheld, eof, i, _, _, _, hclose⟩ := portClose_eq (p := fun _ => True) (why := .early) hframe
    fun h => absurd h (by decide)
  rw [hclose, showPort_discarding]
  exact startDiscard_discarding n _

theorem portClose_of_none (why : Close) (h : (s.port n).frame = none) : portClose n why s = s := by
  unfold portClose
  rw [h]

end

end Sys2Proof.Proofs.Frames

/-! A sensor port's control: enable, run and stop, its frame size, its clock and its sync input (R83 to R85, R104, R106). -/

namespace Sys2Proof.Proofs.PortControl

open Sys2Proof.Machine
open Sys2Proof.Proofs.Keeping
open Sys2Proof.Proofs.Access
open Sys2Proof.Proofs.Ports
open Sys2Proof.Proofs.Bus
open Sys2Proof.Proofs.TimeUnit
open Sys2Proof.Proofs.Frames
open Sys2Proof.Claims (Keeps Told Calm)

/-! ### The control register -/

/-- A bit of a word written into it reads as that of the value. -/
theorem bitOf_setBits_self (w v : Word) (i : ℕ) (hi : i ≤ 31) :
    bitOf (setBits w i i (bitsOf v.toNat i i)).toNat i = bitOf v.toNat i := by
  have h := bitsOf_setBits_self w i i (bitsOf v.toNat i i) (le_refl i) hi
  rw [Nat.sub_self] at h
  simpa [bitOf, bitsOf] using congrArg (· == 1) h

/-- SPn_CTRL after a write of `v` (R83). -/
def ctrlWord (w v : Word) : Word := [4, 3, 2, 1, 0].foldl (fun w i => setBits w i i (bitsOf v.toNat i i)) w

theorem bitOf_ctrlWord (w v : Word) {i : ℕ} (hi : i < 5) : bitOf (ctrlWord w v).toNat i = bitOf v.toNat i := by
  simp only [ctrlWord, List.foldl_cons, List.foldl_nil]
  interval_cases i
  · rw [bitOf_setBits_self _ _ _ (by decide)]
  · rw [bitOf_setBits_of_ne _ _ _ _ (by decide) (by decide), bitOf_setBits_self _ _ _ (by decide)]
  · rw [bitOf_setBits_of_ne _ _ _ _ (by decide) (by decide), bitOf_setBits_of_ne _ _ _ _ (by decide) (by decide),
      bitOf_setBits_self _ _ _ (by decide)]
  · rw [bitOf_setBits_of_ne _ _ _ _ (by decide) (by decide), bitOf_setBits_of_ne _ _ _ _ (by decide) (by decide),
      bitOf_setBits_of_ne _ _ _ _ (by decide) (by decide), bitOf_setBits_self _ _ _ (by decide)]
  · rw [bitOf_setBits_of_ne _ _ _ _ (by decide) (by decide), bitOf_setBits_of_ne _ _ _ _ (by decide) (by decide),
      bitOf_setBits_of_ne _ _ _ _ (by decide) (by decide), bitOf_setBits_of_ne _ _ _ _ (by decide) (by decide),
      bitOf_setBits_self _ _ _ (by decide)]

/-- A one-bit field reads its bit. -/
theorem b_eq_bitOf (s : State) (a i : ℕ) : s.b ⟨a, i, i⟩ = bitOf (s.rd a).toNat i := by
  rw [State.b, State.f, bitsOf, Nat.sub_self, bitOf]
  rcases Nat.mod_two_eq_zero_or_one ((s.rd a).toNat / 2 ^ i) with h | h
  · simp [h]
  · simp [h]

theorem ctrl_row {n : ℕ} (hn : n < 4) : rowAt ⟨true, some (dSP n), spRows n, 0⟩ =
    some ⟨0x0, [], .d, [⟨4, 4, .rw, 0x0⟩, ⟨3, 3, .rw, 0x0⟩, ⟨2, 2, .rw, 0x0⟩, ⟨1, 1, .rw, 0x0⟩, ⟨0, 0, .rw, 0x0⟩]⟩ := by
  interval_cases n
  all_goals rfl

/-- A write of SPn_CTRL as it is stored. -/
def ctrlTaken (n : ℕ) (v : Word) (s : State) : State := wr (SP_CTRL n) (ctrlWord (s.rd (SP_CTRL n)) v) s

theorem plainWrite_ctrl {s : State} {n : ℕ} (v : Word) (hn : n < 4) (hon : s.unitOn (dSP n) = true) :
    plainWrite (SP_CTRL n) v s = ctrlTaken n v s :=
  plainWrite_of_row (inBlock_port (off := 0) hn hon (by rw [SP_CTRL]) (by decide) (by decide)).window (ctrl_row hn)

theorem ctrlTaken_bit (n : ℕ) (v : Word) (s : State) {i : ℕ} (hi : i < 5) :
    (ctrlTaken n v s).b ⟨SP_CTRL n, i, i⟩ = bitOf v.toNat i := by
  rw [b_eq_bitOf, ctrlTaken, rd_wr_self, bitOf_ctrlWord _ _ hi]

theorem ctrlTaken_kept {p q : ℕ → Prop} {n : ℕ} (v : Word) (s : State) (hp : p (SP_CTRL n)) : Kept p q s (ctrlTaken n v s) :=
  wr_kept hp (Kept.refl p q s)

/-! ### What a write of it does, in its order (R83, R84, R104) -/

/-- A rise of en starts the port. -/
def startStage (was : Bool) (n : ℕ) (s : State) : State := if !was && s.b (SP_CTRL_en n) then portStart n s else s

/-- A fall of en ends its frame and its strips. -/
def closeStage (was : Bool) (n : ℕ) (s : State) : State :=
  if was && !s.b (SP_CTRL_en n) then ssFlush n (portClose n .early s) else s

/-- A rise of run starts strip-scan. -/
def runStage (was : Bool) (n : ℕ) (s : State) : State :=
  if !was && s.b (SP_CTRL_run n) && s.stripMode n then ssStart n s else s

/-- A change of xclk_en starts or stops the sensor clock. -/
def xclkStage (was : Bool) (n : ℕ) (s : State) : State :=
  if !was && s.b (SP_CTRL_xclk_en n) then
    modPort n (fun p => { p with xclk := some (s.f (SP_XCLK_CFG_div n), s.f (SP_XCLK_CFG_src n)) }) s
  else if was && !s.b (SP_CTRL_xclk_en n) then modPort n (fun p => { p with xclk := none }) s
  else s

theorem spCtrlWrite_eq {s : State} {n : ℕ} {v : Word} (hn : n < 4) (hon : s.unitOn (dSP n) = true)
    (hphy : s.b (SP_CTRL_en n) = true → bitOf v.toNat 2 = s.b (SP_CTRL_phy n)) : spCtrlWrite n v s =
      showPort n (xclkStage (s.b (SP_CTRL_xclk_en n)) n (runStage (s.b (SP_CTRL_run n)) n (closeStage (s.b (SP_CTRL_en n)) n
        (startStage (s.b (SP_CTRL_en n)) n (ctrlTaken n v s))))) := by
  have hpass : ¬ (s.b (SP_CTRL_en n) && bitOf v.toNat 2 != s.b (SP_CTRL_phy n)) = true := by
    rw [Bool.and_eq_true, bne_iff_ne, not_and, not_not]
    exact hphy
  rw [← plainWrite_ctrl v hn hon]
  exact if_neg hpass

theorem startStage_of_no_rise {was : Bool} {n : ℕ} {s : State} (h : was = true ∨ s.b (SP_CTRL_en n) = false) :
    startStage was n s = s := if_neg (by rcases h with h | h <;> simp [h])

theorem closeStage_of_no_fall {was : Bool} {n : ℕ} {s : State} (h : was = false ∨ s.b (SP_CTRL_en n) = true) :
    closeStage was n s = s := if_neg (by rcases h with h | h <;> simp [h])

theorem runStage_of_no_rise {was : Bool} {n : ℕ} {s : State}
    (h : was = true ∨ s.b (SP_CTRL_run n) = false ∨ s.stripMode n = false) : runStage was n s = s :=
  if_neg (by rcases h with h | h | h <;> simp [h])

section
variable {p q : ℕ → Prop} {n : ℕ} {s₀ s : State}

theorem xclkStage_kept (was : Bool) (h : Kept p q s₀ s) : Kept p q s₀ (xclkStage was n s) :=
  ite_kept (modPort_kept n _ h) (ite_kept (modPort_kept n _ h) h)

theorem xclkStage_rd (was : Bool) (a : ℕ) : (xclkStage was n s).rd a = s.rd a :=
  (xclkStage_kept (p := fun _ => False) (q := fun _ => False) was (Kept.refl _ _ s)).1 a not_false

theorem xclkStage_b (was : Bool) (x : Fld) : (xclkStage was n s).b x = s.b x := by
  rw [State.b, State.f, xclkStage_rd, State.b, State.f]

/-- The clock aside, the port is as it was. -/
theorem xclkStage_port (was : Bool) : ((xclkStage was n s).port n).frame = (s.port n).frame ∧
    ((xclkStage was n s).port n).ss = (s.port n).ss ∧ ((xclkStage was n s).port n).nextPfn = (s.port n).nextPfn := by
  unfold xclkStage
  split_ifs
  · rw [modPort_port_self]; exact ⟨rfl, rfl, rfl⟩
  · rw [modPort_port_self]; exact ⟨rfl, rfl, rfl⟩
  · exact ⟨rfl, rfl, rfl⟩

theorem xclkStage_isOpen (was : Bool) : isOpen (xclkStage was n s) n = isOpen s n := by
  obtain ⟨hframe, hss, _⟩ := xclkStage_port (n := n) (s := s) was
  rw [isOpen, isOpen, hframe, hss]

theorem xclkStage_running (was : Bool) : (xclkStage was n s).running n = s.running n := by
  rw [State.running, State.running, xclkStage_b, xclkStage_b]

end

theorem bitOf_setBits_zero (v : Word) (i : ℕ) (hi : i ≤ 31) : bitOf (setBits v i i 0).toNat i = false := by
  have h := bitsOf_setBits_self v i i 0 (le_refl i) hi
  rw [Nat.sub_self] at h
  simpa [bitOf, bitsOf] using h

/-- A port's control register is served while the port is on. -/
theorem served_ctrl {s : State} {n : ℕ} (hn : n < 4) (hon : s.unitOn (dSP n) = true) : Served (SP_CTRL n) s :=
  served_port 0 hn hon (by rw [SP_CTRL]) (by decide) (by decide)

/-- A field of SPn_CTRL is not one of SPn_STATUS. -/
theorem showPort_b {n : ℕ} {s : State} (x : Fld) (hx : x.addr ≠ SP_STATUS n) : (showPort n s).b x = s.b x := by
  rw [State.b, (showPort_kept (p := (· = SP_STATUS n)) n rfl (Kept.refl _ _ s)).f_eq x hx, State.b]

theorem ctrl_ne_status (n : ℕ) : SP_CTRL n ≠ SP_STATUS n := by simp only [SP_CTRL, SP_STATUS]; omega

theorem showPort_running (n : ℕ) (s : State) : (showPort n s).running n = s.running n := by
  rw [State.running, State.running, showPort_b _ (ctrl_ne_status n), showPort_b _ (ctrl_ne_status n)]

/-! ### Enable and disable (R39, R83, R84, R98) -/

theorem portStart_kept {p q : ℕ → Prop} {n : ℕ} {s₀ s : State} (hp : p (SP_PFN n)) (h : Kept p q s₀ s) :
    Kept p q s₀ (portStart n s) := modPort_kept n _ (setF_kept (x := SP_PFN_pfn n) hp h)

theorem portStart_b {n : ℕ} {s : State} (x : Fld) (hx : x.addr ≠ SP_PFN n) : (portStart n s).b x = s.b x := by
  rw [State.b, (portStart_kept (p := (· = SP_PFN n)) (q := fun _ => False) rfl (Kept.refl _ _ s)).f_eq x hx, State.b]

theorem portStart_pfn (n : ℕ) (s : State) : (portStart n s).f (SP_PFN_pfn n) = 0 ∧ ((portStart n s).port n).nextPfn = 0 :=
  ⟨f_clear (SP_PFN_pfn n) s rfl, by rw [portStart, modPort_port_self]⟩

theorem ctrl_ne_pfn (n : ℕ) : SP_CTRL n ≠ SP_PFN n := by simp only [SP_CTRL, SP_PFN]; omega

theorem stripMode_ctrlTaken (n : ℕ) (v : Word) (s : State) : (ctrlTaken n v s).stripMode n = s.stripMode n := by
  have hne : (SP_SS_CTRL_en n).addr ≠ SP_CTRL n := by simp only [SP_SS_CTRL_en, SP_SS_CTRL, SP_CTRL]; omega
  rw [State.stripMode, State.b, (ctrlTaken_kept (p := (· = SP_CTRL n)) (q := fun _ => False) v s rfl).f_eq _ hne,
    State.stripMode, State.b]

theorem stripMode_portStart (n : ℕ) (s : State) : (portStart n s).stripMode n = s.stripMode n := by
  rw [State.stripMode, portStart_b _ (by simp only [SP_SS_CTRL_en, SP_SS_CTRL, SP_PFN]; omega), State.stripMode]

theorem spCtrlWrite_enable {s : State} {n : ℕ} (v : Word) (hn : n < 4) (hon : s.unitOn (dSP n) = true)
    (hen : s.b (SP_CTRL_en n) = false) (hstrip : s.stripMode n = false) : spCtrlWrite n (setBits v 0 0 1) s =
      showPort n (xclkStage (s.b (SP_CTRL_xclk_en n)) n (portStart n (ctrlTaken n (setBits v 0 0 1) s))) := by
  have hrise : (ctrlTaken n (setBits v 0 0 1) s).b (SP_CTRL_en n) = true :=
    (ctrlTaken_bit n _ s (by decide)).trans (bitOf_setBits_one v 0 (by decide))
  have hstart : startStage false n (ctrlTaken n (setBits v 0 0 1) s) = portStart n (ctrlTaken n (setBits v 0 0 1) s) :=
    if_pos (by rw [hrise]; rfl)
  rw [spCtrlWrite_eq hn hon (fun h => absurd (hen.symm.trans h) (by decide)), hen, hstart, closeStage_of_no_fall (.inl rfl),
    runStage_of_no_rise (.inr (.inr (by rw [stripMode_portStart, stripMode_ctrlTaken, hstrip])))]

theorem portEnable (s : State) (r : Requester) (n : ℕ) (v : Word) : Claims.portEnable s r n v := by
  intro hn hon hen hstrip
  refine writes_of_served (a := SP_CTRL n) (k := spCtrlWrite n (setBits v 0 0 1))
    (by rw [exec_portEnable, execPortEnable, guardOk_lt hn]) (served_ctrl hn hon) (fun l e => ?_) (fun l => ?_)
  · rw [spCtrlWrite_enable (s := Access.held l s) v hn hon hen hstrip]
    refine ⟨?_, ?_, ?_⟩
    · show (showPort n (xclkStage _ n (portStart n _))).b (SP_CTRL_en n) = true
      rw [showPort_b _ (ctrl_ne_status n), xclkStage_b, portStart_b _ (ctrl_ne_pfn n)]
      exact (ctrlTaken_bit n _ _ (by decide)).trans (bitOf_setBits_one v 0 (by decide))
    · rw [answered_f, (showPort_kept (p := (· = SP_STATUS n)) n rfl (xclkStage_kept _ (Kept.refl _ _ _))).f_eq _
        (by simp only [SP_PFN_pfn, SP_PFN, SP_STATUS]; omega)]
      exact (portStart_pfn n _).1
    · rw [answered_port, showPort_port, (xclkStage_port _).2.2]
      exact (portStart_pfn n _).2
  · rw [spCtrlWrite_enable (s := Access.held l s) v hn hon hen hstrip]
    exact showPort_kept n (.inr (.inr rfl)) (xclkStage_kept _ (portStart_kept (.inr (.inl rfl))
      ((kept_held _ _ l s).trans (ctrlTaken_kept _ _ (.inl rfl)))))

/-- With no strip open, flushing ends nothing (R387). -/
theorem ssFlush_of_no_strip {n : ℕ} {s : State} (h : (s.port n).ss.strips = []) : ssFlush n s =
    modSs n (fun z => { bad := z.bad, pulses := z.pulses, last := z.last, misses := z.misses, acc := z.acc }) s := by
  have hleft : s.ssLeft n = 0 := by rw [State.ssLeft, h]; rfl
  rw [ssFlush, hleft]
  rfl

/-- What a disable leaves of the port and shows. -/
structure Disabled (p : ℕ → Prop) (n : ℕ) (s t : State) : Prop where
  kept : Kept p (fun _ => False) s t
  frame : (t.port n).frame = none
  strips : (t.port n).ss.strips = []
  discarding : (s.port n).frame.isSome = true → t.f (SP_STATUS_discarding n) = 1

theorem flushed_disabled {p : ℕ → Prop} {n : ℕ} {s : State} (hn : n < 4) (hstatus : p (SP_STATUS n)) (htrunc : p (SP_TRUNC n))
    (hs : (s.port n).ss.strips = []) : Disabled p n s (ssFlush n (portClose n .early s)) := by
  have hclosed : Kept p (fun _ => False) s (portClose n .early s) ∧ ((portClose n .early s).port n).frame = none ∧
      ((portClose n .early s).port n).ss.strips = [] := by
    cases hframe : (s.port n).frame with
    | none =>
      rw [portClose_of_none _ hframe]
      exact ⟨Kept.refl _ _ s, hframe, hs⟩
    | some f =>
      have h := portClose_closed (why := .early) hn hframe hstatus (fun hw => absurd hw (by decide)) fun _ => htrunc
      exact ⟨h.kept, h.frame, h.strips hs⟩
  obtain ⟨hkept, hframe, hstrips⟩ := hclosed
  rw [ssFlush_of_no_strip hstrips]
  refine ⟨modPort_kept n _ hkept, ?_, ?_, fun hopen => ?_⟩
  · rw [modSs, modPort_port_self]
    exact hframe
  · rw [modSs, modPort_port_self]
  · obtain ⟨f, hf⟩ := Option.isSome_iff_exists.mp hopen
    exact portClose_early_discarding hf

theorem spCtrlWrite_disable {s : State} {n : ℕ} (v : Word) (hn : n < 4) (hon : s.unitOn (dSP n) = true)
    (hen : s.b (SP_CTRL_en n) = true) (hphy : bitOf v.toNat 2 = s.b (SP_CTRL_phy n)) (hstrip : s.stripMode n = false)
    (hs : (s.port n).ss.strips = []) : ∃ u, Disabled (fun a => a = SP_STATUS n ∨ a = SP_TRUNC n) n (ctrlTaken n (setBits v 0 0 0) s) u ∧
      spCtrlWrite n (setBits v 0 0 0) s = showPort n (xclkStage (s.b (SP_CTRL_xclk_en n)) n u) := by
  have hbit : bitOf (setBits v 0 0 0).toNat 2 = s.b (SP_CTRL_phy n) :=
    (bitOf_setBits_of_ne v 0 2 0 (by decide) (by decide)).trans hphy
  have hfall : (ctrlTaken n (setBits v 0 0 0) s).b (SP_CTRL_en n) = false :=
    (ctrlTaken_bit n _ s (by decide)).trans (bitOf_setBits_zero v 0 (by decide))
  have hdisabled := flushed_disabled (p := fun a => a = SP_STATUS n ∨ a = SP_TRUNC n) (s := ctrlTaken n (setBits v 0 0 0) s) hn
    (.inl rfl) (.inr rfl) hs
  have hclose : closeStage true n (ctrlTaken n (setBits v 0 0 0) s) =
      ssFlush n (portClose n .early (ctrlTaken n (setBits v 0 0 0) s)) := if_pos (by rw [hfall]; rfl)
  have hidle : (ssFlush n (portClose n .early (ctrlTaken n (setBits v 0 0 0) s))).stripMode n = false := by
    rw [State.stripMode, State.b, hdisabled.kept.f_eq _ (by simp only [SP_SS_CTRL_en, SP_SS_CTRL, SP_STATUS, SP_TRUNC]; omega)]
    exact (stripMode_ctrlTaken n _ s).trans hstrip
  refine ⟨_, hdisabled, ?_⟩
  rw [spCtrlWrite_eq hn hon (fun _ => hbit), hen, startStage_of_no_rise (.inl rfl), hclose,
    runStage_of_no_rise (.inr (.inr hidle))]

theorem portDisable (s : State) (r : Requester) (n : ℕ) (v : Word) : Claims.portDisable s r n v := by
  intro hn hon hen hphy hstrip hs
  refine writes_of_served (a := SP_CTRL n) (k := spCtrlWrite n (setBits v 0 0 0))
    (by rw [exec_portDisable, execPortDisable, guardOk_lt hn]) (served_ctrl hn hon) (fun l e => ?_) (fun l => ?_)
  · obtain ⟨u, hu, hwrite⟩ := spCtrlWrite_disable (s := Access.held l s) v hn hon hen hphy hstrip hs
    have hopen : isOpen u n = false := by rw [isOpen, hu.frame, hu.strips]; rfl
    rw [hwrite]
    refine ⟨?_, ?_, ?_, fun hframe => ?_⟩
    · show (showPort n (xclkStage _ n u)).b (SP_CTRL_en n) = false
      rw [showPort_b _ (ctrl_ne_status n), xclkStage_b, State.b,
        hu.kept.f_eq (SP_CTRL_en n) (by simp only [SP_CTRL_en, SP_CTRL, SP_STATUS, SP_TRUNC]; omega)]
      exact (ctrlTaken_bit n _ _ (by decide)).trans (bitOf_setBits_zero v 0 (by decide))
    · rw [answered_port, showPort_port, (xclkStage_port _).1]
      exact hu.frame
    · exact (showPort_frame_open n _).trans ((xclkStage_isOpen _).trans hopen)
    · show (showPort n (xclkStage _ n u)).b (SP_STATUS_discarding n) = true
      rw [State.b, showPort_discarding, State.f, xclkStage_rd, ← State.f, hu.discarding hframe]
      rfl
  · obtain ⟨u, hu, hwrite⟩ := spCtrlWrite_disable (s := Access.held l s) v hn hon hen hphy hstrip hs
    rw [hwrite]
    exact showPort_kept n (.inr (.inl rfl)) (xclkStage_kept _ (((kept_held _ _ l s).trans (ctrlTaken_kept _ _ (.inl rfl))).trans
      (hu.kept.mono (fun _ ha => .inr ha) fun _ ha => ha)))

/-! ### Run and stop (R84) -/

/-- Where the port stays enabled and strip-scan does not start, a write of SPn_CTRL changes it, the clock and what is shown. -/
theorem spCtrlWrite_enabled {s : State} {n : ℕ} {v : Word} (hn : n < 4) (hon : s.unitOn (dSP n) = true)
    (hen : bitOf v.toNat 0 = s.b (SP_CTRL_en n)) (hphy : s.b (SP_CTRL_en n) = true → bitOf v.toNat 2 = s.b (SP_CTRL_phy n))
    (hrun : s.b (SP_CTRL_run n) = true ∨ bitOf v.toNat 1 = false ∨ s.stripMode n = false) : spCtrlWrite n v s =
      showPort n (xclkStage (s.b (SP_CTRL_xclk_en n)) n (ctrlTaken n v s)) := by
  have hsame : (ctrlTaken n v s).b (SP_CTRL_en n) = s.b (SP_CTRL_en n) := (ctrlTaken_bit n v s (by decide)).trans hen
  have hrunBit : (ctrlTaken n v s).b (SP_CTRL_run n) = bitOf v.toNat 1 := ctrlTaken_bit n v s (by decide)
  have hen' := Bool.eq_false_or_eq_true (s.b (SP_CTRL_en n))
  rw [spCtrlWrite_eq hn hon hphy, startStage_of_no_rise (hen'.imp id fun h => hsame.trans h),
    closeStage_of_no_fall (hen'.symm.imp id fun h => hsame.trans h),
    runStage_of_no_rise (by rw [hrunBit, stripMode_ctrlTaken]; exact hrun)]

theorem ctrlTaken_port (n k : ℕ) (v : Word) (s : State) : (ctrlTaken n v s).port k = s.port k := rfl

/-- What such a write keeps and shows. -/
theorem shown_kept {n : ℕ} {l : List (ℕ × ℕ)} {s : State} (was : Bool) (v : Word) :
    Kept (fun a => a = SP_CTRL n ∨ a = SP_STATUS n) (fun _ => False) s
      (showPort n (xclkStage was n (ctrlTaken n v (Access.held l s)))) :=
  showPort_kept n (.inr rfl) (xclkStage_kept _ ((kept_held _ _ l s).trans (ctrlTaken_kept _ _ (.inl rfl))))

theorem shown_running {n : ℕ} {s : State} (was : Bool) (v : Word) :
    (showPort n (xclkStage was n (ctrlTaken n v s))).running n = (bitOf v.toNat 0 && bitOf v.toNat 1) := by
  rw [showPort_running, xclkStage_running, State.running]
  exact congrArg₂ _ (ctrlTaken_bit n v s (by decide)) (ctrlTaken_bit n v s (by decide))

theorem shown_frame {n : ℕ} {s : State} (was : Bool) (v : Word) :
    ((showPort n (xclkStage was n (ctrlTaken n v s))).port n).frame = (s.port n).frame := by
  rw [showPort_port, (xclkStage_port was).1, ctrlTaken_port]

theorem shown_idle {n : ℕ} {s : State} (was : Bool) (v : Word) :
    (showPort n (xclkStage was n (ctrlTaken n v s))).b (SP_STATUS_idle n) =
      (!isOpen s n && !(bitOf v.toNat 0 && bitOf v.toNat 1)) := by
  rw [showPort_idle, xclkStage_isOpen, ← showPort_running, shown_running]
  rfl

/-- The low bits of a word. -/
theorem bitOf_of_low {a b : ℕ} (h : bitsOf a 2 0 = bitsOf b 2 0) {i : ℕ} (hi : i < 3) : bitOf a i = bitOf b i := by
  simp only [bitsOf, pow_zero, Nat.div_one] at h
  have hbit : a / 2 ^ i % 2 = b / 2 ^ i % 2 := by
    interval_cases i
    all_goals omega
  rw [bitOf, bitOf, hbit]

theorem portRun (s : State) (r : Requester) (n : ℕ) (v : Word) : Claims.portRun s r n v := by
  intro hn hon hen hlow hstrip
  have hphy1 : s.f (SP_CTRL_phy n) < 2 := f_lt s (SP_CTRL_phy n)
  have hlow' : v.toNat % 8 = 1 + 4 * s.f (SP_CTRL_phy n) := by simpa [bitsOf] using hlow
  have h0 : bitOf (setBits v 1 1 1).toNat 0 = true := by
    rw [bitOf_setBits_of_ne v 1 0 1 (by decide) (by decide), bitOf, beq_iff_eq]
    omega
  have h2 : bitOf (setBits v 1 1 1).toNat 2 = s.b (SP_CTRL_phy n) := by
    rw [bitOf_setBits_of_ne v 1 2 1 (by decide) (by decide), bitOf, State.b, Bool.eq_iff_iff, beq_iff_eq, bne_iff_ne]
    omega
  have hwrite (l : List (ℕ × ℕ)) := spCtrlWrite_enabled (s := Access.held l s) (v := setBits v 1 1 1) hn hon (h0.trans hen.symm)
    (fun _ => h2) (.inr (.inr hstrip))
  refine writes_of_served (a := SP_CTRL n) (k := spCtrlWrite n (setBits v 1 1 1))
    (by rw [exec_portRun, execPortRun, guardOk_lt hn]) (served_ctrl hn hon) (fun l e => ?_) (fun l => ?_)
  · rw [hwrite]
    have hboth : (bitOf (setBits v 1 1 1).toNat 0 && bitOf (setBits v 1 1 1).toNat 1) = true := by
      rw [h0, bitOf_setBits_one v 1 (by decide)]
      rfl
    refine ⟨(shown_running _ _).trans hboth, ?_, (shown_idle _ _).trans (by rw [hboth, Bool.not_true, Bool.and_false])⟩
    rw [answered_port, shown_frame, held_port]
  · rw [hwrite]
    exact shown_kept _ _

theorem portStop (s : State) (r : Requester) (n : ℕ) (v : Word) : Claims.portStop s r n v := by
  intro hn hon hen hbit hphy hs
  have h0 : bitOf (setBits v 1 1 0).toNat 0 = true := (bitOf_setBits_of_ne v 1 0 0 (by decide) (by decide)).trans hbit
  have h1 : bitOf (setBits v 1 1 0).toNat 1 = false := bitOf_setBits_zero v 1 (by decide)
  have h2 : bitOf (setBits v 1 1 0).toNat 2 = s.b (SP_CTRL_phy n) :=
    (bitOf_setBits_of_ne v 1 2 0 (by decide) (by decide)).trans hphy
  have hwrite (l : List (ℕ × ℕ)) := spCtrlWrite_enabled (s := Access.held l s) (v := setBits v 1 1 0) hn hon (h0.trans hen.symm)
    (fun _ => h2) (.inr (.inl h1))
  refine writes_of_served (a := SP_CTRL n) (k := spCtrlWrite n (setBits v 1 1 0))
    (by rw [exec_portStop, execPortStop, guardOk_lt hn]) (served_ctrl hn hon) (fun l e => ?_) (fun l => ?_)
  · rw [hwrite]
    have hboth : (bitOf (setBits v 1 1 0).toNat 0 && bitOf (setBits v 1 1 0).toNat 1) = false := by rw [h1, Bool.and_false]
    have hopen : isOpen (Access.held l s) n = (s.port n).frame.isSome := by
      rw [isOpen, held_port, hs]
      simp
    refine ⟨(shown_running _ _).trans hboth, ?_, (shown_idle _ _).trans ?_⟩
    · rw [answered_port, shown_frame, held_port]
    · rw [hboth, hopen]
      cases (s.port n).frame
      all_goals rfl
  · rw [hwrite]
    exact shown_kept _ _

/-! ### The sensor clock (R104) -/

theorem xclkStage_rise {n : ℕ} {s : State} (h : s.b (SP_CTRL_xclk_en n) = true) :
    ((xclkStage false n s).port n).xclk = some (s.f (SP_XCLK_CFG_div n), s.f (SP_XCLK_CFG_src n)) := by
  unfold xclkStage
  rw [h, if_pos (by decide), modPort_port_self]

theorem xclkEnable (s : State) (r : Requester) (n : ℕ) (v : Word) : Claims.xclkEnable s r n v := by
  intro hn hon hlow hoff hbit
  have hsame {i : ℕ} (hi : i < 3) : bitOf v.toNat i = s.b ⟨SP_CTRL n, i, i⟩ := (bitOf_of_low hlow hi).trans (b_eq_bitOf s _ i).symm
  have hrun : s.b (SP_CTRL_run n) = true ∨ bitOf v.toNat 1 = false ∨ s.stripMode n = false := by
    rcases Bool.eq_false_or_eq_true (s.b (SP_CTRL_run n)) with h | h
    · exact .inl h
    · exact .inr (.inl ((hsame (i := 1) (by decide)).trans h))
  have hwrite (l : List (ℕ × ℕ)) := spCtrlWrite_enabled (s := Access.held l s) (v := v) hn hon (hsame (i := 0) (by decide))
    (fun _ => hsame (i := 2) (by decide)) hrun
  have hrise (l : List (ℕ × ℕ)) : (ctrlTaken n v (Access.held l s)).b (SP_CTRL_xclk_en n) = true :=
    (ctrlTaken_bit n v _ (by decide)).trans hbit
  have hcfg (l : List (ℕ × ℕ)) (x : Fld) (hx : x.addr ≠ SP_CTRL n) : (ctrlTaken n v (Access.held l s)).f x = s.f x :=
    ((ctrlTaken_kept (p := (· = SP_CTRL n)) (q := fun _ => False) v _ rfl).f_eq x hx).trans (held_f l s x)
  refine writes_of_served (a := SP_CTRL n) (k := spCtrlWrite n v)
    (by rw [exec_xclkEnable, execXclkEnable, guardOk_lt hn]) (served_ctrl hn hon) (fun l e => ?_) (fun l => ?_)
  · rw [hwrite]
    refine ⟨?_, ?_⟩
    · show (showPort n (xclkStage _ n (ctrlTaken n v (Access.held l s)))).b (SP_CTRL_xclk_en n) = true
      rw [showPort_b _ (ctrl_ne_status n), xclkStage_b, hrise]
    · rw [answered_port, showPort_port, held_b, hoff, xclkStage_rise (hrise l),
        hcfg l _ (by simp only [SP_XCLK_CFG_div, SP_XCLK_CFG, SP_CTRL]; omega),
        hcfg l _ (by simp only [SP_XCLK_CFG_src, SP_XCLK_CFG, SP_CTRL]; omega)]
  · rw [hwrite]
    exact shown_kept _ _

theorem xclkCfg_row {n : ℕ} (hn : n < 4) : rowAt ⟨true, some (dSP n), spRows n, 0x28⟩ =
    some ⟨0x28, [], .d, [⟨15, 0, .rw, 0x1A0B⟩, ⟨16, 16, .rw, 0x0⟩]⟩ := by
  interval_cases n
  all_goals rfl

/-- SPn_XCLK_CFG after a write of `v` (R104). -/
theorem plainWrite_xclkCfg {s : State} {n : ℕ} (v : Word) (hn : n < 4) (hon : s.unitOn (dSP n) = true) :
    plainWrite (SP_XCLK_CFG n) v s = wr (SP_XCLK_CFG n)
      (setBits (setBits (s.rd (SP_XCLK_CFG n)) 15 0 (bitsOf v.toNat 15 0)) 16 16 (bitsOf v.toNat 16 16)) s :=
  plainWrite_of_row (inBlock_port (off := 0x28) hn hon (by rw [SP_XCLK_CFG]) (by decide) (by decide)).window (xclkCfg_row hn)

theorem xclkCfg_fields {s : State} {n : ℕ} {v : Word} (hn : n < 4) (hon : s.unitOn (dSP n) = true)
    (hsrc : bitOf v.toNat 16 = false) : (plainWrite (SP_XCLK_CFG n) v s).f (SP_XCLK_CFG_div n) = bitsOf v.toNat 15 0 ∧
      (plainWrite (SP_XCLK_CFG n) v s).f (SP_XCLK_CFG_src n) = 0 := by
  have hzero : bitsOf v.toNat 16 16 = 0 := by
    have h : ¬ v.toNat / 2 ^ 16 % 2 = 1 := by simpa [bitOf] using hsrc
    rw [bitsOf, Nat.sub_self]
    omega
  rw [plainWrite_xclkCfg v hn hon]
  refine ⟨?_, ?_⟩
  · show bitsOf ((wr (SP_XCLK_CFG n) _ s).rd (SP_XCLK_CFG n)).toNat 15 0 = _
    rw [rd_wr_self, bitsOf_setBits_of_above _ _ _ _ _ _ (by decide) (by decide) (by decide) (by decide),
      bitsOf_setBits_self _ _ _ _ (by decide) (by decide)]
    exact bitsOf_mod_self _ _ _
  · show bitsOf ((wr (SP_XCLK_CFG n) _ s).rd (SP_XCLK_CFG n)).toNat 16 16 = _
    rw [rd_wr_self, bitsOf_setBits_self _ _ _ _ (by decide) (by decide), hzero, Nat.zero_mod]

/-- From the fixed source the frequency's limits are these (R104). -/
theorem xclkOk_fixed {s : State} {div : ℕ} : s.xclkOk div false = true ↔
    6000000 * div ≤ 625000000 * 256 ∧ 625000000 * 256 ≤ 74250000 * div := by
  simp [State.xclkOk]

theorem xclkCfgWrite (s : State) (r : Requester) (n : ℕ) (v : Word) : Claims.xclkCfgWrite s r n v := by
  intro hn hon hsrc
  have hne : SP_STATUS n ≠ SP_XCLK_CFG n := by simp only [SP_STATUS, SP_XCLK_CFG]; omega
  refine writes_of_served (a := SP_XCLK_CFG n) (k := Machine.xclkCfgWrite n v)
    (by rw [exec_xclkCfgWrite, execXclkCfgWrite, guardOk_lt hn])
    (served_port 0x28 hn hon (by rw [SP_XCLK_CFG]) (by decide) (by decide)) (fun l e => ?_) (fun l => ?_)
  · by_cases hok : 6000000 * bitsOf v.toNat 15 0 ≤ 625000000 * 256 ∧ 625000000 * 256 ≤ 74250000 * bitsOf v.toNat 15 0
    · have htaken : Machine.xclkCfgWrite n v (Access.held l s) = plainWrite (SP_XCLK_CFG n) v (Access.held l s) :=
        if_pos (by rw [hsrc]; exact xclkOk_fixed.mpr hok)
      obtain ⟨hdiv, hzero⟩ := xclkCfg_fields (s := Access.held l s) hn hon hsrc
      rw [if_pos hok, htaken]
      refine ⟨hdiv, hzero, ?_⟩
      rw [answered_rd, plainWrite_xclkCfg (s := Access.held l s) v hn hon, rd_wr_of_ne _ _ _ _ hne, held_rd]
    · have hrefused : Machine.xclkCfgWrite n v (Access.held l s) = flag (SP_STATUS_bad_write n) (Access.held l s) :=
        if_neg (by rw [hsrc]; exact fun h => hok (xclkOk_fixed.mp h))
      rw [if_neg hok, hrefused]
      exact ⟨rd_wr_of_ne _ _ _ _ hne.symm, f_flag (SP_STATUS_bad_write n) _ rfl⟩
  · exact ite_kept (plainWrite_kept (.inl rfl) (kept_held _ _ l s))
      (flag_kept (x := SP_STATUS_bad_write n) (.inr rfl) (kept_held _ _ l s))

/-! ### The frame size and the sync input (R85, R106) -/

theorem frameSize_row {n : ℕ} (hn : n < 4) : rowAt ⟨true, some (dSP n), spRows n, 0x8⟩ =
    some ⟨0x8, [], .d, [⟨15, 0, .rwc, 0x0⟩, ⟨31, 16, .rwc, 0x0⟩]⟩ := by
  interval_cases n
  all_goals rfl

/-- Two halves that fill a word give the value. -/
theorem setBits_halves (w v : Word) : setBits (setBits w 15 0 (bitsOf v.toNat 15 0)) 31 16 (bitsOf v.toNat 31 16) = v := by
  have hv := v.isLt
  have hlow : (setBits w 15 0 (bitsOf v.toNat 15 0)).toNat % 2 ^ 16 = v.toNat % 2 ^ 16 := by
    have h := bitsOf_setBits_self w 15 0 (bitsOf v.toNat 15 0) (by decide) (by decide)
    simpa [bitsOf] using h
  have hmod := setBits_mod (setBits w 15 0 (bitsOf v.toNat 15 0)) 31 16 (bitsOf v.toNat 31 16) (by decide) (by decide)
  have hhigh := bitsOf_setBits_self (setBits w 15 0 (bitsOf v.toNat 15 0)) 31 16 (bitsOf v.toNat 31 16) (by decide) (by decide)
  have hlt := (setBits (setBits w 15 0 (bitsOf v.toNat 15 0)) 31 16 (bitsOf v.toNat 31 16)).isLt
  apply BitVec.eq_of_toNat_eq
  simp only [bitsOf] at hhigh hmod hlow hlt ⊢
  omega

theorem plainWrite_frameSize {s : State} {n : ℕ} (v : Word) (hn : n < 4) (hon : s.unitOn (dSP n) = true) :
    plainWrite (SP_FRAME_SIZE n) v s = wr (SP_FRAME_SIZE n) v s :=
  (plainWrite_of_row (inBlock_port (off := 0x8) hn hon (by rw [SP_FRAME_SIZE]) (by decide) (by decide)).window
    (frameSize_row hn)).trans (congrArg (wr (SP_FRAME_SIZE n) · s) (setBits_halves _ v))

theorem frameSizeWrite (s : State) (r : Requester) (n : ℕ) (v : Word) : Claims.frameSizeWrite s r n v := by
  intro hn hon
  have hne : SP_STATUS n ≠ SP_FRAME_SIZE n := by simp only [SP_STATUS, SP_FRAME_SIZE]; omega
  refine writes_of_served (a := SP_FRAME_SIZE n) (k := Machine.frameSizeWrite n v)
    (by rw [exec_frameSizeWrite, execFrameSizeWrite, guardOk_lt hn])
    (served_port 0x8 hn hon (by rw [SP_FRAME_SIZE]) (by decide) (by decide)) (fun l e => ?_) (fun l => ?_)
  · by_cases hok : bitsOf v.toNat 15 0 % 2 = 0 ∧ bitsOf v.toNat 31 16 % 2 = 0 ∧ bitsOf v.toNat 15 0 ≤ 32768
    · have htaken : Machine.frameSizeWrite n v (Access.held l s) = plainWrite (SP_FRAME_SIZE n) v (Access.held l s) :=
        if_neg (by simp only [Bool.or_eq_true, decide_eq_true_eq]; omega)
      rw [if_pos hok, htaken, plainWrite_frameSize (s := Access.held l s) v hn hon]
      exact ⟨rd_wr_self _ _ _, rd_wr_of_ne _ _ _ _ hne⟩
    · have hrefused : Machine.frameSizeWrite n v (Access.held l s) = flag (SP_STATUS_bad_write n) (Access.held l s) :=
        if_pos (by simp only [Bool.or_eq_true, decide_eq_true_eq]; omega)
      rw [if_neg hok, hrefused]
      exact ⟨rd_wr_of_ne _ _ _ _ hne.symm, f_flag (SP_STATUS_bad_write n) _ rfl⟩
  · exact ite_kept (flag_kept (x := SP_STATUS_bad_write n) (.inr rfl) (kept_held _ _ l s))
      (plainWrite_kept (.inl rfl) (kept_held _ _ l s))

theorem unitOn_laterAt (t : ℕ) (x : TsuSt) (v : EvrSt) (s : State) (d : ℕ) : (laterAt t x v s).unitOn d = s.unitOn d := rfl

theorem syncEdge (s : State) (n a : ℕ) (up : Bool) : Claims.syncEdge s n a up := by
  intro hn hcalm hon hmode
  obtain ⟨x, v, hlater⟩ := advanceTo_laterAt a hcalm
  have hrun : exec (.syncEdge a n up) s = .next (raise (0x10 + n) 9 0 (laterAt (max s.now a) x v s)) := by
    rw [exec_syncEdge, execSyncEdge, guardOk_lt hn, hlater]
    refine congrArg Host.Outcome.next (if_pos ?_)
    rw [unitOn_laterAt, hon, Bool.true_and, beq_iff_eq]
    exact hmode
  exact ⟨_, hrun, told_raise rfl rfl, raise_now _ _ _ _, raise_kept ((Kept.refl _ _ s).congr rfl rfl rfl rfl)⟩

/-- Settles O22, a command at a time. -/
theorem portControl : Obligations.PortControl := by
  unfold Obligations.PortControl
  exact ⟨portEnable, portDisable, portRun, portStop, xclkEnable, frameSizeWrite, xclkCfgWrite, syncEdge⟩

end Sys2Proof.Proofs.PortControl

/-! A frame start takes the port's registers over the whole register list, so a width that stands twice in it is taken as its
last entry, though a read of the register answers the first. -/

namespace Sys2Proof.Proofs.DoubledSize

open Sys2Proof.Machine

-- The kernel's evaluation below waits for the declarations before it: it is elaborated in their order.
set_option Elab.async false

/-- Port 0 receives CSI-2 frames on channel 0; its frame size stands in the registers as 2 by 2 and once more as 4 by 4. -/
def doubled : State :=
  { State.reset with
    regs := [(PWR_STATUS, 0x7FFFFFFF), (SP_CTRL 0, 7), (SP_FRAME_SIZE 0, 0x20002), (SP_CSI_VC_MAP 0, 4), (SP_FRAME_SIZE 0, 0x40004)] }

/-- The state after the frame start. -/
def started : State := csiShort 0 .good (fun s => if s.stripMode 0 then s else csiStart 0 0 0 s) doubled

theorem size_read : (doubled.f (SP_FRAME_SIZE_width 0), doubled.f (SP_FRAME_SIZE_height 0)) = (2, 2) := by decide +kernel

theorem width_opened : (started.port 0).frame.map (·.w) = some 4 := by decide +kernel

theorem exec_csiFrameStart : exec (.csiFrameStart 0 0 0 0 .good) doubled = .next started := by rfl

/-- Refutes O24: the frame that opens is 4 wide, and the register reads 2. -/
theorem not_csiFramesAndGroups : ¬ Obligations.CsiFramesAndGroups := by
  unfold Obligations.CsiFramesAndGroups
  intro ⟨_, _, h, _⟩
  obtain ⟨hwidth, hheight⟩ := Prod.mk.inj size_read
  obtain ⟨t, hrun, hframe, _⟩ := h doubled 0 0 0 0 (by decide) (by decide) ⟨rfl, rfl, rfl, rfl⟩ (by decide +kernel) (by decide +kernel)
    (by decide +kernel) rfl rfl rfl (by decide +kernel) (by rw [hwidth]; decide) (by rw [hheight]; decide)
  rw [exec_csiFrameStart, Host.Outcome.next.injEq] at hrun
  have hw := congrArg (Option.map (·.2.1)) hframe
  rw [← hrun, Option.map_map, hwidth] at hw
  exact absurd (width_opened.symm.trans hw) (by decide)

end Sys2Proof.Proofs.DoubledSize

/-! The instructions of a pip: what each slot of a bundle does, and the end of a tile (R188 to R209). -/

namespace Sys2Proof.Proofs.Pips

open Sys2Proof.Machine
open Sys2Proof.Proofs.Keeping
open Sys2Proof.Proofs.Access
open Sys2Proof.Proofs.Bus (counting)
open Sys2Proof.Claims (Runs Keeps Now Running vecOps cmpOps scalarOps branchOps BundleDone slotAStands localWord)

/-! ### Slot A (R192 to R198) -/

theorem modPip_pip (u : PipRef) (f : PipSt → PipSt) (s : State) : (modPip u f s).pip u = f (s.pip u) :=
  lookD_put_self _ _ _ _

theorem modPip_kept {p q : ℕ → Prop} (u : PipRef) (f : PipSt → PipSt) (s : State) : Kept p q s (modPip u f s) :=
  (Kept.refl p q s).congr rfl rfl rfl rfl

theorem issueParity_sound (s : State) (h : s.err.slots = []) : issueParity s = (none, s) := by
  rw [issueParity, inject_nil _ _ h]
  dsimp only
  rw [inject_nil _ _ h]
  rfl

section
variable {s : State} {u : PipRef} {r : PipRun} {b : BitVec 64} {w : BitVec 26}

/-- Slot A of a running tile leaves what it writes for the bundle's end. -/
theorem issueA_of_running {op : ℕ} {f : PipRun → State → Option AWrite × State} {a : AWrite} {t : State} (h : Running s u r b)
    (ha : r.a = none) (hop : b.toNat % 2 ^ 32 = op * 2 ^ 26 + w.toNat) (hf : f r s = (some a, t)) :
    issueA op u w f s = .next (modPip u (fun z => { z with run := some { r with a := some a } }) t) := by
  obtain ⟨hwf, hon, hrun, hbundle, hslots⟩ := h
  rw [issueA, hwf, guardOk_true, hrun]
  dsimp only
  rw [hbundle]
  dsimp only
  rw [if_pos (by rw [hon, ha, hop]; simp), issueParity_sound s hslots]
  dsimp only
  rw [hf]

/-- The lanes that slot A writes under the predicate, each with whether it is counted as saturated. -/
def lanesOf (r : PipRun) (n : ℕ) (g : ℕ → Word × Bool) : List (Option (Word × Bool)) :=
  (List.range 4).map (fun k => if r.pen n k = true then some (g k) else none)

theorem count_saturated (l : List (Option (Word × Bool))) :
    (l.filterMap (fun o => o.map (·.2))).count true = (l.filterMap id).countP (·.2) := by
  rw [List.count, List.countP_filterMap, List.countP_filterMap]
  refine List.countP_congr fun o _ => ?_
  cases o
  · rfl
  · simp

/-- The saturated lanes are counted, and go to detector 0x06 (R194, R213). -/
theorem laneOut_counted (n lat : ℕ) (res : List (Option (Word × Bool))) (hslots : s.err.slots = []) :
    ∃ t, laneOut u n lat res s = (some (.vec (fVd n) (res.map (fun o => o.map (·.1))) lat), t) ∧ t.pips = s.pips ∧
      t.rd (POD_SAT u.pod) = s.rd (POD_SAT u.pod) + BitVec.ofNat 32 ((res.filterMap id).countP (·.2)) ∧
      Keeps (fun a => a = POD_SAT u.pod) s t := by
  have htally (l : List Bool) : ∃ rates inj, tally 0x2006 l s = (l.count true, counting rates inj s) := by
    rw [tally, hslots]
    dsimp only [List.isEmpty_nil]
    rw [if_pos rfl, detectN]
    split
    · exact ⟨s.err.rates, s.err.injRates, rfl⟩
    · exact ⟨_, _, rfl⟩
  obtain ⟨rates, inj, hcounted⟩ := htally (res.filterMap (fun o => o.map (·.2)))
  have hkept : Kept (fun a => a = POD_SAT u.pod) (fun _ => False) s (counting rates inj s) := (Kept.refl _ _ s).congr rfl rfl rfl rfl
  have hcond : ((res.filterMap (fun o => o.map (·.2))).any id || !s.err.slots.isEmpty) =
      (res.filterMap (fun o => o.map (·.2))).any id := by
    rw [hslots, List.isEmpty_nil, Bool.not_true, Bool.or_false]
  rw [← count_saturated]
  by_cases hany : (res.filterMap (fun o => o.map (·.2))).any id = true
  · have hpos : (res.filterMap (fun o => o.map (·.2))).count true ≠ 0 := by
      have hmem : true ∈ res.filterMap (fun o => o.map (·.2)) := by
        obtain ⟨x, hx, hid⟩ := List.any_eq_true.mp hany
        exact (show x = true from hid) ▸ hx
      exact (List.count_pos_iff.mpr hmem).ne'
    refine ⟨bumpBy (POD_SAT u.pod) ((res.filterMap (fun o => o.map (·.2))).count true) (counting rates inj s), ?_, rfl, ?_,
      bumpBy_kept rfl hkept⟩
    · rw [laneOut]
      dsimp only
      rw [hcond, if_pos hany, hcounted]
      dsimp only
      rw [if_neg hpos]
    · exact rd_wr_self _ _ _
  · have hnone : (res.filterMap (fun o => o.map (·.2))).count true = 0 := by
      refine List.count_eq_zero.mpr fun hmem => hany ?_
      exact List.any_eq_true.mpr ⟨true, hmem, rfl⟩
    refine ⟨s, ?_, rfl, by rw [hnone, BitVec.add_zero], Kept.refl _ _ s⟩
    rw [laneOut]
    dsimp only
    rw [hcond, if_neg hany]
    rfl

/-- What a vector operation leaves: the lanes under the predicate wait, and saturated ones are counted. -/
def LanesWait (s : State) (u : PipRef) (r : PipRun) (n lat : ℕ) (g : ℕ → Word × Bool) (t : State) : Prop :=
  (t.pip u).run = some { r with a := some (.vec (fVd n) ((lanesOf r n g).map (fun o => o.map (·.1))) lat) } ∧
    t.rd (POD_SAT u.pod) = s.rd (POD_SAT u.pod) + BitVec.ofNat 32 (((lanesOf r n g).filterMap id).countP (·.2)) ∧
    Keeps (fun a => a = POD_SAT u.pod) s t

theorem lanesWait_of_laneOut {op n lat : ℕ} {g : ℕ → Word × Bool} {f : PipRun → State → Option AWrite × State}
    (h : Running s u r b) (ha : r.a = none) (hop : b.toNat % 2 ^ 32 = op * 2 ^ 26 + w.toNat)
    (hf : f r s = laneOut u n lat (lanesOf r n g) s) : ∃ t, issueA op u w f s = .next t ∧ LanesWait s u r n lat g t := by
  obtain ⟨t, hout, hpips, hsat, hkeeps⟩ := laneOut_counted (u := u) n lat (lanesOf r n g) h.2.2.2.2
  refine ⟨_, issueA_of_running h ha hop (hf.trans hout), ?_, hsat, Kept.trans hkeeps (modPip_kept u _ t)⟩
  rw [modPip_pip]

end

/-! ### The vector operations -/

/-- A slot A operation whose lanes go through the count of saturated ones. -/
def Lanes (i : PipRef → BitVec 26 → Instr) (op lat : ℕ) (g : PipRun → ℕ → ℕ → Word × Bool) : Prop :=
  ∀ u w s, s.err.slots = [] → ∃ f, exec (i u w) s = issueA op u w f s ∧
    ∀ r, f r s = laneOut u w.toNat lat (lanesOf r w.toNat (g r w.toNat)) s

theorem lanes_of_lane {i : PipRef → BitVec 26 → Instr} {op lat : ℕ} {g : PipRun → ℕ → ℕ → Word × Bool}
    {f : BitVec 26 → PipRun → ℕ → Word × Bool} (hexec : ∀ u w s, exec (i u w) s = laneOp op lat u w (f w) s)
    (hf : ∀ w r k, f w r k = g r w.toNat k) : Lanes i op lat g := by
  intro u w s _
  refine ⟨_, hexec u w s, fun r => ?_⟩
  rw [show f w r = g r w.toNat from funext (hf w r)]
  rfl

/-- A result that no check looks at counts nothing. -/
theorem lanes_of_raw {i : PipRef → BitVec 26 → Instr} {op : ℕ} {g : PipRun → ℕ → ℕ → Word × Bool}
    {f : BitVec 26 → PipRun → ℕ → Word} (hexec : ∀ u w s, exec (i u w) s = rawOp op u w (f w) s)
    (hf : ∀ w r k, (f w r k, false) = g r w.toNat k) : Lanes i op 1 g := by
  intro u w s hslots
  refine ⟨_, hexec u w s, fun r => ?_⟩
  have hsat : (((lanesOf r w.toNat (g r w.toNat)).filterMap (fun o => o.map (·.2))).any id || !s.err.slots.isEmpty) = false := by
    rw [hslots, ← show (fun k => (f w r k, false)) = g r w.toNat from funext (hf w r), lanesOf, List.isEmpty_nil, Bool.not_true,
      Bool.or_false, List.any_eq_false]
    intro x hx
    obtain ⟨o, ho, hox⟩ := List.mem_filterMap.mp hx
    obtain ⟨k, _, rfl⟩ := List.mem_map.mp ho
    split at hox
    · exact (Option.some.inj hox) ▸ Bool.false_ne_true
    · exact absurd hox nofun
  have hlanes : (lanesOf r w.toNat (g r w.toNat)).map (fun o => o.map (·.1)) =
      (List.range 4).map (fun k => if r.pen w.toNat k then some (f w r k) else none) := by
    rw [lanesOf, List.map_map]
    refine List.map_congr_left fun k _ => ?_
    rw [Function.comp_apply, ← hf]
    split
    · rfl
    · rfl
  rw [laneOut, hlanes]
  dsimp only
  rw [hsat]
  rfl

theorem bitsOf_low (n hi : ℕ) : bitsOf n hi 0 = n % 2 ^ (hi + 1) := by rw [bitsOf, pow_zero, Nat.div_one, Nat.sub_zero]

theorem bitsOf_quarter (n : ℕ) : bitsOf n 17 13 % 16 = bitsOf n 16 13 := by
  simp only [bitsOf]
  omega

theorem w32_s32 (x : Word) : w32 (s32 x) = x := BitVec.ofInt_toInt

theorem w32_min (x y : Word) : (if sltW y x = true then y else x) = w32 (min (s32 x) (s32 y)) := by
  rw [min_comm, min_def_lt, apply_ite w32, w32_s32, w32_s32]
  simp only [sltW, decide_eq_true_eq]
  rfl

theorem w32_max (x y : Word) : (if sltW x y = true then y else x) = w32 (max (s32 x) (s32 y)) := by
  rw [max_def_lt, apply_ite w32, w32_s32, w32_s32]
  simp only [sltW, decide_eq_true_eq]
  rfl

theorem ite_min (p q : Rat) : (if q < p then q else p) = min p q := by rw [min_comm, min_def_lt]

theorem ite_max (p q : Rat) : (if p < q then q else p) = max p q := by rw [max_def_lt]

theorem absQ_eq_max (q : Rat) : absQ q = max q (-q) := by
  rw [absQ]
  split
  · rw [max_eq_right (by linarith)]
  · rw [max_eq_left (by linarith)]

/-- The upper 18 bits of a word written over its lower 14. -/
theorem setBits_upper (x : Word) (n : ℕ) :
    (x &&& 0x3FFF) ||| BitVec.ofNat 32 (bitsOf n 17 0 * 2 ^ 14) = setBits x 31 14 (bitsOf n 17 0) := by
  have hn : bitsOf n 17 0 < 2 ^ 18 := by
    rw [bitsOf_low]
    exact Nat.mod_lt _ (by decide)
  have hmask : x.toNat &&& 0x3FFF = x.toNat % 2 ^ 14 := Nat.and_two_pow_sub_one_eq_mod x.toNat 14
  have hlow : x.toNat % 2 ^ 14 < 2 ^ 14 := Nat.mod_lt _ (by decide)
  have hor := Nat.shiftLeft_add_eq_or_of_lt hlow (bitsOf n 17 0)
  rw [Nat.shiftLeft_eq] at hor
  refine BitVec.eq_of_toNat_eq ?_
  rw [BitVec.toNat_or, BitVec.toNat_and, show (0x3FFF : Word).toNat = 0x3FFF from rfl, hmask, BitVec.toNat_ofNat,
    Nat.mod_eq_of_lt (show bitsOf n 17 0 * 2 ^ 14 < 2 ^ 32 by omega), Nat.lor_comm, ← hor, setBits, BitVec.toNat_ofNat]
  clear hor hmask
  have hx := x.isLt
  generalize bitsOf n 17 0 = v at hn
  rw [show bitsOf x.toNat 31 14 = x.toNat / 2 ^ 14 % 2 ^ 18 from rfl, show 31 - 14 + 1 = 18 from rfl]
  omega

theorem vecOps_lanes : ∀ e ∈ vecOps, Lanes e.1 e.2.1 e.2.2.1 e.2.2.2 := by
  simp only [List.forall_mem_cons]
  exact ⟨
    lanes_of_lane (fun _ _ _ => rfl) (fun _ _ _ => rfl),
    lanes_of_lane (fun _ _ _ => rfl) (fun _ _ _ => rfl),
    lanes_of_lane (fun _ _ _ => rfl) (fun _ _ _ => rfl),
    lanes_of_lane (fun _ _ _ => rfl) (fun _ _ _ => rfl),
    lanes_of_lane (fun _ _ _ => rfl) (fun _ _ _ => congrArg slr (ite_min _ _)),
    lanes_of_lane (fun _ _ _ => rfl) (fun _ _ _ => congrArg slr (ite_max _ _)),
    lanes_of_lane (fun _ _ _ => rfl) (fun _ _ _ => congrArg slr (absQ_eq_max _)),
    lanes_of_lane (fun _ _ _ => rfl) (fun _ _ _ => rfl),
    lanes_of_lane (fun _ _ _ => rfl) (fun _ _ _ => rfl),
    lanes_of_lane (fun _ _ _ => rfl) (fun _ _ _ => rfl),
    lanes_of_lane (fun _ _ _ => rfl) (fun _ _ _ => rfl),
    lanes_of_lane (fun _ _ _ => rfl) (fun _ _ _ => rfl),
    lanes_of_raw (fun _ _ _ => rfl) (fun _ _ _ => rfl),
    lanes_of_raw (fun _ _ _ => rfl) (fun _ _ _ => rfl),
    lanes_of_raw (fun _ _ _ => rfl) (fun _ _ _ => rfl),
    lanes_of_raw (fun _ _ _ => rfl) (fun _ _ _ => congrArg (·, false) (w32_min _ _)),
    lanes_of_raw (fun _ _ _ => rfl) (fun _ _ _ => congrArg (·, false) (w32_max _ _)),
    lanes_of_raw (fun _ _ _ => rfl) (fun _ _ _ => rfl),
    lanes_of_raw (fun _ _ _ => rfl) (fun _ _ _ => rfl),
    lanes_of_raw (fun _ _ _ => rfl) (fun _ _ _ => rfl),
    lanes_of_raw (fun _ _ _ => rfl) (fun _ r _ => congrArg (fun n => (_ <<< n, false)) (bitsOf_low _ 4).symm),
    lanes_of_raw (fun _ _ _ => rfl) (fun _ r _ => congrArg (fun n => (_ >>> n, false)) (bitsOf_low _ 4).symm),
    lanes_of_raw (fun _ _ _ => rfl) (fun _ r _ => congrArg (fun n => (BitVec.sshiftRight _ n, false)) (bitsOf_low _ 4).symm),
    lanes_of_lane (fun _ _ _ => rfl) (fun _ _ _ => rfl),
    lanes_of_lane (fun _ _ _ => rfl) (fun _ _ _ => rfl),
    lanes_of_raw (fun _ _ _ => rfl) (fun _ _ _ => rfl),
    lanes_of_raw (fun _ _ _ => rfl) (fun _ r _ => congrArg (fun i => (r.sreg i, false)) (bitsOf_quarter _)),
    lanes_of_raw (fun _ _ _ => rfl) (fun _ _ _ => rfl),
    lanes_of_raw (fun _ _ _ => rfl) (fun _ _ _ => congrArg (·, false) (setBits_upper _ _)),
    lanes_of_raw (fun _ _ _ => rfl) (fun _ _ _ => rfl), nofun⟩

theorem vecIssue (s : State) (u : PipRef) (r : PipRun) (b : BitVec 64) (w : BitVec 26) : Claims.vecIssue s u r b w := by
  intro h ha e he hop
  obtain ⟨f, hexec, hf⟩ := vecOps_lanes e he u w s h.2.2.2.2
  obtain ⟨t, hissue, hwait⟩ := lanesWait_of_laneOut h ha hop (hf r)
  exact ⟨t, hexec.trans hissue, hwait⟩

theorem lutIssue (s : State) (u : PipRef) (r : PipRun) (b : BitVec 64) (w : BitVec 26) : Claims.lutIssue s u r b w := by
  intro h ha hop hbad
  obtain ⟨t, hissue, hwait⟩ := lanesWait_of_laneOut (u := u) (lat := 6) (n := w.toNat)
    (g := fun k => slr (lutUnit (s.pod u.pod) (fVb w.toNat % 16) (slw (r.lane (fVa w.toNat) k))))
    (f := fun r s =>
      let (bad, s) := podExam u s
      if bad then (none, s)
      else laneOut u w.toNat 6 (lanesOf r w.toNat (fun k =>
        slr (lutUnit (s.pod u.pod) (fVb w.toNat % 16) (slw (r.lane (fVa w.toNat) k))))) s) h ha hop (by
      rw [podExam, hbad, if_neg Bool.false_ne_true, examDetect, examine_nil _ _ _ h.2.2.2.2]
      rfl)
  exact ⟨t, hissue, hwait⟩

/-! ### Comparisons, and VNOP -/

/-- A slot A operation that writes predicate bits. -/
def Bits (i : PipRef → BitVec 26 → Instr) (op : ℕ) (g : Word → Word → Bool) : Prop :=
  ∀ u w s, exec (i u w) s = cmpOp op g u w s

theorem cmpOps_bits : ∀ e ∈ cmpOps, Bits e.1 e.2.1 e.2.2 := by
  simp only [List.forall_mem_cons]
  exact ⟨fun _ _ _ => rfl, fun _ _ _ => rfl, fun _ _ _ => rfl, fun _ _ _ => rfl, fun _ _ _ => rfl, nofun⟩

theorem cmpIssue (s : State) (u : PipRef) (r : PipRun) (b : BitVec 64) (w : BitVec 26) : Claims.cmpIssue s u r b w := by
  intro h ha e he hop
  refine ⟨_, (cmpOps_bits e he u w s).trans (issueA_of_running h ha hop rfl), ?_, modPip_kept u _ s⟩
  rw [modPip_pip]

theorem vnopIssue (s : State) (u : PipRef) (r : PipRun) (b : BitVec 64) (w : BitVec 26) : Claims.vnopIssue s u r b w := by
  intro h ha hop
  have hissue := issueA_of_running (op := 0) (f := fun _ s => (some .none, s)) h ha (by rw [hop, Nat.zero_mul, Nat.zero_add]) rfl
  refine ⟨_, hissue, ?_, modPip_kept u _ s⟩
  rw [modPip_pip]

/-! ### The end of a bundle (R191, R195) -/

section
variable {s : State} {u : PipRef} {r : PipRun} {b : BitVec 64} {w : BitVec 26}

/-- Slot B of a running tile completes its bundle. -/
theorem issueB_of_running {op : ℕ} {f : PipRun → State → BRes × State} {o : BOut} (h : Running s u r b) (ha : r.a.isSome = true)
    (hop : b.toNat / 2 ^ 32 = op * 2 ^ 26 + w.toNat) (hf : f r s = (.ok o, s)) :
    issueB op u w f s = .next (modPip u (fun z => { z with
      run := some (finishBundle r b.toNat o)
      mem := (o.stores.filter (fun e => !(0x1E00 ≤ e.1 && e.1 < 0x2000))).foldl (fun m e => putWord m e.1 e.2) z.mem }) s) := by
  obtain ⟨hwf, hon, hrun, hbundle, _⟩ := h
  rw [issueB, hwf, guardOk_true, hrun]
  dsimp only
  rw [hbundle]
  dsimp only
  rw [if_pos (by rw [hon, ha, hop]; simp), hf]

theorem writeLanes_lane (d : ℕ) (l : List (Option Word)) (i k : ℕ) (hk : k < 4) :
    (writeLanes r d l).lane i k = if i = d then (l.getD k none).getD (r.lane d k) else r.lane i k := by
  rw [PipRun.lane, PipRun.vec, writeLanes]
  dsimp only
  split
  · next h =>
    rw [h, lookD_put_self, List.getD_eq_getElem?_getD, List.getElem?_map, List.getElem?_range hk]
    show (match l.getD k none with | some x => x | none => r.lane d k) = _
    cases l.getD k none
    · rfl
    · rfl
  · next h =>
    rw [lookD_put_of_ne _ _ _ _ _ h]
    rfl

/-- Four predicate bits put together. -/
theorem bitOf_fold (c : ℕ → Bool) (k : ℕ) (hk : k < 4) :
    bitOf ((List.range 4).foldl (fun m k => if c k = true then m + 2 ^ k else m) 0) k = c k := by
  have hbits : ∀ b : Fin 4 → Bool, ∀ i : Fin 4,
      bitOf ((List.finRange 4).foldl (fun m k => if b k = true then m + 2 ^ k.val else m) 0) i.val = b i := by decide
  exact hbits (fun i => c i.val) ⟨k, hk⟩

/-- The bit of a predicate register that slot A leaves. -/
def bitLeft (r : PipRun) (q : ℕ) (l : List (Option Bool)) (k : ℕ) : Bool := match l.getD k none with
  | some b => b
  | none => r.pbit q k

theorem bitLeft_eq (r : PipRun) (q : ℕ) (l : List (Option Bool)) (k : ℕ) : bitLeft r q l k = (l.getD k none).getD (r.pbit q k) := by
  rw [bitLeft]
  cases l.getD k none
  all_goals rfl

/-- The predicate bits that slot A left, written. -/
def writeBits (r : PipRun) (q : ℕ) (l : List (Option Bool)) : PipRun :=
  { r with p := put r.p q ((List.range 4).foldl (fun m k => if bitLeft r q l k = true then m + 2 ^ k else m) 0) }

theorem writeBits_pbit (q : ℕ) (l : List (Option Bool)) (i k : ℕ) (hk : k < 4) :
    (writeBits r q l).pbit i k = if i = q then (l.getD k none).getD (r.pbit q k) else r.pbit i k := by
  rw [PipRun.pbit, writeBits]
  dsimp only
  split
  · next h => rw [h, lookD_put_self, bitOf_fold _ _ hk, bitLeft_eq]
  · next h =>
    rw [lookD_put_of_ne _ _ _ _ _ h]
    rfl

theorem writeA_vec {d lat : ℕ} {l : List (Option Word)} (h : r.a = some (.vec d l lat)) : writeA r = writeLanes r d l := by
  rw [writeA, h]

theorem writeA_pred {q : ℕ} {l : List (Option Bool)} (h : r.a = some (.pred q l)) : writeA r = writeBits r q l := by
  cases r
  cases h
  rfl

theorem slotAStands_writeA {r' : PipRun} (hv : r'.v = (writeA r).v) (hp : r'.p = (writeA r).p) : slotAStands r r' = true := by
  have hlane (i k : ℕ) : r'.lane i k = (writeA r).lane i k := by rw [PipRun.lane, PipRun.vec, hv, PipRun.lane, PipRun.vec]
  have hbit (i k : ℕ) : r'.pbit i k = (writeA r).pbit i k := by rw [PipRun.pbit, hp, PipRun.pbit]
  rcases ha : r.a with _ | (_ | ⟨d, l, lat⟩ | ⟨q, l⟩)
  · rw [writeA, ha] at hv hp
    simp only [slotAStands, ha]
    exact Bool.and_eq_true_iff.mpr ⟨beq_iff_eq.mpr hv, beq_iff_eq.mpr hp⟩
  · rw [writeA, ha] at hv hp
    simp only [slotAStands, ha]
    exact Bool.and_eq_true_iff.mpr ⟨beq_iff_eq.mpr hv, beq_iff_eq.mpr hp⟩
  · rw [writeA_vec ha] at hlane hp
    have hstand : (List.range 32).all (fun i => (List.range 4).all (fun k =>
        r'.lane i k == if i = d then (l.getD k none).getD (r.lane i k) else r.lane i k)) = true := by
      simp only [List.all_eq_true, List.mem_range, beq_iff_eq]
      intro i _ k hk
      rw [hlane, writeLanes_lane d l i k hk]
      split
      · next h => rw [h]
      · rfl
    simp only [slotAStands, ha]
    exact Bool.and_eq_true_iff.mpr ⟨hstand, beq_iff_eq.mpr hp⟩
  · rw [writeA_pred ha] at hbit hv
    have hstand : (List.range 4).all (fun i => (List.range 4).all (fun k =>
        r'.pbit i k == if i = q then (l.getD k none).getD (r.pbit i k) else r.pbit i k)) = true := by
      simp only [List.all_eq_true, List.mem_range, beq_iff_eq]
      intro i _ k hk
      rw [hbit, writeBits_pbit q l i k hk]
      split
      · next h => rw [h]
      · rfl
    simp only [slotAStands, ha]
    exact Bool.and_eq_true_iff.mpr ⟨hstand, beq_iff_eq.mpr hv⟩

theorem issueAt_le (r : PipRun) (b : ℕ) : r.cycle ≤ issueAt r b := by
  rw [issueAt]
  generalize aRegs _ _ ++ bRegs _ _ = l
  generalize r.cycle = c
  induction l generalizing c with
  | nil => exact le_refl c
  | cons k l ih => exact (le_max_left c _).trans (ih _)

/-- What slot A left is written, and it left nothing more. -/
def slotADone (r : PipRun) : PipRun := { writeA r with a := none }

theorem writeA_t (r : PipRun) : (writeA r).t = r.t := by
  rcases ha : r.a with _ | (_ | ⟨d, l, lat⟩ | ⟨q, l⟩)
  · rw [writeA, ha]
  · rw [writeA, ha]
  · rw [writeA_vec ha, writeLanes]
  · rw [writeA_pred ha, writeBits]

theorem writeA_pc (r : PipRun) : (writeA r).pc = r.pc := by
  rcases ha : r.a with _ | (_ | ⟨d, l, lat⟩ | ⟨q, l⟩)
  · rw [writeA, ha]
  · rw [writeA, ha]
  · rw [writeA_vec ha, writeLanes]
  · rw [writeA_pred ha, writeBits]

theorem writeA_s (r : PipRun) : (writeA r).s = r.s := by
  rcases ha : r.a with _ | (_ | ⟨d, l, lat⟩ | ⟨q, l⟩)
  · rw [writeA, ha]
  · rw [writeA, ha]
  · rw [writeA_vec ha, writeLanes]
  · rw [writeA_pred ha, writeBits]

/-- The registers after a bundle whose slot B writes at most a scalar register. -/
def scalarWritten (r : PipRun) (sc : Option (ℕ × Word)) : PipRun := match sc with
  | some (d, x) => if d = 0 then slotADone r else { slotADone r with s := put (slotADone r).s d x }
  | none => slotADone r

/-- Where the pip stands after a bundle. -/
def pcAfter (pc : ℕ) (target : Option Int) : ℕ := match target with
  | some x => x.toNat
  | none => pc + 1

theorem finishBundle_scalar (b : ℕ) {o : BOut} (hvec : o.vec = none) : finishBundle r b o =
    { scalarWritten r o.sc with
      ready := (finishBundle r b o).ready, scratch := (finishBundle r b o).scratch
      cycle := (finishBundle r b o).cycle, pc := pcAfter (scalarWritten r o.sc).pc o.target } := by
  obtain ⟨vec, sc, lat, stores, target⟩ := o
  cases hvec
  rfl

theorem finishBundle_vector (b : ℕ) {o : BOut} {d : ℕ} {l : List (Option Word)} (hvec : o.vec = some (d, l)) (hsc : o.sc = none) :
    finishBundle r b o = { writeLanes (slotADone r) d l with
      ready := (finishBundle r b o).ready, scratch := (finishBundle r b o).scratch
      cycle := (finishBundle r b o).cycle, pc := pcAfter (slotADone r).pc o.target } := by
  obtain ⟨vec, sc, lat, stores, target⟩ := o
  cases hvec
  cases hsc
  rfl

theorem finishBundle_cycle (b : ℕ) (o : BOut) : r.cycle < (finishBundle r b o).cycle := by
  have hcycle : (finishBundle r b o).cycle = issueAt r b + 1 + (if o.target.isSome then 1 else 0) := rfl
  have := issueAt_le r b
  omega

/-- A scalar register written leaves what slot A wrote, and the tile. -/
theorem scalarWritten_eq (sc : Option (ℕ × Word)) : ∃ l, scalarWritten r sc = { slotADone r with s := l } := by
  rcases sc with _ | ⟨d, x⟩
  · exact ⟨_, rfl⟩
  · by_cases hd : d = 0
    · exact ⟨(slotADone r).s, if_pos hd⟩
    · exact ⟨put (slotADone r).s d x, if_neg hd⟩

theorem bundleDone_scalar (b : ℕ) {o : BOut} (hvec : o.vec = none) : BundleDone r (finishBundle r b o) (pcAfter r.pc o.target) := by
  obtain ⟨l, hl⟩ := scalarWritten_eq (r := r) o.sc
  have hcycle := finishBundle_cycle (r := r) b o
  rw [finishBundle_scalar b hvec, hl] at hcycle ⊢
  exact ⟨congrArg (pcAfter · o.target) (writeA_pc r), rfl, hcycle, writeA_t r, slotAStands_writeA rfl rfl⟩

theorem finishBundle_s (b : ℕ) {o : BOut} (hvec : o.vec = none) : (finishBundle r b o).s = (scalarWritten r o.sc).s := by
  rw [finishBundle_scalar b hvec]

theorem scalarWritten_sreg (d : ℕ) (x : Word) (i : ℕ) :
    (scalarWritten r (some (d, x))).sreg i = if i = 0 then 0 else if i = d then x else r.sreg i := by
  rw [PipRun.sreg, PipRun.sreg, scalarWritten]
  split
  · rfl
  · next hi =>
    split
    · next hd =>
      rw [if_neg (by omega)]
      exact congrArg (lookD · 0 i) (writeA_s r)
    · split
      · next hid => rw [hid, lookD_put_self]
      · next hid => rw [lookD_put_of_ne _ _ _ _ _ hid]; exact congrArg (lookD · 0 i) (writeA_s r)

end

/-! ### The scalar operations, and what ends a bundle alone (R193) -/

section
variable {s : State} {u : PipRef} {r : PipRun} {b : BitVec 64} {w : BitVec 26}

/-- What a bundle's end leaves when slot B writes no lane. -/
def Ended (s : State) (u : PipRef) (r : PipRun) (o : BOut) (t : State) : Prop :=
  ∃ r', (t.pip u).run = some r' ∧ BundleDone r r' (pcAfter r.pc o.target) ∧ r'.s = (scalarWritten r o.sc).s ∧
    (t.pip u).mem = (o.stores.filter (fun e => !(0x1E00 ≤ e.1 && e.1 < 0x2000))).foldl (fun m e => putWord m e.1 e.2) (s.pip u).mem ∧
    Keeps (fun _ => False) s t

theorem issueB_ended {op : ℕ} {f : PipRun → State → BRes × State} {o : BOut} (h : Running s u r b) (ha : r.a.isSome = true)
    (hop : b.toNat / 2 ^ 32 = op * 2 ^ 26 + w.toNat) (hvec : o.vec = none) (hf : f r s = (.ok o, s)) :
    ∃ t, issueB op u w f s = .next t ∧ Ended s u r o t := by
  refine ⟨_, issueB_of_running h ha hop hf, finishBundle r b.toNat o, ?_, bundleDone_scalar b.toNat hvec,
    finishBundle_s b.toNat hvec, ?_, modPip_kept u _ s⟩
  · rw [modPip_pip]
  · rw [modPip_pip]

end

/-- A scalar operation of slot B. -/
def Scalar (i : PipRef → BitVec 26 → Instr) (op : ℕ) (g : PipRun → ℕ → Word) : Prop :=
  ∀ u w s, exec (i u w) s = issueB op u w (fun r s => (.ok { sc := some (bitsOf w.toNat 25 22, g r w.toNat) }, s)) s

theorem scalar_of_issue {i : PipRef → BitVec 26 → Instr} {op : ℕ} {g : PipRun → ℕ → Word} {f : BitVec 26 → PipRun → Word}
    (hexec : ∀ u w s, exec (i u w) s = issueB op u w (fun r s => (.ok { sc := some (bitsOf w.toNat 25 22, f w r) }, s)) s)
    (hf : ∀ w r, f w r = g r w.toNat) : Scalar i op g := by
  intro u w s
  rw [hexec u w s, show f w = fun r => g r w.toNat from funext (hf w)]

theorem scalarOps_scalar : ∀ e ∈ scalarOps, Scalar e.1 e.2.1 e.2.2 := by
  simp only [List.forall_mem_cons]
  exact ⟨
    fun _ _ _ => rfl,
    fun _ _ _ => rfl,
    fun _ _ _ => rfl,
    fun _ _ _ => rfl,
    fun _ _ _ => rfl,
    fun _ _ _ => rfl,
    scalar_of_issue (fun _ _ _ => rfl) (fun _ r => congrArg (_ <<< ·) (bitsOf_low _ 4).symm),
    scalar_of_issue (fun _ _ _ => rfl) (fun _ r => congrArg (_ >>> ·) (bitsOf_low _ 4).symm),
    scalar_of_issue (fun _ _ _ => rfl) (fun _ r => congrArg (BitVec.sshiftRight _ ·) (bitsOf_low _ 4).symm),
    scalar_of_issue (fun _ _ _ => rfl) (fun _ r => by simp only [sltW, decide_eq_true_eq]; rfl),
    fun _ _ _ => rfl,
    fun _ _ _ => rfl,
    scalar_of_issue (fun _ _ _ => rfl) (fun _ _ => setBits_upper _ _),
    fun _ _ _ => rfl, nofun⟩

theorem scalarIssue (s : State) (u : PipRef) (r : PipRun) (b : BitVec 64) (w : BitVec 26) : Claims.scalarIssue s u r b w := by
  intro h ha e he hop
  obtain ⟨t, hissue, r', hrun, hdone, hs, hmem, hkeeps⟩ := issueB_ended (u := u)
    (f := fun r s => (.ok { sc := some (bitsOf w.toNat 25 22, e.2.2 r w.toNat) }, s)) h ha hop rfl rfl
  refine ⟨t, (scalarOps_scalar e he u w s).trans hissue, r', hrun, hdone, ?_, hmem, hkeeps⟩
  simp only [List.all_eq_true, List.mem_range, beq_iff_eq]
  intro i _
  rw [← scalarWritten_sreg, PipRun.sreg, hs, PipRun.sreg]

theorem nopIssue (s : State) (u : PipRef) (r : PipRun) (b : BitVec 64) (w : BitVec 26) : Claims.nopIssue s u r b w := by
  intro h ha hop
  obtain ⟨t, hissue, r', hrun, hdone, hs, hmem, hkeeps⟩ := issueB_ended (u := u) (op := 0) (f := fun _ s => (.ok {}, s)) h ha
    (o := {}) (by rw [hop, Nat.zero_mul, Nat.zero_add]) rfl rfl
  exact ⟨t, hissue, r', hrun, hdone, hs.trans (writeA_s r), hmem, hkeeps⟩

theorem imm18_toInt (n : ℕ) : (imm18 n).toInt = (BitVec.ofNat 18 n).toInt := BitVec.toInt_signExtend_of_le (by decide)

/-- A branch of slot B. -/
def Branch (i : PipRef → BitVec 26 → Instr) (op : ℕ) (g : PipRun → ℕ → Bool) : Prop :=
  ∀ u w s, exec (i u w) s = branchJ op g u w s

theorem branchOps_branch : ∀ e ∈ branchOps, Branch e.1 e.2.1 e.2.2 := by
  simp only [List.forall_mem_cons]
  exact ⟨fun _ _ _ => rfl, fun _ _ _ => rfl, fun _ _ _ => rfl, fun _ _ _ => rfl, fun _ _ _ => rfl, fun _ _ _ => rfl, nofun⟩

theorem branchIssue (s : State) (u : PipRef) (r : PipRun) (b : BitVec 64) (w : BitVec 26) : Claims.branchIssue s u r b w := by
  intro h ha hlow hhigh e he hop
  have hinside : (decide ((r.pc : Int) + (imm18 w.toNat).toInt < 0) ||
      decide (((s.pod u.pod).pkg.code.length : Int) ≤ (r.pc : Int) + (imm18 w.toNat).toInt)) = false := by
    rw [imm18_toInt, decide_eq_false (not_lt.mpr hlow), decide_eq_false (not_le.mpr hhigh), Bool.or_false]
  obtain ⟨t, hissue, r', hrun, hdone, hs, hmem, hkeeps⟩ := issueB_ended (u := u) (op := e.2.1)
    (f := fun r s => if e.2.2 r w.toNat then
        let t : Int := r.pc + (imm18 w.toNat).toInt
        if t < 0 || (s.pod u.pod).pkg.code.length ≤ t then (.fault, s) else (.ok { target := some t }, s)
      else (.ok {}, s))
    (o := { target := if e.2.2 r w.toNat = true then some ((r.pc : Int) + (imm18 w.toNat).toInt) else none }) h ha hop rfl (by
      split
      · dsimp only
        rw [hinside]
        rfl
      · rfl)
  refine ⟨t, (branchOps_branch e he u w s).trans hissue, r', hrun, ?_, hs.trans (writeA_s r), hmem, hkeeps⟩
  rw [imm18_toInt] at hdone
  by_cases htaken : e.2.2 r w.toNat = true
  · simp only [if_pos htaken] at hdone ⊢
    exact hdone
  · simp only [if_neg htaken] at hdone ⊢
    exact hdone

/-! ### Loads and stores (R188, R193) -/

section
variable {s : State} {u : PipRef} {r : PipRun} {b : BitVec 64} {w : BitVec 26} {a : ℕ}

theorem addrM_eq (h : a = (r.sreg (bitsOf w.toNat 17 14) + BitVec.ofNat 32 (4 * bitsOf w.toNat 13 0)).toNat) : addrM r w.toNat = a := by
  rw [addrM, Nat.mul_comm, h]

/-- A word of plain local memory loads as it stands. -/
theorem loadWord_local (hslots : s.err.slots = []) (ha : localWord a) : loadWord u r a s = (.ok (lookD (s.pip u).mem 0 a), s) := by
  obtain ⟨halign, hplace⟩ := ha
  rw [loadWord, if_neg (by omega), if_pos (by omega), inject_nil _ _ hslots]
  dsimp only
  rw [if_neg Bool.false_ne_true, if_neg (by simp; omega)]

theorem storeOk_local (ha : localWord a) : storeOk a = true := by
  obtain ⟨halign, hplace⟩ := ha
  simp only [storeOk, halign, beq_self_eq_true, Bool.true_and, decide_eq_true_eq]
  omega

theorem not_scratch_of_local (ha : localWord a) : (!(decide (0x1E00 ≤ a) && decide (a < 0x2000))) = true := by
  obtain ⟨halign, hplace⟩ := ha
  simp only [Bool.not_eq_true', Bool.and_eq_false_iff, decide_eq_false_iff_not]
  omega

end

theorem stores_kept {l : List (ℕ × Word)} (h : ∀ e ∈ l, localWord e.1) :
    l.filter (fun e => !(0x1E00 ≤ e.1 && e.1 < 0x2000)) = l :=
  List.filter_eq_self.mpr fun e he => not_scratch_of_local (h e he)

/-- A fold over lanes none of which fails. -/
theorem foldl_lanes {α β : Type} {f : Except β (List α) × State → ℕ → Except β (List α) × State} {g : ℕ → α} {s : State}
    (l : List ℕ) (hf : ∀ acc, ∀ k ∈ l, f (.ok acc, s) k = (.ok (acc ++ [g k]), s)) (acc : List α) :
    l.foldl f (.ok acc, s) = (.ok (acc ++ l.map g), s) := by
  induction l generalizing acc with
  | nil => rw [List.foldl_nil, List.map_nil, List.append_nil]
  | cons k l ih =>
    rw [List.foldl_cons, hf acc k List.mem_cons_self, ih (fun acc x hx => hf acc x (List.mem_cons_of_mem k hx)), List.map_cons,
      List.append_assoc, List.singleton_append]

theorem ldwStw (s : State) (u : PipRef) (r : PipRun) (b : BitVec 64) (w : BitVec 26) (a : ℕ) : Claims.ldwStw s u r b w a := by
  intro h ha haddr hlocal
  refine ⟨fun hop hdest => ?_, fun hop => ?_⟩
  · obtain ⟨t, hissue, r', hrun, hdone, hs, hmem, hkeeps⟩ := issueB_ended (u := u) (op := 0x03)
      (f := fun r s => match loadWord u r (addrM r w.toNat) s with
        | (.ok v, s) => (.ok { sc := some (bitsOf w.toNat 21 18, v), lat := 2 }, s)
        | (.error e, s) => (e, s))
      (o := { sc := some (bitsOf w.toNat 21 18, lookD (s.pip u).mem 0 a), lat := 2 }) h ha hop rfl
      (by rw [addrM_eq haddr, loadWord_local h.2.2.2.2 hlocal])
    refine ⟨t, hissue, r', hrun, hdone, ?_, hmem, hkeeps⟩
    simp only [List.all_eq_true, List.mem_range, beq_iff_eq]
    intro i _
    rw [PipRun.sreg, hs]
    refine (scalarWritten_sreg (bitsOf w.toNat 21 18) (lookD (s.pip u).mem 0 a) i).trans ?_
    by_cases hi : i = 0
    · rw [if_pos hi, if_neg (fun hid => hdest (hid.symm.trans hi)), PipRun.sreg, if_pos hi]
    · rw [if_neg hi]
  · obtain ⟨t, hissue, r', hrun, hdone, hs, hmem, hkeeps⟩ := issueB_ended (u := u) (op := 0x04)
      (f := fun r s =>
        let a := addrM r w.toNat
        if storeOk a then (.ok { stores := [(a, r.sreg (bitsOf w.toNat 21 18))] }, s) else (.fault, s))
      (o := { stores := [(a, r.sreg (bitsOf w.toNat 21 18))] }) h ha hop rfl
      (by dsimp only; rw [addrM_eq haddr, if_pos (storeOk_local hlocal)])
    refine ⟨t, hissue, r', hrun, hdone, hs.trans (writeA_s r), hmem.trans ?_, hkeeps⟩
    rw [stores_kept fun e he => List.mem_singleton.mp he ▸ hlocal]
    rfl

section
variable {s : State} {u : PipRef} {r : PipRun} {b : BitVec 64} {w : BitVec 26}

/-- A bundle's end where slot B alone writes lanes. -/
theorem issueB_lanes {op d : ℕ} {l : List (Option Word)} {f : PipRun → State → BRes × State} {o : BOut} (h : Running s u r b)
    (ha : r.a = some .none) (hop : b.toNat / 2 ^ 32 = op * 2 ^ 26 + w.toNat) (hvec : o.vec = some (d, l)) (hsc : o.sc = none)
    (hstores : o.stores = []) (htarget : o.target = none) (hf : f r s = (.ok o, s)) :
    ∃ t, issueB op u w f s = .next t ∧ (t.pip u).mem = (s.pip u).mem ∧ Keeps (fun _ => False) s t ∧
      ∃ r', (t.pip u).run = some r' ∧ r'.pc = r.pc + 1 ∧ r'.a = none ∧ r'.s = r.s ∧ r'.p = r.p ∧
        ∀ i, ∀ k < 4, r'.lane i k = if i = d then (l.getD k none).getD (r.lane d k) else r.lane i k := by
  have hnone : slotADone r = { r with a := none } := by rw [slotADone, writeA, ha]
  refine ⟨_, issueB_of_running h (by rw [ha]; rfl) hop hf, ?_, modPip_kept u _ s, finishBundle r b.toNat o, ?_, ?_⟩
  · rw [modPip_pip, hstores]
    rfl
  · rw [modPip_pip]
  · rw [finishBundle_vector b.toNat hvec hsc, hnone, htarget]
    exact ⟨rfl, rfl, rfl, rfl, fun i k hk => writeLanes_lane (r := { r with a := none }) d l i k hk⟩

end

theorem vputIssue (s : State) (u : PipRef) (r : PipRun) (b : BitVec 64) (w : BitVec 26) : Claims.vputIssue s u r b w := by
  intro h ha hop
  obtain ⟨t, hissue, hmem, hkeeps, r', hrun, hpc, hdone, hs, hp, hlane⟩ := issueB_lanes (u := u) (op := 0x19)
    (d := bitsOf w.toNat 25 21)
    (f := fun r s => (.ok { vec := some (bitsOf w.toNat 25 21, (List.range 4).map (fun k =>
      if k = bitsOf w.toNat 20 19 then some (r.sreg (bitsOf w.toNat 18 15)) else none)) }, s)) h ha hop rfl rfl rfl rfl rfl
  refine ⟨t, hissue, r', hrun, hpc, hdone, hs, hp, ?_, hmem, hkeeps⟩
  simp only [List.all_eq_true, List.mem_range, beq_iff_eq]
  intro i _ k hk
  rw [hlane i k hk, List.getD_eq_getElem?_getD, List.getElem?_map, List.getElem?_range hk]
  by_cases hi : i = bitsOf w.toNat 25 21
  · by_cases hkd : k = bitsOf w.toNat 20 19
    · simp [hi, hkd]
    · simp [hi, hkd]
  · simp [hi]

/-- The words that VST stores. -/
def vstStores (r : PipRun) (n : ℕ) : List (ℕ × Word) :=
  (List.range 4).filterMap (fun k =>
    if r.pen n k then some ((addrM r n + 4 * k) % 2 ^ 32, r.lane (bitsOf n 22 18) k) else none)

theorem vstStores_local {r : PipRun} {n : ℕ} (h : ∀ k < 4, localWord ((addrM r n + 4 * k) % 2 ^ 32)) :
    ∀ e ∈ vstStores r n, localWord e.1 := by
  intro e he
  obtain ⟨k, hk, hsome⟩ := List.mem_filterMap.mp he
  split at hsome
  · exact Option.some.inj hsome ▸ h k (List.mem_range.mp hk)
  · exact absurd hsome nofun

theorem vstStores_foldl {r : PipRun} {n a : ℕ} (h : ∀ k < 4, (addrM r n + 4 * k) % 2 ^ 32 = a + 4 * k) (m : List (ℕ × Word)) :
    (vstStores r n).foldl (fun m e => putWord m e.1 e.2) m = (List.range 4).foldl (fun m k =>
      if r.pen n k = true then putWord m (a + 4 * k) (r.lane (bitsOf n 22 18) k) else m) m := by
  rw [vstStores, List.foldl_filterMap]
  refine List.foldl_ext _ _ m fun m k hk => ?_
  rw [h k (List.mem_range.mp hk)]
  split
  · next hx =>
    split at hx
    · rw [← Option.some.inj hx, if_pos ‹_›]
    · exact absurd hx nofun
  · next hx =>
    split at hx
    · exact absurd hx nofun
    · rw [if_neg ‹_›]

/-- The lanes that VLD loads. -/
def vldLanes (s : State) (u : PipRef) (r : PipRun) (n a : ℕ) : List (Option Word) :=
  (List.range 4).map (fun k => if r.pen n k = true then some (lookD (s.pip u).mem 0 (a + 4 * k)) else none)

/-- VLD loads one lane after another. -/
def vldLane (u : PipRef) (r : PipRun) (n : ℕ) (x : Except BRes (List (Option Word)) × State) (k : ℕ) :
    Except BRes (List (Option Word)) × State :=
  match x with
  | (.error e, s) => (.error e, s)
  | (.ok l, s) =>
    if r.pen n k then
      match loadWord u r ((addrM r n + 4 * k) % 2 ^ 32) s with
      | (.ok v, s) => (.ok (l ++ [some v]), s)
      | (.error e, s) => (.error e, s)
    else (.ok (l ++ [none]), s)

/-- What slot B does for VLD. -/
def vldSlot (u : PipRef) (n : ℕ) (r : PipRun) (s : State) : BRes × State :=
  let (res, s) := (List.range 4).foldl (vldLane u r n) (.ok [], s)
  match res with
  | .ok l => (.ok { vec := some (bitsOf n 22 18, l), lat := 2 }, s)
  | .error e => (e, s)

theorem exec_vld_eq (s : State) (u : PipRef) (w : BitVec 26) : exec (.vld u w) s = issueB 0x01 u w (vldSlot u w.toNat) s := rfl

theorem vldSlot_local {s : State} {u : PipRef} {r : PipRun} {n a : ℕ} (hslots : s.err.slots = [])
    (hat : ∀ k < 4, (addrM r n + 4 * k) % 2 ^ 32 = a + 4 * k) (hlocal : ∀ k < 4, localWord (a + 4 * k)) :
    vldSlot u n r s = (.ok { vec := some (bitsOf n 22 18, vldLanes s u r n a), lat := 2 }, s) := by
  have hlane (acc : List (Option Word)) (k : ℕ) (hk : k ∈ List.range 4) : vldLane u r n (.ok acc, s) k =
      (.ok (acc ++ [if r.pen n k = true then some (lookD (s.pip u).mem 0 (a + 4 * k)) else none]), s) := by
    have hk4 := List.mem_range.mp hk
    rw [vldLane, hat k hk4, loadWord_local hslots (hlocal k hk4)]
    split
    · rfl
    · rfl
  rw [vldSlot, foldl_lanes _ hlane]
  rfl

theorem vldVst (s : State) (u : PipRef) (r : PipRun) (b : BitVec 64) (w : BitVec 26) (a : ℕ) : Claims.vldVst s u r b w a := by
  intro h ha haddr halign hplace
  have hat (k : ℕ) (hk : k < 4) : (addrM r w.toNat + 4 * k) % 2 ^ 32 = a + 4 * k := by
    rw [addrM_eq haddr]
    omega
  have hlocal (k : ℕ) (hk : k < 4) : localWord (a + 4 * k) := ⟨by omega, by omega⟩
  refine ⟨fun hop => ?_, fun hop => ?_⟩
  · obtain ⟨t, hissue, hmem, hkeeps, r', hrun, hpc, _, hs, hp, hlane⟩ := issueB_lanes (u := u)
      h ha hop rfl rfl rfl rfl (vldSlot_local h.2.2.2.2 hat hlocal)
    refine ⟨t, (exec_vld_eq s u w).trans hissue, r', hrun, hpc, hs, hp, hmem, ?_, hkeeps⟩
    simp only [List.all_eq_true, List.mem_range, beq_iff_eq]
    intro i _ k hk
    rw [hlane i k hk, vldLanes, List.getD_eq_getElem?_getD, List.getElem?_map, List.getElem?_range hk]
    by_cases hi : i = bitsOf w.toNat 22 18
    · by_cases hpen : r.pen w.toNat k = true
      · simp [hi, hpen]
      · simp [hi, hpen]
    · simp [hi]
  · have hstores := vstStores_local (r := r) (n := w.toNat) fun k hk => (hat k hk).symm ▸ hlocal k hk
    obtain ⟨t, hissue, r', hrun, hdone, hs, hmem, hkeeps⟩ := issueB_ended (u := u) (op := 0x02)
      (f := fun r s =>
        let st := vstStores r w.toNat
        if st.all (fun e => storeOk e.1) then (.ok { stores := st }, s) else (.fault, s))
      (o := { stores := vstStores r w.toNat }) h (by rw [ha]; rfl) hop rfl
      (if_pos (List.all_eq_true.mpr fun e he => storeOk_local (hstores e he)))
    refine ⟨t, hissue, r', hrun, hdone, hs.trans (writeA_s r), hmem.trans ?_, hkeeps⟩
    rw [stores_kept hstores, vstStores_foldl hat]

/-! ### The end of a tile (R193, R201, R209) -/

theorem wakePip_of_none {u : PipRef} {s : State} (hwait : (s.pip u).wait = none) : wakePip u s = s := by
  rw [wakePip, hwait]
  cases (s.pip u).run
  · rfl
  · rfl

theorem modSlot_slot (j : ℕ) (f : SlotSt → SlotSt) (s : State) : (modSlot j f s).slot j = f (s.slot j) := lookD_put_self _ _ _ _

theorem slotFront_congr {s t : State} {j : ℕ} (hips : t.ips = s.ips) (hloaded : (t.slot j).loaded = (s.slot j).loaded)
    (hloading : (t.slot j).loading = (s.slot j).loading) : t.slotFront j = s.slotFront j := by
  have hip : t.ip (j / 2) = s.ip (j / 2) := by rw [State.ip, hips, State.ip]
  rw [State.slotFront, State.slotFront, State.frameWhere, State.frameWhere, hip, hloaded, hloading]

theorem addPair_slot (lo hi n j : ℕ) (s : State) : (addPair lo hi n s).slot j = s.slot j := rfl

theorem placeTile_slot (j : ℕ) (fr : IpFrame) (tile : ℕ) (px : ℕ → ℕ → Px) (s : State) :
    ∃ out, (placeTile j fr tile px s).slot j = { s.slot j with out := out } := ⟨_, modSlot_slot j _ s⟩

/-- A tile that has left its slot, and is not its frame's last. -/
theorem leaveTile_more {j tile k : ℕ} {fr : IpFrame} {s : State} (hfront : s.slotFront j = some (k, fr))
    (hleft : (s.slot j).left.contains tile = false) (hmore : (s.slot j).left.length + 1 < tileCount fr) :
    leaveTile j tile s = addPair (PIP_SLOT_TILES_LO j) (PIP_SLOT_TILES_HI j) 1 (modSlot j (fun z => { z with left := tile :: z.left }) s) := by
  have hcount : ((addPair (PIP_SLOT_TILES_LO j) (PIP_SLOT_TILES_HI j) 1
      (modSlot j (fun z => { z with left := tile :: z.left }) s)).slot j).left.length < tileCount fr := by
    rw [addPair_slot, modSlot_slot]
    exact hmore
  rw [leaveTile, hfront]
  dsimp only
  rw [if_neg (by rw [hleft]; decide), if_pos hcount]

/-- A tile's pixels stand in the frame, and the tile has left the slot and counts. -/
def tileLeft (u : PipRef) (tl : TileIn) (fr : IpFrame) (px : ℕ → ℕ → Px) (s : State) : State :=
  addPair (PIP_SLOT_TILES_LO tl.slot) (PIP_SLOT_TILES_HI tl.slot) 1 (modSlot tl.slot (fun z => { z with left := tl.tile :: z.left })
    (placeTile tl.slot fr tl.tile px (bump (POD_PIP_TILES u.pod u.pip) s)))

theorem acceptTile_more {u : PipRef} {tl : TileIn} {mem : List (ℕ × Word)} {k : ℕ} {fr : IpFrame} {s : State}
    (hfront : s.slotFront tl.slot = some (k, fr)) (hleft : (s.slot tl.slot).left.contains tl.tile = false)
    (hmore : (s.slot tl.slot).left.length + 1 < tileCount fr) : ∃ px, acceptTile u tl mem s = tileLeft u tl fr px s := by
  rw [acceptTile, hfront]
  dsimp only
  generalize hpx : (fun c r => _) = px
  obtain ⟨out, hout⟩ := placeTile_slot tl.slot fr tl.tile px (bump (POD_PIP_TILES u.pod u.pip) s)
  exact ⟨px, leaveTile_more ((slotFront_congr (s := s) (t := placeTile tl.slot fr tl.tile px (bump (POD_PIP_TILES u.pod u.pip) s))
    rfl (by rw [hout]; rfl) (by rw [hout]; rfl)).trans hfront)
    (by rw [hout]; exact hleft) (by rw [hout]; exact hmore)⟩

section
variable {s : State} {u : PipRef} {r : PipRun} {b : BitVec 64} {w : BitVec 26}

/-- The pip stops its tile. -/
def tileOff (u : PipRef) (s : State) : State := modPip u (fun z => { z with run := none }) s

theorem tileOff_pip (u : PipRef) (s : State) : (tileOff u s).pip u = { s.pip u with run := none } := modPip_pip u _ s

/-- END issues within the declared cycles: the result counts, or is fenced. -/
theorem exec_pipEnd_of_running (h : Running s u r b) (ha : r.a.isSome = true) (hop : b.toNat / 2 ^ 32 = 0x26 * 2 ^ 26 + w.toNat)
    (hstate : s.pipState u ≠ pipRetired) (hintime : issueAt r b.toNat ≤ (s.pod u.pod).pkg.c) :
    exec (.pipEnd u w) s = .next (wakePip u
      (if (decide (r.t.epoch = s.f (POD_PIP_EPOCH_epoch u.pod u.pip)) && decide (s.pipState u = pipActive)) = true
        then acceptTile u r.t (s.pip u).mem (tileOff u s)
        else fenceResult u (tileOff u s))) := by
  obtain ⟨hwf, hon, hrun, hbundle, _⟩ := h
  rw [exec_pipEnd, execPipEnd, hwf, guardOk_true, hon, if_neg (by decide), if_neg hstate, hrun]
  dsimp only
  rw [hbundle]
  dsimp only
  rw [if_pos (by rw [ha, hop]; simp), if_neg (by omega)]
  rfl

end

theorem pipEnd (s : State) (u : PipRef) (r : PipRun) (b : BitVec 64) (w : BitVec 26) (k : ℕ) (fr : IpFrame) :
    Claims.pipEnd s u r b w k fr := by
  intro h ha hop hstate hintime hepoch hwait hfront hleft hmore
  obtain ⟨px, haccept⟩ := acceptTile_more (u := u) (mem := (s.pip u).mem) (s := tileOff u s)
    ((slotFront_congr (s := s) (t := tileOff u s) rfl rfl rfl).trans hfront) hleft hmore
  have hexec := exec_pipEnd_of_running h ha hop (by rw [hstate]; decide) hintime
  rw [if_pos (by rw [decide_eq_true hepoch, decide_eq_true hstate, Bool.and_true]), haccept] at hexec
  have hpip : (tileLeft u r.t fr px (tileOff u s)).pip u = { s.pip u with run := none } := (tileOff_pip u s).symm ▸ rfl
  rw [wakePip_of_none (by rw [hpip]; exact hwait)] at hexec
  obtain ⟨hwf, _⟩ := h
  simp only [PipRef.wf, Bool.and_eq_true, decide_eq_true_eq] at hwf
  refine ⟨_, hexec, by rw [hpip], ?_, ?_, ?_⟩
  · obtain ⟨out, hout⟩ := placeTile_slot r.t.slot fr r.t.tile px (bump (POD_PIP_TILES u.pod u.pip)
      (tileOff u s))
    rw [tileLeft, addPair_slot, modSlot_slot, hout]
    rfl
  · rw [tileLeft, addPair_rd_of_ne _ _ _ _ _ (by simp only [POD_PIP_TILES, PIP_SLOT_TILES_LO]; omega)
      (by simp only [POD_PIP_TILES, PIP_SLOT_TILES_HI]; omega)]
    exact rd_wr_self _ _ _
  · have hbump : Kept (fun a => a = POD_PIP_TILES u.pod u.pip ∨ a = PIP_SLOT_TILES_LO r.t.slot ∨ a = PIP_SLOT_TILES_HI r.t.slot)
        (fun _ => False) s (bump (POD_PIP_TILES u.pod u.pip) (tileOff u s)) :=
      bump_kept (.inl rfl) (modPip_kept u _ s)
    exact addPair_kept (.inr (.inl rfl)) (.inr (.inr rfl)) (hbump.congr rfl rfl rfl rfl)

theorem fenceResult_counted (u : PipRef) (s : State) :
    ((fenceResult u s).pip u).run = (s.pip u).run ∧ ((fenceResult u s).pip u).wait = (s.pip u).wait ∧
      (fenceResult u s).slots = s.slots ∧ (fenceResult u s).rd (POD_FENCED u.pod) = s.rd (POD_FENCED u.pod) + 1 ∧
      Keeps (fun a => a = POD_FENCED u.pod) s (fenceResult u s) := by
  have hbump : Kept (fun a => a = POD_FENCED u.pod) (fun _ => False) s (bump (POD_FENCED u.pod) s) := bump_kept rfl (Kept.refl _ _ s)
  have hcount : (bump (POD_FENCED u.pod) s).rd (POD_FENCED u.pod) = s.rd (POD_FENCED u.pod) + 1 := rd_wr_self _ _ _
  rw [fenceResult]
  split
  · exact ⟨rfl, rfl, rfl, hcount, hbump⟩
  · rw [State.pip, raise_pips, raise_slots, raise_rd]
    have hpip := modPip_pip u (fun z => { z with told := true }) (bump (POD_FENCED u.pod) s)
    rw [State.pip] at hpip
    rw [hpip]
    exact ⟨rfl, rfl, rfl, hcount, raise_kept (hbump.congr rfl rfl rfl rfl)⟩

theorem pipFenced (s : State) (u : PipRef) (r : PipRun) (b : BitVec 64) (w : BitVec 26) : Claims.pipFenced s u r b w := by
  intro h ha hop hstate hintime hepoch hwait
  have hexec := exec_pipEnd_of_running h ha hop hstate hintime
  rw [if_neg (by rw [decide_eq_false hepoch, Bool.false_and]; decide)] at hexec
  obtain ⟨hrun, hstay, hslots, hcount, hkeeps⟩ := fenceResult_counted u (tileOff u s)
  rw [wakePip_of_none (by rw [hstay, tileOff_pip]; exact hwait)] at hexec
  refine ⟨_, hexec, by rw [hrun, tileOff_pip], hslots, hcount, Kept.trans (modPip_kept u _ s) hkeeps⟩

/-- Settles O27: what each slot of a bundle does, and the end of a tile. -/
theorem pipInstructions : Obligations.PipInstructions := by
  unfold Obligations.PipInstructions
  exact ⟨vecIssue, cmpIssue, vnopIssue, lutIssue, scalarIssue, vputIssue, nopIssue, branchIssue, ldwStw, vldVst, pipEnd, pipFenced⟩

end Sys2Proof.Proofs.Pips

/-! Strip-scan: a line fires, its missing rows are filled, and an output line leaves (R381 to R389). -/

namespace Sys2Proof.Proofs.StripScan

open Sys2Proof.Machine
open Sys2Proof.Proofs.Keeping
open Sys2Proof.Proofs.Access
open Sys2Proof.Proofs.Ports
open Sys2Proof.Proofs.Bus (counting)
open Sys2Proof.Proofs.TimeUnit
open Sys2Proof.Proofs.Decoder (detect_counted)
open Sys2Proof.Claims (Runs Keeps Calm RegsBut MemBut)

theorem modSs_ss (n : ℕ) (f : SsSt → SsSt) (s : State) : ((modSs n f s).port n).ss = f (s.port n).ss := by
  rw [modSs, modPort_port_self]

theorem modSs_kept {p q : ℕ → Prop} {s₀ s : State} (n : ℕ) (f : SsSt → SsSt) (h : Kept p q s₀ s) : Kept p q s₀ (modSs n f s) :=
  modPort_kept n _ h

theorem examDetect_unreal (det arg addr : ℕ) (s : State) (h : s.err.slots = []) : examDetect det false arg addr s = (false, s) := by
  rw [examDetect, examine_nil _ _ _ h]
  rfl

/-! ### A line fires (R381, R382, R389) -/

/-- The line that a trigger of instant `a` fires. -/
def lineFired (n a : ℕ) (s : State) : State :=
  modSs n (fun z => { z with
    pulses := (s.port n).ss.pulses + 1, made := (s.port n).ss.made + 1, src := z.src ++ [((s.port n).ss.made, some (s.port n).ss.pulses, false)]
    fired := z.fired ++ [((s.port n).ss.pulses, { num := (s.port n).ss.pulses % 65536, at_ := s.now })], last := some a })
    (addPair (SP_SS_FIRED_LO n) (SP_SS_FIRED_HI n) 1 s)

/-- The strobe of a fired line waits on SPn_TRIG, where it has a width. -/
def strobed (n : ℕ) (s : State) : State :=
  if s.f (SP_SS_STROBE_width n) = 0 then s
  else
    let l := lookD s.ref.pulses [] n ++ [⟨s.now, s.now + s.f (SP_SS_STROBE_width n) * 8000, s.f REF_RFN_rfn, s.now⟩]
    { s with ref := { s.ref with pulses := put s.ref.pulses n l } }

/-- A fired line ends an overspeed. -/
def overspeedOver (n : ℕ) (s : State) : State :=
  if s.b (SP_SS_STATUS_overspeed n) then
    raise (0x10 + n) 0x51 (min (s.port n).ss.misses 0xFFFF) (setF (SP_SS_STATUS_overspeed n) 0 s)
  else s

theorem ssFire_eq (n a : ℕ) (s : State) :
    ssFire n a s = modSs n (fun z => { z with misses := 0 }) (overspeedOver n (strobed n (lineFired n a s))) := rfl

theorem strobed_kept (p q : ℕ → Prop) (n : ℕ) (s : State) : Kept p q s (strobed n s) := by
  rw [strobed]
  split
  · exact Kept.refl p q s
  · exact (Kept.refl p q s).congr rfl rfl rfl rfl

theorem strobed_port (n : ℕ) (s : State) : (strobed n s).port n = s.port n := by
  rw [strobed]
  split
  · rfl
  · rfl

theorem overspeedOver_kept {p q : ℕ → Prop} {s₀ s : State} {n : ℕ} (hp : p (SP_SS_STATUS n)) (h : Kept p q s₀ s) :
    Kept p q s₀ (overspeedOver n s) :=
  ite_kept (raise_kept (setF_kept (x := SP_SS_STATUS_overspeed n) hp h)) h

theorem overspeedOver_port (n : ℕ) (s : State) : (overspeedOver n s).port n = s.port n := by
  rw [overspeedOver]
  split
  · rw [raise_port, setF_port]
  · rfl

/-- A line's pulse, and the end of an overspeed, show in SS_STATUS alone. -/
theorem ssFire_kept (n a : ℕ) (s : State) : Kept (· = SP_SS_STATUS n) (fun _ => False) (lineFired n a s) (ssFire n a s) :=
  modSs_kept n _ (overspeedOver_kept rfl (strobed_kept _ _ n _))

theorem ssFire_ss (n a : ℕ) (s : State) : ((ssFire n a s).port n).ss = { ((lineFired n a s).port n).ss with misses := 0 } := by
  rw [ssFire_eq, modSs_ss, overspeedOver_port, strobed_port]

/-- A trigger that is not late and begins no strip fires its line. -/
theorem ssTrigger_fires {s : State} {n a : ℕ} (hrunning : s.running n = true) (hstrip : s.stripMode n = true)
    (hgood : (s.port n).ss.bad = false) (hgeom : s.f (SP_SS_GEOM_n n) ≠ 0) (hmade : (s.port n).ss.made % s.f (SP_SS_GEOM_n n) ≠ 0)
    (hslots : s.err.slots = []) (hlast : (s.port n).ss.last.all (fun l => decide (l + s.f (SP_SS_MINPER_ns n) * 1000 ≤ a)) = true) :
    ssTrigger n a s = ssFire n a s := by
  have hfloor : floor1 (s.f (SP_SS_GEOM_n n)) = s.f (SP_SS_GEOM_n n) := if_neg hgeom
  rw [ssTrigger, if_pos (by rw [hrunning, hstrip, hgood]; rfl), hfloor, if_neg hmade]
  cases hl : (s.port n).ss.last with
  | none =>
    dsimp only
    rw [examDetect_unreal _ _ _ _ hslots]
    rfl
  | some l =>
    rw [hl, Option.all_some, decide_eq_true_eq] at hlast
    dsimp only
    rw [decide_eq_false (show ¬ a < l + s.f (SP_SS_MINPER_ns n) * 1000 by omega), examDetect_unreal _ _ _ _ hslots]
    rfl

theorem lineTrigger (s : State) (n a : ℕ) (up : Bool) : Claims.lineTrigger s n a up := by
  intro hn hcalm hon hrunning hstrip hsrc hgood hgeom hmade hnow hlast
  obtain ⟨y, v, hlater⟩ := advanceTo_laterAt a hcalm
  rw [max_eq_right hnow] at hlater
  have hfire : exec (.lineTrigger a n up) s = .next (ssFire n a (laterAt a y v s)) := by
    rw [exec_lineTrigger, execLineTrigger, decide_eq_true hn, guardOk_true]
    dsimp only
    rw [hlater, ← ssTrigger_fires (s := laterAt a y v s) hrunning hstrip hgood hgeom hmade hcalm.1 hlast]
    have hhere : ((laterAt a y v s).unitOn (dSP n) && (laterAt a y v s).stripMode n &&
        (laterAt a y v s).f (SP_SS_CTRL_src n) == (if up then 0 else 1)) = true := by
      rw [show (laterAt a y v s).unitOn (dSP n) = true from hon, show (laterAt a y v s).stripMode n = true from hstrip]
      exact beq_iff_eq.mpr hsrc
    rw [if_pos hhere]
    rfl
  have hline : Kept (fun x => x = SP_SS_FIRED_LO n ∨ x = SP_SS_FIRED_HI n) (fun _ => False) s (lineFired n a (laterAt a y v s)) :=
    modSs_kept n _ (addPair_kept (.inl rfl) (.inr rfl) ((Kept.refl _ _ s).congr rfl rfl rfl rfl))
  have hafter := ssFire_kept n a (laterAt a y v s)
  have hkept : Kept (fun x => x = SP_SS_FIRED_LO n ∨ x = SP_SS_FIRED_HI n ∨ x = SP_SS_STATUS n) (fun _ => False) s
      (ssFire n a (laterAt a y v s)) :=
    Kept.trans (hline.mono (fun _ hx => or_assoc.mp (.inl hx)) (fun _ hx => hx)) (hafter.mono (fun _ hx => .inr (.inr hx)) (fun _ hx => hx))
  refine ⟨_, hfire, ?_, ?_, ?_, ?_, ?_, ?_⟩
  · rw [ssFire_ss, lineFired, modSs_ss]
    rfl
  · rw [ssFire_ss, lineFired, modSs_ss]
    rfl
  · rw [ssFire_ss, lineFired, modSs_ss]
  · rw [State.pair, hafter.1 _ (by simp only [SP_SS_FIRED_LO, SP_SS_STATUS]; omega),
      hafter.1 _ (by simp only [SP_SS_FIRED_HI, SP_SS_STATUS]; omega)]
    exact pair_addPair _ _ 1 (laterAt a y v s) (by simp only [SP_SS_FIRED_LO, SP_SS_FIRED_HI]; omega)
  · rw [State.pair, State.pair, hafter.1 _ (by simp only [SP_SS_MISSED_LO, SP_SS_STATUS]; omega),
      hafter.1 _ (by simp only [SP_SS_MISSED_HI, SP_SS_STATUS]; omega),
      hline.1 _ (by simp only [SP_SS_MISSED_LO, SP_SS_FIRED_LO, SP_SS_FIRED_HI]; omega),
      hline.1 _ (by simp only [SP_SS_MISSED_HI, SP_SS_FIRED_LO, SP_SS_FIRED_HI]; omega)]
  · exact hkept

/-! ### A line's missing rows (R383) -/

/-- The rows of a line, those that have not arrived filled. -/
def rowsFilled (k : ℕ) (rows : List (ℕ × Option (List ℕ))) : List (ℕ × Option (List ℕ)) :=
  (List.range k).foldl (fun m r => if (look m r).isNone then put m r none else m) rows

theorem foldl_fill {α : Type} (v : α) (l : List ℕ) (m : List (ℕ × α)) (r : ℕ) :
    (look (l.foldl (fun m r => if (look m r).isNone then put m r v else m) m) r).isSome = ((look m r).isSome || l.contains r) := by
  induction l generalizing m with
  | nil => simp
  | cons k l ih =>
    rw [List.foldl_cons, ih]
    by_cases hkr : r = k
    · subst hkr
      split
      · simp
      · next h => simp [Option.isNone_iff_eq_none, Option.isSome_iff_ne_none] at h ⊢; simp [h]
    · split
      · rw [look_put_of_ne _ _ _ _ hkr]
        simp [hkr]
      · simp [hkr]

theorem ssRowTimeout (s : State) (n p : ℕ) (l : SsLine) : Claims.ssRowTimeout s n p l := by
  intro hn hon hcalm hfind
  obtain ⟨y, v, hlater⟩ := advanceTo_laterAt (l.at_ + floor1 (s.f (SP_FRAME_CFG_row_to n)) * Config.us) hcalm
  have hrun : exec (.ssRowTimeout n) s = .next (modSs n (fun z => { z with
      fired := put z.fired p { l with rows := rowsFilled (s.ssRows n) l.rows } })
      (laterAt (max s.now (l.at_ + floor1 (s.f (SP_FRAME_CFG_row_to n)) * Config.us)) y v s)) := by
    rw [exec_ssRowTimeout, execSsRowTimeout, decide_eq_true hn, guardOk_true]
    dsimp only
    rw [hon, hfind]
    dsimp only
    rw [hlater]
    rfl
  refine ⟨_, hrun, ?_, ?_, modSs_kept n _ ((Kept.refl _ _ s).congr rfl rfl rfl rfl)⟩
  · rw [modSs_ss, look_put_self, Option.all_some, List.all_eq_true]
    intro r hr
    rw [rowsFilled, foldl_fill]
    simp [List.mem_range.mp hr]
  · have hfloor : floor1 (s.f (SP_FRAME_CFG_row_to n)) = max 1 (s.f (SP_FRAME_CFG_row_to n)) := by
      rw [floor1]
      split
      all_goals omega
    rw [← hfloor]
    exact le_max_right _ _

/-! ### An output line leaves (R384 to R388) -/

/-- A frame row passes on to the crossing FIFO: the strips have as many lines as before, and SP_FIFO_OVF alone may change. -/
structure RowPasses (n : ℕ) (s t : State) : Prop where
  kept : Kept (· = SP_FIFO_OVF n) (fun _ => False) s t
  slots : t.err.slots = s.err.slots
  line : (t.port n).ss.outLine = (s.port n).ss.outLine
  done : (t.port n).ss.strips.map (·.done) = (s.port n).ss.strips.map (·.done)

section
variable {n : ℕ} {s₀ s t : State}

theorem RowPasses.refl (n : ℕ) (s : State) : RowPasses n s s := ⟨Kept.refl _ _ s, rfl, rfl, rfl⟩

/-- A change of the port that leaves its output line and the lines of its strips. -/
theorem modPort_passes {f : PortSt → PortSt} (hf : (f (s.port n)).ss.outLine = (s.port n).ss.outLine ∧
    (f (s.port n)).ss.strips.map (·.done) = (s.port n).ss.strips.map (·.done)) (h : RowPasses n s₀ s) : RowPasses n s₀ (modPort n f s) where
  kept := modPort_kept n f h.kept
  slots := h.slots
  line := by rw [modPort_port_self, hf.1, h.line]
  done := by rw [modPort_port_self, hf.2, h.done]

theorem RowPasses.congr (h : RowPasses n s₀ s) (hkept : Kept (· = SP_FIFO_OVF n) (fun _ => False) s₀ t)
    (hslots : t.err.slots = s.err.slots) (hport : t.port n = s.port n) : RowPasses n s₀ t :=
  ⟨hkept, hslots.trans h.slots, by rw [hport, h.line], by rw [hport, h.done]⟩

theorem modCrossing_passes (f : FrameInfo → FrameInfo) (g : Side → Side) (h : RowPasses n s₀ s) :
    RowPasses n s₀ (modCrossing n f g s) := by
  refine modPort_passes ?_ h
  split
  · exact ⟨rfl, rfl⟩
  · next hstrips => rw [hstrips]; exact ⟨rfl, rfl⟩
  · exact ⟨rfl, rfl⟩

theorem fifoTake_passes (hn : n < 4) (full : Bool) (hslots : s₀.err.slots = []) (h : RowPasses n s₀ s) :
    RowPasses n s₀ (fifoTake n full s).2 := by
  have hdet : hasRetry (0x1005 + n * 256) = false ∧ lastingAtOnce (0x1005 + n * 256) = false := by
    interval_cases n
    all_goals decide
  rw [fifoTake]
  split
  · exact h
  · next i d _ =>
    have hexam : RowPasses n s₀ (examDetect (0x1005 + n * 256) full i.pfn 0 s).2 := by
      rw [examDetect, examine_nil _ _ _ (h.slots.trans hslots)]
      obtain ⟨r, j, hcount⟩ := detect_counted hdet false i.pfn 0 s
      dsimp only
      rw [hcount]
      split
      · exact h.congr (h.kept.congr rfl rfl rfl rfl) rfl rfl
      · exact h
    dsimp only
    split
    · have hmoved := modCrossing_passes (fun i => { i with fsw := fswSet fswFifo i.fsw }) (fun d => { d with ovf := true })
        (hexam.congr (t := bump (SP_FIFO_OVF n) (examDetect (0x1005 + n * 256) full i.pfn 0 s).2) (bump_kept rfl hexam.kept) rfl rfl)
      dsimp only
      split
      · exact hmoved
      · exact hmoved.congr (raise_kept hmoved.kept) (by rw [raise_err]) (raise_port _ _ _ _ _)
    · exact hexam

/-- The strips, the front one changed. -/
def frontChanged (f : StripSt → StripSt) : List StripSt → List StripSt
  | [] => []
  | x :: l => f x :: l

theorem modStrip_eq (n : ℕ) (f : StripSt → StripSt) (s : State) :
    modStrip n f s = modPort n (fun p => { p with ss := { p.ss with strips := frontChanged f p.ss.strips } }) s := rfl

theorem frontChanged_done {f : StripSt → StripSt} (hf : ∀ x, (f x).done = x.done) (l : List StripSt) :
    (frontChanged f l).map (·.done) = l.map (·.done) := by
  cases l with
  | nil => rfl
  | cons x l => rw [frontChanged, List.map_cons, List.map_cons, hf]

theorem modStrip_passes {f : StripSt → StripSt} (hf : ∀ x, (f x).done = x.done) (h : RowPasses n s₀ s) :
    RowPasses n s₀ (modStrip n f s) := by
  rw [modStrip_eq]
  exact modPort_passes ⟨rfl, frontChanged_done hf _⟩ h

theorem stripPush_passes (codes : Codes) (filled : Bool) (h : RowPasses n s₀ s) : RowPasses n s₀ (stripPush n codes filled s) := by
  rw [stripPush]
  split
  · exact h
  · next x l hstrips =>
    have hcounted (i : FrameInfo) : RowPasses n s₀ (modSs n (fun z => { z with strips := { x with info := i } :: l }) s) :=
      modPort_passes ⟨rfl, by rw [hstrips]; rfl⟩ h
    dsimp only
    split
    · exact hcounted _
    · exact modPort_passes ⟨rfl, rfl⟩ (hcounted _)

theorem stripRow_passes (hn : n < 4) (codes : Codes) (filled : Bool) (hslots : s₀.err.slots = []) (h : RowPasses n s₀ s) :
    RowPasses n s₀ (stripRow n codes filled s) := by
  rw [stripRow]
  split
  · exact h
  · next x l _ =>
    have htaken := fifoTake_passes hn (!x.withheld && !s.ssPlanar n && decide (8 ≤ fifoLines (s.port n))) hslots h
    dsimp only
    split
    · exact stripPush_passes _ _ htaken
    · exact stripPush_passes _ _ htaken

theorem ssParity_sound (n : ℕ) (rows : List SsRow) (s : State) (h : s.err.slots = []) : ssParity n [] rows s = (rows, s) := by
  have hfold (acc l : List SsRow) : l.foldl (fun (a : List SsRow × State) x =>
      let r := a.1.length
      let (e, s) := examDetect (0x1050 + n * 256) ([].contains r) 0 0 a.2
      if e then (a.1 ++ [{ x with px := none }], ssSpoil n r s) else (a.1 ++ [x], s)) (acc, s) = (acc ++ l, s) := by
    induction l generalizing acc with
    | nil => rw [List.foldl_nil, List.append_nil]
    | cons x l ih =>
      rw [List.foldl_cons]
      dsimp only
      rw [List.contains_nil, examDetect_unreal _ _ _ _ h]
      dsimp only
      rw [if_neg Bool.false_ne_true, ih, List.append_assoc, List.singleton_append]
  exact hfold [] rows

end

/-- The front strip has one line more, and its frame status words. -/
def lineDone (n k fsw : ℕ) (s : State) : State := modStrip n (fun x => { x with done := k, info := { x.info with fsw := fsw } }) s

/-- The next output line follows; the lines that only earlier ones use go. -/
def lineNext (n : ℕ) (s : State) : State :=
  modSs n (fun z =>
    let src := z.src.filter (fun e => z.outLine < e.1)
    { z with outLine := z.outLine + 1, src := src, fired := z.fired.filter (fun e => e.1 + 1 == z.pulses || src.any (fun x => x.2.1 == some e.1)) }) s

/-- An output line of the front strip, not its last, and no line map. -/
theorem ssOut_more {n : ℕ} {rows : List SsRow} {x : StripSt} {rest : List StripSt} {s : State} (hn : n < 4) (hslots : s.err.slots = [])
    (hstrips : (s.port n).ss.strips = x :: rest) (hmore : x.done + 1 < s.f (SP_SS_GEOM_n n)) (hmap : s.f (SP_SS_MAP_SLOTS_slots n) = 0) :
    ∃ fsw u, RowPasses n (lineDone n (x.done + 1) fsw s) u ∧ ssOut n rows false false s = lineNext n u := by
  rw [ssOut, hstrips]
  dsimp only
  rw [hmap, if_pos rfl, if_neg (by omega)]
  apply Exists.intro
  apply Exists.intro
  refine ⟨?_, rfl⟩
  split
  · exact modStrip_passes (fun _ => rfl) (RowPasses.refl n _)
  · exact stripRow_passes hn _ _ hslots (stripRow_passes hn _ _ hslots (RowPasses.refl n _))

theorem outputLineComplete (s : State) (n : ℕ) (x : StripSt) (rest : List StripSt) : Claims.outputLineComplete s n x rest := by
  intro hn hon hslots hnext hstrips hmore hmap
  obtain ⟨⟨rows, stop⟩, hline, rfl⟩ := Option.map_eq_some_iff.mp hnext
  have hrun : exec (.outputLineComplete n []) s = .next (ssOut n rows false false s) := by
    rw [exec_outputLineComplete, execOutputLineComplete, decide_eq_true hn, guardOk_true, hon, hline]
    dsimp only
    rw [if_neg Bool.false_ne_true, ssParity_sound n rows s hslots]
  obtain ⟨fsw, u, hu, hleft⟩ := ssOut_more (rows := rows) hn hslots hstrips hmore hmap
  have hline : ((lineDone n (x.done + 1) fsw s).port n).ss.outLine = (s.port n).ss.outLine := by rw [lineDone, modStrip, modSs_ss]
  have hdone : ((lineDone n (x.done + 1) fsw s).port n).ss.strips.map (·.done) = (x.done + 1) :: rest.map (·.done) := by
    rw [lineDone, modStrip, modSs_ss, hstrips]
    rfl
  have hkept : Kept (· = SP_FIFO_OVF n) (fun _ => False) s (lineDone n (x.done + 1) fsw s) := modSs_kept n _ (Kept.refl _ _ s)
  refine ⟨_, hrun, ?_, ?_, hleft ▸ modSs_kept n _ (hkept.trans hu.kept)⟩
  · rw [hleft, lineNext, modSs_ss, hu.line, hline]
  · rw [hleft, lineNext, modSs_ss, ← List.head?_map, hu.done, hdone]
    rfl

/-- Settles O25: a line fires, its missing rows are filled, and an output line leaves. -/
theorem stripScan : Obligations.StripScan := by
  unfold Obligations.StripScan
  exact ⟨lineTrigger, ssRowTimeout, outputLineComplete⟩

end Sys2Proof.Proofs.StripScan

/-! The receiver of a Javel port and its lanes: enable, rate, lane maps and the lane commands (R56 to R58, R75 to R81). -/

namespace Sys2Proof.Proofs.JavelLink

open Sys2Proof.Machine
open Sys2Proof.Proofs.Keeping
open Sys2Proof.Proofs.Access
open Sys2Proof.Proofs.Ports
open Sys2Proof.Proofs.Bus (counting)
open Sys2Proof.Proofs.TimeUnit
open Sys2Proof.Proofs.Decoder (detect_counted)
open Sys2Proof.Proofs.Frames
open Sys2Proof.Claims (Keeps Told Calm linkShown closeShown)

/-! ### A port's lanes -/

theorem modLane_lane_self (n k : ℕ) (f : LaneSt → LaneSt) (s : State) : (modLane n k f s).lane n k = f (s.lane n k) := by
  rw [State.lane, modLane, modPort_port_self, lookD_put_self]
  rfl

theorem modLane_lane_of_ne {n k j : ℕ} (f : LaneSt → LaneSt) (s : State) (h : j ≠ k) : (modLane n k f s).lane n j = s.lane n j := by
  rw [State.lane, modLane, modPort_port_self, lookD_put_of_ne _ _ _ _ _ h]
  rfl

theorem modLane_jv (n k : ℕ) (f : LaneSt → LaneSt) (s : State) : ((modLane n k f s).port n).jv = (s.port n).jv := by
  rw [modLane, modPort_port_self]

theorem modLane_kept {p q : ℕ → Prop} {s₀ s : State} (n k : ℕ) (f : LaneSt → LaneSt) (h : Kept p q s₀ s) :
    Kept p q s₀ (modLane n k f s) := modPort_kept n _ h

theorem lane_of_link {n k : ℕ} {s t : State} (h : linkOf n t = linkOf n s) : t.lane n k = s.lane n k := by
  rw [State.lane, (Prod.mk.inj h).2, State.lane]

/-! ### A lane hunts (R57, R60) -/

theorem setLock_kept {p q : ℕ → Prop} {s₀ s : State} {n k v : ℕ} (hlane : p (SP_LANE_STATUS n k)) (hjv : p (SP_JV_STATUS n))
    (h : Kept p q s₀ s) : Kept p q s₀ (setLock n k v s) :=
  setF_kept (x := SP_JV_STATUS_locked n) hjv (setF_kept (x := SP_LANE_STATUS_lock n k) hlane h)

theorem laneHunt_kept {p q : ℕ → Prop} {s₀ s : State} {n k : ℕ} (hlane : p (SP_LANE_STATUS n k)) (hjv : p (SP_JV_STATUS n))
    (h : Kept p q s₀ s) : Kept p q s₀ (laneHunt n k s) := setLock_kept hlane hjv (modLane_kept n k _ h)

theorem lanePreset_kept {p q : ℕ → Prop} {s₀ s : State} {n k : ℕ} (hlane : p (SP_LANE_STATUS n k)) (hjv : p (SP_JV_STATUS n))
    (h : Kept p q s₀ s) : Kept p q s₀ (lanePreset n k s) := laneHunt_kept hlane hjv (modLane_kept n k _ h)

theorem laneStatus_ne_jvStatus (n k : ℕ) : SP_LANE_STATUS n k ≠ SP_JV_STATUS n := by
  simp only [SP_LANE_STATUS, SP_JV_STATUS]
  omega

theorem laneStatus_ne {n k j : ℕ} (h : j ≠ k) : SP_LANE_STATUS n j ≠ SP_LANE_STATUS n k := by
  simp only [SP_LANE_STATUS]
  omega

theorem setLock_lock (n k j v : ℕ) (s : State) (hv : v < 4) :
    (setLock n k v s).f (SP_LANE_STATUS_lock n j) = if j = k then v else s.f (SP_LANE_STATUS_lock n j) := by
  rw [setLock, f_setF_of_ne _ _ _ _ (laneStatus_ne_jvStatus n j)]
  split
  · next h =>
    rw [h]
    exact f_setF_eq (SP_LANE_STATUS_lock n k) v s rfl hv
  · next h => exact f_setF_of_ne _ _ _ _ (laneStatus_ne h)

theorem laneHunt_lock (n k j : ℕ) (s : State) :
    (laneHunt n k s).f (SP_LANE_STATUS_lock n j) = if j = k then 0 else s.f (SP_LANE_STATUS_lock n j) :=
  setLock_lock n k j 0 _ (by decide)

theorem lanePreset_lock (n k j : ℕ) (s : State) :
    (lanePreset n k s).f (SP_LANE_STATUS_lock n j) = if j = k then 0 else s.f (SP_LANE_STATUS_lock n j) := laneHunt_lock n k j _

/-- What a lane is as it begins to hunt. -/
def hunting (l : LaneSt) : LaneSt := { l with valid := 0, blk := 0, bad := [], lockAt := none, alignAt := none, out := none }

theorem laneHunt_lane (n k j : ℕ) (s : State) : (laneHunt n k s).lane n j = if j = k then hunting (s.lane n k) else s.lane n j := by
  have hlane : (laneHunt n k s).lane n j = (modLane n k hunting s).lane n j := rfl
  rw [hlane]
  split
  · next h => rw [h, modLane_lane_self]
  · next h => rw [modLane_lane_of_ne _ _ h]

theorem laneHunt_jv (n k : ℕ) (s : State) : ((laneHunt n k s).port n).jv = (s.port n).jv := modLane_jv n k hunting s

theorem lanePreset_lane (n k j : ℕ) (s : State) : (lanePreset n k s).lane n j =
    if j = k then hunting { s.lane n k with taps := (s.port n).jv.rate } else s.lane n j := by
  rw [lanePreset, laneHunt_lane, modLane_lane_self]
  split
  · rfl
  · next h => rw [modLane_lane_of_ne _ _ h]

theorem lanePreset_jv (n k : ℕ) (s : State) : ((lanePreset n k s).port n).jv = (s.port n).jv := by
  rw [lanePreset, laneHunt_jv, modLane_jv]

/-- Fields of JV_STATUS other than the locked lanes. -/
theorem laneHunt_jvStatus (n k hi lo : ℕ) (s : State) (h : bitsApart (SP_JV_STATUS_locked n) ⟨SP_JV_STATUS n, hi, lo⟩ = true) :
    (laneHunt n k s).f ⟨SP_JV_STATUS n, hi, lo⟩ = s.f ⟨SP_JV_STATUS n, hi, lo⟩ :=
  (f_setF_apart (SP_JV_STATUS_locked n) ⟨SP_JV_STATUS n, hi, lo⟩ _ _ rfl h).trans
    (f_setF_of_ne (SP_LANE_STATUS_lock n k) ⟨SP_JV_STATUS n, hi, lo⟩ _ _ (laneStatus_ne_jvStatus n k).symm)

/-! ### Every lane in turn -/

/-- A fold reaches what one of its steps does and the others leave. -/
theorem foldl_reaches {f : State → ℕ → State} {inv done : State → Prop} {j : ℕ} (hinv : ∀ s i, inv s → inv (f s i))
    (hstay : ∀ s i, inv s → done s → done (f s i)) (hstep : ∀ s, inv s → done (f s j)) {l : List ℕ} (hj : j ∈ l) {s : State}
    (h : inv s) : done (l.foldl f s) := by
  have hkeep (l : List ℕ) : ∀ s, inv s → done s → done (l.foldl f s) := by
    induction l with
    | nil => exact fun _ _ hd => hd
    | cons i l ih => exact fun s hs hd => ih _ (hinv s i hs) (hstay s i hs hd)
  induction l generalizing s with
  | nil => exact absurd hj List.not_mem_nil
  | cons i l ih =>
    rcases List.mem_cons.mp hj with rfl | hj
    · exact hkeep l _ (hinv s j h) (hstep s h)
    · exact ih hj (hinv s i h)

/-- A fold keeps what each of its steps keeps. -/
theorem foldl_keeps {α : Type} {f : State → ℕ → State} {g : State → α} (hf : ∀ s i, g (f s i) = g s) (l : List ℕ) (s : State) :
    g (l.foldl f s) = g s := by
  induction l generalizing s with
  | nil => rfl
  | cons i l ih => rw [List.foldl_cons, ih, hf]

theorem linkShown_lane {n k : ℕ} (hk : k < 12) : linkShown n (SP_LANE_STATUS n k) :=
  .inr (List.any_eq_true.mpr ⟨k, List.mem_range.mpr hk, beq_self_eq_true _⟩)

theorem linkShown_jv (n : ℕ) : linkShown n (SP_JV_STATUS n) := .inl rfl

/-- Every lane preset. -/
def presetAll (n : ℕ) (s : State) : State := (List.range 12).foldl (fun s k => lanePreset n k s) s

/-- Every lane hunting. -/
def huntAll (n : ℕ) (s : State) : State := (List.range 12).foldl (fun s k => laneHunt n k s) s

section
variable {p q : ℕ → Prop} {n k : ℕ} {s₀ s : State}

theorem presetAll_kept (hp : ∀ a, linkShown n a → p a) (h : Kept p q s₀ s) : Kept p q s₀ (presetAll n s) :=
  foldl_kept (fun _ _ hk hu => lanePreset_kept (hp _ (linkShown_lane (List.mem_range.mp hk))) (hp _ (linkShown_jv n)) hu) h

theorem huntAll_kept (hp : ∀ a, linkShown n a → p a) (h : Kept p q s₀ s) : Kept p q s₀ (huntAll n s) :=
  foldl_kept (fun _ _ hk hu => laneHunt_kept (hp _ (linkShown_lane (List.mem_range.mp hk))) (hp _ (linkShown_jv n)) hu) h

theorem presetAll_jv : ((presetAll n s).port n).jv = (s.port n).jv :=
  foldl_keeps (g := fun s => (s.port n).jv) (fun s k => lanePreset_jv n k s) _ s

theorem huntAll_jv : ((huntAll n s).port n).jv = (s.port n).jv :=
  foldl_keeps (g := fun s => (s.port n).jv) (fun s k => laneHunt_jv n k s) _ s

theorem presetAll_lock (hk : k < 12) : (presetAll n s).f (SP_LANE_STATUS_lock n k) = 0 :=
  foldl_reaches (inv := fun _ => True) (done := fun s => s.f (SP_LANE_STATUS_lock n k) = 0) (fun _ _ _ => trivial)
    (fun s i _ h => by rw [lanePreset_lock, h, ite_self]) (fun s _ => by rw [lanePreset_lock, if_pos rfl])
    (List.mem_range.mpr hk) trivial

theorem huntAll_lock (hk : k < 12) : (huntAll n s).f (SP_LANE_STATUS_lock n k) = 0 :=
  foldl_reaches (inv := fun _ => True) (done := fun s => s.f (SP_LANE_STATUS_lock n k) = 0) (fun _ _ _ => trivial)
    (fun s i _ h => by rw [laneHunt_lock, h, ite_self]) (fun s _ => by rw [laneHunt_lock, if_pos rfl])
    (List.mem_range.mpr hk) trivial

theorem presetAll_taps (hk : k < 12) : ((presetAll n s).lane n k).taps = (s.port n).jv.rate := by
  refine foldl_reaches (inv := fun t => (t.port n).jv = (s.port n).jv) (done := fun t => (t.lane n k).taps = (s.port n).jv.rate)
    (fun t i h => (lanePreset_jv n i t).trans h) (fun t i h hd => ?_) (fun t h => ?_) (List.mem_range.mpr hk) rfl
  · rw [lanePreset_lane]
    split
    · rw [h]; rfl
    · exact hd
  · rw [lanePreset_lane, if_pos rfl, h]
    rfl

theorem huntAll_taps : ((huntAll n s).lane n k).taps = (s.lane n k).taps := by
  refine foldl_keeps (g := fun s => (s.lane n k).taps) (fun s i => ?_) _ s
  rw [laneHunt_lane]
  split
  · next h => rw [h]; rfl
  · rfl

end

/-! ### The link is judged (R59, R98) -/

/-- What judging a port's link leaves: the lanes, the rate and the changes of rate that wait. -/
structure LinkJudged (p : ℕ → Prop) (n : ℕ) (s t : State) : Prop where
  kept : Kept p (fun _ => False) s t
  lanes : (t.port n).lanes = (s.port n).lanes
  rate : (t.port n).jv.rate = (s.port n).jv.rate
  newRate : (t.port n).jv.newRate = (s.port n).jv.newRate

section
variable {p : ℕ → Prop} {n : ℕ} {s₀ s t : State}

theorem LinkJudged.refl (p : ℕ → Prop) (n : ℕ) (s : State) : LinkJudged p n s s := ⟨Kept.refl _ _ s, rfl, rfl, rfl⟩

theorem LinkJudged.congr (h : LinkJudged p n s₀ s) (hkept : Kept p (fun _ => False) s₀ t) (hlink : linkOf n t = linkOf n s) :
    LinkJudged p n s₀ t := by
  obtain ⟨hjv, hlanes⟩ := Prod.mk.inj hlink
  exact ⟨hkept, hlanes.trans h.lanes, by rw [hjv, h.rate], by rw [hjv, h.newRate]⟩

theorem setF_judged {x : Fld} {v : ℕ} (hx : p x.addr) (h : LinkJudged p n s₀ s) : LinkJudged p n s₀ (setF x v s) :=
  h.congr (setF_kept hx h.kept) rfl

theorem raise_judged {blk loc arg : ℕ} (h : LinkJudged p n s₀ s) : LinkJudged p n s₀ (raise blk loc arg s) :=
  h.congr (raise_kept h.kept) (by rw [linkOf, raise_port, linkOf])

theorem linkCheck_judged (hn : n < 4) (hjv : p (SP_JV_STATUS n)) (hclose : (s.port n).frame ≠ none → ∀ a, closeShown n a → p a) :
    LinkJudged p n s (linkCheck n s) := by
  have hspare : LinkJudged p n s (showSpare n s) := setF_judged (x := SP_JV_STATUS_spare_avail n) hjv (LinkJudged.refl p n s)
  rw [linkCheck]
  dsimp only
  split
  · split
    · have hwin : LinkJudged p n s (modJv n (fun j => { j with win := none }) (showSpare n s)) := by
        refine ⟨modPort_kept n _ hspare.kept, ?_, ?_, ?_⟩
        all_goals rw [modJv, modPort_port_self]
        · exact hspare.lanes
        · exact hspare.rate
        · exact hspare.newRate
      have hdown := raise_judged (blk := 0x10 + n) (loc := 0x47) (arg := 0) (setF_judged (x := SP_JV_STATUS_link_up n) (v := 0) hjv
        (setF_judged (x := SP_JV_STATUS_aligned n) (v := 0) hjv hwin))
      split
      · exact hdown
      · cases hframe : ((raise (0x10 + n) 0x47 0 (setF (SP_JV_STATUS_link_up n) 0 (setF (SP_JV_STATUS_aligned n) 0
            (modJv n (fun j => { j with win := none }) (showSpare n s))))).port n).frame with
        | none =>
          rw [portClose_of_none _ hframe]
          exact hdown
        | some f =>
          have hopen : (s.port n).frame ≠ none := by
            rw [raise_port, setF_port, setF_port, modJv, modPort_port_self] at hframe
            exact fun hnone => absurd (hnone.symm.trans hframe) nofun
          have hclosed := portClose_closed (p := p) (why := .early) hn hframe (hclose hopen _ (.inl rfl)) nofun
            (fun _ => hclose hopen _ (.inr (.inr rfl)))
          exact hdown.congr (hdown.kept.trans hclosed.kept) hclosed.link
    · exact hspare
  · split
    · exact raise_judged (setF_judged (x := SP_JV_STATUS_link_up n) hjv hspare)
    · exact hspare

end

theorem lanesDown_eq (n : ℕ) (s : State) : lanesDown n s = setF (SP_JV_STATUS_aligned n) 0 (linkCheck n (huntAll n s)) := rfl

/-- The registers in which a link's judgement shows. -/
def JudgedShown (n a : ℕ) : Prop := a = SP_JV_STATUS n ∨ closeShown n a

theorem laneStatus_not_judged (n k : ℕ) : ¬ JudgedShown n (SP_LANE_STATUS n k) := by
  simp only [JudgedShown, closeShown, SP_LANE_STATUS, SP_JV_STATUS, SP_STATUS, SP_SHORT, SP_TRUNC]
  omega

theorem judgedShown_shown {n a : ℕ} (h : JudgedShown n a) : linkShown n a ∨ closeShown n a := h.imp_left .inl

/-! ### The rate (R78) -/

/-- The receivers take the new rate. -/
def rateTaken (n c : ℕ) (l : List (ℕ × Option ℕ)) (s : State) : State := modJv n (fun j => { j with rate := c, newRate := l }) s

theorem rateTaken_jv (n c : ℕ) (l : List (ℕ × Option ℕ)) (s : State) :
    ((rateTaken n c l s).port n).jv = { (s.port n).jv with rate := c, newRate := l } := by
  rw [rateTaken, modJv, modPort_port_self]

theorem rateSwitch (s : State) (n k c d : ℕ) : Claims.rateSwitch s n k c d := by
  intro hn hon hk hcalm hhead
  obtain ⟨l, hrates⟩ : ∃ l, (s.port n).jv.newRate = (c, some d) :: l := List.head?_eq_some_iff.mp hhead
  obtain ⟨x, v, hlater⟩ := advanceTo_laterAt d hcalm
  obtain ⟨u, hu⟩ : ∃ u, u = huntAll n (presetAll n (rateTaken n c l (laterAt (max s.now d) x v s))) := ⟨_, rfl⟩
  have hrun : exec (.rateSwitch n) s = .next (setF (SP_JV_STATUS_aligned n) 0 (linkCheck n u)) := by
    rw [exec_rateSwitch, execRateSwitch, decide_eq_true hn, guardOk_true, hon, hrates, hu]
    dsimp only
    rw [hlater, lanesDown_eq]
    rfl
  have hjudged : LinkJudged (JudgedShown n) n u (setF (SP_JV_STATUS_aligned n) 0 (linkCheck n u)) :=
    setF_judged (.inl rfl) (linkCheck_judged hn (.inl rfl) fun _ _ => .inr)
  have hjv : (u.port n).jv = { (s.port n).jv with rate := c, newRate := l } := by
    rw [hu, huntAll_jv, presetAll_jv, rateTaken_jv]
    rfl
  refine ⟨_, hrun, hjudged.rate.trans (by rw [hjv]), hjudged.newRate.trans (by rw [hjv, hrates, List.drop_one, List.tail_cons]), ?_,
    (hjudged.kept.f_eq (SP_LANE_STATUS_lock n k) (laneStatus_not_judged n k)).trans (hu ▸ huntAll_lock hk), ?_, ?_⟩
  · have hgrows : Growth.Grows (rateTaken n c l (laterAt (max s.now d) x v s)) u := hu ▸ Growth.foldl_grows
      (fun _ _ => Growth.laneHunt_grows) (Growth.foldl_grows (fun _ _ => Growth.lanePreset_grows) (Growth.Grows.refl _))
    exact (le_max_right s.now d).trans (Growth.setF_grows (Growth.linkCheck_grows hgrows)).now
  · have htaps : (u.lane n k).taps = c := by rw [hu, huntAll_taps, presetAll_taps hk, rateTaken_jv]
    rw [State.lane, hjudged.lanes]
    exact htaps
  · have hstart : Kept (fun a => linkShown n a ∨ closeShown n a) (fun _ => False) s
        (rateTaken n c l (laterAt (max s.now d) x v s)) := modPort_kept n _ ((Kept.refl _ _ s).congr rfl rfl rfl rfl)
    have hlanes := huntAll_kept (n := n) (fun _ => .inl) (presetAll_kept (n := n) (fun _ => .inl) hstart)
    exact (hu ▸ hlanes).trans (hjudged.kept.mono (fun _ => judgedShown_shown) fun _ => id)

/-! ### The lanes' control register (R57, R75, R80, R81) -/

theorem laneCtrl_row {n k : ℕ} (hn : n < 4) (hk : k < 12) : rowAt ⟨true, some (dSP n), spRows n, 0x8000 + 0x400 * k⟩ =
    some ⟨0x8000, [(0x400, 12)], .d, [⟨0, 0, .rw, 0x0⟩, ⟨1, 1, .w1s, 0x0⟩, ⟨2, 2, .w1s, 0x0⟩, ⟨3, 3, .w1s, 0x0⟩,
      ⟨6, 4, .rw, 0x0⟩, ⟨8, 7, .rw, 0x0⟩, ⟨9, 9, .w1s, 0x0⟩, ⟨23, 16, .rw, 0xA⟩]⟩ := by
  interval_cases n
  all_goals
    interval_cases k
    all_goals rfl

theorem laneCtrl_at (n k : ℕ) : SP_LANE_CTRL n k = 0x41000000 + (0x8000 + 0x400 * k) + 0x100000 * n := by
  simp only [SP_LANE_CTRL]
  omega

/-- A lane's control register after a write of `v`. -/
def laneWord (w v : Word) : Word :=
  setBits (setBits (setBits (setBits w 0 0 (bitsOf v.toNat 0 0)) 6 4 (bitsOf v.toNat 6 4)) 8 7 (bitsOf v.toNat 8 7)) 23 16
    (bitsOf v.toNat 23 16)

/-- A write of a lane's control register as it is stored. -/
def laneTaken (n k : ℕ) (v : Word) (s : State) : State := wr (SP_LANE_CTRL n k) (laneWord (s.rd (SP_LANE_CTRL n k)) v) s

theorem plainWrite_lane {s : State} {n k : ℕ} (v : Word) (hn : n < 4) (hk : k < 12) (hon : s.unitOn (dSP n) = true) :
    plainWrite (SP_LANE_CTRL n k) v s = laneTaken n k v s :=
  plainWrite_of_row (inBlock_port (off := 0x8000 + 0x400 * k) hn hon (laneCtrl_at n k) (by omega) (by omega)).window
    (laneCtrl_row hn hk)

theorem served_lane {s : State} {n k : ℕ} (hn : n < 4) (hk : k < 12) (hon : s.unitOn (dSP n) = true) :
    Served (SP_LANE_CTRL n k) s := served_port (0x8000 + 0x400 * k) hn hon (laneCtrl_at n k) (by omega) (by omega)

theorem laneTaken_prbs (n k : ℕ) (v : Word) (s : State) : (laneTaken n k v s).f (SP_LANE_CTRL_prbs n k) = bitsOf v.toNat 6 4 := by
  rw [State.f, laneTaken]
  show bitsOf ((wr (SP_LANE_CTRL n k) _ s).rd (SP_LANE_CTRL n k)).toNat 6 4 = _
  rw [rd_wr_self, laneWord,
    bitsOf_setBits_of_above _ _ _ _ _ _ (by decide) (by decide) (by decide) (by decide),
    bitsOf_setBits_of_above _ _ _ _ _ _ (by decide) (by decide) (by decide) (by decide),
    bitsOf_setBits_self _ _ _ _ (by decide) (by decide), bitsOf_mod_self]

theorem laneTaken_ms (n k : ℕ) (v : Word) (s : State) : (laneTaken n k v s).f (SP_LANE_CTRL_margin_ms n k) = bitsOf v.toNat 23 16 := by
  rw [State.f, laneTaken]
  show bitsOf ((wr (SP_LANE_CTRL n k) _ s).rd (SP_LANE_CTRL n k)).toNat 23 16 = _
  rw [rd_wr_self, laneWord, bitsOf_setBits_self _ _ _ _ (by decide) (by decide), bitsOf_mod_self]

/-- A field written with what it holds. -/
theorem setBits_held (w : Word) (hi lo : ℕ) : setBits w hi lo (bitsOf w.toNat hi lo) = w := by
  have hfield : bitsOf w.toNat hi lo * 2 ^ lo ≤ w.toNat :=
    le_trans (Nat.mul_le_mul_right _ (Nat.mod_le _ _)) (Nat.div_mul_le_self _ _)
  rw [setBits, bitsOf_mod_self, Nat.sub_add_cancel hfield, BitVec.ofNat_toNat, BitVec.setWidth_eq]

/-- A field of a word under a mask that covers it. -/
theorem bitsOf_and (w m : Word) (hi lo : ℕ) (hm : bitsOf m.toNat hi lo = 2 ^ (hi - lo + 1) - 1) :
    bitsOf (w &&& m).toNat hi lo = bitsOf w.toNat hi lo := by
  rw [bitsOf] at hm
  rw [bitsOf, BitVec.toNat_and, Nat.and_div_two_pow, Nat.and_mod_two_pow, hm, Nat.and_two_pow_sub_one_eq_mod, Nat.mod_mod, bitsOf]

/-- What the commands of a lane write: its control register as it stands, with one of the command bits. -/
def cmdWord (bit : ℕ) (w : Word) : Word := setBits (w &&& 0xFFFFFDF1) bit bit 1

theorem laneCommand_eq (r : Requester) {n k : ℕ} (bit : ℕ) (s : State) (hn : n < 4) (hk : k < 12) : laneCommand r n k bit s =
    .next (writeBy r (SP_LANE_CTRL n k) (fun s => laneCtrlWrite n k (cmdWord bit (s.rd (SP_LANE_CTRL n k))) s) s) := by
  rw [laneCommand, decide_eq_true hn, decide_eq_true hk, Bool.and_self, guardOk_true]
  rfl

theorem bitsOf_cmdWord {bit hi lo : ℕ} (w : Word) (hbit : bit ≤ 31) (hle : lo ≤ hi) (hapart : bit < lo ∨ hi < bit)
    (hm : bitsOf (0xFFFFFDF1 : Word).toNat hi lo = 2 ^ (hi - lo + 1) - 1) : bitsOf (cmdWord bit w).toNat hi lo = bitsOf w.toNat hi lo := by
  rw [cmdWord]
  rcases hapart with hbelow | habove
  · rw [RegisterMap.bitsOf_setBits_of_below _ _ _ _ _ _ (le_refl bit) hbit hbelow, bitsOf_and _ _ _ _ hm]
  · rw [bitsOf_setBits_of_above _ _ _ _ _ _ (le_refl bit) hbit hle habove, bitsOf_and _ _ _ _ hm]

/-- A command of a lane leaves its control register as it stands. -/
theorem laneWord_cmdWord {bit : ℕ} (w : Word) (hlow : 0 < bit) (hhigh : bit < 4) : laneWord w (cmdWord bit w) = w := by
  rw [laneWord, bitsOf_cmdWord w (by omega) (by decide) (.inr hlow) (by decide),
    bitsOf_cmdWord w (by omega) (by decide) (.inl hhigh) (by decide),
    bitsOf_cmdWord w (by omega) (by decide) (.inl (by omega)) (by decide),
    bitsOf_cmdWord w (by omega) (by decide) (.inl (by omega)) (by decide), setBits_held, setBits_held, setBits_held, setBits_held]

theorem bitOf_cmdWord_self {bit : ℕ} (w : Word) (hbit : bit ≤ 31) : bitOf (cmdWord bit w).toNat bit = true :=
  bitOf_setBits_one _ bit hbit

theorem bitOf_cmdWord_of_ne {bit i : ℕ} (w : Word) (hbit : bit ≤ 31) (h : bit ≠ i) (hm : (0xFFFFFDF1 : Word).toNat.testBit i = false) :
    bitOf (cmdWord bit w).toNat i = false := by
  rw [cmdWord, bitOf_setBits_of_ne _ _ _ _ hbit h, bitOf_eq_testBit, BitVec.toNat_and, Nat.testBit_and, hm, Bool.and_false]

/-- A lane's control register written as it stands. -/
def laneSame (n k : ℕ) (s : State) : State := wr (SP_LANE_CTRL n k) (s.rd (SP_LANE_CTRL n k)) s

theorem laneSame_rd (n k a : ℕ) (s : State) : (laneSame n k s).rd a = s.rd a := by
  by_cases h : a = SP_LANE_CTRL n k
  · rw [h, laneSame, rd_wr_self]
  · rw [laneSame, rd_wr_of_ne _ _ _ _ h]

theorem laneSame_f (n k : ℕ) (x : Fld) (s : State) : (laneSame n k s).f x = s.f x := by rw [State.f, laneSame_rd, State.f]

theorem laneSame_kept {p q : ℕ → Prop} (n k : ℕ) (s : State) : Kept p q s (laneSame n k s) :=
  ⟨fun a _ => laneSame_rd n k a s, fun _ _ => rfl⟩

/-- What a lane's commands do, one by one. -/
def laneCmd (n k bit : ℕ) (s : State) : State :=
  if bit = 1 then linkCheck n (lanePreset n k s)
  else if bit = 2 then lanePreset n k (modLane n k (fun l => { l with readmit := some 0 }) s)
  else wr (SP_LANE_PRBS_ERR n k) 0 (setPair (SP_LANE_PRBS_BITS_LO n k) (SP_LANE_PRBS_BITS_HI n k) 0 s)

theorem laneCtrlWrite_cmd {n k bit : ℕ} {s : State} (hn : n < 4) (hk : k < 12) (hon : s.unitOn (dSP n) = true)
    (hlow : 0 < bit) (hhigh : bit < 4) (hfenced : bit = 2 → s.fenced n k = true) :
    laneCtrlWrite n k (cmdWord bit (s.rd (SP_LANE_CTRL n k))) s = laneCmd n k bit (laneSame n k s) := by
  have hsame : plainWrite (SP_LANE_CTRL n k) (cmdWord bit (s.rd (SP_LANE_CTRL n k))) s = laneSame n k s := by
    rw [plainWrite_lane _ hn hk hon, laneTaken, laneWord_cmdWord _ hlow hhigh, laneSame]
  have hbit (i : ℕ) (hm : (0xFFFFFDF1 : Word).toNat.testBit i = false) :
      bitOf (cmdWord bit (s.rd (SP_LANE_CTRL n k))).toNat i = decide (bit = i) := by
    by_cases hi : bit = i
    · rw [decide_eq_true hi, ← hi, bitOf_cmdWord_self _ (by omega)]
    · rw [decide_eq_false hi, bitOf_cmdWord_of_ne _ (by omega) hi hm]
  have hpass : ¬ (decide (bit = 2) && !s.fenced n k) = true := by
    rw [Bool.and_eq_true, decide_eq_true_eq]
    exact fun h => absurd (hfenced h.1) (by simpa using h.2)
  rw [laneCtrlWrite, hbit 1 (by decide), hbit 2 (by decide), hbit 3 (by decide), hbit 9 (by decide), if_neg hpass, hsame]
  dsimp only
  rw [if_pos (laneSame_f n k _ s), decide_eq_false (show bit ≠ 9 by omega), Bool.false_and, if_neg Bool.false_ne_true, laneCmd]
  obtain rfl | rfl | rfl : bit = 1 ∨ bit = 2 ∨ bit = 3 := by omega
  · rfl
  · rfl
  · rfl

theorem laneCmd_readapt (n k : ℕ) (s : State) : laneCmd n k 1 s = linkCheck n (lanePreset n k s) := rfl

theorem lanePreset_frame (n k : ℕ) (s : State) : ((lanePreset n k s).port n).frame = (s.port n).frame := by
  have hmod (f : LaneSt → LaneSt) (u : State) : ((modLane n k f u).port n).frame = (u.port n).frame := by
    rw [modLane, modPort_port_self]
  exact (hmod hunting _).trans (hmod _ s)

theorem laneReadapt (s : State) (r : Requester) (n k : ℕ) : Claims.laneReadapt s r n k := by
  intro hn hk hon hframe
  have hcmd (l : List (ℕ × ℕ)) : laneCtrlWrite n k (cmdWord 1 ((held l s).rd (SP_LANE_CTRL n k))) (held l s) =
      linkCheck n (lanePreset n k (laneSame n k (held l s))) :=
    laneCtrlWrite_cmd hn hk (s := held l s) hon (by decide) (by decide) (fun h => absurd h (by decide))
  have hjudged (l : List (ℕ × ℕ)) : LinkJudged (· = SP_JV_STATUS n) n (lanePreset n k (laneSame n k (held l s)))
      (linkCheck n (lanePreset n k (laneSame n k (held l s)))) :=
    linkCheck_judged hn rfl fun h => absurd ((lanePreset_frame n k _).trans hframe) h
  refine writes_of_served (laneCommand_eq r 1 s hn hk) (served_lane hn hk hon) (fun l e => ?_) (fun l => ?_)
  · have hlane : (linkCheck n (lanePreset n k (laneSame n k (held l s)))).lane n k =
        hunting { (laneSame n k (held l s)).lane n k with taps := (s.port n).jv.rate } := by
      rw [State.lane, (hjudged l).lanes]
      exact (lanePreset_lane n k k _).trans (if_pos rfl)
    rw [hcmd]
    refine ⟨?_, congrArg LaneSt.taps hlane, congrArg LaneSt.valid hlane⟩
    rw [answered_f, (hjudged l).kept.f_eq (SP_LANE_STATUS_lock n k) (laneStatus_ne_jvStatus n k), lanePreset_lock, if_pos rfl]
  · rw [hcmd]
    have hpreset : Kept (linkShown n) (fun _ => False) s (lanePreset n k (laneSame n k (held l s))) :=
      lanePreset_kept (linkShown_lane hk) (linkShown_jv n) ((kept_held _ _ l s).trans (laneSame_kept n k _))
    exact hpreset.trans ((hjudged l).kept.mono (fun _ => .inl) fun _ => id)

theorem laneReadmit (s : State) (r : Requester) (n k : ℕ) : Claims.laneReadmit s r n k := by
  intro hn hk hon
  by_cases hfenced : s.fenced n k = true
  · have hcmd (l : List (ℕ × ℕ)) : laneCtrlWrite n k (cmdWord 2 ((held l s).rd (SP_LANE_CTRL n k))) (held l s) =
        lanePreset n k (modLane n k (fun l => { l with readmit := some 0 }) (laneSame n k (held l s))) :=
      laneCtrlWrite_cmd hn hk (s := held l s) hon (by decide) (by decide) (fun _ => hfenced)
    refine writes_of_served (laneCommand_eq r 2 s hn hk) (served_lane hn hk hon) (fun l e => ?_) (fun l => ?_)
    · rw [if_pos hfenced, hcmd, answered_f, lanePreset_lock, if_pos rfl]
      refine ⟨?_, rfl⟩
      have hlane := lanePreset_lane n k k (modLane n k (fun l => { l with readmit := some 0 }) (laneSame n k (held l s)))
      rw [if_pos rfl, modLane_lane_self] at hlane
      exact congrArg LaneSt.readmit hlane
    · rw [hcmd]
      exact lanePreset_kept (.inr (.inl rfl)) (.inr (.inr rfl)) (modLane_kept n k _ ((kept_held _ _ l s).trans (laneSame_kept n k _)))
  · have hidle (l : List (ℕ × ℕ)) : laneCtrlWrite n k (cmdWord 2 ((held l s).rd (SP_LANE_CTRL n k))) (held l s) = held l s := by
      rw [laneCtrlWrite, if_pos]
      rw [bitOf_cmdWord_self _ (by decide), Bool.true_and, Bool.not_eq_true']
      exact Bool.eq_false_iff.mpr hfenced
    refine writes_of_served (laneCommand_eq r 2 s hn hk) (served_lane hn hk hon) (fun l e => ?_) (fun l => ?_)
    · rw [if_neg hfenced, hidle]
      exact ⟨rfl, fun _ _ => rfl⟩
    · rw [hidle]
      exact kept_held _ _ l s

theorem prbsCntClr (s : State) (r : Requester) (n k : ℕ) : Claims.prbsCntClr s r n k := by
  intro hn hk hon
  have hcmd (l : List (ℕ × ℕ)) : laneCtrlWrite n k (cmdWord 3 ((held l s).rd (SP_LANE_CTRL n k))) (held l s) =
      wr (SP_LANE_PRBS_ERR n k) 0 (setPair (SP_LANE_PRBS_BITS_LO n k) (SP_LANE_PRBS_BITS_HI n k) 0 (laneSame n k (held l s))) :=
    laneCtrlWrite_cmd hn hk (s := held l s) hon (by decide) (by decide) (fun h => absurd h (by decide))
  refine writes_of_served (laneCommand_eq r 3 s hn hk) (served_lane hn hk hon) (fun l e => ?_) (fun l => ?_)
  · rw [hcmd]
    refine ⟨rd_wr_self _ _ _, ?_⟩
    rw [State.pair, answered_rd, answered_rd, rd_wr_of_ne _ _ _ _ (by simp only [SP_LANE_PRBS_BITS_LO, SP_LANE_PRBS_ERR]; omega),
      rd_wr_of_ne _ _ _ _ (by simp only [SP_LANE_PRBS_BITS_HI, SP_LANE_PRBS_ERR]; omega)]
    exact pair_setPair _ _ 0 _ (by simp only [SP_LANE_PRBS_BITS_LO, SP_LANE_PRBS_BITS_HI]; omega)
  · rw [hcmd]
    exact wr_kept (.inr (.inl rfl)) (setPair_kept (.inr (.inr (.inl rfl))) (.inr (.inr (.inr rfl)))
      ((kept_held _ _ l s).trans (laneSame_kept n k _)))

/-! ### The margin test and the PRBS checker (R79 to R81) -/

/-- A write of another PRBS sequence starts the lane's checker afresh. -/
def prbsStage (n k old : ℕ) (s : State) : State :=
  if s.f (SP_LANE_CTRL_prbs n k) = old then s
  else setF (SP_LANE_STATUS_prbs_sync n k) 0 (modLane n k (fun l => { l with prbs := {} }) s)

theorem prbsStage_kept {p q : ℕ → Prop} {s₀ s : State} {n k : ℕ} (old : ℕ) (hp : p (SP_LANE_STATUS n k)) (h : Kept p q s₀ s) :
    Kept p q s₀ (prbsStage n k old s) :=
  ite_kept h (setF_kept (x := SP_LANE_STATUS_prbs_sync n k) hp (modLane_kept n k _ h))

/-- The margin test runs for a time. -/
def marginRuns (n k ms : ℕ) (s : State) : State :=
  setF (SP_LANE_STATUS_margin_done n k) 0 (setF (SP_LANE_STATUS_margin_pass n k) 0
    (modLane n k (fun l => { l with margin := some (s.now + ms * Config.ms) }) s))

theorem modLane_margin (n k : ℕ) (m : Option ℕ) (s : State) :
    ((modLane n k (fun l => { l with margin := m }) s).lane n k).margin = m := by rw [modLane_lane_self]

theorem setF_lane (x : Fld) (v n k : ℕ) (s : State) : (setF x v s).lane n k = s.lane n k := rfl

theorem marginRuns_margin (n k ms : ℕ) (s : State) : ((marginRuns n k ms s).lane n k).margin = some (s.now + ms * Config.ms) := by
  rw [marginRuns, setF_lane, setF_lane, modLane_margin]

theorem marginRuns_now (n k ms : ℕ) (s : State) : (marginRuns n k ms s).now = s.now := rfl

theorem answered_lane (r : Requester) (w : Word) (e : List Ev) (t : State) (n k : ℕ) :
    (answer r w (telling e t)).lane n k = t.lane n k := rfl

theorem answered_now (r : Requester) (w : Word) (e : List Ev) (t : State) : (answer r w (telling e t)).now = t.now := rfl

theorem laneCtrl_ne_laneStatus (n k : ℕ) : SP_LANE_CTRL n k ≠ SP_LANE_STATUS n k := by
  simp only [SP_LANE_CTRL, SP_LANE_STATUS]
  omega

theorem laneCtrlWrite_margin {n k : ℕ} {v : Word} {s : State} (hn : n < 4) (hk : k < 12) (hon : s.unitOn (dSP n) = true)
    (hcmds : bitOf v.toNat 1 = false ∧ bitOf v.toNat 2 = false ∧ bitOf v.toNat 3 = false) (hgo : bitOf v.toNat 9 = true)
    (hms : bitsOf v.toNat 23 16 ≠ 0) : laneCtrlWrite n k v s = marginRuns n k (bitsOf v.toNat 23 16)
      (prbsStage n k (s.f (SP_LANE_CTRL_prbs n k)) (laneTaken n k v s)) := by
  obtain ⟨h1, h2, h3⟩ := hcmds
  have htime : (prbsStage n k (s.f (SP_LANE_CTRL_prbs n k)) (laneTaken n k v s)).f (SP_LANE_CTRL_margin_ms n k) =
      bitsOf v.toNat 23 16 :=
    ((prbsStage_kept (p := (· = SP_LANE_STATUS n k)) (q := fun _ => False) _ rfl (Kept.refl _ _ _)).f_eq (SP_LANE_CTRL_margin_ms n k)
      (laneCtrl_ne_laneStatus n k)).trans (laneTaken_ms n k v s)
  have hruns : (true && (prbsStage n k (s.f (SP_LANE_CTRL_prbs n k)) (laneTaken n k v s)).f (SP_LANE_CTRL_margin_ms n k) != 0) = true := by
    rw [Bool.true_and, bne_iff_ne]
    exact htime.trans_ne hms
  rw [← htime, laneCtrlWrite, plainWrite_lane v hn hk hon, h1, h2, h3, hgo]
  exact if_pos hruns

theorem marginGo (s : State) (r : Requester) (n k : ℕ) (v : Word) : Claims.marginGo s r n k v := by
  intro hn hk hon hcmds hms
  have hbit (i : ℕ) (hi : 1 ≤ i) (hi3 : i ≤ 3) : bitOf (setBits v 9 9 1).toNat i = false := by
    rw [bitOf_setBits_of_ne _ _ _ _ (by decide) (by omega), bitOf]
    simp only [bitsOf] at hcmds
    interval_cases i
    all_goals
      simp only [beq_eq_false_iff_ne]
      omega
  have htime : bitsOf (setBits v 9 9 1).toNat 23 16 = bitsOf v.toNat 23 16 :=
    RegisterMap.bitsOf_setBits_of_below v 9 9 1 23 16 (le_refl 9) (by decide) (by decide)
  have hcmd (l : List (ℕ × ℕ)) := laneCtrlWrite_margin (k := k) (v := setBits v 9 9 1) (s := held l s) hn hk hon
    ⟨hbit 1 (by decide) (by decide), hbit 2 (by decide) (by decide), hbit 3 (by decide) (by decide)⟩
    (bitOf_setBits_one v 9 (by decide)) (by rw [htime]; exact hms)
  refine writes_of_served (k := laneCtrlWrite n k (setBits v 9 9 1)) ?_ (served_lane hn hk hon) (fun l e => ?_) (fun l => ?_)
  · rw [exec_marginGo, execMarginGo, decide_eq_true hn, decide_eq_true hk, Bool.and_self, guardOk_true]
  · rw [hcmd, htime]
    refine ⟨?_, f_clear (SP_LANE_STATUS_margin_done n k) _ rfl⟩
    rw [answered_lane, marginRuns_margin, answered_now, marginRuns_now]
  · rw [hcmd]
    have hstored : Kept (fun a => a = SP_LANE_CTRL n k ∨ a = SP_LANE_STATUS n k) (fun _ => False) s
        (laneTaken n k (setBits v 9 9 1) (held l s)) := wr_kept (.inl rfl) (kept_held _ _ l s)
    exact setF_kept (x := SP_LANE_STATUS_margin_done n k) (.inr rfl) (setF_kept (x := SP_LANE_STATUS_margin_pass n k) (.inr rfl)
      (modLane_kept n k _ (prbsStage_kept _ (.inr rfl) hstored)))

theorem detect_lane {n : ℕ} (hn : n < 4) (loc : ℕ) (hloc : loc = 0x16 ∨ loc = 0x17) :
    hasRetry (0x1000 + loc + n * 256) = false ∧ lastingAtOnce (0x1000 + loc + n * 256) = false := by
  rcases hloc with rfl | rfl
  all_goals
    interval_cases n
    all_goals decide

/-- A check of a lane, with no injection armed. -/
theorem examDetect_lane {det : ℕ} (hdet : hasRetry det = false ∧ lastingAtOnce det = false) (real : Bool) (arg addr : ℕ) {s : State}
    (hslots : s.err.slots = []) : ∃ r i, examDetect det real arg addr s = (real, counting r i s) := by
  rw [examDetect, examine_nil _ _ _ hslots]
  cases real with
  | false => exact ⟨s.err.rates, s.err.injRates, rfl⟩
  | true =>
    obtain ⟨r, i, hcount⟩ := detect_counted hdet false arg addr s
    exact ⟨r, i, by rw [← hcount]; rfl⟩

theorem marginDone (s : State) (n k d : ℕ) (bad : Bool) : Claims.marginDone s n k d bad := by
  intro hn hon hk hcalm hmargin
  obtain ⟨x, v, hlater⟩ := advanceTo_laterAt d hcalm
  obtain ⟨u, hu⟩ : ∃ u, u = modLane n k (fun l => { l with margin := none }) (laterAt (max s.now d) x v s) := ⟨_, rfl⟩
  have hslots : u.err.slots = [] := hu ▸ hcalm.1
  obtain ⟨r, i, hexam⟩ := examDetect_lane (detect_lane hn 0x17 (.inr rfl)) bad k 0 hslots
  have hrun : exec (.marginDone n k bad) s = .next (setF (SP_LANE_STATUS_margin_pass n k) (if bad then 0 else 1)
      (flag (SP_LANE_STATUS_margin_done n k) (counting r i u))) := by
    rw [exec_marginDone, execMarginDone, decide_eq_true hn, decide_eq_true hk, Bool.and_self, guardOk_true, hon, hmargin]
    dsimp only
    rw [hlater, ← hu]
    rw [show 0x1017 + n * 256 = 0x1000 + 0x17 + n * 256 from rfl, hexam]
  have hkept : Kept (fun a => a = SP_LANE_STATUS n k) (fun _ => False) s (counting r i u) := by
    have hmod : Kept (fun a => a = SP_LANE_STATUS n k) (fun _ => False) s u :=
      hu ▸ modLane_kept n k _ ((Kept.refl _ _ s).congr rfl rfl rfl rfl)
    exact hmod.congr rfl rfl rfl rfl
  refine ⟨_, hrun, ?_, ?_, ?_, ?_, setF_kept (x := SP_LANE_STATUS_margin_pass n k) rfl (flag_kept (x := SP_LANE_STATUS_margin_done n k) rfl hkept)⟩
  · have hlane : (u.lane n k).margin = none := hu ▸ modLane_margin n k none _
    exact hlane
  · rw [hu]
    exact le_max_right _ _
  · rw [f_setF_apart (SP_LANE_STATUS_margin_pass n k) (SP_LANE_STATUS_margin_done n k) _ _ rfl rfl, f_flag _ _ rfl]
  · refine f_setF_eq (SP_LANE_STATUS_margin_pass n k) _ _ rfl ?_
    cases bad
    · exact (by decide : 1 < 2)
    · exact (by decide : 0 < 2)

/-- A bit at a checker in sync counts, and an error with it. -/
theorem prbsCount_counts (n k : ℕ) (err : Bool) (s : State) :
    (prbsCount n k err s).pair (SP_LANE_PRBS_BITS_LO n k) (SP_LANE_PRBS_BITS_HI n k) =
        min (s.pair (SP_LANE_PRBS_BITS_LO n k) (SP_LANE_PRBS_BITS_HI n k) + 1) (2 ^ 48 - 1) ∧
      ((prbsCount n k err s).rd (SP_LANE_PRBS_ERR n k)).toNat =
        (if err then min ((s.rd (SP_LANE_PRBS_ERR n k)).toNat + 1) (2 ^ 32 - 1) else (s.rd (SP_LANE_PRBS_ERR n k)).toNat) ∧
      Kept (fun a => a = SP_LANE_PRBS_ERR n k ∨ a = SP_LANE_PRBS_BITS_LO n k ∨ a = SP_LANE_PRBS_BITS_HI n k) (fun _ => False) s
        (prbsCount n k err s) := by
  obtain ⟨m, hm⟩ : ∃ m, m = min (s.pair (SP_LANE_PRBS_BITS_LO n k) (SP_LANE_PRBS_BITS_HI n k) + 1) (2 ^ 48 - 1) := ⟨_, rfl⟩
  have hpair : (setPair (SP_LANE_PRBS_BITS_LO n k) (SP_LANE_PRBS_BITS_HI n k) m s).pair (SP_LANE_PRBS_BITS_LO n k)
      (SP_LANE_PRBS_BITS_HI n k) = m :=
    (pair_setPair _ _ m s (by simp only [SP_LANE_PRBS_BITS_LO, SP_LANE_PRBS_BITS_HI]; omega)).trans (Nat.mod_eq_of_lt (by omega))
  have herr : (setPair (SP_LANE_PRBS_BITS_LO n k) (SP_LANE_PRBS_BITS_HI n k) m s).rd (SP_LANE_PRBS_ERR n k) =
      s.rd (SP_LANE_PRBS_ERR n k) := by
    rw [setPair, rd_wr_of_ne _ _ _ _ (by simp only [SP_LANE_PRBS_ERR, SP_LANE_PRBS_BITS_HI]; omega),
      rd_wr_of_ne _ _ _ _ (by simp only [SP_LANE_PRBS_ERR, SP_LANE_PRBS_BITS_LO]; omega)]
  have hkept : Kept (fun a => a = SP_LANE_PRBS_ERR n k ∨ a = SP_LANE_PRBS_BITS_LO n k ∨ a = SP_LANE_PRBS_BITS_HI n k) (fun _ => False) s
      (setPair (SP_LANE_PRBS_BITS_LO n k) (SP_LANE_PRBS_BITS_HI n k) m s) :=
    setPair_kept (.inr (.inl rfl)) (.inr (.inr rfl)) (Kept.refl _ _ s)
  rw [prbsCount, ← hm]
  cases err with
  | false => exact ⟨hpair, congrArg BitVec.toNat herr, hkept⟩
  | true =>
    rw [if_pos rfl, if_pos rfl]
    refine ⟨?_, ?_, wr_kept (.inl rfl) hkept⟩
    · rw [State.pair, rd_wr_of_ne _ _ _ _ (by simp only [SP_LANE_PRBS_BITS_LO, SP_LANE_PRBS_ERR]; omega),
        rd_wr_of_ne _ _ _ _ (by simp only [SP_LANE_PRBS_BITS_HI, SP_LANE_PRBS_ERR]; omega)]
      exact hpair
    · rw [rd_wr_self, herr, BitVec.toNat_ofNat, Nat.mod_eq_of_lt (by omega)]

theorem prbsCheck (s : State) (n k d q : ℕ) (b : Bool) : Claims.prbsCheck s n k d q b := by
  intro hn hk hon hen htest hpoly hsync hslots
  obtain ⟨r, i, hexam⟩ := examDetect_lane (detect_lane hn 0x16 (.inl rfl)) (prbsNext d q (s.lane n k).prbs.seq != b) k 0 hslots
  have hrun : exec (.prbsCheck n k [b]) s = .next (prbsBit n k d q b s) := by
    rw [exec_prbsCheck, execPrbsCheck, decide_eq_true hn, decide_eq_true hk, Bool.and_self, guardOk_true, hon, hen, htest]
    rw [if_pos (by decide), hpoly]
    rfl
  obtain ⟨u, hu⟩ : ∃ u, u = prbsCount n k (prbsNext d q (s.lane n k).prbs.seq != b) (counting r i s) := ⟨_, rfl⟩
  obtain ⟨hpair, herr, hkept⟩ := prbsCount_counts n k (prbsNext d q (s.lane n k).prbs.seq != b) (counting r i s)
  have hbit : Kept (fun a => a = SP_LANE_STATUS n k) (fun _ => False) u (prbsBit n k d q b s) := by
    rw [prbsBit, hsync, if_pos rfl, show 0x1016 + n * 256 = 0x1000 + 0x16 + n * 256 from rfl]
    dsimp only
    rw [hexam]
    dsimp only
    rw [← hu]
    exact ite_kept (setF_kept (x := SP_LANE_STATUS_prbs_sync n k) rfl (modLane_kept n k _ (Kept.refl _ _ u)))
      (modLane_kept n k _ (Kept.refl _ _ u))
  rw [← hu] at hpair herr hkept
  have hstart : Kept (fun a => a = SP_LANE_PRBS_ERR n k ∨ a = SP_LANE_PRBS_BITS_LO n k ∨ a = SP_LANE_PRBS_BITS_HI n k ∨
      a = SP_LANE_STATUS n k) (fun _ => False) s u :=
    Kept.mono (fun _ h => h.imp_right (Or.imp_right .inl)) (fun _ => id) (Kept.congr (Kept.refl _ _ s) rfl rfl rfl rfl |>.trans hkept)
  refine ⟨_, hrun, ?_, ?_, hstart.trans (hbit.mono (fun _ h => .inr (.inr (.inr h))) fun _ => id)⟩
  · rw [State.pair, hbit.1 _ (by simp only [SP_LANE_PRBS_BITS_LO, SP_LANE_STATUS]; omega),
      hbit.1 _ (by simp only [SP_LANE_PRBS_BITS_HI, SP_LANE_STATUS]; omega)]
    exact hpair
  · rw [hbit.1 _ (by simp only [SP_LANE_PRBS_ERR, SP_LANE_STATUS]; omega), herr]
    by_cases hsame : prbsNext d q (s.lane n k).prbs.seq = b
    · rw [if_pos hsame, if_neg (by rw [hsame]; simp)]
      rfl
    · rw [if_neg hsame, if_pos (bne_iff_ne.mpr hsame)]
      rfl

/-! ### Lane maps (R75 to R77) -/

theorem evtEnable_ne_jvStatus {n a : ℕ} (h : EnablesEvents n a) : a ≠ SP_JV_STATUS n := by
  simp only [EnablesEvents, SP_EVT_EN, SP_JV_EVT_EN, SP_SS_EVT_EN] at h
  simp only [SP_JV_STATUS]
  omega

theorem mapTimeout (s : State) (n : ℕ) (c : MapChg) : Claims.mapTimeout s n c := by
  intro hn hon hchg hsent htold hframes
  have hrun : exec (.mapTimeout n) s = .next (raise (0x10 + n) 0x45 0 (flag (SP_JV_STATUS_map_timeout n)
      (modJv n (fun j => { j with chg := some { c with told := true } }) s))) := by
    rw [exec_mapTimeout, execMapTimeout, decide_eq_true hn, guardOk_true, hchg]
    dsimp only
    rw [hon, hsent, htold, decide_eq_true hframes]
    rfl
  have hkept : Kept (fun a => a = SP_JV_STATUS n) (fun _ => False) s (flag (SP_JV_STATUS_map_timeout n)
      (modJv n (fun j => { j with chg := some { c with told := true } }) s)) :=
    flag_kept (x := SP_JV_STATUS_map_timeout n) rfl (modPort_kept n _ (Kept.refl _ _ s))
  refine ⟨_, hrun, ?_, ?_, ?_, raise_kept hkept⟩
  · rw [raise_f, f_flag _ _ rfl]
  · rw [raise_port, flag, setF_port, modJv, modPort_port_self]
  · exact told_raise (evtOn_port_of_kept 0x45 hn (fun a ha => evtEnable_ne_jvStatus ha) hkept) rfl

/-- A change of the lane map starts. -/
theorem startChange_starts (n : ℕ) (map : List ℕ) (spare : Option ℕ) (s : State) :
    (startChange n map spare s).f (SP_JV_STATUS_chg_busy n) = 1 ∧
      ((startChange n map spare s).port n).mapQ.length = (s.port n).mapQ.length + 2 ∧
      ((startChange n map spare s).port n).jv.chg = some { map := map, spare := spare, gen := (s.f (SP_JV_STATUS_gen n) + 1) % 256 } ∧
      Kept (fun a => a = SP_JV_STATUS n) (fun _ => False) s (startChange n map spare s) := by
  refine ⟨f_flag (SP_JV_STATUS_chg_busy n) _ rfl, ?_, ?_,
    modPort_kept n _ (flag_kept (x := SP_JV_STATUS_chg_busy n) rfl (modPort_kept n _ (Kept.refl _ _ s)))⟩
  · rw [startChange, linkWrites, modPort_port_self, flag, setF_port, modJv, modPort_port_self, List.length_append]
    rfl
  · rw [startChange, linkWrites, modPort_port_self, flag, setF_port, modJv, modPort_port_self]

theorem jvChgGo (s : State) (r : Requester) (n : ℕ) (v : Word) : Claims.jvChgGo s r n v := by
  intro hn hon
  have hserved : Served (SP_JV_CHG n) s :=
    served_port 0x110 hn hon (by simp only [SP_JV_CHG]) (by decide) (by decide)
  have hexec : exec (.jvChgGo r n v) s = .next (writeBy r (SP_JV_CHG n) (jvChgWrite n (setBits v 0 0 1)) s) := by
    rw [exec_jvChgGo, execJvChgGo, decide_eq_true hn, guardOk_true]
  have hgo : bitOf (setBits v 0 0 1).toNat 0 = true := bitOf_setBits_one v 0 (by decide)
  by_cases hidle : s.b (SP_JV_STATUS_chg_busy n) = true ∨ s.b (SP_JV_CTRL_en n) = false
  · have hstay (l : List (ℕ × ℕ)) : jvChgWrite n (setBits v 0 0 1) (held l s) = held l s := by
      refine if_pos ?_
      rw [held_b, held_b, hgo]
      rcases hidle with h | h
      · rw [h]; rfl
      · rw [h]; simp
    refine writes_of_served hexec hserved (fun l e => ?_) (fun l => ?_)
    · rw [if_pos hidle, hstay]
      exact ⟨rfl, rfl⟩
    · rw [hstay]
      exact kept_held _ _ l s
  · obtain ⟨hbusy, hen⟩ := not_or.mp hidle
    have hpass (l : List (ℕ × ℕ)) : jvChgWrite n (setBits v 0 0 1) (held l s) =
        if (s.stagedMap n).any (fun k => s.fenced n k) = true then flag (SP_JV_STATUS_bad_write n) (held l s)
        else startChange n (s.stagedMap n) (s.stagedSpare n) (held l s) := by
      refine if_neg ?_
      rw [held_b, held_b, hgo, Bool.eq_false_iff.mpr hbusy, Bool.eq_true_of_not_eq_false hen]
      decide
    by_cases hfenced : (s.stagedMap n).any (fun k => s.fenced n k) = true
    · refine writes_of_served hexec hserved (fun l e => ?_) (fun l => ?_)
      · rw [if_neg hidle, if_pos hfenced, hpass, if_pos hfenced]
        exact ⟨f_flag (SP_JV_STATUS_bad_write n) (held l s) rfl, rfl⟩
      · rw [hpass, if_pos hfenced]
        exact flag_kept (x := SP_JV_STATUS_bad_write n) rfl (kept_held _ _ l s)
    · refine writes_of_served hexec hserved (fun l e => ?_) (fun l => ?_)
      · rw [if_neg hidle, if_neg hfenced, hpass, if_neg hfenced]
        obtain ⟨hshown, hqueued, hchg, _⟩ := startChange_starts n (s.stagedMap n) (s.stagedSpare n) (held l s)
        exact ⟨hshown, hqueued, hchg⟩
      · rw [hpass, if_neg hfenced]
        exact (kept_held _ _ l s).trans (startChange_starts n (s.stagedMap n) (s.stagedSpare n) (held l s)).2.2.2

/-! ### The receiver's control register (R56, R57, R77, R78) -/

theorem jvCtrl_row {n : ℕ} (hn : n < 4) : rowAt ⟨true, some (dSP n), spRows n, 0x100⟩ =
    some ⟨0x100, [], .d, [⟨31, 16, .rw, 0x10⟩, ⟨5, 5, .rw, 0x0⟩, ⟨4, 2, .rw, 0x2⟩, ⟨0, 0, .rw, 0x0⟩]⟩ := by
  interval_cases n
  all_goals rfl

/-- The receiver's control register after a write of `v`. -/
def jvWord (w v : Word) : Word :=
  setBits (setBits (setBits (setBits w 31 16 (bitsOf v.toNat 31 16)) 5 5 (bitsOf v.toNat 5 5)) 4 2 (bitsOf v.toNat 4 2)) 0 0
    (bitsOf v.toNat 0 0)

/-- A write of the receiver's control register as it is stored. -/
def jvTaken (n : ℕ) (v : Word) (s : State) : State := wr (SP_JV_CTRL n) (jvWord (s.rd (SP_JV_CTRL n)) v) s

theorem inBlock_jvCtrl {s : State} {n : ℕ} (hn : n < 4) (hon : s.unitOn (dSP n) = true) :
    InBlock s.variant (SP_JV_CTRL n) (dSP n) (spRows n) 0x100 :=
  inBlock_port hn hon (by simp only [SP_JV_CTRL]) (by decide) (by decide)

theorem plainWrite_jvCtrl {s : State} {n : ℕ} (v : Word) (hn : n < 4) (hon : s.unitOn (dSP n) = true) :
    plainWrite (SP_JV_CTRL n) v s = jvTaken n v s :=
  plainWrite_of_row (inBlock_jvCtrl hn hon).window (jvCtrl_row hn)

theorem jvTaken_rate (n : ℕ) (v : Word) (s : State) : (jvTaken n v s).f (SP_JV_CTRL_rate n) = bitsOf v.toNat 4 2 := by
  rw [State.f, jvTaken]
  show bitsOf ((wr (SP_JV_CTRL n) _ s).rd (SP_JV_CTRL n)).toNat 4 2 = _
  rw [rd_wr_self, jvWord, RegisterMap.bitsOf_setBits_of_below _ _ _ _ _ _ (by decide) (by decide) (by decide),
    bitsOf_setBits_self _ _ _ _ (by decide) (by decide), bitsOf_mod_self]

theorem bitOf_eq_bitsOf (m i : ℕ) : bitOf m i = (bitsOf m i i != 0) := by
  rw [bitsOf, Nat.sub_self, bitOf]
  rcases Nat.mod_two_eq_zero_or_one (m / 2 ^ i) with h | h
  · simp [h]
  · simp [h]

theorem jvTaken_en (n : ℕ) (v : Word) (s : State) : (jvTaken n v s).b (SP_JV_CTRL_en n) = bitOf v.toNat 0 := by
  rw [bitOf_eq_bitsOf, State.b, State.f, jvTaken]
  show (bitsOf ((wr (SP_JV_CTRL n) _ s).rd (SP_JV_CTRL n)).toNat 0 0 != 0) = _
  rw [rd_wr_self, jvWord, bitsOf_setBits_self _ _ _ _ (by decide) (by decide), bitsOf_mod_self]

/-- A changed rate waits for the bus with the sensor's link command. -/
def rateQueued (n rate : ℕ) (s : State) : State :=
  linkWrites n true [0x78, 0x02, BitVec.ofNat 8 rate, 0, 0, 0, 0, 0] (s.f (SP_JV_STATUS_gen n))
    (modJv n (fun j => { j with newRate := j.newRate ++ [(rate, none)] }) s)

theorem rateQueued_kept {p q : ℕ → Prop} {s₀ s : State} (n rate : ℕ) (h : Kept p q s₀ s) : Kept p q s₀ (rateQueued n rate s) := by
  rw [rateQueued, linkWrites]
  exact modPort_kept n _ (modPort_kept n _ h)

theorem rateQueued_waits (n rate : ℕ) (s : State) :
    ((rateQueued n rate s).port n).jv.newRate = (s.port n).jv.newRate ++ [(rate, none)] ∧
      ((rateQueued n rate s).port n).mapQ.length = (s.port n).mapQ.length + 2 := by
  rw [rateQueued, linkWrites, modPort_port_self, modJv, modPort_port_self]
  exact ⟨rfl, List.length_append⟩

/-- A rise of the receiver's enable starts it, a fall ends it. -/
def enableStage (n : ℕ) (was : Bool) (s : State) : State :=
  if !was && s.b (SP_JV_CTRL_en n) then jvStart n s
  else if was && !s.b (SP_JV_CTRL_en n) then lanesDown n s
  else s

theorem enableStage_of_same {n : ℕ} {was : Bool} {s : State} (h : s.b (SP_JV_CTRL_en n) = was) : enableStage n was s = s := by
  rw [enableStage, h]
  cases was
  · rfl
  · rfl

theorem jvCtrlWrite_eq {n : ℕ} {v : Word} {s : State} (hn : n < 4) (hon : s.unitOn (dSP n) = true) : jvCtrlWrite n v s =
    if (decide (5 < bitsOf v.toNat 4 2) || (bitsOf v.toNat 4 2 != s.f (SP_JV_CTRL_rate n) && !s.b (SP_STATUS_idle n))) = true
      then flag (SP_JV_STATUS_bad_write n) s
    else enableStage n (s.b (SP_JV_CTRL_en n)) (if (bitsOf v.toNat 4 2 != s.f (SP_JV_CTRL_rate n)) = true
      then rateQueued n (bitsOf v.toNat 4 2) (jvTaken n v s) else jvTaken n v s) := by
  rw [← plainWrite_jvCtrl v hn hon]
  rfl

theorem jvRateWrite (s : State) (r : Requester) (n : ℕ) (v : Word) : Claims.jvRateWrite s r n v := by
  intro hn hon hen hrate
  have hexec : exec (.jvRateWrite r n v) s = .next (writeBy r (SP_JV_CTRL n) (jvCtrlWrite n v) s) := by
    rw [exec_jvRateWrite, execJvRateWrite, decide_eq_true hn, guardOk_true]
  have hchanged : (bitsOf v.toNat 4 2 != s.f (SP_JV_CTRL_rate n)) = true := bne_iff_ne.mpr hrate
  by_cases hbad : 5 < bitsOf v.toNat 4 2 ∨ s.b (SP_STATUS_idle n) = false
  · have hrefused (l : List (ℕ × ℕ)) : jvCtrlWrite n v (held l s) = flag (SP_JV_STATUS_bad_write n) (held l s) := by
      rw [jvCtrlWrite_eq (s := held l s) hn hon]
      refine if_pos ?_
      rw [held_b, held_f, hchanged]
      rcases hbad with h | h
      · rw [decide_eq_true h, Bool.true_or]
      · rw [h]; simp
    refine writes_of_served hexec (served_of_unitOn (inBlock_jvCtrl hn hon) hon) (fun l e => ?_) (fun l => ?_)
    · rw [if_pos hbad, hrefused]
      refine ⟨f_flag (SP_JV_STATUS_bad_write n) (held l s) rfl, ?_, rfl⟩
      exact rd_wr_of_ne _ _ _ (held l s) (by simp only [SP_JV_CTRL, SP_JV_STATUS_bad_write, SP_JV_STATUS]; omega)
    · rw [hrefused]
      exact flag_kept (x := SP_JV_STATUS_bad_write n) (.inr rfl) (kept_held _ _ l s)
  · obtain ⟨hlow, hidle⟩ := not_or.mp hbad
    have htaken (l : List (ℕ × ℕ)) : jvCtrlWrite n v (held l s) = rateQueued n (bitsOf v.toNat 4 2) (jvTaken n v (held l s)) := by
      have hen' : (rateQueued n (bitsOf v.toNat 4 2) (jvTaken n v (held l s))).b (SP_JV_CTRL_en n) = s.b (SP_JV_CTRL_en n) :=
        (jvTaken_en n v (held l s)).trans hen
      rw [jvCtrlWrite_eq (s := held l s) hn hon, held_f, hchanged, held_b, held_b, decide_eq_false hlow,
        Bool.eq_true_of_not_eq_false hidle, if_neg (by decide), if_pos rfl, enableStage_of_same hen']
    refine writes_of_served hexec (served_of_unitOn (inBlock_jvCtrl hn hon) hon) (fun l e => ?_) (fun l => ?_)
    · rw [if_neg hbad, htaken]
      exact ⟨jvTaken_rate n v (held l s), rateQueued_waits n (bitsOf v.toNat 4 2) (jvTaken n v (held l s))⟩
    · rw [htaken]
      exact rateQueued_kept n _ (wr_kept (.inl rfl) (kept_held _ _ l s))

/-! ### The receiver is enabled (R56, R57, R77) -/

theorem showRoles_kept {p q : ℕ → Prop} {s₀ s : State} {n : ℕ} (hp : ∀ k < 12, p (SP_LANE_STATUS n k)) (h : Kept p q s₀ s) :
    Kept p q s₀ (showRoles n s) :=
  foldl_kept (fun _ k hk hu => ite_kept hu (setF_kept (x := SP_LANE_STATUS_role n k) (hp k (List.mem_range.mp hk)) hu)) h

theorem ite_setF_port {c : Prop} [Decidable c] (x : Fld) (v n : ℕ) (s : State) : (if c then s else setF x v s).port n = s.port n := by
  split
  · rfl
  · rfl

theorem showRoles_port (n : ℕ) (s : State) : (showRoles n s).port n = s.port n :=
  foldl_keeps (g := fun s => s.port n) (fun s _ => ite_setF_port _ _ n s) _ s

/-- A receiver starts with no staged lane fenced. -/
theorem jvStart_eq {n : ℕ} {s : State} (hfenced : (s.stagedMap n).any (fun k => s.fenced n k) = false) : jvStart n s =
    showSpare n (presetAll n (setF (SP_JV_STATUS_aligned n) 0 (showRoles n (modJv n (fun j => { j with
      map := s.stagedMap n, spare := s.stagedSpare n, win := none, fails := 0, tick := s.now / Config.ms * Config.ms }) s)))) := by
  rw [jvStart, hfenced]
  rfl

/-- The staged map and spare read three registers, and the lanes' roles. -/
theorem staged_of_kept {q : ℕ → Prop} {n : ℕ} {s u : State} (h : Kept (· = SP_JV_CTRL n) q s u) :
    u.stagedMap n = s.stagedMap n ∧ u.stagedSpare n = s.stagedSpare n ∧ ∀ k, u.fenced n k = s.fenced n k := by
  have hlow : u.rd (SP_JV_ORDER0 n) = s.rd (SP_JV_ORDER0 n) := h.1 _ (by simp only [SP_JV_ORDER0, SP_JV_CTRL]; omega)
  have hhigh : u.rd (SP_JV_ORDER1 n) = s.rd (SP_JV_ORDER1 n) := h.1 _ (by simp only [SP_JV_ORDER1, SP_JV_CTRL]; omega)
  have hlane (i : ℕ) : u.stagedLane n i = s.stagedLane n i := by rw [State.stagedLane, hlow, hhigh, State.stagedLane]
  have hne : SP_JV_MAP n ≠ SP_JV_CTRL n := by
    simp only [SP_JV_MAP, SP_JV_CTRL]
    omega
  have hcount : u.f (SP_JV_MAP_count n) = s.f (SP_JV_MAP_count n) := h.f_eq (SP_JV_MAP_count n) hne
  have hspare : u.f (SP_JV_MAP_spare n) = s.f (SP_JV_MAP_spare n) := h.f_eq (SP_JV_MAP_spare n) hne
  have hspareEn : u.b (SP_JV_MAP_spare_en n) = s.b (SP_JV_MAP_spare_en n) :=
    congrArg (· != 0) (h.f_eq (SP_JV_MAP_spare_en n) hne)
  have hstaged : u.stagedMap n = s.stagedMap n := by
    rw [State.stagedMap, hcount, funext hlane, State.stagedMap]
  have hfenced (k : ℕ) : u.fenced n k = s.fenced n k := by
    have hrole : u.role n k = s.role n k := h.f_eq (SP_LANE_STATUS_role n k) (by
      simp only [SP_LANE_STATUS_role, SP_LANE_STATUS, SP_JV_CTRL]
      omega)
    rw [State.fenced, hrole, State.fenced]
  refine ⟨hstaged, ?_, hfenced⟩
  rw [State.stagedSpare, hspare, hspareEn, hcount, hstaged, State.stagedSpare]
  simp only [hfenced]

theorem jvCtrl_not_linkShown (n : ℕ) : ¬ linkShown n (SP_JV_CTRL n) := by
  rintro (h | h)
  · simp only [SP_JV_CTRL, SP_JV_STATUS] at h
    omega
  · obtain ⟨k, _, hk⟩ := List.any_eq_true.mp h
    simp only [SP_JV_CTRL, SP_LANE_STATUS, beq_iff_eq] at hk
    omega

theorem lanePreset_aligned (n k : ℕ) (s : State) : (lanePreset n k s).f (SP_JV_STATUS_aligned n) = s.f (SP_JV_STATUS_aligned n) := by
  rw [lanePreset]
  exact laneHunt_jvStatus n k 12 12 _ rfl

theorem presetAll_aligned (n : ℕ) (s : State) : (presetAll n s).f (SP_JV_STATUS_aligned n) = s.f (SP_JV_STATUS_aligned n) :=
  foldl_keeps (g := fun s => s.f (SP_JV_STATUS_aligned n)) (fun s k => lanePreset_aligned n k s) _ s

theorem showSpare_port (n : ℕ) (s : State) : (showSpare n s).port n = s.port n := rfl

theorem showSpare_aligned (n : ℕ) (s : State) : (showSpare n s).f (SP_JV_STATUS_aligned n) = s.f (SP_JV_STATUS_aligned n) :=
  f_setF_apart (SP_JV_STATUS_spare_avail n) (SP_JV_STATUS_aligned n) _ _ rfl rfl

/-- A receiver that starts has the staged map, and no lane in lock (R57, R77). -/
theorem jvStart_starts {n : ℕ} {s : State} (hfenced : (s.stagedMap n).any (fun k => s.fenced n k) = false) :
    ((jvStart n s).port n).jv.map = s.stagedMap n ∧ ((jvStart n s).port n).jv.spare = s.stagedSpare n ∧
      (jvStart n s).b (SP_JV_STATUS_aligned n) = false ∧ (∀ k < 12, (jvStart n s).f (SP_LANE_STATUS_lock n k) = 0) ∧
      Kept (linkShown n) (fun _ => False) s (jvStart n s) := by
  obtain ⟨u, hu⟩ : ∃ u, u = showRoles n (modJv n (fun j => { j with
      map := s.stagedMap n, spare := s.stagedSpare n, win := none, fails := 0, tick := s.now / Config.ms * Config.ms }) s) := ⟨_, rfl⟩
  have hjv : (u.port n).jv.map = s.stagedMap n ∧ (u.port n).jv.spare = s.stagedSpare n := by
    rw [hu, showRoles_port, modJv, modPort_port_self]
    exact ⟨rfl, rfl⟩
  have hkept : Kept (linkShown n) (fun _ => False) s u :=
    hu ▸ showRoles_kept (fun k hk => linkShown_lane hk) (modPort_kept n _ (Kept.refl _ _ s))
  obtain ⟨w, hw⟩ : ∃ w, w = presetAll n (setF (SP_JV_STATUS_aligned n) 0 u) := ⟨_, rfl⟩
  have hport : (w.port n).jv = (u.port n).jv := by rw [hw, presetAll_jv, setF_port]
  have haligned : w.f (SP_JV_STATUS_aligned n) = 0 := by rw [hw, presetAll_aligned, f_clear _ _ rfl]
  have hlock (k : ℕ) (hk : k < 12) : w.f (SP_LANE_STATUS_lock n k) = 0 := by rw [hw, presetAll_lock hk]
  have hpreset : Kept (linkShown n) (fun _ => False) s w :=
    hw ▸ presetAll_kept (fun _ => id) (setF_kept (x := SP_JV_STATUS_aligned n) (linkShown_jv n) hkept)
  rw [jvStart_eq hfenced, ← hu, ← hw]
  refine ⟨by rw [showSpare_port, hport, hjv.1], by rw [showSpare_port, hport, hjv.2], ?_, fun k hk => ?_,
    setF_kept (x := SP_JV_STATUS_spare_avail n) (linkShown_jv n) hpreset⟩
  · rw [State.b, showSpare_aligned, haligned]
    rfl
  · exact (f_setF_of_ne (SP_JV_STATUS_spare_avail n) _ _ _ (laneStatus_ne_jvStatus n k)).trans (hlock k hk)

/-- An enable at the rate the receiver has is taken. -/
theorem jvCtrlWrite_enable {n : ℕ} {v : Word} {s : State} (hn : n < 4) (hon : s.unitOn (dSP n) = true)
    (hen : s.b (SP_JV_CTRL_en n) = false) (hlow : bitsOf v.toNat 4 2 ≤ 5) (hrate : bitsOf v.toNat 4 2 = s.f (SP_JV_CTRL_rate n)) :
    jvCtrlWrite n (setBits v 0 0 1) s = jvStart n (jvTaken n (setBits v 0 0 1) s) := by
  have hsame : bitsOf (setBits v 0 0 1).toNat 4 2 = bitsOf v.toNat 4 2 :=
    RegisterMap.bitsOf_setBits_of_below v 0 0 1 4 2 (le_refl 0) (by decide) (by decide)
  have hset : (jvTaken n (setBits v 0 0 1) s).b (SP_JV_CTRL_en n) = true :=
    (jvTaken_en n _ _).trans (bitOf_setBits_one v 0 (by decide))
  have hpass : ¬ (decide (5 < bitsOf v.toNat 4 2) || (bitsOf v.toNat 4 2 != s.f (SP_JV_CTRL_rate n) && !s.b (SP_STATUS_idle n))) = true := by
    rw [decide_eq_false (not_lt.mpr hlow), ← hrate, bne_self_eq_false, Bool.false_and]
    decide
  have hkeep : ¬ (bitsOf v.toNat 4 2 != s.f (SP_JV_CTRL_rate n)) = true := by
    rw [← hrate, bne_self_eq_false]
    decide
  rw [jvCtrlWrite_eq hn hon, hsame, if_neg hpass, if_neg hkeep, hen, enableStage, hset, if_pos (by decide)]

/-- A receiver that runs with map `m` and spare `sp`, not aligned, lane `k` out of lock. -/
def Started (n : ℕ) (m : List ℕ) (sp : Option ℕ) (k : ℕ) (t : State) : Prop :=
  t.b (SP_JV_CTRL_en n) = true ∧ (t.port n).jv.map = m ∧ (t.port n).jv.spare = sp ∧
    t.b (SP_JV_STATUS_aligned n) = false ∧ t.f (SP_LANE_STATUS_lock n k) = 0

theorem started_answered {n k : ℕ} {m : List ℕ} {sp : Option ℕ} {t : State} (r : Requester) (w : Word) (e : List Ev) (h : Started n m sp k t) :
    Started n m sp k (answer r w (telling e t)) := h

/-- A start under an enable that stands, with no staged lane fenced. -/
theorem jvStart_started {n k : ℕ} {s : State} (hk : k < 12) (hen : s.b (SP_JV_CTRL_en n) = true)
    (hfenced : (s.stagedMap n).any (fun k => s.fenced n k) = false) :
    Started n (s.stagedMap n) (s.stagedSpare n) k (jvStart n s) := by
  obtain ⟨hmap, hspare, haligned, hlock, hkept⟩ := jvStart_starts hfenced
  have hsame : (jvStart n s).f (SP_JV_CTRL_en n) = s.f (SP_JV_CTRL_en n) :=
    hkept.f_eq (SP_JV_CTRL_en n) (jvCtrl_not_linkShown n)
  have hset : (jvStart n s).b (SP_JV_CTRL_en n) = true := by
    rw [State.b, hsame, ← State.b, hen]
  exact ⟨hset, hmap, hspare, haligned, hlock k hk⟩

/-- What an enable does to the link, in one place. -/
theorem jvEnable_starts {n k : ℕ} {v : Word} {s : State} (hk : k < 12)
    (hclear : (s.stagedMap n).all (fun k => !s.fenced n k) = true) (l : List (ℕ × ℕ)) :
    Started n (s.stagedMap n) (s.stagedSpare n) k (jvStart n (jvTaken n (setBits v 0 0 1) (held l s))) ∧
      Kept (fun a => a = SP_JV_CTRL n ∨ linkShown n a) (fun _ => False) s
        (jvStart n (jvTaken n (setBits v 0 0 1) (held l s))) := by
  obtain ⟨u, hu⟩ : ∃ u, u = jvTaken n (setBits v 0 0 1) (held l s) := ⟨_, rfl⟩
  have hstored : Kept (· = SP_JV_CTRL n) (fun _ => False) s u := hu ▸ wr_kept rfl (kept_held _ _ l s)
  have hset : u.b (SP_JV_CTRL_en n) = true := hu ▸ (jvTaken_en n _ _).trans (bitOf_setBits_one v 0 (by decide))
  obtain ⟨hmap, hspare, hfen⟩ := staged_of_kept hstored
  have hfenced : (u.stagedMap n).any (fun k => u.fenced n k) = false := by
    rw [hmap, funext hfen, List.any_eq_false]
    intro i hi
    simpa using List.all_eq_true.mp hclear i hi
  obtain ⟨_, _, _, _, hkept⟩ := jvStart_starts hfenced
  rw [← hu, ← hmap, ← hspare]
  exact ⟨jvStart_started hk hset hfenced, (hstored.mono (fun _ => .inl) fun _ => id).trans (hkept.mono (fun _ => .inr) fun _ => id)⟩

theorem jvEnable_taken {n : ℕ} {v : Word} {s : State} (hn : n < 4) (hon : s.unitOn (dSP n) = true)
    (hen : s.b (SP_JV_CTRL_en n) = false) (hlow : bitsOf v.toNat 4 2 ≤ 5) (hrate : bitsOf v.toNat 4 2 = s.f (SP_JV_CTRL_rate n))
    (l : List (ℕ × ℕ)) :
    jvCtrlWrite n (setBits v 0 0 1) (held l s) = jvStart n (jvTaken n (setBits v 0 0 1) (held l s)) :=
  jvCtrlWrite_enable (s := held l s) hn hon hen hlow hrate

theorem jvEnable (s : State) (r : Requester) (n : ℕ) (v : Word) (k : ℕ) : Claims.jvEnable s r n v k := by
  intro hn hk hon hen hlow hrate hclear
  have hexec : exec (.jvEnable r n v) s = .next (writeBy r (SP_JV_CTRL n) (jvCtrlWrite n (setBits v 0 0 1)) s) := by
    rw [exec_jvEnable, execJvEnable, decide_eq_true hn, guardOk_true]
  have htaken := jvEnable_taken hn hon hen hlow hrate
  exact writes_of_served (P := Started n (s.stagedMap n) (s.stagedSpare n) k) hexec
    (served_of_unitOn (inBlock_jvCtrl hn hon) hon)
    (fun l e => started_answered r 0 e (htaken l ▸ (jvEnable_starts hk hclear l).1))
    (fun l => htaken l ▸ (jvEnable_starts hk hclear l).2)

/-- Settles O21: the receiver's enable and rate, the lane maps, and the commands and tests of the lanes. -/
theorem javelMapsRatesAndLanes : Obligations.JavelMapsRatesAndLanes := by
  unfold Obligations.JavelMapsRatesAndLanes
  exact ⟨jvEnable, jvRateWrite, rateSwitch, jvChgGo, mapTimeout, laneReadapt, laneReadmit, prbsCntClr, marginGo, marginDone, prbsCheck⟩

end Sys2Proof.Proofs.JavelLink
